-- ==== Sys2Proof/Word.lean ====
section
/-! DEFINITION. Words, bits and the two plain containers of the model: a sparse table kept in one
canonical form (registers and memories) and a fixed-length vector read by an index. -/

namespace Sys2Proof

/-- A 32-bit word (R5). -/
abbrev Word := BitVec 32
/-- One byte. -/
abbrev Byte := BitVec 8

/-- Sparse data by key: rising keys, no entry equal to the value that an unlisted key reads as. -/
abbrev Tab (β : Type) := List (Nat × β)

namespace Tab
variable {β : Type} [DecidableEq β]

/-- The value at a key; `z` is what an unlisted key reads as. -/
def get (z : β) : Tab β → Nat → β
  | [], _ => z
  | (k', v) :: t, k => if k' = k then v else get z t k

/-- The table with one key taken out. -/
def erase (t : Tab β) (k : Nat) : Tab β := t.filter (fun e => decide (e.1 ≠ k))

/-- Put an entry where its key belongs. -/
def insert (k : Nat) (v : β) : Tab β → Tab β
  | [] => [(k, v)]
  | (k', v') :: t => if k < k' then (k, v) :: (k', v') :: t else (k', v') :: insert k v t

/-- Write a key; writing the unlisted value takes the entry out. -/
def put (z : β) (t : Tab β) (k : Nat) (v : β) : Tab β :=
  if v = z then t.erase k else insert k v (t.erase k)

/-- Keys strictly rise from `lo` on and no entry is the unlisted value. -/
def wfFrom (z : β) : Nat → Tab β → Bool
  | _, [] => true
  | lo, (k, v) :: t => decide (lo ≤ k) && decide (v ≠ z) && wfFrom z (k + 1) t

/-- The canonical form. -/
def wf (z : β) (t : Tab β) : Bool := wfFrom z 0 t

/-- Write several consecutive keys. -/
def putList (z : β) (t : Tab β) (k : Nat) : List β → Tab β
  | [] => t
  | v :: vs => putList z (t.put z k v) (k + 1) vs

/-- Consecutive keys from `k` on, without the entries that hold the unlisted value. -/
def ofList (z : β) : Nat → List β → Tab β
  | _, [] => []
  | k, v :: vs => if v = z then ofList z (k + 1) vs else (k, v) :: ofList z (k + 1) vs

/-- Write a whole range at once: what `putList` gives, in one pass over the table. -/
def graft (z : β) (t : Tab β) (k : Nat) (vs : List β) : Tab β :=
  t.filter (fun e => decide (e.1 < k)) ++ ofList z k vs ++ t.filter (fun e => decide (k + vs.length ≤ e.1))

/-- The entries of keys `lo ≤ k < hi`, with `lo` taken off their keys. -/
def cut (lo hi : Nat) (t : Tab β) : Tab β :=
  (t.filter (fun e => decide (lo ≤ e.1) && decide (e.1 < hi))).map (fun e => (e.1 - lo, e.2))

/-- `n` consecutive values from key `k` on, in one pass over a table in the canonical form. -/
def run (z : β) (t : Tab β) (k : Nat) : Nat → List β
  | 0 => []
  | n + 1 =>
    match t.dropWhile (fun e => decide (e.1 < k)) with
    | (k', v) :: t' => if k' = k then v :: run z t' (k + 1) n else z :: run z ((k', v) :: t') (k + 1) n
    | [] => List.replicate (n + 1) z

end Tab

/-- Vectors read and written by an index that is in range. -/
def vget {α : Type} {n : Nat} (v : Vector α n) (i : Fin n) : α := v[i.val]

/-- Replace one element of a vector by a function of it. -/
def vupd {α : Type} {n : Nat} (v : Vector α n) (i : Fin n) (f : α → α) : Vector α n :=
  v.set i.val (f v[i.val])

/-- Bit `i` of a number. -/
def nbit (v i : Nat) : Bool := v.testBit i

/-- Bits `lo` to `lo + w - 1` of a number. -/
def nbits (v lo w : Nat) : Nat := v / 2 ^ lo % 2 ^ w

/-- 1 for true, 0 for false. -/
def b2n (b : Bool) : Nat := if b then 1 else 0

/-- A number read as a two's complement value of `w` bits. -/
def sgn (w v : Nat) : Int := if v % 2 ^ w < 2 ^ (w - 1) then (v % 2 ^ w : Nat) else (v % 2 ^ w : Nat) - (2 ^ w : Nat)

/-- The two's complement code of a value in `w` bits. -/
def uns (w : Nat) (v : Int) : Nat := (v % (2 ^ w : Nat)).toNat

/-- A value held to a range. -/
def clampI (lo hi v : Int) : Int := if v < lo then lo else if hi < v then hi else v

/-- Count up and stay at the top. -/
def satUp (top v n : Nat) : Nat := min top (v + n)

/-- Number `a` is newer than `b` as R36 compares sequence numbers. -/
def newer32 (a b : Nat) : Bool :=
  let d := (a + 2 ^ 32 - b % 2 ^ 32) % 2 ^ 32
  decide (1 ≤ d) && decide (d ≤ 2 ^ 31 - 1)

/-- The bytes of a number, lowest first (R2). -/
def leBytes : Nat → Nat → List Byte
  | 0, _ => []
  | n + 1, v => BitVec.ofNat 8 v :: leBytes n (v / 256)

/-- The number that bytes spell, lowest first (R2). -/
def ofLe : List Byte → Nat
  | [] => 0
  | b :: t => b.toNat + 256 * ofLe t

end Sys2Proof
end

