-- ==== Sys2Proof/Syntax.lean ====
section
/-! DEFINITION. What a command may carry: lanes, functions, frames, the structure image, drive-engine
instructions; and Instr, one constructor per row of the opcode table. -/

namespace Sys2Proof

/-- The three lanes (R13, R15). -/
inductive LaneId | a | b | c
  deriving DecidableEq, Repr
/-- The letter's code (R29). -/
def LaneId.code : LaneId → Nat | .a => 0 | .b => 1 | .c => 2
/-- A neighbour, named as in R90: the next lane of A is B, of B is C, of C is A. -/
inductive Side | prev | next
  deriving DecidableEq, Repr
/-- The neighbour of a lane on a side (R90). -/
def LaneId.nb : LaneId → Side → LaneId
  | .a, .next => .b | .b, .next => .c | .c, .next => .a
  | .a, .prev => .c | .b, .prev => .a | .c, .prev => .b
/-- Index of a side in the two-element vectors. -/
def Side.ix : Side → Fin 2 | .prev => 0 | .next => 1
/-- The lane with a code, if there is one (R29). -/
def LaneId.ofCode : Nat → Option LaneId
  | 0 => some .a | 1 => some .b | 2 => some .c | _ => none

/-- The five functions (R19, R117). -/
inductive Func | steer | feel | brake | trail | park
  deriving DecidableEq, Repr
/-- Number of a function (R117). -/
def Func.ix : Func → Fin 5 | .steer => 0 | .feel => 1 | .brake => 2 | .trail => 3 | .park => 4
/-- Code of a function. -/
def Func.code (f : Func) : Nat := f.ix.val
/-- All functions in the order of FUNC (R69). -/
def Func.all : List Func := [.steer, .feel, .brake, .trail, .park]
/-- The function with a code. -/
def Func.ofCode : Nat → Option Func
  | 0 => some .steer | 1 => some .feel | 2 => some .brake | 3 => some .trail | 4 => some .park | _ => none

/-- Bridge ports BP_0 to BP_2 (R11). -/
abbrev Port := Fin 3
/-- Drive engines DE_0 to DE_3 (R154). -/
abbrev Engine := Fin 4
/-- Application cores 0 to 3 (R126). -/
abbrev Core := Fin 4
/-- Pairs P_0 and P_1 (R126). -/
abbrev Pair := Fin 2
/-- A register number of a drive engine (R155). -/
abbrev Reg := BitVec 5

/-! ### Frames on the lane links -/

/-- A reference record (R175); the zero bytes are left out. -/
structure RefRecord where
  func : Func
  lane : LaneId
  seq : Nat
  trel : Nat
  value : Word
  svMa : Vector Nat 4
  deriving DecidableEq, Repr

/-- A sensor record (R233). -/
structure SensorRecord where
  port : Port
  lane : LaneId
  valid : Bool
  still : Bool
  src : Nat
  angle : Word
  tcap : Nat
  speed : Word
  deriving DecidableEq, Repr

/-- What a frame of the sensor class carries (R233): a record, or the data word of SENT input s. -/
inductive SensorFrame
  | reading (r : SensorRecord)
  | sentWord (s : Fin 2) (w : Word)
  deriving DecidableEq, Repr

/-- What a lane says of one function in its status frames; `proposal` holds its proposal of R48 as ACT + 4 STB + 16 ARB,
3 where no lane has the role (R47, R48, R50, R88, R110, R115, R439, R596). -/
structure FuncReport where
  role : Nat
  mode : Nat
  cause : Nat
  serves : Bool
  autumnMs : Nat
  rotIndex : Nat
  histSeq : Nat
  period : Nat
  miss : Nat
  supplyCause : Nat
  sensorLoss : Bool
  join : Bool
  selected : Nat
  override : Bool
  engaged : Nat
  proposal : Nat
  deriving DecidableEq, Repr

/-- A status frame (R17, R89 and the rules that say what it carries). -/
structure StatusFrame where
  state : Nat
  elected : Bool
  gatherLeft : Nat
  featLocked : Bool
  featSet : Nat
  hostSets : Vector Nat 4
  digest : Nat
  barred : Bool
  cm : Nat
  faults : Nat
  parkOff : Bool
  voteLost : Bool
  still : Vector Bool 3
  revref : Vector Bool 3
  phase : Vector Nat 3
  silent : Vector Nat 2
  sinceInc : Vector Nat 2
  funcs : Vector FuncReport 5
  updState : Nat
  updDigest : Nat
  updChunks : Nat
  updPrepare : Bool
  updRestart : Option Nat
  updActive : Nat
  updReverted : Option Nat
  tokenOpen : Bool
  electFailed : Bool
  deriving DecidableEq, Repr

/-- A time frame (R403): the sender's device time at its send instant and, of the last time frame that the sender received from this
neighbour, what it carried and the sender's device time at its arrival, in units of 2^-16 ns. -/
structure TimeFrame where
  sent : Nat
  echo : Option (Nat × Nat)
  state : Nat
  agreePrev : Bool
  agreeNext : Bool
  leader : Bool
  acq : Bool
  disc : Nat
  gmOffset : Option Int
  gmId : Nat
  gmSeq : Nat
  step : Option (Int × Nat)
  jumpPend : Bool
  request : Nat
  deriving DecidableEq, Repr

/-! ### The structure image (R59 to R81) -/

/-- One record of FUNC (R69). -/
structure FuncRec where
  present : Nat
  port : Nat
  ganged : Nat
  svMask : Nat
  roleOrder : Nat
  loop : Nat
  pwmFreq : Nat
  share : Vector Nat 3
  deriving DecidableEq, Repr
/-- One solenoid record (R71). -/
structure SvRec where
  safe : Nat
  safeMa : Nat
  maxMa : Nat
  deriving DecidableEq, Repr
/-- One port record of SENSE (R72). -/
structure SenseRec where
  srcMask : Nat
  polePairs : Nat
  qeFilt : Nat
  encCounts : Nat
  resExc : Nat
  voteTol : Nat
  hfiMax : Nat
  hfiXcheck : Nat
  deriving DecidableEq, Repr
/-- One SENT record (R72). -/
structure SentRec where
  tick : Nat
  pause : Nat
  use : Nat
  deriving DecidableEq, Repr
/-- One mode descriptor of SLAZ (R73). -/
structure ModeRec where
  cycles : Nat
  windows : Nat
  first : Nat
  count : Nat
  cycleLen : Nat
  deriving DecidableEq, Repr
/-- The kinds of a window (R373). -/
inductive WinKind | exclusive | arbitrating | reference | vote
  deriving DecidableEq, Repr
/-- One window entry (R373). -/
structure SlazEntry where
  cycBase : Nat
  rept : Nat
  window : Nat
  chan : Fin 2
  kind : WinKind
  tx : Bool
  rx : Bool
  ident : Nat
  dlc : Nat
  buf : Nat
  start : Nat
  len : Nat
  deriving DecidableEq, Repr
/-- The SLAZ section (R73). -/
structure SlazSec where
  arbRate : Nat
  dataRate : Nat
  rank : Nat
  modes : Nat
  desc : Vector ModeRec 8
  entries : List SlazEntry
  deriving DecidableEq, Repr
/-- The FAULT section (R74); severities as (source, severity) for the sources not at severity 0. -/
structure FaultSec where
  mode : Nat
  react : Vector Nat 8
  sev : Tab Nat
  deriving DecidableEq, Repr
/-- One host-port record (R75). -/
structure HostPortRec where
  present : Nat
  kind : Nat
  transport : Nat
  perm : Nat
  cred : Nat
  deriving DecidableEq, Repr
/-- One queue record (R75). -/
structure QueueRec where
  port : Nat
  dir : Nat
  depth : Nat
  deriving DecidableEq, Repr
/-- One authority record (R75). -/
structure AuthRec where
  rank : Vector Nat 4
  ovrTorque : Nat
  ovrMs : Nat
  release : Nat
  deriving DecidableEq, Repr
/-- One POWER record (R76). -/
structure PowerRec where
  allow : Nat
  hostMask : Nat
  deriving DecidableEq, Repr
/-- One function record of SEASON (R77). -/
structure SeasonRec where
  autumnS : Nat
  rateLimit : Nat
  speedReq : Nat
  winterDecel : Nat
  deriving DecidableEq, Repr
/-- One retained-value record of START (R79). -/
structure RetRec where
  ident : Nat
  inst : Nat
  lo : Int
  hi : Int
  dflt : Int
  deriving DecidableEq, Repr
/-- The parameter block of START (R78). -/
structure StartSec where
  armMode : Nat
  gatherMs : Nat
  armVdcMin : Nat
  prechargeMs : Nat
  kmisMs : Nat
  recs : List RetRec
  deriving DecidableEq, Repr
/-- The TIME section (R80). -/
structure TimeSec where
  rxCorr : Int
  txCorr : Int
  jumpNs : Nat
  asEnable : Nat
  deriving DecidableEq, Repr
/-- One switch record of AGEING (R81). -/
structure SwitchRec where
  rthJc : Nat
  tauMs : Nat
  rthCa : Nat
  cmExp : Nat
  cmN0 : Nat
  deriving DecidableEq, Repr
/-- One directory entry (R62). -/
structure DirEntry where
  type : Nat
  lane : Nat
  sver : Nat
  offset : Nat
  len : Nat
  reserved : Nat
  deriving DecidableEq, Repr
/-- The header (R60). -/
structure ImageHeader where
  magic : Nat
  format : Nat
  fptVersion : Nat
  targetPart : Nat
  minStepping : Nat
  keySlot : Nat
  totalLen : Nat
  sectionCount : Nat
  retainedSchema : Nat
  imageVersion : Nat
  featReq : Nat
  deriving DecidableEq, Repr
/-- What the image's sections give one lane (R63, R64). -/
structure Sections where
  func : Vector FuncRec 5
  sv : Vector SvRec 4
  sense : Vector SenseRec 3
  sent : Vector SentRec 2
  slaz : SlazSec
  fault : FaultSec
  hostPort : Vector HostPortRec 4
  queue : Vector QueueRec 16
  auth : Vector AuthRec 5
  power : Vector PowerRec 8
  season : Vector SeasonRec 5
  eqxS : Nat
  eqxSteer : Nat
  eqxBrake : Nat
  start : StartSec
  time : TimeSec
  switches : Vector SwitchRec 3
  kmOps : Nat
  kpOps : Nat
  gdHours : Nat
  deriving DecidableEq, Repr
/-- What P_1 has for the authority of a function at a release (R439, R440): whether the voted hand-wheel angle and the pedal
channel are valid, the voted hand-wheel torque in 0.01 N·m, and the pedal's demand. -/
structure AuthIn where
  wheel : Bool
  pedal : Bool
  torque : Nat
  demand : Word
  deriving DecidableEq, Repr
/-- The structure image as a lane has read it (R59 to R64): header, directory, the sections it uses, the digest of R61, the stored
length (R66 check 1), whether the signature of R61 verifies, the first directory entry with padding that is not 0 (R63), and the
reserved bytes of its sections that are not 0 (type, offset). -/
structure Image where
  header : ImageHeader
  storedLen : Nat
  dir : List DirEntry
  digest : Nat
  sigOk : Bool
  padBad : Option Nat
  badReserved : List (Nat × Nat)
  sec : Sections
  deriving DecidableEq, Repr

/-! ### Measurements and messages -/

/-- A row that the march finds failing, by the array's code (4: an array without spare rows), and how many of the spare rows tried in
its place fail too (R539, R540). -/
structure MarchRow where
  array : Nat
  row : Nat
  badSpares : Nat
  deriving DecidableEq, Repr
/-- What step 4 measures (R536): per port the sums of 256 conversions of the reference-current path, of the shorted inputs and of the
calibration references SRC 2 and SRC 3; the codes of general ADC inputs 21 to 23; and what each of the nineteen DACs reads at 25 % and at
75 %, in 2^-16 of full scale. -/
structure AnalogReadings where
  path : Vector Int 3
  zero : Vector Int 3
  refP : Vector Int 3
  refN : Vector Int 3
  adc : Vector Nat 3
  dac : Vector (Nat × Nat) 19
  deriving DecidableEq, Repr
/-- What a Solstice test finds (R535 to R540): the failing rows of step 1 in order, whether the signatures of step 2 agree with the ROM's
and whether step 3 reads back what it wrote, the measurements of step 4, the comparators that failed as GD_TEST_RES_0 and _1 show
them, the duration of each step in µs and the stuck-at coverage of step 2. -/
structure SolsticeResult where
  march : List MarchRow
  bistOk : Bool
  storeOk : Bool
  analog : AnalogReadings
  res0 : Word
  res1 : Word
  times : Vector Nat 4
  covLogic : Nat
  deriving DecidableEq, Repr
/-- One SENT frame as its pulses last (R231): sync pulse, and status, six data and CRC nibbles in order, in ns. -/
structure SentFrame where
  syncNs : Nat
  nibNs : Vector Nat 8
  deriving DecidableEq, Repr
/-- What a port's SENSE inputs or other voltages of the off-state diagnostics read (R299), in 0.01 of x_VDC:
per phase the own pull-up reading, the mean of the other two under it, and the own pull-down reading. -/
structure ZReading where
  pullUp : Nat
  othersMean : Nat
  pullDown : Nat
  deriving DecidableEq, Repr
/-- A data or vote frame as received (R367, R368, R370): its payload begins with the Slaz header; `kindOk` says that it is an FD frame of
the base format with BRS set, and no remote frame. -/
structure SlazFrame where
  ident : Nat
  dlc : Nat
  payload : List Byte
  kindOk : Bool
  deriving DecidableEq, Repr
/-- A reference frame: the rank that its identifier gives, and the fields of its payload (R368, R369). -/
structure SlazRef where
  rank : Fin 8
  cyc : Nat
  init : Bool
  mode : Nat
  nmode : Nat
  sw : Bool
  mcnt : Nat
  deriving DecidableEq, Repr
/-- A queue descriptor (R432). -/
structure Descr where
  op : Nat
  flags : Nat
  tag : Nat
  index : Nat
  status : Nat
  args : List Byte
  deriving DecidableEq, Repr
/-- A UDP host frame (R428): the SESSION field, FREED per queue, descriptors with their queue, the signature. -/
structure HostFrame where
  magic : Nat
  version : Nat
  port : Nat
  dirf : Nat
  session : Nat
  fcnt : Nat
  freed : Vector Nat 16
  descrs : List (Fin 16 × Descr)
  sig : List Byte
  deriving DecidableEq, Repr
/-- How a host command reached the lane: the port, and what its own fields carry (R432). -/
structure HostCmd where
  port : Fin 4
  tag : Nat
  deriving DecidableEq, Repr
/-- A part entry of a manifest (R513); `zeroOk` says that its reserved bytes are 0. -/
structure PartEntry where
  type : Nat
  lanes : Nat
  inst : Nat
  enc : Nat
  version : Nat
  firstChunk : Nat
  inLen : Nat
  outLen : Nat
  outDigest : Nat
  baseDigest : Nat
  imcrc : Nat
  zeroOk : Bool
  deriving DecidableEq, Repr
/-- A manifest (R512); `digest` is the manifest digest, `sigOk` whether its signature verifies with the key of KEY_SLOT, `zeroOk` that
its reserved bytes are 0. -/
structure Manifest where
  magic : Nat
  format : Nat
  targetPart : Nat
  minStepping : Nat
  keySlot : Nat
  partCount : Nat
  flags : Nat
  version : Nat
  floor : Nat
  chunks : Nat
  tableChunks : Nat
  tableDigest : Nat
  zeroOk : Bool
  parts : List PartEntry
  digest : Nat
  sigOk : Bool
  deriving DecidableEq, Repr
/-- A debug token (R496) without its signature, whose check is `sigOk`. -/
structure Token where
  magic : Nat
  format : Nat
  lanes : Nat
  lc : Nat
  scope : Nat
  serial : Nat
  nonce : Nat
  validS : Nat
  key : Nat
  zeroOk : Bool
  sigOk : Bool
  deriving DecidableEq, Repr
/-- An authorisation record (R491). -/
structure AuthRecord where
  kind : Nat
  target : Nat
  serial : Nat
  lane : Nat
  key : Nat
  nonce : Nat
  sigOk : Bool
  deriving DecidableEq, Repr
/-- Who wakes a domain (R462, R463). -/
inductive Waker
  | p0 | p1 | drive | net | sec | debug | links | ethernet | slazX | slazY | isobus | interrupt | kernel
  deriving DecidableEq, Repr
/-- Code of a waker (R463). -/
def Waker.code : Waker → Nat
  | .p0 => 4 | .p1 => 5 | .drive => 6 | .net => 7 | .sec => 8 | .debug => 11 | .links => 12 | .ethernet => 13
  | .slazX => 14 | .slazY => 15 | .isobus => 16 | .interrupt => 17 | .kernel => 19
/-- A Transport Protocol connection-management frame (R441). -/
inductive TpCm
  | rts (src pgn size : Nat)
  | cts (src : Nat) (packets : Nat)
  | eom (src : Nat)
  | bam (src pgn size : Nat)
  | abort (src : Nat)
  deriving DecidableEq, Repr

/-! ### Drive-engine instructions -/

/-- The instruction set of a drive engine (R159), operands as the formats of R156 give them. -/
inductive DeInstr
  | nop 
  | add (rd ra rb : Reg)
  | sub (rd ra rb : Reg)
  | and (rd ra rb : Reg)
  | or (rd ra rb : Reg)
  | xor (rd ra rb : Reg)
  | sll (rd ra rb : Reg)
  | srl (rd ra rb : Reg)
  | sra (rd ra rb : Reg)
  | slt (rd ra rb : Reg)
  | sltu (rd ra rb : Reg)
  | min (rd ra rb : Reg)
  | max (rd ra rb : Reg)
  | mul (rd ra rb : Reg)
  | addi (rd ra : Reg) (imm : BitVec 16)
  | andi (rd ra : Reg) (imm : BitVec 16)
  | ori (rd ra : Reg) (imm : BitVec 16)
  | xori (rd ra : Reg) (imm : BitVec 16)
  | lui (rd : Reg) (imm : BitVec 16)
  | slli (rd ra sh : Reg)
  | srli (rd ra sh : Reg)
  | srai (rd ra sh : Reg)
  | ld (rd ra : Reg) (imm : BitVec 16)
  | st (rd ra : Reg) (imm : BitVec 16)
  | inp (rd : Reg) (port : BitVec 16)
  | outp (rd : Reg) (port : BitVec 16)
  | wait (rd : Reg) (mask : BitVec 9)
  | beq (ra rb : Reg) (off : BitVec 16)
  | bne (ra rb : Reg) (off : BitVec 16)
  | blt (ra rb : Reg) (off : BitVec 16)
  | bge (ra rb : Reg) (off : BitVec 16)
  | j (off : BitVec 26)
  | jal (off : BitVec 26)
  | jr (ra : Reg)
  | halt 
  | fadd (rd ra rb : Reg)
  | fsub (rd ra rb : Reg)
  | fmul (rd ra rb : Reg)
  | fma (rd ra rb : Reg)
  | fmin (rd ra rb : Reg)
  | fmax (rd ra rb : Reg)
  | fneg (rd ra : Reg)
  | fabs (rd ra : Reg)
  | flt (rd ra rb : Reg)
  | ftoi (rd ra : Reg)
  | itof (rd ra : Reg)
  | ftoq (rd ra f : Reg)
  | qtof (rd ra f : Reg)
  | qmul (rd ra rb f : Reg)
  | qadd (rd ra rb : Reg)
  | qsub (rd ra rb : Reg)
  | sincos (rd ra : Reg)
  | atan2 (rd ra rb : Reg)
  | recip (rd ra : Reg)
  | rsqrt (rd ra : Reg)
  | sqrt (rd ra : Reg)
  deriving DecidableEq, Repr

/-! ### The commands -/

/-- The commands of the block: one constructor per row of the opcode table. `l` is the lane; `dt` is the time in ns
that has passed since the command before it. -/
inductive Instr
  /-- R30 The 0.8 V rail rises past its power-on-reset level and the lane enters BOOT with the guard holding every output safe. -/
  | lanePowerOnReset (l : LaneId) (recoveryLow : Bool)
  /-- R30 The boot ROM self-check completes; on failure the lane halts in BOOT and drives no lane links. -/
  | romSelfCheckDone (l : LaneId) (pass : Bool)
  /-- R32 The security core completes its signature checks of the active bank and the lane enters SOLSTICE or RECOVERY. -/
  | signatureCheckDone (l : LaneId) (bank : List Byte) (unwrapOk : Bool)
  /-- R535 The Solstice test completes; a first failure repeats it, a second sends the lane to WINTER. -/
  | solsticeTestDone (l : LaneId) (r : SolsticeResult)
  /-- R66 The structure image checks complete; on success the lane loads img fields, restores kept fields and enters READY. -/
  | imageVerificationDone (l : LaneId)
  /-- R39 A write of 1 to SYS_RET_CTRL.COMMIT snapshots every kept field and starts a write to the older retained slot. -/
  | sysRetCommit (l : LaneId)
  /-- R39 A retained-state commit finishes writing its header, and any held automatic commit starts in the same cycle. -/
  | retainedCommitComplete (l : LaneId) (dt : Nat) (ok : Bool)
  /-- R40 Every 10 s while any function is in Autumn, the lane makes an automatic commit. -/
  | autumnCommitTimer (l : LaneId) (dt : Nat)
  /-- R43 A write of 1 to SYS_FEAT_CTRL.LOCK locks the accepted lane feature set, or is refused when BASE is missing. -/
  | sysFeatLock (l : LaneId)
  /-- R89 At least once per millisecond from READY, the lane sends a status frame to each neighbour. -/
  | statusFrameSend (l : LaneId)
  /-- R89 A status frame from a neighbour arrives and updates its roles, modes, summaries, proposals and notices. -/
  | statusFrameRx (l : LaneId) (s : Side) (f : StatusFrame)
  /-- R47 A participant's gather time expires and the election completes with the lanes then participating. -/
  | electionGatherTimeout (l : LaneId) (dt : Nat)
  /-- R52 In ARM_MODE AUTO the lane begins arming at the first moment at which all arming conditions hold. -/
  | armAutoStart (l : LaneId)
  /-- R58 A write of 1 to SYS_ARM.ARM in ARM_MODE HOST starts arming or is refused under R52. -/
  | sysArmWrite (l : LaneId)
  /-- R53 The DC link reaches ARM_VDC_MIN during STEP 1 and arming drives KM closed. -/
  | dcLinkAtArmVdc (l : LaneId)
  /-- R53 ARM_PRECHARGE_MS expires in STEP 1, arming ends with CAUSE 10 and the lane stays in READY. -/
  | prechargeTimeout (l : LaneId) (dt : Nat)
  /-- R53 The guard has not enabled the gate-enable chain within 10 ms of STEP 4; KM and KP open and CAUSE is 13. -/
  | gateChainEnableTimeout (l : LaneId) (dt : Nat)
  /-- R90 The guard sends a 32-bit vote frame with its codes and ROTATE bits to both neighbours. -/
  | voteFrameTx (l : LaneId)
  /-- R91 A vote frame arrives, is checked, counted per field, and the guard evaluates the vote. -/
  | voteFrameRx (l : LaneId) (s : Side) (line0 line1 : Word)
  /-- R91 No valid vote frame has arrived on a link for 50 µs and the neighbour's codes are taken as none. -/
  | voteInputLost (l : LaneId) (dt : Nat) (s : Side)
  /-- R92 A write of ROLE_ACCUSE.CODE places accusations or withdrawals in the next vote frame. -/
  | roleAccuseCodeWrite (l : LaneId) (pair : Pair) (code : BitVec 10)
  /-- R108 A write of ROLE_ACCUSE.ROTATE proposes an Equinox swap of a function. -/
  | roleRotatePropose (l : LaneId) (pair : Pair) (rotate : BitVec 5)
  /-- R96 An accusation unmatched for 20 ms sets the minority-accusation source without changing roles. -/
  | minorityAccusationTimeout (l : LaneId) (dt : Nat) (f : Func)
  /-- R97 In a two-lane function, an unresolved accusation persisting 20 ms puts the function into Winter with cause 10. -/
  | twoLaneDisagreementTimeout (l : LaneId) (dt : Nat) (f : Func)
  /-- R89 Device time reaches a multiple of a function's PERIOD and the outer-loop release occurs in every lane. -/
  | outerLoopRelease (l : LaneId) (dt : Nat) (f : Func) (steerRate brakeRate : Nat) (a : AuthIn)
  /-- R175 A core of P_0 writes a reference record to LL, which sends it to both neighbours and hands it to its own intake. -/
  | llReferenceWrite (l : LaneId) (core : Core) (r : RefRecord)
  /-- R103 A reference frame arrives and is accepted or discarded under the sender, sequence and release-time tests. -/
  | referenceRx (l : LaneId) (s : Side) (r : RefRecord)
  /-- R98 No reference from the active lane for (MISS + 0.5) × PERIOD raises an accusation against it. -/
  | referenceWatchdogExpiry (l : LaneId) (dt : Nat) (f : Func)
  /-- R98 No status frame from a lane for 3 ms raises an accusation against it in every function. -/
  | statusFrameTimeout (l : LaneId) (dt : Nat) (s : Side)
  /-- R101 A drive engine's intake holds a reference for the hold limit and withdraws its lane from the function. -/
  | holdLimitExpiry (l : LaneId) (dt : Nat) (f : Func)
  /-- R107 Device time passes a multiple of EQX_S and every lane counts a swap due. -/
  | equinoxDue (l : LaneId) (dt : Nat)
  /-- R109 A swap not made within EQX_S of its due moment is given up and DEFERRED rises. -/
  | equinoxGiveUp (l : LaneId) (dt : Nat) (f : Func)
  /-- R110 A function's Autumn timer reaches 0 and the function enters Winter with cause 8. -/
  | autumnTimerExpiry (l : LaneId) (dt : Nat) (f : Func)
  /-- R113 Speed stays below 0.3 km/h for 2 s, or the ramp end plus 10 s passes, and BRAKE holds, TRAIL goes safe and PARK applies. -/
  | winterStandstill (l : LaneId) (dt : Nat) (speedKnown : Bool)
  /-- R112 A channel or host has delivered for 1 s and its Autumn cause clears. -/
  | autumnCauseClearTimer (l : LaneId) (dt : Nat) (f : Func) (cause : Fin 8)
  /-- R111 Once per second in Autumn the lane sends a speed-reduction request to the vehicle or implement host. -/
  | speedRequestTimer (l : LaneId) (dt : Nat) (f : Func)
  /-- R115 The DC link stays below 0.75 × ARM_VDC_MIN for 5 ms with KM closed and class S is raised. -/
  | supplyLossTimeout (l : LaneId) (dt : Nat)
  /-- R115 No valid frame from the vehicle host for 100 ms raises class H and drops STEER and BRAKE engagements. -/
  | hostLossTimeout (l : LaneId) (dt : Nat)
  /-- R123 A write to ROLE_CLR in READY clears restored Autumn records of the selected functions. -/
  | roleClrWrite (l : LaneId) (pair : Pair) (mask : BitVec 5)
  /-- R132 A paired core's output write enters its output buffer to wait for checkpoint comparison. -/
  | pairedOutputWrite (l : LaneId) (core : Core) (addr size data : Nat)
  /-- R134 A paired core's input load is performed by the leading core and replicated to the trailing one. -/
  | pairedInputLoad (l : LaneId) (core : Core) (addr size : Nat)
  /-- R137 A core writes a tag to CM_CKPT, advancing its checkpoint number and triggering comparison when both have marked it. -/
  | cmCkptWrite (l : LaneId) (core : Core) (tag : Word)
  /-- R138 One core has not marked a checkpoint within CM_CTRL.LAG of the other and a mismatch of KIND 3 is declared. -/
  | checkpointLagTimeout (l : LaneId) (dt : Nat) (pair : Pair)
  /-- R141 The core self-test ends and the pair becomes paired, single or halted and its cores are released. -/
  | coreSelfTestDone (l : LaneId) (dt : Nat) (pair : Pair) (evenPass oddPass : Bool)
  /-- R127 An uncorrectable cache error delivered to a core sets its source and poisons its signature. -/
  | uncorrectableCacheError (l : LaneId) (core : Core)
  /-- R147 A debugger halts, steps or runs an abstract command on a paired core and splits the pair. -/
  | debugHaltRequest (l : LaneId) (core : Core)
  /-- R147 An abstract command on a hart is executed, splitting its pair or finding the hart unavailable. -/
  | debugAbstractCommand (l : LaneId) (core : Core) (cmd : Word)
  /-- R501 A debugger system-bus access is performed, or refused for protected blocks or want of WAKE. -/
  | debugSysbusAccess (l : LaneId) (addr size : Nat) (data : Option Nat)
  /-- R159 Drive-engine instruction that does nothing. -/
  | deNop (l : LaneId) (n : Engine)
  /-- R159 Drive-engine instruction: rd = ra + rb. -/
  | deAdd (l : LaneId) (n : Engine) (rd ra rb : Reg)
  /-- R159 Drive-engine instruction: rd = ra − rb. -/
  | deSub (l : LaneId) (n : Engine) (rd ra rb : Reg)
  /-- R159 Drive-engine instruction: bitwise and. -/
  | deAnd (l : LaneId) (n : Engine) (rd ra rb : Reg)
  /-- R159 Drive-engine instruction: bitwise or. -/
  | deOr (l : LaneId) (n : Engine) (rd ra rb : Reg)
  /-- R159 Drive-engine instruction: bitwise exclusive or. -/
  | deXor (l : LaneId) (n : Engine) (rd ra rb : Reg)
  /-- R159 Drive-engine instruction: left shift by rb[4:0]. -/
  | deSll (l : LaneId) (n : Engine) (rd ra rb : Reg)
  /-- R159 Drive-engine instruction: logical right shift by rb[4:0]. -/
  | deSrl (l : LaneId) (n : Engine) (rd ra rb : Reg)
  /-- R159 Drive-engine instruction: arithmetic right shift by rb[4:0]. -/
  | deSra (l : LaneId) (n : Engine) (rd ra rb : Reg)
  /-- R159 Drive-engine instruction: signed set-less-than. -/
  | deSlt (l : LaneId) (n : Engine) (rd ra rb : Reg)
  /-- R159 Drive-engine instruction: unsigned set-less-than. -/
  | deSltu (l : LaneId) (n : Engine) (rd ra rb : Reg)
  /-- R159 Drive-engine instruction: signed minimum. -/
  | deMin (l : LaneId) (n : Engine) (rd ra rb : Reg)
  /-- R159 Drive-engine instruction: signed maximum. -/
  | deMax (l : LaneId) (n : Engine) (rd ra rb : Reg)
  /-- R159 Drive-engine instruction: low 32 bits of ra × rb. -/
  | deMul (l : LaneId) (n : Engine) (rd ra rb : Reg)
  /-- R159 Drive-engine instruction: add sign-extended immediate. -/
  | deAddi (l : LaneId) (n : Engine) (rd ra : Reg) (imm : BitVec 16)
  /-- R159 Drive-engine instruction: and with zero-extended immediate. -/
  | deAndi (l : LaneId) (n : Engine) (rd ra : Reg) (imm : BitVec 16)
  /-- R159 Drive-engine instruction: or with zero-extended immediate. -/
  | deOri (l : LaneId) (n : Engine) (rd ra : Reg) (imm : BitVec 16)
  /-- R159 Drive-engine instruction: exclusive or with zero-extended immediate. -/
  | deXori (l : LaneId) (n : Engine) (rd ra : Reg) (imm : BitVec 16)
  /-- R159 Drive-engine instruction: load immediate into the upper half. -/
  | deLui (l : LaneId) (n : Engine) (rd : Reg) (imm : BitVec 16)
  /-- R159 Drive-engine instruction: left shift by immediate. -/
  | deSlli (l : LaneId) (n : Engine) (rd ra sh : Reg)
  /-- R159 Drive-engine instruction: logical right shift by immediate. -/
  | deSrli (l : LaneId) (n : Engine) (rd ra sh : Reg)
  /-- R159 Drive-engine instruction: arithmetic right shift by immediate. -/
  | deSrai (l : LaneId) (n : Engine) (rd ra sh : Reg)
  /-- R159 Drive-engine instruction: load a DM word, halting on a misaligned or out-of-range access. -/
  | deLd (l : LaneId) (n : Engine) (rd ra : Reg) (imm : BitVec 16)
  /-- R159 Drive-engine instruction: store a DM word. -/
  | deSt (l : LaneId) (n : Engine) (rd ra : Reg) (imm : BitVec 16)
  /-- R159 Drive-engine instruction: read a port, halting with HALT 4 on a port not present. -/
  | deInp (l : LaneId) (n : Engine) (rd : Reg) (port : BitVec 16)
  /-- R159 Drive-engine instruction: write a port without behaviour of its own, such as a compare or sample point. -/
  | deOutp (l : LaneId) (n : Engine) (rd : Reg) (port : BitVec 16)
  /-- R166 Drive-engine instruction that takes the lowest pending event in its mask or waits for one. -/
  | deWait (l : LaneId) (n : Engine) (rd : Reg) (mask : BitVec 9)
  /-- R166 An event arrives for a waiting engine, whose WAIT clears it and completes. -/
  | waitResume (l : LaneId) (n : Engine)
  /-- R159 Drive-engine instruction: branch if equal. -/
  | deBeq (l : LaneId) (n : Engine) (ra rb : Reg) (off : BitVec 16)
  /-- R159 Drive-engine instruction: branch if not equal. -/
  | deBne (l : LaneId) (n : Engine) (ra rb : Reg) (off : BitVec 16)
  /-- R159 Drive-engine instruction: branch if signed less. -/
  | deBlt (l : LaneId) (n : Engine) (ra rb : Reg) (off : BitVec 16)
  /-- R159 Drive-engine instruction: branch if signed greater or equal. -/
  | deBge (l : LaneId) (n : Engine) (ra rb : Reg) (off : BitVec 16)
  /-- R159 Drive-engine instruction: jump. -/
  | deJ (l : LaneId) (n : Engine) (off : BitVec 26)
  /-- R159 Drive-engine instruction: jump and link into d31. -/
  | deJal (l : LaneId) (n : Engine) (off : BitVec 26)
  /-- R159 Drive-engine instruction: jump to register. -/
  | deJr (l : LaneId) (n : Engine) (ra : Reg)
  /-- R161 Drive-engine instruction that halts the engine with HALT 1, turning off its port if enabled. -/
  | deHalt (l : LaneId) (n : Engine)
  /-- R159 Drive-engine instruction: FP32 add. -/
  | deFadd (l : LaneId) (n : Engine) (rd ra rb : Reg)
  /-- R159 Drive-engine instruction: FP32 subtract. -/
  | deFsub (l : LaneId) (n : Engine) (rd ra rb : Reg)
  /-- R159 Drive-engine instruction: FP32 multiply. -/
  | deFmul (l : LaneId) (n : Engine) (rd ra rb : Reg)
  /-- R159 Drive-engine instruction: FP32 fused multiply-add. -/
  | deFma (l : LaneId) (n : Engine) (rd ra rb : Reg)
  /-- R159 Drive-engine instruction: FP32 minimum. -/
  | deFmin (l : LaneId) (n : Engine) (rd ra rb : Reg)
  /-- R159 Drive-engine instruction: FP32 maximum. -/
  | deFmax (l : LaneId) (n : Engine) (rd ra rb : Reg)
  /-- R159 Drive-engine instruction: FP32 negate. -/
  | deFneg (l : LaneId) (n : Engine) (rd ra : Reg)
  /-- R159 Drive-engine instruction: FP32 absolute value. -/
  | deFabs (l : LaneId) (n : Engine) (rd ra : Reg)
  /-- R159 Drive-engine instruction: FP32 less-than. -/
  | deFlt (l : LaneId) (n : Engine) (rd ra rb : Reg)
  /-- R159 Drive-engine instruction: FP32 to saturated integer. -/
  | deFtoi (l : LaneId) (n : Engine) (rd ra : Reg)
  /-- R159 Drive-engine instruction: integer to FP32. -/
  | deItof (l : LaneId) (n : Engine) (rd ra : Reg)
  /-- R159 Drive-engine instruction: FP32 to Q format with f fractional bits. -/
  | deFtoq (l : LaneId) (n : Engine) (rd ra f : Reg)
  /-- R159 Drive-engine instruction: Q format to FP32. -/
  | deQtof (l : LaneId) (n : Engine) (rd ra f : Reg)
  /-- R159 Drive-engine instruction: rounded saturating Q multiply. -/
  | deQmul (l : LaneId) (n : Engine) (rd ra rb f : Reg)
  /-- R159 Drive-engine instruction: saturating signed add. -/
  | deQadd (l : LaneId) (n : Engine) (rd ra rb : Reg)
  /-- R159 Drive-engine instruction: saturating signed subtract. -/
  | deQsub (l : LaneId) (n : Engine) (rd ra rb : Reg)
  /-- R159 Drive-engine instruction: sine and cosine of an angle. -/
  | deSincos (l : LaneId) (n : Engine) (rd ra : Reg)
  /-- R159 Drive-engine instruction: angle of a vector. -/
  | deAtan2 (l : LaneId) (n : Engine) (rd ra rb : Reg)
  /-- R159 Drive-engine instruction: reciprocal. -/
  | deRecip (l : LaneId) (n : Engine) (rd ra : Reg)
  /-- R159 Drive-engine instruction: reciprocal square root. -/
  | deRsqrt (l : LaneId) (n : Engine) (rd ra : Reg)
  /-- R159 Drive-engine instruction: square root. -/
  | deSqrt (l : LaneId) (n : Engine) (rd ra : Reg)
  /-- R169 An OUT to the COMMIT port marks the compares, sample points and BRIDGE as complete for the next load point and snapshots the motor window. -/
  | deCommit (l : LaneId) (n : Engine) (rd : Reg) (dt : Nat)
  /-- R172 An OUT to BRIDGE requests normal, all-off or active short circuit from the next load point. -/
  | bridgeWrite (l : LaneId) (n : Engine) (rd : Reg)
  /-- R165 An OUT to TIMER arms or cancels the engine's TIM event. -/
  | deTimerSet (l : LaneId) (n : Engine) (rd : Reg)
  /-- R166 The engine's TIMER expires and raises TIM. -/
  | deTimerExpiry (l : LaneId) (n : Engine) (dt : Nat)
  /-- R164 An OUT to MB_POST copies the outbound mailbox words, raises COUNT and the mailbox PLIC source. -/
  | mbPost (l : LaneId) (n : Engine) (rd : Reg)
  /-- R295 DE_3 writes a solenoid setpoint, which takes effect within 10 µs clamped to MAX_MA. -/
  | svCmdWrite (l : LaneId) (sv : Fin 4) (rd : Reg)
  /-- R288 DE_3 writes CHOP_REQ to request the brake chopper on or off. -/
  | chopReqWrite (l : LaneId) (rd : Reg)
  /-- R164 A write to DE_MBOX_DB copies the inbound mailbox words to the engine and raises MBX. -/
  | deMboxDb (l : LaneId) (core : Core) (n : Engine)
  /-- R162 An access to DE_DATA reads or writes IM or DM of a halted engine and advances DE_ADDR. -/
  | deDataAccess (l : LaneId) (core : Core) (n : Engine) (data : Option Word)
  /-- R163 A write of 1 to DE_CTRL.RUN starts a halted engine at word 0. -/
  | deCtrlRun (l : LaneId) (core : Core) (n : Engine)
  /-- R161 A write of 0 to DE_CTRL.RUN halts the engine with HALT 7. -/
  | deCtrlHalt (l : LaneId) (core : Core) (n : Engine)
  /-- R163 A write of 1 to DE_CTRL.SEAL makes IM read-only and starts the IM CRC. -/
  | deCtrlSeal (l : LaneId) (core : Core) (n : Engine)
  /-- R163 The CRC-32 over sealed IM completes and appears in DE_IMCRC. -/
  | deImcrcDone (l : LaneId) (n : Engine)
  /-- R188 A write of 1 to DE_OVR.RSTMIN resets SLACK_MIN to 0xFFFF. -/
  | deOvrRstmin (l : LaneId) (core : Core) (n : Engine)
  /-- R167 A carrier valley is reached: compares load, the reference intake latches, shares apply and PS is raised. -/
  | pwmPeriodStart (l : LaneId) (n : Engine) (dt : Nat)
  /-- R169 A carrier peak is reached, raising PM and loading CMPB and falling-half sample points when LOOP is 1. -/
  | carrierPeak (l : LaneId) (n : Engine) (dt : Nat)
  /-- R174 10 ms after device-time agreement is lost, the carrier-unlock fault source is set. -/
  | carrierUnlockTimeout (l : LaneId) (dt : Nat)
  /-- R196 A shunt sample is taken at a sample point with its state word and validity, and SR follows 150 ns later. -/
  | samplePoint (l : LaneId) (p : Port) (k : Fin 4) (dt : Nat) (adc : BitVec 12)
  /-- R207 A write of START to CS_CAL_p begins 256 conversions of the selected calibration source. -/
  | csCalStart (l : LaneId) (core : Core) (p : Port) (src : Fin 4)
  /-- R207 The calibration conversions finish and their mean appears in CS_CAL_p.MEAN. -/
  | csCalDone (l : LaneId) (p : Port) (mean : BitVec 16)
  /-- R209 The general ADC completes a conversion of a sequence or scan input and updates CS_GRES_m. -/
  | generalAdcConversion (l : LaneId) (code : BitVec 12)
  /-- R222 The decoder sees a quadrature change and counts, reverses or records a skip. -/
  | qeCountingEdge (l : LaneId) (n : Fin 2) (dt : Nat) (a b : Bool) (heldA heldB : Nat)
  /-- R224 A qualified index loads or checks the modular count according to IDXMODE. -/
  | qeQualifiedIndex (l : LaneId) (n : Fin 2) (dt : Nat) (a b : Bool) (heldA heldB heldZ : Nat)
  /-- R220 A line's wire disagreement lasts 160 ns and fails the input until the next start. -/
  | qeWireDisagreement (l : LaneId) (n : Fin 2) (line : Fin 3)
  /-- R228 Every 100 µs an unselected input computes its speed; selected inputs do so at their port's period start. -/
  | qeSpeedEval (l : LaneId) (n : Fin 2) (dt : Nat)
  /-- R229 Once per excitation period RS_0 samples sine and cosine and forms angle and amplitude, failing on bad amplitude. -/
  | resolverSample (l : LaneId) (dt : Nat) (sine cosine : BitVec 12)
  /-- R229 A shorted or open excitation output sets EXCF and fails RS_0. -/
  | resolverExcitationFault (l : LaneId)
  /-- R232 A SENT frame ends and is accepted into QE_SENT_DATA_s or discarded and counted. -/
  | sentFrameRx (l : LaneId) (s : Fin 2) (f : SentFrame)
  /-- R232 No SENT frame has been accepted for three frame lengths and TMO reads 1. -/
  | sentTimeout (l : LaneId) (dt : Nat) (s : Fin 2)
  /-- R233 A sensor record or SENT word from a neighbour arrives and is stored for voting. -/
  | sensorRecordRx (l : LaneId) (s : Side) (r : SensorFrame)
  /-- R235 0.5 µs after a period start the lane votes the electrical angle and speed from its valid readings. -/
  | positionVote (l : LaneId) (p : Port)
  /-- R249 0.6 µs after each period start the motor supervisor evaluates its state table and forces BRIDGE as needed. -/
  | motorSupervisorEval (l : LaneId) (p : Port)
  /-- R261 The locked-rotor count reaches LR_T and the port derates to LRI or turns off. -/
  | lockedRotorTimeout (l : LaneId) (dt : Nat) (p : Port)
  /-- R279 A switch's desaturation comparator trips after blanking and starts the lane turn-off. -/
  | desatTrip (l : LaneId) (b : Fin 18)
  /-- R280 A port's fast-overcurrent comparator trips and starts the lane turn-off. -/
  | focTrip (l : LaneId) (p : Port)
  /-- R282 A switch's gate reaches PLAT or T1 passes and its output sinks at full strength. -/
  | turnOffStage1End (l : LaneId) (b : Fin 18)
  /-- R277 A gate supply falls through its lock-out threshold, clearing its OK bit and tripping an armed lock-out. -/
  | uvloFallingCrossing (l : LaneId) (k : Fin 12)
  /-- R276 A gate supply rises through its lock-out threshold, setting its OK bit and arming a bootstrap lock-out. -/
  | uvloRisingCrossing (l : LaneId) (k : Fin 12)
  /-- R288 x_VDC rises through OV_ON and the chopper gate turns on. -/
  | chopperOnCrossing (l : LaneId)
  /-- R288 x_VDC falls through OV_OFF and the chopper gate turns off. -/
  | chopperOffCrossing (l : LaneId)
  /-- R290 x_VDC at or above OV_TRIP is counted and the lane turns off or enters active short circuit. -/
  | ovTripCrossing (l : LaneId) (above : Bool)
  /-- R290 x_VDC reaches OV_ASC during a lane turn-off without a chopper and active short circuit follows. -/
  | ovAscCrossing (l : LaneId) (above : Bool)
  /-- R289 A wrong chopper current lasting CHK_T sets CHOPF or CHOPSH. -/
  | chopperCheckTimeout (l : LaneId) (bci : Byte)
  /-- R291 1.0 µs after an active-short-circuit decision and turn-off, every low side of the port turns on. -/
  | ascLowSideOn (l : LaneId) (dt : Nat) (p : Port)
  /-- R296 A solenoid current reaches 4.5 A, turning the driver off, and the third trip within 1 s latches SHORT. -/
  | svShortTrip (l : LaneId) (dt : Nat) (sv : Fin 4)
  /-- R296 10 ms after a short trip the solenoid driver retries. -/
  | svShortRetry (l : LaneId) (dt : Nat) (sv : Fin 4)
  /-- R296 A solenoid mean current below a quarter of its setpoint for 20 ms sets OPEN. -/
  | svOpenLoad (l : LaneId) (dt : Nat) (sv : Fin 4) (mean : BitVec 12)
  /-- R298 A write of 1 to GD_TEST.START tests every gate-drive comparator whose conditions hold. -/
  | gdTestStart (l : LaneId) (core : Core)
  /-- R298 The comparator self-test finishes and reports failures and skips. -/
  | gdTestDone (l : LaneId) (res0 res1 : Word)
  /-- R299 A write of START to GD_ZDIAG begins the off-state test-current diagnostics of one port. -/
  | gdZdiagStart (l : LaneId) (core : Core) (linkOk : Bool)
  /-- R299 The off-state diagnostics finish with a verdict per phase. -/
  | gdZdiagDone (l : LaneId) (u v w : ZReading)
  /-- R311 A port's request line stops toggling within its band and its grant is lost with a port turn-off. -/
  | gateRequestLost (l : LaneId) (p : Port)
  /-- R314 The guard's 3.3 V rail rises through 2.8 V and the guard enters HOLD. -/
  | guardSupplyRise (l : LaneId)
  /-- R314 The guard's 3.3 V rail falls through 2.6 V and every output is held off. -/
  | guardSupplyFall (l : LaneId)
  /-- R314 2.0 ms after all gates are off the guard drives KP open where the rules require it. -/
  | guardKpOpenDelay (l : LaneId) (dt : Nat)
  /-- R316 Every 1 ms of RC time from READY the guard issues a new challenge. -/
  | challengeIssue (l : LaneId)
  /-- R317 P_0 writes an answer to LG_ANSWER, which is judged correct, a miss or ignored. -/
  | lgAnswerWrite (l : LaneId) (pair : Pair) (n : Byte) (a : BitVec 16) (dt : Nat)
  /-- R318 CLOSE passes without a correct answer, counting a miss and forcing on a second consecutive miss. -/
  | challengeWindowClose (l : LaneId)
  /-- R318 No correct answer within 100 ms of READY forces the guard with FCAUSE 4. -/
  | firstAnswerTimeout (l : LaneId) (dt : Nat)
  /-- R319 No P_0 core released within 3.5 ms of a mismatch counts as a missed challenge. -/
  | selfTestAllowanceTimeout (l : LaneId) (dt : Nat)
  /-- R320 A contactor mirror input changes and the contactor's agreement with its command is updated. -/
  | contactorMirrorChange (l : LaneId) (dt : Nat) (kmNo kmNc kpNo kpNc : Bool)
  /-- R320 A contactor has not agreed for KMIS_MS and a mismatch sets KMBAD or KPBAD with guard reaction. -/
  | contactorMismatchTimeout (l : LaneId) (dt : Nat) (kp : Bool)
  /-- R324 No CKW edge for 100 ns forces the guard with FCAUSE 1. -/
  | ckwMissingEdge (l : LaneId)
  /-- R324 No RC edge for 100 ns forces the guard with FCAUSE 3. -/
  | rcMissingEdge (l : LaneId)
  /-- R322 A 960-cycle RC window closes with a CKW count, firing source 261 or forcing on a second bad window. -/
  | ckwWindowClose (l : LaneId) (count : BitVec 11)
  /-- R326 Both clocks good without a break for 10 ms sets CLKGOOD. -/
  | clkgoodTimer (l : LaneId) (dt : Nat)
  /-- R328 A write to LG_REARM re-arms the guard and restarts the lane, or is refused. -/
  | lgRearmWrite (l : LaneId) (pair : Pair) (v : Word)
  /-- R336 A write to LG_WD sets window and key from the next challenge, or is ignored as a whole. -/
  | lgWdWrite (l : LaneId) (pair : Pair) (v : Word)
  /-- R338 A write of 1 to LG_CONT.KMOFF in FORCED drives KM open. -/
  | lgKmoff (l : LaneId) (pair : Pair)
  /-- R331 The PARK backstop timer expires and the guard turns remaining PARK drivers off. -/
  | parkTimerExpiry (l : LaneId) (dt : Nat)
  /-- R344 A fault source fires, sets its sticky bit and, if newly set, takes its reaction. -/
  | faultSourceFire (l : LaneId) (src : BitVec 10) (cores : BitVec 4)
  /-- R346 A w1c write to FC_STICKY_n clears sticky bits except fatal ones in FIELD and RETIRED. -/
  | fcStickyWrite (l : LaneId) (n : Fin 32) (v : Word)
  /-- R356 Every 10 µs the collector checks parity of its registers and forces the guard on an error. -/
  | fcParityScan (l : LaneId)
  /-- R357 A write with GO in MANUFACTURE fires a named source for one cycle, or is refused. -/
  | fcInjGo (l : LaneId) (src : BitVec 10)
  /-- R358 A write with PARITY in MANUFACTURE inverts the parity of FC_STICKY_0, or is refused. -/
  | fcInjParity (l : LaneId)
  /-- R359 No framed lane-link traffic from a neighbour for 100 µs fires source 330 or 331. -/
  | laneLinkSilence (l : LaneId) (dt : Nat) (s : Side)
  /-- R376 A TX window starts and the lane sends, skips or defers its buffer or queue frame. -/
  | slazWindowStart (l : LaneId) (dt : Nat) (c : Fin 2) (window : Fin 64) (idle : Bool)
  /-- R377 In an arbitrating window the lane offers its pending frames, retrying while time allows. -/
  | slazArbitratingOffer (l : LaneId) (dt : Nat) (c : Fin 2) (window : Fin 64) (idle : Bool)
  /-- R376 The lane's own Slaz frame completes without error, clearing READY and raising SEQ. -/
  | slazOwnFrameComplete (l : LaneId) (dt : Nat) (c : Fin 2) (since : Nat) (acked : Bool)
  /-- R378 A data or vote frame is received and accepted into its buffer or queue, or counted as wrong. -/
  | slazFrameRx (l : LaneId) (dt : Nat) (c : Fin 2) (since : Nat) (f : SlazFrame)
  /-- R380 A reference frame is accepted, resetting cycle time and taking CYC, MODE and MCNT. -/
  | slazReferenceFrameRx (l : LaneId) (dt : Nat) (c : Fin 2) (since : Nat) (rank : Fin 8) (payload : Word)
  /-- R379 An RX window ends without an accepted frame and an empty slot is counted. -/
  | slazWindowEnd (l : LaneId) (dt : Nat) (c : Fin 2) (window : Fin 64)
  /-- R389 A basic cycle ends and the lane counts it silent or complete, tallies votes at the matrix end and judges class Z. -/
  | slazCycleEnd (l : LaneId) (dt : Nat) (c : Fin 2)
  /-- R381 A backup attempts a reference frame at D_RANK after its expected cycle start unless the bus is in use. -/
  | slazBackupAttempt (l : LaneId) (dt : Nat) (c : Fin 2) (busFree : Bool)
  /-- R383 The listen timer of a ranked node expires and it attempts a cold-start reference frame. -/
  | slazListenTimeout (l : LaneId) (dt : Nat) (c : Fin 2)
  /-- R382 No reference frame for 2 × L in SYNC returns the controller to LISTEN. -/
  | slazSyncTimeout (l : LaneId) (dt : Nat) (c : Fin 2)
  /-- R382 No reference frame accepted in 2 cycles returns RUN or MASTER to LISTEN with REFMISS. -/
  | slazReferenceMiss (l : LaneId) (c : Fin 2)
  /-- R382 An error frame is seen, counted, and ends a cold-start attempt in LISTEN. -/
  | slazErrorFrame (l : LaneId) (c : Fin 2) (tec rec : Nat)
  /-- R382 The transmit error counter passes 255 and the controller enters BUSOFF. -/
  | slazBusOff (l : LaneId) (c : Fin 2)
  /-- R382 Bus-off recovery completes and the controller enters LISTEN. -/
  | slazBusOffRecovered (l : LaneId) (c : Fin 2)
  /-- R382 A write to SZ_CTRL.EN_c enables a channel into LISTEN or stops it to OFF. -/
  | szCtrlEnWrite (l : LaneId) (core : Core) (c : Fin 2) (en : Bool)
  /-- R397 A write of READY to a TX buffer offers it at its next window. -/
  | slazBufferReady (l : LaneId) (core : Core) (c : Fin 2) (b : Fin 64)
  /-- R403 Every 10 µs the lane sends a time frame to each neighbour. -/
  | timeFrameSend (l : LaneId) (dt : Nat)
  /-- R403 A time frame arrives, updating link delay, offset, agreement and requests. -/
  | timeFrameRx (l : LaneId) (dt : Nat) (s : Side) (f : TimeFrame)
  /-- R404 A neighbour's offset has stayed within ±2 ns for 1 ms and it enters agreement. -/
  | agreementEnter (l : LaneId) (dt : Nat) (s : Side)
  /-- R404 No valid time frame from a neighbour for 100 µs ends agreement with it. -/
  | agreementTimeout (l : LaneId) (dt : Nat) (s : Side)
  /-- R408 Device time reaches an announced t_s and every lane of the agreeing set steps by D. -/
  | timeStepInstant (l : LaneId) (dt : Nat)
  /-- R411 A gPTP Sync, or Sync with Follow_Up, gives the lane its grandmaster offset. -/
  | ptpSyncRx (l : LaneId) (origin trx : Nat) (corr : Int) (gm seq : Nat) (logSync : BitVec 4)
  /-- R409 An Announce message is received and the BMCA selects the port state. -/
  | ptpAnnounceRx (l : LaneId) (gm : Nat) (slave : Bool)
  /-- R409 The Pdelay_Req interval elapses and the port sends a two-step Pdelay_Req. -/
  | ptpPdelayReqTimer (l : LaneId) (dt : Nat)
  /-- R409 A Pdelay_Req is received and answered two-step. -/
  | ptpPdelayReqRx (l : LaneId) (seq trx : Nat)
  /-- R409 A Pdelay_Resp with Follow_Up completes a peer-delay exchange and updates meanLinkDelay. -/
  | ptpPdelayRespRx (l : LaneId) (seq : Nat) (t2 t3 t4 : Nat) (ratio : Int)
  /-- R412 The leader combines the set's offsets and slews, steps or refuses under R413. -/
  | combinedOffsetDecision (l : LaneId) (dt : Nat)
  /-- R414 No Sync for 3 intervals or an Announce time-out puts the discipline in HOLDOVER. -/
  | ptpSyncTimeout (l : LaneId) (dt : Nat)
  /-- R415 A write of ACCEPT requests the leader to step by the pending offset. -/
  | tsJumpAccept (l : LaneId)
  /-- R415 A write of REJECT requests the leader to reject the pending grandmaster. -/
  | tsJumpReject (l : LaneId)
  /-- R415 A write of RESUME requests the leader to leave REJECTED. -/
  | tsJumpResume (l : LaneId)
  /-- R424 A read of TS_NOW returns device time and latches TS_NOW_FRAC. -/
  | tsNowRead (l : LaneId)
  /-- R416 A write of TP_CFG_n.MODE loads START and PERIOD and starts a single or periodic output. -/
  | tpModeWrite (l : LaneId) (core : Core) (n : Fin 4) (v : Word)
  /-- R418 A programmed grid point or START is reached and a timed pulse begins. -/
  | tpPulseStart (l : LaneId) (n : Fin 4) (dt : Nat)
  /-- R417 WIDTH after its start a timed pulse ends. -/
  | tpPulseEnd (l : LaneId) (n : Fin 4) (dt : Nat)
  /-- R429 A UDP host frame arrives, is verified and its descriptors placed, or it is discarded. -/
  | hostFrameRx (l : LaneId) (f : HostFrame)
  /-- R430 No accepted frame from a port for 1 s closes its session and drops its engagements. -/
  | hostSessionTimeout (l : LaneId) (dt : Nat) (h : Fin 4)
  /-- R45 Host command returning the offered or locked feature set. -/
  | hostFeatOffer (l : LaneId) (k : HostCmd)
  /-- R45 Host command that locks the port's feature set or is refused. -/
  | hostFeatAccept (l : LaneId) (k : HostCmd) (set : BitVec 128)
  /-- R430 Host command answered with a 32-byte session nonce. -/
  | hostChallenge (l : LaneId) (k : HostCmd)
  /-- R430 Host command that opens a session with a valid nonce and reports queue indices. -/
  | hostOpen (l : LaneId) (k : HostCmd) (nonce : Nat) (sig : List Byte)
  /-- R436 Host command that is answered and keeps the session alive. -/
  | hostHeartbeat (l : LaneId) (k : HostCmd)
  /-- R438 Host command that engages the host for a function or is refused. -/
  | hostEngage (l : LaneId) (k : HostCmd) (f : Nat)
  /-- R438 Host command that ends the host's engagement for a function. -/
  | hostDisengage (l : LaneId) (k : HostCmd) (f : Nat)
  /-- R436 Host command giving a road-wheel angle setpoint with its validity time. -/
  | hostSteerSet (l : LaneId) (k : HostCmd) (angle : Word) (valid : Nat)
  /-- R436 Host command giving a brake demand with its validity time. -/
  | hostBrakeSet (l : LaneId) (k : HostCmd) (demand : Word) (valid : Nat)
  /-- R436 Host command giving a trailer-brake demand with its validity time. -/
  | hostTrailSet (l : LaneId) (k : HostCmd) (demand : Word) (valid : Nat)
  /-- R440 Host command requesting park-brake release or apply. -/
  | hostParkSet (l : LaneId) (k : HostCmd) (apply : Nat)
  /-- R52 Host command passed to SYS_ARM as the arm trigger in ARM_MODE HOST. -/
  | hostArm (l : LaneId) (k : HostCmd)
  /-- R436 Host command returning SYS_STATE, role and authority registers. -/
  | hostStatusGet (l : LaneId) (k : HostCmd)
  /-- R436 Host command returning FC_STATUS and FC_PEND. -/
  | hostFaultGet (l : LaneId) (k : HostCmd)
  /-- R502 Host command answered with six descriptors carrying the signed evidence record. -/
  | hostAttestReq (l : LaneId) (k : HostCmd) (nonce : Nat)
  /-- R426 Host command that writes ACCEPT, REJECT or RESUME of TS_JUMP. -/
  | hostTimeJump (l : LaneId) (k : HostCmd) (act : Nat)
  /-- R123 Service-host command that clears restored Autumn records in READY. -/
  | hostAutumnClr (l : LaneId) (k : HostCmd) (mask : Nat)
  /-- R30 Service-host command that takes a lane in READY with PARK applied into TEST. -/
  | hostTest (l : LaneId) (k : HostCmd)
  /-- R457 Host command requesting a power domain to enter retention or off. -/
  | hostPdEnter (l : LaneId) (k : HostCmd) (dom target : Nat)
  /-- R457 Host command waking a power domain. -/
  | hostPdWake (l : LaneId) (k : HostCmd) (dom : Nat)
  /-- R457 Host command returning PD_STATE. -/
  | hostPdStatus (l : LaneId) (k : HostCmd)
  /-- R457 Host command returning PD_ACCT_0 to PD_ACCT_7. -/
  | hostPdAcctGet (l : LaneId) (k : HostCmd)
  /-- R448 A write of HQ_CMD_q.POP frees the head descriptor of a host-to-lane queue. -/
  | hqPop (l : LaneId) (q : Fin 16)
  /-- R448 A write of HQ_CMD_q.PUSH commits a lane-to-host descriptor, or is ignored when the queue is full. -/
  | hqPush (l : LaneId) (q : Fin 16)
  /-- R442 An Address Claimed or Request for Address Claimed is received and the lane defends or moves its address. -/
  | isobusAddressClaimedRx (l : LaneId) (src name : Nat) (request : Bool)
  /-- R443 A Commanded Address message is received and handled under R442. -/
  | isobusCommandedAddress (l : LaneId) (name addr : Nat)
  /-- R443 An ISOBUS Request is answered with DM2, identification, or a negative Acknowledgement. -/
  | isobusRequestRx (l : LaneId) (src dst pgn : Nat)
  /-- R444 A Proprietary A type 0x01 message forms ENGAGE or DISENGAGE and TRAIL_SET descriptors. -/
  | trailerBrakeRequest (l : LaneId) (src demand valid : Nat) (engage : Bool)
  /-- R444 A Proprietary A type 0x03 message by Transport Protocol carries the session opening. -/
  | isobusOpenMessage (l : LaneId) (h : Fin 4) (src nonce : Nat) (sig : List Byte)
  /-- R444 A Proprietary A type 0x05 message in RECOVERY carries an update descriptor. -/
  | recoveryDescriptor (l : LaneId) (src : Nat) (d : Descr)
  /-- R443 Every 1 s, or on a change, the lane broadcasts DM1. -/
  | dm1Timer (l : LaneId) (dt : Nat)
  /-- R445 Every 100 ms while serving STEER the lane broadcasts parameter group 0xFF61. -/
  | steeringStateBroadcast (l : LaneId) (dt : Nat) (angle rate : Int)
  /-- R359 The ISOBUS controller enters bus-off and source 393 fires. -/
  | isobusBusOff (l : LaneId)
  /-- R359 The Ethernet link goes down and source 392 fires. -/
  | ethernetLinkDown (l : LaneId)
  /-- R457 A write of PD_REQ with GO and a non-zero target starts a domain entry or is refused. -/
  | pdReqGo (l : LaneId) (v : Word)
  /-- R461 A write of PD_REQ with GO and TARGET 0 wakes a domain. -/
  | pdWakeCommand (l : LaneId) (dom : Fin 8) (origin : Nat)
  /-- R459 A step of a domain entry completes and the lane checks for a wake at its abort point. -/
  | pdEntryStepEnd (l : LaneId) (dom : Fin 8)
  /-- R458 P_1 or the network core has not executed WFI within 100 µs of GO and the entry is refused. -/
  | pdWfiTimeout (l : LaneId) (dt : Nat) (dom : Fin 8)
  /-- R462 An access, interrupt, bus activity, debug request or state change wakes a sleeping or entering domain. -/
  | pdWakeEvent (l : LaneId) (dom : Fin 8) (who : Waker)
  /-- R464 A domain is on again and its stalled accesses complete in arrival order. -/
  | pdWakeComplete (l : LaneId) (dt : Nat) (dom : Fin 8)
  /-- R467 A write of PD_CTRL.ACCTCLR clears every PD_ACCT_d. -/
  | pdAcctclr (l : LaneId)
  /-- R473 A write of START to CK_FM_CTRL opens a frequency-meter window or series. -/
  | ckFmStart (l : LaneId) (v : Word)
  /-- R473 A frequency-meter window closes, updating COUNT and setting DONE and OUTR. -/
  | ckFmWindowClose (l : LaneId) (count : Word)
  /-- R473 A write to CK_FM_CTRL or CK_FM_WIN while BUSY stops the measurement without a result. -/
  | ckFmStop (l : LaneId) (win : Bool) (v : Word)
  /-- R470 A PLL loses lock, CKW stops and PLLOK clears. -/
  | pllLockLoss (l : LaneId) (k : Fin 3)
  /-- R504 Mailbox command returning versions, serial number, lifecycle and valid slots. -/
  | seInfo (l : LaneId) (c : Fin 2) (pair : Pair) (len : Nat)
  /-- R487 Mailbox command that generates, fuses and wraps the lane identity key once in MANUFACTURE. -/
  | seIdGen (l : LaneId) (c : Fin 2) (pair : Pair) (len : Nat)
  /-- R504 Mailbox command returning the identity public key and certificate. -/
  | seIdPub (l : LaneId) (c : Fin 2) (pair : Pair) (len : Nat)
  /-- R504 Mailbox command that stores the identity certificate in MANUFACTURE. -/
  | seIdCert (l : LaneId) (c : Fin 2) (pair : Pair) (len : Nat)
  /-- R488 Mailbox command that signs a message with the identity key and context ZMX961-APP. -/
  | seSign (l : LaneId) (c : Fin 2) (pair : Pair) (len : Nat)
  /-- R504 Mailbox command that verifies an Ed448 signature. -/
  | seVerify (l : LaneId) (c : Fin 2) (pair : Pair) (len : Nat)
  /-- R504 Mailbox command returning a SHAKE256 digest over lane memory. -/
  | seHash (l : LaneId) (c : Fin 2) (pair : Pair) (len : Nat)
  /-- R504 Mailbox command returning DRBG output. -/
  | seRandom (l : LaneId) (c : Fin 2) (pair : Pair) (len : Nat)
  /-- R502 Mailbox command building and signing the attestation evidence record. -/
  | seAttest (l : LaneId) (c : Fin 2) (pair : Pair) (len : Nat)
  /-- R495 Mailbox command drawing a new debug challenge nonce. -/
  | seDbgChal (l : LaneId) (c : Fin 2) (pair : Pair) (len : Nat)
  /-- R496 Mailbox command checking a debug token and opening debug. -/
  | seDbgOpen (l : LaneId) (c : Fin 2) (pair : Pair) (len : Nat)
  /-- R500 Mailbox command returning the lane from token-open to closed. -/
  | seDbgClose (l : LaneId) (c : Fin 2) (pair : Pair) (len : Nat)
  /-- R490 Mailbox command advancing the lifecycle fuses with an authorisation record. -/
  | seLcAdvance (l : LaneId) (c : Fin 2) (pair : Pair) (len : Nat)
  /-- R491 Mailbox command revoking a key slot with an authorisation record. -/
  | seKeyRevoke (l : LaneId) (c : Fin 2) (pair : Pair) (len : Nat)
  /-- R504 Mailbox command programming a public key slot in MANUFACTURE. -/
  | seKeyProg (l : LaneId) (c : Fin 2) (pair : Pair) (len : Nat)
  /-- R503 The security core finishes a mailbox request, sets DONE and raises the channel's PLIC source. -/
  | seCommandComplete (l : LaneId) (c : Fin 2)
  /-- R482 An entropy health test fails, setting ALARM and the security-core alarm source. -/
  | entropyHealthFail (l : LaneId)
  /-- R484 The tamper mesh is breached, the lane enters WINTER and the security core zeroises. -/
  | tamperBreach (l : LaneId)
  /-- R495 A debugger write of 0x0000_0001 to authdata draws a new challenge nonce. -/
  | authdataChallenge (l : LaneId)
  /-- R495 A debugger writes one token word to authdata, and the 48th starts the token check. -/
  | authdataTokenWord (l : LaneId) (w : Word)
  /-- R500 A debugger write of 0x0000_0002 to authdata closes debug. -/
  | authdataClose (l : LaneId)
  /-- R495 A debugger read of authdata returns the next nonce word or the token status. -/
  | authdataRead (l : LaneId)
  /-- R496 The token checks complete and the lane becomes token-open with the token's scope or reports an error. -/
  | debugTokenCheckDone (l : LaneId)
  /-- R500 The debug open timer expires and the lane returns to closed. -/
  | debugOpenTimerExpiry (l : LaneId) (dt : Nat)
  /-- R493 JTAG instruction EXTEST, acting as BYPASS outside MANUFACTURE. -/
  | jtagExtest (l : LaneId)
  /-- R493 JTAG instruction selecting the device identification register. -/
  | jtagIdcode (l : LaneId)
  /-- R493 JTAG instruction SAMPLE/PRELOAD, acting as BYPASS outside MANUFACTURE. -/
  | jtagSamplePreload (l : LaneId)
  /-- R493 JTAG instruction selecting the debug transport control register. -/
  | jtagDtmcs (l : LaneId)
  /-- R494 JTAG instruction selecting the debug module interface, restricted while closed. -/
  | jtagDmi (l : LaneId) (addr : Nat) (data : Option Word)
  /-- R493 JTAG instruction selecting the bypass register. -/
  | jtagBypass (l : LaneId)
  /-- R517 Host command starting or resuming delivery of an update package. -/
  | updBegin (l : LaneId) (k : Option HostCmd) (digest chunks : Nat) (delta : Bool)
  /-- R518 Host command carrying one 32-byte fragment of a chunk, never answered. -/
  | updData (l : LaneId) (k : Option HostCmd) (chunk : Nat) (frag : Fin 128) (data : Vector Byte 32)
  /-- R517 Host command returning update state, error and chunk holding. -/
  | updStatus (l : LaneId) (k : Option HostCmd)
  /-- R522 Host command returning the journal to IDLE and discarding staging. -/
  | updAbort (l : LaneId) (k : Option HostCmd)
  /-- R523 Host command that starts activation with this lane as coordinator, or is refused. -/
  | updActivate (l : LaneId) (k : HostCmd)
  /-- R517 Host command returning active and staged versions and the fused floor. -/
  | updInfo (l : LaneId) (k : Option HostCmd)
  /-- R517 Host command pausing or resuming update application. -/
  | updPause (l : LaneId) (k : HostCmd) (pause : Bool)
  /-- R519 A chunk forwarded by a neighbour in the bulk class arrives and passes the same check. -/
  | forwardedChunkRx (l : LaneId) (s : Side) (chunk : Nat) (data : List Byte)
  /-- R520 Each 1 MiB of output or each part end of application writes a checkpoint to the journal. -/
  | updateApplyCheckpoint (l : LaneId) (part mib : Nat)
  /-- R521 All parts are built and verified, and the journal enters STAGED or IDLE with error. -/
  | updateApplyDone (l : LaneId) (storeOk : Bool)
  /-- R522 No commit announcement within 100 ms returns PREPARED to STAGED. -/
  | preparedTimeout (l : LaneId) (dt : Nat)
  /-- R524 At t_r every lane turns off its ports, opens KM and KP and restarts in TRIAL. -/
  | updateRestart (l : LaneId)
  /-- R525 1,000 ms from READY without confirmation the lane reverts to the previous bank. -/
  | trialTimeout (l : LaneId) (dt : Nat)
  /-- R529 In RECOVERY a verified package is built in the inactive bank and the lane starts on it. -/
  | recoveryPackageBuilt (l : LaneId)
  /-- R541 A write of BT_FUSE.GO programs a fused repair of a row, or is refused. -/
  | btFuseGo (l : LaneId) (core : Core) (v : Word)
  /-- R541 Fuse programming completes and the row is repaired for good. -/
  | btFuseDone (l : LaneId)
  /-- R543 Every INTERVAL ms the scheduler starts a slice of the next target whose conditions hold. -/
  | sliceSchedulerTick (l : LaneId) (dt : Nat)
  /-- R545 A test slice completes, and a failure sets source 451 and leaves the target as R545 states. -/
  | sliceDone (l : LaneId) (pass : Bool) (addr : BitVec 16) (evenPass oddPass : Bool)
  /-- R547 In TEST a write of BT_TEST with SLICE and GO slices a target regardless of conditions. -/
  | btTestSlice (l : LaneId) (core : Core) (target : Nat)
  /-- R547 In TEST a write of BT_TEST.ANALOG reruns step 4 of the Solstice test. -/
  | btTestAnalog (l : LaneId) (core : Core)
  /-- R548 A write of AG_RUN.GO starts processing the pending ageing records. -/
  | agRunGo (l : LaneId) (core : Core)
  /-- R549 An ageing run ends with updated wear indicators, thresholds and predictions. -/
  | ageingRunDone (l : LaneId)
  /-- R7 A write to a register without a row of its own stores its fields by their access codes, range and lock rules. -/
  | registerWrite (l : LaneId) (core : Core) (addr size data : Nat)
  /-- R156 A drive engine issues a word whose opcode is not listed in R159, or whose must-be-zero field is non-zero, and halts with HALT 2. -/
  | illegalInstruction (l : LaneId) (n : Engine)
  /-- R400 The machine timer's mtime, advancing with device time, reaches mtimecmp and the timer interrupt becomes pending, waking CP_1 if it sleeps. -/
  | mtimecmpReached (l : LaneId) (dt : Nat) (hart : Core)
  /-- R500 A debugger resumes a halted hart, which continues while its pair stays split. -/
  | debugResumeRequest (l : LaneId) (core : Core)
  /-- R458 A core of P_1, or the network core, executes WFI, letting a pending entry of CP_1 or NET proceed past its WFI wait. -/
  | wfi (l : LaneId) (core : Option Core)
  /-- R326 Edges of CKW or of the RC reference return after a loss, setting LDCLK or RCCLK and starting the 10 ms count towards CLKGOOD. -/
  | clockEdgesResume (l : LaneId) (rc : Bool)
  /-- R583 The SGMII link to the T1 PHY comes up with an auto-negotiated speed, ending the condition of source 392 and fixing the timestamp resolution. -/
  | ethernetLinkUp (l : LaneId) (speed : Nat)
  /-- R441 An ISOBUS TP.CM frame (RTS, CTS, EoMA, BAM or Connection Abort) arrives, advancing a transport session or, for a second concurrent RTS/CTS session, being answered with Connection Abort. -/
  | transportProtocolCmRx (l : LaneId) (m : TpCm)
  /-- R572 The V5OUT switch's junction reaches 170 °C and the sensor supply shuts off for 10 ms. -/
  | v5outOvertemperature (l : LaneId)
  /-- R572 10 ms after a thermal shutdown V5OUT switches on again. -/
  | v5outRetry (l : LaneId) (dt : Nat)
  /-- R314 After a re-arm or update restart has held the lane die in reset for 100 µs, the reset releases and the lane starts from BOOT. -/
  | laneDieResetRelease (l : LaneId) (dt : Nat)
  /-- R522 The floor fuses blown in the background after trial confirmation finish programming, and UP_FLOOR.FLOOR takes the manifest's FLOOR. -/
  | floorFusesBlown (l : LaneId)
  /-- R547 The rerun of Solstice step 4 ordered through BT_TEST.ANALOG completes, restores the CS fields it changed and raises the BT PLIC source. -/
  | analogRerunDone (l : LaneId) (r : AnalogReadings) (res0 res1 : Word)
  deriving DecidableEq, Repr

end Sys2Proof
end

