-- ==== Sys2Proof/WellFormed.lean ====
section
/-! DEFINITION. Which terms of the syntax spell something the hardware can be given: fields that fit the width
of the frame that carries them, sizes that a bus access can have, register numbers that an instruction allows. -/

namespace Sys2Proof

/-- A number fits `w` bits. -/
def fits (w v : Nat) : Bool := decide (v < 2 ^ w)

/-- SINCOS names an even rd of at most 30 (R159); nothing else is asked of a decoded instruction. -/
def DeInstr.wf : DeInstr → Bool
  | .sincos rd _ => decide (rd.toNat % 2 = 0)
  | _ => true

/-- A reference record's fields fit their bytes (R175). -/
def RefRecord.wf (r : RefRecord) : Bool :=
  fits 32 r.seq && fits 64 r.trel && r.svMa.toList.all (fits 16)

/-- A sensor record's fields fit theirs (R233). -/
def SensorRecord.wf (r : SensorRecord) : Bool := fits 8 r.src && fits 64 r.tcap

/-- A descriptor is 64 bytes with 48 bytes of arguments (R432). -/
def Descr.wf (d : Descr) : Bool :=
  fits 8 d.op && fits 8 d.flags && fits 16 d.tag && fits 32 d.index && fits 16 d.status && decide (d.args.length ≤ 48)

/-- A bus access moves 1, 2, 4 or 8 bytes at an address of a hart (R5). -/
def busWf (addr size data : Nat) : Bool :=
  fits 64 addr && [1, 2, 4, 8].contains size && fits (8 * size) data

/-- A function report's fields fit the registers they come from (R117). -/
def FuncReport.wf (r : FuncReport) : Bool :=
  fits 3 r.role && fits 2 r.mode && fits 4 r.cause && fits 32 r.autumnMs && fits 2 r.rotIndex && fits 32 r.histSeq &&
    fits 16 r.period

/-- A status frame's fields fit theirs (R89). -/
def StatusFrame.wf (f : StatusFrame) : Bool :=
  fits 4 f.state && fits 128 f.featSet && fits 256 f.digest && f.funcs.toList.all FuncReport.wf

/-- A command that the world can give the block; a load may also name a counter CSR (R131). -/
def Instr.wf : Instr → Bool
  | .statusFrameRx _ _ f => f.wf
  | .llReferenceWrite _ _ r => r.wf
  | .referenceRx _ _ r => r.wf
  | .sensorRecordRx _ _ (.reading r) => r.wf
  | .recoveryDescriptor _ _ d => d.wf
  | .pairedOutputWrite _ _ addr size data => busWf addr size data
  | .pairedInputLoad _ _ addr size => busWf addr size 0 || (decide (2 ^ 64 ≤ addr) && decide (addr < 2 ^ 64 + 4096) && decide (size = 8))
  | .debugSysbusAccess _ addr size data => busWf addr size (data.getD 0)
  | .registerWrite _ _ addr size data => busWf addr size data
  | .deSincos _ _ rd ra => (DeInstr.sincos rd ra).wf
  | _ => true

end Sys2Proof
end

