-- ==== Sys2Proof/Decode.lean ====
section
/-! DEFINITION. Words: the opcode table gives its rows no bits, so no word spells a command; the instruction words
of a drive engine (R156, R159) are read and written here. -/

namespace Sys2Proof

/-- The command that a word spells by the table's bits: the table gives no row bits, so none does. -/
def decodeTableWord (_nbits _w : Nat) : Option Instr := none

/-- Opcode field (R156). -/
def deOp (w : Word) : BitVec 6 := w.extractLsb' 26 6
/-- Bits [25:21]: rd of R and I, ra of B (R156). -/
def deF1 (w : Word) : Reg := w.extractLsb' 21 5
/-- Bits [20:16]: ra of R and I, rb of B (R156). -/
def deF2 (w : Word) : Reg := w.extractLsb' 16 5
/-- Bits [15:11]: rb of R (R156). -/
def deF3 (w : Word) : Reg := w.extractLsb' 11 5
/-- Bits [10:0]: fn of R (R156). -/
def deFn (w : Word) : BitVec 11 := w.extractLsb' 0 11
/-- Bits [15:0]: imm16 of I and off16 of B (R156). -/
def deImm (w : Word) : BitVec 16 := w.extractLsb' 0 16
/-- Bits [25:0]: off26 of J (R156). -/
def deOff (w : Word) : BitVec 26 := w.extractLsb' 0 26

/-- Take an instruction only when the fields that must be 0 are 0 (R156). -/
def deIf (b : Bool) (i : DeInstr) : Option DeInstr := if b then some i else none
/-- An R-format word whose fn must be 0. -/
def deR (w : Word) (f : Reg → Reg → Reg → DeInstr) : Option DeInstr :=
  deIf (decide (deFn w = 0)) (f (deF1 w) (deF2 w) (deF3 w))
/-- An R-format word with fn 0 and no second source; `rbZero` where the operation says that rb is 0. -/
def deR1 (w : Word) (rbZero : Bool) (f : Reg → Reg → DeInstr) : Option DeInstr :=
  deIf (decide (deFn w = 0) && (!rbZero || decide (deF3 w = 0))) (f (deF1 w) (deF2 w))
/-- A shift by an immediate: imm16[15:5] is 0. -/
def deSh (w : Word) (f : Reg → Reg → Reg → DeInstr) : Option DeInstr :=
  deIf (decide (w.extractLsb' 5 11 = 0)) (f (deF1 w) (deF2 w) (w.extractLsb' 0 5))
/-- A conversion with f fractional bits: fn[10:5] is 0. -/
def deQ (w : Word) (f : Reg → Reg → Reg → DeInstr) : Option DeInstr :=
  deIf (decide (w.extractLsb' 5 6 = 0)) (f (deF1 w) (deF2 w) (w.extractLsb' 0 5))

/-- The instruction of a drive engine that a word spells, or none for an illegal word (R156, R159). Fields that
the spec does not say must be 0 are not looked at (log entry 16). -/
def deDecode (w : Word) : Option DeInstr :=
  match (deOp w).toNat with
  | 0x00 => deIf (decide (w = 0)) .nop
  | 0x01 => deR w .add
  | 0x02 => deR w .sub
  | 0x03 => deR w .and
  | 0x04 => deR w .or
  | 0x05 => deR w .xor
  | 0x06 => deR w .sll
  | 0x07 => deR w .srl
  | 0x08 => deR w .sra
  | 0x09 => deR w .slt
  | 0x0A => deR w .sltu
  | 0x0B => deR w .min
  | 0x0C => deR w .max
  | 0x0D => deR w .mul
  | 0x10 => some (.addi (deF1 w) (deF2 w) (deImm w))
  | 0x11 => some (.andi (deF1 w) (deF2 w) (deImm w))
  | 0x12 => some (.ori (deF1 w) (deF2 w) (deImm w))
  | 0x13 => some (.xori (deF1 w) (deF2 w) (deImm w))
  | 0x14 => deIf (decide (deF2 w = 0)) (.lui (deF1 w) (deImm w))
  | 0x15 => deSh w .slli
  | 0x16 => deSh w .srli
  | 0x17 => deSh w .srai
  | 0x18 => some (.ld (deF1 w) (deF2 w) (deImm w))
  | 0x19 => some (.st (deF1 w) (deF2 w) (deImm w))
  | 0x1A => deIf (decide (deF2 w = 0)) (.inp (deF1 w) (deImm w))
  | 0x1B => deIf (decide (deF2 w = 0)) (.outp (deF1 w) (deImm w))
  | 0x1C => some (.wait (deF1 w) (w.extractLsb' 0 9))
  | 0x20 => some (.beq (deF1 w) (deF2 w) (deImm w))
  | 0x21 => some (.bne (deF1 w) (deF2 w) (deImm w))
  | 0x22 => some (.blt (deF1 w) (deF2 w) (deImm w))
  | 0x23 => some (.bge (deF1 w) (deF2 w) (deImm w))
  | 0x24 => some (.j (deOff w))
  | 0x25 => some (.jal (deOff w))
  | 0x26 => deIf (decide (deF1 w = 0) && decide (deImm w = 0)) (.jr (deF2 w))
  | 0x27 => some .halt
  | 0x28 => deR w .fadd
  | 0x29 => deR w .fsub
  | 0x2A => deR w .fmul
  | 0x2B => deR w .fma
  | 0x2C => deR w .fmin
  | 0x2D => deR w .fmax
  | 0x2E => deR1 w true .fneg
  | 0x2F => deR1 w true .fabs
  | 0x30 => deR w .flt
  | 0x31 => deR1 w false .ftoi
  | 0x32 => deR1 w false .itof
  | 0x33 => deQ w .ftoq
  | 0x34 => deQ w .qtof
  | 0x35 => deIf (decide (w.extractLsb' 5 6 = 0)) (.qmul (deF1 w) (deF2 w) (deF3 w) (w.extractLsb' 0 5))
  | 0x36 => deR w .qadd
  | 0x37 => deR w .qsub
  | 0x38 =>
    if (deF1 w).toNat % 2 = 0 ∧ (deF1 w).toNat ≤ 30 then deR1 w true .sincos else none
  | 0x39 => deR w .atan2
  | 0x3A => deR1 w false .recip
  | 0x3B => deR1 w false .rsqrt
  | 0x3C => deR1 w false .sqrt
  | _ => none

/-- A word of format R (R156). -/
def encR (op : BitVec 6) (rd ra rb : Reg) (fn : BitVec 11) : Word := op ++ rd ++ ra ++ rb ++ fn
/-- A word of format I (R156). -/
def encI (op : BitVec 6) (rd ra : Reg) (imm : BitVec 16) : Word := op ++ rd ++ ra ++ imm
/-- A word of format J (R156). -/
def encJ (op : BitVec 6) (off : BitVec 26) : Word := op ++ off

/-- The word of an instruction of a drive engine, unused fields 0 (R156, R159). -/
def deEncode : DeInstr → Word
  | .nop => 0
  | .add rd ra rb => encR 0x01 rd ra rb 0
  | .sub rd ra rb => encR 0x02 rd ra rb 0
  | .and rd ra rb => encR 0x03 rd ra rb 0
  | .or rd ra rb => encR 0x04 rd ra rb 0
  | .xor rd ra rb => encR 0x05 rd ra rb 0
  | .sll rd ra rb => encR 0x06 rd ra rb 0
  | .srl rd ra rb => encR 0x07 rd ra rb 0
  | .sra rd ra rb => encR 0x08 rd ra rb 0
  | .slt rd ra rb => encR 0x09 rd ra rb 0
  | .sltu rd ra rb => encR 0x0A rd ra rb 0
  | .min rd ra rb => encR 0x0B rd ra rb 0
  | .max rd ra rb => encR 0x0C rd ra rb 0
  | .mul rd ra rb => encR 0x0D rd ra rb 0
  | .addi rd ra imm => encI 0x10 rd ra imm
  | .andi rd ra imm => encI 0x11 rd ra imm
  | .ori rd ra imm => encI 0x12 rd ra imm
  | .xori rd ra imm => encI 0x13 rd ra imm
  | .lui rd imm => encI 0x14 rd 0 imm
  | .slli rd ra sh => encI 0x15 rd ra ((0 : BitVec 11) ++ sh)
  | .srli rd ra sh => encI 0x16 rd ra ((0 : BitVec 11) ++ sh)
  | .srai rd ra sh => encI 0x17 rd ra ((0 : BitVec 11) ++ sh)
  | .ld rd ra imm => encI 0x18 rd ra imm
  | .st rd ra imm => encI 0x19 rd ra imm
  | .inp rd port => encI 0x1A rd 0 port
  | .outp rd port => encI 0x1B rd 0 port
  | .wait rd mask => encI 0x1C rd 0 ((0 : BitVec 7) ++ mask)
  | .beq ra rb off => encI 0x20 ra rb off
  | .bne ra rb off => encI 0x21 ra rb off
  | .blt ra rb off => encI 0x22 ra rb off
  | .bge ra rb off => encI 0x23 ra rb off
  | .j off => encJ 0x24 off
  | .jal off => encJ 0x25 off
  | .jr ra => encI 0x26 0 ra 0
  | .halt => encJ 0x27 0
  | .fadd rd ra rb => encR 0x28 rd ra rb 0
  | .fsub rd ra rb => encR 0x29 rd ra rb 0
  | .fmul rd ra rb => encR 0x2A rd ra rb 0
  | .fma rd ra rb => encR 0x2B rd ra rb 0
  | .fmin rd ra rb => encR 0x2C rd ra rb 0
  | .fmax rd ra rb => encR 0x2D rd ra rb 0
  | .fneg rd ra => encR 0x2E rd ra 0 0
  | .fabs rd ra => encR 0x2F rd ra 0 0
  | .flt rd ra rb => encR 0x30 rd ra rb 0
  | .ftoi rd ra => encR 0x31 rd ra 0 0
  | .itof rd ra => encR 0x32 rd ra 0 0
  | .ftoq rd ra f => encR 0x33 rd ra 0 ((0 : BitVec 6) ++ f)
  | .qtof rd ra f => encR 0x34 rd ra 0 ((0 : BitVec 6) ++ f)
  | .qmul rd ra rb f => encR 0x35 rd ra rb ((0 : BitVec 6) ++ f)
  | .qadd rd ra rb => encR 0x36 rd ra rb 0
  | .qsub rd ra rb => encR 0x37 rd ra rb 0
  | .sincos rd ra => encR 0x38 rd ra 0 0
  | .atan2 rd ra rb => encR 0x39 rd ra rb 0
  | .recip rd ra => encR 0x3A rd ra 0 0
  | .rsqrt rd ra => encR 0x3B rd ra 0 0
  | .sqrt rd ra => encR 0x3C rd ra 0 0

end Sys2Proof
end

