-- ==== Sys2Proof/Config.lean ====
section
/-! DEFINITION. What one device fixes for itself and what the spec leaves free: opaque constants, so that no
proof can see a value of them. Log entries 6 and 13. -/

namespace Sys2Proof

/-- The kinds of value that the spec leaves open and a command needs (log entry 6). -/
inductive FreeKind
  | challengeSeed | nonce | random | identityKey | damage | gateDamage | junction | speed | meanAngle | extrapolated
  | circular | amplitude | resolverAngle | combined | votedSpeed | solenoid | busValue | gateFall | standard | unstated
  deriving DecidableEq, Repr

/-- A free value: the draw number `k` of a kind in a lane. It is a value the spec does not state. -/
opaque Config.free (kind : FreeKind) (l : LaneId) (k : Nat) : Nat

/-- What a quantity that the spec states in real numbers, or a standard it names, comes to for given operands
where the spec states no rounding (log entry 6). -/
opaque Config.freeOf (kind : FreeKind) (operands : List Int) : Int

/-- SE_SERIAL: the device serial number (R509), fixed per part. -/
opaque Config.serial : BitVec 64
/-- EN_MAC: the MAC address of a lane (R451), fixed per part. -/
opaque Config.mac : LaneId → BitVec 48
/-- The Utainis manufacturer code in NAME (R442), which the spec does not state. -/
opaque Config.manufacturer : BitVec 11
/-- The identity number of NAME above the lane letter, which is formed from the serial number in a way the spec does not
state (R442). -/
opaque Config.nameIdentity : BitVec 19
/-- The rest of NAME, which ISO 11783 leaves to the control function (R442): bits 32 to 59. -/
opaque Config.nameFunction : BitVec 28
/-- ROM version and security firmware version (R486, R509). -/
opaque Config.romVersion : BitVec 16
/-- The security firmware version (R509). -/
opaque Config.secVersion : BitVec 16
/-- The security firmware is a version that FIPS 140-3 validation covers (R483). -/
opaque Config.validatedFirmware : Bool
/-- ROM build number (R486). -/
opaque Config.romBuild : BitVec 32
/-- The boot ROM's bytes below 0x0003_F000 (R486). -/
opaque Config.romByte : Nat → Byte
/-- The order in which the sources that the spec names take their places among the 256 of the PLIC (R16; log entry 66). -/
opaque Config.plicOrder : Equiv.Perm (Fin 256)
/-- The result of a T-unit operation that R160 bounds only by an accuracy: op 0 sine, 1 cosine, 2 ATAN2, 3 RECIP,
4 RSQRT, 5 SQRT (log entry 15). -/
opaque Config.approx (op : Nat) (x y : Word) : Word
/-- The NaN that an FP32 operation gives for operands of which one is a NaN already (log entry 17). -/
opaque Config.nanOf (x y z : Word) : Word

end Sys2Proof
end

