-- ==== Sys2Proof/Machine/Fp.lean ====
section
/-! DEFINITION. The arithmetic of a drive engine (R159, R160): binary32 rounded to nearest with ties to even,
subnormals flushed, the Q formats, and the table functions with the accuracy that R160 allows. Finite values are
exact pairs of a number and a power of two; every result is rounded once. -/

namespace Sys2Proof.Machine

/-- Two to an integer power times a number, cut to a whole number. -/
def shl (m : Nat) (k : Int) : Nat := if 0 ≤ k then m * 2 ^ k.toNat else m / 2 ^ (-k).toNat

/-- `m / 2^d` rounded to nearest, ties to even. -/
def rne (m d : Nat) : Nat :=
  if d = 0 then m
  else
    let q := m / 2 ^ d
    let r := m % 2 ^ d
    let h := 2 ^ (d - 1)
    if r < h then q else if h < r then q + 1 else q + q % 2

/-- A binary32 value as R160 sees it: subnormals are zeros. -/
inductive Fp
  | nan
  | inf (neg : Bool)
  | fin (neg : Bool) (m : Nat) (e : Int)
  deriving DecidableEq, Repr

/-- The NaN of R160. -/
def fpQNan : Word := 0x7FC00000
/-- A signed infinity. -/
def fpInf (neg : Bool) : Word := if neg then 0xFF800000 else 0x7F800000
/-- A signed zero. -/
def fpZero (neg : Bool) : Word := if neg then 0x80000000 else 0

/-- Take a word apart. -/
def fpOf (w : Word) : Fp :=
  let v := w.toNat
  let s := nbit v 31
  let e := nbits v 23 8
  let f := nbits v 0 23
  if e = 0 then .fin s 0 0
  else if e = 255 then (if f = 0 then .inf s else .nan)
  else .fin s (2 ^ 23 + f) (e - 150)

/-- The word nearest to `± m × 2^e` (R160). -/
def fpRound (neg : Bool) (m : Nat) (e : Int) : Word :=
  if m = 0 then fpZero neg
  else
    let q : Int := max (e + m.log2 - 23) (-149)
    let m1 := if q ≤ e then m * 2 ^ (e - q).toNat else rne m (q - e).toNat
    let (m2, q2) := if 2 ^ 24 ≤ m1 then (2 ^ 23, q + 1) else (m1, q)
    if m2 < 2 ^ 23 then fpZero neg
    else if 255 ≤ q2 + 150 then fpInf neg
    else BitVec.ofNat 32 (b2n neg * 2 ^ 31 + (q2 + 150).toNat * 2 ^ 23 + (m2 - 2 ^ 23))

/-- A word that is a NaN. -/
def isNan (w : Word) : Bool := decide (fpOf w = .nan)
/-- A word that is a quiet NaN. -/
def isQNan (w : Word) : Bool := isNan w && nbit w.toNat 22

/-- The NaN given when an operand is a NaN already: that of R160 where one is a signalling NaN, which makes the operation invalid, else a
quiet NaN, which one the spec does not state (log entry 17). -/
def nanOf (x y z : Word) : Word :=
  if [x, y, z].any (fun w => isNan w && !isQNan w) then fpQNan
  else if isQNan (Config.nanOf x y z) then Config.nanOf x y z else fpQNan

/-- A sum of two finite values as an exact signed number and exponent. -/
def fpSumExact (s1 : Bool) (m1 : Nat) (e1 : Int) (s2 : Bool) (m2 : Nat) (e2 : Int) : Int × Int :=
  let e := min e1 e2
  let a : Int := m1 * 2 ^ (e1 - e).toNat
  let b : Int := m2 * 2 ^ (e2 - e).toNat
  ((if s1 then -a else a) + (if s2 then -b else b), e)

/-- Round an exact sum; a sum of 0 has the common sign of two zeros of one sign and is +0 otherwise. -/
def fpSumRound (s1 : Bool) (m1 : Nat) (e1 : Int) (s2 : Bool) (m2 : Nat) (e2 : Int) : Word :=
  let (v, e) := fpSumExact s1 m1 e1 s2 m2 e2
  if v = 0 then fpZero (s1 && s2) else fpRound (decide (v < 0)) v.natAbs e

/-- FADD (R159, R160). -/
def fadd (x y : Word) : Word :=
  match fpOf x, fpOf y with
  | .nan, _ => nanOf x y 0
  | _, .nan => nanOf x y 0
  | .inf a, .inf b => if a = b then fpInf a else fpQNan
  | .inf a, .fin _ _ _ => fpInf a
  | .fin _ _ _, .inf b => fpInf b
  | .fin s1 m1 e1, .fin s2 m2 e2 => fpSumRound s1 m1 e1 s2 m2 e2

/-- Change the sign of a word that is not a NaN; subnormals become zeros (R160). -/
def fneg (x : Word) : Word :=
  match fpOf x with
  | .nan => x ^^^ 0x80000000
  | .inf s => fpInf (!s)
  | .fin s m e => fpRound (!s) m e

/-- FABS. -/
def fabs (x : Word) : Word :=
  match fpOf x with
  | .nan => x &&& 0x7FFFFFFF
  | .inf _ => fpInf false
  | .fin _ m e => fpRound false m e

/-- FSUB. -/
def fsub (x y : Word) : Word :=
  match fpOf x, fpOf y with
  | .nan, _ => nanOf x y 0
  | _, .nan => nanOf x y 0
  | _, _ => fadd x (fneg y)

/-- FMUL. -/
def fmul (x y : Word) : Word :=
  match fpOf x, fpOf y with
  | .nan, _ => nanOf x y 0
  | _, .nan => nanOf x y 0
  | .inf a, .inf b => fpInf (a != b)
  | .inf a, .fin b m _ => if m = 0 then fpQNan else fpInf (a != b)
  | .fin a m _, .inf b => if m = 0 then fpQNan else fpInf (a != b)
  | .fin a m1 e1, .fin b m2 e2 => fpRound (a != b) (m1 * m2) (e1 + e2)

/-- FMA: `z + x × y`, rounded once. -/
def fma (z x y : Word) : Word :=
  match fpOf x, fpOf y, fpOf z with
  | .fin a m1 e1, .fin b m2 e2, .fin c m3 e3 => fpSumRound c m3 e3 (a != b) (m1 * m2) (e1 + e2)
  | .fin _ _ _, .fin _ _ _, .inf c => fpInf c
  | p, q, r =>
    if p = .nan ∨ q = .nan ∨ r = .nan then nanOf x y z
    else
      match fmul x y with
      | w => if isNan w then fpQNan else fadd z w

/-- The order of two words that are not NaNs; the zeros compare equal (IEEE 754). -/
def fpLt (x y : Word) : Bool :=
  match fpOf x, fpOf y with
  | .nan, _ => false
  | _, .nan => false
  | .inf a, .inf b => a && !b
  | .inf a, .fin _ _ _ => a
  | .fin _ _ _, .inf b => !b
  | .fin s1 m1 e1, .fin s2 m2 e2 => decide ((fpSumExact s1 m1 e1 (!s2) m2 e2).1 < 0)

/-- A word with subnormals flushed. -/
def fpFlush (x : Word) : Word := fneg (fneg x)

/-- FMIN and FMAX: the operand that is not a NaN, −0 below +0 (log entry 17). -/
def fminmax (maximum : Bool) (x y : Word) : Word :=
  match isNan x, isNan y with
  | true, true => nanOf x y 0
  | true, false => fpFlush y
  | false, true => fpFlush x
  | false, false =>
    let xLess := fpLt x y || (!fpLt y x && nbit x.toNat 31)
    if maximum then (if xLess then fpFlush y else fpFlush x) else (if xLess then fpFlush x else fpFlush y)

/-- FLT: 0 with a NaN operand. -/
def flt (x y : Word) : Word := if fpLt x y then 1 else 0

/-- A signed number held to 32 bits. -/
def sat32 (v : Int) : Word := BitVec.ofInt 32 (clampI (-2147483648) 2147483647 v)

/-- FTOI and FTOQ: `x × 2^f` rounded to nearest with ties to even, saturating; a NaN gives 0. -/
def ftoq (x : Word) (f : Nat) : Word :=
  match fpOf x with
  | .nan => 0
  | .inf s => sat32 (if s then -2147483648 else 2147483647)
  | .fin s m e =>
    let k := e + f
    let a : Nat := if 0 ≤ k then m * 2 ^ k.toNat else rne m (-k).toNat
    sat32 (if s then -(a : Int) else a)

/-- ITOF and QTOF: the signed number in a word times `2^-f`. -/
def qtof (x : Word) (f : Nat) : Word := fpRound (decide (x.toInt < 0)) x.toInt.natAbs (-(f : Int))

/-- QMUL: the rounded saturating product. -/
def qmul (x y : Word) (f : Nat) : Word :=
  let p := x.toInt * y.toInt + (if f = 0 then 0 else 2 ^ (f - 1))
  sat32 (p / 2 ^ f)

/-! ### Exact comparisons -/

/-- The exact value `m × 2^e`. -/
structure Dy where
  m : Int
  e : Int
  deriving DecidableEq, Repr
/-- The value of a finite word. -/
def dyOf (w : Word) : Option Dy :=
  match fpOf w with
  | .fin s m e => some ⟨if s then -(m : Int) else m, e⟩
  | _ => none
/-- Product of two values. -/
def dyMul (a b : Dy) : Dy := ⟨a.m * b.m, a.e + b.e⟩
/-- Difference of two values. -/
def dySub (a b : Dy) : Dy :=
  let e := min a.e b.e
  ⟨a.m * 2 ^ (a.e - e).toNat - b.m * 2 ^ (b.e - e).toNat, e⟩
/-- Magnitude of a value. -/
def dyAbs (a : Dy) : Dy := ⟨a.m.natAbs, a.e⟩
/-- A value times a whole number. -/
def dyScale (k : Int) (a : Dy) : Dy := ⟨k * a.m, a.e⟩
/-- One value is at most another; with no value it is not. -/
def dyLe (a b : Option Dy) : Bool :=
  match a, b with
  | some x, some y => decide (0 ≤ (dySub y x).m)
  | _, _ => false
/-- One value is below another; with no value it is not. -/
def dyLt (a b : Option Dy) : Bool :=
  match a, b with
  | some x, some y => decide (0 < (dySub y x).m)
  | _, _ => false

/-! ### Table functions -/

/-- The whole part of a square root, one bit of the root for each step of `k`. -/
def isqrtGo (n : Nat) : Nat → Nat → Nat
  | 0, r => r
  | k + 1, r => let t := r + 2 ^ k; isqrtGo n k (if t * t ≤ n then t else r)

/-- The whole part of a square root. -/
def isqrt (n : Nat) : Nat := isqrtGo n (n.log2 / 2 + 1) 0

/-- Round `q × 2^e` where something more may follow the last bit of `q`. -/
def fpRoundSticky (neg : Bool) (q : Nat) (e : Int) (more : Bool) : Word := fpRound neg (2 * q + b2n more) (e - 1)

/-- `r` is the word nearest to a true value, `cmp` says how the true magnitude compares with `r`'s magnitude: the
words within 1 unit in the last place are `r` and the next one on the true value's side. -/
def within1 (r p : Word) (cmp : Ordering) : Bool :=
  decide (p = r) ||
    (decide (p.toNat = r.toNat + 1) && decide (cmp ≠ .lt) && !isNan p) ||
    (decide (p.toNat + 1 = r.toNat) && decide (cmp ≠ .gt))

/-- The proposal of the device where it lies within the accuracy, a subnormal one flushed, else the nearest word (R160; log entry 15). -/
def within1Or (r p : Word) (cmp : Ordering) : Word := if within1 r p cmp then fpFlush p else r

/-- Compare `m1 × 2^e1` with `m2 × 2^e2`. -/
def cmpExp (m1 : Nat) (e1 : Int) (m2 : Nat) (e2 : Int) : Ordering :=
  let e := min e1 e2
  compare (m1 * 2 ^ (e1 - e).toNat) (m2 * 2 ^ (e2 - e).toNat)

/-- RECIP: within 1 unit in the last place; of 0, +infinity. -/
def frecip (x : Word) : Word :=
  match fpOf x with
  | .nan => nanOf x 0 0
  | .inf s => fpZero s
  | .fin s m e =>
    if m = 0 then fpInf false
    else
      let q := 2 ^ 60 / m
      let r := fpRoundSticky s q (-60 - e) (decide (2 ^ 60 % m ≠ 0))
      match fpOf r with
      | .fin _ rm re => if rm = 0 then r else within1Or r (Config.approx 3 x 0) (cmpExp 1 0 (rm * m) (re + e))
      | _ => r

/-- SQRT: within 1 unit in the last place; of a negative value, the NaN of R160. -/
def fsqrt (x : Word) : Word :=
  match fpOf x with
  | .nan => nanOf x 0 0
  | .inf s => if s then fpQNan else fpInf false
  | .fin s m e =>
    if m = 0 then fpZero s
    else if s then fpQNan
    else
      let odd := e % 2 = 1
      let n := (if odd then 2 * m else m) * 2 ^ 60
      let h := if odd then (e - 1) / 2 else e / 2
      let q := isqrt n
      let r := fpRoundSticky false q (h - 30) (decide (q * q ≠ n))
      match fpOf r with
      | .fin _ rm re => within1Or r (Config.approx 5 x 0) (cmpExp m e (rm * rm) (2 * re))
      | _ => r

/-- RSQRT: within 1 unit in the last place; of a negative value, the NaN of R160; of 0 the spec states no value. -/
def frsqrt (x : Word) : Word :=
  match fpOf x with
  | .nan => nanOf x 0 0
  | .inf s => if s then fpQNan else fpZero false
  | .fin s m e =>
    if m = 0 then Config.approx 4 x 0
    else if s then fpQNan
    else
      let odd := e % 2 = 1
      let m' := if odd then 2 * m else m
      let h := if odd then (e - 1) / 2 else e / 2
      let n := 2 ^ 120 / m'
      let q := isqrt n
      let r := fpRoundSticky false q (-60 - h) (decide (q * q * m' ≠ 2 ^ 120))
      match fpOf r with
      | .fin _ rm re => within1Or r (Config.approx 4 x 0) (cmpExp 1 0 (rm * rm * m) (2 * re + e))
      | _ => r

/-- π × 2^100, cut to a whole number. -/
def piFix : Nat := 3982441812995697363688351113952
/-- One power-series step after another: `acc` holds the sum, `t` the last term, `x2` the square, all × 2^100. -/
def seriesGo (x2 : Int) : Nat → Int → Int → Int → Int
  | 0, _, _, acc => acc
  | k + 1, i, t, acc =>
    let t' := -(t * x2) / 2 ^ 100 / (i * (i + 1))
    seriesGo x2 k (i + 2) t' (acc + t')
/-- Sine × 2^100 of `a` in units of 2^-32 of a revolution, `a` at most an eighth. -/
def sinFix (a : Nat) : Int :=
  let x : Int := (a * 2 * piFix / 2 ^ 32 : Nat)
  seriesGo (x * x / 2 ^ 100) 14 2 x x
/-- Cosine × 2^100 of `a`, `a` at most an eighth. -/
def cosFix (a : Nat) : Int :=
  let x : Int := (a * 2 * piFix / 2 ^ 32 : Nat)
  seriesGo (x * x / 2 ^ 100) 14 1 (2 ^ 100) (2 ^ 100)
/-- Cosine and sine × 2^100 of an angle, by eighths. -/
def cosSin (a : Nat) : Int × Int :=
  let a := a % 2 ^ 32
  let q := a / 2 ^ 30
  let r := a % 2 ^ 30
  let (c, s) := if r ≤ 2 ^ 29 then (cosFix r, sinFix r) else (sinFix (2 ^ 30 - r), cosFix (2 ^ 30 - r))
  match q with
  | 0 => (c, s)
  | 1 => (-s, c)
  | 2 => (-c, -s)
  | _ => (s, -c)

/-- The value of a word × 2^100, cut to a whole number, or none for a word that is no finite value. -/
def fpFix (w : Word) : Option Int :=
  match fpOf w with
  | .fin s m e => some (if s then -(shl m (e + 100) : Int) else shl m (e + 100))
  | _ => none

/-- A proposal within 2^-22 of a value given × 2^100, a subnormal one flushed; the last terms allow for what the sums cut off. -/
def sinOr (v : Int) (p : Word) : Word :=
  match fpFix p with
  | some x => if (x - v).natAbs ≤ 2 ^ 78 + 2 ^ 16 then fpFlush p else fpRound (decide (v < 0)) v.natAbs (-100)
  | none => fpRound (decide (v < 0)) v.natAbs (-100)
/-- SINCOS, the sine (R160). -/
def fsin (a : Word) : Word := sinOr (cosSin a.toNat).2 (Config.approx 0 a 0)
/-- SINCOS, the cosine (R160). -/
def fcos (a : Word) : Word := sinOr (cosSin a.toNat).1 (Config.approx 1 a 0)

/-- The direction of an angle is at or before the direction (x, y), both within half a turn: the cross product is not
negative, but for what the sums cut off. -/
def crossOk (a : Nat) (x y tol : Int) : Bool :=
  let (c, s) := cosSin a
  decide (-tol ≤ c * y - s * x)
/-- Find the last of the angles `lo + k` below `lo + 2^n` that is not past the direction (x, y). -/
def angleGo (x y : Int) : Nat → Nat → Nat
  | 0, lo => lo
  | n + 1, lo => angleGo x y n (if crossOk (lo + 2 ^ n) x y 0 then lo + 2 ^ n else lo)
/-- The angle of a direction that is not 0, cut to 32 bits. -/
def angleOf (x y : Int) : Nat :=
  let q := if 0 ≤ y then (if 0 < x then 0 else if x = 0 ∧ y = 0 then 0 else if y = 0 then 2 else 1)
           else (if x < 0 then 2 else 3)
  angleGo x y 30 (q * 2 ^ 30)

/-- ATAN2 of y and x: within 2^-20 revolution; 0 for (0, 0); no value is stated for a NaN or an infinity. -/
def fatan2 (y x : Word) : Word :=
  match fpOf x, fpOf y with
  | .fin sx mx ex, .fin sy my ey =>
    if mx = 0 ∧ my = 0 then 0
    else
      let e := min (if mx = 0 then ey else ex) (if my = 0 then ex else ey)
      let ax : Int := mx * 2 ^ (ex - e).toNat
      let ay : Int := my * 2 ^ (ey - e).toNat
      let vx := if sx then -ax else ax
      let vy := if sy then -ay else ay
      let tol := (ax + ay) * 2 ^ 16
      let p := Config.approx 2 y x
      let (c, s) := cosSin p.toNat
      let lo := (p.toNat + 2 ^ 32 - 4096) % 2 ^ 32
      let hi := (p.toNat + 4096) % 2 ^ 32
      let (ch, sh) := cosSin hi
      if crossOk lo vx vy tol && decide (-tol ≤ vx * sh - vy * ch) && decide (0 < c * vx + s * vy) then p
      else BitVec.ofNat 32 (angleOf vx vy)
  | _, _ => Config.approx 2 y x

end Sys2Proof.Machine
end

