-- ==== Sys2Proof/Machine/RegFields.lean ====
section
/-! DEFINITION. The registers of a lane: one name per field (the manual's BLOCK_NAME_FIELD), the table of every
register with its fields, access codes and ranges, and the values at start. Addresses follow R24 and each
register's own rule. -/

namespace Sys2Proof.Machine

/-- A field of a register: the register's address, lowest bit and width. -/
structure Fld where
  reg : Nat
  lo : Nat
  w : Nat
  deriving DecidableEq, Repr

/-- Where the register file keeps a field. -/
def Fld.key (f : Fld) : Nat := f.reg * 64 + f.lo

/-- The access codes of R7. -/
inductive Acc | rw | ro | w1c | w1s | wo | rwl
  deriving DecidableEq, Repr

/-- The values a field may take (R602). -/
inductive Range
  | any
  | span (lo hi : Nat)
  | zeroOr (lo hi : Nat)
  | fpZeroOr (lo hi : Nat)
  | oneOf (vs : List Nat)
  deriving DecidableEq, Repr

/-- A value lies in the range that the register's table states. -/
def Range.admits : Range → Nat → Bool
  | .any, _ => true
  | .span lo hi, v => decide (lo ≤ v) && decide (v ≤ hi)
  | .zeroOr lo hi, v => decide (v = 0) || (decide (lo ≤ v) && decide (v ≤ hi))
  | .fpZeroOr lo hi, v => decide (v = 0) || decide (v = 0x80000000) || (decide (lo ≤ v) && decide (v ≤ hi))
  | .oneOf vs, v => vs.contains v

/-- A field in its register's table. -/
structure FieldDef where
  lo : Nat
  w : Nat
  acc : Acc
  range : Range
  deriving DecidableEq, Repr

/-- A register or a family of registers at regular strides. -/
structure RegDef where
  base : Nat
  n1 : Nat
  s1 : Nat
  n2 : Nat
  s2 : Nat
  width : Nat
  fields : List FieldDef
  deriving DecidableEq, Repr

namespace Reg

/-- R29 SYS_ID.PART, ro -/
def SYS_ID_PART : Fld := ⟨0x20000000, 16, 16⟩
/-- R29 SYS_ID.STEPPING, ro -/
def SYS_ID_STEPPING : Fld := ⟨0x20000000, 8, 8⟩
/-- R29 SYS_ID.LANE, ro -/
def SYS_ID_LANE : Fld := ⟨0x20000000, 0, 2⟩
/-- R54 SYS_STATE.STATE, ro -/
def SYS_STATE_STATE : Fld := ⟨0x20000004, 0, 4⟩
/-- R54 SYS_STATE.CAUSE, ro -/
def SYS_STATE_CAUSE : Fld := ⟨0x20000004, 4, 4⟩
/-- R54 SYS_STATE.SOLRETRY, ro -/
def SYS_STATE_SOLRETRY : Fld := ⟨0x20000004, 8, 1⟩
/-- R54 SYS_STATE.ELECTED, ro -/
def SYS_STATE_ELECTED : Fld := ⟨0x20000004, 9, 1⟩
/-- R54 SYS_STATE.PEERS, ro -/
def SYS_STATE_PEERS : Fld := ⟨0x20000004, 16, 3⟩
/-- R55 SYS_RET_STATUS.SOURCE, ro -/
def SYS_RET_STATUS_SOURCE : Fld := ⟨0x20000008, 0, 2⟩
/-- R55 SYS_RET_STATUS.BUSY, ro -/
def SYS_RET_STATUS_BUSY : Fld := ⟨0x20000008, 2, 1⟩
/-- R55 SYS_RET_STATUS.OVERRUN, w1c -/
def SYS_RET_STATUS_OVERRUN : Fld := ⟨0x20000008, 3, 1⟩
/-- R55 SYS_RET_STATUS.CLAMPED, ro -/
def SYS_RET_STATUS_CLAMPED : Fld := ⟨0x20000008, 8, 8⟩
/-- R55 SYS_RET_STATUS.SCHEMA, ro -/
def SYS_RET_STATUS_SCHEMA : Fld := ⟨0x20000008, 16, 16⟩
/-- R56 SYS_RET_CTRL.COMMIT, wo -/
def SYS_RET_CTRL_COMMIT : Fld := ⟨0x2000000C, 0, 1⟩
/-- R57 SYS_FEAT_CTRL.LOCK, w1s -/
def SYS_FEAT_CTRL_LOCK : Fld := ⟨0x20000010, 0, 1⟩
/-- R57 SYS_FEAT_CTRL.REFUSED, w1c -/
def SYS_FEAT_CTRL_REFUSED : Fld := ⟨0x20000010, 1, 1⟩
/-- R57 SYS_FEAT_OFFER.VALUE, ro -/
def SYS_FEAT_OFFER (n : Nat) : Fld := ⟨0x20000020 + 0x4 * n, 0, 32⟩
/-- R57 SYS_FEAT_ACCEPT.VALUE, rwl -/
def SYS_FEAT_ACCEPT (n : Nat) : Fld := ⟨0x20000030 + 0x4 * n, 0, 32⟩
/-- R57 SYS_HOSTFEAT.VALUE, ro -/
def SYS_HOSTFEAT (h : Nat) (n : Nat) : Fld := ⟨0x20000040 + 0x10 * h + 0x4 * n, 0, 32⟩
/-- R58 SYS_ARM.ARM, wo -/
def SYS_ARM_ARM : Fld := ⟨0x20000080, 0, 1⟩
/-- R58 SYS_ARM.REFUSED, w1c -/
def SYS_ARM_REFUSED : Fld := ⟨0x20000080, 1, 1⟩
/-- R58 SYS_ARM.STEP, ro -/
def SYS_ARM_STEP : Fld := ⟨0x20000080, 8, 3⟩
/-- R84 SYS_IMG_STATUS.CHECK, ro -/
def SYS_IMG_STATUS_CHECK : Fld := ⟨0x20000090, 0, 3⟩
/-- R84 SYS_IMG_STATUS.ENTRY, ro -/
def SYS_IMG_STATUS_ENTRY : Fld := ⟨0x20000090, 4, 6⟩
/-- R84 SYS_IMG_STATUS.OFFSET, ro -/
def SYS_IMG_STATUS_OFFSET : Fld := ⟨0x20000090, 12, 20⟩
/-- R85 SYS_IMG_VERSION.VERSION, ro -/
def SYS_IMG_VERSION_VERSION : Fld := ⟨0x20000094, 0, 32⟩
/-- R86 SYS_IMG_INFO.FPT, ro -/
def SYS_IMG_INFO_FPT : Fld := ⟨0x20000098, 0, 8⟩
/-- R86 SYS_IMG_INFO.KEY_SLOT, ro -/
def SYS_IMG_INFO_KEY_SLOT : Fld := ⟨0x20000098, 8, 2⟩
/-- R86 SYS_IMG_INFO.SECTIONS, ro -/
def SYS_IMG_INFO_SECTIONS : Fld := ⟨0x20000098, 16, 8⟩
/-- R87 SYS_IMG_DIGEST.VALUE, ro -/
def SYS_IMG_DIGEST (n : Nat) : Fld := ⟨0x200000A0 + 0x4 * n, 0, 32⟩
/-- R87 SYS_IMG_FEATREQ.VALUE, ro -/
def SYS_IMG_FEATREQ (n : Nat) : Fld := ⟨0x200000C0 + 0x4 * n, 0, 32⟩
/-- R117 ROLE_FUNC.ROLE, ro -/
def ROLE_FUNC_ROLE (f : Nat) : Fld := ⟨0x20010000 + 0x4 * f, 0, 3⟩
/-- R117 ROLE_FUNC.MODE, ro -/
def ROLE_FUNC_MODE (f : Nat) : Fld := ⟨0x20010000 + 0x4 * f, 4, 2⟩
/-- R117 ROLE_FUNC.ACT, ro -/
def ROLE_FUNC_ACT (f : Nat) : Fld := ⟨0x20010000 + 0x4 * f, 8, 2⟩
/-- R117 ROLE_FUNC.STB, ro -/
def ROLE_FUNC_STB (f : Nat) : Fld := ⟨0x20010000 + 0x4 * f, 10, 2⟩
/-- R117 ROLE_FUNC.ARB, ro -/
def ROLE_FUNC_ARB (f : Nat) : Fld := ⟨0x20010000 + 0x4 * f, 12, 2⟩
/-- R117 ROLE_FUNC.ROT, ro -/
def ROLE_FUNC_ROT (f : Nat) : Fld := ⟨0x20010000 + 0x4 * f, 14, 2⟩
/-- R117 ROLE_FUNC.CAUSE, ro -/
def ROLE_FUNC_CAUSE (f : Nat) : Fld := ⟨0x20010000 + 0x4 * f, 16, 4⟩
/-- R117 ROLE_FUNC.SERVING, ro -/
def ROLE_FUNC_SERVING (f : Nat) : Fld := ⟨0x20010000 + 0x4 * f, 20, 3⟩
/-- R117 ROLE_FUNC.BARRED, ro -/
def ROLE_FUNC_BARRED (f : Nat) : Fld := ⟨0x20010000 + 0x4 * f, 23, 1⟩
/-- R125 ROLE_AUTUMN.VALUE, ro -/
def ROLE_AUTUMN (f : Nat) : Fld := ⟨0x20010020 + 0x4 * f, 0, 32⟩
/-- R118 ROLE_ACCUSE.CODE, rw -/
def ROLE_ACCUSE_CODE : Fld := ⟨0x20010040, 0, 10⟩
/-- R118 ROLE_ACCUSE.ROTATE, rw -/
def ROLE_ACCUSE_ROTATE : Fld := ⟨0x20010040, 10, 5⟩
/-- R119 ROLE_VOTE_IN.CODE, ro -/
def ROLE_VOTE_IN_CODE (l : Nat) : Fld := ⟨0x20010050 + 0x4 * l, 0, 10⟩
/-- R119 ROLE_VOTE_IN.ROTATE, ro -/
def ROLE_VOTE_IN_ROTATE (l : Nat) : Fld := ⟨0x20010050 + 0x4 * l, 10, 5⟩
/-- R119 ROLE_VOTE_IN.VALID, ro -/
def ROLE_VOTE_IN_VALID (l : Nat) : Fld := ⟨0x20010050 + 0x4 * l, 16, 1⟩
/-- R119 ROLE_VOTE_IN.SPLIT, w1c -/
def ROLE_VOTE_IN_SPLIT (l : Nat) : Fld := ⟨0x20010050 + 0x4 * l, 17, 1⟩
/-- R119 ROLE_VOTE_IN.CRC, w1c -/
def ROLE_VOTE_IN_CRC (l : Nat) : Fld := ⟨0x20010050 + 0x4 * l, 18, 1⟩
/-- R120 ROLE_REFWD.PERIOD, rwl -/
def ROLE_REFWD_PERIOD (f : Nat) : Fld := ⟨0x20010060 + 0x4 * f, 0, 10⟩
/-- R120 ROLE_REFWD.MISS, rwl -/
def ROLE_REFWD_MISS (f : Nat) : Fld := ⟨0x20010060 + 0x4 * f, 12, 2⟩
/-- R120 ROLE_REFWD.FIRED, w1c -/
def ROLE_REFWD_FIRED (f : Nat) : Fld := ⟨0x20010060 + 0x4 * f, 16, 1⟩
/-- R121 ROLE_EQX.DEFERRED, ro -/
def ROLE_EQX_DEFERRED : Fld := ⟨0x20010080, 0, 8⟩
/-- R121 ROLE_EQX.DONE, w1c -/
def ROLE_EQX_DONE : Fld := ⟨0x20010080, 8, 5⟩
/-- R125 ROLE_EQX_LEFT.VALUE, ro -/
def ROLE_EQX_LEFT : Fld := ⟨0x20010084, 0, 32⟩
/-- R122 ROLE_OVL.DROPPED, ro -/
def ROLE_OVL_DROPPED : Fld := ⟨0x20010088, 0, 16⟩
/-- R122 ROLE_OVL.LONGEST, ro -/
def ROLE_OVL_LONGEST : Fld := ⟨0x20010088, 16, 16⟩
/-- R123 ROLE_CLR.AUTUMN_REC, wo -/
def ROLE_CLR_AUTUMN_REC : Fld := ⟨0x2001008C, 0, 5⟩
/-- R124 ROLE_CTRL.LOCK, w1s -/
def ROLE_CTRL_LOCK : Fld := ⟨0x20010090, 0, 1⟩
/-- R125 ROLE_SEQ.VALUE, ro -/
def ROLE_SEQ (f : Nat) : Fld := ⟨0x20010100 + 0x4 * f, 0, 32⟩
/-- R149 CM_STATUS.PAIRED, ro -/
def CM_STATUS_PAIRED : Fld := ⟨0x20020000, 0, 2⟩
/-- R149 CM_STATUS.DEBUG, ro -/
def CM_STATUS_DEBUG : Fld := ⟨0x20020000, 2, 2⟩
/-- R149 CM_STATUS.SINGLE, ro -/
def CM_STATUS_SINGLE : Fld := ⟨0x20020000, 4, 2⟩
/-- R149 CM_STATUS.HALTED, ro -/
def CM_STATUS_HALTED : Fld := ⟨0x20020000, 6, 2⟩
/-- R149 CM_STATUS.SELFTEST, ro -/
def CM_STATUS_SELFTEST : Fld := ⟨0x20020000, 8, 2⟩
/-- R149 CM_STATUS.SURVIVOR, ro -/
def CM_STATUS_SURVIVOR : Fld := ⟨0x20020000, 10, 2⟩
/-- R149 CM_STATUS.RETRY_0, ro -/
def CM_STATUS_RETRY_0 : Fld := ⟨0x20020000, 12, 3⟩
/-- R149 CM_STATUS.RETRY_1, ro -/
def CM_STATUS_RETRY_1 : Fld := ⟨0x20020000, 16, 3⟩
/-- R149 CM_STATUS.BARRED, ro -/
def CM_STATUS_BARRED : Fld := ⟨0x20020000, 20, 1⟩
/-- R149 CM_STATUS.DISCARD_0, ro -/
def CM_STATUS_DISCARD_0 : Fld := ⟨0x20020000, 24, 4⟩
/-- R149 CM_STATUS.DISCARD_1, ro -/
def CM_STATUS_DISCARD_1 : Fld := ⟨0x20020000, 28, 4⟩
/-- R150 CM_CTRL.LAG, rwl -/
def CM_CTRL_LAG : Fld := ⟨0x20020004, 0, 14⟩
/-- R150 CM_CTRL.RETRY_MAX, rwl -/
def CM_CTRL_RETRY_MAX : Fld := ⟨0x20020004, 16, 3⟩
/-- R150 CM_CTRL.LOCK, w1s -/
def CM_CTRL_LOCK : Fld := ⟨0x20020004, 31, 1⟩
/-- R151 CM_CKPT.TAG, wo -/
def CM_CKPT_TAG : Fld := ⟨0x20020010, 0, 32⟩
/-- R153 CM_NUM.VALUE, ro -/
def CM_NUM (p : Nat) : Fld := ⟨0x20020020 + 0x8 * p, 0, 32⟩
/-- R153 CM_SIG.VALUE, ro -/
def CM_SIG (c : Nat) : Fld := ⟨0x20020040 + 0x8 * c, 0, 64⟩
/-- R152 CM_MISMATCH.PAIR, ro -/
def CM_MISMATCH_PAIR : Fld := ⟨0x20020080, 0, 1⟩
/-- R152 CM_MISMATCH.KIND, ro -/
def CM_MISMATCH_KIND : Fld := ⟨0x20020080, 1, 2⟩
/-- R152 CM_MISMATCH.EVEN_FAIL, ro -/
def CM_MISMATCH_EVEN_FAIL : Fld := ⟨0x20020080, 4, 1⟩
/-- R152 CM_MISMATCH.ODD_FAIL, ro -/
def CM_MISMATCH_ODD_FAIL : Fld := ⟨0x20020080, 5, 1⟩
/-- R152 CM_MISMATCH.OUTCOME, ro -/
def CM_MISMATCH_OUTCOME : Fld := ⟨0x20020080, 6, 2⟩
/-- R152 CM_MISMATCH.COUNT, ro -/
def CM_MISMATCH_COUNT : Fld := ⟨0x20020080, 8, 8⟩
/-- R152 CM_MISMATCH.NEW, w1c -/
def CM_MISMATCH_NEW : Fld := ⟨0x20020080, 16, 1⟩
/-- R153 CM_MISMATCH_NUM.VALUE, ro -/
def CM_MISMATCH_NUM : Fld := ⟨0x20020084, 0, 32⟩
/-- R153 CM_ENTRY.VALUE, rwl -/
def CM_ENTRY (p : Nat) : Fld := ⟨0x200200A0 + 0x8 * p, 0, 64⟩
/-- R153 CM_OBUF_HIGH.OCC_0, w1c -/
def CM_OBUF_HIGH_OCC_0 : Fld := ⟨0x200200C0, 0, 8⟩
/-- R153 CM_OBUF_HIGH.OCC_1, w1c -/
def CM_OBUF_HIGH_OCC_1 : Fld := ⟨0x200200C0, 8, 8⟩
/-- R153 CM_OBUF_HIGH.IMP_0, w1c -/
def CM_OBUF_HIGH_IMP_0 : Fld := ⟨0x200200C0, 16, 8⟩
/-- R153 CM_OBUF_HIGH.IMP_1, w1c -/
def CM_OBUF_HIGH_IMP_1 : Fld := ⟨0x200200C0, 24, 8⟩
/-- R364 FC_STICKY.S, w1c -/
def FC_STICKY_S (n : Nat) : Fld := ⟨0x20030000 + 0x4 * n, 0, 32⟩
/-- R364 FC_PEND.VALUE, ro -/
def FC_PEND : Fld := ⟨0x20030080, 0, 32⟩
/-- R360 FC_STATUS.SUMMARY, ro -/
def FC_STATUS_SUMMARY : Fld := ⟨0x20030084, 0, 16⟩
/-- R360 FC_STATUS.MODE, ro -/
def FC_STATUS_MODE : Fld := ⟨0x20030084, 16, 1⟩
/-- R360 FC_STATUS.FATAL, ro -/
def FC_STATUS_FATAL : Fld := ⟨0x20030084, 17, 1⟩
/-- R360 FC_STATUS.INJ, ro -/
def FC_STATUS_INJ : Fld := ⟨0x20030084, 18, 1⟩
/-- R364 FC_REACT.VALUE, ro -/
def FC_REACT (s : Nat) : Fld := ⟨0x200300A0 + 0x4 * s, 0, 32⟩
/-- R362 FC_NB.SUMMARY, ro -/
def FC_NB_SUMMARY (l : Nat) : Fld := ⟨0x200300C0 + 0x4 * l, 0, 16⟩
/-- R362 FC_NB.VALID, ro -/
def FC_NB_VALID (l : Nat) : Fld := ⟨0x200300C0 + 0x4 * l, 16, 1⟩
/-- R363 FC_SEV.SEV, ro -/
def FC_SEV_SEV (k : Nat) : Fld := ⟨0x20030100 + 0x4 * k, 0, 32⟩
/-- R361 FC_INJ.SRC, rw -/
def FC_INJ_SRC : Fld := ⟨0x20030300, 0, 10⟩
/-- R361 FC_INJ.GO, wo -/
def FC_INJ_GO : Fld := ⟨0x20030300, 16, 1⟩
/-- R361 FC_INJ.PARITY, wo -/
def FC_INJ_PARITY : Fld := ⟨0x20030300, 17, 1⟩
/-- R361 FC_INJ.REFUSED, w1c -/
def FC_INJ_REFUSED : Fld := ⟨0x20030300, 18, 1⟩
/-- R474 PD_STATE.STATE_0, ro -/
def PD_STATE_STATE_0 : Fld := ⟨0x20040000, 0, 4⟩
/-- R474 PD_STATE.STATE_1, ro -/
def PD_STATE_STATE_1 : Fld := ⟨0x20040000, 4, 4⟩
/-- R474 PD_STATE.STATE_2, ro -/
def PD_STATE_STATE_2 : Fld := ⟨0x20040000, 8, 4⟩
/-- R474 PD_STATE.STATE_3, ro -/
def PD_STATE_STATE_3 : Fld := ⟨0x20040000, 12, 4⟩
/-- R474 PD_STATE.STATE_4, ro -/
def PD_STATE_STATE_4 : Fld := ⟨0x20040000, 16, 4⟩
/-- R474 PD_STATE.STATE_5, ro -/
def PD_STATE_STATE_5 : Fld := ⟨0x20040000, 20, 4⟩
/-- R474 PD_STATE.STATE_6, ro -/
def PD_STATE_STATE_6 : Fld := ⟨0x20040000, 24, 4⟩
/-- R474 PD_STATE.STATE_7, ro -/
def PD_STATE_STATE_7 : Fld := ⟨0x20040000, 28, 4⟩
/-- R475 PD_REQ.DOM, rw -/
def PD_REQ_DOM : Fld := ⟨0x20040004, 0, 3⟩
/-- R475 PD_REQ.TARGET, rw -/
def PD_REQ_TARGET : Fld := ⟨0x20040004, 4, 2⟩
/-- R475 PD_REQ.ORIGIN, rw -/
def PD_REQ_ORIGIN : Fld := ⟨0x20040004, 8, 3⟩
/-- R475 PD_REQ.GO, wo -/
def PD_REQ_GO : Fld := ⟨0x20040004, 16, 1⟩
/-- R475 PD_REQ.BUSY, ro -/
def PD_REQ_BUSY : Fld := ⟨0x20040004, 17, 1⟩
/-- R475 PD_REQ.DONE, w1c -/
def PD_REQ_DONE : Fld := ⟨0x20040004, 18, 1⟩
/-- R475 PD_REQ.RESULT, ro -/
def PD_REQ_RESULT : Fld := ⟨0x20040004, 19, 2⟩
/-- R475 PD_REQ.WHO, ro -/
def PD_REQ_WHO : Fld := ⟨0x20040004, 21, 5⟩
/-- R475 PD_REQ.HOW, ro -/
def PD_REQ_HOW : Fld := ⟨0x20040004, 26, 3⟩
/-- R476 PD_POLICY.ALLOW, ro -/
def PD_POLICY_ALLOW (d : Nat) : Fld := ⟨0x20040010 + 0x4 * d, 0, 2⟩
/-- R476 PD_POLICY.HOST_MASK, ro -/
def PD_POLICY_HOST_MASK (d : Nat) : Fld := ⟨0x20040010 + 0x4 * d, 4, 4⟩
/-- R477 PD_ACCT.COUNT, ro -/
def PD_ACCT_COUNT (d : Nat) : Fld := ⟨0x20040040 + 0x4 * d, 0, 16⟩
/-- R477 PD_ACCT.WHO, ro -/
def PD_ACCT_WHO (d : Nat) : Fld := ⟨0x20040040 + 0x4 * d, 16, 5⟩
/-- R477 PD_ACCT.HOW, ro -/
def PD_ACCT_HOW (d : Nat) : Fld := ⟨0x20040040 + 0x4 * d, 21, 3⟩
/-- R477 PD_ACCT.MODE, ro -/
def PD_ACCT_MODE (d : Nat) : Fld := ⟨0x20040040 + 0x4 * d, 31, 1⟩
/-- R478 PD_STALL.LONGEST, ro -/
def PD_STALL_LONGEST (d : Nat) : Fld := ⟨0x20040080 + 0x4 * d, 0, 16⟩
/-- R478 PD_STALL.WAKES, ro -/
def PD_STALL_WAKES (d : Nat) : Fld := ⟨0x20040080 + 0x4 * d, 16, 16⟩
/-- R478 PD_CTRL.ACCTCLR, wo -/
def PD_CTRL_ACCTCLR : Fld := ⟨0x200400C0, 0, 1⟩
/-- R478 PD_CTRL.IE, rw -/
def PD_CTRL_IE : Fld := ⟨0x200400C0, 1, 1⟩
/-- R479 CK_STAT.PLLOK, ro -/
def CK_STAT_PLLOK : Fld := ⟨0x20050000, 0, 3⟩
/-- R479 CK_STAT.RCOK, ro -/
def CK_STAT_RCOK : Fld := ⟨0x20050000, 3, 1⟩
/-- R479 CK_STAT.NBCLK, ro -/
def CK_STAT_NBCLK : Fld := ⟨0x20050000, 4, 2⟩
/-- R480 CK_FM_CTRL.REF, rw -/
def CK_FM_CTRL_REF : Fld := ⟨0x20050010, 0, 4⟩
/-- R480 CK_FM_CTRL.MEAS, rw -/
def CK_FM_CTRL_MEAS : Fld := ⟨0x20050010, 8, 4⟩
/-- R480 CK_FM_CTRL.CONT, rw -/
def CK_FM_CTRL_CONT : Fld := ⟨0x20050010, 16, 1⟩
/-- R480 CK_FM_CTRL.START, wo -/
def CK_FM_CTRL_START : Fld := ⟨0x20050010, 17, 1⟩
/-- R480 CK_FM_CTRL.BUSY, ro -/
def CK_FM_CTRL_BUSY : Fld := ⟨0x20050010, 18, 1⟩
/-- R480 CK_FM_CTRL.DONE, w1c -/
def CK_FM_CTRL_DONE : Fld := ⟨0x20050010, 19, 1⟩
/-- R480 CK_FM_CTRL.OUTR, w1c -/
def CK_FM_CTRL_OUTR : Fld := ⟨0x20050010, 20, 1⟩
/-- R480 CK_FM_CTRL.IE, rw -/
def CK_FM_CTRL_IE : Fld := ⟨0x20050010, 21, 1⟩
/-- R481 CK_FM_WIN.N, rw -/
def CK_FM_WIN_N : Fld := ⟨0x20050014, 0, 24⟩
/-- R481 CK_FM_CNT.VALUE, ro -/
def CK_FM_CNT : Fld := ⟨0x20050018, 0, 32⟩
/-- R481 CK_FM_LO.VALUE, rw -/
def CK_FM_LO : Fld := ⟨0x2005001C, 0, 32⟩
/-- R481 CK_FM_HI.VALUE, rw -/
def CK_FM_HI : Fld := ⟨0x20050020, 0, 32⟩
/-- R424 TS_NOW.VALUE, ro -/
def TS_NOW : Fld := ⟨0x20060000, 0, 64⟩
/-- R424 TS_NOW_FRAC.VALUE, ro -/
def TS_NOW_FRAC : Fld := ⟨0x20060008, 0, 16⟩
/-- R420 TS_STAT.AGREE_PREV, ro -/
def TS_STAT_AGREE_PREV : Fld := ⟨0x20060010, 0, 1⟩
/-- R420 TS_STAT.AGREE_NEXT, ro -/
def TS_STAT_AGREE_NEXT : Fld := ⟨0x20060010, 1, 1⟩
/-- R420 TS_STAT.LEADER, ro -/
def TS_STAT_LEADER : Fld := ⟨0x20060010, 2, 1⟩
/-- R420 TS_STAT.ACQ, ro -/
def TS_STAT_ACQ : Fld := ⟨0x20060010, 3, 1⟩
/-- R420 TS_STAT.DISC, ro -/
def TS_STAT_DISC : Fld := ⟨0x20060010, 4, 3⟩
/-- R424 TS_NBOFS.VALUE, ro -/
def TS_NBOFS (l : Nat) : Fld := ⟨0x20060020 + 0x4 * l, 0, 32⟩
/-- R424 TS_RATE.VALUE, ro -/
def TS_RATE : Fld := ⟨0x20060030, 0, 32⟩
/-- R421 TS_JUMP.PEND, ro -/
def TS_JUMP_PEND : Fld := ⟨0x20060040, 0, 1⟩
/-- R421 TS_JUMP.ACCEPT, wo -/
def TS_JUMP_ACCEPT : Fld := ⟨0x20060040, 1, 1⟩
/-- R421 TS_JUMP.REJECT, wo -/
def TS_JUMP_REJECT : Fld := ⟨0x20060040, 2, 1⟩
/-- R421 TS_JUMP.RESUME, wo -/
def TS_JUMP_RESUME : Fld := ⟨0x20060040, 3, 1⟩
/-- R421 TS_JUMP.WITHDRAWN, w1c -/
def TS_JUMP_WITHDRAWN : Fld := ⟨0x20060040, 4, 1⟩
/-- R421 TS_JUMP.NOPEND, w1c -/
def TS_JUMP_NOPEND : Fld := ⟨0x20060040, 5, 1⟩
/-- R424 TS_JUMP_OFS.VALUE, ro -/
def TS_JUMP_OFS : Fld := ⟨0x20060048, 0, 64⟩
/-- R424 TS_JTHR.VALUE, rw -/
def TS_JTHR : Fld := ⟨0x20060050, 0, 32⟩
/-- R424 TS_STEP.VALUE, ro -/
def TS_STEP : Fld := ⟨0x20060058, 0, 64⟩
/-- R424 TS_STEP_AT.VALUE, ro -/
def TS_STEP_AT : Fld := ⟨0x20060060, 0, 64⟩
/-- R424 TS_STEPCNT.VALUE, ro -/
def TS_STEPCNT : Fld := ⟨0x20060068, 0, 32⟩
/-- R422 TP_CFG.MODE, rw -/
def TP_CFG_MODE (n : Nat) : Fld := ⟨0x20060100 + 0x20 * n, 0, 2⟩
/-- R422 TP_CFG.POL, rw -/
def TP_CFG_POL (n : Nat) : Fld := ⟨0x20060100 + 0x20 * n, 2, 1⟩
/-- R422 TP_CFG.IE, rw -/
def TP_CFG_IE (n : Nat) : Fld := ⟨0x20060100 + 0x20 * n, 3, 1⟩
/-- R422 TP_CFG.WIDTH, rw -/
def TP_CFG_WIDTH (n : Nat) : Fld := ⟨0x20060100 + 0x20 * n, 4, 28⟩
/-- R424 TP_START.VALUE, rw -/
def TP_START (n : Nat) : Fld := ⟨0x20060108 + 0x20 * n, 0, 64⟩
/-- R424 TP_PERIOD.VALUE, rw -/
def TP_PERIOD (n : Nat) : Fld := ⟨0x20060110 + 0x20 * n, 0, 32⟩
/-- R422 TP_STAT.LATE, w1c -/
def TP_STAT_LATE (n : Nat) : Fld := ⟨0x20060114 + 0x20 * n, 0, 1⟩
/-- R422 TP_STAT.JUMPED, w1c -/
def TP_STAT_JUMPED (n : Nat) : Fld := ⟨0x20060114 + 0x20 * n, 1, 1⟩
/-- R422 TP_STAT.SKIP, ro -/
def TP_STAT_SKIP (n : Nat) : Fld := ⟨0x20060114 + 0x20 * n, 16, 16⟩
/-- R391 SZ_CTRL.EN_X, rw -/
def SZ_CTRL_EN_X : Fld := ⟨0x20070000, 0, 1⟩
/-- R391 SZ_CTRL.EN_Y, rw -/
def SZ_CTRL_EN_Y : Fld := ⟨0x20070000, 1, 1⟩
/-- R391 SZ_CTRL.IE_CYC_X, rw -/
def SZ_CTRL_IE_CYC_X : Fld := ⟨0x20070000, 2, 1⟩
/-- R391 SZ_CTRL.IE_CYC_Y, rw -/
def SZ_CTRL_IE_CYC_Y : Fld := ⟨0x20070000, 3, 1⟩
/-- R392 SZ_STAT.STATE, ro -/
def SZ_STAT_STATE (c : Nat) : Fld := ⟨0x20070010 + 0x4 * c, 0, 3⟩
/-- R392 SZ_STAT.INIT, ro -/
def SZ_STAT_INIT (c : Nat) : Fld := ⟨0x20070010 + 0x4 * c, 3, 1⟩
/-- R392 SZ_STAT.MODE, ro -/
def SZ_STAT_MODE (c : Nat) : Fld := ⟨0x20070010 + 0x4 * c, 4, 3⟩
/-- R392 SZ_STAT.SWPEND, ro -/
def SZ_STAT_SWPEND (c : Nat) : Fld := ⟨0x20070010 + 0x4 * c, 7, 1⟩
/-- R392 SZ_STAT.NMODE, ro -/
def SZ_STAT_NMODE (c : Nat) : Fld := ⟨0x20070010 + 0x4 * c, 8, 3⟩
/-- R392 SZ_STAT.CYC, ro -/
def SZ_STAT_CYC (c : Nat) : Fld := ⟨0x20070010 + 0x4 * c, 12, 6⟩
/-- R392 SZ_STAT.MRANK, ro -/
def SZ_STAT_MRANK (c : Nat) : Fld := ⟨0x20070010 + 0x4 * c, 18, 3⟩
/-- R392 SZ_STAT.MVALID, ro -/
def SZ_STAT_MVALID (c : Nat) : Fld := ⟨0x20070010 + 0x4 * c, 21, 1⟩
/-- R392 SZ_STAT.ALONE, ro -/
def SZ_STAT_ALONE (c : Nat) : Fld := ⟨0x20070010 + 0x4 * c, 22, 1⟩
/-- R392 SZ_STAT.ZLOSS, ro -/
def SZ_STAT_ZLOSS (c : Nat) : Fld := ⟨0x20070010 + 0x4 * c, 23, 1⟩
/-- R392 SZ_STAT.SILENT, ro -/
def SZ_STAT_SILENT (c : Nat) : Fld := ⟨0x20070010 + 0x4 * c, 24, 4⟩
/-- R393 SZ_EVENT.REFMISS, w1c -/
def SZ_EVENT_REFMISS (c : Nat) : Fld := ⟨0x20070018 + 0x4 * c, 0, 1⟩
/-- R393 SZ_EVENT.CYCJUMP, w1c -/
def SZ_EVENT_CYCJUMP (c : Nat) : Fld := ⟨0x20070018 + 0x4 * c, 1, 1⟩
/-- R393 SZ_EVENT.MODEERR, w1c -/
def SZ_EVENT_MODEERR (c : Nat) : Fld := ⟨0x20070018 + 0x4 * c, 2, 1⟩
/-- R393 SZ_EVENT.ARBLOST, w1c -/
def SZ_EVENT_ARBLOST (c : Nat) : Fld := ⟨0x20070018 + 0x4 * c, 3, 1⟩
/-- R393 SZ_EVENT.BUSOFF, w1c -/
def SZ_EVENT_BUSOFF (c : Nat) : Fld := ⟨0x20070018 + 0x4 * c, 4, 1⟩
/-- R393 SZ_EVENT.TOLERR, w1c -/
def SZ_EVENT_TOLERR (c : Nat) : Fld := ⟨0x20070018 + 0x4 * c, 5, 1⟩
/-- R393 SZ_EVENT.SWITCHED, w1c -/
def SZ_EVENT_SWITCHED (c : Nat) : Fld := ⟨0x20070018 + 0x4 * c, 6, 1⟩
/-- R393 SZ_EVENT.MASTERCHG, w1c -/
def SZ_EVENT_MASTERCHG (c : Nat) : Fld := ⟨0x20070018 + 0x4 * c, 7, 1⟩
/-- R394 SZ_MODE_REQ.REQ_X, rw -/
def SZ_MODE_REQ_REQ_X : Fld := ⟨0x20070020, 0, 3⟩
/-- R394 SZ_MODE_REQ.REQ_Y, rw -/
def SZ_MODE_REQ_REQ_Y : Fld := ⟨0x20070020, 4, 3⟩
/-- R395 SZ_INFO.ARB_RATE, ro -/
def SZ_INFO_ARB_RATE : Fld := ⟨0x20070024, 0, 1⟩
/-- R395 SZ_INFO.DATA_RATE, ro -/
def SZ_INFO_DATA_RATE : Fld := ⟨0x20070024, 1, 2⟩
/-- R395 SZ_INFO.RANK, ro -/
def SZ_INFO_RANK : Fld := ⟨0x20070024, 3, 8⟩
/-- R395 SZ_INFO.MODES, ro -/
def SZ_INFO_MODES : Fld := ⟨0x20070024, 11, 4⟩
/-- R398 SZ_RXOK.VALUE, ro -/
def SZ_RXOK (c : Nat) : Fld := ⟨0x20070100 + 0x40 * c, 0, 32⟩
/-- R398 SZ_TXOK.VALUE, ro -/
def SZ_TXOK (c : Nat) : Fld := ⟨0x20070104 + 0x40 * c, 0, 32⟩
/-- R398 SZ_EMPTY.VALUE, ro -/
def SZ_EMPTY (c : Nat) : Fld := ⟨0x20070108 + 0x40 * c, 0, 32⟩
/-- R398 SZ_WRONG.VALUE, ro -/
def SZ_WRONG (c : Nat) : Fld := ⟨0x2007010C + 0x40 * c, 0, 32⟩
/-- R398 SZ_TXSKIP.VALUE, ro -/
def SZ_TXSKIP (c : Nat) : Fld := ⟨0x20070110 + 0x40 * c, 0, 32⟩
/-- R398 SZ_TXLATE.VALUE, ro -/
def SZ_TXLATE (c : Nat) : Fld := ⟨0x20070114 + 0x40 * c, 0, 32⟩
/-- R398 SZ_REFMISS.VALUE, ro -/
def SZ_REFMISS (c : Nat) : Fld := ⟨0x20070118 + 0x40 * c, 0, 32⟩
/-- R398 SZ_ERRF.VALUE, ro -/
def SZ_ERRF (c : Nat) : Fld := ⟨0x2007011C + 0x40 * c, 0, 32⟩
/-- R398 SZ_MCNT.VALUE, ro -/
def SZ_MCNT (c : Nat) : Fld := ⟨0x20070120 + 0x40 * c, 0, 16⟩
/-- R398 SZ_ERRC.TEC, ro -/
def SZ_ERRC_TEC (c : Nat) : Fld := ⟨0x20070124 + 0x40 * c, 0, 8⟩
/-- R398 SZ_ERRC.REC, ro -/
def SZ_ERRC_REC (c : Nat) : Fld := ⟨0x20070124 + 0x40 * c, 8, 8⟩
/-- R398 SZ_ERRC.EP, ro -/
def SZ_ERRC_EP (c : Nat) : Fld := ⟨0x20070124 + 0x40 * c, 16, 1⟩
/-- R398 SZ_REFT.VALUE, ro -/
def SZ_REFT (c : Nat) : Fld := ⟨0x20070128 + 0x40 * c, 0, 64⟩
/-- R396 SZ_ENT_IDX.IDX, rw -/
def SZ_ENT_IDX_IDX : Fld := ⟨0x20070200, 0, 12⟩
/-- R396 SZ_ENT.VALUE, ro -/
def SZ_ENT (k : Nat) : Fld := ⟨0x20070210 + 0x4 * k, 0, 32⟩
/-- R398 SZ_BUF.VALUE, rw -/
def SZ_BUF (c : Nat) (b : Nat) (k : Nat) : Fld := ⟨0x20071000 + 0x1000 * c + 0x40 * b + 0x4 * k, 0, 32⟩
/-- R397 SZ_BST.SEQ, ro -/
def SZ_BST_SEQ (c : Nat) (b : Nat) : Fld := ⟨0x20073000 + 0x100 * c + 0x4 * b, 0, 16⟩
/-- R397 SZ_BST.READY, w1s -/
def SZ_BST_READY (c : Nat) (b : Nat) : Fld := ⟨0x20073000 + 0x100 * c + 0x4 * b, 16, 1⟩
/-- R397 SZ_BST.NEW, w1c -/
def SZ_BST_NEW (c : Nat) (b : Nat) : Fld := ⟨0x20073000 + 0x100 * c + 0x4 * b, 17, 1⟩
/-- R397 SZ_BST.MISSED, ro -/
def SZ_BST_MISSED (c : Nat) (b : Nat) : Fld := ⟨0x20073000 + 0x100 * c + 0x4 * b, 18, 1⟩
/-- R397 SZ_BST.DIR, ro -/
def SZ_BST_DIR (c : Nat) (b : Nat) : Fld := ⟨0x20073000 + 0x100 * c + 0x4 * b, 19, 1⟩
/-- R397 SZ_BST.IE, rw -/
def SZ_BST_IE (c : Nat) (b : Nat) : Fld := ⟨0x20073000 + 0x100 * c + 0x4 * b, 20, 1⟩
/-- R397 SZ_BST.USED, ro -/
def SZ_BST_USED (c : Nat) (b : Nat) : Fld := ⟨0x20073000 + 0x100 * c + 0x4 * b, 21, 1⟩
/-- R397 SZ_BST.CYC, ro -/
def SZ_BST_CYC (c : Nat) (b : Nat) : Fld := ⟨0x20073000 + 0x100 * c + 0x4 * b, 22, 6⟩
/-- R423 EN_PTP_CFG.LOGPDELAY, rw -/
def EN_PTP_CFG_LOGPDELAY : Fld := ⟨0x20080800, 0, 4⟩
/-- R423 EN_PTP_CFG.THRESH, rw -/
def EN_PTP_CFG_THRESH : Fld := ⟨0x20080800, 16, 16⟩
/-- R423 EN_PTP_STAT.ASCAP, ro -/
def EN_PTP_STAT_ASCAP : Fld := ⟨0x20080804, 0, 1⟩
/-- R423 EN_PTP_STAT.SLAVE, ro -/
def EN_PTP_STAT_SLAVE : Fld := ⟨0x20080804, 1, 1⟩
/-- R423 EN_PTP_STAT.LOCKED, ro -/
def EN_PTP_STAT_LOCKED : Fld := ⟨0x20080804, 2, 1⟩
/-- R423 EN_PTP_STAT.LOGSYNC, ro -/
def EN_PTP_STAT_LOGSYNC : Fld := ⟨0x20080804, 8, 4⟩
/-- R424 EN_GMID.VALUE, ro -/
def EN_GMID : Fld := ⟨0x20080808, 0, 64⟩
/-- R424 EN_OFS.VALUE, ro -/
def EN_OFS : Fld := ⟨0x20080810, 0, 32⟩
/-- R424 EN_MLD.VALUE, ro -/
def EN_MLD : Fld := ⟨0x20080814, 0, 32⟩
/-- R424 EN_RXCORR.VALUE, rw -/
def EN_RXCORR : Fld := ⟨0x20080818, 0, 32⟩
/-- R424 EN_TXCORR.VALUE, rw -/
def EN_TXCORR : Fld := ⟨0x2008081C, 0, 32⟩
/-- R451 EN_MAC.VALUE, ro -/
def EN_MAC : Fld := ⟨0x200808F0, 0, 48⟩
/-- R452 IB_STAT.ADDR, ro -/
def IB_STAT_ADDR : Fld := ⟨0x20090000, 0, 8⟩
/-- R452 IB_STAT.CLAIMED, ro -/
def IB_STAT_CLAIMED : Fld := ⟨0x20090000, 8, 1⟩
/-- R452 IB_STAT.ERRPASS, ro -/
def IB_STAT_ERRPASS : Fld := ⟨0x20090000, 9, 1⟩
/-- R452 IB_STAT.BUSOFF, w1c -/
def IB_STAT_BUSOFF : Fld := ⟨0x20090000, 10, 1⟩
/-- R452 IB_PREF.PREF, rwl -/
def IB_PREF_PREF : Fld := ⟨0x20090004, 0, 8⟩
/-- R453 IB_NAME.VALUE, ro -/
def IB_NAME : Fld := ⟨0x20090008, 0, 64⟩
/-- R453 IB_CNT.TBR, ro -/
def IB_CNT_TBR : Fld := ⟨0x20090010, 0, 16⟩
/-- R453 IB_CNT.DISC, ro -/
def IB_CNT_DISC : Fld := ⟨0x20090010, 16, 16⟩
/-- R453 IB_CTRL.LOCK, w1s -/
def IB_CTRL_LOCK : Fld := ⟨0x200900F0, 31, 1⟩
/-- R446 HQ_CFG.PORT, ro -/
def HQ_CFG_PORT (q : Nat) : Fld := ⟨0x200A0000 + 0x20 * q, 0, 8⟩
/-- R446 HQ_CFG.DIR, ro -/
def HQ_CFG_DIR (q : Nat) : Fld := ⟨0x200A0000 + 0x20 * q, 8, 1⟩
/-- R446 HQ_CFG.DEPTH, ro -/
def HQ_CFG_DEPTH (q : Nat) : Fld := ⟨0x200A0000 + 0x20 * q, 16, 9⟩
/-- R447 HQ_STAT.USED, ro -/
def HQ_STAT_USED (q : Nat) : Fld := ⟨0x200A0004 + 0x20 * q, 0, 9⟩
/-- R447 HQ_STAT.EFF, ro -/
def HQ_STAT_EFF (q : Nat) : Fld := ⟨0x200A0004 + 0x20 * q, 9, 9⟩
/-- R447 HQ_STAT.NOCREDIT, w1c -/
def HQ_STAT_NOCREDIT (q : Nat) : Fld := ⟨0x200A0004 + 0x20 * q, 18, 1⟩
/-- R447 HQ_STAT.GAP, w1c -/
def HQ_STAT_GAP (q : Nat) : Fld := ⟨0x200A0004 + 0x20 * q, 19, 1⟩
/-- R447 HQ_STAT.FULL, w1c -/
def HQ_STAT_FULL (q : Nat) : Fld := ⟨0x200A0004 + 0x20 * q, 20, 1⟩
/-- R447 HQ_STAT.ERR, w1c -/
def HQ_STAT_ERR (q : Nat) : Fld := ⟨0x200A0004 + 0x20 * q, 21, 1⟩
/-- R448 HQ_PTR.HEAD, ro -/
def HQ_PTR_HEAD (q : Nat) : Fld := ⟨0x200A0008 + 0x20 * q, 0, 16⟩
/-- R448 HQ_PTR.TAIL, ro -/
def HQ_PTR_TAIL (q : Nat) : Fld := ⟨0x200A0008 + 0x20 * q, 16, 16⟩
/-- R448 HQ_CMD.POP, wo -/
def HQ_CMD_POP (q : Nat) : Fld := ⟨0x200A000C + 0x20 * q, 0, 1⟩
/-- R448 HQ_CMD.PUSH, wo -/
def HQ_CMD_PUSH (q : Nat) : Fld := ⟨0x200A000C + 0x20 * q, 1, 1⟩
/-- R451 HQ_BASE.VALUE, rwl -/
def HQ_BASE (q : Nat) : Fld := ⟨0x200A0010 + 0x20 * q, 0, 64⟩
/-- R451 HQ_DROP.NOCREDIT, ro -/
def HQ_DROP_NOCREDIT (q : Nat) : Fld := ⟨0x200A0018 + 0x20 * q, 0, 16⟩
/-- R451 HQ_DROP.GAP, ro -/
def HQ_DROP_GAP (q : Nat) : Fld := ⟨0x200A0018 + 0x20 * q, 16, 16⟩
/-- R449 HQ_PORT.PRESENT, ro -/
def HQ_PORT_PRESENT (h : Nat) : Fld := ⟨0x200A0400 + 0x20 * h, 0, 1⟩
/-- R449 HQ_PORT.KIND, ro -/
def HQ_PORT_KIND (h : Nat) : Fld := ⟨0x200A0400 + 0x20 * h, 1, 2⟩
/-- R449 HQ_PORT.TRANSPORT, ro -/
def HQ_PORT_TRANSPORT (h : Nat) : Fld := ⟨0x200A0400 + 0x20 * h, 3, 2⟩
/-- R449 HQ_PORT.SESSION, ro -/
def HQ_PORT_SESSION (h : Nat) : Fld := ⟨0x200A0400 + 0x20 * h, 5, 2⟩
/-- R449 HQ_PORT.FLOCK, ro -/
def HQ_PORT_FLOCK (h : Nat) : Fld := ⟨0x200A0400 + 0x20 * h, 7, 1⟩
/-- R449 HQ_PORT.ENGAGED, ro -/
def HQ_PORT_ENGAGED (h : Nat) : Fld := ⟨0x200A0400 + 0x20 * h, 8, 5⟩
/-- R451 HQ_PERM.VALUE, ro -/
def HQ_PERM (h : Nat) : Fld := ⟨0x200A0404 + 0x20 * h, 0, 32⟩
/-- R451 HQ_PCNT.ACC, ro -/
def HQ_PCNT_ACC (h : Nat) : Fld := ⟨0x200A0408 + 0x20 * h, 0, 16⟩
/-- R451 HQ_PCNT.REJ, ro -/
def HQ_PCNT_REJ (h : Nat) : Fld := ⟨0x200A0408 + 0x20 * h, 16, 8⟩
/-- R451 HQ_PCNT.RATE, ro -/
def HQ_PCNT_RATE (h : Nat) : Fld := ⟨0x200A0408 + 0x20 * h, 24, 8⟩
/-- R450 HQ_AUTH.SEL, ro -/
def HQ_AUTH_SEL (f : Nat) : Fld := ⟨0x200A0500 + 0x4 * f, 0, 4⟩
/-- R450 HQ_AUTH.OVR, ro -/
def HQ_AUTH_OVR (f : Nat) : Fld := ⟨0x200A0500 + 0x4 * f, 4, 1⟩
/-- R450 HQ_AUTH.ADOPTED, ro -/
def HQ_AUTH_ADOPTED (f : Nat) : Fld := ⟨0x200A0500 + 0x4 * f, 5, 1⟩
/-- R451 HQ_CTRL.LOCK, w1s -/
def HQ_CTRL_LOCK : Fld := ⟨0x200A07F0, 31, 1⟩
/-- R505 SE_STATUS.BUSY_0, ro -/
def SE_STATUS_BUSY_0 : Fld := ⟨0x200B0000, 0, 1⟩
/-- R505 SE_STATUS.BUSY_1, ro -/
def SE_STATUS_BUSY_1 : Fld := ⟨0x200B0000, 1, 1⟩
/-- R505 SE_STATUS.DONE_0, w1c -/
def SE_STATUS_DONE_0 : Fld := ⟨0x200B0000, 2, 1⟩
/-- R505 SE_STATUS.DONE_1, w1c -/
def SE_STATUS_DONE_1 : Fld := ⟨0x200B0000, 3, 1⟩
/-- R505 SE_STATUS.OVR_0, w1c -/
def SE_STATUS_OVR_0 : Fld := ⟨0x200B0000, 4, 1⟩
/-- R505 SE_STATUS.OVR_1, w1c -/
def SE_STATUS_OVR_1 : Fld := ⟨0x200B0000, 5, 1⟩
/-- R505 SE_STATUS.APPROVED, ro -/
def SE_STATUS_APPROVED : Fld := ⟨0x200B0000, 8, 1⟩
/-- R505 SE_STATUS.ALARM, ro -/
def SE_STATUS_ALARM : Fld := ⟨0x200B0000, 9, 1⟩
/-- R505 SE_STATUS.TAMPER, ro -/
def SE_STATUS_TAMPER : Fld := ⟨0x200B0000, 10, 1⟩
/-- R505 SE_STATUS.ZEROISED, ro -/
def SE_STATUS_ZEROISED : Fld := ⟨0x200B0000, 11, 1⟩
/-- R506 SE_CMD.OP, rw -/
def SE_CMD_OP (c : Nat) : Fld := ⟨0x200B0010 + 0x10 * c, 0, 8⟩
/-- R506 SE_CMD.LEN, rw -/
def SE_CMD_LEN (c : Nat) : Fld := ⟨0x200B0010 + 0x10 * c, 8, 9⟩
/-- R506 SE_CMD.GO, wo -/
def SE_CMD_GO (c : Nat) : Fld := ⟨0x200B0010 + 0x10 * c, 31, 1⟩
/-- R506 SE_RES.STATUS, ro -/
def SE_RES_STATUS (c : Nat) : Fld := ⟨0x200B0014 + 0x10 * c, 0, 8⟩
/-- R506 SE_RES.RLEN, ro -/
def SE_RES_RLEN (c : Nat) : Fld := ⟨0x200B0014 + 0x10 * c, 8, 9⟩
/-- R507 SE_LC.STATE, ro -/
def SE_LC_STATE : Fld := ⟨0x200B0040, 0, 2⟩
/-- R507 SE_LC.PEND, ro -/
def SE_LC_PEND : Fld := ⟨0x200B0040, 2, 1⟩
/-- R507 SE_LC.TARGET, ro -/
def SE_LC_TARGET : Fld := ⟨0x200B0040, 3, 2⟩
/-- R507 SE_LC.IMG_VALID, ro -/
def SE_LC_IMG_VALID : Fld := ⟨0x200B0040, 8, 4⟩
/-- R507 SE_LC.DBG_VALID, ro -/
def SE_LC_DBG_VALID : Fld := ⟨0x200B0040, 12, 2⟩
/-- R507 SE_LC.IDKEY, ro -/
def SE_LC_IDKEY : Fld := ⟨0x200B0040, 14, 1⟩
/-- R508 SE_DBG.OPEN, ro -/
def SE_DBG_OPEN : Fld := ⟨0x200B0044, 0, 1⟩
/-- R508 SE_DBG.EVER, ro -/
def SE_DBG_EVER : Fld := ⟨0x200B0044, 1, 1⟩
/-- R508 SE_DBG.SCOPE, ro -/
def SE_DBG_SCOPE : Fld := ⟨0x200B0044, 2, 5⟩
/-- R508 SE_DBG.LEFT, ro -/
def SE_DBG_LEFT : Fld := ⟨0x200B0044, 12, 20⟩
/-- R509 SE_SERIAL.VALUE, ro -/
def SE_SERIAL : Fld := ⟨0x200B0048, 0, 64⟩
/-- R509 SE_VER.ROM, ro -/
def SE_VER_ROM : Fld := ⟨0x200B0050, 0, 16⟩
/-- R509 SE_VER.SECFW, ro -/
def SE_VER_SECFW : Fld := ⟨0x200B0050, 16, 16⟩
/-- R509 SE_REQ.VALUE, rw -/
def SE_REQ (c : Nat) (k : Nat) : Fld := ⟨0x200B0100 + 0x100 * c + 0x4 * k, 0, 32⟩
/-- R509 SE_RSP.VALUE, ro -/
def SE_RSP (c : Nat) (k : Nat) : Fld := ⟨0x200B0400 + 0x100 * c + 0x4 * k, 0, 32⟩
/-- R530 UP_STATE.STATE, ro -/
def UP_STATE_STATE : Fld := ⟨0x200C0000, 0, 4⟩
/-- R530 UP_STATE.ERR, ro -/
def UP_STATE_ERR : Fld := ⟨0x200C0000, 4, 8⟩
/-- R530 UP_STATE.BANK, ro -/
def UP_STATE_BANK : Fld := ⟨0x200C0000, 12, 1⟩
/-- R530 UP_STATE.PAUSED, ro -/
def UP_STATE_PAUSED : Fld := ⟨0x200C0000, 13, 1⟩
/-- R530 UP_STATE.FWD, ro -/
def UP_STATE_FWD : Fld := ⟨0x200C0000, 14, 1⟩
/-- R534 UP_HELD.VALUE, ro -/
def UP_HELD : Fld := ⟨0x200C0004, 0, 32⟩
/-- R534 UP_TOTAL.VALUE, ro -/
def UP_TOTAL : Fld := ⟨0x200C0008, 0, 32⟩
/-- R531 UP_APPLY.PART, ro -/
def UP_APPLY_PART : Fld := ⟨0x200C000C, 0, 5⟩
/-- R531 UP_APPLY.MIB, ro -/
def UP_APPLY_MIB : Fld := ⟨0x200C000C, 16, 16⟩
/-- R532 UP_FLOOR.FLOOR, ro -/
def UP_FLOOR_FLOOR : Fld := ⟨0x200C0010, 0, 6⟩
/-- R534 UP_CNT.BAD, ro -/
def UP_CNT_BAD : Fld := ⟨0x200C0014, 0, 16⟩
/-- R534 UP_CNT.FWDCNT, ro -/
def UP_CNT_FWDCNT : Fld := ⟨0x200C0014, 16, 16⟩
/-- R534 UP_VER.VALUE, ro -/
def UP_VER : Fld := ⟨0x200C0018, 0, 32⟩
/-- R534 UP_NEWVER.VALUE, ro -/
def UP_NEWVER : Fld := ⟨0x200C001C, 0, 32⟩
/-- R534 UP_ACT_DIG.VALUE, ro -/
def UP_ACT_DIG (n : Nat) : Fld := ⟨0x200C0020 + 0x4 * n, 0, 32⟩
/-- R534 UP_NEW_DIG.VALUE, ro -/
def UP_NEW_DIG (n : Nat) : Fld := ⟨0x200C0040 + 0x4 * n, 0, 32⟩
/-- R554 BT_SOL_STAT.FAIL, ro -/
def BT_SOL_STAT_FAIL : Fld := ⟨0x200D0000, 0, 4⟩
/-- R554 BT_SOL_STAT.DONE, ro -/
def BT_SOL_STAT_DONE : Fld := ⟨0x200D0000, 4, 1⟩
/-- R554 BT_SOL_STAT.ANAFAIL, ro -/
def BT_SOL_STAT_ANAFAIL : Fld := ⟨0x200D0000, 8, 4⟩
/-- R555 BT_SOL_COV.LOGIC, ro -/
def BT_SOL_COV_LOGIC : Fld := ⟨0x200D0004, 0, 10⟩
/-- R555 BT_SOL_COV.MEM, ro -/
def BT_SOL_COV_MEM : Fld := ⟨0x200D0004, 16, 10⟩
/-- R558 BT_SOL_TIME.VALUE, ro -/
def BT_SOL_TIME (k : Nat) : Fld := ⟨0x200D0010 + 0x4 * k, 0, 32⟩
/-- R556 BT_REP.SOFT, ro -/
def BT_REP_SOFT : Fld := ⟨0x200D0020, 0, 8⟩
/-- R556 BT_REP.FUSED, ro -/
def BT_REP_FUSED : Fld := ⟨0x200D0020, 8, 7⟩
/-- R556 BT_REP.EXHAUSTED, ro -/
def BT_REP_EXHAUSTED : Fld := ⟨0x200D0020, 15, 1⟩
/-- R556 BT_FUSE.ROW, rw -/
def BT_FUSE_ROW : Fld := ⟨0x200D0024, 0, 16⟩
/-- R556 BT_FUSE.ARRAY, rw -/
def BT_FUSE_ARRAY : Fld := ⟨0x200D0024, 16, 2⟩
/-- R556 BT_FUSE.GO, wo -/
def BT_FUSE_GO : Fld := ⟨0x200D0024, 28, 1⟩
/-- R556 BT_FUSE.BUSY, ro -/
def BT_FUSE_BUSY : Fld := ⟨0x200D0024, 29, 1⟩
/-- R556 BT_FUSE.REFUSED, w1c -/
def BT_FUSE_REFUSED : Fld := ⟨0x200D0024, 30, 1⟩
/-- R558 BT_REP_ADDR.ROW, ro -/
def BT_REP_ADDR_ROW : Fld := ⟨0x200D0028, 0, 16⟩
/-- R558 BT_REP_ADDR.ARRAY, ro -/
def BT_REP_ADDR_ARRAY : Fld := ⟨0x200D0028, 16, 2⟩
/-- R557 BT_SLICE_CTRL.EN, rw -/
def BT_SLICE_CTRL_EN : Fld := ⟨0x200D0040, 0, 1⟩
/-- R557 BT_SLICE_CTRL.TARGETS, rw -/
def BT_SLICE_CTRL_TARGETS : Fld := ⟨0x200D0040, 8, 6⟩
/-- R557 BT_SLICE_CTRL.INTERVAL, rw -/
def BT_SLICE_CTRL_INTERVAL : Fld := ⟨0x200D0040, 16, 16⟩
/-- R557 BT_SLICE_STAT.CURRENT, ro -/
def BT_SLICE_STAT_CURRENT : Fld := ⟨0x200D0044, 0, 3⟩
/-- R557 BT_SLICE_STAT.RUNNING, ro -/
def BT_SLICE_STAT_RUNNING : Fld := ⟨0x200D0044, 3, 1⟩
/-- R557 BT_SLICE_STAT.FAILED, w1c -/
def BT_SLICE_STAT_FAILED : Fld := ⟨0x200D0044, 8, 6⟩
/-- R557 BT_SLICE_STAT.ABORTS, ro -/
def BT_SLICE_STAT_ABORTS : Fld := ⟨0x200D0044, 16, 8⟩
/-- R557 BT_SLICE_STAT.ROUNDS, ro -/
def BT_SLICE_STAT_ROUNDS : Fld := ⟨0x200D0044, 24, 8⟩
/-- R558 BT_SLICE_ADDR.ROW, ro -/
def BT_SLICE_ADDR_ROW : Fld := ⟨0x200D0048, 0, 16⟩
/-- R558 BT_TEST.SLICE, wo -/
def BT_TEST_SLICE : Fld := ⟨0x200D0050, 0, 3⟩
/-- R558 BT_TEST.GO, wo -/
def BT_TEST_GO : Fld := ⟨0x200D0050, 3, 1⟩
/-- R558 BT_TEST.ANALOG, wo -/
def BT_TEST_ANALOG : Fld := ⟨0x200D0050, 4, 1⟩
/-- R559 AG_RUN.GO, wo -/
def AG_RUN_GO : Fld := ⟨0x200E0000, 0, 1⟩
/-- R559 AG_RUN.BUSY, ro -/
def AG_RUN_BUSY : Fld := ⟨0x200E0000, 1, 1⟩
/-- R559 AG_RUN.DONE, w1c -/
def AG_RUN_DONE : Fld := ⟨0x200E0000, 2, 1⟩
/-- R559 AG_RUN.BAD, ro -/
def AG_RUN_BAD : Fld := ⟨0x200E0000, 16, 16⟩
/-- R560 AG_STAT.WARN, ro -/
def AG_STAT_WARN : Fld := ⟨0x200E0004, 0, 9⟩
/-- R560 AG_STAT.EOL, ro -/
def AG_STAT_EOL : Fld := ⟨0x200E0004, 16, 9⟩
/-- R561 AG_RING_BASE.VALUE, rw -/
def AG_RING_BASE : Fld := ⟨0x200E0010, 0, 64⟩
/-- R561 AG_RING_LEN.VALUE, rw -/
def AG_RING_LEN : Fld := ⟨0x200E0018, 0, 32⟩
/-- R561 AG_RING_TAIL.VALUE, rw -/
def AG_RING_TAIL : Fld := ⟨0x200E001C, 0, 32⟩
/-- R561 AG_RING_HEAD.VALUE, ro -/
def AG_RING_HEAD : Fld := ⟨0x200E0020, 0, 32⟩
/-- R561 AG_HOURS.VALUE, ro -/
def AG_HOURS : Fld := ⟨0x200E0028, 0, 64⟩
/-- R561 AG_TJ.VALUE, ro -/
def AG_TJ (p : Nat) : Fld := ⟨0x200E0030 + 0x4 * p, 0, 32⟩
/-- R561 AG_W.VALUE, ro -/
def AG_W (k : Nat) : Fld := ⟨0x200E0040 + 0x4 * k, 0, 32⟩
/-- R561 AG_PRED.VALUE, ro -/
def AG_PRED (k : Nat) (j : Nat) : Fld := ⟨0x200E0080 + 0x10 * k + 0x4 * j, 0, 32⟩
/-- R179 DE_CTRL.RUN, rw -/
def DE_CTRL_RUN (n : Nat) : Fld := ⟨0x20100000 + 0x4000 * n, 0, 1⟩
/-- R179 DE_CTRL.SEAL, w1s -/
def DE_CTRL_SEAL (n : Nat) : Fld := ⟨0x20100000 + 0x4000 * n, 1, 1⟩
/-- R179 DE_CTRL.LOOP, ro -/
def DE_CTRL_LOOP (n : Nat) : Fld := ⟨0x20100000 + 0x4000 * n, 2, 1⟩
/-- R179 DE_CTRL.LOCK, w1s -/
def DE_CTRL_LOCK (n : Nat) : Fld := ⟨0x20100000 + 0x4000 * n, 31, 1⟩
/-- R180 DE_STATUS.SEALED, ro -/
def DE_STATUS_SEALED (n : Nat) : Fld := ⟨0x20100004 + 0x4000 * n, 0, 1⟩
/-- R180 DE_STATUS.HALT, ro -/
def DE_STATUS_HALT (n : Nat) : Fld := ⟨0x20100004 + 0x4000 * n, 1, 3⟩
/-- R180 DE_STATUS.NAN, w1c -/
def DE_STATUS_NAN (n : Nat) : Fld := ⟨0x20100004 + 0x4000 * n, 4, 1⟩
/-- R180 DE_STATUS.ECC, w1c -/
def DE_STATUS_ECC (n : Nat) : Fld := ⟨0x20100004 + 0x4000 * n, 5, 1⟩
/-- R180 DE_STATUS.BUSYACC, w1c -/
def DE_STATUS_BUSYACC (n : Nat) : Fld := ⟨0x20100004 + 0x4000 * n, 6, 1⟩
/-- R180 DE_STATUS.EVMERGE, w1c -/
def DE_STATUS_EVMERGE (n : Nat) : Fld := ⟨0x20100004 + 0x4000 * n, 7, 1⟩
/-- R180 DE_STATUS.UNLOCK, ro -/
def DE_STATUS_UNLOCK (n : Nat) : Fld := ⟨0x20100004 + 0x4000 * n, 8, 1⟩
/-- R180 DE_STATUS.PHSPLIT, ro -/
def DE_STATUS_PHSPLIT (n : Nat) : Fld := ⟨0x20100004 + 0x4000 * n, 9, 1⟩
/-- R186 DE_ADDR.ADDR, rw -/
def DE_ADDR_ADDR (n : Nat) : Fld := ⟨0x20100008 + 0x4000 * n, 0, 16⟩
/-- R186 DE_ADDR.SPACE, rw -/
def DE_ADDR_SPACE (n : Nat) : Fld := ⟨0x20100008 + 0x4000 * n, 16, 1⟩
/-- R186 DE_DATA.DATA, rw -/
def DE_DATA_DATA (n : Nat) : Fld := ⟨0x2010000C + 0x4000 * n, 0, 32⟩
/-- R189 DE_IMCRC.VALUE, ro -/
def DE_IMCRC (n : Nat) : Fld := ⟨0x20100010 + 0x4000 * n, 0, 32⟩
/-- R189 DE_PC.PC, ro -/
def DE_PC_PC (n : Nat) : Fld := ⟨0x20100014 + 0x4000 * n, 0, 14⟩
/-- R181 DE_PWM_PHASE.PHASE, rwl -/
def DE_PWM_PHASE_PHASE (n : Nat) : Fld := ⟨0x20100020 + 0x4000 * n, 0, 32⟩
/-- R182 DE_PWM_DEAD.DEAD, rwl -/
def DE_PWM_DEAD_DEAD (n : Nat) : Fld := ⟨0x20100024 + 0x4000 * n, 0, 16⟩
/-- R182 DE_PWM_DEAD.MINP, rwl -/
def DE_PWM_DEAD_MINP (n : Nat) : Fld := ⟨0x20100024 + 0x4000 * n, 16, 16⟩
/-- R183 DE_PWM_BOOT.BOOT_N, rwl -/
def DE_PWM_BOOT_BOOT_N (n : Nat) : Fld := ⟨0x20100028 + 0x4000 * n, 0, 8⟩
/-- R183 DE_PWM_BOOT.BOOT_W, rwl -/
def DE_PWM_BOOT_BOOT_W (n : Nat) : Fld := ⟨0x20100028 + 0x4000 * n, 16, 16⟩
/-- R184 DE_PWM_LOCK.STATE, ro -/
def DE_PWM_LOCK_STATE (n : Nat) : Fld := ⟨0x2010002C + 0x4000 * n, 0, 2⟩
/-- R184 DE_PWM_LOCK.SLEW, rwl -/
def DE_PWM_LOCK_SLEW (n : Nat) : Fld := ⟨0x2010002C + 0x4000 * n, 8, 8⟩
/-- R184 DE_PWM_LOCK.ERR, ro -/
def DE_PWM_LOCK_ERR (n : Nat) : Fld := ⟨0x2010002C + 0x4000 * n, 16, 16⟩
/-- R185 DE_PWM_INFO.FREQ, ro -/
def DE_PWM_INFO_FREQ (n : Nat) : Fld := ⟨0x20100030 + 0x4000 * n, 0, 10⟩
/-- R187 DE_REF_FLAGS.NEW, ro -/
def DE_REF_FLAGS_NEW (n : Nat) : Fld := ⟨0x20100040 + 0x4000 * n, 0, 1⟩
/-- R187 DE_REF_FLAGS.HELD, ro -/
def DE_REF_FLAGS_HELD (n : Nat) : Fld := ⟨0x20100040 + 0x4000 * n, 1, 1⟩
/-- R187 DE_REF_FLAGS.SENDER, ro -/
def DE_REF_FLAGS_SENDER (n : Nat) : Fld := ⟨0x20100040 + 0x4000 * n, 8, 2⟩
/-- R187 DE_REF_FLAGS.HOLD, ro -/
def DE_REF_FLAGS_HOLD (n : Nat) : Fld := ⟨0x20100040 + 0x4000 * n, 16, 16⟩
/-- R187 DE_REF_SEQ.VALUE, ro -/
def DE_REF_SEQ (n : Nat) : Fld := ⟨0x20100044 + 0x4000 * n, 0, 32⟩
/-- R187 DE_REF_TOT.VALUE, ro -/
def DE_REF_TOT (n : Nat) : Fld := ⟨0x20100048 + 0x4000 * n, 0, 32⟩
/-- R187 DE_REF_SHARE.VALUE, ro -/
def DE_REF_SHARE (n : Nat) : Fld := ⟨0x2010004C + 0x4000 * n, 0, 32⟩
/-- R188 DE_BUDGET.LAST, ro -/
def DE_BUDGET_LAST (n : Nat) : Fld := ⟨0x20100050 + 0x4000 * n, 0, 16⟩
/-- R188 DE_BUDGET.SLACK_MIN, ro -/
def DE_BUDGET_SLACK_MIN (n : Nat) : Fld := ⟨0x20100050 + 0x4000 * n, 16, 16⟩
/-- R188 DE_OVR.OVERRUN, ro -/
def DE_OVR_OVERRUN (n : Nat) : Fld := ⟨0x20100054 + 0x4000 * n, 0, 8⟩
/-- R188 DE_OVR.OVR_MAX, rwl -/
def DE_OVR_OVR_MAX (n : Nat) : Fld := ⟨0x20100054 + 0x4000 * n, 8, 4⟩
/-- R188 DE_OVR.RSTMIN, wo -/
def DE_OVR_RSTMIN (n : Nat) : Fld := ⟨0x20100054 + 0x4000 * n, 16, 1⟩
/-- R268 DE_MOT_CFG.DIRMODE, ro -/
def DE_MOT_CFG_DIRMODE (n : Nat) : Fld := ⟨0x20100060 + 0x4000 * n, 0, 1⟩
/-- R268 DE_MOT_CFG.FWEN, ro -/
def DE_MOT_CFG_FWEN (n : Nat) : Fld := ⟨0x20100060 + 0x4000 * n, 1, 1⟩
/-- R268 DE_MOT_CFG.LR_ACT, rwl -/
def DE_MOT_CFG_LR_ACT (n : Nat) : Fld := ⟨0x20100060 + 0x4000 * n, 2, 1⟩
/-- R268 DE_MOT_CFG.HFIEN, ro -/
def DE_MOT_CFG_HFIEN (n : Nat) : Fld := ⟨0x20100060 + 0x4000 * n, 3, 1⟩
/-- R268 DE_MOT_CFG.CATCH_N, rwl -/
def DE_MOT_CFG_CATCH_N (n : Nat) : Fld := ⟨0x20100060 + 0x4000 * n, 4, 8⟩
/-- R268 DE_MOT_CFG.CATCH_RETRY, rwl -/
def DE_MOT_CFG_CATCH_RETRY (n : Nat) : Fld := ⟨0x20100060 + 0x4000 * n, 12, 3⟩
/-- R268 DE_MOT_CFG.SYNC_N, rwl -/
def DE_MOT_CFG_SYNC_N (n : Nat) : Fld := ⟨0x20100060 + 0x4000 * n, 16, 8⟩
/-- R268 DE_MOT_CFG.LR_T, rwl -/
def DE_MOT_CFG_LR_T (n : Nat) : Fld := ⟨0x20100060 + 0x4000 * n, 24, 8⟩
/-- R269 DE_MOT_STAT.STATE, ro -/
def DE_MOT_STAT_STATE (n : Nat) : Fld := ⟨0x20100064 + 0x4000 * n, 0, 3⟩
/-- R269 DE_MOT_STAT.DIR, ro -/
def DE_MOT_STAT_DIR (n : Nat) : Fld := ⟨0x20100064 + 0x4000 * n, 3, 1⟩
/-- R269 DE_MOT_STAT.REVREF, w1c -/
def DE_MOT_STAT_REVREF (n : Nat) : Fld := ⟨0x20100064 + 0x4000 * n, 4, 1⟩
/-- R269 DE_MOT_STAT.STALLED, w1c -/
def DE_MOT_STAT_STALLED (n : Nat) : Fld := ⟨0x20100064 + 0x4000 * n, 5, 1⟩
/-- R269 DE_MOT_STAT.CATCHF, w1c -/
def DE_MOT_STAT_CATCHF (n : Nat) : Fld := ⟨0x20100064 + 0x4000 * n, 6, 1⟩
/-- R269 DE_MOT_STAT.OVSPD, ro -/
def DE_MOT_STAT_OVSPD (n : Nat) : Fld := ⟨0x20100064 + 0x4000 * n, 7, 1⟩
/-- R269 DE_MOT_STAT.VLIM, ro -/
def DE_MOT_STAT_VLIM (n : Nat) : Fld := ⟨0x20100064 + 0x4000 * n, 8, 1⟩
/-- R269 DE_MOT_STAT.FWACT, ro -/
def DE_MOT_STAT_FWACT (n : Nat) : Fld := ⟨0x20100064 + 0x4000 * n, 9, 1⟩
/-- R269 DE_MOT_STAT.HFICONV, ro -/
def DE_MOT_STAT_HFICONV (n : Nat) : Fld := ⟨0x20100064 + 0x4000 * n, 10, 1⟩
/-- R269 DE_MOT_STAT.HFIRUN, ro -/
def DE_MOT_STAT_HFIRUN (n : Nat) : Fld := ⟨0x20100064 + 0x4000 * n, 11, 1⟩
/-- R269 DE_MOT_STAT.PARAMERR, ro -/
def DE_MOT_STAT_PARAMERR (n : Nat) : Fld := ⟨0x20100064 + 0x4000 * n, 12, 1⟩
/-- R269 DE_MOT_STAT.CATCHTRY, ro -/
def DE_MOT_STAT_CATCHTRY (n : Nat) : Fld := ⟨0x20100064 + 0x4000 * n, 13, 3⟩
/-- R269 DE_MOT_STAT.REVCNT, ro -/
def DE_MOT_STAT_REVCNT (n : Nat) : Fld := ⟨0x20100064 + 0x4000 * n, 16, 8⟩
/-- R270 DE_MOT_CTRL.LOCK, w1s -/
def DE_MOT_CTRL_LOCK (n : Nat) : Fld := ⟨0x20100068 + 0x4000 * n, 31, 1⟩
/-- R271 DE_MOT_RS.VALUE, rwl -/
def DE_MOT_RS (n : Nat) : Fld := ⟨0x20100070 + 0x4000 * n, 0, 32⟩
/-- R271 DE_MOT_LD.VALUE, rwl -/
def DE_MOT_LD (n : Nat) : Fld := ⟨0x20100074 + 0x4000 * n, 0, 32⟩
/-- R271 DE_MOT_LQ.VALUE, rwl -/
def DE_MOT_LQ (n : Nat) : Fld := ⟨0x20100078 + 0x4000 * n, 0, 32⟩
/-- R271 DE_MOT_PSI.VALUE, rwl -/
def DE_MOT_PSI (n : Nat) : Fld := ⟨0x2010007C + 0x4000 * n, 0, 32⟩
/-- R271 DE_MOT_IMAX.VALUE, rwl -/
def DE_MOT_IMAX (n : Nat) : Fld := ⟨0x20100080 + 0x4000 * n, 0, 32⟩
/-- R271 DE_MOT_IDMAX.VALUE, rwl -/
def DE_MOT_IDMAX (n : Nat) : Fld := ⟨0x20100084 + 0x4000 * n, 0, 32⟩
/-- R271 DE_MOT_MMAX.VALUE, rwl -/
def DE_MOT_MMAX (n : Nat) : Fld := ⟨0x20100088 + 0x4000 * n, 0, 32⟩
/-- R271 DE_MOT_REVTHR.VALUE, rwl -/
def DE_MOT_REVTHR (n : Nat) : Fld := ⟨0x2010008C + 0x4000 * n, 0, 32⟩
/-- R271 DE_MOT_LRTRQ.VALUE, rwl -/
def DE_MOT_LRTRQ (n : Nat) : Fld := ⟨0x20100090 + 0x4000 * n, 0, 32⟩
/-- R271 DE_MOT_LRI.VALUE, rwl -/
def DE_MOT_LRI (n : Nat) : Fld := ⟨0x20100094 + 0x4000 * n, 0, 32⟩
/-- R271 DE_MOT_CLBW.VALUE, rwl -/
def DE_MOT_CLBW (n : Nat) : Fld := ⟨0x20100098 + 0x4000 * n, 0, 32⟩
/-- R271 DE_MOT_CATCHTOL.VALUE, rwl -/
def DE_MOT_CATCHTOL (n : Nat) : Fld := ⟨0x2010009C + 0x4000 * n, 0, 32⟩
/-- R271 DE_MOT_VMIN.VALUE, rwl -/
def DE_MOT_VMIN (n : Nat) : Fld := ⟨0x201000A0 + 0x4000 * n, 0, 32⟩
/-- R271 DE_MOT_SYNCI.VALUE, rwl -/
def DE_MOT_SYNCI (n : Nat) : Fld := ⟨0x201000A4 + 0x4000 * n, 0, 32⟩
/-- R271 DE_MOT_HFIV.VALUE, rwl -/
def DE_MOT_HFIV (n : Nat) : Fld := ⟨0x201000A8 + 0x4000 * n, 0, 32⟩
/-- R271 DE_MOT_HFIBW.VALUE, rwl -/
def DE_MOT_HFIBW (n : Nat) : Fld := ⟨0x201000AC + 0x4000 * n, 0, 32⟩
/-- R271 DE_MOT_CANG.VALUE, ro -/
def DE_MOT_CANG (n : Nat) : Fld := ⟨0x201000C0 + 0x4000 * n, 0, 32⟩
/-- R271 DE_MOT_CSPD.VALUE, ro -/
def DE_MOT_CSPD (n : Nat) : Fld := ⟨0x201000C4 + 0x4000 * n, 0, 32⟩
/-- R271 DE_MOT_CAMP.VALUE, ro -/
def DE_MOT_CAMP (n : Nat) : Fld := ⟨0x201000C8 + 0x4000 * n, 0, 32⟩
/-- R271 DE_MOT_ID.VALUE, ro -/
def DE_MOT_ID (n : Nat) : Fld := ⟨0x201000CC + 0x4000 * n, 0, 32⟩
/-- R271 DE_MOT_IQ.VALUE, ro -/
def DE_MOT_IQ (n : Nat) : Fld := ⟨0x201000D0 + 0x4000 * n, 0, 32⟩
/-- R271 DE_MOT_TLIM.VALUE, ro -/
def DE_MOT_TLIM (n : Nat) : Fld := ⟨0x201000D4 + 0x4000 * n, 0, 32⟩
/-- R271 DE_MOT_LRCNT.VALUE, ro -/
def DE_MOT_LRCNT (n : Nat) : Fld := ⟨0x201000D8 + 0x4000 * n, 0, 32⟩
/-- R189 DE_MBOX_IN.VALUE, rw -/
def DE_MBOX_IN (n : Nat) (k : Nat) : Fld := ⟨0x20100100 + 0x4000 * n + 0x4 * k, 0, 32⟩
/-- R189 DE_MBOX_DB.VALUE, wo -/
def DE_MBOX_DB (n : Nat) : Fld := ⟨0x20100140 + 0x4000 * n, 0, 32⟩
/-- R189 DE_MBOX_OUT.VALUE, ro -/
def DE_MBOX_OUT (n : Nat) (k : Nat) : Fld := ⟨0x20100180 + 0x4000 * n + 0x4 * k, 0, 32⟩
/-- R189 DE_MBOX_OSEQ.COUNT, ro -/
def DE_MBOX_OSEQ_COUNT (n : Nat) : Fld := ⟨0x201001C0 + 0x4000 * n, 0, 16⟩
/-- R242 QE_CFG.FILT, ro -/
def QE_CFG_FILT (n : Nat) : Fld := ⟨0x20140000 + 0x40 * n, 0, 8⟩
/-- R242 QE_CFG.IDXMODE, rwl -/
def QE_CFG_IDXMODE (n : Nat) : Fld := ⟨0x20140000 + 0x40 * n, 8, 2⟩
/-- R242 QE_CFG.ZGATE_EN, rwl -/
def QE_CFG_ZGATE_EN (n : Nat) : Fld := ⟨0x20140000 + 0x40 * n, 10, 1⟩
/-- R242 QE_CFG.ZGATE_A, rwl -/
def QE_CFG_ZGATE_A (n : Nat) : Fld := ⟨0x20140000 + 0x40 * n, 11, 1⟩
/-- R242 QE_CFG.ZGATE_B, rwl -/
def QE_CFG_ZGATE_B (n : Nat) : Fld := ⟨0x20140000 + 0x40 * n, 12, 1⟩
/-- R242 QE_CFG.INV, rwl -/
def QE_CFG_INV (n : Nat) : Fld := ⟨0x20140000 + 0x40 * n, 13, 1⟩
/-- R242 QE_CFG.IDXCNT, rwl -/
def QE_CFG_IDXCNT (n : Nat) : Fld := ⟨0x20140000 + 0x40 * n, 14, 1⟩
/-- R242 QE_CFG.DIRH, rwl -/
def QE_CFG_DIRH (n : Nat) : Fld := ⟨0x20140000 + 0x40 * n, 16, 4⟩
/-- R242 QE_CFG.CMPDIR, rw -/
def QE_CFG_CMPDIR (n : Nat) : Fld := ⟨0x20140000 + 0x40 * n, 20, 2⟩
/-- R242 QE_CFG.IE_DIR, rw -/
def QE_CFG_IE_DIR (n : Nat) : Fld := ⟨0x20140000 + 0x40 * n, 22, 1⟩
/-- R242 QE_CFG.IE_CMP, rw -/
def QE_CFG_IE_CMP (n : Nat) : Fld := ⟨0x20140000 + 0x40 * n, 23, 1⟩
/-- R242 QE_CFG.IE_IDX, rw -/
def QE_CFG_IE_IDX (n : Nat) : Fld := ⟨0x20140000 + 0x40 * n, 24, 1⟩
/-- R248 QE_CNT.VALUE, ro -/
def QE_CNT (n : Nat) : Fld := ⟨0x20140004 + 0x40 * n, 0, 32⟩
/-- R248 QE_MOD.VALUE, ro -/
def QE_MOD (n : Nat) : Fld := ⟨0x20140008 + 0x40 * n, 0, 32⟩
/-- R248 QE_CMP.VALUE, rw -/
def QE_CMP (n : Nat) : Fld := ⟨0x2014000C + 0x40 * n, 0, 32⟩
/-- R248 QE_STEP.VALUE, rw -/
def QE_STEP (n : Nat) : Fld := ⟨0x20140010 + 0x40 * n, 0, 32⟩
/-- R248 QE_SPD.VALUE, ro -/
def QE_SPD (n : Nat) : Fld := ⟨0x20140014 + 0x40 * n, 0, 32⟩
/-- R248 QE_CMPT.VALUE, ro -/
def QE_CMPT (n : Nat) : Fld := ⟨0x20140018 + 0x40 * n, 0, 64⟩
/-- R243 QE_STAT.DIR, ro -/
def QE_STAT_DIR (n : Nat) : Fld := ⟨0x20140020 + 0x40 * n, 0, 1⟩
/-- R243 QE_STAT.STILL, ro -/
def QE_STAT_STILL (n : Nat) : Fld := ⟨0x20140020 + 0x40 * n, 1, 1⟩
/-- R243 QE_STAT.ALIGNED, ro -/
def QE_STAT_ALIGNED (n : Nat) : Fld := ⟨0x20140020 + 0x40 * n, 2, 1⟩
/-- R243 QE_STAT.FAIL, ro -/
def QE_STAT_FAIL (n : Nat) : Fld := ⟨0x20140020 + 0x40 * n, 3, 1⟩
/-- R243 QE_STAT.WIRE, ro -/
def QE_STAT_WIRE (n : Nat) : Fld := ⟨0x20140020 + 0x40 * n, 4, 3⟩
/-- R243 QE_STAT.IDXMIS, ro -/
def QE_STAT_IDXMIS (n : Nat) : Fld := ⟨0x20140020 + 0x40 * n, 7, 1⟩
/-- R243 QE_STAT.DIRCHG, w1c -/
def QE_STAT_DIRCHG (n : Nat) : Fld := ⟨0x20140020 + 0x40 * n, 8, 1⟩
/-- R243 QE_STAT.CMPHIT, w1c -/
def QE_STAT_CMPHIT (n : Nat) : Fld := ⟨0x20140020 + 0x40 * n, 9, 1⟩
/-- R243 QE_STAT.IDXHIT, w1c -/
def QE_STAT_IDXHIT (n : Nat) : Fld := ⟨0x20140020 + 0x40 * n, 10, 1⟩
/-- R243 QE_STAT.SKIPFAIL, ro -/
def QE_STAT_SKIPFAIL (n : Nat) : Fld := ⟨0x20140020 + 0x40 * n, 11, 1⟩
/-- R243 QE_STAT.SKIPS, ro -/
def QE_STAT_SKIPS (n : Nat) : Fld := ⟨0x20140020 + 0x40 * n, 16, 16⟩
/-- R248 QE_OFS.OFS, rw -/
def QE_OFS_OFS (n : Nat) : Fld := ⟨0x20140024 + 0x40 * n, 0, 16⟩
/-- R244 QE_IDX.IDX_TOL, rwl -/
def QE_IDX_IDX_TOL (n : Nat) : Fld := ⟨0x20140028 + 0x40 * n, 0, 8⟩
/-- R244 QE_IDX.IDXERR, ro -/
def QE_IDX_IDXERR (n : Nat) : Fld := ⟨0x20140028 + 0x40 * n, 16, 16⟩
/-- R244 QE_SPDCFG.SPD_WIN, rwl -/
def QE_SPDCFG_SPD_WIN (n : Nat) : Fld := ⟨0x2014002C + 0x40 * n, 0, 14⟩
/-- R244 QE_SPDCFG.STILL_T, rwl -/
def QE_SPDCFG_STILL_T (n : Nat) : Fld := ⟨0x2014002C + 0x40 * n, 16, 10⟩
/-- R245 QE_RS_CFG.RATIO, rwl -/
def QE_RS_CFG_RATIO : Fld := ⟨0x20140100, 0, 5⟩
/-- R245 QE_RS_CFG.NOM, rwl -/
def QE_RS_CFG_NOM : Fld := ⟨0x20140100, 16, 12⟩
/-- R245 QE_RS_TRIM.AMP, rw -/
def QE_RS_TRIM_AMP : Fld := ⟨0x20140104, 0, 16⟩
/-- R245 QE_RS_TRIM.PHASE, rw -/
def QE_RS_TRIM_PHASE : Fld := ⟨0x20140104, 16, 16⟩
/-- R245 QE_RS_STAT.FAIL, ro -/
def QE_RS_STAT_FAIL : Fld := ⟨0x20140108, 0, 1⟩
/-- R245 QE_RS_STAT.LOW, w1c -/
def QE_RS_STAT_LOW : Fld := ⟨0x20140108, 1, 1⟩
/-- R245 QE_RS_STAT.HIGH, w1c -/
def QE_RS_STAT_HIGH : Fld := ⟨0x20140108, 2, 1⟩
/-- R245 QE_RS_STAT.EXCF, ro -/
def QE_RS_STAT_EXCF : Fld := ⟨0x20140108, 3, 1⟩
/-- R245 QE_RS_STAT.AMPL, ro -/
def QE_RS_STAT_AMPL : Fld := ⟨0x20140108, 16, 12⟩
/-- R248 QE_RS_ANG.VALUE, ro -/
def QE_RS_ANG : Fld := ⟨0x2014010C, 0, 32⟩
/-- R246 QE_SENT_CFG.TICK, ro -/
def QE_SENT_CFG_TICK (s : Nat) : Fld := ⟨0x20140180 + 0x20 * s, 0, 10⟩
/-- R246 QE_SENT_CFG.PAUSE, ro -/
def QE_SENT_CFG_PAUSE (s : Nat) : Fld := ⟨0x20140180 + 0x20 * s, 10, 1⟩
/-- R246 QE_SENT_CFG.USE, ro -/
def QE_SENT_CFG_USE (s : Nat) : Fld := ⟨0x20140180 + 0x20 * s, 11, 2⟩
/-- R246 QE_SENT_CFG.CRC, rwl -/
def QE_SENT_CFG_CRC (s : Nat) : Fld := ⟨0x20140180 + 0x20 * s, 13, 1⟩
/-- R248 QE_SENT_DATA.DATA, ro -/
def QE_SENT_DATA_DATA (s : Nat) : Fld := ⟨0x20140184 + 0x20 * s, 0, 24⟩
/-- R248 QE_SENT_DATA.STATUS, ro -/
def QE_SENT_DATA_STATUS (s : Nat) : Fld := ⟨0x20140184 + 0x20 * s, 24, 4⟩
/-- R248 QE_SENT_DATA.CNT, ro -/
def QE_SENT_DATA_CNT (s : Nat) : Fld := ⟨0x20140184 + 0x20 * s, 28, 4⟩
/-- R246 QE_SENT_STAT.CRCERR, w1c -/
def QE_SENT_STAT_CRCERR (s : Nat) : Fld := ⟨0x20140188 + 0x20 * s, 0, 1⟩
/-- R246 QE_SENT_STAT.SYNCERR, w1c -/
def QE_SENT_STAT_SYNCERR (s : Nat) : Fld := ⟨0x20140188 + 0x20 * s, 1, 1⟩
/-- R246 QE_SENT_STAT.NIBERR, w1c -/
def QE_SENT_STAT_NIBERR (s : Nat) : Fld := ⟨0x20140188 + 0x20 * s, 2, 1⟩
/-- R246 QE_SENT_STAT.TMO, ro -/
def QE_SENT_STAT_TMO (s : Nat) : Fld := ⟨0x20140188 + 0x20 * s, 3, 1⟩
/-- R246 QE_SENT_STAT.ERRCNT, ro -/
def QE_SENT_STAT_ERRCNT (s : Nat) : Fld := ⟨0x20140188 + 0x20 * s, 8, 16⟩
/-- R248 QE_SENT_OFS.VALUE, rw -/
def QE_SENT_OFS (s : Nat) : Fld := ⟨0x2014018C + 0x20 * s, 0, 32⟩
/-- R246 QE_SENT_SER.ID, ro -/
def QE_SENT_SER_ID (s : Nat) : Fld := ⟨0x20140190 + 0x20 * s, 0, 8⟩
/-- R246 QE_SENT_SER.DATA, ro -/
def QE_SENT_SER_DATA (s : Nat) : Fld := ⟨0x20140190 + 0x20 * s, 8, 16⟩
/-- R246 QE_SENT_SER.FORMAT, ro -/
def QE_SENT_SER_FORMAT (s : Nat) : Fld := ⟨0x20140190 + 0x20 * s, 24, 2⟩
/-- R246 QE_SENT_SER.NEW, w1c -/
def QE_SENT_SER_NEW (s : Nat) : Fld := ⟨0x20140190 + 0x20 * s, 31, 1⟩
/-- R248 QE_SENT_NB.VALUE, ro -/
def QE_SENT_NB (s : Nat) (k : Nat) : Fld := ⟨0x201401C0 + 0x8 * s + 0x4 * k, 0, 32⟩
/-- R247 QE_VOTE_CFG.OUTV_N, rwl -/
def QE_VOTE_CFG_OUTV_N (p : Nat) : Fld := ⟨0x20140200 + 0x20 * p, 0, 4⟩
/-- R247 QE_VOTE_CFG.UNRES_MAX, rwl -/
def QE_VOTE_CFG_UNRES_MAX (p : Nat) : Fld := ⟨0x20140200 + 0x20 * p, 4, 4⟩
/-- R247 QE_VOTE_CFG.HFI_N, rwl -/
def QE_VOTE_CFG_HFI_N (p : Nat) : Fld := ⟨0x20140200 + 0x20 * p, 8, 8⟩
/-- R247 QE_VOTE.SRCVAL, ro -/
def QE_VOTE_SRCVAL (p : Nat) : Fld := ⟨0x20140204 + 0x20 * p, 0, 4⟩
/-- R247 QE_VOTE.USED, ro -/
def QE_VOTE_USED (p : Nat) : Fld := ⟨0x20140204 + 0x20 * p, 4, 4⟩
/-- R247 QE_VOTE.OUTV, ro -/
def QE_VOTE_OUTV (p : Nat) : Fld := ⟨0x20140204 + 0x20 * p, 8, 3⟩
/-- R247 QE_VOTE.UNRES, ro -/
def QE_VOTE_UNRES (p : Nat) : Fld := ⟨0x20140204 + 0x20 * p, 11, 1⟩
/-- R247 QE_VOTE.OWNFAIL, ro -/
def QE_VOTE_OWNFAIL (p : Nat) : Fld := ⟨0x20140204 + 0x20 * p, 12, 1⟩
/-- R247 QE_VOTE.HFIFAIL, ro -/
def QE_VOTE_HFIFAIL (p : Nat) : Fld := ⟨0x20140204 + 0x20 * p, 13, 1⟩
/-- R247 QE_VOTE.STILL, ro -/
def QE_VOTE_STILL (p : Nat) : Fld := ⟨0x20140204 + 0x20 * p, 14, 1⟩
/-- R247 QE_VOTE.SECT, ro -/
def QE_VOTE_SECT (p : Nat) : Fld := ⟨0x20140204 + 0x20 * p, 16, 3⟩
/-- R248 QE_VANG.VALUE, ro -/
def QE_VANG (p : Nat) : Fld := ⟨0x20140208 + 0x20 * p, 0, 32⟩
/-- R248 QE_VSPD.VALUE, ro -/
def QE_VSPD (p : Nat) : Fld := ⟨0x2014020C + 0x20 * p, 0, 32⟩
/-- R248 QE_VTOL.VOTE_TOL, ro -/
def QE_VTOL_VOTE_TOL (p : Nat) : Fld := ⟨0x20140210 + 0x20 * p, 0, 16⟩
/-- R248 QE_VTOL.HFI_XCHECK, ro -/
def QE_VTOL_HFI_XCHECK (p : Nat) : Fld := ⟨0x20140210 + 0x20 * p, 16, 16⟩
/-- R248 QE_COMM.COMM, ro -/
def QE_COMM_COMM (p : Nat) : Fld := ⟨0x20140214 + 0x20 * p, 0, 16⟩
/-- R248 QE_COMM.UNRESCNT, ro -/
def QE_COMM_UNRESCNT (p : Nat) : Fld := ⟨0x20140214 + 0x20 * p, 16, 16⟩
/-- R248 QE_CTRL.LOCK, w1s -/
def QE_CTRL_LOCK : Fld := ⟨0x20140300, 31, 1⟩
/-- R212 CS_CFG.GAIN, rwl -/
def CS_CFG_GAIN (p : Nat) : Fld := ⟨0x20150000 + 0x40 * p, 0, 2⟩
/-- R212 CS_CFG.SETTLE, rwl -/
def CS_CFG_SETTLE (p : Nat) : Fld := ⟨0x20150000 + 0x40 * p, 4, 14⟩
/-- R212 CS_CFG.MISS_MAX, rwl -/
def CS_CFG_MISS_MAX (p : Nat) : Fld := ⟨0x20150000 + 0x40 * p, 24, 4⟩
/-- R213 CS_SCALE.SHUNT, rwl -/
def CS_SCALE_SHUNT (p : Nat) : Fld := ⟨0x20150004 + 0x40 * p, 0, 32⟩
/-- R214 CS_TRIM.OFFSET, rw -/
def CS_TRIM_OFFSET (p : Nat) : Fld := ⟨0x20150008 + 0x40 * p, 0, 16⟩
/-- R214 CS_TRIM.GAIN, rw -/
def CS_TRIM_GAIN (p : Nat) : Fld := ⟨0x20150008 + 0x40 * p, 16, 16⟩
/-- R215 CS_STAT.LOST, ro -/
def CS_STAT_LOST (p : Nat) : Fld := ⟨0x2015000C + 0x40 * p, 0, 16⟩
/-- R215 CS_STAT.LOSS, w1c -/
def CS_STAT_LOSS (p : Nat) : Fld := ⟨0x2015000C + 0x40 * p, 16, 1⟩
/-- R215 CS_STAT.CLIP, w1c -/
def CS_STAT_CLIP (p : Nat) : Fld := ⟨0x2015000C + 0x40 * p, 17, 1⟩
/-- R216 CS_LAST.CODE0, ro -/
def CS_LAST_CODE0 (p : Nat) : Fld := ⟨0x20150010 + 0x40 * p, 0, 12⟩
/-- R216 CS_LAST.VALID0, ro -/
def CS_LAST_VALID0 (p : Nat) : Fld := ⟨0x20150010 + 0x40 * p, 12, 1⟩
/-- R216 CS_LAST.CODE1, ro -/
def CS_LAST_CODE1 (p : Nat) : Fld := ⟨0x20150010 + 0x40 * p, 16, 12⟩
/-- R216 CS_LAST.VALID1, ro -/
def CS_LAST_VALID1 (p : Nat) : Fld := ⟨0x20150010 + 0x40 * p, 28, 1⟩
/-- R217 CS_CAL.SRC, rw -/
def CS_CAL_SRC (p : Nat) : Fld := ⟨0x20150014 + 0x40 * p, 0, 2⟩
/-- R217 CS_CAL.START, wo -/
def CS_CAL_START (p : Nat) : Fld := ⟨0x20150014 + 0x40 * p, 2, 1⟩
/-- R217 CS_CAL.BUSY, ro -/
def CS_CAL_BUSY (p : Nat) : Fld := ⟨0x20150014 + 0x40 * p, 3, 1⟩
/-- R217 CS_CAL.MEAN, ro -/
def CS_CAL_MEAN (p : Nat) : Fld := ⟨0x20150014 + 0x40 * p, 16, 16⟩
/-- R218 CS_GSEQ0.SLOT0, rw -/
def CS_GSEQ0_SLOT0 (n : Nat) : Fld := ⟨0x20150100 + 0x8 * n, 0, 5⟩
/-- R218 CS_GSEQ0.SLOT1, rw -/
def CS_GSEQ0_SLOT1 (n : Nat) : Fld := ⟨0x20150100 + 0x8 * n, 5, 5⟩
/-- R218 CS_GSEQ0.SLOT2, rw -/
def CS_GSEQ0_SLOT2 (n : Nat) : Fld := ⟨0x20150100 + 0x8 * n, 10, 5⟩
/-- R218 CS_GSEQ0.SLOT3, rw -/
def CS_GSEQ0_SLOT3 (n : Nat) : Fld := ⟨0x20150100 + 0x8 * n, 15, 5⟩
/-- R218 CS_GSEQ0.SLOT4, rw -/
def CS_GSEQ0_SLOT4 (n : Nat) : Fld := ⟨0x20150100 + 0x8 * n, 20, 5⟩
/-- R218 CS_GSEQ0.SLOT5, rw -/
def CS_GSEQ0_SLOT5 (n : Nat) : Fld := ⟨0x20150100 + 0x8 * n, 25, 5⟩
/-- R218 CS_GSEQ1.SLOT6, rw -/
def CS_GSEQ1_SLOT6 (n : Nat) : Fld := ⟨0x20150104 + 0x8 * n, 0, 5⟩
/-- R218 CS_GSEQ1.SLOT7, rw -/
def CS_GSEQ1_SLOT7 (n : Nat) : Fld := ⟨0x20150104 + 0x8 * n, 5, 5⟩
/-- R218 CS_GSEQ1.LEN, rw -/
def CS_GSEQ1_LEN (n : Nat) : Fld := ⟨0x20150104 + 0x8 * n, 10, 3⟩
/-- R218 CS_GSEQ1.TRIG, rw -/
def CS_GSEQ1_TRIG (n : Nat) : Fld := ⟨0x20150104 + 0x8 * n, 13, 2⟩
/-- R219 CS_GRES.CODE, ro -/
def CS_GRES_CODE (m : Nat) : Fld := ⟨0x20150200 + 0x4 * m, 0, 12⟩
/-- R219 CS_CTRL.LOCK, w1s -/
def CS_CTRL_LOCK : Fld := ⟨0x20150300, 31, 1⟩
/-- R301 GD_CFG.VGD, rwl -/
def GD_CFG_VGD : Fld := ⟨0x20160000, 0, 4⟩
/-- R301 GD_CFG.PLAT, rwl -/
def GD_CFG_PLAT : Fld := ⟨0x20160000, 4, 4⟩
/-- R301 GD_CFG.T1, rwl -/
def GD_CFG_T1 : Fld := ⟨0x20160000, 8, 8⟩
/-- R301 GD_CFG.LOCK, w1s -/
def GD_CFG_LOCK : Fld := ⟨0x20160000, 31, 1⟩
/-- R302 GD_STAT.EN, ro -/
def GD_STAT_EN : Fld := ⟨0x20160004, 0, 3⟩
/-- R302 GD_STAT.PROT, ro -/
def GD_STAT_PROT : Fld := ⟨0x20160004, 3, 1⟩
/-- R302 GD_STAT.ASC, ro -/
def GD_STAT_ASC : Fld := ⟨0x20160004, 4, 3⟩
/-- R302 GD_STAT.CHOP, ro -/
def GD_STAT_CHOP : Fld := ⟨0x20160004, 7, 1⟩
/-- R302 GD_STAT.VGDOK, ro -/
def GD_STAT_VGDOK : Fld := ⟨0x20160004, 8, 3⟩
/-- R302 GD_STAT.BSTOK, ro -/
def GD_STAT_BSTOK : Fld := ⟨0x20160004, 11, 9⟩
/-- R302 GD_STAT.BSTARM, ro -/
def GD_STAT_BSTARM : Fld := ⟨0x20160004, 20, 9⟩
/-- R303 GD_TRIP_0.DSAT, w1c -/
def GD_TRIP_0_DSAT : Fld := ⟨0x20160008, 0, 18⟩
/-- R303 GD_TRIP_0.FOC, w1c -/
def GD_TRIP_0_FOC : Fld := ⟨0x20160008, 18, 3⟩
/-- R303 GD_TRIP_0.VGDUV, w1c -/
def GD_TRIP_0_VGDUV : Fld := ⟨0x20160008, 21, 3⟩
/-- R303 GD_TRIP_1.BSTUV, w1c -/
def GD_TRIP_1_BSTUV : Fld := ⟨0x2016000C, 0, 9⟩
/-- R303 GD_TRIP_1.OV, w1c -/
def GD_TRIP_1_OV : Fld := ⟨0x2016000C, 9, 1⟩
/-- R303 GD_TRIP_1.CHOPF, ro -/
def GD_TRIP_1_CHOPF : Fld := ⟨0x2016000C, 10, 1⟩
/-- R303 GD_TRIP_1.CHOPSH, ro -/
def GD_TRIP_1_CHOPSH : Fld := ⟨0x2016000C, 11, 1⟩
/-- R303 GD_TRIP_1.ASCIN, w1c -/
def GD_TRIP_1_ASCIN : Fld := ⟨0x2016000C, 12, 1⟩
/-- R303 GD_TRIP_1.ASCBLK, ro -/
def GD_TRIP_1_ASCBLK : Fld := ⟨0x2016000C, 13, 3⟩
/-- R304 GD_OV_0.OV_ON, rwl -/
def GD_OV_0_OV_ON : Fld := ⟨0x20160010, 0, 16⟩
/-- R304 GD_OV_0.OV_OFF, rwl -/
def GD_OV_0_OV_OFF : Fld := ⟨0x20160010, 16, 16⟩
/-- R304 GD_OV_1.OV_TRIP, rwl -/
def GD_OV_1_OV_TRIP : Fld := ⟨0x20160014, 0, 16⟩
/-- R304 GD_OV_1.OV_ASC, rwl -/
def GD_OV_1_OV_ASC : Fld := ⟨0x20160014, 16, 16⟩
/-- R305 GD_CHOP.CHK_T, rwl -/
def GD_CHOP_CHK_T : Fld := ⟨0x20160018, 0, 8⟩
/-- R305 GD_CHOP.BCI_MIN, rwl -/
def GD_CHOP_BCI_MIN : Fld := ⟨0x20160018, 8, 8⟩
/-- R305 GD_CHOP.EN, rwl -/
def GD_CHOP_EN : Fld := ⟨0x20160018, 16, 1⟩
/-- R305 GD_CHOP.BCI, ro -/
def GD_CHOP_BCI : Fld := ⟨0x20160018, 24, 8⟩
/-- R306 GD_PORT.DSBLK, rwl -/
def GD_PORT_DSBLK (p : Nat) : Fld := ⟨0x20160040 + 0x10 * p, 0, 10⟩
/-- R306 GD_PORT.DSAT, rwl -/
def GD_PORT_DSAT (p : Nat) : Fld := ⟨0x20160040 + 0x10 * p, 10, 6⟩
/-- R306 GD_PORT.FOC, rwl -/
def GD_PORT_FOC (p : Nat) : Fld := ⟨0x20160040 + 0x10 * p, 16, 9⟩
/-- R307 GD_SV.MEAS, ro -/
def GD_SV_MEAS (n : Nat) : Fld := ⟨0x20160080 + 0x8 * n, 0, 12⟩
/-- R307 GD_SV.OPEN, w1c -/
def GD_SV_OPEN (n : Nat) : Fld := ⟨0x20160080 + 0x8 * n, 12, 1⟩
/-- R307 GD_SV.SHORT, ro -/
def GD_SV_SHORT (n : Nat) : Fld := ⟨0x20160080 + 0x8 * n, 13, 1⟩
/-- R307 GD_SV.FORCED, ro -/
def GD_SV_FORCED (n : Nat) : Fld := ⟨0x20160080 + 0x8 * n, 14, 1⟩
/-- R307 GD_SV_TRIM.TRIM, rw -/
def GD_SV_TRIM_TRIM (n : Nat) : Fld := ⟨0x20160084 + 0x8 * n, 0, 16⟩
/-- R308 GD_TEST.START, wo -/
def GD_TEST_START : Fld := ⟨0x201600C0, 0, 1⟩
/-- R308 GD_TEST.BUSY, ro -/
def GD_TEST_BUSY : Fld := ⟨0x201600C0, 1, 1⟩
/-- R308 GD_TEST.SKIP, ro -/
def GD_TEST_SKIP : Fld := ⟨0x201600C0, 2, 3⟩
/-- R308 GD_TEST.SKIPOV, ro -/
def GD_TEST_SKIPOV : Fld := ⟨0x201600C0, 5, 1⟩
/-- R308 GD_TEST_RES_0.DSAT, ro -/
def GD_TEST_RES_0_DSAT : Fld := ⟨0x201600C4, 0, 18⟩
/-- R308 GD_TEST_RES_0.FOC, ro -/
def GD_TEST_RES_0_FOC : Fld := ⟨0x201600C4, 18, 3⟩
/-- R308 GD_TEST_RES_0.VGDUV, ro -/
def GD_TEST_RES_0_VGDUV : Fld := ⟨0x201600C4, 21, 3⟩
/-- R308 GD_TEST_RES_1.BSTUV, ro -/
def GD_TEST_RES_1_BSTUV : Fld := ⟨0x201600C8, 0, 9⟩
/-- R308 GD_TEST_RES_1.OV, ro -/
def GD_TEST_RES_1_OV : Fld := ⟨0x201600C8, 9, 3⟩
/-- R308 GD_TEST_RES_1.BCI, ro -/
def GD_TEST_RES_1_BCI : Fld := ⟨0x201600C8, 12, 1⟩
/-- R309 GD_ZDIAG.PORT, rw -/
def GD_ZDIAG_PORT : Fld := ⟨0x201600D0, 0, 2⟩
/-- R309 GD_ZDIAG.START, wo -/
def GD_ZDIAG_START : Fld := ⟨0x201600D0, 2, 1⟩
/-- R309 GD_ZDIAG.BUSY, ro -/
def GD_ZDIAG_BUSY : Fld := ⟨0x201600D0, 3, 1⟩
/-- R309 GD_ZDIAG.NOLINK, w1c -/
def GD_ZDIAG_NOLINK : Fld := ⟨0x201600D0, 4, 1⟩
/-- R309 GD_ZDIAG_RES.U, ro -/
def GD_ZDIAG_RES_U : Fld := ⟨0x201600D4, 0, 3⟩
/-- R309 GD_ZDIAG_RES.V, ro -/
def GD_ZDIAG_RES_V : Fld := ⟨0x201600D4, 3, 3⟩
/-- R309 GD_ZDIAG_RES.W, ro -/
def GD_ZDIAG_RES_W : Fld := ⟨0x201600D4, 6, 3⟩
/-- R334 LG_STATUS.GSTATE, ro -/
def LG_STATUS_GSTATE : Fld := ⟨0x20170000, 0, 2⟩
/-- R334 LG_STATUS.FCAUSE, ro -/
def LG_STATUS_FCAUSE : Fld := ⟨0x20170000, 4, 3⟩
/-- R334 LG_STATUS.LDCLK, ro -/
def LG_STATUS_LDCLK : Fld := ⟨0x20170000, 8, 1⟩
/-- R334 LG_STATUS.RCCLK, ro -/
def LG_STATUS_RCCLK : Fld := ⟨0x20170000, 9, 1⟩
/-- R334 LG_STATUS.CLKGOOD, ro -/
def LG_STATUS_CLKGOOD : Fld := ⟨0x20170000, 10, 1⟩
/-- R334 LG_STATUS.KFAULT, ro -/
def LG_STATUS_KFAULT : Fld := ⟨0x20170000, 11, 1⟩
/-- R334 LG_STATUS.SLOSS, ro -/
def LG_STATUS_SLOSS : Fld := ⟨0x20170000, 12, 1⟩
/-- R334 LG_STATUS.REFUSED, w1c -/
def LG_STATUS_REFUSED : Fld := ⟨0x20170000, 13, 1⟩
/-- R334 LG_STATUS.REARMS, ro -/
def LG_STATUS_REARMS : Fld := ⟨0x20170000, 14, 2⟩
/-- R335 LG_CHAL.C, ro -/
def LG_CHAL_C : Fld := ⟨0x20170010, 0, 16⟩
/-- R335 LG_CHAL.N, ro -/
def LG_CHAL_N : Fld := ⟨0x20170010, 16, 8⟩
/-- R335 LG_CHAL.PEND, ro -/
def LG_CHAL_PEND : Fld := ⟨0x20170010, 24, 1⟩
/-- R335 LG_CHAL.SUSP, ro -/
def LG_CHAL_SUSP : Fld := ⟨0x20170010, 25, 1⟩
/-- R335 LG_ANSWER.A, wo -/
def LG_ANSWER_A : Fld := ⟨0x20170014, 0, 16⟩
/-- R335 LG_ANSWER.N, wo -/
def LG_ANSWER_N : Fld := ⟨0x20170014, 16, 8⟩
/-- R336 LG_WD.OPEN, rwl -/
def LG_WD_OPEN : Fld := ⟨0x20170018, 0, 7⟩
/-- R336 LG_WD.CLOSE, rwl -/
def LG_WD_CLOSE : Fld := ⟨0x20170018, 8, 7⟩
/-- R336 LG_WD.KEY, rwl -/
def LG_WD_KEY : Fld := ⟨0x20170018, 16, 16⟩
/-- R337 LG_WD_STAT.CONSEC, ro -/
def LG_WD_STAT_CONSEC : Fld := ⟨0x2017001C, 0, 8⟩
/-- R337 LG_WD_STAT.MISS1, ro -/
def LG_WD_STAT_MISS1 : Fld := ⟨0x2017001C, 8, 1⟩
/-- R337 LG_WD_STAT.EARLY, w1c -/
def LG_WD_STAT_EARLY : Fld := ⟨0x2017001C, 9, 1⟩
/-- R337 LG_WD_STAT.LATE, w1c -/
def LG_WD_STAT_LATE : Fld := ⟨0x2017001C, 10, 1⟩
/-- R337 LG_WD_STAT.WRONG, w1c -/
def LG_WD_STAT_WRONG : Fld := ⟨0x2017001C, 11, 1⟩
/-- R337 LG_WD_STAT.EXTRA, w1c -/
def LG_WD_STAT_EXTRA : Fld := ⟨0x2017001C, 12, 1⟩
/-- R337 LG_WD_STAT.MISSCNT, ro -/
def LG_WD_STAT_MISSCNT : Fld := ⟨0x2017001C, 16, 16⟩
/-- R338 LG_CONT.KMCMD, ro -/
def LG_CONT_KMCMD : Fld := ⟨0x20170030, 0, 1⟩
/-- R338 LG_CONT.KPCMD, ro -/
def LG_CONT_KPCMD : Fld := ⟨0x20170030, 1, 1⟩
/-- R338 LG_CONT.KM_NO, ro -/
def LG_CONT_KM_NO : Fld := ⟨0x20170030, 2, 1⟩
/-- R338 LG_CONT.KM_NC, ro -/
def LG_CONT_KM_NC : Fld := ⟨0x20170030, 3, 1⟩
/-- R338 LG_CONT.KP_NO, ro -/
def LG_CONT_KP_NO : Fld := ⟨0x20170030, 4, 1⟩
/-- R338 LG_CONT.KP_NC, ro -/
def LG_CONT_KP_NC : Fld := ⟨0x20170030, 5, 1⟩
/-- R338 LG_CONT.KMBAD, w1c -/
def LG_CONT_KMBAD : Fld := ⟨0x20170030, 6, 1⟩
/-- R338 LG_CONT.KPBAD, w1c -/
def LG_CONT_KPBAD : Fld := ⟨0x20170030, 7, 1⟩
/-- R338 LG_CONT.KMIS, ro -/
def LG_CONT_KMIS : Fld := ⟨0x20170030, 8, 8⟩
/-- R338 LG_CONT.KMOFF, wo -/
def LG_CONT_KMOFF : Fld := ⟨0x20170030, 16, 1⟩
/-- R339 LG_CKW.CKTOL, rwl -/
def LG_CKW_CKTOL : Fld := ⟨0x20170040, 0, 5⟩
/-- R339 LG_CKW.COUNT, ro -/
def LG_CKW_COUNT : Fld := ⟨0x20170040, 16, 11⟩
/-- R340 LG_PORT.REQ, ro -/
def LG_PORT_REQ : Fld := ⟨0x20170050, 0, 3⟩
/-- R340 LG_PORT.GRANT, ro -/
def LG_PORT_GRANT : Fld := ⟨0x20170050, 4, 3⟩
/-- R340 LG_PORT.WHOLD, ro -/
def LG_PORT_WHOLD : Fld := ⟨0x20170050, 8, 3⟩
/-- R341 LG_PARK.TMAX, rwl -/
def LG_PARK_TMAX : Fld := ⟨0x20170060, 0, 7⟩
/-- R341 LG_PARK.RUN, ro -/
def LG_PARK_RUN : Fld := ⟨0x20170060, 8, 1⟩
/-- R341 LG_PARK.FIRED, w1c -/
def LG_PARK_FIRED : Fld := ⟨0x20170060, 9, 1⟩
/-- R341 LG_PARK.LEFT, ro -/
def LG_PARK_LEFT : Fld := ⟨0x20170060, 16, 7⟩
/-- R342 LG_REARM.VALUE, wo -/
def LG_REARM : Fld := ⟨0x20170070, 0, 32⟩
/-- R342 LG_KOPS.KM, ro -/
def LG_KOPS_KM : Fld := ⟨0x20170080, 0, 16⟩
/-- R342 LG_KOPS.KP, ro -/
def LG_KOPS_KP : Fld := ⟨0x20170080, 16, 16⟩
/-- R342 LG_CTRL.LOCK, w1s -/
def LG_CTRL_LOCK : Fld := ⟨0x201700F0, 31, 1⟩

end Reg

/-- The SYS registers. -/
def regsSys : List RegDef := [
  -- SYS_ID
  ⟨0x20000000, 1, 0x0, 1, 0x0, 32, [⟨16, 16, .ro, .any⟩, ⟨8, 8, .ro, .any⟩, ⟨0, 2, .ro, .any⟩]⟩,
  -- SYS_STATE
  ⟨0x20000004, 1, 0x0, 1, 0x0, 32, [⟨0, 4, .ro, .any⟩, ⟨4, 4, .ro, .any⟩, ⟨8, 1, .ro, .any⟩, ⟨9, 1, .ro, .any⟩, ⟨16, 3, .ro, .any⟩]⟩,
  -- SYS_RET_STATUS
  ⟨0x20000008, 1, 0x0, 1, 0x0, 32, [⟨0, 2, .ro, .any⟩, ⟨2, 1, .ro, .any⟩, ⟨3, 1, .w1c, .any⟩, ⟨8, 8, .ro, .any⟩, ⟨16, 16, .ro, .any⟩]⟩,
  -- SYS_RET_CTRL
  ⟨0x2000000C, 1, 0x0, 1, 0x0, 32, [⟨0, 1, .wo, .any⟩]⟩,
  -- SYS_FEAT_CTRL
  ⟨0x20000010, 1, 0x0, 1, 0x0, 32, [⟨0, 1, .w1s, .any⟩, ⟨1, 1, .w1c, .any⟩]⟩,
  -- SYS_FEAT_OFFER
  ⟨0x20000020, 4, 0x4, 1, 0x0, 32, [⟨0, 32, .ro, .any⟩]⟩,
  -- SYS_FEAT_ACCEPT
  ⟨0x20000030, 4, 0x4, 1, 0x0, 32, [⟨0, 32, .rwl, .any⟩]⟩,
  -- SYS_HOSTFEAT
  ⟨0x20000040, 4, 0x10, 4, 0x4, 32, [⟨0, 32, .ro, .any⟩]⟩,
  -- SYS_ARM
  ⟨0x20000080, 1, 0x0, 1, 0x0, 32, [⟨0, 1, .wo, .any⟩, ⟨1, 1, .w1c, .any⟩, ⟨8, 3, .ro, .any⟩]⟩,
  -- SYS_IMG_STATUS
  ⟨0x20000090, 1, 0x0, 1, 0x0, 32, [⟨0, 3, .ro, .any⟩, ⟨4, 6, .ro, .any⟩, ⟨12, 20, .ro, .any⟩]⟩,
  -- SYS_IMG_VERSION
  ⟨0x20000094, 1, 0x0, 1, 0x0, 32, [⟨0, 32, .ro, .any⟩]⟩,
  -- SYS_IMG_INFO
  ⟨0x20000098, 1, 0x0, 1, 0x0, 32, [⟨0, 8, .ro, .any⟩, ⟨8, 2, .ro, .any⟩, ⟨16, 8, .ro, .any⟩]⟩,
  -- SYS_IMG_DIGEST
  ⟨0x200000A0, 8, 0x4, 1, 0x0, 32, [⟨0, 32, .ro, .any⟩]⟩,
  -- SYS_IMG_FEATREQ
  ⟨0x200000C0, 4, 0x4, 1, 0x0, 32, [⟨0, 32, .ro, .any⟩]⟩]

/-- The ROLE registers. -/
def regsRole : List RegDef := [
  -- ROLE_FUNC
  ⟨0x20010000, 5, 0x4, 1, 0x0, 32, [⟨0, 3, .ro, .any⟩, ⟨4, 2, .ro, .any⟩, ⟨8, 2, .ro, .any⟩, ⟨10, 2, .ro, .any⟩, ⟨12, 2, .ro, .any⟩, ⟨14, 2, .ro, .any⟩, ⟨16, 4, .ro, .any⟩, ⟨20, 3, .ro, .any⟩, ⟨23, 1, .ro, .any⟩]⟩,
  -- ROLE_AUTUMN
  ⟨0x20010020, 5, 0x4, 1, 0x0, 32, [⟨0, 32, .ro, .any⟩]⟩,
  -- ROLE_ACCUSE
  ⟨0x20010040, 1, 0x0, 1, 0x0, 32, [⟨0, 10, .rw, .any⟩, ⟨10, 5, .rw, .any⟩]⟩,
  -- ROLE_VOTE_IN
  ⟨0x20010050, 3, 0x4, 1, 0x0, 32, [⟨0, 10, .ro, .any⟩, ⟨10, 5, .ro, .any⟩, ⟨16, 1, .ro, .any⟩, ⟨17, 1, .w1c, .any⟩, ⟨18, 1, .w1c, .any⟩]⟩,
  -- ROLE_REFWD
  ⟨0x20010060, 5, 0x4, 1, 0x0, 32, [⟨0, 10, .rwl, .span 5 100⟩, ⟨12, 2, .rwl, .span 1 3⟩, ⟨16, 1, .w1c, .any⟩]⟩,
  -- ROLE_EQX
  ⟨0x20010080, 1, 0x0, 1, 0x0, 32, [⟨0, 8, .ro, .any⟩, ⟨8, 5, .w1c, .any⟩]⟩,
  -- ROLE_EQX_LEFT
  ⟨0x20010084, 1, 0x0, 1, 0x0, 32, [⟨0, 32, .ro, .any⟩]⟩,
  -- ROLE_OVL
  ⟨0x20010088, 1, 0x0, 1, 0x0, 32, [⟨0, 16, .ro, .any⟩, ⟨16, 16, .ro, .any⟩]⟩,
  -- ROLE_CLR
  ⟨0x2001008C, 1, 0x0, 1, 0x0, 32, [⟨0, 5, .wo, .any⟩]⟩,
  -- ROLE_CTRL
  ⟨0x20010090, 1, 0x0, 1, 0x0, 32, [⟨0, 1, .w1s, .any⟩]⟩,
  -- ROLE_SEQ
  ⟨0x20010100, 5, 0x4, 1, 0x0, 32, [⟨0, 32, .ro, .any⟩]⟩]

/-- The CM registers. -/
def regsCm : List RegDef := [
  -- CM_STATUS
  ⟨0x20020000, 1, 0x0, 1, 0x0, 32, [⟨0, 2, .ro, .any⟩, ⟨2, 2, .ro, .any⟩, ⟨4, 2, .ro, .any⟩, ⟨6, 2, .ro, .any⟩, ⟨8, 2, .ro, .any⟩, ⟨10, 2, .ro, .any⟩, ⟨12, 3, .ro, .any⟩, ⟨16, 3, .ro, .any⟩, ⟨20, 1, .ro, .any⟩, ⟨24, 4, .ro, .any⟩, ⟨28, 4, .ro, .any⟩]⟩,
  -- CM_CTRL
  ⟨0x20020004, 1, 0x0, 1, 0x0, 32, [⟨0, 14, .rwl, .span 10 10000⟩, ⟨16, 3, .rwl, .any⟩, ⟨31, 1, .w1s, .any⟩]⟩,
  -- CM_CKPT
  ⟨0x20020010, 1, 0x0, 1, 0x0, 32, [⟨0, 32, .wo, .any⟩]⟩,
  -- CM_NUM
  ⟨0x20020020, 2, 0x8, 1, 0x0, 32, [⟨0, 32, .ro, .any⟩]⟩,
  -- CM_SIG
  ⟨0x20020040, 4, 0x8, 1, 0x0, 64, [⟨0, 64, .ro, .any⟩]⟩,
  -- CM_MISMATCH
  ⟨0x20020080, 1, 0x0, 1, 0x0, 32, [⟨0, 1, .ro, .any⟩, ⟨1, 2, .ro, .any⟩, ⟨4, 1, .ro, .any⟩, ⟨5, 1, .ro, .any⟩, ⟨6, 2, .ro, .any⟩, ⟨8, 8, .ro, .any⟩, ⟨16, 1, .w1c, .any⟩]⟩,
  -- CM_MISMATCH_NUM
  ⟨0x20020084, 1, 0x0, 1, 0x0, 32, [⟨0, 32, .ro, .any⟩]⟩,
  -- CM_ENTRY
  ⟨0x200200A0, 2, 0x8, 1, 0x0, 64, [⟨0, 64, .rwl, .any⟩]⟩,
  -- CM_OBUF_HIGH
  ⟨0x200200C0, 1, 0x0, 1, 0x0, 32, [⟨0, 8, .w1c, .any⟩, ⟨8, 8, .w1c, .any⟩, ⟨16, 8, .w1c, .any⟩, ⟨24, 8, .w1c, .any⟩]⟩]

/-- The FC registers. -/
def regsFc : List RegDef := [
  -- FC_STICKY
  ⟨0x20030000, 32, 0x4, 1, 0x0, 32, [⟨0, 32, .w1c, .any⟩]⟩,
  -- FC_PEND
  ⟨0x20030080, 1, 0x0, 1, 0x0, 32, [⟨0, 32, .ro, .any⟩]⟩,
  -- FC_STATUS
  ⟨0x20030084, 1, 0x0, 1, 0x0, 32, [⟨0, 16, .ro, .any⟩, ⟨16, 1, .ro, .any⟩, ⟨17, 1, .ro, .any⟩, ⟨18, 1, .ro, .any⟩]⟩,
  -- FC_REACT
  ⟨0x200300A0, 8, 0x4, 1, 0x0, 32, [⟨0, 32, .ro, .any⟩]⟩,
  -- FC_NB
  ⟨0x200300C0, 3, 0x4, 1, 0x0, 32, [⟨0, 16, .ro, .any⟩, ⟨16, 1, .ro, .any⟩]⟩,
  -- FC_SEV
  ⟨0x20030100, 128, 0x4, 1, 0x0, 32, [⟨0, 32, .ro, .any⟩]⟩,
  -- FC_INJ
  ⟨0x20030300, 1, 0x0, 1, 0x0, 32, [⟨0, 10, .rw, .any⟩, ⟨16, 1, .wo, .any⟩, ⟨17, 1, .wo, .any⟩, ⟨18, 1, .w1c, .any⟩]⟩]

/-- The PD registers. -/
def regsPd : List RegDef := [
  -- PD_STATE
  ⟨0x20040000, 1, 0x0, 1, 0x0, 32, [⟨0, 4, .ro, .any⟩, ⟨4, 4, .ro, .any⟩, ⟨8, 4, .ro, .any⟩, ⟨12, 4, .ro, .any⟩, ⟨16, 4, .ro, .any⟩, ⟨20, 4, .ro, .any⟩, ⟨24, 4, .ro, .any⟩, ⟨28, 4, .ro, .any⟩]⟩,
  -- PD_REQ
  ⟨0x20040004, 1, 0x0, 1, 0x0, 32, [⟨0, 3, .rw, .any⟩, ⟨4, 2, .rw, .span 0 2⟩, ⟨8, 3, .rw, .span 0 4⟩, ⟨16, 1, .wo, .any⟩, ⟨17, 1, .ro, .any⟩, ⟨18, 1, .w1c, .any⟩, ⟨19, 2, .ro, .any⟩, ⟨21, 5, .ro, .any⟩, ⟨26, 3, .ro, .any⟩]⟩,
  -- PD_POLICY
  ⟨0x20040010, 8, 0x4, 1, 0x0, 32, [⟨0, 2, .ro, .any⟩, ⟨4, 4, .ro, .any⟩]⟩,
  -- PD_ACCT
  ⟨0x20040040, 8, 0x4, 1, 0x0, 32, [⟨0, 16, .ro, .any⟩, ⟨16, 5, .ro, .any⟩, ⟨21, 3, .ro, .any⟩, ⟨31, 1, .ro, .any⟩]⟩,
  -- PD_STALL
  ⟨0x20040080, 8, 0x4, 1, 0x0, 32, [⟨0, 16, .ro, .any⟩, ⟨16, 16, .ro, .any⟩]⟩,
  -- PD_CTRL
  ⟨0x200400C0, 1, 0x0, 1, 0x0, 32, [⟨0, 1, .wo, .any⟩, ⟨1, 1, .rw, .any⟩]⟩]

/-- The CK registers. -/
def regsCk : List RegDef := [
  -- CK_STAT
  ⟨0x20050000, 1, 0x0, 1, 0x0, 32, [⟨0, 3, .ro, .any⟩, ⟨3, 1, .ro, .any⟩, ⟨4, 2, .ro, .any⟩]⟩,
  -- CK_FM_CTRL
  ⟨0x20050010, 1, 0x0, 1, 0x0, 32, [⟨0, 4, .rw, .any⟩, ⟨8, 4, .rw, .any⟩, ⟨16, 1, .rw, .any⟩, ⟨17, 1, .wo, .any⟩, ⟨18, 1, .ro, .any⟩, ⟨19, 1, .w1c, .any⟩, ⟨20, 1, .w1c, .any⟩, ⟨21, 1, .rw, .any⟩]⟩,
  -- CK_FM_WIN
  ⟨0x20050014, 1, 0x0, 1, 0x0, 32, [⟨0, 24, .rw, .span 1 16777215⟩]⟩,
  -- CK_FM_CNT
  ⟨0x20050018, 1, 0x0, 1, 0x0, 32, [⟨0, 32, .ro, .any⟩]⟩,
  -- CK_FM_LO
  ⟨0x2005001C, 1, 0x0, 1, 0x0, 32, [⟨0, 32, .rw, .any⟩]⟩,
  -- CK_FM_HI
  ⟨0x20050020, 1, 0x0, 1, 0x0, 32, [⟨0, 32, .rw, .any⟩]⟩]

/-- The TS registers. -/
def regsTs : List RegDef := [
  -- TS_NOW
  ⟨0x20060000, 1, 0x0, 1, 0x0, 64, [⟨0, 64, .ro, .any⟩]⟩,
  -- TS_NOW_FRAC
  ⟨0x20060008, 1, 0x0, 1, 0x0, 32, [⟨0, 16, .ro, .any⟩]⟩,
  -- TS_STAT
  ⟨0x20060010, 1, 0x0, 1, 0x0, 32, [⟨0, 1, .ro, .any⟩, ⟨1, 1, .ro, .any⟩, ⟨2, 1, .ro, .any⟩, ⟨3, 1, .ro, .any⟩, ⟨4, 3, .ro, .any⟩]⟩,
  -- TS_NBOFS
  ⟨0x20060020, 3, 0x4, 1, 0x0, 32, [⟨0, 32, .ro, .any⟩]⟩,
  -- TS_RATE
  ⟨0x20060030, 1, 0x0, 1, 0x0, 32, [⟨0, 32, .ro, .any⟩]⟩,
  -- TS_JUMP
  ⟨0x20060040, 1, 0x0, 1, 0x0, 32, [⟨0, 1, .ro, .any⟩, ⟨1, 1, .wo, .any⟩, ⟨2, 1, .wo, .any⟩, ⟨3, 1, .wo, .any⟩, ⟨4, 1, .w1c, .any⟩, ⟨5, 1, .w1c, .any⟩]⟩,
  -- TS_JUMP_OFS
  ⟨0x20060048, 1, 0x0, 1, 0x0, 64, [⟨0, 64, .ro, .any⟩]⟩,
  -- TS_JTHR
  ⟨0x20060050, 1, 0x0, 1, 0x0, 32, [⟨0, 32, .rw, .span 1000 1000000000⟩]⟩,
  -- TS_STEP
  ⟨0x20060058, 1, 0x0, 1, 0x0, 64, [⟨0, 64, .ro, .any⟩]⟩,
  -- TS_STEP_AT
  ⟨0x20060060, 1, 0x0, 1, 0x0, 64, [⟨0, 64, .ro, .any⟩]⟩,
  -- TS_STEPCNT
  ⟨0x20060068, 1, 0x0, 1, 0x0, 32, [⟨0, 32, .ro, .any⟩]⟩]

/-- The TP registers. -/
def regsTp : List RegDef := [
  -- TP_CFG
  ⟨0x20060100, 4, 0x20, 1, 0x0, 32, [⟨0, 2, .rw, .span 0 2⟩, ⟨2, 1, .rw, .any⟩, ⟨3, 1, .rw, .any⟩, ⟨4, 28, .rw, .any⟩]⟩,
  -- TP_START
  ⟨0x20060108, 4, 0x20, 1, 0x0, 64, [⟨0, 64, .rw, .any⟩]⟩,
  -- TP_PERIOD
  ⟨0x20060110, 4, 0x20, 1, 0x0, 32, [⟨0, 32, .rw, .span 1000 4294967295⟩]⟩,
  -- TP_STAT
  ⟨0x20060114, 4, 0x20, 1, 0x0, 32, [⟨0, 1, .w1c, .any⟩, ⟨1, 1, .w1c, .any⟩, ⟨16, 16, .ro, .any⟩]⟩]

/-- The SZ registers. -/
def regsSz : List RegDef := [
  -- SZ_CTRL
  ⟨0x20070000, 1, 0x0, 1, 0x0, 32, [⟨0, 1, .rw, .any⟩, ⟨1, 1, .rw, .any⟩, ⟨2, 1, .rw, .any⟩, ⟨3, 1, .rw, .any⟩]⟩,
  -- SZ_STAT
  ⟨0x20070010, 2, 0x4, 1, 0x0, 32, [⟨0, 3, .ro, .any⟩, ⟨3, 1, .ro, .any⟩, ⟨4, 3, .ro, .any⟩, ⟨7, 1, .ro, .any⟩, ⟨8, 3, .ro, .any⟩, ⟨12, 6, .ro, .any⟩, ⟨18, 3, .ro, .any⟩, ⟨21, 1, .ro, .any⟩, ⟨22, 1, .ro, .any⟩, ⟨23, 1, .ro, .any⟩, ⟨24, 4, .ro, .any⟩]⟩,
  -- SZ_EVENT
  ⟨0x20070018, 2, 0x4, 1, 0x0, 32, [⟨0, 1, .w1c, .any⟩, ⟨1, 1, .w1c, .any⟩, ⟨2, 1, .w1c, .any⟩, ⟨3, 1, .w1c, .any⟩, ⟨4, 1, .w1c, .any⟩, ⟨5, 1, .w1c, .any⟩, ⟨6, 1, .w1c, .any⟩, ⟨7, 1, .w1c, .any⟩]⟩,
  -- SZ_MODE_REQ
  ⟨0x20070020, 1, 0x0, 1, 0x0, 32, [⟨0, 3, .rw, .any⟩, ⟨4, 3, .rw, .any⟩]⟩,
  -- SZ_INFO
  ⟨0x20070024, 1, 0x0, 1, 0x0, 32, [⟨0, 1, .ro, .any⟩, ⟨1, 2, .ro, .any⟩, ⟨3, 8, .ro, .any⟩, ⟨11, 4, .ro, .any⟩]⟩,
  -- SZ_RXOK
  ⟨0x20070100, 2, 0x40, 1, 0x0, 32, [⟨0, 32, .ro, .any⟩]⟩,
  -- SZ_TXOK
  ⟨0x20070104, 2, 0x40, 1, 0x0, 32, [⟨0, 32, .ro, .any⟩]⟩,
  -- SZ_EMPTY
  ⟨0x20070108, 2, 0x40, 1, 0x0, 32, [⟨0, 32, .ro, .any⟩]⟩,
  -- SZ_WRONG
  ⟨0x2007010C, 2, 0x40, 1, 0x0, 32, [⟨0, 32, .ro, .any⟩]⟩,
  -- SZ_TXSKIP
  ⟨0x20070110, 2, 0x40, 1, 0x0, 32, [⟨0, 32, .ro, .any⟩]⟩,
  -- SZ_TXLATE
  ⟨0x20070114, 2, 0x40, 1, 0x0, 32, [⟨0, 32, .ro, .any⟩]⟩,
  -- SZ_REFMISS
  ⟨0x20070118, 2, 0x40, 1, 0x0, 32, [⟨0, 32, .ro, .any⟩]⟩,
  -- SZ_ERRF
  ⟨0x2007011C, 2, 0x40, 1, 0x0, 32, [⟨0, 32, .ro, .any⟩]⟩,
  -- SZ_MCNT
  ⟨0x20070120, 2, 0x40, 1, 0x0, 32, [⟨0, 16, .ro, .any⟩]⟩,
  -- SZ_ERRC
  ⟨0x20070124, 2, 0x40, 1, 0x0, 32, [⟨0, 8, .ro, .any⟩, ⟨8, 8, .ro, .any⟩, ⟨16, 1, .ro, .any⟩]⟩,
  -- SZ_REFT
  ⟨0x20070128, 2, 0x40, 1, 0x0, 64, [⟨0, 64, .ro, .any⟩]⟩,
  -- SZ_ENT_IDX
  ⟨0x20070200, 1, 0x0, 1, 0x0, 32, [⟨0, 12, .rw, .any⟩]⟩,
  -- SZ_ENT
  ⟨0x20070210, 4, 0x4, 1, 0x0, 32, [⟨0, 32, .ro, .any⟩]⟩,
  -- SZ_BUF
  ⟨0x20071000, 2, 0x1000, 1024, 0x4, 32, [⟨0, 32, .rw, .any⟩]⟩,
  -- SZ_BST
  ⟨0x20073000, 2, 0x100, 64, 0x4, 32, [⟨0, 16, .ro, .any⟩, ⟨16, 1, .w1s, .any⟩, ⟨17, 1, .w1c, .any⟩, ⟨18, 1, .ro, .any⟩, ⟨19, 1, .ro, .any⟩, ⟨20, 1, .rw, .any⟩, ⟨21, 1, .ro, .any⟩, ⟨22, 6, .ro, .any⟩]⟩]

/-- The EN registers. -/
def regsEn : List RegDef := [
  -- EN_PTP_CFG
  ⟨0x20080800, 1, 0x0, 1, 0x0, 32, [⟨0, 4, .rw, .oneOf [0, 1, 2, 3, 13, 14, 15]⟩, ⟨16, 16, .rw, .span 50 10000⟩]⟩,
  -- EN_PTP_STAT
  ⟨0x20080804, 1, 0x0, 1, 0x0, 32, [⟨0, 1, .ro, .any⟩, ⟨1, 1, .ro, .any⟩, ⟨2, 1, .ro, .any⟩, ⟨8, 4, .ro, .any⟩]⟩,
  -- EN_GMID
  ⟨0x20080808, 1, 0x0, 1, 0x0, 64, [⟨0, 64, .ro, .any⟩]⟩,
  -- EN_OFS
  ⟨0x20080810, 1, 0x0, 1, 0x0, 32, [⟨0, 32, .ro, .any⟩]⟩,
  -- EN_MLD
  ⟨0x20080814, 1, 0x0, 1, 0x0, 32, [⟨0, 32, .ro, .any⟩]⟩,
  -- EN_RXCORR
  ⟨0x20080818, 1, 0x0, 1, 0x0, 32, [⟨0, 32, .rw, .any⟩]⟩,
  -- EN_TXCORR
  ⟨0x2008081C, 1, 0x0, 1, 0x0, 32, [⟨0, 32, .rw, .any⟩]⟩,
  -- EN_MAC
  ⟨0x200808F0, 1, 0x0, 1, 0x0, 64, [⟨0, 48, .ro, .any⟩]⟩]

/-- The IB registers. -/
def regsIb : List RegDef := [
  -- IB_STAT
  ⟨0x20090000, 1, 0x0, 1, 0x0, 32, [⟨0, 8, .ro, .any⟩, ⟨8, 1, .ro, .any⟩, ⟨9, 1, .ro, .any⟩, ⟨10, 1, .w1c, .any⟩]⟩,
  -- IB_PREF
  ⟨0x20090004, 1, 0x0, 1, 0x0, 32, [⟨0, 8, .rwl, .span 128 247⟩]⟩,
  -- IB_NAME
  ⟨0x20090008, 1, 0x0, 1, 0x0, 64, [⟨0, 64, .ro, .any⟩]⟩,
  -- IB_CNT
  ⟨0x20090010, 1, 0x0, 1, 0x0, 32, [⟨0, 16, .ro, .any⟩, ⟨16, 16, .ro, .any⟩]⟩,
  -- IB_CTRL
  ⟨0x200900F0, 1, 0x0, 1, 0x0, 32, [⟨31, 1, .w1s, .any⟩]⟩]

/-- The HQ registers. -/
def regsHq : List RegDef := [
  -- HQ_CFG
  ⟨0x200A0000, 16, 0x20, 1, 0x0, 32, [⟨0, 8, .ro, .any⟩, ⟨8, 1, .ro, .any⟩, ⟨16, 9, .ro, .any⟩]⟩,
  -- HQ_STAT
  ⟨0x200A0004, 16, 0x20, 1, 0x0, 32, [⟨0, 9, .ro, .any⟩, ⟨9, 9, .ro, .any⟩, ⟨18, 1, .w1c, .any⟩, ⟨19, 1, .w1c, .any⟩, ⟨20, 1, .w1c, .any⟩, ⟨21, 1, .w1c, .any⟩]⟩,
  -- HQ_PTR
  ⟨0x200A0008, 16, 0x20, 1, 0x0, 32, [⟨0, 16, .ro, .any⟩, ⟨16, 16, .ro, .any⟩]⟩,
  -- HQ_CMD
  ⟨0x200A000C, 16, 0x20, 1, 0x0, 32, [⟨0, 1, .wo, .any⟩, ⟨1, 1, .wo, .any⟩]⟩,
  -- HQ_BASE
  ⟨0x200A0010, 16, 0x20, 1, 0x0, 64, [⟨0, 64, .rwl, .any⟩]⟩,
  -- HQ_DROP
  ⟨0x200A0018, 16, 0x20, 1, 0x0, 32, [⟨0, 16, .ro, .any⟩, ⟨16, 16, .ro, .any⟩]⟩,
  -- HQ_PORT
  ⟨0x200A0400, 4, 0x20, 1, 0x0, 32, [⟨0, 1, .ro, .any⟩, ⟨1, 2, .ro, .any⟩, ⟨3, 2, .ro, .any⟩, ⟨5, 2, .ro, .any⟩, ⟨7, 1, .ro, .any⟩, ⟨8, 5, .ro, .any⟩]⟩,
  -- HQ_PERM
  ⟨0x200A0404, 4, 0x20, 1, 0x0, 32, [⟨0, 32, .ro, .any⟩]⟩,
  -- HQ_PCNT
  ⟨0x200A0408, 4, 0x20, 1, 0x0, 32, [⟨0, 16, .ro, .any⟩, ⟨16, 8, .ro, .any⟩, ⟨24, 8, .ro, .any⟩]⟩,
  -- HQ_AUTH
  ⟨0x200A0500, 5, 0x4, 1, 0x0, 32, [⟨0, 4, .ro, .any⟩, ⟨4, 1, .ro, .any⟩, ⟨5, 1, .ro, .any⟩]⟩,
  -- HQ_CTRL
  ⟨0x200A07F0, 1, 0x0, 1, 0x0, 32, [⟨31, 1, .w1s, .any⟩]⟩]

/-- The SE registers. -/
def regsSe : List RegDef := [
  -- SE_STATUS
  ⟨0x200B0000, 1, 0x0, 1, 0x0, 32, [⟨0, 1, .ro, .any⟩, ⟨1, 1, .ro, .any⟩, ⟨2, 1, .w1c, .any⟩, ⟨3, 1, .w1c, .any⟩, ⟨4, 1, .w1c, .any⟩, ⟨5, 1, .w1c, .any⟩, ⟨8, 1, .ro, .any⟩, ⟨9, 1, .ro, .any⟩, ⟨10, 1, .ro, .any⟩, ⟨11, 1, .ro, .any⟩]⟩,
  -- SE_CMD
  ⟨0x200B0010, 2, 0x10, 1, 0x0, 32, [⟨0, 8, .rw, .any⟩, ⟨8, 9, .rw, .span 0 256⟩, ⟨31, 1, .wo, .any⟩]⟩,
  -- SE_RES
  ⟨0x200B0014, 2, 0x10, 1, 0x0, 32, [⟨0, 8, .ro, .any⟩, ⟨8, 9, .ro, .any⟩]⟩,
  -- SE_LC
  ⟨0x200B0040, 1, 0x0, 1, 0x0, 32, [⟨0, 2, .ro, .any⟩, ⟨2, 1, .ro, .any⟩, ⟨3, 2, .ro, .any⟩, ⟨8, 4, .ro, .any⟩, ⟨12, 2, .ro, .any⟩, ⟨14, 1, .ro, .any⟩]⟩,
  -- SE_DBG
  ⟨0x200B0044, 1, 0x0, 1, 0x0, 32, [⟨0, 1, .ro, .any⟩, ⟨1, 1, .ro, .any⟩, ⟨2, 5, .ro, .any⟩, ⟨12, 20, .ro, .any⟩]⟩,
  -- SE_SERIAL
  ⟨0x200B0048, 1, 0x0, 1, 0x0, 64, [⟨0, 64, .ro, .any⟩]⟩,
  -- SE_VER
  ⟨0x200B0050, 1, 0x0, 1, 0x0, 32, [⟨0, 16, .ro, .any⟩, ⟨16, 16, .ro, .any⟩]⟩,
  -- SE_REQ
  ⟨0x200B0100, 2, 0x100, 64, 0x4, 32, [⟨0, 32, .rw, .any⟩]⟩,
  -- SE_RSP
  ⟨0x200B0400, 2, 0x100, 64, 0x4, 32, [⟨0, 32, .ro, .any⟩]⟩]

/-- The UP registers. -/
def regsUp : List RegDef := [
  -- UP_STATE
  ⟨0x200C0000, 1, 0x0, 1, 0x0, 32, [⟨0, 4, .ro, .any⟩, ⟨4, 8, .ro, .any⟩, ⟨12, 1, .ro, .any⟩, ⟨13, 1, .ro, .any⟩, ⟨14, 1, .ro, .any⟩]⟩,
  -- UP_HELD
  ⟨0x200C0004, 1, 0x0, 1, 0x0, 32, [⟨0, 32, .ro, .any⟩]⟩,
  -- UP_TOTAL
  ⟨0x200C0008, 1, 0x0, 1, 0x0, 32, [⟨0, 32, .ro, .any⟩]⟩,
  -- UP_APPLY
  ⟨0x200C000C, 1, 0x0, 1, 0x0, 32, [⟨0, 5, .ro, .any⟩, ⟨16, 16, .ro, .any⟩]⟩,
  -- UP_FLOOR
  ⟨0x200C0010, 1, 0x0, 1, 0x0, 32, [⟨0, 6, .ro, .any⟩]⟩,
  -- UP_CNT
  ⟨0x200C0014, 1, 0x0, 1, 0x0, 32, [⟨0, 16, .ro, .any⟩, ⟨16, 16, .ro, .any⟩]⟩,
  -- UP_VER
  ⟨0x200C0018, 1, 0x0, 1, 0x0, 32, [⟨0, 32, .ro, .any⟩]⟩,
  -- UP_NEWVER
  ⟨0x200C001C, 1, 0x0, 1, 0x0, 32, [⟨0, 32, .ro, .any⟩]⟩,
  -- UP_ACT_DIG
  ⟨0x200C0020, 8, 0x4, 1, 0x0, 32, [⟨0, 32, .ro, .any⟩]⟩,
  -- UP_NEW_DIG
  ⟨0x200C0040, 8, 0x4, 1, 0x0, 32, [⟨0, 32, .ro, .any⟩]⟩]

/-- The BT registers. -/
def regsBt : List RegDef := [
  -- BT_SOL_STAT
  ⟨0x200D0000, 1, 0x0, 1, 0x0, 32, [⟨0, 4, .ro, .any⟩, ⟨4, 1, .ro, .any⟩, ⟨8, 4, .ro, .any⟩]⟩,
  -- BT_SOL_COV
  ⟨0x200D0004, 1, 0x0, 1, 0x0, 32, [⟨0, 10, .ro, .any⟩, ⟨16, 10, .ro, .any⟩]⟩,
  -- BT_SOL_TIME
  ⟨0x200D0010, 4, 0x4, 1, 0x0, 32, [⟨0, 32, .ro, .any⟩]⟩,
  -- BT_REP
  ⟨0x200D0020, 1, 0x0, 1, 0x0, 32, [⟨0, 8, .ro, .any⟩, ⟨8, 7, .ro, .any⟩, ⟨15, 1, .ro, .any⟩]⟩,
  -- BT_FUSE
  ⟨0x200D0024, 1, 0x0, 1, 0x0, 32, [⟨0, 16, .rw, .any⟩, ⟨16, 2, .rw, .any⟩, ⟨28, 1, .wo, .any⟩, ⟨29, 1, .ro, .any⟩, ⟨30, 1, .w1c, .any⟩]⟩,
  -- BT_REP_ADDR
  ⟨0x200D0028, 1, 0x0, 1, 0x0, 32, [⟨0, 16, .ro, .any⟩, ⟨16, 2, .ro, .any⟩]⟩,
  -- BT_SLICE_CTRL
  ⟨0x200D0040, 1, 0x0, 1, 0x0, 32, [⟨0, 1, .rw, .any⟩, ⟨8, 6, .rw, .any⟩, ⟨16, 16, .rw, .span 10 60000⟩]⟩,
  -- BT_SLICE_STAT
  ⟨0x200D0044, 1, 0x0, 1, 0x0, 32, [⟨0, 3, .ro, .any⟩, ⟨3, 1, .ro, .any⟩, ⟨8, 6, .w1c, .any⟩, ⟨16, 8, .ro, .any⟩, ⟨24, 8, .ro, .any⟩]⟩,
  -- BT_SLICE_ADDR
  ⟨0x200D0048, 1, 0x0, 1, 0x0, 32, [⟨0, 16, .ro, .any⟩]⟩,
  -- BT_TEST
  ⟨0x200D0050, 1, 0x0, 1, 0x0, 32, [⟨0, 3, .wo, .any⟩, ⟨3, 1, .wo, .any⟩, ⟨4, 1, .wo, .any⟩]⟩]

/-- The AG registers. -/
def regsAg : List RegDef := [
  -- AG_RUN
  ⟨0x200E0000, 1, 0x0, 1, 0x0, 32, [⟨0, 1, .wo, .any⟩, ⟨1, 1, .ro, .any⟩, ⟨2, 1, .w1c, .any⟩, ⟨16, 16, .ro, .any⟩]⟩,
  -- AG_STAT
  ⟨0x200E0004, 1, 0x0, 1, 0x0, 32, [⟨0, 9, .ro, .any⟩, ⟨16, 9, .ro, .any⟩]⟩,
  -- AG_RING_BASE
  ⟨0x200E0010, 1, 0x0, 1, 0x0, 64, [⟨0, 64, .rw, .any⟩]⟩,
  -- AG_RING_LEN
  ⟨0x200E0018, 1, 0x0, 1, 0x0, 32, [⟨0, 32, .rw, .zeroOr 16 65536⟩]⟩,
  -- AG_RING_TAIL
  ⟨0x200E001C, 1, 0x0, 1, 0x0, 32, [⟨0, 32, .rw, .any⟩]⟩,
  -- AG_RING_HEAD
  ⟨0x200E0020, 1, 0x0, 1, 0x0, 32, [⟨0, 32, .ro, .any⟩]⟩,
  -- AG_HOURS
  ⟨0x200E0028, 1, 0x0, 1, 0x0, 64, [⟨0, 64, .ro, .any⟩]⟩,
  -- AG_TJ
  ⟨0x200E0030, 3, 0x4, 1, 0x0, 32, [⟨0, 32, .ro, .any⟩]⟩,
  -- AG_W
  ⟨0x200E0040, 9, 0x4, 1, 0x0, 32, [⟨0, 32, .ro, .any⟩]⟩,
  -- AG_PRED
  ⟨0x200E0080, 9, 0x10, 3, 0x4, 32, [⟨0, 32, .ro, .any⟩]⟩]

/-- The DE registers. -/
def regsDe : List RegDef := [
  -- DE_CTRL
  ⟨0x20100000, 4, 0x4000, 1, 0x0, 32, [⟨0, 1, .rw, .any⟩, ⟨1, 1, .w1s, .any⟩, ⟨2, 1, .ro, .any⟩, ⟨31, 1, .w1s, .any⟩]⟩,
  -- DE_STATUS
  ⟨0x20100004, 4, 0x4000, 1, 0x0, 32, [⟨0, 1, .ro, .any⟩, ⟨1, 3, .ro, .any⟩, ⟨4, 1, .w1c, .any⟩, ⟨5, 1, .w1c, .any⟩, ⟨6, 1, .w1c, .any⟩, ⟨7, 1, .w1c, .any⟩, ⟨8, 1, .ro, .any⟩, ⟨9, 1, .ro, .any⟩]⟩,
  -- DE_ADDR
  ⟨0x20100008, 4, 0x4000, 1, 0x0, 32, [⟨0, 16, .rw, .any⟩, ⟨16, 1, .rw, .any⟩]⟩,
  -- DE_DATA
  ⟨0x2010000C, 4, 0x4000, 1, 0x0, 32, [⟨0, 32, .rw, .any⟩]⟩,
  -- DE_IMCRC
  ⟨0x20100010, 4, 0x4000, 1, 0x0, 32, [⟨0, 32, .ro, .any⟩]⟩,
  -- DE_PC
  ⟨0x20100014, 4, 0x4000, 1, 0x0, 32, [⟨0, 14, .ro, .any⟩]⟩,
  -- DE_PWM_PHASE
  ⟨0x20100020, 4, 0x4000, 1, 0x0, 32, [⟨0, 32, .rwl, .any⟩]⟩,
  -- DE_PWM_DEAD
  ⟨0x20100024, 4, 0x4000, 1, 0x0, 32, [⟨0, 16, .rwl, .span 64 13333⟩, ⟨16, 16, .rwl, .span 0 13333⟩]⟩,
  -- DE_PWM_BOOT
  ⟨0x20100028, 4, 0x4000, 1, 0x0, 32, [⟨0, 8, .rwl, .any⟩, ⟨16, 16, .rwl, .span 1333 13333⟩]⟩,
  -- DE_PWM_LOCK
  ⟨0x2010002C, 4, 0x4000, 1, 0x0, 32, [⟨0, 2, .ro, .any⟩, ⟨8, 8, .rwl, .span 1 255⟩, ⟨16, 16, .ro, .any⟩]⟩,
  -- DE_PWM_INFO
  ⟨0x20100030, 4, 0x4000, 1, 0x0, 32, [⟨0, 10, .ro, .any⟩]⟩,
  -- DE_REF_FLAGS
  ⟨0x20100040, 4, 0x4000, 1, 0x0, 32, [⟨0, 1, .ro, .any⟩, ⟨1, 1, .ro, .any⟩, ⟨8, 2, .ro, .any⟩, ⟨16, 16, .ro, .any⟩]⟩,
  -- DE_REF_SEQ
  ⟨0x20100044, 4, 0x4000, 1, 0x0, 32, [⟨0, 32, .ro, .any⟩]⟩,
  -- DE_REF_TOT
  ⟨0x20100048, 4, 0x4000, 1, 0x0, 32, [⟨0, 32, .ro, .any⟩]⟩,
  -- DE_REF_SHARE
  ⟨0x2010004C, 4, 0x4000, 1, 0x0, 32, [⟨0, 32, .ro, .any⟩]⟩,
  -- DE_BUDGET
  ⟨0x20100050, 4, 0x4000, 1, 0x0, 32, [⟨0, 16, .ro, .any⟩, ⟨16, 16, .ro, .any⟩]⟩,
  -- DE_OVR
  ⟨0x20100054, 4, 0x4000, 1, 0x0, 32, [⟨0, 8, .ro, .any⟩, ⟨8, 4, .rwl, .span 1 15⟩, ⟨16, 1, .wo, .any⟩]⟩,
  -- DE_MBOX_IN
  ⟨0x20100100, 4, 0x4000, 16, 0x4, 32, [⟨0, 32, .rw, .any⟩]⟩,
  -- DE_MBOX_DB
  ⟨0x20100140, 4, 0x4000, 1, 0x0, 32, [⟨0, 32, .wo, .any⟩]⟩,
  -- DE_MBOX_OUT
  ⟨0x20100180, 4, 0x4000, 16, 0x4, 32, [⟨0, 32, .ro, .any⟩]⟩,
  -- DE_MBOX_OSEQ
  ⟨0x201001C0, 4, 0x4000, 1, 0x0, 32, [⟨0, 16, .ro, .any⟩]⟩]

/-- The DE_MOT registers. -/
def regsDemot : List RegDef := [
  -- DE_MOT_CFG
  ⟨0x20100060, 3, 0x4000, 1, 0x0, 32, [⟨0, 1, .ro, .any⟩, ⟨1, 1, .ro, .any⟩, ⟨2, 1, .rwl, .any⟩, ⟨3, 1, .ro, .any⟩, ⟨4, 8, .rwl, .span 8 255⟩, ⟨12, 3, .rwl, .span 1 7⟩, ⟨16, 8, .rwl, .span 2 255⟩, ⟨24, 8, .rwl, .span 1 255⟩]⟩,
  -- DE_MOT_STAT
  ⟨0x20100064, 3, 0x4000, 1, 0x0, 32, [⟨0, 3, .ro, .any⟩, ⟨3, 1, .ro, .any⟩, ⟨4, 1, .w1c, .any⟩, ⟨5, 1, .w1c, .any⟩, ⟨6, 1, .w1c, .any⟩, ⟨7, 1, .ro, .any⟩, ⟨8, 1, .ro, .any⟩, ⟨9, 1, .ro, .any⟩, ⟨10, 1, .ro, .any⟩, ⟨11, 1, .ro, .any⟩, ⟨12, 1, .ro, .any⟩, ⟨13, 3, .ro, .any⟩, ⟨16, 8, .ro, .any⟩]⟩,
  -- DE_MOT_CTRL
  ⟨0x20100068, 3, 0x4000, 1, 0x0, 32, [⟨31, 1, .w1s, .any⟩]⟩,
  -- DE_MOT_RS
  ⟨0x20100070, 3, 0x4000, 1, 0x0, 32, [⟨0, 32, .rwl, .span 973279855 1065353216⟩]⟩,
  -- DE_MOT_LD
  ⟨0x20100074, 3, 0x4000, 1, 0x0, 32, [⟨0, 32, .rwl, .span 897988541 1008981770⟩]⟩,
  -- DE_MOT_LQ
  ⟨0x20100078, 3, 0x4000, 1, 0x0, 32, [⟨0, 32, .rwl, .span 897988541 1008981770⟩]⟩,
  -- DE_MOT_PSI
  ⟨0x2010007C, 3, 0x4000, 1, 0x0, 32, [⟨0, 32, .rwl, .span 981668463 1065353216⟩]⟩,
  -- DE_MOT_IMAX
  ⟨0x20100080, 3, 0x4000, 1, 0x0, 32, [⟨0, 32, .rwl, .span 1065353216 1125515264⟩]⟩,
  -- DE_MOT_IDMAX
  ⟨0x20100084, 3, 0x4000, 1, 0x0, 32, [⟨0, 32, .rwl, .fpZeroOr 0 1125515264⟩]⟩,
  -- DE_MOT_MMAX
  ⟨0x20100088, 3, 0x4000, 1, 0x0, 32, [⟨0, 32, .rwl, .span 1056964608 1065353216⟩]⟩,
  -- DE_MOT_REVTHR
  ⟨0x2010008C, 3, 0x4000, 1, 0x0, 32, [⟨0, 32, .rwl, .span 1065353216 1148846080⟩]⟩,
  -- DE_MOT_LRTRQ
  ⟨0x20100090, 3, 0x4000, 1, 0x0, 32, [⟨0, 32, .rwl, .span 1008981770 1120403456⟩]⟩,
  -- DE_MOT_LRI
  ⟨0x20100094, 3, 0x4000, 1, 0x0, 32, [⟨0, 32, .rwl, .fpZeroOr 1065353216 1125515264⟩]⟩,
  -- DE_MOT_CLBW
  ⟨0x20100098, 3, 0x4000, 1, 0x0, 32, [⟨0, 32, .rwl, .span 1120403456 1167867904⟩]⟩,
  -- DE_MOT_CATCHTOL
  ⟨0x2010009C, 3, 0x4000, 1, 0x0, 32, [⟨0, 32, .rwl, .span 182 16384⟩]⟩,
  -- DE_MOT_VMIN
  ⟨0x201000A0, 3, 0x4000, 1, 0x0, 32, [⟨0, 32, .rwl, .span 1036831949 1092616192⟩]⟩,
  -- DE_MOT_SYNCI
  ⟨0x201000A4, 3, 0x4000, 1, 0x0, 32, [⟨0, 32, .rwl, .span 1036831949 1101004800⟩]⟩,
  -- DE_MOT_HFIV
  ⟨0x201000A8, 3, 0x4000, 1, 0x0, 32, [⟨0, 32, .rwl, .span 1045220557 1092616192⟩]⟩,
  -- DE_MOT_HFIBW
  ⟨0x201000AC, 3, 0x4000, 1, 0x0, 32, [⟨0, 32, .rwl, .span 1084227584 1140457472⟩]⟩,
  -- DE_MOT_CANG
  ⟨0x201000C0, 3, 0x4000, 1, 0x0, 32, [⟨0, 32, .ro, .any⟩]⟩,
  -- DE_MOT_CSPD
  ⟨0x201000C4, 3, 0x4000, 1, 0x0, 32, [⟨0, 32, .ro, .any⟩]⟩,
  -- DE_MOT_CAMP
  ⟨0x201000C8, 3, 0x4000, 1, 0x0, 32, [⟨0, 32, .ro, .any⟩]⟩,
  -- DE_MOT_ID
  ⟨0x201000CC, 3, 0x4000, 1, 0x0, 32, [⟨0, 32, .ro, .any⟩]⟩,
  -- DE_MOT_IQ
  ⟨0x201000D0, 3, 0x4000, 1, 0x0, 32, [⟨0, 32, .ro, .any⟩]⟩,
  -- DE_MOT_TLIM
  ⟨0x201000D4, 3, 0x4000, 1, 0x0, 32, [⟨0, 32, .ro, .any⟩]⟩,
  -- DE_MOT_LRCNT
  ⟨0x201000D8, 3, 0x4000, 1, 0x0, 32, [⟨0, 32, .ro, .any⟩]⟩,
  -- The same addresses in the window of DE_3, which read as reserved (R249)
  ⟨0x2010C060, 1, 0x0, 3, 0x4, 32, []⟩,
  ⟨0x2010C070, 1, 0x0, 16, 0x4, 32, []⟩,
  ⟨0x2010C0C0, 1, 0x0, 7, 0x4, 32, []⟩]

/-- The QE registers. -/
def regsQe : List RegDef := [
  -- QE_CFG
  ⟨0x20140000, 2, 0x40, 1, 0x0, 32, [⟨0, 8, .ro, .any⟩, ⟨8, 2, .rwl, .span 0 2⟩, ⟨10, 1, .rwl, .any⟩, ⟨11, 1, .rwl, .any⟩, ⟨12, 1, .rwl, .any⟩, ⟨13, 1, .rwl, .any⟩, ⟨14, 1, .rwl, .any⟩, ⟨16, 4, .rwl, .span 1 15⟩, ⟨20, 2, .rw, .any⟩, ⟨22, 1, .rw, .any⟩, ⟨23, 1, .rw, .any⟩, ⟨24, 1, .rw, .any⟩]⟩,
  -- QE_CNT
  ⟨0x20140004, 2, 0x40, 1, 0x0, 32, [⟨0, 32, .ro, .any⟩]⟩,
  -- QE_MOD
  ⟨0x20140008, 2, 0x40, 1, 0x0, 32, [⟨0, 32, .ro, .any⟩]⟩,
  -- QE_CMP
  ⟨0x2014000C, 2, 0x40, 1, 0x0, 32, [⟨0, 32, .rw, .any⟩]⟩,
  -- QE_STEP
  ⟨0x20140010, 2, 0x40, 1, 0x0, 32, [⟨0, 32, .rw, .any⟩]⟩,
  -- QE_SPD
  ⟨0x20140014, 2, 0x40, 1, 0x0, 32, [⟨0, 32, .ro, .any⟩]⟩,
  -- QE_CMPT
  ⟨0x20140018, 2, 0x40, 1, 0x0, 64, [⟨0, 64, .ro, .any⟩]⟩,
  -- QE_STAT
  ⟨0x20140020, 2, 0x40, 1, 0x0, 32, [⟨0, 1, .ro, .any⟩, ⟨1, 1, .ro, .any⟩, ⟨2, 1, .ro, .any⟩, ⟨3, 1, .ro, .any⟩, ⟨4, 3, .ro, .any⟩, ⟨7, 1, .ro, .any⟩, ⟨8, 1, .w1c, .any⟩, ⟨9, 1, .w1c, .any⟩, ⟨10, 1, .w1c, .any⟩, ⟨11, 1, .ro, .any⟩, ⟨16, 16, .ro, .any⟩]⟩,
  -- QE_OFS
  ⟨0x20140024, 2, 0x40, 1, 0x0, 32, [⟨0, 16, .rw, .any⟩]⟩,
  -- QE_IDX
  ⟨0x20140028, 2, 0x40, 1, 0x0, 32, [⟨0, 8, .rwl, .any⟩, ⟨16, 16, .ro, .any⟩]⟩,
  -- QE_SPDCFG
  ⟨0x2014002C, 2, 0x40, 1, 0x0, 32, [⟨0, 14, .rwl, .span 10 10000⟩, ⟨16, 10, .rwl, .span 1 1000⟩]⟩,
  -- QE_RS_CFG
  ⟨0x20140100, 1, 0x0, 1, 0x0, 32, [⟨0, 5, .rwl, .span 1 32⟩, ⟨16, 12, .rwl, .span 400 2000⟩]⟩,
  -- QE_RS_TRIM
  ⟨0x20140104, 1, 0x0, 1, 0x0, 32, [⟨0, 16, .rw, .any⟩, ⟨16, 16, .rw, .any⟩]⟩,
  -- QE_RS_STAT
  ⟨0x20140108, 1, 0x0, 1, 0x0, 32, [⟨0, 1, .ro, .any⟩, ⟨1, 1, .w1c, .any⟩, ⟨2, 1, .w1c, .any⟩, ⟨3, 1, .ro, .any⟩, ⟨16, 12, .ro, .any⟩]⟩,
  -- QE_RS_ANG
  ⟨0x2014010C, 1, 0x0, 1, 0x0, 32, [⟨0, 32, .ro, .any⟩]⟩,
  -- QE_SENT_CFG
  ⟨0x20140180, 2, 0x20, 1, 0x0, 32, [⟨0, 10, .ro, .any⟩, ⟨10, 1, .ro, .any⟩, ⟨11, 2, .ro, .any⟩, ⟨13, 1, .rwl, .any⟩]⟩,
  -- QE_SENT_DATA
  ⟨0x20140184, 2, 0x20, 1, 0x0, 32, [⟨0, 24, .ro, .any⟩, ⟨24, 4, .ro, .any⟩, ⟨28, 4, .ro, .any⟩]⟩,
  -- QE_SENT_STAT
  ⟨0x20140188, 2, 0x20, 1, 0x0, 32, [⟨0, 1, .w1c, .any⟩, ⟨1, 1, .w1c, .any⟩, ⟨2, 1, .w1c, .any⟩, ⟨3, 1, .ro, .any⟩, ⟨8, 16, .ro, .any⟩]⟩,
  -- QE_SENT_OFS
  ⟨0x2014018C, 2, 0x20, 1, 0x0, 32, [⟨0, 32, .rw, .any⟩]⟩,
  -- QE_SENT_SER
  ⟨0x20140190, 2, 0x20, 1, 0x0, 32, [⟨0, 8, .ro, .any⟩, ⟨8, 16, .ro, .any⟩, ⟨24, 2, .ro, .any⟩, ⟨31, 1, .w1c, .any⟩]⟩,
  -- QE_SENT_NB
  ⟨0x201401C0, 2, 0x8, 2, 0x4, 32, [⟨0, 32, .ro, .any⟩]⟩,
  -- QE_VOTE_CFG
  ⟨0x20140200, 3, 0x20, 1, 0x0, 32, [⟨0, 4, .rwl, .span 1 15⟩, ⟨4, 4, .rwl, .span 1 15⟩, ⟨8, 8, .rwl, .span 1 255⟩]⟩,
  -- QE_VOTE
  ⟨0x20140204, 3, 0x20, 1, 0x0, 32, [⟨0, 4, .ro, .any⟩, ⟨4, 4, .ro, .any⟩, ⟨8, 3, .ro, .any⟩, ⟨11, 1, .ro, .any⟩, ⟨12, 1, .ro, .any⟩, ⟨13, 1, .ro, .any⟩, ⟨14, 1, .ro, .any⟩, ⟨16, 3, .ro, .any⟩]⟩,
  -- QE_VANG
  ⟨0x20140208, 3, 0x20, 1, 0x0, 32, [⟨0, 32, .ro, .any⟩]⟩,
  -- QE_VSPD
  ⟨0x2014020C, 3, 0x20, 1, 0x0, 32, [⟨0, 32, .ro, .any⟩]⟩,
  -- QE_VTOL
  ⟨0x20140210, 3, 0x20, 1, 0x0, 32, [⟨0, 16, .ro, .any⟩, ⟨16, 16, .ro, .any⟩]⟩,
  -- QE_COMM
  ⟨0x20140214, 3, 0x20, 1, 0x0, 32, [⟨0, 16, .ro, .any⟩, ⟨16, 16, .ro, .any⟩]⟩,
  -- QE_CTRL
  ⟨0x20140300, 1, 0x0, 1, 0x0, 32, [⟨31, 1, .w1s, .any⟩]⟩]

/-- The CS registers. -/
def regsCs : List RegDef := [
  -- CS_CFG
  ⟨0x20150000, 3, 0x40, 1, 0x0, 32, [⟨0, 2, .rwl, .any⟩, ⟨4, 14, .rwl, .span 667 13333⟩, ⟨24, 4, .rwl, .span 1 15⟩]⟩,
  -- CS_SCALE
  ⟨0x20150004, 3, 0x40, 1, 0x0, 32, [⟨0, 32, .rwl, .zeroOr 100 100000⟩]⟩,
  -- CS_TRIM
  ⟨0x20150008, 3, 0x40, 1, 0x0, 32, [⟨0, 16, .rw, .any⟩, ⟨16, 16, .rw, .any⟩]⟩,
  -- CS_STAT
  ⟨0x2015000C, 3, 0x40, 1, 0x0, 32, [⟨0, 16, .ro, .any⟩, ⟨16, 1, .w1c, .any⟩, ⟨17, 1, .w1c, .any⟩]⟩,
  -- CS_LAST
  ⟨0x20150010, 3, 0x40, 1, 0x0, 32, [⟨0, 12, .ro, .any⟩, ⟨12, 1, .ro, .any⟩, ⟨16, 12, .ro, .any⟩, ⟨28, 1, .ro, .any⟩]⟩,
  -- CS_CAL
  ⟨0x20150014, 3, 0x40, 1, 0x0, 32, [⟨0, 2, .rw, .any⟩, ⟨2, 1, .wo, .any⟩, ⟨3, 1, .ro, .any⟩, ⟨16, 16, .ro, .any⟩]⟩,
  -- CS_GSEQ0
  ⟨0x20150100, 4, 0x8, 1, 0x0, 32, [⟨0, 5, .rw, .span 0 23⟩, ⟨5, 5, .rw, .span 0 23⟩, ⟨10, 5, .rw, .span 0 23⟩, ⟨15, 5, .rw, .span 0 23⟩, ⟨20, 5, .rw, .span 0 23⟩, ⟨25, 5, .rw, .span 0 23⟩]⟩,
  -- CS_GSEQ1
  ⟨0x20150104, 4, 0x8, 1, 0x0, 32, [⟨0, 5, .rw, .span 0 23⟩, ⟨5, 5, .rw, .span 0 23⟩, ⟨10, 3, .rw, .any⟩, ⟨13, 2, .rw, .any⟩]⟩,
  -- CS_GRES
  ⟨0x20150200, 24, 0x4, 1, 0x0, 32, [⟨0, 12, .ro, .any⟩]⟩,
  -- CS_CTRL
  ⟨0x20150300, 1, 0x0, 1, 0x0, 32, [⟨31, 1, .w1s, .any⟩]⟩]

/-- The GD registers. -/
def regsGd : List RegDef := [
  -- GD_CFG
  ⟨0x20160000, 1, 0x0, 1, 0x0, 32, [⟨0, 4, .rwl, .span 0 10⟩, ⟨4, 4, .rwl, .span 0 10⟩, ⟨8, 8, .rwl, .span 20 200⟩, ⟨31, 1, .w1s, .any⟩]⟩,
  -- GD_STAT
  ⟨0x20160004, 1, 0x0, 1, 0x0, 32, [⟨0, 3, .ro, .any⟩, ⟨3, 1, .ro, .any⟩, ⟨4, 3, .ro, .any⟩, ⟨7, 1, .ro, .any⟩, ⟨8, 3, .ro, .any⟩, ⟨11, 9, .ro, .any⟩, ⟨20, 9, .ro, .any⟩]⟩,
  -- GD_TRIP_0
  ⟨0x20160008, 1, 0x0, 1, 0x0, 32, [⟨0, 18, .w1c, .any⟩, ⟨18, 3, .w1c, .any⟩, ⟨21, 3, .w1c, .any⟩]⟩,
  -- GD_TRIP_1
  ⟨0x2016000C, 1, 0x0, 1, 0x0, 32, [⟨0, 9, .w1c, .any⟩, ⟨9, 1, .w1c, .any⟩, ⟨10, 1, .ro, .any⟩, ⟨11, 1, .ro, .any⟩, ⟨12, 1, .w1c, .any⟩, ⟨13, 3, .ro, .any⟩]⟩,
  -- GD_OV_0
  ⟨0x20160010, 1, 0x0, 1, 0x0, 32, [⟨0, 16, .rwl, .any⟩, ⟨16, 16, .rwl, .any⟩]⟩,
  -- GD_OV_1
  ⟨0x20160014, 1, 0x0, 1, 0x0, 32, [⟨0, 16, .rwl, .any⟩, ⟨16, 16, .rwl, .any⟩]⟩,
  -- GD_CHOP
  ⟨0x20160018, 1, 0x0, 1, 0x0, 32, [⟨0, 8, .rwl, .span 5 200⟩, ⟨8, 8, .rwl, .span 2 100⟩, ⟨16, 1, .rwl, .any⟩, ⟨24, 8, .ro, .any⟩]⟩,
  -- GD_PORT
  ⟨0x20160040, 3, 0x10, 1, 0x0, 32, [⟨0, 10, .rwl, .span 20 500⟩, ⟨10, 6, .rwl, .span 2 40⟩, ⟨16, 9, .rwl, .zeroOr 10 300⟩]⟩,
  -- GD_SV
  ⟨0x20160080, 4, 0x8, 1, 0x0, 32, [⟨0, 12, .ro, .any⟩, ⟨12, 1, .w1c, .any⟩, ⟨13, 1, .ro, .any⟩, ⟨14, 1, .ro, .any⟩]⟩,
  -- GD_SV_TRIM
  ⟨0x20160084, 4, 0x8, 1, 0x0, 32, [⟨0, 16, .rw, .any⟩]⟩,
  -- GD_TEST
  ⟨0x201600C0, 1, 0x0, 1, 0x0, 32, [⟨0, 1, .wo, .any⟩, ⟨1, 1, .ro, .any⟩, ⟨2, 3, .ro, .any⟩, ⟨5, 1, .ro, .any⟩]⟩,
  -- GD_TEST_RES_0
  ⟨0x201600C4, 1, 0x0, 1, 0x0, 32, [⟨0, 18, .ro, .any⟩, ⟨18, 3, .ro, .any⟩, ⟨21, 3, .ro, .any⟩]⟩,
  -- GD_TEST_RES_1
  ⟨0x201600C8, 1, 0x0, 1, 0x0, 32, [⟨0, 9, .ro, .any⟩, ⟨9, 3, .ro, .any⟩, ⟨12, 1, .ro, .any⟩]⟩,
  -- GD_ZDIAG
  ⟨0x201600D0, 1, 0x0, 1, 0x0, 32, [⟨0, 2, .rw, .span 0 2⟩, ⟨2, 1, .wo, .any⟩, ⟨3, 1, .ro, .any⟩, ⟨4, 1, .w1c, .any⟩]⟩,
  -- GD_ZDIAG_RES
  ⟨0x201600D4, 1, 0x0, 1, 0x0, 32, [⟨0, 3, .ro, .any⟩, ⟨3, 3, .ro, .any⟩, ⟨6, 3, .ro, .any⟩]⟩]

/-- The LG registers. -/
def regsLg : List RegDef := [
  -- LG_STATUS
  ⟨0x20170000, 1, 0x0, 1, 0x0, 32, [⟨0, 2, .ro, .any⟩, ⟨4, 3, .ro, .any⟩, ⟨8, 1, .ro, .any⟩, ⟨9, 1, .ro, .any⟩, ⟨10, 1, .ro, .any⟩, ⟨11, 1, .ro, .any⟩, ⟨12, 1, .ro, .any⟩, ⟨13, 1, .w1c, .any⟩, ⟨14, 2, .ro, .any⟩]⟩,
  -- LG_CHAL
  ⟨0x20170010, 1, 0x0, 1, 0x0, 32, [⟨0, 16, .ro, .any⟩, ⟨16, 8, .ro, .any⟩, ⟨24, 1, .ro, .any⟩, ⟨25, 1, .ro, .any⟩]⟩,
  -- LG_ANSWER
  ⟨0x20170014, 1, 0x0, 1, 0x0, 32, [⟨0, 16, .wo, .any⟩, ⟨16, 8, .wo, .any⟩]⟩,
  -- LG_WD
  ⟨0x20170018, 1, 0x0, 1, 0x0, 32, [⟨0, 7, .rwl, .span 0 90⟩, ⟨8, 7, .rwl, .span 10 95⟩, ⟨16, 16, .rwl, .any⟩]⟩,
  -- LG_WD_STAT
  ⟨0x2017001C, 1, 0x0, 1, 0x0, 32, [⟨0, 8, .ro, .any⟩, ⟨8, 1, .ro, .any⟩, ⟨9, 1, .w1c, .any⟩, ⟨10, 1, .w1c, .any⟩, ⟨11, 1, .w1c, .any⟩, ⟨12, 1, .w1c, .any⟩, ⟨16, 16, .ro, .any⟩]⟩,
  -- LG_CONT
  ⟨0x20170030, 1, 0x0, 1, 0x0, 32, [⟨0, 1, .ro, .any⟩, ⟨1, 1, .ro, .any⟩, ⟨2, 1, .ro, .any⟩, ⟨3, 1, .ro, .any⟩, ⟨4, 1, .ro, .any⟩, ⟨5, 1, .ro, .any⟩, ⟨6, 1, .w1c, .any⟩, ⟨7, 1, .w1c, .any⟩, ⟨8, 8, .ro, .any⟩, ⟨16, 1, .wo, .any⟩]⟩,
  -- LG_CKW
  ⟨0x20170040, 1, 0x0, 1, 0x0, 32, [⟨0, 5, .rwl, .span 2 20⟩, ⟨16, 11, .ro, .any⟩]⟩,
  -- LG_PORT
  ⟨0x20170050, 1, 0x0, 1, 0x0, 32, [⟨0, 3, .ro, .any⟩, ⟨4, 3, .ro, .any⟩, ⟨8, 3, .ro, .any⟩]⟩,
  -- LG_PARK
  ⟨0x20170060, 1, 0x0, 1, 0x0, 32, [⟨0, 7, .rwl, .span 10 120⟩, ⟨8, 1, .ro, .any⟩, ⟨9, 1, .w1c, .any⟩, ⟨16, 7, .ro, .any⟩]⟩,
  -- LG_REARM
  ⟨0x20170070, 1, 0x0, 1, 0x0, 32, [⟨0, 32, .wo, .any⟩]⟩,
  -- LG_KOPS
  ⟨0x20170080, 1, 0x0, 1, 0x0, 32, [⟨0, 16, .ro, .any⟩, ⟨16, 16, .ro, .any⟩]⟩,
  -- LG_CTRL
  ⟨0x201700F0, 1, 0x0, 1, 0x0, 32, [⟨31, 1, .w1s, .any⟩]⟩]

/-- Every register of the lane's address map. -/
def regTable : List RegDef :=
  regsSys ++ regsRole ++ regsCm ++ regsFc ++ regsPd ++ regsCk ++ regsTs ++ regsTp ++ regsSz ++ regsEn ++ regsIb ++ regsHq ++ regsSe ++ regsUp ++ regsBt ++ regsAg ++ regsDe ++ regsDemot ++ regsQe ++ regsCs ++ regsGd ++ regsLg

/-- Values at start that are not 0, part 0: field key and value (R10). -/
def startRegs0 : Tab Nat := [
  (0x800000008, 0x2), (0x800000010, 0x961), (0x80000240C, 0xFFFFF), (0x800400008, 0x3), (0x80040000A, 0x3), (0x80040000C, 0x3), (0x800400108, 0x3), (0x80040010A, 0x3), (0x80040010C, 0x3), (0x800400208, 0x3), (0x80040020A, 0x3), (0x80040020C, 0x3), (0x800400308, 0x3), (0x80040030A, 0x3), (0x80040030C, 0x3), (0x800400408, 0x3), (0x80040040A, 0x3), (0x80040040C, 0x3), (0x800401800, 0x19), (0x80040180C, 0x2), (0x800401900, 0x19), (0x80040190C, 0x2), (0x800401A00, 0x19), (0x800401A0C, 0x2), (0x800401B00, 0x19), (0x800401B0C, 0x2), (0x800401C00, 0x19), (0x800401C0C, 0x2), (0x800800000, 0x3), (0x800800100, 0x64), (0x800800110, 0x2), (0x800801000, 0xFFFFFFFFFFFFFFFF), (0x800801200, 0xFFFFFFFFFFFFFFFF), (0x800801400, 0xFFFFFFFFFFFFFFFF), (0x800801600, 0xFFFFFFFFFFFFFFFF), (0x801000108, 0x4), (0x801400000, 0x7), (0x801400003, 0x1), (0x801400408, 0x2), (0x801400500, 0x2625A0), (0x801400800, 0xFFFFFFFF), (0x801804004, 0x1), (0x801804804, 0x1), (0x801805004, 0x1), (0x801805804, 0x1), (0x801C00000, 0x1), (0x801C00001, 0x1), (0x801C00400, 0x1), (0x801C00500, 0x1), (0x802020010, 0x320), (0x802400000, 0xFE), (0x803400004, 0x1), (0x803401010, 0x64), (0x803802000, 0xFFFFFFFF), (0x803802100, 0xFFFFFFFF), (0x803802200, 0xFFFFFFFF), (0x803802400, 0xFFFFFFFF), (0x803802500, 0xFFFFFFFF), (0x803802600, 0xFFFFFFFF), (0x803802800, 0xFFFFFFFF)]

/-- Values at start that are not 0, part 1: field key and value (R10). -/
def startRegs1 : Tab Nat := [
  (0x803802900, 0xFFFFFFFF), (0x803802A00, 0xFFFFFFFF), (0x803802C00, 0xFFFFFFFF), (0x803802D00, 0xFFFFFFFF), (0x803802E00, 0xFFFFFFFF), (0x803803000, 0xFFFFFFFF), (0x803803100, 0xFFFFFFFF), (0x803803200, 0xFFFFFFFF), (0x803803400, 0xFFFFFFFF), (0x803803500, 0xFFFFFFFF), (0x803803600, 0xFFFFFFFF), (0x803803800, 0xFFFFFFFF), (0x803803900, 0xFFFFFFFF), (0x803803A00, 0xFFFFFFFF), (0x803803C00, 0xFFFFFFFF), (0x803803D00, 0xFFFFFFFF), (0x803803E00, 0xFFFFFFFF), (0x803804000, 0xFFFFFFFF), (0x803804100, 0xFFFFFFFF), (0x803804200, 0xFFFFFFFF), (0x804000900, 0x29B), (0x804000910, 0x29B), (0x804000A00, 0x8), (0x804000A10, 0x14D5), (0x804000B08, 0x10), (0x804001008, 0x3), (0x804001410, 0xFFFF), (0x804001508, 0x3), (0x804001804, 0x18), (0x80400180C, 0x3), (0x804001810, 0x8), (0x804001818, 0x14), (0x804002200, 0x3F75C28F), (0x804002300, 0x42480000), (0x804002400, 0x3F800000), (0x804002600, 0x447A0000), (0x804002700, 0xAAB), (0x804002800, 0x3F000000), (0x804002900, 0x40000000), (0x804002A00, 0x3F800000), (0x804002B00, 0x42480000), (0x804100900, 0x29B), (0x804100910, 0x29B), (0x804100A00, 0x8), (0x804100A10, 0x14D5), (0x804100B08, 0x10), (0x804101008, 0x3), (0x804101410, 0xFFFF), (0x804101508, 0x3), (0x804101804, 0x18), (0x80410180C, 0x3), (0x804101810, 0x8), (0x804101818, 0x14), (0x804102200, 0x3F75C28F), (0x804102300, 0x42480000), (0x804102400, 0x3F800000), (0x804102600, 0x447A0000), (0x804102700, 0xAAB), (0x804102800, 0x3F000000), (0x804102900, 0x40000000)]

/-- Values at start that are not 0, part 2: field key and value (R10). -/
def startRegs2 : Tab Nat := [
  (0x804102A00, 0x3F800000), (0x804102B00, 0x42480000), (0x804200900, 0x29B), (0x804200910, 0x29B), (0x804200A00, 0x8), (0x804200A10, 0x14D5), (0x804200B08, 0x10), (0x804201008, 0x3), (0x804201410, 0xFFFF), (0x804201508, 0x3), (0x804201804, 0x18), (0x80420180C, 0x3), (0x804201810, 0x8), (0x804201818, 0x14), (0x804202200, 0x3F75C28F), (0x804202300, 0x42480000), (0x804202400, 0x3F800000), (0x804202600, 0x447A0000), (0x804202700, 0xAAB), (0x804202800, 0x3F000000), (0x804202900, 0x40000000), (0x804202A00, 0x3F800000), (0x804202B00, 0x42480000), (0x804300900, 0x29B), (0x804300910, 0x29B), (0x804300A00, 0x8), (0x804300A10, 0x14D5), (0x804300B08, 0x10), (0x804301008, 0x3), (0x804301410, 0xFFFF), (0x804301508, 0x3), (0x805000008, 0x1), (0x805000010, 0x2), (0x805000801, 0x1), (0x805000A00, 0x4), (0x805000B00, 0x3E8), (0x805000B10, 0x14), (0x805001008, 0x1), (0x805001010, 0x2), (0x805001801, 0x1), (0x805001A00, 0x4), (0x805001B00, 0x3E8), (0x805001B10, 0x14), (0x805004000, 0x1), (0x805004010, 0x578), (0x805008000, 0x4), (0x805008004, 0x4), (0x805008008, 0x8), (0x805008800, 0x4), (0x805008804, 0x4), (0x805008808, 0x8), (0x805009000, 0x4), (0x805009004, 0x4), (0x805009008, 0x8), (0x805400000, 0x2), (0x805400004, 0xD05), (0x805400018, 0x4), (0x805401000, 0x2), (0x805401004, 0xD05), (0x805401018, 0x4)]

/-- Values at start that are not 0, part 3: field key and value (R10). -/
def startRegs3 : Tab Nat := [
  (0x805402000, 0x2), (0x805402004, 0xD05), (0x805402018, 0x4), (0x805800000, 0x4), (0x805800004, 0x6), (0x805800008, 0x32), (0x805800400, 0x230), (0x805800410, 0x21C), (0x805800500, 0x26C), (0x805800510, 0x294), (0x805800600, 0x14), (0x805800608, 0xA), (0x805800610, 0x1), (0x805801000, 0x64), (0x80580100A, 0xA), (0x805801400, 0x64), (0x80580140A, 0xA), (0x805801800, 0x64), (0x80580180A, 0xA), (0x805803500, 0x4), (0x805803503, 0x4), (0x805803506, 0x4), (0x805C00008, 0x1), (0x805C00009, 0x1), (0x805C00600, 0x14), (0x805C00608, 0x5A), (0x805C00610, 0x1), (0x805C01000, 0x5), (0x805C01800, 0x28)]

/-- The register file as the At start columns give it; every other field is 0. -/
def startRegs : Tab Nat := startRegs0 ++ startRegs1 ++ startRegs2 ++ startRegs3

end Sys2Proof.Machine
end

