-- ==== Sys2Proof/Machine/State.lean ====
section
/-! DEFINITION. The state of the device: three lanes and the queue of waiting commands. Each structure names the
rules that give its fields; registers stand in the register file, everything else in a field of its own. -/

namespace Sys2Proof.Machine

/-- No command of the block stops the model: accesses the spec faults are state (R5, R25) and a command that the
spec lists for no state has no effect (R12). This one name exists because a fault type may not be empty; nothing
raises it (safe). -/
inductive Fault
  | unreachable
  deriving DecidableEq, Repr

/-- A command that has no meaning yet. -/
inductive Refusal
  /-- Raised by an arm of exec for a command that is not modelled; no arm raises it (safe). -/
  | notModelled (mnemonic : String)
  deriving DecidableEq, Repr

/-- Timers of a lane: the elapsed time at which each began (R401). -/
inductive Timer
  | gather | precharge | gateEnable | armRetry | voteIn (s : Side) | minority (f : Func) | disagree (f : Func)
  | watchdog (f : Func) | status (s : Side) | hold (n : Engine) (f : Func) | eqxDue (f : Func) | autumn (f : Func)
  | autumnCommit | standstill | causeClear (f : Func) (cause : Nat) | speedReq (f : Func) | vehicleHost
  | selfTest (p : Pair) | unlock | sentFrame (s : Fin 2) | ascWait (p : Port) | svOff (n : Fin 4)
  | gatesOff | ready | kmDisagree | kpDisagree | clkGood | park | link (s : Side)
  | agree (s : Side) | timeFrame (s : Side) | pdelay | sync | announce | session (h : Fin 4) | nonce (h : Fin 4)
  | answer (h : Fin 4) | dm1 | steerBroadcast | wfi (d : Fin 8) | wake (d : Fin 8) | token | debugNonce | prepared
  | trial | parkApplied | slice | v5 | dieReset | lockedRotor (p : Port) | lrLow (p : Port) | pwm (n : Engine) | challenge
  | switched (p : Port) | szListen (c : Fin 2) | timeSend
  deriving DecidableEq, Repr

/-- Interrupt sources of the PLIC that the spec names, each pending once raised (R24). -/
inductive Irq
  | deHalt (n : Engine) | deMbox (n : Engine) | qe (n : Fin 2) | rs0 | sent (s : Fin 2) | collector
  | szCycle (c : Fin 2) | szBuffer (c : Fin 2) | tsPend | tp (n : Fin 4) | queue (q : Fin 16) | pd | ck
  | seChannel (c : Fin 2) | bt
  deriving DecidableEq, Repr

/-- What a lane sends out (R17 and every sending rule); oldest first in the lane's output list. A time frame goes to both neighbours: the
record is the previous one's, the next one's has the echo that stands beside it. -/
inductive Output
  | reference (r : RefRecord)
  | sensor (r : SensorFrame)
  | status (f : StatusFrame)
  | time (f : TimeFrame) (nextEcho : Option (Nat × Nat))
  | vote (w : Word)
  | chunk (k i : Nat)
  | response (h : Fin 4) (op tag status : Nat) (args : List Byte)
  | notice (h : Fin 4) (op : Nat) (args : List Byte)
  | hostFrame (h : Fin 4) (bytes : List Byte)
  | slaz (c : Fin 2) (ident : Nat) (payload : List Byte)
  | isobus (pgn dst : Nat) (data : List Byte)
  | ptp (kind seq : Nat)
  | pulse (n : Fin 4) (active : Bool)
  | recovery (op tag status : Nat) (args : List Byte)
  | tdo (v : Nat)
  deriving DecidableEq, Repr

/-! ### Lane links and interrupts -/

/-- A frame that waits for the lane links or is on them (R17): its class in the order of the table, the ns that it takes and those
that it still takes, and whether its first segment has begun. An entry without a frame is the rest of a segment of a frame that stands
behind the references which come at that segment's end. -/
structure Tx where
  frame : Option Output
  cls : Nat
  total : Nat
  left : Nat
  begun : Bool
  deriving DecidableEq, Repr

/-- The PLIC beside the pending sources (R16, R24; log entry 7): its words, the sources claimed and not yet completed, those of them
raised once more, and the external interrupt that each hart sees. -/
structure PlicSt where
  words : Tab Nat
  busy : List Irq
  held : List Irq
  eip : Vector Bool 4
  deriving DecidableEq, Repr

/-! ### Start-up and retained state -/

/-- Where a lane stands in its life before lane firmware runs; `stuck` is WINTER after a second failed Solstice test (R30, R314,
R524). -/
inductive Phase | noSupply | romCheck | signatures | halted | solstice | image | stuck | running | recovery | dieReset
  deriving DecidableEq, Repr

/-- Start-up state (R30, R47, R49, R52): `twoLane` says that two lanes took part in the election. -/
structure Start where
  phase : Phase
  recoveryBall : Bool
  electionDone : Bool
  coresReleased : Bool
  joined : Bool
  twoLane : Bool
  image : Image
  pedalCal : Vector Int 2
  deriving DecidableEq, Repr

/-- The retained role history of one function (R48, R603). -/
structure History where
  index : Nat
  seq : Nat
  deriving DecidableEq, Repr

/-- The Autumn record of one function (R51, R603). -/
structure AutumnRec where
  was : Bool
  ms : Nat
  deriving DecidableEq, Repr

/-- The ageing accumulators (R549 to R553, R603). The indicators, the increases of the completed windows, newest first, and of the
current window are in units of 2^-64, of which R603 stores the upper part in units of 2^-24. -/
structure Ageing where
  hours : Nat
  w : Vector Nat 9
  tjc : Vector Word 3
  turn : Vector Word 3
  dir : Vector Nat 3
  windows : Vector (List Nat) 9
  current : Vector Nat 9
  winMs : Nat
  deriving DecidableEq, Repr

/-- The payload of a retained slot (R603). -/
structure Payload where
  trims : Vector Int 18
  history : Vector History 5
  autumn : Vector AutumnRec 5
  ageing : Ageing
  app : List Host.Cell
  deriving DecidableEq, Repr

/-- A write held in an output buffer (R132, R136), or one that waits. -/
structure BufWrite where
  addr : Nat
  size : Nat
  data : Nat
  deriving DecidableEq, Repr

/-- An access that waits: for a sleeping domain (R26) or, a store to the application area, for a commit (R39): when it came, from
which core or, with none, the debugger, a store or a load, and whether a pair has reserved the load's place among its replicated
inputs (R134). -/
structure Access where
  time : Nat
  core : Option Core
  store : Bool
  reserved : Bool
  w : BufWrite
  deriving DecidableEq, Repr

/-- What bytes [63:32] of a retained slot's header hold (R35): the SHAKE256 output over the rest, as a commit writes it; the old
digest over content that a commit has begun to replace; or the bytes that stand in the STORE window. -/
inductive Digest | intact | torn | stored
  deriving DecidableEq, Repr

/-- Retained-state machinery (R35 to R40). The slots themselves are bytes of the STORE window; `digest` says what stands in each
slot's digest field, `stalled` are the stores that wait for the commit in progress. -/
structure Retained where
  digest : Vector Digest 2
  newer : Option (Fin 2)
  inFlight : Option (Fin 2 × Nat × Payload)
  auto : Bool
  held : Bool
  stalled : List Access
  history : Vector History 5
  autumn : Vector AutumnRec 5
  winter : Vector (Option AutumnRec) 5
  deriving DecidableEq, Repr

/-! ### Roles and the vote -/

/-- A vote field as it counts under R91: candidate, run length and counted value. -/
structure Counted where
  cand : Nat
  run : Nat
  value : Nat
  deriving DecidableEq, Repr

/-- One link's vote input (R91). -/
structure VoteIn where
  lost : Bool
  last : Option Nat
  codes : Vector Counted 5
  rotate : Vector Counted 5
  deriving DecidableEq, Repr

/-- The guard's vote machinery (R90 to R93); each hardware accusation stands with the elapsed time at which it was raised. -/
structure Vote where
  count : Nat
  ownCodes : Vector Counted 5
  ownRotate : Vector Counted 5
  inp : Vector VoteIn 2
  withdraw : Vector Bool 5
  hardware : Vector (List (Side × Nat)) 5
  deriving DecidableEq, Repr

/-- One function in the ROLE block, beside its registers (R89 to R112): `released` is the device time of its last release, `minor` the
lane that the running time of R96 is about. -/
structure RoleFn where
  served : Bool
  hasSeq : Bool
  former : List (LaneId × Nat)
  stopSend : Option (Nat × Nat)
  nextSeq : Option Nat
  eqxDue : Bool
  commit : Option Nat
  causes : List Nat
  supplyCause : Nat
  joinSent : Bool
  joinSeen : Vector Bool 3
  gone : Vector Bool 3
  released : Nat
  minor : Option LaneId
  deriving DecidableEq, Repr

/-- What Winter does at the outputs of the lane (R113). -/
structure WinterRun where
  standstill : Bool
  deriving DecidableEq, Repr

/-- The ROLE block as a whole. -/
structure Roles where
  fn : Vector RoleFn 5
  lastSwap : Option Nat
  winter : WinterRun
  hostSeen : Bool
  hostLost : Bool
  eqxSeen : Nat
  deriving DecidableEq, Repr

/-! ### Cores and checkpoints -/

/-- An output write of a core: a store, or a reference that it writes to LL, whose registers the spec does not name (R131, log
entry 69). -/
inductive OutWrite
  | bus (w : BufWrite)
  | ref (r : RefRecord)
  deriving DecidableEq, Repr

/-- A checkpoint that a core has marked, and the elapsed time at which it did (R137, R138). -/
structure Mark where
  time : Nat
  num : Nat
  sig : BitVec 64
  count : Nat
  tag : Word
  poisoned : Bool
  writes : List OutWrite
  deriving DecidableEq, Repr

/-- What a core is doing (R30, R139, R143, R147, R458); `rom` is the boot ROM. -/
inductive CoreRun | reset | rom | running | selfTest | stopped | debugHalted | wfi
  deriving DecidableEq, Repr

/-- One application core, as far as the block sees it (R126 to R148): its privilege mode (3 machine, 1 supervisor, 0 user), integer and
floating-point registers are those that a start gives it (R143) and that a debugger finds and leaves. `marked` says that the
signature of its last checkpoint still stands in CM_SIG (R137), `taken` how many interrupts it has taken (R135). -/
structure CoreSt where
  run : CoreRun
  pc : BitVec 64
  mode : Nat
  x : Vector (BitVec 64) 32
  f : Vector (BitVec 64) 32
  obuf : List OutWrite
  count : Nat
  ckpt : Nat
  marked : Bool
  taken : Nat
  marks : List Mark
  poison : Bool
  loads : Nat
  accessFault : Bool
  lastLoad : Nat
  deriving DecidableEq, Repr

/-- One pair (R134, R135, R139, R148): its replicated inputs, an entry without a value being reserved for a load that waits; the
latched interrupt and the checkpoints after which the trailing core takes those that the leading one has taken; the checkpoint number
of its last mismatch; a debug request that waits. -/
structure PairSt where
  repl : List (Option Nat)
  replBase : Nat
  irq : Bool
  takeAt : List Nat
  num : Nat
  debugWaits : Bool
  deriving DecidableEq, Repr

/-! ### Drive engines -/

/-- Switching values of one port or engine: compares, bridge request, sample points (R165, R194). -/
structure Pattern where
  cmp : Vector Nat 6
  bridge : Nat
  sp : Vector Int 4
  deriving DecidableEq, Repr

/-- A carrier period of a bridge port as its switches follow it: the pattern, the BRIDGE in force in the rising and in the falling half,
the length in fine ticks, the phases with a refresh pulse around its start, and whether that pulse is one of CHARGE, which BRIDGE 1 does
not suppress (R167 to R172, R265). -/
structure Cycle where
  pat : Pattern
  rise : Nat
  fall : Nat
  period : Int
  refresh : Vector Bool 3
  charge : Bool
  deriving DecidableEq, Repr

/-- A record the intake has accepted or latched (R176). -/
structure Intake where
  waiting : List (RefRecord × Nat)
  latched : Option RefRecord
  isNew : Bool
  holding : Bool
  taken : Bool
  share : Nat
  nextShare : Option (Nat × Nat)
  deriving DecidableEq, Repr

/-- One drive engine (R155 to R178): `timer` holds the cycles written to TIMER and the elapsed time at which they were; `psTick` is the
device time of the last period start in fine ticks; `rise` is the BRIDGE that was in force at it, `refreshed` and `refresh` are the phases with a refresh pulse
around it and around the coming one, `charged` says that the pulse around it was one of CHARGE, and `last` is the period before. -/
structure EngineSt where
  d : Vector Word 32
  pc : BitVec 14
  im : List Host.Cell
  dm : List Host.Cell
  cyc : Nat
  ready : Vector Nat 32
  tbusy : Nat
  pairable : Option (BitVec 14)
  wait : Option (BitVec 9 × Reg)
  events : BitVec 9
  wake : Nat
  timer : Option (Nat × Nat)
  mbIn : Vector Word 16
  mbOut : Vector Word 16
  written : Pattern
  committed : Pattern
  active : Pattern
  latePat : Pattern
  counted : Bool
  late : Bool
  falling : Bool
  ovrRun : Nat
  boot : Vector Nat 3
  refresh : Vector Bool 3
  psTime : Nat
  psTick : Int
  period : Int
  rise : Nat
  refreshed : Vector Bool 3
  charged : Bool
  last : Cycle
  intake : Vector Intake 5
  upSnap : Option (Vector Word 9)
  deriving DecidableEq, Repr

/-- Motor supervisor of a port (R249 to R266): the BRIDGE value that it forces from the next period start on, and the one in force. -/
structure MotorSt where
  force : Nat
  inForce : Nat
  tzero : Bool
  refused : Bool
  charge : Bool
  periods : Nat
  syncRun : Nat
  lastComm : Nat
  deriving DecidableEq, Repr

/-! ### Measurement -/

/-- Shunt front end of a port (R192 to R207); `pairAt` is the reference instant of the last pair taken (R259). -/
structure ShuntSt where
  raw : Vector (Option Int) 4
  word : Vector Nat 4
  taken : Vector Bool 4
  lostRun : Nat
  pairAt : Option Nat
  cal : Option Nat
  deriving DecidableEq, Repr

/-- A conversion of an engine's general ADC sequence (R209): the device time of its trigger in fine ticks, the engine, the slot, and
whether it is the last of its sequence. -/
structure AdcSlot where
  time : Int
  engine : Engine
  slot : Nat
  last : Bool
  deriving DecidableEq, Repr

/-- The general ADC (R209): the conversions that wait, the one in progress, none standing for one of the scan, and the next input of the
scan. -/
structure GenAdc where
  res : Vector (Vector Nat 8) 4
  queue : List AdcSlot
  busy : Option AdcSlot
  scan : Nat
  deriving DecidableEq, Repr

/-- An edge of a quadrature input (R228). -/
structure Edge where
  time : Nat
  count : Int
  back : Bool
  deriving DecidableEq, Repr

/-- A quadrature input (R220 to R228): the filtered lines, the edges, the skips since the last index load, whether the first index since
ARMED is still to come (IDXMODE 2) and whether it has come. -/
structure QuadSt where
  a : Bool
  b : Bool
  lastEdge : Option Edge
  edges : List Edge
  oppRun : Nat
  turning : Nat
  turnedAt : Nat
  skips : Nat
  armedIdx : Bool
  checks : Bool
  deriving DecidableEq, Repr

/-- The resolver interface (R229). -/
structure ResolverSt where
  outRun : Nat
  sampled : Bool
  angle : Word
  diff : Int
  time : Nat
  deriving DecidableEq, Repr

/-- A SENT input (R231): the last sync pulse, and bits 3 and 2 of the status nibbles of the frames accepted without a break, newest first,
of which a serial message is formed. -/
structure SentSt where
  prevSync : Option Nat
  serial : List (Bool × Bool)
  deriving DecidableEq, Repr

/-- The position vote of a port (R235 to R241). -/
structure VotePos where
  own : Option SensorRecord
  nb : Vector (Option SensorRecord) 2
  hfi : Option (Word × Word × Nat)
  outRun : Nat
  unresRun : Nat
  hfiRun : Nat
  sect : Nat
  ports : Vector Word 8
  deriving DecidableEq, Repr

/-! ### Gate drive and guard -/

/-- What the guard does with one switch (R282). -/
inductive Stage | free | stage1 | stage2
  deriving DecidableEq, Repr

/-- One gate output (R272, R312): whether the guard commands its switch on, and the elapsed time from which on its gate is taken to lie
within 1 V of its reference after it was last turned off. -/
structure Drive where
  on : Bool
  falls : Nat
  deriving DecidableEq, Repr

/-- Gate drive (R272 to R300): what the guard does with each switch, what holds for each port, the chopper's two requests, the instant at
which OV_TRIP was counted while x_VDC has not fallen since, whether x_VDC is at or above OV_ASC, the gate outputs and the diagnostics. -/
structure GateSt where
  stage : Vector Stage 18
  portOff : Vector Bool 3
  ascWait : Vector Bool 3
  excluded : Vector Bool 3
  barred : Vector Bool 3
  chopHw : Bool
  chopReq : Bool
  ovCounted : Option Nat
  ascCounted : Bool
  drive : Vector Drive 18
  testRun : Bool
  zdiag : Option Nat
  deriving DecidableEq, Repr

/-- One solenoid driver (R295, R296). -/
structure SolenoidSt where
  cmd : Nat
  setpoint : Nat
  forced : Bool
  off : Bool
  trips : List Nat
  deriving DecidableEq, Repr

/-- The lane guard beside its registers (R310 to R331); `lineLost` are the ports whose request line has stopped toggling (R311). -/
structure GuardSt where
  powered : Bool
  lfsr : Option (BitVec 16)
  num : Nat
  running : Bool
  answered : Bool
  judge : Nat × Nat × Nat
  badWindows : Nat
  rcLost : Bool
  lineLost : Vector Bool 3
  deriving DecidableEq, Repr

/-! ### Fault collector, Slaz, time -/

/-- The fault collector beside its registers (R344 to R358): the sources that keep firing, the addresses of the registers whose parity bit
does not fit. -/
structure FaultSt where
  level : List Nat
  parityBad : List Nat
  deriving DecidableEq, Repr

/-- One Slaz controller beside its registers (R376 to R389), with times in elapsed ns: the last reference mark and the start of the present
basic cycle; what that cycle has brought (reference, any frame, filled RX entries), the windows of it that have started and ended, the cycles in succession
without a reference; when the last incomplete cycle ended; the votes of the matrix; the frame copied at its window's START and not begun
(entry index, payload), the frames offered in an arbitrating window, the frame in transmission (index 4,096 for a reference frame), and
when the lane's attempt of a cold start began. -/
structure SlazSt where
  mark : Nat
  start : Nat
  cycRef : Bool
  anyFrame : Bool
  filled : List Nat
  opened : List Nat
  ended : List Nat
  missed : Nat
  sinceInc : Nat
  votes : List (Nat × Nat)
  copied : Option (Nat × List Byte)
  pending : List Nat
  sending : Option (Nat × List Byte)
  attempt : Nat
  deriving DecidableEq, Repr

/-- What is known of a neighbour's time (R403, R404): its last frame, its send and arrival times in 2^-16 ns, the last 16 offsets and link
delays, newest first, in units of 2^-17 ns, the filtered offset and delay in 1/16 ns. -/
structure TimeNb where
  frame : Option TimeFrame
  heard : Option (Nat × Nat)
  samples : List (Int × Int)
  offset16 : Int
  delay16 : Int
  agree : Bool
  badRun : Nat
  deriving DecidableEq, Repr

/-- Device time and its discipline (R399 to R415); `decided` is the grandmaster and the sequenceId of the last decision of R412. `dev`, `elapsed` and `slew`, what the phase term still has to correct,
count units of 2^-48 ns; rates are in 10^-11; a step is an amount in ns and its instant. -/
structure TimeSt where
  dev : Nat
  elapsed : Nat
  rateAgree : Int
  rateDisc : Int
  phase : Int
  slew : Int
  nb : Vector TimeNb 2
  step : Option (Int × Nat)
  acqStep : Bool
  lastStep : Option Nat
  followed : Option Nat
  rejected : Option Nat
  lockedRun : Nat
  request : Nat
  ownGm : Option (Int × Nat)
  ownSeq : Nat
  decided : Option (Nat × Nat)
  deriving DecidableEq, Repr

/-- The gPTP port (R409 to R411); `ratio` is neighborRateRatio − 1 in 10^-11, `speed` the SGMII speed code, `linkUp` the
Ethernet link. -/
structure PtpSt where
  seq : Nat
  t1 : Option Nat
  good : Nat
  ratio : Int
  linkUp : Bool
  speed : Nat
  deriving DecidableEq, Repr

/-- One timed-pulse output (R416 to R419). -/
structure PulseSt where
  active : Bool
  next : Int
  endAt : Nat
  deriving DecidableEq, Repr

/-! ### Hosts, ISOBUS -/

/-- A setpoint with its validity in ms, 0 for PARK_SET, which has none, and the elapsed time at which it came (R436, R439). -/
structure Setpoint where
  value : Word
  valid : Nat
  time : Nat
  deriving DecidableEq, Repr

/-- One host port beside its registers (R425 to R440): the nonce that it may open with, SESSION and FCNT of its session, the frames that
the lane has sent in it, the second and the frames of that second (R431), its setpoints, newest first. -/
structure HostSt where
  nonce : Option Nat
  session : Nat
  fcnt : Nat
  sent : Nat
  rate : Nat × Nat
  setpoints : Vector (List Setpoint) 5
  deriving DecidableEq, Repr

/-- One queue beside its registers (R432 to R434). -/
structure QueueSt where
  next : Nat
  done : Nat
  slots : List Descr
  deriving DecidableEq, Repr

/-- Authority of one function beside its register (R439, R440): the elapsed time of the first release of the present run of
torques at or above OVR_TORQUE, or below half of it during an override, the lane that held the active role at the last release, and
whether PARK is to be applied. -/
structure AuthSt where
  since : Option Nat
  active : Option LaneId
  apply : Bool
  deriving DecidableEq, Repr

/-- The ISOBUS controller (R441 to R445): addresses heard with their NAMEs, the incoming Transport Protocol sessions (source, group,
size), the messages to be sent by Transport Protocol (destination, bytes, packets sent; the head is the running session), the address of
each port's host, the trouble codes of the last DM1. -/
structure IsobusSt where
  heard : List (Nat × Nat)
  cannotClaim : Bool
  tpRx : Option (Nat × Nat × Nat)
  bamRx : Option (Nat × Nat × Nat)
  tpTx : List (Nat × List Byte × Nat)
  peer : Vector (Option Nat) 4
  dm1 : List Nat
  deriving DecidableEq, Repr

/-! ### Power, security, update, self-test -/

/-- One power domain beside its registers (R455 to R466): the step of a running entry and its target, the wake event that
waits for the next abort point, where the present wake found the domain, the accesses that wait for it, oldest first. -/
structure DomainSt where
  step : Nat
  target : Nat
  wakeBy : Option Nat
  fromState : Nat
  stalled : List Access
  deriving DecidableEq, Repr

/-- The power controller (R457, R458, R461): the domains, whether the network core has executed WFI, the domain and the target of the
request in progress, and the host command that waits for it. -/
structure PowerSt where
  dom : Vector DomainSt 8
  netWfi : Bool
  request : Option (Fin 8 × Nat)
  asker : Option (HostCmd × Nat)
  deriving DecidableEq, Repr

/-- A public-key slot in fuses (R487, R599). -/
structure KeySlot where
  key : Nat
  programmed : Bool
  revoked1 : Bool
  revoked2 : Bool
  deriving DecidableEq, Repr

/-- The security subsystem (R482 to R504): the lifecycle state of this start and its two fuse copies, the key slots, the identity,
whether an entropy health test has failed in this start, the challenge nonce and how many of its words are still to be read, the token words received, and for each mailbox channel the status
and the response that wait for their completion. -/
structure SecSt where
  lc : Nat
  lc1 : Nat
  lc2 : Nat
  pend : Option Nat
  keys : Vector KeySlot 6
  kek : Option Nat
  idDone : Bool
  idUsable : Bool
  identity : Option Nat
  idPublic : Nat
  certificate : List Byte
  entropyBad : Bool
  nonce : Option Nat
  nonceRead : Nat
  tokenWords : List Word
  tokenCheck : Bool
  tokenStatus : Nat
  chan : Vector (Option (Nat × List Byte)) 2
  deriving DecidableEq, Repr

/-- The debug transport and module (R493 to R501). -/
structure DebugSt where
  ir : Nat
  dmactive : Bool
  hartsel : Nat
  haltreq : Vector Bool 4
  unavail : Vector Bool 4
  resumeack : Vector Bool 4
  secHalted : Bool
  cmderr : Nat
  sberror : Nat
  sbaddr : Nat
  sbdata : Nat
  sbaccess : Nat
  sbReadOnAddr : Bool
  sbReadOnData : Bool
  sbAutoIncrement : Bool
  data : Vector Word 12
  progbuf : Vector Word 8
  deriving DecidableEq, Repr

/-- What the update journal records (R520, R522, R524, R525): the state, the active and the previous bank, the manifest digest and
the length of the package, whether staging is kept after error 7, the checkpoint (part, output offset, delta offset) and the digest
of a set that has been reverted. -/
structure JournalRec where
  state : Nat
  active : Nat
  previous : Nat
  digest : Nat
  chunks : Nat
  kept : Bool
  checkpoint : Nat × Nat × Nat
  reverted : Option Nat
  deriving DecidableEq, Repr

/-- A journal slot (R511): its header fields as R35 gives them, whether its digest matches, and its record. -/
structure JournalSlot where
  magic : Nat
  seq : Nat
  len : Nat
  lane : Nat
  digestOk : Bool
  record : JournalRec
  deriving DecidableEq, Repr

/-- The update engine (R510 to R529): the journal, the banks (whether the model holds a bank's structure image, and the manifests), the
manifest, digest and length of the package in progress, the chunks held in rising order, the fragments and waiting chunks in SRAM, the
last checkpoint, the activation and the digest of a set that has been reverted. -/
structure UpdateSt where
  journal : Vector JournalSlot 2
  built : Vector Bool 2
  active : Nat
  previous : Nat
  manifests : Vector (Option Manifest) 2
  staged : Option Manifest
  digest : Nat
  chunks : Nat
  keptAfter7 : Bool
  bitmap : List Nat
  frags : Tab (List (Nat × List Byte))
  waiting : List (Nat × List Byte)
  checkpoint : Nat × Nat × Nat
  coordinator : Bool
  restartAt : Option Nat
  reverted : Option Nat
  asker : Option HostCmd
  floorPending : Option Nat
  deriving DecidableEq, Repr

/-- A fuse entry of a repair (R541, R598). -/
structure FuseEntry where
  array : Nat
  row : Nat
  valid : Bool
  deriving DecidableEq, Repr

/-- Self-test and ageing engines (R535 to R553): the fuse entries and the row being fused, the soft repairs, the spare rows that failed by array and
bank, the target that is next,
the unit of each target that is next, the targets whose units have all had their turn in this round, the excluded L2 ways, the
engines that failed their slice, an analogue rerun in progress; the accumulators, whether no record has been processed in this start,
the highest and lowest temperature since the last turning point, the tail of the running ageing run, LG_KOPS at the last run, and
the store die's write counters, by line below 16 MiB and by 4 KiB block, from key 2^32 on, beyond. -/
structure TestSt where
  fuses : List FuseEntry
  fusing : Option (Nat × Nat)
  soft : List (Nat × Nat)
  badSpares : List (Nat × Nat)
  nextTarget : Nat
  units : Vector Nat 6
  excludedWays : List Nat
  deadEngines : Vector Bool 3
  analog : Bool
  ageing : Ageing
  firstRecord : Bool
  extremes : Vector (Word × Word) 3
  wrapped : List Nat
  agTail : Nat
  kmOps : Nat
  kpOps : Nat
  lines : Tab Nat
  deriving DecidableEq, Repr

/-- Everything one lane holds. -/
structure Lane where
  id : LaneId
  draws : Nat
  regs : Tab Nat
  sram : List Host.Cell
  store : List Host.Cell
  timers : List (Timer × Nat)
  irqs : List Irq
  msip : Vector Bool 4
  mtimecmp : Vector Nat 4
  mtip : Vector Bool 4
  plic : PlicSt
  link : List Tx
  out : List Output
  start : Start
  ret : Retained
  nb : Vector (Option StatusFrame) 2
  vote : Vote
  roles : Roles
  core : Vector CoreSt 4
  pair : Vector PairSt 2
  engine : Vector EngineSt 4
  motor : Vector MotorSt 3
  shunt : Vector ShuntSt 3
  gen : GenAdc
  quad : Vector QuadSt 2
  resolver : ResolverSt
  sent : Vector SentSt 2
  votePos : Vector VotePos 3
  gate : GateSt
  solenoid : Vector SolenoidSt 4
  guardSt : GuardSt
  fault : FaultSt
  slaz : Vector SlazSt 2
  time : TimeSt
  ptp : PtpSt
  pulse : Vector PulseSt 4
  host : Vector HostSt 4
  queue : Vector QueueSt 16
  auth : Vector AuthSt 5
  isobus : IsobusSt
  power : PowerSt
  sec : SecSt
  dbg : DebugSt
  update : UpdateSt
  test : TestSt
  v5out : Bool
  deriving DecidableEq, Repr

/-- The state of the device: its three lanes and the commands that wait, first in, first out. -/
structure State where
  a : Lane
  b : Lane
  c : Lane
  pending : List Instr
  deriving DecidableEq, Repr

/-! ### The state right after reset -/

namespace Init

/-- A function record with nothing in it. -/
def funcRec : FuncRec := ⟨0, 0xFF, 0, 0, 0, 0, 0, Vector.replicate 3 0⟩
/-- An image with nothing in it (log entry 4). -/
def image : Image :=
  { header := ⟨0, 0, 0, 0, 0, 0, 0, 0, 0, 0, 0⟩, storedLen := 0, dir := [], digest := 0, sigOk := false,
    padBad := none, badReserved := [],
    sec :=
      { func := Vector.replicate 5 funcRec, sv := Vector.replicate 4 ⟨0, 0, 0⟩,
        sense := Vector.replicate 3 ⟨0, 0, 0, 0, 0, 0, 0, 0⟩, sent := Vector.replicate 2 ⟨0, 0, 0⟩,
        slaz := ⟨0, 0, 0, 0, Vector.replicate 8 ⟨0, 0, 0, 0, 0⟩, []⟩, fault := ⟨0, Vector.replicate 8 0, []⟩,
        hostPort := Vector.replicate 4 ⟨0, 0, 0, 0, 0⟩, queue := Vector.replicate 16 ⟨0xFF, 0, 0⟩,
        auth := Vector.replicate 5 ⟨Vector.replicate 4 0, 0, 0, 0⟩, power := Vector.replicate 8 ⟨0, 0⟩,
        season := Vector.replicate 5 ⟨0, 0, 0, 0⟩, eqxS := 0, eqxSteer := 0, eqxBrake := 0,
        start := ⟨0, 0, 0, 0, 0, []⟩, time := ⟨0, 0, 0, 0⟩, switches := Vector.replicate 3 ⟨0, 0, 0, 0, 0⟩,
        kmOps := 0, kpOps := 0, gdHours := 0 } }
/-- Ageing accumulators at their default 0 (R79). -/
def ageing : Ageing :=
  ⟨0, Vector.replicate 9 0, Vector.replicate 3 0, Vector.replicate 3 0, Vector.replicate 3 0,
    Vector.replicate 9 [], Vector.replicate 9 0, 0⟩
/-- Retained settings at their defaults (R79). -/
def payload : Payload :=
  ⟨Vector.replicate 18 0, Vector.replicate 5 ⟨0, 0⟩, Vector.replicate 5 ⟨false, 0⟩, ageing, []⟩
/-- A field not counted yet. -/
def counted : Counted := ⟨0, 0, 0⟩
/-- A lost vote input (R91). -/
def voteIn : VoteIn := ⟨true, none, Vector.replicate 5 counted, Vector.replicate 5 counted⟩
/-- A function that no lane serves. -/
def roleFn : RoleFn :=
  ⟨false, false, [], none, none, false, none, [], 0, false, Vector.replicate 3 false, Vector.replicate 3 false, 0, none⟩
/-- A core held in reset. -/
def core : CoreSt :=
  ⟨.reset, 0, 3, Vector.replicate 32 0, Vector.replicate 32 0, [], 0, 0, false, 0, [], false, 0, false, 0⟩
/-- No pulses: all compares 0, bridge 0, no sample points. -/
def pattern : Pattern := ⟨Vector.replicate 6 0, 0, Vector.replicate 4 0⟩
/-- A halted engine with cleared registers. -/
def engine : EngineSt :=
  { d := Vector.replicate 32 0, pc := 0, im := [], dm := [], cyc := 0, ready := Vector.replicate 32 0, tbusy := 0,
    pairable := none, wait := none, events := 0, wake := 0, timer := none,
    mbIn := Vector.replicate 16 0, mbOut := Vector.replicate 16 0, written := pattern, committed := pattern,
    active := pattern, latePat := pattern, counted := false, late := false, falling := false, ovrRun := 0,
    boot := Vector.replicate 3 0, refresh := Vector.replicate 3 false, psTime := 0, period := 0,
    psTick := 0, rise := 0,
    refreshed := Vector.replicate 3 false, charged := false,
    last := ⟨pattern, 0, 0, 0, Vector.replicate 3 false, false⟩,
    intake := Vector.replicate 5 ⟨[], none, false, false, false, 0, none⟩, upSnap := none }
/-- A motor supervisor in OFF. -/
def motor : MotorSt := ⟨0, 0, true, false, false, 0, 0, 0⟩
/-- A shunt front end that has taken nothing. -/
def shunt : ShuntSt := ⟨Vector.replicate 4 none, Vector.replicate 4 0, Vector.replicate 4 false, 0, none, none⟩
/-- A quadrature input that has seen no edge. -/
def quad : QuadSt := ⟨false, false, none, [], 0, 0, 0, 0, false, false⟩
/-- A vote that has taken place never. -/
def votePos : VotePos := ⟨none, Vector.replicate 2 none, none, 0, 0, 0, 0, Vector.replicate 8 0⟩
/-- A gate drive with nothing tripped. -/
def gate : GateSt :=
  { stage := Vector.replicate 18 .free, portOff := Vector.replicate 3 false, ascWait := Vector.replicate 3 false,
    excluded := Vector.replicate 3 false, barred := Vector.replicate 3 false,
    chopHw := false, chopReq := false, ovCounted := none, ascCounted := false,
    drive := Vector.replicate 18 ⟨false, 0⟩, testRun := false,
    zdiag := none }
/-- A guard without supply. -/
def guardSt : GuardSt := ⟨false, none, 0, false, false, (0, 0, 0), 0, false, Vector.replicate 3 false⟩
/-- A Slaz controller that has seen nothing. -/
def slaz : SlazSt := ⟨0, 0, false, false, [], [], [], 0, 0, [], none, [], none, 0⟩
/-- Device time 0, no agreement. -/
def time : TimeSt :=
  { dev := 0, elapsed := 0, rateAgree := 0, rateDisc := 0, phase := 0, slew := 0,
    nb := Vector.replicate 2 ⟨none, none, [], 0, 0, false, 0⟩, step := none, acqStep := false, lastStep := none, followed := none,
    rejected := none, lockedRun := 0, request := 0, ownGm := none, ownSeq := 0, decided := none }
/-- A closed host port. -/
def host : HostSt := ⟨none, 0, 0, 0, (0, 0), Vector.replicate 5 []⟩
/-- A domain that is on. -/
def domain : DomainSt := ⟨0, 0, none, 0, []⟩
/-- The security subsystem of a part that has not been personalised (log entry 13). -/
def sec : SecSt :=
  { lc := 0, lc1 := 0, lc2 := 0, pend := none, keys := Vector.replicate 6 ⟨0, false, false, false⟩, kek := none, idDone := false, idUsable := false,
    identity := none, idPublic := 0, certificate := [], entropyBad := false, nonce := none, nonceRead := 0, tokenWords := [],
    tokenCheck := false, tokenStatus := 0, chan := Vector.replicate 2 none }
/-- The debug transport after its reset (R493; log entry 14). -/
def dbg : DebugSt :=
  ⟨1, false, 0, Vector.replicate 4 false, Vector.replicate 4 false, Vector.replicate 4 false, false, 0, 0, 0, 0, 2, false, false, false,
    Vector.replicate 12 0, Vector.replicate 8 0⟩
/-- A journal record in IDLE that names bank 0. -/
def record : JournalRec := ⟨0, 0, 1, 0, 0, false, (0, 0, 0), none⟩
/-- A journal slot that has not been written. -/
def journalSlot (magic seq lane : Nat) : JournalSlot := ⟨magic, seq, 0, lane, true, record⟩
/-- A journal in IDLE with bank 0 active (log entry 13). -/
def update (l : LaneId) : UpdateSt :=
  { journal := Vector.ofFn (fun (k : Fin 2) => if k = 0 then journalSlot 0x4C4E524A 1 l.code else journalSlot 0 0 0),
    built := Vector.replicate 2 false, active := 0, previous := 1, manifests := Vector.replicate 2 none, staged := none, digest := 0, chunks := 0,
    keptAfter7 := false, bitmap := [], frags := [], waiting := [], checkpoint := (0, 0, 0), coordinator := false,
    restartAt := none, reverted := none, asker := none, floorPending := none }
/-- Test and ageing engines. -/
def test : TestSt :=
  { fuses := [], fusing := none, soft := [], badSpares := [], nextTarget := 0, units := Vector.replicate 6 0, excludedWays := [],
    deadEngines := Vector.replicate 3 false, analog := false, ageing := ageing, firstRecord := true,
    extremes := Vector.replicate 3 (0, 0), wrapped := [], agTail := 0, kmOps := 0, kpOps := 0, lines := [] }

end Init

/-- A lane without supply (R30), its registers at their At start values; its letter is fixed (R15, R29). -/
def Lane.unpowered (l : LaneId) : Lane :=
  { id := l, draws := 0, regs := Tab.put 0 startRegs Reg.SYS_ID_LANE.key l.code, sram := [], store := [], timers := [], irqs := [],
    msip := Vector.replicate 4 false, mtimecmp := Vector.replicate 4 0, mtip := Vector.replicate 4 false, plic := ⟨[], [], [], Vector.replicate 4 false⟩,
    link := [], out := [],
    start := ⟨.noSupply, false, false, false, false, false, Init.image, Vector.replicate 2 0⟩,
    ret := ⟨Vector.replicate 2 .stored, none, none, false, false, [], Vector.replicate 5 ⟨0, 0⟩,
      Vector.replicate 5 ⟨false, 0⟩, Vector.replicate 5 none⟩,
    nb := Vector.replicate 2 none,
    vote := ⟨0, Vector.replicate 5 Init.counted, Vector.replicate 5 Init.counted, Vector.replicate 2 Init.voteIn,
      Vector.replicate 5 false, Vector.replicate 5 []⟩,
    roles := ⟨Vector.replicate 5 Init.roleFn, none, ⟨false⟩, false, false, 0⟩,
    core := Vector.replicate 4 Init.core, pair := Vector.replicate 2 ⟨[], 0, false, [], 0, false⟩,
    engine := Vector.replicate 4 Init.engine, motor := Vector.replicate 3 Init.motor,
    shunt := Vector.replicate 3 Init.shunt, gen := ⟨Vector.replicate 4 (Vector.replicate 8 0), [], none, 0⟩,
    quad := Vector.replicate 2 Init.quad, resolver := ⟨0, false, 0, 0, 0⟩, sent := Vector.replicate 2 ⟨none, []⟩,
    votePos := Vector.replicate 3 Init.votePos, gate := Init.gate,
    solenoid := Vector.replicate 4 ⟨0, 0, false, false, []⟩, guardSt := Init.guardSt,
    fault := ⟨[], []⟩, slaz := Vector.replicate 2 Init.slaz, time := Init.time,
    ptp := ⟨0, none, 0, 0, false, 0⟩, pulse := Vector.replicate 4 ⟨false, 0, 0⟩,
    host := Vector.replicate 4 Init.host, queue := Vector.replicate 16 ⟨0, 0, []⟩,
    auth := Vector.replicate 5 ⟨none, none, true⟩, isobus := ⟨[], false, none, none, [], Vector.replicate 4 none, []⟩,
    power := ⟨Vector.replicate 8 Init.domain, false, none, none⟩, sec := Init.sec, dbg := Init.dbg,
    update := Init.update l, test := Init.test, v5out := false }

/-- The device right after reset: every lane without supply, no command waiting (log entry 3). -/
def State.reset : State := ⟨.unpowered .a, .unpowered .b, .unpowered .c, []⟩

end Sys2Proof.Machine
end

