-- ==== Sys2Proof/Machine/Ops.lean ====
section
/-! DEFINITION. The named operations every command is built from: register fields, memories, time and timers,
interrupts, outputs, free values, and the state of one lane inside the device. -/

namespace Sys2Proof.Machine

/-! ### Lanes inside the device -/

/-- The lane with a letter. -/
def State.lane (s : State) : LaneId → Lane | .a => s.a | .b => s.b | .c => s.c
/-- Replace one lane. -/
def State.setLane (s : State) (l : LaneId) (x : Lane) : State :=
  match l with | .a => { s with a := x } | .b => { s with b := x } | .c => { s with c := x }
/-- A command acts on its own lane only (R18, R27). -/
def State.onLane (s : State) (l : LaneId) (f : Lane → Lane) : State := s.setLane l (f (s.lane l))
/-- The outcome of a command that acts on one lane. -/
def onLane (l : LaneId) (f : Lane → Lane) (s : State) : Host.Outcome State Fault Refusal := .next (s.onLane l f)

/-! ### The lane links (R17) -/

/-- The payload in bytes of a time frame, a SENT word or a status frame, which the spec states only as 1 to 64 (R17; log entry 79). -/
def linkLen (cls : Nat) : Nat := (Config.freeOf .unstated [1003, (cls : Int)]).toNat % 64 + 1
/-- The 32 bytes of a reference record (R175). -/
def refBytes (r : RefRecord) : List Byte :=
  leBytes 1 r.func.code ++ leBytes 1 r.lane.code ++ leBytes 2 0 ++ leBytes 4 r.seq ++ leBytes 8 r.trel ++ leBytes 4 r.value.toNat ++
    r.svMa.toList.flatMap (leBytes 2) ++ leBytes 4 0
/-- The 32 bytes of a sensor record (R233). -/
def sensorBytes (r : SensorRecord) : List Byte :=
  leBytes 1 r.port.val ++ leBytes 1 r.lane.code ++ leBytes 1 (b2n r.valid + 2 * b2n r.still) ++ leBytes 1 r.src ++
    leBytes 4 r.angle.toNat ++ leBytes 8 r.tcap ++ leBytes 4 r.speed.toNat ++ leBytes 12 0
/-- The class of a frame that goes over the lane links, in the order of the table, and its payload in bytes. -/
def linkClass : Output → Option (Nat × Nat)
  | .reference r => some (0, (refBytes r).length)
  | .time _ _ => some (1, linkLen 1)
  | .sensor (.reading r) => some (2, (sensorBytes r).length)
  | .sensor (.sentWord _ _) => some (2, linkLen 2)
  | .status _ => some (3, linkLen 3)
  | .chunk _ _ => some (4, 64)
  | _ => none
/-- A frame becomes ready: behind every frame of its class and of the classes before it; only a reference goes before a frame that has
begun, at the end of the segment in progress, a segment being 4 bytes at 8 ns each. -/
def linkAdd (x : Tx) : List Tx → List Tx
  | [] => [x]
  | e :: t =>
    if e.frame.isNone ∨ e.cls ≤ x.cls then e :: linkAdd x t
    else if !e.begun then x :: e :: t
    else if x.cls ≠ 0 then e :: linkAdd x t
    else
      let r := (32 - (e.total - e.left) % 32) % 32
      if r = 0 then x :: e :: t
      else if e.left ≤ r then e :: linkAdd x t
      else ⟨none, e.cls, r, r, true⟩ :: x :: { e with left := e.left - r } :: t
/-- The frames that leave in `dt` ns. -/
def linkSent : Nat → List Tx → List Output
  | _, [] => []
  | dt, e :: t => if e.left ≤ dt then e.frame.toList ++ linkSent (dt - e.left) t else []
/-- What is still to be sent after `dt` ns. -/
def linkRest : Nat → List Tx → List Tx
  | _, [] => []
  | dt, e :: t =>
    if e.left ≤ dt then linkRest (dt - e.left) t else { e with left := e.left - dt, begun := e.begun || decide (0 < dt) } :: t

namespace Lane

/-! ### Registers -/

/-- The value of a field as the register file holds it. -/
def rd (L : Lane) (f : Fld) : Nat := Tab.get 0 L.regs f.key
/-- Write a field; the value is cut to the field's width. -/
def wr (f : Fld) (v : Nat) (L : Lane) : Lane := { L with regs := Tab.put 0 L.regs f.key (v % 2 ^ f.w) }
/-- A one-bit field reads 1. -/
def is (L : Lane) (f : Fld) : Bool := decide (L.rd f ≠ 0)
/-- Set a field to 1. -/
def set1 (f : Fld) (L : Lane) : Lane := L.wr f 1
/-- Clear a field. -/
def clr (f : Fld) (L : Lane) : Lane := L.wr f 0
/-- Bit `i` of a field. -/
def bitOf (L : Lane) (f : Fld) (i : Nat) : Bool := nbit (L.rd f) i
/-- Write bit `i` of a field. -/
def wrBit (f : Fld) (i : Nat) (b : Bool) (L : Lane) : Lane :=
  let v := L.rd f
  L.wr f (if b then v ||| 2 ^ i else v - (if nbit v i then 2 ^ i else 0))
/-- Count a saturating field up. -/
def count (f : Fld) (n : Nat) (L : Lane) : Lane := L.wr f (satUp (2 ^ f.w - 1) (L.rd f) n)
/-- Count a field up modulo its width. -/
def countMod (f : Fld) (n : Nat) (L : Lane) : Lane := L.wr f (L.rd f + n)
/-- Count up the bits `lo` to `lo + w - 1` of a field, saturating. -/
def countPart (f : Fld) (lo w n : Nat) (L : Lane) : Lane :=
  let v := L.rd f
  let p := nbits v lo w
  L.wr f (v - p * 2 ^ lo + satUp (2 ^ w - 1) p n * 2 ^ lo)
/-- Do something only when a condition holds; otherwise the lane is as it was (R12). -/
def when (b : Bool) (f : Lane → Lane) (L : Lane) : Lane := if b then f L else L
/-- Set a timer to a stamp of its own. -/
def setTimer (t : Timer) (v : Nat) (L : Lane) : Lane :=
  { L with timers := (t, v) :: L.timers.filter (fun e => decide (e.1 ≠ t)) }
/-- Do something for every element of a list, in order. -/
def each {α : Type} (xs : List α) (f : α → Lane → Lane) (L : Lane) : Lane := xs.foldl (fun L x => f x L) L

/-! ### Time -/

/-- Device time in ns (R399). -/
def now (L : Lane) : Nat := L.time.dev / 2 ^ 48
/-- Elapsed time in ns (R401). -/
def el (L : Lane) : Nat := L.time.elapsed / 2 ^ 48
/-- What the phase term of R413 contributes in `dt` ns of the crystal, until the offset is corrected. -/
def slewPart (L : Lane) (dt : Nat) : Int :=
  let p := (dt : Int) * 2 ^ 48 * L.time.phase / 10 ^ 11
  if 0 ≤ L.time.slew then min L.time.slew (max 0 p) else max L.time.slew (min 0 p)
/-- The units of 2^-48 ns that device time advances in `dt` ns of the crystal: dt × (1 + r), r in 10^-11 (R399). -/
def advance (L : Lane) (dt : Nat) : Nat :=
  ((dt : Int) * 2 ^ 48 + (dt : Int) * 2 ^ 48 * (L.time.rateAgree + L.time.rateDisc) / 10 ^ 11 + L.slewPart dt).toNat
/-- Time passes: device time and elapsed time advance together (R399, R401), and the lane links send what is ready (R17). -/
def pass (dt : Nat) (L : Lane) : Lane :=
  let d := L.advance dt
  let p := L.slewPart dt
  { L with
    time := { L.time with dev := (L.time.dev + d) % 2 ^ 112, elapsed := L.time.elapsed + d, slew := L.time.slew - p }
    link := linkRest dt L.link, out := L.out ++ linkSent dt L.link }
/-- A stamp taken before the last step, moved by the step's amount; a forward step shows in a stamp at or before its
instant, a backward one in a stamp after now (R402, log entry 38). -/
def fixStamp (L : Lane) (t : Nat) : Nat :=
  let d := sgn 64 (L.rd Reg.TS_STEP)
  match L.time.lastStep with
  | some e =>
    if e + 1000000000 < L.el then t
    else if 0 < d ∧ t ≤ L.rd Reg.TS_STEP_AT ∧ (t : Int) + d ≤ L.now then ((t : Int) + d).toNat
    else if d < 0 ∧ L.now < t then ((t : Int) + d).toNat else t
  | none => t

/-- The elapsed time at which a timer began. -/
def timerAt (L : Lane) (t : Timer) : Option Nat := (L.timers.find? (fun e => decide (e.1 = t))).map (·.2)
/-- A timer runs. -/
def running (L : Lane) (t : Timer) : Bool := (L.timerAt t).isSome
/-- Stop a timer. -/
def stop (t : Timer) (L : Lane) : Lane := { L with timers := L.timers.filter (fun e => decide (e.1 ≠ t)) }
/-- Start a timer from now, whether or not it ran. -/
def restart (t : Timer) (L : Lane) : Lane := { L.stop t with timers := (t, L.el) :: (L.stop t).timers }
/-- Start a timer unless it runs. -/
def start1 (t : Timer) (L : Lane) : Lane := if L.running t then L else L.restart t
/-- A timer has run for at least `ns`. -/
def due (L : Lane) (t : Timer) (ns : Nat) : Bool :=
  match L.timerAt t with
  | some s => decide (s + ns ≤ L.el)
  | none => false
/-- The time a timer has still to run to `ns`, 0 when it does not run. -/
def left (L : Lane) (t : Timer) (ns : Nat) : Nat :=
  match L.timerAt t with
  | some s => s + ns - L.el
  | none => 0

/-! ### Interrupts, outputs, free values -/

/-- Make a PLIC source pending; one that is claimed becomes pending once more at its completion (R24, log entry 7). -/
def irq (i : Irq) (L : Lane) : Lane :=
  if L.plic.busy.contains i then
    { L with plic := { L.plic with held := if L.plic.held.contains i then L.plic.held else L.plic.held ++ [i] } }
  else if L.irqs.contains i then L else { L with irqs := L.irqs ++ [i] }
/-- Send something out of the lane: a frame of a link class becomes ready, everything else leaves at once (R17). -/
def send (o : Output) (L : Lane) : Lane :=
  match linkClass o with
  | some (c, n) => { L with link := linkAdd ⟨some o, c, 8 * (n + 4), 8 * (n + 4), false⟩ L.link }
  | none => { L with out := L.out ++ [o] }
/-- The next free value of a kind (log entry 6). -/
def free (L : Lane) (k : FreeKind) : Nat := Config.free k L.id L.draws
/-- A free value has been drawn. -/
def drawn (L : Lane) : Lane := { L with draws := L.draws + 1 }

/-! ### Memories -/

/-- One byte of lane SRAM; an unwritten byte reads 0 (log entry 8). -/
def sramByte (L : Lane) (a : Nat) : Byte := Tab.get 0 L.sram a
/-- The bytes `[a, a + n)` of lane SRAM. -/
def sramBytes (L : Lane) (a n : Nat) : List Byte := (List.range n).map (fun i => L.sramByte (a + i))
/-- Write consecutive bytes of lane SRAM. -/
def sramWrite (a : Nat) (bs : List Byte) (L : Lane) : Lane := { L with sram := Tab.putList 0 L.sram a bs }
/-- The bytes `[a, a + n)` of the STORE window. -/
def storeBytes (L : Lane) (a n : Nat) : List Byte := (List.range n).map (fun i => Tab.get 0 L.store (a + i))
/-- The store die's counter of the line at an offset of the STORE window: 64-byte lines in the first 16 MiB, 4 KiB blocks
beyond (R549). -/
def lineKey (a : Nat) : Nat := if a < 0x1000000 then a / 64 else 2 ^ 32 + a / 4096
/-- The lines that `n` bytes from an offset on touch. -/
def linesOf (a n : Nat) : List Nat := if n = 0 then [] else (List.range ((a + n - 1) / 64 - a / 64 + 1)).map (fun i => (a / 64 + i) * 64)
/-- Every line of a range is written once more (R549). -/
def wearLines (a n : Nat) (L : Lane) : Lane :=
  { L with test := { L.test with
      lines := (linesOf a n).foldl (fun t x => Tab.put 0 t (lineKey x) (Tab.get 0 t (lineKey x) + 1)) L.test.lines } }
/-- Write consecutive bytes of the STORE window, which the store die counts by line (R549). -/
def storeWrite (a : Nat) (bs : List Byte) (L : Lane) : Lane :=
  { L.wearLines a bs.length with store := Tab.putList 0 L.store a bs }

/-! ### Sub-structures -/

/-- Change one function of the ROLE block. -/
def onFn (f : Func) (g : RoleFn → RoleFn) (L : Lane) : Lane :=
  { L with roles := { L.roles with fn := vupd L.roles.fn f.ix g } }
/-- One function of the ROLE block. -/
def fn (L : Lane) (f : Func) : RoleFn := vget L.roles.fn f.ix
/-- Change one drive engine. -/
def onDe (n : Engine) (g : EngineSt → EngineSt) (L : Lane) : Lane := { L with engine := vupd L.engine n g }
/-- One drive engine. -/
def de (L : Lane) (n : Engine) : EngineSt := vget L.engine n
/-- Change one motor supervisor. -/
def onMot (p : Port) (g : MotorSt → MotorSt) (L : Lane) : Lane := { L with motor := vupd L.motor p g }
/-- Change one core. -/
def onCore (c : Core) (g : CoreSt → CoreSt) (L : Lane) : Lane := { L with core := vupd L.core c g }
/-- Change one pair. -/
def onPair (p : Pair) (g : PairSt → PairSt) (L : Lane) : Lane := { L with pair := vupd L.pair p g }
/-- Change one solenoid driver. -/
def onSv (n : Fin 4) (g : SolenoidSt → SolenoidSt) (L : Lane) : Lane := { L with solenoid := vupd L.solenoid n g }
/-- Change the gate drive. -/
def onGate (g : GateSt → GateSt) (L : Lane) : Lane := { L with gate := g L.gate }
/-- Change the guard. -/
def onGuard (g : GuardSt → GuardSt) (L : Lane) : Lane := { L with guardSt := g L.guardSt }
/-- Change the retained-state machinery. -/
def onRet (g : Retained → Retained) (L : Lane) : Lane := { L with ret := g L.ret }
/-- Change the start-up state. -/
def onStart (g : Start → Start) (L : Lane) : Lane := { L with start := g L.start }
/-- Change the time state. -/
def onTime (g : TimeSt → TimeSt) (L : Lane) : Lane := { L with time := g L.time }
/-- Change one Slaz controller. -/
def onSlaz (c : Fin 2) (g : SlazSt → SlazSt) (L : Lane) : Lane := { L with slaz := vupd L.slaz c g }
/-- Change one host port. -/
def onHost (h : Fin 4) (g : HostSt → HostSt) (L : Lane) : Lane := { L with host := vupd L.host h g }
/-- Change one queue. -/
def onQueue (q : Fin 16) (g : QueueSt → QueueSt) (L : Lane) : Lane := { L with queue := vupd L.queue q g }
/-- Change one power domain. -/
def onDom (d : Fin 8) (g : DomainSt → DomainSt) (L : Lane) : Lane :=
  { L with power := { L.power with dom := vupd L.power.dom d g } }
/-- Change the security subsystem. -/
def onSec (g : SecSt → SecSt) (L : Lane) : Lane := { L with sec := g L.sec }
/-- Change the update engine. -/
def onUpd (g : UpdateSt → UpdateSt) (L : Lane) : Lane := { L with update := g L.update }
/-- Change the test and ageing engines. -/
def onTest (g : TestSt → TestSt) (L : Lane) : Lane := { L with test := g L.test }
/-- Change the vote machinery. -/
def onVote (g : Vote → Vote) (L : Lane) : Lane := { L with vote := g L.vote }
/-- Change the ISOBUS controller. -/
def onIso (g : IsobusSt → IsobusSt) (L : Lane) : Lane := { L with isobus := g L.isobus }
/-- Change the debug transport. -/
def onDbg (g : DebugSt → DebugSt) (L : Lane) : Lane := { L with dbg := g L.dbg }

/-! ### Service states and the image -/

/-- The service state (R54). -/
def svc (L : Lane) : Nat := L.rd Reg.SYS_STATE_STATE
/-- The loaded structure image (R59). -/
def img (L : Lane) : Sections := L.start.image.sec
/-- The FUNC record of a function (R69). -/
def frec (L : Lane) (f : Func) : FuncRec := vget L.img.func f.ix
/-- The image assigns the function (R20). -/
def present (L : Lane) (f : Func) : Bool := decide ((L.frec f).present = 1)
/-- The functions that the image assigns, in the order of FUNC. -/
def functions (L : Lane) : List Func := Func.all.filter L.present
/-- The bridge port of a function (R69). -/
def portOf (L : Lane) (f : Func) : Option Port :=
  if h : L.present f ∧ (L.frec f).port < 3 then some ⟨(L.frec f).port, h.2⟩ else none
/-- The function that a bridge port serves (R20). -/
def funcOfPort (L : Lane) (p : Port) : Option Func := Func.all.find? (fun f => decide (L.portOf f = some p))
/-- A solenoid driver belongs to a function (R69). -/
def svOf (L : Lane) (f : Func) (n : Fin 4) : Bool := L.present f && nbit (L.frec f).svMask n.val
/-- The function that a solenoid driver serves. -/
def funcOfSv (L : Lane) (n : Fin 4) : Option Func := Func.all.find? (fun f => L.svOf f n)
/-- The solenoid drivers of a function. -/
def svsOf (L : Lane) (f : Func) : List (Fin 4) := (List.finRange 4).filter (L.svOf f)
/-- The lifecycle state (R489). -/
def lifecycle (L : Lane) : Nat := L.sec.lc
/-- The lane is in READY, ARMED, SERVICE or AUTUMN. -/
def upState (L : Lane) : Bool := decide (2 ≤ L.svc) && decide (L.svc ≤ 5)
/-- The lane is in ARMED, SERVICE or AUTUMN. -/
def armedState (L : Lane) : Bool := decide (3 ≤ L.svc) && decide (L.svc ≤ 5)
/-- Lane firmware runs: READY or later, WINTER and TEST included (R30). -/
def firmware (L : Lane) : Bool := decide (L.start.phase = .running)
/-- The lane has supply and its lane die is out of reset. -/
def powered (L : Lane) : Bool := decide (L.start.phase ≠ .noSupply) && decide (L.start.phase ≠ .dieReset)
/-- The guard's state (R334): 0 HOLD, 1 ARM, 2 RUN, 3 FORCED. -/
def gstate (L : Lane) : Nat := L.rd Reg.LG_STATUS_GSTATE
/-- A lane feature is accepted and locked (R41 to R43). -/
def feature (L : Lane) (bit : Nat) : Bool :=
  L.is Reg.SYS_FEAT_CTRL_LOCK && nbit (L.rd (Reg.SYS_FEAT_ACCEPT (bit / 32))) (bit % 32)
/-- The locked lane feature set as a number (R43). -/
def featSet (L : Lane) : Nat :=
  L.rd (Reg.SYS_FEAT_ACCEPT 0) + 2 ^ 32 * L.rd (Reg.SYS_FEAT_ACCEPT 1) + 2 ^ 64 * L.rd (Reg.SYS_FEAT_ACCEPT 2) +
    2 ^ 96 * L.rd (Reg.SYS_FEAT_ACCEPT 3)
/-- PERIOD of a function in ns (R120). -/
def periodNs (L : Lane) (f : Func) : Nat := L.rd (Reg.ROLE_REFWD_PERIOD f.code) * 10000
/-- The stepping (R29). -/
def stepping (L : Lane) : Nat := L.rd Reg.SYS_ID_STEPPING
/-- The role that the lane holds for a function (R117). -/
def role (L : Lane) (f : Func) : Nat := L.rd (Reg.ROLE_FUNC_ROLE f.code)
/-- The mode of a function: 0 service, 1 Autumn, 2 Winter (R117). -/
def mode (L : Lane) (f : Func) : Nat := L.rd (Reg.ROLE_FUNC_MODE f.code)
/-- The lane serves the function (R88). -/
def serves (L : Lane) (f : Func) : Bool := (L.fn f).served
/-- The lanes that serve a function as this lane's ROLE block has it (R88). -/
def servingSet (L : Lane) (f : Func) : List LaneId :=
  [LaneId.a, .b, .c].filter (fun l => nbit (L.rd (Reg.ROLE_FUNC_SERVING f.code)) l.code)
/-- The active bank (R510). -/
def activeBank (L : Lane) : Fin 2 := Fin.ofNat 2 L.update.active
/-- The bank that is not active (R510). -/
def inactiveBank (L : Lane) : Fin 2 := if L.update.active = 0 then 1 else 0
/-- A key slot is valid (R487, R599). -/
def keyValid (L : Lane) (k : Fin 6) : Bool :=
  let s := vget L.sec.keys k
  s.programmed && !s.revoked1 && !s.revoked2
/-- The public key in a slot (R487). -/
def slotKey (L : Lane) (k : Nat) : Nat := if h : k < 6 then (vget L.sec.keys ⟨k, h⟩).key else 0
/-- The functions that have a bridge port. -/
def portFunctions (L : Lane) : List Func := Func.all.filter (fun f => (L.portOf f).isSome)
/-- The lane is token-open (R494). -/
def tokenOpen (L : Lane) : Bool := L.is Reg.SE_DBG_OPEN
/-- Every PARK driver of the lane is off (R30). -/
def parkOff (L : Lane) : Bool := (L.svsOf .park).all (fun n => decide ((vget L.solenoid n).setpoint = 0))

end Lane

end Sys2Proof.Machine
end

