-- ==== Sys2Proof/Machine/Bytes.lean ====
section
/-! DEFINITION. What bytes spell: the structure image (R60 to R81, R373), the manifest (R512, R513), a retained slot (R35, R603);
the two standards whose results the spec uses without defining them (R36, R61, R488). -/

namespace Sys2Proof.Machine

/-- Ed448 verification of a signature over a message under a context, as FIPS 186-5 defines it (R488; log entry 6). -/
def ed448Ok (ctx key : Nat) (msg sig : List Byte) : Bool :=
  decide (Config.freeOf .standard ((ctx : Int) :: (key : Int) :: (msg ++ sig).map (fun b => (b.toNat : Int))) = 1)
/-- SHAKE256 over a message (FIPS 202; log entry 6). -/
def shake (n : Nat) (msg : List Byte) : List Byte :=
  leBytes n (Config.freeOf .standard ((-1 : Int) :: (n : Int) :: msg.map (fun b => (b.toNat : Int)))).toNat

/-- The number in bytes `[at, at + n)` of a list (R2). -/
def field (b : List Byte) (at' n : Nat) : Nat := ofLe ((b.drop at').take n)
/-- The signed number in four bytes (R2). -/
def sfield (b : List Byte) (at' : Nat) : Int := sgn 32 (field b at' 4)
/-- Bytes that the spec fixes at 0: the offsets of those that are not. -/
def notZero (b : List Byte) (at' n : Nat) : List Nat :=
  ((b.drop at').take n).zipIdx.filterMap (fun x => if x.1 = 0 then none else some (at' + x.2))

/-! ### The structure image (R60 to R81) -/

namespace ImageBytes

/-- The header (R60); its reserved bytes belong to no check. -/
def header (b : List Byte) : ImageHeader :=
  { magic := field b 0 4, format := field b 4 2, fptVersion := field b 6 2, targetPart := field b 8 2, minStepping := field b 10 1,
    keySlot := field b 11 1, totalLen := field b 12 4, sectionCount := field b 16 2, retainedSchema := field b 18 2,
    imageVersion := field b 20 4, featReq := field b 24 16 }
/-- A directory entry (R62). -/
def entry (b : List Byte) (k : Nat) : DirEntry :=
  let x := b.drop (64 + 16 * k)
  { type := field x 0 2, lane := field x 2 1, sver := field x 3 1, offset := field x 4 4, len := field x 8 4, reserved := field x 12 4 }
/-- The directory: SECTION_COUNT entries from byte 64 on, of which at most 64 are read. -/
def dir (b : List Byte) : List DirEntry := (List.range (min 64 (header b).sectionCount)).map (entry b)
/-- The first entry whose padding up to the next 64-byte boundary is not 0 (R63). -/
def padBad (b : List Byte) (d : List DirEntry) : Option Nat :=
  d.findIdx? (fun e =>
    let stop := e.offset + e.len
    decide (((b.drop stop).take ((64 - stop % 64) % 64)).any (fun x => decide (x ≠ 0)) = true))
/-- The section of a type that the lane with a letter uses: the common one, else the one of its letter (R15, R63). -/
def secOf (b : List Byte) (d : List DirEntry) (l : LaneId) (ty : Nat) : List Byte :=
  let common := [1, 4, 5, 7, 8].contains ty
  match d.find? (fun e => decide (e.type = ty) && decide (e.lane = if common then 3 else l.code)) with
  | some e => (b.drop e.offset).take e.len
  | none => []

/-- A function record of FUNC (R69). -/
def func (s : List Byte) (f : Nat) : FuncRec :=
  let x := s.drop (32 * f)
  { present := field x 0 1, port := field x 1 1, ganged := field x 2 1, svMask := field x 3 1, roleOrder := field x 4 1,
    loop := field x 5 1, pwmFreq := field x 8 2, share := Vector.ofFn (fun (k : Fin 3) => field x (10 + 2 * k.val) 2) }
/-- A solenoid record of FUNC (R71). -/
def sv (s : List Byte) (n : Nat) : SvRec :=
  let x := s.drop (160 + 8 * n)
  { safe := field x 0 1, safeMa := field x 2 2, maxMa := field x 4 2 }
/-- A port record of SENSE (R72). -/
def sense (s : List Byte) (p : Nat) : SenseRec :=
  let x := s.drop (32 * p)
  { srcMask := field x 0 1, polePairs := field x 1 1, qeFilt := field x 2 1, encCounts := field x 4 4, resExc := field x 8 2,
    voteTol := field x 10 2, hfiMax := field x 12 2, hfiXcheck := field x 14 2 }
/-- A SENT record of SENSE (R72). -/
def sent (s : List Byte) (n : Nat) : SentRec :=
  let x := s.drop (96 + 8 * n)
  { tick := field x 0 2, pause := field x 2 1, use := field x 3 1 }
/-- A mode descriptor of SLAZ (R73). -/
def mode (s : List Byte) (m : Nat) : ModeRec :=
  let x := s.drop (64 + 8 * m)
  { cycles := field x 0 1, windows := field x 1 1, first := field x 2 2, count := field x 4 2, cycleLen := field x 6 2 }
/-- A window entry (R373). -/
def window (x : List Byte) : SlazEntry :=
  let flags := field x 3 1
  { cycBase := field x 0 1, rept := field x 1 1, window := field x 2 1, chan := Fin.ofNat 2 flags,
    kind := (match nbits flags 1 2 with
      | 0 => .exclusive
      | 1 => .arbitrating
      | 2 => .reference
      | _ => .vote),
    tx := nbit flags 3, rx := nbit flags 4, ident := field x 4 2, dlc := field x 6 1, buf := field x 7 1, start := field x 8 2,
    len := field x 10 2 }
/-- The window entries of SLAZ (R73): the whole 16-byte entries that the section holds behind its descriptors. -/
def windows (s : List Byte) : List SlazEntry :=
  (List.range ((s.length - 128) / 16)).map (fun k => window ((s.drop (128 + 16 * k)).take 16))
/-- The severities of FAULT, four bits a source, those that are not 0 (R74). -/
def severities (s : List Byte) : Tab Nat :=
  Tab.ofList 0 0 (((s.drop 36).take 512).flatMap (fun b => [b.toNat % 16, b.toNat / 16]))
/-- FAULT (R74). -/
def fault (s : List Byte) : FaultSec :=
  let m := field s 0 1
  { mode := m, react := Vector.ofFn (fun (k : Fin 8) => if m = 1 then field s (4 + 4 * k.val) 4 else 0),
    sev := if m = 1 then severities s else [] }
/-- A port record of HOST (R75). -/
def hostPort (s : List Byte) (h : Nat) : HostPortRec :=
  let x := s.drop (128 * h)
  { present := field x 0 1, kind := field x 1 1, transport := field x 2 1, perm := field x 4 4, cred := field x 64 57 }
/-- A queue record of HOST (R75). -/
def queue (s : List Byte) (q : Nat) : QueueRec :=
  let x := s.drop (512 + 4 * q)
  { port := field x 0 1, dir := field x 1 1, depth := field x 2 2 }
/-- An authority record of HOST (R75). -/
def auth (s : List Byte) (f : Nat) : AuthRec :=
  let x := s.drop (576 + 16 * f)
  { rank := Vector.ofFn (fun (k : Fin 4) => field x 0 2 / 16 ^ k.val % 16), ovrTorque := field x 4 2, ovrMs := field x 6 2,
    release := field x 8 1 }
/-- A record of POWER (R76). -/
def power (s : List Byte) (d : Nat) : PowerRec := { allow := field s (4 * d) 1, hostMask := field s (4 * d + 1) 1 }
/-- A function record of SEASON (R77). -/
def season (s : List Byte) (f : Nat) : SeasonRec :=
  let x := s.drop (16 * f)
  { autumnS := field x 0 4, rateLimit := field x 4 2, speedReq := field x 6 2, winterDecel := field x 8 2 }
/-- START with its retained-value records (R78, R79). -/
def start (s : List Byte) : StartSec :=
  { armMode := field s 0 1, gatherMs := field s 2 2, armVdcMin := field s 4 2, prechargeMs := field s 6 2, kmisMs := field s 8 1,
    recs := (List.range (field s 9 1)).map (fun k =>
      let x := (s.drop (16 + 16 * k)).take 16
      { ident := field x 0 1, inst := field x 1 1, lo := sfield x 4, hi := sfield x 8, dflt := sfield x 12 }) }
/-- TIME (R80). -/
def time (s : List Byte) : TimeSec :=
  { rxCorr := sfield s 0, txCorr := sfield s 4, jumpNs := field s 8 4, asEnable := field s 12 1 }
/-- A switch record of AGEING (R81). -/
def switch (s : List Byte) (p : Nat) : SwitchRec :=
  let x := s.drop (16 * p)
  { rthJc := field x 0 2, tauMs := field x 2 2, rthCa := field x 4 2, cmExp := field x 6 2, cmN0 := field x 8 4 }

/-- The sections of the image that a lane with a letter uses, as their fields (R15, R63, R64). -/
def sections (b : List Byte) (l : LaneId) : Sections :=
  let d := dir b
  let sec := secOf b d l
  let s3 := sec 3
  { func := Vector.ofFn (fun (f : Fin 5) => func (sec 1) f.val), sv := Vector.ofFn (fun (n : Fin 4) => sv (sec 1) n.val),
    sense := Vector.ofFn (fun (p : Fin 3) => sense (sec 2) p.val), sent := Vector.ofFn (fun (n : Fin 2) => sent (sec 2) n.val),
    slaz := { arbRate := field s3 0 1, dataRate := field s3 1 1, rank := field s3 2 1, modes := field s3 3 1,
              desc := Vector.ofFn (fun (m : Fin 8) => mode s3 m.val), entries := windows s3 },
    fault := fault (sec 4), hostPort := Vector.ofFn (fun (h : Fin 4) => hostPort (sec 5) h.val),
    queue := Vector.ofFn (fun (q : Fin 16) => queue (sec 5) q.val), auth := Vector.ofFn (fun (f : Fin 5) => auth (sec 5) f.val),
    power := Vector.ofFn (fun (d : Fin 8) => power (sec 6) d.val), season := Vector.ofFn (fun (f : Fin 5) => season (sec 7) f.val),
    eqxS := field (sec 7) 80 4, eqxSteer := field (sec 7) 84 2, eqxBrake := field (sec 7) 86 2, start := start (sec 8),
    time := time (sec 9), switches := Vector.ofFn (fun (p : Fin 3) => switch (sec 10) p.val), kmOps := field (sec 10) 48 4,
    kpOps := field (sec 10) 52 4, gdHours := field (sec 10) 56 4 }

/-- The reserved bytes of the section of a type as ranges, first byte and count (R69 to R81, R373), for a section of `n` bytes. -/
def reserved (ty n : Nat) (s : List Byte) : List (Nat × Nat) :=
  match ty with
  | 1 => (List.range 5).flatMap (fun f => [(32 * f + 6, 2), (32 * f + 16, 16)]) ++
      (List.range 4).flatMap (fun k => [(160 + 8 * k + 1, 1), (160 + 8 * k + 6, 2)])
  | 2 => (List.range 3).flatMap (fun p => [(32 * p + 3, 1), (32 * p + 16, 16)]) ++
      (List.range 2).map (fun k => (96 + 8 * k + 4, 4))
  | 3 => (4, 60) :: (List.range ((n - 128) / 16)).map (fun k => (128 + 16 * k + 12, 4))
  | 4 => [(1, 3)]
  | 5 => (List.range 4).flatMap (fun h => [(128 * h + 3, 1), (128 * h + 8, 56), (128 * h + 121, 7)]) ++
      (List.range 5).flatMap (fun f => [(576 + 16 * f + 2, 2), (576 + 16 * f + 9, 7)])
  | 6 => (List.range 8).map (fun d => (4 * d + 2, 2))
  | 7 => (List.range 5).map (fun f => (16 * f + 10, 6)) ++ [(88, 8)]
  | 8 => [(1, 1), (10, 6)] ++ (List.range (field s 9 1)).map (fun k => (16 + 16 * k + 2, 2))
  | 9 => [(13, 3)]
  | 10 => (List.range 3).map (fun p => (16 * p + 12, 4)) ++ [(60, 4)]
  | _ => []
/-- The reserved bytes of the lane's sections that are not 0: type and offset (R66 check 5), with the reserved bits of a window
entry's FLAGS (R373). -/
def badReserved (b : List Byte) (l : LaneId) : List (Nat × Nat) :=
  let d := dir b
  [1, 2, 3, 4, 5, 6, 7, 8, 9, 10].flatMap (fun ty =>
    let s := secOf b d l ty
    (reserved ty s.length s).flatMap (fun r => (notZero s r.1 r.2).map (fun o => (ty, o))) ++
      (if ty = 3 then (List.range ((s.length - 128) / 16)).filterMap (fun k =>
        if field s (128 + 16 * k + 3) 1 < 32 then none else some (3, 128 + 16 * k + 3)) else []))

/-- The trailer's signature verifies with a key, over every byte before the trailer and with the empty context (R61, R488). -/
def signed (b : List Byte) (key : Nat) : Bool := ed448Ok 0 key (b.take (b.length - 128)) ((b.drop (b.length - 128)).take 114)
/-- The image digest: SHAKE256 over the complete image (R61). -/
def digest (b : List Byte) : Nat := ofLe (shake 32 b)
/-- The image that bytes spell for the lane with a letter, with the stored length (R66 check 1) and the keys of the slots (R60). -/
def image (b : List Byte) (l : LaneId) (stored : Nat) (keys : Nat → Nat) : Image :=
  { header := header b, storedLen := stored, dir := dir b, digest := digest b, sigOk := signed b (keys (header b).keySlot),
    padBad := padBad b (dir b), badReserved := badReserved b l, sec := sections b l }

end ImageBytes

/-! ### The manifest (R512, R513) -/

/-- A part entry (R513). -/
def partOf (b : List Byte) (k : Nat) : PartEntry :=
  let x := (b.drop (64 + 96 * k)).take 96
  { type := field x 0 1, lanes := field x 1 1, inst := field x 2 1, enc := field x 3 1, version := field x 4 4, firstChunk := field x 8 4,
    inLen := field x 12 4, outLen := field x 16 4, outDigest := field x 20 32, baseDigest := field x 52 32, imcrc := field x 84 4,
    zeroOk := decide (field x 88 8 = 0) }
/-- The bytes of a manifest: header, entries, and the signature over them (R512). -/
def manifestSize (parts : Nat) : Nat := 64 + 96 * parts + 114
/-- The manifest that bytes spell, with the keys of the slots (R512). -/
def manifestOf (b : List Byte) (keys : Nat → Nat) : Manifest :=
  let n := manifestSize (field b 10 1)
  { magic := field b 0 4, format := field b 4 2, targetPart := field b 6 2, minStepping := field b 8 1, keySlot := field b 9 1,
    flags := field b 11 1, version := field b 12 4, floor := field b 16 4, chunks := field b 20 4, tableChunks := field b 24 4,
    tableDigest := field b 28 32, zeroOk := decide (field b 60 4 = 0), parts := (List.range (min 32 (field b 10 1))).map (partOf b),
    partCount := field b 10 1, digest := ofLe (shake 32 (b.take n)),
    sigOk := ed448Ok 0 (keys (field b 9 1)) (b.take (n - 114)) ((b.drop (n - 114)).take 114) }

/-- The parts of a manifest that a lane installs, each with its offset in a bank: the manifest is at the bank's first byte and each
part follows on a 64 KiB boundary, in manifest order (R510, R513, R520). -/
def installed (m : Manifest) (l : LaneId) : List (PartEntry × Nat) :=
  ((m.parts.filter (fun p => nbit p.lanes l.code)).foldl (fun x p =>
    (x.1 ++ [(p, x.2)], x.2 + (p.outLen + 65535) / 65536 * 65536)) (([] : List (PartEntry × Nat)), 65536)).1
/-- The part of a type and instance that a lane installs, with its offset in the bank. -/
def partAt (m : Manifest) (l : LaneId) (type inst : Nat) : Option (PartEntry × Nat) :=
  (installed m l).find? (fun x => decide (x.1.type = type) && decide (x.1.inst = inst))
/-- The first byte of a bank in the STORE window (R510). -/
def bankBase (b : Fin 2) : Nat := 0x10000000 * (b.val + 1)

/-! ### Deltas (R516) -/

/-- A delta applied to a base part: none for a record that reads outside the base or the delta, an output longer than OUT_LEN, or
a missing END. Records are taken in order; `fuel` is the delta's length, since every record takes at least one byte. -/
def applyDelta (base : List Byte) (outLen : Nat) : Nat → List Byte → List Byte → Option (List Byte)
  | 0, _, _ => none
  | fuel + 1, out, d =>
    if outLen < out.length then none
    else
      match d with
      | [] => none
      | op :: d =>
        let off := field d 0 4
        match op.toNat with
        | 0 => if out.length = outLen then some out else none
        | 1 =>
          let n := field d 4 4
          if d.length < 8 ∨ base.length < off + n then none
          else applyDelta base outLen fuel (out ++ (base.drop off).take n) (d.drop 8)
        | 2 => if d.length < 4 + off then none else applyDelta base outLen fuel (out ++ (d.drop 4).take off) (d.drop (4 + off))
        | 3 =>
          if d.length < 5 ∨ outLen < off then none
          else applyDelta base outLen fuel (out ++ List.replicate off (d.getD 4 0)) (d.drop 5)
        | _ => none
/-- The bytes of a delta that have been taken when its output first reaches `upto` bytes (R520). -/
def deltaTaken (upto : Nat) : Nat → Nat → Nat → List Byte → Nat
  | 0, _, taken, _ => taken
  | fuel + 1, out, taken, d =>
    if upto ≤ out then taken
    else
      match d with
      | [] => taken
      | op :: d =>
        let n := if op = 1 then field d 4 4 else field d 0 4
        let k := if op = 1 then 8 else if op = 2 then 4 + field d 0 4 else if op = 3 then 5 else 0
        if op = 0 then taken else deltaTaken upto fuel (out + n) (taken + 1 + k) (d.drop k)

/-! ### A retained slot (R35, R603) -/

/-- The ageing accumulators as 1,024 bytes. -/
def Ageing.bytes (a : Ageing) : List Byte :=
  let unit (n : Nat) : List Byte := leBytes 4 (min (2 ^ 32 - 1) (n / 2 ^ 40))
  let b := leBytes 8 a.hours ++ a.w.toList.flatMap unit ++
    (List.finRange 3).flatMap (fun p =>
      leBytes 4 (vget a.tjc p).toNat ++ leBytes 4 (vget a.turn p).toNat ++ leBytes 8 (vget a.dir p)) ++
    (List.finRange 9).flatMap (fun k =>
      let ws := (vget a.windows k).reverse
      (List.replicate (16 - ws.length) 0 ++ ws ++ [vget a.current k]).flatMap unit) ++ leBytes 4 a.winMs
  b ++ List.replicate (1024 - b.length) 0
/-- The accumulators that 1,024 bytes spell; of the 16 windows those count that have completed in AG_HOURS (log entry 45). -/
def ageingOf (b : List Byte) : Ageing :=
  let unit (o : Nat) : Nat := field b o 4 * 2 ^ 40
  { hours := field b 0 8, w := Vector.ofFn (fun (k : Fin 9) => unit (8 + 4 * k.val)),
    tjc := Vector.ofFn (fun (p : Fin 3) => BitVec.ofNat 32 (field b (44 + 16 * p.val) 4)),
    turn := Vector.ofFn (fun (p : Fin 3) => BitVec.ofNat 32 (field b (48 + 16 * p.val) 4)),
    dir := Vector.ofFn (fun (p : Fin 3) => field b (52 + 16 * p.val) 1),
    windows := Vector.ofFn (fun (k : Fin 9) =>
      (((List.range 16).map (fun j => unit (92 + 68 * k.val + 4 * j))).reverse).take (field b 0 8 / 10)),
    current := Vector.ofFn (fun (k : Fin 9) => unit (92 + 68 * k.val + 64)), winMs := field b 704 4 }
/-- The payload before the application area: 1,176 bytes. -/
def Payload.fixed (p : Payload) : List Byte :=
  p.trims.toList.flatMap (fun v => leBytes 4 (uns 32 v)) ++
    p.history.toList.flatMap (fun h => leBytes 4 h.index ++ leBytes 4 h.seq) ++
    p.autumn.toList.flatMap (fun r => leBytes 4 (b2n r.was) ++ leBytes 4 r.ms) ++ p.ageing.bytes
/-- The payload that 1,176 bytes and an application area spell. -/
def payloadOf (b : List Byte) (app : List Host.Cell) : Payload :=
  { trims := Vector.ofFn (fun (k : Fin 18) => sfield b (4 * k.val)),
    history := Vector.ofFn (fun (f : Fin 5) => ⟨field b (72 + 8 * f.val) 1, field b (76 + 8 * f.val) 4⟩),
    autumn := Vector.ofFn (fun (f : Fin 5) => ⟨decide (field b (112 + 8 * f.val) 1 = 1), field b (116 + 8 * f.val) 4⟩),
    ageing := ageingOf (b.drop 152), app := app }
/-- The first half of a slot's header (R35). -/
def slotHeader (magic seq len schema lane : Nat) : List Byte :=
  leBytes 4 magic ++ leBytes 4 seq ++ leBytes 4 len ++ leBytes 2 schema ++ leBytes 1 lane ++ List.replicate 17 0

end Sys2Proof.Machine
end

