-- ==== Sys2Proof/Machine/Wave.lean ====
section
/-! DEFINITION. What the carrier, the compares, the refresh pulses, BRIDGE and the guard make of the six switches of a port over a carrier
period, in fine ticks from its start, and the gate outputs with their interlock (R168, R170 to R172, R196, R282, R291, R312). A switch
turns off at its compare instant and its partner turns on DEAD later, as the worked example of *Single-shunt current measurement* has it. -/

namespace Sys2Proof.Machine

/-- The rising half of a period of `t` fine ticks (R167). -/
def risingHalf (t : Int) : Nat := t.toNat / 2
/-- Whether the value that a port forces or a program asks for outranks: 2 above 1 above 0 (R172, R249). -/
def bridgeOf (force asked : Nat) : Nat := max force asked
/-- A pattern with its compares limited to the halves of a period of `t` fine ticks (R168). -/
def limitCmp (t : Int) (x : Pattern) : Pattern :=
  let h := risingHalf t
  { x with cmp := Vector.ofFn (fun (k : Fin 6) => min (vget x.cmp k) (if k.val % 2 = 0 then h else t.toNat - h)) }

/-- What a load point at the peak takes from a pattern: the CMPB values, SP2, SP3 and BRIDGE (R169, R172, R195). -/
def atPeak (old new : Pattern) : Pattern :=
  { cmp := Vector.ofFn (fun (k : Fin 6) => if k.val % 2 = 0 then vget old.cmp k else vget new.cmp k)
    bridge := new.bridge
    sp := Vector.ofFn (fun (k : Fin 4) => if k.val < 2 then vget old.sp k else vget new.sp k) }

/-- What the switches of one phase do in a period, as instants from its start: the end of the low side's pulse in the rising half and the
start of its pulse in the falling half, none where it has none; the high side's pulse. -/
structure PhaseTimes where
  lowEnd : Int
  lowStart : Int
  highStart : Int
  highEnd : Int
  deriving DecidableEq, Repr

namespace Cycle

/-- CMPA and CMPB of a phase, limited to their halves. -/
def cmpA (c : Cycle) (x : Fin 3) : Int := ((vget (limitCmp c.period c.pat).cmp (Fin.ofNat 6 (2 * x.val)) : Nat) : Int)
def cmpB (c : Cycle) (x : Fin 3) : Int := ((vget (limitCmp c.period c.pat).cmp (Fin.ofNat 6 (2 * x.val + 1)) : Nat) : Int)
/-- The instants of a phase from its compares alone, with the dead time before each turn-on (R168, R170); with both compares at 0 the
high side stays off and the low side on. -/
def times (dead : Nat) (c : Cycle) (x : Fin 3) : PhaseTimes :=
  let h : Int := risingHalf c.period
  let a := c.cmpA x
  let b := c.cmpB x
  if a + b = 0 then ⟨h, h, 0, 0⟩ else ⟨h - a, h + b + dead, h - a + dead, h + b⟩
/-- The high side is on at the end of the period, where no refresh pulse follows (R168). -/
def endsHigh (c : Cycle) (coming : Bool) (x : Fin 3) : Bool :=
  decide (c.fall = 0) && !coming && decide (c.cmpA x + c.cmpB x ≠ 0) && decide (c.cmpB x = c.period.toNat - risingHalf c.period)
/-- When the low side's pulse that crosses the start of the next period begins, counted from that start; a period whose falling half is
not the compares' leaves nothing to wait for. -/
def lowFrom (dead : Nat) (c : Cycle) (x : Fin 3) : Int := if c.fall ≠ 0 then 0 else (c.times dead x).lowStart - c.period
/-- The commands of a phase from the compares, high side and low side, at an instant of the period (R168, R170): `before` and `after` are
the periods around it. A pulse shorter than MINP is not produced; a low-side pulse is judged over both periods that it lies in (log
entry 84). -/
def compared (dead minp : Nat) (before c after : Cycle) (x : Fin 3) (t : Int) : Bool × Bool :=
  let h : Int := risingHalf c.period
  let y := c.times dead x
  let joined := before.endsHigh false x && decide (c.cmpA x = h) && decide (c.rise = 0)
  let hs : Int := if joined then 0 else if c.rise = 0 then y.highStart else max y.highStart (h + (if c.rise = 2 then dead else 0))
  let high := decide (hs ≤ t) && decide (t < y.highEnd) && decide (minp ≤ y.highEnd - hs)
  let ls := max 0 (before.lowFrom dead x)
  let low :=
    if c.cmpA x + c.cmpB x = 0 then decide (ls ≤ t)
    else if t < h then decide (ls ≤ t) && decide (t < y.lowEnd) && decide (minp ≤ y.lowEnd - before.lowFrom dead x)
    else decide (y.lowStart ≤ t) && decide (minp ≤ (after.times dead x).lowEnd - c.lowFrom dead x)
  (high, low)
/-- The commands of a phase in the precedence of R172 below the guard: BRIDGE 2, its low sides on DEAD after a high side that was on;
BRIDGE 1, under which only the pulses of CHARGE act (R265); a refresh pulse of `w` fine ticks around the start or the end, with DEAD on
either side of it (R171); the compares. -/
def phase (dead minp w : Nat) (before c after : Cycle) (x : Fin 3) (t : Int) : Bool × Bool :=
  let h : Int := risingHalf c.period
  let cmp := compared dead minp before c after x
  let first : Int := (w / 2 : Nat)
  let rest : Int := (w - w / 2 : Nat)
  let at1 := vget c.refresh x
  let at2 := vget after.refresh x
  let start := at1 && decide (t < first)
  let stop := at2 && decide (c.period - rest ≤ t)
  match if t < h then c.rise else c.fall with
  | 2 =>
    let wait := if t < h ∨ c.rise = 2 then before.endsHigh (vget c.refresh x) x && decide (t < dead)
      else decide (c.rise = 0) && (cmp (h - 1)).1 && decide (t < h + dead)
    (false, !wait)
  | 1 => (false, (start && c.charge) || (stop && after.charge))
  | _ =>
    let blank := (at1 && decide (t < first + dead)) || (at2 && decide (c.period - rest - dead ≤ t))
    if start || stop then (false, true) else if blank then (false, (cmp t).2) else cmp t
/-- The instants at which a phase's commands can change. -/
def edges (dead w : Nat) (before c : Cycle) (x : Fin 3) : List Int :=
  let h : Int := risingHalf c.period
  let y := c.times dead x
  let first : Int := (w / 2 : Nat)
  let rest : Int := (w - w / 2 : Nat)
  [0, (dead : Int), h, h + dead, y.lowEnd, y.lowStart, y.highStart, y.highEnd, before.lowFrom dead x, first, first + dead,
   c.period - rest, c.period - rest - dead]

end Cycle

/-- The three periods around an instant, told from the start of the middle one: the one before, the running one and the coming one. -/
structure Waves where
  dead : Nat
  minp : Nat
  w : Nat
  before : Cycle
  running : Cycle
  after : Cycle
  deriving DecidableEq, Repr

namespace Waves

/-- The commands of a phase at an instant, which may lie in the period before or in the coming one. -/
def cmd (v : Waves) (x : Fin 3) (t : Int) : Bool × Bool :=
  if t < 0 then Cycle.phase v.dead v.minp v.w v.before v.before v.running x (t + v.before.period)
  else if t < v.running.period then Cycle.phase v.dead v.minp v.w v.before v.running v.after x t
  else Cycle.phase v.dead v.minp v.w v.running v.after v.after x (t - v.running.period)
/-- Every instant at which a phase's commands can change. -/
def edges (v : Waves) (x : Fin 3) : List Int :=
  (Cycle.edges v.dead v.w v.before v.before x).map (· - v.before.period) ++ Cycle.edges v.dead v.w v.before v.running x ++
    (Cycle.edges v.dead v.w v.running v.after x).map (· + v.running.period)
/-- The commands of a phase are the same throughout `[lo, hi)`. -/
def constant (v : Waves) (x : Fin 3) (lo hi : Int) : Bool :=
  (v.edges x).all (fun e => !(decide (lo < e) && decide (e < hi)) || v.cmd x e == v.cmd x lo)
/-- The fine ticks of `[lo, hi)` in which the low side of a phase is on. -/
def lowOn (v : Waves) (x : Fin 3) (lo hi : Int) : Int :=
  let es := lo :: ((v.edges x).filter (fun e => decide (lo < e) && decide (e < hi))).mergeSort (fun a b => decide (a ≤ b)) ++ [hi]
  (es.zip es.tail).foldl (fun n e => if (v.cmd x e.1).2 then n + (e.2 - e.1) else n) 0

end Waves

namespace Lane

/-- The engine's bridge port (R154). -/
def portOfEngine (n : Engine) : Option Port := if h : n.val < 3 then some ⟨n.val, h⟩ else none
/-- The BRIDGE value in force at a port (R172, R249). -/
def bridgeNow (L : Lane) (p : Port) : Nat := bridgeOf (vget L.motor p).inForce (L.de p.castSucc).active.bridge
/-- Device time in fine ticks of 150 ps (R167). -/
def nowTick (L : Lane) : Int := (L.time.dev * 20 / 3 / 2 ^ 48 : Nat)
/-- The start of period k on the 150 ps grid, in fine ticks of device time (R167). -/
def gridTick (L : Lane) (n : Engine) (k : Int) : Int :=
  let q : Int := max 1 (L.rd (Reg.DE_PWM_INFO_FREQ n.val))
  let num := (3 * q * L.rd (Reg.DE_PWM_PHASE_PHASE n.val) + (3 * k + L.id.code) * 10000000) * 20
  (2 * num + 9 * q) / (18 * q)
/-- The period index k of R167 whose grid point lies nearest to an instant. -/
def gridIndex (L : Lane) (n : Engine) (t : Int) : Int :=
  let q : Int := max 1 (L.rd (Reg.DE_PWM_INFO_FREQ n.val))
  (6 * q * (3 * t - 20 * L.rd (Reg.DE_PWM_PHASE_PHASE n.val)) - 40000000 * L.id.code + 600000000) / 1200000000
/-- The coming period start of an engine: the first point of the grid after READY; while the gate enable is off, or for DE_3, the point
nearest to the end of the running period; else that end (R167, R173; log entry 84). -/
def comingTick (L : Lane) (n : Engine) : Int :=
  let e := L.de n
  let near (t : Int) : Int := L.gridTick n (L.gridIndex n t)
  if e.period = 0 then (if e.psTick < near e.psTick then near e.psTick else L.gridTick n (L.gridIndex n e.psTick + 1))
  else if (portOfEngine n).any (fun p => L.bitOf Reg.GD_STAT_EN p.val) then e.psTick + e.period
  else near (e.psTick + e.period)
/-- The peak of an engine's running period. -/
def peakTick (L : Lane) (n : Engine) : Int := (L.de n).psTick + risingHalf (L.de n).period
/-- The generator loads at the peak too: DE_CTRL.LOOP with DE_DUAL accepted (R42, R169). -/
def loops (L : Lane) (n : Engine) : Bool := decide (n.val < 3) && L.feature 2 && L.is (Reg.DE_CTRL_LOOP n.val)
/-- The coming load point and the one after it (R169). -/
def loadTicks (L : Lane) (n : Engine) : Int × Int :=
  let ps := L.comingTick n
  let t := (L.de n).period
  if !L.loops n then (ps, ps + t)
  else if (L.de n).falling || decide (t = 0) then (ps, ps + risingHalf t) else (L.peakTick n, ps)
/-- A time in fine ticks in whole ns. -/
def tickNs (t : Int) : Nat := (t * 3 / 20).toNat
/-- The running period of a port, a load still to come at its peak included. -/
def cycleOf (L : Lane) (p : Port) : Cycle :=
  let e := L.de p.castSucc
  let x := if L.loops p.castSucc && !e.falling && e.counted then atPeak e.active e.committed else e.active
  ⟨x, e.rise, bridgeOf (vget L.motor p).inForce x.bridge, e.period, e.refreshed, e.charged⟩
/-- The coming period of a port as the generator holds it now: the counted COMMIT, else the pattern in force (R169); CHARGE refreshes
every phase (R265). -/
def comingOf (L : Lane) (p : Port) : Cycle :=
  let e := L.de p.castSucc
  let x := if e.counted then e.committed else e.active
  let b := bridgeOf (vget L.motor p).force x.bridge
  let m := vget L.motor p
  ⟨x, b, b, e.period, Vector.ofFn (fun (k : Fin 3) => vget e.refresh k || m.charge), m.charge⟩
/-- Nothing above the pattern holds the port: its gate enable is on, the guard neither shorts it nor turns a switch of it off (R172). -/
def patternRules (L : Lane) (p : Port) : Bool :=
  L.bitOf Reg.GD_STAT_EN p.val && !L.bitOf Reg.GD_STAT_ASC p.val &&
    (List.finRange 18).all (fun b => !decide (b.val / 6 = p.val) || decide (vget L.gate.stage b = .free))
/-- The periods around now of a port. -/
def waves (L : Lane) (p : Port) : Waves :=
  ⟨L.rd (Reg.DE_PWM_DEAD_DEAD p.val), L.rd (Reg.DE_PWM_DEAD_MINP p.val), L.rd (Reg.DE_PWM_BOOT_BOOT_W p.val),
    (L.de p.castSucc).last, L.cycleOf p, L.comingOf p⟩
/-- The port of a switch bit, numbered 6 × p + 2 × x + s (R301). -/
def switchPort (b : Fin 18) : Port := Fin.ofNat 3 (b.val / 6)
/-- The phase of a switch bit. -/
def switchPhase (b : Fin 18) : Fin 3 := Fin.ofNat 3 (b.val / 2)
/-- A low-side switch. -/
def lowSide (b : Fin 18) : Bool := decide (b.val % 2 = 1)
/-- What the precedence of R172 asks of a switch at an instant of its port's period: off while the guard holds it, on for a low side in the
guard's short circuit, off without the gate enable, else what BRIDGE, the refresh pulses and the compares make of it. -/
def asked (L : Lane) (b : Fin 18) (t : Int) : Bool :=
  let p := switchPort b
  if vget L.gate.stage b ≠ .free then false
  else if L.bitOf Reg.GD_STAT_ASC p.val then lowSide b
  else if !L.bitOf Reg.GD_STAT_EN p.val then false
  else
    let c := (L.waves p).cmd (switchPhase b) t
    if lowSide b then c.2 else c.1
/-- What is asked of a switch now. -/
def askedNow (L : Lane) (b : Fin 18) : Bool := L.asked b (L.nowTick - (L.de (switchPort b).castSucc).psTick)
/-- The elapsed time from which on a gate that is turned off now lies within 1 V of its reference: the spec bounds it only in a soft
turn-off (R284; log entry 85). -/
def gateFalls (L : Lane) (b : Fin 18) : Nat :=
  L.el + (Config.freeOf .gateFall [L.id.code, b.val, L.el]).toNat % (10 * L.rd Reg.GD_CFG_T1 + 301)
/-- A gate output follows what is asked: it turns off at once, and turns on only while the other gate of its phase is not commanded on and
lies within 1 V of its reference (R312). -/
def gateFollow (b : Fin 18) (L : Lane) : Lane :=
  let other : Fin 18 := if lowSide b then Fin.ofNat 18 (b.val - 1) else Fin.ofNat 18 (b.val + 1)
  let d := vget L.gate.drive b
  let o := vget L.gate.drive other
  let put (x : Drive) : Lane := L.onGate (fun g => { g with drive := vupd g.drive b (fun _ => x) })
  if L.askedNow b then (if !d.on && !o.on && decide (o.falls ≤ L.el) then put { d with on := true } else L)
  else if d.on then put ⟨false, L.gateFalls b⟩ else L
/-- Every gate output follows what is asked of it now. -/
def gateFollowAll (L : Lane) : Lane := L.each (List.finRange 18) gateFollow

end Lane

end Sys2Proof.Machine
end

