-- ==== Sys2Proof/Machine/Flags.lean ====
section
/-! DEFINITION. The flags of the fault collector: the class of every source, its severity and reaction, the
objects that sources name, the summary (R343 to R359). -/

namespace Sys2Proof.Machine

/-- The fixed class of a source: 0 reserved position, 1 corrected, 2 uncorrected but contained, 3 fatal (R359,
R363). -/
def fixedClass (n : Nat) : Nat :=
  if [18, 227, 231, 454].contains n then 3
  else if decide (n ≤ 4) || n == 9 || (decide (64 ≤ n) && decide (n ≤ 67)) || (decide (72 ≤ n) && decide (n ≤ 74)) ||
      (decide (76 ≤ n) && decide (n ≤ 78)) || (decide (131 ≤ n) && decide (n ≤ 133)) ||
      (decide (147 ≤ n) && decide (n ≤ 149)) || n == 261 || n == 321 || n == 322 || n == 385 || n == 448 || n == 452
  then 1
  else if (decide (5 ≤ n) && decide (n ≤ 8)) || n == 10 || n == 16 || n == 17 || (decide (19 ≤ n) && decide (n ≤ 22)) ||
      (decide (68 ≤ n) && decide (n ≤ 71)) || (decide (80 ≤ n) && decide (n ≤ 82)) ||
      (decide (128 ≤ n) && decide (n ≤ 130)) || (decide (136 ≤ n) && decide (n ≤ 140)) ||
      (decide (144 ≤ n) && decide (n ≤ 146)) || (decide (150 ≤ n) && decide (n ≤ 152)) ||
      (decide (192 ≤ n) && decide (n ≤ 226)) || (decide (228 ≤ n) && decide (n ≤ 230)) ||
      (decide (232 ≤ n) && decide (n ≤ 239)) || (decide (256 ≤ n) && decide (n ≤ 260)) || n == 320 ||
      (decide (323 ≤ n) && decide (n ≤ 331)) || n == 384 || n == 388 || n == 389 || (decide (392 ≤ n) && decide (n ≤ 394)) ||
      (decide (449 ≤ n) && decide (n ≤ 451)) || n == 453
  then 2 else 0

/-- The extra reaction of a source in CLASS mode: WD_OWN bit 7, WD_ACT bit 8 (R359). -/
def classExtra (n : Nat) : Nat :=
  if n = 21 then 0x100
  else if (decide (128 ≤ n) && decide (n ≤ 130)) || n == 139 || n == 140 || (decide (150 ≤ n) && decide (n ≤ 152)) ||
      (decide (232 ≤ n) && decide (n ≤ 239)) then 0x80
  else 0

/-- The base reaction of a class (R351). -/
def classReaction : Nat → Nat
  | 1 => 0x001
  | 2 => 0x003
  | 3 => 0x203
  | _ => 0

/-- The bridge port that a source names (R359). -/
def portOfSource (n : Nat) : Option Nat :=
  if 72 ≤ n ∧ n ≤ 74 then some (n - 72)
  else if 76 ≤ n ∧ n ≤ 78 then some (n - 76)
  else if 80 ≤ n ∧ n ≤ 82 then some (n - 80)
  else if 128 ≤ n ∧ n ≤ 130 then some (n - 128)
  else if 131 ≤ n ∧ n ≤ 133 then some (n - 131)
  else if 144 ≤ n ∧ n ≤ 146 then some (n - 144)
  else if 147 ≤ n ∧ n ≤ 149 then some (n - 147)
  else if 150 ≤ n ∧ n ≤ 152 then some (n - 150)
  else if 192 ≤ n ∧ n ≤ 209 then some ((n - 192) / 6)
  else if 210 ≤ n ∧ n ≤ 212 then some (n - 210)
  else if 213 ≤ n ∧ n ≤ 215 then some (n - 213)
  else if 216 ≤ n ∧ n ≤ 224 then some ((n - 216) / 3)
  else if 228 ≤ n ∧ n ≤ 230 then some (n - 228)
  else none

/-- The pair of a core (R126). -/
def pairOf (c : Core) : Pair := if c.val < 2 then 0 else 1

namespace Lane

/-- A pair runs paired (R149). -/
def paired (L : Lane) (p : Pair) : Bool := L.bitOf Reg.CM_STATUS_PAIRED p.val
/-- The function of a port given by its number. -/
def funcOfPortNat (L : Lane) (p : Nat) : Option Func := if h : p < 3 then L.funcOfPort ⟨p, h⟩ else none

/-- The functions served by the object that a source names (R349). -/
def ownFuncs (L : Lane) (n : Nat) : List Func :=
  match portOfSource n with
  | some p => (L.funcOfPortNat p).toList
  | none =>
    if n = 139 ∨ n = 140 then
      let use := (vget L.img.sent (if n = 139 then 0 else 1)).use
      if use = 1 ∨ use = 2 then [.steer, .feel] else []
    else if 232 ≤ n ∧ n ≤ 239 then (L.funcOfSv (Fin.ofNat 4 (n - 232))).toList
    else if 136 ≤ n ∧ n ≤ 138 then
      (List.finRange 3).flatMap
        (fun p => if nbit (vget L.img.sense p).srcMask (n - 136) then (L.funcOfPort p).toList else [])
    else []

/-- The severity that the image gives a source (R74). -/
def severity (L : Lane) (n : Nat) : Nat := if fixedClass n = 0 then 0 else Tab.get 0 L.img.fault.sev n % 8
/-- The collector runs in SEVERITY mode: the image says so and the feature is accepted (R42, R353). -/
def severityMode (L : Lane) : Bool := L.is Reg.FC_STATUS_MODE && L.feature 5
/-- The reaction of a source under the present mode (R347, R351, R352). -/
def reaction (L : Lane) (n : Nat) : Nat :=
  if L.severityMode then L.rd (Reg.FC_REACT (L.severity n)) else classReaction (fixedClass n) ||| classExtra n
/-- A fatal source (R346). -/
def fatalSource (L : Lane) (n : Nat) : Bool :=
  if L.severityMode then nbit (L.reaction n) 9 && decide (fixedClass n ≠ 0) else decide (fixedClass n = 3)
/-- The sticky bit of a source (R343). -/
def sticky (L : Lane) (n : Nat) : Bool := L.bitOf (Reg.FC_STICKY_S (n / 32)) (n % 32)
/-- The source positions of the sources that stepping B connects lie below 512 (R359). -/
def stickySources (L : Lane) : List Nat := (List.range 512).filter L.sticky
/-- A sticky bit of a fatal source is set (R346). -/
def fatalSticky (L : Lane) : Bool := L.stickySources.any L.fatalSource
/-- The fault summary (R354). -/
def summary (L : Lane) : Nat :=
  let ss := L.stickySources
  let present := if L.severityMode then (List.range 8).foldl (fun v s => v + (if ss.any (fun n => L.severity n == s) then 2 ^ s else 0)) 0
    else (List.range 3).foldl (fun v c => v + (if ss.any (fun n => fixedClass n == c + 1) then 2 ^ c else 0)) 0
  present + 256 * min 255 ss.length
/-- The record of SENSE of a port. -/
def sense (L : Lane) (p : Port) : SenseRec := vget L.img.sense p
/-- A port carries a ganged function (R19, R69). -/
def gangedPort (L : Lane) (p : Port) : Bool :=
  match L.funcOfPort p with
  | some f => decide ((L.frec f).ganged = 1)
  | none => false
/-- The own source of a port has failed. -/
def ownFailed (L : Lane) (p : Port) : Bool :=
  (nbit (L.sense p).srcMask 0 && L.is (Reg.QE_STAT_FAIL 0)) || (nbit (L.sense p).srcMask 1 && L.is (Reg.QE_STAT_FAIL 1)) ||
    (nbit (L.sense p).srcMask 2 && L.is Reg.QE_RS_STAT_FAIL)
/-- The own sensor of a port is lost (R237). -/
def sensorGone (L : Lane) (p : Port) : Bool := L.is (Reg.QE_VOTE_OWNFAIL p.val) || (L.gangedPort p && L.ownFailed p)
/-- The flag or the lasting condition that a source is named after is present now (R344, R359); `level` holds the conditions that the
state shows nowhere else. -/
def sourceLevel (L : Lane) (n : Nat) : Bool :=
  let at1 (a k : Nat) (f : Nat → Bool) : Bool := decide (a ≤ n) && decide (n < a + k) && f (n - a)
  L.fault.level.contains n ||
    at1 21 2 (fun p => L.bitOf Reg.CM_STATUS_DEBUG p) ||
    at1 128 3 (fun p => L.is (Reg.CS_STAT_LOSS p)) || at1 131 3 (fun p => L.is (Reg.CS_STAT_CLIP p)) ||
    at1 136 2 (fun k => L.is (Reg.QE_STAT_FAIL k)) || at1 138 1 (fun _ => L.is Reg.QE_RS_STAT_FAIL) ||
    at1 139 2 (fun s => L.is (Reg.QE_SENT_STAT_TMO s)) || at1 144 3 (fun p => L.sensorGone (Fin.ofNat 3 p)) ||
    at1 147 3 (fun p => L.is (Reg.QE_VOTE_HFIFAIL p)) ||
    at1 150 3 (fun p => decide (L.rd (Reg.QE_VOTE_CFG_UNRES_MAX p) ≤ (vget L.votePos (Fin.ofNat 3 p)).unresRun) && L.is (Reg.QE_VOTE_UNRES p)) ||
    at1 192 18 (fun b => L.bitOf Reg.GD_TRIP_0_DSAT b) || at1 210 3 (fun p => L.bitOf Reg.GD_TRIP_0_FOC p) ||
    at1 213 3 (fun p => L.bitOf Reg.GD_TRIP_0_VGDUV p) || at1 216 9 (fun b => L.bitOf Reg.GD_TRIP_1_BSTUV b) ||
    at1 225 1 (fun _ => L.is Reg.GD_TRIP_1_OV) || at1 226 1 (fun _ => L.is Reg.GD_TRIP_1_CHOPF && L.is Reg.GD_CHOP_EN) ||
    at1 227 1 (fun _ => L.is Reg.GD_TRIP_1_CHOPSH) || at1 228 3 (fun p => L.bitOf Reg.GD_TRIP_1_ASCBLK p) ||
    at1 232 4 (fun k => L.is (Reg.GD_SV_OPEN k)) || at1 236 4 (fun k => L.is (Reg.GD_SV_SHORT k)) ||
    at1 257 1 (fun _ => L.is Reg.LG_CONT_KMBAD) || at1 258 1 (fun _ => L.is Reg.LG_CONT_KPBAD) ||
    at1 259 1 (fun _ => L.is Reg.LG_STATUS_SLOSS) || at1 260 1 (fun _ => L.is Reg.LG_PARK_FIRED) ||
    at1 323 2 (fun s => (vget L.vote.inp (Fin.ofNat 2 s)).lost) || at1 325 5 (fun f => L.is (Reg.ROLE_REFWD_FIRED f)) ||
    at1 393 1 (fun _ => L.is Reg.IB_STAT_BUSOFF) || at1 394 1 (fun _ => L.roles.hostLost) ||
    at1 453 1 (fun _ => L.is Reg.SE_STATUS_ALARM) || at1 454 1 (fun _ => L.is Reg.SE_STATUS_TAMPER)

end Lane

/-- CRC-8 with polynomial 0x2F over the bits of a number, most significant first (R90). -/
def crc8Go (v : Nat) : Nat → Nat → Nat
  | 0, c => c
  | n + 1, c =>
    let c' := c * 2 % 256
    crc8Go v n (if nbit c 7 != nbit v n then Nat.xor c' 0x2F else c')
/-- The CRC field of a vote frame with the bits above it (R90). -/
def voteCrc (bits31_8 : Nat) : Nat := crc8Go bits31_8 24 0xFF

end Sys2Proof.Machine
end

