-- ==== Sys2Proof/Machine/Queues.lean ====
section
/-! DEFINITION. Queues, descriptors and credits as every block of a lane uses them (R432 to R437). -/

namespace Sys2Proof.Machine

/-- The 64 bytes of a descriptor (R432). -/
def descrBytes (d : Descr) : List Byte :=
  leBytes 1 d.op ++ leBytes 1 d.flags ++ leBytes 2 d.tag ++ leBytes 4 d.index ++ leBytes 2 d.status ++ leBytes 2 0 ++
    (d.args ++ List.replicate 48 0).take 48 ++ leBytes 4 0
/-- The descriptor that 64 bytes hold (R432). -/
def descrOf (b : List Byte) : Descr :=
  { op := ofLe (b.take 1), flags := ofLe ((b.drop 1).take 1), tag := ofLe ((b.drop 2).take 2),
    index := ofLe ((b.drop 4).take 4), status := ofLe ((b.drop 8).take 2), args := (b.drop 12).take 48 }

/-- The magic number of a host frame (R428). -/
def hostMagic : Nat := 0x48515A55
/-- A host frame in either direction, but for its signature (R428). -/
def frameBytes (magic version port dirf session fcnt : Nat) (freed : List Nat) (ds : List Descr) : List Byte :=
  leBytes 4 magic ++ leBytes 1 version ++ leBytes 1 port ++ leBytes 1 ds.length ++ leBytes 1 dirf ++ leBytes 8 session ++ leBytes 8 fcnt ++
    freed.flatMap (leBytes 2) ++ leBytes 8 0 ++ ds.flatMap descrBytes
/-- Status codes of R437. -/
def stOk : Nat := 0
def stUnknown : Nat := 1
def stNotReady : Nat := 2
def stNotNegotiated : Nat := 3
def stLocked : Nat := 4
def stFeatureSplit : Nat := 5
def stDenied : Nat := 6
def stNotAuthority : Nat := 7
def stRefused : Nat := 8
def stBadArg : Nat := 9

/-- The NAME of a lane's control function (R442), laid out as ISO 11783 lays it out (log entry 40). -/
def isoName (l : LaneId) : Nat :=
  l.code + 4 * Config.nameIdentity.toNat + 2 ^ 21 * Config.manufacturer.toNat + 2 ^ 32 * Config.nameFunction.toNat +
    2 ^ 61 + 2 ^ 63
/-- Packets of a Transport Protocol message, seven bytes each (R441). -/
def tpPackets (n : Nat) : Nat := (n + 6) / 7
/-- A TP.CM frame about a parameter group (R441, ISO 11783-3). -/
def tpFrame (control : Nat) (four : List Nat) (pgn : Nat) : List Byte :=
  leBytes 1 control ++ four.flatMap (leBytes 1) ++ leBytes 3 pgn
/-- Bytes filled up with 0xFF (R441, ISO 11783-3). -/
def padFF (n : Nat) (bs : List Byte) : List Byte := bs ++ List.replicate (n - bs.length) 0xFF
/-- The TP.DT frame with packet `k` of a message: its number from 1, then seven bytes (R441, ISO 11783-3). -/
def tpPacket (bytes : List Byte) (k : Nat) : List Byte := leBytes 1 (k + 1) ++ padFF 7 ((bytes.drop (7 * k)).take 7)
/-- The frames of a message to everyone: one, or a BAM session where it has more than 8 bytes (R441; log entry 89). -/
def broadcastFrames (pgn : Nat) (bytes : List Byte) : List Output :=
  if bytes.length ≤ 8 then [.isobus pgn 0xFF bytes]
  else
    .isobus 0xEC00 0xFF (tpFrame 32 [bytes.length % 256, bytes.length / 256, tpPackets bytes.length, 0xFF] pgn) ::
      (List.range (tpPackets bytes.length)).map (fun k => .isobus 0xEB00 0xFF (tpPacket bytes k))

namespace Lane

/-- Send a message to everyone (R441). -/
def broadcast (pgn : Nat) (bytes : List Byte) (L : Lane) : Lane := L.each (broadcastFrames pgn bytes) send
/-- Request a Transport Protocol session for the message at the head of the line (R441). -/
def tpRequest (L : Lane) : Lane :=
  match L.isobus.tpTx.head? with
  | some (dst, bytes, _) =>
    L.send (.isobus 0xEC00 dst (tpFrame 16 [bytes.length % 256, bytes.length / 256, tpPackets bytes.length, 0xFF] 0xEF00))
  | none => L
/-- A message is to be sent by Transport Protocol; one session runs at a time (R441). -/
def tpSend (dst : Nat) (bytes : List Byte) (L : Lane) : Lane :=
  let idle := decide (L.isobus.tpTx = [])
  (L.onIso (fun i => { i with tpTx := i.tpTx ++ [(dst, bytes, 0)] })).when idle tpRequest
/-- The running outgoing session ends; the next message begins (R441). -/
def tpNext (L : Lane) : Lane := (L.onIso (fun i => { i with tpTx := i.tpTx.tail })).tpRequest
/-- Claim an address, which R442 shows in IB_STAT. -/
def isoClaim (addr : Nat) (L : Lane) : Lane :=
  (((L.wr Reg.IB_STAT_ADDR addr).set1 Reg.IB_STAT_CLAIMED).onIso (fun i => { i with cannotClaim := false })).send
    (.isobus 0xEE00 0xFF (leBytes 8 (isoName L.id)))
/-- Claim the preferred address (R442). -/
def isoStart (L : Lane) : Lane := L.isoClaim (L.rd Reg.IB_PREF_PREF)

/-- Port record h of the image (R75). -/
def portRec (L : Lane) (h : Fin 4) : HostPortRec := vget L.img.hostPort h
/-- The locked feature set of a host port (R45). -/
def hostSet (L : Lane) (h : Fin 4) : Nat :=
  L.rd (Reg.SYS_HOSTFEAT h.val 0) + 2 ^ 32 * L.rd (Reg.SYS_HOSTFEAT h.val 1) +
    2 ^ 64 * L.rd (Reg.SYS_HOSTFEAT h.val 2) + 2 ^ 96 * L.rd (Reg.SYS_HOSTFEAT h.val 3)
/-- A host port is present (R425). -/
def portPresent (L : Lane) (h : Fin 4) : Bool := decide ((L.portRec h).present = 1)
/-- A bit of a port's permission mask (R426). -/
def perm (L : Lane) (h : Fin 4) (bit : Nat) : Bool := L.portPresent h && nbit (L.portRec h).perm bit
/-- A port's feature set is locked. -/
def hostLocked (L : Lane) (h : Fin 4) : Bool := L.is (Reg.HQ_PORT_FLOCK h.val)
/-- The effective depth of a queue (R433). -/
def effDepth (L : Lane) (q : Fin 16) : Nat :=
  let r := vget L.img.queue q
  if r.depth ≤ 64 then r.depth
  else if hp : r.port < 4 then (if nbit (L.hostSet ⟨r.port, hp⟩) 7 then r.depth else 64) else 64
/-- The lane-to-host queue of the lowest number of a port (R436). -/
def replyQueue (L : Lane) (h : Fin 4) : Option (Fin 16) :=
  (List.finRange 16).find? (fun q => decide ((vget L.img.queue q).port = h.val) && decide ((vget L.img.queue q).dir = 1))
/-- Where descriptor i of a queue lies (R433). -/
def slotAddr (L : Lane) (q : Fin 16) (i : Nat) : Nat := L.rd (Reg.HQ_BASE q.val) + 64 * (i % max 1 (L.effDepth q))
/-- A free descriptor is left in a queue. -/
def queueFree (L : Lane) (q : Fin 16) : Bool := decide (L.rd (Reg.HQ_STAT_USED q.val) < L.effDepth q)

/-- The transport of a queue's port (R425); 3 where no port has it. -/
def queueTransport (L : Lane) (q : Fin 16) : Nat :=
  let p := (vget L.img.queue q).port
  if h : p < 4 then (L.portRec ⟨p, h⟩).transport else 3

/-- The 114 bytes of an Ed448 signature of the lane's identity key, with a context, which the spec takes from RFC 8032 (log entry 6). -/
def signature (context : Nat) (msg : List Byte) (L : Lane) : List Byte :=
  leBytes 114 (Config.freeOf .standard
    ((-5 : Int) :: (L.sec.identity.getD 0 : Int) :: (context : Int) :: msg.map (fun b => (b.toNat : Int)))).toNat
/-- A lane-to-host frame of a port (R428, R434): the FREED counts are those of the host-to-lane queues. -/
def hostFrame (h : Fin 4) (ds : List Descr) (L : Lane) : List Byte :=
  let x := vget L.host h
  let m := frameBytes hostMagic 1 h.val 1 x.session (x.sent + 1) (L.queue.toList.map (fun q => q.done)) ds
  m ++ L.signature 0 m
/-- Send a lane-to-host frame with one descriptor (R428; log entry 33). -/
def sendFrame (h : Fin 4) (d : Descr) (L : Lane) : Lane :=
  (L.send (.hostFrame h (L.hostFrame h [d]))).onHost h (fun x => { x with sent := (x.sent + 1) % 2 ^ 64 })
/-- The descriptor that lies at TAIL of a lane-to-host queue is committed; a full queue ignores it and sets FULL (R434,
R448). Over Ethernet and ISOBUS it is sent at once; over Slaz it waits for a window of the queue (R376), and over Ethernet it waits for good where the identity key may not sign its frame (R484, R487). Without FREED
counts a sent descriptor is free again (R434). -/
def pushTail (q : Fin 16) (L : Lane) : Lane :=
  if L.queueFree q then
    let i := (vget L.queue q).next
    let d := { descrOf (L.sramBytes (L.slotAddr q i) 64) with index := i }
    let t := L.queueTransport q
    let L := (L.sramWrite (L.slotAddr q i) (descrBytes d)).onQueue q (fun x =>
      { x with next := (i + 1) % 2 ^ 32, slots := if t = 1 ∨ (t = 0 ∧ !L.sec.idUsable) then x.slots ++ [d] else x.slots })
    let L := L.wr (Reg.HQ_PTR_TAIL q.val) (i + 1)
    if t = 1 ∨ (t = 0 ∧ !L.sec.idUsable) then L.countMod (Reg.HQ_STAT_USED q.val) 1
    else if t = 2 then
      (L.wr (Reg.HQ_PTR_HEAD q.val) (i + 1)).tpSend
        ((vget L.isobus.peer (Fin.ofNat 4 (vget L.img.queue q).port)).getD 0xFF) (0x04 :: descrBytes d)
    else ((L.wr (Reg.HQ_PTR_HEAD q.val) (i + 1)).countMod (Reg.HQ_STAT_USED q.val) 1).sendFrame
      (Fin.ofNat 4 (vget L.img.queue q).port) d
  else L.set1 (Reg.HQ_STAT_FULL q.val)

/-- The head descriptor of a lane-to-host queue over Slaz has been sent (R376, R434). -/
def queueSent (q : Fin 16) (L : Lane) : Lane :=
  match (vget L.queue q).slots with
  | d :: rest =>
    ((L.onQueue q (fun x => { x with slots := rest })).wr (Reg.HQ_PTR_HEAD q.val) (d.index + 1)).wr
      (Reg.HQ_STAT_USED q.val) (L.rd (Reg.HQ_STAT_USED q.val) - 1)
  | [] => L

/-- A descriptor that may not be placed is discarded and counted (R434). -/
def noCredit (q : Fin 16) (L : Lane) : Lane :=
  (L.set1 (Reg.HQ_STAT_NOCREDIT q.val)).count (Reg.HQ_DROP_NOCREDIT q.val) 1
/-- A descriptor is placed at index `i` of a host-to-lane queue; the queue's source is raised (R433). -/
def putDescr (q : Fin 16) (i : Nat) (d : Descr) (L : Lane) : Lane :=
  let d := { d with index := i }
  let empty := decide ((vget L.queue q).slots = [])
  let L := (L.sramWrite (L.slotAddr q i) (descrBytes d)).onQueue q (fun x =>
    { x with next := (i + 1) % 2 ^ 32, slots := x.slots ++ [d] })
  let L := (L.wr (Reg.HQ_PTR_TAIL q.val) (i + 1)).when empty (wr (Reg.HQ_PTR_HEAD q.val) i)
  (L.countMod (Reg.HQ_STAT_USED q.val) 1).irq (.queue q)
/-- A host-to-lane descriptor arrives over Ethernet: credit, then the gap before its index (R434); an index below the
expected one is beyond every credit (log entry 33). -/
def placeDescr (q : Fin 16) (d : Descr) (L : Lane) : Lane :=
  let x := vget L.queue q
  let k := (d.index + 2 ^ 32 - x.next % 2 ^ 32) % 2 ^ 32
  if (d.index + 65536 - x.done % 65536) % 65536 ≥ L.effDepth q ∨ 2 ^ 31 ≤ k then L.noCredit q
  else
    let L := L.when (decide (k ≠ 0)) (fun L =>
      ((L.set1 (Reg.HQ_STAT_GAP q.val)).count (Reg.HQ_DROP_GAP q.val) k).onQueue q (fun x => { x with done := (x.done + k) % 65536 }))
    L.putDescr q (d.index % 2 ^ 32) d
/-- A host-to-lane descriptor arrives over Slaz or ISOBUS (R434). -/
def placeNext (q : Fin 16) (d : Descr) (L : Lane) : Lane :=
  if L.queueFree q then L.putDescr q (vget L.queue q).next d else L.noCredit q

/-- Put a descriptor at TAIL of a lane-to-host queue and send it. -/
def pushDescr (q : Fin 16) (d : Descr) (L : Lane) : Lane :=
  (if L.queueFree q then L.sramWrite (L.slotAddr q (vget L.queue q).next) (descrBytes d) else L).pushTail q

/-- Answer a command: a response on the port's lane-to-host queue of the lowest number (R436). -/
def respond (k : HostCmd) (op status : Nat) (args : List Byte) (L : Lane) : Lane :=
  match L.replyQueue k.port with
  | some q => L.pushDescr q ⟨op, 1, k.tag, 0, status, args⟩
  | none => L.send (.response k.port op k.tag status args)

/-- A notice to one port: dropped where the port's set is not locked or no descriptor is free (R348, R436). -/
def notice (h : Fin 4) (op : Nat) (args : List Byte) (L : Lane) : Lane :=
  match L.replyQueue h with
  | some q => L.when (L.hostLocked h && L.queueFree q) (pushDescr q ⟨op, 2, 0, 0, 0, args⟩)
  | none => L
/-- A fault notice to every port whose permission mask grants diagnostics (R347, R348). -/
def faultNotice (n : Nat) (L : Lane) : Lane :=
  L.each (List.finRange 4) (fun h L => L.when (L.perm h 5 && L.firmware) (notice h 0x80 (leBytes 2 n)))

end Lane

end Sys2Proof.Machine
end

