-- ==== Sys2Proof/Machine/React.lean ====
section
/-! DEFINITION. What a lane does to itself when something goes wrong: withdrawals, turn-offs, the guard's short
circuit and forcing, commits, the fault collector's reactions, Autumn and Winter (R39, R40, R93 to R115, R282 to
R292, R310 to R331, R343 to R353). -/

namespace Sys2Proof.Machine

/-- Where the application area of the SRAM begins (R38). -/
def appBase : Nat := 0x107F8000
/-- Bytes of the application area (R38). -/
def appLen : Nat := 0x8000

/-- The retained values in the order of R603: field and width of the signed value. -/
def trimFields : List Fld :=
  [Reg.CS_TRIM_OFFSET 0, Reg.CS_TRIM_OFFSET 1, Reg.CS_TRIM_OFFSET 2, Reg.CS_TRIM_GAIN 0, Reg.CS_TRIM_GAIN 1,
   Reg.CS_TRIM_GAIN 2, Reg.QE_OFS_OFS 0, Reg.QE_OFS_OFS 1, Reg.QE_RS_TRIM_AMP, Reg.QE_RS_TRIM_PHASE,
   Reg.QE_SENT_OFS 0, Reg.QE_SENT_OFS 1]
/-- The solenoid trims, last in the order of R603. -/
def svTrimFields : List Fld :=
  [Reg.GD_SV_TRIM_TRIM 0, Reg.GD_SV_TRIM_TRIM 1, Reg.GD_SV_TRIM_TRIM 2, Reg.GD_SV_TRIM_TRIM 3]

/-- The accumulators as a retained slot holds them, in units of 2^-24 (R603). -/
def Ageing.stored (a : Ageing) : Ageing :=
  let cut (n : Nat) : Nat := n / 2 ^ 40 % 2 ^ 32 * 2 ^ 40
  { a with w := a.w.map cut, windows := a.windows.map (fun l => l.map cut), current := a.current.map cut }

namespace Lane

/-- A running in-service slice is aborted: its target is restored or re-initialised, and the unit is tested again at
the target's next slice (R544). -/
def sliceAbort (L : Lane) : Lane :=
  if L.is Reg.BT_SLICE_STAT_RUNNING then
    let L' := (L.clr Reg.BT_SLICE_STAT_RUNNING).count Reg.BT_SLICE_STAT_ABORTS 1
    match L.rd Reg.BT_SLICE_STAT_CURRENT with
    | 2 => (L'.onCore 2 (fun c => { c with run := .running })).onCore 3 (fun c => { c with run := .running })
    | 3 => L'.onDe (Fin.ofNat 4 (vget L.test.units 3 % 3)) (fun e => { e with im := [], dm := [] })
    | _ => L'
  else L
/-! ### Power domains (R461 to R467) -/

/-- The state of a domain (R474): 0 on, 1 entering, 2 retention, 3 off, 4 waking, 5 unwinding. -/
def pdFld (d : Fin 8) : Fld := ⟨0x20040000, 4 * d.val, 4⟩
/-- An event is counted in PD_ACCT_d (R467, R477). -/
def pdCount (d : Fin 8) (who how : Nat) (L : Lane) : Lane :=
  ((L.count (Reg.PD_ACCT_COUNT d.val) 1).wr (Reg.PD_ACCT_WHO d.val) who).wr (Reg.PD_ACCT_HOW d.val) how
/-- Every PD_ACCT_d clears (R467). -/
def pdClear (L : Lane) : Lane :=
  L.each (List.range 8) (fun d L => ((L.clr (Reg.PD_ACCT_COUNT d)).clr (Reg.PD_ACCT_WHO d)).clr (Reg.PD_ACCT_HOW d))
/-- A wake event meets a domain: an entry notes it for its next abort point, the lower code first; a domain in retention
or off begins to wake, which wake-source mode counts (R460, R462, R464, R467). -/
def pdWake (d : Fin 8) (who : Nat) (L : Lane) : Lane :=
  let st := L.rd (pdFld d)
  if st = 1 then
    L.onDom d (fun x => { x with wakeBy := some (match x.wakeBy with
      | some w => min w who
      | none => who) })
  else if st = 2 ∨ st = 3 then
    ((L.wr (pdFld d) 4).onDom d (fun x => { x with fromState := st })).when (!L.is (Reg.PD_ACCT_MODE d.val))
      (pdCount d who (if st = 2 then 5 else 6))
  else L

/-- The comparators of a port are under test, so that no trip reaches a reaction (R298). -/
def underTest (L : Lane) (p : Port) : Bool := L.gate.testRun && !L.bitOf Reg.GD_TEST_SKIP p.val
/-- The over-voltage and chopper comparators are under test (R298). -/
def ovUnderTest (L : Lane) : Bool := L.gate.testRun && !L.is Reg.GD_TEST_SKIPOV
/-- The chopper gate: on while either request stands, from READY on, and a chopper is fitted; the comparator's request reaches nothing
while it is under test (R288, R293, R298). -/
def chopApply (L : Lane) : Lane :=
  L.wr Reg.GD_STAT_CHOP (b2n (L.is Reg.GD_CHOP_EN && ((L.gate.chopHw && !L.ovUnderTest) || L.gate.chopReq) && decide (2 ≤ L.svc) &&
    L.guardSt.powered))
/-- Enter a service state (R54); leaving READY, SERVICE and AUTUMN aborts a slice (R544); the meaning of PD_ACCT_d changes
between SERVICE or AUTUMN and every other state (R467); WINTER and RECOVERY wake every domain (R462); the chopper works from READY on (R288). -/
def setSvc (v : Nat) (L : Lane) : Lane :=
  let acct (x : Nat) : Bool := decide (x = 4) || decide (x = 5)
  let change := acct v != acct (L.rd Reg.SYS_STATE_STATE)
  let L := (L.when (decide (v ≠ 2) && decide (v ≠ 4) && decide (v ≠ 5)) sliceAbort).wr Reg.SYS_STATE_STATE v
  let L := L.when change (fun L => L.pdClear.each (List.range 8) (fun d => wr (Reg.PD_ACCT_MODE d) (b2n (acct v))))
  (L.when (decide (v = 6) || decide (v = 7)) (fun L => L.each (List.finRange 8) (fun d => pdWake d 19))).chopApply

/-! ### Commits (R39, R40) -/

/-- The remaining Autumn time of a function in ms (R125): the Autumn timer holds the elapsed time of its end. -/
def autumnLeft (L : Lane) (f : Func) : Nat :=
  match L.timerAt (.autumn f) with
  | some e => (e - L.el + 999999) / 1000000
  | none => 0

/-- The Autumn record of a function as a commit records it (R40, R603). -/
def autumnRecord (L : Lane) (f : Func) : AutumnRec :=
  if !L.present f then ⟨false, 0⟩
  else if L.mode f = 1 then ⟨true, L.autumnLeft f - 10000⟩
  else
    match vget L.ret.winter f.ix with
    | some r => r
    | none => vget L.ret.autumn f.ix

/-- The eighteen retained values (R603). -/
def trims (L : Lane) : List Int :=
  (trimFields.map (fun f => sgn f.w (L.rd f))) ++ L.start.pedalCal.toList ++ (svTrimFields.map (fun f => sgn f.w (L.rd f)))

/-- Every kept field and a copy of the application area (R39, R603). -/
def snapshot (L : Lane) : Payload :=
  { trims := Vector.ofFn (fun (i : Fin 18) => L.trims.getD i.val 0)
    history := Vector.ofFn (fun (i : Fin 5) =>
      if decide ((vget L.img.func i).present = 1) then vget L.ret.history i else ⟨0, 0⟩)
    autumn := Vector.ofFn (fun (i : Fin 5) => L.autumnRecord ((Func.ofCode i.val).getD .steer))
    ageing := L.test.ageing.stored
    app := (L.sram.filter (fun e => decide (appBase ≤ e.1) && decide (e.1 < appBase + appLen))).map
      (fun e => (e.1 - appBase, e.2)) }

/-- The sequence number in the header of a retained slot (R35). -/
def slotSeq (L : Lane) (n : Fin 2) : Nat := ofLe (Tab.run 0 L.store (65536 * n.val + 4) 4)
/-- The slot that a commit writes, and its sequence number (R39). -/
def commitTarget (L : Lane) : Fin 2 × Nat :=
  match L.ret.newer with
  | some n => (if n = 0 then 1 else 0, (L.slotSeq n + 1) % 2 ^ 32)
  | none => (0, 1)

/-- A commit starts: the snapshot is taken, the slot that is not the newer one is being written (R39). -/
def commitStart (auto : Bool) (L : Lane) : Lane :=
  let t := L.commitTarget
  let p := L.snapshot
  let L := L.wearLines (65536 * t.1.val + 64) 33944
  ((L.pdWake 5 19).set1 Reg.SYS_RET_STATUS_BUSY).onRet (fun r =>
    { r with inFlight := some (t.1, t.2, p), auto := auto,
             digest := vupd r.digest t.1 (fun _ => .torn) })

/-- An automatic commit falls due: it starts, or is held while one is busy; only from READY onwards (R40). -/
def autoCommit (L : Lane) : Lane :=
  if !L.firmware then L
  else if L.is Reg.SYS_RET_STATUS_BUSY then L.onRet (fun r => { r with held := true })
  else L.commitStart true

/-! ### Withdrawals (R92, R95) -/

/-- The lane withdraws from a function; nothing undoes it until the next start (R95). -/
def withdraw (f : Func) (L : Lane) : Lane := L.onVote (fun v => { v with withdraw := vupd v.withdraw f.ix (fun _ => true) })
/-- Withdraw from a function only where the lane serves it (R349). -/
def withdrawServed (f : Func) (L : Lane) : Lane := L.when (L.serves f) (withdraw f)
/-- Withdraw from every function (R95). -/
def withdrawAll (L : Lane) : Lane := L.each Func.all withdraw
/-- Every ROLE_FUNC_f.BARRED reads 1 (R145, R499). -/
def barAll (L : Lane) : Lane := L.each Func.all (fun f => set1 (Reg.ROLE_FUNC_BARRED f.code))
/-- The lane withdraws from every function whose active role it holds (R147, R359, R499). -/
def withdrawActive (L : Lane) : Lane := L.each (Func.all.filter (fun f => decide (L.role f = 1))) withdraw
/-- The lane is token-open after READY: EVER, BARRED and the withdrawal from every active role (R499). -/
def tokenBar (L : Lane) : Lane := ((L.set1 Reg.SE_DBG_EVER).barAll).withdrawActive
/-- The security area of the STORE window is overwritten with 0 (R487, R490). -/
def securityClear (L : Lane) : Lane :=
  { L with store := L.store.filter (fun e => !(decide (0x20000 ≤ e.1) && decide (e.1 < 0x21000))) }
/-- Withdraw from every function that has a bridge port (R95, R283). -/
def withdrawPorts (L : Lane) : Lane := L.each L.portFunctions withdraw
/-- A hardware accusation of the lane on a side, held until it is sent and the lane is removed (R92). -/
def accuse (f : Func) (s : Side) (L : Lane) : Lane :=
  L.onVote (fun v => { v with hardware := vupd v.hardware f.ix (fun h => if h.any (fun e => decide (e.1 = s)) then h else h ++ [(s, L.el)]) })

/-! ### Solenoid drivers (R71, R94, R295) -/

/-- The SAFE value of a driver; a PARK driver is off (R295). -/
def svSafe (L : Lane) (n : Fin 4) : Nat :=
  if L.funcOfSv n = some .park then 0
  else if (vget L.img.sv n).safe = 1 then (vget L.img.sv n).safeMa else 0
/-- The setpoint of a driver: what DE_3 wrote, clamped to MAX_MA, in RUN; else SAFE; 0 while a trip holds it off or the guard has no
supply (R295, R296, R310). -/
def svTarget (L : Lane) (n : Fin 4) : Nat :=
  if (vget L.solenoid n).off || !L.guardSt.powered then 0
  else if L.gstate = 2 ∧ (vget L.solenoid n).forced = false then min (vget L.solenoid n).cmd (vget L.img.sv n).maxMa
  else L.svSafe n
/-- Bring a driver to its setpoint. -/
def svApply (n : Fin 4) (L : Lane) : Lane := let v := L.svTarget n; L.onSv n (fun x => { x with setpoint := v })
/-- The PARK timer stops when every PARK driver is off (R331). -/
def parkWatch (L : Lane) : Lane :=
  let L := L.when (!L.parkOff) (stop .parkApplied)
  L.when (L.is Reg.LG_PARK_RUN && L.parkOff) (fun L => (L.clr Reg.LG_PARK_RUN).stop .park)
/-- Bring every driver to its setpoint. -/
def svApplyAll (L : Lane) : Lane := (L.each (List.finRange 4) svApply).parkWatch
/-- The guard forces a driver to its SAFE value (R94, R325). -/
def svForce (n : Fin 4) (L : Lane) : Lane :=
  (((L.onSv n (fun x => { x with forced := true })).set1 (Reg.GD_SV_FORCED n.val)).svApply n).parkWatch

/-! ### Turn-offs and the guard's short circuit (R282 to R292) -/

/-- The switch bits of a port (R301's numbering). -/
def portSwitches (p : Port) : List (Fin 18) := (List.finRange 18).filter (fun b => decide (b.val / 6 = p.val))
/-- A switch that is on enters stage 1, one that is off is held off; one in a turn-off keeps the stage it has reached (R282, R285). -/
def stage1 (b : Fin 18) (L : Lane) : Lane :=
  L.onGate (fun g => { g with stage := vupd g.stage b (fun x =>
    if x = .free then (if (vget g.drive b).on then .stage1 else .stage2) else x) })
/-- A switch that is on stays on, one that is off is held off (R291). -/
def holdOff (b : Fin 18) (L : Lane) : Lane :=
  L.onGate (fun g => { g with stage := vupd g.stage b (fun x => if x = .free ∧ ¬(vget g.drive b).on then .stage2 else x) })
/-- A switch is the pattern's again. -/
def switchFree (b : Fin 18) (L : Lane) : Lane := L.onGate (fun g => { g with stage := vupd g.stage b (fun _ => .free) })

/-- A port's gate enable is removed: EN, GRANT and the arming of its bootstrap lock-outs clear (R277, R340). A removal
in ARMED, SERVICE or AUTUMN withdraws the lane from the port's function and bars the port until the next start
(R313). The motor supervisor sees the removal at its next evaluation (R249). -/
def ungrant (p : Port) (L : Lane) : Lane :=
  let was := L.bitOf Reg.GD_STAT_EN p.val && L.armedState
  let L := (L.wrBit Reg.GD_STAT_EN p.val false).wrBit Reg.LG_PORT_GRANT p.val false
  let L := L.each [3 * p.val, 3 * p.val + 1, 3 * p.val + 2] (fun b => wrBit Reg.GD_STAT_BSTARM b false)
  L.when was (fun L =>
    (L.onGate (fun g => { g with barred := vupd g.barred p (fun _ => true) })).each (L.funcOfPort p).toList withdraw)

/-- The two-step soft turn-off of one port starts, as its outputs stand now (R282, R283); the guard's short circuit outranks it (R291). -/
def portOffSwitches (p : Port) (L : Lane) : Lane :=
  let L := L.gateFollowAll
  let L := L.when (!L.bitOf Reg.GD_STAT_ASC p.val) (fun L =>
    (L.each (portSwitches p) stage1).when ((portSwitches p).any (fun b => decide (vget L.gate.stage b = .free))) (restart (.switched p)))
  ((L.ungrant p).onGate (fun g => { g with portOff := vupd g.portOff p (fun _ => true) })).gateFollowAll

/-- A port turn-off, which is a protective turn-off and withdraws the lane from the port's function (R283, R95). -/
def portTurnOff (p : Port) (L : Lane) : Lane :=
  let L := (L.portOffSwitches p).restart .gatesOff
  L.each (L.funcOfPort p).toList withdraw

/-- A lane turn-off: every bridge switch, latched in PROT; the lane withdraws from every function with a bridge
port (R283, R286). One already in force is neither restarted nor lengthened (R285); the guard's short circuit outranks it
(R291). -/
def laneTurnOff (L : Lane) : Lane :=
  let L := L.when (!L.is Reg.GD_STAT_PROT) (fun L =>
    (L.set1 Reg.GD_STAT_PROT).restart .gatesOff)
  (L.each (List.finRange 3) portOffSwitches).withdrawPorts

/-- The guard's short circuit is called for on a port: withheld on an excluded port, with ASCBLK and its source; its high sides turn off,
its low sides that are on stay on, the others wait (R291, R292). The source fires where `fireBlk` says; it is the collector's own operation. -/
def ascEnter (fireBlk : Nat → Lane → Lane) (p : Port) (L : Lane) : Lane :=
  if vget L.gate.excluded p then
    L.when (!L.bitOf Reg.GD_TRIP_1_ASCBLK p.val) (fun L => fireBlk (228 + p.val) (L.wrBit Reg.GD_TRIP_1_ASCBLK p.val true))
  else if L.bitOf Reg.GD_STAT_ASC p.val then L
  else
    let L := L.gateFollowAll
    let L := L.each (portSwitches p) (fun b => if lowSide b then holdOff b else stage1 b)
    let L := ((L.ungrant p).wrBit Reg.GD_STAT_ASC p.val true).set1 Reg.GD_TRIP_1_ASCIN
    ((L.restart (.ascWait p)).restart (.switched p)).onGate (fun g => { g with ascWait := vupd g.ascWait p (fun _ => true) })
      |>.gateFollowAll

/-! ### Contactors (R320) -/

/-- KM agrees with its command. -/
def kmAgrees (L : Lane) : Bool :=
  if L.is Reg.LG_CONT_KMCMD then L.is Reg.LG_CONT_KM_NO && !L.is Reg.LG_CONT_KM_NC
  else !L.is Reg.LG_CONT_KM_NO && L.is Reg.LG_CONT_KM_NC
/-- KP agrees with its command. -/
def kpAgrees (L : Lane) : Bool :=
  if L.is Reg.LG_CONT_KPCMD then L.is Reg.LG_CONT_KP_NO && !L.is Reg.LG_CONT_KP_NC
  else !L.is Reg.LG_CONT_KP_NO && L.is Reg.LG_CONT_KP_NC
/-- The mismatch time counts from the last moment of agreement. -/
def watchContactors (L : Lane) : Lane :=
  let L := if L.kmAgrees then L.stop .kmDisagree else L.start1 .kmDisagree
  if L.kpAgrees then L.stop .kpDisagree else L.start1 .kpDisagree
/-- Drive KM; a change of the command restarts the mismatch time, a close command counts in LG_KOPS (R320, R342); without supply the guard
drives nothing closed (R310). -/
def driveKm (close : Bool) (L : Lane) : Lane :=
  if L.is Reg.LG_CONT_KMCMD == close || (close && !L.guardSt.powered) then L
  else ((L.wr Reg.LG_CONT_KMCMD (b2n close)).when close (count Reg.LG_KOPS_KM 1)).stop .kmDisagree |>.watchContactors
/-- Drive KP, which the guard's short circuit holds as it is (R291). -/
def driveKp (close : Bool) (L : Lane) : Lane :=
  if L.is Reg.LG_CONT_KPCMD == close || (close && !L.guardSt.powered) || decide (L.rd Reg.GD_STAT_ASC ≠ 0) then L
  else ((L.wr Reg.LG_CONT_KPCMD (b2n close)).when close (count Reg.LG_KOPS_KP 1)).stop .kpDisagree |>.watchContactors

/-! ### Forcing (R314, R315, R325) -/

/-- The lane enters WINTER: it withdraws from every function, commits when it came from READY, ARMED, SERVICE or
AUTUMN, and its arming ends (R315, R40). -/
def winterState (L : Lane) : Lane :=
  if L.upState then (((L.setSvc 6).wr Reg.SYS_ARM_STEP 0).withdrawAll).autoCommit else L

/-- The outputs of FORCED (R325). -/
def forceOutputs (fireBlk : Nat → Lane → Lane) (L : Lane) : Lane :=
  let L := L.each (List.finRange 3) (fun p L =>
    if L.bitOf Reg.LG_PORT_WHOLD p.val || L.bitOf Reg.GD_STAT_ASC p.val then L.ascEnter fireBlk p else L.portOffSwitches p)
  let L := L.restart .gatesOff
  ((L.each (List.finRange 4) svForce).svApplyAll)

/-- A Slaz controller listens: it receives only, and its listen timer starts (R382, R383). -/
def szListen (c : Fin 2) (L : Lane) : Lane :=
  ((L.wr (Reg.SZ_STAT_STATE c.val) 1).restart (.szListen c)).onSlaz c (fun z => { z with start := L.el, missed := 0, copied := none, pending := [], sending := none })
/-- The Slaz controllers stop when the guard enters FORCED or the lane enters WINTER; in TEST an enabled one listens
again (R382). -/
def slazStop (L : Lane) : Lane :=
  L.each (List.finRange 2) (fun c L =>
    let en := L.is (if c = 0 then Reg.SZ_CTRL_EN_X else Reg.SZ_CTRL_EN_Y)
    let live := L.upState || decide (L.svc = 8)
    L.when (decide (L.rd (Reg.SZ_STAT_STATE c.val) ≠ 0)) (fun L =>
      if en && live then L.szListen c else L.wr (Reg.SZ_STAT_STATE c.val) 0))

/-- A forcing cause: the guard goes from HOLD, ARM or RUN to FORCED and the lane to WINTER; in TEST the lane stays
in TEST (R314, R315). -/
def force (fireBlk : Nat → Lane → Lane) (cause : Nat) (L : Lane) : Lane :=
  if L.guardSt.powered && decide (L.gstate ≠ 3) then
    let L := ((L.wr Reg.LG_STATUS_GSTATE 3).wr Reg.LG_STATUS_FCAUSE cause).clr Reg.LG_CHAL_PEND
    (((L.forceOutputs fireBlk).withdrawAll).winterState).slazStop
  else (L.winterState).when L.upState slazStop

/-! ### The fault collector (R344 to R353) -/

/-- Set a sticky bit. -/
def setSticky (n : Nat) (L : Lane) : Lane := L.wrBit (Reg.FC_STICKY_S (n / 32)) (n % 32) true

/-- A reaction but for WINTER (R347 to R349). -/
def reactLight (n : Nat) (L : Lane) : Lane :=
  let r := L.reaction n
  let L := L.when (nbit r 0) (irq .collector)
  let L := L.when (nbit r 1) (faultNotice n)
  let L := L.each Func.all (fun f L => L.when (nbit r (2 + f.code)) (withdrawServed f))
  let L := L.when (nbit r 7) (fun L => L.each (L.ownFuncs n) withdrawServed)
  L.when (nbit r 8) (fun L => L.each (Func.all.filter (fun f => decide (L.role f = 1))) withdrawServed)

/-- A source that never names forcing fires: it sets its bit and, where the bit was 0, takes its reaction but for
WINTER. Used for the sources that fire inside forcing itself (R292), where the guard is FORCED already. -/
def fireLight (n : Nat) (L : Lane) : Lane :=
  if L.sticky n then L else (L.setSticky n).reactLight n

/-- The WINTER part of a reaction in the present service state (R349). -/
def reactWinter (L : Lane) : Lane := if L.upState || decide (L.svc = 8) then L.force fireLight 6 else L

/-- The reaction of a source, taken once (R345, R347). -/
def react (n : Nat) (L : Lane) : Lane :=
  let w := nbit (L.reaction n) 9
  (L.reactLight n).when w reactWinter

/-- A source fires: a reserved position never does; a source whose bit is set takes no reaction (R343 to R345). -/
def fire (n : Nat) (L : Lane) : Lane :=
  if fixedClass n = 0 then L
  else if L.sticky n then L else (L.setSticky n).react n

/-- A source begins to fire and keeps firing until its condition ends (R344). -/
def fireLevel (n : Nat) (L : Lane) : Lane :=
  ({ L with fault := { L.fault with level := if L.fault.level.contains n then L.fault.level else L.fault.level ++ [n] } }).fire n
/-- The condition of a source ends. -/
def endLevel (n : Nat) (L : Lane) : Lane :=
  { L with fault := { L.fault with level := L.fault.level.filter (fun m => decide (m ≠ n)) } }

/-- The guard's short circuit is called for on a port (R291, R292). -/
def asc (p : Port) (L : Lane) : Lane := L.ascEnter fire p
/-- A forcing cause (R314). -/
def forced (cause : Nat) (L : Lane) : Lane := L.force fire cause
/-- The lane enters WINTER for another reason than a forcing cause: FCAUSE 6 (R315). -/
def enterWinter (L : Lane) : Lane := L.forced 6

/-! ### Autumn and Winter of a function (R110 to R115, R330, R331) -/

/-- SERVICE and AUTUMN follow the modes of the functions that the lane serves (R315). -/
def settleSvc (L : Lane) : Lane :=
  let low := Func.all.any (fun f => L.serves f && decide (L.mode f ≠ 0))
  if L.svc = 4 ∧ low then L.setSvc 5 else if L.svc = 5 ∧ ¬low then L.setSvc 4 else L

/-- A function enters Autumn with a cause, for `ms` of remaining time; in Autumn the cause is added and the timer runs
on; in Winter nothing changes (R110). -/
def enterAutumn (f : Func) (cause ms : Nat) (L : Lane) : Lane :=
  if L.mode f = 0 then
    let L := ((L.wr (Reg.ROLE_FUNC_MODE f.code) 1).wr (Reg.ROLE_FUNC_CAUSE f.code) cause).setTimer (.autumn f)
      (L.el + ms * 1000000)
    let L := (L.onFn f (fun x => { x with causes := [cause] })).restart (.speedReq f)
    let L := L.start1 .autumnCommit
    L.autoCommit.settleSvc
  else if L.mode f = 1 then
    L.onFn f (fun x => { x with causes := if x.causes.contains cause then x.causes else x.causes ++ [cause] })
  else L

/-- The Autumn time of the image in ms (R77). -/
def autumnMs (L : Lane) (f : Func) : Nat := (vget L.img.season f.ix).autumnS * 1000

/-- A fault puts a function into Autumn (R110). -/
def autumn (f : Func) (cause : Nat) (L : Lane) : Lane := L.enterAutumn f cause (L.autumnMs f)

/-- Every host engagement for a function ends (R438). -/
def disengageAll (f : Func) (L : Lane) : Lane :=
  L.each (List.finRange 4) (fun h => wrBit (Reg.HQ_PORT_ENGAGED h.val) f.code false)

/-- One function enters Winter: its Autumn record is fixed (R40), engagements end (R438), Winter hold is set for the
port of STEER or FEEL (R330), BRAKE starts the PARK timer (R331). -/
def winterOne (f : Func) (cause : Nat) (L : Lane) : Lane :=
  if L.mode f = 2 then L
  else
    let rec' : AutumnRec :=
      if L.mode f = 1 then ⟨true, if cause = 8 then 0 else L.autumnLeft f - 10000⟩
      else if cause = 8 then ⟨true, 0⟩ else ⟨false, 0⟩
    let L := ((L.wr (Reg.ROLE_FUNC_MODE f.code) 2).wr (Reg.ROLE_FUNC_CAUSE f.code) cause).stop (.autumn f)
    let L := (L.onFn f (fun x => { x with causes := [cause] })).onRet (fun r =>
      { r with winter := vupd r.winter f.ix (fun _ => some rec') })
    let L := L.disengageAll f
    let L := L.when ((f == .steer || f == .feel) && L.serves f) (fun L =>
      L.each (L.portOf f).toList (fun p => wrBit Reg.LG_PORT_WHOLD p.val true))
    let L := L.when (f == .brake || f == .trail || f == .park) (fun L => L.start1 .standstill)
    L.when (f == .brake && L.serves .park && !L.parkOff) (fun L => (L.set1 Reg.LG_PARK_RUN).restart .park)

/-- A function enters Winter where the lane serves it. -/
def winterServed (f : Func) (cause : Nat) (L : Lane) : Lane := L.when (L.serves f) (winterOne f cause)

/-- Winter of a function spreads to the functions that the lane serves (R114). -/
def winterSpread (f : Func) (L : Lane) : Lane :=
  let L := L.when (f == .steer) (winterServed .brake 11)
  (L.when (f == .steer || f == .brake) (fun L => (L.winterServed .trail 11).winterServed .park 11)).settleSvc

/-- A function enters Winter and Winter spreads (R114). -/
def winter (f : Func) (cause : Nat) (L : Lane) : Lane :=
  if L.serves f ∧ L.mode f ≠ 2 then (L.winterOne f cause).winterSpread f else L

/-- A cause of Autumn clears; the last one ends Autumn (R112). -/
def clearCause (f : Func) (cause : Nat) (L : Lane) : Lane :=
  if L.mode f = 1 ∧ (L.fn f).causes.contains cause then
    let cs := (L.fn f).causes.filter (fun c => decide (c ≠ cause))
    let L := L.onFn f (fun x => { x with causes := cs })
    if cs = [] then
      (((L.wr (Reg.ROLE_FUNC_MODE f.code) 0).wr (Reg.ROLE_FUNC_CAUSE f.code) 0).stop (.autumn f)).settleSvc
    else L
  else L

end Lane

end Sys2Proof.Machine
end

