-- ==== Sys2Proof/Machine/ImageCheck.lean ====
section
/-! DEFINITION. The six checks of a structure image and what the lane loads from it (R59 to R82, R373, R374).
Every check gives the failing fields as pairs of section type and byte offset, in the order of the section. -/

namespace Sys2Proof.Machine

/-- Section types of R64 and the numbers of bits that mark host-scope features (R41). -/
def commonTypes : List Nat := [1, 4, 5, 7, 8]
/-- The types of which every lane has its own section (R64). -/
def laneTypes : List Nat := [2, 3, 6, 9, 10]
/-- The host-scope feature bits (R41): HQ_DEEP, DELTA_UPD, ISO_TBRAKE, ATTEST. -/
def hostScope : Nat := 2 ^ 7 + 2 ^ 8 + 2 ^ 9 + 2 ^ 10
/-- The feature bits that a stepping offers (R41). -/
def offered (stepping : Nat) : Nat := if stepping = 1 then 0x7FB else 0x7FF
/-- All set bits of `a` are set in `b`. -/
def subset (a b : Nat) : Bool := decide (Nat.land a b = a)

/-- A failing field, or nothing. -/
def chk (ty off : Nat) (ok : Bool) : List (Nat × Nat) := if ok then [] else [(ty, off)]
/-- A number lies in a range. -/
def inR (lo hi v : Nat) : Bool := decide (lo ≤ v) && decide (v ≤ hi)

namespace Check

/-- Check 1 (R66). -/
def one (stepping : Nat) (i : Image) : Bool :=
  let h := i.header
  decide (h.magic = 0x474D495A) && decide (h.format = 1) && decide (h.targetPart = 0x0961) &&
    (decide (h.fptVersion = 1) || (decide (h.fptVersion = 2) && decide (stepping ≠ 1))) &&
    decide (h.totalLen % 64 = 0) && decide (h.totalLen ≤ 1048576) && decide (h.totalLen = i.storedLen) &&
    inR 1 64 h.sectionCount

/-- Check 2 (R66). -/
def two (stepping : Nat) (i : Image) : Bool :=
  decide (i.header.minStepping ≤ stepping) && subset i.header.featReq (offered stepping) &&
    decide (Nat.land i.header.featReq hostScope = 0)

/-- One directory entry against R62 and R63. -/
def entryOk (h : ImageHeader) (e : DirEntry) : Bool :=
  ((commonTypes.contains e.type && decide (e.lane = 3)) || (laneTypes.contains e.type && decide (e.lane < 3))) &&
    (if h.fptVersion = 2 ∧ (e.type = 1 ∨ e.type = 2 ∨ e.type = 9) then inR 1 2 e.sver else decide (e.sver = 1)) &&
    decide (e.offset % 64 = 0) && decide (64 + 16 * h.sectionCount ≤ e.offset) &&
    decide (e.offset + e.len + 128 ≤ h.totalLen) && decide (e.reserved = 0)

/-- Two sections do not overlap, their padding included (R63). -/
def apart (a b : DirEntry) : Bool :=
  decide (a.offset + (a.len + 63) / 64 * 64 ≤ b.offset) || decide (b.offset + (b.len + 63) / 64 * 64 ≤ a.offset)

/-- Two entries are not of one type and lane. -/
def distinct (a b : DirEntry) : Bool := !(decide (a.type = b.type) && decide (a.lane = b.lane))

/-- The index of the first entry that breaks R62 or R63, its padding included, if there is one; entry 0 for a missing type, which
belongs to no entry (R84, log entry 46). -/
def four (i : Image) : Option Nat :=
  let d := i.dir
  let bad := (List.range d.length).find? (fun k =>
    match d[k]? with
    | some e => !(entryOk i.header e) || (d.take k).any (fun x => !(apart x e) || !(distinct x e)) || decide (i.padBad = some k)
    | none => false)
  match bad with
  | some k => some k
  | none =>
    if commonTypes.all (fun t => d.any (fun e => decide (e.type = t) && decide (e.lane = 3))) &&
        laneTypes.all (fun t => [0, 1, 2].all (fun l => d.any (fun e => decide (e.type = t) && decide (e.lane = l))))
    then none else some 0

/-- The directory index of the section of a type that a lane uses (R63). -/
def entryOf (i : Image) (l : LaneId) (ty : Nat) : Nat :=
  (i.dir.findIdx? (fun e => decide (e.type = ty) && decide (e.lane = if commonTypes.contains ty then 3 else l.code))).getD 0
/-- The section version of a type for a lane. -/
def sver (i : Image) (l : LaneId) (ty : Nat) : Nat := ((i.dir[entryOf i l ty]?).map (·.sver)).getD 1
/-- The length of a section of a type for a lane. -/
def lenOf (i : Image) (l : LaneId) (ty : Nat) : Nat := ((i.dir[entryOf i l ty]?).map (·.len)).getD 0

/-- Fields of one function record (R69, R70). -/
def func (i : Image) (l : LaneId) (f : Func) : List (Nat × Nat) :=
  let r := vget i.sec.func f.ix
  let o := 32 * f.code
  chk 1 o (decide (r.present ≤ 1)) ++ chk 1 (o + 1) (decide (r.port < 3) || decide (r.port = 0xFF)) ++
    chk 1 (o + 2) (decide (r.ganged ≤ 1)) ++ chk 1 (o + 3) (decide (r.svMask < 16)) ++
    chk 1 (o + 4) (decide (r.roleOrder ≤ 5)) ++
    chk 1 (o + 5) (if sver i l 1 = 2 then decide (r.loop ≤ 1) else decide (r.loop = 0)) ++
    chk 1 (o + 8) (if r.port = 0xFF then decide (r.pwmFreq = 0) else inR 80 1000 r.pwmFreq) ++
    (if r.present = 1 then
      (List.finRange 3).flatMap (fun k => chk 1 (o + 10 + 2 * k.val) (inR 4096 40960 (vget r.share k)))
     else [])

/-- Cross-field rules of one function record (R70). -/
def funcX (i : Image) (f : Func) : List (Nat × Nat) :=
  let r := vget i.sec.func f.ix
  let o := 32 * f.code
  let sum := vget r.share 0 + vget r.share 1 + vget r.share 2
  if r.present = 0 then
    chk 1 o (decide (r.port = 0xFF) && decide (r.ganged = 0) && decide (r.svMask = 0) && decide (r.roleOrder = 0) &&
      decide (r.loop = 0) && decide (r.pwmFreq = 0) && decide (sum = 0))
  else
    chk 1 (o + 2) (decide (r.ganged = 0) || (decide (f = .steer ∨ f = .feel) && decide (r.port ≠ 0xFF))) ++
      chk 1 (o + 1) (match f with
        | .brake => decide (r.port ≠ 0xFF)
        | .trail => decide (r.port = 0xFF)
        | .park => decide (r.port = 0xFF)
        | _ => true) ++
      chk 1 (o + 3) (match f with
        | .trail => decide (r.svMask ≠ 0)
        | .park => decide (r.svMask ≠ 0)
        | _ => true) ++
      chk 1 (o + 10) (decide (sum = 49152)) ++
      chk 1 (o + 10) (match f with
        | .park => r.share.toList.all (fun s => decide (s = 16384))
        | _ => true) ++
      chk 1 (o + 5) (decide (r.loop = 0) || decide (r.pwmFreq ≤ 400))

/-- No port and no solenoid driver appears in two records (R70). -/
def funcPairs (i : Image) : List (Nat × Nat) :=
  (List.finRange 5).flatMap (fun a => (List.finRange 5).flatMap (fun b =>
    if a.val < b.val then
      let x := vget i.sec.func a
      let y := vget i.sec.func b
      chk 1 (32 * b.val + 1) (decide (x.port = 0xFF) || decide (x.port ≠ y.port)) ++
        chk 1 (32 * b.val + 3) (decide (Nat.land x.svMask y.svMask = 0))
    else []))

/-- Solenoid records (R71). -/
def sv (i : Image) (n : Fin 4) : List (Nat × Nat) :=
  let r := vget i.sec.sv n
  let o := 160 + 8 * n.val
  chk 1 o (decide (r.safe ≤ 1)) ++
    chk 1 (o + 2) (if r.safe = 1 then inR 100 1000 r.safeMa else decide (r.safeMa = 0)) ++
    chk 1 (o + 4) (inR 100 3000 r.maxMa)
/-- Cross-field rules of a solenoid record (R71). -/
def svX (i : Image) (n : Fin 4) : List (Nat × Nat) :=
  let r := vget i.sec.sv n
  chk 1 (160 + 8 * n.val) (decide (r.safe = 0) || !(nbit (vget i.sec.func 4).svMask n.val)) ++
    chk 1 (160 + 8 * n.val + 2) (decide (r.safeMa ≤ r.maxMa))

/-- The function of a port by the image. -/
def funcAt (i : Image) (p : Fin 3) : Option FuncRec :=
  i.sec.func.toList.find? (fun r => decide (r.present = 1) && decide (r.port = p.val))

/-- SENSE port records (R72). -/
def sense (i : Image) (l : LaneId) (p : Fin 3) : List (Nat × Nat) :=
  let r := vget i.sec.sense p
  let o := 32 * p.val
  let low := nbits r.srcMask 0 3
  match funcAt i p with
  | none =>
    chk 2 o (decide (r.srcMask = 0)) ++ chk 2 (o + 1) (decide (r.polePairs = 0)) ++ chk 2 (o + 2) (decide (r.qeFilt = 0)) ++
      chk 2 (o + 4) (decide (r.encCounts = 0)) ++ chk 2 (o + 8) (decide (r.resExc = 0)) ++ chk 2 (o + 10) (decide (r.voteTol = 0)) ++
      chk 2 (o + 12) (decide (r.hfiMax = 0)) ++ chk 2 (o + 14) (decide (r.hfiXcheck = 0))
  | some _ =>
    chk 2 o (decide (r.srcMask < 32) && [0, 1, 2, 4].contains low) ++ chk 2 (o + 1) (inR 1 32 r.polePairs) ++
      chk 2 (o + 2) (inR 1 255 r.qeFilt) ++
      chk 2 (o + 4) (if nbits r.srcMask 0 2 = 0 then decide (r.encCounts = 0) else inR 16 16777216 r.encCounts) ++
      chk 2 (o + 8) (if nbit r.srcMask 2 then inR 400 2000 r.resExc else decide (r.resExc = 0)) ++
      chk 2 (o + 10) (inR 182 16384 r.voteTol) ++
      chk 2 (o + 12) (if nbit r.srcMask 4 then inR 1 3000 r.hfiMax else decide (r.hfiMax = 0)) ++
      chk 2 (o + 14) (if sver i l 2 = 2 then inR 182 16384 r.hfiXcheck else decide (r.hfiXcheck = 0))
/-- Cross-field rules of a SENSE port record (R72). -/
def senseX (i : Image) (p : Fin 3) : List (Nat × Nat) :=
  let r := vget i.sec.sense p
  match funcAt i p with
  | none => []
  | some f =>
    chk 2 (32 * p.val) ((decide (f.ganged = 0) || nbit r.srcMask 3) &&
      (decide (nbits r.srcMask 0 3 ≠ 0) || nbit r.srcMask 4))
/-- SENT records (R72). -/
def sent (i : Image) (s : Fin 2) : List (Nat × Nat) :=
  let r := vget i.sec.sent s
  let o := 96 + 8 * s.val
  chk 2 o (inR 30 900 r.tick || (decide (r.tick = 0) && decide (r.use = 0))) ++ chk 2 (o + 2) (decide (r.pause ≤ 1)) ++
    chk 2 (o + 3) (decide (r.use ≤ 3)) ++ chk 2 (o + 2) (decide (r.tick ≠ 0) || decide (r.pause = 0))

/-- FAULT (R74, R352). -/
def fault (i : Image) : List (Nat × Nat) :=
  let f := i.sec.fault
  chk 4 0 (decide (f.mode ≤ 1)) ++
    (if f.mode = 1 then
      (List.finRange 8).flatMap (fun s => chk 4 (4 + 4 * s.val) (decide (vget f.react s < 1024))) ++
        f.sev.flatMap (fun e => chk 4 (36 + e.1 / 2) (decide (e.2 < 8)))
     else [])
/-- A fatal source has a severity that names WINTER (R74). -/
def faultX (i : Image) : List (Nat × Nat) :=
  let f := i.sec.fault
  if f.mode = 1 then
    [18, 227, 231, 454].flatMap (fun n =>
      chk 4 (36 + n / 2) (nbit (vget f.react (Fin.ofNat 8 (Tab.get 0 f.sev n))) 9))
  else []

/-- HOST port records (R75). -/
def hostPort (i : Image) (h : Fin 4) : List (Nat × Nat) :=
  let r := vget i.sec.hostPort h
  let o := 128 * h.val
  chk 5 o (decide (r.present ≤ 1)) ++ chk 5 (o + 1) (decide (r.kind ≤ 3)) ++
    chk 5 (o + 2) (match r.kind with
      | 0 => decide (r.transport = 0)
      | 1 => decide (r.transport ≤ 1)
      | 2 => decide (r.transport = 2)
      | _ => decide (r.transport = 0) || decide (r.transport = 2)) ++
    chk 5 (o + 4) (decide (r.perm < 2048))
/-- Queue records (R75). -/
def queue (i : Image) (q : Fin 16) : List (Nat × Nat) :=
  let r := vget i.sec.queue q
  let o := 512 + 4 * q.val
  chk 5 o (decide (r.port < 4) || decide (r.port = 0xFF)) ++
    chk 5 (o + 1) (decide (r.dir ≤ 1) && (decide (r.port ≠ 0xFF) || decide (r.dir = 0))) ++
    chk 5 (o + 2) (if r.port = 0xFF then decide (r.depth = 0) else [16, 32, 64, 128, 256].contains r.depth)
/-- Authority records (R75); FEEL's RANK is 0 (R440). -/
def auth (i : Image) (f : Func) : List (Nat × Nat) :=
  let r := vget i.sec.auth f.ix
  let o := 576 + 16 * f.code
  chk 5 o (r.rank.toList.all (fun n => decide (n ≤ 5)) &&
      (match f with
       | .feel => r.rank.toList.all (fun n => decide (n = 0))
       | _ => true)) ++
    chk 5 (o + 6) (inR 10 2000 r.ovrMs) ++
    chk 5 (o + 8) (decide (r.release ≤ 1))
/-- Cross-field rules of HOST (R75). Each KIND at most once is asked of the present ports, since the bytes of an absent port's record
are 0 and so name the vehicle host (log entry 46). -/
def hostX (i : Image) : List (Nat × Nat) :=
  (List.finRange 4).flatMap (fun a =>
    let x := vget i.sec.hostPort a
    if x.present = 1 then
      chk 5 (128 * a.val) ([0, 1].all (fun d =>
        i.sec.queue.toList.any (fun q => decide (q.port = a.val) && decide (q.dir = d)))) ++
      (List.finRange 4).flatMap (fun b =>
        let y := vget i.sec.hostPort b
        if a.val < b.val ∧ y.present = 1 then
          chk 5 (128 * b.val + 1) (decide (x.kind ≠ y.kind)) ++ chk 5 (128 * b.val + 64) (decide (x.cred ≠ y.cred))
        else [])
    else [])

/-- POWER (R76). -/
def power (i : Image) (d : Fin 8) : List (Nat × Nat) :=
  let r := vget i.sec.power d
  chk 6 (4 * d.val) (decide (r.allow < 4) && (decide (d.val ≠ 0 ∧ d.val ≠ 4) || decide (r.allow = 0))) ++
    chk 6 (4 * d.val + 1) (decide (r.hostMask < 16))
/-- SEASON (R77). -/
def season (i : Image) (f : Func) : List (Nat × Nat) :=
  let r := vget i.sec.season f.ix
  let o := 16 * f.code
  chk 7 o (inR 1 28800 r.autumnS) ++
    chk 7 (o + 4) (match f with
      | .steer => true
      | .feel => true
      | _ => decide (r.rateLimit = 0)) ++
    chk 7 (o + 8) (match f with
      | .brake => inR 50 500 r.winterDecel
      | _ => decide (r.winterDecel = 0))
/-- The instances that a retained value has (R79). -/
def instances : Nat → Nat
  | 1 => 3
  | 2 => 3
  | 3 => 2
  | 4 => 1
  | 5 => 1
  | 6 => 2
  | 7 => 2
  | 8 => 4
  | _ => 0
/-- START (R78, R79). -/
def start (i : Image) : List (Nat × Nat) :=
  let s := i.sec.start
  chk 8 0 (decide (s.armMode ≤ 1)) ++ chk 8 2 (inR 50 5000 s.gatherMs) ++ chk 8 4 (inR 80 800 s.armVdcMin) ++
    chk 8 6 (inR 10 5000 s.prechargeMs) ++ chk 8 8 (inR 5 100 s.kmisMs) ++ chk 8 9 (inR 1 64 s.recs.length) ++
    (List.range s.recs.length).flatMap (fun k =>
      match s.recs[k]? with
      | some r =>
        chk 8 (16 + 16 * k) (decide (instances r.ident ≠ 0)) ++
          chk 8 (17 + 16 * k) (decide (r.inst = 0xFF) || decide (r.inst < instances r.ident))
      | none => [])
/-- Cross-field rules of START (R79). -/
def startX (i : Image) : List (Nat × Nat) :=
  let s := i.sec.start
  (List.range s.recs.length).flatMap (fun k =>
    match s.recs[k]? with
    | some r => chk 8 (16 + 16 * k + 12) (decide (r.lo ≤ r.dflt) && decide (r.dflt ≤ r.hi))
    | none => []) ++
    [1, 2, 3, 4, 5, 6, 7, 8].flatMap (fun d => (List.range (instances d)).flatMap (fun n =>
      chk 8 9 (s.recs.any (fun r => decide (r.ident = d) && (decide (r.inst = 0xFF) || decide (r.inst = n))))))
/-- TIME (R80). -/
def time (i : Image) (l : LaneId) : List (Nat × Nat) :=
  let t := i.sec.time
  chk 9 8 (if sver i l 9 = 2 then inR 1000 1000000000 t.jumpNs else decide (t.jumpNs = 0)) ++
    chk 9 12 (decide (t.asEnable ≤ 1))
/-- AGEING (R81). -/
def ageing (i : Image) (p : Fin 3) : List (Nat × Nat) :=
  chk 10 (16 * p.val + 2) (inR 1 60000 (vget i.sec.switches p).tauMs)

/-- SLAZ header and descriptors (R73). -/
def slaz (i : Image) : List (Nat × Nat) :=
  let s := i.sec.slaz
  chk 3 0 (decide (s.arbRate ≤ 1)) ++ chk 3 1 (decide (s.dataRate ≤ 2)) ++
    chk 3 2 (decide (s.rank ≤ 7) || decide (s.rank = 0xFF)) ++ chk 3 3 (inR 1 8 s.modes) ++
    (List.finRange 8).flatMap (fun m =>
      let d := vget s.desc m
      let o := 64 + 8 * m.val
      if m.val < s.modes then
        chk 3 o (inR 1 64 d.cycles) ++ chk 3 (o + 1) (inR 1 64 d.windows) ++
          chk 3 (o + 2) (decide (d.first + d.count ≤ s.entries.length)) ++ chk 3 (o + 6) (inR 5 1000 d.cycleLen)
      else
        chk 3 o (decide (d.cycles = 0)) ++ chk 3 (o + 1) (decide (d.windows = 0)) ++ chk 3 (o + 2) (decide (d.first = 0)) ++
          chk 3 (o + 4) (decide (d.count = 0)) ++ chk 3 (o + 6) (decide (d.cycleLen = 0)))
/-- The entries of a mode with their indices. -/
def entries (s : SlazSec) (m : Fin 8) : List (Nat × SlazEntry) :=
  let d := vget s.desc m
  (List.range d.count).filterMap (fun k => (s.entries[d.first + k]?).map (fun e => (d.first + k, e)))
/-- The fields of a window entry (R373). -/
def entry (s : SlazSec) (m : Fin 8) (k : Nat) (e : SlazEntry) : List (Nat × Nat) :=
  let o := 128 + 16 * k
  chk 3 o (decide (e.cycBase ≤ 63) && decide (e.cycBase < e.rept)) ++ chk 3 (o + 1) (inR 1 64 e.rept) ++
    chk 3 (o + 2) (decide (e.window < (vget s.desc m).windows)) ++
    chk 3 (o + 4) (match e.kind with
      | .reference => decide (e.ident = 0)
      | _ => inR 0x010 0x7EF e.ident) ++
    chk 3 (o + 6) (match e.kind with
      | .reference => decide (e.dlc = 4)
      | .vote => decide (e.dlc = 2)
      | _ => inR 1 15 e.dlc) ++
    chk 3 (o + 7) (match e.kind with
      | .reference => decide (e.buf = 0xFF)
      | .vote => decide (e.buf = 0xFF)
      | _ => decide (e.buf ≤ 79)) ++
    chk 3 (o + 10) (inR 20 50000 e.len)
/-- Bytes of a DLC (R372). -/
def dlcBytes : Nat → Nat
  | 9 => 12
  | 10 => 16
  | 11 => 20
  | 12 => 24
  | 13 => 32
  | 14 => 48
  | 15 => 64
  | n => n
/-- t_frame of n bytes in units of 0.1 ns (R372). -/
def tFrame (s : SlazSec) (n : Nat) : Nat :=
  let arb := if s.arbRate = 0 then 20000 else 10000
  let dat := if s.dataRate = 0 then 5000 else if s.dataRate = 1 then 2000 else 1250
  34 * arb + (5 + 8 * n + (5 + 8 * n + 3) / 4 + (if n ≤ 16 then 27 else 32)) * dat
/-- The guard of a window in 0.1 ns (R374). -/
def guard (e : SlazEntry) : Nat := 20000 + 4 * (e.start + e.len)
/-- Two window entries may apply in one basic cycle (R373): the cycles `base + k × repeat` of both meet. -/
def meet (cycles : Nat) (a b : SlazEntry) : Bool :=
  (List.range cycles).any (fun c => decide (c % max 1 a.rept = a.cycBase) && decide (c % max 1 b.rept = b.cycBase))
/-- R374 for one mode and channel. -/
def modeX (i : Image) (m : Fin 8) (c : Fin 2) : List (Nat × Nat) :=
  let s := i.sec.slaz
  let d := vget s.desc m
  let es := (entries s m).filter (fun e => decide (e.2.chan = c))
  let l10 := d.cycleLen * 50 * 10000
  let refs := es.filter (fun e => decide (e.2.kind = .reference))
  chk 3 (64 + 8 * m.val) (decide (refs.length = 1) && refs.all (fun e =>
      decide (e.2.window = 0) && decide (e.2.start = 0) && decide (e.2.rept = 1) && e.2.rx &&
        decide (e.2.tx = decide (s.rank ≠ 0xFF))) &&
      decide ((es.filter (fun e => decide (e.2.window = 0))).length = 1)) ++
    es.flatMap (fun e =>
      let o := 128 + 16 * e.1
      let x := e.2
      let same := es.filter (fun y => decide (y.2.window = x.window))
      let nmax := same.foldl (fun v y => max v (dlcBytes y.2.dlc)) 0
      chk 3 (o + 3) (decide (x.kind = .reference) || (x.tx != x.rx)) ++
      chk 3 (o + 8) (same.all (fun y => decide (y.2.start = x.start) && decide (y.2.len = x.len) && decide (y.2.kind = x.kind)) &&
        decide (x.start + x.len ≤ d.cycleLen * 50) &&
        es.all (fun y => decide (y.2.window = x.window) || decide (y.2.start + y.2.len ≤ x.start) ||
          decide (x.start + x.len ≤ y.2.start))) ++
      chk 3 (o + 10) (decide ((if x.kind = .reference then
          tFrame s 4 + 4 * d.cycleLen * 50 + 16 * (if s.arbRate = 0 then 20000 else 10000) else tFrame s nmax) + guard x ≤
          x.len * 10000) || decide (l10 = 0)) ++
      chk 3 (o + 7) (es.all (fun y => decide (y.2.buf ≠ x.buf) || decide (63 < x.buf) ||
          (decide (y.2.tx = x.tx) && decide (y.2.dlc = x.dlc))) &&
        (if h : 64 ≤ x.buf ∧ x.buf < 80 then
          decide ((vget i.sec.queue ⟨x.buf - 64, by omega⟩).dir = if x.tx then 1 else 0) else true)) ++
      chk 3 o ((x.kind == .arbitrating) || !x.tx || decide (x.kind = .reference) ||
        es.all (fun y => decide (y.1 = e.1) || !y.2.tx || decide (y.2.window ≠ x.window) ||
          decide (y.2.kind = .arbitrating) || !(meet d.cycles x y.2)))) ++
    chk 3 3 (decide (s.modes ≤ 1) ||
      (let vs := es.filter (fun e => decide (e.2.kind = .vote) && e.2.tx)
       decide (vs.length = 1) && vs.all (fun e =>
         decide (((List.range d.cycles).filter (fun k => decide (k % max 1 e.2.rept = e.2.cycBase))).length = 1))))

/-- The modes' entries do not overlap and are at most 4,096 in all (R73). -/
def slazX (i : Image) : List (Nat × Nat) :=
  let s := i.sec.slaz
  let used := (List.finRange 8).filter (fun m => decide (m.val < s.modes))
  used.flatMap (fun m =>
    let a := vget s.desc m
    chk 3 (64 + 8 * m.val + 2) (used.all (fun k =>
      let b := vget s.desc k
      decide (m.val ≤ k.val) || decide (a.count = 0) || decide (b.count = 0) || decide (a.first + a.count ≤ b.first) ||
        decide (b.first + b.count ≤ a.first))) ++
      chk 3 (64 + 8 * m.val + 4) (decide ((used.filter (fun k => decide (k.val ≤ m.val))).foldl
        (fun v k => v + (vget s.desc k).count) 0 ≤ 4096)))

/-- Check 5: every field of the lane's section within its limits (R66). Of the sections FUNC and FAULT the spec states the length
(R69, R74); a section of another type that is too short for its records spells 0 where it ends (log entry 46). -/
def five (i : Image) (l : LaneId) : List (Nat × Nat) :=
  i.badReserved ++
  chk 1 0xFFFFF (decide (lenOf i l 1 = 192)) ++
  chk 4 0xFFFFF (decide (lenOf i l 4 = if i.sec.fault.mode = 1 then 548 else 4)) ++
  Func.all.flatMap (func i l) ++ (List.finRange 4).flatMap (sv i) ++ (List.finRange 3).flatMap (sense i l) ++
  (List.finRange 2).flatMap (sent i) ++ slaz i ++
  (List.finRange 8).flatMap (fun m =>
    if m.val < i.sec.slaz.modes then (entries i.sec.slaz m).flatMap (fun e => entry i.sec.slaz m e.1 e.2) else []) ++
  fault i ++ (List.finRange 4).flatMap (hostPort i) ++ (List.finRange 16).flatMap (queue i) ++ Func.all.flatMap (auth i) ++
  (List.finRange 8).flatMap (power i) ++ Func.all.flatMap (season i) ++ chk 7 80 (inR 60 86400 i.sec.eqxS) ++ start i ++
  time i l ++ (List.finRange 3).flatMap (ageing i)

/-- FEAT_REQ against the lane's own section (R68). -/
def featX (i : Image) : List (Nat × Nat) :=
  let need (bit : Nat) (b : Bool) : Bool := !b || nbit i.header.featReq bit
  let hfi := i.sec.sense.toList.any (fun r => nbit r.srcMask 4)
  let sev := decide (i.sec.fault.mode = 1)
  let dual := i.sec.func.toList.any (fun r => decide (r.loop = 1))
  chk 0 0xFFFFF (need 3 hfi && need 4 (decide (1 < i.sec.slaz.modes)) && need 6 (decide (i.sec.time.asEnable = 1)) &&
    decide (nbit i.header.featReq 5 = sev) && decide (nbit i.header.featReq 2 = dual) &&
    subset i.header.featReq (2 ^ 2 + 2 ^ 3 + 2 ^ 4 + 2 ^ 5 + 2 ^ 6))

/-- Check 6: the cross-field rules within the lane's section (R66). -/
def six (i : Image) : List (Nat × Nat) :=
  featX i ++ Func.all.flatMap (funcX i) ++ funcPairs i ++ (List.finRange 4).flatMap (svX i) ++
  (List.finRange 3).flatMap (senseX i) ++
  slazX i ++ (List.finRange 8).flatMap (fun m => if m.val < i.sec.slaz.modes then modeX i m 0 ++ modeX i m 1 else []) ++
  faultX i ++ hostX i ++ startX i

end Check

/-- Of failing fields the one that SYS_IMG_STATUS names: the first directory entry's, and there the lowest offset (R84, log entry
46); none for no failing field. -/
def firstField (i : Image) (l : LaneId) (xs : List (Nat × Nat)) : Option (Nat × Nat) :=
  (xs.map (fun x => (if x.1 = 0 then 0 else Check.entryOf i l x.1, x.2))).foldl (fun b x =>
    match b with
    | none => some x
    | some y => if x.1 < y.1 ∨ (x.1 = y.1 ∧ x.2 < y.2) then some x else some y) none
/-- The outcome of verification (R66, R84): the check that failed or 0, the directory entry, the field's offset. -/
def imageVerdict (stepping : Nat) (keyValid : Bool) (l : LaneId) (i : Image) : Nat × Nat × Nat :=
  if !(Check.one stepping i) then (1, 0, 0xFFFFF)
  else if !(Check.two stepping i) then (2, 0, 0xFFFFF)
  else if !(keyValid && i.sigOk) then (3, 0, 0xFFFFF)
  else
    match Check.four i with
    | some k => (4, k, 0xFFFFF)
    | none =>
      match firstField i l (Check.five i l) with
      | some (e, off) => (5, e, off)
      | none =>
        match firstField i l (Check.six i) with
        | some (e, off) => (6, e, off)
        | none => (0, 0, 0xFFFFF)

/-- The sections with the values that version-1 sections give to version-2 fields (R65). -/
def loadedSections (i : Image) (l : LaneId) : Sections :=
  { i.sec with
    sense := i.sec.sense.map (fun r => if Check.sver i l 2 = 2 then r else { r with hfiXcheck := 5461 })
    time := if Check.sver i l 9 = 2 then i.sec.time else { i.sec.time with jumpNs := 1000000 } }

end Sys2Proof.Machine
end

