-- ==== Sys2Proof/Machine/Startup.lean ====
section
/-! DEFINITION. The start sequence, retained state and the lock of the lane feature set: rows LANE_POWER_ON_RESET
to SYS_FEAT_LOCK of the table (R30 to R43, R59, R66, R82, R537, R599, R603). -/

namespace Sys2Proof.Machine

/-- Registers that a start of the lane leaves as they are: what the guard's own supply, its mirror inputs, the
fuses and the update journal hold (R316, R328, R338, R302, R522, R530 to R534). -/
def survivors : List Fld :=
  [Reg.LG_STATUS_REARMS, Reg.LG_CONT_KM_NO, Reg.LG_CONT_KM_NC, Reg.LG_CONT_KP_NO, Reg.LG_CONT_KP_NC,
   Reg.GD_STAT_VGDOK, Reg.UP_FLOOR_FLOOR]

/-- Bytes of the payload of a retained slot (R603). -/
def payloadLen : Nat := 33944

/-- A journal slot passes its check: the rules of R36 without the schema test (R511). A journal slot's payload is at most 32 KiB less
its header. -/
def JournalSlot.passes (s : JournalSlot) (l : LaneId) : Bool :=
  decide (s.magic = 0x4C4E524A) && decide (s.lane = l.code) && decide (s.len ≤ 32704) && s.digestOk

/-- The newer of two slots of which `a` and `b` say which pass, as R36 compares sequence numbers; slot 0 where neither is newer. -/
def newerOf (a b : Bool) (sa sb : Nat) : Option (Fin 2) :=
  match a, b with
  | true, true => if newer32 sb sa then some 1 else some 0
  | true, false => some 0
  | false, true => some 1
  | false, false => none

/-- The record of the image for a retained value (R79); of two that cover an instance the first of the section counts, since the spec
does not say which (log entry 46). -/
def retRec (s : StartSec) (ident inst : Nat) : Option RetRec :=
  s.recs.find? (fun r => decide (r.ident = ident) && (decide (r.inst = 0xFF) || decide (r.inst = inst)))

/-- ID and instance of the eighteen retained values in the order of R603. -/
def trimIds : List (Nat × Nat) :=
  [(1, 0), (1, 1), (1, 2), (2, 0), (2, 1), (2, 2), (3, 0), (3, 1), (4, 0), (5, 0), (6, 0), (6, 1), (7, 0), (7, 1),
   (8, 0), (8, 1), (8, 2), (8, 3)]

/-- A retained value against its limits: the value and whether it was replaced (R37). -/
def clampRet (s : StartSec) (id : Nat × Nat) (v : Option Int) : Int × Bool :=
  match retRec s id.1 id.2, v with
  | some r, some v => if r.lo ≤ v ∧ v ≤ r.hi then (v, false) else (r.dflt, true)
  | some r, none => (r.dflt, false)
  | none, some v => (v, false)
  | none, none => (0, false)

namespace Lane

/-- The lane's part of the fuses and keys as a start finds it: of two copies that differ the higher state and the
revocation count, and the other copy is programmed to match (R599); an advance takes effect (R489). -/
def fuseSettle (s : SecSt) : SecSt :=
  let lc := max s.lc1 s.lc2
  { s with lc := lc, lc1 := lc, lc2 := lc, pend := none, nonce := none, nonceRead := 0, tokenWords := [], tokenCheck := false,
           tokenStatus := 0, chan := Vector.replicate 2 none, idUsable := false, entropyBad := false,
           identity := if lc = 3 then none else s.identity, kek := if lc = 3 then some (2 ^ 256 - 1) else s.kek,
           certificate := if lc = 3 then [] else s.certificate,
           keys := s.keys.map (fun k => let r := k.revoked1 || k.revoked2; { k with revoked1 := r, revoked2 := r }) }

/-- The 32 bytes of a slot's header that its digest covers. -/
def slotHead (L : Lane) (n : Fin 2) : List Byte := Tab.run 0 L.store (65536 * n.val) 32
/-- The payload of a slot before the application area, and that area. -/
def slotPayload (L : Lane) (n : Fin 2) : Payload :=
  payloadOf (Tab.run 0 L.store (65536 * n.val + 64) 1176) (Tab.cut (65536 * n.val + 1240) (65536 * n.val + 34008) L.store)
/-- The digest field of a slot matches header and payload (R35, R36): as a commit has written it, or byte for byte. -/
def slotDigestOk (L : Lane) (n : Fin 2) : Bool :=
  match vget L.ret.digest n with
  | .intact => true
  | .torn => false
  | .stored => decide (Tab.run 0 L.store (65536 * n.val + 32) 32 =
      shake 32 (L.slotHead n ++ Tab.run 0 L.store (65536 * n.val + 64) payloadLen))
/-- A retained slot passes its check (R36, R603). -/
def slotPasses (L : Lane) (schema : Nat) (n : Fin 2) : Bool :=
  let h := L.slotHead n
  decide (field h 0 4 = 0x5445525A) && decide (field h 14 1 = L.id.code) && decide (field h 8 4 = payloadLen) &&
    decide (field h 12 2 = schema) && L.slotDigestOk n
/-- The slot that a start restores, if one passes (R36). -/
def slotChoice (L : Lane) (schema : Nat) : Option (Fin 2) :=
  newerOf (L.slotPasses schema 0) (L.slotPasses schema 1) (L.slotSeq 0) (L.slotSeq 1)
/-- A commit's bytes stand in its slot: header, payload, application area, with the digest of them (R35, R39, R603). -/
def slotWrite (n : Fin 2) (seq : Nat) (p : Payload) (L : Lane) : Lane :=
  let b := 65536 * n.val
  let st := Tab.graft 0 L.store b (slotHeader 0x5445525A seq payloadLen L.start.image.header.retainedSchema L.id.code ++
    List.replicate 32 0 ++ p.fixed)
  let st := p.app.foldl (fun t e => if e.1 < 0x8000 then Tab.put 0 t (b + 1240 + e.1) e.2 else t)
    (st.filter (fun e => !(decide (b + 1240 ≤ e.1) && decide (e.1 < b + 34008))))
  { L with store := st, ret := { L.ret with digest := vupd L.ret.digest n (fun _ => .intact) } }

/-! ### The update journal (R511, R522, R527) -/

/-- What the journal records of the lane now. -/
def journalRec (L : Lane) : JournalRec :=
  let u := L.update
  { state := L.rd Reg.UP_STATE_STATE, active := u.active, previous := u.previous, digest := u.digest, chunks := u.chunks,
    kept := u.keptAfter7, checkpoint := u.checkpoint, reverted := u.reverted }
/-- The newer valid journal slot (R511). -/
def journalPick (L : Lane) : Option (Fin 2) :=
  let a := vget L.update.journal 0
  let b := vget L.update.journal 1
  newerOf (a.passes L.id) (b.passes L.id) a.seq b.seq
/-- A journal write: it goes to the older slot, header last, with the sequence number one higher (R511). -/
def journalWrite (L : Lane) : Lane :=
  let n : Fin 2 := match L.journalPick with
    | some 0 => 1
    | _ => 0
  let seq := match L.journalPick with
    | some k => ((vget L.update.journal k).seq + 1) % 2 ^ 32
    | none => 1
  let x : JournalSlot := ⟨0x4C4E524A, seq, 64, L.id.code, true, L.journalRec⟩
  L.onUpd (fun u => { u with journal := vupd u.journal n (fun _ => x) })
/-- A bank that the boot ROM considers where no journal slot is valid: its manifest verifies and its epoch is not below the fused
floor (R511); the VERSION of its manifest. -/
def bankVersion (L : Lane) (b : Fin 2) : Option Nat :=
  match vget L.update.manifests b with
  | some m => if m.sigOk ∧ L.rd Reg.UP_FLOOR_FLOOR ≤ m.version / 2 ^ 26 % 64 then some m.version else none
  | none => none
/-- The bank that the boot ROM then runs: the one with the higher VERSION, bank 0 when both are equal. -/
def bankChoice (L : Lane) : Nat :=
  match L.bankVersion 0, L.bankVersion 1 with
  | some a, some b => if a < b then 1 else 0
  | none, some _ => 1
  | _, _ => 0
/-- What the boot ROM reads of the journal at a start (R511, R522, R527): PREPARED returns to STAGED, COMMITTED starts the new bank
in TRIAL; without a valid slot the journal is in IDLE. -/
def journalRead (L : Lane) : Lane :=
  match L.journalPick with
  | some k =>
    let r := (vget L.update.journal k).record
    let st := if r.state = 4 then 3 else if r.state = 5 then 6 else r.state
    let L := (L.wr Reg.UP_STATE_STATE st).onUpd (fun u =>
      { u with active := r.active, previous := r.previous, digest := r.digest, chunks := r.chunks, keptAfter7 := r.kept,
               checkpoint := r.checkpoint, reverted := r.reverted })
    L.when (decide (st ≠ r.state)) journalWrite
  | none =>
    let b := L.bankChoice
    ((L.wr Reg.UP_STATE_STATE 0).onUpd (fun u =>
      { u with active := b, previous := 1 - b, digest := 0, chunks := 0, keptAfter7 := false, checkpoint := (0, 0, 0),
               reverted := none })).journalWrite

/-- What a start of the lane die leaves of the guard, which has its own supply: the contactor commands, the state and the cause of
a forcing, which only LG_REARM ends (R314, R328); from any other state the guard holds every output safe (R30). -/
def guardAtStart (L : Lane) : Lane :=
  if L.guardSt.powered && decide (L.gstate = 3) then L else (((L.wr Reg.GD_STAT_ASC 0).driveKm false).driveKp false).wr Reg.LG_STATUS_GSTATE 0

/-- A new start of the lane: everything that lasts "until the next start" ends, every register takes its At start
value, device time begins at 0, the cores run the boot ROM (R10, R30, R399). The guard's vote inputs, challenge values and contactors
are its own (R91, R314, R316). -/
def startLane (recoveryLow : Bool) (L : Lane) : Lane :=
  let L := L.guardAtStart
  let z := Lane.unpowered L.id
  let z' : Lane :=
    { z with
      draws := L.draws, sram := L.sram, store := L.store, out := L.out,
      dbg := { L.dbg with haltreq := Vector.replicate 4 false, unavail := Vector.replicate 4 false, secHalted := false },
      ret := { z.ret with digest := L.ret.digest },
      vote := if L.guardSt.powered then { z.vote with count := L.vote.count, inp := L.vote.inp } else z.vote,
      core := z.core.map (fun (c : CoreSt) => { c with run := CoreRun.rom }),
      time := { z.time with elapsed := L.time.elapsed },
      guardSt := { z.guardSt with powered := L.guardSt.powered, lfsr := L.guardSt.lfsr, num := L.guardSt.num },
      sec := fuseSettle L.sec,
      update := { L.update with frags := [], waiting := [], coordinator := false, restartAt := none, asker := none },
      test := { z.test with fuses := L.test.fuses, lines := L.test.lines },
      gate := { z.gate with drive := L.gate.drive, chopHw := L.gate.chopHw && L.guardSt.powered, ascCounted := L.gate.ascCounted && L.guardSt.powered },
      timers := L.timers.filter (fun e => [Timer.kmDisagree, .kpDisagree, .voteIn .prev, .voteIn .next].contains e.1),
      v5out := true,
      start := { z.start with phase := .romCheck, recoveryBall := recoveryLow } }
  let z' := survivors.foldl (fun z f => z.wr f (L.rd f)) z'
  let z' := z'.when (L.guardSt.powered && decide (L.gstate = 3)) (fun z =>
    ((z.wr Reg.LG_STATUS_GSTATE 3).wr Reg.LG_STATUS_FCAUSE (L.rd Reg.LG_STATUS_FCAUSE)).wr Reg.LG_CONT_KMCMD (L.rd Reg.LG_CONT_KMCMD)
      |>.wr Reg.LG_CONT_KPCMD (L.rd Reg.LG_CONT_KPCMD))
  let z' := ((z'.wr Reg.SYS_STATE_STATE 0).wr Reg.IB_PREF_PREF (0xE0 + L.id.code)).wr (Reg.SYS_FEAT_OFFER 0)
    (offered (z'.rd Reg.SYS_ID_STEPPING))
  let z' := z'.when (decide (z'.lifecycle = 0) || decide (z'.lifecycle = 3)) (fun z => (z.set1 Reg.SE_DBG_OPEN).wr Reg.SE_DBG_SCOPE 31)
  let z' := z'.when (decide (z'.lifecycle = 3)) (fun z => (z.set1 Reg.SE_STATUS_ZEROISED).securityClear)
  ((z'.set1 Reg.TS_STAT_LEADER).journalRead.when L.guardSt.powered (restart .clkGood)).gateFollowAll

/-- The digest of the manifest in the active bank, 0 where there is none (R512). -/
def activeDigest (L : Lane) : Nat := ((vget L.update.manifests L.activeBank).map (fun m => m.digest)).getD 0
/-- A reversion: the previous bank is the active one, the lane restarts and reports the digest (R522, R525). -/
def revert (L : Lane) : Lane :=
  let d := L.activeDigest
  ((((L.onUpd (fun u => { u with active := u.previous, previous := u.active, reverted := some d })).wr Reg.UP_STATE_STATE 0).journalWrite).startLane
    false).wr Reg.UP_STATE_ERR 11
/-- A start on a set in TRIAL that fails in BOOT or SOLSTICE reverts and starts the previous bank (R525); any other
failing start does what R30 says. -/
def startFails (otherwise : Lane → Lane) (L : Lane) : Lane :=
  if L.rd Reg.UP_STATE_STATE = 6 then L.revert else otherwise L

/-- The lane enters RECOVERY; its cores run the boot ROM (R30). -/
def enterRecovery (cause : Nat) (L : Lane) : Lane :=
  let L := { L with core := L.core.map (fun (c : CoreSt) => { c with run := CoreRun.rom }) }
  ((((L.setSvc 7).wr Reg.SYS_STATE_CAUSE cause).onStart (fun s => { s with phase := .recovery })).each (List.finRange 2)
    (fun c => wr (Reg.SZ_STAT_STATE c.val) 0)).isoStart

/-- The fields that READY loads from the image (R82): field and value. -/
def imageFields (i : Image) (s : Sections) : List (Fld × Nat) :=
  [(Reg.SYS_RET_STATUS_SCHEMA, i.header.retainedSchema), (Reg.SYS_IMG_VERSION_VERSION, i.header.imageVersion),
   (Reg.SYS_IMG_INFO_FPT, i.header.fptVersion), (Reg.SYS_IMG_INFO_KEY_SLOT, i.header.keySlot),
   (Reg.SYS_IMG_INFO_SECTIONS, 10), (Reg.FC_STATUS_MODE, s.fault.mode), (Reg.TS_JTHR, s.time.jumpNs),
   (Reg.EN_RXCORR, uns 32 s.time.rxCorr), (Reg.EN_TXCORR, uns 32 s.time.txCorr), (Reg.SZ_INFO_ARB_RATE, s.slaz.arbRate),
   (Reg.SZ_INFO_DATA_RATE, s.slaz.dataRate), (Reg.SZ_INFO_RANK, s.slaz.rank), (Reg.SZ_INFO_MODES, s.slaz.modes),
   (Reg.LG_CONT_KMIS, s.start.kmisMs), (Reg.DE_PWM_INFO_FREQ 3, 100)] ++
  (List.range 8).map (fun n => (Reg.SYS_IMG_DIGEST n, nbits i.digest (32 * n) 32)) ++
  (List.range 4).map (fun n => (Reg.SYS_IMG_FEATREQ n, nbits i.header.featReq (32 * n) 32)) ++
  (List.finRange 8).map (fun k => (Reg.FC_REACT k.val, if s.fault.mode = 1 then vget s.fault.react k else 0)) ++
  (List.finRange 8).flatMap (fun d =>
    [(Reg.PD_POLICY_ALLOW d.val, (vget s.power d).allow), (Reg.PD_POLICY_HOST_MASK d.val, (vget s.power d).hostMask)]) ++
  (List.finRange 16).flatMap (fun q =>
    let r := vget s.queue q
    [(Reg.HQ_CFG_PORT q.val, r.port), (Reg.HQ_CFG_DIR q.val, r.dir), (Reg.HQ_CFG_DEPTH q.val, r.depth)]) ++
  (List.finRange 4).flatMap (fun h =>
    let r := vget s.hostPort h
    [(Reg.HQ_PORT_PRESENT h.val, r.present), (Reg.HQ_PORT_KIND h.val, r.kind), (Reg.HQ_PORT_TRANSPORT h.val, r.transport),
     (Reg.HQ_PERM h.val, r.perm)]) ++
  (List.finRange 3).flatMap (fun p =>
    let f := s.func.toList.find? (fun r => decide (r.present = 1) && decide (r.port = p.val))
    let r := vget s.sense p
    [(Reg.DE_CTRL_LOOP p.val, (f.map (·.loop)).getD 0), (Reg.DE_PWM_INFO_FREQ p.val, (f.map (·.pwmFreq)).getD 0),
     (Reg.DE_MOT_CFG_DIRMODE p.val, (f.map (fun x => 1 - x.ganged)).getD 0),
     (Reg.DE_MOT_CFG_FWEN p.val, (f.map (fun x => 1 - x.ganged)).getD 0),
     (Reg.DE_MOT_CFG_HFIEN p.val, b2n (nbit r.srcMask 4)), (Reg.QE_VTOL_VOTE_TOL p.val, r.voteTol),
     (Reg.QE_VTOL_HFI_XCHECK p.val, r.hfiXcheck)]) ++
  (List.finRange 2).flatMap (fun n =>
    let r := vget s.sent n
    let f := s.sense.toList.find? (fun x => nbit x.srcMask n.val)
    [(Reg.QE_CFG_FILT n.val, (f.map (·.qeFilt)).getD 11), (Reg.QE_SENT_CFG_TICK n.val, r.tick),
     (Reg.QE_SENT_CFG_PAUSE n.val, r.pause), (Reg.QE_SENT_CFG_USE n.val, r.use),
     (Reg.QE_SENT_STAT_TMO n.val, if r.tick = 0 then 0 else 1)])

/-- Load every field of a list. -/
def loadFields (xs : List (Fld × Nat)) (L : Lane) : Lane := xs.foldl (fun L e => L.wr e.1 e.2) L

/-- Restore the kept settings from a slot, or take the image's defaults (R36, R37, R79). -/
def restore (L : Lane) : Lane :=
  let s := L.img.start
  let schema := L.start.image.header.retainedSchema
  let pick := L.slotChoice schema
  let p : Option Payload := pick.map L.slotPayload
  let vals := (List.finRange 18).map (fun k => clampRet s (trimIds.getD k.val (0, 0)) (p.map (fun x => vget x.trims k)))
  let hist := (List.finRange 5).map (fun f =>
    match p with
    | some x => let h := vget x.history f; if h.index ≤ 2 then (h, false) else (⟨0, h.seq⟩, true)
    | none => ((⟨0, 0⟩ : History), false))
  let aut := (List.finRange 5).map (fun f =>
    match p with
    | some x =>
      let a := vget x.autumn f
      if a.was && decide ((vget L.img.season f).autumnS * 1000 < a.ms) then ((⟨false, 0⟩ : AutumnRec), true) else (a, false)
    | none => (⟨false, 0⟩, false))
  let clamped := (vals.filter (·.2)).length + (hist.filter (·.2)).length + (aut.filter (·.2)).length
  let ag := (p.map (·.ageing)).getD Init.ageing
  let app := (p.map (·.app)).getD []
  let val (k : Nat) : Int := ((vals[k]?).map (·.1)).getD 0
  let L := (List.range 12).foldl (fun L k =>
    match trimFields[k]? with
    | some f => L.wr f (uns f.w (val k))
    | none => L) L
  let L := (List.range 4).foldl (fun L k =>
    match svTrimFields[k]? with
    | some f => L.wr f (uns f.w (val (14 + k)))
    | none => L) L
  let L := Func.all.foldl (fun L f => L.wr (Reg.ROLE_FUNC_ROT f.code) (((hist[f.code]?).map (·.1.index)).getD 0)) L
  let L := (L.wr Reg.SYS_RET_STATUS_SOURCE (match pick with
    | some n => n.val
    | none => 3)).wr Reg.SYS_RET_STATUS_CLAMPED (min 255 clamped)
  { L with
    sram := app.foldl (fun m e => Tab.put 0 m (appBase + e.1) e.2) (L.sram.filter (fun e => decide (e.1 < appBase)))
    start := { L.start with pedalCal := Vector.ofFn (fun (k : Fin 2) => val (12 + k.val)) }
    ret := { L.ret with
      newer := pick
      history := Vector.ofFn (fun (f : Fin 5) => ((hist[f.val]?).map (·.1)).getD ⟨0, 0⟩)
      autumn := Vector.ofFn (fun (f : Fin 5) => ((aut[f.val]?).map (·.1)).getD ⟨false, 0⟩) }
    test := { L.test with ageing := ag } }

/-- Entry to READY: every img field is loaded, kept fields are restored or defaulted, the guard challenge starts, the
cores run lane firmware, the gather time runs, the carriers begin and the solenoid drivers take their SAFE values (R30, R47, R82, R167,
R232, R295, R316, R405). -/
def enterReady (i : Image) (L : Lane) : Lane :=
  let s := loadedSections i L.id
  let L := L.onStart (fun x => { x with phase := .running, image := { i with sec := s }, coresReleased := true })
  let L := (L.loadFields (imageFields i s)).restore
  let t := L.nowTick
  let L := { L with engine := L.engine.map (fun (e : EngineSt) => { e with psTick := t }) }
  let L := (((L.setSvc 2).wrBit Reg.SYS_STATE_PEERS L.id.code true).restart .gather).restart .ready
  let L := { L with core := L.core.map (fun (c : CoreSt) => { c with run := CoreRun.running }) }
  let L := L.onGuard (fun g => { g with running := true, answered := false })
  let L := L.when (decide (L.rd Reg.UP_STATE_STATE = 6)) (restart .trial)
  let L := L.when (L.time.nb.toList.all (fun n => !n.agree)) (fun L =>
    (L.each (List.range 4) (fun p => set1 (Reg.DE_STATUS_UNLOCK p))).restart .unlock)
  let L := L.each (List.finRange 2) (fun c L => (L.szListen c).onSlaz c (fun z => { z with sinceInc := L.el }))
  let L := L.each (List.finRange 2) (fun n L =>
    L.when (L.is (Reg.QE_SENT_STAT_TMO n.val)) (fun L => (L.fire (139 + n.val)).restart (.sentFrame n)))
  (((L.restart .pdelay).isoStart).when (L.is Reg.SE_DBG_OPEN) tokenBar).svApplyAll

/-- A software COMMIT (R39, R40). -/
def softCommit (L : Lane) : Lane :=
  if !L.firmware then L
  else if L.is Reg.SYS_RET_STATUS_BUSY then L.set1 Reg.SYS_RET_STATUS_OVERRUN
  else L.commitStart false

/-- A commit ends: its slot holds the snapshot, passes from now on and is the newer one; a held commit starts in the same cycle (R39,
R40); a failed one sets source 450 (R359). -/
def commitDone (ok : Bool) (L : Lane) : Lane :=
  match L.ret.inFlight with
  | none => L
  | some (t, seq, p) =>
    let L := ((L.clr Reg.SYS_RET_STATUS_BUSY).wearLines (65536 * t.val) 64).onRet (fun r => { r with inFlight := none })
    let L := if ok then (L.slotWrite t seq p).onRet (fun r => { r with newer := some t }) else L.fire 450
    if L.ret.held then (L.onRet (fun r => { r with held := false })).commitStart true else L

/-- The active bank holds what an update built there, or what the part was delivered with, which the command that reads it first carries
(R510, log entry 13). -/
def placeBank (bytes : List Byte) (L : Lane) : Lane :=
  let b := L.activeBank
  if vget L.update.built b then L
  else
    { L with store := Tab.graft 0 L.store (bankBase b) (bytes.take 0x10000000),
             update := { L.update with built := vupd L.update.built b (fun _ => true),
                                       manifests := vupd L.update.manifests b (fun _ => some (manifestOf bytes L.slotKey)) } }
/-- A part of the active bank matches the manifest (R32, R513). -/
def partMatches (m : Manifest) (type inst : Nat) (L : Lane) : Bool :=
  match partAt m L.id type inst with
  | some x => decide (ofLe (shake 32 (Tab.run 0 L.store (bankBase L.activeBank + x.2) x.1.outLen)) = x.1.outDigest)
  | none => false
/-- What the security core finds in BOOT (R32): the manifest's signature verifies with a valid key; then its own firmware, lane firmware,
the drive-engine programs and the network firmware of the active bank match it. -/
def setVerified (m : Manifest) (L : Lane) : Bool :=
  decide (m.keySlot < 4) && L.keyValid (Fin.ofNat 6 m.keySlot) && m.sigOk &&
    [(3, 0), (1, 0), (2, 0), (2, 1), (2, 2), (2, 3), (4, 0)].all (fun p => L.partMatches m p.1 p.2)
/-- The structure-image part of the active bank: its first byte in the STORE window and its OUT_LEN (R66, R510, R513). -/
def imagePart (L : Lane) : Option (Nat × Nat) :=
  (vget L.update.manifests L.activeBank).bind (fun m =>
    (partAt m L.id 5 0).map (fun x => (bankBase L.activeBank + x.2, x.1.outLen)))
/-- The structure image that the lane reads from the active bank (R59). -/
def readImage (L : Lane) : Image :=
  match L.imagePart with
  | some (at', n) => ImageBytes.image (Tab.run 0 L.store at' n) L.id n L.slotKey
  | none => ImageBytes.image [] L.id 0 L.slotKey
/-- What the checks of R66 find in that image: the check that fails, or 0, and its entry and offset (R84). -/
def imageFound (L : Lane) : Nat × Nat × Nat :=
  let img := L.readImage
  imageVerdict L.stepping (decide (img.header.keySlot < 4) && L.keyValid (Fin.ofNat 6 img.header.keySlot)) L.id img

/-- Lock the lane feature set (R43); the gPTP port begins to run where TIME_AS is accepted and used (R409, R414). -/
def featLock (L : Lane) : Lane :=
  if !L.firmware || L.is Reg.SYS_FEAT_CTRL_LOCK then L
  else if nbit (L.rd (Reg.SYS_FEAT_ACCEPT 0)) 0 then
    let off := L.rd (Reg.SYS_FEAT_OFFER 0)
    let v := Nat.land (Nat.land (L.rd (Reg.SYS_FEAT_ACCEPT 0)) off) 0x7F
    let L := ((((L.wr (Reg.SYS_FEAT_ACCEPT 0) v).clr (Reg.SYS_FEAT_ACCEPT 1)).clr (Reg.SYS_FEAT_ACCEPT 2)).clr
      (Reg.SYS_FEAT_ACCEPT 3)).set1 Reg.SYS_FEAT_CTRL_LOCK
    L.when (nbit v 6 && decide (L.img.time.asEnable = 1)) (wr Reg.TS_STAT_DISC 1)
  else L.set1 Reg.SYS_FEAT_CTRL_REFUSED

end Lane

/-! ### The commands -/

/-- LANE_POWER_ON_RESET: the 0.8 V rail rises past its power-on-reset level and the lane starts from BOOT (R30,
R31, R589). -/
def execLanePowerOnReset (l : LaneId) (recoveryLow : Bool) (s : State) : Host.Outcome State Fault Refusal :=
  onLane l (Lane.startLane recoveryLow) s

/-- ROM_SELF_CHECK_DONE: a failure halts the lane in BOOT; a held RECOVERY ball leads to RECOVERY; else the
signature checks follow (R30). -/
def execRomSelfCheckDone (l : LaneId) (pass : Bool) (s : State) : Host.Outcome State Fault Refusal :=
  onLane l (fun L => L.when (decide (L.start.phase = .romCheck)) (fun L =>
    if !pass then L.startFails (fun L =>
      { L with core := L.core.map (fun (c : CoreSt) => { c with run := CoreRun.reset }), start := { L.start with phase := .halted } })
    else if L.start.recoveryBall then L.enterRecovery 0
    else L.onStart (fun x => { x with phase := .signatures }))) s

/-- SIGNATURE_CHECK_DONE: the lane enters SOLSTICE, with its cores held, or RECOVERY with CAUSE 2; in RETIRED every check fails (R30,
R32, R492, R535); a failed unwrap of the identity key sets ALARM (R487). `bank` is what the active bank was delivered with, read where no
update has built it. -/
def execSignatureCheckDone (l : LaneId) (bank : List Byte) (unwrapOk : Bool) (s : State) : Host.Outcome State Fault Refusal :=
  onLane l (fun L => L.when (decide (L.start.phase = .signatures)) (fun L =>
    let L := L.placeBank bank
    let L := if L.sec.idDone then
        (if unwrapOk then L.onSec (fun x => { x with idUsable := true })
         else (L.set1 Reg.SE_STATUS_ALARM).fireLevel 453) else L
    if (vget L.update.manifests L.activeBank).any L.setVerified && decide (L.lifecycle ≠ 3) then
      ({ L.setSvc 1 with core := L.core.map (fun (c : CoreSt) => { c with run := CoreRun.reset }) }).onStart
        (fun x => { x with phase := .solstice })
    else L.startFails (Lane.enterRecovery 2))) s

/-! ### Repairs and the analogue checks of step 4 (R536, R539, R540) -/

/-- The bank of an array whose spare rows serve a row, and how many it has: one MiB of SRAM, the L2 cache, one L1 cache, one memory of an
engine (R539); nothing for a row that the array does not have. The eight L1 caches and the eight memories stand one after the other in
the row numbers (log entry 46). -/
def spareBank (array row : Nat) : Option (Nat × Nat) :=
  match array with
  | 0 => if row < 8192 then some (row / 1024, 8) else none
  | 1 => if row < 2048 then some (0, 16) else none
  | 2 => if row < 1024 then some (row / 128, 1) else none
  | 3 => if row < 1024 then some (row / 128, 2) else none
  | _ => none
/-- A fuse entry with its valid bit holds a row (R541, R598). -/
def TestSt.fused (t : TestSt) (array row : Nat) : Bool :=
  t.fuses.any (fun e => e.valid && decide (e.array = array) && decide (e.row = row))
/-- The spare rows of a bank that are in use or have failed: one for every row repaired, fused or soft, and the failed ones. -/
def TestSt.sparesUsed (t : TestSt) (array bank : Nat) : Nat :=
  let here (a r : Nat) : Bool := decide (a = array) && decide ((spareBank a r).map (·.1) = some bank)
  let fused := ((t.fuses.filter (fun e => e.valid && here e.array e.row)).map (·.row)).eraseDups
  fused.length + (t.soft.filter (fun x => here x.1 x.2 && !fused.contains x.2)).length +
    (t.badSpares.filter (fun x => decide (x = (array, bank)))).length
/-- A spare row of the array is free for a row (R540, R541). -/
def TestSt.spareFree (t : TestSt) (array row : Nat) : Bool :=
  match spareBank array row with
  | some (bank, n) => decide (t.sparesUsed array bank < n)
  | none => false
/-- One failing row of the march: the spare rows that fail in its place, a fuse entry's own among them, then a soft repair; whether it
finds none free (R540, R541). -/
def TestSt.marchRow (t : TestSt) (x : MarchRow) : TestSt × Bool :=
  match spareBank x.array x.row with
  | none => (t, true)
  | some (bank, n) =>
    let fused := t.fused x.array x.row
    let bad := x.badSpares + b2n fused
    let t' := { t with badSpares := t.badSpares ++ List.replicate bad (x.array, bank) }
    let used := t'.sparesUsed x.array bank
    if used + (if fused then 0 else 1) ≤ n then ({ t' with soft := t.soft ++ [(x.array, x.row)] }, false) else (t', true)
/-- The repairs of a march from its start, and whether a failing row found no free spare row (R538, R540). -/
def TestSt.march (t : TestSt) (xs : List MarchRow) : TestSt × Bool :=
  xs.foldl (fun r x => ((r.1.marchRow x).1, r.2 || (r.1.marchRow x).2)) ({ t with soft := [], badSpares := [] }, false)
/-- `x` lies within `tol` hundredths of `ref` (both in units of the same size). -/
def withinPct (tol : Nat) (x ref : Int) : Bool := decide ((x - ref).natAbs * 100 ≤ tol * ref.natAbs)
/-- ANAFAIL: the checks of step 4 outside their limits (R536, R554). -/
def analogFails (r : AnalogReadings) : Nat :=
  let ports : List (Fin 3) := List.finRange 3
  let ref (p : Fin 3) : Int := vget r.path p - vget r.zero p
  let path := ports.all (fun p => withinPct 3 (10 * ref p) (8192 * 256))
  let zero := ports.all (fun p => decide ((vget r.zero p).natAbs ≤ 32 * 256) &&
    withinPct 1 (vget r.refP p - vget r.refN p) (2 * ref p))
  let adc := withinPct 3 (3 * Int.ofNat (vget r.adc 0)) 10240 && withinPct 1 (3 * Int.ofNat (vget r.adc 1)) 5120 && decide (vget r.adc 2 ≤ 8)
  let near (x : Nat) (y : Int) : Bool := decide ((Int.ofNat x - y).natAbs * 100 ≤ 2 * 65536)
  let dac := r.dac.toList.all (fun x => near x.1 16384 && near x.2 49152)
  b2n (!path) + 2 * b2n (!zero) + 4 * b2n (!adc) + 8 * b2n (!dac)

namespace Lane

/-- Step 4 of the Solstice test: its results, and source 231 for a comparator that fails; step 4 fails on any of them (R298, R536,
R537, R554). -/
def analogTest (r : AnalogReadings) (res0 res1 : Word) (L : Lane) : Lane :=
  let d := nbits res0.toNat 0 24
  let b := nbits res1.toNat 0 13
  let L := L.loadFields [(Reg.BT_SOL_STAT_ANAFAIL, analogFails r), (Reg.GD_TEST_RES_0_DSAT, nbits d 0 18), (Reg.GD_TEST_RES_0_FOC, nbits d 18 3),
    (Reg.GD_TEST_RES_0_VGDUV, nbits d 21 3), (Reg.GD_TEST_RES_1_BSTUV, nbits b 0 9), (Reg.GD_TEST_RES_1_OV, nbits b 9 3),
    (Reg.GD_TEST_RES_1_BCI, nbits b 12 1)]
  (L.wrBit Reg.BT_SOL_STAT_FAIL 3 (decide (d + b + analogFails r ≠ 0))).when (decide (d + b ≠ 0)) (fire 231)
/-- Steps 1 to 3 of the Solstice test: the repairs of the march and the reports (R535, R538, R540, R554 to R558). -/
def solsticeSteps (r : SolsticeResult) (L : Lane) : Lane :=
  let m := L.test.march r.march
  let L := L.onTest (fun _ => m.1)
  let L := L.loadFields [(Reg.BT_SOL_STAT_FAIL, b2n m.2 + 2 * b2n (!r.bistOk) + 4 * b2n (!r.storeOk)), (Reg.BT_SOL_STAT_DONE, 1),
    (Reg.BT_SOL_COV_LOGIC, max 920 r.covLogic), (Reg.BT_SOL_COV_MEM, 1000), (Reg.BT_REP_SOFT, min 255 m.1.soft.length),
    (Reg.BT_REP_FUSED, m.1.fuses.length), (Reg.BT_REP_EXHAUSTED, b2n m.2)]
  let L := match m.1.soft.getLast? with
    | some x => (L.wr Reg.BT_REP_ADDR_ARRAY x.1).wr Reg.BT_REP_ADDR_ROW x.2
    | none => L
  L.each (List.finRange 4) (fun k L => L.wr (Reg.BT_SOL_TIME k.val) (vget r.times k))

end Lane

/-- SOLSTICE_TEST_DONE: a pass leads to image verification with every tested memory 0; a first failure repeats the
test; a second one leads to WINTER with CAUSE 3; a comparator failure sets source 231 (R30, R535 to R540, R554). -/
def execSolsticeTestDone (l : LaneId) (r : SolsticeResult) (s : State) : Host.Outcome State Fault Refusal :=
  onLane l (fun L => L.when (decide (L.start.phase = .solstice)) (fun L =>
    let L := (L.solsticeSteps r).analogTest r.analog r.res0 r.res1
    if L.rd Reg.BT_SOL_STAT_FAIL = 0 then
      { L with sram := [], engine := L.engine.map (fun (e : EngineSt) => { e with im := [], dm := [] }),
               start := { L.start with phase := .image } }
    else if L.is Reg.SYS_STATE_SOLRETRY then
      L.startFails (fun L =>
        (((L.setSvc 6).wr Reg.SYS_STATE_CAUSE 3).onStart (fun x => { x with phase := .stuck })).forced 6)
    else L.set1 Reg.SYS_STATE_SOLRETRY)) s

/-- IMAGE_VERIFICATION_DONE: the checks of R66 in order on the image in the active bank; on success the lane enters READY, else
RECOVERY with CAUSE 4 or 5 (R30, R59, R61, R66, R84). -/
def execImageVerificationDone (l : LaneId) (s : State) : Host.Outcome State Fault Refusal :=
  onLane l (fun L => L.when (decide (L.start.phase = .image)) (fun L =>
    let v := L.imageFound
    let img := L.readImage
    let L := ((L.wr Reg.SYS_IMG_STATUS_CHECK v.1).wr Reg.SYS_IMG_STATUS_ENTRY v.2.1).wr Reg.SYS_IMG_STATUS_OFFSET v.2.2
    if v.1 = 0 then L.enterReady img else L.startFails (Lane.enterRecovery (if v.1 ≤ 3 then 4 else 5)))) s

/-- SYS_RET_COMMIT: a software commit (R39). -/
def execSysRetCommit (l : LaneId) (s : State) : Host.Outcome State Fault Refusal := onLane l Lane.softCommit s

/-- AUTUMN_COMMIT_TIMER: every 10 s while any function is in Autumn (R40). -/
def execAutumnCommitTimer (l : LaneId) (dt : Nat) (s : State) : Host.Outcome State Fault Refusal :=
  onLane l (fun L =>
    let L := L.pass dt
    if Func.all.any (fun f => decide (L.mode f = 1)) then
      L.when (L.due .autumnCommit 10000000000) (fun L => L.autoCommit.restart .autumnCommit)
    else L.stop .autumnCommit) s

end Sys2Proof.Machine
end

