-- ==== Sys2Proof/Machine/Arming.lean ====
section
/-! DEFINITION. Contactors, the gate-enable chain and arming as every block of the lane uses them (R34, R44, R52, R53,
R88, R105, R300 to R321, R596). -/

namespace Sys2Proof.Machine

/-- The share of a lane in a sum of SHARE values, in units of 1/49,152 (R105). -/
def shareOf (own sum : Nat) : Nat := if sum = 0 then 0 else own * 49152 / sum

namespace Lane

/-! ### Neighbours -/

/-- The last status frame of a neighbour, while it is no older than 3 ms (R98, R362). -/
def fresh (L : Lane) (s : Side) : Option StatusFrame :=
  if L.running (.status s) && !L.due (.status s) 3000000 then vget L.nb s.ix else none
/-- Both neighbours that are heard now. -/
def peers (L : Lane) : List (Side × StatusFrame) :=
  [Side.prev, .next].filterMap (fun s => (L.fresh s).map (fun f => (s, f)))
/-- The report of a function in a status frame. -/
def rep (f : StatusFrame) (g : Func) : FuncReport := vget f.funcs g.ix
/-- The code of a neighbour. -/
def sideCode (L : Lane) (s : Side) : Nat := (L.id.nb s).code

/-! ### Gate enables (R252, R311, R313) -/

/-- The port's image uses HFI and the lane has accepted it (R42, R72). -/
def hfiOn (L : Lane) (p : Port) : Bool := L.feature 3 && L.is (Reg.DE_MOT_CFG_HFIEN p.val)
/-- PARAMERR: the motor parameters of a port of a present function do not allow its gate enable (R252). -/
def paramErr (L : Lane) (p : Port) : Bool :=
  let v (f : Nat → Fld) : Option Dy := dyOf (BitVec.ofNat 32 (L.rd (f p.val)))
  let zero (f : Nat → Fld) : Bool := decide (L.rd (f p.val) = 0)
  let imaxBad := dyLe (some ⟨95 * 2047 * 30000, 0⟩)
    ((v Reg.DE_MOT_IMAX).map (dyScale (4096 * (5 * 2 ^ L.rd (Reg.CS_CFG_GAIN p.val)) * L.rd (Reg.CS_SCALE_SHUNT p.val))))
  (L.funcOfPort p).isSome &&
    (zero Reg.DE_MOT_PSI || zero Reg.DE_MOT_LD || zero Reg.DE_MOT_LQ || zero Reg.DE_MOT_IMAX ||
      decide (L.rd (Reg.CS_SCALE_SHUNT p.val) = 0) || imaxBad ||
      (L.hfiOn p &&
        dyLt ((v Reg.DE_MOT_LQ).map (dyScale 100)) ((v Reg.DE_MOT_LD).map (dyScale 115))) ||
      (L.is (Reg.DE_MOT_CFG_FWEN p.val) &&
        dyLe ((v Reg.DE_MOT_PSI).map (dyScale 9))
          ((v Reg.DE_MOT_IDMAX).bind (fun i => (v Reg.DE_MOT_LD).map (fun l => dyScale 10 (dyMul i l))))))

/-- The lane requests a port's gate enable: the port serves a function (R154), the engine runs and is sealed (R163), PHASE agrees (R181), SHUNT is not 0
(R193), POLE_PAIRS is a whole multiple of RATIO where RS_0 is selected (R230), no PARAMERR (R252), and the conditions
of R300. -/
def requests (L : Lane) (p : Port) : Bool :=
  (L.funcOfPort p).isSome && L.is (Reg.DE_CTRL_RUN p.val) && L.is (Reg.DE_STATUS_SEALED p.val) && !L.is (Reg.DE_STATUS_PHSPLIT p.val) &&
    decide (L.rd (Reg.CS_SCALE_SHUNT p.val) ≠ 0) &&
    (!nbit (vget L.img.sense p).srcMask 2 ||
      decide ((vget L.img.sense p).polePairs % max 1 (L.rd Reg.QE_RS_CFG_RATIO) = 0)) &&
    !L.paramErr p &&
    decide (L.rd (Reg.GD_PORT_FOC p.val) ≠ 0) && L.bitOf Reg.GD_STAT_VGDOK p.val && !L.is Reg.GD_STAT_PROT &&
    !L.bitOf Reg.GD_STAT_ASC p.val && !vget L.gate.excluded p &&
    !(L.gate.testRun && !L.bitOf Reg.GD_TEST_SKIP p.val) && !decide (L.gate.zdiag = some p.val)

/-- The request line of a port toggles within its band: the lane requests, and the line has not failed (R311, R340). -/
def lineRuns (L : Lane) (p : Port) : Bool := L.requests p && !vget L.guardSt.lineLost p
/-- The guard grants what is requested: in RUN, without KFAULT or SLOSS, and not a port whose enable was removed
(R311, R313, R314). A grant ends a port turn-off and starts a fresh catch (R286, R266). A grant whose line stops ends in a port turn-off
(R311). -/
def grants (L : Lane) : Lane :=
  L.each (List.finRange 3) (fun p L =>
    if L.bitOf Reg.GD_STAT_EN p.val && !L.lineRuns p then L.portTurnOff p
    else if L.lineRuns p && decide (L.gstate = 2) && !L.is Reg.LG_STATUS_KFAULT && !L.is Reg.LG_STATUS_SLOSS &&
        !vget L.gate.barred p && !L.bitOf Reg.GD_STAT_EN p.val then
      ((((L.wrBit Reg.GD_STAT_EN p.val true).wrBit Reg.LG_PORT_GRANT p.val true).onGate
        (fun g => { g with portOff := vupd g.portOff p (fun _ => false) })).each (portSwitches p) switchFree).restart (.switched p)
        |>.gateFollowAll
    else L)

/-- Every grant is withheld: the granted ports turn off (R314). -/
def withholdAll (L : Lane) : Lane :=
  let on := (List.finRange 3).filter (fun p => L.bitOf Reg.GD_STAT_EN p.val)
  (L.each on portOffSwitches).restart .gatesOff

/-! ### Shares (R105, R596) -/

/-- A lane holds one of the three roles of a function as this lane's ROLE block has it (R117). -/
def holdsRole (L : Lane) (f : Func) (l : LaneId) : Bool :=
  decide (L.rd (Reg.ROLE_FUNC_ACT f.code) = l.code) || decide (L.rd (Reg.ROLE_FUNC_STB f.code) = l.code) ||
    decide (L.rd (Reg.ROLE_FUNC_ARB f.code) = l.code)
/-- The lanes whose SHARE counts in the sum of a function: those that serve it (R105, log entry 47); a joining lane from its join
notice on (R596). -/
def shareLanes (L : Lane) (f : Func) : List LaneId :=
  [LaneId.a, .b, .c].filter (fun l =>
    if l = L.id then L.serves f && (!L.start.joined || decide (L.role f ≠ 0) || (L.fn f).joinSent)
    else (L.servingSet f).contains l ||
      (vget (L.fn f).joinSeen (Fin.ofNat 3 l.code) && !vget (L.fn f).gone (Fin.ofNat 3 l.code)))
/-- The share that the lane applies now or at its next period start (R105). -/
def shareNow (L : Lane) (f : Func) : Nat :=
  let v (l : LaneId) : Nat := vget (L.frec f).share (Fin.ofNat 3 l.code)
  if (L.shareLanes f).contains L.id then
    shareOf (v L.id) ((L.shareLanes f).foldl (fun n l => n + v l) 0)
  else 0
/-- The engines whose intake takes the references of a function: its port's engine and, for solenoid drivers, DE_3
(R176, R187). -/
def intakesOf (L : Lane) (f : Func) : List Engine :=
  (match L.portOf f with
   | some p => [p.castSucc]
   | none => []) ++ (if L.svsOf f = [] then [] else [3])
/-- The carrier period of an engine in ns, rounded up (R167). -/
def carrierNs (L : Lane) (n : Engine) : Nat :=
  let q := max 1 (L.rd (Reg.DE_PWM_INFO_FREQ n.val))
  (10000000 + q - 1) / q
/-- A new share is applied at the first period start that begins at least `wait` ns from now (R105, R596). -/
def reshareAt (f : Func) (wait : Engine → Nat) (L : Lane) : Lane :=
  let v := L.shareNow f
  L.each (L.intakesOf f) (fun n => onDe n (fun e =>
    { e with intake := vupd e.intake f.ix (fun i => { i with nextShare := some (v, L.el + wait n) }) }))
/-- As reshareAt with the same wait at every engine. -/
def reshare (f : Func) (wait : Nat) (L : Lane) : Lane := L.reshareAt f (fun _ => wait)
/-- A joining lane has sent its notice: its own share follows T + 7 µs later (R596). -/
def joinNotice (f : Func) (L : Lane) : Lane :=
  let L := L.onFn f (fun x => { x with joinSent := true })
  L.reshareAt f (fun n => L.carrierNs n + 7000)

/-! ### Arming (R34, R44, R49, R52, R53) -/

/-- The digests of the lanes in READY or later leave this lane without the majority (R34). -/
def digestMinority (L : Lane) : Bool :=
  let same := (L.peers.filter (fun p => decide (p.2.digest = L.start.image.digest))).length
  decide (L.peers ≠ []) && decide (2 * (1 + same) ≤ 1 + L.peers.length)
/-- R34 names CAUSE 6 for the third lane whose digest two others do not hold. -/
def digestThird (L : Lane) : Bool :=
  match L.peers with
  | [a, b] => decide (a.2.digest = b.2.digest) && decide (a.2.digest ≠ L.start.image.digest)
  | _ => false
/-- A neighbour's locked lane set differs (R44). -/
def setsDiffer (L : Lane) : Bool := L.peers.any (fun p => p.2.featLocked && decide (p.2.featSet ≠ L.featSet))
/-- The image uses a lane feature that is not accepted (R44). -/
def needsUnaccepted (L : Lane) : Bool :=
  decide (Nat.land L.start.image.header.featReq L.featSet ≠ L.start.image.header.featReq)
/-- PERIOD or MISS of a present function differs from a neighbour's (R44, R120). -/
def periodsDiffer (L : Lane) : Bool :=
  L.peers.any (fun p => L.functions.any (fun f =>
    decide ((rep p.2 f).period ≠ L.rd (Reg.ROLE_REFWD_PERIOD f.code)) ||
      decide ((rep p.2 f).miss ≠ L.rd (Reg.ROLE_REFWD_MISS f.code))))
/-- Why the lane does not arm: none, or the CAUSE (0 where the rule names none) (R34, R44, R525). -/
def armBar (L : Lane) : Option Nat :=
  if L.digestMinority then some (if L.digestThird then 6 else 0)
  else if !L.is Reg.SYS_FEAT_CTRL_LOCK then some 0
  else if L.setsDiffer then some 7
  else if L.needsUnaccepted then some 8
  else if L.periodsDiffer then some 14
  else if L.rd Reg.UP_STATE_STATE = 6 then some 0
  else none
/-- A lane in READY shows why it cannot arm. -/
def showBar (L : Lane) : Lane :=
  if L.svc = 2 ∧ L.rd Reg.SYS_ARM_STEP = 0 then
    match L.armBar with
    | some (c + 1) => L.wr Reg.SYS_STATE_CAUSE (c + 1)
    | _ => L
  else L
/-- The physical conditions of arming (R52, R278). -/
def armConditions (L : Lane) : Bool :=
  decide (16 ≤ L.rd Reg.LG_WD_STAT_CONSEC) && !L.fatalSticky && decide (L.rd Reg.GD_STAT_VGDOK = 7) &&
    decide (L.rd Reg.GD_TRIP_0_VGDUV = 0) && decide (L.rd Reg.GD_TRIP_1_BSTUV = 0) && !L.is Reg.LG_CONT_KMBAD &&
    !L.is Reg.LG_CONT_KPBAD
/-- The lane may begin arming (R52). -/
def mayArm (L : Lane) : Bool :=
  decide (L.svc = 2) && L.is Reg.SYS_STATE_ELECTED && decide (L.rd Reg.SYS_ARM_STEP = 0) && L.armConditions &&
    decide (L.armBar = none) && decide (L.gstate = 0) && L.guardSt.powered
/-- Arming begins at STEP 1 (R52, R53). -/
def armBegin (L : Lane) : Lane :=
  ((L.clr Reg.SYS_STATE_CAUSE).wr Reg.SYS_ARM_STEP 1).restart .precharge
/-- Arming ends without completing: KM and KP open, the guard in HOLD, the lane in READY (R53, R314). -/
def armEnd (cause : Nat) (L : Lane) : Lane :=
  (((((L.wr Reg.SYS_ARM_STEP 0).wr Reg.SYS_STATE_CAUSE cause).wr Reg.LG_STATUS_GSTATE 0).driveKm false).driveKp false
    |>.restart .armRetry).stop .gateEnable

/-- Registers whose lock the lane sets itself on entering ARMED (R124, R150, R179, R248, R271, R301, R342, R453,
R454). -/
def armedLocks : List Fld :=
  [Reg.ROLE_CTRL_LOCK, Reg.CM_CTRL_LOCK, Reg.QE_CTRL_LOCK, Reg.CS_CTRL_LOCK, Reg.GD_CFG_LOCK, Reg.LG_CTRL_LOCK,
   Reg.HQ_CTRL_LOCK, Reg.IB_CTRL_LOCK] ++ (List.range 4).map Reg.DE_CTRL_LOCK ++ (List.range 3).map Reg.DE_MOT_CTRL_LOCK

/-- The lane enters ARMED: it locks its unlocked registers, serves its functions and takes its shares; a joining
lane sends its notices for the functions without a bridge port (R53, R88, R405, R596). -/
def enterArmed (L : Lane) : Lane :=
  let L := ((L.setSvc 3).wr Reg.SYS_ARM_STEP 0).stop .gateEnable
  let L := armedLocks.foldl (fun L f => L.set1 f) L
  let L := L.each L.functions (fun f L =>
    let L := (L.onFn f (fun x => { x with served := true })).wrBit (Reg.ROLE_FUNC_SERVING f.code) L.id.code true
    if L.start.joined then L.when (decide (L.portOf f = none)) (joinNotice f) else L.reshare f 0)
  let L := { L with quad := L.quad.map (fun (q : QuadSt) => { q with armedIdx := true }) }
  let L := L.when (!(vget L.time.nb 0).agree && !(vget L.time.nb 1).agree) (fireLevel 384)
  L.svApplyAll.grants

/-- The guard enables the gate-enable chain at STEP 4 when both contactors agree, CONSEC is at least 16 and MISS1 is 0
(R314). -/
def tryChain (L : Lane) : Lane :=
  if L.rd Reg.SYS_ARM_STEP = 4 ∧ L.gstate = 1 ∧ L.kmAgrees ∧ L.kpAgrees ∧ 16 ≤ L.rd Reg.LG_WD_STAT_CONSEC ∧
      L.rd Reg.LG_WD_STAT_MISS1 = 0 then (L.wr Reg.LG_STATUS_GSTATE 2).enterArmed
  else L
/-- STEP 3 ends when KP agrees. -/
def tryStep4 (L : Lane) : Lane :=
  if L.rd Reg.SYS_ARM_STEP = 3 ∧ L.kpAgrees then ((L.wr Reg.SYS_ARM_STEP 4).restart .gateEnable).tryChain else L.tryChain
/-- STEP 2 ends when KM agrees; KP is driven closed (R53). -/
def tryStep3 (L : Lane) : Lane :=
  if L.rd Reg.SYS_ARM_STEP = 2 ∧ L.kmAgrees then ((L.wr Reg.SYS_ARM_STEP 3).driveKp true).tryStep4 else L.tryStep4
/-- Arming goes on as far as its steps have ended (R53). -/
def armAdvance (L : Lane) : Lane := if L.svc = 2 then L.tryStep3 else L

end Lane

end Sys2Proof.Machine
end

