-- ==== Sys2Proof/Machine/Vote.lean ====
section
/-! DEFINITION. The vote between the guards and what a removal does (R90 to R97, R101 to R109, R601): rows
VOTE_FRAME_TX to TWO_LANE_DISAGREEMENT_TIMEOUT. -/

namespace Sys2Proof.Machine

/-- One more frame with a field's value: the run grows while the value stays the same, and counts from three on
(R91). -/
def Counted.next (c : Counted) (v : Nat) : Counted :=
  let run := if c.run ≠ 0 ∧ c.cand = v then min 3 (c.run + 1) else 1
  ⟨v, run, if run = 3 then v else c.value⟩
/-- A frame that is not valid ends the run (R91). -/
def Counted.broken (c : Counted) : Counted := { c with run := 0 }

/-- The code by which a lane accuses a neighbour (R90). -/
def accuseCode : Side → Nat | .next => 1 | .prev => 2
/-- The lane that a code of lane `l` accuses (R90). -/
def accused (l : LaneId) : Nat → Option LaneId
  | 1 => some (l.nb .next)
  | 2 => some (l.nb .prev)
  | _ => none

/-- The hardware accusation raised first; of two raised in the same cycle, that of the next lane (R92). -/
def firstRaised (e : Side × Nat) (t : List (Side × Nat)) : Side :=
  (t.foldl (fun b x => if x.2 < b.2 ∨ (x.2 = b.2 ∧ x.1 = .next) then x else b) e).1

namespace Lane

/-! ### Codes (R92) -/

/-- The code that the guard sends for a function (R92). -/
def codeToSend (L : Lane) (f : Func) : Nat :=
  let soft := nbits (L.rd Reg.ROLE_ACCUSE_CODE) (2 * f.code) 2
  let hw := vget L.vote.hardware f.ix
  if vget L.vote.withdraw f.ix || decide (soft = 3) || decide (L.gstate = 3) then 3
  else
    match hw.find? (fun e => decide (L.sideCode e.1 = L.rd (Reg.ROLE_FUNC_ACT f.code))), hw with
    | some e, _ => accuseCode e.1
    | none, e :: t => accuseCode (firstRaised e t)
    | none, [] => soft
/-- The counted code of a lane for a function; 0 while its input is lost (R91, R93). -/
def codeIn (L : Lane) (l : LaneId) (f : Func) : Nat :=
  if l = L.id then (vget L.vote.ownCodes f.ix).value
  else
    let v := vget L.vote.inp (if L.id.nb .prev = l then 0 else 1)
    if v.lost then 0 else (vget v.codes f.ix).value
/-- The counted ROTATE bit of a lane (R91). -/
def rotateIn (L : Lane) (l : LaneId) (f : Func) : Nat :=
  if l = L.id then (vget L.vote.ownRotate f.ix).value
  else
    let v := vget L.vote.inp (if L.id.nb .prev = l then 0 else 1)
    if v.lost then 0 else (vget v.rotate f.ix).value
/-- The vote input from a lane is lost. -/
def inputLost (L : Lane) (l : LaneId) : Bool :=
  decide (l ≠ L.id) && (vget L.vote.inp (if L.id.nb .prev = l then 0 else 1)).lost

/-! ### Removal (R93, R94) -/

/-- The lanes that the vote removes from a function now (R93, R97). -/
def decided (L : Lane) (f : Func) : List LaneId :=
  let ss := L.servingSet f
  let acc (by' x : LaneId) : Bool := decide (accused by' (L.codeIn by' f) = some x)
  ss.filter (fun x =>
    let others := ss.filter (fun y => decide (y ≠ x))
    decide (L.codeIn x f = 3) ||
      (decide (others.length = 2) && others.all (fun y => acc y x)) ||
      (decide (others.length = 1) && others.contains L.id && L.inputLost x))

/-- The lane's own role follows from the three role fields (R117). -/
def setOwnRole (f : Func) (L : Lane) : Lane :=
  let c := L.id.code
  let r := if L.rd (Reg.ROLE_FUNC_ACT f.code) = c then 1
    else if L.rd (Reg.ROLE_FUNC_STB f.code) = c then 2
    else if L.rd (Reg.ROLE_FUNC_ARB f.code) = c then 3 else 0
  L.wr (Reg.ROLE_FUNC_ROLE f.code) r

/-- The number of the first reference of a lane that has the active role: S + 4,096, or 1 where it has accepted no reference so far, so
that there is no S (R102, log entry 10). -/
def firstSeq (L : Lane) (f : Func) : Nat := if (L.fn f).hasSeq then (L.rd (Reg.ROLE_SEQ f.code) + 4096) % 2 ^ 32 else 1
/-- A lane takes the active role: its first reference has a number of its own (R102), a running slice is aborted (R544). -/
def becomeActive (f : Func) (L : Lane) : Lane :=
  let n := L.firstSeq f
  (L.onFn f (fun x => { x with nextSeq := some n, stopSend := none })).sliceAbort
/-- A lane gives up the active role: it sends nothing released after now, and nothing at all after 400 µs (R104). -/
def loseActive (f : Func) (L : Lane) : Lane := L.onFn f (fun x => { x with stopSend := some (L.now, L.el) })

/-- The rotation index and the history number rise by 1; the lane commits (R40, R48). -/
def rotateHistory (f : Func) (L : Lane) : Lane :=
  let h := vget L.ret.history f.ix
  let h' : History := ⟨(h.index + 1) % 3, (h.seq + 1) % 2 ^ 32⟩
  ((L.onRet (fun r => { r with history := vupd r.history f.ix (fun _ => h') })).wr (Reg.ROLE_FUNC_ROT f.code) h'.index).autoCommit

/-- A lane leaves the three role fields; the lanes below it move up (R94). -/
def reform (f : Func) (c : Nat) (L : Lane) : Lane :=
  let act := L.rd (Reg.ROLE_FUNC_ACT f.code)
  let stb := L.rd (Reg.ROLE_FUNC_STB f.code)
  let arb := L.rd (Reg.ROLE_FUNC_ARB f.code)
  if c = act then ((L.wr (Reg.ROLE_FUNC_ACT f.code) stb).wr (Reg.ROLE_FUNC_STB f.code) arb).wr (Reg.ROLE_FUNC_ARB f.code) 3
  else if c = stb then (L.wr (Reg.ROLE_FUNC_STB f.code) arb).wr (Reg.ROLE_FUNC_ARB f.code) 3
  else if c = arb then L.wr (Reg.ROLE_FUNC_ARB f.code) 3 else L

/-- One lane leaves a function: SERVING, the roles, accusations against it, and the record of a former active lane
(R94, R98, R103). -/
def leave (f : Func) (x : LaneId) (L : Lane) : Lane :=
  let wasAct := decide (L.rd (Reg.ROLE_FUNC_ACT f.code) = x.code)
  let L := (L.wrBit (Reg.ROLE_FUNC_SERVING f.code) x.code false).onFn f (fun r =>
    { r with joinSeen := vupd r.joinSeen (Fin.ofNat 3 x.code) (fun _ => false),
             gone := vupd r.gone (Fin.ofNat 3 x.code) (fun _ => decide (x ≠ L.id)) })
  let L := L.onVote (fun v => { v with hardware := vupd v.hardware f.ix (fun h => h.filter (fun e => decide (L.id.nb e.1 ≠ x))) })
  let L := L.reform f x.code
  if wasAct then
    (L.onFn f (fun r => { r with former := (x, L.el) :: r.former.filter (fun e => decide (e.1 ≠ x)) })).stop (.watchdog f)
  else L

/-- The lane itself is out of a function until its next start: the port's soft turn-off, the drivers at SAFE, the
intake reading 0 (R94, R101, R178). -/
def outOf (f : Func) (L : Lane) : Lane :=
  let wasAct := decide (L.role f = 1)
  let L := (L.onFn f (fun x => { x with served := false })).wr (Reg.ROLE_FUNC_ROLE f.code) 4
  let L := L.when wasAct (loseActive f)
  let L := L.each (L.portOf f).toList portTurnOff
  let L := L.each (L.svsOf f) svForce
  let L := L.each (L.intakesOf f) (fun n L =>
    (L.onDe n (fun e => { e with intake := vupd e.intake f.ix (fun _ => ⟨[], none, false, false, false, 0, none⟩) })).stop (.hold n f))
  L.settleSvc

/-- What the evidence of R115 says of a removal: the class S or K that the removed lane reports, else 0. -/
def classOf (L : Lane) (f : Func) (x : LaneId) : Nat :=
  if x = L.id then (L.fn f).supplyCause
  else
    match vget L.nb (if L.id.nb .prev = x then 0 else 1) with
    | some s => (rep s f).supplyCause
    | none => 0

/-- Lanes are removed from a function: the active lane last, so that one decision is one switch-over (R94). -/
def remove (f : Func) (xs : List LaneId) (L : Lane) : Lane :=
  if xs = [] then L
  else
    let act := L.rd (Reg.ROLE_FUNC_ACT f.code)
    let order := xs.filter (fun x => decide (x.code ≠ act)) ++ xs.filter (fun x => decide (x.code = act))
    let wasActive := decide (L.role f = 1)
    let cls := order.foldl (fun c x => if L.classOf f x ≠ 0 then L.classOf f x else c) 0
    let switched := xs.any (fun x => decide (x.code = act))
    let L := L.each order (leave f)
    if xs.contains L.id then L.outOf f
    else if !L.serves f then L
    else
      let L := L.when (decide (L.role f ≠ 0)) (setOwnRole f)
      let L := L.when (switched && decide (L.role f = 1) && !wasActive) (becomeActive f)
      let L := L.when switched (rotateHistory f)
      let L := L.reshare f 5000
      if (L.servingSet f).length ≤ 1 then L.winter f (if cls = 0 then 1 else cls)
      else L.autumn f (if cls = 0 then 1 else cls)

/-! ### Evaluation -/

/-- The lane that the lane's own accusation stands alone against, in a function with three serving lanes (R96). -/
def minority (L : Lane) (f : Func) : Option LaneId :=
  let ss := L.servingSet f
  if ss.length = 3 ∧ L.serves f then
    (accused L.id (L.codeIn L.id f)).filter (fun x =>
      ss.all (fun y => decide (y = L.id) || decide (y = x) || decide (accused y (L.codeIn y f) ≠ some x)))
  else none
/-- The 20 ms of R96 run for one accused lane. -/
def watchMinority (f : Func) (L : Lane) : Lane :=
  match L.minority f with
  | some x =>
    if (L.fn f).minor = some x then L.start1 (.minority f) else (L.onFn f (fun y => { y with minor := some x })).restart (.minority f)
  | none => (L.onFn f (fun y => { y with minor := none })).stop (.minority f)
/-- Whether two serving lanes disagree without a decision (R97). -/
def disagrees (L : Lane) (f : Func) : Bool :=
  match (L.servingSet f).filter (fun y => decide (y ≠ L.id)), L.serves f with
  | [x], true =>
    !L.inputLost x && decide (L.codeIn x f ≠ 3) && decide (L.codeIn L.id f ≠ 3) &&
      (decide (accused L.id (L.codeIn L.id f) = some x) || decide (accused x (L.codeIn x f) = some L.id))
  | _, _ => false
/-- The guards commit an Equinox swap when all three ROTATE bits have counted (R108). -/
def rotateCommit (f : Func) (L : Lane) : Lane :=
  if (L.fn f).commit = none ∧ [LaneId.a, .b, .c].all (fun l => decide (L.rotateIn l f = 1)) then
    (L.onFn f (fun x => { x with commit := some L.el })).wrBit Reg.ROLE_ACCUSE_ROTATE f.code false
  else L
/-- The vote for one function (R93 to R97, R108). -/
def evalFn (f : Func) (L : Lane) : Lane :=
  let L := L.remove f (L.decided f)
  let L := L.rotateCommit f
  let L := L.watchMinority f
  if L.disagrees f then L.start1 (.disagree f) else L.stop (.disagree f)
/-- The vote for every function of the lane. -/
def evaluate (L : Lane) : Lane := L.each L.functions evalFn

/-! ### Frames (R90, R91) -/

/-- The vote frame that the guard sends now. -/
def voteFrame (L : Lane) : Nat :=
  let code := Func.all.foldl (fun v f => v + L.codeToSend f * 2 ^ (18 + 2 * f.code)) 0
  let rot := Func.all.foldl (fun v f => v + (b2n (L.bitOf Reg.ROLE_ACCUSE_ROTATE f.code)) * 2 ^ (13 + f.code)) 0
  let hi := 0xB * 2 ^ 28 + code + rot + L.vote.count % 8 * 2 ^ 10 + L.id.code * 2 ^ 8
  hi + voteCrc (hi / 256)
/-- The guard sends a vote frame and counts its own codes over the frames that it sends (R90, R93). -/
def voteSend (L : Lane) : Lane :=
  let v := L.voteFrame
  let L := (L.send (.vote (BitVec.ofNat 32 v))).onVote (fun x =>
    { x with
      count := (x.count + 1) % 8
      ownCodes := Vector.ofFn (fun (i : Fin 5) => (vget x.ownCodes i).next (nbits v (18 + 2 * i.val) 2))
      ownRotate := Vector.ofFn (fun (i : Fin 5) => (vget x.ownRotate i).next (nbits v (13 + i.val) 1)) })
  L.evaluate

/-- Change one vote input. -/
def onInp (s : Side) (g : VoteIn → VoteIn) (L : Lane) : Lane := L.onVote (fun v => { v with inp := vupd v.inp s.ix g })
/-- A frame that is not valid: the runs end. -/
def voteBroken (s : Side) (last : Option Nat) (L : Lane) : Lane :=
  L.onInp s (fun v => { v with last := last, codes := v.codes.map Counted.broken, rotate := v.rotate.map Counted.broken })
/-- A frame sets SPLIT or CRC and the source 321 or 322 (R119, R359). -/
def voteFlag (s : Side) (split : Bool) (L : Lane) : Lane :=
  (L.set1 (if split then Reg.ROLE_VOTE_IN_SPLIT (L.sideCode s) else Reg.ROLE_VOTE_IN_CRC (L.sideCode s))).fire (321 + s.ix.val)
/-- A valid frame: every field counts once more. -/
def voteValid (s : Side) (w : Nat) (L : Lane) : Lane :=
  (L.onInp s (fun v =>
    { lost := false, last := some (nbits w 10 3),
      codes := Vector.ofFn (fun (i : Fin 5) => (vget v.codes i).next (nbits w (18 + 2 * i.val) 2)),
      rotate := Vector.ofFn (fun (i : Fin 5) => (vget v.rotate i).next (nbits w (13 + i.val) 1)) })).restart (.voteIn s)

/-- A vote frame arrives (R91): SYNC, CRC, the complement, LANE, then COUNT. -/
def voteReceive (s : Side) (line0 line1 : Word) (L : Lane) : Lane :=
  let w := line0.toNat
  let split := decide (line1 ≠ ~~~line0)
  let crcBad := decide (voteCrc (w / 256) ≠ w % 256)
  let L := (L.when split (voteFlag s true)).when crcBad (voteFlag s false)
  if split || crcBad || decide (nbits w 28 4 ≠ 0xB) || decide (nbits w 8 2 ≠ L.sideCode s) then
    L.voteBroken s (vget L.vote.inp s.ix).last
  else
    match (vget L.vote.inp s.ix).last with
    | none => L.voteBroken s (some (nbits w 10 3))
    | some c =>
      if nbits w 10 3 = (c + 1) % 8 then L.voteValid s w
      else (L.voteFlag s false).voteBroken s none

/-- A vote input is lost: its codes and ROTATE bits read 0; both lost withdraw the lane and are class L for every
function (R91, R95, R115). -/
def voteLose (s : Side) (L : Lane) : Lane :=
  let L := ((L.onInp s (fun _ => Init.voteIn)).stop (.voteIn s)).fire (323 + s.ix.val)
  let both := (vget L.vote.inp 0).lost && (vget L.vote.inp 1).lost
  let L := L.when both (fun L => (L.withdrawAll).each (L.functions.filter L.serves) (fun f => autumn f 1))
  L.evaluate

/-- Carry out the withdrawals and accusations that stand, whenever a lane begins to serve (R88). -/
def evaluateNow (L : Lane) : Lane := L.evaluate

end Lane

/-! ### The commands -/

/-- VOTE_FRAME_TX: the guard sends its vote frame to both neighbours while its RC reference runs (R90, R325). -/
def execVoteFrameTx (l : LaneId) (s : State) : Host.Outcome State Fault Refusal :=
  onLane l (fun L => L.when (L.guardSt.powered && !L.guardSt.rcLost) Lane.voteSend) s

/-- VOTE_FRAME_RX: a vote frame arrives over the two vote lines of a link (R91, R93, R94). -/
def execVoteFrameRx (l : LaneId) (sd : Side) (line0 line1 : Word) (s : State) : Host.Outcome State Fault Refusal :=
  onLane l (fun L => L.when (L.guardSt.powered && !L.guardSt.rcLost) (fun L => (L.voteReceive sd line0 line1).evaluate)) s

/-- VOTE_INPUT_LOST: no valid frame for 50 µs (R91). -/
def execVoteInputLost (l : LaneId) (dt : Nat) (sd : Side) (s : State) : Host.Outcome State Fault Refusal :=
  onLane l (fun L =>
    let L := L.pass dt
    L.when (L.guardSt.powered && !(vget L.vote.inp sd.ix).lost && L.due (.voteIn sd) 50000) (Lane.voteLose sd)) s

/-- A write of P_1 that only P_0 may make is ignored and sets source 20 (R128). -/
def Lane.p0Only (pair : Pair) (f : Lane → Lane) (L : Lane) : Lane :=
  if !L.firmware then L else if pair = 0 then f L else L.fire 20
/-- A pair that is halted, or whose self-test runs, writes nothing (R139, R141). -/
def Lane.pairLive (L : Lane) (p : Pair) : Bool := !L.bitOf Reg.CM_STATUS_HALTED p.val && !L.bitOf Reg.CM_STATUS_SELFTEST p.val
/-- A core of a pair makes a write that only P_0 may make (R128). -/
def Lane.byPair (pair : Pair) (f : Lane → Lane) (L : Lane) : Lane := L.when (L.pairLive pair) (fun L => L.p0Only pair f)

/-- ROLE_ACCUSE_CODE_WRITE: a withdrawal once written cannot be undone by software (R92, R95, R118). -/
def execRoleAccuseCodeWrite (l : LaneId) (pair : Pair) (code : BitVec 10) (s : State) : Host.Outcome State Fault Refusal :=
  onLane l (fun L => L.byPair pair (fun L =>
    let L := L.wr Reg.ROLE_ACCUSE_CODE code.toNat
    L.each (Func.all.filter (fun f => decide (nbits code.toNat (2 * f.code) 2 = 3))) Lane.withdraw)) s

/-- ROLE_ROTATE_PROPOSE: the proposals that the next vote frame carries (R108, R118). -/
def execRoleRotatePropose (l : LaneId) (pair : Pair) (rotate : BitVec 5) (s : State) : Host.Outcome State Fault Refusal :=
  onLane l (fun L => L.byPair pair (Lane.wr Reg.ROLE_ACCUSE_ROTATE rotate.toNat)) s

/-- MINORITY_ACCUSATION_TIMEOUT: an accusation that no other lane has matched for 20 ms sets source 320 (R96). -/
def execMinorityAccusationTimeout (l : LaneId) (dt : Nat) (f : Func) (s : State) : Host.Outcome State Fault Refusal :=
  onLane l (fun L =>
    let L := L.pass dt
    L.when (L.due (.minority f) 20000000) (Lane.fire 320)) s

/-- TWO_LANE_DISAGREEMENT_TIMEOUT: Winter with cause 10 after 20 ms (R97). -/
def execTwoLaneDisagreementTimeout (l : LaneId) (dt : Nat) (f : Func) (s : State) : Host.Outcome State Fault Refusal :=
  onLane l (fun L =>
    let L := L.pass dt
    L.when (L.due (.disagree f) 20000000) (fun L => (L.winter f 10).stop (.disagree f))) s

end Sys2Proof.Machine
end

