-- ==== Sys2Proof/Machine/Roles.lean ====
section
/-! DEFINITION. References, watchdogs, Equinox bookkeeping, Autumn and Winter timers, the classes S and H, and the
arming commands (R52, R53, R98 to R115, R123, R175). -/

namespace Sys2Proof.Machine

/-- The FP32 value nearest to n / d (R160's rounding). -/
def fpRat (n d : Nat) : Word :=
  if d = 0 then 0 else fpRoundSticky false (n * 2 ^ 64 / d) (-64) (decide (n * 2 ^ 64 % d ≠ 0))

namespace Lane

/-! ### References (R102 to R104, R175, R176) -/

/-- The sender holds the active role of the function here, or held it within the last 400 µs (R103). -/
def senderOk (L : Lane) (f : Func) (x : LaneId) : Bool :=
  decide (L.rd (Reg.ROLE_FUNC_ACT f.code) = x.code) ||
    (L.fn f).former.any (fun e => decide (e.1 = x) && decide (L.el ≤ e.2 + 400000))
/-- A reference passes the tests of R103. -/
def refOk (L : Lane) (r : RefRecord) : Bool :=
  L.senderOk r.func r.lane && (!(L.fn r.func).hasSeq || newer32 r.seq (L.rd (Reg.ROLE_SEQ r.func.code))) &&
    decide (L.now ≤ L.fixStamp r.trel + 2 * L.periodNs r.func)
/-- A function in Winter takes no torque reference (R113). -/
def winterTorque (L : Lane) (f : Func) : Bool := (f == .steer || f == .feel) && decide (L.mode f = 2)

/-- The longest time for which a former active lane's references still arrived (R122). -/
def noteOverlap (r : RefRecord) (L : Lane) : Lane :=
  match (L.fn r.func).former.find? (fun e => decide (e.1 = r.lane)), decide (L.rd (Reg.ROLE_FUNC_ACT r.func.code) = r.lane.code) with
  | some e, false =>
    L.wr Reg.ROLE_OVL_LONGEST (max (L.rd Reg.ROLE_OVL_LONGEST) (min 65535 ((L.el - e.2) / 1000)))
  | _, _ => L

/-- A reference reaches the lane's intakes: accepted, or discarded and counted (R103, R176). -/
def takeRef (r : RefRecord) (L : Lane) : Lane :=
  let f := r.func
  let L := L.noteOverlap r
  let L := if L.running (.watchdog f) && decide (L.rd (Reg.ROLE_FUNC_ACT f.code) = r.lane.code) then L.restart (.watchdog f) else L
  if L.winterTorque f then L
  else if L.refOk r then
    let L := (L.wr (Reg.ROLE_SEQ f.code) r.seq).onFn f (fun x => { x with hasSeq := true })
    L.each (L.intakesOf f) (fun n => onDe n (fun e =>
      { e with intake := vupd e.intake f.ix (fun i => { i with waiting := (r, L.el) :: i.waiting }) }))
  else L.count Reg.ROLE_OVL_DROPPED 1

/-- The lane may send a reference: it is the active lane, or it lost the role less than 400 µs ago and the release lies
before that decision (R88, R104). -/
def maySend (L : Lane) (r : RefRecord) : Bool :=
  decide (L.role r.func = 1) ||
    (match (L.fn r.func).stopSend with
     | some (t, e) => decide (r.trel ≤ t) && decide (L.el < e + 400000)
     | none => false)

/-- P_0 writes a reference to LL: it is sent to both neighbours and handed to the own intake (R175), numbered consecutively from the
lane's first number on (R102, log entry 19). -/
def sendRef (r : RefRecord) (L : Lane) : Lane :=
  if L.maySend r then
    let n := (L.fn r.func).nextSeq.getD (L.firstSeq r.func)
    let r' : RefRecord := { r with lane := L.id, seq := n }
    let L := L.onFn r.func (fun x => { x with nextSeq := some ((n + 1) % 2 ^ 32) })
    (L.send (.reference r')).takeRef r'
  else L

/-! ### Watchdogs (R98, R101) -/

/-- The ROLE block accuses a lane of a function (R98). -/
def watchdogAccuse (f : Func) (s : Side) (L : Lane) : Lane :=
  ((L.accuse f s).set1 (Reg.ROLE_REFWD_FIRED f.code)).fire (325 + f.code)
/-- The side of a neighbour with a code. -/
def sideOf (L : Lane) (code : Nat) : Option Side := [Side.prev, .next].find? (fun s => decide (L.sideCode s = code))
/-- The hold limit in ns (R101). -/
def holdLimit (L : Lane) (f : Func) : Nat := max 4000000 ((L.rd (Reg.ROLE_REFWD_MISS f.code) + 3) * L.periodNs f + 500000)
/-- The watchdog time in ns (R98). -/
def watchdogNs (L : Lane) (f : Func) : Nat := (2 * L.rd (Reg.ROLE_REFWD_MISS f.code) + 1) * L.periodNs f / 2

/-! ### Classes S, K and H (R115) -/

/-- The first effect of class S or K: the lane withdraws from STEER, FEEL and BRAKE and from every function with a bridge
port; those functions enter Autumn (R95, R115). -/
def classSK (cause : Nat) (L : Lane) : Lane :=
  let fs := [Func.steer, .feel, .brake].filter L.serves
  let L := L.each fs (fun f L => (L.onFn f (fun x => { x with supplyCause := if x.supplyCause = 0 then cause else x.supplyCause })).autumn f cause)
  (L.each fs withdraw).withdrawPorts
/-- Class H (R115, R438). -/
def classH (L : Lane) : Lane :=
  let L := ((L.disengageAll .steer).disengageAll .brake).each ([Func.steer, .brake].filter L.serves) (fun f => autumn f 6)
  (L.stop (.causeClear .steer 6)).stop (.causeClear .brake 6)

/-- The host port of a kind, if one is present (R75). -/
def portOfKind (L : Lane) (k : Nat) : Option (Fin 4) :=
  (List.finRange 4).find? (fun h => L.portPresent h && decide ((L.portRec h).kind = k))
/-- The port's set holds a feature (R45). -/
def hostHas (L : Lane) (h : Fin 4) (bit : Nat) : Bool := L.hostLocked h && nbit (L.hostSet h) bit

/-- The speed-reduction request of a function in Autumn goes to the vehicle host, or to the implement host over ISOBUS
(R111, R436, R444). -/
def speedRequest (f : Func) (L : Lane) : Lane :=
  let v := (vget L.img.season f.ix).speedReq
  match L.portOfKind 0, L.roles.hostSeen && !L.roles.hostLost with
  | some h, true => L.notice h 0x81 (leBytes 4 (fpRat v 10).toNat)
  | _, _ =>
    match L.portOfKind 2 with
    | some h =>
      if L.hostHas h 9 then L.when (L.is Reg.IB_STAT_CLAIMED) (send (.isobus 0xEF00 0xFF ([0x02] ++ leBytes 2 v ++ List.replicate 5 0xFF)))
      else L.count Reg.IB_CNT_DISC 1
    | none => L

/-- BRAKE is in Winter as the lane sees it: in its own ROLE block or, where it no longer serves BRAKE, in a function that follows it (R113,
R114). -/
def winterBrake (L : Lane) : Bool :=
  (L.serves .brake && decide (L.mode .brake = 2)) ||
    (!L.serves .brake && [Func.trail, .park].any (fun f => L.serves f && decide (L.mode f = 2)))
/-- BRAKE comes to standstill in Winter: TRAIL takes SAFE, the PARK drivers go off (R113). -/
def standstill (L : Lane) : Lane :=
  let L := { L with roles := { L.roles with winter := ⟨true⟩ } }
  let L := L.each (if L.mode .trail = 2 then L.svsOf .trail else []) (fun n L => L.onSv n (fun x => { x with cmd := L.svSafe n }))
  (L.each (if L.mode .park = 2 then L.svsOf .park else []) (fun n => onSv n (fun x => { x with cmd := 0 }))).svApplyAll

end Lane

/-! ### The commands -/

/-- ARM_AUTO_START: in mode AUTO the lane begins arming at the first moment at which the conditions hold (R52). -/
def execArmAutoStart (l : LaneId) (s : State) : Host.Outcome State Fault Refusal :=
  onLane l (fun L =>
    let free := !L.running .armRetry || L.due .armRetry (L.img.start.prechargeMs * 1000000)
    let L := L.showBar
    L.when (L.firmware && decide (L.img.start.armMode = 0) && free && L.mayArm) Lane.armBegin) s

/-- The ARM trigger of mode HOST (R52, R58). -/
def Lane.armTrigger (L : Lane) : Lane :=
  if !L.firmware || L.img.start.armMode ≠ 1 then L
  else if L.mayArm then L.armBegin else L.showBar.set1 Reg.SYS_ARM_REFUSED

/-- SYS_ARM_WRITE: a write of 1 to SYS_ARM.ARM (R52, R58). -/
def execSysArmWrite (l : LaneId) (s : State) : Host.Outcome State Fault Refusal := onLane l Lane.armTrigger s

/-- DC_LINK_AT_ARM_VDC: STEP 1 ends; the guard drives KM closed (R53, R314). -/
def execDcLinkAtArmVdc (l : LaneId) (s : State) : Host.Outcome State Fault Refusal :=
  onLane l (fun L => L.when (decide (L.rd Reg.SYS_ARM_STEP = 1) && decide (L.svc = 2) && L.guardSt.powered) (fun L =>
    ((((L.stop .precharge).wr Reg.SYS_ARM_STEP 2).wr Reg.LG_STATUS_GSTATE 1).driveKm true).armAdvance)) s

/-- PRECHARGE_TIMEOUT: arming ends with CAUSE 10 (R53). -/
def execPrechargeTimeout (l : LaneId) (dt : Nat) (s : State) : Host.Outcome State Fault Refusal :=
  onLane l (fun L =>
    let L := L.pass dt
    L.when (decide (L.rd Reg.SYS_ARM_STEP = 1) && L.due .precharge (L.img.start.prechargeMs * 1000000))
      (fun L => (L.armEnd 10).stop .precharge)) s

/-- GATE_CHAIN_ENABLE_TIMEOUT: arming ends with CAUSE 13 (R53). -/
def execGateChainEnableTimeout (l : LaneId) (dt : Nat) (s : State) : Host.Outcome State Fault Refusal :=
  onLane l (fun L =>
    let L := L.pass dt
    L.when (decide (L.rd Reg.SYS_ARM_STEP = 4) && L.due .gateEnable 10000000) (Lane.armEnd 13)) s

/-- A frame of any class has come from a neighbour: its channel runs (R359, sources 330 and 331). -/
def Lane.linkHeard (s : Side) (L : Lane) : Lane := (L.endLevel (330 + s.ix.val)).restart (.link s)

/-- REFERENCE_RX: a reference frame from a neighbour (R103). -/
def execReferenceRx (l : LaneId) (sd : Side) (r : RefRecord) (s : State) : Host.Outcome State Fault Refusal :=
  onLane l (fun L => L.when (L.firmware && decide (r.lane = L.id.nb sd)) (fun L => (L.linkHeard sd).takeRef r)) s

/-- REFERENCE_WATCHDOG_EXPIRY: the time since the last reference exceeds (MISS + 0.5) × PERIOD (R98). -/
def execReferenceWatchdogExpiry (l : LaneId) (dt : Nat) (f : Func) (s : State) : Host.Outcome State Fault Refusal :=
  onLane l (fun L =>
    let L := L.pass dt
    L.when (L.serves f && decide (L.role f ≠ 1) && L.due (.watchdog f) (L.watchdogNs f + 1)) (fun L =>
      L.each (L.sideOf (L.rd (Reg.ROLE_FUNC_ACT f.code))).toList (Lane.watchdogAccuse f))) s

/-- HOLD_LIMIT_EXPIRY: an intake has held a reference for the hold limit (R101). -/
def execHoldLimitExpiry (l : LaneId) (dt : Nat) (f : Func) (s : State) : Host.Outcome State Fault Refusal :=
  onLane l (fun L =>
    let L := L.pass dt
    L.when (L.serves f && (L.intakesOf f).any (fun n => L.due (.hold n f) (L.holdLimit f))) (fun L =>
      (L.withdraw f).each (L.svsOf f) Lane.svForce)) s

/-- A swap is given up (R109, R118). -/
def Lane.giveUp (f : Func) (L : Lane) : Lane :=
  (((L.onFn f (fun x => { x with eqxDue := false })).stop (.eqxDue f)).count Reg.ROLE_EQX_DEFERRED 1).wrBit
    Reg.ROLE_ACCUSE_ROTATE f.code false

/-- EQUINOX_DUE: device time has passed a multiple of EQX_S; a swap still due from before is given up (R107, R109). -/
def execEquinoxDue (l : LaneId) (dt : Nat) (s : State) : Host.Outcome State Fault Refusal :=
  onLane l (fun L =>
    let L := L.pass dt
    let k := L.now / (max 1 L.img.eqxS * 1000000000)
    L.when (L.firmware && decide (L.roles.eqxSeen < k)) (fun L =>
      let L := { L with roles := { L.roles with eqxSeen := k } }
      L.each L.functions (fun f L =>
        let L := L.when (L.fn f).eqxDue (Lane.giveUp f)
        (L.onFn f (fun x => { x with eqxDue := true })).restart (.eqxDue f)))) s

/-- EQUINOX_GIVE_UP: a function has not swapped within EQX_S of its due moment (R109). -/
def execEquinoxGiveUp (l : LaneId) (dt : Nat) (f : Func) (s : State) : Host.Outcome State Fault Refusal :=
  onLane l (fun L =>
    let L := L.pass dt
    L.when ((L.fn f).eqxDue && L.due (.eqxDue f) (L.img.eqxS * 1000000000)) (Lane.giveUp f)) s

/-- AUTUMN_TIMER_EXPIRY: the function enters Winter with cause 8 (R110). -/
def execAutumnTimerExpiry (l : LaneId) (dt : Nat) (f : Func) (s : State) : Host.Outcome State Fault Refusal :=
  onLane l (fun L =>
    let L := L.pass dt
    L.when (decide (L.mode f = 1) && L.due (.autumn f) 0) (Lane.winter f 8)) s

/-- WINTER_STANDSTILL: below 0.3 km/h for 2 s, or 10 s after the end of the ramp when no speed is known (R113). -/
def execWinterStandstill (l : LaneId) (dt : Nat) (speedKnown : Bool) (s : State) : Host.Outcome State Fault Refusal :=
  onLane l (fun L =>
    let L := L.pass dt
    L.when (L.winterBrake && L.due .standstill (if speedKnown then 2000000000 else 10000000000)) Lane.standstill) s

/-- SPEED_REQUEST_TIMER: once per second in Autumn (R111). -/
def execSpeedRequestTimer (l : LaneId) (dt : Nat) (f : Func) (s : State) : Host.Outcome State Fault Refusal :=
  onLane l (fun L =>
    let L := L.pass dt
    if L.mode f = 1 then L.when (L.due (.speedReq f) 1000000000) (fun L => (L.speedRequest f).restart (.speedReq f))
    else L.stop (.speedReq f)) s

/-- SUPPLY_LOSS_TIMEOUT: class S in RUN with KM closed and its mirrors agreeing (R115, R314). -/
def execSupplyLossTimeout (l : LaneId) (dt : Nat) (s : State) : Host.Outcome State Fault Refusal :=
  onLane l (fun L =>
    let L := L.pass dt
    L.when (decide (L.gstate = 2) && L.is Reg.LG_CONT_KMCMD && L.kmAgrees && !L.is Reg.LG_STATUS_SLOSS) (fun L =>
      (((L.set1 Reg.LG_STATUS_SLOSS).withholdAll).classSK 4).fire 259)) s

/-- HOST_LOSS_TIMEOUT: no valid frame from the vehicle host for 100 ms (R115, R359). -/
def execHostLossTimeout (l : LaneId) (dt : Nat) (s : State) : Host.Outcome State Fault Refusal :=
  onLane l (fun L =>
    let L := L.pass dt
    L.when (L.firmware && L.roles.hostSeen && !L.roles.hostLost && L.due .vehicleHost 100000000) (fun L =>
      let L := { L with roles := { L.roles with hostLost := true } }
      (L.classH.fireLevel 394).stop .vehicleHost)) s

/-- Restored Autumn records are cleared, in READY only (R123). -/
def Lane.roleClr (mask : Nat) (L : Lane) : Lane :=
  L.when (decide (L.svc = 2)) (fun L =>
    L.onRet (fun r => { r with autumn := Vector.ofFn (fun (i : Fin 5) => if nbit mask i.val then ⟨false, 0⟩ else vget r.autumn i) }))

/-- ROLE_CLR_WRITE: clears restored Autumn records, in READY only (R123). -/
def execRoleClrWrite (l : LaneId) (pair : Pair) (mask : BitVec 5) (s : State) : Host.Outcome State Fault Refusal :=
  onLane l (fun L => L.when (L.pairLive pair) (Lane.roleClr mask.toNat)) s

end Sys2Proof.Machine
end

