-- ==== Sys2Proof/Machine/Operands.lean ====
section
/-! DEFINITION. Operand forms of a drive engine: what each instruction reads and writes, its unit and latency, when it
issues, memories and ports as operands (R155 to R160, R165, R210, R241, R297). -/

namespace Sys2Proof.Machine

/-! ### Forms (R157 to R159) -/

/-- The units of R159; NOP belongs to both A and M. -/
inductive DeUnit | a | m | t | nop
  deriving DecidableEq, Repr

/-- What the issue of an instruction depends on. -/
structure DeForm where
  unit : DeUnit
  first : Bool
  reads : List Reg
  writes : List Reg
  lat : Nat
  deriving DecidableEq, Repr

/-- Form of an instruction of unit A that may be word 2k of a pair. -/
def formA (reads writes : List Reg) (lat : Nat) : DeForm := ⟨.a, true, reads, writes, lat⟩
/-- Form of an instruction of unit M. -/
def formM (reads writes : List Reg) (lat : Nat) : DeForm := ⟨.m, false, reads, writes, lat⟩
/-- Form of an instruction of unit T. -/
def formT (reads writes : List Reg) (lat : Nat) : DeForm := ⟨.t, false, reads, writes, lat⟩
/-- Form of a control instruction, WAIT or HALT: it never pairs (R157). -/
def formC (reads writes : List Reg) (lat : Nat) : DeForm := ⟨.a, false, reads, writes, lat⟩

/-- The form of every instruction (R159). -/
def formOf : DeInstr → DeForm
  | .nop => ⟨.nop, true, [], [], 1⟩
  | .add rd ra rb | .sub rd ra rb | .and rd ra rb | .or rd ra rb | .xor rd ra rb | .sll rd ra rb | .srl rd ra rb
  | .sra rd ra rb | .slt rd ra rb | .sltu rd ra rb | .min rd ra rb | .max rd ra rb => formA [ra, rb] [rd] 1
  | .mul rd ra rb => formA [ra, rb] [rd] 2
  | .addi rd ra _ | .andi rd ra _ | .ori rd ra _ | .xori rd ra _ | .slli rd ra _ | .srli rd ra _ | .srai rd ra _ =>
    formA [ra] [rd] 1
  | .lui rd _ => formA [] [rd] 1
  | .ld rd ra _ => formA [ra] [rd] 2
  | .st rd ra _ => formA [ra, rd] [] 1
  | .inp rd _ => formA [] [rd] 2
  | .outp rd _ => formA [rd] [] 1
  | .wait rd _ => formC [] [rd] 2
  | .beq ra rb _ | .bne ra rb _ | .blt ra rb _ | .bge ra rb _ => formC [ra, rb] [] 1
  | .j _ => formC [] [] 3
  | .jal _ => formC [] [31] 3
  | .jr ra => formC [ra] [] 3
  | .halt => formC [] [] 1
  | .fadd rd ra rb | .fsub rd ra rb | .fmul rd ra rb => formM [ra, rb] [rd] 3
  | .fma rd ra rb => formM [rd, ra, rb] [rd] 4
  | .fmin rd ra rb | .fmax rd ra rb | .flt rd ra rb | .qadd rd ra rb | .qsub rd ra rb => formM [ra, rb] [rd] 1
  | .fneg rd ra | .fabs rd ra => formM [ra] [rd] 1
  | .ftoi rd ra | .itof rd ra | .ftoq rd ra _ | .qtof rd ra _ => formM [ra] [rd] 2
  | .qmul rd ra rb _ => formM [ra, rb] [rd] 2
  | .sincos rd ra => formT [ra] [rd, rd + 1] 12
  | .atan2 rd ra rb => formT [ra, rb] [rd] 16
  | .recip rd ra => formT [ra] [rd] 8
  | .rsqrt rd ra | .sqrt rd ra => formT [ra] [rd] 10

/-! ### Registers and memories (R155) -/

/-- A general register; d0 reads 0. -/
def EngineSt.reg (e : EngineSt) (r : Reg) : Word := if r = 0 then 0 else vget e.d r.toFin
/-- Write a general register; a write to d0 is discarded. -/
def EngineSt.setReg (r : Reg) (v : Word) (e : EngineSt) : EngineSt :=
  if r = 0 then e else { e with d := vupd e.d r.toFin (fun _ => v) }
/-- The word of a memory at a byte address, lowest byte first. -/
def memWord (m : List Host.Cell) (a : Nat) : Word :=
  BitVec.ofNat 32 (ofLe ((List.range 4).map (fun i => Tab.get (0 : Byte) m (a + i))))
/-- The instruction word at the program counter. -/
def EngineSt.imWord (e : EngineSt) : Word := memWord e.im (4 * e.pc.toNat)
/-- The byte address of LD and ST. -/
def EngineSt.dmAddr (e : EngineSt) (ra : Reg) (imm : BitVec 16) : Nat := (e.reg ra + imm.signExtend 32).toNat
/-- An aligned address inside DM (R161). -/
def dmOk (a : Nat) : Bool := decide (a % 4 = 0) && decide (a < 65536)
/-- Read a DM word. -/
def EngineSt.dmWord (e : EngineSt) (a : Nat) : Word := memWord e.dm a
/-- Write a DM word. -/
def EngineSt.setDm (a : Nat) (v : Word) (e : EngineSt) : EngineSt :=
  { e with dm := Tab.putList (0 : Byte) e.dm a (leBytes 4 v.toNat) }

/-! ### Issue (R157, R158) -/

/-- The cycle from which a register can be read or written. -/
def EngineSt.readyAt (e : EngineSt) (r : Reg) : Nat := if r = 0 then 0 else vget e.ready r.toFin
/-- The first cycle in which nothing stalls the instruction. -/
def EngineSt.freeAt (e : EngineSt) (i : DeInstr) : Nat :=
  let c := ((formOf i).reads ++ (formOf i).writes).foldl (fun c r => max c (e.readyAt r)) 0
  if (formOf i).unit = .t then max c e.tbusy else c
/-- The instruction issues in the cycle of the word before it (R157; the pair is judged in the cycle in which its first
word issues, log entry 20). -/
def EngineSt.pairs (e : EngineSt) (i : DeInstr) : Bool :=
  decide (e.pairable = some e.pc) && decide ((formOf i).unit ≠ .a) && decide (e.freeAt i < e.cyc)
/-- The cycle in which the instruction at the program counter issues. -/
def EngineSt.issueAt (e : EngineSt) (i : DeInstr) : Nat := if e.pairs i then e.cyc - 1 else max e.cyc (e.freeAt i)
/-- Note when the written registers can be used. -/
def EngineSt.mark (rs : List Reg) (c : Nat) (e : EngineSt) : EngineSt :=
  { e with ready := rs.foldl (fun v r => vupd v r.toFin (fun _ => c)) e.ready }
/-- The instruction has issued and the engine goes on with the next word. -/
def EngineSt.retire (i : DeInstr) (e : EngineSt) : EngineSt :=
  let c := e.issueAt i
  let e' := e.mark (formOf i).writes (c + (formOf i).lat)
  { e' with
    cyc := c + 1
    tbusy := if (formOf i).unit = .t then c + (formOf i).lat else e.tbusy
    pairable := if e.pc.toNat % 2 = 0 && (formOf i).first then some (e.pc + 1) else none
    pc := e.pc + 1 }
/-- A control instruction has issued, taking `k` cycles, and goes on at `pc`. -/
def EngineSt.jumpTo (i : DeInstr) (k : Nat) (pc : BitVec 14) (e : EngineSt) : EngineSt :=
  let c := e.issueAt i
  { e.mark (formOf i).writes (c + (formOf i).lat) with cyc := c + k, pairable := none, pc := pc }
/-- The target of a branch: PC + 1 + sext(off) (R156). -/
def EngineSt.target (e : EngineSt) (off : BitVec 14) : BitVec 14 := e.pc + 1 + off

namespace Lane

/-! ### Ports as operands (R165, R210, R241) -/

/-- The functions whose references the engine's intake takes (R176, R187). -/
def intakeFuncs (L : Lane) (n : Engine) : List Func := Func.all.filter (fun f => (L.intakesOf f).contains n)
/-- The function whose latch ports 0x050 to 0x054 show: the lowest-numbered one that the lane serves (R187). -/
def shownFunc (L : Lane) (n : Engine) : Option Func := (L.intakeFuncs n).find? L.serves
/-- The intake of a function at an engine. -/
def intake (L : Lane) (n : Engine) (f : Func) : Intake := vget (L.de n).intake f.ix

/-- `w × share / 49,152` rounded once to FP32 (R177); a word that is no finite value is handed on. -/
def scaleShare (w : Word) (share : Nat) : Word :=
  match fpOf w with
  | .fin s m e =>
    if share = 0 then fpZero s
    else fpRoundSticky s (m * share * 2 ^ 64 / 49152) (e - 64) (decide (m * share * 2 ^ 64 % 49152 ≠ 0))
  | .inf s => if share = 0 then fpQNan else fpInf s
  | .nan => nanOf w 0 0
/-- REF_SH (R177): 0 while the lane does not serve the function or nothing has been latched. -/
def refSh (L : Lane) (n : Engine) : Word :=
  match L.shownFunc n with
  | some f =>
    match (L.intake n f).latched with
    | some r => scaleShare r.value (L.intake n f).share
    | none => 0
  | none => 0
/-- SV_SET_k (R177, R187): PARK drivers unscaled; 0 while the lane does not serve the function that owns the driver. -/
def svSet (L : Lane) (k : Fin 4) : Nat :=
  match L.funcOfSv k with
  | some f =>
    if L.serves f then
      match (L.intake 3 f).latched with
      | some r => if f = .park then vget r.svMa k else vget r.svMa k * (L.intake 3 f).share / 49152
      | none => 0
    else 0
  | none => 0

/-- The gain of the shunt amplifier (R191). -/
def shuntGain (L : Lane) (p : Nat) : Nat := 5 * 2 ^ L.rd (Reg.CS_CFG_GAIN p)
/-- LSB_A of R192 as a fraction: numerator and denominator. -/
def lsbA (L : Lane) (p : Nat) : Nat × Nat := (3000000, 4096 * L.shuntGain p * L.rd (Reg.CS_SCALE_SHUNT p))
/-- T_min of R199. -/
def tMin (L : Lane) (p : Nat) : Nat := L.rd (Reg.DE_PWM_DEAD_DEAD p) + L.rd (Reg.CS_CFG_SETTLE p) + 267

/-- The VSTAT port: QE_VOTE_p as R247 lays it out. -/
def vstat (L : Lane) (p : Nat) : Nat :=
  L.rd (Reg.QE_VOTE_SRCVAL p) + 2 ^ 4 * L.rd (Reg.QE_VOTE_USED p) + 2 ^ 8 * L.rd (Reg.QE_VOTE_OUTV p) +
    2 ^ 11 * L.rd (Reg.QE_VOTE_UNRES p) + 2 ^ 12 * L.rd (Reg.QE_VOTE_OWNFAIL p) + 2 ^ 13 * L.rd (Reg.QE_VOTE_HFIFAIL p) +
    2 ^ 14 * L.rd (Reg.QE_VOTE_STILL p) + 2 ^ 16 * L.rd (Reg.QE_VOTE_SECT p)
/-- What ports 0x050 to 0x054 but REF_SH show, and the registers that mirror them (R178, R187). -/
structure RefView where
  isNew : Bool
  held : Bool
  sender : Nat
  hold : Nat
  seq : Nat
  tot : Word
  share : Nat
  deriving DecidableEq, Repr
/-- The latch of the shown function as an engine sees it now; HOLD goes on counting between latches, in units of 10 µs. -/
def refView (L : Lane) (n : Engine) : RefView :=
  match L.shownFunc n with
  | none => ⟨false, false, 3, 0, 0, 0, 0⟩
  | some f =>
    let i := L.intake n f
    match i.latched with
    | none => ⟨false, i.holding, 3, 0, 0, 0, i.share⟩
    | some r =>
      let hold := match L.timerAt (.hold n f) with
        | some t => min 65535 ((L.el - t) / 10000)
        | none => 0
      ⟨i.isNew, i.holding, r.lane.code, hold, r.seq, r.value, i.share⟩
/-- The REF_FLAGS port: DE_REF_FLAGS as R187 lays it out. -/
def refFlags (L : Lane) (n : Engine) : Nat :=
  let v := L.refView n
  b2n v.isNew + 2 * b2n v.held + 2 ^ 8 * v.sender + 2 ^ 16 * v.hold

/-- What IN reads from a port: none for a port that is not listed for IN or not present on the engine (R161, log entry
21); a raw code is a free value until its sample is first taken (R210). -/
def portIn (L : Lane) (n : Engine) (port : Nat) : Option Word :=
  let w (v : Nat) : Option Word := some (BitVec.ofNat 32 v)
  let own : Bool := decide (n.val < 3)
  let p : Port := Fin.ofNat 3 n.val
  let k (b : Nat) : Nat := port - b
  if port = 0x007 ∧ own then w (risingHalf (L.de n).period)
  else if 0x010 ≤ port ∧ port ≤ 0x013 ∧ own then
    match vget (vget L.shunt p).raw (Fin.ofNat 4 (k 0x010)) with
    | some c => some (BitVec.ofInt 32 c)
    | none => w (L.free .unstated)
  else if 0x014 ≤ port ∧ port ≤ 0x017 ∧ own then w (vget (vget L.shunt p).word (Fin.ofNat 4 (k 0x014)))
  else if port = 0x018 ∧ own then some (BitVec.ofInt 32 (sgn 16 (L.rd (Reg.CS_TRIM_OFFSET n.val))))
  else if port = 0x019 ∧ own then some (BitVec.ofInt 32 (65536 + sgn 16 (L.rd (Reg.CS_TRIM_GAIN n.val))))
  else if port = 0x01A ∧ own then some (fpRat (L.lsbA n.val).1 (L.lsbA n.val).2)
  else if port = 0x01B ∧ own then w (L.tMin n.val)
  else if 0x028 ≤ port ∧ port ≤ 0x02F then w (vget (vget L.gen.res n) (Fin.ofNat 8 (k 0x028)))
  else if port = 0x030 ∧ own then w (L.rd (Reg.QE_VANG n.val))
  else if port = 0x031 ∧ own then w (L.rd (Reg.QE_VSPD n.val))
  else if port = 0x032 ∧ own then w (L.vstat n.val)
  else if port = 0x033 ∧ own then w (L.rd (Reg.QE_COMM_COMM n.val) + 2 ^ 16 * L.rd (Reg.QE_COMM_UNRESCNT n.val))
  else if 0x034 ≤ port ∧ port ≤ 0x03B ∧ own then some (vget (vget L.votePos p).ports (Fin.ofNat 8 (k 0x034)))
  else if port = 0x050 then some (L.refView n).tot
  else if port = 0x051 then some (L.refSh n)
  else if port = 0x052 then w (L.refView n).share
  else if port = 0x053 then w (L.refView n).seq
  else if port = 0x054 then w (L.refFlags n)
  else if 0x055 ≤ port ∧ port ≤ 0x058 ∧ ¬own then w (L.svSet (Fin.ofNat 4 (k 0x055)))
  else if 0x060 ≤ port ∧ port ≤ 0x06F then some (vget (L.de n).mbIn (Fin.ofNat 16 (k 0x060)))
  else if port = 0x082 then w (L.de n).events.toNat
  else if port = 0x083 then w ((L.de n).psTime % 2 ^ 32)
  else none

end Lane

/-- The ports of OUT that have no command of their own: compares, sample points, outbound mailbox words (R165, R210). -/
inductive OutPort
  | compare (k : Fin 6) | sample (k : Fin 4) | mailbox (k : Fin 16)
  deriving DecidableEq, Repr
/-- A port of OUT has a command of its own: COMMIT, BRIDGE, MB_POST, TIMER, SV_CMD and CHOP_REQ. -/
def outOwn (n : Engine) (port : Nat) : Bool :=
  (decide (n.val < 3) && (port == 0x006 || port == 0x008)) || port == 0x080 || port == 0x081 ||
    (decide (n.val = 3) && ((decide (0x090 ≤ port) && decide (port ≤ 0x093)) || port == 0x098))
/-- The port that OUT writes, if it is one without a command of its own and present on the engine. -/
def outPort (n : Engine) (port : Nat) : Option OutPort :=
  if h : port < 6 ∧ n.val < 3 then some (.compare ⟨port, h.1⟩)
  else if 0x020 ≤ port ∧ port ≤ 0x023 ∧ n.val < 3 then some (.sample (Fin.ofNat 4 (port - 0x020)))
  else if 0x070 ≤ port ∧ port ≤ 0x07F then some (.mailbox (Fin.ofNat 16 (port - 0x070)))
  else none

end Sys2Proof.Machine
end

