-- ==== Sys2Proof/Machine/Engine.lean ====
section
/-! DEFINITION. The drive engines: their instructions, events, mailbox and memories: rows NOP to DE_OVR_RSTMIN of the
table and ILLEGAL_INSTRUCTION (R154 to R166, R169, R172, R179 to R189, R288, R295). A command that names an
instruction takes effect when the engine runs, does not wait, and holds that instruction at its program counter. -/

namespace Sys2Proof.Machine

/-- The lowest-numbered event of a set (R166). -/
def lowestEvent (ev : BitVec 9) : Option (Fin 9) := (List.finRange 9).find? (fun k => ev.getLsbD k.val)
/-- The set that holds one event. -/
def eventBit (k : Fin 9) : BitVec 9 := 1#9 <<< k.val

/-- The cycle by which everything the engine has issued is complete. -/
def EngineSt.settled (e : EngineSt) : Nat := e.ready.toList.foldl max (max e.cyc e.tbusy)
/-- WAIT finds event `k` pending: it clears that flag and goes on (R166). -/
def EngineSt.waitTake (rd : Reg) (mask : BitVec 9) (k : Fin 9) (e : EngineSt) : EngineSt :=
  let c := e.issueAt (.wait rd mask)
  { (e.retire (.wait rd mask)).setReg rd (BitVec.ofNat 32 k.val) with events := e.events &&& ~~~(eventBit k), wake := c }
/-- A waiting engine's event has come: the flag clears and WAIT completes 3 cycles after it (R159, R166); what was issued
before the wait is complete by then (log entry 24). -/
def EngineSt.waitDone (rd : Reg) (k : Fin 9) (e : EngineSt) : EngineSt :=
  let c := e.settled
  { ((e.mark [rd] (c + 3)).setReg rd (BitVec.ofNat 32 k.val)) with
    events := e.events &&& ~~~(eventBit k), wake := c, cyc := c + 3, wait := none, pairable := none, pc := e.pc + 1 }
/-- A start of the engine: word 0, d1 to d31 cleared, DM unchanged (R163). -/
def EngineSt.begin' (e : EngineSt) : EngineSt :=
  { e with d := Vector.replicate 32 0, pc := 0, ready := Vector.replicate 32 0, tbusy := 0, pairable := none,
           wait := none, ovrRun := 0 }

/-- CRC-32 of IEEE 802.3 over one byte, least significant bit first (R163). -/
def crc32Byte (c b : Nat) : Nat :=
  (List.range 8).foldl (fun c _ => if c % 2 = 1 then Nat.xor (c / 2) 0xEDB88320 else c / 2) (Nat.xor c b)
/-- CRC-32 of IEEE 802.3 over bytes. -/
def crc32 (bs : List Byte) : Nat := Nat.xor (bs.foldl (fun c b => crc32Byte c b.toNat) 0xFFFFFFFF) 0xFFFFFFFF

namespace Lane

/-! ### Events, halts (R161, R166) -/

/-- An event occurs: its flag is pending, an event already pending is merged; SR0, SR1 and POS never occur for DE_3
(R166). -/
def raise (n : Engine) (k : Fin 9) (L : Lane) : Lane :=
  if n = 3 ∧ 2 ≤ k.val ∧ k.val ≤ 4 then L
  else
    let L := L.when ((L.de n).events.getLsbD k.val) (set1 (Reg.DE_STATUS_EVMERGE n.val))
    L.onDe n (fun e => { e with events := e.events ||| eventBit k })

/-- The functions that have solenoid drivers. -/
def svFuncs (L : Lane) : List Func := L.functions.filter (fun f => decide (L.svsOf f ≠ []))

/-- An engine halts with a reason; DE_PC keeps the instruction concerned. A port with its gate enable on turns off;
DE_3 gives up every solenoid driver (R161); every reason but the ordered ones sets source 68 + n (R359). -/
def halt (n : Engine) (reason : Nat) (L : Lane) : Lane :=
  let L := ((L.clr (Reg.DE_CTRL_RUN n.val)).wr (Reg.DE_STATUS_HALT n.val) reason).onDe n (fun e => { e with wait := none })
  let L := (L.irq (.deHalt n)).when (decide (2 ≤ reason) && decide (reason ≤ 6)) (fire (68 + n.val))
  let L := match portOfEngine n with
    | some p => L.when (L.bitOf Reg.GD_STAT_EN p.val) (portTurnOff p)
    | none => (L.each (List.finRange 4) svForce).each L.svFuncs withdraw
  L.grants

/-! ### Issue -/

/-- The engine runs, does not wait, and holds this instruction at its program counter. -/
def deAt (L : Lane) (n : Engine) (i : DeInstr) : Bool :=
  L.is (Reg.DE_CTRL_RUN n.val) && decide ((L.de n).wait = none) && decide (deDecode (L.de n).imWord = some i)
/-- An instruction that writes rd from the engine's registers and memory. -/
def deWrite (n : Engine) (i : DeInstr) (rd : Reg) (v : EngineSt → Word) (L : Lane) : Lane :=
  L.when (L.deAt n i) (onDe n (fun e => (e.retire i).setReg rd (v e)))
/-- As deWrite for an FP32 result: a NaN sets DE_STATUS.NAN (R160, R180). -/
def deFloat (n : Engine) (i : DeInstr) (rd : Reg) (v : EngineSt → Word) (L : Lane) : Lane :=
  (L.deWrite n i rd v).when (L.deAt n i && isNan (v (L.de n))) (set1 (Reg.DE_STATUS_NAN n.val))
/-- A branch (R156, R159). -/
def deBranch (n : Engine) (i : DeInstr) (taken : EngineSt → Bool) (off : BitVec 16) (L : Lane) : Lane :=
  L.when (L.deAt n i) (onDe n (fun e =>
    if taken e then e.jumpTo i 3 (e.target (off.setWidth 14)) else e.jumpTo i 1 (e.pc + 1)))
/-- A jump to a place, with a link where it writes one. -/
def deJump (n : Engine) (i : DeInstr) (pc : EngineSt → BitVec 14) (link : Bool) (L : Lane) : Lane :=
  L.when (L.deAt n i) (onDe n (fun e =>
    let e' := e.jumpTo i 3 (pc e)
    if link then e'.setReg 31 ((e.pc + 1).setWidth 32) else e'))

/-- LD (R159, R161). -/
def deLoad (n : Engine) (rd ra : Reg) (imm : BitVec 16) (L : Lane) : Lane :=
  if dmOk ((L.de n).dmAddr ra imm) then L.deWrite n (.ld rd ra imm) rd (fun e => e.dmWord (e.dmAddr ra imm))
  else L.when (L.deAt n (.ld rd ra imm)) (halt n 3)
/-- ST (R159, R161). -/
def deStore (n : Engine) (rd ra : Reg) (imm : BitVec 16) (L : Lane) : Lane :=
  L.when (L.deAt n (.st rd ra imm)) (fun L =>
    if dmOk ((L.de n).dmAddr ra imm) then
      L.onDe n (fun e => (e.retire (.st rd ra imm)).setDm (e.dmAddr ra imm) (e.reg rd))
    else L.halt n 3)
/-- IN (R159, R161, R165); a raw code read before its sample is taken draws a free value (R210). -/
def deIn (n : Engine) (rd : Reg) (port : BitVec 16) (L : Lane) : Lane :=
  L.when (L.deAt n (.inp rd port)) (fun L =>
    match L.portIn n port.toNat with
    | some v => (L.onDe n (fun e => (e.retire (.inp rd port)).setReg rd v)).drawn
    | none => L.halt n 4)
/-- OUT to a port without a command of its own (R165, R168, R194, R164). -/
def deOut (n : Engine) (rd : Reg) (port : BitVec 16) (L : Lane) : Lane :=
  L.when (L.deAt n (.outp rd port) && !outOwn n port.toNat) (fun L =>
    let v := (L.de n).reg rd
    let go (g : EngineSt → EngineSt) : Lane := L.onDe n (fun e => g (e.retire (.outp rd port)))
    match outPort n port.toNat with
    | some (.compare k) =>
      go (fun e => { e with written := { e.written with cmp := vupd e.written.cmp k (fun _ => v.toNat) } })
    | some (.sample k) =>
      go (fun e => { e with written := { e.written with sp := vupd e.written.sp k (fun _ => v.toInt) } })
    | some (.mailbox k) => go (fun e => { e with mbOut := vupd e.mbOut k (fun _ => v) })
    | none => L.halt n 4)
/-- OUT to a port with a command of its own: what the port does with the value, then the engine goes on. -/
def deOutOwn (n : Engine) (rd : Reg) (port : Nat) (f : Word → Lane → Lane) (L : Lane) : Lane :=
  let i : DeInstr := .outp rd (BitVec.ofNat 16 port)
  L.when (L.deAt n i && outOwn n port) (fun L => (f ((L.de n).reg rd) L).onDe n (EngineSt.retire i))

/-! ### COMMIT (R169, R188, R250) -/

/-- The upward words of the motor window (R250). -/
def upWords (e : EngineSt) : Vector Word 9 := Vector.ofFn (fun (k : Fin 9) => e.dmWord (0xFF80 + 4 * k.val))
/-- The supervisor takes its snapshot and shows it in the DE_MOT result registers; the vote gets a new HFI reading,
captured at the reference instant of the last pair taken, or at the period start where none has been (R250, R259, R269, R271; log
entry 28). -/
def snapUp (n : Engine) (L : Lane) : Lane :=
  let u := upWords (L.de n)
  let post := (vget u 0).toNat
  let w (k : Fin 9) : Nat := (vget u k).toNat
  let L := L.onDe n (fun e => { e with upSnap := some u })
  let L := match portOfEngine n with
    | some p => { L with votePos := vupd L.votePos p (fun v =>
        { v with hfi := some (vget u 7, vget u 8, (vget L.shunt p).pairAt.getD (L.de n).psTime) }) }
    | none => L
  let L := (((L.wr (Reg.DE_MOT_CANG n.val) (w 1)).wr (Reg.DE_MOT_CSPD n.val) (w 2)).wr (Reg.DE_MOT_CAMP n.val) (w 3)).wr
    (Reg.DE_MOT_ID n.val) (w 4)
  let L := (L.wr (Reg.DE_MOT_IQ n.val) (w 5)).wr (Reg.DE_MOT_TLIM n.val) (w 6)
  let L := (L.wr (Reg.DE_MOT_STAT_VLIM n.val) (nbits post 3 1)).wr (Reg.DE_MOT_STAT_FWACT n.val) (nbits post 4 1)
  (L.wr (Reg.DE_MOT_STAT_OVSPD n.val) (nbits post 5 1)).wr (Reg.DE_MOT_STAT_HFICONV n.val) (nbits post 6 1)

/-- A 16-bit cycle count; the spec does not say what LAST reads beyond it. -/
def cycles16 (L : Lane) (c : Nat) : Nat := if c < 65536 then c else L.free .unstated % 65536
/-- A COMMIT that issues now is too late for the coming load point: less than 40 ns are left (R169). -/
def commitLate (L : Lane) (n : Engine) : Bool := decide ((L.loadTicks n).1 * 3 < L.nowTick * 3 + 800)
/-- The cycles between a COMMIT that issues now and the end of the 40 ns window of the load point that it counts for (R188). -/
def commitSlack (L : Lane) (n : Engine) : Nat :=
  (((if L.commitLate n then (L.loadTicks n).2 else (L.loadTicks n).1) - L.nowTick) * 3 - 800).toNat / 40
/-- A COMMIT issues: it counts for the coming load point, or for the one after it when it is late (R169); its margin goes
to SLACK_MIN (R188); the supervisor takes its snapshot (R250). -/
def commit (n : Engine) (rd : Reg) (L : Lane) : Lane :=
  let c := (L.de n).issueAt (.outp rd 0x006)
  let late := L.commitLate n
  let slack := L.commitSlack n
  let L := L.onDe n (fun e => if late then { e with latePat := e.written, late := true }
    else { e with committed := e.written, counted := true })
  let L := (L.wr (Reg.DE_BUDGET_LAST n.val) (L.cycles16 (c - (L.de n).wake))).drawn
  (L.wr (Reg.DE_BUDGET_SLACK_MIN n.val) (min (L.rd (Reg.DE_BUDGET_SLACK_MIN n.val)) slack)).snapUp n

/-- A BRIDGE value: 0 to 2; what another value asks for is not stated (log entry 21). -/
def bridgeReq (v : Word) (L : Lane) : Nat := if v.toNat ≤ 2 then v.toNat else L.free .unstated % 3
/-- An OUT to BRIDGE: reached by a COMMIT like a compare (R172). -/
def bridge (n : Engine) (v : Word) (L : Lane) : Lane :=
  (L.onDe n (fun e => { e with written := { e.written with bridge := L.bridgeReq v } })).drawn

/-! ### Mailbox, memories, control (R162 to R164, R186 to R188) -/

/-- MB_POST (R164). -/
def post (n : Engine) (L : Lane) : Lane :=
  let L := L.each (List.finRange 16) (fun k L => L.wr (Reg.DE_MBOX_OUT n.val k.val) (vget (L.de n).mbOut k).toNat)
  (L.countMod (Reg.DE_MBOX_OSEQ_COUNT n.val) 1).irq (.deMbox n)
/-- The inbound doorbell (R164). -/
def doorbell (n : Engine) (L : Lane) : Lane :=
  (L.onDe n (fun e =>
    { e with mbIn := Vector.ofFn (fun (k : Fin 16) => BitVec.ofNat 32 (L.rd (Reg.DE_MBOX_IN n.val k.val))) })).raise n 6
/-- DE_DATA (R162, R186): the word read stands in DE_DATA. -/
def dataAccess (n : Engine) (data : Option Word) (L : Lane) : Lane :=
  if L.is (Reg.DE_CTRL_RUN n.val) then (L.set1 (Reg.DE_STATUS_BUSYACC n.val)).wr (Reg.DE_DATA_DATA n.val) 0
  else
    let a := L.rd (Reg.DE_ADDR_ADDR n.val) / 4 * 4
    let dm := L.is (Reg.DE_ADDR_SPACE n.val)
    let L := match data with
      | none => L.wr (Reg.DE_DATA_DATA n.val) (memWord (if dm then (L.de n).dm else (L.de n).im) a).toNat
      | some w =>
        if dm then L.onDe n (EngineSt.setDm a w)
        else if L.is (Reg.DE_STATUS_SEALED n.val) then L
        else L.onDe n (fun e => { e with im := Tab.putList (0 : Byte) e.im a (leBytes 4 w.toNat) })
    L.wr (Reg.DE_ADDR_ADDR n.val) ((L.rd (Reg.DE_ADDR_ADDR n.val) + 4) % 65536)
/-- RUN written 1 (R163, R179, R545). -/
def run (n : Engine) (L : Lane) : Lane :=
  let dead := match portOfEngine n with
    | some p => vget L.test.deadEngines p
    | none => false
  if L.is (Reg.DE_CTRL_RUN n.val) || dead then L
  else ((L.onDe n EngineSt.begin').set1 (Reg.DE_CTRL_RUN n.val)).grants
/-- SEAL written 1 (R163). -/
def sealIm (n : Engine) (L : Lane) : Lane := ((L.set1 (Reg.DE_CTRL_SEAL n.val)).set1 (Reg.DE_STATUS_SEALED n.val)).grants
/-- The CRC over all 64 KiB of IM (R163). -/
def imCrc (L : Lane) (n : Engine) : Nat := crc32 ((List.range 65536).map (fun a => Tab.get (0 : Byte) (L.de n).im a))

end Lane

/-! ### The commands -/

/-- NOP does nothing (R159). -/
def execDeNop (l : LaneId) (n : Engine) (s : State) : Host.Outcome State Fault Refusal :=
  onLane l (fun L => L.when (L.deAt n .nop) (Lane.onDe n (EngineSt.retire .nop))) s

/-- ADD: rd = ra + rb (R159). -/
def execDeAdd (l : LaneId) (n : Engine) (rd ra rb : Reg) (s : State) : Host.Outcome State Fault Refusal :=
  onLane l (Lane.deWrite n (.add rd ra rb) rd (fun e => e.reg ra + e.reg rb)) s

/-- SUB: rd = ra − rb (R159). -/
def execDeSub (l : LaneId) (n : Engine) (rd ra rb : Reg) (s : State) : Host.Outcome State Fault Refusal :=
  onLane l (Lane.deWrite n (.sub rd ra rb) rd (fun e => e.reg ra - e.reg rb)) s

/-- AND (R159). -/
def execDeAnd (l : LaneId) (n : Engine) (rd ra rb : Reg) (s : State) : Host.Outcome State Fault Refusal :=
  onLane l (Lane.deWrite n (.and rd ra rb) rd (fun e => e.reg ra &&& e.reg rb)) s

/-- OR (R159). -/
def execDeOr (l : LaneId) (n : Engine) (rd ra rb : Reg) (s : State) : Host.Outcome State Fault Refusal :=
  onLane l (Lane.deWrite n (.or rd ra rb) rd (fun e => e.reg ra ||| e.reg rb)) s

/-- XOR (R159). -/
def execDeXor (l : LaneId) (n : Engine) (rd ra rb : Reg) (s : State) : Host.Outcome State Fault Refusal :=
  onLane l (Lane.deWrite n (.xor rd ra rb) rd (fun e => e.reg ra ^^^ e.reg rb)) s

/-- SLL: rd = ra << rb[4:0] (R159). -/
def execDeSll (l : LaneId) (n : Engine) (rd ra rb : Reg) (s : State) : Host.Outcome State Fault Refusal :=
  onLane l (Lane.deWrite n (.sll rd ra rb) rd (fun e => e.reg ra <<< ((e.reg rb).toNat % 32))) s

/-- SRL: logical right shift by rb[4:0] (R159). -/
def execDeSrl (l : LaneId) (n : Engine) (rd ra rb : Reg) (s : State) : Host.Outcome State Fault Refusal :=
  onLane l (Lane.deWrite n (.srl rd ra rb) rd (fun e => e.reg ra >>> ((e.reg rb).toNat % 32))) s

/-- SRA: arithmetic right shift by rb[4:0] (R159). -/
def execDeSra (l : LaneId) (n : Engine) (rd ra rb : Reg) (s : State) : Host.Outcome State Fault Refusal :=
  onLane l (Lane.deWrite n (.sra rd ra rb) rd (fun e => (e.reg ra).sshiftRight ((e.reg rb).toNat % 32))) s

/-- SLT: 1 if ra < rb signed (R159). -/
def execDeSlt (l : LaneId) (n : Engine) (rd ra rb : Reg) (s : State) : Host.Outcome State Fault Refusal :=
  onLane l (Lane.deWrite n (.slt rd ra rb) rd (fun e => if (e.reg ra).slt (e.reg rb) then 1 else 0)) s

/-- SLTU: 1 if ra < rb unsigned (R159). -/
def execDeSltu (l : LaneId) (n : Engine) (rd ra rb : Reg) (s : State) : Host.Outcome State Fault Refusal :=
  onLane l (Lane.deWrite n (.sltu rd ra rb) rd (fun e => if (e.reg ra).ult (e.reg rb) then 1 else 0)) s

/-- MIN: signed minimum (R159). -/
def execDeMin (l : LaneId) (n : Engine) (rd ra rb : Reg) (s : State) : Host.Outcome State Fault Refusal :=
  onLane l (Lane.deWrite n (.min rd ra rb) rd (fun e => if (e.reg rb).slt (e.reg ra) then e.reg rb else e.reg ra)) s

/-- MAX: signed maximum (R159). -/
def execDeMax (l : LaneId) (n : Engine) (rd ra rb : Reg) (s : State) : Host.Outcome State Fault Refusal :=
  onLane l (Lane.deWrite n (.max rd ra rb) rd (fun e => if (e.reg ra).slt (e.reg rb) then e.reg rb else e.reg ra)) s

/-- MUL: low 32 bits of the product (R159). -/
def execDeMul (l : LaneId) (n : Engine) (rd ra rb : Reg) (s : State) : Host.Outcome State Fault Refusal :=
  onLane l (Lane.deWrite n (.mul rd ra rb) rd (fun e => e.reg ra * e.reg rb)) s

/-- ADDI: sign-extended immediate (R159). -/
def execDeAddi (l : LaneId) (n : Engine) (rd ra : Reg) (imm : BitVec 16) (s : State) : Host.Outcome State Fault Refusal :=
  onLane l (Lane.deWrite n (.addi rd ra imm) rd (fun e => e.reg ra + imm.signExtend 32)) s

/-- ANDI: zero-extended immediate (R159). -/
def execDeAndi (l : LaneId) (n : Engine) (rd ra : Reg) (imm : BitVec 16) (s : State) : Host.Outcome State Fault Refusal :=
  onLane l (Lane.deWrite n (.andi rd ra imm) rd (fun e => e.reg ra &&& imm.setWidth 32)) s

/-- ORI: zero-extended immediate (R159). -/
def execDeOri (l : LaneId) (n : Engine) (rd ra : Reg) (imm : BitVec 16) (s : State) : Host.Outcome State Fault Refusal :=
  onLane l (Lane.deWrite n (.ori rd ra imm) rd (fun e => e.reg ra ||| imm.setWidth 32)) s

/-- XORI: zero-extended immediate (R159). -/
def execDeXori (l : LaneId) (n : Engine) (rd ra : Reg) (imm : BitVec 16) (s : State) : Host.Outcome State Fault Refusal :=
  onLane l (Lane.deWrite n (.xori rd ra imm) rd (fun e => e.reg ra ^^^ imm.setWidth 32)) s

/-- LUI: rd = imm16 << 16 (R159). -/
def execDeLui (l : LaneId) (n : Engine) (rd : Reg) (imm : BitVec 16) (s : State) : Host.Outcome State Fault Refusal :=
  onLane l (Lane.deWrite n (.lui rd imm) rd (fun _ => imm ++ (0 : BitVec 16))) s

/-- SLLI (R159). -/
def execDeSlli (l : LaneId) (n : Engine) (rd ra sh : Reg) (s : State) : Host.Outcome State Fault Refusal :=
  onLane l (Lane.deWrite n (.slli rd ra sh) rd (fun e => e.reg ra <<< sh.toNat)) s

/-- SRLI: logical (R159). -/
def execDeSrli (l : LaneId) (n : Engine) (rd ra sh : Reg) (s : State) : Host.Outcome State Fault Refusal :=
  onLane l (Lane.deWrite n (.srli rd ra sh) rd (fun e => e.reg ra >>> sh.toNat)) s

/-- SRAI: arithmetic (R159). -/
def execDeSrai (l : LaneId) (n : Engine) (rd ra sh : Reg) (s : State) : Host.Outcome State Fault Refusal :=
  onLane l (Lane.deWrite n (.srai rd ra sh) rd (fun e => (e.reg ra).sshiftRight sh.toNat)) s

/-- LD: rd = DM[ra + sext(imm16)], or HALT 3 (R159, R161). -/
def execDeLd (l : LaneId) (n : Engine) (rd ra : Reg) (imm : BitVec 16) (s : State) : Host.Outcome State Fault Refusal :=
  onLane l (Lane.deLoad n rd ra imm) s

/-- ST: DM[ra + sext(imm16)] = rd, or HALT 3 (R159, R161). -/
def execDeSt (l : LaneId) (n : Engine) (rd ra : Reg) (imm : BitVec 16) (s : State) : Host.Outcome State Fault Refusal :=
  onLane l (Lane.deStore n rd ra imm) s

/-- IN: rd = port, or HALT 4 (R159, R161, R165). -/
def execDeInp (l : LaneId) (n : Engine) (rd : Reg) (port : BitVec 16) (s : State) : Host.Outcome State Fault Refusal :=
  onLane l (Lane.deIn n rd port) s

/-- OUT to a port without a row of its own, or HALT 4 (R159, R161, R165). -/
def execDeOutp (l : LaneId) (n : Engine) (rd : Reg) (port : BitVec 16) (s : State) : Host.Outcome State Fault Refusal :=
  onLane l (Lane.deOut n rd port) s

/-- WAIT takes the lowest pending event of its mask, or waits for one (R159, R166). -/
def execDeWait (l : LaneId) (n : Engine) (rd : Reg) (mask : BitVec 9) (s : State) : Host.Outcome State Fault Refusal :=
  onLane l (fun L => L.when (L.deAt n (.wait rd mask)) (Lane.onDe n (fun e =>
    match lowestEvent (e.events &&& mask) with
    | some k => e.waitTake rd mask k
    | none => { e with wait := some (mask, rd), cyc := e.issueAt (.wait rd mask) }))) s

/-- WAIT_RESUME: an event of its mask has come to a waiting engine (R166). -/
def execWaitResume (l : LaneId) (n : Engine) (s : State) : Host.Outcome State Fault Refusal :=
  onLane l (fun L => L.when (L.is (Reg.DE_CTRL_RUN n.val)) (Lane.onDe n (fun e =>
    match e.wait with
    | some (mask, rd) =>
      match lowestEvent (e.events &&& mask) with
      | some k => e.waitDone rd k
      | none => e
    | none => e))) s

/-- BEQ (R156, R159). -/
def execDeBeq (l : LaneId) (n : Engine) (ra rb : Reg) (off : BitVec 16) (s : State) : Host.Outcome State Fault Refusal :=
  onLane l (Lane.deBranch n (.beq ra rb off) (fun e => decide (e.reg ra = e.reg rb)) off) s

/-- BNE (R156, R159). -/
def execDeBne (l : LaneId) (n : Engine) (ra rb : Reg) (off : BitVec 16) (s : State) : Host.Outcome State Fault Refusal :=
  onLane l (Lane.deBranch n (.bne ra rb off) (fun e => decide (e.reg ra ≠ e.reg rb)) off) s

/-- BLT: signed (R156, R159). -/
def execDeBlt (l : LaneId) (n : Engine) (ra rb : Reg) (off : BitVec 16) (s : State) : Host.Outcome State Fault Refusal :=
  onLane l (Lane.deBranch n (.blt ra rb off) (fun e => (e.reg ra).slt (e.reg rb)) off) s

/-- BGE: signed (R156, R159). -/
def execDeBge (l : LaneId) (n : Engine) (ra rb : Reg) (off : BitVec 16) (s : State) : Host.Outcome State Fault Refusal :=
  onLane l (Lane.deBranch n (.bge ra rb off) (fun e => !(e.reg ra).slt (e.reg rb)) off) s

/-- J (R156, R159). -/
def execDeJ (l : LaneId) (n : Engine) (off : BitVec 26) (s : State) : Host.Outcome State Fault Refusal :=
  onLane l (Lane.deJump n (.j off) (fun e => e.target (off.setWidth 14)) false) s

/-- JAL: d31 = PC + 1, then jump (R156, R159). -/
def execDeJal (l : LaneId) (n : Engine) (off : BitVec 26) (s : State) : Host.Outcome State Fault Refusal :=
  onLane l (Lane.deJump n (.jal off) (fun e => e.target (off.setWidth 14)) true) s

/-- JR: PC = ra[13:0] (R159). -/
def execDeJr (l : LaneId) (n : Engine) (ra : Reg) (s : State) : Host.Outcome State Fault Refusal :=
  onLane l (Lane.deJump n (.jr ra) (fun e => (e.reg ra).setWidth 14) false) s

/-- HALT: the engine halts with HALT 1 (R161). -/
def execDeHalt (l : LaneId) (n : Engine) (s : State) : Host.Outcome State Fault Refusal :=
  onLane l (fun L => L.when (L.deAt n .halt) (Lane.halt n 1)) s

/-- FADD (R159, R160). -/
def execDeFadd (l : LaneId) (n : Engine) (rd ra rb : Reg) (s : State) : Host.Outcome State Fault Refusal :=
  onLane l (Lane.deFloat n (.fadd rd ra rb) rd (fun e => fadd (e.reg ra) (e.reg rb))) s

/-- FSUB (R159, R160). -/
def execDeFsub (l : LaneId) (n : Engine) (rd ra rb : Reg) (s : State) : Host.Outcome State Fault Refusal :=
  onLane l (Lane.deFloat n (.fsub rd ra rb) rd (fun e => fsub (e.reg ra) (e.reg rb))) s

/-- FMUL (R159, R160). -/
def execDeFmul (l : LaneId) (n : Engine) (rd ra rb : Reg) (s : State) : Host.Outcome State Fault Refusal :=
  onLane l (Lane.deFloat n (.fmul rd ra rb) rd (fun e => fmul (e.reg ra) (e.reg rb))) s

/-- FMA: rd = rd + ra × rb, rounded once (R159, R160). -/
def execDeFma (l : LaneId) (n : Engine) (rd ra rb : Reg) (s : State) : Host.Outcome State Fault Refusal :=
  onLane l (Lane.deFloat n (.fma rd ra rb) rd (fun e => fma (e.reg rd) (e.reg ra) (e.reg rb))) s

/-- FMIN (R159, R160). -/
def execDeFmin (l : LaneId) (n : Engine) (rd ra rb : Reg) (s : State) : Host.Outcome State Fault Refusal :=
  onLane l (Lane.deFloat n (.fmin rd ra rb) rd (fun e => fminmax false (e.reg ra) (e.reg rb))) s

/-- FMAX (R159, R160). -/
def execDeFmax (l : LaneId) (n : Engine) (rd ra rb : Reg) (s : State) : Host.Outcome State Fault Refusal :=
  onLane l (Lane.deFloat n (.fmax rd ra rb) rd (fun e => fminmax true (e.reg ra) (e.reg rb))) s

/-- FNEG (R159, R160). -/
def execDeFneg (l : LaneId) (n : Engine) (rd ra : Reg) (s : State) : Host.Outcome State Fault Refusal :=
  onLane l (Lane.deFloat n (.fneg rd ra) rd (fun e => fneg (e.reg ra))) s

/-- FABS (R159, R160). -/
def execDeFabs (l : LaneId) (n : Engine) (rd ra : Reg) (s : State) : Host.Outcome State Fault Refusal :=
  onLane l (Lane.deFloat n (.fabs rd ra) rd (fun e => fabs (e.reg ra))) s

/-- FLT: 1 if ra < rb, 0 with a NaN operand (R159, R160). -/
def execDeFlt (l : LaneId) (n : Engine) (rd ra rb : Reg) (s : State) : Host.Outcome State Fault Refusal :=
  onLane l (Lane.deWrite n (.flt rd ra rb) rd (fun e => flt (e.reg ra) (e.reg rb))) s

/-- FTOI: to a signed integer, saturating (R159, R160). -/
def execDeFtoi (l : LaneId) (n : Engine) (rd ra : Reg) (s : State) : Host.Outcome State Fault Refusal :=
  onLane l (Lane.deWrite n (.ftoi rd ra) rd (fun e => ftoq (e.reg ra) 0)) s

/-- ITOF (R159, R160). -/
def execDeItof (l : LaneId) (n : Engine) (rd ra : Reg) (s : State) : Host.Outcome State Fault Refusal :=
  onLane l (Lane.deWrite n (.itof rd ra) rd (fun e => qtof (e.reg ra) 0)) s

/-- FTOQ: to Q with f fractional bits, saturating (R159, R160). -/
def execDeFtoq (l : LaneId) (n : Engine) (rd ra f : Reg) (s : State) : Host.Outcome State Fault Refusal :=
  onLane l (Lane.deWrite n (.ftoq rd ra f) rd (fun e => ftoq (e.reg ra) f.toNat)) s

/-- QTOF: Q with f fractional bits to FP32 (R159, R160). -/
def execDeQtof (l : LaneId) (n : Engine) (rd ra f : Reg) (s : State) : Host.Outcome State Fault Refusal :=
  onLane l (Lane.deWrite n (.qtof rd ra f) rd (fun e => qtof (e.reg ra) f.toNat)) s

/-- QMUL: the rounded saturating product (R159). -/
def execDeQmul (l : LaneId) (n : Engine) (rd ra rb f : Reg) (s : State) : Host.Outcome State Fault Refusal :=
  onLane l (Lane.deWrite n (.qmul rd ra rb f) rd (fun e => qmul (e.reg ra) (e.reg rb) f.toNat)) s

/-- QADD: saturating (R159). -/
def execDeQadd (l : LaneId) (n : Engine) (rd ra rb : Reg) (s : State) : Host.Outcome State Fault Refusal :=
  onLane l (Lane.deWrite n (.qadd rd ra rb) rd (fun e => sat32 ((e.reg ra).toInt + (e.reg rb).toInt))) s

/-- QSUB: saturating (R159). -/
def execDeQsub (l : LaneId) (n : Engine) (rd ra rb : Reg) (s : State) : Host.Outcome State Fault Refusal :=
  onLane l (Lane.deWrite n (.qsub rd ra rb) rd (fun e => sat32 ((e.reg ra).toInt - (e.reg rb).toInt))) s

/-- SINCOS: rd = sin, rd + 1 = cos of angle ra (R159, R160). -/
def execDeSincos (l : LaneId) (n : Engine) (rd ra : Reg) (s : State) : Host.Outcome State Fault Refusal :=
  onLane l (fun L => L.when (L.deAt n (.sincos rd ra)) (Lane.onDe n (fun e =>
    ((e.retire (.sincos rd ra)).setReg rd (fsin (e.reg ra))).setReg (rd + 1) (fcos (e.reg ra))))) s

/-- ATAN2: the angle of (x = rb, y = ra) (R159, R160). -/
def execDeAtan2 (l : LaneId) (n : Engine) (rd ra rb : Reg) (s : State) : Host.Outcome State Fault Refusal :=
  onLane l (Lane.deWrite n (.atan2 rd ra rb) rd (fun e => fatan2 (e.reg ra) (e.reg rb))) s

/-- RECIP (R159, R160). -/
def execDeRecip (l : LaneId) (n : Engine) (rd ra : Reg) (s : State) : Host.Outcome State Fault Refusal :=
  onLane l (Lane.deFloat n (.recip rd ra) rd (fun e => frecip (e.reg ra))) s

/-- RSQRT (R159, R160). -/
def execDeRsqrt (l : LaneId) (n : Engine) (rd ra : Reg) (s : State) : Host.Outcome State Fault Refusal :=
  onLane l (Lane.deFloat n (.rsqrt rd ra) rd (fun e => frsqrt (e.reg ra))) s

/-- SQRT (R159, R160). -/
def execDeSqrt (l : LaneId) (n : Engine) (rd ra : Reg) (s : State) : Host.Outcome State Fault Refusal :=
  onLane l (Lane.deFloat n (.sqrt rd ra) rd (fun e => fsqrt (e.reg ra))) s

/-- DE_COMMIT: an OUT to COMMIT, `dt` ns after the last event (R169, R188, R250). -/
def execDeCommit (l : LaneId) (n : Engine) (rd : Reg) (dt : Nat) (s : State) : Host.Outcome State Fault Refusal :=
  onLane l (fun L => (L.pass dt).deOutOwn n rd 0x006 (fun _ => Lane.commit n rd)) s

/-- BRIDGE_WRITE: an OUT to BRIDGE (R172). -/
def execBridgeWrite (l : LaneId) (n : Engine) (rd : Reg) (s : State) : Host.Outcome State Fault Refusal :=
  onLane l (Lane.deOutOwn n rd 0x008 (Lane.bridge n)) s

/-- DE_TIMER_SET: an OUT to TIMER; 0 cancels (R165). -/
def execDeTimerSet (l : LaneId) (n : Engine) (rd : Reg) (s : State) : Host.Outcome State Fault Refusal :=
  onLane l (Lane.deOutOwn n rd 0x081 (fun v L => L.onDe n (fun e =>
    { e with timer := if v = 0 then none else some (v.toNat, L.el) }))) s

/-- DE_TIMER_EXPIRY: the cycles written to TIMER, 2 ns each, have passed (R165, R166). -/
def execDeTimerExpiry (l : LaneId) (n : Engine) (dt : Nat) (s : State) : Host.Outcome State Fault Refusal :=
  onLane l (fun L =>
    let L := L.pass dt
    L.when ((L.de n).timer.any (fun x => decide (x.2 + 2 * x.1 ≤ L.el))) (fun L =>
      (L.onDe n (fun e => { e with timer := none })).raise n 7)) s

/-- MB_POST: an OUT to MB_POST (R164). -/
def execMbPost (l : LaneId) (n : Engine) (rd : Reg) (s : State) : Host.Outcome State Fault Refusal :=
  onLane l (Lane.deOutOwn n rd 0x080 (fun _ => Lane.post n)) s

/-- SV_CMD_WRITE: DE_3 writes a solenoid setpoint (R295, R297). -/
def execSvCmdWrite (l : LaneId) (sv : Fin 4) (rd : Reg) (s : State) : Host.Outcome State Fault Refusal :=
  onLane l (Lane.deOutOwn 3 rd (0x090 + sv.val) (fun v L => (L.onSv sv (fun x => { x with cmd := v.toNat })).svApplyAll)) s

/-- CHOP_REQ_WRITE: DE_3 writes bit 0 of CHOP_REQ (R288, R297). -/
def execChopReqWrite (l : LaneId) (rd : Reg) (s : State) : Host.Outcome State Fault Refusal :=
  onLane l (Lane.deOutOwn 3 rd 0x098 (fun v L => (L.onGate (fun g => { g with chopReq := v.getLsbD 0 })).chopApply)) s

/-- DE_IMCRC_DONE: the CRC-32 over sealed IM (R163, R189). -/
def execDeImcrcDone (l : LaneId) (n : Engine) (s : State) : Host.Outcome State Fault Refusal :=
  onLane l (fun L => L.when (L.is (Reg.DE_STATUS_SEALED n.val)) (fun L => L.wr (Reg.DE_IMCRC n.val) (L.imCrc n))) s

/-- ILLEGAL_INSTRUCTION: the word at the program counter spells no instruction: HALT 2 (R156, R161). -/
def execIllegalInstruction (l : LaneId) (n : Engine) (s : State) : Host.Outcome State Fault Refusal :=
  onLane l (fun L => L.when (L.is (Reg.DE_CTRL_RUN n.val) && decide ((L.de n).wait = none) &&
      decide (deDecode (L.de n).imWord = none)) (Lane.halt n 2)) s

end Sys2Proof.Machine
end

