-- ==== Sys2Proof/Machine/Position.lean ====
section
/-! DEFINITION. Position and speed: quadrature inputs, the resolver, SENT, shared readings and the vote: rows
QE_COUNTING_EDGE to POSITION_VOTE of the table (R220 to R240). -/

namespace Sys2Proof.Machine

/-! ### Real numbers (log entry 25) -/

/-- A quotient as a whole number: the one below it or, where it is not whole, the one above; which one is free. -/
def floorFree (k : FreeKind) (num : Int) (den : Nat) : Int :=
  num / den + (if num % den = 0 then 0 else Config.freeOf k [num, den] % 2)
/-- The FP32 value of ± n / d: the nearest one or a neighbour of it; which one is free unless it is 0. -/
def nearFp (k : FreeKind) (neg : Bool) (n d : Nat) : Word :=
  let r := (if neg then 0x80000000#32 else 0) ||| fpRat n d
  let p := BitVec.ofInt 32 (Config.freeOf k [b2n neg, n, d])
  if n ≠ 0 ∧ (p.toNat = r.toNat + 1 ∨ p.toNat + 1 = r.toNat) then p else r
/-- The magnitude of a finite word is below n / d. -/
def fpAbsLt (w : Word) (n d : Nat) : Bool :=
  match fpOf w with
  | .fin _ m e => if 0 ≤ e then decide (m * 2 ^ e.toNat * d < n) else decide (m * d < n * 2 ^ (-e).toNat)
  | _ => false
/-- An angle moved on by a speed in rad/s over `dt / d` ns (R235, R239). -/
def moveAngleBy (a spd : Word) (dt : Int) (d : Nat) : Word :=
  match fpOf spd with
  | .fin s m e =>
    let num : Int := (if s then -(m : Int) else m) * dt * 2 ^ 132
    let den := 2 * piFix * 10 ^ 9 * d
    BitVec.ofInt 32 (a.toNat + (if 0 ≤ e then floorFree .extrapolated (num * 2 ^ e.toNat) den
      else floorFree .extrapolated num (den * 2 ^ (-e).toNat)))
  | _ => BitVec.ofInt 32 (Config.freeOf .extrapolated [a.toNat, spd.toNat, dt, d])
/-- An angle moved on by a speed over `dt` ns. -/
def moveAngle (a spd : Word) (dt : Int) : Word := moveAngleBy a spd dt 1
/-- The circular distance of two angles (R235). -/
def circDist (a b : Word) : Nat := min (a - b).toNat (b - a).toNat
/-- The circular mean of two angles (R236). -/
def circMean (a b : Word) : Word := a + BitVec.ofInt 32 (floorFree .circular (b - a).toInt 2)
/-- The mean of two finite speeds (R236). -/
def meanSpeed (x y : Word) : Word :=
  match fpOf x, fpOf y with
  | .fin s1 m1 e1, .fin s2 m2 e2 =>
    let (v, e) := fpSumExact s1 m1 e1 s2 m2 e2
    if 0 ≤ e then nearFp .votedSpeed (decide (v < 0)) (v.natAbs * 2 ^ e.toNat) 2
    else nearFp .votedSpeed (decide (v < 0)) v.natAbs (2 * 2 ^ (-e).toNat)
  | _, _ => BitVec.ofInt 32 (Config.freeOf .votedSpeed [x.toNat, y.toNat])

/-- A reading of an angle as it enters a vote (R235): its angle at the period start and its speed. -/
structure Reading where
  ang : Word
  spd : Word
  deriving DecidableEq, Repr

/-- Place of a quadrature state in the forward sequence, A leading B (R222). -/
def quadIx : Bool → Bool → Nat
  | false, false => 0 | true, false => 1 | true, true => 2 | false, true => 3

/-- One step of the SENT checksum (R231: SAE J2716; log entry 27). -/
def sentCrcTable : List Nat := [0, 13, 7, 10, 14, 3, 9, 4, 1, 12, 6, 11, 15, 2, 8, 5]
/-- The CRC-4 of six data nibbles, legacy or recommended form (log entry 27). -/
def sentCrc (legacy : Bool) (data : List Nat) : Nat :=
  (if legacy then data else data ++ [0]).foldl (fun c d => Nat.xor (d % 16) (sentCrcTable.getD c 0)) 5
/-- A nibble's length in the frame's own ticks, from its length and that of the sync pulse in ns (R231; log entry 27). -/
def sentTicks (sync ns : Nat) : Nat := (112 * ns + sync) / (2 * max 1 sync)
/-- A number from its bits, first bit highest. -/
def ofBits (b : List Bool) : Nat := b.foldl (fun v x => 2 * v + b2n x) 0
/-- The CRC-6 of an enhanced serial message over its bits, first bit first (log entry 27). -/
def serialCrc6 (b : List Bool) : Nat :=
  (b ++ List.replicate 6 false).foldl (fun c x =>
    let c' := 2 * c + b2n x
    if 64 ≤ c' then Nat.xor (c' - 64) 0x19 else c') 0x15
/-- The serial message that the last frames complete: ID, data and format (R231, R246; log entry 27). A frame gives bits 3 and 2 of its
status nibble; `x` holds them newest first. A message with a wrong CRC is no message. -/
def serialMessage (legacy : Bool) (x : List (Bool × Bool)) : Option (Nat × Nat × Nat) :=
  let e := (x.take 18).reverse
  let s := (x.take 16).reverse
  let b3 := e.map (·.1)
  let b2 := e.map (·.2)
  let part (l : List Bool) (i n : Nat) : Nat := ofBits ((l.drop i).take n)
  if e.length = 18 ∧ b3.take 7 = [true, true, true, true, true, true, false] ∧ b3[12]? = some false ∧ b3[17]? = some false then
    let data := (e.drop 6).flatMap (fun f => [f.2, f.1])
    if part b2 0 6 = serialCrc6 data then
      (if b3[7]? = some true then some (part b3 8 4, part b3 13 4 * 2 ^ 12 + part b2 6 12, 2)
       else some (part b3 8 4 * 16 + part b3 13 4, part b2 6 12, 1))
    else none
  else if s.length = 16 ∧ s.map (·.1) = true :: List.replicate 15 false then
    let b := s.map (·.2)
    if part b 12 4 = sentCrc legacy [part b 0 4, part b 4 4, part b 8 4] then some (part b 0 4, part b 4 8, 0) else none
  else none

namespace Lane

/-! ### Which port, which input (R72, R225) -/

/-- The port that selects an own source: 0 QE_0, 1 QE_1, 2 RS_0. -/
def portOfSrc (L : Lane) (k : Nat) : Option Port := (List.finRange 3).find? (fun p => nbit (L.sense p).srcMask k)
/-- Position-sensor loss of a function in this lane (R115, R237). -/
def sensorLost (L : Lane) (f : Func) : Bool :=
  match L.portOf f with
  | some p => L.gangedPort p && (L.is (Reg.QE_VOTE_OWNFAIL p.val) || L.ownFailed p)
  | none => false
/-- The own sensor of a port is lost: source 144 + p; on a ganged port class P (R115, R237). -/
def sensorLoss (p : Port) (L : Lane) : Lane :=
  let L := L.fire (144 + p.val)
  L.when (L.gangedPort p) (fun L => L.each ((L.funcOfPort p).toList.filter L.serves) (fun f => autumn f 3))
/-- An own source fails: on a ganged port its lane loses its sensor at once (R237). -/
def srcFails (k : Nat) (L : Lane) : Lane :=
  let L := L.fire (136 + k)
  L.each ((L.portOfSrc k).toList.filter L.gangedPort) sensorLoss
/-- A quadrature input fails until the next start (R220, R222, R224). -/
def qeFail (n : Fin 2) (L : Lane) : Lane :=
  if L.is (Reg.QE_STAT_FAIL n.val) then L else (L.set1 (Reg.QE_STAT_FAIL n.val)).srcFails n.val

/-! ### Quadrature inputs (R222 to R228) -/

/-- Change a quadrature input. -/
def onQe (n : Fin 2) (g : QuadSt → QuadSt) (L : Lane) : Lane := { L with quad := vupd L.quad n g }
/-- Device time to 10 ns. -/
def now10 (L : Lane) : Nat := L.now / 10 * 10
/-- ENC_COUNTS of the port that selects the input; 0 where none does. -/
def encCounts (L : Lane) (n : Fin 2) : Nat :=
  match L.portOfSrc n.val with
  | some p => (L.sense p).encCounts
  | none => 0
/-- The modular count moves by one; without a port that selects the input the spec gives it no modulus. -/
def modStep (n : Fin 2) (back : Bool) (L : Lane) : Lane :=
  let m := L.rd (Reg.QE_MOD n.val)
  let c := L.encCounts n
  if c = 0 then (L.wr (Reg.QE_MOD n.val) (L.free .unstated)).drawn
  else L.wr (Reg.QE_MOD n.val) (if back then (if m = 0 then c - 1 else m - 1) else (if c ≤ m + 1 then 0 else m + 1))
/-- The direction of the input and its edges (R227, R228). -/
def edgeSeen (n : Fin 2) (back : Bool) (L : Lane) : Lane :=
  let t := L.now10
  let q := vget L.quad n
  let opp : Bool := decide (b2n back ≠ L.rd (Reg.QE_STAT_DIR n.val))
  let run := if opp then q.oppRun + 1 else 0
  let turning := if run = 1 then t else q.turning
  let flips : Bool := opp && decide (L.rd (Reg.QE_CFG_DIRH n.val) ≤ run)
  let c : Int := match q.lastEdge with
    | some e => e.count + (if back then -1 else 1)
    | none => if back then -1 else 1
  let e : Edge := ⟨t, c, back⟩
  let L := L.onQe n (fun q =>
    { q with lastEdge := some e, edges := e :: q.edges.filter (fun x => decide (t ≤ L.fixStamp x.time + 10000000)),
             oppRun := if flips then 0 else run, turning := turning, turnedAt := if flips then turning else q.turnedAt })
  L.when flips (fun L =>
    ((L.wr (Reg.QE_STAT_DIR n.val) (b2n back)).set1 (Reg.QE_STAT_DIRCHG n.val)).when (L.is (Reg.QE_CFG_IE_DIR n.val))
      (irq (.qe n)))
/-- The self-advancing compare (R226). -/
def compareEdge (n : Fin 2) (back : Bool) (L : Lane) : Lane :=
  let tested := nbit (L.rd (Reg.QE_CFG_CMPDIR n.val)) (b2n back)
  if tested && decide (L.rd (Reg.QE_CNT n.val) = L.rd (Reg.QE_CMP n.val)) then
    (((L.set1 (Reg.QE_STAT_CMPHIT n.val)).wr (Reg.QE_CMPT n.val) L.now10).wr (Reg.QE_CMP n.val)
      (L.rd (Reg.QE_CMP n.val) + L.rd (Reg.QE_STEP n.val))).when (L.is (Reg.QE_CFG_IE_CMP n.val)) (irq (.qe n))
  else L
/-- A counting edge (R222, R223); where an index loads QE_CNT in the same filter clock, the count that the compare sees never stands
(R224, R226). -/
def countEdge (n : Fin 2) (loaded back : Bool) (L : Lane) : Lane :=
  let c := L.rd (Reg.QE_CNT n.val)
  let L := L.wr (Reg.QE_CNT n.val) (if back then c + (2 ^ 32 - 1) else c + 1)
  ((L.modStep n back).when (!loaded) (compareEdge n back)).edgeSeen n back
/-- Both lines change in one sample (R222). -/
def skipEdge (n : Fin 2) (L : Lane) : Lane :=
  let k := (vget L.quad n).skips + 1
  let L := (L.count (Reg.QE_STAT_SKIPS n.val) 1).onQe n (fun q => { q with skips := k })
  match L.portOfSrc n.val with
  | some p =>
    let r := L.sense p
    if r.voteTol * r.encCounts < k * 2 * r.polePairs * 65536 * 2 then
      (L.set1 (Reg.QE_STAT_SKIPFAIL n.val)).qeFail n
    else L
  | none => L
/-- A received level that has stood for `held` filter clocks, as the filter lets it through (R221). -/
def filtered (L : Lane) (n : Fin 2) (old new : Bool) (held : Nat) : Bool := if L.rd (Reg.QE_CFG_FILT n.val) ≤ held then new else old
/-- The decoder samples the filtered A and B (R222). -/
def quadSample (n : Fin 2) (loaded a b : Bool) (L : Lane) : Lane :=
  let q := vget L.quad n
  let d := (quadIx a b + 4 - quadIx q.a q.b) % 4
  let inv := L.is (Reg.QE_CFG_INV n.val)
  let L := match d with
    | 0 => L
    | 1 => L.countEdge n loaded inv
    | 3 => L.countEdge n loaded (!inv)
    | _ => L.skipEdge n
  L.onQe n (fun q => { q with a := a, b := b })

/-- A load of the modular count by an index (R224). -/
def indexLoad (n : Fin 2) (L : Lane) : Lane :=
  (((L.wr (Reg.QE_MOD n.val) 0).wr (Reg.QE_STAT_SKIPS n.val) 0).set1 (Reg.QE_STAT_ALIGNED n.val)).when
    (L.is (Reg.QE_CFG_IDXCNT n.val)) (wr (Reg.QE_CNT n.val) 0) |>.onQe n (fun q => { q with skips := 0 })
/-- The signed difference of the modular count from 0 (R224). -/
def indexDiff (L : Lane) (n : Fin 2) : Int :=
  let m := L.rd (Reg.QE_MOD n.val)
  let c := L.encCounts n
  if (c + 1) / 2 ≤ m then (m : Int) - c else m
/-- The check of a later index in mode 2 (R224). -/
def indexCheck (n : Fin 2) (L : Lane) : Lane :=
  let d := L.indexDiff n
  let L := L.wr (Reg.QE_IDX_IDXERR n.val) (uns 16 (clampI (-32768) 32767 d))
  L.when (decide (L.rd (Reg.QE_IDX_IDX_TOL n.val) < d.natAbs)) (fun L => (L.set1 (Reg.QE_STAT_IDXMIS n.val)).qeFail n)
/-- A rising edge of Z with the filtered A and B at these levels is a qualified index (R224). -/
def indexOk (L : Lane) (n : Fin 2) (a b : Bool) : Bool :=
  !L.is (Reg.QE_CFG_ZGATE_EN n.val) || (L.is (Reg.QE_CFG_ZGATE_A n.val) == a && L.is (Reg.QE_CFG_ZGATE_B n.val) == b)
/-- A qualified index loads QE_CNT too (R224). -/
def indexLoads (L : Lane) (n : Fin 2) : Bool :=
  L.is (Reg.QE_CFG_IDXCNT n.val) &&
    (L.rd (Reg.QE_CFG_IDXMODE n.val) == 1 || (L.rd (Reg.QE_CFG_IDXMODE n.val) == 2 && (vget L.quad n).armedIdx))
/-- A rising edge of Z with the filtered A and B at these levels (R224). -/
def indexEdge (n : Fin 2) (a b : Bool) (L : Lane) : Lane :=
  if L.indexOk n a b then
    let L := (L.set1 (Reg.QE_STAT_IDXHIT n.val)).when (L.is (Reg.QE_CFG_IE_IDX n.val)) (irq (.qe n))
    match L.rd (Reg.QE_CFG_IDXMODE n.val) with
    | 1 => L.indexLoad n
    | 2 =>
      if (vget L.quad n).armedIdx then (L.indexLoad n).onQe n (fun q => { q with armedIdx := false, checks := true })
      else L.when (vget L.quad n).checks (indexCheck n)
    | _ => L
  else L

/-- The speed v of R228 at the present instant, in counts per ns as a fraction, and STILL; edge times from before the last step are
moved by it (R402). -/
def qeSpeed (L : Lane) (n : Fin 2) : (Int × Nat) × Bool :=
  let q := vget L.quad n
  let t := L.now
  let fix (e : Edge) : Edge := { e with time := L.fixStamp e.time }
  let dir : Bool := L.is (Reg.QE_STAT_DIR n.val)
  match q.lastEdge.map fix with
  | none => ((0, 1), true)
  | some le =>
    if le.time + L.rd (Reg.QE_SPDCFG_STILL_T n.val) * 1000000 ≤ t then ((0, 1), true)
    else if le.back ≠ dir then ((0, 1), false)
    else
      let win := L.rd (Reg.QE_SPDCFG_SPD_WIN n.val) * 1000
      let qs := (q.edges.map fix).filter (fun e =>
        e.back == dir && decide (le.time ≤ e.time + win) && decide (L.fixStamp q.turnedAt ≤ e.time))
      match qs.getLast? with
      | none => ((0, 1), false)
      | some e0 =>
        let dc := le.count - e0.count
        let dtm := le.time - e0.time
        if dc = 0 then ((0, 1), false)
        else if dtm < (t - le.time) * dc.natAbs then ((if dc < 0 then -1 else 1, max 1 (t - le.time)), false)
        else ((dc, max 1 dtm), false)
/-- Compute the speed of an input (R228, R248). -/
def qeEval (n : Fin 2) (L : Lane) : Lane :=
  let v := L.qeSpeed n
  (L.wr (Reg.QE_SPD n.val) (uns 32 (floorFree .speed (v.1.1 * 1000000000) v.1.2))).wr (Reg.QE_STAT_STILL n.val) (b2n v.2)
/-- The electrical angle of an input (R223). -/
def qeAngle (L : Lane) (n : Fin 2) (r : SenseRec) : Word :=
  BitVec.ofNat 32 (L.rd (Reg.QE_MOD n.val) * r.polePairs * 2 ^ 32 / max 1 r.encCounts + L.rd (Reg.QE_OFS_OFS n.val) * 65536)
/-- The electrical speed of an input in rad/s (R233). -/
def qeElecSpeed (L : Lane) (n : Fin 2) (r : SenseRec) : Word :=
  let v := (L.qeSpeed n).1
  nearFp .speed (decide (v.1 < 0)) (v.1.natAbs * r.polePairs * 2 * piFix * 10 ^ 9) (v.2 * max 1 r.encCounts * 2 ^ 100)

/-! ### The resolver (R229, R230) -/

/-- Change the resolver interface. -/
def onRs (g : ResolverSt → ResolverSt) (L : Lane) : Lane := { L with resolver := g L.resolver }
/-- RS_0 fails until the next start (R229). -/
def rsFail (L : Lane) : Lane := if L.is Reg.QE_RS_STAT_FAIL then L else (L.set1 Reg.QE_RS_STAT_FAIL).srcFails 2
/-- One sample of both windings, as signed codes (R229). -/
def rsSample (s c : Int) (L : Lane) : Lane :=
  let amp := 65536 + sgn 16 (L.rd Reg.QE_RS_TRIM_AMP)
  let x := c * amp
  let y := s * 65536
  let exact := BitVec.ofNat 32 (angleOf x y)
  let p := BitVec.ofInt 32 (Config.freeOf .resolverAngle [s, c, amp])
  let ang := if circDist p exact ≤ 4096 then p else exact
  let sq := (x * x + y * y).toNat
  let root := isqrt sq
  let ampl := floorFree .amplitude (if root * root = sq then root * 2 else root * 2 + 1) 131072
  let nom := L.rd Reg.QE_RS_CFG_NOM * 65536
  let low : Bool := decide (16 * sq < 9 * nom * nom)
  let high : Bool := decide (25 * nom * nom < 16 * sq)
  let run := if low || high then L.resolver.outRun + 1 else 0
  let diff := if L.resolver.sampled then (ang - L.resolver.angle).toInt else sgn 32 (L.free .speed)
  let L := (L.onRs (fun _ => ⟨run, true, ang, diff, L.now⟩)).drawn
  let L := (L.wr Reg.QE_RS_ANG ang.toNat).wr Reg.QE_RS_STAT_AMPL (min 4095 ampl.toNat)
  let L := L.when (decide (3 ≤ run) && low) (fun L => (L.set1 Reg.QE_RS_STAT_LOW).rsFail)
  L.when (decide (3 ≤ run) && high) (fun L => (L.set1 Reg.QE_RS_STAT_HIGH).rsFail)
/-- The electrical angle of the winding from RS_0 (R230). -/
def rsAngle (L : Lane) (r : SenseRec) : Word :=
  BitVec.ofNat 32 (L.resolver.angle.toNat * r.polePairs / max 1 (L.rd Reg.QE_RS_CFG_RATIO))
/-- The electrical speed of the winding from RS_0 in rad/s (R229, R230). -/
def rsElecSpeed (L : Lane) (r : SenseRec) : Word :=
  nearFp .speed (decide (L.resolver.diff < 0)) (L.resolver.diff.natAbs * r.polePairs * r.resExc * 10 * 2 * piFix)
    (max 1 (L.rd Reg.QE_RS_CFG_RATIO) * 2 ^ 132)

/-! ### Shared readings (R233) -/

/-- The lane's own reading of a port's angle now (R225, R229, R233). -/
def ownReading (L : Lane) (p : Port) : Option SensorRecord :=
  let r := L.sense p
  let okv := !L.is (Reg.QE_VOTE_OWNFAIL p.val)
  let qe (n : Fin 2) : SensorRecord :=
    ⟨p, L.id, L.is (Reg.QE_STAT_ALIGNED n.val) && !L.is (Reg.QE_STAT_FAIL n.val) && okv, (L.qeSpeed n).2, n.val, L.qeAngle n r,
      L.now, L.qeElecSpeed n r⟩
  if nbit r.srcMask 0 then some (qe 0)
  else if nbit r.srcMask 1 then some (qe 1)
  else if nbit r.srcMask 2 then
    some ⟨p, L.id, L.resolver.sampled && !L.is Reg.QE_RS_STAT_FAIL && okv, decide (L.resolver.diff = 0), 2, L.rsAngle r,
      L.resolver.time, L.rsElecSpeed r⟩
  else none
/-- Change a port's vote state. -/
def onVp (p : Port) (g : VotePos → VotePos) (L : Lane) : Lane := { L with votePos := vupd L.votePos p g }
/-- At a period start the selected inputs compute their speed and the own reading is captured; it goes to both
neighbours where the port shares readings, but not in WINTER (R228, R233). -/
def capture (p : Port) (L : Lane) : Lane :=
  let L := L.each ((List.finRange 2).filter (fun n => nbit (L.sense p).srcMask n.val)) qeEval
  let r := L.ownReading p
  let L := L.onVp p (fun v => { v with own := r })
  match r with
  | some x => L.when (nbit (L.sense p).srcMask 3 && decide (L.svc ≠ 6)) (send (.sensor (.reading x)))
  | none => L
/-- A frame of the sensor class arrives (R233). -/
def sensorRx (s : Side) (f : SensorFrame) (L : Lane) : Lane :=
  match f with
  | .reading r => L.onVp r.port (fun v => { v with nb := vupd v.nb s.ix (fun _ => some r) })
  | .sentWord k w => L.wr (Reg.QE_SENT_NB k.val s.ix.val) w.toNat

/-! ### SENT (R231, R232) -/

/-- Three times the longest frame at TICK, in ns (R232; log entry 27). -/
def sentTimeoutNs (L : Lane) (s : Fin 2) : Nat :=
  3 * (if L.is (Reg.QE_SENT_CFG_PAUSE s.val) then 1040 else 272) * L.rd (Reg.QE_SENT_CFG_TICK s.val) * 100
/-- The data word of a frame from its status nibble and its data nibbles (R248). -/
def sentWordOf (L : Lane) (s : Fin 2) (status : Nat) (data : List Nat) : Nat :=
  (data.foldl (fun v d => v * 16 + d % 16) 0) + status % 16 * 2 ^ 24 + (L.rd (Reg.QE_SENT_DATA_CNT s.val) + 1) % 16 * 2 ^ 28
/-- An accepted frame (R231, R232, R233). -/
def sentAccept (s : Fin 2) (status : Nat) (data : List Nat) (L : Lane) : Lane :=
  let w := L.sentWordOf s status data
  let bits := ((nbit status 3, nbit status 2) :: (vget L.sent s).serial).take 18
  let msg := serialMessage (L.is (Reg.QE_SENT_CFG_CRC s.val)) bits
  let L := { L with sent := vupd L.sent s (fun x => { x with serial := if msg.isSome then [] else bits }) }
  let L := ((L.wr (Reg.QE_SENT_DATA_DATA s.val) (nbits w 0 24)).wr (Reg.QE_SENT_DATA_STATUS s.val) (nbits w 24 4)).wr
    (Reg.QE_SENT_DATA_CNT s.val) (nbits w 28 4)
  let L := ((L.clr (Reg.QE_SENT_STAT_TMO s.val)).restart (.sentFrame s)).irq (.sent s)
  let L := match msg with
    | some (id, d, fmt) => (((L.wr (Reg.QE_SENT_SER_ID s.val) id).wr (Reg.QE_SENT_SER_DATA s.val) d).wr
        (Reg.QE_SENT_SER_FORMAT s.val) fmt).set1 (Reg.QE_SENT_SER_NEW s.val)
    | none => L
  L.when (decide (L.svc ≠ 6)) (send (.sensor (.sentWord s (BitVec.ofNat 32 w))))
/-- A SENT frame ends (R231). -/
def sentRx (s : Fin 2) (f : SentFrame) (L : Lane) : Lane :=
  let nom := 56 * L.rd (Reg.QE_SENT_CFG_TICK s.val) * 100
  let far (x y : Nat) : Nat := max x y - min x y
  let syncBad := decide (nom < 5 * far f.syncNs nom) ||
    (match (vget L.sent s).prevSync with
     | some q => decide (q < 64 * far f.syncNs q)
     | none => false)
  let ticks := f.nibNs.toList.map (sentTicks f.syncNs)
  let nibBad := ticks.any (fun t => decide (t < 12 ∨ 27 < t))
  let nib := ticks.map (· - 12)
  let data := (nib.drop 1).take 6
  let crcBad := !nibBad && decide (nib.getD 7 0 ≠ sentCrc (L.is (Reg.QE_SENT_CFG_CRC s.val)) data)
  let L := { L with sent := vupd L.sent s (fun x => { x with prevSync := some f.syncNs }) }
  if syncBad || nibBad || crcBad then
    let L := { L with sent := vupd L.sent s (fun x => { x with serial := [] }) }
    (((L.when syncBad (set1 (Reg.QE_SENT_STAT_SYNCERR s.val))).when nibBad (set1 (Reg.QE_SENT_STAT_NIBERR s.val))).when
      crcBad (set1 (Reg.QE_SENT_STAT_CRCERR s.val))).count (Reg.QE_SENT_STAT_ERRCNT s.val) 1
  else L.sentAccept s (nib.getD 0 0) data

/-! ### The vote (R235 to R240) -/

/-- The time from a stamp to the period start of a port, both moved by a step that came after them (R235, R402). -/
def sinceStamp (L : Lane) (p : Port) (t : Nat) : Int := (L.fixStamp (L.de p.castSucc).psTime : Int) - L.fixStamp t
/-- A reading of a record moved on to the period start (R235). -/
def atStart (L : Lane) (p : Port) (r : SensorRecord) : Reading := ⟨moveAngle r.angle r.speed (L.sinceStamp p r.tcap), r.speed⟩
/-- The own reading, where it is valid (R225, R229, R235). -/
def voteOwn (L : Lane) (p : Port) : Option Reading :=
  match (vget L.votePos p).own with
  | some r => if r.valid && !L.ownFailed p && !L.is (Reg.QE_VOTE_OWNFAIL p.val) then some (L.atStart p r) else none
  | none => none
/-- A neighbour's reading, where it is valid (R235). -/
def voteNb (L : Lane) (p : Port) (s : Side) : Option Reading :=
  match vget (vget L.votePos p).nb s.ix with
  | some r =>
    let fresh := decide (2 * L.sinceStamp p r.tcap * L.rd (Reg.DE_PWM_INFO_FREQ p.val) ≤ 30000000)
    if nbit (L.sense p).srcMask 3 && r.valid && fresh then some (L.atStart p r) else none
  | none => none
/-- The HFI reading, where it is valid (R235, R259). -/
def voteHfi (L : Lane) (p : Port) : Option Reading :=
  match (vget L.votePos p).hfi with
  | some (a, v, t) =>
    if nbit (L.sense p).srcMask 4 && L.feature 3 && L.is (Reg.DE_MOT_STAT_HFICONV p.val) && !L.is (Reg.QE_VOTE_HFIFAIL p.val) &&
        fpAbsLt (BitVec.ofNat 32 (L.rd (Reg.QE_VSPD p.val))) ((L.sense p).hfiMax * (L.sense p).polePairs * 2 * piFix) (60 * 2 ^ 100)
    then some ⟨moveAngle a v (L.sinceStamp p t), v⟩ else none
  | none => none

/-- What a vote comes to: the angle and speed (none: unresolved), the sources used, the source outvoted, and whether at
least two agreeing sensors carry it; sources are own 0, previous 1, next 2, HFI 3. -/
structure Verdict where
  result : Option Reading
  used : List Nat
  outvoted : Option Nat
  agreeing : Bool
  deriving DecidableEq, Repr

/-- The median of three angles: the one between the other two on the shortest arc that holds all three (R236). -/
def medianOf (a b c : Reading) : Reading :=
  let ab := circDist a.ang b.ang
  let bc := circDist b.ang c.ang
  let ca := circDist c.ang a.ang
  if bc ≤ ab ∧ ca ≤ ab then c else if ab ≤ bc ∧ ca ≤ bc then a else b
/-- The mean of two readings. -/
def meanOf (a b : Reading) : Reading := ⟨circMean a.ang b.ang, meanSpeed a.spd b.spd⟩

/-- The table of R236. -/
def voteTable (tol xc : Nat) (ss : List (Nat × Reading)) (hfi : Option Reading) : Verdict :=
  let agree (a b : Reading) : Bool := decide (circDist a.ang b.ang ≤ tol * 65536)
  let near (a : Reading) : Bool := match hfi with
    | some h => decide (circDist a.ang h.ang ≤ xc * 65536)
    | none => false
  match ss with
  | [(i, a), (j, b), (k, c)] =>
    match agree a b, agree b c, agree c a with
    | true, false, false => ⟨some (meanOf a b), [i, j], some k, true⟩
    | false, true, false => ⟨some (meanOf b c), [j, k], some i, true⟩
    | false, false, true => ⟨some (meanOf a c), [i, k], some j, true⟩
    | false, false, false => ⟨none, [], none, false⟩
    | _, _, _ => ⟨some (medianOf a b c), [i, j, k], none, true⟩
  | [(i, a), (j, b)] =>
    if agree a b then ⟨some (meanOf a b), [i, j], none, true⟩
    else match near a, near b with
      | true, false => ⟨some a, [i], some j, false⟩
      | false, true => ⟨some b, [j], some i, false⟩
      | _, _ => ⟨none, [], none, false⟩
  | [(i, a)] => if hfi = none ∨ near a then ⟨some a, [i], none, false⟩ else ⟨none, [], none, false⟩
  | _ => match hfi with
    | some h => ⟨some h, [3], none, false⟩
    | none => ⟨none, [], none, false⟩

/-- A set of small numbers as a mask. -/
def maskOf (xs : List Nat) : Nat := xs.foldl (fun v x => v + 2 ^ x) 0

/-- The sector and the commutation count (R240). -/
def commutate (p : Port) (a : Word) (L : Lane) : Lane :=
  let x := a.toNat * 6
  let s := x / 2 ^ 32
  let L := L.wr (Reg.QE_VOTE_SECT p.val) s
  let inside := decide (6 * 2 ^ 25 < x - s * 2 ^ 32) && decide (6 * 2 ^ 25 < (s + 1) * 2 ^ 32 - x)
  if s ≠ (vget L.votePos p).sect ∧ inside then
    (L.onVp p (fun v => { v with sect := s })).countMod (Reg.QE_COMM_COMM p.val) 1
  else L
/-- A run of consecutive votes in which something holds reaches its limit. -/
def runNext (b : Bool) (run : Nat) : Nat := if b then run + 1 else 0

/-- The vote of a port (R235 to R241). -/
def votePort (p : Port) (L : Lane) : Lane :=
  let own := L.voteOwn p
  let prev := L.voteNb p .prev
  let next := L.voteNb p .next
  let hfi := L.voteHfi p
  let ss := (own.map (fun r => (0, r))).toList ++ (prev.map (fun r => (1, r))).toList ++ (next.map (fun r => (2, r))).toList
  let v := voteTable (L.rd (Reg.QE_VTOL_VOTE_TOL p.val)) (L.rd (Reg.QE_VTOL_HFI_XCHECK p.val)) ss hfi
  let last : Reading := ⟨BitVec.ofNat 32 (L.rd (Reg.QE_VANG p.val)), BitVec.ofNat 32 (L.rd (Reg.QE_VSPD p.val))⟩
  let freq := max 1 (L.rd (Reg.DE_PWM_INFO_FREQ p.val))
  let res := match v.result with
    | some r => r
    | none => ⟨moveAngleBy last.ang last.spd 10000000 freq, last.spd⟩
  let st := vget L.votePos p
  let outRun := runNext (decide (v.outvoted = some 0)) st.outRun
  let unresRun := runNext v.result.isNone st.unresRun
  let hfiFar := match hfi with
    | some h => v.agreeing && decide (L.rd (Reg.QE_VTOL_HFI_XCHECK p.val) * 65536 < circDist h.ang res.ang)
    | none => false
  let hfiRun := runNext hfiFar st.hfiRun
  let rep (r : Option Reading) : List Word := match r with
    | some x => [x.ang, x.spd]
    | none => [0, 0]
  let ownPort : List Word := match st.own with
    | some r => [(L.atStart p r).ang, r.speed]
    | none => [0, 0]
  let ports := ownPort ++ rep prev ++ rep next ++ rep hfi
  let L := L.onVp p (fun x => { x with outRun := outRun, unresRun := unresRun, hfiRun := hfiRun,
                                       ports := Vector.ofFn (fun (k : Fin 8) => ports.getD k.val 0) })
  let L := (L.wr (Reg.QE_VANG p.val) res.ang.toNat).wr (Reg.QE_VSPD p.val) res.spd.toNat
  let L := (L.wr (Reg.QE_VOTE_SRCVAL p.val) (maskOf (ss.map (·.1)) + b2n hfi.isSome * 8)).wr (Reg.QE_VOTE_USED p.val) (maskOf v.used)
  let L := (L.wr (Reg.QE_VOTE_OUTV p.val) (maskOf v.outvoted.toList)).wr (Reg.QE_VOTE_UNRES p.val) (b2n v.result.isNone)
  let L := L.wr (Reg.QE_VOTE_STILL p.val) (b2n (decide (res.spd = 0 ∨ res.spd = 0x80000000)))
  let L := (L.when v.result.isNone (count (Reg.QE_COMM_UNRESCNT p.val) 1)).commutate p res.ang
  let L := L.when (decide (L.rd (Reg.QE_VOTE_CFG_OUTV_N p.val) ≤ outRun) && !L.is (Reg.QE_VOTE_OWNFAIL p.val))
    (fun L => (L.set1 (Reg.QE_VOTE_OWNFAIL p.val)).sensorLoss p)
  let L := L.when (decide (L.rd (Reg.QE_VOTE_CFG_HFI_N p.val) ≤ hfiRun) && !L.is (Reg.QE_VOTE_HFIFAIL p.val))
    (fun L => (L.set1 (Reg.QE_VOTE_HFIFAIL p.val)).fire (147 + p.val))
  let L := L.when (decide (L.rd (Reg.QE_VOTE_CFG_UNRES_MAX p.val) ≤ unresRun)) (fire (150 + p.val))
  L.raise p.castSucc 4

end Lane

/-! ### The commands -/

/-- QE_COUNTING_EDGE: received levels of A and B that have stood for so many filter clocks (R221, R222, R223, R226, R227). -/
def execQeCountingEdge (l : LaneId) (n : Fin 2) (dt : Nat) (a b : Bool) (heldA heldB : Nat) (s : State) :
    Host.Outcome State Fault Refusal :=
  onLane l (fun L =>
    let L := L.pass dt
    let q := vget L.quad n
    L.when L.firmware (Lane.quadSample n false (L.filtered n q.a a heldA) (L.filtered n q.b b heldB))) s

/-- QE_QUALIFIED_INDEX: Z has risen and stood for `heldZ` filter clocks, with A and B at these levels; an edge in the same filter clock
counts first and gives the loaded value (R221, R224). -/
def execQeQualifiedIndex (l : LaneId) (n : Fin 2) (dt : Nat) (a b : Bool) (heldA heldB heldZ : Nat) (s : State) :
    Host.Outcome State Fault Refusal :=
  onLane l (fun L =>
    let L := L.pass dt
    let q := vget L.quad n
    let fa := L.filtered n q.a a heldA
    let fb := L.filtered n q.b b heldB
    let rises := L.filtered n false true heldZ
    L.when L.firmware (fun L =>
      (L.quadSample n (rises && L.indexOk n fa fb && L.indexLoads n) fa fb).when rises (Lane.indexEdge n fa fb))) s

/-- QE_WIRE_DISAGREEMENT: 160 ns of equal levels on the two wires of a line (R220). -/
def execQeWireDisagreement (l : LaneId) (n : Fin 2) (line : Fin 3) (s : State) : Host.Outcome State Fault Refusal :=
  onLane l (fun L => L.when L.firmware (fun L => (L.wrBit (Reg.QE_STAT_WIRE n.val) line.val true).qeFail n)) s

/-- QE_SPEED_EVAL: an input that no port selects computes its speed every 100 µs (R228). -/
def execQeSpeedEval (l : LaneId) (n : Fin 2) (dt : Nat) (s : State) : Host.Outcome State Fault Refusal :=
  onLane l (fun L =>
    let L := L.pass dt
    L.when (L.firmware && decide (L.portOfSrc n.val = none)) (Lane.qeEval n)) s

/-- RESOLVER_SAMPLE: RS_0 samples both windings at the excitation peak, as signed converter codes (R229). -/
def execResolverSample (l : LaneId) (dt : Nat) (sine cosine : BitVec 12) (s : State) : Host.Outcome State Fault Refusal :=
  onLane l (fun L =>
    let L := L.pass dt
    L.when (L.firmware && (L.portOfSrc 2).isSome) (Lane.rsSample sine.toInt cosine.toInt)) s

/-- RESOLVER_EXCITATION_FAULT: the excitation output is shorted or open (R229); an RS_0 that no SENSE record selects drives none and checks
none (R567). -/
def execResolverExcitationFault (l : LaneId) (s : State) : Host.Outcome State Fault Refusal :=
  onLane l (fun L => L.when (L.firmware && (L.portOfSrc 2).isSome) (fun L => (L.set1 Reg.QE_RS_STAT_EXCF).rsFail)) s

/-- SENT_FRAME_RX: a SENT frame ends; an input that is off accepts none (R72, R231, R232). -/
def execSentFrameRx (l : LaneId) (sn : Fin 2) (f : SentFrame) (s : State) : Host.Outcome State Fault Refusal :=
  onLane l (fun L => L.when (L.firmware && decide (L.rd (Reg.QE_SENT_CFG_TICK sn.val) ≠ 0)) (Lane.sentRx sn f)) s

/-- SENT_TIMEOUT: no frame has been accepted for three frame lengths (R232, R359). -/
def execSentTimeout (l : LaneId) (dt : Nat) (sn : Fin 2) (s : State) : Host.Outcome State Fault Refusal :=
  onLane l (fun L =>
    let L := L.pass dt
    L.when (L.firmware && decide (L.rd (Reg.QE_SENT_CFG_TICK sn.val) ≠ 0) && L.due (.sentFrame sn) (L.sentTimeoutNs sn))
      (fun L => (L.set1 (Reg.QE_SENT_STAT_TMO sn.val)).fire (139 + sn.val))) s

/-- SENSOR_RECORD_RX: a sensor record or SENT word of a neighbour (R233). -/
def execSensorRecordRx (l : LaneId) (sd : Side) (r : SensorFrame) (s : State) : Host.Outcome State Fault Refusal :=
  onLane l (fun L => L.when L.firmware (fun L => (L.linkHeard sd).sensorRx sd r)) s

/-- POSITION_VOTE: 0.5 µs after a period start of a port with a present function (R235). -/
def execPositionVote (l : LaneId) (p : Port) (s : State) : Host.Outcome State Fault Refusal :=
  onLane l (fun L => L.when (L.firmware && (L.funcOfPort p).isSome) (Lane.votePort p)) s

end Sys2Proof.Machine
end

