-- ==== Sys2Proof/Machine/Motor.lean ====
section
/-! DEFINITION. The motor supervisor: the motor window, the reversal rule, the state table, the locked rotor: rows
MOTOR_SUPERVISOR_EVAL and LOCKED_ROTOR_TIMEOUT of the table (R249 to R266). -/

namespace Sys2Proof.Machine

/-- √3 × 2^100, cut to a whole number. -/
def sqrt3Fix : Nat := isqrt (3 * 2 ^ 200)
/-- The states of a motor supervisor (R269). -/
def msOff : Nat := 0
def msCatch : Nat := 1
def msSync : Nat := 2
def msRun : Nat := 3
def msStall : Nat := 4
def msAsc : Nat := 5

namespace Lane

/-- A parameter of the port's motor as an exact value. -/
def motVal (L : Lane) (p : Port) (f : Nat → Fld) : Option Dy := dyOf (BitVec.ofNat 32 (L.rd (f p.val)))
/-- A register of the port as a word. -/
def portWord (L : Lane) (p : Port) (f : Nat → Fld) : Word := BitVec.ofNat 32 (L.rd (f p.val))
/-- The state of the supervisor (R269). -/
def motState (L : Lane) (p : Port) : Nat := L.rd (Reg.DE_MOT_STAT_STATE p.val)
/-- Set the state of the supervisor. -/
def setMot (p : Port) (v : Nat) (L : Lane) : Lane := L.wr (Reg.DE_MOT_STAT_STATE p.val) v
/-- VDC of the window (R250): general ADC input 9 at 96.0 V full scale. -/
def vdcWord (L : Lane) : Word := fpRat (L.rd (Reg.CS_GRES_CODE 9) * 96) 4096
/-- VLIM of the window: MMAX × VDC / √3 (R250). -/
def vlimWord (L : Lane) (p : Port) : Word :=
  match L.motVal p Reg.DE_MOT_MMAX with
  | some a =>
    let n := a.m.natAbs * L.rd (Reg.CS_GRES_CODE 9) * sqrt3Fix
    if 0 ≤ a.e then nearFp .standard false (n * 2 ^ a.e.toNat) (128 * 2 ^ 100)
    else nearFp .standard false n (128 * 2 ^ 100 * 2 ^ (-a.e).toNat)
  | none => 0
/-- The limit in STALL: LRI, 0 standing for half of IMAX, and at most IMAX (R271). -/
def lriWord (L : Lane) (p : Port) : Word :=
  let imax := L.portWord p Reg.DE_MOT_IMAX
  let lri := L.portWord p Reg.DE_MOT_LRI
  if (dyOf lri).any (fun d => decide (d.m = 0)) then fmul imax 0x3F000000 else if fpLt imax lri then imax else lri
/-- The period index k of R167 whose grid point lies nearest to the last period start. -/
def periodIndex (L : Lane) (n : Engine) : Int := L.gridIndex n (L.de n).psTick
/-- The magnitude of a word is at least a value; that of an infinity is at least every value. -/
def magGe (w : Word) (v : Option Dy) : Bool :=
  match fpOf w with
  | .inf _ => v.isSome
  | .fin _ _ _ => dyLe v ((dyOf w).map dyAbs)
  | .nan => false

/-- HFIRUN: injection runs (R257). -/
def hfiRuns (L : Lane) (p : Port) : Bool :=
  L.hfiOn p && (L.motState p == msRun || L.motState p == msStall) &&
    fpAbsLt (L.portWord p Reg.QE_VSPD) (5 * (L.sense p).hfiMax * (L.sense p).polePairs * 2 * piFix) (4 * 60 * 2 ^ 100)

/-- The sixteen parameter registers in the order of R271. -/
def motParams : List (Nat → Fld) :=
  [Reg.DE_MOT_RS, Reg.DE_MOT_LD, Reg.DE_MOT_LQ, Reg.DE_MOT_PSI, Reg.DE_MOT_IMAX, Reg.DE_MOT_IDMAX, Reg.DE_MOT_MMAX,
   Reg.DE_MOT_REVTHR, Reg.DE_MOT_LRTRQ, Reg.DE_MOT_LRI, Reg.DE_MOT_CLBW, Reg.DE_MOT_CATCHTOL, Reg.DE_MOT_VMIN,
   Reg.DE_MOT_SYNCI, Reg.DE_MOT_HFIV, Reg.DE_MOT_HFIBW]
/-- MSTATE of the window (R250). -/
def mstate (L : Lane) (p : Port) : Nat :=
  let m := vget L.motor p
  L.motState p + 8 * L.rd (Reg.DE_MOT_STAT_DIR p.val) + 16 * b2n m.refused + 32 * b2n (m.tzero || m.refused) +
    64 * L.rd (Reg.DE_MOT_STAT_HFIRUN p.val) + 128 * b2n m.charge
/-- The downward words of the window from 0xFF00 on (R250). -/
def downWords (L : Lane) (p : Port) : List Word :=
  [BitVec.ofNat 32 (L.mstate p), L.vdcWord, L.vlimWord p,
   if L.motState p = msStall then L.lriWord p else L.portWord p Reg.DE_MOT_IMAX,
   BitVec.ofInt 32 (L.periodIndex p.castSucc), 0, 0, 0] ++ motParams.map (L.portWord p) ++ List.replicate 8 0
/-- The supervisor writes the downward words (R250). -/
def writeDown (p : Port) (L : Lane) : Lane :=
  let ws := L.downWords p
  L.onDe p.castSucc (fun e =>
    { e with dm := Tab.putList (0 : Byte) e.dm 0xFF00 (ws.flatMap (fun w => leBytes 4 w.toNat)) })

/-- The reversal rule at a latch in RUN or STALL with DIRMODE 1 (R260). -/
def judgeReversal (p : Port) (L : Lane) : Lane :=
  let active := L.motState p == msRun || L.motState p == msStall
  let opposes := match fpOf (L.refView p.castSucc).tot with
    | .fin s m _ => decide (m ≠ 0) && (s != L.is (Reg.DE_MOT_STAT_DIR p.val))
    | .inf s => s != L.is (Reg.DE_MOT_STAT_DIR p.val)
    | .nan => false
  if L.is (Reg.DE_MOT_CFG_DIRMODE p.val) && active && opposes then
    if dyLt ((L.motVal p Reg.QE_VSPD).map dyAbs) (L.motVal p Reg.DE_MOT_REVTHR) then
      (L.wr (Reg.DE_MOT_STAT_DIR p.val) (1 - L.rd (Reg.DE_MOT_STAT_DIR p.val))).onMot p (fun m => { m with refused := false })
    else
      ((L.set1 (Reg.DE_MOT_STAT_REVREF p.val)).count (Reg.DE_MOT_STAT_REVCNT p.val) 1).onMot p
        (fun m => { m with refused := true })
  else L.onMot p (fun m => { m with refused := false })

/-! ### The state table (R261 to R266) -/

/-- A new catch (R262). -/
def newCatch (p : Port) (L : Lane) : Lane :=
  (L.setMot p msCatch).onMot p (fun m => { m with force := 1, charge := false, tzero := true, periods := 0, syncRun := 0 })
/-- CHARGE begins (R265). -/
def newSync (p : Port) (L : Lane) : Lane :=
  (L.setMot p msSync).onMot p (fun m => { m with force := 1, charge := true, tzero := true, periods := 0, syncRun := 0 })
/-- The supervisor is in OFF; the BRIDGE 2 of ASC stays forced until the next start (R266). -/
def motOff (p : Port) (L : Lane) : Lane :=
  let v := if L.motState p = msAsc then 2 else 0
  (L.setMot p msOff).onMot p (fun m => { m with force := v, charge := false, tzero := true, refused := false })
/-- A failed attempt (R266). -/
def motFail (p : Port) (L : Lane) : Lane :=
  let t := L.rd (Reg.DE_MOT_STAT_CATCHTRY p.val) + 1
  let L := (L.set1 (Reg.DE_MOT_STAT_CATCHF p.val)).wr (Reg.DE_MOT_STAT_CATCHTRY p.val) t
  if t < L.rd (Reg.DE_MOT_CFG_CATCH_RETRY p.val) then L.newCatch p
  else ((L.motOff p).portTurnOff p).fire (80 + p.val)
/-- |REF_SH| is at least LRTRQ (R261). -/
def atTorque (L : Lane) (p : Port) : Bool :=
  magGe (L.refSh p.castSucc) (L.motVal p Reg.DE_MOT_LRTRQ)
/-- COMM has changed since the last evaluation. -/
def commMoved (L : Lane) (p : Port) : Bool := decide (L.rd (Reg.QE_COMM_COMM p.val) ≠ (vget L.motor p).lastComm)

/-- Whether the last vote of a port is resolved (R263). -/
def resolved (L : Lane) (p : Port) : Bool := !L.is (Reg.QE_VOTE_UNRES p.val)
/-- Verdict overspeed (R263): the amplitude reaches VLIM, or in DIRMODE 1 the speed reaches VLIM / (ψ − L_d × IDMAX). -/
def overspeed (L : Lane) (p : Port) (u : Vector Word 9) : Bool :=
  if L.is (Reg.DE_MOT_CFG_DIRMODE p.val) then
    let den := (L.motVal p Reg.DE_MOT_PSI).bind (fun a => (L.motVal p Reg.DE_MOT_LD).bind (fun b =>
      (L.motVal p Reg.DE_MOT_IDMAX).map (fun c => dySub a (dyMul b c))))
    match fpOf (vget u 2) with
    | .inf _ => true
    | _ => dyLe (dyOf (L.vlimWord p)) ((dyOf (vget u 2)).bind (fun s => den.map (fun d => dyMul (dyAbs s) d)))
  else !nbit (vget u 3).toNat 31 && magGe (vget u 3) (dyOf (L.vlimWord p))
/-- Verdict agreement (R263). -/
def catchAgrees (L : Lane) (p : Port) (u : Vector Word 9) : Bool :=
  let spd := L.motVal p Reg.QE_VSPD
  let d := (dyOf (vget u 2)).bind (fun a => spd.map (fun b => dyScale 10 (dyAbs (dySub a b))))
  let lim := spd.bind (fun a => (L.motVal p Reg.DE_MOT_REVTHR).map (fun b => dySub (dyAbs a) (dyScale (-10) b)))
  L.resolved p && decide (circDist (vget u 1) (L.portWord p Reg.QE_VANG) ≤ L.rd (Reg.DE_MOT_CATCHTOL p.val) * 65536) && dyLe d lim
/-- DIR after verdict agreement (R266). -/
def catchDir (p : Port) (u : Vector Word 9) (L : Lane) : Lane :=
  if L.is (Reg.DE_MOT_CFG_DIRMODE p.val) && magGe (vget u 2) (L.motVal p Reg.DE_MOT_REVTHR) then
    L.wr (Reg.DE_MOT_STAT_DIR p.val) (b2n (nbit (vget u 2).toNat 31))
  else L

/-- An evaluation in CATCH (R263, R266). -/
def evalCatch (p : Port) (snap : Option (Vector Word 9)) (L : Lane) : Lane :=
  let k := (vget L.motor p).periods + 1
  let L := L.onMot p (fun m => { m with periods := k })
  match snap.filter (fun u => nbit (vget u 0).toNat 0) with
  | some u =>
    if nbit (vget u 0).toNat 1 && L.resolved p then L.newSync p
    else if L.overspeed p u then (L.set1 (Reg.DE_MOT_STAT_OVSPD p.val)).newCatch p
    else if L.catchAgrees p u then (L.catchDir p u).newSync p
    else L.motFail p
  | none => if L.rd (Reg.DE_MOT_CFG_CATCH_N p.val) + 8 ≤ k then L.motFail p else L
/-- An evaluation in SYNC; a joining lane sends its join notice when the port enters RUN (R265, R266, R596). -/
def evalSync (p : Port) (snap : Option (Vector Word 9)) (L : Lane) : Lane :=
  let m := vget L.motor p
  let k := m.periods + 1
  if m.charge then
    if nbits (L.rd Reg.GD_STAT_BSTOK) (3 * p.val) 3 = 7 then
      L.onMot p (fun m => { m with charge := false, force := 0, periods := 0, syncRun := 0 })
    else if 16 ≤ k then L.motFail p else L.onMot p (fun m => { m with periods := k })
  else
    let run := match snap with
      | some u => runNext (nbit (vget u 0).toNat 2) m.syncRun
      | none => 0
    let n := L.rd (Reg.DE_MOT_CFG_SYNC_N p.val)
    if n ≤ run then
      let L := ((L.setMot p msRun).wr (Reg.DE_MOT_STAT_CATCHTRY p.val) 0).onMot p
        (fun m => { m with tzero := false, periods := 0, syncRun := 0 })
      L.each ((L.funcOfPort p).toList.filter (fun f => L.start.joined && !(L.fn f).joinSent)) joinNotice
    else if 4 * n ≤ k then L.motFail p else L.onMot p (fun m => { m with periods := k, syncRun := run })
/-- The locked-rotor count at an evaluation (R261): it restarts when COMM has changed or the torque is low, runs on in RUN and stands in
every other state. -/
def lockedCount (p : Port) (L : Lane) : Lane :=
  let low := !L.atTorque p
  let L := L.when (L.commMoved p || low) (fun L => (L.wr (Reg.DE_MOT_LRCNT p.val) 0).stop (.lockedRotor p))
  if low || decide (L.motState p ≠ msRun) then L.stop (.lockedRotor p)
  else
    let L := L.when (!L.running (.lockedRotor p)) (fun L =>
      L.setTimer (.lockedRotor p) (L.el - L.rd (Reg.DE_MOT_LRCNT p.val) * 10000))
    L.wr (Reg.DE_MOT_LRCNT p.val) (min (2 ^ 32 - 1) ((L.el - (L.timerAt (.lockedRotor p)).getD L.el) / 10000))
/-- An evaluation in STALL (R266). -/
def evalStall (p : Port) (L : Lane) : Lane :=
  let L := if L.atTorque p then L.stop (.lrLow p) else L.start1 (.lrLow p)
  if L.commMoved p || L.due (.lrLow p) (L.rd (Reg.DE_MOT_CFG_LR_T p.val) * 10000000) then (L.setMot p msRun).stop (.lrLow p)
  else L

/-- One evaluation of the state table, rows in order (R249, R266). -/
def motEval (p : Port) (L : Lane) : Lane :=
  let st := L.motState p
  let snap := (L.de p.castSucc).upSnap
  let L := L.onDe p.castSucc (fun e => { e with upSnap := none })
  let en := L.bitOf Reg.GD_STAT_EN p.val
  let L' :=
    if st ≠ msOff ∧ ¬en then L.motOff p
    else if 1 ≤ st ∧ st ≤ 4 ∧ L.bitOf Reg.LG_PORT_WHOLD p.val then (L.setMot p msAsc).onMot p (fun m => { m with force := 2, charge := false })
    else if st = msOff ∧ en then (L.newCatch p).wr (Reg.DE_MOT_STAT_DIR p.val) 0
    else if st = msCatch then L.evalCatch p snap
    else if st = msSync then L.evalSync p snap
    else if st = msStall then L.evalStall p
    else L
  (L'.lockedCount p).onMot p (fun m => { m with lastComm := L'.rd (Reg.QE_COMM_COMM p.val) })

/-- A locked rotor is recognised (R261, R266). -/
def lockedRotor (p : Port) (L : Lane) : Lane :=
  let L := ((L.set1 (Reg.DE_MOT_STAT_STALLED p.val)).stop (.lockedRotor p)).wr (Reg.DE_MOT_LRCNT p.val)
    (L.rd (Reg.DE_MOT_CFG_LR_T p.val) * 1000)
  let L := if L.is (Reg.DE_MOT_CFG_LR_ACT p.val) then (L.motOff p).portTurnOff p else (L.setMot p msStall).stop (.lrLow p)
  L.fire (76 + p.val)

end Lane

/-! ### The commands -/

/-- MOTOR_SUPERVISOR_EVAL: 0.6 µs after each period start, after its vote (R249). -/
def execMotorSupervisorEval (l : LaneId) (p : Port) (s : State) : Host.Outcome State Fault Refusal :=
  onLane l (fun L => L.when L.firmware (Lane.motEval p)) s

/-- LOCKED_ROTOR_TIMEOUT: the locked-rotor count has reached LR_T in RUN (R261). -/
def execLockedRotorTimeout (l : LaneId) (dt : Nat) (p : Port) (s : State) : Host.Outcome State Fault Refusal :=
  onLane l (fun L =>
    let L := L.pass dt
    L.when (decide (L.motState p = msRun) && L.due (.lockedRotor p) (L.rd (Reg.DE_MOT_CFG_LR_T p.val) * 10000000))
      (Lane.lockedRotor p)) s

end Sys2Proof.Machine
end

