-- ==== Sys2Proof/Machine/Pwm.lean ====
section
/-! DEFINITION. The carrier and what happens at its valley and peak: loads, overruns, bootstrap refresh, carrier lock, the
latch of the reference intake, entry to SERVICE: rows PWM_PERIOD_START to CARRIER_UNLOCK_TIMEOUT of the table (R30, R49 to
R51, R167 to R178, R195, R209, R228, R233, R249). -/

namespace Sys2Proof.Machine

namespace Lane

/-! ### Entry to SERVICE (R30, R49 to R51) -/

/-- Every function of the lane has taken its first reference at each of its intakes (R30, R163). -/
def allTaken (L : Lane) : Bool :=
  L.functions.all (fun f => (L.intakesOf f).all (fun n => (L.intake n f).taken))
/-- A restored Autumn record takes effect; a function in Autumn already goes on with the smaller time (R51, R110). -/
def restoredAutumn (f : Func) (L : Lane) : Lane :=
  let r := vget L.ret.autumn f.ix
  if !r.was then L
  else if r.ms = 0 then L.winter f 8
  else
    let L := L.enterAutumn f 7 r.ms
    L.when (decide (L.mode f = 1) && decide (r.ms < L.autumnLeft f)) (setTimer (.autumn f) (L.el + r.ms * 1000000))
/-- A joining lane becomes arbiter (R50). -/
def joinRole (f : Func) (L : Lane) : Lane :=
  let c := L.id.code
  let free (g : Nat → Fld) : Bool := decide (L.rd (g f.code) = 3)
  (if free Reg.ROLE_FUNC_ACT then L.wr (Reg.ROLE_FUNC_ACT f.code) c
   else if free Reg.ROLE_FUNC_STB then L.wr (Reg.ROLE_FUNC_STB f.code) c
   else L.wr (Reg.ROLE_FUNC_ARB f.code) c).setOwnRole f
/-- The lane enters SERVICE, or AUTUMN where a function is in Autumn (R30, R49, R50, R51, R115). -/
def enterService (L : Lane) : Lane :=
  let fs := L.functions.filter L.serves
  let L := L.when L.start.joined (fun L => L.each fs joinRole)
  let L := L.setSvc 4
  let L := L.each fs restoredAutumn
  let L := L.each (if L.start.twoLane && !L.start.joined then fs.filter (fun f => decide ((L.servingSet f).length < 3)) else []) (fun f => autumn f 1)
  let L := L.each (fs.filter L.sensorLost) (fun f => autumn f 3)
  L.settleSvc

/-! ### The reference intake (R176 to R178, R187) -/

/-- A port of the lane has been started: its motor supervisor is in RUN or STALL; DE_3 only has to run (R30, R163). -/
def started (L : Lane) (n : Engine) : Bool :=
  match portOfEngine n with
  | some p => L.motState p == msRun || L.motState p == msStall
  | none => L.is (Reg.DE_CTRL_RUN n.val)
/-- One latch of one function at a period start (R176 to R178). -/
def latchFn (n : Engine) (f : Func) (L : Lane) : Lane :=
  if !L.serves f then L
  else
    let i := L.intake n f
    let i := match i.nextShare with
      | some (v, t) => if t ≤ L.el then { i with share := v, nextShare := none } else i
      | none => i
    let late := i.waiting.filter (fun r => decide (L.el ≤ r.2 + 100))
    match i.waiting.find? (fun r => decide (r.2 + 100 < L.el)) with
    | some (r, _) =>
      let i := { i with latched := some r, isNew := true, holding := false, waiting := late, taken := i.taken || L.started n }
      (L.onDe n (fun e => { e with intake := vupd e.intake f.ix (fun _ => i) })).restart (.hold n f)
    | none =>
      let i := { i with isNew := false, holding := true, waiting := late,
                        taken := i.taken || (i.latched.isSome && L.started n) }
      L.onDe n (fun e => { e with intake := vupd e.intake f.ix (fun _ => i) })
/-- The latch of an engine's intake, REF 20 ns later (R166, R176). -/
def latch (n : Engine) (L : Lane) : Lane := (L.each (L.intakeFuncs n) (latchFn n)).raise n 5

/-! ### Loads (R169, R171, R195) -/

/-- A load point passes: a counted COMMIT takes effect, or an overrun is counted, which halts a running engine at OVR_MAX in succession
(R161, R169). -/
def loadPoint (n : Engine) (peak : Bool) (L : Lane) : Lane :=
  let e := L.de n
  let next (e : EngineSt) : EngineSt :=
    { e with counted := e.late, committed := if e.late then e.latePat else e.committed, late := false }
  if e.counted then
    L.onDe n (fun e => next { e with active := if peak then atPeak e.active e.committed else e.committed, ovrRun := 0 })
  else
    let run := e.ovrRun + 1
    let L := (L.count (Reg.DE_OVR_OVERRUN n.val) 1).onDe n (fun e => next { e with ovrRun := run })
    L.when (L.is (Reg.DE_CTRL_RUN n.val) && decide (L.rd (Reg.DE_OVR_OVR_MAX n.val) ≤ run)) (halt n 6)

/-- How long the low side of a phase was on in the period that ends, in fine ticks (R168, R170, R171). -/
def lowTime (L : Lane) (p : Port) (x : Fin 3) : Int :=
  let b : Fin 18 := Fin.ofNat 18 (6 * p.val + 2 * x.val + 1)
  let t := (L.de p.castSucc).period
  if L.patternRules p then (L.waves p).lowOn x 0 t else if L.asked b 0 then t else 0
/-- A period ends: the refresh counts, a pulse around this start resetting its phase's (R171), the record of the period, and the BRIDGE
value that the supervisor forces from now on (R249). -/
def periodEnds (p : Port) (L : Lane) : Lane :=
  let n := p.castSucc
  let m := L.rd (Reg.DE_PWM_BOOT_BOOT_N n.val)
  let old := L.cycleOf p
  let now := L.comingOf p
  let low : Vector Int 3 := Vector.ofFn (fun x => L.lowTime p x)
  let c (x : Fin 3) : Nat :=
    if vget now.refresh x then 0
    else if vget low x < L.rd (Reg.DE_PWM_BOOT_BOOT_W n.val) then vget (L.de n).boot x + 1 else 0
  let boot : Vector Nat 3 := Vector.ofFn c
  (L.onDe n (fun e => { e with
    boot := boot, refresh := Vector.ofFn (fun x => decide (m ≠ 0) && decide (m ≤ vget boot x)),
    refreshed := now.refresh, charged := now.charge, last := old })).onMot p (fun y => { y with inForce := y.force })

/-! ### The carrier (R167, R173, R174) -/

/-- The carrier compares its period start, at `t`, with the grid and fixes the length of the coming period (R167, R173). -/
def lockCarrier (n : Engine) (t : Int) (L : Lane) : Lane :=
  let k := L.gridIndex n t
  let err := t - L.gridTick n k
  let slew : Int := L.rd (Reg.DE_PWM_LOCK_SLEW n.val)
  let L := (L.wr (Reg.DE_PWM_LOCK_STATE n.val) (if err.natAbs ≤ 1 then 2 else 1)).wr (Reg.DE_PWM_LOCK_ERR n.val)
    (uns 16 (clampI (-32767) 32767 err))
  let period := L.gridTick n (k + 1) - L.gridTick n k - clampI (-slew) slew err
  L.onDe n (fun e => { e with period := period, psTick := t, psTime := tickNs t })

/-- A conversion goes behind those whose trigger came before it, in the same cycle those of lower engines (R209). -/
def adcPut (x : AdcSlot) : List AdcSlot → List AdcSlot
  | [] => [x]
  | y :: r =>
    let a := x.time * 3 / 40
    let b := y.time * 3 / 40
    if b < a ∨ (b = a ∧ y.engine ≤ x.engine) then y :: adcPut x r else x :: y :: r
/-- A trigger of the engine's general ADC sequence at `t` (R209, R218): 1 at PS, 2 at PM. -/
def adcTrigger (n : Engine) (edge : Nat) (t : Int) (L : Lane) : Lane :=
  let g := L.rd (Reg.CS_GSEQ1_TRIG n.val)
  let m := L.rd (Reg.CS_GSEQ1_LEN n.val)
  L.when (g == edge || g == 3) (fun L =>
    { L with gen := { L.gen with queue := (List.range (m + 1)).foldl (fun q k => adcPut ⟨t, n, k, decide (k = m)⟩ q) L.gen.queue } })

/-! ### Halves and their samples (R194, R198, R203) -/

/-- A sample point that is taken: not 0, in its half, SP2 and SP3 only with LOOP 1 (R194). -/
def sampleOn (L : Lane) (p : Port) (k : Fin 4) : Bool :=
  let e := L.de p.castSucc
  let v := vget e.active.sp k
  let h := risingHalf e.period
  if k.val < 2 then decide (v < 0) && decide (-(h : Int) ≤ v)
  else decide (0 < v) && decide (v ≤ (e.period.toNat - h : Nat)) && L.loops p.castSucc
/-- A half whose pair allows no reconstruction is lost (R198, R203); `k` is its later sample. -/
def judgeHalf (p : Port) (k : Fin 4) (L : Lane) : Lane :=
  let x := vget L.shunt p
  let j : Fin 4 := Fin.ofNat 4 (k.val - 1)
  let a := vget x.word j
  let b := vget x.word k
  let ok := vget x.taken j && vget x.taken k && nbit a 6 && nbit b 6 && decide (nbits a 7 2 ≠ nbits b 7 2)
  if !L.bitOf Reg.GD_STAT_EN p.val || decide (L.bridgeNow p ≠ 0) then L
  else
    let run := if ok then 0 else x.lostRun + 1
    let L := ({ L with shunt := vupd L.shunt p (fun y => { y with lostRun := run }) }).when (!ok) (count (Reg.CS_STAT_LOST p.val) 1)
    L.when (decide (L.rd (Reg.CS_CFG_MISS_MAX p.val) ≤ run)) (fun L => (L.set1 (Reg.CS_STAT_LOSS p.val)).fire (128 + p.val))
/-- A half ends whose later sample point is disabled: it is judged now (R203, log entry 31). -/
def halfEnds (p : Port) (k : Fin 4) (L : Lane) : Lane :=
  L.when (decide ((L.de p.castSucc).period ≠ 0) && !L.sampleOn p k) (judgeHalf p k)

/-- What a period start does for an engine with a bridge port, once the new period is fixed and before its latch. -/
def portStart (n : Engine) (p : Port) (L : Lane) : Lane :=
  let L := { L with shunt := vupd L.shunt p (fun x => { x with taken := Vector.replicate 4 false }) }
  let L := (L.loadPoint n false).onDe n (fun e => { e with falling := false })
  let b := L.bridgeNow p
  (L.onDe n (fun e => { e with rise := b })).capture p
/-- What the motor supervisor does at a latch (R250, R257, R260). -/
def portLatch (p : Port) (L : Lane) : Lane :=
  let L := L.judgeReversal p
  (L.wr (Reg.DE_MOT_STAT_HFIRUN p.val) (b2n (L.hfiRuns p))).writeDown p
/-- A period start (R167). -/
def periodStart (n : Engine) (L : Lane) : Lane :=
  let t := L.comingTick n
  let L := L.each (portOfEngine n).toList (fun p L => (L.when (L.loops n) (halfEnds p 3)).periodEnds p)
  let L := ((L.lockCarrier n t).raise n 0).adcTrigger n 1 t
  let L := L.each (portOfEngine n).toList (portStart n)
  let L := L.latch n
  let L := (L.each (portOfEngine n).toList portLatch).gateFollowAll
  if L.svc = 3 ∧ L.allTaken then L.enterService else L
/-- A period start of an engine is due: the first one, or the end of a period whose peak has passed (R167). -/
def startDue (L : Lane) (n : Engine) : Bool :=
  L.firmware && decide (L.rd (Reg.DE_PWM_INFO_FREQ n.val) ≠ 0) && decide (L.comingTick n ≤ L.nowTick) &&
    ((L.de n).falling || decide ((L.de n).period = 0))
/-- A carrier peak (R166, R169). -/
def peak (n : Engine) (L : Lane) : Lane :=
  let L := (L.raise n 1).adcTrigger n 2 (L.peakTick n)
  let L := L.each (portOfEngine n).toList (fun p => halfEnds p 1)
  let L := L.when (L.loops n) (loadPoint n true)
  (L.onDe n (fun e => { e with falling := true })).gateFollowAll
/-- A carrier peak of an engine is due. -/
def peakDue (L : Lane) (n : Engine) : Bool :=
  L.firmware && decide (L.rd (Reg.DE_PWM_INFO_FREQ n.val) ≠ 0) && decide ((L.de n).period ≠ 0) && !(L.de n).falling &&
    decide (L.peakTick n ≤ L.nowTick)

end Lane

/-! ### The commands -/

/-- PWM_PERIOD_START: a carrier valley of an engine whose carrier runs, from READY on (R167). -/
def execPwmPeriodStart (l : LaneId) (n : Engine) (dt : Nat) (s : State) : Host.Outcome State Fault Refusal :=
  onLane l (fun L => let L := L.pass dt; L.when (L.startDue n) (Lane.periodStart n)) s

/-- CARRIER_PEAK: a carrier peak (R166, R169). -/
def execCarrierPeak (l : LaneId) (n : Engine) (dt : Nat) (s : State) : Host.Outcome State Fault Refusal :=
  onLane l (fun L => let L := L.pass dt; L.when (L.peakDue n) (Lane.peak n)) s

/-- CARRIER_UNLOCK_TIMEOUT: 10 ms after agreement with both neighbours was lost (R174). -/
def execCarrierUnlockTimeout (l : LaneId) (dt : Nat) (s : State) : Host.Outcome State Fault Refusal :=
  onLane l (fun L =>
    let L := L.pass dt
    L.when (L.due .unlock 10000000) (fun L =>
      (L.each ((List.finRange 3).filter (fun p => (L.funcOfPort p).isSome)) (fun p => Lane.fireLevel (72 + p.val))).stop .unlock)) s

end Sys2Proof.Machine
end

