-- ==== Sys2Proof/Machine/Current.lean ====
section
/-! DEFINITION. Single-shunt current measurement and the general ADC: rows SAMPLE_POINT to GENERAL_ADC_CONVERSION of the
table (R192 to R211). -/

namespace Sys2Proof.Machine

/-- PHASE and NEG of R197 for the commands at a sample instant; PHASE 3 where nothing usable flows. -/
def shuntPhase (high low : Nat) : Nat × Nat :=
  if low % 8 = 7 - high % 8 then
    match high % 8 with
    | 1 => (0, 0) | 2 => (1, 0) | 4 => (2, 0)
    | 6 => (0, 1) | 5 => (1, 1) | 3 => (2, 1)
    | _ => (3, 0)
  else (3, 0)
/-- The state word of a sample (R196, R211): the high-side and low-side commands, whether they were constant, the code. -/
def stateWord (high low : Nat) (constant : Bool) (code : Nat) : Nat :=
  let clip : Bool := decide (code = 0 ∨ code = 4095)
  let (ph, neg) := shuntPhase high low
  let valid := constant && !clip && decide (ph ≠ 3)
  high % 8 + 8 * (low % 8) + 64 * b2n valid + 128 * ph + 512 * neg + 1024 * b2n clip + 2048 * b2n (!constant)

namespace Lane

/-- The instant of a sample point, from the start of its period: a later point of a pair comes no sooner than 334 fine ticks after the
earlier one (R194). -/
def sampleAt (L : Lane) (p : Port) (k : Fin 4) : Int :=
  let e := L.de p.castSucc
  let h : Int := risingHalf e.period
  let j : Fin 4 := Fin.ofNat 4 (k.val - 1)
  if k.val % 2 = 1 ∧ L.sampleOn p j then max (h + vget e.active.sp k) (h + vget e.active.sp j + 334) else h + vget e.active.sp k
/-- A sample point is due: enabled, reached, not taken, and after the earlier one of its pair (R194). -/
def sampleDue (L : Lane) (p : Port) (k : Fin 4) : Bool :=
  let e := L.de p.castSucc
  let j : Fin 4 := Fin.ofNat 4 (k.val - 1)
  let y := vget L.shunt p
  decide (e.period ≠ 0) && L.sampleOn p k && !vget y.taken k && decide (e.psTick + L.sampleAt p k ≤ L.nowTick) &&
    (decide (k.val < 2) || e.falling) && (decide (k.val % 2 = 0) || !L.sampleOn p j || vget y.taken j)
/-- The six gate commands of a port did not change from SETTLE before an instant of its period to 267 fine ticks after it (R196): by the
pattern, or by what stands above it, of which the timer tells. -/
def commandsHeld (L : Lane) (p : Port) (t : Int) : Bool :=
  let settle := L.rd (Reg.CS_CFG_SETTLE p.val)
  (!L.patternRules p || (List.finRange 3).all (fun x => (L.waves p).constant x (t - settle) (t + 267))) &&
    (!L.running (.switched p) || L.due (.switched p) ((settle * 3 + 19) / 20))
/-- The commands of the high or low sides of a port at an instant of its period, U in bit 0 (R196). -/
def commands (L : Lane) (p : Port) (s : Nat) (t : Int) : Nat :=
  (List.range 3).foldl (fun v x => v + 2 ^ x * b2n (L.asked (Fin.ofNat 18 (6 * p.val + 2 * x + s)) t)) 0
/-- A sample is taken (R192, R194, R196, R203, R216); the last one of a half gives the reference instant of its pair (R259). -/
def sample (p : Port) (k : Fin 4) (code : Nat) (L : Lane) : Lane :=
  let L := L.gateFollowAll
  let t := L.sampleAt p k
  let w := stateWord (L.commands p 0 t) (L.commands p 1 t) (L.commandsHeld p t) code
  let e := L.de p.castSucc
  let pair : Option Nat := match k.val with
    | 1 => some (tickNs (L.peakTick p.castSucc))
    | 3 => some (tickNs (e.psTick + e.period))
    | _ => (vget L.shunt p).pairAt
  let L := { L with shunt := vupd L.shunt p (fun y => { y with
      raw := vupd y.raw k (fun _ => some ((code : Int) - 2048)), word := vupd y.word k (fun _ => w),
      taken := vupd y.taken k (fun _ => true), pairAt := pair }) }
  let L := match k.val with
    | 0 => (L.wr (Reg.CS_LAST_CODE0 p.val) code).wr (Reg.CS_LAST_VALID0 p.val) (nbits w 6 1)
    | 1 => (L.wr (Reg.CS_LAST_CODE1 p.val) code).wr (Reg.CS_LAST_VALID1 p.val) (nbits w 6 1)
    | _ => L
  let L := L.when (nbit w 10) (fun L => (L.set1 (Reg.CS_STAT_CLIP p.val)).fire (131 + p.val))
  let L := L.when (decide (k.val % 2 = 1)) (judgeHalf p k)
  L.raise p.castSucc (if k.val % 2 = 0 then 2 else 3)

/-- Slot k of an engine's general ADC sequence (R218). -/
def adcSlot (L : Lane) (n : Engine) (k : Nat) : Nat :=
  match k with
  | 0 => L.rd (Reg.CS_GSEQ0_SLOT0 n.val) | 1 => L.rd (Reg.CS_GSEQ0_SLOT1 n.val) | 2 => L.rd (Reg.CS_GSEQ0_SLOT2 n.val)
  | 3 => L.rd (Reg.CS_GSEQ0_SLOT3 n.val) | 4 => L.rd (Reg.CS_GSEQ0_SLOT4 n.val) | 5 => L.rd (Reg.CS_GSEQ0_SLOT5 n.val)
  | 6 => L.rd (Reg.CS_GSEQ1_SLOT6 n.val) | _ => L.rd (Reg.CS_GSEQ1_SLOT7 n.val)
/-- The conversion in progress ends, and the next begins: the first that waits, else the next of the scan (R209). -/
def adcDone (code : Nat) (L : Lane) : Lane :=
  let g := L.gen
  let L := match g.busy with
    | some x =>
      let L := { L with gen := { L.gen with res := vupd g.res x.engine (fun v => vupd v (Fin.ofNat 8 x.slot) (fun _ => code)) } }
      (L.wr (Reg.CS_GRES_CODE (L.adcSlot x.engine x.slot)) code).when x.last (raise x.engine 8)
    | none => ({ L with gen := { L.gen with scan := (g.scan + 1) % 24 } }).wr (Reg.CS_GRES_CODE g.scan) code
  { L with gen := { L.gen with busy := g.queue.head?, queue := g.queue.tail } }

/-- A START of a calibration takes effect while the port's gate enable is off or BRIDGE 1 is in force (R207). -/
def calStart (p : Port) (src : Nat) (L : Lane) : Lane :=
  (L.wr (Reg.CS_CAL_SRC p.val) src).when (!L.bitOf Reg.GD_STAT_EN p.val || decide (L.bridgeNow p = 1)) (fun L =>
    ({ L with shunt := vupd L.shunt p (fun x => { x with cal := some src }) }).set1 (Reg.CS_CAL_BUSY p.val))

end Lane

/-! ### The commands -/

/-- SAMPLE_POINT: an enabled sample point is reached, its conversion gives `adc`; its SR event follows (R194, R196). -/
def execSamplePoint (l : LaneId) (p : Port) (k : Fin 4) (dt : Nat) (adc : BitVec 12) (s : State) : Host.Outcome State Fault Refusal :=
  onLane l (fun L => let L := L.pass dt; L.when (L.firmware && L.sampleDue p k) (Lane.sample p k adc.toNat)) s

/-- CS_CAL_DONE: 256 conversions have been averaged (R207). -/
def execCsCalDone (l : LaneId) (p : Port) (mean : BitVec 16) (s : State) : Host.Outcome State Fault Refusal :=
  onLane l (fun L => L.when (vget L.shunt p).cal.isSome (fun L =>
    (({ L with shunt := vupd L.shunt p (fun x => { x with cal := none }) }).clr (Reg.CS_CAL_BUSY p.val)).wr
      (Reg.CS_CAL_MEAN p.val) mean.toNat)) s

/-- GENERAL_ADC_CONVERSION: a conversion completes (R209). -/
def execGeneralAdcConversion (l : LaneId) (code : BitVec 12) (s : State) : Host.Outcome State Fault Refusal :=
  onLane l (fun L => L.when L.firmware (Lane.adcDone code.toNat)) s

end Sys2Proof.Machine
end

