-- ==== Sys2Proof/Machine/Gate.lean ====
section
/-! DEFINITION. Gate drive and power-stage protection: rows DESAT_TRIP to GD_ZDIAG_DONE of the table (R272 to R300). -/

namespace Sys2Proof.Machine

namespace Lane

/-! ### Trips (R277, R279, R280, R285, R292) -/

/-- CHOPF: a chopper-open fault, or from READY on no chopper (R289, R293). -/
def chopF (L : Lane) : Bool := L.is Reg.GD_TRIP_1_CHOPF || (!L.is Reg.GD_CHOP_EN && decide (2 ≤ L.svc))
/-- The guard's short circuit on every port (R290). -/
def ascAll (L : Lane) : Lane := L.each (List.finRange 3) asc
/-- Case (c) of R290, asked whenever one of its conditions begins. -/
def ovCaseC (L : Lane) : Lane := L.when (L.is Reg.GD_STAT_PROT && L.chopF && L.gate.ascCounted) ascAll
/-- CHOPF has become 1: case (d) of R290 where OV_TRIP was counted at this instant, else (c). -/
def chopFSet (L : Lane) : Lane := if L.gate.ovCounted = some L.el then L.ascAll else L.ovCaseC
/-- A lane turn-off, with which case (c) of R290 may begin (R283, R290). -/
def turnOffLane (L : Lane) : Lane := L.laneTurnOff.ovCaseC
/-- A port is excluded from the guard's short circuit until the next start (R292). -/
def exclude (p : Port) (L : Lane) : Lane := L.onGate (fun g => { g with excluded := vupd g.excluded p (fun _ => true) })
/-- A port leaves the short circuit by a two-step turn-off of its low sides; ASCBLK and its source set (R292). -/
def leaveAsc (p : Port) (L : Lane) : Lane :=
  let L := L.gateFollowAll
  let L := (L.wrBit Reg.GD_STAT_ASC p.val false).onGate (fun g => { g with ascWait := vupd g.ascWait p (fun _ => false) })
  let L := ((L.each (portSwitches p) stage1).stop (.ascWait p)).restart (.switched p)
  (L.gateFollowAll.wrBit Reg.GD_TRIP_1_ASCBLK p.val true).fire (228 + p.val)
/-- A trip that excludes its port: the port leaves a short circuit it is in where `leaves` says, and the lane turns off
(R283, R285, R292). -/
def tripPort (p : Port) (leaves : Bool) (L : Lane) : Lane :=
  let L := L.exclude p
  (L.when (leaves && L.bitOf Reg.GD_STAT_ASC p.val) (leaveAsc p)).turnOffLane
/-- A desaturation comparator trips, which is idle while its switch is commanded off (R279, R303). -/
def desat (b : Fin 18) (L : Lane) : Lane :=
  let L := L.gateFollowAll
  L.when (vget L.gate.drive b).on (fun L =>
    ((L.wrBit Reg.GD_TRIP_0_DSAT b.val true).tripPort (switchPort b) (lowSide b)).fire (192 + b.val))
/-- A fast-overcurrent comparator trips (R280, R303). -/
def foc (p : Port) (L : Lane) : Lane := ((L.wrBit Reg.GD_TRIP_0_FOC p.val true).tripPort p true).fire (210 + p.val)

/-- A VGD supply falls through its lock-out (R276, R277); a port in the guard's short circuit still has its lock-out armed
(R292, log entry 32). -/
def vgdFall (p : Port) (L : Lane) : Lane :=
  let armed := L.bitOf Reg.GD_STAT_EN p.val || L.bitOf Reg.GD_STAT_ASC p.val
  let L := L.wrBit Reg.GD_STAT_VGDOK p.val false
  (L.when armed (fun L => ((L.wrBit Reg.GD_TRIP_0_VGDUV p.val true).tripPort p true).fire (213 + p.val))).grants
/-- A bootstrap falls through its lock-out (R276, R277). -/
def bstFall (b : Fin 9) (L : Lane) : Lane :=
  let armed := L.bitOf Reg.GD_STAT_BSTARM b.val
  let L := L.wrBit Reg.GD_STAT_BSTOK b.val false
  L.when armed (fun L => ((L.wrBit Reg.GD_TRIP_1_BSTUV b.val true).turnOffLane).fire (216 + b.val))
/-- A bootstrap rises through its lock-out and arms where its port's gate enable is granted (R276, R277). -/
def bstRise (b : Fin 9) (L : Lane) : Lane :=
  let L := L.wrBit Reg.GD_STAT_BSTOK b.val true
  L.when (L.bitOf Reg.GD_STAT_EN (b.val / 3)) (wrBit Reg.GD_STAT_BSTARM b.val true)

/-- A switch's stage 1 ends; the wait of the short circuit and the time since all gates are off begin with the last one
(R282, R291, R314). -/
def stageEnd (b : Fin 18) (L : Lane) : Lane :=
  let p := switchPort b
  let L := L.onGate (fun g => { g with stage := vupd g.stage b (fun _ => .stage2) })
  let L := L.when (vget L.gate.ascWait p) (restart (.ascWait p))
  L.when (decide (∀ x ∈ List.finRange 18, vget L.gate.stage x ≠ .stage1)) (restart .gatesOff)
/-- A switch of the port is in stage 1. -/
def inStage1 (L : Lane) (p : Port) : Bool := (portSwitches p).any (fun b => decide (vget L.gate.stage b = .stage1))
/-- Every low side of the port turns on (R291). -/
def ascLowSides (p : Port) (L : Lane) : Lane :=
  let L := (L.each ((portSwitches p).filter lowSide) switchFree).onGate (fun g => { g with ascWait := vupd g.ascWait p (fun _ => false) })
  ((L.stop (.ascWait p)).restart (.switched p)).gateFollowAll

/-! ### Over-voltage and chopper (R288 to R293) -/

/-- OV_TRIP is counted, in every guard clock cycle that x_VDC stands above it from now on: cases (a) and (b) of R290. -/
def ovTrip (L : Lane) : Lane :=
  let L := L.onGate (fun g => { g with ovCounted := some (g.ovCounted.getD L.el) })
  if !L.chopF then ((L.set1 Reg.GD_TRIP_1_OV).turnOffLane).fire 225
  else if !L.is Reg.GD_STAT_PROT then L.ascAll else L
/-- OV_ASC is counted: case (c) of R290. -/
def ovAsc (L : Lane) : Lane := (L.onGate (fun g => { g with ascCounted := true })).ovCaseC
/-- The chopper current was wrong for CHK_T (R289). -/
def chopCheck (bci : Nat) (L : Lane) : Lane :=
  let L := L.wr Reg.GD_CHOP_BCI bci
  let low : Bool := decide (bci < L.rd Reg.GD_CHOP_BCI_MIN)
  if !L.is Reg.GD_CHOP_EN then L
  else if L.is Reg.GD_STAT_CHOP && low then ((L.set1 Reg.GD_TRIP_1_CHOPF).fire 226).chopFSet
  else if !L.is Reg.GD_STAT_CHOP && !low then ((L.set1 Reg.GD_TRIP_1_CHOPSH).fire 227).enterWinter
  else L

/-! ### Solenoid drivers (R296) -/

/-- A driver's current reaches 4.5 A; the third trip within 1 s is latched (R296). -/
def svTrip (sv : Fin 4) (L : Lane) : Lane :=
  let ts := L.el :: (vget L.solenoid sv).trips.filter (fun t => decide (L.el < t + 1000000000))
  let L := ((L.onSv sv (fun x => { x with off := true, trips := ts })).svApplyAll).restart (.svOff sv)
  L.when (decide (3 ≤ ts.length)) (fun L => (L.set1 (Reg.GD_SV_SHORT sv.val)).fire (236 + sv.val))

/-! ### Self-test and diagnostics (R298, R299) -/

/-- KM is open. -/
def kmOpen (L : Lane) : Bool := !L.is Reg.LG_CONT_KMCMD && !L.is Reg.LG_CONT_KM_NO
/-- The comparator self-test starts on every group whose condition holds (R298). -/
def testStart (L : Lane) : Lane :=
  if L.is Reg.GD_TEST_BUSY then L
  else
    let L := ((L.set1 Reg.GD_TEST_BUSY).wr Reg.GD_TEST_SKIP (L.rd Reg.GD_STAT_EN)).wr Reg.GD_TEST_SKIPOV (b2n (!L.kmOpen))
    (L.onGate (fun g => { g with testRun := true })).chopApply.grants
/-- Clear the bits of a result that belong to skipped ports, `w` bits for each port. -/
def maskPorts (v w skip : Nat) : Nat :=
  (List.range 3).foldl (fun r p => r + (if nbit skip p then 0 else nbits v (w * p) w * 2 ^ (w * p))) 0
/-- The comparator self-test ends (R298, R308). -/
def testDone (res0 res1 : Nat) (L : Lane) : Lane :=
  let skip := L.rd Reg.GD_TEST_SKIP
  let ov := L.is Reg.GD_TEST_SKIPOV
  let d := maskPorts (nbits res0 0 18) 6 skip
  let f := maskPorts (nbits res0 18 3) 1 skip
  let v := maskPorts (nbits res0 21 3) 1 skip
  let b := maskPorts (nbits res1 0 9) 3 skip
  let o := if ov then 0 else nbits res1 9 3
  let c := if ov then 0 else nbits res1 12 1
  let L := ((L.wr Reg.GD_TEST_RES_0_DSAT d).wr Reg.GD_TEST_RES_0_FOC f).wr Reg.GD_TEST_RES_0_VGDUV v
  let L := ((L.wr Reg.GD_TEST_RES_1_BSTUV b).wr Reg.GD_TEST_RES_1_OV o).wr Reg.GD_TEST_RES_1_BCI c
  let L := ((L.clr Reg.GD_TEST_BUSY).onGate (fun g => { g with testRun := false }))
  (L.chopApply.when (decide (d + f + v + b + o + c ≠ 0)) (fire 231)).grants

/-- The port that GD_ZDIAG names. -/
def zPort (L : Lane) : Option Port := if h : L.rd Reg.GD_ZDIAG_PORT < 3 then some ⟨L.rd Reg.GD_ZDIAG_PORT, h⟩ else none
/-- A START of the off-state diagnostics (R299). -/
def zStart (linkOk : Bool) (L : Lane) : Lane :=
  match L.zPort with
  | some p =>
    if !L.feature 1 || L.gate.zdiag.isSome then L
    else if !linkOk then L.set1 Reg.GD_ZDIAG_NOLINK
    else if L.bitOf Reg.GD_STAT_EN p.val then L
    else ((L.set1 Reg.GD_ZDIAG_BUSY).onGate (fun g => { g with zdiag := some p.val })).grants
  | none => L
/-- The verdicts of the off-state diagnostics (R299): readings in 0.01 of x_VDC. -/
def zVerdict (any12 : Bool) (z : ZReading) : Nat :=
  if z.pullUp < 10 then 1 else if 90 < z.pullDown then 2
  else if !any12 && decide (z.othersMean + 5 < z.pullUp) then 3 else 0
/-- The off-state diagnostics end (R299, R309). -/
def zDone (u v w : ZReading) (L : Lane) : Lane :=
  let bad := [u, v, w].any (fun z => decide (z.pullUp < 10) || decide (90 < z.pullDown))
  let L := (L.clr Reg.GD_ZDIAG_BUSY).onGate (fun g => { g with zdiag := none })
  (((L.wr Reg.GD_ZDIAG_RES_U (zVerdict bad u)).wr Reg.GD_ZDIAG_RES_V (zVerdict bad v)).wr Reg.GD_ZDIAG_RES_W
    (zVerdict bad w)).grants

end Lane

/-! ### The commands -/

/-- DESAT_TRIP: a desaturation comparator trips (R279, R283, R285, R292). -/
def execDesatTrip (l : LaneId) (b : Fin 18) (s : State) : Host.Outcome State Fault Refusal :=
  onLane l (fun L => L.when (L.guardSt.powered && !L.underTest (Lane.switchPort b)) (Lane.desat b)) s

/-- FOC_TRIP: a fast-overcurrent comparator trips (R280, R283, R285, R292). -/
def execFocTrip (l : LaneId) (p : Port) (s : State) : Host.Outcome State Fault Refusal :=
  onLane l (fun L => L.when (L.guardSt.powered && !L.underTest p) (Lane.foc p)) s

/-- TURN_OFF_STAGE1_END: a switch reaches PLAT, or T1 has passed (R282). -/
def execTurnOffStage1End (l : LaneId) (b : Fin 18) (s : State) : Host.Outcome State Fault Refusal :=
  onLane l (fun L => L.when (decide (vget L.gate.stage b = .stage1)) (Lane.stageEnd b)) s

/-- UVLO_FALLING_CROSSING: lock-outs 0 to 2 are those of VGD, 3 to 11 those of the bootstraps (R276, R277). -/
def execUvloFallingCrossing (l : LaneId) (k : Fin 12) (s : State) : Host.Outcome State Fault Refusal :=
  onLane l (fun L => L.when L.guardSt.powered (fun L =>
    if h : k.val < 3 then L.when (!L.underTest ⟨k.val, h⟩) (Lane.vgdFall ⟨k.val, h⟩)
    else L.when (!L.underTest (Fin.ofNat 3 ((k.val - 3) / 3))) (Lane.bstFall (Fin.ofNat 9 (k.val - 3))))) s

/-- UVLO_RISING_CROSSING: a supply rises through its lock-out (R276, R277). -/
def execUvloRisingCrossing (l : LaneId) (k : Fin 12) (s : State) : Host.Outcome State Fault Refusal :=
  onLane l (fun L => L.when L.guardSt.powered (fun L =>
    if k.val < 3 then (L.wrBit Reg.GD_STAT_VGDOK k.val true).grants else L.bstRise (Fin.ofNat 9 (k.val - 3)))) s

/-- CHOPPER_ON_CROSSING: x_VDC rises through OV_ON (R288). -/
def execChopperOnCrossing (l : LaneId) (s : State) : Host.Outcome State Fault Refusal :=
  onLane l (fun L => L.when L.guardSt.powered (fun L => (L.onGate (fun g => { g with chopHw := true })).chopApply)) s

/-- CHOPPER_OFF_CROSSING: x_VDC falls through OV_OFF, and so below every threshold (R288, R294). -/
def execChopperOffCrossing (l : LaneId) (s : State) : Host.Outcome State Fault Refusal :=
  onLane l (fun L => L.when L.guardSt.powered (fun L =>
    (L.onGate (fun g => { g with chopHw := false, ovCounted := none, ascCounted := false })).chopApply)) s

/-- OV_TRIP_CROSSING: x_VDC at or above OV_TRIP, or below it again, is counted (R290). -/
def execOvTripCrossing (l : LaneId) (above : Bool) (s : State) : Host.Outcome State Fault Refusal :=
  onLane l (fun L => L.when (L.guardSt.powered && !L.ovUnderTest) (fun L =>
    if above then L.ovTrip else L.onGate (fun g => { g with ovCounted := none }))) s

/-- OV_ASC_CROSSING: x_VDC at or above OV_ASC, or below it again, is counted (R290). -/
def execOvAscCrossing (l : LaneId) (above : Bool) (s : State) : Host.Outcome State Fault Refusal :=
  onLane l (fun L => L.when (L.guardSt.powered && !L.ovUnderTest) (fun L =>
    if above then L.ovAsc else L.onGate (fun g => { g with ascCounted := false }))) s

/-- CHOPPER_CHECK_TIMEOUT: the sensed voltage `bci` in mV has stood for CHK_T (R289, R305). -/
def execChopperCheckTimeout (l : LaneId) (bci : Byte) (s : State) : Host.Outcome State Fault Refusal :=
  onLane l (fun L => L.when (L.guardSt.powered && !L.ovUnderTest) (Lane.chopCheck bci.toNat)) s

/-- ASC_LOW_SIDE_ON: 1.0 µs after the later of the decision and the end of the port's turn-off (R291). -/
def execAscLowSideOn (l : LaneId) (dt : Nat) (p : Port) (s : State) : Host.Outcome State Fault Refusal :=
  onLane l (fun L =>
    let L := L.pass dt
    L.when (vget L.gate.ascWait p && !L.inStage1 p && L.due (.ascWait p) 1000) (Lane.ascLowSides p)) s

/-- SV_SHORT_TRIP: a solenoid current reaches 4.5 A (R296). -/
def execSvShortTrip (l : LaneId) (dt : Nat) (sv : Fin 4) (s : State) : Host.Outcome State Fault Refusal :=
  onLane l (fun L =>
    let L := L.pass dt
    L.when (L.guardSt.powered && !(vget L.solenoid sv).off) (Lane.svTrip sv)) s

/-- SV_SHORT_RETRY: 10 ms after a trip that is not latched (R296). -/
def execSvShortRetry (l : LaneId) (dt : Nat) (sv : Fin 4) (s : State) : Host.Outcome State Fault Refusal :=
  onLane l (fun L =>
    let L := L.pass dt
    L.when ((vget L.solenoid sv).off && !L.is (Reg.GD_SV_SHORT sv.val) && L.due (.svOff sv) 10000000) (fun L =>
      ((L.onSv sv (fun x => { x with off := false })).stop (.svOff sv)).svApplyAll)) s

/-- SV_OPEN_LOAD: a mean current below a quarter of a setpoint of at least 100 mA for 20 ms (R296, R307). -/
def execSvOpenLoad (l : LaneId) (dt : Nat) (sv : Fin 4) (mean : BitVec 12) (s : State) : Host.Outcome State Fault Refusal :=
  onLane l (fun L =>
    let L := (L.pass dt).wr (Reg.GD_SV_MEAS sv.val) mean.toNat
    let set := (vget L.solenoid sv).setpoint
    L.when (decide (100 ≤ set) && decide (4 * mean.toNat < set)) (fun L =>
      (L.set1 (Reg.GD_SV_OPEN sv.val)).fire (232 + sv.val))) s

/-- GD_TEST_DONE: the self-test finishes; failure bits as GD_TEST_RES_0 and GD_TEST_RES_1 lay them out (R298, R308). -/
def execGdTestDone (l : LaneId) (res0 res1 : Word) (s : State) : Host.Outcome State Fault Refusal :=
  onLane l (fun L => L.when L.gate.testRun (Lane.testDone res0.toNat res1.toNat)) s

/-- GD_ZDIAG_DONE: the off-state diagnostics finish (R299). -/
def execGdZdiagDone (l : LaneId) (u v w : ZReading) (s : State) : Host.Outcome State Fault Refusal :=
  onLane l (fun L => L.when L.gate.zdiag.isSome (Lane.zDone u v w)) s

end Sys2Proof.Machine
end

