-- ==== Sys2Proof/Machine/Guard.lean ====
section
/-! DEFINITION. The lane guard: its supply, its challenges, the contactors and the clocks it watches, re-arming: rows
GATE_REQUEST_LOST to PARK_TIMER_EXPIRY, CLOCK_EDGES_RESUME and LANE_DIE_RESET_RELEASE of the table (R310 to R342). -/

namespace Sys2Proof.Machine

/-- The next value of the challenge register (R316). -/
def lfsrNext (c : BitVec 16) : BitVec 16 := if c.getLsbD 0 then (c >>> 1) ^^^ 0xB400 else c >>> 1
/-- The answer to challenge `n` with value `c` (R317). -/
def answerOf (key c : BitVec 16) (n : Nat) : BitVec 16 :=
  (c ^^^ key).rotateLeft (n % 16) + BitVec.ofNat 16 (0x5A5A * (n % 8 + 1))

namespace Lane

/-! ### Supply (R310, R314) -/

/-- The guard's supply comes: HOLD, a new seed, no supply seen above its lock-out, the contactors watched (R276, R314, R316, R320; log
entry 65). -/
def guardRise (L : Lane) : Lane :=
  let L := L.onGuard (fun _ => { Init.guardSt with powered := true, running := L.firmware })
  let L := L.loadFields [(Reg.LG_STATUS_GSTATE, 0), (Reg.LG_STATUS_FCAUSE, 0), (Reg.LG_STATUS_REARMS, 0),
    (Reg.LG_STATUS_LDCLK, 1), (Reg.LG_STATUS_RCCLK, 1), (Reg.LG_STATUS_CLKGOOD, 0), (Reg.LG_CHAL_PEND, 0),
    (Reg.GD_STAT_VGDOK, 0), (Reg.GD_STAT_BSTOK, 0)]
  let L := ((L.restart .clkGood).stop .kmDisagree).stop .kpDisagree
  let L := (L.onGate (fun g => { g with chopHw := false, ovCounted := none, ascCounted := false })).chopApply
  (L.each (List.finRange 4) (fun n L => (L.onSv n (fun x => { x with forced := false })).clr (Reg.GD_SV_FORCED n.val))).svApplyAll.watchContactors
/-- The guard's supply falls: gates, contactor and solenoid drivers are off (R310, R314). -/
def guardFall (L : Lane) : Lane :=
  let L := L.each (List.finRange 3) ungrant
  let L := L.onGate (fun g => { g with stage := Vector.replicate 18 .stage2, ascWait := Vector.replicate 3 false })
  let L := (L.wr Reg.GD_STAT_ASC 0).loadFields
    [(Reg.LG_CONT_KMCMD, 0), (Reg.LG_CONT_KPCMD, 0), (Reg.LG_CHAL_PEND, 0), (Reg.LG_STATUS_GSTATE, 0)]
  ((L.onGuard (fun _ => Init.guardSt)).restart .gatesOff).svApplyAll.chopApply.gateFollowAll

/-- KP opens 2.0 ms after all gates are off: in FORCED, after a lane turn-off, after KFAULT or SLOSS (R314, R325). -/
def kpOpenDue (L : Lane) : Bool :=
  decide (L.gstate = 3) ||
    (decide (L.gstate = 2) && (L.is Reg.GD_STAT_PROT || L.is Reg.LG_STATUS_KFAULT || L.is Reg.LG_STATUS_SLOSS))
/-- Every gate has been off for 2.0 ms: no switch is commanded on or in stage 1 and no port is in the guard's short circuit. -/
def gatesOff2ms (L : Lane) : Bool :=
  decide (L.rd Reg.GD_STAT_ASC = 0) &&
    (List.finRange 18).all (fun b => decide (vget L.gate.stage b ≠ .stage1) && !(vget L.gate.drive b).on) && L.due .gatesOff 2000000
/-- The contactors that the delay opens (R314, R325). -/
def openAfterDelay (L : Lane) : Lane :=
  let km := decide (L.gstate = 2) && L.is Reg.LG_STATUS_KFAULT
  (L.when L.kpOpenDue (driveKp false)).when km (driveKm false)

/-! ### Challenges (R316 to R319) -/

/-- A challenge is missed (R318). -/
def missed (L : Lane) : Lane :=
  let L := ((L.clr Reg.LG_CHAL_PEND).clr Reg.LG_WD_STAT_CONSEC).count Reg.LG_WD_STAT_MISSCNT 1
  let L := L.fire 256
  if !L.guardSt.answered then L
  else if L.is Reg.LG_WD_STAT_MISS1 then L.forced 4
  else L.set1 Reg.LG_WD_STAT_MISS1
/-- The guard is on a challenge grid: the lane has entered READY and the guard is not FORCED (R316, R326). -/
def challenges (L : Lane) : Bool :=
  L.guardSt.powered && L.guardSt.running && !L.guardSt.rcLost && decide (L.gstate ≠ 3)
/-- The value and number that the next challenge carries (R316). -/
def nextChallenge (L : Lane) : BitVec 16 × Nat :=
  match L.guardSt.lfsr with
  | some c => (lfsrNext c, (L.guardSt.num + 1) % 256)
  | none => (BitVec.ofNat 16 (L.free .challengeSeed % 65535 + 1), 0)
/-- A challenge is issued with the window and the key that LG_WD holds now (R316, R317). -/
def issue (L : Lane) : Lane :=
  let x := L.nextChallenge
  let j := (L.rd Reg.LG_WD_OPEN, L.rd Reg.LG_WD_CLOSE, L.rd Reg.LG_WD_KEY)
  let L := if L.guardSt.lfsr.isNone then L.drawn else L
  ((L.onGuard (fun g => { g with lfsr := some x.1, num := x.2, judge := j })).set1 Reg.LG_CHAL_PEND).restart .challenge
/-- A right answer (R317). -/
def correct (L : Lane) : Lane :=
  let L := ((L.clr Reg.LG_CHAL_PEND).count Reg.LG_WD_STAT_CONSEC 1).clr Reg.LG_WD_STAT_MISS1
  (L.onGuard (fun g => { g with answered := true })).armAdvance
/-- The verdict on an answer written now, with OPEN and CLOSE in units of 10 µs from the issue (R317, R336). -/
def judgeAnswer (n : Nat) (a : BitVec 16) (L : Lane) : Lane :=
  let j := L.guardSt.judge
  let after := L.el - (L.timerAt .challenge).getD 0
  let c := L.guardSt.lfsr.getD 0
  if L.is Reg.LG_CHAL_SUSP then L
  else if L.guardSt.lfsr.isNone || decide (n ≠ L.guardSt.num) || decide (j.2.1 * 10000 < after) then L.set1 Reg.LG_WD_STAT_LATE
  else if !L.is Reg.LG_CHAL_PEND then L.set1 Reg.LG_WD_STAT_EXTRA
  else if after < j.1 * 10000 then (L.set1 Reg.LG_WD_STAT_EARLY).missed
  else if a = answerOf (BitVec.ofNat 16 j.2.2) c n then L.correct
  else (L.set1 Reg.LG_WD_STAT_WRONG).missed
/-- The core self-test of P_0 begins: no challenge is issued, a pending one takes no verdict (R319). -/
def suspend (L : Lane) : Lane := (L.set1 Reg.LG_CHAL_SUSP).clr Reg.LG_CHAL_PEND

/-! ### Contactors (R314, R320, R321) -/

/-- KMIS_MS in ms, 100 while no image is loaded (R320). -/
def kmisMs (L : Lane) : Nat := if L.firmware then L.rd Reg.LG_CONT_KMIS else 100
/-- A contactor mismatch in the guard's present state (R314, R320, R321). -/
def mismatch (kp : Bool) (L : Lane) : Lane :=
  let src := if kp then 258 else 257
  let L := L.set1 (if kp then Reg.LG_CONT_KPBAD else Reg.LG_CONT_KMBAD)
  if L.gstate = 1 then ((L.forced 7).wr Reg.SYS_STATE_CAUSE 11).fire src
  else if L.gstate = 2 ∧ ¬L.is Reg.LG_STATUS_KFAULT ∧ ¬L.is Reg.LG_STATUS_SLOSS then
    (((L.set1 Reg.LG_STATUS_KFAULT).withholdAll).classSK 5).fire src
  else L.fire src

/-! ### Clocks (R322 to R326) -/

/-- A clock is lost: CLKGOOD clears, the guard forces (R324, R326). -/
def clockLost (flag : Fld) (cause : Nat) (L : Lane) : Lane :=
  (((L.clr flag).clr Reg.LG_STATUS_CLKGOOD).stop .clkGood).forced cause
/-- A clock is good again; the 10 ms towards CLKGOOD count once both are (R326). -/
def clockBack (flag : Fld) (L : Lane) : Lane :=
  let L := L.set1 flag
  L.when (L.is Reg.LG_STATUS_LDCLK && L.is Reg.LG_STATUS_RCCLK) (start1 .clkGood)
/-- A window of 960 RC cycles closes (R322, R324). -/
def ckwWindow (n : Nat) (L : Lane) : Lane :=
  let tol := 10 * L.rd Reg.LG_CKW_CKTOL
  let L := L.wr Reg.LG_CKW_COUNT n
  if n + tol < 1000 ∨ 1000 + tol < n then
    let k := L.guardSt.badWindows + 1
    let L := (L.onGuard (fun g => { g with badWindows := k })).fire 261
    L.when (decide (2 ≤ k)) (clockLost Reg.LG_STATUS_LDCLK 2)
  else (L.onGuard (fun g => { g with badWindows := 0 })).clockBack Reg.LG_STATUS_LDCLK

/-! ### Re-arming (R314, R328) -/

/-- KM and KP open, a short circuit holding KP until the start, and the lane die is held in reset for 100 µs; no challenge is issued before
the next entry to READY (R291, R314, R316, R524). -/
def holdDie (L : Lane) : Lane :=
  (((L.driveKm false).driveKp false).onStart (fun s => { s with phase := .dieReset, coresReleased := false })).onGuard (fun g => { g with running := false })
    |>.restart .dieReset
/-- A write of LG_REARM (R328). -/
def rearm (v : Nat) (L : Lane) : Lane :=
  if v = 0xC3A5 ∧ L.gstate = 3 ∧ L.is Reg.LG_STATUS_CLKGOOD ∧ L.rd Reg.LG_STATUS_REARMS < 3 then
    ((L.wr Reg.LG_STATUS_REARMS (L.rd Reg.LG_STATUS_REARMS + 1)).wr Reg.LG_STATUS_GSTATE 0).holdDie
  else L.set1 Reg.LG_STATUS_REFUSED
/-- A write of LG_WD: ignored as a whole with OPEN not below CLOSE or KEY 0; a field outside its range keeps its value
(R336, R602); locked by LG_CTRL. -/
def writeWd (v : Nat) (L : Lane) : Lane :=
  let o := nbits v 0 7
  let c := nbits v 8 7
  let k := nbits v 16 16
  if L.is Reg.LG_CTRL_LOCK || decide (k = 0) then L
  else
    let o := if o ≤ 90 then o else L.rd Reg.LG_WD_OPEN
    let c := if 10 ≤ c ∧ c ≤ 95 then c else L.rd Reg.LG_WD_CLOSE
    if c ≤ o then L else ((L.wr Reg.LG_WD_OPEN o).wr Reg.LG_WD_CLOSE c).wr Reg.LG_WD_KEY k
/-- The PARK backstop (R331). -/
def parkFire (L : Lane) : Lane :=
  let on := !L.parkOff
  let L := (L.clr Reg.LG_PARK_RUN).stop .park
  L.when on (fun L => (L.each (L.svsOf .park) svForce).set1 Reg.LG_PARK_FIRED |>.fire 260)

end Lane

/-! ### The commands -/

/-- GATE_REQUEST_LOST: a port's request line stops toggling within its band, until the next start (R311; log entry 85). -/
def execGateRequestLost (l : LaneId) (p : Port) (s : State) : Host.Outcome State Fault Refusal :=
  onLane l (fun L => L.when L.guardSt.powered (fun L =>
    (L.onGuard (fun g => { g with lineLost := vupd g.lineLost p (fun _ => true) })).grants)) s

/-- GUARD_SUPPLY_RISE: Unpowered to HOLD (R310, R314). -/
def execGuardSupplyRise (l : LaneId) (s : State) : Host.Outcome State Fault Refusal :=
  onLane l (fun L => L.when (!L.guardSt.powered) Lane.guardRise) s

/-- GUARD_SUPPLY_FALL: any state to Unpowered (R310, R314). -/
def execGuardSupplyFall (l : LaneId) (s : State) : Host.Outcome State Fault Refusal :=
  onLane l (fun L => L.when L.guardSt.powered Lane.guardFall) s

/-- GUARD_KP_OPEN_DELAY: 2.0 ms after all gates are off (R314, R325). -/
def execGuardKpOpenDelay (l : LaneId) (dt : Nat) (s : State) : Host.Outcome State Fault Refusal :=
  onLane l (fun L =>
    let L := (L.pass dt).gateFollowAll
    L.when (L.guardSt.powered && L.gatesOff2ms) Lane.openAfterDelay) s

/-- CHALLENGE_ISSUE: a point of the guard's 1 ms grid; a challenge still pending has passed its CLOSE and is missed
first (R316, R317, R319). -/
def execChallengeIssue (l : LaneId) (s : State) : Host.Outcome State Fault Refusal :=
  onLane l (fun L => L.when (L.challenges && !L.is Reg.LG_CHAL_SUSP) (fun L =>
    let L := L.when (L.is Reg.LG_CHAL_PEND) Lane.missed
    L.when (decide (L.gstate ≠ 3)) Lane.issue)) s

/-- LG_ANSWER_WRITE: the verdict on an answer (R128, R317, R318). -/
def execLgAnswerWrite (l : LaneId) (pair : Pair) (n : Byte) (a : BitVec 16) (dt : Nat) (s : State) :
    Host.Outcome State Fault Refusal :=
  onLane l (fun L => (L.pass dt).byPair pair (Lane.judgeAnswer n.toNat a)) s

/-- CHALLENGE_WINDOW_CLOSE: CLOSE passes without a verdict (R317, R318). -/
def execChallengeWindowClose (l : LaneId) (s : State) : Host.Outcome State Fault Refusal :=
  onLane l (fun L => L.when (L.challenges && L.is Reg.LG_CHAL_PEND) Lane.missed) s

/-- FIRST_ANSWER_TIMEOUT: no correct answer within 100 ms of READY (R318). -/
def execFirstAnswerTimeout (l : LaneId) (dt : Nat) (s : State) : Host.Outcome State Fault Refusal :=
  onLane l (fun L =>
    let L := L.pass dt
    L.when (L.challenges && !L.guardSt.answered && L.due .ready 100000000) (fun L => (L.stop .ready).forced 4)) s

/-- SELF_TEST_ALLOWANCE_TIMEOUT: no core of P_0 released within 3.5 ms of the mismatch (R319). -/
def execSelfTestAllowanceTimeout (l : LaneId) (dt : Nat) (s : State) : Host.Outcome State Fault Refusal :=
  onLane l (fun L =>
    let L := L.pass dt
    L.when (L.challenges && L.is Reg.LG_CHAL_SUSP && L.due (.selfTest 0) 3500000) (fun L =>
      (L.clr Reg.LG_CHAL_SUSP).missed)) s

/-- CONTACTOR_MIRROR_CHANGE: the four mirror inputs as they read now (R53, R320). -/
def execContactorMirrorChange (l : LaneId) (dt : Nat) (kmNo kmNc kpNo kpNc : Bool) (s : State) :
    Host.Outcome State Fault Refusal :=
  onLane l (fun L =>
    let L := L.pass dt
    let L := (((L.wr Reg.LG_CONT_KM_NO (b2n kmNo)).wr Reg.LG_CONT_KM_NC (b2n kmNc)).wr Reg.LG_CONT_KP_NO (b2n kpNo)).wr
      Reg.LG_CONT_KP_NC (b2n kpNc)
    L.when L.guardSt.powered (fun L => L.watchContactors.armAdvance)) s

/-- CONTACTOR_MISMATCH_TIMEOUT: a contactor has not agreed for KMIS_MS (R314, R320, R321). -/
def execContactorMismatchTimeout (l : LaneId) (dt : Nat) (kp : Bool) (s : State) : Host.Outcome State Fault Refusal :=
  onLane l (fun L =>
    let L := L.pass dt
    L.when (L.guardSt.powered && L.due (if kp then .kpDisagree else .kmDisagree) (L.kmisMs * 1000000))
      (Lane.mismatch kp)) s

/-- CKW_MISSING_EDGE: no CKW edge for 100 ns (R323, R324). -/
def execCkwMissingEdge (l : LaneId) (s : State) : Host.Outcome State Fault Refusal :=
  onLane l (fun L => L.when L.guardSt.powered (Lane.clockLost Reg.LG_STATUS_LDCLK 1)) s

/-- RC_MISSING_EDGE: no RC edge for 100 ns; vote frames stop (R310, R323 to R325). -/
def execRcMissingEdge (l : LaneId) (s : State) : Host.Outcome State Fault Refusal :=
  onLane l (fun L => L.when L.guardSt.powered (fun L =>
    (L.onGuard (fun g => { g with rcLost := true })).clockLost Reg.LG_STATUS_RCCLK 3)) s

/-- CKW_WINDOW_CLOSE: a window of 960 RC cycles counted `count` edges (R322, R324). -/
def execCkwWindowClose (l : LaneId) (count : BitVec 11) (s : State) : Host.Outcome State Fault Refusal :=
  onLane l (fun L => L.when (L.guardSt.powered && !L.guardSt.rcLost) (Lane.ckwWindow count.toNat)) s

/-- CLKGOOD_TIMER: both clocks good without a break for 10 ms (R326). -/
def execClkgoodTimer (l : LaneId) (dt : Nat) (s : State) : Host.Outcome State Fault Refusal :=
  onLane l (fun L =>
    let L := L.pass dt
    L.when (L.guardSt.powered && L.is Reg.LG_STATUS_LDCLK && L.is Reg.LG_STATUS_RCCLK && L.due .clkGood 10000000)
      (Lane.set1 Reg.LG_STATUS_CLKGOOD)) s

/-- LG_REARM_WRITE: a write of LG_REARM (R128, R314, R328). -/
def execLgRearmWrite (l : LaneId) (pair : Pair) (v : Word) (s : State) : Host.Outcome State Fault Refusal :=
  onLane l (fun L => L.byPair pair (Lane.rearm v.toNat)) s

/-- LG_WD_WRITE: a write of LG_WD (R128, R336). -/
def execLgWdWrite (l : LaneId) (pair : Pair) (v : Word) (s : State) : Host.Outcome State Fault Refusal :=
  onLane l (fun L => L.byPair pair (Lane.writeWd v.toNat)) s

/-- LG_KMOFF: a write of 1 to LG_CONT.KMOFF opens KM in FORCED (R128, R338). -/
def execLgKmoff (l : LaneId) (pair : Pair) (s : State) : Host.Outcome State Fault Refusal :=
  onLane l (fun L => L.byPair pair (fun L => L.when (decide (L.gstate = 3)) (Lane.driveKm false))) s

/-- PARK_TIMER_EXPIRY: the backstop of R331. -/
def execParkTimerExpiry (l : LaneId) (dt : Nat) (s : State) : Host.Outcome State Fault Refusal :=
  onLane l (fun L =>
    let L := L.pass dt
    L.when (L.is Reg.LG_PARK_RUN && L.due .park (L.rd Reg.LG_PARK_TMAX * 1000000000)) Lane.parkFire) s

/-- CLOCK_EDGES_RESUME: edges of CKW or of the RC reference return (R326). -/
def execClockEdgesResume (l : LaneId) (rc : Bool) (s : State) : Host.Outcome State Fault Refusal :=
  onLane l (fun L => L.when L.guardSt.powered (fun L =>
    if rc then (L.onGuard (fun g => { g with rcLost := false })).clockBack Reg.LG_STATUS_RCCLK
    else L.clockBack Reg.LG_STATUS_LDCLK)) s

/-- LANE_DIE_RESET_RELEASE: 100 µs after the lane die was put in reset the lane starts from BOOT; RECOV_N is sampled only at the release of
the power-on reset (R314, R524, R589). -/
def execLaneDieResetRelease (l : LaneId) (dt : Nat) (s : State) : Host.Outcome State Fault Refusal :=
  onLane l (fun L =>
    let L := L.pass dt
    L.when (decide (L.start.phase = .dieReset) && L.due .dieReset 100000) (Lane.startLane false)) s

end Sys2Proof.Machine
end

