-- ==== Sys2Proof/Machine/Collector.lean ====
section
/-! DEFINITION. The fault collector's own commands: rows FAULT_SOURCE_FIRE to LANE_LINK_SILENCE of the table (R343 to
R358). -/

namespace Sys2Proof.Machine

namespace Lane

/-- One sticky bit is written 1: the bit of a fatal source stays in FIELD and RETIRED; a bit whose source fires now
stays set and reacts again (R345, R346). -/
def clearSticky (n : Nat) (L : Lane) : Lane :=
  if !L.sticky n || (L.fatalSource n && decide (2 ≤ L.lifecycle)) then L
  else (L.wrBit (Reg.FC_STICKY_S (n / 32)) (n % 32) false).when (L.sourceLevel n) (fire n)
/-- A write of FC_STICKY_k. -/
def writeSticky (k : Nat) (v : Nat) (L : Lane) : Lane :=
  L.each ((List.range 32).filter (nbit v)) (fun b => clearSticky (32 * k + b))
/-- The lane is in MANUFACTURE (R357, R358). -/
def inManufacture (L : Lane) : Bool := decide (L.lifecycle = 0)
/-- A write of FC_INJ with GO (R357). -/
def inject (src : Nat) (L : Lane) : Lane :=
  let L := L.wr Reg.FC_INJ_SRC src
  if L.inManufacture && decide (2 ≤ L.svc) && decide (fixedClass src ≠ 0) then (L.set1 Reg.FC_STATUS_INJ).fire src
  else L.set1 Reg.FC_INJ_REFUSED
/-- A write of FC_INJ with PARITY inverts the parity bit of FC_STICKY_0, whose address the list then gains or loses (R358; log entry
86). -/
def injectParity (L : Lane) : Lane :=
  if L.inManufacture then
    let a := (Reg.FC_STICKY_S 0).reg
    let bad := L.fault.parityBad
    { L with fault := { L.fault with parityBad := if bad.contains a then bad.filter (fun b => decide (b ≠ a)) else bad ++ [a] } }
  else L.set1 Reg.FC_INJ_REFUSED
/-- The parity of the register at an address is checked on an access: an error is FCAUSE 5 (R314, R356). -/
def fcCheck (a : Nat) (L : Lane) : Lane := L.when (L.fault.parityBad.contains a) (forced 5)

/-- A core's current signature is poisoned: the next comparison of its pair fails (R127, R359). -/
def poison (c : Core) (L : Lane) : Lane := L.when (L.paired (pairOf c)) (onCore c (fun x => { x with poison := true }))
/-- What the event of a source does beside firing it, where its block has no command of its own: an uncorrectable SRAM word poisons the
cores that received it, a corrected error of an engine's memory sets DE_STATUS.ECC, an uncorrectable one halts a running engine, which
fires the source itself; source 226 never fires without a chopper (R127, R161, R162, R293, R359). -/
def sourceFires (n : Nat) (cores : BitVec 4) (L : Lane) : Lane :=
  if n = 10 then (L.each ((List.finRange 4).filter (fun c => cores.getLsbD c.val)) poison).fire n
  else if 64 ≤ n ∧ n < 68 then (L.set1 (Reg.DE_STATUS_ECC (n - 64))).fire n
  else if 68 ≤ n ∧ n < 72 ∧ L.is (Reg.DE_CTRL_RUN (n - 68)) then L.halt (Fin.ofNat 4 (n - 68)) 5
  else if n = 226 ∧ ¬L.is Reg.GD_CHOP_EN then L
  else L.fire n

end Lane

/-- FAULT_SOURCE_FIRE: a source fires; `cores` are those that received an uncorrectable SRAM word (R344, R345, R347 to R349, R359). -/
def execFaultSourceFire (l : LaneId) (src : BitVec 10) (cores : BitVec 4) (s : State) : Host.Outcome State Fault Refusal :=
  onLane l (fun L => L.when L.powered (Lane.sourceFires src.toNat cores)) s

/-- FC_STICKY_WRITE: a write of ones to a sticky register (R344 to R346, R356). -/
def execFcStickyWrite (l : LaneId) (n : Fin 32) (v : Word) (s : State) : Host.Outcome State Fault Refusal :=
  onLane l (fun L => L.when L.powered (fun L => (L.fcCheck (Reg.FC_STICKY_S n.val).reg).writeSticky n.val v.toNat)) s

/-- FC_PARITY_SCAN: a parity error of any register is FCAUSE 5 (R314, R356). -/
def execFcParityScan (l : LaneId) (s : State) : Host.Outcome State Fault Refusal :=
  onLane l (fun L => L.when (L.powered && decide (L.fault.parityBad ≠ [])) (Lane.forced 5)) s

/-- FC_INJ_GO: a write of FC_INJ with GO set (R357). -/
def execFcInjGo (l : LaneId) (src : BitVec 10) (s : State) : Host.Outcome State Fault Refusal :=
  onLane l (fun L => L.when L.powered (Lane.inject src.toNat)) s

/-- FC_INJ_PARITY: a write of FC_INJ with PARITY set (R358). -/
def execFcInjParity (l : LaneId) (s : State) : Host.Outcome State Fault Refusal :=
  onLane l (fun L => L.when L.powered Lane.injectParity) s

/-- LANE_LINK_SILENCE: no frame of any class for 100 µs from a neighbour that has been heard in this start (R359). -/
def execLaneLinkSilence (l : LaneId) (dt : Nat) (sd : Side) (s : State) : Host.Outcome State Fault Refusal :=
  onLane l (fun L =>
    let L := L.pass dt
    L.when (L.due (.link sd) 100000) (Lane.fireLevel (330 + sd.ix.val))) s

end Sys2Proof.Machine
end

