-- ==== Sys2Proof/Machine/Slaz.lean ====
section
/-! DEFINITION. The Slaz controllers: rows SLAZ_WINDOW_START to SLAZ_BUS_OFF_RECOVERED of the table, and the Autumn causes that
clear with time (R112, R368 to R398). -/

namespace Sys2Proof.Machine

/-- An entry applies in a basic cycle (R372). -/
def entryApplies (e : SlazEntry) (c : Nat) : Bool :=
  decide (e.cycBase ≤ c) && decide ((c - e.cycBase) % max 1 e.rept = 0)
/-- The fields of a reference frame's payload (R369). -/
def refFrame (rank : Fin 8) (v : Nat) : SlazRef :=
  { rank := rank, cyc := nbits v 0 6, init := nbit v 6, mode := nbits v 8 3, nmode := nbits v 11 3, sw := nbit v 14, mcnt := nbits v 16 16 }
/-- The payload of a reference frame (R369). -/
def refPayload (f : SlazRef) : List Byte :=
  leBytes 1 (f.cyc + 64 * b2n f.init) ++ leBytes 1 (f.mode + 8 * f.nmode + 64 * b2n f.sw) ++ leBytes 2 f.mcnt
/-- The index that stands for the lane's own reference frame. -/
def refIndex : Nat := 4096
/-- The function whose sensor frames use a channel: STEER on X, BRAKE on Y (R115; DESIGN CHOICE, log entry 34). -/
def funcOfChannel (c : Fin 2) : Func := if c = 0 then .steer else .brake

namespace Lane

/-- The state of a controller (R392): 0 OFF, 1 LISTEN, 2 COLD, 3 SYNC, 4 RUN, 5 MASTER, 6 BUSOFF. -/
def szState (L : Lane) (c : Fin 2) : Nat := L.rd (Reg.SZ_STAT_STATE c.val)
/-- Move a controller; a frame in progress goes on only into OFF (R382). -/
def szTo (c : Fin 2) (v : Nat) (L : Lane) : Lane :=
  (L.wr (Reg.SZ_STAT_STATE c.val) v).onSlaz c (fun z =>
    { z with copied := none, pending := [], sending := if v = 0 then z.sending else none })
/-- The controllers work: the lane runs and is in READY, ARMED, SERVICE, AUTUMN or TEST (R382). -/
def szLive (L : Lane) : Bool := L.firmware && (L.upState || decide (L.svc = 8))
/-- The controller takes part in the bus: it is neither OFF nor BUSOFF (R382). -/
def szOnBus (L : Lane) (c : Fin 2) : Bool := L.szLive && decide (L.szState c ≠ 0) && decide (L.szState c ≠ 6)
/-- The controller is in RUN or MASTER. -/
def szRuns (L : Lane) (c : Fin 2) : Bool := L.szLive && (decide (L.szState c = 4) || decide (L.szState c = 5))
/-- The descriptor of the controller's mode (R73). -/
def szDesc (L : Lane) (c : Fin 2) : ModeRec := vget L.img.slaz.desc (Fin.ofNat 8 (L.rd (Reg.SZ_STAT_MODE c.val)))
/-- L of the controller's mode in ns (R372). -/
def szLen (L : Lane) (c : Fin 2) : Nat := 50000 * max 1 (L.szDesc c).cycleLen
/-- One bit of the arbitration phase in ns (R366). -/
def szBit (L : Lane) : Nat := if L.img.slaz.arbRate = 0 then 2000 else 1000
/-- Cycle time in ns (R372, R380). -/
def cycleTime (L : Lane) (c : Fin 2) : Nat := L.el - (vget L.slaz c).start
/-- D_r in ns for cycles of length `len` (R374). -/
def szDelay (L : Lane) (len r : Nat) : Nat := (4 * len + 9999) / 10000 + 2 * (r + 1) * L.szBit
/-- T_L in ns: the listen timer (R383). -/
def szListenNs (L : Lane) : Nat := 2 * 50000 * (vget L.img.slaz.desc 0).cycleLen + L.img.slaz.rank * 100 * L.szBit
/-- The basic cycle, and how many the matrix has. -/
def szCyc (L : Lane) (c : Fin 2) : Nat := L.rd (Reg.SZ_STAT_CYC c.val)
/-- CYCLES of the mode. -/
def szCycles (L : Lane) (c : Fin 2) : Nat := max 1 (L.szDesc c).cycles
/-- The RANK of the lane (R73). -/
def szRank (L : Lane) : Nat := L.img.slaz.rank
/-- The entries of the controller's mode and channel with their indices. -/
def szEntries (L : Lane) (c : Fin 2) : List (SlazEntry × Nat) :=
  let m := L.szDesc c
  (((L.img.slaz.entries.drop m.first).take m.count).zipIdx m.first).filter (fun e => decide (e.1.chan = c))
/-- The entries that apply in the present cycle. -/
def szNow (L : Lane) (c : Fin 2) : List (SlazEntry × Nat) := (L.szEntries c).filter (fun e => entryApplies e.1 (L.szCyc c))
/-- A host queue named by an entry (R373). -/
def szQueue (e : SlazEntry) : Option (Fin 16) := if h : 64 ≤ e.buf ∧ e.buf - 64 < 16 then some ⟨e.buf - 64, h.2⟩ else none
/-- A TX entry has something to send (R376). -/
def szReady (L : Lane) (c : Fin 2) (e : SlazEntry) : Bool :=
  if e.kind = .vote then true
  else
    match szQueue e with
    | some q => decide ((vget L.queue q).slots ≠ [])
    | none => L.is (Reg.SZ_BST_READY c.val e.buf)
/-- The bytes of a buffer (R398). -/
def szBufBytes (L : Lane) (c : Fin 2) (b n : Nat) : List Byte :=
  ((List.range 16).flatMap (fun k => leBytes 4 (L.rd (Reg.SZ_BUF c.val b k)))).take n
/-- The payload that an entry sends now, its header first (R370, R376). -/
def szPayload (L : Lane) (c : Fin 2) (e : SlazEntry) : List Byte :=
  let n := Check.dlcBytes e.dlc
  let body :=
    if e.kind = .vote then leBytes 1 (L.rd (if c = 0 then Reg.SZ_MODE_REQ_REQ_X else Reg.SZ_MODE_REQ_REQ_Y))
    else
      match szQueue e with
      | some q => (((vget L.queue q).slots.head?).map (fun d => (descrBytes d).take (n - 1))).getD []
      | none => L.szBufBytes c e.buf (n - 1)
  leBytes 1 (L.szCyc c) ++ body
/-- Begin the lane's own reference frame (R381). -/
def szSendRef (c : Fin 2) (L : Lane) : Lane := L.onSlaz c (fun z => { z with sending := some (refIndex, []) })
/-- A TX buffer's last occurrence was skipped or late (R397). -/
def szMiss (c : Fin 2) (e : SlazEntry) (L : Lane) : Lane :=
  L.when (decide (e.buf < 64)) (set1 (Reg.SZ_BST_MISSED c.val e.buf))
/-- A frame of an entry that begins now can still end by START + LENGTH − G (R376, R377), in units of 0.1 ns. -/
def szFits (L : Lane) (c : Fin 2) (e : SlazEntry) : Bool :=
  decide (10 * L.cycleTime c + Check.tFrame L.img.slaz (Check.dlcBytes e.dlc) + Check.guard e ≤ 10000 * (e.start + e.len))
/-- A window of the present cycle has reached its START (R372, R376). -/
def szBegun (L : Lane) (c : Fin 2) (w : Nat) : Bool :=
  (L.szNow c).any (fun e => decide (e.1.window = w) && decide (1000 * e.1.start ≤ L.cycleTime c))
/-- A window of the present cycle starts for the first time. -/
def szOpen (c : Fin 2) (w : Nat) (L : Lane) : Lane := L.onSlaz c (fun z => { z with opened := w :: z.opened })

/-! ### Windows (R376 to R379) -/

/-- The START of an exclusive or vote window with TX set: what its entry sends is copied to the transmitter, if it is ready (R376). -/
def windowCopy (c : Fin 2) (e : SlazEntry × Nat) (L : Lane) : Lane :=
  let L := L.szOpen c e.1.window
  if L.szReady c e.1 then
    let p := L.szPayload c e.1
    L.onSlaz c (fun z => { z with copied := some (e.2, p) })
  else (L.countMod (Reg.SZ_TXSKIP c.val) 1).szMiss c e.1
/-- A copied frame that cannot end in its window is dropped (R376). -/
def windowDrop (c : Fin 2) (e : SlazEntry × Nat) (L : Lane) : Lane :=
  ((L.countMod (Reg.SZ_TXLATE c.val) 1).szMiss c e.1).onSlaz c (fun z => { z with copied := none })
/-- The copied frame begins when the bus is idle, provided that it can still end in time; otherwise it is dropped (R376). -/
def windowBegin (c : Fin 2) (e : SlazEntry × Nat) (idle : Bool) (L : Lane) : Lane :=
  match (vget L.slaz c).copied with
  | some (i, p) =>
    if i ≠ e.2 then L
    else if !L.szFits c e.1 then L.windowDrop c e
    else L.when (idle && (vget L.slaz c).sending.isNone) (onSlaz c (fun z => { z with copied := none, sending := some (i, p) }))
  | none => L
/-- The frames of an arbitrating window that are ready at its START are offered (R377). -/
def arbOpen (c : Fin 2) (w : Nat) (L : Lane) : Lane :=
  let es := (L.szNow c).filter (fun e => e.1.tx && decide (e.1.window = w) && decide (e.1.kind = .arbitrating) && L.szReady c e.1)
  (L.szOpen c w).onSlaz c (fun z => { z with pending := es.map (·.2) })
/-- The pending frame of the lowest identifier begins, if it can end in time (R377). -/
def arbSend (c : Fin 2) (idle : Bool) (L : Lane) : Lane :=
  let es := (L.szNow c).filter (fun e => (vget L.slaz c).pending.contains e.2 && L.szReady c e.1)
  let best := es.foldl (fun (b : Option (SlazEntry × Nat)) e =>
    match b with
    | some x => if e.1.ident < x.1.ident then some e else b
    | none => some e) none
  match best with
  | some e =>
    let p := L.szPayload c e.1
    L.when (idle && L.szFits c e.1 && (vget L.slaz c).sending.isNone) (onSlaz c (fun z => { z with sending := some (e.2, p) }))
  | none => L
/-- An arbitrating window offers its frames: at its START, and again after each attempt (R377). -/
def arbOffer (c : Fin 2) (w : Nat) (idle : Bool) (L : Lane) : Lane :=
  L.when (L.szBegun c w && !(vget L.slaz c).ended.contains w) (fun L =>
    (L.when (!(vget L.slaz c).opened.contains w) (arbOpen c w)).arbSend c idle)
/-- A window with TX set starts, or the bus becomes idle in it (R376, R377). -/
def windowStart (c : Fin 2) (w : Nat) (idle : Bool) (L : Lane) : Lane :=
  match (L.szNow c).find? (fun e => e.1.tx && decide (e.1.window = w) && decide (e.1.kind ≠ .reference)) with
  | none => L
  | some e =>
    if e.1.kind = .arbitrating then L.arbOffer c w idle
    else L.when (L.szBegun c w) (fun L => (L.when (!(vget L.slaz c).opened.contains w) (windowCopy c e)).windowBegin c e idle)
/-- A window ends: what was copied and never began is dropped; every RX entry of an exclusive or vote window without an accepted frame is an
empty slot; what was offered stays ready for the next window (R376, R377, R379). -/
def windowEnd (c : Fin 2) (w : Nat) (L : Lane) : Lane :=
  let ws := (L.szNow c).filter (fun e => decide (e.1.window = w))
  L.when (ws.any (fun e => decide (1000 * (e.1.start + e.1.len) ≤ L.cycleTime c)) && !(vget L.slaz c).ended.contains w) (fun L =>
    let L := L.each (ws.filter (fun e => decide ((vget L.slaz c).copied.map (·.1) = some e.2))) (windowDrop c)
    let es := ws.filter (fun e =>
      e.1.rx && (decide (e.1.kind = .exclusive) || decide (e.1.kind = .vote)) && !(vget L.slaz c).filled.contains e.2)
    let L := L.each es (fun e L => (L.countMod (Reg.SZ_EMPTY c.val) 1).szMiss c e.1)
    L.onSlaz c (fun z => { z with ended := w :: z.ended, pending := [] }))

/-- A transfer of a buffer is complete (R376, R378, R397). -/
def szDone (c : Fin 2) (e : SlazEntry) (L : Lane) : Lane :=
  if e.buf < 64 then
    let L := ((L.countMod (Reg.SZ_BST_SEQ c.val e.buf) 1).clr (Reg.SZ_BST_MISSED c.val e.buf)).wr (Reg.SZ_BST_CYC c.val e.buf) (L.szCyc c)
    (if e.tx then L.clr (Reg.SZ_BST_READY c.val e.buf) else L.set1 (Reg.SZ_BST_NEW c.val e.buf)).when
      (L.is (Reg.SZ_BST_IE c.val e.buf)) (irq (.szBuffer c))
  else L
/-- A vote of the present matrix (R385): which occurrence, which mode. -/
def szVote (c : Fin 2) (i m : Nat) (L : Lane) : Lane :=
  let k := 64 * i + L.szCyc c
  L.onSlaz c (fun z => { z with votes := (k, m) :: z.votes.filter (fun v => decide (v.1 ≠ k)) })
/-- The lane's own data or vote frame completes (R376). -/
def ownData (c : Fin 2) (i : Nat) (p : List Byte) (L : Lane) : Lane :=
  match (L.szEntries c).find? (fun e => decide (e.2 = i)) with
  | none => L
  | some e =>
    let L := ((L.countMod (Reg.SZ_TXOK c.val) 1).szDone c e.1).send (.slaz c e.1.ident p)
    let L := L.onSlaz c (fun z => { z with pending := z.pending.filter (fun x => decide (x ≠ i)) })
    let L := L.each (szQueue e.1).toList queueSent
    L.when (decide (e.1.kind = .vote)) (szVote c i (ofLe (p.drop 1)))

/-- Write the payload bytes of a received frame to a buffer (R378, R398). -/
def szFill (c : Fin 2) (b : Nat) (bs : List Byte) (L : Lane) : Lane :=
  let old := (List.range 16).flatMap (fun k => leBytes 4 (L.rd (Reg.SZ_BUF c.val b k)))
  let new := bs ++ old.drop bs.length
  L.each (List.range 16) (fun k => wr (Reg.SZ_BUF c.val b k) (ofLe ((new.drop (4 * k)).take 4)))
/-- A data or vote frame is accepted into an entry; `bs` are its payload bytes after the header (R370, R378, R385). -/
def szAccept (c : Fin 2) (e : SlazEntry × Nat) (bs : List Byte) (L : Lane) : Lane :=
  let L := (L.countMod (Reg.SZ_RXOK c.val) 1).onSlaz c (fun z => { z with anyFrame := true, filled := e.2 :: z.filled })
  if e.1.kind = .vote then L.szVote c e.2 (ofLe (bs.take 1) % 8)
  else
    match szQueue e.1 with
    | some q =>
      let d := descrOf ((bs.take 63) ++ List.replicate (64 - min 63 bs.length) 0)
      let p := (vget L.img.queue q).port
      let L := L.placeNext q d
      if h : p < 4 then L.when (L.running (.session ⟨p, h⟩)) (restart (.session ⟨p, h⟩)) else L
    | none => (L.szFill c e.1.buf (bs.take (Check.dlcBytes e.1.dlc - 1))).szDone c e.1
/-- The RX entry into which a frame is accepted that began `since` ns ago and ends now (R378): the frame begins in its window, ends no later
than the window, and has its identifier, its DLC and the header of the current cycle. -/
def szHit (L : Lane) (c : Fin 2) (since : Nat) (f : SlazFrame) : Option (SlazEntry × Nat) :=
  let t := L.cycleTime c
  if L.szRuns c && f.kindOk && decide (since ≤ t) && decide (ofLe (f.payload.take 1) = L.szCyc c) then
    (L.szNow c).find? (fun e =>
      e.1.rx && decide (e.1.kind ≠ .reference) && decide (e.1.ident = f.ident) && decide (e.1.dlc = f.dlc) &&
        decide (1000 * e.1.start ≤ t - since) && decide (t - since < 1000 * (e.1.start + e.1.len)) && decide (t ≤ 1000 * (e.1.start + e.1.len)))
  else none
/-- A data or vote frame arrives: accepted, or wrong (R367, R378). A frame of the lane's own that lost the bus to it is not in transmission
any more; a reference frame waits for the bus. -/
def szReceive (c : Fin 2) (since : Nat) (f : SlazFrame) (L : Lane) : Lane :=
  let L := L.onSlaz c (fun z => { z with sending := z.sending.filter (fun x => decide (x.1 = refIndex)) })
  match L.szHit c since f with
  | some e => L.szAccept c e (f.payload.drop 1)
  | none => L.countMod (Reg.SZ_WRONG c.val) 1

/-! ### Reference frames (R380 to R387) -/

/-- The reference mark of a basic cycle, `since` ns ago (R380): cycle time 0, device time to 12.5 ns, the cycle source. -/
def szMark (c : Fin 2) (since : Nat) (L : Lane) : Lane :=
  let m := L.el - since
  let L := (L.wr (Reg.SZ_REFT c.val) ((L.now - since) * 2 / 25 * 25 / 2)).onSlaz c (fun z =>
    { z with mark := m, start := m, cycRef := true, anyFrame := true, missed := 0 })
  L.when (L.is (if c = 0 then Reg.SZ_CTRL_IE_CYC_X else Reg.SZ_CTRL_IE_CYC_Y)) (irq (.szCycle c))
/-- What every node takes from a reference frame (R380). -/
def szTake (c : Fin 2) (f : SlazRef) (L : Lane) : Lane :=
  L.loadFields [(Reg.SZ_STAT_CYC c.val, f.cyc), (Reg.SZ_STAT_INIT c.val, b2n f.init), (Reg.SZ_STAT_MODE c.val, f.mode),
    (Reg.SZ_STAT_NMODE c.val, f.nmode), (Reg.SZ_STAT_SWPEND c.val, b2n f.sw), (Reg.SZ_MCNT c.val, f.mcnt),
    (Reg.SZ_STAT_MRANK c.val, f.rank.val), (Reg.SZ_STAT_MVALID c.val, 1)]
/-- A mark `t` ns after the last one lies within tolerance (R382). -/
def szTolerance (L : Lane) (c : Fin 2) (t : Nat) : Bool :=
  let len := L.szLen c
  let k := max 1 ((t + len / 2) / len)
  decide (len * k ≤ t + 4 * len * k / 10000 + 1000) && decide (t ≤ len * k + L.szDelay len 7 + 1000)
/-- A mark `since` ns ago lies in the reference window: from the earliest moment within tolerance of the expected cycle start to the end of
the window (R380, R382; DEDUCED, log entry 34). -/
def inRefWindow (L : Lane) (c : Fin 2) (since : Nat) : Bool :=
  let z := vget L.slaz c
  let m := L.el - since
  let e := if z.cycRef then z.start + L.szLen c else z.start
  let w := ((L.szEntries c).find? (fun x => decide (x.1.kind = .reference))).map (fun x => 1000 * x.1.len)
  decide (e ≤ m + 4 * (e - z.mark) / 10000 + 1000) && decide (m < e + w.getD 0)
/-- A basic cycle's own clock has moved on since the last reference: the index that the next one must carry. -/
def szExpect (L : Lane) (c : Fin 2) : Nat :=
  if L.szState c = 3 ∨ (vget L.slaz c).cycRef then (L.szCyc c + 1) % L.szCycles c else L.szCyc c
/-- A flag of SZ_EVENT where a condition holds. -/
def szEvent (b : Bool) (f : Fld) (L : Lane) : Lane := L.when b (set1 f)
/-- SYNC, starting from a reference frame: nothing of its cycle has been received or begun (R382). -/
def szSync (c : Fin 2) (f : SlazRef) (L : Lane) : Lane :=
  ((L.szTo c 3).szTake c f).onSlaz c (fun z => { z with filled := [], opened := [], ended := [] })
/-- A reference frame of another node is accepted, whose mark came `since` ns ago (R380, R382, R387). -/
def szRefAccept (c : Fin 2) (since : Nat) (f : SlazRef) (L : Lane) : Lane :=
  let st := L.szState c
  let z := vget L.slaz c
  let m := L.el - since
  let tol := L.szTolerance c (m - z.mark)
  let seq := decide (f.cyc = L.szExpect c)
  let own := L.rd (Reg.SZ_STAT_MODE c.val)
  let modeBad := decide (f.cyc ≠ 0) && decide (f.mode ≠ own)
  let L := L.szMark c since
  if st = 1 then L.szSync c f
  else if st = 2 then
    (L.szEvent (decide (f.rank.val < L.szRank) && decide (z.attempt ≤ m)) (Reg.SZ_EVENT_ARBLOST c.val)).szSync c f
  else if st = 3 then
    if tol && seq then (L.szSync c f).wr (Reg.SZ_STAT_STATE c.val) 4
    else ((L.szEvent (!tol) (Reg.SZ_EVENT_TOLERR c.val)).szEvent (!seq) (Reg.SZ_EVENT_CYCJUMP c.val)).szSync c f
  else if st = 4 then
    if tol && seq && !modeBad then
      ((L.szEvent (decide (f.mode ≠ own)) (Reg.SZ_EVENT_SWITCHED c.val)).szTake c f).onSlaz c (fun z => { z with sending := none })
    else
      (((L.szEvent (!tol) (Reg.SZ_EVENT_TOLERR c.val)).szEvent (!seq) (Reg.SZ_EVENT_CYCJUMP c.val)).szEvent modeBad
        (Reg.SZ_EVENT_MODEERR c.val)).szSync c { f with mode := if modeBad then own else f.mode }
  else ((L.set1 (Reg.SZ_EVENT_MASTERCHG c.val)).szTo c 4).szTake c f
/-- A reference frame arrives (R378, R380). -/
def szRefRx (c : Fin 2) (since : Nat) (f : SlazRef) (L : Lane) : Lane :=
  let st := L.szState c
  if L.inRefWindow c since ∨ st = 1 ∨ st = 2 ∨ st = 3 then L.szRefAccept c since f
  else L.countMod (Reg.SZ_WRONG c.val) 1
/-- The basic cycles of index 0 that have begun since the last reference, up to the present cycle (R369). -/
def szWraps (L : Lane) (c : Fin 2) : Nat :=
  let n := L.szCycles c
  ((List.range ((vget L.slaz c).missed + 1)).filter (fun j => decide ((L.szCyc c + (n - 1) * j) % n = 0))).length
/-- The lane's own reference frame completes, whose mark came `since` ns ago; one that was in progress when the controller went OFF completes
without effect on it (R380, R381, R382). -/
def ownRef (c : Fin 2) (since : Nat) (acked : Bool) (L : Lane) : Lane :=
  let st := L.szState c
  let cold := decide (st = 2)
  let cyc := if cold then 0 else L.szCyc c
  let sw := !cold && L.is (Reg.SZ_STAT_SWPEND c.val)
  let mode := if cold then 0 else L.rd (Reg.SZ_STAT_MODE c.val)
  let f : SlazRef :=
    { rank := Fin.ofNat 8 L.szRank, cyc := cyc, init := cold || (decide (L.szWraps c = 0) && L.is (Reg.SZ_STAT_INIT c.val)),
      mode := mode, nmode := if sw then L.rd (Reg.SZ_STAT_NMODE c.val) else mode, sw := sw,
      mcnt := if cold then 0 else (L.rd (Reg.SZ_MCNT c.val) + L.szWraps c) % 65536 }
  let L := (L.countMod (Reg.SZ_TXOK c.val) 1).send (.slaz c L.szRank (refPayload f))
  if st ≠ 2 ∧ st ≠ 4 ∧ st ≠ 5 then L
  else
    let L := ((L.szMark c since).szEvent (decide (st = 4)) (Reg.SZ_EVENT_MASTERCHG c.val)).wr (Reg.SZ_STAT_ALONE c.val) (b2n (!acked))
    let L := L.when cold (onSlaz c (fun z => { z with filled := [], opened := [], ended := [], votes := [] }))
    (L.szTake c f).wr (Reg.SZ_STAT_STATE c.val) 5
/-- A frame of the lane's own that began `since` ns ago completes without error. -/
def ownComplete (c : Fin 2) (since : Nat) (acked : Bool) (L : Lane) : Lane :=
  match (vget L.slaz c).sending with
  | none => L
  | some (i, p) =>
    let L := L.onSlaz c (fun z => { z with sending := none })
    if i = refIndex then L.ownRef c since acked else L.ownData c i p

/-! ### Basic cycles, modes, class Z (R385 to R389, R112, R115) -/

/-- Every vote occurrence of a matrix of the channel (R385). -/
def voteSlots (L : Lane) (c : Fin 2) : List Nat :=
  ((L.szEntries c).filter (fun e => decide (e.1.kind = .vote))).flatMap (fun e =>
    ((List.range (L.szCycles c)).filter (entryApplies e.1)).map (fun k => 64 * e.2 + k))
/-- The unanimous mode of the matrix that ends (R385). -/
def szTally (L : Lane) (c : Fin 2) : Option Nat :=
  let vs := (L.voteSlots c).map (fun k => ((vget L.slaz c).votes.find? (fun v => decide (v.1 = k))).map (·.2))
  match vs with
  | some m :: rest =>
    if rest.all (fun v => decide (v = some m)) && decide (m ≠ L.rd (Reg.SZ_STAT_MODE c.val)) && decide (m < L.img.slaz.modes)
    then some m else none
  | _ => none
/-- A matrix ends: an announced switch takes effect, or the master tallies (R385 to R387). -/
def matrixEnd (c : Fin 2) (L : Lane) : Lane :=
  let L' :=
    if L.is (Reg.SZ_STAT_SWPEND c.val) then
      (((L.wr (Reg.SZ_STAT_MODE c.val) (L.rd (Reg.SZ_STAT_NMODE c.val))).clr (Reg.SZ_STAT_SWPEND c.val)).set1 (Reg.SZ_EVENT_SWITCHED c.val))
    else
      match L.szTally c, decide (L.szState c = 5) with
      | some m, true => (L.set1 (Reg.SZ_STAT_SWPEND c.val)).wr (Reg.SZ_STAT_NMODE c.val) m
      | _, _ => L
  L'.onSlaz c (fun z => { z with votes := [] })
/-- The cycle that ends is complete (R389). -/
def szComplete (L : Lane) (c : Fin 2) : Bool :=
  L.szRuns c && (vget L.slaz c).cycRef &&
    (L.szNow c).all (fun e => !(e.1.rx && (decide (e.1.kind = .exclusive) || decide (e.1.kind = .vote))) || (vget L.slaz c).filled.contains e.2)
/-- Class Z is judged on a channel: own count and both neighbours' at least 3, an unheard neighbour counting as silent
(R389). -/
def zLoss (L : Lane) (c : Fin 2) : Bool :=
  decide (3 ≤ L.rd (Reg.SZ_STAT_SILENT c.val)) &&
    [Side.prev, .next].all (fun s =>
      match L.fresh s with
      | some f => decide (3 ≤ vget f.silent c)
      | none => true)
/-- The judgement's effects: ZLOSS, source 388 or 389, Autumn with cause 2 (R115, R389). -/
def judgeZ (c : Fin 2) (L : Lane) : Lane :=
  let f := funcOfChannel c
  if L.zLoss c then
    ((L.set1 (Reg.SZ_STAT_ZLOSS c.val)).fireLevel (388 + c.val)).when (L.serves f) (autumn f 2)
  else (L.clr (Reg.SZ_STAT_ZLOSS c.val)).endLevel (388 + c.val)
/-- A channel has delivered every scheduled frame to every lane for 1 s (R112, R389). -/
def zClear (L : Lane) (c : Fin 2) : Bool :=
  decide ((vget L.slaz c).sinceInc + 1000000000 ≤ L.el) &&
    [Side.prev, .next].all (fun s =>
      match L.fresh s with
      | some f => decide (1000 ≤ vget f.sinceInc c)
      | none => false)
/-- A basic cycle ends: L after its start, in every state of the controller (R372, R379, R381, R389). -/
def cycleEnd (c : Fin 2) (L : Lane) : Lane :=
  let z := vget L.slaz c
  let runs := L.szRuns c
  let complete := L.szComplete c
  let L := if runs && z.anyFrame then L.clr (Reg.SZ_STAT_SILENT c.val) else L.count (Reg.SZ_STAT_SILENT c.val) 1
  let L := L.when (runs && !z.cycRef) (countMod (Reg.SZ_REFMISS c.val) 1)
  let L := L.when (!complete) (onSlaz c (fun z => { z with sinceInc := L.el }))
  let last := decide (L.szCyc c + 1 = L.szCycles c)
  let len := L.szLen c
  let L := L.onSlaz c (fun z =>
    { z with start := z.start + len, missed := if z.cycRef then 0 else z.missed + 1, cycRef := false, anyFrame := false, filled := [],
             opened := [], ended := [], copied := none, pending := [] })
  let L := if runs then
      let next := (L.szCyc c + 1) % L.szCycles c
      ((L.when last (matrixEnd c)).wr (Reg.SZ_STAT_CYC c.val) next).when (decide (L.szState c = 5)) (szSendRef c)
    else L
  L.judgeZ c

/-- SZ_CTRL.EN_c is written (R382, R391). -/
def szEnable (c : Fin 2) (en : Bool) (L : Lane) : Lane :=
  let L := L.wr (if c = 0 then Reg.SZ_CTRL_EN_X else Reg.SZ_CTRL_EN_Y) (b2n en)
  if !en then L.szTo c 0
  else if L.szState c = 0 ∧ L.szLive then L.szListen c else L
/-- A buffer is named only by TX entries or only by RX entries of the schedule (R374): its direction (R397). -/
def bufTx (L : Lane) (c : Fin 2) (b : Nat) : Bool :=
  L.img.slaz.entries.any (fun e => decide (e.chan = c) && decide (e.buf = b) && e.tx)

end Lane

/-! ### The commands -/

/-- SLAZ_WINDOW_START: a window with TX set starts, or the bus becomes idle in it; `idle` says that the bus is idle (R376, R377). -/
def execSlazWindowStart (l : LaneId) (dt : Nat) (c : Fin 2) (window : Fin 64) (idle : Bool) (s : State) : Host.Outcome State Fault Refusal :=
  onLane l (fun L =>
    let L := L.pass dt
    L.when (L.szRuns c) (Lane.windowStart c window.val idle)) s

/-- SLAZ_ARBITRATING_OFFER: the pending frames of an arbitrating window, after a lost arbitration, a completed frame or an error (R377). -/
def execSlazArbitratingOffer (l : LaneId) (dt : Nat) (c : Fin 2) (window : Fin 64) (idle : Bool) (s : State) :
    Host.Outcome State Fault Refusal :=
  onLane l (fun L =>
    let L := L.pass dt
    L.when (L.szRuns c && (L.szNow c).any (fun e => e.1.tx && decide (e.1.window = window.val) && decide (e.1.kind = .arbitrating)))
      (Lane.arbOffer c window.val idle)) s

/-- SLAZ_OWN_FRAME_COMPLETE: the frame in transmission, which began `since` ns ago, completes without error (R376, R380, R382). -/
def execSlazOwnFrameComplete (l : LaneId) (dt : Nat) (c : Fin 2) (since : Nat) (acked : Bool) (s : State) :
    Host.Outcome State Fault Refusal :=
  onLane l (fun L =>
    let L := L.pass dt
    L.when L.firmware (Lane.ownComplete c since acked)) s

/-- SLAZ_FRAME_RX: a data or vote frame, which began `since` ns ago, is received (R367, R378). -/
def execSlazFrameRx (l : LaneId) (dt : Nat) (c : Fin 2) (since : Nat) (f : SlazFrame) (s : State) : Host.Outcome State Fault Refusal :=
  onLane l (fun L =>
    let L := L.pass dt
    L.when (L.szOnBus c) (Lane.szReceive c since f)) s

/-- SLAZ_REFERENCE_FRAME_RX: a reference frame, whose mark came `since` ns ago, is received (R369, R380, R382, R387). -/
def execSlazReferenceFrameRx (l : LaneId) (dt : Nat) (c : Fin 2) (since : Nat) (rank : Fin 8) (payload : Word) (s : State) :
    Host.Outcome State Fault Refusal :=
  onLane l (fun L =>
    let L := L.pass dt
    L.when (L.szOnBus c) (Lane.szRefRx c since (refFrame rank payload.toNat))) s

/-- SLAZ_WINDOW_END: a window ends (R379). -/
def execSlazWindowEnd (l : LaneId) (dt : Nat) (c : Fin 2) (window : Fin 64) (s : State) : Host.Outcome State Fault Refusal :=
  onLane l (fun L =>
    let L := L.pass dt
    L.when (L.szRuns c) (Lane.windowEnd c window.val)) s

/-- SLAZ_CYCLE_END: a basic cycle ends (R385 to R389). -/
def execSlazCycleEnd (l : LaneId) (dt : Nat) (c : Fin 2) (s : State) : Host.Outcome State Fault Refusal :=
  onLane l (fun L =>
    let L := L.pass dt
    L.when (L.firmware && decide (L.szLen c ≤ L.cycleTime c)) (Lane.cycleEnd c)) s

/-- SLAZ_BACKUP_ATTEMPT: a backup attempts a reference frame at D_RANK after the cycle start that it expects, unless a frame has started
(R381). -/
def execSlazBackupAttempt (l : LaneId) (dt : Nat) (c : Fin 2) (busFree : Bool) (s : State) : Host.Outcome State Fault Refusal :=
  onLane l (fun L =>
    let L := L.pass dt
    L.when (L.szLive && decide (L.szState c = 4) && decide (L.szRank < 8) && busFree && !(vget L.slaz c).cycRef &&
      decide (L.szDelay (L.szLen c) L.szRank ≤ L.cycleTime c)) (Lane.szSendRef c)) s

/-- SLAZ_LISTEN_TIMEOUT: LISTEN to COLD, which attempts a reference frame at once (R382, R383). -/
def execSlazListenTimeout (l : LaneId) (dt : Nat) (c : Fin 2) (s : State) : Host.Outcome State Fault Refusal :=
  onLane l (fun L =>
    let L := L.pass dt
    L.when (L.szLive && decide (L.szState c = 1) && decide (L.szRank < 8) && L.due (.szListen c) L.szListenNs) (fun L =>
      (((L.szTo c 2).stop (.szListen c)).szSendRef c).onSlaz c (fun z => { z with attempt := L.el }))) s

/-- SLAZ_SYNC_TIMEOUT: SYNC to LISTEN after 2 × L without a reference frame (R382). -/
def execSlazSyncTimeout (l : LaneId) (dt : Nat) (c : Fin 2) (s : State) : Host.Outcome State Fault Refusal :=
  onLane l (fun L =>
    let L := L.pass dt
    L.when (L.szLive && decide (L.szState c = 3) && decide ((vget L.slaz c).mark + 2 * L.szLen c ≤ L.el)) (Lane.szListen c)) s

/-- SLAZ_REFERENCE_MISS: no reference frame accepted in 2 consecutive cycles (R382). -/
def execSlazReferenceMiss (l : LaneId) (c : Fin 2) (s : State) : Host.Outcome State Fault Refusal :=
  onLane l (fun L => L.when (L.szRuns c && decide (2 ≤ (vget L.slaz c).missed)) (fun L =>
    (L.set1 (Reg.SZ_EVENT_REFMISS c.val)).szListen c)) s

/-- SLAZ_ERROR_FRAME: an error frame is seen, with the error counters after it (R367, R382, R398). -/
def execSlazErrorFrame (l : LaneId) (c : Fin 2) (tec rec : Nat) (s : State) : Host.Outcome State Fault Refusal :=
  onLane l (fun L => L.when (L.szOnBus c) (fun L =>
    let L := (((L.countMod (Reg.SZ_ERRF c.val) 1).wr (Reg.SZ_ERRC_TEC c.val) (min 255 tec)).wr (Reg.SZ_ERRC_REC c.val) (min 255 rec)).wr
      (Reg.SZ_ERRC_EP c.val) (b2n (decide (128 ≤ tec) || decide (128 ≤ rec)))
    if L.szState c = 2 then L.szListen c else L.onSlaz c (fun z => { z with sending := none }))) s

/-- SLAZ_BUS_OFF: the transmit error counter passes 255 (R382, R393). -/
def execSlazBusOff (l : LaneId) (c : Fin 2) (s : State) : Host.Outcome State Fault Refusal :=
  onLane l (fun L => L.when (L.szOnBus c) (fun L =>
    (L.set1 (Reg.SZ_EVENT_BUSOFF c.val)).szTo c 6)) s

/-- SLAZ_BUS_OFF_RECOVERED: BUSOFF to LISTEN, the error counters 0 as ISO 11898-1 leaves them (R382; PRESUMED, log entry
35). -/
def execSlazBusOffRecovered (l : LaneId) (c : Fin 2) (s : State) : Host.Outcome State Fault Refusal :=
  onLane l (fun L => L.when (L.szLive && decide (L.szState c = 6)) (fun L =>
    (L.loadFields [(Reg.SZ_ERRC_TEC c.val, 0), (Reg.SZ_ERRC_REC c.val, 0), (Reg.SZ_ERRC_EP c.val, 0)]).szListen c)) s

/-- AUTUMN_CAUSE_CLEAR_TIMER: cause 2 clears when the channel has delivered for 1 s, cause 6 when the locked port of the
vehicle host has sent valid frames for 1 s (R112). -/
def execAutumnCauseClearTimer (l : LaneId) (dt : Nat) (f : Func) (cause : Fin 8) (s : State) : Host.Outcome State Fault Refusal :=
  onLane l (fun L =>
    let L := L.pass dt
    if cause = 2 then
      L.when ((List.finRange 2).all (fun c => decide (funcOfChannel c ≠ f) || L.zClear c)) (Lane.clearCause f 2)
    else
      L.when (cause == 6 && L.due (.causeClear f 6) 1000000000) (fun L => (L.clearCause f 6).stop (.causeClear f 6))) s

end Sys2Proof.Machine
end

