-- ==== Sys2Proof/Machine/Time.lean ====
section
/-! DEFINITION. Device time, its agreement and discipline, the gPTP port and the timed pulses: rows TIME_FRAME_SEND to
TP_PULSE_END of the table but for TIME_STEP_INSTANT, which stands with the bus (R399 to R424). -/

namespace Sys2Proof.Machine

namespace Lane

/-- Change one neighbour's time. -/
def onNbT (s : Side) (g : TimeNb → TimeNb) (L : Lane) : Lane := L.onTime (fun t => { t with nb := vupd t.nb s.ix g })
/-- A neighbour is in agreement (R404). -/
def agrees (L : Lane) (s : Side) : Bool := (vget L.time.nb s.ix).agree
/-- No neighbour is in agreement (R405). -/
def alone (L : Lane) : Bool := !L.agrees .prev && !L.agrees .next
/-- Enter a discipline state (R414, R420); EN_PTP_STAT.LOCKED shows LOCKED (R423). -/
def setDisc (v : Nat) (L : Lane) : Lane := (L.wr Reg.TS_STAT_DISC v).wr Reg.EN_PTP_STAT_LOCKED (b2n (decide (v = 3)))
/-- The neighbour on a side belongs to the agreeing set: through agreement with it, or with the other one that agrees
with it (R407). -/
def inAgreeSet (L : Lane) (s : Side) : Bool :=
  L.agrees s ||
    (match s with
     | .prev => L.agrees .next && ((vget L.time.nb 1).frame.map (·.agreeNext)).getD false
     | .next => L.agrees .prev && ((vget L.time.nb 0).frame.map (·.agreePrev)).getD false)
/-- The neighbours of the agreeing set with their last time frames. -/
def agreeSet (L : Lane) : List (Side × TimeFrame) :=
  [Side.prev, .next].filterMap (fun s => if L.inAgreeSet s then (vget L.time.nb s.ix).frame.map (fun f => (s, f)) else none)
/-- The lane is the time leader of its agreeing set: its lowest-lettered lane (R407). -/
def isLeader (L : Lane) : Bool := L.agreeSet.all (fun e => decide (L.id.code < L.sideCode e.1))
/-- TIME_AS is accepted and the image enables it, so that the gPTP port runs (R409). -/
def ptpOn (L : Lane) : Bool := L.firmware && L.feature 6 && decide (L.img.time.asEnable = 1)

/-- Agreement has changed: TS_STAT, UNLOCK and source 384 follow (R174, R404, R405, R407). -/
def showAgree (L : Lane) : Lane :=
  let was := L.is (Reg.DE_STATUS_UNLOCK 0)
  let L := ((L.wr Reg.TS_STAT_AGREE_PREV (b2n (L.agrees .prev))).wr Reg.TS_STAT_AGREE_NEXT (b2n (L.agrees .next))).wr
    Reg.TS_STAT_LEADER (b2n L.isLeader)
  let L := L.each (List.range 4) (fun p => wr (Reg.DE_STATUS_UNLOCK p) (b2n L.alone))
  if L.alone then
    let L := (L.onTime (fun t => { t with rateAgree := 0 })).when (!was) (restart .unlock)
    L.when L.armedState (fireLevel 384)
  else (((L.stop .unlock).endLevel 384).each (List.range 3) (fun p => endLevel (72 + p)))
/-- The lowest letter of the lane's agreeing set: the time leader's (R407). -/
def leaderCode (L : Lane) : Nat := L.agreeSet.foldl (fun v e => min v (L.sideCode e.1)) L.id.code
/-- A neighbour enters agreement (R404). -/
def agreeEnter (s : Side) (L : Lane) : Lane := ((L.onNbT s (fun n => { n with agree := true, badRun := 0 })).stop (.agree s)).showAgree
/-- A neighbour leaves agreement; a lane that leaves its leader's set does not take the announced step (R404, R408). -/
def agreeLeave (s : Side) (L : Lane) : Lane :=
  let led := L.leaderCode
  let L := ((L.onNbT s (fun n => { n with agree := false, badRun := 0 })).stop (.agree s)).showAgree
  L.when (decide (L.leaderCode ≠ led)) (onTime (fun t => { t with step := none }))

/-! ### Steps (R400, R401, R406, R408, R417, R418) -/

/-- The instant of a step that is decided now (R408). -/
def stepInstant (L : Lane) : Nat :=
  let wait := match L.time.lastStep with
    | some e => e + 1000000000 - L.el
    | none => 0
  let t := L.now + max 200000 wait
  (t + 999999) / 1000000 * 1000000
/-- A step is announced, unless one is announced already (R408). -/
def announceStep (d : Int) (acq : Bool) (L : Lane) : Lane :=
  if L.time.step.isSome then L else L.onTime (fun t => { t with step := some (d, L.stepInstant), acqStep := acq })
/-- Change one timed pulse. -/
def onPulse (n : Fin 4) (g : PulseSt → PulseSt) (L : Lane) : Lane := { L with pulse := vupd L.pulse n g }
/-- The TIM power domain is on (R419). -/
def timOn (L : Lane) : Bool := decide (L.rd Reg.PD_STATE_STATE_6 = 0)
/-- A timed pulse begins now (R417 to R419, R422). -/
def pulseBegin (n : Fin 4) (L : Lane) : Lane :=
  ((L.onPulse n (fun p => { p with active := true, endAt := L.el + 10 * L.rd (Reg.TP_CFG_WIDTH n.val) })).send
    (.pulse n true)).when (L.is (Reg.TP_CFG_IE n.val)) (irq (.tp n))
/-- A single pulse is not produced (R417, R419). -/
def pulseLate (n : Fin 4) (L : Lane) : Lane :=
  ((L.set1 (Reg.TP_STAT_LATE n.val)).wr (Reg.TP_CFG_MODE n.val) 0).when (L.is (Reg.TP_CFG_IE n.val)) (irq (.tp n))
/-- The first grid point of a periodic output strictly after a time (R418). -/
def gridAfter (L : Lane) (n : Fin 4) (t : Int) : Int :=
  t + 1 + ((L.rd (Reg.TP_START n.val) : Int) - (t + 1)) % (max 1 (L.rd (Reg.TP_PERIOD n.val)) : Nat)
/-- A step meets one timed pulse (R417, R418). -/
def pulseStep (n : Fin 4) (L : Lane) : Lane :=
  let p := vget L.pulse n
  let mode := L.rd (Reg.TP_CFG_MODE n.val)
  if mode = 1 ∧ ¬p.active ∧ p.next ≤ L.now then
    if L.timOn then (L.set1 (Reg.TP_STAT_JUMPED n.val)).pulseBegin n else L.pulseLate n
  else if mode = 2 then
    let per : Int := (max 1 (L.rd (Reg.TP_PERIOD n.val)) : Nat)
    let k := if p.next ≤ L.now then ((L.now : Int) - p.next) / per + 1 else 0
    (L.count (Reg.TP_STAT_SKIP n.val) k.toNat).onPulse n (fun x => { x with next := L.gridAfter n L.now })
  else L
/-- The carriers run on through a step: the last period starts lie where the stepped time would have had them, so that the next ones come
when they would have come and then slew to the grid (R174). -/
def carryCarriers (d : Int) (L : Lane) : Lane := { L with engine := L.engine.map (fun (e : EngineSt) => { e with psTick := e.psTick + d * 20 / 3 }) }
/-- Device time steps (R174, R400, R401, R406, R408). -/
def takeStep (d : Int) (at' : Nat) (L : Lane) : Lane :=
  let acq := L.time.acqStep
  let L := L.carryCarriers d
  let L := L.onTime (fun t =>
    { t with dev := ((t.dev : Int) + d * 2 ^ 48).toNat % 2 ^ 112, step := none, acqStep := false, lastStep := some L.el })
  let L := ((L.wr Reg.TS_STEP (uns 64 d)).wr Reg.TS_STEP_AT at').countMod Reg.TS_STEPCNT 1
  let L := L.when acq (set1 Reg.TS_STAT_ACQ)
  let L := L.when L.alone (onTime (fun t => { t with nb := t.nb.map (fun (n : TimeNb) => { n with samples := [] }) }))
  L.each (List.finRange 4) pulseStep

/-- Whether this lane steps to the neighbour, by the rows of R406. -/
def joinsTo (L : Lane) (s : Side) (f : TimeFrame) (offset16 : Int) : Bool :=
  let other := if s = .prev then f.agreePrev else f.agreeNext
  let up (v : Nat) : Bool := decide (3 ≤ v) && decide (v ≤ 5)
  if other then true
  else if L.is Reg.TS_STAT_ACQ != f.acq then f.acq
  else if up L.svc != up f.state then up f.state
  else decide (0 < offset16)

/-! ### Discipline (R412 to R415) -/

/-- No lane of the agreeing set has reached ARMED (R413). -/
def acquiring (L : Lane) : Bool := !L.armedState && L.agreeSet.all (fun e => !(decide (3 ≤ e.2.state) && decide (e.2.state ≤ 5)))
/-- The offset is refused (R413). -/
def refuses (L : Lane) (o : Int) : Bool := !L.acquiring && decide (1000 < o.natAbs) && decide (L.rd Reg.TS_JTHR < o.natAbs)
/-- The phase term that corrects an offset, in 10^-11: at most ±100 ppm, a free value (R413; log entry 37). -/
def phaseTerm (o : Int) : Int := o.sign * (1 + (Config.freeOf .unstated [1005, o]).natAbs % 10000000 : Nat)
/-- An offset that is not refused is slewed or stepped (R413). -/
def treat (o : Int) (L : Lane) : Lane :=
  let acq := L.acquiring
  let L := L.onTime (fun t => { t with rateDisc := L.ptp.ratio })
  if acq then L.announceStep o true
  else if o.natAbs ≤ 1000 then L.onTime (fun t => { t with phase := phaseTerm o, slew := o * 2 ^ 48 })
  else L.announceStep o false
/-- The jump awaits a decision: PEND, source 385 (R414). -/
def jumpPends (L : Lane) : Lane := ((L.set1 Reg.TS_JUMP_PEND).fire 385).irq .tsPend
/-- A neighbour's own grandmaster offset in its last time frame: its letter, the grandmaster, the sequenceId, the offset. -/
def nbOffsets (L : Lane) : List (Nat × Nat × Nat × Int) :=
  L.agreeSet.filterMap (fun e => e.2.gmOffset.map (fun o => (L.sideCode e.1, e.2.gmId, e.2.gmSeq, o)))
/-- The grandmaster identity and the sequenceId that the leader decides about: its own Sync's, or without a grandmaster the one of the
lowest-lettered lane that has one (R412). -/
def gmFollowed (L : Lane) : Option (Nat × Nat) :=
  match L.time.ownGm with
  | some (_, g) => some (g, L.time.ownSeq)
  | none =>
    (L.nbOffsets.foldl (fun (b : Option (Nat × Nat × Nat × Int)) e =>
      match b with
      | some x => if e.1 < x.1 then some e else b
      | none => some e) none).map (fun x => (x.2.1, x.2.2.1))
/-- The offsets of the set for them, and whether every lane that reports this grandmaster has given its own (R412). -/
def gmOffsets (L : Lane) (g seq : Nat) : List Int × Bool :=
  let nbs := L.nbOffsets.filter (fun e => decide (e.2.1 = g))
  ((L.time.ownGm.map (·.1)).toList ++ (nbs.filter (fun e => decide (e.2.2.1 = seq))).map (·.2.2.2),
   nbs.all (fun e => decide (e.2.2.1 = seq)))
/-- The median of three offsets, the mean of two, or the single one (R412). -/
def combine : List Int → Option Int
  | [a] => some a
  | [a, b] => some (floorFree .combined (a + b) 2)
  | [a, b, c] => some (max (min a b) (min (max a b) c))
  | _ => none
/-- The leader treats a combined offset (R413, R414). -/
def decideFor (g : Nat) (o : Int) (L : Lane) : Lane :=
  let disc := L.rd Reg.TS_STAT_DISC
  if disc = 6 then (if L.time.rejected = some g then L else (L.setDisc 1).onTime (fun t => { t with rejected := none }))
  else
    let L := (L.wr Reg.TS_JUMP_OFS (uns 64 o)).onTime (fun t => { t with followed := some g })
    if L.refuses o then
      if disc = 5 then L else ((L.setDisc 5).jumpPends).onTime (fun t => { t with lockedRun := 0 })
    else
      let L := L.when (decide (disc = 5)) (fun L => (L.clr Reg.TS_JUMP_PEND).set1 Reg.TS_JUMP_WITHDRAWN)
      let run := if o.natAbs ≤ 100 then L.time.lockedRun + 1 else 0
      let run := if disc = 2 then run else 0
      let L := (L.treat o).onTime (fun t => { t with lockedRun := run })
      if disc = 3 then L else if disc = 2 ∧ 8 ≤ run then L.setDisc 3 else L.setDisc 2
/-- The leader decides once for a sequenceId: when it has the offset of every lane that reports the grandmaster, or 2 ms after its own (R412). -/
def decideOffset (L : Lane) : Lane :=
  match L.gmFollowed with
  | none => L
  | some (g, seq) =>
    let os := L.gmOffsets g seq
    match combine os.1 with
    | none => L
    | some o =>
      L.when (decide (L.rd Reg.TS_STAT_DISC ≠ 0) && decide (L.time.decided ≠ some (g, seq)) && (os.2 || L.due .sync 2000000)) (fun L =>
        (L.onTime (fun t => { t with decided := some (g, seq) })).decideFor g o)
/-- The leader acts on a request of R415: 1 ACCEPT, 2 REJECT, 3 RESUME; whether it fits. -/
def actRequest (r : Nat) (L : Lane) : Lane :=
  let disc := L.rd Reg.TS_STAT_DISC
  if r = 1 ∧ disc = 5 then
    ((L.announceStep (sgn 64 (L.rd Reg.TS_JUMP_OFS)) false).setDisc 2).clr Reg.TS_JUMP_PEND |>.onTime (fun t => { t with lockedRun := 0 })
  else if r = 2 ∧ disc = 5 then
    ((L.setDisc 6).clr Reg.TS_JUMP_PEND).onTime (fun t => { t with rejected := t.followed, slew := 0 })
  else if r = 3 ∧ disc = 6 then (L.setDisc 1).onTime (fun t => { t with rejected := none })
  else L
/-- A request fits a discipline state (R414). -/
def requestFits (L : Lane) (r : Nat) : Bool :=
  if r = 3 then decide (L.rd Reg.TS_STAT_DISC = 6) else decide (L.rd Reg.TS_STAT_DISC = 5)
/-- A request of ACCEPT, REJECT or RESUME (R415, R421). -/
def jumpRequest (r : Nat) (L : Lane) : Lane :=
  if !L.firmware then L
  else if !L.requestFits r then L.set1 Reg.TS_JUMP_NOPEND
  else if L.isLeader then L.actRequest r
  else L.onTime (fun t => { t with request := r })

/-- A write of TS_JUMP: of ACCEPT and REJECT together REJECT wins (R415). -/
def jumpWrite (v : Nat) (L : Lane) : Lane :=
  (((L.when (nbit v 2) (jumpRequest 2))).when (nbit v 1 && !nbit v 2) (jumpRequest 1)).when (nbit v 3) (jumpRequest 3)

/-! ### Time frames (R403, R404, R414, R415) -/

/-- The announcement of the step that was taken within the last second, which is on its way still; after a backward step its instant lies
ahead again (R408, log entry 37). -/
def stepTaken (L : Lane) (d : Int × Nat) : Bool :=
  (L.time.lastStep.any (fun e => decide (L.el < e + 1000000000))) && decide (L.rd Reg.TS_STEP = uns 64 d.1) &&
    decide (L.rd Reg.TS_STEP_AT = d.2 % 2 ^ 64)
/-- What a lane takes from its leader's time frame: the discipline state, ACQ, a step announcement, PEND (R407, R408, R413,
R414). -/
def followLeader (f : TimeFrame) (L : Lane) : Lane :=
  let L := (L.setDisc f.disc).when f.acq (set1 Reg.TS_STAT_ACQ)
  let L := match f.step with
    | some d => L.when (decide (L.now < d.2) && !L.stepTaken d) (onTime (fun t => { t with step := some d }))
    | none => L
  if f.jumpPend && !L.is Reg.TS_JUMP_PEND then L.jumpPends
  else L.when (!f.jumpPend) (clr Reg.TS_JUMP_PEND)
/-- The offset and the link delay that a time frame gives with its echo, in 2^-17 ns; one that spans a step gives none (R402, R403). -/
def timeSample (L : Lane) (f : TimeFrame) : Option (Int × Int) :=
  match f.echo with
  | some (t1, t2) =>
    let r : Int := (L.time.dev / 2 ^ 32 : Nat)
    if L.fixStamp (t1 / 65536) = t1 / 65536 then
      some ((t2 : Int) - t1 + (f.sent - r), r - t1 - ((f.sent : Int) - t2))
    else none
  | none => none
/-- Offset and delay are filtered over 16 frames to 1/16 ns (R403): their mean (DESIGN CHOICE, log entry 37). -/
def timeFilter (s : Side) (x : Int × Int) (L : Lane) : Lane :=
  let xs := x :: (vget L.time.nb s.ix).samples.take 15
  let o := floorFree .combined ((xs.map (·.1)).sum * 16) (131072 * xs.length)
  let d := floorFree .combined ((xs.map (·.2)).sum * 16) (131072 * xs.length)
  (L.wr (Reg.TS_NBOFS (L.sideCode s)) (uns 32 (clampI (-2 ^ 31) (2 ^ 31 - 1) o))).onNbT s (fun n =>
    { n with samples := xs, offset16 := o, delay16 := d })
/-- What the lane steers towards, as an offset from its own time in 1/16 ns: the median of its own time and those of its neighbours in
agreement, with one of them the midpoint (R404). -/
def steerTarget (L : Lane) : Int :=
  match [Side.prev, .next].filterMap (fun s => if L.agrees s then some (vget L.time.nb s.ix).offset16 else none) with
  | [a] => a / 2
  | [a, b] => max (min a b) (min (max a b) 0)
  | _ => 0
/-- The agreement term, in 10^-11: towards the target, at most ±20 ppm, a free value (R404; log entry 37). -/
def steerTerm (t : Int) : Int := t.sign * ((Config.freeOf .unstated [1004, t]).natAbs % 2000001 : Nat)
/-- An offset that has been measured bears on agreement (R404), and on a lane that agrees with none (R406). -/
def timeJudge (s : Side) (f : TimeFrame) (L : Lane) : Lane :=
  let o := (vget L.time.nb s.ix).offset16
  let far := decide (800 < o.natAbs)
  let L := if L.agrees s then
      let k := if far then (vget L.time.nb s.ix).badRun + 1 else 0
      let L := L.onNbT s (fun n => { n with badRun := k })
      if 10 ≤ k then L.agreeLeave s else L
    else if o.natAbs ≤ 32 then L.start1 (.agree s) else L.stop (.agree s)
  L.when (L.alone && far && L.joinsTo s f o) (announceStep (o / 16) false)
/-- A time frame arrives from a neighbour (R403 to R408, R414, R415). -/
def timeReceive (s : Side) (f : TimeFrame) (L : Lane) : Lane :=
  let L := (L.linkHeard s).restart (.timeFrame s)
  let now := L.time.dev / 2 ^ 32
  let x := L.timeSample f
  let L := L.onNbT s (fun n => { n with frame := some f, heard := some (f.sent, now) })
  let L := match x with
    | some x => (L.timeFilter s x).timeJudge s f
    | none => L
  let L := if L.alone then L else
    let r := steerTerm L.steerTarget
    L.onTime (fun t => { t with rateAgree := r })
  let L := L.wr Reg.TS_STAT_LEADER (b2n L.isLeader)
  let L := L.when (!L.isLeader && L.inAgreeSet s && f.leader) (followLeader f)
  L.when (L.isLeader && L.inAgreeSet s && decide (f.request ≠ 0)) (actRequest f.request)
/-- The time frame that the lane sends to a neighbour (R403). -/
def timeFrame (L : Lane) (s : Side) : TimeFrame :=
  { sent := L.time.dev / 2 ^ 32, echo := (vget L.time.nb s.ix).heard, state := L.svc, agreePrev := L.agrees .prev, agreeNext := L.agrees .next,
    leader := L.isLeader, acq := L.is Reg.TS_STAT_ACQ, disc := L.rd Reg.TS_STAT_DISC, gmOffset := L.time.ownGm.map (·.1),
    gmId := (L.time.ownGm.map (·.2)).getD 0, gmSeq := L.time.ownSeq, step := L.time.step, jumpPend := L.is Reg.TS_JUMP_PEND,
    request := L.time.request }
/-- A time frame goes to each neighbour; a request travels once (R403, R415). -/
def timeSend (L : Lane) : Lane :=
  ((L.send (.time (L.timeFrame .prev) (L.timeFrame .next).echo)).onTime (fun t => { t with request := 0 })).restart .timeSend

/-! ### The gPTP port (R409 to R411) -/

/-- The port has lost its peer: it is not asCapable and no slave, and three exchanges are wanted anew (R409; log entry 39). -/
def ptpLost (L : Lane) : Lane :=
  ({ L with ptp := { L.ptp with t1 := none, good := 0 } }.clr Reg.EN_PTP_STAT_ASCAP).clr Reg.EN_PTP_STAT_SLAVE
/-- A gPTP message arrives: the port takes it when NET is on; otherwise it is lost and wakes NET (R409, R462, R466). -/
def ptpRx (act : Lane → Lane) (L : Lane) : Lane :=
  if decide (L.rd Reg.PD_STATE_STATE_3 = 0) then L.when L.ptpOn act else L.pdWake 3 13
/-- A Sync gives the lane its grandmaster offset (R411): times in ns, `corr` in 2^-16 ns, `trx` the capture (R410). -/
def ptpSync (origin trx : Nat) (corr : Int) (gm seq : Nat) (logSync : Int) (L : Lane) : Lane :=
  if logSync < -5 ∨ 0 < logSync then L
  else
    let num := (((origin : Int) - trx) * 65536 + corr - sgn 32 (L.rd Reg.EN_RXCORR)) * 10 ^ 11 +
      (L.rd Reg.EN_MLD : Int) * 65536 * (10 ^ 11 + L.ptp.ratio)
    let o := floorFree .standard num (65536 * 10 ^ 11)
    let L := (L.wr Reg.EN_OFS (uns 32 (clampI (-2 ^ 31) (2 ^ 31 - 1) o))).wr Reg.EN_GMID gm
    ((L.wr Reg.EN_PTP_STAT_LOGSYNC (uns 4 logSync)).onTime (fun t => { t with ownGm := some (o, gm), ownSeq := seq })).restart .sync
/-- The interval of the port's Pdelay_Req in ns (R409, R423). -/
def pdelayNs (L : Lane) : Nat :=
  let v := sgn 4 (L.rd Reg.EN_PTP_CFG_LOGPDELAY)
  if 0 ≤ v then 1000000000 * 2 ^ v.toNat else 1000000000 / 2 ^ (-v).toNat
/-- Three Sync intervals in ns (R409, R414). -/
def syncNs (L : Lane) : Nat := 3000000000 / 2 ^ (-(sgn 4 (L.rd Reg.EN_PTP_STAT_LOGSYNC))).toNat
/-- A peer-delay exchange completes: meanLinkDelay, asCapable (R409). -/
def pdelayDone (t1 t2 t3 t4 : Nat) (ratio : Int) (L : Lane) : Lane :=
  let t4' : Int := (t4 : Int) * 65536 + sgn 32 (L.rd Reg.EN_RXCORR)
  let num := (t4' - (t1 : Int) * 65536 - sgn 32 (L.rd Reg.EN_TXCORR)) * (10 ^ 11 + ratio) - ((t3 : Int) - t2) * 65536 * 10 ^ 11
  let d := floorFree .standard num (2 * 65536 * 10 ^ 11)
  let good := min 3 (L.ptp.good + 1)
  let ok := decide (d ≤ L.rd Reg.EN_PTP_CFG_THRESH) && decide (3 ≤ good)
  let L := { L with ptp := { L.ptp with t1 := none, good := good, ratio := ratio } }
  (L.wr Reg.EN_MLD (clampI 0 (2 ^ 32 - 1) d).toNat).wr Reg.EN_PTP_STAT_ASCAP (b2n ok)

/-! ### Timed pulses (R416 to R419) -/

/-- What a timed-pulse ball drives: nothing before READY, then the level that POL calls active or inactive (R416, R419). -/
def pulseBall (L : Lane) (n : Fin 4) : Option Bool :=
  if L.firmware then some (((vget L.pulse n).active && L.timOn) != L.is (Reg.TP_CFG_POL n.val)) else none
/-- A write of TP_CFG_n: MODE 3 is ignored, as is a periodic output whose WIDTH is not below its PERIOD (R416, R419,
R422). -/
def pulseConfig (n : Fin 4) (v : Nat) (L : Lane) : Lane :=
  let mode := nbits v 0 2
  let width := nbits v 4 28
  let old := L.rd (Reg.TP_CFG_MODE n.val)
  if mode = 2 ∧ L.rd (Reg.TP_PERIOD n.val) ≤ 10 * width then L
  else
    let L := ((L.wr (Reg.TP_CFG_POL n.val) (nbits v 2 1)).wr (Reg.TP_CFG_IE n.val) (nbits v 3 1)).wr (Reg.TP_CFG_WIDTH n.val) width
    if mode = 3 then L
    else
      let L := L.wr (Reg.TP_CFG_MODE n.val) mode
      if mode = 0 then
        (L.when (vget L.pulse n).active (send (.pulse n false))).onPulse n (fun p => { p with active := false })
      else if mode = 2 then L.onPulse n (fun p => { p with next := L.gridAfter n L.now })
      else if old ≠ 1 ∧ L.rd (Reg.TP_START n.val) ≤ L.now then L.pulseLate n
      else L.onPulse n (fun p => { p with next := (L.rd (Reg.TP_START n.val) : Int) })
/-- A programmed start of a timed pulse is reached (R417 to R419). -/
def pulseStart (n : Fin 4) (L : Lane) : Lane :=
  let p := vget L.pulse n
  let mode := L.rd (Reg.TP_CFG_MODE n.val)
  if mode = 0 ∨ p.active ∨ (L.now : Int) < p.next then L
  else if mode = 1 then (if L.timOn then L.pulseBegin n else L.pulseLate n)
  else
    let L := L.onPulse n (fun x => { x with next := p.next + L.rd (Reg.TP_PERIOD n.val) })
    if L.timOn then L.pulseBegin n else L.count (Reg.TP_STAT_SKIP n.val) 1
/-- A timed pulse ends WIDTH after its start; a single output returns to MODE 0 (R417). -/
def pulseEnd (n : Fin 4) (L : Lane) : Lane :=
  let p := vget L.pulse n
  if p.active ∧ p.endAt ≤ L.el then
    ((L.onPulse n (fun x => { x with active := false })).send (.pulse n false)).when
      (decide (L.rd (Reg.TP_CFG_MODE n.val) = 1)) (wr (Reg.TP_CFG_MODE n.val) 0)
  else L

end Lane

/-! ### The commands -/

/-- TIME_FRAME_SEND: every 10 µs (R403). -/
def execTimeFrameSend (l : LaneId) (dt : Nat) (s : State) : Host.Outcome State Fault Refusal :=
  onLane l (fun L =>
    let L := L.pass dt
    L.when (L.powered && (!L.running .timeSend || L.due .timeSend 10000)) Lane.timeSend) s

/-- TIME_FRAME_RX: a time frame arrives (R403, R404, R406 to R408, R414, R415). -/
def execTimeFrameRx (l : LaneId) (dt : Nat) (sd : Side) (f : TimeFrame) (s : State) : Host.Outcome State Fault Refusal :=
  onLane l (fun L =>
    let L := L.pass dt
    L.when L.powered (Lane.timeReceive sd f)) s

/-- AGREEMENT_ENTER: the filtered offset has stayed within ±2 ns for 1 ms (R404). -/
def execAgreementEnter (l : LaneId) (dt : Nat) (sd : Side) (s : State) : Host.Outcome State Fault Refusal :=
  onLane l (fun L =>
    let L := L.pass dt
    L.when (!L.agrees sd && L.due (.agree sd) 1000000) (Lane.agreeEnter sd)) s

/-- AGREEMENT_TIMEOUT: no valid time frame for 100 µs (R404, R405). -/
def execAgreementTimeout (l : LaneId) (dt : Nat) (sd : Side) (s : State) : Host.Outcome State Fault Refusal :=
  onLane l (fun L =>
    let L := L.pass dt
    L.when (L.due (.timeFrame sd) 100000) (fun L =>
      ((L.when (L.agrees sd) (Lane.agreeLeave sd)).stop (.agree sd)).stop (.timeFrame sd))) s

/-- PTP_SYNC_RX: a Sync, with its Follow_Up where two-step (R409 to R411). -/
def execPtpSyncRx (l : LaneId) (origin trx : Nat) (corr : Int) (gm seq : Nat) (logSync : BitVec 4) (s : State) :
    Host.Outcome State Fault Refusal :=
  onLane l (Lane.ptpRx (Lane.ptpSync origin trx corr gm seq logSync.toInt)) s

/-- PTP_ANNOUNCE_RX: an Announce message; `slave` is the port state that the BMCA selects (R409). -/
def execPtpAnnounceRx (l : LaneId) (_gm : Nat) (slave : Bool) (s : State) : Host.Outcome State Fault Refusal :=
  onLane l (Lane.ptpRx (fun L => (L.wr Reg.EN_PTP_STAT_SLAVE (b2n slave)).restart .announce)) s

/-- PTP_PDELAY_REQ_TIMER: the port sends a Pdelay_Req (R409). -/
def execPtpPdelayReqTimer (l : LaneId) (dt : Nat) (s : State) : Host.Outcome State Fault Refusal :=
  onLane l (fun L =>
    let L := L.pass dt
    L.when (L.ptpOn && decide (L.rd Reg.PD_STATE_STATE_3 = 0) && L.due .pdelay L.pdelayNs) (fun L =>
      (({ L with ptp := { L.ptp with seq := (L.ptp.seq + 1) % 65536, t1 := some L.now } }).send
        (.ptp 0 ((L.ptp.seq + 1) % 65536))).restart .pdelay)) s

/-- PTP_PDELAY_REQ_RX: a Pdelay_Req is answered two-step (R409). -/
def execPtpPdelayReqRx (l : LaneId) (seq _trx : Nat) (s : State) : Host.Outcome State Fault Refusal :=
  onLane l (Lane.ptpRx (fun L => (L.send (.ptp 1 seq)).send (.ptp 2 seq))) s

/-- PTP_PDELAY_RESP_RX: the response and its follow-up complete an exchange (R409). -/
def execPtpPdelayRespRx (l : LaneId) (seq t2 t3 t4 : Nat) (ratio : Int) (s : State) : Host.Outcome State Fault Refusal :=
  onLane l (Lane.ptpRx (fun L =>
    match L.ptp.t1 with
    | some t1 => L.when (decide (seq = L.ptp.seq)) (Lane.pdelayDone t1 t2 t3 t4 ratio)
    | none => L)) s

/-- COMBINED_OFFSET_DECISION: the leader treats the combined offset (R412 to R414). -/
def execCombinedOffsetDecision (l : LaneId) (dt : Nat) (s : State) : Host.Outcome State Fault Refusal :=
  onLane l (fun L =>
    let L := L.pass dt
    L.when (L.ptpOn && L.isLeader) Lane.decideOffset) s

/-- PTP_SYNC_TIMEOUT: no Sync for 3 intervals, or no Announce for 3 intervals of 1 s; the port leaves the SlavePort state (R409, R414; log
entry 39). -/
def execPtpSyncTimeout (l : LaneId) (dt : Nat) (s : State) : Host.Outcome State Fault Refusal :=
  onLane l (fun L =>
    let L := L.pass dt
    L.when (L.ptpOn && (L.due .sync L.syncNs || L.due .announce 3000000000)) (fun L =>
      let L := (L.onTime (fun t => { t with ownGm := none })).clr Reg.EN_PTP_STAT_SLAVE
      let d := L.rd Reg.TS_STAT_DISC
      L.when (L.isLeader && (decide (d = 2) || decide (d = 3))) (fun L =>
        (L.setDisc 4).onTime (fun t => { t with slew := 0, lockedRun := 0 })))) s

/-- TS_JUMP_ACCEPT: a write of ACCEPT (R415). -/
def execTsJumpAccept (l : LaneId) (s : State) : Host.Outcome State Fault Refusal := onLane l (Lane.jumpRequest 1) s

/-- TS_JUMP_REJECT: a write of REJECT (R415). -/
def execTsJumpReject (l : LaneId) (s : State) : Host.Outcome State Fault Refusal := onLane l (Lane.jumpRequest 2) s

/-- TS_JUMP_RESUME: a write of RESUME (R415). -/
def execTsJumpResume (l : LaneId) (s : State) : Host.Outcome State Fault Refusal := onLane l (Lane.jumpRequest 3) s

/-- TS_NOW_READ: the fraction of device time is latched (R424). -/
def execTsNowRead (l : LaneId) (s : State) : Host.Outcome State Fault Refusal :=
  onLane l (fun L => L.when L.powered (Lane.wr Reg.TS_NOW_FRAC (L.time.dev / 2 ^ 32 % 65536))) s

/-- TP_PULSE_START: a programmed START or grid point is reached (R417 to R419). -/
def execTpPulseStart (l : LaneId) (n : Fin 4) (dt : Nat) (s : State) : Host.Outcome State Fault Refusal :=
  onLane l (fun L => (L.pass dt).pulseStart n) s

/-- TP_PULSE_END: WIDTH after its start a pulse ends (R417). -/
def execTpPulseEnd (l : LaneId) (n : Fin 4) (dt : Nat) (s : State) : Host.Outcome State Fault Refusal :=
  onLane l (fun L => (L.pass dt).pulseEnd n) s

end Sys2Proof.Machine
end

