-- ==== Sys2Proof/Machine/Power.lean ====
section
/-! DEFINITION. Power domains, clocks and the frequency meter: rows PD_REQ_GO to PLL_LOCK_LOSS of the table (R454 to R481)
but for PD_WAKE_COMPLETE, which performs the stalled accesses and stands with the bus. -/

namespace Sys2Proof.Machine

/-- The power domain that holds a register address; none for the lane kernel and the guard (R24, R454). -/
def domainOf (addr : Nat) : Option (Fin 8) :=
  let b := addr / 0x10000
  if b = 0x2010 ∨ b = 0x2014 ∨ b = 0x2015 ∨ b = 0x2016 then some 2
  else if b = 0x2007 ∨ b = 0x2008 ∨ b = 0x2009 then some 3
  else if b = 0x200B then some 4
  else if b = 0x200C ∨ (0x100000000 ≤ addr ∧ addr < 0x200000000) then some 5
  else if b = 0x2006 ∧ 0x20060100 ≤ addr then some 6
  else if b = 0x200D ∨ b = 0x200E then some 7
  else none

/-- A register of a family lies at an address. -/
def RegDef.covers (r : RegDef) (a : Nat) : Bool :=
  decide (r.base ≤ a) && (List.range r.n1).any (fun i =>
    let x := a - r.base - r.s1 * i
    decide (r.base + r.s1 * i ≤ a) && decide (x % r.s2 = 0) && decide (x / r.s2 < r.n2))
/-- The register at an address, if one lies there. -/
def regAt (a : Nat) : Option RegDef := regTable.find? (fun r => r.covers a)
/-- The access code of a field. -/
def accOf (key : Nat) : Acc :=
  match (regAt (key / 64)).bind (fun r => r.fields.find? (fun f => decide (f.lo = key % 64))) with
  | some f => f.acc
  | none => .ro

namespace Lane

/-- The fields that the lane kernel's shadow store keeps for an off domain (R455). -/
def shadowed (L : Lane) (key : Nat) : Bool :=
  decide (accOf key = .rw) || decide (accOf key = .rwl) ||
    (imageFields L.start.image L.img).any (fun e => decide (e.1.key = key)) ||
    (trimFields ++ svTrimFields ++ armedLocks).any (fun f => decide (f.key = key))
/-- Fields that show what stands outside their domain: the guard's, behind the GD register block, and what the update journal and the
fuses hold (R286, R302, R511; log entry 63). -/
def viewed (key : Nat) : Bool :=
  (decide (key / 64 / 0x10000 = 0x2016) && decide (accOf key = .ro)) ||
    [Reg.UP_STATE_STATE, Reg.UP_FLOOR_FLOOR].any (fun f => decide (f.key = key))
/-- Everything else in a domain that goes off takes its At start value (R455). -/
def offLoss (d : Fin 8) (L : Lane) : Lane :=
  let lost (k : Nat) : Bool := decide (domainOf (k / 64) = some d) && !L.shadowed k && !viewed k
  let kept := L.regs.filter (fun e => !lost e.1)
  { L with regs := (startRegs.filter (fun e => lost e.1)).foldl (fun t e => Tab.put 0 t e.1 e.2) kept }
/-- What an off domain loses beside its registers (R455, R465, R466). -/
def offState (d : Fin 8) (L : Lane) : Lane :=
  if d = 1 then (L.onCore 2 (fun c => { Init.core with ckpt := c.ckpt })).onCore 3 (fun c => { Init.core with ckpt := c.ckpt })
  else if d = 2 then
    let z := Lane.unpowered L.id
    { L with engine := z.engine, motor := z.motor, shunt := z.shunt, gen := z.gen, quad := z.quad, resolver := z.resolver,
             sent := z.sent, votePos := z.votePos }
  else if d = 3 then
    let L := L.each (List.finRange 4) (fun h L =>
      L.when (decide ((L.portRec h).transport = 0) && L.portPresent h) (fun L =>
        ((L.wr (Reg.HQ_PORT_SESSION h.val) 0).wr (Reg.HQ_PORT_ENGAGED h.val) 0).stop (.session h)))
    let L := { L with slaz := Vector.replicate 2 { Init.slaz with start := L.el, sinceInc := L.el }, isobus := ⟨[], false, none, none, [], L.isobus.peer, []⟩ }
    (L.each (List.finRange 2) (fun c => wr (Reg.SZ_STAT_STATE c.val) 0)).ptpLost
  else if d = 6 then { L with pulse := L.pulse.map (fun p => { p with active := false }) }
  else L

/-! ### Requests (R457 to R461) -/

/-- The conditions of R458 that can arise while an entry runs, with their code of R463. -/
def pdBar (L : Lane) (d : Fin 8) : Option Nat :=
  if L.svc ≤ 1 ∨ L.svc = 6 ∨ L.svc = 7 then some 2
  else if d = 1 then (if L.bitOf Reg.CM_STATUS_DEBUG 1 then some 11 else none)
  else if d = 2 then
    (if L.armedState ∨ L.rd Reg.GD_STAT_EN ≠ 0 ∨ (List.range 4).any (fun n => L.is (Reg.DE_CTRL_RUN n)) then some 6 else none)
  else if d = 3 then
    (if L.rd (Reg.SZ_STAT_STATE 0) ≠ 0 then some 14 else if L.rd (Reg.SZ_STAT_STATE 1) ≠ 0 then some 15 else none)
  else if d = 5 then (if L.is Reg.SYS_RET_STATUS_BUSY then some 9 else none)
  else if d = 7 then (if L.is Reg.BT_SLICE_STAT_RUNNING then some 10 else none)
  else none
/-- Why an entry is refused at step 1 (R458), in the order of its table. -/
def pdRefusal (L : Lane) (d : Fin 8) (target origin : Nat) : Option Nat :=
  if d = 0 ∨ d = 4 then some 1
  else if L.svc ≤ 1 ∨ L.svc = 6 ∨ L.svc = 7 then some 2
  else if !L.bitOf (Reg.PD_POLICY_ALLOW d.val) (target - 1) then some 1
  else if origin < 4 ∧ ¬L.bitOf (Reg.PD_POLICY_HOST_MASK d.val) origin then some 3
  else if L.rd (pdFld d) ≠ 0 then some 20
  else
    match L.pdBar d with
    | some w => some w
    | none => if d = 2 ∧ target = 2 ∧ (List.range 4).any (fun n => L.is (Reg.DE_STATUS_SEALED n)) then some 6 else none
/-- A request ends: DONE, RESULT, WHO and HOW; the host that waits is answered (R457, R475). -/
def pdEnd (result who how : Nat) (L : Lane) : Lane :=
  let L := L.loadFields [(Reg.PD_REQ_BUSY, 0), (Reg.PD_REQ_DONE, 1), (Reg.PD_REQ_RESULT, result), (Reg.PD_REQ_WHO, who),
    (Reg.PD_REQ_HOW, how)]
  let L := ({ L with power := { L.power with request := none } }).when (L.is Reg.PD_CTRL_IE) (irq .pd)
  match L.power.asker with
  | some (k, op) =>
    let L := { L with power := { L.power with asker := none } }
    if result = 0 then L.respond k op stOk []
    else if who = 3 then L.respond k op stDenied []
    else L.respond k op stRefused (leBytes 1 who ++ leBytes 1 how)
  | none => L
/-- The fields of PD_REQ that a write stores, whether or not a request runs (R7, R475). -/
def pdFields (d target origin : Nat) (L : Lane) : Lane :=
  L.loadFields [(Reg.PD_REQ_DOM, d), (Reg.PD_REQ_TARGET, target), (Reg.PD_REQ_ORIGIN, origin)]
/-- A request for a domain; one that meets a request in progress only stores its fields: a wake command with target 0, else an entry (R457, R458, R461). -/
def pdRequest (d : Fin 8) (target origin : Nat) (ask : Option (HostCmd × Nat)) (L : Lane) : Lane :=
  if L.is Reg.PD_REQ_BUSY then
    match ask with
    | some (k, op) => L.respond k op stRefused (leBytes 1 20 ++ leBytes 1 0)
    | none => L.pdFields d.val target origin
  else
    let L := L.pdFields d.val target origin
    let L := { L with power := { L.power with asker := ask, request := some (d, target) } }
    if target = 0 then
      if L.rd (pdFld d) = 0 then L.pdEnd 0 0 0 else (L.set1 Reg.PD_REQ_BUSY).pdWake d 18
    else
      match L.pdRefusal d target origin with
      | some w => (L.when (L.is (Reg.PD_ACCT_MODE d.val) && decide (w ≠ 3)) (pdCount d w 0)).pdEnd 1 w 0
      | none =>
        ((((L.set1 Reg.PD_REQ_BUSY).wr (pdFld d) 1).onDom d (fun x => { x with step := 1, target := target, wakeBy := none })).restart
          (.wfi d))
/-- A write of PD_REQ; a field outside its values keeps its old one (R475, R602). -/
def pdWrite (v : Nat) (L : Lane) : Lane :=
  let t := if nbits v 4 2 ≤ 2 then nbits v 4 2 else L.rd Reg.PD_REQ_TARGET
  let o := if nbits v 8 3 ≤ 4 then nbits v 8 3 else L.rd Reg.PD_REQ_ORIGIN
  let L := L.when (nbit v 18) (clr Reg.PD_REQ_DONE)
  if nbit v 16 then L.pdRequest (Fin.ofNat 8 (nbits v 0 3)) t o none
  else L.pdFields (nbits v 0 3) t o

/-! ### Entries (R459, R460) -/

/-- Both cores of P_1, or the network core, have executed WFI (R458). -/
def wfiDone (L : Lane) (d : Fin 8) : Bool :=
  if d = 1 then decide ((vget L.core 2).run = .wfi) && decide ((vget L.core 3).run = .wfi)
  else if d = 3 then L.power.netWfi else true
/-- An entry is abandoned at abort point `k` (R460, R467). -/
def pdAbort (d : Fin 8) (who k : Nat) (L : Lane) : Lane :=
  (((L.wr (pdFld d) 5).onDom d (fun x => { x with step := 0, wakeBy := none, fromState := 1 })).pdCount d who k).pdEnd 2 who k
/-- A step of an entry ends (R459, R460). -/
def pdStep (d : Fin 8) (L : Lane) : Lane :=
  let x := vget L.power.dom d
  let k := x.step
  if k = 0 ∨ (k = 1 ∧ ¬L.wfiDone d) then L
  else if k = 5 then
    let L := (L.wr (pdFld d) (if x.target = 2 then 3 else 2)).onDom d (fun x => { x with step := 0 })
    let L := L.when (decide (x.target = 2)) (fun L => (L.offLoss d).offState d)
    let late := x.wakeBy
    let L := (L.onDom d (fun x => { x with wakeBy := none })).pdEnd 0 0 0
    match late with
    | some w => L.pdWake d w
    | none => L
  else
    let bar := if k = 1 then none else L.pdBar d
    match x.wakeBy, bar with
    | some w, some b => L.pdAbort d (min w b) k
    | some w, none => L.pdAbort d w k
    | none, some b => L.pdAbort d b k
    | none, none => L.onDom d (fun x => { x with step := k + 1 })
/-- The WFI wait of CP_1 or NET runs out: the entry is refused (R458). -/
def pdNoWfi (d : Fin 8) (L : Lane) : Lane :=
  let w := if d = 1 then 5 else 7
  let L := (L.wr (pdFld d) 0).onDom d (fun x => { x with step := 0, wakeBy := none })
  (L.when (L.is (Reg.PD_ACCT_MODE d.val)) (pdCount d w 0)).pdEnd 1 w 0
/-- The wake events that a domain knows (R462). -/
def wakes (d : Fin 8) : Waker → Bool
  | .interrupt => decide (d = 1)
  | .ethernet | .slazX | .slazY | .isobus => decide (d = 3)
  | .debug | .kernel => true
  | _ => decide (d ≠ 1)

/-! ### Clocks (R470, R472, R473) -/

/-- The guard's divided RC reference arrives (R468, R479). -/
def rcArrives (L : Lane) : Bool := L.guardSt.powered && !L.guardSt.rcLost
/-- The lane link from a neighbour is up, and its forwarded crystal arrives: a frame has come within the last 100 µs (R17, R359, R472; log
entry 87). -/
def linkUp (L : Lane) (s : Side) : Bool := L.running (.link s) && !L.due (.link s) 100000

/-- The measured clock runs: its domain is on, the neighbour's link is up, the RC reference arrives, CKW is not stopped (R470, R472). -/
def clockOn (L : Lane) (code : Nat) : Bool :=
  let on (d : Fin 8) : Bool := let v := L.rd (pdFld d); decide (v = 0) || decide (v = 1)
  match code with
  | 1 => L.rcArrives
  | 2 => L.linkUp .prev
  | 3 => L.linkUp .next
  | 6 => on 5
  | 8 => decide (L.rd Reg.CK_STAT_PLLOK = 7)
  | 9 => on 2
  | 10 => on 2 || on 6
  | 11 | 12 | 14 => on 3
  | _ => true
/-- A write of CK_FM_CTRL; while BUSY it stops the measurement without a result (R473, R480). -/
def fmWrite (v : Nat) (L : Lane) : Lane :=
  let busy := L.is Reg.CK_FM_CTRL_BUSY
  let L := (L.when (nbit v 19) (clr Reg.CK_FM_CTRL_DONE)).when (nbit v 20) (clr Reg.CK_FM_CTRL_OUTR)
  L.loadFields [(Reg.CK_FM_CTRL_REF, nbits v 0 4), (Reg.CK_FM_CTRL_MEAS, nbits v 8 4), (Reg.CK_FM_CTRL_CONT, nbits v 16 1),
    (Reg.CK_FM_CTRL_IE, nbits v 21 1), (Reg.CK_FM_CTRL_BUSY, b2n (!busy && nbit v 17))]
/-- A window closes with a count (R473). -/
def fmClose (n : Nat) (L : Lane) : Lane :=
  let n := if L.clockOn (L.rd Reg.CK_FM_CTRL_MEAS) then n else 0
  let out := decide (n < L.rd Reg.CK_FM_LO) || decide (L.rd Reg.CK_FM_HI < n)
  let L := ((L.wr Reg.CK_FM_CNT n).set1 Reg.CK_FM_CTRL_DONE).when out (set1 Reg.CK_FM_CTRL_OUTR)
  (L.when (L.is Reg.CK_FM_CTRL_IE) (irq .ck)).when (!L.is Reg.CK_FM_CTRL_CONT) (clr Reg.CK_FM_CTRL_BUSY)
/-- A write of CK_FM_WIN (R473, R481): a write of 0 is ignored. -/
def fmWindow (v : Nat) (L : Lane) : Lane :=
  let n := v % 2 ^ 24
  (L.clr Reg.CK_FM_CTRL_BUSY).when (decide (n ≠ 0)) (wr Reg.CK_FM_WIN_N n)

end Lane

/-! ### The commands -/

/-- PD_REQ_GO: a write of PD_REQ with GO (R457, R458, R461). -/
def execPdReqGo (l : LaneId) (v : Word) (s : State) : Host.Outcome State Fault Refusal :=
  onLane l (fun L => L.when L.firmware (Lane.pdWrite v.toNat)) s

/-- PD_WAKE_COMMAND: a write of PD_REQ with GO and TARGET 0 (R461). -/
def execPdWakeCommand (l : LaneId) (dom : Fin 8) (origin : Nat) (s : State) : Host.Outcome State Fault Refusal :=
  onLane l (fun L => L.when L.firmware (fun L =>
    L.pdRequest dom 0 (if origin ≤ 4 then origin else L.rd Reg.PD_REQ_ORIGIN) none)) s

/-- PD_ENTRY_STEP_END: a step of an entry ends (R459, R460). -/
def execPdEntryStepEnd (l : LaneId) (dom : Fin 8) (s : State) : Host.Outcome State Fault Refusal :=
  onLane l (fun L => L.when (decide (L.rd (Lane.pdFld dom) = 1)) (Lane.pdStep dom)) s

/-- PD_WFI_TIMEOUT: no WFI within 100 µs of GO (R458). -/
def execPdWfiTimeout (l : LaneId) (dt : Nat) (dom : Fin 8) (s : State) : Host.Outcome State Fault Refusal :=
  onLane l (fun L =>
    let L := L.pass dt
    L.when (decide (L.rd (Lane.pdFld dom) = 1) && decide ((vget L.power.dom dom).step = 1) && !L.wfiDone dom &&
      L.due (.wfi dom) 100000) (Lane.pdNoWfi dom)) s

/-- PD_WAKE_EVENT: a wake event of R462. -/
def execPdWakeEvent (l : LaneId) (dom : Fin 8) (who : Waker) (s : State) : Host.Outcome State Fault Refusal :=
  onLane l (fun L => L.when (Lane.wakes dom who) (Lane.pdWake dom who.code)) s

/-- PD_ACCTCLR: a write of ACCTCLR (R467). -/
def execPdAcctclr (l : LaneId) (s : State) : Host.Outcome State Fault Refusal := onLane l Lane.pdClear s

/-- CK_FM_START: a write of START to CK_FM_CTRL (R473). -/
def execCkFmStart (l : LaneId) (v : Word) (s : State) : Host.Outcome State Fault Refusal :=
  onLane l (fun L => L.when L.firmware (Lane.fmWrite (v.toNat ||| 0x20000))) s

/-- CK_FM_WINDOW_CLOSE: a window closes (R472, R473). -/
def execCkFmWindowClose (l : LaneId) (count : Word) (s : State) : Host.Outcome State Fault Refusal :=
  onLane l (fun L => L.when (L.is Reg.CK_FM_CTRL_BUSY) (Lane.fmClose count.toNat)) s

/-- CK_FM_STOP: a write of CK_FM_CTRL or CK_FM_WIN while a measurement runs (R473). -/
def execCkFmStop (l : LaneId) (win : Bool) (v : Word) (s : State) : Host.Outcome State Fault Refusal :=
  onLane l (fun L => L.when L.firmware (if win then Lane.fmWindow v.toNat else Lane.fmWrite v.toNat)) s

/-- PLL_LOCK_LOSS: the lane kernel stops CKW, so that the guard forces with FCAUSE 1 (R324, R470). -/
def execPllLockLoss (l : LaneId) (k : Fin 3) (s : State) : Host.Outcome State Fault Refusal :=
  onLane l (fun L => L.when L.powered (fun L =>
    let L := L.wrBit Reg.CK_STAT_PLLOK k.val false
    L.when L.guardSt.powered (Lane.clockLost Reg.LG_STATUS_LDCLK 1))) s

end Sys2Proof.Machine
end

