-- ==== Sys2Proof/Machine/Read.lean ====
section
/-! DEFINITION. What a read of a register returns: the stored fields, and the fields that the hardware forms from other
state when they are read (R6, R7, R42). -/

namespace Sys2Proof.Machine

/-- Word k of a window entry (R373, R396). -/
def entryWord (e : SlazEntry) (k : Nat) : Nat :=
  let kind := match e.kind with
    | .exclusive => 0
    | .arbitrating => 1
    | .reference => 2
    | .vote => 3
  match k with
  | 0 => e.cycBase + 2 ^ 8 * e.rept + 2 ^ 16 * e.window + 2 ^ 24 * (e.chan.val + 2 * kind + 8 * b2n e.tx + 16 * b2n e.rx)
  | 1 => e.ident + 2 ^ 16 * e.dlc + 2 ^ 24 * e.buf
  | 2 => e.start + 2 ^ 16 * e.len
  | _ => 0
/-- The lane-scope feature whose absence makes a register or a field read as reserved (R42): ZMD_DIAG 1, DE_DUAL 2, HFI 3, SZ_MODES 4,
SEVERITY 5, TIME_AS 6. -/
def featureOf (a lo : Nat) : Option Nat :=
  if a = 0x201600D0 ∨ a = 0x201600D4 then some 1
  else if a = 0x20070020 then some 4
  else if (a = Reg.FC_STATUS_MODE.reg ∧ lo = Reg.FC_STATUS_MODE.lo) ∨ (0x200300A0 ≤ a ∧ a < 0x200300C0) then some 5
  else if 0x20080800 ≤ a ∧ a ≤ 0x2008081F then some 6
  else if 0x20100000 ≤ a ∧ a < 0x20110000 then
    let o := a % 0x4000
    if o = 0 ∧ lo = (Reg.DE_CTRL_LOOP 0).lo then some 2
    else if o = 0xA8 ∨ o = 0xAC ∨ (o = 0x60 ∧ lo = 3) ∨ (o = 0x64 ∧ (lo = 10 ∨ lo = 11)) then some 3 else none
  else none

namespace Lane

/-- A register or field exists for this lane under its accepted features (R42, R409). -/
def fieldThere (L : Lane) (a lo : Nat) : Bool :=
  match featureOf a lo with
  | some 6 => L.feature 6 && decide (L.img.time.asEnable = 1)
  | some b => L.feature b
  | none => true
/-- The module is in the approved mode (R483). -/
def approved (L : Lane) : Bool :=
  decide (L.lifecycle = 2) && Config.validatedFirmware && !L.is Reg.SE_STATUS_ALARM && !L.is Reg.SE_STATUS_TAMPER
/-- FC_PEND (R364). -/
def fcPend (L : Lane) : Nat :=
  (List.range 32).foldl (fun v n => v + (if L.rd (Reg.FC_STICKY_S n) = 0 then 0 else 2 ^ n)) 0
/-- FC_SEV_k (R363). -/
def fcSev (L : Lane) (k : Nat) : Nat :=
  (List.range 8).foldl (fun v j =>
    let n := 8 * k + j
    v + 2 ^ (4 * j) * (if L.severityMode then L.severity n else fixedClass n)) 0
/-- The counted codes of a lane (R119): CODE, ROTATE, VALID. -/
def voteShown (L : Lane) (l : LaneId) (lo : Nat) : Nat :=
  if lo = 0 then Func.all.foldl (fun v f => v + 4 ^ f.code * L.codeIn l f) 0
  else if lo = 10 then Func.all.foldl (fun v f => v + 2 ^ f.code * L.rotateIn l f) 0
  else b2n (!L.inputLost l)

/-- ROLE_EQX_LEFT: the ms to the next Equinox moment (R107, R122). -/
def eqxLeft (L : Lane) : Nat :=
  let p := max 1 L.img.eqxS * 1000000000
  (p - L.now % p + 999999) / 1000000
/-- The value of a field that the hardware forms on a read; none where the register file holds it. -/
def formed (L : Lane) (a lo : Nat) : Option Nat :=
  let b := a / 0x10000
  let o := a % 0x10000
  if b = 0x2001 then
    if o ≥ 0x20 ∧ o < 0x34 then
      (Func.ofCode ((o - 0x20) / 4)).map (fun f => if L.mode f = 1 then L.autumnLeft f else 0)
    else if o ≥ 0x50 ∧ o < 0x5C ∧ lo ≤ 16 then (LaneId.ofCode ((o - 0x50) / 4)).map (fun l => L.voteShown l lo)
    else if o = 0x84 then some L.eqxLeft
    else none
  else if b = 0x2003 then
    if o = 0x80 then some L.fcPend
    else if o = 0x84 then
      (if lo = 0 then some L.summary else if lo = 17 then some (b2n L.fatalSticky) else none)
    else if o ≥ 0x100 ∧ o < 0x300 then some (L.fcSev ((o - 0x100) / 4))
    else none
  else if a = 0x20050000 then
    (if lo = 3 then some (b2n L.rcArrives) else if lo = 4 then some (b2n (L.linkUp .prev) + 2 * b2n (L.linkUp .next)) else none)
  else if b = 0x2006 then
    if o = 0 then some L.now
    else if o = 0x30 then
      some (uns 32 (L.time.rateAgree + L.time.rateDisc + (if L.time.slew = 0 then 0 else L.time.phase)))
    else none
  else if b = 0x2007 then
    if o ≥ 0x210 ∧ o < 0x220 then
      some ((L.img.slaz.entries[L.rd Reg.SZ_ENT_IDX_IDX]?.map (fun e => entryWord e ((o - 0x210) / 4))).getD 0)
    else if o ≥ 0x3000 ∧ o < 0x3200 ∧ (lo = 19 ∨ lo = 21) then
      let c : Fin 2 := Fin.ofNat 2 ((o - 0x3000) / 0x100)
      let es := (L.szEntries c).filter (fun e => decide (e.1.buf = o % 0x100 / 4) && decide (e.1.kind ≠ .reference))
      some (b2n (if lo = 21 then decide (es ≠ []) else es.any (fun e => e.1.tx)))
    else none
  else if b = 0x2008 then (if o = 0x8F0 then some (Config.mac L.id).toNat else none)
  else if b = 0x2009 then (if o = 8 then some (isoName L.id) else none)
  else if b = 0x200A then
    (if o < 0x200 ∧ o % 0x20 = 4 ∧ lo = 9 then some (L.effDepth (Fin.ofNat 16 (o / 0x20))) else none)
  else if b = 0x200B then
    if o = 0 ∧ lo = 8 then some (b2n L.approved)
    else if o = 0x40 then
      (match lo with
       | 0 => some L.lifecycle
       | 2 => some (b2n L.sec.pend.isSome)
       | 3 => some (L.sec.pend.getD 0)
       | 8 => some ((List.finRange 4).foldl (fun v k => v + 2 ^ k.val * b2n (L.keyValid (Fin.castLE (by decide) k))) 0)
       | 12 => some (b2n (L.keyValid 4) + 2 * b2n (L.keyValid 5))
       | 14 => some (b2n L.sec.idDone)
       | _ => none)
    else if o = 0x44 ∧ lo = 12 then
      some (match L.timerAt .token with
        | some e => (e - L.el + 999999999) / 1000000000
        | none => 0)
    else if o = 0x48 then some Config.serial.toNat
    else if o = 0x50 then some (if lo = 0 then Config.romVersion.toNat else Config.secVersion.toNat)
    else none
  else if b = 0x200C then
    if o = 0 ∧ lo = 12 then some L.update.active
    else if o = 4 then some L.update.bitmap.length
    else if o = 8 then some (if L.rd Reg.UP_STATE_STATE = 0 then 0 else L.update.chunks)
    else if o = 0x18 then some (((vget L.update.manifests (Fin.ofNat 2 L.update.active)).map (fun m => m.version)).getD 0)
    else if o = 0x1C then some (if L.rd Reg.UP_STATE_STATE < 3 then 0 else (L.update.staged.map (fun m => m.version)).getD 0)
    else if 0x20 ≤ o ∧ o < 0x40 then some (L.activeDigest / 2 ^ (8 * (o - 0x20)))
    else if 0x40 ≤ o ∧ o < 0x60 then some (if L.rd Reg.UP_STATE_STATE = 0 then 0 else L.update.digest / 2 ^ (8 * (o - 0x40)))
    else none
  else if b = 0x200E then
    if o = 4 then
      let top := if lo = 0 then 8 else 10
      some ((List.finRange 9).foldl (fun v k => v + 2 ^ k.val * b2n (decide (top * 2 ^ 64 ≤ 10 * vget L.test.ageing.w k))) 0)
    else if o = 0x28 then some L.test.ageing.hours
    else if 0x40 ≤ o ∧ o < 0x64 then some (min (2 ^ 32 - 1) (vget L.test.ageing.w (Fin.ofNat 9 ((o - 0x40) / 4)) / 2 ^ 40))
    else none
  else if b = 0x2010 then
    let n : Engine := Fin.ofNat 4 (o / 0x4000)
    let r := o % 0x4000
    if r = 0x14 then some (L.de n).pc.toNat
    else if r = 0x40 then
      let v := L.refView n
      some (if lo = 0 then b2n v.isNew else if lo = 1 then b2n v.held else if lo = 8 then v.sender else v.hold)
    else if r = 0x44 then some (L.refView n).seq
    else if r = 0x48 then some (L.refView n).tot.toNat
    else if r = 0x4C then some (L.refView n).share
    else if r = 0x64 ∧ lo = 12 then some (if h : n.val < 3 then b2n (L.paramErr ⟨n.val, h⟩) else 0)
    else none
  else if b = 0x2016 then (if a = Reg.GD_TRIP_1_CHOPF.reg ∧ lo = Reg.GD_TRIP_1_CHOPF.lo then some (b2n L.chopF) else none)
  else if b = 0x2017 then
    if o = 0x10 ∧ lo = 0 then some (L.guardSt.lfsr.map BitVec.toNat |>.getD 0)
    else if o = 0x10 ∧ lo = 16 then some L.guardSt.num
    else if o = 0x50 ∧ lo = 0 then
      some ((List.finRange 3).foldl (fun v p => v + 2 ^ p.val * b2n (L.guardSt.powered && L.lineRuns p)) 0)
    else if o = 0x60 ∧ lo = 16 then
      some (if L.is Reg.LG_PARK_RUN then (L.left .park (L.rd Reg.LG_PARK_TMAX * 1000000000) + 999999999) / 1000000000 else 0)
    else none
  else none

/-- What a read of a field returns: 0 for a write-only field and for a feature that is not accepted (R6, R7, R42). -/
def fieldNow (L : Lane) (a : Nat) (fd : FieldDef) : Nat :=
  if fd.acc = .wo ∨ !L.fieldThere a fd.lo then 0
  else (L.formed a fd.lo).getD (L.rd ⟨a, fd.lo, fd.w⟩) % 2 ^ fd.w
/-- The value of the register at an address; reserved bits read 0 (R6). -/
def regValue (L : Lane) (a : Nat) : Nat :=
  match regAt a with
  | some r => r.fields.foldl (fun v fd => v + 2 ^ fd.lo * L.fieldNow a fd) 0
  | none => 0
/-- The 32-bit value of a register as it travels in a response. -/
def regBytes (L : Lane) (a : Nat) : List Byte := leBytes 4 (L.regValue a)

end Lane

end Sys2Proof.Machine
end

