-- ==== Sys2Proof/Machine/Host.lean ====
section
/-! DEFINITION. Host ports, sessions, queues and host commands: rows HOST_FRAME_RX to HQ_PUSH of the table (R45, R46, R425
to R440, R448). -/

namespace Sys2Proof.Machine

/-- The RANK nibble of a host kind (R75); none for the service host. -/
def kindRank : Nat → Option Nat
  | 0 => some 3
  | 1 => some 2
  | 2 => some 5
  | _ => none
/-- The permission bit of a function (R426); FEEL has none. -/
def permOf : Func → Option Nat
  | .steer => some 0
  | .feel => none
  | .brake => some 1
  | .trail => some 2
  | .park => some 3
/-- The OP of CHALLENGE, and of OPEN (R436). -/
def opChallenge : Nat := 0x03
def opOpen : Nat := 0x04

namespace Lane

/-! ### Ports, sessions, frames (R425 to R431) -/

/-- Lane firmware runs and the port is present (R425). -/
def portLive (L : Lane) (h : Fin 4) : Bool := L.firmware && L.portPresent h
/-- The port's session is open (R449). -/
def sessionOpen (L : Lane) (h : Fin 4) : Bool := decide (L.rd (Reg.HQ_PORT_SESSION h.val) = 2)
/-- Every engagement of a port ends (R438). -/
def dropPort (h : Fin 4) (L : Lane) : Lane := L.clr (Reg.HQ_PORT_ENGAGED h.val)
/-- A session closes: the set stays locked, the engagements drop (R430). -/
def closeSession (h : Fin 4) (L : Lane) : Lane :=
  let L := (((L.wr (Reg.HQ_PORT_SESSION h.val) 0).dropPort h).stop (.session h)).onHost h (fun x => { x with session := 0, fcnt := 0 })
  L.onIso (fun i => { i with peer := vupd i.peer h (fun _ => none) })
/-- The queues of a port in a direction. -/
def queuesOf (L : Lane) (h : Fin 4) (dir : Nat) : List (Fin 16) :=
  (List.finRange 16).filter (fun q => decide ((vget L.img.queue q).port = h.val) && decide ((vget L.img.queue q).dir = dir))
/-- A frame or a descriptor of the port has been accepted: its session goes on (R430). -/
def heard (h : Fin 4) (L : Lane) : Lane := L.when (L.sessionOpen h) (restart (.session h))
/-- An accepted frame of the vehicle host: class H ends and its cause begins to clear where the port is locked (R112,
R115). -/
def vehicleFrame (h : Fin 4) (L : Lane) : Lane :=
  if (L.portRec h).kind = 0 then
    let back := L.roles.hostLost
    let L := ({ L with roles := { L.roles with hostSeen := true, hostLost := false } }.restart .vehicleHost).when back (endLevel 394)
    L.when (L.hostLocked h) (fun L =>
      L.each [Func.steer, .brake] (fun f L => L.when (decide (L.mode f = 1) && (L.fn f).causes.contains 6) (start1 (.causeClear f 6))))
  else L
/-- The frames of the port in the present second are below its share of R431. -/
def rateOk (L : Lane) (h : Fin 4) : Bool :=
  let x := vget L.host h
  decide (x.rate.1 ≠ L.el / 1000000000) || decide (x.rate.2 < 300)
/-- Count a frame of the port in the present second. -/
def rateCount (h : Fin 4) (L : Lane) : Lane :=
  let now := L.el / 1000000000
  L.onHost h (fun x => { x with rate := if x.rate.1 = now then (now, x.rate.2 + 1) else (now, 1) })
/-- A frame's signature verifies against CRED, over every byte before it (R428, R429). -/
def frameSigned (L : Lane) (h : Fin 4) (f : HostFrame) : Bool :=
  ed448Ok 0 (L.portRec h).cred
    (frameBytes f.magic f.version f.port f.dirf f.session f.fcnt f.freed.toList (f.descrs.map (·.2))) f.sig
/-- A frame passes the tests of R429. -/
def frameOk (L : Lane) (h : Fin 4) (f : HostFrame) : Bool :=
  decide (f.magic = hostMagic) && decide (f.version = 1) && decide (f.dirf = 0) && decide (f.descrs.length ≤ 16) && L.frameSigned h f &&
    decide ((L.portRec h).transport = 0) &&
    ((decide (f.session = 0) && decide (f.fcnt = 0) && f.descrs.all (fun d => decide (d.2.op = opChallenge) || decide (d.2.op = opOpen))) ||
      (L.sessionOpen h && decide (f.session = (vget L.host h).session) && decide ((vget L.host h).fcnt < f.fcnt)))
/-- The credits that an accepted frame carries for one lane-to-host queue (R434). -/
def takeFreed (q : Fin 16) (freed : Nat) (L : Lane) : Lane :=
  let used := ((vget L.queue q).next + 65536 - freed % 65536) % 65536
  L.when (decide (used ≤ L.rd (Reg.HQ_STAT_USED q.val))) (wr (Reg.HQ_STAT_USED q.val) used)
/-- A host-to-lane frame arrives (R425, R428 to R431, R466). -/
def frameRx (f : HostFrame) (L : Lane) : Lane :=
  if L.rd (pdFld 3) ≠ 0 then L.pdWake 3 13
  else if hp : f.port < 4 then
    let h : Fin 4 := ⟨f.port, hp⟩
    if !L.portLive h then L
    else if !L.rateOk h then L.count (Reg.HQ_PCNT_RATE h.val) 1
    else
      let L := L.rateCount h
      if L.frameOk h f then
        let L := (L.countMod (Reg.HQ_PCNT_ACC h.val) 1).onHost h (fun x => if f.session = 0 then x else { x with fcnt := f.fcnt })
        let L := L.each (L.queuesOf h 1) (fun q => takeFreed q (vget f.freed q))
        let L := L.each (f.descrs.filter (fun d => (L.queuesOf h 0).contains d.1)) (fun d => placeDescr d.1 d.2)
        (L.heard h).vehicleFrame h
      else L.count (Reg.HQ_PCNT_REJ h.val) 1
  else L

/-! ### The gate of every command (R42, R45, R46, R426) -/

/-- Answer with a status alone. -/
def answer (k : HostCmd) (op status : Nat) (L : Lane) : Lane := L.respond k op status []
/-- The lane's set for a port differs from the one that the active lane of the function holds (R46). -/
def hostSplit (L : Lane) (h : Fin 4) (f : Func) : Bool :=
  match L.sideOf (L.rd (Reg.ROLE_FUNC_ACT f.code)) with
  | some s =>
    match vget L.nb s.ix with
    | some r => decide (vget r.hostSets h ≠ L.hostSet h)
    | none => false
  | none => false
/-- A credential command reaches a lane that runs its firmware (R45). -/
def credential (k : HostCmd) (act : Lane → Lane) (L : Lane) : Lane := L.when (L.portLive k.port) act
/-- Any other command: the session is open (R429), the set is locked (R45), the feature is in it (R42), the permission is
granted (R426), the set does not split from the active lane's (R46). -/
def command (k : HostCmd) (op : Nat) (feat perm : Option Nat) (f : Option Func) (act : Lane → Lane) (L : Lane) : Lane :=
  if !L.portLive k.port || !L.sessionOpen k.port then L
  else if !L.hostLocked k.port then L.answer k op stNotNegotiated
  else if feat.any (fun b => !nbit (L.hostSet k.port) b) then L.answer k op stUnknown
  else if perm.any (fun b => !L.perm k.port b) then L.answer k op stDenied
  else if f.any (L.hostSplit k.port) then L.answer k op stFeatureSplit
  else act L

/-! ### Feature negotiation (R45, R427) -/

/-- The offer to a port (R427). -/
def offerTo (L : Lane) (h : Fin 4) : Nat :=
  L.featSet ||| 0x81 ||| (if L.perm h 7 then 2 ^ 8 else 0) ||| (if L.perm h 6 then 2 ^ 10 else 0) |||
    (if L.perm h 2 && decide ((L.portRec h).transport = 2) then 2 ^ 9 else 0)
/-- FEAT_OFFER (R45, R436). -/
def featOffer (k : HostCmd) (L : Lane) : Lane :=
  if !L.is Reg.SYS_FEAT_CTRL_LOCK then L.answer k 0x01 stNotReady
  else if L.hostLocked k.port then L.respond k 0x01 stOk (leBytes 16 (L.hostSet k.port) ++ leBytes 1 1)
  else L.respond k 0x01 stOk (leBytes 16 (L.offerTo k.port) ++ leBytes 1 0)
/-- The set of a port is locked; a vehicle host that is heard again begins to clear its cause (R45, R112). -/
def lockHost (h : Fin 4) (set : Nat) (L : Lane) : Lane :=
  let L := L.each (List.range 4) (fun n => wr (Reg.SYS_HOSTFEAT h.val n) (set / 2 ^ (32 * n) % 2 ^ 32))
  let L := L.set1 (Reg.HQ_PORT_FLOCK h.val)
  L.when (decide ((L.portRec h).kind = 0) && L.roles.hostSeen && !L.roles.hostLost) (fun L =>
    L.each [Func.steer, .brake] (fun f L => L.when (decide (L.mode f = 1) && (L.fn f).causes.contains 6) (start1 (.causeClear f 6))))
/-- FEAT_ACCEPT (R45). -/
def featAccept (k : HostCmd) (set : Nat) (L : Lane) : Lane :=
  if !L.is Reg.SYS_FEAT_CTRL_LOCK then L.answer k 0x02 stNotReady
  else if L.hostLocked k.port then L.answer k 0x02 (if set = L.hostSet k.port then stOk else stLocked)
  else if nbit set 0 && decide (Nat.land set (L.offerTo k.port) = set) then (L.lockHost k.port set).answer k 0x02 stOk
  else L.answer k 0x02 stBadArg

/-! ### Sessions (R430, R433, R593) -/

/-- CHALLENGE: a nonce of the TRNG, valid for one OPEN and 10 s (R430). -/
def challenge (k : HostCmd) (L : Lane) : Lane :=
  let n := L.free .nonce % 2 ^ 256
  let L := ((L.drawn.onHost k.port (fun x => { x with nonce := some n })).restart (.nonce k.port)).when
    (!L.sessionOpen k.port) (wr (Reg.HQ_PORT_SESSION k.port.val) 1)
  L.respond k opChallenge stOk (leBytes 32 n)
/-- The nonce may open a session of the port now (R430). -/
def nonceOk (L : Lane) (h : Fin 4) (nonce : Nat) : Bool :=
  decide ((vget L.host h).nonce = some nonce) && L.running (.nonce h) && !L.due (.nonce h) 10000000001
/-- Every queue of the port has a ring (R433). -/
def ringsSet (L : Lane) (h : Fin 4) : Bool :=
  (L.queuesOf h 0 ++ L.queuesOf h 1).all (fun q => decide (L.rd (Reg.HQ_BASE q.val) ≠ 0))
/-- The next indices of a port's queues (R593). -/
def indices (L : Lane) (h : Fin 4) : List Byte :=
  (List.finRange 16).flatMap (fun q => leBytes 2 (if (vget L.img.queue q).port = h.val then (vget L.queue q).next else 0))
/-- A session opens: every earlier one of the port closes, what was sent and not freed counts as freed (R430, R593). -/
def openSession (h : Fin 4) (nonce : Nat) (L : Lane) : Lane :=
  let L := L.closeSession h
  let L := ((L.onHost h (fun x => { x with nonce := none, session := nonce % 2 ^ 64, fcnt := 0, sent := 0 })).stop (.nonce h)).wr
    (Reg.HQ_PORT_SESSION h.val) 2
  let L := L.each (L.queuesOf h 1) (fun q L => L.wr (Reg.HQ_STAT_USED q.val) (vget L.queue q).slots.length)
  L.restart (.session h)
/-- The host's signature over nonce and port number, as OPEN holds it on Slaz and ISOBUS (R430). -/
def openSigned (L : Lane) (h : Fin 4) (nonce : Nat) (sig : List Byte) : Bool :=
  ed448Ok 0 (L.portRec h).cred (leBytes 32 nonce ++ leBytes 1 h.val) sig
/-- OPEN; over Ethernet the frame's own signature has been verified (R429, R430). -/
def openCmd (k : HostCmd) (nonce : Nat) (sig : List Byte) (L : Lane) : Lane :=
  let h := k.port
  if L.nonceOk h nonce && (decide ((L.portRec h).transport = 0) || L.openSigned h nonce sig) && L.ringsSet h then
    let L := L.openSession h nonce
    L.respond k opOpen stOk (L.indices h)
  else L.answer k opOpen stRefused

/-! ### Engagement and setpoints (R436 to R440) -/

/-- The host's kind is among the RANK nibbles of the function (R438). -/
def ranked (L : Lane) (h : Fin 4) (f : Func) : Bool :=
  (kindRank (L.portRec h).kind).any (fun n => (vget L.img.auth f.ix).rank.toList.contains n)
/-- The port is engaged for the function (R438). -/
def engagedFor (L : Lane) (h : Fin 4) (f : Func) : Bool := L.bitOf (Reg.HQ_PORT_ENGAGED h.val) f.code
/-- ENGAGE (R438). -/
def engage (k : HostCmd) (f : Func) (L : Lane) : Lane :=
  if L.mode f ≠ 0 then L.answer k 0x10 stRefused
  else if !L.ranked k.port f then L.answer k 0x10 stNotAuthority
  else (L.wrBit (Reg.HQ_PORT_ENGAGED k.port.val) f.code true).answer k 0x10 stOk
/-- DISENGAGE (R438). -/
def disengage (k : HostCmd) (f : Func) (L : Lane) : Lane :=
  (L.wrBit (Reg.HQ_PORT_ENGAGED k.port.val) f.code false).answer k 0x11 stOk
/-- Keep a setpoint, and of the older ones those that a release within 20 µs may still use (R439). -/
def keepSetpoint (h : Fin 4) (f : Func) (v : Word) (valid : Nat) (L : Lane) : Lane :=
  let cut := L.el - 20000
  L.onHost h (fun x => { x with setpoints := vupd x.setpoints f.ix (fun old =>
    ⟨v, valid, L.el⟩ :: (old.takeWhile (fun p => decide (cut < p.time)) ++ (old.dropWhile (fun p => decide (cut < p.time))).take 1)) })
/-- An accepted setpoint is answered once per 100 ms per port (R436). -/
def answerSet (k : HostCmd) (op : Nat) (L : Lane) : Lane :=
  if L.running (.answer k.port) && !L.due (.answer k.port) 100000000 then L
  else (L.restart (.answer k.port)).answer k op stOk
/-- STEER_SET, BRAKE_SET or TRAIL_SET (R436, R437): a STEER setpoint that another source outranks is kept and answered
NOT_AUTHORITY. -/
def setpoint (k : HostCmd) (op : Nat) (f : Func) (v : Word) (valid : Nat) (L : Lane) : Lane :=
  let sel := L.rd (Reg.HQ_AUTH_SEL f.code)
  if valid < 10 ∨ 1000 < valid then L.answer k op stBadArg
  else if !L.ranked k.port f || !L.engagedFor k.port f then L.answer k op stNotAuthority
  else
    let L := L.keepSetpoint k.port f v valid
    if f = .steer ∧ sel ≠ 0 ∧ some sel ≠ kindRank (L.portRec k.port).kind then L.answer k op stNotAuthority
    else L.answerSet k op
/-- PARK_SET: 0 release, 1 apply, kept while engaged (R436, R440). -/
def parkSet (k : HostCmd) (v : Nat) (L : Lane) : Lane :=
  if 1 < v then L.answer k 0x15 stBadArg
  else if !L.ranked k.port .park || !L.engagedFor k.port .park then L.answer k 0x15 stNotAuthority
  else (L.keepSetpoint k.port .park (BitVec.ofNat 32 v) 0).answer k 0x15 stOk

/-! ### The other commands -/

/-- ARM: passed on to SYS_ARM (R52). -/
def hostArm (k : HostCmd) (L : Lane) : Lane :=
  let ok := decide (L.img.start.armMode = 1) && L.mayArm
  L.armTrigger.answer k 0x16 (if ok then stOk else stRefused)
/-- STATUS_GET (R436). -/
def statusArgs (L : Lane) : List Byte :=
  L.regBytes Reg.SYS_STATE_STATE.reg ++
    (List.range 5).flatMap (fun f => L.regBytes (Reg.ROLE_FUNC_ROLE f).reg) ++
    (List.range 5).flatMap (fun f => L.regBytes (Reg.HQ_AUTH_SEL f).reg)
/-- The evidence record of R502. -/
def evidence (nonce : Nat) (L : Lane) : List Byte :=
  let flags := b2n L.tokenOpen + 2 * L.rd Reg.SE_DBG_EVER + 4 * L.rd (Reg.ROLE_FUNC_BARRED 0) + 8 * L.rd Reg.CM_STATUS_BARRED +
    16 * b2n L.approved + 32 * L.rd Reg.SE_STATUS_ALARM
  let msg := leBytes 1 1 ++ leBytes 1 L.id.code ++ leBytes 1 L.lifecycle ++ leBytes 1 flags ++ leBytes 1 L.svc ++ leBytes 3 0 ++
    leBytes 8 Config.serial.toNat ++ leBytes 32 nonce ++ leBytes 32 L.start.image.digest ++ leBytes 32 L.activeDigest ++
    leBytes 4 L.start.image.header.imageVersion ++ leBytes 4 Config.secVersion.toNat ++ leBytes 8 L.now
  msg ++ L.signature 2 msg ++ leBytes 14 0
/-- ATTEST_REQ: six descriptors, or REFUSED where they do not fit or the identity key may not be used (R487, R502). -/
def attestReq (k : HostCmd) (nonce : Nat) (L : Lane) : Lane :=
  let room := match L.replyQueue k.port with
    | some q => decide (L.rd (Reg.HQ_STAT_USED q.val) + 6 ≤ L.effDepth q)
    | none => false
  if room && L.sec.idUsable then
    let e := L.evidence nonce
    L.each (List.range 6) (fun p => respond k 0x30 stOk (leBytes 1 p ++ leBytes 3 0 ++ ((e.drop (44 * p)).take 44)))
  else L.answer k 0x30 stRefused
/-- TIME_JUMP (R421, R426). -/
def hostJump (k : HostCmd) (act : Nat) (L : Lane) : Lane :=
  if act = 1 ∨ act = 2 ∨ act = 3 then
    let ok := L.requestFits act
    (L.jumpRequest act).answer k 0x40 (if ok then stOk else stRefused)
  else L.answer k 0x40 stBadArg
/-- AUTUMN_CLR (R123). -/
def hostAutumnClr (k : HostCmd) (mask : Nat) (L : Lane) : Lane :=
  if 31 < mask then L.answer k 0x41 stBadArg
  else if L.svc ≠ 2 then L.answer k 0x41 stRefused
  else (L.roleClr mask).answer k 0x41 stOk
/-- TEST: from READY, in MANUFACTURE or DEVELOP, with PARK applied here and in every neighbour that is heard (R30); an arming
under way ends, because the guard stays in HOLD in TEST (R547). -/
def hostTest (k : HostCmd) (L : Lane) : Lane :=
  if L.svc = 2 ∧ L.lifecycle ≤ 1 ∧ L.parkOff ∧ (L.peers.all (fun p => p.2.parkOff)) then
    let L := L.when (decide (L.rd Reg.SYS_ARM_STEP ≠ 0)) (armEnd 0)
    (L.setSvc 8).answer k 0x42 stOk
  else L.answer k 0x42 stRefused
/-- PD_ENTER (R457). -/
def hostPdEnter (k : HostCmd) (dom target : Nat) (L : Lane) : Lane :=
  if 7 < dom ∨ target = 0 ∨ 2 < target then L.answer k 0x50 stBadArg
  else L.pdRequest (Fin.ofNat 8 dom) target k.port.val (some (k, 0x50))
/-- PD_WAKE; a host that POWER.HOST_MASK does not name is denied (R426, R457). -/
def hostPdWake (k : HostCmd) (dom : Nat) (L : Lane) : Lane :=
  if 7 < dom then L.answer k 0x51 stBadArg
  else if !L.bitOf (Reg.PD_POLICY_HOST_MASK dom) k.port.val then L.answer k 0x51 stDenied
  else L.pdRequest (Fin.ofNat 8 dom) 0 k.port.val (some (k, 0x51))

/-! ### The queue registers (R448) -/

/-- POP frees the head descriptor of a host-to-lane queue (R434, R447, R448). -/
def pop (q : Fin 16) (L : Lane) : Lane :=
  if (vget L.img.queue q).port = 0xFF ∨ (vget L.img.queue q).dir ≠ 0 then L
  else
    match (vget L.queue q).slots with
    | [] => L.set1 (Reg.HQ_STAT_ERR q.val)
    | _ :: rest =>
      let x := vget L.queue q
      let head := match rest with
        | d :: _ => d.index
        | [] => x.next
      ((L.onQueue q (fun x => { x with slots := rest, done := (x.done + 1) % 65536 })).wr (Reg.HQ_PTR_HEAD q.val) head).wr
        (Reg.HQ_STAT_USED q.val) (L.rd (Reg.HQ_STAT_USED q.val) - 1)
/-- PUSH commits the descriptor at TAIL of a lane-to-host queue (R434, R448). -/
def push (q : Fin 16) (L : Lane) : Lane :=
  if (vget L.img.queue q).port = 0xFF ∨ (vget L.img.queue q).dir ≠ 1 then L else L.pushTail q

end Lane

/-! ### The commands -/

/-- HOST_FRAME_RX: a UDP host frame arrives (R429). -/
def execHostFrameRx (l : LaneId) (f : HostFrame) (s : State) : Host.Outcome State Fault Refusal := onLane l (Lane.frameRx f) s

/-- HOST_SESSION_TIMEOUT: no accepted frame or descriptor for 1 s (R430). -/
def execHostSessionTimeout (l : LaneId) (dt : Nat) (h : Fin 4) (s : State) : Host.Outcome State Fault Refusal :=
  onLane l (fun L =>
    let L := L.pass dt
    L.when (L.sessionOpen h && L.due (.session h) 1000000000) (Lane.closeSession h)) s

/-- FEAT_OFFER (R45): accepted once the port's credential has been checked. -/
def execHostFeatOffer (l : LaneId) (k : HostCmd) (s : State) : Host.Outcome State Fault Refusal :=
  onLane l (fun L => L.credential k (fun L => L.when (L.sessionOpen k.port) (Lane.featOffer k))) s

/-- FEAT_ACCEPT (R45): accepted once the port's credential has been checked. -/
def execHostFeatAccept (l : LaneId) (k : HostCmd) (set : BitVec 128) (s : State) : Host.Outcome State Fault Refusal :=
  onLane l (fun L => L.credential k (fun L => L.when (L.sessionOpen k.port) (Lane.featAccept k set.toNat))) s

/-- CHALLENGE (R430). -/
def execHostChallenge (l : LaneId) (k : HostCmd) (s : State) : Host.Outcome State Fault Refusal :=
  onLane l (fun L => L.credential k (Lane.challenge k)) s

/-- OPEN (R430). -/
def execHostOpen (l : LaneId) (k : HostCmd) (nonce : Nat) (sig : List Byte) (s : State) : Host.Outcome State Fault Refusal :=
  onLane l (fun L => L.credential k (Lane.openCmd k nonce sig)) s

/-- HEARTBEAT: each one is answered (R436). -/
def execHostHeartbeat (l : LaneId) (k : HostCmd) (s : State) : Host.Outcome State Fault Refusal :=
  onLane l (fun L => L.command k 0x05 none none none (fun L => (L.heard k.port).answer k 0x05 stOk)) s

/-- ENGAGE (R438): no port holds a permission for FEEL. -/
def execHostEngage (l : LaneId) (k : HostCmd) (f : Nat) (s : State) : Host.Outcome State Fault Refusal :=
  onLane l (fun L =>
    match Func.ofCode f with
    | none => L.command k 0x10 none none none (fun L => L.answer k 0x10 stBadArg)
    | some f => L.command k 0x10 none (some ((permOf f).getD 31)) (some f) (Lane.engage k f)) s

/-- DISENGAGE (R438). -/
def execHostDisengage (l : LaneId) (k : HostCmd) (f : Nat) (s : State) : Host.Outcome State Fault Refusal :=
  onLane l (fun L =>
    match Func.ofCode f with
    | none => L.command k 0x11 none none none (fun L => L.answer k 0x11 stBadArg)
    | some f => L.command k 0x11 none (some ((permOf f).getD 31)) (some f) (Lane.disengage k f)) s

/-- STEER_SET (R436). -/
def execHostSteerSet (l : LaneId) (k : HostCmd) (angle : Word) (valid : Nat) (s : State) : Host.Outcome State Fault Refusal :=
  onLane l (fun L => L.command k 0x12 none (some 0) (some .steer) (Lane.setpoint k 0x12 .steer angle valid)) s

/-- BRAKE_SET (R436). -/
def execHostBrakeSet (l : LaneId) (k : HostCmd) (demand : Word) (valid : Nat) (s : State) : Host.Outcome State Fault Refusal :=
  onLane l (fun L => L.command k 0x13 none (some 1) (some .brake) (Lane.setpoint k 0x13 .brake demand valid)) s

/-- TRAIL_SET (R436). -/
def execHostTrailSet (l : LaneId) (k : HostCmd) (demand : Word) (valid : Nat) (s : State) : Host.Outcome State Fault Refusal :=
  onLane l (fun L => L.command k 0x14 none (some 2) (some .trail) (Lane.setpoint k 0x14 .trail demand valid)) s

/-- PARK_SET (R436, R440). -/
def execHostParkSet (l : LaneId) (k : HostCmd) (apply : Nat) (s : State) : Host.Outcome State Fault Refusal :=
  onLane l (fun L => L.command k 0x15 none (some 3) (some .park) (Lane.parkSet k apply)) s

/-- ARM (R52). -/
def execHostArm (l : LaneId) (k : HostCmd) (s : State) : Host.Outcome State Fault Refusal :=
  onLane l (fun L => L.command k 0x16 none (some 4) none (Lane.hostArm k)) s

/-- STATUS_GET (R436). -/
def execHostStatusGet (l : LaneId) (k : HostCmd) (s : State) : Host.Outcome State Fault Refusal :=
  onLane l (fun L => L.command k 0x20 none (some 5) none (fun L => L.respond k 0x20 stOk L.statusArgs)) s

/-- FAULT_GET (R436). -/
def execHostFaultGet (l : LaneId) (k : HostCmd) (s : State) : Host.Outcome State Fault Refusal :=
  onLane l (fun L => L.command k 0x21 none (some 5) none (fun L =>
    L.respond k 0x21 stOk (L.regBytes Reg.FC_STATUS_SUMMARY.reg ++ L.regBytes Reg.FC_PEND.reg))) s

/-- ATTEST_REQ (R502). -/
def execHostAttestReq (l : LaneId) (k : HostCmd) (nonce : Nat) (s : State) : Host.Outcome State Fault Refusal :=
  onLane l (fun L => L.command k 0x30 (some 10) (some 6) none (Lane.attestReq k nonce)) s

/-- TIME_JUMP (R421, R426). -/
def execHostTimeJump (l : LaneId) (k : HostCmd) (act : Nat) (s : State) : Host.Outcome State Fault Refusal :=
  onLane l (fun L => L.command k 0x40 none (some 10) none (Lane.hostJump k act)) s

/-- AUTUMN_CLR (R123). -/
def execHostAutumnClr (l : LaneId) (k : HostCmd) (mask : Nat) (s : State) : Host.Outcome State Fault Refusal :=
  onLane l (fun L => L.command k 0x41 none (some 8) none (Lane.hostAutumnClr k mask)) s

/-- TEST (R30). -/
def execHostTest (l : LaneId) (k : HostCmd) (s : State) : Host.Outcome State Fault Refusal :=
  onLane l (fun L => L.command k 0x42 none (some 8) none (Lane.hostTest k)) s

/-- PD_ENTER (R457). -/
def execHostPdEnter (l : LaneId) (k : HostCmd) (dom target : Nat) (s : State) : Host.Outcome State Fault Refusal :=
  onLane l (fun L => L.command k 0x50 none (some 9) none (Lane.hostPdEnter k dom target)) s

/-- PD_WAKE (R457). -/
def execHostPdWake (l : LaneId) (k : HostCmd) (dom : Nat) (s : State) : Host.Outcome State Fault Refusal :=
  onLane l (fun L => L.command k 0x51 none (some 9) none (Lane.hostPdWake k dom)) s

/-- PD_STATUS (R457). -/
def execHostPdStatus (l : LaneId) (k : HostCmd) (s : State) : Host.Outcome State Fault Refusal :=
  onLane l (fun L => L.command k 0x52 none (some 9) none (fun L => L.respond k 0x52 stOk (L.regBytes (Lane.pdFld 0).reg))) s

/-- PD_ACCT_GET (R457). -/
def execHostPdAcctGet (l : LaneId) (k : HostCmd) (s : State) : Host.Outcome State Fault Refusal :=
  onLane l (fun L => L.command k 0x53 none (some 9) none (fun L =>
    L.respond k 0x53 stOk ((List.range 8).flatMap (fun d => L.regBytes (Reg.PD_ACCT_COUNT d).reg)))) s

/-- HQ_POP: a write of HQ_CMD_q.POP (R448). -/
def execHqPop (l : LaneId) (q : Fin 16) (s : State) : Host.Outcome State Fault Refusal := onLane l (Lane.pop q) s

/-- HQ_PUSH: a write of HQ_CMD_q.PUSH (R448). -/
def execHqPush (l : LaneId) (q : Fin 16) (s : State) : Host.Outcome State Fault Refusal := onLane l (Lane.push q) s

end Sys2Proof.Machine
end

