-- ==== Sys2Proof/Machine/Net.lean ====
section
/-! DEFINITION. The ISOBUS controller, the Ethernet link and the sensor supply: rows ISOBUS_ADDRESS_CLAIMED_RX to
ETHERNET_LINK_DOWN but for RECOVERY_DESCRIPTOR, which stands with the update commands, and ETHERNET_LINK_UP,
TRANSPORT_PROTOCOL_CM_RX, V5OUT_OVERTEMPERATURE and V5OUT_RETRY (R359, R441 to R445, R572, R583). -/

namespace Sys2Proof.Machine

/-- The largest Transport Protocol message (R441). -/
def tpMax : Nat := 1785

namespace Lane

/-- The ISOBUS controller works: the lane runs or recovers, and NET is on (R26, R466, R528). -/
def isoOn (L : Lane) : Bool := (L.firmware || decide (L.start.phase = .recovery)) && decide (L.rd (pdFld 3) = 0)
/-- The controller's address. -/
def isoAddr (L : Lane) : Nat := L.rd Reg.IB_STAT_ADDR

/-! ### Addresses (R442) -/

/-- No address can be claimed: Cannot Claim from 254, and the ports stay closed (R442). -/
def isoCannot (L : Lane) : Lane :=
  let L := (((L.wr Reg.IB_STAT_ADDR 0xFE).clr Reg.IB_STAT_CLAIMED).onIso (fun i => { i with cannotClaim := true })).send
    (.isobus 0xEE00 0xFF (leBytes 8 (isoName L.id)))
  L.each ((List.finRange 4).filter (fun h => decide ((L.portRec h).transport = 2) && L.portPresent h)) closeSession
/-- The lowest free address from 128 to 247 (R442). -/
def isoFree (L : Lane) : Option Nat :=
  ((List.range 120).map (fun i => 128 + i)).find? (fun a => !L.isobus.heard.any (fun e => decide (e.1 = a)))
/-- The lane has lost its address (R442). -/
def isoLost (L : Lane) : Lane :=
  match L.isoFree with
  | some a => L.isoClaim a
  | none => L.isoCannot
/-- Another control function claims an address: the lower NAME holds it (R442). -/
def isoHear (src name : Nat) (L : Lane) : Lane :=
  let L := L.onIso (fun i => { i with heard := (src, name) :: i.heard.filter (fun e => decide (e.1 ≠ src) && decide (e.2 ≠ name)) })
  if L.is Reg.IB_STAT_CLAIMED ∧ src = L.isoAddr then
    if name < isoName L.id then L.isoLost
    else (L.onIso (fun i => { i with heard := i.heard.filter (fun e => decide (e.1 ≠ src)) })).isoClaim L.isoAddr
  else L
/-- A Request for Address Claimed is answered (R441, R442). -/
def isoAnswerClaim (L : Lane) : Lane := L.send (.isobus 0xEE00 0xFF (leBytes 8 (isoName L.id)))
/-- Commanded Address: the function named claims the address given (R442, R443). -/
def isoCommanded (name addr : Nat) (L : Lane) : Lane :=
  L.when (decide (name = isoName L.id) && decide (128 ≤ addr) && decide (addr ≤ 247)) (isoClaim addr)

/-! ### Requests and diagnostics (R443) -/

/-- The trouble codes of DM1: four bytes for each set source, SPN 520,192 + source, FMI 31 (R443). -/
def troubleCode (n : Nat) : List Byte := leBytes 4 ((520192 + n) % 2 ^ 16 + 2 ^ 16 * (31 + 32 * ((520192 + n) / 2 ^ 16)) + 2 ^ 24 * 0x7F)
/-- The lamps: amber warning in bits 3 and 2, red stop in bits 5 and 4 (R443). -/
def lamps (L : Lane) : Nat :=
  (if Func.all.any (fun f => L.serves f && decide (L.mode f = 1)) then 4 else 0) +
    (if Func.all.any (fun f => L.serves f && decide (L.mode f = 2)) then 16 else 0)
/-- The DM1 message (R443): the lamps, then a trouble code for each set source, or four zeros where there is none, filled up to one frame as
ISO 11783-12 does (PRESUMED, log entry 89). -/
def dm1Bytes (L : Lane) : List Byte :=
  padFF 8 (leBytes 1 L.lamps ++ [0xFF] ++ (if L.stickySources = [] then [0, 0, 0, 0] else L.stickySources.flatMap troubleCode))
/-- Send DM1 and remember its codes. -/
def dm1Send (L : Lane) : Lane :=
  let codes := L.lamps :: L.stickySources
  ((L.onIso (fun i => { i with dm1 := codes })).restart .dm1).broadcast 0xFECA L.dm1Bytes
/-- DM1 goes out every 1 s, and on a change at most once per 100 ms (R443). -/
def dm1Timer (L : Lane) : Lane :=
  let changed := decide (L.isobus.dm1 ≠ L.lamps :: L.stickySources)
  L.when (!L.running .dm1 || L.due .dm1 1000000000 || (changed && L.due .dm1 100000000)) dm1Send
/-- An identification message, whose content the spec leaves to ISO 11783-12 (log entry 6). -/
def identification (L : Lane) (pgn : Nat) : List Byte := leBytes 8 (Config.freeOf .standard [(L.id.code : Int), (pgn : Int)]).toNat
/-- A Request (R443). -/
def isoRequest (src dst pgn : Nat) (L : Lane) : Lane :=
  let mine := decide (dst = L.isoAddr)
  if !mine && decide (dst ≠ 0xFF) then L
  else if pgn = 0xEE00 then L.isoAnswerClaim
  else if !L.is Reg.IB_STAT_CLAIMED then L
  else if pgn = 0xFECA then L.broadcast 0xFECA L.dm1Bytes
  else if pgn = 0xFECB then L.send (.isobus 0xFECB src ([0, 0xFF, 0, 0, 0, 0, 0xFF, 0xFF]))
  else if pgn = 0xFEDA ∨ pgn = 0xFDC5 then L.send (.isobus pgn src (L.identification pgn))
  else if [0xEA00, 0xE800, 0xFED8, 0xEC00, 0xEB00, 0xEF00, 0xFF61].contains pgn || !mine then L
  else L.send (.isobus 0xE800 src ([1, 0xFF, 0xFF, 0xFF] ++ leBytes 1 src ++ leBytes 3 pgn))
/-- The steering state (R445). -/
def steeringBytes (L : Lane) (angle rate : Int) : List Byte :=
  let guidance := match L.portOfKind 1 with
    | some h => L.engagedFor h .steer
    | none => false
  leBytes 2 (uns 16 angle) ++ leBytes 2 (uns 16 rate) ++ leBytes 1 (L.mode .steer) ++ leBytes 1 (L.rd (Reg.HQ_AUTH_SEL 0)) ++
    leBytes 1 (L.rd (Reg.HQ_AUTH_OVR 0) + 2 * b2n guidance) ++ [0xFF]

/-! ### Proprietary A (R444) -/

/-- A message is ignored and counted (R444). -/
def isoDiscard (L : Lane) : Lane := L.count Reg.IB_CNT_DISC 1
/-- Put a command into a port's host-to-lane queue of the lowest number (R425, R434). -/
def formDescr (h : Fin 4) (op : Nat) (args : List Byte) (L : Lane) : Lane :=
  match (L.queuesOf h 0).head? with
  | some q => L.placeNext q ⟨op, 0, 0, 0, 0, args⟩
  | none => L
/-- A trailer-brake request (R444). -/
def trailerRequest (src demand valid : Nat) (engage : Bool) (L : Lane) : Lane :=
  match L.portOfKind 2 with
  | none => L
  | some h =>
    if !L.hostHas h 9 || decide (1000 < demand) || decide (valid < 1) || decide (100 < valid) then L.isoDiscard
    else if !L.sessionOpen h || decide (vget L.isobus.peer h ≠ some src) then L.isoDiscard
    else
      let L := (L.countMod Reg.IB_CNT_TBR 1).heard h
      let L := L.formDescr h (if engage then 0x10 else 0x11) (leBytes 1 3)
      L.formDescr h 0x14 (leBytes 4 (fpRat demand 10).toNat ++ leBytes 2 (10 * valid))
/-- A message has come by Transport Protocol: its session ends with EoMA (R441). -/
def tpDone (src : Nat) (L : Lane) : Lane :=
  match L.isobus.tpRx with
  | some (x, pgn, size) =>
    L.when (decide (x = src)) (fun L =>
      (L.onIso (fun i => { i with tpRx := none })).send
        (.isobus 0xEC00 src (tpFrame 19 [size % 256, size / 256, tpPackets size, 0xFF] pgn)))
  | none => L
/-- A type 0x03 message opens an ISOBUS port: without an outstanding nonce it is the CHALLENGE, with one the OPEN (R430, R444;
log entry 41). -/
def isoOpen (h : Fin 4) (src nonce : Nat) (sig : List Byte) (L : Lane) : Lane :=
  let L := L.tpDone src
  if L.is Reg.IB_STAT_CLAIMED ∧ (L.portRec h).transport = 2 then
    let fresh := L.running (.nonce h) && !L.due (.nonce h) 10000000001 && (vget L.host h).nonce.isSome
    let known (L : Lane) : Lane := L.onIso (fun i => { i with peer := vupd i.peer h (fun _ => some src) })
    if fresh && L.nonceOk h nonce && L.openSigned h nonce sig && L.ringsSet h then
      let L := known (L.openSession h nonce)
      L.respond ⟨h, 0⟩ opOpen stOk (L.indices h)
    else if fresh then L.answer ⟨h, 0⟩ opOpen stRefused
    else
      let L := if L.sessionOpen h then L else known L
      L.challenge ⟨h, 0⟩
  else L

/-! ### Transport Protocol (R441) -/

/-- Send the next packets of the running message. -/
def tpData (n : Nat) (L : Lane) : Lane :=
  match L.isobus.tpTx with
  | (dst, bytes, at') :: rest =>
    let n := min n (tpPackets bytes.length - at')
    let L := L.each (List.range n) (fun i L =>
      L.send (.isobus 0xEB00 dst (tpPacket bytes (at' + i))))
    L.onIso (fun i => { i with tpTx := (dst, bytes, at' + n) :: rest })
  | [] => L
/-- The running outgoing session is with this address. -/
def tpWith (L : Lane) (src : Nat) : Bool := (L.isobus.tpTx.head?).any (fun t => decide (t.1 = src))
/-- A connection-management frame (R441). -/
def tpCm (m : TpCm) (L : Lane) : Lane :=
  match m with
  | .rts src pgn size =>
    if L.isobus.tpRx.isSome || decide (tpMax < size) then
      L.send (.isobus 0xEC00 src (tpFrame 255 [1, 0xFF, 0xFF, 0xFF] pgn))
    else
      (L.onIso (fun i => { i with tpRx := some (src, pgn, size) })).send
        (.isobus 0xEC00 src (tpFrame 17 [tpPackets size, 1, 0xFF, 0xFF] pgn))
  | .bam src pgn size => L.when (decide (size ≤ tpMax)) (onIso (fun i => { i with bamRx := some (src, pgn, size) }))
  | .cts src n => L.when (L.tpWith src) (tpData n)
  | .eom src => L.when (L.tpWith src) tpNext
  | .abort src =>
    let L := L.when (L.tpWith src) tpNext
    L.onIso (fun i => { i with tpRx := i.tpRx.filter (fun t => decide (t.1 ≠ src)) })

end Lane

/-! ### The commands -/

/-- ISOBUS_ADDRESS_CLAIMED_RX (R442). -/
def execIsobusAddressClaimedRx (l : LaneId) (src name : Nat) (request : Bool) (s : State) : Host.Outcome State Fault Refusal :=
  onLane l (fun L => L.when L.isoOn (if request then Lane.isoAnswerClaim else Lane.isoHear src name)) s

/-- ISOBUS_COMMANDED_ADDRESS (R442, R443). -/
def execIsobusCommandedAddress (l : LaneId) (name addr : Nat) (s : State) : Host.Outcome State Fault Refusal :=
  onLane l (fun L => L.when L.isoOn (Lane.isoCommanded name addr)) s

/-- ISOBUS_REQUEST_RX (R443). -/
def execIsobusRequestRx (l : LaneId) (src dst pgn : Nat) (s : State) : Host.Outcome State Fault Refusal :=
  onLane l (fun L => L.when L.isoOn (Lane.isoRequest src dst pgn)) s

/-- TRAILER_BRAKE_REQUEST: a type 0x01 message to the global address (R444). -/
def execTrailerBrakeRequest (l : LaneId) (src demand valid : Nat) (engage : Bool) (s : State) : Host.Outcome State Fault Refusal :=
  onLane l (fun L => L.when (L.isoOn && L.firmware) (Lane.trailerRequest src demand valid engage)) s

/-- ISOBUS_OPEN_MESSAGE: a type 0x03 message (R430, R444). -/
def execIsobusOpenMessage (l : LaneId) (h : Fin 4) (src nonce : Nat) (sig : List Byte) (s : State) :
    Host.Outcome State Fault Refusal :=
  onLane l (fun L => L.when (L.isoOn && L.portLive h) (Lane.isoOpen h src nonce sig)) s

/-- DM1_TIMER (R443). -/
def execDm1Timer (l : LaneId) (dt : Nat) (s : State) : Host.Outcome State Fault Refusal :=
  onLane l (fun L =>
    let L := L.pass dt
    L.when (L.isoOn && L.firmware && L.is Reg.IB_STAT_CLAIMED) Lane.dm1Timer) s

/-- STEERING_STATE_BROADCAST: every 100 ms while the lane serves STEER (R445). -/
def execSteeringStateBroadcast (l : LaneId) (dt : Nat) (angle rate : Int) (s : State) : Host.Outcome State Fault Refusal :=
  onLane l (fun L =>
    let L := L.pass dt
    L.when (L.isoOn && L.serves .steer && L.is Reg.IB_STAT_CLAIMED &&
        (!L.running .steerBroadcast || L.due .steerBroadcast 100000000)) (fun L =>
      (L.restart .steerBroadcast).send (.isobus 0xFF61 0xFF (L.steeringBytes angle rate)))) s

/-- ISOBUS_BUS_OFF: source 393 fires (R359, R452). -/
def execIsobusBusOff (l : LaneId) (s : State) : Host.Outcome State Fault Refusal :=
  onLane l (fun L => L.when (L.isoOn && L.firmware) (fun L => (L.set1 Reg.IB_STAT_BUSOFF).fire 393)) s

/-- ETHERNET_LINK_DOWN: source 392 fires (R359); the gPTP port has lost its peer (R409). -/
def execEthernetLinkDown (l : LaneId) (s : State) : Host.Outcome State Fault Refusal :=
  onLane l (fun L => L.when L.powered (fun L =>
    (({ L with ptp := { L.ptp with linkUp := false } }).ptpLost).when L.firmware (Lane.fireLevel 392))) s

/-- ETHERNET_LINK_UP: the condition of source 392 ends; the speed fixes the timestamp resolution (R410, R583). -/
def execEthernetLinkUp (l : LaneId) (speed : Nat) (s : State) : Host.Outcome State Fault Refusal :=
  onLane l (fun L => L.when L.powered (fun L =>
    ({ L with ptp := { L.ptp with linkUp := true, speed := speed } }).endLevel 392)) s

/-- TRANSPORT_PROTOCOL_CM_RX (R441). -/
def execTransportProtocolCmRx (l : LaneId) (m : TpCm) (s : State) : Host.Outcome State Fault Refusal :=
  onLane l (fun L => L.when (L.isoOn && L.is Reg.IB_STAT_CLAIMED) (Lane.tpCm m)) s

/-- V5OUT_OVERTEMPERATURE: the sensor supply shuts off for 10 ms (R572). -/
def execV5outOvertemperature (l : LaneId) (s : State) : Host.Outcome State Fault Refusal :=
  onLane l (fun L => L.when L.v5out (fun L => ({ L with v5out := false }).restart .v5)) s

/-- V5OUT_RETRY: V5OUT switches on again 10 ms after a thermal shutdown (R572). -/
def execV5outRetry (l : LaneId) (dt : Nat) (s : State) : Host.Outcome State Fault Refusal :=
  onLane l (fun L =>
    let L := L.pass dt
    L.when (!L.v5out && L.due .v5 10000000) (fun L => ({ L with v5out := true }).stop .v5)) s

end Sys2Proof.Machine
end

