-- ==== Sys2Proof/Machine/Security.lean ====
section
/-! DEFINITION. The security subsystem: rows INFO to DEBUG_OPEN_TIMER_EXPIRY of the table (R482 to R509, R599, R600). A
mailbox command takes its effect when it is submitted; SE_COMMAND_COMPLETE shows its status and response (log entry 42). -/

namespace Sys2Proof.Machine

/-- Status codes of R504. -/
def seOk : Nat := 0
def seUnknown : Nat := 1
def seBadArg : Nat := 2
def seBadSig : Nat := 3
def seNoKey : Nat := 4
def seState : Nat := 5
def seNonce : Nat := 6
def seScope : Nat := 7
def seMismatch : Nat := 8
def seZeroised : Nat := 9
def seAlarm : Nat := 10
/-- Numbers of the Ed448 contexts of R488: 0 empty, 1 ZMX961-APP, 2 ZMX961-ATT, 3 ZMX961-DBG, 4 ZMX961-LC. -/
def ctxApp : Nat := 1
def ctxDbg : Nat := 3
def ctxLc : Nat := 4
/-- The token that 192 bytes spell, with its signature checked against a public key (R496). -/
def tokenOf (b : List Byte) (key : Nat) : Token :=
  { magic := field b 0 4, format := field b 4 1, lanes := field b 5 1, lc := field b 6 1, scope := field b 7 1,
    serial := field b 8 8, nonce := field b 16 32, validS := field b 48 4, key := field b 52 1,
    zeroOk := decide (field b 53 11 = 0) && decide (field b 178 14 = 0) && decide (field b 7 1 < 32),
    sigOk := ed448Ok ctxDbg key (b.take 64) ((b.drop 64).take 114) }
/-- The authorisation record that 158 bytes spell (R491). -/
def authOf (b : List Byte) (key : Nat) : AuthRecord :=
  { kind := field b 0 1, target := field b 1 1, serial := field b 2 8, lane := field b 10 1, key := field b 11 1,
    nonce := field b 12 32, sigOk := ed448Ok ctxLc key (b.take 44) ((b.drop 44).take 114) }

/-- A byte of the boot ROM; its last 4 KiB are what the application cores may read in every service state (R25, R486). -/
def romByte (a : Nat) : Byte :=
  if a < 0x3F000 then Config.romByte a
  else
    let o := a - 0x3F000
    if o < 4 then (leBytes 4 Config.romVersion.toNat).getD o 0
    else if o < 8 then (leBytes 4 Config.romBuild.toNat).getD (o - 4) 0
    else if 0x20 ≤ o ∧ o < 0x40 then
      (shake 32 ((List.range 0x3F000).map Config.romByte)).getD (o - 0x20) 0
    else 0

namespace Lane

/-! ### Keys and the nonce -/

/-- The public key of a debug slot. -/
def dbgKey (L : Lane) (k : Nat) : Nat := (vget L.sec.keys (if k = 0 then 4 else 5)).key
/-- The debug slot with a number is valid. -/
def dbgValid (L : Lane) (k : Nat) : Bool := if k = 0 then L.keyValid 4 else if k = 1 then L.keyValid 5 else false
/-- The image slots that are valid. -/
def imgValid (L : Lane) : List (Fin 6) := [0, 1, 2, 3].filter L.keyValid
/-- Draw a challenge nonce; its 8 words are read next (R495). -/
def drawNonce (L : Lane) : Lane :=
  let n := L.free .nonce % 2 ^ 256
  (L.drawn.onSec (fun x => { x with nonce := some n, nonceRead := 8, tokenWords := [] })).restart .debugNonce
/-- A nonce is the current one and has not expired (R495). -/
def nonceCurrent (L : Lane) (n : Nat) : Bool :=
  decide (L.sec.nonce = some n) && L.running .debugNonce && !L.due .debugNonce 600000000001
/-- The nonce has served. -/
def spendNonce (L : Lane) : Lane := (L.onSec (fun x => { x with nonce := none })).stop .debugNonce

/-! ### Debug tokens (R494 to R500) -/

/-- The first check of R496 that a token fails, 0 where none does. -/
def tokenVerdict (L : Lane) (t : Token) : Nat :=
  if t.magic ≠ 0x4B545A44 ∨ t.format ≠ 1 ∨ t.validS < 60 ∨ 86400 < t.validS ∨ ¬t.zeroOk then seBadArg
  else if ¬nbit t.lanes L.id.code ∨ ¬nbit t.lc L.lifecycle ∨ t.serial ≠ Config.serial.toNat then seMismatch
  else if ¬(L.nonceCurrent t.nonce ∨ (L.lifecycle = 1 ∧ t.nonce = 0)) then seNonce
  else if ¬L.dbgValid t.key then seNoKey
  else if ¬t.sigOk then seBadSig
  else if (nbit t.scope 4 ∧ L.lifecycle ≠ 0 ∧ L.lifecycle ≠ 3) ∨ (L.armedState ∧ ¬nbit t.scope 3) then seScope
  else seOk
/-- The lane becomes token-open with a scope; the open timer runs in DEVELOP and FIELD (R494, R496, R499). -/
def openDebug (t : Token) (L : Lane) : Lane :=
  let L := (L.set1 Reg.SE_DBG_OPEN).wr Reg.SE_DBG_SCOPE (t.scope % 32)
  let L := L.when (decide (L.lifecycle = 1) || decide (L.lifecycle = 2)) (setTimer .token (L.el + t.validS * 1000000000))
  L.when L.firmware tokenBar
/-- A token is checked; a nonce that it names serves no second one (R495, R496). -/
def tokenCheck (b : List Byte) (L : Lane) : Lane × Nat :=
  if L.is Reg.SE_STATUS_TAMPER then (L, seZeroised)
  else
    let t := tokenOf b (L.dbgKey (field b 52 1))
    let v := L.tokenVerdict t
    let L := L.when (L.nonceCurrent t.nonce && (decide (v = seOk) || decide (seNonce ≤ v) || decide (v = seBadSig))) spendNonce
    if v = seOk then (L.openDebug t, v) else (L, v)
/-- The lane returns to closed; the debug module resumes every halted hart (R500). -/
def closeDebug (L : Lane) : Lane :=
  let L := ((L.clr Reg.SE_DBG_OPEN).wr Reg.SE_DBG_SCOPE 0).stop .token
  let L := L.onDbg (fun d => { d with haltreq := Vector.replicate 4 false, secHalted := false })
  { L with core := L.core.map (fun (c : CoreSt) => if c.run = .debugHalted then { c with run := CoreRun.running } else c) }

/-! ### The mailbox (R503, R504) -/

/-- The first bytes of a channel's request. -/
def seReq (L : Lane) (c : Fin 2) (n : Nat) : List Byte :=
  ((List.range 64).flatMap (fun k => leBytes 4 (L.rd (Reg.SE_REQ c.val k)))).take n
/-- The identity key may be used, or why not (R484, R487, R490, R600). -/
def identityBar (L : Lane) : Option Nat :=
  if L.lifecycle = 3 then some seState
  else if !L.sec.idDone then some seNoKey
  else if L.is Reg.SE_STATUS_ZEROISED then some seZeroised
  else if !L.sec.idUsable then some seNoKey
  else none
/-- The valid slots as INFO shows them. -/
def slotMask (L : Lane) : Nat := (List.finRange 6).foldl (fun v k => v + 2 ^ k.val * b2n (L.keyValid k)) 0
/-- A byte that the accelerators' DMA reads, at any lane address: memory, boot ROM, a register as it reads; elsewhere the spec states no
value (R24, R485; log entry 42). -/
def dmaByte (L : Lane) (a : Nat) : Byte :=
  if 0x10000000 ≤ a ∧ a < 0x10800000 then L.sramByte a
  else if 0x100000000 ≤ a then Tab.get 0 L.store (a - 0x100000000)
  else if a < 0x40000 then romByte a
  else if (regAt (a / 4 * 4)).isSome then (leBytes 4 (L.regValue (a / 4 * 4))).getD (a % 4) 0
  else BitVec.ofInt 8 (Config.freeOf .unstated [1006, (a : Int)])
/-- The bytes of lane memory that HASH reads (R504). -/
def dmaBytes (L : Lane) (a n : Nat) : List Byte := (List.range n).map (fun i => L.dmaByte (a + i))

/-- What a command does: the lane after it, its status and its response. -/
abbrev SeResult := Lane × Nat × List Byte
/-- A status without effect and without response. -/
def seFail (v : Nat) (L : Lane) : SeResult := (L, v, [])

/-- INFO (R504). -/
def seInfo (L : Lane) : SeResult :=
  (L, seOk, leBytes 2 Config.romVersion.toNat ++ leBytes 2 Config.secVersion.toNat ++ leBytes 8 Config.serial.toNat ++
    leBytes 1 L.lifecycle ++ leBytes 1 L.slotMask ++ leBytes 1 (b2n L.approved))
/-- ID_GEN: once, in MANUFACTURE; a KEK without the done fuse bars it for good (R487, R504, R600). -/
def seIdGen (L : Lane) : SeResult :=
  if L.lifecycle ≠ 0 ∨ L.sec.idDone ∨ L.sec.kek.isSome then L.seFail seState
  else if L.sec.entropyBad then L.seFail seAlarm
  else
    let priv : Nat := L.free .identityKey % 2 ^ 456
    let L := L.drawn
    let kek : Nat := L.free .identityKey % 2 ^ 256
    let L := L.drawn
    let pub := (Config.freeOf .standard [-2, (priv : Int)]).toNat % 2 ^ 456
    let wrapped := leBytes 73 (Config.freeOf .standard [-3, (priv : Int), (kek : Int), (Config.serial.toNat : Int), (L.id.code : Int)]).toNat
    let L := (L.storeWrite 0x20000 wrapped).onSec (fun x =>
      { x with identity := some priv, kek := some kek, idPublic := pub, idDone := true, idUsable := true })
    (L, seOk, leBytes 57 pub)
/-- ID_PUB (R504). -/
def seIdPub (L : Lane) : SeResult :=
  if L.lifecycle = 3 then L.seFail seState
  else if !L.sec.idDone then L.seFail seNoKey
  else
    let cert := L.sec.certificate
    (L, seOk, leBytes 57 L.sec.idPublic ++ leBytes 2 cert.length ++ cert)
/-- ID_CERT (R504). -/
def seIdCert (req : List Byte) (L : Lane) : SeResult :=
  if L.lifecycle ≠ 0 then L.seFail seState
  else if req.length < 1 ∨ 197 < req.length then L.seFail seBadArg
  else (L.onSec (fun x => { x with certificate := req }), seOk, [])
/-- SIGN (R488, R504). -/
def seSign (req : List Byte) (L : Lane) : SeResult :=
  match L.identityBar with
  | some v => L.seFail v
  | none => if req.length < 1 then L.seFail seBadArg else (L, seOk, L.signature ctxApp req)
/-- VERIFY (R504). -/
def seVerify (req : List Byte) (L : Lane) : SeResult :=
  if req.length < 171 then L.seFail seBadArg
  else if ed448Ok 0 (field req 0 57) (req.drop 171) ((req.drop 57).take 114) then (L, seOk, []) else L.seFail seBadSig
/-- HASH (R504). -/
def seHash (req : List Byte) (L : Lane) : SeResult :=
  let n := field req 8 4
  let out := field req 12 1
  if req.length ≠ 13 ∨ 2 ^ 30 < n ∨ (out ≠ 32 ∧ out ≠ 64) then L.seFail seBadArg
  else (L, seOk, shake out (L.dmaBytes (field req 0 8) n))
/-- RANDOM (R504). -/
def seRandom (req : List Byte) (L : Lane) : SeResult :=
  let n := field req 0 2
  if L.sec.entropyBad then L.seFail seAlarm
  else if req.length ≠ 2 ∨ n < 1 ∨ 256 < n then L.seFail seBadArg
  else (L.drawn, seOk, leBytes n (L.free .random))
/-- ATTEST (R502, R504). -/
def seAttest (req : List Byte) (L : Lane) : SeResult :=
  match L.identityBar with
  | some v => L.seFail v
  | none => if req.length ≠ 32 then L.seFail seBadArg else (L, seOk, L.evidence (field req 0 32))
/-- DBG_CHAL (R495, R504). -/
def seDbgChal (L : Lane) : SeResult :=
  if L.lifecycle ≠ 1 ∧ L.lifecycle ≠ 2 then L.seFail seState
  else if L.sec.entropyBad then L.seFail seAlarm
  else
    let L := L.drawNonce
    (L, seOk, leBytes 32 (L.sec.nonce.getD 0))
/-- DBG_OPEN (R496, R504). -/
def seDbgOpen (req : List Byte) (L : Lane) : SeResult :=
  if L.lifecycle ≠ 1 ∧ L.lifecycle ≠ 2 then L.seFail seState
  else if req.length ≠ 192 then L.seFail seBadArg
  else
    let r := L.tokenCheck req
    (r.1, r.2, [])
/-- DBG_CLOSE (R500, R504). -/
def seDbgClose (L : Lane) : SeResult := (L.closeDebug, seOk, [])

/-- LC_ADVANCE and KEY_REVOKE: why an authorisation record is refused (R489, R491). -/
def authBar (L : Lane) (req : List Byte) (kind : Nat) : Option Nat :=
  let a := authOf req (L.dbgKey (field req 11 1))
  if L.svc ≠ 2 ∧ L.svc ≠ 8 ∧ L.svc ≠ 7 then some seState
  else if req.length ≠ 158 ∨ a.kind ≠ kind then some seBadArg
  else if a.serial ≠ Config.serial.toNat ∨ a.lane ≠ L.id.code then some seMismatch
  else if ¬L.nonceCurrent a.nonce then some seNonce
  else if ¬L.dbgValid a.key then some seNoKey
  else if ¬a.sigOk then some seBadSig
  else none
/-- The keys are zeroised for RETIRED (R490). -/
def zeroise (L : Lane) : Lane :=
  ((L.onSec (fun x =>
    { x with identity := none, idUsable := false, kek := some (2 ^ 256 - 1), certificate := [], nonce := none, tokenWords := [] })).securityClear).set1 Reg.SE_STATUS_ZEROISED
/-- LC_ADVANCE (R489, R490, R599). -/
def seLcAdvance (req : List Byte) (L : Lane) : SeResult :=
  match L.authBar req 1 with
  | some v => L.seFail v
  | none =>
    let t := field req 1 1
    if 3 < t ∨ t ≤ L.lifecycle then L.seFail seBadArg
    else if L.lifecycle = 0 ∧ t ≠ 3 ∧ ¬(L.sec.idDone ∧ L.imgValid ≠ [] ∧ (L.keyValid 4 ∨ L.keyValid 5)) then L.seFail seState
    else
      let L := (L.spendNonce.onSec (fun x => { x with lc1 := max x.lc1 t, lc2 := max x.lc2 t, pend := some (max t (x.pend.getD 0)) })).when
        (decide (t = 3)) zeroise
      (L, seOk, [])
/-- KEY_SLOT of the structure image in the active bank (R491); of one that the lane has not read yet it is a free value. -/
def activeKeySlot (L : Lane) : Option Nat :=
  L.imagePart.map (fun x =>
    if vget L.update.built L.activeBank then (Tab.get 0 L.store (x.1 + 11)).toNat
    else (Config.freeOf .unstated [1007, (L.activeBank.val : Int)]).toNat % 4)
/-- KEY_REVOKE (R491, R599). -/
def seKeyRevoke (req : List Byte) (L : Lane) : SeResult :=
  match L.authBar req 2 with
  | some v => L.seFail v
  | none =>
    let t := field req 1 1
    if h : t < 6 then
      let k : Fin 6 := ⟨t, h⟩
      let last := if t < 4 then L.imgValid == [k] else !(L.keyValid (if t = 4 then 5 else 4))
      if last || decide (t = 4 + field req 11 1) || decide (L.activeKeySlot = some t) then L.seFail seState
      else (L.spendNonce.onSec (fun x => { x with keys := vupd x.keys k (fun s => { s with revoked1 := true, revoked2 := true }) }), seOk, [])
    else L.seFail seBadArg
/-- KEY_PROG: in MANUFACTURE, a slot once (R487, R504). -/
def seKeyProg (req : List Byte) (L : Lane) : SeResult :=
  if L.lifecycle ≠ 0 then L.seFail seState
  else if req.length ≠ 58 then L.seFail seBadArg
  else
    let t := field req 0 1
    if h : t < 6 then
      let k : Fin 6 := ⟨t, h⟩
      if (vget L.sec.keys k).programmed then L.seFail seState
      else (L.onSec (fun x => { x with keys := vupd x.keys k (fun s => { s with key := field req 1 57, programmed := true }) }), seOk, [])
    else L.seFail seBadArg

/-- A command is submitted to a channel: by its own pair only, one at a time; a tampered module answers every command but
INFO with ZEROISED (R484, R503). -/
def seSubmit (c : Fin 2) (pair : Pair) (op len : Nat) (act : List Byte → Lane → SeResult) (L : Lane) : Lane :=
  if !L.powered then L
  else if pair ≠ c then L.fire 20
  else
    let len := if len ≤ 256 then len else L.rd (Reg.SE_CMD_LEN c.val)
    let busy := if c = 0 then Reg.SE_STATUS_BUSY_0 else Reg.SE_STATUS_BUSY_1
    let L' := (L.wr (Reg.SE_CMD_OP c.val) op).wr (Reg.SE_CMD_LEN c.val) len
    if L.is busy then L'.set1 (if c = 0 then Reg.SE_STATUS_OVR_0 else Reg.SE_STATUS_OVR_1)
    else
      let r := if L.is Reg.SE_STATUS_TAMPER && decide (op ≠ 1) then L'.seFail seZeroised else act (L'.seReq c len) L'
      (r.1.set1 busy).onSec (fun x => { x with chan := vupd x.chan c (fun _ => some r.2) })
/-- The command that an OP names (R504). -/
def seAct (op : Nat) (req : List Byte) (L : Lane) : SeResult :=
  match op with
  | 0x01 => L.seInfo
  | 0x02 => L.seIdGen
  | 0x03 => L.seIdPub
  | 0x04 => L.seIdCert req
  | 0x05 => L.seSign req
  | 0x06 => L.seVerify req
  | 0x07 => L.seHash req
  | 0x08 => L.seRandom req
  | 0x09 => L.seAttest req
  | 0x0A => L.seDbgChal
  | 0x0B => L.seDbgOpen req
  | 0x0C => L.seDbgClose
  | 0x0D => L.seLcAdvance req
  | 0x0E => L.seKeyRevoke req
  | 0x0F => L.seKeyProg req
  | _ => L.seFail seUnknown
/-- A request ends: the response stands in SE_RSP_c_k and SE_RES_c, DONE_c is set, the PLIC source raised (R503, R506). -/
def seComplete (c : Fin 2) (L : Lane) : Lane :=
  match vget L.sec.chan c with
  | none => L
  | some (v, rsp) =>
    let L := L.each (List.range 64) (fun k L =>
      L.when (decide (4 * k < rsp.length)) (wr (Reg.SE_RSP c.val k) (field rsp (4 * k) 4)))
    let L := (L.wr (Reg.SE_RES_STATUS c.val) v).wr (Reg.SE_RES_RLEN c.val) rsp.length
    let L := if c = 0 then (L.clr Reg.SE_STATUS_BUSY_0).set1 Reg.SE_STATUS_DONE_0 else (L.clr Reg.SE_STATUS_BUSY_1).set1 Reg.SE_STATUS_DONE_1
    (L.onSec (fun x => { x with chan := vupd x.chan c (fun _ => none) })).irq (.seChannel c)

/-! ### Alarms (R482, R484) -/

/-- An entropy health test fails (R482). -/
def entropyFail (L : Lane) : Lane := ((L.set1 Reg.SE_STATUS_ALARM).onSec (fun x => { x with entropyBad := true })).fireLevel 453
/-- The tamper mesh is breached: the keys in RAM are zeroised, the fuses stay, the lane enters WINTER (R484). -/
def tamper (L : Lane) : Lane :=
  let L := ((L.set1 Reg.SE_STATUS_TAMPER).set1 Reg.SE_STATUS_ZEROISED).onSec (fun x =>
    { x with identity := none, idUsable := false, nonce := none, tokenWords := [] })
  (L.fireLevel 454).when L.upState (forced 6)

/-! ### authdata (R495, R500) -/

/-- A debugger asks for a challenge nonce. -/
def authChallenge (L : Lane) : Lane :=
  if L.is Reg.SE_STATUS_TAMPER then L.onSec (fun x => { x with tokenStatus := seZeroised, nonceRead := 0 })
  else if L.sec.entropyBad then L.onSec (fun x => { x with tokenStatus := seAlarm, nonceRead := 0 })
  else L.drawNonce
/-- A token word; the 48th starts the check. -/
def authWord (w : Word) (L : Lane) : Lane :=
  if L.sec.tokenCheck then L
  else L.onSec (fun x =>
    let ws := x.tokenWords ++ [w]
    { x with tokenWords := ws, tokenCheck := decide (48 ≤ ws.length), nonceRead := 0 })
/-- The check of the delivered token ends. -/
def tokenDone (L : Lane) : Lane :=
  if L.sec.tokenCheck then
    let r := L.tokenCheck (L.sec.tokenWords.flatMap (fun w => leBytes 4 w.toNat))
    r.1.onSec (fun x => { x with tokenCheck := false, tokenWords := [], tokenStatus := r.2 })
  else L
/-- What a read of authdata returns: the next nonce word, or the status of the last token. -/
def authValue (L : Lane) : Nat :=
  if L.sec.nonceRead = 0 then L.sec.tokenStatus else (L.sec.nonce.getD 0) / 2 ^ (32 * (8 - L.sec.nonceRead)) % 2 ^ 32
/-- A read of authdata. -/
def authRead (L : Lane) : Lane := (L.send (.tdo L.authValue)).onSec (fun x => { x with nonceRead := x.nonceRead - 1 })

end Lane

/-! ### The commands -/

/-- INFO: SE_CMD_c is written with OP 0x01 and GO (R503, R504). -/
def execSeInfo (l : LaneId) (c : Fin 2) (pair : Pair) (len : Nat) (s : State) : Host.Outcome State Fault Refusal :=
  onLane l (Lane.seSubmit c pair 0x01 len (fun _ => Lane.seInfo)) s

/-- ID_GEN: SE_CMD_c is written with OP 0x02 and GO (R503, R504). -/
def execSeIdGen (l : LaneId) (c : Fin 2) (pair : Pair) (len : Nat) (s : State) : Host.Outcome State Fault Refusal :=
  onLane l (Lane.seSubmit c pair 0x02 len (fun _ => Lane.seIdGen)) s

/-- ID_PUB: SE_CMD_c is written with OP 0x03 and GO (R503, R504). -/
def execSeIdPub (l : LaneId) (c : Fin 2) (pair : Pair) (len : Nat) (s : State) : Host.Outcome State Fault Refusal :=
  onLane l (Lane.seSubmit c pair 0x03 len (fun _ => Lane.seIdPub)) s

/-- ID_CERT: SE_CMD_c is written with OP 0x04 and GO (R503, R504). -/
def execSeIdCert (l : LaneId) (c : Fin 2) (pair : Pair) (len : Nat) (s : State) : Host.Outcome State Fault Refusal :=
  onLane l (Lane.seSubmit c pair 0x04 len Lane.seIdCert) s

/-- SIGN: SE_CMD_c is written with OP 0x05 and GO (R503, R504). -/
def execSeSign (l : LaneId) (c : Fin 2) (pair : Pair) (len : Nat) (s : State) : Host.Outcome State Fault Refusal :=
  onLane l (Lane.seSubmit c pair 0x05 len Lane.seSign) s

/-- VERIFY: SE_CMD_c is written with OP 0x06 and GO (R503, R504). -/
def execSeVerify (l : LaneId) (c : Fin 2) (pair : Pair) (len : Nat) (s : State) : Host.Outcome State Fault Refusal :=
  onLane l (Lane.seSubmit c pair 0x06 len Lane.seVerify) s

/-- HASH: SE_CMD_c is written with OP 0x07 and GO (R503, R504). -/
def execSeHash (l : LaneId) (c : Fin 2) (pair : Pair) (len : Nat) (s : State) : Host.Outcome State Fault Refusal :=
  onLane l (Lane.seSubmit c pair 0x07 len Lane.seHash) s

/-- RANDOM: SE_CMD_c is written with OP 0x08 and GO (R503, R504). -/
def execSeRandom (l : LaneId) (c : Fin 2) (pair : Pair) (len : Nat) (s : State) : Host.Outcome State Fault Refusal :=
  onLane l (Lane.seSubmit c pair 0x08 len Lane.seRandom) s

/-- ATTEST: SE_CMD_c is written with OP 0x09 and GO (R503, R504). -/
def execSeAttest (l : LaneId) (c : Fin 2) (pair : Pair) (len : Nat) (s : State) : Host.Outcome State Fault Refusal :=
  onLane l (Lane.seSubmit c pair 0x09 len Lane.seAttest) s

/-- DBG_CHAL: SE_CMD_c is written with OP 0x0A and GO (R503, R504). -/
def execSeDbgChal (l : LaneId) (c : Fin 2) (pair : Pair) (len : Nat) (s : State) : Host.Outcome State Fault Refusal :=
  onLane l (Lane.seSubmit c pair 0x0A len (fun _ => Lane.seDbgChal)) s

/-- DBG_OPEN: SE_CMD_c is written with OP 0x0B and GO (R503, R504). -/
def execSeDbgOpen (l : LaneId) (c : Fin 2) (pair : Pair) (len : Nat) (s : State) : Host.Outcome State Fault Refusal :=
  onLane l (Lane.seSubmit c pair 0x0B len Lane.seDbgOpen) s

/-- DBG_CLOSE: SE_CMD_c is written with OP 0x0C and GO (R503, R504). -/
def execSeDbgClose (l : LaneId) (c : Fin 2) (pair : Pair) (len : Nat) (s : State) : Host.Outcome State Fault Refusal :=
  onLane l (Lane.seSubmit c pair 0x0C len (fun _ => Lane.seDbgClose)) s

/-- LC_ADVANCE: SE_CMD_c is written with OP 0x0D and GO (R503, R504). -/
def execSeLcAdvance (l : LaneId) (c : Fin 2) (pair : Pair) (len : Nat) (s : State) : Host.Outcome State Fault Refusal :=
  onLane l (Lane.seSubmit c pair 0x0D len Lane.seLcAdvance) s

/-- KEY_REVOKE: SE_CMD_c is written with OP 0x0E and GO (R503, R504). -/
def execSeKeyRevoke (l : LaneId) (c : Fin 2) (pair : Pair) (len : Nat) (s : State) : Host.Outcome State Fault Refusal :=
  onLane l (Lane.seSubmit c pair 0x0E len Lane.seKeyRevoke) s

/-- KEY_PROG: SE_CMD_c is written with OP 0x0F and GO (R503, R504). -/
def execSeKeyProg (l : LaneId) (c : Fin 2) (pair : Pair) (len : Nat) (s : State) : Host.Outcome State Fault Refusal :=
  onLane l (Lane.seSubmit c pair 0x0F len Lane.seKeyProg) s

/-- SE_COMMAND_COMPLETE (R503). -/
def execSeCommandComplete (l : LaneId) (c : Fin 2) (s : State) : Host.Outcome State Fault Refusal :=
  onLane l (fun L => L.when L.powered (Lane.seComplete c)) s

/-- ENTROPY_HEALTH_FAIL (R482). -/
def execEntropyHealthFail (l : LaneId) (s : State) : Host.Outcome State Fault Refusal :=
  onLane l (fun L => L.when L.powered Lane.entropyFail) s

/-- TAMPER_BREACH (R484). -/
def execTamperBreach (l : LaneId) (s : State) : Host.Outcome State Fault Refusal :=
  onLane l (fun L => L.when L.powered Lane.tamper) s

/-- AUTHDATA_CHALLENGE: 0x0000_0001 is written to authdata (R495). -/
def execAuthdataChallenge (l : LaneId) (s : State) : Host.Outcome State Fault Refusal :=
  onLane l (fun L => L.when L.powered Lane.authChallenge) s

/-- AUTHDATA_TOKEN_WORD (R495). -/
def execAuthdataTokenWord (l : LaneId) (w : Word) (s : State) : Host.Outcome State Fault Refusal :=
  onLane l (fun L => L.when L.powered (Lane.authWord w)) s

/-- AUTHDATA_CLOSE: 0x0000_0002 is written to authdata (R500). -/
def execAuthdataClose (l : LaneId) (s : State) : Host.Outcome State Fault Refusal :=
  onLane l (fun L => L.when L.powered Lane.closeDebug) s

/-- AUTHDATA_READ (R495). -/
def execAuthdataRead (l : LaneId) (s : State) : Host.Outcome State Fault Refusal :=
  onLane l (fun L => L.when L.powered Lane.authRead) s

/-- DEBUG_TOKEN_CHECK_DONE (R495, R496). -/
def execDebugTokenCheckDone (l : LaneId) (s : State) : Host.Outcome State Fault Refusal :=
  onLane l (fun L => L.when L.powered Lane.tokenDone) s

/-- DEBUG_OPEN_TIMER_EXPIRY (R500). -/
def execDebugOpenTimerExpiry (l : LaneId) (dt : Nat) (s : State) : Host.Outcome State Fault Refusal :=
  onLane l (fun L =>
    let L := L.pass dt
    L.when (L.is Reg.SE_DBG_OPEN && L.due .token 0) Lane.closeDebug) s

end Sys2Proof.Machine
end

