-- ==== Sys2Proof/Machine/Update.lean ====
section
/-! DEFINITION. Field update: rows UPD_BEGIN to RECOVERY_PACKAGE_BUILT, RECOVERY_DESCRIPTOR and FLOOR_FUSES_BLOWN of the
table (R510 to R534). -/

namespace Sys2Proof.Machine

/-- Chunks that a package may have (R511). -/
def maxChunks : Nat := 262144
/-- Chunks that may wait in SRAM for the digest table (R518). -/
def maxWaiting : Nat := 64
/-- The largest OUT_LEN of a part of a type (R514). -/
def partLimit : Nat → Nat
  | 1 => 4194304
  | 2 => 65536
  | 3 => 98304
  | 4 => 2097152
  | 5 => 1048576
  | 6 => 256
  | _ => 0
/-- The parts of a type and instance that a lane installs (R514). -/
def partsFor (m : Manifest) (lane type inst : Nat) : Nat :=
  (m.parts.filter (fun p => nbit p.lanes lane && decide (p.type = type) && decide (p.inst = inst))).length
/-- The part set of a manifest is complete and within its limits (R512 to R514). -/
def partSetOk (m : Manifest) : Bool :=
  decide (11 ≤ m.partCount) && decide (m.partCount ≤ 32) &&
    (List.range 3).all (fun l => [1, 3, 4, 5, 6].all (fun t => decide (partsFor m l t 0 = 1)) &&
      (List.range 4).all (fun i => decide (partsFor m l 2 i = 1))) &&
    m.parts.all (fun p => decide (1 ≤ p.type) && decide (p.type ≤ 6) && decide (p.lanes < 8) && decide (p.lanes ≠ 0) &&
      (if p.type = 2 then decide (p.inst < 4) else decide (p.inst = 0)) && decide (p.enc ≤ 1) && p.zeroOk &&
      (decide (p.enc = 1) || decide (p.baseDigest = 0)) && (decide (p.type = 2) || decide (p.imcrc = 0)) &&
      decide (p.outLen ≤ partLimit p.type) && (decide (p.type ≠ 5) || (decide (p.lanes = 7) && decide (p.outLen % 64 = 0)))) &&
    (nbit m.flags 0 == m.parts.any (fun p => decide (p.enc = 1))) && decide (m.tableChunks = (m.chunks - 1 - m.tableChunks + 127) / 128)
/-- The epoch of a VERSION (R512). -/
def epoch (version : Nat) : Nat := version / 2 ^ 26 % 64
/-- Put a chunk number where it belongs in the bitmap. -/
def insertNum (k : Nat) : List Nat → List Nat
  | [] => [k]
  | x :: t => if k < x then k :: x :: t else if k = x then x :: t else x :: insertNum k t

namespace Lane

/-- The state of the journal (R522). -/
def updState (L : Lane) : Nat := L.rd Reg.UP_STATE_STATE
/-- The lane is in RECOVERY (R528). -/
def inRecovery (L : Lane) : Bool := decide (L.start.phase = .recovery)
/-- The active manifest; in RECOVERY one whose signature does not verify counts as absent (R515, R528). -/
def activeManifest (L : Lane) : Option Manifest :=
  (vget L.update.manifests L.activeBank).filter (fun m => m.sigOk || !L.inRecovery)
/-- Bytes of the staging area from the start of a chunk on (R510). -/
def stagedBytes (L : Lane) (chunk n : Nat) : List Byte := Tab.run 0 L.store (0x40000000 + 4096 * chunk) n
/-- The data of a part in the package. -/
def partData (L : Lane) (p : PartEntry) : List Byte := L.stagedBytes p.firstChunk p.inLen
/-- The base part of a delta: the part of the active bank with the same type and instance, if its digest is BASE_DIGEST (R516). -/
def basePart (L : Lane) (p : PartEntry) : Option (List Byte) :=
  (L.activeManifest.bind (fun m => partAt m L.id p.type p.inst)).bind (fun x =>
    if x.1.outDigest = p.baseDigest then some (Tab.run 0 L.store (bankBase L.activeBank + x.2) x.1.outLen) else none)
/-- A part as application builds it (R516, R520): its bytes, or the error code of R533. -/
def buildPart (L : Lane) (p : PartEntry) : Nat × List Byte :=
  if p.enc = 0 then (0, L.partData p)
  else
    match L.basePart p with
    | none => (5, [])
    | some base =>
      match applyDelta base p.outLen (p.inLen + 1) [] (L.partData p) with
      | some b => (0, b)
      | none => (6, [])
/-- IMAGE_VERSION of the structure image that a manifest would install, and of the active one (R60, R515). -/
def newImageVersion (L : Lane) (m : Manifest) : Nat :=
  match partAt m L.id 5 0 with
  | some x => field (L.buildPart x.1).2 20 4
  | none => 0
def activeImageVersion (L : Lane) : Nat :=
  match L.imagePart with
  | some (at', _) => ofLe (Tab.run 0 L.store (at' + 20) 4)
  | none => 0
/-- The rollback check (R515). -/
def rollbackOk (L : Lane) (m : Manifest) : Bool :=
  let floor := L.rd Reg.UP_FLOOR_FLOOR
  let newer := match L.activeManifest with
    | some a => decide (a.version < m.version) && decide (L.activeImageVersion ≤ L.newImageVersion m)
    | none => true
  (newer || (nbit m.flags 1 && decide (L.lifecycle = 1))) && decide (floor ≤ epoch m.version) && decide (floor ≤ m.floor) &&
    decide (m.floor ≤ epoch m.version)
/-- The error code of R533 of a manifest, 0 where it passes (R512 to R515, R520, R528). -/
def manifestError (L : Lane) (m : Manifest) : Nat :=
  if !m.sigOk || !m.zeroOk || decide (m.magic ≠ 0x464E414D) || decide (m.format ≠ 1) || decide (4 ≤ m.keySlot) || decide (4 ≤ m.flags) ||
      !(L.keyValid (Fin.ofNat 6 m.keySlot)) then 1
  else if m.targetPart ≠ 0x0961 ∨ L.stepping < m.minStepping then 2
  else if !partSetOk m || decide (m.chunks ≠ L.update.chunks) then 4
  else if L.inRecovery && nbit m.flags 0 then 9
  else if !L.rollbackOk m then 3
  else 0

/-! ### Staging (R518, R519) -/

/-- The staging area, the bitmap and the fragments are discarded (R522). -/
def clearStaging (L : Lane) : Lane :=
  { L with
    store := L.store.filter (fun e =>
      !(decide (0x40000 ≤ e.1) && decide (e.1 < 0x48000)) && !(decide (0x40000000 ≤ e.1) && decide (e.1 < 0x80000000)))
    update := { L.update with staged := none, keptAfter7 := false, bitmap := [], frags := [], waiting := [], checkpoint := (0, 0, 0) } }
/-- The journal returns to IDLE and the staging area is discarded. -/
def updIdle (L : Lane) : Lane :=
  ((L.clearStaging.wr Reg.UP_STATE_STATE 0).onUpd (fun u => { u with digest := 0, chunks := 0 })).journalWrite
/-- A failure ends the package (R521, R522): error 7 keeps what was staged. -/
def updFail (err : Nat) (L : Lane) : Lane :=
  let L := L.wr Reg.UP_STATE_ERR err
  if err = 7 then ((L.wr Reg.UP_STATE_STATE 0).onUpd (fun u => { u with keptAfter7 := true, checkpoint := (0, 0, 0) })).journalWrite
  else L.updIdle
/-- Application begins from the first part (R520, R522): a manifest that fails its checks ends it at once. -/
def applyStart (L : Lane) : Lane :=
  let L := ((((L.wr Reg.UP_STATE_STATE 2).wr Reg.UP_APPLY_PART 0).wr Reg.UP_APPLY_MIB 0).onUpd (fun u =>
    { u with keptAfter7 := false, checkpoint := (0, 0, 0) })).journalWrite
  match L.update.staged with
  | some m => if L.manifestError m = 0 then L else L.updFail (L.manifestError m)
  | none => L.updFail 1
/-- A new package begins (R522). -/
def receiveStart (digest chunks : Nat) (L : Lane) : Lane :=
  ((L.clearStaging.wr Reg.UP_STATE_STATE 1).onUpd (fun u => { u with digest := digest, chunks := chunks })).journalWrite

/-! ### Application (R520, R521) -/

/-- Bytes are written to a bank. -/
def bankWrite (b : Fin 2) (off : Nat) (bs : List Byte) (L : Lane) : Lane :=
  { L.wearLines (bankBase b + off) bs.length with store := Tab.graft 0 L.store (bankBase b + off) bs }
/-- The first `n` bytes of a part are built in the inactive bank, and the lane writes a checkpoint: part, output offset, delta offset
(R520). -/
def applyPart (k n : Nat) (L : Lane) : Lane :=
  match L.update.staged.bind (fun m => (installed m L.id)[k]?) with
  | none => L
  | some (p, off) =>
    let r := L.buildPart p
    if r.1 ≠ 0 then L.updFail r.1
    else
      let n := min n r.2.length
      let taken := if p.enc = 0 then n else deltaTaken n (p.inLen + 1) 0 0 (L.partData p)
      let L := L.bankWrite L.inactiveBank off (r.2.take n)
      (((L.wr Reg.UP_APPLY_PART k).wr Reg.UP_APPLY_MIB (n / 2 ^ 20)).onUpd (fun u => { u with checkpoint := (k, n, taken) })).journalWrite
/-- The error of the first part that cannot be built, 0 where every one is (R516, R533). -/
def buildError (L : Lane) (m : Manifest) : Nat :=
  (((installed m L.id).map (fun x => (L.buildPart x.1).1)).find? (fun e => decide (e ≠ 0))).getD 0
/-- Every part stands in the inactive bank, with the manifest at its first byte (R520, R521). -/
def buildBank (m : Manifest) (L : Lane) : Lane :=
  let b := L.inactiveBank
  let L := L.each (installed m L.id) (fun x L => L.bankWrite b x.2 (L.buildPart x.1).2)
  (L.bankWrite b 0 (L.stagedBytes 0 (manifestSize m.partCount))).onUpd (fun u =>
    { u with manifests := vupd u.manifests b (fun _ => some m), built := vupd u.built b (fun _ => true) })
/-- Every part just built has its OUT_DIGEST (R521). -/
def builtDigestsOk (L : Lane) (m : Manifest) : Bool :=
  (installed m L.id).all (fun x => decide (ofLe (shake 32 (L.buildPart x.1).2) = x.1.outDigest))
/-- The structure image just built passes checks 1 to 6 of R66 for the lane's own letter (R521). -/
def builtImageOk (L : Lane) (m : Manifest) : Bool :=
  match partAt m L.id 5 0 with
  | some x =>
    let i := ImageBytes.image (L.buildPart x.1).2 L.id x.1.outLen L.slotKey
    decide ((imageVerdict L.stepping (decide (i.header.keySlot < 4) && L.keyValid (Fin.ofNat 6 i.header.keySlot)) L.id i).1 = 0)
  | none => false
/-- The end of application: the error that ends the package, in the order in which R520 and R521 find them, or 0 (log entry 43). -/
def applyError (L : Lane) (storeOk : Bool) : Nat :=
  match L.update.staged with
  | none => 1
  | some m =>
    if !storeOk then 12
    else if L.buildError m ≠ 0 then L.buildError m
    else if !L.builtDigestsOk m then 7
    else if !L.builtImageOk m then 1 + L.free .unstated % 6
    else 0

/-! ### The chunks of a package (R518, R519) -/

/-- A chunk is held. -/
def holds (L : Lane) (k : Nat) : Bool := L.update.bitmap.contains k
/-- The digest table is complete (R518). -/
def tableDone (L : Lane) : Bool :=
  match L.update.staged with
  | some m => (List.range (m.tableChunks + 1)).all L.holds
  | none => false
/-- A chunk that fails its check is discarded and counted (R518). -/
def chunkBad (k : Nat) (L : Lane) : Lane := (L.onUpd (fun u => { u with frags := u.frags.erase k })).count Reg.UP_CNT_BAD 1
/-- A chunk is kept: staging first, then its bitmap bit; it is forwarded to both neighbours, but not in RECOVERY (R518, R519,
R528). -/
def chunkKeep (k : Nat) (data : List Byte) (L : Lane) : Lane :=
  let L := (L.pdWake 5 5).storeWrite (0x40000000 + 4096 * k) data
  let bit := (L.storeBytes (0x40000 + k / 8) 1).headD 0
  let L := (L.storeWrite (0x40000 + k / 8) [bit ||| BitVec.ofNat 8 (2 ^ (k % 8))]).onUpd (fun u =>
    { u with frags := u.frags.erase k, bitmap := insertNum k u.bitmap })
  L.when (!L.inRecovery) (fun L => (L.each (List.range 64) (fun i => send (.chunk k i))).count Reg.UP_CNT_FWDCNT 1)
/-- A chunk is not held any more. -/
def chunkDrop (k : Nat) (L : Lane) : Lane :=
  let byte := (L.storeBytes (0x40000 + k / 8) 1).headD 0
  (L.storeWrite (0x40000 + k / 8) [byte &&& ~~~(BitVec.ofNat 8 (2 ^ (k % 8)))]).onUpd (fun u => { u with bitmap := u.bitmap.filter (fun x => decide (x ≠ k)) })
/-- The digest table that has just become complete must match TABLE_DIGEST; otherwise its chunks are discarded with error 10 (R518, R533; log
entry 43). -/
def tableCheck (L : Lane) : Lane :=
  match L.update.staged with
  | some m =>
    if ofLe (shake 32 (L.stagedBytes 1 (4096 * m.tableChunks))) = m.tableDigest then L
    else
      (L.each ((List.range m.tableChunks).map (fun i => i + 1)) chunkDrop).count Reg.UP_CNT_BAD m.tableChunks |>.wr Reg.UP_STATE_ERR 10
  | none => L
/-- A chunk waits in SRAM for the digest table, up to 64 of them (R518). -/
def chunkWait (k : Nat) (data : List Byte) (L : Lane) : Lane :=
  let L := L.onUpd (fun u => { u with frags := u.frags.erase k })
  L.when (decide (L.update.waiting.length < maxWaiting) && !(L.update.waiting.any (fun w => decide (w.1 = k))))
    (onUpd (fun u => { u with waiting := u.waiting ++ [(k, data)] }))
/-- A whole chunk is checked: chunk 0 by the digest that UPD_BEGIN named, the digest table as a whole, a later chunk by its entry of the table
(R518). -/
def chunkTake (k : Nat) (data : List Byte) (L : Lane) : Lane :=
  if L.holds k then L
  else if k = 0 then
    let m := manifestOf data L.slotKey
    if m.digest = L.update.digest then (L.chunkKeep 0 data).onUpd (fun u => { u with staged := some m }) else L.chunkBad k
  else
    match L.update.staged with
    | none => L.chunkWait k data
    | some m =>
      if k ≤ m.tableChunks then
        let L := L.chunkKeep k data
        if L.tableDone then L.tableCheck else L
      else if !L.tableDone then L.chunkWait k data
      else if ofLe (shake 32 data) = ofLe (Tab.run 0 L.store (0x40001000 + 32 * (k - m.tableChunks - 1)) 32) then L.chunkKeep k data
      else L.chunkBad k
/-- The chunks that wait are checked again, in the order of their arrival (R518). -/
def takeWaiting (L : Lane) : Lane :=
  let ws := L.update.waiting
  (L.onUpd (fun u => { u with waiting := [] })).each ws (fun w => chunkTake w.1 w.2)
/-- Every chunk is held: application begins (R520, R522). -/
def updAdvance (L : Lane) : Lane :=
  if L.updState = 1 ∧ L.update.chunks ≤ L.update.bitmap.length then L.applyStart else L
/-- A whole chunk has come: first the ones that it lets be checked may complete the table, then the ones that waited for that (R518). -/
def chunkDone (k : Nat) (data : List Byte) (L : Lane) : Lane := (((L.chunkTake k data).takeWaiting).takeWaiting).updAdvance

/-! ### The commands of a host (R517, R528) -/

/-- Answer an update command, of a host or in RECOVERY (R436, R528). -/
def updAnswer (k : Option HostCmd) (op status : Nat) (args : List Byte) (L : Lane) : Lane :=
  match k with
  | some k => L.respond k op status args
  | none => L.send (.recovery op 0 status args)
/-- The gate of an update command: a host needs UPDATE; in RECOVERY the lane takes its own, and a RETIRED lane refuses every
one (R517, R528, R529). -/
def updGate (k : Option HostCmd) (op : Nat) (act : Lane → Lane) (L : Lane) : Lane :=
  match k with
  | some k => L.command k op none (some 7) none act
  | none =>
    if !L.inRecovery then L
    else if L.lifecycle = 3 then L.updAnswer none op stRefused []
    else act L
/-- UPD_BEGIN (R516, R517, R522). -/
def updBegin (k : Option HostCmd) (digest chunks : Nat) (delta : Bool) (L : Lane) : Lane :=
  let st := L.updState
  let refuse (e : Nat) (L : Lane) : Lane := (L.when (decide (e ≠ 0)) (wr Reg.UP_STATE_ERR e)).updAnswer k 0x31 stRefused (leBytes 1 e)
  if 4 ≤ st then refuse 0 L
  else if 1 ≤ st ∧ digest = L.update.digest then L.updAnswer k 0x31 stOk []
  else if st = 1 ∨ st = 2 then refuse 0 L
  else if delta && k.any (fun k => !nbit (L.hostSet k.port) 8) then refuse 9 L
  else if chunks = 0 ∨ maxChunks < chunks then refuse 8 L
  else if L.update.keptAfter7 ∧ digest = L.update.digest then L.applyStart.updAnswer k 0x31 stOk []
  else (L.receiveStart digest chunks).updAnswer k 0x31 stOk []
/-- UPD_DATA: a fragment; the last one of a chunk completes it (R517, R518). -/
def updData (chunk : Nat) (frag : Fin 128) (data : Vector Byte 32) (L : Lane) : Lane :=
  if L.updState ≠ 1 ∨ L.update.chunks ≤ chunk ∨ L.holds chunk then L
  else
    let old := (Tab.get [] L.update.frags chunk).filter (fun f => decide (f.1 ≠ frag.val))
    let fs := (frag.val, data.toList) :: old
    let L := L.onUpd (fun u => { u with frags := Tab.put [] u.frags chunk fs })
    if fs.length = 128 then
      let bytes := (List.range 128).flatMap (fun i => ((fs.find? (fun f => decide (f.1 = i))).map (fun f => f.2)).getD [])
      L.chunkDone chunk bytes
    else L
/-- The gate of UPD_DATA, which is never answered (R436). -/
def updDataGate (k : Option HostCmd) (act : Lane → Lane) (L : Lane) : Lane :=
  match k with
  | some k => L.when (L.portLive k.port && L.sessionOpen k.port && L.hostLocked k.port && L.perm k.port 7) act
  | none => L.when (L.inRecovery && decide (L.lifecycle ≠ 3)) act
/-- The response to UPD_STATUS (R517). -/
def updStatusArgs (L : Lane) : List Byte :=
  let first := ((List.range (L.update.bitmap.length + 1)).find? (fun k => !L.holds k)).getD 0
  let bits := (List.range 256).foldl (fun v i => v + 2 ^ i * b2n (L.holds (first + i))) 0
  leBytes 1 L.updState ++ leBytes 1 (L.rd Reg.UP_STATE_ERR) ++ leBytes 2 0 ++ leBytes 4 L.update.bitmap.length ++ leBytes 4 first ++
    leBytes 32 bits
/-- The response to UPD_INFO (R517). -/
def updInfoArgs (L : Lane) : List Byte :=
  leBytes 32 L.activeDigest ++ leBytes 4 ((L.activeManifest.map (fun m => m.version)).getD 0) ++
    leBytes 4 (if L.updState < 3 then 0 else (L.update.staged.map (fun m => m.version)).getD 0) ++ leBytes 1 (L.rd Reg.UP_FLOOR_FLOOR)
/-- UPD_ABORT: from IDLE, RECEIVING and APPLYING (R522). -/
def updAbort (k : Option HostCmd) (L : Lane) : Lane :=
  if L.updState ≤ 2 then L.updIdle.updAnswer k 0x34 stOk [] else L.updAnswer k 0x34 stRefused []
/-- UPD_PAUSE (R517). -/
def updPause (k : HostCmd) (pause : Bool) (L : Lane) : Lane :=
  if L.updState < 4 then (L.wr Reg.UP_STATE_PAUSED (b2n pause)).respond k 0x37 stOk [] else L.respond k 0x37 stRefused []

/-! ### Activation (R523 to R525) -/

/-- Every port of STEER, FEEL and BRAKE reports STILL here and in the neighbours (R523). -/
def allStill (L : Lane) : Bool :=
  ([Func.steer, .feel, .brake].filterMap L.portOf).all (fun p =>
    L.is (Reg.QE_VOTE_STILL p.val) && L.peers.all (fun x => vget x.2.still p))
/-- The first condition of R523 that the lane does not meet; `late` also takes neighbours that are PREPARED. -/
def activateBar (L : Lane) (late : Bool) : Option Nat :=
  let ps := L.peers
  let up (s : Nat) : Bool := decide (s = 2) || decide (s = 4) || decide (s = 5)
  if L.updState ≠ 3 ∨ ps.length ≠ 2 ∨ ¬(ps.all (fun x =>
      (decide (x.2.updState = 3) || (late && decide (x.2.updState = 4))) && decide (x.2.updDigest = L.update.digest))) then some 20
  else if !up L.svc || !(ps.all (fun x => up x.2.state)) then some 21
  else if !L.due .parkApplied 1000000000 then some 22
  else if !L.allStill then some 23
  else if L.tokenOpen || ps.any (fun x => x.2.tokenOpen) then some 24
  else none
/-- The lane writes PREPARED (R522, R524). -/
def prepare (L : Lane) : Lane := ((L.wr Reg.UP_STATE_STATE 4).journalWrite).restart .prepared
/-- UPD_ACTIVATE: answered when the restart is announced (R517, R523). -/
def updActivate (k : HostCmd) (L : Lane) : Lane :=
  if L.updState = 4 ∨ L.updState = 5 then
    (if L.update.coordinator && L.update.asker.isSome then L else L.respond k 0x35 stOk [])
  else
    match L.activateBar false with
    | some c => L.respond k 0x35 stRefused (leBytes 1 c)
    | none => L.prepare.onUpd (fun u => { u with coordinator := true, asker := some k })
/-- The lane writes COMMITTED: the inactive bank is named as active (R522, R524). -/
def commitSet (at' : Nat) (L : Lane) : Lane :=
  (((L.wr Reg.UP_STATE_STATE 5).stop .prepared).onUpd (fun u =>
    { u with previous := u.active, active := (if u.active = 0 then 1 else 0), restartAt := some at' })).journalWrite
/-- The coordinator commits when all three lanes report PREPARED, and announces the restart instant (R524). -/
def coordinate (L : Lane) : Lane :=
  if L.update.coordinator ∧ L.updState = 4 ∧ L.peers.length = 2 ∧
      L.peers.all (fun x => decide (x.2.updState = 4) && decide (x.2.updDigest = L.update.digest)) then
    let t := (L.now + 20000000 + 9999999) / 10000000 * 10000000
    let L := L.commitSet t
    match L.update.asker with
    | some k => (L.onUpd (fun u => { u with asker := none })).respond k 0x35 stOk []
    | none => L
  else L
/-- What a status frame asks of the activation: prepare, or commit (R524). -/
def followActivation (f : StatusFrame) (L : Lane) : Lane :=
  let L := L.when (f.updPrepare && decide (L.updState = 3) && decide (L.activateBar true = none)) prepare
  match f.updRestart with
  | some t => L.when (decide (L.updState = 4) && !L.update.coordinator) (commitSet t)
  | none => L
/-- PREPARED returns to STAGED (R522). -/
def prepareLapse (L : Lane) : Lane :=
  let asked := L.update.asker
  let L := (((L.wr Reg.UP_STATE_STATE 3).stop .prepared).onUpd (fun u => { u with coordinator := false, asker := none })).journalWrite
  match asked with
  | some k => L.respond k 0x35 stRefused (leBytes 1 20)
  | none => L
/-- The update restart: ports off, solenoids SAFE, KM and KP open, HOLD, the lane die in reset for 100 µs (R524). -/
def updateRestart (L : Lane) : Lane :=
  let L := L.each (List.finRange 3) portOffSwitches
  let L := (L.restart .gatesOff).each (List.finRange 4) svForce
  (L.wr Reg.LG_STATUS_GSTATE 0).holdDie
/-- Confirmation of a trial: READY on the new digest, both neighbours READY or later on it (R525). -/
def trialConfirm (L : Lane) : Lane :=
  let up (s : Nat) : Bool := decide (2 ≤ s) && decide (s ≤ 5)
  if L.updState = 6 ∧ L.svc = 2 ∧ L.peers.length = 2 ∧ L.peers.all (fun x => up x.2.state && decide (x.2.updActive = L.activeDigest)) then
    let floor := ((vget L.update.manifests L.activeBank).map (fun m => m.floor)).getD 0
    let L := (L.updIdle.stop .trial).when (decide (L.rd Reg.UP_FLOOR_FLOOR < floor)) (onUpd (fun u => { u with floorPending := some floor }))
    L
  else L
/-- A neighbour has reverted the set on trial: the lane reverts as well (R525). -/
def trialFollow (f : StatusFrame) (L : Lane) : Lane :=
  if L.updState = 6 ∧ f.updReverted = some L.activeDigest then L.revert else L.trialConfirm

end Lane

/-! ### The commands -/

/-- UPD_BEGIN (R517). -/
def execUpdBegin (l : LaneId) (k : Option HostCmd) (digest chunks : Nat) (delta : Bool) (s : State) :
    Host.Outcome State Fault Refusal :=
  onLane l (Lane.updGate k 0x31 (Lane.updBegin k digest chunks delta)) s

/-- UPD_DATA (R518). -/
def execUpdData (l : LaneId) (k : Option HostCmd) (chunk : Nat) (frag : Fin 128) (data : Vector Byte 32) (s : State) : Host.Outcome State Fault Refusal :=
  onLane l (Lane.updDataGate k (Lane.updData chunk frag data)) s

/-- UPD_STATUS (R517). -/
def execUpdStatus (l : LaneId) (k : Option HostCmd) (s : State) : Host.Outcome State Fault Refusal :=
  onLane l (Lane.updGate k 0x33 (fun L => L.updAnswer k 0x33 stOk L.updStatusArgs)) s

/-- UPD_ABORT (R522). -/
def execUpdAbort (l : LaneId) (k : Option HostCmd) (s : State) : Host.Outcome State Fault Refusal :=
  onLane l (Lane.updGate k 0x34 (Lane.updAbort k)) s

/-- UPD_ACTIVATE (R523). -/
def execUpdActivate (l : LaneId) (k : HostCmd) (s : State) : Host.Outcome State Fault Refusal :=
  onLane l (Lane.updGate (some k) 0x35 (Lane.updActivate k)) s

/-- UPD_INFO (R517). -/
def execUpdInfo (l : LaneId) (k : Option HostCmd) (s : State) : Host.Outcome State Fault Refusal :=
  onLane l (Lane.updGate k 0x36 (fun L => L.updAnswer k 0x36 stOk L.updInfoArgs)) s

/-- UPD_PAUSE (R517). -/
def execUpdPause (l : LaneId) (k : HostCmd) (pause : Bool) (s : State) : Host.Outcome State Fault Refusal :=
  onLane l (Lane.updGate (some k) 0x37 (Lane.updPause k pause)) s

/-- FORWARDED_CHUNK_RX: a neighbour's chunk passes the same check; the first one of a package starts it with the values of
the neighbour's status frames (R519, R522). -/
def execForwardedChunkRx (l : LaneId) (sd : Side) (chunk : Nat) (data : List Byte) (s : State) :
    Host.Outcome State Fault Refusal :=
  onLane l (fun L => L.when L.firmware (fun L =>
    let L := L.linkHeard sd
    match vget L.nb sd.ix with
    | none => L
    | some f =>
      let L := L.when (decide (L.updState = 0) && decide (f.updChunks ≠ 0) && decide (f.updChunks ≤ maxChunks))
        (Lane.receiveStart f.updDigest f.updChunks)
      if L.updState = 1 ∧ f.updDigest = L.update.digest ∧ chunk < L.update.chunks ∧ ¬L.holds chunk then
        (L.set1 Reg.UP_STATE_FWD).chunkDone chunk data
      else L)) s

/-- UPDATE_APPLY_CHECKPOINT: the output of a part has reached `mib` MiB or its end (R520). -/
def execUpdateApplyCheckpoint (l : LaneId) (part mib : Nat) (s : State) : Host.Outcome State Fault Refusal :=
  onLane l (fun L => L.when (L.powered && decide (L.updState = 2) && !L.is Reg.UP_STATE_PAUSED) (Lane.applyPart part (mib * 2 ^ 20))) s

/-- UPDATE_APPLY_DONE: the parts are built and verified; `storeOk` says that the store die took them (R521, R522; log entry 43). -/
def execUpdateApplyDone (l : LaneId) (storeOk : Bool) (s : State) : Host.Outcome State Fault Refusal :=
  onLane l (fun L => L.when (L.powered && decide (L.updState = 2) && !L.is Reg.UP_STATE_PAUSED) (fun L =>
    let e := L.applyError storeOk
    if e ≠ 0 then L.drawn.updFail e
    else
      match L.update.staged with
      | some m => ((L.buildBank m).wr Reg.UP_STATE_STATE 3).journalWrite
      | none => L)) s

/-- PREPARED_TIMEOUT (R522). -/
def execPreparedTimeout (l : LaneId) (dt : Nat) (s : State) : Host.Outcome State Fault Refusal :=
  onLane l (fun L =>
    let L := L.pass dt
    L.when (decide (L.updState = 4) && L.due .prepared 100000000) Lane.prepareLapse) s

/-- UPDATE_RESTART: device time has reached t_r (R524). -/
def execUpdateRestart (l : LaneId) (s : State) : Host.Outcome State Fault Refusal :=
  onLane l (fun L => L.when (L.powered && decide (L.updState = 5) && L.update.restartAt.any (fun t => decide (t ≤ L.now)))
    Lane.updateRestart) s

/-- TRIAL_TIMEOUT (R525). -/
def execTrialTimeout (l : LaneId) (dt : Nat) (s : State) : Host.Outcome State Fault Refusal :=
  onLane l (fun L =>
    let L := L.pass dt
    L.when (L.firmware && decide (L.updState = 6) && L.due .trial 1000000000) Lane.revert) s

/-- RECOVERY_PACKAGE_BUILT: the bank just built is the active one, without TRIAL; the lane starts alone (R529). -/
def execRecoveryPackageBuilt (l : LaneId) (s : State) : Host.Outcome State Fault Refusal :=
  onLane l (fun L =>
    L.when (L.inRecovery && decide (L.updState = 2) && decide (L.lifecycle ≠ 3)) (fun L =>
      let e := L.applyError true
      if e ≠ 0 then L.drawn.updFail e
      else
        match L.update.staged with
        | some m =>
          let b := L.inactiveBank
          let L := (L.buildBank m).onUpd (fun u => { u with previous := u.active, active := b.val })
          L.updIdle.startLane false
        | none => L)) s

/-- RECOVERY_DESCRIPTOR: a type 0x05 message, which carries an update command in RECOVERY and is ignored and counted in any
other state (R444, R528). -/
def execRecoveryDescriptor (l : LaneId) (src : Nat) (d : Descr) (s : State) :
    Host.Outcome State Fault Refusal :=
  onLane l (fun L => L.when L.isoOn (fun L =>
    let L := L.tpDone src
    if !L.inRecovery then L.isoDiscard
    else
      match d.op with
      | 0x31 => L.updGate none 0x31 (Lane.updBegin none (field d.args 0 32) (field d.args 32 4) false)
      | 0x32 =>
        L.updDataGate none (Lane.updData (field d.args 0 4) (Fin.ofNat 128 (field d.args 4 1))
          (Vector.ofFn (fun (i : Fin 32) => d.args.getD (8 + i.val) 0)))
      | 0x33 => L.updGate none 0x33 (fun L => L.updAnswer none 0x33 stOk L.updStatusArgs)
      | 0x34 => L.updGate none 0x34 (Lane.updAbort none)
      | 0x36 => L.updGate none 0x36 (fun L => L.updAnswer none 0x36 stOk L.updInfoArgs)
      | _ => L)) s

/-- FLOOR_FUSES_BLOWN (R522, R532). -/
def execFloorFusesBlown (l : LaneId) (s : State) : Host.Outcome State Fault Refusal :=
  onLane l (fun L =>
    match L.update.floorPending with
    | some f => (L.wr Reg.UP_FLOOR_FLOOR f).onUpd (fun u => { u with floorPending := none })
    | none => L) s

end Sys2Proof.Machine
end

