-- ==== Sys2Proof/Machine/Cores.lean ====
section
/-! DEFINITION. What a mismatch, a self-test, a debugger and a cache error do to a pair of cores (R127, R135 to R148, R319):
rows CHECKPOINT_LAG_TIMEOUT to UNCORRECTABLE_CACHE_ERROR and WFI of the table. -/

namespace Sys2Proof.Machine

/-- The initial value of a signature (R136). -/
def sigInit : Nat := 0xFFFFFFFFFFFFFFFF
/-- One byte of the signature's CRC, most significant bit first (R136). -/
def crc64Go (b : Nat) : Nat → Nat → Nat
  | 0, c => c
  | n + 1, c =>
    let c' := c * 2 % 2 ^ 64
    crc64Go b n (if nbit c 63 != nbit b n then Nat.xor c' 0x42F0E1EBA9EA3693 else c')
/-- The signature takes in bytes in order (R136). -/
def sigOf (c : Nat) (bs : List Byte) : Nat := bs.foldl (fun c b => crc64Go b.toNat 8 c) c
/-- The 32 bytes of a reference record (R175). -/
def RefRecord.bytes (r : RefRecord) : List Byte :=
  leBytes 1 r.func.code ++ leBytes 1 r.lane.code ++ leBytes 2 0 ++ leBytes 4 r.seq ++ leBytes 8 r.trel ++ leBytes 4 r.value.toNat ++
    r.svMa.toList.flatMap (leBytes 2) ++ leBytes 4 0
/-- The bytes of an output write that a signature takes in (R136); a reference counts as one write of its 32 bytes at the base of the LL
block (log entry 69). -/
def OutWrite.bytes : OutWrite → List Byte
  | .bus w => leBytes 8 w.addr ++ leBytes 8 (w.data % 2 ^ (8 * w.size) * 2 ^ (8 * (w.addr % 8))) ++
      leBytes 1 ((2 ^ w.size - 1) * 2 ^ (w.addr % 8))
  | .ref r => leBytes 8 0x20180000 ++ RefRecord.bytes r ++ leBytes 1 0xFF
/-- The even core of a pair (R126). -/
def evenCore (p : Pair) : Core := if p = 0 then 0 else 2
/-- The odd core of a pair (R126). -/
def oddCore (p : Pair) : Core := if p = 0 then 1 else 3
/-- The core is the odd one of its pair (R126). -/
def isOdd (c : Core) : Bool := decide (c.val % 2 = 1)
/-- The other core of a pair. -/
def partner (c : Core) : Core := if isOdd c then evenCore (pairOf c) else oddCore (pairOf c)
/-- Offset in the address map and size of a pair's mirrored window, then the offset of its odd copy (R129). -/
def windowOf (p : Pair) : Nat × Nat × Nat :=
  if p = 0 then (0x10000000, 0x200000, 0x10400000) else (0x10200000, 0x100000, 0x10600000)
/-- RETRY_p and DISCARD_p of CM_STATUS (R149). -/
def retryFld (p : Pair) : Fld := if p = 0 then Reg.CM_STATUS_RETRY_0 else Reg.CM_STATUS_RETRY_1
/-- DISCARD_p of CM_STATUS (R149). -/
def discardFld (p : Pair) : Fld := if p = 0 then Reg.CM_STATUS_DISCARD_0 else Reg.CM_STATUS_DISCARD_1

namespace Lane

/-- A core's signature takes in bytes; the first bytes after a checkpoint begin a new signature (R136, R137). -/
def sigTake (c : Core) (bs : List Byte) (L : Lane) : Lane :=
  let from' := if (vget L.core c).marked then sigInit else L.rd (Reg.CM_SIG c.val)
  (L.wr (Reg.CM_SIG c.val) (sigOf from' bs)).onCore c (fun x => { x with marked := false })
/-- A match resets a core's signature, unless the core has gone on to the next interval (R137). -/
def sigReset (c : Core) (L : Lane) : Lane :=
  L.when ((vget L.core c).marked && decide ((vget L.core c).marks = [])) (fun L =>
    (L.wr (Reg.CM_SIG c.val) sigInit).onCore c (fun x => { x with marked := false }))
/-- A pair is split by a debugger (R149). -/
def debugged (L : Lane) (p : Pair) : Bool := L.bitOf Reg.CM_STATUS_DEBUG p.val
/-- The core self-test of a pair runs (R149). -/
def selfTesting (L : Lane) (p : Pair) : Bool := L.bitOf Reg.CM_STATUS_SELFTEST p.val
/-- A pair is halted after a fatal outcome (R149). -/
def haltedPair (L : Lane) (p : Pair) : Bool := L.bitOf Reg.CM_STATUS_HALTED p.val

/-- Loads of a pair that still wait no longer have a place among its replicated inputs. -/
def dropReserved (p : Pair) (L : Lane) : Lane :=
  let f (l : List Access) : List Access := l.map (fun x => { x with reserved := x.reserved && decide (x.core.map pairOf ≠ some p) })
  { L with power := { L.power with dom := L.power.dom.map (fun d => { d with stalled := f d.stalled }) },
           ret := { L.ret with stalled := f L.ret.stalled } }
/-- Every uncompared write of both output buffers and the whole replication buffer are discarded (R139 step 1). -/
def discard (p : Pair) (L : Lane) : Lane :=
  let clear (c : CoreSt) : CoreSt := { c with obuf := [], count := 0, marks := [], marked := false, poison := false, loads := 0 }
  let L := ((L.dropReserved p).onCore (evenCore p) clear).onCore (oddCore p) clear
  let L := (L.wr (Reg.CM_SIG (evenCore p).val) sigInit).wr (Reg.CM_SIG (oddCore p).val) sigInit
  L.onPair p (fun x => { x with repl := [], replBase := 0, takeAt := [] })
/-- A pair is not PAIRED from now on, so that the lane is barred (R145). -/
def unpair (p : Pair) (L : Lane) : Lane :=
  ((L.wrBit Reg.CM_STATUS_PAIRED p.val false).set1 Reg.CM_STATUS_BARRED).barAll
/-- Both cores of a pair stop (R139 step 2, R141). -/
def coresDo (p : Pair) (r : CoreRun) (L : Lane) : Lane :=
  (L.onCore (evenCore p) (fun c => { c with run := r })).onCore (oddCore p) (fun c => { c with run := r })

/-- A mismatch of a pair at a checkpoint: steps 1 and 2 of R139; the guard suspends its challenges for P_0 (R146, R319). -/
def mismatched (p : Pair) (kind num : Nat) (L : Lane) : Lane :=
  let L := (L.discard p).loadFields
    [(Reg.CM_MISMATCH_PAIR, p.val), (Reg.CM_MISMATCH_KIND, kind), (Reg.CM_MISMATCH_EVEN_FAIL, 0), (Reg.CM_MISMATCH_ODD_FAIL, 0),
     (Reg.CM_MISMATCH_OUTCOME, 0), (Reg.CM_MISMATCH_NEW, 1), (Reg.CM_MISMATCH_NUM, num)]
  let L := (L.count Reg.CM_MISMATCH_COUNT 1).onPair p (fun x => { x with num := num })
  let L := L.when (decide (p = 0)) (fun L =>
    L.each (Func.all.filter (fun f => decide (L.role f = 1) || decide (L.role f = 2))) withdraw)
  let L := L.fire (16 + p.val)
  let L := ((L.coresDo p .selfTest).wrBit Reg.CM_STATUS_SELFTEST p.val true).restart (.selfTest p)
  L.when (decide (p = 0)) suspend

/-- CM_ENTRY_p lies in SRAM and is not 0 (R143). -/
def entryOk (L : Lane) (p : Pair) : Bool :=
  let e := L.rd (Reg.CM_ENTRY p.val)
  decide (0x10000000 ≤ e) && decide (e < 0x10800000)
/-- A core starts at CM_ENTRY_p in machine mode with its integer and floating-point registers zero; it counts its checkpoints from its
pair's mismatch on (R143, log entry 44). -/
def startCore (p : Pair) (c : Core) (L : Lane) : Lane :=
  let e := L.rd (Reg.CM_ENTRY p.val)
  let n := (vget L.pair p).num
  L.onCore c (fun x => { Init.core with run := .running, pc := BitVec.ofNat 64 e, ckpt := n, taken := x.taken })
/-- The pair's mirrored window is cleared in both copies (R143). -/
def clearWindow (p : Pair) (L : Lane) : Lane :=
  let w := windowOf p
  let inside (a : Nat) : Bool :=
    (decide (w.1 ≤ a) && decide (a < w.1 + w.2.1)) || (decide (w.2.2 ≤ a) && decide (a < w.2.2 + w.2.1))
  { L with sram := L.sram.filter (fun e => !inside e.1) }
/-- A pair is halted after a fatal outcome (R141, R142). -/
def haltPair (p : Pair) (L : Lane) : Lane :=
  let L := (((L.unpair p).wrBit Reg.CM_STATUS_HALTED p.val true).coresDo p .stopped)
  if p = 0 then (L.fire 18).enterWinter else L.fire 19
/-- The end of the self-test takes the place of the answer when a core of P_0 is released within 3.5 ms, else the allowance is
a miss (R319). -/
def endSuspend (L : Lane) : Lane :=
  let late := L.due (.selfTest 0) 3500001
  let was := L.is Reg.LG_CHAL_SUSP
  let L := (L.clr Reg.LG_CHAL_SUSP).stop (.selfTest 0)
  L.when (was && late && L.challenges) missed
/-- A debugger splits a pair (R147): only one that is PAIRED. -/
def split (p : Pair) (L : Lane) : Lane :=
  if L.paired p then ((((L.discard p).unpair p).wrBit Reg.CM_STATUS_DEBUG p.val true)).fire (21 + p.val) else L
/-- What a program has left in a core is not in the block: the core's pc, mode and registers are free values, x0 apart (log entry 11). -/
def coreFree (c : Core) (L : Lane) : Lane :=
  let v (k : Nat) : BitVec 64 := BitVec.ofNat 64 (Config.free .busValue L.id (L.draws + k))
  let xs : Vector (BitVec 64) 32 := Vector.ofFn (fun (i : Fin 32) => if i.val = 0 then 0 else v (2 + i.val))
  let fs : Vector (BitVec 64) 32 := Vector.ofFn (fun (i : Fin 32) => v (34 + i.val))
  let L := L.onCore c (fun y => { y with pc := v 0, mode := (v 1).toNat % 4, x := xs, f := fs })
  { L with draws := L.draws + 66 }
/-- The cores that a debugger has asked to halt are in debug mode (R148). -/
def haltAsked (p : Pair) (L : Lane) : Lane :=
  L.each [evenCore p, oddCore p] (fun c L =>
    L.when (vget L.dbg.haltreq c && (decide ((vget L.core c).run = .running) || decide ((vget L.core c).run = .wfi)))
      (fun L => (L.coreFree c).onCore c (fun x => { x with run := .debugHalted })))
/-- A debug request that waited for the end of the self-test is carried out (R148). -/
def debugPending (p : Pair) (L : Lane) : Lane :=
  if (vget L.pair p).debugWaits then ((L.onPair p (fun x => { x with debugWaits := false })).split p).haltAsked p else L

/-- The pair afterwards, by R141: 1 single, 2 transient, 3 fatal. -/
def outcomeOf (L : Lane) (p : Pair) (even odd : Bool) : Nat :=
  match even, odd with
  | true, true => if L.rd (retryFld p) < L.rd Reg.CM_CTRL_RETRY_MAX then 2 else 3
  | false, false => 3
  | _, _ => 1
/-- A single core of a pair goes on (R141, R144). -/
def single (p : Pair) (odd : Bool) (L : Lane) : Lane :=
  ((L.unpair p).wrBit Reg.CM_STATUS_SINGLE p.val true).wrBit Reg.CM_STATUS_SURVIVOR p.val odd
/-- The released core or cores run from CM_ENTRY_p, or the pair halts (R143). -/
def release (p : Pair) (cs : List Core) (L : Lane) : Lane :=
  if L.entryOk p then (L.clearWindow p).each cs (startCore p)
  else (((L.wrBit Reg.CM_STATUS_SINGLE p.val false).wrBit Reg.CM_STATUS_SURVIVOR p.val false).haltPair p)
/-- The self-test of a pair has ended and its outcome applies; CM_MISMATCH shows it unless it holds a later mismatch of the other pair
(R139 step 4, R141 to R148, R152). -/
def outcome (p : Pair) (even odd : Bool) (L : Lane) : Lane :=
  let o := L.outcomeOf p even odd
  let L := (L.wrBit Reg.CM_STATUS_SELFTEST p.val false).when (decide (L.rd Reg.CM_MISMATCH_PAIR = p.val)) (fun L => L.loadFields
    [(Reg.CM_MISMATCH_EVEN_FAIL, b2n (!even)), (Reg.CM_MISMATCH_ODD_FAIL, b2n (!odd)), (Reg.CM_MISMATCH_OUTCOME, o)])
  let L :=
    if o = 3 then L.haltPair p
    else if o = 2 then (L.count (retryFld p) 1).release p [evenCore p, oddCore p]
    else
      let s := if even then evenCore p else oddCore p
      let L := (L.single p (!even)).onCore (partner s) (fun c => { c with run := .stopped })
      L.release p [s]
  let L := if p = 0 then L.endSuspend else L.stop (.selfTest 1)
  L.debugPending p

/-- A slice of P_1 has found a failing core: the pair goes on as R141 says of a single one, or is halted (R545). -/
def sliceOutcome (even odd : Bool) (L : Lane) : Lane :=
  if !even && !odd then L.haltPair 1
  else
    let s : Core := if even then 2 else 3
    ((L.discard 1).single 1 (!even)).onCore (partner s) (fun c => { c with run := .stopped }) |>.onCore s
      (fun c => { c with run := .running })

/-- An interrupt for a core: a waiting core runs again once its domain is on; for a pair that is PAIRED it is latched until the next
checkpoint, any other core takes it at once (R135, R144, R465). -/
def interrupt (c : Core) (L : Lane) : Lane :=
  let on := decide (pairOf c = 0) || decide (L.rd (pdFld 1) = 0)
  let L := L.onCore c (fun x => { x with run := if x.run = .wfi && on then .running else x.run })
  if L.paired (pairOf c) then L.onPair (pairOf c) (fun x => { x with irq := true })
  else L.onCore c (fun x => { x with taken := x.taken + 1 })
/-- A core of a pair that is PAIRED has marked a checkpoint: the leading core takes a latched interrupt after it, the trailing one after
the checkpoint of the same number (R135). -/
def takeIrq (c : Core) (leads : Bool) (num : Nat) (L : Lane) : Lane :=
  let y := vget L.pair (pairOf c)
  let take (L : Lane) : Lane := L.onCore c (fun x => { x with taken := x.taken + 1 })
  if leads then
    L.when y.irq (fun L => (take L).onPair (pairOf c) (fun y => { y with irq := false, takeAt := y.takeAt ++ [num] }))
  else
    L.when (y.takeAt.contains num) (fun L =>
      (take L).onPair (pairOf c) (fun y => { y with takeAt := y.takeAt.filter (fun k => decide (k ≠ num)) }))

/-- A core executes WFI: one that runs waits from now on; the network core is none of the four (R126, R458). -/
def waits (c : Option Core) (L : Lane) : Lane :=
  match c with
  | some c => L.onCore c (fun x => { x with run := if x.run = .running then .wfi else x.run })
  | none => { L with power := { L.power with netWfi := true } }

end Lane

/-! ### The commands -/

/-- CHECKPOINT_LAG_TIMEOUT: one core has marked a checkpoint and the other has not within LAG (R138); a match has been taken
at once, so that it comes first. -/
def execCheckpointLagTimeout (l : LaneId) (dt : Nat) (p : Pair) (s : State) : Host.Outcome State Fault Refusal :=
  onLane l (fun L =>
    let L := L.pass dt
    if !L.firmware || !L.paired p then L
    else
      match (vget L.core (evenCore p)).marks, (vget L.core (oddCore p)).marks with
      | m :: _, [] => L.when (decide (m.time + L.rd Reg.CM_CTRL_LAG * 1000 ≤ L.el)) (Lane.mismatched p 3 m.num)
      | [], m :: _ => L.when (decide (m.time + L.rd Reg.CM_CTRL_LAG * 1000 ≤ L.el)) (Lane.mismatched p 3 m.num)
      | _, _ => L) s

/-- CORE_SELF_TEST_DONE: the outcome of R141 applies and the cores are released (R139 to R148). -/
def execCoreSelfTestDone (l : LaneId) (dt : Nat) (p : Pair) (even odd : Bool) (s : State) : Host.Outcome State Fault Refusal :=
  onLane l (fun L =>
    let L := L.pass dt
    L.when (L.firmware && L.selfTesting p) (Lane.outcome p even odd)) s

/-- UNCORRECTABLE_CACHE_ERROR: the source of the core is set and its signature is poisoned (R127, R138). -/
def execUncorrectableCacheError (l : LaneId) (c : Core) (s : State) : Host.Outcome State Fault Refusal :=
  onLane l (fun L => L.when L.firmware (fun L =>
    (L.fire (5 + c.val)).poison c)) s

/-- WFI: a core of P_1 or the network core waits (R458); the cores of P_1 execute none while a slice of target 2 runs
(R546). -/
def execWfi (l : LaneId) (c : Option Core) (s : State) : Host.Outcome State Fault Refusal :=
  onLane l (fun L => L.when L.firmware (Lane.waits c)) s

end Sys2Proof.Machine
end

