-- ==== Sys2Proof/Machine/SelfTest.lean ====
section
/-! DEFINITION. Repair fuses, in-service test slices and ageing: rows BT_FUSE_GO to AGEING_RUN_DONE and ANALOG_RERUN_DONE of
the table (R539 to R561). -/

namespace Sys2Proof.Machine

/-! ### Wear (R549 to R552) -/

/-- The greatest n below 2^k · 2 for which a test holds, the test holding below every n for which it holds. -/
def greatest (ok : Nat → Bool) : Nat → Nat → Nat
  | 0, n => n
  | k + 1, n => greatest ok k (if ok (n + 2 ^ k) then n + 2 ^ k else n)
/-- The damage 0.5 × (ΔT / 80 K)^(CM_EXP / 100) / CM_N0 of a half cycle in units of 2^-64, cut to a whole number (R550, log entry
45). -/
def halfCycle (swing : Dy) (cmExp n0 : Nat) : Nat :=
  let num := 2 ^ 6300 * swing.m.natAbs ^ cmExp * 2 ^ (swing.e.toNat * cmExp)
  let den := 80 ^ cmExp * 2 ^ ((-swing.e).toNat * cmExp)
  greatest (fun n => decide ((n * n0) ^ 100 * den ≤ num)) 72 0
/-- The difference of two temperatures is at least 5 K (R550). -/
def fiveK (hi lo : Dy) : Bool := dyLe (some ⟨5, 0⟩) (some (dySub hi lo))
/-- The higher of two FP32 words. -/
def hotter (a b : Word) : Word := if dyLe (dyOf a) (dyOf b) then b else a
/-- The lower of two FP32 words. -/
def colder (a b : Word) : Word := if dyLe (dyOf a) (dyOf b) then a else b

/-- The turning-point search of a port: highest and lowest temperature, last confirmed turning point, direction (R550, R603). -/
structure Search where
  hi : Word
  lo : Word
  turn : Word
  dir : Nat
  deriving DecidableEq, Repr
/-- One temperature of the search: the search afterwards, and the swing of a half cycle that it completes (R550). -/
def searchStep (fresh : Bool) (t : Word) (s : Search) : Search × Option Dy :=
  if fresh then (⟨t, t, s.turn, 0⟩, none)
  else
    let hi := hotter s.hi t
    let lo := colder s.lo t
    match dyOf t, dyOf hi, dyOf lo, dyOf s.turn with
    | some x, some h, some l, some c =>
      if s.dir ≠ 2 ∧ fiveK h x then (⟨t, t, hi, 2⟩, if s.dir = 1 then some (dyAbs (dySub h c)) else none)
      else if s.dir ≠ 1 ∧ fiveK x l then (⟨t, t, lo, 1⟩, if s.dir = 2 then some (dyAbs (dySub c l)) else none)
      else (⟨hi, lo, s.turn, s.dir⟩, none)
    | _, _, _, _ => (s, none)

/-- One ageing record (R548). -/
structure AgRecord where
  en : Nat
  tg : Int
  loss : Vector Word 3
  tn : Vector Int 3
  dt : Nat
  deriving DecidableEq, Repr
/-- The record that 32 bytes spell (R548). -/
def agRecord (bs : List Byte) : AgRecord :=
  let num (a n : Nat) : Nat := ofLe ((bs.drop a).take n)
  { en := num 0 1 % 8, tg := sgn 16 (num 2 2), loss := Vector.ofFn (fun (p : Fin 3) => BitVec.ofNat 32 (num (4 + 4 * p.val) 4)),
    tn := Vector.ofFn (fun (p : Fin 3) => sgn 16 (num (16 + 2 * p.val) 2)), dt := num 22 2 }

/-- An indicator rises by an amount, and so does the current window (R549, R552). -/
def Ageing.grow (k : Fin 9) (n : Nat) (a : Ageing) : Ageing :=
  { a with w := vupd a.w k (· + n), current := vupd a.current k (· + n) }
/-- Operating time: hours, and a window that completes every 10 h (R552). -/
def Ageing.runTime (dt : Nat) (a : Ageing) : Ageing :=
  let a := { a with hours := a.hours + dt, winMs := a.winMs + dt }
  if a.winMs < 36000000 then a
  else
    { a with
      winMs := a.winMs - 36000000
      windows := Vector.ofFn (fun (k : Fin 9) => (vget a.current k :: vget a.windows k).take 16)
      current := Vector.replicate 9 0 }
/-- A prediction in hours for a rate of `rate` in `n` windows of 10 h (R552). -/
def agHours (w n rate : Nat) : Nat :=
  if 2 ^ 64 ≤ w then 0
  else if rate = 0 ∨ n = 0 then 0xFFFFFFFF
  else min 0xFFFFFFFE ((2 ^ 64 - w) * 10 * n / rate)
/-- The predictions MID, LOW and HIGH of an indicator (R552). -/
def Ageing.predict (a : Ageing) (k : Fin 9) : Nat × Nat × Nat :=
  let ws := vget a.windows k
  let w := vget a.w k
  let big := ws.foldl max 0
  let small := ws.foldl min big
  let one := if ws = [] then 0 else 1
  (agHours w ws.length (ws.foldl (· + ·) 0), agHours w one big, agHours w one small)

namespace Lane

/-- The junction temperature of a port for a record, with ΔT_jc before it (R550): the spec states no rounding (log entry 6). -/
def junction (L : Lane) (r : AgRecord) (p : Port) : Word × Word :=
  let s := vget L.img.switches p
  let loss := (vget r.loss p).toInt
  let d : Int := if L.test.firstRecord then Config.freeOf .junction [1, loss, s.rthJc]
    else Config.freeOf .junction [0, (vget L.test.ageing.tjc p).toInt, loss, s.rthJc, r.dt, s.tauMs]
  let dTjc := BitVec.ofInt 32 d
  (dTjc, BitVec.ofInt 32 (Config.freeOf .junction [2, vget r.tn p, loss, s.rthCa, dTjc.toInt]))
/-- The junction model of one port takes a record (R549, R550). -/
def agPort (r : AgRecord) (p : Port) (L : Lane) : Lane :=
  let j := L.junction r p
  let a := L.test.ageing
  let x := vget L.test.extremes p
  let s := searchStep L.test.firstRecord j.2 ⟨x.1, x.2, vget a.turn p, vget a.dir p⟩
  let sw := vget L.img.switches p
  let damage := match s.2 with
    | some d => halfCycle d sw.cmExp sw.cmN0
    | none => 0
  let a := { a with tjc := vupd a.tjc p (fun _ => j.1), turn := vupd a.turn p (fun _ => s.1.turn), dir := vupd a.dir p (fun _ => s.1.dir) }
  (L.wr (Reg.AG_TJ p.val) j.2.toNat).onTest (fun t =>
    { t with ageing := a.grow (Fin.castLE (by decide) p) damage, extremes := vupd t.extremes p (fun _ => (s.1.hi, s.1.lo)) })
/-- The gate stages of one port take a record (R549): the spec states no rounding (log entry 6). -/
def agGate (r : AgRecord) (p : Port) (L : Lane) : Lane :=
  let n := (Config.freeOf .gateDamage [r.dt, r.tg, L.img.gdHours]).toNat
  L.when (nbit r.en p.val) (onTest (fun t => { t with ageing := t.ageing.grow (Fin.ofNat 9 (3 + p.val)) n }))
/-- One record is processed, or skipped and counted (R548 to R550, R552). -/
def agTake (bs : List Byte) (L : Lane) : Lane :=
  let r := agRecord bs
  if r.dt = 0 ∨ 1000 < r.dt then L.count Reg.AG_RUN_BAD 1
  else
    let L := (L.each (List.finRange 3) (agPort r)).each (List.finRange 3) (agGate r)
    L.onTest (fun t => { t with ageing := t.ageing.runTime r.dt, firstRecord := false })
/-- The records from HEAD up to the tail of the run (R548). -/
def agRecords (L : Lane) : List Nat :=
  let n := L.rd Reg.AG_RING_LEN
  if n = 0 then []
  else
    let h := L.rd Reg.AG_RING_HEAD % n
    (List.range ((L.test.agTail % n + n - h) % n)).map (fun i => (h + i) % n)
/-- The store die, KM and KP at the end of a run (R549). -/
def agCounts (L : Lane) : Lane :=
  let store := L.test.lines.foldl (fun m e => max m e.2) 0 * 2 ^ 64 / 10 ^ 9
  let km := (L.rd Reg.LG_KOPS_KM - L.test.kmOps) * 2 ^ 64 / max 1 L.img.kmOps
  let kp := (L.rd Reg.LG_KOPS_KP - L.test.kpOps) * 2 ^ 64 / max 1 L.img.kpOps
  L.onTest (fun t =>
    { t with
      ageing := ((t.ageing.grow 6 (store - vget t.ageing.w 6)).grow 7 km).grow 8 kp
      kmOps := L.rd Reg.LG_KOPS_KM, kpOps := L.rd Reg.LG_KOPS_KP })
/-- The predictions are written (R552, R561). -/
def agPredict (L : Lane) : Lane :=
  L.each (List.finRange 9) (fun k L =>
    let p := L.test.ageing.predict k
    ((L.wr (Reg.AG_PRED k.val 0) p.1).wr (Reg.AG_PRED k.val 1) p.2.1).wr (Reg.AG_PRED k.val 2) p.2.2)
/-- An ageing run ends (R548 to R552). -/
def agRun (L : Lane) : Lane :=
  let before := L.test.ageing.w
  let rs := L.agRecords
  let L := L.each rs (fun i L => L.agTake (L.sramBytes (L.rd Reg.AG_RING_BASE + 32 * i) 32))
  let L := L.when (decide (rs ≠ [])) (wr Reg.AG_RING_HEAD (L.test.agTail % max 1 (L.rd Reg.AG_RING_LEN)))
  let L := L.agCounts.agPredict
  let L := (L.clr Reg.AG_RUN_BUSY).set1 Reg.AG_RUN_DONE
  L.when ((List.finRange 9).any (fun k => decide (vget before k < 2 ^ 64) && decide (2 ^ 64 ≤ vget L.test.ageing.w k))) (fire 452)
/-- A write of 1 to AG_RUN.GO (R548, R559). -/
def agGo (L : Lane) : Lane :=
  L.when (!L.is Reg.AG_RUN_BUSY) (fun L =>
    (L.set1 Reg.AG_RUN_BUSY).onTest (fun t => { t with agTail := L.rd Reg.AG_RING_TAIL }))

/-! ### Fuses (R541, R556, R598) -/

/-- A GO write is accepted (R541); none while programming is in progress (log entry 46). A row that holds a soft repair keeps its spare
row. -/
def fuseOk (L : Lane) (array row : Nat) : Bool :=
  (decide (L.svc = 2) || decide (L.svc = 8)) && decide (L.lifecycle ≠ 3) && decide (L.test.fuses.length < 64) &&
    (L.test.spareFree array row || L.test.soft.contains (array, row)) && !L.test.fused array row && !L.is Reg.BT_FUSE_BUSY
/-- A write of BT_FUSE (R541, R556). -/
def fuseWrite (v : Nat) (L : Lane) : Lane :=
  let row := nbits v 0 16
  let array := nbits v 16 2
  let L := ((L.wr Reg.BT_FUSE_ROW row).wr Reg.BT_FUSE_ARRAY array).when (nbit v 30) (clr Reg.BT_FUSE_REFUSED)
  if !nbit v 28 then L
  else if L.fuseOk array row then
    let L := (L.set1 Reg.BT_FUSE_BUSY).onTest (fun t =>
      { t with fuses := t.fuses ++ [⟨array, row, false⟩], fusing := some (array, row) })
    L.wr Reg.BT_REP_FUSED L.test.fuses.length
  else L.set1 Reg.BT_FUSE_REFUSED
/-- Programming ends with the valid bit (R541, R598). -/
def fuseDone (L : Lane) : Lane :=
  match L.test.fusing with
  | some (a, r) =>
    ((L.clr Reg.BT_FUSE_BUSY).onTest (fun t =>
      { t with fusing := none, fuses := t.fuses.dropLast ++ [⟨a, r, true⟩] })).irq .bt
  | none => L

/-! ### Slices (R542 to R547) -/

/-- A domain is on. -/
def domOn (L : Lane) (d : Fin 8) : Bool := decide (L.rd (pdFld d) = 0)
/-- DE_n serves no function and is halted and unsealed, so that a slice may test it (R542, R543, R547). -/
def sliceFree (L : Lane) (p : Port) : Bool :=
  (L.funcOfPort p).isNone && !L.is (Reg.DE_CTRL_RUN p.val) && !L.is (Reg.DE_CTRL_SEAL p.val)
/-- The engine that a slice of target 3 tests: the next one in turn that may be tested. -/
def sliceEngine (L : Lane) : Option Port :=
  let u := vget L.test.units 3
  [u, u + 1, u + 2].map (Fin.ofNat 3) |>.find? L.sliceFree
/-- The conditions of a target (R543). -/
def sliceReady (L : Lane) (t : Nat) : Bool :=
  L.domOn 7 && nbit (L.rd Reg.BT_SLICE_CTRL_TARGETS) t && (decide (L.svc = 2) || decide (L.svc = 4) || decide (L.svc = 5)) &&
    decide (10 ≤ L.eqxLeft) && (decide (2 < t) || Func.all.all (fun f => decide (L.role f ≠ 1))) &&
    (decide (t ≠ 2) || (L.paired 1 && L.domOn 1)) && (decide (t ≠ 3) || L.sliceEngine.isSome)
/-- A slice of a target starts (R542). -/
def sliceStart (t : Nat) (L : Lane) : Lane :=
  let L := ((L.set1 Reg.BT_SLICE_STAT_RUNNING).wr Reg.BT_SLICE_STAT_CURRENT t).onTest (fun x => { x with nextTarget := (t + 1) % 6 })
  let L := L.when (decide (t = 2)) (coresDo 1 .selfTest)
  match L.sliceEngine with
  | some p => L.when (decide (t = 3)) (onTest (fun x => { x with units := vupd x.units 3 (fun _ => p.val) }))
  | none => L
/-- The scheduler starts a slice of the next target whose conditions hold (R543). -/
def sliceTick (L : Lane) : Lane :=
  let n := L.test.nextTarget
  match ((List.range 6).map (fun i => (n + i) % 6)).find? L.sliceReady with
  | some t => L.sliceStart t
  | none => L
/-- How many units a target has (R542); the engines number 3 (log entry 46). -/
def sliceUnits (t : Nat) : Nat := match t with | 0 => 2048 | 1 => 16 | 3 => 3 | _ => 1
/-- A target's unit has had its turn: the next unit, and a round when every enabled target has been passed over (R542, R557). -/
def sliceTurn (t : Nat) (L : Lane) : Lane :=
  let u := vget L.test.units (Fin.ofNat 6 t)
  let last := if t = 3 then (List.finRange 3).all (fun p => decide (p.val ≤ u) || !L.sliceFree p) else decide (sliceUnits t ≤ u + 1)
  let L := L.onTest (fun x =>
    { x with units := vupd x.units (Fin.ofNat 6 t) (fun u => (u + 1) % sliceUnits t),
             wrapped := if last && !x.wrapped.contains t then x.wrapped ++ [t] else x.wrapped })
  if (List.range 6).all (fun k => !nbit (L.rd Reg.BT_SLICE_CTRL_TARGETS) k || L.test.wrapped.contains k) then
    (L.count Reg.BT_SLICE_STAT_ROUNDS 1).onTest (fun x => { x with wrapped := [] })
  else L
/-- What a failure leaves (R545). -/
def sliceFailed (t addr unit : Nat) (even odd : Bool) (L : Lane) : Lane :=
  let L := (L.wrBit Reg.BT_SLICE_STAT_FAILED t true).fire 451
  match t with
  | 0 => L.wr Reg.BT_SLICE_ADDR_ROW addr
  | 1 => L.onTest (fun x => { x with excludedWays := x.excludedWays ++ [unit] })
  | 2 => L.sliceOutcome even odd
  | 3 => L.onTest (fun x => { x with deadEngines := vupd x.deadEngines (Fin.ofNat 3 unit) (fun _ => true) })
  | _ => L
/-- A slice completes (R542, R545). -/
def sliceEnd (pass : Bool) (addr : Nat) (even odd : Bool) (L : Lane) : Lane :=
  let t := L.rd Reg.BT_SLICE_STAT_CURRENT
  let unit := vget L.test.units (Fin.ofNat 6 t)
  let ok := if t = 2 then even && odd else pass
  let L := L.clr Reg.BT_SLICE_STAT_RUNNING
  let L := L.when (decide (t = 2)) (coresDo 1 .running)
  let L := L.when (decide (t = 3)) (onDe (Fin.ofNat 4 (unit % 3)) (fun e => { e with im := [], dm := [] }))
  ((L.sliceTurn t).when (!ok) (sliceFailed t addr unit even odd)).irq .bt
/-- A write of BT_SLICE_CTRL (R543, R544, R557, R602): EN starts the interval; EN written 0 aborts a running slice. -/
def sliceCtrl (v : Nat) (L : Lane) : Lane :=
  let was := L.is Reg.BT_SLICE_CTRL_EN
  let i := nbits v 16 16
  let L := L.loadFields [(Reg.BT_SLICE_CTRL_EN, nbits v 0 1), (Reg.BT_SLICE_CTRL_TARGETS, nbits v 8 6)]
  let L := L.when (decide (10 ≤ i) && decide (i ≤ 60000)) (wr Reg.BT_SLICE_CTRL_INTERVAL i)
  if nbit v 0 then L.when (!was) (restart .slice) else L.sliceAbort.stop .slice
/-- A write of BT_TEST with GO (R547): in TEST only, with AUX on and target 3's halted, unsealed engine. -/
def testSlice (t : Nat) (L : Lane) : Lane :=
  L.when (decide (L.svc = 8) && decide (t < 6) && L.domOn 7 && !L.is Reg.BT_SLICE_STAT_RUNNING &&
    (decide (t ≠ 3) || L.sliceEngine.isSome)) (sliceStart t)
/-- A write of BT_TEST.ANALOG (R547). -/
def testAnalog (L : Lane) : Lane := L.when (decide (L.svc = 8)) (onTest (fun t => { t with analog := true }))
/-- The rerun of step 4 ends: its results stand where the Solstice test's stood (R298, R537, R547, log entry 46). -/
def analogDone (r : AnalogReadings) (res0 res1 : Word) (L : Lane) : Lane :=
  ((L.onTest (fun t => { t with analog := false })).analogTest r res0 res1).irq .bt

end Lane

/-! ### The commands -/

/-- BT_FUSE_DONE: fuse programming completes (R541, R598). -/
def execBtFuseDone (l : LaneId) (s : State) : Host.Outcome State Fault Refusal := onLane l Lane.fuseDone s

/-- SLICE_SCHEDULER_TICK: every INTERVAL ms while EN is 1 (R543). -/
def execSliceSchedulerTick (l : LaneId) (dt : Nat) (s : State) : Host.Outcome State Fault Refusal :=
  onLane l (fun L =>
    let L := L.pass dt
    L.when (L.firmware && L.is Reg.BT_SLICE_CTRL_EN && !L.is Reg.BT_SLICE_STAT_RUNNING &&
      L.due .slice (L.rd Reg.BT_SLICE_CTRL_INTERVAL * 1000000)) (fun L => (L.restart .slice).sliceTick)) s

/-- SLICE_DONE: a slice completes (R542, R545). -/
def execSliceDone (l : LaneId) (pass : Bool) (addr : BitVec 16) (even odd : Bool) (s : State) : Host.Outcome State Fault Refusal :=
  onLane l (fun L => L.when (L.is Reg.BT_SLICE_STAT_RUNNING) (Lane.sliceEnd pass addr.toNat even odd)) s

/-- ANALOG_RERUN_DONE: the rerun completes (R547). -/
def execAnalogRerunDone (l : LaneId) (r : AnalogReadings) (res0 res1 : Word) (s : State) : Host.Outcome State Fault Refusal :=
  onLane l (fun L => L.when L.test.analog (Lane.analogDone r res0 res1)) s

/-- AGEING_RUN_DONE: a run ends (R549 to R552). -/
def execAgeingRunDone (l : LaneId) (s : State) : Host.Outcome State Fault Refusal :=
  onLane l (fun L => L.when (L.is Reg.AG_RUN_BUSY) Lane.agRun) s

end Sys2Proof.Machine
end

