-- ==== Sys2Proof/Machine/Status.lean ====
section
/-! DEFINITION. The election, the status frames and the outer-loop release: rows SYS_FEAT_LOCK, STATUS_FRAME_SEND,
STATUS_FRAME_RX, ELECTION_GATHER_TIMEOUT, STATUS_FRAME_TIMEOUT and OUTER_LOOP_RELEASE of the table (R43 to R51, R88, R89, R98,
R105 to R115, R181, R389, R439, R440, R596, R597). -/

namespace Sys2Proof.Machine

/-! ### Proposals (R48, R69) -/

/-- The role order of the image at rotation index 0 (R69). -/
def roleOrderOf : Nat → List LaneId
  | 0 => [.a, .b, .c] | 1 => [.a, .c, .b] | 2 => [.b, .a, .c] | 3 => [.b, .c, .a] | 4 => [.c, .a, .b] | _ => [.c, .b, .a]
/-- The roles that a rotated order gives the participants, as lane codes (active, standby, arbiter), 3 where no lane has the
role: a barred lane is skipped for active (R48). -/
def rolesOf (order members : List LaneId) (barred : LaneId → Bool) : Nat × Nat × Nat :=
  let ms := order.filter (fun l => members.contains l)
  match ms.find? (fun l => !barred l) with
  | none => (3, 3, 3)
  | some x =>
    let rest := (ms.filter (fun l => decide (l ≠ x))).map LaneId.code
    (x.code, rest.getD 0 3, rest.getD 1 3)
/-- A proposal as a status frame carries it. -/
def packRoles (r : Nat × Nat × Nat) : Nat := r.1 + 4 * r.2.1 + 16 * r.2.2
/-- The roles that a proposal names. -/
def unpackRoles (n : Nat) : Nat × Nat × Nat := (nbits n 0 2, nbits n 2 2, nbits n 4 2)

namespace Lane

/-- The lane takes part in an election: READY, its set locked and not differing, its digest not in the minority (R34, R44, R47). -/
def electable (L : Lane) : Bool :=
  decide (L.svc = 2) && L.is Reg.SYS_FEAT_CTRL_LOCK && !L.is Reg.SYS_STATE_ELECTED && !L.digestMinority && !L.setsDiffer
/-- A neighbour takes part with this lane (R47). -/
def sameSet (L : Lane) (f : StatusFrame) : Bool :=
  f.featLocked && decide (f.featSet = L.featSet) && decide (f.digest = L.start.image.digest)
/-- The neighbours that take part in an election with this lane (R47). -/
def partners (L : Lane) : List (Side × StatusFrame) :=
  L.peers.filter (fun p => decide (p.2.state = 2) && !p.2.elected && L.sameSet p.2)
/-- The participants as this lane sees them (R47). -/
def members (L : Lane) : List LaneId :=
  [LaneId.a, .b, .c].filter (fun l => decide (l = L.id) || L.partners.any (fun p => decide (L.id.nb p.1 = l)))
/-- The history records of the participants for a function in lane order (R48). -/
def records (L : Lane) (f : Func) : List History :=
  L.members.map (fun l =>
    match L.partners.find? (fun p => decide (L.id.nb p.1 = l)) with
    | some p => ⟨(rep p.2 f).rotIndex, (rep p.2 f).histSeq⟩
    | none => vget L.ret.history f.ix)
/-- The chosen record: the highest history sequence number, of the lowest-lettered lane that holds it (R48). -/
def chosenRecord (L : Lane) (f : Func) : History :=
  (L.records f).tail.foldl (fun h r => if newer32 r.seq h.seq then r else h) ((L.records f).headD (vget L.ret.history f.ix))
/-- A participant is barred from the active role of a function (R48, R145, R499). -/
def barredFrom (L : Lane) (f : Func) (l : LaneId) : Bool :=
  if l = L.id then L.is (Reg.ROLE_FUNC_BARRED f.code) || L.is Reg.CM_STATUS_BARRED
  else L.peers.any (fun p => decide (L.id.nb p.1 = l) && p.2.barred)
/-- The lane's proposal for a function (R48). -/
def proposal (L : Lane) (f : Func) : Nat × Nat × Nat :=
  let o := roleOrderOf (L.frec f).roleOrder
  let k := (L.chosenRecord f).index % 3
  if L.present f then rolesOf (o.drop k ++ o.take k) L.members (L.barredFrom f) else (3, 3, 3)
/-- What a status frame says of the roles of a function: the proposal before the election has completed, the roles after it. -/
def shownRoles (L : Lane) (f : Func) : Nat × Nat × Nat :=
  if L.is Reg.SYS_STATE_ELECTED then
    (L.rd (Reg.ROLE_FUNC_ACT f.code), L.rd (Reg.ROLE_FUNC_STB f.code), L.rd (Reg.ROLE_FUNC_ARB f.code))
  else if L.electable then L.proposal f
  else (3, 3, 3)

/-! ### The election (R47 to R49) -/

/-- The roles and the history of a function are taken (R48). -/
def takeRoles (f : Func) (r : Nat × Nat × Nat) (h : History) (L : Lane) : Lane :=
  let L := ((L.wr (Reg.ROLE_FUNC_ACT f.code) r.1).wr (Reg.ROLE_FUNC_STB f.code) r.2.1).wr (Reg.ROLE_FUNC_ARB f.code) r.2.2
  (L.wr (Reg.ROLE_FUNC_ROT f.code) h.index).onRet (fun x => { x with history := vupd x.history f.ix (fun _ => h) })
/-- The election completes for this lane. -/
def electionEnds (L : Lane) : Lane :=
  ((L.set1 Reg.SYS_STATE_ELECTED).onStart (fun s => { s with electionDone := true })).stop .gather
/-- The election with the lanes that take part now (R47 to R49): alone CAUSE 9, no lane eligible for active CAUSE 12. -/
def elect (L : Lane) : Lane :=
  let ps := Func.all.filter L.present
  let failed (c : Nat) : Lane := ((L.wr Reg.SYS_STATE_CAUSE c).onStart (fun s => { s with electionDone := true })).stop .gather
  if L.members.length ≤ 1 then failed 9
  else if ps.any (fun f => decide ((L.proposal f).1 = 3)) then failed 12
  else
    let two := decide (L.members.length = 2)
    ((L.each ps (fun f => (fun (M : Lane) => (M.takeRoles f (L.proposal f) (L.chosenRecord f)).setOwnRole f))).onStart
      (fun s => { s with twoLane := two })).electionEnds
/-- All three lanes take part and every participant holds the same proposals (R47). -/
def unanimous (L : Lane) : Bool :=
  decide (L.partners.length = 2) &&
    L.partners.all (fun p => Func.all.all (fun f => decide ((rep p.2 f).proposal = packRoles (L.proposal f))))
/-- The gather time of a participant has expired (R47). -/
def gathered (L : Lane) : Bool :=
  L.due .gather (L.img.start.gatherMs * 1000000) ||
    L.partners.any (fun p => L.due (.status p.1) p.2.gatherLeft && !p.2.elected && !p.2.electFailed)
/-- The election ends as soon as its condition holds (R47). -/
def tryElect (L : Lane) : Lane :=
  if L.electable && !L.start.electionDone && L.unanimous then L.elect else L
/-- A neighbour's election has included this lane: it ends here as well, between two lanes where it names no arbiter (R47, R49). -/
def adoptElection (f : StatusFrame) (L : Lane) : Lane :=
  let ps := Func.all.filter L.present
  let two := ps.all (fun g => decide ((unpackRoles (rep f g).proposal).2.2 = 3))
  ((L.each ps (fun g => (fun (M : Lane) =>
    (M.takeRoles g (unpackRoles (rep f g).proposal) ⟨(rep f g).rotIndex, (rep f g).histSeq⟩).setOwnRole g))).onStart
      (fun s => { s with twoLane := two })).electionEnds
/-- A frame of an elected neighbour names this lane in some function. -/
def named (L : Lane) (f : StatusFrame) : Bool :=
  Func.all.any (fun g =>
    let r := unpackRoles (rep f g).proposal
    decide (r.1 = L.id.code) || decide (r.2.1 = L.id.code) || decide (r.2.2 = L.id.code))
/-- An election that has completed without this lane: it joins, and learns the roles until it enters SERVICE (R48, R50). -/
def learn (f : StatusFrame) (L : Lane) : Lane :=
  let L := L.onStart (fun s => { s with joined := true })
  (L.each (Func.all.filter (fun g => L.present g && decide (L.role g = 0))) (fun g =>
    takeRoles g (unpackRoles (rep f g).proposal) ⟨(rep f g).rotIndex, (rep f g).histSeq⟩)).electionEnds
/-- The lane has held an election that gave it no roles (R49). -/
def electFailed (L : Lane) : Bool := L.start.electionDone && !L.is Reg.SYS_STATE_ELECTED
/-- Another lane has become eligible while none is in ARMED or later: after an election that failed, here or there, it is held afresh,
with the gather time restarted in every participant (R49). -/
def restartElection (f : StatusFrame) (L : Lane) : Lane :=
  if !L.is Reg.SYS_STATE_ELECTED && decide (L.svc = 2) && (L.electFailed || f.electFailed) && L.peers.all (fun p => decide (p.2.state = 2)) then
    (((L.onStart (fun s => { s with electionDone := false })).when (L.electFailed) (clr Reg.SYS_STATE_CAUSE))).restart .gather
  else L
/-- What a neighbour's frame does to the election (R47, R49, R50). -/
def followElection (f : StatusFrame) (newPeer : Bool) (L : Lane) : Lane :=
  let up := decide (2 ≤ f.state) && decide (f.state ≤ 5)
  if L.svc = 2 ∧ f.elected ∧ up ∧ ¬L.is Reg.SYS_STATE_ELECTED then
    (if L.electable && L.named f then L.adoptElection f else if L.named f then L else L.learn f)
  else if L.start.joined ∧ f.elected ∧ up ∧ (L.svc = 2 ∨ L.svc = 3) then L.learn f
  else (L.when newPeer (restartElection f)).tryElect

/-! ### What a status frame carries -/

/-- Both vote inputs of the lane are lost. -/
def votesLost (L : Lane) : Bool := (vget L.vote.inp 0).lost && (vget L.vote.inp 1).lost
/-- The report of a function (R47, R48, R50, R88, R110, R115, R120, R439, R596). -/
def report (L : Lane) (f : Func) : FuncReport :=
  { role := L.role f, mode := L.mode f, cause := L.rd (Reg.ROLE_FUNC_CAUSE f.code), serves := L.serves f,
    autumnMs := if L.mode f = 1 then L.autumnLeft f else 0,
    rotIndex := (vget L.ret.history f.ix).index, histSeq := (vget L.ret.history f.ix).seq,
    period := L.rd (Reg.ROLE_REFWD_PERIOD f.code), miss := L.rd (Reg.ROLE_REFWD_MISS f.code),
    supplyCause := (L.fn f).supplyCause, sensorLoss := L.sensorLost f, join := (L.fn f).joinSent,
    selected := L.rd (Reg.HQ_AUTH_SEL f.code), override := L.is (Reg.HQ_AUTH_OVR f.code),
    engaged := (List.finRange 4).foldl (fun v h => v + 2 ^ h.val * b2n (L.engagedFor h f)) 0,
    proposal := packRoles (L.shownRoles f) }
/-- The status frame that the lane sends now (R89). -/
def statusFrame (L : Lane) : StatusFrame :=
  let st := L.rd Reg.UP_STATE_STATE
  { state := L.svc, elected := L.is Reg.SYS_STATE_ELECTED,
    gatherLeft := if L.running .gather then L.left .gather (L.img.start.gatherMs * 1000000) else L.img.start.gatherMs * 1000000,
    featLocked := L.is Reg.SYS_FEAT_CTRL_LOCK, featSet := L.featSet, hostSets := Vector.ofFn (fun (h : Fin 4) => L.hostSet h),
    digest := L.start.image.digest, barred := L.is Reg.CM_STATUS_BARRED || L.is (Reg.ROLE_FUNC_BARRED 0),
    cm := L.regValue Reg.CM_STATUS_PAIRED.reg, faults := L.summary, parkOff := L.parkOff, voteLost := L.votesLost,
    still := Vector.ofFn (fun (p : Fin 3) => L.is (Reg.QE_VOTE_STILL p.val)),
    revref := Vector.ofFn (fun (p : Fin 3) => L.is (Reg.DE_MOT_STAT_REVREF p.val)),
    phase := Vector.ofFn (fun (p : Fin 3) => L.rd (Reg.DE_PWM_PHASE_PHASE p.val)),
    silent := Vector.ofFn (fun (c : Fin 2) => L.rd (Reg.SZ_STAT_SILENT c.val)),
    sinceInc := Vector.ofFn (fun (c : Fin 2) => min 1000 ((L.el - (vget L.slaz c).sinceInc) / 1000000)),
    funcs := Vector.ofFn (fun (i : Fin 5) => L.report ((Func.ofCode i.val).getD .steer)),
    updState := st, updDigest := if st = 0 then 0 else L.update.digest, updChunks := if st = 0 then 0 else L.update.chunks,
    updPrepare := L.update.coordinator && decide (st = 4),
    updRestart := if L.update.coordinator && decide (st = 5) then L.update.restartAt else none,
    updActive := L.activeDigest, updReverted := L.update.reverted, tokenOpen := L.tokenOpen, electFailed := L.electFailed }
/-- The lane sends status frames: from READY in every state but RECOVERY (R89). -/
def sendsStatus (L : Lane) : Bool := L.firmware && decide (2 ≤ L.svc) && decide (L.svc ≠ 7)
/-- PARK has been applied in every lane from now on, or no longer (R523). -/
def watchPark (L : Lane) : Lane :=
  if L.parkOff && decide (L.peers.length = 2) && L.peers.all (fun p => p.2.parkOff) then L.start1 .parkApplied else L.stop .parkApplied

/-! ### What a status frame does (R88, R89, R110, R115, R181, R389) -/

/-- PHSPLIT of every port of a ganged function against every neighbour heard (R181). -/
def watchPhase (L : Lane) : Lane :=
  (L.each ((List.finRange 3).filter L.gangedPort) (fun p L =>
    L.wr (Reg.DE_STATUS_PHSPLIT p.val)
      (b2n (L.peers.any (fun x => decide (vget x.2.phase p ≠ L.rd (Reg.DE_PWM_PHASE_PHASE p.val))))))).grants
/-- A neighbour begins to serve a function here: a joining lane becomes arbiter, the lane loss clears (R50, R88, R112). -/
def beginsToServe (g : Func) (x : LaneId) (L : Lane) : Lane :=
  let free (r : Nat → Fld) : Bool := decide (L.rd (r g.code) = 3)
  let L := if L.holdsRole g x then L
    else if free Reg.ROLE_FUNC_ACT then L.wr (Reg.ROLE_FUNC_ACT g.code) x.code
    else if free Reg.ROLE_FUNC_STB then L.wr (Reg.ROLE_FUNC_STB g.code) x.code
    else L.wr (Reg.ROLE_FUNC_ARB g.code) x.code
  let L := L.wrBit (Reg.ROLE_FUNC_SERVING g.code) x.code true
  let L := L.when (L.serves g) (reshare g 5000)
  L.when (decide ((L.servingSet g).length = 3)) (clearCause g 1)
/-- What a report says of who serves a function, and its join notice (R50, R88, R596). -/
def followServing (x : LaneId) (state : Nat) (g : Func) (r : FuncReport) (L : Lane) : Lane :=
  let i : Fin 3 := Fin.ofNat 3 x.code
  let L := L.when (decide (state = 2)) (onFn g (fun y => { y with gone := vupd y.gone i (fun _ => false) }))
  let gone := vget (L.fn g).gone i
  let L := if r.join ∧ ¬gone ∧ ¬vget (L.fn g).joinSeen i then
      (L.onFn g (fun y => { y with joinSeen := vupd y.joinSeen i (fun _ => true) })).when (L.serves g) (reshare g 5000)
    else L
  L.when (r.serves && decide (1 ≤ r.role) && decide (r.role ≤ 3) && !gone && !nbit (L.rd (Reg.ROLE_FUNC_SERVING g.code)) x.code)
    (beginsToServe g x)
/-- A cause that this lane took for a lane loss is the class that the removed lane reports (R115, R601). -/
def correctCause (g : Func) (c : Nat) (L : Lane) : Lane :=
  L.when ((L.fn g).causes.contains 1 && decide (L.mode g ≠ 0)) (fun L =>
    (L.when (decide (L.rd (Reg.ROLE_FUNC_CAUSE g.code) = 1)) (wr (Reg.ROLE_FUNC_CAUSE g.code) c)).onFn g (fun x =>
      { x with causes := (x.causes.map (fun k => if k = 1 then c else k)).dedup }))
/-- What a report says of the faults of a function that this lane serves (R51, R110, R115). -/
def followModes (x : LaneId) (state : Nat) (voteLost : Bool) (g : Func) (r : FuncReport) (L : Lane) : Lane :=
  let serving := nbit (L.rd (Reg.ROLE_FUNC_SERVING g.code)) x.code
  let L := L.when (decide (state = 6) || voteLost) (autumn g 1)
  let L := if r.supplyCause ≠ 0 then (if serving then L.autumn g r.supplyCause else L.correctCause g r.supplyCause) else L
  let L := L.when r.sensorLoss (autumn g 3)
  let L := L.when (decide (r.mode = 1) && decide (r.cause = 7) && decide (L.mode g = 0)) (enterAutumn g 7 r.autumnMs)
  L.when (decide (r.mode = 1) && decide (L.mode g = 1) && decide (r.autumnMs < L.autumnLeft g)) (setTimer (.autumn g)
    (L.el + r.autumnMs * 1000000))
/-- A neighbour that serves STEER or BRAKE reports it in Winter: Winter spreads to what this lane serves, whether or not it still serves
that function (R114, R116). -/
def followWinter (g : Func) (r : FuncReport) (L : Lane) : Lane :=
  L.when (decide (r.mode = 2) && r.serves && decide (1 ≤ r.role) && decide (r.role ≤ 3)) (winterSpread g)
/-- A frame of a lane in WINTER does not restart the status watchdog while that lane's vote input is lost (R325, log entry
48). -/
def countsAsHeard (L : Lane) (s : Side) (f : StatusFrame) : Bool := decide (f.state ≠ 6) || !(vget L.vote.inp s.ix).lost
/-- A status frame arrives (R89). -/
def statusRx (s : Side) (f : StatusFrame) (L : Lane) : Lane :=
  let x := L.id.nb s
  let L := (L.linkHeard s).when (L.countsAsHeard s f) (restart (.status s))
  let L := { L with nb := vupd L.nb s.ix (fun _ => some f) }
  let L := (L.wr (Reg.FC_NB_SUMMARY x.code) f.faults).set1 (Reg.FC_NB_VALID x.code)
  let part := decide (2 ≤ f.state) && decide (f.state ≤ 5) && L.sameSet f
  let newPeer := part && !L.bitOf Reg.SYS_STATE_PEERS x.code
  let L := L.wrBit Reg.SYS_STATE_PEERS x.code part
  let L := (L.followElection f newPeer).showBar
  let L := L.each L.functions (fun g => followServing x f.state g (rep f g))
  let L := L.each (L.functions.filter L.serves) (fun g => followModes x f.state f.voteLost g (rep f g))
  let L := L.each [Func.steer, .brake] (fun g => followWinter g (rep f g))
  let L := ((L.judgeZ 0).judgeZ 1).watchPhase
  let L := L.when L.guardSt.powered evaluateNow
  ((L.watchPark.followActivation f).coordinate).trialFollow f

/-- A lane of the election that has not yet served is lost: its roles pass on (R597, log entry 49). -/
def dropLost (x : LaneId) (f : Func) (L : Lane) : Lane :=
  if L.holdsRole f x ∧ ¬nbit (L.rd (Reg.ROLE_FUNC_SERVING f.code)) x.code then
    let wasActive := decide (L.role f = 1)
    let switched := decide (L.rd (Reg.ROLE_FUNC_ACT f.code) = x.code)
    let L := L.reform f x.code
    let L := L.when (decide (1 ≤ L.role f) && decide (L.role f ≤ 3)) (setOwnRole f)
    let L := L.when (switched && decide (L.role f = 1) && !wasActive) (becomeActive f)
    (L.when switched (rotateHistory f)).when (L.serves f) (fun L => (L.reshare f 5000).autumn f 1)
  else L
/-- No status frame has come from a neighbour for 3 ms (R98): it is accused in every function that this lane serves, its summary is no
longer valid, it counts as silent. The accusation stays until the lane is out of the function, which it may be already (log entry 59). -/
def statusLost (s : Side) (L : Lane) : Lane :=
  let x := L.id.nb s
  let L := ((L.stop (.status s)).clr (Reg.FC_NB_VALID x.code)).wrBit Reg.SYS_STATE_PEERS x.code false
  let L := L.each (L.functions.filter L.serves) (fun f => (fun (M : Lane) =>
    if nbit (M.rd (Reg.ROLE_FUNC_SERVING f.code)) x.code then M.watchdogAccuse f s
    else (M.set1 (Reg.ROLE_REFWD_FIRED f.code)).fire (325 + f.code)))
  let L := L.each (if L.is Reg.SYS_STATE_ELECTED then L.functions else []) (dropLost x)
  let L := L.each L.functions (fun f => (fun (M : Lane) =>
    if vget (M.fn f).joinSeen (Fin.ofNat 3 x.code) ∧ ¬M.holdsRole f x then
      (M.onFn f (fun y => { y with joinSeen := vupd y.joinSeen (Fin.ofNat 3 x.code) (fun _ => false) })).when (M.serves f) (reshare f 5000)
    else M))
  (((L.judgeZ 0).judgeZ 1).watchPhase).watchPark

/-! ### The rotation (R107, R108) -/

/-- The elapsed time of a function's present release. -/
def releaseEl (L : Lane) (f : Func) : Nat := L.el - (L.now - (L.fn f).released)
/-- The rotation of a committed swap at the present release: the old active lane sends nothing for it (R108). -/
def rotate (f : Func) (L : Lane) : Lane :=
  let act := L.rd (Reg.ROLE_FUNC_ACT f.code)
  let stb := L.rd (Reg.ROLE_FUNC_STB f.code)
  let arb := L.rd (Reg.ROLE_FUNC_ARB f.code)
  let was := L.role f
  let L := ((L.wr (Reg.ROLE_FUNC_ACT f.code) stb).wr (Reg.ROLE_FUNC_STB f.code) arb).wr (Reg.ROLE_FUNC_ARB f.code) act
  let L := L.onFn f (fun x => { x with commit := none, eqxDue := false,
                                       former := ((LaneId.ofCode act).toList.map (fun l => (l, L.el))) ++ x.former.filter (fun e => decide (e.1.code ≠ act)) })
  let L := ((L.stop (.eqxDue f)).stop (.watchdog f)).when (decide (1 ≤ was) && decide (was ≤ 3)) (setOwnRole f)
  let L := L.when (decide (was = 2)) (becomeActive f)
  let L := L.when (decide (was = 1)) (onFn f (fun x => { x with stopSend := some (x.released - 1, L.el) }))
  let L := (L.rotateHistory f).wrBit Reg.ROLE_EQX_DONE f.code true
  { L with roles := { L.roles with lastSwap := some (L.releaseEl f) } }
/-- A committed swap is due at a release: at least 20 µs after the commit; a swap whose roles have changed since lapses. -/
def tryRotate (f : Func) (L : Lane) : Lane :=
  match (L.fn f).commit with
  | some e =>
    if e + 20000 ≤ L.releaseEl f then
      (if L.rd (Reg.ROLE_FUNC_ACT f.code) ≠ 3 ∧ L.rd (Reg.ROLE_FUNC_STB f.code) ≠ 3 ∧ L.rd (Reg.ROLE_FUNC_ARB f.code) ≠ 3
       then L.rotate f else L.onFn f (fun x => { x with commit := none }))
    else L
  | none => L
/-- The conditions under which the lane proposes a swap at a release (R107, log entry 50). -/
def mayPropose (L : Lane) (f : Func) (steerRate brakeRate : Nat) : Bool :=
  (L.fn f).eqxDue && decide ((L.servingSet f).length = 3) && L.serves f && decide (L.mode f = 0) &&
    !([LaneId.a, .b, .c].any (fun l => decide (L.rd (Reg.ROLE_FUNC_STB f.code) = l.code) && L.barredFrom f l)) &&
    (match f with
     | .steer | .feel => decide (steerRate < L.img.eqxSteer)
     | .brake | .trail => decide (brakeRate < L.img.eqxBrake)
     | .park => true) &&
    (match L.roles.lastSwap with
     | some t => decide (t + 20000000 ≤ L.releaseEl f)
     | none => true)
/-- The watchdog of a lane that is not active starts at the first release at which the active lane serves (R98). -/
def startWatchdog (f : Func) (L : Lane) : Lane :=
  let act := L.rd (Reg.ROLE_FUNC_ACT f.code)
  L.when (L.serves f && decide (L.role f ≠ 1) && decide (act ≠ 3) && nbit (L.rd (Reg.ROLE_FUNC_SERVING f.code)) act &&
    !L.running (.watchdog f)) (setTimer (.watchdog f) (L.releaseEl f))

/-! ### Authority (R439, R440) -/

/-- The setpoint of a host that a release may use: the newest one that came at least 20 µs before (R439). -/
def usable (L : Lane) (h : Fin 4) (f : Func) : Option Setpoint :=
  (vget (vget L.host h).setpoints f.ix).find? (fun p => decide (p.time + 20000 ≤ L.el))
/-- A host is available: engaged, with a setpoint younger than its VALID; PARK_SET has none (R439). -/
def hostAvailable (L : Lane) (h : Fin 4) (f : Func) : Option Word :=
  match L.usable h f with
  | some p => if L.engagedFor h f && (f == .park || decide (L.el < p.time + p.valid * 1000000)) then some p.value else none
  | none => none
/-- The demand of a source that is available, coded as a RANK nibble (R75, R439). -/
def source (L : Lane) (f : Func) (a : AuthIn) (n : Nat) : Option Word :=
  if n = 1 then (if a.wheel then some 0 else none)
  else if n = 4 then (if a.pedal then some a.demand else none)
  else
    match (List.finRange 4).find? (fun h => L.portPresent h && decide (kindRank (L.portRec h).kind = some n)) with
    | some h => L.hostAvailable h f
    | none => none
/-- The sources that are available, highest rank first (R439). -/
def sources (L : Lane) (f : Func) (a : AuthIn) : List (Nat × Word) :=
  ((vget L.img.auth f.ix).rank.toList.filter (fun n => decide (n ≠ 0))).filterMap (fun n => (L.source f a n).map (fun v => (n, v)))
/-- The source with the greatest demand, the higher rank where demands are equal (R440). -/
def greatestOf : List (Nat × Word) → Nat
  | [] => 0
  | x :: xs => (xs.foldl (fun m y => if fpLt m.2 y.2 then y else m) x).1
/-- The selected source of a function (R440). -/
def select (L : Lane) (f : Func) (a : AuthIn) : Nat :=
  let ss := L.sources f a
  match f with
  | .steer => if L.is (Reg.HQ_AUTH_OVR 0) && ss.any (fun s => decide (s.1 = 1)) then 1 else (ss.headD (0, 0)).1
  | .brake | .trail => greatestOf ss
  | .park => (ss.headD (0, 0)).1
  | .feel => 0
/-- The hand-wheel override of STEER at a release (R440): hosts it has disengaged. -/
def override (a : AuthIn) (L : Lane) : Lane :=
  let r := vget L.img.auth 0
  let set (v : Option Nat) (L : Lane) : Lane := { L with auth := vupd L.auth 0 (fun x => { x with since := v }) }
  let on := L.is (Reg.HQ_AUTH_OVR 0)
  let holds := if on then a.wheel && decide (2 * a.torque < r.ovrTorque)
    else a.wheel && r.rank.toList.contains 1 && decide (r.ovrTorque ≤ a.torque)
  if holds then
    let t := (vget L.auth 0).since.getD L.el
    if t + r.ovrMs * 1000000 ≤ L.el then
      let L := set none L
      if on then L.clr (Reg.HQ_AUTH_OVR 0) else (L.set1 (Reg.HQ_AUTH_OVR 0)).when (decide (r.release = 0)) (disengageAll .steer)
    else set (some t) L
  else set none L
/-- PARK is applied while any available source asks for it, and released only when the highest-ranked one asks for that and BRAKE
is not in Winter (R440). -/
def parkApply (ss : List (Nat × Word)) (L : Lane) : Lane :=
  let now := (vget L.auth 4).apply
  let next := if ss.any (fun s => decide (s.2 ≠ 0)) then true else if ss ≠ [] ∧ L.mode .brake ≠ 2 then false else now
  { L with auth := vupd L.auth 4 (fun x => { x with apply := next }) }
/-- A lane that has become active adopts the engagements and the override of the former active lane's last status frame (R439). -/
def adopt (f : Func) (L : Lane) : Lane :=
  let former := (vget L.auth f.ix).active
  let L' := { L with auth := vupd L.auth f.ix (fun x => { x with active := LaneId.ofCode (L.rd (Reg.ROLE_FUNC_ACT f.code)) }) }
  match former.bind (fun l => L.sideOf l.code), decide (L.role f = 1) with
  | some s, true =>
    match vget L.nb s.ix with
    | some n =>
      let r := rep n f
      ((L'.each (List.finRange 4) (fun h => wrBit (Reg.HQ_PORT_ENGAGED h.val) f.code (nbit r.engaged h.val))).wr
        (Reg.HQ_AUTH_OVR f.code) (b2n r.override)).set1 (Reg.HQ_AUTH_ADOPTED f.code)
    | none => L'
  | _, false => L'.clr (Reg.HQ_AUTH_ADOPTED f.code)
  | _, _ => L'
/-- The AUTHORITY notices of a change: to every port with DIAG or the function's permission (R436, R440). -/
def authorityNotices (f : Func) (was : List (Fin 4)) (L : Lane) : Lane :=
  L.each (List.finRange 4) (fun h L =>
    L.when (L.perm h 5 || (permOf f).any (L.perm h)) (notice h 0x82
      (leBytes 1 f.code ++ leBytes 1 (L.rd (Reg.HQ_AUTH_SEL f.code)) ++ leBytes 1 (b2n (was.contains h && !L.engagedFor h f)))))
/-- The evaluation of authority at a release (R439, R440). -/
def authority (f : Func) (a : AuthIn) (L : Lane) : Lane :=
  let was := (List.finRange 4).filter (fun h => L.engagedFor h f)
  let L := (L.adopt f).when (f == .steer) (override a)
  let L := L.when (f == .park) (fun L => L.parkApply (L.sources .park a))
  let n := L.select f a
  if n = L.rd (Reg.HQ_AUTH_SEL f.code) then L else (L.wr (Reg.HQ_AUTH_SEL f.code) n).authorityNotices f was

/-- The device time of the latest multiple of PERIOD of a function, which is its latest release (R89). -/
def releaseTime (L : Lane) (f : Func) : Nat := L.now / max 1 (L.periodNs f) * max 1 (L.periodNs f)
/-- An outer-loop release of a function: device time has reached a whole multiple of PERIOD since the last one (R89). -/
def release' (f : Func) (steerRate brakeRate : Nat) (a : AuthIn) (L : Lane) : Lane :=
  let L := L.onFn f (fun x => { x with released := L.releaseTime f })
  let L := (L.tryRotate f).startWatchdog f
  let L := L.when (L.mayPropose f steerRate brakeRate) (wrBit Reg.ROLE_ACCUSE_ROTATE f.code true)
  L.authority f a

end Lane

/-! ### The commands -/

/-- SYS_FEAT_LOCK: the lane feature set is locked, or refused without BASE; an election whose condition then holds ends (R43,
R47). -/
def execSysFeatLock (l : LaneId) (s : State) : Host.Outcome State Fault Refusal :=
  onLane l (fun L => L.featLock.when L.firmware Lane.tryElect) s

/-- STATUS_FRAME_SEND: a status frame to each neighbour (R89). -/
def execStatusFrameSend (l : LaneId) (s : State) : Host.Outcome State Fault Refusal :=
  onLane l (fun L => L.when L.sendsStatus (fun L => L.watchPark.send (.status L.statusFrame))) s

/-- STATUS_FRAME_RX: a status frame of a neighbour (R89). -/
def execStatusFrameRx (l : LaneId) (sd : Side) (f : StatusFrame) (s : State) : Host.Outcome State Fault Refusal :=
  onLane l (fun L => L.when L.firmware (Lane.statusRx sd f)) s

/-- ELECTION_GATHER_TIMEOUT: a participant's gather time expires (R47). -/
def execElectionGatherTimeout (l : LaneId) (dt : Nat) (s : State) : Host.Outcome State Fault Refusal :=
  onLane l (fun L =>
    let L := L.pass dt
    L.when (L.firmware && L.electable && !L.start.electionDone && L.gathered) Lane.elect) s

/-- STATUS_FRAME_TIMEOUT: no status frame from a neighbour for 3 ms (R98). -/
def execStatusFrameTimeout (l : LaneId) (dt : Nat) (sd : Side) (s : State) : Host.Outcome State Fault Refusal :=
  onLane l (fun L =>
    let L := L.pass dt
    L.when (L.firmware && L.due (.status sd) 3000000) (Lane.statusLost sd)) s

/-- OUTER_LOOP_RELEASE: a release of a function that the image assigns (R89). -/
def execOuterLoopRelease (l : LaneId) (dt : Nat) (f : Func) (steerRate brakeRate : Nat) (a : AuthIn) (s : State) :
    Host.Outcome State Fault Refusal :=
  onLane l (fun L =>
    let L := L.pass dt
    L.when (L.firmware && L.present f && decide (L.releaseTime f ≠ (L.fn f).released)) (Lane.release' f steerRate brakeRate a)) s

end Sys2Proof.Machine
end

