-- ==== Sys2Proof/Machine/Bus.lean ====
section
/-! DEFINITION. The address map of a lane as its cores and the debugger see it: what lies where, what faults, what a store and a load
do, the accesses that wait for a sleeping domain or a commit, and what a pair holds back, compares and replicates (R5 to R9, R24 to
R26, R39, R128 to R138, R464, R465): rows REGISTER_WRITE, LL_REFERENCE_WRITE, PAIRED_OUTPUT_WRITE, PAIRED_INPUT_LOAD, CM_CKPT_WRITE,
RETAINED_COMMIT_COMPLETE, PD_WAKE_COMPLETE and MTIMECMP_REACHED of the table. -/

namespace Sys2Proof.Machine

/-! ### The map (R24) -/

/-- What lies at an address. -/
inductive Place
  | rom | timer | plic | sram | reg (r : RegDef) | slot (i : Fin 2) | security | journal | bitmap | banks | store | hole
  deriving DecidableEq, Repr
/-- What lies at an address (R24, R35, R487, R510); the LL window holds no register that the spec names. -/
def placeOf (a : Nat) : Place :=
  if a < 0x40000 then .rom
  else if 0x02000000 ≤ a ∧ a < 0x02010000 then .timer
  else if 0x0C000000 ≤ a ∧ a < 0x0C400000 then .plic
  else if 0x10000000 ≤ a ∧ a < 0x10800000 then .sram
  else if 0x20000000 ≤ a ∧ a < 0x20190000 then
    match regAt a with
    | some r => .reg r
    | none => .hole
  else if 0x100000000 ≤ a ∧ a < 0x200000000 then
    let o := a - 0x100000000
    if o < 0x10000 then .slot 0
    else if o < 0x20000 then .slot 1
    else if o < 0x21000 then .security
    else if 0x30000 ≤ o ∧ o < 0x40000 then .journal
    else if 0x40000 ≤ o ∧ o < 0x48000 then .bitmap
    else if (0x10000000 ≤ o ∧ o < 0x30000000) ∨ (0x40000000 ≤ o ∧ o < 0x80000000) then .banks
    else .store
  else .hole
/-- Bytes of the machine-timer register at an address: MSIP, MTIMECMP, MTIME (R24; log entry 7). -/
def timerWidth (a : Nat) : Nat :=
  let o := a - 0x02000000
  if o < 16 ∧ o % 4 = 0 then 4
  else if (0x4000 ≤ o ∧ o < 0x4020 ∧ o % 8 = 0) ∨ o = 0xBFF8 then 8 else 0
/-- An address lies in a pair's mirrored window (R129). -/
def inWindow (p : Pair) (a : Nat) : Bool := decide ((windowOf p).1 ≤ a) && decide (a < (windowOf p).1 + (windowOf p).2.1)
/-- The other pair. -/
def otherPair (p : Pair) : Pair := if p = 0 then 1 else 0
/-- SRAM that a core may not access: an odd copy, the other pair's window (R130). -/
def sramBarred (c : Core) (a : Nat) : Bool :=
  (decide (0x10400000 ≤ a) && decide (a < 0x10700000)) || inWindow (otherPair (pairOf c)) a
/-- The SRAM address that a core reaches: the odd core works in the odd copy of its pair's window (R130). -/
def sramAddr (who : Option Core) (a : Nat) : Nat :=
  match who with
  | some c => if isOdd c && inWindow (pairOf c) a then a - (windowOf (pairOf c)).1 + (windowOf (pairOf c)).2.2 else a
  | none => a
/-- The bytes `[a, a + n)` lie in shared SRAM (R129). -/
def sharedSram (a n : Nat) : Bool :=
  (decide (0x10300000 ≤ a) && decide (a + n ≤ 0x10400000)) || (decide (0x10700000 ≤ a) && decide (a + n ≤ 0x10800000))
/-- A word of the PLIC, by its offset: the priority of a source, a word of pending bits, a word of a context's enables, a context's
threshold, a context's claim and completion register, or none. There are 256 sources and two contexts a hart, machine mode first (R16,
R24; log entry 66). -/
inductive PlicWord
  | priority (source : Nat) | pending (k : Nat) | enable (ctx k : Nat) | threshold (ctx : Nat) | claim (ctx : Nat) | none
  deriving DecidableEq, Repr
/-- What lies at an offset of the PLIC. -/
def plicWord (o : Nat) : PlicWord :=
  if o % 4 ≠ 0 then .none
  else if 4 ≤ o ∧ o ≤ 1024 then .priority (o / 4)
  else if 0x1000 ≤ o ∧ o < 0x1024 then .pending ((o - 0x1000) / 4)
  else if 0x2000 ≤ o ∧ o < 0x2400 ∧ o % 0x80 < 0x24 then .enable ((o - 0x2000) / 0x80) (o % 0x80 / 4)
  else if 0x200000 ≤ o ∧ o < 0x208000 ∧ o % 0x1000 = 0 then .threshold ((o - 0x200000) / 0x1000)
  else if 0x200000 ≤ o ∧ o < 0x208000 ∧ o % 0x1000 = 4 then .claim ((o - 0x200000) / 0x1000)
  else .none
/-- An access of `n` bytes at `a` does not fault: right width and alignment, an address that exists and may be so accessed (R5, R25,
R130, R486, R487, R510). -/
def accessOk (who : Option Core) (a n : Nat) (st : Bool) : Bool :=
  [1, 2, 4, 8].contains n && decide (a % n = 0) &&
    match placeOf a with
    | .rom => !st && decide (0x3F000 ≤ a)
    | .timer => decide (timerWidth a = n)
    | .plic => decide (n = 4) && decide (plicWord (a - 0x0C000000) ≠ .none)
    | .sram => (match who with
      | some c => !sramBarred c a
      | none => true)
    | .reg r => decide (8 * n = r.width)
    | .security => who.isNone
    | .journal | .bitmap | .banks => !st
    | .slot _ | .store => true
    | .hole => false

/-- Number of an interrupt source in this model. -/
def Irq.code : Irq → Nat
  | .deHalt n => n.val
  | .deMbox n => 4 + n.val
  | .qe n => 8 + n.val
  | .rs0 => 10
  | .sent s => 11 + s.val
  | .collector => 13
  | .szCycle c => 14 + c.val
  | .szBuffer c => 16 + c.val
  | .tsPend => 18
  | .tp n => 19 + n.val
  | .queue q => 23 + q.val
  | .pd => 39
  | .ck => 40
  | .seChannel c => 41 + c.val
  | .bt => 43
/-- Every source has its place among the 256 of the PLIC. -/
theorem Irq.code_lt (i : Irq) : i.code < 256 := by
  cases i <;> simp only [Irq.code] <;> omega
/-- The PLIC source number of an interrupt, 1 to 256: the spec states no number, only that there are 256 sources (R16; log entry 66). -/
def Irq.source (i : Irq) : Nat := (Config.plicOrder ⟨i.code, i.code_lt⟩).val + 1

namespace Lane

/-- A free bit that a write over the bus meets: something outside the lane's state decides it. -/
def freeBit (L : Lane) : Bool := nbit (L.free .busValue) 0

/-! ### Fields (R6 to R9) -/

/-- The lock control of the register at an address is set (R9). -/
def lockedAt (L : Lane) (a : Nat) : Bool :=
  let o := a % 0x4000
  match a / 0x10000 with
  | 0x2000 => L.is Reg.SYS_FEAT_CTRL_LOCK
  | 0x2001 => L.is Reg.ROLE_CTRL_LOCK
  | 0x2002 => L.is Reg.CM_CTRL_LOCK
  | 0x2009 => L.is Reg.IB_CTRL_LOCK
  | 0x200A => L.is Reg.HQ_CTRL_LOCK
  | 0x2010 =>
    let n := a / 0x4000 % 4
    if 0x60 ≤ o ∧ o < 0x100 then L.is (Reg.DE_MOT_CTRL_LOCK n) else L.is (Reg.DE_CTRL_LOCK n)
  | 0x2014 => L.is Reg.QE_CTRL_LOCK
  | 0x2015 => L.is Reg.CS_CTRL_LOCK
  | 0x2016 => L.is Reg.GD_CFG_LOCK
  | 0x2017 => L.is Reg.LG_CTRL_LOCK
  | _ => false
/-- A write of `x` to one field (R6, R7, R9, R42, R602). -/
def writeField (locked : Bool) (a : Nat) (fd : FieldDef) (x : Nat) (L : Lane) : Lane :=
  let f : Fld := ⟨a, fd.lo, fd.w⟩
  if !L.fieldThere a fd.lo then L
  else
    match fd.acc with
    | .rw => L.when (fd.range.admits x) (wr f x)
    | .rwl => L.when (!locked && fd.range.admits x) (wr f x)
    | .w1c => L.wr f (L.rd f - Nat.land (L.rd f) x)
    | .w1s => L.wr f (Nat.lor (L.rd f) x)
    | .ro | .wo => L
/-- A write of a register whose fields only store; whether a field is locked is judged before the write (R9). -/
def writeFields (r : RegDef) (a v : Nat) (L : Lane) : Lane :=
  let locked := L.lockedAt a
  L.each r.fields (fun fd L => L.writeField locked a fd (nbits v fd.lo fd.w))

/-! ### Stores to registers -/

/-- SYS (R39, R43, R52, R56 to R58). -/
def writeSys (r : RegDef) (a v : Nat) (L : Lane) : Lane :=
  if a = 0x2000000C then L.when (nbit v 0) softCommit
  else if a = 0x20000010 then
    (L.when (nbit v 1) (clr Reg.SYS_FEAT_CTRL_REFUSED)).when (nbit v 0) (fun L => L.featLock.tryElect)
  else if a = 0x20000080 then (L.when (nbit v 1) (clr Reg.SYS_ARM_REFUSED)).when (nbit v 0) armTrigger
  else L.writeFields r a v
/-- ROLE (R92, R118, R123, R128). -/
def writeRole (p : Pair) (r : RegDef) (a v : Nat) (L : Lane) : Lane :=
  if a = 0x20010040 then
    L.p0Only p (fun L =>
      ((L.wr Reg.ROLE_ACCUSE_CODE (nbits v 0 10)).wr Reg.ROLE_ACCUSE_ROTATE (nbits v 10 5)).each
        (Func.all.filter (fun f => decide (nbits v (2 * f.code) 2 = 3))) withdraw)
  else if a = 0x2001008C then L.roleClr (nbits v 0 5)
  else L.writeFields r a v
/-- CM: a 1 in a byte of CM_OBUF_HIGH clears the byte (R153); CM_CKPT is written by the cores' own command. -/
def writeCm (r : RegDef) (a v : Nat) (L : Lane) : Lane :=
  if a = 0x200200C0 then
    L.each r.fields (fun fd L => L.when (decide (nbits v fd.lo fd.w ≠ 0)) (clr ⟨a, fd.lo, fd.w⟩))
  else L.writeFields r a v
/-- FC (R344 to R346, R357, R358, R361). -/
def writeFc (r : RegDef) (a v : Nat) (L : Lane) : Lane :=
  if a < 0x20030080 then L.writeSticky ((a - 0x20030000) / 4) v
  else if a = 0x20030300 then
    let L := (L.wr Reg.FC_INJ_SRC (nbits v 0 10)).when (nbit v 18) (clr Reg.FC_INJ_REFUSED)
    (L.when (nbit v 16) (inject (nbits v 0 10))).when (nbit v 17) injectParity
  else L.writeFields r a v
/-- PD (R457, R475, R478). -/
def writePd (r : RegDef) (a v : Nat) (L : Lane) : Lane :=
  if a = 0x20040004 then L.pdWrite v
  else if a = 0x200400C0 then (L.writeFields r a v).when (nbit v 0) pdClear
  else L.writeFields r a v
/-- CK (R473, R480, R481). -/
def writeCk (r : RegDef) (a v : Nat) (L : Lane) : Lane :=
  if a = 0x20050010 then L.fmWrite v else if a = 0x20050014 then L.fmWindow v else L.writeFields r a v
/-- TS: START and PERIOD of a pulse that runs keep their value (R415, R416, R419, R421, R422). -/
def writeTs (r : RegDef) (a v : Nat) (L : Lane) : Lane :=
  if a = 0x20060040 then
    (L.writeFields r a v).jumpWrite v
  else if 0x20060100 ≤ a then
    let n : Fin 4 := Fin.ofNat 4 ((a - 0x20060100) / 0x20)
    match (a - 0x20060100) % 0x20 with
    | 0 => L.pulseConfig n v
    | 0x14 => L.writeFields r a v
    | _ => L.when (decide (L.rd (Reg.TP_CFG_MODE n.val) = 0)) (writeFields r a v)
  else L.writeFields r a v
/-- SZ (R376, R382, R388, R391, R394, R397, R398). -/
def writeSz (r : RegDef) (a v : Nat) (L : Lane) : Lane :=
  let o := a - 0x20070000
  if o = 0 then
    let L := (L.wr Reg.SZ_CTRL_IE_CYC_X (nbits v 2 1)).wr Reg.SZ_CTRL_IE_CYC_Y (nbits v 3 1)
    (L.szEnable 0 (nbit v 0)).szEnable 1 (nbit v 1)
  else if o = 0x20 then
    L.each r.fields (fun fd L =>
      L.when (decide (nbits v fd.lo fd.w < L.rd Reg.SZ_INFO_MODES)) (writeField false a fd (nbits v fd.lo fd.w)))
  else if 0x1000 ≤ o ∧ o < 0x3000 then
    L.when (L.bufTx (Fin.ofNat 2 ((o - 0x1000) / 0x1000)) (o % 0x1000 / 0x40)) (writeFields r a v)
  else if 0x3000 ≤ o ∧ o < 0x3200 then
    let tx := L.bufTx (Fin.ofNat 2 ((o - 0x3000) / 0x100)) (o % 0x100 / 4)
    L.each (r.fields.filter (fun fd => decide (fd.acc ≠ .w1s) || tx)) (fun fd => writeField false a fd (nbits v fd.lo fd.w))
  else L.writeFields r a v
/-- HQ: a ring lies wholly in shared SRAM, 64-byte aligned (R433, R448). -/
def writeHq (r : RegDef) (a v : Nat) (L : Lane) : Lane :=
  let q : Fin 16 := Fin.ofNat 16 ((a - 0x200A0000) / 0x20)
  if a < 0x200A0200 ∧ a % 0x20 = 0xC then (L.when (nbit v 0) (pop q)).when (nbit v 1) (push q)
  else if a < 0x200A0200 ∧ a % 0x20 = 0x10 then
    L.when (decide (v % 64 = 0) && sharedSram v (64 * L.effDepth q)) (writeFields r a v)
  else L.writeFields r a v
/-- SE: a channel is written by its own pair only (R503, R506). -/
def writeSe (who : Option Core) (r : RegDef) (a v : Nat) (L : Lane) : Lane :=
  let pairFor (c : Fin 2) : Pair := (who.map pairOf).getD c
  if a = 0x200B0010 ∨ a = 0x200B0020 then
    let c : Fin 2 := if a = 0x200B0010 then 0 else 1
    if nbit v 31 then L.seSubmit c (pairFor c) (nbits v 0 8) (nbits v 8 9) (seAct (nbits v 0 8))
    else if pairFor c = c then L.writeFields r a v else L.fire 20
  else if 0x200B0100 ≤ a ∧ a < 0x200B0300 then
    let c : Fin 2 := if a < 0x200B0200 then 0 else 1
    if pairFor c = c then L.writeFields r a v else L.fire 20
  else L.writeFields r a v
/-- BT (R541, R547, R556 to R558). -/
def writeBt (r : RegDef) (a v : Nat) (L : Lane) : Lane :=
  if a = 0x200D0024 then L.fuseWrite v
  else if a = 0x200D0040 then L.sliceCtrl v
  else if a = 0x200D0050 then (L.when (nbit v 3) (testSlice (nbits v 0 3))).when (nbit v 4) testAnalog
  else L.writeFields r a v
/-- AG: the ring lies in shared SRAM, 32-byte aligned (R548, R559, R561). -/
def writeAg (r : RegDef) (a v : Nat) (L : Lane) : Lane :=
  if a = 0x200E0000 then (L.writeFields r a v).when (nbit v 0) agGo
  else if a = 0x200E0010 then L.when (decide (v % 32 = 0) && sharedSram v 32) (writeFields r a v)
  else L.writeFields r a v
/-- DE (R161 to R164, R179 to R189). -/
def writeDe (r : RegDef) (a v : Nat) (L : Lane) : Lane :=
  let n : Engine := Fin.ofNat 4 ((a - 0x20100000) / 0x4000)
  match a % 0x4000 with
  | 0 =>
    let L := (L.when (nbit v 31) (set1 (Reg.DE_CTRL_LOCK n.val))).when (nbit v 1) (sealIm n)
    if nbit v 0 then L.run n else L.when (L.is (Reg.DE_CTRL_RUN n.val)) (halt n 7)
  | 0xC => L.dataAccess n (some (BitVec.ofNat 32 v))
  | 0x20 =>
    (L.when (decide (v * L.rd (Reg.DE_PWM_INFO_FREQ n.val) < 10 ^ 7)) (writeFields r a v)).watchPhase
  | 0x54 => (L.writeFields r a v).when (nbit v 16) (wr (Reg.DE_BUDGET_SLACK_MIN n.val) 0xFFFF)
  | 0x140 => L.doorbell n
  | _ => L.writeFields r a v
/-- CS (R207, R217). -/
def writeCs (r : RegDef) (a v : Nat) (L : Lane) : Lane :=
  let p : Port := Fin.ofNat 3 ((a - 0x20150000) / 0x40)
  if a < 0x201500C0 ∧ a % 0x40 = 0x14 ∧ nbit v 2 then
    L.calStart p (nbits v 0 2)
  else L.writeFields r a v
/-- The thresholds stand in the order of R294 (R304). -/
def ovOrder (on off trip short : Nat) : Bool :=
  decide (200 ≤ off) && decide (off < on) && decide (on < trip) && decide (trip < short) && decide (short ≤ 780)
/-- GD; whether x_VDC is at least 10 V is not in the lane's state (R288, R290, R293, R298, R299, R304, R305, R308, R309). -/
def writeGd (r : RegDef) (a v : Nat) (L : Lane) : Lane :=
  let on := L.rd Reg.GD_OV_0_OV_ON
  let off := L.rd Reg.GD_OV_0_OV_OFF
  let trip := L.rd Reg.GD_OV_1_OV_TRIP
  let short := L.rd Reg.GD_OV_1_OV_ASC
  if a = 0x20160010 then L.when (ovOrder (nbits v 0 16) (nbits v 16 16) trip short) (writeFields r a v)
  else if a = 0x20160014 then L.when (ovOrder on off (nbits v 0 16) (nbits v 16 16)) (writeFields r a v)
  else if a = 0x20160018 then
    let was := L.chopF
    let L := (L.writeFields r a v).chopApply
    L.when (L.chopF && !was) chopFSet
  else if a = 0x201600C0 then L.when (nbit v 0) testStart
  else if a = 0x201600D0 then
    let L := L.writeFields r a v
    if nbit v 2 ∧ L.feature 1 then L.drawn.zStart L.freeBit else L
  else L.writeFields r a v
/-- LG, which only P_0 writes (R128, R317, R328, R336, R338). -/
def writeLg (p : Pair) (r : RegDef) (a v : Nat) (L : Lane) : Lane :=
  L.p0Only p (fun L =>
    if a = 0x20170014 then L.judgeAnswer (nbits v 16 8) (BitVec.ofNat 16 v)
    else if a = 0x20170018 then L.writeWd v
    else if a = 0x20170070 then L.rearm v
    else if a = 0x20170030 then (L.writeFields r a v).when (nbit v 16 && decide (L.gstate = 3)) (driveKm false)
    else L.writeFields r a v)
/-- A store to a register: the register's own effect where it has one, else its fields (R7). -/
def regWrite (who : Option Core) (r : RegDef) (a v : Nat) (L : Lane) : Lane :=
  let p : Pair := (who.map pairOf).getD 0
  match a / 0x10000 with
  | 0x2000 => L.writeSys r a v
  | 0x2001 => L.writeRole p r a v
  | 0x2002 => L.writeCm r a v
  | 0x2003 => (L.fcCheck a).writeFc r a v
  | 0x2004 => L.writePd r a v
  | 0x2005 => L.writeCk r a v
  | 0x2006 => L.writeTs r a v
  | 0x2007 => L.writeSz r a v
  | 0x200A => L.writeHq r a v
  | 0x200B => L.writeSe who r a v
  | 0x200D => L.writeBt r a v
  | 0x200E => L.writeAg r a v
  | 0x2010 => (L.writeDe r a v).grants
  | 0x2014 => (L.writeFields r a v).grants
  | 0x2015 => (L.writeCs r a v).grants
  | 0x2016 => (L.writeGd r a v).grants
  | 0x2017 => L.writeLg p r a v
  | _ => L.writeFields r a v

/-! ### Timer and PLIC (R24, R400; log entry 7) -/

/-- An interrupt for a core; one for hart 2 or 3 wakes CP_1 (R135, R462). -/
def coreInterrupt (c : Core) (L : Lane) : Lane := (L.interrupt c).when (decide (pairOf c = 1)) (pdWake 1 17)
/-- The timer interrupt of a hart follows mtime ≥ mtimecmp (R400). -/
def timerCheck (c : Core) (L : Lane) : Lane :=
  let p := decide (vget L.mtimecmp c ≤ L.now / 1000)
  let was := vget L.mtip c
  ({ L with mtip := vupd L.mtip c (fun _ => p) }).when (p && !was) (coreInterrupt c)
/-- A store to MSIP or MTIMECMP; one to MTIME is ignored (R400). -/
def timerStore (a v : Nat) (L : Lane) : Lane :=
  let o := a - 0x02000000
  if o < 16 then
    let c : Core := Fin.ofNat 4 (o / 4)
    let was := vget L.msip c
    ({ L with msip := vupd L.msip c (fun _ => nbit v 0) }).when (nbit v 0 && !was) (coreInterrupt c)
  else if o < 0x4020 then
    let c : Core := Fin.ofNat 4 ((o - 0x4000) / 8)
    ({ L with mtimecmp := vupd L.mtimecmp c (fun _ => v) }).timerCheck c
  else L
/-- What a load of the machine timer returns. -/
def timerLoad (L : Lane) (a : Nat) : Nat :=
  let o := a - 0x02000000
  if o < 16 then b2n (vget L.msip (Fin.ofNat 4 (o / 4)))
  else if o < 0x4020 then vget L.mtimecmp (Fin.ofNat 4 ((o - 0x4000) / 8))
  else L.now / 1000
/-- A word of the PLIC as it was last stored. -/
def plicRd (L : Lane) (o : Nat) : Nat := Tab.get 0 L.plic.words o
/-- The priority of a source. -/
def plicPrio (L : Lane) (i : Irq) : Nat := L.plicRd (4 * i.source)
/-- A context has a source enabled. -/
def plicEnabled (L : Lane) (ctx : Nat) (i : Irq) : Bool := nbit (L.plicRd (0x2000 + 0x80 * ctx + 4 * (i.source / 32))) (i.source % 32)
/-- The source that a context claims: pending and enabled, highest priority first, then lowest number. -/
def plicBest (L : Lane) (ctx : Nat) : Option Irq :=
  (L.irqs.filter (fun i => L.plicEnabled ctx i && decide (0 < L.plicPrio i))).foldl (fun b i =>
    match b with
    | none => some i
    | some j => if L.plicPrio j < L.plicPrio i ∨ (L.plicPrio j = L.plicPrio i ∧ i.source < j.source) then some i else some j) none
/-- A context is notified: its source lies above its threshold. -/
def plicNotified (L : Lane) (ctx : Nat) : Bool := (L.plicBest ctx).any (fun i => decide (L.plicRd (0x200000 + 0x1000 * ctx) < L.plicPrio i))
/-- The external interrupt of a hart follows its two contexts; a rise is an interrupt for the hart (R24, R135, R462). -/
def plicCheck (c : Core) (L : Lane) : Lane :=
  let p := L.plicNotified (2 * c.val) || L.plicNotified (2 * c.val + 1)
  let was := vget L.plic.eip c
  ({ L with plic := { L.plic with eip := vupd L.plic.eip c (fun _ => p) } }).when (p && !was) (coreInterrupt c)
/-- The external interrupts of every hart follow. -/
def plicCheckAll (L : Lane) : Lane := L.each [0, 1, 2, 3] plicCheck
/-- A context has handled a source: the source may become pending again, and does where it has been raised since (log entry 7). -/
def plicComplete (ctx v : Nat) (L : Lane) : Lane :=
  match L.plic.busy.find? (fun i => decide (i.source = v) && L.plicEnabled ctx i) with
  | some i =>
    let again := L.plic.held.contains i
    let drop (l : List Irq) : List Irq := l.filter (fun j => decide (j ≠ i))
    let L := { L with plic := { L.plic with busy := drop L.plic.busy, held := drop L.plic.held } }
    L.when again (irq i)
  | none => L
/-- A word of the PLIC takes a value. -/
def plicPut (o v : Nat) (L : Lane) : Lane := { L with plic := { L.plic with words := Tab.put 0 L.plic.words o v } }
/-- A source is claimed: it is no longer pending, and is in service until its completion. -/
def plicClaim (i : Irq) (L : Lane) : Lane :=
  { L with irqs := L.irqs.filter (fun j => decide (j ≠ i)), plic := { L.plic with busy := L.plic.busy ++ [i] } }
/-- A store at an offset of the PLIC: priorities, enables and thresholds store, source 0 not being there; a claim register takes a completion;
pending bits are read-only. -/
def plicStore (o v : Nat) (L : Lane) : Lane :=
  match plicWord o with
  | .priority _ | .threshold _ => (L.plicPut o v).plicCheckAll
  | .enable _ k => (L.plicPut o (if k = 0 then v - v % 2 else if k = 8 then v % 2 else v)).plicCheckAll
  | .claim ctx => (L.plicComplete ctx v).plicCheckAll
  | .pending _ | .none => L
/-- A load at an offset of the PLIC; a load of a claim register claims. -/
def plicLoad (o : Nat) (L : Lane) : Nat × Lane :=
  match plicWord o with
  | .pending k => (L.irqs.foldl (fun v i => if i.source / 32 = k then Nat.lor v (2 ^ (i.source % 32)) else v) 0, L)
  | .claim ctx =>
    match L.plicBest ctx with
    | some i =>
      (i.source, (L.plicClaim i).plicCheckAll)
    | none => (0, L)
  | _ => (L.plicRd o, L)

/-! ### Memory -/

/-- The bytes of the chunk bitmap from an offset on (R510). -/
def bitmapBytes (L : Lane) (o n : Nat) : List Byte :=
  (List.range n).map (fun i =>
    BitVec.ofNat 8 ((List.range 8).foldl (fun v b => v + (if L.update.bitmap.contains (8 * (o + i) + b) then 2 ^ b else 0)) 0))
/-- The digest field of a slot holds these bytes. -/
def slotDigestPut (i : Fin 2) (bs : List Byte) (L : Lane) : Lane :=
  { L with store := Tab.putList 0 L.store (65536 * i.val + 32) bs, ret := { L.ret with digest := vupd L.ret.digest i (fun _ => .stored) } }
/-- Before a core's store changes what a slot's digest covers, the bytes of its digest field stand in memory: the SHAKE256 output of the
last commit, or, after a commit that did not finish, bytes of a digest that fits no content the model holds (R35, log entry 74). -/
def slotDigestBytes (i : Fin 2) (L : Lane) : Lane :=
  match vget L.ret.digest i with
  | .intact => L.slotDigestPut i (shake 32 (L.slotHead i ++ Tab.run 0 L.store (65536 * i.val + 64) payloadLen))
  | .torn => L.drawn.slotDigestPut i (leBytes 32 (L.free .busValue))
  | .stored => L
/-- What a load finds in a slot (R35). -/
def slotLoad (i : Fin 2) (o n : Nat) (L : Lane) : Nat × Lane :=
  if 32 ≤ o ∧ o < 64 then
    match vget L.ret.digest i with
    | .intact => (field (shake 32 (L.slotHead i ++ Tab.run 0 L.store (65536 * i.val + 64) payloadLen)) (o - 32) n, L)
    | .torn => (L.free .busValue % 2 ^ (8 * n), L.drawn)
    | .stored => (ofLe (L.storeBytes (65536 * i.val + o) n), L)
  else (ofLe (L.storeBytes (65536 * i.val + o) n), L)
/-- A store that does not fault, to a target that is on. -/
def storeNow (who : Option Core) (w : BufWrite) (L : Lane) : Lane :=
  match placeOf w.addr with
  | .timer => L.timerStore w.addr w.data
  | .plic => L.plicStore (w.addr - 0x0C000000) w.data
  | .sram => L.sramWrite (sramAddr who w.addr) (leBytes w.size w.data)
  | .reg r => L.regWrite who r w.addr w.data
  | .slot i => (L.when (decide (w.addr % 0x10000 < 34008)) (slotDigestBytes i)).storeWrite (w.addr - 0x100000000) (leBytes w.size w.data)
  | .security | .store => L.storeWrite (w.addr - 0x100000000) (leBytes w.size w.data)
  | _ => L
/-- A load that does not fault, from a target that is on: the value and the lane afterwards. -/
def loadNow (who : Option Core) (a n : Nat) (L : Lane) : Nat × Lane :=
  match placeOf a with
  | .rom => (ofLe ((List.range n).map (fun i => romByte (a + i))), L)
  | .timer => (L.timerLoad a, L)
  | .plic => L.plicLoad (a - 0x0C000000)
  | .sram => (ofLe (L.sramBytes (sramAddr who a) n), L)
  | .reg _ =>
    if a = 0x20060000 then (L.regValue a, L.wr Reg.TS_NOW_FRAC (L.time.dev / 2 ^ 32 % 65536))
    else if 0x20100000 ≤ a ∧ a < 0x20110000 ∧ a % 0x4000 = 0xC then
      let L := L.dataAccess (Fin.ofNat 4 ((a - 0x20100000) / 0x4000)) none
      (L.regValue a, L)
    else if 0x20030000 ≤ a ∧ a < 0x20040000 then (L.regValue a, L.fcCheck a)
    else (L.regValue a, L)
  | .slot i => L.slotLoad i (a % 0x10000) n
  | .journal => (L.free .busValue % 2 ^ (8 * n), L.drawn)
  | .bitmap => (ofLe (L.bitmapBytes (a - 0x100040000) n), L)
  | .security | .banks | .store => (ofLe (L.storeBytes (a - 0x100000000) n), L)
  | .hole => (0, L)

/-! ### Accesses that wait for a domain (R26, R462, R464) -/

/-- The domain that an access meets asleep, or on its way there or back. -/
def asleep (L : Lane) (a : Nat) : Option (Fin 8) :=
  match domainOf a with
  | some d => if L.rd (pdFld d) = 0 then none else some d
  | none => none
/-- The initiator codes of R463. -/
def whoCode (who : Option Core) : Nat :=
  match who with
  | some c => if pairOf c = 0 then 4 else 5
  | none => 11
/-- The domain at which an initiator's earlier access waits. -/
def waitsAt (L : Lane) (who : Option Core) : Option (Fin 8) :=
  (List.finRange 8).find? (fun d => (vget L.power.dom d).stalled.any (fun x => decide (x.core = who)))
/-- An initiator's earlier access waits for a commit or for a slice (R39, R542). -/
def waitsCommit (L : Lane) (who : Option Core) : Bool := L.ret.stalled.any (fun x => decide (x.core = who))
/-- A store of `n` bytes at `a` stalls: it goes to the application area while a commit is under way (R39). -/
def commitHolds (L : Lane) (a n : Nat) : Bool :=
  L.is Reg.SYS_RET_STATUS_BUSY && decide (a < appBase + appLen) && decide (appBase < a + n)
/-- An access joins those that wait for a domain. -/
def enqueue (d : Fin 8) (x : Access) (L : Lane) : Lane := L.onDom d (fun y => { y with stalled := y.stalled ++ [x] })
/-- An access of `n` bytes at `a` stalls: a slice of target 0 holds its 4 KiB group of the SRAM (R542). -/
def groupHolds (L : Lane) (a n : Nat) : Bool :=
  let g := 0x10000000 + 4096 * vget L.test.units 0
  L.is Reg.BT_SLICE_STAT_RUNNING && decide (L.rd Reg.BT_SLICE_STAT_CURRENT = 0) && decide (a < g + 4096) && decide (g < a + n)
/-- An access joins those that wait for a commit or for a slice (R39, R542). -/
def enqueueCommit (x : Access) (L : Lane) : Lane := L.onRet (fun r => { r with stalled := r.stalled ++ [x] })
/-- An access stalls at a domain and is a wake event (R26, R462, R478). -/
def stall (d : Fin 8) (x : Access) (L : Lane) : Lane :=
  let st := L.rd (pdFld d)
  ((L.enqueue d x).when (decide (st = 2) || decide (st = 3)) (count (Reg.PD_STALL_WAKES d.val) 1)).pdWake d (whoCode x.core)
/-- The first reserved place of a replication buffer takes its value (R134). -/
def fillRepl (v : Nat) : List (Option Nat) → List (Option Nat)
  | [] => []
  | none :: t => some v :: t
  | x :: t => x :: fillRepl v t
/-- Where the value of a load goes: to its core and, where the load has reserved a place among its pair's replicated inputs, to the
other core as well; the debugger's stands in its data register (R134, R493). -/
def takeLoad (who : Option Core) (reserved : Bool) (v : Nat) (L : Lane) : Lane :=
  match who with
  | none => L.onDbg (fun d => { d with sbdata := v })
  | some c => (L.onCore c (fun x => { x with lastLoad := v })).when reserved (onPair (pairOf c) (fun p => { p with repl := fillRepl v p.repl }))
/-- An access is performed, or waits: behind an earlier access of the same initiator, for its domain, for the commit, or for the slice that
holds its group (R26, R39, R464, R542). -/
def perform (x : Access) (L : Lane) : Lane :=
  if L.waitsCommit x.core then L.enqueueCommit x
  else
    match L.waitsAt x.core, L.asleep x.w.addr with
    | some d, _ => L.enqueue d x
    | none, some d => L.stall d x
    | none, none =>
      if L.groupHolds x.w.addr x.w.size then L.enqueueCommit x
      else if x.store then (if L.commitHolds x.w.addr x.w.size then L.enqueueCommit x else L.storeNow x.core x.w)
      else
        let r := L.loadNow x.core x.w.addr x.w.size
        r.2.takeLoad x.core x.reserved r.1
/-- The accesses that waited for a commit or a slice go on as far as they may, in their order (R39, R542). -/
def unhold (L : Lane) : Lane :=
  match L.ret.stalled with
  | [] => L
  | xs => (L.onRet (fun r => { r with stalled := [] })).each xs perform
/-- A load, or a store, is performed or waits. -/
def busLoad (who : Option Core) (reserved : Bool) (a n : Nat) (L : Lane) : Lane := L.unhold.perform ⟨L.el, who, false, reserved, ⟨a, n, 0⟩⟩
/-- A store is performed or waits. -/
def busStore (who : Option Core) (w : BufWrite) (L : Lane) : Lane := L.unhold.perform ⟨L.el, who, true, false, w⟩
/-- A stalled access completes; its stall counts (R464, R478). -/
def unstall (d : Fin 8) (x : Access) (L : Lane) : Lane :=
  let us := min 65535 ((L.el - x.time) / 1000)
  (L.wr (Reg.PD_STALL_LONGEST d.val) (max us (L.rd (Reg.PD_STALL_LONGEST d.val)))).perform x
/-- A commit has completed; the accesses that waited for it go on, unless a held commit has begun in the same cycle (R39, R40). -/
def commitEnd (ok : Bool) (L : Lane) : Lane :=
  let L := L.commitDone ok
  L.unhold
/-- What CP_1 does when it is on again: from retention both cores go on after their WFI, from off they start as R143 says, with P_1's
checkpoint number kept (R465). -/
def coresAwake (fromOff : Bool) (L : Lane) : Lane :=
  if fromOff then
    let k := (vget L.core 2).ckpt
    let k' := (vget L.core 3).ckpt
    let cs : List Core :=
      if L.bitOf Reg.CM_STATUS_SINGLE 1 then (if L.bitOf Reg.CM_STATUS_SURVIVOR 1 then [3] else [2])
      else if L.haltedPair 1 then [] else [2, 3]
    let L := if cs = [] then L else L.release 1 cs
    (L.onCore 2 (fun c => { c with ckpt := k })).onCore 3 (fun c => { c with ckpt := k' })
  else
    L.each [2, 3] (fun c => onCore c (fun x => { x with run := if x.run = .wfi then .running else x.run }))
/-- A domain is on again: after a wake, or after an entry that was abandoned (R461, R464 to R466). -/
def wakeDone (d : Fin 8) (L : Lane) : Lane :=
  let st := L.rd (pdFld d)
  if st = 4 ∨ st = 5 then
    let y := vget L.power.dom d
    let off := decide (st = 4) && decide (y.fromState = 3)
    let L := (L.wr (pdFld d) 0).onDom d (fun x => { x with stalled := [] })
    let L := L.when (decide (d = 2) && off) (fun L => { L with engine := L.engine.map (fun (e : EngineSt) => { e with psTick := L.nowTick }) })
    let L := L.when (decide (d = 1)) (fun L => (L.coresAwake off).when ((vget L.dbg.haltreq 2) || (vget L.dbg.haltreq 3)) (fun L =>
      (L.split 1).haltAsked 1))
    let L := L.when (decide (d = 3)) (fun L => ({ L with power := { L.power with netWfi := false } }).when off isoStart)
    let L := L.when (decide (L.power.request = some (d, 0))) (pdEnd 0 0 0)
    L.each y.stalled (unstall d)
  else L

/-! ### A pair's output writes, input loads and checkpoints (R130 to R138, R144, R147) -/

/-- The core can execute: one that waits in WFI has been interrupted; one that runs the boot ROM does so in BOOT and RECOVERY (R30, R84). -/
def coreLive (L : Lane) (c : Core) : Bool :=
  decide ((vget L.core c).run = .rom) ||
    (L.firmware && (decide ((vget L.core c).run = .running) || decide ((vget L.core c).run = .wfi)) &&
      (decide (pairOf c = 0) || decide (L.rd (pdFld 1) = 0)))
/-- An access faults on its core (R5, R25). -/
def accessFault (c : Core) (L : Lane) : Lane := L.onCore c (fun x => { x with accessFault := true })
/-- Writes that a core's output buffer holds. -/
def occupancy (L : Lane) (c : Core) : Nat :=
  (vget L.core c).obuf.length + ((vget L.core c).marks.map (fun m => m.writes.length)).sum
/-- An output write leaves the pair: a store, or a reference, which only P_0 may write (R128, R132, R175). -/
def issueOut (c : Core) (w : OutWrite) (L : Lane) : Lane :=
  match w with
  | .bus w => L.busStore (some c) w
  | .ref r => L.p0Only (pairOf c) (sendRef r)
/-- The comparator takes the oldest checkpoint that both cores have marked (R137, R138, R139). -/
def compare (p : Pair) (L : Lane) : Lane :=
  match (vget L.core (evenCore p)).marks, (vget L.core (oddCore p)).marks with
  | a :: _, b :: _ =>
    if a.poisoned || b.poisoned || decide (a.sig ≠ b.sig) then L.mismatched p 0 a.num
    else if a.count ≠ b.count then L.mismatched p 1 a.num
    else if a.tag ≠ b.tag then L.mismatched p 2 a.num
    else
      let pop (x : CoreSt) : CoreSt := { x with marks := x.marks.tail }
      let L := ((((L.onCore (evenCore p) pop).onCore (oddCore p) pop)).sigReset (evenCore p)).sigReset (oddCore p)
      (L.wr (Reg.CM_NUM p.val) a.num).each a.writes (issueOut (evenCore p))
  | _, _ => L
/-- A paired core marks a checkpoint, where the pair takes a latched interrupt (R135, R137). -/
def mark (c : Core) (tag : Word) (L : Lane) : Lane :=
  let L := L.plicCheckAll
  let x := vget L.core c
  let num := (x.ckpt + 1) % 2 ^ 32
  let sig := if x.marked then sigInit else L.rd (Reg.CM_SIG c.val)
  let m : Mark := { time := L.el, num := num, sig := BitVec.ofNat 64 sig, count := x.count, tag := tag, poisoned := x.poison,
                    writes := x.obuf }
  let leads := decide ((vget L.core (partner c)).ckpt ≠ num)
  let L := (L.wr (Reg.CM_SIG c.val) sig).onCore c (fun x =>
    { x with ckpt := num, marks := x.marks ++ [m], obuf := [], count := 0, marked := true, poison := false })
  (L.takeIrq c leads num).compare (pairOf c)
/-- A write of CM_CKPT (R137, R144, R151). -/
def checkpoint (c : Core) (tag : Word) (L : Lane) : Lane :=
  if L.paired (pairOf c) then L.mark c (if tag = 0xFFFFFFFF then 0xFFFFFFFE else tag)
  else L.onCore c (fun x => { x with ckpt := (x.ckpt + 1) % 2 ^ 32 })
/-- The implicit checkpoint before the 129th output write of an interval (R133, R153). -/
def implicit (c : Core) (L : Lane) : Lane :=
  let p := pairOf c
  let leads := decide ((vget L.core (partner c)).ckpt ≠ ((vget L.core c).ckpt + 1) % 2 ^ 32)
  (L.when leads (count (if p = 0 then Reg.CM_OBUF_HIGH_IMP_0 else Reg.CM_OBUF_HIGH_IMP_1) 1)).mark c 0xFFFFFFFF
/-- An output write enters its core's buffer; a core whose buffer is full stalls: nothing happens until it can (R132, R133). -/
def buffer (c : Core) (w : OutWrite) (L : Lane) : Lane :=
  let p := pairOf c
  let L := if (vget L.core c).obuf.length = 128 then L.implicit c else L
  if !L.paired p || !L.coreLive c || decide (128 ≤ L.occupancy c) then L
  else
    let L := (L.onCore c (fun x => { x with obuf := x.obuf ++ [w], count := (x.count + 1) % 65536 })).sigTake c w.bytes
    let f := if p = 0 then Reg.CM_OBUF_HIGH_OCC_0 else Reg.CM_OBUF_HIGH_OCC_1
    L.wr f (max (L.rd f) (L.occupancy c))
/-- An output write of a core: held back and compared while its pair is PAIRED, discarded for the odd core of a pair that a debugger has
split, else issued (R131, R132, R144, R147). -/
def outWrite (c : Core) (w : OutWrite) (L : Lane) : Lane :=
  let p := pairOf c
  if L.paired p then L.buffer c w
  else if L.debugged p && isOdd c then L.count (discardFld p) 1
  else L.issueOut c w
/-- A core's store (R130 to R133, R144, R147). -/
def coreStore (c : Core) (w : BufWrite) (L : Lane) : Lane :=
  if !accessOk (some c) w.addr w.size true then L.accessFault c
  else if inWindow (pairOf c) w.addr then L.storeNow (some c) w
  else if w.addr = 0x20020010 then L.checkpoint c (BitVec.ofNat 32 w.data)
  else L.outWrite c (.bus w)
/-- Reads of counter CSRs are given as 2^64 plus the CSR's number (R131; log entry 51). -/
def csrAddr (a : Nat) : Option Nat := if 2 ^ 64 ≤ a then some (a - 2 ^ 64) else none
/-- The CSRs whose reads are replicated: cycle to hpmcounter31, mcycle to mhpmcounter31 (R131). -/
def csrOk (n : Nat) : Bool := (decide (0xC00 ≤ n) && decide (n < 0xC20)) || (decide (0xB00 ≤ n) && decide (n < 0xB20) && decide (n ≠ 0xB01))
/-- A load or a CSR read that reaches its target: `time` reads mtime, the other counters are not in the block. -/
def leadLoad (c : Core) (reserved : Bool) (a n : Nat) (L : Lane) : Lane :=
  match csrAddr a with
  | some k => if k = 0xC01 then L.takeLoad (some c) reserved (L.now / 1000) else L.drawn.takeLoad (some c) reserved (L.free .busValue % 2 ^ 64)
  | none => L.busLoad (some c) reserved a n
/-- An input load of a paired core counts and enters its signature (R134, R136). -/
def countLoad (c : Core) (a n : Nat) (L : Lane) : Lane :=
  (L.onCore c (fun x => { x with loads := x.loads + 1 })).sigTake c (leBytes 8 a ++ leBytes 1 n)
/-- An input load of a paired core: the leading one reserves its place in the replication buffer and performs it, the trailing one
receives the recorded value. A leading core that finds the buffer full stalls, and so does a core that waits for a value: nothing happens
until it can go on (R134). -/
def inputLoad (c : Core) (a n : Nat) (L : Lane) : Lane :=
  let p := pairOf c
  let y := vget L.pair p
  if y.repl.getLast? = some none ∧ y.replBase + y.repl.length ≤ (vget L.core c).loads then L
  else if y.replBase + y.repl.length ≤ (vget L.core c).loads then
    if 64 ≤ y.repl.length then L
    else ((L.countLoad c a n).onPair p (fun y => { y with repl := y.repl ++ [none] })).leadLoad c true a n
  else
    match y.repl with
    | some v :: rest =>
      ((L.onCore c (fun x => { x with lastLoad := v })).countLoad c a n).onPair p (fun y => { y with repl := rest, replBase := y.replBase + 1 })
    | _ => L
/-- A core's load (R130, R131, R134, R144, R147). -/
def coreLoad (c : Core) (a n : Nat) (L : Lane) : Lane :=
  let p := pairOf c
  let csr := (csrAddr a).any csrOk
  if !csr && !accessOk (some c) a n false then L.accessFault c
  else if !csr && (inWindow p a || decide (a < 0x40000)) then
    let v := (L.loadNow (some c) a n).1
    L.onCore c (fun x => { x with lastLoad := v })
  else if L.paired p then L.inputLoad c a n
  else L.leadLoad c false a n
/-- A core that executes is awake, and its last access did not fault so far. -/
def coreRuns (c : Core) (L : Lane) : Lane := L.onCore c (fun x => { x with run := if x.run = .rom then .rom else .running, accessFault := false })

end Lane

/-! ### The commands -/

/-- REGISTER_WRITE: a core's write as it reaches the register (R5 to R9, R25, R26). -/
def execRegisterWrite (l : LaneId) (core : Core) (addr size data : Nat) (s : State) : Host.Outcome State Fault Refusal :=
  onLane l (fun L => L.when (L.coreLive core) (fun L =>
    let L := L.coreRuns core
    if !accessOk (some core) addr size true then L.accessFault core
    else if addr = 0x20020010 then L.checkpoint core (BitVec.ofNat 32 data)
    else L.busStore (some core) ⟨addr, size, data⟩)) s

/-- PAIRED_OUTPUT_WRITE: a core's store (R130 to R133, R136, R144, R147). -/
def execPairedOutputWrite (l : LaneId) (core : Core) (addr size data : Nat) (s : State) : Host.Outcome State Fault Refusal :=
  onLane l (fun L => L.when (L.coreLive core) (fun L => (L.coreRuns core).coreStore core ⟨addr, size, data⟩)) s

/-- LL_REFERENCE_WRITE: a core writes a reference; a paired core's is held back and compared like its other output writes (R128, R131,
R175). -/
def execLlReferenceWrite (l : LaneId) (core : Core) (r : RefRecord) (s : State) : Host.Outcome State Fault Refusal :=
  onLane l (fun L => L.when (L.coreLive core) (fun L => (L.coreRuns core).outWrite core (.ref r))) s

/-- RETAINED_COMMIT_COMPLETE: the commit in flight is over; the accesses that waited for it go on (R39, R40). -/
def execRetainedCommitComplete (l : LaneId) (dt : Nat) (ok : Bool) (s : State) : Host.Outcome State Fault Refusal :=
  onLane l (fun L => (L.pass dt).commitEnd ok) s

/-- PAIRED_INPUT_LOAD: a core's load (R130, R131, R134, R136, R144, R147). -/
def execPairedInputLoad (l : LaneId) (core : Core) (addr size : Nat) (s : State) : Host.Outcome State Fault Refusal :=
  onLane l (fun L => L.when (L.coreLive core) (fun L => (L.coreRuns core).coreLoad core addr size)) s

/-- CM_CKPT_WRITE: a core marks a checkpoint (R137, R138, R144, R151). -/
def execCmCkptWrite (l : LaneId) (core : Core) (tag : Word) (s : State) : Host.Outcome State Fault Refusal :=
  onLane l (fun L => L.when (L.coreLive core) (fun L => (L.coreRuns core).checkpoint core tag)) s

/-- PD_WAKE_COMPLETE: a domain is on again and the accesses that waited complete in order (R464 to R466). -/
def execPdWakeComplete (l : LaneId) (dt : Nat) (dom : Fin 8) (s : State) : Host.Outcome State Fault Refusal :=
  onLane l (fun L => (L.pass dt).wakeDone dom) s

/-- MTIMECMP_REACHED: mtime reaches mtimecmp of a hart (R400, R462). -/
def execMtimecmpReached (l : LaneId) (dt : Nat) (hart : Core) (s : State) : Host.Outcome State Fault Refusal :=
  onLane l (fun L =>
    let L := L.pass dt
    L.when L.firmware (Lane.timerCheck hart)) s

/-- TIME_STEP_INSTANT: device time has reached the announced instant and steps; a timer interrupt that the step passes is pending at once
(R400, R408). -/
def execTimeStepInstant (l : LaneId) (dt : Nat) (s : State) : Host.Outcome State Fault Refusal :=
  onLane l (fun L =>
    let L := L.pass dt
    match L.time.step with
    | some d => L.when (decide (d.2 ≤ L.now)) (fun L =>
        (L.takeStep d.1 d.2).when L.firmware (fun L => L.each [0, 1, 2, 3] Lane.timerCheck))
    | none => L) s

end Sys2Proof.Machine
end

