-- ==== Sys2Proof/Machine/Access.lean ====
section
/-! DEFINITION. The accesses that the table lists as commands of their own, to blocks whose power domain can be asleep: an access to one
that is not on stalls until it is, and then completes as the store or the load that it is (R26, R462, R464): rows DE_MBOX_DB to
DE_CTRL_SEAL, DE_OVR_RSTMIN, CS_CAL_START, GD_TEST_START, GD_ZDIAG_START, SZ_CTRL_EN_WRITE, SLAZ_BUFFER_READY, TP_MODE_WRITE, BT_FUSE_GO,
BT_TEST_SLICE, BT_TEST_ANALOG and AG_RUN_GO of the table. -/

namespace Sys2Proof.Machine

namespace Lane

/-- An access of a core at an address takes effect now, or stalls where the block's domain is not on or an earlier access of the core
waits (R26). -/
def reach (core : Core) (a : Nat) (stalls now : Lane → Lane) (L : Lane) : Lane :=
  L.when (L.coreLive core) (fun L =>
    let L := L.coreRuns core
    if L.waitsCommit (some core) || (L.waitsAt (some core)).isSome || (L.asleep a).isSome then stalls L else now L)
/-- A write of a register by a core, of which `now` is the effect (R26). -/
def reachWrite (core : Core) (a : Nat) (v : Lane → Nat) (now : Lane → Lane) (L : Lane) : Lane :=
  L.reach core a (fun L => L.busStore (some core) ⟨a, 4, v L⟩) now

end Lane

/-- DE_MBOX_DB: a doorbell copies the words and raises MBX (R164). -/
def execDeMboxDb (l : LaneId) (core : Core) (n : Engine) (s : State) : Host.Outcome State Fault Refusal :=
  onLane l (Lane.reachWrite core (0x20100140 + 0x4000 * n.val) (fun _ => 1) (Lane.doorbell n)) s

/-- DE_DATA_ACCESS: an access to DE_DATA, a write where a word is given (R162). -/
def execDeDataAccess (l : LaneId) (core : Core) (n : Engine) (data : Option Word) (s : State) : Host.Outcome State Fault Refusal :=
  let a := 0x2010000C + 0x4000 * n.val
  onLane l (Lane.reach core a (fun L =>
    match data with
    | some v => L.busStore (some core) ⟨a, 4, v.toNat⟩
    | none => L.busLoad (some core) false a 4) (Lane.dataAccess n data)) s

/-- DE_CTRL_RUN: a write of 1 to DE_CTRL.RUN (R163). -/
def execDeCtrlRun (l : LaneId) (core : Core) (n : Engine) (s : State) : Host.Outcome State Fault Refusal :=
  onLane l (Lane.reachWrite core (0x20100000 + 0x4000 * n.val) (fun _ => 1) (Lane.run n)) s

/-- DE_CTRL_HALT: a write of 0 to DE_CTRL.RUN halts a running engine with HALT 7 (R161, R179). -/
def execDeCtrlHalt (l : LaneId) (core : Core) (n : Engine) (s : State) : Host.Outcome State Fault Refusal :=
  onLane l (Lane.reachWrite core (0x20100000 + 0x4000 * n.val) (fun _ => 0) (fun L =>
    L.when (L.is (Reg.DE_CTRL_RUN n.val)) (Lane.halt n 7))) s

/-- DE_CTRL_SEAL: a write of 1 to DE_CTRL.SEAL (R163). -/
def execDeCtrlSeal (l : LaneId) (core : Core) (n : Engine) (s : State) : Host.Outcome State Fault Refusal :=
  onLane l (Lane.reachWrite core (0x20100000 + 0x4000 * n.val) (fun L => 2 + L.rd (Reg.DE_CTRL_RUN n.val)) (Lane.sealIm n)) s

/-- DE_OVR_RSTMIN: a write of RSTMIN sets SLACK_MIN to 0xFFFF (R188). -/
def execDeOvrRstmin (l : LaneId) (core : Core) (n : Engine) (s : State) : Host.Outcome State Fault Refusal :=
  let a := 0x20100054 + 0x4000 * n.val
  onLane l (Lane.reachWrite core a (fun L => Nat.lor (L.regValue a) 0x10000) (Lane.wr (Reg.DE_BUDGET_SLACK_MIN n.val) 0xFFFF)) s

/-- CS_CAL_START: a START of a calibration (R207). -/
def execCsCalStart (l : LaneId) (core : Core) (p : Port) (src : Fin 4) (s : State) : Host.Outcome State Fault Refusal :=
  onLane l (Lane.reachWrite core (0x20150014 + 0x40 * p.val) (fun _ => 4 + src.val) (Lane.calStart p src.val)) s

/-- GD_TEST_START: a write of 1 to GD_TEST.START (R298). -/
def execGdTestStart (l : LaneId) (core : Core) (s : State) : Host.Outcome State Fault Refusal :=
  onLane l (Lane.reachWrite core 0x201600C0 (fun _ => 1) Lane.testStart) s

/-- GD_ZDIAG_START: a write of START; `linkOk` says that x_VDC is at least 10 V (R299, R309). -/
def execGdZdiagStart (l : LaneId) (core : Core) (linkOk : Bool) (s : State) : Host.Outcome State Fault Refusal :=
  onLane l (Lane.reachWrite core 0x201600D0 (fun L => 4 + L.rd Reg.GD_ZDIAG_PORT) (Lane.zStart linkOk)) s

/-- SZ_CTRL_EN_WRITE: a write of EN_X or EN_Y (R382). -/
def execSzCtrlEnWrite (l : LaneId) (core : Core) (c : Fin 2) (en : Bool) (s : State) : Host.Outcome State Fault Refusal :=
  onLane l (Lane.reachWrite core 0x20070000
    (fun L =>
      let v := L.regValue 0x20070000
      v - 2 ^ c.val * b2n (nbit v c.val) + 2 ^ c.val * b2n en) (Lane.szEnable c en)) s

/-- SLAZ_BUFFER_READY: READY of a TX buffer is set; ignored for an RX buffer (R376, R397). -/
def execSlazBufferReady (l : LaneId) (core : Core) (c : Fin 2) (b : Fin 64) (s : State) : Host.Outcome State Fault Refusal :=
  let f := Reg.SZ_BST_READY c.val b.val
  onLane l (Lane.reachWrite core f.reg (fun L => Nat.lor (L.regValue f.reg) (2 ^ f.lo)) (fun L =>
    L.when (L.bufTx c b.val) (Lane.set1 f))) s

/-- TP_MODE_WRITE: a write of TP_CFG_n (R416 to R419). -/
def execTpModeWrite (l : LaneId) (core : Core) (n : Fin 4) (v : Word) (s : State) : Host.Outcome State Fault Refusal :=
  onLane l (Lane.reachWrite core (0x20060100 + 0x20 * n.val) (fun _ => v.toNat) (Lane.pulseConfig n v.toNat)) s

/-- BT_FUSE_GO: a write of BT_FUSE with GO (R541). -/
def execBtFuseGo (l : LaneId) (core : Core) (v : Word) (s : State) : Host.Outcome State Fault Refusal :=
  onLane l (Lane.reachWrite core 0x200D0024 (fun _ => Nat.lor v.toNat 0x10000000)
    (Lane.fuseWrite (Nat.lor v.toNat 0x10000000))) s

/-- BT_TEST_SLICE: in TEST a slice of a target runs (R547). -/
def execBtTestSlice (l : LaneId) (core : Core) (target : Nat) (s : State) : Host.Outcome State Fault Refusal :=
  onLane l (Lane.reachWrite core 0x200D0050 (fun _ => 8 + target % 8) (Lane.testSlice (target % 8))) s

/-- BT_TEST_ANALOG: in TEST step 4 of the Solstice test runs again (R547). -/
def execBtTestAnalog (l : LaneId) (core : Core) (s : State) : Host.Outcome State Fault Refusal :=
  onLane l (Lane.reachWrite core 0x200D0050 (fun _ => 16) Lane.testAnalog) s

/-- AG_RUN_GO: a write of GO processes the pending records (R548). -/
def execAgRunGo (l : LaneId) (core : Core) (s : State) : Host.Outcome State Fault Refusal :=
  onLane l (Lane.reachWrite core 0x200E0000 (fun _ => 1) Lane.agGo) s

end Sys2Proof.Machine
end

