-- ==== Sys2Proof/Machine/Debug.lean ====
section
/-! DEFINITION. The JTAG port and the debug module (R147, R148, R493 to R501): rows DEBUG_HALT_REQUEST to DEBUG_SYSBUS_ACCESS,
DEBUG_RESUME_REQUEST and EXTEST to BYPASS of the table. The fields of the debug module interface are those of the RISC-V External
Debug Support specification 0.13.2, which R493 names (log entry 52). -/

namespace Sys2Proof.Machine

namespace Lane

/-! ### What a debugger may do (R494, R497, R498, R501) -/

/-- The debugger has a scope: 0 CORE, 1 BUS, 2 WAKE, 4 SEC (R496, R497). -/
def scope (L : Lane) (bit : Nat) : Bool := L.tokenOpen && L.bitOf Reg.SE_DBG_SCOPE bit
/-- The power domain of a hart is on; CP_0 always is (R497). -/
def hartOn (L : Lane) (c : Core) : Bool := decide (pairOf c = 0) || decide (L.rd (pdFld 1) = 0)
/-- A hart is found unavailable (R148, R498). -/
def hartUnavail (c : Core) (L : Lane) : Lane := L.onDbg (fun d => { d with unavail := vupd d.unavail c (fun _ => true) })
/-- The hart can be debugged: not halted for good, held in reset or out of a single pair (R148). -/
def hartThere (L : Lane) (c : Core) : Bool :=
  (L.firmware || decide (L.start.phase = .recovery)) && !L.haltedPair (pairOf c) && decide ((vget L.core c).run ≠ .stopped) && decide ((vget L.core c).run ≠ .reset)
/-- The command that a debugger has given to a hart is carried out on the pair: it is split at once, or when its self-test has ended
(R147, R148). -/
def seizePair (p : Pair) (L : Lane) : Lane :=
  let L := L.when (L.is Reg.BT_SLICE_STAT_RUNNING && decide (p = 1) && decide (L.rd Reg.BT_SLICE_STAT_CURRENT = 2)) sliceAbort
  if L.selfTesting p then L.onPair p (fun x => { x with debugWaits := true }) else (L.split p).haltAsked p
/-- A halt request to a hart (R147, R148, R497, R498). -/
def haltRequest (c : Core) (L : Lane) : Lane :=
  let ask (L : Lane) : Lane :=
    L.onDbg (fun d => { d with haltreq := vupd d.haltreq c (fun _ => true), unavail := vupd d.unavail c (fun _ => false),
                               resumeack := vupd d.resumeack c (fun _ => false) })
  if !L.scope 0 || !L.hartThere c then L.hartUnavail c
  else if L.hartOn c then (ask L).seizePair (pairOf c)
  else if L.scope 2 then (ask L).pdWake 1 11
  else L.hartUnavail c
/-- A resume request: the hart goes on; its pair stays split (R147, R500). -/
def resumeRequest (c : Core) (L : Lane) : Lane :=
  if !L.scope 0 || !L.hartThere c then L
  else
    (L.onCore c (fun x => { x with run := if x.run = .debugHalted then .running else x.run })).onDbg (fun d =>
      { d with haltreq := vupd d.haltreq c (fun _ => false), resumeack := vupd d.resumeack c (fun _ => true) })
/-- An abstract command ends with an error, unless an earlier one still stands. -/
def cmdFail (e : Nat) (L : Lane) : Lane := L.onDbg (fun d => { d with cmderr := if d.cmderr = 0 then e else d.cmderr })
/-- The register that an abstract command names, in a halted core: an integer or floating-point register, dpc, or the mode in dcsr
(log entry 52); of other CSRs the block holds nothing. -/
def coreReg (L : Lane) (c : Core) (n : Nat) : Option Nat :=
  let x := vget L.core c
  if 0x1000 ≤ n ∧ n < 0x1020 then some (vget x.x (Fin.ofNat 32 n)).toNat
  else if 0x1020 ≤ n ∧ n < 0x1040 then some (vget x.f (Fin.ofNat 32 n)).toNat
  else if n = 0x7B1 then some x.pc.toNat
  else if n = 0x7B0 then some (2 ^ 30 + x.mode)
  else none
/-- An abstract command writes the register that it names. -/
def coreRegSet (c : Core) (n v : Nat) (L : Lane) : Lane :=
  if 0x1000 < n ∧ n < 0x1020 then L.onCore c (fun x => { x with x := vupd x.x (Fin.ofNat 32 n) (fun _ => BitVec.ofNat 64 v) })
  else if 0x1020 ≤ n ∧ n < 0x1040 then L.onCore c (fun x => { x with f := vupd x.f (Fin.ofNat 32 n) (fun _ => BitVec.ofNat 64 v) })
  else if n = 0x7B1 then L.onCore c (fun x => { x with pc := BitVec.ofNat 64 v })
  else if n = 0x7B0 then L.onCore c (fun x => { x with mode := v % 4 })
  else L
/-- The two data words of an abstract command as one number. -/
def absData (L : Lane) : Nat := (vget L.dbg.data 0).toNat + 2 ^ 32 * (vget L.dbg.data 1).toNat
/-- A value goes to the data words of an abstract command, of which a 32-bit access has only the first. -/
def absPut (wide : Bool) (v : Nat) (L : Lane) : Lane :=
  L.onDbg (fun d =>
    let x := d.data.set 0 (BitVec.ofNat 32 v)
    { d with data := if wide then x.set 1 (BitVec.ofNat 32 (v / 2 ^ 32)) else x })
/-- An abstract command is carried out in a halted core: access register with its transfer and, where it asks for it, the program buffer,
which leaves free values in the core; other command types are not supported (log entry 52). -/
def absRun (c : Core) (cmd : Word) (L : Lane) : Lane :=
  let w := cmd.toNat
  let n := nbits w 0 16
  let wide := decide (nbits w 20 3 = 3)
  if nbits w 24 8 ≠ 0 ∨ (nbits w 20 3 ≠ 2 ∧ !wide) ∨ (0x1040 ≤ n ∧ nbit w 17) then L.cmdFail 2
  else
    let L :=
      if !nbit w 17 then L
      else if nbit w 16 then
        L.coreRegSet c n (if wide then L.absData else ((L.coreReg c n).getD 0) / 2 ^ 32 * 2 ^ 32 + (vget L.dbg.data 0).toNat)
      else
        match L.coreReg c n with
        | some v => L.absPut wide v
        | none => L.drawn.absPut wide (L.free .busValue)
    L.when (nbit w 18) (coreFree c)
/-- An abstract command on a hart: it splits the pair; on a hart that is not halted or not available it ends with cmderr 4, else it is
carried out in the core (R147, R148, R498). -/
def abstractCommand (c : Core) (cmd : Word) (L : Lane) : Lane :=
  if !L.scope 0 || !L.hartThere c || (!L.hartOn c && !L.scope 2) then (L.hartUnavail c).cmdFail 4
  else
    let L := if L.hartOn c then L.seizePair (pairOf c) else L.pdWake 1 11
    if (vget L.core c).run = .debugHalted then L.absRun c cmd else L.cmdFail 4

/-! ### The system bus (R498, R501) -/

/-- Blocks to which a debugger may not write outside MANUFACTURE (R501). -/
def busProtected (a : Nat) : Bool :=
  [0x2018, 0x2001, 0x2017, 0x2002, 0x2003, 0x200B].contains (a / 0x10000) || decide (placeOf a = .security)
/-- SE_REQ_c_k and SE_RSP_c_k (R501). -/
def mailbox (a : Nat) : Bool := decide (0x200B0100 ≤ a) && decide (a < 0x200B0600)
/-- A bus access ends with an error. -/
def busError (e : Nat) (L : Lane) : Lane := L.onDbg (fun d => { d with sberror := e })
/-- The slice under way tests what an address reaches: a group of lane SRAM or a drive engine (R544). -/
def sliceHolds (L : Lane) (a : Nat) : Bool :=
  L.is Reg.BT_SLICE_STAT_RUNNING &&
    ((decide (L.rd Reg.BT_SLICE_STAT_CURRENT = 0) && decide (0x10000000 ≤ a) &&
        decide ((a - 0x10000000) / 4096 = vget L.test.units 0)) ||
      (decide (L.rd Reg.BT_SLICE_STAT_CURRENT = 3) && decide (0x20100000 ≤ a) &&
        decide ((a - 0x20100000) / 0x4000 = vget L.test.units 3)))
/-- A system-bus access of 4 or 8 bytes: a store of `data`, or a load into the bus data register (R493, R497, R498, R501). -/
def sysbus (a n : Nat) (data : Option Nat) (L : Lane) : Lane :=
  if !L.scope 1 then L.busError 7
  else if data.isSome && !L.inManufacture && busProtected a then L.busError 7
  else if n ≠ 4 ∧ n ≠ 8 then L.busError 4
  else if a % n ≠ 0 then L.busError 3
  else if !accessOk none a n data.isSome then L.busError 2
  else if (L.asleep a).isSome && !L.scope 2 then L.busError 7
  else
    let L := L.when (L.sliceHolds a) sliceAbort
    match data with
    | some v => L.busStore none ⟨a, n, v % 2 ^ (8 * n)⟩
    | none => if mailbox a && !L.inManufacture then L.onDbg (fun d => { d with sbdata := 0 }) else L.busLoad none false a n

/-! ### The debug module interface (R493 to R495) -/

/-- A read of dmcontrol. -/
def dmControl (L : Lane) : Nat :=
  b2n L.dbg.dmactive + 2 ^ 16 * (L.dbg.hartsel % 1024) + 2 ^ 6 * (L.dbg.hartsel / 1024 % 1024)
/-- The selected hart among the application cores. -/
def selected (L : Lane) : Option Core := if h : L.dbg.hartsel < 4 then some ⟨L.dbg.hartsel, h⟩ else none
/-- A read of dmstatus: authbusy and authenticated in every state, the selected hart's state in token-open (R494, R495). -/
def dmStatus (L : Lane) : Nat :=
  let base := 2 + 2 ^ 6 * b2n L.sec.tokenCheck + 2 ^ 7 * b2n L.tokenOpen
  let st (halted running unavail missing ack : Bool) : Nat :=
    base + 3 * 2 ^ 8 * b2n halted + 3 * 2 ^ 10 * b2n running + 3 * 2 ^ 12 * b2n unavail + 3 * 2 ^ 14 * b2n missing + 3 * 2 ^ 16 * b2n ack
  if !L.tokenOpen then base
  else
    match L.selected with
    | some c =>
      let un := vget L.dbg.unavail c || !L.hartThere c
      let halted := decide ((vget L.core c).run = .debugHalted)
      st (!un && halted) (!un && !halted) un false (vget L.dbg.resumeack c)
    | none => if L.dbg.hartsel = 16 then st L.dbg.secHalted (!L.dbg.secHalted) false false false else st false false false true false
/-- A read of abstractcs: eight words of program buffer, twelve of data. -/
def abstractCs (L : Lane) : Nat := 8 * 2 ^ 24 + L.dbg.cmderr * 2 ^ 8 + 12
/-- A read of sbcs: 32-bit and 64-bit accesses (R493). -/
def sbCs (L : Lane) : Nat :=
  let d := L.dbg
  2 ^ 29 + 2 ^ 20 * b2n d.sbReadOnAddr + 2 ^ 17 * d.sbaccess + 2 ^ 16 * b2n d.sbAutoIncrement + 2 ^ 15 * b2n d.sbReadOnData +
    2 ^ 12 * d.sberror + 2 ^ 5 * 64 + 12
/-- A bus access that the debug module starts: none while an error stands; the address steps on after it. -/
def dmBus (data : Option Nat) (L : Lane) : Lane :=
  if L.dbg.sberror ≠ 0 then L
  else
    let n := 2 ^ L.dbg.sbaccess
    let L := L.sysbus L.dbg.sbaddr n data
    if L.dbg.sbAutoIncrement ∧ L.dbg.sberror = 0 then L.onDbg (fun d => { d with sbaddr := (d.sbaddr + n) % 2 ^ 64 }) else L
/-- A read of a DMI register: while closed, every register but dmcontrol.dmactive, dmstatus and authdata reads 0 (R494). -/
def dmiRead (a : Nat) (L : Lane) : Lane :=
  let d := L.dbg
  if a = 0x30 then L.authRead
  else if a = 0x11 then L.send (.tdo L.dmStatus)
  else if !L.tokenOpen then L.send (.tdo (if a = 0x10 then b2n d.dmactive else 0))
  else if a = 0x3C then
    (L.send (.tdo (d.sbdata % 2 ^ 32))).when d.sbReadOnData (dmBus none)
  else
    L.send (.tdo (
      if h : 4 ≤ a ∧ a < 16 then (d.data[a - 4]'(by omega)).toNat
      else if a = 0x10 then L.dmControl
      else if a = 0x13 then b2n (L.core.toList.any (fun c => decide (c.run = .debugHalted)))
      else if a = 0x40 then (List.finRange 4).foldl (fun v c => v + 2 ^ c.val * b2n (decide ((vget L.core c).run = .debugHalted))) 0
      else if a = 0x16 then L.abstractCs
      else if h : 0x20 ≤ a ∧ a < 0x28 then (d.progbuf[a - 0x20]'(by omega)).toNat
      else if a = 0x38 then L.sbCs
      else if a = 0x39 then d.sbaddr % 2 ^ 32
      else if a = 0x3A then d.sbaddr / 2 ^ 32
      else if a = 0x3D then d.sbdata / 2 ^ 32
      else 0))
/-- A write of authdata: 1 asks for a nonce, 2 closes, a word after the first of a token belongs to the token (R495, R500). -/
def authWrite (w : Word) (L : Lane) : Lane :=
  if L.sec.tokenWords = [] ∧ w = 1 then L.authChallenge
  else if L.sec.tokenWords = [] ∧ w = 2 then L.closeDebug
  else L.authWord w
/-- A write of dmcontrol: with dmactive 0 the debug module takes its reset state; else a halt or a resume request to the selected hart,
hart 16 only in scope SEC (R493, R496). -/
def dmControlWrite (v : Nat) (L : Lane) : Lane :=
  if !nbit v 0 then L.onDbg (fun d => { Init.dbg with ir := d.ir })
  else
    let L := L.onDbg (fun d => { d with dmactive := true })
    if !L.tokenOpen then L
    else
      let h := nbits v 16 10 + 1024 * nbits v 6 10
      let L := L.onDbg (fun d => { d with hartsel := h })
      match L.selected with
      | some c =>
        if nbit v 31 then L.haltRequest c
        else
          let L := L.onDbg (fun d => { d with haltreq := vupd d.haltreq c (fun _ => false) })
          if nbit v 30 then L.resumeRequest c else L
      | none =>
        if h = 16 ∧ L.scope 4 then
          (if nbit v 31 then L.onDbg (fun d => { d with secHalted := true })
           else L.when (nbit v 30) (onDbg (fun d => { d with secHalted := false })))
        else L
/-- A write of a DMI register; while closed only dmcontrol.dmactive and authdata take one (R494). -/
def dmiWrite (a : Nat) (w : Word) (L : Lane) : Lane :=
  let v := w.toNat
  if a = 0x30 then L.authWrite w
  else if a = 0x10 then L.dmControlWrite v
  else if !L.tokenOpen then L
  else if h : 4 ≤ a ∧ a < 16 then L.onDbg (fun d => { d with data := d.data.set (a - 4) w (by omega) })
  else if h : 0x20 ≤ a ∧ a < 0x28 then L.onDbg (fun d => { d with progbuf := d.progbuf.set (a - 0x20) w (by omega) })
  else if a = 0x16 then L.onDbg (fun d => { d with cmderr := d.cmderr - Nat.land d.cmderr (nbits v 8 3) })
  else if a = 0x17 then
    match L.selected with
    | some c => if L.dbg.cmderr = 0 then L.abstractCommand c w else L
    | none => if L.dbg.hartsel = 16 ∧ L.scope 4 ∧ L.dbg.secHalted then L else L.cmdFail 4
  else if a = 0x38 then
    L.onDbg (fun d =>
      { d with sbReadOnAddr := nbit v 20, sbaccess := nbits v 17 3, sbAutoIncrement := nbit v 16, sbReadOnData := nbit v 15,
               sberror := d.sberror - Nat.land d.sberror (nbits v 12 3) })
  else if a = 0x39 then
    (L.onDbg (fun d => { d with sbaddr := d.sbaddr / 2 ^ 32 * 2 ^ 32 + v })).when L.dbg.sbReadOnAddr (dmBus none)
  else if a = 0x3A then L.onDbg (fun d => { d with sbaddr := d.sbaddr % 2 ^ 32 + 2 ^ 32 * v })
  else if a = 0x3C then
    let x := L.dbg.sbdata / 2 ^ 32 * 2 ^ 32 + v
    (L.onDbg (fun d => { d with sbdata := x })).dmBus (some x)
  else if a = 0x3D then L.onDbg (fun d => { d with sbdata := d.sbdata % 2 ^ 32 + 2 ^ 32 * v })
  else L

/-! ### JTAG instructions (R493) -/

/-- The instruction register takes a code. -/
def irLoad (code : Nat) (L : Lane) : Lane := L.onDbg (fun d => { d with ir := code })
/-- BYPASS: the bypass register captures 0. -/
def bypass (L : Lane) : Lane := L.send (.tdo 0)
/-- The identification code: stepping, 0x0961, 0x4F3, 1. -/
def idcode (L : Lane) : Nat := 2 ^ 28 * (L.stepping % 16) + 2 ^ 12 * 0x0961 + 2 * 0x4F3 + 1
/-- dtmcs of a 0.13 transport with no error standing; abits and idle are not stated (log entry 52). -/
def dtmCs : Nat :=
  1 + 2 ^ 4 * ((Config.freeOf .unstated [1001]).toNat % 64) + 2 ^ 12 * ((Config.freeOf .unstated [1002]).toNat % 8)

end Lane

/-! ### The commands -/

/-- DEBUG_HALT_REQUEST: a debugger halts or steps a core (R147, R148, R497, R498, R544). -/
def execDebugHaltRequest (l : LaneId) (core : Core) (s : State) : Host.Outcome State Fault Refusal :=
  onLane l (fun L => L.when L.powered (Lane.haltRequest core)) s

/-- DEBUG_ABSTRACT_COMMAND: an abstract command on a hart (R147, R148, R498). -/
def execDebugAbstractCommand (l : LaneId) (core : Core) (cmd : Word) (s : State) : Host.Outcome State Fault Refusal :=
  onLane l (fun L => L.when L.powered (Lane.abstractCommand core cmd)) s

/-- DEBUG_SYSBUS_ACCESS: a system-bus access of the debugger (R493, R497, R498, R501). -/
def execDebugSysbusAccess (l : LaneId) (addr size : Nat) (data : Option Nat) (s : State) : Host.Outcome State Fault Refusal :=
  onLane l (fun L => L.when L.powered (Lane.sysbus addr size data)) s

/-- DEBUG_RESUME_REQUEST: a halted hart goes on (R147, R500). -/
def execDebugResumeRequest (l : LaneId) (core : Core) (s : State) : Host.Outcome State Fault Refusal :=
  onLane l (fun L => L.when L.powered (Lane.resumeRequest core)) s

/-- EXTEST: BYPASS outside MANUFACTURE (R493); the boundary register is outside the block. -/
def execJtagExtest (l : LaneId) (s : State) : Host.Outcome State Fault Refusal :=
  onLane l (fun L => L.when L.powered (fun L => (L.irLoad 0x00).when (!L.inManufacture) Lane.bypass)) s

/-- IDCODE (R493). -/
def execJtagIdcode (l : LaneId) (s : State) : Host.Outcome State Fault Refusal :=
  onLane l (fun L => L.when L.powered (fun L => (L.irLoad 0x01).send (.tdo L.idcode))) s

/-- SAMPLE/PRELOAD: BYPASS outside MANUFACTURE (R493). -/
def execJtagSamplePreload (l : LaneId) (s : State) : Host.Outcome State Fault Refusal :=
  onLane l (fun L => L.when L.powered (fun L => (L.irLoad 0x02).when (!L.inManufacture) Lane.bypass)) s

/-- DTMCS (R493). -/
def execJtagDtmcs (l : LaneId) (s : State) : Host.Outcome State Fault Refusal :=
  onLane l (fun L => L.when L.powered (fun L => (L.irLoad 0x10).send (.tdo Lane.dtmCs))) s

/-- DMI: a read of a register of the debug module, or a write of `data` (R493 to R495). -/
def execJtagDmi (l : LaneId) (addr : Nat) (data : Option Word) (s : State) : Host.Outcome State Fault Refusal :=
  onLane l (fun L => L.when L.powered (fun L =>
    match data with
    | some w => (L.irLoad 0x11).dmiWrite addr w
    | none => (L.irLoad 0x11).dmiRead addr)) s

/-- BYPASS: any other code of the instruction register (R493). -/
def execJtagBypass (l : LaneId) (s : State) : Host.Outcome State Fault Refusal :=
  onLane l (fun L => L.when L.powered (fun L => (L.irLoad 0x1F).bypass)) s

end Sys2Proof.Machine
end

