-- ==== Sys2Proof/Machine/Dispatch.lean ====
section
/-! DEFINITION. One arm for every command: the meaning it calls. -/

namespace Sys2Proof.Machine

def exec (i : Instr) (s : State) : Host.Outcome State Fault Refusal :=
  match i with
  | .lanePowerOnReset l recoveryLow => Sys2Proof.Machine.execLanePowerOnReset l recoveryLow s
  | .romSelfCheckDone l pass => Sys2Proof.Machine.execRomSelfCheckDone l pass s
  | .signatureCheckDone l bank unwrapOk => Sys2Proof.Machine.execSignatureCheckDone l bank unwrapOk s
  | .solsticeTestDone l r => Sys2Proof.Machine.execSolsticeTestDone l r s
  | .imageVerificationDone l => Sys2Proof.Machine.execImageVerificationDone l s
  | .sysRetCommit l => Sys2Proof.Machine.execSysRetCommit l s
  | .retainedCommitComplete l dt ok => Sys2Proof.Machine.execRetainedCommitComplete l dt ok s
  | .autumnCommitTimer l dt => Sys2Proof.Machine.execAutumnCommitTimer l dt s
  | .sysFeatLock l => Sys2Proof.Machine.execSysFeatLock l s
  | .statusFrameSend l => Sys2Proof.Machine.execStatusFrameSend l s
  | .statusFrameRx l sd f => Sys2Proof.Machine.execStatusFrameRx l sd f s
  | .electionGatherTimeout l dt => Sys2Proof.Machine.execElectionGatherTimeout l dt s
  | .armAutoStart l => Sys2Proof.Machine.execArmAutoStart l s
  | .sysArmWrite l => Sys2Proof.Machine.execSysArmWrite l s
  | .dcLinkAtArmVdc l => Sys2Proof.Machine.execDcLinkAtArmVdc l s
  | .prechargeTimeout l dt => Sys2Proof.Machine.execPrechargeTimeout l dt s
  | .gateChainEnableTimeout l dt => Sys2Proof.Machine.execGateChainEnableTimeout l dt s
  | .voteFrameTx l => Sys2Proof.Machine.execVoteFrameTx l s
  | .voteFrameRx l sd line0 line1 => Sys2Proof.Machine.execVoteFrameRx l sd line0 line1 s
  | .voteInputLost l dt sd => Sys2Proof.Machine.execVoteInputLost l dt sd s
  | .roleAccuseCodeWrite l pair code => Sys2Proof.Machine.execRoleAccuseCodeWrite l pair code s
  | .roleRotatePropose l pair rotate => Sys2Proof.Machine.execRoleRotatePropose l pair rotate s
  | .minorityAccusationTimeout l dt f => Sys2Proof.Machine.execMinorityAccusationTimeout l dt f s
  | .twoLaneDisagreementTimeout l dt f => Sys2Proof.Machine.execTwoLaneDisagreementTimeout l dt f s
  | .outerLoopRelease l dt f steerRate brakeRate a => Sys2Proof.Machine.execOuterLoopRelease l dt f steerRate brakeRate a s
  | .llReferenceWrite l core r => Sys2Proof.Machine.execLlReferenceWrite l core r s
  | .referenceRx l sd r => Sys2Proof.Machine.execReferenceRx l sd r s
  | .referenceWatchdogExpiry l dt f => Sys2Proof.Machine.execReferenceWatchdogExpiry l dt f s
  | .statusFrameTimeout l dt sd => Sys2Proof.Machine.execStatusFrameTimeout l dt sd s
  | .holdLimitExpiry l dt f => Sys2Proof.Machine.execHoldLimitExpiry l dt f s
  | .equinoxDue l dt => Sys2Proof.Machine.execEquinoxDue l dt s
  | .equinoxGiveUp l dt f => Sys2Proof.Machine.execEquinoxGiveUp l dt f s
  | .autumnTimerExpiry l dt f => Sys2Proof.Machine.execAutumnTimerExpiry l dt f s
  | .winterStandstill l dt speedKnown => Sys2Proof.Machine.execWinterStandstill l dt speedKnown s
  | .autumnCauseClearTimer l dt f cause => Sys2Proof.Machine.execAutumnCauseClearTimer l dt f cause s
  | .speedRequestTimer l dt f => Sys2Proof.Machine.execSpeedRequestTimer l dt f s
  | .supplyLossTimeout l dt => Sys2Proof.Machine.execSupplyLossTimeout l dt s
  | .hostLossTimeout l dt => Sys2Proof.Machine.execHostLossTimeout l dt s
  | .roleClrWrite l pair mask => Sys2Proof.Machine.execRoleClrWrite l pair mask s
  | .pairedOutputWrite l core addr size data => Sys2Proof.Machine.execPairedOutputWrite l core addr size data s
  | .pairedInputLoad l core addr size => Sys2Proof.Machine.execPairedInputLoad l core addr size s
  | .cmCkptWrite l core tag => Sys2Proof.Machine.execCmCkptWrite l core tag s
  | .checkpointLagTimeout l dt pair => Sys2Proof.Machine.execCheckpointLagTimeout l dt pair s
  | .coreSelfTestDone l dt pair evenPass oddPass => Sys2Proof.Machine.execCoreSelfTestDone l dt pair evenPass oddPass s
  | .uncorrectableCacheError l core => Sys2Proof.Machine.execUncorrectableCacheError l core s
  | .debugHaltRequest l core => Sys2Proof.Machine.execDebugHaltRequest l core s
  | .debugAbstractCommand l core cmd => Sys2Proof.Machine.execDebugAbstractCommand l core cmd s
  | .debugSysbusAccess l addr size data => Sys2Proof.Machine.execDebugSysbusAccess l addr size data s
  | .deNop l n => Sys2Proof.Machine.execDeNop l n s
  | .deAdd l n rd ra rb => Sys2Proof.Machine.execDeAdd l n rd ra rb s
  | .deSub l n rd ra rb => Sys2Proof.Machine.execDeSub l n rd ra rb s
  | .deAnd l n rd ra rb => Sys2Proof.Machine.execDeAnd l n rd ra rb s
  | .deOr l n rd ra rb => Sys2Proof.Machine.execDeOr l n rd ra rb s
  | .deXor l n rd ra rb => Sys2Proof.Machine.execDeXor l n rd ra rb s
  | .deSll l n rd ra rb => Sys2Proof.Machine.execDeSll l n rd ra rb s
  | .deSrl l n rd ra rb => Sys2Proof.Machine.execDeSrl l n rd ra rb s
  | .deSra l n rd ra rb => Sys2Proof.Machine.execDeSra l n rd ra rb s
  | .deSlt l n rd ra rb => Sys2Proof.Machine.execDeSlt l n rd ra rb s
  | .deSltu l n rd ra rb => Sys2Proof.Machine.execDeSltu l n rd ra rb s
  | .deMin l n rd ra rb => Sys2Proof.Machine.execDeMin l n rd ra rb s
  | .deMax l n rd ra rb => Sys2Proof.Machine.execDeMax l n rd ra rb s
  | .deMul l n rd ra rb => Sys2Proof.Machine.execDeMul l n rd ra rb s
  | .deAddi l n rd ra imm => Sys2Proof.Machine.execDeAddi l n rd ra imm s
  | .deAndi l n rd ra imm => Sys2Proof.Machine.execDeAndi l n rd ra imm s
  | .deOri l n rd ra imm => Sys2Proof.Machine.execDeOri l n rd ra imm s
  | .deXori l n rd ra imm => Sys2Proof.Machine.execDeXori l n rd ra imm s
  | .deLui l n rd imm => Sys2Proof.Machine.execDeLui l n rd imm s
  | .deSlli l n rd ra sh => Sys2Proof.Machine.execDeSlli l n rd ra sh s
  | .deSrli l n rd ra sh => Sys2Proof.Machine.execDeSrli l n rd ra sh s
  | .deSrai l n rd ra sh => Sys2Proof.Machine.execDeSrai l n rd ra sh s
  | .deLd l n rd ra imm => Sys2Proof.Machine.execDeLd l n rd ra imm s
  | .deSt l n rd ra imm => Sys2Proof.Machine.execDeSt l n rd ra imm s
  | .deInp l n rd port => Sys2Proof.Machine.execDeInp l n rd port s
  | .deOutp l n rd port => Sys2Proof.Machine.execDeOutp l n rd port s
  | .deWait l n rd mask => Sys2Proof.Machine.execDeWait l n rd mask s
  | .waitResume l n => Sys2Proof.Machine.execWaitResume l n s
  | .deBeq l n ra rb off => Sys2Proof.Machine.execDeBeq l n ra rb off s
  | .deBne l n ra rb off => Sys2Proof.Machine.execDeBne l n ra rb off s
  | .deBlt l n ra rb off => Sys2Proof.Machine.execDeBlt l n ra rb off s
  | .deBge l n ra rb off => Sys2Proof.Machine.execDeBge l n ra rb off s
  | .deJ l n off => Sys2Proof.Machine.execDeJ l n off s
  | .deJal l n off => Sys2Proof.Machine.execDeJal l n off s
  | .deJr l n ra => Sys2Proof.Machine.execDeJr l n ra s
  | .deHalt l n => Sys2Proof.Machine.execDeHalt l n s
  | .deFadd l n rd ra rb => Sys2Proof.Machine.execDeFadd l n rd ra rb s
  | .deFsub l n rd ra rb => Sys2Proof.Machine.execDeFsub l n rd ra rb s
  | .deFmul l n rd ra rb => Sys2Proof.Machine.execDeFmul l n rd ra rb s
  | .deFma l n rd ra rb => Sys2Proof.Machine.execDeFma l n rd ra rb s
  | .deFmin l n rd ra rb => Sys2Proof.Machine.execDeFmin l n rd ra rb s
  | .deFmax l n rd ra rb => Sys2Proof.Machine.execDeFmax l n rd ra rb s
  | .deFneg l n rd ra => Sys2Proof.Machine.execDeFneg l n rd ra s
  | .deFabs l n rd ra => Sys2Proof.Machine.execDeFabs l n rd ra s
  | .deFlt l n rd ra rb => Sys2Proof.Machine.execDeFlt l n rd ra rb s
  | .deFtoi l n rd ra => Sys2Proof.Machine.execDeFtoi l n rd ra s
  | .deItof l n rd ra => Sys2Proof.Machine.execDeItof l n rd ra s
  | .deFtoq l n rd ra f => Sys2Proof.Machine.execDeFtoq l n rd ra f s
  | .deQtof l n rd ra f => Sys2Proof.Machine.execDeQtof l n rd ra f s
  | .deQmul l n rd ra rb f => Sys2Proof.Machine.execDeQmul l n rd ra rb f s
  | .deQadd l n rd ra rb => Sys2Proof.Machine.execDeQadd l n rd ra rb s
  | .deQsub l n rd ra rb => Sys2Proof.Machine.execDeQsub l n rd ra rb s
  | .deSincos l n rd ra => Sys2Proof.Machine.execDeSincos l n rd ra s
  | .deAtan2 l n rd ra rb => Sys2Proof.Machine.execDeAtan2 l n rd ra rb s
  | .deRecip l n rd ra => Sys2Proof.Machine.execDeRecip l n rd ra s
  | .deRsqrt l n rd ra => Sys2Proof.Machine.execDeRsqrt l n rd ra s
  | .deSqrt l n rd ra => Sys2Proof.Machine.execDeSqrt l n rd ra s
  | .deCommit l n rd dt => Sys2Proof.Machine.execDeCommit l n rd dt s
  | .bridgeWrite l n rd => Sys2Proof.Machine.execBridgeWrite l n rd s
  | .deTimerSet l n rd => Sys2Proof.Machine.execDeTimerSet l n rd s
  | .deTimerExpiry l n dt => Sys2Proof.Machine.execDeTimerExpiry l n dt s
  | .mbPost l n rd => Sys2Proof.Machine.execMbPost l n rd s
  | .svCmdWrite l sv rd => Sys2Proof.Machine.execSvCmdWrite l sv rd s
  | .chopReqWrite l rd => Sys2Proof.Machine.execChopReqWrite l rd s
  | .deMboxDb l core n => Sys2Proof.Machine.execDeMboxDb l core n s
  | .deDataAccess l core n data => Sys2Proof.Machine.execDeDataAccess l core n data s
  | .deCtrlRun l core n => Sys2Proof.Machine.execDeCtrlRun l core n s
  | .deCtrlHalt l core n => Sys2Proof.Machine.execDeCtrlHalt l core n s
  | .deCtrlSeal l core n => Sys2Proof.Machine.execDeCtrlSeal l core n s
  | .deImcrcDone l n => Sys2Proof.Machine.execDeImcrcDone l n s
  | .deOvrRstmin l core n => Sys2Proof.Machine.execDeOvrRstmin l core n s
  | .pwmPeriodStart l n dt => Sys2Proof.Machine.execPwmPeriodStart l n dt s
  | .carrierPeak l n dt => Sys2Proof.Machine.execCarrierPeak l n dt s
  | .carrierUnlockTimeout l dt => Sys2Proof.Machine.execCarrierUnlockTimeout l dt s
  | .samplePoint l p k dt adc => Sys2Proof.Machine.execSamplePoint l p k dt adc s
  | .csCalStart l core p src => Sys2Proof.Machine.execCsCalStart l core p src s
  | .csCalDone l p mean => Sys2Proof.Machine.execCsCalDone l p mean s
  | .generalAdcConversion l code => Sys2Proof.Machine.execGeneralAdcConversion l code s
  | .qeCountingEdge l n dt a b heldA heldB => Sys2Proof.Machine.execQeCountingEdge l n dt a b heldA heldB s
  | .qeQualifiedIndex l n dt a b heldA heldB heldZ => Sys2Proof.Machine.execQeQualifiedIndex l n dt a b heldA heldB heldZ s
  | .qeWireDisagreement l n line => Sys2Proof.Machine.execQeWireDisagreement l n line s
  | .qeSpeedEval l n dt => Sys2Proof.Machine.execQeSpeedEval l n dt s
  | .resolverSample l dt sine cosine => Sys2Proof.Machine.execResolverSample l dt sine cosine s
  | .resolverExcitationFault l => Sys2Proof.Machine.execResolverExcitationFault l s
  | .sentFrameRx l sd f => Sys2Proof.Machine.execSentFrameRx l sd f s
  | .sentTimeout l dt sd => Sys2Proof.Machine.execSentTimeout l dt sd s
  | .sensorRecordRx l sd r => Sys2Proof.Machine.execSensorRecordRx l sd r s
  | .positionVote l p => Sys2Proof.Machine.execPositionVote l p s
  | .motorSupervisorEval l p => Sys2Proof.Machine.execMotorSupervisorEval l p s
  | .lockedRotorTimeout l dt p => Sys2Proof.Machine.execLockedRotorTimeout l dt p s
  | .desatTrip l b => Sys2Proof.Machine.execDesatTrip l b s
  | .focTrip l p => Sys2Proof.Machine.execFocTrip l p s
  | .turnOffStage1End l b => Sys2Proof.Machine.execTurnOffStage1End l b s
  | .uvloFallingCrossing l k => Sys2Proof.Machine.execUvloFallingCrossing l k s
  | .uvloRisingCrossing l k => Sys2Proof.Machine.execUvloRisingCrossing l k s
  | .chopperOnCrossing l => Sys2Proof.Machine.execChopperOnCrossing l s
  | .chopperOffCrossing l => Sys2Proof.Machine.execChopperOffCrossing l s
  | .ovTripCrossing l above => Sys2Proof.Machine.execOvTripCrossing l above s
  | .ovAscCrossing l above => Sys2Proof.Machine.execOvAscCrossing l above s
  | .chopperCheckTimeout l bci => Sys2Proof.Machine.execChopperCheckTimeout l bci s
  | .ascLowSideOn l dt p => Sys2Proof.Machine.execAscLowSideOn l dt p s
  | .svShortTrip l dt sv => Sys2Proof.Machine.execSvShortTrip l dt sv s
  | .svShortRetry l dt sv => Sys2Proof.Machine.execSvShortRetry l dt sv s
  | .svOpenLoad l dt sv mean => Sys2Proof.Machine.execSvOpenLoad l dt sv mean s
  | .gdTestStart l core => Sys2Proof.Machine.execGdTestStart l core s
  | .gdTestDone l res0 res1 => Sys2Proof.Machine.execGdTestDone l res0 res1 s
  | .gdZdiagStart l core linkOk => Sys2Proof.Machine.execGdZdiagStart l core linkOk s
  | .gdZdiagDone l u v w => Sys2Proof.Machine.execGdZdiagDone l u v w s
  | .gateRequestLost l p => Sys2Proof.Machine.execGateRequestLost l p s
  | .guardSupplyRise l => Sys2Proof.Machine.execGuardSupplyRise l s
  | .guardSupplyFall l => Sys2Proof.Machine.execGuardSupplyFall l s
  | .guardKpOpenDelay l dt => Sys2Proof.Machine.execGuardKpOpenDelay l dt s
  | .challengeIssue l => Sys2Proof.Machine.execChallengeIssue l s
  | .lgAnswerWrite l pair n a dt => Sys2Proof.Machine.execLgAnswerWrite l pair n a dt s
  | .challengeWindowClose l => Sys2Proof.Machine.execChallengeWindowClose l s
  | .firstAnswerTimeout l dt => Sys2Proof.Machine.execFirstAnswerTimeout l dt s
  | .selfTestAllowanceTimeout l dt => Sys2Proof.Machine.execSelfTestAllowanceTimeout l dt s
  | .contactorMirrorChange l dt kmNo kmNc kpNo kpNc => Sys2Proof.Machine.execContactorMirrorChange l dt kmNo kmNc kpNo kpNc s
  | .contactorMismatchTimeout l dt kp => Sys2Proof.Machine.execContactorMismatchTimeout l dt kp s
  | .ckwMissingEdge l => Sys2Proof.Machine.execCkwMissingEdge l s
  | .rcMissingEdge l => Sys2Proof.Machine.execRcMissingEdge l s
  | .ckwWindowClose l count => Sys2Proof.Machine.execCkwWindowClose l count s
  | .clkgoodTimer l dt => Sys2Proof.Machine.execClkgoodTimer l dt s
  | .lgRearmWrite l pair v => Sys2Proof.Machine.execLgRearmWrite l pair v s
  | .lgWdWrite l pair v => Sys2Proof.Machine.execLgWdWrite l pair v s
  | .lgKmoff l pair => Sys2Proof.Machine.execLgKmoff l pair s
  | .parkTimerExpiry l dt => Sys2Proof.Machine.execParkTimerExpiry l dt s
  | .faultSourceFire l src cores => Sys2Proof.Machine.execFaultSourceFire l src cores s
  | .fcStickyWrite l n v => Sys2Proof.Machine.execFcStickyWrite l n v s
  | .fcParityScan l => Sys2Proof.Machine.execFcParityScan l s
  | .fcInjGo l src => Sys2Proof.Machine.execFcInjGo l src s
  | .fcInjParity l => Sys2Proof.Machine.execFcInjParity l s
  | .laneLinkSilence l dt sd => Sys2Proof.Machine.execLaneLinkSilence l dt sd s
  | .slazWindowStart l dt c window idle => Sys2Proof.Machine.execSlazWindowStart l dt c window idle s
  | .slazArbitratingOffer l dt c window idle => Sys2Proof.Machine.execSlazArbitratingOffer l dt c window idle s
  | .slazOwnFrameComplete l dt c since acked => Sys2Proof.Machine.execSlazOwnFrameComplete l dt c since acked s
  | .slazFrameRx l dt c since f => Sys2Proof.Machine.execSlazFrameRx l dt c since f s
  | .slazReferenceFrameRx l dt c since rank payload => Sys2Proof.Machine.execSlazReferenceFrameRx l dt c since rank payload s
  | .slazWindowEnd l dt c window => Sys2Proof.Machine.execSlazWindowEnd l dt c window s
  | .slazCycleEnd l dt c => Sys2Proof.Machine.execSlazCycleEnd l dt c s
  | .slazBackupAttempt l dt c busFree => Sys2Proof.Machine.execSlazBackupAttempt l dt c busFree s
  | .slazListenTimeout l dt c => Sys2Proof.Machine.execSlazListenTimeout l dt c s
  | .slazSyncTimeout l dt c => Sys2Proof.Machine.execSlazSyncTimeout l dt c s
  | .slazReferenceMiss l c => Sys2Proof.Machine.execSlazReferenceMiss l c s
  | .slazErrorFrame l c tec rec => Sys2Proof.Machine.execSlazErrorFrame l c tec rec s
  | .slazBusOff l c => Sys2Proof.Machine.execSlazBusOff l c s
  | .slazBusOffRecovered l c => Sys2Proof.Machine.execSlazBusOffRecovered l c s
  | .szCtrlEnWrite l core c en => Sys2Proof.Machine.execSzCtrlEnWrite l core c en s
  | .slazBufferReady l core c b => Sys2Proof.Machine.execSlazBufferReady l core c b s
  | .timeFrameSend l dt => Sys2Proof.Machine.execTimeFrameSend l dt s
  | .timeFrameRx l dt sd f => Sys2Proof.Machine.execTimeFrameRx l dt sd f s
  | .agreementEnter l dt sd => Sys2Proof.Machine.execAgreementEnter l dt sd s
  | .agreementTimeout l dt sd => Sys2Proof.Machine.execAgreementTimeout l dt sd s
  | .timeStepInstant l dt => Sys2Proof.Machine.execTimeStepInstant l dt s
  | .ptpSyncRx l origin trx corr gm seq logSync => Sys2Proof.Machine.execPtpSyncRx l origin trx corr gm seq logSync s
  | .ptpAnnounceRx l gm slave => Sys2Proof.Machine.execPtpAnnounceRx l gm slave s
  | .ptpPdelayReqTimer l dt => Sys2Proof.Machine.execPtpPdelayReqTimer l dt s
  | .ptpPdelayReqRx l seq trx => Sys2Proof.Machine.execPtpPdelayReqRx l seq trx s
  | .ptpPdelayRespRx l seq t2 t3 t4 ratio => Sys2Proof.Machine.execPtpPdelayRespRx l seq t2 t3 t4 ratio s
  | .combinedOffsetDecision l dt => Sys2Proof.Machine.execCombinedOffsetDecision l dt s
  | .ptpSyncTimeout l dt => Sys2Proof.Machine.execPtpSyncTimeout l dt s
  | .tsJumpAccept l => Sys2Proof.Machine.execTsJumpAccept l s
  | .tsJumpReject l => Sys2Proof.Machine.execTsJumpReject l s
  | .tsJumpResume l => Sys2Proof.Machine.execTsJumpResume l s
  | .tsNowRead l => Sys2Proof.Machine.execTsNowRead l s
  | .tpModeWrite l core n v => Sys2Proof.Machine.execTpModeWrite l core n v s
  | .tpPulseStart l n dt => Sys2Proof.Machine.execTpPulseStart l n dt s
  | .tpPulseEnd l n dt => Sys2Proof.Machine.execTpPulseEnd l n dt s
  | .hostFrameRx l f => Sys2Proof.Machine.execHostFrameRx l f s
  | .hostSessionTimeout l dt h => Sys2Proof.Machine.execHostSessionTimeout l dt h s
  | .hostFeatOffer l k => Sys2Proof.Machine.execHostFeatOffer l k s
  | .hostFeatAccept l k set => Sys2Proof.Machine.execHostFeatAccept l k set s
  | .hostChallenge l k => Sys2Proof.Machine.execHostChallenge l k s
  | .hostOpen l k nonce sig => Sys2Proof.Machine.execHostOpen l k nonce sig s
  | .hostHeartbeat l k => Sys2Proof.Machine.execHostHeartbeat l k s
  | .hostEngage l k f => Sys2Proof.Machine.execHostEngage l k f s
  | .hostDisengage l k f => Sys2Proof.Machine.execHostDisengage l k f s
  | .hostSteerSet l k angle valid => Sys2Proof.Machine.execHostSteerSet l k angle valid s
  | .hostBrakeSet l k demand valid => Sys2Proof.Machine.execHostBrakeSet l k demand valid s
  | .hostTrailSet l k demand valid => Sys2Proof.Machine.execHostTrailSet l k demand valid s
  | .hostParkSet l k apply => Sys2Proof.Machine.execHostParkSet l k apply s
  | .hostArm l k => Sys2Proof.Machine.execHostArm l k s
  | .hostStatusGet l k => Sys2Proof.Machine.execHostStatusGet l k s
  | .hostFaultGet l k => Sys2Proof.Machine.execHostFaultGet l k s
  | .hostAttestReq l k nonce => Sys2Proof.Machine.execHostAttestReq l k nonce s
  | .hostTimeJump l k act => Sys2Proof.Machine.execHostTimeJump l k act s
  | .hostAutumnClr l k mask => Sys2Proof.Machine.execHostAutumnClr l k mask s
  | .hostTest l k => Sys2Proof.Machine.execHostTest l k s
  | .hostPdEnter l k dom target => Sys2Proof.Machine.execHostPdEnter l k dom target s
  | .hostPdWake l k dom => Sys2Proof.Machine.execHostPdWake l k dom s
  | .hostPdStatus l k => Sys2Proof.Machine.execHostPdStatus l k s
  | .hostPdAcctGet l k => Sys2Proof.Machine.execHostPdAcctGet l k s
  | .hqPop l q => Sys2Proof.Machine.execHqPop l q s
  | .hqPush l q => Sys2Proof.Machine.execHqPush l q s
  | .isobusAddressClaimedRx l src name request => Sys2Proof.Machine.execIsobusAddressClaimedRx l src name request s
  | .isobusCommandedAddress l name addr => Sys2Proof.Machine.execIsobusCommandedAddress l name addr s
  | .isobusRequestRx l src dst pgn => Sys2Proof.Machine.execIsobusRequestRx l src dst pgn s
  | .trailerBrakeRequest l src demand valid engage => Sys2Proof.Machine.execTrailerBrakeRequest l src demand valid engage s
  | .isobusOpenMessage l h src nonce sig => Sys2Proof.Machine.execIsobusOpenMessage l h src nonce sig s
  | .recoveryDescriptor l src d => Sys2Proof.Machine.execRecoveryDescriptor l src d s
  | .dm1Timer l dt => Sys2Proof.Machine.execDm1Timer l dt s
  | .steeringStateBroadcast l dt angle rate => Sys2Proof.Machine.execSteeringStateBroadcast l dt angle rate s
  | .isobusBusOff l => Sys2Proof.Machine.execIsobusBusOff l s
  | .ethernetLinkDown l => Sys2Proof.Machine.execEthernetLinkDown l s
  | .pdReqGo l v => Sys2Proof.Machine.execPdReqGo l v s
  | .pdWakeCommand l dom origin => Sys2Proof.Machine.execPdWakeCommand l dom origin s
  | .pdEntryStepEnd l dom => Sys2Proof.Machine.execPdEntryStepEnd l dom s
  | .pdWfiTimeout l dt dom => Sys2Proof.Machine.execPdWfiTimeout l dt dom s
  | .pdWakeEvent l dom who => Sys2Proof.Machine.execPdWakeEvent l dom who s
  | .pdWakeComplete l dt dom => Sys2Proof.Machine.execPdWakeComplete l dt dom s
  | .pdAcctclr l => Sys2Proof.Machine.execPdAcctclr l s
  | .ckFmStart l v => Sys2Proof.Machine.execCkFmStart l v s
  | .ckFmWindowClose l count => Sys2Proof.Machine.execCkFmWindowClose l count s
  | .ckFmStop l win v => Sys2Proof.Machine.execCkFmStop l win v s
  | .pllLockLoss l k => Sys2Proof.Machine.execPllLockLoss l k s
  | .seInfo l c pair len => Sys2Proof.Machine.execSeInfo l c pair len s
  | .seIdGen l c pair len => Sys2Proof.Machine.execSeIdGen l c pair len s
  | .seIdPub l c pair len => Sys2Proof.Machine.execSeIdPub l c pair len s
  | .seIdCert l c pair len => Sys2Proof.Machine.execSeIdCert l c pair len s
  | .seSign l c pair len => Sys2Proof.Machine.execSeSign l c pair len s
  | .seVerify l c pair len => Sys2Proof.Machine.execSeVerify l c pair len s
  | .seHash l c pair len => Sys2Proof.Machine.execSeHash l c pair len s
  | .seRandom l c pair len => Sys2Proof.Machine.execSeRandom l c pair len s
  | .seAttest l c pair len => Sys2Proof.Machine.execSeAttest l c pair len s
  | .seDbgChal l c pair len => Sys2Proof.Machine.execSeDbgChal l c pair len s
  | .seDbgOpen l c pair len => Sys2Proof.Machine.execSeDbgOpen l c pair len s
  | .seDbgClose l c pair len => Sys2Proof.Machine.execSeDbgClose l c pair len s
  | .seLcAdvance l c pair len => Sys2Proof.Machine.execSeLcAdvance l c pair len s
  | .seKeyRevoke l c pair len => Sys2Proof.Machine.execSeKeyRevoke l c pair len s
  | .seKeyProg l c pair len => Sys2Proof.Machine.execSeKeyProg l c pair len s
  | .seCommandComplete l c => Sys2Proof.Machine.execSeCommandComplete l c s
  | .entropyHealthFail l => Sys2Proof.Machine.execEntropyHealthFail l s
  | .tamperBreach l => Sys2Proof.Machine.execTamperBreach l s
  | .authdataChallenge l => Sys2Proof.Machine.execAuthdataChallenge l s
  | .authdataTokenWord l w => Sys2Proof.Machine.execAuthdataTokenWord l w s
  | .authdataClose l => Sys2Proof.Machine.execAuthdataClose l s
  | .authdataRead l => Sys2Proof.Machine.execAuthdataRead l s
  | .debugTokenCheckDone l => Sys2Proof.Machine.execDebugTokenCheckDone l s
  | .debugOpenTimerExpiry l dt => Sys2Proof.Machine.execDebugOpenTimerExpiry l dt s
  | .jtagExtest l => Sys2Proof.Machine.execJtagExtest l s
  | .jtagIdcode l => Sys2Proof.Machine.execJtagIdcode l s
  | .jtagSamplePreload l => Sys2Proof.Machine.execJtagSamplePreload l s
  | .jtagDtmcs l => Sys2Proof.Machine.execJtagDtmcs l s
  | .jtagDmi l addr data => Sys2Proof.Machine.execJtagDmi l addr data s
  | .jtagBypass l => Sys2Proof.Machine.execJtagBypass l s
  | .updBegin l k digest chunks delta => Sys2Proof.Machine.execUpdBegin l k digest chunks delta s
  | .updData l k chunk frag data => Sys2Proof.Machine.execUpdData l k chunk frag data s
  | .updStatus l k => Sys2Proof.Machine.execUpdStatus l k s
  | .updAbort l k => Sys2Proof.Machine.execUpdAbort l k s
  | .updActivate l k => Sys2Proof.Machine.execUpdActivate l k s
  | .updInfo l k => Sys2Proof.Machine.execUpdInfo l k s
  | .updPause l k pause => Sys2Proof.Machine.execUpdPause l k pause s
  | .forwardedChunkRx l sd chunk data => Sys2Proof.Machine.execForwardedChunkRx l sd chunk data s
  | .updateApplyCheckpoint l part mib => Sys2Proof.Machine.execUpdateApplyCheckpoint l part mib s
  | .updateApplyDone l storeOk => Sys2Proof.Machine.execUpdateApplyDone l storeOk s
  | .preparedTimeout l dt => Sys2Proof.Machine.execPreparedTimeout l dt s
  | .updateRestart l => Sys2Proof.Machine.execUpdateRestart l s
  | .trialTimeout l dt => Sys2Proof.Machine.execTrialTimeout l dt s
  | .recoveryPackageBuilt l => Sys2Proof.Machine.execRecoveryPackageBuilt l s
  | .btFuseGo l core v => Sys2Proof.Machine.execBtFuseGo l core v s
  | .btFuseDone l => Sys2Proof.Machine.execBtFuseDone l s
  | .sliceSchedulerTick l dt => Sys2Proof.Machine.execSliceSchedulerTick l dt s
  | .sliceDone l pass addr evenPass oddPass => Sys2Proof.Machine.execSliceDone l pass addr evenPass oddPass s
  | .btTestSlice l core target => Sys2Proof.Machine.execBtTestSlice l core target s
  | .btTestAnalog l core => Sys2Proof.Machine.execBtTestAnalog l core s
  | .agRunGo l core => Sys2Proof.Machine.execAgRunGo l core s
  | .ageingRunDone l => Sys2Proof.Machine.execAgeingRunDone l s
  | .registerWrite l core addr size data => Sys2Proof.Machine.execRegisterWrite l core addr size data s
  | .illegalInstruction l n => Sys2Proof.Machine.execIllegalInstruction l n s
  | .mtimecmpReached l dt hart => Sys2Proof.Machine.execMtimecmpReached l dt hart s
  | .debugResumeRequest l core => Sys2Proof.Machine.execDebugResumeRequest l core s
  | .wfi l core => Sys2Proof.Machine.execWfi l core s
  | .clockEdgesResume l rc => Sys2Proof.Machine.execClockEdgesResume l rc s
  | .ethernetLinkUp l speed => Sys2Proof.Machine.execEthernetLinkUp l speed s
  | .transportProtocolCmRx l m => Sys2Proof.Machine.execTransportProtocolCmRx l m s
  | .v5outOvertemperature l => Sys2Proof.Machine.execV5outOvertemperature l s
  | .v5outRetry l dt => Sys2Proof.Machine.execV5outRetry l dt s
  | .laneDieResetRelease l dt => Sys2Proof.Machine.execLaneDieResetRelease l dt s
  | .floorFusesBlown l => Sys2Proof.Machine.execFloorFusesBlown l s
  | .analogRerunDone l r res0 res1 => Sys2Proof.Machine.execAnalogRerunDone l r res0 res1 s

end Sys2Proof.Machine
end

