-- ==== Sys2Proof/Machine/Tick.lean ====
section
/-! DEFINITION. The tick of the block, which a step takes when no command waits (R24, R312, R399, R400). -/

namespace Sys2Proof.Machine

/-- A tick of a lane's 25 MHz crystal: 40 ns pass, the gate outputs follow what is asked of them, accesses held by a
commit or a slice that has ended go on, and the timer and external interrupts of
every hart follow (log entries 18, 66, 85). -/
def Lane.tick (L : Lane) : Lane :=
  let L := (L.pass 40).gateFollowAll.unhold
  L.when L.firmware (fun L => (L.each [0, 1, 2, 3] Lane.timerCheck).plicCheckAll)

/-- A tick: every lane that has supply ticks. -/
def State.tick (s : State) : State :=
  { s with a := s.a.when s.a.powered Lane.tick, b := s.b.when s.b.powered Lane.tick, c := s.c.when s.c.powered Lane.tick }

end Sys2Proof.Machine
end

