-- ==== Sys2Proof/Safety.lean ====
section
/-! DEFINITION. What statements are made of: the lane a command acts on, what a command does, what reactions may change, and the
invariant of the device. -/

namespace Sys2Proof.Machine

/-- What holds of a lane in every state that steps lead to: it is the lane of its letter, and its register file, its SRAM and
its STORE window are in the one canonical form, so that equal contents are equal data. -/
structure Lane.Inv (l : LaneId) (L : Lane) : Prop where
  id : L.id = l
  regs : Tab.wf 0 L.regs = true
  sram : Tab.wf 0 L.sram = true
  store : Tab.wf 0 L.store = true

/-- The invariant of the device: every lane keeps its own. -/
structure State.Inv (s : State) : Prop where
  a : s.a.Inv .a
  b : s.b.Inv .b
  c : s.c.Inv .c

/-- The lane that a command acts on (R18, R27). -/
def laneOf : Instr → LaneId
  | .lanePowerOnReset l _ => l
  | .romSelfCheckDone l _ => l
  | .signatureCheckDone l _ _ => l
  | .solsticeTestDone l _ => l
  | .imageVerificationDone l => l
  | .sysRetCommit l => l
  | .retainedCommitComplete l _ _ => l
  | .autumnCommitTimer l _ => l
  | .sysFeatLock l => l
  | .statusFrameSend l => l
  | .statusFrameRx l _ _ => l
  | .electionGatherTimeout l _ => l
  | .armAutoStart l => l
  | .sysArmWrite l => l
  | .dcLinkAtArmVdc l => l
  | .prechargeTimeout l _ => l
  | .gateChainEnableTimeout l _ => l
  | .voteFrameTx l => l
  | .voteFrameRx l _ _ _ => l
  | .voteInputLost l _ _ => l
  | .roleAccuseCodeWrite l _ _ => l
  | .roleRotatePropose l _ _ => l
  | .minorityAccusationTimeout l _ _ => l
  | .twoLaneDisagreementTimeout l _ _ => l
  | .outerLoopRelease l _ _ _ _ _ => l
  | .llReferenceWrite l _ _ => l
  | .referenceRx l _ _ => l
  | .referenceWatchdogExpiry l _ _ => l
  | .statusFrameTimeout l _ _ => l
  | .holdLimitExpiry l _ _ => l
  | .equinoxDue l _ => l
  | .equinoxGiveUp l _ _ => l
  | .autumnTimerExpiry l _ _ => l
  | .winterStandstill l _ _ => l
  | .autumnCauseClearTimer l _ _ _ => l
  | .speedRequestTimer l _ _ => l
  | .supplyLossTimeout l _ => l
  | .hostLossTimeout l _ => l
  | .roleClrWrite l _ _ => l
  | .pairedOutputWrite l _ _ _ _ => l
  | .pairedInputLoad l _ _ _ => l
  | .cmCkptWrite l _ _ => l
  | .checkpointLagTimeout l _ _ => l
  | .coreSelfTestDone l _ _ _ _ => l
  | .uncorrectableCacheError l _ => l
  | .debugHaltRequest l _ => l
  | .debugAbstractCommand l _ _ => l
  | .debugSysbusAccess l _ _ _ => l
  | .deNop l _ => l
  | .deAdd l _ _ _ _ => l
  | .deSub l _ _ _ _ => l
  | .deAnd l _ _ _ _ => l
  | .deOr l _ _ _ _ => l
  | .deXor l _ _ _ _ => l
  | .deSll l _ _ _ _ => l
  | .deSrl l _ _ _ _ => l
  | .deSra l _ _ _ _ => l
  | .deSlt l _ _ _ _ => l
  | .deSltu l _ _ _ _ => l
  | .deMin l _ _ _ _ => l
  | .deMax l _ _ _ _ => l
  | .deMul l _ _ _ _ => l
  | .deAddi l _ _ _ _ => l
  | .deAndi l _ _ _ _ => l
  | .deOri l _ _ _ _ => l
  | .deXori l _ _ _ _ => l
  | .deLui l _ _ _ => l
  | .deSlli l _ _ _ _ => l
  | .deSrli l _ _ _ _ => l
  | .deSrai l _ _ _ _ => l
  | .deLd l _ _ _ _ => l
  | .deSt l _ _ _ _ => l
  | .deInp l _ _ _ => l
  | .deOutp l _ _ _ => l
  | .deWait l _ _ _ => l
  | .waitResume l _ => l
  | .deBeq l _ _ _ _ => l
  | .deBne l _ _ _ _ => l
  | .deBlt l _ _ _ _ => l
  | .deBge l _ _ _ _ => l
  | .deJ l _ _ => l
  | .deJal l _ _ => l
  | .deJr l _ _ => l
  | .deHalt l _ => l
  | .deFadd l _ _ _ _ => l
  | .deFsub l _ _ _ _ => l
  | .deFmul l _ _ _ _ => l
  | .deFma l _ _ _ _ => l
  | .deFmin l _ _ _ _ => l
  | .deFmax l _ _ _ _ => l
  | .deFneg l _ _ _ => l
  | .deFabs l _ _ _ => l
  | .deFlt l _ _ _ _ => l
  | .deFtoi l _ _ _ => l
  | .deItof l _ _ _ => l
  | .deFtoq l _ _ _ _ => l
  | .deQtof l _ _ _ _ => l
  | .deQmul l _ _ _ _ _ => l
  | .deQadd l _ _ _ _ => l
  | .deQsub l _ _ _ _ => l
  | .deSincos l _ _ _ => l
  | .deAtan2 l _ _ _ _ => l
  | .deRecip l _ _ _ => l
  | .deRsqrt l _ _ _ => l
  | .deSqrt l _ _ _ => l
  | .deCommit l _ _ _ => l
  | .bridgeWrite l _ _ => l
  | .deTimerSet l _ _ => l
  | .deTimerExpiry l _ _ => l
  | .mbPost l _ _ => l
  | .svCmdWrite l _ _ => l
  | .chopReqWrite l _ => l
  | .deMboxDb l _ _ => l
  | .deDataAccess l _ _ _ => l
  | .deCtrlRun l _ _ => l
  | .deCtrlHalt l _ _ => l
  | .deCtrlSeal l _ _ => l
  | .deImcrcDone l _ => l
  | .deOvrRstmin l _ _ => l
  | .pwmPeriodStart l _ _ => l
  | .carrierPeak l _ _ => l
  | .carrierUnlockTimeout l _ => l
  | .samplePoint l _ _ _ _ => l
  | .csCalStart l _ _ _ => l
  | .csCalDone l _ _ => l
  | .generalAdcConversion l _ => l
  | .qeCountingEdge l _ _ _ _ _ _ => l
  | .qeQualifiedIndex l _ _ _ _ _ _ _ => l
  | .qeWireDisagreement l _ _ => l
  | .qeSpeedEval l _ _ => l
  | .resolverSample l _ _ _ => l
  | .resolverExcitationFault l => l
  | .sentFrameRx l _ _ => l
  | .sentTimeout l _ _ => l
  | .sensorRecordRx l _ _ => l
  | .positionVote l _ => l
  | .motorSupervisorEval l _ => l
  | .lockedRotorTimeout l _ _ => l
  | .desatTrip l _ => l
  | .focTrip l _ => l
  | .turnOffStage1End l _ => l
  | .uvloFallingCrossing l _ => l
  | .uvloRisingCrossing l _ => l
  | .chopperOnCrossing l => l
  | .chopperOffCrossing l => l
  | .ovTripCrossing l _ => l
  | .ovAscCrossing l _ => l
  | .chopperCheckTimeout l _ => l
  | .ascLowSideOn l _ _ => l
  | .svShortTrip l _ _ => l
  | .svShortRetry l _ _ => l
  | .svOpenLoad l _ _ _ => l
  | .gdTestStart l _ => l
  | .gdTestDone l _ _ => l
  | .gdZdiagStart l _ _ => l
  | .gdZdiagDone l _ _ _ => l
  | .gateRequestLost l _ => l
  | .guardSupplyRise l => l
  | .guardSupplyFall l => l
  | .guardKpOpenDelay l _ => l
  | .challengeIssue l => l
  | .lgAnswerWrite l _ _ _ _ => l
  | .challengeWindowClose l => l
  | .firstAnswerTimeout l _ => l
  | .selfTestAllowanceTimeout l _ => l
  | .contactorMirrorChange l _ _ _ _ _ => l
  | .contactorMismatchTimeout l _ _ => l
  | .ckwMissingEdge l => l
  | .rcMissingEdge l => l
  | .ckwWindowClose l _ => l
  | .clkgoodTimer l _ => l
  | .lgRearmWrite l _ _ => l
  | .lgWdWrite l _ _ => l
  | .lgKmoff l _ => l
  | .parkTimerExpiry l _ => l
  | .faultSourceFire l _ _ => l
  | .fcStickyWrite l _ _ => l
  | .fcParityScan l => l
  | .fcInjGo l _ => l
  | .fcInjParity l => l
  | .laneLinkSilence l _ _ => l
  | .slazWindowStart l _ _ _ _ => l
  | .slazArbitratingOffer l _ _ _ _ => l
  | .slazOwnFrameComplete l _ _ _ _ => l
  | .slazFrameRx l _ _ _ _ => l
  | .slazReferenceFrameRx l _ _ _ _ _ => l
  | .slazWindowEnd l _ _ _ => l
  | .slazCycleEnd l _ _ => l
  | .slazBackupAttempt l _ _ _ => l
  | .slazListenTimeout l _ _ => l
  | .slazSyncTimeout l _ _ => l
  | .slazReferenceMiss l _ => l
  | .slazErrorFrame l _ _ _ => l
  | .slazBusOff l _ => l
  | .slazBusOffRecovered l _ => l
  | .szCtrlEnWrite l _ _ _ => l
  | .slazBufferReady l _ _ _ => l
  | .timeFrameSend l _ => l
  | .timeFrameRx l _ _ _ => l
  | .agreementEnter l _ _ => l
  | .agreementTimeout l _ _ => l
  | .timeStepInstant l _ => l
  | .ptpSyncRx l _ _ _ _ _ _ => l
  | .ptpAnnounceRx l _ _ => l
  | .ptpPdelayReqTimer l _ => l
  | .ptpPdelayReqRx l _ _ => l
  | .ptpPdelayRespRx l _ _ _ _ _ => l
  | .combinedOffsetDecision l _ => l
  | .ptpSyncTimeout l _ => l
  | .tsJumpAccept l => l
  | .tsJumpReject l => l
  | .tsJumpResume l => l
  | .tsNowRead l => l
  | .tpModeWrite l _ _ _ => l
  | .tpPulseStart l _ _ => l
  | .tpPulseEnd l _ _ => l
  | .hostFrameRx l _ => l
  | .hostSessionTimeout l _ _ => l
  | .hostFeatOffer l _ => l
  | .hostFeatAccept l _ _ => l
  | .hostChallenge l _ => l
  | .hostOpen l _ _ _ => l
  | .hostHeartbeat l _ => l
  | .hostEngage l _ _ => l
  | .hostDisengage l _ _ => l
  | .hostSteerSet l _ _ _ => l
  | .hostBrakeSet l _ _ _ => l
  | .hostTrailSet l _ _ _ => l
  | .hostParkSet l _ _ => l
  | .hostArm l _ => l
  | .hostStatusGet l _ => l
  | .hostFaultGet l _ => l
  | .hostAttestReq l _ _ => l
  | .hostTimeJump l _ _ => l
  | .hostAutumnClr l _ _ => l
  | .hostTest l _ => l
  | .hostPdEnter l _ _ _ => l
  | .hostPdWake l _ _ => l
  | .hostPdStatus l _ => l
  | .hostPdAcctGet l _ => l
  | .hqPop l _ => l
  | .hqPush l _ => l
  | .isobusAddressClaimedRx l _ _ _ => l
  | .isobusCommandedAddress l _ _ => l
  | .isobusRequestRx l _ _ _ => l
  | .trailerBrakeRequest l _ _ _ _ => l
  | .isobusOpenMessage l _ _ _ _ => l
  | .recoveryDescriptor l _ _ => l
  | .dm1Timer l _ => l
  | .steeringStateBroadcast l _ _ _ => l
  | .isobusBusOff l => l
  | .ethernetLinkDown l => l
  | .pdReqGo l _ => l
  | .pdWakeCommand l _ _ => l
  | .pdEntryStepEnd l _ => l
  | .pdWfiTimeout l _ _ => l
  | .pdWakeEvent l _ _ => l
  | .pdWakeComplete l _ _ => l
  | .pdAcctclr l => l
  | .ckFmStart l _ => l
  | .ckFmWindowClose l _ => l
  | .ckFmStop l _ _ => l
  | .pllLockLoss l _ => l
  | .seInfo l _ _ _ => l
  | .seIdGen l _ _ _ => l
  | .seIdPub l _ _ _ => l
  | .seIdCert l _ _ _ => l
  | .seSign l _ _ _ => l
  | .seVerify l _ _ _ => l
  | .seHash l _ _ _ => l
  | .seRandom l _ _ _ => l
  | .seAttest l _ _ _ => l
  | .seDbgChal l _ _ _ => l
  | .seDbgOpen l _ _ _ => l
  | .seDbgClose l _ _ _ => l
  | .seLcAdvance l _ _ _ => l
  | .seKeyRevoke l _ _ _ => l
  | .seKeyProg l _ _ _ => l
  | .seCommandComplete l _ => l
  | .entropyHealthFail l => l
  | .tamperBreach l => l
  | .authdataChallenge l => l
  | .authdataTokenWord l _ => l
  | .authdataClose l => l
  | .authdataRead l => l
  | .debugTokenCheckDone l => l
  | .debugOpenTimerExpiry l _ => l
  | .jtagExtest l => l
  | .jtagIdcode l => l
  | .jtagSamplePreload l => l
  | .jtagDtmcs l => l
  | .jtagDmi l _ _ => l
  | .jtagBypass l => l
  | .updBegin l _ _ _ _ => l
  | .updData l _ _ _ _ => l
  | .updStatus l _ => l
  | .updAbort l _ => l
  | .updActivate l _ => l
  | .updInfo l _ => l
  | .updPause l _ _ => l
  | .forwardedChunkRx l _ _ _ => l
  | .updateApplyCheckpoint l _ _ => l
  | .updateApplyDone l _ => l
  | .preparedTimeout l _ => l
  | .updateRestart l => l
  | .trialTimeout l _ => l
  | .recoveryPackageBuilt l => l
  | .btFuseGo l _ _ => l
  | .btFuseDone l => l
  | .sliceSchedulerTick l _ => l
  | .sliceDone l _ _ _ _ => l
  | .btTestSlice l _ _ => l
  | .btTestAnalog l _ => l
  | .agRunGo l _ => l
  | .ageingRunDone l => l
  | .registerWrite l _ _ _ _ => l
  | .illegalInstruction l _ => l
  | .mtimecmpReached l _ _ => l
  | .debugResumeRequest l _ => l
  | .wfi l _ => l
  | .clockEdgesResume l _ => l
  | .ethernetLinkUp l _ => l
  | .transportProtocolCmRx l _ => l
  | .v5outOvertemperature l => l
  | .v5outRetry l _ => l
  | .laneDieResetRelease l _ => l
  | .floorFusesBlown l => l
  | .analogRerunDone l _ _ _ => l

/-- Command `c` does its work: wherever its lane meets `pre`, it answers a next state; the queue and the other lanes are
unchanged, and its lane before and after meet `post`. -/
def Does (c : Instr) (pre : Lane → Prop) (post : Lane → Lane → Prop) : Prop :=
  ∀ s : State, pre (s.lane (laneOf c)) → ∃ t : State, exec c s = .next t ∧ t.pending = s.pending ∧
    (∀ m : LaneId, m ≠ laneOf c → t.lane m = s.lane m) ∧ post (s.lane (laneOf c)) (t.lane (laneOf c))

/-- Fields that a reaction may write, but for FC_STICKY, STATE and GSTATE: SYS_RET_STATUS, SYS_ARM; the PD block; the SZ_STAT
registers; the queue registers of HQ; BT_SLICE_STAT; GD_STAT, GD_TRIP_1 and the GD_SV registers; LG_STATUS.FCAUSE, LG_CHAL, LG_PORT,
LG_PARK. -/
def ReactKey (k : Nat) : Prop :=
  k / 64 = 0x20000008 ∨ k / 64 = 0x20000080 ∨ (0x20040000 ≤ k / 64 ∧ k / 64 < 0x20040060) ∨
    (0x20070010 ≤ k / 64 ∧ k / 64 < 0x20070018) ∨ (0x200A0004 ≤ k / 64 ∧ k / 64 < 0x200A0200) ∨ k / 64 = 0x200D0044 ∨
    k / 64 = 0x20160004 ∨ k / 64 = 0x2016000C ∨ (0x20160080 ≤ k / 64 ∧ k / 64 < 0x201600A0) ∨ k = 0x20170000 * 64 + 4 ∨
    k / 64 = 0x20170010 ∨ k / 64 = 0x20170050 ∨ k / 64 = 0x20170060

/-- The fields of FC_STICKY, SYS_STATE.STATE and LG_STATUS.GSTATE. -/
def ModeKey (k : Nat) : Prop :=
  (0x20030000 ≤ k / 64 ∧ k / 64 < 0x20030080) ∨ k = Reg.SYS_STATE_STATE.key ∨ k = Reg.LG_STATUS_GSTATE.key

/-- A Slaz controller but for what listening starts anew (R382, R383). -/
def SlazSt.relisten (z : SlazSt) : SlazSt := { z with start := 0, missed := 0, copied := none, pending := [], sending := none }

/-- A host port but for its lane frame counter, which a notice moves (R347, R428). -/
def HostSt.unsent (x : HostSt) : HostSt := { x with sent := 0 }

/-- A lane after reactions of fault sources in the lane before (R343 to R353, R314, R315, R325): of the modes, only WINTER and
FORCED may have been entered; a withdrawal or a sticky bit that stood stands. -/
structure Lane.Reacts (L M : Lane) : Prop where
  id : M.id = L.id
  draws : M.draws = L.draws
  store : M.store = L.store
  start : M.start = L.start
  nb : M.nb = L.nb
  roles : M.roles = L.roles
  motor : M.motor = L.motor
  guardSt : M.guardSt = L.guardSt
  fault : M.fault = L.fault
  slaz : ∀ c, (vget M.slaz c).relisten = (vget L.slaz c).relisten
  time : M.time = L.time
  ptp : M.ptp = L.ptp
  host : ∀ h, (vget M.host h).unsent = (vget L.host h).unsent
  auth : M.auth = L.auth
  sec : M.sec = L.sec
  dbg : M.dbg = L.dbg
  update : M.update = L.update
  shunt : M.shunt = L.shunt
  votePos : M.votePos = L.votePos
  inp : M.vote.inp = L.vote.inp
  count : M.vote.count = L.vote.count
  hardware : M.vote.hardware = L.vote.hardware
  withdraw : ∀ i, vget L.vote.withdraw i = true → vget M.vote.withdraw i = true
  regs : ∀ k, ¬ReactKey k → ¬ModeKey k → Tab.get 0 M.regs k = Tab.get 0 L.regs k
  sticky : ∀ n, n < 1024 → L.sticky n = true → M.sticky n = true
  svc : M.svc = L.svc ∨ M.svc = 6
  gstate : M.gstate = L.gstate ∨ M.gstate = 3

/-- An engine with the registers, the program counter and the issue times of another: all that an instruction without an effect of
its own on memory, events or ports may change (R157 to R159). -/
def EngineSt.issueOf (e f : EngineSt) : EngineSt :=
  { e with d := f.d, pc := f.pc, cyc := f.cyc, ready := f.ready, tbusy := f.tbusy, pairable := f.pairable }

/-- Engine `n` has run instruction `i`, which writes `v` to `rd`: the lane but for that engine's registers, program counter and issue
times is as before; a write to d0 is lost; every other register is as before; the next word is next; the next cycle is the one after
the issue; a written register can be used after the latency (R155 to R159). -/
structure Lane.DeResult (L M : Lane) (n : Engine) (i : DeInstr) (rd : Reg) (v : Word) : Prop where
  frame : M = L.onDe n (fun e => e.issueOf (M.de n))
  result : rd ≠ 0 → (M.de n).reg rd = v
  others : ∀ r, r ≠ rd → (M.de n).reg r = (L.de n).reg r
  zero : (M.de n).reg 0 = 0
  pc : (M.de n).pc = (L.de n).pc + 1
  cyc : (M.de n).cyc = (L.de n).issueAt i + 1
  ready : rd ≠ 0 → (M.de n).readyAt rd = (L.de n).issueAt i + (formOf i).lat

/-- As DeResult for a floating-point result: a NaN also sets DE_STATUS.NAN, and nothing clears that bit (R160, R180). -/
def Lane.DeFloatResult (L M : Lane) (n : Engine) (i : DeInstr) (rd : Reg) (v : Word) : Prop :=
  ∃ K : Lane, L.DeResult K n i rd v ∧ M = if isNan v then K.set1 (Reg.DE_STATUS_NAN n.val) else K

/-- A host port's session command is carried out: the port is present, its session open and its set locked, the feature and the
permission are held, and the set is the active lane's (R42, R45, R46, R426, R429). -/
abbrev Lane.Admits (L : Lane) (h : Fin 4) (feat perm : Option Nat) (f : Option Func) : Prop :=
  L.portLive h = true ∧ L.sessionOpen h = true ∧ L.hostLocked h = true ∧ (∀ b ∈ feat, nbit (L.hostSet h) b = true) ∧
    (∀ b ∈ perm, L.perm h b = true) ∧ ∀ g ∈ f, L.hostSplit h g = false

/-- Descriptor `d` has been committed at TAIL of lane-to-host queue `q`: it lies in the ring, TAIL is one further, and it waits for its
window (Slaz, or a lane whose identity key may not sign), goes out by Transport Protocol (ISOBUS) or in a host frame of its own; nothing
else has changed (R376, R428, R433, R434, R436). -/
abbrev Lane.Commits (L M : Lane) (q : Fin 16) (d : Descr) : Prop :=
  let t := L.queueTransport q
  let h : Fin 4 := Fin.ofNat 4 (vget L.img.queue q).port
  (vget M.queue q).next = (d.index + 1) % 2 ^ 32 ∧ M.rd (Reg.HQ_PTR_TAIL q.val) = (d.index + 1) % 65536 ∧
  M.sramBytes (L.slotAddr q d.index) 64 = descrBytes d ∧
  (∀ a : Nat, a < L.slotAddr q d.index ∨ L.slotAddr q d.index + 64 ≤ a → M.sramByte a = L.sramByte a) ∧
  (∀ p : Fin 16, p ≠ q → vget M.queue p = vget L.queue p) ∧ (vget M.queue q).done = (vget L.queue q).done ∧
  (if t = 1 ∨ (t = 0 ∧ L.sec.idUsable = false) then
    (vget M.queue q).slots = (vget L.queue q).slots ++ [d] ∧ M.rd (Reg.HQ_STAT_USED q.val) = (L.rd (Reg.HQ_STAT_USED q.val) + 1) % 512 ∧
      M.rd (Reg.HQ_PTR_HEAD q.val) = L.rd (Reg.HQ_PTR_HEAD q.val) ∧ M.out = L.out ∧ M.host = L.host ∧ M.isobus = L.isobus
  else if t = 2 then
    (vget M.queue q).slots = (vget L.queue q).slots ∧ M.rd (Reg.HQ_STAT_USED q.val) = L.rd (Reg.HQ_STAT_USED q.val) ∧
      M.rd (Reg.HQ_PTR_HEAD q.val) = (d.index + 1) % 65536 ∧ M.host = L.host ∧
      M.isobus = { L.isobus with tpTx := L.isobus.tpTx ++ [((vget L.isobus.peer h).getD 0xFF, 0x04 :: descrBytes d, 0)] } ∧
      M.out = (if L.isobus.tpTx = [] then L.out ++ [.isobus 0xEC00 ((vget L.isobus.peer h).getD 0xFF) (tpFrame 16 [65, 0, 10, 0xFF] 0xEF00)]
        else L.out)
  else
    (vget M.queue q).slots = (vget L.queue q).slots ∧ M.rd (Reg.HQ_STAT_USED q.val) = (L.rd (Reg.HQ_STAT_USED q.val) + 1) % 512 ∧
      M.rd (Reg.HQ_PTR_HEAD q.val) = (d.index + 1) % 65536 ∧ M.isobus = L.isobus ∧ M.out = L.out ++ [.hostFrame h (L.hostFrame h [d])] ∧
      M.host = vupd L.host h (fun x => { x with sent := (x.sent + 1) % 2 ^ 64 })) ∧
  M = { L with regs := M.regs, sram := M.sram, queue := M.queue, out := M.out, host := M.host, isobus := M.isobus } ∧
  ∀ g : Fld, g.key ≠ (Reg.HQ_PTR_TAIL q.val).key → g.key ≠ (Reg.HQ_PTR_HEAD q.val).key → g.key ≠ (Reg.HQ_STAT_USED q.val).key → M.rd g = L.rd g

/-- A queue that is full ignores a descriptor and sets FULL; nothing else has changed (R434, R448). -/
abbrev Lane.CommitsNot (L M : Lane) (q : Fin 16) : Prop :=
  M.is (Reg.HQ_STAT_FULL q.val) = true ∧ M = { L with regs := M.regs } ∧ ∀ g : Fld, g.key ≠ (Reg.HQ_STAT_FULL q.val).key → M.rd g = L.rd g

/-- A command has been answered with a status and arguments, and nothing else has happened: a descriptor with RESP and the command's TAG on
the port's lane-to-host queue of the lowest number (R432, R436, R437). -/
abbrev Lane.Answers (L M : Lane) (k : HostCmd) (op status : Nat) (args : List Byte) : Prop :=
  match L.replyQueue k.port with
  | some q =>
    if L.queueFree q = true then
      L.Commits M q ⟨op % 256, 1, k.tag % 65536, (vget L.queue q).next, status % 65536, (args ++ List.replicate 48 0).take 48⟩
    else L.CommitsNot M q
  | none => M = { L with out := L.out ++ [.response k.port op k.tag status args] }

end Sys2Proof.Machine
end

