-- ==== Sys2Proof/Certificates/Slice0/Obligations.lean ====
section
/-! DEFINITION. The statements about the device. Each command completes: `Does c pre post`. In `post`, L is the command's lane before
and M the same lane after it. -/

open Sys2Proof Sys2Proof.Machine

/-- LANE_POWER_ON_RESET starts a lane from any state, and LANE_DIE_RESET_RELEASE one whose lane die reset has been held for 100
us: BOOT with the boot ROM self-check, its cores running the boot ROM, the guard in HOLD but for one that is FORCED, which stays
so, device time 0, no function served, no withdrawal standing, every gate output off, engines and solenoid drivers as at a first
start, no interrupt pending, the lane its own time leader, and every register that neither survives a start nor is loaded from
the part at its At start value; elapsed time, the digests of the retained slots, the fuse repairs and, outside RETIRED, the
STORE window are kept. -/
def Obligations.start_resets_the_lane : Prop :=
    (∀ (l : LaneId) (low : Bool), Does (.lanePowerOnReset l low)
      (fun L => max L.sec.lc1 L.sec.lc2 ≠ 3)
      (fun L M => M.start.phase = .romCheck ∧ M.start.recoveryBall = low ∧ M.is Reg.TS_STAT_LEADER = true ∧ M.svc = 0 ∧ M.gstate = (if L.guardSt.powered = true ∧ L.gstate = 3 then 3 else 0) ∧
        M.now = 0 ∧ M.el = L.el ∧ M.ret.digest = L.ret.digest ∧ M.test.fuses = L.test.fuses ∧ M.irqs = [] ∧ M.store = L.store ∧
        (∀ f, M.serves f = false) ∧ (∀ i, vget M.vote.withdraw i = false) ∧ (∀ c, (vget M.core c).run = .rom) ∧
        M.engine = (Lane.unpowered l).engine ∧ M.solenoid = (Lane.unpowered l).solenoid ∧ (∀ b, (vget M.gate.drive b).on = false) ∧
        (∀ p, vget M.gate.portOff p = false) ∧
        (∀ k, k ∉ (survivors ++ [Reg.SYS_STATE_STATE, Reg.SYS_ID_LANE, Reg.IB_PREF_PREF, Reg.SYS_FEAT_OFFER 0, Reg.TS_STAT_LEADER, Reg.SE_DBG_OPEN,
          Reg.SE_DBG_SCOPE, Reg.SE_STATUS_ZEROISED, Reg.UP_STATE_STATE, Reg.LG_STATUS_GSTATE, Reg.LG_STATUS_FCAUSE, Reg.LG_CONT_KMCMD,
          Reg.LG_CONT_KPCMD]).map Fld.key → Tab.get 0 M.regs k = Tab.get 0 startRegs k))) ∧
    (∀ (l : LaneId) (dt : Nat), Does (.laneDieResetRelease l dt)
      (fun L => L.start.phase = .dieReset ∧ (L.pass dt).due .dieReset 100000 = true ∧ max L.sec.lc1 L.sec.lc2 ≠ 3)
      (fun L M => M.start.phase = .romCheck ∧ M.start.recoveryBall = false ∧ M.is Reg.TS_STAT_LEADER = true ∧ M.svc = 0 ∧ M.gstate = (if L.guardSt.powered = true ∧ L.gstate = 3 then 3 else 0) ∧
        M.now = 0 ∧ M.el = (L.pass dt).el ∧ M.ret.digest = L.ret.digest ∧ M.test.fuses = L.test.fuses ∧ M.irqs = [] ∧ M.store = L.store ∧
        (∀ f, M.serves f = false) ∧ (∀ i, vget M.vote.withdraw i = false) ∧ (∀ c, (vget M.core c).run = .rom) ∧
        M.engine = (Lane.unpowered l).engine ∧ M.solenoid = (Lane.unpowered l).solenoid ∧ (∀ b, (vget M.gate.drive b).on = false) ∧
        (∀ p, vget M.gate.portOff p = false) ∧
        (∀ k, k ∉ (survivors ++ [Reg.SYS_STATE_STATE, Reg.SYS_ID_LANE, Reg.IB_PREF_PREF, Reg.SYS_FEAT_OFFER 0, Reg.TS_STAT_LEADER, Reg.SE_DBG_OPEN,
          Reg.SE_DBG_SCOPE, Reg.SE_STATUS_ZEROISED, Reg.UP_STATE_STATE, Reg.LG_STATUS_GSTATE, Reg.LG_STATUS_FCAUSE, Reg.LG_CONT_KMCMD,
          Reg.LG_CONT_KPCMD]).map Fld.key → Tab.get 0 M.regs k = Tab.get 0 startRegs k)))

/-- ROM_SELF_CHECK_DONE: a pass leads to the signature checks with everything else unchanged, a held RECOVERY ball to RECOVERY;
a failed check halts the lane with its cores held. SIGNATURE_CHECK_DONE: where the manifest of the active bank verifies, the
parts match it and the lane is not RETIRED, the lane enters SOLSTICE with its cores held; else RECOVERY with CAUSE 2.
SOLSTICE_TEST_DONE: a test in which every step passes leads to image verification with FAIL 0 and SRAM and engine memories 0,
the soft repairs of the march recorded; a first failed test is repeated with SOLRETRY set, a second one leads to WINTER with
CAUSE 3. A start on a set in TRIAL (UP_STATE 6), which reverts instead, is not meant here. -/
def Obligations.start_sequence : Prop :=
    (∀ (l : LaneId), Does (.romSelfCheckDone l true)
      (fun L => L.start.phase = .romCheck ∧ L.start.recoveryBall = false)
      (fun L M => M = L.onStart (fun x => { x with phase := .signatures }))) ∧
    (∀ (l : LaneId), Does (.romSelfCheckDone l true)
      (fun L => L.start.phase = .romCheck ∧ L.start.recoveryBall = true)
      (fun _ M => M.start.phase = .recovery ∧ M.svc = 7 ∧ M.rd Reg.SYS_STATE_CAUSE = 0 ∧ (∀ c, (vget M.core c).run = .rom) ∧ (∀ c : Fin 2, M.rd (Reg.SZ_STAT_STATE c.val) = 0))) ∧
    (∀ (l : LaneId), Does (.romSelfCheckDone l false)
      (fun L => L.start.phase = .romCheck ∧ L.rd Reg.UP_STATE_STATE ≠ 6)
      (fun L M => M.start = { L.start with phase := .halted } ∧ (∀ c, (vget M.core c).run = .reset) ∧ M.regs = L.regs ∧ M.store = L.store ∧ M.out = L.out)) ∧
    (∀ (l : LaneId) (bank : List Byte) (unwrapOk : Bool), Does (.signatureCheckDone l bank unwrapOk)
      (fun L => L.start.phase = .signatures ∧ L.sec.idDone = false ∧ L.rd Reg.UP_STATE_STATE ≠ 6)
      (fun L M => if (vget (L.placeBank bank).update.manifests (L.placeBank bank).activeBank).any (L.placeBank bank).setVerified = true ∧ L.lifecycle ≠ 3 then
          M.svc = 1 ∧ M.start.phase = .solstice ∧ (∀ c, (vget M.core c).run = .reset)
        else M.start.phase = .recovery ∧ M.svc = 7 ∧ M.rd Reg.SYS_STATE_CAUSE = 2 ∧ (∀ c, (vget M.core c).run = .rom) ∧ (∀ c : Fin 2, M.rd (Reg.SZ_STAT_STATE c.val) = 0))) ∧
    (∀ (l : LaneId) (r : SolsticeResult), Does (.solsticeTestDone l r)
      (fun L => L.start.phase = .solstice ∧ r.bistOk = true ∧ r.storeOk = true ∧ (L.test.march r.march).2 = false ∧ analogFails r.analog = 0 ∧ nbits r.res0.toNat 0 24 = 0 ∧ nbits r.res1.toNat 0 13 = 0)
      (fun L M => M.start.phase = .image ∧ M.rd Reg.BT_SOL_STAT_FAIL = 0 ∧ M.rd Reg.BT_SOL_STAT_ANAFAIL = 0 ∧ M.rd Reg.BT_SOL_STAT_DONE = 1 ∧
        M.rd Reg.BT_REP_EXHAUSTED = 0 ∧ M.sram = [] ∧ (∀ n, (M.de n).im = [] ∧ (M.de n).dm = []) ∧ M.test.soft = (L.test.march r.march).1.soft ∧
        M.svc = L.svc ∧ M.rd (Reg.BT_SOL_TIME 2) = vget r.times 2 % 2 ^ 32)) ∧
    (∀ (l : LaneId) (r : SolsticeResult), Does (.solsticeTestDone l r)
      (fun L => L.start.phase = .solstice ∧ (r.bistOk = false ∨ r.storeOk = false ∨ (L.test.march r.march).2 = true ∨ analogFails r.analog ≠ 0) ∧ nbits r.res0.toNat 0 24 = 0 ∧ nbits r.res1.toNat 0 13 = 0 ∧ L.is Reg.SYS_STATE_SOLRETRY = false)
      (fun L M => M.start.phase = .solstice ∧ M.rd Reg.SYS_STATE_SOLRETRY = 1 ∧ M.svc = L.svc ∧ M.rd Reg.BT_SOL_STAT_FAIL ≠ 0 ∧ M.sram = L.sram)) ∧
    (∀ (l : LaneId) (r : SolsticeResult), Does (.solsticeTestDone l r)
      (fun L => L.start.phase = .solstice ∧ (r.bistOk = false ∨ r.storeOk = false ∨ (L.test.march r.march).2 = true ∨ analogFails r.analog ≠ 0) ∧ nbits r.res0.toNat 0 24 = 0 ∧ nbits r.res1.toNat 0 13 = 0 ∧ L.is Reg.SYS_STATE_SOLRETRY = true ∧ L.rd Reg.UP_STATE_STATE ≠ 6)
      (fun L M => M.svc = 6 ∧ M.rd Reg.SYS_STATE_CAUSE = 3 ∧ (L.guardSt.powered = true → M.gstate = 3)))

/-- IMAGE_VERIFICATION_DONE, in the phase of image verification, judges the image that lies in the active bank; CHECK, ENTRY and
OFFSET record what the checks find. Where every check passes, lane firmware runs with that image (its sections as the lane loads
them), the cores run, the guard challenge and the gather time run, every configured SENT input has its source set, and the lane
is in READY, or in WINTER where the reaction of a SENT source forces it. Where one fails, on a set not in TRIAL, the lane enters
RECOVERY with CAUSE 4 for checks 1 to 3, else 5, its cores running the boot ROM; on a set in TRIAL the previous bank becomes the
active one and the lane starts again with error 11. -/
def Obligations.image_verification_ends : Prop :=
    (∀ (l : LaneId), Does (.imageVerificationDone l)
      (fun L => L.start.phase = .image)
      (fun L M => if L.imageFound.1 = 0 then
          M.start.phase = .running ∧ M.start.image = { L.readImage with sec := loadedSections L.readImage L.id } ∧ M.start.coresReleased = true ∧
            M.guardSt.running = true ∧ M.running .gather = true ∧ (M.svc = 2 ∨ M.svc = 6) ∧ M.rd Reg.SYS_IMG_STATUS_CHECK = 0 ∧
            (∀ n : Fin 2, (vget (loadedSections L.readImage L.id).sent n).tick ≠ 0 → M.sticky (139 + n.val) = true) ∧
            (∀ c, (vget M.core c).run = .running)
        else if L.rd Reg.UP_STATE_STATE = 6 then
          M.start.phase = .romCheck ∧ M.svc = 0 ∧ M.rd Reg.UP_STATE_ERR = 11
        else
          M.start.phase = .recovery ∧ M.svc = 7 ∧ M.rd Reg.SYS_STATE_CAUSE = (if L.imageFound.1 ≤ 3 then 4 else 5) ∧ (∀ c, (vget M.core c).run = .rom) ∧
            M.rd Reg.SYS_IMG_STATUS_CHECK = L.imageFound.1 % 8 ∧ M.rd Reg.SYS_IMG_STATUS_ENTRY = L.imageFound.2.1 % 64 ∧
            M.rd Reg.SYS_IMG_STATUS_OFFSET = L.imageFound.2.2 % 2 ^ 20))

/-- SYS_RET_COMMIT, RETAINED_COMMIT_COMPLETE, AUTUMN_COMMIT_TIMER: with no commit busy a commit takes the snapshot and its
sequence number for the slot that is not the newer one, whose digest is torn from then on; a second one only sets OVERRUN. At
its end its slot is the newer one and passes: it begins with the header of the snapshot, and the other slot keeps its bytes; a
failed one sets source 450 and leaves the newer slot; a held automatic commit starts in the same cycle. While a function is in
Autumn a commit falls due every 10 s: it starts, or is held while one is busy; with no function in Autumn the time does not run.
-/
def Obligations.retained_commits : Prop :=
    (∀ (l : LaneId), Does (.sysRetCommit l)
      (fun L => L.firmware = true ∧ L.is Reg.SYS_RET_STATUS_BUSY = false)
      (fun L M => M.is Reg.SYS_RET_STATUS_BUSY = true ∧ M.ret.inFlight = some (L.commitTarget.1, L.commitTarget.2, L.snapshot) ∧ M.ret.auto = false ∧
        L.ret.newer ≠ some L.commitTarget.1 ∧ vget M.ret.digest L.commitTarget.1 = .torn ∧
        (∀ n, n ≠ L.commitTarget.1 → vget M.ret.digest n = vget L.ret.digest n) ∧ M.ret.newer = L.ret.newer ∧ M.store = L.store ∧ M.sram = L.sram)) ∧
    (∀ (l : LaneId), Does (.sysRetCommit l)
      (fun L => L.firmware = true ∧ L.is Reg.SYS_RET_STATUS_BUSY = true)
      (fun L M => M = L.set1 Reg.SYS_RET_STATUS_OVERRUN)) ∧
    (∀ (l : LaneId) (dt : Nat) (t : Fin 2) (seq : Nat) (p : Payload), Does (.retainedCommitComplete l dt true)
      (fun L => L.ret.inFlight = some (t, seq, p) ∧ L.ret.held = false ∧ L.ret.stalled = [])
      (fun L M => M.is Reg.SYS_RET_STATUS_BUSY = false ∧ M.ret.inFlight = none ∧ M.ret.newer = some t ∧ vget M.ret.digest t = .intact ∧
        (∀ i, i < 32 → Tab.get 0 M.store (65536 * t.val + i) =
          (slotHeader 0x5445525A seq payloadLen L.start.image.header.retainedSchema L.id.code).getD i 0) ∧
        (∀ a, a < 65536 * t.val ∨ 65536 * t.val + 34008 ≤ a → Tab.get 0 M.store a = Tab.get 0 L.store a) ∧
        (∀ n, n ≠ t → vget M.ret.digest n = vget L.ret.digest n) ∧ M.sram = L.sram)) ∧
    (∀ (l : LaneId) (dt : Nat) (t : Fin 2) (seq : Nat) (p : Payload), Does (.retainedCommitComplete l dt false)
      (fun L => L.ret.inFlight = some (t, seq, p) ∧ L.ret.held = false ∧ L.ret.stalled = [])
      (fun L M => M.is Reg.SYS_RET_STATUS_BUSY = false ∧ M.ret.inFlight = none ∧ M.ret.newer = L.ret.newer ∧ M.sticky 450 = true ∧ M.store = L.store)) ∧
    (∀ (l : LaneId) (dt : Nat) (t : Fin 2) (seq : Nat) (p : Payload), Does (.retainedCommitComplete l dt true)
      (fun L => L.ret.inFlight = some (t, seq, p) ∧ L.ret.held = true ∧ L.ret.stalled = [] ∧ seq < 2 ^ 32)
      (fun _ M => M.is Reg.SYS_RET_STATUS_BUSY = true ∧ M.ret.held = false ∧ M.ret.auto = true ∧ M.ret.newer = some t ∧
        M.ret.inFlight.map (fun x => (x.1, x.2.1)) = some (if t = 0 then 1 else 0, (seq + 1) % 2 ^ 32))) ∧
    (∀ (l : LaneId) (dt : Nat), Does (.autumnCommitTimer l dt)
      (fun L => (∃ f, L.mode f = 1) ∧ (L.pass dt).due .autumnCommit 10000000000 = true ∧ L.firmware = true ∧ L.is Reg.SYS_RET_STATUS_BUSY = false)
      (fun L M => M.is Reg.SYS_RET_STATUS_BUSY = true ∧ M.ret.inFlight = some (L.commitTarget.1, L.commitTarget.2, (L.pass dt).snapshot) ∧ M.ret.auto = true ∧
        M.timerAt .autumnCommit = some (L.pass dt).el)) ∧
    (∀ (l : LaneId) (dt : Nat), Does (.autumnCommitTimer l dt)
      (fun L => (∃ f, L.mode f = 1) ∧ (L.pass dt).due .autumnCommit 10000000000 = true ∧ L.firmware = true ∧ L.is Reg.SYS_RET_STATUS_BUSY = true)
      (fun L M => M.ret.held = true ∧ M.ret.inFlight = L.ret.inFlight ∧ M.timerAt .autumnCommit = some (L.pass dt).el)) ∧
    (∀ (l : LaneId) (dt : Nat), Does (.autumnCommitTimer l dt)
      (fun L => ∀ f, L.mode f ≠ 1)
      (fun L M => M.running .autumnCommit = false ∧ M.ret = L.ret ∧ M.regs = L.regs))

/-- SYS_FEAT_LOCK, with lane firmware running and the set not locked: with BASE accepted the set becomes the accepted bits that
are offered and that a lane feature stands for and is locked; with the discipline feature accepted and used, discipline begins.
The election ends where its condition then holds: with roles given, or with none and SYS_STATE.CAUSE 9 or 12; where no neighbour
takes part yet it goes on. Without BASE only REFUSED is set. -/
def Obligations.feature_lock : Prop :=
    (∀ (l : LaneId), Does (.sysFeatLock l)
      (fun L => L.firmware = true ∧ L.is Reg.SYS_FEAT_CTRL_LOCK = false ∧ nbit (L.rd (Reg.SYS_FEAT_ACCEPT 0)) 0 = true)
      (fun L M => M.is Reg.SYS_FEAT_CTRL_LOCK = true ∧
        M.featSet = Nat.land (Nat.land (L.rd (Reg.SYS_FEAT_ACCEPT 0)) (L.rd (Reg.SYS_FEAT_OFFER 0))) 0x7F ∧
        (nbit M.featSet 6 = true → L.img.time.asEnable = 1 → M.rd Reg.TS_STAT_DISC = 1) ∧
        (L.peers = [] → M.start = L.start ∧ M.is Reg.SYS_STATE_ELECTED = L.is Reg.SYS_STATE_ELECTED) ∧
        M.ret.newer = L.ret.newer ∧ M.sram = L.sram)) ∧
    (∀ (l : LaneId), Does (.sysFeatLock l)
      (fun L => L.firmware = true ∧ L.is Reg.SYS_FEAT_CTRL_LOCK = false ∧ nbit (L.rd (Reg.SYS_FEAT_ACCEPT 0)) 0 = false)
      (fun L M => M = L.set1 Reg.SYS_FEAT_CTRL_REFUSED))

/-- STATUS_FRAME_SEND makes one frame ready for both neighbours that reports state, digest, fault summary and roles, and changes
nothing else but the PARK timer. STATUS_FRAME_RX, with no activation pending, keeps the frame of that side, shows its fault
summary as valid and whether the neighbour counts as a peer; a frame of a lane that is not in WINTER restarts that side status
watchdog. STATUS_FRAME_TIMEOUT, after 3 ms without a frame, accuses the neighbour of every function that both serve, with FIRED
and source 325 + f, and shows its summary as not valid. -/
def Obligations.status_frames : Prop :=
    (∀ (l : LaneId), Does (.statusFrameSend l)
      (fun L => L.sendsStatus = true)
      (fun L M => M = { L.send (.status L.statusFrame) with timers := M.timers } ∧ (∃ x ∈ M.link, x.frame = some (.status L.statusFrame)) ∧
        L.statusFrame.state = L.svc ∧ L.statusFrame.elected = L.is Reg.SYS_STATE_ELECTED ∧
        L.statusFrame.digest = L.start.image.digest ∧ L.statusFrame.faults = L.summary ∧ L.statusFrame.featSet = L.featSet ∧ L.statusFrame.parkOff = L.parkOff ∧
        ∀ g : Func, (vget L.statusFrame.funcs g.ix).role = L.role g ∧ (vget L.statusFrame.funcs g.ix).mode = L.mode g ∧
          (vget L.statusFrame.funcs g.ix).serves = L.serves g)) ∧
    (∀ (l : LaneId) (sd : Side) (f : StatusFrame), Does (.statusFrameRx l sd f)
      (fun L => L.firmware = true ∧ L.rd Reg.UP_STATE_STATE = 0)
      (fun L M => vget M.nb sd.ix = some f ∧ M.rd (Reg.FC_NB_SUMMARY (L.id.nb sd).code) = f.faults % 2 ^ 16 ∧
        M.is (Reg.FC_NB_VALID (L.id.nb sd).code) = true ∧
        M.bitOf Reg.SYS_STATE_PEERS (L.id.nb sd).code = (decide (2 ≤ f.state) && decide (f.state ≤ 5) && L.sameSet f) ∧
        (f.state ≠ 6 → M.timerAt (.status sd) = some L.el))) ∧
    (∀ (l : LaneId) (dt : Nat) (sd : Side), Does (.statusFrameTimeout l dt sd)
      (fun L => L.firmware = true ∧ (L.pass dt).due (.status sd) 3000000 = true)
      (fun L M => M.is (Reg.FC_NB_VALID (L.id.nb sd).code) = false ∧ M.bitOf Reg.SYS_STATE_PEERS (L.id.nb sd).code = false ∧
        M.running (.status sd) = false ∧
        ∀ f ∈ L.functions, L.serves f = true → nbit (L.rd (Reg.ROLE_FUNC_SERVING f.code)) (L.id.nb sd).code = true →
          M.is (Reg.ROLE_REFWD_FIRED f.code) = true ∧ M.sticky (325 + f.code) = true ∧
          (vget M.vote.hardware f.ix).any (fun e => decide (e.1 = sd)) = true))

/-- ELECTION_GATHER_TIMEOUT, for a lane that takes part and whose gather time has expired: with at least two participants and a
lane that may be active in every present function, the lane takes the proposed roles, the rotation index of the chosen record
and its own role, and ELECTED is set; alone it shows CAUSE 9, with a function that no lane may serve as active CAUSE 12, nothing
else changing. -/
def Obligations.election : Prop :=
    (∀ (l : LaneId) (dt : Nat), Does (.electionGatherTimeout l dt)
      (fun L => L.firmware = true ∧ (L.pass dt).electable = true ∧ L.start.electionDone = false ∧ (L.pass dt).gathered = true ∧
        2 ≤ (L.pass dt).members.length ∧ ∀ f, L.present f = true → ((L.pass dt).proposal f).1 ≠ 3)
      (fun L M => M.is Reg.SYS_STATE_ELECTED = true ∧ M.start.electionDone = true ∧ M.running .gather = false ∧
        ∀ f, L.present f = true →
          M.rd (Reg.ROLE_FUNC_ACT f.code) = ((L.pass dt).proposal f).1 ∧ M.rd (Reg.ROLE_FUNC_STB f.code) = ((L.pass dt).proposal f).2.1 ∧
          M.rd (Reg.ROLE_FUNC_ARB f.code) = ((L.pass dt).proposal f).2.2 ∧
          M.rd (Reg.ROLE_FUNC_ROT f.code) = ((L.pass dt).chosenRecord f).index % 4 ∧
          (M.role f = 1 ↔ ((L.pass dt).proposal f).1 = L.id.code))) ∧
    (∀ (l : LaneId) (dt : Nat), Does (.electionGatherTimeout l dt)
      (fun L => L.firmware = true ∧ (L.pass dt).electable = true ∧ L.start.electionDone = false ∧ (L.pass dt).gathered = true ∧
        (L.pass dt).members.length ≤ 1)
      (fun L M => M.rd Reg.SYS_STATE_CAUSE = 9 ∧ M.start = { L.start with electionDone := true } ∧ M.running .gather = false ∧
        (∀ k, k ≠ Reg.SYS_STATE_CAUSE.key → Tab.get 0 M.regs k = Tab.get 0 L.regs k) ∧ M.roles = L.roles ∧ M.ret = L.ret)) ∧
    (∀ (l : LaneId) (dt : Nat), Does (.electionGatherTimeout l dt)
      (fun L => L.firmware = true ∧ (L.pass dt).electable = true ∧ L.start.electionDone = false ∧ (L.pass dt).gathered = true ∧
        2 ≤ (L.pass dt).members.length ∧ ∃ f, L.present f = true ∧ ((L.pass dt).proposal f).1 = 3)
      (fun L M => M.rd Reg.SYS_STATE_CAUSE = 12 ∧ M.start = { L.start with electionDone := true } ∧ M.running .gather = false ∧
        (∀ k, k ≠ Reg.SYS_STATE_CAUSE.key → Tab.get 0 M.regs k = Tab.get 0 L.regs k) ∧ M.roles = L.roles ∧ M.ret = L.ret))

/-- ARM_AUTO_START, SYS_ARM_WRITE, DC_LINK_AT_ARM_VDC, PRECHARGE_TIMEOUT, GATE_CHAIN_ENABLE_TIMEOUT: in its mode, with the
conditions of arming, a lane begins at STEP 1 with CAUSE 0; a write of SYS_ARM that may not arm sets REFUSED; at ARM_VDC the
guard goes from HOLD to ARM and KM is driven closed and counted; a precharge or gate-chain time-out opens both contactors (KP
not while the guard short-circuits a port), returns the guard to HOLD and shows CAUSE 10 or 13. -/
def Obligations.arming_sequence : Prop :=
    (∀ (l : LaneId), Does (.armAutoStart l)
      (fun L => L.firmware = true ∧ L.img.start.armMode = 0 ∧ L.running .armRetry = false ∧ L.mayArm = true)
      (fun L M => M.rd Reg.SYS_ARM_STEP = 1 ∧ M.rd Reg.SYS_STATE_CAUSE = 0 ∧ M.timerAt .precharge = some L.el ∧ M.svc = L.svc ∧ M.gstate = L.gstate ∧
        M.rd Reg.LG_CONT_KMCMD = L.rd Reg.LG_CONT_KMCMD ∧ M.rd Reg.LG_CONT_KPCMD = L.rd Reg.LG_CONT_KPCMD)) ∧
    (∀ (l : LaneId), Does (.sysArmWrite l)
      (fun L => L.firmware = true ∧ L.img.start.armMode = 1 ∧ L.mayArm = true)
      (fun L M => M.rd Reg.SYS_ARM_STEP = 1 ∧ M.rd Reg.SYS_STATE_CAUSE = 0 ∧ M.timerAt .precharge = some L.el ∧ M.svc = L.svc ∧ M.gstate = L.gstate ∧
        M.rd Reg.LG_CONT_KMCMD = L.rd Reg.LG_CONT_KMCMD ∧ M.rd Reg.LG_CONT_KPCMD = L.rd Reg.LG_CONT_KPCMD)) ∧
    (∀ (l : LaneId), Does (.sysArmWrite l)
      (fun L => L.firmware = true ∧ L.img.start.armMode = 1 ∧ L.mayArm = false)
      (fun L M => M.is Reg.SYS_ARM_REFUSED = true ∧ M.rd Reg.SYS_ARM_STEP = L.rd Reg.SYS_ARM_STEP ∧ M.timers = L.timers ∧ M.gstate = L.gstate ∧ M.svc = L.svc ∧
        (∀ c, L.svc = 2 → L.rd Reg.SYS_ARM_STEP = 0 → L.armBar = some (c + 1) → M.rd Reg.SYS_STATE_CAUSE = (c + 1) % 16))) ∧
    (∀ (l : LaneId), Does (.dcLinkAtArmVdc l)
      (fun L => L.rd Reg.SYS_ARM_STEP = 1 ∧ L.svc = 2 ∧ L.guardSt.powered = true ∧ L.is Reg.LG_CONT_KMCMD = false ∧ L.is Reg.LG_CONT_KM_NO = false)
      (fun L M => M.rd Reg.SYS_ARM_STEP = 2 ∧ M.gstate = 1 ∧ M.is Reg.LG_CONT_KMCMD = true ∧ M.running .precharge = false ∧ M.svc = 2 ∧
        M.rd Reg.LG_KOPS_KM = satUp 65535 (L.rd Reg.LG_KOPS_KM) 1)) ∧
    (∀ (l : LaneId) (dt : Nat), Does (.prechargeTimeout l dt)
      (fun L => L.rd Reg.SYS_ARM_STEP = 1 ∧ (L.pass dt).due .precharge (L.img.start.prechargeMs * 1000000) = true)
      (fun L M => M.running .precharge = false ∧ M.timerAt .armRetry = some (L.pass dt).el ∧ M.rd Reg.SYS_ARM_STEP = 0 ∧ M.rd Reg.SYS_STATE_CAUSE = 10 ∧ M.gstate = 0 ∧
        M.is Reg.LG_CONT_KMCMD = false ∧ (L.rd Reg.GD_STAT_ASC = 0 → M.is Reg.LG_CONT_KPCMD = false))) ∧
    (∀ (l : LaneId) (dt : Nat), Does (.gateChainEnableTimeout l dt)
      (fun L => L.rd Reg.SYS_ARM_STEP = 4 ∧ (L.pass dt).due .gateEnable 10000000 = true)
      (fun L M => M.running .gateEnable = false ∧ M.timerAt .armRetry = some (L.pass dt).el ∧ M.rd Reg.SYS_ARM_STEP = 0 ∧ M.rd Reg.SYS_STATE_CAUSE = 13 ∧ M.gstate = 0 ∧
        M.is Reg.LG_CONT_KMCMD = false ∧ (L.rd Reg.GD_STAT_ASC = 0 → M.is Reg.LG_CONT_KPCMD = false)))

/-- VOTE_FRAME_TX, VOTE_FRAME_RX, VOTE_INPUT_LOST: with its RC reference running the guard sends its frame, counts its own codes
and evaluates the vote; a frame of the neighbour that is split or whose CRC is wrong sets its flag and source 321 or 322 and
ends the runs; a valid frame in sequence counts in every field and restarts the 50 us of that input; a loss sets source 323 or
324 and, with both inputs lost, withdraws the lane from every function. -/
def Obligations.vote_frames : Prop :=
    (∀ (l : LaneId), Does (.voteFrameTx l)
      (fun L => L.guardSt.powered = true ∧ L.guardSt.rcLost = false)
      (fun L M => M.out.take (L.out.length + 1) = L.out ++ [.vote (BitVec.ofNat 32 L.voteFrame)] ∧ M.vote.count = (L.vote.count + 1) % 8 ∧
        (∀ i : Fin 5, vget M.vote.ownCodes i = (vget L.vote.ownCodes i).next (nbits L.voteFrame (18 + 2 * i.val) 2) ∧
          vget M.vote.ownRotate i = (vget L.vote.ownRotate i).next (nbits L.voteFrame (13 + i.val) 1)) ∧ M.vote.inp = L.vote.inp ∧
        (∀ f ∈ L.functions, (L.servingSet f).contains L.id = true → (vget M.vote.ownCodes f.ix).value = 3 → M.serves f = false ∧ M.role f = 4))) ∧
    (∀ (l : LaneId) (sd : Side) (line0 line1 : Word) (c : Nat), Does (.voteFrameRx l sd line0 line1)
      (fun L => L.guardSt.powered = true ∧ L.guardSt.rcLost = false ∧ line1 = ~~~line0 ∧ voteCrc (line0.toNat / 256) = line0.toNat % 256 ∧
        nbits line0.toNat 28 4 = 0xB ∧ nbits line0.toNat 8 2 = L.sideCode sd ∧
        (vget L.vote.inp sd.ix).last = some c ∧ nbits line0.toNat 10 3 = (c + 1) % 8)
      (fun L M => vget M.vote.inp sd.ix = ⟨false, some (nbits line0.toNat 10 3),
            Vector.ofFn (fun (i : Fin 5) => (vget (vget L.vote.inp sd.ix).codes i).next (nbits line0.toNat (18 + 2 * i.val) 2)),
            Vector.ofFn (fun (i : Fin 5) => (vget (vget L.vote.inp sd.ix).rotate i).next (nbits line0.toNat (13 + i.val) 1))⟩ ∧
        M.timerAt (.voteIn sd) = some L.el ∧
        (∀ f ∈ L.functions, L.servingSet f = [.a, .b, .c] → (∀ y : LaneId, y ≠ L.id → accused y (M.codeIn y f) = some L.id) →
          M.serves f = false ∧ M.role f = 4))) ∧
    (∀ (l : LaneId) (sd : Side) (line0 line1 : Word), Does (.voteFrameRx l sd line0 line1)
      (fun L => L.guardSt.powered = true ∧ L.guardSt.rcLost = false ∧ line1 ≠ ~~~line0 ∧ voteCrc (line0.toNat / 256) = line0.toNat % 256)
      (fun L M => M.sticky (321 + sd.ix.val) = true ∧ M.is (Reg.ROLE_VOTE_IN_SPLIT (L.sideCode sd)) = true ∧ M.timerAt (.voteIn sd) = L.timerAt (.voteIn sd) ∧
        vget M.vote.inp sd.ix = { vget L.vote.inp sd.ix with codes := (vget L.vote.inp sd.ix).codes.map Counted.broken, rotate := (vget L.vote.inp sd.ix).rotate.map Counted.broken })) ∧
    (∀ (l : LaneId) (sd : Side) (line0 line1 : Word), Does (.voteFrameRx l sd line0 line1)
      (fun L => L.guardSt.powered = true ∧ L.guardSt.rcLost = false ∧ line1 = ~~~line0 ∧ voteCrc (line0.toNat / 256) ≠ line0.toNat % 256)
      (fun L M => M.sticky (321 + sd.ix.val) = true ∧ M.is (Reg.ROLE_VOTE_IN_CRC (L.sideCode sd)) = true ∧ M.timerAt (.voteIn sd) = L.timerAt (.voteIn sd) ∧
        vget M.vote.inp sd.ix = { vget L.vote.inp sd.ix with codes := (vget L.vote.inp sd.ix).codes.map Counted.broken, rotate := (vget L.vote.inp sd.ix).rotate.map Counted.broken })) ∧
    (∀ (l : LaneId) (dt : Nat) (sd : Side), Does (.voteInputLost l dt sd)
      (fun L => L.guardSt.powered = true ∧ (vget L.vote.inp sd.ix).lost = false ∧ (L.pass dt).due (.voteIn sd) 50000 = true)
      (fun L M => vget M.vote.inp sd.ix = Init.voteIn ∧ M.sticky (323 + sd.ix.val) = true ∧ M.running (.voteIn sd) = false ∧
        ((∀ i, i ≠ sd.ix → (vget L.vote.inp i).lost = true) → ∀ i, vget M.vote.withdraw i = true)))

/-- ROLE_ACCUSE_CODE_WRITE, ROLE_ROTATE_PROPOSE, MINORITY_ACCUSATION_TIMEOUT, TWO_LANE_DISAGREEMENT_TIMEOUT: P_0 writes the
codes, a code 3 withdrawing the lane for good, and the proposals; the same writes of P_1 do nothing but raise source 20; an
accusation that stands alone for 20 ms raises source 320; two lanes that disagree for 20 ms put a served function into Winter
with cause 10. -/
def Obligations.accusations : Prop :=
    (∀ (l : LaneId) (code : BitVec 10), Does (.roleAccuseCodeWrite l 0 code)
      (fun L => L.firmware = true ∧ L.pairLive 0 = true)
      (fun L M => M.rd Reg.ROLE_ACCUSE_CODE = code.toNat ∧ (∀ f : Func, vget M.vote.withdraw f.ix =
          (vget L.vote.withdraw f.ix || decide (nbits code.toNat (2 * f.code) 2 = 3))) ∧
        M = { L.wr Reg.ROLE_ACCUSE_CODE code.toNat with vote := { L.vote with withdraw := M.vote.withdraw } })) ∧
    (∀ (l : LaneId) (code : BitVec 10), Does (.roleAccuseCodeWrite l 1 code)
      (fun L => L.firmware = true ∧ L.pairLive 1 = true)
      (fun L M => L.Reacts M ∧ M.sticky 20 = true)) ∧
    (∀ (l : LaneId) (r : BitVec 5), Does (.roleRotatePropose l 0 r)
      (fun L => L.firmware = true ∧ L.pairLive 0 = true)
      (fun L M => M = L.wr Reg.ROLE_ACCUSE_ROTATE r.toNat ∧ M.rd Reg.ROLE_ACCUSE_ROTATE = r.toNat)) ∧
    (∀ (l : LaneId) (r : BitVec 5), Does (.roleRotatePropose l 1 r)
      (fun L => L.firmware = true ∧ L.pairLive 1 = true)
      (fun L M => L.Reacts M ∧ M.sticky 20 = true)) ∧
    (∀ (l : LaneId) (dt : Nat) (f : Func), Does (.minorityAccusationTimeout l dt f)
      (fun L => (L.pass dt).due (.minority f) 20000000 = true)
      (fun L M => (L.pass dt).Reacts M ∧ M.sticky 320 = true)) ∧
    (∀ (l : LaneId) (dt : Nat) (f : Func), Does (.twoLaneDisagreementTimeout l dt f)
      (fun L => (L.pass dt).due (.disagree f) 20000000 = true ∧ L.serves f = true ∧ L.mode f ≠ 2)
      (fun _ M => M.running (.disagree f) = false ∧ M.mode f = 2 ∧ M.rd (Reg.ROLE_FUNC_CAUSE f.code) = 10))

/-- LL_REFERENCE_WRITE, REFERENCE_RX, REFERENCE_WATCHDOG_EXPIRY, HOLD_LIMIT_EXPIRY: a reference of a core of P_0 that runs alone
is numbered by the active lane, goes into the links as a frame of the first class and to the own intakes; a paired core's is
held in its output buffer; a write of P_1 only raises source 20; a lane that neither holds nor has just lost the active role
sends nothing; a reference that passes the tests is accepted by every intake of its function and its number kept, any other is
counted in ROLE_OVL.DROPPED; a watchdog that expires accuses the active lane, with FIRED and source 325 + f; a hold limit
withdraws the lane and takes the function solenoid drivers to SAFE. -/
def Obligations.references : Prop :=
    (∀ (l : LaneId) (core : Core) (r : RefRecord), Does (.llReferenceWrite l core r)
      (fun L => L.firmware = true ∧ L.coreLive core = true ∧ L.paired (pairOf core) = false ∧ L.debugged (pairOf core) = false ∧ pairOf core = 0 ∧ L.role r.func = 1 ∧ L.rd (Reg.ROLE_FUNC_ACT r.func.code) = L.id.code ∧
        ((L.fn r.func).hasSeq = false ∨ newer32 ((L.fn r.func).nextSeq.getD (L.firstSeq r.func)) (L.rd (Reg.ROLE_SEQ r.func.code)) = true) ∧
        L.winterTorque r.func = false ∧ L.now ≤ L.fixStamp r.trel + 2 * L.periodNs r.func)
      (fun L M => M.link = linkAdd ⟨some (.reference ({ r with lane := L.id, seq := (L.fn r.func).nextSeq.getD (L.firstSeq r.func) } : RefRecord)), 0, 288, 288, false⟩ L.link ∧
        M.rd (Reg.ROLE_SEQ r.func.code) = (L.fn r.func).nextSeq.getD (L.firstSeq r.func) % 2 ^ 32 ∧
        (M.fn r.func).nextSeq = some (((L.fn r.func).nextSeq.getD (L.firstSeq r.func) + 1) % 2 ^ 32) ∧
        ∀ n ∈ L.intakesOf r.func, (vget (M.de n).intake r.func.ix).waiting.head? = some (({ r with lane := L.id, seq := (L.fn r.func).nextSeq.getD (L.firstSeq r.func) } : RefRecord), L.el))) ∧
    (∀ (l : LaneId) (core : Core) (r : RefRecord), Does (.llReferenceWrite l core r)
      (fun L => L.coreLive core = true ∧ L.paired (pairOf core) = true ∧ (vget L.core core).obuf.length < 128 ∧ L.occupancy core < 128 ∧ (vget L.core core).run ≠ .rom)
      (fun L M => (vget M.core core).obuf = (vget L.core core).obuf ++ [.ref r] ∧ (vget M.core core).count = ((vget L.core core).count + 1) % 65536 ∧
        M.link = L.link ∧ M.engine = L.engine ∧ M.roles = L.roles)) ∧
    (∀ (l : LaneId) (core : Core) (r : RefRecord), Does (.llReferenceWrite l core r)
      (fun L => L.firmware = true ∧ L.coreLive core = true ∧ L.paired (pairOf core) = false ∧ L.debugged (pairOf core) = false ∧ pairOf core = 1)
      (fun L M => M.sticky 20 = true ∧ M.roles = L.roles ∧ (L.coreRuns core).Reacts M)) ∧
    (∀ (l : LaneId) (core : Core) (r : RefRecord), Does (.llReferenceWrite l core r)
      (fun L => L.firmware = true ∧ L.coreLive core = true ∧ L.paired (pairOf core) = false ∧ L.debugged (pairOf core) = false ∧ pairOf core = 0 ∧ L.role r.func ≠ 1 ∧ (L.fn r.func).stopSend = none)
      (fun L M => M.link = L.link ∧ M.regs = L.regs ∧ M.engine = L.engine ∧ M.roles = L.roles)) ∧
    (∀ (l : LaneId) (sd : Side) (r : RefRecord), Does (.referenceRx l sd r)
      (fun L => L.firmware = true ∧ r.lane = L.id.nb sd ∧ L.winterTorque r.func = false ∧ L.refOk r = true)
      (fun L M => M.rd (Reg.ROLE_SEQ r.func.code) = r.seq % 2 ^ 32 ∧ (M.fn r.func).hasSeq = true ∧ M.rd Reg.ROLE_OVL_DROPPED = L.rd Reg.ROLE_OVL_DROPPED ∧
        ∀ n ∈ L.intakesOf r.func, (vget (M.de n).intake r.func.ix).waiting.head? = some (r, L.el))) ∧
    (∀ (l : LaneId) (sd : Side) (r : RefRecord), Does (.referenceRx l sd r)
      (fun L => L.firmware = true ∧ r.lane = L.id.nb sd ∧ L.winterTorque r.func = false ∧ L.refOk r = false)
      (fun L M => M.rd Reg.ROLE_OVL_DROPPED = satUp 65535 (L.rd Reg.ROLE_OVL_DROPPED) 1 ∧ M.rd (Reg.ROLE_SEQ r.func.code) = L.rd (Reg.ROLE_SEQ r.func.code) ∧
        M.engine = L.engine)) ∧
    (∀ (l : LaneId) (dt : Nat) (f : Func) (sd : Side), Does (.referenceWatchdogExpiry l dt f)
      (fun L => L.serves f = true ∧ L.role f ≠ 1 ∧ (L.pass dt).due (.watchdog f) (L.watchdogNs f + 1) = true ∧ L.sideOf (L.rd (Reg.ROLE_FUNC_ACT f.code)) = some sd)
      (fun L M => M.is (Reg.ROLE_REFWD_FIRED f.code) = true ∧ M.sticky (325 + f.code) = true ∧ (vget M.vote.hardware f.ix).any (fun e => decide (e.1 = sd)) = true ∧
        ((((L.pass dt).accuse f sd).set1 (Reg.ROLE_REFWD_FIRED f.code))).Reacts M)) ∧
    (∀ (l : LaneId) (dt : Nat) (f : Func), Does (.holdLimitExpiry l dt f)
      (fun L => L.serves f = true ∧ ∃ n ∈ L.intakesOf f, (L.pass dt).due (.hold n f) (L.holdLimit f) = true)
      (fun L M => vget M.vote.withdraw f.ix = true ∧ (∀ n ∈ L.svsOf f, M.is (Reg.GD_SV_FORCED n.val) = true ∧ (vget M.solenoid n).forced = true) ∧ M.roles = L.roles))

/-- OUTER_LOOP_RELEASE: a committed swap that is 20 us old rotates the three roles, the rotation index and the history number
rise by one, and DONE is set; with no swap committed the release leaves the roles and evaluates watchdog, proposal and
authority. EQUINOX_DUE makes the swap of every present function due once per EQX_S of device time. EQUINOX_GIVE_UP, EQX_S after
a due moment, gives the swap up, counts it and withdraws its proposal. -/
def Obligations.equinox_and_release : Prop :=
    (∀ (l : LaneId) (dt : Nat) (f : Func) (sr br : Nat) (a : AuthIn) (e : Nat), Does (.outerLoopRelease l dt f sr br a)
      (fun L => L.firmware = true ∧ L.present f = true ∧ (L.pass dt).releaseTime f ≠ (L.fn f).released ∧ (L.fn f).commit = some e ∧
        e + 20000 ≤ ((L.pass dt).onFn f (fun x => { x with released := (L.pass dt).releaseTime f })).releaseEl f ∧
        L.rd (Reg.ROLE_FUNC_ACT f.code) < 3 ∧ L.rd (Reg.ROLE_FUNC_STB f.code) < 3 ∧ L.rd (Reg.ROLE_FUNC_ARB f.code) < 3)
      (fun L M => M.rd (Reg.ROLE_FUNC_ACT f.code) = L.rd (Reg.ROLE_FUNC_STB f.code) ∧ M.rd (Reg.ROLE_FUNC_STB f.code) = L.rd (Reg.ROLE_FUNC_ARB f.code) ∧
        M.rd (Reg.ROLE_FUNC_ARB f.code) = L.rd (Reg.ROLE_FUNC_ACT f.code) ∧ (M.fn f).commit = none ∧ (M.fn f).eqxDue = false ∧
        vget M.ret.history f.ix = ⟨((vget L.ret.history f.ix).index + 1) % 3, ((vget L.ret.history f.ix).seq + 1) % 2 ^ 32⟩ ∧
        M.rd (Reg.ROLE_FUNC_ROT f.code) = ((vget L.ret.history f.ix).index + 1) % 3 ∧ M.bitOf Reg.ROLE_EQX_DONE f.code = true ∧
        (M.fn f).released = (L.pass dt).releaseTime f ∧ M.roles.lastSwap = some (((L.pass dt).onFn f (fun x => { x with released := (L.pass dt).releaseTime f })).releaseEl f))) ∧
    (∀ (l : LaneId) (dt : Nat) (f : Func) (sr br : Nat) (a : AuthIn), Does (.outerLoopRelease l dt f sr br a)
      (fun L => L.firmware = true ∧ L.present f = true ∧ (L.pass dt).releaseTime f ≠ (L.fn f).released ∧ (L.fn f).commit = none)
      (fun L M => (M.fn f).released = (L.pass dt).releaseTime f ∧ M.rd (Reg.ROLE_FUNC_ACT f.code) = L.rd (Reg.ROLE_FUNC_ACT f.code) ∧
        M.rd (Reg.ROLE_FUNC_STB f.code) = L.rd (Reg.ROLE_FUNC_STB f.code) ∧ M.rd (Reg.ROLE_FUNC_ARB f.code) = L.rd (Reg.ROLE_FUNC_ARB f.code) ∧
        vget M.ret.history f.ix = vget L.ret.history f.ix ∧ M.mode f = L.mode f ∧
        M.bitOf Reg.ROLE_ACCUSE_ROTATE f.code = (L.bitOf Reg.ROLE_ACCUSE_ROTATE f.code ||
          ((L.pass dt).onFn f (fun x => { x with released := (L.pass dt).releaseTime f })).mayPropose f sr br))) ∧
    (∀ (l : LaneId) (dt : Nat), Does (.equinoxDue l dt)
      (fun L => L.firmware = true ∧ L.roles.eqxSeen < (L.pass dt).now / (max 1 L.img.eqxS * 1000000000))
      (fun L M => M.roles.eqxSeen = (L.pass dt).now / (max 1 L.img.eqxS * 1000000000) ∧
        ∀ f ∈ L.functions, (M.fn f).eqxDue = true ∧ M.timerAt (.eqxDue f) = some (L.pass dt).el)) ∧
    (∀ (l : LaneId) (dt : Nat) (f : Func), Does (.equinoxGiveUp l dt f)
      (fun L => (L.fn f).eqxDue = true ∧ (L.pass dt).due (.eqxDue f) (L.img.eqxS * 1000000000) = true)
      (fun L M => (M.fn f).eqxDue = false ∧ M.rd Reg.ROLE_EQX_DEFERRED = satUp 255 (L.rd Reg.ROLE_EQX_DEFERRED) 1 ∧
        M.bitOf Reg.ROLE_ACCUSE_ROTATE f.code = false ∧ M.running (.eqxDue f) = false))

/-- AUTUMN_TIMER_EXPIRY, WINTER_STANDSTILL, AUTUMN_CAUSE_CLEAR_TIMER, SPEED_REQUEST_TIMER, SUPPLY_LOSS_TIMEOUT,
HOST_LOSS_TIMEOUT, ROLE_CLR_WRITE: the Autumn timer of a served function ends in Winter with cause 8 and a record of no time
left; standstill in Winter takes the PARK drivers to 0; the last cause to clear ends Autumn; the speed request is repeated each
second; a lost supply in RUN withholds every grant, sets SLOSS and source 259 and withdraws the lane from STEER, FEEL and BRAKE;
a silent vehicle host raises source 394, ends its engagements and puts STEER and BRAKE in Autumn; restored records are cleared
in READY. -/
def Obligations.autumn_and_winter : Prop :=
    (∀ (l : LaneId) (dt : Nat) (f : Func), Does (.autumnTimerExpiry l dt f)
      (fun L => L.serves f = true ∧ L.mode f = 1 ∧ (L.pass dt).due (.autumn f) 0 = true)
      (fun _ M => M.mode f = 2 ∧ M.rd (Reg.ROLE_FUNC_CAUSE f.code) = 8 ∧ vget M.ret.winter f.ix = some ⟨true, 0⟩ ∧ M.running (.autumn f) = false)) ∧
    (∀ (l : LaneId) (dt : Nat) (known : Bool), Does (.winterStandstill l dt known)
      (fun L => L.winterBrake = true ∧ (L.pass dt).due .standstill (if known then 2000000000 else 10000000000) = true)
      (fun L M => M.roles.winter = ⟨true⟩ ∧ (L.mode .park = 2 → ∀ n ∈ L.svsOf .park, L.funcOfSv n = some .park → (vget M.solenoid n).setpoint = 0))) ∧
    (∀ (l : LaneId) (dt : Nat) (f : Func), Does (.autumnCauseClearTimer l dt f 6)
      (fun L => L.mode f = 1 ∧ (L.fn f).causes = [6] ∧ (L.pass dt).due (.causeClear f 6) 1000000000 = true)
      (fun _ M => M.mode f = 0 ∧ M.rd (Reg.ROLE_FUNC_CAUSE f.code) = 0 ∧ (M.fn f).causes = [] ∧ M.running (.autumn f) = false ∧ M.running (.causeClear f 6) = false)) ∧
    (∀ (l : LaneId) (dt : Nat) (f : Func), Does (.autumnCauseClearTimer l dt f 2)
      (fun L => ∀ c : Fin 2, funcOfChannel c ≠ f ∨ (L.pass dt).zClear c = true)
      (fun L M => if L.mode f = 1 ∧ (L.fn f).causes.contains 2 = true then
          (M.fn f).causes = (L.fn f).causes.filter (fun c => decide (c ≠ 2)) ∧
            ((M.fn f).causes = [] → M.mode f = 0 ∧ M.rd (Reg.ROLE_FUNC_CAUSE f.code) = 0 ∧ M.running (.autumn f) = false) ∧
            ((M.fn f).causes ≠ [] → M.mode f = 1)
        else M = L.pass dt)) ∧
    (∀ (l : LaneId) (dt : Nat) (f : Func) (h : Fin 4), Does (.speedRequestTimer l dt f)
      (fun L => L.mode f = 1 ∧ (L.pass dt).due (.speedReq f) 1000000000 = true ∧ (L.portOfKind 0 = none ∨ L.roles.hostSeen = false ∨ L.roles.hostLost = true) ∧ L.portOfKind 2 = some h)
      (fun L M => M.timerAt (.speedReq f) = some (L.pass dt).el ∧ M.mode f = 1 ∧
        (if L.hostHas h 9 = true ∧ L.is Reg.IB_STAT_CLAIMED = false then M.out = (L.pass dt).out ∧ M.regs = L.regs
        else if L.hostHas h 9 = true then
          M.out = (L.pass dt).out ++ [.isobus 0xEF00 0xFF ([0x02] ++ leBytes 2 (vget L.img.season f.ix).speedReq ++ List.replicate 5 0xFF)]
        else M.out = (L.pass dt).out ∧ M.rd Reg.IB_CNT_DISC = min 65535 (L.rd Reg.IB_CNT_DISC + 1)))) ∧
    (∀ (l : LaneId) (dt : Nat) (f : Func) (h : Fin 4) (q : Fin 16), Does (.speedRequestTimer l dt f)
      (fun L => L.mode f = 1 ∧ (L.pass dt).due (.speedReq f) 1000000000 = true ∧ L.portOfKind 0 = some h ∧ L.roles.hostSeen = true ∧ L.roles.hostLost = false ∧
        L.replyQueue h = some q ∧ L.hostLocked h = true ∧ L.queueFree q = true)
      (fun L M => M.timerAt (.speedReq f) = some (L.pass dt).el ∧ M.mode f = 1 ∧ (vget M.queue q).next = ((vget L.queue q).next + 1) % 2 ^ 32 ∧
        M.rd (Reg.HQ_PTR_TAIL q.val) = ((vget L.queue q).next + 1) % 2 ^ 32)) ∧
    (∀ (l : LaneId) (dt : Nat) (f : Func), Does (.speedRequestTimer l dt f)
      (fun L => L.mode f ≠ 1)
      (fun L M => M.running (.speedReq f) = false ∧ M.regs = L.regs ∧ M.out = (L.pass dt).out)) ∧
    (∀ (l : LaneId) (dt : Nat), Does (.supplyLossTimeout l dt)
      (fun L => L.gstate = 2 ∧ L.is Reg.LG_CONT_KMCMD = true ∧ L.kmAgrees = true ∧ L.is Reg.LG_STATUS_SLOSS = false)
      (fun L M => M.is Reg.LG_STATUS_SLOSS = true ∧ M.sticky 259 = true ∧ (∀ p : Port, M.bitOf Reg.GD_STAT_EN p.val = false) ∧
        ∀ f ∈ [Func.steer, .feel, .brake], L.serves f = true → vget M.vote.withdraw f.ix = true ∧ (M.fn f).supplyCause ≠ 0 ∧ M.mode f ≠ 0)) ∧
    (∀ (l : LaneId) (dt : Nat), Does (.hostLossTimeout l dt)
      (fun L => L.firmware = true ∧ L.roles.hostSeen = true ∧ L.roles.hostLost = false ∧ (L.pass dt).due .vehicleHost 100000000 = true)
      (fun L M => M.roles.hostLost = true ∧ M.sticky 394 = true ∧ M.fault.level.contains 394 = true ∧ M.running .vehicleHost = false ∧
        ∀ f ∈ [Func.steer, .brake], (∀ h : Fin 4, M.bitOf (Reg.HQ_PORT_ENGAGED h.val) f.code = false) ∧
          (L.serves f = true → L.mode f = 0 → M.mode f = 1 ∧ M.rd (Reg.ROLE_FUNC_CAUSE f.code) = 6))) ∧
    (∀ (l : LaneId) (p : Pair) (mask : BitVec 5), Does (.roleClrWrite l p mask)
      (fun L => L.svc = 2 ∧ L.pairLive p = true)
      (fun L M => M = { L with ret := { L.ret with autumn := M.ret.autumn } } ∧
        ∀ f : Func, vget M.ret.autumn f.ix = if nbit mask.toNat f.code then ⟨false, 0⟩ else vget L.ret.autumn f.ix))

/-- PAIRED_OUTPUT_WRITE, PAIRED_INPUT_LOAD, REGISTER_WRITE: an access of a running core that the map does not allow sets its
fault and changes nothing else; a store of a paired core outside its window waits in its output buffer, counts and enters its
signature, memory and every register but the signature and the occupancy mark being unchanged; a store to SRAM that nothing
holds writes its bytes there and no other; a load of the trailing core receives the recorded value, one of the leading core is
recorded, one of a core that runs alone returns what lies there; a register write changes the fields that a write of their kind
changes, PERIOD and MISS while ROLE_CTRL.LOCK is 0 only. -/
def Obligations.core_accesses : Prop :=
    (∀ (l : LaneId) (c : Core) (a n v : Nat), Does (.pairedOutputWrite l c a n v)
      (fun L => L.coreLive c = true ∧ L.paired (pairOf c) = true ∧ accessOk (some c) a n true = true ∧ inWindow (pairOf c) a = false ∧ a ≠ 0x20020010 ∧
        (vget L.core c).obuf.length < 128 ∧ L.occupancy c < 128)
      (fun L M => (vget M.core c).obuf = (vget L.core c).obuf ++ [.bus ⟨a, n, v⟩] ∧ (vget M.core c).count = ((vget L.core c).count + 1) % 65536 ∧
        M.rd (Reg.CM_SIG c.val) =
          sigOf (if (vget L.core c).marked then sigInit else L.rd (Reg.CM_SIG c.val)) (OutWrite.bytes (.bus ⟨a, n, v⟩)) % 2 ^ 64 ∧
        M = { L with regs := M.regs, core := M.core } ∧
        (∀ g : Fld, g.key ≠ (Reg.CM_SIG c.val).key → g.key ≠ Reg.CM_OBUF_HIGH_OCC_0.key → g.key ≠ Reg.CM_OBUF_HIGH_OCC_1.key →
          M.rd g = L.rd g))) ∧
    (∀ (l : LaneId) (c : Core) (a n v : Nat), Does (.pairedOutputWrite l c a n v)
      (fun L => L.coreLive c = true ∧ accessOk (some c) a n true = false)
      (fun L M => (vget M.core c).accessFault = true ∧ M = { L with core := M.core } ∧ ∀ d, d ≠ c → vget M.core d = vget L.core d)) ∧
    (∀ (l : LaneId) (c : Core) (a n v : Nat), Does (.pairedOutputWrite l c a n v)
      (fun L => L.coreLive c = true ∧ L.paired (pairOf c) = false ∧ (L.debugged (pairOf c) && isOdd c) = false ∧ accessOk (some c) a n true = true ∧
        placeOf a = .sram ∧ inWindow (pairOf c) a = false ∧ L.commitHolds a n = false ∧ L.ret.stalled = [] ∧ L.waitsAt (some c) = none ∧ L.asleep a = none ∧ L.groupHolds a n = false)
      (fun L M => M = { L with sram := M.sram, core := M.core } ∧
        ∀ b, Tab.get 0 M.sram b = if a ≤ b ∧ b < a + n then BitVec.ofNat 8 (v / 256 ^ (b - a)) else Tab.get 0 L.sram b)) ∧
    (∀ (l : LaneId) (c : Core) (a n v : Nat), Does (.pairedOutputWrite l c a n v)
      (fun L => L.coreLive c = true ∧ accessOk (some c) a n true = true ∧ inWindow (pairOf c) a = true)
      (fun L M => M = { L with sram := M.sram, core := M.core } ∧
        ∀ b, Tab.get 0 M.sram b = if sramAddr (some c) a ≤ b ∧ b < sramAddr (some c) a + n then BitVec.ofNat 8 (v / 256 ^ (b - sramAddr (some c) a)) else Tab.get 0 L.sram b)) ∧
    (∀ (l : LaneId) (c : Core) (a n v : Nat), Does (.registerWrite l c a n v)
      (fun L => L.coreLive c = true ∧ accessOk (some c) a n true = true ∧ placeOf a = .sram ∧ L.commitHolds a n = false ∧ L.ret.stalled = [] ∧ L.waitsAt (some c) = none ∧ L.asleep a = none ∧ L.groupHolds a n = false)
      (fun L M => M = { L with sram := M.sram, core := M.core } ∧
        ∀ b, Tab.get 0 M.sram b = if sramAddr (some c) a ≤ b ∧ b < sramAddr (some c) a + n then BitVec.ofNat 8 (v / 256 ^ (b - sramAddr (some c) a)) else Tab.get 0 L.sram b)) ∧
    (∀ (l : LaneId) (c : Core) (a n v : Nat) (rest : List (Option Nat)), Does (.pairedInputLoad l c a n)
      (fun L => L.coreLive c = true ∧ L.paired (pairOf c) = true ∧ a < 2 ^ 64 ∧ accessOk (some c) a n false = true ∧ inWindow (pairOf c) a = false ∧ 0x40000 ≤ a ∧
        (vget L.pair (pairOf c)).repl = some v :: rest ∧ (vget L.core c).loads < (vget L.pair (pairOf c)).replBase + rest.length + 1)
      (fun L M => (vget M.core c).lastLoad = v ∧ (vget M.pair (pairOf c)).repl = rest ∧ (vget M.core c).loads = (vget L.core c).loads + 1 ∧
        M = { L with regs := M.regs, core := M.core, pair := M.pair })) ∧
    (∀ (l : LaneId) (c : Core) (a n : Nat), Does (.pairedInputLoad l c a n)
      (fun L => L.coreLive c = true ∧ L.paired (pairOf c) = true ∧ a < 2 ^ 64 ∧ accessOk (some c) a n false = true ∧ inWindow (pairOf c) a = false ∧
        placeOf a = .sram ∧ L.ret.stalled = [] ∧ L.waitsAt (some c) = none ∧ L.asleep a = none ∧ L.groupHolds a n = false ∧ (vget L.pair (pairOf c)).repl.length < 64 ∧
        (vget L.pair (pairOf c)).repl.all (fun x => x.isSome) = true ∧
        (vget L.pair (pairOf c)).replBase + (vget L.pair (pairOf c)).repl.length ≤ (vget L.core c).loads)
      (fun L M => (vget M.core c).lastLoad = ofLe (L.sramBytes a n) ∧ (vget M.core c).loads = (vget L.core c).loads + 1 ∧
        (vget M.pair (pairOf c)).repl = (vget L.pair (pairOf c)).repl ++ [some (ofLe (L.sramBytes a n))] ∧
        M = { L with regs := M.regs, core := M.core, pair := M.pair })) ∧
    (∀ (l : LaneId) (c : Core) (a n : Nat), Does (.pairedInputLoad l c a n)
      (fun L => L.coreLive c = true ∧ a < 2 ^ 64 ∧ accessOk (some c) a n false = false)
      (fun L M => (vget M.core c).accessFault = true ∧ M = { L with core := M.core } ∧ ∀ d, d ≠ c → vget M.core d = vget L.core d)) ∧
    (∀ (l : LaneId) (c : Core) (a n : Nat), Does (.pairedInputLoad l c a n)
      (fun L => L.coreLive c = true ∧ L.paired (pairOf c) = false ∧ a < 2 ^ 64 ∧ accessOk (some c) a n false = true ∧ inWindow (pairOf c) a = false ∧
        (placeOf a = .sram ∨ 0x20010000 ≤ a ∧ a < 0x20020000) ∧ L.ret.stalled = [] ∧ L.waitsAt (some c) = none ∧ L.asleep a = none ∧ L.groupHolds a n = false)
      (fun L M => (vget M.core c).lastLoad = (if a < 0x20000000 then ofLe (L.sramBytes a n) else L.regValue a) ∧ M = { L with core := M.core })) ∧
    (∀ (l : LaneId) (c : Core) (f : Func) (v : Nat), Does (.registerWrite l c (0x20010060 + 4 * f.code) 4 v)
      (fun L => L.coreLive c = true ∧ L.ret.stalled = [] ∧ L.waitsAt (some c) = none ∧ L.is Reg.ROLE_CTRL_LOCK = false ∧ 5 ≤ nbits v 0 10 ∧ nbits v 0 10 ≤ 100 ∧ 1 ≤ nbits v 12 2)
      (fun L M => M.rd (Reg.ROLE_REFWD_PERIOD f.code) = nbits v 0 10 ∧ M.rd (Reg.ROLE_REFWD_MISS f.code) = nbits v 12 2 ∧
        M = { L with regs := M.regs, core := M.core })) ∧
    (∀ (l : LaneId) (c : Core) (f : Func) (v : Nat), Does (.registerWrite l c (0x20010060 + 4 * f.code) 4 v)
      (fun L => L.coreLive c = true ∧ L.ret.stalled = [] ∧ L.waitsAt (some c) = none ∧ L.is Reg.ROLE_CTRL_LOCK = true)
      (fun L M => M.rd (Reg.ROLE_REFWD_PERIOD f.code) = L.rd (Reg.ROLE_REFWD_PERIOD f.code) ∧ M.rd (Reg.ROLE_REFWD_MISS f.code) = L.rd (Reg.ROLE_REFWD_MISS f.code))) ∧
    (∀ (l : LaneId) (c : Core) (a n v : Nat) (r : RegDef), Does (.registerWrite l c a n v)
      (fun L => L.coreLive c = true ∧ accessOk (some c) a n true = true ∧ a / 0x10000 = 0x2009 ∧ regAt a = some r ∧ L.groupHolds a n = false ∧ L.ret.stalled = [] ∧ L.waitsAt (some c) = none ∧ L.asleep a = none)
      (fun L M => M = { L with regs := M.regs, core := M.core } ∧ ∀ fd ∈ r.fields, L.fieldThere a fd.lo = true →
          M.rd ⟨a, fd.lo, fd.w⟩ = match fd.acc with
            | .rw => if fd.range.admits (nbits v fd.lo fd.w) then nbits v fd.lo fd.w else L.rd ⟨a, fd.lo, fd.w⟩
            | .rwl => if L.is Reg.IB_CTRL_LOCK = false ∧ fd.range.admits (nbits v fd.lo fd.w) = true then nbits v fd.lo fd.w else L.rd ⟨a, fd.lo, fd.w⟩
            | .w1c => (L.rd ⟨a, fd.lo, fd.w⟩ - Nat.land (L.rd ⟨a, fd.lo, fd.w⟩) (nbits v fd.lo fd.w)) % 2 ^ fd.w
            | .w1s => Nat.lor (L.rd ⟨a, fd.lo, fd.w⟩) (nbits v fd.lo fd.w) % 2 ^ fd.w
            | .ro | .wo => L.rd ⟨a, fd.lo, fd.w⟩)) ∧
    (∀ (l : LaneId) (c : Core) (a n v : Nat), Does (.registerWrite l c a n v)
      (fun L => L.coreLive c = true ∧ accessOk (some c) a n true = false)
      (fun L M => (vget M.core c).accessFault = true ∧ M = { L with core := M.core } ∧ ∀ d, d ≠ c → vget M.core d = vget L.core d))

/-- CM_CKPT_WRITE, CHECKPOINT_LAG_TIMEOUT, CORE_SELF_TEST_DONE, UNCORRECTABLE_CACHE_ERROR: a core of a split pair only counts; a
leading core marks its checkpoint, whose signature stands until the next fold or the match; when the other core has marked the
same checkpoint, equal signature, count and tag let the interval go and write CM_NUM, unequal ones halt both cores for the self-
test, record the mismatch and raise source 16 or 17; a lag time-out is a mismatch of KIND 3. Two passes below RETRY_MAX let both
cores run again from their entry in machine mode with registers of zero; one failure leaves a single core and bars the lane; two
halt the pair. A cache error raises the source of its core and poisons a paired signature. -/
def Obligations.checkpoints_and_mismatches : Prop :=
    (∀ (l : LaneId) (c : Core) (tag : Word), Does (.cmCkptWrite l c tag)
      (fun L => L.coreLive c = true ∧ L.paired (pairOf c) = false)
      (fun L M => (vget M.core c).ckpt = ((vget L.core c).ckpt + 1) % 2 ^ 32 ∧ M = { L with core := M.core } ∧ vget M.core (partner c) = vget L.core (partner c))) ∧
    (∀ (l : LaneId) (c : Core) (tag : Word), Does (.cmCkptWrite l c tag)
      (fun L => L.coreLive c = true ∧ L.paired (pairOf c) = true ∧ tag ≠ 0xFFFFFFFF ∧ (vget L.core (partner c)).marks = [])
      (fun L M => (vget M.core c).marks = (vget L.core c).marks ++ [⟨L.el, ((vget L.core c).ckpt + 1) % 2 ^ 32, BitVec.ofNat 64 (if (vget L.core c).marked then sigInit else L.rd (Reg.CM_SIG c.val)),
            (vget L.core c).count, tag, (vget L.core c).poison, (vget L.core c).obuf⟩] ∧
        (vget M.core c).ckpt = ((vget L.core c).ckpt + 1) % 2 ^ 32 ∧
        (vget M.core c).obuf = [] ∧ (vget M.core c).count = 0 ∧ (vget M.core c).marked = true ∧ M.rd (Reg.CM_SIG c.val) = (if (vget L.core c).marked then sigInit else L.rd (Reg.CM_SIG c.val)) % 2 ^ 64 ∧
        M = { L with regs := M.regs, core := M.core, pair := M.pair, plic := M.plic, power := M.power })) ∧
    (∀ (l : LaneId) (c : Core) (tag : Word) (b : Mark), Does (.cmCkptWrite l c tag)
      (fun L => L.coreLive c = true ∧ L.paired (pairOf c) = true ∧ tag ≠ 0xFFFFFFFF ∧ (vget L.core c).marks = [] ∧ (vget L.core (partner c)).marks = [b] ∧ b.num = ((vget L.core c).ckpt + 1) % 2 ^ 32 ∧
        b.poisoned = false ∧ (vget L.core c).poison = false ∧ b.sig = BitVec.ofNat 64 (if (vget L.core c).marked then sigInit else L.rd (Reg.CM_SIG c.val)) ∧
        b.count = (vget L.core c).count ∧ b.tag = tag ∧ b.writes = [] ∧ (vget L.core c).obuf = [])
      (fun L M => M.rd (Reg.CM_NUM (pairOf c).val) = b.num % 2 ^ 32 ∧ (vget M.core c).marks = [] ∧ (vget M.core (partner c)).marks = [] ∧
        M.rd (Reg.CM_SIG c.val) = sigInit ∧ (vget M.core c).marked = false ∧ M = { L with regs := M.regs, core := M.core, pair := M.pair, plic := M.plic, power := M.power })) ∧
    (∀ (l : LaneId) (c : Core) (tag : Word) (b : Mark), Does (.cmCkptWrite l c tag)
      (fun L => L.coreLive c = true ∧ L.paired (pairOf c) = true ∧ tag ≠ 0xFFFFFFFF ∧ (vget L.core c).marks = [] ∧ (vget L.core (partner c)).marks = [b] ∧ b.num = ((vget L.core c).ckpt + 1) % 2 ^ 32 ∧
        b.sig ≠ BitVec.ofNat 64 (if (vget L.core c).marked then sigInit else L.rd (Reg.CM_SIG c.val)))
      (fun _ M => M.sticky (16 + (pairOf c).val) = true ∧ M.rd Reg.CM_MISMATCH_KIND = 0 ∧ M.is Reg.CM_MISMATCH_NEW = true ∧
        M.rd Reg.CM_MISMATCH_PAIR = (pairOf c).val ∧ M.rd Reg.CM_MISMATCH_NUM = b.num % 2 ^ 32 ∧ M.bitOf Reg.CM_STATUS_SELFTEST (pairOf c).val = true ∧
        (vget M.core c).run = .selfTest ∧ (vget M.core (partner c)).run = .selfTest ∧ (vget M.core c).obuf = [] ∧
        (vget M.pair (pairOf c)).repl = [])) ∧
    (∀ (l : LaneId) (dt : Nat) (p : Pair) (m : Mark) (ms : List Mark), Does (.checkpointLagTimeout l dt p)
      (fun L => L.firmware = true ∧ L.paired p = true ∧ (vget L.core (evenCore p)).marks = m :: ms ∧ (vget L.core (oddCore p)).marks = [] ∧
        m.time + L.rd Reg.CM_CTRL_LAG * 1000 ≤ (L.pass dt).el)
      (fun _ M => M.sticky (16 + p.val) = true ∧ M.rd Reg.CM_MISMATCH_KIND = 3 ∧ M.is Reg.CM_MISMATCH_NEW = true ∧ M.rd Reg.CM_MISMATCH_PAIR = p.val ∧
        M.rd Reg.CM_MISMATCH_NUM = m.num % 2 ^ 32 ∧ M.bitOf Reg.CM_STATUS_SELFTEST p.val = true ∧
        ∀ c ∈ [evenCore p, oddCore p], (vget M.core c).run = .selfTest ∧ (vget M.core c).obuf = [] ∧ (vget M.core c).marks = [])) ∧
    (∀ (l : LaneId) (dt : Nat) (p : Pair), Does (.coreSelfTestDone l dt p true true)
      (fun L => L.firmware = true ∧ L.selfTesting p = true ∧ L.rd (retryFld p) < L.rd Reg.CM_CTRL_RETRY_MAX ∧ L.entryOk p = true ∧ (vget L.pair p).debugWaits = false ∧
        (p = 0 → L.is Reg.LG_CHAL_SUSP = true → (L.pass dt).due (.selfTest 0) 3500001 = false))
      (fun L M => M.bitOf Reg.CM_STATUS_SELFTEST p.val = false ∧ M.rd (retryFld p) = satUp (2 ^ (retryFld p).w - 1) (L.rd (retryFld p)) 1 ∧
        (L.rd Reg.CM_MISMATCH_PAIR = p.val → M.rd Reg.CM_MISMATCH_OUTCOME = 2) ∧ M.paired p = L.paired p ∧ (p = 0 → M.is Reg.LG_CHAL_SUSP = false) ∧
        ∀ c ∈ [evenCore p, oddCore p], vget M.core c =
          { Init.core with run := .running, pc := BitVec.ofNat 64 (L.rd (Reg.CM_ENTRY p.val)), ckpt := (vget L.pair p).num, taken := (vget L.core c).taken })) ∧
    (∀ (l : LaneId) (dt : Nat) (p : Pair) (odd : Bool), Does (.coreSelfTestDone l dt p (!odd) odd)
      (fun L => L.firmware = true ∧ L.selfTesting p = true ∧ L.entryOk p = true ∧ (vget L.pair p).debugWaits = false ∧ (p = 0 → L.is Reg.LG_CHAL_SUSP = true → (L.pass dt).due (.selfTest 0) 3500001 = false))
      (fun L M => M.bitOf Reg.CM_STATUS_SELFTEST p.val = false ∧ (L.rd Reg.CM_MISMATCH_PAIR = p.val → M.rd Reg.CM_MISMATCH_OUTCOME = 1) ∧ M.paired p = false ∧
        M.bitOf Reg.CM_STATUS_SINGLE p.val = true ∧ M.bitOf Reg.CM_STATUS_SURVIVOR p.val = odd ∧ M.is Reg.CM_STATUS_BARRED = true ∧
        (∀ f : Func, M.is (Reg.ROLE_FUNC_BARRED f.code) = true) ∧
        (vget M.core (if odd then oddCore p else evenCore p)).run = .running ∧
        (vget M.core (if odd then evenCore p else oddCore p)).run = .stopped)) ∧
    (∀ (l : LaneId) (dt : Nat) (p : Pair), Does (.coreSelfTestDone l dt p false false)
      (fun L => L.firmware = true ∧ L.selfTesting p = true)
      (fun L M => M.bitOf Reg.CM_STATUS_HALTED p.val = true ∧ M.paired p = false ∧ M.is Reg.CM_STATUS_BARRED = true ∧ M.sticky (18 + p.val) = true ∧
        (L.rd Reg.CM_MISMATCH_PAIR = p.val → M.rd Reg.CM_MISMATCH_OUTCOME = 3) ∧ (p = 0 → L.upState = true → M.svc = 6))) ∧
    (∀ (l : LaneId) (c : Core), Does (.uncorrectableCacheError l c)
      (fun L => L.firmware = true)
      (fun L M => M.sticky (5 + c.val) = true ∧ (L.paired (pairOf c) = true → (vget M.core c).poison = true)))

/-- DEBUG_HALT_REQUEST, DEBUG_ABSTRACT_COMMAND, DEBUG_SYSBUS_ACCESS, DEBUG_RESUME_REQUEST, WFI: in scope CORE a halt splits a
paired pair that is not under self-test, raises source 21 or 22 and halts the core; without the scope the hart is found
unavailable and an abstract command ends with cmderr 4, as it does on a hart that runs; in a halted core it reads and writes an
integer register through the data words; a resume lets the hart go on; without scope BUS a bus access ends with an error and
nothing else changes; a store in scope BUS that the map and R501 allow reaches SRAM. A core that runs waits after WFI. -/
def Obligations.debugger : Prop :=
    (∀ (l : LaneId) (c : Core), Does (.debugHaltRequest l c)
      (fun L => L.powered = true ∧ L.scope 0 = true ∧ L.hartThere c = true ∧ L.hartOn c = true ∧ L.selfTesting (pairOf c) = false ∧
        L.paired (pairOf c) = true ∧ L.is Reg.BT_SLICE_STAT_RUNNING = false ∧ (vget L.core c).run = .running)
      (fun _ M => M.debugged (pairOf c) = true ∧ M.paired (pairOf c) = false ∧ M.is Reg.CM_STATUS_BARRED = true ∧ M.sticky (21 + (pairOf c).val) = true ∧
        (vget M.core c).run = .debugHalted ∧ (vget M.core c).obuf = [] ∧ vget M.dbg.haltreq c = true)) ∧
    (∀ (l : LaneId) (c : Core), Does (.debugHaltRequest l c)
      (fun L => L.powered = true ∧ L.scope 0 = false)
      (fun L M => vget M.dbg.unavail c = true ∧ M = { L with dbg := { L.dbg with unavail := M.dbg.unavail } })) ∧
    (∀ (l : LaneId) (c : Core) (cmd : Word), Does (.debugAbstractCommand l c cmd)
      (fun L => L.powered = true ∧ L.scope 0 = false)
      (fun L M => M.dbg.cmderr = (if L.dbg.cmderr = 0 then 4 else L.dbg.cmderr) ∧ vget M.dbg.unavail c = true ∧ M = { L with dbg := M.dbg })) ∧
    (∀ (l : LaneId) (c : Core) (i : Fin 32), Does (.debugAbstractCommand l c (BitVec.ofNat 32 (0x321000 + i.val)))
      (fun L => L.powered = true ∧ L.scope 0 = true ∧ L.hartThere c = true ∧ L.hartOn c = true ∧ L.selfTesting (pairOf c) = false ∧
        L.paired (pairOf c) = false ∧ L.is Reg.BT_SLICE_STAT_RUNNING = false ∧ vget L.dbg.haltreq (partner c) = false ∧ (vget L.core c).run = .debugHalted)
      (fun L M => vget M.dbg.data 0 = BitVec.ofNat 32 (vget (vget L.core c).x i).toNat ∧ vget M.dbg.data 1 = BitVec.ofNat 32 ((vget (vget L.core c).x i).toNat / 2 ^ 32) ∧
        M = { L with dbg := { L.dbg with data := M.dbg.data } })) ∧
    (∀ (l : LaneId) (c : Core) (i : Fin 32), Does (.debugAbstractCommand l c (BitVec.ofNat 32 (0x331000 + i.val)))
      (fun L => L.powered = true ∧ L.scope 0 = true ∧ L.hartThere c = true ∧ L.hartOn c = true ∧ L.selfTesting (pairOf c) = false ∧
        L.paired (pairOf c) = false ∧ L.is Reg.BT_SLICE_STAT_RUNNING = false ∧ vget L.dbg.haltreq (partner c) = false ∧ (vget L.core c).run = .debugHalted ∧
        i ≠ 0)
      (fun L M => vget (vget M.core c).x i = BitVec.ofNat 64 ((vget L.dbg.data 0).toNat + 2 ^ 32 * (vget L.dbg.data 1).toNat) ∧
        (∀ j, j ≠ i → vget (vget M.core c).x j = vget (vget L.core c).x j) ∧ M = { L with core := M.core })) ∧
    (∀ (l : LaneId) (a n : Nat) (d : Option Nat), Does (.debugSysbusAccess l a n d)
      (fun L => L.powered = true ∧ L.scope 1 = false)
      (fun L M => M = { L with dbg := { L.dbg with sberror := 7 } })) ∧
    (∀ (l : LaneId) (a n v : Nat), Does (.debugSysbusAccess l a n (some v))
      (fun L => L.powered = true ∧ L.scope 1 = true ∧ (n = 4 ∨ n = 8) ∧ accessOk none a n true = true ∧ placeOf a = .sram ∧ L.sliceHolds a = false ∧
        L.commitHolds a n = false ∧ L.ret.stalled = [] ∧ L.waitsAt none = none ∧ L.asleep a = none ∧ L.groupHolds a n = false)
      (fun L M => M = { L with sram := M.sram } ∧
        ∀ b, Tab.get 0 M.sram b = if a ≤ b ∧ b < a + n then BitVec.ofNat 8 (v / 256 ^ (b - a)) else Tab.get 0 L.sram b)) ∧
    (∀ (l : LaneId) (a n v : Nat), Does (.debugSysbusAccess l a n (some v))
      (fun L => L.powered = true ∧ L.scope 1 = true ∧ L.inManufacture = false ∧ Lane.busProtected a = true)
      (fun L M => M = { L with dbg := { L.dbg with sberror := 7 } })) ∧
    (∀ (l : LaneId) (c : Core), Does (.debugResumeRequest l c)
      (fun L => L.powered = true ∧ L.scope 0 = true ∧ L.hartThere c = true ∧ (vget L.core c).run = .debugHalted)
      (fun L M => (vget M.core c).run = .running ∧ vget M.dbg.haltreq c = false ∧ vget M.dbg.resumeack c = true ∧
        M = { L with core := M.core, dbg := M.dbg })) ∧
    (∀ (l : LaneId) (c : Core), Does (.wfi l (some c))
      (fun L => L.firmware = true ∧ (vget L.core c).run = .running)
      (fun L M => (vget M.core c).run = .wfi ∧ (∀ d, d ≠ c → vget M.core d = vget L.core d) ∧ M = { L with core := M.core })) ∧
    (∀ (l : LaneId), Does (.wfi l none)
      (fun L => L.firmware = true)
      (fun L M => M.power.netWfi = true ∧ M = { L with power := M.power }))

/-- EXTEST, IDCODE, SAMPLE/PRELOAD, DTMCS, DMI, BYPASS: each loads the instruction register; outside MANUFACTURE the two
boundary instructions shift out the 0 of BYPASS; IDCODE shifts out stepping, part 0x0961 and manufacturer 0x4F3; a closed debug
module answers reads of all but dmcontrol.dmactive, dmstatus and authdata with 0 and takes no write of data. -/
def Obligations.jtag : Prop :=
    (∀ (l : LaneId), Does (.jtagExtest l)
      (fun L => L.powered = true ∧ L.inManufacture = false)
      (fun L M => M = { L with out := L.out ++ [.tdo 0], dbg := { L.dbg with ir := 0x00 } })) ∧
    (∀ (l : LaneId), Does (.jtagExtest l)
      (fun L => L.powered = true ∧ L.inManufacture = true)
      (fun L M => M = { L with dbg := { L.dbg with ir := 0x00 } })) ∧
    (∀ (l : LaneId), Does (.jtagIdcode l)
      (fun L => L.powered = true)
      (fun L M => M = { L with out := L.out ++ [.tdo (2 ^ 28 * (L.stepping % 16) + 2 ^ 12 * 0x0961 + 2 * 0x4F3 + 1)], dbg := { L.dbg with ir := 0x01 } })) ∧
    (∀ (l : LaneId), Does (.jtagSamplePreload l)
      (fun L => L.powered = true ∧ L.inManufacture = false)
      (fun L M => M = { L with out := L.out ++ [.tdo 0], dbg := { L.dbg with ir := 0x02 } })) ∧
    (∀ (l : LaneId), Does (.jtagSamplePreload l)
      (fun L => L.powered = true ∧ L.inManufacture = true)
      (fun L M => M = { L with dbg := { L.dbg with ir := 0x02 } })) ∧
    (∀ (l : LaneId), Does (.jtagDtmcs l)
      (fun L => L.powered = true)
      (fun L M => M = { L with out := L.out ++ [.tdo Lane.dtmCs], dbg := { L.dbg with ir := 0x10 } } ∧ Lane.dtmCs % 16 = 1)) ∧
    (∀ (l : LaneId) (a : Nat), Does (.jtagDmi l a none)
      (fun L => L.powered = true ∧ L.tokenOpen = false ∧ a ≠ 0x30 ∧ a ≠ 0x11 ∧ a ≠ 0x10)
      (fun L M => M = { L with out := L.out ++ [.tdo 0], dbg := { L.dbg with ir := 0x11 } })) ∧
    (∀ (l : LaneId), Does (.jtagDmi l 0x11 none)
      (fun L => L.powered = true ∧ L.tokenOpen = false)
      (fun L M => M = { L with out := L.out ++ [.tdo (2 + 64 * b2n L.sec.tokenCheck)], dbg := { L.dbg with ir := 0x11 } })) ∧
    (∀ (l : LaneId), Does (.jtagDmi l 0x10 none)
      (fun L => L.powered = true ∧ L.tokenOpen = false)
      (fun L M => M = { L with out := L.out ++ [.tdo (b2n L.dbg.dmactive)], dbg := { L.dbg with ir := 0x11 } })) ∧
    (∀ (l : LaneId) (a : Nat) (w : Word), Does (.jtagDmi l a (some w))
      (fun L => L.powered = true ∧ L.tokenOpen = false ∧ a ≠ 0x30 ∧ a ≠ 0x10)
      (fun L M => M = { L with dbg := { L.dbg with ir := 0x11 } })) ∧
    (∀ (l : LaneId) (w : Word), Does (.jtagDmi l 0x39 (some w))
      (fun L => L.powered = true ∧ L.tokenOpen = true ∧ L.dbg.sbReadOnAddr = false)
      (fun L M => M = { L with dbg := { L.dbg with ir := 0x11, sbaddr := L.dbg.sbaddr / 2 ^ 32 * 2 ^ 32 + w.toNat } })) ∧
    (∀ (l : LaneId), Does (.jtagBypass l)
      (fun L => L.powered = true)
      (fun L M => M = { L with out := L.out ++ [.tdo 0], dbg := { L.dbg with ir := 0x1F } }))

/-- NOP, ADD, SUB, AND, OR, XOR, SLL, SRL, SRA, SLT, SLTU, MIN, MAX, MUL and the immediate forms: an engine that runs, does not
wait and has the instruction at its program counter writes the value of the operation table to rd, or nothing to d0, goes on
with the next word, and leaves every other register, both memories, its events and the rest of the lane as they were. -/
def Obligations.integer_instructions : Prop :=
    (∀ (l : LaneId) (n : Engine), Does (.deNop l n)
      (fun L => L.deAt n .nop = true)
      (fun L M => L.DeResult M n .nop 0 0)) ∧
    (∀ (l : LaneId) (n : Engine) (rd ra rb : Reg), Does (.deAdd l n rd ra rb)
      (fun L => L.deAt n (.add rd ra rb) = true)
      (fun L M => L.DeResult M n (.add rd ra rb) rd (((L.de n).reg ra) + ((L.de n).reg rb)))) ∧
    (∀ (l : LaneId) (n : Engine) (rd ra rb : Reg), Does (.deSub l n rd ra rb)
      (fun L => L.deAt n (.sub rd ra rb) = true)
      (fun L M => L.DeResult M n (.sub rd ra rb) rd (((L.de n).reg ra) - ((L.de n).reg rb)))) ∧
    (∀ (l : LaneId) (n : Engine) (rd ra rb : Reg), Does (.deAnd l n rd ra rb)
      (fun L => L.deAt n (.and rd ra rb) = true)
      (fun L M => L.DeResult M n (.and rd ra rb) rd (((L.de n).reg ra) &&& ((L.de n).reg rb)))) ∧
    (∀ (l : LaneId) (n : Engine) (rd ra rb : Reg), Does (.deOr l n rd ra rb)
      (fun L => L.deAt n (.or rd ra rb) = true)
      (fun L M => L.DeResult M n (.or rd ra rb) rd (((L.de n).reg ra) ||| ((L.de n).reg rb)))) ∧
    (∀ (l : LaneId) (n : Engine) (rd ra rb : Reg), Does (.deXor l n rd ra rb)
      (fun L => L.deAt n (.xor rd ra rb) = true)
      (fun L M => L.DeResult M n (.xor rd ra rb) rd (((L.de n).reg ra) ^^^ ((L.de n).reg rb)))) ∧
    (∀ (l : LaneId) (n : Engine) (rd ra rb : Reg), Does (.deSll l n rd ra rb)
      (fun L => L.deAt n (.sll rd ra rb) = true)
      (fun L M => L.DeResult M n (.sll rd ra rb) rd (BitVec.ofNat 32 (((L.de n).reg ra).toNat * 2 ^ (((L.de n).reg rb).toNat % 32))))) ∧
    (∀ (l : LaneId) (n : Engine) (rd ra rb : Reg), Does (.deSrl l n rd ra rb)
      (fun L => L.deAt n (.srl rd ra rb) = true)
      (fun L M => L.DeResult M n (.srl rd ra rb) rd (BitVec.ofNat 32 (((L.de n).reg ra).toNat / 2 ^ (((L.de n).reg rb).toNat % 32))))) ∧
    (∀ (l : LaneId) (n : Engine) (rd ra rb : Reg), Does (.deSra l n rd ra rb)
      (fun L => L.deAt n (.sra rd ra rb) = true)
      (fun L M => L.DeResult M n (.sra rd ra rb) rd (BitVec.ofInt 32 (((L.de n).reg ra).toInt / 2 ^ (((L.de n).reg rb).toNat % 32))))) ∧
    (∀ (l : LaneId) (n : Engine) (rd ra rb : Reg), Does (.deSlt l n rd ra rb)
      (fun L => L.deAt n (.slt rd ra rb) = true)
      (fun L M => L.DeResult M n (.slt rd ra rb) rd (if ((L.de n).reg ra).toInt < ((L.de n).reg rb).toInt then 1 else 0))) ∧
    (∀ (l : LaneId) (n : Engine) (rd ra rb : Reg), Does (.deSltu l n rd ra rb)
      (fun L => L.deAt n (.sltu rd ra rb) = true)
      (fun L M => L.DeResult M n (.sltu rd ra rb) rd (if ((L.de n).reg ra).toNat < ((L.de n).reg rb).toNat then 1 else 0))) ∧
    (∀ (l : LaneId) (n : Engine) (rd ra rb : Reg), Does (.deMin l n rd ra rb)
      (fun L => L.deAt n (.min rd ra rb) = true)
      (fun L M => L.DeResult M n (.min rd ra rb) rd (BitVec.ofInt 32 (min ((L.de n).reg ra).toInt ((L.de n).reg rb).toInt)))) ∧
    (∀ (l : LaneId) (n : Engine) (rd ra rb : Reg), Does (.deMax l n rd ra rb)
      (fun L => L.deAt n (.max rd ra rb) = true)
      (fun L M => L.DeResult M n (.max rd ra rb) rd (BitVec.ofInt 32 (max ((L.de n).reg ra).toInt ((L.de n).reg rb).toInt)))) ∧
    (∀ (l : LaneId) (n : Engine) (rd ra rb : Reg), Does (.deMul l n rd ra rb)
      (fun L => L.deAt n (.mul rd ra rb) = true)
      (fun L M => L.DeResult M n (.mul rd ra rb) rd (BitVec.ofInt 32 (((L.de n).reg ra).toInt * ((L.de n).reg rb).toInt)))) ∧
    (∀ (l : LaneId) (n : Engine) (rd ra : Reg) (imm : BitVec 16), Does (.deAddi l n rd ra imm)
      (fun L => L.deAt n (.addi rd ra imm) = true)
      (fun L M => L.DeResult M n (.addi rd ra imm) rd (BitVec.ofInt 32 (((L.de n).reg ra).toInt + imm.toInt)))) ∧
    (∀ (l : LaneId) (n : Engine) (rd ra : Reg) (imm : BitVec 16), Does (.deAndi l n rd ra imm)
      (fun L => L.deAt n (.andi rd ra imm) = true)
      (fun L M => L.DeResult M n (.andi rd ra imm) rd (((L.de n).reg ra) &&& BitVec.ofNat 32 imm.toNat))) ∧
    (∀ (l : LaneId) (n : Engine) (rd ra : Reg) (imm : BitVec 16), Does (.deOri l n rd ra imm)
      (fun L => L.deAt n (.ori rd ra imm) = true)
      (fun L M => L.DeResult M n (.ori rd ra imm) rd (((L.de n).reg ra) ||| BitVec.ofNat 32 imm.toNat))) ∧
    (∀ (l : LaneId) (n : Engine) (rd ra : Reg) (imm : BitVec 16), Does (.deXori l n rd ra imm)
      (fun L => L.deAt n (.xori rd ra imm) = true)
      (fun L M => L.DeResult M n (.xori rd ra imm) rd (((L.de n).reg ra) ^^^ BitVec.ofNat 32 imm.toNat))) ∧
    (∀ (l : LaneId) (n : Engine) (rd : Reg) (imm : BitVec 16), Does (.deLui l n rd imm)
      (fun L => L.deAt n (.lui rd imm) = true)
      (fun L M => L.DeResult M n (.lui rd imm) rd (BitVec.ofNat 32 (imm.toNat * 65536)))) ∧
    (∀ (l : LaneId) (n : Engine) (rd ra sh : Reg), Does (.deSlli l n rd ra sh)
      (fun L => L.deAt n (.slli rd ra sh) = true)
      (fun L M => L.DeResult M n (.slli rd ra sh) rd (BitVec.ofNat 32 (((L.de n).reg ra).toNat * 2 ^ sh.toNat)))) ∧
    (∀ (l : LaneId) (n : Engine) (rd ra sh : Reg), Does (.deSrli l n rd ra sh)
      (fun L => L.deAt n (.srli rd ra sh) = true)
      (fun L M => L.DeResult M n (.srli rd ra sh) rd (BitVec.ofNat 32 (((L.de n).reg ra).toNat / 2 ^ sh.toNat)))) ∧
    (∀ (l : LaneId) (n : Engine) (rd ra sh : Reg), Does (.deSrai l n rd ra sh)
      (fun L => L.deAt n (.srai rd ra sh) = true)
      (fun L M => L.DeResult M n (.srai rd ra sh) rd (BitVec.ofInt 32 (((L.de n).reg ra).toInt / 2 ^ sh.toNat))))

/-- FADD, FSUB, FMUL, FMA, FMIN, FMAX, FNEG, FABS, FLT, FTOI, ITOF, FTOQ, QTOF, QMUL, QADD, QSUB, SINCOS, ATAN2, RECIP, RSQRT,
SQRT: the engine writes the result of the operation to rd and goes on, changing no other register, memory or event; a floating-
point result that is a NaN also sets DE_STATUS.NAN, which no instruction clears. QADD and QSUB saturate to 32 bits. SINCOS
writes rd and rd + 1. The transcendental results are the free values of log entry 15 within their accuracy. -/
def Obligations.float_and_fixed_instructions : Prop :=
    (∀ (l : LaneId) (n : Engine) (rd ra rb : Reg), Does (.deFadd l n rd ra rb)
      (fun L => L.deAt n (.fadd rd ra rb) = true)
      (fun L M => L.DeFloatResult M n (.fadd rd ra rb) rd (fadd ((L.de n).reg ra) ((L.de n).reg rb)))) ∧
    (∀ (l : LaneId) (n : Engine) (rd ra rb : Reg), Does (.deFsub l n rd ra rb)
      (fun L => L.deAt n (.fsub rd ra rb) = true)
      (fun L M => L.DeFloatResult M n (.fsub rd ra rb) rd (fsub ((L.de n).reg ra) ((L.de n).reg rb)))) ∧
    (∀ (l : LaneId) (n : Engine) (rd ra rb : Reg), Does (.deFmul l n rd ra rb)
      (fun L => L.deAt n (.fmul rd ra rb) = true)
      (fun L M => L.DeFloatResult M n (.fmul rd ra rb) rd (fmul ((L.de n).reg ra) ((L.de n).reg rb)))) ∧
    (∀ (l : LaneId) (n : Engine) (rd ra rb : Reg), Does (.deFma l n rd ra rb)
      (fun L => L.deAt n (.fma rd ra rb) = true)
      (fun L M => L.DeFloatResult M n (.fma rd ra rb) rd (fma ((L.de n).reg rd) ((L.de n).reg ra) ((L.de n).reg rb)))) ∧
    (∀ (l : LaneId) (n : Engine) (rd ra rb : Reg), Does (.deFmin l n rd ra rb)
      (fun L => L.deAt n (.fmin rd ra rb) = true)
      (fun L M => L.DeFloatResult M n (.fmin rd ra rb) rd (fminmax false ((L.de n).reg ra) ((L.de n).reg rb)))) ∧
    (∀ (l : LaneId) (n : Engine) (rd ra rb : Reg), Does (.deFmax l n rd ra rb)
      (fun L => L.deAt n (.fmax rd ra rb) = true)
      (fun L M => L.DeFloatResult M n (.fmax rd ra rb) rd (fminmax true ((L.de n).reg ra) ((L.de n).reg rb)))) ∧
    (∀ (l : LaneId) (n : Engine) (rd ra : Reg), Does (.deFneg l n rd ra)
      (fun L => L.deAt n (.fneg rd ra) = true)
      (fun L M => L.DeFloatResult M n (.fneg rd ra) rd (fneg ((L.de n).reg ra)))) ∧
    (∀ (l : LaneId) (n : Engine) (rd ra : Reg), Does (.deFabs l n rd ra)
      (fun L => L.deAt n (.fabs rd ra) = true)
      (fun L M => L.DeFloatResult M n (.fabs rd ra) rd (fabs ((L.de n).reg ra)))) ∧
    (∀ (l : LaneId) (n : Engine) (rd ra rb : Reg), Does (.deFlt l n rd ra rb)
      (fun L => L.deAt n (.flt rd ra rb) = true)
      (fun L M => L.DeResult M n (.flt rd ra rb) rd (flt ((L.de n).reg ra) ((L.de n).reg rb)))) ∧
    (∀ (l : LaneId) (n : Engine) (rd ra : Reg), Does (.deFtoi l n rd ra)
      (fun L => L.deAt n (.ftoi rd ra) = true)
      (fun L M => L.DeResult M n (.ftoi rd ra) rd (ftoq ((L.de n).reg ra) 0))) ∧
    (∀ (l : LaneId) (n : Engine) (rd ra : Reg), Does (.deItof l n rd ra)
      (fun L => L.deAt n (.itof rd ra) = true)
      (fun L M => L.DeResult M n (.itof rd ra) rd (qtof ((L.de n).reg ra) 0))) ∧
    (∀ (l : LaneId) (n : Engine) (rd ra f : Reg), Does (.deFtoq l n rd ra f)
      (fun L => L.deAt n (.ftoq rd ra f) = true)
      (fun L M => L.DeResult M n (.ftoq rd ra f) rd (ftoq ((L.de n).reg ra) f.toNat))) ∧
    (∀ (l : LaneId) (n : Engine) (rd ra f : Reg), Does (.deQtof l n rd ra f)
      (fun L => L.deAt n (.qtof rd ra f) = true)
      (fun L M => L.DeResult M n (.qtof rd ra f) rd (qtof ((L.de n).reg ra) f.toNat))) ∧
    (∀ (l : LaneId) (n : Engine) (rd ra rb f : Reg), Does (.deQmul l n rd ra rb f)
      (fun L => L.deAt n (.qmul rd ra rb f) = true)
      (fun L M => L.DeResult M n (.qmul rd ra rb f) rd (qmul ((L.de n).reg ra) ((L.de n).reg rb) f.toNat))) ∧
    (∀ (l : LaneId) (n : Engine) (rd ra rb : Reg), Does (.deQadd l n rd ra rb)
      (fun L => L.deAt n (.qadd rd ra rb) = true)
      (fun L M => L.DeResult M n (.qadd rd ra rb) rd (BitVec.ofInt 32 (max (-2147483648) (min 2147483647 (((L.de n).reg ra).toInt + ((L.de n).reg rb).toInt)))))) ∧
    (∀ (l : LaneId) (n : Engine) (rd ra rb : Reg), Does (.deQsub l n rd ra rb)
      (fun L => L.deAt n (.qsub rd ra rb) = true)
      (fun L M => L.DeResult M n (.qsub rd ra rb) rd (BitVec.ofInt 32 (max (-2147483648) (min 2147483647 (((L.de n).reg ra).toInt - ((L.de n).reg rb).toInt)))))) ∧
    (∀ (l : LaneId) (n : Engine) (rd ra : Reg), Does (.deSincos l n rd ra)
      (fun L => L.deAt n (.sincos rd ra) = true)
      (fun L M => (rd ≠ 0 → (M.de n).reg rd = fsin ((L.de n).reg ra)) ∧ (M.de n).reg (rd + 1) = fcos ((L.de n).reg ra) ∧
        (∀ r, r ≠ rd → r ≠ rd + 1 → (M.de n).reg r = (L.de n).reg r) ∧ (M.de n).pc = (L.de n).pc + 1 ∧
        (M.de n).tbusy = (L.de n).issueAt (.sincos rd ra) + 12 ∧ M = L.onDe n (fun e => e.issueOf (M.de n)))) ∧
    (∀ (l : LaneId) (n : Engine) (rd ra rb : Reg), Does (.deAtan2 l n rd ra rb)
      (fun L => L.deAt n (.atan2 rd ra rb) = true)
      (fun L M => L.DeResult M n (.atan2 rd ra rb) rd (fatan2 ((L.de n).reg ra) ((L.de n).reg rb)))) ∧
    (∀ (l : LaneId) (n : Engine) (rd ra : Reg), Does (.deRecip l n rd ra)
      (fun L => L.deAt n (.recip rd ra) = true)
      (fun L M => L.DeFloatResult M n (.recip rd ra) rd (frecip ((L.de n).reg ra)))) ∧
    (∀ (l : LaneId) (n : Engine) (rd ra : Reg), Does (.deRsqrt l n rd ra)
      (fun L => L.deAt n (.rsqrt rd ra) = true)
      (fun L M => L.DeFloatResult M n (.rsqrt rd ra) rd (frsqrt ((L.de n).reg ra)))) ∧
    (∀ (l : LaneId) (n : Engine) (rd ra : Reg), Does (.deSqrt l n rd ra)
      (fun L => L.deAt n (.sqrt rd ra) = true)
      (fun L M => L.DeFloatResult M n (.sqrt rd ra) rd (fsqrt ((L.de n).reg ra))))

/-- LD reads the DM word at ra + sext(imm16), ST writes rd there and changes no other byte of DM; a misaligned address or one
past 0xFFFF halts the engine with HALT 3. IN reads the port, OUT to a compare, sample-point or mailbox port writes the word that
waits for its COMMIT or MB_POST and nothing else; a port that is not listed for that direction or that engine halts it with HALT
4. Ports 0x006, 0x008, 0x080, 0x081, 0x090 to 0x093 and 0x098 of OUT have rows of their own. -/
def Obligations.memory_and_port_instructions : Prop :=
    (∀ (l : LaneId) (n : Engine) (rd ra : Reg) (imm : BitVec 16), Does (.deLd l n rd ra imm)
      (fun L => L.deAt n (.ld rd ra imm) = true ∧ ((L.de n).reg ra + imm.signExtend 32).toNat % 4 = 0 ∧ ((L.de n).reg ra + imm.signExtend 32).toNat < 65536)
      (fun L M => L.DeResult M n (.ld rd ra imm) rd ((L.de n).dmWord ((L.de n).reg ra + imm.signExtend 32).toNat))) ∧
    (∀ (l : LaneId) (n : Engine) (rd ra : Reg) (imm : BitVec 16), Does (.deLd l n rd ra imm)
      (fun L => L.deAt n (.ld rd ra imm) = true ∧ (((L.de n).reg ra + imm.signExtend 32).toNat % 4 ≠ 0 ∨ 65536 ≤ ((L.de n).reg ra + imm.signExtend 32).toNat))
      (fun L M => (M.de n).pc = (L.de n).pc ∧ (M.de n).dm = (L.de n).dm ∧ (∀ r, (M.de n).reg r = (L.de n).reg r) ∧ M.is (Reg.DE_CTRL_RUN n.val) = false ∧ M.rd (Reg.DE_STATUS_HALT n.val) = 3 ∧ M.sticky (68 + n.val) = true)) ∧
    (∀ (l : LaneId) (n : Engine) (rd ra : Reg) (imm : BitVec 16), Does (.deSt l n rd ra imm)
      (fun L => L.deAt n (.st rd ra imm) = true ∧ ((L.de n).reg ra + imm.signExtend 32).toNat % 4 = 0 ∧ ((L.de n).reg ra + imm.signExtend 32).toNat < 65536)
      (fun L M => (M.de n).dmWord ((L.de n).reg ra + imm.signExtend 32).toNat = (L.de n).reg rd ∧
        (∀ b, b < ((L.de n).reg ra + imm.signExtend 32).toNat ∨ ((L.de n).reg ra + imm.signExtend 32).toNat + 4 ≤ b → Tab.get 0 (M.de n).dm b = Tab.get 0 (L.de n).dm b) ∧
        (∀ r, (M.de n).reg r = (L.de n).reg r) ∧ (M.de n).pc = (L.de n).pc + 1 ∧
        M = L.onDe n (fun e => { e.issueOf (M.de n) with dm := (M.de n).dm }))) ∧
    (∀ (l : LaneId) (n : Engine) (rd ra : Reg) (imm : BitVec 16), Does (.deSt l n rd ra imm)
      (fun L => L.deAt n (.st rd ra imm) = true ∧ (((L.de n).reg ra + imm.signExtend 32).toNat % 4 ≠ 0 ∨ 65536 ≤ ((L.de n).reg ra + imm.signExtend 32).toNat))
      (fun L M => (M.de n).pc = (L.de n).pc ∧ (M.de n).dm = (L.de n).dm ∧ (∀ r, (M.de n).reg r = (L.de n).reg r) ∧ M.is (Reg.DE_CTRL_RUN n.val) = false ∧ M.rd (Reg.DE_STATUS_HALT n.val) = 3 ∧ M.sticky (68 + n.val) = true)) ∧
    (∀ (l : LaneId) (n : Engine) (rd : Reg) (port : BitVec 16) (v : Word), Does (.deInp l n rd port)
      (fun L => L.deAt n (.inp rd port) = true ∧ L.portIn n port.toNat = some v)
      (fun L M => L.DeResult { M with draws := L.draws } n (.inp rd port) rd v ∧ M.draws = L.draws + 1)) ∧
    (∀ (l : LaneId) (n : Engine) (rd : Reg) (port : BitVec 16), Does (.deInp l n rd port)
      (fun L => L.deAt n (.inp rd port) = true ∧ L.portIn n port.toNat = none)
      (fun L M => (M.de n).pc = (L.de n).pc ∧ (M.de n).dm = (L.de n).dm ∧ (∀ r, (M.de n).reg r = (L.de n).reg r) ∧ M.is (Reg.DE_CTRL_RUN n.val) = false ∧ M.rd (Reg.DE_STATUS_HALT n.val) = 4 ∧ M.sticky (68 + n.val) = true)) ∧
    (∀ (l : LaneId) (n : Engine) (rd : Reg) (k : Fin 6), Does (.deOutp l n rd (BitVec.ofNat 16 k.val))
      (fun L => L.deAt n (.outp rd (BitVec.ofNat 16 k.val)) = true ∧ n.val < 3)
      (fun L M => vget (M.de n).written.cmp k = ((L.de n).reg rd).toNat ∧ (∀ j, j ≠ k → vget (M.de n).written.cmp j = vget (L.de n).written.cmp j) ∧
        (M.de n).pc = (L.de n).pc + 1 ∧ M = L.onDe n (fun e => { e.issueOf (M.de n) with written := { e.written with cmp := (M.de n).written.cmp } }) ∧
        ∀ r, (M.de n).reg r = (L.de n).reg r)) ∧
    (∀ (l : LaneId) (n : Engine) (rd : Reg) (k : Fin 4), Does (.deOutp l n rd (BitVec.ofNat 16 (0x020 + k.val)))
      (fun L => L.deAt n (.outp rd (BitVec.ofNat 16 (0x020 + k.val))) = true ∧ n.val < 3)
      (fun L M => vget (M.de n).written.sp k = ((L.de n).reg rd).toInt ∧ (∀ j, j ≠ k → vget (M.de n).written.sp j = vget (L.de n).written.sp j) ∧
        (M.de n).pc = (L.de n).pc + 1 ∧ M = L.onDe n (fun e => { e.issueOf (M.de n) with written := { e.written with sp := (M.de n).written.sp } }) ∧
        ∀ r, (M.de n).reg r = (L.de n).reg r)) ∧
    (∀ (l : LaneId) (n : Engine) (rd : Reg) (k : Fin 16), Does (.deOutp l n rd (BitVec.ofNat 16 (0x070 + k.val)))
      (fun L => L.deAt n (.outp rd (BitVec.ofNat 16 (0x070 + k.val))) = true)
      (fun L M => vget (M.de n).mbOut k = (L.de n).reg rd ∧ (∀ j, j ≠ k → vget (M.de n).mbOut j = vget (L.de n).mbOut j) ∧
        (M.de n).pc = (L.de n).pc + 1 ∧ M = L.onDe n (fun e => { e.issueOf (M.de n) with mbOut := (M.de n).mbOut }) ∧
        ∀ r, (M.de n).reg r = (L.de n).reg r)) ∧
    (∀ (l : LaneId) (n : Engine) (rd : Reg) (port : BitVec 16), Does (.deOutp l n rd port)
      (fun L => L.deAt n (.outp rd port) = true ∧ outOwn n port.toNat = false ∧ outPort n port.toNat = none)
      (fun L M => (M.de n).pc = (L.de n).pc ∧ (M.de n).dm = (L.de n).dm ∧ (∀ r, (M.de n).reg r = (L.de n).reg r) ∧ M.is (Reg.DE_CTRL_RUN n.val) = false ∧ M.rd (Reg.DE_STATUS_HALT n.val) = 4 ∧ M.sticky (68 + n.val) = true))

/-- BEQ, BNE, BLT and BGE go to PC + 1 + sext(off16) in 3 cycles when their comparison holds and to PC + 1 in 1 cycle when it
does not; J and JAL go to PC + 1 + sext(off26), JAL leaving PC + 1 in d31; JR goes to ra[13:0]. No other register, memory or
event of the engine and nothing else of the lane changes. -/
def Obligations.branches_and_jumps : Prop :=
    (∀ (l : LaneId) (n : Engine) (ra rb : Reg) (off : BitVec 16), Does (.deBeq l n ra rb off)
      (fun L => L.deAt n (.beq ra rb off) = true ∧ (L.de n).reg ra = (L.de n).reg rb)
      (fun L M => (M.de n).pc = BitVec.ofInt 14 ((L.de n).pc.toNat + 1 + off.toInt) ∧ (M.de n).cyc = (L.de n).issueAt (.beq ra rb off) + 3 ∧
        M = L.onDe n (fun e => e.issueOf (M.de n)) ∧ ∀ r, (M.de n).reg r = (L.de n).reg r)) ∧
    (∀ (l : LaneId) (n : Engine) (ra rb : Reg) (off : BitVec 16), Does (.deBeq l n ra rb off)
      (fun L => L.deAt n (.beq ra rb off) = true ∧ ¬((L.de n).reg ra = (L.de n).reg rb))
      (fun L M => (M.de n).pc = (L.de n).pc + 1 ∧ (M.de n).cyc = (L.de n).issueAt (.beq ra rb off) + 1 ∧
        M = L.onDe n (fun e => e.issueOf (M.de n)) ∧ ∀ r, (M.de n).reg r = (L.de n).reg r)) ∧
    (∀ (l : LaneId) (n : Engine) (ra rb : Reg) (off : BitVec 16), Does (.deBne l n ra rb off)
      (fun L => L.deAt n (.bne ra rb off) = true ∧ (L.de n).reg ra ≠ (L.de n).reg rb)
      (fun L M => (M.de n).pc = BitVec.ofInt 14 ((L.de n).pc.toNat + 1 + off.toInt) ∧ (M.de n).cyc = (L.de n).issueAt (.bne ra rb off) + 3 ∧
        M = L.onDe n (fun e => e.issueOf (M.de n)) ∧ ∀ r, (M.de n).reg r = (L.de n).reg r)) ∧
    (∀ (l : LaneId) (n : Engine) (ra rb : Reg) (off : BitVec 16), Does (.deBne l n ra rb off)
      (fun L => L.deAt n (.bne ra rb off) = true ∧ ¬((L.de n).reg ra ≠ (L.de n).reg rb))
      (fun L M => (M.de n).pc = (L.de n).pc + 1 ∧ (M.de n).cyc = (L.de n).issueAt (.bne ra rb off) + 1 ∧
        M = L.onDe n (fun e => e.issueOf (M.de n)) ∧ ∀ r, (M.de n).reg r = (L.de n).reg r)) ∧
    (∀ (l : LaneId) (n : Engine) (ra rb : Reg) (off : BitVec 16), Does (.deBlt l n ra rb off)
      (fun L => L.deAt n (.blt ra rb off) = true ∧ ((L.de n).reg ra).toInt < ((L.de n).reg rb).toInt)
      (fun L M => (M.de n).pc = BitVec.ofInt 14 ((L.de n).pc.toNat + 1 + off.toInt) ∧ (M.de n).cyc = (L.de n).issueAt (.blt ra rb off) + 3 ∧
        M = L.onDe n (fun e => e.issueOf (M.de n)) ∧ ∀ r, (M.de n).reg r = (L.de n).reg r)) ∧
    (∀ (l : LaneId) (n : Engine) (ra rb : Reg) (off : BitVec 16), Does (.deBlt l n ra rb off)
      (fun L => L.deAt n (.blt ra rb off) = true ∧ ¬(((L.de n).reg ra).toInt < ((L.de n).reg rb).toInt))
      (fun L M => (M.de n).pc = (L.de n).pc + 1 ∧ (M.de n).cyc = (L.de n).issueAt (.blt ra rb off) + 1 ∧
        M = L.onDe n (fun e => e.issueOf (M.de n)) ∧ ∀ r, (M.de n).reg r = (L.de n).reg r)) ∧
    (∀ (l : LaneId) (n : Engine) (ra rb : Reg) (off : BitVec 16), Does (.deBge l n ra rb off)
      (fun L => L.deAt n (.bge ra rb off) = true ∧ ((L.de n).reg rb).toInt ≤ ((L.de n).reg ra).toInt)
      (fun L M => (M.de n).pc = BitVec.ofInt 14 ((L.de n).pc.toNat + 1 + off.toInt) ∧ (M.de n).cyc = (L.de n).issueAt (.bge ra rb off) + 3 ∧
        M = L.onDe n (fun e => e.issueOf (M.de n)) ∧ ∀ r, (M.de n).reg r = (L.de n).reg r)) ∧
    (∀ (l : LaneId) (n : Engine) (ra rb : Reg) (off : BitVec 16), Does (.deBge l n ra rb off)
      (fun L => L.deAt n (.bge ra rb off) = true ∧ ¬(((L.de n).reg rb).toInt ≤ ((L.de n).reg ra).toInt))
      (fun L M => (M.de n).pc = (L.de n).pc + 1 ∧ (M.de n).cyc = (L.de n).issueAt (.bge ra rb off) + 1 ∧
        M = L.onDe n (fun e => e.issueOf (M.de n)) ∧ ∀ r, (M.de n).reg r = (L.de n).reg r)) ∧
    (∀ (l : LaneId) (n : Engine) (off : BitVec 26), Does (.deJ l n off)
      (fun L => L.deAt n (.j off) = true)
      (fun L M => (M.de n).pc = BitVec.ofInt 14 ((L.de n).pc.toNat + 1 + off.toInt) ∧ (M.de n).cyc = (L.de n).issueAt (.j off) + 3 ∧
        M = L.onDe n (fun e => e.issueOf (M.de n)) ∧ ∀ r, (M.de n).reg r = (L.de n).reg r)) ∧
    (∀ (l : LaneId) (n : Engine) (off : BitVec 26), Does (.deJal l n off)
      (fun L => L.deAt n (.jal off) = true)
      (fun L M => (M.de n).pc = BitVec.ofInt 14 ((L.de n).pc.toNat + 1 + off.toInt) ∧ (M.de n).cyc = (L.de n).issueAt (.jal off) + 3 ∧
        (M.de n).reg 31 = BitVec.ofNat 32 (((L.de n).pc + 1).toNat) ∧ M = L.onDe n (fun e => e.issueOf (M.de n)) ∧ ∀ r, r ≠ 31 → (M.de n).reg r = (L.de n).reg r)) ∧
    (∀ (l : LaneId) (n : Engine) (ra : Reg), Does (.deJr l n ra)
      (fun L => L.deAt n (.jr ra) = true)
      (fun L M => (M.de n).pc = BitVec.ofNat 14 ((L.de n).reg ra).toNat ∧ (M.de n).cyc = (L.de n).issueAt (.jr ra) + 3 ∧
        M = L.onDe n (fun e => e.issueOf (M.de n)) ∧ ∀ r, (M.de n).reg r = (L.de n).reg r))

/-- WAIT takes the lowest-numbered pending event of its mask, clears that flag alone and writes its number to rd; with none
pending the engine waits. WAIT_RESUME gives a waiting engine the lowest pending event of its mask 3 cycles later. HALT stops the
engine with HALT 1 and no fault source; a word that spells no instruction with HALT 2 and source 68 + n. -/
def Obligations.waits_and_halts : Prop :=
    (∀ (l : LaneId) (n : Engine) (rd : Reg) (mask : BitVec 9) (k : Fin 9), Does (.deWait l n rd mask)
      (fun L => L.deAt n (.wait rd mask) = true ∧
        (L.de n).events.getLsbD k.val = true ∧ mask.getLsbD k.val = true ∧
        ∀ j : Fin 9, j.val < k.val → ((L.de n).events.getLsbD j.val && mask.getLsbD j.val) = false)
      (fun L M => (rd ≠ 0 → (M.de n).reg rd = BitVec.ofNat 32 k.val) ∧ (∀ r, r ≠ rd → (M.de n).reg r = (L.de n).reg r) ∧ (M.de n).pc = (L.de n).pc + 1 ∧ (M.de n).wait = none ∧
        (M.de n).events.getLsbD k.val = false ∧ (∀ j : Fin 9, j ≠ k → (M.de n).events.getLsbD j.val = (L.de n).events.getLsbD j.val) ∧
        M = L.onDe n (fun e => { e.issueOf (M.de n) with events := (M.de n).events, wake := (M.de n).wake }))) ∧
    (∀ (l : LaneId) (n : Engine) (rd : Reg) (mask : BitVec 9), Does (.deWait l n rd mask)
      (fun L => L.deAt n (.wait rd mask) = true ∧ (L.de n).events &&& mask = 0)
      (fun L M => (M.de n).wait = some (mask, rd) ∧ (M.de n).pc = (L.de n).pc ∧ (∀ r, (M.de n).reg r = (L.de n).reg r) ∧
        M = L.onDe n (fun e => { e with wait := some (mask, rd), cyc := (M.de n).cyc }))) ∧
    (∀ (l : LaneId) (n : Engine) (rd : Reg) (mask : BitVec 9) (k : Fin 9), Does (.waitResume l n)
      (fun L => L.is (Reg.DE_CTRL_RUN n.val) = true ∧ (L.de n).wait = some (mask, rd) ∧
        (L.de n).events.getLsbD k.val = true ∧ mask.getLsbD k.val = true ∧
        ∀ j : Fin 9, j.val < k.val → ((L.de n).events.getLsbD j.val && mask.getLsbD j.val) = false)
      (fun L M => (rd ≠ 0 → (M.de n).reg rd = BitVec.ofNat 32 k.val) ∧ (∀ r, r ≠ rd → (M.de n).reg r = (L.de n).reg r) ∧ (M.de n).pc = (L.de n).pc + 1 ∧ (M.de n).wait = none ∧
        (M.de n).events.getLsbD k.val = false ∧ (∀ j : Fin 9, j ≠ k → (M.de n).events.getLsbD j.val = (L.de n).events.getLsbD j.val) ∧
        (M.de n).cyc = (L.de n).settled + 3 ∧
        M = L.onDe n (fun e => { e.issueOf (M.de n) with events := (M.de n).events, wake := (M.de n).wake, wait := none }))) ∧
    (∀ (l : LaneId) (n : Engine), Does (.deHalt l n)
      (fun L => L.deAt n .halt = true)
      (fun L M => M.is (Reg.DE_CTRL_RUN n.val) = false ∧ M.rd (Reg.DE_STATUS_HALT n.val) = 1 ∧ (M.de n).pc = (L.de n).pc ∧ (M.de n).wait = none)) ∧
    (∀ (l : LaneId) (n : Engine), Does (.illegalInstruction l n)
      (fun L => L.is (Reg.DE_CTRL_RUN n.val) = true ∧ (L.de n).wait = none ∧ deDecode (L.de n).imWord = none)
      (fun L M => M.is (Reg.DE_CTRL_RUN n.val) = false ∧ M.rd (Reg.DE_STATUS_HALT n.val) = 2 ∧ (M.de n).pc = (L.de n).pc ∧ M.sticky (68 + n.val) = true))

/-- DE_COMMIT: the written pattern counts for the coming load point, or as late for the one after, SLACK_MIN keeps the smallest
margin and the supervisor takes its snapshot. BRIDGE_WRITE asks for a bridge state that a COMMIT carries. DE_TIMER_SET arms or,
with 0, cancels the timer, whose expiry raises TIM. MB_POST copies the outbound words to the registers, counts OSEQ and raises
the PLIC source of the mailbox. SV_CMD_WRITE gives a driver its setpoint demand and brings every driver to its own;
CHOP_REQ_WRITE asks for the chopper. Each goes on with the next word. -/
def Obligations.engine_output_commands : Prop :=
    (∀ (l : LaneId) (n : Engine) (rd : Reg) (dt : Nat), Does (.deCommit l n rd dt)
      (fun L => L.deAt n (.outp rd 0x006) = true ∧ n.val < 3 ∧ (L.pass dt).commitLate n = false)
      (fun L M => (M.de n).committed = (L.de n).written ∧ (M.de n).counted = true ∧ (M.de n).upSnap = some (Lane.upWords (L.de n)) ∧ (M.de n).pc = (L.de n).pc + 1 ∧
        M.rd (Reg.DE_BUDGET_SLACK_MIN n.val) = min (L.rd (Reg.DE_BUDGET_SLACK_MIN n.val)) (((((L.pass dt).loadTicks n).1 - (L.pass dt).nowTick) * 3 - 800).toNat / 40) % 2 ^ 16 ∧
        (M.de n).active = (L.de n).active ∧ (∀ r, (M.de n).reg r = (L.de n).reg r) ∧
        M = { L.pass dt with regs := M.regs, engine := M.engine, votePos := M.votePos, draws := M.draws })) ∧
    (∀ (l : LaneId) (n : Engine) (rd : Reg) (dt : Nat), Does (.deCommit l n rd dt)
      (fun L => L.deAt n (.outp rd 0x006) = true ∧ n.val < 3 ∧ (L.pass dt).commitLate n = true)
      (fun L M => (M.de n).latePat = (L.de n).written ∧ (M.de n).late = true ∧ (M.de n).committed = (L.de n).committed ∧ (M.de n).counted = (L.de n).counted ∧
        M.rd (Reg.DE_BUDGET_SLACK_MIN n.val) = min (L.rd (Reg.DE_BUDGET_SLACK_MIN n.val)) (((((L.pass dt).loadTicks n).2 - (L.pass dt).nowTick) * 3 - 800).toNat / 40) % 2 ^ 16 ∧
        (M.de n).upSnap = some (Lane.upWords (L.de n)) ∧ (M.de n).pc = (L.de n).pc + 1 ∧ (∀ r, (M.de n).reg r = (L.de n).reg r) ∧
        M = { L.pass dt with regs := M.regs, engine := M.engine, votePos := M.votePos, draws := M.draws })) ∧
    (∀ (l : LaneId) (n : Engine) (rd : Reg), Does (.bridgeWrite l n rd)
      (fun L => L.deAt n (.outp rd 0x008) = true ∧ n.val < 3 ∧ ((L.de n).reg rd).toNat ≤ 2)
      (fun L M => (M.de n).written = { (L.de n).written with bridge := ((L.de n).reg rd).toNat } ∧ (M.de n).active = (L.de n).active ∧ (M.de n).pc = (L.de n).pc + 1 ∧
        M = { (L.onDe n (fun e => { e.issueOf (M.de n) with written := (M.de n).written })) with draws := L.draws + 1 })) ∧
    (∀ (l : LaneId) (n : Engine) (rd : Reg), Does (.bridgeWrite l n rd)
      (fun L => L.deAt n (.outp rd 0x008) = true ∧ n.val < 3 ∧ 2 < ((L.de n).reg rd).toNat)
      (fun L M => (M.de n).written.bridge ≤ 2 ∧ (M.de n).pc = (L.de n).pc + 1 ∧
        M = { (L.onDe n (fun e => { e.issueOf (M.de n) with written := (M.de n).written })) with draws := L.draws + 1 })) ∧
    (∀ (l : LaneId) (n : Engine) (rd : Reg), Does (.deTimerSet l n rd)
      (fun L => L.deAt n (.outp rd 0x081) = true)
      (fun L M => (M.de n).timer = (if (L.de n).reg rd = 0 then none else some (((L.de n).reg rd).toNat, L.el)) ∧ (M.de n).pc = (L.de n).pc + 1 ∧
        M = L.onDe n (fun e => { e.issueOf (M.de n) with timer := (M.de n).timer }))) ∧
    (∀ (l : LaneId) (n : Engine) (dt c e : Nat), Does (.deTimerExpiry l n dt)
      (fun L => (L.de n).timer = some (c, e) ∧ e + 2 * c ≤ (L.pass dt).el)
      (fun L M => (M.de n).timer = none ∧ (M.de n).events = (L.de n).events ||| 0x80#9 ∧
        M.is (Reg.DE_STATUS_EVMERGE n.val) = (L.is (Reg.DE_STATUS_EVMERGE n.val) || (L.de n).events.getLsbD 7) ∧
        M = { L.pass dt with regs := M.regs, engine := vupd L.engine n (fun e => { e with timer := none, events := (M.de n).events }) })) ∧
    (∀ (l : LaneId) (n : Engine) (rd : Reg), Does (.mbPost l n rd)
      (fun L => L.deAt n (.outp rd 0x080) = true)
      (fun L M => (∀ k : Fin 16, M.rd (Reg.DE_MBOX_OUT n.val k.val) = (vget (L.de n).mbOut k).toNat) ∧
        M.rd (Reg.DE_MBOX_OSEQ_COUNT n.val) = (L.rd (Reg.DE_MBOX_OSEQ_COUNT n.val) + 1) % 2 ^ 16 ∧ (if L.plic.busy.contains (.deMbox n) then M.plic.held else M.irqs).contains (.deMbox n) = true ∧ (M.de n).pc = (L.de n).pc + 1 ∧
        M = { (L.onDe n (fun e => e.issueOf (M.de n))) with regs := M.regs, irqs := M.irqs, plic := M.plic })) ∧
    (∀ (l : LaneId) (sv : Fin 4) (rd : Reg), Does (.svCmdWrite l sv rd)
      (fun L => L.deAt 3 (.outp rd (BitVec.ofNat 16 (0x090 + sv.val))) = true)
      (fun L M => (vget M.solenoid sv).cmd = ((L.de 3).reg rd).toNat ∧ (M.de 3).pc = (L.de 3).pc + 1 ∧
        (∀ k, (vget M.solenoid k).setpoint = if (vget L.solenoid k).off = true ∨ L.guardSt.powered = false then 0
          else if L.gstate = 2 ∧ (vget L.solenoid k).forced = false then min (vget M.solenoid k).cmd (vget L.img.sv k).maxMa else L.svSafe k) ∧
        M = { (L.onDe 3 (fun e => e.issueOf (M.de 3))) with solenoid := M.solenoid, timers := M.timers, regs := M.regs })) ∧
    (∀ (l : LaneId) (rd : Reg), Does (.chopReqWrite l rd)
      (fun L => L.deAt 3 (.outp rd 0x098) = true)
      (fun L M => M.gate.chopReq = ((L.de 3).reg rd).getLsbD 0 ∧ (M.de 3).pc = (L.de 3).pc + 1 ∧
        M.is Reg.GD_STAT_CHOP = (L.is Reg.GD_CHOP_EN && ((L.gate.chopHw && !L.ovUnderTest) || M.gate.chopReq) && decide (2 ≤ L.svc) && L.guardSt.powered) ∧
        M = { (L.onDe 3 (fun e => e.issueOf (M.de 3))) with regs := M.regs, gate := { L.gate with chopReq := M.gate.chopReq } }))

/-- DE_MBOX_DB copies the 16 inbound words to the engine and raises MBX. DE_DATA_ACCESS of a halted engine reads or writes the
word of IM or DM at ADDR and advances ADDR by 4 within 64 KiB, a write of sealed IM changing nothing of it; of a running engine
it reads 0, changes no memory and sets BUSYACC. RUN written 1 starts a halted engine at word 0 with d1 to d31 cleared and DM
unchanged; written 0 it halts a running one with HALT 7. SEAL makes IM read-only; DE_IMCRC then shows the CRC-32 over all of IM.
RSTMIN sets SLACK_MIN to 0xFFFF. -/
def Obligations.engine_control_commands : Prop :=
    (∀ (l : LaneId) (core : Core) (n : Engine), Does (.deMboxDb l core n)
      (fun L => L.coreLive core = true ∧ L.waitsCommit (some core) = false ∧ L.waitsAt (some core) = none ∧ L.asleep (0x20100140 + 0x4000 * n.val) = none)
      (fun L M => (∀ k : Fin 16, (vget (M.de n).mbIn k).toNat = L.rd (Reg.DE_MBOX_IN n.val k.val) % 2 ^ 32) ∧ (M.de n).events = (L.de n).events ||| 0x40#9 ∧
        M = { L with core := M.core, regs := M.regs, engine := vupd L.engine n (fun e => { e with mbIn := (M.de n).mbIn, events := (M.de n).events }) } ∧
        M.is (Reg.DE_STATUS_EVMERGE n.val) = (L.is (Reg.DE_STATUS_EVMERGE n.val) || (L.de n).events.getLsbD 6))) ∧
    (∀ (l : LaneId) (core : Core) (n : Engine), Does (.deDataAccess l core n none)
      (fun L => L.coreLive core = true ∧ L.waitsCommit (some core) = false ∧ L.waitsAt (some core) = none ∧ L.asleep (0x2010000C + 0x4000 * n.val) = none ∧ L.is (Reg.DE_CTRL_RUN n.val) = false)
      (fun L M => M.rd (Reg.DE_DATA_DATA n.val) = (memWord (if L.is (Reg.DE_ADDR_SPACE n.val) then (L.de n).dm else (L.de n).im)
            (L.rd (Reg.DE_ADDR_ADDR n.val) / 4 * 4)).toNat ∧
        M.rd (Reg.DE_ADDR_ADDR n.val) = (L.rd (Reg.DE_ADDR_ADDR n.val) + 4) % 65536 ∧ M = { L with core := M.core, regs := M.regs })) ∧
    (∀ (l : LaneId) (core : Core) (n : Engine) (w : Word), Does (.deDataAccess l core n (some w))
      (fun L => L.coreLive core = true ∧ L.waitsCommit (some core) = false ∧ L.waitsAt (some core) = none ∧ L.asleep (0x2010000C + 0x4000 * n.val) = none ∧ L.is (Reg.DE_CTRL_RUN n.val) = false ∧ L.is (Reg.DE_ADDR_SPACE n.val) = true)
      (fun L M => (M.de n).dmWord (L.rd (Reg.DE_ADDR_ADDR n.val) / 4 * 4) = w ∧
        (∀ b, b / 4 ≠ L.rd (Reg.DE_ADDR_ADDR n.val) / 4 → Tab.get 0 (M.de n).dm b = Tab.get 0 (L.de n).dm b) ∧
        M.rd (Reg.DE_ADDR_ADDR n.val) = (L.rd (Reg.DE_ADDR_ADDR n.val) + 4) % 65536 ∧
        M = { (L.onDe n (fun e => { e with dm := (M.de n).dm })) with core := M.core, regs := M.regs })) ∧
    (∀ (l : LaneId) (core : Core) (n : Engine) (w : Word), Does (.deDataAccess l core n (some w))
      (fun L => L.coreLive core = true ∧ L.waitsCommit (some core) = false ∧ L.waitsAt (some core) = none ∧ L.asleep (0x2010000C + 0x4000 * n.val) = none ∧ L.is (Reg.DE_CTRL_RUN n.val) = false ∧ L.is (Reg.DE_ADDR_SPACE n.val) = false ∧
        L.is (Reg.DE_STATUS_SEALED n.val) = false)
      (fun L M => memWord (M.de n).im (L.rd (Reg.DE_ADDR_ADDR n.val) / 4 * 4) = w ∧
        (∀ b, b / 4 ≠ L.rd (Reg.DE_ADDR_ADDR n.val) / 4 → Tab.get 0 (M.de n).im b = Tab.get 0 (L.de n).im b) ∧
        M.rd (Reg.DE_ADDR_ADDR n.val) = (L.rd (Reg.DE_ADDR_ADDR n.val) + 4) % 65536 ∧
        M = { (L.onDe n (fun e => { e with im := (M.de n).im })) with core := M.core, regs := M.regs })) ∧
    (∀ (l : LaneId) (core : Core) (n : Engine) (w : Word), Does (.deDataAccess l core n (some w))
      (fun L => L.coreLive core = true ∧ L.waitsCommit (some core) = false ∧ L.waitsAt (some core) = none ∧ L.asleep (0x2010000C + 0x4000 * n.val) = none ∧ L.is (Reg.DE_CTRL_RUN n.val) = false ∧ L.is (Reg.DE_ADDR_SPACE n.val) = false ∧
        L.is (Reg.DE_STATUS_SEALED n.val) = true)
      (fun L M => M.rd (Reg.DE_ADDR_ADDR n.val) = (L.rd (Reg.DE_ADDR_ADDR n.val) + 4) % 65536 ∧ M = { L with core := M.core, regs := M.regs })) ∧
    (∀ (l : LaneId) (core : Core) (n : Engine) (data : Option Word), Does (.deDataAccess l core n data)
      (fun L => L.coreLive core = true ∧ L.waitsCommit (some core) = false ∧ L.waitsAt (some core) = none ∧ L.asleep (0x2010000C + 0x4000 * n.val) = none ∧ L.is (Reg.DE_CTRL_RUN n.val) = true)
      (fun L M => M = { L with core := M.core, regs := M.regs } ∧ M.is (Reg.DE_STATUS_BUSYACC n.val) = true ∧ M.rd (Reg.DE_DATA_DATA n.val) = 0)) ∧
    (∀ (l : LaneId) (core : Core) (n : Engine), Does (.deCtrlRun l core n)
      (fun L => L.coreLive core = true ∧ L.waitsCommit (some core) = false ∧ L.waitsAt (some core) = none ∧ L.asleep (0x20100000 + 0x4000 * n.val) = none ∧ L.is (Reg.DE_CTRL_RUN n.val) = false ∧
        (∀ p : Port, p.castSucc = n → vget L.test.deadEngines p = false))
      (fun L M => M.is (Reg.DE_CTRL_RUN n.val) = true ∧ (M.de n).pc = 0 ∧ (∀ r, (M.de n).reg r = 0) ∧ (M.de n).wait = none ∧ (M.de n).dm = (L.de n).dm ∧
        (M.de n).im = (L.de n).im ∧ ∀ m, m ≠ n → (M.de m).pc = (L.de m).pc ∧ (M.de m).dm = (L.de m).dm ∧ (∀ r, (M.de m).reg r = (L.de m).reg r))) ∧
    (∀ (l : LaneId) (core : Core) (n : Engine), Does (.deCtrlHalt l core n)
      (fun L => L.coreLive core = true ∧ L.waitsCommit (some core) = false ∧ L.waitsAt (some core) = none ∧ L.asleep (0x20100000 + 0x4000 * n.val) = none ∧ L.is (Reg.DE_CTRL_RUN n.val) = true)
      (fun L M => (M.de n).pc = (L.de n).pc ∧ (M.de n).dm = (L.de n).dm ∧ (∀ r, (M.de n).reg r = (L.de n).reg r) ∧ M.is (Reg.DE_CTRL_RUN n.val) = false ∧ M.rd (Reg.DE_STATUS_HALT n.val) = 7 ∧ (M.de n).pc = (L.de n).pc)) ∧
    (∀ (l : LaneId) (core : Core) (n : Engine), Does (.deCtrlSeal l core n)
      (fun L => L.coreLive core = true ∧ L.waitsCommit (some core) = false ∧ L.waitsAt (some core) = none ∧ L.asleep (0x20100000 + 0x4000 * n.val) = none)
      (fun L M => M.is (Reg.DE_STATUS_SEALED n.val) = true ∧ M.is (Reg.DE_CTRL_SEAL n.val) = true ∧ M.engine = L.engine)) ∧
    (∀ (l : LaneId) (n : Engine), Does (.deImcrcDone l n)
      (fun L => L.is (Reg.DE_STATUS_SEALED n.val) = true)
      (fun L M => M.rd (Reg.DE_IMCRC n.val) = crc32 ((List.range 65536).map (fun a => Tab.get (0 : Byte) (L.de n).im a)) % 2 ^ 32 ∧ M = { L with regs := M.regs } ∧
        ∀ k, k ≠ (Reg.DE_IMCRC n.val).key → Tab.get 0 M.regs k = Tab.get 0 L.regs k)) ∧
    (∀ (l : LaneId) (core : Core) (n : Engine), Does (.deOvrRstmin l core n)
      (fun L => L.coreLive core = true ∧ L.waitsCommit (some core) = false ∧ L.waitsAt (some core) = none ∧ L.asleep (0x20100054 + 0x4000 * n.val) = none)
      (fun L M => M.rd (Reg.DE_BUDGET_SLACK_MIN n.val) = 65535 ∧ M = { L with core := M.core, regs := M.regs }))

/-- A period start that is due raises PS and REF, stamps its instant, shows the clamped difference from the 150 ps grid and
corrects the length of the coming period by at most SLEW; a port whose COMMIT counted loads it, its compares limited to their
halves, and one that has none counts an overrun, OVR_MAX of them in succession halting a running engine with HALT 6; in ARMED
with every first reference taken the lane enters SERVICE, or the AUTUMN or WINTER that its functions give it. A peak raises PM,
and with LOOP 1 and DE_DUAL accepted loads the CMPB values alone. An unlock time-out raises source 72 + p for every port with a
function. -/
def Obligations.carrier : Prop :=
    (∀ (l : LaneId) (n : Engine) (dt : Nat), Does (.pwmPeriodStart l n dt)
      (fun L => (L.pass dt).startDue n = true ∧ L.svc ≠ 3)
      (fun L M => (M.de n).psTick = ((L.pass dt).comingTick n) ∧ (M.de n).psTime = (((L.pass dt).comingTick n) * 3 / 20).toNat ∧ (M.de n).events.getLsbD 0 = true ∧ (M.de n).events.getLsbD 5 = true ∧
        M.rd (Reg.DE_PWM_LOCK_ERR n.val) = (max (-32767) (min 32767 (((L.pass dt).comingTick n) - (L.pass dt).gridTick n ((L.pass dt).gridIndex n ((L.pass dt).comingTick n)))) % 2 ^ 16).toNat ∧
        (M.de n).period = (L.pass dt).gridTick n ((L.pass dt).gridIndex n ((L.pass dt).comingTick n) + 1) - (L.pass dt).gridTick n ((L.pass dt).gridIndex n ((L.pass dt).comingTick n)) -
          max (-(L.rd (Reg.DE_PWM_LOCK_SLEW n.val) : Int)) (min (L.rd (Reg.DE_PWM_LOCK_SLEW n.val)) (((L.pass dt).comingTick n) - (L.pass dt).gridTick n ((L.pass dt).gridIndex n ((L.pass dt).comingTick n)))) ∧
        (n.val = 3 → M.rd (Reg.DE_PWM_LOCK_STATE n.val) = if (((L.pass dt).comingTick n) - (L.pass dt).gridTick n ((L.pass dt).gridIndex n ((L.pass dt).comingTick n))).natAbs ≤ 1 then 2 else 1))) ∧
    (∀ (l : LaneId) (p : Port) (dt : Nat), Does (.pwmPeriodStart l p.castSucc dt)
      (fun L => (L.pass dt).startDue p.castSucc = true ∧ (L.de p.castSucc).counted = true ∧ L.svc ≠ 3)
      (fun L M => (M.de p.castSucc).active = (L.de p.castSucc).committed ∧
        (∀ x : Fin 3, (M.cycleOf p).cmpA x = min (vget (L.de p.castSucc).committed.cmp (Fin.ofNat 6 (2 * x.val))) (risingHalf (M.de p.castSucc).period)) ∧
        (M.de p.castSucc).ovrRun = 0 ∧ (M.de p.castSucc).counted = (L.de p.castSucc).late ∧ (M.de p.castSucc).falling = false ∧
        (vget M.shunt p).taken = Vector.replicate 4 false ∧
        M.rd (Reg.DE_OVR_OVERRUN p.val) = L.rd (Reg.DE_OVR_OVERRUN p.val))) ∧
    (∀ (l : LaneId) (p : Port) (dt : Nat), Does (.pwmPeriodStart l p.castSucc dt)
      (fun L => (L.pass dt).startDue p.castSucc = true ∧ (L.de p.castSucc).counted = false ∧ L.loops p.castSucc = false ∧
        (L.is (Reg.DE_CTRL_RUN p.val) = false ∨ (L.de p.castSucc).ovrRun + 1 < L.rd (Reg.DE_OVR_OVR_MAX p.val)) ∧ L.svc ≠ 3)
      (fun L M => (M.de p.castSucc).active = (L.de p.castSucc).active ∧ (M.de p.castSucc).ovrRun = (L.de p.castSucc).ovrRun + 1 ∧
        M.rd (Reg.DE_OVR_OVERRUN p.val) = min 255 (L.rd (Reg.DE_OVR_OVERRUN p.val) + 1) ∧ M.rd (Reg.DE_CTRL_RUN p.val) = L.rd (Reg.DE_CTRL_RUN p.val))) ∧
    (∀ (l : LaneId) (p : Port) (dt : Nat), Does (.pwmPeriodStart l p.castSucc dt)
      (fun L => (L.pass dt).startDue p.castSucc = true ∧ (L.de p.castSucc).counted = false ∧ L.loops p.castSucc = false ∧
        L.is (Reg.DE_CTRL_RUN p.val) = true ∧ L.rd (Reg.DE_OVR_OVR_MAX p.val) ≤ (L.de p.castSucc).ovrRun + 1 ∧ L.svc ≠ 3)
      (fun _ M => M.is (Reg.DE_CTRL_RUN p.val) = false ∧ M.rd (Reg.DE_STATUS_HALT p.val) = 6 ∧ M.sticky (68 + p.val) = true)) ∧
    (∀ (l : LaneId) (n : Engine) (dt : Nat), Does (.pwmPeriodStart l n dt)
      (fun L => (L.pass dt).startDue n = true ∧ L.svc = 3 ∧ L.allTaken = true)
      (fun _ M => M.svc = 4 ∨ M.svc = 5 ∨ M.svc = 6)) ∧
    (∀ (l : LaneId) (n : Engine) (dt : Nat), Does (.carrierPeak l n dt)
      (fun L => (L.pass dt).peakDue n = true ∧ L.loops n = false)
      (fun L M => (M.de n).events = (L.de n).events ||| 2#9 ∧ (M.de n).falling = true ∧ (M.de n).active = (L.de n).active ∧ (M.de n).counted = (L.de n).counted)) ∧
    (∀ (l : LaneId) (p : Port) (dt : Nat), Does (.carrierPeak l p.castSucc dt)
      (fun L => (L.pass dt).peakDue p.castSucc = true ∧ L.loops p.castSucc = true ∧ (L.de p.castSucc).counted = true)
      (fun L M => (M.de p.castSucc).falling = true ∧ (M.de p.castSucc).ovrRun = 0 ∧ (M.de p.castSucc).active.bridge = (L.de p.castSucc).committed.bridge ∧
        (∀ k : Fin 6, vget (M.de p.castSucc).active.cmp k =
          if k.val % 2 = 0 then vget (L.de p.castSucc).active.cmp k else vget (L.de p.castSucc).committed.cmp k) ∧
        (∀ k : Fin 4, vget (M.de p.castSucc).active.sp k =
          if k.val < 2 then vget (L.de p.castSucc).active.sp k else vget (L.de p.castSucc).committed.sp k))) ∧
    (∀ (l : LaneId) (dt : Nat), Does (.carrierUnlockTimeout l dt)
      (fun L => (L.pass dt).due .unlock 10000000 = true)
      (fun L M => (∀ p, (L.funcOfPort p).isSome = true → M.sticky (72 + p.val) = true) ∧ M.running .unlock = false))

/-- A sample point that is due gives its raw code, its state word of the six commands at its instant and, for the first two of a
port, CS_LAST, and raises SR0 or SR1; a clipped one raises source 131 + p; MISS_MAX lost halves in succession raise source 128 +
p. A calibration starts while the gate enable is off or BRIDGE is 1, and gives its mean; otherwise START is ignored. A
conversion gives its code to the slot of the sequence in progress, the last of a sequence raising GEN, or to the next input of
the scan, and the first that waits begins. -/
def Obligations.current_measurement : Prop :=
    (∀ (l : LaneId) (p : Port) (k : Fin 4) (dt : Nat) (adc : BitVec 12), Does (.samplePoint l p k dt adc)
      (fun L => L.firmware = true ∧ (L.pass dt).sampleDue p k = true)
      (fun L M => vget (vget M.shunt p).raw k = some ((adc.toNat : Int) - 2048) ∧ vget (vget M.shunt p).word k = stateWord ((L.pass dt).commands p 0 ((L.pass dt).sampleAt p k)) ((L.pass dt).commands p 1 ((L.pass dt).sampleAt p k)) ((L.pass dt).commandsHeld p ((L.pass dt).sampleAt p k)) adc.toNat ∧
        vget (vget M.shunt p).taken k = true ∧
        (M.de p.castSucc).events = (L.de p.castSucc).events ||| (if k.val % 2 = 0 then 4#9 else 8#9) ∧
        (k = 0 → M.rd (Reg.CS_LAST_CODE0 p.val) = adc.toNat ∧ M.rd (Reg.CS_LAST_VALID0 p.val) = nbits (stateWord ((L.pass dt).commands p 0 ((L.pass dt).sampleAt p k)) ((L.pass dt).commands p 1 ((L.pass dt).sampleAt p k)) ((L.pass dt).commandsHeld p ((L.pass dt).sampleAt p k)) adc.toNat) 6 1) ∧
        (k = 1 → M.rd (Reg.CS_LAST_CODE1 p.val) = adc.toNat ∧ (vget M.shunt p).pairAt = some ((L.pass dt).peakTick p.castSucc * 3 / 20).toNat) ∧
        (adc.toNat = 0 ∨ adc.toNat = 4095 → M.is (Reg.CS_STAT_CLIP p.val) = true ∧ M.sticky (131 + p.val) = true))) ∧
    (∀ (l : LaneId) (p : Port) (dt : Nat) (adc : BitVec 12), Does (.samplePoint l p 1 dt adc)
      (fun L => L.firmware = true ∧ (L.pass dt).sampleDue p 1 = true ∧ L.bitOf Reg.GD_STAT_EN p.val = true ∧ L.bridgeNow p = 0 ∧
        nbit (vget (vget L.shunt p).word 0) 6 = false ∧ L.rd (Reg.CS_CFG_MISS_MAX p.val) ≤ (vget L.shunt p).lostRun + 1 ∧ adc.toNat ≠ 0 ∧ adc.toNat ≠ 4095)
      (fun L M => M.is (Reg.CS_STAT_LOSS p.val) = true ∧ M.sticky (128 + p.val) = true ∧ (vget M.shunt p).lostRun = (vget L.shunt p).lostRun + 1 ∧
        M.rd (Reg.CS_STAT_LOST p.val) = satUp (2 ^ (Reg.CS_STAT_LOST p.val).w - 1) (L.rd (Reg.CS_STAT_LOST p.val)) 1)) ∧
    (∀ (l : LaneId) (core : Core) (p : Port) (src : Fin 4), Does (.csCalStart l core p src)
      (fun L => L.coreLive core = true ∧ L.waitsCommit (some core) = false ∧ L.waitsAt (some core) = none ∧ L.asleep (0x20150014 + 0x40 * p.val) = none ∧
        (L.bitOf Reg.GD_STAT_EN p.val = false ∨ L.bridgeNow p = 1))
      (fun L M => M.rd (Reg.CS_CAL_SRC p.val) = src.val ∧ M.is (Reg.CS_CAL_BUSY p.val) = true ∧ (vget M.shunt p).cal = some src.val ∧
        (∀ q, q ≠ p → vget M.shunt q = vget L.shunt q) ∧ M = { L with core := M.core, regs := M.regs, shunt := M.shunt })) ∧
    (∀ (l : LaneId) (core : Core) (p : Port) (src : Fin 4), Does (.csCalStart l core p src)
      (fun L => L.coreLive core = true ∧ L.waitsCommit (some core) = false ∧ L.waitsAt (some core) = none ∧ L.asleep (0x20150014 + 0x40 * p.val) = none ∧
        L.bitOf Reg.GD_STAT_EN p.val = true ∧ L.bridgeNow p ≠ 1)
      (fun L M => M.rd (Reg.CS_CAL_SRC p.val) = src.val ∧ M.rd (Reg.CS_CAL_BUSY p.val) = L.rd (Reg.CS_CAL_BUSY p.val) ∧ M.rd (Reg.CS_CAL_MEAN p.val) = L.rd (Reg.CS_CAL_MEAN p.val) ∧
        M = { L with core := M.core, regs := M.regs } ∧ ∀ g : Fld, g.key ≠ (Reg.CS_CAL_SRC p.val).key → M.rd g = L.rd g)) ∧
    (∀ (l : LaneId) (p : Port) (mean : BitVec 16), Does (.csCalDone l p mean)
      (fun L => (vget L.shunt p).cal.isSome = true)
      (fun L M => M.is (Reg.CS_CAL_BUSY p.val) = false ∧ M.rd (Reg.CS_CAL_MEAN p.val) = mean.toNat ∧ (vget M.shunt p).cal = none ∧ M = { L with regs := M.regs, shunt := M.shunt })) ∧
    (∀ (l : LaneId) (code : BitVec 12), Does (.generalAdcConversion l code)
      (fun L => L.firmware = true ∧ L.gen.busy = none)
      (fun L M => M.rd (Reg.CS_GRES_CODE L.gen.scan) = code.toNat ∧
        M = { L with regs := M.regs, gen := { L.gen with scan := (L.gen.scan + 1) % 24, busy := L.gen.queue.head?, queue := L.gen.queue.tail } })) ∧
    (∀ (l : LaneId) (code : BitVec 12) (x : AdcSlot), Does (.generalAdcConversion l code)
      (fun L => L.firmware = true ∧ L.gen.busy = some x)
      (fun L M => vget (vget M.gen.res x.engine) (Fin.ofNat 8 x.slot) = code.toNat ∧ M.rd (Reg.CS_GRES_CODE (L.adcSlot x.engine x.slot)) = code.toNat ∧
        (M.de x.engine).events = (L.de x.engine).events ||| (if x.last then 0x100#9 else 0#9) ∧
        M.gen.busy = L.gen.queue.head? ∧ M.gen.queue = L.gen.queue.tail ∧ M.gen.scan = L.gen.scan ∧
        M = { L with regs := M.regs, gen := M.gen, engine := M.engine }))

/-- QE_COUNTING_EDGE counts up or down modulo 2^32 and within ENC_COUNTS, a hit of the compare advances CMP by STEP and stamps
CMPT, an unchanged or filtered pair of levels does nothing, a skipped edge counts in SKIPS alone; QE_QUALIFIED_INDEX loads the
modular count with 0 in mode 1 and at the armed index of mode 2; QE_WIRE_DISAGREEMENT fails the input and raises source 136 + n;
an input without an edge reads speed 0 and STILL. RESOLVER_SAMPLE gives an angle within the error of the interface (the exact
one is a free value); an excitation fault fails RS_0. -/
def Obligations.quadrature_and_resolver : Prop :=
    (∀ (l : LaneId) (n : Fin 2) (dt : Nat) (a b : Bool) (ha hb : Nat), Does (.qeCountingEdge l n dt a b ha hb)
      (fun L => L.firmware = true ∧ L.rd (Reg.QE_CFG_FILT n.val) ≤ ha ∧ L.rd (Reg.QE_CFG_FILT n.val) ≤ hb ∧ (quadIx a b + 4 - quadIx (vget L.quad n).a (vget L.quad n).b) % 4 = 1 ∧ L.is (Reg.QE_CFG_INV n.val) = false ∧ L.encCounts n ≠ 0)
      (fun L M => M.rd (Reg.QE_CNT n.val) = (L.rd (Reg.QE_CNT n.val) + 1) % 2 ^ 32 ∧ (vget M.quad n).a = a ∧ (vget M.quad n).b = b ∧
        M.rd (Reg.QE_MOD n.val) = (if L.encCounts n ≤ L.rd (Reg.QE_MOD n.val) + 1 then 0 else L.rd (Reg.QE_MOD n.val) + 1) % 2 ^ 32 ∧
        M = { L.pass dt with regs := M.regs, quad := M.quad, irqs := M.irqs, plic := M.plic })) ∧
    (∀ (l : LaneId) (n : Fin 2) (dt : Nat) (a b : Bool) (ha hb : Nat), Does (.qeCountingEdge l n dt a b ha hb)
      (fun L => L.firmware = true ∧ L.rd (Reg.QE_CFG_FILT n.val) ≤ ha ∧ L.rd (Reg.QE_CFG_FILT n.val) ≤ hb ∧ (quadIx a b + 4 - quadIx (vget L.quad n).a (vget L.quad n).b) % 4 = 3 ∧ L.is (Reg.QE_CFG_INV n.val) = false ∧ L.encCounts n ≠ 0)
      (fun L M => M.rd (Reg.QE_CNT n.val) = (L.rd (Reg.QE_CNT n.val) + (2 ^ 32 - 1)) % 2 ^ 32 ∧ (vget M.quad n).a = a ∧ (vget M.quad n).b = b ∧
        M.rd (Reg.QE_MOD n.val) = (if L.rd (Reg.QE_MOD n.val) = 0 then L.encCounts n - 1 else L.rd (Reg.QE_MOD n.val) - 1) % 2 ^ 32 ∧
        M = { L.pass dt with regs := M.regs, quad := M.quad, irqs := M.irqs, plic := M.plic })) ∧
    (∀ (l : LaneId) (n : Fin 2) (dt : Nat) (a b : Bool) (ha hb : Nat), Does (.qeCountingEdge l n dt a b ha hb)
      (fun L => L.firmware = true ∧ L.rd (Reg.QE_CFG_FILT n.val) ≤ ha ∧ L.rd (Reg.QE_CFG_FILT n.val) ≤ hb ∧ (quadIx a b + 4 - quadIx (vget L.quad n).a (vget L.quad n).b) % 4 = 1 ∧ L.is (Reg.QE_CFG_INV n.val) = false ∧ nbit (L.rd (Reg.QE_CFG_CMPDIR n.val)) 0 = true ∧
        L.rd (Reg.QE_CMP n.val) = (L.rd (Reg.QE_CNT n.val) + 1) % 2 ^ 32)
      (fun L M => M.is (Reg.QE_STAT_CMPHIT n.val) = true ∧ M.rd (Reg.QE_CMP n.val) = (L.rd (Reg.QE_CMP n.val) + L.rd (Reg.QE_STEP n.val)) % 2 ^ 32 ∧
        M.rd (Reg.QE_CMPT n.val) = (L.pass dt).now / 10 * 10 % 2 ^ 64 ∧ (L.is (Reg.QE_CFG_IE_CMP n.val) = true → (if L.plic.busy.contains (.qe n) then M.plic.held else M.irqs).contains (.qe n) = true))) ∧
    (∀ (l : LaneId) (n : Fin 2) (dt : Nat) (a b : Bool) (ha hb : Nat), Does (.qeCountingEdge l n dt a b ha hb)
      (fun L => L.firmware = true ∧ L.rd (Reg.QE_CFG_FILT n.val) ≤ ha ∧ L.rd (Reg.QE_CFG_FILT n.val) ≤ hb ∧ (quadIx a b + 4 - quadIx (vget L.quad n).a (vget L.quad n).b) % 4 = 2)
      (fun L M => M.rd (Reg.QE_STAT_SKIPS n.val) = min (2 ^ Fld.w (Reg.QE_STAT_SKIPS n.val) - 1) (L.rd (Reg.QE_STAT_SKIPS n.val) + 1) ∧ M.rd (Reg.QE_CNT n.val) = L.rd (Reg.QE_CNT n.val) ∧
        M.rd (Reg.QE_MOD n.val) = L.rd (Reg.QE_MOD n.val) ∧ (vget M.quad n).a = a ∧ (vget M.quad n).b = b ∧ (vget M.quad n).skips = (vget L.quad n).skips + 1)) ∧
    (∀ (l : LaneId) (n : Fin 2) (dt : Nat) (a b : Bool) (ha hb : Nat), Does (.qeCountingEdge l n dt a b ha hb)
      (fun L => L.firmware = true ∧
        (a = (vget L.quad n).a ∨ ha < L.rd (Reg.QE_CFG_FILT n.val)) ∧ (b = (vget L.quad n).b ∨ hb < L.rd (Reg.QE_CFG_FILT n.val)))
      (fun L M => M.regs = L.regs ∧ vget M.quad n = vget L.quad n ∧ M.irqs = L.irqs)) ∧
    (∀ (l : LaneId) (n : Fin 2) (dt : Nat) (a b : Bool) (ha hb hz : Nat), Does (.qeQualifiedIndex l n dt a b ha hb hz)
      (fun L => L.firmware = true ∧
        L.rd (Reg.QE_CFG_FILT n.val) ≤ hz ∧ L.is (Reg.QE_CFG_ZGATE_EN n.val) = false ∧
        (L.rd (Reg.QE_CFG_IDXMODE n.val) = 1 ∨ (L.rd (Reg.QE_CFG_IDXMODE n.val) = 2 ∧ (vget L.quad n).armedIdx = true)))
      (fun L M => M.rd (Reg.QE_MOD n.val) = 0 ∧ M.rd (Reg.QE_STAT_SKIPS n.val) = 0 ∧ M.is (Reg.QE_STAT_ALIGNED n.val) = true ∧ M.is (Reg.QE_STAT_IDXHIT n.val) = true ∧
        (L.is (Reg.QE_CFG_IDXCNT n.val) = true → M.rd (Reg.QE_CNT n.val) = 0))) ∧
    (∀ (l : LaneId) (n : Fin 2) (line : Fin 3), Does (.qeWireDisagreement l n line)
      (fun L => L.firmware = true)
      (fun L M => M.bitOf (Reg.QE_STAT_WIRE n.val) line.val = true ∧ M.is (Reg.QE_STAT_FAIL n.val) = true ∧
        (L.is (Reg.QE_STAT_FAIL n.val) = false → M.sticky (136 + n.val) = true))) ∧
    (∀ (l : LaneId) (n : Fin 2) (dt : Nat), Does (.qeSpeedEval l n dt)
      (fun L => L.firmware = true ∧ L.portOfSrc n.val = none ∧ (vget L.quad n).lastEdge = none)
      (fun L M => M.rd (Reg.QE_SPD n.val) = 0 ∧ M.is (Reg.QE_STAT_STILL n.val) = true ∧ M = { L.pass dt with regs := M.regs })) ∧
    (∀ (l : LaneId) (dt : Nat) (sine cosine : BitVec 12), Does (.resolverSample l dt sine cosine)
      (fun L => L.firmware = true ∧ (L.portOfSrc 2).isSome = true)
      (fun L M => M.resolver.sampled = true ∧ M.resolver.angle.toNat = M.rd Reg.QE_RS_ANG ∧ M.resolver.time = (L.pass dt).now ∧
        circDist M.resolver.angle (BitVec.ofNat 32 (angleOf (cosine.toInt * (65536 + sgn 16 (L.rd Reg.QE_RS_TRIM_AMP))) (sine.toInt * 65536))) ≤ 4096)) ∧
    (∀ (l : LaneId), Does (.resolverExcitationFault l)
      (fun L => L.firmware = true ∧ (L.portOfSrc 2).isSome = true)
      (fun L M => M.is Reg.QE_RS_STAT_EXCF = true ∧ M.is Reg.QE_RS_STAT_FAIL = true ∧ (L.is Reg.QE_RS_STAT_FAIL = false → M.sticky 138 = true)))

/-- SENT_FRAME_RX takes a good frame into SENT_DATA, restarts its time-out and raises its interrupt, and counts a bad one;
SENT_TIMEOUT sets TMO and source 139 + s; SENSOR_RECORD_RX keeps a neighbour reading for the vote or its SENT word.
POSITION_VOTE: of three readings that agree the median is the result, of exactly one agreeing pair the mean with the third
outvoted, of none at all no result: then VSPD is kept, UNRES is set and counted. It raises POS. -/
def Obligations.sent_and_position_vote : Prop :=
    (∀ (l : LaneId) (sn : Fin 2) (f : SentFrame), Does (.sentFrameRx l sn f)
      (fun L => L.firmware = true ∧ L.rd (Reg.QE_SENT_CFG_TICK sn.val) ≠ 0 ∧ 5 * (max f.syncNs (56 * L.rd (Reg.QE_SENT_CFG_TICK sn.val) * 100) - min f.syncNs (56 * L.rd (Reg.QE_SENT_CFG_TICK sn.val) * 100)) ≤ 56 * L.rd (Reg.QE_SENT_CFG_TICK sn.val) * 100 ∧ (vget L.sent sn).prevSync = none ∧
        (∀ k, 12 ≤ sentTicks f.syncNs (vget f.nibNs k) ∧ sentTicks f.syncNs (vget f.nibNs k) ≤ 27) ∧ (sentTicks f.syncNs (vget f.nibNs 7) - 12) = sentCrc (L.is (Reg.QE_SENT_CFG_CRC sn.val)) [(sentTicks f.syncNs (vget f.nibNs 1) - 12), (sentTicks f.syncNs (vget f.nibNs 2) - 12), (sentTicks f.syncNs (vget f.nibNs 3) - 12), (sentTicks f.syncNs (vget f.nibNs 4) - 12), (sentTicks f.syncNs (vget f.nibNs 5) - 12), (sentTicks f.syncNs (vget f.nibNs 6) - 12)] ∧ L.svc ≠ 6)
      (fun L M => M.rd (Reg.QE_SENT_DATA_DATA sn.val) = nbits (L.sentWordOf sn (sentTicks f.syncNs (vget f.nibNs 0) - 12) [(sentTicks f.syncNs (vget f.nibNs 1) - 12), (sentTicks f.syncNs (vget f.nibNs 2) - 12), (sentTicks f.syncNs (vget f.nibNs 3) - 12), (sentTicks f.syncNs (vget f.nibNs 4) - 12), (sentTicks f.syncNs (vget f.nibNs 5) - 12), (sentTicks f.syncNs (vget f.nibNs 6) - 12)]) 0 24 ∧ M.rd (Reg.QE_SENT_DATA_STATUS sn.val) = nbits (L.sentWordOf sn (sentTicks f.syncNs (vget f.nibNs 0) - 12) [(sentTicks f.syncNs (vget f.nibNs 1) - 12), (sentTicks f.syncNs (vget f.nibNs 2) - 12), (sentTicks f.syncNs (vget f.nibNs 3) - 12), (sentTicks f.syncNs (vget f.nibNs 4) - 12), (sentTicks f.syncNs (vget f.nibNs 5) - 12), (sentTicks f.syncNs (vget f.nibNs 6) - 12)]) 24 4 ∧
        M.rd (Reg.QE_SENT_DATA_CNT sn.val) = nbits (L.sentWordOf sn (sentTicks f.syncNs (vget f.nibNs 0) - 12) [(sentTicks f.syncNs (vget f.nibNs 1) - 12), (sentTicks f.syncNs (vget f.nibNs 2) - 12), (sentTicks f.syncNs (vget f.nibNs 3) - 12), (sentTicks f.syncNs (vget f.nibNs 4) - 12), (sentTicks f.syncNs (vget f.nibNs 5) - 12), (sentTicks f.syncNs (vget f.nibNs 6) - 12)]) 28 4 ∧ M.is (Reg.QE_SENT_STAT_TMO sn.val) = false ∧
        M.timerAt (.sentFrame sn) = some L.el ∧ (if L.plic.busy.contains (.sent sn) then M.plic.held else M.irqs).contains (.sent sn) = true ∧
        M.link = linkAdd ⟨some (.sensor (.sentWord sn (BitVec.ofNat 32 (L.sentWordOf sn (sentTicks f.syncNs (vget f.nibNs 0) - 12) [(sentTicks f.syncNs (vget f.nibNs 1) - 12), (sentTicks f.syncNs (vget f.nibNs 2) - 12), (sentTicks f.syncNs (vget f.nibNs 3) - 12), (sentTicks f.syncNs (vget f.nibNs 4) - 12), (sentTicks f.syncNs (vget f.nibNs 5) - 12), (sentTicks f.syncNs (vget f.nibNs 6) - 12)])))), 2, 8 * (linkLen 2 + 4), 8 * (linkLen 2 + 4), false⟩ L.link ∧
        M.rd (Reg.QE_SENT_STAT_ERRCNT sn.val) = L.rd (Reg.QE_SENT_STAT_ERRCNT sn.val))) ∧
    (∀ (l : LaneId) (sn : Fin 2) (f : SentFrame), Does (.sentFrameRx l sn f)
      (fun L => L.firmware = true ∧ L.rd (Reg.QE_SENT_CFG_TICK sn.val) ≠ 0 ∧ (∀ k, 12 ≤ sentTicks f.syncNs (vget f.nibNs k) ∧ sentTicks f.syncNs (vget f.nibNs k) ≤ 27) ∧
        (sentTicks f.syncNs (vget f.nibNs 7) - 12) ≠ sentCrc (L.is (Reg.QE_SENT_CFG_CRC sn.val)) [(sentTicks f.syncNs (vget f.nibNs 1) - 12), (sentTicks f.syncNs (vget f.nibNs 2) - 12), (sentTicks f.syncNs (vget f.nibNs 3) - 12), (sentTicks f.syncNs (vget f.nibNs 4) - 12), (sentTicks f.syncNs (vget f.nibNs 5) - 12), (sentTicks f.syncNs (vget f.nibNs 6) - 12)])
      (fun L M => M.is (Reg.QE_SENT_STAT_CRCERR sn.val) = true ∧ M.rd (Reg.QE_SENT_DATA_DATA sn.val) = L.rd (Reg.QE_SENT_DATA_DATA sn.val) ∧ M.irqs = L.irqs ∧ M.link = L.link ∧
        M.timers = L.timers ∧ M.rd (Reg.QE_SENT_STAT_ERRCNT sn.val) = min (2 ^ Fld.w (Reg.QE_SENT_STAT_ERRCNT sn.val) - 1) (L.rd (Reg.QE_SENT_STAT_ERRCNT sn.val) + 1))) ∧
    (∀ (l : LaneId) (dt : Nat) (sn : Fin 2), Does (.sentTimeout l dt sn)
      (fun L => L.firmware = true ∧ L.rd (Reg.QE_SENT_CFG_TICK sn.val) ≠ 0 ∧ (L.pass dt).due (.sentFrame sn) (L.sentTimeoutNs sn) = true)
      (fun _ M => M.is (Reg.QE_SENT_STAT_TMO sn.val) = true ∧ M.sticky (139 + sn.val) = true)) ∧
    (∀ (l : LaneId) (sd : Side) (r : SensorRecord), Does (.sensorRecordRx l sd (.reading r))
      (fun L => L.firmware = true)
      (fun L M => vget (vget M.votePos r.port).nb sd.ix = some r ∧ (∀ s, s ≠ sd.ix → vget (vget M.votePos r.port).nb s = vget (vget L.votePos r.port).nb s) ∧
        (∀ p, p ≠ r.port → vget M.votePos p = vget L.votePos p))) ∧
    (∀ (l : LaneId) (sd : Side) (k : Fin 2) (w : Word), Does (.sensorRecordRx l sd (.sentWord k w))
      (fun L => L.firmware = true)
      (fun _ M => M.rd (Reg.QE_SENT_NB k.val sd.ix.val) = w.toNat)) ∧
    (∀ (l : LaneId) (p : Port) (a b c : Reading), Does (.positionVote l p)
      (fun L => L.firmware = true ∧ (L.funcOfPort p).isSome = true ∧
        L.voteOwn p = some a ∧ L.voteNb p .prev = some b ∧ L.voteNb p .next = some c ∧
        circDist a.ang b.ang ≤ L.rd (Reg.QE_VTOL_VOTE_TOL p.val) * 65536 ∧ circDist b.ang c.ang ≤ L.rd (Reg.QE_VTOL_VOTE_TOL p.val) * 65536 ∧ circDist c.ang a.ang ≤ L.rd (Reg.QE_VTOL_VOTE_TOL p.val) * 65536)
      (fun _ M => M.rd (Reg.QE_VANG p.val) = (Lane.medianOf a b c).ang.toNat ∧ M.rd (Reg.QE_VSPD p.val) = (Lane.medianOf a b c).spd.toNat ∧
        M.is (Reg.QE_VOTE_UNRES p.val) = false ∧ M.rd (Reg.QE_VOTE_USED p.val) = 7 ∧ M.rd (Reg.QE_VOTE_OUTV p.val) = 0 ∧
        (M.de p.castSucc).events.getLsbD 4 = true)) ∧
    (∀ (l : LaneId) (p : Port) (a b c : Reading), Does (.positionVote l p)
      (fun L => L.firmware = true ∧ (L.funcOfPort p).isSome = true ∧
        L.voteOwn p = some a ∧ L.voteNb p .prev = some b ∧ L.voteNb p .next = some c ∧
        circDist a.ang b.ang ≤ L.rd (Reg.QE_VTOL_VOTE_TOL p.val) * 65536 ∧ L.rd (Reg.QE_VTOL_VOTE_TOL p.val) * 65536 < circDist b.ang c.ang ∧ L.rd (Reg.QE_VTOL_VOTE_TOL p.val) * 65536 < circDist c.ang a.ang)
      (fun _ M => M.rd (Reg.QE_VANG p.val) = (circMean a.ang b.ang).toNat ∧ M.rd (Reg.QE_VSPD p.val) = (meanSpeed a.spd b.spd).toNat ∧
        M.is (Reg.QE_VOTE_UNRES p.val) = false ∧ M.rd (Reg.QE_VOTE_USED p.val) = 3 ∧ M.rd (Reg.QE_VOTE_OUTV p.val) = 4)) ∧
    (∀ (l : LaneId) (p : Port), Does (.positionVote l p)
      (fun L => L.firmware = true ∧ (L.funcOfPort p).isSome = true ∧
        L.voteOwn p = none ∧ L.voteNb p .prev = none ∧ L.voteNb p .next = none ∧ L.voteHfi p = none)
      (fun L M => M.is (Reg.QE_VOTE_UNRES p.val) = true ∧ M.rd (Reg.QE_VOTE_USED p.val) = 0 ∧ M.rd (Reg.QE_VSPD p.val) = L.rd (Reg.QE_VSPD p.val) % 2 ^ 32 ∧
        M.rd (Reg.QE_COMM_UNRESCNT p.val) = min (2 ^ Fld.w (Reg.QE_COMM_UNRESCNT p.val) - 1) (L.rd (Reg.QE_COMM_UNRESCNT p.val) + 1) ∧
        (vget M.votePos p).unresRun = (vget L.votePos p).unresRun + 1 ∧
        (L.rd (Reg.QE_VOTE_CFG_UNRES_MAX p.val) ≤ (vget L.votePos p).unresRun + 1 → M.sticky (150 + p.val) = true)))

/-- Without its gate enable the supervisor goes to OFF, the short circuit of ASC staying forced; with WHOLD set it goes from
CATCH, SYNC, RUN or STALL to ASC with the short circuit forced; from OFF with the gate enable it enters CATCH with all switches
off; a catch without a verdict in CATCH_N + 8 periods fails, and CATCH_RETRY failures give OFF, the port turned off and source
80 + p; in SYNC after the charge, SYNC_N agreeing votes in succession give RUN; a commutation ends STALL. The locked rotor
raises source 76 + p and gives STALL, or turns the port off where LR_ACT is set. -/
def Obligations.motor_supervisor : Prop :=
    (∀ (l : LaneId) (p : Port), Does (.motorSupervisorEval l p)
      (fun L => L.firmware = true ∧ L.rd (Reg.DE_MOT_STAT_STATE p.val) ≠ 0 ∧ L.bitOf Reg.GD_STAT_EN p.val = false)
      (fun L M => M.rd (Reg.DE_MOT_STAT_STATE p.val) = 0 ∧ (vget M.motor p).force = (if L.rd (Reg.DE_MOT_STAT_STATE p.val) = 5 then 2 else 0) ∧ (vget M.motor p).tzero = true ∧ M.running (.lockedRotor p) = false ∧ (∀ q, q ≠ p → vget M.motor q = vget L.motor q))) ∧
    (∀ (l : LaneId) (p : Port), Does (.motorSupervisorEval l p)
      (fun L => L.firmware = true ∧ 1 ≤ L.rd (Reg.DE_MOT_STAT_STATE p.val) ∧ L.rd (Reg.DE_MOT_STAT_STATE p.val) ≤ 4 ∧ L.bitOf Reg.GD_STAT_EN p.val = true ∧ L.bitOf Reg.LG_PORT_WHOLD p.val = true)
      (fun _ M => M.rd (Reg.DE_MOT_STAT_STATE p.val) = 5 ∧ (vget M.motor p).force = 2)) ∧
    (∀ (l : LaneId) (p : Port), Does (.motorSupervisorEval l p)
      (fun L => L.firmware = true ∧ L.rd (Reg.DE_MOT_STAT_STATE p.val) = 0 ∧ L.bitOf Reg.GD_STAT_EN p.val = true)
      (fun _ M => M.rd (Reg.DE_MOT_STAT_STATE p.val) = 1 ∧ (vget M.motor p).force = 1 ∧ (vget M.motor p).tzero = true ∧ M.rd (Reg.DE_MOT_STAT_DIR p.val) = 0)) ∧
    (∀ (l : LaneId) (p : Port), Does (.motorSupervisorEval l p)
      (fun L => L.firmware = true ∧ L.rd (Reg.DE_MOT_STAT_STATE p.val) = 1 ∧ L.bitOf Reg.GD_STAT_EN p.val = true ∧ L.bitOf Reg.LG_PORT_WHOLD p.val = false ∧ (L.de p.castSucc).upSnap = none ∧
        L.rd (Reg.DE_MOT_CFG_CATCH_N p.val) + 8 ≤ (vget L.motor p).periods + 1 ∧ L.rd (Reg.DE_MOT_CFG_CATCH_RETRY p.val) ≤ L.rd (Reg.DE_MOT_STAT_CATCHTRY p.val) + 1 ∧
        L.rd (Reg.DE_MOT_STAT_CATCHTRY p.val) + 1 < 2 ^ Fld.w (Reg.DE_MOT_STAT_CATCHTRY p.val))
      (fun _ M => M.rd (Reg.DE_MOT_STAT_STATE p.val) = 0 ∧ M.is (Reg.DE_MOT_STAT_CATCHF p.val) = true ∧ M.sticky (80 + p.val) = true)) ∧
    (∀ (l : LaneId) (p : Port) (u : Vector Word 9), Does (.motorSupervisorEval l p)
      (fun L => L.firmware = true ∧ L.rd (Reg.DE_MOT_STAT_STATE p.val) = 2 ∧ L.bitOf Reg.GD_STAT_EN p.val = true ∧ L.bitOf Reg.LG_PORT_WHOLD p.val = false ∧ (L.de p.castSucc).upSnap = some u ∧
        nbit (vget u 0).toNat 2 = true ∧ (vget L.motor p).charge = false ∧ L.rd (Reg.DE_MOT_CFG_SYNC_N p.val) ≤ (vget L.motor p).syncRun + 1)
      (fun _ M => M.rd (Reg.DE_MOT_STAT_STATE p.val) = 3 ∧ M.rd (Reg.DE_MOT_STAT_CATCHTRY p.val) = 0 ∧ (vget M.motor p).tzero = false)) ∧
    (∀ (l : LaneId) (p : Port), Does (.motorSupervisorEval l p)
      (fun L => L.firmware = true ∧ L.rd (Reg.DE_MOT_STAT_STATE p.val) = 4 ∧ L.bitOf Reg.GD_STAT_EN p.val = true ∧ L.bitOf Reg.LG_PORT_WHOLD p.val = false ∧ L.rd (Reg.QE_COMM_COMM p.val) ≠ (vget L.motor p).lastComm)
      (fun L M => M.rd (Reg.DE_MOT_STAT_STATE p.val) = 3 ∧ (vget M.motor p).lastComm = L.rd (Reg.QE_COMM_COMM p.val))) ∧
    (∀ (l : LaneId) (dt : Nat) (p : Port), Does (.lockedRotorTimeout l dt p)
      (fun L => L.rd (Reg.DE_MOT_STAT_STATE p.val) = 3 ∧ (L.pass dt).due (.lockedRotor p) (L.rd (Reg.DE_MOT_CFG_LR_T p.val) * 10000000) = true ∧ L.is (Reg.DE_MOT_CFG_LR_ACT p.val) = false)
      (fun L M => M.rd (Reg.DE_MOT_STAT_STATE p.val) = 4 ∧ M.is (Reg.DE_MOT_STAT_STALLED p.val) = true ∧ M.sticky (76 + p.val) = true ∧ M.motor = L.motor)) ∧
    (∀ (l : LaneId) (dt : Nat) (p : Port), Does (.lockedRotorTimeout l dt p)
      (fun L => L.rd (Reg.DE_MOT_STAT_STATE p.val) = 3 ∧ (L.pass dt).due (.lockedRotor p) (L.rd (Reg.DE_MOT_CFG_LR_T p.val) * 10000000) = true ∧ L.is (Reg.DE_MOT_CFG_LR_ACT p.val) = true)
      (fun _ M => M.rd (Reg.DE_MOT_STAT_STATE p.val) = 0 ∧ M.is (Reg.DE_MOT_STAT_STALLED p.val) = true ∧ M.sticky (76 + p.val) = true ∧ M.bitOf Reg.GD_STAT_EN p.val = false))

/-- DESAT_TRIP, FOC_TRIP, UVLO_FALLING_CROSSING: outside a self-test of its port, and of a switch commanded on, a trip shows its
bit, raises its source, excludes the port of a desaturation, overcurrent or VGD trip from the short circuit, and turns the lane
off: PROT is set, no port outside the short circuit has its gate enable, and the lane withdraws from every function with a
bridge port. A desaturation comparator of a switch that is off is idle. A supply that is not armed only shows its fall;
UVLO_RISING_CROSSING shows its rise. TURN_OFF_STAGE1_END ends stage 1 of its switch. GATE_REQUEST_LOST turns a granted port off.
-/
def Obligations.trips : Prop :=
    (∀ (l : LaneId) (b : Fin 18), Does (.desatTrip l b)
      (fun L => L.guardSt.powered = true ∧ L.underTest (Lane.switchPort b) = false ∧ (vget L.gateFollowAll.gate.drive b).on = true)
      (fun L M => M.bitOf Reg.GD_TRIP_0_DSAT b.val = true ∧ M.sticky (192 + b.val) = true ∧ M.is Reg.GD_STAT_PROT = true ∧ vget M.gate.excluded (Lane.switchPort b) = true ∧
        (∀ p : Port, L.bitOf Reg.GD_STAT_ASC p.val = false → M.bitOf Reg.GD_STAT_EN p.val = false) ∧
        (∀ f, (L.portOf f).isSome = true → vget M.vote.withdraw f.ix = true))) ∧
    (∀ (l : LaneId) (b : Fin 18), Does (.desatTrip l b)
      (fun L => L.guardSt.powered = true ∧ L.underTest (Lane.switchPort b) = false ∧ (vget L.gateFollowAll.gate.drive b).on = false)
      (fun L M => M = { L with gate := { L.gate with drive := M.gate.drive } })) ∧
    (∀ (l : LaneId) (p : Port), Does (.focTrip l p)
      (fun L => L.guardSt.powered = true ∧ L.underTest p = false)
      (fun L M => M.bitOf Reg.GD_TRIP_0_FOC p.val = true ∧ M.sticky (210 + p.val) = true ∧ M.is Reg.GD_STAT_PROT = true ∧ vget M.gate.excluded p = true ∧
        (∀ q : Port, L.bitOf Reg.GD_STAT_ASC q.val = false → M.bitOf Reg.GD_STAT_EN q.val = false) ∧
        (∀ f, (L.portOf f).isSome = true → vget M.vote.withdraw f.ix = true))) ∧
    (∀ (l : LaneId) (p : Port), Does (.uvloFallingCrossing l (Fin.castLE (by decide) p))
      (fun L => L.guardSt.powered = true ∧ L.underTest p = false ∧ L.bitOf Reg.GD_STAT_EN p.val = true)
      (fun L M => M.bitOf Reg.GD_STAT_VGDOK p.val = false ∧ M.bitOf Reg.GD_TRIP_0_VGDUV p.val = true ∧ M.sticky (213 + p.val) = true ∧
        M.is Reg.GD_STAT_PROT = true ∧ vget M.gate.excluded p = true ∧ (∀ f, (L.portOf f).isSome = true → vget M.vote.withdraw f.ix = true))) ∧
    (∀ (l : LaneId) (p : Port), Does (.uvloFallingCrossing l (Fin.castLE (by decide) p))
      (fun L => L.guardSt.powered = true ∧ L.underTest p = false ∧ L.bitOf Reg.GD_STAT_EN p.val = false ∧ L.bitOf Reg.GD_STAT_ASC p.val = false)
      (fun L M => M.bitOf Reg.GD_STAT_VGDOK p.val = false ∧ M.sticky (213 + p.val) = L.sticky (213 + p.val) ∧ M.is Reg.GD_STAT_PROT = L.is Reg.GD_STAT_PROT ∧
        M.bitOf Reg.GD_TRIP_0_VGDUV p.val = L.bitOf Reg.GD_TRIP_0_VGDUV p.val ∧ M.gate.excluded = L.gate.excluded)) ∧
    (∀ (l : LaneId) (b : Fin 9), Does (.uvloFallingCrossing l (b.natAdd 3))
      (fun L => L.guardSt.powered = true ∧ L.underTest (Fin.ofNat 3 (b.val / 3)) = false ∧ L.bitOf Reg.GD_STAT_BSTARM b.val = true)
      (fun L M => M.bitOf Reg.GD_STAT_BSTOK b.val = false ∧ M.bitOf Reg.GD_TRIP_1_BSTUV b.val = true ∧ M.sticky (216 + b.val) = true ∧
        M.is Reg.GD_STAT_PROT = true ∧ (∀ f, (L.portOf f).isSome = true → vget M.vote.withdraw f.ix = true))) ∧
    (∀ (l : LaneId) (k : Fin 12), Does (.uvloRisingCrossing l k)
      (fun L => L.guardSt.powered = true)
      (fun L M => if k.val < 3 then M.bitOf Reg.GD_STAT_VGDOK k.val = true
        else M.bitOf Reg.GD_STAT_BSTOK (k.val - 3) = true ∧ (L.bitOf Reg.GD_STAT_EN ((k.val - 3) / 3) = true → M.bitOf Reg.GD_STAT_BSTARM (k.val - 3) = true))) ∧
    (∀ (l : LaneId) (b : Fin 18), Does (.turnOffStage1End l b)
      (fun L => vget L.gate.stage b = .stage1)
      (fun L M => (∀ c, vget M.gate.stage c = if c = b then .stage2 else vget L.gate.stage c) ∧ M = { L with gate := { L.gate with stage := M.gate.stage }, timers := M.timers } ∧
        ((∀ c, vget M.gate.stage c ≠ .stage1) → M.timerAt .gatesOff = some L.el))) ∧
    (∀ (l : LaneId) (p : Port), Does (.gateRequestLost l p)
      (fun L => L.guardSt.powered = true ∧ L.bitOf Reg.GD_STAT_EN p.val = true)
      (fun L M => vget M.guardSt.lineLost p = true ∧ M.lineRuns p = false ∧ M.bitOf Reg.GD_STAT_EN p.val = false ∧ M.bitOf Reg.LG_PORT_GRANT p.val = false ∧
        ∀ f, L.funcOfPort p = some f → vget M.vote.withdraw f.ix = true)) ∧
    (∀ (l : LaneId) (p : Port), Does (.gateRequestLost l p)
      (fun L => L.guardSt.powered = true ∧ L.bitOf Reg.GD_STAT_EN p.val = false)
      (fun _ M => vget M.guardSt.lineLost p = true ∧ M.lineRuns p = false ∧ M.bitOf Reg.GD_STAT_EN p.val = false))

/-- The chopper follows its crossings while it is fitted and the lane is in READY or above; OV_TRIP turns the lane off with
source 225 where a chopper works and shorts the ports where none does, OV_ASC shorts them where a turn-off is in force; a wrong
chopper current is CHOPF with source 226 or CHOPSH with source 227 and WINTER; the low sides of a port in the short circuit turn
on 1 us after its turn-off. A solenoid short turns its driver off, the third within 1 s latching SHORT with source 236 + sv, a
retry turning it on again after 10 ms; an open load sets OPEN with source 232 + sv. -/
def Obligations.over_voltage_and_solenoids : Prop :=
    (∀ (l : LaneId), Does (.chopperOnCrossing l)
      (fun L => L.guardSt.powered = true)
      (fun L M => M.gate = { L.gate with chopHw := true } ∧ M.is Reg.GD_STAT_CHOP = (L.is Reg.GD_CHOP_EN && (!L.ovUnderTest || L.gate.chopReq) && decide (2 ≤ L.svc)) ∧ M = { L with gate := M.gate, regs := M.regs })) ∧
    (∀ (l : LaneId), Does (.chopperOffCrossing l)
      (fun L => L.guardSt.powered = true)
      (fun L M => M.gate = { L.gate with chopHw := false, ovCounted := none, ascCounted := false } ∧ M.is Reg.GD_STAT_CHOP = (L.is Reg.GD_CHOP_EN && L.gate.chopReq && decide (2 ≤ L.svc)) ∧ M = { L with gate := M.gate, regs := M.regs })) ∧
    (∀ (l : LaneId), Does (.ovTripCrossing l true)
      (fun L => L.guardSt.powered = true ∧ L.ovUnderTest = false ∧ L.chopF = false)
      (fun L M => M.is Reg.GD_TRIP_1_OV = true ∧ M.sticky 225 = true ∧ M.is Reg.GD_STAT_PROT = true ∧ M.gate.ovCounted = some (L.gate.ovCounted.getD L.el) ∧
        ∀ f, (L.portOf f).isSome = true → vget M.vote.withdraw f.ix = true)) ∧
    (∀ (l : LaneId), Does (.ovTripCrossing l true)
      (fun L => L.guardSt.powered = true ∧ L.ovUnderTest = false ∧ L.chopF = true ∧ L.is Reg.GD_STAT_PROT = false)
      (fun L M => ∀ p, vget L.gate.excluded p = false → M.bitOf Reg.GD_STAT_ASC p.val = true ∧ M.bitOf Reg.GD_STAT_EN p.val = (L.bitOf Reg.GD_STAT_EN p.val && L.bitOf Reg.GD_STAT_ASC p.val))) ∧
    (∀ (l : LaneId), Does (.ovAscCrossing l true)
      (fun L => L.guardSt.powered = true ∧ L.ovUnderTest = false ∧ L.chopF = true ∧ L.is Reg.GD_STAT_PROT = true)
      (fun L M => M.gate.ascCounted = true ∧ ∀ p, vget L.gate.excluded p = false → M.bitOf Reg.GD_STAT_ASC p.val = true)) ∧
    (∀ (l : LaneId), Does (.ovAscCrossing l true)
      (fun L => L.guardSt.powered = true ∧ L.ovUnderTest = false ∧ (L.chopF = false ∨ L.is Reg.GD_STAT_PROT = false))
      (fun L M => M = { L with gate := { L.gate with ascCounted := true } })) ∧
    (∀ (l : LaneId), Does (.ovTripCrossing l false)
      (fun L => L.guardSt.powered = true ∧ L.ovUnderTest = false)
      (fun L M => M = { L with gate := { L.gate with ovCounted := none } })) ∧
    (∀ (l : LaneId), Does (.ovAscCrossing l false)
      (fun L => L.guardSt.powered = true ∧ L.ovUnderTest = false)
      (fun L M => M = { L with gate := { L.gate with ascCounted := false } })) ∧
    (∀ (l : LaneId) (bci : Byte), Does (.chopperCheckTimeout l bci)
      (fun L => L.guardSt.powered = true ∧ L.ovUnderTest = false ∧ L.is Reg.GD_CHOP_EN = true ∧ L.is Reg.GD_STAT_CHOP = true ∧ bci.toNat < L.rd Reg.GD_CHOP_BCI_MIN)
      (fun L M => M.is Reg.GD_TRIP_1_CHOPF = true ∧ M.sticky 226 = true ∧ M.rd Reg.GD_CHOP_BCI = bci.toNat ∧
        (L.is Reg.GD_STAT_PROT = true ∧ L.gate.ascCounted = true → ∀ p, vget L.gate.excluded p = false → M.bitOf Reg.GD_STAT_ASC p.val = true))) ∧
    (∀ (l : LaneId) (bci : Byte), Does (.chopperCheckTimeout l bci)
      (fun L => L.guardSt.powered = true ∧ L.ovUnderTest = false ∧ L.is Reg.GD_CHOP_EN = true ∧ L.is Reg.GD_STAT_CHOP = false ∧ L.rd Reg.GD_CHOP_BCI_MIN ≤ bci.toNat)
      (fun L M => M.is Reg.GD_TRIP_1_CHOPSH = true ∧ M.sticky 227 = true ∧ M.gstate = 3 ∧ (L.upState = true → M.svc = 6))) ∧
    (∀ (l : LaneId) (dt : Nat) (p : Port), Does (.ascLowSideOn l dt p)
      (fun L => vget L.gate.ascWait p = true ∧ L.inStage1 p = false ∧ (L.pass dt).due (.ascWait p) 1000 = true)
      (fun L M => (∀ b, vget M.gate.stage b = if b.val / 6 = p.val ∧ b.val % 2 = 1 then .free else vget L.gate.stage b) ∧ vget M.gate.ascWait p = false ∧
        M.running (.ascWait p) = false ∧ M.regs = L.regs)) ∧
    (∀ (l : LaneId) (dt : Nat) (sv : Fin 4), Does (.svShortTrip l dt sv)
      (fun L => L.guardSt.powered = true ∧ (vget L.solenoid sv).off = false)
      (fun L M => (vget M.solenoid sv).off = true ∧ (vget M.solenoid sv).setpoint = 0 ∧ M.timerAt (.svOff sv) = some (L.pass dt).el ∧
        (2 ≤ ((vget L.solenoid sv).trips.filter (fun t => decide ((L.pass dt).el < t + 1000000000))).length →
          M.is (Reg.GD_SV_SHORT sv.val) = true ∧ M.sticky (236 + sv.val) = true))) ∧
    (∀ (l : LaneId) (dt : Nat) (sv : Fin 4), Does (.svShortRetry l dt sv)
      (fun L => (vget L.solenoid sv).off = true ∧ L.is (Reg.GD_SV_SHORT sv.val) = false ∧ (L.pass dt).due (.svOff sv) 10000000 = true)
      (fun L M => (vget M.solenoid sv).off = false ∧ M.running (.svOff sv) = false ∧ ∀ k, (vget M.solenoid k).setpoint =
          if (vget M.solenoid k).off = true ∨ L.guardSt.powered = false then 0
          else if L.gstate = 2 ∧ (vget L.solenoid k).forced = false then min (vget L.solenoid k).cmd (vget L.img.sv k).maxMa else L.svSafe k)) ∧
    (∀ (l : LaneId) (dt : Nat) (sv : Fin 4) (mean : BitVec 12), Does (.svOpenLoad l dt sv mean)
      (fun L => 100 ≤ (vget L.solenoid sv).setpoint ∧ 4 * mean.toNat < (vget L.solenoid sv).setpoint)
      (fun _ M => M.rd (Reg.GD_SV_MEAS sv.val) = mean.toNat ∧ M.is (Reg.GD_SV_OPEN sv.val) = true ∧ M.sticky (232 + sv.val) = true)) ∧
    (∀ (l : LaneId) (dt : Nat) (sv : Fin 4) (mean : BitVec 12), Does (.svOpenLoad l dt sv mean)
      (fun L => (vget L.solenoid sv).setpoint < 100 ∨ (vget L.solenoid sv).setpoint ≤ 4 * mean.toNat)
      (fun L M => M.rd (Reg.GD_SV_MEAS sv.val) = mean.toNat ∧ M = { L.pass dt with regs := M.regs } ∧ ∀ g : Fld, g.key ≠ (Reg.GD_SV_MEAS sv.val).key → M.rd g = L.rd g))

/-- GD_TEST_START skips the ports whose gate enable is on, and the over-voltage group unless KM is open, and sets BUSY; while it
runs a second start does nothing. GD_TEST_DONE shows the failures of the groups that were not skipped, clears BUSY and raises
source 231 if any failed. GD_ZDIAG_START runs with the feature on a port whose gate enable is off, shows NOLINK with the DC link
below 10 V; GD_ZDIAG_DONE shows the verdicts: short to the negative rail 1, to the positive rail 2, between phases 3. -/
def Obligations.gate_self_test : Prop :=
    (∀ (l : LaneId) (core : Core), Does (.gdTestStart l core)
      (fun L => L.coreLive core = true ∧ L.waitsCommit (some core) = false ∧ L.waitsAt (some core) = none ∧ L.asleep (0x201600C0) = none ∧ L.is Reg.GD_TEST_BUSY = false)
      (fun L M => M.is Reg.GD_TEST_BUSY = true ∧ M.rd Reg.GD_TEST_SKIP = L.rd Reg.GD_STAT_EN % 8 ∧ M.is Reg.GD_TEST_SKIPOV = !L.kmOpen ∧ M.gate.testRun = true)) ∧
    (∀ (l : LaneId) (core : Core), Does (.gdTestStart l core)
      (fun L => L.coreLive core = true ∧ L.waitsCommit (some core) = false ∧ L.waitsAt (some core) = none ∧ L.asleep (0x201600C0) = none ∧ L.is Reg.GD_TEST_BUSY = true)
      (fun L M => M = { L with core := M.core })) ∧
    (∀ (l : LaneId) (res0 res1 : Word), Does (.gdTestDone l res0 res1)
      (fun L => L.gate.testRun = true)
      (fun L M => M.is Reg.GD_TEST_BUSY = false ∧ M.gate.testRun = false ∧
        (∀ p : Port, nbits (M.rd Reg.GD_TEST_RES_0_DSAT) (6 * p.val) 6 = if nbit (L.rd Reg.GD_TEST_SKIP) p.val then 0 else nbits res0.toNat (6 * p.val) 6) ∧
        (M.rd Reg.GD_TEST_RES_1_OV = if L.is Reg.GD_TEST_SKIPOV then 0 else nbits res1.toNat 9 3) ∧
        (M.rd Reg.GD_TEST_RES_0_DSAT ≠ 0 ∨ M.rd Reg.GD_TEST_RES_0_FOC ≠ 0 ∨ M.rd Reg.GD_TEST_RES_0_VGDUV ≠ 0 ∨ M.rd Reg.GD_TEST_RES_1_BSTUV ≠ 0 ∨
          M.rd Reg.GD_TEST_RES_1_OV ≠ 0 ∨ M.rd Reg.GD_TEST_RES_1_BCI ≠ 0 → M.sticky 231 = true))) ∧
    (∀ (l : LaneId) (core : Core) (p : Port), Does (.gdZdiagStart l core true)
      (fun L => L.coreLive core = true ∧ L.waitsCommit (some core) = false ∧ L.waitsAt (some core) = none ∧ L.asleep (0x201600D0) = none ∧ L.feature 1 = true ∧ L.gate.zdiag = none ∧ L.rd Reg.GD_ZDIAG_PORT = p.val ∧ L.bitOf Reg.GD_STAT_EN p.val = false)
      (fun _ M => M.is Reg.GD_ZDIAG_BUSY = true ∧ M.gate.zdiag = some p.val)) ∧
    (∀ (l : LaneId) (core : Core) (p : Port), Does (.gdZdiagStart l core false)
      (fun L => L.coreLive core = true ∧ L.waitsCommit (some core) = false ∧ L.waitsAt (some core) = none ∧ L.asleep (0x201600D0) = none ∧ L.feature 1 = true ∧ L.gate.zdiag = none ∧ L.rd Reg.GD_ZDIAG_PORT = p.val)
      (fun L M => M.is Reg.GD_ZDIAG_NOLINK = true ∧ M = { L with core := M.core, regs := M.regs } ∧ ∀ g : Fld, g.key ≠ Reg.GD_ZDIAG_NOLINK.key → M.rd g = L.rd g)) ∧
    (∀ (l : LaneId) (u v w : ZReading), Does (.gdZdiagDone l u v w)
      (fun L => L.gate.zdiag.isSome = true)
      (fun _ M => M.is Reg.GD_ZDIAG_BUSY = false ∧ M.gate.zdiag = none ∧ (u.pullUp < 10 → M.rd Reg.GD_ZDIAG_RES_U = 1) ∧
        (10 ≤ v.pullUp ∧ 90 < v.pullDown → M.rd Reg.GD_ZDIAG_RES_V = 2) ∧
        ((∀ z ∈ [u, v, w], 10 ≤ z.pullUp ∧ z.pullDown ≤ 90) → (M.rd Reg.GD_ZDIAG_RES_W = if w.othersMean + 5 < w.pullUp then 3 else 0))))

/-- A challenge is issued with N one higher modulo 256 and C advanced once; the first after a power-on carries N 0 and a seed
that is not 0 (its value is free, log entry 6), with the window and the key of LG_WD. The right answer in the window counts in
CONSEC and clears MISS1; an early or wrong one is a miss and sets its flag; a write with the wrong N or after CLOSE sets LATE,
one after a verdict EXTRA. A window that closes without a verdict is a miss. A write by P_1 does nothing but raise source 20. -/
def Obligations.challenge_grid : Prop :=
    (∀ (l : LaneId) (c : BitVec 16), Does (.challengeIssue l)
      (fun L => L.guardSt.powered = true ∧ L.guardSt.running = true ∧ L.guardSt.rcLost = false ∧ L.gstate ≠ 3 ∧ L.is Reg.LG_CHAL_SUSP = false ∧ L.is Reg.LG_CHAL_PEND = false ∧ L.guardSt.lfsr = some c)
      (fun L M => M.guardSt.lfsr = some (if c.getLsbD 0 then (c >>> 1) ^^^ 0xB400#16 else c >>> 1) ∧ M.guardSt.num = (L.guardSt.num + 1) % 256 ∧
        M.guardSt.judge = (L.rd Reg.LG_WD_OPEN, L.rd Reg.LG_WD_CLOSE, L.rd Reg.LG_WD_KEY) ∧ M.is Reg.LG_CHAL_PEND = true ∧
        M.timerAt .challenge = some L.el ∧ M = { L with guardSt := M.guardSt, regs := M.regs, timers := M.timers })) ∧
    (∀ (l : LaneId), Does (.challengeIssue l)
      (fun L => L.guardSt.powered = true ∧ L.guardSt.running = true ∧ L.guardSt.rcLost = false ∧ L.gstate ≠ 3 ∧ L.is Reg.LG_CHAL_SUSP = false ∧ L.is Reg.LG_CHAL_PEND = false ∧ L.guardSt.lfsr = none)
      (fun _ M => (∃ c : BitVec 16, M.guardSt.lfsr = some c ∧ c ≠ 0) ∧ M.guardSt.num = 0 ∧ M.is Reg.LG_CHAL_PEND = true)) ∧
    (∀ (l : LaneId) (n : Byte) (a c : BitVec 16) (dt : Nat), Does (.lgAnswerWrite l 0 n a dt)
      (fun L => L.firmware = true ∧ L.pairLive 0 = true ∧ L.is Reg.LG_CHAL_SUSP = false ∧ L.guardSt.lfsr = some c ∧ n.toNat = L.guardSt.num ∧ ((L.pass dt).el - (L.timerAt .challenge).getD 0) ≤ L.guardSt.judge.2.1 * 10000 ∧ L.is Reg.LG_CHAL_PEND = true ∧
        L.guardSt.judge.1 * 10000 ≤ ((L.pass dt).el - (L.timerAt .challenge).getD 0) ∧ a = ((c ^^^ BitVec.ofNat 16 L.guardSt.judge.2.2).rotateLeft (n.toNat % 16)) + BitVec.ofNat 16 (0x5A5A * (n.toNat % 8 + 1)) ∧
        L.rd Reg.SYS_ARM_STEP = 0)
      (fun L M => M.is Reg.LG_CHAL_PEND = false ∧ M.is Reg.LG_WD_STAT_MISS1 = false ∧ M.guardSt.answered = true ∧
        M.rd Reg.LG_WD_STAT_CONSEC = min (2 ^ Fld.w Reg.LG_WD_STAT_CONSEC - 1) (L.rd Reg.LG_WD_STAT_CONSEC + 1) ∧
        M.rd Reg.LG_WD_STAT_MISSCNT = L.rd Reg.LG_WD_STAT_MISSCNT)) ∧
    (∀ (l : LaneId) (n : Byte) (a c : BitVec 16) (dt : Nat), Does (.lgAnswerWrite l 0 n a dt)
      (fun L => L.firmware = true ∧ L.pairLive 0 = true ∧ L.is Reg.LG_CHAL_SUSP = false ∧ L.guardSt.lfsr = some c ∧ n.toNat = L.guardSt.num ∧ ((L.pass dt).el - (L.timerAt .challenge).getD 0) ≤ L.guardSt.judge.2.1 * 10000 ∧ L.is Reg.LG_CHAL_PEND = true ∧ ((L.pass dt).el - (L.timerAt .challenge).getD 0) < L.guardSt.judge.1 * 10000)
      (fun L M => M.is Reg.LG_WD_STAT_EARLY = true ∧ M.is Reg.LG_CHAL_PEND = false ∧ M.rd Reg.LG_WD_STAT_CONSEC = 0 ∧ M.rd Reg.LG_WD_STAT_MISSCNT = min 65535 (L.rd Reg.LG_WD_STAT_MISSCNT + 1) ∧ M.sticky 256 = true)) ∧
    (∀ (l : LaneId) (n : Byte) (a c : BitVec 16) (dt : Nat), Does (.lgAnswerWrite l 0 n a dt)
      (fun L => L.firmware = true ∧ L.pairLive 0 = true ∧ L.is Reg.LG_CHAL_SUSP = false ∧ L.guardSt.lfsr = some c ∧ n.toNat = L.guardSt.num ∧ ((L.pass dt).el - (L.timerAt .challenge).getD 0) ≤ L.guardSt.judge.2.1 * 10000 ∧ L.is Reg.LG_CHAL_PEND = true ∧
        L.guardSt.judge.1 * 10000 ≤ ((L.pass dt).el - (L.timerAt .challenge).getD 0) ∧ a ≠ answerOf (BitVec.ofNat 16 L.guardSt.judge.2.2) c n.toNat)
      (fun L M => M.is Reg.LG_WD_STAT_WRONG = true ∧ M.is Reg.LG_CHAL_PEND = false ∧ M.rd Reg.LG_WD_STAT_CONSEC = 0 ∧ M.rd Reg.LG_WD_STAT_MISSCNT = min 65535 (L.rd Reg.LG_WD_STAT_MISSCNT + 1) ∧ M.sticky 256 = true)) ∧
    (∀ (l : LaneId) (n : Byte) (a : BitVec 16) (dt : Nat), Does (.lgAnswerWrite l 0 n a dt)
      (fun L => L.firmware = true ∧ L.pairLive 0 = true ∧ L.is Reg.LG_CHAL_SUSP = false ∧ (n.toNat ≠ L.guardSt.num ∨ L.guardSt.judge.2.1 * 10000 < ((L.pass dt).el - (L.timerAt .challenge).getD 0)))
      (fun L M => M.is Reg.LG_WD_STAT_LATE = true ∧ M = { L.pass dt with regs := M.regs } ∧ ∀ g : Fld, g.key ≠ Reg.LG_WD_STAT_LATE.key → M.rd g = L.rd g)) ∧
    (∀ (l : LaneId) (n : Byte) (a c : BitVec 16) (dt : Nat), Does (.lgAnswerWrite l 0 n a dt)
      (fun L => L.firmware = true ∧ L.pairLive 0 = true ∧ L.is Reg.LG_CHAL_SUSP = false ∧ L.guardSt.lfsr = some c ∧ n.toNat = L.guardSt.num ∧
        ((L.pass dt).el - (L.timerAt .challenge).getD 0) ≤ L.guardSt.judge.2.1 * 10000 ∧ L.is Reg.LG_CHAL_PEND = false)
      (fun L M => M.is Reg.LG_WD_STAT_EXTRA = true ∧ M = { L.pass dt with regs := M.regs } ∧ ∀ g : Fld, g.key ≠ Reg.LG_WD_STAT_EXTRA.key → M.rd g = L.rd g)) ∧
    (∀ (l : LaneId) (n : Byte) (a : BitVec 16) (dt : Nat), Does (.lgAnswerWrite l 1 n a dt)
      (fun L => L.firmware = true ∧ L.pairLive 1 = true)
      (fun L M => (L.pass dt).Reacts M ∧ M.sticky 20 = true)) ∧
    (∀ (l : LaneId), Does (.challengeWindowClose l)
      (fun L => L.guardSt.powered = true ∧ L.guardSt.running = true ∧ L.guardSt.rcLost = false ∧ L.gstate ≠ 3 ∧ L.is Reg.LG_CHAL_PEND = true)
      (fun L M => M.is Reg.LG_CHAL_PEND = false ∧ M.rd Reg.LG_WD_STAT_CONSEC = 0 ∧ M.rd Reg.LG_WD_STAT_MISSCNT = min 65535 (L.rd Reg.LG_WD_STAT_MISSCNT + 1) ∧ M.sticky 256 = true)) ∧
    (∀ (l : LaneId) (dt : Nat), Does (.selfTestAllowanceTimeout l dt)
      (fun L => L.guardSt.powered = true ∧ L.guardSt.running = true ∧ L.guardSt.rcLost = false ∧ L.gstate ≠ 3 ∧ L.is Reg.LG_CHAL_SUSP = true ∧ (L.pass dt).due (.selfTest 0) 3500000 = true)
      (fun L M => M.is Reg.LG_CHAL_SUSP = false ∧ M.rd Reg.LG_WD_STAT_CONSEC = 0 ∧ M.rd Reg.LG_WD_STAT_MISSCNT = min 65535 (L.rd Reg.LG_WD_STAT_MISSCNT + 1) ∧ M.sticky 256 = true))

/-- CHALLENGE_WINDOW_CLOSE with a challenge pending is a miss: it clears CONSEC, raises MISSCNT, sets the missed-challenge
source. After a first correct answer a miss while MISS1 is 0 sets MISS1 and forces nothing of itself, a miss while MISS1 is 1
forces the guard with FCAUSE 4, every function withdrawn and the lane, where it was up, in WINTER; before it a miss leaves
MISS1; 100 ms after READY without a correct answer the guard is forced with FCAUSE 4. -/
def Obligations.missed_challenges : Prop :=
    (∀ (l : LaneId), Does (.challengeWindowClose l)
      (fun L => L.guardSt.powered = true ∧ L.guardSt.running = true ∧ L.guardSt.rcLost = false ∧ L.gstate ≠ 3 ∧ L.is Reg.LG_CHAL_PEND = true ∧ L.guardSt.answered = true ∧ L.is Reg.LG_WD_STAT_MISS1 = false)
      (fun L M => M.is Reg.LG_WD_STAT_MISS1 = true ∧ M.rd Reg.LG_WD_STAT_CONSEC = 0 ∧ M.rd Reg.LG_WD_STAT_MISSCNT = min 65535 (L.rd Reg.LG_WD_STAT_MISSCNT + 1) ∧ M.sticky 256 = true)) ∧
    (∀ (l : LaneId), Does (.challengeWindowClose l)
      (fun L => L.guardSt.powered = true ∧ L.guardSt.running = true ∧ L.guardSt.rcLost = false ∧ L.gstate ≠ 3 ∧ L.is Reg.LG_CHAL_PEND = true ∧ L.guardSt.answered = true ∧ L.is Reg.LG_WD_STAT_MISS1 = true ∧ nbit (L.reaction 256) 9 = false)
      (fun L M => M.gstate = 3 ∧ M.rd Reg.LG_STATUS_FCAUSE = 4 ∧ (∀ f, vget M.vote.withdraw f = true) ∧ (L.upState = true → M.svc = 6) ∧ M.rd Reg.LG_WD_STAT_CONSEC = 0 ∧ M.rd Reg.LG_WD_STAT_MISSCNT = min 65535 (L.rd Reg.LG_WD_STAT_MISSCNT + 1) ∧ M.sticky 256 = true)) ∧
    (∀ (l : LaneId), Does (.challengeWindowClose l)
      (fun L => L.guardSt.powered = true ∧ L.guardSt.running = true ∧ L.guardSt.rcLost = false ∧ L.gstate ≠ 3 ∧ L.is Reg.LG_CHAL_PEND = true ∧ L.guardSt.answered = false)
      (fun L M => M.rd Reg.LG_WD_STAT_MISS1 = L.rd Reg.LG_WD_STAT_MISS1 ∧ M.rd Reg.LG_WD_STAT_CONSEC = 0 ∧ M.rd Reg.LG_WD_STAT_MISSCNT = min 65535 (L.rd Reg.LG_WD_STAT_MISSCNT + 1) ∧ M.sticky 256 = true)) ∧
    (∀ (l : LaneId) (dt : Nat), Does (.firstAnswerTimeout l dt)
      (fun L => L.guardSt.powered = true ∧ L.guardSt.running = true ∧ L.guardSt.rcLost = false ∧ L.gstate ≠ 3 ∧ L.guardSt.answered = false ∧ (L.pass dt).due .ready 100000000 = true)
      (fun L M => M.gstate = 3 ∧ M.rd Reg.LG_STATUS_FCAUSE = 4 ∧ (∀ f, vget M.vote.withdraw f = true) ∧ (L.upState = true → M.svc = 6)))

/-- GUARD_SUPPLY_RISE powers the guard in HOLD with REARMS 0 and no challenge value; GUARD_SUPPLY_FALL turns every gate,
contactor and solenoid driver off. GUARD_KP_OPEN_DELAY opens KP in FORCED, and KP and KM in RUN with KFAULT. A mirror change
shows its four inputs. A contactor mismatch sets KMBAD or KPBAD and its source: in ARM it forces the guard with FCAUSE 7 and
CAUSE 11, in RUN it sets KFAULT and withholds every grant. The PARK backstop forces its drivers off with source 260. -/
def Obligations.guard_supply_and_contactors : Prop :=
    (∀ (l : LaneId), Does (.guardSupplyRise l)
      (fun L => L.guardSt.powered = false)
      (fun L M => M.guardSt.powered = true ∧ M.gstate = 0 ∧ M.rd Reg.LG_STATUS_REARMS = 0 ∧ M.guardSt.lfsr = none ∧ M.guardSt.running = L.firmware ∧ M.is Reg.LG_STATUS_CLKGOOD = false ∧
        M.rd Reg.GD_STAT_VGDOK = 0 ∧ M.rd Reg.GD_STAT_BSTOK = 0 ∧ M.is Reg.LG_CHAL_PEND = false ∧ ∀ n, (vget M.solenoid n).forced = false)) ∧
    (∀ (l : LaneId), Does (.guardSupplyFall l)
      (fun L => L.guardSt.powered = true)
      (fun _ M => M.guardSt = Init.guardSt ∧ M.rd Reg.GD_STAT_ASC = 0 ∧ M.is Reg.LG_CONT_KMCMD = false ∧ M.is Reg.LG_CONT_KPCMD = false ∧
        (∀ n, (vget M.solenoid n).setpoint = 0) ∧ (∀ b, vget M.gate.stage b = .stage2) ∧ (∀ b, (vget M.gate.drive b).on = false) ∧ M.is Reg.GD_STAT_CHOP = false ∧ ∀ p : Port, M.bitOf Reg.GD_STAT_EN p.val = false)) ∧
    (∀ (l : LaneId) (dt : Nat), Does (.guardKpOpenDelay l dt)
      (fun L => L.guardSt.powered = true ∧ (L.pass dt).gateFollowAll.gatesOff2ms = true ∧ L.gstate = 3)
      (fun L M => M.is Reg.LG_CONT_KPCMD = false ∧ M.rd Reg.LG_CONT_KMCMD = L.rd Reg.LG_CONT_KMCMD ∧
        M = { L.pass dt with regs := M.regs, timers := M.timers, gate := { L.gate with drive := M.gate.drive } })) ∧
    (∀ (l : LaneId) (dt : Nat), Does (.guardKpOpenDelay l dt)
      (fun L => L.guardSt.powered = true ∧ (L.pass dt).gateFollowAll.gatesOff2ms = true ∧ L.gstate = 2 ∧ L.is Reg.LG_STATUS_KFAULT = true)
      (fun _ M => M.is Reg.LG_CONT_KPCMD = false ∧ M.is Reg.LG_CONT_KMCMD = false)) ∧
    (∀ (l : LaneId) (dt : Nat) (kmNo kmNc kpNo kpNc : Bool), Does (.contactorMirrorChange l dt kmNo kmNc kpNo kpNc)
      (fun L => L.guardSt.powered = true ∧ L.rd Reg.SYS_ARM_STEP = 0)
      (fun _ M => M.is Reg.LG_CONT_KM_NO = kmNo ∧ M.is Reg.LG_CONT_KM_NC = kmNc ∧ M.is Reg.LG_CONT_KP_NO = kpNo ∧ M.is Reg.LG_CONT_KP_NC = kpNc ∧
        M.running .kmDisagree = !M.kmAgrees ∧ M.running .kpDisagree = !M.kpAgrees)) ∧
    (∀ (l : LaneId) (dt : Nat) (kp : Bool), Does (.contactorMismatchTimeout l dt kp)
      (fun L => L.guardSt.powered = true ∧ (L.pass dt).due (if kp then .kpDisagree else .kmDisagree) (L.kmisMs * 1000000) = true ∧ L.gstate = 0)
      (fun _ M => M.is (if kp then Reg.LG_CONT_KPBAD else Reg.LG_CONT_KMBAD) = true ∧ M.sticky (if kp then 258 else 257) = true)) ∧
    (∀ (l : LaneId) (dt : Nat) (kp : Bool), Does (.contactorMismatchTimeout l dt kp)
      (fun L => L.guardSt.powered = true ∧ (L.pass dt).due (if kp then .kpDisagree else .kmDisagree) (L.kmisMs * 1000000) = true ∧ L.gstate = 1)
      (fun _ M => M.is (if kp then Reg.LG_CONT_KPBAD else Reg.LG_CONT_KMBAD) = true ∧ M.sticky (if kp then 258 else 257) = true ∧ M.gstate = 3 ∧ M.rd Reg.LG_STATUS_FCAUSE = 7 ∧
        M.rd Reg.SYS_STATE_CAUSE = 11)) ∧
    (∀ (l : LaneId) (dt : Nat) (kp : Bool), Does (.contactorMismatchTimeout l dt kp)
      (fun L => L.guardSt.powered = true ∧ (L.pass dt).due (if kp then .kpDisagree else .kmDisagree) (L.kmisMs * 1000000) = true ∧ L.gstate = 2 ∧
        L.is Reg.LG_STATUS_KFAULT = false ∧ L.is Reg.LG_STATUS_SLOSS = false)
      (fun _ M => M.is (if kp then Reg.LG_CONT_KPBAD else Reg.LG_CONT_KMBAD) = true ∧ M.sticky (if kp then 258 else 257) = true ∧ M.is Reg.LG_STATUS_KFAULT = true)) ∧
    (∀ (l : LaneId) (dt : Nat), Does (.parkTimerExpiry l dt)
      (fun L => L.is Reg.LG_PARK_RUN = true ∧ (L.pass dt).due .park (L.rd Reg.LG_PARK_TMAX * 1000000000) = true ∧ L.parkOff = false)
      (fun L M => M.is Reg.LG_PARK_RUN = false ∧ M.is Reg.LG_PARK_FIRED = true ∧ M.sticky 260 = true ∧ ∀ n ∈ L.svsOf .park, (vget M.solenoid n).forced = true))

/-- A missing edge of CKW or of the RC reference clears its flag and CLKGOOD and forces the guard with FCAUSE 1 or 3, loss of RC
also ending the vote frames; two bad windows in succession force it with FCAUSE 2, a bad window raises source 261; returning
edges and 10 ms of both clocks set CLKGOOD. LG_REARM with C3A5 in FORCED with CLKGOOD and REARMS below 3 gives HOLD, counts,
opens KM and holds the lane die in reset; any other write sets REFUSED. LG_WD takes a window and key in range, and ignores OPEN
at least CLOSE, KEY 0 and a locked write. KMOFF opens KM in FORCED. P_1 may write none of these. -/
def Obligations.guard_clocks_and_rearm : Prop :=
    (∀ (l : LaneId), Does (.ckwMissingEdge l)
      (fun L => L.guardSt.powered = true ∧ L.gstate ≠ 3)
      (fun _ M => M.is Reg.LG_STATUS_LDCLK = false ∧ M.is Reg.LG_STATUS_CLKGOOD = false ∧ M.gstate = 3 ∧ M.rd Reg.LG_STATUS_FCAUSE = 1 ∧ M.running .clkGood = false)) ∧
    (∀ (l : LaneId), Does (.rcMissingEdge l)
      (fun L => L.guardSt.powered = true ∧ L.gstate ≠ 3)
      (fun _ M => M.is Reg.LG_STATUS_RCCLK = false ∧ M.is Reg.LG_STATUS_CLKGOOD = false ∧ M.gstate = 3 ∧ M.rd Reg.LG_STATUS_FCAUSE = 3 ∧ M.guardSt.rcLost = true)) ∧
    (∀ (l : LaneId) (count : BitVec 11), Does (.ckwWindowClose l count)
      (fun L => L.guardSt.powered = true ∧ L.guardSt.rcLost = false ∧ L.gstate ≠ 3 ∧ L.guardSt.badWindows = 1 ∧ nbit (L.reaction 261) 9 = false ∧
        (count.toNat + 10 * L.rd Reg.LG_CKW_CKTOL < 1000 ∨ 1000 + 10 * L.rd Reg.LG_CKW_CKTOL < count.toNat))
      (fun _ M => M.rd Reg.LG_CKW_COUNT = count.toNat ∧ M.sticky 261 = true ∧ M.is Reg.LG_STATUS_LDCLK = false ∧ M.gstate = 3 ∧ M.rd Reg.LG_STATUS_FCAUSE = 2)) ∧
    (∀ (l : LaneId) (count : BitVec 11), Does (.ckwWindowClose l count)
      (fun L => L.guardSt.powered = true ∧ L.guardSt.rcLost = false ∧ 1000 ≤ count.toNat + 10 * L.rd Reg.LG_CKW_CKTOL ∧ count.toNat ≤ 1000 + 10 * L.rd Reg.LG_CKW_CKTOL)
      (fun L M => M.rd Reg.LG_CKW_COUNT = count.toNat ∧ M.is Reg.LG_STATUS_LDCLK = true ∧ M.guardSt.badWindows = 0 ∧ M.gstate = L.gstate)) ∧
    (∀ (l : LaneId) (dt : Nat), Does (.clkgoodTimer l dt)
      (fun L => L.guardSt.powered = true ∧ L.is Reg.LG_STATUS_LDCLK = true ∧ L.is Reg.LG_STATUS_RCCLK = true ∧ (L.pass dt).due .clkGood 10000000 = true)
      (fun L M => M.is Reg.LG_STATUS_CLKGOOD = true ∧ M = { L.pass dt with regs := M.regs } ∧ ∀ g : Fld, g.key ≠ Reg.LG_STATUS_CLKGOOD.key → M.rd g = L.rd g)) ∧
    (∀ (l : LaneId) (rc : Bool), Does (.clockEdgesResume l rc)
      (fun L => L.guardSt.powered = true)
      (fun _ M => M.is (if rc then Reg.LG_STATUS_RCCLK else Reg.LG_STATUS_LDCLK) = true ∧ (rc = true → M.guardSt.rcLost = false) ∧
        (M.is Reg.LG_STATUS_LDCLK = true → M.is Reg.LG_STATUS_RCCLK = true → M.running .clkGood = true))) ∧
    (∀ (l : LaneId) (v : Word), Does (.lgRearmWrite l 0 v)
      (fun L => L.firmware = true ∧ L.pairLive 0 = true ∧ v = 0xC3A5 ∧ L.gstate = 3 ∧ L.is Reg.LG_STATUS_CLKGOOD = true ∧ L.rd Reg.LG_STATUS_REARMS < 3)
      (fun L M => M.gstate = 0 ∧ M.rd Reg.LG_STATUS_REARMS = L.rd Reg.LG_STATUS_REARMS + 1 ∧ M.is Reg.LG_CONT_KMCMD = false ∧ (L.rd Reg.GD_STAT_ASC = 0 → M.is Reg.LG_CONT_KPCMD = false) ∧ M.start.phase = .dieReset ∧
        M.guardSt.running = false ∧ M.timerAt .dieReset = some L.el)) ∧
    (∀ (l : LaneId) (v : Word), Does (.lgRearmWrite l 0 v)
      (fun L => L.firmware = true ∧ L.pairLive 0 = true ∧ (v ≠ 0xC3A5 ∨ L.gstate ≠ 3 ∨ L.is Reg.LG_STATUS_CLKGOOD = false ∨ 3 ≤ L.rd Reg.LG_STATUS_REARMS))
      (fun L M => M.is Reg.LG_STATUS_REFUSED = true ∧ M = { L with regs := M.regs } ∧ ∀ g : Fld, g.key ≠ Reg.LG_STATUS_REFUSED.key → M.rd g = L.rd g)) ∧
    (∀ (l : LaneId) (v : Word), Does (.lgRearmWrite l 1 v)
      (fun L => L.firmware = true ∧ L.pairLive 1 = true)
      (fun L M => L.Reacts M ∧ M.sticky 20 = true)) ∧
    (∀ (l : LaneId) (v : Word), Does (.lgWdWrite l 0 v)
      (fun L => L.firmware = true ∧ L.pairLive 0 = true ∧ L.is Reg.LG_CTRL_LOCK = false ∧ nbits v.toNat 0 7 ≤ 90 ∧ 10 ≤ nbits v.toNat 8 7 ∧ nbits v.toNat 8 7 ≤ 95 ∧
        nbits v.toNat 0 7 < nbits v.toNat 8 7 ∧ nbits v.toNat 16 16 ≠ 0)
      (fun L M => M.rd Reg.LG_WD_OPEN = nbits v.toNat 0 7 ∧ M.rd Reg.LG_WD_CLOSE = nbits v.toNat 8 7 ∧ M.rd Reg.LG_WD_KEY = nbits v.toNat 16 16 ∧ M = { L with regs := M.regs })) ∧
    (∀ (l : LaneId) (v : Word), Does (.lgWdWrite l 0 v)
      (fun L => L.firmware = true ∧ L.pairLive 0 = true ∧ (L.is Reg.LG_CTRL_LOCK = true ∨ nbits v.toNat 16 16 = 0 ∨
        (nbits v.toNat 0 7 ≤ 90 ∧ 10 ≤ nbits v.toNat 8 7 ∧ nbits v.toNat 8 7 ≤ 95 ∧ nbits v.toNat 8 7 ≤ nbits v.toNat 0 7)))
      (fun L M => M = L)) ∧
    (∀ (l : LaneId) (v : Word), Does (.lgWdWrite l 1 v)
      (fun L => L.firmware = true ∧ L.pairLive 1 = true)
      (fun L M => L.Reacts M ∧ M.sticky 20 = true)) ∧
    (∀ (l : LaneId), Does (.lgKmoff l 0)
      (fun L => L.firmware = true ∧ L.pairLive 0 = true ∧ L.gstate = 3)
      (fun L M => M.is Reg.LG_CONT_KMCMD = false ∧ M.rd Reg.LG_CONT_KPCMD = L.rd Reg.LG_CONT_KPCMD ∧ M.rd Reg.LG_KOPS_KM = L.rd Reg.LG_KOPS_KM ∧
        M = { L with regs := M.regs, timers := M.timers })) ∧
    (∀ (l : LaneId), Does (.lgKmoff l 0)
      (fun L => L.firmware = true ∧ L.pairLive 0 = true ∧ L.gstate ≠ 3)
      (fun L M => M = L)) ∧
    (∀ (l : LaneId), Does (.lgKmoff l 1)
      (fun L => L.firmware = true ∧ L.pairLive 1 = true)
      (fun L M => L.Reacts M ∧ M.sticky 20 = true))

/-- A source with a fixed class that fires sets its sticky bit; a bit that was set takes no reaction: nothing changes; a
reserved position does nothing, nor source 226 without a chopper. An uncorrectable SRAM word poisons the paired cores that
received it; a corrected error of an engine memory sets its ECC, an uncorrectable one halts it with HALT 5. Writing 1 clears a
bit whose source is not fatal and does not fire now, writing 0 leaves it. A parity error forces the guard with FCAUSE 5 at a
scan and at an access of its register. FC_INJ fires its source in MANUFACTURE from READY on and is refused otherwise; its parity
error likewise. 100 us of silence on a lane link raises source 330 or 331 and keeps firing. -/
def Obligations.fault_collector : Prop :=
    (∀ (l : LaneId) (src : BitVec 10) (cores : BitVec 4), Does (.faultSourceFire l src cores)
      (fun L => L.powered = true ∧ fixedClass src.toNat ≠ 0 ∧ L.sticky src.toNat = false ∧
        src ≠ 10 ∧ src ≠ 226 ∧ (src.toNat < 64 ∨ 72 ≤ src.toNat))
      (fun L M => M.sticky src.toNat = true ∧ L.Reacts M)) ∧
    (∀ (l : LaneId) (src : BitVec 10) (cores : BitVec 4), Does (.faultSourceFire l src cores)
      (fun L => L.powered = true ∧ (fixedClass src.toNat = 0 ∨ L.sticky src.toNat = true ∨
          src = 226 ∧ L.is Reg.GD_CHOP_EN = false) ∧ src ≠ 10 ∧ (src.toNat < 64 ∨ 72 ≤ src.toNat))
      (fun L M => M = L)) ∧
    (∀ (l : LaneId) (cores : BitVec 4), Does (.faultSourceFire l 10 cores)
      (fun L => L.powered = true)
      (fun L M => M.sticky 10 = true ∧ ∀ c : Core, cores.getLsbD c.val = true → L.paired (pairOf c) = true → (vget M.core c).poison = true)) ∧
    (∀ (l : LaneId) (n : Engine) (cores : BitVec 4), Does (.faultSourceFire l (BitVec.ofNat 10 (64 + n.val)) cores)
      (fun L => L.powered = true)
      (fun L M => M.sticky (64 + n.val) = true ∧ M.is (Reg.DE_STATUS_ECC n.val) = true ∧ M.rd (Reg.DE_CTRL_RUN n.val) = L.rd (Reg.DE_CTRL_RUN n.val))) ∧
    (∀ (l : LaneId) (n : Engine) (cores : BitVec 4), Does (.faultSourceFire l (BitVec.ofNat 10 (68 + n.val)) cores)
      (fun L => L.powered = true ∧ L.is (Reg.DE_CTRL_RUN n.val) = true)
      (fun _ M => M.is (Reg.DE_CTRL_RUN n.val) = false ∧ M.rd (Reg.DE_STATUS_HALT n.val) = 5 ∧ M.sticky (68 + n.val) = true)) ∧
    (∀ (l : LaneId) (n : Fin 32) (k : Fin 32), Does (.fcStickyWrite l n (BitVec.ofNat 32 (2 ^ k.val)))
      (fun L => L.powered = true ∧ L.sticky (32 * n.val + k.val) = true ∧
        (L.fatalSource (32 * n.val + k.val) = false ∨ L.lifecycle < 2) ∧ L.fault.parityBad.contains (0x20030000 + 4 * n.val) = false ∧ L.sourceLevel (32 * n.val + k.val) = false)
      (fun L M => M.sticky (32 * n.val + k.val) = false ∧ (∀ j : Fin 1024, j.val ≠ 32 * n.val + k.val → M.sticky j.val = L.sticky j.val) ∧ M = { L with regs := M.regs })) ∧
    (∀ (l : LaneId) (n : Fin 32), Does (.fcStickyWrite l n 0)
      (fun L => L.powered = true ∧ L.fault.parityBad.contains (0x20030000 + 4 * n.val) = false)
      (fun L M => M = L)) ∧
    (∀ (l : LaneId) (n : Fin 32) (v : Word), Does (.fcStickyWrite l n v)
      (fun L => L.powered = true ∧ L.fault.parityBad.contains (0x20030000 + 4 * n.val) = true ∧ L.guardSt.powered = true ∧ L.gstate ≠ 3)
      (fun _ M => M.gstate = 3 ∧ M.rd Reg.LG_STATUS_FCAUSE = 5)) ∧
    (∀ (l : LaneId), Does (.fcParityScan l)
      (fun L => L.powered = true ∧ L.fault.parityBad ≠ [] ∧ L.guardSt.powered = true ∧ L.gstate ≠ 3)
      (fun _ M => M.gstate = 3 ∧ M.rd Reg.LG_STATUS_FCAUSE = 5)) ∧
    (∀ (l : LaneId), Does (.fcParityScan l)
      (fun L => L.powered = true ∧ L.fault.parityBad = [])
      (fun L M => M = L)) ∧
    (∀ (l : LaneId) (src : BitVec 10), Does (.fcInjGo l src)
      (fun L => L.powered = true ∧ L.lifecycle = 0 ∧ 2 ≤ L.svc ∧ fixedClass src.toNat ≠ 0)
      (fun _ M => M.is Reg.FC_STATUS_INJ = true ∧ M.sticky src.toNat = true ∧ M.rd Reg.FC_INJ_SRC = src.toNat)) ∧
    (∀ (l : LaneId) (src : BitVec 10), Does (.fcInjGo l src)
      (fun L => L.powered = true ∧ (L.lifecycle ≠ 0 ∨ L.svc < 2 ∨ fixedClass src.toNat = 0))
      (fun L M => M.rd Reg.FC_INJ_SRC = src.toNat ∧ M.is Reg.FC_INJ_REFUSED = true ∧ M = { L with regs := M.regs } ∧
        ∀ g : Fld, g.key ≠ Reg.FC_INJ_SRC.key → g.key ≠ Reg.FC_INJ_REFUSED.key → M.rd g = L.rd g)) ∧
    (∀ (l : LaneId), Does (.fcInjParity l)
      (fun L => L.powered = true ∧ L.lifecycle = 0)
      (fun L M => M.fault.parityBad.contains 0x20030000 = (!L.fault.parityBad.contains 0x20030000) ∧
        (∀ a, a ≠ 0x20030000 → M.fault.parityBad.contains a = L.fault.parityBad.contains a) ∧ M = { L with fault := { L.fault with parityBad := M.fault.parityBad } })) ∧
    (∀ (l : LaneId), Does (.fcInjParity l)
      (fun L => L.powered = true ∧ L.lifecycle ≠ 0)
      (fun L M => M.is Reg.FC_INJ_REFUSED = true ∧ M = { L with regs := M.regs } ∧ ∀ g : Fld, g.key ≠ Reg.FC_INJ_REFUSED.key → M.rd g = L.rd g)) ∧
    (∀ (l : LaneId) (dt : Nat) (sd : Side), Does (.laneLinkSilence l dt sd)
      (fun L => (L.pass dt).due (.link sd) 100000 = true)
      (fun _ M => M.sticky (330 + sd.ix.val) = true ∧ M.fault.level.contains (330 + sd.ix.val) = true))

/-- In RUN or MASTER, an exclusive or vote window whose data is ready copies its payload at START and sends it on an idle bus;
on a busy one the copy waits, and one that cannot end in time counts TXLATE with MISSED; one that is not ready counts TXSKIP
with MISSED. An arbitrating window offers what is ready at its START and sends the frame of the lowest identifier. A completed
frame counts TXOK and SEQ and clears READY. A received frame that fits its window, identifier, DLC and cycle fills its buffer,
counts RXOK and sets NEW, another counts WRONG. A window that ends with one unfilled RX entry counts EMPTY and sets its MISSED;
one that ends with a copied frame that never began counts TXLATE. SLAZ_BUFFER_READY sets READY of a TX buffer. -/
def Obligations.slaz_windows : Prop :=
    (∀ (l : LaneId) (dt : Nat) (c : Fin 2) (w : Fin 64) (e : SlazEntry × Nat), Does (.slazWindowStart l dt c w true)
      (fun L => L.szRuns c = true ∧ (L.szNow c).find? (fun e => e.1.tx && decide (e.1.window = w.val) && decide (e.1.kind ≠ .reference)) = some e ∧ e.1.kind ≠ .arbitrating ∧ (L.pass dt).szBegun c w.val = true ∧
        (vget L.slaz c).opened.contains w.val = false ∧ (vget L.slaz c).copied = none ∧ L.szReady c e.1 = true ∧ (L.pass dt).szFits c e.1 = true ∧ (vget L.slaz c).sending = none)
      (fun L M => vget M.slaz c = { vget L.slaz c with opened := w.val :: (vget L.slaz c).opened, sending := some (e.2, L.szPayload c e.1) } ∧ (∀ d, d ≠ c → vget M.slaz d = vget L.slaz d) ∧ M = { L.pass dt with slaz := M.slaz })) ∧
    (∀ (l : LaneId) (dt : Nat) (c : Fin 2) (w : Fin 64) (e : SlazEntry × Nat), Does (.slazWindowStart l dt c w false)
      (fun L => L.szRuns c = true ∧ (L.szNow c).find? (fun e => e.1.tx && decide (e.1.window = w.val) && decide (e.1.kind ≠ .reference)) = some e ∧ e.1.kind ≠ .arbitrating ∧ (L.pass dt).szBegun c w.val = true ∧
        (vget L.slaz c).opened.contains w.val = false ∧ (vget L.slaz c).copied = none ∧ L.szReady c e.1 = true ∧ (L.pass dt).szFits c e.1 = true)
      (fun L M => vget M.slaz c = { vget L.slaz c with opened := w.val :: (vget L.slaz c).opened, copied := some (e.2, L.szPayload c e.1) } ∧ (∀ d, d ≠ c → vget M.slaz d = vget L.slaz d) ∧ M = { L.pass dt with slaz := M.slaz })) ∧
    (∀ (l : LaneId) (dt : Nat) (c : Fin 2) (w : Fin 64) (e : SlazEntry × Nat) (b : Bool), Does (.slazWindowStart l dt c w b)
      (fun L => L.szRuns c = true ∧ (L.szNow c).find? (fun e => e.1.tx && decide (e.1.window = w.val) && decide (e.1.kind ≠ .reference)) = some e ∧ e.1.kind ≠ .arbitrating ∧ (L.pass dt).szBegun c w.val = true ∧
        (vget L.slaz c).opened.contains w.val = false ∧ (vget L.slaz c).copied = none ∧ L.szReady c e.1 = true ∧ (L.pass dt).szFits c e.1 = false)
      (fun L M => M.rd (Reg.SZ_TXLATE c.val) = (L.rd (Reg.SZ_TXLATE c.val) + 1) % 2 ^ 32 ∧ (e.1.buf < 64 → M.is (Reg.SZ_BST_MISSED c.val e.1.buf) = true) ∧ vget M.slaz c = { vget L.slaz c with opened := w.val :: (vget L.slaz c).opened } ∧ (∀ d, d ≠ c → vget M.slaz d = vget L.slaz d) ∧ M = { L.pass dt with slaz := M.slaz, regs := M.regs })) ∧
    (∀ (l : LaneId) (dt : Nat) (c : Fin 2) (w : Fin 64) (e : SlazEntry × Nat) (b : Bool), Does (.slazWindowStart l dt c w b)
      (fun L => L.szRuns c = true ∧ (L.szNow c).find? (fun e => e.1.tx && decide (e.1.window = w.val) && decide (e.1.kind ≠ .reference)) = some e ∧ e.1.kind ≠ .arbitrating ∧ (L.pass dt).szBegun c w.val = true ∧
        (vget L.slaz c).opened.contains w.val = false ∧ (vget L.slaz c).copied = none ∧ L.szReady c e.1 = false)
      (fun L M => M.rd (Reg.SZ_TXSKIP c.val) = (L.rd (Reg.SZ_TXSKIP c.val) + 1) % 2 ^ 32 ∧ (e.1.buf < 64 → M.is (Reg.SZ_BST_MISSED c.val e.1.buf) = true) ∧ vget M.slaz c = { vget L.slaz c with opened := w.val :: (vget L.slaz c).opened } ∧ (∀ d, d ≠ c → vget M.slaz d = vget L.slaz d) ∧ M = { L.pass dt with slaz := M.slaz, regs := M.regs })) ∧
    (∀ (l : LaneId) (dt : Nat) (c : Fin 2) (w : Fin 64) (e : SlazEntry × Nat), Does (.slazArbitratingOffer l dt c w true)
      (fun L => L.szRuns c = true ∧ (L.pass dt).szBegun c w.val = true ∧ (vget L.slaz c).opened.contains w.val = true ∧ (vget L.slaz c).ended.contains w.val = false ∧
        (vget L.slaz c).sending = none ∧ e ∈ L.szNow c ∧ e.1.tx = true ∧ e.1.kind = .arbitrating ∧ e.1.window = w.val ∧
        e.2 ∈ (vget L.slaz c).pending ∧ L.szReady c e.1 = true ∧ (L.pass dt).szFits c e.1 = true ∧
        (∀ o ∈ L.szNow c, o.2 ∈ (vget L.slaz c).pending → L.szReady c o.1 = true → o = e ∨ e.1.ident < o.1.ident))
      (fun L M => vget M.slaz c = { vget L.slaz c with sending := some (e.2, L.szPayload c e.1) } ∧ (∀ d, d ≠ c → vget M.slaz d = vget L.slaz d) ∧ M = { L.pass dt with slaz := M.slaz })) ∧
    (∀ (l : LaneId) (dt : Nat) (c : Fin 2) (w : Fin 64) (e : SlazEntry × Nat), Does (.slazArbitratingOffer l dt c w false)
      (fun L => L.szRuns c = true ∧ (L.pass dt).szBegun c w.val = true ∧ (vget L.slaz c).opened.contains w.val = false ∧ (vget L.slaz c).ended.contains w.val = false ∧
        e ∈ L.szNow c ∧ e.1.tx = true ∧ e.1.kind = .arbitrating ∧ e.1.window = w.val)
      (fun L M => vget M.slaz c = { vget L.slaz c with opened := w.val :: (vget L.slaz c).opened, pending := (vget M.slaz c).pending } ∧ (vget M.slaz c).pending =
          ((L.szNow c).filter (fun x => x.1.tx && decide (x.1.window = w.val) && decide (x.1.kind = .arbitrating) && L.szReady c x.1)).map (·.2) ∧
        (∀ d, d ≠ c → vget M.slaz d = vget L.slaz d) ∧ M = { L.pass dt with slaz := M.slaz })) ∧
    (∀ (l : LaneId) (dt : Nat) (c : Fin 2) (since : Nat) (ack : Bool), Does (.slazOwnFrameComplete l dt c since ack)
      (fun L => L.firmware = true ∧ (vget L.slaz c).sending = none)
      (fun L M => M = L.pass dt)) ∧
    (∀ (l : LaneId) (dt : Nat) (c : Fin 2) (since : Nat) (ack : Bool) (e : SlazEntry) (i : Nat) (p : List Byte), Does (.slazOwnFrameComplete l dt c since ack)
      (fun L => L.firmware = true ∧ (vget L.slaz c).sending = some (i, p) ∧ i ≠ refIndex ∧ (L.szEntries c).find? (fun x => decide (x.2 = i)) = some (e, i) ∧ e.buf < 64 ∧ e.tx = true ∧ e.kind ≠ .vote)
      (fun L M => M.rd (Reg.SZ_TXOK c.val) = (L.rd (Reg.SZ_TXOK c.val) + 1) % 2 ^ 32 ∧ M.rd (Reg.SZ_BST_SEQ c.val e.buf) = (L.rd (Reg.SZ_BST_SEQ c.val e.buf) + 1) % 65536 ∧ M.is (Reg.SZ_BST_READY c.val e.buf) = false ∧
        M.is (Reg.SZ_BST_MISSED c.val e.buf) = false ∧ M.out = (L.pass dt).out ++ [.slaz c e.ident p] ∧ (vget M.slaz c).sending = none ∧ i ∉ (vget M.slaz c).pending)) ∧
    (∀ (l : LaneId) (dt : Nat) (c : Fin 2) (since : Nat) (f : SlazFrame) (e : SlazEntry × Nat), Does (.slazFrameRx l dt c since f)
      (fun L => L.szRuns c = true ∧ f.kindOk = true ∧ since ≤ (L.pass dt).cycleTime c ∧ ofLe (f.payload.take 1) = L.szCyc c ∧ e.1.kind ≠ .vote ∧ e.1.buf < 64 ∧ e.1.tx = false ∧
        f.payload.length = Check.dlcBytes e.1.dlc ∧ f.payload.length ≤ 64 ∧
        (L.szNow c).find? (fun e => e.1.rx && decide (e.1.kind ≠ .reference) && decide (e.1.ident = f.ident) && decide (e.1.dlc = f.dlc) &&
          decide (1000 * e.1.start ≤ (L.pass dt).cycleTime c - since) && decide ((L.pass dt).cycleTime c - since < 1000 * (e.1.start + e.1.len)) && decide ((L.pass dt).cycleTime c ≤ 1000 * (e.1.start + e.1.len))) = some e)
      (fun L M => M.rd (Reg.SZ_RXOK c.val) = (L.rd (Reg.SZ_RXOK c.val) + 1) % 2 ^ 32 ∧ M.rd (Reg.SZ_BST_SEQ c.val e.1.buf) = (L.rd (Reg.SZ_BST_SEQ c.val e.1.buf) + 1) % 65536 ∧ M.is (Reg.SZ_BST_NEW c.val e.1.buf) = true ∧
        M.is (Reg.SZ_BST_MISSED c.val e.1.buf) = false ∧ M.szBufBytes c e.1.buf (f.payload.length - 1) = f.payload.drop 1 ∧
        M.rd (Reg.SZ_WRONG c.val) = L.rd (Reg.SZ_WRONG c.val) ∧ (vget M.slaz c).filled = e.2 :: (vget L.slaz c).filled ∧ (vget M.slaz c).sending = (vget L.slaz c).sending.filter (fun x => decide (x.1 = refIndex)) ∧ M.out = (L.pass dt).out)) ∧
    (∀ (l : LaneId) (dt : Nat) (c : Fin 2) (since : Nat) (f : SlazFrame), Does (.slazFrameRx l dt c since f)
      (fun L => L.szOnBus c = true ∧ (L.szRuns c = false ∨ f.kindOk = false ∨ (L.pass dt).cycleTime c < since ∨ ofLe (f.payload.take 1) ≠ L.szCyc c ∨
          (L.szNow c).find? (fun e => e.1.rx && decide (e.1.kind ≠ .reference) && decide (e.1.ident = f.ident) && decide (e.1.dlc = f.dlc) &&
          decide (1000 * e.1.start ≤ (L.pass dt).cycleTime c - since) && decide ((L.pass dt).cycleTime c - since < 1000 * (e.1.start + e.1.len)) && decide ((L.pass dt).cycleTime c ≤ 1000 * (e.1.start + e.1.len))) = none))
      (fun L M => M.rd (Reg.SZ_WRONG c.val) = (L.rd (Reg.SZ_WRONG c.val) + 1) % 2 ^ 32 ∧ M = { L.pass dt with slaz := M.slaz, regs := M.regs } ∧ M.rd (Reg.SZ_RXOK c.val) = L.rd (Reg.SZ_RXOK c.val) ∧ (vget M.slaz c).filled = (vget L.slaz c).filled ∧ (vget M.slaz c).sending = (vget L.slaz c).sending.filter (fun x => decide (x.1 = refIndex)))) ∧
    (∀ (l : LaneId) (dt : Nat) (c : Fin 2) (w : Fin 64) (e : SlazEntry × Nat), Does (.slazWindowEnd l dt c w)
      (fun L => L.szRuns c = true ∧ e.1.buf < 64 ∧ (vget L.slaz c).ended.contains w.val = false ∧ 1000 * (e.1.start + e.1.len) ≤ (L.pass dt).cycleTime c ∧ (vget L.slaz c).copied = none ∧
        (L.szNow c).filter (fun e => e.1.rx && decide (e.1.window = w.val) && (decide (e.1.kind = .exclusive) || decide (e.1.kind = .vote)) &&
          !(vget L.slaz c).filled.contains e.2) = [e])
      (fun L M => M.rd (Reg.SZ_EMPTY c.val) = (L.rd (Reg.SZ_EMPTY c.val) + 1) % 2 ^ 32 ∧ M.is (Reg.SZ_BST_MISSED c.val e.1.buf) = true ∧ vget M.slaz c = { vget L.slaz c with ended := w.val :: (vget L.slaz c).ended, pending := [] } ∧
        (∀ d, d ≠ c → vget M.slaz d = vget L.slaz d) ∧ M = { L.pass dt with slaz := M.slaz, regs := M.regs })) ∧
    (∀ (l : LaneId) (dt : Nat) (c : Fin 2) (w : Fin 64) (e : SlazEntry × Nat) (p : List Byte), Does (.slazWindowEnd l dt c w)
      (fun L => L.szRuns c = true ∧ e.1.buf < 64 ∧ (vget L.slaz c).ended.contains w.val = false ∧ 1000 * (e.1.start + e.1.len) ≤ (L.pass dt).cycleTime c ∧
        (vget L.slaz c).copied = some (e.2, p) ∧ (L.szNow c).filter (fun x => decide (x.1.window = w.val)) = [e] ∧ e.1.rx = false)
      (fun L M => M.rd (Reg.SZ_TXLATE c.val) = (L.rd (Reg.SZ_TXLATE c.val) + 1) % 2 ^ 32 ∧ M.is (Reg.SZ_BST_MISSED c.val e.1.buf) = true ∧ vget M.slaz c = { vget L.slaz c with ended := w.val :: (vget L.slaz c).ended, pending := [], copied := none } ∧
        (∀ d, d ≠ c → vget M.slaz d = vget L.slaz d) ∧ M = { L.pass dt with slaz := M.slaz, regs := M.regs })) ∧
    (∀ (l : LaneId) (core : Core) (c : Fin 2) (b : Fin 64), Does (.slazBufferReady l core c b)
      (fun L => L.coreLive core = true ∧ L.waitsCommit (some core) = false ∧ L.waitsAt (some core) = none ∧ L.asleep (0x20073000 + 0x100 * c.val + 0x4 * b.val) = none ∧ L.bufTx c b.val = true)
      (fun L M => M.is (Reg.SZ_BST_READY c.val b.val) = true ∧ M = { L with core := M.core, regs := M.regs } ∧ ∀ g : Fld, g.key ≠ (Reg.SZ_BST_READY c.val b.val).key → M.rd g = L.rd g)) ∧
    (∀ (l : LaneId) (core : Core) (c : Fin 2) (b : Fin 64), Does (.slazBufferReady l core c b)
      (fun L => L.coreLive core = true ∧ L.waitsCommit (some core) = false ∧ L.waitsAt (some core) = none ∧ L.asleep (0x20073000 + 0x100 * c.val + 0x4 * b.val) = none ∧ L.bufTx c b.val = false)
      (fun L M => M = { L with core := M.core }))

/-- The rows of R382: OFF to LISTEN by EN, LISTEN to COLD with a reference frame at once, COLD to MASTER on its own frame, SYNC
to RUN on a frame in tolerance and sequence and SYNC again otherwise, RUN to MASTER by a backup frame, MASTER to RUN and to
LISTEN, BUSOFF and back. A received reference frame gives CYC, MODE, MCNT, MRANK and REFT. A reference frame of the lane's own
counts in MCNT every cycle 0 since the last one (log entry 34). At the end of a cycle an announced mode switch takes effect with
the matrix and a master sends the next reference frame. A cycle without a frame is silent; at a count of 3 here and at both
neighbours ZLOSS is set with source 388 + c. -/
def Obligations.slaz_controllers : Prop :=
    (∀ (l : LaneId) (dt : Nat) (c : Fin 2) (since : Nat) (rank : Fin 8) (payload : Word), Does (.slazReferenceFrameRx l dt c since rank payload)
      (fun L => L.szLive = true ∧ L.szState c = 1)
      (fun L M => M.szState c = 3 ∧ M.rd (Reg.SZ_STAT_CYC c.val) = nbits payload.toNat 0 6 ∧ M.rd (Reg.SZ_STAT_MODE c.val) = nbits payload.toNat 8 3 ∧ M.rd (Reg.SZ_STAT_NMODE c.val) = nbits payload.toNat 11 3 ∧
        M.rd (Reg.SZ_MCNT c.val) = nbits payload.toNat 16 16 ∧ M.rd (Reg.SZ_STAT_MRANK c.val) = rank.val ∧ M.is (Reg.SZ_STAT_MVALID c.val) = true ∧ (vget M.slaz c).cycRef = true ∧
        (vget M.slaz c).mark = (L.pass dt).el - since ∧ M.rd (Reg.SZ_REFT c.val) = ((L.pass dt).now - since) * 2 / 25 * 25 / 2 % 2 ^ 64)) ∧
    (∀ (l : LaneId) (dt : Nat) (c : Fin 2) (since : Nat) (rank : Fin 8) (payload : Word), Does (.slazReferenceFrameRx l dt c since rank payload)
      (fun L => L.szLive = true ∧ (L.szState c = 0 ∨ L.szState c = 6))
      (fun L M => M = L.pass dt)) ∧
    (∀ (l : LaneId) (dt : Nat) (c : Fin 2) (since : Nat) (rank : Fin 8) (payload : Word), Does (.slazReferenceFrameRx l dt c since rank payload)
      (fun L => L.szLive = true ∧ L.szState c = 2)
      (fun L M => M.szState c = 3 ∧ M.is (Reg.SZ_EVENT_ARBLOST c.val) = (L.is (Reg.SZ_EVENT_ARBLOST c.val) || (decide (rank.val < L.szRank) && decide ((vget L.slaz c).attempt ≤ (L.pass dt).el - since))) ∧
        M.rd (Reg.SZ_STAT_CYC c.val) = nbits payload.toNat 0 6 ∧ M.out = (L.pass dt).out)) ∧
    (∀ (l : LaneId) (dt : Nat) (c : Fin 2) (since : Nat) (rank : Fin 8) (payload : Word), Does (.slazReferenceFrameRx l dt c since rank payload)
      (fun L => L.szLive = true ∧ L.szState c = 3)
      (fun L M => M.szState c = (if (L.pass dt).szTolerance c ((L.pass dt).el - since - (vget L.slaz c).mark) && decide (nbits payload.toNat 0 6 = (L.szCyc c + 1) % L.szCycles c) then 4 else 3) ∧
        M.is (Reg.SZ_EVENT_TOLERR c.val) = (L.is (Reg.SZ_EVENT_TOLERR c.val) || !(L.pass dt).szTolerance c ((L.pass dt).el - since - (vget L.slaz c).mark)) ∧
        M.is (Reg.SZ_EVENT_CYCJUMP c.val) = (L.is (Reg.SZ_EVENT_CYCJUMP c.val) || decide (nbits payload.toNat 0 6 ≠ (L.szCyc c + 1) % L.szCycles c)) ∧ M.rd (Reg.SZ_STAT_CYC c.val) = nbits payload.toNat 0 6)) ∧
    (∀ (l : LaneId) (dt : Nat) (c : Fin 2) (since : Nat) (rank : Fin 8) (payload : Word), Does (.slazReferenceFrameRx l dt c since rank payload)
      (fun L => L.szLive = true ∧ L.szState c = 4 ∧ (L.pass dt).inRefWindow c since = true)
      (fun L M => (let bad := decide (nbits payload.toNat 0 6 ≠ 0) && decide (nbits payload.toNat 8 3 ≠ L.rd (Reg.SZ_STAT_MODE c.val))
         let seq := decide (nbits payload.toNat 0 6 = L.szExpect c)
         M.szState c = (if (L.pass dt).szTolerance c ((L.pass dt).el - since - (vget L.slaz c).mark) && seq && !bad then 4 else 3) ∧ M.rd (Reg.SZ_STAT_CYC c.val) = nbits payload.toNat 0 6 ∧
           M.rd (Reg.SZ_STAT_MODE c.val) = (if bad then L.rd (Reg.SZ_STAT_MODE c.val) else nbits payload.toNat 8 3) ∧
           M.is (Reg.SZ_EVENT_TOLERR c.val) = (L.is (Reg.SZ_EVENT_TOLERR c.val) || !(L.pass dt).szTolerance c ((L.pass dt).el - since - (vget L.slaz c).mark)) ∧ M.is (Reg.SZ_EVENT_CYCJUMP c.val) = (L.is (Reg.SZ_EVENT_CYCJUMP c.val) || !seq) ∧
           M.is (Reg.SZ_EVENT_MODEERR c.val) = (L.is (Reg.SZ_EVENT_MODEERR c.val) || bad)))) ∧
    (∀ (l : LaneId) (dt : Nat) (c : Fin 2) (since : Nat) (rank : Fin 8) (payload : Word), Does (.slazReferenceFrameRx l dt c since rank payload)
      (fun L => L.szLive = true ∧ (L.szState c = 4 ∨ L.szState c = 5) ∧ (L.pass dt).inRefWindow c since = false)
      (fun L M => M = { L.pass dt with regs := M.regs } ∧ M.rd (Reg.SZ_WRONG c.val) = (L.rd (Reg.SZ_WRONG c.val) + 1) % 2 ^ 32 ∧ ∀ g : Fld, g.key ≠ (Reg.SZ_WRONG c.val).key → M.rd g = L.rd g)) ∧
    (∀ (l : LaneId) (dt : Nat) (c : Fin 2) (since : Nat) (rank : Fin 8) (payload : Word), Does (.slazReferenceFrameRx l dt c since rank payload)
      (fun L => L.szLive = true ∧ L.szState c = 5 ∧ (L.pass dt).inRefWindow c since = true)
      (fun _ M => M.szState c = 4 ∧ M.is (Reg.SZ_EVENT_MASTERCHG c.val) = true ∧ M.rd (Reg.SZ_STAT_CYC c.val) = nbits payload.toNat 0 6)) ∧
    (∀ (l : LaneId) (dt : Nat) (c : Fin 2) (since : Nat) (ack : Bool) (p : List Byte), Does (.slazOwnFrameComplete l dt c since ack)
      (fun L => L.firmware = true ∧ (vget L.slaz c).sending = some (refIndex, p) ∧ (L.szState c = 2 ∨ L.szState c = 4 ∨ L.szState c = 5))
      (fun L M => M.szState c = 5 ∧ M.rd (Reg.SZ_TXOK c.val) = (L.rd (Reg.SZ_TXOK c.val) + 1) % 2 ^ 32 ∧ M.is (Reg.SZ_STAT_ALONE c.val) = !ack ∧ (vget M.slaz c).mark = (L.pass dt).el - since ∧ (vget M.slaz c).sending = none ∧
        M.is (Reg.SZ_EVENT_MASTERCHG c.val) = (L.is (Reg.SZ_EVENT_MASTERCHG c.val) || decide (L.szState c = 4)) ∧
        (L.szState c = 2 → M.rd (Reg.SZ_STAT_CYC c.val) = 0 ∧ M.rd (Reg.SZ_STAT_MODE c.val) = 0 ∧ M.is (Reg.SZ_STAT_INIT c.val) = true ∧ M.rd (Reg.SZ_MCNT c.val) = 0 ∧
          M.out = (L.pass dt).out ++ [.slaz c L.szRank [64, 0, 0, 0]]) ∧
        (L.szState c ≠ 2 → M.rd (Reg.SZ_MCNT c.val) = (L.rd (Reg.SZ_MCNT c.val) + L.szWraps c) % 65536 ∧
          M.is (Reg.SZ_STAT_INIT c.val) = (decide (L.szWraps c = 0) && L.is (Reg.SZ_STAT_INIT c.val)) ∧ M.rd (Reg.SZ_STAT_CYC c.val) = L.szCyc c % 64))) ∧
    (∀ (l : LaneId) (dt : Nat) (c : Fin 2), Does (.slazBackupAttempt l dt c true)
      (fun L => L.szLive = true ∧ L.szState c = 4 ∧ L.szRank < 8 ∧ (vget L.slaz c).cycRef = false ∧ L.szDelay (L.szLen c) L.szRank ≤ (L.pass dt).cycleTime c)
      (fun L M => vget M.slaz c = { vget L.slaz c with sending := some (refIndex, []) } ∧ (∀ d, d ≠ c → vget M.slaz d = vget L.slaz d) ∧ M = { L.pass dt with slaz := M.slaz })) ∧
    (∀ (l : LaneId) (dt : Nat) (c : Fin 2), Does (.slazBackupAttempt l dt c false)
      (fun L => L.szLive = true)
      (fun L M => M = L.pass dt)) ∧
    (∀ (l : LaneId) (dt : Nat) (c : Fin 2), Does (.slazListenTimeout l dt c)
      (fun L => L.szLive = true ∧ L.szState c = 1 ∧ L.szRank < 8 ∧ (L.pass dt).due (.szListen c) L.szListenNs = true)
      (fun L M => M.szState c = 2 ∧ (vget M.slaz c).sending = some (refIndex, []) ∧ (vget M.slaz c).attempt = (L.pass dt).el ∧ M.running (.szListen c) = false ∧ M.rd (Reg.SZ_EVENT_ARBLOST c.val) = L.rd (Reg.SZ_EVENT_ARBLOST c.val))) ∧
    (∀ (l : LaneId) (dt : Nat) (c : Fin 2), Does (.slazSyncTimeout l dt c)
      (fun L => L.szLive = true ∧ L.szState c = 3 ∧ (vget L.slaz c).mark + 2 * L.szLen c ≤ (L.pass dt).el)
      (fun L M => M.szState c = 1 ∧ (vget M.slaz c).sending = none ∧ M.timerAt (.szListen c) = some (L.pass dt).el)) ∧
    (∀ (l : LaneId) (c : Fin 2), Does (.slazReferenceMiss l c)
      (fun L => L.szLive = true ∧ (L.szState c = 4 ∨ L.szState c = 5) ∧ 2 ≤ (vget L.slaz c).missed)
      (fun _ M => M.szState c = 1 ∧ M.is (Reg.SZ_EVENT_REFMISS c.val) = true ∧ (vget M.slaz c).sending = none)) ∧
    (∀ (l : LaneId) (c : Fin 2) (tec rec : Nat), Does (.slazErrorFrame l c tec rec)
      (fun L => L.szLive = true ∧ L.szState c ≠ 0 ∧ L.szState c ≠ 6)
      (fun L M => M.rd (Reg.SZ_ERRF c.val) = (L.rd (Reg.SZ_ERRF c.val) + 1) % 2 ^ 32 ∧ M.rd (Reg.SZ_ERRC_TEC c.val) = min 255 tec ∧ M.rd (Reg.SZ_ERRC_REC c.val) = min 255 rec ∧ M.is (Reg.SZ_ERRC_EP c.val) = (decide (128 ≤ tec) || decide (128 ≤ rec)) ∧
        (vget M.slaz c).sending = none ∧ M.szState c = if L.szState c = 2 then 1 else L.szState c)) ∧
    (∀ (l : LaneId) (c : Fin 2), Does (.slazBusOff l c)
      (fun L => L.szLive = true ∧ L.szState c ≠ 0 ∧ L.szState c ≠ 6)
      (fun _ M => M.szState c = 6 ∧ M.is (Reg.SZ_EVENT_BUSOFF c.val) = true ∧ (vget M.slaz c).sending = none)) ∧
    (∀ (l : LaneId) (c : Fin 2), Does (.slazBusOffRecovered l c)
      (fun L => L.szLive = true ∧ L.szState c = 6)
      (fun L M => M.szState c = 1 ∧ M.rd (Reg.SZ_ERRC_TEC c.val) = 0 ∧ M.rd (Reg.SZ_ERRC_REC c.val) = 0 ∧ M.rd (Reg.SZ_EVENT_BUSOFF c.val) = L.rd (Reg.SZ_EVENT_BUSOFF c.val))) ∧
    (∀ (l : LaneId) (core : Core) (c : Fin 2) (en : Bool), Does (.szCtrlEnWrite l core c en)
      (fun L => L.coreLive core = true ∧ L.waitsCommit (some core) = false ∧ L.waitsAt (some core) = none ∧ L.asleep (0x20070000) = none ∧ L.szLive = true)
      (fun L M => M.is (if c = 0 then Reg.SZ_CTRL_EN_X else Reg.SZ_CTRL_EN_Y) = en ∧ M.szState c = (if !en then 0 else if L.szState c = 0 then 1 else L.szState c) ∧
        M = { L with core := M.core, regs := M.regs, slaz := M.slaz, timers := M.timers })) ∧
    (∀ (l : LaneId) (dt : Nat) (c : Fin 2), Does (.slazCycleEnd l dt c)
      (fun L => L.firmware = true ∧ L.szLen c ≤ (L.pass dt).cycleTime c ∧ L.zLoss c = false ∧ L.szRuns c = false ∧ L.rd (Reg.SZ_STAT_SILENT c.val) < 2)
      (fun L M => M.rd (Reg.SZ_STAT_SILENT c.val) = L.rd (Reg.SZ_STAT_SILENT c.val) + 1 ∧ M.is (Reg.SZ_STAT_ZLOSS c.val) = false ∧ (vget M.slaz c).sinceInc = (L.pass dt).el ∧ (vget M.slaz c).filled = [] ∧
        (vget M.slaz c).start = (vget L.slaz c).start + L.szLen c ∧ (vget M.slaz c).cycRef = false ∧ M.szState c = L.szState c ∧ M.rd (Reg.SZ_STAT_CYC c.val) = L.rd (Reg.SZ_STAT_CYC c.val))) ∧
    (∀ (l : LaneId) (dt : Nat) (c : Fin 2), Does (.slazCycleEnd l dt c)
      (fun L => L.szLive = true ∧ L.szLen c ≤ (L.pass dt).cycleTime c ∧ L.szState c = 5 ∧ (vget L.slaz c).anyFrame = true ∧ (vget L.slaz c).cycRef = true ∧
        L.szCyc c + 1 ≠ L.szCycles c ∧ L.szCycles c ≤ 64)
      (fun L M => M.szState c = 5 ∧ M.rd (Reg.SZ_STAT_CYC c.val) = (L.szCyc c + 1) % L.szCycles c ∧ (vget M.slaz c).sending = some (refIndex, []) ∧ M.rd (Reg.SZ_STAT_SILENT c.val) = 0 ∧
        (vget M.slaz c).missed = 0 ∧ M.rd (Reg.SZ_REFMISS c.val) = L.rd (Reg.SZ_REFMISS c.val))) ∧
    (∀ (l : LaneId) (dt : Nat) (c : Fin 2), Does (.slazCycleEnd l dt c)
      (fun L => L.szLive = true ∧ L.szLen c ≤ (L.pass dt).cycleTime c ∧ L.szState c = 4 ∧ (vget L.slaz c).anyFrame = true ∧
        L.szCyc c + 1 = L.szCycles c ∧ L.is (Reg.SZ_STAT_SWPEND c.val) = true)
      (fun L M => M.szState c = 4 ∧ M.rd (Reg.SZ_STAT_CYC c.val) = 0 ∧ M.rd (Reg.SZ_STAT_MODE c.val) = L.rd (Reg.SZ_STAT_NMODE c.val) % 8 ∧ M.is (Reg.SZ_STAT_SWPEND c.val) = false ∧
        M.is (Reg.SZ_EVENT_SWITCHED c.val) = true ∧ (vget M.slaz c).votes = [] ∧ (vget M.slaz c).sending = (vget L.slaz c).sending)) ∧
    (∀ (l : LaneId) (dt : Nat) (c : Fin 2), Does (.slazCycleEnd l dt c)
      (fun L => L.firmware = true ∧ L.szLen c ≤ (L.pass dt).cycleTime c ∧ L.szState c ≠ 4 ∧ L.szState c ≠ 5 ∧ 2 ≤ L.rd (Reg.SZ_STAT_SILENT c.val) ∧ (∀ s : Side, (L.pass dt).fresh s = none))
      (fun L M => M.is (Reg.SZ_STAT_ZLOSS c.val) = true ∧ M.sticky (388 + c.val) = true ∧ (vget M.slaz c).sinceInc = (L.pass dt).el)) ∧
    (∀ (l : LaneId) (dt : Nat) (f : Func), Does (.autumnCauseClearTimer l dt f 2)
      (fun L => L.mode f = 1 ∧ (∀ c : Fin 2, funcOfChannel c = f → (L.pass dt).zClear c = true))
      (fun L M => (M.fn f).causes = (L.fn f).causes.filter (fun x => decide (x ≠ 2)) ∧ ((L.fn f).causes = [2] → M.mode f = 0 ∧ M.rd (Reg.ROLE_FUNC_CAUSE f.code) = 0) ∧ (2 ∉ (L.fn f).causes → M = L.pass dt)))

/-- A time frame goes out with device time, the echo of each neighbour and a request that then clears. A frame that arrives with
an echo gives a sample; the mean of up to 16 (the model's filter, log entry 37) shows in TS_NBOFS. A neighbour within 2 ns for 1
ms is in agreement; one silent for 100 us, or more than 50 ns off ten times, is not. A lane follows its leader's discipline and
step. At its instant an announced step moves device time by D, with TS_STEP, TS_STEP_AT and TS_STEPCNT, and leaves elapsed time,
and a timer interrupt that it passes is pending. With NET on, a Sync gives the grandmaster identity and EN_OFS, an Announce the
port state, a Pdelay_Req is sent and answered, an exchange gives EN_MLD; TS_NOW_READ latches the fraction. With NET in retention
or off a message is lost and wakes NET. -/
def Obligations.device_time : Prop :=
    (∀ (l : LaneId) (dt : Nat), Does (.timeFrameSend l dt)
      (fun L => L.powered = true ∧ (L.running .timeSend = false ∨ (L.pass dt).due .timeSend 10000 = true))
      (fun L M => M.link = linkAdd ⟨some (.time { sent := (L.pass dt).time.dev / 2 ^ 32, echo := (vget L.time.nb 0).heard, state := L.svc, agreePrev := L.agrees .prev, agreeNext := L.agrees .next, leader := L.isLeader, acq := L.is Reg.TS_STAT_ACQ, disc := L.rd Reg.TS_STAT_DISC, gmOffset := L.time.ownGm.map (·.1), gmId := (L.time.ownGm.map (·.2)).getD 0, gmSeq := L.time.ownSeq, step := L.time.step, jumpPend := L.is Reg.TS_JUMP_PEND, request := L.time.request }
            (vget L.time.nb 1).heard), 1, 8 * (linkLen 1 + 4), 8 * (linkLen 1 + 4), false⟩ (L.pass dt).link ∧
        M.timerAt .timeSend = some (L.pass dt).el ∧ M = { L.pass dt with link := M.link, timers := M.timers, time := { (L.pass dt).time with request := 0 } })) ∧
    (∀ (l : LaneId) (dt : Nat), Does (.timeFrameSend l dt)
      (fun L => L.running .timeSend = true ∧ (L.pass dt).due .timeSend 10000 = false)
      (fun L M => M = L.pass dt)) ∧
    (∀ (l : LaneId) (dt : Nat) (sd : Side) (f : TimeFrame), Does (.timeFrameRx l dt sd f)
      (fun L => L.powered = true ∧ f.echo = none)
      (fun L M => (vget M.time.nb sd.ix).frame = some f ∧ (vget M.time.nb sd.ix).heard = some (f.sent, (L.pass dt).time.dev / 2 ^ 32) ∧ (vget M.time.nb sd.ix).offset16 = (vget L.time.nb sd.ix).offset16 ∧ M.agrees sd = L.agrees sd ∧
        M.timerAt (.timeFrame sd) = some (L.pass dt).el ∧ M.time.dev = (L.pass dt).time.dev ∧ M.rd (Reg.TS_NBOFS (L.sideCode sd)) = L.rd (Reg.TS_NBOFS (L.sideCode sd)))) ∧
    (∀ (l : LaneId) (dt : Nat) (sd : Side) (f : TimeFrame) (t1 t2 : Nat), Does (.timeFrameRx l dt sd f)
      (fun L => L.powered = true ∧ L.agrees sd = false ∧ f.echo = some (t1, t2) ∧ (L.pass dt).fixStamp (t1 / 65536) = t1 / 65536)
      (fun L M => (vget M.time.nb sd.ix).frame = some f ∧ M.agrees sd = false ∧ M.time.dev = (L.pass dt).time.dev ∧ (∀ s : Side, s ≠ sd → M.agrees s = L.agrees s) ∧
        (vget M.time.nb sd.ix).offset16 = floorFree .combined (((((t2 : Int) - t1 + (f.sent - (((L.pass dt).time.dev / 2 ^ 32 : Nat) : Int)), (((L.pass dt).time.dev / 2 ^ 32 : Nat) : Int) - t1 - ((f.sent : Int) - t2)) :: (vget L.time.nb sd.ix).samples.take 15).map (·.1)).sum * 16) (131072 * (((t2 : Int) - t1 + (f.sent - (((L.pass dt).time.dev / 2 ^ 32 : Nat) : Int)), (((L.pass dt).time.dev / 2 ^ 32 : Nat) : Int) - t1 - ((f.sent : Int) - t2)) :: (vget L.time.nb sd.ix).samples.take 15).length) ∧
        (vget M.time.nb sd.ix).delay16 = floorFree .combined (((((t2 : Int) - t1 + (f.sent - (((L.pass dt).time.dev / 2 ^ 32 : Nat) : Int)), (((L.pass dt).time.dev / 2 ^ 32 : Nat) : Int) - t1 - ((f.sent : Int) - t2)) :: (vget L.time.nb sd.ix).samples.take 15).map (·.2)).sum * 16) (131072 * (((t2 : Int) - t1 + (f.sent - (((L.pass dt).time.dev / 2 ^ 32 : Nat) : Int)), (((L.pass dt).time.dev / 2 ^ 32 : Nat) : Int) - t1 - ((f.sent : Int) - t2)) :: (vget L.time.nb sd.ix).samples.take 15).length) ∧
        M.rd (Reg.TS_NBOFS (L.sideCode sd)) = uns 32 (clampI (-2147483648) 2147483647 (vget M.time.nb sd.ix).offset16) ∧
        ((vget M.time.nb sd.ix).offset16.natAbs ≤ 32 → M.running (.agree sd) = true) ∧ (32 < (vget M.time.nb sd.ix).offset16.natAbs → M.running (.agree sd) = false))) ∧
    (∀ (l : LaneId) (dt : Nat) (sd : Side) (f : TimeFrame) (t1 t2 : Nat), Does (.timeFrameRx l dt sd f)
      (fun L => L.powered = true ∧ L.agrees sd = true ∧ f.echo = some (t1, t2) ∧ (L.pass dt).fixStamp (t1 / 65536) = t1 / 65536)
      (fun L M => (vget M.time.nb sd.ix).offset16 = floorFree .combined (((((t2 : Int) - t1 + (f.sent - (((L.pass dt).time.dev / 2 ^ 32 : Nat) : Int)), (((L.pass dt).time.dev / 2 ^ 32 : Nat) : Int) - t1 - ((f.sent : Int) - t2)) :: (vget L.time.nb sd.ix).samples.take 15).map (·.1)).sum * 16) (131072 * (((t2 : Int) - t1 + (f.sent - (((L.pass dt).time.dev / 2 ^ 32 : Nat) : Int)), (((L.pass dt).time.dev / 2 ^ 32 : Nat) : Int) - t1 - ((f.sent : Int) - t2)) :: (vget L.time.nb sd.ix).samples.take 15).length) ∧ M.time.dev = (L.pass dt).time.dev ∧
        M.agrees sd = !(decide (800 < (vget M.time.nb sd.ix).offset16.natAbs) && decide (9 ≤ (vget L.time.nb sd.ix).badRun)) ∧ (vget M.time.nb sd.ix).frame = some f ∧
        ((∀ s : Side, M.agrees s = false) → M.time.rateAgree = 0 ∧ M.is (Reg.DE_STATUS_UNLOCK 0) = true))) ∧
    (∀ (l : LaneId) (dt : Nat) (sd : Side) (f : TimeFrame), Does (.timeFrameRx l dt sd f)
      (fun L => L.powered = true ∧ f.echo = none ∧ L.agrees sd = true ∧ L.sideCode sd < L.id.code ∧ f.leader = true ∧ f.disc < 8)
      (fun L M => M.rd Reg.TS_STAT_DISC = f.disc ∧ M.is Reg.EN_PTP_STAT_LOCKED = decide (f.disc = 3) ∧ M.is Reg.TS_STAT_LEADER = false ∧ M.is Reg.TS_JUMP_PEND = f.jumpPend ∧
        M.is Reg.TS_STAT_ACQ = (L.is Reg.TS_STAT_ACQ || f.acq) ∧ M.time.step = ((f.step.filter (fun d => decide ((L.pass dt).now < d.2) && !(L.pass dt).stepTaken d)).or L.time.step) ∧
        (f.jumpPend = true → L.is Reg.TS_JUMP_PEND = false → M.sticky 385 = true))) ∧
    (∀ (l : LaneId) (dt : Nat) (sd : Side), Does (.agreementEnter l dt sd)
      (fun L => L.agrees sd = false ∧ (L.pass dt).due (.agree sd) 1000000 = true)
      (fun _ M => M.agrees sd = true ∧ M.is (if sd = .prev then Reg.TS_STAT_AGREE_PREV else Reg.TS_STAT_AGREE_NEXT) = true ∧ (∀ p : Fin 4, M.is (Reg.DE_STATUS_UNLOCK p.val) = false) ∧
        384 ∉ M.fault.level ∧ M.running (.agree sd) = false ∧ M.running .unlock = false)) ∧
    (∀ (l : LaneId) (dt : Nat) (sd : Side), Does (.agreementTimeout l dt sd)
      (fun L => (∀ s : Side, s ≠ sd → L.agrees s = false) ∧ L.agrees sd = true ∧ (L.pass dt).due (.timeFrame sd) 100000 = true)
      (fun L M => M.agrees sd = false ∧ M.is Reg.TS_STAT_AGREE_PREV = false ∧ M.is Reg.TS_STAT_AGREE_NEXT = false ∧ (∀ p : Fin 4, M.is (Reg.DE_STATUS_UNLOCK p.val) = true) ∧
        (L.armedState = true → M.sticky 384 = true) ∧ M.time.rateAgree = 0 ∧ M.running (.timeFrame sd) = false)) ∧
    (∀ (l : LaneId) (dt : Nat) (d : Int) (t : Nat), Does (.timeStepInstant l dt)
      (fun L => L.time.step = some (d, t) ∧ t ≤ (L.pass dt).now)
      (fun L M => M.time.dev = (((L.pass dt).time.dev : Int) + d * 2 ^ 48).toNat % 2 ^ 112 ∧ M.time.elapsed = (L.pass dt).time.elapsed ∧ M.time.step = none ∧ M.time.lastStep = some (L.pass dt).el ∧
        M.rd Reg.TS_STEP = uns 64 d ∧ M.rd Reg.TS_STEP_AT = t % 2 ^ 64 ∧ M.rd Reg.TS_STEPCNT = (L.rd Reg.TS_STEPCNT + 1) % 2 ^ 32 ∧
        M.is Reg.TS_STAT_ACQ = (L.is Reg.TS_STAT_ACQ || L.time.acqStep) ∧ (∀ n : Engine, (M.de n).psTick = (L.de n).psTick + d * 20 / 3) ∧
        (∀ c : Core, vget M.mtip c = if L.firmware then decide (vget L.mtimecmp c ≤ M.now / 1000) else vget L.mtip c))) ∧
    (∀ (l : LaneId) (dt : Nat), Does (.timeStepInstant l dt)
      (fun L => (L.time.step.map (fun d => decide (d.2 ≤ (L.pass dt).now))).getD false = false)
      (fun L M => M = L.pass dt)) ∧
    (∀ (l : LaneId) (o t gm seq : Nat) (corr : Int) (ls : BitVec 4), Does (.ptpSyncRx l o t corr gm seq ls)
      (fun L => L.ptpOn = true ∧ L.rd Reg.PD_STATE_STATE_3 = 0 ∧ -5 ≤ ls.toInt ∧ ls.toInt ≤ 0)
      (fun L M => M.rd Reg.EN_GMID = gm % 2 ^ 64 ∧ M.rd Reg.EN_PTP_STAT_LOGSYNC = ls.toNat ∧ M.time.ownSeq = seq ∧ M.timerAt .sync = some L.el ∧
        M.time.ownGm = some (floorFree .standard ((((o : Int) - t) * 65536 + corr - sgn 32 (L.rd Reg.EN_RXCORR)) * 10 ^ 11 +
          (L.rd Reg.EN_MLD : Int) * 65536 * (10 ^ 11 + L.ptp.ratio)) (65536 * 10 ^ 11), gm) ∧
        M.rd Reg.EN_OFS = uns 32 (clampI (-2147483648) 2147483647 ((M.time.ownGm.map (·.1)).getD 0)))) ∧
    (∀ (l : LaneId) (o t gm seq : Nat) (corr : Int) (ls : BitVec 4), Does (.ptpSyncRx l o t corr gm seq ls)
      (fun L => L.rd Reg.PD_STATE_STATE_3 = 0 ∧ (ls.toInt < -5 ∨ 0 < ls.toInt))
      (fun L M => M = L)) ∧
    (∀ (l : LaneId) (gm : Nat) (sl : Bool), Does (.ptpAnnounceRx l gm sl)
      (fun L => L.ptpOn = true ∧ L.rd Reg.PD_STATE_STATE_3 = 0)
      (fun L M => M.is Reg.EN_PTP_STAT_SLAVE = sl ∧ M.timerAt .announce = some L.el ∧ M = { L with regs := M.regs, timers := M.timers } ∧ ∀ g : Fld, g.key ≠ Reg.EN_PTP_STAT_SLAVE.key → M.rd g = L.rd g)) ∧
    (∀ (l : LaneId) (dt : Nat), Does (.ptpPdelayReqTimer l dt)
      (fun L => L.ptpOn = true ∧ L.rd Reg.PD_STATE_STATE_3 = 0 ∧ (L.pass dt).due .pdelay L.pdelayNs = true)
      (fun L M => M.ptp = { L.ptp with seq := (L.ptp.seq + 1) % 65536, t1 := some (L.pass dt).now } ∧ M.out = (L.pass dt).out ++ [.ptp 0 ((L.ptp.seq + 1) % 65536)] ∧ M.timerAt .pdelay = some (L.pass dt).el ∧ M.regs = L.regs)) ∧
    (∀ (l : LaneId) (seq t : Nat), Does (.ptpPdelayReqRx l seq t)
      (fun L => L.ptpOn = true ∧ L.rd Reg.PD_STATE_STATE_3 = 0)
      (fun L M => M.out = L.out ++ [.ptp 1 seq, .ptp 2 seq] ∧ M = { L with out := M.out })) ∧
    (∀ (l : LaneId) (seq t : Nat), Does (.ptpPdelayReqRx l seq t)
      (fun L => L.rd Reg.PD_STATE_STATE_3 = 2 ∨ L.rd Reg.PD_STATE_STATE_3 = 3)
      (fun L M => M.rd Reg.PD_STATE_STATE_3 = 4 ∧ M.out = L.out ∧ M = { L with regs := M.regs, power := M.power })) ∧
    (∀ (l : LaneId) (seq t2 t3 t4 t1 : Nat) (r : Int), Does (.ptpPdelayRespRx l seq t2 t3 t4 r)
      (fun L => L.ptpOn = true ∧ L.rd Reg.PD_STATE_STATE_3 = 0 ∧ L.ptp.t1 = some t1 ∧ seq = L.ptp.seq)
      (fun L M => M.ptp = { L.ptp with t1 := none, good := min 3 (L.ptp.good + 1), ratio := r } ∧ (L.ptp.good < 2 → M.is Reg.EN_PTP_STAT_ASCAP = false) ∧ M.out = L.out ∧
        M.rd Reg.EN_MLD = (clampI 0 4294967295 (floorFree .standard (((t4 : Int) * 65536 + sgn 32 (L.rd Reg.EN_RXCORR) - t1 * 65536 - sgn 32 (L.rd Reg.EN_TXCORR)) * (10 ^ 11 + r) -
          ((t3 : Int) - t2) * 65536 * 10 ^ 11) (2 * 65536 * 10 ^ 11))).toNat)) ∧
    (∀ (l : LaneId) (seq t2 t3 t4 : Nat) (r : Int), Does (.ptpPdelayRespRx l seq t2 t3 t4 r)
      (fun L => L.rd Reg.PD_STATE_STATE_3 = 0 ∧ (L.ptp.t1 = none ∨ seq ≠ L.ptp.seq))
      (fun L M => M = L)) ∧
    (∀ (l : LaneId), Does (.tsNowRead l)
      (fun L => L.powered = true)
      (fun L M => M.rd Reg.TS_NOW_FRAC = L.time.dev / 2 ^ 32 % 65536 ∧ M = { L with regs := M.regs } ∧ ∀ g : Fld, g.key ≠ Reg.TS_NOW_FRAC.key → M.rd g = L.rd g))

/-- The leader treats a combined offset once for a sequenceId: above JUMP_NS after acquisition it is refused, which goes to
PENDING with source 385, PEND and TS_JUMP_OFS and no step; an offset of at most 1000 ns is slewed, another stepped at a whole
millisecond at least 200 us ahead, and acquisition always steps. No Sync for 3 intervals gives HOLDOVER and ends the SlavePort
state (log entry 39). ACCEPT steps by the latest offset, REJECT ignores the grandmaster, RESUME returns to LISTEN, and a write
that does not fit sets NOPEND. A single pulse already passed sets LATE; a pulse begins at its START or grid point and ends WIDTH
later. -/
def Obligations.time_discipline_and_pulses : Prop :=
    (∀ (l : LaneId) (dt g seq : Nat) (o : Int), Does (.combinedOffsetDecision l dt)
      (fun L => L.ptpOn = true ∧ L.isLeader = true ∧ L.gmFollowed = some (g, seq) ∧ Lane.combine (L.gmOffsets g seq).1 = some o ∧ L.time.decided ≠ some (g, seq) ∧
        ((L.gmOffsets g seq).2 = true ∨ (L.pass dt).due .sync 2000000 = true) ∧ (L.rd Reg.TS_STAT_DISC = 1 ∨ L.rd Reg.TS_STAT_DISC = 2 ∨ L.rd Reg.TS_STAT_DISC = 3 ∨ L.rd Reg.TS_STAT_DISC = 4) ∧ L.acquiring = false ∧ 1000 < o.natAbs ∧ L.rd Reg.TS_JTHR < o.natAbs)
      (fun L M => M.rd Reg.TS_STAT_DISC = 5 ∧ M.is Reg.TS_JUMP_PEND = true ∧ M.sticky 385 = true ∧ M.rd Reg.TS_JUMP_OFS = uns 64 o ∧ M.time.step = L.time.step ∧ M.time.dev = (L.pass dt).time.dev ∧ M.time.decided = some (g, seq))) ∧
    (∀ (l : LaneId) (dt g seq : Nat) (o : Int), Does (.combinedOffsetDecision l dt)
      (fun L => L.ptpOn = true ∧ L.isLeader = true ∧ L.gmFollowed = some (g, seq) ∧ Lane.combine (L.gmOffsets g seq).1 = some o ∧ L.time.decided ≠ some (g, seq) ∧
        ((L.gmOffsets g seq).2 = true ∨ (L.pass dt).due .sync 2000000 = true) ∧ (L.rd Reg.TS_STAT_DISC = 1 ∨ L.rd Reg.TS_STAT_DISC = 2 ∨ L.rd Reg.TS_STAT_DISC = 3 ∨ L.rd Reg.TS_STAT_DISC = 4) ∧ L.acquiring = false ∧ o.natAbs ≤ 1000)
      (fun L M => M.time.step = L.time.step ∧ M.time.slew = o * 2 ^ 48 ∧ M.time.phase.natAbs ≤ 10000000 ∧ M.time.rateDisc = L.ptp.ratio ∧ M.is Reg.TS_JUMP_PEND = L.is Reg.TS_JUMP_PEND ∧
        M.rd Reg.TS_JUMP_OFS = uns 64 o ∧ M.time.decided = some (g, seq) ∧
        M.rd Reg.TS_STAT_DISC = (if L.rd Reg.TS_STAT_DISC = 3 then 3 else if L.rd Reg.TS_STAT_DISC = 2 ∧ o.natAbs ≤ 100 ∧ 7 ≤ L.time.lockedRun then 3 else 2))) ∧
    (∀ (l : LaneId) (dt g seq : Nat) (o : Int), Does (.combinedOffsetDecision l dt)
      (fun L => L.ptpOn = true ∧ L.isLeader = true ∧ L.gmFollowed = some (g, seq) ∧ Lane.combine (L.gmOffsets g seq).1 = some o ∧ L.time.decided ≠ some (g, seq) ∧
        ((L.gmOffsets g seq).2 = true ∨ (L.pass dt).due .sync 2000000 = true) ∧ (L.rd Reg.TS_STAT_DISC = 1 ∨ L.rd Reg.TS_STAT_DISC = 2 ∨ L.rd Reg.TS_STAT_DISC = 3 ∨ L.rd Reg.TS_STAT_DISC = 4) ∧ L.time.step = none ∧ (L.acquiring = true ∨ (1000 < o.natAbs ∧ o.natAbs ≤ L.rd Reg.TS_JTHR)))
      (fun L M => M.time.step.map (·.1) = some o ∧ ((M.time.step.map (·.2)).getD 0) % 1000000 = 0 ∧ (L.pass dt).now + 200000 ≤ ((M.time.step.map (·.2)).getD 0) ∧ (L.time.lastStep = none → ((M.time.step.map (·.2)).getD 0) < (L.pass dt).now + 1200000) ∧
        M.time.acqStep = L.acquiring ∧ M.time.rateDisc = L.ptp.ratio ∧ M.is Reg.TS_JUMP_PEND = L.is Reg.TS_JUMP_PEND ∧ M.time.dev = (L.pass dt).time.dev ∧ M.rd Reg.TS_JUMP_OFS = uns 64 o)) ∧
    (∀ (l : LaneId) (dt g seq : Nat) (o : Int), Does (.combinedOffsetDecision l dt)
      (fun L => L.ptpOn = true ∧ L.isLeader = true ∧ L.gmFollowed = some (g, seq) ∧ Lane.combine (L.gmOffsets g seq).1 = some o ∧ L.time.decided ≠ some (g, seq) ∧
        ((L.gmOffsets g seq).2 = true ∨ (L.pass dt).due .sync 2000000 = true) ∧ L.rd Reg.TS_STAT_DISC = 5 ∧ (L.acquiring = true ∨ o.natAbs ≤ 1000 ∨ o.natAbs ≤ L.rd Reg.TS_JTHR))
      (fun _ M => M.rd Reg.TS_STAT_DISC = 2 ∧ M.is Reg.TS_JUMP_PEND = false ∧ M.is Reg.TS_JUMP_WITHDRAWN = true)) ∧
    (∀ (l : LaneId) (dt : Nat), Does (.combinedOffsetDecision l dt)
      (fun L => L.gmFollowed = none ∨ L.isLeader = false ∨ L.ptpOn = false)
      (fun L M => M = L.pass dt)) ∧
    (∀ (l : LaneId) (dt : Nat), Does (.ptpSyncTimeout l dt)
      (fun L => L.ptpOn = true ∧ (L.pass dt).isLeader = true ∧ ((L.pass dt).due .sync L.syncNs = true ∨ (L.pass dt).due .announce 3000000000 = true) ∧ (L.rd Reg.TS_STAT_DISC = 2 ∨ L.rd Reg.TS_STAT_DISC = 3))
      (fun L M => M.rd Reg.TS_STAT_DISC = 4 ∧ M.is Reg.EN_PTP_STAT_LOCKED = false ∧ M.time.ownGm = none ∧ M.time.slew = 0 ∧ M.time.rateDisc = L.time.rateDisc ∧ M.is Reg.EN_PTP_STAT_SLAVE = false)) ∧
    (∀ (l : LaneId), Does (.tsJumpAccept l)
      (fun L => L.firmware = true ∧ L.rd Reg.TS_STAT_DISC = 5 ∧ L.isLeader = true ∧ L.time.step = none)
      (fun L M => M.rd Reg.TS_STAT_DISC = 2 ∧ M.is Reg.TS_JUMP_PEND = false ∧ M.time.step.map (·.1) = some (sgn 64 (L.rd Reg.TS_JUMP_OFS)) ∧ ((M.time.step.map (·.2)).getD 0) % 1000000 = 0 ∧ L.now + 200000 ≤ ((M.time.step.map (·.2)).getD 0))) ∧
    (∀ (l : LaneId), Does (.tsJumpReject l)
      (fun L => L.firmware = true ∧ L.rd Reg.TS_STAT_DISC = 5 ∧ L.isLeader = true)
      (fun L M => M.rd Reg.TS_STAT_DISC = 6 ∧ M.is Reg.TS_JUMP_PEND = false ∧ M.time.rejected = L.time.followed ∧ M.time.slew = 0 ∧ M.time.step = L.time.step)) ∧
    (∀ (l : LaneId), Does (.tsJumpResume l)
      (fun L => L.firmware = true ∧ L.rd Reg.TS_STAT_DISC = 6 ∧ L.isLeader = true)
      (fun L M => M.rd Reg.TS_STAT_DISC = 1 ∧ M.time.rejected = none ∧ M.out = L.out)) ∧
    (∀ (l : LaneId), Does (.tsJumpReject l)
      (fun L => L.firmware = true ∧ L.rd Reg.TS_STAT_DISC = 5 ∧ L.isLeader = false)
      (fun L M => M.time.request = 2 ∧ M = { L with time := { L.time with request := 2 } })) ∧
    (∀ (l : LaneId), Does (.tsJumpAccept l)
      (fun L => L.firmware = true ∧ L.rd Reg.TS_STAT_DISC ≠ 5)
      (fun L M => M.is Reg.TS_JUMP_NOPEND = true ∧ M = { L with regs := M.regs } ∧ ∀ g : Fld, g.key ≠ Reg.TS_JUMP_NOPEND.key → M.rd g = L.rd g)) ∧
    (∀ (l : LaneId), Does (.tsJumpResume l)
      (fun L => L.firmware = true ∧ L.rd Reg.TS_STAT_DISC ≠ 6)
      (fun L M => M.is Reg.TS_JUMP_NOPEND = true ∧ M = { L with regs := M.regs } ∧ ∀ g : Fld, g.key ≠ Reg.TS_JUMP_NOPEND.key → M.rd g = L.rd g)) ∧
    (∀ (l : LaneId) (core : Core) (n : Fin 4) (v : Word), Does (.tpModeWrite l core n v)
      (fun L => L.coreLive core = true ∧ L.waitsCommit (some core) = false ∧ L.waitsAt (some core) = none ∧ L.asleep (0x20060100 + 0x20 * n.val) = none ∧ L.firmware = true ∧ v.toNat % 4 = 0)
      (fun L M => M.rd (Reg.TP_CFG_MODE n.val) = 0 ∧ M.rd (Reg.TP_CFG_WIDTH n.val) = v.toNat / 16 ∧ (vget M.pulse n).active = false ∧ M.out = (if (vget L.pulse n).active then L.out ++ [.pulse n false] else L.out) ∧
        M = { L with core := M.core, regs := M.regs, pulse := M.pulse, out := M.out })) ∧
    (∀ (l : LaneId) (core : Core) (n : Fin 4) (v : Word), Does (.tpModeWrite l core n v)
      (fun L => L.coreLive core = true ∧ L.waitsCommit (some core) = false ∧ L.waitsAt (some core) = none ∧ L.asleep (0x20060100 + 0x20 * n.val) = none ∧ L.firmware = true ∧ v.toNat % 4 = 1 ∧ L.rd (Reg.TP_CFG_MODE n.val) = 0)
      (fun L M => M.out = L.out ∧ (if L.rd (Reg.TP_START n.val) ≤ L.now then M.rd (Reg.TP_CFG_MODE n.val) = 0 ∧ M.is (Reg.TP_STAT_LATE n.val) = true ∧ M.pulse = L.pulse else M.rd (Reg.TP_CFG_MODE n.val) = 1 ∧ (vget M.pulse n).next = L.rd (Reg.TP_START n.val)))) ∧
    (∀ (l : LaneId) (core : Core) (n : Fin 4) (v : Word), Does (.tpModeWrite l core n v)
      (fun L => L.coreLive core = true ∧ L.waitsCommit (some core) = false ∧ L.waitsAt (some core) = none ∧ L.asleep (0x20060100 + 0x20 * n.val) = none ∧ L.firmware = true ∧ v.toNat % 4 = 2 ∧ 10 * (v.toNat / 16) < L.rd (Reg.TP_PERIOD n.val))
      (fun L M => M.rd (Reg.TP_CFG_MODE n.val) = 2 ∧ (L.now : Int) < (vget M.pulse n).next ∧ (vget M.pulse n).next ≤ L.now + L.rd (Reg.TP_PERIOD n.val) ∧ ((vget M.pulse n).next - L.rd (Reg.TP_START n.val)) % (L.rd (Reg.TP_PERIOD n.val) : Int) = 0)) ∧
    (∀ (l : LaneId) (core : Core) (n : Fin 4) (v : Word), Does (.tpModeWrite l core n v)
      (fun L => L.coreLive core = true ∧ L.waitsCommit (some core) = false ∧ L.waitsAt (some core) = none ∧ L.asleep (0x20060100 + 0x20 * n.val) = none ∧ v.toNat % 4 = 2 ∧ L.rd (Reg.TP_PERIOD n.val) ≤ 10 * (v.toNat / 16))
      (fun L M => M = { L with core := M.core })) ∧
    (∀ (l : LaneId) (n : Fin 4) (dt : Nat), Does (.tpPulseStart l n dt)
      (fun L => L.rd (Reg.TP_CFG_MODE n.val) = 1 ∧ (vget L.pulse n).active = false ∧ (vget L.pulse n).next ≤ (L.pass dt).now)
      (fun L M => if L.timOn then vget M.pulse n = ⟨true, (vget L.pulse n).next, (L.pass dt).el + 10 * L.rd (Reg.TP_CFG_WIDTH n.val)⟩ ∧ M.out = (L.pass dt).out ++ [.pulse n true] else M.is (Reg.TP_STAT_LATE n.val) = true ∧ M.rd (Reg.TP_CFG_MODE n.val) = 0 ∧ M.out = (L.pass dt).out)) ∧
    (∀ (l : LaneId) (n : Fin 4) (dt : Nat), Does (.tpPulseStart l n dt)
      (fun L => L.rd (Reg.TP_CFG_MODE n.val) = 2 ∧ (vget L.pulse n).active = false ∧ (vget L.pulse n).next ≤ (L.pass dt).now)
      (fun L M => (vget M.pulse n).next = (vget L.pulse n).next + L.rd (Reg.TP_PERIOD n.val) ∧ (vget M.pulse n).active = L.timOn ∧ M.out = (if L.timOn then (L.pass dt).out ++ [.pulse n true] else (L.pass dt).out))) ∧
    (∀ (l : LaneId) (n : Fin 4) (dt : Nat), Does (.tpPulseEnd l n dt)
      (fun L => (vget L.pulse n).active = true ∧ (vget L.pulse n).endAt ≤ (L.pass dt).el)
      (fun L M => vget M.pulse n = { vget L.pulse n with active := false } ∧ M.out = (L.pass dt).out ++ [.pulse n false] ∧ M.rd (Reg.TP_CFG_MODE n.val) = (if L.rd (Reg.TP_CFG_MODE n.val) = 1 then 0 else L.rd (Reg.TP_CFG_MODE n.val))))

/-- A frame above 300 in a second counts RATE; one whose signature holds and whose SESSION and FCNT fit counts ACC, another one
REJ. CHALLENGE gives a nonce and OPEN with it opens the session where the signature holds; a stale one is REFUSED; 1 s without a
frame closes it and drops the engagements. FEAT_OFFER and FEAT_ACCEPT negotiate the set of a port. An answer is one descriptor
on the lowest lane-to-host queue, with RESP, TAG and STATUS. POP frees the head and counts FREED, or sets ERR; PUSH commits at
TAIL, or sets FULL. The status of a FEAT_ACCEPT with bits not offered is the model's choice (log entry 83). -/
def Obligations.host_ports_and_queues : Prop :=
    (∀ (l : LaneId) (f : HostFrame) (h : Fin 4), Does (.hostFrameRx l f)
      (fun L => L.rd Reg.PD_STATE_STATE_3 = 0 ∧ f.port = h.val ∧ L.portLive h = true ∧ (vget L.host h).rate.1 = L.el / 1000000000 ∧ 300 ≤ (vget L.host h).rate.2)
      (fun L M => M.rd (Reg.HQ_PCNT_RATE h.val) = min 255 (L.rd (Reg.HQ_PCNT_RATE h.val) + 1) ∧ M = { L with regs := M.regs } ∧ ∀ g : Fld, g.key ≠ (Reg.HQ_PCNT_RATE h.val).key → M.rd g = L.rd g)) ∧
    (∀ (l : LaneId) (f : HostFrame) (h : Fin 4), Does (.hostFrameRx l f)
      (fun L => L.rd Reg.PD_STATE_STATE_3 = 0 ∧ f.port = h.val ∧ L.portLive h = true ∧ ((vget L.host h).rate.1 ≠ L.el / 1000000000 ∨ (vget L.host h).rate.2 < 300) ∧ (f.magic ≠ hostMagic ∨ f.version ≠ 1 ∨ f.dirf ≠ 0 ∨ (L.portRec h).transport ≠ 0 ∨ (f.session ≠ 0 ∧ f.fcnt ≤ (vget L.host h).fcnt) ∨ (f.session ≠ 0 ∧ L.sessionOpen h = false)))
      (fun L M => M.rd (Reg.HQ_PCNT_REJ h.val) = min 255 (L.rd (Reg.HQ_PCNT_REJ h.val) + 1) % 256 ∧ M.rd (Reg.HQ_PCNT_ACC h.val) = L.rd (Reg.HQ_PCNT_ACC h.val) ∧ (vget M.host h).fcnt = (vget L.host h).fcnt ∧ M.queue = L.queue)) ∧
    (∀ (l : LaneId) (f : HostFrame) (h : Fin 4), Does (.hostFrameRx l f)
      (fun L => L.rd Reg.PD_STATE_STATE_3 = 0 ∧ f.port = h.val ∧ L.portLive h = true ∧ ((vget L.host h).rate.1 ≠ L.el / 1000000000 ∨ (vget L.host h).rate.2 < 300) ∧ f.magic = hostMagic ∧ f.version = 1 ∧ f.dirf = 0 ∧ f.descrs = [] ∧ (L.portRec h).transport = 0 ∧
        L.sessionOpen h = true ∧ f.session = (vget L.host h).session ∧ (vget L.host h).fcnt < f.fcnt ∧ f.session ≠ 0)
      (fun L M => if ed448Ok 0 (L.portRec h).cred (frameBytes f.magic f.version f.port f.dirf f.session f.fcnt f.freed.toList (f.descrs.map (·.2))) f.sig then
          M.rd (Reg.HQ_PCNT_ACC h.val) = (L.rd (Reg.HQ_PCNT_ACC h.val) + 1) % 65536 ∧ M.timerAt (.session h) = some L.el ∧ (vget M.host h).fcnt = f.fcnt ∧ M.sram = L.sram ∧
            M.out = L.out ∧ ((L.portRec h).kind = 0 → M.roles.hostSeen = true ∧ M.roles.hostLost = false)
        else M.rd (Reg.HQ_PCNT_REJ h.val) = min 255 (L.rd (Reg.HQ_PCNT_REJ h.val) + 1) % 256 ∧ M.rd (Reg.HQ_PCNT_ACC h.val) = L.rd (Reg.HQ_PCNT_ACC h.val) ∧ (vget M.host h).fcnt = (vget L.host h).fcnt ∧ M.queue = L.queue)) ∧
    (∀ (l : LaneId) (f : HostFrame), Does (.hostFrameRx l f)
      (fun L => L.rd Reg.PD_STATE_STATE_3 = 3)
      (fun L M => M.rd Reg.PD_STATE_STATE_3 = 4 ∧ (vget M.power.dom 3).fromState = 3 ∧ M.queue = L.queue ∧ M.host = L.host)) ∧
    (∀ (l : LaneId) (dt : Nat) (h : Fin 4), Does (.hostSessionTimeout l dt h)
      (fun L => L.sessionOpen h = true ∧ (L.pass dt).due (.session h) 1000000000 = true)
      (fun L M => M.rd (Reg.HQ_PORT_SESSION h.val) = 0 ∧ M.rd (Reg.HQ_PORT_ENGAGED h.val) = 0 ∧ (vget M.host h).session = 0 ∧ M.is (Reg.HQ_PORT_FLOCK h.val) = L.is (Reg.HQ_PORT_FLOCK h.val) ∧ vget M.isobus.peer h = none ∧ M.hostSet h = L.hostSet h)) ∧
    (∀ (l : LaneId) (k : HostCmd), Does (.hostFeatOffer l k)
      (fun L => L.portLive k.port = true ∧ L.sessionOpen k.port = true)
      (fun L M => if L.is Reg.SYS_FEAT_CTRL_LOCK = false then L.Answers M k 1 2 ([]) else if L.hostLocked k.port = true then L.Answers M k 1 0 (leBytes 16 (L.hostSet k.port) ++ [1])
        else L.Answers M k 1 0 (leBytes 16 (L.featSet ||| 0x81 ||| (if L.perm k.port 7 then 2 ^ 8 else 0) ||| (if L.perm k.port 6 then 2 ^ 10 else 0) ||| (if L.perm k.port 2 && decide ((L.portRec k.port).transport = 2) then 2 ^ 9 else 0)) ++ [0]))) ∧
    (∀ (l : LaneId) (k : HostCmd) (v : BitVec 128), Does (.hostFeatAccept l k v)
      (fun L => L.portLive k.port = true ∧ L.sessionOpen k.port = true ∧ (L.is Reg.SYS_FEAT_CTRL_LOCK = false ∨ L.hostLocked k.port = true))
      (fun L M => if L.is Reg.SYS_FEAT_CTRL_LOCK = false then L.Answers M k 2 2 ([]) else if v.toNat = L.hostSet k.port then L.Answers M k 2 0 ([]) else L.Answers M k 2 4 ([]))) ∧
    (∀ (l : LaneId) (k : HostCmd) (v : BitVec 128), Does (.hostFeatAccept l k v)
      (fun L => L.portLive k.port = true ∧ L.sessionOpen k.port = true ∧ L.is Reg.SYS_FEAT_CTRL_LOCK = true ∧ L.hostLocked k.port = false ∧ v.getLsbD 0 = true ∧ Nat.land v.toNat (L.offerTo k.port) = v.toNat)
      (fun L M => M.hostLocked k.port = true ∧ M.hostSet k.port = v.toNat ∧ M.rd (Reg.HQ_PORT_SESSION k.port.val) = L.rd (Reg.HQ_PORT_SESSION k.port.val) ∧
        (∀ q : Fin 16, L.replyQueue k.port = some q → L.queueFree q = true →
          M.sramBytes (L.slotAddr q (vget L.queue q).next) 64 = descrBytes ⟨2, 1, k.tag % 65536, (vget L.queue q).next, 0, List.replicate 48 0⟩))) ∧
    (∀ (l : LaneId) (k : HostCmd) (v : BitVec 128), Does (.hostFeatAccept l k v)
      (fun L => L.portLive k.port = true ∧ L.sessionOpen k.port = true ∧ L.is Reg.SYS_FEAT_CTRL_LOCK = true ∧ L.hostLocked k.port = false ∧ (v.getLsbD 0 = false ∨ Nat.land v.toNat (L.offerTo k.port) ≠ v.toNat))
      (fun L M => L.Answers M k 2 9 ([]))) ∧
    (∀ (l : LaneId) (k : HostCmd), Does (.hostChallenge l k)
      (fun L => L.portLive k.port = true)
      (fun L M => (vget M.host k.port).nonce = some (L.free .nonce % 2 ^ 256) ∧ M.timerAt (.nonce k.port) = some L.el ∧ M.rd (Reg.HQ_PORT_SESSION k.port.val) = (if L.sessionOpen k.port then 2 else 1) ∧ M.draws = L.draws + 1 ∧
        (∀ q : Fin 16, L.replyQueue k.port = some q → L.queueFree q = true →
          M.sramBytes (L.slotAddr q (vget L.queue q).next) 64 = descrBytes ⟨3, 1, k.tag % 65536, (vget L.queue q).next, 0, leBytes 32 (L.free .nonce % 2 ^ 256) ++ List.replicate 16 0⟩))) ∧
    (∀ (l : LaneId) (k : HostCmd) (n : Nat) (sig : List Byte), Does (.hostOpen l k n sig)
      (fun L => L.portLive k.port = true ∧ (vget L.host k.port).nonce = some n ∧ L.running (.nonce k.port) = true ∧ L.due (.nonce k.port) 10000000001 = false ∧
        (∀ q : Fin 16, (vget L.img.queue q).port = (k.port).val → L.rd (Reg.HQ_BASE q.val) ≠ 0))
      (fun L M => if (L.portRec k.port).transport = 0 ∨ ed448Ok 0 (L.portRec k.port).cred (leBytes 32 n ++ leBytes 1 k.port.val) sig = true then
          M.sessionOpen k.port = true ∧ (vget M.host k.port).nonce = none ∧ (vget M.host k.port).session = n % 2 ^ 64 ∧ (vget M.host k.port).fcnt = 0 ∧
            M.rd (Reg.HQ_PORT_ENGAGED k.port.val) = 0 ∧ M.timerAt (.session k.port) = some L.el ∧ M.running (.nonce k.port) = false
        else L.Answers M k 4 8 ([]))) ∧
    (∀ (l : LaneId) (k : HostCmd) (n : Nat) (sig : List Byte), Does (.hostOpen l k n sig)
      (fun L => L.portLive k.port = true ∧ ((vget L.host k.port).nonce ≠ some n ∨ L.running (.nonce k.port) = false ∨ L.due (.nonce k.port) 10000000001 = true))
      (fun L M => L.Answers M k 4 8 ([]))) ∧
    (∀ (l : LaneId) (k : HostCmd), Does (.hostHeartbeat l k)
      (fun L => L.Admits k.port none none none)
      (fun L M => M.timerAt (.session k.port) = some L.el ∧ (L.restart (.session k.port)).Answers M k 5 0 ([]))) ∧
    (∀ (l : LaneId) (q : Fin 16) (d : Descr) (r : List Descr), Does (.hqPop l q)
      (fun L => (vget L.img.queue q).port ≠ 255 ∧ (vget L.img.queue q).dir = 0 ∧ (vget L.queue q).slots = d :: r)
      (fun L M => vget M.queue q = { vget L.queue q with slots := r, done := ((vget L.queue q).done + 1) % 65536 } ∧ M.rd (Reg.HQ_STAT_USED q.val) = (L.rd (Reg.HQ_STAT_USED q.val) - 1) % 512 ∧
        M.rd (Reg.HQ_PTR_HEAD q.val) = ((r.head?.map (·.index)).getD (vget L.queue q).next) % 65536 ∧ M = { L with regs := M.regs, queue := M.queue } ∧ (∀ p : Fin 16, p ≠ q → vget M.queue p = vget L.queue p) ∧
        ∀ g : Fld, g.key ≠ (Reg.HQ_STAT_USED q.val).key → g.key ≠ (Reg.HQ_PTR_HEAD q.val).key → M.rd g = L.rd g)) ∧
    (∀ (l : LaneId) (q : Fin 16), Does (.hqPop l q)
      (fun L => (vget L.img.queue q).port ≠ 255 ∧ (vget L.img.queue q).dir = 0 ∧ (vget L.queue q).slots = [])
      (fun L M => M.is (Reg.HQ_STAT_ERR q.val) = true ∧ M = { L with regs := M.regs } ∧ ∀ g : Fld, g.key ≠ (Reg.HQ_STAT_ERR q.val).key → M.rd g = L.rd g)) ∧
    (∀ (l : LaneId) (q : Fin 16), Does (.hqPush l q)
      (fun L => (vget L.img.queue q).port ≠ 255 ∧ (vget L.img.queue q).dir = 1)
      (fun L M => if L.queueFree q = true then L.Commits M q { descrOf (L.sramBytes (L.slotAddr q (vget L.queue q).next) 64) with index := (vget L.queue q).next } else L.CommitsNot M q))

/-- A command of an open session is NOT_NEGOTIATED before the set is locked, UNKNOWN without its feature, DENIED without its
permission and FEATURE_SPLIT where the active lane holds another set. ENGAGE is REFUSED in Autumn or Winter and NOT_AUTHORITY
for a kind without a rank; a setpoint needs VALID from 10 to 1000, a rank and an engagement; ARM, STATUS_GET, FAULT_GET,
ATTEST_REQ, TIME_JUMP, AUTUMN_CLR, TEST and the power commands act and are answered. -/
def Obligations.host_commands : Prop :=
    (∀ (l : LaneId) (k : HostCmd), Does (.hostStatusGet l k)
      (fun L => L.portLive k.port = true ∧ L.sessionOpen k.port = true ∧ (L.hostLocked k.port = false ∨ L.perm k.port 5 = false))
      (fun L M => if L.hostLocked k.port = true then L.Answers M k 32 6 ([]) else L.Answers M k 32 3 ([]))) ∧
    (∀ (l : LaneId) (k : HostCmd), Does (.hostStatusGet l k)
      (fun L => L.sessionOpen k.port = false)
      (fun L M => M = L)) ∧
    (∀ (l : LaneId) (k : HostCmd) (n : Nat), Does (.hostAttestReq l k n)
      (fun L => L.portLive k.port = true ∧ L.sessionOpen k.port = true ∧ L.hostLocked k.port = true ∧ nbit (L.hostSet k.port) 10 = false)
      (fun L M => L.Answers M k 48 1 ([]))) ∧
    (∀ (l : LaneId) (k : HostCmd) (f : Func), Does (.hostEngage l k f.code)
      (fun L => L.portLive k.port = true ∧ L.sessionOpen k.port = true ∧ L.hostLocked k.port = true ∧ L.perm k.port ((permOf f).getD 31) = true ∧ L.hostSplit k.port f = true)
      (fun L M => L.Answers M k 16 5 ([]))) ∧
    (∀ (l : LaneId) (k : HostCmd) (f : Func), Does (.hostEngage l k f.code)
      (fun L => L.Admits k.port none (some ((permOf f).getD 31)) (some f) ∧ (L.mode f ≠ 0 ∨ L.ranked k.port f = false))
      (fun L M => if L.mode f ≠ 0 then L.Answers M k 16 8 ([]) else L.Answers M k 16 7 ([]))) ∧
    (∀ (l : LaneId) (k : HostCmd) (f : Func), Does (.hostEngage l k f.code)
      (fun L => L.Admits k.port none (some ((permOf f).getD 31)) (some f) ∧ L.mode f = 0 ∧ L.ranked k.port f = true)
      (fun L M => M.engagedFor k.port f = true ∧ (∀ g : Func, g ≠ f → M.engagedFor k.port g = L.engagedFor k.port g) ∧ (L.wrBit (Reg.HQ_PORT_ENGAGED k.port.val) f.code true).Answers M k 16 0 ([]))) ∧
    (∀ (l : LaneId) (k : HostCmd) (n : Nat), Does (.hostEngage l k n)
      (fun L => L.Admits k.port none none none ∧ 5 ≤ n)
      (fun L M => L.Answers M k 16 9 ([]))) ∧
    (∀ (l : LaneId) (k : HostCmd) (f : Func), Does (.hostDisengage l k f.code)
      (fun L => L.Admits k.port none (some ((permOf f).getD 31)) (some f))
      (fun L M => M.engagedFor k.port f = false ∧ (∀ g : Func, g ≠ f → M.engagedFor k.port g = L.engagedFor k.port g) ∧ (L.wrBit (Reg.HQ_PORT_ENGAGED k.port.val) f.code false).Answers M k 17 0 ([]))) ∧
    (∀ (l : LaneId) (k : HostCmd) (v : Word) (n : Nat), Does (.hostSteerSet l k v n)
      (fun L => L.Admits k.port none (some 0) (some .steer) ∧ 10 ≤ n ∧ n ≤ 1000 ∧ L.ranked k.port .steer = true ∧ L.engagedFor k.port .steer = true ∧ L.rd (Reg.HQ_AUTH_SEL 0) = 0)
      (fun L M => ((vget (vget M.host k.port).setpoints (Func.ix .steer)).head?) = some ⟨v, n, L.el⟩ ∧ (∀ h : Fin 4, h ≠ k.port → vget M.host h = vget L.host h) ∧
        (if L.running (.answer k.port) = true ∧ L.due (.answer k.port) 100000000 = false then M = { L with host := M.host } else M.timerAt (.answer k.port) = some L.el ∧ (∀ q : Fin 16, L.replyQueue k.port = some q → L.queueFree q = true →
          M.sramBytes (L.slotAddr q (vget L.queue q).next) 64 = descrBytes ⟨18, 1, k.tag % 65536, (vget L.queue q).next, 0, List.replicate 48 0⟩)))) ∧
    (∀ (l : LaneId) (k : HostCmd) (v : Word) (n : Nat), Does (.hostSteerSet l k v n)
      (fun L => L.Admits k.port none (some 0) (some .steer) ∧ (n < 10 ∨ 1000 < n))
      (fun L M => L.Answers M k 18 9 ([]))) ∧
    (∀ (l : LaneId) (k : HostCmd) (v : Word) (n : Nat), Does (.hostSteerSet l k v n)
      (fun L => L.Admits k.port none (some 0) (some .steer) ∧ 10 ≤ n ∧ n ≤ 1000 ∧ (L.ranked k.port .steer = false ∨ L.engagedFor k.port .steer = false))
      (fun L M => L.Answers M k 18 7 ([]))) ∧
    (∀ (l : LaneId) (k : HostCmd) (v : Word) (n : Nat), Does (.hostSteerSet l k v n)
      (fun L => L.Admits k.port none (some 0) (some .steer) ∧ 10 ≤ n ∧ n ≤ 1000 ∧ L.ranked k.port .steer = true ∧ L.engagedFor k.port .steer = true ∧ L.rd (Reg.HQ_AUTH_SEL 0) ≠ 0 ∧ kindRank (L.portRec k.port).kind ≠ some (L.rd (Reg.HQ_AUTH_SEL 0)))
      (fun L M => ((vget (vget M.host k.port).setpoints (Func.ix .steer)).head?) = some ⟨v, n, L.el⟩ ∧ (∀ q : Fin 16, L.replyQueue k.port = some q → L.queueFree q = true →
          M.sramBytes (L.slotAddr q (vget L.queue q).next) 64 = descrBytes ⟨18, 1, k.tag % 65536, (vget L.queue q).next, 7, List.replicate 48 0⟩))) ∧
    (∀ (l : LaneId) (k : HostCmd) (v : Word) (n : Nat), Does (.hostBrakeSet l k v n)
      (fun L => L.Admits k.port none (some 1) (some .brake) ∧ 10 ≤ n ∧ n ≤ 1000 ∧ L.ranked k.port .brake = true ∧ L.engagedFor k.port .brake = true)
      (fun L M => ((vget (vget M.host k.port).setpoints (Func.ix .brake)).head?) = some ⟨v, n, L.el⟩ ∧ (∀ h : Fin 4, h ≠ k.port → vget M.host h = vget L.host h) ∧
        (if L.running (.answer k.port) = true ∧ L.due (.answer k.port) 100000000 = false then M = { L with host := M.host } else M.timerAt (.answer k.port) = some L.el ∧ (∀ q : Fin 16, L.replyQueue k.port = some q → L.queueFree q = true →
          M.sramBytes (L.slotAddr q (vget L.queue q).next) 64 = descrBytes ⟨19, 1, k.tag % 65536, (vget L.queue q).next, 0, List.replicate 48 0⟩)))) ∧
    (∀ (l : LaneId) (k : HostCmd) (v : Word) (n : Nat), Does (.hostBrakeSet l k v n)
      (fun L => L.Admits k.port none (some 1) (some .brake) ∧ (n < 10 ∨ 1000 < n))
      (fun L M => L.Answers M k 19 9 ([]))) ∧
    (∀ (l : LaneId) (k : HostCmd) (v : Word) (n : Nat), Does (.hostBrakeSet l k v n)
      (fun L => L.Admits k.port none (some 1) (some .brake) ∧ 10 ≤ n ∧ n ≤ 1000 ∧ (L.ranked k.port .brake = false ∨ L.engagedFor k.port .brake = false))
      (fun L M => L.Answers M k 19 7 ([]))) ∧
    (∀ (l : LaneId) (k : HostCmd) (v : Word) (n : Nat), Does (.hostTrailSet l k v n)
      (fun L => L.Admits k.port none (some 2) (some .trail) ∧ 10 ≤ n ∧ n ≤ 1000 ∧ L.ranked k.port .trail = true ∧ L.engagedFor k.port .trail = true)
      (fun L M => ((vget (vget M.host k.port).setpoints (Func.ix .trail)).head?) = some ⟨v, n, L.el⟩ ∧ (∀ h : Fin 4, h ≠ k.port → vget M.host h = vget L.host h) ∧
        (if L.running (.answer k.port) = true ∧ L.due (.answer k.port) 100000000 = false then M = { L with host := M.host } else M.timerAt (.answer k.port) = some L.el ∧ (∀ q : Fin 16, L.replyQueue k.port = some q → L.queueFree q = true →
          M.sramBytes (L.slotAddr q (vget L.queue q).next) 64 = descrBytes ⟨20, 1, k.tag % 65536, (vget L.queue q).next, 0, List.replicate 48 0⟩)))) ∧
    (∀ (l : LaneId) (k : HostCmd) (v : Word) (n : Nat), Does (.hostTrailSet l k v n)
      (fun L => L.Admits k.port none (some 2) (some .trail) ∧ (n < 10 ∨ 1000 < n))
      (fun L M => L.Answers M k 20 9 ([]))) ∧
    (∀ (l : LaneId) (k : HostCmd) (v : Word) (n : Nat), Does (.hostTrailSet l k v n)
      (fun L => L.Admits k.port none (some 2) (some .trail) ∧ 10 ≤ n ∧ n ≤ 1000 ∧ (L.ranked k.port .trail = false ∨ L.engagedFor k.port .trail = false))
      (fun L M => L.Answers M k 20 7 ([]))) ∧
    (∀ (l : LaneId) (k : HostCmd) (v : Nat), Does (.hostParkSet l k v)
      (fun L => L.Admits k.port none (some 3) (some .park) ∧ v ≤ 1 ∧ L.ranked k.port .park = true ∧ L.engagedFor k.port .park = true)
      (fun L M => ((vget (vget M.host k.port).setpoints Func.park.ix).head?) = some ⟨BitVec.ofNat 32 v, 0, L.el⟩ ∧ M.timers = L.timers ∧ (∀ q : Fin 16, L.replyQueue k.port = some q → L.queueFree q = true →
          M.sramBytes (L.slotAddr q (vget L.queue q).next) 64 = descrBytes ⟨21, 1, k.tag % 65536, (vget L.queue q).next, 0, List.replicate 48 0⟩))) ∧
    (∀ (l : LaneId) (k : HostCmd) (v : Nat), Does (.hostParkSet l k v)
      (fun L => L.Admits k.port none (some 3) (some .park) ∧ (2 ≤ v ∨ L.ranked k.port .park = false ∨ L.engagedFor k.port .park = false))
      (fun L M => if 2 ≤ v then L.Answers M k 21 9 ([]) else L.Answers M k 21 7 ([]))) ∧
    (∀ (l : LaneId) (k : HostCmd), Does (.hostArm l k)
      (fun L => L.Admits k.port none (some 4) none ∧ L.img.start.armMode = 1 ∧ L.mayArm = true)
      (fun L M => M.rd Reg.SYS_ARM_STEP = 1 ∧ M.rd Reg.SYS_STATE_CAUSE = 0 ∧ M.timerAt .precharge = some L.el ∧ M.svc = 2 ∧ (((L.wr Reg.SYS_STATE_CAUSE 0).wr Reg.SYS_ARM_STEP 1).restart .precharge).Answers M k 22 0 ([]))) ∧
    (∀ (l : LaneId) (k : HostCmd), Does (.hostArm l k)
      (fun L => L.Admits k.port none (some 4) none ∧ L.img.start.armMode ≠ 1)
      (fun L M => L.Answers M k 22 8 ([]))) ∧
    (∀ (l : LaneId) (k : HostCmd), Does (.hostArm l k)
      (fun L => L.Admits k.port none (some 4) none ∧ L.img.start.armMode = 1 ∧ L.mayArm = false)
      (fun L M => M.is Reg.SYS_ARM_REFUSED = true ∧ M.rd Reg.SYS_ARM_STEP = L.rd Reg.SYS_ARM_STEP ∧ M.svc = L.svc ∧ (∀ q : Fin 16, L.replyQueue k.port = some q → L.queueFree q = true →
          M.sramBytes (L.slotAddr q (vget L.queue q).next) 64 = descrBytes ⟨22, 1, k.tag % 65536, (vget L.queue q).next, 8, List.replicate 48 0⟩))) ∧
    (∀ (l : LaneId) (k : HostCmd), Does (.hostStatusGet l k)
      (fun L => L.Admits k.port none (some 5) none)
      (fun L M => L.Answers M k 32 0 (L.regBytes Reg.SYS_STATE_STATE.reg ++ (List.range 5).flatMap (fun f => L.regBytes (Reg.ROLE_FUNC_ROLE f).reg) ++ (List.range 5).flatMap (fun f => L.regBytes (Reg.HQ_AUTH_SEL f).reg)))) ∧
    (∀ (l : LaneId) (k : HostCmd), Does (.hostFaultGet l k)
      (fun L => L.Admits k.port none (some 5) none)
      (fun L M => L.Answers M k 33 0 (L.regBytes Reg.FC_STATUS_SUMMARY.reg ++ L.regBytes Reg.FC_PEND.reg))) ∧
    (∀ (l : LaneId) (k : HostCmd) (n : Nat) (q : Fin 16), Does (.hostAttestReq l k n)
      (fun L => L.Admits k.port (some 10) (some 6) none ∧ L.replyQueue k.port = some q ∧ L.rd (Reg.HQ_STAT_USED q.val) + 6 ≤ L.effDepth q ∧ L.effDepth q < 512 ∧ L.sec.idUsable = true ∧ (vget L.queue q).next < 2 ^ 32 - 6 ∧ L.queueTransport q ≠ 2)
      (fun L M => (vget M.queue q).next = (vget L.queue q).next + 6 ∧ M.rd (Reg.HQ_STAT_USED q.val) = L.rd (Reg.HQ_STAT_USED q.val) + 6 ∧
        ∀ p : Fin 6, M.sramBytes (L.slotAddr q ((vget L.queue q).next + p.val)) 64 =
          descrBytes ⟨48, 1, k.tag % 65536, (vget L.queue q).next + p.val, 0, (leBytes 1 p.val ++ leBytes 3 0 ++ ((L.evidence n).drop (44 * p.val)).take 44)⟩)) ∧
    (∀ (l : LaneId) (k : HostCmd) (n : Nat), Does (.hostAttestReq l k n)
      (fun L => L.Admits k.port (some 10) (some 6) none ∧ L.sec.idUsable = false)
      (fun L M => L.Answers M k 48 8 ([]))) ∧
    (∀ (l : LaneId) (k : HostCmd) (a : Nat), Does (.hostTimeJump l k a)
      (fun L => L.Admits k.port none (some 10) none ∧ 1 ≤ a ∧ a ≤ 3 ∧ ((a = 3 ∧ L.rd Reg.TS_STAT_DISC = 6) ∨ (a ≠ 3 ∧ L.rd Reg.TS_STAT_DISC = 5)))
      (fun L M => M.rd Reg.TS_STAT_DISC = (if L.isLeader = true then (if a = 1 then 2 else if a = 2 then 6 else 1) else L.rd Reg.TS_STAT_DISC) ∧ M.time.request = (if L.isLeader = true then L.time.request else a) ∧
        (L.isLeader = true → a = 2 → M.time.rejected = L.time.followed) ∧ (∀ q : Fin 16, L.replyQueue k.port = some q → L.queueFree q = true →
          M.sramBytes (L.slotAddr q (vget L.queue q).next) 64 = descrBytes ⟨64, 1, k.tag % 65536, (vget L.queue q).next, 0, List.replicate 48 0⟩))) ∧
    (∀ (l : LaneId) (k : HostCmd) (a : Nat), Does (.hostTimeJump l k a)
      (fun L => L.Admits k.port none (some 10) none ∧ ¬(1 ≤ a ∧ a ≤ 3 ∧ ((a = 3 ∧ L.rd Reg.TS_STAT_DISC = 6) ∨ (a ≠ 3 ∧ L.rd Reg.TS_STAT_DISC = 5))))
      (fun L M => if 1 ≤ a ∧ a ≤ 3 then M.is Reg.TS_JUMP_NOPEND = true ∧ (L.set1 Reg.TS_JUMP_NOPEND).Answers M k 64 8 ([]) else L.Answers M k 64 9 ([]))) ∧
    (∀ (l : LaneId) (k : HostCmd) (m : Nat), Does (.hostAutumnClr l k m)
      (fun L => L.Admits k.port none (some 8) none)
      (fun L M => if 31 < m then L.Answers M k 65 9 ([]) else if L.svc ≠ 2 then L.Answers M k 65 8 ([])
        else (∀ f : Func, vget M.ret.autumn f.ix = if nbit m f.code then ⟨false, 0⟩ else vget L.ret.autumn f.ix) ∧ ({ L with ret := { L.ret with autumn := M.ret.autumn } } : Lane).Answers M k 65 0 ([]))) ∧
    (∀ (l : LaneId) (k : HostCmd), Does (.hostTest l k)
      (fun L => L.Admits k.port none (some 8) none ∧ L.svc = 2 ∧ L.lifecycle ≤ 1 ∧ L.parkOff = true ∧ (L.peers.all (fun p => p.2.parkOff)) = true)
      (fun L M => M.svc = 8 ∧ M.gstate = (if L.rd Reg.SYS_ARM_STEP = 0 then L.gstate else 0) ∧ M.rd Reg.SYS_ARM_STEP = 0)) ∧
    (∀ (l : LaneId) (k : HostCmd), Does (.hostTest l k)
      (fun L => L.Admits k.port none (some 8) none ∧ (L.svc ≠ 2 ∨ 1 < L.lifecycle ∨ L.parkOff = false))
      (fun L M => L.Answers M k 66 8 ([]))) ∧
    (∀ (l : LaneId) (k : HostCmd) (d t : Nat), Does (.hostPdEnter l k d t)
      (fun L => L.Admits k.port none (some 9) none ∧ (7 < d ∨ t = 0 ∨ 2 < t))
      (fun L M => L.Answers M k 80 9 ([]))) ∧
    (∀ (l : LaneId) (k : HostCmd) (d : Fin 8) (t : Nat), Does (.hostPdEnter l k d.val t)
      (fun L => L.Admits k.port none (some 9) none ∧ 1 ≤ t ∧ t ≤ 2 ∧ L.is Reg.PD_REQ_BUSY = true)
      (fun L M => L.Answers M k 80 8 (leBytes 1 20 ++ leBytes 1 0))) ∧
    (∀ (l : LaneId) (k : HostCmd) (d : Fin 8) (t : Nat), Does (.hostPdEnter l k d.val t)
      (fun L => L.Admits k.port none (some 9) none ∧ 1 ≤ t ∧ t ≤ 2 ∧ L.is Reg.PD_REQ_BUSY = false ∧ L.pdRefusal d t k.port.val = none)
      (fun L M => M.is Reg.PD_REQ_BUSY = true ∧ M.rd (Lane.pdFld d) = 1 ∧ M.power.request = some (d, t) ∧ M.power.asker = some (k, 80) ∧ (vget M.power.dom d).step = 1 ∧ (vget M.power.dom d).target = t ∧
        M.rd Reg.PD_REQ_DOM = d.val ∧ M.rd Reg.PD_REQ_TARGET = t ∧ M.rd Reg.PD_REQ_ORIGIN = k.port.val ∧ M.queue = L.queue ∧ M.out = L.out)) ∧
    (∀ (l : LaneId) (k : HostCmd) (d : Fin 8) (t w : Nat), Does (.hostPdEnter l k d.val t)
      (fun L => L.Admits k.port none (some 9) none ∧ 1 ≤ t ∧ t ≤ 2 ∧ L.is Reg.PD_REQ_BUSY = false ∧ L.pdRefusal d t k.port.val = some w)
      (fun L M => M.is Reg.PD_REQ_BUSY = false ∧ M.is Reg.PD_REQ_DONE = true ∧ M.rd Reg.PD_REQ_RESULT = 1 ∧ M.rd Reg.PD_REQ_WHO = w ∧ M.rd (Lane.pdFld d) = L.rd (Lane.pdFld d) ∧ M.power.asker = none ∧
        (∀ q : Fin 16, L.replyQueue k.port = some q → L.queueFree q = true →
          M.sramBytes (L.slotAddr q (vget L.queue q).next) 64 = descrBytes ⟨80, 1, k.tag % 65536, (vget L.queue q).next, (if w = 3 then 6 else 8), if w = 3 then List.replicate 48 0 else leBytes 1 w ++ leBytes 1 0 ++ List.replicate 46 0⟩))) ∧
    (∀ (l : LaneId) (k : HostCmd) (d : Nat), Does (.hostPdWake l k d)
      (fun L => L.Admits k.port none (some 9) none ∧ 7 < d)
      (fun L M => L.Answers M k 81 9 ([]))) ∧
    (∀ (l : LaneId) (k : HostCmd) (d : Fin 8), Does (.hostPdWake l k d.val)
      (fun L => L.Admits k.port none (some 9) none ∧ (L.bitOf (Reg.PD_POLICY_HOST_MASK d.val) k.port.val = false ∨ L.is Reg.PD_REQ_BUSY = true))
      (fun L M => if L.bitOf (Reg.PD_POLICY_HOST_MASK d.val) k.port.val = false then L.Answers M k 81 6 ([]) else L.Answers M k 81 8 (leBytes 1 20 ++ leBytes 1 0))) ∧
    (∀ (l : LaneId) (k : HostCmd) (d : Fin 8), Does (.hostPdWake l k d.val)
      (fun L => L.Admits k.port none (some 9) none ∧ L.bitOf (Reg.PD_POLICY_HOST_MASK d.val) k.port.val = true ∧ L.is Reg.PD_REQ_BUSY = false)
      (fun L M => if L.rd (Lane.pdFld d) = 0 then M.is Reg.PD_REQ_BUSY = false ∧ M.is Reg.PD_REQ_DONE = true ∧ M.rd Reg.PD_REQ_RESULT = 0 ∧ M.power.asker = none ∧ (∀ q : Fin 16, L.replyQueue k.port = some q → L.queueFree q = true →
          M.sramBytes (L.slotAddr q (vget L.queue q).next) 64 = descrBytes ⟨81, 1, k.tag % 65536, (vget L.queue q).next, 0, List.replicate 48 0⟩)
        else M.is Reg.PD_REQ_BUSY = true ∧ M.power.request = some (d, 0) ∧ M.power.asker = some (k, 81) ∧ M.queue = L.queue ∧
          (L.rd (Lane.pdFld d) = 2 ∨ L.rd (Lane.pdFld d) = 3 → M.rd (Lane.pdFld d) = 4))) ∧
    (∀ (l : LaneId) (k : HostCmd), Does (.hostPdStatus l k)
      (fun L => L.Admits k.port none (some 9) none)
      (fun L M => L.Answers M k 82 0 (L.regBytes Reg.PD_STATE_STATE_0.reg))) ∧
    (∀ (l : LaneId) (k : HostCmd), Does (.hostPdAcctGet l k)
      (fun L => L.Admits k.port none (some 9) none)
      (fun L M => L.Answers M k 83 0 ((List.range 8).flatMap (fun d => L.regBytes (Reg.PD_ACCT_COUNT d).reg))))

/-- A claim of a lower NAME on its address makes the lane claim the lowest free one of 128 to 247, another one is answered by
its claim; Commanded Address claims an address of 128 to 247. A Request is answered as the group asks, or by a negative
Acknowledgement. A trailer-brake request outside its range, or without ISO_TBRAKE, counts DISC. DM1 (its bytes and BAM as log
entry 89 has them) and the steering state go out in their periods. A CTS is answered by that many packets at most. Bus-off sets
source 393, a lost Ethernet link source 392, and it ends asCapable (log entry 39). RTS is answered by CTS or Abort. V5OUT is off
for 10 ms after a shutdown. -/
def Obligations.isobus_and_ethernet : Prop :=
    (∀ (l : LaneId) (src name : Nat), Does (.isobusAddressClaimedRx l src name true)
      (fun L => L.isoOn = true)
      (fun L M => M.out = L.out ++ [.isobus 0xEE00 0xFF (leBytes 8 (isoName L.id))] ∧ M = { L with out := M.out })) ∧
    (∀ (l : LaneId) (src name : Nat), Does (.isobusAddressClaimedRx l src name false)
      (fun L => L.isoOn = true ∧ (L.is Reg.IB_STAT_CLAIMED = false ∨ src ≠ L.isoAddr))
      (fun L M => M = { L with isobus := { L.isobus with heard := M.isobus.heard } } ∧ M.isobus.heard.head? = some (src, name) ∧ (∀ e ∈ L.isobus.heard, e.1 ≠ src → e.2 ≠ name → e ∈ M.isobus.heard))) ∧
    (∀ (l : LaneId) (name : Nat), Does (.isobusAddressClaimedRx l 0x90 name false)
      (fun L => L.isoOn = true ∧ L.is Reg.IB_STAT_CLAIMED = true ∧ L.isoAddr = 0x90 ∧ isoName L.id ≤ name)
      (fun L M => M.isoAddr = 0x90 ∧ M.is Reg.IB_STAT_CLAIMED = true ∧ M.out = L.out ++ [.isobus 0xEE00 0xFF (leBytes 8 (isoName L.id))])) ∧
    (∀ (l : LaneId) (name : Nat), Does (.isobusAddressClaimedRx l 0x90 name false)
      (fun L => L.isoOn = true ∧ L.is Reg.IB_STAT_CLAIMED = true ∧ L.isoAddr = 0x90 ∧ name < isoName L.id ∧ L.isobus.heard = [])
      (fun L M => M.isoAddr = 128 ∧ M.is Reg.IB_STAT_CLAIMED = true ∧ M.out = L.out ++ [.isobus 0xEE00 0xFF (leBytes 8 (isoName L.id))])) ∧
    (∀ (l : LaneId) (name a : Nat), Does (.isobusCommandedAddress l name a)
      (fun L => L.isoOn = true)
      (fun L M => if name = isoName L.id ∧ 128 ≤ a ∧ a ≤ 247 then M.isoAddr = a ∧ M.is Reg.IB_STAT_CLAIMED = true ∧ M.out = L.out ++ [.isobus 0xEE00 0xFF (leBytes 8 (isoName L.id))] else M = L)) ∧
    (∀ (l : LaneId) (src dst pgn : Nat), Does (.isobusRequestRx l src dst pgn)
      (fun L => L.isoOn = true ∧ (dst = L.isoAddr ∨ dst = 0xFF) ∧ pgn = 0xEE00)
      (fun L M => M.out = L.out ++ [.isobus 0xEE00 0xFF (leBytes 8 (isoName L.id))] ∧ M.regs = L.regs)) ∧
    (∀ (l : LaneId) (src dst pgn : Nat), Does (.isobusRequestRx l src dst pgn)
      (fun L => L.isoOn = true ∧ L.is Reg.IB_STAT_CLAIMED = true ∧ (dst = L.isoAddr ∨ dst = 0xFF) ∧ pgn = 0xFECA)
      (fun L M => M.out = L.out ++ broadcastFrames 0xFECA L.dm1Bytes ∧ M.regs = L.regs)) ∧
    (∀ (l : LaneId) (src dst pgn : Nat), Does (.isobusRequestRx l src dst pgn)
      (fun L => L.isoOn = true ∧ L.is Reg.IB_STAT_CLAIMED = true ∧ dst = L.isoAddr ∧ pgn ∉ [0xEE00, 0xFECA, 0xFECB, 0xFEDA, 0xFDC5, 0xEA00, 0xE800, 0xFED8, 0xEC00, 0xEB00, 0xEF00, 0xFF61])
      (fun L M => M.out = L.out ++ [.isobus 0xE800 src ([1, 0xFF, 0xFF, 0xFF] ++ leBytes 1 src ++ leBytes 3 pgn)] ∧ M = { L with out := M.out })) ∧
    (∀ (l : LaneId) (src d v : Nat) (e : Bool) (h : Fin 4), Does (.trailerBrakeRequest l src d v e)
      (fun L => L.isoOn = true ∧ L.firmware = true ∧ L.portOfKind 2 = some h ∧ (L.hostHas h 9 = false ∨ 1000 < d ∨ v < 1 ∨ 100 < v ∨ L.sessionOpen h = false ∨ vget L.isobus.peer h ≠ some src))
      (fun L M => M.rd Reg.IB_CNT_DISC = min 65535 (L.rd Reg.IB_CNT_DISC + 1) ∧ M = { L with regs := M.regs } ∧ ∀ g : Fld, g.key ≠ Reg.IB_CNT_DISC.key → M.rd g = L.rd g)) ∧
    (∀ (l : LaneId) (src d v : Nat) (e : Bool) (h : Fin 4) (q : Fin 16), Does (.trailerBrakeRequest l src d v e)
      (fun L => L.isoOn = true ∧ L.firmware = true ∧ L.portOfKind 2 = some h ∧ L.hostHas h 9 = true ∧ d ≤ 1000 ∧ 1 ≤ v ∧ v ≤ 100 ∧ L.sessionOpen h = true ∧ vget L.isobus.peer h = some src ∧ (L.queuesOf h 0).head? = some q ∧ L.rd (Reg.HQ_STAT_USED q.val) + 2 ≤ L.effDepth q)
      (fun L M => M.rd Reg.IB_CNT_TBR = (L.rd Reg.IB_CNT_TBR + 1) % 65536 ∧ M.rd Reg.IB_CNT_DISC = L.rd Reg.IB_CNT_DISC ∧
        (((vget M.queue q).slots.drop (vget L.queue q).slots.length).map (·.op)) = [if e then 0x10 else 0x11, 0x14] ∧ M.timerAt (.session h) = some L.el)) ∧
    (∀ (l : LaneId) (h : Fin 4) (src n : Nat) (sig : List Byte), Does (.isobusOpenMessage l h src n sig)
      (fun L => L.isoOn = true ∧ L.portLive h = true ∧ L.isobus.tpRx = none ∧ L.is Reg.IB_STAT_CLAIMED = true ∧ (L.portRec h).transport = 2 ∧ L.nonceOk h n = true ∧ L.ringsSet h = true)
      (fun L M => if ed448Ok 0 (L.portRec h).cred (leBytes 32 n ++ leBytes 1 h.val) sig = true then
          M.sessionOpen h = true ∧ vget M.isobus.peer h = some src ∧ (vget M.host h).nonce = none ∧ (vget M.host h).session = n % 2 ^ 64
        else L.Answers M ⟨h, 0⟩ 4 8 [])) ∧
    (∀ (l : LaneId) (h : Fin 4) (src n : Nat) (sig : List Byte), Does (.isobusOpenMessage l h src n sig)
      (fun L => L.isoOn = true ∧ L.portLive h = true ∧ L.is Reg.IB_STAT_CLAIMED = true ∧ (L.portRec h).transport = 2 ∧ L.running (.nonce h) = false)
      (fun L M => (vget M.host h).nonce = some (L.free .nonce % 2 ^ 256) ∧ M.draws = L.draws + 1 ∧ M.sessionOpen h = L.sessionOpen h ∧ vget M.isobus.peer h = (if L.sessionOpen h then vget L.isobus.peer h else some src))) ∧
    (∀ (l : LaneId) (dt : Nat), Does (.dm1Timer l dt)
      (fun L => L.isoOn = true ∧ L.firmware = true ∧ L.is Reg.IB_STAT_CLAIMED = true ∧ (L.pass dt).running .dm1 = true ∧ (L.pass dt).due .dm1 1000000000 = false ∧ L.isobus.dm1 = L.lamps :: L.stickySources)
      (fun L M => M = L.pass dt)) ∧
    (∀ (l : LaneId) (dt : Nat), Does (.dm1Timer l dt)
      (fun L => L.isoOn = true ∧ L.firmware = true ∧ L.is Reg.IB_STAT_CLAIMED = true ∧ ((L.pass dt).running .dm1 = false ∨ (L.pass dt).due .dm1 1000000000 = true ∨ ((L.pass dt).due .dm1 100000000 = true ∧ L.isobus.dm1 ≠ L.lamps :: L.stickySources)))
      (fun L M => M.out = (L.pass dt).out ++ broadcastFrames 0xFECA (padFF 8 (leBytes 1 L.lamps ++ [0xFF] ++ (if L.stickySources = [] then [0, 0, 0, 0] else L.stickySources.flatMap Lane.troubleCode))) ∧ M.isobus = { L.isobus with dm1 := L.lamps :: L.stickySources } ∧ M.timerAt .dm1 = some (L.pass dt).el ∧ M.regs = L.regs)) ∧
    (∀ (l : LaneId) (dt : Nat) (a r : Int), Does (.steeringStateBroadcast l dt a r)
      (fun L => L.isoOn = true ∧ L.serves .steer = true ∧ L.is Reg.IB_STAT_CLAIMED = true ∧ ((L.pass dt).running .steerBroadcast = false ∨ (L.pass dt).due .steerBroadcast 100000000 = true))
      (fun L M => M.out = (L.pass dt).out ++ [.isobus 0xFF61 0xFF (leBytes 2 (uns 16 a) ++ leBytes 2 (uns 16 r) ++ leBytes 1 (L.mode .steer) ++ leBytes 1 (L.rd (Reg.HQ_AUTH_SEL 0)) ++ leBytes 1 (L.rd (Reg.HQ_AUTH_OVR 0) + 2 * b2n (((L.portOfKind 1).map (fun h => L.engagedFor h .steer)).getD false)) ++ [0xFF])] ∧ M.regs = L.regs ∧ M.timerAt .steerBroadcast = some (L.pass dt).el)) ∧
    (∀ (l : LaneId), Does (.isobusBusOff l)
      (fun L => L.isoOn = true ∧ L.firmware = true)
      (fun _ M => M.is Reg.IB_STAT_BUSOFF = true ∧ M.sticky 393 = true)) ∧
    (∀ (l : LaneId), Does (.ethernetLinkDown l)
      (fun L => L.firmware = true)
      (fun L M => M.ptp = { L.ptp with linkUp := false, t1 := none, good := 0 } ∧ M.is Reg.EN_PTP_STAT_ASCAP = false ∧ M.is Reg.EN_PTP_STAT_SLAVE = false ∧ M.sticky 392 = true ∧ 392 ∈ M.fault.level)) ∧
    (∀ (l : LaneId) (v : Nat), Does (.ethernetLinkUp l v)
      (fun L => L.powered = true)
      (fun L M => M = { L with fault := M.fault, ptp := { L.ptp with linkUp := true, speed := v } } ∧ M.fault = { L.fault with level := M.fault.level } ∧ 392 ∉ M.fault.level ∧ (∀ n : Fin 400, n.val ≠ 392 → (n.val ∈ M.fault.level ↔ n.val ∈ L.fault.level)))) ∧
    (∀ (l : LaneId) (src pgn n : Nat), Does (.transportProtocolCmRx l (.rts src pgn n))
      (fun L => L.isoOn = true ∧ L.is Reg.IB_STAT_CLAIMED = true ∧ L.isobus.tpRx = none ∧ n ≤ 1785)
      (fun L M => M = { L with isobus := { L.isobus with tpRx := some (src, pgn, n) }, out := L.out ++ [.isobus 0xEC00 src (leBytes 1 17 ++ leBytes 1 ((n + 6) / 7) ++ [1, 0xFF, 0xFF] ++ leBytes 3 pgn)] })) ∧
    (∀ (l : LaneId) (src pgn n : Nat), Does (.transportProtocolCmRx l (.rts src pgn n))
      (fun L => L.isoOn = true ∧ L.is Reg.IB_STAT_CLAIMED = true ∧ (L.isobus.tpRx ≠ none ∨ 1785 < n))
      (fun L M => M.out = L.out ++ [.isobus 0xEC00 src ([255, 1, 0xFF, 0xFF, 0xFF] ++ leBytes 3 pgn)] ∧ M = { L with out := M.out })) ∧
    (∀ (l : LaneId) (src n i : Nat) (b : List Byte), Does (.transportProtocolCmRx l (.cts src n))
      (fun L => L.isoOn = true ∧ L.is Reg.IB_STAT_CLAIMED = true ∧ L.isobus.tpTx = [(src, b, i)])
      (fun L M => M.out = L.out ++ (List.range (min n (tpPackets b.length - i))).map (fun k => .isobus 0xEB00 src (tpPacket b (i + k))) ∧ M.isobus = { L.isobus with tpTx := [(src, b, i + min n (tpPackets b.length - i))] } ∧ M.regs = L.regs)) ∧
    (∀ (l : LaneId) (src : Nat) (b : List Byte) (i : Nat), Does (.transportProtocolCmRx l (.eom src))
      (fun L => L.isoOn = true ∧ L.is Reg.IB_STAT_CLAIMED = true ∧ L.isobus.tpTx = [(src, b, i)])
      (fun L M => M.isobus = { L.isobus with tpTx := [] } ∧ M.out = L.out)) ∧
    (∀ (l : LaneId), Does (.v5outOvertemperature l)
      (fun L => L.v5out = true)
      (fun L M => M.v5out = false ∧ M.timerAt .v5 = some L.el ∧ M = { L with v5out := false, timers := M.timers })) ∧
    (∀ (l : LaneId) (dt : Nat), Does (.v5outRetry l dt)
      (fun L => L.v5out = false ∧ (L.pass dt).due .v5 10000000 = true)
      (fun L M => M.v5out = true ∧ M.running .v5 = false ∧ M.regs = L.regs))

/-- A GO that no row of R458 refuses begins the entry of its domain; a refused one ends with RESULT 1 and the WHO of its row.
Each step ends in the next, a pending wake event abandons the entry with RESULT 2, and step 5 reaches the target with RESULT 0.
A missing WFI refuses after 100 us. A wake event begins the exit of a domain in retention or off. START runs the meter; a closed
window shows COUNT, DONE and OUTR; a write while BUSY stops it. Losing a PLL clears its PLLOK and forces the guard with cause 1.
-/
def Obligations.power_domains_and_clocks : Prop :=
    (∀ (l : LaneId) (v : Word) (d : Fin 8) (t o : Nat), Does (.pdReqGo l v)
      (fun L => L.firmware = true ∧ v.toNat / 65536 % 2 = 1 ∧ v.toNat / 16 % 4 = t ∧ v.toNat / 256 % 8 = o ∧ v.toNat % 8 = d.val ∧ v.toNat / 2 ^ 18 % 2 = 0 ∧ 1 ≤ t ∧ t ≤ 2 ∧ o ≤ 4 ∧ L.is Reg.PD_REQ_BUSY = false ∧ L.pdRefusal d t o = none)
      (fun L M => M.is Reg.PD_REQ_BUSY = true ∧ M.rd (Lane.pdFld d) = 1 ∧ (vget M.power.dom d).step = 1 ∧ (vget M.power.dom d).target = t ∧ M.rd Reg.PD_REQ_DOM = d.val ∧ M.rd Reg.PD_REQ_TARGET = t ∧ M.rd Reg.PD_REQ_ORIGIN = o ∧ M.sram = L.sram)) ∧
    (∀ (l : LaneId) (v : Word) (d : Fin 8) (t o w : Nat), Does (.pdReqGo l v)
      (fun L => L.firmware = true ∧ v.toNat / 65536 % 2 = 1 ∧ v.toNat / 16 % 4 = t ∧ v.toNat / 256 % 8 = o ∧ v.toNat % 8 = d.val ∧ v.toNat / 2 ^ 18 % 2 = 0 ∧ 1 ≤ t ∧ t ≤ 2 ∧ o ≤ 4 ∧ L.is Reg.PD_REQ_BUSY = false ∧ L.pdRefusal d t o = some w)
      (fun L M => M.is Reg.PD_REQ_BUSY = false ∧ M.is Reg.PD_REQ_DONE = true ∧ M.rd Reg.PD_REQ_RESULT = 1 ∧ M.rd Reg.PD_REQ_WHO = w ∧ M.rd Reg.PD_REQ_HOW = 0 ∧ M.rd (Lane.pdFld d) = L.rd (Lane.pdFld d) ∧ M.power.dom = L.power.dom)) ∧
    (∀ (l : LaneId) (v : Word), Does (.pdReqGo l v)
      (fun L => L.firmware = true ∧ v.toNat / 65536 % 2 = 1 ∧ v.toNat / 2 ^ 18 % 2 = 0 ∧ L.is Reg.PD_REQ_BUSY = true)
      (fun L M => M.rd Reg.PD_REQ_DOM = v.toNat % 8 ∧ M.rd Reg.PD_REQ_TARGET = (if v.toNat / 16 % 4 ≤ 2 then v.toNat / 16 % 4 else L.rd Reg.PD_REQ_TARGET % 4) ∧
        M.rd Reg.PD_REQ_ORIGIN = (if v.toNat / 256 % 8 ≤ 4 then v.toNat / 256 % 8 else L.rd Reg.PD_REQ_ORIGIN % 8) ∧ M = { L with regs := M.regs } ∧
        ∀ g : Fld, g.key ≠ Reg.PD_REQ_DOM.key → g.key ≠ Reg.PD_REQ_TARGET.key → g.key ≠ Reg.PD_REQ_ORIGIN.key → M.rd g = L.rd g)) ∧
    (∀ (l : LaneId) (d : Fin 8) (o : Nat), Does (.pdWakeCommand l d o)
      (fun L => L.firmware = true ∧ L.is Reg.PD_REQ_BUSY = false ∧ L.rd (Lane.pdFld d) = 0)
      (fun _ M => M.is Reg.PD_REQ_DONE = true ∧ M.rd Reg.PD_REQ_RESULT = 0 ∧ M.rd Reg.PD_REQ_WHO = 0 ∧ M.rd (Lane.pdFld d) = 0 ∧ M.rd Reg.PD_REQ_DOM = d.val)) ∧
    (∀ (l : LaneId) (d : Fin 8) (o : Nat), Does (.pdWakeCommand l d o)
      (fun L => L.firmware = true ∧ L.is Reg.PD_REQ_BUSY = false ∧ (L.rd (Lane.pdFld d) = 2 ∨ L.rd (Lane.pdFld d) = 3))
      (fun L M => M.is Reg.PD_REQ_BUSY = true ∧ M.rd (Lane.pdFld d) = 4 ∧ (vget M.power.dom d).fromState = L.rd (Lane.pdFld d) ∧ (L.is (Reg.PD_ACCT_MODE d.val) = false → M.rd (Reg.PD_ACCT_WHO d.val) = 18 ∧ M.rd (Reg.PD_ACCT_HOW d.val) = (if L.rd (Lane.pdFld d) = 2 then 5 else 6)))) ∧
    (∀ (l : LaneId) (d : Fin 8) (k : Nat), Does (.pdEntryStepEnd l d)
      (fun L => L.rd (Lane.pdFld d) = 1 ∧ (vget L.power.dom d).step = k ∧ 1 ≤ k ∧ k ≤ 4 ∧ (k = 1 → L.wfiDone d = true) ∧ (vget L.power.dom d).wakeBy = none ∧ L.pdBar d = none)
      (fun L M => M = { L with power := { L.power with dom := vupd L.power.dom d (fun x => { x with step := k + 1 }) } })) ∧
    (∀ (l : LaneId) (d : Fin 8) (k w : Nat), Does (.pdEntryStepEnd l d)
      (fun L => L.rd (Lane.pdFld d) = 1 ∧ (vget L.power.dom d).step = k ∧ 1 ≤ k ∧ k ≤ 4 ∧ (k = 1 → L.wfiDone d = true) ∧ (vget L.power.dom d).wakeBy = some w ∧ w < 32 ∧ L.pdBar d = none)
      (fun L M => M.rd (Lane.pdFld d) = 5 ∧ M.is Reg.PD_REQ_DONE = true ∧ M.rd Reg.PD_REQ_RESULT = 2 ∧ M.rd Reg.PD_REQ_WHO = w ∧ M.rd Reg.PD_REQ_HOW = k ∧ M.rd (Reg.PD_ACCT_WHO d.val) = w ∧ M.rd (Reg.PD_ACCT_HOW d.val) = k ∧ (vget M.power.dom d).step = 0 ∧ M.engine = L.engine)) ∧
    (∀ (l : LaneId) (d : Fin 8), Does (.pdEntryStepEnd l d)
      (fun L => L.rd (Lane.pdFld d) = 1 ∧ (vget L.power.dom d).step = 5 ∧ (vget L.power.dom d).target = 1 ∧ (vget L.power.dom d).wakeBy = none)
      (fun L M => M.rd (Lane.pdFld d) = 2 ∧ M.is Reg.PD_REQ_BUSY = false ∧ M.is Reg.PD_REQ_DONE = true ∧ M.rd Reg.PD_REQ_RESULT = 0 ∧ M.engine = L.engine ∧ M.core = L.core)) ∧
    (∀ (l : LaneId), Does (.pdEntryStepEnd l 2)
      (fun L => L.rd (Lane.pdFld 2) = 1 ∧ (vget L.power.dom 2).step = 5 ∧ (vget L.power.dom 2).target = 2 ∧ (vget L.power.dom 2).wakeBy = none ∧ L.power.asker = none)
      (fun L M => M.rd (Lane.pdFld 2) = 3 ∧ M.rd Reg.PD_REQ_RESULT = 0 ∧ M.engine = Vector.replicate 4 Init.engine ∧ M.core = L.core ∧ M.sram = L.sram)) ∧
    (∀ (l : LaneId) (dt : Nat) (d : Fin 8), Does (.pdWfiTimeout l dt d)
      (fun L => L.rd (Lane.pdFld d) = 1 ∧ (vget L.power.dom d).step = 1 ∧ L.wfiDone d = false ∧ (L.pass dt).due (.wfi d) 100000 = true)
      (fun _ M => M.rd (Lane.pdFld d) = 0 ∧ M.rd Reg.PD_REQ_RESULT = 1 ∧ M.rd Reg.PD_REQ_WHO = (if d = 1 then 5 else 7) ∧ M.is Reg.PD_REQ_DONE = true ∧ (vget M.power.dom d).step = 0)) ∧
    (∀ (l : LaneId) (d : Fin 8) (w : Waker), Does (.pdWakeEvent l d w)
      (fun L => Lane.wakes d w = true ∧ (L.rd (Lane.pdFld d) = 2 ∨ L.rd (Lane.pdFld d) = 3))
      (fun L M => M.rd (Lane.pdFld d) = 4 ∧ (vget M.power.dom d).fromState = L.rd (Lane.pdFld d) ∧ (L.is (Reg.PD_ACCT_MODE d.val) = true → M.rd (Reg.PD_ACCT_COUNT d.val) = L.rd (Reg.PD_ACCT_COUNT d.val)) ∧
        (L.is (Reg.PD_ACCT_MODE d.val) = false → M.rd (Reg.PD_ACCT_WHO d.val) = w.code))) ∧
    (∀ (l : LaneId) (d : Fin 8) (w : Waker), Does (.pdWakeEvent l d w)
      (fun L => Lane.wakes d w = true ∧ L.rd (Lane.pdFld d) = 1)
      (fun L M => (vget M.power.dom d).wakeBy = some (min w.code ((vget L.power.dom d).wakeBy.getD w.code)) ∧ M.regs = L.regs)) ∧
    (∀ (l : LaneId), Does (.pdAcctclr l)
      (fun _ => True)
      (fun L M => (∀ d : Fin 8, M.rd (Reg.PD_ACCT_COUNT d.val) = 0 ∧ M.rd (Reg.PD_ACCT_WHO d.val) = 0 ∧ M.rd (Reg.PD_ACCT_HOW d.val) = 0 ∧ M.rd (Reg.PD_ACCT_MODE d.val) = L.rd (Reg.PD_ACCT_MODE d.val)))) ∧
    (∀ (l : LaneId) (v : Word), Does (.ckFmStart l v)
      (fun L => L.firmware = true)
      (fun L M => M.is Reg.CK_FM_CTRL_BUSY = !L.is Reg.CK_FM_CTRL_BUSY ∧ M.rd Reg.CK_FM_CTRL_REF = v.toNat % 16 ∧ M.rd Reg.CK_FM_CTRL_MEAS = v.toNat / 256 % 16 ∧ M.rd Reg.CK_FM_CTRL_CONT = v.toNat / 65536 % 2 ∧ M.rd Reg.CK_FM_CNT = L.rd Reg.CK_FM_CNT)) ∧
    (∀ (l : LaneId) (n : Word), Does (.ckFmWindowClose l n)
      (fun L => L.is Reg.CK_FM_CTRL_BUSY = true ∧ L.clockOn (L.rd Reg.CK_FM_CTRL_MEAS) = true)
      (fun L M => M.rd Reg.CK_FM_CNT = n.toNat ∧ M.is Reg.CK_FM_CTRL_DONE = true ∧ M.is Reg.CK_FM_CTRL_OUTR = (L.is Reg.CK_FM_CTRL_OUTR || decide (n.toNat < L.rd Reg.CK_FM_LO ∨ L.rd Reg.CK_FM_HI < n.toNat)) ∧
        M.is Reg.CK_FM_CTRL_BUSY = L.is Reg.CK_FM_CTRL_CONT ∧ (L.is Reg.CK_FM_CTRL_IE = true → (if L.plic.busy.contains Irq.ck then M.plic.held else M.irqs).contains Irq.ck = true))) ∧
    (∀ (l : LaneId) (v : Word), Does (.ckFmStop l true v)
      (fun L => L.firmware = true)
      (fun L M => M.is Reg.CK_FM_CTRL_BUSY = false ∧ M.rd Reg.CK_FM_WIN_N = (if v.toNat % 2 ^ 24 = 0 then L.rd Reg.CK_FM_WIN_N else v.toNat % 2 ^ 24) ∧ M = { L with regs := M.regs } ∧ ∀ g : Fld, g.key ≠ Reg.CK_FM_CTRL_BUSY.key → g.key ≠ Reg.CK_FM_WIN_N.key → M.rd g = L.rd g)) ∧
    (∀ (l : LaneId) (v : Word), Does (.ckFmStop l false v)
      (fun L => L.firmware = true ∧ L.is Reg.CK_FM_CTRL_BUSY = true)
      (fun L M => M.is Reg.CK_FM_CTRL_BUSY = false ∧ M.rd Reg.CK_FM_CNT = L.rd Reg.CK_FM_CNT ∧ M.irqs = L.irqs)) ∧
    (∀ (l : LaneId) (k : Fin 3), Does (.pllLockLoss l k)
      (fun L => L.powered = true ∧ L.guardSt.powered = true ∧ L.gstate ≠ 3)
      (fun _ M => M.bitOf Reg.CK_STAT_PLLOK k.val = false ∧ M.gstate = 3 ∧ M.rd Reg.LG_STATUS_FCAUSE = 1 ∧ M.is Reg.LG_STATUS_LDCLK = false ∧ M.is Reg.LG_STATUS_CLKGOOD = false))

/-- A GO on a free channel by its own pair sets BUSY and gives the command the status and response of R504: INFO, ID_GEN once in
MANUFACTURE, ID_PUB, ID_CERT, SIGN, VERIFY, HASH, RANDOM, ATTEST, DBG_CHAL, DBG_OPEN, DBG_CLOSE, LC_ADVANCE and KEY_REVOKE after
the checks of R491 in order, KEY_PROG once a slot. The other pair fires source 20, a GO while BUSY sets OVR, and after a breach
every command but INFO is ZEROISED. Completion shows status and length and sets DONE. Signatures and digests are free values. -/
def Obligations.security_mailbox : Prop :=
    (∀ (l : LaneId) (c : Fin 2) (p : Pair) (n : Nat), Does (.seInfo l c p n)
      (fun L => L.powered = true ∧ p = c ∧ L.is (if c = 0 then Reg.SE_STATUS_BUSY_0 else Reg.SE_STATUS_BUSY_1) = false ∧ L.is Reg.SE_STATUS_TAMPER = false ∧ n ≤ 256)
      (fun L M => M.is (if c = 0 then Reg.SE_STATUS_BUSY_0 else Reg.SE_STATUS_BUSY_1) = true ∧ M.rd (Reg.SE_CMD_OP c.val) = 1 ∧ M.rd (Reg.SE_CMD_LEN c.val) = n ∧ (vget M.sec.chan c).map (·.1) = some 0 ∧ (vget M.sec.chan c).map (·.2.length) = some 15 ∧ M.sec = { L.sec with chan := M.sec.chan })) ∧
    (∀ (l : LaneId) (c : Fin 2) (p : Pair) (n : Nat), Does (.seIdGen l c p n)
      (fun L => L.powered = true ∧ p = c ∧ L.is (if c = 0 then Reg.SE_STATUS_BUSY_0 else Reg.SE_STATUS_BUSY_1) = false ∧ L.is Reg.SE_STATUS_TAMPER = false ∧ n ≤ 256 ∧ L.lifecycle = 0 ∧ L.sec.idDone = false ∧ L.sec.kek = none ∧ L.sec.entropyBad = false)
      (fun L M => M.is (if c = 0 then Reg.SE_STATUS_BUSY_0 else Reg.SE_STATUS_BUSY_1) = true ∧ M.rd (Reg.SE_CMD_OP c.val) = 2 ∧ M.rd (Reg.SE_CMD_LEN c.val) = n ∧ (vget M.sec.chan c).map (·.1) = some 0 ∧ (vget M.sec.chan c).map (·.2.length) = some 57 ∧ M.sec.idDone = true ∧ M.sec.idUsable = true ∧ M.sec.identity.isSome = true ∧ M.sec.kek.isSome = true ∧ M.draws = L.draws + 2)) ∧
    (∀ (l : LaneId) (c : Fin 2) (p : Pair) (n : Nat), Does (.seIdGen l c p n)
      (fun L => L.powered = true ∧ p = c ∧ L.is (if c = 0 then Reg.SE_STATUS_BUSY_0 else Reg.SE_STATUS_BUSY_1) = false ∧ L.is Reg.SE_STATUS_TAMPER = false ∧ n ≤ 256 ∧ (L.lifecycle ≠ 0 ∨ L.sec.idDone = true))
      (fun L M => M.is (if c = 0 then Reg.SE_STATUS_BUSY_0 else Reg.SE_STATUS_BUSY_1) = true ∧ M.rd (Reg.SE_CMD_OP c.val) = 2 ∧ M.rd (Reg.SE_CMD_LEN c.val) = n ∧ vget M.sec.chan c = some (5, []) ∧ M.sec = { L.sec with chan := M.sec.chan })) ∧
    (∀ (l : LaneId) (c : Fin 2) (p : Pair) (n : Nat), Does (.seIdPub l c p n)
      (fun L => L.powered = true ∧ p = c ∧ L.is (if c = 0 then Reg.SE_STATUS_BUSY_0 else Reg.SE_STATUS_BUSY_1) = false ∧ L.is Reg.SE_STATUS_TAMPER = false ∧ n ≤ 256)
      (fun L M => M.is (if c = 0 then Reg.SE_STATUS_BUSY_0 else Reg.SE_STATUS_BUSY_1) = true ∧ M.rd (Reg.SE_CMD_OP c.val) = 3 ∧ M.rd (Reg.SE_CMD_LEN c.val) = n ∧ vget M.sec.chan c = (if L.lifecycle = 3 then some (5, []) else if L.sec.idDone then some (0, leBytes 57 L.sec.idPublic ++ leBytes 2 L.sec.certificate.length ++ L.sec.certificate) else some (4, [])) ∧ M.sec = { L.sec with chan := M.sec.chan })) ∧
    (∀ (l : LaneId) (c : Fin 2) (p : Pair) (n : Nat), Does (.seIdCert l c p n)
      (fun L => L.powered = true ∧ p = c ∧ L.is (if c = 0 then Reg.SE_STATUS_BUSY_0 else Reg.SE_STATUS_BUSY_1) = false ∧ L.is Reg.SE_STATUS_TAMPER = false ∧ n ≤ 256)
      (fun L M => M.is (if c = 0 then Reg.SE_STATUS_BUSY_0 else Reg.SE_STATUS_BUSY_1) = true ∧ M.rd (Reg.SE_CMD_OP c.val) = 4 ∧ M.rd (Reg.SE_CMD_LEN c.val) = n ∧ vget M.sec.chan c = some (if L.lifecycle ≠ 0 then 5 else if n < 1 ∨ 197 < n then 2 else 0, []) ∧ M.sec.certificate = (if L.lifecycle = 0 ∧ 1 ≤ n ∧ n ≤ 197 then L.seReq c n else L.sec.certificate))) ∧
    (∀ (l : LaneId) (c : Fin 2) (p : Pair) (n : Nat), Does (.seSign l c p n)
      (fun L => L.powered = true ∧ p = c ∧ L.is (if c = 0 then Reg.SE_STATUS_BUSY_0 else Reg.SE_STATUS_BUSY_1) = false ∧ L.is Reg.SE_STATUS_TAMPER = false ∧ n ≤ 256)
      (fun L M => M.is (if c = 0 then Reg.SE_STATUS_BUSY_0 else Reg.SE_STATUS_BUSY_1) = true ∧ M.rd (Reg.SE_CMD_OP c.val) = 5 ∧ M.rd (Reg.SE_CMD_LEN c.val) = n ∧ vget M.sec.chan c = (match L.identityBar with | some v => some (v, []) | none => if n < 1 then some (2, []) else some (0, L.signature 1 (L.seReq c n))) ∧ M.sec = { L.sec with chan := M.sec.chan })) ∧
    (∀ (l : LaneId) (c : Fin 2) (p : Pair) (n : Nat), Does (.seVerify l c p n)
      (fun L => L.powered = true ∧ p = c ∧ L.is (if c = 0 then Reg.SE_STATUS_BUSY_0 else Reg.SE_STATUS_BUSY_1) = false ∧ L.is Reg.SE_STATUS_TAMPER = false ∧ n ≤ 256)
      (fun L M => M.is (if c = 0 then Reg.SE_STATUS_BUSY_0 else Reg.SE_STATUS_BUSY_1) = true ∧ M.rd (Reg.SE_CMD_OP c.val) = 6 ∧ M.rd (Reg.SE_CMD_LEN c.val) = n ∧ vget M.sec.chan c = some (if n < 171 then 2 else if ed448Ok 0 (field (L.seReq c n) 0 57) ((L.seReq c n).drop 171) (((L.seReq c n).drop 57).take 114) then 0 else 3, []) ∧ M.sec = { L.sec with chan := M.sec.chan })) ∧
    (∀ (l : LaneId) (c : Fin 2) (p : Pair) (n : Nat), Does (.seHash l c p n)
      (fun L => L.powered = true ∧ p = c ∧ L.is (if c = 0 then Reg.SE_STATUS_BUSY_0 else Reg.SE_STATUS_BUSY_1) = false ∧ L.is Reg.SE_STATUS_TAMPER = false ∧ n ≤ 256 ∧ n = 13 ∧ field (L.seReq c n) 8 4 ≤ 2 ^ 30 ∧ (field (L.seReq c n) 12 1 = 32 ∨ field (L.seReq c n) 12 1 = 64))
      (fun L M => M.is (if c = 0 then Reg.SE_STATUS_BUSY_0 else Reg.SE_STATUS_BUSY_1) = true ∧ M.rd (Reg.SE_CMD_OP c.val) = 7 ∧ M.rd (Reg.SE_CMD_LEN c.val) = n ∧ vget M.sec.chan c = some (0, shake (field (L.seReq c n) 12 1) (L.dmaBytes (field (L.seReq c n) 0 8) (field (L.seReq c n) 8 4))) ∧ M.sec = { L.sec with chan := M.sec.chan })) ∧
    (∀ (l : LaneId) (c : Fin 2) (p : Pair) (n : Nat), Does (.seHash l c p n)
      (fun L => L.powered = true ∧ p = c ∧ L.is (if c = 0 then Reg.SE_STATUS_BUSY_0 else Reg.SE_STATUS_BUSY_1) = false ∧ L.is Reg.SE_STATUS_TAMPER = false ∧ n ≤ 256 ∧ n ≠ 13)
      (fun L M => M.is (if c = 0 then Reg.SE_STATUS_BUSY_0 else Reg.SE_STATUS_BUSY_1) = true ∧ M.rd (Reg.SE_CMD_OP c.val) = 7 ∧ M.rd (Reg.SE_CMD_LEN c.val) = n ∧ vget M.sec.chan c = some (2, []) ∧ M.sec = { L.sec with chan := M.sec.chan })) ∧
    (∀ (l : LaneId) (c : Fin 2) (p : Pair) (n : Nat), Does (.seRandom l c p n)
      (fun L => L.powered = true ∧ p = c ∧ L.is (if c = 0 then Reg.SE_STATUS_BUSY_0 else Reg.SE_STATUS_BUSY_1) = false ∧ L.is Reg.SE_STATUS_TAMPER = false ∧ n ≤ 256)
      (fun L M => M.is (if c = 0 then Reg.SE_STATUS_BUSY_0 else Reg.SE_STATUS_BUSY_1) = true ∧ M.rd (Reg.SE_CMD_OP c.val) = 8 ∧ M.rd (Reg.SE_CMD_LEN c.val) = n ∧ vget M.sec.chan c = (if L.sec.entropyBad = true then some (10, []) else if n ≠ 2 ∨ field (L.seReq c n) 0 2 < 1 ∨ 256 < field (L.seReq c n) 0 2 then some (2, []) else some (0, leBytes (field (L.seReq c n) 0 2) (L.free .random))) ∧ M.sec = { L.sec with chan := M.sec.chan })) ∧
    (∀ (l : LaneId) (c : Fin 2) (p : Pair) (n : Nat), Does (.seAttest l c p n)
      (fun L => L.powered = true ∧ p = c ∧ L.is (if c = 0 then Reg.SE_STATUS_BUSY_0 else Reg.SE_STATUS_BUSY_1) = false ∧ L.is Reg.SE_STATUS_TAMPER = false ∧ n ≤ 256)
      (fun L M => M.is (if c = 0 then Reg.SE_STATUS_BUSY_0 else Reg.SE_STATUS_BUSY_1) = true ∧ M.rd (Reg.SE_CMD_OP c.val) = 9 ∧ M.rd (Reg.SE_CMD_LEN c.val) = n ∧ vget M.sec.chan c = (match L.identityBar with | some v => some (v, []) | none => if n ≠ 32 then some (2, []) else some (0, L.evidence (field (L.seReq c n) 0 32))) ∧ M.sec = { L.sec with chan := M.sec.chan })) ∧
    (∀ (l : LaneId) (c : Fin 2) (p : Pair) (n : Nat), Does (.seDbgChal l c p n)
      (fun L => L.powered = true ∧ p = c ∧ L.is (if c = 0 then Reg.SE_STATUS_BUSY_0 else Reg.SE_STATUS_BUSY_1) = false ∧ L.is Reg.SE_STATUS_TAMPER = false ∧ n ≤ 256 ∧ (L.lifecycle = 1 ∨ L.lifecycle = 2) ∧ L.sec.entropyBad = false)
      (fun L M => M.is (if c = 0 then Reg.SE_STATUS_BUSY_0 else Reg.SE_STATUS_BUSY_1) = true ∧ M.rd (Reg.SE_CMD_OP c.val) = 10 ∧ M.rd (Reg.SE_CMD_LEN c.val) = n ∧ vget M.sec.chan c = some (0, leBytes 32 (L.free .nonce % 2 ^ 256)) ∧ M.sec.nonce = some (L.free .nonce % 2 ^ 256) ∧ M.timerAt .debugNonce = some L.el)) ∧
    (∀ (l : LaneId) (c : Fin 2) (p : Pair) (n : Nat), Does (.seDbgChal l c p n)
      (fun L => L.powered = true ∧ p = c ∧ L.is (if c = 0 then Reg.SE_STATUS_BUSY_0 else Reg.SE_STATUS_BUSY_1) = false ∧ L.is Reg.SE_STATUS_TAMPER = false ∧ n ≤ 256 ∧ (L.lifecycle = 0 ∨ L.lifecycle = 3))
      (fun L M => M.is (if c = 0 then Reg.SE_STATUS_BUSY_0 else Reg.SE_STATUS_BUSY_1) = true ∧ M.rd (Reg.SE_CMD_OP c.val) = 10 ∧ M.rd (Reg.SE_CMD_LEN c.val) = n ∧ vget M.sec.chan c = some (5, []) ∧ M.sec = { L.sec with chan := M.sec.chan })) ∧
    (∀ (l : LaneId) (c : Fin 2) (p : Pair) (n : Nat), Does (.seDbgOpen l c p n)
      (fun L => L.powered = true ∧ p = c ∧ L.is (if c = 0 then Reg.SE_STATUS_BUSY_0 else Reg.SE_STATUS_BUSY_1) = false ∧ L.is Reg.SE_STATUS_TAMPER = false ∧ n ≤ 256)
      (fun L M => M.is (if c = 0 then Reg.SE_STATUS_BUSY_0 else Reg.SE_STATUS_BUSY_1) = true ∧ M.rd (Reg.SE_CMD_OP c.val) = 11 ∧ M.rd (Reg.SE_CMD_LEN c.val) = n ∧ (let t := tokenOf (L.seReq c n) (L.dbgKey (field (L.seReq c n) 52 1))
         let v := if L.lifecycle ≠ 1 ∧ L.lifecycle ≠ 2 then 5 else if n ≠ 192 then 2 else L.tokenVerdict t
         vget M.sec.chan c = some (v, []) ∧ M.is Reg.SE_DBG_OPEN = (L.is Reg.SE_DBG_OPEN || decide (v = 0)) ∧ (v = 0 → M.rd Reg.SE_DBG_SCOPE = t.scope % 32 ∧ M.timerAt .token = some (L.el + t.validS * 1000000000))))) ∧
    (∀ (l : LaneId) (c : Fin 2) (p : Pair) (n : Nat), Does (.seDbgClose l c p n)
      (fun L => L.powered = true ∧ p = c ∧ L.is (if c = 0 then Reg.SE_STATUS_BUSY_0 else Reg.SE_STATUS_BUSY_1) = false ∧ L.is Reg.SE_STATUS_TAMPER = false ∧ n ≤ 256)
      (fun _ M => M.is (if c = 0 then Reg.SE_STATUS_BUSY_0 else Reg.SE_STATUS_BUSY_1) = true ∧ M.rd (Reg.SE_CMD_OP c.val) = 12 ∧ M.rd (Reg.SE_CMD_LEN c.val) = n ∧ vget M.sec.chan c = some (0, []) ∧ M.is Reg.SE_DBG_OPEN = false ∧ M.rd Reg.SE_DBG_SCOPE = 0 ∧ M.running .token = false ∧ (∀ h : Core, (vget M.core h).run ≠ .debugHalted))) ∧
    (∀ (l : LaneId) (c : Fin 2) (p : Pair) (n : Nat), Does (.seLcAdvance l c p n)
      (fun L => L.powered = true ∧ p = c ∧ L.is (if c = 0 then Reg.SE_STATUS_BUSY_0 else Reg.SE_STATUS_BUSY_1) = false ∧ L.is Reg.SE_STATUS_TAMPER = false ∧ n ≤ 256)
      (fun L M => M.is (if c = 0 then Reg.SE_STATUS_BUSY_0 else Reg.SE_STATUS_BUSY_1) = true ∧ M.rd (Reg.SE_CMD_OP c.val) = 13 ∧ M.rd (Reg.SE_CMD_LEN c.val) = n ∧ (let t := field (L.seReq c n) 1 1
         let a := authOf (L.seReq c n) (L.dbgKey (field (L.seReq c n) 11 1))
         vget M.sec.chan c = some (if L.svc ≠ 2 ∧ L.svc ≠ 8 ∧ L.svc ≠ 7 then 5 else if n ≠ 158 ∨ a.kind ≠ 1 then 2 else if a.serial ≠ Config.serial.toNat ∨ a.lane ≠ L.id.code then 8
           else if L.nonceCurrent a.nonce = false then 6 else if L.dbgValid a.key = false then 4 else if a.sigOk = false then 3 else if 3 < t ∨ t ≤ L.lifecycle then 2 else if L.lifecycle = 0 ∧ t ≠ 3 ∧ (L.sec.idDone = false ∨ L.imgValid = [] ∨ (L.keyValid 4 = false ∧ L.keyValid 5 = false)) then 5 else 0, [])) ∧
        ((vget M.sec.chan c).map (·.1) = some 0 → M.sec.lc = L.sec.lc ∧ M.sec.lc1 = max L.sec.lc1 (field (L.seReq c n) 1 1) ∧ M.sec.pend.isSome = true ∧ (field (L.seReq c n) 1 1 = 3 → M.is Reg.SE_STATUS_ZEROISED = true ∧ M.sec.idUsable = false)) ∧
        ((vget M.sec.chan c).map (·.1) ≠ some 0 → M.sec = { L.sec with chan := M.sec.chan }))) ∧
    (∀ (l : LaneId) (c : Fin 2) (p : Pair) (n : Nat), Does (.seKeyRevoke l c p n)
      (fun L => L.powered = true ∧ p = c ∧ L.is (if c = 0 then Reg.SE_STATUS_BUSY_0 else Reg.SE_STATUS_BUSY_1) = false ∧ L.is Reg.SE_STATUS_TAMPER = false ∧ n ≤ 256)
      (fun L M => M.is (if c = 0 then Reg.SE_STATUS_BUSY_0 else Reg.SE_STATUS_BUSY_1) = true ∧ M.rd (Reg.SE_CMD_OP c.val) = 14 ∧ M.rd (Reg.SE_CMD_LEN c.val) = n ∧ (let t := field (L.seReq c n) 1 1
         let a := authOf (L.seReq c n) (L.dbgKey (field (L.seReq c n) 11 1))
         vget M.sec.chan c = some (if L.svc ≠ 2 ∧ L.svc ≠ 8 ∧ L.svc ≠ 7 then 5 else if n ≠ 158 ∨ a.kind ≠ 2 then 2 else if a.serial ≠ Config.serial.toNat ∨ a.lane ≠ L.id.code then 8
           else if L.nonceCurrent a.nonce = false then 6 else if L.dbgValid a.key = false then 4 else if a.sigOk = false then 3 else if 6 ≤ t then 2 else if (t < 4 ∧ ∀ k ∈ L.imgValid, k.val = t) ∧ L.keyValid (Fin.ofNat 6 t) = true ∨ (t = 4 ∧ L.keyValid 5 = false) ∨ (t = 5 ∧ L.keyValid 4 = false) ∨ t = 4 + field (L.seReq c n) 11 1 ∨ L.activeKeySlot = some t then 5 else 0, [])) ∧
        ((vget M.sec.chan c).map (·.1) = some 0 → M.keyValid (Fin.ofNat 6 (field (L.seReq c n) 1 1)) = false ∧ M.sec.nonce = none) ∧ ((vget M.sec.chan c).map (·.1) ≠ some 0 → M.sec = { L.sec with chan := M.sec.chan }))) ∧
    (∀ (l : LaneId) (c : Fin 2) (p : Pair) (n : Nat) (k : Fin 6), Does (.seKeyProg l c p n)
      (fun L => L.powered = true ∧ p = c ∧ L.is (if c = 0 then Reg.SE_STATUS_BUSY_0 else Reg.SE_STATUS_BUSY_1) = false ∧ L.is Reg.SE_STATUS_TAMPER = false ∧ n ≤ 256 ∧ k.val = field (L.seReq c n) 0 1 ∧ n = 58)
      (fun L M => M.is (if c = 0 then Reg.SE_STATUS_BUSY_0 else Reg.SE_STATUS_BUSY_1) = true ∧ M.rd (Reg.SE_CMD_OP c.val) = 15 ∧ M.rd (Reg.SE_CMD_LEN c.val) = n ∧ vget M.sec.chan c = some (if L.lifecycle ≠ 0 ∨ (vget L.sec.keys k).programmed then 5 else 0, []) ∧ (vget M.sec.keys k).programmed = ((vget L.sec.keys k).programmed || decide (L.lifecycle = 0)) ∧ (∀ j : Fin 6, j ≠ k → vget M.sec.keys j = vget L.sec.keys j))) ∧
    (∀ (l : LaneId) (c : Fin 2) (p : Pair) (n : Nat), Does (.seSign l c p n)
      (fun L => L.powered = true ∧ p ≠ c)
      (fun L M => L.Reacts M ∧ vget M.sec.chan c = vget L.sec.chan c ∧ M.sticky 20 = true)) ∧
    (∀ (l : LaneId) (c : Fin 2) (p : Pair) (n : Nat), Does (.seSign l c p n)
      (fun L => L.powered = true ∧ p = c ∧ L.is (if c = 0 then Reg.SE_STATUS_BUSY_0 else Reg.SE_STATUS_BUSY_1) = true ∧ n ≤ 256)
      (fun L M => M.rd (Reg.SE_CMD_OP c.val) = 5 ∧ M.rd (Reg.SE_CMD_LEN c.val) = n ∧ M.is (if c = 0 then Reg.SE_STATUS_OVR_0 else Reg.SE_STATUS_OVR_1) = true ∧ M.sec = L.sec)) ∧
    (∀ (l : LaneId) (c : Fin 2) (p : Pair) (n : Nat), Does (.seSign l c p n)
      (fun L => L.powered = true ∧ p = c ∧ L.is (if c = 0 then Reg.SE_STATUS_BUSY_0 else Reg.SE_STATUS_BUSY_1) = false ∧ L.is Reg.SE_STATUS_TAMPER = true)
      (fun _ M => vget M.sec.chan c = some (9, []))) ∧
    (∀ (l : LaneId) (c : Fin 2) (v : Nat) (r : List Byte), Does (.seCommandComplete l c)
      (fun L => L.powered = true ∧ vget L.sec.chan c = some (v, r) ∧ v < 256 ∧ r.length ≤ 256)
      (fun L M => vget M.sec.chan c = none ∧ M.rd (Reg.SE_RES_STATUS c.val) = v ∧ M.rd (Reg.SE_RES_RLEN c.val) = r.length ∧ M.is (if c = 0 then Reg.SE_STATUS_BUSY_0 else Reg.SE_STATUS_BUSY_1) = false ∧
        M.is (if c = 0 then Reg.SE_STATUS_DONE_0 else Reg.SE_STATUS_DONE_1) = true ∧ (if L.plic.busy.contains (Irq.seChannel c) then M.plic.held else M.irqs).contains (Irq.seChannel c) = true ∧ (∀ k : Fin 64, 4 * k.val < r.length → M.rd (Reg.SE_RSP c.val k.val) = field r (4 * k.val) 4))) ∧
    (∀ (l : LaneId) (c : Fin 2), Does (.seCommandComplete l c)
      (fun L => vget L.sec.chan c = none)
      (fun L M => M = L))

/-- A failed entropy test sets ALARM and source 453. A breach zeroises the RAM, sets TAMPER and source 454 and forces the guard
with cause 6 where the lane is up, the fuses unchanged. A challenge draws a nonce whose 8 words the next reads return; 48 words
are a token, which is then checked in the order of R496 and opens the lane with its scope and timer; a write of 2 or the open
timer closes it and resumes every halted hart. -/
def Obligations.security_alarms_and_debug_access : Prop :=
    (∀ (l : LaneId), Does (.entropyHealthFail l)
      (fun L => L.powered = true)
      (fun L M => M.is Reg.SE_STATUS_ALARM = true ∧ M.sticky 453 = true ∧ 453 ∈ M.fault.level ∧ M.sec = { L.sec with entropyBad := true })) ∧
    (∀ (l : LaneId), Does (.tamperBreach l)
      (fun L => L.powered = true)
      (fun L M => M.is Reg.SE_STATUS_TAMPER = true ∧ M.is Reg.SE_STATUS_ZEROISED = true ∧ M.sticky 454 = true ∧ M.sec = { L.sec with identity := none, idUsable := false, nonce := none, tokenWords := [] })) ∧
    (∀ (l : LaneId), Does (.tamperBreach l)
      (fun L => L.powered = true ∧ L.upState = true ∧ L.gstate ≠ 3)
      (fun L M => M.svc = 6 ∧ (L.guardSt.powered = true → M.gstate = 3))) ∧
    (∀ (l : LaneId), Does (.authdataChallenge l)
      (fun L => L.powered = true ∧ (L.is Reg.SE_STATUS_TAMPER = true ∨ L.sec.entropyBad = true))
      (fun L M => M = { L with sec := { L.sec with tokenStatus := if L.is Reg.SE_STATUS_TAMPER then 9 else 10, nonceRead := 0 } })) ∧
    (∀ (l : LaneId), Does (.authdataChallenge l)
      (fun L => L.powered = true ∧ L.is Reg.SE_STATUS_TAMPER = false ∧ L.sec.entropyBad = false)
      (fun L M => M.sec = { L.sec with nonce := some (L.free .nonce % 2 ^ 256), nonceRead := 8, tokenWords := [] } ∧ M.timerAt .debugNonce = some L.el ∧ M.draws = L.draws + 1)) ∧
    (∀ (l : LaneId) (w : Word), Does (.authdataTokenWord l w)
      (fun L => L.powered = true ∧ L.sec.tokenCheck = false)
      (fun L M => M = { L with sec := { L.sec with tokenWords := L.sec.tokenWords ++ [w], tokenCheck := decide (47 ≤ L.sec.tokenWords.length), nonceRead := 0 } })) ∧
    (∀ (l : LaneId), Does (.authdataClose l)
      (fun L => L.powered = true)
      (fun L M => M.is Reg.SE_DBG_OPEN = false ∧ M.rd Reg.SE_DBG_SCOPE = 0 ∧ M.running .token = false ∧ (∀ h : Core, (vget M.core h).run = if (vget L.core h).run = .debugHalted then .running else (vget L.core h).run) ∧ M.dbg = { L.dbg with haltreq := Vector.replicate 4 false, secHalted := false })) ∧
    (∀ (l : LaneId) (n : Nat), Does (.authdataRead l)
      (fun L => L.powered = true ∧ L.sec.nonce = some n ∧ 1 ≤ L.sec.nonceRead)
      (fun L M => M.out = L.out ++ [.tdo (n / 2 ^ (32 * (8 - L.sec.nonceRead)) % 2 ^ 32)] ∧ M.sec = { L.sec with nonceRead := L.sec.nonceRead - 1 })) ∧
    (∀ (l : LaneId), Does (.authdataRead l)
      (fun L => L.powered = true ∧ L.sec.nonceRead = 0)
      (fun L M => M.out = L.out ++ [.tdo L.sec.tokenStatus] ∧ M.sec = L.sec ∧ M.regs = L.regs)) ∧
    (∀ (l : LaneId), Does (.debugTokenCheckDone l)
      (fun L => L.powered = true ∧ L.sec.tokenCheck = true ∧ L.is Reg.SE_STATUS_TAMPER = false)
      (fun L M => (let b := L.sec.tokenWords.flatMap (fun w => leBytes 4 w.toNat)
         let t := tokenOf b (L.dbgKey (field b 52 1))
         M.sec.tokenStatus = L.tokenVerdict t ∧ M.is Reg.SE_DBG_OPEN = (L.is Reg.SE_DBG_OPEN || decide (L.tokenVerdict t = 0)) ∧
           (L.tokenVerdict t = 0 → M.rd Reg.SE_DBG_SCOPE = t.scope % 32 ∧ (L.lifecycle = 1 ∨ L.lifecycle = 2 → M.timerAt .token = some (L.el + t.validS * 1000000000)))) ∧
        M.sec.tokenCheck = false ∧ M.sec.tokenWords = [])) ∧
    (∀ (l : LaneId) (dt : Nat), Does (.debugOpenTimerExpiry l dt)
      (fun L => L.is Reg.SE_DBG_OPEN = true ∧ (L.pass dt).due .token 0 = true)
      (fun _ M => M.is Reg.SE_DBG_OPEN = false ∧ M.rd Reg.SE_DBG_SCOPE = 0 ∧ M.running .token = false))

/-- UPD_BEGIN begins a package, OK for the one in progress, REFUSED with its error otherwise; UPD_DATA collects fragments and a
whole chunk is kept, written to the staging area and forwarded in 64 link frames where its digest matches, else counted in BAD;
UPD_STATUS, UPD_INFO, UPD_PAUSE and UPD_ABORT answer. A checkpoint builds a part in the inactive bank; a good end is STAGED, an
error returns to IDLE, 7 keeping what was staged. The journal records each state. In RECOVERY the same commands act; elsewhere a
recovery descriptor counts DISC. -/
def Obligations.update_delivery : Prop :=
    (∀ (l : LaneId) (k : HostCmd) (g n : Nat) (b : Bool), Does (.updBegin l (some k) g n b)
      (fun L => L.Admits k.port none (some 7) none ∧ (4 ≤ L.updState ∨ ((L.updState = 1 ∨ L.updState = 2) ∧ g ≠ L.update.digest)))
      (fun L M => L.Answers M k 49 8 ([0]))) ∧
    (∀ (l : LaneId) (k : HostCmd) (g n : Nat) (b : Bool), Does (.updBegin l (some k) g n b)
      (fun L => L.Admits k.port none (some 7) none ∧ (L.updState = 1 ∨ L.updState = 2 ∨ L.updState = 3) ∧ g = L.update.digest)
      (fun L M => L.Answers M k 49 0 ([]))) ∧
    (∀ (l : LaneId) (k : HostCmd) (g n : Nat), Does (.updBegin l (some k) g n false)
      (fun L => L.Admits k.port none (some 7) none ∧ (L.updState = 0 ∨ (L.updState = 3 ∧ g ≠ L.update.digest)) ∧ (n = 0 ∨ 262144 < n))
      (fun L M => M.rd Reg.UP_STATE_ERR = 8 ∧ M.update = L.update ∧ (L.wr Reg.UP_STATE_ERR 8).Answers M k 49 8 ([8]))) ∧
    (∀ (l : LaneId) (k : HostCmd) (g n : Nat), Does (.updBegin l (some k) g n true)
      (fun L => L.Admits k.port none (some 7) none ∧ (L.updState = 0 ∨ (L.updState = 3 ∧ g ≠ L.update.digest)) ∧ nbit (L.hostSet k.port) 8 = false)
      (fun L M => M.rd Reg.UP_STATE_ERR = 9 ∧ M.update = L.update ∧ (L.wr Reg.UP_STATE_ERR 9).Answers M k 49 8 ([9]))) ∧
    (∀ (l : LaneId) (k : HostCmd) (g n : Nat), Does (.updBegin l (some k) g n false)
      (fun L => L.Admits k.port none (some 7) none ∧ (L.updState = 0 ∨ (L.updState = 3 ∧ g ≠ L.update.digest)) ∧ 1 ≤ n ∧ n ≤ 262144 ∧ (L.update.keptAfter7 = false ∨ g ≠ L.update.digest))
      (fun L M => M.updState = 1 ∧ M.update.digest = g ∧ M.update.chunks = n ∧ M.update.bitmap = [] ∧ M.update.staged = none ∧ M.update.waiting = [] ∧ M.update.active = L.update.active ∧ (M.store.all (fun e => !(decide (0x40000000 ≤ e.1) && decide (e.1 < 0x80000000)))) = true ∧ (∃ j : Fin 2, (vget M.update.journal j).passes L.id = true ∧ (vget M.update.journal j).record.state = 1 ∧ (vget M.update.journal j).record.digest = g ∧ (vget M.update.journal j).record.chunks = n ∧
          ∀ m : Fin 2, m ≠ j → vget M.update.journal m = vget L.update.journal m) ∧
        (∀ q : Fin 16, L.replyQueue k.port = some q → L.queueFree q = true →
          M.sramBytes (L.slotAddr q (vget L.queue q).next) 64 = descrBytes ⟨49, 1, k.tag % 65536, (vget L.queue q).next, 0, List.replicate 48 0⟩))) ∧
    (∀ (l : LaneId) (k : HostCmd) (ch : Nat) (f : Fin 128) (d : Vector Byte 32), Does (.updData l (some k) ch f d)
      (fun L => L.Admits k.port none (some 7) none ∧ (L.updState ≠ 1 ∨ L.update.chunks ≤ ch ∨ L.holds ch = true))
      (fun L M => M = L)) ∧
    (∀ (l : LaneId) (k : HostCmd) (ch : Nat) (f : Fin 128) (d : Vector Byte 32), Does (.updData l (some k) ch f d)
      (fun L => L.Admits k.port none (some 7) none ∧ L.updState = 1 ∧ ch < L.update.chunks ∧ L.holds ch = false ∧ ((Tab.get [] L.update.frags ch).filter (fun e => decide (e.1 ≠ f.val))).length < 127)
      (fun L M => M.out = L.out ∧ M.regs = L.regs ∧ M.store = L.store ∧ (f.val, d.toList) ∈ Tab.get [] M.update.frags ch ∧
        (∀ e ∈ Tab.get [] L.update.frags ch, e.1 ≠ f.val → e ∈ Tab.get [] M.update.frags ch) ∧ M.update = { L.update with frags := M.update.frags })) ∧
    (∀ (l : LaneId) (k : HostCmd) (fs : List (Nat × List Byte)) (d : Vector Byte 32), Does (.updData l (some k) 0 127 d)
      (fun L => L.Admits k.port none (some 7) none ∧ L.updState = 1 ∧ 1 < L.update.chunks ∧ L.update.bitmap = [] ∧ L.update.waiting = [] ∧ Tab.get [] L.update.frags 0 = fs ∧ fs.map (fun e => e.1) = (List.range 127).reverse)
      (fun L M => let b := (fs.reverse.map (fun e => e.2)).flatten ++ d.toList
        if (manifestOf b L.slotKey).digest = L.update.digest then M.update.staged = some (manifestOf b L.slotKey) ∧ M.update.bitmap = insertNum 0 L.update.bitmap ∧ (∀ i, i < b.length → Tab.get 0 M.store (0x40000000 + 4096 * 0 + i) = b.getD i 0) ∧
            M.link = (List.range 64).foldl (fun q i => linkAdd ⟨some (.chunk 0 i), 4, 544, 544, false⟩ q) L.link ∧ M.rd Reg.UP_CNT_FWDCNT = min 65535 (L.rd Reg.UP_CNT_FWDCNT + 1) ∧ M.rd Reg.UP_CNT_BAD = L.rd Reg.UP_CNT_BAD
        else M.rd Reg.UP_CNT_BAD = min 65535 (L.rd Reg.UP_CNT_BAD + 1) ∧ M.update.bitmap = L.update.bitmap ∧ M.store = L.store ∧ M.link = L.link ∧ M.update.staged = L.update.staged ∧ Tab.get [] M.update.frags 0 = [])) ∧
    (∀ (l : LaneId) (sd : Side) (d : List Byte) (f : StatusFrame), Does (.forwardedChunkRx l sd 0 d)
      (fun L => L.firmware = true ∧ vget L.nb sd.ix = some f ∧ L.updState = 1 ∧ f.updDigest = L.update.digest ∧ 0 < L.update.chunks ∧ L.holds 0 = false ∧ L.update.waiting = [] ∧ L.update.bitmap.length + 1 < L.update.chunks)
      (fun L M => M.is Reg.UP_STATE_FWD = true ∧
        if (manifestOf d L.slotKey).digest = L.update.digest then M.update.staged = some (manifestOf d L.slotKey) ∧ M.updState = 1 ∧ M.update.bitmap = insertNum 0 L.update.bitmap ∧ (∀ i, i < d.length → Tab.get 0 M.store (0x40000000 + 4096 * 0 + i) = d.getD i 0) ∧
            M.link = (List.range 64).foldl (fun q i => linkAdd ⟨some (.chunk 0 i), 4, 544, 544, false⟩ q) L.link ∧ M.rd Reg.UP_CNT_FWDCNT = min 65535 (L.rd Reg.UP_CNT_FWDCNT + 1) ∧ M.rd Reg.UP_CNT_BAD = L.rd Reg.UP_CNT_BAD
        else M.update.staged = L.update.staged ∧ M.rd Reg.UP_CNT_BAD = min 65535 (L.rd Reg.UP_CNT_BAD + 1) ∧ M.update.bitmap = L.update.bitmap ∧ M.store = L.store ∧ M.link = L.link)) ∧
    (∀ (l : LaneId) (sd : Side) (ch : Nat) (d : List Byte) (f : StatusFrame), Does (.forwardedChunkRx l sd ch d)
      (fun L => L.firmware = true ∧ vget L.nb sd.ix = some f ∧ L.updState = 1 ∧ f.updDigest = L.update.digest ∧ ch < L.update.chunks ∧ L.holds ch = false ∧ L.update.waiting = [] ∧ L.update.bitmap.length + 1 < L.update.chunks ∧ ch ≠ 0 ∧ L.update.staged = none)
      (fun L M => M.is Reg.UP_STATE_FWD = true ∧ M.update.waiting = [(ch, d)] ∧ M.update.bitmap = L.update.bitmap ∧ M.store = L.store ∧ M.link = L.link ∧ M.rd Reg.UP_CNT_BAD = L.rd Reg.UP_CNT_BAD)) ∧
    (∀ (l : LaneId) (sd : Side) (ch : Nat) (d : List Byte) (f : StatusFrame) (m : Manifest), Does (.forwardedChunkRx l sd ch d)
      (fun L => L.firmware = true ∧ vget L.nb sd.ix = some f ∧ L.updState = 1 ∧ f.updDigest = L.update.digest ∧ ch < L.update.chunks ∧ L.holds ch = false ∧ L.update.waiting = [] ∧ L.update.bitmap.length + 1 < L.update.chunks ∧ L.update.staged = some m ∧ m.tableChunks < ch ∧ L.tableDone = true)
      (fun L M => M.is Reg.UP_STATE_FWD = true ∧ M.update.staged = some m ∧
        if ofLe (shake 32 d) = ofLe (Tab.run 0 L.store (0x40001000 + 32 * (ch - m.tableChunks - 1)) 32) then M.updState = 1 ∧ M.update.bitmap = insertNum ch L.update.bitmap ∧ (∀ i, i < d.length → Tab.get 0 M.store (0x40000000 + 4096 * ch + i) = d.getD i 0) ∧
            M.link = (List.range 64).foldl (fun q i => linkAdd ⟨some (.chunk ch i), 4, 544, 544, false⟩ q) L.link ∧ M.rd Reg.UP_CNT_FWDCNT = min 65535 (L.rd Reg.UP_CNT_FWDCNT + 1) ∧ M.rd Reg.UP_CNT_BAD = L.rd Reg.UP_CNT_BAD
        else M.rd Reg.UP_CNT_BAD = min 65535 (L.rd Reg.UP_CNT_BAD + 1) ∧ M.update.bitmap = L.update.bitmap ∧ M.store = L.store ∧ M.link = L.link)) ∧
    (∀ (l : LaneId) (k : HostCmd) (n : Nat), Does (.updStatus l (some k))
      (fun L => L.Admits k.port none (some 7) none ∧ L.update.bitmap.contains n = false ∧ (∀ j, j < n → L.update.bitmap.contains j = true) ∧ n ≤ L.update.bitmap.length)
      (fun L M => L.Answers M k 51 0 (leBytes 1 L.updState ++ leBytes 1 (L.rd Reg.UP_STATE_ERR) ++ leBytes 2 0 ++ leBytes 4 L.update.bitmap.length ++ leBytes 4 n ++
          leBytes 32 ((List.range 256).foldl (fun v i => v + 2 ^ i * b2n (L.update.bitmap.contains (n + i))) 0)))) ∧
    (∀ (l : LaneId) (k : HostCmd) (m : Manifest), Does (.updInfo l (some k))
      (fun L => L.Admits k.port none (some 7) none ∧ vget L.update.manifests L.activeBank = some m ∧ m.sigOk = true)
      (fun L M => L.Answers M k 54 0 (leBytes 32 m.digest ++ leBytes 4 m.version ++ leBytes 4 (if L.updState < 3 then 0 else (L.update.staged.map (fun x => x.version)).getD 0) ++ leBytes 1 (L.rd Reg.UP_FLOOR_FLOOR)))) ∧
    (∀ (l : LaneId) (k : HostCmd), Does (.updAbort l (some k))
      (fun L => L.Admits k.port none (some 7) none)
      (fun L M => if L.updState ≤ 2 then M.updState = 0 ∧ M.update.bitmap = [] ∧ M.update.staged = none ∧ M.update.digest = 0 ∧ M.update.chunks = 0 ∧ (M.store.all (fun e => !(decide (0x40000000 ≤ e.1) && decide (e.1 < 0x80000000)))) = true ∧ M.update.keptAfter7 = false ∧ (∃ n : Fin 2, (vget M.update.journal n).passes L.id = true ∧ (vget M.update.journal n).record.state = 0 ∧
          ∀ m : Fin 2, m ≠ n → vget M.update.journal m = vget L.update.journal m) ∧
          (∀ q : Fin 16, L.replyQueue k.port = some q → L.queueFree q = true →
          M.sramBytes (L.slotAddr q (vget L.queue q).next) 64 = descrBytes ⟨52, 1, k.tag % 65536, (vget L.queue q).next, 0, List.replicate 48 0⟩) else L.Answers M k 52 8 ([]))) ∧
    (∀ (l : LaneId) (k : HostCmd) (b : Bool), Does (.updPause l k b)
      (fun L => L.Admits k.port none (some 7) none)
      (fun L M => if L.updState < 4 then M.is Reg.UP_STATE_PAUSED = b ∧ (L.wr Reg.UP_STATE_PAUSED (b2n b)).Answers M k 55 0 ([]) else L.Answers M k 55 8 ([]))) ∧
    (∀ (l : LaneId) (n : Nat), Does (.updStatus l none)
      (fun L => L.start.phase = .recovery ∧ L.update.bitmap.contains n = false ∧ (∀ j, j < n → L.update.bitmap.contains j = true) ∧ n ≤ L.update.bitmap.length)
      (fun L M => M = { L with out := L.out ++ [if L.lifecycle = 3 then .recovery 51 0 8 [] else .recovery 51 0 0 (leBytes 1 L.updState ++ leBytes 1 (L.rd Reg.UP_STATE_ERR) ++ leBytes 2 0 ++ leBytes 4 L.update.bitmap.length ++ leBytes 4 n ++
          leBytes 32 ((List.range 256).foldl (fun v i => v + 2 ^ i * b2n (L.update.bitmap.contains (n + i))) 0))] })) ∧
    (∀ (l : LaneId) (src : Nat) (d : Descr), Does (.recoveryDescriptor l src d)
      (fun L => L.isoOn = true ∧ L.start.phase ≠ .recovery ∧ L.isobus.tpRx = none)
      (fun L M => M.rd Reg.IB_CNT_DISC = min 65535 (L.rd Reg.IB_CNT_DISC + 1) ∧ M = { L with regs := M.regs } ∧ ∀ g : Fld, g.key ≠ Reg.IB_CNT_DISC.key → M.rd g = L.rd g)) ∧
    (∀ (l : LaneId) (src : Nat) (d : Descr) (m : Manifest), Does (.recoveryDescriptor l src d)
      (fun L => L.isoOn = true ∧ L.start.phase = .recovery ∧ L.isobus.tpRx = none ∧ d.op = 54 ∧ L.lifecycle ≠ 3 ∧ vget L.update.manifests L.activeBank = some m ∧ m.sigOk = true)
      (fun L M => M = { L with out := L.out ++ [.recovery 54 0 0 (leBytes 32 m.digest ++ leBytes 4 m.version ++ leBytes 4 (if L.updState < 3 then 0 else (L.update.staged.map (fun x => x.version)).getD 0) ++ leBytes 1 (L.rd Reg.UP_FLOOR_FLOOR))] })) ∧
    (∀ (l : LaneId) (src : Nat) (d : Descr), Does (.recoveryDescriptor l src d)
      (fun L => L.isoOn = true ∧ L.start.phase = .recovery ∧ L.isobus.tpRx = none ∧ d.op = 49 ∧ L.lifecycle ≠ 3 ∧ L.updState = 0 ∧ 1 ≤ field d.args 32 4 ∧ field d.args 32 4 ≤ 262144 ∧ L.update.keptAfter7 = false)
      (fun L M => M.updState = 1 ∧ M.update.digest = field d.args 0 32 ∧ M.update.chunks = field d.args 32 4 ∧ M.update.bitmap = [] ∧ M.update.staged = none ∧ M.update.waiting = [] ∧ M.update.active = L.update.active ∧ (M.store.all (fun e => !(decide (0x40000000 ≤ e.1) && decide (e.1 < 0x80000000)))) = true ∧ M.out = L.out ++ [.recovery 49 0 0 []])) ∧
    (∀ (l : LaneId) (p i o : Nat) (m : Manifest) (x : PartEntry), Does (.updateApplyCheckpoint l p i)
      (fun L => L.powered = true ∧ L.updState = 2 ∧ L.is Reg.UP_STATE_PAUSED = false ∧ L.update.staged = some m ∧ (installed m L.id)[p]? = some (x, o) ∧ x.enc = 0 ∧ Tab.wf 0 L.store = true)
      (fun L M => M.update.checkpoint = (p, min (i * 2 ^ 20) x.inLen, min (i * 2 ^ 20) x.inLen) ∧ M.rd Reg.UP_APPLY_PART = p % 256 ∧ M.rd Reg.UP_APPLY_MIB = min (i * 2 ^ 20) x.inLen / 2 ^ 20 % 256 ∧ (∃ j : Fin 2, (vget M.update.journal j).passes L.id = true ∧ (vget M.update.journal j).record.state = 2 ∧ (vget M.update.journal j).record.checkpoint = M.update.checkpoint ∧
          ∀ z : Fin 2, z ≠ j → vget M.update.journal z = vget L.update.journal z) ∧
        (∀ a, a < min (i * 2 ^ 20) x.inLen → Tab.get 0 M.store (bankBase L.inactiveBank + o + a) = Tab.get 0 L.store (0x40000000 + 4096 * x.firstChunk + a)) ∧ M.update.active = L.update.active)) ∧
    (∀ (l : LaneId) (p i o : Nat) (m : Manifest) (x : PartEntry), Does (.updateApplyCheckpoint l p i)
      (fun L => L.powered = true ∧ L.updState = 2 ∧ L.is Reg.UP_STATE_PAUSED = false ∧ L.update.staged = some m ∧ (installed m L.id)[p]? = some (x, o) ∧ x.enc = 1 ∧ L.basePart x = none)
      (fun L M => M.updState = 0 ∧ M.update.bitmap = [] ∧ M.update.staged = none ∧ M.update.digest = 0 ∧ M.update.chunks = 0 ∧ (M.store.all (fun e => !(decide (0x40000000 ≤ e.1) && decide (e.1 < 0x80000000)))) = true ∧ M.rd Reg.UP_STATE_ERR = 5 ∧ (∃ n : Fin 2, (vget M.update.journal n).passes L.id = true ∧ (vget M.update.journal n).record.state = 0 ∧
          ∀ z : Fin 2, z ≠ n → vget M.update.journal z = vget L.update.journal z))) ∧
    (∀ (l : LaneId) (m : Manifest), Does (.updateApplyDone l false)
      (fun L => L.powered = true ∧ L.updState = 2 ∧ L.is Reg.UP_STATE_PAUSED = false ∧ L.update.staged = some m)
      (fun L M => M.updState = 0 ∧ M.update.bitmap = [] ∧ M.update.staged = none ∧ M.update.digest = 0 ∧ M.update.chunks = 0 ∧ (M.store.all (fun e => !(decide (0x40000000 ≤ e.1) && decide (e.1 < 0x80000000)))) = true ∧ M.rd Reg.UP_STATE_ERR = 12 ∧ M.update.active = L.update.active ∧ M.update.manifests = L.update.manifests)) ∧
    (∀ (l : LaneId) (m : Manifest), Does (.updateApplyDone l true)
      (fun L => L.powered = true ∧ L.updState = 2 ∧ L.is Reg.UP_STATE_PAUSED = false ∧ L.update.staged = some m ∧ L.buildError m = 0)
      (fun L M => if L.builtDigestsOk m = false then M.updState = 0 ∧ M.rd Reg.UP_STATE_ERR = 7 ∧ M.update.keptAfter7 = true ∧ M.update.bitmap = L.update.bitmap ∧ M.store = L.store
        else if L.builtImageOk m = true then M.updState = 3 ∧ vget M.update.manifests L.inactiveBank = some m ∧ vget M.update.built L.inactiveBank = true ∧ M.update.active = L.update.active ∧
          (vget M.update.manifests L.activeBank = vget L.update.manifests L.activeBank) ∧ M.update.bitmap = L.update.bitmap
        else M.updState = 0 ∧ M.update.bitmap = [] ∧ M.update.staged = none ∧ M.update.digest = 0 ∧ M.update.chunks = 0 ∧ (M.store.all (fun e => !(decide (0x40000000 ≤ e.1) && decide (e.1 < 0x80000000)))) = true ∧ 1 ≤ M.rd Reg.UP_STATE_ERR ∧ M.rd Reg.UP_STATE_ERR ≤ 6))

/-- UPD_ACTIVATE is REFUSED with the code of the first condition of R523 that fails, else the lane is PREPARED as coordinator,
and its journal says so; without an announcement within 100 ms it is STAGED again. At the announced instant the update restart
turns the ports off, enters HOLD and resets the lane die. A trial that is not confirmed within 1 s reverts to the previous bank
with error 11. A package built in RECOVERY names its bank as active and starts the lane. Blown floor fuses show FLOOR. -/
def Obligations.update_activation : Prop :=
    (∀ (l : LaneId) (k : HostCmd) (c : Nat), Does (.updActivate l k)
      (fun L => L.Admits k.port none (some 7) none ∧ L.updState ≠ 4 ∧ L.updState ≠ 5 ∧ L.activateBar false = some c)
      (fun L M => 20 ≤ c ∧ c ≤ 24 ∧ L.Answers M k 53 8 (leBytes 1 c))) ∧
    (∀ (l : LaneId) (k : HostCmd), Does (.updActivate l k)
      (fun L => L.Admits k.port none (some 7) none ∧ L.updState ≠ 4 ∧ L.updState ≠ 5 ∧ L.activateBar false = none)
      (fun L M => M.updState = 4 ∧ M.update = { L.update with coordinator := true, asker := some k, journal := M.update.journal } ∧ M.timerAt .prepared = some L.el ∧ M.out = L.out ∧ M.sram = L.sram ∧ (∃ n : Fin 2, (vget M.update.journal n).passes L.id = true ∧ (vget M.update.journal n).record.state = 4 ∧
          ∀ m : Fin 2, m ≠ n → vget M.update.journal m = vget L.update.journal m))) ∧
    (∀ (l : LaneId) (k : HostCmd), Does (.updActivate l k)
      (fun L => L.Admits k.port none (some 7) none ∧ (L.updState = 4 ∨ L.updState = 5) ∧ (L.update.coordinator = false ∨ L.update.asker = none))
      (fun L M => L.Answers M k 53 0 ([]))) ∧
    (∀ (l : LaneId) (dt : Nat), Does (.preparedTimeout l dt)
      (fun L => L.updState = 4 ∧ (L.pass dt).due .prepared 100000000 = true)
      (fun L M => M.updState = 3 ∧ M.update.coordinator = false ∧ M.update.asker = none ∧ M.update.active = L.update.active ∧ M.running .prepared = false ∧ (∃ n : Fin 2, (vget M.update.journal n).passes L.id = true ∧ (vget M.update.journal n).record.state = 3 ∧
          ∀ m : Fin 2, m ≠ n → vget M.update.journal m = vget L.update.journal m))) ∧
    (∀ (l : LaneId) (t : Nat), Does (.updateRestart l)
      (fun L => L.powered = true ∧ L.updState = 5 ∧ L.update.restartAt = some t ∧ t ≤ L.now)
      (fun L M => M.gstate = 0 ∧ M.start.phase = .dieReset ∧ M.update = L.update ∧ M.updState = L.updState ∧ (∀ p : Port, M.bitOf Reg.GD_STAT_EN p.val = false) ∧ (∀ n : Fin 4, (vget M.solenoid n).forced = true) ∧ M.is Reg.LG_CONT_KMCMD = false)) ∧
    (∀ (l : LaneId), Does (.updateRestart l)
      (fun L => L.updState ≠ 5 ∨ (∀ t, L.update.restartAt = some t → L.now < t))
      (fun L M => M = L)) ∧
    (∀ (l : LaneId) (dt : Nat), Does (.trialTimeout l dt)
      (fun L => L.firmware = true ∧ L.updState = 6 ∧ (L.pass dt).due .trial 1000000000 = true)
      (fun L M => M.updState = 0 ∧ M.rd Reg.UP_STATE_ERR = 11 ∧ M.update.active = L.update.previous ∧ M.update.previous = L.update.active ∧ M.update.reverted = some (((vget L.update.manifests L.activeBank).map (fun m => m.digest)).getD 0) ∧ M.start.phase = .romCheck)) ∧
    (∀ (l : LaneId) (m : Manifest), Does (.recoveryPackageBuilt l)
      (fun L => L.start.phase = .recovery ∧ L.updState = 2 ∧ L.lifecycle ≠ 3 ∧ L.update.staged = some m ∧ L.buildError m = 0)
      (fun L M => if L.builtDigestsOk m = true ∧ L.builtImageOk m = true then M.update.active = L.inactiveBank.val ∧ M.update.previous = L.update.active ∧ vget M.update.manifests L.inactiveBank = some m ∧ M.updState = 0 ∧
          M.update.bitmap = [] ∧ M.start.phase = .romCheck
        else M.updState = 0 ∧ M.start.phase = .recovery ∧ M.update.active = L.update.active ∧ 1 ≤ M.rd Reg.UP_STATE_ERR ∧ M.rd Reg.UP_STATE_ERR ≤ 7)) ∧
    (∀ (l : LaneId), Does (.recoveryPackageBuilt l)
      (fun L => L.start.phase ≠ .recovery ∨ L.updState ≠ 2 ∨ L.lifecycle = 3)
      (fun L M => M = L)) ∧
    (∀ (l : LaneId) (f : Nat), Does (.floorFusesBlown l)
      (fun L => L.update.floorPending = some f ∧ f < 64)
      (fun L M => M.rd Reg.UP_FLOOR_FLOOR = f ∧ M = { L with regs := M.regs, update := { L.update with floorPending := none } } ∧ ∀ g : Fld, g.key ≠ Reg.UP_FLOOR_FLOOR.key → M.rd g = L.rd g))

/-- A fuse GO that meets R541 starts programming, another sets REFUSED; it ends with the entry valid. A due tick starts a slice
of the next target whose conditions hold; a slice that ends counts its turn, and a failure sets its FAILED bit and source 451.
BT_TEST acts in TEST only. An ageing GO takes the tail and sets BUSY; its end sets DONE, moves HEAD, counts a bad record in BAD
and takes a good one into the hours. A domain that has woken is on, after a wake of DRV from off the carriers begin anew, and a
hart whose mtimecmp is reached has its timer interrupt pending. -/
def Obligations.self_test_and_ageing : Prop :=
    (∀ (l : LaneId) (core : Core) (v : Word), Does (.btFuseGo l core v)
      (fun L => L.coreLive core = true ∧ L.waitsCommit (some core) = false ∧ L.waitsAt (some core) = none ∧ L.asleep (0x200D0024) = none ∧ v.toNat / 65536 % 4 = 1 ∧ L.fuseOk 1 (v.toNat % 65536) = true)
      (fun L M => M.is Reg.BT_FUSE_BUSY = true ∧ M.rd Reg.BT_FUSE_ROW = v.toNat % 65536 ∧ M.rd Reg.BT_FUSE_ARRAY = 1 ∧ M.rd Reg.BT_REP_FUSED = (L.test.fuses.length + 1) % 256 ∧ M.test = { L.test with fuses := L.test.fuses ++ [⟨1, v.toNat % 65536, false⟩], fusing := some (1, v.toNat % 65536) } ∧ M = { L with core := M.core, regs := M.regs, test := M.test })) ∧
    (∀ (l : LaneId) (core : Core) (v : Word), Does (.btFuseGo l core v)
      (fun L => L.coreLive core = true ∧ L.waitsCommit (some core) = false ∧ L.waitsAt (some core) = none ∧ L.asleep (0x200D0024) = none ∧ L.fuseOk (v.toNat / 65536 % 4) (v.toNat % 65536) = false)
      (fun L M => M.is Reg.BT_FUSE_REFUSED = true ∧ M.rd Reg.BT_FUSE_ROW = v.toNat % 65536 ∧ M.rd Reg.BT_FUSE_ARRAY = v.toNat / 65536 % 4 ∧ M = { L with core := M.core, regs := M.regs })) ∧
    (∀ (l : LaneId) (a r : Nat) (es : List FuseEntry) (e : FuseEntry), Does (.btFuseDone l)
      (fun L => L.test.fusing = some (a, r) ∧ L.test.fuses = es ++ [e])
      (fun L M => M.is Reg.BT_FUSE_BUSY = false ∧ M.test = { L.test with fusing := none, fuses := es ++ [⟨a, r, true⟩] } ∧ (if L.plic.busy.contains Irq.bt then M.plic.held else M.irqs).contains Irq.bt = true)) ∧
    (∀ (l : LaneId) (dt t : Nat), Does (.sliceSchedulerTick l dt)
      (fun L => L.firmware = true ∧ L.is Reg.BT_SLICE_CTRL_EN = true ∧ L.is Reg.BT_SLICE_STAT_RUNNING = false ∧ (L.pass dt).due .slice (L.rd Reg.BT_SLICE_CTRL_INTERVAL * 1000000) = true ∧ L.test.nextTarget = t ∧ t < 6 ∧ (L.pass dt).sliceReady t = true)
      (fun L M => M.is Reg.BT_SLICE_STAT_RUNNING = true ∧ M.rd Reg.BT_SLICE_STAT_CURRENT = t ∧ M.test.nextTarget = (t + 1) % 6 ∧ M.timerAt .slice = some (L.pass dt).el ∧ (t = 2 → (vget M.core 2).run = .selfTest ∧ (vget M.core 3).run = .selfTest))) ∧
    (∀ (l : LaneId) (dt : Nat), Does (.sliceSchedulerTick l dt)
      (fun L => L.firmware = true ∧ L.is Reg.BT_SLICE_CTRL_EN = true ∧ L.is Reg.BT_SLICE_STAT_RUNNING = false ∧ (L.pass dt).due .slice (L.rd Reg.BT_SLICE_CTRL_INTERVAL * 1000000) = true ∧ (∀ t : Fin 6, (L.pass dt).sliceReady t.val = false))
      (fun L M => M.timerAt .slice = some (L.pass dt).el ∧ M = { L.pass dt with timers := M.timers })) ∧
    (∀ (l : LaneId) (b : Bool) (a : BitVec 16) (e o : Bool), Does (.sliceDone l b a e o)
      (fun L => L.is Reg.BT_SLICE_STAT_RUNNING = true ∧ L.rd Reg.BT_SLICE_STAT_CURRENT = 0)
      (fun L M => M.is Reg.BT_SLICE_STAT_RUNNING = false ∧ M.bitOf Reg.BT_SLICE_STAT_FAILED 0 = (L.bitOf Reg.BT_SLICE_STAT_FAILED 0 || !b) ∧ (b = false → M.sticky 451 = true ∧ M.rd Reg.BT_SLICE_ADDR_ROW = a.toNat) ∧ vget M.test.units 0 = (vget L.test.units 0 + 1) % 2048 ∧ (if L.plic.busy.contains Irq.bt then M.plic.held else M.irqs).contains Irq.bt = true)) ∧
    (∀ (l : LaneId) (core : Core) (t : Nat), Does (.btTestSlice l core t)
      (fun L => L.coreLive core = true ∧ L.waitsCommit (some core) = false ∧ L.waitsAt (some core) = none ∧ L.asleep (0x200D0050) = none ∧ L.svc = 8 ∧ t < 6 ∧ t ≠ 3 ∧ t ≠ 2 ∧ L.domOn 7 = true ∧ L.is Reg.BT_SLICE_STAT_RUNNING = false)
      (fun L M => M.is Reg.BT_SLICE_STAT_RUNNING = true ∧ M.rd Reg.BT_SLICE_STAT_CURRENT = t ∧ M.test = { L.test with nextTarget := (t + 1) % 6 } ∧ M = { L with core := M.core, regs := M.regs, test := M.test })) ∧
    (∀ (l : LaneId) (core : Core) (t : Nat), Does (.btTestSlice l core t)
      (fun L => L.coreLive core = true ∧ L.waitsCommit (some core) = false ∧ L.waitsAt (some core) = none ∧ L.asleep (0x200D0050) = none ∧ L.svc ≠ 8)
      (fun L M => M = { L with core := M.core })) ∧
    (∀ (l : LaneId) (core : Core), Does (.btTestAnalog l core)
      (fun L => L.coreLive core = true ∧ L.waitsCommit (some core) = false ∧ L.waitsAt (some core) = none ∧ L.asleep (0x200D0050) = none)
      (fun L M => M = if L.svc = 8 then { L with core := M.core, test := { L.test with analog := true } } else { L with core := M.core })) ∧
    (∀ (l : LaneId) (r : AnalogReadings) (a b : Word), Does (.analogRerunDone l r a b)
      (fun L => L.test.analog = true)
      (fun L M => M.test.analog = false ∧ M.rd Reg.GD_TEST_RES_0_DSAT = a.toNat % 2 ^ 18 ∧ M.rd Reg.GD_TEST_RES_1_OV = b.toNat / 512 % 8 ∧ M.rd Reg.BT_SOL_STAT_ANAFAIL = analogFails r ∧ (if L.plic.busy.contains Irq.bt then M.plic.held else M.irqs).contains Irq.bt = true ∧ (a.toNat % 2 ^ 24 ≠ 0 → M.sticky 231 = true ∧ M.bitOf Reg.BT_SOL_STAT_FAIL 3 = true) ∧ (a.toNat = 0 → b.toNat = 0 → analogFails r = 0 → M.bitOf Reg.BT_SOL_STAT_FAIL 3 = false))) ∧
    (∀ (l : LaneId) (core : Core), Does (.agRunGo l core)
      (fun L => L.coreLive core = true ∧ L.waitsCommit (some core) = false ∧ L.waitsAt (some core) = none ∧ L.asleep (0x200E0000) = none)
      (fun L M => if L.is Reg.AG_RUN_BUSY then M = { L with core := M.core } else M.is Reg.AG_RUN_BUSY = true ∧ M.test = { L.test with agTail := L.rd Reg.AG_RING_TAIL } ∧ M = { L with core := M.core, regs := M.regs, test := M.test } ∧ ∀ g : Fld, g.key ≠ Reg.AG_RUN_BUSY.key → M.rd g = L.rd g)) ∧
    (∀ (l : LaneId), Does (.ageingRunDone l)
      (fun L => L.is Reg.AG_RUN_BUSY = true)
      (fun L M => M.is Reg.AG_RUN_BUSY = false ∧ M.is Reg.AG_RUN_DONE = true ∧ M.rd Reg.AG_RING_HEAD = (if L.agRecords = [] then L.rd Reg.AG_RING_HEAD else L.test.agTail % max 1 (L.rd Reg.AG_RING_LEN) % 65536) ∧ M.test.kmOps = L.rd Reg.LG_KOPS_KM ∧ M.test.kpOps = L.rd Reg.LG_KOPS_KP ∧ M.sram = L.sram)) ∧
    (∀ (l : LaneId) (i : Nat), Does (.ageingRunDone l)
      (fun L => L.is Reg.AG_RUN_BUSY = true ∧ L.agRecords = [i])
      (fun L M => let d := field (L.sramBytes (L.rd Reg.AG_RING_BASE + 32 * i) 32) 22 2
        if d = 0 ∨ 1000 < d then M.rd Reg.AG_RUN_BAD = min 65535 (L.rd Reg.AG_RUN_BAD + 1) ∧ M.test.ageing.hours = L.test.ageing.hours
        else M.rd Reg.AG_RUN_BAD = L.rd Reg.AG_RUN_BAD ∧ M.test.ageing.hours = L.test.ageing.hours + d ∧ M.test.firstRecord = false)) ∧
    (∀ (l : LaneId) (dt : Nat) (d : Fin 8), Does (.pdWakeComplete l dt d)
      (fun L => (L.rd (Lane.pdFld d) = 4 ∨ L.rd (Lane.pdFld d) = 5) ∧ d ≠ 1 ∧ d ≠ 3 ∧ (d = 2 → (vget L.power.dom d).fromState ≠ 3) ∧ (vget L.power.dom d).stalled = [] ∧ L.power.request ≠ some (d, 0))
      (fun L M => M.rd (Lane.pdFld d) = 0 ∧ M = { L.pass dt with regs := M.regs, power := M.power } ∧ M.power = { (L.pass dt).power with dom := M.power.dom } ∧ (∀ g : Fld, g.key ≠ (Lane.pdFld d).key → M.rd g = (L.pass dt).rd g))) ∧
    (∀ (l : LaneId) (dt : Nat) (d : Fin 8), Does (.pdWakeComplete l dt d)
      (fun L => (L.rd (Lane.pdFld d) = 4 ∨ L.rd (Lane.pdFld d) = 5) ∧ d ≠ 1 ∧ d ≠ 3 ∧ (d = 2 → (vget L.power.dom d).fromState ≠ 3) ∧ (vget L.power.dom d).stalled = [] ∧ L.power.request = some (d, 0))
      (fun _ M => M.rd (Lane.pdFld d) = 0 ∧ M.is Reg.PD_REQ_BUSY = false ∧ M.is Reg.PD_REQ_DONE = true ∧ M.rd Reg.PD_REQ_RESULT = 0 ∧ M.power.request = none)) ∧
    (∀ (l : LaneId) (dt : Nat), Does (.pdWakeComplete l dt 2)
      (fun L => L.rd (Lane.pdFld 2) = 4 ∧ (vget L.power.dom 2).fromState = 3 ∧ (vget L.power.dom 2).stalled = [] ∧ L.power.request ≠ some (2, 0))
      (fun L M => M.rd (Lane.pdFld 2) = 0 ∧ (∀ n : Engine, (M.de n).psTick = (L.pass dt).nowTick) ∧ M.sram = L.sram)) ∧
    (∀ (l : LaneId) (dt : Nat) (h : Core), Does (.mtimecmpReached l dt h)
      (fun L => L.firmware = true)
      (fun L M => vget M.mtip h = decide (vget L.mtimecmp h ≤ (L.pass dt).now / 1000) ∧ (∀ j : Core, j ≠ h → vget M.mtip j = vget L.mtip j) ∧ M.regs = (L.pass dt).regs ∧ M.sram = L.sram))

/-- With a command at the front of the queue a step is exec of it on the state with the rest of the queue. On an empty queue
(the model's choice, log entry 18) a step is a tick: the queue stays empty and a lane without supply is as before; in a lane
with supply 40 ns pass, the frames that leave in them go out, the gate outputs follow what is asked of them and, while its
firmware runs, each hart's timer interrupt is pending where device time has reached its mtimecmp. -/
def Obligations.step_takes_the_front_command : Prop :=
    (∀ (s : State) (c : Instr) (q : List Instr), s.pending = c :: q → step s = exec c { s with pending := q }) ∧
    (∀ s : State, s.pending = [] → ∃ t : State, step s = .next t ∧ t.pending = [] ∧ ∀ l : LaneId,
        ((s.lane l).powered = false → t.lane l = s.lane l) ∧
        ((s.lane l).powered = true → (s.lane l).firmware = false → (s.lane l).ret.stalled = [] →
          t.lane l = { (s.lane l).pass 40 with gate := { (s.lane l).gate with drive := (t.lane l).gate.drive } }) ∧
        ((s.lane l).firmware = true → (s.lane l).ret.stalled = [] →
          (t.lane l).time = ((s.lane l).pass 40).time ∧ (t.lane l).link = linkRest 40 (s.lane l).link ∧
          (t.lane l).out = (s.lane l).out ++ linkSent 40 (s.lane l).link ∧ (t.lane l).sram = (s.lane l).sram ∧ (t.lane l).store = (s.lane l).store ∧
          ∀ h : Core, vget (t.lane l).mtip h = decide (vget (s.lane l).mtimecmp h ≤ ((s.lane l).pass 40).now / 1000)))

/-- Whatever is asked of the gates, when the outputs follow it, on a tick of the block or at an event, both gates of one phase
are never on together unless they were before; and a gate that turns on was asked to, while the other gate of its phase was off
and had fallen to within 1 V of its reference. -/
def Obligations.gate_interlock : Prop :=
    (∀ (L : Lane) (k : Fin 9), ¬((vget L.gate.drive (Fin.ofNat 18 (2 * k.val))).on = true ∧ (vget L.gate.drive (Fin.ofNat 18 (2 * k.val + 1))).on = true) →
        ¬((vget L.gateFollowAll.gate.drive (Fin.ofNat 18 (2 * k.val))).on = true ∧ (vget L.gateFollowAll.gate.drive (Fin.ofNat 18 (2 * k.val + 1))).on = true)) ∧
    (∀ (L : Lane) (b c : Fin 18), c.val = (if b.val % 2 = 0 then b.val + 1 else b.val - 1) → (vget L.gate.drive b).on = false →
        (vget L.gateFollowAll.gate.drive b).on = true → L.askedNow b = true ∧ (vget L.gateFollowAll.gate.drive c).on = false ∧
          ((vget L.gate.drive c).on = false → (vget L.gate.drive c).falls ≤ L.el)) ∧
    (∀ (s t : State) (l : LaneId) (k : Fin 9), s.pending = [] → (s.lane l).ret.stalled = [] → step s = .next t →
        ¬((vget (s.lane l).gate.drive (Fin.ofNat 18 (2 * k.val))).on = true ∧ (vget (s.lane l).gate.drive (Fin.ofNat 18 (2 * k.val + 1))).on = true) →
        ¬((vget (t.lane l).gate.drive (Fin.ofNat 18 (2 * k.val))).on = true ∧ (vget (t.lane l).gate.drive (Fin.ofNat 18 (2 * k.val + 1))).on = true))

/-- At reset (the model's choice, log entry 3: no lane has supply) no command waits, every lane is without supply and outside
every phase of its start, serves nothing and drives nothing, and the invariant of the device holds. -/
def Obligations.reset_state : Prop :=
    State.reset.Inv ∧
    (State.reset.pending = [] ∧ ∀ l : LaneId, State.reset.lane l = Lane.unpowered l ∧ (State.reset.lane l).powered = false ∧
        (State.reset.lane l).firmware = false ∧ (State.reset.lane l).gstate = 0 ∧ (State.reset.lane l).svc = 0 ∧
        (∀ f : Func, (State.reset.lane l).serves f = false ∧ (State.reset.lane l).role f = 0) ∧ (State.reset.lane l).parkOff = true)

/-- From every state in which each lane is the lane of its letter and the register file, the SRAM and the STORE window of every
lane are in their one canonical form (keys strictly rising, no entry equal to what an unlisted key reads as), every step,
whatever command stands at the front of the queue and with an empty queue, leads to such a state again. -/
def Obligations.every_step_keeps_the_invariant : Prop :=
    (∀ s t : State, s.Inv → step s = .next t → t.Inv)

/-- For every instruction of the drive engines with every operand at every value that its fields admit (SINCOS with an even rd),
decoding the word that encodes it gives that instruction with those operands; and every instruction that a word decodes to is
one that its fields admit. -/
def Obligations.engine_words_round_trip : Prop :=
    (∀ i : DeInstr, i.wf = true → deDecode (deEncode i) = some i) ∧
    (∀ (w : Word) (i : DeInstr), deDecode w = some i → i.wf = true)

/-- R: rd [25:21], ra [20:16], rb [15:11] and fn [10:0] 0, but f in fn[4:0] with fn[10:5] 0 for FTOQ, QTOF and QMUL. I: rd
[25:21], ra [20:16], imm16 [15:0]. B: ra [25:21], rb [20:16], off16 [15:0]. J: off26 [25:0]. A non-zero fn, or fn[10:5] of the
three, a non-zero ra of LUI, IN and OUT, rd or imm16 of JR, imm16[15:5] of a shift by an immediate, rb of FNEG, FABS and SINCOS,
any bit of NOP, and an opcode that R159 does not list, are illegal. The target of a branch taken, of J and of JAL is PC + 1 +
sext(off) in words. Fifteen words written out by hand, twelve legal and three illegal, decode so. -/
def Obligations.engine_word_formats : Prop :=
    (∀ e ∈ ([(0x01, DeInstr.add), (0x02, .sub), (0x03, .and), (0x04, .or), (0x05, .xor), (0x06, .sll), (0x07, .srl), (0x08, .sra), (0x09, .slt),
        (0x0A, .sltu), (0x0B, .min), (0x0C, .max), (0x0D, .mul), (0x28, .fadd), (0x29, .fsub), (0x2A, .fmul), (0x2B, .fma), (0x2C, .fmin),
        (0x2D, .fmax), (0x30, .flt), (0x36, .qadd), (0x37, .qsub), (0x39, .atan2)] : List (BitVec 6 × (Reg → Reg → Reg → DeInstr))),
      ∀ w : Word, w.extractLsb' 26 6 = e.1 → w.extractLsb' 0 11 = 0 → deDecode w = some (e.2 (w.extractLsb' 21 5) (w.extractLsb' 16 5) (w.extractLsb' 11 5))) ∧
    (∀ e ∈ ([(0x2E, DeInstr.fneg), (0x2F, .fabs), (0x31, .ftoi), (0x32, .itof), (0x3A, .recip), (0x3B, .rsqrt), (0x3C, .sqrt)] :
        List (BitVec 6 × (Reg → Reg → DeInstr))),
      ∀ w : Word, w.extractLsb' 26 6 = e.1 → w.extractLsb' 0 16 = 0 → deDecode w = some (e.2 (w.extractLsb' 21 5) (w.extractLsb' 16 5))) ∧
    (∀ w : Word, w.extractLsb' 26 6 = 0x38 → w.extractLsb' 0 16 = 0 → w.extractLsb' 21 1 = 0 → deDecode w = some (.sincos (w.extractLsb' 21 5) (w.extractLsb' 16 5))) ∧
    (∀ w : Word, w.extractLsb' 5 6 = 0 →
        (w.extractLsb' 26 6 = 0x33 → w.extractLsb' 11 5 = 0 → deDecode w = some (.ftoq (w.extractLsb' 21 5) (w.extractLsb' 16 5) (w.extractLsb' 0 5))) ∧
        (w.extractLsb' 26 6 = 0x34 → w.extractLsb' 11 5 = 0 → deDecode w = some (.qtof (w.extractLsb' 21 5) (w.extractLsb' 16 5) (w.extractLsb' 0 5))) ∧
        (w.extractLsb' 26 6 = 0x35 → deDecode w = some (.qmul (w.extractLsb' 21 5) (w.extractLsb' 16 5) (w.extractLsb' 11 5) (w.extractLsb' 0 5)))) ∧
    (∀ e ∈ ([(0x10, DeInstr.addi), (0x11, .andi), (0x12, .ori), (0x13, .xori), (0x18, .ld), (0x19, .st), (0x20, .beq), (0x21, .bne), (0x22, .blt),
        (0x23, .bge)] : List (BitVec 6 × (Reg → Reg → BitVec 16 → DeInstr))),
      ∀ w : Word, w.extractLsb' 26 6 = e.1 → deDecode w = some (e.2 (w.extractLsb' 21 5) (w.extractLsb' 16 5) (w.extractLsb' 0 16))) ∧
    (∀ e ∈ ([(0x14, DeInstr.lui), (0x1A, .inp), (0x1B, .outp)] : List (BitVec 6 × (Reg → BitVec 16 → DeInstr))),
      ∀ w : Word, w.extractLsb' 26 6 = e.1 → deDecode w = if w.extractLsb' 16 5 = 0 then some (e.2 (w.extractLsb' 21 5) (w.extractLsb' 0 16)) else none) ∧
    (∀ e ∈ ([(0x15, DeInstr.slli), (0x16, .srli), (0x17, .srai)] : List (BitVec 6 × (Reg → Reg → Reg → DeInstr))),
      ∀ w : Word, w.extractLsb' 26 6 = e.1 → deDecode w = if w.extractLsb' 5 11 = 0 then some (e.2 (w.extractLsb' 21 5) (w.extractLsb' 16 5) (w.extractLsb' 0 5)) else none) ∧
    (∀ w : Word, (w.extractLsb' 26 6 = 0x1C → w.extractLsb' 9 12 = 0 → deDecode w = some (.wait (w.extractLsb' 21 5) (w.extractLsb' 0 9))) ∧
        (w.extractLsb' 26 6 = 0x24 → deDecode w = some (.j (w.extractLsb' 0 26))) ∧ (w.extractLsb' 26 6 = 0x25 → deDecode w = some (.jal (w.extractLsb' 0 26))) ∧
        (w.extractLsb' 26 6 = 0x26 → deDecode w = if w.extractLsb' 21 5 = 0 ∧ w.extractLsb' 0 16 = 0 then some (.jr (w.extractLsb' 16 5)) else none) ∧
        (w.extractLsb' 26 6 = 0x27 → w.extractLsb' 0 26 = 0 → deDecode w = some .halt) ∧
        (w.extractLsb' 26 6 = 0x00 → deDecode w = if w.extractLsb' 0 26 = 0 then some .nop else none)) ∧
    (∀ w : Word, w.extractLsb' 26 6 ∈ ([0x0E, 0x0F, 0x1D, 0x1E, 0x1F, 0x3D, 0x3E, 0x3F] : List (BitVec 6)) → deDecode w = none) ∧
    (∀ w : Word, (w.extractLsb' 26 6 ∈ ([0x01, 0x02, 0x03, 0x04, 0x05, 0x06, 0x07, 0x08, 0x09, 0x0A, 0x0B, 0x0C, 0x0D, 0x28, 0x29, 0x2A, 0x2B, 0x2C, 0x2D, 0x2E, 0x2F, 0x30, 0x31,
        0x32, 0x36, 0x37, 0x38, 0x39, 0x3A, 0x3B, 0x3C] : List (BitVec 6)) ∧ w.extractLsb' 0 11 ≠ 0) ∨
        (w.extractLsb' 26 6 ∈ ([0x33, 0x34, 0x35] : List (BitVec 6)) ∧ w.extractLsb' 5 6 ≠ 0) ∨
        (w.extractLsb' 26 6 ∈ ([0x2E, 0x2F, 0x38] : List (BitVec 6)) ∧ w.extractLsb' 11 5 ≠ 0) → deDecode w = none) ∧
    (∀ (l : LaneId) (n : Engine) (ra rb : Reg) (off : BitVec 16), Does (.deBeq l n ra rb off)
      (fun L => L.deAt n (.beq ra rb off) = true ∧ (L.de n).reg ra = (L.de n).reg rb)
      (fun L M => (M.de n).pc = BitVec.ofInt 14 ((L.de n).pc.toNat + 1 + off.toInt))) ∧
    (∀ (l : LaneId) (n : Engine) (ra rb : Reg) (off : BitVec 16), Does (.deBne l n ra rb off)
      (fun L => L.deAt n (.bne ra rb off) = true ∧ (L.de n).reg ra ≠ (L.de n).reg rb)
      (fun L M => (M.de n).pc = BitVec.ofInt 14 ((L.de n).pc.toNat + 1 + off.toInt))) ∧
    (∀ (l : LaneId) (n : Engine) (ra rb : Reg) (off : BitVec 16), Does (.deBlt l n ra rb off)
      (fun L => L.deAt n (.blt ra rb off) = true ∧ ((L.de n).reg ra).toInt < ((L.de n).reg rb).toInt)
      (fun L M => (M.de n).pc = BitVec.ofInt 14 ((L.de n).pc.toNat + 1 + off.toInt))) ∧
    (∀ (l : LaneId) (n : Engine) (ra rb : Reg) (off : BitVec 16), Does (.deBge l n ra rb off)
      (fun L => L.deAt n (.bge ra rb off) = true ∧ ((L.de n).reg rb).toInt ≤ ((L.de n).reg ra).toInt)
      (fun L M => (M.de n).pc = BitVec.ofInt 14 ((L.de n).pc.toNat + 1 + off.toInt))) ∧
    (∀ (l : LaneId) (n : Engine) (off : BitVec 26), Does (.deJ l n off)
      (fun L => L.deAt n (.j off) = true)
      (fun L M => (M.de n).pc = BitVec.ofInt 14 ((L.de n).pc.toNat + 1 + off.toInt))) ∧
    (∀ (l : LaneId) (n : Engine) (off : BitVec 26), Does (.deJal l n off)
      (fun L => L.deAt n (.jal off) = true)
      (fun L M => (M.de n).pc = BitVec.ofInt 14 ((L.de n).pc.toNat + 1 + off.toInt))) ∧
    deDecode 0 = some .nop ∧ deDecode 0x04611000 = some (.add 3 1 2) ∧ deDecode 0x4061FFFE = some (.addi 3 1 0xFFFE) ∧ deDecode 0x60A20008 = some (.ld 5 2 8) ∧ deDecode 0x708001FF = some (.wait 4 0x1FF) ∧
    deDecode 0x8022FFFE = some (.beq 1 2 0xFFFE) ∧ deDecode 0x93FFFFFF = some (.j 0x3FFFFFF) ∧ deDecode 0x981F0000 = some (.jr 31) ∧ deDecode 0x9C000000 = some .halt ∧ deDecode 0xAC221800 = some (.fma 1 2 3) ∧
    deDecode 0xD422180F = some (.qmul 1 2 3 15) ∧ deDecode 0xE3C10000 = some (.sincos 30 1) ∧ deDecode 0xF0220000 = some (.sqrt 1 2) ∧ deDecode 0xE0210000 = none ∧ deDecode 0x38000000 = none ∧ deDecode 1 = none

/-- For every command and every state exec answers a next state with the same queue, in which every lane but the command's own
is as before; and from two states whose lane of the command is the same, that lane is the same after the command, whatever the
other two lanes hold. -/
def Obligations.commands_stay_in_their_lane : Prop :=
    (∀ (c : Instr) (s : State), ∃ t : State, exec c s = .next t ∧ t.pending = s.pending ∧ ∀ m : LaneId, m ≠ laneOf c → t.lane m = s.lane m) ∧
    (∀ (c : Instr) (s1 s2 t1 t2 : State), s1.lane (laneOf c) = s2.lane (laneOf c) → exec c s1 = .next t1 → exec c s2 = .next t2 →
        t1.lane (laneOf c) = t2.lane (laneOf c))

/-- Outside MANUFACTURE a system-bus write by the debugger to the ROLE, CM, FC, SE, LG or LL block or to the security area,
whatever its size, its data and the scope of its token, is refused with sberror 7 and changes nothing else; and a system-bus
read of SE_REQ_c_k or SE_RSP_c_k, which the map allows, gives 0. -/
def Obligations.debugger_writes_refused : Prop :=
    (∀ (l : LaneId) (a n v : Nat), Does (.debugSysbusAccess l a n (some v))
      (fun L => L.powered = true ∧ L.inManufacture = false ∧ ((0x20010000 ≤ a ∧ a < 0x20010000 + 0x10000) ∨ (0x20020000 ≤ a ∧ a < 0x20020000 + 0x10000) ∨ (0x20030000 ≤ a ∧ a < 0x20030000 + 0x10000) ∨
        (0x200B0000 ≤ a ∧ a < 0x200B0000 + 0x10000) ∨ (0x20170000 ≤ a ∧ a < 0x20170000 + 0x10000) ∨ (0x20180000 ≤ a ∧ a < 0x20180000 + 0x10000) ∨ (0x100020000 ≤ a ∧ a < 0x100021000)))
      (fun L M => M.dbg.sberror = 7 ∧ M = { L with dbg := { L.dbg with sberror := 7 } })) ∧
    (∀ (l : LaneId) (c k : Nat), Does (.debugSysbusAccess l (0x200B0100 + 0x100 * c + 4 * k) 4 none)
      (fun L => L.powered = true ∧ L.inManufacture = false ∧ L.scope 1 = true ∧ c < 2 ∧ k < 64 ∧ L.rd (Lane.pdFld 4) = 0)
      (fun _ M => M.dbg.sbdata = 0)) ∧
    (∀ (l : LaneId) (c k : Nat), Does (.debugSysbusAccess l (0x200B0400 + 0x100 * c + 4 * k) 4 none)
      (fun L => L.powered = true ∧ L.inManufacture = false ∧ L.scope 1 = true ∧ c < 2 ∧ k < 64 ∧ L.rd (Lane.pdFld 4) = 0)
      (fun _ M => M.dbg.sbdata = 0))

/-- When a served function enters Winter with a cause, its mode is 2 with that cause. From STEER, a served BRAKE that is not in
Winter enters it with cause 11, and with it TRAIL and PARK; from BRAKE, a served TRAIL and a served PARK do, with cause 11; FEEL
changes no other function. The same of the command that puts a function into Winter because two lanes disagree. -/
def Obligations.winter_spreads : Prop :=
    (∀ (L : Lane) (c : Nat), L.serves .steer = true → L.mode .steer ≠ 2 → c < 16 → (L.winter .steer c).mode .steer = 2 ∧
        (L.winter .steer c).rd (Reg.ROLE_FUNC_CAUSE Func.steer.code) = c ∧
        ∀ f : Func, f = .brake ∨ f = .trail ∨ f = .park → L.serves f = true → L.mode f ≠ 2 →
          (L.winter .steer c).mode f = 2 ∧ (L.winter .steer c).rd (Reg.ROLE_FUNC_CAUSE f.code) = 11) ∧
    (∀ (L : Lane) (c : Nat), L.serves .brake = true → L.mode .brake ≠ 2 → c < 16 → (L.winter .brake c).mode .brake = 2 ∧
        (L.winter .brake c).rd (Reg.ROLE_FUNC_CAUSE Func.brake.code) = c ∧
        (∀ f : Func, f = .trail ∨ f = .park → L.serves f = true → L.mode f ≠ 2 →
          (L.winter .brake c).mode f = 2 ∧ (L.winter .brake c).rd (Reg.ROLE_FUNC_CAUSE f.code) = 11) ∧
        ∀ f : Func, f = .steer ∨ f = .feel → (L.winter .brake c).mode f = L.mode f ∧
          (L.winter .brake c).rd (Reg.ROLE_FUNC_CAUSE f.code) = L.rd (Reg.ROLE_FUNC_CAUSE f.code)) ∧
    (∀ (L : Lane) (c : Nat), L.serves .feel = true → L.mode .feel ≠ 2 → c < 16 → (L.winter .feel c).mode .feel = 2 ∧
        (L.winter .feel c).rd (Reg.ROLE_FUNC_CAUSE Func.feel.code) = c ∧
        ∀ f : Func, f ≠ .feel → (L.winter .feel c).mode f = L.mode f ∧
          (L.winter .feel c).rd (Reg.ROLE_FUNC_CAUSE f.code) = L.rd (Reg.ROLE_FUNC_CAUSE f.code)) ∧
    (∀ (l : LaneId) (dt : Nat) (g f : Func), Does (.twoLaneDisagreementTimeout l dt g)
      (fun L => (L.pass dt).due (.disagree g) 20000000 = true ∧ L.serves g = true ∧ L.mode g ≠ 2 ∧ L.serves f = true ∧ L.mode f ≠ 2 ∧
        ((g = .steer ∧ (f = .brake ∨ f = .trail ∨ f = .park)) ∨ (g = .brake ∧ (f = .trail ∨ f = .park))))
      (fun _ M => M.mode g = 2 ∧ M.rd (Reg.ROLE_FUNC_CAUSE g.code) = 10 ∧ M.mode f = 2 ∧ M.rd (Reg.ROLE_FUNC_CAUSE f.code) = 11))

/-- When 20 ms have passed on an accusation that no other serving lane matches, source 320 is sticky in the accusing lane; the
roles that the lane holds and knows, the serving sets, ROLE_ACCUSE and the hardware accusations are as before; the code that the
guard sends stays unless the reaction of the source withdraws the lane; and while nothing withdraws the lane, every vote frame
carries the hardware accusation raised first or against the active lane, or, without one, the code of ROLE_ACCUSE. -/
def Obligations.minority_accusation : Prop :=
    (∀ (l : LaneId) (dt : Nat) (f g : Func), Does (.minorityAccusationTimeout l dt f)
      (fun L => (L.pass dt).due (.minority f) 20000000 = true)
      (fun L M => M.sticky 320 = true ∧ M.role g = L.role g ∧ M.rd (Reg.ROLE_FUNC_ACT g.code) = L.rd (Reg.ROLE_FUNC_ACT g.code) ∧
        M.rd (Reg.ROLE_FUNC_STB g.code) = L.rd (Reg.ROLE_FUNC_STB g.code) ∧ M.rd (Reg.ROLE_FUNC_ARB g.code) = L.rd (Reg.ROLE_FUNC_ARB g.code) ∧
        M.servingSet g = L.servingSet g ∧ M.rd Reg.ROLE_ACCUSE_CODE = L.rd Reg.ROLE_ACCUSE_CODE ∧ M.vote.hardware = L.vote.hardware ∧
        (M.codeToSend g = L.codeToSend g ∨ M.codeToSend g = 3))) ∧
    (∀ (l : LaneId) (f : Func), Does (.voteFrameTx l)
      (fun L => L.guardSt.powered = true ∧ L.guardSt.rcLost = false ∧ vget L.vote.withdraw f.ix = false ∧ L.gstate ≠ 3 ∧
        vget L.vote.hardware f.ix = [] ∧ nbits (L.rd Reg.ROLE_ACCUSE_CODE) (2 * f.code) 2 ≠ 3)
      (fun L M => .vote (BitVec.ofNat 32 L.voteFrame) ∈ M.out ∧ nbits L.voteFrame (18 + 2 * f.code) 2 = nbits (L.rd Reg.ROLE_ACCUSE_CODE) (2 * f.code) 2)) ∧
    (∀ (l : LaneId) (f : Func) (x : Side) (t : Nat) (xs : List (Side × Nat)), Does (.voteFrameTx l)
      (fun L => L.guardSt.powered = true ∧ L.guardSt.rcLost = false ∧ vget L.vote.withdraw f.ix = false ∧ L.gstate ≠ 3 ∧
        nbits (L.rd Reg.ROLE_ACCUSE_CODE) (2 * f.code) 2 ≠ 3 ∧ vget L.vote.hardware f.ix = (x, t) :: xs ∧ ∀ y ∈ xs, (t < y.2 ∨ (t = y.2 ∧ x = .next)) ∧ L.sideCode y.1 ≠ L.rd (Reg.ROLE_FUNC_ACT f.code))
      (fun L M => .vote (BitVec.ofNat 32 L.voteFrame) ∈ M.out ∧ nbits L.voteFrame (18 + 2 * f.code) 2 = (match x with | .next => 1 | .prev => 2))) ∧
    (∀ (l : LaneId) (f : Func) (x : Side) (t : Nat) (xs : List (Side × Nat)), Does (.voteFrameTx l)
      (fun L => L.guardSt.powered = true ∧ L.guardSt.rcLost = false ∧ vget L.vote.withdraw f.ix = false ∧ L.gstate ≠ 3 ∧
        nbits (L.rd Reg.ROLE_ACCUSE_CODE) (2 * f.code) 2 ≠ 3 ∧ vget L.vote.hardware f.ix = (.prev, t) :: xs ∧ x = .next ∧ xs = [(.next, t)] ∧ L.sideCode .prev ≠ L.rd (Reg.ROLE_FUNC_ACT f.code))
      (fun L M => .vote (BitVec.ofNat 32 L.voteFrame) ∈ M.out ∧ nbits L.voteFrame (18 + 2 * f.code) 2 = (match x with | .next => 1 | .prev => 2))) ∧
    (∀ (l : LaneId) (f : Func) (x : Side) (t : Nat) (xs : List (Side × Nat)), Does (.voteFrameTx l)
      (fun L => L.guardSt.powered = true ∧ L.guardSt.rcLost = false ∧ vget L.vote.withdraw f.ix = false ∧ L.gstate ≠ 3 ∧
        nbits (L.rd Reg.ROLE_ACCUSE_CODE) (2 * f.code) 2 ≠ 3 ∧ (x, t) ∈ vget L.vote.hardware f.ix ∧ L.sideCode x = L.rd (Reg.ROLE_FUNC_ACT f.code))
      (fun L M => .vote (BitVec.ofNat 32 L.voteFrame) ∈ M.out ∧ nbits L.voteFrame (18 + 2 * f.code) 2 = (match x with | .next => 1 | .prev => 2)))
end

