-- ==== Sys2Proof/Laws/Tab.lean ====
section
/-! SUPPORT. The laws of the sparse table that keeps registers and memories: read after write, and the canonical form
that every operation keeps. -/

namespace Sys2Proof.Tab

variable {β : Type} [DecidableEq β] {z : β}

/-- A key below every listed one reads as unlisted. -/
theorem get_of_lt (t : Tab β) (lo k : Nat) (h : wfFrom z lo t = true) (hk : k < lo) : get z t k = z := by
  induction t generalizing lo with
  | nil => rfl
  | cons e t ih =>
    obtain ⟨k', v⟩ := e
    simp only [wfFrom, Bool.and_eq_true, decide_eq_true_eq] at h
    have hne : k' ≠ k := by omega
    simp only [get, if_neg hne]
    exact ih (k' + 1) h.2 (by omega)

/-- The canonical form from a higher bound holds from a lower one. -/
theorem wfFrom_mono {t : Tab β} {lo lo' : Nat} (h : wfFrom z lo t = true) (hl : lo' ≤ lo) : wfFrom z lo' t = true := by
  cases t with
  | nil => rfl
  | cons e t =>
    obtain ⟨k', v⟩ := e
    simp only [wfFrom, Bool.and_eq_true, decide_eq_true_eq] at h ⊢
    exact ⟨⟨by omega, h.1.2⟩, h.2⟩

/-- Taking entries out keeps the canonical form. -/
theorem wfFrom_filter (p : Nat × β → Bool) (t : Tab β) (lo : Nat) (h : wfFrom z lo t = true) :
    wfFrom z lo (t.filter p) = true := by
  induction t generalizing lo with
  | nil => rfl
  | cons e t ih =>
    obtain ⟨k', v⟩ := e
    simp only [wfFrom, Bool.and_eq_true, decide_eq_true_eq] at h
    rw [List.filter_cons]
    split
    · simp only [wfFrom, Bool.and_eq_true, decide_eq_true_eq]
      exact ⟨h.1, ih _ h.2⟩
    · exact wfFrom_mono (ih _ h.2) (by omega)

theorem wf_filter (p : Nat × β → Bool) {t : Tab β} (h : wf z t = true) : wf z (t.filter p) = true :=
  wfFrom_filter p t 0 h

theorem wf_erase {t : Tab β} (k : Nat) (h : wf z t = true) : wf z (t.erase k) = true := wf_filter _ h

theorem get_erase_same (t : Tab β) (k : Nat) : get z (t.erase k) k = z := by
  induction t with
  | nil => rfl
  | cons e t ih =>
    obtain ⟨k', v⟩ := e
    by_cases hk : k' = k
    · simpa [erase, hk] using ih
    · simpa [erase, hk, get] using ih

theorem get_erase_ne (t : Tab β) {j k : Nat} (h : j ≠ k) : get z (t.erase j) k = get z t k := by
  induction t with
  | nil => rfl
  | cons e t ih =>
    obtain ⟨k', v⟩ := e
    unfold erase at ih ⊢
    rw [List.filter_cons]
    by_cases hk : k' = j
    · have hne : k' ≠ k := by omega
      simpa [hk, get, h] using ih
    · rw [if_pos (by simpa using hk)]
      by_cases h2 : k' = k
      · simp only [get, if_pos h2]
      · simp only [get, if_neg h2, ih]

theorem get_insert_same (t : Tab β) (k : Nat) (v : β) (h : ∀ e ∈ t, e.1 ≠ k) : get z (insert k v t) k = v := by
  induction t with
  | nil => simp [insert, get]
  | cons e t ih =>
    obtain ⟨k', v'⟩ := e
    have hk : k' ≠ k := h (k', v') (by simp)
    simp only [insert]
    split
    · simp [get]
    · simpa [get, hk] using ih (fun e he => h e (by simp [he]))

theorem get_insert_ne (t : Tab β) {j k : Nat} (v : β) (h : j ≠ k) : get z (insert j v t) k = get z t k := by
  induction t with
  | nil => simp [insert, get, h]
  | cons e t ih =>
    obtain ⟨k', v'⟩ := e
    simp only [insert]
    split
    · simp [get, h]
    · simp [get, ih]

theorem wfFrom_insert (t : Tab β) (lo k : Nat) (v : β) (h : wfFrom z lo t = true) (hlo : lo ≤ k) (hv : v ≠ z)
    (hk : ∀ e ∈ t, e.1 ≠ k) : wfFrom z lo (insert k v t) = true := by
  induction t generalizing lo with
  | nil => simp [insert, wfFrom, hlo, hv]
  | cons e t ih =>
    obtain ⟨k', v'⟩ := e
    have hne : k' ≠ k := hk (k', v') (by simp)
    simp only [wfFrom, Bool.and_eq_true, decide_eq_true_eq] at h
    simp only [insert]
    split
    · simp only [wfFrom, Bool.and_eq_true, decide_eq_true_eq]
      exact ⟨⟨hlo, hv⟩, ⟨⟨by omega, h.1.2⟩, h.2⟩⟩
    · simp only [wfFrom, Bool.and_eq_true, decide_eq_true_eq]
      exact ⟨h.1, ih (k' + 1) h.2 (by omega) (fun e he => hk e (by simp [he]))⟩

theorem not_mem_erase (t : Tab β) (k : Nat) : ∀ e ∈ t.erase k, e.1 ≠ k := by
  intro e he
  simpa using (List.mem_filter.mp he).2

/-- A read of the written key gives the written value. -/
theorem get_put_same (t : Tab β) (k : Nat) (v : β) : get z (t.put z k v) k = v := by
  unfold put
  split
  · next h => rw [get_erase_same, h]
  · exact get_insert_same _ _ _ (not_mem_erase t k)

/-- A write leaves every other key alone. -/
theorem get_put_ne (t : Tab β) {j k : Nat} (v : β) (h : j ≠ k) : get z (t.put z j v) k = get z t k := by
  unfold put
  split
  · exact get_erase_ne t h
  · rw [get_insert_ne _ _ h, get_erase_ne t h]

/-- A write keeps the canonical form. -/
theorem wf_put {t : Tab β} (k : Nat) (v : β) (h : wf z t = true) : wf z (t.put z k v) = true := by
  unfold put
  split
  · exact wf_erase k h
  · next hv => exact wfFrom_insert _ 0 k v (wf_erase k h) (by omega) hv (not_mem_erase t k)

/-- Writes of consecutive keys keep the canonical form. -/
theorem wf_putList {t : Tab β} (k : Nat) (vs : List β) (h : wf z t = true) : wf z (putList z t k vs) = true := by
  induction vs generalizing t k with
  | nil => exact h
  | cons v vs ih => exact ih (k + 1) (wf_put k v h)

/-- Writes of consecutive keys leave every key outside them alone. -/
theorem get_putList_out (t : Tab β) (k : Nat) (vs : List β) (a : Nat) (h : a < k ∨ k + vs.length ≤ a) :
    get z (putList z t k vs) a = get z t a := by
  induction vs generalizing t k with
  | nil => rfl
  | cons v vs ih =>
    simp only [List.length_cons] at h
    rw [putList, ih _ _ (by omega), get_put_ne t v (by omega)]

/-- Writes of consecutive keys are read back. -/
theorem get_putList_in (t : Tab β) (k : Nat) (vs : List β) (i : Nat) (h : i < vs.length) :
    get z (putList z t k vs) (k + i) = vs[i] := by
  induction vs generalizing t k i with
  | nil => simp at h
  | cons v vs ih =>
    cases i with
    | zero => rw [putList, get_putList_out _ _ _ _ (by omega), Nat.add_zero, get_put_same]; rfl
    | succ i =>
      have hi : i < vs.length := by simpa using h
      have := ih (t.put z k v) (k + 1) i hi
      rw [putList, show k + (i + 1) = k + 1 + i by omega, this]
      rfl

/-- Operations in order that each keep the canonical form keep it. -/
theorem wf_foldl {α : Type} (es : List α) (g : Tab β → α → Tab β) (hg : ∀ (t : Tab β) (x : α), wf z t = true → wf z (g t x) = true)
    {t : Tab β} (h : wf z t = true) : wf z (es.foldl g t) = true := by
  induction es generalizing t with
  | nil => exact h
  | cons e es ih => exact ih (hg _ _ h)

/-- Consecutive keys without the unlisted value are in the canonical form. -/
theorem wfFrom_ofList (k : Nat) (vs : List β) (lo : Nat) (h : lo ≤ k) : wfFrom z lo (ofList z k vs) = true := by
  induction vs generalizing k lo with
  | nil => rfl
  | cons v vs ih =>
    unfold ofList
    split
    · exact ih (k + 1) lo (by omega)
    · next hv =>
      simp only [wfFrom, Bool.and_eq_true, decide_eq_true_eq]
      exact ⟨⟨h, hv⟩, ih (k + 1) (k + 1) (Nat.le_refl _)⟩

theorem wf_ofList (k : Nat) (vs : List β) : wf z (ofList z k vs) = true := wfFrom_ofList k vs 0 (Nat.zero_le _)

/-- What consecutive keys read as. -/
theorem get_ofList (k : Nat) (vs : List β) (a : Nat) :
    get z (ofList z k vs) a = if h : k ≤ a ∧ a < k + vs.length then vs[a - k]'(by omega) else z := by
  induction vs generalizing k with
  | nil => simp [ofList, get]
  | cons v vs ih =>
    have low : ¬ (k + 1 ≤ a) → get z (ofList z (k + 1) vs) a = z := fun ha =>
      get_of_lt _ (k + 1) a (wfFrom_ofList _ _ _ (Nat.le_refl _)) (by omega)
    have step : a ≠ k → get z (ofList z (k + 1) vs) a =
        if h : k ≤ a ∧ a < k + (v :: vs).length then (v :: vs)[a - k]'(by omega) else z := by
      intro hne
      rw [ih]
      simp only [List.length_cons]
      split
      · next h =>
        rw [dif_pos ⟨by omega, by omega⟩]
        obtain ⟨i, hi⟩ : ∃ i, a - k = i + 1 := ⟨a - k - 1, by omega⟩
        simp only [hi, List.getElem_cons_succ, show a - (k + 1) = i by omega]
      · next h => rw [dif_neg (by omega)]
    by_cases hne : a = k
    · subst hne
      rw [dif_pos ⟨Nat.le_refl _, by simp⟩]
      unfold ofList
      split
      · next hv => rw [low (by omega)]; simp [hv]
      · simp [get]
    · rw [← step hne]
      conv => lhs; unfold ofList
      split
      · rfl
      · rw [get, if_neg (fun e => hne e.symm)]

/-- A table in canonical form that ends below another one, with the other one after it. -/
theorem wfFrom_append {t u : Tab β} (lo mid : Nat) (ht : wfFrom z lo t = true) (hb : ∀ e ∈ t, e.1 < mid)
    (hu : wfFrom z mid u = true) (hl : lo ≤ mid) : wfFrom z lo (t ++ u) = true := by
  induction t generalizing lo with
  | nil => exact wfFrom_mono hu hl
  | cons e t ih =>
    obtain ⟨k', v⟩ := e
    simp only [wfFrom, List.cons_append, Bool.and_eq_true, decide_eq_true_eq] at ht ⊢
    have hk : k' < mid := hb (k', v) (by simp)
    exact ⟨ht.1, ih (k' + 1) ht.2 (fun e he => hb e (List.mem_cons_of_mem _ he)) hk⟩

/-- Below the keys of the second of two tables, the first one is read. -/
theorem get_append_low (t u : Tab β) (mid a : Nat) (hu : wfFrom z mid u = true) (ha : a < mid) : get z (t ++ u) a = get z t a := by
  induction t with
  | nil => exact get_of_lt u mid a hu ha
  | cons e t ih =>
    obtain ⟨k', v⟩ := e
    simp only [List.cons_append, get, ih]

/-- From the end of the first of two tables on, the second one is read. -/
theorem get_append_high (t u : Tab β) (mid a : Nat) (ht : ∀ e ∈ t, e.1 < mid) (ha : mid ≤ a) : get z (t ++ u) a = get z u a := by
  induction t with
  | nil => rfl
  | cons e t ih =>
    obtain ⟨k', v⟩ := e
    have : k' < mid := ht (k', v) (by simp)
    rw [List.cons_append, get, if_neg (by omega), ih (fun e he => ht e (List.mem_cons_of_mem _ he))]

/-- A filter by a property of the key leaves the keys that have it, and takes the others out. -/
theorem get_filter_key (p : Nat → Bool) (t : Tab β) (a : Nat) :
    get z (t.filter (fun e => p e.1)) a = if p a then get z t a else z := by
  induction t with
  | nil => simp [get]
  | cons e t ih =>
    obtain ⟨k', v⟩ := e
    rw [List.filter_cons]
    by_cases h : k' = a
    · subst h
      cases hp : p k' with
      | true => simp [get]
      | false => simp [ih, hp]
    · have hg : get z ((k', v) :: t) a = get z t a := by simp [get, h]
      rw [hg]
      split
      · rw [get, if_neg h, ih]
      · exact ih

/-- The entries from a key on are in the canonical form from that key on. -/
theorem wfFrom_filter_ge (m : Nat) (u : Tab β) (lo : Nat) (hu : wfFrom z lo u = true) :
    wfFrom z m (u.filter (fun e => decide (m ≤ e.1))) = true := by
  induction u generalizing lo with
  | nil => rfl
  | cons e u ih =>
    obtain ⟨k', v⟩ := e
    simp only [wfFrom, Bool.and_eq_true, decide_eq_true_eq] at hu
    rw [List.filter_cons]
    split
    · next hk =>
      simp only [decide_eq_true_eq] at hk
      simp only [wfFrom, Bool.and_eq_true, decide_eq_true_eq]
      exact ⟨⟨hk, hu.1.2⟩, wfFrom_filter _ _ _ hu.2⟩
    · exact ih _ hu.2

/-- The keys of consecutive values end where the values do. -/
theorem mem_ofList (j : Nat) (ws : List β) : ∀ e ∈ ofList z j ws, e.1 < j + ws.length := by
  induction ws generalizing j with
  | nil => simp [ofList]
  | cons v ws ih =>
    intro e he
    have := ih (j + 1)
    unfold ofList at he
    simp only [List.length_cons]
    split at he
    · have := this e he; omega
    · rcases List.mem_cons.mp he with rfl | he
      · simp only; omega
      · have := this e he; omega

/-- The keys before and in a range written at once. -/
theorem mem_graft_head (t : Tab β) (k : Nat) (vs : List β) :
    ∀ e ∈ t.filter (fun e => decide (e.1 < k)) ++ ofList z k vs, e.1 < k + vs.length := by
  intro e he
  rcases List.mem_append.mp he with he | he
  · have := (List.mem_filter.mp he).2
    simp only [decide_eq_true_eq] at this; omega
  · exact mem_ofList _ _ e he

/-- A range written at once keeps the canonical form. -/
theorem wf_graft {t : Tab β} (k : Nat) (vs : List β) (h : wf z t = true) : wf z (graft z t k vs) = true :=
  wfFrom_append 0 (k + vs.length) (wfFrom_append 0 k (wfFrom_filter _ _ _ h)
    (fun _ he => by simpa using (List.mem_filter.mp he).2) (wfFrom_ofList k vs k (Nat.le_refl _)) (Nat.zero_le _))
    (mem_graft_head t k vs) (wfFrom_filter_ge _ t 0 h) (Nat.zero_le _)

/-- A range written at once is read back, and every other key is left alone. -/
theorem get_graft {t : Tab β} (k : Nat) (vs : List β) (a : Nat) (h : wf z t = true) :
    get z (graft z t k vs) a = if h : k ≤ a ∧ a < k + vs.length then vs[a - k]'(by omega) else get z t a := by
  unfold graft
  by_cases hm : k + vs.length ≤ a
  · rw [get_append_high _ _ _ a (mem_graft_head t k vs) hm,
      get_filter_key (fun j => decide (k + vs.length ≤ j)), if_pos (decide_eq_true hm), dif_neg (by omega)]
  · rw [get_append_low _ _ _ a (wfFrom_filter_ge _ t 0 h) (by omega)]
    by_cases hk : k ≤ a
    · rw [get_append_high _ _ k a (fun _ he => by simpa using (List.mem_filter.mp he).2) hk, get_ofList]
      rw [dif_pos ⟨hk, by omega⟩, dif_pos ⟨hk, by omega⟩]
    · rw [get_append_low _ _ k a (wfFrom_ofList k vs k (Nat.le_refl _)) (by omega),
        get_filter_key (fun j => decide (j < k)), if_pos (decide_eq_true (by omega)), dif_neg (by omega)]

/-- `n` consecutive reads of a table in canonical form. -/
theorem run_eq (t : Tab β) (k n lo : Nat) (h : wfFrom z lo t = true) :
    run z t k n = (List.range n).map (fun i => get z t (k + i)) := by
  induction n generalizing t k lo with
  | zero => rfl
  | succ n ih =>
    have drop : ∀ (u : Tab β) (lo : Nat), wfFrom z lo u = true →
        wfFrom z k (u.dropWhile (fun e => decide (e.1 < k))) = true ∧
          ∀ a, k ≤ a → get z (u.dropWhile (fun e => decide (e.1 < k))) a = get z u a := by
      intro u
      induction u with
      | nil => intro _ _; exact ⟨rfl, fun _ _ => rfl⟩
      | cons e u ihu =>
        obtain ⟨k', v⟩ := e
        intro lo hu
        simp only [wfFrom, Bool.and_eq_true, decide_eq_true_eq] at hu
        rw [List.dropWhile_cons]
        split
        · next hk =>
          simp only [decide_eq_true_eq] at hk
          obtain ⟨h1, h2⟩ := ihu _ hu.2
          refine ⟨h1, fun a ha => ?_⟩
          rw [h2 a ha, get, if_neg (by omega)]
        · next hk =>
          simp only [decide_eq_true_eq] at hk
          refine ⟨?_, fun _ _ => rfl⟩
          simp only [wfFrom, Bool.and_eq_true, decide_eq_true_eq]
          exact ⟨⟨by omega, hu.1.2⟩, hu.2⟩
    obtain ⟨hw, hg⟩ := drop t lo h
    rw [List.range_succ_eq_map, List.map_cons, List.map_map]
    show run z t k (n + 1) = get z t k :: _
    rw [← hg k (Nat.le_refl _)]
    have tail : ∀ u : Tab β, wfFrom z k u = true → (∀ a, k < a → get z u a = get z t a) →
        run z u (k + 1) n = (List.range n).map ((fun i => get z t (k + i)) ∘ Nat.succ) := by
      intro u hu hv
      rw [ih u (k + 1) k hu]
      refine List.map_congr_left fun i _ => ?_
      rw [hv _ (by omega)]
      simp [Nat.add_assoc, Nat.add_comm 1 i]
    rw [run]
    split
    · next k' v u e =>
      rw [e] at hw hg
      have hw' := hw
      simp only [wfFrom, Bool.and_eq_true, decide_eq_true_eq] at hw'
      split
      · next hk =>
        subst hk
        rw [e, get, if_pos rfl, tail u (wfFrom_mono hw'.2 (by omega))]
        intro a ha
        rw [← hg a (by omega), get, if_neg (by omega)]
      · next hk =>
        rw [e, tail _ hw (fun a ha => hg a (by omega)), get, if_neg hk,
          get_of_lt u (k' + 1) k hw'.2 (by omega)]
    · next e =>
      rw [e] at hg
      rw [e]
      rw [List.replicate_succ]
      congr 1
      refine List.ext_getElem (by simp) fun i hi hi' => ?_
      simp only [List.getElem_replicate, List.getElem_map, List.getElem_range, Function.comp]
      rw [← hg _ (by omega)]; rfl

/-- Equal reads make equal canonical tables. -/
theorem ext_wfFrom (t u : Tab β) (lo : Nat) (ht : wfFrom z lo t = true) (hu : wfFrom z lo u = true)
    (h : ∀ k, get z t k = get z u k) : t = u := by
  induction t generalizing u lo with
  | nil =>
    cases u with
    | nil => rfl
    | cons e u =>
      obtain ⟨k, v⟩ := e
      simp only [wfFrom, Bool.and_eq_true, decide_eq_true_eq] at hu
      have := h k
      simp only [get, if_pos] at this
      exact absurd this.symm hu.1.2
  | cons e t ih =>
    obtain ⟨k, v⟩ := e
    simp only [wfFrom, Bool.and_eq_true, decide_eq_true_eq] at ht
    cases u with
    | nil =>
      have := h k
      simp only [get, if_pos] at this
      exact absurd this ht.1.2
    | cons e u =>
      obtain ⟨j, w⟩ := e
      simp only [wfFrom, Bool.and_eq_true, decide_eq_true_eq] at hu
      have hkj : k = j := by
        rcases Nat.lt_trichotomy k j with hlt | heq | hgt
        · have := h k
          rw [get_of_lt ((j, w) :: u) j k (by simp [wfFrom, hu.1.2, hu.2]) hlt] at this
          simp only [get, if_pos] at this
          exact absurd this ht.1.2
        · exact heq
        · have := h j
          rw [get_of_lt ((k, v) :: t) k j (by simp [wfFrom, ht.1.2, ht.2]) hgt] at this
          simp only [get, if_pos] at this
          exact absurd this.symm hu.1.2
      subst hkj
      have hv : v = w := by simpa [get] using h k
      subst hv
      congr 1
      refine ih u (k + 1) ht.2 hu.2 (fun i => ?_)
      by_cases hik : k = i
      · subst hik
        rw [get_of_lt t (k + 1) k ht.2 (by omega), get_of_lt u (k + 1) k hu.2 (by omega)]
      · simpa [get, hik] using h i

theorem ext_wf {t u : Tab β} (ht : wf z t = true) (hu : wf z u = true) (h : ∀ k, get z t k = get z u k) : t = u :=
  ext_wfFrom t u 0 ht hu h

end Sys2Proof.Tab
end

