-- ==== Sys2Proof/Laws/State.lean ====
section
/-! SUPPORT. The fields of a lane after each of its updates, the fields of the register file, the lanes of the device. -/

namespace Sys2Proof

theorem vget_vupd_same {α : Type} {n : Nat} (v : Vector α n) (i : Fin n) (g : α → α) : vget (vupd v i g) i = g (vget v i) := by
  simp [vget, vupd]

theorem vget_vupd_ne {α : Type} {n : Nat} (v : Vector α n) {i j : Fin n} (g : α → α) (h : i ≠ j) :
    vget (vupd v i g) j = vget v j := by
  have : i.val ≠ j.val := fun e => h (Fin.ext e)
  simp [vget, vupd, this]

/-- An element of an updated vector. -/
theorem vget_vupd {α : Type} {n : Nat} (v : Vector α n) (i j : Fin n) (g : α → α) :
    vget (vupd v i g) j = if i = j then g (vget v j) else vget v j := by
  split
  · next h => subst h; exact vget_vupd_same v i g
  · next h => exact vget_vupd_ne v g h

@[simp] theorem vget_replicate {α : Type} {n : Nat} (x : α) (i : Fin n) : vget (Vector.replicate n x) i = x := by
  simp [vget]

theorem sub_bit (v i : Nat) (h : v.testBit i = true) (j : Nat) : (v - 2 ^ i).testBit j = (v.testBit j && decide (i ≠ j)) := by
  have hr : v % 2 ^ i < 2 ^ i := Nat.mod_lt _ (Nat.two_pow_pos _)
  obtain ⟨q, hq⟩ : ∃ q, v / 2 ^ i = 2 * q + 1 := by
    rw [Nat.testBit_eq_decide_div_mod_eq] at h
    exact ⟨v / 2 ^ i / 2, by have := of_decide_eq_true h; omega⟩
  have hv : v = 2 ^ i * (2 * q + 1) + v % 2 ^ i := by rw [← hq]; exact (Nat.div_add_mod _ _).symm
  have hs : v - 2 ^ i = 2 ^ i * (2 * q) + v % 2 ^ i := by
    have : 2 ^ i * (2 * q + 1) = 2 ^ i * (2 * q) + 2 ^ i := by ring
    omega
  rw [hs, Nat.testBit_two_pow_mul_add _ hr]
  conv => rhs; rw [hv]
  rw [Nat.testBit_two_pow_mul_add _ hr]
  by_cases hj : j < i
  · have : i ≠ j := by omega
    simp [hj, this]
  · simp only [hj, if_false]
    by_cases e : i = j
    · subst e; simp
    · obtain ⟨k, hk⟩ : ∃ k, j - i = k + 1 := ⟨j - i - 1, by omega⟩
      rw [hk, Nat.testBit_succ, Nat.testBit_succ]
      have h1 : 2 * q / 2 = q := by omega
      have h2 : (2 * q + 1) / 2 = q := by omega
      rw [h1, h2]; simp [e]

namespace Machine

/-! ### Register fields -/

theorem Lane.rd_wr_same (L : Lane) (f : Fld) (v : Nat) : (L.wr f v).rd f = v % 2 ^ f.w := Tab.get_put_same _ _ _

theorem Lane.rd_wr_ne (L : Lane) {f g : Fld} (v : Nat) (h : f.key ≠ g.key) : (L.wr f v).rd g = L.rd g :=
  Tab.get_put_ne _ _ h

/-- A field after a write of another, or of the same place with another width. -/
theorem Lane.rd_wr (L : Lane) (f g : Fld) (v : Nat) : (L.wr f v).rd g = if f.key = g.key then v % 2 ^ f.w else L.rd g := by
  split
  · next h =>
    show Tab.get 0 (Tab.put 0 L.regs f.key _) g.key = _
    rw [← h]; exact Tab.get_put_same _ _ _
  · next h => exact L.rd_wr_ne v h

/-- A field never holds more than its width after a write of it. -/
theorem Lane.rd_wr_lt (L : Lane) (f : Fld) (v : Nat) : (L.wr f v).rd f < 2 ^ f.w := by
  rw [Lane.rd_wr_same]; exact Nat.mod_lt _ (Nat.two_pow_pos _)

/-- A bit of a field after one bit of it has been written. -/
theorem Lane.bitOf_wrBit (L : Lane) (f : Fld) (i j : Nat) (b : Bool) :
    (L.wrBit f i b).bitOf f j = (decide (j < f.w) && (if i = j then b else L.bitOf f j)) := by
  unfold Lane.wrBit Lane.bitOf nbit
  dsimp only
  rw [Lane.rd_wr_same, Nat.testBit_mod_two_pow]
  congr 1
  cases b with
  | true =>
    rw [if_pos rfl, Nat.testBit_or, Nat.testBit_two_pow]
    by_cases h : i = j <;> simp [h]
  | false =>
    rw [if_neg (by decide)]
    by_cases hb : (L.rd f).testBit i = true
    · rw [if_pos hb, sub_bit _ _ hb]
      by_cases h : i = j <;> simp [h]
    · rw [if_neg hb]
      by_cases h : i = j
      · subst h; simpa using hb
      · simp [h]

/-! ### Updates of a lane -/

/-- What `wr` leaves. -/
@[simp] theorem Lane.wr_fields (f : Fld) (v : Nat) (L : Lane) :
    (Lane.wr f v L).id = L.id ∧ (Lane.wr f v L).draws = L.draws ∧ (Lane.wr f v L).regs = Tab.put 0 L.regs f.key (v % 2 ^ f.w) ∧
    (Lane.wr f v L).sram = L.sram ∧ (Lane.wr f v L).store = L.store ∧ (Lane.wr f v L).timers = L.timers ∧
    (Lane.wr f v L).irqs = L.irqs ∧ (Lane.wr f v L).msip = L.msip ∧ (Lane.wr f v L).mtimecmp = L.mtimecmp ∧
    (Lane.wr f v L).mtip = L.mtip ∧ (Lane.wr f v L).plic = L.plic ∧ (Lane.wr f v L).link = L.link ∧
    (Lane.wr f v L).out = L.out ∧ (Lane.wr f v L).start = L.start ∧ (Lane.wr f v L).ret = L.ret ∧ (Lane.wr f v L).nb = L.nb ∧
    (Lane.wr f v L).vote = L.vote ∧ (Lane.wr f v L).roles = L.roles ∧ (Lane.wr f v L).core = L.core ∧
    (Lane.wr f v L).pair = L.pair ∧ (Lane.wr f v L).engine = L.engine ∧ (Lane.wr f v L).motor = L.motor ∧
    (Lane.wr f v L).shunt = L.shunt ∧ (Lane.wr f v L).gen = L.gen ∧ (Lane.wr f v L).quad = L.quad ∧
    (Lane.wr f v L).resolver = L.resolver ∧ (Lane.wr f v L).sent = L.sent ∧ (Lane.wr f v L).votePos = L.votePos ∧
    (Lane.wr f v L).gate = L.gate ∧ (Lane.wr f v L).solenoid = L.solenoid ∧ (Lane.wr f v L).guardSt = L.guardSt ∧
    (Lane.wr f v L).fault = L.fault ∧ (Lane.wr f v L).slaz = L.slaz ∧ (Lane.wr f v L).time = L.time ∧
    (Lane.wr f v L).ptp = L.ptp ∧ (Lane.wr f v L).pulse = L.pulse ∧ (Lane.wr f v L).host = L.host ∧
    (Lane.wr f v L).queue = L.queue ∧ (Lane.wr f v L).auth = L.auth ∧ (Lane.wr f v L).isobus = L.isobus ∧
    (Lane.wr f v L).power = L.power ∧ (Lane.wr f v L).sec = L.sec ∧ (Lane.wr f v L).dbg = L.dbg ∧
    (Lane.wr f v L).update = L.update ∧ (Lane.wr f v L).test = L.test ∧ (Lane.wr f v L).v5out = L.v5out := by
  and_intros <;> intros <;> rfl

/-- What `setTimer` leaves. -/
@[simp] theorem Lane.setTimer_fields (t : Timer) (v : Nat) (L : Lane) :
    (Lane.setTimer t v L).id = L.id ∧ (Lane.setTimer t v L).draws = L.draws ∧ (Lane.setTimer t v L).regs = L.regs ∧
    (Lane.setTimer t v L).sram = L.sram ∧ (Lane.setTimer t v L).store = L.store ∧
    (Lane.setTimer t v L).timers = (t, v) :: L.timers.filter (fun e => decide (e.1 ≠ t)) ∧ (Lane.setTimer t v L).irqs = L.irqs ∧
    (Lane.setTimer t v L).msip = L.msip ∧ (Lane.setTimer t v L).mtimecmp = L.mtimecmp ∧ (Lane.setTimer t v L).mtip = L.mtip ∧
    (Lane.setTimer t v L).plic = L.plic ∧ (Lane.setTimer t v L).link = L.link ∧ (Lane.setTimer t v L).out = L.out ∧
    (Lane.setTimer t v L).start = L.start ∧ (Lane.setTimer t v L).ret = L.ret ∧ (Lane.setTimer t v L).nb = L.nb ∧
    (Lane.setTimer t v L).vote = L.vote ∧ (Lane.setTimer t v L).roles = L.roles ∧ (Lane.setTimer t v L).core = L.core ∧
    (Lane.setTimer t v L).pair = L.pair ∧ (Lane.setTimer t v L).engine = L.engine ∧ (Lane.setTimer t v L).motor = L.motor ∧
    (Lane.setTimer t v L).shunt = L.shunt ∧ (Lane.setTimer t v L).gen = L.gen ∧ (Lane.setTimer t v L).quad = L.quad ∧
    (Lane.setTimer t v L).resolver = L.resolver ∧ (Lane.setTimer t v L).sent = L.sent ∧
    (Lane.setTimer t v L).votePos = L.votePos ∧ (Lane.setTimer t v L).gate = L.gate ∧
    (Lane.setTimer t v L).solenoid = L.solenoid ∧ (Lane.setTimer t v L).guardSt = L.guardSt ∧
    (Lane.setTimer t v L).fault = L.fault ∧ (Lane.setTimer t v L).slaz = L.slaz ∧ (Lane.setTimer t v L).time = L.time ∧
    (Lane.setTimer t v L).ptp = L.ptp ∧ (Lane.setTimer t v L).pulse = L.pulse ∧ (Lane.setTimer t v L).host = L.host ∧
    (Lane.setTimer t v L).queue = L.queue ∧ (Lane.setTimer t v L).auth = L.auth ∧ (Lane.setTimer t v L).isobus = L.isobus ∧
    (Lane.setTimer t v L).power = L.power ∧ (Lane.setTimer t v L).sec = L.sec ∧ (Lane.setTimer t v L).dbg = L.dbg ∧
    (Lane.setTimer t v L).update = L.update ∧ (Lane.setTimer t v L).test = L.test ∧ (Lane.setTimer t v L).v5out = L.v5out ∧
    (∀ r, (Lane.setTimer t v L).rd r = L.rd r) := by
  and_intros <;> intros <;> rfl

/-- What `pass` leaves. -/
@[simp] theorem Lane.pass_fields (dt : Nat) (L : Lane) :
    (Lane.pass dt L).id = L.id ∧ (Lane.pass dt L).draws = L.draws ∧ (Lane.pass dt L).regs = L.regs ∧
    (Lane.pass dt L).sram = L.sram ∧ (Lane.pass dt L).store = L.store ∧ (Lane.pass dt L).timers = L.timers ∧
    (Lane.pass dt L).irqs = L.irqs ∧ (Lane.pass dt L).msip = L.msip ∧ (Lane.pass dt L).mtimecmp = L.mtimecmp ∧
    (Lane.pass dt L).mtip = L.mtip ∧ (Lane.pass dt L).plic = L.plic ∧ (Lane.pass dt L).start = L.start ∧
    (Lane.pass dt L).ret = L.ret ∧ (Lane.pass dt L).nb = L.nb ∧ (Lane.pass dt L).vote = L.vote ∧
    (Lane.pass dt L).roles = L.roles ∧ (Lane.pass dt L).core = L.core ∧ (Lane.pass dt L).pair = L.pair ∧
    (Lane.pass dt L).engine = L.engine ∧ (Lane.pass dt L).motor = L.motor ∧ (Lane.pass dt L).shunt = L.shunt ∧
    (Lane.pass dt L).gen = L.gen ∧ (Lane.pass dt L).quad = L.quad ∧ (Lane.pass dt L).resolver = L.resolver ∧
    (Lane.pass dt L).sent = L.sent ∧ (Lane.pass dt L).votePos = L.votePos ∧ (Lane.pass dt L).gate = L.gate ∧
    (Lane.pass dt L).solenoid = L.solenoid ∧ (Lane.pass dt L).guardSt = L.guardSt ∧ (Lane.pass dt L).fault = L.fault ∧
    (Lane.pass dt L).slaz = L.slaz ∧ (Lane.pass dt L).ptp = L.ptp ∧ (Lane.pass dt L).pulse = L.pulse ∧
    (Lane.pass dt L).host = L.host ∧ (Lane.pass dt L).queue = L.queue ∧ (Lane.pass dt L).auth = L.auth ∧
    (Lane.pass dt L).isobus = L.isobus ∧ (Lane.pass dt L).power = L.power ∧ (Lane.pass dt L).sec = L.sec ∧
    (Lane.pass dt L).dbg = L.dbg ∧ (Lane.pass dt L).update = L.update ∧ (Lane.pass dt L).test = L.test ∧
    (Lane.pass dt L).v5out = L.v5out ∧ (∀ r, (Lane.pass dt L).rd r = L.rd r) := by
  and_intros <;> intros <;> rfl

/-- What `stop` leaves. -/
@[simp] theorem Lane.stop_fields (t : Timer) (L : Lane) :
    (Lane.stop t L).id = L.id ∧ (Lane.stop t L).draws = L.draws ∧ (Lane.stop t L).regs = L.regs ∧
    (Lane.stop t L).sram = L.sram ∧ (Lane.stop t L).store = L.store ∧
    (Lane.stop t L).timers = L.timers.filter (fun e => decide (e.1 ≠ t)) ∧ (Lane.stop t L).irqs = L.irqs ∧
    (Lane.stop t L).msip = L.msip ∧ (Lane.stop t L).mtimecmp = L.mtimecmp ∧ (Lane.stop t L).mtip = L.mtip ∧
    (Lane.stop t L).plic = L.plic ∧ (Lane.stop t L).link = L.link ∧ (Lane.stop t L).out = L.out ∧
    (Lane.stop t L).start = L.start ∧ (Lane.stop t L).ret = L.ret ∧ (Lane.stop t L).nb = L.nb ∧ (Lane.stop t L).vote = L.vote ∧
    (Lane.stop t L).roles = L.roles ∧ (Lane.stop t L).core = L.core ∧ (Lane.stop t L).pair = L.pair ∧
    (Lane.stop t L).engine = L.engine ∧ (Lane.stop t L).motor = L.motor ∧ (Lane.stop t L).shunt = L.shunt ∧
    (Lane.stop t L).gen = L.gen ∧ (Lane.stop t L).quad = L.quad ∧ (Lane.stop t L).resolver = L.resolver ∧
    (Lane.stop t L).sent = L.sent ∧ (Lane.stop t L).votePos = L.votePos ∧ (Lane.stop t L).gate = L.gate ∧
    (Lane.stop t L).solenoid = L.solenoid ∧ (Lane.stop t L).guardSt = L.guardSt ∧ (Lane.stop t L).fault = L.fault ∧
    (Lane.stop t L).slaz = L.slaz ∧ (Lane.stop t L).time = L.time ∧ (Lane.stop t L).ptp = L.ptp ∧
    (Lane.stop t L).pulse = L.pulse ∧ (Lane.stop t L).host = L.host ∧ (Lane.stop t L).queue = L.queue ∧
    (Lane.stop t L).auth = L.auth ∧ (Lane.stop t L).isobus = L.isobus ∧ (Lane.stop t L).power = L.power ∧
    (Lane.stop t L).sec = L.sec ∧ (Lane.stop t L).dbg = L.dbg ∧ (Lane.stop t L).update = L.update ∧
    (Lane.stop t L).test = L.test ∧ (Lane.stop t L).v5out = L.v5out ∧ (∀ r, (Lane.stop t L).rd r = L.rd r) := by
  and_intros <;> intros <;> rfl

/-- What `restart` leaves. -/
@[simp] theorem Lane.restart_fields (t : Timer) (L : Lane) :
    (Lane.restart t L).id = L.id ∧ (Lane.restart t L).draws = L.draws ∧ (Lane.restart t L).regs = L.regs ∧
    (Lane.restart t L).sram = L.sram ∧ (Lane.restart t L).store = L.store ∧
    (Lane.restart t L).timers = (t, L.el) :: L.timers.filter (fun e => decide (e.1 ≠ t)) ∧ (Lane.restart t L).irqs = L.irqs ∧
    (Lane.restart t L).msip = L.msip ∧ (Lane.restart t L).mtimecmp = L.mtimecmp ∧ (Lane.restart t L).mtip = L.mtip ∧
    (Lane.restart t L).plic = L.plic ∧ (Lane.restart t L).link = L.link ∧ (Lane.restart t L).out = L.out ∧
    (Lane.restart t L).start = L.start ∧ (Lane.restart t L).ret = L.ret ∧ (Lane.restart t L).nb = L.nb ∧
    (Lane.restart t L).vote = L.vote ∧ (Lane.restart t L).roles = L.roles ∧ (Lane.restart t L).core = L.core ∧
    (Lane.restart t L).pair = L.pair ∧ (Lane.restart t L).engine = L.engine ∧ (Lane.restart t L).motor = L.motor ∧
    (Lane.restart t L).shunt = L.shunt ∧ (Lane.restart t L).gen = L.gen ∧ (Lane.restart t L).quad = L.quad ∧
    (Lane.restart t L).resolver = L.resolver ∧ (Lane.restart t L).sent = L.sent ∧ (Lane.restart t L).votePos = L.votePos ∧
    (Lane.restart t L).gate = L.gate ∧ (Lane.restart t L).solenoid = L.solenoid ∧ (Lane.restart t L).guardSt = L.guardSt ∧
    (Lane.restart t L).fault = L.fault ∧ (Lane.restart t L).slaz = L.slaz ∧ (Lane.restart t L).time = L.time ∧
    (Lane.restart t L).ptp = L.ptp ∧ (Lane.restart t L).pulse = L.pulse ∧ (Lane.restart t L).host = L.host ∧
    (Lane.restart t L).queue = L.queue ∧ (Lane.restart t L).auth = L.auth ∧ (Lane.restart t L).isobus = L.isobus ∧
    (Lane.restart t L).power = L.power ∧ (Lane.restart t L).sec = L.sec ∧ (Lane.restart t L).dbg = L.dbg ∧
    (Lane.restart t L).update = L.update ∧ (Lane.restart t L).test = L.test ∧ (Lane.restart t L).v5out = L.v5out ∧
    (∀ r, (Lane.restart t L).rd r = L.rd r) := by
  and_intros <;> intros <;> rfl

/-- What `send` leaves. -/
@[simp] theorem Lane.send_fields (o : Output) (L : Lane) :
    (Lane.send o L).id = L.id ∧ (Lane.send o L).draws = L.draws ∧ (Lane.send o L).regs = L.regs ∧
    (Lane.send o L).sram = L.sram ∧ (Lane.send o L).store = L.store ∧ (Lane.send o L).timers = L.timers ∧
    (Lane.send o L).irqs = L.irqs ∧ (Lane.send o L).msip = L.msip ∧ (Lane.send o L).mtimecmp = L.mtimecmp ∧
    (Lane.send o L).mtip = L.mtip ∧ (Lane.send o L).plic = L.plic ∧ (Lane.send o L).start = L.start ∧
    (Lane.send o L).ret = L.ret ∧ (Lane.send o L).nb = L.nb ∧ (Lane.send o L).vote = L.vote ∧ (Lane.send o L).roles = L.roles ∧
    (Lane.send o L).core = L.core ∧ (Lane.send o L).pair = L.pair ∧ (Lane.send o L).engine = L.engine ∧
    (Lane.send o L).motor = L.motor ∧ (Lane.send o L).shunt = L.shunt ∧ (Lane.send o L).gen = L.gen ∧
    (Lane.send o L).quad = L.quad ∧ (Lane.send o L).resolver = L.resolver ∧ (Lane.send o L).sent = L.sent ∧
    (Lane.send o L).votePos = L.votePos ∧ (Lane.send o L).gate = L.gate ∧ (Lane.send o L).solenoid = L.solenoid ∧
    (Lane.send o L).guardSt = L.guardSt ∧ (Lane.send o L).fault = L.fault ∧ (Lane.send o L).slaz = L.slaz ∧
    (Lane.send o L).time = L.time ∧ (Lane.send o L).ptp = L.ptp ∧ (Lane.send o L).pulse = L.pulse ∧
    (Lane.send o L).host = L.host ∧ (Lane.send o L).queue = L.queue ∧ (Lane.send o L).auth = L.auth ∧
    (Lane.send o L).isobus = L.isobus ∧ (Lane.send o L).power = L.power ∧ (Lane.send o L).sec = L.sec ∧
    (Lane.send o L).dbg = L.dbg ∧ (Lane.send o L).update = L.update ∧ (Lane.send o L).test = L.test ∧
    (Lane.send o L).v5out = L.v5out ∧ (∀ r, (Lane.send o L).rd r = L.rd r) := by
  unfold Lane.send
  split <;> and_intros <;> intros <;> rfl

/-- What `drawn` leaves. -/
@[simp] theorem Lane.drawn_fields (L : Lane) :
    (Lane.drawn L).id = L.id ∧ (Lane.drawn L).draws = L.draws + 1 ∧ (Lane.drawn L).regs = L.regs ∧
    (Lane.drawn L).sram = L.sram ∧ (Lane.drawn L).store = L.store ∧ (Lane.drawn L).timers = L.timers ∧
    (Lane.drawn L).irqs = L.irqs ∧ (Lane.drawn L).msip = L.msip ∧ (Lane.drawn L).mtimecmp = L.mtimecmp ∧
    (Lane.drawn L).mtip = L.mtip ∧ (Lane.drawn L).plic = L.plic ∧ (Lane.drawn L).link = L.link ∧ (Lane.drawn L).out = L.out ∧
    (Lane.drawn L).start = L.start ∧ (Lane.drawn L).ret = L.ret ∧ (Lane.drawn L).nb = L.nb ∧ (Lane.drawn L).vote = L.vote ∧
    (Lane.drawn L).roles = L.roles ∧ (Lane.drawn L).core = L.core ∧ (Lane.drawn L).pair = L.pair ∧
    (Lane.drawn L).engine = L.engine ∧ (Lane.drawn L).motor = L.motor ∧ (Lane.drawn L).shunt = L.shunt ∧
    (Lane.drawn L).gen = L.gen ∧ (Lane.drawn L).quad = L.quad ∧ (Lane.drawn L).resolver = L.resolver ∧
    (Lane.drawn L).sent = L.sent ∧ (Lane.drawn L).votePos = L.votePos ∧ (Lane.drawn L).gate = L.gate ∧
    (Lane.drawn L).solenoid = L.solenoid ∧ (Lane.drawn L).guardSt = L.guardSt ∧ (Lane.drawn L).fault = L.fault ∧
    (Lane.drawn L).slaz = L.slaz ∧ (Lane.drawn L).time = L.time ∧ (Lane.drawn L).ptp = L.ptp ∧ (Lane.drawn L).pulse = L.pulse ∧
    (Lane.drawn L).host = L.host ∧ (Lane.drawn L).queue = L.queue ∧ (Lane.drawn L).auth = L.auth ∧
    (Lane.drawn L).isobus = L.isobus ∧ (Lane.drawn L).power = L.power ∧ (Lane.drawn L).sec = L.sec ∧
    (Lane.drawn L).dbg = L.dbg ∧ (Lane.drawn L).update = L.update ∧ (Lane.drawn L).test = L.test ∧
    (Lane.drawn L).v5out = L.v5out ∧ (∀ r, (Lane.drawn L).rd r = L.rd r) := by
  and_intros <;> intros <;> rfl

/-- What `sramWrite` leaves. -/
@[simp] theorem Lane.sramWrite_fields (a : Nat) (bs : List Byte) (L : Lane) :
    (Lane.sramWrite a bs L).id = L.id ∧ (Lane.sramWrite a bs L).draws = L.draws ∧ (Lane.sramWrite a bs L).regs = L.regs ∧
    (Lane.sramWrite a bs L).sram = Tab.putList 0 L.sram a bs ∧ (Lane.sramWrite a bs L).store = L.store ∧
    (Lane.sramWrite a bs L).timers = L.timers ∧ (Lane.sramWrite a bs L).irqs = L.irqs ∧ (Lane.sramWrite a bs L).msip = L.msip ∧
    (Lane.sramWrite a bs L).mtimecmp = L.mtimecmp ∧ (Lane.sramWrite a bs L).mtip = L.mtip ∧
    (Lane.sramWrite a bs L).plic = L.plic ∧ (Lane.sramWrite a bs L).link = L.link ∧ (Lane.sramWrite a bs L).out = L.out ∧
    (Lane.sramWrite a bs L).start = L.start ∧ (Lane.sramWrite a bs L).ret = L.ret ∧ (Lane.sramWrite a bs L).nb = L.nb ∧
    (Lane.sramWrite a bs L).vote = L.vote ∧ (Lane.sramWrite a bs L).roles = L.roles ∧ (Lane.sramWrite a bs L).core = L.core ∧
    (Lane.sramWrite a bs L).pair = L.pair ∧ (Lane.sramWrite a bs L).engine = L.engine ∧
    (Lane.sramWrite a bs L).motor = L.motor ∧ (Lane.sramWrite a bs L).shunt = L.shunt ∧ (Lane.sramWrite a bs L).gen = L.gen ∧
    (Lane.sramWrite a bs L).quad = L.quad ∧ (Lane.sramWrite a bs L).resolver = L.resolver ∧
    (Lane.sramWrite a bs L).sent = L.sent ∧ (Lane.sramWrite a bs L).votePos = L.votePos ∧
    (Lane.sramWrite a bs L).gate = L.gate ∧ (Lane.sramWrite a bs L).solenoid = L.solenoid ∧
    (Lane.sramWrite a bs L).guardSt = L.guardSt ∧ (Lane.sramWrite a bs L).fault = L.fault ∧
    (Lane.sramWrite a bs L).slaz = L.slaz ∧ (Lane.sramWrite a bs L).time = L.time ∧ (Lane.sramWrite a bs L).ptp = L.ptp ∧
    (Lane.sramWrite a bs L).pulse = L.pulse ∧ (Lane.sramWrite a bs L).host = L.host ∧ (Lane.sramWrite a bs L).queue = L.queue ∧
    (Lane.sramWrite a bs L).auth = L.auth ∧ (Lane.sramWrite a bs L).isobus = L.isobus ∧
    (Lane.sramWrite a bs L).power = L.power ∧ (Lane.sramWrite a bs L).sec = L.sec ∧ (Lane.sramWrite a bs L).dbg = L.dbg ∧
    (Lane.sramWrite a bs L).update = L.update ∧ (Lane.sramWrite a bs L).test = L.test ∧
    (Lane.sramWrite a bs L).v5out = L.v5out ∧ (∀ r, (Lane.sramWrite a bs L).rd r = L.rd r) := by
  and_intros <;> intros <;> rfl

/-- What `wearLines` leaves. -/
@[simp] theorem Lane.wearLines_fields (a n : Nat) (L : Lane) :
    (Lane.wearLines a n L).id = L.id ∧ (Lane.wearLines a n L).draws = L.draws ∧ (Lane.wearLines a n L).regs = L.regs ∧
    (Lane.wearLines a n L).sram = L.sram ∧ (Lane.wearLines a n L).store = L.store ∧ (Lane.wearLines a n L).timers = L.timers ∧
    (Lane.wearLines a n L).irqs = L.irqs ∧ (Lane.wearLines a n L).msip = L.msip ∧ (Lane.wearLines a n L).mtimecmp = L.mtimecmp ∧
    (Lane.wearLines a n L).mtip = L.mtip ∧ (Lane.wearLines a n L).plic = L.plic ∧ (Lane.wearLines a n L).link = L.link ∧
    (Lane.wearLines a n L).out = L.out ∧ (Lane.wearLines a n L).start = L.start ∧ (Lane.wearLines a n L).ret = L.ret ∧
    (Lane.wearLines a n L).nb = L.nb ∧ (Lane.wearLines a n L).vote = L.vote ∧ (Lane.wearLines a n L).roles = L.roles ∧
    (Lane.wearLines a n L).core = L.core ∧ (Lane.wearLines a n L).pair = L.pair ∧ (Lane.wearLines a n L).engine = L.engine ∧
    (Lane.wearLines a n L).motor = L.motor ∧ (Lane.wearLines a n L).shunt = L.shunt ∧ (Lane.wearLines a n L).gen = L.gen ∧
    (Lane.wearLines a n L).quad = L.quad ∧ (Lane.wearLines a n L).resolver = L.resolver ∧ (Lane.wearLines a n L).sent = L.sent ∧
    (Lane.wearLines a n L).votePos = L.votePos ∧ (Lane.wearLines a n L).gate = L.gate ∧
    (Lane.wearLines a n L).solenoid = L.solenoid ∧ (Lane.wearLines a n L).guardSt = L.guardSt ∧
    (Lane.wearLines a n L).fault = L.fault ∧ (Lane.wearLines a n L).slaz = L.slaz ∧ (Lane.wearLines a n L).time = L.time ∧
    (Lane.wearLines a n L).ptp = L.ptp ∧ (Lane.wearLines a n L).pulse = L.pulse ∧ (Lane.wearLines a n L).host = L.host ∧
    (Lane.wearLines a n L).queue = L.queue ∧ (Lane.wearLines a n L).auth = L.auth ∧ (Lane.wearLines a n L).isobus = L.isobus ∧
    (Lane.wearLines a n L).power = L.power ∧ (Lane.wearLines a n L).sec = L.sec ∧ (Lane.wearLines a n L).dbg = L.dbg ∧
    (Lane.wearLines a n L).update = L.update ∧ (Lane.wearLines a n L).v5out = L.v5out ∧
    (∀ r, (Lane.wearLines a n L).rd r = L.rd r) := by
  and_intros <;> intros <;> rfl

/-- What `storeWrite` leaves. -/
@[simp] theorem Lane.storeWrite_fields (a : Nat) (bs : List Byte) (L : Lane) :
    (Lane.storeWrite a bs L).id = L.id ∧ (Lane.storeWrite a bs L).draws = L.draws ∧ (Lane.storeWrite a bs L).regs = L.regs ∧
    (Lane.storeWrite a bs L).sram = L.sram ∧ (Lane.storeWrite a bs L).store = Tab.putList 0 L.store a bs ∧
    (Lane.storeWrite a bs L).timers = L.timers ∧ (Lane.storeWrite a bs L).irqs = L.irqs ∧
    (Lane.storeWrite a bs L).msip = L.msip ∧ (Lane.storeWrite a bs L).mtimecmp = L.mtimecmp ∧
    (Lane.storeWrite a bs L).mtip = L.mtip ∧ (Lane.storeWrite a bs L).plic = L.plic ∧ (Lane.storeWrite a bs L).link = L.link ∧
    (Lane.storeWrite a bs L).out = L.out ∧ (Lane.storeWrite a bs L).start = L.start ∧ (Lane.storeWrite a bs L).ret = L.ret ∧
    (Lane.storeWrite a bs L).nb = L.nb ∧ (Lane.storeWrite a bs L).vote = L.vote ∧ (Lane.storeWrite a bs L).roles = L.roles ∧
    (Lane.storeWrite a bs L).core = L.core ∧ (Lane.storeWrite a bs L).pair = L.pair ∧
    (Lane.storeWrite a bs L).engine = L.engine ∧ (Lane.storeWrite a bs L).motor = L.motor ∧
    (Lane.storeWrite a bs L).shunt = L.shunt ∧ (Lane.storeWrite a bs L).gen = L.gen ∧ (Lane.storeWrite a bs L).quad = L.quad ∧
    (Lane.storeWrite a bs L).resolver = L.resolver ∧ (Lane.storeWrite a bs L).sent = L.sent ∧
    (Lane.storeWrite a bs L).votePos = L.votePos ∧ (Lane.storeWrite a bs L).gate = L.gate ∧
    (Lane.storeWrite a bs L).solenoid = L.solenoid ∧ (Lane.storeWrite a bs L).guardSt = L.guardSt ∧
    (Lane.storeWrite a bs L).fault = L.fault ∧ (Lane.storeWrite a bs L).slaz = L.slaz ∧ (Lane.storeWrite a bs L).time = L.time ∧
    (Lane.storeWrite a bs L).ptp = L.ptp ∧ (Lane.storeWrite a bs L).pulse = L.pulse ∧ (Lane.storeWrite a bs L).host = L.host ∧
    (Lane.storeWrite a bs L).queue = L.queue ∧ (Lane.storeWrite a bs L).auth = L.auth ∧
    (Lane.storeWrite a bs L).isobus = L.isobus ∧ (Lane.storeWrite a bs L).power = L.power ∧
    (Lane.storeWrite a bs L).sec = L.sec ∧ (Lane.storeWrite a bs L).dbg = L.dbg ∧ (Lane.storeWrite a bs L).update = L.update ∧
    (Lane.storeWrite a bs L).test = (L.wearLines a bs.length).test ∧ (Lane.storeWrite a bs L).v5out = L.v5out ∧
    (∀ r, (Lane.storeWrite a bs L).rd r = L.rd r) := by
  and_intros <;> intros <;> rfl

/-- What `onFn` leaves. -/
@[simp] theorem Lane.onFn_fields (f : Func) (g : RoleFn → RoleFn) (L : Lane) :
    (Lane.onFn f g L).id = L.id ∧ (Lane.onFn f g L).draws = L.draws ∧ (Lane.onFn f g L).regs = L.regs ∧
    (Lane.onFn f g L).sram = L.sram ∧ (Lane.onFn f g L).store = L.store ∧ (Lane.onFn f g L).timers = L.timers ∧
    (Lane.onFn f g L).irqs = L.irqs ∧ (Lane.onFn f g L).msip = L.msip ∧ (Lane.onFn f g L).mtimecmp = L.mtimecmp ∧
    (Lane.onFn f g L).mtip = L.mtip ∧ (Lane.onFn f g L).plic = L.plic ∧ (Lane.onFn f g L).link = L.link ∧
    (Lane.onFn f g L).out = L.out ∧ (Lane.onFn f g L).start = L.start ∧ (Lane.onFn f g L).ret = L.ret ∧
    (Lane.onFn f g L).nb = L.nb ∧ (Lane.onFn f g L).vote = L.vote ∧
    (Lane.onFn f g L).roles = ({ L.roles with fn := vupd L.roles.fn f.ix g } : Roles) ∧ (Lane.onFn f g L).core = L.core ∧
    (Lane.onFn f g L).pair = L.pair ∧ (Lane.onFn f g L).engine = L.engine ∧ (Lane.onFn f g L).motor = L.motor ∧
    (Lane.onFn f g L).shunt = L.shunt ∧ (Lane.onFn f g L).gen = L.gen ∧ (Lane.onFn f g L).quad = L.quad ∧
    (Lane.onFn f g L).resolver = L.resolver ∧ (Lane.onFn f g L).sent = L.sent ∧ (Lane.onFn f g L).votePos = L.votePos ∧
    (Lane.onFn f g L).gate = L.gate ∧ (Lane.onFn f g L).solenoid = L.solenoid ∧ (Lane.onFn f g L).guardSt = L.guardSt ∧
    (Lane.onFn f g L).fault = L.fault ∧ (Lane.onFn f g L).slaz = L.slaz ∧ (Lane.onFn f g L).time = L.time ∧
    (Lane.onFn f g L).ptp = L.ptp ∧ (Lane.onFn f g L).pulse = L.pulse ∧ (Lane.onFn f g L).host = L.host ∧
    (Lane.onFn f g L).queue = L.queue ∧ (Lane.onFn f g L).auth = L.auth ∧ (Lane.onFn f g L).isobus = L.isobus ∧
    (Lane.onFn f g L).power = L.power ∧ (Lane.onFn f g L).sec = L.sec ∧ (Lane.onFn f g L).dbg = L.dbg ∧
    (Lane.onFn f g L).update = L.update ∧ (Lane.onFn f g L).test = L.test ∧ (Lane.onFn f g L).v5out = L.v5out ∧
    (∀ r, (Lane.onFn f g L).rd r = L.rd r) := by
  and_intros <;> intros <;> rfl

/-- What `onDe` leaves. -/
@[simp] theorem Lane.onDe_fields (n : Engine) (g : EngineSt → EngineSt) (L : Lane) :
    (Lane.onDe n g L).id = L.id ∧ (Lane.onDe n g L).draws = L.draws ∧ (Lane.onDe n g L).regs = L.regs ∧
    (Lane.onDe n g L).sram = L.sram ∧ (Lane.onDe n g L).store = L.store ∧ (Lane.onDe n g L).timers = L.timers ∧
    (Lane.onDe n g L).irqs = L.irqs ∧ (Lane.onDe n g L).msip = L.msip ∧ (Lane.onDe n g L).mtimecmp = L.mtimecmp ∧
    (Lane.onDe n g L).mtip = L.mtip ∧ (Lane.onDe n g L).plic = L.plic ∧ (Lane.onDe n g L).link = L.link ∧
    (Lane.onDe n g L).out = L.out ∧ (Lane.onDe n g L).start = L.start ∧ (Lane.onDe n g L).ret = L.ret ∧
    (Lane.onDe n g L).nb = L.nb ∧ (Lane.onDe n g L).vote = L.vote ∧ (Lane.onDe n g L).roles = L.roles ∧
    (Lane.onDe n g L).core = L.core ∧ (Lane.onDe n g L).pair = L.pair ∧ (Lane.onDe n g L).engine = vupd L.engine n g ∧
    (Lane.onDe n g L).motor = L.motor ∧ (Lane.onDe n g L).shunt = L.shunt ∧ (Lane.onDe n g L).gen = L.gen ∧
    (Lane.onDe n g L).quad = L.quad ∧ (Lane.onDe n g L).resolver = L.resolver ∧ (Lane.onDe n g L).sent = L.sent ∧
    (Lane.onDe n g L).votePos = L.votePos ∧ (Lane.onDe n g L).gate = L.gate ∧ (Lane.onDe n g L).solenoid = L.solenoid ∧
    (Lane.onDe n g L).guardSt = L.guardSt ∧ (Lane.onDe n g L).fault = L.fault ∧ (Lane.onDe n g L).slaz = L.slaz ∧
    (Lane.onDe n g L).time = L.time ∧ (Lane.onDe n g L).ptp = L.ptp ∧ (Lane.onDe n g L).pulse = L.pulse ∧
    (Lane.onDe n g L).host = L.host ∧ (Lane.onDe n g L).queue = L.queue ∧ (Lane.onDe n g L).auth = L.auth ∧
    (Lane.onDe n g L).isobus = L.isobus ∧ (Lane.onDe n g L).power = L.power ∧ (Lane.onDe n g L).sec = L.sec ∧
    (Lane.onDe n g L).dbg = L.dbg ∧ (Lane.onDe n g L).update = L.update ∧ (Lane.onDe n g L).test = L.test ∧
    (Lane.onDe n g L).v5out = L.v5out ∧ (∀ r, (Lane.onDe n g L).rd r = L.rd r) := by
  and_intros <;> intros <;> rfl

/-- What `onMot` leaves. -/
@[simp] theorem Lane.onMot_fields (p : Port) (g : MotorSt → MotorSt) (L : Lane) :
    (Lane.onMot p g L).id = L.id ∧ (Lane.onMot p g L).draws = L.draws ∧ (Lane.onMot p g L).regs = L.regs ∧
    (Lane.onMot p g L).sram = L.sram ∧ (Lane.onMot p g L).store = L.store ∧ (Lane.onMot p g L).timers = L.timers ∧
    (Lane.onMot p g L).irqs = L.irqs ∧ (Lane.onMot p g L).msip = L.msip ∧ (Lane.onMot p g L).mtimecmp = L.mtimecmp ∧
    (Lane.onMot p g L).mtip = L.mtip ∧ (Lane.onMot p g L).plic = L.plic ∧ (Lane.onMot p g L).link = L.link ∧
    (Lane.onMot p g L).out = L.out ∧ (Lane.onMot p g L).start = L.start ∧ (Lane.onMot p g L).ret = L.ret ∧
    (Lane.onMot p g L).nb = L.nb ∧ (Lane.onMot p g L).vote = L.vote ∧ (Lane.onMot p g L).roles = L.roles ∧
    (Lane.onMot p g L).core = L.core ∧ (Lane.onMot p g L).pair = L.pair ∧ (Lane.onMot p g L).engine = L.engine ∧
    (Lane.onMot p g L).motor = vupd L.motor p g ∧ (Lane.onMot p g L).shunt = L.shunt ∧ (Lane.onMot p g L).gen = L.gen ∧
    (Lane.onMot p g L).quad = L.quad ∧ (Lane.onMot p g L).resolver = L.resolver ∧ (Lane.onMot p g L).sent = L.sent ∧
    (Lane.onMot p g L).votePos = L.votePos ∧ (Lane.onMot p g L).gate = L.gate ∧ (Lane.onMot p g L).solenoid = L.solenoid ∧
    (Lane.onMot p g L).guardSt = L.guardSt ∧ (Lane.onMot p g L).fault = L.fault ∧ (Lane.onMot p g L).slaz = L.slaz ∧
    (Lane.onMot p g L).time = L.time ∧ (Lane.onMot p g L).ptp = L.ptp ∧ (Lane.onMot p g L).pulse = L.pulse ∧
    (Lane.onMot p g L).host = L.host ∧ (Lane.onMot p g L).queue = L.queue ∧ (Lane.onMot p g L).auth = L.auth ∧
    (Lane.onMot p g L).isobus = L.isobus ∧ (Lane.onMot p g L).power = L.power ∧ (Lane.onMot p g L).sec = L.sec ∧
    (Lane.onMot p g L).dbg = L.dbg ∧ (Lane.onMot p g L).update = L.update ∧ (Lane.onMot p g L).test = L.test ∧
    (Lane.onMot p g L).v5out = L.v5out ∧ (∀ r, (Lane.onMot p g L).rd r = L.rd r) := by
  and_intros <;> intros <;> rfl

/-- What `onCore` leaves. -/
@[simp] theorem Lane.onCore_fields (c : Core) (g : CoreSt → CoreSt) (L : Lane) :
    (Lane.onCore c g L).id = L.id ∧ (Lane.onCore c g L).draws = L.draws ∧ (Lane.onCore c g L).regs = L.regs ∧
    (Lane.onCore c g L).sram = L.sram ∧ (Lane.onCore c g L).store = L.store ∧ (Lane.onCore c g L).timers = L.timers ∧
    (Lane.onCore c g L).irqs = L.irqs ∧ (Lane.onCore c g L).msip = L.msip ∧ (Lane.onCore c g L).mtimecmp = L.mtimecmp ∧
    (Lane.onCore c g L).mtip = L.mtip ∧ (Lane.onCore c g L).plic = L.plic ∧ (Lane.onCore c g L).link = L.link ∧
    (Lane.onCore c g L).out = L.out ∧ (Lane.onCore c g L).start = L.start ∧ (Lane.onCore c g L).ret = L.ret ∧
    (Lane.onCore c g L).nb = L.nb ∧ (Lane.onCore c g L).vote = L.vote ∧ (Lane.onCore c g L).roles = L.roles ∧
    (Lane.onCore c g L).core = vupd L.core c g ∧ (Lane.onCore c g L).pair = L.pair ∧ (Lane.onCore c g L).engine = L.engine ∧
    (Lane.onCore c g L).motor = L.motor ∧ (Lane.onCore c g L).shunt = L.shunt ∧ (Lane.onCore c g L).gen = L.gen ∧
    (Lane.onCore c g L).quad = L.quad ∧ (Lane.onCore c g L).resolver = L.resolver ∧ (Lane.onCore c g L).sent = L.sent ∧
    (Lane.onCore c g L).votePos = L.votePos ∧ (Lane.onCore c g L).gate = L.gate ∧ (Lane.onCore c g L).solenoid = L.solenoid ∧
    (Lane.onCore c g L).guardSt = L.guardSt ∧ (Lane.onCore c g L).fault = L.fault ∧ (Lane.onCore c g L).slaz = L.slaz ∧
    (Lane.onCore c g L).time = L.time ∧ (Lane.onCore c g L).ptp = L.ptp ∧ (Lane.onCore c g L).pulse = L.pulse ∧
    (Lane.onCore c g L).host = L.host ∧ (Lane.onCore c g L).queue = L.queue ∧ (Lane.onCore c g L).auth = L.auth ∧
    (Lane.onCore c g L).isobus = L.isobus ∧ (Lane.onCore c g L).power = L.power ∧ (Lane.onCore c g L).sec = L.sec ∧
    (Lane.onCore c g L).dbg = L.dbg ∧ (Lane.onCore c g L).update = L.update ∧ (Lane.onCore c g L).test = L.test ∧
    (Lane.onCore c g L).v5out = L.v5out ∧ (∀ r, (Lane.onCore c g L).rd r = L.rd r) := by
  and_intros <;> intros <;> rfl

/-- What `onPair` leaves. -/
@[simp] theorem Lane.onPair_fields (p : Pair) (g : PairSt → PairSt) (L : Lane) :
    (Lane.onPair p g L).id = L.id ∧ (Lane.onPair p g L).draws = L.draws ∧ (Lane.onPair p g L).regs = L.regs ∧
    (Lane.onPair p g L).sram = L.sram ∧ (Lane.onPair p g L).store = L.store ∧ (Lane.onPair p g L).timers = L.timers ∧
    (Lane.onPair p g L).irqs = L.irqs ∧ (Lane.onPair p g L).msip = L.msip ∧ (Lane.onPair p g L).mtimecmp = L.mtimecmp ∧
    (Lane.onPair p g L).mtip = L.mtip ∧ (Lane.onPair p g L).plic = L.plic ∧ (Lane.onPair p g L).link = L.link ∧
    (Lane.onPair p g L).out = L.out ∧ (Lane.onPair p g L).start = L.start ∧ (Lane.onPair p g L).ret = L.ret ∧
    (Lane.onPair p g L).nb = L.nb ∧ (Lane.onPair p g L).vote = L.vote ∧ (Lane.onPair p g L).roles = L.roles ∧
    (Lane.onPair p g L).core = L.core ∧ (Lane.onPair p g L).pair = vupd L.pair p g ∧ (Lane.onPair p g L).engine = L.engine ∧
    (Lane.onPair p g L).motor = L.motor ∧ (Lane.onPair p g L).shunt = L.shunt ∧ (Lane.onPair p g L).gen = L.gen ∧
    (Lane.onPair p g L).quad = L.quad ∧ (Lane.onPair p g L).resolver = L.resolver ∧ (Lane.onPair p g L).sent = L.sent ∧
    (Lane.onPair p g L).votePos = L.votePos ∧ (Lane.onPair p g L).gate = L.gate ∧ (Lane.onPair p g L).solenoid = L.solenoid ∧
    (Lane.onPair p g L).guardSt = L.guardSt ∧ (Lane.onPair p g L).fault = L.fault ∧ (Lane.onPair p g L).slaz = L.slaz ∧
    (Lane.onPair p g L).time = L.time ∧ (Lane.onPair p g L).ptp = L.ptp ∧ (Lane.onPair p g L).pulse = L.pulse ∧
    (Lane.onPair p g L).host = L.host ∧ (Lane.onPair p g L).queue = L.queue ∧ (Lane.onPair p g L).auth = L.auth ∧
    (Lane.onPair p g L).isobus = L.isobus ∧ (Lane.onPair p g L).power = L.power ∧ (Lane.onPair p g L).sec = L.sec ∧
    (Lane.onPair p g L).dbg = L.dbg ∧ (Lane.onPair p g L).update = L.update ∧ (Lane.onPair p g L).test = L.test ∧
    (Lane.onPair p g L).v5out = L.v5out ∧ (∀ r, (Lane.onPair p g L).rd r = L.rd r) := by
  and_intros <;> intros <;> rfl

/-- What `onSv` leaves. -/
@[simp] theorem Lane.onSv_fields (n : Fin 4) (g : SolenoidSt → SolenoidSt) (L : Lane) :
    (Lane.onSv n g L).id = L.id ∧ (Lane.onSv n g L).draws = L.draws ∧ (Lane.onSv n g L).regs = L.regs ∧
    (Lane.onSv n g L).sram = L.sram ∧ (Lane.onSv n g L).store = L.store ∧ (Lane.onSv n g L).timers = L.timers ∧
    (Lane.onSv n g L).irqs = L.irqs ∧ (Lane.onSv n g L).msip = L.msip ∧ (Lane.onSv n g L).mtimecmp = L.mtimecmp ∧
    (Lane.onSv n g L).mtip = L.mtip ∧ (Lane.onSv n g L).plic = L.plic ∧ (Lane.onSv n g L).link = L.link ∧
    (Lane.onSv n g L).out = L.out ∧ (Lane.onSv n g L).start = L.start ∧ (Lane.onSv n g L).ret = L.ret ∧
    (Lane.onSv n g L).nb = L.nb ∧ (Lane.onSv n g L).vote = L.vote ∧ (Lane.onSv n g L).roles = L.roles ∧
    (Lane.onSv n g L).core = L.core ∧ (Lane.onSv n g L).pair = L.pair ∧ (Lane.onSv n g L).engine = L.engine ∧
    (Lane.onSv n g L).motor = L.motor ∧ (Lane.onSv n g L).shunt = L.shunt ∧ (Lane.onSv n g L).gen = L.gen ∧
    (Lane.onSv n g L).quad = L.quad ∧ (Lane.onSv n g L).resolver = L.resolver ∧ (Lane.onSv n g L).sent = L.sent ∧
    (Lane.onSv n g L).votePos = L.votePos ∧ (Lane.onSv n g L).gate = L.gate ∧ (Lane.onSv n g L).solenoid = vupd L.solenoid n g ∧
    (Lane.onSv n g L).guardSt = L.guardSt ∧ (Lane.onSv n g L).fault = L.fault ∧ (Lane.onSv n g L).slaz = L.slaz ∧
    (Lane.onSv n g L).time = L.time ∧ (Lane.onSv n g L).ptp = L.ptp ∧ (Lane.onSv n g L).pulse = L.pulse ∧
    (Lane.onSv n g L).host = L.host ∧ (Lane.onSv n g L).queue = L.queue ∧ (Lane.onSv n g L).auth = L.auth ∧
    (Lane.onSv n g L).isobus = L.isobus ∧ (Lane.onSv n g L).power = L.power ∧ (Lane.onSv n g L).sec = L.sec ∧
    (Lane.onSv n g L).dbg = L.dbg ∧ (Lane.onSv n g L).update = L.update ∧ (Lane.onSv n g L).test = L.test ∧
    (Lane.onSv n g L).v5out = L.v5out ∧ (∀ r, (Lane.onSv n g L).rd r = L.rd r) := by
  and_intros <;> intros <;> rfl

/-- What `onGate` leaves. -/
@[simp] theorem Lane.onGate_fields (g : GateSt → GateSt) (L : Lane) :
    (Lane.onGate g L).id = L.id ∧ (Lane.onGate g L).draws = L.draws ∧ (Lane.onGate g L).regs = L.regs ∧
    (Lane.onGate g L).sram = L.sram ∧ (Lane.onGate g L).store = L.store ∧ (Lane.onGate g L).timers = L.timers ∧
    (Lane.onGate g L).irqs = L.irqs ∧ (Lane.onGate g L).msip = L.msip ∧ (Lane.onGate g L).mtimecmp = L.mtimecmp ∧
    (Lane.onGate g L).mtip = L.mtip ∧ (Lane.onGate g L).plic = L.plic ∧ (Lane.onGate g L).link = L.link ∧
    (Lane.onGate g L).out = L.out ∧ (Lane.onGate g L).start = L.start ∧ (Lane.onGate g L).ret = L.ret ∧
    (Lane.onGate g L).nb = L.nb ∧ (Lane.onGate g L).vote = L.vote ∧ (Lane.onGate g L).roles = L.roles ∧
    (Lane.onGate g L).core = L.core ∧ (Lane.onGate g L).pair = L.pair ∧ (Lane.onGate g L).engine = L.engine ∧
    (Lane.onGate g L).motor = L.motor ∧ (Lane.onGate g L).shunt = L.shunt ∧ (Lane.onGate g L).gen = L.gen ∧
    (Lane.onGate g L).quad = L.quad ∧ (Lane.onGate g L).resolver = L.resolver ∧ (Lane.onGate g L).sent = L.sent ∧
    (Lane.onGate g L).votePos = L.votePos ∧ (Lane.onGate g L).gate = g L.gate ∧ (Lane.onGate g L).solenoid = L.solenoid ∧
    (Lane.onGate g L).guardSt = L.guardSt ∧ (Lane.onGate g L).fault = L.fault ∧ (Lane.onGate g L).slaz = L.slaz ∧
    (Lane.onGate g L).time = L.time ∧ (Lane.onGate g L).ptp = L.ptp ∧ (Lane.onGate g L).pulse = L.pulse ∧
    (Lane.onGate g L).host = L.host ∧ (Lane.onGate g L).queue = L.queue ∧ (Lane.onGate g L).auth = L.auth ∧
    (Lane.onGate g L).isobus = L.isobus ∧ (Lane.onGate g L).power = L.power ∧ (Lane.onGate g L).sec = L.sec ∧
    (Lane.onGate g L).dbg = L.dbg ∧ (Lane.onGate g L).update = L.update ∧ (Lane.onGate g L).test = L.test ∧
    (Lane.onGate g L).v5out = L.v5out ∧ (∀ r, (Lane.onGate g L).rd r = L.rd r) := by
  and_intros <;> intros <;> rfl

/-- What `onGuard` leaves. -/
@[simp] theorem Lane.onGuard_fields (g : GuardSt → GuardSt) (L : Lane) :
    (Lane.onGuard g L).id = L.id ∧ (Lane.onGuard g L).draws = L.draws ∧ (Lane.onGuard g L).regs = L.regs ∧
    (Lane.onGuard g L).sram = L.sram ∧ (Lane.onGuard g L).store = L.store ∧ (Lane.onGuard g L).timers = L.timers ∧
    (Lane.onGuard g L).irqs = L.irqs ∧ (Lane.onGuard g L).msip = L.msip ∧ (Lane.onGuard g L).mtimecmp = L.mtimecmp ∧
    (Lane.onGuard g L).mtip = L.mtip ∧ (Lane.onGuard g L).plic = L.plic ∧ (Lane.onGuard g L).link = L.link ∧
    (Lane.onGuard g L).out = L.out ∧ (Lane.onGuard g L).start = L.start ∧ (Lane.onGuard g L).ret = L.ret ∧
    (Lane.onGuard g L).nb = L.nb ∧ (Lane.onGuard g L).vote = L.vote ∧ (Lane.onGuard g L).roles = L.roles ∧
    (Lane.onGuard g L).core = L.core ∧ (Lane.onGuard g L).pair = L.pair ∧ (Lane.onGuard g L).engine = L.engine ∧
    (Lane.onGuard g L).motor = L.motor ∧ (Lane.onGuard g L).shunt = L.shunt ∧ (Lane.onGuard g L).gen = L.gen ∧
    (Lane.onGuard g L).quad = L.quad ∧ (Lane.onGuard g L).resolver = L.resolver ∧ (Lane.onGuard g L).sent = L.sent ∧
    (Lane.onGuard g L).votePos = L.votePos ∧ (Lane.onGuard g L).gate = L.gate ∧ (Lane.onGuard g L).solenoid = L.solenoid ∧
    (Lane.onGuard g L).guardSt = g L.guardSt ∧ (Lane.onGuard g L).fault = L.fault ∧ (Lane.onGuard g L).slaz = L.slaz ∧
    (Lane.onGuard g L).time = L.time ∧ (Lane.onGuard g L).ptp = L.ptp ∧ (Lane.onGuard g L).pulse = L.pulse ∧
    (Lane.onGuard g L).host = L.host ∧ (Lane.onGuard g L).queue = L.queue ∧ (Lane.onGuard g L).auth = L.auth ∧
    (Lane.onGuard g L).isobus = L.isobus ∧ (Lane.onGuard g L).power = L.power ∧ (Lane.onGuard g L).sec = L.sec ∧
    (Lane.onGuard g L).dbg = L.dbg ∧ (Lane.onGuard g L).update = L.update ∧ (Lane.onGuard g L).test = L.test ∧
    (Lane.onGuard g L).v5out = L.v5out ∧ (∀ r, (Lane.onGuard g L).rd r = L.rd r) := by
  and_intros <;> intros <;> rfl

/-- What `onRet` leaves. -/
@[simp] theorem Lane.onRet_fields (g : Retained → Retained) (L : Lane) :
    (Lane.onRet g L).id = L.id ∧ (Lane.onRet g L).draws = L.draws ∧ (Lane.onRet g L).regs = L.regs ∧
    (Lane.onRet g L).sram = L.sram ∧ (Lane.onRet g L).store = L.store ∧ (Lane.onRet g L).timers = L.timers ∧
    (Lane.onRet g L).irqs = L.irqs ∧ (Lane.onRet g L).msip = L.msip ∧ (Lane.onRet g L).mtimecmp = L.mtimecmp ∧
    (Lane.onRet g L).mtip = L.mtip ∧ (Lane.onRet g L).plic = L.plic ∧ (Lane.onRet g L).link = L.link ∧
    (Lane.onRet g L).out = L.out ∧ (Lane.onRet g L).start = L.start ∧ (Lane.onRet g L).ret = g L.ret ∧
    (Lane.onRet g L).nb = L.nb ∧ (Lane.onRet g L).vote = L.vote ∧ (Lane.onRet g L).roles = L.roles ∧
    (Lane.onRet g L).core = L.core ∧ (Lane.onRet g L).pair = L.pair ∧ (Lane.onRet g L).engine = L.engine ∧
    (Lane.onRet g L).motor = L.motor ∧ (Lane.onRet g L).shunt = L.shunt ∧ (Lane.onRet g L).gen = L.gen ∧
    (Lane.onRet g L).quad = L.quad ∧ (Lane.onRet g L).resolver = L.resolver ∧ (Lane.onRet g L).sent = L.sent ∧
    (Lane.onRet g L).votePos = L.votePos ∧ (Lane.onRet g L).gate = L.gate ∧ (Lane.onRet g L).solenoid = L.solenoid ∧
    (Lane.onRet g L).guardSt = L.guardSt ∧ (Lane.onRet g L).fault = L.fault ∧ (Lane.onRet g L).slaz = L.slaz ∧
    (Lane.onRet g L).time = L.time ∧ (Lane.onRet g L).ptp = L.ptp ∧ (Lane.onRet g L).pulse = L.pulse ∧
    (Lane.onRet g L).host = L.host ∧ (Lane.onRet g L).queue = L.queue ∧ (Lane.onRet g L).auth = L.auth ∧
    (Lane.onRet g L).isobus = L.isobus ∧ (Lane.onRet g L).power = L.power ∧ (Lane.onRet g L).sec = L.sec ∧
    (Lane.onRet g L).dbg = L.dbg ∧ (Lane.onRet g L).update = L.update ∧ (Lane.onRet g L).test = L.test ∧
    (Lane.onRet g L).v5out = L.v5out ∧ (∀ r, (Lane.onRet g L).rd r = L.rd r) := by
  and_intros <;> intros <;> rfl

/-- What `onStart` leaves. -/
@[simp] theorem Lane.onStart_fields (g : Start → Start) (L : Lane) :
    (Lane.onStart g L).id = L.id ∧ (Lane.onStart g L).draws = L.draws ∧ (Lane.onStart g L).regs = L.regs ∧
    (Lane.onStart g L).sram = L.sram ∧ (Lane.onStart g L).store = L.store ∧ (Lane.onStart g L).timers = L.timers ∧
    (Lane.onStart g L).irqs = L.irqs ∧ (Lane.onStart g L).msip = L.msip ∧ (Lane.onStart g L).mtimecmp = L.mtimecmp ∧
    (Lane.onStart g L).mtip = L.mtip ∧ (Lane.onStart g L).plic = L.plic ∧ (Lane.onStart g L).link = L.link ∧
    (Lane.onStart g L).out = L.out ∧ (Lane.onStart g L).start = g L.start ∧ (Lane.onStart g L).ret = L.ret ∧
    (Lane.onStart g L).nb = L.nb ∧ (Lane.onStart g L).vote = L.vote ∧ (Lane.onStart g L).roles = L.roles ∧
    (Lane.onStart g L).core = L.core ∧ (Lane.onStart g L).pair = L.pair ∧ (Lane.onStart g L).engine = L.engine ∧
    (Lane.onStart g L).motor = L.motor ∧ (Lane.onStart g L).shunt = L.shunt ∧ (Lane.onStart g L).gen = L.gen ∧
    (Lane.onStart g L).quad = L.quad ∧ (Lane.onStart g L).resolver = L.resolver ∧ (Lane.onStart g L).sent = L.sent ∧
    (Lane.onStart g L).votePos = L.votePos ∧ (Lane.onStart g L).gate = L.gate ∧ (Lane.onStart g L).solenoid = L.solenoid ∧
    (Lane.onStart g L).guardSt = L.guardSt ∧ (Lane.onStart g L).fault = L.fault ∧ (Lane.onStart g L).slaz = L.slaz ∧
    (Lane.onStart g L).time = L.time ∧ (Lane.onStart g L).ptp = L.ptp ∧ (Lane.onStart g L).pulse = L.pulse ∧
    (Lane.onStart g L).host = L.host ∧ (Lane.onStart g L).queue = L.queue ∧ (Lane.onStart g L).auth = L.auth ∧
    (Lane.onStart g L).isobus = L.isobus ∧ (Lane.onStart g L).power = L.power ∧ (Lane.onStart g L).sec = L.sec ∧
    (Lane.onStart g L).dbg = L.dbg ∧ (Lane.onStart g L).update = L.update ∧ (Lane.onStart g L).test = L.test ∧
    (Lane.onStart g L).v5out = L.v5out ∧ (∀ r, (Lane.onStart g L).rd r = L.rd r) := by
  and_intros <;> intros <;> rfl

/-- What `onTime` leaves. -/
@[simp] theorem Lane.onTime_fields (g : TimeSt → TimeSt) (L : Lane) :
    (Lane.onTime g L).id = L.id ∧ (Lane.onTime g L).draws = L.draws ∧ (Lane.onTime g L).regs = L.regs ∧
    (Lane.onTime g L).sram = L.sram ∧ (Lane.onTime g L).store = L.store ∧ (Lane.onTime g L).timers = L.timers ∧
    (Lane.onTime g L).irqs = L.irqs ∧ (Lane.onTime g L).msip = L.msip ∧ (Lane.onTime g L).mtimecmp = L.mtimecmp ∧
    (Lane.onTime g L).mtip = L.mtip ∧ (Lane.onTime g L).plic = L.plic ∧ (Lane.onTime g L).link = L.link ∧
    (Lane.onTime g L).out = L.out ∧ (Lane.onTime g L).start = L.start ∧ (Lane.onTime g L).ret = L.ret ∧
    (Lane.onTime g L).nb = L.nb ∧ (Lane.onTime g L).vote = L.vote ∧ (Lane.onTime g L).roles = L.roles ∧
    (Lane.onTime g L).core = L.core ∧ (Lane.onTime g L).pair = L.pair ∧ (Lane.onTime g L).engine = L.engine ∧
    (Lane.onTime g L).motor = L.motor ∧ (Lane.onTime g L).shunt = L.shunt ∧ (Lane.onTime g L).gen = L.gen ∧
    (Lane.onTime g L).quad = L.quad ∧ (Lane.onTime g L).resolver = L.resolver ∧ (Lane.onTime g L).sent = L.sent ∧
    (Lane.onTime g L).votePos = L.votePos ∧ (Lane.onTime g L).gate = L.gate ∧ (Lane.onTime g L).solenoid = L.solenoid ∧
    (Lane.onTime g L).guardSt = L.guardSt ∧ (Lane.onTime g L).fault = L.fault ∧ (Lane.onTime g L).slaz = L.slaz ∧
    (Lane.onTime g L).time = g L.time ∧ (Lane.onTime g L).ptp = L.ptp ∧ (Lane.onTime g L).pulse = L.pulse ∧
    (Lane.onTime g L).host = L.host ∧ (Lane.onTime g L).queue = L.queue ∧ (Lane.onTime g L).auth = L.auth ∧
    (Lane.onTime g L).isobus = L.isobus ∧ (Lane.onTime g L).power = L.power ∧ (Lane.onTime g L).sec = L.sec ∧
    (Lane.onTime g L).dbg = L.dbg ∧ (Lane.onTime g L).update = L.update ∧ (Lane.onTime g L).test = L.test ∧
    (Lane.onTime g L).v5out = L.v5out ∧ (∀ r, (Lane.onTime g L).rd r = L.rd r) := by
  and_intros <;> intros <;> rfl

/-- What `onSlaz` leaves. -/
@[simp] theorem Lane.onSlaz_fields (c : Fin 2) (g : SlazSt → SlazSt) (L : Lane) :
    (Lane.onSlaz c g L).id = L.id ∧ (Lane.onSlaz c g L).draws = L.draws ∧ (Lane.onSlaz c g L).regs = L.regs ∧
    (Lane.onSlaz c g L).sram = L.sram ∧ (Lane.onSlaz c g L).store = L.store ∧ (Lane.onSlaz c g L).timers = L.timers ∧
    (Lane.onSlaz c g L).irqs = L.irqs ∧ (Lane.onSlaz c g L).msip = L.msip ∧ (Lane.onSlaz c g L).mtimecmp = L.mtimecmp ∧
    (Lane.onSlaz c g L).mtip = L.mtip ∧ (Lane.onSlaz c g L).plic = L.plic ∧ (Lane.onSlaz c g L).link = L.link ∧
    (Lane.onSlaz c g L).out = L.out ∧ (Lane.onSlaz c g L).start = L.start ∧ (Lane.onSlaz c g L).ret = L.ret ∧
    (Lane.onSlaz c g L).nb = L.nb ∧ (Lane.onSlaz c g L).vote = L.vote ∧ (Lane.onSlaz c g L).roles = L.roles ∧
    (Lane.onSlaz c g L).core = L.core ∧ (Lane.onSlaz c g L).pair = L.pair ∧ (Lane.onSlaz c g L).engine = L.engine ∧
    (Lane.onSlaz c g L).motor = L.motor ∧ (Lane.onSlaz c g L).shunt = L.shunt ∧ (Lane.onSlaz c g L).gen = L.gen ∧
    (Lane.onSlaz c g L).quad = L.quad ∧ (Lane.onSlaz c g L).resolver = L.resolver ∧ (Lane.onSlaz c g L).sent = L.sent ∧
    (Lane.onSlaz c g L).votePos = L.votePos ∧ (Lane.onSlaz c g L).gate = L.gate ∧ (Lane.onSlaz c g L).solenoid = L.solenoid ∧
    (Lane.onSlaz c g L).guardSt = L.guardSt ∧ (Lane.onSlaz c g L).fault = L.fault ∧ (Lane.onSlaz c g L).slaz = vupd L.slaz c g ∧
    (Lane.onSlaz c g L).time = L.time ∧ (Lane.onSlaz c g L).ptp = L.ptp ∧ (Lane.onSlaz c g L).pulse = L.pulse ∧
    (Lane.onSlaz c g L).host = L.host ∧ (Lane.onSlaz c g L).queue = L.queue ∧ (Lane.onSlaz c g L).auth = L.auth ∧
    (Lane.onSlaz c g L).isobus = L.isobus ∧ (Lane.onSlaz c g L).power = L.power ∧ (Lane.onSlaz c g L).sec = L.sec ∧
    (Lane.onSlaz c g L).dbg = L.dbg ∧ (Lane.onSlaz c g L).update = L.update ∧ (Lane.onSlaz c g L).test = L.test ∧
    (Lane.onSlaz c g L).v5out = L.v5out ∧ (∀ r, (Lane.onSlaz c g L).rd r = L.rd r) := by
  and_intros <;> intros <;> rfl

/-- What `onHost` leaves. -/
@[simp] theorem Lane.onHost_fields (h : Fin 4) (g : HostSt → HostSt) (L : Lane) :
    (Lane.onHost h g L).id = L.id ∧ (Lane.onHost h g L).draws = L.draws ∧ (Lane.onHost h g L).regs = L.regs ∧
    (Lane.onHost h g L).sram = L.sram ∧ (Lane.onHost h g L).store = L.store ∧ (Lane.onHost h g L).timers = L.timers ∧
    (Lane.onHost h g L).irqs = L.irqs ∧ (Lane.onHost h g L).msip = L.msip ∧ (Lane.onHost h g L).mtimecmp = L.mtimecmp ∧
    (Lane.onHost h g L).mtip = L.mtip ∧ (Lane.onHost h g L).plic = L.plic ∧ (Lane.onHost h g L).link = L.link ∧
    (Lane.onHost h g L).out = L.out ∧ (Lane.onHost h g L).start = L.start ∧ (Lane.onHost h g L).ret = L.ret ∧
    (Lane.onHost h g L).nb = L.nb ∧ (Lane.onHost h g L).vote = L.vote ∧ (Lane.onHost h g L).roles = L.roles ∧
    (Lane.onHost h g L).core = L.core ∧ (Lane.onHost h g L).pair = L.pair ∧ (Lane.onHost h g L).engine = L.engine ∧
    (Lane.onHost h g L).motor = L.motor ∧ (Lane.onHost h g L).shunt = L.shunt ∧ (Lane.onHost h g L).gen = L.gen ∧
    (Lane.onHost h g L).quad = L.quad ∧ (Lane.onHost h g L).resolver = L.resolver ∧ (Lane.onHost h g L).sent = L.sent ∧
    (Lane.onHost h g L).votePos = L.votePos ∧ (Lane.onHost h g L).gate = L.gate ∧ (Lane.onHost h g L).solenoid = L.solenoid ∧
    (Lane.onHost h g L).guardSt = L.guardSt ∧ (Lane.onHost h g L).fault = L.fault ∧ (Lane.onHost h g L).slaz = L.slaz ∧
    (Lane.onHost h g L).time = L.time ∧ (Lane.onHost h g L).ptp = L.ptp ∧ (Lane.onHost h g L).pulse = L.pulse ∧
    (Lane.onHost h g L).host = vupd L.host h g ∧ (Lane.onHost h g L).queue = L.queue ∧ (Lane.onHost h g L).auth = L.auth ∧
    (Lane.onHost h g L).isobus = L.isobus ∧ (Lane.onHost h g L).power = L.power ∧ (Lane.onHost h g L).sec = L.sec ∧
    (Lane.onHost h g L).dbg = L.dbg ∧ (Lane.onHost h g L).update = L.update ∧ (Lane.onHost h g L).test = L.test ∧
    (Lane.onHost h g L).v5out = L.v5out ∧ (∀ r, (Lane.onHost h g L).rd r = L.rd r) := by
  and_intros <;> intros <;> rfl

/-- What `onQueue` leaves. -/
@[simp] theorem Lane.onQueue_fields (q : Fin 16) (g : QueueSt → QueueSt) (L : Lane) :
    (Lane.onQueue q g L).id = L.id ∧ (Lane.onQueue q g L).draws = L.draws ∧ (Lane.onQueue q g L).regs = L.regs ∧
    (Lane.onQueue q g L).sram = L.sram ∧ (Lane.onQueue q g L).store = L.store ∧ (Lane.onQueue q g L).timers = L.timers ∧
    (Lane.onQueue q g L).irqs = L.irqs ∧ (Lane.onQueue q g L).msip = L.msip ∧ (Lane.onQueue q g L).mtimecmp = L.mtimecmp ∧
    (Lane.onQueue q g L).mtip = L.mtip ∧ (Lane.onQueue q g L).plic = L.plic ∧ (Lane.onQueue q g L).link = L.link ∧
    (Lane.onQueue q g L).out = L.out ∧ (Lane.onQueue q g L).start = L.start ∧ (Lane.onQueue q g L).ret = L.ret ∧
    (Lane.onQueue q g L).nb = L.nb ∧ (Lane.onQueue q g L).vote = L.vote ∧ (Lane.onQueue q g L).roles = L.roles ∧
    (Lane.onQueue q g L).core = L.core ∧ (Lane.onQueue q g L).pair = L.pair ∧ (Lane.onQueue q g L).engine = L.engine ∧
    (Lane.onQueue q g L).motor = L.motor ∧ (Lane.onQueue q g L).shunt = L.shunt ∧ (Lane.onQueue q g L).gen = L.gen ∧
    (Lane.onQueue q g L).quad = L.quad ∧ (Lane.onQueue q g L).resolver = L.resolver ∧ (Lane.onQueue q g L).sent = L.sent ∧
    (Lane.onQueue q g L).votePos = L.votePos ∧ (Lane.onQueue q g L).gate = L.gate ∧ (Lane.onQueue q g L).solenoid = L.solenoid ∧
    (Lane.onQueue q g L).guardSt = L.guardSt ∧ (Lane.onQueue q g L).fault = L.fault ∧ (Lane.onQueue q g L).slaz = L.slaz ∧
    (Lane.onQueue q g L).time = L.time ∧ (Lane.onQueue q g L).ptp = L.ptp ∧ (Lane.onQueue q g L).pulse = L.pulse ∧
    (Lane.onQueue q g L).host = L.host ∧ (Lane.onQueue q g L).queue = vupd L.queue q g ∧ (Lane.onQueue q g L).auth = L.auth ∧
    (Lane.onQueue q g L).isobus = L.isobus ∧ (Lane.onQueue q g L).power = L.power ∧ (Lane.onQueue q g L).sec = L.sec ∧
    (Lane.onQueue q g L).dbg = L.dbg ∧ (Lane.onQueue q g L).update = L.update ∧ (Lane.onQueue q g L).test = L.test ∧
    (Lane.onQueue q g L).v5out = L.v5out ∧ (∀ r, (Lane.onQueue q g L).rd r = L.rd r) := by
  and_intros <;> intros <;> rfl

/-- What `onDom` leaves. -/
@[simp] theorem Lane.onDom_fields (d : Fin 8) (g : DomainSt → DomainSt) (L : Lane) :
    (Lane.onDom d g L).id = L.id ∧ (Lane.onDom d g L).draws = L.draws ∧ (Lane.onDom d g L).regs = L.regs ∧
    (Lane.onDom d g L).sram = L.sram ∧ (Lane.onDom d g L).store = L.store ∧ (Lane.onDom d g L).timers = L.timers ∧
    (Lane.onDom d g L).irqs = L.irqs ∧ (Lane.onDom d g L).msip = L.msip ∧ (Lane.onDom d g L).mtimecmp = L.mtimecmp ∧
    (Lane.onDom d g L).mtip = L.mtip ∧ (Lane.onDom d g L).plic = L.plic ∧ (Lane.onDom d g L).link = L.link ∧
    (Lane.onDom d g L).out = L.out ∧ (Lane.onDom d g L).start = L.start ∧ (Lane.onDom d g L).ret = L.ret ∧
    (Lane.onDom d g L).nb = L.nb ∧ (Lane.onDom d g L).vote = L.vote ∧ (Lane.onDom d g L).roles = L.roles ∧
    (Lane.onDom d g L).core = L.core ∧ (Lane.onDom d g L).pair = L.pair ∧ (Lane.onDom d g L).engine = L.engine ∧
    (Lane.onDom d g L).motor = L.motor ∧ (Lane.onDom d g L).shunt = L.shunt ∧ (Lane.onDom d g L).gen = L.gen ∧
    (Lane.onDom d g L).quad = L.quad ∧ (Lane.onDom d g L).resolver = L.resolver ∧ (Lane.onDom d g L).sent = L.sent ∧
    (Lane.onDom d g L).votePos = L.votePos ∧ (Lane.onDom d g L).gate = L.gate ∧ (Lane.onDom d g L).solenoid = L.solenoid ∧
    (Lane.onDom d g L).guardSt = L.guardSt ∧ (Lane.onDom d g L).fault = L.fault ∧ (Lane.onDom d g L).slaz = L.slaz ∧
    (Lane.onDom d g L).time = L.time ∧ (Lane.onDom d g L).ptp = L.ptp ∧ (Lane.onDom d g L).pulse = L.pulse ∧
    (Lane.onDom d g L).host = L.host ∧ (Lane.onDom d g L).queue = L.queue ∧ (Lane.onDom d g L).auth = L.auth ∧
    (Lane.onDom d g L).isobus = L.isobus ∧ (Lane.onDom d g L).power = ({ L.power with dom := vupd L.power.dom d g } : PowerSt) ∧
    (Lane.onDom d g L).sec = L.sec ∧ (Lane.onDom d g L).dbg = L.dbg ∧ (Lane.onDom d g L).update = L.update ∧
    (Lane.onDom d g L).test = L.test ∧ (Lane.onDom d g L).v5out = L.v5out ∧ (∀ r, (Lane.onDom d g L).rd r = L.rd r) := by
  and_intros <;> intros <;> rfl

/-- What `onSec` leaves. -/
@[simp] theorem Lane.onSec_fields (g : SecSt → SecSt) (L : Lane) :
    (Lane.onSec g L).id = L.id ∧ (Lane.onSec g L).draws = L.draws ∧ (Lane.onSec g L).regs = L.regs ∧
    (Lane.onSec g L).sram = L.sram ∧ (Lane.onSec g L).store = L.store ∧ (Lane.onSec g L).timers = L.timers ∧
    (Lane.onSec g L).irqs = L.irqs ∧ (Lane.onSec g L).msip = L.msip ∧ (Lane.onSec g L).mtimecmp = L.mtimecmp ∧
    (Lane.onSec g L).mtip = L.mtip ∧ (Lane.onSec g L).plic = L.plic ∧ (Lane.onSec g L).link = L.link ∧
    (Lane.onSec g L).out = L.out ∧ (Lane.onSec g L).start = L.start ∧ (Lane.onSec g L).ret = L.ret ∧
    (Lane.onSec g L).nb = L.nb ∧ (Lane.onSec g L).vote = L.vote ∧ (Lane.onSec g L).roles = L.roles ∧
    (Lane.onSec g L).core = L.core ∧ (Lane.onSec g L).pair = L.pair ∧ (Lane.onSec g L).engine = L.engine ∧
    (Lane.onSec g L).motor = L.motor ∧ (Lane.onSec g L).shunt = L.shunt ∧ (Lane.onSec g L).gen = L.gen ∧
    (Lane.onSec g L).quad = L.quad ∧ (Lane.onSec g L).resolver = L.resolver ∧ (Lane.onSec g L).sent = L.sent ∧
    (Lane.onSec g L).votePos = L.votePos ∧ (Lane.onSec g L).gate = L.gate ∧ (Lane.onSec g L).solenoid = L.solenoid ∧
    (Lane.onSec g L).guardSt = L.guardSt ∧ (Lane.onSec g L).fault = L.fault ∧ (Lane.onSec g L).slaz = L.slaz ∧
    (Lane.onSec g L).time = L.time ∧ (Lane.onSec g L).ptp = L.ptp ∧ (Lane.onSec g L).pulse = L.pulse ∧
    (Lane.onSec g L).host = L.host ∧ (Lane.onSec g L).queue = L.queue ∧ (Lane.onSec g L).auth = L.auth ∧
    (Lane.onSec g L).isobus = L.isobus ∧ (Lane.onSec g L).power = L.power ∧ (Lane.onSec g L).sec = g L.sec ∧
    (Lane.onSec g L).dbg = L.dbg ∧ (Lane.onSec g L).update = L.update ∧ (Lane.onSec g L).test = L.test ∧
    (Lane.onSec g L).v5out = L.v5out ∧ (∀ r, (Lane.onSec g L).rd r = L.rd r) := by
  and_intros <;> intros <;> rfl

/-- What `onUpd` leaves. -/
@[simp] theorem Lane.onUpd_fields (g : UpdateSt → UpdateSt) (L : Lane) :
    (Lane.onUpd g L).id = L.id ∧ (Lane.onUpd g L).draws = L.draws ∧ (Lane.onUpd g L).regs = L.regs ∧
    (Lane.onUpd g L).sram = L.sram ∧ (Lane.onUpd g L).store = L.store ∧ (Lane.onUpd g L).timers = L.timers ∧
    (Lane.onUpd g L).irqs = L.irqs ∧ (Lane.onUpd g L).msip = L.msip ∧ (Lane.onUpd g L).mtimecmp = L.mtimecmp ∧
    (Lane.onUpd g L).mtip = L.mtip ∧ (Lane.onUpd g L).plic = L.plic ∧ (Lane.onUpd g L).link = L.link ∧
    (Lane.onUpd g L).out = L.out ∧ (Lane.onUpd g L).start = L.start ∧ (Lane.onUpd g L).ret = L.ret ∧
    (Lane.onUpd g L).nb = L.nb ∧ (Lane.onUpd g L).vote = L.vote ∧ (Lane.onUpd g L).roles = L.roles ∧
    (Lane.onUpd g L).core = L.core ∧ (Lane.onUpd g L).pair = L.pair ∧ (Lane.onUpd g L).engine = L.engine ∧
    (Lane.onUpd g L).motor = L.motor ∧ (Lane.onUpd g L).shunt = L.shunt ∧ (Lane.onUpd g L).gen = L.gen ∧
    (Lane.onUpd g L).quad = L.quad ∧ (Lane.onUpd g L).resolver = L.resolver ∧ (Lane.onUpd g L).sent = L.sent ∧
    (Lane.onUpd g L).votePos = L.votePos ∧ (Lane.onUpd g L).gate = L.gate ∧ (Lane.onUpd g L).solenoid = L.solenoid ∧
    (Lane.onUpd g L).guardSt = L.guardSt ∧ (Lane.onUpd g L).fault = L.fault ∧ (Lane.onUpd g L).slaz = L.slaz ∧
    (Lane.onUpd g L).time = L.time ∧ (Lane.onUpd g L).ptp = L.ptp ∧ (Lane.onUpd g L).pulse = L.pulse ∧
    (Lane.onUpd g L).host = L.host ∧ (Lane.onUpd g L).queue = L.queue ∧ (Lane.onUpd g L).auth = L.auth ∧
    (Lane.onUpd g L).isobus = L.isobus ∧ (Lane.onUpd g L).power = L.power ∧ (Lane.onUpd g L).sec = L.sec ∧
    (Lane.onUpd g L).dbg = L.dbg ∧ (Lane.onUpd g L).update = g L.update ∧ (Lane.onUpd g L).test = L.test ∧
    (Lane.onUpd g L).v5out = L.v5out ∧ (∀ r, (Lane.onUpd g L).rd r = L.rd r) := by
  and_intros <;> intros <;> rfl

/-- What `onTest` leaves. -/
@[simp] theorem Lane.onTest_fields (g : TestSt → TestSt) (L : Lane) :
    (Lane.onTest g L).id = L.id ∧ (Lane.onTest g L).draws = L.draws ∧ (Lane.onTest g L).regs = L.regs ∧
    (Lane.onTest g L).sram = L.sram ∧ (Lane.onTest g L).store = L.store ∧ (Lane.onTest g L).timers = L.timers ∧
    (Lane.onTest g L).irqs = L.irqs ∧ (Lane.onTest g L).msip = L.msip ∧ (Lane.onTest g L).mtimecmp = L.mtimecmp ∧
    (Lane.onTest g L).mtip = L.mtip ∧ (Lane.onTest g L).plic = L.plic ∧ (Lane.onTest g L).link = L.link ∧
    (Lane.onTest g L).out = L.out ∧ (Lane.onTest g L).start = L.start ∧ (Lane.onTest g L).ret = L.ret ∧
    (Lane.onTest g L).nb = L.nb ∧ (Lane.onTest g L).vote = L.vote ∧ (Lane.onTest g L).roles = L.roles ∧
    (Lane.onTest g L).core = L.core ∧ (Lane.onTest g L).pair = L.pair ∧ (Lane.onTest g L).engine = L.engine ∧
    (Lane.onTest g L).motor = L.motor ∧ (Lane.onTest g L).shunt = L.shunt ∧ (Lane.onTest g L).gen = L.gen ∧
    (Lane.onTest g L).quad = L.quad ∧ (Lane.onTest g L).resolver = L.resolver ∧ (Lane.onTest g L).sent = L.sent ∧
    (Lane.onTest g L).votePos = L.votePos ∧ (Lane.onTest g L).gate = L.gate ∧ (Lane.onTest g L).solenoid = L.solenoid ∧
    (Lane.onTest g L).guardSt = L.guardSt ∧ (Lane.onTest g L).fault = L.fault ∧ (Lane.onTest g L).slaz = L.slaz ∧
    (Lane.onTest g L).time = L.time ∧ (Lane.onTest g L).ptp = L.ptp ∧ (Lane.onTest g L).pulse = L.pulse ∧
    (Lane.onTest g L).host = L.host ∧ (Lane.onTest g L).queue = L.queue ∧ (Lane.onTest g L).auth = L.auth ∧
    (Lane.onTest g L).isobus = L.isobus ∧ (Lane.onTest g L).power = L.power ∧ (Lane.onTest g L).sec = L.sec ∧
    (Lane.onTest g L).dbg = L.dbg ∧ (Lane.onTest g L).update = L.update ∧ (Lane.onTest g L).test = g L.test ∧
    (Lane.onTest g L).v5out = L.v5out ∧ (∀ r, (Lane.onTest g L).rd r = L.rd r) := by
  and_intros <;> intros <;> rfl

/-- What `onVote` leaves. -/
@[simp] theorem Lane.onVote_fields (g : Vote → Vote) (L : Lane) :
    (Lane.onVote g L).id = L.id ∧ (Lane.onVote g L).draws = L.draws ∧ (Lane.onVote g L).regs = L.regs ∧
    (Lane.onVote g L).sram = L.sram ∧ (Lane.onVote g L).store = L.store ∧ (Lane.onVote g L).timers = L.timers ∧
    (Lane.onVote g L).irqs = L.irqs ∧ (Lane.onVote g L).msip = L.msip ∧ (Lane.onVote g L).mtimecmp = L.mtimecmp ∧
    (Lane.onVote g L).mtip = L.mtip ∧ (Lane.onVote g L).plic = L.plic ∧ (Lane.onVote g L).link = L.link ∧
    (Lane.onVote g L).out = L.out ∧ (Lane.onVote g L).start = L.start ∧ (Lane.onVote g L).ret = L.ret ∧
    (Lane.onVote g L).nb = L.nb ∧ (Lane.onVote g L).vote = g L.vote ∧ (Lane.onVote g L).roles = L.roles ∧
    (Lane.onVote g L).core = L.core ∧ (Lane.onVote g L).pair = L.pair ∧ (Lane.onVote g L).engine = L.engine ∧
    (Lane.onVote g L).motor = L.motor ∧ (Lane.onVote g L).shunt = L.shunt ∧ (Lane.onVote g L).gen = L.gen ∧
    (Lane.onVote g L).quad = L.quad ∧ (Lane.onVote g L).resolver = L.resolver ∧ (Lane.onVote g L).sent = L.sent ∧
    (Lane.onVote g L).votePos = L.votePos ∧ (Lane.onVote g L).gate = L.gate ∧ (Lane.onVote g L).solenoid = L.solenoid ∧
    (Lane.onVote g L).guardSt = L.guardSt ∧ (Lane.onVote g L).fault = L.fault ∧ (Lane.onVote g L).slaz = L.slaz ∧
    (Lane.onVote g L).time = L.time ∧ (Lane.onVote g L).ptp = L.ptp ∧ (Lane.onVote g L).pulse = L.pulse ∧
    (Lane.onVote g L).host = L.host ∧ (Lane.onVote g L).queue = L.queue ∧ (Lane.onVote g L).auth = L.auth ∧
    (Lane.onVote g L).isobus = L.isobus ∧ (Lane.onVote g L).power = L.power ∧ (Lane.onVote g L).sec = L.sec ∧
    (Lane.onVote g L).dbg = L.dbg ∧ (Lane.onVote g L).update = L.update ∧ (Lane.onVote g L).test = L.test ∧
    (Lane.onVote g L).v5out = L.v5out ∧ (∀ r, (Lane.onVote g L).rd r = L.rd r) := by
  and_intros <;> intros <;> rfl

/-- What `onIso` leaves. -/
@[simp] theorem Lane.onIso_fields (g : IsobusSt → IsobusSt) (L : Lane) :
    (Lane.onIso g L).id = L.id ∧ (Lane.onIso g L).draws = L.draws ∧ (Lane.onIso g L).regs = L.regs ∧
    (Lane.onIso g L).sram = L.sram ∧ (Lane.onIso g L).store = L.store ∧ (Lane.onIso g L).timers = L.timers ∧
    (Lane.onIso g L).irqs = L.irqs ∧ (Lane.onIso g L).msip = L.msip ∧ (Lane.onIso g L).mtimecmp = L.mtimecmp ∧
    (Lane.onIso g L).mtip = L.mtip ∧ (Lane.onIso g L).plic = L.plic ∧ (Lane.onIso g L).link = L.link ∧
    (Lane.onIso g L).out = L.out ∧ (Lane.onIso g L).start = L.start ∧ (Lane.onIso g L).ret = L.ret ∧
    (Lane.onIso g L).nb = L.nb ∧ (Lane.onIso g L).vote = L.vote ∧ (Lane.onIso g L).roles = L.roles ∧
    (Lane.onIso g L).core = L.core ∧ (Lane.onIso g L).pair = L.pair ∧ (Lane.onIso g L).engine = L.engine ∧
    (Lane.onIso g L).motor = L.motor ∧ (Lane.onIso g L).shunt = L.shunt ∧ (Lane.onIso g L).gen = L.gen ∧
    (Lane.onIso g L).quad = L.quad ∧ (Lane.onIso g L).resolver = L.resolver ∧ (Lane.onIso g L).sent = L.sent ∧
    (Lane.onIso g L).votePos = L.votePos ∧ (Lane.onIso g L).gate = L.gate ∧ (Lane.onIso g L).solenoid = L.solenoid ∧
    (Lane.onIso g L).guardSt = L.guardSt ∧ (Lane.onIso g L).fault = L.fault ∧ (Lane.onIso g L).slaz = L.slaz ∧
    (Lane.onIso g L).time = L.time ∧ (Lane.onIso g L).ptp = L.ptp ∧ (Lane.onIso g L).pulse = L.pulse ∧
    (Lane.onIso g L).host = L.host ∧ (Lane.onIso g L).queue = L.queue ∧ (Lane.onIso g L).auth = L.auth ∧
    (Lane.onIso g L).isobus = g L.isobus ∧ (Lane.onIso g L).power = L.power ∧ (Lane.onIso g L).sec = L.sec ∧
    (Lane.onIso g L).dbg = L.dbg ∧ (Lane.onIso g L).update = L.update ∧ (Lane.onIso g L).test = L.test ∧
    (Lane.onIso g L).v5out = L.v5out ∧ (∀ r, (Lane.onIso g L).rd r = L.rd r) := by
  and_intros <;> intros <;> rfl

/-- What `onDbg` leaves. -/
@[simp] theorem Lane.onDbg_fields (g : DebugSt → DebugSt) (L : Lane) :
    (Lane.onDbg g L).id = L.id ∧ (Lane.onDbg g L).draws = L.draws ∧ (Lane.onDbg g L).regs = L.regs ∧
    (Lane.onDbg g L).sram = L.sram ∧ (Lane.onDbg g L).store = L.store ∧ (Lane.onDbg g L).timers = L.timers ∧
    (Lane.onDbg g L).irqs = L.irqs ∧ (Lane.onDbg g L).msip = L.msip ∧ (Lane.onDbg g L).mtimecmp = L.mtimecmp ∧
    (Lane.onDbg g L).mtip = L.mtip ∧ (Lane.onDbg g L).plic = L.plic ∧ (Lane.onDbg g L).link = L.link ∧
    (Lane.onDbg g L).out = L.out ∧ (Lane.onDbg g L).start = L.start ∧ (Lane.onDbg g L).ret = L.ret ∧
    (Lane.onDbg g L).nb = L.nb ∧ (Lane.onDbg g L).vote = L.vote ∧ (Lane.onDbg g L).roles = L.roles ∧
    (Lane.onDbg g L).core = L.core ∧ (Lane.onDbg g L).pair = L.pair ∧ (Lane.onDbg g L).engine = L.engine ∧
    (Lane.onDbg g L).motor = L.motor ∧ (Lane.onDbg g L).shunt = L.shunt ∧ (Lane.onDbg g L).gen = L.gen ∧
    (Lane.onDbg g L).quad = L.quad ∧ (Lane.onDbg g L).resolver = L.resolver ∧ (Lane.onDbg g L).sent = L.sent ∧
    (Lane.onDbg g L).votePos = L.votePos ∧ (Lane.onDbg g L).gate = L.gate ∧ (Lane.onDbg g L).solenoid = L.solenoid ∧
    (Lane.onDbg g L).guardSt = L.guardSt ∧ (Lane.onDbg g L).fault = L.fault ∧ (Lane.onDbg g L).slaz = L.slaz ∧
    (Lane.onDbg g L).time = L.time ∧ (Lane.onDbg g L).ptp = L.ptp ∧ (Lane.onDbg g L).pulse = L.pulse ∧
    (Lane.onDbg g L).host = L.host ∧ (Lane.onDbg g L).queue = L.queue ∧ (Lane.onDbg g L).auth = L.auth ∧
    (Lane.onDbg g L).isobus = L.isobus ∧ (Lane.onDbg g L).power = L.power ∧ (Lane.onDbg g L).sec = L.sec ∧
    (Lane.onDbg g L).dbg = g L.dbg ∧ (Lane.onDbg g L).update = L.update ∧ (Lane.onDbg g L).test = L.test ∧
    (Lane.onDbg g L).v5out = L.v5out ∧ (∀ r, (Lane.onDbg g L).rd r = L.rd r) := by
  and_intros <;> intros <;> rfl

/-- What `irq` leaves. -/
@[simp] theorem Lane.irq_fields (i : Irq) (L : Lane) :
    (Lane.irq i L).id = L.id ∧ (Lane.irq i L).draws = L.draws ∧ (Lane.irq i L).regs = L.regs ∧ (Lane.irq i L).sram = L.sram ∧
    (Lane.irq i L).store = L.store ∧ (Lane.irq i L).timers = L.timers ∧ (Lane.irq i L).msip = L.msip ∧
    (Lane.irq i L).mtimecmp = L.mtimecmp ∧ (Lane.irq i L).mtip = L.mtip ∧ (Lane.irq i L).link = L.link ∧
    (Lane.irq i L).out = L.out ∧ (Lane.irq i L).start = L.start ∧ (Lane.irq i L).ret = L.ret ∧ (Lane.irq i L).nb = L.nb ∧
    (Lane.irq i L).vote = L.vote ∧ (Lane.irq i L).roles = L.roles ∧ (Lane.irq i L).core = L.core ∧
    (Lane.irq i L).pair = L.pair ∧ (Lane.irq i L).engine = L.engine ∧ (Lane.irq i L).motor = L.motor ∧
    (Lane.irq i L).shunt = L.shunt ∧ (Lane.irq i L).gen = L.gen ∧ (Lane.irq i L).quad = L.quad ∧
    (Lane.irq i L).resolver = L.resolver ∧ (Lane.irq i L).sent = L.sent ∧ (Lane.irq i L).votePos = L.votePos ∧
    (Lane.irq i L).gate = L.gate ∧ (Lane.irq i L).solenoid = L.solenoid ∧ (Lane.irq i L).guardSt = L.guardSt ∧
    (Lane.irq i L).fault = L.fault ∧ (Lane.irq i L).slaz = L.slaz ∧ (Lane.irq i L).time = L.time ∧ (Lane.irq i L).ptp = L.ptp ∧
    (Lane.irq i L).pulse = L.pulse ∧ (Lane.irq i L).host = L.host ∧ (Lane.irq i L).queue = L.queue ∧
    (Lane.irq i L).auth = L.auth ∧ (Lane.irq i L).isobus = L.isobus ∧ (Lane.irq i L).power = L.power ∧
    (Lane.irq i L).sec = L.sec ∧ (Lane.irq i L).dbg = L.dbg ∧ (Lane.irq i L).update = L.update ∧ (Lane.irq i L).test = L.test ∧
    (Lane.irq i L).v5out = L.v5out ∧ (∀ r, (Lane.irq i L).rd r = L.rd r) := by
  unfold Lane.irq
  split
  · and_intros <;> intros <;> rfl
  · split <;> and_intros <;> intros <;> rfl

/-! ### The lanes of the device -/

@[simp] theorem State.lane_setLane_same (s : State) (l : LaneId) (x : Lane) : (s.setLane l x).lane l = x := by cases l <;> rfl

theorem State.lane_setLane_ne (s : State) {l m : LaneId} (x : Lane) (h : l ≠ m) : (s.setLane l x).lane m = s.lane m := by
  cases l <;> cases m <;> first | rfl | exact absurd rfl h

@[simp] theorem State.pending_setLane (s : State) (l : LaneId) (x : Lane) : (s.setLane l x).pending = s.pending := by
  cases l <;> rfl

@[simp] theorem State.lane_onLane_same (s : State) (l : LaneId) (f : Lane → Lane) : (s.onLane l f).lane l = f (s.lane l) :=
  State.lane_setLane_same _ _ _

theorem State.lane_onLane_ne (s : State) {l m : LaneId} (f : Lane → Lane) (h : l ≠ m) : (s.onLane l f).lane m = s.lane m :=
  State.lane_setLane_ne _ _ h

@[simp] theorem State.pending_onLane (s : State) (l : LaneId) (f : Lane → Lane) : (s.onLane l f).pending = s.pending :=
  State.pending_setLane _ _ _

/-- Two commands on two lanes commute. -/
theorem State.onLane_comm (s : State) {l m : LaneId} (f g : Lane → Lane) (h : l ≠ m) :
    (s.onLane l f).onLane m g = (s.onLane m g).onLane l f := by
  cases l <;> cases m <;> first | rfl | exact absurd rfl h

end Machine
end Sys2Proof
end

