-- ==== Sys2Proof/Laws/Does.lean ====
section
/-! SUPPORT. How `Does` is shown: a command acts on its lane by one function of the lane. -/

namespace Sys2Proof.Machine

theorem does_of {c : Instr} {pre : Lane → Prop} {post : Lane → Lane → Prop} (f : Lane → Lane)
    (he : ∀ s, exec c s = .next (s.onLane (laneOf c) f)) (hp : ∀ L, pre L → post L (f L)) : Does c pre post :=
  fun s h => ⟨s.onLane (laneOf c) f, he s, State.pending_onLane _ _ _,
    fun m hm => State.lane_onLane_ne s f (fun e => hm e.symm), by
      rw [State.lane_onLane_same]; exact hp _ h⟩

/-- What a command does may be said with less. -/
theorem Does.mono {c : Instr} {pre pre' : Lane → Prop} {post post' : Lane → Lane → Prop} (h : Does c pre post)
    (h1 : ∀ L, pre' L → pre L) (h2 : ∀ L M, pre' L → post L M → post' L M) : Does c pre' post' := fun s hs => by
  obtain ⟨t, he, hq, hf, hp⟩ := h s (h1 _ hs)
  exact ⟨t, he, hq, hf, h2 _ _ hs hp⟩

end Sys2Proof.Machine
end

