-- ==== Sys2Proof/Laws/Engine.lean ====
section
/-! SUPPORT. What the issue of a drive-engine instruction does, said once: reading a register after a write, and the whole effect of an
instruction that writes one register. -/

namespace Sys2Proof.Machine

theorem Lane.onDe_de (L : Lane) (n : Engine) (f : EngineSt → EngineSt) : (L.onDe n f).de n = f (L.de n) :=
  vget_vupd_same _ _ _
theorem Lane.onDe_de_ne (L : Lane) {n m : Engine} (h : n ≠ m) (f : EngineSt → EngineSt) : (L.onDe n f).de m = L.de m :=
  vget_vupd_ne _ _ h
/-- Two updates that agree on the engine that is there are one. -/
theorem Lane.onDe_congr (L : Lane) (n : Engine) (f g : EngineSt → EngineSt) (h : f (L.de n) = g (L.de n)) : L.onDe n f = L.onDe n g := by
  unfold Lane.onDe vupd
  have h' : f (vget L.engine n) = g (vget L.engine n) := h
  simp_all [vget]

theorem EngineSt.reg_zero (e : EngineSt) : e.reg 0 = 0 := by simp [EngineSt.reg]
theorem EngineSt.reg_setReg_same (e : EngineSt) (r : Reg) (v : Word) (h : r ≠ 0) : (e.setReg r v).reg r = v := by
  unfold EngineSt.setReg EngineSt.reg
  rw [if_neg h, if_neg h]
  exact vget_vupd_same _ _ _
theorem EngineSt.reg_setReg_ne (e : EngineSt) (r q : Reg) (v : Word) (h : q ≠ r) : (e.setReg r v).reg q = e.reg q := by
  unfold EngineSt.setReg EngineSt.reg
  by_cases hq : q = 0
  · rw [if_pos hq, if_pos hq]
  · rw [if_neg hq, if_neg hq]
    split
    · rfl
    · exact vget_vupd_ne _ _ (fun hc => h (BitVec.eq_of_toFin_eq hc.symm))
theorem EngineSt.reg_retire (e : EngineSt) (i : DeInstr) (r : Reg) : (e.retire i).reg r = e.reg r := rfl
theorem EngineSt.setReg_issue (e : EngineSt) (i : DeInstr) (r : Reg) (v : Word) :
    (e.retire i).setReg r v = e.issueOf ((e.retire i).setReg r v) := by
  unfold EngineSt.setReg EngineSt.issueOf EngineSt.retire EngineSt.mark; split <;> rfl
theorem EngineSt.ready_retire (e : EngineSt) (i : DeInstr) (r : Reg) (h : (formOf i).writes = [r]) (hr : r ≠ 0) :
    (e.retire i).readyAt r = e.issueAt i + (formOf i).lat := by
  have hm : ∀ (e' : EngineSt) (c : Nat), (e'.mark [r] c).readyAt r = c := fun e' c => by
    unfold EngineSt.mark EngineSt.readyAt
    rw [if_neg hr]
    simp [vget_vupd_same]
  have hh : (e.retire i).readyAt r = (e.mark [r] (e.issueAt i + (formOf i).lat)).readyAt r := by
    rw [← h]; rfl
  rw [hh, hm]

/-- An instruction that writes one register does what DeResult says. -/
theorem Lane.write_result (L : Lane) (n : Engine) (i : DeInstr) (rd : Reg) (v : Word) (hw : (formOf i).writes = [rd]) :
    L.DeResult (L.onDe n (fun e => (e.retire i).setReg rd v)) n i rd v where
  frame := by rw [Lane.onDe_de]; apply Lane.onDe_congr; exact EngineSt.setReg_issue _ _ _ _
  result h := by rw [Lane.onDe_de, EngineSt.reg_setReg_same _ _ _ h]
  others r h := by rw [Lane.onDe_de, EngineSt.reg_setReg_ne _ _ _ _ h, EngineSt.reg_retire]
  zero := EngineSt.reg_zero _
  pc := by rw [Lane.onDe_de]; unfold EngineSt.setReg; split <;> rfl
  cyc := by rw [Lane.onDe_de]; unfold EngineSt.setReg; split <;> rfl
  ready h := by
    rw [Lane.onDe_de, ← EngineSt.ready_retire _ _ _ hw h]; unfold EngineSt.setReg EngineSt.readyAt; split <;> rfl
theorem Lane.deWrite_result (L : Lane) (n : Engine) (i : DeInstr) (rd : Reg) (v : EngineSt → Word) (w : Word)
    (h : L.deAt n i = true) (hw : (formOf i).writes = [rd]) (hv : v (L.de n) = w) : L.DeResult (L.deWrite n i rd v) n i rd w := by
  have e : L.deWrite n i rd v = L.onDe n (fun e => (e.retire i).setReg rd w) := by
    unfold Lane.deWrite Lane.when; rw [if_pos h]; apply Lane.onDe_congr; rw [hv]
  rw [e]; exact Lane.write_result _ _ _ _ _ hw
theorem Lane.deFloat_result (L : Lane) (n : Engine) (i : DeInstr) (rd : Reg) (v : EngineSt → Word) (w : Word)
    (h : L.deAt n i = true) (hw : (formOf i).writes = [rd]) (hv : v (L.de n) = w) :
    L.DeFloatResult (L.deFloat n i rd v) n i rd w := by
  refine ⟨L.deWrite n i rd v, Lane.deWrite_result _ _ _ _ _ _ h hw hv, ?_⟩
  unfold Lane.deFloat Lane.when; rw [h, hv, Bool.true_and]

end Sys2Proof.Machine
end

