-- ==== Sys2Proof/Laws/Inv.lean ====
section
/-! SUPPORT. The invariant of a lane and the operations that every command is built from. -/

namespace Sys2Proof.Machine

/-- The invariant looks at four fields only. -/
theorem Lane.Inv.of_eq {l : LaneId} {L M : Lane} (h : L.Inv l) (hi : M.id = L.id) (hr : M.regs = L.regs)
    (hs : M.sram = L.sram) (ht : M.store = L.store) : M.Inv l :=
  ⟨hi ▸ h.id, hr ▸ h.regs, hs ▸ h.sram, ht ▸ h.store⟩

/-- The invariant of a lane written out. -/
theorem Lane.mk_inv {l : LaneId} {id_ : LaneId} {draws_ : Nat} {regs_ : Tab Nat} {sram_ : List Host.Cell}
    {store_ : List Host.Cell} {timers_ : List (Timer × Nat)} {irqs_ : List Irq} {msip_ : Vector Bool 4}
    {mtimecmp_ : Vector Nat 4} {mtip_ : Vector Bool 4} {plic_ : PlicSt} {link_ : List Tx} {out_ : List Output} {start_ : Start}
    {ret_ : Retained} {nb_ : Vector (Option StatusFrame) 2} {vote_ : Vote} {roles_ : Roles} {core_ : Vector CoreSt 4}
    {pair_ : Vector PairSt 2} {engine_ : Vector EngineSt 4} {motor_ : Vector MotorSt 3} {shunt_ : Vector ShuntSt 3}
    {gen_ : GenAdc} {quad_ : Vector QuadSt 2} {resolver_ : ResolverSt} {sent_ : Vector SentSt 2} {votePos_ : Vector VotePos 3}
    {gate_ : GateSt} {solenoid_ : Vector SolenoidSt 4} {guardSt_ : GuardSt} {fault_ : FaultSt} {slaz_ : Vector SlazSt 2}
    {time_ : TimeSt} {ptp_ : PtpSt} {pulse_ : Vector PulseSt 4} {host_ : Vector HostSt 4} {queue_ : Vector QueueSt 16}
    {auth_ : Vector AuthSt 5} {isobus_ : IsobusSt} {power_ : PowerSt} {sec_ : SecSt} {dbg_ : DebugSt} {update_ : UpdateSt}
    {test_ : TestSt} {v5out_ : Bool} :
    Lane.Inv l (Lane.mk id_ draws_ regs_ sram_ store_ timers_ irqs_ msip_ mtimecmp_ mtip_ plic_ link_ out_ start_ ret_ nb_
      vote_ roles_ core_ pair_ engine_ motor_ shunt_ gen_ quad_ resolver_ sent_ votePos_ gate_ solenoid_ guardSt_ fault_ slaz_
      time_ ptp_ pulse_ host_ queue_ auth_ isobus_ power_ sec_ dbg_ update_ test_ v5out_) ↔
      id_ = l ∧ Tab.wf 0 regs_ = true ∧ Tab.wf 0 sram_ = true ∧ Tab.wf 0 store_ = true :=
  ⟨fun h => ⟨h.id, h.regs, h.sram, h.store⟩, fun h => ⟨h.1, h.2.1, h.2.2.1, h.2.2.2⟩⟩

theorem Lane.wr_inv {l : LaneId} (f : Fld) (v : Nat) {L : Lane} (h : L.Inv l) : (L.wr f v).Inv l :=
  ⟨h.id, Tab.wf_put _ _ h.regs, h.sram, h.store⟩

theorem Lane.sramWrite_inv {l : LaneId} (a : Nat) (bs : List Byte) {L : Lane} (h : L.Inv l) : (L.sramWrite a bs).Inv l :=
  ⟨h.id, h.regs, Tab.wf_putList _ _ h.sram, h.store⟩

theorem Lane.wearLines_inv {l : LaneId} (a n : Nat) {L : Lane} (h : L.Inv l) : (L.wearLines a n).Inv l :=
  h.of_eq rfl rfl rfl rfl

theorem Lane.storeWrite_inv {l : LaneId} (a : Nat) (bs : List Byte) {L : Lane} (h : L.Inv l) : (L.storeWrite a bs).Inv l :=
  ⟨h.id, h.regs, h.sram, Tab.wf_putList _ _ h.store⟩

theorem Lane.when_inv {l : LaneId} {b : Bool} {f : Lane → Lane} {L : Lane} (hf : ∀ M : Lane, M.Inv l → (f M).Inv l)
    (h : L.Inv l) : (L.when b f).Inv l := by
  unfold Lane.when
  split
  · exact hf _ h
  · exact h

theorem ite_inv {l : LaneId} {c : Prop} [Decidable c] {L M : Lane} (h : L.Inv l) (h' : M.Inv l) : (if c then L else M).Inv l := by
  split
  · exact h
  · exact h'

/-- Operations in order keep what each of them keeps. -/
theorem foldl_inv {α : Type} {l : LaneId} (xs : List α) (f : Lane → α → Lane)
    (hf : ∀ (M : Lane) (x : α), M.Inv l → (f M x).Inv l) {L : Lane} (h : L.Inv l) : (xs.foldl f L).Inv l := by
  induction xs generalizing L with
  | nil => exact h
  | cons x xs ih => exact ih (hf _ _ h)

theorem Lane.each_inv {α : Type} {l : LaneId} {xs : List α} {f : α → Lane → Lane} {L : Lane}
    (hf : ∀ (x : α) (M : Lane), M.Inv l → (f x M).Inv l) (h : L.Inv l) : (L.each xs f).Inv l :=
  foldl_inv xs _ (fun M x hM => hf x M hM) h

theorem startRegs_wf : Tab.wf 0 startRegs = true := by decide +kernel

/-- A lane without supply has the invariant. -/
theorem Lane.unpowered_inv (l : LaneId) : (Lane.unpowered l).Inv l := ⟨rfl, Tab.wf_put _ _ startRegs_wf, rfl, rfl⟩

theorem Lane.unpowered_id_inv {l : LaneId} {L : Lane} (h : L.Inv l) : (Lane.unpowered L.id).Inv l := by
  rw [h.id]
  exact Lane.unpowered_inv l

theorem Lane.wrBit_inv {l : LaneId} (f : Fld) (i : Nat) (b : Bool) {L : Lane} (h : L.Inv l) : (L.wrBit f i b).Inv l :=
  Lane.wr_inv _ _ h

theorem Lane.countPart_inv {l : LaneId} (f : Fld) (lo w n : Nat) {L : Lane} (h : L.Inv l) : (L.countPart f lo w n).Inv l :=
  Lane.wr_inv _ _ h

end Sys2Proof.Machine
end

