-- ==== Sys2Proof/Laws/InvOps.lean ====
section
/-! SUPPORT. The operations of Machine/Ops.lean keep the invariant of a lane. -/

namespace Sys2Proof.Machine

theorem Lane.set1_inv {l : LaneId} (f : Fld) {L : Lane} (hL : L.Inv l) : (Lane.set1 f L).Inv l := by
  unfold Lane.set1
  try dsimp only
  repeat' first | with_reducible assumption | (intro _ _ _) | (intro _ _) | with_reducible apply Lane.wr_inv

theorem Lane.clr_inv {l : LaneId} (f : Fld) {L : Lane} (hL : L.Inv l) : (Lane.clr f L).Inv l := by
  unfold Lane.clr
  try dsimp only
  repeat' first | with_reducible assumption | (intro _ _ _) | (intro _ _) | with_reducible apply Lane.wr_inv

theorem Lane.count_inv {l : LaneId} (f : Fld) (n : Nat) {L : Lane} (hL : L.Inv l) : (Lane.count f n L).Inv l := by
  unfold Lane.count
  try dsimp only
  repeat' first | with_reducible assumption | (intro _ _ _) | (intro _ _) | with_reducible apply Lane.wr_inv

theorem Lane.countMod_inv {l : LaneId} (f : Fld) (n : Nat) {L : Lane} (hL : L.Inv l) : (Lane.countMod f n L).Inv l := by
  unfold Lane.countMod
  try dsimp only
  repeat' first | with_reducible assumption | (intro _ _ _) | (intro _ _) | with_reducible apply Lane.wr_inv

theorem Lane.setTimer_inv {l : LaneId} (t : Timer) (v : Nat) {L : Lane} (hL : L.Inv l) : (Lane.setTimer t v L).Inv l := by
  unfold Lane.setTimer
  try dsimp only
  repeat' first | with_reducible assumption | (intro _ _ _) | (intro _ _) | with_reducible apply ite_inv | with_reducible apply Lane.unpowered_id_inv | with_reducible apply Lane.when_inv | with_reducible apply Lane.each_inv | with_reducible apply foldl_inv | with_reducible apply Lane.Inv.id | with_reducible apply Lane.Inv.regs | with_reducible apply Lane.Inv.sram | with_reducible apply Lane.Inv.store | with_reducible apply Tab.wf_filter | with_reducible apply Tab.wf_foldl_put | with_reducible apply Tab.wf_put | with_reducible apply Tab.wf_graft | with_reducible apply Lane.unpowered_inv | with_reducible apply foldl_pair_inv | split | (simp only [Lane.mk_inv]; refine ⟨?_, ?_, ?_, ?_⟩)

theorem Lane.pass_inv {l : LaneId} (dt : Nat) {L : Lane} (hL : L.Inv l) : (Lane.pass dt L).Inv l := by
  unfold Lane.pass
  try dsimp only
  repeat' first | with_reducible assumption | (intro _ _ _) | (intro _ _) | with_reducible apply ite_inv | with_reducible apply Lane.unpowered_id_inv | with_reducible apply Lane.when_inv | with_reducible apply Lane.each_inv | with_reducible apply foldl_inv | with_reducible apply Lane.Inv.id | with_reducible apply Lane.Inv.regs | with_reducible apply Lane.Inv.sram | with_reducible apply Lane.Inv.store | with_reducible apply Tab.wf_filter | with_reducible apply Tab.wf_foldl_put | with_reducible apply Tab.wf_put | with_reducible apply Tab.wf_graft | with_reducible apply Lane.unpowered_inv | with_reducible apply foldl_pair_inv | split | (simp only [Lane.mk_inv]; refine ⟨?_, ?_, ?_, ?_⟩)

theorem Lane.stop_inv {l : LaneId} (t : Timer) {L : Lane} (hL : L.Inv l) : (Lane.stop t L).Inv l := by
  unfold Lane.stop
  try dsimp only
  repeat' first | with_reducible assumption | (intro _ _ _) | (intro _ _) | with_reducible apply ite_inv | with_reducible apply Lane.unpowered_id_inv | with_reducible apply Lane.when_inv | with_reducible apply Lane.each_inv | with_reducible apply foldl_inv | with_reducible apply Lane.Inv.id | with_reducible apply Lane.Inv.regs | with_reducible apply Lane.Inv.sram | with_reducible apply Lane.Inv.store | with_reducible apply Tab.wf_filter | with_reducible apply Tab.wf_foldl_put | with_reducible apply Tab.wf_put | with_reducible apply Tab.wf_graft | with_reducible apply Lane.unpowered_inv | with_reducible apply foldl_pair_inv | split | (simp only [Lane.mk_inv]; refine ⟨?_, ?_, ?_, ?_⟩)

theorem Lane.restart_inv {l : LaneId} (t : Timer) {L : Lane} (hL : L.Inv l) : (Lane.restart t L).Inv l := by
  unfold Lane.restart
  try dsimp only
  repeat' first | with_reducible assumption | (intro _ _ _) | (intro _ _) | with_reducible apply Lane.stop_inv | with_reducible apply ite_inv | with_reducible apply Lane.unpowered_id_inv | with_reducible apply Lane.when_inv | with_reducible apply Lane.each_inv | with_reducible apply foldl_inv | with_reducible apply Lane.Inv.id | with_reducible apply Lane.Inv.regs | with_reducible apply Lane.Inv.sram | with_reducible apply Lane.Inv.store | with_reducible apply Tab.wf_filter | with_reducible apply Tab.wf_foldl_put | with_reducible apply Tab.wf_put | with_reducible apply Tab.wf_graft | with_reducible apply Lane.unpowered_inv | with_reducible apply foldl_pair_inv | split | (simp only [Lane.mk_inv]; refine ⟨?_, ?_, ?_, ?_⟩)

theorem Lane.start1_inv {l : LaneId} (t : Timer) {L : Lane} (hL : L.Inv l) : (Lane.start1 t L).Inv l := by
  unfold Lane.start1
  try dsimp only
  repeat' first | with_reducible assumption | (intro _ _ _) | (intro _ _) | with_reducible apply Lane.restart_inv | with_reducible apply ite_inv

theorem Lane.irq_inv {l : LaneId} (i : Irq) {L : Lane} (hL : L.Inv l) : (Lane.irq i L).Inv l := by
  unfold Lane.irq
  try dsimp only
  repeat' first | with_reducible assumption | (intro _ _ _) | (intro _ _) | with_reducible apply ite_inv | with_reducible apply Lane.unpowered_id_inv | with_reducible apply Lane.when_inv | with_reducible apply Lane.each_inv | with_reducible apply foldl_inv | with_reducible apply Lane.Inv.id | with_reducible apply Lane.Inv.regs | with_reducible apply Lane.Inv.sram | with_reducible apply Lane.Inv.store | with_reducible apply Tab.wf_filter | with_reducible apply Tab.wf_foldl_put | with_reducible apply Tab.wf_put | with_reducible apply Tab.wf_graft | with_reducible apply Lane.unpowered_inv | with_reducible apply foldl_pair_inv | split | (simp only [Lane.mk_inv]; refine ⟨?_, ?_, ?_, ?_⟩)

theorem Lane.send_inv {l : LaneId} (o : Output) {L : Lane} (hL : L.Inv l) : (Lane.send o L).Inv l := by
  unfold Lane.send
  try dsimp only
  repeat' first | with_reducible assumption | (intro _ _ _) | (intro _ _) | with_reducible apply ite_inv | with_reducible apply Lane.unpowered_id_inv | with_reducible apply Lane.when_inv | with_reducible apply Lane.each_inv | with_reducible apply foldl_inv | with_reducible apply Lane.Inv.id | with_reducible apply Lane.Inv.regs | with_reducible apply Lane.Inv.sram | with_reducible apply Lane.Inv.store | with_reducible apply Tab.wf_filter | with_reducible apply Tab.wf_foldl_put | with_reducible apply Tab.wf_put | with_reducible apply Tab.wf_graft | with_reducible apply Lane.unpowered_inv | with_reducible apply foldl_pair_inv | split | (simp only [Lane.mk_inv]; refine ⟨?_, ?_, ?_, ?_⟩)

theorem Lane.drawn_inv {l : LaneId}  {L : Lane} (hL : L.Inv l) : (Lane.drawn  L).Inv l := by
  unfold Lane.drawn
  try dsimp only
  repeat' first | with_reducible assumption | (intro _ _ _) | (intro _ _) | with_reducible apply ite_inv | with_reducible apply Lane.unpowered_id_inv | with_reducible apply Lane.when_inv | with_reducible apply Lane.each_inv | with_reducible apply foldl_inv | with_reducible apply Lane.Inv.id | with_reducible apply Lane.Inv.regs | with_reducible apply Lane.Inv.sram | with_reducible apply Lane.Inv.store | with_reducible apply Tab.wf_filter | with_reducible apply Tab.wf_foldl_put | with_reducible apply Tab.wf_put | with_reducible apply Tab.wf_graft | with_reducible apply Lane.unpowered_inv | with_reducible apply foldl_pair_inv | split | (simp only [Lane.mk_inv]; refine ⟨?_, ?_, ?_, ?_⟩)

theorem Lane.onFn_inv {l : LaneId} (f : Func) (g : RoleFn → RoleFn) {L : Lane} (hL : L.Inv l) : (Lane.onFn f g L).Inv l := by
  unfold Lane.onFn
  try dsimp only
  repeat' first | with_reducible assumption | (intro _ _ _) | (intro _ _) | with_reducible apply ite_inv | with_reducible apply Lane.unpowered_id_inv | with_reducible apply Lane.when_inv | with_reducible apply Lane.each_inv | with_reducible apply foldl_inv | with_reducible apply Lane.Inv.id | with_reducible apply Lane.Inv.regs | with_reducible apply Lane.Inv.sram | with_reducible apply Lane.Inv.store | with_reducible apply Tab.wf_filter | with_reducible apply Tab.wf_foldl_put | with_reducible apply Tab.wf_put | with_reducible apply Tab.wf_graft | with_reducible apply Lane.unpowered_inv | with_reducible apply foldl_pair_inv | split | (simp only [Lane.mk_inv]; refine ⟨?_, ?_, ?_, ?_⟩)

theorem Lane.onDe_inv {l : LaneId} (n : Engine) (g : EngineSt → EngineSt) {L : Lane} (hL : L.Inv l) : (Lane.onDe n g L).Inv l := by
  unfold Lane.onDe
  try dsimp only
  repeat' first | with_reducible assumption | (intro _ _ _) | (intro _ _) | with_reducible apply ite_inv | with_reducible apply Lane.unpowered_id_inv | with_reducible apply Lane.when_inv | with_reducible apply Lane.each_inv | with_reducible apply foldl_inv | with_reducible apply Lane.Inv.id | with_reducible apply Lane.Inv.regs | with_reducible apply Lane.Inv.sram | with_reducible apply Lane.Inv.store | with_reducible apply Tab.wf_filter | with_reducible apply Tab.wf_foldl_put | with_reducible apply Tab.wf_put | with_reducible apply Tab.wf_graft | with_reducible apply Lane.unpowered_inv | with_reducible apply foldl_pair_inv | split | (simp only [Lane.mk_inv]; refine ⟨?_, ?_, ?_, ?_⟩)

theorem Lane.onMot_inv {l : LaneId} (p : Port) (g : MotorSt → MotorSt) {L : Lane} (hL : L.Inv l) : (Lane.onMot p g L).Inv l := by
  unfold Lane.onMot
  try dsimp only
  repeat' first | with_reducible assumption | (intro _ _ _) | (intro _ _) | with_reducible apply ite_inv | with_reducible apply Lane.unpowered_id_inv | with_reducible apply Lane.when_inv | with_reducible apply Lane.each_inv | with_reducible apply foldl_inv | with_reducible apply Lane.Inv.id | with_reducible apply Lane.Inv.regs | with_reducible apply Lane.Inv.sram | with_reducible apply Lane.Inv.store | with_reducible apply Tab.wf_filter | with_reducible apply Tab.wf_foldl_put | with_reducible apply Tab.wf_put | with_reducible apply Tab.wf_graft | with_reducible apply Lane.unpowered_inv | with_reducible apply foldl_pair_inv | split | (simp only [Lane.mk_inv]; refine ⟨?_, ?_, ?_, ?_⟩)

theorem Lane.onCore_inv {l : LaneId} (c : Core) (g : CoreSt → CoreSt) {L : Lane} (hL : L.Inv l) : (Lane.onCore c g L).Inv l := by
  unfold Lane.onCore
  try dsimp only
  repeat' first | with_reducible assumption | (intro _ _ _) | (intro _ _) | with_reducible apply ite_inv | with_reducible apply Lane.unpowered_id_inv | with_reducible apply Lane.when_inv | with_reducible apply Lane.each_inv | with_reducible apply foldl_inv | with_reducible apply Lane.Inv.id | with_reducible apply Lane.Inv.regs | with_reducible apply Lane.Inv.sram | with_reducible apply Lane.Inv.store | with_reducible apply Tab.wf_filter | with_reducible apply Tab.wf_foldl_put | with_reducible apply Tab.wf_put | with_reducible apply Tab.wf_graft | with_reducible apply Lane.unpowered_inv | with_reducible apply foldl_pair_inv | split | (simp only [Lane.mk_inv]; refine ⟨?_, ?_, ?_, ?_⟩)

theorem Lane.onPair_inv {l : LaneId} (p : Pair) (g : PairSt → PairSt) {L : Lane} (hL : L.Inv l) : (Lane.onPair p g L).Inv l := by
  unfold Lane.onPair
  try dsimp only
  repeat' first | with_reducible assumption | (intro _ _ _) | (intro _ _) | with_reducible apply ite_inv | with_reducible apply Lane.unpowered_id_inv | with_reducible apply Lane.when_inv | with_reducible apply Lane.each_inv | with_reducible apply foldl_inv | with_reducible apply Lane.Inv.id | with_reducible apply Lane.Inv.regs | with_reducible apply Lane.Inv.sram | with_reducible apply Lane.Inv.store | with_reducible apply Tab.wf_filter | with_reducible apply Tab.wf_foldl_put | with_reducible apply Tab.wf_put | with_reducible apply Tab.wf_graft | with_reducible apply Lane.unpowered_inv | with_reducible apply foldl_pair_inv | split | (simp only [Lane.mk_inv]; refine ⟨?_, ?_, ?_, ?_⟩)

theorem Lane.onSv_inv {l : LaneId} (n : Fin 4) (g : SolenoidSt → SolenoidSt) {L : Lane} (hL : L.Inv l) : (Lane.onSv n g L).Inv l := by
  unfold Lane.onSv
  try dsimp only
  repeat' first | with_reducible assumption | (intro _ _ _) | (intro _ _) | with_reducible apply ite_inv | with_reducible apply Lane.unpowered_id_inv | with_reducible apply Lane.when_inv | with_reducible apply Lane.each_inv | with_reducible apply foldl_inv | with_reducible apply Lane.Inv.id | with_reducible apply Lane.Inv.regs | with_reducible apply Lane.Inv.sram | with_reducible apply Lane.Inv.store | with_reducible apply Tab.wf_filter | with_reducible apply Tab.wf_foldl_put | with_reducible apply Tab.wf_put | with_reducible apply Tab.wf_graft | with_reducible apply Lane.unpowered_inv | with_reducible apply foldl_pair_inv | split | (simp only [Lane.mk_inv]; refine ⟨?_, ?_, ?_, ?_⟩)

theorem Lane.onGate_inv {l : LaneId} (g : GateSt → GateSt) {L : Lane} (hL : L.Inv l) : (Lane.onGate g L).Inv l := by
  unfold Lane.onGate
  try dsimp only
  repeat' first | with_reducible assumption | (intro _ _ _) | (intro _ _) | with_reducible apply ite_inv | with_reducible apply Lane.unpowered_id_inv | with_reducible apply Lane.when_inv | with_reducible apply Lane.each_inv | with_reducible apply foldl_inv | with_reducible apply Lane.Inv.id | with_reducible apply Lane.Inv.regs | with_reducible apply Lane.Inv.sram | with_reducible apply Lane.Inv.store | with_reducible apply Tab.wf_filter | with_reducible apply Tab.wf_foldl_put | with_reducible apply Tab.wf_put | with_reducible apply Tab.wf_graft | with_reducible apply Lane.unpowered_inv | with_reducible apply foldl_pair_inv | split | (simp only [Lane.mk_inv]; refine ⟨?_, ?_, ?_, ?_⟩)

theorem Lane.onGuard_inv {l : LaneId} (g : GuardSt → GuardSt) {L : Lane} (hL : L.Inv l) : (Lane.onGuard g L).Inv l := by
  unfold Lane.onGuard
  try dsimp only
  repeat' first | with_reducible assumption | (intro _ _ _) | (intro _ _) | with_reducible apply ite_inv | with_reducible apply Lane.unpowered_id_inv | with_reducible apply Lane.when_inv | with_reducible apply Lane.each_inv | with_reducible apply foldl_inv | with_reducible apply Lane.Inv.id | with_reducible apply Lane.Inv.regs | with_reducible apply Lane.Inv.sram | with_reducible apply Lane.Inv.store | with_reducible apply Tab.wf_filter | with_reducible apply Tab.wf_foldl_put | with_reducible apply Tab.wf_put | with_reducible apply Tab.wf_graft | with_reducible apply Lane.unpowered_inv | with_reducible apply foldl_pair_inv | split | (simp only [Lane.mk_inv]; refine ⟨?_, ?_, ?_, ?_⟩)

theorem Lane.onRet_inv {l : LaneId} (g : Retained → Retained) {L : Lane} (hL : L.Inv l) : (Lane.onRet g L).Inv l := by
  unfold Lane.onRet
  try dsimp only
  repeat' first | with_reducible assumption | (intro _ _ _) | (intro _ _) | with_reducible apply ite_inv | with_reducible apply Lane.unpowered_id_inv | with_reducible apply Lane.when_inv | with_reducible apply Lane.each_inv | with_reducible apply foldl_inv | with_reducible apply Lane.Inv.id | with_reducible apply Lane.Inv.regs | with_reducible apply Lane.Inv.sram | with_reducible apply Lane.Inv.store | with_reducible apply Tab.wf_filter | with_reducible apply Tab.wf_foldl_put | with_reducible apply Tab.wf_put | with_reducible apply Tab.wf_graft | with_reducible apply Lane.unpowered_inv | with_reducible apply foldl_pair_inv | split | (simp only [Lane.mk_inv]; refine ⟨?_, ?_, ?_, ?_⟩)

theorem Lane.onStart_inv {l : LaneId} (g : Start → Start) {L : Lane} (hL : L.Inv l) : (Lane.onStart g L).Inv l := by
  unfold Lane.onStart
  try dsimp only
  repeat' first | with_reducible assumption | (intro _ _ _) | (intro _ _) | with_reducible apply ite_inv | with_reducible apply Lane.unpowered_id_inv | with_reducible apply Lane.when_inv | with_reducible apply Lane.each_inv | with_reducible apply foldl_inv | with_reducible apply Lane.Inv.id | with_reducible apply Lane.Inv.regs | with_reducible apply Lane.Inv.sram | with_reducible apply Lane.Inv.store | with_reducible apply Tab.wf_filter | with_reducible apply Tab.wf_foldl_put | with_reducible apply Tab.wf_put | with_reducible apply Tab.wf_graft | with_reducible apply Lane.unpowered_inv | with_reducible apply foldl_pair_inv | split | (simp only [Lane.mk_inv]; refine ⟨?_, ?_, ?_, ?_⟩)

theorem Lane.onTime_inv {l : LaneId} (g : TimeSt → TimeSt) {L : Lane} (hL : L.Inv l) : (Lane.onTime g L).Inv l := by
  unfold Lane.onTime
  try dsimp only
  repeat' first | with_reducible assumption | (intro _ _ _) | (intro _ _) | with_reducible apply ite_inv | with_reducible apply Lane.unpowered_id_inv | with_reducible apply Lane.when_inv | with_reducible apply Lane.each_inv | with_reducible apply foldl_inv | with_reducible apply Lane.Inv.id | with_reducible apply Lane.Inv.regs | with_reducible apply Lane.Inv.sram | with_reducible apply Lane.Inv.store | with_reducible apply Tab.wf_filter | with_reducible apply Tab.wf_foldl_put | with_reducible apply Tab.wf_put | with_reducible apply Tab.wf_graft | with_reducible apply Lane.unpowered_inv | with_reducible apply foldl_pair_inv | split | (simp only [Lane.mk_inv]; refine ⟨?_, ?_, ?_, ?_⟩)

theorem Lane.onSlaz_inv {l : LaneId} (c : Fin 2) (g : SlazSt → SlazSt) {L : Lane} (hL : L.Inv l) : (Lane.onSlaz c g L).Inv l := by
  unfold Lane.onSlaz
  try dsimp only
  repeat' first | with_reducible assumption | (intro _ _ _) | (intro _ _) | with_reducible apply ite_inv | with_reducible apply Lane.unpowered_id_inv | with_reducible apply Lane.when_inv | with_reducible apply Lane.each_inv | with_reducible apply foldl_inv | with_reducible apply Lane.Inv.id | with_reducible apply Lane.Inv.regs | with_reducible apply Lane.Inv.sram | with_reducible apply Lane.Inv.store | with_reducible apply Tab.wf_filter | with_reducible apply Tab.wf_foldl_put | with_reducible apply Tab.wf_put | with_reducible apply Tab.wf_graft | with_reducible apply Lane.unpowered_inv | with_reducible apply foldl_pair_inv | split | (simp only [Lane.mk_inv]; refine ⟨?_, ?_, ?_, ?_⟩)

theorem Lane.onHost_inv {l : LaneId} (h : Fin 4) (g : HostSt → HostSt) {L : Lane} (hL : L.Inv l) : (Lane.onHost h g L).Inv l := by
  unfold Lane.onHost
  try dsimp only
  repeat' first | with_reducible assumption | (intro _ _ _) | (intro _ _) | with_reducible apply ite_inv | with_reducible apply Lane.unpowered_id_inv | with_reducible apply Lane.when_inv | with_reducible apply Lane.each_inv | with_reducible apply foldl_inv | with_reducible apply Lane.Inv.id | with_reducible apply Lane.Inv.regs | with_reducible apply Lane.Inv.sram | with_reducible apply Lane.Inv.store | with_reducible apply Tab.wf_filter | with_reducible apply Tab.wf_foldl_put | with_reducible apply Tab.wf_put | with_reducible apply Tab.wf_graft | with_reducible apply Lane.unpowered_inv | with_reducible apply foldl_pair_inv | split | (simp only [Lane.mk_inv]; refine ⟨?_, ?_, ?_, ?_⟩)

theorem Lane.onQueue_inv {l : LaneId} (q : Fin 16) (g : QueueSt → QueueSt) {L : Lane} (hL : L.Inv l) : (Lane.onQueue q g L).Inv l := by
  unfold Lane.onQueue
  try dsimp only
  repeat' first | with_reducible assumption | (intro _ _ _) | (intro _ _) | with_reducible apply ite_inv | with_reducible apply Lane.unpowered_id_inv | with_reducible apply Lane.when_inv | with_reducible apply Lane.each_inv | with_reducible apply foldl_inv | with_reducible apply Lane.Inv.id | with_reducible apply Lane.Inv.regs | with_reducible apply Lane.Inv.sram | with_reducible apply Lane.Inv.store | with_reducible apply Tab.wf_filter | with_reducible apply Tab.wf_foldl_put | with_reducible apply Tab.wf_put | with_reducible apply Tab.wf_graft | with_reducible apply Lane.unpowered_inv | with_reducible apply foldl_pair_inv | split | (simp only [Lane.mk_inv]; refine ⟨?_, ?_, ?_, ?_⟩)

theorem Lane.onDom_inv {l : LaneId} (d : Fin 8) (g : DomainSt → DomainSt) {L : Lane} (hL : L.Inv l) : (Lane.onDom d g L).Inv l := by
  unfold Lane.onDom
  try dsimp only
  repeat' first | with_reducible assumption | (intro _ _ _) | (intro _ _) | with_reducible apply ite_inv | with_reducible apply Lane.unpowered_id_inv | with_reducible apply Lane.when_inv | with_reducible apply Lane.each_inv | with_reducible apply foldl_inv | with_reducible apply Lane.Inv.id | with_reducible apply Lane.Inv.regs | with_reducible apply Lane.Inv.sram | with_reducible apply Lane.Inv.store | with_reducible apply Tab.wf_filter | with_reducible apply Tab.wf_foldl_put | with_reducible apply Tab.wf_put | with_reducible apply Tab.wf_graft | with_reducible apply Lane.unpowered_inv | with_reducible apply foldl_pair_inv | split | (simp only [Lane.mk_inv]; refine ⟨?_, ?_, ?_, ?_⟩)

theorem Lane.onSec_inv {l : LaneId} (g : SecSt → SecSt) {L : Lane} (hL : L.Inv l) : (Lane.onSec g L).Inv l := by
  unfold Lane.onSec
  try dsimp only
  repeat' first | with_reducible assumption | (intro _ _ _) | (intro _ _) | with_reducible apply ite_inv | with_reducible apply Lane.unpowered_id_inv | with_reducible apply Lane.when_inv | with_reducible apply Lane.each_inv | with_reducible apply foldl_inv | with_reducible apply Lane.Inv.id | with_reducible apply Lane.Inv.regs | with_reducible apply Lane.Inv.sram | with_reducible apply Lane.Inv.store | with_reducible apply Tab.wf_filter | with_reducible apply Tab.wf_foldl_put | with_reducible apply Tab.wf_put | with_reducible apply Tab.wf_graft | with_reducible apply Lane.unpowered_inv | with_reducible apply foldl_pair_inv | split | (simp only [Lane.mk_inv]; refine ⟨?_, ?_, ?_, ?_⟩)

theorem Lane.onUpd_inv {l : LaneId} (g : UpdateSt → UpdateSt) {L : Lane} (hL : L.Inv l) : (Lane.onUpd g L).Inv l := by
  unfold Lane.onUpd
  try dsimp only
  repeat' first | with_reducible assumption | (intro _ _ _) | (intro _ _) | with_reducible apply ite_inv | with_reducible apply Lane.unpowered_id_inv | with_reducible apply Lane.when_inv | with_reducible apply Lane.each_inv | with_reducible apply foldl_inv | with_reducible apply Lane.Inv.id | with_reducible apply Lane.Inv.regs | with_reducible apply Lane.Inv.sram | with_reducible apply Lane.Inv.store | with_reducible apply Tab.wf_filter | with_reducible apply Tab.wf_foldl_put | with_reducible apply Tab.wf_put | with_reducible apply Tab.wf_graft | with_reducible apply Lane.unpowered_inv | with_reducible apply foldl_pair_inv | split | (simp only [Lane.mk_inv]; refine ⟨?_, ?_, ?_, ?_⟩)

theorem Lane.onTest_inv {l : LaneId} (g : TestSt → TestSt) {L : Lane} (hL : L.Inv l) : (Lane.onTest g L).Inv l := by
  unfold Lane.onTest
  try dsimp only
  repeat' first | with_reducible assumption | (intro _ _ _) | (intro _ _) | with_reducible apply ite_inv | with_reducible apply Lane.unpowered_id_inv | with_reducible apply Lane.when_inv | with_reducible apply Lane.each_inv | with_reducible apply foldl_inv | with_reducible apply Lane.Inv.id | with_reducible apply Lane.Inv.regs | with_reducible apply Lane.Inv.sram | with_reducible apply Lane.Inv.store | with_reducible apply Tab.wf_filter | with_reducible apply Tab.wf_foldl_put | with_reducible apply Tab.wf_put | with_reducible apply Tab.wf_graft | with_reducible apply Lane.unpowered_inv | with_reducible apply foldl_pair_inv | split | (simp only [Lane.mk_inv]; refine ⟨?_, ?_, ?_, ?_⟩)

theorem Lane.onVote_inv {l : LaneId} (g : Vote → Vote) {L : Lane} (hL : L.Inv l) : (Lane.onVote g L).Inv l := by
  unfold Lane.onVote
  try dsimp only
  repeat' first | with_reducible assumption | (intro _ _ _) | (intro _ _) | with_reducible apply ite_inv | with_reducible apply Lane.unpowered_id_inv | with_reducible apply Lane.when_inv | with_reducible apply Lane.each_inv | with_reducible apply foldl_inv | with_reducible apply Lane.Inv.id | with_reducible apply Lane.Inv.regs | with_reducible apply Lane.Inv.sram | with_reducible apply Lane.Inv.store | with_reducible apply Tab.wf_filter | with_reducible apply Tab.wf_foldl_put | with_reducible apply Tab.wf_put | with_reducible apply Tab.wf_graft | with_reducible apply Lane.unpowered_inv | with_reducible apply foldl_pair_inv | split | (simp only [Lane.mk_inv]; refine ⟨?_, ?_, ?_, ?_⟩)

theorem Lane.onIso_inv {l : LaneId} (g : IsobusSt → IsobusSt) {L : Lane} (hL : L.Inv l) : (Lane.onIso g L).Inv l := by
  unfold Lane.onIso
  try dsimp only
  repeat' first | with_reducible assumption | (intro _ _ _) | (intro _ _) | with_reducible apply ite_inv | with_reducible apply Lane.unpowered_id_inv | with_reducible apply Lane.when_inv | with_reducible apply Lane.each_inv | with_reducible apply foldl_inv | with_reducible apply Lane.Inv.id | with_reducible apply Lane.Inv.regs | with_reducible apply Lane.Inv.sram | with_reducible apply Lane.Inv.store | with_reducible apply Tab.wf_filter | with_reducible apply Tab.wf_foldl_put | with_reducible apply Tab.wf_put | with_reducible apply Tab.wf_graft | with_reducible apply Lane.unpowered_inv | with_reducible apply foldl_pair_inv | split | (simp only [Lane.mk_inv]; refine ⟨?_, ?_, ?_, ?_⟩)

theorem Lane.onDbg_inv {l : LaneId} (g : DebugSt → DebugSt) {L : Lane} (hL : L.Inv l) : (Lane.onDbg g L).Inv l := by
  unfold Lane.onDbg
  try dsimp only
  repeat' first | with_reducible assumption | (intro _ _ _) | (intro _ _) | with_reducible apply ite_inv | with_reducible apply Lane.unpowered_id_inv | with_reducible apply Lane.when_inv | with_reducible apply Lane.each_inv | with_reducible apply foldl_inv | with_reducible apply Lane.Inv.id | with_reducible apply Lane.Inv.regs | with_reducible apply Lane.Inv.sram | with_reducible apply Lane.Inv.store | with_reducible apply Tab.wf_filter | with_reducible apply Tab.wf_foldl_put | with_reducible apply Tab.wf_put | with_reducible apply Tab.wf_graft | with_reducible apply Lane.unpowered_inv | with_reducible apply foldl_pair_inv | split | (simp only [Lane.mk_inv]; refine ⟨?_, ?_, ?_, ?_⟩)

end Sys2Proof.Machine
end

