-- ==== Sys2Proof/Laws/InvWave.lean ====
section
/-! SUPPORT. The operations of Machine/Wave.lean keep the invariant of a lane. -/

namespace Sys2Proof.Machine

theorem Lane.gateFollow_inv {l : LaneId} (b : Fin 18) {L : Lane} (hL : L.Inv l) : (Lane.gateFollow b L).Inv l := by
  unfold Lane.gateFollow
  try dsimp only
  repeat' first | with_reducible assumption | (intro _ _ _) | (intro _ _) | with_reducible apply Lane.onGate_inv | with_reducible apply ite_inv

theorem Lane.gateFollowAll_inv {l : LaneId}  {L : Lane} (hL : L.Inv l) : (Lane.gateFollowAll  L).Inv l := by
  unfold Lane.gateFollowAll
  try dsimp only
  repeat' first | with_reducible assumption | (intro _ _ _) | (intro _ _) | with_reducible apply Lane.gateFollow_inv | with_reducible apply ite_inv | with_reducible apply Lane.unpowered_id_inv | with_reducible apply Lane.when_inv | with_reducible apply Lane.each_inv

end Sys2Proof.Machine
end

