-- ==== Sys2Proof/Laws/InvQueues.lean ====
section
/-! SUPPORT. The operations of Machine/Queues.lean keep the invariant of a lane. -/

namespace Sys2Proof.Machine

theorem Lane.broadcast_inv {l : LaneId} (pgn : Nat) (bytes : List Byte) {L : Lane} (hL : L.Inv l) : (Lane.broadcast pgn bytes L).Inv l := by
  unfold Lane.broadcast
  try dsimp only
  repeat' first | with_reducible assumption | (intro _ _ _) | (intro _ _) | with_reducible apply Lane.send_inv | with_reducible apply ite_inv | with_reducible apply Lane.unpowered_id_inv | with_reducible apply Lane.when_inv | with_reducible apply Lane.each_inv

theorem Lane.tpRequest_inv {l : LaneId}  {L : Lane} (hL : L.Inv l) : (Lane.tpRequest  L).Inv l := by
  unfold Lane.tpRequest
  try dsimp only
  repeat' first | with_reducible assumption | (intro _ _ _) | (intro _ _) | with_reducible apply Lane.send_inv | with_reducible apply ite_inv | with_reducible apply Lane.unpowered_id_inv | with_reducible apply Lane.when_inv | with_reducible apply Lane.each_inv | with_reducible apply foldl_inv | with_reducible apply Lane.Inv.id | with_reducible apply Lane.Inv.regs | with_reducible apply Lane.Inv.sram | with_reducible apply Lane.Inv.store | with_reducible apply Tab.wf_filter | with_reducible apply Tab.wf_foldl | with_reducible apply Tab.wf_put | with_reducible apply Tab.wf_putList | with_reducible apply Tab.wf_graft | with_reducible apply Lane.unpowered_inv | split

theorem Lane.tpSend_inv {l : LaneId} (dst : Nat) (bytes : List Byte) {L : Lane} (hL : L.Inv l) : (Lane.tpSend dst bytes L).Inv l := by
  unfold Lane.tpSend
  try dsimp only
  repeat' first | with_reducible assumption | (intro _ _ _) | (intro _ _) | with_reducible apply Lane.tpRequest_inv | with_reducible apply Lane.onIso_inv | with_reducible apply ite_inv | with_reducible apply Lane.unpowered_id_inv | with_reducible apply Lane.when_inv

theorem Lane.tpNext_inv {l : LaneId}  {L : Lane} (hL : L.Inv l) : (Lane.tpNext  L).Inv l := by
  unfold Lane.tpNext
  try dsimp only
  repeat' first | with_reducible assumption | (intro _ _ _) | (intro _ _) | with_reducible apply Lane.tpRequest_inv | with_reducible apply Lane.onIso_inv

theorem Lane.isoClaim_inv {l : LaneId} (addr : Nat) {L : Lane} (hL : L.Inv l) : (Lane.isoClaim addr L).Inv l := by
  unfold Lane.isoClaim
  try dsimp only
  repeat' first | with_reducible assumption | (intro _ _ _) | (intro _ _) | with_reducible apply Lane.onIso_inv | with_reducible apply Lane.send_inv | with_reducible apply Lane.set1_inv | with_reducible apply Lane.wr_inv

theorem Lane.isoStart_inv {l : LaneId}  {L : Lane} (hL : L.Inv l) : (Lane.isoStart  L).Inv l := by
  unfold Lane.isoStart
  try dsimp only
  repeat' first | with_reducible assumption | (intro _ _ _) | (intro _ _) | with_reducible apply Lane.isoClaim_inv

theorem Lane.sendFrame_inv {l : LaneId} (h : Fin 4) (d : Descr) {L : Lane} (hL : L.Inv l) : (Lane.sendFrame h d L).Inv l := by
  unfold Lane.sendFrame
  try dsimp only
  repeat' first | with_reducible assumption | (intro _ _ _) | (intro _ _) | with_reducible apply Lane.onHost_inv | with_reducible apply Lane.send_inv

theorem Lane.pushTail_inv {l : LaneId} (q : Fin 16) {L : Lane} (hL : L.Inv l) : (Lane.pushTail q L).Inv l := by
  unfold Lane.pushTail
  try dsimp only
  repeat' first | with_reducible assumption | (intro _ _ _) | (intro _ _) | with_reducible apply Lane.sendFrame_inv | with_reducible apply Lane.tpSend_inv | with_reducible apply Lane.onQueue_inv | with_reducible apply Lane.sramWrite_inv | with_reducible apply Lane.countMod_inv | with_reducible apply Lane.set1_inv | with_reducible apply Lane.wr_inv | with_reducible apply ite_inv

theorem Lane.queueSent_inv {l : LaneId} (q : Fin 16) {L : Lane} (hL : L.Inv l) : (Lane.queueSent q L).Inv l := by
  unfold Lane.queueSent
  try dsimp only
  repeat' first | with_reducible assumption | (intro _ _ _) | (intro _ _) | with_reducible apply Lane.onQueue_inv | with_reducible apply Lane.wr_inv | with_reducible apply ite_inv | with_reducible apply Lane.unpowered_id_inv | with_reducible apply Lane.when_inv | with_reducible apply Lane.each_inv | with_reducible apply foldl_inv | with_reducible apply Lane.Inv.id | with_reducible apply Lane.Inv.regs | with_reducible apply Lane.Inv.sram | with_reducible apply Lane.Inv.store | with_reducible apply Tab.wf_filter | with_reducible apply Tab.wf_foldl | with_reducible apply Tab.wf_put | with_reducible apply Tab.wf_putList | with_reducible apply Tab.wf_graft | with_reducible apply Lane.unpowered_inv | split

theorem Lane.noCredit_inv {l : LaneId} (q : Fin 16) {L : Lane} (hL : L.Inv l) : (Lane.noCredit q L).Inv l := by
  unfold Lane.noCredit
  try dsimp only
  repeat' first | with_reducible assumption | (intro _ _ _) | (intro _ _) | with_reducible apply Lane.count_inv | with_reducible apply Lane.set1_inv

theorem Lane.putDescr_inv {l : LaneId} (q : Fin 16) (i : Nat) (d : Descr) {L : Lane} (hL : L.Inv l) : (Lane.putDescr q i d L).Inv l := by
  unfold Lane.putDescr
  try dsimp only
  repeat' first | with_reducible assumption | (intro _ _ _) | (intro _ _) | with_reducible apply Lane.onQueue_inv | with_reducible apply Lane.sramWrite_inv | with_reducible apply Lane.irq_inv | with_reducible apply Lane.countMod_inv | with_reducible apply Lane.wr_inv | with_reducible apply ite_inv | with_reducible apply Lane.unpowered_id_inv | with_reducible apply Lane.when_inv

theorem Lane.placeDescr_inv {l : LaneId} (q : Fin 16) (d : Descr) {L : Lane} (hL : L.Inv l) : (Lane.placeDescr q d L).Inv l := by
  unfold Lane.placeDescr
  try dsimp only
  repeat' first | with_reducible assumption | (intro _ _ _) | (intro _ _) | with_reducible apply Lane.putDescr_inv | with_reducible apply Lane.noCredit_inv | with_reducible apply Lane.onQueue_inv | with_reducible apply Lane.count_inv | with_reducible apply Lane.set1_inv | with_reducible apply ite_inv | with_reducible apply Lane.unpowered_id_inv | with_reducible apply Lane.when_inv

theorem Lane.placeNext_inv {l : LaneId} (q : Fin 16) (d : Descr) {L : Lane} (hL : L.Inv l) : (Lane.placeNext q d L).Inv l := by
  unfold Lane.placeNext
  try dsimp only
  repeat' first | with_reducible assumption | (intro _ _ _) | (intro _ _) | with_reducible apply Lane.putDescr_inv | with_reducible apply Lane.noCredit_inv | with_reducible apply ite_inv

theorem Lane.pushDescr_inv {l : LaneId} (q : Fin 16) (d : Descr) {L : Lane} (hL : L.Inv l) : (Lane.pushDescr q d L).Inv l := by
  unfold Lane.pushDescr
  try dsimp only
  repeat' first | with_reducible assumption | (intro _ _ _) | (intro _ _) | with_reducible apply Lane.pushTail_inv | with_reducible apply Lane.sramWrite_inv | with_reducible apply ite_inv

theorem Lane.respond_inv {l : LaneId} (k : HostCmd) (op status : Nat) (args : List Byte) {L : Lane} (hL : L.Inv l) : (Lane.respond k op status args L).Inv l := by
  unfold Lane.respond
  try dsimp only
  repeat' first | with_reducible assumption | (intro _ _ _) | (intro _ _) | with_reducible apply Lane.pushDescr_inv | with_reducible apply Lane.send_inv | with_reducible apply ite_inv | with_reducible apply Lane.unpowered_id_inv | with_reducible apply Lane.when_inv | with_reducible apply Lane.each_inv | with_reducible apply foldl_inv | with_reducible apply Lane.Inv.id | with_reducible apply Lane.Inv.regs | with_reducible apply Lane.Inv.sram | with_reducible apply Lane.Inv.store | with_reducible apply Tab.wf_filter | with_reducible apply Tab.wf_foldl | with_reducible apply Tab.wf_put | with_reducible apply Tab.wf_putList | with_reducible apply Tab.wf_graft | with_reducible apply Lane.unpowered_inv | split

theorem Lane.notice_inv {l : LaneId} (h : Fin 4) (op : Nat) (args : List Byte) {L : Lane} (hL : L.Inv l) : (Lane.notice h op args L).Inv l := by
  unfold Lane.notice
  try dsimp only
  repeat' first | with_reducible assumption | (intro _ _ _) | (intro _ _) | with_reducible apply Lane.pushDescr_inv | with_reducible apply ite_inv | with_reducible apply Lane.unpowered_id_inv | with_reducible apply Lane.when_inv | with_reducible apply Lane.each_inv | with_reducible apply foldl_inv | with_reducible apply Lane.Inv.id | with_reducible apply Lane.Inv.regs | with_reducible apply Lane.Inv.sram | with_reducible apply Lane.Inv.store | with_reducible apply Tab.wf_filter | with_reducible apply Tab.wf_foldl | with_reducible apply Tab.wf_put | with_reducible apply Tab.wf_putList | with_reducible apply Tab.wf_graft | with_reducible apply Lane.unpowered_inv | split

theorem Lane.faultNotice_inv {l : LaneId} (n : Nat) {L : Lane} (hL : L.Inv l) : (Lane.faultNotice n L).Inv l := by
  unfold Lane.faultNotice
  try dsimp only
  repeat' first | with_reducible assumption | (intro _ _ _) | (intro _ _) | with_reducible apply Lane.notice_inv | with_reducible apply ite_inv | with_reducible apply Lane.unpowered_id_inv | with_reducible apply Lane.when_inv | with_reducible apply Lane.each_inv

end Sys2Proof.Machine
end

