-- ==== Sys2Proof/Laws/InvReact.lean ====
section
/-! SUPPORT. The operations of Machine/React.lean keep the invariant of a lane. -/

namespace Sys2Proof.Machine

theorem Lane.sliceAbort_inv {l : LaneId}  {L : Lane} (hL : L.Inv l) : (Lane.sliceAbort  L).Inv l := by
  unfold Lane.sliceAbort
  try dsimp only
  repeat' first | with_reducible assumption | (intro _ _ _) | (intro _ _) | with_reducible apply Lane.run_inv | with_reducible apply Lane.onCore_inv | with_reducible apply Lane.onDe_inv | with_reducible apply Lane.count_inv | with_reducible apply Lane.clr_inv | with_reducible apply ite_inv | with_reducible apply Lane.unpowered_id_inv | with_reducible apply Lane.when_inv | with_reducible apply Lane.each_inv | with_reducible apply foldl_inv | with_reducible apply Lane.Inv.id | with_reducible apply Lane.Inv.regs | with_reducible apply Lane.Inv.sram | with_reducible apply Lane.Inv.store | with_reducible apply Tab.wf_filter | with_reducible apply Tab.wf_foldl_put | with_reducible apply Tab.wf_put | with_reducible apply Tab.wf_graft | with_reducible apply Lane.unpowered_inv | with_reducible apply foldl_pair_inv | split

theorem Lane.pdCount_inv {l : LaneId} (d : Fin 8) (who how : Nat) {L : Lane} (hL : L.Inv l) : (Lane.pdCount d who how L).Inv l := by
  unfold Lane.pdCount
  try dsimp only
  repeat' first | with_reducible assumption | (intro _ _ _) | (intro _ _) | with_reducible apply Lane.count_inv | with_reducible apply Lane.wr_inv

theorem Lane.pdClear_inv {l : LaneId}  {L : Lane} (hL : L.Inv l) : (Lane.pdClear  L).Inv l := by
  unfold Lane.pdClear
  try dsimp only
  repeat' first | with_reducible assumption | (intro _ _ _) | (intro _ _) | with_reducible apply Lane.clr_inv | with_reducible apply ite_inv | with_reducible apply Lane.unpowered_id_inv | with_reducible apply Lane.when_inv | with_reducible apply Lane.each_inv

theorem Lane.pdWake_inv {l : LaneId} (d : Fin 8) (who : Nat) {L : Lane} (hL : L.Inv l) : (Lane.pdWake d who L).Inv l := by
  unfold Lane.pdWake
  try dsimp only
  repeat' first | with_reducible assumption | (intro _ _ _) | (intro _ _) | with_reducible apply Lane.pdCount_inv | with_reducible apply Lane.onDom_inv | with_reducible apply Lane.wr_inv | with_reducible apply ite_inv | with_reducible apply Lane.unpowered_id_inv | with_reducible apply Lane.when_inv

theorem Lane.chopApply_inv {l : LaneId}  {L : Lane} (hL : L.Inv l) : (Lane.chopApply  L).Inv l := by
  unfold Lane.chopApply
  try dsimp only
  repeat' first | with_reducible assumption | (intro _ _ _) | (intro _ _) | with_reducible apply Lane.wr_inv

theorem Lane.setSvc_inv {l : LaneId} (v : Nat) {L : Lane} (hL : L.Inv l) : (Lane.setSvc v L).Inv l := by
  unfold Lane.setSvc
  try dsimp only
  repeat' first | with_reducible assumption | (intro _ _ _) | (intro _ _) | with_reducible apply Lane.chopApply_inv | with_reducible apply Lane.pdWake_inv | with_reducible apply Lane.pdClear_inv | with_reducible apply Lane.sliceAbort_inv | with_reducible apply Lane.wr_inv | with_reducible apply ite_inv | with_reducible apply Lane.unpowered_id_inv | with_reducible apply Lane.when_inv | with_reducible apply Lane.each_inv

theorem Lane.commitStart_inv {l : LaneId} (auto : Bool) {L : Lane} (hL : L.Inv l) : (Lane.commitStart auto L).Inv l := by
  unfold Lane.commitStart
  try dsimp only
  repeat' first | with_reducible assumption | (intro _ _ _) | (intro _ _) | with_reducible apply Lane.pdWake_inv | with_reducible apply Lane.onRet_inv | with_reducible apply Lane.wearLines_inv | with_reducible apply Lane.set1_inv

theorem Lane.autoCommit_inv {l : LaneId}  {L : Lane} (hL : L.Inv l) : (Lane.autoCommit  L).Inv l := by
  unfold Lane.autoCommit
  try dsimp only
  repeat' first | with_reducible assumption | (intro _ _ _) | (intro _ _) | with_reducible apply Lane.commitStart_inv | with_reducible apply Lane.onRet_inv | with_reducible apply ite_inv

theorem Lane.withdraw_inv {l : LaneId} (f : Func) {L : Lane} (hL : L.Inv l) : (Lane.withdraw f L).Inv l := by
  unfold Lane.withdraw
  try dsimp only
  repeat' first | with_reducible assumption | (intro _ _ _) | (intro _ _) | with_reducible apply Lane.onVote_inv

theorem Lane.withdrawServed_inv {l : LaneId} (f : Func) {L : Lane} (hL : L.Inv l) : (Lane.withdrawServed f L).Inv l := by
  unfold Lane.withdrawServed
  try dsimp only
  repeat' first | with_reducible assumption | (intro _ _ _) | (intro _ _) | with_reducible apply Lane.withdraw_inv | with_reducible apply ite_inv | with_reducible apply Lane.unpowered_id_inv | with_reducible apply Lane.when_inv

theorem Lane.withdrawAll_inv {l : LaneId}  {L : Lane} (hL : L.Inv l) : (Lane.withdrawAll  L).Inv l := by
  unfold Lane.withdrawAll
  try dsimp only
  repeat' first | with_reducible assumption | (intro _ _ _) | (intro _ _) | with_reducible apply Lane.withdraw_inv | with_reducible apply ite_inv | with_reducible apply Lane.unpowered_id_inv | with_reducible apply Lane.when_inv | with_reducible apply Lane.each_inv

theorem Lane.barAll_inv {l : LaneId}  {L : Lane} (hL : L.Inv l) : (Lane.barAll  L).Inv l := by
  unfold Lane.barAll
  try dsimp only
  repeat' first | with_reducible assumption | (intro _ _ _) | (intro _ _) | with_reducible apply Lane.set1_inv | with_reducible apply ite_inv | with_reducible apply Lane.unpowered_id_inv | with_reducible apply Lane.when_inv | with_reducible apply Lane.each_inv

theorem Lane.withdrawActive_inv {l : LaneId}  {L : Lane} (hL : L.Inv l) : (Lane.withdrawActive  L).Inv l := by
  unfold Lane.withdrawActive
  try dsimp only
  repeat' first | with_reducible assumption | (intro _ _ _) | (intro _ _) | with_reducible apply Lane.withdraw_inv | with_reducible apply ite_inv | with_reducible apply Lane.unpowered_id_inv | with_reducible apply Lane.when_inv | with_reducible apply Lane.each_inv

theorem Lane.tokenBar_inv {l : LaneId}  {L : Lane} (hL : L.Inv l) : (Lane.tokenBar  L).Inv l := by
  unfold Lane.tokenBar
  try dsimp only
  repeat' first | with_reducible assumption | (intro _ _ _) | (intro _ _) | with_reducible apply Lane.withdrawActive_inv | with_reducible apply Lane.barAll_inv | with_reducible apply Lane.set1_inv

theorem Lane.securityClear_inv {l : LaneId}  {L : Lane} (hL : L.Inv l) : (Lane.securityClear  L).Inv l := by
  unfold Lane.securityClear
  try dsimp only
  repeat' first | with_reducible assumption | (intro _ _ _) | (intro _ _) | with_reducible apply ite_inv | with_reducible apply Lane.unpowered_id_inv | with_reducible apply Lane.when_inv | with_reducible apply Lane.each_inv | with_reducible apply foldl_inv | with_reducible apply Lane.Inv.id | with_reducible apply Lane.Inv.regs | with_reducible apply Lane.Inv.sram | with_reducible apply Lane.Inv.store | with_reducible apply Tab.wf_filter | with_reducible apply Tab.wf_foldl_put | with_reducible apply Tab.wf_put | with_reducible apply Tab.wf_graft | with_reducible apply Lane.unpowered_inv | with_reducible apply foldl_pair_inv | split | (simp only [Lane.mk_inv]; refine ⟨?_, ?_, ?_, ?_⟩)

theorem Lane.withdrawPorts_inv {l : LaneId}  {L : Lane} (hL : L.Inv l) : (Lane.withdrawPorts  L).Inv l := by
  unfold Lane.withdrawPorts
  try dsimp only
  repeat' first | with_reducible assumption | (intro _ _ _) | (intro _ _) | with_reducible apply Lane.withdraw_inv | with_reducible apply ite_inv | with_reducible apply Lane.unpowered_id_inv | with_reducible apply Lane.when_inv | with_reducible apply Lane.each_inv

theorem Lane.accuse_inv {l : LaneId} (f : Func) (s : Side) {L : Lane} (hL : L.Inv l) : (Lane.accuse f s L).Inv l := by
  unfold Lane.accuse
  try dsimp only
  repeat' first | with_reducible assumption | (intro _ _ _) | (intro _ _) | with_reducible apply Lane.onVote_inv

theorem Lane.svApply_inv {l : LaneId} (n : Fin 4) {L : Lane} (hL : L.Inv l) : (Lane.svApply n L).Inv l := by
  unfold Lane.svApply
  try dsimp only
  repeat' first | with_reducible assumption | (intro _ _ _) | (intro _ _) | with_reducible apply Lane.setpoint_inv | with_reducible apply Lane.onSv_inv

theorem Lane.parkWatch_inv {l : LaneId}  {L : Lane} (hL : L.Inv l) : (Lane.parkWatch  L).Inv l := by
  unfold Lane.parkWatch
  try dsimp only
  repeat' first | with_reducible assumption | (intro _ _ _) | (intro _ _) | with_reducible apply Lane.stop_inv | with_reducible apply Lane.clr_inv | with_reducible apply ite_inv | with_reducible apply Lane.unpowered_id_inv | with_reducible apply Lane.when_inv

theorem Lane.svApplyAll_inv {l : LaneId}  {L : Lane} (hL : L.Inv l) : (Lane.svApplyAll  L).Inv l := by
  unfold Lane.svApplyAll
  try dsimp only
  repeat' first | with_reducible assumption | (intro _ _ _) | (intro _ _) | with_reducible apply Lane.parkWatch_inv | with_reducible apply Lane.svApply_inv | with_reducible apply ite_inv | with_reducible apply Lane.unpowered_id_inv | with_reducible apply Lane.when_inv | with_reducible apply Lane.each_inv

theorem Lane.svForce_inv {l : LaneId} (n : Fin 4) {L : Lane} (hL : L.Inv l) : (Lane.svForce n L).Inv l := by
  unfold Lane.svForce
  try dsimp only
  repeat' first | with_reducible assumption | (intro _ _ _) | (intro _ _) | with_reducible apply Lane.forced_inv | with_reducible apply Lane.parkWatch_inv | with_reducible apply Lane.svApply_inv | with_reducible apply Lane.onSv_inv | with_reducible apply Lane.set1_inv

theorem Lane.stage1_inv {l : LaneId} (b : Fin 18) {L : Lane} (hL : L.Inv l) : (Lane.stage1 b L).Inv l := by
  unfold Lane.stage1
  try dsimp only
  repeat' first | with_reducible assumption | (intro _ _ _) | (intro _ _) | with_reducible apply Lane.onGate_inv

theorem Lane.holdOff_inv {l : LaneId} (b : Fin 18) {L : Lane} (hL : L.Inv l) : (Lane.holdOff b L).Inv l := by
  unfold Lane.holdOff
  try dsimp only
  repeat' first | with_reducible assumption | (intro _ _ _) | (intro _ _) | with_reducible apply Lane.onGate_inv

theorem Lane.switchFree_inv {l : LaneId} (b : Fin 18) {L : Lane} (hL : L.Inv l) : (Lane.switchFree b L).Inv l := by
  unfold Lane.switchFree
  try dsimp only
  repeat' first | with_reducible assumption | (intro _ _ _) | (intro _ _) | with_reducible apply Lane.onGate_inv

theorem Lane.ungrant_inv {l : LaneId} (p : Port) {L : Lane} (hL : L.Inv l) : (Lane.ungrant p L).Inv l := by
  unfold Lane.ungrant
  try dsimp only
  repeat' first | with_reducible assumption | (intro _ _ _) | (intro _ _) | with_reducible apply Lane.withdraw_inv | with_reducible apply Lane.onGate_inv | with_reducible apply Lane.wrBit_inv | with_reducible apply ite_inv | with_reducible apply Lane.unpowered_id_inv | with_reducible apply Lane.when_inv | with_reducible apply Lane.each_inv

theorem Lane.portOffSwitches_inv {l : LaneId} (p : Port) {L : Lane} (hL : L.Inv l) : (Lane.portOffSwitches p L).Inv l := by
  unfold Lane.portOffSwitches
  try dsimp only
  repeat' first | with_reducible assumption | (intro _ _ _) | (intro _ _) | with_reducible apply Lane.ungrant_inv | with_reducible apply Lane.stage1_inv | with_reducible apply Lane.gateFollowAll_inv | with_reducible apply Lane.onGate_inv | with_reducible apply Lane.restart_inv | with_reducible apply ite_inv | with_reducible apply Lane.unpowered_id_inv | with_reducible apply Lane.when_inv | with_reducible apply Lane.each_inv

theorem Lane.portTurnOff_inv {l : LaneId} (p : Port) {L : Lane} (hL : L.Inv l) : (Lane.portTurnOff p L).Inv l := by
  unfold Lane.portTurnOff
  try dsimp only
  repeat' first | with_reducible assumption | (intro _ _ _) | (intro _ _) | with_reducible apply Lane.portOffSwitches_inv | with_reducible apply Lane.withdraw_inv | with_reducible apply Lane.restart_inv | with_reducible apply ite_inv | with_reducible apply Lane.unpowered_id_inv | with_reducible apply Lane.when_inv | with_reducible apply Lane.each_inv

theorem Lane.laneTurnOff_inv {l : LaneId}  {L : Lane} (hL : L.Inv l) : (Lane.laneTurnOff  L).Inv l := by
  unfold Lane.laneTurnOff
  try dsimp only
  repeat' first | with_reducible assumption | (intro _ _ _) | (intro _ _) | with_reducible apply Lane.portOffSwitches_inv | with_reducible apply Lane.withdrawPorts_inv | with_reducible apply Lane.restart_inv | with_reducible apply Lane.set1_inv | with_reducible apply ite_inv | with_reducible apply Lane.unpowered_id_inv | with_reducible apply Lane.when_inv | with_reducible apply Lane.each_inv

theorem Lane.ascEnter_inv {l : LaneId} (fireBlk : Nat → Lane → Lane) (p : Port) (hfireBlk : ∀ (x : Nat) (M : Lane), M.Inv l → (fireBlk x M).Inv l) {L : Lane} (hL : L.Inv l) : (Lane.ascEnter fireBlk p L).Inv l := by
  unfold Lane.ascEnter
  try dsimp only
  repeat' first | with_reducible assumption | (intro _ _ _) | (intro _ _) | with_reducible apply hfireBlk | with_reducible apply Lane.ungrant_inv | with_reducible apply Lane.holdOff_inv | with_reducible apply Lane.stage1_inv | with_reducible apply Lane.gateFollowAll_inv | with_reducible apply Lane.onGate_inv | with_reducible apply Lane.restart_inv | with_reducible apply Lane.wrBit_inv | with_reducible apply Lane.set1_inv | with_reducible apply ite_inv | with_reducible apply Lane.unpowered_id_inv | with_reducible apply Lane.when_inv | with_reducible apply Lane.each_inv | with_reducible apply foldl_inv | with_reducible apply Lane.Inv.id | with_reducible apply Lane.Inv.regs | with_reducible apply Lane.Inv.sram | with_reducible apply Lane.Inv.store | with_reducible apply Tab.wf_filter | with_reducible apply Tab.wf_foldl_put | with_reducible apply Tab.wf_put | with_reducible apply Tab.wf_graft | with_reducible apply Lane.unpowered_inv | with_reducible apply foldl_pair_inv | split

theorem Lane.watchContactors_inv {l : LaneId}  {L : Lane} (hL : L.Inv l) : (Lane.watchContactors  L).Inv l := by
  unfold Lane.watchContactors
  try dsimp only
  repeat' first | with_reducible assumption | (intro _ _ _) | (intro _ _) | with_reducible apply Lane.start1_inv | with_reducible apply Lane.stop_inv | with_reducible apply ite_inv

theorem Lane.driveKm_inv {l : LaneId} (close : Bool) {L : Lane} (hL : L.Inv l) : (Lane.driveKm close L).Inv l := by
  unfold Lane.driveKm
  try dsimp only
  repeat' first | with_reducible assumption | (intro _ _ _) | (intro _ _) | with_reducible apply Lane.watchContactors_inv | with_reducible apply Lane.stop_inv | with_reducible apply Lane.count_inv | with_reducible apply Lane.wr_inv | with_reducible apply ite_inv | with_reducible apply Lane.unpowered_id_inv | with_reducible apply Lane.when_inv

theorem Lane.driveKp_inv {l : LaneId} (close : Bool) {L : Lane} (hL : L.Inv l) : (Lane.driveKp close L).Inv l := by
  unfold Lane.driveKp
  try dsimp only
  repeat' first | with_reducible assumption | (intro _ _ _) | (intro _ _) | with_reducible apply Lane.watchContactors_inv | with_reducible apply Lane.stop_inv | with_reducible apply Lane.count_inv | with_reducible apply Lane.wr_inv | with_reducible apply ite_inv | with_reducible apply Lane.unpowered_id_inv | with_reducible apply Lane.when_inv

theorem Lane.winterState_inv {l : LaneId}  {L : Lane} (hL : L.Inv l) : (Lane.winterState  L).Inv l := by
  unfold Lane.winterState
  try dsimp only
  repeat' first | with_reducible assumption | (intro _ _ _) | (intro _ _) | with_reducible apply Lane.withdrawAll_inv | with_reducible apply Lane.autoCommit_inv | with_reducible apply Lane.setSvc_inv | with_reducible apply Lane.wr_inv | with_reducible apply ite_inv

theorem Lane.forceOutputs_inv {l : LaneId} (fireBlk : Nat → Lane → Lane) (hfireBlk : ∀ (x : Nat) (M : Lane), M.Inv l → (fireBlk x M).Inv l) {L : Lane} (hL : L.Inv l) : (Lane.forceOutputs fireBlk L).Inv l := by
  unfold Lane.forceOutputs
  try dsimp only
  repeat' first | with_reducible assumption | (intro _ _ _) | (intro _ _) | with_reducible apply hfireBlk | with_reducible apply Lane.ascEnter_inv | with_reducible apply Lane.portOffSwitches_inv | with_reducible apply Lane.svForce_inv | with_reducible apply Lane.svApplyAll_inv | with_reducible apply Lane.restart_inv | with_reducible apply ite_inv | with_reducible apply Lane.unpowered_id_inv | with_reducible apply Lane.when_inv | with_reducible apply Lane.each_inv

theorem Lane.szListen_inv {l : LaneId} (c : Fin 2) {L : Lane} (hL : L.Inv l) : (Lane.szListen c L).Inv l := by
  unfold Lane.szListen
  try dsimp only
  repeat' first | with_reducible assumption | (intro _ _ _) | (intro _ _) | with_reducible apply Lane.missed_inv | with_reducible apply Lane.onSlaz_inv | with_reducible apply Lane.restart_inv | with_reducible apply Lane.wr_inv

theorem Lane.slazStop_inv {l : LaneId}  {L : Lane} (hL : L.Inv l) : (Lane.slazStop  L).Inv l := by
  unfold Lane.slazStop
  try dsimp only
  repeat' first | with_reducible assumption | (intro _ _ _) | (intro _ _) | with_reducible apply Lane.szListen_inv | with_reducible apply Lane.wr_inv | with_reducible apply ite_inv | with_reducible apply Lane.unpowered_id_inv | with_reducible apply Lane.when_inv | with_reducible apply Lane.each_inv

theorem Lane.force_inv {l : LaneId} (fireBlk : Nat → Lane → Lane) (cause : Nat) (hfireBlk : ∀ (x : Nat) (M : Lane), M.Inv l → (fireBlk x M).Inv l) {L : Lane} (hL : L.Inv l) : (Lane.force fireBlk cause L).Inv l := by
  unfold Lane.force
  try dsimp only
  repeat' first | with_reducible assumption | (intro _ _ _) | (intro _ _) | with_reducible apply hfireBlk | with_reducible apply Lane.slazStop_inv | with_reducible apply Lane.forceOutputs_inv | with_reducible apply Lane.winterState_inv | with_reducible apply Lane.withdrawAll_inv | with_reducible apply Lane.clr_inv | with_reducible apply Lane.wr_inv | with_reducible apply ite_inv | with_reducible apply Lane.unpowered_id_inv | with_reducible apply Lane.when_inv

theorem Lane.setSticky_inv {l : LaneId} (n : Nat) {L : Lane} (hL : L.Inv l) : (Lane.setSticky n L).Inv l := by
  unfold Lane.setSticky
  try dsimp only
  repeat' first | with_reducible assumption | (intro _ _ _) | (intro _ _) | with_reducible apply Lane.wrBit_inv

theorem Lane.reactLight_inv {l : LaneId} (n : Nat) {L : Lane} (hL : L.Inv l) : (Lane.reactLight n L).Inv l := by
  unfold Lane.reactLight
  try dsimp only
  repeat' first | with_reducible assumption | (intro _ _ _) | (intro _ _) | with_reducible apply Lane.withdrawServed_inv | with_reducible apply Lane.faultNotice_inv | with_reducible apply Lane.irq_inv | with_reducible apply ite_inv | with_reducible apply Lane.unpowered_id_inv | with_reducible apply Lane.when_inv | with_reducible apply Lane.each_inv

theorem Lane.fireLight_inv {l : LaneId} (n : Nat) {L : Lane} (hL : L.Inv l) : (Lane.fireLight n L).Inv l := by
  unfold Lane.fireLight
  try dsimp only
  repeat' first | with_reducible assumption | (intro _ _ _) | (intro _ _) | with_reducible apply Lane.reactLight_inv | with_reducible apply Lane.setSticky_inv | with_reducible apply ite_inv

theorem Lane.reactWinter_inv {l : LaneId}  {L : Lane} (hL : L.Inv l) : (Lane.reactWinter  L).Inv l := by
  unfold Lane.reactWinter
  try dsimp only
  repeat' first | with_reducible assumption | (intro _ _ _) | (intro _ _) | with_reducible apply Lane.fireLight_inv | with_reducible apply Lane.force_inv | with_reducible apply ite_inv

theorem Lane.react_inv {l : LaneId} (n : Nat) {L : Lane} (hL : L.Inv l) : (Lane.react n L).Inv l := by
  unfold Lane.react
  try dsimp only
  repeat' first | with_reducible assumption | (intro _ _ _) | (intro _ _) | with_reducible apply Lane.reactWinter_inv | with_reducible apply Lane.reactLight_inv | with_reducible apply ite_inv | with_reducible apply Lane.unpowered_id_inv | with_reducible apply Lane.when_inv

theorem Lane.fire_inv {l : LaneId} (n : Nat) {L : Lane} (hL : L.Inv l) : (Lane.fire n L).Inv l := by
  unfold Lane.fire
  try dsimp only
  repeat' first | with_reducible assumption | (intro _ _ _) | (intro _ _) | with_reducible apply Lane.react_inv | with_reducible apply Lane.setSticky_inv | with_reducible apply ite_inv

theorem Lane.fireLevel_inv {l : LaneId} (n : Nat) {L : Lane} (hL : L.Inv l) : (Lane.fireLevel n L).Inv l := by
  unfold Lane.fireLevel
  try dsimp only
  repeat' first | with_reducible assumption | (intro _ _ _) | (intro _ _) | with_reducible apply Lane.fire_inv | with_reducible apply ite_inv | with_reducible apply Lane.unpowered_id_inv | with_reducible apply Lane.when_inv | with_reducible apply Lane.each_inv | with_reducible apply foldl_inv | with_reducible apply Lane.Inv.id | with_reducible apply Lane.Inv.regs | with_reducible apply Lane.Inv.sram | with_reducible apply Lane.Inv.store | with_reducible apply Tab.wf_filter | with_reducible apply Tab.wf_foldl_put | with_reducible apply Tab.wf_put | with_reducible apply Tab.wf_graft | with_reducible apply Lane.unpowered_inv | with_reducible apply foldl_pair_inv | split | (simp only [Lane.mk_inv]; refine ⟨?_, ?_, ?_, ?_⟩)

theorem Lane.endLevel_inv {l : LaneId} (n : Nat) {L : Lane} (hL : L.Inv l) : (Lane.endLevel n L).Inv l := by
  unfold Lane.endLevel
  try dsimp only
  repeat' first | with_reducible assumption | (intro _ _ _) | (intro _ _) | with_reducible apply ite_inv | with_reducible apply Lane.unpowered_id_inv | with_reducible apply Lane.when_inv | with_reducible apply Lane.each_inv | with_reducible apply foldl_inv | with_reducible apply Lane.Inv.id | with_reducible apply Lane.Inv.regs | with_reducible apply Lane.Inv.sram | with_reducible apply Lane.Inv.store | with_reducible apply Tab.wf_filter | with_reducible apply Tab.wf_foldl_put | with_reducible apply Tab.wf_put | with_reducible apply Tab.wf_graft | with_reducible apply Lane.unpowered_inv | with_reducible apply foldl_pair_inv | split | (simp only [Lane.mk_inv]; refine ⟨?_, ?_, ?_, ?_⟩)

theorem Lane.asc_inv {l : LaneId} (p : Port) {L : Lane} (hL : L.Inv l) : (Lane.asc p L).Inv l := by
  unfold Lane.asc
  try dsimp only
  repeat' first | with_reducible assumption | (intro _ _ _) | (intro _ _) | with_reducible apply Lane.fire_inv | with_reducible apply Lane.ascEnter_inv

theorem Lane.forced_inv {l : LaneId} (cause : Nat) {L : Lane} (hL : L.Inv l) : (Lane.forced cause L).Inv l := by
  unfold Lane.forced
  try dsimp only
  repeat' first | with_reducible assumption | (intro _ _ _) | (intro _ _) | with_reducible apply Lane.fire_inv | with_reducible apply Lane.force_inv

theorem Lane.enterWinter_inv {l : LaneId}  {L : Lane} (hL : L.Inv l) : (Lane.enterWinter  L).Inv l := by
  unfold Lane.enterWinter
  try dsimp only
  repeat' first | with_reducible assumption | (intro _ _ _) | (intro _ _) | with_reducible apply Lane.forced_inv

theorem Lane.settleSvc_inv {l : LaneId}  {L : Lane} (hL : L.Inv l) : (Lane.settleSvc  L).Inv l := by
  unfold Lane.settleSvc
  try dsimp only
  repeat' first | with_reducible assumption | (intro _ _ _) | (intro _ _) | with_reducible apply Lane.setSvc_inv | with_reducible apply ite_inv

theorem Lane.enterAutumn_inv {l : LaneId} (f : Func) (cause ms : Nat) {L : Lane} (hL : L.Inv l) : (Lane.enterAutumn f cause ms L).Inv l := by
  unfold Lane.enterAutumn
  try dsimp only
  repeat' first | with_reducible assumption | (intro _ _ _) | (intro _ _) | with_reducible apply Lane.autumn_inv | with_reducible apply Lane.settleSvc_inv | with_reducible apply Lane.autoCommit_inv | with_reducible apply Lane.onFn_inv | with_reducible apply Lane.start1_inv | with_reducible apply Lane.restart_inv | with_reducible apply Lane.setTimer_inv | with_reducible apply Lane.wr_inv | with_reducible apply ite_inv

theorem Lane.autumn_inv {l : LaneId} (f : Func) (cause : Nat) {L : Lane} (hL : L.Inv l) : (Lane.autumn f cause L).Inv l := by
  unfold Lane.autumn
  try dsimp only
  repeat' first | with_reducible assumption | (intro _ _ _) | (intro _ _) | with_reducible apply Lane.enterAutumn_inv

theorem Lane.disengageAll_inv {l : LaneId} (f : Func) {L : Lane} (hL : L.Inv l) : (Lane.disengageAll f L).Inv l := by
  unfold Lane.disengageAll
  try dsimp only
  repeat' first | with_reducible assumption | (intro _ _ _) | (intro _ _) | with_reducible apply Lane.wrBit_inv | with_reducible apply ite_inv | with_reducible apply Lane.unpowered_id_inv | with_reducible apply Lane.when_inv | with_reducible apply Lane.each_inv

theorem Lane.winterOne_inv {l : LaneId} (f : Func) (cause : Nat) {L : Lane} (hL : L.Inv l) : (Lane.winterOne f cause L).Inv l := by
  unfold Lane.winterOne
  try dsimp only
  repeat' first | with_reducible assumption | (intro _ _ _) | (intro _ _) | with_reducible apply Lane.standstill_inv | with_reducible apply Lane.winter_inv | with_reducible apply Lane.disengageAll_inv | with_reducible apply Lane.autumn_inv | with_reducible apply Lane.onRet_inv | with_reducible apply Lane.onFn_inv | with_reducible apply Lane.start1_inv | with_reducible apply Lane.restart_inv | with_reducible apply Lane.stop_inv | with_reducible apply Lane.wrBit_inv | with_reducible apply Lane.set1_inv | with_reducible apply Lane.wr_inv | with_reducible apply ite_inv | with_reducible apply Lane.unpowered_id_inv | with_reducible apply Lane.when_inv | with_reducible apply Lane.each_inv

theorem Lane.winterServed_inv {l : LaneId} (f : Func) (cause : Nat) {L : Lane} (hL : L.Inv l) : (Lane.winterServed f cause L).Inv l := by
  unfold Lane.winterServed
  try dsimp only
  repeat' first | with_reducible assumption | (intro _ _ _) | (intro _ _) | with_reducible apply Lane.winterOne_inv | with_reducible apply ite_inv | with_reducible apply Lane.unpowered_id_inv | with_reducible apply Lane.when_inv

theorem Lane.winterSpread_inv {l : LaneId} (f : Func) {L : Lane} (hL : L.Inv l) : (Lane.winterSpread f L).Inv l := by
  unfold Lane.winterSpread
  try dsimp only
  repeat' first | with_reducible assumption | (intro _ _ _) | (intro _ _) | with_reducible apply Lane.winterServed_inv | with_reducible apply Lane.settleSvc_inv | with_reducible apply ite_inv | with_reducible apply Lane.unpowered_id_inv | with_reducible apply Lane.when_inv

theorem Lane.winter_inv {l : LaneId} (f : Func) (cause : Nat) {L : Lane} (hL : L.Inv l) : (Lane.winter f cause L).Inv l := by
  unfold Lane.winter
  try dsimp only
  repeat' first | with_reducible assumption | (intro _ _ _) | (intro _ _) | with_reducible apply Lane.winterSpread_inv | with_reducible apply Lane.winterOne_inv | with_reducible apply ite_inv

theorem Lane.clearCause_inv {l : LaneId} (f : Func) (cause : Nat) {L : Lane} (hL : L.Inv l) : (Lane.clearCause f cause L).Inv l := by
  unfold Lane.clearCause
  try dsimp only
  repeat' first | with_reducible assumption | (intro _ _ _) | (intro _ _) | with_reducible apply Lane.autumn_inv | with_reducible apply Lane.settleSvc_inv | with_reducible apply Lane.onFn_inv | with_reducible apply Lane.stop_inv | with_reducible apply Lane.wr_inv | with_reducible apply ite_inv

end Sys2Proof.Machine
end

