-- ==== Sys2Proof/Laws/InvStartup.lean ====
section
/-! SUPPORT. The operations of Machine/Startup.lean keep the invariant of a lane. -/

namespace Sys2Proof.Machine

theorem Lane.slotWrite_inv {l : LaneId} (n : Fin 2) (seq : Nat) (p : Payload) {L : Lane} (hL : L.Inv l) : (Lane.slotWrite n seq p L).Inv l := by
  unfold Lane.slotWrite
  try dsimp only
  repeat' first | with_reducible assumption | (intro _ _ _) | (intro _ _) | with_reducible apply ite_inv | with_reducible apply Lane.unpowered_id_inv | with_reducible apply Lane.when_inv | with_reducible apply Lane.each_inv | with_reducible apply foldl_inv | with_reducible apply Lane.Inv.id | with_reducible apply Lane.Inv.regs | with_reducible apply Lane.Inv.sram | with_reducible apply Lane.Inv.store | with_reducible apply Tab.wf_filter | with_reducible apply Tab.wf_foldl | with_reducible apply Tab.wf_put | with_reducible apply Tab.wf_putList | with_reducible apply Tab.wf_graft | with_reducible apply Lane.unpowered_inv | split | (simp only [Lane.mk_inv]; refine ⟨?_, ?_, ?_, ?_⟩)

theorem Lane.journalWrite_inv {l : LaneId}  {L : Lane} (hL : L.Inv l) : (Lane.journalWrite  L).Inv l := by
  unfold Lane.journalWrite
  try dsimp only
  repeat' first | with_reducible assumption | (intro _ _ _) | (intro _ _) | with_reducible apply Lane.onUpd_inv

theorem Lane.journalRead_inv {l : LaneId}  {L : Lane} (hL : L.Inv l) : (Lane.journalRead  L).Inv l := by
  unfold Lane.journalRead
  try dsimp only
  repeat' first | with_reducible assumption | (intro _ _ _) | (intro _ _) | with_reducible apply Lane.checkpoint_inv | with_reducible apply Lane.journalWrite_inv | with_reducible apply Lane.onUpd_inv | with_reducible apply Lane.wr_inv | with_reducible apply ite_inv | with_reducible apply Lane.unpowered_id_inv | with_reducible apply Lane.when_inv | with_reducible apply Lane.each_inv | with_reducible apply foldl_inv | with_reducible apply Lane.Inv.id | with_reducible apply Lane.Inv.regs | with_reducible apply Lane.Inv.sram | with_reducible apply Lane.Inv.store | with_reducible apply Tab.wf_filter | with_reducible apply Tab.wf_foldl | with_reducible apply Tab.wf_put | with_reducible apply Tab.wf_putList | with_reducible apply Tab.wf_graft | with_reducible apply Lane.unpowered_inv | split

theorem Lane.guardAtStart_inv {l : LaneId}  {L : Lane} (hL : L.Inv l) : (Lane.guardAtStart  L).Inv l := by
  unfold Lane.guardAtStart
  try dsimp only
  repeat' first | with_reducible assumption | (intro _ _ _) | (intro _ _) | with_reducible apply Lane.driveKp_inv | with_reducible apply Lane.driveKm_inv | with_reducible apply Lane.wr_inv | with_reducible apply ite_inv

theorem Lane.startLane_inv {l : LaneId} (recoveryLow : Bool) {L : Lane} (hL : L.Inv l) : (Lane.startLane recoveryLow L).Inv l := by
  unfold Lane.startLane
  try dsimp only
  repeat' first | with_reducible assumption | (intro _ _ _) | (intro _ _) | with_reducible apply Lane.run_inv | with_reducible apply Lane.guardAtStart_inv | with_reducible apply Lane.journalRead_inv | with_reducible apply Lane.securityClear_inv | with_reducible apply Lane.gateFollowAll_inv | with_reducible apply Lane.restart_inv | with_reducible apply Lane.count_inv | with_reducible apply Lane.set1_inv | with_reducible apply Lane.wr_inv | with_reducible apply ite_inv | with_reducible apply Lane.unpowered_id_inv | with_reducible apply Lane.when_inv | with_reducible apply Lane.each_inv | with_reducible apply foldl_inv | with_reducible apply Lane.Inv.id | with_reducible apply Lane.Inv.regs | with_reducible apply Lane.Inv.sram | with_reducible apply Lane.Inv.store | with_reducible apply Tab.wf_filter | with_reducible apply Tab.wf_foldl | with_reducible apply Tab.wf_put | with_reducible apply Tab.wf_putList | with_reducible apply Tab.wf_graft | with_reducible apply Lane.unpowered_inv | split | (simp only [Lane.mk_inv]; refine ⟨?_, ?_, ?_, ?_⟩)

theorem Lane.revert_inv {l : LaneId}  {L : Lane} (hL : L.Inv l) : (Lane.revert  L).Inv l := by
  unfold Lane.revert
  try dsimp only
  repeat' first | with_reducible assumption | (intro _ _ _) | (intro _ _) | with_reducible apply Lane.startLane_inv | with_reducible apply Lane.journalWrite_inv | with_reducible apply Lane.onUpd_inv | with_reducible apply Lane.wr_inv

theorem Lane.startFails_inv {l : LaneId} (otherwise : Lane → Lane) (hotherwise : ∀ M : Lane, M.Inv l → (otherwise M).Inv l) {L : Lane} (hL : L.Inv l) : (Lane.startFails otherwise L).Inv l := by
  unfold Lane.startFails
  try dsimp only
  repeat' first | with_reducible assumption | (intro _ _ _) | (intro _ _) | with_reducible apply hotherwise | with_reducible apply Lane.revert_inv | with_reducible apply ite_inv

theorem Lane.enterRecovery_inv {l : LaneId} (cause : Nat) {L : Lane} (hL : L.Inv l) : (Lane.enterRecovery cause L).Inv l := by
  unfold Lane.enterRecovery
  try dsimp only
  repeat' first | with_reducible assumption | (intro _ _ _) | (intro _ _) | with_reducible apply Lane.run_inv | with_reducible apply Lane.setSvc_inv | with_reducible apply Lane.isoStart_inv | with_reducible apply Lane.onStart_inv | with_reducible apply Lane.wr_inv | with_reducible apply ite_inv | with_reducible apply Lane.unpowered_id_inv | with_reducible apply Lane.when_inv | with_reducible apply Lane.each_inv | with_reducible apply foldl_inv | with_reducible apply Lane.Inv.id | with_reducible apply Lane.Inv.regs | with_reducible apply Lane.Inv.sram | with_reducible apply Lane.Inv.store | with_reducible apply Tab.wf_filter | with_reducible apply Tab.wf_foldl | with_reducible apply Tab.wf_put | with_reducible apply Tab.wf_putList | with_reducible apply Tab.wf_graft | with_reducible apply Lane.unpowered_inv | split | (simp only [Lane.mk_inv]; refine ⟨?_, ?_, ?_, ?_⟩)

theorem Lane.loadFields_inv {l : LaneId} (xs : List (Fld × Nat)) {L : Lane} (hL : L.Inv l) : (Lane.loadFields xs L).Inv l := by
  unfold Lane.loadFields
  try dsimp only
  repeat' first | with_reducible assumption | (intro _ _ _) | (intro _ _) | with_reducible apply Lane.wr_inv | with_reducible apply ite_inv | with_reducible apply Lane.unpowered_id_inv | with_reducible apply Lane.when_inv | with_reducible apply Lane.each_inv | with_reducible apply foldl_inv

theorem Lane.restore_inv {l : LaneId}  {L : Lane} (hL : L.Inv l) : (Lane.restore  L).Inv l := by
  unfold Lane.restore
  try dsimp only
  repeat' first | with_reducible assumption | (intro _ _ _) | (intro _ _) | with_reducible apply Lane.autumn_inv | with_reducible apply Lane.wr_inv | with_reducible apply ite_inv | with_reducible apply Lane.unpowered_id_inv | with_reducible apply Lane.when_inv | with_reducible apply Lane.each_inv | with_reducible apply foldl_inv | with_reducible apply Lane.Inv.id | with_reducible apply Lane.Inv.regs | with_reducible apply Lane.Inv.sram | with_reducible apply Lane.Inv.store | with_reducible apply Tab.wf_filter | with_reducible apply Tab.wf_foldl | with_reducible apply Tab.wf_put | with_reducible apply Tab.wf_putList | with_reducible apply Tab.wf_graft | with_reducible apply Lane.unpowered_inv | split | (simp only [Lane.mk_inv]; refine ⟨?_, ?_, ?_, ?_⟩)

theorem Lane.enterReady_inv {l : LaneId} (i : Image) {L : Lane} (hL : L.Inv l) : (Lane.enterReady i L).Inv l := by
  unfold Lane.enterReady
  try dsimp only
  repeat' first | with_reducible assumption | (intro _ _ _) | (intro _ _) | with_reducible apply Lane.run_inv | with_reducible apply Lane.restore_inv | with_reducible apply Lane.loadFields_inv | with_reducible apply Lane.fire_inv | with_reducible apply Lane.szListen_inv | with_reducible apply Lane.svApplyAll_inv | with_reducible apply Lane.tokenBar_inv | with_reducible apply Lane.setSvc_inv | with_reducible apply Lane.isoStart_inv | with_reducible apply Lane.onSlaz_inv | with_reducible apply Lane.onStart_inv | with_reducible apply Lane.onGuard_inv | with_reducible apply Lane.restart_inv | with_reducible apply Lane.wrBit_inv | with_reducible apply Lane.set1_inv | with_reducible apply ite_inv | with_reducible apply Lane.unpowered_id_inv | with_reducible apply Lane.when_inv | with_reducible apply Lane.each_inv | with_reducible apply foldl_inv | with_reducible apply Lane.Inv.id | with_reducible apply Lane.Inv.regs | with_reducible apply Lane.Inv.sram | with_reducible apply Lane.Inv.store | with_reducible apply Tab.wf_filter | with_reducible apply Tab.wf_foldl | with_reducible apply Tab.wf_put | with_reducible apply Tab.wf_putList | with_reducible apply Tab.wf_graft | with_reducible apply Lane.unpowered_inv | split | (simp only [Lane.mk_inv]; refine ⟨?_, ?_, ?_, ?_⟩)

theorem Lane.softCommit_inv {l : LaneId}  {L : Lane} (hL : L.Inv l) : (Lane.softCommit  L).Inv l := by
  unfold Lane.softCommit
  try dsimp only
  repeat' first | with_reducible assumption | (intro _ _ _) | (intro _ _) | with_reducible apply Lane.commitStart_inv | with_reducible apply Lane.set1_inv | with_reducible apply ite_inv

theorem Lane.commitDone_inv {l : LaneId} (ok : Bool) {L : Lane} (hL : L.Inv l) : (Lane.commitDone ok L).Inv l := by
  unfold Lane.commitDone
  try dsimp only
  repeat' first | with_reducible assumption | (intro _ _ _) | (intro _ _) | with_reducible apply Lane.slotWrite_inv | with_reducible apply Lane.fire_inv | with_reducible apply Lane.commitStart_inv | with_reducible apply Lane.onRet_inv | with_reducible apply Lane.wearLines_inv | with_reducible apply Lane.clr_inv | with_reducible apply ite_inv | with_reducible apply Lane.unpowered_id_inv | with_reducible apply Lane.when_inv | with_reducible apply Lane.each_inv | with_reducible apply foldl_inv | with_reducible apply Lane.Inv.id | with_reducible apply Lane.Inv.regs | with_reducible apply Lane.Inv.sram | with_reducible apply Lane.Inv.store | with_reducible apply Tab.wf_filter | with_reducible apply Tab.wf_foldl | with_reducible apply Tab.wf_put | with_reducible apply Tab.wf_putList | with_reducible apply Tab.wf_graft | with_reducible apply Lane.unpowered_inv | split

theorem Lane.placeBank_inv {l : LaneId} (bytes : List Byte) {L : Lane} (hL : L.Inv l) : (Lane.placeBank bytes L).Inv l := by
  unfold Lane.placeBank
  try dsimp only
  repeat' first | with_reducible assumption | (intro _ _ _) | (intro _ _) | with_reducible apply ite_inv | with_reducible apply Lane.unpowered_id_inv | with_reducible apply Lane.when_inv | with_reducible apply Lane.each_inv | with_reducible apply foldl_inv | with_reducible apply Lane.Inv.id | with_reducible apply Lane.Inv.regs | with_reducible apply Lane.Inv.sram | with_reducible apply Lane.Inv.store | with_reducible apply Tab.wf_filter | with_reducible apply Tab.wf_foldl | with_reducible apply Tab.wf_put | with_reducible apply Tab.wf_putList | with_reducible apply Tab.wf_graft | with_reducible apply Lane.unpowered_inv | split | (simp only [Lane.mk_inv]; refine ⟨?_, ?_, ?_, ?_⟩)

theorem Lane.featLock_inv {l : LaneId}  {L : Lane} (hL : L.Inv l) : (Lane.featLock  L).Inv l := by
  unfold Lane.featLock
  try dsimp only
  repeat' first | with_reducible assumption | (intro _ _ _) | (intro _ _) | with_reducible apply Lane.clr_inv | with_reducible apply Lane.set1_inv | with_reducible apply Lane.wr_inv | with_reducible apply ite_inv | with_reducible apply Lane.unpowered_id_inv | with_reducible apply Lane.when_inv

theorem Lane.analogTest_inv {l : LaneId} (r : AnalogReadings) (res0 res1 : Word) {L : Lane} (hL : L.Inv l) : (Lane.analogTest r res0 res1 L).Inv l := by
  unfold Lane.analogTest
  try dsimp only
  repeat' first | with_reducible assumption | (intro _ _ _) | (intro _ _) | with_reducible apply Lane.loadFields_inv | with_reducible apply Lane.fire_inv | with_reducible apply Lane.wrBit_inv | with_reducible apply ite_inv | with_reducible apply Lane.unpowered_id_inv | with_reducible apply Lane.when_inv

theorem Lane.solsticeSteps_inv {l : LaneId} (r : SolsticeResult) {L : Lane} (hL : L.Inv l) : (Lane.solsticeSteps r L).Inv l := by
  unfold Lane.solsticeSteps
  try dsimp only
  repeat' first | with_reducible assumption | (intro _ _ _) | (intro _ _) | with_reducible apply Lane.loadFields_inv | with_reducible apply Lane.onTest_inv | with_reducible apply Lane.wr_inv | with_reducible apply ite_inv | with_reducible apply Lane.unpowered_id_inv | with_reducible apply Lane.when_inv | with_reducible apply Lane.each_inv | with_reducible apply foldl_inv | with_reducible apply Lane.Inv.id | with_reducible apply Lane.Inv.regs | with_reducible apply Lane.Inv.sram | with_reducible apply Lane.Inv.store | with_reducible apply Tab.wf_filter | with_reducible apply Tab.wf_foldl | with_reducible apply Tab.wf_put | with_reducible apply Tab.wf_putList | with_reducible apply Tab.wf_graft | with_reducible apply Lane.unpowered_inv | split

end Sys2Proof.Machine
end

