-- ==== Sys2Proof/Laws/InvArming.lean ====
section
/-! SUPPORT. The operations of Machine/Arming.lean keep the invariant of a lane. -/

namespace Sys2Proof.Machine

theorem Lane.grants_inv {l : LaneId}  {L : Lane} (hL : L.Inv l) : (Lane.grants  L).Inv l := by
  unfold Lane.grants
  try dsimp only
  repeat' first | with_reducible assumption | (intro _ _ _) | (intro _ _) | with_reducible apply Lane.portTurnOff_inv | with_reducible apply Lane.switchFree_inv | with_reducible apply Lane.gateFollowAll_inv | with_reducible apply Lane.onGate_inv | with_reducible apply Lane.restart_inv | with_reducible apply Lane.wrBit_inv | with_reducible apply ite_inv | with_reducible apply Lane.unpowered_id_inv | with_reducible apply Lane.when_inv | with_reducible apply Lane.each_inv

theorem Lane.withholdAll_inv {l : LaneId}  {L : Lane} (hL : L.Inv l) : (Lane.withholdAll  L).Inv l := by
  unfold Lane.withholdAll
  try dsimp only
  repeat' first | with_reducible assumption | (intro _ _ _) | (intro _ _) | with_reducible apply Lane.portOffSwitches_inv | with_reducible apply Lane.restart_inv | with_reducible apply ite_inv | with_reducible apply Lane.unpowered_id_inv | with_reducible apply Lane.when_inv | with_reducible apply Lane.each_inv

theorem Lane.reshareAt_inv {l : LaneId} (f : Func) (wait : Engine → Nat) {L : Lane} (hL : L.Inv l) : (Lane.reshareAt f wait L).Inv l := by
  unfold Lane.reshareAt
  try dsimp only
  repeat' first | with_reducible assumption | (intro _ _ _) | (intro _ _) | with_reducible apply Lane.onDe_inv | with_reducible apply ite_inv | with_reducible apply Lane.unpowered_id_inv | with_reducible apply Lane.when_inv | with_reducible apply Lane.each_inv

theorem Lane.reshare_inv {l : LaneId} (f : Func) (wait : Nat) {L : Lane} (hL : L.Inv l) : (Lane.reshare f wait L).Inv l := by
  unfold Lane.reshare
  try dsimp only
  repeat' first | with_reducible assumption | (intro _ _ _) | (intro _ _) | with_reducible apply Lane.reshareAt_inv

theorem Lane.joinNotice_inv {l : LaneId} (f : Func) {L : Lane} (hL : L.Inv l) : (Lane.joinNotice f L).Inv l := by
  unfold Lane.joinNotice
  try dsimp only
  repeat' first | with_reducible assumption | (intro _ _ _) | (intro _ _) | with_reducible apply Lane.reshareAt_inv | with_reducible apply Lane.onFn_inv

theorem Lane.showBar_inv {l : LaneId}  {L : Lane} (hL : L.Inv l) : (Lane.showBar  L).Inv l := by
  unfold Lane.showBar
  try dsimp only
  repeat' first | with_reducible assumption | (intro _ _ _) | (intro _ _) | with_reducible apply Lane.wr_inv | with_reducible apply ite_inv | with_reducible apply Lane.unpowered_id_inv | with_reducible apply Lane.when_inv | with_reducible apply Lane.each_inv | with_reducible apply foldl_inv | with_reducible apply Lane.Inv.id | with_reducible apply Lane.Inv.regs | with_reducible apply Lane.Inv.sram | with_reducible apply Lane.Inv.store | with_reducible apply Tab.wf_filter | with_reducible apply Tab.wf_foldl | with_reducible apply Tab.wf_put | with_reducible apply Tab.wf_graft | with_reducible apply Lane.unpowered_inv | with_reducible apply foldl_pair_inv | split

theorem Lane.armBegin_inv {l : LaneId}  {L : Lane} (hL : L.Inv l) : (Lane.armBegin  L).Inv l := by
  unfold Lane.armBegin
  try dsimp only
  repeat' first | with_reducible assumption | (intro _ _ _) | (intro _ _) | with_reducible apply Lane.restart_inv | with_reducible apply Lane.clr_inv | with_reducible apply Lane.wr_inv

theorem Lane.armEnd_inv {l : LaneId} (cause : Nat) {L : Lane} (hL : L.Inv l) : (Lane.armEnd cause L).Inv l := by
  unfold Lane.armEnd
  try dsimp only
  repeat' first | with_reducible assumption | (intro _ _ _) | (intro _ _) | with_reducible apply Lane.driveKp_inv | with_reducible apply Lane.driveKm_inv | with_reducible apply Lane.restart_inv | with_reducible apply Lane.stop_inv | with_reducible apply Lane.wr_inv

theorem Lane.enterArmed_inv {l : LaneId}  {L : Lane} (hL : L.Inv l) : (Lane.enterArmed  L).Inv l := by
  unfold Lane.enterArmed
  try dsimp only
  repeat' first | with_reducible assumption | (intro _ _ _) | (intro _ _) | with_reducible apply Lane.joinNotice_inv | with_reducible apply Lane.reshare_inv | with_reducible apply Lane.grants_inv | with_reducible apply Lane.fireLevel_inv | with_reducible apply Lane.svApplyAll_inv | with_reducible apply Lane.setSvc_inv | with_reducible apply Lane.onFn_inv | with_reducible apply Lane.stop_inv | with_reducible apply Lane.wrBit_inv | with_reducible apply Lane.set1_inv | with_reducible apply Lane.wr_inv | with_reducible apply ite_inv | with_reducible apply Lane.unpowered_id_inv | with_reducible apply Lane.when_inv | with_reducible apply Lane.each_inv | with_reducible apply foldl_inv | with_reducible apply Lane.Inv.id | with_reducible apply Lane.Inv.regs | with_reducible apply Lane.Inv.sram | with_reducible apply Lane.Inv.store | with_reducible apply Tab.wf_filter | with_reducible apply Tab.wf_foldl | with_reducible apply Tab.wf_put | with_reducible apply Tab.wf_graft | with_reducible apply Lane.unpowered_inv | with_reducible apply foldl_pair_inv | split | (simp only [Lane.mk_inv]; refine ⟨?_, ?_, ?_, ?_⟩)

theorem Lane.tryChain_inv {l : LaneId}  {L : Lane} (hL : L.Inv l) : (Lane.tryChain  L).Inv l := by
  unfold Lane.tryChain
  try dsimp only
  repeat' first | with_reducible assumption | (intro _ _ _) | (intro _ _) | with_reducible apply Lane.enterArmed_inv | with_reducible apply Lane.wr_inv | with_reducible apply ite_inv

theorem Lane.tryStep4_inv {l : LaneId}  {L : Lane} (hL : L.Inv l) : (Lane.tryStep4  L).Inv l := by
  unfold Lane.tryStep4
  try dsimp only
  repeat' first | with_reducible assumption | (intro _ _ _) | (intro _ _) | with_reducible apply Lane.tryChain_inv | with_reducible apply Lane.restart_inv | with_reducible apply Lane.wr_inv | with_reducible apply ite_inv

theorem Lane.tryStep3_inv {l : LaneId}  {L : Lane} (hL : L.Inv l) : (Lane.tryStep3  L).Inv l := by
  unfold Lane.tryStep3
  try dsimp only
  repeat' first | with_reducible assumption | (intro _ _ _) | (intro _ _) | with_reducible apply Lane.tryStep4_inv | with_reducible apply Lane.driveKp_inv | with_reducible apply Lane.wr_inv | with_reducible apply ite_inv

theorem Lane.armAdvance_inv {l : LaneId}  {L : Lane} (hL : L.Inv l) : (Lane.armAdvance  L).Inv l := by
  unfold Lane.armAdvance
  try dsimp only
  repeat' first | with_reducible assumption | (intro _ _ _) | (intro _ _) | with_reducible apply Lane.tryStep3_inv | with_reducible apply ite_inv

end Sys2Proof.Machine
end

