-- ==== Sys2Proof/Laws/InvVote.lean ====
section
/-! SUPPORT. The operations of Machine/Vote.lean keep the invariant of a lane. -/

namespace Sys2Proof.Machine

theorem Lane.setOwnRole_inv {l : LaneId} (f : Func) {L : Lane} (hL : L.Inv l) : (Lane.setOwnRole f L).Inv l := by
  unfold Lane.setOwnRole
  try dsimp only
  repeat' first | with_reducible assumption | (intro _ _ _) | (intro _ _) | with_reducible apply Lane.wr_inv

theorem Lane.becomeActive_inv {l : LaneId} (f : Func) {L : Lane} (hL : L.Inv l) : (Lane.becomeActive f L).Inv l := by
  unfold Lane.becomeActive
  try dsimp only
  repeat' first | with_reducible assumption | (intro _ _ _) | (intro _ _) | with_reducible apply Lane.sliceAbort_inv | with_reducible apply Lane.onFn_inv

theorem Lane.loseActive_inv {l : LaneId} (f : Func) {L : Lane} (hL : L.Inv l) : (Lane.loseActive f L).Inv l := by
  unfold Lane.loseActive
  try dsimp only
  repeat' first | with_reducible assumption | (intro _ _ _) | (intro _ _) | with_reducible apply Lane.onFn_inv

theorem Lane.rotateHistory_inv {l : LaneId} (f : Func) {L : Lane} (hL : L.Inv l) : (Lane.rotateHistory f L).Inv l := by
  unfold Lane.rotateHistory
  try dsimp only
  repeat' first | with_reducible assumption | (intro _ _ _) | (intro _ _) | with_reducible apply Lane.autoCommit_inv | with_reducible apply Lane.onRet_inv | with_reducible apply Lane.wr_inv

theorem Lane.reform_inv {l : LaneId} (f : Func) (c : Nat) {L : Lane} (hL : L.Inv l) : (Lane.reform f c L).Inv l := by
  unfold Lane.reform
  try dsimp only
  repeat' first | with_reducible assumption | (intro _ _ _) | (intro _ _) | with_reducible apply Lane.wr_inv | with_reducible apply ite_inv

theorem Lane.leave_inv {l : LaneId} (f : Func) (x : LaneId) {L : Lane} (hL : L.Inv l) : (Lane.leave f x L).Inv l := by
  unfold Lane.leave
  try dsimp only
  repeat' first | with_reducible assumption | (intro _ _ _) | (intro _ _) | with_reducible apply Lane.reform_inv | with_reducible apply Lane.onVote_inv | with_reducible apply Lane.onFn_inv | with_reducible apply Lane.stop_inv | with_reducible apply Lane.wrBit_inv | with_reducible apply ite_inv

theorem Lane.outOf_inv {l : LaneId} (f : Func) {L : Lane} (hL : L.Inv l) : (Lane.outOf f L).Inv l := by
  unfold Lane.outOf
  try dsimp only
  repeat' first | with_reducible assumption | (intro _ _ _) | (intro _ _) | with_reducible apply Lane.loseActive_inv | with_reducible apply Lane.settleSvc_inv | with_reducible apply Lane.portTurnOff_inv | with_reducible apply Lane.svForce_inv | with_reducible apply Lane.onDe_inv | with_reducible apply Lane.onFn_inv | with_reducible apply Lane.stop_inv | with_reducible apply Lane.wr_inv | with_reducible apply ite_inv | with_reducible apply Lane.unpowered_id_inv | with_reducible apply Lane.when_inv | with_reducible apply Lane.each_inv

theorem Lane.remove_inv {l : LaneId} (f : Func) (xs : List LaneId) {L : Lane} (hL : L.Inv l) : (Lane.remove f xs L).Inv l := by
  unfold Lane.remove
  try dsimp only
  repeat' first | with_reducible assumption | (intro _ _ _) | (intro _ _) | with_reducible apply Lane.outOf_inv | with_reducible apply Lane.leave_inv | with_reducible apply Lane.rotateHistory_inv | with_reducible apply Lane.becomeActive_inv | with_reducible apply Lane.setOwnRole_inv | with_reducible apply Lane.reshare_inv | with_reducible apply Lane.winter_inv | with_reducible apply Lane.autumn_inv | with_reducible apply ite_inv | with_reducible apply Lane.unpowered_id_inv | with_reducible apply Lane.when_inv | with_reducible apply Lane.each_inv

theorem Lane.watchMinority_inv {l : LaneId} (f : Func) {L : Lane} (hL : L.Inv l) : (Lane.watchMinority f L).Inv l := by
  unfold Lane.watchMinority
  try dsimp only
  repeat' first | with_reducible assumption | (intro _ _ _) | (intro _ _) | with_reducible apply Lane.onFn_inv | with_reducible apply Lane.start1_inv | with_reducible apply Lane.restart_inv | with_reducible apply Lane.stop_inv | with_reducible apply ite_inv | with_reducible apply Lane.unpowered_id_inv | with_reducible apply Lane.when_inv | with_reducible apply Lane.each_inv | with_reducible apply foldl_inv | with_reducible apply Lane.Inv.id | with_reducible apply Lane.Inv.regs | with_reducible apply Lane.Inv.sram | with_reducible apply Lane.Inv.store | with_reducible apply Tab.wf_filter | with_reducible apply Tab.wf_foldl | with_reducible apply Tab.wf_put | with_reducible apply Tab.wf_graft | with_reducible apply Lane.unpowered_inv | with_reducible apply foldl_pair_inv | split

theorem Lane.rotateCommit_inv {l : LaneId} (f : Func) {L : Lane} (hL : L.Inv l) : (Lane.rotateCommit f L).Inv l := by
  unfold Lane.rotateCommit
  try dsimp only
  repeat' first | with_reducible assumption | (intro _ _ _) | (intro _ _) | with_reducible apply Lane.commit_inv | with_reducible apply Lane.onFn_inv | with_reducible apply Lane.wrBit_inv | with_reducible apply ite_inv

theorem Lane.evalFn_inv {l : LaneId} (f : Func) {L : Lane} (hL : L.Inv l) : (Lane.evalFn f L).Inv l := by
  unfold Lane.evalFn
  try dsimp only
  repeat' first | with_reducible assumption | (intro _ _ _) | (intro _ _) | with_reducible apply Lane.rotateCommit_inv | with_reducible apply Lane.watchMinority_inv | with_reducible apply Lane.remove_inv | with_reducible apply Lane.start1_inv | with_reducible apply Lane.stop_inv | with_reducible apply ite_inv

theorem Lane.evaluate_inv {l : LaneId}  {L : Lane} (hL : L.Inv l) : (Lane.evaluate  L).Inv l := by
  unfold Lane.evaluate
  try dsimp only
  repeat' first | with_reducible assumption | (intro _ _ _) | (intro _ _) | with_reducible apply Lane.evalFn_inv | with_reducible apply ite_inv | with_reducible apply Lane.unpowered_id_inv | with_reducible apply Lane.when_inv | with_reducible apply Lane.each_inv

theorem Lane.voteSend_inv {l : LaneId}  {L : Lane} (hL : L.Inv l) : (Lane.voteSend  L).Inv l := by
  unfold Lane.voteSend
  try dsimp only
  repeat' first | with_reducible assumption | (intro _ _ _) | (intro _ _) | with_reducible apply Lane.evaluate_inv | with_reducible apply Lane.onVote_inv | with_reducible apply Lane.send_inv

theorem Lane.onInp_inv {l : LaneId} (s : Side) (g : VoteIn → VoteIn) {L : Lane} (hL : L.Inv l) : (Lane.onInp s g L).Inv l := by
  unfold Lane.onInp
  try dsimp only
  repeat' first | with_reducible assumption | (intro _ _ _) | (intro _ _) | with_reducible apply Lane.onVote_inv

theorem Lane.voteBroken_inv {l : LaneId} (s : Side) (last : Option Nat) {L : Lane} (hL : L.Inv l) : (Lane.voteBroken s last L).Inv l := by
  unfold Lane.voteBroken
  try dsimp only
  repeat' first | with_reducible assumption | (intro _ _ _) | (intro _ _) | with_reducible apply Lane.rotate_inv | with_reducible apply Lane.onInp_inv

theorem Lane.voteFlag_inv {l : LaneId} (s : Side) (split : Bool) {L : Lane} (hL : L.Inv l) : (Lane.voteFlag s split L).Inv l := by
  unfold Lane.voteFlag
  try dsimp only
  repeat' first | with_reducible assumption | (intro _ _ _) | (intro _ _) | with_reducible apply Lane.split_inv | with_reducible apply Lane.fire_inv | with_reducible apply Lane.set1_inv

theorem Lane.voteValid_inv {l : LaneId} (s : Side) (w : Nat) {L : Lane} (hL : L.Inv l) : (Lane.voteValid s w L).Inv l := by
  unfold Lane.voteValid
  try dsimp only
  repeat' first | with_reducible assumption | (intro _ _ _) | (intro _ _) | with_reducible apply Lane.rotate_inv | with_reducible apply Lane.onInp_inv | with_reducible apply Lane.restart_inv

theorem Lane.voteReceive_inv {l : LaneId} (s : Side) (line0 line1 : Word) {L : Lane} (hL : L.Inv l) : (Lane.voteReceive s line0 line1 L).Inv l := by
  unfold Lane.voteReceive
  try dsimp only
  repeat' first | with_reducible assumption | (intro _ _ _) | (intro _ _) | with_reducible apply Lane.split_inv | with_reducible apply Lane.voteValid_inv | with_reducible apply Lane.voteFlag_inv | with_reducible apply Lane.voteBroken_inv | with_reducible apply ite_inv | with_reducible apply Lane.unpowered_id_inv | with_reducible apply Lane.when_inv | with_reducible apply Lane.each_inv | with_reducible apply foldl_inv | with_reducible apply Lane.Inv.id | with_reducible apply Lane.Inv.regs | with_reducible apply Lane.Inv.sram | with_reducible apply Lane.Inv.store | with_reducible apply Tab.wf_filter | with_reducible apply Tab.wf_foldl | with_reducible apply Tab.wf_put | with_reducible apply Tab.wf_graft | with_reducible apply Lane.unpowered_inv | with_reducible apply foldl_pair_inv | split

theorem Lane.voteLose_inv {l : LaneId} (s : Side) {L : Lane} (hL : L.Inv l) : (Lane.voteLose s L).Inv l := by
  unfold Lane.voteLose
  try dsimp only
  repeat' first | with_reducible assumption | (intro _ _ _) | (intro _ _) | with_reducible apply Lane.onInp_inv | with_reducible apply Lane.evaluate_inv | with_reducible apply Lane.autumn_inv | with_reducible apply Lane.fire_inv | with_reducible apply Lane.withdrawAll_inv | with_reducible apply Lane.stop_inv | with_reducible apply ite_inv | with_reducible apply Lane.unpowered_id_inv | with_reducible apply Lane.when_inv | with_reducible apply Lane.each_inv

theorem Lane.evaluateNow_inv {l : LaneId}  {L : Lane} (hL : L.Inv l) : (Lane.evaluateNow  L).Inv l := by
  unfold Lane.evaluateNow
  try dsimp only
  repeat' first | with_reducible assumption | (intro _ _ _) | (intro _ _) | with_reducible apply Lane.evaluate_inv

theorem Lane.p0Only_inv {l : LaneId} (pair : Pair) (f : Lane → Lane) (hf : ∀ M : Lane, M.Inv l → (f M).Inv l) {L : Lane} (hL : L.Inv l) : (Lane.p0Only pair f L).Inv l := by
  unfold Lane.p0Only
  try dsimp only
  repeat' first | with_reducible assumption | (intro _ _ _) | (intro _ _) | with_reducible apply hf | with_reducible apply Lane.fire_inv | with_reducible apply ite_inv

theorem Lane.byPair_inv {l : LaneId} (pair : Pair) (f : Lane → Lane) (hf : ∀ M : Lane, M.Inv l → (f M).Inv l) {L : Lane} (hL : L.Inv l) : (Lane.byPair pair f L).Inv l := by
  unfold Lane.byPair
  try dsimp only
  repeat' first | with_reducible assumption | (intro _ _ _) | (intro _ _) | with_reducible apply hf | with_reducible apply Lane.p0Only_inv | with_reducible apply ite_inv | with_reducible apply Lane.unpowered_id_inv | with_reducible apply Lane.when_inv

end Sys2Proof.Machine
end

