-- ==== Sys2Proof/Laws/InvRoles.lean ====
section
/-! SUPPORT. The operations of Machine/Roles.lean keep the invariant of a lane. -/

namespace Sys2Proof.Machine

theorem Lane.noteOverlap_inv {l : LaneId} (r : RefRecord) {L : Lane} (hL : L.Inv l) : (Lane.noteOverlap r L).Inv l := by
  unfold Lane.noteOverlap
  try dsimp only
  repeat' first | with_reducible assumption | (intro _ _ _) | (intro _ _) | with_reducible apply Lane.wr_inv | with_reducible apply ite_inv | with_reducible apply Lane.unpowered_id_inv | with_reducible apply Lane.when_inv | with_reducible apply Lane.each_inv | with_reducible apply foldl_inv | with_reducible apply Lane.Inv.id | with_reducible apply Lane.Inv.regs | with_reducible apply Lane.Inv.sram | with_reducible apply Lane.Inv.store | with_reducible apply Tab.wf_filter | with_reducible apply Tab.wf_foldl | with_reducible apply Tab.wf_put | with_reducible apply Tab.wf_putList | with_reducible apply Tab.wf_graft | with_reducible apply Lane.unpowered_inv | split

theorem Lane.takeRef_inv {l : LaneId} (r : RefRecord) {L : Lane} (hL : L.Inv l) : (Lane.takeRef r L).Inv l := by
  unfold Lane.takeRef
  try dsimp only
  repeat' first | with_reducible assumption | (intro _ _ _) | (intro _ _) | with_reducible apply Lane.noteOverlap_inv | with_reducible apply Lane.onDe_inv | with_reducible apply Lane.onFn_inv | with_reducible apply Lane.restart_inv | with_reducible apply Lane.count_inv | with_reducible apply Lane.wr_inv | with_reducible apply ite_inv | with_reducible apply Lane.unpowered_id_inv | with_reducible apply Lane.when_inv | with_reducible apply Lane.each_inv

theorem Lane.sendRef_inv {l : LaneId} (r : RefRecord) {L : Lane} (hL : L.Inv l) : (Lane.sendRef r L).Inv l := by
  unfold Lane.sendRef
  try dsimp only
  repeat' first | with_reducible assumption | (intro _ _ _) | (intro _ _) | with_reducible apply Lane.takeRef_inv | with_reducible apply Lane.onFn_inv | with_reducible apply Lane.send_inv | with_reducible apply ite_inv

theorem Lane.watchdogAccuse_inv {l : LaneId} (f : Func) (s : Side) {L : Lane} (hL : L.Inv l) : (Lane.watchdogAccuse f s L).Inv l := by
  unfold Lane.watchdogAccuse
  try dsimp only
  repeat' first | with_reducible assumption | (intro _ _ _) | (intro _ _) | with_reducible apply Lane.fire_inv | with_reducible apply Lane.accuse_inv | with_reducible apply Lane.set1_inv

theorem Lane.classSK_inv {l : LaneId} (cause : Nat) {L : Lane} (hL : L.Inv l) : (Lane.classSK cause L).Inv l := by
  unfold Lane.classSK
  try dsimp only
  repeat' first | with_reducible assumption | (intro _ _ _) | (intro _ _) | with_reducible apply Lane.autumn_inv | with_reducible apply Lane.withdrawPorts_inv | with_reducible apply Lane.withdraw_inv | with_reducible apply Lane.onFn_inv | with_reducible apply ite_inv | with_reducible apply Lane.unpowered_id_inv | with_reducible apply Lane.when_inv | with_reducible apply Lane.each_inv

theorem Lane.classH_inv {l : LaneId}  {L : Lane} (hL : L.Inv l) : (Lane.classH  L).Inv l := by
  unfold Lane.classH
  try dsimp only
  repeat' first | with_reducible assumption | (intro _ _ _) | (intro _ _) | with_reducible apply Lane.disengageAll_inv | with_reducible apply Lane.autumn_inv | with_reducible apply Lane.stop_inv | with_reducible apply ite_inv | with_reducible apply Lane.unpowered_id_inv | with_reducible apply Lane.when_inv | with_reducible apply Lane.each_inv

theorem Lane.speedRequest_inv {l : LaneId} (f : Func) {L : Lane} (hL : L.Inv l) : (Lane.speedRequest f L).Inv l := by
  unfold Lane.speedRequest
  try dsimp only
  repeat' first | with_reducible assumption | (intro _ _ _) | (intro _ _) | with_reducible apply Lane.notice_inv | with_reducible apply Lane.send_inv | with_reducible apply Lane.count_inv | with_reducible apply ite_inv | with_reducible apply Lane.unpowered_id_inv | with_reducible apply Lane.when_inv | with_reducible apply Lane.each_inv | with_reducible apply foldl_inv | with_reducible apply Lane.Inv.id | with_reducible apply Lane.Inv.regs | with_reducible apply Lane.Inv.sram | with_reducible apply Lane.Inv.store | with_reducible apply Tab.wf_filter | with_reducible apply Tab.wf_foldl | with_reducible apply Tab.wf_put | with_reducible apply Tab.wf_putList | with_reducible apply Tab.wf_graft | with_reducible apply Lane.unpowered_inv | split

theorem Lane.standstill_inv {l : LaneId}  {L : Lane} (hL : L.Inv l) : (Lane.standstill  L).Inv l := by
  unfold Lane.standstill
  try dsimp only
  repeat' first | with_reducible assumption | (intro _ _ _) | (intro _ _) | with_reducible apply Lane.winter_inv | with_reducible apply Lane.svApplyAll_inv | with_reducible apply Lane.onSv_inv | with_reducible apply ite_inv | with_reducible apply Lane.unpowered_id_inv | with_reducible apply Lane.when_inv | with_reducible apply Lane.each_inv | with_reducible apply foldl_inv | with_reducible apply Lane.Inv.id | with_reducible apply Lane.Inv.regs | with_reducible apply Lane.Inv.sram | with_reducible apply Lane.Inv.store | with_reducible apply Tab.wf_filter | with_reducible apply Tab.wf_foldl | with_reducible apply Tab.wf_put | with_reducible apply Tab.wf_putList | with_reducible apply Tab.wf_graft | with_reducible apply Lane.unpowered_inv | split | (simp only [Lane.mk_inv]; refine ⟨?_, ?_, ?_, ?_⟩)

theorem Lane.armTrigger_inv {l : LaneId}  {L : Lane} (hL : L.Inv l) : (Lane.armTrigger  L).Inv l := by
  unfold Lane.armTrigger
  try dsimp only
  repeat' first | with_reducible assumption | (intro _ _ _) | (intro _ _) | with_reducible apply Lane.armBegin_inv | with_reducible apply Lane.showBar_inv | with_reducible apply Lane.set1_inv | with_reducible apply ite_inv

theorem Lane.linkHeard_inv {l : LaneId} (s : Side) {L : Lane} (hL : L.Inv l) : (Lane.linkHeard s L).Inv l := by
  unfold Lane.linkHeard
  try dsimp only
  repeat' first | with_reducible assumption | (intro _ _ _) | (intro _ _) | with_reducible apply Lane.endLevel_inv | with_reducible apply Lane.restart_inv

theorem Lane.giveUp_inv {l : LaneId} (f : Func) {L : Lane} (hL : L.Inv l) : (Lane.giveUp f L).Inv l := by
  unfold Lane.giveUp
  try dsimp only
  repeat' first | with_reducible assumption | (intro _ _ _) | (intro _ _) | with_reducible apply Lane.onFn_inv | with_reducible apply Lane.stop_inv | with_reducible apply Lane.count_inv | with_reducible apply Lane.wrBit_inv

theorem Lane.roleClr_inv {l : LaneId} (mask : Nat) {L : Lane} (hL : L.Inv l) : (Lane.roleClr mask L).Inv l := by
  unfold Lane.roleClr
  try dsimp only
  repeat' first | with_reducible assumption | (intro _ _ _) | (intro _ _) | with_reducible apply Lane.autumn_inv | with_reducible apply Lane.onRet_inv | with_reducible apply ite_inv | with_reducible apply Lane.unpowered_id_inv | with_reducible apply Lane.when_inv

end Sys2Proof.Machine
end

