-- ==== Sys2Proof/Laws/InvEngine.lean ====
section
/-! SUPPORT. The operations of Machine/Engine.lean keep the invariant of a lane. -/

namespace Sys2Proof.Machine

theorem Lane.raise_inv {l : LaneId} (n : Engine) (k : Fin 9) {L : Lane} (hL : L.Inv l) : (Lane.raise n k L).Inv l := by
  unfold Lane.raise
  try dsimp only
  repeat' first | with_reducible assumption | (intro _ _ _) | (intro _ _) | with_reducible apply Lane.onDe_inv | with_reducible apply Lane.set1_inv | with_reducible apply ite_inv | with_reducible apply Lane.unpowered_id_inv | with_reducible apply Lane.when_inv

theorem Lane.halt_inv {l : LaneId} (n : Engine) (reason : Nat) {L : Lane} (hL : L.Inv l) : (Lane.halt n reason L).Inv l := by
  unfold Lane.halt
  try dsimp only
  repeat' first | with_reducible assumption | (intro _ _ _) | (intro _ _) | with_reducible apply Lane.grants_inv | with_reducible apply Lane.fire_inv | with_reducible apply Lane.portTurnOff_inv | with_reducible apply Lane.svForce_inv | with_reducible apply Lane.withdraw_inv | with_reducible apply Lane.onDe_inv | with_reducible apply Lane.irq_inv | with_reducible apply Lane.clr_inv | with_reducible apply Lane.wr_inv | with_reducible apply ite_inv | with_reducible apply Lane.unpowered_id_inv | with_reducible apply Lane.when_inv | with_reducible apply Lane.each_inv | with_reducible apply foldl_inv | with_reducible apply Lane.Inv.id | with_reducible apply Lane.Inv.regs | with_reducible apply Lane.Inv.sram | with_reducible apply Lane.Inv.store | with_reducible apply Tab.wf_filter | with_reducible apply Tab.wf_foldl | with_reducible apply Tab.wf_put | with_reducible apply Tab.wf_graft | with_reducible apply Lane.unpowered_inv | with_reducible apply foldl_pair_inv | split

theorem Lane.deWrite_inv {l : LaneId} (n : Engine) (i : DeInstr) (rd : Reg) (v : EngineSt → Word) {L : Lane} (hL : L.Inv l) : (Lane.deWrite n i rd v L).Inv l := by
  unfold Lane.deWrite
  try dsimp only
  repeat' first | with_reducible assumption | (intro _ _ _) | (intro _ _) | with_reducible apply Lane.onDe_inv | with_reducible apply ite_inv | with_reducible apply Lane.unpowered_id_inv | with_reducible apply Lane.when_inv

theorem Lane.deFloat_inv {l : LaneId} (n : Engine) (i : DeInstr) (rd : Reg) (v : EngineSt → Word) {L : Lane} (hL : L.Inv l) : (Lane.deFloat n i rd v L).Inv l := by
  unfold Lane.deFloat
  try dsimp only
  repeat' first | with_reducible assumption | (intro _ _ _) | (intro _ _) | with_reducible apply Lane.deWrite_inv | with_reducible apply Lane.set1_inv | with_reducible apply ite_inv | with_reducible apply Lane.unpowered_id_inv | with_reducible apply Lane.when_inv

theorem Lane.deBranch_inv {l : LaneId} (n : Engine) (i : DeInstr) (taken : EngineSt → Bool) (off : BitVec 16) {L : Lane} (hL : L.Inv l) : (Lane.deBranch n i taken off L).Inv l := by
  unfold Lane.deBranch
  try dsimp only
  repeat' first | with_reducible assumption | (intro _ _ _) | (intro _ _) | with_reducible apply Lane.onDe_inv | with_reducible apply ite_inv | with_reducible apply Lane.unpowered_id_inv | with_reducible apply Lane.when_inv

theorem Lane.deJump_inv {l : LaneId} (n : Engine) (i : DeInstr) (pc : EngineSt → BitVec 14) (link : Bool) {L : Lane} (hL : L.Inv l) : (Lane.deJump n i pc link L).Inv l := by
  unfold Lane.deJump
  try dsimp only
  repeat' first | with_reducible assumption | (intro _ _ _) | (intro _ _) | with_reducible apply Lane.onDe_inv | with_reducible apply ite_inv | with_reducible apply Lane.unpowered_id_inv | with_reducible apply Lane.when_inv

theorem Lane.deLoad_inv {l : LaneId} (n : Engine) (rd ra : Reg) (imm : BitVec 16) {L : Lane} (hL : L.Inv l) : (Lane.deLoad n rd ra imm L).Inv l := by
  unfold Lane.deLoad
  try dsimp only
  repeat' first | with_reducible assumption | (intro _ _ _) | (intro _ _) | with_reducible apply Lane.deWrite_inv | with_reducible apply Lane.halt_inv | with_reducible apply ite_inv | with_reducible apply Lane.unpowered_id_inv | with_reducible apply Lane.when_inv

theorem Lane.deStore_inv {l : LaneId} (n : Engine) (rd ra : Reg) (imm : BitVec 16) {L : Lane} (hL : L.Inv l) : (Lane.deStore n rd ra imm L).Inv l := by
  unfold Lane.deStore
  try dsimp only
  repeat' first | with_reducible assumption | (intro _ _ _) | (intro _ _) | with_reducible apply Lane.halt_inv | with_reducible apply Lane.onDe_inv | with_reducible apply ite_inv | with_reducible apply Lane.unpowered_id_inv | with_reducible apply Lane.when_inv

theorem Lane.deIn_inv {l : LaneId} (n : Engine) (rd : Reg) (port : BitVec 16) {L : Lane} (hL : L.Inv l) : (Lane.deIn n rd port L).Inv l := by
  unfold Lane.deIn
  try dsimp only
  repeat' first | with_reducible assumption | (intro _ _ _) | (intro _ _) | with_reducible apply Lane.halt_inv | with_reducible apply Lane.onDe_inv | with_reducible apply Lane.drawn_inv | with_reducible apply ite_inv | with_reducible apply Lane.unpowered_id_inv | with_reducible apply Lane.when_inv | with_reducible apply Lane.each_inv | with_reducible apply foldl_inv | with_reducible apply Lane.Inv.id | with_reducible apply Lane.Inv.regs | with_reducible apply Lane.Inv.sram | with_reducible apply Lane.Inv.store | with_reducible apply Tab.wf_filter | with_reducible apply Tab.wf_foldl | with_reducible apply Tab.wf_put | with_reducible apply Tab.wf_graft | with_reducible apply Lane.unpowered_inv | with_reducible apply foldl_pair_inv | split

theorem Lane.deOut_inv {l : LaneId} (n : Engine) (rd : Reg) (port : BitVec 16) {L : Lane} (hL : L.Inv l) : (Lane.deOut n rd port L).Inv l := by
  unfold Lane.deOut
  try dsimp only
  repeat' first | with_reducible assumption | (intro _ _ _) | (intro _ _) | with_reducible apply Lane.compare_inv | with_reducible apply Lane.sample_inv | with_reducible apply Lane.halt_inv | with_reducible apply Lane.onDe_inv | with_reducible apply ite_inv | with_reducible apply Lane.unpowered_id_inv | with_reducible apply Lane.when_inv | with_reducible apply Lane.each_inv | with_reducible apply foldl_inv | with_reducible apply Lane.Inv.id | with_reducible apply Lane.Inv.regs | with_reducible apply Lane.Inv.sram | with_reducible apply Lane.Inv.store | with_reducible apply Tab.wf_filter | with_reducible apply Tab.wf_foldl | with_reducible apply Tab.wf_put | with_reducible apply Tab.wf_graft | with_reducible apply Lane.unpowered_inv | with_reducible apply foldl_pair_inv | split

theorem Lane.deOutOwn_inv {l : LaneId} (n : Engine) (rd : Reg) (port : Nat) (f : Word → Lane → Lane) (hf : ∀ (x : Word) (M : Lane), M.Inv l → (f x M).Inv l) {L : Lane} (hL : L.Inv l) : (Lane.deOutOwn n rd port f L).Inv l := by
  unfold Lane.deOutOwn
  try dsimp only
  repeat' first | with_reducible assumption | (intro _ _ _) | (intro _ _) | with_reducible apply hf | with_reducible apply Lane.onDe_inv | with_reducible apply ite_inv | with_reducible apply Lane.unpowered_id_inv | with_reducible apply Lane.when_inv

theorem Lane.snapUp_inv {l : LaneId} (n : Engine) {L : Lane} (hL : L.Inv l) : (Lane.snapUp n L).Inv l := by
  unfold Lane.snapUp
  try dsimp only
  repeat' first | with_reducible assumption | (intro _ _ _) | (intro _ _) | with_reducible apply Lane.post_inv | with_reducible apply Lane.onDe_inv | with_reducible apply Lane.wr_inv | with_reducible apply ite_inv | with_reducible apply Lane.unpowered_id_inv | with_reducible apply Lane.when_inv | with_reducible apply Lane.each_inv | with_reducible apply foldl_inv | with_reducible apply Lane.Inv.id | with_reducible apply Lane.Inv.regs | with_reducible apply Lane.Inv.sram | with_reducible apply Lane.Inv.store | with_reducible apply Tab.wf_filter | with_reducible apply Tab.wf_foldl | with_reducible apply Tab.wf_put | with_reducible apply Tab.wf_graft | with_reducible apply Lane.unpowered_inv | with_reducible apply foldl_pair_inv | split | (simp only [Lane.mk_inv]; refine ⟨?_, ?_, ?_, ?_⟩)

theorem Lane.commit_inv {l : LaneId} (n : Engine) (rd : Reg) {L : Lane} (hL : L.Inv l) : (Lane.commit n rd L).Inv l := by
  unfold Lane.commit
  try dsimp only
  repeat' first | with_reducible assumption | (intro _ _ _) | (intro _ _) | with_reducible apply Lane.snapUp_inv | with_reducible apply Lane.onDe_inv | with_reducible apply Lane.drawn_inv | with_reducible apply Lane.wr_inv

theorem Lane.bridge_inv {l : LaneId} (n : Engine) (v : Word) {L : Lane} (hL : L.Inv l) : (Lane.bridge n v L).Inv l := by
  unfold Lane.bridge
  try dsimp only
  repeat' first | with_reducible assumption | (intro _ _ _) | (intro _ _) | with_reducible apply Lane.onDe_inv | with_reducible apply Lane.drawn_inv

theorem Lane.post_inv {l : LaneId} (n : Engine) {L : Lane} (hL : L.Inv l) : (Lane.post n L).Inv l := by
  unfold Lane.post
  try dsimp only
  repeat' first | with_reducible assumption | (intro _ _ _) | (intro _ _) | with_reducible apply Lane.irq_inv | with_reducible apply Lane.countMod_inv | with_reducible apply Lane.wr_inv | with_reducible apply ite_inv | with_reducible apply Lane.unpowered_id_inv | with_reducible apply Lane.when_inv | with_reducible apply Lane.each_inv

theorem Lane.doorbell_inv {l : LaneId} (n : Engine) {L : Lane} (hL : L.Inv l) : (Lane.doorbell n L).Inv l := by
  unfold Lane.doorbell
  try dsimp only
  repeat' first | with_reducible assumption | (intro _ _ _) | (intro _ _) | with_reducible apply Lane.raise_inv | with_reducible apply Lane.onDe_inv

theorem Lane.dataAccess_inv {l : LaneId} (n : Engine) (data : Option Word) {L : Lane} (hL : L.Inv l) : (Lane.dataAccess n data L).Inv l := by
  unfold Lane.dataAccess
  try dsimp only
  repeat' first | with_reducible assumption | (intro _ _ _) | (intro _ _) | with_reducible apply Lane.onDe_inv | with_reducible apply Lane.set1_inv | with_reducible apply Lane.wr_inv | with_reducible apply ite_inv | with_reducible apply Lane.unpowered_id_inv | with_reducible apply Lane.when_inv | with_reducible apply Lane.each_inv | with_reducible apply foldl_inv | with_reducible apply Lane.Inv.id | with_reducible apply Lane.Inv.regs | with_reducible apply Lane.Inv.sram | with_reducible apply Lane.Inv.store | with_reducible apply Tab.wf_filter | with_reducible apply Tab.wf_foldl | with_reducible apply Tab.wf_put | with_reducible apply Tab.wf_graft | with_reducible apply Lane.unpowered_inv | with_reducible apply foldl_pair_inv | split

theorem Lane.run_inv {l : LaneId} (n : Engine) {L : Lane} (hL : L.Inv l) : (Lane.run n L).Inv l := by
  unfold Lane.run
  try dsimp only
  repeat' first | with_reducible assumption | (intro _ _ _) | (intro _ _) | with_reducible apply Lane.grants_inv | with_reducible apply Lane.onDe_inv | with_reducible apply Lane.set1_inv | with_reducible apply ite_inv

theorem Lane.sealIm_inv {l : LaneId} (n : Engine) {L : Lane} (hL : L.Inv l) : (Lane.sealIm n L).Inv l := by
  unfold Lane.sealIm
  try dsimp only
  repeat' first | with_reducible assumption | (intro _ _ _) | (intro _ _) | with_reducible apply Lane.grants_inv | with_reducible apply Lane.set1_inv

end Sys2Proof.Machine
end

