-- ==== Sys2Proof/Laws/InvPosition.lean ====
section
/-! SUPPORT. The operations of Machine/Position.lean keep the invariant of a lane. -/

namespace Sys2Proof.Machine

theorem Lane.sensorLoss_inv {l : LaneId} (p : Port) {L : Lane} (hL : L.Inv l) : (Lane.sensorLoss p L).Inv l := by
  unfold Lane.sensorLoss
  try dsimp only
  repeat' first | with_reducible assumption | (intro _ _ _) | (intro _ _) | with_reducible apply Lane.autumn_inv | with_reducible apply Lane.fire_inv | with_reducible apply ite_inv | with_reducible apply Lane.unpowered_id_inv | with_reducible apply Lane.when_inv | with_reducible apply Lane.each_inv

theorem Lane.srcFails_inv {l : LaneId} (k : Nat) {L : Lane} (hL : L.Inv l) : (Lane.srcFails k L).Inv l := by
  unfold Lane.srcFails
  try dsimp only
  repeat' first | with_reducible assumption | (intro _ _ _) | (intro _ _) | with_reducible apply Lane.sensorLoss_inv | with_reducible apply Lane.fire_inv | with_reducible apply ite_inv | with_reducible apply Lane.unpowered_id_inv | with_reducible apply Lane.when_inv | with_reducible apply Lane.each_inv

theorem Lane.qeFail_inv {l : LaneId} (n : Fin 2) {L : Lane} (hL : L.Inv l) : (Lane.qeFail n L).Inv l := by
  unfold Lane.qeFail
  try dsimp only
  repeat' first | with_reducible assumption | (intro _ _ _) | (intro _ _) | with_reducible apply Lane.srcFails_inv | with_reducible apply Lane.set1_inv | with_reducible apply ite_inv

theorem Lane.onQe_inv {l : LaneId} (n : Fin 2) (g : QuadSt → QuadSt) {L : Lane} (hL : L.Inv l) : (Lane.onQe n g L).Inv l := by
  unfold Lane.onQe
  try dsimp only
  repeat' first | with_reducible assumption | (intro _ _ _) | (intro _ _) | with_reducible apply ite_inv | with_reducible apply Lane.unpowered_id_inv | with_reducible apply Lane.when_inv | with_reducible apply Lane.each_inv | with_reducible apply foldl_inv | with_reducible apply Lane.Inv.id | with_reducible apply Lane.Inv.regs | with_reducible apply Lane.Inv.sram | with_reducible apply Lane.Inv.store | with_reducible apply Tab.wf_filter | with_reducible apply Tab.wf_foldl | with_reducible apply Tab.wf_put | with_reducible apply Tab.wf_graft | with_reducible apply Lane.unpowered_inv | with_reducible apply foldl_pair_inv | split | (simp only [Lane.mk_inv]; refine ⟨?_, ?_, ?_, ?_⟩)

theorem Lane.modStep_inv {l : LaneId} (n : Fin 2) (back : Bool) {L : Lane} (hL : L.Inv l) : (Lane.modStep n back L).Inv l := by
  unfold Lane.modStep
  try dsimp only
  repeat' first | with_reducible assumption | (intro _ _ _) | (intro _ _) | with_reducible apply Lane.drawn_inv | with_reducible apply Lane.wr_inv | with_reducible apply ite_inv

theorem Lane.edgeSeen_inv {l : LaneId} (n : Fin 2) (back : Bool) {L : Lane} (hL : L.Inv l) : (Lane.edgeSeen n back L).Inv l := by
  unfold Lane.edgeSeen
  try dsimp only
  repeat' first | with_reducible assumption | (intro _ _ _) | (intro _ _) | with_reducible apply Lane.onQe_inv | with_reducible apply Lane.run_inv | with_reducible apply Lane.irq_inv | with_reducible apply Lane.count_inv | with_reducible apply Lane.set1_inv | with_reducible apply Lane.wr_inv | with_reducible apply ite_inv | with_reducible apply Lane.unpowered_id_inv | with_reducible apply Lane.when_inv

theorem Lane.compareEdge_inv {l : LaneId} (n : Fin 2) (back : Bool) {L : Lane} (hL : L.Inv l) : (Lane.compareEdge n back L).Inv l := by
  unfold Lane.compareEdge
  try dsimp only
  repeat' first | with_reducible assumption | (intro _ _ _) | (intro _ _) | with_reducible apply Lane.irq_inv | with_reducible apply Lane.set1_inv | with_reducible apply Lane.wr_inv | with_reducible apply ite_inv | with_reducible apply Lane.unpowered_id_inv | with_reducible apply Lane.when_inv

theorem Lane.countEdge_inv {l : LaneId} (n : Fin 2) (loaded back : Bool) {L : Lane} (hL : L.Inv l) : (Lane.countEdge n loaded back L).Inv l := by
  unfold Lane.countEdge
  try dsimp only
  repeat' first | with_reducible assumption | (intro _ _ _) | (intro _ _) | with_reducible apply Lane.compareEdge_inv | with_reducible apply Lane.edgeSeen_inv | with_reducible apply Lane.modStep_inv | with_reducible apply Lane.wr_inv | with_reducible apply ite_inv | with_reducible apply Lane.unpowered_id_inv | with_reducible apply Lane.when_inv

theorem Lane.skipEdge_inv {l : LaneId} (n : Fin 2) {L : Lane} (hL : L.Inv l) : (Lane.skipEdge n L).Inv l := by
  unfold Lane.skipEdge
  try dsimp only
  repeat' first | with_reducible assumption | (intro _ _ _) | (intro _ _) | with_reducible apply Lane.onQe_inv | with_reducible apply Lane.qeFail_inv | with_reducible apply Lane.count_inv | with_reducible apply Lane.set1_inv | with_reducible apply ite_inv | with_reducible apply Lane.unpowered_id_inv | with_reducible apply Lane.when_inv | with_reducible apply Lane.each_inv | with_reducible apply foldl_inv | with_reducible apply Lane.Inv.id | with_reducible apply Lane.Inv.regs | with_reducible apply Lane.Inv.sram | with_reducible apply Lane.Inv.store | with_reducible apply Tab.wf_filter | with_reducible apply Tab.wf_foldl | with_reducible apply Tab.wf_put | with_reducible apply Tab.wf_graft | with_reducible apply Lane.unpowered_inv | with_reducible apply foldl_pair_inv | split

theorem Lane.quadSample_inv {l : LaneId} (n : Fin 2) (loaded a b : Bool) {L : Lane} (hL : L.Inv l) : (Lane.quadSample n loaded a b L).Inv l := by
  unfold Lane.quadSample
  try dsimp only
  repeat' first | with_reducible assumption | (intro _ _ _) | (intro _ _) | with_reducible apply Lane.skipEdge_inv | with_reducible apply Lane.countEdge_inv | with_reducible apply Lane.onQe_inv | with_reducible apply ite_inv | with_reducible apply Lane.unpowered_id_inv | with_reducible apply Lane.when_inv | with_reducible apply Lane.each_inv | with_reducible apply foldl_inv | with_reducible apply Lane.Inv.id | with_reducible apply Lane.Inv.regs | with_reducible apply Lane.Inv.sram | with_reducible apply Lane.Inv.store | with_reducible apply Tab.wf_filter | with_reducible apply Tab.wf_foldl | with_reducible apply Tab.wf_put | with_reducible apply Tab.wf_graft | with_reducible apply Lane.unpowered_inv | with_reducible apply foldl_pair_inv | split

theorem Lane.indexLoad_inv {l : LaneId} (n : Fin 2) {L : Lane} (hL : L.Inv l) : (Lane.indexLoad n L).Inv l := by
  unfold Lane.indexLoad
  try dsimp only
  repeat' first | with_reducible assumption | (intro _ _ _) | (intro _ _) | with_reducible apply Lane.onQe_inv | with_reducible apply Lane.set1_inv | with_reducible apply Lane.wr_inv | with_reducible apply ite_inv | with_reducible apply Lane.unpowered_id_inv | with_reducible apply Lane.when_inv

theorem Lane.indexCheck_inv {l : LaneId} (n : Fin 2) {L : Lane} (hL : L.Inv l) : (Lane.indexCheck n L).Inv l := by
  unfold Lane.indexCheck
  try dsimp only
  repeat' first | with_reducible assumption | (intro _ _ _) | (intro _ _) | with_reducible apply Lane.qeFail_inv | with_reducible apply Lane.set1_inv | with_reducible apply Lane.wr_inv | with_reducible apply ite_inv | with_reducible apply Lane.unpowered_id_inv | with_reducible apply Lane.when_inv

theorem Lane.indexEdge_inv {l : LaneId} (n : Fin 2) (a b : Bool) {L : Lane} (hL : L.Inv l) : (Lane.indexEdge n a b L).Inv l := by
  unfold Lane.indexEdge
  try dsimp only
  repeat' first | with_reducible assumption | (intro _ _ _) | (intro _ _) | with_reducible apply Lane.indexCheck_inv | with_reducible apply Lane.indexLoad_inv | with_reducible apply Lane.onQe_inv | with_reducible apply Lane.irq_inv | with_reducible apply Lane.set1_inv | with_reducible apply ite_inv | with_reducible apply Lane.unpowered_id_inv | with_reducible apply Lane.when_inv | with_reducible apply Lane.each_inv | with_reducible apply foldl_inv | with_reducible apply Lane.Inv.id | with_reducible apply Lane.Inv.regs | with_reducible apply Lane.Inv.sram | with_reducible apply Lane.Inv.store | with_reducible apply Tab.wf_filter | with_reducible apply Tab.wf_foldl | with_reducible apply Tab.wf_put | with_reducible apply Tab.wf_graft | with_reducible apply Lane.unpowered_inv | with_reducible apply foldl_pair_inv | split

theorem Lane.qeEval_inv {l : LaneId} (n : Fin 2) {L : Lane} (hL : L.Inv l) : (Lane.qeEval n L).Inv l := by
  unfold Lane.qeEval
  try dsimp only
  repeat' first | with_reducible assumption | (intro _ _ _) | (intro _ _) | with_reducible apply Lane.wr_inv

theorem Lane.onRs_inv {l : LaneId} (g : ResolverSt → ResolverSt) {L : Lane} (hL : L.Inv l) : (Lane.onRs g L).Inv l := by
  unfold Lane.onRs
  try dsimp only
  repeat' first | with_reducible assumption | (intro _ _ _) | (intro _ _) | with_reducible apply ite_inv | with_reducible apply Lane.unpowered_id_inv | with_reducible apply Lane.when_inv | with_reducible apply Lane.each_inv | with_reducible apply foldl_inv | with_reducible apply Lane.Inv.id | with_reducible apply Lane.Inv.regs | with_reducible apply Lane.Inv.sram | with_reducible apply Lane.Inv.store | with_reducible apply Tab.wf_filter | with_reducible apply Tab.wf_foldl | with_reducible apply Tab.wf_put | with_reducible apply Tab.wf_graft | with_reducible apply Lane.unpowered_inv | with_reducible apply foldl_pair_inv | split | (simp only [Lane.mk_inv]; refine ⟨?_, ?_, ?_, ?_⟩)

theorem Lane.rsFail_inv {l : LaneId}  {L : Lane} (hL : L.Inv l) : (Lane.rsFail  L).Inv l := by
  unfold Lane.rsFail
  try dsimp only
  repeat' first | with_reducible assumption | (intro _ _ _) | (intro _ _) | with_reducible apply Lane.srcFails_inv | with_reducible apply Lane.set1_inv | with_reducible apply ite_inv

theorem Lane.rsSample_inv {l : LaneId} (s c : Int) {L : Lane} (hL : L.Inv l) : (Lane.rsSample s c L).Inv l := by
  unfold Lane.rsSample
  try dsimp only
  repeat' first | with_reducible assumption | (intro _ _ _) | (intro _ _) | with_reducible apply Lane.rsFail_inv | with_reducible apply Lane.onRs_inv | with_reducible apply Lane.run_inv | with_reducible apply Lane.drawn_inv | with_reducible apply Lane.set1_inv | with_reducible apply Lane.wr_inv | with_reducible apply ite_inv | with_reducible apply Lane.unpowered_id_inv | with_reducible apply Lane.when_inv

theorem Lane.onVp_inv {l : LaneId} (p : Port) (g : VotePos → VotePos) {L : Lane} (hL : L.Inv l) : (Lane.onVp p g L).Inv l := by
  unfold Lane.onVp
  try dsimp only
  repeat' first | with_reducible assumption | (intro _ _ _) | (intro _ _) | with_reducible apply ite_inv | with_reducible apply Lane.unpowered_id_inv | with_reducible apply Lane.when_inv | with_reducible apply Lane.each_inv | with_reducible apply foldl_inv | with_reducible apply Lane.Inv.id | with_reducible apply Lane.Inv.regs | with_reducible apply Lane.Inv.sram | with_reducible apply Lane.Inv.store | with_reducible apply Tab.wf_filter | with_reducible apply Tab.wf_foldl | with_reducible apply Tab.wf_put | with_reducible apply Tab.wf_graft | with_reducible apply Lane.unpowered_inv | with_reducible apply foldl_pair_inv | split | (simp only [Lane.mk_inv]; refine ⟨?_, ?_, ?_, ?_⟩)

theorem Lane.capture_inv {l : LaneId} (p : Port) {L : Lane} (hL : L.Inv l) : (Lane.capture p L).Inv l := by
  unfold Lane.capture
  try dsimp only
  repeat' first | with_reducible assumption | (intro _ _ _) | (intro _ _) | with_reducible apply Lane.onVp_inv | with_reducible apply Lane.qeEval_inv | with_reducible apply Lane.send_inv | with_reducible apply ite_inv | with_reducible apply Lane.unpowered_id_inv | with_reducible apply Lane.when_inv | with_reducible apply Lane.each_inv | with_reducible apply foldl_inv | with_reducible apply Lane.Inv.id | with_reducible apply Lane.Inv.regs | with_reducible apply Lane.Inv.sram | with_reducible apply Lane.Inv.store | with_reducible apply Tab.wf_filter | with_reducible apply Tab.wf_foldl | with_reducible apply Tab.wf_put | with_reducible apply Tab.wf_graft | with_reducible apply Lane.unpowered_inv | with_reducible apply foldl_pair_inv | split

theorem Lane.sensorRx_inv {l : LaneId} (s : Side) (f : SensorFrame) {L : Lane} (hL : L.Inv l) : (Lane.sensorRx s f L).Inv l := by
  unfold Lane.sensorRx
  try dsimp only
  repeat' first | with_reducible assumption | (intro _ _ _) | (intro _ _) | with_reducible apply Lane.onVp_inv | with_reducible apply Lane.wr_inv | with_reducible apply ite_inv | with_reducible apply Lane.unpowered_id_inv | with_reducible apply Lane.when_inv | with_reducible apply Lane.each_inv | with_reducible apply foldl_inv | with_reducible apply Lane.Inv.id | with_reducible apply Lane.Inv.regs | with_reducible apply Lane.Inv.sram | with_reducible apply Lane.Inv.store | with_reducible apply Tab.wf_filter | with_reducible apply Tab.wf_foldl | with_reducible apply Tab.wf_put | with_reducible apply Tab.wf_graft | with_reducible apply Lane.unpowered_inv | with_reducible apply foldl_pair_inv | split

theorem Lane.sentAccept_inv {l : LaneId} (s : Fin 2) (status : Nat) (data : List Nat) {L : Lane} (hL : L.Inv l) : (Lane.sentAccept s status data L).Inv l := by
  unfold Lane.sentAccept
  try dsimp only
  repeat' first | with_reducible assumption | (intro _ _ _) | (intro _ _) | with_reducible apply Lane.send_inv | with_reducible apply Lane.irq_inv | with_reducible apply Lane.restart_inv | with_reducible apply Lane.clr_inv | with_reducible apply Lane.set1_inv | with_reducible apply Lane.wr_inv | with_reducible apply ite_inv | with_reducible apply Lane.unpowered_id_inv | with_reducible apply Lane.when_inv | with_reducible apply Lane.each_inv | with_reducible apply foldl_inv | with_reducible apply Lane.Inv.id | with_reducible apply Lane.Inv.regs | with_reducible apply Lane.Inv.sram | with_reducible apply Lane.Inv.store | with_reducible apply Tab.wf_filter | with_reducible apply Tab.wf_foldl | with_reducible apply Tab.wf_put | with_reducible apply Tab.wf_graft | with_reducible apply Lane.unpowered_inv | with_reducible apply foldl_pair_inv | split | (simp only [Lane.mk_inv]; refine ⟨?_, ?_, ?_, ?_⟩)

theorem Lane.sentRx_inv {l : LaneId} (s : Fin 2) (f : SentFrame) {L : Lane} (hL : L.Inv l) : (Lane.sentRx s f L).Inv l := by
  unfold Lane.sentRx
  try dsimp only
  repeat' first | with_reducible assumption | (intro _ _ _) | (intro _ _) | with_reducible apply Lane.sentAccept_inv | with_reducible apply Lane.count_inv | with_reducible apply Lane.set1_inv | with_reducible apply ite_inv | with_reducible apply Lane.unpowered_id_inv | with_reducible apply Lane.when_inv | with_reducible apply Lane.each_inv | with_reducible apply foldl_inv | with_reducible apply Lane.Inv.id | with_reducible apply Lane.Inv.regs | with_reducible apply Lane.Inv.sram | with_reducible apply Lane.Inv.store | with_reducible apply Tab.wf_filter | with_reducible apply Tab.wf_foldl | with_reducible apply Tab.wf_put | with_reducible apply Tab.wf_graft | with_reducible apply Lane.unpowered_inv | with_reducible apply foldl_pair_inv | split | (simp only [Lane.mk_inv]; refine ⟨?_, ?_, ?_, ?_⟩)

theorem Lane.commutate_inv {l : LaneId} (p : Port) (a : Word) {L : Lane} (hL : L.Inv l) : (Lane.commutate p a L).Inv l := by
  unfold Lane.commutate
  try dsimp only
  repeat' first | with_reducible assumption | (intro _ _ _) | (intro _ _) | with_reducible apply Lane.onVp_inv | with_reducible apply Lane.countMod_inv | with_reducible apply Lane.wr_inv | with_reducible apply ite_inv

theorem Lane.votePort_inv {l : LaneId} (p : Port) {L : Lane} (hL : L.Inv l) : (Lane.votePort p L).Inv l := by
  unfold Lane.votePort
  try dsimp only
  repeat' first | with_reducible assumption | (intro _ _ _) | (intro _ _) | with_reducible apply Lane.commutate_inv | with_reducible apply Lane.onVp_inv | with_reducible apply Lane.sensorLoss_inv | with_reducible apply Lane.raise_inv | with_reducible apply Lane.fire_inv | with_reducible apply Lane.count_inv | with_reducible apply Lane.set1_inv | with_reducible apply Lane.wr_inv | with_reducible apply ite_inv | with_reducible apply Lane.unpowered_id_inv | with_reducible apply Lane.when_inv

end Sys2Proof.Machine
end

