-- ==== Sys2Proof/Laws/InvMotor.lean ====
section
/-! SUPPORT. The operations of Machine/Motor.lean keep the invariant of a lane. -/

namespace Sys2Proof.Machine

theorem Lane.setMot_inv {l : LaneId} (p : Port) (v : Nat) {L : Lane} (hL : L.Inv l) : (Lane.setMot p v L).Inv l := by
  unfold Lane.setMot
  try dsimp only
  repeat' first | with_reducible assumption | (intro _ _ _) | (intro _ _) | with_reducible apply Lane.wr_inv

theorem Lane.writeDown_inv {l : LaneId} (p : Port) {L : Lane} (hL : L.Inv l) : (Lane.writeDown p L).Inv l := by
  unfold Lane.writeDown
  try dsimp only
  repeat' first | with_reducible assumption | (intro _ _ _) | (intro _ _) | with_reducible apply Lane.onDe_inv

theorem Lane.judgeReversal_inv {l : LaneId} (p : Port) {L : Lane} (hL : L.Inv l) : (Lane.judgeReversal p L).Inv l := by
  unfold Lane.judgeReversal
  try dsimp only
  repeat' first | with_reducible assumption | (intro _ _ _) | (intro _ _) | with_reducible apply Lane.onMot_inv | with_reducible apply Lane.count_inv | with_reducible apply Lane.set1_inv | with_reducible apply Lane.wr_inv | with_reducible apply ite_inv

theorem Lane.newCatch_inv {l : LaneId} (p : Port) {L : Lane} (hL : L.Inv l) : (Lane.newCatch p L).Inv l := by
  unfold Lane.newCatch
  try dsimp only
  repeat' first | with_reducible assumption | (intro _ _ _) | (intro _ _) | with_reducible apply Lane.setMot_inv | with_reducible apply Lane.force_inv | with_reducible apply Lane.onMot_inv

theorem Lane.newSync_inv {l : LaneId} (p : Port) {L : Lane} (hL : L.Inv l) : (Lane.newSync p L).Inv l := by
  unfold Lane.newSync
  try dsimp only
  repeat' first | with_reducible assumption | (intro _ _ _) | (intro _ _) | with_reducible apply Lane.setMot_inv | with_reducible apply Lane.force_inv | with_reducible apply Lane.onMot_inv

theorem Lane.motOff_inv {l : LaneId} (p : Port) {L : Lane} (hL : L.Inv l) : (Lane.motOff p L).Inv l := by
  unfold Lane.motOff
  try dsimp only
  repeat' first | with_reducible assumption | (intro _ _ _) | (intro _ _) | with_reducible apply Lane.setMot_inv | with_reducible apply Lane.force_inv | with_reducible apply Lane.onMot_inv

theorem Lane.motFail_inv {l : LaneId} (p : Port) {L : Lane} (hL : L.Inv l) : (Lane.motFail p L).Inv l := by
  unfold Lane.motFail
  try dsimp only
  repeat' first | with_reducible assumption | (intro _ _ _) | (intro _ _) | with_reducible apply Lane.motOff_inv | with_reducible apply Lane.newCatch_inv | with_reducible apply Lane.fire_inv | with_reducible apply Lane.portTurnOff_inv | with_reducible apply Lane.set1_inv | with_reducible apply Lane.wr_inv | with_reducible apply ite_inv

theorem Lane.catchDir_inv {l : LaneId} (p : Port) (u : Vector Word 9) {L : Lane} (hL : L.Inv l) : (Lane.catchDir p u L).Inv l := by
  unfold Lane.catchDir
  try dsimp only
  repeat' first | with_reducible assumption | (intro _ _ _) | (intro _ _) | with_reducible apply Lane.wr_inv | with_reducible apply ite_inv

theorem Lane.evalCatch_inv {l : LaneId} (p : Port) (snap : Option (Vector Word 9)) {L : Lane} (hL : L.Inv l) : (Lane.evalCatch p snap L).Inv l := by
  unfold Lane.evalCatch
  try dsimp only
  repeat' first | with_reducible assumption | (intro _ _ _) | (intro _ _) | with_reducible apply Lane.catchDir_inv | with_reducible apply Lane.motFail_inv | with_reducible apply Lane.newSync_inv | with_reducible apply Lane.newCatch_inv | with_reducible apply Lane.onMot_inv | with_reducible apply Lane.set1_inv | with_reducible apply ite_inv | with_reducible apply Lane.unpowered_id_inv | with_reducible apply Lane.when_inv | with_reducible apply Lane.each_inv | with_reducible apply foldl_inv | with_reducible apply Lane.Inv.id | with_reducible apply Lane.Inv.regs | with_reducible apply Lane.Inv.sram | with_reducible apply Lane.Inv.store | with_reducible apply Tab.wf_filter | with_reducible apply Tab.wf_foldl | with_reducible apply Tab.wf_put | with_reducible apply Tab.wf_graft | with_reducible apply Lane.unpowered_inv | with_reducible apply foldl_pair_inv | split

theorem Lane.evalSync_inv {l : LaneId} (p : Port) (snap : Option (Vector Word 9)) {L : Lane} (hL : L.Inv l) : (Lane.evalSync p snap L).Inv l := by
  unfold Lane.evalSync
  try dsimp only
  repeat' first | with_reducible assumption | (intro _ _ _) | (intro _ _) | with_reducible apply Lane.motFail_inv | with_reducible apply Lane.setMot_inv | with_reducible apply Lane.run_inv | with_reducible apply Lane.joinNotice_inv | with_reducible apply Lane.force_inv | with_reducible apply Lane.onMot_inv | with_reducible apply Lane.wr_inv | with_reducible apply ite_inv | with_reducible apply Lane.unpowered_id_inv | with_reducible apply Lane.when_inv | with_reducible apply Lane.each_inv

theorem Lane.lockedCount_inv {l : LaneId} (p : Port) {L : Lane} (hL : L.Inv l) : (Lane.lockedCount p L).Inv l := by
  unfold Lane.lockedCount
  try dsimp only
  repeat' first | with_reducible assumption | (intro _ _ _) | (intro _ _) | with_reducible apply Lane.lockedRotor_inv | with_reducible apply Lane.stop_inv | with_reducible apply Lane.setTimer_inv | with_reducible apply Lane.wr_inv | with_reducible apply ite_inv | with_reducible apply Lane.unpowered_id_inv | with_reducible apply Lane.when_inv

theorem Lane.evalStall_inv {l : LaneId} (p : Port) {L : Lane} (hL : L.Inv l) : (Lane.evalStall p L).Inv l := by
  unfold Lane.evalStall
  try dsimp only
  repeat' first | with_reducible assumption | (intro _ _ _) | (intro _ _) | with_reducible apply Lane.setMot_inv | with_reducible apply Lane.start1_inv | with_reducible apply Lane.stop_inv | with_reducible apply ite_inv

theorem Lane.motEval_inv {l : LaneId} (p : Port) {L : Lane} (hL : L.Inv l) : (Lane.motEval p L).Inv l := by
  unfold Lane.motEval
  try dsimp only
  repeat' first | with_reducible assumption | (intro _ _ _) | (intro _ _) | with_reducible apply Lane.evalStall_inv | with_reducible apply Lane.lockedCount_inv | with_reducible apply Lane.evalSync_inv | with_reducible apply Lane.evalCatch_inv | with_reducible apply Lane.motOff_inv | with_reducible apply Lane.newCatch_inv | with_reducible apply Lane.setMot_inv | with_reducible apply Lane.force_inv | with_reducible apply Lane.onMot_inv | with_reducible apply Lane.onDe_inv | with_reducible apply Lane.wr_inv | with_reducible apply ite_inv

theorem Lane.lockedRotor_inv {l : LaneId} (p : Port) {L : Lane} (hL : L.Inv l) : (Lane.lockedRotor p L).Inv l := by
  unfold Lane.lockedRotor
  try dsimp only
  repeat' first | with_reducible assumption | (intro _ _ _) | (intro _ _) | with_reducible apply Lane.motOff_inv | with_reducible apply Lane.setMot_inv | with_reducible apply Lane.fire_inv | with_reducible apply Lane.portTurnOff_inv | with_reducible apply Lane.stop_inv | with_reducible apply Lane.set1_inv | with_reducible apply Lane.wr_inv | with_reducible apply ite_inv

end Sys2Proof.Machine
end

