-- ==== Sys2Proof/Laws/InvPwm.lean ====
section
/-! SUPPORT. The operations of Machine/Pwm.lean keep the invariant of a lane. -/

namespace Sys2Proof.Machine

theorem Lane.restoredAutumn_inv {l : LaneId} (f : Func) {L : Lane} (hL : L.Inv l) : (Lane.restoredAutumn f L).Inv l := by
  unfold Lane.restoredAutumn
  try dsimp only
  repeat' first | with_reducible assumption | (intro _ _ _) | (intro _ _) | with_reducible apply Lane.winter_inv | with_reducible apply Lane.autumn_inv | with_reducible apply Lane.enterAutumn_inv | with_reducible apply Lane.setTimer_inv | with_reducible apply ite_inv | with_reducible apply Lane.unpowered_id_inv | with_reducible apply Lane.when_inv

theorem Lane.joinRole_inv {l : LaneId} (f : Func) {L : Lane} (hL : L.Inv l) : (Lane.joinRole f L).Inv l := by
  unfold Lane.joinRole
  try dsimp only
  repeat' first | with_reducible assumption | (intro _ _ _) | (intro _ _) | with_reducible apply Lane.setOwnRole_inv | with_reducible apply Lane.wr_inv | with_reducible apply ite_inv

theorem Lane.enterService_inv {l : LaneId}  {L : Lane} (hL : L.Inv l) : (Lane.enterService  L).Inv l := by
  unfold Lane.enterService
  try dsimp only
  repeat' first | with_reducible assumption | (intro _ _ _) | (intro _ _) | with_reducible apply Lane.joinRole_inv | with_reducible apply Lane.restoredAutumn_inv | with_reducible apply Lane.autumn_inv | with_reducible apply Lane.settleSvc_inv | with_reducible apply Lane.setSvc_inv | with_reducible apply ite_inv | with_reducible apply Lane.unpowered_id_inv | with_reducible apply Lane.when_inv | with_reducible apply Lane.each_inv

theorem Lane.latchFn_inv {l : LaneId} (n : Engine) (f : Func) {L : Lane} (hL : L.Inv l) : (Lane.latchFn n f L).Inv l := by
  unfold Lane.latchFn
  try dsimp only
  repeat' first | with_reducible assumption | (intro _ _ _) | (intro _ _) | with_reducible apply Lane.onDe_inv | with_reducible apply Lane.restart_inv | with_reducible apply ite_inv | with_reducible apply Lane.unpowered_id_inv | with_reducible apply Lane.when_inv | with_reducible apply Lane.each_inv | with_reducible apply foldl_inv | with_reducible apply Lane.Inv.id | with_reducible apply Lane.Inv.regs | with_reducible apply Lane.Inv.sram | with_reducible apply Lane.Inv.store | with_reducible apply Tab.wf_filter | with_reducible apply Tab.wf_foldl | with_reducible apply Tab.wf_put | with_reducible apply Tab.wf_graft | with_reducible apply Lane.unpowered_inv | with_reducible apply foldl_pair_inv | split

theorem Lane.latch_inv {l : LaneId} (n : Engine) {L : Lane} (hL : L.Inv l) : (Lane.latch n L).Inv l := by
  unfold Lane.latch
  try dsimp only
  repeat' first | with_reducible assumption | (intro _ _ _) | (intro _ _) | with_reducible apply Lane.latchFn_inv | with_reducible apply Lane.raise_inv | with_reducible apply ite_inv | with_reducible apply Lane.unpowered_id_inv | with_reducible apply Lane.when_inv | with_reducible apply Lane.each_inv

theorem Lane.loadPoint_inv {l : LaneId} (n : Engine) (peak : Bool) {L : Lane} (hL : L.Inv l) : (Lane.loadPoint n peak L).Inv l := by
  unfold Lane.loadPoint
  try dsimp only
  repeat' first | with_reducible assumption | (intro _ _ _) | (intro _ _) | with_reducible apply Lane.peak_inv | with_reducible apply Lane.run_inv | with_reducible apply Lane.halt_inv | with_reducible apply Lane.onDe_inv | with_reducible apply Lane.count_inv | with_reducible apply ite_inv | with_reducible apply Lane.unpowered_id_inv | with_reducible apply Lane.when_inv

theorem Lane.periodEnds_inv {l : LaneId} (p : Port) {L : Lane} (hL : L.Inv l) : (Lane.periodEnds p L).Inv l := by
  unfold Lane.periodEnds
  try dsimp only
  repeat' first | with_reducible assumption | (intro _ _ _) | (intro _ _) | with_reducible apply Lane.force_inv | with_reducible apply Lane.onMot_inv | with_reducible apply Lane.onDe_inv

theorem Lane.lockCarrier_inv {l : LaneId} (n : Engine) (t : Int) {L : Lane} (hL : L.Inv l) : (Lane.lockCarrier n t L).Inv l := by
  unfold Lane.lockCarrier
  try dsimp only
  repeat' first | with_reducible assumption | (intro _ _ _) | (intro _ _) | with_reducible apply Lane.onDe_inv | with_reducible apply Lane.wr_inv

theorem Lane.adcTrigger_inv {l : LaneId} (n : Engine) (edge : Nat) (t : Int) {L : Lane} (hL : L.Inv l) : (Lane.adcTrigger n edge t L).Inv l := by
  unfold Lane.adcTrigger
  try dsimp only
  repeat' first | with_reducible assumption | (intro _ _ _) | (intro _ _) | with_reducible apply ite_inv | with_reducible apply Lane.unpowered_id_inv | with_reducible apply Lane.when_inv | with_reducible apply Lane.each_inv | with_reducible apply foldl_inv | with_reducible apply Lane.Inv.id | with_reducible apply Lane.Inv.regs | with_reducible apply Lane.Inv.sram | with_reducible apply Lane.Inv.store | with_reducible apply Tab.wf_filter | with_reducible apply Tab.wf_foldl | with_reducible apply Tab.wf_put | with_reducible apply Tab.wf_graft | with_reducible apply Lane.unpowered_inv | with_reducible apply foldl_pair_inv | split | (simp only [Lane.mk_inv]; refine ⟨?_, ?_, ?_, ?_⟩)

theorem Lane.judgeHalf_inv {l : LaneId} (p : Port) (k : Fin 4) {L : Lane} (hL : L.Inv l) : (Lane.judgeHalf p k L).Inv l := by
  unfold Lane.judgeHalf
  try dsimp only
  repeat' first | with_reducible assumption | (intro _ _ _) | (intro _ _) | with_reducible apply Lane.run_inv | with_reducible apply Lane.fire_inv | with_reducible apply Lane.count_inv | with_reducible apply Lane.set1_inv | with_reducible apply ite_inv | with_reducible apply Lane.unpowered_id_inv | with_reducible apply Lane.when_inv | with_reducible apply Lane.each_inv | with_reducible apply foldl_inv | with_reducible apply Lane.Inv.id | with_reducible apply Lane.Inv.regs | with_reducible apply Lane.Inv.sram | with_reducible apply Lane.Inv.store | with_reducible apply Tab.wf_filter | with_reducible apply Tab.wf_foldl | with_reducible apply Tab.wf_put | with_reducible apply Tab.wf_graft | with_reducible apply Lane.unpowered_inv | with_reducible apply foldl_pair_inv | split | (simp only [Lane.mk_inv]; refine ⟨?_, ?_, ?_, ?_⟩)

theorem Lane.halfEnds_inv {l : LaneId} (p : Port) (k : Fin 4) {L : Lane} (hL : L.Inv l) : (Lane.halfEnds p k L).Inv l := by
  unfold Lane.halfEnds
  try dsimp only
  repeat' first | with_reducible assumption | (intro _ _ _) | (intro _ _) | with_reducible apply Lane.judgeHalf_inv | with_reducible apply ite_inv | with_reducible apply Lane.unpowered_id_inv | with_reducible apply Lane.when_inv

theorem Lane.portStart_inv {l : LaneId} (n : Engine) (p : Port) {L : Lane} (hL : L.Inv l) : (Lane.portStart n p L).Inv l := by
  unfold Lane.portStart
  try dsimp only
  repeat' first | with_reducible assumption | (intro _ _ _) | (intro _ _) | with_reducible apply Lane.loadPoint_inv | with_reducible apply Lane.capture_inv | with_reducible apply Lane.onDe_inv | with_reducible apply ite_inv | with_reducible apply Lane.unpowered_id_inv | with_reducible apply Lane.when_inv | with_reducible apply Lane.each_inv | with_reducible apply foldl_inv | with_reducible apply Lane.Inv.id | with_reducible apply Lane.Inv.regs | with_reducible apply Lane.Inv.sram | with_reducible apply Lane.Inv.store | with_reducible apply Tab.wf_filter | with_reducible apply Tab.wf_foldl | with_reducible apply Tab.wf_put | with_reducible apply Tab.wf_graft | with_reducible apply Lane.unpowered_inv | with_reducible apply foldl_pair_inv | split | (simp only [Lane.mk_inv]; refine ⟨?_, ?_, ?_, ?_⟩)

theorem Lane.portLatch_inv {l : LaneId} (p : Port) {L : Lane} (hL : L.Inv l) : (Lane.portLatch p L).Inv l := by
  unfold Lane.portLatch
  try dsimp only
  repeat' first | with_reducible assumption | (intro _ _ _) | (intro _ _) | with_reducible apply Lane.judgeReversal_inv | with_reducible apply Lane.writeDown_inv | with_reducible apply Lane.wr_inv

theorem Lane.periodStart_inv {l : LaneId} (n : Engine) {L : Lane} (hL : L.Inv l) : (Lane.periodStart n L).Inv l := by
  unfold Lane.periodStart
  try dsimp only
  repeat' first | with_reducible assumption | (intro _ _ _) | (intro _ _) | with_reducible apply Lane.portLatch_inv | with_reducible apply Lane.portStart_inv | with_reducible apply Lane.halfEnds_inv | with_reducible apply Lane.adcTrigger_inv | with_reducible apply Lane.lockCarrier_inv | with_reducible apply Lane.periodEnds_inv | with_reducible apply Lane.latch_inv | with_reducible apply Lane.enterService_inv | with_reducible apply Lane.raise_inv | with_reducible apply Lane.gateFollowAll_inv | with_reducible apply ite_inv | with_reducible apply Lane.unpowered_id_inv | with_reducible apply Lane.when_inv | with_reducible apply Lane.each_inv

theorem Lane.peak_inv {l : LaneId} (n : Engine) {L : Lane} (hL : L.Inv l) : (Lane.peak n L).Inv l := by
  unfold Lane.peak
  try dsimp only
  repeat' first | with_reducible assumption | (intro _ _ _) | (intro _ _) | with_reducible apply Lane.halfEnds_inv | with_reducible apply Lane.adcTrigger_inv | with_reducible apply Lane.loadPoint_inv | with_reducible apply Lane.raise_inv | with_reducible apply Lane.gateFollowAll_inv | with_reducible apply Lane.onDe_inv | with_reducible apply ite_inv | with_reducible apply Lane.unpowered_id_inv | with_reducible apply Lane.when_inv | with_reducible apply Lane.each_inv

end Sys2Proof.Machine
end

