-- ==== Sys2Proof/Laws/InvGate.lean ====
section
/-! SUPPORT. The operations of Machine/Gate.lean keep the invariant of a lane. -/

namespace Sys2Proof.Machine

theorem Lane.ascAll_inv {l : LaneId}  {L : Lane} (hL : L.Inv l) : (Lane.ascAll  L).Inv l := by
  unfold Lane.ascAll
  try dsimp only
  repeat' first | with_reducible assumption | (intro _ _ _) | (intro _ _) | with_reducible apply Lane.asc_inv | with_reducible apply ite_inv | with_reducible apply Lane.unpowered_id_inv | with_reducible apply Lane.when_inv | with_reducible apply Lane.each_inv

theorem Lane.ovCaseC_inv {l : LaneId}  {L : Lane} (hL : L.Inv l) : (Lane.ovCaseC  L).Inv l := by
  unfold Lane.ovCaseC
  try dsimp only
  repeat' first | with_reducible assumption | (intro _ _ _) | (intro _ _) | with_reducible apply Lane.ascAll_inv | with_reducible apply ite_inv | with_reducible apply Lane.unpowered_id_inv | with_reducible apply Lane.when_inv

theorem Lane.chopFSet_inv {l : LaneId}  {L : Lane} (hL : L.Inv l) : (Lane.chopFSet  L).Inv l := by
  unfold Lane.chopFSet
  try dsimp only
  repeat' first | with_reducible assumption | (intro _ _ _) | (intro _ _) | with_reducible apply Lane.ovCaseC_inv | with_reducible apply Lane.ascAll_inv | with_reducible apply ite_inv

theorem Lane.turnOffLane_inv {l : LaneId}  {L : Lane} (hL : L.Inv l) : (Lane.turnOffLane  L).Inv l := by
  unfold Lane.turnOffLane
  try dsimp only
  repeat' first | with_reducible assumption | (intro _ _ _) | (intro _ _) | with_reducible apply Lane.ovCaseC_inv | with_reducible apply Lane.laneTurnOff_inv

theorem Lane.exclude_inv {l : LaneId} (p : Port) {L : Lane} (hL : L.Inv l) : (Lane.exclude p L).Inv l := by
  unfold Lane.exclude
  try dsimp only
  repeat' first | with_reducible assumption | (intro _ _ _) | (intro _ _) | with_reducible apply Lane.onGate_inv

theorem Lane.leaveAsc_inv {l : LaneId} (p : Port) {L : Lane} (hL : L.Inv l) : (Lane.leaveAsc p L).Inv l := by
  unfold Lane.leaveAsc
  try dsimp only
  repeat' first | with_reducible assumption | (intro _ _ _) | (intro _ _) | with_reducible apply Lane.fire_inv | with_reducible apply Lane.stage1_inv | with_reducible apply Lane.gateFollowAll_inv | with_reducible apply Lane.onGate_inv | with_reducible apply Lane.restart_inv | with_reducible apply Lane.stop_inv | with_reducible apply Lane.wrBit_inv | with_reducible apply ite_inv | with_reducible apply Lane.unpowered_id_inv | with_reducible apply Lane.when_inv | with_reducible apply Lane.each_inv

theorem Lane.tripPort_inv {l : LaneId} (p : Port) (leaves : Bool) {L : Lane} (hL : L.Inv l) : (Lane.tripPort p leaves L).Inv l := by
  unfold Lane.tripPort
  try dsimp only
  repeat' first | with_reducible assumption | (intro _ _ _) | (intro _ _) | with_reducible apply Lane.leaveAsc_inv | with_reducible apply Lane.exclude_inv | with_reducible apply Lane.turnOffLane_inv | with_reducible apply ite_inv | with_reducible apply Lane.unpowered_id_inv | with_reducible apply Lane.when_inv

theorem Lane.desat_inv {l : LaneId} (b : Fin 18) {L : Lane} (hL : L.Inv l) : (Lane.desat b L).Inv l := by
  unfold Lane.desat
  try dsimp only
  repeat' first | with_reducible assumption | (intro _ _ _) | (intro _ _) | with_reducible apply Lane.tripPort_inv | with_reducible apply Lane.fire_inv | with_reducible apply Lane.gateFollowAll_inv | with_reducible apply Lane.wrBit_inv | with_reducible apply ite_inv | with_reducible apply Lane.unpowered_id_inv | with_reducible apply Lane.when_inv

theorem Lane.foc_inv {l : LaneId} (p : Port) {L : Lane} (hL : L.Inv l) : (Lane.foc p L).Inv l := by
  unfold Lane.foc
  try dsimp only
  repeat' first | with_reducible assumption | (intro _ _ _) | (intro _ _) | with_reducible apply Lane.tripPort_inv | with_reducible apply Lane.fire_inv | with_reducible apply Lane.wrBit_inv

theorem Lane.vgdFall_inv {l : LaneId} (p : Port) {L : Lane} (hL : L.Inv l) : (Lane.vgdFall p L).Inv l := by
  unfold Lane.vgdFall
  try dsimp only
  repeat' first | with_reducible assumption | (intro _ _ _) | (intro _ _) | with_reducible apply Lane.tripPort_inv | with_reducible apply Lane.grants_inv | with_reducible apply Lane.fire_inv | with_reducible apply Lane.wrBit_inv | with_reducible apply ite_inv | with_reducible apply Lane.unpowered_id_inv | with_reducible apply Lane.when_inv

theorem Lane.bstFall_inv {l : LaneId} (b : Fin 9) {L : Lane} (hL : L.Inv l) : (Lane.bstFall b L).Inv l := by
  unfold Lane.bstFall
  try dsimp only
  repeat' first | with_reducible assumption | (intro _ _ _) | (intro _ _) | with_reducible apply Lane.turnOffLane_inv | with_reducible apply Lane.fire_inv | with_reducible apply Lane.wrBit_inv | with_reducible apply ite_inv | with_reducible apply Lane.unpowered_id_inv | with_reducible apply Lane.when_inv

theorem Lane.bstRise_inv {l : LaneId} (b : Fin 9) {L : Lane} (hL : L.Inv l) : (Lane.bstRise b L).Inv l := by
  unfold Lane.bstRise
  try dsimp only
  repeat' first | with_reducible assumption | (intro _ _ _) | (intro _ _) | with_reducible apply Lane.wrBit_inv | with_reducible apply ite_inv | with_reducible apply Lane.unpowered_id_inv | with_reducible apply Lane.when_inv

theorem Lane.stageEnd_inv {l : LaneId} (b : Fin 18) {L : Lane} (hL : L.Inv l) : (Lane.stageEnd b L).Inv l := by
  unfold Lane.stageEnd
  try dsimp only
  repeat' first | with_reducible assumption | (intro _ _ _) | (intro _ _) | with_reducible apply Lane.stage1_inv | with_reducible apply Lane.onGate_inv | with_reducible apply Lane.restart_inv | with_reducible apply ite_inv | with_reducible apply Lane.unpowered_id_inv | with_reducible apply Lane.when_inv

theorem Lane.ascLowSides_inv {l : LaneId} (p : Port) {L : Lane} (hL : L.Inv l) : (Lane.ascLowSides p L).Inv l := by
  unfold Lane.ascLowSides
  try dsimp only
  repeat' first | with_reducible assumption | (intro _ _ _) | (intro _ _) | with_reducible apply Lane.switchFree_inv | with_reducible apply Lane.gateFollowAll_inv | with_reducible apply Lane.onGate_inv | with_reducible apply Lane.restart_inv | with_reducible apply Lane.stop_inv | with_reducible apply ite_inv | with_reducible apply Lane.unpowered_id_inv | with_reducible apply Lane.when_inv | with_reducible apply Lane.each_inv

theorem Lane.ovTrip_inv {l : LaneId}  {L : Lane} (hL : L.Inv l) : (Lane.ovTrip  L).Inv l := by
  unfold Lane.ovTrip
  try dsimp only
  repeat' first | with_reducible assumption | (intro _ _ _) | (intro _ _) | with_reducible apply Lane.turnOffLane_inv | with_reducible apply Lane.ascAll_inv | with_reducible apply Lane.fire_inv | with_reducible apply Lane.onGate_inv | with_reducible apply Lane.set1_inv | with_reducible apply ite_inv

theorem Lane.ovAsc_inv {l : LaneId}  {L : Lane} (hL : L.Inv l) : (Lane.ovAsc  L).Inv l := by
  unfold Lane.ovAsc
  try dsimp only
  repeat' first | with_reducible assumption | (intro _ _ _) | (intro _ _) | with_reducible apply Lane.ovCaseC_inv | with_reducible apply Lane.onGate_inv

theorem Lane.chopCheck_inv {l : LaneId} (bci : Nat) {L : Lane} (hL : L.Inv l) : (Lane.chopCheck bci L).Inv l := by
  unfold Lane.chopCheck
  try dsimp only
  repeat' first | with_reducible assumption | (intro _ _ _) | (intro _ _) | with_reducible apply Lane.chopFSet_inv | with_reducible apply Lane.enterWinter_inv | with_reducible apply Lane.fire_inv | with_reducible apply Lane.set1_inv | with_reducible apply Lane.wr_inv | with_reducible apply ite_inv

theorem Lane.svTrip_inv {l : LaneId} (sv : Fin 4) {L : Lane} (hL : L.Inv l) : (Lane.svTrip sv L).Inv l := by
  unfold Lane.svTrip
  try dsimp only
  repeat' first | with_reducible assumption | (intro _ _ _) | (intro _ _) | with_reducible apply Lane.fire_inv | with_reducible apply Lane.svApplyAll_inv | with_reducible apply Lane.onSv_inv | with_reducible apply Lane.restart_inv | with_reducible apply Lane.set1_inv | with_reducible apply ite_inv | with_reducible apply Lane.unpowered_id_inv | with_reducible apply Lane.when_inv

theorem Lane.testStart_inv {l : LaneId}  {L : Lane} (hL : L.Inv l) : (Lane.testStart  L).Inv l := by
  unfold Lane.testStart
  try dsimp only
  repeat' first | with_reducible assumption | (intro _ _ _) | (intro _ _) | with_reducible apply Lane.grants_inv | with_reducible apply Lane.chopApply_inv | with_reducible apply Lane.onGate_inv | with_reducible apply Lane.set1_inv | with_reducible apply Lane.wr_inv | with_reducible apply ite_inv

theorem Lane.testDone_inv {l : LaneId} (res0 res1 : Nat) {L : Lane} (hL : L.Inv l) : (Lane.testDone res0 res1 L).Inv l := by
  unfold Lane.testDone
  try dsimp only
  repeat' first | with_reducible assumption | (intro _ _ _) | (intro _ _) | with_reducible apply Lane.grants_inv | with_reducible apply Lane.fire_inv | with_reducible apply Lane.chopApply_inv | with_reducible apply Lane.onGate_inv | with_reducible apply Lane.clr_inv | with_reducible apply Lane.wr_inv | with_reducible apply ite_inv | with_reducible apply Lane.unpowered_id_inv | with_reducible apply Lane.when_inv

theorem Lane.zStart_inv {l : LaneId} (linkOk : Bool) {L : Lane} (hL : L.Inv l) : (Lane.zStart linkOk L).Inv l := by
  unfold Lane.zStart
  try dsimp only
  repeat' first | with_reducible assumption | (intro _ _ _) | (intro _ _) | with_reducible apply Lane.grants_inv | with_reducible apply Lane.onGate_inv | with_reducible apply Lane.set1_inv | with_reducible apply ite_inv | with_reducible apply Lane.unpowered_id_inv | with_reducible apply Lane.when_inv | with_reducible apply Lane.each_inv | with_reducible apply foldl_inv | with_reducible apply Lane.Inv.id | with_reducible apply Lane.Inv.regs | with_reducible apply Lane.Inv.sram | with_reducible apply Lane.Inv.store | with_reducible apply Tab.wf_filter | with_reducible apply Tab.wf_foldl | with_reducible apply Tab.wf_put | with_reducible apply Tab.wf_graft | with_reducible apply Lane.unpowered_inv | with_reducible apply foldl_pair_inv | split

theorem Lane.zDone_inv {l : LaneId} (u v w : ZReading) {L : Lane} (hL : L.Inv l) : (Lane.zDone u v w L).Inv l := by
  unfold Lane.zDone
  try dsimp only
  repeat' first | with_reducible assumption | (intro _ _ _) | (intro _ _) | with_reducible apply Lane.grants_inv | with_reducible apply Lane.onGate_inv | with_reducible apply Lane.clr_inv | with_reducible apply Lane.wr_inv

end Sys2Proof.Machine
end

