-- ==== Sys2Proof/Laws/InvGuard.lean ====
section
/-! SUPPORT. The operations of Machine/Guard.lean keep the invariant of a lane. -/

namespace Sys2Proof.Machine

theorem Lane.guardRise_inv {l : LaneId}  {L : Lane} (hL : L.Inv l) : (Lane.guardRise  L).Inv l := by
  unfold Lane.guardRise
  try dsimp only
  repeat' first | with_reducible assumption | (intro _ _ _) | (intro _ _) | with_reducible apply Lane.loadFields_inv | with_reducible apply Lane.forced_inv | with_reducible apply Lane.watchContactors_inv | with_reducible apply Lane.svApplyAll_inv | with_reducible apply Lane.chopApply_inv | with_reducible apply Lane.onGuard_inv | with_reducible apply Lane.onGate_inv | with_reducible apply Lane.onSv_inv | with_reducible apply Lane.restart_inv | with_reducible apply Lane.stop_inv | with_reducible apply Lane.clr_inv | with_reducible apply ite_inv | with_reducible apply Lane.unpowered_id_inv | with_reducible apply Lane.when_inv | with_reducible apply Lane.each_inv

theorem Lane.guardFall_inv {l : LaneId}  {L : Lane} (hL : L.Inv l) : (Lane.guardFall  L).Inv l := by
  unfold Lane.guardFall
  try dsimp only
  repeat' first | with_reducible assumption | (intro _ _ _) | (intro _ _) | with_reducible apply Lane.loadFields_inv | with_reducible apply Lane.ungrant_inv | with_reducible apply Lane.svApplyAll_inv | with_reducible apply Lane.chopApply_inv | with_reducible apply Lane.gateFollowAll_inv | with_reducible apply Lane.onGuard_inv | with_reducible apply Lane.onGate_inv | with_reducible apply Lane.restart_inv | with_reducible apply Lane.wr_inv | with_reducible apply ite_inv | with_reducible apply Lane.unpowered_id_inv | with_reducible apply Lane.when_inv | with_reducible apply Lane.each_inv

theorem Lane.openAfterDelay_inv {l : LaneId}  {L : Lane} (hL : L.Inv l) : (Lane.openAfterDelay  L).Inv l := by
  unfold Lane.openAfterDelay
  try dsimp only
  repeat' first | with_reducible assumption | (intro _ _ _) | (intro _ _) | with_reducible apply Lane.driveKp_inv | with_reducible apply Lane.driveKm_inv | with_reducible apply ite_inv | with_reducible apply Lane.unpowered_id_inv | with_reducible apply Lane.when_inv

theorem Lane.missed_inv {l : LaneId}  {L : Lane} (hL : L.Inv l) : (Lane.missed  L).Inv l := by
  unfold Lane.missed
  try dsimp only
  repeat' first | with_reducible assumption | (intro _ _ _) | (intro _ _) | with_reducible apply Lane.forced_inv | with_reducible apply Lane.fire_inv | with_reducible apply Lane.count_inv | with_reducible apply Lane.clr_inv | with_reducible apply Lane.set1_inv | with_reducible apply ite_inv

theorem Lane.issue_inv {l : LaneId}  {L : Lane} (hL : L.Inv l) : (Lane.issue  L).Inv l := by
  unfold Lane.issue
  try dsimp only
  repeat' first | with_reducible assumption | (intro _ _ _) | (intro _ _) | with_reducible apply Lane.challenge_inv | with_reducible apply Lane.onGuard_inv | with_reducible apply Lane.drawn_inv | with_reducible apply Lane.restart_inv | with_reducible apply Lane.set1_inv | with_reducible apply ite_inv

theorem Lane.correct_inv {l : LaneId}  {L : Lane} (hL : L.Inv l) : (Lane.correct  L).Inv l := by
  unfold Lane.correct
  try dsimp only
  repeat' first | with_reducible assumption | (intro _ _ _) | (intro _ _) | with_reducible apply Lane.armAdvance_inv | with_reducible apply Lane.onGuard_inv | with_reducible apply Lane.count_inv | with_reducible apply Lane.clr_inv

theorem Lane.judgeAnswer_inv {l : LaneId} (n : Nat) (a : BitVec 16) {L : Lane} (hL : L.Inv l) : (Lane.judgeAnswer n a L).Inv l := by
  unfold Lane.judgeAnswer
  try dsimp only
  repeat' first | with_reducible assumption | (intro _ _ _) | (intro _ _) | with_reducible apply Lane.challenge_inv | with_reducible apply Lane.correct_inv | with_reducible apply Lane.missed_inv | with_reducible apply Lane.set1_inv | with_reducible apply ite_inv

theorem Lane.suspend_inv {l : LaneId}  {L : Lane} (hL : L.Inv l) : (Lane.suspend  L).Inv l := by
  unfold Lane.suspend
  try dsimp only
  repeat' first | with_reducible assumption | (intro _ _ _) | (intro _ _) | with_reducible apply Lane.clr_inv | with_reducible apply Lane.set1_inv

theorem Lane.mismatch_inv {l : LaneId} (kp : Bool) {L : Lane} (hL : L.Inv l) : (Lane.mismatch kp L).Inv l := by
  unfold Lane.mismatch
  try dsimp only
  repeat' first | with_reducible assumption | (intro _ _ _) | (intro _ _) | with_reducible apply Lane.classSK_inv | with_reducible apply Lane.withholdAll_inv | with_reducible apply Lane.forced_inv | with_reducible apply Lane.fire_inv | with_reducible apply Lane.set1_inv | with_reducible apply Lane.wr_inv | with_reducible apply ite_inv

theorem Lane.clockLost_inv {l : LaneId} (flag : Fld) (cause : Nat) {L : Lane} (hL : L.Inv l) : (Lane.clockLost flag cause L).Inv l := by
  unfold Lane.clockLost
  try dsimp only
  repeat' first | with_reducible assumption | (intro _ _ _) | (intro _ _) | with_reducible apply Lane.forced_inv | with_reducible apply Lane.stop_inv | with_reducible apply Lane.clr_inv

theorem Lane.clockBack_inv {l : LaneId} (flag : Fld) {L : Lane} (hL : L.Inv l) : (Lane.clockBack flag L).Inv l := by
  unfold Lane.clockBack
  try dsimp only
  repeat' first | with_reducible assumption | (intro _ _ _) | (intro _ _) | with_reducible apply Lane.start1_inv | with_reducible apply Lane.set1_inv | with_reducible apply ite_inv | with_reducible apply Lane.unpowered_id_inv | with_reducible apply Lane.when_inv

theorem Lane.ckwWindow_inv {l : LaneId} (n : Nat) {L : Lane} (hL : L.Inv l) : (Lane.ckwWindow n L).Inv l := by
  unfold Lane.ckwWindow
  try dsimp only
  repeat' first | with_reducible assumption | (intro _ _ _) | (intro _ _) | with_reducible apply Lane.clockBack_inv | with_reducible apply Lane.clockLost_inv | with_reducible apply Lane.fire_inv | with_reducible apply Lane.onGuard_inv | with_reducible apply Lane.wr_inv | with_reducible apply ite_inv | with_reducible apply Lane.unpowered_id_inv | with_reducible apply Lane.when_inv

theorem Lane.holdDie_inv {l : LaneId}  {L : Lane} (hL : L.Inv l) : (Lane.holdDie  L).Inv l := by
  unfold Lane.holdDie
  try dsimp only
  repeat' first | with_reducible assumption | (intro _ _ _) | (intro _ _) | with_reducible apply Lane.driveKp_inv | with_reducible apply Lane.driveKm_inv | with_reducible apply Lane.onStart_inv | with_reducible apply Lane.onGuard_inv | with_reducible apply Lane.restart_inv

theorem Lane.rearm_inv {l : LaneId} (v : Nat) {L : Lane} (hL : L.Inv l) : (Lane.rearm v L).Inv l := by
  unfold Lane.rearm
  try dsimp only
  repeat' first | with_reducible assumption | (intro _ _ _) | (intro _ _) | with_reducible apply Lane.holdDie_inv | with_reducible apply Lane.set1_inv | with_reducible apply Lane.wr_inv | with_reducible apply ite_inv

theorem Lane.writeWd_inv {l : LaneId} (v : Nat) {L : Lane} (hL : L.Inv l) : (Lane.writeWd v L).Inv l := by
  unfold Lane.writeWd
  try dsimp only
  repeat' first | with_reducible assumption | (intro _ _ _) | (intro _ _) | with_reducible apply Lane.wr_inv | with_reducible apply ite_inv

theorem Lane.parkFire_inv {l : LaneId}  {L : Lane} (hL : L.Inv l) : (Lane.parkFire  L).Inv l := by
  unfold Lane.parkFire
  try dsimp only
  repeat' first | with_reducible assumption | (intro _ _ _) | (intro _ _) | with_reducible apply Lane.fire_inv | with_reducible apply Lane.svForce_inv | with_reducible apply Lane.stop_inv | with_reducible apply Lane.clr_inv | with_reducible apply Lane.set1_inv | with_reducible apply ite_inv | with_reducible apply Lane.unpowered_id_inv | with_reducible apply Lane.when_inv | with_reducible apply Lane.each_inv

end Sys2Proof.Machine
end

