-- ==== Sys2Proof/Laws/InvCollector.lean ====
section
/-! SUPPORT. The operations of Machine/Collector.lean keep the invariant of a lane. -/

namespace Sys2Proof.Machine

theorem Lane.clearSticky_inv {l : LaneId} (n : Nat) {L : Lane} (hL : L.Inv l) : (Lane.clearSticky n L).Inv l := by
  unfold Lane.clearSticky
  try dsimp only
  repeat' first | with_reducible assumption | (intro _ _ _) | (intro _ _) | with_reducible apply Lane.fire_inv | with_reducible apply Lane.wrBit_inv | with_reducible apply ite_inv | with_reducible apply Lane.unpowered_id_inv | with_reducible apply Lane.when_inv

theorem Lane.writeSticky_inv {l : LaneId} (k : Nat) (v : Nat) {L : Lane} (hL : L.Inv l) : (Lane.writeSticky k v L).Inv l := by
  unfold Lane.writeSticky
  try dsimp only
  repeat' first | with_reducible assumption | (intro _ _ _) | (intro _ _) | with_reducible apply Lane.clearSticky_inv | with_reducible apply ite_inv | with_reducible apply Lane.unpowered_id_inv | with_reducible apply Lane.when_inv | with_reducible apply Lane.each_inv

theorem Lane.inject_inv {l : LaneId} (src : Nat) {L : Lane} (hL : L.Inv l) : (Lane.inject src L).Inv l := by
  unfold Lane.inject
  try dsimp only
  repeat' first | with_reducible assumption | (intro _ _ _) | (intro _ _) | with_reducible apply Lane.fire_inv | with_reducible apply Lane.set1_inv | with_reducible apply Lane.wr_inv | with_reducible apply ite_inv

theorem Lane.injectParity_inv {l : LaneId}  {L : Lane} (hL : L.Inv l) : (Lane.injectParity  L).Inv l := by
  unfold Lane.injectParity
  try dsimp only
  repeat' first | with_reducible assumption | (intro _ _ _) | (intro _ _) | with_reducible apply Lane.set1_inv | with_reducible apply ite_inv | with_reducible apply Lane.unpowered_id_inv | with_reducible apply Lane.when_inv | with_reducible apply Lane.each_inv | with_reducible apply foldl_inv | with_reducible apply Lane.Inv.id | with_reducible apply Lane.Inv.regs | with_reducible apply Lane.Inv.sram | with_reducible apply Lane.Inv.store | with_reducible apply Tab.wf_filter | with_reducible apply Tab.wf_foldl | with_reducible apply Tab.wf_put | with_reducible apply Tab.wf_graft | with_reducible apply Lane.unpowered_inv | with_reducible apply foldl_pair_inv | split | (simp only [Lane.mk_inv]; refine ⟨?_, ?_, ?_, ?_⟩)

theorem Lane.fcCheck_inv {l : LaneId} (a : Nat) {L : Lane} (hL : L.Inv l) : (Lane.fcCheck a L).Inv l := by
  unfold Lane.fcCheck
  try dsimp only
  repeat' first | with_reducible assumption | (intro _ _ _) | (intro _ _) | with_reducible apply Lane.forced_inv | with_reducible apply ite_inv | with_reducible apply Lane.unpowered_id_inv | with_reducible apply Lane.when_inv

theorem Lane.poison_inv {l : LaneId} (c : Core) {L : Lane} (hL : L.Inv l) : (Lane.poison c L).Inv l := by
  unfold Lane.poison
  try dsimp only
  repeat' first | with_reducible assumption | (intro _ _ _) | (intro _ _) | with_reducible apply Lane.onCore_inv | with_reducible apply ite_inv | with_reducible apply Lane.unpowered_id_inv | with_reducible apply Lane.when_inv

theorem Lane.sourceFires_inv {l : LaneId} (n : Nat) (cores : BitVec 4) {L : Lane} (hL : L.Inv l) : (Lane.sourceFires n cores L).Inv l := by
  unfold Lane.sourceFires
  try dsimp only
  repeat' first | with_reducible assumption | (intro _ _ _) | (intro _ _) | with_reducible apply Lane.poison_inv | with_reducible apply Lane.halt_inv | with_reducible apply Lane.fire_inv | with_reducible apply Lane.set1_inv | with_reducible apply ite_inv | with_reducible apply Lane.unpowered_id_inv | with_reducible apply Lane.when_inv | with_reducible apply Lane.each_inv

end Sys2Proof.Machine
end

