-- ==== Sys2Proof/Laws/InvSlaz.lean ====
section
/-! SUPPORT. The operations of Machine/Slaz.lean keep the invariant of a lane. -/

namespace Sys2Proof.Machine

theorem Lane.szTo_inv {l : LaneId} (c : Fin 2) (v : Nat) {L : Lane} (hL : L.Inv l) : (Lane.szTo c v L).Inv l := by
  unfold Lane.szTo
  try dsimp only
  repeat' first | with_reducible assumption | (intro _ _ _) | (intro _ _) | with_reducible apply Lane.onSlaz_inv | with_reducible apply Lane.wr_inv

theorem Lane.szSendRef_inv {l : LaneId} (c : Fin 2) {L : Lane} (hL : L.Inv l) : (Lane.szSendRef c L).Inv l := by
  unfold Lane.szSendRef
  try dsimp only
  repeat' first | with_reducible assumption | (intro _ _ _) | (intro _ _) | with_reducible apply Lane.onSlaz_inv

theorem Lane.szMiss_inv {l : LaneId} (c : Fin 2) (e : SlazEntry) {L : Lane} (hL : L.Inv l) : (Lane.szMiss c e L).Inv l := by
  unfold Lane.szMiss
  try dsimp only
  repeat' first | with_reducible assumption | (intro _ _ _) | (intro _ _) | with_reducible apply Lane.set1_inv | with_reducible apply ite_inv | with_reducible apply Lane.unpowered_id_inv | with_reducible apply Lane.when_inv

theorem Lane.szOpen_inv {l : LaneId} (c : Fin 2) (w : Nat) {L : Lane} (hL : L.Inv l) : (Lane.szOpen c w L).Inv l := by
  unfold Lane.szOpen
  try dsimp only
  repeat' first | with_reducible assumption | (intro _ _ _) | (intro _ _) | with_reducible apply Lane.onSlaz_inv

theorem Lane.windowCopy_inv {l : LaneId} (c : Fin 2) (e : SlazEntry × Nat) {L : Lane} (hL : L.Inv l) : (Lane.windowCopy c e L).Inv l := by
  unfold Lane.windowCopy
  try dsimp only
  repeat' first | with_reducible assumption | (intro _ _ _) | (intro _ _) | with_reducible apply Lane.szOpen_inv | with_reducible apply Lane.szMiss_inv | with_reducible apply Lane.onSlaz_inv | with_reducible apply Lane.countMod_inv | with_reducible apply ite_inv

theorem Lane.windowDrop_inv {l : LaneId} (c : Fin 2) (e : SlazEntry × Nat) {L : Lane} (hL : L.Inv l) : (Lane.windowDrop c e L).Inv l := by
  unfold Lane.windowDrop
  try dsimp only
  repeat' first | with_reducible assumption | (intro _ _ _) | (intro _ _) | with_reducible apply Lane.szMiss_inv | with_reducible apply Lane.onSlaz_inv | with_reducible apply Lane.countMod_inv

theorem Lane.windowBegin_inv {l : LaneId} (c : Fin 2) (e : SlazEntry × Nat) (idle : Bool) {L : Lane} (hL : L.Inv l) : (Lane.windowBegin c e idle L).Inv l := by
  unfold Lane.windowBegin
  try dsimp only
  repeat' first | with_reducible assumption | (intro _ _ _) | (intro _ _) | with_reducible apply Lane.windowDrop_inv | with_reducible apply Lane.onSlaz_inv | with_reducible apply ite_inv | with_reducible apply Lane.unpowered_id_inv | with_reducible apply Lane.when_inv | with_reducible apply Lane.each_inv | with_reducible apply foldl_inv | with_reducible apply Lane.Inv.id | with_reducible apply Lane.Inv.regs | with_reducible apply Lane.Inv.sram | with_reducible apply Lane.Inv.store | with_reducible apply Tab.wf_filter | with_reducible apply Tab.wf_foldl | with_reducible apply Tab.wf_put | with_reducible apply Tab.wf_putList | with_reducible apply Tab.wf_graft | with_reducible apply Lane.unpowered_inv | split

theorem Lane.arbOpen_inv {l : LaneId} (c : Fin 2) (w : Nat) {L : Lane} (hL : L.Inv l) : (Lane.arbOpen c w L).Inv l := by
  unfold Lane.arbOpen
  try dsimp only
  repeat' first | with_reducible assumption | (intro _ _ _) | (intro _ _) | with_reducible apply Lane.szOpen_inv | with_reducible apply Lane.onSlaz_inv

theorem Lane.arbSend_inv {l : LaneId} (c : Fin 2) (idle : Bool) {L : Lane} (hL : L.Inv l) : (Lane.arbSend c idle L).Inv l := by
  unfold Lane.arbSend
  try dsimp only
  repeat' first | with_reducible assumption | (intro _ _ _) | (intro _ _) | with_reducible apply Lane.onSlaz_inv | with_reducible apply ite_inv | with_reducible apply Lane.unpowered_id_inv | with_reducible apply Lane.when_inv | with_reducible apply Lane.each_inv | with_reducible apply foldl_inv | with_reducible apply Lane.Inv.id | with_reducible apply Lane.Inv.regs | with_reducible apply Lane.Inv.sram | with_reducible apply Lane.Inv.store | with_reducible apply Tab.wf_filter | with_reducible apply Tab.wf_foldl | with_reducible apply Tab.wf_put | with_reducible apply Tab.wf_putList | with_reducible apply Tab.wf_graft | with_reducible apply Lane.unpowered_inv | split

theorem Lane.arbOffer_inv {l : LaneId} (c : Fin 2) (w : Nat) (idle : Bool) {L : Lane} (hL : L.Inv l) : (Lane.arbOffer c w idle L).Inv l := by
  unfold Lane.arbOffer
  try dsimp only
  repeat' first | with_reducible assumption | (intro _ _ _) | (intro _ _) | with_reducible apply Lane.arbSend_inv | with_reducible apply Lane.arbOpen_inv | with_reducible apply ite_inv | with_reducible apply Lane.unpowered_id_inv | with_reducible apply Lane.when_inv

theorem Lane.windowStart_inv {l : LaneId} (c : Fin 2) (w : Nat) (idle : Bool) {L : Lane} (hL : L.Inv l) : (Lane.windowStart c w idle L).Inv l := by
  unfold Lane.windowStart
  try dsimp only
  repeat' first | with_reducible assumption | (intro _ _ _) | (intro _ _) | with_reducible apply Lane.arbOffer_inv | with_reducible apply Lane.windowBegin_inv | with_reducible apply Lane.windowCopy_inv | with_reducible apply ite_inv | with_reducible apply Lane.unpowered_id_inv | with_reducible apply Lane.when_inv | with_reducible apply Lane.each_inv | with_reducible apply foldl_inv | with_reducible apply Lane.Inv.id | with_reducible apply Lane.Inv.regs | with_reducible apply Lane.Inv.sram | with_reducible apply Lane.Inv.store | with_reducible apply Tab.wf_filter | with_reducible apply Tab.wf_foldl | with_reducible apply Tab.wf_put | with_reducible apply Tab.wf_putList | with_reducible apply Tab.wf_graft | with_reducible apply Lane.unpowered_inv | split

theorem Lane.windowEnd_inv {l : LaneId} (c : Fin 2) (w : Nat) {L : Lane} (hL : L.Inv l) : (Lane.windowEnd c w L).Inv l := by
  unfold Lane.windowEnd
  try dsimp only
  repeat' first | with_reducible assumption | (intro _ _ _) | (intro _ _) | with_reducible apply Lane.windowDrop_inv | with_reducible apply Lane.szMiss_inv | with_reducible apply Lane.onSlaz_inv | with_reducible apply Lane.countMod_inv | with_reducible apply ite_inv | with_reducible apply Lane.unpowered_id_inv | with_reducible apply Lane.when_inv | with_reducible apply Lane.each_inv

theorem Lane.szDone_inv {l : LaneId} (c : Fin 2) (e : SlazEntry) {L : Lane} (hL : L.Inv l) : (Lane.szDone c e L).Inv l := by
  unfold Lane.szDone
  try dsimp only
  repeat' first | with_reducible assumption | (intro _ _ _) | (intro _ _) | with_reducible apply Lane.irq_inv | with_reducible apply Lane.countMod_inv | with_reducible apply Lane.clr_inv | with_reducible apply Lane.set1_inv | with_reducible apply Lane.wr_inv | with_reducible apply ite_inv | with_reducible apply Lane.unpowered_id_inv | with_reducible apply Lane.when_inv

theorem Lane.szVote_inv {l : LaneId} (c : Fin 2) (i m : Nat) {L : Lane} (hL : L.Inv l) : (Lane.szVote c i m L).Inv l := by
  unfold Lane.szVote
  try dsimp only
  repeat' first | with_reducible assumption | (intro _ _ _) | (intro _ _) | with_reducible apply Lane.onSlaz_inv

theorem Lane.ownData_inv {l : LaneId} (c : Fin 2) (i : Nat) (p : List Byte) {L : Lane} (hL : L.Inv l) : (Lane.ownData c i p L).Inv l := by
  unfold Lane.ownData
  try dsimp only
  repeat' first | with_reducible assumption | (intro _ _ _) | (intro _ _) | with_reducible apply Lane.szVote_inv | with_reducible apply Lane.szDone_inv | with_reducible apply Lane.queueSent_inv | with_reducible apply Lane.onSlaz_inv | with_reducible apply Lane.send_inv | with_reducible apply Lane.countMod_inv | with_reducible apply ite_inv | with_reducible apply Lane.unpowered_id_inv | with_reducible apply Lane.when_inv | with_reducible apply Lane.each_inv | with_reducible apply foldl_inv | with_reducible apply Lane.Inv.id | with_reducible apply Lane.Inv.regs | with_reducible apply Lane.Inv.sram | with_reducible apply Lane.Inv.store | with_reducible apply Tab.wf_filter | with_reducible apply Tab.wf_foldl | with_reducible apply Tab.wf_put | with_reducible apply Tab.wf_putList | with_reducible apply Tab.wf_graft | with_reducible apply Lane.unpowered_inv | split

theorem Lane.szFill_inv {l : LaneId} (c : Fin 2) (b : Nat) (bs : List Byte) {L : Lane} (hL : L.Inv l) : (Lane.szFill c b bs L).Inv l := by
  unfold Lane.szFill
  try dsimp only
  repeat' first | with_reducible assumption | (intro _ _ _) | (intro _ _) | with_reducible apply Lane.wr_inv | with_reducible apply ite_inv | with_reducible apply Lane.unpowered_id_inv | with_reducible apply Lane.when_inv | with_reducible apply Lane.each_inv

theorem Lane.szAccept_inv {l : LaneId} (c : Fin 2) (e : SlazEntry × Nat) (bs : List Byte) {L : Lane} (hL : L.Inv l) : (Lane.szAccept c e bs L).Inv l := by
  unfold Lane.szAccept
  try dsimp only
  repeat' first | with_reducible assumption | (intro _ _ _) | (intro _ _) | with_reducible apply Lane.szFill_inv | with_reducible apply Lane.szVote_inv | with_reducible apply Lane.szDone_inv | with_reducible apply Lane.placeNext_inv | with_reducible apply Lane.onSlaz_inv | with_reducible apply Lane.restart_inv | with_reducible apply Lane.countMod_inv | with_reducible apply ite_inv | with_reducible apply Lane.unpowered_id_inv | with_reducible apply Lane.when_inv | with_reducible apply Lane.each_inv | with_reducible apply foldl_inv | with_reducible apply Lane.Inv.id | with_reducible apply Lane.Inv.regs | with_reducible apply Lane.Inv.sram | with_reducible apply Lane.Inv.store | with_reducible apply Tab.wf_filter | with_reducible apply Tab.wf_foldl | with_reducible apply Tab.wf_put | with_reducible apply Tab.wf_putList | with_reducible apply Tab.wf_graft | with_reducible apply Lane.unpowered_inv | split

theorem Lane.szReceive_inv {l : LaneId} (c : Fin 2) (since : Nat) (f : SlazFrame) {L : Lane} (hL : L.Inv l) : (Lane.szReceive c since f L).Inv l := by
  unfold Lane.szReceive
  try dsimp only
  repeat' first | with_reducible assumption | (intro _ _ _) | (intro _ _) | with_reducible apply Lane.szAccept_inv | with_reducible apply Lane.onSlaz_inv | with_reducible apply Lane.countMod_inv | with_reducible apply ite_inv | with_reducible apply Lane.unpowered_id_inv | with_reducible apply Lane.when_inv | with_reducible apply Lane.each_inv | with_reducible apply foldl_inv | with_reducible apply Lane.Inv.id | with_reducible apply Lane.Inv.regs | with_reducible apply Lane.Inv.sram | with_reducible apply Lane.Inv.store | with_reducible apply Tab.wf_filter | with_reducible apply Tab.wf_foldl | with_reducible apply Tab.wf_put | with_reducible apply Tab.wf_putList | with_reducible apply Tab.wf_graft | with_reducible apply Lane.unpowered_inv | split

theorem Lane.szMark_inv {l : LaneId} (c : Fin 2) (since : Nat) {L : Lane} (hL : L.Inv l) : (Lane.szMark c since L).Inv l := by
  unfold Lane.szMark
  try dsimp only
  repeat' first | with_reducible assumption | (intro _ _ _) | (intro _ _) | with_reducible apply Lane.mark_inv | with_reducible apply Lane.missed_inv | with_reducible apply Lane.onSlaz_inv | with_reducible apply Lane.irq_inv | with_reducible apply Lane.wr_inv | with_reducible apply ite_inv | with_reducible apply Lane.unpowered_id_inv | with_reducible apply Lane.when_inv

theorem Lane.szTake_inv {l : LaneId} (c : Fin 2) (f : SlazRef) {L : Lane} (hL : L.Inv l) : (Lane.szTake c f L).Inv l := by
  unfold Lane.szTake
  try dsimp only
  repeat' first | with_reducible assumption | (intro _ _ _) | (intro _ _) | with_reducible apply Lane.loadFields_inv

theorem Lane.szEvent_inv {l : LaneId} (b : Bool) (f : Fld) {L : Lane} (hL : L.Inv l) : (Lane.szEvent b f L).Inv l := by
  unfold Lane.szEvent
  try dsimp only
  repeat' first | with_reducible assumption | (intro _ _ _) | (intro _ _) | with_reducible apply Lane.set1_inv | with_reducible apply ite_inv | with_reducible apply Lane.unpowered_id_inv | with_reducible apply Lane.when_inv

theorem Lane.szSync_inv {l : LaneId} (c : Fin 2) (f : SlazRef) {L : Lane} (hL : L.Inv l) : (Lane.szSync c f L).Inv l := by
  unfold Lane.szSync
  try dsimp only
  repeat' first | with_reducible assumption | (intro _ _ _) | (intro _ _) | with_reducible apply Lane.szTake_inv | with_reducible apply Lane.szTo_inv | with_reducible apply Lane.onSlaz_inv

theorem Lane.szRefAccept_inv {l : LaneId} (c : Fin 2) (since : Nat) (f : SlazRef) {L : Lane} (hL : L.Inv l) : (Lane.szRefAccept c since f L).Inv l := by
  unfold Lane.szRefAccept
  try dsimp only
  repeat' first | with_reducible assumption | (intro _ _ _) | (intro _ _) | with_reducible apply Lane.mark_inv | with_reducible apply Lane.szSync_inv | with_reducible apply Lane.szEvent_inv | with_reducible apply Lane.szTake_inv | with_reducible apply Lane.szMark_inv | with_reducible apply Lane.szTo_inv | with_reducible apply Lane.onSlaz_inv | with_reducible apply Lane.set1_inv | with_reducible apply Lane.wr_inv | with_reducible apply ite_inv

theorem Lane.szRefRx_inv {l : LaneId} (c : Fin 2) (since : Nat) (f : SlazRef) {L : Lane} (hL : L.Inv l) : (Lane.szRefRx c since f L).Inv l := by
  unfold Lane.szRefRx
  try dsimp only
  repeat' first | with_reducible assumption | (intro _ _ _) | (intro _ _) | with_reducible apply Lane.szRefAccept_inv | with_reducible apply Lane.countMod_inv | with_reducible apply ite_inv

theorem Lane.ownRef_inv {l : LaneId} (c : Fin 2) (since : Nat) (acked : Bool) {L : Lane} (hL : L.Inv l) : (Lane.ownRef c since acked L).Inv l := by
  unfold Lane.ownRef
  try dsimp only
  repeat' first | with_reducible assumption | (intro _ _ _) | (intro _ _) | with_reducible apply Lane.szEvent_inv | with_reducible apply Lane.szTake_inv | with_reducible apply Lane.szMark_inv | with_reducible apply Lane.onSlaz_inv | with_reducible apply Lane.send_inv | with_reducible apply Lane.countMod_inv | with_reducible apply Lane.wr_inv | with_reducible apply ite_inv | with_reducible apply Lane.unpowered_id_inv | with_reducible apply Lane.when_inv

theorem Lane.ownComplete_inv {l : LaneId} (c : Fin 2) (since : Nat) (acked : Bool) {L : Lane} (hL : L.Inv l) : (Lane.ownComplete c since acked L).Inv l := by
  unfold Lane.ownComplete
  try dsimp only
  repeat' first | with_reducible assumption | (intro _ _ _) | (intro _ _) | with_reducible apply Lane.ownRef_inv | with_reducible apply Lane.ownData_inv | with_reducible apply Lane.onSlaz_inv | with_reducible apply ite_inv | with_reducible apply Lane.unpowered_id_inv | with_reducible apply Lane.when_inv | with_reducible apply Lane.each_inv | with_reducible apply foldl_inv | with_reducible apply Lane.Inv.id | with_reducible apply Lane.Inv.regs | with_reducible apply Lane.Inv.sram | with_reducible apply Lane.Inv.store | with_reducible apply Tab.wf_filter | with_reducible apply Tab.wf_foldl | with_reducible apply Tab.wf_put | with_reducible apply Tab.wf_putList | with_reducible apply Tab.wf_graft | with_reducible apply Lane.unpowered_inv | split

theorem Lane.matrixEnd_inv {l : LaneId} (c : Fin 2) {L : Lane} (hL : L.Inv l) : (Lane.matrixEnd c L).Inv l := by
  unfold Lane.matrixEnd
  try dsimp only
  repeat' first | with_reducible assumption | (intro _ _ _) | (intro _ _) | with_reducible apply Lane.onSlaz_inv | with_reducible apply Lane.clr_inv | with_reducible apply Lane.set1_inv | with_reducible apply Lane.wr_inv | with_reducible apply ite_inv | with_reducible apply Lane.unpowered_id_inv | with_reducible apply Lane.when_inv | with_reducible apply Lane.each_inv | with_reducible apply foldl_inv | with_reducible apply Lane.Inv.id | with_reducible apply Lane.Inv.regs | with_reducible apply Lane.Inv.sram | with_reducible apply Lane.Inv.store | with_reducible apply Tab.wf_filter | with_reducible apply Tab.wf_foldl | with_reducible apply Tab.wf_put | with_reducible apply Tab.wf_putList | with_reducible apply Tab.wf_graft | with_reducible apply Lane.unpowered_inv | split

theorem Lane.judgeZ_inv {l : LaneId} (c : Fin 2) {L : Lane} (hL : L.Inv l) : (Lane.judgeZ c L).Inv l := by
  unfold Lane.judgeZ
  try dsimp only
  repeat' first | with_reducible assumption | (intro _ _ _) | (intro _ _) | with_reducible apply Lane.autumn_inv | with_reducible apply Lane.endLevel_inv | with_reducible apply Lane.fireLevel_inv | with_reducible apply Lane.clr_inv | with_reducible apply Lane.set1_inv | with_reducible apply ite_inv | with_reducible apply Lane.unpowered_id_inv | with_reducible apply Lane.when_inv

theorem Lane.cycleEnd_inv {l : LaneId} (c : Fin 2) {L : Lane} (hL : L.Inv l) : (Lane.cycleEnd c L).Inv l := by
  unfold Lane.cycleEnd
  try dsimp only
  repeat' first | with_reducible assumption | (intro _ _ _) | (intro _ _) | with_reducible apply Lane.judgeZ_inv | with_reducible apply Lane.matrixEnd_inv | with_reducible apply Lane.szSendRef_inv | with_reducible apply Lane.missed_inv | with_reducible apply Lane.onSlaz_inv | with_reducible apply Lane.countMod_inv | with_reducible apply Lane.count_inv | with_reducible apply Lane.clr_inv | with_reducible apply Lane.wr_inv | with_reducible apply ite_inv | with_reducible apply Lane.unpowered_id_inv | with_reducible apply Lane.when_inv

theorem Lane.szEnable_inv {l : LaneId} (c : Fin 2) (en : Bool) {L : Lane} (hL : L.Inv l) : (Lane.szEnable c en L).Inv l := by
  unfold Lane.szEnable
  try dsimp only
  repeat' first | with_reducible assumption | (intro _ _ _) | (intro _ _) | with_reducible apply Lane.szTo_inv | with_reducible apply Lane.szListen_inv | with_reducible apply Lane.wr_inv | with_reducible apply ite_inv

end Sys2Proof.Machine
end

