-- ==== Sys2Proof/Laws/InvTime.lean ====
section
/-! SUPPORT. The operations of Machine/Time.lean keep the invariant of a lane. -/

namespace Sys2Proof.Machine

theorem Lane.onNbT_inv {l : LaneId} (s : Side) (g : TimeNb → TimeNb) {L : Lane} (hL : L.Inv l) : (Lane.onNbT s g L).Inv l := by
  unfold Lane.onNbT
  try dsimp only
  repeat' first | with_reducible assumption | (intro _ _ _) | (intro _ _) | with_reducible apply Lane.onTime_inv

theorem Lane.setDisc_inv {l : LaneId} (v : Nat) {L : Lane} (hL : L.Inv l) : (Lane.setDisc v L).Inv l := by
  unfold Lane.setDisc
  try dsimp only
  repeat' first | with_reducible assumption | (intro _ _ _) | (intro _ _) | with_reducible apply Lane.wr_inv

theorem Lane.showAgree_inv {l : LaneId}  {L : Lane} (hL : L.Inv l) : (Lane.showAgree  L).Inv l := by
  unfold Lane.showAgree
  try dsimp only
  repeat' first | with_reducible assumption | (intro _ _ _) | (intro _ _) | with_reducible apply Lane.endLevel_inv | with_reducible apply Lane.fireLevel_inv | with_reducible apply Lane.onTime_inv | with_reducible apply Lane.restart_inv | with_reducible apply Lane.stop_inv | with_reducible apply Lane.wr_inv | with_reducible apply ite_inv | with_reducible apply Lane.unpowered_id_inv | with_reducible apply Lane.when_inv | with_reducible apply Lane.each_inv

theorem Lane.agreeEnter_inv {l : LaneId} (s : Side) {L : Lane} (hL : L.Inv l) : (Lane.agreeEnter s L).Inv l := by
  unfold Lane.agreeEnter
  try dsimp only
  repeat' first | with_reducible assumption | (intro _ _ _) | (intro _ _) | with_reducible apply Lane.showAgree_inv | with_reducible apply Lane.onNbT_inv | with_reducible apply Lane.stop_inv

theorem Lane.agreeLeave_inv {l : LaneId} (s : Side) {L : Lane} (hL : L.Inv l) : (Lane.agreeLeave s L).Inv l := by
  unfold Lane.agreeLeave
  try dsimp only
  repeat' first | with_reducible assumption | (intro _ _ _) | (intro _ _) | with_reducible apply Lane.showAgree_inv | with_reducible apply Lane.onNbT_inv | with_reducible apply Lane.onTime_inv | with_reducible apply Lane.stop_inv | with_reducible apply ite_inv | with_reducible apply Lane.unpowered_id_inv | with_reducible apply Lane.when_inv

theorem Lane.announceStep_inv {l : LaneId} (d : Int) (acq : Bool) {L : Lane} (hL : L.Inv l) : (Lane.announceStep d acq L).Inv l := by
  unfold Lane.announceStep
  try dsimp only
  repeat' first | with_reducible assumption | (intro _ _ _) | (intro _ _) | with_reducible apply Lane.onTime_inv | with_reducible apply ite_inv

theorem Lane.onPulse_inv {l : LaneId} (n : Fin 4) (g : PulseSt → PulseSt) {L : Lane} (hL : L.Inv l) : (Lane.onPulse n g L).Inv l := by
  unfold Lane.onPulse
  try dsimp only
  repeat' first | with_reducible assumption | (intro _ _ _) | (intro _ _) | with_reducible apply ite_inv | with_reducible apply Lane.unpowered_id_inv | with_reducible apply Lane.when_inv | with_reducible apply Lane.each_inv | with_reducible apply foldl_inv | with_reducible apply Lane.Inv.id | with_reducible apply Lane.Inv.regs | with_reducible apply Lane.Inv.sram | with_reducible apply Lane.Inv.store | with_reducible apply Tab.wf_filter | with_reducible apply Tab.wf_foldl | with_reducible apply Tab.wf_put | with_reducible apply Tab.wf_putList | with_reducible apply Tab.wf_graft | with_reducible apply Lane.unpowered_inv | split | (simp only [Lane.mk_inv]; refine ⟨?_, ?_, ?_, ?_⟩)

theorem Lane.pulseBegin_inv {l : LaneId} (n : Fin 4) {L : Lane} (hL : L.Inv l) : (Lane.pulseBegin n L).Inv l := by
  unfold Lane.pulseBegin
  try dsimp only
  repeat' first | with_reducible assumption | (intro _ _ _) | (intro _ _) | with_reducible apply Lane.onPulse_inv | with_reducible apply Lane.send_inv | with_reducible apply Lane.irq_inv | with_reducible apply ite_inv | with_reducible apply Lane.unpowered_id_inv | with_reducible apply Lane.when_inv

theorem Lane.pulseLate_inv {l : LaneId} (n : Fin 4) {L : Lane} (hL : L.Inv l) : (Lane.pulseLate n L).Inv l := by
  unfold Lane.pulseLate
  try dsimp only
  repeat' first | with_reducible assumption | (intro _ _ _) | (intro _ _) | with_reducible apply Lane.irq_inv | with_reducible apply Lane.set1_inv | with_reducible apply Lane.wr_inv | with_reducible apply ite_inv | with_reducible apply Lane.unpowered_id_inv | with_reducible apply Lane.when_inv

theorem Lane.pulseStep_inv {l : LaneId} (n : Fin 4) {L : Lane} (hL : L.Inv l) : (Lane.pulseStep n L).Inv l := by
  unfold Lane.pulseStep
  try dsimp only
  repeat' first | with_reducible assumption | (intro _ _ _) | (intro _ _) | with_reducible apply Lane.pulseLate_inv | with_reducible apply Lane.pulseBegin_inv | with_reducible apply Lane.onPulse_inv | with_reducible apply Lane.count_inv | with_reducible apply Lane.set1_inv | with_reducible apply ite_inv

theorem Lane.carryCarriers_inv {l : LaneId} (d : Int) {L : Lane} (hL : L.Inv l) : (Lane.carryCarriers d L).Inv l := by
  unfold Lane.carryCarriers
  try dsimp only
  repeat' first | with_reducible assumption | (intro _ _ _) | (intro _ _) | with_reducible apply ite_inv | with_reducible apply Lane.unpowered_id_inv | with_reducible apply Lane.when_inv | with_reducible apply Lane.each_inv | with_reducible apply foldl_inv | with_reducible apply Lane.Inv.id | with_reducible apply Lane.Inv.regs | with_reducible apply Lane.Inv.sram | with_reducible apply Lane.Inv.store | with_reducible apply Tab.wf_filter | with_reducible apply Tab.wf_foldl | with_reducible apply Tab.wf_put | with_reducible apply Tab.wf_putList | with_reducible apply Tab.wf_graft | with_reducible apply Lane.unpowered_inv | split | (simp only [Lane.mk_inv]; refine ⟨?_, ?_, ?_, ?_⟩)

theorem Lane.takeStep_inv {l : LaneId} (d : Int) (at' : Nat) {L : Lane} (hL : L.Inv l) : (Lane.takeStep d at' L).Inv l := by
  unfold Lane.takeStep
  try dsimp only
  repeat' first | with_reducible assumption | (intro _ _ _) | (intro _ _) | with_reducible apply Lane.carryCarriers_inv | with_reducible apply Lane.pulseStep_inv | with_reducible apply Lane.onTime_inv | with_reducible apply Lane.countMod_inv | with_reducible apply Lane.set1_inv | with_reducible apply Lane.wr_inv | with_reducible apply ite_inv | with_reducible apply Lane.unpowered_id_inv | with_reducible apply Lane.when_inv | with_reducible apply Lane.each_inv

theorem Lane.treat_inv {l : LaneId} (o : Int) {L : Lane} (hL : L.Inv l) : (Lane.treat o L).Inv l := by
  unfold Lane.treat
  try dsimp only
  repeat' first | with_reducible assumption | (intro _ _ _) | (intro _ _) | with_reducible apply Lane.announceStep_inv | with_reducible apply Lane.onTime_inv | with_reducible apply ite_inv

theorem Lane.jumpPends_inv {l : LaneId}  {L : Lane} (hL : L.Inv l) : (Lane.jumpPends  L).Inv l := by
  unfold Lane.jumpPends
  try dsimp only
  repeat' first | with_reducible assumption | (intro _ _ _) | (intro _ _) | with_reducible apply Lane.fire_inv | with_reducible apply Lane.irq_inv | with_reducible apply Lane.set1_inv

theorem Lane.decideFor_inv {l : LaneId} (g : Nat) (o : Int) {L : Lane} (hL : L.Inv l) : (Lane.decideFor g o L).Inv l := by
  unfold Lane.decideFor
  try dsimp only
  repeat' first | with_reducible assumption | (intro _ _ _) | (intro _ _) | with_reducible apply Lane.jumpPends_inv | with_reducible apply Lane.treat_inv | with_reducible apply Lane.setDisc_inv | with_reducible apply Lane.run_inv | with_reducible apply Lane.onTime_inv | with_reducible apply Lane.clr_inv | with_reducible apply Lane.set1_inv | with_reducible apply Lane.wr_inv | with_reducible apply ite_inv | with_reducible apply Lane.unpowered_id_inv | with_reducible apply Lane.when_inv

theorem Lane.decideOffset_inv {l : LaneId}  {L : Lane} (hL : L.Inv l) : (Lane.decideOffset  L).Inv l := by
  unfold Lane.decideOffset
  try dsimp only
  repeat' first | with_reducible assumption | (intro _ _ _) | (intro _ _) | with_reducible apply Lane.decideFor_inv | with_reducible apply Lane.onTime_inv | with_reducible apply ite_inv | with_reducible apply Lane.unpowered_id_inv | with_reducible apply Lane.when_inv | with_reducible apply Lane.each_inv | with_reducible apply foldl_inv | with_reducible apply Lane.Inv.id | with_reducible apply Lane.Inv.regs | with_reducible apply Lane.Inv.sram | with_reducible apply Lane.Inv.store | with_reducible apply Tab.wf_filter | with_reducible apply Tab.wf_foldl | with_reducible apply Tab.wf_put | with_reducible apply Tab.wf_putList | with_reducible apply Tab.wf_graft | with_reducible apply Lane.unpowered_inv | split

theorem Lane.actRequest_inv {l : LaneId} (r : Nat) {L : Lane} (hL : L.Inv l) : (Lane.actRequest r L).Inv l := by
  unfold Lane.actRequest
  try dsimp only
  repeat' first | with_reducible assumption | (intro _ _ _) | (intro _ _) | with_reducible apply Lane.announceStep_inv | with_reducible apply Lane.setDisc_inv | with_reducible apply Lane.onTime_inv | with_reducible apply Lane.clr_inv | with_reducible apply ite_inv

theorem Lane.jumpRequest_inv {l : LaneId} (r : Nat) {L : Lane} (hL : L.Inv l) : (Lane.jumpRequest r L).Inv l := by
  unfold Lane.jumpRequest
  try dsimp only
  repeat' first | with_reducible assumption | (intro _ _ _) | (intro _ _) | with_reducible apply Lane.actRequest_inv | with_reducible apply Lane.onTime_inv | with_reducible apply Lane.set1_inv | with_reducible apply ite_inv

theorem Lane.jumpWrite_inv {l : LaneId} (v : Nat) {L : Lane} (hL : L.Inv l) : (Lane.jumpWrite v L).Inv l := by
  unfold Lane.jumpWrite
  try dsimp only
  repeat' first | with_reducible assumption | (intro _ _ _) | (intro _ _) | with_reducible apply Lane.jumpRequest_inv | with_reducible apply ite_inv | with_reducible apply Lane.unpowered_id_inv | with_reducible apply Lane.when_inv

theorem Lane.followLeader_inv {l : LaneId} (f : TimeFrame) {L : Lane} (hL : L.Inv l) : (Lane.followLeader f L).Inv l := by
  unfold Lane.followLeader
  try dsimp only
  repeat' first | with_reducible assumption | (intro _ _ _) | (intro _ _) | with_reducible apply Lane.jumpPends_inv | with_reducible apply Lane.setDisc_inv | with_reducible apply Lane.onTime_inv | with_reducible apply Lane.clr_inv | with_reducible apply Lane.set1_inv | with_reducible apply ite_inv | with_reducible apply Lane.unpowered_id_inv | with_reducible apply Lane.when_inv | with_reducible apply Lane.each_inv | with_reducible apply foldl_inv | with_reducible apply Lane.Inv.id | with_reducible apply Lane.Inv.regs | with_reducible apply Lane.Inv.sram | with_reducible apply Lane.Inv.store | with_reducible apply Tab.wf_filter | with_reducible apply Tab.wf_foldl | with_reducible apply Tab.wf_put | with_reducible apply Tab.wf_putList | with_reducible apply Tab.wf_graft | with_reducible apply Lane.unpowered_inv | split

theorem Lane.timeFilter_inv {l : LaneId} (s : Side) (x : Int × Int) {L : Lane} (hL : L.Inv l) : (Lane.timeFilter s x L).Inv l := by
  unfold Lane.timeFilter
  try dsimp only
  repeat' first | with_reducible assumption | (intro _ _ _) | (intro _ _) | with_reducible apply Lane.onNbT_inv | with_reducible apply Lane.wr_inv

theorem Lane.timeJudge_inv {l : LaneId} (s : Side) (f : TimeFrame) {L : Lane} (hL : L.Inv l) : (Lane.timeJudge s f L).Inv l := by
  unfold Lane.timeJudge
  try dsimp only
  repeat' first | with_reducible assumption | (intro _ _ _) | (intro _ _) | with_reducible apply Lane.announceStep_inv | with_reducible apply Lane.agreeLeave_inv | with_reducible apply Lane.onNbT_inv | with_reducible apply Lane.start1_inv | with_reducible apply Lane.stop_inv | with_reducible apply ite_inv | with_reducible apply Lane.unpowered_id_inv | with_reducible apply Lane.when_inv

theorem Lane.timeReceive_inv {l : LaneId} (s : Side) (f : TimeFrame) {L : Lane} (hL : L.Inv l) : (Lane.timeReceive s f L).Inv l := by
  unfold Lane.timeReceive
  try dsimp only
  repeat' first | with_reducible assumption | (intro _ _ _) | (intro _ _) | with_reducible apply Lane.heard_inv | with_reducible apply Lane.timeJudge_inv | with_reducible apply Lane.timeFilter_inv | with_reducible apply Lane.followLeader_inv | with_reducible apply Lane.actRequest_inv | with_reducible apply Lane.onNbT_inv | with_reducible apply Lane.linkHeard_inv | with_reducible apply Lane.onTime_inv | with_reducible apply Lane.restart_inv | with_reducible apply Lane.wr_inv | with_reducible apply ite_inv | with_reducible apply Lane.unpowered_id_inv | with_reducible apply Lane.when_inv | with_reducible apply Lane.each_inv | with_reducible apply foldl_inv | with_reducible apply Lane.Inv.id | with_reducible apply Lane.Inv.regs | with_reducible apply Lane.Inv.sram | with_reducible apply Lane.Inv.store | with_reducible apply Tab.wf_filter | with_reducible apply Tab.wf_foldl | with_reducible apply Tab.wf_put | with_reducible apply Tab.wf_putList | with_reducible apply Tab.wf_graft | with_reducible apply Lane.unpowered_inv | split

theorem Lane.timeSend_inv {l : LaneId}  {L : Lane} (hL : L.Inv l) : (Lane.timeSend  L).Inv l := by
  unfold Lane.timeSend
  try dsimp only
  repeat' first | with_reducible assumption | (intro _ _ _) | (intro _ _) | with_reducible apply Lane.onTime_inv | with_reducible apply Lane.send_inv | with_reducible apply Lane.restart_inv

theorem Lane.ptpLost_inv {l : LaneId}  {L : Lane} (hL : L.Inv l) : (Lane.ptpLost  L).Inv l := by
  unfold Lane.ptpLost
  try dsimp only
  repeat' first | with_reducible assumption | (intro _ _ _) | (intro _ _) | with_reducible apply Lane.clr_inv | with_reducible apply ite_inv | with_reducible apply Lane.unpowered_id_inv | with_reducible apply Lane.when_inv | with_reducible apply Lane.each_inv | with_reducible apply foldl_inv | with_reducible apply Lane.Inv.id | with_reducible apply Lane.Inv.regs | with_reducible apply Lane.Inv.sram | with_reducible apply Lane.Inv.store | with_reducible apply Tab.wf_filter | with_reducible apply Tab.wf_foldl | with_reducible apply Tab.wf_put | with_reducible apply Tab.wf_putList | with_reducible apply Tab.wf_graft | with_reducible apply Lane.unpowered_inv | split | (simp only [Lane.mk_inv]; refine ⟨?_, ?_, ?_, ?_⟩)

theorem Lane.ptpRx_inv {l : LaneId} (act : Lane → Lane) (hact : ∀ M : Lane, M.Inv l → (act M).Inv l) {L : Lane} (hL : L.Inv l) : (Lane.ptpRx act L).Inv l := by
  unfold Lane.ptpRx
  try dsimp only
  repeat' first | with_reducible assumption | (intro _ _ _) | (intro _ _) | with_reducible apply hact | with_reducible apply Lane.pdWake_inv | with_reducible apply ite_inv | with_reducible apply Lane.unpowered_id_inv | with_reducible apply Lane.when_inv

theorem Lane.ptpSync_inv {l : LaneId} (origin trx : Nat) (corr : Int) (gm seq : Nat) (logSync : Int) {L : Lane} (hL : L.Inv l) : (Lane.ptpSync origin trx corr gm seq logSync L).Inv l := by
  unfold Lane.ptpSync
  try dsimp only
  repeat' first | with_reducible assumption | (intro _ _ _) | (intro _ _) | with_reducible apply Lane.onTime_inv | with_reducible apply Lane.restart_inv | with_reducible apply Lane.wr_inv | with_reducible apply ite_inv

theorem Lane.pdelayDone_inv {l : LaneId} (t1 t2 t3 t4 : Nat) (ratio : Int) {L : Lane} (hL : L.Inv l) : (Lane.pdelayDone t1 t2 t3 t4 ratio L).Inv l := by
  unfold Lane.pdelayDone
  try dsimp only
  repeat' first | with_reducible assumption | (intro _ _ _) | (intro _ _) | with_reducible apply Lane.wr_inv | with_reducible apply ite_inv | with_reducible apply Lane.unpowered_id_inv | with_reducible apply Lane.when_inv | with_reducible apply Lane.each_inv | with_reducible apply foldl_inv | with_reducible apply Lane.Inv.id | with_reducible apply Lane.Inv.regs | with_reducible apply Lane.Inv.sram | with_reducible apply Lane.Inv.store | with_reducible apply Tab.wf_filter | with_reducible apply Tab.wf_foldl | with_reducible apply Tab.wf_put | with_reducible apply Tab.wf_putList | with_reducible apply Tab.wf_graft | with_reducible apply Lane.unpowered_inv | split | (simp only [Lane.mk_inv]; refine ⟨?_, ?_, ?_, ?_⟩)

theorem Lane.pulseConfig_inv {l : LaneId} (n : Fin 4) (v : Nat) {L : Lane} (hL : L.Inv l) : (Lane.pulseConfig n v L).Inv l := by
  unfold Lane.pulseConfig
  try dsimp only
  repeat' first | with_reducible assumption | (intro _ _ _) | (intro _ _) | with_reducible apply Lane.pulseLate_inv | with_reducible apply Lane.onPulse_inv | with_reducible apply Lane.send_inv | with_reducible apply Lane.wr_inv | with_reducible apply ite_inv | with_reducible apply Lane.unpowered_id_inv | with_reducible apply Lane.when_inv

theorem Lane.pulseStart_inv {l : LaneId} (n : Fin 4) {L : Lane} (hL : L.Inv l) : (Lane.pulseStart n L).Inv l := by
  unfold Lane.pulseStart
  try dsimp only
  repeat' first | with_reducible assumption | (intro _ _ _) | (intro _ _) | with_reducible apply Lane.pulseLate_inv | with_reducible apply Lane.pulseBegin_inv | with_reducible apply Lane.onPulse_inv | with_reducible apply Lane.count_inv | with_reducible apply ite_inv

theorem Lane.pulseEnd_inv {l : LaneId} (n : Fin 4) {L : Lane} (hL : L.Inv l) : (Lane.pulseEnd n L).Inv l := by
  unfold Lane.pulseEnd
  try dsimp only
  repeat' first | with_reducible assumption | (intro _ _ _) | (intro _ _) | with_reducible apply Lane.onPulse_inv | with_reducible apply Lane.send_inv | with_reducible apply Lane.wr_inv | with_reducible apply ite_inv | with_reducible apply Lane.unpowered_id_inv | with_reducible apply Lane.when_inv

end Sys2Proof.Machine
end

