-- ==== Sys2Proof/Laws/InvPower.lean ====
section
/-! SUPPORT. The operations of Machine/Power.lean keep the invariant of a lane. -/

namespace Sys2Proof.Machine

theorem Lane.offLoss_inv {l : LaneId} (d : Fin 8) {L : Lane} (hL : L.Inv l) : (Lane.offLoss d L).Inv l := by
  unfold Lane.offLoss
  try dsimp only
  repeat' first | with_reducible assumption | (intro _ _ _) | (intro _ _) | with_reducible apply ite_inv | with_reducible apply Lane.unpowered_id_inv | with_reducible apply Lane.when_inv | with_reducible apply Lane.each_inv | with_reducible apply foldl_inv | with_reducible apply Lane.Inv.id | with_reducible apply Lane.Inv.regs | with_reducible apply Lane.Inv.sram | with_reducible apply Lane.Inv.store | with_reducible apply Tab.wf_filter | with_reducible apply Tab.wf_foldl | with_reducible apply Tab.wf_put | with_reducible apply Tab.wf_putList | with_reducible apply Tab.wf_graft | with_reducible apply Lane.unpowered_inv | split | (simp only [Lane.mk_inv]; refine ⟨?_, ?_, ?_, ?_⟩)

theorem Lane.offState_inv {l : LaneId} (d : Fin 8) {L : Lane} (hL : L.Inv l) : (Lane.offState d L).Inv l := by
  unfold Lane.offState
  try dsimp only
  repeat' first | with_reducible assumption | (intro _ _ _) | (intro _ _) | with_reducible apply Lane.ptpLost_inv | with_reducible apply Lane.onCore_inv | with_reducible apply Lane.stop_inv | with_reducible apply Lane.wr_inv | with_reducible apply ite_inv | with_reducible apply Lane.unpowered_id_inv | with_reducible apply Lane.when_inv | with_reducible apply Lane.each_inv | with_reducible apply foldl_inv | with_reducible apply Lane.Inv.id | with_reducible apply Lane.Inv.regs | with_reducible apply Lane.Inv.sram | with_reducible apply Lane.Inv.store | with_reducible apply Tab.wf_filter | with_reducible apply Tab.wf_foldl | with_reducible apply Tab.wf_put | with_reducible apply Tab.wf_putList | with_reducible apply Tab.wf_graft | with_reducible apply Lane.unpowered_inv | split | (simp only [Lane.mk_inv]; refine ⟨?_, ?_, ?_, ?_⟩)

theorem Lane.pdEnd_inv {l : LaneId} (result who how : Nat) {L : Lane} (hL : L.Inv l) : (Lane.pdEnd result who how L).Inv l := by
  unfold Lane.pdEnd
  try dsimp only
  repeat' first | with_reducible assumption | (intro _ _ _) | (intro _ _) | with_reducible apply Lane.loadFields_inv | with_reducible apply Lane.respond_inv | with_reducible apply Lane.irq_inv | with_reducible apply ite_inv | with_reducible apply Lane.unpowered_id_inv | with_reducible apply Lane.when_inv | with_reducible apply Lane.each_inv | with_reducible apply foldl_inv | with_reducible apply Lane.Inv.id | with_reducible apply Lane.Inv.regs | with_reducible apply Lane.Inv.sram | with_reducible apply Lane.Inv.store | with_reducible apply Tab.wf_filter | with_reducible apply Tab.wf_foldl | with_reducible apply Tab.wf_put | with_reducible apply Tab.wf_putList | with_reducible apply Tab.wf_graft | with_reducible apply Lane.unpowered_inv | split | (simp only [Lane.mk_inv]; refine ⟨?_, ?_, ?_, ?_⟩)

theorem Lane.pdFields_inv {l : LaneId} (d target origin : Nat) {L : Lane} (hL : L.Inv l) : (Lane.pdFields d target origin L).Inv l := by
  unfold Lane.pdFields
  try dsimp only
  repeat' first | with_reducible assumption | (intro _ _ _) | (intro _ _) | with_reducible apply Lane.loadFields_inv

theorem Lane.pdRequest_inv {l : LaneId} (d : Fin 8) (target origin : Nat) (ask : Option (HostCmd × Nat)) {L : Lane} (hL : L.Inv l) : (Lane.pdRequest d target origin ask L).Inv l := by
  unfold Lane.pdRequest
  try dsimp only
  repeat' first | with_reducible assumption | (intro _ _ _) | (intro _ _) | with_reducible apply Lane.pdFields_inv | with_reducible apply Lane.pdEnd_inv | with_reducible apply Lane.pdWake_inv | with_reducible apply Lane.pdCount_inv | with_reducible apply Lane.respond_inv | with_reducible apply Lane.onDom_inv | with_reducible apply Lane.restart_inv | with_reducible apply Lane.set1_inv | with_reducible apply Lane.wr_inv | with_reducible apply ite_inv | with_reducible apply Lane.unpowered_id_inv | with_reducible apply Lane.when_inv | with_reducible apply Lane.each_inv | with_reducible apply foldl_inv | with_reducible apply Lane.Inv.id | with_reducible apply Lane.Inv.regs | with_reducible apply Lane.Inv.sram | with_reducible apply Lane.Inv.store | with_reducible apply Tab.wf_filter | with_reducible apply Tab.wf_foldl | with_reducible apply Tab.wf_put | with_reducible apply Tab.wf_putList | with_reducible apply Tab.wf_graft | with_reducible apply Lane.unpowered_inv | split | (simp only [Lane.mk_inv]; refine ⟨?_, ?_, ?_, ?_⟩)

theorem Lane.pdWrite_inv {l : LaneId} (v : Nat) {L : Lane} (hL : L.Inv l) : (Lane.pdWrite v L).Inv l := by
  unfold Lane.pdWrite
  try dsimp only
  repeat' first | with_reducible assumption | (intro _ _ _) | (intro _ _) | with_reducible apply Lane.pdRequest_inv | with_reducible apply Lane.pdFields_inv | with_reducible apply Lane.clr_inv | with_reducible apply ite_inv | with_reducible apply Lane.unpowered_id_inv | with_reducible apply Lane.when_inv

theorem Lane.pdAbort_inv {l : LaneId} (d : Fin 8) (who k : Nat) {L : Lane} (hL : L.Inv l) : (Lane.pdAbort d who k L).Inv l := by
  unfold Lane.pdAbort
  try dsimp only
  repeat' first | with_reducible assumption | (intro _ _ _) | (intro _ _) | with_reducible apply Lane.pdEnd_inv | with_reducible apply Lane.pdCount_inv | with_reducible apply Lane.onDom_inv | with_reducible apply Lane.wr_inv

theorem Lane.pdStep_inv {l : LaneId} (d : Fin 8) {L : Lane} (hL : L.Inv l) : (Lane.pdStep d L).Inv l := by
  unfold Lane.pdStep
  try dsimp only
  repeat' first | with_reducible assumption | (intro _ _ _) | (intro _ _) | with_reducible apply Lane.pdAbort_inv | with_reducible apply Lane.pdEnd_inv | with_reducible apply Lane.offState_inv | with_reducible apply Lane.offLoss_inv | with_reducible apply Lane.pdWake_inv | with_reducible apply Lane.onDom_inv | with_reducible apply Lane.wr_inv | with_reducible apply ite_inv | with_reducible apply Lane.unpowered_id_inv | with_reducible apply Lane.when_inv | with_reducible apply Lane.each_inv | with_reducible apply foldl_inv | with_reducible apply Lane.Inv.id | with_reducible apply Lane.Inv.regs | with_reducible apply Lane.Inv.sram | with_reducible apply Lane.Inv.store | with_reducible apply Tab.wf_filter | with_reducible apply Tab.wf_foldl | with_reducible apply Tab.wf_put | with_reducible apply Tab.wf_putList | with_reducible apply Tab.wf_graft | with_reducible apply Lane.unpowered_inv | split

theorem Lane.pdNoWfi_inv {l : LaneId} (d : Fin 8) {L : Lane} (hL : L.Inv l) : (Lane.pdNoWfi d L).Inv l := by
  unfold Lane.pdNoWfi
  try dsimp only
  repeat' first | with_reducible assumption | (intro _ _ _) | (intro _ _) | with_reducible apply Lane.pdEnd_inv | with_reducible apply Lane.pdCount_inv | with_reducible apply Lane.onDom_inv | with_reducible apply Lane.wr_inv | with_reducible apply ite_inv | with_reducible apply Lane.unpowered_id_inv | with_reducible apply Lane.when_inv

theorem Lane.fmWrite_inv {l : LaneId} (v : Nat) {L : Lane} (hL : L.Inv l) : (Lane.fmWrite v L).Inv l := by
  unfold Lane.fmWrite
  try dsimp only
  repeat' first | with_reducible assumption | (intro _ _ _) | (intro _ _) | with_reducible apply Lane.loadFields_inv | with_reducible apply Lane.clr_inv | with_reducible apply ite_inv | with_reducible apply Lane.unpowered_id_inv | with_reducible apply Lane.when_inv

theorem Lane.fmClose_inv {l : LaneId} (n : Nat) {L : Lane} (hL : L.Inv l) : (Lane.fmClose n L).Inv l := by
  unfold Lane.fmClose
  try dsimp only
  repeat' first | with_reducible assumption | (intro _ _ _) | (intro _ _) | with_reducible apply Lane.irq_inv | with_reducible apply Lane.clr_inv | with_reducible apply Lane.set1_inv | with_reducible apply Lane.wr_inv | with_reducible apply ite_inv | with_reducible apply Lane.unpowered_id_inv | with_reducible apply Lane.when_inv

theorem Lane.fmWindow_inv {l : LaneId} (v : Nat) {L : Lane} (hL : L.Inv l) : (Lane.fmWindow v L).Inv l := by
  unfold Lane.fmWindow
  try dsimp only
  repeat' first | with_reducible assumption | (intro _ _ _) | (intro _ _) | with_reducible apply Lane.clr_inv | with_reducible apply Lane.wr_inv | with_reducible apply ite_inv | with_reducible apply Lane.unpowered_id_inv | with_reducible apply Lane.when_inv

end Sys2Proof.Machine
end

