-- ==== Sys2Proof/Laws/InvHost.lean ====
section
/-! SUPPORT. The operations of Machine/Host.lean keep the invariant of a lane. -/

namespace Sys2Proof.Machine

theorem Lane.dropPort_inv {l : LaneId} (h : Fin 4) {L : Lane} (hL : L.Inv l) : (Lane.dropPort h L).Inv l := by
  unfold Lane.dropPort
  try dsimp only
  repeat' first | with_reducible assumption | (intro _ _ _) | (intro _ _) | with_reducible apply Lane.clr_inv

theorem Lane.closeSession_inv {l : LaneId} (h : Fin 4) {L : Lane} (hL : L.Inv l) : (Lane.closeSession h L).Inv l := by
  unfold Lane.closeSession
  try dsimp only
  repeat' first | with_reducible assumption | (intro _ _ _) | (intro _ _) | with_reducible apply Lane.dropPort_inv | with_reducible apply Lane.onIso_inv | with_reducible apply Lane.onHost_inv | with_reducible apply Lane.stop_inv | with_reducible apply Lane.wr_inv

theorem Lane.heard_inv {l : LaneId} (h : Fin 4) {L : Lane} (hL : L.Inv l) : (Lane.heard h L).Inv l := by
  unfold Lane.heard
  try dsimp only
  repeat' first | with_reducible assumption | (intro _ _ _) | (intro _ _) | with_reducible apply Lane.restart_inv | with_reducible apply ite_inv | with_reducible apply Lane.unpowered_id_inv | with_reducible apply Lane.when_inv

theorem Lane.vehicleFrame_inv {l : LaneId} (h : Fin 4) {L : Lane} (hL : L.Inv l) : (Lane.vehicleFrame h L).Inv l := by
  unfold Lane.vehicleFrame
  try dsimp only
  repeat' first | with_reducible assumption | (intro _ _ _) | (intro _ _) | with_reducible apply Lane.endLevel_inv | with_reducible apply Lane.start1_inv | with_reducible apply Lane.restart_inv | with_reducible apply ite_inv | with_reducible apply Lane.unpowered_id_inv | with_reducible apply Lane.when_inv | with_reducible apply Lane.each_inv | with_reducible apply foldl_inv | with_reducible apply Lane.Inv.id | with_reducible apply Lane.Inv.regs | with_reducible apply Lane.Inv.sram | with_reducible apply Lane.Inv.store | with_reducible apply Tab.wf_filter | with_reducible apply Tab.wf_foldl | with_reducible apply Tab.wf_put | with_reducible apply Tab.wf_graft | with_reducible apply Lane.unpowered_inv | with_reducible apply foldl_pair_inv | split | (simp only [Lane.mk_inv]; refine ⟨?_, ?_, ?_, ?_⟩)

theorem Lane.rateCount_inv {l : LaneId} (h : Fin 4) {L : Lane} (hL : L.Inv l) : (Lane.rateCount h L).Inv l := by
  unfold Lane.rateCount
  try dsimp only
  repeat' first | with_reducible assumption | (intro _ _ _) | (intro _ _) | with_reducible apply Lane.onHost_inv

theorem Lane.takeFreed_inv {l : LaneId} (q : Fin 16) (freed : Nat) {L : Lane} (hL : L.Inv l) : (Lane.takeFreed q freed L).Inv l := by
  unfold Lane.takeFreed
  try dsimp only
  repeat' first | with_reducible assumption | (intro _ _ _) | (intro _ _) | with_reducible apply Lane.wr_inv | with_reducible apply ite_inv | with_reducible apply Lane.unpowered_id_inv | with_reducible apply Lane.when_inv

theorem Lane.frameRx_inv {l : LaneId} (f : HostFrame) {L : Lane} (hL : L.Inv l) : (Lane.frameRx f L).Inv l := by
  unfold Lane.frameRx
  try dsimp only
  repeat' first | with_reducible assumption | (intro _ _ _) | (intro _ _) | with_reducible apply Lane.takeFreed_inv | with_reducible apply Lane.rateCount_inv | with_reducible apply Lane.vehicleFrame_inv | with_reducible apply Lane.heard_inv | with_reducible apply Lane.pdWake_inv | with_reducible apply Lane.placeDescr_inv | with_reducible apply Lane.onHost_inv | with_reducible apply Lane.countMod_inv | with_reducible apply Lane.count_inv | with_reducible apply ite_inv | with_reducible apply Lane.unpowered_id_inv | with_reducible apply Lane.when_inv | with_reducible apply Lane.each_inv | with_reducible apply foldl_inv | with_reducible apply Lane.Inv.id | with_reducible apply Lane.Inv.regs | with_reducible apply Lane.Inv.sram | with_reducible apply Lane.Inv.store | with_reducible apply Tab.wf_filter | with_reducible apply Tab.wf_foldl | with_reducible apply Tab.wf_put | with_reducible apply Tab.wf_graft | with_reducible apply Lane.unpowered_inv | with_reducible apply foldl_pair_inv | split

theorem Lane.answer_inv {l : LaneId} (k : HostCmd) (op status : Nat) {L : Lane} (hL : L.Inv l) : (Lane.answer k op status L).Inv l := by
  unfold Lane.answer
  try dsimp only
  repeat' first | with_reducible assumption | (intro _ _ _) | (intro _ _) | with_reducible apply Lane.respond_inv

theorem Lane.credential_inv {l : LaneId} (k : HostCmd) (act : Lane → Lane) (hact : ∀ M : Lane, M.Inv l → (act M).Inv l) {L : Lane} (hL : L.Inv l) : (Lane.credential k act L).Inv l := by
  unfold Lane.credential
  try dsimp only
  repeat' first | with_reducible assumption | (intro _ _ _) | (intro _ _) | with_reducible apply hact | with_reducible apply ite_inv | with_reducible apply Lane.unpowered_id_inv | with_reducible apply Lane.when_inv

theorem Lane.command_inv {l : LaneId} (k : HostCmd) (op : Nat) (feat perm : Option Nat) (f : Option Func) (act : Lane → Lane) (hact : ∀ M : Lane, M.Inv l → (act M).Inv l) {L : Lane} (hL : L.Inv l) : (Lane.command k op feat perm f act L).Inv l := by
  unfold Lane.command
  try dsimp only
  repeat' first | with_reducible assumption | (intro _ _ _) | (intro _ _) | with_reducible apply hact | with_reducible apply Lane.answer_inv | with_reducible apply ite_inv

theorem Lane.featOffer_inv {l : LaneId} (k : HostCmd) {L : Lane} (hL : L.Inv l) : (Lane.featOffer k L).Inv l := by
  unfold Lane.featOffer
  try dsimp only
  repeat' first | with_reducible assumption | (intro _ _ _) | (intro _ _) | with_reducible apply Lane.answer_inv | with_reducible apply Lane.respond_inv | with_reducible apply ite_inv

theorem Lane.lockHost_inv {l : LaneId} (h : Fin 4) (set : Nat) {L : Lane} (hL : L.Inv l) : (Lane.lockHost h set L).Inv l := by
  unfold Lane.lockHost
  try dsimp only
  repeat' first | with_reducible assumption | (intro _ _ _) | (intro _ _) | with_reducible apply Lane.start1_inv | with_reducible apply Lane.set1_inv | with_reducible apply Lane.wr_inv | with_reducible apply ite_inv | with_reducible apply Lane.unpowered_id_inv | with_reducible apply Lane.when_inv | with_reducible apply Lane.each_inv

theorem Lane.featAccept_inv {l : LaneId} (k : HostCmd) (set : Nat) {L : Lane} (hL : L.Inv l) : (Lane.featAccept k set L).Inv l := by
  unfold Lane.featAccept
  try dsimp only
  repeat' first | with_reducible assumption | (intro _ _ _) | (intro _ _) | with_reducible apply Lane.lockHost_inv | with_reducible apply Lane.answer_inv | with_reducible apply ite_inv

theorem Lane.challenge_inv {l : LaneId} (k : HostCmd) {L : Lane} (hL : L.Inv l) : (Lane.challenge k L).Inv l := by
  unfold Lane.challenge
  try dsimp only
  repeat' first | with_reducible assumption | (intro _ _ _) | (intro _ _) | with_reducible apply Lane.respond_inv | with_reducible apply Lane.onHost_inv | with_reducible apply Lane.drawn_inv | with_reducible apply Lane.restart_inv | with_reducible apply Lane.wr_inv | with_reducible apply ite_inv | with_reducible apply Lane.unpowered_id_inv | with_reducible apply Lane.when_inv

theorem Lane.openSession_inv {l : LaneId} (h : Fin 4) (nonce : Nat) {L : Lane} (hL : L.Inv l) : (Lane.openSession h nonce L).Inv l := by
  unfold Lane.openSession
  try dsimp only
  repeat' first | with_reducible assumption | (intro _ _ _) | (intro _ _) | with_reducible apply Lane.closeSession_inv | with_reducible apply Lane.onHost_inv | with_reducible apply Lane.restart_inv | with_reducible apply Lane.stop_inv | with_reducible apply Lane.wr_inv | with_reducible apply ite_inv | with_reducible apply Lane.unpowered_id_inv | with_reducible apply Lane.when_inv | with_reducible apply Lane.each_inv

theorem Lane.openCmd_inv {l : LaneId} (k : HostCmd) (nonce : Nat) (sig : List Byte) {L : Lane} (hL : L.Inv l) : (Lane.openCmd k nonce sig L).Inv l := by
  unfold Lane.openCmd
  try dsimp only
  repeat' first | with_reducible assumption | (intro _ _ _) | (intro _ _) | with_reducible apply Lane.openSession_inv | with_reducible apply Lane.answer_inv | with_reducible apply Lane.respond_inv | with_reducible apply ite_inv

theorem Lane.engage_inv {l : LaneId} (k : HostCmd) (f : Func) {L : Lane} (hL : L.Inv l) : (Lane.engage k f L).Inv l := by
  unfold Lane.engage
  try dsimp only
  repeat' first | with_reducible assumption | (intro _ _ _) | (intro _ _) | with_reducible apply Lane.answer_inv | with_reducible apply Lane.wrBit_inv | with_reducible apply ite_inv

theorem Lane.disengage_inv {l : LaneId} (k : HostCmd) (f : Func) {L : Lane} (hL : L.Inv l) : (Lane.disengage k f L).Inv l := by
  unfold Lane.disengage
  try dsimp only
  repeat' first | with_reducible assumption | (intro _ _ _) | (intro _ _) | with_reducible apply Lane.answer_inv | with_reducible apply Lane.wrBit_inv

theorem Lane.keepSetpoint_inv {l : LaneId} (h : Fin 4) (f : Func) (v : Word) (valid : Nat) {L : Lane} (hL : L.Inv l) : (Lane.keepSetpoint h f v valid L).Inv l := by
  unfold Lane.keepSetpoint
  try dsimp only
  repeat' first | with_reducible assumption | (intro _ _ _) | (intro _ _) | with_reducible apply Lane.onHost_inv

theorem Lane.answerSet_inv {l : LaneId} (k : HostCmd) (op : Nat) {L : Lane} (hL : L.Inv l) : (Lane.answerSet k op L).Inv l := by
  unfold Lane.answerSet
  try dsimp only
  repeat' first | with_reducible assumption | (intro _ _ _) | (intro _ _) | with_reducible apply Lane.answer_inv | with_reducible apply Lane.restart_inv | with_reducible apply ite_inv

theorem Lane.setpoint_inv {l : LaneId} (k : HostCmd) (op : Nat) (f : Func) (v : Word) (valid : Nat) {L : Lane} (hL : L.Inv l) : (Lane.setpoint k op f v valid L).Inv l := by
  unfold Lane.setpoint
  try dsimp only
  repeat' first | with_reducible assumption | (intro _ _ _) | (intro _ _) | with_reducible apply Lane.answerSet_inv | with_reducible apply Lane.keepSetpoint_inv | with_reducible apply Lane.answer_inv | with_reducible apply ite_inv

theorem Lane.parkSet_inv {l : LaneId} (k : HostCmd) (v : Nat) {L : Lane} (hL : L.Inv l) : (Lane.parkSet k v L).Inv l := by
  unfold Lane.parkSet
  try dsimp only
  repeat' first | with_reducible assumption | (intro _ _ _) | (intro _ _) | with_reducible apply Lane.keepSetpoint_inv | with_reducible apply Lane.answer_inv | with_reducible apply ite_inv

theorem Lane.hostArm_inv {l : LaneId} (k : HostCmd) {L : Lane} (hL : L.Inv l) : (Lane.hostArm k L).Inv l := by
  unfold Lane.hostArm
  try dsimp only
  repeat' first | with_reducible assumption | (intro _ _ _) | (intro _ _) | with_reducible apply Lane.answer_inv | with_reducible apply Lane.armTrigger_inv

theorem Lane.attestReq_inv {l : LaneId} (k : HostCmd) (nonce : Nat) {L : Lane} (hL : L.Inv l) : (Lane.attestReq k nonce L).Inv l := by
  unfold Lane.attestReq
  try dsimp only
  repeat' first | with_reducible assumption | (intro _ _ _) | (intro _ _) | with_reducible apply Lane.answer_inv | with_reducible apply Lane.respond_inv | with_reducible apply ite_inv | with_reducible apply Lane.unpowered_id_inv | with_reducible apply Lane.when_inv | with_reducible apply Lane.each_inv

theorem Lane.hostJump_inv {l : LaneId} (k : HostCmd) (act : Nat) {L : Lane} (hL : L.Inv l) : (Lane.hostJump k act L).Inv l := by
  unfold Lane.hostJump
  try dsimp only
  repeat' first | with_reducible assumption | (intro _ _ _) | (intro _ _) | with_reducible apply Lane.answer_inv | with_reducible apply Lane.jumpRequest_inv | with_reducible apply ite_inv

theorem Lane.hostAutumnClr_inv {l : LaneId} (k : HostCmd) (mask : Nat) {L : Lane} (hL : L.Inv l) : (Lane.hostAutumnClr k mask L).Inv l := by
  unfold Lane.hostAutumnClr
  try dsimp only
  repeat' first | with_reducible assumption | (intro _ _ _) | (intro _ _) | with_reducible apply Lane.answer_inv | with_reducible apply Lane.roleClr_inv | with_reducible apply ite_inv

theorem Lane.hostTest_inv {l : LaneId} (k : HostCmd) {L : Lane} (hL : L.Inv l) : (Lane.hostTest k L).Inv l := by
  unfold Lane.hostTest
  try dsimp only
  repeat' first | with_reducible assumption | (intro _ _ _) | (intro _ _) | with_reducible apply Lane.answer_inv | with_reducible apply Lane.armEnd_inv | with_reducible apply Lane.setSvc_inv | with_reducible apply ite_inv | with_reducible apply Lane.unpowered_id_inv | with_reducible apply Lane.when_inv

theorem Lane.hostPdEnter_inv {l : LaneId} (k : HostCmd) (dom target : Nat) {L : Lane} (hL : L.Inv l) : (Lane.hostPdEnter k dom target L).Inv l := by
  unfold Lane.hostPdEnter
  try dsimp only
  repeat' first | with_reducible assumption | (intro _ _ _) | (intro _ _) | with_reducible apply Lane.answer_inv | with_reducible apply Lane.pdRequest_inv | with_reducible apply ite_inv

theorem Lane.hostPdWake_inv {l : LaneId} (k : HostCmd) (dom : Nat) {L : Lane} (hL : L.Inv l) : (Lane.hostPdWake k dom L).Inv l := by
  unfold Lane.hostPdWake
  try dsimp only
  repeat' first | with_reducible assumption | (intro _ _ _) | (intro _ _) | with_reducible apply Lane.answer_inv | with_reducible apply Lane.pdRequest_inv | with_reducible apply ite_inv

theorem Lane.pop_inv {l : LaneId} (q : Fin 16) {L : Lane} (hL : L.Inv l) : (Lane.pop q L).Inv l := by
  unfold Lane.pop
  try dsimp only
  repeat' first | with_reducible assumption | (intro _ _ _) | (intro _ _) | with_reducible apply Lane.onQueue_inv | with_reducible apply Lane.set1_inv | with_reducible apply Lane.wr_inv | with_reducible apply ite_inv | with_reducible apply Lane.unpowered_id_inv | with_reducible apply Lane.when_inv | with_reducible apply Lane.each_inv | with_reducible apply foldl_inv | with_reducible apply Lane.Inv.id | with_reducible apply Lane.Inv.regs | with_reducible apply Lane.Inv.sram | with_reducible apply Lane.Inv.store | with_reducible apply Tab.wf_filter | with_reducible apply Tab.wf_foldl | with_reducible apply Tab.wf_put | with_reducible apply Tab.wf_graft | with_reducible apply Lane.unpowered_inv | with_reducible apply foldl_pair_inv | split

theorem Lane.push_inv {l : LaneId} (q : Fin 16) {L : Lane} (hL : L.Inv l) : (Lane.push q L).Inv l := by
  unfold Lane.push
  try dsimp only
  repeat' first | with_reducible assumption | (intro _ _ _) | (intro _ _) | with_reducible apply Lane.pushTail_inv | with_reducible apply ite_inv

end Sys2Proof.Machine
end

