-- ==== Sys2Proof/Laws/InvNet.lean ====
section
/-! SUPPORT. The operations of Machine/Net.lean keep the invariant of a lane. -/

namespace Sys2Proof.Machine

theorem Lane.isoCannot_inv {l : LaneId}  {L : Lane} (hL : L.Inv l) : (Lane.isoCannot  L).Inv l := by
  unfold Lane.isoCannot
  try dsimp only
  repeat' first | with_reducible assumption | (intro _ _ _) | (intro _ _) | with_reducible apply Lane.closeSession_inv | with_reducible apply Lane.onIso_inv | with_reducible apply Lane.send_inv | with_reducible apply Lane.clr_inv | with_reducible apply Lane.wr_inv | with_reducible apply ite_inv | with_reducible apply Lane.unpowered_id_inv | with_reducible apply Lane.when_inv | with_reducible apply Lane.each_inv

theorem Lane.isoLost_inv {l : LaneId}  {L : Lane} (hL : L.Inv l) : (Lane.isoLost  L).Inv l := by
  unfold Lane.isoLost
  try dsimp only
  repeat' first | with_reducible assumption | (intro _ _ _) | (intro _ _) | with_reducible apply Lane.isoCannot_inv | with_reducible apply Lane.isoClaim_inv | with_reducible apply ite_inv | with_reducible apply Lane.unpowered_id_inv | with_reducible apply Lane.when_inv | with_reducible apply Lane.each_inv | with_reducible apply foldl_inv | with_reducible apply Lane.Inv.id | with_reducible apply Lane.Inv.regs | with_reducible apply Lane.Inv.sram | with_reducible apply Lane.Inv.store | with_reducible apply Tab.wf_filter | with_reducible apply Tab.wf_foldl | with_reducible apply Tab.wf_put | with_reducible apply Tab.wf_putList | with_reducible apply Tab.wf_graft | with_reducible apply Lane.unpowered_inv | split

theorem Lane.isoHear_inv {l : LaneId} (src name : Nat) {L : Lane} (hL : L.Inv l) : (Lane.isoHear src name L).Inv l := by
  unfold Lane.isoHear
  try dsimp only
  repeat' first | with_reducible assumption | (intro _ _ _) | (intro _ _) | with_reducible apply Lane.isoLost_inv | with_reducible apply Lane.heard_inv | with_reducible apply Lane.isoClaim_inv | with_reducible apply Lane.onIso_inv | with_reducible apply ite_inv

theorem Lane.isoAnswerClaim_inv {l : LaneId}  {L : Lane} (hL : L.Inv l) : (Lane.isoAnswerClaim  L).Inv l := by
  unfold Lane.isoAnswerClaim
  try dsimp only
  repeat' first | with_reducible assumption | (intro _ _ _) | (intro _ _) | with_reducible apply Lane.send_inv

theorem Lane.isoCommanded_inv {l : LaneId} (name addr : Nat) {L : Lane} (hL : L.Inv l) : (Lane.isoCommanded name addr L).Inv l := by
  unfold Lane.isoCommanded
  try dsimp only
  repeat' first | with_reducible assumption | (intro _ _ _) | (intro _ _) | with_reducible apply Lane.isoClaim_inv | with_reducible apply ite_inv | with_reducible apply Lane.unpowered_id_inv | with_reducible apply Lane.when_inv

theorem Lane.dm1Send_inv {l : LaneId}  {L : Lane} (hL : L.Inv l) : (Lane.dm1Send  L).Inv l := by
  unfold Lane.dm1Send
  try dsimp only
  repeat' first | with_reducible assumption | (intro _ _ _) | (intro _ _) | with_reducible apply Lane.broadcast_inv | with_reducible apply Lane.onIso_inv | with_reducible apply Lane.restart_inv

theorem Lane.dm1Timer_inv {l : LaneId}  {L : Lane} (hL : L.Inv l) : (Lane.dm1Timer  L).Inv l := by
  unfold Lane.dm1Timer
  try dsimp only
  repeat' first | with_reducible assumption | (intro _ _ _) | (intro _ _) | with_reducible apply Lane.dm1Send_inv | with_reducible apply ite_inv | with_reducible apply Lane.unpowered_id_inv | with_reducible apply Lane.when_inv

theorem Lane.isoRequest_inv {l : LaneId} (src dst pgn : Nat) {L : Lane} (hL : L.Inv l) : (Lane.isoRequest src dst pgn L).Inv l := by
  unfold Lane.isoRequest
  try dsimp only
  repeat' first | with_reducible assumption | (intro _ _ _) | (intro _ _) | with_reducible apply Lane.isoAnswerClaim_inv | with_reducible apply Lane.broadcast_inv | with_reducible apply Lane.send_inv | with_reducible apply ite_inv

theorem Lane.isoDiscard_inv {l : LaneId}  {L : Lane} (hL : L.Inv l) : (Lane.isoDiscard  L).Inv l := by
  unfold Lane.isoDiscard
  try dsimp only
  repeat' first | with_reducible assumption | (intro _ _ _) | (intro _ _) | with_reducible apply Lane.count_inv

theorem Lane.formDescr_inv {l : LaneId} (h : Fin 4) (op : Nat) (args : List Byte) {L : Lane} (hL : L.Inv l) : (Lane.formDescr h op args L).Inv l := by
  unfold Lane.formDescr
  try dsimp only
  repeat' first | with_reducible assumption | (intro _ _ _) | (intro _ _) | with_reducible apply Lane.placeNext_inv | with_reducible apply ite_inv | with_reducible apply Lane.unpowered_id_inv | with_reducible apply Lane.when_inv | with_reducible apply Lane.each_inv | with_reducible apply foldl_inv | with_reducible apply Lane.Inv.id | with_reducible apply Lane.Inv.regs | with_reducible apply Lane.Inv.sram | with_reducible apply Lane.Inv.store | with_reducible apply Tab.wf_filter | with_reducible apply Tab.wf_foldl | with_reducible apply Tab.wf_put | with_reducible apply Tab.wf_putList | with_reducible apply Tab.wf_graft | with_reducible apply Lane.unpowered_inv | split

theorem Lane.trailerRequest_inv {l : LaneId} (src demand valid : Nat) (engage : Bool) {L : Lane} (hL : L.Inv l) : (Lane.trailerRequest src demand valid engage L).Inv l := by
  unfold Lane.trailerRequest
  try dsimp only
  repeat' first | with_reducible assumption | (intro _ _ _) | (intro _ _) | with_reducible apply Lane.formDescr_inv | with_reducible apply Lane.isoDiscard_inv | with_reducible apply Lane.engage_inv | with_reducible apply Lane.heard_inv | with_reducible apply Lane.countMod_inv | with_reducible apply ite_inv | with_reducible apply Lane.unpowered_id_inv | with_reducible apply Lane.when_inv | with_reducible apply Lane.each_inv | with_reducible apply foldl_inv | with_reducible apply Lane.Inv.id | with_reducible apply Lane.Inv.regs | with_reducible apply Lane.Inv.sram | with_reducible apply Lane.Inv.store | with_reducible apply Tab.wf_filter | with_reducible apply Tab.wf_foldl | with_reducible apply Tab.wf_put | with_reducible apply Tab.wf_putList | with_reducible apply Tab.wf_graft | with_reducible apply Lane.unpowered_inv | split

theorem Lane.tpDone_inv {l : LaneId} (src : Nat) {L : Lane} (hL : L.Inv l) : (Lane.tpDone src L).Inv l := by
  unfold Lane.tpDone
  try dsimp only
  repeat' first | with_reducible assumption | (intro _ _ _) | (intro _ _) | with_reducible apply Lane.onIso_inv | with_reducible apply Lane.send_inv | with_reducible apply ite_inv | with_reducible apply Lane.unpowered_id_inv | with_reducible apply Lane.when_inv | with_reducible apply Lane.each_inv | with_reducible apply foldl_inv | with_reducible apply Lane.Inv.id | with_reducible apply Lane.Inv.regs | with_reducible apply Lane.Inv.sram | with_reducible apply Lane.Inv.store | with_reducible apply Tab.wf_filter | with_reducible apply Tab.wf_foldl | with_reducible apply Tab.wf_put | with_reducible apply Tab.wf_putList | with_reducible apply Tab.wf_graft | with_reducible apply Lane.unpowered_inv | split

theorem Lane.isoOpen_inv {l : LaneId} (h : Fin 4) (src nonce : Nat) (sig : List Byte) {L : Lane} (hL : L.Inv l) : (Lane.isoOpen h src nonce sig L).Inv l := by
  unfold Lane.isoOpen
  try dsimp only
  repeat' first | with_reducible assumption | (intro _ _ _) | (intro _ _) | with_reducible apply Lane.tpDone_inv | with_reducible apply Lane.openSession_inv | with_reducible apply Lane.challenge_inv | with_reducible apply Lane.answer_inv | with_reducible apply Lane.respond_inv | with_reducible apply Lane.onIso_inv | with_reducible apply ite_inv

theorem Lane.tpData_inv {l : LaneId} (n : Nat) {L : Lane} (hL : L.Inv l) : (Lane.tpData n L).Inv l := by
  unfold Lane.tpData
  try dsimp only
  repeat' first | with_reducible assumption | (intro _ _ _) | (intro _ _) | with_reducible apply Lane.onIso_inv | with_reducible apply Lane.send_inv | with_reducible apply ite_inv | with_reducible apply Lane.unpowered_id_inv | with_reducible apply Lane.when_inv | with_reducible apply Lane.each_inv | with_reducible apply foldl_inv | with_reducible apply Lane.Inv.id | with_reducible apply Lane.Inv.regs | with_reducible apply Lane.Inv.sram | with_reducible apply Lane.Inv.store | with_reducible apply Tab.wf_filter | with_reducible apply Tab.wf_foldl | with_reducible apply Tab.wf_put | with_reducible apply Tab.wf_putList | with_reducible apply Tab.wf_graft | with_reducible apply Lane.unpowered_inv | split

theorem Lane.tpCm_inv {l : LaneId} (m : TpCm) {L : Lane} (hL : L.Inv l) : (Lane.tpCm m L).Inv l := by
  unfold Lane.tpCm
  try dsimp only
  repeat' first | with_reducible assumption | (intro _ _ _) | (intro _ _) | with_reducible apply Lane.tpData_inv | with_reducible apply Lane.tpNext_inv | with_reducible apply Lane.onIso_inv | with_reducible apply Lane.send_inv | with_reducible apply ite_inv | with_reducible apply Lane.unpowered_id_inv | with_reducible apply Lane.when_inv | with_reducible apply Lane.each_inv | with_reducible apply foldl_inv | with_reducible apply Lane.Inv.id | with_reducible apply Lane.Inv.regs | with_reducible apply Lane.Inv.sram | with_reducible apply Lane.Inv.store | with_reducible apply Tab.wf_filter | with_reducible apply Tab.wf_foldl | with_reducible apply Tab.wf_put | with_reducible apply Tab.wf_putList | with_reducible apply Tab.wf_graft | with_reducible apply Lane.unpowered_inv | split

end Sys2Proof.Machine
end

