-- ==== Sys2Proof/Laws/InvSecurity.lean ====
section
/-! SUPPORT. The operations of Machine/Security.lean keep the invariant of a lane. -/

namespace Sys2Proof.Machine

theorem Lane.drawNonce_inv {l : LaneId}  {L : Lane} (hL : L.Inv l) : (Lane.drawNonce  L).Inv l := by
  unfold Lane.drawNonce
  try dsimp only
  repeat' first | with_reducible assumption | (intro _ _ _) | (intro _ _) | with_reducible apply Lane.onSec_inv | with_reducible apply Lane.drawn_inv | with_reducible apply Lane.restart_inv

theorem Lane.spendNonce_inv {l : LaneId}  {L : Lane} (hL : L.Inv l) : (Lane.spendNonce  L).Inv l := by
  unfold Lane.spendNonce
  try dsimp only
  repeat' first | with_reducible assumption | (intro _ _ _) | (intro _ _) | with_reducible apply Lane.onSec_inv | with_reducible apply Lane.stop_inv

theorem Lane.openDebug_inv {l : LaneId} (t : Token) {L : Lane} (hL : L.Inv l) : (Lane.openDebug t L).Inv l := by
  unfold Lane.openDebug
  try dsimp only
  repeat' first | with_reducible assumption | (intro _ _ _) | (intro _ _) | with_reducible apply Lane.tokenBar_inv | with_reducible apply Lane.setTimer_inv | with_reducible apply Lane.set1_inv | with_reducible apply Lane.wr_inv | with_reducible apply ite_inv | with_reducible apply Lane.unpowered_id_inv | with_reducible apply Lane.when_inv

theorem Lane.tokenCheck_inv {l : LaneId} (b : List Byte) {L : Lane} (hL : L.Inv l) : (Lane.tokenCheck b L).1.Inv l := by
  unfold Lane.tokenCheck
  try dsimp only
  repeat' first | with_reducible assumption | (intro _ _ _) | (intro _ _) | with_reducible apply Lane.openDebug_inv | with_reducible apply Lane.spendNonce_inv | with_reducible apply ite_inv | with_reducible apply Lane.unpowered_id_inv | with_reducible apply Lane.when_inv | with_reducible apply Lane.each_inv | with_reducible apply foldl_inv | with_reducible apply Lane.Inv.id | with_reducible apply Lane.Inv.regs | with_reducible apply Lane.Inv.sram | with_reducible apply Lane.Inv.store | with_reducible apply Tab.wf_filter | with_reducible apply Tab.wf_foldl | with_reducible apply Tab.wf_put | with_reducible apply Tab.wf_graft | with_reducible apply Lane.unpowered_inv | with_reducible apply foldl_pair_inv | split

theorem Lane.closeDebug_inv {l : LaneId}  {L : Lane} (hL : L.Inv l) : (Lane.closeDebug  L).Inv l := by
  unfold Lane.closeDebug
  try dsimp only
  repeat' first | with_reducible assumption | (intro _ _ _) | (intro _ _) | with_reducible apply Lane.run_inv | with_reducible apply Lane.onDbg_inv | with_reducible apply Lane.stop_inv | with_reducible apply Lane.clr_inv | with_reducible apply Lane.wr_inv | with_reducible apply ite_inv | with_reducible apply Lane.unpowered_id_inv | with_reducible apply Lane.when_inv | with_reducible apply Lane.each_inv | with_reducible apply foldl_inv | with_reducible apply Lane.Inv.id | with_reducible apply Lane.Inv.regs | with_reducible apply Lane.Inv.sram | with_reducible apply Lane.Inv.store | with_reducible apply Tab.wf_filter | with_reducible apply Tab.wf_foldl | with_reducible apply Tab.wf_put | with_reducible apply Tab.wf_graft | with_reducible apply Lane.unpowered_inv | with_reducible apply foldl_pair_inv | split | (simp only [Lane.mk_inv]; refine ⟨?_, ?_, ?_, ?_⟩)

theorem Lane.seFail_inv {l : LaneId} (v : Nat) {L : Lane} (hL : L.Inv l) : (Lane.seFail v L).1.Inv l := by
  unfold Lane.seFail
  try dsimp only
  repeat' first | with_reducible assumption

theorem Lane.seInfo_inv {l : LaneId}  {L : Lane} (hL : L.Inv l) : (Lane.seInfo  L).1.Inv l := by
  unfold Lane.seInfo
  try dsimp only
  repeat' first | with_reducible assumption

theorem Lane.seIdGen_inv {l : LaneId}  {L : Lane} (hL : L.Inv l) : (Lane.seIdGen  L).1.Inv l := by
  unfold Lane.seIdGen
  try dsimp only
  repeat' first | with_reducible assumption | (intro _ _ _) | (intro _ _) | with_reducible apply Lane.seFail_inv | with_reducible apply Lane.onSec_inv | with_reducible apply Lane.storeWrite_inv | with_reducible apply Lane.drawn_inv | with_reducible apply ite_inv | with_reducible apply Lane.unpowered_id_inv | with_reducible apply Lane.when_inv | with_reducible apply Lane.each_inv | with_reducible apply foldl_inv | with_reducible apply Lane.Inv.id | with_reducible apply Lane.Inv.regs | with_reducible apply Lane.Inv.sram | with_reducible apply Lane.Inv.store | with_reducible apply Tab.wf_filter | with_reducible apply Tab.wf_foldl | with_reducible apply Tab.wf_put | with_reducible apply Tab.wf_graft | with_reducible apply Lane.unpowered_inv | with_reducible apply foldl_pair_inv | split

theorem Lane.seIdPub_inv {l : LaneId}  {L : Lane} (hL : L.Inv l) : (Lane.seIdPub  L).1.Inv l := by
  unfold Lane.seIdPub
  try dsimp only
  repeat' first | with_reducible assumption | (intro _ _ _) | (intro _ _) | with_reducible apply Lane.seFail_inv | with_reducible apply ite_inv | with_reducible apply Lane.unpowered_id_inv | with_reducible apply Lane.when_inv | with_reducible apply Lane.each_inv | with_reducible apply foldl_inv | with_reducible apply Lane.Inv.id | with_reducible apply Lane.Inv.regs | with_reducible apply Lane.Inv.sram | with_reducible apply Lane.Inv.store | with_reducible apply Tab.wf_filter | with_reducible apply Tab.wf_foldl | with_reducible apply Tab.wf_put | with_reducible apply Tab.wf_graft | with_reducible apply Lane.unpowered_inv | with_reducible apply foldl_pair_inv | split

theorem Lane.seIdCert_inv {l : LaneId} (req : List Byte) {L : Lane} (hL : L.Inv l) : (Lane.seIdCert req L).1.Inv l := by
  unfold Lane.seIdCert
  try dsimp only
  repeat' first | with_reducible assumption | (intro _ _ _) | (intro _ _) | with_reducible apply Lane.seFail_inv | with_reducible apply Lane.onSec_inv | with_reducible apply ite_inv | with_reducible apply Lane.unpowered_id_inv | with_reducible apply Lane.when_inv | with_reducible apply Lane.each_inv | with_reducible apply foldl_inv | with_reducible apply Lane.Inv.id | with_reducible apply Lane.Inv.regs | with_reducible apply Lane.Inv.sram | with_reducible apply Lane.Inv.store | with_reducible apply Tab.wf_filter | with_reducible apply Tab.wf_foldl | with_reducible apply Tab.wf_put | with_reducible apply Tab.wf_graft | with_reducible apply Lane.unpowered_inv | with_reducible apply foldl_pair_inv | split

theorem Lane.seSign_inv {l : LaneId} (req : List Byte) {L : Lane} (hL : L.Inv l) : (Lane.seSign req L).1.Inv l := by
  unfold Lane.seSign
  try dsimp only
  repeat' first | with_reducible assumption | (intro _ _ _) | (intro _ _) | with_reducible apply Lane.seFail_inv | with_reducible apply ite_inv | with_reducible apply Lane.unpowered_id_inv | with_reducible apply Lane.when_inv | with_reducible apply Lane.each_inv | with_reducible apply foldl_inv | with_reducible apply Lane.Inv.id | with_reducible apply Lane.Inv.regs | with_reducible apply Lane.Inv.sram | with_reducible apply Lane.Inv.store | with_reducible apply Tab.wf_filter | with_reducible apply Tab.wf_foldl | with_reducible apply Tab.wf_put | with_reducible apply Tab.wf_graft | with_reducible apply Lane.unpowered_inv | with_reducible apply foldl_pair_inv | split

theorem Lane.seVerify_inv {l : LaneId} (req : List Byte) {L : Lane} (hL : L.Inv l) : (Lane.seVerify req L).1.Inv l := by
  unfold Lane.seVerify
  try dsimp only
  repeat' first | with_reducible assumption | (intro _ _ _) | (intro _ _) | with_reducible apply Lane.seFail_inv | with_reducible apply ite_inv | with_reducible apply Lane.unpowered_id_inv | with_reducible apply Lane.when_inv | with_reducible apply Lane.each_inv | with_reducible apply foldl_inv | with_reducible apply Lane.Inv.id | with_reducible apply Lane.Inv.regs | with_reducible apply Lane.Inv.sram | with_reducible apply Lane.Inv.store | with_reducible apply Tab.wf_filter | with_reducible apply Tab.wf_foldl | with_reducible apply Tab.wf_put | with_reducible apply Tab.wf_graft | with_reducible apply Lane.unpowered_inv | with_reducible apply foldl_pair_inv | split

theorem Lane.seHash_inv {l : LaneId} (req : List Byte) {L : Lane} (hL : L.Inv l) : (Lane.seHash req L).1.Inv l := by
  unfold Lane.seHash
  try dsimp only
  repeat' first | with_reducible assumption | (intro _ _ _) | (intro _ _) | with_reducible apply Lane.seFail_inv | with_reducible apply ite_inv | with_reducible apply Lane.unpowered_id_inv | with_reducible apply Lane.when_inv | with_reducible apply Lane.each_inv | with_reducible apply foldl_inv | with_reducible apply Lane.Inv.id | with_reducible apply Lane.Inv.regs | with_reducible apply Lane.Inv.sram | with_reducible apply Lane.Inv.store | with_reducible apply Tab.wf_filter | with_reducible apply Tab.wf_foldl | with_reducible apply Tab.wf_put | with_reducible apply Tab.wf_graft | with_reducible apply Lane.unpowered_inv | with_reducible apply foldl_pair_inv | split

theorem Lane.seRandom_inv {l : LaneId} (req : List Byte) {L : Lane} (hL : L.Inv l) : (Lane.seRandom req L).1.Inv l := by
  unfold Lane.seRandom
  try dsimp only
  repeat' first | with_reducible assumption | (intro _ _ _) | (intro _ _) | with_reducible apply Lane.seFail_inv | with_reducible apply Lane.drawn_inv | with_reducible apply ite_inv | with_reducible apply Lane.unpowered_id_inv | with_reducible apply Lane.when_inv | with_reducible apply Lane.each_inv | with_reducible apply foldl_inv | with_reducible apply Lane.Inv.id | with_reducible apply Lane.Inv.regs | with_reducible apply Lane.Inv.sram | with_reducible apply Lane.Inv.store | with_reducible apply Tab.wf_filter | with_reducible apply Tab.wf_foldl | with_reducible apply Tab.wf_put | with_reducible apply Tab.wf_graft | with_reducible apply Lane.unpowered_inv | with_reducible apply foldl_pair_inv | split

theorem Lane.seAttest_inv {l : LaneId} (req : List Byte) {L : Lane} (hL : L.Inv l) : (Lane.seAttest req L).1.Inv l := by
  unfold Lane.seAttest
  try dsimp only
  repeat' first | with_reducible assumption | (intro _ _ _) | (intro _ _) | with_reducible apply Lane.seFail_inv | with_reducible apply ite_inv | with_reducible apply Lane.unpowered_id_inv | with_reducible apply Lane.when_inv | with_reducible apply Lane.each_inv | with_reducible apply foldl_inv | with_reducible apply Lane.Inv.id | with_reducible apply Lane.Inv.regs | with_reducible apply Lane.Inv.sram | with_reducible apply Lane.Inv.store | with_reducible apply Tab.wf_filter | with_reducible apply Tab.wf_foldl | with_reducible apply Tab.wf_put | with_reducible apply Tab.wf_graft | with_reducible apply Lane.unpowered_inv | with_reducible apply foldl_pair_inv | split

theorem Lane.seDbgChal_inv {l : LaneId}  {L : Lane} (hL : L.Inv l) : (Lane.seDbgChal  L).1.Inv l := by
  unfold Lane.seDbgChal
  try dsimp only
  repeat' first | with_reducible assumption | (intro _ _ _) | (intro _ _) | with_reducible apply Lane.seFail_inv | with_reducible apply Lane.drawNonce_inv | with_reducible apply ite_inv | with_reducible apply Lane.unpowered_id_inv | with_reducible apply Lane.when_inv | with_reducible apply Lane.each_inv | with_reducible apply foldl_inv | with_reducible apply Lane.Inv.id | with_reducible apply Lane.Inv.regs | with_reducible apply Lane.Inv.sram | with_reducible apply Lane.Inv.store | with_reducible apply Tab.wf_filter | with_reducible apply Tab.wf_foldl | with_reducible apply Tab.wf_put | with_reducible apply Tab.wf_graft | with_reducible apply Lane.unpowered_inv | with_reducible apply foldl_pair_inv | split

theorem Lane.seDbgOpen_inv {l : LaneId} (req : List Byte) {L : Lane} (hL : L.Inv l) : (Lane.seDbgOpen req L).1.Inv l := by
  unfold Lane.seDbgOpen
  try dsimp only
  repeat' first | with_reducible assumption | (intro _ _ _) | (intro _ _) | with_reducible apply Lane.seFail_inv | with_reducible apply Lane.tokenCheck_inv | with_reducible apply ite_inv | with_reducible apply Lane.unpowered_id_inv | with_reducible apply Lane.when_inv | with_reducible apply Lane.each_inv | with_reducible apply foldl_inv | with_reducible apply Lane.Inv.id | with_reducible apply Lane.Inv.regs | with_reducible apply Lane.Inv.sram | with_reducible apply Lane.Inv.store | with_reducible apply Tab.wf_filter | with_reducible apply Tab.wf_foldl | with_reducible apply Tab.wf_put | with_reducible apply Tab.wf_graft | with_reducible apply Lane.unpowered_inv | with_reducible apply foldl_pair_inv | split

theorem Lane.seDbgClose_inv {l : LaneId}  {L : Lane} (hL : L.Inv l) : (Lane.seDbgClose  L).1.Inv l := by
  unfold Lane.seDbgClose
  try dsimp only
  repeat' first | with_reducible assumption | (intro _ _ _) | (intro _ _) | with_reducible apply Lane.closeDebug_inv

theorem Lane.zeroise_inv {l : LaneId}  {L : Lane} (hL : L.Inv l) : (Lane.zeroise  L).Inv l := by
  unfold Lane.zeroise
  try dsimp only
  repeat' first | with_reducible assumption | (intro _ _ _) | (intro _ _) | with_reducible apply Lane.securityClear_inv | with_reducible apply Lane.onSec_inv | with_reducible apply Lane.set1_inv

theorem Lane.seLcAdvance_inv {l : LaneId} (req : List Byte) {L : Lane} (hL : L.Inv l) : (Lane.seLcAdvance req L).1.Inv l := by
  unfold Lane.seLcAdvance
  try dsimp only
  repeat' first | with_reducible assumption | (intro _ _ _) | (intro _ _) | with_reducible apply Lane.zeroise_inv | with_reducible apply Lane.seFail_inv | with_reducible apply Lane.spendNonce_inv | with_reducible apply Lane.onSec_inv | with_reducible apply ite_inv | with_reducible apply Lane.unpowered_id_inv | with_reducible apply Lane.when_inv | with_reducible apply Lane.each_inv | with_reducible apply foldl_inv | with_reducible apply Lane.Inv.id | with_reducible apply Lane.Inv.regs | with_reducible apply Lane.Inv.sram | with_reducible apply Lane.Inv.store | with_reducible apply Tab.wf_filter | with_reducible apply Tab.wf_foldl | with_reducible apply Tab.wf_put | with_reducible apply Tab.wf_graft | with_reducible apply Lane.unpowered_inv | with_reducible apply foldl_pair_inv | split

theorem Lane.seKeyRevoke_inv {l : LaneId} (req : List Byte) {L : Lane} (hL : L.Inv l) : (Lane.seKeyRevoke req L).1.Inv l := by
  unfold Lane.seKeyRevoke
  try dsimp only
  repeat' first | with_reducible assumption | (intro _ _ _) | (intro _ _) | with_reducible apply Lane.seFail_inv | with_reducible apply Lane.spendNonce_inv | with_reducible apply Lane.onSec_inv | with_reducible apply ite_inv | with_reducible apply Lane.unpowered_id_inv | with_reducible apply Lane.when_inv | with_reducible apply Lane.each_inv | with_reducible apply foldl_inv | with_reducible apply Lane.Inv.id | with_reducible apply Lane.Inv.regs | with_reducible apply Lane.Inv.sram | with_reducible apply Lane.Inv.store | with_reducible apply Tab.wf_filter | with_reducible apply Tab.wf_foldl | with_reducible apply Tab.wf_put | with_reducible apply Tab.wf_graft | with_reducible apply Lane.unpowered_inv | with_reducible apply foldl_pair_inv | split

theorem Lane.seKeyProg_inv {l : LaneId} (req : List Byte) {L : Lane} (hL : L.Inv l) : (Lane.seKeyProg req L).1.Inv l := by
  unfold Lane.seKeyProg
  try dsimp only
  repeat' first | with_reducible assumption | (intro _ _ _) | (intro _ _) | with_reducible apply Lane.seFail_inv | with_reducible apply Lane.onSec_inv | with_reducible apply ite_inv | with_reducible apply Lane.unpowered_id_inv | with_reducible apply Lane.when_inv | with_reducible apply Lane.each_inv | with_reducible apply foldl_inv | with_reducible apply Lane.Inv.id | with_reducible apply Lane.Inv.regs | with_reducible apply Lane.Inv.sram | with_reducible apply Lane.Inv.store | with_reducible apply Tab.wf_filter | with_reducible apply Tab.wf_foldl | with_reducible apply Tab.wf_put | with_reducible apply Tab.wf_graft | with_reducible apply Lane.unpowered_inv | with_reducible apply foldl_pair_inv | split

theorem Lane.seSubmit_inv {l : LaneId} (c : Fin 2) (pair : Pair) (op len : Nat) (act : List Byte → Lane → SeResult) (hact : ∀ (x : List Byte) (M : Lane), M.Inv l → (act x M).1.Inv l) {L : Lane} (hL : L.Inv l) : (Lane.seSubmit c pair op len act L).Inv l := by
  unfold Lane.seSubmit
  try dsimp only
  repeat' first | with_reducible assumption | (intro _ _ _) | (intro _ _) | with_reducible apply hact | with_reducible apply Lane.seFail_inv | with_reducible apply Lane.fire_inv | with_reducible apply Lane.onSec_inv | with_reducible apply Lane.set1_inv | with_reducible apply Lane.wr_inv | with_reducible apply ite_inv | with_reducible apply Lane.unpowered_id_inv | with_reducible apply Lane.when_inv | with_reducible apply Lane.each_inv | with_reducible apply foldl_inv | with_reducible apply Lane.Inv.id | with_reducible apply Lane.Inv.regs | with_reducible apply Lane.Inv.sram | with_reducible apply Lane.Inv.store | with_reducible apply Tab.wf_filter | with_reducible apply Tab.wf_foldl | with_reducible apply Tab.wf_put | with_reducible apply Tab.wf_graft | with_reducible apply Lane.unpowered_inv | with_reducible apply foldl_pair_inv | split

theorem Lane.seAct_inv {l : LaneId} (op : Nat) (req : List Byte) {L : Lane} (hL : L.Inv l) : (Lane.seAct op req L).1.Inv l := by
  unfold Lane.seAct
  try dsimp only
  repeat' first | with_reducible assumption | (intro _ _ _) | (intro _ _) | with_reducible apply Lane.seKeyProg_inv | with_reducible apply Lane.seKeyRevoke_inv | with_reducible apply Lane.seLcAdvance_inv | with_reducible apply Lane.seDbgClose_inv | with_reducible apply Lane.seDbgOpen_inv | with_reducible apply Lane.seDbgChal_inv | with_reducible apply Lane.seAttest_inv | with_reducible apply Lane.seRandom_inv | with_reducible apply Lane.seHash_inv | with_reducible apply Lane.seVerify_inv | with_reducible apply Lane.seSign_inv | with_reducible apply Lane.seIdCert_inv | with_reducible apply Lane.seIdPub_inv | with_reducible apply Lane.seIdGen_inv | with_reducible apply Lane.seInfo_inv | with_reducible apply Lane.seFail_inv | with_reducible apply ite_inv | with_reducible apply Lane.unpowered_id_inv | with_reducible apply Lane.when_inv | with_reducible apply Lane.each_inv | with_reducible apply foldl_inv | with_reducible apply Lane.Inv.id | with_reducible apply Lane.Inv.regs | with_reducible apply Lane.Inv.sram | with_reducible apply Lane.Inv.store | with_reducible apply Tab.wf_filter | with_reducible apply Tab.wf_foldl | with_reducible apply Tab.wf_put | with_reducible apply Tab.wf_graft | with_reducible apply Lane.unpowered_inv | with_reducible apply foldl_pair_inv | split

theorem Lane.seComplete_inv {l : LaneId} (c : Fin 2) {L : Lane} (hL : L.Inv l) : (Lane.seComplete c L).Inv l := by
  unfold Lane.seComplete
  try dsimp only
  repeat' first | with_reducible assumption | (intro _ _ _) | (intro _ _) | with_reducible apply Lane.onSec_inv | with_reducible apply Lane.irq_inv | with_reducible apply Lane.clr_inv | with_reducible apply Lane.set1_inv | with_reducible apply Lane.wr_inv | with_reducible apply ite_inv | with_reducible apply Lane.unpowered_id_inv | with_reducible apply Lane.when_inv | with_reducible apply Lane.each_inv | with_reducible apply foldl_inv | with_reducible apply Lane.Inv.id | with_reducible apply Lane.Inv.regs | with_reducible apply Lane.Inv.sram | with_reducible apply Lane.Inv.store | with_reducible apply Tab.wf_filter | with_reducible apply Tab.wf_foldl | with_reducible apply Tab.wf_put | with_reducible apply Tab.wf_graft | with_reducible apply Lane.unpowered_inv | with_reducible apply foldl_pair_inv | split

theorem Lane.entropyFail_inv {l : LaneId}  {L : Lane} (hL : L.Inv l) : (Lane.entropyFail  L).Inv l := by
  unfold Lane.entropyFail
  try dsimp only
  repeat' first | with_reducible assumption | (intro _ _ _) | (intro _ _) | with_reducible apply Lane.fireLevel_inv | with_reducible apply Lane.onSec_inv | with_reducible apply Lane.set1_inv

theorem Lane.tamper_inv {l : LaneId}  {L : Lane} (hL : L.Inv l) : (Lane.tamper  L).Inv l := by
  unfold Lane.tamper
  try dsimp only
  repeat' first | with_reducible assumption | (intro _ _ _) | (intro _ _) | with_reducible apply Lane.forced_inv | with_reducible apply Lane.fireLevel_inv | with_reducible apply Lane.onSec_inv | with_reducible apply Lane.set1_inv | with_reducible apply ite_inv | with_reducible apply Lane.unpowered_id_inv | with_reducible apply Lane.when_inv

theorem Lane.authChallenge_inv {l : LaneId}  {L : Lane} (hL : L.Inv l) : (Lane.authChallenge  L).Inv l := by
  unfold Lane.authChallenge
  try dsimp only
  repeat' first | with_reducible assumption | (intro _ _ _) | (intro _ _) | with_reducible apply Lane.drawNonce_inv | with_reducible apply Lane.onSec_inv | with_reducible apply ite_inv

theorem Lane.authWord_inv {l : LaneId} (w : Word) {L : Lane} (hL : L.Inv l) : (Lane.authWord w L).Inv l := by
  unfold Lane.authWord
  try dsimp only
  repeat' first | with_reducible assumption | (intro _ _ _) | (intro _ _) | with_reducible apply Lane.tokenCheck_inv | with_reducible apply Lane.onSec_inv | with_reducible apply ite_inv

theorem Lane.tokenDone_inv {l : LaneId}  {L : Lane} (hL : L.Inv l) : (Lane.tokenDone  L).Inv l := by
  unfold Lane.tokenDone
  try dsimp only
  repeat' first | with_reducible assumption | (intro _ _ _) | (intro _ _) | with_reducible apply Lane.tokenCheck_inv | with_reducible apply Lane.onSec_inv | with_reducible apply ite_inv

theorem Lane.authRead_inv {l : LaneId}  {L : Lane} (hL : L.Inv l) : (Lane.authRead  L).Inv l := by
  unfold Lane.authRead
  try dsimp only
  repeat' first | with_reducible assumption | (intro _ _ _) | (intro _ _) | with_reducible apply Lane.onSec_inv | with_reducible apply Lane.send_inv

end Sys2Proof.Machine
end

