-- ==== Sys2Proof/Laws/InvUpdate.lean ====
section
/-! SUPPORT. The operations of Machine/Update.lean keep the invariant of a lane. -/

namespace Sys2Proof.Machine

theorem Lane.clearStaging_inv {l : LaneId}  {L : Lane} (hL : L.Inv l) : (Lane.clearStaging  L).Inv l := by
  unfold Lane.clearStaging
  try dsimp only
  repeat' first | with_reducible assumption | (intro _ _ _) | (intro _ _) | with_reducible apply Lane.checkpoint_inv | with_reducible apply ite_inv | with_reducible apply Lane.unpowered_id_inv | with_reducible apply Lane.when_inv | with_reducible apply Lane.each_inv | with_reducible apply foldl_inv | with_reducible apply Lane.Inv.id | with_reducible apply Lane.Inv.regs | with_reducible apply Lane.Inv.sram | with_reducible apply Lane.Inv.store | with_reducible apply Tab.wf_filter | with_reducible apply Tab.wf_foldl | with_reducible apply Tab.wf_put | with_reducible apply Tab.wf_graft | with_reducible apply Lane.unpowered_inv | with_reducible apply foldl_pair_inv | split | (simp only [Lane.mk_inv]; refine ⟨?_, ?_, ?_, ?_⟩)

theorem Lane.updIdle_inv {l : LaneId}  {L : Lane} (hL : L.Inv l) : (Lane.updIdle  L).Inv l := by
  unfold Lane.updIdle
  try dsimp only
  repeat' first | with_reducible assumption | (intro _ _ _) | (intro _ _) | with_reducible apply Lane.clearStaging_inv | with_reducible apply Lane.journalWrite_inv | with_reducible apply Lane.onUpd_inv | with_reducible apply Lane.wr_inv

theorem Lane.updFail_inv {l : LaneId} (err : Nat) {L : Lane} (hL : L.Inv l) : (Lane.updFail err L).Inv l := by
  unfold Lane.updFail
  try dsimp only
  repeat' first | with_reducible assumption | (intro _ _ _) | (intro _ _) | with_reducible apply Lane.checkpoint_inv | with_reducible apply Lane.updIdle_inv | with_reducible apply Lane.journalWrite_inv | with_reducible apply Lane.onUpd_inv | with_reducible apply Lane.wr_inv | with_reducible apply ite_inv

theorem Lane.applyStart_inv {l : LaneId}  {L : Lane} (hL : L.Inv l) : (Lane.applyStart  L).Inv l := by
  unfold Lane.applyStart
  try dsimp only
  repeat' first | with_reducible assumption | (intro _ _ _) | (intro _ _) | with_reducible apply Lane.checkpoint_inv | with_reducible apply Lane.updFail_inv | with_reducible apply Lane.journalWrite_inv | with_reducible apply Lane.onUpd_inv | with_reducible apply Lane.wr_inv | with_reducible apply ite_inv | with_reducible apply Lane.unpowered_id_inv | with_reducible apply Lane.when_inv | with_reducible apply Lane.each_inv | with_reducible apply foldl_inv | with_reducible apply Lane.Inv.id | with_reducible apply Lane.Inv.regs | with_reducible apply Lane.Inv.sram | with_reducible apply Lane.Inv.store | with_reducible apply Tab.wf_filter | with_reducible apply Tab.wf_foldl | with_reducible apply Tab.wf_put | with_reducible apply Tab.wf_graft | with_reducible apply Lane.unpowered_inv | with_reducible apply foldl_pair_inv | split

theorem Lane.receiveStart_inv {l : LaneId} (digest chunks : Nat) {L : Lane} (hL : L.Inv l) : (Lane.receiveStart digest chunks L).Inv l := by
  unfold Lane.receiveStart
  try dsimp only
  repeat' first | with_reducible assumption | (intro _ _ _) | (intro _ _) | with_reducible apply Lane.clearStaging_inv | with_reducible apply Lane.journalWrite_inv | with_reducible apply Lane.onUpd_inv | with_reducible apply Lane.wr_inv

theorem Lane.bankWrite_inv {l : LaneId} (b : Fin 2) (off : Nat) (bs : List Byte) {L : Lane} (hL : L.Inv l) : (Lane.bankWrite b off bs L).Inv l := by
  unfold Lane.bankWrite
  try dsimp only
  repeat' first | with_reducible assumption | (intro _ _ _) | (intro _ _) | with_reducible apply Lane.wearLines_inv | with_reducible apply ite_inv | with_reducible apply Lane.unpowered_id_inv | with_reducible apply Lane.when_inv | with_reducible apply Lane.each_inv | with_reducible apply foldl_inv | with_reducible apply Lane.Inv.id | with_reducible apply Lane.Inv.regs | with_reducible apply Lane.Inv.sram | with_reducible apply Lane.Inv.store | with_reducible apply Tab.wf_filter | with_reducible apply Tab.wf_foldl | with_reducible apply Tab.wf_put | with_reducible apply Tab.wf_graft | with_reducible apply Lane.unpowered_inv | with_reducible apply foldl_pair_inv | split | (simp only [Lane.mk_inv]; refine ⟨?_, ?_, ?_, ?_⟩)

theorem Lane.applyPart_inv {l : LaneId} (k n : Nat) {L : Lane} (hL : L.Inv l) : (Lane.applyPart k n L).Inv l := by
  unfold Lane.applyPart
  try dsimp only
  repeat' first | with_reducible assumption | (intro _ _ _) | (intro _ _) | with_reducible apply Lane.checkpoint_inv | with_reducible apply Lane.bankWrite_inv | with_reducible apply Lane.updFail_inv | with_reducible apply Lane.journalWrite_inv | with_reducible apply Lane.onUpd_inv | with_reducible apply Lane.wr_inv | with_reducible apply ite_inv | with_reducible apply Lane.unpowered_id_inv | with_reducible apply Lane.when_inv | with_reducible apply Lane.each_inv | with_reducible apply foldl_inv | with_reducible apply Lane.Inv.id | with_reducible apply Lane.Inv.regs | with_reducible apply Lane.Inv.sram | with_reducible apply Lane.Inv.store | with_reducible apply Tab.wf_filter | with_reducible apply Tab.wf_foldl | with_reducible apply Tab.wf_put | with_reducible apply Tab.wf_graft | with_reducible apply Lane.unpowered_inv | with_reducible apply foldl_pair_inv | split

theorem Lane.buildBank_inv {l : LaneId} (m : Manifest) {L : Lane} (hL : L.Inv l) : (Lane.buildBank m L).Inv l := by
  unfold Lane.buildBank
  try dsimp only
  repeat' first | with_reducible assumption | (intro _ _ _) | (intro _ _) | with_reducible apply Lane.bankWrite_inv | with_reducible apply Lane.onUpd_inv | with_reducible apply ite_inv | with_reducible apply Lane.unpowered_id_inv | with_reducible apply Lane.when_inv | with_reducible apply Lane.each_inv

theorem Lane.chunkBad_inv {l : LaneId} (k : Nat) {L : Lane} (hL : L.Inv l) : (Lane.chunkBad k L).Inv l := by
  unfold Lane.chunkBad
  try dsimp only
  repeat' first | with_reducible assumption | (intro _ _ _) | (intro _ _) | with_reducible apply Lane.onUpd_inv | with_reducible apply Lane.count_inv

theorem Lane.chunkKeep_inv {l : LaneId} (k : Nat) (data : List Byte) {L : Lane} (hL : L.Inv l) : (Lane.chunkKeep k data L).Inv l := by
  unfold Lane.chunkKeep
  try dsimp only
  repeat' first | with_reducible assumption | (intro _ _ _) | (intro _ _) | with_reducible apply Lane.pdWake_inv | with_reducible apply Lane.onUpd_inv | with_reducible apply Lane.storeWrite_inv | with_reducible apply Lane.send_inv | with_reducible apply Lane.count_inv | with_reducible apply ite_inv | with_reducible apply Lane.unpowered_id_inv | with_reducible apply Lane.when_inv | with_reducible apply Lane.each_inv

theorem Lane.chunkDrop_inv {l : LaneId} (k : Nat) {L : Lane} (hL : L.Inv l) : (Lane.chunkDrop k L).Inv l := by
  unfold Lane.chunkDrop
  try dsimp only
  repeat' first | with_reducible assumption | (intro _ _ _) | (intro _ _) | with_reducible apply Lane.onUpd_inv | with_reducible apply Lane.storeWrite_inv

theorem Lane.tableCheck_inv {l : LaneId}  {L : Lane} (hL : L.Inv l) : (Lane.tableCheck  L).Inv l := by
  unfold Lane.tableCheck
  try dsimp only
  repeat' first | with_reducible assumption | (intro _ _ _) | (intro _ _) | with_reducible apply Lane.chunkDrop_inv | with_reducible apply Lane.count_inv | with_reducible apply Lane.wr_inv | with_reducible apply ite_inv | with_reducible apply Lane.unpowered_id_inv | with_reducible apply Lane.when_inv | with_reducible apply Lane.each_inv | with_reducible apply foldl_inv | with_reducible apply Lane.Inv.id | with_reducible apply Lane.Inv.regs | with_reducible apply Lane.Inv.sram | with_reducible apply Lane.Inv.store | with_reducible apply Tab.wf_filter | with_reducible apply Tab.wf_foldl | with_reducible apply Tab.wf_put | with_reducible apply Tab.wf_graft | with_reducible apply Lane.unpowered_inv | with_reducible apply foldl_pair_inv | split

theorem Lane.chunkWait_inv {l : LaneId} (k : Nat) (data : List Byte) {L : Lane} (hL : L.Inv l) : (Lane.chunkWait k data L).Inv l := by
  unfold Lane.chunkWait
  try dsimp only
  repeat' first | with_reducible assumption | (intro _ _ _) | (intro _ _) | with_reducible apply Lane.onUpd_inv | with_reducible apply ite_inv | with_reducible apply Lane.unpowered_id_inv | with_reducible apply Lane.when_inv

theorem Lane.chunkTake_inv {l : LaneId} (k : Nat) (data : List Byte) {L : Lane} (hL : L.Inv l) : (Lane.chunkTake k data L).Inv l := by
  unfold Lane.chunkTake
  try dsimp only
  repeat' first | with_reducible assumption | (intro _ _ _) | (intro _ _) | with_reducible apply Lane.chunkWait_inv | with_reducible apply Lane.tableCheck_inv | with_reducible apply Lane.chunkKeep_inv | with_reducible apply Lane.chunkBad_inv | with_reducible apply Lane.run_inv | with_reducible apply Lane.onUpd_inv | with_reducible apply ite_inv | with_reducible apply Lane.unpowered_id_inv | with_reducible apply Lane.when_inv | with_reducible apply Lane.each_inv | with_reducible apply foldl_inv | with_reducible apply Lane.Inv.id | with_reducible apply Lane.Inv.regs | with_reducible apply Lane.Inv.sram | with_reducible apply Lane.Inv.store | with_reducible apply Tab.wf_filter | with_reducible apply Tab.wf_foldl | with_reducible apply Tab.wf_put | with_reducible apply Tab.wf_graft | with_reducible apply Lane.unpowered_inv | with_reducible apply foldl_pair_inv | split

theorem Lane.takeWaiting_inv {l : LaneId}  {L : Lane} (hL : L.Inv l) : (Lane.takeWaiting  L).Inv l := by
  unfold Lane.takeWaiting
  try dsimp only
  repeat' first | with_reducible assumption | (intro _ _ _) | (intro _ _) | with_reducible apply Lane.chunkTake_inv | with_reducible apply Lane.onUpd_inv | with_reducible apply ite_inv | with_reducible apply Lane.unpowered_id_inv | with_reducible apply Lane.when_inv | with_reducible apply Lane.each_inv

theorem Lane.updAdvance_inv {l : LaneId}  {L : Lane} (hL : L.Inv l) : (Lane.updAdvance  L).Inv l := by
  unfold Lane.updAdvance
  try dsimp only
  repeat' first | with_reducible assumption | (intro _ _ _) | (intro _ _) | with_reducible apply Lane.applyStart_inv | with_reducible apply ite_inv

theorem Lane.chunkDone_inv {l : LaneId} (k : Nat) (data : List Byte) {L : Lane} (hL : L.Inv l) : (Lane.chunkDone k data L).Inv l := by
  unfold Lane.chunkDone
  try dsimp only
  repeat' first | with_reducible assumption | (intro _ _ _) | (intro _ _) | with_reducible apply Lane.updAdvance_inv | with_reducible apply Lane.takeWaiting_inv | with_reducible apply Lane.chunkTake_inv

theorem Lane.updAnswer_inv {l : LaneId} (k : Option HostCmd) (op status : Nat) (args : List Byte) {L : Lane} (hL : L.Inv l) : (Lane.updAnswer k op status args L).Inv l := by
  unfold Lane.updAnswer
  try dsimp only
  repeat' first | with_reducible assumption | (intro _ _ _) | (intro _ _) | with_reducible apply Lane.respond_inv | with_reducible apply Lane.send_inv | with_reducible apply ite_inv | with_reducible apply Lane.unpowered_id_inv | with_reducible apply Lane.when_inv | with_reducible apply Lane.each_inv | with_reducible apply foldl_inv | with_reducible apply Lane.Inv.id | with_reducible apply Lane.Inv.regs | with_reducible apply Lane.Inv.sram | with_reducible apply Lane.Inv.store | with_reducible apply Tab.wf_filter | with_reducible apply Tab.wf_foldl | with_reducible apply Tab.wf_put | with_reducible apply Tab.wf_graft | with_reducible apply Lane.unpowered_inv | with_reducible apply foldl_pair_inv | split

theorem Lane.updGate_inv {l : LaneId} (k : Option HostCmd) (op : Nat) (act : Lane → Lane) (hact : ∀ M : Lane, M.Inv l → (act M).Inv l) {L : Lane} (hL : L.Inv l) : (Lane.updGate k op act L).Inv l := by
  unfold Lane.updGate
  try dsimp only
  repeat' first | with_reducible assumption | (intro _ _ _) | (intro _ _) | with_reducible apply hact | with_reducible apply Lane.updAnswer_inv | with_reducible apply Lane.command_inv | with_reducible apply ite_inv | with_reducible apply Lane.unpowered_id_inv | with_reducible apply Lane.when_inv | with_reducible apply Lane.each_inv | with_reducible apply foldl_inv | with_reducible apply Lane.Inv.id | with_reducible apply Lane.Inv.regs | with_reducible apply Lane.Inv.sram | with_reducible apply Lane.Inv.store | with_reducible apply Tab.wf_filter | with_reducible apply Tab.wf_foldl | with_reducible apply Tab.wf_put | with_reducible apply Tab.wf_graft | with_reducible apply Lane.unpowered_inv | with_reducible apply foldl_pair_inv | split

theorem Lane.updBegin_inv {l : LaneId} (k : Option HostCmd) (digest chunks : Nat) (delta : Bool) {L : Lane} (hL : L.Inv l) : (Lane.updBegin k digest chunks delta L).Inv l := by
  unfold Lane.updBegin
  try dsimp only
  repeat' first | with_reducible assumption | (intro _ _ _) | (intro _ _) | with_reducible apply Lane.updAnswer_inv | with_reducible apply Lane.receiveStart_inv | with_reducible apply Lane.applyStart_inv | with_reducible apply Lane.wr_inv | with_reducible apply ite_inv | with_reducible apply Lane.unpowered_id_inv | with_reducible apply Lane.when_inv

theorem Lane.updData_inv {l : LaneId} (chunk : Nat) (frag : Fin 128) (data : Vector Byte 32) {L : Lane} (hL : L.Inv l) : (Lane.updData chunk frag data L).Inv l := by
  unfold Lane.updData
  try dsimp only
  repeat' first | with_reducible assumption | (intro _ _ _) | (intro _ _) | with_reducible apply Lane.chunkDone_inv | with_reducible apply Lane.onUpd_inv | with_reducible apply ite_inv

theorem Lane.updDataGate_inv {l : LaneId} (k : Option HostCmd) (act : Lane → Lane) (hact : ∀ M : Lane, M.Inv l → (act M).Inv l) {L : Lane} (hL : L.Inv l) : (Lane.updDataGate k act L).Inv l := by
  unfold Lane.updDataGate
  try dsimp only
  repeat' first | with_reducible assumption | (intro _ _ _) | (intro _ _) | with_reducible apply hact | with_reducible apply ite_inv | with_reducible apply Lane.unpowered_id_inv | with_reducible apply Lane.when_inv | with_reducible apply Lane.each_inv | with_reducible apply foldl_inv | with_reducible apply Lane.Inv.id | with_reducible apply Lane.Inv.regs | with_reducible apply Lane.Inv.sram | with_reducible apply Lane.Inv.store | with_reducible apply Tab.wf_filter | with_reducible apply Tab.wf_foldl | with_reducible apply Tab.wf_put | with_reducible apply Tab.wf_graft | with_reducible apply Lane.unpowered_inv | with_reducible apply foldl_pair_inv | split

theorem Lane.updAbort_inv {l : LaneId} (k : Option HostCmd) {L : Lane} (hL : L.Inv l) : (Lane.updAbort k L).Inv l := by
  unfold Lane.updAbort
  try dsimp only
  repeat' first | with_reducible assumption | (intro _ _ _) | (intro _ _) | with_reducible apply Lane.updAnswer_inv | with_reducible apply Lane.updIdle_inv | with_reducible apply ite_inv

theorem Lane.updPause_inv {l : LaneId} (k : HostCmd) (pause : Bool) {L : Lane} (hL : L.Inv l) : (Lane.updPause k pause L).Inv l := by
  unfold Lane.updPause
  try dsimp only
  repeat' first | with_reducible assumption | (intro _ _ _) | (intro _ _) | with_reducible apply Lane.respond_inv | with_reducible apply Lane.wr_inv | with_reducible apply ite_inv

theorem Lane.prepare_inv {l : LaneId}  {L : Lane} (hL : L.Inv l) : (Lane.prepare  L).Inv l := by
  unfold Lane.prepare
  try dsimp only
  repeat' first | with_reducible assumption | (intro _ _ _) | (intro _ _) | with_reducible apply Lane.journalWrite_inv | with_reducible apply Lane.restart_inv | with_reducible apply Lane.wr_inv

theorem Lane.updActivate_inv {l : LaneId} (k : HostCmd) {L : Lane} (hL : L.Inv l) : (Lane.updActivate k L).Inv l := by
  unfold Lane.updActivate
  try dsimp only
  repeat' first | with_reducible assumption | (intro _ _ _) | (intro _ _) | with_reducible apply Lane.prepare_inv | with_reducible apply Lane.respond_inv | with_reducible apply Lane.onUpd_inv | with_reducible apply ite_inv | with_reducible apply Lane.unpowered_id_inv | with_reducible apply Lane.when_inv | with_reducible apply Lane.each_inv | with_reducible apply foldl_inv | with_reducible apply Lane.Inv.id | with_reducible apply Lane.Inv.regs | with_reducible apply Lane.Inv.sram | with_reducible apply Lane.Inv.store | with_reducible apply Tab.wf_filter | with_reducible apply Tab.wf_foldl | with_reducible apply Tab.wf_put | with_reducible apply Tab.wf_graft | with_reducible apply Lane.unpowered_inv | with_reducible apply foldl_pair_inv | split

theorem Lane.commitSet_inv {l : LaneId} (at' : Nat) {L : Lane} (hL : L.Inv l) : (Lane.commitSet at' L).Inv l := by
  unfold Lane.commitSet
  try dsimp only
  repeat' first | with_reducible assumption | (intro _ _ _) | (intro _ _) | with_reducible apply Lane.journalWrite_inv | with_reducible apply Lane.onUpd_inv | with_reducible apply Lane.stop_inv | with_reducible apply Lane.wr_inv

theorem Lane.coordinate_inv {l : LaneId}  {L : Lane} (hL : L.Inv l) : (Lane.coordinate  L).Inv l := by
  unfold Lane.coordinate
  try dsimp only
  repeat' first | with_reducible assumption | (intro _ _ _) | (intro _ _) | with_reducible apply Lane.commitSet_inv | with_reducible apply Lane.respond_inv | with_reducible apply Lane.onUpd_inv | with_reducible apply ite_inv | with_reducible apply Lane.unpowered_id_inv | with_reducible apply Lane.when_inv | with_reducible apply Lane.each_inv | with_reducible apply foldl_inv | with_reducible apply Lane.Inv.id | with_reducible apply Lane.Inv.regs | with_reducible apply Lane.Inv.sram | with_reducible apply Lane.Inv.store | with_reducible apply Tab.wf_filter | with_reducible apply Tab.wf_foldl | with_reducible apply Tab.wf_put | with_reducible apply Tab.wf_graft | with_reducible apply Lane.unpowered_inv | with_reducible apply foldl_pair_inv | split

theorem Lane.followActivation_inv {l : LaneId} (f : StatusFrame) {L : Lane} (hL : L.Inv l) : (Lane.followActivation f L).Inv l := by
  unfold Lane.followActivation
  try dsimp only
  repeat' first | with_reducible assumption | (intro _ _ _) | (intro _ _) | with_reducible apply Lane.commitSet_inv | with_reducible apply Lane.prepare_inv | with_reducible apply ite_inv | with_reducible apply Lane.unpowered_id_inv | with_reducible apply Lane.when_inv | with_reducible apply Lane.each_inv | with_reducible apply foldl_inv | with_reducible apply Lane.Inv.id | with_reducible apply Lane.Inv.regs | with_reducible apply Lane.Inv.sram | with_reducible apply Lane.Inv.store | with_reducible apply Tab.wf_filter | with_reducible apply Tab.wf_foldl | with_reducible apply Tab.wf_put | with_reducible apply Tab.wf_graft | with_reducible apply Lane.unpowered_inv | with_reducible apply foldl_pair_inv | split

theorem Lane.prepareLapse_inv {l : LaneId}  {L : Lane} (hL : L.Inv l) : (Lane.prepareLapse  L).Inv l := by
  unfold Lane.prepareLapse
  try dsimp only
  repeat' first | with_reducible assumption | (intro _ _ _) | (intro _ _) | with_reducible apply Lane.journalWrite_inv | with_reducible apply Lane.respond_inv | with_reducible apply Lane.onUpd_inv | with_reducible apply Lane.stop_inv | with_reducible apply Lane.wr_inv | with_reducible apply ite_inv | with_reducible apply Lane.unpowered_id_inv | with_reducible apply Lane.when_inv | with_reducible apply Lane.each_inv | with_reducible apply foldl_inv | with_reducible apply Lane.Inv.id | with_reducible apply Lane.Inv.regs | with_reducible apply Lane.Inv.sram | with_reducible apply Lane.Inv.store | with_reducible apply Tab.wf_filter | with_reducible apply Tab.wf_foldl | with_reducible apply Tab.wf_put | with_reducible apply Tab.wf_graft | with_reducible apply Lane.unpowered_inv | with_reducible apply foldl_pair_inv | split

theorem Lane.updateRestart_inv {l : LaneId}  {L : Lane} (hL : L.Inv l) : (Lane.updateRestart  L).Inv l := by
  unfold Lane.updateRestart
  try dsimp only
  repeat' first | with_reducible assumption | (intro _ _ _) | (intro _ _) | with_reducible apply Lane.holdDie_inv | with_reducible apply Lane.portOffSwitches_inv | with_reducible apply Lane.svForce_inv | with_reducible apply Lane.restart_inv | with_reducible apply Lane.wr_inv | with_reducible apply ite_inv | with_reducible apply Lane.unpowered_id_inv | with_reducible apply Lane.when_inv | with_reducible apply Lane.each_inv

theorem Lane.trialConfirm_inv {l : LaneId}  {L : Lane} (hL : L.Inv l) : (Lane.trialConfirm  L).Inv l := by
  unfold Lane.trialConfirm
  try dsimp only
  repeat' first | with_reducible assumption | (intro _ _ _) | (intro _ _) | with_reducible apply Lane.updIdle_inv | with_reducible apply Lane.onUpd_inv | with_reducible apply Lane.stop_inv | with_reducible apply ite_inv | with_reducible apply Lane.unpowered_id_inv | with_reducible apply Lane.when_inv

theorem Lane.trialFollow_inv {l : LaneId} (f : StatusFrame) {L : Lane} (hL : L.Inv l) : (Lane.trialFollow f L).Inv l := by
  unfold Lane.trialFollow
  try dsimp only
  repeat' first | with_reducible assumption | (intro _ _ _) | (intro _ _) | with_reducible apply Lane.trialConfirm_inv | with_reducible apply Lane.revert_inv | with_reducible apply ite_inv

end Sys2Proof.Machine
end

