-- ==== Sys2Proof/Laws/InvCores.lean ====
section
/-! SUPPORT. The operations of Machine/Cores.lean keep the invariant of a lane. -/

namespace Sys2Proof.Machine

theorem Lane.sigTake_inv {l : LaneId} (c : Core) (bs : List Byte) {L : Lane} (hL : L.Inv l) : (Lane.sigTake c bs L).Inv l := by
  unfold Lane.sigTake
  try dsimp only
  repeat' first | with_reducible assumption | (intro _ _ _) | (intro _ _) | with_reducible apply Lane.onCore_inv | with_reducible apply Lane.wr_inv

theorem Lane.sigReset_inv {l : LaneId} (c : Core) {L : Lane} (hL : L.Inv l) : (Lane.sigReset c L).Inv l := by
  unfold Lane.sigReset
  try dsimp only
  repeat' first | with_reducible assumption | (intro _ _ _) | (intro _ _) | with_reducible apply Lane.onCore_inv | with_reducible apply Lane.wr_inv | with_reducible apply ite_inv | with_reducible apply Lane.unpowered_id_inv | with_reducible apply Lane.when_inv

theorem Lane.dropReserved_inv {l : LaneId} (p : Pair) {L : Lane} (hL : L.Inv l) : (Lane.dropReserved p L).Inv l := by
  unfold Lane.dropReserved
  try dsimp only
  repeat' first | with_reducible assumption | (intro _ _ _) | (intro _ _) | with_reducible apply ite_inv | with_reducible apply Lane.unpowered_id_inv | with_reducible apply Lane.when_inv | with_reducible apply Lane.each_inv | with_reducible apply foldl_inv | with_reducible apply Lane.Inv.id | with_reducible apply Lane.Inv.regs | with_reducible apply Lane.Inv.sram | with_reducible apply Lane.Inv.store | with_reducible apply Tab.wf_filter | with_reducible apply Tab.wf_foldl | with_reducible apply Tab.wf_put | with_reducible apply Tab.wf_graft | with_reducible apply Lane.unpowered_inv | with_reducible apply foldl_pair_inv | split | (simp only [Lane.mk_inv]; refine ⟨?_, ?_, ?_, ?_⟩)

theorem Lane.discard_inv {l : LaneId} (p : Pair) {L : Lane} (hL : L.Inv l) : (Lane.discard p L).Inv l := by
  unfold Lane.discard
  try dsimp only
  repeat' first | with_reducible assumption | (intro _ _ _) | (intro _ _) | with_reducible apply Lane.dropReserved_inv | with_reducible apply Lane.poison_inv | with_reducible apply Lane.onPair_inv | with_reducible apply Lane.onCore_inv | with_reducible apply Lane.count_inv | with_reducible apply Lane.wr_inv

theorem Lane.unpair_inv {l : LaneId} (p : Pair) {L : Lane} (hL : L.Inv l) : (Lane.unpair p L).Inv l := by
  unfold Lane.unpair
  try dsimp only
  repeat' first | with_reducible assumption | (intro _ _ _) | (intro _ _) | with_reducible apply Lane.barAll_inv | with_reducible apply Lane.wrBit_inv | with_reducible apply Lane.set1_inv

theorem Lane.coresDo_inv {l : LaneId} (p : Pair) (r : CoreRun) {L : Lane} (hL : L.Inv l) : (Lane.coresDo p r L).Inv l := by
  unfold Lane.coresDo
  try dsimp only
  repeat' first | with_reducible assumption | (intro _ _ _) | (intro _ _) | with_reducible apply Lane.run_inv | with_reducible apply Lane.onCore_inv

theorem Lane.mismatched_inv {l : LaneId} (p : Pair) (kind num : Nat) {L : Lane} (hL : L.Inv l) : (Lane.mismatched p kind num L).Inv l := by
  unfold Lane.mismatched
  try dsimp only
  repeat' first | with_reducible assumption | (intro _ _ _) | (intro _ _) | with_reducible apply Lane.coresDo_inv | with_reducible apply Lane.discard_inv | with_reducible apply Lane.suspend_inv | with_reducible apply Lane.loadFields_inv | with_reducible apply Lane.fire_inv | with_reducible apply Lane.withdraw_inv | with_reducible apply Lane.onPair_inv | with_reducible apply Lane.restart_inv | with_reducible apply Lane.count_inv | with_reducible apply Lane.wrBit_inv | with_reducible apply ite_inv | with_reducible apply Lane.unpowered_id_inv | with_reducible apply Lane.when_inv | with_reducible apply Lane.each_inv

theorem Lane.startCore_inv {l : LaneId} (p : Pair) (c : Core) {L : Lane} (hL : L.Inv l) : (Lane.startCore p c L).Inv l := by
  unfold Lane.startCore
  try dsimp only
  repeat' first | with_reducible assumption | (intro _ _ _) | (intro _ _) | with_reducible apply Lane.run_inv | with_reducible apply Lane.onCore_inv

theorem Lane.clearWindow_inv {l : LaneId} (p : Pair) {L : Lane} (hL : L.Inv l) : (Lane.clearWindow p L).Inv l := by
  unfold Lane.clearWindow
  try dsimp only
  repeat' first | with_reducible assumption | (intro _ _ _) | (intro _ _) | with_reducible apply ite_inv | with_reducible apply Lane.unpowered_id_inv | with_reducible apply Lane.when_inv | with_reducible apply Lane.each_inv | with_reducible apply foldl_inv | with_reducible apply Lane.Inv.id | with_reducible apply Lane.Inv.regs | with_reducible apply Lane.Inv.sram | with_reducible apply Lane.Inv.store | with_reducible apply Tab.wf_filter | with_reducible apply Tab.wf_foldl | with_reducible apply Tab.wf_put | with_reducible apply Tab.wf_graft | with_reducible apply Lane.unpowered_inv | with_reducible apply foldl_pair_inv | split | (simp only [Lane.mk_inv]; refine ⟨?_, ?_, ?_, ?_⟩)

theorem Lane.haltPair_inv {l : LaneId} (p : Pair) {L : Lane} (hL : L.Inv l) : (Lane.haltPair p L).Inv l := by
  unfold Lane.haltPair
  try dsimp only
  repeat' first | with_reducible assumption | (intro _ _ _) | (intro _ _) | with_reducible apply Lane.coresDo_inv | with_reducible apply Lane.unpair_inv | with_reducible apply Lane.enterWinter_inv | with_reducible apply Lane.fire_inv | with_reducible apply Lane.wrBit_inv | with_reducible apply ite_inv

theorem Lane.endSuspend_inv {l : LaneId}  {L : Lane} (hL : L.Inv l) : (Lane.endSuspend  L).Inv l := by
  unfold Lane.endSuspend
  try dsimp only
  repeat' first | with_reducible assumption | (intro _ _ _) | (intro _ _) | with_reducible apply Lane.missed_inv | with_reducible apply Lane.stop_inv | with_reducible apply Lane.clr_inv | with_reducible apply ite_inv | with_reducible apply Lane.unpowered_id_inv | with_reducible apply Lane.when_inv

theorem Lane.split_inv {l : LaneId} (p : Pair) {L : Lane} (hL : L.Inv l) : (Lane.split p L).Inv l := by
  unfold Lane.split
  try dsimp only
  repeat' first | with_reducible assumption | (intro _ _ _) | (intro _ _) | with_reducible apply Lane.unpair_inv | with_reducible apply Lane.discard_inv | with_reducible apply Lane.fire_inv | with_reducible apply Lane.wrBit_inv | with_reducible apply ite_inv

theorem Lane.coreFree_inv {l : LaneId} (c : Core) {L : Lane} (hL : L.Inv l) : (Lane.coreFree c L).Inv l := by
  unfold Lane.coreFree
  try dsimp only
  repeat' first | with_reducible assumption | (intro _ _ _) | (intro _ _) | with_reducible apply Lane.onCore_inv | with_reducible apply ite_inv | with_reducible apply Lane.unpowered_id_inv | with_reducible apply Lane.when_inv | with_reducible apply Lane.each_inv | with_reducible apply foldl_inv | with_reducible apply Lane.Inv.id | with_reducible apply Lane.Inv.regs | with_reducible apply Lane.Inv.sram | with_reducible apply Lane.Inv.store | with_reducible apply Tab.wf_filter | with_reducible apply Tab.wf_foldl | with_reducible apply Tab.wf_put | with_reducible apply Tab.wf_graft | with_reducible apply Lane.unpowered_inv | with_reducible apply foldl_pair_inv | split | (simp only [Lane.mk_inv]; refine ⟨?_, ?_, ?_, ?_⟩)

theorem Lane.haltAsked_inv {l : LaneId} (p : Pair) {L : Lane} (hL : L.Inv l) : (Lane.haltAsked p L).Inv l := by
  unfold Lane.haltAsked
  try dsimp only
  repeat' first | with_reducible assumption | (intro _ _ _) | (intro _ _) | with_reducible apply Lane.coreFree_inv | with_reducible apply Lane.run_inv | with_reducible apply Lane.onCore_inv | with_reducible apply ite_inv | with_reducible apply Lane.unpowered_id_inv | with_reducible apply Lane.when_inv | with_reducible apply Lane.each_inv

theorem Lane.debugPending_inv {l : LaneId} (p : Pair) {L : Lane} (hL : L.Inv l) : (Lane.debugPending p L).Inv l := by
  unfold Lane.debugPending
  try dsimp only
  repeat' first | with_reducible assumption | (intro _ _ _) | (intro _ _) | with_reducible apply Lane.haltAsked_inv | with_reducible apply Lane.split_inv | with_reducible apply Lane.onPair_inv | with_reducible apply ite_inv

theorem Lane.single_inv {l : LaneId} (p : Pair) (odd : Bool) {L : Lane} (hL : L.Inv l) : (Lane.single p odd L).Inv l := by
  unfold Lane.single
  try dsimp only
  repeat' first | with_reducible assumption | (intro _ _ _) | (intro _ _) | with_reducible apply Lane.unpair_inv | with_reducible apply Lane.wrBit_inv

theorem Lane.release_inv {l : LaneId} (p : Pair) (cs : List Core) {L : Lane} (hL : L.Inv l) : (Lane.release p cs L).Inv l := by
  unfold Lane.release
  try dsimp only
  repeat' first | with_reducible assumption | (intro _ _ _) | (intro _ _) | with_reducible apply Lane.haltPair_inv | with_reducible apply Lane.clearWindow_inv | with_reducible apply Lane.startCore_inv | with_reducible apply Lane.wrBit_inv | with_reducible apply ite_inv | with_reducible apply Lane.unpowered_id_inv | with_reducible apply Lane.when_inv | with_reducible apply Lane.each_inv

theorem Lane.outcome_inv {l : LaneId} (p : Pair) (even odd : Bool) {L : Lane} (hL : L.Inv l) : (Lane.outcome p even odd L).Inv l := by
  unfold Lane.outcome
  try dsimp only
  repeat' first | with_reducible assumption | (intro _ _ _) | (intro _ _) | with_reducible apply Lane.release_inv | with_reducible apply Lane.single_inv | with_reducible apply Lane.debugPending_inv | with_reducible apply Lane.endSuspend_inv | with_reducible apply Lane.haltPair_inv | with_reducible apply Lane.run_inv | with_reducible apply Lane.loadFields_inv | with_reducible apply Lane.onCore_inv | with_reducible apply Lane.stop_inv | with_reducible apply Lane.count_inv | with_reducible apply Lane.wrBit_inv | with_reducible apply ite_inv | with_reducible apply Lane.unpowered_id_inv | with_reducible apply Lane.when_inv

theorem Lane.sliceOutcome_inv {l : LaneId} (even odd : Bool) {L : Lane} (hL : L.Inv l) : (Lane.sliceOutcome even odd L).Inv l := by
  unfold Lane.sliceOutcome
  try dsimp only
  repeat' first | with_reducible assumption | (intro _ _ _) | (intro _ _) | with_reducible apply Lane.single_inv | with_reducible apply Lane.haltPair_inv | with_reducible apply Lane.discard_inv | with_reducible apply Lane.run_inv | with_reducible apply Lane.onCore_inv | with_reducible apply ite_inv

theorem Lane.interrupt_inv {l : LaneId} (c : Core) {L : Lane} (hL : L.Inv l) : (Lane.interrupt c L).Inv l := by
  unfold Lane.interrupt
  try dsimp only
  repeat' first | with_reducible assumption | (intro _ _ _) | (intro _ _) | with_reducible apply Lane.run_inv | with_reducible apply Lane.onPair_inv | with_reducible apply Lane.onCore_inv | with_reducible apply Lane.irq_inv | with_reducible apply ite_inv

theorem Lane.takeIrq_inv {l : LaneId} (c : Core) (leads : Bool) (num : Nat) {L : Lane} (hL : L.Inv l) : (Lane.takeIrq c leads num L).Inv l := by
  unfold Lane.takeIrq
  try dsimp only
  repeat' first | with_reducible assumption | (intro _ _ _) | (intro _ _) | with_reducible apply Lane.onPair_inv | with_reducible apply Lane.onCore_inv | with_reducible apply Lane.irq_inv | with_reducible apply ite_inv | with_reducible apply Lane.unpowered_id_inv | with_reducible apply Lane.when_inv

theorem Lane.waits_inv {l : LaneId} (c : Option Core) {L : Lane} (hL : L.Inv l) : (Lane.waits c L).Inv l := by
  unfold Lane.waits
  try dsimp only
  repeat' first | with_reducible assumption | (intro _ _ _) | (intro _ _) | with_reducible apply Lane.run_inv | with_reducible apply Lane.onCore_inv | with_reducible apply ite_inv | with_reducible apply Lane.unpowered_id_inv | with_reducible apply Lane.when_inv | with_reducible apply Lane.each_inv | with_reducible apply foldl_inv | with_reducible apply Lane.Inv.id | with_reducible apply Lane.Inv.regs | with_reducible apply Lane.Inv.sram | with_reducible apply Lane.Inv.store | with_reducible apply Tab.wf_filter | with_reducible apply Tab.wf_foldl | with_reducible apply Tab.wf_put | with_reducible apply Tab.wf_graft | with_reducible apply Lane.unpowered_inv | with_reducible apply foldl_pair_inv | split | (simp only [Lane.mk_inv]; refine ⟨?_, ?_, ?_, ?_⟩)

end Sys2Proof.Machine
end

