-- ==== Sys2Proof/Laws/InvSelfTest.lean ====
section
/-! SUPPORT. The operations of Machine/SelfTest.lean keep the invariant of a lane. -/

namespace Sys2Proof.Machine

theorem Lane.agPort_inv {l : LaneId} (r : AgRecord) (p : Port) {L : Lane} (hL : L.Inv l) : (Lane.agPort r p L).Inv l := by
  unfold Lane.agPort
  try dsimp only
  repeat' first | with_reducible assumption | (intro _ _ _) | (intro _ _) | with_reducible apply Lane.onTest_inv | with_reducible apply Lane.wr_inv

theorem Lane.agGate_inv {l : LaneId} (r : AgRecord) (p : Port) {L : Lane} (hL : L.Inv l) : (Lane.agGate r p L).Inv l := by
  unfold Lane.agGate
  try dsimp only
  repeat' first | with_reducible assumption | (intro _ _ _) | (intro _ _) | with_reducible apply Lane.onTest_inv | with_reducible apply ite_inv | with_reducible apply Lane.unpowered_id_inv | with_reducible apply Lane.when_inv

theorem Lane.agTake_inv {l : LaneId} (bs : List Byte) {L : Lane} (hL : L.Inv l) : (Lane.agTake bs L).Inv l := by
  unfold Lane.agTake
  try dsimp only
  repeat' first | with_reducible assumption | (intro _ _ _) | (intro _ _) | with_reducible apply Lane.agGate_inv | with_reducible apply Lane.agPort_inv | with_reducible apply Lane.onTest_inv | with_reducible apply Lane.count_inv | with_reducible apply ite_inv | with_reducible apply Lane.unpowered_id_inv | with_reducible apply Lane.when_inv | with_reducible apply Lane.each_inv

theorem Lane.agCounts_inv {l : LaneId}  {L : Lane} (hL : L.Inv l) : (Lane.agCounts  L).Inv l := by
  unfold Lane.agCounts
  try dsimp only
  repeat' first | with_reducible assumption | (intro _ _ _) | (intro _ _) | with_reducible apply Lane.onTest_inv

theorem Lane.agPredict_inv {l : LaneId}  {L : Lane} (hL : L.Inv l) : (Lane.agPredict  L).Inv l := by
  unfold Lane.agPredict
  try dsimp only
  repeat' first | with_reducible assumption | (intro _ _ _) | (intro _ _) | with_reducible apply Lane.wr_inv | with_reducible apply ite_inv | with_reducible apply Lane.unpowered_id_inv | with_reducible apply Lane.when_inv | with_reducible apply Lane.each_inv

theorem Lane.agRun_inv {l : LaneId}  {L : Lane} (hL : L.Inv l) : (Lane.agRun  L).Inv l := by
  unfold Lane.agRun
  try dsimp only
  repeat' first | with_reducible assumption | (intro _ _ _) | (intro _ _) | with_reducible apply Lane.agPredict_inv | with_reducible apply Lane.agCounts_inv | with_reducible apply Lane.agTake_inv | with_reducible apply Lane.fire_inv | with_reducible apply Lane.clr_inv | with_reducible apply Lane.set1_inv | with_reducible apply Lane.wr_inv | with_reducible apply ite_inv | with_reducible apply Lane.unpowered_id_inv | with_reducible apply Lane.when_inv | with_reducible apply Lane.each_inv

theorem Lane.agGo_inv {l : LaneId}  {L : Lane} (hL : L.Inv l) : (Lane.agGo  L).Inv l := by
  unfold Lane.agGo
  try dsimp only
  repeat' first | with_reducible assumption | (intro _ _ _) | (intro _ _) | with_reducible apply Lane.onTest_inv | with_reducible apply Lane.set1_inv | with_reducible apply ite_inv | with_reducible apply Lane.unpowered_id_inv | with_reducible apply Lane.when_inv

theorem Lane.fuseWrite_inv {l : LaneId} (v : Nat) {L : Lane} (hL : L.Inv l) : (Lane.fuseWrite v L).Inv l := by
  unfold Lane.fuseWrite
  try dsimp only
  repeat' first | with_reducible assumption | (intro _ _ _) | (intro _ _) | with_reducible apply Lane.onTest_inv | with_reducible apply Lane.clr_inv | with_reducible apply Lane.set1_inv | with_reducible apply Lane.wr_inv | with_reducible apply ite_inv | with_reducible apply Lane.unpowered_id_inv | with_reducible apply Lane.when_inv

theorem Lane.fuseDone_inv {l : LaneId}  {L : Lane} (hL : L.Inv l) : (Lane.fuseDone  L).Inv l := by
  unfold Lane.fuseDone
  try dsimp only
  repeat' first | with_reducible assumption | (intro _ _ _) | (intro _ _) | with_reducible apply Lane.onTest_inv | with_reducible apply Lane.irq_inv | with_reducible apply Lane.clr_inv | with_reducible apply ite_inv | with_reducible apply Lane.unpowered_id_inv | with_reducible apply Lane.when_inv | with_reducible apply Lane.each_inv | with_reducible apply foldl_inv | with_reducible apply Lane.Inv.id | with_reducible apply Lane.Inv.regs | with_reducible apply Lane.Inv.sram | with_reducible apply Lane.Inv.store | with_reducible apply Tab.wf_filter | with_reducible apply Tab.wf_foldl | with_reducible apply Tab.wf_put | with_reducible apply Tab.wf_graft | with_reducible apply Lane.unpowered_inv | with_reducible apply foldl_pair_inv | split

theorem Lane.sliceStart_inv {l : LaneId} (t : Nat) {L : Lane} (hL : L.Inv l) : (Lane.sliceStart t L).Inv l := by
  unfold Lane.sliceStart
  try dsimp only
  repeat' first | with_reducible assumption | (intro _ _ _) | (intro _ _) | with_reducible apply Lane.coresDo_inv | with_reducible apply Lane.onTest_inv | with_reducible apply Lane.set1_inv | with_reducible apply Lane.wr_inv | with_reducible apply ite_inv | with_reducible apply Lane.unpowered_id_inv | with_reducible apply Lane.when_inv | with_reducible apply Lane.each_inv | with_reducible apply foldl_inv | with_reducible apply Lane.Inv.id | with_reducible apply Lane.Inv.regs | with_reducible apply Lane.Inv.sram | with_reducible apply Lane.Inv.store | with_reducible apply Tab.wf_filter | with_reducible apply Tab.wf_foldl | with_reducible apply Tab.wf_put | with_reducible apply Tab.wf_graft | with_reducible apply Lane.unpowered_inv | with_reducible apply foldl_pair_inv | split

theorem Lane.sliceTick_inv {l : LaneId}  {L : Lane} (hL : L.Inv l) : (Lane.sliceTick  L).Inv l := by
  unfold Lane.sliceTick
  try dsimp only
  repeat' first | with_reducible assumption | (intro _ _ _) | (intro _ _) | with_reducible apply Lane.sliceStart_inv | with_reducible apply ite_inv | with_reducible apply Lane.unpowered_id_inv | with_reducible apply Lane.when_inv | with_reducible apply Lane.each_inv | with_reducible apply foldl_inv | with_reducible apply Lane.Inv.id | with_reducible apply Lane.Inv.regs | with_reducible apply Lane.Inv.sram | with_reducible apply Lane.Inv.store | with_reducible apply Tab.wf_filter | with_reducible apply Tab.wf_foldl | with_reducible apply Tab.wf_put | with_reducible apply Tab.wf_graft | with_reducible apply Lane.unpowered_inv | with_reducible apply foldl_pair_inv | split

theorem Lane.sliceTurn_inv {l : LaneId} (t : Nat) {L : Lane} (hL : L.Inv l) : (Lane.sliceTurn t L).Inv l := by
  unfold Lane.sliceTurn
  try dsimp only
  repeat' first | with_reducible assumption | (intro _ _ _) | (intro _ _) | with_reducible apply Lane.onTest_inv | with_reducible apply Lane.count_inv | with_reducible apply ite_inv

theorem Lane.sliceFailed_inv {l : LaneId} (t addr unit : Nat) (even odd : Bool) {L : Lane} (hL : L.Inv l) : (Lane.sliceFailed t addr unit even odd L).Inv l := by
  unfold Lane.sliceFailed
  try dsimp only
  repeat' first | with_reducible assumption | (intro _ _ _) | (intro _ _) | with_reducible apply Lane.sliceOutcome_inv | with_reducible apply Lane.fire_inv | with_reducible apply Lane.onTest_inv | with_reducible apply Lane.wrBit_inv | with_reducible apply Lane.wr_inv | with_reducible apply ite_inv | with_reducible apply Lane.unpowered_id_inv | with_reducible apply Lane.when_inv | with_reducible apply Lane.each_inv | with_reducible apply foldl_inv | with_reducible apply Lane.Inv.id | with_reducible apply Lane.Inv.regs | with_reducible apply Lane.Inv.sram | with_reducible apply Lane.Inv.store | with_reducible apply Tab.wf_filter | with_reducible apply Tab.wf_foldl | with_reducible apply Tab.wf_put | with_reducible apply Tab.wf_graft | with_reducible apply Lane.unpowered_inv | with_reducible apply foldl_pair_inv | split

theorem Lane.sliceEnd_inv {l : LaneId} (pass : Bool) (addr : Nat) (even odd : Bool) {L : Lane} (hL : L.Inv l) : (Lane.sliceEnd pass addr even odd L).Inv l := by
  unfold Lane.sliceEnd
  try dsimp only
  repeat' first | with_reducible assumption | (intro _ _ _) | (intro _ _) | with_reducible apply Lane.sliceFailed_inv | with_reducible apply Lane.sliceTurn_inv | with_reducible apply Lane.coresDo_inv | with_reducible apply Lane.onDe_inv | with_reducible apply Lane.irq_inv | with_reducible apply Lane.pass_inv | with_reducible apply Lane.clr_inv | with_reducible apply ite_inv | with_reducible apply Lane.unpowered_id_inv | with_reducible apply Lane.when_inv

theorem Lane.sliceCtrl_inv {l : LaneId} (v : Nat) {L : Lane} (hL : L.Inv l) : (Lane.sliceCtrl v L).Inv l := by
  unfold Lane.sliceCtrl
  try dsimp only
  repeat' first | with_reducible assumption | (intro _ _ _) | (intro _ _) | with_reducible apply Lane.loadFields_inv | with_reducible apply Lane.sliceAbort_inv | with_reducible apply Lane.restart_inv | with_reducible apply Lane.stop_inv | with_reducible apply Lane.wr_inv | with_reducible apply ite_inv | with_reducible apply Lane.unpowered_id_inv | with_reducible apply Lane.when_inv

theorem Lane.testSlice_inv {l : LaneId} (t : Nat) {L : Lane} (hL : L.Inv l) : (Lane.testSlice t L).Inv l := by
  unfold Lane.testSlice
  try dsimp only
  repeat' first | with_reducible assumption | (intro _ _ _) | (intro _ _) | with_reducible apply Lane.sliceStart_inv | with_reducible apply ite_inv | with_reducible apply Lane.unpowered_id_inv | with_reducible apply Lane.when_inv

theorem Lane.testAnalog_inv {l : LaneId}  {L : Lane} (hL : L.Inv l) : (Lane.testAnalog  L).Inv l := by
  unfold Lane.testAnalog
  try dsimp only
  repeat' first | with_reducible assumption | (intro _ _ _) | (intro _ _) | with_reducible apply Lane.onTest_inv | with_reducible apply ite_inv | with_reducible apply Lane.unpowered_id_inv | with_reducible apply Lane.when_inv

theorem Lane.analogDone_inv {l : LaneId} (r : AnalogReadings) (res0 res1 : Word) {L : Lane} (hL : L.Inv l) : (Lane.analogDone r res0 res1 L).Inv l := by
  unfold Lane.analogDone
  try dsimp only
  repeat' first | with_reducible assumption | (intro _ _ _) | (intro _ _) | with_reducible apply Lane.analogTest_inv | with_reducible apply Lane.onTest_inv | with_reducible apply Lane.irq_inv

end Sys2Proof.Machine
end

