-- ==== Sys2Proof/Laws/InvStatus.lean ====
section
/-! SUPPORT. The operations of Machine/Status.lean keep the invariant of a lane. -/

namespace Sys2Proof.Machine

theorem Lane.takeRoles_inv {l : LaneId} (f : Func) (r : Nat × Nat × Nat) (h : History) {L : Lane} (hL : L.Inv l) : (Lane.takeRoles f r h L).Inv l := by
  unfold Lane.takeRoles
  try dsimp only
  repeat' first | with_reducible assumption | (intro _ _ _) | (intro _ _) | with_reducible apply Lane.onRet_inv | with_reducible apply Lane.wr_inv

theorem Lane.electionEnds_inv {l : LaneId}  {L : Lane} (hL : L.Inv l) : (Lane.electionEnds  L).Inv l := by
  unfold Lane.electionEnds
  try dsimp only
  repeat' first | with_reducible assumption | (intro _ _ _) | (intro _ _) | with_reducible apply Lane.onStart_inv | with_reducible apply Lane.stop_inv | with_reducible apply Lane.set1_inv

theorem Lane.elect_inv {l : LaneId}  {L : Lane} (hL : L.Inv l) : (Lane.elect  L).Inv l := by
  unfold Lane.elect
  try dsimp only
  repeat' first | with_reducible assumption | (intro _ _ _) | (intro _ _) | with_reducible apply Lane.electionEnds_inv | with_reducible apply Lane.takeRoles_inv | with_reducible apply Lane.setOwnRole_inv | with_reducible apply Lane.onStart_inv | with_reducible apply Lane.stop_inv | with_reducible apply Lane.wr_inv | with_reducible apply ite_inv | with_reducible apply Lane.unpowered_id_inv | with_reducible apply Lane.when_inv | with_reducible apply Lane.each_inv

theorem Lane.tryElect_inv {l : LaneId}  {L : Lane} (hL : L.Inv l) : (Lane.tryElect  L).Inv l := by
  unfold Lane.tryElect
  try dsimp only
  repeat' first | with_reducible assumption | (intro _ _ _) | (intro _ _) | with_reducible apply Lane.elect_inv | with_reducible apply ite_inv

theorem Lane.adoptElection_inv {l : LaneId} (f : StatusFrame) {L : Lane} (hL : L.Inv l) : (Lane.adoptElection f L).Inv l := by
  unfold Lane.adoptElection
  try dsimp only
  repeat' first | with_reducible assumption | (intro _ _ _) | (intro _ _) | with_reducible apply Lane.electionEnds_inv | with_reducible apply Lane.takeRoles_inv | with_reducible apply Lane.setOwnRole_inv | with_reducible apply Lane.onStart_inv | with_reducible apply ite_inv | with_reducible apply Lane.unpowered_id_inv | with_reducible apply Lane.when_inv | with_reducible apply Lane.each_inv

theorem Lane.learn_inv {l : LaneId} (f : StatusFrame) {L : Lane} (hL : L.Inv l) : (Lane.learn f L).Inv l := by
  unfold Lane.learn
  try dsimp only
  repeat' first | with_reducible assumption | (intro _ _ _) | (intro _ _) | with_reducible apply Lane.electionEnds_inv | with_reducible apply Lane.takeRoles_inv | with_reducible apply Lane.onStart_inv | with_reducible apply ite_inv | with_reducible apply Lane.unpowered_id_inv | with_reducible apply Lane.when_inv | with_reducible apply Lane.each_inv

theorem Lane.restartElection_inv {l : LaneId} (f : StatusFrame) {L : Lane} (hL : L.Inv l) : (Lane.restartElection f L).Inv l := by
  unfold Lane.restartElection
  try dsimp only
  repeat' first | with_reducible assumption | (intro _ _ _) | (intro _ _) | with_reducible apply Lane.onStart_inv | with_reducible apply Lane.restart_inv | with_reducible apply Lane.clr_inv | with_reducible apply ite_inv | with_reducible apply Lane.unpowered_id_inv | with_reducible apply Lane.when_inv

theorem Lane.followElection_inv {l : LaneId} (f : StatusFrame) (newPeer : Bool) {L : Lane} (hL : L.Inv l) : (Lane.followElection f newPeer L).Inv l := by
  unfold Lane.followElection
  try dsimp only
  repeat' first | with_reducible assumption | (intro _ _ _) | (intro _ _) | with_reducible apply Lane.restartElection_inv | with_reducible apply Lane.learn_inv | with_reducible apply Lane.adoptElection_inv | with_reducible apply Lane.tryElect_inv | with_reducible apply ite_inv | with_reducible apply Lane.unpowered_id_inv | with_reducible apply Lane.when_inv

theorem Lane.watchPark_inv {l : LaneId}  {L : Lane} (hL : L.Inv l) : (Lane.watchPark  L).Inv l := by
  unfold Lane.watchPark
  try dsimp only
  repeat' first | with_reducible assumption | (intro _ _ _) | (intro _ _) | with_reducible apply Lane.start1_inv | with_reducible apply Lane.stop_inv | with_reducible apply ite_inv

theorem Lane.watchPhase_inv {l : LaneId}  {L : Lane} (hL : L.Inv l) : (Lane.watchPhase  L).Inv l := by
  unfold Lane.watchPhase
  try dsimp only
  repeat' first | with_reducible assumption | (intro _ _ _) | (intro _ _) | with_reducible apply Lane.grants_inv | with_reducible apply Lane.wr_inv | with_reducible apply ite_inv | with_reducible apply Lane.unpowered_id_inv | with_reducible apply Lane.when_inv | with_reducible apply Lane.each_inv

theorem Lane.beginsToServe_inv {l : LaneId} (g : Func) (x : LaneId) {L : Lane} (hL : L.Inv l) : (Lane.beginsToServe g x L).Inv l := by
  unfold Lane.beginsToServe
  try dsimp only
  repeat' first | with_reducible assumption | (intro _ _ _) | (intro _ _) | with_reducible apply Lane.reshare_inv | with_reducible apply Lane.clearCause_inv | with_reducible apply Lane.wrBit_inv | with_reducible apply Lane.wr_inv | with_reducible apply ite_inv | with_reducible apply Lane.unpowered_id_inv | with_reducible apply Lane.when_inv

theorem Lane.followServing_inv {l : LaneId} (x : LaneId) (state : Nat) (g : Func) (r : FuncReport) {L : Lane} (hL : L.Inv l) : (Lane.followServing x state g r L).Inv l := by
  unfold Lane.followServing
  try dsimp only
  repeat' first | with_reducible assumption | (intro _ _ _) | (intro _ _) | with_reducible apply Lane.beginsToServe_inv | with_reducible apply Lane.reshare_inv | with_reducible apply Lane.onFn_inv | with_reducible apply ite_inv | with_reducible apply Lane.unpowered_id_inv | with_reducible apply Lane.when_inv

theorem Lane.correctCause_inv {l : LaneId} (g : Func) (c : Nat) {L : Lane} (hL : L.Inv l) : (Lane.correctCause g c L).Inv l := by
  unfold Lane.correctCause
  try dsimp only
  repeat' first | with_reducible assumption | (intro _ _ _) | (intro _ _) | with_reducible apply Lane.onFn_inv | with_reducible apply Lane.wr_inv | with_reducible apply ite_inv | with_reducible apply Lane.unpowered_id_inv | with_reducible apply Lane.when_inv

theorem Lane.followModes_inv {l : LaneId} (x : LaneId) (state : Nat) (voteLost : Bool) (g : Func) (r : FuncReport) {L : Lane} (hL : L.Inv l) : (Lane.followModes x state voteLost g r L).Inv l := by
  unfold Lane.followModes
  try dsimp only
  repeat' first | with_reducible assumption | (intro _ _ _) | (intro _ _) | with_reducible apply Lane.correctCause_inv | with_reducible apply Lane.sensorLoss_inv | with_reducible apply Lane.autumn_inv | with_reducible apply Lane.enterAutumn_inv | with_reducible apply Lane.setTimer_inv | with_reducible apply ite_inv | with_reducible apply Lane.unpowered_id_inv | with_reducible apply Lane.when_inv

theorem Lane.followWinter_inv {l : LaneId} (g : Func) (r : FuncReport) {L : Lane} (hL : L.Inv l) : (Lane.followWinter g r L).Inv l := by
  unfold Lane.followWinter
  try dsimp only
  repeat' first | with_reducible assumption | (intro _ _ _) | (intro _ _) | with_reducible apply Lane.winterSpread_inv | with_reducible apply ite_inv | with_reducible apply Lane.unpowered_id_inv | with_reducible apply Lane.when_inv

theorem Lane.statusRx_inv {l : LaneId} (s : Side) (f : StatusFrame) {L : Lane} (hL : L.Inv l) : (Lane.statusRx s f L).Inv l := by
  unfold Lane.statusRx
  try dsimp only
  repeat' first | with_reducible assumption | (intro _ _ _) | (intro _ _) | with_reducible apply Lane.followWinter_inv | with_reducible apply Lane.followModes_inv | with_reducible apply Lane.followServing_inv | with_reducible apply Lane.watchPhase_inv | with_reducible apply Lane.watchPark_inv | with_reducible apply Lane.followElection_inv | with_reducible apply Lane.trialFollow_inv | with_reducible apply Lane.followActivation_inv | with_reducible apply Lane.coordinate_inv | with_reducible apply Lane.judgeZ_inv | with_reducible apply Lane.linkHeard_inv | with_reducible apply Lane.evaluateNow_inv | with_reducible apply Lane.showBar_inv | with_reducible apply Lane.restart_inv | with_reducible apply Lane.wrBit_inv | with_reducible apply Lane.set1_inv | with_reducible apply Lane.wr_inv | with_reducible apply ite_inv | with_reducible apply Lane.unpowered_id_inv | with_reducible apply Lane.when_inv | with_reducible apply Lane.each_inv | with_reducible apply foldl_inv | with_reducible apply Lane.Inv.id | with_reducible apply Lane.Inv.regs | with_reducible apply Lane.Inv.sram | with_reducible apply Lane.Inv.store | with_reducible apply Tab.wf_filter | with_reducible apply Tab.wf_foldl | with_reducible apply Tab.wf_put | with_reducible apply Tab.wf_graft | with_reducible apply Lane.unpowered_inv | with_reducible apply foldl_pair_inv | split | (simp only [Lane.mk_inv]; refine ⟨?_, ?_, ?_, ?_⟩)

theorem Lane.dropLost_inv {l : LaneId} (x : LaneId) (f : Func) {L : Lane} (hL : L.Inv l) : (Lane.dropLost x f L).Inv l := by
  unfold Lane.dropLost
  try dsimp only
  repeat' first | with_reducible assumption | (intro _ _ _) | (intro _ _) | with_reducible apply Lane.reform_inv | with_reducible apply Lane.rotateHistory_inv | with_reducible apply Lane.becomeActive_inv | with_reducible apply Lane.setOwnRole_inv | with_reducible apply Lane.reshare_inv | with_reducible apply Lane.autumn_inv | with_reducible apply ite_inv | with_reducible apply Lane.unpowered_id_inv | with_reducible apply Lane.when_inv

theorem Lane.statusLost_inv {l : LaneId} (s : Side) {L : Lane} (hL : L.Inv l) : (Lane.statusLost s L).Inv l := by
  unfold Lane.statusLost
  try dsimp only
  repeat' first | with_reducible assumption | (intro _ _ _) | (intro _ _) | with_reducible apply Lane.dropLost_inv | with_reducible apply Lane.watchPhase_inv | with_reducible apply Lane.watchPark_inv | with_reducible apply Lane.judgeZ_inv | with_reducible apply Lane.watchdogAccuse_inv | with_reducible apply Lane.reshare_inv | with_reducible apply Lane.fire_inv | with_reducible apply Lane.onFn_inv | with_reducible apply Lane.stop_inv | with_reducible apply Lane.wrBit_inv | with_reducible apply Lane.clr_inv | with_reducible apply Lane.set1_inv | with_reducible apply ite_inv | with_reducible apply Lane.unpowered_id_inv | with_reducible apply Lane.when_inv | with_reducible apply Lane.each_inv

theorem Lane.rotate_inv {l : LaneId} (f : Func) {L : Lane} (hL : L.Inv l) : (Lane.rotate f L).Inv l := by
  unfold Lane.rotate
  try dsimp only
  repeat' first | with_reducible assumption | (intro _ _ _) | (intro _ _) | with_reducible apply Lane.commit_inv | with_reducible apply Lane.rotateHistory_inv | with_reducible apply Lane.becomeActive_inv | with_reducible apply Lane.setOwnRole_inv | with_reducible apply Lane.onFn_inv | with_reducible apply Lane.stop_inv | with_reducible apply Lane.wrBit_inv | with_reducible apply Lane.wr_inv | with_reducible apply ite_inv | with_reducible apply Lane.unpowered_id_inv | with_reducible apply Lane.when_inv | with_reducible apply Lane.each_inv | with_reducible apply foldl_inv | with_reducible apply Lane.Inv.id | with_reducible apply Lane.Inv.regs | with_reducible apply Lane.Inv.sram | with_reducible apply Lane.Inv.store | with_reducible apply Tab.wf_filter | with_reducible apply Tab.wf_foldl | with_reducible apply Tab.wf_put | with_reducible apply Tab.wf_graft | with_reducible apply Lane.unpowered_inv | with_reducible apply foldl_pair_inv | split | (simp only [Lane.mk_inv]; refine ⟨?_, ?_, ?_, ?_⟩)

theorem Lane.tryRotate_inv {l : LaneId} (f : Func) {L : Lane} (hL : L.Inv l) : (Lane.tryRotate f L).Inv l := by
  unfold Lane.tryRotate
  try dsimp only
  repeat' first | with_reducible assumption | (intro _ _ _) | (intro _ _) | with_reducible apply Lane.rotate_inv | with_reducible apply Lane.commit_inv | with_reducible apply Lane.onFn_inv | with_reducible apply ite_inv | with_reducible apply Lane.unpowered_id_inv | with_reducible apply Lane.when_inv | with_reducible apply Lane.each_inv | with_reducible apply foldl_inv | with_reducible apply Lane.Inv.id | with_reducible apply Lane.Inv.regs | with_reducible apply Lane.Inv.sram | with_reducible apply Lane.Inv.store | with_reducible apply Tab.wf_filter | with_reducible apply Tab.wf_foldl | with_reducible apply Tab.wf_put | with_reducible apply Tab.wf_graft | with_reducible apply Lane.unpowered_inv | with_reducible apply foldl_pair_inv | split

theorem Lane.startWatchdog_inv {l : LaneId} (f : Func) {L : Lane} (hL : L.Inv l) : (Lane.startWatchdog f L).Inv l := by
  unfold Lane.startWatchdog
  try dsimp only
  repeat' first | with_reducible assumption | (intro _ _ _) | (intro _ _) | with_reducible apply Lane.setTimer_inv | with_reducible apply ite_inv | with_reducible apply Lane.unpowered_id_inv | with_reducible apply Lane.when_inv

theorem Lane.override_inv {l : LaneId} (a : AuthIn) {L : Lane} (hL : L.Inv l) : (Lane.override a L).Inv l := by
  unfold Lane.override
  try dsimp only
  repeat' first | with_reducible assumption | (intro _ _ _) | (intro _ _) | with_reducible apply Lane.release_inv | with_reducible apply Lane.disengageAll_inv | with_reducible apply Lane.clr_inv | with_reducible apply Lane.set1_inv | with_reducible apply ite_inv | with_reducible apply Lane.unpowered_id_inv | with_reducible apply Lane.when_inv | with_reducible apply Lane.each_inv | with_reducible apply foldl_inv | with_reducible apply Lane.Inv.id | with_reducible apply Lane.Inv.regs | with_reducible apply Lane.Inv.sram | with_reducible apply Lane.Inv.store | with_reducible apply Tab.wf_filter | with_reducible apply Tab.wf_foldl | with_reducible apply Tab.wf_put | with_reducible apply Tab.wf_graft | with_reducible apply Lane.unpowered_inv | with_reducible apply foldl_pair_inv | split | (simp only [Lane.mk_inv]; refine ⟨?_, ?_, ?_, ?_⟩)

theorem Lane.parkApply_inv {l : LaneId} (ss : List (Nat × Word)) {L : Lane} (hL : L.Inv l) : (Lane.parkApply ss L).Inv l := by
  unfold Lane.parkApply
  try dsimp only
  repeat' first | with_reducible assumption | (intro _ _ _) | (intro _ _) | with_reducible apply ite_inv | with_reducible apply Lane.unpowered_id_inv | with_reducible apply Lane.when_inv | with_reducible apply Lane.each_inv | with_reducible apply foldl_inv | with_reducible apply Lane.Inv.id | with_reducible apply Lane.Inv.regs | with_reducible apply Lane.Inv.sram | with_reducible apply Lane.Inv.store | with_reducible apply Tab.wf_filter | with_reducible apply Tab.wf_foldl | with_reducible apply Tab.wf_put | with_reducible apply Tab.wf_graft | with_reducible apply Lane.unpowered_inv | with_reducible apply foldl_pair_inv | split | (simp only [Lane.mk_inv]; refine ⟨?_, ?_, ?_, ?_⟩)

theorem Lane.adopt_inv {l : LaneId} (f : Func) {L : Lane} (hL : L.Inv l) : (Lane.adopt f L).Inv l := by
  unfold Lane.adopt
  try dsimp only
  repeat' first | with_reducible assumption | (intro _ _ _) | (intro _ _) | with_reducible apply Lane.override_inv | with_reducible apply Lane.wrBit_inv | with_reducible apply Lane.clr_inv | with_reducible apply Lane.set1_inv | with_reducible apply Lane.wr_inv | with_reducible apply ite_inv | with_reducible apply Lane.unpowered_id_inv | with_reducible apply Lane.when_inv | with_reducible apply Lane.each_inv | with_reducible apply foldl_inv | with_reducible apply Lane.Inv.id | with_reducible apply Lane.Inv.regs | with_reducible apply Lane.Inv.sram | with_reducible apply Lane.Inv.store | with_reducible apply Tab.wf_filter | with_reducible apply Tab.wf_foldl | with_reducible apply Tab.wf_put | with_reducible apply Tab.wf_graft | with_reducible apply Lane.unpowered_inv | with_reducible apply foldl_pair_inv | split | (simp only [Lane.mk_inv]; refine ⟨?_, ?_, ?_, ?_⟩)

theorem Lane.authorityNotices_inv {l : LaneId} (f : Func) (was : List (Fin 4)) {L : Lane} (hL : L.Inv l) : (Lane.authorityNotices f was L).Inv l := by
  unfold Lane.authorityNotices
  try dsimp only
  repeat' first | with_reducible assumption | (intro _ _ _) | (intro _ _) | with_reducible apply Lane.notice_inv | with_reducible apply ite_inv | with_reducible apply Lane.unpowered_id_inv | with_reducible apply Lane.when_inv | with_reducible apply Lane.each_inv

theorem Lane.authority_inv {l : LaneId} (f : Func) (a : AuthIn) {L : Lane} (hL : L.Inv l) : (Lane.authority f a L).Inv l := by
  unfold Lane.authority
  try dsimp only
  repeat' first | with_reducible assumption | (intro _ _ _) | (intro _ _) | with_reducible apply Lane.authorityNotices_inv | with_reducible apply Lane.adopt_inv | with_reducible apply Lane.parkApply_inv | with_reducible apply Lane.override_inv | with_reducible apply Lane.wr_inv | with_reducible apply ite_inv | with_reducible apply Lane.unpowered_id_inv | with_reducible apply Lane.when_inv

theorem Lane.release'_inv {l : LaneId} (f : Func) (steerRate brakeRate : Nat) (a : AuthIn) {L : Lane} (hL : L.Inv l) : (Lane.release' f steerRate brakeRate a L).Inv l := by
  unfold Lane.release'
  try dsimp only
  repeat' first | with_reducible assumption | (intro _ _ _) | (intro _ _) | with_reducible apply Lane.authority_inv | with_reducible apply Lane.startWatchdog_inv | with_reducible apply Lane.tryRotate_inv | with_reducible apply Lane.onFn_inv | with_reducible apply Lane.wrBit_inv | with_reducible apply ite_inv | with_reducible apply Lane.unpowered_id_inv | with_reducible apply Lane.when_inv

end Sys2Proof.Machine
end

