-- ==== Sys2Proof/Laws/InvBus.lean ====
section
/-! SUPPORT. The operations of Machine/Bus.lean keep the invariant of a lane. -/

namespace Sys2Proof.Machine

theorem Lane.writeField_inv {l : LaneId} (locked : Bool) (a : Nat) (fd : FieldDef) (x : Nat) {L : Lane} (hL : L.Inv l) : (Lane.writeField locked a fd x L).Inv l := by
  unfold Lane.writeField
  try dsimp only
  repeat' first | with_reducible assumption | (intro _ _ _) | (intro _ _) | with_reducible apply Lane.wr_inv | with_reducible apply ite_inv | with_reducible apply Lane.unpowered_id_inv | with_reducible apply Lane.when_inv | with_reducible apply Lane.each_inv | with_reducible apply foldl_inv | with_reducible apply Lane.Inv.id | with_reducible apply Lane.Inv.regs | with_reducible apply Lane.Inv.sram | with_reducible apply Lane.Inv.store | with_reducible apply Tab.wf_filter | with_reducible apply Tab.wf_foldl | with_reducible apply Tab.wf_put | with_reducible apply Tab.wf_putList | with_reducible apply Tab.wf_graft | with_reducible apply Lane.unpowered_inv | split

theorem Lane.writeFields_inv {l : LaneId} (r : RegDef) (a v : Nat) {L : Lane} (hL : L.Inv l) : (Lane.writeFields r a v L).Inv l := by
  unfold Lane.writeFields
  try dsimp only
  repeat' first | with_reducible assumption | (intro _ _ _) | (intro _ _) | with_reducible apply Lane.writeField_inv | with_reducible apply ite_inv | with_reducible apply Lane.unpowered_id_inv | with_reducible apply Lane.when_inv | with_reducible apply Lane.each_inv

theorem Lane.writeSys_inv {l : LaneId} (r : RegDef) (a v : Nat) {L : Lane} (hL : L.Inv l) : (Lane.writeSys r a v L).Inv l := by
  unfold Lane.writeSys
  try dsimp only
  repeat' first | with_reducible assumption | (intro _ _ _) | (intro _ _) | with_reducible apply Lane.writeFields_inv | with_reducible apply Lane.tryElect_inv | with_reducible apply Lane.armTrigger_inv | with_reducible apply Lane.featLock_inv | with_reducible apply Lane.softCommit_inv | with_reducible apply Lane.clr_inv | with_reducible apply ite_inv | with_reducible apply Lane.unpowered_id_inv | with_reducible apply Lane.when_inv

theorem Lane.writeRole_inv {l : LaneId} (p : Pair) (r : RegDef) (a v : Nat) {L : Lane} (hL : L.Inv l) : (Lane.writeRole p r a v L).Inv l := by
  unfold Lane.writeRole
  try dsimp only
  repeat' first | with_reducible assumption | (intro _ _ _) | (intro _ _) | with_reducible apply Lane.writeFields_inv | with_reducible apply Lane.roleClr_inv | with_reducible apply Lane.p0Only_inv | with_reducible apply Lane.withdraw_inv | with_reducible apply Lane.wr_inv | with_reducible apply ite_inv | with_reducible apply Lane.unpowered_id_inv | with_reducible apply Lane.when_inv | with_reducible apply Lane.each_inv

theorem Lane.writeCm_inv {l : LaneId} (r : RegDef) (a v : Nat) {L : Lane} (hL : L.Inv l) : (Lane.writeCm r a v L).Inv l := by
  unfold Lane.writeCm
  try dsimp only
  repeat' first | with_reducible assumption | (intro _ _ _) | (intro _ _) | with_reducible apply Lane.writeFields_inv | with_reducible apply Lane.clr_inv | with_reducible apply ite_inv | with_reducible apply Lane.unpowered_id_inv | with_reducible apply Lane.when_inv | with_reducible apply Lane.each_inv

theorem Lane.writeFc_inv {l : LaneId} (r : RegDef) (a v : Nat) {L : Lane} (hL : L.Inv l) : (Lane.writeFc r a v L).Inv l := by
  unfold Lane.writeFc
  try dsimp only
  repeat' first | with_reducible assumption | (intro _ _ _) | (intro _ _) | with_reducible apply Lane.writeFields_inv | with_reducible apply Lane.injectParity_inv | with_reducible apply Lane.inject_inv | with_reducible apply Lane.writeSticky_inv | with_reducible apply Lane.clr_inv | with_reducible apply Lane.wr_inv | with_reducible apply ite_inv | with_reducible apply Lane.unpowered_id_inv | with_reducible apply Lane.when_inv

theorem Lane.writePd_inv {l : LaneId} (r : RegDef) (a v : Nat) {L : Lane} (hL : L.Inv l) : (Lane.writePd r a v L).Inv l := by
  unfold Lane.writePd
  try dsimp only
  repeat' first | with_reducible assumption | (intro _ _ _) | (intro _ _) | with_reducible apply Lane.writeFields_inv | with_reducible apply Lane.pdWrite_inv | with_reducible apply Lane.pdClear_inv | with_reducible apply ite_inv | with_reducible apply Lane.unpowered_id_inv | with_reducible apply Lane.when_inv

theorem Lane.writeCk_inv {l : LaneId} (r : RegDef) (a v : Nat) {L : Lane} (hL : L.Inv l) : (Lane.writeCk r a v L).Inv l := by
  unfold Lane.writeCk
  try dsimp only
  repeat' first | with_reducible assumption | (intro _ _ _) | (intro _ _) | with_reducible apply Lane.writeFields_inv | with_reducible apply Lane.fmWindow_inv | with_reducible apply Lane.fmWrite_inv | with_reducible apply ite_inv

theorem Lane.writeTs_inv {l : LaneId} (r : RegDef) (a v : Nat) {L : Lane} (hL : L.Inv l) : (Lane.writeTs r a v L).Inv l := by
  unfold Lane.writeTs
  try dsimp only
  repeat' first | with_reducible assumption | (intro _ _ _) | (intro _ _) | with_reducible apply Lane.writeFields_inv | with_reducible apply Lane.pulseConfig_inv | with_reducible apply Lane.jumpWrite_inv | with_reducible apply ite_inv | with_reducible apply Lane.unpowered_id_inv | with_reducible apply Lane.when_inv | with_reducible apply Lane.each_inv | with_reducible apply foldl_inv | with_reducible apply Lane.Inv.id | with_reducible apply Lane.Inv.regs | with_reducible apply Lane.Inv.sram | with_reducible apply Lane.Inv.store | with_reducible apply Tab.wf_filter | with_reducible apply Tab.wf_foldl | with_reducible apply Tab.wf_put | with_reducible apply Tab.wf_putList | with_reducible apply Tab.wf_graft | with_reducible apply Lane.unpowered_inv | split

theorem Lane.writeSz_inv {l : LaneId} (r : RegDef) (a v : Nat) {L : Lane} (hL : L.Inv l) : (Lane.writeSz r a v L).Inv l := by
  unfold Lane.writeSz
  try dsimp only
  repeat' first | with_reducible assumption | (intro _ _ _) | (intro _ _) | with_reducible apply Lane.writeFields_inv | with_reducible apply Lane.writeField_inv | with_reducible apply Lane.szEnable_inv | with_reducible apply Lane.wr_inv | with_reducible apply ite_inv | with_reducible apply Lane.unpowered_id_inv | with_reducible apply Lane.when_inv | with_reducible apply Lane.each_inv

theorem Lane.writeHq_inv {l : LaneId} (r : RegDef) (a v : Nat) {L : Lane} (hL : L.Inv l) : (Lane.writeHq r a v L).Inv l := by
  unfold Lane.writeHq
  try dsimp only
  repeat' first | with_reducible assumption | (intro _ _ _) | (intro _ _) | with_reducible apply Lane.writeFields_inv | with_reducible apply Lane.push_inv | with_reducible apply Lane.pop_inv | with_reducible apply ite_inv | with_reducible apply Lane.unpowered_id_inv | with_reducible apply Lane.when_inv

theorem Lane.writeSe_inv {l : LaneId} (who : Option Core) (r : RegDef) (a v : Nat) {L : Lane} (hL : L.Inv l) : (Lane.writeSe who r a v L).Inv l := by
  unfold Lane.writeSe
  try dsimp only
  repeat' first | with_reducible assumption | (intro _ _ _) | (intro _ _) | with_reducible apply Lane.writeFields_inv | with_reducible apply Lane.seAct_inv | with_reducible apply Lane.seSubmit_inv | with_reducible apply Lane.fire_inv | with_reducible apply ite_inv

theorem Lane.writeBt_inv {l : LaneId} (r : RegDef) (a v : Nat) {L : Lane} (hL : L.Inv l) : (Lane.writeBt r a v L).Inv l := by
  unfold Lane.writeBt
  try dsimp only
  repeat' first | with_reducible assumption | (intro _ _ _) | (intro _ _) | with_reducible apply Lane.writeFields_inv | with_reducible apply Lane.testAnalog_inv | with_reducible apply Lane.testSlice_inv | with_reducible apply Lane.sliceCtrl_inv | with_reducible apply Lane.fuseWrite_inv | with_reducible apply ite_inv | with_reducible apply Lane.unpowered_id_inv | with_reducible apply Lane.when_inv

theorem Lane.writeAg_inv {l : LaneId} (r : RegDef) (a v : Nat) {L : Lane} (hL : L.Inv l) : (Lane.writeAg r a v L).Inv l := by
  unfold Lane.writeAg
  try dsimp only
  repeat' first | with_reducible assumption | (intro _ _ _) | (intro _ _) | with_reducible apply Lane.writeFields_inv | with_reducible apply Lane.agGo_inv | with_reducible apply ite_inv | with_reducible apply Lane.unpowered_id_inv | with_reducible apply Lane.when_inv

theorem Lane.writeDe_inv {l : LaneId} (r : RegDef) (a v : Nat) {L : Lane} (hL : L.Inv l) : (Lane.writeDe r a v L).Inv l := by
  unfold Lane.writeDe
  try dsimp only
  repeat' first | with_reducible assumption | (intro _ _ _) | (intro _ _) | with_reducible apply Lane.writeFields_inv | with_reducible apply Lane.watchPhase_inv | with_reducible apply Lane.sealIm_inv | with_reducible apply Lane.run_inv | with_reducible apply Lane.dataAccess_inv | with_reducible apply Lane.doorbell_inv | with_reducible apply Lane.halt_inv | with_reducible apply Lane.set1_inv | with_reducible apply Lane.wr_inv | with_reducible apply ite_inv | with_reducible apply Lane.unpowered_id_inv | with_reducible apply Lane.when_inv | with_reducible apply Lane.each_inv | with_reducible apply foldl_inv | with_reducible apply Lane.Inv.id | with_reducible apply Lane.Inv.regs | with_reducible apply Lane.Inv.sram | with_reducible apply Lane.Inv.store | with_reducible apply Tab.wf_filter | with_reducible apply Tab.wf_foldl | with_reducible apply Tab.wf_put | with_reducible apply Tab.wf_putList | with_reducible apply Tab.wf_graft | with_reducible apply Lane.unpowered_inv | split

theorem Lane.writeCs_inv {l : LaneId} (r : RegDef) (a v : Nat) {L : Lane} (hL : L.Inv l) : (Lane.writeCs r a v L).Inv l := by
  unfold Lane.writeCs
  try dsimp only
  repeat' first | with_reducible assumption | (intro _ _ _) | (intro _ _) | with_reducible apply Lane.writeFields_inv | with_reducible apply Lane.calStart_inv | with_reducible apply ite_inv

theorem Lane.writeGd_inv {l : LaneId} (r : RegDef) (a v : Nat) {L : Lane} (hL : L.Inv l) : (Lane.writeGd r a v L).Inv l := by
  unfold Lane.writeGd
  try dsimp only
  repeat' first | with_reducible assumption | (intro _ _ _) | (intro _ _) | with_reducible apply Lane.writeFields_inv | with_reducible apply Lane.zStart_inv | with_reducible apply Lane.testStart_inv | with_reducible apply Lane.chopFSet_inv | with_reducible apply Lane.chopApply_inv | with_reducible apply Lane.drawn_inv | with_reducible apply ite_inv | with_reducible apply Lane.unpowered_id_inv | with_reducible apply Lane.when_inv

theorem Lane.writeLg_inv {l : LaneId} (p : Pair) (r : RegDef) (a v : Nat) {L : Lane} (hL : L.Inv l) : (Lane.writeLg p r a v L).Inv l := by
  unfold Lane.writeLg
  try dsimp only
  repeat' first | with_reducible assumption | (intro _ _ _) | (intro _ _) | with_reducible apply Lane.writeFields_inv | with_reducible apply Lane.writeWd_inv | with_reducible apply Lane.rearm_inv | with_reducible apply Lane.judgeAnswer_inv | with_reducible apply Lane.p0Only_inv | with_reducible apply Lane.driveKm_inv | with_reducible apply ite_inv | with_reducible apply Lane.unpowered_id_inv | with_reducible apply Lane.when_inv

theorem Lane.regWrite_inv {l : LaneId} (who : Option Core) (r : RegDef) (a v : Nat) {L : Lane} (hL : L.Inv l) : (Lane.regWrite who r a v L).Inv l := by
  unfold Lane.regWrite
  try dsimp only
  repeat' first | with_reducible assumption | (intro _ _ _) | (intro _ _) | with_reducible apply Lane.writeLg_inv | with_reducible apply Lane.writeGd_inv | with_reducible apply Lane.writeCs_inv | with_reducible apply Lane.writeDe_inv | with_reducible apply Lane.writeAg_inv | with_reducible apply Lane.writeBt_inv | with_reducible apply Lane.writeSe_inv | with_reducible apply Lane.writeHq_inv | with_reducible apply Lane.writeSz_inv | with_reducible apply Lane.writeTs_inv | with_reducible apply Lane.writeCk_inv | with_reducible apply Lane.writePd_inv | with_reducible apply Lane.writeFc_inv | with_reducible apply Lane.writeCm_inv | with_reducible apply Lane.writeRole_inv | with_reducible apply Lane.writeSys_inv | with_reducible apply Lane.writeFields_inv | with_reducible apply Lane.fcCheck_inv | with_reducible apply Lane.grants_inv | with_reducible apply ite_inv | with_reducible apply Lane.unpowered_id_inv | with_reducible apply Lane.when_inv | with_reducible apply Lane.each_inv | with_reducible apply foldl_inv | with_reducible apply Lane.Inv.id | with_reducible apply Lane.Inv.regs | with_reducible apply Lane.Inv.sram | with_reducible apply Lane.Inv.store | with_reducible apply Tab.wf_filter | with_reducible apply Tab.wf_foldl | with_reducible apply Tab.wf_put | with_reducible apply Tab.wf_putList | with_reducible apply Tab.wf_graft | with_reducible apply Lane.unpowered_inv | split

theorem Lane.coreInterrupt_inv {l : LaneId} (c : Core) {L : Lane} (hL : L.Inv l) : (Lane.coreInterrupt c L).Inv l := by
  unfold Lane.coreInterrupt
  try dsimp only
  repeat' first | with_reducible assumption | (intro _ _ _) | (intro _ _) | with_reducible apply Lane.interrupt_inv | with_reducible apply Lane.pdWake_inv | with_reducible apply ite_inv | with_reducible apply Lane.unpowered_id_inv | with_reducible apply Lane.when_inv

theorem Lane.timerCheck_inv {l : LaneId} (c : Core) {L : Lane} (hL : L.Inv l) : (Lane.timerCheck c L).Inv l := by
  unfold Lane.timerCheck
  try dsimp only
  repeat' first | with_reducible assumption | (intro _ _ _) | (intro _ _) | with_reducible apply Lane.coreInterrupt_inv | with_reducible apply ite_inv | with_reducible apply Lane.unpowered_id_inv | with_reducible apply Lane.when_inv | with_reducible apply Lane.each_inv | with_reducible apply foldl_inv | with_reducible apply Lane.Inv.id | with_reducible apply Lane.Inv.regs | with_reducible apply Lane.Inv.sram | with_reducible apply Lane.Inv.store | with_reducible apply Tab.wf_filter | with_reducible apply Tab.wf_foldl | with_reducible apply Tab.wf_put | with_reducible apply Tab.wf_putList | with_reducible apply Tab.wf_graft | with_reducible apply Lane.unpowered_inv | split | (simp only [Lane.mk_inv]; refine ⟨?_, ?_, ?_, ?_⟩)

theorem Lane.timerStore_inv {l : LaneId} (a v : Nat) {L : Lane} (hL : L.Inv l) : (Lane.timerStore a v L).Inv l := by
  unfold Lane.timerStore
  try dsimp only
  repeat' first | with_reducible assumption | (intro _ _ _) | (intro _ _) | with_reducible apply Lane.timerCheck_inv | with_reducible apply Lane.coreInterrupt_inv | with_reducible apply ite_inv | with_reducible apply Lane.unpowered_id_inv | with_reducible apply Lane.when_inv | with_reducible apply Lane.each_inv | with_reducible apply foldl_inv | with_reducible apply Lane.Inv.id | with_reducible apply Lane.Inv.regs | with_reducible apply Lane.Inv.sram | with_reducible apply Lane.Inv.store | with_reducible apply Tab.wf_filter | with_reducible apply Tab.wf_foldl | with_reducible apply Tab.wf_put | with_reducible apply Tab.wf_putList | with_reducible apply Tab.wf_graft | with_reducible apply Lane.unpowered_inv | split | (simp only [Lane.mk_inv]; refine ⟨?_, ?_, ?_, ?_⟩)

theorem Lane.plicCheck_inv {l : LaneId} (c : Core) {L : Lane} (hL : L.Inv l) : (Lane.plicCheck c L).Inv l := by
  unfold Lane.plicCheck
  try dsimp only
  repeat' first | with_reducible assumption | (intro _ _ _) | (intro _ _) | with_reducible apply Lane.coreInterrupt_inv | with_reducible apply ite_inv | with_reducible apply Lane.unpowered_id_inv | with_reducible apply Lane.when_inv | with_reducible apply Lane.each_inv | with_reducible apply foldl_inv | with_reducible apply Lane.Inv.id | with_reducible apply Lane.Inv.regs | with_reducible apply Lane.Inv.sram | with_reducible apply Lane.Inv.store | with_reducible apply Tab.wf_filter | with_reducible apply Tab.wf_foldl | with_reducible apply Tab.wf_put | with_reducible apply Tab.wf_putList | with_reducible apply Tab.wf_graft | with_reducible apply Lane.unpowered_inv | split | (simp only [Lane.mk_inv]; refine ⟨?_, ?_, ?_, ?_⟩)

theorem Lane.plicCheckAll_inv {l : LaneId}  {L : Lane} (hL : L.Inv l) : (Lane.plicCheckAll  L).Inv l := by
  unfold Lane.plicCheckAll
  try dsimp only
  repeat' first | with_reducible assumption | (intro _ _ _) | (intro _ _) | with_reducible apply Lane.plicCheck_inv | with_reducible apply ite_inv | with_reducible apply Lane.unpowered_id_inv | with_reducible apply Lane.when_inv | with_reducible apply Lane.each_inv

theorem Lane.plicComplete_inv {l : LaneId} (ctx v : Nat) {L : Lane} (hL : L.Inv l) : (Lane.plicComplete ctx v L).Inv l := by
  unfold Lane.plicComplete
  try dsimp only
  repeat' first | with_reducible assumption | (intro _ _ _) | (intro _ _) | with_reducible apply Lane.irq_inv | with_reducible apply ite_inv | with_reducible apply Lane.unpowered_id_inv | with_reducible apply Lane.when_inv | with_reducible apply Lane.each_inv | with_reducible apply foldl_inv | with_reducible apply Lane.Inv.id | with_reducible apply Lane.Inv.regs | with_reducible apply Lane.Inv.sram | with_reducible apply Lane.Inv.store | with_reducible apply Tab.wf_filter | with_reducible apply Tab.wf_foldl | with_reducible apply Tab.wf_put | with_reducible apply Tab.wf_putList | with_reducible apply Tab.wf_graft | with_reducible apply Lane.unpowered_inv | split | (simp only [Lane.mk_inv]; refine ⟨?_, ?_, ?_, ?_⟩)

theorem Lane.plicPut_inv {l : LaneId} (o v : Nat) {L : Lane} (hL : L.Inv l) : (Lane.plicPut o v L).Inv l := by
  unfold Lane.plicPut
  try dsimp only
  repeat' first | with_reducible assumption | (intro _ _ _) | (intro _ _) | with_reducible apply ite_inv | with_reducible apply Lane.unpowered_id_inv | with_reducible apply Lane.when_inv | with_reducible apply Lane.each_inv | with_reducible apply foldl_inv | with_reducible apply Lane.Inv.id | with_reducible apply Lane.Inv.regs | with_reducible apply Lane.Inv.sram | with_reducible apply Lane.Inv.store | with_reducible apply Tab.wf_filter | with_reducible apply Tab.wf_foldl | with_reducible apply Tab.wf_put | with_reducible apply Tab.wf_putList | with_reducible apply Tab.wf_graft | with_reducible apply Lane.unpowered_inv | split | (simp only [Lane.mk_inv]; refine ⟨?_, ?_, ?_, ?_⟩)

theorem Lane.plicClaim_inv {l : LaneId} (i : Irq) {L : Lane} (hL : L.Inv l) : (Lane.plicClaim i L).Inv l := by
  unfold Lane.plicClaim
  try dsimp only
  repeat' first | with_reducible assumption | (intro _ _ _) | (intro _ _) | with_reducible apply ite_inv | with_reducible apply Lane.unpowered_id_inv | with_reducible apply Lane.when_inv | with_reducible apply Lane.each_inv | with_reducible apply foldl_inv | with_reducible apply Lane.Inv.id | with_reducible apply Lane.Inv.regs | with_reducible apply Lane.Inv.sram | with_reducible apply Lane.Inv.store | with_reducible apply Tab.wf_filter | with_reducible apply Tab.wf_foldl | with_reducible apply Tab.wf_put | with_reducible apply Tab.wf_putList | with_reducible apply Tab.wf_graft | with_reducible apply Lane.unpowered_inv | split | (simp only [Lane.mk_inv]; refine ⟨?_, ?_, ?_, ?_⟩)

theorem Lane.plicStore_inv {l : LaneId} (o v : Nat) {L : Lane} (hL : L.Inv l) : (Lane.plicStore o v L).Inv l := by
  unfold Lane.plicStore
  try dsimp only
  repeat' first | with_reducible assumption | (intro _ _ _) | (intro _ _) | with_reducible apply Lane.plicPut_inv | with_reducible apply Lane.plicComplete_inv | with_reducible apply Lane.plicCheckAll_inv | with_reducible apply ite_inv | with_reducible apply Lane.unpowered_id_inv | with_reducible apply Lane.when_inv | with_reducible apply Lane.each_inv | with_reducible apply foldl_inv | with_reducible apply Lane.Inv.id | with_reducible apply Lane.Inv.regs | with_reducible apply Lane.Inv.sram | with_reducible apply Lane.Inv.store | with_reducible apply Tab.wf_filter | with_reducible apply Tab.wf_foldl | with_reducible apply Tab.wf_put | with_reducible apply Tab.wf_putList | with_reducible apply Tab.wf_graft | with_reducible apply Lane.unpowered_inv | split

theorem Lane.plicLoad_inv {l : LaneId} (o : Nat) {L : Lane} (hL : L.Inv l) : (Lane.plicLoad o L).2.Inv l := by
  unfold Lane.plicLoad
  try dsimp only
  repeat' first | with_reducible assumption | (intro _ _ _) | (intro _ _) | with_reducible apply Lane.plicClaim_inv | with_reducible apply Lane.plicCheckAll_inv | with_reducible apply ite_inv | with_reducible apply Lane.unpowered_id_inv | with_reducible apply Lane.when_inv | with_reducible apply Lane.each_inv | with_reducible apply foldl_inv | with_reducible apply Lane.Inv.id | with_reducible apply Lane.Inv.regs | with_reducible apply Lane.Inv.sram | with_reducible apply Lane.Inv.store | with_reducible apply Tab.wf_filter | with_reducible apply Tab.wf_foldl | with_reducible apply Tab.wf_put | with_reducible apply Tab.wf_putList | with_reducible apply Tab.wf_graft | with_reducible apply Lane.unpowered_inv | split

theorem Lane.slotDigestPut_inv {l : LaneId} (i : Fin 2) (bs : List Byte) {L : Lane} (hL : L.Inv l) : (Lane.slotDigestPut i bs L).Inv l := by
  unfold Lane.slotDigestPut
  try dsimp only
  repeat' first | with_reducible assumption | (intro _ _ _) | (intro _ _) | with_reducible apply ite_inv | with_reducible apply Lane.unpowered_id_inv | with_reducible apply Lane.when_inv | with_reducible apply Lane.each_inv | with_reducible apply foldl_inv | with_reducible apply Lane.Inv.id | with_reducible apply Lane.Inv.regs | with_reducible apply Lane.Inv.sram | with_reducible apply Lane.Inv.store | with_reducible apply Tab.wf_filter | with_reducible apply Tab.wf_foldl | with_reducible apply Tab.wf_put | with_reducible apply Tab.wf_putList | with_reducible apply Tab.wf_graft | with_reducible apply Lane.unpowered_inv | split | (simp only [Lane.mk_inv]; refine ⟨?_, ?_, ?_, ?_⟩)

theorem Lane.slotDigestBytes_inv {l : LaneId} (i : Fin 2) {L : Lane} (hL : L.Inv l) : (Lane.slotDigestBytes i L).Inv l := by
  unfold Lane.slotDigestBytes
  try dsimp only
  repeat' first | with_reducible assumption | (intro _ _ _) | (intro _ _) | with_reducible apply Lane.slotDigestPut_inv | with_reducible apply Lane.run_inv | with_reducible apply Lane.drawn_inv | with_reducible apply ite_inv | with_reducible apply Lane.unpowered_id_inv | with_reducible apply Lane.when_inv | with_reducible apply Lane.each_inv | with_reducible apply foldl_inv | with_reducible apply Lane.Inv.id | with_reducible apply Lane.Inv.regs | with_reducible apply Lane.Inv.sram | with_reducible apply Lane.Inv.store | with_reducible apply Tab.wf_filter | with_reducible apply Tab.wf_foldl | with_reducible apply Tab.wf_put | with_reducible apply Tab.wf_putList | with_reducible apply Tab.wf_graft | with_reducible apply Lane.unpowered_inv | split

theorem Lane.slotLoad_inv {l : LaneId} (i : Fin 2) (o n : Nat) {L : Lane} (hL : L.Inv l) : (Lane.slotLoad i o n L).2.Inv l := by
  unfold Lane.slotLoad
  try dsimp only
  repeat' first | with_reducible assumption | (intro _ _ _) | (intro _ _) | with_reducible apply Lane.run_inv | with_reducible apply Lane.drawn_inv | with_reducible apply ite_inv | with_reducible apply Lane.unpowered_id_inv | with_reducible apply Lane.when_inv | with_reducible apply Lane.each_inv | with_reducible apply foldl_inv | with_reducible apply Lane.Inv.id | with_reducible apply Lane.Inv.regs | with_reducible apply Lane.Inv.sram | with_reducible apply Lane.Inv.store | with_reducible apply Tab.wf_filter | with_reducible apply Tab.wf_foldl | with_reducible apply Tab.wf_put | with_reducible apply Tab.wf_putList | with_reducible apply Tab.wf_graft | with_reducible apply Lane.unpowered_inv | split

theorem Lane.storeNow_inv {l : LaneId} (who : Option Core) (w : BufWrite) {L : Lane} (hL : L.Inv l) : (Lane.storeNow who w L).Inv l := by
  unfold Lane.storeNow
  try dsimp only
  repeat' first | with_reducible assumption | (intro _ _ _) | (intro _ _) | with_reducible apply Lane.slotDigestBytes_inv | with_reducible apply Lane.plicStore_inv | with_reducible apply Lane.timerStore_inv | with_reducible apply Lane.regWrite_inv | with_reducible apply Lane.storeWrite_inv | with_reducible apply Lane.sramWrite_inv | with_reducible apply ite_inv | with_reducible apply Lane.unpowered_id_inv | with_reducible apply Lane.when_inv | with_reducible apply Lane.each_inv | with_reducible apply foldl_inv | with_reducible apply Lane.Inv.id | with_reducible apply Lane.Inv.regs | with_reducible apply Lane.Inv.sram | with_reducible apply Lane.Inv.store | with_reducible apply Tab.wf_filter | with_reducible apply Tab.wf_foldl | with_reducible apply Tab.wf_put | with_reducible apply Tab.wf_putList | with_reducible apply Tab.wf_graft | with_reducible apply Lane.unpowered_inv | split

theorem Lane.loadNow_inv {l : LaneId} (who : Option Core) (a n : Nat) {L : Lane} (hL : L.Inv l) : (Lane.loadNow who a n L).2.Inv l := by
  unfold Lane.loadNow
  try dsimp only
  repeat' first | with_reducible assumption | (intro _ _ _) | (intro _ _) | with_reducible apply Lane.slotLoad_inv | with_reducible apply Lane.plicLoad_inv | with_reducible apply Lane.fcCheck_inv | with_reducible apply Lane.dataAccess_inv | with_reducible apply Lane.drawn_inv | with_reducible apply Lane.wr_inv | with_reducible apply ite_inv | with_reducible apply Lane.unpowered_id_inv | with_reducible apply Lane.when_inv | with_reducible apply Lane.each_inv | with_reducible apply foldl_inv | with_reducible apply Lane.Inv.id | with_reducible apply Lane.Inv.regs | with_reducible apply Lane.Inv.sram | with_reducible apply Lane.Inv.store | with_reducible apply Tab.wf_filter | with_reducible apply Tab.wf_foldl | with_reducible apply Tab.wf_put | with_reducible apply Tab.wf_putList | with_reducible apply Tab.wf_graft | with_reducible apply Lane.unpowered_inv | split

theorem Lane.enqueue_inv {l : LaneId} (d : Fin 8) (x : Access) {L : Lane} (hL : L.Inv l) : (Lane.enqueue d x L).Inv l := by
  unfold Lane.enqueue
  try dsimp only
  repeat' first | with_reducible assumption | (intro _ _ _) | (intro _ _) | with_reducible apply Lane.onDom_inv

theorem Lane.enqueueCommit_inv {l : LaneId} (x : Access) {L : Lane} (hL : L.Inv l) : (Lane.enqueueCommit x L).Inv l := by
  unfold Lane.enqueueCommit
  try dsimp only
  repeat' first | with_reducible assumption | (intro _ _ _) | (intro _ _) | with_reducible apply Lane.onRet_inv

theorem Lane.stall_inv {l : LaneId} (d : Fin 8) (x : Access) {L : Lane} (hL : L.Inv l) : (Lane.stall d x L).Inv l := by
  unfold Lane.stall
  try dsimp only
  repeat' first | with_reducible assumption | (intro _ _ _) | (intro _ _) | with_reducible apply Lane.enqueue_inv | with_reducible apply Lane.pdWake_inv | with_reducible apply Lane.count_inv | with_reducible apply ite_inv | with_reducible apply Lane.unpowered_id_inv | with_reducible apply Lane.when_inv

theorem Lane.takeLoad_inv {l : LaneId} (who : Option Core) (reserved : Bool) (v : Nat) {L : Lane} (hL : L.Inv l) : (Lane.takeLoad who reserved v L).Inv l := by
  unfold Lane.takeLoad
  try dsimp only
  repeat' first | with_reducible assumption | (intro _ _ _) | (intro _ _) | with_reducible apply Lane.onDbg_inv | with_reducible apply Lane.onPair_inv | with_reducible apply Lane.onCore_inv | with_reducible apply ite_inv | with_reducible apply Lane.unpowered_id_inv | with_reducible apply Lane.when_inv | with_reducible apply Lane.each_inv | with_reducible apply foldl_inv | with_reducible apply Lane.Inv.id | with_reducible apply Lane.Inv.regs | with_reducible apply Lane.Inv.sram | with_reducible apply Lane.Inv.store | with_reducible apply Tab.wf_filter | with_reducible apply Tab.wf_foldl | with_reducible apply Tab.wf_put | with_reducible apply Tab.wf_putList | with_reducible apply Tab.wf_graft | with_reducible apply Lane.unpowered_inv | split

theorem Lane.perform_inv {l : LaneId} (x : Access) {L : Lane} (hL : L.Inv l) : (Lane.perform x L).Inv l := by
  unfold Lane.perform
  try dsimp only
  repeat' first | with_reducible assumption | (intro _ _ _) | (intro _ _) | with_reducible apply Lane.takeLoad_inv | with_reducible apply Lane.stall_inv | with_reducible apply Lane.enqueueCommit_inv | with_reducible apply Lane.enqueue_inv | with_reducible apply Lane.loadNow_inv | with_reducible apply Lane.storeNow_inv | with_reducible apply ite_inv | with_reducible apply Lane.unpowered_id_inv | with_reducible apply Lane.when_inv | with_reducible apply Lane.each_inv | with_reducible apply foldl_inv | with_reducible apply Lane.Inv.id | with_reducible apply Lane.Inv.regs | with_reducible apply Lane.Inv.sram | with_reducible apply Lane.Inv.store | with_reducible apply Tab.wf_filter | with_reducible apply Tab.wf_foldl | with_reducible apply Tab.wf_put | with_reducible apply Tab.wf_putList | with_reducible apply Tab.wf_graft | with_reducible apply Lane.unpowered_inv | split

theorem Lane.unhold_inv {l : LaneId}  {L : Lane} (hL : L.Inv l) : (Lane.unhold  L).Inv l := by
  unfold Lane.unhold
  try dsimp only
  repeat' first | with_reducible assumption | (intro _ _ _) | (intro _ _) | with_reducible apply Lane.perform_inv | with_reducible apply Lane.onRet_inv | with_reducible apply ite_inv | with_reducible apply Lane.unpowered_id_inv | with_reducible apply Lane.when_inv | with_reducible apply Lane.each_inv | with_reducible apply foldl_inv | with_reducible apply Lane.Inv.id | with_reducible apply Lane.Inv.regs | with_reducible apply Lane.Inv.sram | with_reducible apply Lane.Inv.store | with_reducible apply Tab.wf_filter | with_reducible apply Tab.wf_foldl | with_reducible apply Tab.wf_put | with_reducible apply Tab.wf_putList | with_reducible apply Tab.wf_graft | with_reducible apply Lane.unpowered_inv | split

theorem Lane.busLoad_inv {l : LaneId} (who : Option Core) (reserved : Bool) (a n : Nat) {L : Lane} (hL : L.Inv l) : (Lane.busLoad who reserved a n L).Inv l := by
  unfold Lane.busLoad
  try dsimp only
  repeat' first | with_reducible assumption | (intro _ _ _) | (intro _ _) | with_reducible apply Lane.unhold_inv | with_reducible apply Lane.perform_inv

theorem Lane.busStore_inv {l : LaneId} (who : Option Core) (w : BufWrite) {L : Lane} (hL : L.Inv l) : (Lane.busStore who w L).Inv l := by
  unfold Lane.busStore
  try dsimp only
  repeat' first | with_reducible assumption | (intro _ _ _) | (intro _ _) | with_reducible apply Lane.unhold_inv | with_reducible apply Lane.perform_inv

theorem Lane.unstall_inv {l : LaneId} (d : Fin 8) (x : Access) {L : Lane} (hL : L.Inv l) : (Lane.unstall d x L).Inv l := by
  unfold Lane.unstall
  try dsimp only
  repeat' first | with_reducible assumption | (intro _ _ _) | (intro _ _) | with_reducible apply Lane.perform_inv | with_reducible apply Lane.wr_inv

theorem Lane.commitEnd_inv {l : LaneId} (ok : Bool) {L : Lane} (hL : L.Inv l) : (Lane.commitEnd ok L).Inv l := by
  unfold Lane.commitEnd
  try dsimp only
  repeat' first | with_reducible assumption | (intro _ _ _) | (intro _ _) | with_reducible apply Lane.unhold_inv | with_reducible apply Lane.commitDone_inv

theorem Lane.coresAwake_inv {l : LaneId} (fromOff : Bool) {L : Lane} (hL : L.Inv l) : (Lane.coresAwake fromOff L).Inv l := by
  unfold Lane.coresAwake
  try dsimp only
  repeat' first | with_reducible assumption | (intro _ _ _) | (intro _ _) | with_reducible apply Lane.release_inv | with_reducible apply Lane.run_inv | with_reducible apply Lane.onCore_inv | with_reducible apply ite_inv | with_reducible apply Lane.unpowered_id_inv | with_reducible apply Lane.when_inv | with_reducible apply Lane.each_inv

theorem Lane.wakeDone_inv {l : LaneId} (d : Fin 8) {L : Lane} (hL : L.Inv l) : (Lane.wakeDone d L).Inv l := by
  unfold Lane.wakeDone
  try dsimp only
  repeat' first | with_reducible assumption | (intro _ _ _) | (intro _ _) | with_reducible apply Lane.coresAwake_inv | with_reducible apply Lane.unstall_inv | with_reducible apply Lane.haltAsked_inv | with_reducible apply Lane.split_inv | with_reducible apply Lane.pdEnd_inv | with_reducible apply Lane.isoStart_inv | with_reducible apply Lane.onDom_inv | with_reducible apply Lane.wr_inv | with_reducible apply ite_inv | with_reducible apply Lane.unpowered_id_inv | with_reducible apply Lane.when_inv | with_reducible apply Lane.each_inv | with_reducible apply foldl_inv | with_reducible apply Lane.Inv.id | with_reducible apply Lane.Inv.regs | with_reducible apply Lane.Inv.sram | with_reducible apply Lane.Inv.store | with_reducible apply Tab.wf_filter | with_reducible apply Tab.wf_foldl | with_reducible apply Tab.wf_put | with_reducible apply Tab.wf_putList | with_reducible apply Tab.wf_graft | with_reducible apply Lane.unpowered_inv | split | (simp only [Lane.mk_inv]; refine ⟨?_, ?_, ?_, ?_⟩)

theorem Lane.accessFault_inv {l : LaneId} (c : Core) {L : Lane} (hL : L.Inv l) : (Lane.accessFault c L).Inv l := by
  unfold Lane.accessFault
  try dsimp only
  repeat' first | with_reducible assumption | (intro _ _ _) | (intro _ _) | with_reducible apply Lane.onCore_inv

theorem Lane.issueOut_inv {l : LaneId} (c : Core) (w : OutWrite) {L : Lane} (hL : L.Inv l) : (Lane.issueOut c w L).Inv l := by
  unfold Lane.issueOut
  try dsimp only
  repeat' first | with_reducible assumption | (intro _ _ _) | (intro _ _) | with_reducible apply Lane.busStore_inv | with_reducible apply Lane.sendRef_inv | with_reducible apply Lane.p0Only_inv | with_reducible apply ite_inv | with_reducible apply Lane.unpowered_id_inv | with_reducible apply Lane.when_inv | with_reducible apply Lane.each_inv | with_reducible apply foldl_inv | with_reducible apply Lane.Inv.id | with_reducible apply Lane.Inv.regs | with_reducible apply Lane.Inv.sram | with_reducible apply Lane.Inv.store | with_reducible apply Tab.wf_filter | with_reducible apply Tab.wf_foldl | with_reducible apply Tab.wf_put | with_reducible apply Tab.wf_putList | with_reducible apply Tab.wf_graft | with_reducible apply Lane.unpowered_inv | split

theorem Lane.compare_inv {l : LaneId} (p : Pair) {L : Lane} (hL : L.Inv l) : (Lane.compare p L).Inv l := by
  unfold Lane.compare
  try dsimp only
  repeat' first | with_reducible assumption | (intro _ _ _) | (intro _ _) | with_reducible apply Lane.issueOut_inv | with_reducible apply Lane.mismatched_inv | with_reducible apply Lane.sigReset_inv | with_reducible apply Lane.pop_inv | with_reducible apply Lane.onCore_inv | with_reducible apply Lane.count_inv | with_reducible apply Lane.wr_inv | with_reducible apply ite_inv | with_reducible apply Lane.unpowered_id_inv | with_reducible apply Lane.when_inv | with_reducible apply Lane.each_inv | with_reducible apply foldl_inv | with_reducible apply Lane.Inv.id | with_reducible apply Lane.Inv.regs | with_reducible apply Lane.Inv.sram | with_reducible apply Lane.Inv.store | with_reducible apply Tab.wf_filter | with_reducible apply Tab.wf_foldl | with_reducible apply Tab.wf_put | with_reducible apply Tab.wf_putList | with_reducible apply Tab.wf_graft | with_reducible apply Lane.unpowered_inv | split

theorem Lane.mark_inv {l : LaneId} (c : Core) (tag : Word) {L : Lane} (hL : L.Inv l) : (Lane.mark c tag L).Inv l := by
  unfold Lane.mark
  try dsimp only
  repeat' first | with_reducible assumption | (intro _ _ _) | (intro _ _) | with_reducible apply Lane.compare_inv | with_reducible apply Lane.plicCheckAll_inv | with_reducible apply Lane.takeIrq_inv | with_reducible apply Lane.poison_inv | with_reducible apply Lane.onCore_inv | with_reducible apply Lane.count_inv | with_reducible apply Lane.wr_inv

theorem Lane.checkpoint_inv {l : LaneId} (c : Core) (tag : Word) {L : Lane} (hL : L.Inv l) : (Lane.checkpoint c tag L).Inv l := by
  unfold Lane.checkpoint
  try dsimp only
  repeat' first | with_reducible assumption | (intro _ _ _) | (intro _ _) | with_reducible apply Lane.mark_inv | with_reducible apply Lane.onCore_inv | with_reducible apply ite_inv

theorem Lane.implicit_inv {l : LaneId} (c : Core) {L : Lane} (hL : L.Inv l) : (Lane.implicit c L).Inv l := by
  unfold Lane.implicit
  try dsimp only
  repeat' first | with_reducible assumption | (intro _ _ _) | (intro _ _) | with_reducible apply Lane.mark_inv | with_reducible apply Lane.count_inv | with_reducible apply ite_inv | with_reducible apply Lane.unpowered_id_inv | with_reducible apply Lane.when_inv

theorem Lane.buffer_inv {l : LaneId} (c : Core) (w : OutWrite) {L : Lane} (hL : L.Inv l) : (Lane.buffer c w L).Inv l := by
  unfold Lane.buffer
  try dsimp only
  repeat' first | with_reducible assumption | (intro _ _ _) | (intro _ _) | with_reducible apply Lane.implicit_inv | with_reducible apply Lane.sigTake_inv | with_reducible apply Lane.onCore_inv | with_reducible apply Lane.count_inv | with_reducible apply Lane.wr_inv | with_reducible apply ite_inv

theorem Lane.outWrite_inv {l : LaneId} (c : Core) (w : OutWrite) {L : Lane} (hL : L.Inv l) : (Lane.outWrite c w L).Inv l := by
  unfold Lane.outWrite
  try dsimp only
  repeat' first | with_reducible assumption | (intro _ _ _) | (intro _ _) | with_reducible apply Lane.buffer_inv | with_reducible apply Lane.issueOut_inv | with_reducible apply Lane.count_inv | with_reducible apply ite_inv

theorem Lane.coreStore_inv {l : LaneId} (c : Core) (w : BufWrite) {L : Lane} (hL : L.Inv l) : (Lane.coreStore c w L).Inv l := by
  unfold Lane.coreStore
  try dsimp only
  repeat' first | with_reducible assumption | (intro _ _ _) | (intro _ _) | with_reducible apply Lane.outWrite_inv | with_reducible apply Lane.checkpoint_inv | with_reducible apply Lane.accessFault_inv | with_reducible apply Lane.storeNow_inv | with_reducible apply ite_inv

theorem Lane.leadLoad_inv {l : LaneId} (c : Core) (reserved : Bool) (a n : Nat) {L : Lane} (hL : L.Inv l) : (Lane.leadLoad c reserved a n L).Inv l := by
  unfold Lane.leadLoad
  try dsimp only
  repeat' first | with_reducible assumption | (intro _ _ _) | (intro _ _) | with_reducible apply Lane.busLoad_inv | with_reducible apply Lane.takeLoad_inv | with_reducible apply Lane.drawn_inv | with_reducible apply ite_inv | with_reducible apply Lane.unpowered_id_inv | with_reducible apply Lane.when_inv | with_reducible apply Lane.each_inv | with_reducible apply foldl_inv | with_reducible apply Lane.Inv.id | with_reducible apply Lane.Inv.regs | with_reducible apply Lane.Inv.sram | with_reducible apply Lane.Inv.store | with_reducible apply Tab.wf_filter | with_reducible apply Tab.wf_foldl | with_reducible apply Tab.wf_put | with_reducible apply Tab.wf_putList | with_reducible apply Tab.wf_graft | with_reducible apply Lane.unpowered_inv | split

theorem Lane.countLoad_inv {l : LaneId} (c : Core) (a n : Nat) {L : Lane} (hL : L.Inv l) : (Lane.countLoad c a n L).Inv l := by
  unfold Lane.countLoad
  try dsimp only
  repeat' first | with_reducible assumption | (intro _ _ _) | (intro _ _) | with_reducible apply Lane.sigTake_inv | with_reducible apply Lane.onCore_inv

theorem Lane.inputLoad_inv {l : LaneId} (c : Core) (a n : Nat) {L : Lane} (hL : L.Inv l) : (Lane.inputLoad c a n L).Inv l := by
  unfold Lane.inputLoad
  try dsimp only
  repeat' first | with_reducible assumption | (intro _ _ _) | (intro _ _) | with_reducible apply Lane.countLoad_inv | with_reducible apply Lane.leadLoad_inv | with_reducible apply Lane.onPair_inv | with_reducible apply Lane.onCore_inv | with_reducible apply ite_inv | with_reducible apply Lane.unpowered_id_inv | with_reducible apply Lane.when_inv | with_reducible apply Lane.each_inv | with_reducible apply foldl_inv | with_reducible apply Lane.Inv.id | with_reducible apply Lane.Inv.regs | with_reducible apply Lane.Inv.sram | with_reducible apply Lane.Inv.store | with_reducible apply Tab.wf_filter | with_reducible apply Tab.wf_foldl | with_reducible apply Tab.wf_put | with_reducible apply Tab.wf_putList | with_reducible apply Tab.wf_graft | with_reducible apply Lane.unpowered_inv | split

theorem Lane.coreLoad_inv {l : LaneId} (c : Core) (a n : Nat) {L : Lane} (hL : L.Inv l) : (Lane.coreLoad c a n L).Inv l := by
  unfold Lane.coreLoad
  try dsimp only
  repeat' first | with_reducible assumption | (intro _ _ _) | (intro _ _) | with_reducible apply Lane.inputLoad_inv | with_reducible apply Lane.leadLoad_inv | with_reducible apply Lane.accessFault_inv | with_reducible apply Lane.loadNow_inv | with_reducible apply Lane.onCore_inv | with_reducible apply ite_inv

theorem Lane.coreRuns_inv {l : LaneId} (c : Core) {L : Lane} (hL : L.Inv l) : (Lane.coreRuns c L).Inv l := by
  unfold Lane.coreRuns
  try dsimp only
  repeat' first | with_reducible assumption | (intro _ _ _) | (intro _ _) | with_reducible apply Lane.accessFault_inv | with_reducible apply Lane.run_inv | with_reducible apply Lane.onCore_inv

end Sys2Proof.Machine
end

