-- ==== Sys2Proof/Laws/InvAccess.lean ====
section
/-! SUPPORT. The operations of Machine/Access.lean keep the invariant of a lane. -/

namespace Sys2Proof.Machine

theorem Lane.reach_inv {l : LaneId} (core : Core) (a : Nat) (stalls now : Lane → Lane) (hstalls : ∀ M : Lane, M.Inv l → (stalls M).Inv l) (hnow : ∀ M : Lane, M.Inv l → (now M).Inv l) {L : Lane} (hL : L.Inv l) : (Lane.reach core a stalls now L).Inv l := by
  unfold Lane.reach
  try dsimp only
  repeat' first | with_reducible assumption | (intro _ _ _) | (intro _ _) | with_reducible apply hstalls | with_reducible apply hnow | with_reducible apply Lane.coreRuns_inv | with_reducible apply ite_inv | with_reducible apply Lane.unpowered_id_inv | with_reducible apply Lane.when_inv

theorem Lane.reachWrite_inv {l : LaneId} (core : Core) (a : Nat) (v : Lane → Nat) (now : Lane → Lane) (hnow : ∀ M : Lane, M.Inv l → (now M).Inv l) {L : Lane} (hL : L.Inv l) : (Lane.reachWrite core a v now L).Inv l := by
  unfold Lane.reachWrite
  try dsimp only
  repeat' first | with_reducible assumption | (intro _ _ _) | (intro _ _) | with_reducible apply hnow | with_reducible apply Lane.reach_inv | with_reducible apply Lane.busStore_inv

end Sys2Proof.Machine
end

