-- ==== Sys2Proof/Laws/InvDebug.lean ====
section
/-! SUPPORT. The operations of Machine/Debug.lean keep the invariant of a lane. -/

namespace Sys2Proof.Machine

theorem Lane.hartUnavail_inv {l : LaneId} (c : Core) {L : Lane} (hL : L.Inv l) : (Lane.hartUnavail c L).Inv l := by
  unfold Lane.hartUnavail
  try dsimp only
  repeat' first | with_reducible assumption | (intro _ _ _) | (intro _ _) | with_reducible apply Lane.onDbg_inv

theorem Lane.seizePair_inv {l : LaneId} (p : Pair) {L : Lane} (hL : L.Inv l) : (Lane.seizePair p L).Inv l := by
  unfold Lane.seizePair
  try dsimp only
  repeat' first | with_reducible assumption | (intro _ _ _) | (intro _ _) | with_reducible apply Lane.haltAsked_inv | with_reducible apply Lane.split_inv | with_reducible apply Lane.sliceAbort_inv | with_reducible apply Lane.onPair_inv | with_reducible apply ite_inv | with_reducible apply Lane.unpowered_id_inv | with_reducible apply Lane.when_inv

theorem Lane.haltRequest_inv {l : LaneId} (c : Core) {L : Lane} (hL : L.Inv l) : (Lane.haltRequest c L).Inv l := by
  unfold Lane.haltRequest
  try dsimp only
  repeat' first | with_reducible assumption | (intro _ _ _) | (intro _ _) | with_reducible apply Lane.seizePair_inv | with_reducible apply Lane.hartUnavail_inv | with_reducible apply Lane.pdWake_inv | with_reducible apply Lane.onDbg_inv | with_reducible apply ite_inv

theorem Lane.resumeRequest_inv {l : LaneId} (c : Core) {L : Lane} (hL : L.Inv l) : (Lane.resumeRequest c L).Inv l := by
  unfold Lane.resumeRequest
  try dsimp only
  repeat' first | with_reducible assumption | (intro _ _ _) | (intro _ _) | with_reducible apply Lane.run_inv | with_reducible apply Lane.onDbg_inv | with_reducible apply Lane.onCore_inv | with_reducible apply ite_inv

theorem Lane.cmdFail_inv {l : LaneId} (e : Nat) {L : Lane} (hL : L.Inv l) : (Lane.cmdFail e L).Inv l := by
  unfold Lane.cmdFail
  try dsimp only
  repeat' first | with_reducible assumption | (intro _ _ _) | (intro _ _) | with_reducible apply Lane.onDbg_inv

theorem Lane.coreRegSet_inv {l : LaneId} (c : Core) (n v : Nat) {L : Lane} (hL : L.Inv l) : (Lane.coreRegSet c n v L).Inv l := by
  unfold Lane.coreRegSet
  try dsimp only
  repeat' first | with_reducible assumption | (intro _ _ _) | (intro _ _) | with_reducible apply Lane.onCore_inv | with_reducible apply ite_inv

theorem Lane.absPut_inv {l : LaneId} (wide : Bool) (v : Nat) {L : Lane} (hL : L.Inv l) : (Lane.absPut wide v L).Inv l := by
  unfold Lane.absPut
  try dsimp only
  repeat' first | with_reducible assumption | (intro _ _ _) | (intro _ _) | with_reducible apply Lane.onDbg_inv

theorem Lane.absRun_inv {l : LaneId} (c : Core) (cmd : Word) {L : Lane} (hL : L.Inv l) : (Lane.absRun c cmd L).Inv l := by
  unfold Lane.absRun
  try dsimp only
  repeat' first | with_reducible assumption | (intro _ _ _) | (intro _ _) | with_reducible apply Lane.absPut_inv | with_reducible apply Lane.coreRegSet_inv | with_reducible apply Lane.cmdFail_inv | with_reducible apply Lane.coreFree_inv | with_reducible apply Lane.drawn_inv | with_reducible apply ite_inv | with_reducible apply Lane.unpowered_id_inv | with_reducible apply Lane.when_inv | with_reducible apply Lane.each_inv | with_reducible apply foldl_inv | with_reducible apply Lane.Inv.id | with_reducible apply Lane.Inv.regs | with_reducible apply Lane.Inv.sram | with_reducible apply Lane.Inv.store | with_reducible apply Tab.wf_filter | with_reducible apply Tab.wf_foldl | with_reducible apply Tab.wf_put | with_reducible apply Tab.wf_putList | with_reducible apply Tab.wf_graft | with_reducible apply Lane.unpowered_inv | split

theorem Lane.abstractCommand_inv {l : LaneId} (c : Core) (cmd : Word) {L : Lane} (hL : L.Inv l) : (Lane.abstractCommand c cmd L).Inv l := by
  unfold Lane.abstractCommand
  try dsimp only
  repeat' first | with_reducible assumption | (intro _ _ _) | (intro _ _) | with_reducible apply Lane.absRun_inv | with_reducible apply Lane.cmdFail_inv | with_reducible apply Lane.seizePair_inv | with_reducible apply Lane.hartUnavail_inv | with_reducible apply Lane.run_inv | with_reducible apply Lane.pdWake_inv | with_reducible apply ite_inv

theorem Lane.busError_inv {l : LaneId} (e : Nat) {L : Lane} (hL : L.Inv l) : (Lane.busError e L).Inv l := by
  unfold Lane.busError
  try dsimp only
  repeat' first | with_reducible assumption | (intro _ _ _) | (intro _ _) | with_reducible apply Lane.onDbg_inv

theorem Lane.sysbus_inv {l : LaneId} (a n : Nat) (data : Option Nat) {L : Lane} (hL : L.Inv l) : (Lane.sysbus a n data L).Inv l := by
  unfold Lane.sysbus
  try dsimp only
  repeat' first | with_reducible assumption | (intro _ _ _) | (intro _ _) | with_reducible apply Lane.busError_inv | with_reducible apply Lane.busStore_inv | with_reducible apply Lane.busLoad_inv | with_reducible apply Lane.sliceAbort_inv | with_reducible apply Lane.onDbg_inv | with_reducible apply ite_inv | with_reducible apply Lane.unpowered_id_inv | with_reducible apply Lane.when_inv | with_reducible apply Lane.each_inv | with_reducible apply foldl_inv | with_reducible apply Lane.Inv.id | with_reducible apply Lane.Inv.regs | with_reducible apply Lane.Inv.sram | with_reducible apply Lane.Inv.store | with_reducible apply Tab.wf_filter | with_reducible apply Tab.wf_foldl | with_reducible apply Tab.wf_put | with_reducible apply Tab.wf_putList | with_reducible apply Tab.wf_graft | with_reducible apply Lane.unpowered_inv | split

theorem Lane.dmBus_inv {l : LaneId} (data : Option Nat) {L : Lane} (hL : L.Inv l) : (Lane.dmBus data L).Inv l := by
  unfold Lane.dmBus
  try dsimp only
  repeat' first | with_reducible assumption | (intro _ _ _) | (intro _ _) | with_reducible apply Lane.sysbus_inv | with_reducible apply Lane.onDbg_inv | with_reducible apply ite_inv

theorem Lane.dmiRead_inv {l : LaneId} (a : Nat) {L : Lane} (hL : L.Inv l) : (Lane.dmiRead a L).Inv l := by
  unfold Lane.dmiRead
  try dsimp only
  repeat' first | with_reducible assumption | (intro _ _ _) | (intro _ _) | with_reducible apply Lane.dmBus_inv | with_reducible apply Lane.authRead_inv | with_reducible apply Lane.run_inv | with_reducible apply Lane.send_inv | with_reducible apply ite_inv | with_reducible apply Lane.unpowered_id_inv | with_reducible apply Lane.when_inv

theorem Lane.authWrite_inv {l : LaneId} (w : Word) {L : Lane} (hL : L.Inv l) : (Lane.authWrite w L).Inv l := by
  unfold Lane.authWrite
  try dsimp only
  repeat' first | with_reducible assumption | (intro _ _ _) | (intro _ _) | with_reducible apply Lane.authWord_inv | with_reducible apply Lane.authChallenge_inv | with_reducible apply Lane.closeDebug_inv | with_reducible apply ite_inv

theorem Lane.dmControlWrite_inv {l : LaneId} (v : Nat) {L : Lane} (hL : L.Inv l) : (Lane.dmControlWrite v L).Inv l := by
  unfold Lane.dmControlWrite
  try dsimp only
  repeat' first | with_reducible assumption | (intro _ _ _) | (intro _ _) | with_reducible apply Lane.resumeRequest_inv | with_reducible apply Lane.haltRequest_inv | with_reducible apply Lane.onDbg_inv | with_reducible apply ite_inv | with_reducible apply Lane.unpowered_id_inv | with_reducible apply Lane.when_inv | with_reducible apply Lane.each_inv | with_reducible apply foldl_inv | with_reducible apply Lane.Inv.id | with_reducible apply Lane.Inv.regs | with_reducible apply Lane.Inv.sram | with_reducible apply Lane.Inv.store | with_reducible apply Tab.wf_filter | with_reducible apply Tab.wf_foldl | with_reducible apply Tab.wf_put | with_reducible apply Tab.wf_putList | with_reducible apply Tab.wf_graft | with_reducible apply Lane.unpowered_inv | split

theorem Lane.dmiWrite_inv {l : LaneId} (a : Nat) (w : Word) {L : Lane} (hL : L.Inv l) : (Lane.dmiWrite a w L).Inv l := by
  unfold Lane.dmiWrite
  try dsimp only
  repeat' first | with_reducible assumption | (intro _ _ _) | (intro _ _) | with_reducible apply Lane.dmControlWrite_inv | with_reducible apply Lane.authWrite_inv | with_reducible apply Lane.dmBus_inv | with_reducible apply Lane.abstractCommand_inv | with_reducible apply Lane.cmdFail_inv | with_reducible apply Lane.onDbg_inv | with_reducible apply ite_inv | with_reducible apply Lane.unpowered_id_inv | with_reducible apply Lane.when_inv | with_reducible apply Lane.each_inv | with_reducible apply foldl_inv | with_reducible apply Lane.Inv.id | with_reducible apply Lane.Inv.regs | with_reducible apply Lane.Inv.sram | with_reducible apply Lane.Inv.store | with_reducible apply Tab.wf_filter | with_reducible apply Tab.wf_foldl | with_reducible apply Tab.wf_put | with_reducible apply Tab.wf_putList | with_reducible apply Tab.wf_graft | with_reducible apply Lane.unpowered_inv | split

theorem Lane.irLoad_inv {l : LaneId} (code : Nat) {L : Lane} (hL : L.Inv l) : (Lane.irLoad code L).Inv l := by
  unfold Lane.irLoad
  try dsimp only
  repeat' first | with_reducible assumption | (intro _ _ _) | (intro _ _) | with_reducible apply Lane.onDbg_inv

theorem Lane.bypass_inv {l : LaneId}  {L : Lane} (hL : L.Inv l) : (Lane.bypass  L).Inv l := by
  unfold Lane.bypass
  try dsimp only
  repeat' first | with_reducible assumption | (intro _ _ _) | (intro _ _) | with_reducible apply Lane.send_inv

end Sys2Proof.Machine
end

