-- ==== Sys2Proof/Laws/InvTick.lean ====
section
/-! SUPPORT. The operations of Machine/Tick.lean keep the invariant of a lane. -/

namespace Sys2Proof.Machine

theorem Lane.tick_inv {l : LaneId}  {L : Lane} (hL : L.Inv l) : (Lane.tick  L).Inv l := by
  unfold Lane.tick
  try dsimp only
  repeat' first | with_reducible assumption | (intro _ _ _) | (intro _ _) | with_reducible apply Lane.unhold_inv | with_reducible apply Lane.plicCheckAll_inv | with_reducible apply Lane.timerCheck_inv | with_reducible apply Lane.gateFollowAll_inv | with_reducible apply Lane.pass_inv | with_reducible apply ite_inv | with_reducible apply Lane.unpowered_id_inv | with_reducible apply Lane.when_inv | with_reducible apply Lane.each_inv

end Sys2Proof.Machine
end

