-- ==== Sys2Proof/Laws/Reacts.lean ====
section
/-! SUPPORT. What a firing source may change of a lane (R343 to R349): `Lane.Reacts L M` says that M came from L by reactions;
the operations that reactions are built from. -/

namespace Sys2Proof.Machine

theorem Lane.Reacts.refl (L : Lane) : L.Reacts L :=
  { id := rfl, draws := rfl, store := rfl, start := rfl, nb := rfl, roles := rfl, motor := rfl, guardSt := rfl, fault := rfl
    slaz := fun _ => rfl, time := rfl, ptp := rfl, host := fun _ => rfl, auth := rfl, sec := rfl, dbg := rfl, update := rfl, shunt := rfl
    votePos := rfl, inp := rfl, count := rfl, hardware := rfl, withdraw := fun _ h => h, regs := fun _ _ _ => rfl
    sticky := fun _ _ h => h, svc := .inl rfl, gstate := .inl rfl }

theorem vget_vupd_true {n : Nat} (v : Vector Bool n) (i j : Fin n) (h : vget v j = true) :
    vget (vupd v i (fun _ => true)) j = true := by
  rw [vget_vupd]; split
  · rfl
  · exact h

/-- Setting a sticky bit keeps the others, and the bit is set. -/
theorem Lane.setSticky_sticky (L : Lane) (n m : Nat) : (L.setSticky n).sticky m = (decide (n = m) || L.sticky m) := by
  unfold Lane.setSticky Lane.sticky
  by_cases h : n / 32 = m / 32
  · rw [h, Lane.bitOf_wrBit]
    have h32 : m % 32 < (Reg.FC_STICKY_S (m / 32)).w := by show m % 32 < 32; omega
    rw [decide_eq_true h32, Bool.true_and]
    by_cases e : n = m
    · subst e; simp
    · have : n % 32 ≠ m % 32 := by omega
      simp [this, e]
  · have hk : (Reg.FC_STICKY_S (n / 32)).key ≠ (Reg.FC_STICKY_S (m / 32)).key := by
      simp only [Fld.key, Reg.FC_STICKY_S]; omega
    have e : n ≠ m := fun e => h (by rw [e])
    have hr : Lane.rd (L.wrBit (Reg.FC_STICKY_S (n / 32)) (n % 32) true) (Reg.FC_STICKY_S (m / 32)) =
        L.rd (Reg.FC_STICKY_S (m / 32)) := Tab.get_put_ne _ _ hk
    unfold Lane.bitOf
    rw [hr]; simp [e]

theorem Lane.setSticky_mono {L : Lane} (n m : Nat) (h : L.sticky m = true) : (L.setSticky n).sticky m = true := by
  rw [Lane.setSticky_sticky, h]; simp

/-- A field that no mode and no sticky bit stands in. -/
theorem Lane.wr_reacts {L₀ : Lane} (f : Fld) (v : Nat) {L : Lane} (h : L₀.Reacts L) (hk : ReactKey f.key) :
    L₀.Reacts (L.wr f v) := by
  have hn : ∀ n, n < 32 → f.key ≠ (Reg.FC_STICKY_S n).key := by
    intro n hlt hn
    rw [hn] at hk
    simp only [ReactKey, Reg.FC_STICKY_S, Fld.key] at hk
    omega
  have h1 : f.key ≠ Reg.SYS_STATE_STATE.key := by
    intro hn; rw [hn] at hk; simp [ReactKey, Reg.SYS_STATE_STATE, Fld.key] at hk
  have h2 : f.key ≠ Reg.LG_STATUS_GSTATE.key := by
    intro hn; rw [hn] at hk; simp [ReactKey, Reg.LG_STATUS_GSTATE, Fld.key] at hk
  refine { h with regs := fun k hk1 hk2 => ?_, sticky := fun n hlt hs => ?_, svc := ?_, gstate := ?_ }
  · have hne : f.key ≠ k := fun e => hk1 (e ▸ hk)
    rw [← h.regs k hk1 hk2]; exact Tab.get_put_ne (z := 0) L.regs _ hne
  · have := h.sticky n hlt hs
    have e : Lane.rd (L.wr f v) (Reg.FC_STICKY_S (n / 32)) = L.rd (Reg.FC_STICKY_S (n / 32)) :=
      Tab.get_put_ne _ _ (hn (n / 32) (by omega))
    simp only [Lane.sticky, Lane.bitOf] at this ⊢
    rw [e]; exact this
  · have e : Lane.svc (L.wr f v) = L.svc := Lane.rd_wr_ne L v h1
    rw [e]; exact h.svc
  · have e : Lane.gstate (L.wr f v) = L.gstate := Lane.rd_wr_ne L v h2
    rw [e]; exact h.gstate

theorem Lane.wrState_reacts {L₀ : Lane} {L : Lane} (h : L₀.Reacts L) : L₀.Reacts (L.wr Reg.SYS_STATE_STATE 6) := by
  refine { h with regs := fun k hk1 hk2 => ?_, sticky := fun n hlt hs => ?_, svc := .inr (Lane.rd_wr_same L _ _), gstate := ?_ }
  · have hne : Reg.SYS_STATE_STATE.key ≠ k := fun e => hk2 (.inr (.inl e.symm))
    rw [← h.regs k hk1 hk2]; exact Tab.get_put_ne (z := 0) L.regs (6 % 2 ^ Reg.SYS_STATE_STATE.w) hne
  · have := h.sticky n hlt hs
    have hne : Reg.SYS_STATE_STATE.key ≠ (Reg.FC_STICKY_S (n / 32)).key := by
      simp only [Fld.key, Reg.SYS_STATE_STATE, Reg.FC_STICKY_S]; omega
    have e : Lane.rd (L.wr Reg.SYS_STATE_STATE 6) (Reg.FC_STICKY_S (n / 32)) = L.rd (Reg.FC_STICKY_S (n / 32)) :=
      Lane.rd_wr_ne L _ hne
    simp only [Lane.sticky, Lane.bitOf] at this ⊢
    rw [e]; exact this
  · have e : Lane.gstate (L.wr Reg.SYS_STATE_STATE 6) = L.gstate := Lane.rd_wr_ne L 6 (by decide)
    rw [e]; exact h.gstate

theorem Lane.wrGstate_reacts {L₀ : Lane} {L : Lane} (h : L₀.Reacts L) : L₀.Reacts (L.wr Reg.LG_STATUS_GSTATE 3) := by
  refine { h with regs := fun k hk1 hk2 => ?_, sticky := fun n hlt hs => ?_, svc := ?_, gstate := .inr (Lane.rd_wr_same L _ _) }
  · have hne : Reg.LG_STATUS_GSTATE.key ≠ k := fun e => hk2 (.inr (.inr e.symm))
    rw [← h.regs k hk1 hk2]; exact Tab.get_put_ne (z := 0) L.regs (3 % 2 ^ Reg.LG_STATUS_GSTATE.w) hne
  · have := h.sticky n hlt hs
    have hne : Reg.LG_STATUS_GSTATE.key ≠ (Reg.FC_STICKY_S (n / 32)).key := by
      simp only [Fld.key, Reg.LG_STATUS_GSTATE, Reg.FC_STICKY_S]; omega
    have e : Lane.rd (L.wr Reg.LG_STATUS_GSTATE 3) (Reg.FC_STICKY_S (n / 32)) = L.rd (Reg.FC_STICKY_S (n / 32)) :=
      Lane.rd_wr_ne L _ hne
    simp only [Lane.sticky, Lane.bitOf] at this ⊢
    rw [e]; exact this
  · have e : Lane.svc (L.wr Reg.LG_STATUS_GSTATE 3) = L.svc := Lane.rd_wr_ne L 3 (by decide)
    rw [e]; exact h.svc

theorem Lane.stop_reacts {L₀ : Lane} (t : Timer) {L : Lane} (h : L₀.Reacts L) : L₀.Reacts (Lane.stop t L) :=
  { h with }

theorem Lane.restart_reacts {L₀ : Lane} (t : Timer) {L : Lane} (h : L₀.Reacts L) : L₀.Reacts (Lane.restart t L) :=
  { h with }

theorem Lane.setTimer_reacts {L₀ : Lane} (t : Timer) (v : Nat) {L : Lane} (h : L₀.Reacts L) : L₀.Reacts (Lane.setTimer t v L) :=
  { h with }

theorem Lane.irq_reacts {L₀ : Lane} (i : Irq) {L : Lane} (h : L₀.Reacts L) : L₀.Reacts (Lane.irq i L) := by
  unfold Lane.irq
  split
  · exact { h with }
  · split
    · exact h
    · exact { h with }

theorem Lane.send_reacts {L₀ : Lane} (o : Output) {L : Lane} (h : L₀.Reacts L) : L₀.Reacts (Lane.send o L) := by
  unfold Lane.send
  split <;> exact { h with }

/-- Of a host port, a reaction moves the lane frame counter only. -/
theorem Lane.onHost_reacts {L₀ : Lane} (p : Fin 4) (g : HostSt → HostSt) {L : Lane} (h : L₀.Reacts L)
    (hg : ∀ x, HostSt.unsent (g x) = HostSt.unsent x) : L₀.Reacts (Lane.onHost p g L) :=
  { h with
    host := fun q => by
      show HostSt.unsent (vget (vupd L.host p g) q) = _
      rw [vget_vupd]
      split
      · rw [hg, h.host q]
      · exact h.host q }

/-- Of a Slaz controller, a reaction moves what listening starts anew. -/
theorem Lane.onSlaz_reacts {L₀ : Lane} (c : Fin 2) (g : SlazSt → SlazSt) {L : Lane} (h : L₀.Reacts L)
    (hg : ∀ x, SlazSt.relisten (g x) = SlazSt.relisten x) : L₀.Reacts (Lane.onSlaz c g L) :=
  { h with
    slaz := fun d => by
      show SlazSt.relisten (vget (vupd L.slaz c g) d) = _
      rw [vget_vupd]
      split
      · rw [hg, h.slaz d]
      · exact h.slaz d }

theorem Lane.sramWrite_reacts {L₀ : Lane} (a : Nat) (bs : List Byte) {L : Lane} (h : L₀.Reacts L) : L₀.Reacts (Lane.sramWrite a bs L) :=
  { h with }

theorem Lane.wearLines_reacts {L₀ : Lane} (a n : Nat) {L : Lane} (h : L₀.Reacts L) : L₀.Reacts (Lane.wearLines a n L) :=
  { h with }

theorem Lane.onQueue_reacts {L₀ : Lane} (q : Fin 16) (g : QueueSt → QueueSt) {L : Lane} (h : L₀.Reacts L) : L₀.Reacts (Lane.onQueue q g L) :=
  { h with }

theorem Lane.onDom_reacts {L₀ : Lane} (d : Fin 8) (g : DomainSt → DomainSt) {L : Lane} (h : L₀.Reacts L) : L₀.Reacts (Lane.onDom d g L) :=
  { h with }

theorem Lane.onCore_reacts {L₀ : Lane} (c : Core) (g : CoreSt → CoreSt) {L : Lane} (h : L₀.Reacts L) : L₀.Reacts (Lane.onCore c g L) :=
  { h with }

theorem Lane.onDe_reacts {L₀ : Lane} (n : Engine) (g : EngineSt → EngineSt) {L : Lane} (h : L₀.Reacts L) : L₀.Reacts (Lane.onDe n g L) :=
  { h with }

theorem Lane.onSv_reacts {L₀ : Lane} (n : Fin 4) (g : SolenoidSt → SolenoidSt) {L : Lane} (h : L₀.Reacts L) : L₀.Reacts (Lane.onSv n g L) :=
  { h with }

theorem Lane.onGate_reacts {L₀ : Lane} (g : GateSt → GateSt) {L : Lane} (h : L₀.Reacts L) : L₀.Reacts (Lane.onGate g L) :=
  { h with }

theorem Lane.onRet_reacts {L₀ : Lane} (g : Retained → Retained) {L : Lane} (h : L₀.Reacts L) : L₀.Reacts (Lane.onRet g L) :=
  { h with }

theorem Lane.onIso_reacts {L₀ : Lane} (g : IsobusSt → IsobusSt) {L : Lane} (h : L₀.Reacts L) : L₀.Reacts (Lane.onIso g L) :=
  { h with }

theorem Lane.when_reacts {L₀ : Lane} {b : Bool} {f : Lane → Lane} {L : Lane} (hf : ∀ M : Lane, L₀.Reacts M → L₀.Reacts (f M))
    (h : L₀.Reacts L) : L₀.Reacts (L.when b f) := by
  unfold Lane.when
  split
  · exact hf _ h
  · exact h

theorem ite_reacts {L₀ : Lane} {c : Prop} [Decidable c] {L M : Lane} (h : L₀.Reacts L) (h' : L₀.Reacts M) :
    L₀.Reacts (if c then L else M) := by
  split
  · exact h
  · exact h'

theorem Lane.each_reacts {α : Type} {L₀ : Lane} {xs : List α} {f : α → Lane → Lane} {L : Lane}
    (hf : ∀ (x : α) (M : Lane), x ∈ xs → L₀.Reacts M → L₀.Reacts (f x M)) (h : L₀.Reacts L) : L₀.Reacts (L.each xs f) := by
  unfold Lane.each
  induction xs generalizing L with
  | nil => exact h
  | cons x xs ih => exact ih (fun y M hy => hf y M (.tail _ hy)) (hf _ _ (.head _) h)

theorem Lane.set1_reacts {L₀ : Lane} (f : Fld) {L : Lane} (h : L₀.Reacts L) (hk : ReactKey f.key) : L₀.Reacts (L.set1 f) :=
  Lane.wr_reacts f 1 h hk

theorem Lane.clr_reacts {L₀ : Lane} (f : Fld) {L : Lane} (h : L₀.Reacts L) (hk : ReactKey f.key) : L₀.Reacts (L.clr f) :=
  Lane.wr_reacts f 0 h hk

theorem Lane.count_reacts {L₀ : Lane} (f : Fld) (n : Nat) {L : Lane} (h : L₀.Reacts L) (hk : ReactKey f.key) :
    L₀.Reacts (L.count f n) := Lane.wr_reacts f _ h hk

theorem Lane.countMod_reacts {L₀ : Lane} (f : Fld) (n : Nat) {L : Lane} (h : L₀.Reacts L) (hk : ReactKey f.key) :
    L₀.Reacts (L.countMod f n) := Lane.wr_reacts f _ h hk

theorem Lane.wrBit_reacts {L₀ : Lane} (f : Fld) (i : Nat) (b : Bool) {L : Lane} (h : L₀.Reacts L) (hk : ReactKey f.key) :
    L₀.Reacts (L.wrBit f i b) := Lane.wr_reacts f _ h hk

theorem Lane.start1_reacts {L₀ : Lane} (t : Timer) {L : Lane} (h : L₀.Reacts L) : L₀.Reacts (L.start1 t) := by
  unfold Lane.start1
  split
  · exact h
  · exact Lane.restart_reacts t h

theorem Lane.withdraw_reacts {L₀ : Lane} (f : Func) {L : Lane} (h : L₀.Reacts L) : L₀.Reacts (L.withdraw f) :=
  { h with
    withdraw := fun i hi => by
      have := h.withdraw i hi
      simp only [Lane.withdraw, Lane.onVote]
      exact vget_vupd_true _ _ _ this }

theorem Lane.setSticky_reacts {L₀ : Lane} (n : Nat) {L : Lane} (h : L₀.Reacts L) (hn : n < 1024) : L₀.Reacts (L.setSticky n) :=
  { h with
    regs := fun k h1 h2 => by
      have hne : (Reg.FC_STICKY_S (n / 32)).key ≠ k := fun e => by
        rw [← e] at h2
        simp only [ModeKey, Reg.FC_STICKY_S, Fld.key] at h2
        omega
      rw [← h.regs k h1 h2]; exact Tab.get_put_ne (z := 0) L.regs _ hne
    sticky := fun m hlt hm => by
      have := h.sticky m hlt hm
      exact Lane.setSticky_mono n m this
    svc := by
      have e : Lane.svc (L.setSticky n) = L.svc :=
        Lane.rd_wr_ne L _ (by simp only [Fld.key, Reg.SYS_STATE_STATE, Reg.FC_STICKY_S]; omega)
      rw [e]; exact h.svc
    gstate := by
      have e : Lane.gstate (L.setSticky n) = L.gstate :=
        Lane.rd_wr_ne L _ (by simp only [Fld.key, Reg.LG_STATUS_GSTATE, Reg.FC_STICKY_S]; omega)
      rw [e]; exact h.gstate }

theorem Lane.gateFollow_reacts {L₀ : Lane} (b : Fin 18) {L : Lane} (hL : L₀.Reacts L) : L₀.Reacts (Lane.gateFollow b L) := by
  unfold Lane.gateFollow
  try dsimp only
  repeat' first | with_reducible assumption | (intro _ _ _ _ _) | (intro _ _ _ _) | (intro _ _) | with_reducible apply Lane.onGate_reacts | with_reducible apply Lane.wrState_reacts | with_reducible apply Lane.wrGstate_reacts | with_reducible apply Lane.wr_reacts | with_reducible apply ite_reacts

theorem Lane.gateFollowAll_reacts {L₀ : Lane}  {L : Lane} (hL : L₀.Reacts L) : L₀.Reacts (Lane.gateFollowAll  L) := by
  unfold Lane.gateFollowAll
  try dsimp only
  repeat' first | with_reducible assumption | (intro _ _ _ _ _) | (intro _ _ _ _) | (intro _ _) | with_reducible apply Lane.gateFollow_reacts | with_reducible apply Lane.wrState_reacts | with_reducible apply Lane.wrGstate_reacts | with_reducible apply Lane.wr_reacts | with_reducible apply ite_reacts | with_reducible apply Lane.when_reacts | with_reducible apply Lane.each_reacts

theorem Lane.tpRequest_reacts {L₀ : Lane}  {L : Lane} (hL : L₀.Reacts L) : L₀.Reacts (Lane.tpRequest  L) := by
  unfold Lane.tpRequest
  try dsimp only
  repeat' first | with_reducible assumption | (intro _ _ _ _ _) | (intro _ _ _ _) | (intro _ _) | with_reducible apply Lane.send_reacts | with_reducible apply Lane.wrState_reacts | with_reducible apply Lane.wrGstate_reacts | with_reducible apply Lane.wr_reacts | with_reducible apply ite_reacts | with_reducible apply Lane.when_reacts | with_reducible apply Lane.each_reacts | split

theorem Lane.tpSend_reacts {L₀ : Lane} (dst : Nat) (bytes : List Byte) {L : Lane} (hL : L₀.Reacts L) : L₀.Reacts (Lane.tpSend dst bytes L) := by
  unfold Lane.tpSend
  try dsimp only
  repeat' first | with_reducible assumption | (intro _ _ _ _ _) | (intro _ _ _ _) | (intro _ _) | with_reducible apply Lane.tpRequest_reacts | with_reducible apply Lane.onIso_reacts | with_reducible apply Lane.wrState_reacts | with_reducible apply Lane.wrGstate_reacts | with_reducible apply Lane.wr_reacts | with_reducible apply ite_reacts | with_reducible apply Lane.when_reacts

theorem Lane.sendFrame_reacts {L₀ : Lane} (h : Fin 4) (d : Descr) {L : Lane} (hL : L₀.Reacts L) : L₀.Reacts (Lane.sendFrame h d L) := by
  unfold Lane.sendFrame
  try dsimp only
  repeat' first | with_reducible assumption | (intro _ _ _ _ _) | (intro _ _ _ _) | (intro _ _) | (intro _; rfl) | with_reducible apply Lane.onHost_reacts | with_reducible apply Lane.send_reacts

theorem Lane.pushTail_reacts {L₀ : Lane} (q : Fin 16) {L : Lane} (hL : L₀.Reacts L) : L₀.Reacts (Lane.pushTail q L) := by
  unfold Lane.pushTail
  try dsimp only
  repeat' first | with_reducible assumption | (intro _ _ _ _ _) | (intro _ _ _ _) | (intro _ _) | with_reducible apply Lane.sendFrame_reacts | with_reducible apply Lane.tpSend_reacts | with_reducible apply Lane.onQueue_reacts | with_reducible apply Lane.sramWrite_reacts | with_reducible apply Lane.countMod_reacts | with_reducible apply Lane.set1_reacts | with_reducible apply Lane.wrState_reacts | with_reducible apply Lane.wrGstate_reacts | with_reducible apply Lane.wr_reacts | with_reducible apply ite_reacts | with_reducible apply Lane.when_reacts | with_reducible apply Lane.each_reacts | split
  all_goals (first | (simp [ReactKey, Fld.key, Reg.HQ_PTR_HEAD, Reg.HQ_PTR_TAIL, Reg.HQ_STAT_FULL, Reg.HQ_STAT_USED]; done) |  (simp only [List.mem_range] at *; simp only [ReactKey, Fld.key, Reg.HQ_PTR_HEAD, Reg.HQ_PTR_TAIL, Reg.HQ_STAT_FULL, Reg.HQ_STAT_USED] <;> omega) | (simp only [ReactKey, Fld.key, Reg.HQ_PTR_HEAD, Reg.HQ_PTR_TAIL, Reg.HQ_STAT_FULL, Reg.HQ_STAT_USED] <;> omega) | omega)

theorem Lane.pushDescr_reacts {L₀ : Lane} (q : Fin 16) (d : Descr) {L : Lane} (hL : L₀.Reacts L) : L₀.Reacts (Lane.pushDescr q d L) := by
  unfold Lane.pushDescr
  try dsimp only
  repeat' first | with_reducible assumption | (intro _ _ _ _ _) | (intro _ _ _ _) | (intro _ _) | with_reducible apply Lane.pushTail_reacts | with_reducible apply Lane.sramWrite_reacts | with_reducible apply Lane.wrState_reacts | with_reducible apply Lane.wrGstate_reacts | with_reducible apply Lane.wr_reacts | with_reducible apply ite_reacts

theorem Lane.notice_reacts {L₀ : Lane} (h : Fin 4) (op : Nat) (args : List Byte) {L : Lane} (hL : L₀.Reacts L) : L₀.Reacts (Lane.notice h op args L) := by
  unfold Lane.notice
  try dsimp only
  repeat' first | with_reducible assumption | (intro _ _ _ _ _) | (intro _ _ _ _) | (intro _ _) | with_reducible apply Lane.pushDescr_reacts | with_reducible apply Lane.wrState_reacts | with_reducible apply Lane.wrGstate_reacts | with_reducible apply Lane.wr_reacts | with_reducible apply ite_reacts | with_reducible apply Lane.when_reacts | with_reducible apply Lane.each_reacts | split

theorem Lane.faultNotice_reacts {L₀ : Lane} (n : Nat) {L : Lane} (hL : L₀.Reacts L) : L₀.Reacts (Lane.faultNotice n L) := by
  unfold Lane.faultNotice
  try dsimp only
  repeat' first | with_reducible assumption | (intro _ _ _ _ _) | (intro _ _ _ _) | (intro _ _) | with_reducible apply Lane.notice_reacts | with_reducible apply Lane.wrState_reacts | with_reducible apply Lane.wrGstate_reacts | with_reducible apply Lane.wr_reacts | with_reducible apply ite_reacts | with_reducible apply Lane.when_reacts | with_reducible apply Lane.each_reacts

theorem Lane.sliceAbort_reacts {L₀ : Lane}  {L : Lane} (hL : L₀.Reacts L) : L₀.Reacts (Lane.sliceAbort  L) := by
  unfold Lane.sliceAbort
  try dsimp only
  repeat' first | with_reducible assumption | (intro _ _ _ _ _) | (intro _ _ _ _) | (intro _ _) | with_reducible apply Lane.onCore_reacts | with_reducible apply Lane.onDe_reacts | with_reducible apply Lane.count_reacts | with_reducible apply Lane.clr_reacts | with_reducible apply Lane.wrState_reacts | with_reducible apply Lane.wrGstate_reacts | with_reducible apply Lane.wr_reacts | with_reducible apply ite_reacts | with_reducible apply Lane.when_reacts | with_reducible apply Lane.each_reacts | split
  all_goals (first | (simp [ReactKey, Fld.key, Reg.BT_SLICE_STAT_ABORTS, Reg.BT_SLICE_STAT_CURRENT, Reg.BT_SLICE_STAT_RUNNING]; done) |  (simp only [List.mem_range] at *; simp only [ReactKey, Fld.key, Reg.BT_SLICE_STAT_ABORTS, Reg.BT_SLICE_STAT_CURRENT, Reg.BT_SLICE_STAT_RUNNING] <;> omega) | (simp only [ReactKey, Fld.key, Reg.BT_SLICE_STAT_ABORTS, Reg.BT_SLICE_STAT_CURRENT, Reg.BT_SLICE_STAT_RUNNING] <;> omega) | omega)

theorem Lane.pdCount_reacts {L₀ : Lane} (d : Fin 8) (who how : Nat) {L : Lane} (hL : L₀.Reacts L) : L₀.Reacts (Lane.pdCount d who how L) := by
  unfold Lane.pdCount
  try dsimp only
  repeat' first | with_reducible assumption | (intro _ _ _ _ _) | (intro _ _ _ _) | (intro _ _) | with_reducible apply Lane.count_reacts | with_reducible apply Lane.wrState_reacts | with_reducible apply Lane.wrGstate_reacts | with_reducible apply Lane.wr_reacts | with_reducible apply ite_reacts | with_reducible apply Lane.when_reacts | with_reducible apply Lane.each_reacts | split
  all_goals (first | (simp [ReactKey, Fld.key, Reg.PD_ACCT_COUNT, Reg.PD_ACCT_HOW, Reg.PD_ACCT_WHO]; done) |  (simp only [List.mem_range] at *; simp only [ReactKey, Fld.key, Reg.PD_ACCT_COUNT, Reg.PD_ACCT_HOW, Reg.PD_ACCT_WHO] <;> omega) | (simp only [ReactKey, Fld.key, Reg.PD_ACCT_COUNT, Reg.PD_ACCT_HOW, Reg.PD_ACCT_WHO] <;> omega) | omega)

theorem Lane.pdClear_reacts {L₀ : Lane}  {L : Lane} (hL : L₀.Reacts L) : L₀.Reacts (Lane.pdClear  L) := by
  unfold Lane.pdClear
  try dsimp only
  repeat' first | with_reducible assumption | (intro _ _ _ _ _) | (intro _ _ _ _) | (intro _ _) | with_reducible apply Lane.clr_reacts | with_reducible apply Lane.wrState_reacts | with_reducible apply Lane.wrGstate_reacts | with_reducible apply Lane.wr_reacts | with_reducible apply ite_reacts | with_reducible apply Lane.when_reacts | with_reducible apply Lane.each_reacts | split
  all_goals (first | (simp [ReactKey, Fld.key, Reg.PD_ACCT_COUNT, Reg.PD_ACCT_HOW, Reg.PD_ACCT_WHO]; done) |  (simp only [List.mem_range] at *; simp only [ReactKey, Fld.key, Reg.PD_ACCT_COUNT, Reg.PD_ACCT_HOW, Reg.PD_ACCT_WHO] <;> omega) | (simp only [ReactKey, Fld.key, Reg.PD_ACCT_COUNT, Reg.PD_ACCT_HOW, Reg.PD_ACCT_WHO] <;> omega) | omega)

theorem Lane.pdWake_reacts {L₀ : Lane} (d : Fin 8) (who : Nat) {L : Lane} (hL : L₀.Reacts L) : L₀.Reacts (Lane.pdWake d who L) := by
  unfold Lane.pdWake
  try dsimp only
  repeat' first | with_reducible assumption | (intro _ _ _ _ _) | (intro _ _ _ _) | (intro _ _) | with_reducible apply Lane.pdCount_reacts | with_reducible apply Lane.onDom_reacts | with_reducible apply Lane.wrState_reacts | with_reducible apply Lane.wrGstate_reacts | with_reducible apply Lane.wr_reacts | with_reducible apply ite_reacts | with_reducible apply Lane.when_reacts | with_reducible apply Lane.each_reacts | split
  all_goals (first | (simp [ReactKey, Fld.key, Reg.PD_ACCT_MODE, Lane.pdFld]; done) |  (simp only [List.mem_range] at *; simp only [ReactKey, Fld.key, Reg.PD_ACCT_MODE, Lane.pdFld] <;> omega) | (simp only [ReactKey, Fld.key, Reg.PD_ACCT_MODE, Lane.pdFld] <;> omega) | omega)

theorem Lane.chopApply_reacts {L₀ : Lane}  {L : Lane} (hL : L₀.Reacts L) : L₀.Reacts (Lane.chopApply  L) := by
  unfold Lane.chopApply
  try dsimp only
  repeat' first | with_reducible assumption | (intro _ _ _ _ _) | (intro _ _ _ _) | (intro _ _) | with_reducible apply Lane.wrState_reacts | with_reducible apply Lane.wrGstate_reacts | with_reducible apply Lane.wr_reacts | with_reducible apply ite_reacts | with_reducible apply Lane.when_reacts | with_reducible apply Lane.each_reacts | split
  all_goals (first | (simp [ReactKey, Fld.key, Reg.GD_CHOP_EN, Reg.GD_STAT_CHOP]; done) |  (simp only [List.mem_range] at *; simp only [ReactKey, Fld.key, Reg.GD_CHOP_EN, Reg.GD_STAT_CHOP] <;> omega) | (simp only [ReactKey, Fld.key, Reg.GD_CHOP_EN, Reg.GD_STAT_CHOP] <;> omega) | omega)

theorem Lane.setSvc_reacts {L₀ : Lane} {L : Lane} (hL : L₀.Reacts L) : L₀.Reacts (Lane.setSvc 6 L) := by
  unfold Lane.setSvc
  dsimp only
  repeat' first | with_reducible assumption | (intro _ _ _ _) | (intro _ _) | with_reducible apply Lane.pdWake_reacts | with_reducible apply Lane.pdClear_reacts | with_reducible apply Lane.sliceAbort_reacts | with_reducible apply Lane.wrState_reacts | with_reducible apply Lane.wr_reacts | with_reducible apply Lane.chopApply_reacts | with_reducible apply Lane.when_reacts | with_reducible apply Lane.each_reacts
  simp only [List.mem_range] at *
  simp only [ReactKey, Fld.key, Reg.PD_ACCT_MODE]
  omega

theorem Lane.commitStart_reacts {L₀ : Lane} (auto : Bool) {L : Lane} (hL : L₀.Reacts L) : L₀.Reacts (Lane.commitStart auto L) := by
  unfold Lane.commitStart
  try dsimp only
  repeat' first | with_reducible assumption | (intro _ _ _ _ _) | (intro _ _ _ _) | (intro _ _) | with_reducible apply Lane.pdWake_reacts | with_reducible apply Lane.onRet_reacts | with_reducible apply Lane.wearLines_reacts | with_reducible apply Lane.set1_reacts | with_reducible apply Lane.wrState_reacts | with_reducible apply Lane.wrGstate_reacts | with_reducible apply Lane.wr_reacts | with_reducible apply ite_reacts | with_reducible apply Lane.when_reacts | with_reducible apply Lane.each_reacts | split
  all_goals (first | (simp [ReactKey, Fld.key, Reg.SYS_RET_STATUS_BUSY]; done) |  (simp only [List.mem_range] at *; simp only [ReactKey, Fld.key, Reg.SYS_RET_STATUS_BUSY] <;> omega) | (simp only [ReactKey, Fld.key, Reg.SYS_RET_STATUS_BUSY] <;> omega) | omega)

theorem Lane.autoCommit_reacts {L₀ : Lane}  {L : Lane} (hL : L₀.Reacts L) : L₀.Reacts (Lane.autoCommit  L) := by
  unfold Lane.autoCommit
  try dsimp only
  repeat' first | with_reducible assumption | (intro _ _ _ _ _) | (intro _ _ _ _) | (intro _ _) | with_reducible apply Lane.commitStart_reacts | with_reducible apply Lane.onRet_reacts | with_reducible apply Lane.wrState_reacts | with_reducible apply Lane.wrGstate_reacts | with_reducible apply Lane.wr_reacts | with_reducible apply ite_reacts

theorem Lane.withdrawServed_reacts {L₀ : Lane} (f : Func) {L : Lane} (hL : L₀.Reacts L) : L₀.Reacts (Lane.withdrawServed f L) := by
  unfold Lane.withdrawServed
  try dsimp only
  repeat' first | with_reducible assumption | (intro _ _ _ _ _) | (intro _ _ _ _) | (intro _ _) | with_reducible apply Lane.withdraw_reacts | with_reducible apply Lane.wrState_reacts | with_reducible apply Lane.wrGstate_reacts | with_reducible apply Lane.wr_reacts | with_reducible apply ite_reacts | with_reducible apply Lane.when_reacts

theorem Lane.withdrawAll_reacts {L₀ : Lane}  {L : Lane} (hL : L₀.Reacts L) : L₀.Reacts (Lane.withdrawAll  L) := by
  unfold Lane.withdrawAll
  try dsimp only
  repeat' first | with_reducible assumption | (intro _ _ _ _ _) | (intro _ _ _ _) | (intro _ _) | with_reducible apply Lane.withdraw_reacts | with_reducible apply Lane.wrState_reacts | with_reducible apply Lane.wrGstate_reacts | with_reducible apply Lane.wr_reacts | with_reducible apply ite_reacts | with_reducible apply Lane.when_reacts | with_reducible apply Lane.each_reacts

theorem Lane.withdrawPorts_reacts {L₀ : Lane}  {L : Lane} (hL : L₀.Reacts L) : L₀.Reacts (Lane.withdrawPorts  L) := by
  unfold Lane.withdrawPorts
  try dsimp only
  repeat' first | with_reducible assumption | (intro _ _ _ _ _) | (intro _ _ _ _) | (intro _ _) | with_reducible apply Lane.withdraw_reacts | with_reducible apply Lane.wrState_reacts | with_reducible apply Lane.wrGstate_reacts | with_reducible apply Lane.wr_reacts | with_reducible apply ite_reacts | with_reducible apply Lane.when_reacts | with_reducible apply Lane.each_reacts

theorem Lane.svApply_reacts {L₀ : Lane} (n : Fin 4) {L : Lane} (hL : L₀.Reacts L) : L₀.Reacts (Lane.svApply n L) := by
  unfold Lane.svApply
  try dsimp only
  repeat' first | with_reducible assumption | (intro _ _ _ _ _) | (intro _ _ _ _) | (intro _ _) | with_reducible apply Lane.onSv_reacts

theorem Lane.parkWatch_reacts {L₀ : Lane}  {L : Lane} (hL : L₀.Reacts L) : L₀.Reacts (Lane.parkWatch  L) := by
  unfold Lane.parkWatch
  try dsimp only
  repeat' first | with_reducible assumption | (intro _ _ _ _ _) | (intro _ _ _ _) | (intro _ _) | with_reducible apply Lane.stop_reacts | with_reducible apply Lane.clr_reacts | with_reducible apply Lane.wrState_reacts | with_reducible apply Lane.wrGstate_reacts | with_reducible apply Lane.wr_reacts | with_reducible apply ite_reacts | with_reducible apply Lane.when_reacts | with_reducible apply Lane.each_reacts | split
  all_goals (first | (simp [ReactKey, Fld.key, Reg.LG_PARK_RUN]; done) |  (simp only [List.mem_range] at *; simp only [ReactKey, Fld.key, Reg.LG_PARK_RUN] <;> omega) | (simp only [ReactKey, Fld.key, Reg.LG_PARK_RUN] <;> omega) | omega)

theorem Lane.svApplyAll_reacts {L₀ : Lane}  {L : Lane} (hL : L₀.Reacts L) : L₀.Reacts (Lane.svApplyAll  L) := by
  unfold Lane.svApplyAll
  try dsimp only
  repeat' first | with_reducible assumption | (intro _ _ _ _ _) | (intro _ _ _ _) | (intro _ _) | with_reducible apply Lane.parkWatch_reacts | with_reducible apply Lane.svApply_reacts | with_reducible apply Lane.wrState_reacts | with_reducible apply Lane.wrGstate_reacts | with_reducible apply Lane.wr_reacts | with_reducible apply ite_reacts | with_reducible apply Lane.when_reacts | with_reducible apply Lane.each_reacts

theorem Lane.svForce_reacts {L₀ : Lane} (n : Fin 4) {L : Lane} (hL : L₀.Reacts L) : L₀.Reacts (Lane.svForce n L) := by
  unfold Lane.svForce
  try dsimp only
  repeat' first | with_reducible assumption | (intro _ _ _ _ _) | (intro _ _ _ _) | (intro _ _) | with_reducible apply Lane.forced_reacts | with_reducible apply Lane.parkWatch_reacts | with_reducible apply Lane.svApply_reacts | with_reducible apply Lane.onSv_reacts | with_reducible apply Lane.set1_reacts | with_reducible apply Lane.wrState_reacts | with_reducible apply Lane.wrGstate_reacts | with_reducible apply Lane.wr_reacts | with_reducible apply ite_reacts | with_reducible apply Lane.when_reacts | with_reducible apply Lane.each_reacts | split
  all_goals (first | (simp [ReactKey, Fld.key, Reg.GD_SV_FORCED]; done) |  (simp only [List.mem_range] at *; simp only [ReactKey, Fld.key, Reg.GD_SV_FORCED] <;> omega) | (simp only [ReactKey, Fld.key, Reg.GD_SV_FORCED] <;> omega) | omega)

theorem Lane.stage1_reacts {L₀ : Lane} (b : Fin 18) {L : Lane} (hL : L₀.Reacts L) : L₀.Reacts (Lane.stage1 b L) := by
  unfold Lane.stage1
  try dsimp only
  repeat' first | with_reducible assumption | (intro _ _ _ _ _) | (intro _ _ _ _) | (intro _ _) | with_reducible apply Lane.onGate_reacts

theorem Lane.holdOff_reacts {L₀ : Lane} (b : Fin 18) {L : Lane} (hL : L₀.Reacts L) : L₀.Reacts (Lane.holdOff b L) := by
  unfold Lane.holdOff
  try dsimp only
  repeat' first | with_reducible assumption | (intro _ _ _ _ _) | (intro _ _ _ _) | (intro _ _) | with_reducible apply Lane.onGate_reacts

theorem Lane.ungrant_reacts {L₀ : Lane} (p : Port) {L : Lane} (hL : L₀.Reacts L) : L₀.Reacts (Lane.ungrant p L) := by
  unfold Lane.ungrant
  try dsimp only
  repeat' first | with_reducible assumption | (intro _ _ _ _ _) | (intro _ _ _ _) | (intro _ _) | with_reducible apply Lane.withdraw_reacts | with_reducible apply Lane.onGate_reacts | with_reducible apply Lane.wrBit_reacts | with_reducible apply Lane.wrState_reacts | with_reducible apply Lane.wrGstate_reacts | with_reducible apply Lane.wr_reacts | with_reducible apply ite_reacts | with_reducible apply Lane.when_reacts | with_reducible apply Lane.each_reacts | split
  all_goals (first | (simp [ReactKey, Fld.key, Reg.GD_STAT_BSTARM, Reg.GD_STAT_EN, Reg.LG_PORT_GRANT]; done) |  (simp only [List.mem_range] at *; simp only [ReactKey, Fld.key, Reg.GD_STAT_BSTARM, Reg.GD_STAT_EN, Reg.LG_PORT_GRANT] <;> omega) | (simp only [ReactKey, Fld.key, Reg.GD_STAT_BSTARM, Reg.GD_STAT_EN, Reg.LG_PORT_GRANT] <;> omega) | omega)

theorem Lane.portOffSwitches_reacts {L₀ : Lane} (p : Port) {L : Lane} (hL : L₀.Reacts L) : L₀.Reacts (Lane.portOffSwitches p L) := by
  unfold Lane.portOffSwitches
  try dsimp only
  repeat' first | with_reducible assumption | (intro _ _ _ _ _) | (intro _ _ _ _) | (intro _ _) | with_reducible apply Lane.ungrant_reacts | with_reducible apply Lane.stage1_reacts | with_reducible apply Lane.gateFollowAll_reacts | with_reducible apply Lane.onGate_reacts | with_reducible apply Lane.restart_reacts | with_reducible apply Lane.wrState_reacts | with_reducible apply Lane.wrGstate_reacts | with_reducible apply Lane.wr_reacts | with_reducible apply ite_reacts | with_reducible apply Lane.when_reacts | with_reducible apply Lane.each_reacts

theorem Lane.portTurnOff_reacts {L₀ : Lane} (p : Port) {L : Lane} (hL : L₀.Reacts L) : L₀.Reacts (Lane.portTurnOff p L) := by
  unfold Lane.portTurnOff
  try dsimp only
  repeat' first | with_reducible assumption | (intro _ _ _ _ _) | (intro _ _ _ _) | (intro _ _) | with_reducible apply Lane.portOffSwitches_reacts | with_reducible apply Lane.withdraw_reacts | with_reducible apply Lane.restart_reacts | with_reducible apply Lane.wrState_reacts | with_reducible apply Lane.wrGstate_reacts | with_reducible apply Lane.wr_reacts | with_reducible apply ite_reacts | with_reducible apply Lane.when_reacts | with_reducible apply Lane.each_reacts

theorem Lane.laneTurnOff_reacts {L₀ : Lane}  {L : Lane} (hL : L₀.Reacts L) : L₀.Reacts (Lane.laneTurnOff  L) := by
  unfold Lane.laneTurnOff
  try dsimp only
  repeat' first | with_reducible assumption | (intro _ _ _ _ _) | (intro _ _ _ _) | (intro _ _) | with_reducible apply Lane.portOffSwitches_reacts | with_reducible apply Lane.withdrawPorts_reacts | with_reducible apply Lane.restart_reacts | with_reducible apply Lane.set1_reacts | with_reducible apply Lane.wrState_reacts | with_reducible apply Lane.wrGstate_reacts | with_reducible apply Lane.wr_reacts | with_reducible apply ite_reacts | with_reducible apply Lane.when_reacts | with_reducible apply Lane.each_reacts | split
  all_goals (first | (simp [ReactKey, Fld.key, Reg.GD_STAT_PROT]; done) |  (simp only [List.mem_range] at *; simp only [ReactKey, Fld.key, Reg.GD_STAT_PROT] <;> omega) | (simp only [ReactKey, Fld.key, Reg.GD_STAT_PROT] <;> omega) | omega)

theorem Lane.ascEnter_reacts {L₀ : Lane} (fireBlk : Nat → Lane → Lane) (p : Port) (hf : ∀ (x : Nat) (M : Lane), 228 ≤ x → x < 231 → L₀.Reacts M → L₀.Reacts (fireBlk x M)) {L : Lane} (hL : L₀.Reacts L) : L₀.Reacts (Lane.ascEnter fireBlk p L) := by
  unfold Lane.ascEnter
  try dsimp only
  repeat' first | with_reducible assumption | (intro _ _ _ _ _) | (intro _ _ _ _) | (intro _ _) | with_reducible apply hf | with_reducible apply Lane.ungrant_reacts | with_reducible apply Lane.holdOff_reacts | with_reducible apply Lane.stage1_reacts | with_reducible apply Lane.gateFollowAll_reacts | with_reducible apply Lane.onGate_reacts | with_reducible apply Lane.restart_reacts | with_reducible apply Lane.wrBit_reacts | with_reducible apply Lane.set1_reacts | with_reducible apply Lane.wrState_reacts | with_reducible apply Lane.wrGstate_reacts | with_reducible apply Lane.wr_reacts | with_reducible apply ite_reacts | with_reducible apply Lane.when_reacts | with_reducible apply Lane.each_reacts | split
  all_goals (first | (simp [ReactKey, Fld.key, Reg.GD_STAT_ASC, Reg.GD_TRIP_1_ASCBLK, Reg.GD_TRIP_1_ASCIN]; done) |  (simp only [List.mem_range] at *; simp only [ReactKey, Fld.key, Reg.GD_STAT_ASC, Reg.GD_TRIP_1_ASCBLK, Reg.GD_TRIP_1_ASCIN] <;> omega) | (simp only [ReactKey, Fld.key, Reg.GD_STAT_ASC, Reg.GD_TRIP_1_ASCBLK, Reg.GD_TRIP_1_ASCIN] <;> omega) | omega)

theorem Lane.winterState_reacts {L₀ : Lane}  {L : Lane} (hL : L₀.Reacts L) : L₀.Reacts (Lane.winterState  L) := by
  unfold Lane.winterState
  try dsimp only
  repeat' first | with_reducible assumption | (intro _ _ _ _ _) | (intro _ _ _ _) | (intro _ _) | with_reducible apply Lane.withdrawAll_reacts | with_reducible apply Lane.autoCommit_reacts | with_reducible apply Lane.setSvc_reacts | with_reducible apply Lane.wrState_reacts | with_reducible apply Lane.wrGstate_reacts | with_reducible apply Lane.wr_reacts | with_reducible apply ite_reacts | with_reducible apply Lane.when_reacts | with_reducible apply Lane.each_reacts | split
  all_goals (first | (simp [ReactKey, Fld.key, Reg.SYS_ARM_STEP]; done) |  (simp only [List.mem_range] at *; simp only [ReactKey, Fld.key, Reg.SYS_ARM_STEP] <;> omega) | (simp only [ReactKey, Fld.key, Reg.SYS_ARM_STEP] <;> omega) | omega)

theorem Lane.forceOutputs_reacts {L₀ : Lane} (fireBlk : Nat → Lane → Lane) (hf : ∀ (x : Nat) (M : Lane), 228 ≤ x → x < 231 → L₀.Reacts M → L₀.Reacts (fireBlk x M)) {L : Lane} (hL : L₀.Reacts L) : L₀.Reacts (Lane.forceOutputs fireBlk L) := by
  unfold Lane.forceOutputs
  try dsimp only
  repeat' first | with_reducible assumption | (intro _ _ _ _ _) | (intro _ _ _ _) | (intro _ _) | with_reducible apply hf | with_reducible apply Lane.ascEnter_reacts | with_reducible apply Lane.portOffSwitches_reacts | with_reducible apply Lane.svForce_reacts | with_reducible apply Lane.svApplyAll_reacts | with_reducible apply Lane.restart_reacts | with_reducible apply Lane.wrState_reacts | with_reducible apply Lane.wrGstate_reacts | with_reducible apply Lane.wr_reacts | with_reducible apply ite_reacts | with_reducible apply Lane.when_reacts | with_reducible apply Lane.each_reacts

theorem Lane.szListen_reacts {L₀ : Lane} (c : Fin 2) {L : Lane} (hL : L₀.Reacts L) : L₀.Reacts (Lane.szListen c L) := by
  unfold Lane.szListen
  try dsimp only
  repeat' first | with_reducible assumption | (intro _ _ _ _ _) | (intro _ _ _ _) | (intro _ _) | (intro _; rfl) | with_reducible apply Lane.onSlaz_reacts | with_reducible apply Lane.restart_reacts | with_reducible apply Lane.wrState_reacts | with_reducible apply Lane.wrGstate_reacts | with_reducible apply Lane.wr_reacts | with_reducible apply ite_reacts | with_reducible apply Lane.when_reacts | with_reducible apply Lane.each_reacts | split
  all_goals (first | (simp [ReactKey, Fld.key, Reg.SZ_STAT_STATE]; done) |  (simp only [List.mem_range] at *; simp only [ReactKey, Fld.key, Reg.SZ_STAT_STATE] <;> omega) | (simp only [ReactKey, Fld.key, Reg.SZ_STAT_STATE] <;> omega) | omega)

theorem Lane.slazStop_reacts {L₀ : Lane}  {L : Lane} (hL : L₀.Reacts L) : L₀.Reacts (Lane.slazStop  L) := by
  unfold Lane.slazStop
  try dsimp only
  repeat' first | with_reducible assumption | (intro _ _ _ _ _) | (intro _ _ _ _) | (intro _ _) | with_reducible apply Lane.szListen_reacts | with_reducible apply Lane.wrState_reacts | with_reducible apply Lane.wrGstate_reacts | with_reducible apply Lane.wr_reacts | with_reducible apply ite_reacts | with_reducible apply Lane.when_reacts | with_reducible apply Lane.each_reacts | split
  all_goals (first | (simp [ReactKey, Fld.key, Reg.SZ_CTRL_EN_X, Reg.SZ_CTRL_EN_Y, Reg.SZ_STAT_STATE]; done) |  (simp only [List.mem_range] at *; simp only [ReactKey, Fld.key, Reg.SZ_CTRL_EN_X, Reg.SZ_CTRL_EN_Y, Reg.SZ_STAT_STATE] <;> omega) | (simp only [ReactKey, Fld.key, Reg.SZ_CTRL_EN_X, Reg.SZ_CTRL_EN_Y, Reg.SZ_STAT_STATE] <;> omega) | omega)

theorem Lane.force_reacts {L₀ : Lane} (fireBlk : Nat → Lane → Lane) (cause : Nat) (hf : ∀ (x : Nat) (M : Lane), 228 ≤ x → x < 231 → L₀.Reacts M → L₀.Reacts (fireBlk x M)) {L : Lane} (hL : L₀.Reacts L) : L₀.Reacts (Lane.force fireBlk cause L) := by
  unfold Lane.force
  try dsimp only
  repeat' first | with_reducible assumption | (intro _ _ _ _ _) | (intro _ _ _ _) | (intro _ _) | with_reducible apply hf | with_reducible apply Lane.slazStop_reacts | with_reducible apply Lane.forceOutputs_reacts | with_reducible apply Lane.winterState_reacts | with_reducible apply Lane.withdrawAll_reacts | with_reducible apply Lane.clr_reacts | with_reducible apply Lane.wrState_reacts | with_reducible apply Lane.wrGstate_reacts | with_reducible apply Lane.wr_reacts | with_reducible apply ite_reacts | with_reducible apply Lane.when_reacts | with_reducible apply Lane.each_reacts | split
  all_goals (first | (simp [ReactKey, Fld.key, Reg.LG_CHAL_PEND, Reg.LG_STATUS_FCAUSE, Reg.LG_STATUS_GSTATE]; done) |  (simp only [List.mem_range] at *; simp only [ReactKey, Fld.key, Reg.LG_CHAL_PEND, Reg.LG_STATUS_FCAUSE, Reg.LG_STATUS_GSTATE] <;> omega) | (simp only [ReactKey, Fld.key, Reg.LG_CHAL_PEND, Reg.LG_STATUS_FCAUSE, Reg.LG_STATUS_GSTATE] <;> omega) | omega)

theorem Lane.reactLight_reacts {L₀ : Lane} (n : Nat) {L : Lane} (hL : L₀.Reacts L) : L₀.Reacts (Lane.reactLight n L) := by
  unfold Lane.reactLight
  try dsimp only
  repeat' first | with_reducible assumption | (intro _ _ _ _ _) | (intro _ _ _ _) | (intro _ _) | with_reducible apply Lane.withdrawServed_reacts | with_reducible apply Lane.faultNotice_reacts | with_reducible apply Lane.irq_reacts | with_reducible apply Lane.wrState_reacts | with_reducible apply Lane.wrGstate_reacts | with_reducible apply Lane.wr_reacts | with_reducible apply ite_reacts | with_reducible apply Lane.when_reacts | with_reducible apply Lane.each_reacts

theorem Lane.fireLight_reacts {L₀ : Lane} (n : Nat) {L : Lane} (hL : L₀.Reacts L) (hn : n < 1024) : L₀.Reacts (Lane.fireLight n L) := by
  unfold Lane.fireLight
  split
  · exact hL
  · exact Lane.reactLight_reacts _ (Lane.setSticky_reacts _ hL hn)

theorem Lane.reactWinter_reacts {L₀ : Lane}  {L : Lane} (hL : L₀.Reacts L) : L₀.Reacts (Lane.reactWinter  L) := by
  unfold Lane.reactWinter
  try dsimp only
  repeat' first | with_reducible assumption | (intro _ _ _ _ _) | (intro _ _ _ _) | (intro _ _) | with_reducible apply Lane.fireLight_reacts | with_reducible apply Lane.force_reacts | with_reducible apply Lane.wrState_reacts | with_reducible apply Lane.wrGstate_reacts | with_reducible apply Lane.wr_reacts | with_reducible apply ite_reacts | with_reducible apply Lane.when_reacts | with_reducible apply Lane.each_reacts | with_reducible apply Lane.fireLight_reacts | with_reducible apply Lane.fire_reacts | split
  all_goals omega

theorem Lane.react_reacts {L₀ : Lane} (n : Nat) {L : Lane} (hL : L₀.Reacts L) : L₀.Reacts (Lane.react n L) := by
  unfold Lane.react
  try dsimp only
  repeat' first | with_reducible assumption | (intro _ _ _ _ _) | (intro _ _ _ _) | (intro _ _) | with_reducible apply Lane.reactWinter_reacts | with_reducible apply Lane.reactLight_reacts | with_reducible apply Lane.wrState_reacts | with_reducible apply Lane.wrGstate_reacts | with_reducible apply Lane.wr_reacts | with_reducible apply ite_reacts | with_reducible apply Lane.when_reacts

/-- The reserved positions of R359 take up everything from 512 on. -/
theorem fixedClass_lt {n : Nat} (h : fixedClass n ≠ 0) : n < 512 := by
  by_contra hc
  apply h
  unfold fixedClass
  rw [if_neg (by simp; omega), if_neg (by simp; omega), if_neg (by simp; omega)]

theorem Lane.fire_reacts {L₀ : Lane} (n : Nat) {L : Lane} (hL : L₀.Reacts L) : L₀.Reacts (Lane.fire n L) := by
  unfold Lane.fire
  split
  · exact hL
  · next h =>
    split
    · exact hL
    · exact Lane.react_reacts _ (Lane.setSticky_reacts _ hL (by have := fixedClass_lt h; omega))

/-- A source that fires has its bit set from then on (R343, R345). -/
theorem Lane.fire_sticky (L : Lane) (n : Nat) (h : fixedClass n ≠ 0) : (L.fire n).sticky n = true := by
  unfold Lane.fire
  rw [if_neg h]
  split
  · next hs => exact hs
  · exact (Lane.react_reacts n (Lane.Reacts.refl (L.setSticky n))).sticky n (by have := fixedClass_lt h; omega) (by rw [Lane.setSticky_sticky]; simp)

theorem Lane.asc_reacts {L₀ : Lane} (p : Port) {L : Lane} (hL : L₀.Reacts L) : L₀.Reacts (Lane.asc p L) := by
  unfold Lane.asc
  try dsimp only
  repeat' first | with_reducible assumption | (intro _ _ _ _ _) | (intro _ _ _ _) | (intro _ _) | with_reducible apply Lane.fire_reacts | with_reducible apply Lane.ascEnter_reacts

theorem Lane.forced_reacts {L₀ : Lane} (cause : Nat) {L : Lane} (hL : L₀.Reacts L) : L₀.Reacts (Lane.forced cause L) := by
  unfold Lane.forced
  try dsimp only
  repeat' first | with_reducible assumption | (intro _ _ _ _ _) | (intro _ _ _ _) | (intro _ _) | with_reducible apply Lane.fire_reacts | with_reducible apply Lane.force_reacts

theorem Lane.enterWinter_reacts {L₀ : Lane}  {L : Lane} (hL : L₀.Reacts L) : L₀.Reacts (Lane.enterWinter  L) := by
  unfold Lane.enterWinter
  try dsimp only
  repeat' first | with_reducible assumption | (intro _ _ _ _ _) | (intro _ _ _ _) | (intro _ _) | with_reducible apply Lane.forced_reacts

end Sys2Proof.Machine
end

