-- ==== Sys2Proof/Laws/Modes.lean ====
section
/-! SUPPORT. Service states: what entering one leaves (R54, R462, R467, R544). -/

namespace Sys2Proof.Machine

/-- Operations in order leave what each of them leaves. -/
theorem Lane.each_proj {α β : Type} (xs : List α) (f : α → Lane → Lane) (p : Lane → β)
    (h : ∀ x ∈ xs, ∀ M : Lane, p (f x M) = p M) (L : Lane) : p (L.each xs f) = p L := by
  unfold Lane.each
  induction xs generalizing L with
  | nil => rfl
  | cons x xs ih => rw [List.foldl_cons, ih (fun y hy => h y (.tail _ hy)), h x (.head _)]

theorem Lane.when_proj {β : Type} (b : Bool) (f : Lane → Lane) (p : Lane → β) (h : ∀ M : Lane, p (f M) = p M) (L : Lane) :
    p (L.when b f) = p L := by
  unfold Lane.when
  split
  · exact h L
  · rfl

/-- Fields that a service state's entry may write beside STATE: the PD block, BT_SLICE_STAT and GD_STAT.CHOP. -/
def SvcKey (k : Nat) : Prop :=
  (0x20040000 ≤ k / 64 ∧ k / 64 < 0x20040060) ∨ k / 64 = 0x200D0044 ∨ k = Reg.GD_STAT_CHOP.key

theorem Lane.chopApply_rd (L : Lane) (g : Fld) (h : ¬SvcKey g.key) : L.chopApply.rd g = L.rd g :=
  Lane.rd_wr_ne _ _ (fun e => h (by rw [← e]; exact .inr (.inr rfl)))

theorem Lane.sliceAbort_rd (L : Lane) (g : Fld) (h : ¬SvcKey g.key) : L.sliceAbort.rd g = L.rd g := by
  have h1 : Reg.BT_SLICE_STAT_RUNNING.key ≠ g.key := fun e => h (by rw [← e]; unfold SvcKey; decide)
  have h2 : Reg.BT_SLICE_STAT_ABORTS.key ≠ g.key := fun e => h (by rw [← e]; unfold SvcKey; decide)
  have e : ((L.clr Reg.BT_SLICE_STAT_RUNNING).count Reg.BT_SLICE_STAT_ABORTS 1).rd g = L.rd g := by
    unfold Lane.count Lane.clr
    rw [Lane.rd_wr_ne _ _ h2, Lane.rd_wr_ne _ _ h1]
  unfold Lane.sliceAbort
  split
  · dsimp only
    split <;> simpa using e
  · rfl

theorem Lane.pdCount_rd (L : Lane) (d : Fin 8) (who how : Nat) (g : Fld) (h : ¬SvcKey g.key) : (L.pdCount d who how).rd g = L.rd g := by
  have h1 : (Reg.PD_ACCT_COUNT d.val).key ≠ g.key := fun e => h (by rw [← e]; simp only [SvcKey, Fld.key, Reg.PD_ACCT_COUNT]; omega)
  have h2 : (Reg.PD_ACCT_WHO d.val).key ≠ g.key := fun e => h (by rw [← e]; simp only [SvcKey, Fld.key, Reg.PD_ACCT_WHO]; omega)
  have h3 : (Reg.PD_ACCT_HOW d.val).key ≠ g.key := fun e => h (by rw [← e]; simp only [SvcKey, Fld.key, Reg.PD_ACCT_HOW]; omega)
  unfold Lane.pdCount Lane.count
  rw [Lane.rd_wr_ne _ _ h3, Lane.rd_wr_ne _ _ h2, Lane.rd_wr_ne _ _ h1]

theorem Lane.pdWake_rd (L : Lane) (d : Fin 8) (who : Nat) (g : Fld) (h : ¬SvcKey g.key) : (L.pdWake d who).rd g = L.rd g := by
  have h1 : (Lane.pdFld d).key ≠ g.key := fun e => h (by rw [← e]; simp only [SvcKey, Fld.key, Lane.pdFld]; omega)
  unfold Lane.pdWake
  dsimp only
  split
  · simp
  · split
    · rw [Lane.when_proj _ _ (fun M => M.rd g) (fun M => Lane.pdCount_rd M d _ _ g h)]
      simp only [Lane.onDom_fields]
      exact Lane.rd_wr_ne _ _ h1
    · rfl

theorem Lane.pdClear_rd (L : Lane) (g : Fld) (h : ¬SvcKey g.key) : L.pdClear.rd g = L.rd g := by
  unfold Lane.pdClear
  refine Lane.each_proj _ _ (fun M => M.rd g) (fun x hx M => ?_) L
  simp only [List.mem_range] at hx
  have h1 : (Reg.PD_ACCT_COUNT x).key ≠ g.key := fun e => h (by rw [← e]; simp only [SvcKey, Fld.key, Reg.PD_ACCT_COUNT]; omega)
  have h2 : (Reg.PD_ACCT_WHO x).key ≠ g.key := fun e => h (by rw [← e]; simp only [SvcKey, Fld.key, Reg.PD_ACCT_WHO]; omega)
  have h3 : (Reg.PD_ACCT_HOW x).key ≠ g.key := fun e => h (by rw [← e]; simp only [SvcKey, Fld.key, Reg.PD_ACCT_HOW]; omega)
  unfold Lane.clr
  rw [Lane.rd_wr_ne _ _ h3, Lane.rd_wr_ne _ _ h2, Lane.rd_wr_ne _ _ h1]

/-- Any other field after the entry of a service state. -/
theorem Lane.setSvc_rd (L : Lane) (v : Nat) (g : Fld) (h : ¬SvcKey g.key) (hg : g.key ≠ Reg.SYS_STATE_STATE.key) :
    (L.setSvc v).rd g = L.rd g := by
  unfold Lane.setSvc
  dsimp only
  rw [Lane.chopApply_rd _ _ h, Lane.when_proj _ _ (fun M => M.rd g) (fun M => Lane.each_proj _ _ (fun M => M.rd g)
    (fun d _ M => Lane.pdWake_rd M d 19 g h) M)]
  rw [Lane.when_proj _ _ (fun M => M.rd g)]
  · rw [Lane.rd_wr_ne _ _ (fun e => hg e.symm)]
    exact Lane.when_proj _ _ (fun M => M.rd g) (fun M => Lane.sliceAbort_rd M g h) L
  · intro M
    rw [Lane.each_proj _ _ (fun M => M.rd g)]
    · exact Lane.pdClear_rd M g h
    · intro x hx M
      simp only [List.mem_range] at hx
      exact Lane.rd_wr_ne _ _ (fun e => h (by rw [← e]; simp only [SvcKey, Fld.key, Reg.PD_ACCT_MODE]; omega))

/-- The service state after the entry of one. -/
theorem Lane.setSvc_svc (L : Lane) (v : Nat) (hv : v < 16) : (L.setSvc v).svc = v := by
  have h : ¬SvcKey Reg.SYS_STATE_STATE.key := by unfold SvcKey; decide
  unfold Lane.setSvc Lane.svc
  dsimp only
  rw [Lane.chopApply_rd _ _ h, Lane.when_proj _ _ (fun M => M.rd Reg.SYS_STATE_STATE) (fun M => Lane.each_proj _ _ (fun M => M.rd Reg.SYS_STATE_STATE)
    (fun d _ M => Lane.pdWake_rd M d 19 _ h) M)]
  rw [Lane.when_proj _ _ (fun M => M.rd Reg.SYS_STATE_STATE)]
  · rw [Lane.rd_wr_same]; exact Nat.mod_eq_of_lt hv
  · intro M
    rw [Lane.each_proj _ _ (fun M => M.rd Reg.SYS_STATE_STATE)]
    · exact Lane.pdClear_rd M _ h
    · intro x hx M
      simp only [List.mem_range] at hx
      exact Lane.rd_wr_ne _ _ (by simp only [Fld.key, Reg.PD_ACCT_MODE, Reg.SYS_STATE_STATE]; omega)

/-- The start-up state after the entry of a service state. -/
theorem Lane.setSvc_start (L : Lane) (v : Nat) : (L.setSvc v).start = L.start := by
  have hw : ∀ (d : Fin 8) (M : Lane), (M.pdWake d 19).start = M.start := by
    intro d M
    unfold Lane.pdWake
    dsimp only
    split
    · rfl
    · split
      · exact (Lane.when_proj _ (Lane.pdCount d 19 _) (fun M => M.start) (fun M => by simp [Lane.pdCount, Lane.count]) _).trans (by simp)
      · rfl
  have hs : ∀ M : Lane, M.sliceAbort.start = M.start := by
    intro M
    unfold Lane.sliceAbort
    split
    · dsimp only; split <;> rfl
    · rfl
  have hc : ∀ M : Lane, M.chopApply.start = M.start := fun M => by simp [Lane.chopApply]
  unfold Lane.setSvc
  dsimp only
  rw [hc, Lane.when_proj _ _ (fun M => M.start) (fun M => Lane.each_proj _ _ (fun M => M.start) (fun d _ M => hw d M) M),
    Lane.when_proj _ _ (fun M => M.start)]
  · exact Lane.when_proj _ _ (fun M => M.start) hs L
  · intro M
    refine (Lane.each_proj (List.range 8) _ (fun M => M.start) (fun _ _ _ => by simp) M.pdClear).trans ?_
    exact Lane.each_proj (List.range 8) _ (fun M => M.start) (fun _ _ _ => by simp [Lane.clr]) M

end Sys2Proof.Machine
end

