-- ==== Sys2Proof/Laws/Queues.lean ====
section
/-! SUPPORT. What a descriptor put at TAIL and an answer do (R432, R434, R436). -/

namespace Sys2Proof.Machine

/-- A descriptor read back from its 64 bytes is the one that was laid out, its fields cut to their widths and its arguments filled with
zeros (R432). -/
theorem descrOf_descrBytes (d : Descr) : descrOf (descrBytes d) =
    ⟨d.op % 256, d.flags % 256, d.tag % 65536, d.index % 2 ^ 32, d.status % 65536, (d.args ++ List.replicate 48 0).take 48⟩ := by
  have h : ((d.args ++ List.replicate 48 (0 : Byte)).take 48).length = 48 := by simp
  simp only [descrOf, descrBytes, leBytes, List.cons_append, List.nil_append, List.take_succ_cons, List.take_zero, List.drop_succ_cons,
    List.drop_zero, ofLe, BitVec.toNat_ofNat, Descr.mk.injEq]
  refine ⟨by omega, by omega, by omega, by omega, by omega, ?_⟩
  rw [List.take_append_of_le_length (by omega), List.take_of_length_le (by omega)]

theorem descrBytes_length (d : Descr) : (descrBytes d).length = 64 := by
  simp [descrBytes, leBytes]

theorem Lane.sramBytes_write (L : Lane) (a : Nat) (bs : List Byte) (n : Nat) (h : bs.length = n) :
    (L.sramWrite a bs).sramBytes a n = bs := by
  subst h
  apply List.ext_getElem
  · simp [Lane.sramBytes]
  · intro i h1 h2
    simp only [Lane.sramBytes, Lane.sramByte, Lane.sramWrite, List.getElem_map, List.getElem_range]
    exact Tab.get_putList_in _ _ _ _ h2

theorem Lane.sramByte_write_out (L : Lane) (a : Nat) (bs : List Byte) (i : Nat) (h : i < a ∨ a + bs.length ≤ i) :
    (L.sramWrite a bs).sramByte i = L.sramByte i := Tab.get_putList_out _ _ _ _ h

/-- The registers of a queue are three fields apart (R448). -/
theorem queue_keys (q : Fin 16) :
    (Reg.HQ_STAT_USED q.val).key ≠ (Reg.HQ_PTR_TAIL q.val).key ∧ (Reg.HQ_PTR_HEAD q.val).key ≠ (Reg.HQ_PTR_TAIL q.val).key ∧
    (Reg.HQ_STAT_USED q.val).key ≠ (Reg.HQ_PTR_HEAD q.val).key := by
  simp only [Reg.HQ_PTR_TAIL, Reg.HQ_PTR_HEAD, Reg.HQ_STAT_USED, Fld.key]
  omega

/-- A message for Transport Protocol waits behind the others; the first one requests its session (R441). -/
theorem Lane.tpSend_eq (L : Lane) (a : Nat) (b : List Byte) : L.tpSend a b = { L with
    isobus := { L.isobus with tpTx := L.isobus.tpTx ++ [(a, b, 0)] }
    out := if L.isobus.tpTx = [] then L.out ++ [.isobus 0xEC00 a (tpFrame 16 [b.length % 256, b.length / 256, tpPackets b.length, 0xFF] 0xEF00)]
      else L.out } := by
  unfold Lane.tpSend Lane.when
  by_cases h : L.isobus.tpTx = []
  · simp only [h, decide_true, if_true]
    simp [Lane.tpRequest, Lane.onIso, h, Lane.send, linkClass]
  · simp only [h, decide_false, if_false]
    rfl

/-- What committing leaves on every transport: the ring, the queue, TAIL (R433, R434). -/
def Lane.tailed (L : Lane) (q : Fin 16) (d : Descr) (g : List Descr → List Descr) : Lane :=
  ((L.sramWrite (L.slotAddr q d.index) (descrBytes d)).onQueue q (fun x => { x with next := (d.index + 1) % 2 ^ 32, slots := g x.slots })).wr
    (Reg.HQ_PTR_TAIL q.val) (d.index + 1)

theorem Lane.tailed_commits (L : Lane) (q : Fin 16) (d : Descr) (g : List Descr → List Descr) :
    let M := L.tailed q d g
    (vget M.queue q).next = (d.index + 1) % 2 ^ 32 ∧ M.rd (Reg.HQ_PTR_TAIL q.val) = (d.index + 1) % 65536 ∧
    M.sramBytes (L.slotAddr q d.index) 64 = descrBytes d ∧
    (∀ a : Nat, a < L.slotAddr q d.index ∨ L.slotAddr q d.index + 64 ≤ a → M.sramByte a = L.sramByte a) ∧
    (∀ p : Fin 16, p ≠ q → vget M.queue p = vget L.queue p) ∧ (vget M.queue q).done = (vget L.queue q).done ∧
    (vget M.queue q).slots = g (vget L.queue q).slots ∧ (∀ f : Fld, f.key ≠ (Reg.HQ_PTR_TAIL q.val).key → M.rd f = L.rd f) ∧
    M = { L with regs := M.regs, sram := M.sram, queue := M.queue } := by
  have e : (L.tailed q d g).sram = (L.sramWrite (L.slotAddr q d.index) (descrBytes d)).sram := rfl
  refine ⟨?_, ?_, ?_, ?_, ?_, ?_, ?_, ?_, rfl⟩
  · simp [Lane.tailed, vget_vupd_same]
  · exact Lane.rd_wr_same _ _ _
  · rw [← Lane.sramBytes_write L (L.slotAddr q d.index) (descrBytes d) 64 (descrBytes_length d)]
    simp only [Lane.sramBytes, Lane.sramByte, e]
  · intro a ha
    rw [← Lane.sramByte_write_out L (L.slotAddr q d.index) (descrBytes d) a (by rwa [descrBytes_length])]
    simp only [Lane.sramByte, e]
  · intro p hp
    simp [Lane.tailed, vget_vupd_ne _ _ (Ne.symm hp)]
  · simp [Lane.tailed, vget_vupd_same]
  · simp [Lane.tailed, vget_vupd_same]
  · intro f hg
    exact Lane.rd_wr_ne _ _ (Ne.symm hg)

/-- Frames compose. -/
theorem commit_frame {L M N : Lane} (h : M = { L with regs := M.regs, sram := M.sram, queue := M.queue })
    (h' : N = { M with regs := N.regs, out := N.out, host := N.host, isobus := N.isobus }) :
    N = { L with regs := N.regs, sram := N.sram, queue := N.queue, out := N.out, host := N.host, isobus := N.isobus } ∧
      N.sram = M.sram ∧ N.queue = M.queue := by
  cases L; cases M; cases N
  simp only [Lane.mk.injEq] at h h' ⊢
  simp_all only [and_self]

/-- A queue that is not full takes the descriptor at TAIL: by the transport of its port it waits, or goes out (R376, R434, R448). -/
theorem Lane.pushTail_eq (L : Lane) (q : Fin 16) (d : Descr) (h : L.queueFree q = true)
    (hd : { descrOf (L.sramBytes (L.slotAddr q (vget L.queue q).next) 64) with index := (vget L.queue q).next } = d) :
    L.pushTail q =
      if L.queueTransport q = 1 ∨ (L.queueTransport q = 0 ∧ L.sec.idUsable = false) then
        (L.tailed q d (fun s => s ++ [d])).countMod (Reg.HQ_STAT_USED q.val) 1
      else if L.queueTransport q = 2 then
        ((L.tailed q d (fun s => s)).wr (Reg.HQ_PTR_HEAD q.val) (d.index + 1)).tpSend
          ((vget L.isobus.peer (Fin.ofNat 4 (vget L.img.queue q).port)).getD 0xFF) (0x04 :: descrBytes d)
      else (((L.tailed q d (fun s => s)).wr (Reg.HQ_PTR_HEAD q.val) (d.index + 1)).countMod (Reg.HQ_STAT_USED q.val) 1).sendFrame
        (Fin.ofNat 4 (vget L.img.queue q).port) d := by
  subst hd
  unfold Lane.pushTail
  rw [if_pos h]
  by_cases h1 : L.queueTransport q = 1 ∨ (L.queueTransport q = 0 ∧ L.sec.idUsable = false)
  · have h1' : L.queueTransport q = 1 ∨ (L.queueTransport q = 0 ∧ (!L.sec.idUsable) = true) := by simpa using h1
    rw [if_pos h1]
    simp only [Lane.wr_fields, Lane.onQueue_fields, Lane.sramWrite_fields, if_pos h1']
    rfl
  · have h1' : ¬(L.queueTransport q = 1 ∨ (L.queueTransport q = 0 ∧ (!L.sec.idUsable) = true)) := by simpa using h1
    rw [if_neg h1]
    simp only [Lane.wr_fields, Lane.onQueue_fields, Lane.sramWrite_fields, if_neg h1']
    rfl

theorem Lane.countMod_same (L : Lane) (f : Fld) (n : Nat) : (L.countMod f n).rd f = (L.rd f + n) % 2 ^ f.w := Lane.rd_wr_same _ _ _
theorem Lane.countMod_ne (L : Lane) {f g : Fld} (n : Nat) (h : f.key ≠ g.key) : (L.countMod f n).rd g = L.rd g := Lane.rd_wr_ne _ _ h

theorem Lane.sendFrame_eq (L : Lane) (h : Fin 4) (d : Descr) : L.sendFrame h d = { L with
    out := L.out ++ [.hostFrame h (L.hostFrame h [d])]
    host := vupd L.host h (fun x => { x with sent := (x.sent + 1) % 2 ^ 64 }) } := rfl

/-- A host frame shows of a lane its session, its FREED counts and its identity (R428). -/
theorem Lane.hostFrame_congr {L K : Lane} (h : Fin 4) (ds : List Descr) (hh : K.host = L.host) (hs : K.sec = L.sec)
    (hq : ∀ q : Fin 16, (vget K.queue q).done = (vget L.queue q).done) : K.hostFrame h ds = L.hostFrame h ds := by
  have e : K.queue.toList.map (fun x => x.done) = L.queue.toList.map (fun x => x.done) := by
    apply List.ext_getElem
    · simp
    · intro i h1 h2
      have hi : i < 16 := by simpa using h1
      simpa [vget] using hq ⟨i, hi⟩
  simp only [Lane.hostFrame, Lane.signature, hh, hs, e]

/-- A descriptor waits for its window (R376). -/
theorem Lane.pushTail_waits (L : Lane) (q : Fin 16) (d : Descr)
    (h1 : L.queueTransport q = 1 ∨ (L.queueTransport q = 0 ∧ L.sec.idUsable = false)) :
    L.Commits ((L.tailed q d (fun s => s ++ [d])).countMod (Reg.HQ_STAT_USED q.val) 1) q d := by
  obtain ⟨k1, k2, k3⟩ := queue_keys q
  unfold Lane.Commits
  simp only [if_pos h1]
  obtain ⟨a1, a2, a3, a4, a5, a6, a7, a8, a9⟩ := L.tailed_commits q d (fun s => s ++ [d])
  generalize L.tailed q d (fun s => s ++ [d]) = K at *
  have o : K.out = L.out ∧ K.host = L.host ∧ K.isobus = L.isobus := by rw [a9]; exact ⟨rfl, rfl, rfl⟩
  refine ⟨a1, (Lane.countMod_ne _ _ k1).trans a2, a3, a4, a5, a6, ⟨a7, ?_, ?_, o.1, o.2.1, o.2.2⟩, (commit_frame a9 rfl).1, ?_⟩
  · rw [Lane.countMod_same, a8 _ k1]; rfl
  · rw [Lane.countMod_ne _ _ k3, a8 _ k2]
  · intro g g1 _ g3
    rw [Lane.countMod_ne _ _ (Ne.symm g3), a8 _ g1]

/-- A descriptor goes out by Transport Protocol (R441). -/
theorem Lane.pushTail_isobus (L : Lane) (q : Fin 16) (d : Descr) (h2 : L.queueTransport q = 2) :
    L.Commits (((L.tailed q d (fun s => s)).wr (Reg.HQ_PTR_HEAD q.val) (d.index + 1)).tpSend
      ((vget L.isobus.peer (Fin.ofNat 4 (vget L.img.queue q).port)).getD 0xFF) (0x04 :: descrBytes d)) q d := by
  obtain ⟨k1, k2, k3⟩ := queue_keys q
  unfold Lane.Commits
  have h1 : ¬(L.queueTransport q = 1 ∨ (L.queueTransport q = 0 ∧ L.sec.idUsable = false)) := by omega
  simp only [if_neg h1, if_pos h2, Lane.tpSend_eq]
  obtain ⟨a1, a2, a3, a4, a5, a6, a7, a8, a9⟩ := L.tailed_commits q d (fun s => s)
  generalize L.tailed q d (fun s => s) = K at *
  have o : K.out = L.out ∧ K.host = L.host ∧ K.isobus = L.isobus := by rw [a9]; exact ⟨rfl, rfl, rfl⟩
  refine ⟨a1, (Lane.rd_wr_ne _ _ k2).trans a2, a3, a4, a5, a6, ⟨a7, ?_, Lane.rd_wr_same _ _ _, o.2.1, ?_, ?_⟩,
    (commit_frame a9 rfl).1, ?_⟩
  · exact (Lane.rd_wr_ne _ _ (Ne.symm k3)).trans (a8 _ k1)
  · simp [o.2.2]
  · simp [o.1, o.2.2, tpPackets, descrBytes_length]
  · intro g g1 g2 _
    exact (Lane.rd_wr_ne _ _ (Ne.symm g2)).trans (a8 _ g1)

/-- A descriptor goes out in a host frame of its own (R428). -/
theorem Lane.pushTail_frame (L : Lane) (q : Fin 16) (d : Descr)
    (h1 : ¬(L.queueTransport q = 1 ∨ (L.queueTransport q = 0 ∧ L.sec.idUsable = false))) (h2 : L.queueTransport q ≠ 2) :
    L.Commits ((((L.tailed q d (fun s => s)).wr (Reg.HQ_PTR_HEAD q.val) (d.index + 1)).countMod (Reg.HQ_STAT_USED q.val) 1).sendFrame
      (Fin.ofNat 4 (vget L.img.queue q).port) d) q d := by
  obtain ⟨k1, k2, k3⟩ := queue_keys q
  unfold Lane.Commits
  simp only [if_neg h1, if_neg h2, Lane.sendFrame_eq]
  obtain ⟨a1, a2, a3, a4, a5, a6, a7, a8, a9⟩ := L.tailed_commits q d (fun s => s)
  generalize L.tailed q d (fun s => s) = K at *
  have o : K.out = L.out ∧ K.host = L.host ∧ K.isobus = L.isobus ∧ K.sec = L.sec := by rw [a9]; exact ⟨rfl, rfl, rfl, rfl⟩
  have f (x : Fin 4) (N : Lane) (hn : N.host = K.host) (hs : N.sec = K.sec) (hq : N.queue = K.queue) : N.hostFrame x [d] = L.hostFrame x [d] :=
    Lane.hostFrame_congr x [d] (hn.trans o.2.1) (hs.trans o.2.2.2) (fun p => by
      rw [hq]
      by_cases e : p = q
      · rw [e]; exact a6
      · rw [a5 p e])
  generalize hR : (((K.wr (Reg.HQ_PTR_HEAD q.val) (d.index + 1)).countMod (Reg.HQ_STAT_USED q.val) 1)) = R
  have rR : R = { K with regs := R.regs } := by rw [← hR]; rfl
  have g1 : R.rd (Reg.HQ_PTR_TAIL q.val) = (d.index + 1) % 65536 := by
    rw [← hR]; exact (Lane.countMod_ne _ _ k1).trans ((Lane.rd_wr_ne _ _ k2).trans a2)
  have g2 : R.rd (Reg.HQ_STAT_USED q.val) = (L.rd (Reg.HQ_STAT_USED q.val) + 1) % 512 := by
    rw [← hR]
    refine (Lane.countMod_same _ _ _).trans ?_
    rw [Lane.rd_wr_ne _ _ (Ne.symm k3), a8 _ k1]; rfl
  have g3 : R.rd (Reg.HQ_PTR_HEAD q.val) = (d.index + 1) % 65536 := by
    rw [← hR]; exact (Lane.countMod_ne _ _ k3).trans (Lane.rd_wr_same _ _ _)
  have g4 : ∀ g : Fld, g.key ≠ (Reg.HQ_PTR_TAIL q.val).key → g.key ≠ (Reg.HQ_PTR_HEAD q.val).key → g.key ≠ (Reg.HQ_STAT_USED q.val).key →
      R.rd g = L.rd g := by
    intro g g1 g2 g3
    rw [← hR]; exact (Lane.countMod_ne _ _ (Ne.symm g3)).trans ((Lane.rd_wr_ne _ _ (Ne.symm g2)).trans (a8 _ g1))
  clear hR
  have r : R.out = K.out ∧ R.host = K.host ∧ R.isobus = K.isobus ∧ R.sec = K.sec ∧ R.queue = K.queue ∧ R.sram = K.sram := by
    rw [rR]; exact ⟨rfl, rfl, rfl, rfl, rfl, rfl⟩
  obtain ⟨r1, r2, r3, r4, r5, r6⟩ := r
  have b (a : Nat) : R.sramByte a = K.sramByte a := by simp only [Lane.sramByte, r6]
  refine ⟨r5 ▸ a1, g1, ?_, fun a ha => (b a).trans (a4 a ha), r5 ▸ a5, r5 ▸ a6, ⟨r5 ▸ a7, g2, g3, r3.trans o.2.2.1, ?_, ?_⟩, ?_, g4⟩
  · rw [← a3]; simp only [Lane.sramBytes, Lane.sramByte, r6]
  · simp only [r1, o.1, f _ R r2 r4 r5]
  · simp only [r2, o.2.1]
  · refine (commit_frame a9 ?_).1
    rw [rR]

/-- The descriptor that lies at TAIL of a queue that is not full is committed (R434, R448). -/
theorem Lane.pushTail_commits (L : Lane) (q : Fin 16) (d : Descr) (h : L.queueFree q = true)
    (hd : { descrOf (L.sramBytes (L.slotAddr q (vget L.queue q).next) 64) with index := (vget L.queue q).next } = d) :
    L.Commits (L.pushTail q) q d := by
  rw [Lane.pushTail_eq L q d h hd]
  by_cases h1 : L.queueTransport q = 1 ∨ (L.queueTransport q = 0 ∧ L.sec.idUsable = false)
  · rw [if_pos h1]; exact L.pushTail_waits q d h1
  · rw [if_neg h1]
    by_cases h2 : L.queueTransport q = 2
    · rw [if_pos h2]; exact L.pushTail_isobus q d h2
    · rw [if_neg h2]; exact L.pushTail_frame q d h1 h2

/-- A full queue sets FULL (R434, R448). -/
theorem Lane.pushTail_full (L : Lane) (q : Fin 16) (h : L.queueFree q = false) : L.CommitsNot (L.pushTail q) q := by
  have e : L.pushTail q = L.set1 (Reg.HQ_STAT_FULL q.val) := by
    unfold Lane.pushTail
    rw [if_neg (by simp [h])]
  rw [e]
  refine ⟨?_, rfl, fun g hg => Lane.rd_wr_ne _ _ (Ne.symm hg)⟩
  simp only [Lane.is, Lane.set1, Lane.rd_wr_same]
  rfl

/-- A descriptor put at TAIL is committed, or the queue is full (R434, R448). -/
theorem Lane.pushDescr_commits (L : Lane) (q : Fin 16) (d : Descr) :
    if L.queueFree q = true then L.Commits (L.pushDescr q d) q
      ⟨d.op % 256, d.flags % 256, d.tag % 65536, (vget L.queue q).next, d.status % 65536, (d.args ++ List.replicate 48 0).take 48⟩
    else L.CommitsNot (L.pushDescr q d) q := by
  by_cases h : L.queueFree q = true
  · rw [if_pos h]
    unfold Lane.pushDescr
    rw [if_pos h]
    generalize ha : L.slotAddr q (vget L.queue q).next = a
    have hc := Lane.pushTail_commits (L.sramWrite a (descrBytes d)) q _ h rfl
    have e1 : (L.sramWrite a (descrBytes d)).slotAddr q (vget (L.sramWrite a (descrBytes d)).queue q).next = a := ha
    rw [e1, Lane.sramBytes_write L a (descrBytes d) 64 (descrBytes_length d), descrOf_descrBytes] at hc
    obtain ⟨b1, b2, b3, b4, b5, b6, b7, b8, b9⟩ := hc
    refine ⟨b1, b2, b3, fun x hx => (b4 x hx).trans (Lane.sramByte_write_out L a (descrBytes d) x ?_), b5, b6, b7, b8, b9⟩
    rw [descrBytes_length, ← ha]
    exact hx
  · rw [if_neg h]
    unfold Lane.pushDescr
    rw [if_neg h]
    exact L.pushTail_full q (by simpa using h)

/-- An answer answers (R436, R437). -/
theorem Lane.respond_answers (L : Lane) (k : HostCmd) (op status : Nat) (args : List Byte) :
    L.Answers (L.respond k op status args) k op status args := by
  unfold Lane.Answers Lane.respond
  cases e : L.replyQueue k.port with
  | none => rfl
  | some q => exact L.pushDescr_commits q ⟨op, 1, k.tag, 0, status, args⟩

end Sys2Proof.Machine
end

