-- ==== Sys2Proof/Tests/Slice0.lean ====
section
/-! SUPPORT. Tests: ill-formed terms that the checks refuse, words written out from the encoding table, the manual's worked figures, and
for every statement with hypotheses a lane and operands that meet them. -/

set_option maxRecDepth 100000
set_option Elab.async false
set_option linter.unusedVariables false

namespace Sys2Proof.Tests
open Sys2Proof Sys2Proof.Machine

/-! ### Ill-formed terms -/

/-- SINCOS with an odd rd (R159). -/
theorem test_wf_sincos : (DeInstr.sincos 3 1).wf = false ∧ (DeInstr.sincos 30 1).wf = true := by decide
/-- A reference record with a number, a release or a current that does not fit its bytes (R175). -/
theorem test_wf_reference :
    RefRecord.wf ⟨.steer, .a, 2 ^ 32, 0, 0, Vector.replicate 4 0⟩ = false ∧ RefRecord.wf ⟨.steer, .a, 0, 2 ^ 64, 0, Vector.replicate 4 0⟩ = false ∧
    RefRecord.wf ⟨.steer, .a, 0, 0, 0, Vector.replicate 4 65536⟩ = false ∧ RefRecord.wf ⟨.steer, .a, 5, 9, 0, Vector.replicate 4 65535⟩ = true := by decide
/-- A sensor record with a source or a capture time that does not fit (R233). -/
theorem test_wf_sensor :
    SensorRecord.wf ⟨0, .a, true, true, 256, 0, 0, 0⟩ = false ∧ SensorRecord.wf ⟨0, .a, true, true, 0, 0, 2 ^ 64, 0⟩ = false ∧
    SensorRecord.wf ⟨0, .a, true, true, 255, 0, 0, 0⟩ = true := by decide
/-- A descriptor with a field that does not fit, or with more than 48 bytes of arguments (R432). -/
theorem test_wf_descriptor :
    Descr.wf ⟨256, 0, 0, 0, 0, []⟩ = false ∧ Descr.wf ⟨0, 256, 0, 0, 0, []⟩ = false ∧ Descr.wf ⟨0, 0, 65536, 0, 0, []⟩ = false ∧
    Descr.wf ⟨0, 0, 0, 2 ^ 32, 0, []⟩ = false ∧ Descr.wf ⟨0, 0, 0, 0, 65536, []⟩ = false ∧
    Descr.wf ⟨0, 0, 0, 0, 0, List.replicate 49 0⟩ = false ∧ Descr.wf ⟨255, 255, 7, 9, 2, List.replicate 48 0⟩ = true := by decide
/-- A bus access of three bytes, with data wider than its size, or past the address space (R5). -/
theorem test_wf_bus :
    busWf 0 3 0 = false ∧ busWf 0 1 256 = false ∧ busWf (2 ^ 64) 4 0 = false ∧ busWf 0x20000000 4 0xFFFFFFFF = true := by decide
/-- A function report and a status frame with a field that does not fit (R89, R117). -/
theorem test_wf_status :
    let r := (Lane.statusFrame (Lane.unpowered .a)).funcs[0]
    r.wf = true ∧ FuncReport.wf { r with role := 8 } = false ∧ FuncReport.wf { r with mode := 4 } = false ∧ FuncReport.wf { r with cause := 16 } = false ∧
    FuncReport.wf { r with autumnMs := 2 ^ 32 } = false ∧ FuncReport.wf { r with rotIndex := 4 } = false ∧ FuncReport.wf { r with histSeq := 2 ^ 32 } = false ∧
    FuncReport.wf { r with period := 65536 } = false := by decide +kernel
theorem test_wf_status_frame :
    let f := Lane.statusFrame (Lane.unpowered .a)
    f.wf = true ∧ StatusFrame.wf { f with state := 16 } = false ∧ StatusFrame.wf { f with featSet := 2 ^ 128 } = false ∧
    StatusFrame.wf { f with digest := 2 ^ 256 } = false := by decide +kernel
/-- Commands that carry an ill-formed part (R5, R159, R175, R432). -/
theorem test_wf_commands :
    (Instr.deSincos .a 0 3 1).wf = false ∧ (Instr.registerWrite .a 0 0x20000000 3 0).wf = false ∧
    (Instr.llReferenceWrite .a 0 ⟨.steer, .a, 2 ^ 32, 0, 0, Vector.replicate 4 0⟩).wf = false ∧ (Instr.pairedInputLoad .a 0 (2 ^ 64 + 4096) 8).wf = false ∧
    (Instr.pairedInputLoad .a 0 (2 ^ 64 + 0xC00) 8).wf = true ∧ (Instr.debugSysbusAccess .a 0 4 (some (2 ^ 32))).wf = false := by decide

/-! ### Words of the drive engines, bit by bit from R156 and R159 -/

/-- Unit A, format R: SRA d31, d16, d8 (opcode 0x08). -/
theorem test_word_sra : deDecode (0b001000#6 ++ 0b11111#5 ++ 0b10000#5 ++ 0b01000#5 ++ 0#11) = some (.sra 31 16 8) := by decide
/-- Unit A, format I: ST of d7 at d2 - 4 (0x19), OUT to port 0x006 (0x1B), SRAI by 31 (0x17). -/
theorem test_word_immediate :
    deDecode (0b011001#6 ++ 0b00111#5 ++ 0b00010#5 ++ 0b1111111111111100#16) = some (.st 7 2 0xFFFC) ∧
    deDecode (0b011011#6 ++ 0b00111#5 ++ 0b00000#5 ++ 0b0000000000000110#16) = some (.outp 7 6) ∧
    deDecode (0b010111#6 ++ 0b00001#5 ++ 0b00010#5 ++ 0b0000000000011111#16) = some (.srai 1 2 31) := by decide
/-- Control: BGE d1, d2, -1 (0x23), JAL 5 (0x25), WAIT d4 for event 8 (0x1C). -/
theorem test_word_control :
    deDecode (0b100011#6 ++ 0b00001#5 ++ 0b00010#5 ++ 0xFFFF#16) = some (.bge 1 2 0xFFFF) ∧ deDecode (0b100101#6 ++ 5#26) = some (.jal 5) ∧
    deDecode (0b011100#6 ++ 0b00100#5 ++ 0#5 ++ 0b0000000100000000#16) = some (.wait 4 0x100) := by decide
/-- Unit M: FTOQ with 16 fractional bits (0x33), FMIN (0x2C), QSUB (0x37). -/
theorem test_word_unit_m :
    deDecode (0b110011#6 ++ 0b00011#5 ++ 0b00100#5 ++ 0#5 ++ 0b000000#6 ++ 0b10000#5) = some (.ftoq 3 4 16) ∧
    deDecode (0b101100#6 ++ 0b00001#5 ++ 0b00010#5 ++ 0b00011#5 ++ 0#11) = some (.fmin 1 2 3) ∧
    deDecode (0b110111#6 ++ 0b00001#5 ++ 0b00010#5 ++ 0b00011#5 ++ 0#11) = some (.qsub 1 2 3) := by decide
/-- Unit T: ATAN2 (0x39), RECIP (0x3A), SINCOS (0x38). -/
theorem test_word_unit_t :
    deDecode (0b111001#6 ++ 0b00001#5 ++ 0b00010#5 ++ 0b00011#5 ++ 0#11) = some (.atan2 1 2 3) ∧
    deDecode (0b111010#6 ++ 0b00001#5 ++ 0b00010#5 ++ 0#5 ++ 0#11) = some (.recip 1 2) ∧
    deDecode (0b111000#6 ++ 0b00010#5 ++ 0b00001#5 ++ 0#5 ++ 0#11) = some (.sincos 2 1) := by decide

/-! ### The manual's own figures -/

/-- Shares of 12,288, 18,432 and 18,432: without A both are 24,576, without B they are 19,660 and 29,491 (R105). -/
theorem test_shares : shareOf 16384 32768 = 24576 ∧ shareOf 18432 36864 = 24576 ∧ shareOf 12288 30720 = 19660 ∧ shareOf 18432 30720 = 29491 := by decide
/-- ROLE_ORDER 0 rotated by 1: B active, C standby, A arbiter (R48, R69). -/
theorem test_rotated_order : rolesOf ((roleOrderOf 0).drop 1 ++ (roleOrderOf 0).take 1) [.a, .b, .c] (fun _ => false) = (1, 2, 0) := by decide
/-- IDCODE 0x2096_19E7 at stepping B (R493). -/
theorem test_idcode : 2 ^ 28 * 2 + 2 ^ 12 * 0x0961 + 2 * 0x4F3 + 1 = 0x209619E7 := by decide

/-! ### Lanes for the witnesses -/

/-- Lane A without supply. -/
def W : Lane := Lane.unpowered .a
/-- Lane A in a phase of its start, with register fields at given values. -/
def Wp (p : Phase) (fs : List (Fld × Nat) := []) : Lane := { (W.loadFields fs) with start := { W.start with phase := p } }
/-- Lane A with its firmware running. -/
def Uf (fs : List (Fld × Nat)) : Lane := Wp .running fs
/-- Lane A with its firmware running, registers at reset. -/
def U : Lane := Uf []
/-- With the guard powered. -/
def Gd : Lane := { U with guardSt := { U.guardSt with powered := true } }
/-- With the low sides of port 0 shorted by its engine. -/
def Gd2 : Lane :=
  { (Gd.wr Reg.GD_STAT_EN 7).onDe 0 (fun e => { e with period := 333333, rise := 2, active := { e.active with bridge := 2 } }) with gate := U.gate }
/-- An image that assigns one function, with two solenoid drivers. -/
def funcImg (g : Func) : Image :=
  { Init.image with sec := { Init.image.sec with
      func := vupd Init.image.sec.func g.ix (fun r => { r with present := 1, port := 0xFF, svMask := 3 }) } }
/-- Start-up state with an image that assigns PARK. -/
def parkImg : Start := { W.start with image := funcImg .park }
/-- The lane serves functions. -/
def serving (gs : List Func) (fs : List (Fld × Nat)) : Lane :=
  gs.foldl (fun L g => { L with roles := { L.roles with fn := vupd L.roles.fn g.ix (fun x => { x with served := true }) } }) (Uf fs)
/-- Both neighbours are heard with a frame. -/
def heard (f : StatusFrame) (L : Lane) : Lane :=
  { L with nb := Vector.replicate 2 (some f), timers := (.status .next, 0) :: (.status .prev, 0) :: L.timers }
/-- A lane in READY with its set locked and STEER assigned. -/
def electBase : Lane :=
  { Uf [(Reg.SYS_STATE_STATE, 2), (Reg.SYS_FEAT_CTRL_LOCK, 1)] with
    start := { W.start with phase := .running, image := funcImg .steer }, timers := [(.gather, 0)] }
/-- The same with both neighbours taking part. -/
def electLane : Lane := heard (Lane.statusFrame electBase) electBase
/-- A lane that may arm. -/
def armLane : Lane :=
  { Uf [(Reg.SYS_STATE_STATE, 2), (Reg.SYS_FEAT_CTRL_LOCK, 1), (Reg.SYS_STATE_ELECTED, 1), (Reg.LG_WD_STAT_CONSEC, 16), (Reg.GD_STAT_VGDOK, 7)]
    with guardSt := Gd.guardSt }
/-- A SENT frame at a tick of 0.3 µs with six data nibbles of 0, its checksum off by `e`. -/
def sentGood (e : Nat) : SentFrame :=
  ⟨16800, Vector.ofFn (fun (k : Fin 8) => 300 * (if k.val < 7 then 12 else 12 + sentCrc false [0, 0, 0, 0, 0, 0] + e))⟩
/-- Every core runs. -/
def cores (L : Lane) : Lane := { L with core := Vector.replicate 4 { Init.core with run := .running } }
/-- A pair whose even core has marked checkpoint 1. -/
def markLane : Lane :=
  { cores (Uf [(Reg.CM_STATUS_PAIRED, 3)]) with
    core := vupd (cores U).core 0 (fun x => { x with marks := [⟨0, 1, -1, 0, 5, false, []⟩] }) }
/-- Engine `n` runs with an instruction at its program counter 0. -/
def deLane (n : Engine) (i : DeInstr) : Lane :=
  (Uf [(Reg.DE_CTRL_RUN n.val, 1)]).onDe n (fun e => { e with im := Tab.putList (0 : Byte) e.im 0 (leBytes 4 (deEncode i).toNat) })
/-- An image that assigns one function to a bridge port. -/
def bridgeImg (g : Func) (p : Nat) : Image :=
  { Init.image with sec := { Init.image.sec with
      func := vupd Init.image.sec.func g.ix (fun r => { r with present := 1, port := p }) } }
/-- The lane runs with an image that assigns STEER to bridge port 0 and gives its SENSE record. -/
def Br (r : SenseRec) (fs : List (Fld × Nat)) : Lane :=
  { Uf fs with start := { W.start with phase := .running, image := { bridgeImg .steer 0 with sec := { (bridgeImg .steer 0).sec with
      sense := vupd Init.image.sec.sense 0 (fun _ => r) } } } }
/-- Slaz entries of one channel: a transmitted and a received exclusive window of buffers 3 and 4. -/
def szTx (c : Fin 2) : SlazEntry :=
  { cycBase := 0, rept := 1, window := 0, chan := c, kind := .exclusive, tx := true, rx := false, ident := 40, dlc := 8, buf := 3, start := 0, len := 1000 }
def szRx (c : Fin 2) : SlazEntry := { szTx c with window := 1, tx := false, rx := true, ident := 41, buf := 4 }
/-- The reference window of a channel. -/
def refWin (c : Fin 2) : SlazEntry :=
  { cycBase := 0, rept := 1, window := 0, chan := c, kind := .reference, tx := false, rx := true, ident := 0, dlc := 4, buf := 255, start := 0, len := 200 }
/-- A lane in READY whose channel X runs a matrix of one cycle with given entries. -/
def Sz (es : List SlazEntry) (fs : List (Fld × Nat)) : Lane :=
  { Uf ([(Reg.SYS_STATE_STATE, 2), (Reg.SZ_STAT_STATE 0, 4)] ++ fs) with
    start := { W.start with phase := .running, image := { Init.image with sec := { Init.image.sec with slaz := { Init.image.sec.slaz with
      rank := 1, modes := 2, desc := Vector.replicate 8 ⟨1, 2, 0, es.length, 10⟩, entries := es } } } } }
/-- A time frame of a neighbour in READY that its sender stamps with device time `t` in ns. -/
def timeFrame (t : Nat) : TimeFrame :=
  { sent := t * 65536, echo := none, state := 2, agreePrev := false, agreeNext := false, leader := false, acq := false, disc := 0,
    gmOffset := none, gmId := 0, gmSeq := 0, step := none, jumpPend := false, request := 0 }
/-- A lane whose set has locked the gPTP port, in a discipline state, with an own grandmaster offset. -/
def Pt (d : Nat) (o : Int) (fs : List (Fld × Nat)) : Lane :=
  ({ Uf ([(Reg.TS_STAT_DISC, d), (Reg.SYS_FEAT_CTRL_LOCK, 1), (Reg.SYS_FEAT_ACCEPT 0, 64), (Reg.TS_JTHR, 1000000)] ++ fs) with
    start := { W.start with phase := .running, image := { Init.image with sec := { Init.image.sec with
      time := { Init.image.sec.time with asEnable := 1 } } } } }).onTime (fun t => { t with ownGm := some (o, 77) })
/-- A lane in READY with host port 0 of a kind and transport, of every permission, its session open with every feature locked,
and queue 0 from the host, queue 1 to the host. -/
def Hp (kind transport : Nat) (fs : List (Fld × Nat)) : Lane :=
  { Uf ([(Reg.SYS_STATE_STATE, 2), (Reg.SYS_FEAT_CTRL_LOCK, 1), (Reg.HQ_PORT_SESSION 0, 2), (Reg.HQ_PORT_FLOCK 0, 1), (Reg.SYS_HOSTFEAT 0 0, 2047),
      (Reg.HQ_BASE 0, 0x1000), (Reg.HQ_BASE 1, 0x2000)] ++ fs) with
    sec := { W.sec with idUsable := true },
    start := { W.start with phase := .running, image := { Init.image with sec := { Init.image.sec with
      hostPort := vupd Init.image.sec.hostPort 0 (fun _ => ⟨1, kind, transport, 2047, 0⟩),
      queue := vupd (vupd Init.image.sec.queue 0 (fun _ => ⟨0, 0, 16⟩)) 1 (fun _ => ⟨0, 1, 16⟩),
      auth := Vector.replicate 5 { vget Init.image.sec.auth 0 with rank := ⟨#[2, 1, 0, 0], rfl⟩ } } } } }
/-- A lane whose ISOBUS function holds address 0x90, with an implement port 0. -/
def Ib (fs : List (Fld × Nat)) : Lane := Hp 2 2 ([(Reg.IB_STAT_ADDR, 0x90), (Reg.IB_STAT_CLAIMED, 1)] ++ fs)
/-- A lane in RECOVERY. -/
def Rc (fs : List (Fld × Nat)) : Lane := Wp .recovery ([(Reg.SYS_STATE_STATE, 7)] ++ fs)
/-- A manifest in DEVELOP for this part. -/
def Mf : Manifest :=
  { magic := 0x464E414D, format := 1, targetPart := 0x0961, minStepping := 0, keySlot := 0, partCount := 0, flags := 0, version := 1, floor := 0,
    chunks := 3, tableChunks := 1, tableDigest := 0, zeroOk := true, parts := [], digest := 77, sigOk := true }
/-- Measurements of step 4 that pass. -/
def goodReadings : AnalogReadings :=
  ⟨Vector.replicate 3 209715, Vector.replicate 3 0, Vector.replicate 3 209715, Vector.replicate 3 (-209715), ⟨#[3413, 1707, 0], rfl⟩,
    Vector.replicate 19 (16384, 49152)⟩
/-- A Solstice test without a finding; one whose signatures of step 2 differ. -/
def goodSolstice : SolsticeResult := ⟨[], true, true, goodReadings, 0, 0, Vector.replicate 4 0, 950⟩
def badSolstice : SolsticeResult := { goodSolstice with bistOk := false }
/-- A NAME has 64 bits and is above 3 (R442). -/
theorem iso_pos (l : LaneId) : 3 < isoName l := by
  unfold isoName
  have h : 3 < 2 ^ 61 := by norm_num
  exact Nat.lt_of_lt_of_le h (Nat.le_trans (Nat.le_add_left _ _) (Nat.le_add_right _ _))
theorem iso_le (l : LaneId) : isoName l ≤ 2 ^ 64 := by
  have h1 := Config.nameIdentity.isLt; have h2 := Config.manufacturer.isLt; have h3 := Config.nameFunction.isLt
  unfold isoName
  generalize Config.nameIdentity.toNat = a at *
  generalize Config.manufacturer.toNat = b at *
  generalize Config.nameFunction.toNat = c at *
  have : l.code ≤ 2 := by cases l <;> decide
  norm_num at *
  omega

/-! ### A lane and operands for every statement with hypotheses -/

theorem witness_start_resets_the_lane :
    ((fun (l : LaneId) (low : Bool) (L : Lane) => max L.sec.lc1 L.sec.lc2 ≠ 3) .a true (W)) ∧
    ((fun (l : LaneId) (dt : Nat) (L : Lane) => L.start.phase = .dieReset ∧ (L.pass dt).due .dieReset 100000 = true ∧ max L.sec.lc1 L.sec.lc2 ≠ 3) .a 100000 ({ Wp .dieReset with timers := [(.dieReset, 0)] })) := by
  and_intros <;> decide +kernel

theorem witness_start_sequence :
    ((fun (l : LaneId) (L : Lane) => L.start.phase = .romCheck ∧ L.start.recoveryBall = false) .a ((Wp .romCheck))) ∧
    ((fun (l : LaneId) (L : Lane) => L.start.phase = .romCheck ∧ L.start.recoveryBall = true) .a ({ W with start := { W.start with phase := .romCheck, recoveryBall := true } })) ∧
    ((fun (l : LaneId) (L : Lane) => L.start.phase = .romCheck ∧ L.rd Reg.UP_STATE_STATE ≠ 6) .a ((Wp .romCheck))) ∧
    ((fun (l : LaneId) (bank : List Byte) (unwrapOk : Bool) (L : Lane) => L.start.phase = .signatures ∧ L.sec.idDone = false ∧ L.rd Reg.UP_STATE_STATE ≠ 6) .a [] true ((Wp .signatures))) ∧
    ((fun (l : LaneId) (r : SolsticeResult) (L : Lane) => L.start.phase = .solstice ∧ r.bistOk = true ∧ r.storeOk = true ∧ (L.test.march r.march).2 = false ∧ analogFails r.analog = 0 ∧ nbits r.res0.toNat 0 24 = 0 ∧ nbits r.res1.toNat 0 13 = 0) .a goodSolstice ((Wp .solstice))) ∧
    ((fun (l : LaneId) (r : SolsticeResult) (L : Lane) => L.start.phase = .solstice ∧ (r.bistOk = false ∨ r.storeOk = false ∨ (L.test.march r.march).2 = true ∨ analogFails r.analog ≠ 0) ∧ nbits r.res0.toNat 0 24 = 0 ∧ nbits r.res1.toNat 0 13 = 0 ∧ L.is Reg.SYS_STATE_SOLRETRY = false) .a badSolstice ((Wp .solstice))) ∧
    ((fun (l : LaneId) (r : SolsticeResult) (L : Lane) => L.start.phase = .solstice ∧ (r.bistOk = false ∨ r.storeOk = false ∨ (L.test.march r.march).2 = true ∨ analogFails r.analog ≠ 0) ∧ nbits r.res0.toNat 0 24 = 0 ∧ nbits r.res1.toNat 0 13 = 0 ∧ L.is Reg.SYS_STATE_SOLRETRY = true ∧ L.rd Reg.UP_STATE_STATE ≠ 6) .a badSolstice ((Wp .solstice [(Reg.SYS_STATE_SOLRETRY, 1)]))) := by
  and_intros <;> decide +kernel

theorem witness_image_verification_ends :
    ((fun (l : LaneId) (L : Lane) => L.start.phase = .image) .a ((Wp .image))) := by
  decide +kernel

theorem witness_retained_commits :
    ((fun (l : LaneId) (L : Lane) => L.firmware = true ∧ L.is Reg.SYS_RET_STATUS_BUSY = false) .a (U)) ∧
    ((fun (l : LaneId) (L : Lane) => L.firmware = true ∧ L.is Reg.SYS_RET_STATUS_BUSY = true) .a ((Uf [(Reg.SYS_RET_STATUS_BUSY, 1)]))) ∧
    ((fun (l : LaneId) (dt : Nat) (t : Fin 2) (seq : Nat) (p : Payload) (L : Lane) => L.ret.inFlight = some (t, seq, p) ∧ L.ret.held = false ∧ L.ret.stalled = []) .a 0 1 7 Init.payload ({ U with ret := { U.ret with inFlight := some (1, 7, Init.payload) } })) ∧
    ((fun (l : LaneId) (dt : Nat) (t : Fin 2) (seq : Nat) (p : Payload) (L : Lane) => L.ret.inFlight = some (t, seq, p) ∧ L.ret.held = false ∧ L.ret.stalled = []) .a 0 1 7 Init.payload ({ U with ret := { U.ret with inFlight := some (1, 7, Init.payload) } })) ∧
    ((fun (l : LaneId) (dt : Nat) (t : Fin 2) (seq : Nat) (p : Payload) (L : Lane) => L.ret.inFlight = some (t, seq, p) ∧ L.ret.held = true ∧ L.ret.stalled = [] ∧ seq < 2 ^ 32) .a 0 1 7 Init.payload ({ U with ret := { U.ret with inFlight := some (1, 7, Init.payload), held := true } })) := by
  and_intros <;> decide +kernel

theorem witness_retained_commits_5 :
    ((fun (l : LaneId) (dt : Nat) (L : Lane) => (∃ f, L.mode f = 1) ∧ (L.pass dt).due .autumnCommit 10000000000 = true ∧ L.firmware = true ∧ L.is Reg.SYS_RET_STATUS_BUSY = false) .a 10000000000 ({ Uf [(Reg.ROLE_FUNC_MODE 1, 1)] with timers := [(.autumnCommit, 0)] })) := by
  exact ⟨⟨.feel, by decide⟩, by decide⟩

theorem witness_retained_commits_6 :
    ((fun (l : LaneId) (dt : Nat) (L : Lane) => (∃ f, L.mode f = 1) ∧ (L.pass dt).due .autumnCommit 10000000000 = true ∧ L.firmware = true ∧ L.is Reg.SYS_RET_STATUS_BUSY = true) .a 10000000000 ({ Uf [(Reg.ROLE_FUNC_MODE 1, 1), (Reg.SYS_RET_STATUS_BUSY, 1)] with timers := [(.autumnCommit, 0)] })) := by
  exact ⟨⟨.feel, by decide⟩, by decide⟩

theorem witness_retained_commits_7 :
    ((fun (l : LaneId) (dt : Nat) (L : Lane) => ∀ f, L.mode f ≠ 1) .a 0 (U)) := by
  intro f; cases f <;> decide

theorem witness_feature_lock :
    ((fun (l : LaneId) (L : Lane) => L.firmware = true ∧ L.is Reg.SYS_FEAT_CTRL_LOCK = false ∧ nbit (L.rd (Reg.SYS_FEAT_ACCEPT 0)) 0 = true) .a ((Uf [(Reg.SYS_FEAT_ACCEPT 0, 1)]))) ∧
    ((fun (l : LaneId) (L : Lane) => L.firmware = true ∧ L.is Reg.SYS_FEAT_CTRL_LOCK = false ∧ nbit (L.rd (Reg.SYS_FEAT_ACCEPT 0)) 0 = false) .a (U)) := by
  and_intros <;> decide +kernel

theorem witness_status_frames :
    ((fun (l : LaneId) (L : Lane) => L.sendsStatus = true) .a ((Uf [(Reg.SYS_STATE_STATE, 2)]))) ∧
    ((fun (l : LaneId) (sd : Side) (f : StatusFrame) (L : Lane) => L.firmware = true ∧ L.rd Reg.UP_STATE_STATE = 0) .a .next (Lane.statusFrame U) (U)) ∧
    ((fun (l : LaneId) (dt : Nat) (sd : Side) (L : Lane) => L.firmware = true ∧ (L.pass dt).due (.status sd) 3000000 = true) .a 3000000 .next ({ U with timers := [(.status .next, 0)] })) := by
  and_intros <;> decide +kernel

theorem witness_election :
    ((fun (l : LaneId) (dt : Nat) (L : Lane) => L.firmware = true ∧ (L.pass dt).electable = true ∧ L.start.electionDone = false ∧ (L.pass dt).gathered = true ∧ (L.pass dt).members.length ≤ 1) .a 0 ({ Uf [(Reg.SYS_STATE_STATE, 2), (Reg.SYS_FEAT_CTRL_LOCK, 1)] with timers := [(.gather, 0)] })) := by
  decide +kernel

theorem witness_election_0 :
    ((fun (l : LaneId) (dt : Nat) (L : Lane) => L.firmware = true ∧ (L.pass dt).electable = true ∧ L.start.electionDone = false ∧ (L.pass dt).gathered = true ∧ 2 ≤ (L.pass dt).members.length ∧ ∀ f, L.present f = true → ((L.pass dt).proposal f).1 ≠ 3) .a 0 (electLane)) := by
  refine ⟨by decide +kernel, by decide +kernel, rfl, by decide +kernel, by decide +kernel, ?_⟩
  intro f; cases f <;> decide +kernel

theorem witness_election_2 :
    ((fun (l : LaneId) (dt : Nat) (L : Lane) => L.firmware = true ∧ (L.pass dt).electable = true ∧ L.start.electionDone = false ∧ (L.pass dt).gathered = true ∧ 2 ≤ (L.pass dt).members.length ∧ ∃ f, L.present f = true ∧ ((L.pass dt).proposal f).1 = 3) .a 0 ({ electLane with regs := (electLane.set1 (Reg.ROLE_FUNC_BARRED 0)).regs, nb := Vector.replicate 2 (some { Lane.statusFrame electBase with barred := true }) })) := by
  exact ⟨by decide +kernel, by decide +kernel, rfl, by decide +kernel, by decide +kernel, .steer, by decide +kernel⟩

theorem witness_arming_sequence :
    ((fun (l : LaneId) (L : Lane) => L.firmware = true ∧ L.img.start.armMode = 0 ∧ L.running .armRetry = false ∧ L.mayArm = true) .a (armLane)) ∧
    ((fun (l : LaneId) (L : Lane) => L.firmware = true ∧ L.img.start.armMode = 1 ∧ L.mayArm = true) .a ({ armLane with start := { armLane.start with image := { armLane.start.image with sec := { armLane.start.image.sec with start := { armLane.start.image.sec.start with armMode := 1 } } } } })) ∧
    ((fun (l : LaneId) (L : Lane) => L.firmware = true ∧ L.img.start.armMode = 1 ∧ L.mayArm = false) .a ({ U with start := { U.start with image := { U.start.image with sec := { U.start.image.sec with start := { U.start.image.sec.start with armMode := 1 } } } } })) ∧
    ((fun (l : LaneId) (L : Lane) => L.rd Reg.SYS_ARM_STEP = 1 ∧ L.svc = 2 ∧ L.guardSt.powered = true ∧ L.is Reg.LG_CONT_KMCMD = false ∧ L.is Reg.LG_CONT_KM_NO = false) .a ({ Uf [(Reg.SYS_STATE_STATE, 2), (Reg.SYS_ARM_STEP, 1)] with guardSt := Gd.guardSt })) ∧
    ((fun (l : LaneId) (dt : Nat) (L : Lane) => L.rd Reg.SYS_ARM_STEP = 1 ∧ (L.pass dt).due .precharge (L.img.start.prechargeMs * 1000000) = true) .a 0 ({ Uf [(Reg.SYS_ARM_STEP, 1)] with timers := [(.precharge, 0)] })) ∧
    ((fun (l : LaneId) (dt : Nat) (L : Lane) => L.rd Reg.SYS_ARM_STEP = 4 ∧ (L.pass dt).due .gateEnable 10000000 = true) .a 10000000 ({ Uf [(Reg.SYS_ARM_STEP, 4)] with timers := [(.gateEnable, 0)] })) := by
  and_intros <;> decide +kernel

theorem witness_vote_frames :
    ((fun (l : LaneId) (L : Lane) => L.guardSt.powered = true ∧ L.guardSt.rcLost = false) .a (Gd)) ∧
    ((fun (l : LaneId) (sd : Side) (line0 line1 : Word) (c : Nat) (L : Lane) => L.guardSt.powered = true ∧ L.guardSt.rcLost = false ∧ line1 = ~~~line0 ∧ voteCrc (line0.toNat / 256) = line0.toNat % 256 ∧ nbits line0.toNat 28 4 = 0xB ∧ nbits line0.toNat 8 2 = L.sideCode sd ∧ (vget L.vote.inp sd.ix).last = some c ∧ nbits line0.toNat 10 3 = (c + 1) % 8) .a .next (BitVec.ofNat 32 (Lane.voteFrame (Lane.unpowered .b))) (~~~(BitVec.ofNat 32 (Lane.voteFrame (Lane.unpowered .b)))) 7 ({ Gd with vote := { Gd.vote with inp := vupd Gd.vote.inp 1 (fun v => { v with last := some 7 }) } })) ∧
    ((fun (l : LaneId) (sd : Side) (line0 line1 : Word) (L : Lane) => L.guardSt.powered = true ∧ L.guardSt.rcLost = false ∧ line1 ≠ ~~~line0 ∧ voteCrc (line0.toNat / 256) = line0.toNat % 256) .a .next (BitVec.ofNat 32 (Lane.voteFrame (Lane.unpowered .b))) 0 (Gd)) ∧
    ((fun (l : LaneId) (sd : Side) (line0 line1 : Word) (L : Lane) => L.guardSt.powered = true ∧ L.guardSt.rcLost = false ∧ line1 = ~~~line0 ∧ voteCrc (line0.toNat / 256) ≠ line0.toNat % 256) .a .next 0 (~~~0) (Gd)) ∧
    ((fun (l : LaneId) (dt : Nat) (sd : Side) (L : Lane) => L.guardSt.powered = true ∧ (vget L.vote.inp sd.ix).lost = false ∧ (L.pass dt).due (.voteIn sd) 50000 = true) .a 50000 .next ({ Gd with timers := [(.voteIn .next, 0)], vote := { Gd.vote with inp := vupd Gd.vote.inp 1 (fun v => { v with lost := false }) } })) := by
  and_intros <;> decide +kernel

theorem witness_accusations :
    ((fun (l : LaneId) (code : BitVec 10) (L : Lane) => L.firmware = true ∧ L.pairLive 0 = true) .a 3 (U)) ∧
    ((fun (l : LaneId) (code : BitVec 10) (L : Lane) => L.firmware = true ∧ L.pairLive 1 = true) .a 3 (U)) ∧
    ((fun (l : LaneId) (r : BitVec 5) (L : Lane) => L.firmware = true ∧ L.pairLive 0 = true) .a 3 (U)) ∧
    ((fun (l : LaneId) (r : BitVec 5) (L : Lane) => L.firmware = true ∧ L.pairLive 1 = true) .a 3 (U)) ∧
    ((fun (l : LaneId) (dt : Nat) (f : Func) (L : Lane) => (L.pass dt).due (.minority f) 20000000 = true) .a 20000000 .steer ({ U with timers := [(.minority .steer, 0)] })) ∧
    ((fun (l : LaneId) (dt : Nat) (f : Func) (L : Lane) => (L.pass dt).due (.disagree f) 20000000 = true ∧ L.serves f = true ∧ L.mode f ≠ 2) .a 20000000 .park ({ serving [.park] [] with timers := [(.disagree .park, 0)] })) := by
  and_intros <;> decide +kernel

theorem witness_references :
    ((fun (l : LaneId) (core : Core) (r : RefRecord) (L : Lane) => L.firmware = true ∧ L.coreLive core = true ∧ L.paired (pairOf core) = false ∧ L.debugged (pairOf core) = false ∧ pairOf core = 0 ∧ L.role r.func = 1 ∧ L.rd (Reg.ROLE_FUNC_ACT r.func.code) = L.id.code ∧ ((L.fn r.func).hasSeq = false ∨ newer32 ((L.fn r.func).nextSeq.getD (L.firstSeq r.func)) (L.rd (Reg.ROLE_SEQ r.func.code)) = true) ∧ L.winterTorque r.func = false ∧ L.now ≤ L.fixStamp r.trel + 2 * L.periodNs r.func) .a 0 ⟨.trail, .b, 0, 0, 0, Vector.replicate 4 0⟩ (cores (Uf [(Reg.CM_STATUS_PAIRED, 0), (Reg.ROLE_FUNC_ROLE 3, 1), (Reg.ROLE_FUNC_ACT 3, 0)]))) ∧
    ((fun (l : LaneId) (core : Core) (r : RefRecord) (L : Lane) => L.coreLive core = true ∧ L.paired (pairOf core) = true ∧ (vget L.core core).obuf.length < 128 ∧ L.occupancy core < 128 ∧ (vget L.core core).run ≠ .rom) .a 1 ⟨.trail, .b, 0, 0, 0, Vector.replicate 4 0⟩ (cores (Uf [(Reg.CM_STATUS_PAIRED, 1)]))) ∧
    ((fun (l : LaneId) (core : Core) (r : RefRecord) (L : Lane) => L.firmware = true ∧ L.coreLive core = true ∧ L.paired (pairOf core) = false ∧ L.debugged (pairOf core) = false ∧ pairOf core = 1) .a 2 ⟨.trail, .b, 0, 0, 0, Vector.replicate 4 0⟩ (cores (Uf [(Reg.CM_STATUS_PAIRED, 0)]))) ∧
    ((fun (l : LaneId) (core : Core) (r : RefRecord) (L : Lane) => L.firmware = true ∧ L.coreLive core = true ∧ L.paired (pairOf core) = false ∧ L.debugged (pairOf core) = false ∧ pairOf core = 0 ∧ L.role r.func ≠ 1 ∧ (L.fn r.func).stopSend = none) .a 1 ⟨.trail, .b, 0, 0, 0, Vector.replicate 4 0⟩ (cores (Uf [(Reg.CM_STATUS_PAIRED, 0)]))) ∧
    ((fun (l : LaneId) (sd : Side) (r : RefRecord) (L : Lane) => L.firmware = true ∧ r.lane = L.id.nb sd ∧ L.winterTorque r.func = false ∧ L.refOk r = true) .a .next ⟨.trail, .b, 5, 0, 0, Vector.replicate 4 0⟩ ((Uf [(Reg.ROLE_FUNC_ACT 3, 1)]))) ∧
    ((fun (l : LaneId) (sd : Side) (r : RefRecord) (L : Lane) => L.firmware = true ∧ r.lane = L.id.nb sd ∧ L.winterTorque r.func = false ∧ L.refOk r = false) .a .next ⟨.trail, .b, 5, 0, 0, Vector.replicate 4 0⟩ (U)) ∧
    ((fun (l : LaneId) (dt : Nat) (f : Func) (sd : Side) (L : Lane) => L.serves f = true ∧ L.role f ≠ 1 ∧ (L.pass dt).due (.watchdog f) (L.watchdogNs f + 1) = true ∧ L.sideOf (L.rd (Reg.ROLE_FUNC_ACT f.code)) = some sd) .a 1000000000000 .park .next ({ serving [.park] [(Reg.ROLE_FUNC_ACT 4, 1)] with timers := [(.watchdog .park, 0)] })) ∧
    ((fun (l : LaneId) (dt : Nat) (f : Func) (L : Lane) => L.serves f = true ∧ ∃ n ∈ L.intakesOf f, (L.pass dt).due (.hold n f) (L.holdLimit f) = true) .a 1000000000000 .park ({ serving [.park] [] with timers := [(.hold 3 .park, 0)], start := { parkImg with phase := .running } })) := by
  and_intros <;> decide +kernel

theorem witness_equinox_and_release :
    ((fun (l : LaneId) (dt : Nat) (f : Func) (sr br : Nat) (a : AuthIn) (e : Nat) (L : Lane) => L.firmware = true ∧ L.present f = true ∧ (L.pass dt).releaseTime f ≠ (L.fn f).released ∧ (L.fn f).commit = some e ∧ e + 20000 ≤ ((L.pass dt).onFn f (fun x => { x with released := (L.pass dt).releaseTime f })).releaseEl f ∧ L.rd (Reg.ROLE_FUNC_ACT f.code) < 3 ∧ L.rd (Reg.ROLE_FUNC_STB f.code) < 3 ∧ L.rd (Reg.ROLE_FUNC_ARB f.code) < 3) .a 250000 .park 0 0 ⟨false, false, 0, 0⟩ 0 ({ serving [.park] [(Reg.ROLE_FUNC_ACT 4, 0), (Reg.ROLE_FUNC_STB 4, 1), (Reg.ROLE_FUNC_ARB 4, 2)] with start := { parkImg with phase := .running }, roles := { (serving [.park] []).roles with fn := vupd (serving [.park] []).roles.fn 4 (fun x => { x with commit := some 0 }) } })) ∧
    ((fun (l : LaneId) (dt : Nat) (f : Func) (sr br : Nat) (a : AuthIn) (L : Lane) => L.firmware = true ∧ L.present f = true ∧ (L.pass dt).releaseTime f ≠ (L.fn f).released ∧ (L.fn f).commit = none) .a 250000 .park 0 0 ⟨false, false, 0, 0⟩ ({ U with start := { parkImg with phase := .running } })) ∧
    ((fun (l : LaneId) (dt : Nat) (L : Lane) => L.firmware = true ∧ L.roles.eqxSeen < (L.pass dt).now / (max 1 L.img.eqxS * 1000000000)) .a 1000000000 (U)) ∧
    ((fun (l : LaneId) (dt : Nat) (f : Func) (L : Lane) => (L.fn f).eqxDue = true ∧ (L.pass dt).due (.eqxDue f) (L.img.eqxS * 1000000000) = true) .a 0 .park ({ U with timers := [(.eqxDue .park, 0)], roles := { U.roles with fn := vupd U.roles.fn 4 (fun x => { x with eqxDue := true }) } })) := by
  and_intros <;> decide +kernel

theorem witness_autumn_and_winter :
    ((fun (l : LaneId) (dt : Nat) (f : Func) (L : Lane) => L.serves f = true ∧ L.mode f = 1 ∧ (L.pass dt).due (.autumn f) 0 = true) .a 0 .park ({ serving [.park] [(Reg.ROLE_FUNC_MODE 4, 1)] with timers := [(.autumn .park, 0)] })) ∧
    ((fun (l : LaneId) (dt : Nat) (known : Bool) (L : Lane) => L.winterBrake = true ∧ (L.pass dt).due .standstill (if known then 2000000000 else 10000000000) = true) .a 2000000000 true ({ serving [.brake] [(Reg.ROLE_FUNC_MODE 2, 2)] with timers := [(.standstill, 0)] })) ∧
    ((fun (l : LaneId) (dt : Nat) (f : Func) (L : Lane) => L.mode f = 1 ∧ (L.fn f).causes = [6] ∧ (L.pass dt).due (.causeClear f 6) 1000000000 = true) .a 1000000000 .steer ({ Uf [(Reg.ROLE_FUNC_MODE 0, 1)] with timers := [(.causeClear .steer 6, 0)], roles := { U.roles with fn := vupd U.roles.fn 0 (fun x => { x with causes := [6] }) } })) ∧
    ((fun (l : LaneId) (dt : Nat) (f : Func) (L : Lane) => ∀ c : Fin 2, funcOfChannel c ≠ f ∨ (L.pass dt).zClear c = true) .a 0 .park (U)) ∧
    ((fun (l : LaneId) (dt : Nat) (f : Func) (h : Fin 4) (L : Lane) => L.mode f = 1 ∧ (L.pass dt).due (.speedReq f) 1000000000 = true ∧ (L.portOfKind 0 = none ∨ L.roles.hostSeen = false ∨ L.roles.hostLost = true) ∧ L.portOfKind 2 = some h) .a 1000000000 .steer 0 ({ Ib [(Reg.ROLE_FUNC_MODE 0, 1)] with timers := [(.speedReq .steer, 0)] })) ∧
    ((fun (l : LaneId) (dt : Nat) (f : Func) (h : Fin 4) (q : Fin 16) (L : Lane) => L.mode f = 1 ∧ (L.pass dt).due (.speedReq f) 1000000000 = true ∧ L.portOfKind 0 = some h ∧ L.roles.hostSeen = true ∧ L.roles.hostLost = false ∧ L.replyQueue h = some q ∧ L.hostLocked h = true ∧ L.queueFree q = true) .a 1000000000 .steer 0 1 ({ Hp 0 0 [(Reg.ROLE_FUNC_MODE 0, 1)] with timers := [(.speedReq .steer, 0)], roles := { W.roles with hostSeen := true } })) ∧
    ((fun (l : LaneId) (dt : Nat) (f : Func) (L : Lane) => L.mode f ≠ 1) .a 0 .steer (U)) ∧
    ((fun (l : LaneId) (dt : Nat) (L : Lane) => L.gstate = 2 ∧ L.is Reg.LG_CONT_KMCMD = true ∧ L.kmAgrees = true ∧ L.is Reg.LG_STATUS_SLOSS = false) .a 0 ((Uf [(Reg.LG_STATUS_GSTATE, 2), (Reg.LG_CONT_KMCMD, 1), (Reg.LG_CONT_KM_NO, 1)]))) ∧
    ((fun (l : LaneId) (dt : Nat) (L : Lane) => L.firmware = true ∧ L.roles.hostSeen = true ∧ L.roles.hostLost = false ∧ (L.pass dt).due .vehicleHost 100000000 = true) .a 100000000 ({ U with timers := [(.vehicleHost, 0)], roles := { U.roles with hostSeen := true } })) ∧
    ((fun (l : LaneId) (p : Pair) (mask : BitVec 5) (L : Lane) => L.svc = 2 ∧ L.pairLive p = true) .a 0 31 ((Uf [(Reg.SYS_STATE_STATE, 2)]))) := by
  and_intros <;> decide +kernel

theorem witness_core_accesses :
    ((fun (l : LaneId) (c : Core) (a n v : Nat) (L : Lane) => L.coreLive c = true ∧ L.paired (pairOf c) = true ∧ accessOk (some c) a n true = true ∧ inWindow (pairOf c) a = false ∧ a ≠ 0x20020010 ∧ (vget L.core c).obuf.length < 128 ∧ L.occupancy c < 128) .a 0 0x20010084 4 0 ((cores (Uf [(Reg.CM_STATUS_PAIRED, 3)])))) ∧
    ((fun (l : LaneId) (c : Core) (a n v : Nat) (L : Lane) => L.coreLive c = true ∧ accessOk (some c) a n true = false) .a 0 0x20010081 4 0 ((cores U))) ∧
    ((fun (l : LaneId) (c : Core) (a n v : Nat) (L : Lane) => L.coreLive c = true ∧ L.paired (pairOf c) = false ∧ (L.debugged (pairOf c) && isOdd c) = false ∧ accessOk (some c) a n true = true ∧ placeOf a = .sram ∧ inWindow (pairOf c) a = false ∧ L.commitHolds a n = false ∧ L.ret.stalled = [] ∧ L.waitsAt (some c) = none ∧ L.asleep a = none ∧ L.groupHolds a n = false) .a 0 0x10300000 4 77 ((cores (Uf [(Reg.CM_STATUS_PAIRED, 0)])))) ∧
    ((fun (l : LaneId) (c : Core) (a n v : Nat) (L : Lane) => L.coreLive c = true ∧ accessOk (some c) a n true = true ∧ inWindow (pairOf c) a = true) .a 1 0x10000000 4 77 ((cores U))) ∧
    ((fun (l : LaneId) (c : Core) (a n v : Nat) (L : Lane) => L.coreLive c = true ∧ accessOk (some c) a n true = true ∧ placeOf a = .sram ∧ L.commitHolds a n = false ∧ L.ret.stalled = [] ∧ L.waitsAt (some c) = none ∧ L.asleep a = none ∧ L.groupHolds a n = false) .a 0 0x10300000 4 77 ((cores U))) ∧
    ((fun (l : LaneId) (c : Core) (a n v : Nat) (rest : List (Option Nat)) (L : Lane) => L.coreLive c = true ∧ L.paired (pairOf c) = true ∧ a < 2 ^ 64 ∧ accessOk (some c) a n false = true ∧ inWindow (pairOf c) a = false ∧ 0x40000 ≤ a ∧ (vget L.pair (pairOf c)).repl = some v :: rest ∧ (vget L.core c).loads < (vget L.pair (pairOf c)).replBase + rest.length + 1) .a 1 0x20010080 4 7 [] ({ (cores (Uf [(Reg.CM_STATUS_PAIRED, 3)])) with pair := Vector.replicate 2 ⟨[some 7], 0, false, [], 0, false⟩ })) ∧
    ((fun (l : LaneId) (c : Core) (a n : Nat) (L : Lane) => L.coreLive c = true ∧ L.paired (pairOf c) = true ∧ a < 2 ^ 64 ∧ accessOk (some c) a n false = true ∧ inWindow (pairOf c) a = false ∧ placeOf a = .sram ∧ L.ret.stalled = [] ∧ L.waitsAt (some c) = none ∧ L.asleep a = none ∧ L.groupHolds a n = false ∧ (vget L.pair (pairOf c)).repl.length < 64 ∧ (vget L.pair (pairOf c)).repl.all (fun x => x.isSome) = true ∧ (vget L.pair (pairOf c)).replBase + (vget L.pair (pairOf c)).repl.length ≤ (vget L.core c).loads) .a 0 0x10300000 4 ((cores (Uf [(Reg.CM_STATUS_PAIRED, 3)])))) ∧
    ((fun (l : LaneId) (c : Core) (a n : Nat) (L : Lane) => L.coreLive c = true ∧ a < 2 ^ 64 ∧ accessOk (some c) a n false = false) .a 0 3 4 ((cores U))) ∧
    ((fun (l : LaneId) (c : Core) (a n : Nat) (L : Lane) => L.coreLive c = true ∧ L.paired (pairOf c) = false ∧ a < 2 ^ 64 ∧ accessOk (some c) a n false = true ∧ inWindow (pairOf c) a = false ∧ (placeOf a = .sram ∨ 0x20010000 ≤ a ∧ a < 0x20020000) ∧ L.ret.stalled = [] ∧ L.waitsAt (some c) = none ∧ L.asleep a = none ∧ L.groupHolds a n = false) .a 0 0x20010080 4 ((cores (Uf [(Reg.CM_STATUS_PAIRED, 0)])))) ∧
    ((fun (l : LaneId) (c : Core) (f : Func) (v : Nat) (L : Lane) => L.coreLive c = true ∧ L.ret.stalled = [] ∧ L.waitsAt (some c) = none ∧ L.is Reg.ROLE_CTRL_LOCK = false ∧ 5 ≤ nbits v 0 10 ∧ nbits v 0 10 ≤ 100 ∧ 1 ≤ nbits v 12 2) .a 0 .steer 0x1005 ((cores U))) ∧
    ((fun (l : LaneId) (c : Core) (f : Func) (v : Nat) (L : Lane) => L.coreLive c = true ∧ L.ret.stalled = [] ∧ L.waitsAt (some c) = none ∧ L.is Reg.ROLE_CTRL_LOCK = true) .a 0 .park 0x2006 ((cores (Uf [(Reg.ROLE_CTRL_LOCK, 1)])))) ∧
    ((fun (l : LaneId) (c : Core) (a n v : Nat) (r : RegDef) (L : Lane) => L.coreLive c = true ∧ accessOk (some c) a n true = true ∧ a / 0x10000 = 0x2009 ∧ regAt a = some r ∧ L.groupHolds a n = false ∧ L.ret.stalled = [] ∧ L.waitsAt (some c) = none ∧ L.asleep a = none) .a 0 0x20090004 4 0x85 ⟨0x20090004, 1, 0x0, 1, 0x0, 32, [⟨0, 8, .rwl, .span 128 247⟩]⟩ ((cores U))) ∧
    ((fun (l : LaneId) (c : Core) (a n v : Nat) (L : Lane) => L.coreLive c = true ∧ accessOk (some c) a n true = false) .a 0 0x20010081 4 0 ((cores U))) := by
  and_intros <;> decide +kernel

theorem witness_checkpoints_and_mismatches :
    ((fun (l : LaneId) (c : Core) (tag : Word) (L : Lane) => L.coreLive c = true ∧ L.paired (pairOf c) = false) .a 0 5 ((cores (Uf [(Reg.CM_STATUS_PAIRED, 0)])))) ∧
    ((fun (l : LaneId) (c : Core) (tag : Word) (L : Lane) => L.coreLive c = true ∧ L.paired (pairOf c) = true ∧ tag ≠ 0xFFFFFFFF ∧ (vget L.core (partner c)).marks = []) .a 0 5 ((cores (Uf [(Reg.CM_STATUS_PAIRED, 3)])))) ∧
    ((fun (l : LaneId) (c : Core) (tag : Word) (b : Mark) (L : Lane) => L.coreLive c = true ∧ L.paired (pairOf c) = true ∧ tag ≠ 0xFFFFFFFF ∧ (vget L.core c).marks = [] ∧ (vget L.core (partner c)).marks = [b] ∧ b.num = ((vget L.core c).ckpt + 1) % 2 ^ 32 ∧ b.poisoned = false ∧ (vget L.core c).poison = false ∧ b.sig = BitVec.ofNat 64 (if (vget L.core c).marked then sigInit else L.rd (Reg.CM_SIG c.val)) ∧ b.count = (vget L.core c).count ∧ b.tag = tag ∧ b.writes = [] ∧ (vget L.core c).obuf = []) .a 1 5 ⟨0, 1, -1, 0, 5, false, []⟩ (markLane)) ∧
    ((fun (l : LaneId) (c : Core) (tag : Word) (b : Mark) (L : Lane) => L.coreLive c = true ∧ L.paired (pairOf c) = true ∧ tag ≠ 0xFFFFFFFF ∧ (vget L.core c).marks = [] ∧ (vget L.core (partner c)).marks = [b] ∧ b.num = ((vget L.core c).ckpt + 1) % 2 ^ 32 ∧ b.sig ≠ BitVec.ofNat 64 (if (vget L.core c).marked then sigInit else L.rd (Reg.CM_SIG c.val))) .a 1 5 ⟨0, 1, 9, 0, 5, false, []⟩ ({ markLane with core := vupd markLane.core 0 (fun x => { x with marks := [⟨0, 1, 9, 0, 5, false, []⟩] }) })) ∧
    ((fun (l : LaneId) (dt : Nat) (p : Pair) (m : Mark) (ms : List Mark) (L : Lane) => L.firmware = true ∧ L.paired p = true ∧ (vget L.core (evenCore p)).marks = m :: ms ∧ (vget L.core (oddCore p)).marks = [] ∧ m.time + L.rd Reg.CM_CTRL_LAG * 1000 ≤ (L.pass dt).el) .a 1000000 0 ⟨0, 1, -1, 0, 5, false, []⟩ [] (markLane)) ∧
    ((fun (l : LaneId) (dt : Nat) (p : Pair) (L : Lane) => L.firmware = true ∧ L.selfTesting p = true ∧ L.rd (retryFld p) < L.rd Reg.CM_CTRL_RETRY_MAX ∧ L.entryOk p = true ∧ (vget L.pair p).debugWaits = false ∧ (p = 0 → L.is Reg.LG_CHAL_SUSP = true → (L.pass dt).due (.selfTest 0) 3500001 = false)) .a 0 1 ((Uf [(Reg.CM_STATUS_SELFTEST, 2), (Reg.CM_CTRL_RETRY_MAX, 3), (Reg.CM_ENTRY 1, 0x10300000)]))) ∧
    ((fun (l : LaneId) (dt : Nat) (p : Pair) (odd : Bool) (L : Lane) => L.firmware = true ∧ L.selfTesting p = true ∧ L.entryOk p = true ∧ (vget L.pair p).debugWaits = false ∧ (p = 0 → L.is Reg.LG_CHAL_SUSP = true → (L.pass dt).due (.selfTest 0) 3500001 = false)) .a 0 1 true ((Uf [(Reg.CM_STATUS_SELFTEST, 2), (Reg.CM_ENTRY 1, 0x10300000)]))) ∧
    ((fun (l : LaneId) (dt : Nat) (p : Pair) (L : Lane) => L.firmware = true ∧ L.selfTesting p = true) .a 0 0 ((Uf [(Reg.CM_STATUS_SELFTEST, 3)]))) ∧
    ((fun (l : LaneId) (c : Core) (L : Lane) => L.firmware = true) .a 3 (U)) := by
  and_intros <;> decide +kernel

theorem witness_debugger :
    ((fun (l : LaneId) (c : Core) (L : Lane) => L.powered = true ∧ L.scope 0 = true ∧ L.hartThere c = true ∧ L.hartOn c = true ∧ L.selfTesting (pairOf c) = false ∧ L.paired (pairOf c) = true ∧ L.is Reg.BT_SLICE_STAT_RUNNING = false ∧ (vget L.core c).run = .running) .a 0 ((cores (Uf [(Reg.SE_DBG_OPEN, 1), (Reg.SE_DBG_SCOPE, 1), (Reg.CM_STATUS_PAIRED, 3)])))) ∧
    ((fun (l : LaneId) (c : Core) (L : Lane) => L.powered = true ∧ L.scope 0 = false) .a 0 (U)) ∧
    ((fun (l : LaneId) (c : Core) (cmd : Word) (L : Lane) => L.powered = true ∧ L.scope 0 = false) .a 0 0 (U)) ∧
    ((fun (l : LaneId) (c : Core) (i : Fin 32) (L : Lane) => L.powered = true ∧ L.scope 0 = true ∧ L.hartThere c = true ∧ L.hartOn c = true ∧ L.selfTesting (pairOf c) = false ∧ L.paired (pairOf c) = false ∧ L.is Reg.BT_SLICE_STAT_RUNNING = false ∧ vget L.dbg.haltreq (partner c) = false ∧ (vget L.core c).run = .debugHalted) .a 0 1 ({ (cores (Uf [(Reg.SE_DBG_OPEN, 1), (Reg.SE_DBG_SCOPE, 1), (Reg.CM_STATUS_PAIRED, 0), (Reg.CM_STATUS_SELFTEST, 0), (Reg.CM_STATUS_HALTED, 0)])) with core := Vector.replicate 4 { Init.core with run := .debugHalted } })) ∧
    ((fun (l : LaneId) (c : Core) (i : Fin 32) (L : Lane) => L.powered = true ∧ L.scope 0 = true ∧ L.hartThere c = true ∧ L.hartOn c = true ∧ L.selfTesting (pairOf c) = false ∧ L.paired (pairOf c) = false ∧ L.is Reg.BT_SLICE_STAT_RUNNING = false ∧ vget L.dbg.haltreq (partner c) = false ∧ (vget L.core c).run = .debugHalted ∧ i ≠ 0) .a 0 1 ({ (cores (Uf [(Reg.SE_DBG_OPEN, 1), (Reg.SE_DBG_SCOPE, 1), (Reg.CM_STATUS_PAIRED, 0), (Reg.CM_STATUS_SELFTEST, 0), (Reg.CM_STATUS_HALTED, 0)])) with core := Vector.replicate 4 { Init.core with run := .debugHalted } })) ∧
    ((fun (l : LaneId) (a n : Nat) (d : Option Nat) (L : Lane) => L.powered = true ∧ L.scope 1 = false) .a 0 4 none (U)) ∧
    ((fun (l : LaneId) (a n v : Nat) (L : Lane) => L.powered = true ∧ L.scope 1 = true ∧ (n = 4 ∨ n = 8) ∧ accessOk none a n true = true ∧ placeOf a = .sram ∧ L.sliceHolds a = false ∧ L.commitHolds a n = false ∧ L.ret.stalled = [] ∧ L.waitsAt none = none ∧ L.asleep a = none ∧ L.groupHolds a n = false) .a 0x10000000 4 77 ((Uf [(Reg.SE_DBG_OPEN, 1), (Reg.SE_DBG_SCOPE, 2)]))) ∧
    ((fun (l : LaneId) (a n v : Nat) (L : Lane) => L.powered = true ∧ L.scope 1 = true ∧ L.inManufacture = false ∧ Lane.busProtected a = true) .a 0x20170000 4 0 ({ (Uf [(Reg.SE_DBG_OPEN, 1), (Reg.SE_DBG_SCOPE, 2)]) with sec := { U.sec with lc := 1 } })) ∧
    ((fun (l : LaneId) (c : Core) (L : Lane) => L.powered = true ∧ L.scope 0 = true ∧ L.hartThere c = true ∧ (vget L.core c).run = .debugHalted) .a 0 ({ (Uf [(Reg.SE_DBG_OPEN, 1), (Reg.SE_DBG_SCOPE, 1)]) with core := Vector.replicate 4 { Init.core with run := .debugHalted } })) ∧
    ((fun (l : LaneId) (c : Core) (L : Lane) => L.firmware = true ∧ (vget L.core c).run = .running) .a 2 ((cores U))) ∧
    ((fun (l : LaneId) (L : Lane) => L.firmware = true) .a (U)) := by
  and_intros <;> decide +kernel

theorem witness_jtag :
    ((fun (l : LaneId) (L : Lane) => L.powered = true ∧ L.inManufacture = false) .a ({ U with sec := { U.sec with lc := 1 } })) ∧
    ((fun (l : LaneId) (L : Lane) => L.powered = true ∧ L.inManufacture = true) .a (U)) ∧
    ((fun (l : LaneId) (L : Lane) => L.powered = true) .a (U)) ∧
    ((fun (l : LaneId) (L : Lane) => L.powered = true ∧ L.inManufacture = false) .a ({ U with sec := { U.sec with lc := 1 } })) ∧
    ((fun (l : LaneId) (L : Lane) => L.powered = true ∧ L.inManufacture = true) .a (U)) ∧
    ((fun (l : LaneId) (L : Lane) => L.powered = true) .a (U)) ∧
    ((fun (l : LaneId) (a : Nat) (L : Lane) => L.powered = true ∧ L.tokenOpen = false ∧ a ≠ 0x30 ∧ a ≠ 0x11 ∧ a ≠ 0x10) .a 4 (U)) ∧
    ((fun (l : LaneId) (L : Lane) => L.powered = true ∧ L.tokenOpen = false) .a (U)) ∧
    ((fun (l : LaneId) (L : Lane) => L.powered = true ∧ L.tokenOpen = false) .a (U)) ∧
    ((fun (l : LaneId) (a : Nat) (w : Word) (L : Lane) => L.powered = true ∧ L.tokenOpen = false ∧ a ≠ 0x30 ∧ a ≠ 0x10) .a 4 7 (U)) ∧
    ((fun (l : LaneId) (w : Word) (L : Lane) => L.powered = true ∧ L.tokenOpen = true ∧ L.dbg.sbReadOnAddr = false) .a 7 ((Uf [(Reg.SE_DBG_OPEN, 1)]))) ∧
    ((fun (l : LaneId) (L : Lane) => L.powered = true) .a (U)) := by
  and_intros <;> decide +kernel

theorem witness_integer_instructions :
    ((fun (l : LaneId) (n : Engine) (L : Lane) => L.deAt n .nop = true) .a 0 ((deLane 0 .nop))) ∧
    ((fun (l : LaneId) (n : Engine) (rd ra rb : Reg) (L : Lane) => L.deAt n (.add rd ra rb) = true) .a 0 3 1 2 ((deLane 0 (.add 3 1 2)))) ∧
    ((fun (l : LaneId) (n : Engine) (rd ra rb : Reg) (L : Lane) => L.deAt n (.sub rd ra rb) = true) .a 0 3 1 2 ((deLane 0 (.sub 3 1 2)))) ∧
    ((fun (l : LaneId) (n : Engine) (rd ra rb : Reg) (L : Lane) => L.deAt n (.and rd ra rb) = true) .a 0 3 1 2 ((deLane 0 (.and 3 1 2)))) ∧
    ((fun (l : LaneId) (n : Engine) (rd ra rb : Reg) (L : Lane) => L.deAt n (.or rd ra rb) = true) .a 0 3 1 2 ((deLane 0 (.or 3 1 2)))) ∧
    ((fun (l : LaneId) (n : Engine) (rd ra rb : Reg) (L : Lane) => L.deAt n (.xor rd ra rb) = true) .a 0 3 1 2 ((deLane 0 (.xor 3 1 2)))) ∧
    ((fun (l : LaneId) (n : Engine) (rd ra rb : Reg) (L : Lane) => L.deAt n (.sll rd ra rb) = true) .a 0 3 1 2 ((deLane 0 (.sll 3 1 2)))) ∧
    ((fun (l : LaneId) (n : Engine) (rd ra rb : Reg) (L : Lane) => L.deAt n (.srl rd ra rb) = true) .a 0 3 1 2 ((deLane 0 (.srl 3 1 2)))) ∧
    ((fun (l : LaneId) (n : Engine) (rd ra rb : Reg) (L : Lane) => L.deAt n (.sra rd ra rb) = true) .a 0 3 1 2 ((deLane 0 (.sra 3 1 2)))) ∧
    ((fun (l : LaneId) (n : Engine) (rd ra rb : Reg) (L : Lane) => L.deAt n (.slt rd ra rb) = true) .a 0 3 1 2 ((deLane 0 (.slt 3 1 2)))) ∧
    ((fun (l : LaneId) (n : Engine) (rd ra rb : Reg) (L : Lane) => L.deAt n (.sltu rd ra rb) = true) .a 0 3 1 2 ((deLane 0 (.sltu 3 1 2)))) ∧
    ((fun (l : LaneId) (n : Engine) (rd ra rb : Reg) (L : Lane) => L.deAt n (.min rd ra rb) = true) .a 0 3 1 2 ((deLane 0 (.min 3 1 2)))) ∧
    ((fun (l : LaneId) (n : Engine) (rd ra rb : Reg) (L : Lane) => L.deAt n (.max rd ra rb) = true) .a 0 3 1 2 ((deLane 0 (.max 3 1 2)))) ∧
    ((fun (l : LaneId) (n : Engine) (rd ra rb : Reg) (L : Lane) => L.deAt n (.mul rd ra rb) = true) .a 0 3 1 2 ((deLane 0 (.mul 3 1 2)))) ∧
    ((fun (l : LaneId) (n : Engine) (rd ra : Reg) (imm : BitVec 16) (L : Lane) => L.deAt n (.addi rd ra imm) = true) .a 0 3 1 0x8004 ((deLane 0 (.addi 3 1 0x8004)))) ∧
    ((fun (l : LaneId) (n : Engine) (rd ra : Reg) (imm : BitVec 16) (L : Lane) => L.deAt n (.andi rd ra imm) = true) .a 0 3 1 0x8004 ((deLane 0 (.andi 3 1 0x8004)))) ∧
    ((fun (l : LaneId) (n : Engine) (rd ra : Reg) (imm : BitVec 16) (L : Lane) => L.deAt n (.ori rd ra imm) = true) .a 0 3 1 0x8004 ((deLane 0 (.ori 3 1 0x8004)))) ∧
    ((fun (l : LaneId) (n : Engine) (rd ra : Reg) (imm : BitVec 16) (L : Lane) => L.deAt n (.xori rd ra imm) = true) .a 0 3 1 0x8004 ((deLane 0 (.xori 3 1 0x8004)))) ∧
    ((fun (l : LaneId) (n : Engine) (rd : Reg) (imm : BitVec 16) (L : Lane) => L.deAt n (.lui rd imm) = true) .a 0 3 0x8004 ((deLane 0 (.lui 3 0x8004)))) ∧
    ((fun (l : LaneId) (n : Engine) (rd ra sh : Reg) (L : Lane) => L.deAt n (.slli rd ra sh) = true) .a 0 3 1 5 ((deLane 0 (.slli 3 1 5)))) ∧
    ((fun (l : LaneId) (n : Engine) (rd ra sh : Reg) (L : Lane) => L.deAt n (.srli rd ra sh) = true) .a 0 3 1 5 ((deLane 0 (.srli 3 1 5)))) ∧
    ((fun (l : LaneId) (n : Engine) (rd ra sh : Reg) (L : Lane) => L.deAt n (.srai rd ra sh) = true) .a 0 3 1 5 ((deLane 0 (.srai 3 1 5)))) := by
  and_intros <;> decide +kernel

theorem witness_float_and_fixed_instructions :
    ((fun (l : LaneId) (n : Engine) (rd ra rb : Reg) (L : Lane) => L.deAt n (.fadd rd ra rb) = true) .a 0 3 1 2 ((deLane 0 (.fadd 3 1 2)))) ∧
    ((fun (l : LaneId) (n : Engine) (rd ra rb : Reg) (L : Lane) => L.deAt n (.fsub rd ra rb) = true) .a 0 3 1 2 ((deLane 0 (.fsub 3 1 2)))) ∧
    ((fun (l : LaneId) (n : Engine) (rd ra rb : Reg) (L : Lane) => L.deAt n (.fmul rd ra rb) = true) .a 0 3 1 2 ((deLane 0 (.fmul 3 1 2)))) ∧
    ((fun (l : LaneId) (n : Engine) (rd ra rb : Reg) (L : Lane) => L.deAt n (.fma rd ra rb) = true) .a 0 3 1 2 ((deLane 0 (.fma 3 1 2)))) ∧
    ((fun (l : LaneId) (n : Engine) (rd ra rb : Reg) (L : Lane) => L.deAt n (.fmin rd ra rb) = true) .a 0 3 1 2 ((deLane 0 (.fmin 3 1 2)))) ∧
    ((fun (l : LaneId) (n : Engine) (rd ra rb : Reg) (L : Lane) => L.deAt n (.fmax rd ra rb) = true) .a 0 3 1 2 ((deLane 0 (.fmax 3 1 2)))) ∧
    ((fun (l : LaneId) (n : Engine) (rd ra : Reg) (L : Lane) => L.deAt n (.fneg rd ra) = true) .a 0 3 1 ((deLane 0 (.fneg 3 1)))) ∧
    ((fun (l : LaneId) (n : Engine) (rd ra : Reg) (L : Lane) => L.deAt n (.fabs rd ra) = true) .a 0 3 1 ((deLane 0 (.fabs 3 1)))) ∧
    ((fun (l : LaneId) (n : Engine) (rd ra rb : Reg) (L : Lane) => L.deAt n (.flt rd ra rb) = true) .a 0 3 1 2 ((deLane 0 (.flt 3 1 2)))) ∧
    ((fun (l : LaneId) (n : Engine) (rd ra : Reg) (L : Lane) => L.deAt n (.ftoi rd ra) = true) .a 0 3 1 ((deLane 0 (.ftoi 3 1)))) ∧
    ((fun (l : LaneId) (n : Engine) (rd ra : Reg) (L : Lane) => L.deAt n (.itof rd ra) = true) .a 0 3 1 ((deLane 0 (.itof 3 1)))) ∧
    ((fun (l : LaneId) (n : Engine) (rd ra f : Reg) (L : Lane) => L.deAt n (.ftoq rd ra f) = true) .a 0 3 1 16 ((deLane 0 (.ftoq 3 1 16)))) ∧
    ((fun (l : LaneId) (n : Engine) (rd ra f : Reg) (L : Lane) => L.deAt n (.qtof rd ra f) = true) .a 0 3 1 16 ((deLane 0 (.qtof 3 1 16)))) ∧
    ((fun (l : LaneId) (n : Engine) (rd ra rb f : Reg) (L : Lane) => L.deAt n (.qmul rd ra rb f) = true) .a 0 3 1 2 16 ((deLane 0 (.qmul 3 1 2 16)))) ∧
    ((fun (l : LaneId) (n : Engine) (rd ra rb : Reg) (L : Lane) => L.deAt n (.qadd rd ra rb) = true) .a 0 3 1 2 ((deLane 0 (.qadd 3 1 2)))) ∧
    ((fun (l : LaneId) (n : Engine) (rd ra rb : Reg) (L : Lane) => L.deAt n (.qsub rd ra rb) = true) .a 0 3 1 2 ((deLane 0 (.qsub 3 1 2)))) ∧
    ((fun (l : LaneId) (n : Engine) (rd ra : Reg) (L : Lane) => L.deAt n (.sincos rd ra) = true) .a 0 4 1 ((deLane 0 (.sincos 4 1)))) ∧
    ((fun (l : LaneId) (n : Engine) (rd ra rb : Reg) (L : Lane) => L.deAt n (.atan2 rd ra rb) = true) .a 0 3 1 2 ((deLane 0 (.atan2 3 1 2)))) ∧
    ((fun (l : LaneId) (n : Engine) (rd ra : Reg) (L : Lane) => L.deAt n (.recip rd ra) = true) .a 0 3 1 ((deLane 0 (.recip 3 1)))) ∧
    ((fun (l : LaneId) (n : Engine) (rd ra : Reg) (L : Lane) => L.deAt n (.rsqrt rd ra) = true) .a 0 3 1 ((deLane 0 (.rsqrt 3 1)))) ∧
    ((fun (l : LaneId) (n : Engine) (rd ra : Reg) (L : Lane) => L.deAt n (.sqrt rd ra) = true) .a 0 3 1 ((deLane 0 (.sqrt 3 1)))) := by
  and_intros <;> decide +kernel

theorem witness_memory_and_port_instructions :
    ((fun (l : LaneId) (n : Engine) (rd ra : Reg) (imm : BitVec 16) (L : Lane) => L.deAt n (.ld rd ra imm) = true ∧ ((L.de n).reg ra + imm.signExtend 32).toNat % 4 = 0 ∧ ((L.de n).reg ra + imm.signExtend 32).toNat < 65536) .a 0 3 1 8 ((deLane 0 (.ld 3 1 8)))) ∧
    ((fun (l : LaneId) (n : Engine) (rd ra : Reg) (imm : BitVec 16) (L : Lane) => L.deAt n (.ld rd ra imm) = true ∧ (((L.de n).reg ra + imm.signExtend 32).toNat % 4 ≠ 0 ∨ 65536 ≤ ((L.de n).reg ra + imm.signExtend 32).toNat)) .a 0 3 1 9 ((deLane 0 (.ld 3 1 9)))) ∧
    ((fun (l : LaneId) (n : Engine) (rd ra : Reg) (imm : BitVec 16) (L : Lane) => L.deAt n (.st rd ra imm) = true ∧ ((L.de n).reg ra + imm.signExtend 32).toNat % 4 = 0 ∧ ((L.de n).reg ra + imm.signExtend 32).toNat < 65536) .a 0 3 1 8 ((deLane 0 (.st 3 1 8)))) ∧
    ((fun (l : LaneId) (n : Engine) (rd ra : Reg) (imm : BitVec 16) (L : Lane) => L.deAt n (.st rd ra imm) = true ∧ (((L.de n).reg ra + imm.signExtend 32).toNat % 4 ≠ 0 ∨ 65536 ≤ ((L.de n).reg ra + imm.signExtend 32).toNat)) .a 0 3 1 9 ((deLane 0 (.st 3 1 9)))) ∧
    ((fun (l : LaneId) (n : Engine) (rd : Reg) (port : BitVec 16) (v : Word) (L : Lane) => L.deAt n (.inp rd port) = true ∧ L.portIn n port.toNat = some v) .a 0 3 0x053 0 ((deLane 0 (.inp 3 0x053)))) ∧
    ((fun (l : LaneId) (n : Engine) (rd : Reg) (port : BitVec 16) (L : Lane) => L.deAt n (.inp rd port) = true ∧ L.portIn n port.toNat = none) .a 0 3 0x006 ((deLane 0 (.inp 3 0x006)))) ∧
    ((fun (l : LaneId) (n : Engine) (rd : Reg) (k : Fin 6) (L : Lane) => L.deAt n (.outp rd (BitVec.ofNat 16 k.val)) = true ∧ n.val < 3) .a 0 3 5 ((deLane 0 (.outp 3 5)))) ∧
    ((fun (l : LaneId) (n : Engine) (rd : Reg) (k : Fin 4) (L : Lane) => L.deAt n (.outp rd (BitVec.ofNat 16 (0x020 + k.val))) = true ∧ n.val < 3) .a 0 3 3 ((deLane 0 (.outp 3 0x023)))) ∧
    ((fun (l : LaneId) (n : Engine) (rd : Reg) (k : Fin 16) (L : Lane) => L.deAt n (.outp rd (BitVec.ofNat 16 (0x070 + k.val))) = true) .a 3 3 15 ((deLane 3 (.outp 3 0x07F)))) ∧
    ((fun (l : LaneId) (n : Engine) (rd : Reg) (port : BitVec 16) (L : Lane) => L.deAt n (.outp rd port) = true ∧ outOwn n port.toNat = false ∧ outPort n port.toNat = none) .a 3 3 0x000 ((deLane 3 (.outp 3 0x000)))) := by
  and_intros <;> decide +kernel

theorem witness_branches_and_jumps :
    ((fun (l : LaneId) (n : Engine) (ra rb : Reg) (off : BitVec 16) (L : Lane) => L.deAt n (.beq ra rb off) = true ∧ (L.de n).reg ra = (L.de n).reg rb) .a 0 1 2 0xFFFE ((deLane 0 (.beq 1 2 0xFFFE)))) ∧
    ((fun (l : LaneId) (n : Engine) (ra rb : Reg) (off : BitVec 16) (L : Lane) => L.deAt n (.beq ra rb off) = true ∧ ¬((L.de n).reg ra = (L.de n).reg rb)) .a 0 1 2 0xFFFE ((((deLane 0 (.beq 1 2 0xFFFE))).onDe 0 (EngineSt.setReg 2 7)))) ∧
    ((fun (l : LaneId) (n : Engine) (ra rb : Reg) (off : BitVec 16) (L : Lane) => L.deAt n (.bne ra rb off) = true ∧ (L.de n).reg ra ≠ (L.de n).reg rb) .a 0 1 2 0xFFFE ((((deLane 0 (.bne 1 2 0xFFFE))).onDe 0 (EngineSt.setReg 2 7)))) ∧
    ((fun (l : LaneId) (n : Engine) (ra rb : Reg) (off : BitVec 16) (L : Lane) => L.deAt n (.bne ra rb off) = true ∧ ¬((L.de n).reg ra ≠ (L.de n).reg rb)) .a 0 1 2 0xFFFE ((deLane 0 (.bne 1 2 0xFFFE)))) ∧
    ((fun (l : LaneId) (n : Engine) (ra rb : Reg) (off : BitVec 16) (L : Lane) => L.deAt n (.blt ra rb off) = true ∧ ((L.de n).reg ra).toInt < ((L.de n).reg rb).toInt) .a 0 1 2 0xFFFE ((((deLane 0 (.blt 1 2 0xFFFE))).onDe 0 (EngineSt.setReg 2 7)))) ∧
    ((fun (l : LaneId) (n : Engine) (ra rb : Reg) (off : BitVec 16) (L : Lane) => L.deAt n (.blt ra rb off) = true ∧ ¬(((L.de n).reg ra).toInt < ((L.de n).reg rb).toInt)) .a 0 1 2 0xFFFE ((deLane 0 (.blt 1 2 0xFFFE)))) ∧
    ((fun (l : LaneId) (n : Engine) (ra rb : Reg) (off : BitVec 16) (L : Lane) => L.deAt n (.bge ra rb off) = true ∧ ((L.de n).reg rb).toInt ≤ ((L.de n).reg ra).toInt) .a 0 1 2 0xFFFE ((deLane 0 (.bge 1 2 0xFFFE)))) ∧
    ((fun (l : LaneId) (n : Engine) (ra rb : Reg) (off : BitVec 16) (L : Lane) => L.deAt n (.bge ra rb off) = true ∧ ¬(((L.de n).reg rb).toInt ≤ ((L.de n).reg ra).toInt)) .a 0 1 2 0xFFFE ((((deLane 0 (.bge 1 2 0xFFFE))).onDe 0 (EngineSt.setReg 2 7)))) ∧
    ((fun (l : LaneId) (n : Engine) (off : BitVec 26) (L : Lane) => L.deAt n (.j off) = true) .a 0 0x3FFFFFE ((deLane 0 (.j 0x3FFFFFE)))) ∧
    ((fun (l : LaneId) (n : Engine) (off : BitVec 26) (L : Lane) => L.deAt n (.jal off) = true) .a 0 4 ((deLane 0 (.jal 4)))) ∧
    ((fun (l : LaneId) (n : Engine) (ra : Reg) (L : Lane) => L.deAt n (.jr ra) = true) .a 0 1 ((deLane 0 (.jr 1)))) := by
  and_intros <;> decide +kernel

theorem witness_waits_and_halts :
    ((fun (l : LaneId) (n : Engine) (rd : Reg) (mask : BitVec 9) (k : Fin 9) (L : Lane) => L.deAt n (.wait rd mask) = true ∧ (L.de n).events.getLsbD k.val = true ∧ mask.getLsbD k.val = true ∧ ∀ j : Fin 9, j.val < k.val → ((L.de n).events.getLsbD j.val && mask.getLsbD j.val) = false) .a 0 3 0x1FF 2 (((deLane 0 (.wait 3 0x1FF)).onDe 0 (fun e => { e with events := 0x0C })))) ∧
    ((fun (l : LaneId) (n : Engine) (rd : Reg) (mask : BitVec 9) (L : Lane) => L.deAt n (.wait rd mask) = true ∧ (L.de n).events &&& mask = 0) .a 0 3 1 ((deLane 0 (.wait 3 1)))) ∧
    ((fun (l : LaneId) (n : Engine) (rd : Reg) (mask : BitVec 9) (k : Fin 9) (L : Lane) => L.is (Reg.DE_CTRL_RUN n.val) = true ∧ (L.de n).wait = some (mask, rd) ∧ (L.de n).events.getLsbD k.val = true ∧ mask.getLsbD k.val = true ∧ ∀ j : Fin 9, j.val < k.val → ((L.de n).events.getLsbD j.val && mask.getLsbD j.val) = false) .a 0 3 0x1FF 2 (((deLane 0 (.wait 3 0x1FF)).onDe 0 (fun e => { e with events := 0x0C, wait := some (0x1FF, 3) })))) ∧
    ((fun (l : LaneId) (n : Engine) (L : Lane) => L.deAt n .halt = true) .a 0 ((deLane 0 .halt))) ∧
    ((fun (l : LaneId) (n : Engine) (L : Lane) => L.is (Reg.DE_CTRL_RUN n.val) = true ∧ (L.de n).wait = none ∧ deDecode (L.de n).imWord = none) .a 0 (((deLane 0 .nop).onDe 0 (fun e => { e with im := [(3, 0xFC)] })))) := by
  and_intros <;> decide +kernel

theorem witness_engine_output_commands :
    ((fun (l : LaneId) (n : Engine) (rd : Reg) (dt : Nat) (L : Lane) => L.deAt n (.outp rd 0x006) = true ∧ n.val < 3 ∧ (L.pass dt).commitLate n = false) .a 0 3 77 ((deLane 0 (.outp 3 6)))) ∧
    ((fun (l : LaneId) (n : Engine) (rd : Reg) (dt : Nat) (L : Lane) => L.deAt n (.outp rd 0x006) = true ∧ n.val < 3 ∧ (L.pass dt).commitLate n = true) .a 0 3 0 (((deLane 0 (.outp 3 6)).onDe 0 (fun e => { e with period := 1000000 })))) ∧
    ((fun (l : LaneId) (n : Engine) (rd : Reg) (L : Lane) => L.deAt n (.outp rd 0x008) = true ∧ n.val < 3 ∧ ((L.de n).reg rd).toNat ≤ 2) .a 0 3 ((deLane 0 (.outp 3 8)))) ∧
    ((fun (l : LaneId) (n : Engine) (rd : Reg) (L : Lane) => L.deAt n (.outp rd 0x008) = true ∧ n.val < 3 ∧ 2 < ((L.de n).reg rd).toNat) .a 0 3 (((deLane 0 (.outp 3 8)).onDe 0 (EngineSt.setReg 3 3)))) ∧
    ((fun (l : LaneId) (n : Engine) (rd : Reg) (L : Lane) => L.deAt n (.outp rd 0x081) = true) .a 3 3 ((deLane 3 (.outp 3 0x081)))) ∧
    ((fun (l : LaneId) (n : Engine) (dt c e : Nat) (L : Lane) => (L.de n).timer = some (c, e) ∧ e + 2 * c ≤ (L.pass dt).el) .a 0 10 5 0 ((U.onDe 0 (fun e => { e with timer := some (5, 0) })))) ∧
    ((fun (l : LaneId) (n : Engine) (rd : Reg) (L : Lane) => L.deAt n (.outp rd 0x080) = true) .a 1 3 ((deLane 1 (.outp 3 0x080)))) ∧
    ((fun (l : LaneId) (sv : Fin 4) (rd : Reg) (L : Lane) => L.deAt 3 (.outp rd (BitVec.ofNat 16 (0x090 + sv.val))) = true) .a 1 3 ((deLane 3 (.outp 3 0x091)))) ∧
    ((fun (l : LaneId) (rd : Reg) (L : Lane) => L.deAt 3 (.outp rd 0x098) = true) .a 3 ((deLane 3 (.outp 3 0x098)))) := by
  and_intros <;> decide +kernel

theorem witness_engine_control_commands :
    ((fun (l : LaneId) (core : Core) (n : Engine) (L : Lane) => L.coreLive core = true ∧ L.waitsCommit (some core) = false ∧ L.waitsAt (some core) = none ∧ L.asleep (0x20100140 + 0x4000 * n.val) = none) .a 0 2 ((cores U))) ∧
    ((fun (l : LaneId) (core : Core) (n : Engine) (L : Lane) => L.coreLive core = true ∧ L.waitsCommit (some core) = false ∧ L.waitsAt (some core) = none ∧ L.asleep (0x2010000C + 0x4000 * n.val) = none ∧ L.is (Reg.DE_CTRL_RUN n.val) = false) .a 0 0 ((cores U))) ∧
    ((fun (l : LaneId) (core : Core) (n : Engine) (w : Word) (L : Lane) => L.coreLive core = true ∧ L.waitsCommit (some core) = false ∧ L.waitsAt (some core) = none ∧ L.asleep (0x2010000C + 0x4000 * n.val) = none ∧ L.is (Reg.DE_CTRL_RUN n.val) = false ∧ L.is (Reg.DE_ADDR_SPACE n.val) = true) .a 0 0 5 ((cores (Uf [(Reg.DE_ADDR_SPACE 0, 1)])))) ∧
    ((fun (l : LaneId) (core : Core) (n : Engine) (w : Word) (L : Lane) => L.coreLive core = true ∧ L.waitsCommit (some core) = false ∧ L.waitsAt (some core) = none ∧ L.asleep (0x2010000C + 0x4000 * n.val) = none ∧ L.is (Reg.DE_CTRL_RUN n.val) = false ∧ L.is (Reg.DE_ADDR_SPACE n.val) = false ∧ L.is (Reg.DE_STATUS_SEALED n.val) = false) .a 0 0 5 ((cores U))) ∧
    ((fun (l : LaneId) (core : Core) (n : Engine) (w : Word) (L : Lane) => L.coreLive core = true ∧ L.waitsCommit (some core) = false ∧ L.waitsAt (some core) = none ∧ L.asleep (0x2010000C + 0x4000 * n.val) = none ∧ L.is (Reg.DE_CTRL_RUN n.val) = false ∧ L.is (Reg.DE_ADDR_SPACE n.val) = false ∧ L.is (Reg.DE_STATUS_SEALED n.val) = true) .a 0 0 5 ((cores (Uf [(Reg.DE_STATUS_SEALED 0, 1)])))) ∧
    ((fun (l : LaneId) (core : Core) (n : Engine) (data : Option Word) (L : Lane) => L.coreLive core = true ∧ L.waitsCommit (some core) = false ∧ L.waitsAt (some core) = none ∧ L.asleep (0x2010000C + 0x4000 * n.val) = none ∧ L.is (Reg.DE_CTRL_RUN n.val) = true) .a 0 0 none ((cores (Uf [(Reg.DE_CTRL_RUN 0, 1)])))) ∧
    ((fun (l : LaneId) (core : Core) (n : Engine) (L : Lane) => L.coreLive core = true ∧ L.waitsCommit (some core) = false ∧ L.waitsAt (some core) = none ∧ L.asleep (0x20100000 + 0x4000 * n.val) = none ∧ L.is (Reg.DE_CTRL_RUN n.val) = false ∧ (∀ p : Port, p.castSucc = n → vget L.test.deadEngines p = false)) .a 0 3 ((cores U))) ∧
    ((fun (l : LaneId) (core : Core) (n : Engine) (L : Lane) => L.coreLive core = true ∧ L.waitsCommit (some core) = false ∧ L.waitsAt (some core) = none ∧ L.asleep (0x20100000 + 0x4000 * n.val) = none ∧ L.is (Reg.DE_CTRL_RUN n.val) = true) .a 0 0 ((cores (Uf [(Reg.DE_CTRL_RUN 0, 1)])))) ∧
    ((fun (l : LaneId) (core : Core) (n : Engine) (L : Lane) => L.coreLive core = true ∧ L.waitsCommit (some core) = false ∧ L.waitsAt (some core) = none ∧ L.asleep (0x20100000 + 0x4000 * n.val) = none) .a 0 1 ((cores U))) ∧
    ((fun (l : LaneId) (n : Engine) (L : Lane) => L.is (Reg.DE_STATUS_SEALED n.val) = true) .a 0 ((Uf [(Reg.DE_STATUS_SEALED 0, 1)]))) ∧
    ((fun (l : LaneId) (core : Core) (n : Engine) (L : Lane) => L.coreLive core = true ∧ L.waitsCommit (some core) = false ∧ L.waitsAt (some core) = none ∧ L.asleep (0x20100054 + 0x4000 * n.val) = none) .a 0 0 ((cores U))) := by
  and_intros <;> decide +kernel

theorem witness_carrier :
    ((fun (l : LaneId) (n : Engine) (dt : Nat) (L : Lane) => (L.pass dt).startDue n = true ∧ L.svc ≠ 3) .a 1 50000 ((Uf [(Reg.DE_PWM_INFO_FREQ 1, 200)]))) ∧
    ((fun (l : LaneId) (p : Port) (dt : Nat) (L : Lane) => (L.pass dt).startDue p.castSucc = true ∧ (L.de p.castSucc).counted = true ∧ L.svc ≠ 3) .a 1 50000 (((Uf [(Reg.DE_PWM_INFO_FREQ 1, 200)]).onDe 1 (fun e => { e with counted := true, committed := ⟨Vector.replicate 6 190000, 1, Vector.replicate 4 7⟩ })))) ∧
    ((fun (l : LaneId) (p : Port) (dt : Nat) (L : Lane) => (L.pass dt).startDue p.castSucc = true ∧ (L.de p.castSucc).counted = false ∧ L.loops p.castSucc = false ∧ (L.is (Reg.DE_CTRL_RUN p.val) = false ∨ (L.de p.castSucc).ovrRun + 1 < L.rd (Reg.DE_OVR_OVR_MAX p.val)) ∧ L.svc ≠ 3) .a 1 50000 ((Uf [(Reg.DE_PWM_INFO_FREQ 1, 200), (Reg.DE_CTRL_RUN 1, 1)]))) ∧
    ((fun (l : LaneId) (p : Port) (dt : Nat) (L : Lane) => (L.pass dt).startDue p.castSucc = true ∧ (L.de p.castSucc).counted = false ∧ L.loops p.castSucc = false ∧ L.is (Reg.DE_CTRL_RUN p.val) = true ∧ L.rd (Reg.DE_OVR_OVR_MAX p.val) ≤ (L.de p.castSucc).ovrRun + 1 ∧ L.svc ≠ 3) .a 1 50000 (((Uf [(Reg.DE_PWM_INFO_FREQ 1, 200), (Reg.DE_CTRL_RUN 1, 1)]).onDe 1 (fun e => { e with ovrRun := 2 })))) ∧
    ((fun (l : LaneId) (n : Engine) (dt : Nat) (L : Lane) => (L.pass dt).startDue n = true ∧ L.svc = 3 ∧ L.allTaken = true) .a 1 50000 ((Uf [(Reg.DE_PWM_INFO_FREQ 1, 200), (Reg.SYS_STATE_STATE, 3)]))) ∧
    ((fun (l : LaneId) (n : Engine) (dt : Nat) (L : Lane) => (L.pass dt).peakDue n = true ∧ L.loops n = false) .a 0 25000 (((Uf [(Reg.DE_PWM_INFO_FREQ 0, 200)]).onDe 0 (fun e => { e with period := 333333 })))) ∧
    ((fun (l : LaneId) (p : Port) (dt : Nat) (L : Lane) => (L.pass dt).peakDue p.castSucc = true ∧ L.loops p.castSucc = true ∧ (L.de p.castSucc).counted = true) .a 0 25000 (((Uf [(Reg.DE_PWM_INFO_FREQ 0, 200), (Reg.DE_CTRL_LOOP 0, 1), (Reg.SYS_FEAT_CTRL_LOCK, 1), (Reg.SYS_FEAT_ACCEPT 0, 4)]).onDe 0 (fun e => { e with counted := true, period := 333333, committed := ⟨Vector.replicate 6 90000, 1, Vector.replicate 4 7⟩ })))) ∧
    ((fun (l : LaneId) (dt : Nat) (L : Lane) => (L.pass dt).due .unlock 10000000 = true) .a 10000000 ({ Br ⟨0, 0, 0, 0, 0, 0, 0, 0⟩ [] with timers := [(.unlock, 0)] })) := by
  and_intros <;> decide +kernel

theorem witness_current_measurement :
    ((fun (l : LaneId) (p : Port) (k : Fin 4) (dt : Nat) (adc : BitVec 12) (L : Lane) => L.firmware = true ∧ (L.pass dt).sampleDue p k = true) .a 0 0 30000 4095 ((U.onDe 0 (fun e => { e with period := 333333, active := { e.active with sp := Vector.replicate 4 (-500) } })))) ∧
    ((fun (l : LaneId) (p : Port) (dt : Nat) (adc : BitVec 12) (L : Lane) => L.firmware = true ∧ (L.pass dt).sampleDue p 1 = true ∧ L.bitOf Reg.GD_STAT_EN p.val = true ∧ L.bridgeNow p = 0 ∧ nbit (vget (vget L.shunt p).word 0) 6 = false ∧ L.rd (Reg.CS_CFG_MISS_MAX p.val) ≤ (vget L.shunt p).lostRun + 1 ∧ adc.toNat ≠ 0 ∧ adc.toNat ≠ 4095) .a 0 30000 5 ({ ((Uf [(Reg.GD_STAT_EN, 1), (Reg.CS_CFG_MISS_MAX 0, 1)]).onDe 0 (fun e => { e with period := 333333, active := { e.active with sp := Vector.replicate 4 (-500) } })) with shunt := vupd U.shunt 0 (fun x => { x with taken := vupd (Vector.replicate 4 false) 0 (fun _ => true) }) })) ∧
    ((fun (l : LaneId) (core : Core) (p : Port) (src : Fin 4) (L : Lane) => L.coreLive core = true ∧ L.waitsCommit (some core) = false ∧ L.waitsAt (some core) = none ∧ L.asleep (0x20150014 + 0x40 * p.val) = none ∧ (L.bitOf Reg.GD_STAT_EN p.val = false ∨ L.bridgeNow p = 1)) .a 0 0 2 ((cores U))) ∧
    ((fun (l : LaneId) (core : Core) (p : Port) (src : Fin 4) (L : Lane) => L.coreLive core = true ∧ L.waitsCommit (some core) = false ∧ L.waitsAt (some core) = none ∧ L.asleep (0x20150014 + 0x40 * p.val) = none ∧ L.bitOf Reg.GD_STAT_EN p.val = true ∧ L.bridgeNow p ≠ 1) .a 0 0 2 ((cores (Uf [(Reg.GD_STAT_EN, 1)])))) ∧
    ((fun (l : LaneId) (p : Port) (mean : BitVec 16) (L : Lane) => (vget L.shunt p).cal.isSome = true) .a 0 77 ({ U with shunt := vupd U.shunt 0 (fun x => { x with cal := some 1 }) })) ∧
    ((fun (l : LaneId) (code : BitVec 12) (L : Lane) => L.firmware = true ∧ L.gen.busy = none) .a 77 (U)) ∧
    ((fun (l : LaneId) (code : BitVec 12) (x : AdcSlot) (L : Lane) => L.firmware = true ∧ L.gen.busy = some x) .a 77 ⟨0, 1, 0, true⟩ ({ U with gen := { U.gen with busy := some ⟨0, 1, 0, true⟩, queue := [⟨5, 2, 0, true⟩] } })) := by
  and_intros <;> decide +kernel

theorem witness_quadrature_and_resolver :
    ((fun (l : LaneId) (n : Fin 2) (dt : Nat) (a b : Bool) (ha hb : Nat) (L : Lane) => L.firmware = true ∧ L.rd (Reg.QE_CFG_FILT n.val) ≤ ha ∧ L.rd (Reg.QE_CFG_FILT n.val) ≤ hb ∧ (quadIx a b + 4 - quadIx (vget L.quad n).a (vget L.quad n).b) % 4 = 1 ∧ L.is (Reg.QE_CFG_INV n.val) = false ∧ L.encCounts n ≠ 0) .a 0 10 true false 5 5 ((Br ⟨1, 4, 0, 4096, 0, 0, 0, 0⟩ []))) ∧
    ((fun (l : LaneId) (n : Fin 2) (dt : Nat) (a b : Bool) (ha hb : Nat) (L : Lane) => L.firmware = true ∧ L.rd (Reg.QE_CFG_FILT n.val) ≤ ha ∧ L.rd (Reg.QE_CFG_FILT n.val) ≤ hb ∧ (quadIx a b + 4 - quadIx (vget L.quad n).a (vget L.quad n).b) % 4 = 3 ∧ L.is (Reg.QE_CFG_INV n.val) = false ∧ L.encCounts n ≠ 0) .a 0 10 false true 5 5 ((Br ⟨1, 4, 0, 4096, 0, 0, 0, 0⟩ []))) ∧
    ((fun (l : LaneId) (n : Fin 2) (dt : Nat) (a b : Bool) (ha hb : Nat) (L : Lane) => L.firmware = true ∧ L.rd (Reg.QE_CFG_FILT n.val) ≤ ha ∧ L.rd (Reg.QE_CFG_FILT n.val) ≤ hb ∧ (quadIx a b + 4 - quadIx (vget L.quad n).a (vget L.quad n).b) % 4 = 1 ∧ L.is (Reg.QE_CFG_INV n.val) = false ∧ nbit (L.rd (Reg.QE_CFG_CMPDIR n.val)) 0 = true ∧ L.rd (Reg.QE_CMP n.val) = (L.rd (Reg.QE_CNT n.val) + 1) % 2 ^ 32) .a 0 10 true false 5 5 ((Br ⟨1, 4, 0, 4096, 0, 0, 0, 0⟩ [(Reg.QE_CMP 0, 1), (Reg.QE_CFG_CMPDIR 0, 3), (Reg.QE_STEP 0, 5)]))) ∧
    ((fun (l : LaneId) (n : Fin 2) (dt : Nat) (a b : Bool) (ha hb : Nat) (L : Lane) => L.firmware = true ∧ L.rd (Reg.QE_CFG_FILT n.val) ≤ ha ∧ L.rd (Reg.QE_CFG_FILT n.val) ≤ hb ∧ (quadIx a b + 4 - quadIx (vget L.quad n).a (vget L.quad n).b) % 4 = 2) .a 0 10 true true 5 5 ((Br ⟨1, 4, 0, 4096, 0, 65535, 0, 0⟩ []))) ∧
    ((fun (l : LaneId) (n : Fin 2) (dt : Nat) (a b : Bool) (ha hb : Nat) (L : Lane) => L.firmware = true ∧ (a = (vget L.quad n).a ∨ ha < L.rd (Reg.QE_CFG_FILT n.val)) ∧ (b = (vget L.quad n).b ∨ hb < L.rd (Reg.QE_CFG_FILT n.val))) .a 0 10 true false 1 5 ((Uf [(Reg.QE_CFG_FILT 0, 2)]))) ∧
    ((fun (l : LaneId) (n : Fin 2) (dt : Nat) (a b : Bool) (ha hb hz : Nat) (L : Lane) => L.firmware = true ∧ L.rd (Reg.QE_CFG_FILT n.val) ≤ hz ∧ L.is (Reg.QE_CFG_ZGATE_EN n.val) = false ∧ (L.rd (Reg.QE_CFG_IDXMODE n.val) = 1 ∨ (L.rd (Reg.QE_CFG_IDXMODE n.val) = 2 ∧ (vget L.quad n).armedIdx = true))) .a 0 10 false false 5 5 5 ((Uf [(Reg.QE_CFG_IDXMODE 0, 1), (Reg.QE_MOD 0, 5)]))) ∧
    ((fun (l : LaneId) (n : Fin 2) (line : Fin 3) (L : Lane) => L.firmware = true) .a 1 2 (U)) ∧
    ((fun (l : LaneId) (n : Fin 2) (dt : Nat) (L : Lane) => L.firmware = true ∧ L.portOfSrc n.val = none ∧ (vget L.quad n).lastEdge = none) .a 0 1 (U)) ∧
    ((fun (l : LaneId) (dt : Nat) (sine cosine : BitVec 12) (L : Lane) => L.firmware = true ∧ (L.portOfSrc 2).isSome = true) .a 5 100 200 ((Br ⟨4, 4, 0, 4096, 0, 0, 0, 0⟩ []))) ∧
    ((fun (l : LaneId) (L : Lane) => L.firmware = true ∧ (L.portOfSrc 2).isSome = true) .a ((Br ⟨4, 4, 0, 4096, 0, 0, 0, 0⟩ []))) := by
  and_intros <;> decide +kernel

theorem witness_sent_and_position_vote :
    ((fun (l : LaneId) (sn : Fin 2) (f : SentFrame) (L : Lane) => L.firmware = true ∧ L.rd (Reg.QE_SENT_CFG_TICK sn.val) ≠ 0 ∧ 5 * (max f.syncNs (56 * L.rd (Reg.QE_SENT_CFG_TICK sn.val) * 100) - min f.syncNs (56 * L.rd (Reg.QE_SENT_CFG_TICK sn.val) * 100)) ≤ 56 * L.rd (Reg.QE_SENT_CFG_TICK sn.val) * 100 ∧ (vget L.sent sn).prevSync = none ∧ (∀ k, 12 ≤ sentTicks f.syncNs (vget f.nibNs k) ∧ sentTicks f.syncNs (vget f.nibNs k) ≤ 27) ∧ (sentTicks f.syncNs (vget f.nibNs 7) - 12) = sentCrc (L.is (Reg.QE_SENT_CFG_CRC sn.val)) [(sentTicks f.syncNs (vget f.nibNs 1) - 12), (sentTicks f.syncNs (vget f.nibNs 2) - 12), (sentTicks f.syncNs (vget f.nibNs 3) - 12), (sentTicks f.syncNs (vget f.nibNs 4) - 12), (sentTicks f.syncNs (vget f.nibNs 5) - 12), (sentTicks f.syncNs (vget f.nibNs 6) - 12)] ∧ L.svc ≠ 6) .a 0 (sentGood 0) ((Uf [(Reg.QE_SENT_CFG_TICK 0, 3)]))) ∧
    ((fun (l : LaneId) (sn : Fin 2) (f : SentFrame) (L : Lane) => L.firmware = true ∧ L.rd (Reg.QE_SENT_CFG_TICK sn.val) ≠ 0 ∧ (∀ k, 12 ≤ sentTicks f.syncNs (vget f.nibNs k) ∧ sentTicks f.syncNs (vget f.nibNs k) ≤ 27) ∧ (sentTicks f.syncNs (vget f.nibNs 7) - 12) ≠ sentCrc (L.is (Reg.QE_SENT_CFG_CRC sn.val)) [(sentTicks f.syncNs (vget f.nibNs 1) - 12), (sentTicks f.syncNs (vget f.nibNs 2) - 12), (sentTicks f.syncNs (vget f.nibNs 3) - 12), (sentTicks f.syncNs (vget f.nibNs 4) - 12), (sentTicks f.syncNs (vget f.nibNs 5) - 12), (sentTicks f.syncNs (vget f.nibNs 6) - 12)]) .a 0 (sentGood 1) ((Uf [(Reg.QE_SENT_CFG_TICK 0, 3)]))) ∧
    ((fun (l : LaneId) (dt : Nat) (sn : Fin 2) (L : Lane) => L.firmware = true ∧ L.rd (Reg.QE_SENT_CFG_TICK sn.val) ≠ 0 ∧ (L.pass dt).due (.sentFrame sn) (L.sentTimeoutNs sn) = true) .a 1000000 0 ({ Uf [(Reg.QE_SENT_CFG_TICK 0, 3)] with timers := [(.sentFrame 0, 0)] })) ∧
    ((fun (l : LaneId) (sd : Side) (r : SensorRecord) (L : Lane) => L.firmware = true) .a .next ⟨1, .b, true, false, 0, 5, 6, 7⟩ (U)) ∧
    ((fun (l : LaneId) (sd : Side) (k : Fin 2) (w : Word) (L : Lane) => L.firmware = true) .a .next 0 9 (U)) ∧
    ((fun (l : LaneId) (p : Port) (a b c : Reading) (L : Lane) => L.firmware = true ∧ (L.funcOfPort p).isSome = true ∧ L.voteOwn p = some a ∧ L.voteNb p .prev = some b ∧ L.voteNb p .next = some c ∧ circDist a.ang b.ang ≤ L.rd (Reg.QE_VTOL_VOTE_TOL p.val) * 65536 ∧ circDist b.ang c.ang ≤ L.rd (Reg.QE_VTOL_VOTE_TOL p.val) * 65536 ∧ circDist c.ang a.ang ≤ L.rd (Reg.QE_VTOL_VOTE_TOL p.val) * 65536) .a 0 ⟨5, 0⟩ ⟨6, 0⟩ ⟨7, 0⟩ ({ Br ⟨8, 4, 0, 4096, 0, 0, 0, 0⟩ [(Reg.QE_VTOL_VOTE_TOL 0, 1)] with votePos := vupd U.votePos 0 (fun v => { v with own := some ⟨0, .a, true, false, 0, 5, 0, 0⟩, nb := ⟨#[some ⟨0, .a, true, false, 0, 6, 0, 0⟩, some ⟨0, .a, true, false, 0, 7, 0, 0⟩], rfl⟩ }) })) ∧
    ((fun (l : LaneId) (p : Port) (a b c : Reading) (L : Lane) => L.firmware = true ∧ (L.funcOfPort p).isSome = true ∧ L.voteOwn p = some a ∧ L.voteNb p .prev = some b ∧ L.voteNb p .next = some c ∧ circDist a.ang b.ang ≤ L.rd (Reg.QE_VTOL_VOTE_TOL p.val) * 65536 ∧ L.rd (Reg.QE_VTOL_VOTE_TOL p.val) * 65536 < circDist b.ang c.ang ∧ L.rd (Reg.QE_VTOL_VOTE_TOL p.val) * 65536 < circDist c.ang a.ang) .a 0 ⟨5, 0⟩ ⟨6, 0⟩ ⟨700000, 0⟩ ({ Br ⟨8, 4, 0, 4096, 0, 0, 0, 0⟩ [(Reg.QE_VTOL_VOTE_TOL 0, 1)] with votePos := vupd U.votePos 0 (fun v => { v with own := some ⟨0, .a, true, false, 0, 5, 0, 0⟩, nb := ⟨#[some ⟨0, .a, true, false, 0, 6, 0, 0⟩, some ⟨0, .a, true, false, 0, 700000, 0, 0⟩], rfl⟩ }) })) ∧
    ((fun (l : LaneId) (p : Port) (L : Lane) => L.firmware = true ∧ (L.funcOfPort p).isSome = true ∧ L.voteOwn p = none ∧ L.voteNb p .prev = none ∧ L.voteNb p .next = none ∧ L.voteHfi p = none) .a 0 ((Br ⟨8, 4, 0, 4096, 0, 0, 0, 0⟩ []))) := by
  and_intros <;> decide +kernel

theorem witness_motor_supervisor :
    ((fun (l : LaneId) (p : Port) (L : Lane) => L.firmware = true ∧ L.rd (Reg.DE_MOT_STAT_STATE p.val) ≠ 0 ∧ L.bitOf Reg.GD_STAT_EN p.val = false) .a 0 ((Uf [(Reg.DE_MOT_STAT_STATE 0, 3)]))) ∧
    ((fun (l : LaneId) (p : Port) (L : Lane) => L.firmware = true ∧ 1 ≤ L.rd (Reg.DE_MOT_STAT_STATE p.val) ∧ L.rd (Reg.DE_MOT_STAT_STATE p.val) ≤ 4 ∧ L.bitOf Reg.GD_STAT_EN p.val = true ∧ L.bitOf Reg.LG_PORT_WHOLD p.val = true) .a 0 ((Uf [(Reg.DE_MOT_STAT_STATE 0, 3), (Reg.GD_STAT_EN, 1), (Reg.LG_PORT_WHOLD, 1)]))) ∧
    ((fun (l : LaneId) (p : Port) (L : Lane) => L.firmware = true ∧ L.rd (Reg.DE_MOT_STAT_STATE p.val) = 0 ∧ L.bitOf Reg.GD_STAT_EN p.val = true) .a 0 ((Uf [(Reg.GD_STAT_EN, 1)]))) ∧
    ((fun (l : LaneId) (p : Port) (L : Lane) => L.firmware = true ∧ L.rd (Reg.DE_MOT_STAT_STATE p.val) = 1 ∧ L.bitOf Reg.GD_STAT_EN p.val = true ∧ L.bitOf Reg.LG_PORT_WHOLD p.val = false ∧ (L.de p.castSucc).upSnap = none ∧ L.rd (Reg.DE_MOT_CFG_CATCH_N p.val) + 8 ≤ (vget L.motor p).periods + 1 ∧ L.rd (Reg.DE_MOT_CFG_CATCH_RETRY p.val) ≤ L.rd (Reg.DE_MOT_STAT_CATCHTRY p.val) + 1 ∧ L.rd (Reg.DE_MOT_STAT_CATCHTRY p.val) + 1 < 2 ^ Fld.w (Reg.DE_MOT_STAT_CATCHTRY p.val)) .a 0 ({ Uf [(Reg.DE_MOT_STAT_STATE 0, 1), (Reg.GD_STAT_EN, 1), (Reg.DE_MOT_STAT_CATCHTRY 0, 3), (Reg.DE_MOT_CFG_CATCH_RETRY 0, 3)] with motor := vupd U.motor 0 (fun m => { m with periods := 1000 }) })) ∧
    ((fun (l : LaneId) (p : Port) (u : Vector Word 9) (L : Lane) => L.firmware = true ∧ L.rd (Reg.DE_MOT_STAT_STATE p.val) = 2 ∧ L.bitOf Reg.GD_STAT_EN p.val = true ∧ L.bitOf Reg.LG_PORT_WHOLD p.val = false ∧ (L.de p.castSucc).upSnap = some u ∧ nbit (vget u 0).toNat 2 = true ∧ (vget L.motor p).charge = false ∧ L.rd (Reg.DE_MOT_CFG_SYNC_N p.val) ≤ (vget L.motor p).syncRun + 1) .a 0 (Vector.replicate 9 4) (((Uf [(Reg.DE_MOT_STAT_STATE 0, 2), (Reg.GD_STAT_EN, 1), (Reg.DE_MOT_CFG_SYNC_N 0, 1)]).onDe 0 (fun e => { e with upSnap := some (Vector.replicate 9 4) })))) ∧
    ((fun (l : LaneId) (p : Port) (L : Lane) => L.firmware = true ∧ L.rd (Reg.DE_MOT_STAT_STATE p.val) = 4 ∧ L.bitOf Reg.GD_STAT_EN p.val = true ∧ L.bitOf Reg.LG_PORT_WHOLD p.val = false ∧ L.rd (Reg.QE_COMM_COMM p.val) ≠ (vget L.motor p).lastComm) .a 0 ((Uf [(Reg.DE_MOT_STAT_STATE 0, 4), (Reg.GD_STAT_EN, 1), (Reg.QE_COMM_COMM 0, 5)]))) ∧
    ((fun (l : LaneId) (dt : Nat) (p : Port) (L : Lane) => L.rd (Reg.DE_MOT_STAT_STATE p.val) = 3 ∧ (L.pass dt).due (.lockedRotor p) (L.rd (Reg.DE_MOT_CFG_LR_T p.val) * 10000000) = true ∧ L.is (Reg.DE_MOT_CFG_LR_ACT p.val) = false) .a 20000000000 0 ({ Uf [(Reg.DE_MOT_STAT_STATE 0, 3)] with timers := [(.lockedRotor 0, 0)] })) ∧
    ((fun (l : LaneId) (dt : Nat) (p : Port) (L : Lane) => L.rd (Reg.DE_MOT_STAT_STATE p.val) = 3 ∧ (L.pass dt).due (.lockedRotor p) (L.rd (Reg.DE_MOT_CFG_LR_T p.val) * 10000000) = true ∧ L.is (Reg.DE_MOT_CFG_LR_ACT p.val) = true) .a 20000000000 0 ({ Uf [(Reg.DE_MOT_STAT_STATE 0, 3), (Reg.DE_MOT_CFG_LR_ACT 0, 1), (Reg.GD_STAT_EN, 7)] with timers := [(.lockedRotor 0, 0)] })) := by
  and_intros <;> decide +kernel

theorem witness_trips :
    ((fun (l : LaneId) (b : Fin 18) (L : Lane) => L.guardSt.powered = true ∧ L.underTest (Lane.switchPort b) = false ∧ (vget L.gateFollowAll.gate.drive b).on = true) .a 1 (Gd2)) ∧
    ((fun (l : LaneId) (b : Fin 18) (L : Lane) => L.guardSt.powered = true ∧ L.underTest (Lane.switchPort b) = false ∧ (vget L.gateFollowAll.gate.drive b).on = false) .a 4 (Gd)) ∧
    ((fun (l : LaneId) (p : Port) (L : Lane) => L.guardSt.powered = true ∧ L.underTest p = false) .a 1 ({ Gd with regs := (Gd.wr Reg.GD_STAT_EN 7).regs })) ∧
    ((fun (l : LaneId) (p : Port) (L : Lane) => L.guardSt.powered = true ∧ L.underTest p = false ∧ L.bitOf Reg.GD_STAT_EN p.val = true) .a 1 ({ Gd with regs := (Gd.wr Reg.GD_STAT_EN 7).regs })) ∧
    ((fun (l : LaneId) (p : Port) (L : Lane) => L.guardSt.powered = true ∧ L.underTest p = false ∧ L.bitOf Reg.GD_STAT_EN p.val = false ∧ L.bitOf Reg.GD_STAT_ASC p.val = false) .a 1 (Gd)) ∧
    ((fun (l : LaneId) (b : Fin 9) (L : Lane) => L.guardSt.powered = true ∧ L.underTest (Fin.ofNat 3 (b.val / 3)) = false ∧ L.bitOf Reg.GD_STAT_BSTARM b.val = true) .a 1 ({ Gd with regs := (Gd.wr Reg.GD_STAT_BSTARM 7).regs })) ∧
    ((fun (l : LaneId) (k : Fin 12) (L : Lane) => L.guardSt.powered = true) .a 5 (Gd)) ∧
    ((fun (l : LaneId) (b : Fin 18) (L : Lane) => vget L.gate.stage b = .stage1) .a 2 ({ U with gate := { U.gate with stage := vupd U.gate.stage 2 (fun _ => .stage1) } })) ∧
    ((fun (l : LaneId) (p : Port) (L : Lane) => L.guardSt.powered = true ∧ L.bitOf Reg.GD_STAT_EN p.val = true) .a 1 ({ Gd with regs := (Gd.wr Reg.GD_STAT_EN 7).regs })) ∧
    ((fun (l : LaneId) (p : Port) (L : Lane) => L.guardSt.powered = true ∧ L.bitOf Reg.GD_STAT_EN p.val = false) .a 1 (Gd)) := by
  and_intros <;> decide +kernel

theorem witness_over_voltage_and_solenoids :
    ((fun (l : LaneId) (L : Lane) => L.guardSt.powered = true) .a (Gd)) ∧
    ((fun (l : LaneId) (L : Lane) => L.guardSt.powered = true) .a (Gd)) ∧
    ((fun (l : LaneId) (L : Lane) => L.guardSt.powered = true ∧ L.ovUnderTest = false ∧ L.chopF = false) .a ({ Gd with regs := (Gd.set1 Reg.GD_CHOP_EN).regs })) ∧
    ((fun (l : LaneId) (L : Lane) => L.guardSt.powered = true ∧ L.ovUnderTest = false ∧ L.chopF = true ∧ L.is Reg.GD_STAT_PROT = false) .a ({ Gd with regs := (Gd.set1 Reg.GD_TRIP_1_CHOPF).regs })) ∧
    ((fun (l : LaneId) (L : Lane) => L.guardSt.powered = true ∧ L.ovUnderTest = false ∧ L.chopF = true ∧ L.is Reg.GD_STAT_PROT = true) .a ({ Gd with regs := ((Gd.set1 Reg.GD_TRIP_1_CHOPF).set1 Reg.GD_STAT_PROT).regs })) ∧
    ((fun (l : LaneId) (L : Lane) => L.guardSt.powered = true ∧ L.ovUnderTest = false ∧ (L.chopF = false ∨ L.is Reg.GD_STAT_PROT = false)) .a (Gd)) ∧
    ((fun (l : LaneId) (L : Lane) => L.guardSt.powered = true ∧ L.ovUnderTest = false) .a (Gd)) ∧
    ((fun (l : LaneId) (L : Lane) => L.guardSt.powered = true ∧ L.ovUnderTest = false) .a (Gd)) ∧
    ((fun (l : LaneId) (bci : Byte) (L : Lane) => L.guardSt.powered = true ∧ L.ovUnderTest = false ∧ L.is Reg.GD_CHOP_EN = true ∧ L.is Reg.GD_STAT_CHOP = true ∧ bci.toNat < L.rd Reg.GD_CHOP_BCI_MIN) .a 5 ({ Gd with regs := (((Gd.set1 Reg.GD_CHOP_EN).set1 Reg.GD_STAT_CHOP).wr Reg.GD_CHOP_BCI_MIN 9).regs })) ∧
    ((fun (l : LaneId) (bci : Byte) (L : Lane) => L.guardSt.powered = true ∧ L.ovUnderTest = false ∧ L.is Reg.GD_CHOP_EN = true ∧ L.is Reg.GD_STAT_CHOP = false ∧ L.rd Reg.GD_CHOP_BCI_MIN ≤ bci.toNat) .a 50 ({ Gd with regs := ((Gd.set1 Reg.GD_CHOP_EN).wr Reg.GD_CHOP_BCI_MIN 9).regs })) ∧
    ((fun (l : LaneId) (dt : Nat) (p : Port) (L : Lane) => vget L.gate.ascWait p = true ∧ L.inStage1 p = false ∧ (L.pass dt).due (.ascWait p) 1000 = true) .a 1000 1 ({ U with gate := { U.gate with ascWait := vupd U.gate.ascWait 1 (fun _ => true) }, timers := [(.ascWait 1, 0)] })) ∧
    ((fun (l : LaneId) (dt : Nat) (sv : Fin 4) (L : Lane) => L.guardSt.powered = true ∧ (vget L.solenoid sv).off = false) .a 5 2 ({ Gd with solenoid := Vector.replicate 4 ⟨0, 0, false, false, [1, 2]⟩ })) ∧
    ((fun (l : LaneId) (dt : Nat) (sv : Fin 4) (L : Lane) => (vget L.solenoid sv).off = true ∧ L.is (Reg.GD_SV_SHORT sv.val) = false ∧ (L.pass dt).due (.svOff sv) 10000000 = true) .a 10000000 2 ({ U with solenoid := Vector.replicate 4 ⟨0, 0, false, true, []⟩, timers := [(.svOff 2, 0)] })) ∧
    ((fun (l : LaneId) (dt : Nat) (sv : Fin 4) (mean : BitVec 12) (L : Lane) => 100 ≤ (vget L.solenoid sv).setpoint ∧ 4 * mean.toNat < (vget L.solenoid sv).setpoint) .a 5 2 10 ({ U with solenoid := Vector.replicate 4 ⟨500, 500, false, false, []⟩ })) ∧
    ((fun (l : LaneId) (dt : Nat) (sv : Fin 4) (mean : BitVec 12) (L : Lane) => (vget L.solenoid sv).setpoint < 100 ∨ (vget L.solenoid sv).setpoint ≤ 4 * mean.toNat) .a 5 2 10 (U)) := by
  and_intros <;> decide +kernel

theorem witness_gate_self_test :
    ((fun (l : LaneId) (core : Core) (L : Lane) => L.coreLive core = true ∧ L.waitsCommit (some core) = false ∧ L.waitsAt (some core) = none ∧ L.asleep (0x201600C0) = none ∧ L.is Reg.GD_TEST_BUSY = false) .a 0 ((cores U))) ∧
    ((fun (l : LaneId) (core : Core) (L : Lane) => L.coreLive core = true ∧ L.waitsCommit (some core) = false ∧ L.waitsAt (some core) = none ∧ L.asleep (0x201600C0) = none ∧ L.is Reg.GD_TEST_BUSY = true) .a 0 ((cores (Uf [(Reg.GD_TEST_BUSY, 1)])))) ∧
    ((fun (l : LaneId) (res0 res1 : Word) (L : Lane) => L.gate.testRun = true) .a 0xFFFFF 7 ({ U with gate := { U.gate with testRun := true } })) ∧
    ((fun (l : LaneId) (core : Core) (p : Port) (L : Lane) => L.coreLive core = true ∧ L.waitsCommit (some core) = false ∧ L.waitsAt (some core) = none ∧ L.asleep (0x201600D0) = none ∧ L.feature 1 = true ∧ L.gate.zdiag = none ∧ L.rd Reg.GD_ZDIAG_PORT = p.val ∧ L.bitOf Reg.GD_STAT_EN p.val = false) .a 0 0 ((cores (Uf [(Reg.SYS_FEAT_CTRL_LOCK, 1), (Reg.SYS_FEAT_ACCEPT 0, 3)])))) ∧
    ((fun (l : LaneId) (core : Core) (p : Port) (L : Lane) => L.coreLive core = true ∧ L.waitsCommit (some core) = false ∧ L.waitsAt (some core) = none ∧ L.asleep (0x201600D0) = none ∧ L.feature 1 = true ∧ L.gate.zdiag = none ∧ L.rd Reg.GD_ZDIAG_PORT = p.val) .a 0 0 ((cores (Uf [(Reg.SYS_FEAT_CTRL_LOCK, 1), (Reg.SYS_FEAT_ACCEPT 0, 3)])))) ∧
    ((fun (l : LaneId) (u v w : ZReading) (L : Lane) => L.gate.zdiag.isSome = true) .a ⟨5, 0, 0⟩ ⟨50, 95, 0⟩ ⟨50, 50, 50⟩ ({ U with gate := { U.gate with zdiag := some 0 } })) := by
  and_intros <;> decide +kernel

theorem witness_challenge_grid :
    ((fun (l : LaneId) (c : BitVec 16) (L : Lane) => L.guardSt.powered = true ∧ L.guardSt.running = true ∧ L.guardSt.rcLost = false ∧ L.gstate ≠ 3 ∧ L.is Reg.LG_CHAL_SUSP = false ∧ L.is Reg.LG_CHAL_PEND = false ∧ L.guardSt.lfsr = some c) .a 1 ({ Gd with guardSt := { Gd.guardSt with running := true, lfsr := some 1 } })) ∧
    ((fun (l : LaneId) (L : Lane) => L.guardSt.powered = true ∧ L.guardSt.running = true ∧ L.guardSt.rcLost = false ∧ L.gstate ≠ 3 ∧ L.is Reg.LG_CHAL_SUSP = false ∧ L.is Reg.LG_CHAL_PEND = false ∧ L.guardSt.lfsr = none) .a ({ Gd with guardSt := { Gd.guardSt with running := true } })) ∧
    ((fun (l : LaneId) (n : Byte) (a c : BitVec 16) (dt : Nat) (L : Lane) => L.firmware = true ∧ L.pairLive 0 = true ∧ L.is Reg.LG_CHAL_SUSP = false ∧ L.guardSt.lfsr = some c ∧ n.toNat = L.guardSt.num ∧ ((L.pass dt).el - (L.timerAt .challenge).getD 0) ≤ L.guardSt.judge.2.1 * 10000 ∧ L.is Reg.LG_CHAL_PEND = true ∧ L.guardSt.judge.1 * 10000 ≤ ((L.pass dt).el - (L.timerAt .challenge).getD 0) ∧ a = ((c ^^^ BitVec.ofNat 16 L.guardSt.judge.2.2).rotateLeft (n.toNat % 16)) + BitVec.ofNat 16 (0x5A5A * (n.toNat % 8 + 1)) ∧ L.rd Reg.SYS_ARM_STEP = 0) .a 3 (((7#16 ^^^ 1#16).rotateLeft 3) + BitVec.ofNat 16 (0x5A5A * 4)) 7 500000 ({ Gd with guardSt := { Gd.guardSt with running := true, lfsr := some 7, num := 3, judge := (20, 90, 1) }, regs := (Gd.set1 Reg.LG_CHAL_PEND).regs })) ∧
    ((fun (l : LaneId) (n : Byte) (a c : BitVec 16) (dt : Nat) (L : Lane) => L.firmware = true ∧ L.pairLive 0 = true ∧ L.is Reg.LG_CHAL_SUSP = false ∧ L.guardSt.lfsr = some c ∧ n.toNat = L.guardSt.num ∧ ((L.pass dt).el - (L.timerAt .challenge).getD 0) ≤ L.guardSt.judge.2.1 * 10000 ∧ L.is Reg.LG_CHAL_PEND = true ∧ ((L.pass dt).el - (L.timerAt .challenge).getD 0) < L.guardSt.judge.1 * 10000) .a 3 5 7 100000 ({ Gd with guardSt := { Gd.guardSt with running := true, lfsr := some 7, num := 3, judge := (20, 90, 1) }, regs := (Gd.set1 Reg.LG_CHAL_PEND).regs })) ∧
    ((fun (l : LaneId) (n : Byte) (a c : BitVec 16) (dt : Nat) (L : Lane) => L.firmware = true ∧ L.pairLive 0 = true ∧ L.is Reg.LG_CHAL_SUSP = false ∧ L.guardSt.lfsr = some c ∧ n.toNat = L.guardSt.num ∧ ((L.pass dt).el - (L.timerAt .challenge).getD 0) ≤ L.guardSt.judge.2.1 * 10000 ∧ L.is Reg.LG_CHAL_PEND = true ∧ L.guardSt.judge.1 * 10000 ≤ ((L.pass dt).el - (L.timerAt .challenge).getD 0) ∧ a ≠ answerOf (BitVec.ofNat 16 L.guardSt.judge.2.2) c n.toNat) .a 3 5 7 300000 ({ Gd with guardSt := { Gd.guardSt with running := true, lfsr := some 7, num := 3, judge := (20, 90, 1) }, regs := (Gd.set1 Reg.LG_CHAL_PEND).regs })) ∧
    ((fun (l : LaneId) (n : Byte) (a : BitVec 16) (dt : Nat) (L : Lane) => L.firmware = true ∧ L.pairLive 0 = true ∧ L.is Reg.LG_CHAL_SUSP = false ∧ (n.toNat ≠ L.guardSt.num ∨ L.guardSt.judge.2.1 * 10000 < ((L.pass dt).el - (L.timerAt .challenge).getD 0))) .a 3 5 300000 (Gd)) ∧
    ((fun (l : LaneId) (n : Byte) (a c : BitVec 16) (dt : Nat) (L : Lane) => L.firmware = true ∧ L.pairLive 0 = true ∧ L.is Reg.LG_CHAL_SUSP = false ∧ L.guardSt.lfsr = some c ∧ n.toNat = L.guardSt.num ∧ ((L.pass dt).el - (L.timerAt .challenge).getD 0) ≤ L.guardSt.judge.2.1 * 10000 ∧ L.is Reg.LG_CHAL_PEND = false) .a 3 5 7 300000 ({ Gd with guardSt := { Gd.guardSt with running := true, lfsr := some 7, num := 3, judge := (20, 90, 1) } })) ∧
    ((fun (l : LaneId) (n : Byte) (a : BitVec 16) (dt : Nat) (L : Lane) => L.firmware = true ∧ L.pairLive 1 = true) .a 3 5 30 ((cores U))) ∧
    ((fun (l : LaneId) (L : Lane) => L.guardSt.powered = true ∧ L.guardSt.running = true ∧ L.guardSt.rcLost = false ∧ L.gstate ≠ 3 ∧ L.is Reg.LG_CHAL_PEND = true) .a ({ Gd with guardSt := { Gd.guardSt with running := true }, regs := (Gd.set1 Reg.LG_CHAL_PEND).regs })) ∧
    ((fun (l : LaneId) (dt : Nat) (L : Lane) => L.guardSt.powered = true ∧ L.guardSt.running = true ∧ L.guardSt.rcLost = false ∧ L.gstate ≠ 3 ∧ L.is Reg.LG_CHAL_SUSP = true ∧ (L.pass dt).due (.selfTest 0) 3500000 = true) .a 3500000 ({ Gd with guardSt := { Gd.guardSt with running := true }, regs := (Gd.set1 Reg.LG_CHAL_SUSP).regs, timers := [(.selfTest 0, 0)] })) := by
  and_intros <;> decide +kernel

theorem witness_missed_challenges :
    ((fun (l : LaneId) (L : Lane) => L.guardSt.powered = true ∧ L.guardSt.running = true ∧ L.guardSt.rcLost = false ∧ L.gstate ≠ 3 ∧ L.is Reg.LG_CHAL_PEND = true ∧ L.guardSt.answered = true ∧ L.is Reg.LG_WD_STAT_MISS1 = false) .a ({ Gd with guardSt := { Gd.guardSt with running := true, answered := true }, regs := (Gd.set1 Reg.LG_CHAL_PEND).regs })) ∧
    ((fun (l : LaneId) (L : Lane) => L.guardSt.powered = true ∧ L.guardSt.running = true ∧ L.guardSt.rcLost = false ∧ L.gstate ≠ 3 ∧ L.is Reg.LG_CHAL_PEND = true ∧ L.guardSt.answered = true ∧ L.is Reg.LG_WD_STAT_MISS1 = true ∧ nbit (L.reaction 256) 9 = false) .a ({ Gd with guardSt := { Gd.guardSt with running := true, answered := true }, regs := ((Gd.set1 Reg.LG_CHAL_PEND).set1 Reg.LG_WD_STAT_MISS1).regs })) ∧
    ((fun (l : LaneId) (L : Lane) => L.guardSt.powered = true ∧ L.guardSt.running = true ∧ L.guardSt.rcLost = false ∧ L.gstate ≠ 3 ∧ L.is Reg.LG_CHAL_PEND = true ∧ L.guardSt.answered = false) .a ({ Gd with guardSt := { Gd.guardSt with running := true }, regs := (Gd.set1 Reg.LG_CHAL_PEND).regs })) ∧
    ((fun (l : LaneId) (dt : Nat) (L : Lane) => L.guardSt.powered = true ∧ L.guardSt.running = true ∧ L.guardSt.rcLost = false ∧ L.gstate ≠ 3 ∧ L.guardSt.answered = false ∧ (L.pass dt).due .ready 100000000 = true) .a 100000000 ({ Gd with guardSt := { Gd.guardSt with running := true }, timers := [(.ready, 0)] })) := by
  and_intros <;> decide +kernel

theorem witness_guard_supply_and_contactors :
    ((fun (l : LaneId) (L : Lane) => L.guardSt.powered = false) .a (U)) ∧
    ((fun (l : LaneId) (L : Lane) => L.guardSt.powered = true) .a (Gd)) ∧
    ((fun (l : LaneId) (dt : Nat) (L : Lane) => L.guardSt.powered = true ∧ (L.pass dt).gateFollowAll.gatesOff2ms = true ∧ L.gstate = 3) .a 2000000 ({ Gd with regs := ((Gd.wr Reg.LG_STATUS_GSTATE 3).set1 Reg.LG_CONT_KPCMD).regs, timers := [(.gatesOff, 0)] })) ∧
    ((fun (l : LaneId) (dt : Nat) (L : Lane) => L.guardSt.powered = true ∧ (L.pass dt).gateFollowAll.gatesOff2ms = true ∧ L.gstate = 2 ∧ L.is Reg.LG_STATUS_KFAULT = true) .a 2000000 ({ Gd with regs := (((Gd.wr Reg.LG_STATUS_GSTATE 2).set1 Reg.LG_CONT_KPCMD).set1 Reg.LG_STATUS_KFAULT).regs, timers := [(.gatesOff, 0)] })) ∧
    ((fun (l : LaneId) (dt : Nat) (kmNo kmNc kpNo kpNc : Bool) (L : Lane) => L.guardSt.powered = true ∧ L.rd Reg.SYS_ARM_STEP = 0) .a 5 true false false true (Gd)) ∧
    ((fun (l : LaneId) (dt : Nat) (kp : Bool) (L : Lane) => L.guardSt.powered = true ∧ (L.pass dt).due (if kp then .kpDisagree else .kmDisagree) (L.kmisMs * 1000000) = true ∧ L.gstate = 0) .a 2000000000 true ({ Gd with timers := [(.kpDisagree, 0)] })) ∧
    ((fun (l : LaneId) (dt : Nat) (kp : Bool) (L : Lane) => L.guardSt.powered = true ∧ (L.pass dt).due (if kp then .kpDisagree else .kmDisagree) (L.kmisMs * 1000000) = true ∧ L.gstate = 1) .a 2000000000 false ({ Gd with regs := (Gd.wr Reg.LG_STATUS_GSTATE 1).regs, timers := [(.kmDisagree, 0)] })) ∧
    ((fun (l : LaneId) (dt : Nat) (kp : Bool) (L : Lane) => L.guardSt.powered = true ∧ (L.pass dt).due (if kp then .kpDisagree else .kmDisagree) (L.kmisMs * 1000000) = true ∧ L.gstate = 2 ∧ L.is Reg.LG_STATUS_KFAULT = false ∧ L.is Reg.LG_STATUS_SLOSS = false) .a 2000000000 false ({ Gd with regs := (Gd.wr Reg.LG_STATUS_GSTATE 2).regs, timers := [(.kmDisagree, 0)] })) ∧
    ((fun (l : LaneId) (dt : Nat) (L : Lane) => L.is Reg.LG_PARK_RUN = true ∧ (L.pass dt).due .park (L.rd Reg.LG_PARK_TMAX * 1000000000) = true ∧ L.parkOff = false) .a 200000000000 ({ Uf [(Reg.LG_PARK_RUN, 1)] with start := { parkImg with phase := .running }, solenoid := Vector.replicate 4 ⟨5, 5, false, false, []⟩, timers := [(.park, 0)] })) := by
  and_intros <;> decide +kernel

theorem witness_guard_clocks_and_rearm :
    ((fun (l : LaneId) (L : Lane) => L.guardSt.powered = true ∧ L.gstate ≠ 3) .a (Gd)) ∧
    ((fun (l : LaneId) (L : Lane) => L.guardSt.powered = true ∧ L.gstate ≠ 3) .a (Gd)) ∧
    ((fun (l : LaneId) (count : BitVec 11) (L : Lane) => L.guardSt.powered = true ∧ L.guardSt.rcLost = false ∧ L.gstate ≠ 3 ∧ L.guardSt.badWindows = 1 ∧ nbit (L.reaction 261) 9 = false ∧ (count.toNat + 10 * L.rd Reg.LG_CKW_CKTOL < 1000 ∨ 1000 + 10 * L.rd Reg.LG_CKW_CKTOL < count.toNat)) .a 500 ({ Gd with guardSt := { Gd.guardSt with badWindows := 1 } })) ∧
    ((fun (l : LaneId) (count : BitVec 11) (L : Lane) => L.guardSt.powered = true ∧ L.guardSt.rcLost = false ∧ 1000 ≤ count.toNat + 10 * L.rd Reg.LG_CKW_CKTOL ∧ count.toNat ≤ 1000 + 10 * L.rd Reg.LG_CKW_CKTOL) .a 1000 (Gd)) ∧
    ((fun (l : LaneId) (dt : Nat) (L : Lane) => L.guardSt.powered = true ∧ L.is Reg.LG_STATUS_LDCLK = true ∧ L.is Reg.LG_STATUS_RCCLK = true ∧ (L.pass dt).due .clkGood 10000000 = true) .a 10000000 ({ Gd with regs := ((Gd.set1 Reg.LG_STATUS_LDCLK).set1 Reg.LG_STATUS_RCCLK).regs, timers := [(.clkGood, 0)] })) ∧
    ((fun (l : LaneId) (rc : Bool) (L : Lane) => L.guardSt.powered = true) .a true (Gd)) ∧
    ((fun (l : LaneId) (v : Word) (L : Lane) => L.firmware = true ∧ L.pairLive 0 = true ∧ v = 0xC3A5 ∧ L.gstate = 3 ∧ L.is Reg.LG_STATUS_CLKGOOD = true ∧ L.rd Reg.LG_STATUS_REARMS < 3) .a 0xC3A5 ((cores (Uf [(Reg.LG_STATUS_GSTATE, 3), (Reg.LG_STATUS_CLKGOOD, 1)])))) ∧
    ((fun (l : LaneId) (v : Word) (L : Lane) => L.firmware = true ∧ L.pairLive 0 = true ∧ (v ≠ 0xC3A5 ∨ L.gstate ≠ 3 ∨ L.is Reg.LG_STATUS_CLKGOOD = false ∨ 3 ≤ L.rd Reg.LG_STATUS_REARMS)) .a 0xC3A5 ((cores U))) ∧
    ((fun (l : LaneId) (v : Word) (L : Lane) => L.firmware = true ∧ L.pairLive 1 = true) .a 5 ((cores U))) ∧
    ((fun (l : LaneId) (v : Word) (L : Lane) => L.firmware = true ∧ L.pairLive 0 = true ∧ L.is Reg.LG_CTRL_LOCK = false ∧ nbits v.toNat 0 7 ≤ 90 ∧ 10 ≤ nbits v.toNat 8 7 ∧ nbits v.toNat 8 7 ≤ 95 ∧ nbits v.toNat 0 7 < nbits v.toNat 8 7 ∧ nbits v.toNat 16 16 ≠ 0) .a 0x12345A14 ((cores U))) ∧
    ((fun (l : LaneId) (v : Word) (L : Lane) => L.firmware = true ∧ L.pairLive 0 = true ∧ (L.is Reg.LG_CTRL_LOCK = true ∨ nbits v.toNat 16 16 = 0 ∨ (nbits v.toNat 0 7 ≤ 90 ∧ 10 ≤ nbits v.toNat 8 7 ∧ nbits v.toNat 8 7 ≤ 95 ∧ nbits v.toNat 8 7 ≤ nbits v.toNat 0 7))) .a 0 ((cores U))) ∧
    ((fun (l : LaneId) (v : Word) (L : Lane) => L.firmware = true ∧ L.pairLive 1 = true) .a 5 ((cores U))) ∧
    ((fun (l : LaneId) (L : Lane) => L.firmware = true ∧ L.pairLive 0 = true ∧ L.gstate = 3) .a ((cores (Uf [(Reg.LG_STATUS_GSTATE, 3), (Reg.LG_CONT_KMCMD, 1)])))) ∧
    ((fun (l : LaneId) (L : Lane) => L.firmware = true ∧ L.pairLive 0 = true ∧ L.gstate ≠ 3) .a ((cores U))) ∧
    ((fun (l : LaneId) (L : Lane) => L.firmware = true ∧ L.pairLive 1 = true) .a ((cores U))) := by
  and_intros <;> decide +kernel

theorem witness_fault_collector :
    ((fun (l : LaneId) (src : BitVec 10) (cores : BitVec 4) (L : Lane) => L.powered = true ∧ fixedClass src.toNat ≠ 0 ∧ L.sticky src.toNat = false ∧ src ≠ 10 ∧ src ≠ 226 ∧ (src.toNat < 64 ∨ 72 ≤ src.toNat)) .a 320 0 (U)) ∧
    ((fun (l : LaneId) (src : BitVec 10) (cores : BitVec 4) (L : Lane) => L.powered = true ∧ (fixedClass src.toNat = 0 ∨ L.sticky src.toNat = true ∨ src = 226 ∧ L.is Reg.GD_CHOP_EN = false) ∧ src ≠ 10 ∧ (src.toNat < 64 ∨ 72 ≤ src.toNat)) .a 1000 0 (U)) ∧
    ((fun (l : LaneId) (cores : BitVec 4) (L : Lane) => L.powered = true) .a 5 ((Uf [(Reg.CM_STATUS_PAIRED, 3)]))) ∧
    ((fun (l : LaneId) (n : Engine) (cores : BitVec 4) (L : Lane) => L.powered = true) .a 2 0 (U)) ∧
    ((fun (l : LaneId) (n : Engine) (cores : BitVec 4) (L : Lane) => L.powered = true ∧ L.is (Reg.DE_CTRL_RUN n.val) = true) .a 2 0 ((Uf [(Reg.DE_CTRL_RUN 2, 1)]))) ∧
    ((fun (l : LaneId) (n : Fin 32) (k : Fin 32) (L : Lane) => L.powered = true ∧ L.sticky (32 * n.val + k.val) = true ∧ (L.fatalSource (32 * n.val + k.val) = false ∨ L.lifecycle < 2) ∧ L.fault.parityBad.contains (0x20030000 + 4 * n.val) = false ∧ L.sourceLevel (32 * n.val + k.val) = false) .a 10 0 ((Uf [(Reg.FC_STICKY_S 10, 1)]))) ∧
    ((fun (l : LaneId) (n : Fin 32) (L : Lane) => L.powered = true ∧ L.fault.parityBad.contains (0x20030000 + 4 * n.val) = false) .a 10 (U)) ∧
    ((fun (l : LaneId) (n : Fin 32) (v : Word) (L : Lane) => L.powered = true ∧ L.fault.parityBad.contains (0x20030000 + 4 * n.val) = true ∧ L.guardSt.powered = true ∧ L.gstate ≠ 3) .a 10 0 ({ Gd with fault := ⟨[], [0x20030028]⟩ })) ∧
    ((fun (l : LaneId) (L : Lane) => L.powered = true ∧ L.fault.parityBad ≠ [] ∧ L.guardSt.powered = true ∧ L.gstate ≠ 3) .a ({ Gd with fault := ⟨[], [0x20030000]⟩ })) ∧
    ((fun (l : LaneId) (L : Lane) => L.powered = true ∧ L.fault.parityBad = []) .a (U)) ∧
    ((fun (l : LaneId) (src : BitVec 10) (L : Lane) => L.powered = true ∧ L.lifecycle = 0 ∧ 2 ≤ L.svc ∧ fixedClass src.toNat ≠ 0) .a 320 ((Uf [(Reg.SYS_STATE_STATE, 2)]))) ∧
    ((fun (l : LaneId) (src : BitVec 10) (L : Lane) => L.powered = true ∧ (L.lifecycle ≠ 0 ∨ L.svc < 2 ∨ fixedClass src.toNat = 0)) .a 320 (U)) ∧
    ((fun (l : LaneId) (L : Lane) => L.powered = true ∧ L.lifecycle = 0) .a (U)) ∧
    ((fun (l : LaneId) (L : Lane) => L.powered = true ∧ L.lifecycle ≠ 0) .a ({ U with sec := { U.sec with lc := 2 } })) ∧
    ((fun (l : LaneId) (dt : Nat) (sd : Side) (L : Lane) => (L.pass dt).due (.link sd) 100000 = true) .a 100000 .prev ({ U with timers := [(.link .prev, 0)] })) := by
  and_intros <;> decide +kernel

theorem witness_slaz_windows :
    ((fun (l : LaneId) (dt : Nat) (c : Fin 2) (w : Fin 64) (e : SlazEntry × Nat) (L : Lane) => L.szRuns c = true ∧ (L.szNow c).find? (fun e => e.1.tx && decide (e.1.window = w.val) && decide (e.1.kind ≠ .reference)) = some e ∧ e.1.kind ≠ .arbitrating ∧ (L.pass dt).szBegun c w.val = true ∧ (vget L.slaz c).opened.contains w.val = false ∧ (vget L.slaz c).copied = none ∧ L.szReady c e.1 = true ∧ (L.pass dt).szFits c e.1 = true ∧ (vget L.slaz c).sending = none) .a 0 0 0 (szTx 0, 0) (Sz [szTx 0, szRx 0] [(Reg.SZ_BST_READY 0 3, 1)])) ∧
    ((fun (l : LaneId) (dt : Nat) (c : Fin 2) (w : Fin 64) (e : SlazEntry × Nat) (L : Lane) => L.szRuns c = true ∧ (L.szNow c).find? (fun e => e.1.tx && decide (e.1.window = w.val) && decide (e.1.kind ≠ .reference)) = some e ∧ e.1.kind ≠ .arbitrating ∧ (L.pass dt).szBegun c w.val = true ∧ (vget L.slaz c).opened.contains w.val = false ∧ (vget L.slaz c).copied = none ∧ L.szReady c e.1 = true ∧ (L.pass dt).szFits c e.1 = true) .a 0 0 0 (szTx 0, 0) (Sz [szTx 0, szRx 0] [(Reg.SZ_BST_READY 0 3, 1)])) ∧
    ((fun (l : LaneId) (dt : Nat) (c : Fin 2) (w : Fin 64) (e : SlazEntry × Nat) (b : Bool) (L : Lane) => L.szRuns c = true ∧ (L.szNow c).find? (fun e => e.1.tx && decide (e.1.window = w.val) && decide (e.1.kind ≠ .reference)) = some e ∧ e.1.kind ≠ .arbitrating ∧ (L.pass dt).szBegun c w.val = true ∧ (vget L.slaz c).opened.contains w.val = false ∧ (vget L.slaz c).copied = none ∧ L.szReady c e.1 = true ∧ (L.pass dt).szFits c e.1 = false) .a 990000 0 0 (szTx 0, 0) true (Sz [szTx 0, szRx 0] [(Reg.SZ_BST_READY 0 3, 1)])) ∧
    ((fun (l : LaneId) (dt : Nat) (c : Fin 2) (w : Fin 64) (e : SlazEntry × Nat) (b : Bool) (L : Lane) => L.szRuns c = true ∧ (L.szNow c).find? (fun e => e.1.tx && decide (e.1.window = w.val) && decide (e.1.kind ≠ .reference)) = some e ∧ e.1.kind ≠ .arbitrating ∧ (L.pass dt).szBegun c w.val = true ∧ (vget L.slaz c).opened.contains w.val = false ∧ (vget L.slaz c).copied = none ∧ L.szReady c e.1 = false) .a 0 0 0 (szTx 0, 0) true (Sz [szTx 0, szRx 0] [])) ∧
    ((fun (l : LaneId) (dt : Nat) (c : Fin 2) (w : Fin 64) (e : SlazEntry × Nat) (L : Lane) => L.szRuns c = true ∧ (L.pass dt).szBegun c w.val = true ∧ (vget L.slaz c).opened.contains w.val = true ∧ (vget L.slaz c).ended.contains w.val = false ∧ (vget L.slaz c).sending = none ∧ e ∈ L.szNow c ∧ e.1.tx = true ∧ e.1.kind = .arbitrating ∧ e.1.window = w.val ∧ e.2 ∈ (vget L.slaz c).pending ∧ L.szReady c e.1 = true ∧ (L.pass dt).szFits c e.1 = true ∧ (∀ o ∈ L.szNow c, o.2 ∈ (vget L.slaz c).pending → L.szReady c o.1 = true → o = e ∨ e.1.ident < o.1.ident)) .a 0 0 0 ({ szTx 0 with kind := .arbitrating }, 0) ((Sz [{ szTx 0 with kind := .arbitrating }, { szRx 0 with tx := true, rx := false, window := 0, kind := .arbitrating }] [(Reg.SZ_BST_READY 0 3, 1), (Reg.SZ_BST_READY 0 4, 1)]).onSlaz 0 (fun z => { z with opened := [0], pending := [0, 1] }))) ∧
    ((fun (l : LaneId) (dt : Nat) (c : Fin 2) (w : Fin 64) (e : SlazEntry × Nat) (L : Lane) => L.szRuns c = true ∧ (L.pass dt).szBegun c w.val = true ∧ (vget L.slaz c).opened.contains w.val = false ∧ (vget L.slaz c).ended.contains w.val = false ∧ e ∈ L.szNow c ∧ e.1.tx = true ∧ e.1.kind = .arbitrating ∧ e.1.window = w.val) .a 0 0 0 ({ szTx 0 with kind := .arbitrating }, 0) ((Sz [{ szTx 0 with kind := .arbitrating }] [(Reg.SZ_BST_READY 0 3, 1)]))) ∧
    ((fun (l : LaneId) (dt : Nat) (c : Fin 2) (since : Nat) (ack : Bool) (L : Lane) => L.firmware = true ∧ (vget L.slaz c).sending = none) .a 0 0 5 true (Sz [szTx 0] [])) ∧
    ((fun (l : LaneId) (dt : Nat) (c : Fin 2) (since : Nat) (ack : Bool) (e : SlazEntry) (i : Nat) (p : List Byte) (L : Lane) => L.firmware = true ∧ (vget L.slaz c).sending = some (i, p) ∧ i ≠ refIndex ∧ (L.szEntries c).find? (fun x => decide (x.2 = i)) = some (e, i) ∧ e.buf < 64 ∧ e.tx = true ∧ e.kind ≠ .vote) .a 0 0 5 true (szTx 0) 0 [1, 2] ((Sz [szTx 0] [(Reg.SZ_BST_READY 0 3, 1)]).onSlaz 0 (fun z => { z with sending := some (0, [1, 2]) }))) ∧
    ((fun (l : LaneId) (dt : Nat) (c : Fin 2) (since : Nat) (f : SlazFrame) (e : SlazEntry × Nat) (L : Lane) => L.szRuns c = true ∧ f.kindOk = true ∧ since ≤ (L.pass dt).cycleTime c ∧ ofLe (f.payload.take 1) = L.szCyc c ∧ e.1.kind ≠ .vote ∧ e.1.buf < 64 ∧ e.1.tx = false ∧ f.payload.length = Check.dlcBytes e.1.dlc ∧ f.payload.length ≤ 64 ∧ (L.szNow c).find? (fun e => e.1.rx && decide (e.1.kind ≠ .reference) && decide (e.1.ident = f.ident) && decide (e.1.dlc = f.dlc) && decide (1000 * e.1.start ≤ (L.pass dt).cycleTime c - since) && decide ((L.pass dt).cycleTime c - since < 1000 * (e.1.start + e.1.len)) && decide ((L.pass dt).cycleTime c ≤ 1000 * (e.1.start + e.1.len))) = some e) .a 20000 0 10000 ⟨41, 8, [0, 2, 3, 4, 5, 6, 7, 8], true⟩ (szRx 0, 1) (Sz [szTx 0, szRx 0] [])) ∧
    ((fun (l : LaneId) (dt : Nat) (c : Fin 2) (since : Nat) (f : SlazFrame) (L : Lane) => L.szOnBus c = true ∧ (L.szRuns c = false ∨ f.kindOk = false ∨ (L.pass dt).cycleTime c < since ∨ ofLe (f.payload.take 1) ≠ L.szCyc c ∨ (L.szNow c).find? (fun e => e.1.rx && decide (e.1.kind ≠ .reference) && decide (e.1.ident = f.ident) && decide (e.1.dlc = f.dlc) && decide (1000 * e.1.start ≤ (L.pass dt).cycleTime c - since) && decide ((L.pass dt).cycleTime c - since < 1000 * (e.1.start + e.1.len)) && decide ((L.pass dt).cycleTime c ≤ 1000 * (e.1.start + e.1.len))) = none)) .a 20000 0 10000 ⟨41, 8, [1, 2, 3], true⟩ (Sz [szTx 0, szRx 0] [])) ∧
    ((fun (l : LaneId) (dt : Nat) (c : Fin 2) (w : Fin 64) (e : SlazEntry × Nat) (L : Lane) => L.szRuns c = true ∧ e.1.buf < 64 ∧ (vget L.slaz c).ended.contains w.val = false ∧ 1000 * (e.1.start + e.1.len) ≤ (L.pass dt).cycleTime c ∧ (vget L.slaz c).copied = none ∧ (L.szNow c).filter (fun e => e.1.rx && decide (e.1.window = w.val) && (decide (e.1.kind = .exclusive) || decide (e.1.kind = .vote)) && !(vget L.slaz c).filled.contains e.2) = [e]) .a 1000000 0 1 (szRx 0, 1) (Sz [szTx 0, szRx 0] [])) ∧
    ((fun (l : LaneId) (dt : Nat) (c : Fin 2) (w : Fin 64) (e : SlazEntry × Nat) (p : List Byte) (L : Lane) => L.szRuns c = true ∧ e.1.buf < 64 ∧ (vget L.slaz c).ended.contains w.val = false ∧ 1000 * (e.1.start + e.1.len) ≤ (L.pass dt).cycleTime c ∧ (vget L.slaz c).copied = some (e.2, p) ∧ (L.szNow c).filter (fun x => decide (x.1.window = w.val)) = [e] ∧ e.1.rx = false) .a 1000000 0 0 (szTx 0, 0) [1] ((Sz [szTx 0, szRx 0] []).onSlaz 0 (fun z => { z with copied := some (0, [1]) }))) ∧
    ((fun (l : LaneId) (core : Core) (c : Fin 2) (b : Fin 64) (L : Lane) => L.coreLive core = true ∧ L.waitsCommit (some core) = false ∧ L.waitsAt (some core) = none ∧ L.asleep (0x20073000 + 0x100 * c.val + 0x4 * b.val) = none ∧ L.bufTx c b.val = true) .a 0 0 3 (cores (Sz [szTx 0] []))) ∧
    ((fun (l : LaneId) (core : Core) (c : Fin 2) (b : Fin 64) (L : Lane) => L.coreLive core = true ∧ L.waitsCommit (some core) = false ∧ L.waitsAt (some core) = none ∧ L.asleep (0x20073000 + 0x100 * c.val + 0x4 * b.val) = none ∧ L.bufTx c b.val = false) .a 0 0 4 (cores (Sz [szTx 0] []))) := by
  and_intros <;> decide +kernel

theorem witness_slaz_controllers :
    ((fun (l : LaneId) (dt : Nat) (c : Fin 2) (since : Nat) (rank : Fin 8) (payload : Word) (L : Lane) => L.szLive = true ∧ L.szState c = 1) .a 50 0 20 2 0x70903 (Sz [] [(Reg.SZ_STAT_STATE 0, 1)])) ∧
    ((fun (l : LaneId) (dt : Nat) (c : Fin 2) (since : Nat) (rank : Fin 8) (payload : Word) (L : Lane) => L.szLive = true ∧ (L.szState c = 0 ∨ L.szState c = 6)) .a 50 0 20 2 0x70903 (Sz [] [(Reg.SZ_STAT_STATE 0, 6)])) ∧
    ((fun (l : LaneId) (dt : Nat) (c : Fin 2) (since : Nat) (rank : Fin 8) (payload : Word) (L : Lane) => L.szLive = true ∧ L.szState c = 2) .a 50 0 20 0 0x70903 (Sz [] [(Reg.SZ_STAT_STATE 0, 2)])) ∧
    ((fun (l : LaneId) (dt : Nat) (c : Fin 2) (since : Nat) (rank : Fin 8) (payload : Word) (L : Lane) => L.szLive = true ∧ L.szState c = 3) .a 50 0 20 0 0x70000 (Sz [] [(Reg.SZ_STAT_STATE 0, 3)])) ∧
    ((fun (l : LaneId) (dt : Nat) (c : Fin 2) (since : Nat) (rank : Fin 8) (payload : Word) (L : Lane) => L.szLive = true ∧ L.szState c = 4 ∧ (L.pass dt).inRefWindow c since = true) .a 50 0 20 0 0x70000 (Sz [refWin 0] [])) ∧
    ((fun (l : LaneId) (dt : Nat) (c : Fin 2) (since : Nat) (rank : Fin 8) (payload : Word) (L : Lane) => L.szLive = true ∧ (L.szState c = 4 ∨ L.szState c = 5) ∧ (L.pass dt).inRefWindow c since = false) .a 50 0 20 0 0x70000 (Sz [] [])) ∧
    ((fun (l : LaneId) (dt : Nat) (c : Fin 2) (since : Nat) (rank : Fin 8) (payload : Word) (L : Lane) => L.szLive = true ∧ L.szState c = 5 ∧ (L.pass dt).inRefWindow c since = true) .a 50 0 20 0 0x70000 (Sz [refWin 0] [(Reg.SZ_STAT_STATE 0, 5)])) ∧
    ((fun (l : LaneId) (dt : Nat) (c : Fin 2) (since : Nat) (ack : Bool) (p : List Byte) (L : Lane) => L.firmware = true ∧ (vget L.slaz c).sending = some (refIndex, p) ∧ (L.szState c = 2 ∨ L.szState c = 4 ∨ L.szState c = 5)) .a 50 0 20 true [] ((Sz [] [(Reg.SZ_STAT_STATE 0, 2)]).onSlaz 0 (fun z => { z with sending := some (refIndex, []) }))) ∧
    ((fun (l : LaneId) (dt : Nat) (c : Fin 2) (L : Lane) => L.szLive = true ∧ L.szState c = 4 ∧ L.szRank < 8 ∧ (vget L.slaz c).cycRef = false ∧ L.szDelay (L.szLen c) L.szRank ≤ (L.pass dt).cycleTime c) .a 100000 0 (Sz [] [])) ∧
    ((fun (l : LaneId) (dt : Nat) (c : Fin 2) (L : Lane) => L.szLive = true) .a 100000 0 (Sz [] [])) ∧
    ((fun (l : LaneId) (dt : Nat) (c : Fin 2) (L : Lane) => L.szLive = true ∧ L.szState c = 1 ∧ L.szRank < 8 ∧ (L.pass dt).due (.szListen c) L.szListenNs = true) .a 2000000 0 ({ Sz [] [(Reg.SZ_STAT_STATE 0, 1)] with timers := [(.szListen 0, 0)] })) ∧
    ((fun (l : LaneId) (dt : Nat) (c : Fin 2) (L : Lane) => L.szLive = true ∧ L.szState c = 3 ∧ (vget L.slaz c).mark + 2 * L.szLen c ≤ (L.pass dt).el) .a 2000000 0 (Sz [] [(Reg.SZ_STAT_STATE 0, 3)])) ∧
    ((fun (l : LaneId) (c : Fin 2) (L : Lane) => L.szLive = true ∧ (L.szState c = 4 ∨ L.szState c = 5) ∧ 2 ≤ (vget L.slaz c).missed) .a 0 ((Sz [] []).onSlaz 0 (fun z => { z with missed := 2 }))) ∧
    ((fun (l : LaneId) (c : Fin 2) (tec rec : Nat) (L : Lane) => L.szLive = true ∧ L.szState c ≠ 0 ∧ L.szState c ≠ 6) .a 0 130 3 (Sz [] [(Reg.SZ_STAT_STATE 0, 2)])) ∧
    ((fun (l : LaneId) (c : Fin 2) (L : Lane) => L.szLive = true ∧ L.szState c ≠ 0 ∧ L.szState c ≠ 6) .a 0 (Sz [] [])) ∧
    ((fun (l : LaneId) (c : Fin 2) (L : Lane) => L.szLive = true ∧ L.szState c = 6) .a 0 (Sz [] [(Reg.SZ_STAT_STATE 0, 6)])) ∧
    ((fun (l : LaneId) (core : Core) (c : Fin 2) (en : Bool) (L : Lane) => L.coreLive core = true ∧ L.waitsCommit (some core) = false ∧ L.waitsAt (some core) = none ∧ L.asleep (0x20070000) = none ∧ L.szLive = true) .a 0 0 true (cores (Sz [] [(Reg.SZ_STAT_STATE 0, 0)]))) ∧
    ((fun (l : LaneId) (dt : Nat) (c : Fin 2) (L : Lane) => L.firmware = true ∧ L.szLen c ≤ (L.pass dt).cycleTime c ∧ L.zLoss c = false ∧ L.szRuns c = false ∧ L.rd (Reg.SZ_STAT_SILENT c.val) < 2) .a 1000000 0 (Sz [] [(Reg.SZ_STAT_STATE 0, 1)])) ∧
    ((fun (l : LaneId) (dt : Nat) (c : Fin 2) (L : Lane) => L.szLive = true ∧ L.szLen c ≤ (L.pass dt).cycleTime c ∧ L.szState c = 5 ∧ (vget L.slaz c).anyFrame = true ∧ (vget L.slaz c).cycRef = true ∧ L.szCyc c + 1 ≠ L.szCycles c ∧ L.szCycles c ≤ 64) .a 1000000 0 ((Sz [] [(Reg.SZ_STAT_STATE 0, 5), (Reg.SZ_STAT_CYC 0, 5)]).onSlaz 0 (fun z => { z with anyFrame := true, cycRef := true }))) ∧
    ((fun (l : LaneId) (dt : Nat) (c : Fin 2) (L : Lane) => L.szLive = true ∧ L.szLen c ≤ (L.pass dt).cycleTime c ∧ L.szState c = 4 ∧ (vget L.slaz c).anyFrame = true ∧ L.szCyc c + 1 = L.szCycles c ∧ L.is (Reg.SZ_STAT_SWPEND c.val) = true) .a 1000000 0 ((Sz [] [(Reg.SZ_STAT_SWPEND 0, 1), (Reg.SZ_STAT_NMODE 0, 1)]).onSlaz 0 (fun z => { z with anyFrame := true }))) := by
  and_intros <;> decide +kernel

theorem witness_slaz_controllers_20 :
    ((fun (l : LaneId) (dt : Nat) (c : Fin 2) (L : Lane) => L.firmware = true ∧ L.szLen c ≤ (L.pass dt).cycleTime c ∧ L.szState c ≠ 4 ∧ L.szState c ≠ 5 ∧ 2 ≤ L.rd (Reg.SZ_STAT_SILENT c.val) ∧ (∀ s : Side, (L.pass dt).fresh s = none)) .a 1000000 0 (Sz [] [(Reg.SZ_STAT_STATE 0, 1), (Reg.SZ_STAT_SILENT 0, 2)])) := by
  refine ⟨by decide +kernel, by decide +kernel, by decide +kernel, by decide +kernel, by decide +kernel, ?_⟩
  intro s; cases s <;> decide +kernel

theorem witness_slaz_controllers_21 :
    ((fun (l : LaneId) (dt : Nat) (f : Func) (L : Lane) => L.mode f = 1 ∧ (∀ c : Fin 2, funcOfChannel c = f → (L.pass dt).zClear c = true)) .a 0 .park ((Uf [(Reg.ROLE_FUNC_MODE Func.park.code, 1)]).onFn .park (fun x => { x with causes := [2] }))) := by
  refine ⟨by decide +kernel, ?_⟩
  intro c h; fin_cases c <;> exact absurd h (by decide)

theorem witness_device_time :
    ((fun (l : LaneId) (dt : Nat) (L : Lane) => L.powered = true ∧ (L.running .timeSend = false ∨ (L.pass dt).due .timeSend 10000 = true)) .a 0 (U)) ∧
    ((fun (l : LaneId) (dt : Nat) (L : Lane) => L.running .timeSend = true ∧ (L.pass dt).due .timeSend 10000 = false) .a 9999 ({ U with timers := [(.timeSend, 0)] })) ∧
    ((fun (l : LaneId) (dt : Nat) (sd : Side) (f : TimeFrame) (L : Lane) => L.powered = true ∧ f.echo = none) .a 5 .prev (timeFrame 12) (U)) ∧
    ((fun (l : LaneId) (dt : Nat) (sd : Side) (f : TimeFrame) (t1 t2 : Nat) (L : Lane) => L.powered = true ∧ L.agrees sd = false ∧ f.echo = some (t1, t2) ∧ (L.pass dt).fixStamp (t1 / 65536) = t1 / 65536) .a 0 .prev { timeFrame 12 with echo := some (0, 0) } 0 0 (U)) ∧
    ((fun (l : LaneId) (dt : Nat) (sd : Side) (f : TimeFrame) (t1 t2 : Nat) (L : Lane) => L.powered = true ∧ L.agrees sd = true ∧ f.echo = some (t1, t2) ∧ (L.pass dt).fixStamp (t1 / 65536) = t1 / 65536) .a 0 .prev { timeFrame 900 with echo := some (0, 0) } 0 0 ({ U.onNbT .prev (fun n => { n with agree := true, badRun := 9, frame := some (timeFrame 900) }) with id := .b })) ∧
    ((fun (l : LaneId) (dt : Nat) (sd : Side) (f : TimeFrame) (L : Lane) => L.powered = true ∧ f.echo = none ∧ L.agrees sd = true ∧ L.sideCode sd < L.id.code ∧ f.leader = true ∧ f.disc < 8) .a 0 .prev { timeFrame 0 with leader := true, disc := 5, jumpPend := true, step := some (5000, 1000000) } ({ Pt 3 0 [(Reg.SYS_STATE_STATE, 3)] with id := .b }.onNbT .prev (fun n => { n with agree := true, frame := some (timeFrame 0) }))) ∧
    ((fun (l : LaneId) (dt : Nat) (sd : Side) (L : Lane) => L.agrees sd = false ∧ (L.pass dt).due (.agree sd) 1000000 = true) .a 0 .next ({ U with timers := [(.agree .next, 0)], time := { U.time with elapsed := 1000000 * 2 ^ 48 } })) ∧
    ((fun (l : LaneId) (dt : Nat) (d : Int) (t : Nat) (L : Lane) => L.time.step = some (d, t) ∧ t ≤ (L.pass dt).now) .a 0 5000 0 (U.onTime (fun t => { t with step := some (5000, 0) }))) ∧
    ((fun (l : LaneId) (dt : Nat) (L : Lane) => (L.time.step.map (fun d => decide (d.2 ≤ (L.pass dt).now))).getD false = false) .a 9 (U)) ∧
    ((fun (l : LaneId) (o t gm seq : Nat) (corr : Int) (ls : BitVec 4) (L : Lane) => L.ptpOn = true ∧ L.rd Reg.PD_STATE_STATE_3 = 0 ∧ -5 ≤ ls.toInt ∧ ls.toInt ≤ 0) .a 500 300 7 9 0 (-3) (Pt 1 0 [])) ∧
    ((fun (l : LaneId) (o t gm seq : Nat) (corr : Int) (ls : BitVec 4) (L : Lane) => L.rd Reg.PD_STATE_STATE_3 = 0 ∧ (ls.toInt < -5 ∨ 0 < ls.toInt)) .a 500 300 7 9 0 3 (Pt 1 0 [])) ∧
    ((fun (l : LaneId) (gm : Nat) (sl : Bool) (L : Lane) => L.ptpOn = true ∧ L.rd Reg.PD_STATE_STATE_3 = 0) .a 7 true (Pt 1 0 [])) ∧
    ((fun (l : LaneId) (dt : Nat) (L : Lane) => L.ptpOn = true ∧ L.rd Reg.PD_STATE_STATE_3 = 0 ∧ (L.pass dt).due .pdelay L.pdelayNs = true) .a 0 ({ Pt 1 0 [] with timers := [(.pdelay, 0)], time := { U.time with elapsed := 2000000000 * 2 ^ 48 } })) ∧
    ((fun (l : LaneId) (seq t : Nat) (L : Lane) => L.ptpOn = true ∧ L.rd Reg.PD_STATE_STATE_3 = 0) .a 4 9 (Pt 1 0 [])) ∧
    ((fun (l : LaneId) (seq t : Nat) (L : Lane) => L.rd Reg.PD_STATE_STATE_3 = 2 ∨ L.rd Reg.PD_STATE_STATE_3 = 3) .a 4 9 (Pt 1 0 [(Reg.PD_STATE_STATE_3, 2)])) ∧
    ((fun (l : LaneId) (seq t2 t3 t4 t1 : Nat) (r : Int) (L : Lane) => L.ptpOn = true ∧ L.rd Reg.PD_STATE_STATE_3 = 0 ∧ L.ptp.t1 = some t1 ∧ seq = L.ptp.seq) .a 0 20 30 50 10 0 ({ Pt 1 0 [] with ptp := { U.ptp with t1 := some 10 } })) ∧
    ((fun (l : LaneId) (seq t2 t3 t4 : Nat) (r : Int) (L : Lane) => L.rd Reg.PD_STATE_STATE_3 = 0 ∧ (L.ptp.t1 = none ∨ seq ≠ L.ptp.seq)) .a 5 20 30 50 0 (Pt 1 0 [])) ∧
    ((fun (l : LaneId) (L : Lane) => L.powered = true) .a (U)) := by
  and_intros <;> decide +kernel

theorem witness_device_time_7 :
    ((fun (l : LaneId) (dt : Nat) (sd : Side) (L : Lane) => (∀ s : Side, s ≠ sd → L.agrees s = false) ∧ L.agrees sd = true ∧ (L.pass dt).due (.timeFrame sd) 100000 = true) .a 0 .next ({ (Uf [(Reg.SYS_STATE_STATE, 3)]).onNbT .next (fun n => { n with agree := true }) with timers := [(.timeFrame .next, 0)] }.onTime (fun t => { t with elapsed := 100000 * 2 ^ 48 }))) := by
  refine ⟨?_, by decide +kernel⟩
  intro s h; cases s
  · decide +kernel
  · exact absurd rfl h

theorem witness_time_discipline_and_pulses :
    ((fun (l : LaneId) (dt g seq : Nat) (o : Int) (L : Lane) => L.ptpOn = true ∧ L.isLeader = true ∧ L.gmFollowed = some (g, seq) ∧ Lane.combine (L.gmOffsets g seq).1 = some o ∧ L.time.decided ≠ some (g, seq) ∧ ((L.gmOffsets g seq).2 = true ∨ (L.pass dt).due .sync 2000000 = true) ∧ (L.rd Reg.TS_STAT_DISC = 1 ∨ L.rd Reg.TS_STAT_DISC = 2 ∨ L.rd Reg.TS_STAT_DISC = 3 ∨ L.rd Reg.TS_STAT_DISC = 4) ∧ L.acquiring = false ∧ 1000 < o.natAbs ∧ L.rd Reg.TS_JTHR < o.natAbs) .a 0 77 0 2000000 (Pt 2 2000000 [(Reg.SYS_STATE_STATE, 3)])) ∧
    ((fun (l : LaneId) (dt g seq : Nat) (o : Int) (L : Lane) => L.ptpOn = true ∧ L.isLeader = true ∧ L.gmFollowed = some (g, seq) ∧ Lane.combine (L.gmOffsets g seq).1 = some o ∧ L.time.decided ≠ some (g, seq) ∧ ((L.gmOffsets g seq).2 = true ∨ (L.pass dt).due .sync 2000000 = true) ∧ (L.rd Reg.TS_STAT_DISC = 1 ∨ L.rd Reg.TS_STAT_DISC = 2 ∨ L.rd Reg.TS_STAT_DISC = 3 ∨ L.rd Reg.TS_STAT_DISC = 4) ∧ L.acquiring = false ∧ o.natAbs ≤ 1000) .a 5 77 0 40 ((Pt 2 40 [(Reg.SYS_STATE_STATE, 3)]).onTime (fun t => { t with lockedRun := 7 }))) ∧
    ((fun (l : LaneId) (dt g seq : Nat) (o : Int) (L : Lane) => L.ptpOn = true ∧ L.isLeader = true ∧ L.gmFollowed = some (g, seq) ∧ Lane.combine (L.gmOffsets g seq).1 = some o ∧ L.time.decided ≠ some (g, seq) ∧ ((L.gmOffsets g seq).2 = true ∨ (L.pass dt).due .sync 2000000 = true) ∧ (L.rd Reg.TS_STAT_DISC = 1 ∨ L.rd Reg.TS_STAT_DISC = 2 ∨ L.rd Reg.TS_STAT_DISC = 3 ∨ L.rd Reg.TS_STAT_DISC = 4) ∧ L.time.step = none ∧ (L.acquiring = true ∨ (1000 < o.natAbs ∧ o.natAbs ≤ L.rd Reg.TS_JTHR))) .a 5 77 0 (-3000) (Pt 1 (-3000) [])) ∧
    ((fun (l : LaneId) (dt g seq : Nat) (o : Int) (L : Lane) => L.ptpOn = true ∧ L.isLeader = true ∧ L.gmFollowed = some (g, seq) ∧ Lane.combine (L.gmOffsets g seq).1 = some o ∧ L.time.decided ≠ some (g, seq) ∧ ((L.gmOffsets g seq).2 = true ∨ (L.pass dt).due .sync 2000000 = true) ∧ L.rd Reg.TS_STAT_DISC = 5 ∧ (L.acquiring = true ∨ o.natAbs ≤ 1000 ∨ o.natAbs ≤ L.rd Reg.TS_JTHR)) .a 5 77 0 (-3000) (Pt 5 (-3000) [(Reg.TS_JUMP_PEND, 1)])) ∧
    ((fun (l : LaneId) (dt : Nat) (L : Lane) => L.gmFollowed = none ∨ L.isLeader = false ∨ L.ptpOn = false) .a 7 (U)) ∧
    ((fun (l : LaneId) (dt : Nat) (L : Lane) => L.ptpOn = true ∧ (L.pass dt).isLeader = true ∧ ((L.pass dt).due .sync L.syncNs = true ∨ (L.pass dt).due .announce 3000000000 = true) ∧ (L.rd Reg.TS_STAT_DISC = 2 ∨ L.rd Reg.TS_STAT_DISC = 3)) .a 0 ({ Pt 3 0 [] with timers := [(.sync, 0)] }.onTime (fun t => { t with elapsed := 4000000000 * 2 ^ 48 }))) ∧
    ((fun (l : LaneId) (L : Lane) => L.firmware = true ∧ L.rd Reg.TS_STAT_DISC = 5 ∧ L.isLeader = true ∧ L.time.step = none) .a (Pt 5 0 [(Reg.TS_JUMP_PEND, 1)])) ∧
    ((fun (l : LaneId) (L : Lane) => L.firmware = true ∧ L.rd Reg.TS_STAT_DISC = 5 ∧ L.isLeader = true) .a (Pt 5 0 [(Reg.TS_JUMP_PEND, 1)])) ∧
    ((fun (l : LaneId) (L : Lane) => L.firmware = true ∧ L.rd Reg.TS_STAT_DISC = 6 ∧ L.isLeader = true) .a (Pt 6 0 [])) ∧
    ((fun (l : LaneId) (L : Lane) => L.firmware = true ∧ L.rd Reg.TS_STAT_DISC = 5 ∧ L.isLeader = false) .a ({ Pt 5 0 [] with id := .b }.onNbT .prev (fun n => { n with agree := true, frame := some (timeFrame 0) }))) ∧
    ((fun (l : LaneId) (L : Lane) => L.firmware = true ∧ L.rd Reg.TS_STAT_DISC ≠ 5) .a (Pt 3 0 [])) ∧
    ((fun (l : LaneId) (L : Lane) => L.firmware = true ∧ L.rd Reg.TS_STAT_DISC ≠ 6) .a (Pt 3 0 [])) ∧
    ((fun (l : LaneId) (core : Core) (n : Fin 4) (v : Word) (L : Lane) => L.coreLive core = true ∧ L.waitsCommit (some core) = false ∧ L.waitsAt (some core) = none ∧ L.asleep (0x20060100 + 0x20 * n.val) = none ∧ L.firmware = true ∧ v.toNat % 4 = 0) .a 0 1 0x50#32 (cores (Uf [(Reg.TP_CFG_MODE 1, 2)]))) ∧
    ((fun (l : LaneId) (core : Core) (n : Fin 4) (v : Word) (L : Lane) => L.coreLive core = true ∧ L.waitsCommit (some core) = false ∧ L.waitsAt (some core) = none ∧ L.asleep (0x20060100 + 0x20 * n.val) = none ∧ L.firmware = true ∧ v.toNat % 4 = 1 ∧ L.rd (Reg.TP_CFG_MODE n.val) = 0) .a 0 1 0x51#32 (cores (Uf [(Reg.TP_START 1, 5000)]))) ∧
    ((fun (l : LaneId) (core : Core) (n : Fin 4) (v : Word) (L : Lane) => L.coreLive core = true ∧ L.waitsCommit (some core) = false ∧ L.waitsAt (some core) = none ∧ L.asleep (0x20060100 + 0x20 * n.val) = none ∧ L.firmware = true ∧ v.toNat % 4 = 2 ∧ 10 * (v.toNat / 16) < L.rd (Reg.TP_PERIOD n.val)) .a 0 1 0x52#32 (cores (Uf [(Reg.TP_PERIOD 1, 5000), (Reg.TP_START 1, 300)]))) ∧
    ((fun (l : LaneId) (core : Core) (n : Fin 4) (v : Word) (L : Lane) => L.coreLive core = true ∧ L.waitsCommit (some core) = false ∧ L.waitsAt (some core) = none ∧ L.asleep (0x20060100 + 0x20 * n.val) = none ∧ v.toNat % 4 = 2 ∧ L.rd (Reg.TP_PERIOD n.val) ≤ 10 * (v.toNat / 16)) .a 0 1 0x52#32 (cores (Uf [(Reg.TP_PERIOD 1, 40)]))) ∧
    ((fun (l : LaneId) (n : Fin 4) (dt : Nat) (L : Lane) => L.rd (Reg.TP_CFG_MODE n.val) = 1 ∧ (vget L.pulse n).active = false ∧ (vget L.pulse n).next ≤ (L.pass dt).now) .a 1 0 (Uf [(Reg.TP_CFG_MODE 1, 1)])) ∧
    ((fun (l : LaneId) (n : Fin 4) (dt : Nat) (L : Lane) => L.rd (Reg.TP_CFG_MODE n.val) = 2 ∧ (vget L.pulse n).active = false ∧ (vget L.pulse n).next ≤ (L.pass dt).now) .a 1 0 (Uf [(Reg.TP_CFG_MODE 1, 2)])) ∧
    ((fun (l : LaneId) (n : Fin 4) (dt : Nat) (L : Lane) => (vget L.pulse n).active = true ∧ (vget L.pulse n).endAt ≤ (L.pass dt).el) .a 1 0 ({ Uf [(Reg.TP_CFG_MODE 1, 1)] with pulse := vupd U.pulse 1 (fun p => { p with active := true }) })) := by
  and_intros <;> decide +kernel

theorem witness_host_ports_and_queues :
    ((fun (l : LaneId) (f : HostFrame) (h : Fin 4) (L : Lane) => L.rd Reg.PD_STATE_STATE_3 = 0 ∧ f.port = h.val ∧ L.portLive h = true ∧ (vget L.host h).rate.1 = L.el / 1000000000 ∧ 300 ≤ (vget L.host h).rate.2) .a ⟨hostMagic, 1, 0, 0, 5, 1, Vector.replicate 16 0, [], []⟩ 0 ((Hp 0 0 []).onHost 0 (fun x => { x with rate := (0, 300) }))) ∧
    ((fun (l : LaneId) (f : HostFrame) (h : Fin 4) (L : Lane) => L.rd Reg.PD_STATE_STATE_3 = 0 ∧ f.port = h.val ∧ L.portLive h = true ∧ ((vget L.host h).rate.1 ≠ L.el / 1000000000 ∨ (vget L.host h).rate.2 < 300) ∧ (f.magic ≠ hostMagic ∨ f.version ≠ 1 ∨ f.dirf ≠ 0 ∨ (L.portRec h).transport ≠ 0 ∨ (f.session ≠ 0 ∧ f.fcnt ≤ (vget L.host h).fcnt) ∨ (f.session ≠ 0 ∧ L.sessionOpen h = false))) .a ⟨hostMagic, 1, 0, 0, 5, 0, Vector.replicate 16 0, [], []⟩ 0 ((Hp 0 0 []))) ∧
    ((fun (l : LaneId) (f : HostFrame) (h : Fin 4) (L : Lane) => L.rd Reg.PD_STATE_STATE_3 = 0 ∧ f.port = h.val ∧ L.portLive h = true ∧ ((vget L.host h).rate.1 ≠ L.el / 1000000000 ∨ (vget L.host h).rate.2 < 300) ∧ f.magic = hostMagic ∧ f.version = 1 ∧ f.dirf = 0 ∧ f.descrs = [] ∧ (L.portRec h).transport = 0 ∧ L.sessionOpen h = true ∧ f.session = (vget L.host h).session ∧ (vget L.host h).fcnt < f.fcnt ∧ f.session ≠ 0) .a ⟨hostMagic, 1, 0, 0, 5, 1, Vector.replicate 16 0, [], []⟩ 0 ((Hp 0 0 []).onHost 0 (fun x => { x with session := 5 }))) ∧
    ((fun (l : LaneId) (f : HostFrame) (L : Lane) => L.rd Reg.PD_STATE_STATE_3 = 3) .a ⟨hostMagic, 1, 0, 0, 5, 0, Vector.replicate 16 0, [], []⟩ (Hp 0 0 [(Reg.PD_STATE_STATE_3, 3)])) ∧
    ((fun (l : LaneId) (dt : Nat) (h : Fin 4) (L : Lane) => L.sessionOpen h = true ∧ (L.pass dt).due (.session h) 1000000000 = true) .a 0 0 ({ Hp 0 0 [] with timers := [(.session 0, 0)], time := { U.time with elapsed := 1000000000 * 2 ^ 48 } })) ∧
    ((fun (l : LaneId) (k : HostCmd) (L : Lane) => L.portLive k.port = true ∧ L.sessionOpen k.port = true) .a ⟨0, 7⟩ (Hp 0 0 [])) ∧
    ((fun (l : LaneId) (k : HostCmd) (v : BitVec 128) (L : Lane) => L.portLive k.port = true ∧ L.sessionOpen k.port = true ∧ (L.is Reg.SYS_FEAT_CTRL_LOCK = false ∨ L.hostLocked k.port = true)) .a ⟨0, 7⟩ 2047#128 (Hp 0 0 [])) ∧
    ((fun (l : LaneId) (k : HostCmd) (v : BitVec 128) (L : Lane) => L.portLive k.port = true ∧ L.sessionOpen k.port = true ∧ L.is Reg.SYS_FEAT_CTRL_LOCK = true ∧ L.hostLocked k.port = false ∧ v.getLsbD 0 = true ∧ Nat.land v.toNat (L.offerTo k.port) = v.toNat) .a ⟨0, 7⟩ 129#128 (Hp 0 0 [(Reg.HQ_PORT_FLOCK 0, 0)])) ∧
    ((fun (l : LaneId) (k : HostCmd) (v : BitVec 128) (L : Lane) => L.portLive k.port = true ∧ L.sessionOpen k.port = true ∧ L.is Reg.SYS_FEAT_CTRL_LOCK = true ∧ L.hostLocked k.port = false ∧ (v.getLsbD 0 = false ∨ Nat.land v.toNat (L.offerTo k.port) ≠ v.toNat)) .a ⟨0, 7⟩ 128#128 (Hp 0 0 [(Reg.HQ_PORT_FLOCK 0, 0)])) ∧
    ((fun (l : LaneId) (k : HostCmd) (L : Lane) => L.portLive k.port = true) .a ⟨0, 7⟩ (Hp 0 0 [])) ∧
    ((fun (l : LaneId) (k : HostCmd) (n : Nat) (sig : List Byte) (L : Lane) => L.portLive k.port = true ∧ (vget L.host k.port).nonce = some n ∧ L.running (.nonce k.port) = true ∧ L.due (.nonce k.port) 10000000001 = false ∧ (∀ q : Fin 16, (vget L.img.queue q).port = (k.port).val → L.rd (Reg.HQ_BASE q.val) ≠ 0)) .a ⟨0, 7⟩ 99 [] ({ (Hp 0 0 []).onHost 0 (fun x => { x with nonce := some 99 }) with timers := [(.nonce 0, 0)] })) ∧
    ((fun (l : LaneId) (k : HostCmd) (n : Nat) (sig : List Byte) (L : Lane) => L.portLive k.port = true ∧ ((vget L.host k.port).nonce ≠ some n ∨ L.running (.nonce k.port) = false ∨ L.due (.nonce k.port) 10000000001 = true)) .a ⟨0, 7⟩ 99 [] (Hp 0 0 [])) ∧
    ((fun (l : LaneId) (k : HostCmd) (L : Lane) => L.Admits k.port none none none) .a ⟨0, 7⟩ (Hp 0 0 [])) ∧
    ((fun (l : LaneId) (q : Fin 16) (d : Descr) (r : List Descr) (L : Lane) => (vget L.img.queue q).port ≠ 255 ∧ (vget L.img.queue q).dir = 0 ∧ (vget L.queue q).slots = d :: r) .a 0 ⟨5, 0, 0, 0, 0, []⟩ [] ((Hp 0 0 [(Reg.HQ_STAT_USED 0, 1)]).onQueue 0 (fun x => { x with slots := [⟨5, 0, 0, 0, 0, []⟩] }))) ∧
    ((fun (l : LaneId) (q : Fin 16) (L : Lane) => (vget L.img.queue q).port ≠ 255 ∧ (vget L.img.queue q).dir = 0 ∧ (vget L.queue q).slots = []) .a 0 (Hp 0 0 [])) ∧
    ((fun (l : LaneId) (q : Fin 16) (L : Lane) => (vget L.img.queue q).port ≠ 255 ∧ (vget L.img.queue q).dir = 1) .a 1 (Hp 0 0 [])) := by
  and_intros <;> decide +kernel

theorem witness_host_commands :
    ((fun (l : LaneId) (k : HostCmd) (L : Lane) => L.portLive k.port = true ∧ L.sessionOpen k.port = true ∧ (L.hostLocked k.port = false ∨ L.perm k.port 5 = false)) .a ⟨0, 7⟩ (Hp 1 0 [(Reg.HQ_PORT_FLOCK 0, 0)])) ∧
    ((fun (l : LaneId) (k : HostCmd) (L : Lane) => L.sessionOpen k.port = false) .a ⟨0, 7⟩ (Hp 1 0 [(Reg.HQ_PORT_SESSION 0, 1)])) ∧
    ((fun (l : LaneId) (k : HostCmd) (n : Nat) (L : Lane) => L.portLive k.port = true ∧ L.sessionOpen k.port = true ∧ L.hostLocked k.port = true ∧ nbit (L.hostSet k.port) 10 = false) .a ⟨0, 7⟩ 5 (Hp 1 0 [(Reg.SYS_HOSTFEAT 0 0, 1)])) ∧
    ((fun (l : LaneId) (k : HostCmd) (f : Func) (L : Lane) => L.portLive k.port = true ∧ L.sessionOpen k.port = true ∧ L.hostLocked k.port = true ∧ L.perm k.port ((permOf f).getD 31) = true ∧ L.hostSplit k.port f = true) .a ⟨0, 7⟩ .steer ({ Hp 1 0 [(Reg.ROLE_FUNC_ACT 0, 1)] with nb := Vector.replicate 2 (some (Lane.statusFrame U)) })) ∧
    ((fun (l : LaneId) (k : HostCmd) (f : Func) (L : Lane) => L.Admits k.port none (some ((permOf f).getD 31)) (some f) ∧ (L.mode f ≠ 0 ∨ L.ranked k.port f = false)) .a ⟨0, 7⟩ .steer (Hp 1 0 [(Reg.ROLE_FUNC_MODE 0, 1)])) ∧
    ((fun (l : LaneId) (k : HostCmd) (f : Func) (L : Lane) => L.Admits k.port none (some ((permOf f).getD 31)) (some f) ∧ L.mode f = 0 ∧ L.ranked k.port f = true) .a ⟨0, 7⟩ .steer (Hp 1 0 [])) ∧
    ((fun (l : LaneId) (k : HostCmd) (n : Nat) (L : Lane) => L.Admits k.port none none none ∧ 5 ≤ n) .a ⟨0, 7⟩ 5 (Hp 1 0 [])) ∧
    ((fun (l : LaneId) (k : HostCmd) (f : Func) (L : Lane) => L.Admits k.port none (some ((permOf f).getD 31)) (some f)) .a ⟨0, 7⟩ .steer (Hp 1 0 [(Reg.HQ_PORT_ENGAGED 0, 1)])) ∧
    ((fun (l : LaneId) (k : HostCmd) (v : Word) (n : Nat) (L : Lane) => L.Admits k.port none (some 0) (some .steer) ∧ 10 ≤ n ∧ n ≤ 1000 ∧ L.ranked k.port .steer = true ∧ L.engagedFor k.port .steer = true ∧ L.rd (Reg.HQ_AUTH_SEL 0) = 0) .a ⟨0, 7⟩ 0x3F800000#32 60 (Hp 1 0 [(Reg.HQ_PORT_ENGAGED 0, 31)])) ∧
    ((fun (l : LaneId) (k : HostCmd) (v : Word) (n : Nat) (L : Lane) => L.Admits k.port none (some 0) (some .steer) ∧ (n < 10 ∨ 1000 < n)) .a ⟨0, 7⟩ 0x3F800000#32 5 (Hp 1 0 [])) ∧
    ((fun (l : LaneId) (k : HostCmd) (v : Word) (n : Nat) (L : Lane) => L.Admits k.port none (some 0) (some .steer) ∧ 10 ≤ n ∧ n ≤ 1000 ∧ (L.ranked k.port .steer = false ∨ L.engagedFor k.port .steer = false)) .a ⟨0, 7⟩ 0x3F800000#32 50 (Hp 1 0 [])) ∧
    ((fun (l : LaneId) (k : HostCmd) (v : Word) (n : Nat) (L : Lane) => L.Admits k.port none (some 0) (some .steer) ∧ 10 ≤ n ∧ n ≤ 1000 ∧ L.ranked k.port .steer = true ∧ L.engagedFor k.port .steer = true ∧ L.rd (Reg.HQ_AUTH_SEL 0) ≠ 0 ∧ kindRank (L.portRec k.port).kind ≠ some (L.rd (Reg.HQ_AUTH_SEL 0))) .a ⟨0, 7⟩ 0x3F800000#32 60 (Hp 1 0 [(Reg.HQ_PORT_ENGAGED 0, 31), (Reg.HQ_AUTH_SEL 0, 3)])) ∧
    ((fun (l : LaneId) (k : HostCmd) (v : Word) (n : Nat) (L : Lane) => L.Admits k.port none (some 1) (some .brake) ∧ 10 ≤ n ∧ n ≤ 1000 ∧ L.ranked k.port .brake = true ∧ L.engagedFor k.port .brake = true) .a ⟨0, 7⟩ 0x3F800000#32 60 (Hp 1 0 [(Reg.HQ_PORT_ENGAGED 0, 31)])) ∧
    ((fun (l : LaneId) (k : HostCmd) (v : Word) (n : Nat) (L : Lane) => L.Admits k.port none (some 1) (some .brake) ∧ (n < 10 ∨ 1000 < n)) .a ⟨0, 7⟩ 0x3F800000#32 5 (Hp 1 0 [])) ∧
    ((fun (l : LaneId) (k : HostCmd) (v : Word) (n : Nat) (L : Lane) => L.Admits k.port none (some 1) (some .brake) ∧ 10 ≤ n ∧ n ≤ 1000 ∧ (L.ranked k.port .brake = false ∨ L.engagedFor k.port .brake = false)) .a ⟨0, 7⟩ 0x3F800000#32 50 (Hp 1 0 [])) ∧
    ((fun (l : LaneId) (k : HostCmd) (v : Word) (n : Nat) (L : Lane) => L.Admits k.port none (some 2) (some .trail) ∧ 10 ≤ n ∧ n ≤ 1000 ∧ L.ranked k.port .trail = true ∧ L.engagedFor k.port .trail = true) .a ⟨0, 7⟩ 0x3F800000#32 60 (Hp 1 0 [(Reg.HQ_PORT_ENGAGED 0, 31)])) ∧
    ((fun (l : LaneId) (k : HostCmd) (v : Word) (n : Nat) (L : Lane) => L.Admits k.port none (some 2) (some .trail) ∧ (n < 10 ∨ 1000 < n)) .a ⟨0, 7⟩ 0x3F800000#32 5 (Hp 1 0 [])) ∧
    ((fun (l : LaneId) (k : HostCmd) (v : Word) (n : Nat) (L : Lane) => L.Admits k.port none (some 2) (some .trail) ∧ 10 ≤ n ∧ n ≤ 1000 ∧ (L.ranked k.port .trail = false ∨ L.engagedFor k.port .trail = false)) .a ⟨0, 7⟩ 0x3F800000#32 50 (Hp 1 0 [])) ∧
    ((fun (l : LaneId) (k : HostCmd) (v : Nat) (L : Lane) => L.Admits k.port none (some 3) (some .park) ∧ v ≤ 1 ∧ L.ranked k.port .park = true ∧ L.engagedFor k.port .park = true) .a ⟨0, 7⟩ 1 (Hp 1 0 [(Reg.HQ_PORT_ENGAGED 0, 31)])) ∧
    ((fun (l : LaneId) (k : HostCmd) (v : Nat) (L : Lane) => L.Admits k.port none (some 3) (some .park) ∧ (2 ≤ v ∨ L.ranked k.port .park = false ∨ L.engagedFor k.port .park = false)) .a ⟨0, 7⟩ 1 (Hp 1 0 [])) ∧
    ((fun (l : LaneId) (k : HostCmd) (L : Lane) => L.Admits k.port none (some 4) none ∧ L.img.start.armMode = 1 ∧ L.mayArm = true) .a ⟨0, 7⟩ ((fun (L : Lane) => { L with start := { L.start with image := { L.start.image with sec := { L.start.image.sec with start := { L.start.image.sec.start with armMode := 1 } } } }, guardSt := Gd.guardSt }) (Hp 1 0 [(Reg.SYS_STATE_ELECTED, 1), (Reg.LG_WD_STAT_CONSEC, 16), (Reg.GD_STAT_VGDOK, 7)]))) ∧
    ((fun (l : LaneId) (k : HostCmd) (L : Lane) => L.Admits k.port none (some 4) none ∧ L.img.start.armMode ≠ 1) .a ⟨0, 7⟩ (Hp 1 0 [])) ∧
    ((fun (l : LaneId) (k : HostCmd) (L : Lane) => L.Admits k.port none (some 4) none ∧ L.img.start.armMode = 1 ∧ L.mayArm = false) .a ⟨0, 7⟩ ((fun (L : Lane) => { L with start := { L.start with image := { L.start.image with sec := { L.start.image.sec with start := { L.start.image.sec.start with armMode := 1 } } } } }) (Hp 1 0 []))) ∧
    ((fun (l : LaneId) (k : HostCmd) (L : Lane) => L.Admits k.port none (some 5) none) .a ⟨0, 7⟩ (Hp 1 0 [])) ∧
    ((fun (l : LaneId) (k : HostCmd) (L : Lane) => L.Admits k.port none (some 5) none) .a ⟨0, 7⟩ (Hp 1 0 [])) ∧
    ((fun (l : LaneId) (k : HostCmd) (n : Nat) (q : Fin 16) (L : Lane) => L.Admits k.port (some 10) (some 6) none ∧ L.replyQueue k.port = some q ∧ L.rd (Reg.HQ_STAT_USED q.val) + 6 ≤ L.effDepth q ∧ L.effDepth q < 512 ∧ L.sec.idUsable = true ∧ (vget L.queue q).next < 2 ^ 32 - 6 ∧ L.queueTransport q ≠ 2) .a ⟨0, 7⟩ 5 1 (Hp 1 0 [])) ∧
    ((fun (l : LaneId) (k : HostCmd) (n : Nat) (L : Lane) => L.Admits k.port (some 10) (some 6) none ∧ L.sec.idUsable = false) .a ⟨0, 7⟩ 5 ({ Hp 1 0 [] with sec := W.sec })) ∧
    ((fun (l : LaneId) (k : HostCmd) (a : Nat) (L : Lane) => L.Admits k.port none (some 10) none ∧ 1 ≤ a ∧ a ≤ 3 ∧ ((a = 3 ∧ L.rd Reg.TS_STAT_DISC = 6) ∨ (a ≠ 3 ∧ L.rd Reg.TS_STAT_DISC = 5))) .a ⟨0, 7⟩ 2 (Hp 1 0 [(Reg.TS_STAT_DISC, 5)])) ∧
    ((fun (l : LaneId) (k : HostCmd) (a : Nat) (L : Lane) => L.Admits k.port none (some 10) none ∧ ¬(1 ≤ a ∧ a ≤ 3 ∧ ((a = 3 ∧ L.rd Reg.TS_STAT_DISC = 6) ∨ (a ≠ 3 ∧ L.rd Reg.TS_STAT_DISC = 5)))) .a ⟨0, 7⟩ 2 (Hp 1 0 [])) ∧
    ((fun (l : LaneId) (k : HostCmd) (m : Nat) (L : Lane) => L.Admits k.port none (some 8) none) .a ⟨0, 7⟩ 2 (Hp 1 0 [])) ∧
    ((fun (l : LaneId) (k : HostCmd) (L : Lane) => L.Admits k.port none (some 8) none ∧ L.svc = 2 ∧ L.lifecycle ≤ 1 ∧ L.parkOff = true ∧ (L.peers.all (fun p => p.2.parkOff)) = true) .a ⟨0, 7⟩ (Hp 1 0 [])) ∧
    ((fun (l : LaneId) (k : HostCmd) (L : Lane) => L.Admits k.port none (some 8) none ∧ (L.svc ≠ 2 ∨ 1 < L.lifecycle ∨ L.parkOff = false)) .a ⟨0, 7⟩ (Hp 1 0 [(Reg.SYS_STATE_STATE, 3)])) ∧
    ((fun (l : LaneId) (k : HostCmd) (d t : Nat) (L : Lane) => L.Admits k.port none (some 9) none ∧ (7 < d ∨ t = 0 ∨ 2 < t)) .a ⟨0, 7⟩ 8 1 (Hp 1 0 [])) ∧
    ((fun (l : LaneId) (k : HostCmd) (d : Fin 8) (t : Nat) (L : Lane) => L.Admits k.port none (some 9) none ∧ 1 ≤ t ∧ t ≤ 2 ∧ L.is Reg.PD_REQ_BUSY = true) .a ⟨0, 7⟩ 7 1 (Hp 1 0 [(Reg.PD_REQ_BUSY, 1)])) ∧
    ((fun (l : LaneId) (k : HostCmd) (d : Fin 8) (t : Nat) (L : Lane) => L.Admits k.port none (some 9) none ∧ 1 ≤ t ∧ t ≤ 2 ∧ L.is Reg.PD_REQ_BUSY = false ∧ L.pdRefusal d t k.port.val = none) .a ⟨0, 7⟩ 7 1 (Hp 1 0 [(Reg.PD_POLICY_ALLOW 7, 3), (Reg.PD_POLICY_HOST_MASK 7, 15)])) ∧
    ((fun (l : LaneId) (k : HostCmd) (d : Fin 8) (t w : Nat) (L : Lane) => L.Admits k.port none (some 9) none ∧ 1 ≤ t ∧ t ≤ 2 ∧ L.is Reg.PD_REQ_BUSY = false ∧ L.pdRefusal d t k.port.val = some w) .a ⟨0, 7⟩ 7 1 1 (Hp 1 0 [])) ∧
    ((fun (l : LaneId) (k : HostCmd) (d : Nat) (L : Lane) => L.Admits k.port none (some 9) none ∧ 7 < d) .a ⟨0, 7⟩ 8 (Hp 1 0 [])) ∧
    ((fun (l : LaneId) (k : HostCmd) (d : Fin 8) (L : Lane) => L.Admits k.port none (some 9) none ∧ (L.bitOf (Reg.PD_POLICY_HOST_MASK d.val) k.port.val = false ∨ L.is Reg.PD_REQ_BUSY = true)) .a ⟨0, 7⟩ 7 (Hp 1 0 [])) ∧
    ((fun (l : LaneId) (k : HostCmd) (d : Fin 8) (L : Lane) => L.Admits k.port none (some 9) none ∧ L.bitOf (Reg.PD_POLICY_HOST_MASK d.val) k.port.val = true ∧ L.is Reg.PD_REQ_BUSY = false) .a ⟨0, 7⟩ 7 (Hp 1 0 [(Reg.PD_POLICY_HOST_MASK 7, 15)])) ∧
    ((fun (l : LaneId) (k : HostCmd) (L : Lane) => L.Admits k.port none (some 9) none) .a ⟨0, 7⟩ (Hp 1 0 [])) ∧
    ((fun (l : LaneId) (k : HostCmd) (L : Lane) => L.Admits k.port none (some 9) none) .a ⟨0, 7⟩ (Hp 1 0 [])) := by
  and_intros <;> decide +kernel

theorem witness_isobus_and_ethernet :
    ((fun (l : LaneId) (src name : Nat) (L : Lane) => L.isoOn = true) .a 5 5 (Ib [])) ∧
    ((fun (l : LaneId) (src name : Nat) (L : Lane) => L.isoOn = true ∧ (L.is Reg.IB_STAT_CLAIMED = false ∨ src ≠ L.isoAddr)) .a 5 5 (Ib [])) ∧
    ((fun (l : LaneId) (name a : Nat) (L : Lane) => L.isoOn = true) .a (isoName .a) 130 (Ib [])) ∧
    ((fun (l : LaneId) (src dst pgn : Nat) (L : Lane) => L.isoOn = true ∧ (dst = L.isoAddr ∨ dst = 0xFF) ∧ pgn = 0xEE00) .a 5 255 0xEE00 (Ib [])) ∧
    ((fun (l : LaneId) (src dst pgn : Nat) (L : Lane) => L.isoOn = true ∧ L.is Reg.IB_STAT_CLAIMED = true ∧ (dst = L.isoAddr ∨ dst = 0xFF) ∧ pgn = 0xFECA) .a 5 255 0xFECA (Ib [])) ∧
    ((fun (l : LaneId) (src dst pgn : Nat) (L : Lane) => L.isoOn = true ∧ L.is Reg.IB_STAT_CLAIMED = true ∧ dst = L.isoAddr ∧ pgn ∉ [0xEE00, 0xFECA, 0xFECB, 0xFEDA, 0xFDC5, 0xEA00, 0xE800, 0xFED8, 0xEC00, 0xEB00, 0xEF00, 0xFF61]) .a 5 0x90 0xFE00 (Ib [])) ∧
    ((fun (l : LaneId) (src d v : Nat) (e : Bool) (h : Fin 4) (L : Lane) => L.isoOn = true ∧ L.firmware = true ∧ L.portOfKind 2 = some h ∧ (L.hostHas h 9 = false ∨ 1000 < d ∨ v < 1 ∨ 100 < v ∨ L.sessionOpen h = false ∨ vget L.isobus.peer h ≠ some src)) .a 5 1001 5 true 0 (Ib [])) ∧
    ((fun (l : LaneId) (src d v : Nat) (e : Bool) (h : Fin 4) (q : Fin 16) (L : Lane) => L.isoOn = true ∧ L.firmware = true ∧ L.portOfKind 2 = some h ∧ L.hostHas h 9 = true ∧ d ≤ 1000 ∧ 1 ≤ v ∧ v ≤ 100 ∧ L.sessionOpen h = true ∧ vget L.isobus.peer h = some src ∧ (L.queuesOf h 0).head? = some q ∧ L.rd (Reg.HQ_STAT_USED q.val) + 2 ≤ L.effDepth q) .a 5 500 5 true 0 0 ((Ib []).onIso (fun i => { i with peer := vupd i.peer 0 (fun _ => some 5) }))) ∧
    ((fun (l : LaneId) (h : Fin 4) (src n : Nat) (sig : List Byte) (L : Lane) => L.isoOn = true ∧ L.portLive h = true ∧ L.isobus.tpRx = none ∧ L.is Reg.IB_STAT_CLAIMED = true ∧ (L.portRec h).transport = 2 ∧ L.nonceOk h n = true ∧ L.ringsSet h = true) .a 0 5 99 [] ({ (Ib []).onHost 0 (fun x => { x with nonce := some 99 }) with timers := [(.nonce 0, 0)] })) ∧
    ((fun (l : LaneId) (h : Fin 4) (src n : Nat) (sig : List Byte) (L : Lane) => L.isoOn = true ∧ L.portLive h = true ∧ L.is Reg.IB_STAT_CLAIMED = true ∧ (L.portRec h).transport = 2 ∧ L.running (.nonce h) = false) .a 0 5 99 [] (Ib [])) ∧
    ((fun (l : LaneId) (dt : Nat) (L : Lane) => L.isoOn = true ∧ L.firmware = true ∧ L.is Reg.IB_STAT_CLAIMED = true ∧ ((L.pass dt).running .dm1 = false ∨ (L.pass dt).due .dm1 1000000000 = true ∨ ((L.pass dt).due .dm1 100000000 = true ∧ L.isobus.dm1 ≠ L.lamps :: L.stickySources))) .a 0 (Ib [])) ∧
    ((fun (l : LaneId) (dt : Nat) (a r : Int) (L : Lane) => L.isoOn = true ∧ L.serves .steer = true ∧ L.is Reg.IB_STAT_CLAIMED = true ∧ ((L.pass dt).running .steerBroadcast = false ∨ (L.pass dt).due .steerBroadcast 100000000 = true)) .a 0 150 (-3) ((Ib []).onFn .steer (fun x => { x with served := true }))) ∧
    ((fun (l : LaneId) (L : Lane) => L.isoOn = true ∧ L.firmware = true) .a (Ib [])) ∧
    ((fun (l : LaneId) (L : Lane) => L.firmware = true) .a (Ib [])) ∧
    ((fun (l : LaneId) (v : Nat) (L : Lane) => L.powered = true) .a 1 (Ib [])) ∧
    ((fun (l : LaneId) (src pgn n : Nat) (L : Lane) => L.isoOn = true ∧ L.is Reg.IB_STAT_CLAIMED = true ∧ L.isobus.tpRx = none ∧ n ≤ 1785) .a 5 0xEF00 65 (Ib [])) ∧
    ((fun (l : LaneId) (src pgn n : Nat) (L : Lane) => L.isoOn = true ∧ L.is Reg.IB_STAT_CLAIMED = true ∧ (L.isobus.tpRx ≠ none ∨ 1785 < n)) .a 5 0xEF00 1786 (Ib [])) ∧
    ((fun (l : LaneId) (src n i : Nat) (b : List Byte) (L : Lane) => L.isoOn = true ∧ L.is Reg.IB_STAT_CLAIMED = true ∧ L.isobus.tpTx = [(src, b, i)]) .a 5 2 1 (List.replicate 20 7) ((Ib []).onIso (fun i => { i with tpTx := [(5, List.replicate 20 7, 1)] }))) ∧
    ((fun (l : LaneId) (src : Nat) (b : List Byte) (i : Nat) (L : Lane) => L.isoOn = true ∧ L.is Reg.IB_STAT_CLAIMED = true ∧ L.isobus.tpTx = [(src, b, i)]) .a 5 [] 3 ((Ib []).onIso (fun i => { i with tpTx := [(5, [], 3)] }))) ∧
    ((fun (l : LaneId) (L : Lane) => L.v5out = true) .a ({ U with v5out := true })) ∧
    ((fun (l : LaneId) (dt : Nat) (L : Lane) => L.v5out = false ∧ (L.pass dt).due .v5 10000000 = true) .a 0 ({ { U with v5out := false } with timers := [(.v5, 0)], time := { U.time with elapsed := 10000000 * 2 ^ 48 } })) := by
  and_intros <;> decide +kernel

theorem witness_isobus_and_ethernet_2 :
    ((fun (l : LaneId) (name : Nat) (L : Lane) => L.isoOn = true ∧ L.is Reg.IB_STAT_CLAIMED = true ∧ L.isoAddr = 0x90 ∧ isoName L.id ≤ name) .a (2 ^ 64) (Ib [])) := by
  exact ⟨by decide +kernel, rfl, by decide +kernel, iso_le _⟩

theorem witness_isobus_and_ethernet_3 :
    ((fun (l : LaneId) (name : Nat) (L : Lane) => L.isoOn = true ∧ L.is Reg.IB_STAT_CLAIMED = true ∧ L.isoAddr = 0x90 ∧ name < isoName L.id ∧ L.isobus.heard = []) .a 3 (Ib [])) := by
  exact ⟨by decide +kernel, rfl, by decide +kernel, iso_pos _, rfl⟩

theorem witness_isobus_and_ethernet_12 :
    ((fun (l : LaneId) (dt : Nat) (L : Lane) => L.isoOn = true ∧ L.firmware = true ∧ L.is Reg.IB_STAT_CLAIMED = true ∧ (L.pass dt).running .dm1 = true ∧ (L.pass dt).due .dm1 1000000000 = false ∧ L.isobus.dm1 = L.lamps :: L.stickySources) .a 0 ({ (Ib []).onIso (fun i => { i with dm1 := (Ib []).lamps :: (Ib []).stickySources }) with timers := [(.dm1, 0)] })) := by
  exact ⟨by decide +kernel, by decide +kernel, by decide +kernel, by decide +kernel, by decide +kernel, rfl⟩

theorem witness_power_domains_and_clocks :
    ((fun (l : LaneId) (v : Word) (d : Fin 8) (t o : Nat) (L : Lane) => L.firmware = true ∧ v.toNat / 65536 % 2 = 1 ∧ v.toNat / 16 % 4 = t ∧ v.toNat / 256 % 8 = o ∧ v.toNat % 8 = d.val ∧ v.toNat / 2 ^ 18 % 2 = 0 ∧ 1 ≤ t ∧ t ≤ 2 ∧ o ≤ 4 ∧ L.is Reg.PD_REQ_BUSY = false ∧ L.pdRefusal d t o = none) .a 0x10417#32 7 1 4 (Uf [(Reg.SYS_STATE_STATE, 2), (Reg.PD_POLICY_ALLOW 7, 3)])) ∧
    ((fun (l : LaneId) (v : Word) (d : Fin 8) (t o w : Nat) (L : Lane) => L.firmware = true ∧ v.toNat / 65536 % 2 = 1 ∧ v.toNat / 16 % 4 = t ∧ v.toNat / 256 % 8 = o ∧ v.toNat % 8 = d.val ∧ v.toNat / 2 ^ 18 % 2 = 0 ∧ 1 ≤ t ∧ t ≤ 2 ∧ o ≤ 4 ∧ L.is Reg.PD_REQ_BUSY = false ∧ L.pdRefusal d t o = some w) .a 0x10410#32 0 1 4 1 (Uf [(Reg.SYS_STATE_STATE, 2), (Reg.PD_POLICY_ALLOW 7, 3)])) ∧
    ((fun (l : LaneId) (v : Word) (L : Lane) => L.firmware = true ∧ v.toNat / 65536 % 2 = 1 ∧ v.toNat / 2 ^ 18 % 2 = 0 ∧ L.is Reg.PD_REQ_BUSY = true) .a 0x10410#32 (Uf [(Reg.PD_REQ_BUSY, 1)])) ∧
    ((fun (l : LaneId) (d : Fin 8) (o : Nat) (L : Lane) => L.firmware = true ∧ L.is Reg.PD_REQ_BUSY = false ∧ L.rd (Lane.pdFld d) = 0) .a 5 4 (U)) ∧
    ((fun (l : LaneId) (d : Fin 8) (o : Nat) (L : Lane) => L.firmware = true ∧ L.is Reg.PD_REQ_BUSY = false ∧ (L.rd (Lane.pdFld d) = 2 ∨ L.rd (Lane.pdFld d) = 3)) .a 5 4 (Uf [(Reg.PD_STATE_STATE_0, 0), (Lane.pdFld 5, 3)])) ∧
    ((fun (l : LaneId) (d : Fin 8) (k : Nat) (L : Lane) => L.rd (Lane.pdFld d) = 1 ∧ (vget L.power.dom d).step = k ∧ 1 ≤ k ∧ k ≤ 4 ∧ (k = 1 → L.wfiDone d = true) ∧ (vget L.power.dom d).wakeBy = none ∧ L.pdBar d = none) .a 7 2 ((Uf [(Reg.SYS_STATE_STATE, 2), (Lane.pdFld 7, 1)]).onDom 7 (fun x => { x with step := 2 }))) ∧
    ((fun (l : LaneId) (d : Fin 8) (k w : Nat) (L : Lane) => L.rd (Lane.pdFld d) = 1 ∧ (vget L.power.dom d).step = k ∧ 1 ≤ k ∧ k ≤ 4 ∧ (k = 1 → L.wfiDone d = true) ∧ (vget L.power.dom d).wakeBy = some w ∧ w < 32 ∧ L.pdBar d = none) .a 7 2 5 ((Uf [(Reg.SYS_STATE_STATE, 2), (Lane.pdFld 7, 1)]).onDom 7 (fun x => { x with step := 2, wakeBy := some 5 }))) ∧
    ((fun (l : LaneId) (d : Fin 8) (L : Lane) => L.rd (Lane.pdFld d) = 1 ∧ (vget L.power.dom d).step = 5 ∧ (vget L.power.dom d).target = 1 ∧ (vget L.power.dom d).wakeBy = none) .a 7 ((Uf [(Reg.SYS_STATE_STATE, 2), (Lane.pdFld 7, 1)]).onDom 7 (fun x => { x with step := 5, target := 1 }))) ∧
    ((fun (l : LaneId) (L : Lane) => L.rd (Lane.pdFld 2) = 1 ∧ (vget L.power.dom 2).step = 5 ∧ (vget L.power.dom 2).target = 2 ∧ (vget L.power.dom 2).wakeBy = none ∧ L.power.asker = none) .a ((Uf [(Reg.SYS_STATE_STATE, 2), (Lane.pdFld 2, 1)]).onDom 2 (fun x => { x with step := 5, target := 2 }))) ∧
    ((fun (l : LaneId) (dt : Nat) (d : Fin 8) (L : Lane) => L.rd (Lane.pdFld d) = 1 ∧ (vget L.power.dom d).step = 1 ∧ L.wfiDone d = false ∧ (L.pass dt).due (.wfi d) 100000 = true) .a 0 3 ({ (Uf [(Reg.SYS_STATE_STATE, 2), (Lane.pdFld 3, 1)]).onDom 3 (fun x => { x with step := 1 }) with timers := [(.wfi 3, 0)], time := { U.time with elapsed := 100000 * 2 ^ 48 } })) ∧
    ((fun (l : LaneId) (d : Fin 8) (w : Waker) (L : Lane) => Lane.wakes d w = true ∧ (L.rd (Lane.pdFld d) = 2 ∨ L.rd (Lane.pdFld d) = 3)) .a 3 .ethernet (Uf [(Lane.pdFld 3, 2)])) ∧
    ((fun (l : LaneId) (d : Fin 8) (w : Waker) (L : Lane) => Lane.wakes d w = true ∧ L.rd (Lane.pdFld d) = 1) .a 3 .ethernet (Uf [(Lane.pdFld 3, 1)])) ∧
    ((fun (l : LaneId) (v : Word) (L : Lane) => L.firmware = true) .a 0x20200#32 (U)) ∧
    ((fun (l : LaneId) (n : Word) (L : Lane) => L.is Reg.CK_FM_CTRL_BUSY = true ∧ L.clockOn (L.rd Reg.CK_FM_CTRL_MEAS) = true) .a 0x20200#32 (Uf [(Reg.CK_FM_CTRL_MEAS, 0), (Reg.CK_FM_CTRL_BUSY, 1)])) ∧
    ((fun (l : LaneId) (v : Word) (L : Lane) => L.firmware = true) .a 0x20200#32 (U)) ∧
    ((fun (l : LaneId) (v : Word) (L : Lane) => L.firmware = true ∧ L.is Reg.CK_FM_CTRL_BUSY = true) .a 0x20200#32 (Uf [(Reg.CK_FM_CTRL_BUSY, 1)])) ∧
    ((fun (l : LaneId) (k : Fin 3) (L : Lane) => L.powered = true ∧ L.guardSt.powered = true ∧ L.gstate ≠ 3) .a 1 (Gd)) := by
  and_intros <;> decide +kernel

theorem witness_security_mailbox :
    ((fun (l : LaneId) (c : Fin 2) (p : Pair) (n : Nat) (L : Lane) => L.powered = true ∧ p = c ∧ L.is (if c = 0 then Reg.SE_STATUS_BUSY_0 else Reg.SE_STATUS_BUSY_1) = false ∧ L.is Reg.SE_STATUS_TAMPER = false ∧ n ≤ 256) .a 0 0 4 (U)) ∧
    ((fun (l : LaneId) (c : Fin 2) (p : Pair) (n : Nat) (L : Lane) => L.powered = true ∧ p = c ∧ L.is (if c = 0 then Reg.SE_STATUS_BUSY_0 else Reg.SE_STATUS_BUSY_1) = false ∧ L.is Reg.SE_STATUS_TAMPER = false ∧ n ≤ 256 ∧ L.lifecycle = 0 ∧ L.sec.idDone = false ∧ L.sec.kek = none ∧ L.sec.entropyBad = false) .a 0 0 4 (U)) ∧
    ((fun (l : LaneId) (c : Fin 2) (p : Pair) (n : Nat) (L : Lane) => L.powered = true ∧ p = c ∧ L.is (if c = 0 then Reg.SE_STATUS_BUSY_0 else Reg.SE_STATUS_BUSY_1) = false ∧ L.is Reg.SE_STATUS_TAMPER = false ∧ n ≤ 256 ∧ (L.lifecycle ≠ 0 ∨ L.sec.idDone = true)) .a 0 0 4 ((Uf [(Reg.SYS_STATE_STATE, 2)]).onSec (fun x => { x with lc := 2 }))) ∧
    ((fun (l : LaneId) (c : Fin 2) (p : Pair) (n : Nat) (L : Lane) => L.powered = true ∧ p = c ∧ L.is (if c = 0 then Reg.SE_STATUS_BUSY_0 else Reg.SE_STATUS_BUSY_1) = false ∧ L.is Reg.SE_STATUS_TAMPER = false ∧ n ≤ 256) .a 0 0 4 (U)) ∧
    ((fun (l : LaneId) (c : Fin 2) (p : Pair) (n : Nat) (L : Lane) => L.powered = true ∧ p = c ∧ L.is (if c = 0 then Reg.SE_STATUS_BUSY_0 else Reg.SE_STATUS_BUSY_1) = false ∧ L.is Reg.SE_STATUS_TAMPER = false ∧ n ≤ 256) .a 0 0 4 (U)) ∧
    ((fun (l : LaneId) (c : Fin 2) (p : Pair) (n : Nat) (L : Lane) => L.powered = true ∧ p = c ∧ L.is (if c = 0 then Reg.SE_STATUS_BUSY_0 else Reg.SE_STATUS_BUSY_1) = false ∧ L.is Reg.SE_STATUS_TAMPER = false ∧ n ≤ 256) .a 0 0 4 ({ U with sec := { U.sec with idDone := true, idUsable := true } })) ∧
    ((fun (l : LaneId) (c : Fin 2) (p : Pair) (n : Nat) (L : Lane) => L.powered = true ∧ p = c ∧ L.is (if c = 0 then Reg.SE_STATUS_BUSY_0 else Reg.SE_STATUS_BUSY_1) = false ∧ L.is Reg.SE_STATUS_TAMPER = false ∧ n ≤ 256) .a 0 0 180 (U)) ∧
    ((fun (l : LaneId) (c : Fin 2) (p : Pair) (n : Nat) (L : Lane) => L.powered = true ∧ p = c ∧ L.is (if c = 0 then Reg.SE_STATUS_BUSY_0 else Reg.SE_STATUS_BUSY_1) = false ∧ L.is Reg.SE_STATUS_TAMPER = false ∧ n ≤ 256 ∧ n = 13 ∧ field (L.seReq c n) 8 4 ≤ 2 ^ 30 ∧ (field (L.seReq c n) 12 1 = 32 ∨ field (L.seReq c n) 12 1 = 64)) .a 0 0 13 (Uf [(Reg.SE_REQ 0 0, 0x10000000), (Reg.SE_REQ 0 2, 16), (Reg.SE_REQ 0 3, 32)])) ∧
    ((fun (l : LaneId) (c : Fin 2) (p : Pair) (n : Nat) (L : Lane) => L.powered = true ∧ p = c ∧ L.is (if c = 0 then Reg.SE_STATUS_BUSY_0 else Reg.SE_STATUS_BUSY_1) = false ∧ L.is Reg.SE_STATUS_TAMPER = false ∧ n ≤ 256 ∧ n ≠ 13) .a 0 0 4 (U)) ∧
    ((fun (l : LaneId) (c : Fin 2) (p : Pair) (n : Nat) (L : Lane) => L.powered = true ∧ p = c ∧ L.is (if c = 0 then Reg.SE_STATUS_BUSY_0 else Reg.SE_STATUS_BUSY_1) = false ∧ L.is Reg.SE_STATUS_TAMPER = false ∧ n ≤ 256) .a 0 0 2 (Uf [(Reg.SE_REQ 0 0, 20)])) ∧
    ((fun (l : LaneId) (c : Fin 2) (p : Pair) (n : Nat) (L : Lane) => L.powered = true ∧ p = c ∧ L.is (if c = 0 then Reg.SE_STATUS_BUSY_0 else Reg.SE_STATUS_BUSY_1) = false ∧ L.is Reg.SE_STATUS_TAMPER = false ∧ n ≤ 256) .a 0 0 32 ({ U with sec := { U.sec with idDone := true, idUsable := true } })) ∧
    ((fun (l : LaneId) (c : Fin 2) (p : Pair) (n : Nat) (L : Lane) => L.powered = true ∧ p = c ∧ L.is (if c = 0 then Reg.SE_STATUS_BUSY_0 else Reg.SE_STATUS_BUSY_1) = false ∧ L.is Reg.SE_STATUS_TAMPER = false ∧ n ≤ 256 ∧ (L.lifecycle = 1 ∨ L.lifecycle = 2) ∧ L.sec.entropyBad = false) .a 0 0 4 ((Uf [(Reg.SYS_STATE_STATE, 2)]).onSec (fun x => { x with lc := 2 }))) ∧
    ((fun (l : LaneId) (c : Fin 2) (p : Pair) (n : Nat) (L : Lane) => L.powered = true ∧ p = c ∧ L.is (if c = 0 then Reg.SE_STATUS_BUSY_0 else Reg.SE_STATUS_BUSY_1) = false ∧ L.is Reg.SE_STATUS_TAMPER = false ∧ n ≤ 256 ∧ (L.lifecycle = 0 ∨ L.lifecycle = 3)) .a 0 0 4 (U)) ∧
    ((fun (l : LaneId) (c : Fin 2) (p : Pair) (n : Nat) (L : Lane) => L.powered = true ∧ p = c ∧ L.is (if c = 0 then Reg.SE_STATUS_BUSY_0 else Reg.SE_STATUS_BUSY_1) = false ∧ L.is Reg.SE_STATUS_TAMPER = false ∧ n ≤ 256) .a 0 0 192 ((Uf [(Reg.SYS_STATE_STATE, 2)]).onSec (fun x => { x with lc := 2 }))) ∧
    ((fun (l : LaneId) (c : Fin 2) (p : Pair) (n : Nat) (L : Lane) => L.powered = true ∧ p = c ∧ L.is (if c = 0 then Reg.SE_STATUS_BUSY_0 else Reg.SE_STATUS_BUSY_1) = false ∧ L.is Reg.SE_STATUS_TAMPER = false ∧ n ≤ 256) .a 0 0 4 (Uf [(Reg.SE_DBG_OPEN, 1)])) ∧
    ((fun (l : LaneId) (c : Fin 2) (p : Pair) (n : Nat) (L : Lane) => L.powered = true ∧ p = c ∧ L.is (if c = 0 then Reg.SE_STATUS_BUSY_0 else Reg.SE_STATUS_BUSY_1) = false ∧ L.is Reg.SE_STATUS_TAMPER = false ∧ n ≤ 256) .a 0 0 158 (Uf [(Reg.SYS_STATE_STATE, 2)])) ∧
    ((fun (l : LaneId) (c : Fin 2) (p : Pair) (n : Nat) (L : Lane) => L.powered = true ∧ p = c ∧ L.is (if c = 0 then Reg.SE_STATUS_BUSY_0 else Reg.SE_STATUS_BUSY_1) = false ∧ L.is Reg.SE_STATUS_TAMPER = false ∧ n ≤ 256) .a 0 0 158 (Uf [(Reg.SYS_STATE_STATE, 2)])) ∧
    ((fun (l : LaneId) (c : Fin 2) (p : Pair) (n : Nat) (k : Fin 6) (L : Lane) => L.powered = true ∧ p = c ∧ L.is (if c = 0 then Reg.SE_STATUS_BUSY_0 else Reg.SE_STATUS_BUSY_1) = false ∧ L.is Reg.SE_STATUS_TAMPER = false ∧ n ≤ 256 ∧ k.val = field (L.seReq c n) 0 1 ∧ n = 58) .a 0 0 58 4 (Uf [(Reg.SE_REQ 0 0, 4)])) ∧
    ((fun (l : LaneId) (c : Fin 2) (p : Pair) (n : Nat) (L : Lane) => L.powered = true ∧ p ≠ c) .a 0 1 4 (U)) ∧
    ((fun (l : LaneId) (c : Fin 2) (p : Pair) (n : Nat) (L : Lane) => L.powered = true ∧ p = c ∧ L.is (if c = 0 then Reg.SE_STATUS_BUSY_0 else Reg.SE_STATUS_BUSY_1) = true ∧ n ≤ 256) .a 0 0 4 (Uf [(Reg.SE_STATUS_BUSY_0, 1)])) ∧
    ((fun (l : LaneId) (c : Fin 2) (p : Pair) (n : Nat) (L : Lane) => L.powered = true ∧ p = c ∧ L.is (if c = 0 then Reg.SE_STATUS_BUSY_0 else Reg.SE_STATUS_BUSY_1) = false ∧ L.is Reg.SE_STATUS_TAMPER = true) .a 0 0 4 (Uf [(Reg.SE_STATUS_TAMPER, 1)])) ∧
    ((fun (l : LaneId) (c : Fin 2) (v : Nat) (r : List Byte) (L : Lane) => L.powered = true ∧ vget L.sec.chan c = some (v, r) ∧ v < 256 ∧ r.length ≤ 256) .a 0 0 [1, 2, 3, 4, 5] (U.onSec (fun x => { x with chan := ⟨#[some (0, [1, 2, 3, 4, 5]), none], rfl⟩ }))) ∧
    ((fun (l : LaneId) (c : Fin 2) (L : Lane) => vget L.sec.chan c = none) .a 0 (U)) := by
  and_intros <;> decide +kernel

theorem witness_security_alarms_and_debug_access :
    ((fun (l : LaneId) (L : Lane) => L.powered = true) .a (U)) ∧
    ((fun (l : LaneId) (L : Lane) => L.powered = true) .a (Gd)) ∧
    ((fun (l : LaneId) (L : Lane) => L.powered = true ∧ L.upState = true ∧ L.gstate ≠ 3) .a ({ Uf [(Reg.SYS_STATE_STATE, 3)] with guardSt := Gd.guardSt })) ∧
    ((fun (l : LaneId) (L : Lane) => L.powered = true ∧ (L.is Reg.SE_STATUS_TAMPER = true ∨ L.sec.entropyBad = true)) .a (Uf [(Reg.SE_STATUS_TAMPER, 1)])) ∧
    ((fun (l : LaneId) (L : Lane) => L.powered = true ∧ L.is Reg.SE_STATUS_TAMPER = false ∧ L.sec.entropyBad = false) .a (U)) ∧
    ((fun (l : LaneId) (w : Word) (L : Lane) => L.powered = true ∧ L.sec.tokenCheck = false) .a 5 (U)) ∧
    ((fun (l : LaneId) (L : Lane) => L.powered = true) .a (Uf [(Reg.SE_DBG_OPEN, 1)])) ∧
    ((fun (l : LaneId) (n : Nat) (L : Lane) => L.powered = true ∧ L.sec.nonce = some n ∧ 1 ≤ L.sec.nonceRead) .a 70 (U.onSec (fun x => { x with nonce := some 70, nonceRead := 8 }))) ∧
    ((fun (l : LaneId) (L : Lane) => L.powered = true ∧ L.sec.nonceRead = 0) .a (U)) ∧
    ((fun (l : LaneId) (L : Lane) => L.powered = true ∧ L.sec.tokenCheck = true ∧ L.is Reg.SE_STATUS_TAMPER = false) .a (U.onSec (fun x => { x with tokenCheck := true }))) ∧
    ((fun (l : LaneId) (dt : Nat) (L : Lane) => L.is Reg.SE_DBG_OPEN = true ∧ (L.pass dt).due .token 0 = true) .a 0 ({ Uf [(Reg.SE_DBG_OPEN, 1)] with timers := [(.token, 0)] })) := by
  and_intros <;> decide +kernel

theorem witness_update_delivery :
    ((fun (l : LaneId) (k : HostCmd) (g n : Nat) (b : Bool) (L : Lane) => L.Admits k.port none (some 7) none ∧ (4 ≤ L.updState ∨ ((L.updState = 1 ∨ L.updState = 2) ∧ g ≠ L.update.digest))) .a ⟨0, 7⟩ 5 3 false (Hp 1 0 [(Reg.UP_STATE_STATE, 1)])) ∧
    ((fun (l : LaneId) (k : HostCmd) (g n : Nat) (b : Bool) (L : Lane) => L.Admits k.port none (some 7) none ∧ (L.updState = 1 ∨ L.updState = 2 ∨ L.updState = 3) ∧ g = L.update.digest) .a ⟨0, 7⟩ 0 3 false (Hp 1 0 [(Reg.UP_STATE_STATE, 1)])) ∧
    ((fun (l : LaneId) (k : HostCmd) (g n : Nat) (L : Lane) => L.Admits k.port none (some 7) none ∧ (L.updState = 0 ∨ (L.updState = 3 ∧ g ≠ L.update.digest)) ∧ (n = 0 ∨ 262144 < n)) .a ⟨0, 7⟩ 5 0 (Hp 1 0 [])) ∧
    ((fun (l : LaneId) (k : HostCmd) (g n : Nat) (L : Lane) => L.Admits k.port none (some 7) none ∧ (L.updState = 0 ∨ (L.updState = 3 ∧ g ≠ L.update.digest)) ∧ nbit (L.hostSet k.port) 8 = false) .a ⟨0, 7⟩ 5 3 (Hp 1 0 [(Reg.SYS_HOSTFEAT 0 0, 1)])) ∧
    ((fun (l : LaneId) (k : HostCmd) (g n : Nat) (L : Lane) => L.Admits k.port none (some 7) none ∧ (L.updState = 0 ∨ (L.updState = 3 ∧ g ≠ L.update.digest)) ∧ 1 ≤ n ∧ n ≤ 262144 ∧ (L.update.keptAfter7 = false ∨ g ≠ L.update.digest)) .a ⟨0, 7⟩ 5 3 (Hp 1 0 [])) ∧
    ((fun (l : LaneId) (k : HostCmd) (ch : Nat) (f : Fin 128) (d : Vector Byte 32) (L : Lane) => L.Admits k.port none (some 7) none ∧ (L.updState ≠ 1 ∨ L.update.chunks ≤ ch ∨ L.holds ch = true)) .a ⟨0, 7⟩ 5 0 (Vector.replicate 32 0) (Hp 1 0 [])) ∧
    ((fun (l : LaneId) (k : HostCmd) (ch : Nat) (f : Fin 128) (d : Vector Byte 32) (L : Lane) => L.Admits k.port none (some 7) none ∧ L.updState = 1 ∧ ch < L.update.chunks ∧ L.holds ch = false ∧ ((Tab.get [] L.update.frags ch).filter (fun e => decide (e.1 ≠ f.val))).length < 127) .a ⟨0, 7⟩ 1 0 (Vector.replicate 32 0) ((Hp 1 0 [(Reg.UP_STATE_STATE, 1)]).onUpd (fun u => { u with chunks := 3 }))) ∧
    ((fun (l : LaneId) (k : HostCmd) (fs : List (Nat × List Byte)) (d : Vector Byte 32) (L : Lane) => L.Admits k.port none (some 7) none ∧ L.updState = 1 ∧ 1 < L.update.chunks ∧ L.update.bitmap = [] ∧ L.update.waiting = [] ∧ Tab.get [] L.update.frags 0 = fs ∧ fs.map (fun e => e.1) = (List.range 127).reverse) .a ⟨0, 7⟩ ((List.range 127).reverse.map (fun i => (i, []))) (Vector.replicate 32 0) ((Hp 1 0 [(Reg.UP_STATE_STATE, 1)]).onUpd (fun u => { u with chunks := 3, frags := [(0, (List.range 127).reverse.map (fun i => (i, [])))] }))) ∧
    ((fun (l : LaneId) (sd : Side) (d : List Byte) (f : StatusFrame) (L : Lane) => L.firmware = true ∧ vget L.nb sd.ix = some f ∧ L.updState = 1 ∧ f.updDigest = L.update.digest ∧ 0 < L.update.chunks ∧ L.holds 0 = false ∧ L.update.waiting = [] ∧ L.update.bitmap.length + 1 < L.update.chunks) .a .prev [] (Lane.statusFrame U) ({ (Uf [(Reg.UP_STATE_STATE, 1)]).onUpd (fun u => { u with chunks := 9, bitmap := [], staged := none }) with nb := Vector.replicate 2 (some (Lane.statusFrame U)) })) ∧
    ((fun (l : LaneId) (sd : Side) (ch : Nat) (d : List Byte) (f : StatusFrame) (L : Lane) => L.firmware = true ∧ vget L.nb sd.ix = some f ∧ L.updState = 1 ∧ f.updDigest = L.update.digest ∧ ch < L.update.chunks ∧ L.holds ch = false ∧ L.update.waiting = [] ∧ L.update.bitmap.length + 1 < L.update.chunks ∧ ch ≠ 0 ∧ L.update.staged = none) .a .prev 1 [] (Lane.statusFrame U) ({ (Uf [(Reg.UP_STATE_STATE, 1)]).onUpd (fun u => { u with chunks := 9, bitmap := [], staged := none }) with nb := Vector.replicate 2 (some (Lane.statusFrame U)) })) ∧
    ((fun (l : LaneId) (sd : Side) (ch : Nat) (d : List Byte) (f : StatusFrame) (m : Manifest) (L : Lane) => L.firmware = true ∧ vget L.nb sd.ix = some f ∧ L.updState = 1 ∧ f.updDigest = L.update.digest ∧ ch < L.update.chunks ∧ L.holds ch = false ∧ L.update.waiting = [] ∧ L.update.bitmap.length + 1 < L.update.chunks ∧ L.update.staged = some m ∧ m.tableChunks < ch ∧ L.tableDone = true) .a .prev 2 [] (Lane.statusFrame U) Mf ({ (Uf [(Reg.UP_STATE_STATE, 1)]).onUpd (fun u => { u with chunks := 9, bitmap := [0, 1], staged := some Mf }) with nb := Vector.replicate 2 (some (Lane.statusFrame U)) })) ∧
    ((fun (l : LaneId) (k : HostCmd) (n : Nat) (L : Lane) => L.Admits k.port none (some 7) none ∧ L.update.bitmap.contains n = false ∧ (∀ j, j < n → L.update.bitmap.contains j = true) ∧ n ≤ L.update.bitmap.length) .a ⟨0, 7⟩ 2 ((Hp 1 0 []).onUpd (fun u => { u with bitmap := [0, 1, 5] }))) ∧
    ((fun (l : LaneId) (k : HostCmd) (m : Manifest) (L : Lane) => L.Admits k.port none (some 7) none ∧ vget L.update.manifests L.activeBank = some m ∧ m.sigOk = true) .a ⟨0, 7⟩ Mf ((Hp 1 0 []).onUpd (fun u => { u with manifests := Vector.replicate 2 (some Mf) }))) ∧
    ((fun (l : LaneId) (k : HostCmd) (L : Lane) => L.Admits k.port none (some 7) none) .a ⟨0, 7⟩ (Hp 1 0 [(Reg.UP_STATE_STATE, 1)])) ∧
    ((fun (l : LaneId) (k : HostCmd) (b : Bool) (L : Lane) => L.Admits k.port none (some 7) none) .a ⟨0, 7⟩ true (Hp 1 0 [(Reg.UP_STATE_STATE, 1)])) ∧
    ((fun (l : LaneId) (n : Nat) (L : Lane) => L.start.phase = .recovery ∧ L.update.bitmap.contains n = false ∧ (∀ j, j < n → L.update.bitmap.contains j = true) ∧ n ≤ L.update.bitmap.length) .a 0 (Rc [])) ∧
    ((fun (l : LaneId) (src : Nat) (d : Descr) (L : Lane) => L.isoOn = true ∧ L.start.phase ≠ .recovery ∧ L.isobus.tpRx = none) .a 5 ⟨51, 0, 0, 0, 0, []⟩ (U)) ∧
    ((fun (l : LaneId) (src : Nat) (d : Descr) (m : Manifest) (L : Lane) => L.isoOn = true ∧ L.start.phase = .recovery ∧ L.isobus.tpRx = none ∧ d.op = 54 ∧ L.lifecycle ≠ 3 ∧ vget L.update.manifests L.activeBank = some m ∧ m.sigOk = true) .a 5 ⟨54, 0, 0, 0, 0, []⟩ Mf ((Rc []).onUpd (fun u => { u with manifests := Vector.replicate 2 (some Mf) }))) ∧
    ((fun (l : LaneId) (src : Nat) (d : Descr) (L : Lane) => L.isoOn = true ∧ L.start.phase = .recovery ∧ L.isobus.tpRx = none ∧ d.op = 49 ∧ L.lifecycle ≠ 3 ∧ L.updState = 0 ∧ 1 ≤ field d.args 32 4 ∧ field d.args 32 4 ≤ 262144 ∧ L.update.keptAfter7 = false) .a 5 ⟨49, 0, 0, 0, 0, List.replicate 32 1 ++ [3, 0, 0, 0]⟩ (Rc [])) ∧
    ((fun (l : LaneId) (p i o : Nat) (m : Manifest) (x : PartEntry) (L : Lane) => L.powered = true ∧ L.updState = 2 ∧ L.is Reg.UP_STATE_PAUSED = false ∧ L.update.staged = some m ∧ (installed m L.id)[p]? = some (x, o) ∧ x.enc = 0 ∧ Tab.wf 0 L.store = true) .a 0 1 65536 { Mf with parts := [{ type := 3, lanes := 7, inst := 0, enc := 0, version := 1, firstChunk := 1, inLen := 16, outLen := 16, outDigest := 0, baseDigest := 0, imcrc := 0, zeroOk := true }], partCount := 1 } { type := 3, lanes := 7, inst := 0, enc := 0, version := 1, firstChunk := 1, inLen := 16, outLen := 16, outDigest := 0, baseDigest := 0, imcrc := 0, zeroOk := true } ((Uf [(Reg.UP_STATE_STATE, 2)]).onUpd (fun u => { u with staged := some { Mf with parts := [{ type := 3, lanes := 7, inst := 0, enc := 0, version := 1, firstChunk := 1, inLen := 16, outLen := 16, outDigest := 0, baseDigest := 0, imcrc := 0, zeroOk := true }], partCount := 1 }, bitmap := [0, 1], chunks := 3 }))) ∧
    ((fun (l : LaneId) (p i o : Nat) (m : Manifest) (x : PartEntry) (L : Lane) => L.powered = true ∧ L.updState = 2 ∧ L.is Reg.UP_STATE_PAUSED = false ∧ L.update.staged = some m ∧ (installed m L.id)[p]? = some (x, o) ∧ x.enc = 1 ∧ L.basePart x = none) .a 0 1 65536 { Mf with parts := [{ type := 3, lanes := 7, inst := 0, enc := 1, version := 1, firstChunk := 1, inLen := 16, outLen := 16, outDigest := 0, baseDigest := 0, imcrc := 0, zeroOk := true }], partCount := 1 } { type := 3, lanes := 7, inst := 0, enc := 1, version := 1, firstChunk := 1, inLen := 16, outLen := 16, outDigest := 0, baseDigest := 0, imcrc := 0, zeroOk := true } ((Uf [(Reg.UP_STATE_STATE, 2)]).onUpd (fun u => { u with staged := some { Mf with parts := [{ type := 3, lanes := 7, inst := 0, enc := 1, version := 1, firstChunk := 1, inLen := 16, outLen := 16, outDigest := 0, baseDigest := 0, imcrc := 0, zeroOk := true }], partCount := 1 }, bitmap := [0, 1], chunks := 3 }))) ∧
    ((fun (l : LaneId) (m : Manifest) (L : Lane) => L.powered = true ∧ L.updState = 2 ∧ L.is Reg.UP_STATE_PAUSED = false ∧ L.update.staged = some m) .a Mf ((Uf [(Reg.UP_STATE_STATE, 2)]).onUpd (fun u => { u with staged := some Mf, bitmap := [0, 1], chunks := 3 }))) ∧
    ((fun (l : LaneId) (m : Manifest) (L : Lane) => L.powered = true ∧ L.updState = 2 ∧ L.is Reg.UP_STATE_PAUSED = false ∧ L.update.staged = some m ∧ L.buildError m = 0) .a { Mf with parts := [{ type := 3, lanes := 7, inst := 0, enc := 0, version := 1, firstChunk := 1, inLen := 16, outLen := 16, outDigest := 0, baseDigest := 0, imcrc := 0, zeroOk := true }], partCount := 1 } ((Uf [(Reg.UP_STATE_STATE, 2)]).onUpd (fun u => { u with staged := some { Mf with parts := [{ type := 3, lanes := 7, inst := 0, enc := 0, version := 1, firstChunk := 1, inLen := 16, outLen := 16, outDigest := 0, baseDigest := 0, imcrc := 0, zeroOk := true }], partCount := 1 }, bitmap := [0, 1], chunks := 3 }))) := by
  and_intros <;> decide +kernel

theorem witness_update_activation :
    ((fun (l : LaneId) (k : HostCmd) (c : Nat) (L : Lane) => L.Admits k.port none (some 7) none ∧ L.updState ≠ 4 ∧ L.updState ≠ 5 ∧ L.activateBar false = some c) .a ⟨0, 7⟩ 20 (Hp 1 0 [])) ∧
    ((fun (l : LaneId) (k : HostCmd) (L : Lane) => L.Admits k.port none (some 7) none ∧ L.updState ≠ 4 ∧ L.updState ≠ 5 ∧ L.activateBar false = none) .a ⟨0, 7⟩ ({ Hp 1 0 [(Reg.UP_STATE_STATE, 3), (Reg.QE_VOTE_STILL 0, 1), (Reg.QE_VOTE_STILL 1, 1), (Reg.QE_VOTE_STILL 2, 1)] with nb := Vector.replicate 2 (some { Lane.statusFrame (Hp 1 0 [(Reg.UP_STATE_STATE, 3)]) with still := Vector.replicate 3 true }), timers := [(.parkApplied, 0), (.status .prev, 1000000000), (.status .next, 1000000000)], time := { U.time with elapsed := 1000000000 * 2 ^ 48 } })) ∧
    ((fun (l : LaneId) (k : HostCmd) (L : Lane) => L.Admits k.port none (some 7) none ∧ (L.updState = 4 ∨ L.updState = 5) ∧ (L.update.coordinator = false ∨ L.update.asker = none)) .a ⟨0, 7⟩ (Hp 1 0 [(Reg.UP_STATE_STATE, 4)])) ∧
    ((fun (l : LaneId) (dt : Nat) (L : Lane) => L.updState = 4 ∧ (L.pass dt).due .prepared 100000000 = true) .a 0 ({ Uf [(Reg.UP_STATE_STATE, 4)] with timers := [(.prepared, 0)], time := { U.time with elapsed := 100000000 * 2 ^ 48 } })) ∧
    ((fun (l : LaneId) (t : Nat) (L : Lane) => L.powered = true ∧ L.updState = 5 ∧ L.update.restartAt = some t ∧ t ≤ L.now) .a 0 ((Uf [(Reg.UP_STATE_STATE, 5), (Reg.GD_STAT_EN, 7)]).onUpd (fun u => { u with restartAt := some 0 }))) ∧
    ((fun (l : LaneId) (L : Lane) => L.updState ≠ 5 ∨ (∀ t, L.update.restartAt = some t → L.now < t)) .a (U)) ∧
    ((fun (l : LaneId) (dt : Nat) (L : Lane) => L.firmware = true ∧ L.updState = 6 ∧ (L.pass dt).due .trial 1000000000 = true) .a 0 ({ Uf [(Reg.UP_STATE_STATE, 6)] with timers := [(.trial, 0)], time := { U.time with elapsed := 1000000000 * 2 ^ 48 } })) ∧
    ((fun (l : LaneId) (m : Manifest) (L : Lane) => L.start.phase = .recovery ∧ L.updState = 2 ∧ L.lifecycle ≠ 3 ∧ L.update.staged = some m ∧ L.buildError m = 0) .a { Mf with parts := [{ type := 3, lanes := 7, inst := 0, enc := 0, version := 1, firstChunk := 1, inLen := 16, outLen := 16, outDigest := 0, baseDigest := 0, imcrc := 0, zeroOk := true }], partCount := 1 } ((Rc [(Reg.UP_STATE_STATE, 2)]).onUpd (fun u => { u with staged := some { Mf with parts := [{ type := 3, lanes := 7, inst := 0, enc := 0, version := 1, firstChunk := 1, inLen := 16, outLen := 16, outDigest := 0, baseDigest := 0, imcrc := 0, zeroOk := true }], partCount := 1 }, bitmap := [0, 1], chunks := 3 }))) ∧
    ((fun (l : LaneId) (L : Lane) => L.start.phase ≠ .recovery ∨ L.updState ≠ 2 ∨ L.lifecycle = 3) .a (U)) ∧
    ((fun (l : LaneId) (f : Nat) (L : Lane) => L.update.floorPending = some f ∧ f < 64) .a 5 (U.onUpd (fun u => { u with floorPending := some 5 }))) := by
  and_intros <;> decide +kernel

theorem witness_self_test_and_ageing :
    ((fun (l : LaneId) (core : Core) (v : Word) (L : Lane) => L.coreLive core = true ∧ L.waitsCommit (some core) = false ∧ L.waitsAt (some core) = none ∧ L.asleep (0x200D0024) = none ∧ v.toNat / 65536 % 4 = 1 ∧ L.fuseOk 1 (v.toNat % 65536) = true) .a 0 0x10005#32 ((cores (Uf [(Reg.SYS_STATE_STATE, 2)])))) ∧
    ((fun (l : LaneId) (core : Core) (v : Word) (L : Lane) => L.coreLive core = true ∧ L.waitsCommit (some core) = false ∧ L.waitsAt (some core) = none ∧ L.asleep (0x200D0024) = none ∧ L.fuseOk (v.toNat / 65536 % 4) (v.toNat % 65536) = false) .a 0 0x10005#32 ((cores (Uf [(Reg.SYS_STATE_STATE, 3)])))) ∧
    ((fun (l : LaneId) (a r : Nat) (es : List FuseEntry) (e : FuseEntry) (L : Lane) => L.test.fusing = some (a, r) ∧ L.test.fuses = es ++ [e]) .a 1 5 [] ⟨1, 5, false⟩ (U.onTest (fun t => { t with fusing := some (1, 5), fuses := [⟨1, 5, false⟩] }))) ∧
    ((fun (l : LaneId) (dt t : Nat) (L : Lane) => L.firmware = true ∧ L.is Reg.BT_SLICE_CTRL_EN = true ∧ L.is Reg.BT_SLICE_STAT_RUNNING = false ∧ (L.pass dt).due .slice (L.rd Reg.BT_SLICE_CTRL_INTERVAL * 1000000) = true ∧ L.test.nextTarget = t ∧ t < 6 ∧ (L.pass dt).sliceReady t = true) .a 0 4 ({ (Uf [(Reg.SYS_STATE_STATE, 2), (Reg.BT_SLICE_CTRL_EN, 1), (Reg.BT_SLICE_CTRL_TARGETS, 16)]).onTest (fun t => { t with nextTarget := 4 }) with timers := [(.slice, 0)], time := { U.time with elapsed := 100000000000 * 2 ^ 48 } })) ∧
    ((fun (l : LaneId) (dt : Nat) (L : Lane) => L.firmware = true ∧ L.is Reg.BT_SLICE_CTRL_EN = true ∧ L.is Reg.BT_SLICE_STAT_RUNNING = false ∧ (L.pass dt).due .slice (L.rd Reg.BT_SLICE_CTRL_INTERVAL * 1000000) = true ∧ (∀ t : Fin 6, (L.pass dt).sliceReady t.val = false)) .a 0 ({ Uf [(Reg.SYS_STATE_STATE, 2), (Reg.BT_SLICE_CTRL_EN, 1)] with timers := [(.slice, 0)], time := { U.time with elapsed := 100000000000 * 2 ^ 48 } })) ∧
    ((fun (l : LaneId) (b : Bool) (a : BitVec 16) (e o : Bool) (L : Lane) => L.is Reg.BT_SLICE_STAT_RUNNING = true ∧ L.rd Reg.BT_SLICE_STAT_CURRENT = 0) .a false 9 true true (Uf [(Reg.BT_SLICE_STAT_RUNNING, 1)])) ∧
    ((fun (l : LaneId) (core : Core) (t : Nat) (L : Lane) => L.coreLive core = true ∧ L.waitsCommit (some core) = false ∧ L.waitsAt (some core) = none ∧ L.asleep (0x200D0050) = none ∧ L.svc = 8 ∧ t < 6 ∧ t ≠ 3 ∧ t ≠ 2 ∧ L.domOn 7 = true ∧ L.is Reg.BT_SLICE_STAT_RUNNING = false) .a 0 1 ((cores (Uf [(Reg.SYS_STATE_STATE, 8)])))) ∧
    ((fun (l : LaneId) (core : Core) (t : Nat) (L : Lane) => L.coreLive core = true ∧ L.waitsCommit (some core) = false ∧ L.waitsAt (some core) = none ∧ L.asleep (0x200D0050) = none ∧ L.svc ≠ 8) .a 0 1 ((cores U))) ∧
    ((fun (l : LaneId) (core : Core) (L : Lane) => L.coreLive core = true ∧ L.waitsCommit (some core) = false ∧ L.waitsAt (some core) = none ∧ L.asleep (0x200D0050) = none) .a 0 ((cores (Uf [(Reg.SYS_STATE_STATE, 8)])))) ∧
    ((fun (l : LaneId) (r : AnalogReadings) (a b : Word) (L : Lane) => L.test.analog = true) .a goodReadings 5 0 (U.onTest (fun t => { t with analog := true }))) ∧
    ((fun (l : LaneId) (core : Core) (L : Lane) => L.coreLive core = true ∧ L.waitsCommit (some core) = false ∧ L.waitsAt (some core) = none ∧ L.asleep (0x200E0000) = none) .a 0 ((cores U))) ∧
    ((fun (l : LaneId) (L : Lane) => L.is Reg.AG_RUN_BUSY = true) .a (Uf [(Reg.AG_RUN_BUSY, 1)])) ∧
    ((fun (l : LaneId) (i : Nat) (L : Lane) => L.is Reg.AG_RUN_BUSY = true ∧ L.agRecords = [i]) .a 0 ({ (Uf [(Reg.AG_RUN_BUSY, 1), (Reg.AG_RING_LEN, 4), (Reg.AG_RING_BASE, 0x1000)]).onTest (fun t => { t with agTail := 1 }) with sram := [(0x1016, 100)] })) ∧
    ((fun (l : LaneId) (dt : Nat) (d : Fin 8) (L : Lane) => (L.rd (Lane.pdFld d) = 4 ∨ L.rd (Lane.pdFld d) = 5) ∧ d ≠ 1 ∧ d ≠ 3 ∧ (d = 2 → (vget L.power.dom d).fromState ≠ 3) ∧ (vget L.power.dom d).stalled = [] ∧ L.power.request ≠ some (d, 0)) .a 0 7 (Uf [(Lane.pdFld 7, 4)])) ∧
    ((fun (l : LaneId) (dt : Nat) (d : Fin 8) (L : Lane) => (L.rd (Lane.pdFld d) = 4 ∨ L.rd (Lane.pdFld d) = 5) ∧ d ≠ 1 ∧ d ≠ 3 ∧ (d = 2 → (vget L.power.dom d).fromState ≠ 3) ∧ (vget L.power.dom d).stalled = [] ∧ L.power.request = some (d, 0)) .a 0 7 ((Uf [(Lane.pdFld 7, 4), (Reg.PD_REQ_BUSY, 1)]) |> fun L => { L with power := { L.power with request := some (7, 0) } })) ∧
    ((fun (l : LaneId) (dt : Nat) (L : Lane) => L.rd (Lane.pdFld 2) = 4 ∧ (vget L.power.dom 2).fromState = 3 ∧ (vget L.power.dom 2).stalled = [] ∧ L.power.request ≠ some (2, 0)) .a 0 ((Uf [(Lane.pdFld 2, 4)]).onDom 2 (fun x => { x with fromState := 3 }))) ∧
    ((fun (l : LaneId) (dt : Nat) (h : Core) (L : Lane) => L.firmware = true) .a 0 1 (U)) := by
  and_intros <;> decide +kernel

theorem witness_step_takes_the_front_command :
    (({ State.reset with pending := [.lanePowerOnReset .a false] } : State).pending = .lanePowerOnReset .a false :: []) ∧
    (State.reset.pending = []) := by
  and_intros <;> decide +kernel

theorem witness_gate_interlock :
    (¬((vget U.gate.drive 0).on = true ∧ (vget U.gate.drive 1).on = true)) ∧
    ((vget Gd2.gate.drive 1).on = false ∧ (vget Gd2.gateFollowAll.gate.drive 1).on = true) ∧
    (State.reset.pending = [] ∧ (State.reset.lane .a).ret.stalled = []) := by
  and_intros <;> decide +kernel

theorem witness_every_step_keeps_the_invariant_0 :
    (State.reset.a.Inv .a ∧ step State.reset = .next State.reset.tick) := by
  exact ⟨⟨rfl, by decide, rfl, rfl⟩, rfl⟩

theorem witness_engine_words_round_trip :
    ((DeInstr.sincos 30 1).wf = true) ∧
    (deDecode 0xE3C10000 = some (.sincos 30 1)) := by
  and_intros <;> decide +kernel

theorem witness_engine_word_formats :
    ((0x04611000 : Word).extractLsb' 26 6 = 0x01 ∧ (0x04611000 : Word).extractLsb' 0 11 = 0) ∧
    ((0xF0220000 : Word).extractLsb' 26 6 = 0x3C ∧ (0xF0220000 : Word).extractLsb' 0 16 = 0) ∧
    ((0xE3C10000 : Word).extractLsb' 26 6 = 0x38 ∧ (0xE3C10000 : Word).extractLsb' 0 16 = 0 ∧ (0xE3C10000 : Word).extractLsb' 21 1 = 0) ∧
    ((0xD422180F : Word).extractLsb' 5 6 = 0 ∧ (0xD422180F : Word).extractLsb' 26 6 = 0x35 ∧ (0xCC22000F : Word).extractLsb' 5 11 = 0 ∧ (0xD022000F : Word).extractLsb' 26 6 = 0x34) ∧
    ((0x4061FFFE : Word).extractLsb' 26 6 = 0x10 ∧ (0x8C22FFFE : Word).extractLsb' 26 6 = 0x23) ∧
    ((0x68600001 : Word).extractLsb' 26 6 = 0x1A) ∧
    ((0x5461001F : Word).extractLsb' 26 6 = 0x15) ∧
    ((0x708001FF : Word).extractLsb' 26 6 = 0x1C ∧ (0x708001FF : Word).extractLsb' 9 12 = 0) ∧
    ((0xFC000000 : Word).extractLsb' 26 6 = 0x3F) ∧
    ((0x04611001 : Word).extractLsb' 0 11 ≠ 0) ∧
    ((fun (l : LaneId) (n : Engine) (ra rb : Reg) (off : BitVec 16) (L : Lane) => L.deAt n (.beq ra rb off) = true ∧ (L.de n).reg ra = (L.de n).reg rb) .a 0 1 2 0xFFFE ((deLane 0 (.beq 1 2 0xFFFE)))) ∧
    ((fun (l : LaneId) (n : Engine) (ra rb : Reg) (off : BitVec 16) (L : Lane) => L.deAt n (.bne ra rb off) = true ∧ (L.de n).reg ra ≠ (L.de n).reg rb) .a 0 1 2 0xFFFE (((deLane 0 (.bne 1 2 0xFFFE)).onDe 0 (EngineSt.setReg 2 7)))) ∧
    ((fun (l : LaneId) (n : Engine) (ra rb : Reg) (off : BitVec 16) (L : Lane) => L.deAt n (.blt ra rb off) = true ∧ ((L.de n).reg ra).toInt < ((L.de n).reg rb).toInt) .a 0 1 2 0xFFFE (((deLane 0 (.blt 1 2 0xFFFE)).onDe 0 (EngineSt.setReg 2 7)))) ∧
    ((fun (l : LaneId) (n : Engine) (ra rb : Reg) (off : BitVec 16) (L : Lane) => L.deAt n (.bge ra rb off) = true ∧ ((L.de n).reg rb).toInt ≤ ((L.de n).reg ra).toInt) .a 0 1 2 0xFFFE ((deLane 0 (.bge 1 2 0xFFFE)))) ∧
    ((fun (l : LaneId) (n : Engine) (off : BitVec 26) (L : Lane) => L.deAt n (.j off) = true) .a 0 0x3FFFFFE ((deLane 0 (.j 0x3FFFFFE)))) ∧
    ((fun (l : LaneId) (n : Engine) (off : BitVec 26) (L : Lane) => L.deAt n (.jal off) = true) .a 0 0x3FFFFFE ((deLane 0 (.jal 0x3FFFFFE)))) := by
  and_intros <;> decide +kernel

theorem witness_commands_stay_in_their_lane :
    (State.reset.lane .b = ({ State.reset with pending := [.voteFrameTx .b], a := State.reset.a.wr Reg.PD_REQ_BUSY 1 } : State).lane .b) := by
  decide +kernel

theorem witness_debugger_writes_refused :
    ((fun (l : LaneId) (a n v : Nat) (L : Lane) => L.powered = true ∧ L.inManufacture = false ∧ ((0x20010000 ≤ a ∧ a < 0x20010000 + 0x10000) ∨ (0x20020000 ≤ a ∧ a < 0x20020000 + 0x10000) ∨ (0x20030000 ≤ a ∧ a < 0x20030000 + 0x10000) ∨ (0x200B0000 ≤ a ∧ a < 0x200B0000 + 0x10000) ∨ (0x20170000 ≤ a ∧ a < 0x20170000 + 0x10000) ∨ (0x20180000 ≤ a ∧ a < 0x20180000 + 0x10000) ∨ (0x100020000 ≤ a ∧ a < 0x100021000))) .a 0x100020FFC 4 0 ({ U with sec := { U.sec with lc := 1 } })) ∧
    ((fun (l : LaneId) (c k : Nat) (L : Lane) => L.powered = true ∧ L.inManufacture = false ∧ L.scope 1 = true ∧ c < 2 ∧ k < 64 ∧ L.rd (Lane.pdFld 4) = 0) .a 1 63 ({ (Uf [(Reg.SE_DBG_OPEN, 1), (Reg.SE_DBG_SCOPE, 2)]) with sec := { U.sec with lc := 1 } })) ∧
    ((fun (l : LaneId) (c k : Nat) (L : Lane) => L.powered = true ∧ L.inManufacture = false ∧ L.scope 1 = true ∧ c < 2 ∧ k < 64 ∧ L.rd (Lane.pdFld 4) = 0) .a 1 63 ({ (Uf [(Reg.SE_DBG_OPEN, 1), (Reg.SE_DBG_SCOPE, 2)]) with sec := { U.sec with lc := 1 } })) := by
  and_intros <;> decide +kernel

theorem witness_winter_spreads :
    ((serving [.steer, .brake] []).serves .steer = true ∧ (serving [.steer, .brake] []).mode .steer ≠ 2 ∧ (serving [.steer, .brake] []).serves .brake = true ∧ (serving [.steer, .brake] []).mode .brake ≠ 2) ∧
    ((serving [.park, .brake] []).serves .brake = true ∧ (serving [.park, .brake] []).mode .brake ≠ 2 ∧ (serving [.park, .brake] []).serves .park = true ∧ (serving [.park, .brake] []).mode .park ≠ 2) ∧
    ((serving [.feel] []).serves .feel = true ∧ (serving [.feel] []).mode .feel ≠ 2) ∧
    ((fun (l : LaneId) (dt : Nat) (g f : Func) (L : Lane) => (L.pass dt).due (.disagree g) 20000000 = true ∧ L.serves g = true ∧ L.mode g ≠ 2 ∧ L.serves f = true ∧ L.mode f ≠ 2 ∧ ((g = .steer ∧ (f = .brake ∨ f = .trail ∨ f = .park)) ∨ (g = .brake ∧ (f = .trail ∨ f = .park)))) .a 20000000 .brake .park ({ serving [.park, .brake] [] with timers := [(.disagree .brake, 0)] })) := by
  and_intros <;> decide +kernel

theorem witness_minority_accusation :
    ((fun (l : LaneId) (dt : Nat) (f g : Func) (L : Lane) => (L.pass dt).due (.minority f) 20000000 = true) .a 20000000 .steer .steer ({ U with timers := [(.minority .steer, 0)] })) ∧
    ((fun (l : LaneId) (f : Func) (L : Lane) => L.guardSt.powered = true ∧ L.guardSt.rcLost = false ∧ vget L.vote.withdraw f.ix = false ∧ L.gstate ≠ 3 ∧ vget L.vote.hardware f.ix = [] ∧ nbits (L.rd Reg.ROLE_ACCUSE_CODE) (2 * f.code) 2 ≠ 3) .a .steer (Gd)) ∧
    ((fun (l : LaneId) (f : Func) (x : Side) (t : Nat) (xs : List (Side × Nat)) (L : Lane) => L.guardSt.powered = true ∧ L.guardSt.rcLost = false ∧ vget L.vote.withdraw f.ix = false ∧ L.gstate ≠ 3 ∧ nbits (L.rd Reg.ROLE_ACCUSE_CODE) (2 * f.code) 2 ≠ 3 ∧ vget L.vote.hardware f.ix = (x, t) :: xs ∧ ∀ y ∈ xs, (t < y.2 ∨ (t = y.2 ∧ x = .next)) ∧ L.sideCode y.1 ≠ L.rd (Reg.ROLE_FUNC_ACT f.code)) .a .steer .next 5 [(.prev, 5)] ({ Gd with vote := { Gd.vote with hardware := vupd Gd.vote.hardware Func.steer.ix (fun _ => [(.next, 5), (.prev, 5)]) } })) ∧
    ((fun (l : LaneId) (f : Func) (x : Side) (t : Nat) (xs : List (Side × Nat)) (L : Lane) => L.guardSt.powered = true ∧ L.guardSt.rcLost = false ∧ vget L.vote.withdraw f.ix = false ∧ L.gstate ≠ 3 ∧ nbits (L.rd Reg.ROLE_ACCUSE_CODE) (2 * f.code) 2 ≠ 3 ∧ vget L.vote.hardware f.ix = (.prev, t) :: xs ∧ x = .next ∧ xs = [(.next, t)] ∧ L.sideCode .prev ≠ L.rd (Reg.ROLE_FUNC_ACT f.code)) .a .steer .next 5 [(.next, 5)] ({ Gd with vote := { Gd.vote with hardware := vupd Gd.vote.hardware Func.steer.ix (fun _ => [(.prev, 5), (.next, 5)]) } })) ∧
    ((fun (l : LaneId) (f : Func) (x : Side) (t : Nat) (xs : List (Side × Nat)) (L : Lane) => L.guardSt.powered = true ∧ L.guardSt.rcLost = false ∧ vget L.vote.withdraw f.ix = false ∧ L.gstate ≠ 3 ∧ nbits (L.rd Reg.ROLE_ACCUSE_CODE) (2 * f.code) 2 ≠ 3 ∧ (x, t) ∈ vget L.vote.hardware f.ix ∧ L.sideCode x = L.rd (Reg.ROLE_FUNC_ACT f.code)) .a .steer .prev 9 [] ({ (Gd.wr (Reg.ROLE_FUNC_ACT Func.steer.code) 2) with vote := { Gd.vote with hardware := vupd Gd.vote.hardware Func.steer.ix (fun _ => [(.next, 5), (.prev, 9)]) } })) := by
  and_intros <;> decide +kernel

end Sys2Proof.Tests
end

namespace Sys2Proof.Machine

/-! ### Commands as functions of their lane -/

/-- A state that a command leads to has the invariant of the device. -/
def OutcomeInv (o : Host.Outcome State Fault Refusal) : Prop := ∀ t : State, o = .next t → t.Inv

/-- A command keeps the invariant of the device when what it does to its own lane keeps the invariant of that lane (R18, R27). -/
theorem onLane_inv {l : LaneId} {f : Lane → Lane} {s : State} (hs : s.Inv) (hf : ∀ L : Lane, L.Inv l → (f L).Inv l) :
    OutcomeInv (onLane l f s) := by
  rintro t ⟨⟩
  cases l with
  | a => exact ⟨hf _ hs.a, hs.b, hs.c⟩
  | b => exact ⟨hs.a, hf _ hs.b, hs.c⟩
  | c => exact ⟨hs.a, hs.b, hf _ hs.c⟩

/-- A command that has an effect under a condition only (R12). -/
theorem onLane_when_inv {l : LaneId} {b : Lane → Bool} {f : Lane → Lane → Lane} {s : State} (hs : s.Inv)
    (hf : ∀ L M : Lane, M.Inv l → (f L M).Inv l) : OutcomeInv (onLane l (fun L => L.when (b L) (f L)) s) :=
  onLane_inv hs fun L => Lane.when_inv (hf L)

/-- A command that time passes with, and that has an effect under a condition only (log entry 53). -/
theorem onLane_pass_when_inv {l : LaneId} {dt : Nat} {b : Lane → Bool} {f : Lane → Lane → Lane} {s : State} (hs : s.Inv)
    (hf : ∀ L M : Lane, M.Inv l → (f L M).Inv l) : OutcomeInv (onLane l (fun L => (L.pass dt).when (b L) (f L)) s) :=
  onLane_inv hs fun L hL => Lane.when_inv (hf L) (Lane.pass_inv dt hL)

/-! ### Commands that end in more than one way -/

theorem execRomSelfCheckDone_inv (l : LaneId) (pass : Bool) {s : State} (hs : s.Inv) :
    OutcomeInv (execRomSelfCheckDone l pass s) := by
  refine onLane_when_inv hs fun _ _ hM => ?_
  split
  · refine Lane.startFails_inv _ (fun _ hN => ?_) hM
    exact hN.of_eq rfl rfl rfl rfl
  · exact ite_inv (Lane.enterRecovery_inv _ hM) (Lane.onStart_inv _ hM)

theorem execSignatureCheckDone_inv (l : LaneId) (bank : List Byte) (unwrapOk : Bool) {s : State} (hs : s.Inv) :
    OutcomeInv (execSignatureCheckDone l bank unwrapOk s) := by
  refine onLane_when_inv hs fun _ M hM => ?_
  have hP := Lane.placeBank_inv bank hM
  have hU := ite_inv (c := (M.placeBank bank).sec.idDone = true) (ite_inv (c := unwrapOk = true)
    (Lane.onSec_inv (fun x => { x with idUsable := true }) hP)
    (Lane.fireLevel_inv 453 (Lane.set1_inv Reg.SE_STATUS_ALARM hP))) hP
  exact ite_inv (Lane.onStart_inv _ ((Lane.setSvc_inv 1 hU).of_eq rfl rfl rfl rfl))
    (Lane.startFails_inv _ (fun _ => Lane.enterRecovery_inv 2) hU)

theorem execSolsticeTestDone_inv (l : LaneId) (r : SolsticeResult) {s : State} (hs : s.Inv) :
    OutcomeInv (execSolsticeTestDone l r s) := by
  refine onLane_when_inv hs fun _ M hM => ?_
  have hT := Lane.analogTest_inv r.analog r.res0 r.res1 (Lane.solsticeSteps_inv r hM)
  dsimp only
  split
  · exact ⟨hT.id, hT.regs, rfl, hT.store⟩
  · refine ite_inv (Lane.startFails_inv _ (fun _ hN => ?_) hT) (Lane.set1_inv _ hT)
    exact Lane.forced_inv _ (Lane.onStart_inv _ (Lane.wr_inv _ _ (Lane.setSvc_inv _ hN)))

theorem execImageVerificationDone_inv (l : LaneId) {s : State} (hs : s.Inv) :
    OutcomeInv (execImageVerificationDone l s) := by
  refine onLane_when_inv hs fun _ M hM => ?_
  have hW := Lane.wr_inv Reg.SYS_IMG_STATUS_OFFSET M.imageFound.2.2
    (Lane.wr_inv Reg.SYS_IMG_STATUS_ENTRY M.imageFound.2.1 (Lane.wr_inv Reg.SYS_IMG_STATUS_CHECK M.imageFound.1 hM))
  exact ite_inv (Lane.enterReady_inv _ hW) (Lane.startFails_inv _ (fun _ => Lane.enterRecovery_inv _) hW)

theorem execCheckpointLagTimeout_inv (l : LaneId) (dt : Nat) (p : Pair) {s : State} (hs : s.Inv) :
    OutcomeInv (execCheckpointLagTimeout l dt p s) := by
  refine onLane_inv hs fun L hL => ?_
  have hP := Lane.pass_inv dt hL
  refine ite_inv hP ?_
  split
  · exact Lane.when_inv (fun _ => Lane.mismatched_inv p 3 _) hP
  · exact Lane.when_inv (fun _ => Lane.mismatched_inv p 3 _) hP
  · exact hP

theorem execDeDataAccess_inv (l : LaneId) (core : Core) (n : Engine) (data : Option Word) {s : State} (hs : s.Inv) :
    OutcomeInv (execDeDataAccess l core n data s) := by
  refine onLane_inv hs fun _ => Lane.reach_inv _ _ _ _ (fun _ hM => ?_) (fun _ => Lane.dataAccess_inv n data)
  cases data with
  | some v => exact Lane.busStore_inv _ _ hM
  | none => exact Lane.busLoad_inv _ _ _ _ hM

theorem execUvloFallingCrossing_inv (l : LaneId) (k : Fin 12) {s : State} (hs : s.Inv) :
    OutcomeInv (execUvloFallingCrossing l k s) := by
  refine onLane_when_inv hs fun _ _ hM => ?_
  split
  · exact Lane.when_inv (fun _ => Lane.vgdFall_inv _) hM
  · exact Lane.when_inv (fun _ => Lane.bstFall_inv _) hM

theorem execTimeStepInstant_inv (l : LaneId) (dt : Nat) {s : State} (hs : s.Inv) :
    OutcomeInv (execTimeStepInstant l dt s) := by
  refine onLane_inv hs fun L hL => ?_
  have hP := Lane.pass_inv dt hL
  dsimp only
  split
  · refine Lane.when_inv (fun _ hM => ?_) hP
    exact Lane.when_inv (fun _ => Lane.each_inv fun _ _ => Lane.timerCheck_inv _) (Lane.takeStep_inv _ _ hM)
  · exact hP

theorem execPtpPdelayRespRx_inv (l : LaneId) (seq t2 t3 t4 : Nat) (ratio : Int) {s : State} (hs : s.Inv) :
    OutcomeInv (execPtpPdelayRespRx l seq t2 t3 t4 ratio s) := by
  refine onLane_inv hs fun _ => Lane.ptpRx_inv _ fun M hM => ?_
  split
  · exact Lane.when_inv (fun _ => Lane.pdelayDone_inv _ t2 t3 t4 ratio) hM
  · exact hM

theorem execHostEngage_inv (l : LaneId) (k : HostCmd) (f : Nat) {s : State} (hs : s.Inv) :
    OutcomeInv (execHostEngage l k f s) := by
  refine onLane_inv hs fun _ hL => ?_
  split
  · exact Lane.command_inv _ _ _ _ _ _ (fun _ => Lane.answer_inv _ _ _) hL
  · exact Lane.command_inv _ _ _ _ _ _ (fun _ => Lane.engage_inv k _) hL

theorem execHostDisengage_inv (l : LaneId) (k : HostCmd) (f : Nat) {s : State} (hs : s.Inv) :
    OutcomeInv (execHostDisengage l k f s) := by
  refine onLane_inv hs fun _ hL => ?_
  split
  · exact Lane.command_inv _ _ _ _ _ _ (fun _ => Lane.answer_inv _ _ _) hL
  · exact Lane.command_inv _ _ _ _ _ _ (fun _ => Lane.disengage_inv k _) hL

theorem execRecoveryDescriptor_inv (l : LaneId) (src : Nat) (d : Descr) {s : State} (hs : s.Inv) :
    OutcomeInv (execRecoveryDescriptor l src d s) := by
  refine onLane_when_inv hs fun _ _ hM => ?_
  have hT := Lane.tpDone_inv src hM
  refine ite_inv (Lane.isoDiscard_inv hT) ?_
  split
  · exact Lane.updGate_inv _ _ _ (fun _ => Lane.updBegin_inv _ _ _ _) hT
  · exact Lane.updDataGate_inv _ _ (fun _ => Lane.updData_inv _ _ _) hT
  · exact Lane.updGate_inv _ _ _ (fun _ => Lane.updAnswer_inv _ _ _ _) hT
  · exact Lane.updGate_inv _ _ _ (fun _ => Lane.updAbort_inv _) hT
  · exact Lane.updGate_inv _ _ _ (fun _ => Lane.updAnswer_inv _ _ _ _) hT
  · exact hT

theorem execForwardedChunkRx_inv (l : LaneId) (sd : Side) (chunk : Nat) (data : List Byte) {s : State} (hs : s.Inv) :
    OutcomeInv (execForwardedChunkRx l sd chunk data s) := by
  refine onLane_when_inv hs fun _ _ hM => ?_
  have hH := Lane.linkHeard_inv sd hM
  dsimp only
  split
  · exact hH
  · split
    · exact Lane.chunkDone_inv chunk data (Lane.set1_inv _ (Lane.when_inv (fun _ => Lane.receiveStart_inv _ _) hH))
    · exact Lane.when_inv (fun _ => Lane.receiveStart_inv _ _) hH

theorem execUpdateApplyDone_inv (l : LaneId) (storeOk : Bool) {s : State} (hs : s.Inv) :
    OutcomeInv (execUpdateApplyDone l storeOk s) := by
  refine onLane_when_inv hs fun _ _ hM => ?_
  refine ite_inv (Lane.updFail_inv _ (Lane.drawn_inv hM)) ?_
  split
  · exact Lane.journalWrite_inv (Lane.wr_inv _ _ (Lane.buildBank_inv _ hM))
  · exact hM

theorem execRecoveryPackageBuilt_inv (l : LaneId) {s : State} (hs : s.Inv) :
    OutcomeInv (execRecoveryPackageBuilt l s) := by
  refine onLane_when_inv hs fun _ _ hM => ?_
  refine ite_inv (Lane.updFail_inv _ (Lane.drawn_inv hM)) ?_
  split
  · exact Lane.startLane_inv _ (Lane.updIdle_inv (Lane.onUpd_inv _ (Lane.buildBank_inv _ hM)))
  · exact hM

theorem execFloorFusesBlown_inv (l : LaneId) {s : State} (hs : s.Inv) : OutcomeInv (execFloorFusesBlown l s) := by
  refine onLane_inv hs fun _ hL => ?_
  split
  · exact Lane.onUpd_inv _ (Lane.wr_inv _ _ hL)
  · exact hL

theorem execJtagDmi_inv (l : LaneId) (addr : Nat) (data : Option Word) {s : State} (hs : s.Inv) :
    OutcomeInv (execJtagDmi l addr data s) := by
  refine onLane_when_inv hs fun _ _ hM => ?_
  cases data with
  | some w => exact Lane.dmiWrite_inv addr w (Lane.irLoad_inv _ hM)
  | none => exact Lane.dmiRead_inv addr (Lane.irLoad_inv _ hM)

/-! ### Every command -/

/-- Each command is one function of its own lane, and each operation that such a function is built from keeps the invariant of the lane. -/
theorem exec_inv (c : Instr) {s : State} (hs : s.Inv) : OutcomeInv (exec c s) := by
  cases c with
  | lanePowerOnReset => exact onLane_inv hs fun _ => Lane.startLane_inv _
  | romSelfCheckDone => exact execRomSelfCheckDone_inv _ _ hs
  | signatureCheckDone => exact execSignatureCheckDone_inv _ _ _ hs
  | solsticeTestDone => exact execSolsticeTestDone_inv _ _ hs
  | imageVerificationDone => exact execImageVerificationDone_inv _ hs
  | sysRetCommit => exact onLane_inv hs fun _ => Lane.softCommit_inv
  | retainedCommitComplete => exact onLane_inv hs fun _ hL => Lane.commitEnd_inv _ (Lane.pass_inv _ hL)
  | autumnCommitTimer =>
    exact onLane_inv hs fun _ hL => ite_inv (Lane.when_inv (fun _ hL => Lane.restart_inv _ (Lane.autoCommit_inv hL)) (Lane.pass_inv _ hL))
      (Lane.stop_inv _ (Lane.pass_inv _ hL))
  | sysFeatLock => exact onLane_inv hs fun _ hL => Lane.when_inv (fun _ => Lane.tryElect_inv) (Lane.featLock_inv hL)
  | statusFrameSend => exact onLane_when_inv hs fun _ _ hL => Lane.send_inv _ (Lane.watchPark_inv hL)
  | statusFrameRx => exact onLane_when_inv hs fun _ _ => Lane.statusRx_inv _ _
  | electionGatherTimeout => exact onLane_pass_when_inv hs fun _ _ => Lane.elect_inv
  | armAutoStart => exact onLane_inv hs fun _ hL => Lane.when_inv (fun _ => Lane.armBegin_inv) (Lane.showBar_inv hL)
  | sysArmWrite => exact onLane_inv hs fun _ => Lane.armTrigger_inv
  | dcLinkAtArmVdc =>
    exact onLane_when_inv hs fun _ _ hL => Lane.armAdvance_inv (Lane.driveKm_inv _ (Lane.wr_inv _ _ (Lane.wr_inv _ _ (Lane.stop_inv _ hL))))
  | prechargeTimeout => exact onLane_pass_when_inv hs fun _ _ hL => Lane.stop_inv _ (Lane.armEnd_inv _ hL)
  | gateChainEnableTimeout => exact onLane_pass_when_inv hs fun _ _ => Lane.armEnd_inv _
  | voteFrameTx => exact onLane_when_inv hs fun _ _ => Lane.voteSend_inv
  | voteFrameRx => exact onLane_when_inv hs fun _ _ hL => Lane.evaluate_inv (Lane.voteReceive_inv _ _ _ hL)
  | voteInputLost => exact onLane_pass_when_inv hs fun _ _ => Lane.voteLose_inv _
  | roleAccuseCodeWrite =>
    exact onLane_inv hs fun _ => Lane.byPair_inv _ _ fun _ hM => Lane.each_inv (fun _ _ => Lane.withdraw_inv _) (Lane.wr_inv _ _ hM)
  | roleRotatePropose => exact onLane_inv hs fun _ => Lane.byPair_inv _ _ fun _ => Lane.wr_inv _ _
  | minorityAccusationTimeout => exact onLane_pass_when_inv hs fun _ _ => Lane.fire_inv _
  | twoLaneDisagreementTimeout => exact onLane_pass_when_inv hs fun _ _ hL => Lane.stop_inv _ (Lane.winter_inv _ _ hL)
  | outerLoopRelease => exact onLane_pass_when_inv hs fun _ _ => Lane.release'_inv _ _ _ _
  | llReferenceWrite => exact onLane_when_inv hs fun _ _ hL => Lane.outWrite_inv _ _ (Lane.coreRuns_inv _ hL)
  | referenceRx => exact onLane_when_inv hs fun _ _ hL => Lane.takeRef_inv _ (Lane.linkHeard_inv _ hL)
  | referenceWatchdogExpiry => exact onLane_pass_when_inv hs fun _ _ hM => Lane.each_inv (fun _ _ => Lane.watchdogAccuse_inv _ _) hM
  | statusFrameTimeout => exact onLane_pass_when_inv hs fun _ _ => Lane.statusLost_inv _
  | holdLimitExpiry => exact onLane_pass_when_inv hs fun _ _ hL => Lane.each_inv (fun _ _ => Lane.svForce_inv _) (Lane.withdraw_inv _ hL)
  | equinoxDue =>
    exact onLane_pass_when_inv hs fun _ _ hM => Lane.each_inv (fun _ _ hN =>
        Lane.restart_inv _ (Lane.onFn_inv _ _ (Lane.when_inv (fun _ => Lane.giveUp_inv _) hN)))
      (hM.of_eq rfl rfl rfl rfl)
  | equinoxGiveUp => exact onLane_pass_when_inv hs fun _ _ => Lane.giveUp_inv _
  | autumnTimerExpiry => exact onLane_pass_when_inv hs fun _ _ => Lane.winter_inv _ _
  | winterStandstill => exact onLane_pass_when_inv hs fun _ _ => Lane.standstill_inv
  | autumnCauseClearTimer =>
    exact onLane_inv hs fun _ hL => ite_inv (Lane.when_inv (fun _ => Lane.clearCause_inv _ _) (Lane.pass_inv _ hL)) (Lane.when_inv
      (fun _ hL => Lane.stop_inv _ (Lane.clearCause_inv _ _ hL)) (Lane.pass_inv _ hL))
  | speedRequestTimer =>
    exact onLane_inv hs fun _ hL => ite_inv (Lane.when_inv (fun _ hL => Lane.restart_inv _ (Lane.speedRequest_inv _ hL)) (Lane.pass_inv _ hL))
      (Lane.stop_inv _ (Lane.pass_inv _ hL))
  | supplyLossTimeout =>
    exact onLane_pass_when_inv hs fun _ _ hL => Lane.fire_inv _ (Lane.classSK_inv _ (Lane.withholdAll_inv (Lane.set1_inv _ hL)))
  | hostLossTimeout =>
    exact onLane_pass_when_inv hs fun _ _ hM =>
      Lane.stop_inv _ (Lane.fireLevel_inv _ (Lane.classH_inv (hM.of_eq rfl rfl rfl rfl)))
  | roleClrWrite => exact onLane_when_inv hs fun _ _ => Lane.roleClr_inv _
  | pairedOutputWrite => exact onLane_when_inv hs fun _ _ hL => Lane.coreStore_inv _ _ (Lane.coreRuns_inv _ hL)
  | pairedInputLoad => exact onLane_when_inv hs fun _ _ hL => Lane.coreLoad_inv _ _ _ (Lane.coreRuns_inv _ hL)
  | cmCkptWrite => exact onLane_when_inv hs fun _ _ hL => Lane.checkpoint_inv _ _ (Lane.coreRuns_inv _ hL)
  | checkpointLagTimeout => exact execCheckpointLagTimeout_inv _ _ _ hs
  | coreSelfTestDone => exact onLane_pass_when_inv hs fun _ _ => Lane.outcome_inv _ _ _
  | uncorrectableCacheError => exact onLane_when_inv hs fun _ _ hL => Lane.poison_inv _ (Lane.fire_inv _ hL)
  | debugHaltRequest => exact onLane_when_inv hs fun _ _ => Lane.haltRequest_inv _
  | debugAbstractCommand => exact onLane_when_inv hs fun _ _ => Lane.abstractCommand_inv _ _
  | debugSysbusAccess => exact onLane_when_inv hs fun _ _ => Lane.sysbus_inv _ _ _
  | deNop | deWait | waitResume | deSincos => exact onLane_when_inv hs fun _ _ => Lane.onDe_inv _ _
  | deAdd | deSub | deAnd | deOr | deXor | deSll | deSrl | deSra | deSlt | deSltu | deMin | deMax | deMul | deAddi | deAndi | deOri
  | deXori | deLui | deSlli | deSrli | deSrai | deFlt | deFtoi | deItof | deFtoq | deQtof | deQmul | deQadd | deQsub | deAtan2 =>
    exact onLane_inv hs fun _ => Lane.deWrite_inv _ _ _ _
  | deLd => exact onLane_inv hs fun _ => Lane.deLoad_inv _ _ _ _
  | deSt => exact onLane_inv hs fun _ => Lane.deStore_inv _ _ _ _
  | deInp => exact onLane_inv hs fun _ => Lane.deIn_inv _ _ _
  | deOutp => exact onLane_inv hs fun _ => Lane.deOut_inv _ _ _
  | deBeq | deBne | deBlt | deBge => exact onLane_inv hs fun _ => Lane.deBranch_inv _ _ _ _
  | deJ | deJal | deJr => exact onLane_inv hs fun _ => Lane.deJump_inv _ _ _ _
  | deHalt | illegalInstruction => exact onLane_when_inv hs fun _ _ => Lane.halt_inv _ _
  | deFadd | deFsub | deFmul | deFma | deFmin | deFmax | deFneg | deFabs | deRecip | deRsqrt | deSqrt =>
    exact onLane_inv hs fun _ => Lane.deFloat_inv _ _ _ _
  | deCommit => exact onLane_inv hs fun _ hL => Lane.deOutOwn_inv _ _ _ _ (fun _ _ => Lane.commit_inv _ _) (Lane.pass_inv _ hL)
  | bridgeWrite => exact onLane_inv hs fun _ => Lane.deOutOwn_inv _ _ _ _ fun _ _ => Lane.bridge_inv _ _
  | deTimerSet => exact onLane_inv hs fun _ => Lane.deOutOwn_inv _ _ _ _ fun _ _ hL => Lane.onDe_inv _ _ hL
  | deTimerExpiry => exact onLane_pass_when_inv hs fun _ _ hL => Lane.raise_inv _ _ (Lane.onDe_inv _ _ hL)
  | mbPost => exact onLane_inv hs fun _ => Lane.deOutOwn_inv _ _ _ _ fun _ _ => Lane.post_inv _
  | svCmdWrite => exact onLane_inv hs fun _ => Lane.deOutOwn_inv _ _ _ _ fun _ _ hL => Lane.svApplyAll_inv (Lane.onSv_inv _ _ hL)
  | chopReqWrite => exact onLane_inv hs fun _ => Lane.deOutOwn_inv _ _ _ _ fun _ _ hL => Lane.chopApply_inv (Lane.onGate_inv _ hL)
  | deMboxDb => exact onLane_inv hs fun _ => Lane.reachWrite_inv _ _ _ _ fun _ => Lane.doorbell_inv _
  | deDataAccess => exact execDeDataAccess_inv _ _ _ _ hs
  | deCtrlRun => exact onLane_inv hs fun _ => Lane.reachWrite_inv _ _ _ _ fun _ => Lane.run_inv _
  | deCtrlHalt => exact onLane_inv hs fun _ => Lane.reachWrite_inv _ _ _ _ fun _ hL => Lane.when_inv (fun _ => Lane.halt_inv _ _) hL
  | deCtrlSeal => exact onLane_inv hs fun _ => Lane.reachWrite_inv _ _ _ _ fun _ => Lane.sealIm_inv _
  | deImcrcDone => exact onLane_when_inv hs fun _ _ hL => Lane.wr_inv _ _ hL
  | deOvrRstmin => exact onLane_inv hs fun _ => Lane.reachWrite_inv _ _ _ _ fun _ => Lane.wr_inv _ _
  | pwmPeriodStart => exact onLane_pass_when_inv hs fun _ _ => Lane.periodStart_inv _
  | carrierPeak => exact onLane_pass_when_inv hs fun _ _ => Lane.peak_inv _
  | carrierUnlockTimeout => exact onLane_pass_when_inv hs fun _ _ hL => Lane.stop_inv _ (Lane.each_inv (fun _ _ => Lane.fireLevel_inv _) hL)
  | samplePoint => exact onLane_pass_when_inv hs fun _ _ => Lane.sample_inv _ _ _
  | csCalStart => exact onLane_inv hs fun _ => Lane.reachWrite_inv _ _ _ _ fun _ => Lane.calStart_inv _ _
  | csCalDone => exact onLane_when_inv hs fun _ _ hM => Lane.wr_inv _ _ (Lane.clr_inv _ (hM.of_eq rfl rfl rfl rfl))
  | generalAdcConversion => exact onLane_when_inv hs fun _ _ => Lane.adcDone_inv _
  | qeCountingEdge => exact onLane_pass_when_inv hs fun _ _ => Lane.quadSample_inv _ _ _ _
  | qeQualifiedIndex =>
    exact onLane_pass_when_inv hs fun _ _ hL => Lane.when_inv (fun _ => Lane.indexEdge_inv _ _ _) (Lane.quadSample_inv _ _ _ _ hL)
  | qeWireDisagreement => exact onLane_when_inv hs fun _ _ hL => Lane.qeFail_inv _ (Lane.wrBit_inv _ _ _ hL)
  | qeSpeedEval => exact onLane_pass_when_inv hs fun _ _ => Lane.qeEval_inv _
  | resolverSample => exact onLane_pass_when_inv hs fun _ _ => Lane.rsSample_inv _ _
  | resolverExcitationFault => exact onLane_when_inv hs fun _ _ hL => Lane.rsFail_inv (Lane.set1_inv _ hL)
  | sentFrameRx => exact onLane_when_inv hs fun _ _ => Lane.sentRx_inv _ _
  | sentTimeout => exact onLane_pass_when_inv hs fun _ _ hL => Lane.fire_inv _ (Lane.set1_inv _ hL)
  | sensorRecordRx => exact onLane_when_inv hs fun _ _ hL => Lane.sensorRx_inv _ _ (Lane.linkHeard_inv _ hL)
  | positionVote => exact onLane_when_inv hs fun _ _ => Lane.votePort_inv _
  | motorSupervisorEval => exact onLane_when_inv hs fun _ _ => Lane.motEval_inv _
  | lockedRotorTimeout => exact onLane_pass_when_inv hs fun _ _ => Lane.lockedRotor_inv _
  | desatTrip => exact onLane_when_inv hs fun _ _ => Lane.desat_inv _
  | focTrip => exact onLane_when_inv hs fun _ _ => Lane.foc_inv _
  | turnOffStage1End => exact onLane_when_inv hs fun _ _ => Lane.stageEnd_inv _
  | uvloFallingCrossing => exact execUvloFallingCrossing_inv _ _ hs
  | uvloRisingCrossing => exact onLane_when_inv hs fun _ _ hL => ite_inv (Lane.grants_inv (Lane.wrBit_inv _ _ _ hL)) (Lane.bstRise_inv _ hL)
  | chopperOnCrossing | chopperOffCrossing => exact onLane_when_inv hs fun _ _ hL => Lane.chopApply_inv (Lane.onGate_inv _ hL)
  | ovTripCrossing => exact onLane_when_inv hs fun _ _ hL => ite_inv (Lane.ovTrip_inv hL) (Lane.onGate_inv _ hL)
  | ovAscCrossing => exact onLane_when_inv hs fun _ _ hL => ite_inv (Lane.ovAsc_inv hL) (Lane.onGate_inv _ hL)
  | chopperCheckTimeout => exact onLane_when_inv hs fun _ _ => Lane.chopCheck_inv _
  | ascLowSideOn => exact onLane_pass_when_inv hs fun _ _ => Lane.ascLowSides_inv _
  | svShortTrip => exact onLane_pass_when_inv hs fun _ _ => Lane.svTrip_inv _
  | svShortRetry => exact onLane_pass_when_inv hs fun _ _ hL => Lane.svApplyAll_inv (Lane.stop_inv _ (Lane.onSv_inv _ _ hL))
  | svOpenLoad =>
    exact onLane_inv hs fun _ hL => Lane.when_inv (fun _ hL => Lane.fire_inv _ (Lane.set1_inv _ hL)) (Lane.wr_inv _ _ (Lane.pass_inv _ hL))
  | gdTestStart => exact onLane_inv hs fun _ => Lane.reachWrite_inv _ _ _ _ fun _ => Lane.testStart_inv
  | gdTestDone => exact onLane_when_inv hs fun _ _ => Lane.testDone_inv _ _
  | gdZdiagStart => exact onLane_inv hs fun _ => Lane.reachWrite_inv _ _ _ _ fun _ => Lane.zStart_inv _
  | gdZdiagDone => exact onLane_when_inv hs fun _ _ => Lane.zDone_inv _ _ _
  | gateRequestLost => exact onLane_when_inv hs fun _ _ hL => Lane.grants_inv (Lane.onGuard_inv _ hL)
  | guardSupplyRise => exact onLane_when_inv hs fun _ _ => Lane.guardRise_inv
  | guardSupplyFall => exact onLane_when_inv hs fun _ _ => Lane.guardFall_inv
  | guardKpOpenDelay =>
    exact onLane_inv hs fun _ hL => Lane.when_inv (fun _ => Lane.openAfterDelay_inv) (Lane.gateFollowAll_inv (Lane.pass_inv _ hL))
  | challengeIssue =>
    exact onLane_when_inv hs fun _ _ hM =>
      Lane.when_inv (fun _ => Lane.issue_inv) (Lane.when_inv (fun _ => Lane.missed_inv) hM)
  | lgAnswerWrite => exact onLane_inv hs fun _ hL => Lane.byPair_inv _ _ (fun _ => Lane.judgeAnswer_inv _ _) (Lane.pass_inv _ hL)
  | challengeWindowClose => exact onLane_when_inv hs fun _ _ => Lane.missed_inv
  | firstAnswerTimeout => exact onLane_pass_when_inv hs fun _ _ hL => Lane.forced_inv _ (Lane.stop_inv _ hL)
  | selfTestAllowanceTimeout => exact onLane_pass_when_inv hs fun _ _ hL => Lane.missed_inv (Lane.clr_inv _ hL)
  | contactorMirrorChange =>
    exact onLane_inv hs fun _ hL => Lane.when_inv (fun _ hM => Lane.armAdvance_inv (Lane.watchContactors_inv hM))
      (Lane.wr_inv _ _ (Lane.wr_inv _ _ (Lane.wr_inv _ _ (Lane.wr_inv _ _ (Lane.pass_inv _ hL)))))
  | contactorMismatchTimeout => exact onLane_pass_when_inv hs fun _ _ => Lane.mismatch_inv _
  | ckwMissingEdge => exact onLane_when_inv hs fun _ _ => Lane.clockLost_inv _ _
  | rcMissingEdge => exact onLane_when_inv hs fun _ _ hL => Lane.clockLost_inv _ _ (Lane.onGuard_inv _ hL)
  | ckwWindowClose => exact onLane_when_inv hs fun _ _ => Lane.ckwWindow_inv _
  | clkgoodTimer => exact onLane_pass_when_inv hs fun _ _ => Lane.set1_inv _
  | lgRearmWrite => exact onLane_inv hs fun _ => Lane.byPair_inv _ _ fun _ => Lane.rearm_inv _
  | lgWdWrite => exact onLane_inv hs fun _ => Lane.byPair_inv _ _ fun _ => Lane.writeWd_inv _
  | lgKmoff => exact onLane_inv hs fun _ => Lane.byPair_inv _ _ fun _ hL => Lane.when_inv (fun _ => Lane.driveKm_inv _) hL
  | parkTimerExpiry => exact onLane_pass_when_inv hs fun _ _ => Lane.parkFire_inv
  | faultSourceFire => exact onLane_when_inv hs fun _ _ => Lane.sourceFires_inv _ _
  | fcStickyWrite => exact onLane_when_inv hs fun _ _ hL => Lane.writeSticky_inv _ _ (Lane.fcCheck_inv _ hL)
  | fcParityScan => exact onLane_when_inv hs fun _ _ => Lane.forced_inv _
  | fcInjGo => exact onLane_when_inv hs fun _ _ => Lane.inject_inv _
  | fcInjParity => exact onLane_when_inv hs fun _ _ => Lane.injectParity_inv
  | laneLinkSilence => exact onLane_pass_when_inv hs fun _ _ => Lane.fireLevel_inv _
  | slazWindowStart => exact onLane_pass_when_inv hs fun _ _ => Lane.windowStart_inv _ _ _
  | slazArbitratingOffer => exact onLane_pass_when_inv hs fun _ _ => Lane.arbOffer_inv _ _ _
  | slazOwnFrameComplete => exact onLane_pass_when_inv hs fun _ _ => Lane.ownComplete_inv _ _ _
  | slazFrameRx => exact onLane_pass_when_inv hs fun _ _ => Lane.szReceive_inv _ _ _
  | slazReferenceFrameRx => exact onLane_pass_when_inv hs fun _ _ => Lane.szRefRx_inv _ _ _
  | slazWindowEnd => exact onLane_pass_when_inv hs fun _ _ => Lane.windowEnd_inv _ _
  | slazCycleEnd => exact onLane_pass_when_inv hs fun _ _ => Lane.cycleEnd_inv _
  | slazBackupAttempt => exact onLane_pass_when_inv hs fun _ _ => Lane.szSendRef_inv _
  | slazListenTimeout =>
    exact onLane_pass_when_inv hs fun _ _ hL => Lane.onSlaz_inv _ _ (Lane.szSendRef_inv _ (Lane.stop_inv _ (Lane.szTo_inv _ _ hL)))
  | slazSyncTimeout => exact onLane_pass_when_inv hs fun _ _ => Lane.szListen_inv _
  | slazReferenceMiss => exact onLane_when_inv hs fun _ _ hL => Lane.szListen_inv _ (Lane.set1_inv _ hL)
  | slazErrorFrame =>
    exact onLane_when_inv hs fun _ _ hM =>
      have hC := Lane.wr_inv _ _ (Lane.wr_inv _ _ (Lane.wr_inv _ _ (Lane.countMod_inv _ _ hM)))
      ite_inv (Lane.szListen_inv _ hC) (Lane.onSlaz_inv _ _ hC)
  | slazBusOff => exact onLane_when_inv hs fun _ _ hL => Lane.szTo_inv _ _ (Lane.set1_inv _ hL)
  | slazBusOffRecovered => exact onLane_when_inv hs fun _ _ hL => Lane.szListen_inv _ (Lane.loadFields_inv _ hL)
  | szCtrlEnWrite => exact onLane_inv hs fun _ => Lane.reachWrite_inv _ _ _ _ fun _ => Lane.szEnable_inv _ _
  | slazBufferReady => exact onLane_inv hs fun _ => Lane.reachWrite_inv _ _ _ _ fun _ => Lane.when_inv fun _ => Lane.set1_inv _
  | timeFrameSend => exact onLane_pass_when_inv hs fun _ _ => Lane.timeSend_inv
  | timeFrameRx => exact onLane_pass_when_inv hs fun _ _ => Lane.timeReceive_inv _ _
  | agreementEnter => exact onLane_pass_when_inv hs fun _ _ => Lane.agreeEnter_inv _
  | agreementTimeout =>
    exact onLane_pass_when_inv hs fun _ _ hL => Lane.stop_inv _ (Lane.stop_inv _ (Lane.when_inv (fun _ => Lane.agreeLeave_inv _) hL))
  | timeStepInstant => exact execTimeStepInstant_inv _ _ hs
  | ptpSyncRx => exact onLane_inv hs fun _ => Lane.ptpRx_inv _ fun _ => Lane.ptpSync_inv _ _ _ _ _ _
  | ptpAnnounceRx => exact onLane_inv hs fun _ => Lane.ptpRx_inv _ fun _ hL => Lane.restart_inv _ (Lane.wr_inv _ _ hL)
  | ptpPdelayReqTimer => exact onLane_pass_when_inv hs fun _ _ hL => Lane.restart_inv _ (Lane.send_inv _ (hL.of_eq rfl rfl rfl rfl))
  | ptpPdelayReqRx => exact onLane_inv hs fun _ => Lane.ptpRx_inv _ fun _ hL => Lane.send_inv _ (Lane.send_inv _ hL)
  | ptpPdelayRespRx => exact execPtpPdelayRespRx_inv _ _ _ _ _ _ hs
  | combinedOffsetDecision => exact onLane_pass_when_inv hs fun _ _ => Lane.decideOffset_inv
  | ptpSyncTimeout =>
    exact onLane_pass_when_inv hs fun _ _ hM =>
      Lane.when_inv (fun _ hN => Lane.onTime_inv _ (Lane.setDisc_inv _ hN)) (Lane.clr_inv _ (Lane.onTime_inv _ hM))
  | tsJumpAccept | tsJumpReject | tsJumpResume => exact onLane_inv hs fun _ => Lane.jumpRequest_inv _
  | tsNowRead => exact onLane_when_inv hs fun _ _ => Lane.wr_inv _ _
  | tpModeWrite => exact onLane_inv hs fun _ => Lane.reachWrite_inv _ _ _ _ fun _ => Lane.pulseConfig_inv _ _
  | tpPulseStart => exact onLane_inv hs fun _ hL => Lane.pulseStart_inv _ (Lane.pass_inv _ hL)
  | tpPulseEnd => exact onLane_inv hs fun _ hL => Lane.pulseEnd_inv _ (Lane.pass_inv _ hL)
  | hostFrameRx => exact onLane_inv hs fun _ => Lane.frameRx_inv _
  | hostSessionTimeout => exact onLane_pass_when_inv hs fun _ _ => Lane.closeSession_inv _
  | hostFeatOffer => exact onLane_inv hs fun _ => Lane.credential_inv _ _ fun _ hL => Lane.when_inv (fun _ => Lane.featOffer_inv _) hL
  | hostFeatAccept => exact onLane_inv hs fun _ => Lane.credential_inv _ _ fun _ hL => Lane.when_inv (fun _ => Lane.featAccept_inv _ _) hL
  | hostChallenge => exact onLane_inv hs fun _ => Lane.credential_inv _ _ fun _ => Lane.challenge_inv _
  | hostOpen => exact onLane_inv hs fun _ => Lane.credential_inv _ _ fun _ => Lane.openCmd_inv _ _ _
  | hostHeartbeat => exact onLane_inv hs fun _ => Lane.command_inv _ _ _ _ _ _ fun _ hL => Lane.answer_inv _ _ _ (Lane.heard_inv _ hL)
  | hostEngage => exact execHostEngage_inv _ _ _ hs
  | hostDisengage => exact execHostDisengage_inv _ _ _ hs
  | hostSteerSet | hostBrakeSet | hostTrailSet => exact onLane_inv hs fun _ => Lane.command_inv _ _ _ _ _ _ fun _ => Lane.setpoint_inv _ _ _ _ _
  | hostParkSet => exact onLane_inv hs fun _ => Lane.command_inv _ _ _ _ _ _ fun _ => Lane.parkSet_inv _ _
  | hostArm => exact onLane_inv hs fun _ => Lane.command_inv _ _ _ _ _ _ fun _ => Lane.hostArm_inv _
  | hostStatusGet | hostFaultGet | hostPdStatus | hostPdAcctGet =>
    exact onLane_inv hs fun _ => Lane.command_inv _ _ _ _ _ _ fun _ hL => Lane.respond_inv _ _ _ _ hL
  | hostAttestReq => exact onLane_inv hs fun _ => Lane.command_inv _ _ _ _ _ _ fun _ => Lane.attestReq_inv _ _
  | hostTimeJump => exact onLane_inv hs fun _ => Lane.command_inv _ _ _ _ _ _ fun _ => Lane.hostJump_inv _ _
  | hostAutumnClr => exact onLane_inv hs fun _ => Lane.command_inv _ _ _ _ _ _ fun _ => Lane.hostAutumnClr_inv _ _
  | hostTest => exact onLane_inv hs fun _ => Lane.command_inv _ _ _ _ _ _ fun _ => Lane.hostTest_inv _
  | hostPdEnter => exact onLane_inv hs fun _ => Lane.command_inv _ _ _ _ _ _ fun _ => Lane.hostPdEnter_inv _ _ _
  | hostPdWake => exact onLane_inv hs fun _ => Lane.command_inv _ _ _ _ _ _ fun _ => Lane.hostPdWake_inv _ _
  | hqPop => exact onLane_inv hs fun _ => Lane.pop_inv _
  | hqPush => exact onLane_inv hs fun _ => Lane.push_inv _
  | isobusAddressClaimedRx =>
    exact onLane_when_inv hs fun _ _ hM => by
      split
      · exact Lane.isoAnswerClaim_inv hM
      · exact Lane.isoHear_inv _ _ hM
  | isobusCommandedAddress => exact onLane_when_inv hs fun _ _ => Lane.isoCommanded_inv _ _
  | isobusRequestRx => exact onLane_when_inv hs fun _ _ => Lane.isoRequest_inv _ _ _
  | trailerBrakeRequest => exact onLane_when_inv hs fun _ _ => Lane.trailerRequest_inv _ _ _ _
  | isobusOpenMessage => exact onLane_when_inv hs fun _ _ => Lane.isoOpen_inv _ _ _ _
  | recoveryDescriptor => exact execRecoveryDescriptor_inv _ _ _ hs
  | dm1Timer => exact onLane_pass_when_inv hs fun _ _ => Lane.dm1Timer_inv
  | steeringStateBroadcast => exact onLane_pass_when_inv hs fun _ _ hL => Lane.send_inv _ (Lane.restart_inv _ hL)
  | isobusBusOff => exact onLane_when_inv hs fun _ _ hL => Lane.fire_inv _ (Lane.set1_inv _ hL)
  | ethernetLinkDown =>
    exact onLane_when_inv hs fun _ _ hL => Lane.when_inv (fun _ => Lane.fireLevel_inv _) (Lane.ptpLost_inv (hL.of_eq rfl rfl rfl rfl))
  | pdReqGo => exact onLane_when_inv hs fun _ _ => Lane.pdWrite_inv _
  | pdWakeCommand => exact onLane_when_inv hs fun _ _ hL => Lane.pdRequest_inv _ _ _ _ hL
  | pdEntryStepEnd => exact onLane_when_inv hs fun _ _ => Lane.pdStep_inv _
  | pdWfiTimeout => exact onLane_pass_when_inv hs fun _ _ => Lane.pdNoWfi_inv _
  | pdWakeEvent => exact onLane_when_inv hs fun _ _ => Lane.pdWake_inv _ _
  | pdWakeComplete => exact onLane_inv hs fun _ hL => Lane.wakeDone_inv _ (Lane.pass_inv _ hL)
  | pdAcctclr => exact onLane_inv hs fun _ => Lane.pdClear_inv
  | ckFmStart => exact onLane_when_inv hs fun _ _ => Lane.fmWrite_inv _
  | ckFmWindowClose => exact onLane_when_inv hs fun _ _ => Lane.fmClose_inv _
  | ckFmStop =>
    exact onLane_when_inv hs fun _ _ hM => by
      split
      · exact Lane.fmWindow_inv _ hM
      · exact Lane.fmWrite_inv _ hM
  | pllLockLoss => exact onLane_when_inv hs fun _ _ hM => Lane.when_inv (fun _ => Lane.clockLost_inv _ _) (Lane.wrBit_inv _ _ _ hM)
  | seInfo => exact onLane_inv hs fun _ => Lane.seSubmit_inv _ _ _ _ _ fun _ _ => Lane.seInfo_inv
  | seIdGen => exact onLane_inv hs fun _ => Lane.seSubmit_inv _ _ _ _ _ fun _ _ => Lane.seIdGen_inv
  | seIdPub => exact onLane_inv hs fun _ => Lane.seSubmit_inv _ _ _ _ _ fun _ _ => Lane.seIdPub_inv
  | seIdCert => exact onLane_inv hs fun _ => Lane.seSubmit_inv _ _ _ _ _ fun _ _ => Lane.seIdCert_inv _
  | seSign => exact onLane_inv hs fun _ => Lane.seSubmit_inv _ _ _ _ _ fun _ _ => Lane.seSign_inv _
  | seVerify => exact onLane_inv hs fun _ => Lane.seSubmit_inv _ _ _ _ _ fun _ _ => Lane.seVerify_inv _
  | seHash => exact onLane_inv hs fun _ => Lane.seSubmit_inv _ _ _ _ _ fun _ _ => Lane.seHash_inv _
  | seRandom => exact onLane_inv hs fun _ => Lane.seSubmit_inv _ _ _ _ _ fun _ _ => Lane.seRandom_inv _
  | seAttest => exact onLane_inv hs fun _ => Lane.seSubmit_inv _ _ _ _ _ fun _ _ => Lane.seAttest_inv _
  | seDbgChal => exact onLane_inv hs fun _ => Lane.seSubmit_inv _ _ _ _ _ fun _ _ => Lane.seDbgChal_inv
  | seDbgOpen => exact onLane_inv hs fun _ => Lane.seSubmit_inv _ _ _ _ _ fun _ _ => Lane.seDbgOpen_inv _
  | seDbgClose => exact onLane_inv hs fun _ => Lane.seSubmit_inv _ _ _ _ _ fun _ _ => Lane.seDbgClose_inv
  | seLcAdvance => exact onLane_inv hs fun _ => Lane.seSubmit_inv _ _ _ _ _ fun _ _ => Lane.seLcAdvance_inv _
  | seKeyRevoke => exact onLane_inv hs fun _ => Lane.seSubmit_inv _ _ _ _ _ fun _ _ => Lane.seKeyRevoke_inv _
  | seKeyProg => exact onLane_inv hs fun _ => Lane.seSubmit_inv _ _ _ _ _ fun _ _ => Lane.seKeyProg_inv _
  | seCommandComplete => exact onLane_when_inv hs fun _ _ => Lane.seComplete_inv _
  | entropyHealthFail => exact onLane_when_inv hs fun _ _ => Lane.entropyFail_inv
  | tamperBreach => exact onLane_when_inv hs fun _ _ => Lane.tamper_inv
  | authdataChallenge => exact onLane_when_inv hs fun _ _ => Lane.authChallenge_inv
  | authdataTokenWord => exact onLane_when_inv hs fun _ _ => Lane.authWord_inv _
  | authdataClose => exact onLane_when_inv hs fun _ _ => Lane.closeDebug_inv
  | authdataRead => exact onLane_when_inv hs fun _ _ => Lane.authRead_inv
  | debugTokenCheckDone => exact onLane_when_inv hs fun _ _ => Lane.tokenDone_inv
  | debugOpenTimerExpiry => exact onLane_pass_when_inv hs fun _ _ => Lane.closeDebug_inv
  | jtagExtest | jtagSamplePreload => exact onLane_when_inv hs fun _ _ hL => Lane.when_inv (fun _ => Lane.bypass_inv) (Lane.irLoad_inv _ hL)
  | jtagIdcode | jtagDtmcs => exact onLane_when_inv hs fun _ _ hL => Lane.send_inv _ (Lane.irLoad_inv _ hL)
  | jtagDmi => exact execJtagDmi_inv _ _ _ hs
  | jtagBypass => exact onLane_when_inv hs fun _ _ hL => Lane.bypass_inv (Lane.irLoad_inv _ hL)
  | updBegin => exact onLane_inv hs fun _ => Lane.updGate_inv _ _ _ fun _ => Lane.updBegin_inv _ _ _ _
  | updData => exact onLane_inv hs fun _ => Lane.updDataGate_inv _ _ fun _ => Lane.updData_inv _ _ _
  | updStatus | updInfo => exact onLane_inv hs fun _ => Lane.updGate_inv _ _ _ fun _ hL => Lane.updAnswer_inv _ _ _ _ hL
  | updAbort => exact onLane_inv hs fun _ => Lane.updGate_inv _ _ _ fun _ => Lane.updAbort_inv _
  | updActivate => exact onLane_inv hs fun _ => Lane.updGate_inv _ _ _ fun _ => Lane.updActivate_inv _
  | updPause => exact onLane_inv hs fun _ => Lane.updGate_inv _ _ _ fun _ => Lane.updPause_inv _ _
  | forwardedChunkRx => exact execForwardedChunkRx_inv _ _ _ _ hs
  | updateApplyCheckpoint => exact onLane_when_inv hs fun _ _ => Lane.applyPart_inv _ _
  | updateApplyDone => exact execUpdateApplyDone_inv _ _ hs
  | preparedTimeout => exact onLane_pass_when_inv hs fun _ _ => Lane.prepareLapse_inv
  | updateRestart => exact onLane_when_inv hs fun _ _ => Lane.updateRestart_inv
  | trialTimeout => exact onLane_pass_when_inv hs fun _ _ => Lane.revert_inv
  | recoveryPackageBuilt => exact execRecoveryPackageBuilt_inv _ hs
  | btFuseGo => exact onLane_inv hs fun _ => Lane.reachWrite_inv _ _ _ _ fun _ => Lane.fuseWrite_inv _
  | btFuseDone => exact onLane_inv hs fun _ => Lane.fuseDone_inv
  | sliceSchedulerTick => exact onLane_pass_when_inv hs fun _ _ hL => Lane.sliceTick_inv (Lane.restart_inv _ hL)
  | sliceDone => exact onLane_when_inv hs fun _ _ => Lane.sliceEnd_inv _ _ _ _
  | btTestSlice => exact onLane_inv hs fun _ => Lane.reachWrite_inv _ _ _ _ fun _ => Lane.testSlice_inv _
  | btTestAnalog => exact onLane_inv hs fun _ => Lane.reachWrite_inv _ _ _ _ fun _ => Lane.testAnalog_inv
  | agRunGo => exact onLane_inv hs fun _ => Lane.reachWrite_inv _ _ _ _ fun _ => Lane.agGo_inv
  | ageingRunDone => exact onLane_when_inv hs fun _ _ => Lane.agRun_inv
  | registerWrite =>
    exact onLane_when_inv hs fun _ _ hM =>
      have hR := Lane.coreRuns_inv _ hM
      ite_inv (Lane.accessFault_inv _ hR) (ite_inv (Lane.checkpoint_inv _ _ hR) (Lane.busStore_inv _ _ hR))
  | mtimecmpReached => exact onLane_pass_when_inv hs fun _ _ => Lane.timerCheck_inv _
  | debugResumeRequest => exact onLane_when_inv hs fun _ _ => Lane.resumeRequest_inv _
  | wfi => exact onLane_when_inv hs fun _ _ => Lane.waits_inv _
  | clockEdgesResume => exact onLane_when_inv hs fun _ _ hL => ite_inv (Lane.clockBack_inv _ (Lane.onGuard_inv _ hL)) (Lane.clockBack_inv _ hL)
  | ethernetLinkUp => exact onLane_when_inv hs fun _ _ hL => Lane.endLevel_inv _ (hL.of_eq rfl rfl rfl rfl)
  | transportProtocolCmRx => exact onLane_when_inv hs fun _ _ => Lane.tpCm_inv _
  | v5outOvertemperature => exact onLane_when_inv hs fun _ _ hL => Lane.restart_inv _ (hL.of_eq rfl rfl rfl rfl)
  | v5outRetry => exact onLane_pass_when_inv hs fun _ _ hL => Lane.stop_inv _ (hL.of_eq rfl rfl rfl rfl)
  | laneDieResetRelease => exact onLane_pass_when_inv hs fun _ _ => Lane.startLane_inv _
  | floorFusesBlown => exact execFloorFusesBlown_inv _ hs
  | analogRerunDone => exact onLane_when_inv hs fun _ _ => Lane.analogDone_inv _ _ _

theorem tick_inv {s : State} (hs : s.Inv) : s.tick.Inv :=
  ⟨Lane.when_inv (fun _ => Lane.tick_inv) hs.a, Lane.when_inv (fun _ => Lane.tick_inv) hs.b, Lane.when_inv (fun _ => Lane.tick_inv) hs.c⟩

/-- Settles O54: a step with a command waiting is that command on the state with the rest of the queue, which has the same lanes;
a step with none waiting is a tick. -/
theorem everyStepKeepsTheInvariant : Obligations.every_step_keeps_the_invariant := by
  intro s t hs ht
  unfold step at ht
  split at ht
  next c rest _ => exact exec_inv c (s := { s with pending := rest }) ⟨hs.a, hs.b, hs.c⟩ t ht
  next => cases ht; exact tick_inv hs

end Sys2Proof.Machine

namespace Sys2Proof.Machine

/-! ### What a tick of a lane leaves -/

/-- A lane with other gate outputs. -/
def Lane.withDrive (d : Vector Drive 18) (L : Lane) : Lane := { L with gate := { L.gate with drive := d } }

/-- The gate outputs follow what is asked of them: nothing but the outputs themselves changes (R312). -/
theorem Lane.gateFollow_drive (b : Fin 18) (L : Lane) : ∃ d, L.gateFollow b = L.withDrive d := by
  unfold Lane.gateFollow
  dsimp only
  repeat' split
  all_goals exact ⟨_, rfl⟩

theorem Lane.gateFollowAll_drive (L : Lane) : ∃ d, L.gateFollowAll = L.withDrive d := by
  unfold Lane.gateFollowAll
  generalize List.finRange 18 = bs
  induction bs generalizing L with
  | nil => exact ⟨_, rfl⟩
  | cons b bs ih =>
    obtain ⟨d, hd⟩ := L.gateFollow_drive b
    obtain ⟨d', hd'⟩ := ih (L.gateFollow b)
    exact ⟨d', hd'.trans (by rw [hd]; rfl)⟩

theorem Lane.unhold_of_stalled_nil {L : Lane} (h : L.ret.stalled = []) : L.unhold = L := by
  unfold Lane.unhold
  rw [h]

/-- What no interrupt of a hart reaches: time, the lane links, what has gone out, SRAM, the STORE window, the timers' compare values. -/
def Lane.offHarts (L : Lane) : TimeSt × List Tx × List Output × List Host.Cell × List Host.Cell × Vector Nat 4 :=
  (L.time, L.link, L.out, L.sram, L.store, L.mtimecmp)

/-- The same, and which timer interrupts are pending. -/
def Lane.keptByInterrupts (L : Lane) := (L.offHarts, L.mtip)

theorem Lane.pdWake_keeps (d : Fin 8) (who : Nat) (L : Lane) : (L.pdWake d who).keptByInterrupts = L.keptByInterrupts := by
  unfold Lane.pdWake
  dsimp only
  split
  · rfl
  · split
    · exact Lane.when_proj _ (Lane.pdCount d who _) Lane.keptByInterrupts (fun _ => rfl) _
    · rfl

theorem Lane.interrupt_keeps (c : Core) (L : Lane) : (L.interrupt c).keptByInterrupts = L.keptByInterrupts := by
  unfold Lane.interrupt
  dsimp only
  split <;> rfl

/-- An interrupt for a hart reaches its core, its pair and its power domain alone (R135, R462). -/
theorem Lane.coreInterrupt_keeps (c : Core) (L : Lane) : (L.coreInterrupt c).keptByInterrupts = L.keptByInterrupts :=
  (Lane.when_proj _ _ Lane.keptByInterrupts (Lane.pdWake_keeps 1 17) _).trans (L.interrupt_keeps c)

/-- The timer interrupt of a hart follows its compare value; whatever else changes is what an interrupt of the hart reaches (R400). -/
theorem Lane.timerCheck_keeps (c : Core) (L : Lane) : (L.timerCheck c).keptByInterrupts =
    (L.offHarts, vupd L.mtip c fun _ => decide (vget L.mtimecmp c ≤ L.now / 1000)) :=
  Lane.when_proj _ _ Lane.keptByInterrupts (Lane.coreInterrupt_keeps c) _

theorem Lane.plicCheck_keeps (c : Core) (L : Lane) : (L.plicCheck c).keptByInterrupts = L.keptByInterrupts :=
  Lane.when_proj _ _ Lane.keptByInterrupts (Lane.coreInterrupt_keeps c) _

theorem Lane.plicCheckAll_keeps (L : Lane) : L.plicCheckAll.keptByInterrupts = L.keptByInterrupts :=
  Lane.each_proj _ _ Lane.keptByInterrupts (fun c _ => Lane.plicCheck_keeps c) L

theorem Lane.offHarts_of_kept {L M : Lane} (h : M.keptByInterrupts = L.keptByInterrupts) : M.offHarts = L.offHarts :=
  congrArg Prod.fst h

theorem Lane.mtip_of_kept {L M : Lane} (h : M.keptByInterrupts = L.keptByInterrupts) : M.mtip = L.mtip := congrArg Prod.snd h

theorem Lane.timerCheck_offHarts (c : Core) (L : Lane) : (L.timerCheck c).offHarts = L.offHarts :=
  congrArg Prod.fst (L.timerCheck_keeps c)

theorem Lane.timerCheck_mtip (c h : Core) (L : Lane) :
    vget (L.timerCheck c).mtip h = if c = h then decide (vget L.mtimecmp h ≤ L.now / 1000) else vget L.mtip h := by
  have hm : (L.timerCheck c).mtip = _ := congrArg Prod.snd (L.timerCheck_keeps c)
  rw [hm, vget_vupd]
  split
  · next e => rw [e]
  · rfl

theorem Lane.now_of_offHarts {L M : Lane} (h : M.offHarts = L.offHarts) : M.now = L.now :=
  congrArg (fun x => x.1.dev / 2 ^ 48) h

theorem Lane.mtimecmp_of_offHarts {L M : Lane} (h : M.offHarts = L.offHarts) : M.mtimecmp = L.mtimecmp :=
  congrArg (fun x => x.2.2.2.2.2) h

theorem Lane.each_timerCheck (cs : List Core) (L : Lane) : (L.each cs Lane.timerCheck).offHarts = L.offHarts ∧
    ∀ h, vget (L.each cs Lane.timerCheck).mtip h = if h ∈ cs then decide (vget L.mtimecmp h ≤ L.now / 1000) else vget L.mtip h := by
  induction cs generalizing L with
  | nil => exact ⟨rfl, fun h => by simp [Lane.each]⟩
  | cons c cs ih =>
    obtain ⟨hk, hm⟩ := ih (L.timerCheck c)
    have ht := L.timerCheck_offHarts c
    refine ⟨hk.trans ht, fun h => (hm h).trans ?_⟩
    rw [Lane.mtimecmp_of_offHarts ht, Lane.now_of_offHarts ht, Lane.timerCheck_mtip]
    by_cases hh : h ∈ cs
    · simp [hh]
    · by_cases e : c = h
      · simp [e]
      · simp [hh, e, Ne.symm e]

/-- What a tick of a lane with supply and with no access held by a commit or a slice is built from: 40 ns pass, the gate outputs
follow, and the harts' interrupts while firmware runs. -/
theorem Lane.tick_of_stalled_nil {L : Lane} (h : L.ret.stalled = []) : ∃ d,
    L.tick = ((L.pass 40).withDrive d).when L.firmware
      (fun M => (M.each [0, 1, 2, 3] Lane.timerCheck).plicCheckAll) := by
  obtain ⟨d, hd⟩ := (L.pass 40).gateFollowAll_drive
  refine ⟨d, ?_⟩
  unfold Lane.tick
  rw [hd, Lane.unhold_of_stalled_nil (by exact h)]
  rfl

/-- After a tick each hart's timer interrupt follows its compare value, and 40 ns have passed. -/
theorem Lane.tick_of_firmware {L : Lane} (hf : L.firmware = true) (h : L.ret.stalled = []) :
    L.tick.offHarts = (L.pass 40).offHarts ∧
    ∀ c : Core, vget L.tick.mtip c = decide (vget L.mtimecmp c ≤ (L.pass 40).now / 1000) := by
  obtain ⟨d, hd⟩ := Lane.tick_of_stalled_nil h
  rw [hd, hf, Lane.when, if_pos rfl]
  obtain ⟨ht, hm⟩ := Lane.each_timerCheck [0, 1, 2, 3] ((L.pass 40).withDrive d)
  have hp := Lane.plicCheckAll_keeps (((L.pass 40).withDrive d).each [0, 1, 2, 3] Lane.timerCheck)
  refine ⟨(Lane.offHarts_of_kept hp).trans ht, fun c => ?_⟩
  rw [Lane.mtip_of_kept hp, hm, if_pos (by fin_cases c <;> decide)]
  rfl

theorem Lane.powered_of_firmware {L : Lane} (h : L.firmware = true) : L.powered = true := by
  simp only [Lane.firmware, decide_eq_true_eq] at h
  simp [Lane.powered, h]

theorem State.lane_tick (s : State) (l : LaneId) : s.tick.lane l = (s.lane l).when (s.lane l).powered Lane.tick := by
  cases l <;> rfl

/-- Settles O51: the first part is how a step is defined; on an empty queue every lane with supply ticks. -/
theorem stepTakesTheFrontCommand : Obligations.step_takes_the_front_command := by
  refine ⟨fun s c q h => by rw [step, h], fun s h => ⟨s.tick, by rw [step, h], h, fun l => ⟨fun hp => ?_, fun hp hf hs => ?_, fun hf hs => ?_⟩⟩⟩
  · rw [State.lane_tick, hp]
    rfl
  · obtain ⟨d, hd⟩ := Lane.tick_of_stalled_nil hs
    rw [State.lane_tick, hp, Lane.when, if_pos rfl, hd, hf]
    rfl
  · rw [State.lane_tick, Lane.powered_of_firmware hf, Lane.when, if_pos rfl]
    obtain ⟨hk, hm⟩ := Lane.tick_of_firmware hf hs
    simp only [Lane.offHarts, Prod.mk.injEq] at hk
    obtain ⟨htime, hlink, hout, hsram, hstore, -⟩ := hk
    exact ⟨htime, hlink, hout, hsram, hstore, hm⟩

end Sys2Proof.Machine

namespace Sys2Proof.Machine

/-! ### A register write that a slice holds (R7, R542) -/

/-- A running lane in which a slice of target 0 runs and the count of its next 4 KiB group stands beyond the 2,048 groups of the SRAM, at
the addresses of the ROLE block. -/
def sliceAtRole : Lane :=
  let L := (Lane.unpowered .a).set1 Reg.BT_SLICE_STAT_RUNNING
  { L with
    start := { L.start with phase := .running }
    core := L.core.map (fun c => { c with run := .running })
    test := { L.test with units := vupd L.test.units 0 (fun _ => 0x10010) } }

/-- The lane is one that the clause for ROLE_REFWD speaks of: core 0 runs, no access waits, the ROLE block is not locked. -/
theorem sliceAtRole_runs : sliceAtRole.coreLive 0 = true ∧ sliceAtRole.ret.stalled = [] ∧ sliceAtRole.waitsAt (some 0) = none ∧
    sliceAtRole.is Reg.ROLE_CTRL_LOCK = false := by
  and_intros <;> decide +kernel

/-- The slice holds the group that the register of STEER's period would lie in (R542). -/
theorem sliceAtRole_holds : (sliceAtRole.coreRuns 0).groupHolds 0x20010060 4 = true := by
  decide +kernel

/-- A store to an address whose group a slice holds joins the accesses that wait (R542). -/
theorem Lane.busStore_of_groupHolds {L : Lane} {who : Option Core} {w : BufWrite} (hs : L.ret.stalled = []) (hw : L.waitsAt who = none)
    (ha : L.asleep w.addr = none) (hg : L.groupHolds w.addr w.size = true) :
    L.busStore who w = L.enqueueCommit ⟨L.el, who, true, false, w⟩ := by
  unfold Lane.busStore Lane.perform Lane.waitsCommit
  rw [Lane.unhold_of_stalled_nil hs, hs, hw, ha, hg]
  rfl

/-- A register write of a running core is a store after the core has gone on, where the map allows it and it is no checkpoint. -/
theorem exec_registerWrite {s : State} {l : LaneId} {c : Core} {a n v : Nat} (hl : (s.lane l).coreLive c = true)
    (ho : accessOk (some c) a n true = true) (ha : a ≠ 0x20020010) :
    exec (.registerWrite l c a n v) s = .next (s.setLane l (((s.lane l).coreRuns c).busStore (some c) ⟨a, n, v⟩)) := by
  show Host.Outcome.next (s.setLane l ((s.lane l).when ((s.lane l).coreLive c) _)) = _
  rw [Lane.when, if_pos hl]
  simp only [ho, ha, Bool.not_true, Bool.false_eq_true, if_false]

/-- Refutes O14: the clause of a write of ROLE_REFWD_f while LOCK is 0 has no premise that no slice holds the address
(`L.groupHolds a 4 = false`, as other clauses have), and it speaks of every state. Where the slice's group number lies beyond the SRAM,
at the ROLE block, the write waits for the slice, so that an access waits that did not before. -/
theorem not_coreAccesses : ¬ Obligations.core_accesses := by
  intro h
  obtain ⟨-, -, -, -, -, -, -, -, -, hwrite, -⟩ := h
  obtain ⟨hlive, hstalled, hwaits, hlock⟩ := sliceAtRole_runs
  obtain ⟨t, ht, -, -, -, -, hframe⟩ := hwrite .a 0 .steer 0x1005 { State.reset with a := sliceAtRole }
    ⟨hlive, hstalled, hwaits, hlock, by decide, by decide, by decide⟩
  have hexec := exec_registerWrite (s := { State.reset with a := sliceAtRole }) (l := .a) (n := 4) (v := 0x1005) hlive
    (by decide +kernel : accessOk (some 0) 0x20010060 4 true = true) (by decide)
  cases hexec.symm.trans ht
  have hstore := Lane.busStore_of_groupHolds (who := some 0) (w := ⟨0x20010060, 4, 0x1005⟩) (L := sliceAtRole.coreRuns 0)
    hstalled hwaits rfl sliceAtRole_holds
  have hret := congrArg (fun M : Lane => M.ret.stalled) hframe
  change ((sliceAtRole.coreRuns 0).busStore (some 0) ⟨0x20010060, 4, 0x1005⟩).ret.stalled = sliceAtRole.ret.stalled at hret
  rw [hstore] at hret
  exact List.append_ne_nil_of_right_ne_nil _ (List.cons_ne_nil _ _) (hret.trans hstalled)

end Sys2Proof.Machine

namespace Sys2Proof.Machine

/-! ### Commands stay in their lane (R18, R27) -/

/-- A command does to its lane what one function of the lane does, and nothing else. -/
theorem exec_onLane (c : Instr) : ∃ f : Lane → Lane, ∀ s : State, exec c s = .next (s.onLane (laneOf c) f) := by
  cases c <;> exact ⟨_, fun _ => rfl⟩

/-- Settles O57: a command is one function of its lane, whatever stands elsewhere. -/
theorem commandsStayInTheirLane : Obligations.commands_stay_in_their_lane := by
  refine ⟨fun c s => ?_, fun c s₁ s₂ t₁ t₂ hlane h₁ h₂ => ?_⟩ <;> obtain ⟨f, hf⟩ := exec_onLane c
  · exact ⟨_, hf s, State.pending_onLane _ _ _, fun m hm => State.lane_onLane_ne s f (Ne.symm hm)⟩
  · rw [hf] at h₁ h₂
    cases h₁
    cases h₂
    rw [State.lane_onLane_same, State.lane_onLane_same, hlane]

end Sys2Proof.Machine

namespace Sys2Proof.Machine

/-! ### Conditions, and operations in order -/

theorem Lane.when_of_true {b : Bool} (f : Lane → Lane) (L : Lane) (h : b = true) : L.when b f = f L := if_pos h

/-- What the operation of one element brings about, and no operation undoes, holds after all of them. -/
theorem Lane.each_reaches {α : Type} {f : α → Lane → Lane} {P : Lane → Prop} {x : α} (hx : ∀ M : Lane, P (f x M))
    (hkeep : ∀ (y : α) (M : Lane), P M → P (f y M)) {xs : List α} (hmem : x ∈ xs) (L : Lane) : P (L.each xs f) := by
  have keep : ∀ (ys : List α) (M : Lane), P M → P (M.each ys f) := by
    intro ys
    induction ys with
    | nil => exact fun _ h => h
    | cons y ys ih => exact fun M h => ih _ (hkeep y M h)
  induction xs generalizing L with
  | nil => cases hmem
  | cons y ys ih =>
    cases hmem with
    | head => exact keep ys _ (hx L)
    | tail _ h => exact ih h _

/-- What a function of the ROLE block has after a change of it. -/
theorem Lane.fn_onFn_same {β : Type} (p : RoleFn → β) (f : Func) (g : RoleFn → RoleFn) (L : Lane) :
    p ((L.onFn f g).fn f) = p (g (L.fn f)) :=
  congrArg p (vget_vupd_same _ _ _)

/-! ### What the tests of a reference read (R103, R113, R176) -/

/-- The lane M has all that the tests of a reference of function f read in L: every register field but ROLE_OVL.LONGEST among it. -/
structure Lane.JudgesAs (f : Func) (L M : Lane) : Prop where
  start : M.start = L.start
  time : M.time = L.time
  rd : ∀ g : Fld, g.key ≠ Reg.ROLE_OVL_LONGEST.key → M.rd g = L.rd g
  hasSeq : (M.fn f).hasSeq = (L.fn f).hasSeq
  former : (M.fn f).former = (L.fn f).former

namespace Lane.JudgesAs

variable {f : Func} {L M : Lane}

theorem el (h : L.JudgesAs f M) : M.el = L.el := congrArg (fun t => t.elapsed / 2 ^ 48) h.time

theorem now (h : L.JudgesAs f M) : M.now = L.now := congrArg (fun t => t.dev / 2 ^ 48) h.time

theorem seq (h : L.JudgesAs f M) : M.rd (Reg.ROLE_SEQ f.code) = L.rd (Reg.ROLE_SEQ f.code) := h.rd _ (by cases f <;> decide)

theorem active (h : L.JudgesAs f M) : M.rd (Reg.ROLE_FUNC_ACT f.code) = L.rd (Reg.ROLE_FUNC_ACT f.code) :=
  h.rd _ (by cases f <;> decide)

theorem dropped (h : L.JudgesAs f M) : M.rd Reg.ROLE_OVL_DROPPED = L.rd Reg.ROLE_OVL_DROPPED := h.rd _ (by decide)

theorem periodNs (h : L.JudgesAs f M) : M.periodNs f = L.periodNs f := by
  rw [Lane.periodNs, Lane.periodNs, h.rd _ (by cases f <;> decide)]

theorem fixStamp (h : L.JudgesAs f M) (t : Nat) : M.fixStamp t = L.fixStamp t := by
  rw [Lane.fixStamp, Lane.fixStamp, h.time, h.el, h.now, h.rd Reg.TS_STEP (by decide), h.rd Reg.TS_STEP_AT (by decide)]

theorem senderOk (h : L.JudgesAs f M) (x : LaneId) : M.senderOk f x = L.senderOk f x := by
  rw [Lane.senderOk, Lane.senderOk, h.active, h.former, h.el]

theorem winterTorque (h : L.JudgesAs f M) : M.winterTorque f = L.winterTorque f := by
  rw [Lane.winterTorque, Lane.winterTorque, Lane.mode, Lane.mode, h.rd _ (by cases f <;> decide)]

theorem intakesOf (h : L.JudgesAs f M) : M.intakesOf f = L.intakesOf f :=
  congrArg (fun x => Lane.intakesOf { L with start := x } f) h.start

theorem refOk {r : RefRecord} (h : L.JudgesAs r.func M) : M.refOk r = L.refOk r := by
  rw [Lane.refOk, Lane.refOk, h.senderOk, h.hasSeq, h.seq, h.now, h.fixStamp, h.periodNs]

end Lane.JudgesAs

/-! ### A reference reaches the intakes (R103, R122, R176) -/

/-- What a reference does before it is tested: ROLE_OVL.LONGEST, and the watchdog of its function (R98, R122). -/
def Lane.noteRef (r : RefRecord) (L : Lane) : Lane :=
  let M := L.noteOverlap r
  M.when (M.running (.watchdog r.func) && decide (M.rd (Reg.ROLE_FUNC_ACT r.func.code) = r.lane.code)) (restart (.watchdog r.func))

/-- An intake takes a reference that has come at an elapsed time (R176). -/
def Lane.intakeRef (r : RefRecord) (t : Nat) (n : Engine) (L : Lane) : Lane :=
  L.onDe n fun e => { e with intake := vupd e.intake r.func.ix fun i => { i with waiting := (r, t) :: i.waiting } }

/-- A reference that has passed the tests: its number is kept and every intake of its function takes it (R102, R176). -/
def Lane.acceptRef (r : RefRecord) (L : Lane) : Lane :=
  ((L.wr (Reg.ROLE_SEQ r.func.code) r.seq).onFn r.func fun x => { x with hasSeq := true }).each (L.intakesOf r.func) (Lane.intakeRef r L.el)

theorem Lane.takeRef_eq (r : RefRecord) (L : Lane) : L.takeRef r =
    if (L.noteRef r).winterTorque r.func then L.noteRef r
    else if (L.noteRef r).refOk r then (L.noteRef r).acceptRef r else (L.noteRef r).count Reg.ROLE_OVL_DROPPED 1 := rfl

/-- The bookkeeping leaves all but ROLE_OVL.LONGEST and the timers. -/
theorem Lane.noteRef_keeps {β : Type} (p : Lane → β) (hwr : ∀ (v : Nat) (M : Lane), p (M.wr Reg.ROLE_OVL_LONGEST v) = p M)
    (htimer : ∀ (t : Timer) (M : Lane), p (M.restart t) = p M) (r : RefRecord) (L : Lane) : p (L.noteRef r) = p L := by
  refine (Lane.when_proj _ _ p (htimer _) _).trans ?_
  unfold Lane.noteOverlap
  split
  · exact hwr _ L
  · rfl

theorem Lane.noteRef_judgesAs (r : RefRecord) (f : Func) (L : Lane) : L.JudgesAs f (L.noteRef r) where
  start := Lane.noteRef_keeps Lane.start (fun _ _ => rfl) (fun _ _ => rfl) r L
  time := Lane.noteRef_keeps Lane.time (fun _ _ => rfl) (fun _ _ => rfl) r L
  rd g hg := Lane.noteRef_keeps (fun M => M.rd g) (fun v M => M.rd_wr_ne v hg.symm) (fun _ _ => rfl) r L
  hasSeq := Lane.noteRef_keeps (fun M => (M.fn f).hasSeq) (fun _ _ => rfl) (fun _ _ => rfl) r L
  former := Lane.noteRef_keeps (fun M => (M.fn f).former) (fun _ _ => rfl) (fun _ _ => rfl) r L

/-- The intakes take a reference and nothing else changes. -/
theorem Lane.each_intakeRef_keeps {β : Type} (p : Lane → β) (h : ∀ (n : Engine) (g : EngineSt → EngineSt) (M : Lane), p (M.onDe n g) = p M)
    (ns : List Engine) (r : RefRecord) (t : Nat) (L : Lane) : p (L.each ns (Lane.intakeRef r t)) = p L :=
  Lane.each_proj ns _ p (fun n _ M => h n _ M) L

/-- The front of an intake's references, the newest first (R176). -/
def Lane.intakeFront (L : Lane) (n : Engine) (f : Func) : Option (RefRecord × Nat) := (vget (L.de n).intake f.ix).waiting.head?

theorem Lane.intakeFront_intakeRef_same (r : RefRecord) (t : Nat) (n : Engine) (L : Lane) :
    (L.intakeRef r t n).intakeFront n r.func = some (r, t) := by
  unfold Lane.intakeFront Lane.intakeRef Lane.onDe Lane.de
  rw [vget_vupd_same, vget_vupd_same, List.head?_cons]

theorem Lane.intakeFront_intakeRef (r : RefRecord) (t : Nat) (m n : Engine) (L : Lane) (h : L.intakeFront n r.func = some (r, t)) :
    (L.intakeRef r t m).intakeFront n r.func = some (r, t) := by
  by_cases e : m = n
  · rw [e, Lane.intakeFront_intakeRef_same]
  · rw [← h]
    exact congrArg (fun x : EngineSt => (vget x.intake r.func.ix).waiting.head?) (vget_vupd_ne _ _ e)

theorem Lane.intakeFront_each {n : Engine} {ns : List Engine} (hn : n ∈ ns) (r : RefRecord) (t : Nat) (L : Lane) :
    (L.each ns (Lane.intakeRef r t)).intakeFront n r.func = some (r, t) :=
  Lane.each_reaches (fun M => M.intakeFront_intakeRef_same r t n) (fun m M h => M.intakeFront_intakeRef r t m n h) hn L

/-- A reference has been accepted: its number kept, nothing counted, and every intake of its function has it (R102, R176). -/
structure Lane.Accepted (r : RefRecord) (L M : Lane) : Prop where
  seq : M.rd (Reg.ROLE_SEQ r.func.code) = r.seq % 2 ^ 32
  hasSeq : (M.fn r.func).hasSeq = true
  nextSeq : (M.fn r.func).nextSeq = (L.fn r.func).nextSeq
  dropped : M.rd Reg.ROLE_OVL_DROPPED = L.rd Reg.ROLE_OVL_DROPPED
  link : M.link = L.link
  front : ∀ n ∈ L.intakesOf r.func, M.intakeFront n r.func = some (r, L.el)

theorem Lane.acceptRef_accepted (r : RefRecord) (L : Lane) : L.Accepted r (L.acceptRef r) where
  seq := (Lane.each_intakeRef_keeps (fun M => M.rd _) (fun _ _ _ => rfl) _ r _ _).trans (L.rd_wr_same _ _)
  hasSeq := (Lane.each_intakeRef_keeps (fun M => (M.fn r.func).hasSeq) (fun _ _ _ => rfl) _ r _ _).trans
    (Lane.fn_onFn_same RoleFn.hasSeq _ _ _)
  nextSeq := (Lane.each_intakeRef_keeps (fun M => (M.fn r.func).nextSeq) (fun _ _ _ => rfl) _ r _ _).trans
    (Lane.fn_onFn_same RoleFn.nextSeq _ _ _)
  dropped := (Lane.each_intakeRef_keeps (fun M => M.rd _) (fun _ _ _ => rfl) _ r _ _).trans
    (L.rd_wr_ne _ (by cases r.func <;> decide))
  link := Lane.each_intakeRef_keeps Lane.link (fun _ _ _ => rfl) _ r _ _
  front _ hn := Lane.intakeFront_each hn r L.el _

/-- A reference that passes the tests of R103 is accepted. -/
theorem Lane.takeRef_accepted {r : RefRecord} {L : Lane} (hwinter : L.winterTorque r.func = false) (hok : L.refOk r = true) :
    L.Accepted r (L.takeRef r) := by
  have hj := L.noteRef_judgesAs r r.func
  rw [Lane.takeRef_eq, hj.winterTorque, hwinter, hj.refOk, hok, if_neg Bool.false_ne_true, if_pos rfl]
  have ha := (L.noteRef r).acceptRef_accepted r
  exact {
    seq := ha.seq
    hasSeq := ha.hasSeq
    nextSeq := ha.nextSeq.trans (Lane.noteRef_keeps (fun M => (M.fn r.func).nextSeq) (fun _ _ => rfl) (fun _ _ => rfl) r L)
    dropped := ha.dropped.trans hj.dropped
    link := ha.link.trans (Lane.noteRef_keeps Lane.link (fun _ _ => rfl) (fun _ _ => rfl) r L)
    front := fun n hn => hj.el ▸ ha.front n (hj.intakesOf ▸ hn) }

/-- Any other is counted and goes no further (R103). -/
theorem Lane.takeRef_dropped {r : RefRecord} {L : Lane} (hwinter : L.winterTorque r.func = false) (hok : L.refOk r = false) :
    (L.takeRef r).rd Reg.ROLE_OVL_DROPPED = satUp 65535 (L.rd Reg.ROLE_OVL_DROPPED) 1 ∧
      (L.takeRef r).rd (Reg.ROLE_SEQ r.func.code) = L.rd (Reg.ROLE_SEQ r.func.code) ∧ (L.takeRef r).engine = L.engine := by
  have hj := L.noteRef_judgesAs r r.func
  rw [Lane.takeRef_eq, hj.winterTorque, hwinter, hj.refOk, hok, if_neg Bool.false_ne_true, if_neg Bool.false_ne_true]
  unfold Lane.count
  refine ⟨?_, ?_, Lane.noteRef_keeps Lane.engine (fun _ _ => rfl) (fun _ _ => rfl) r L⟩
  · rw [Lane.rd_wr_same, hj.dropped]
    exact Nat.mod_eq_of_lt (Nat.lt_succ_of_le (Nat.min_le_left _ _))
  · rw [Lane.rd_wr_ne _ _ (by cases r.func <;> decide), hj.seq]

/-! ### A lane sends a reference (R102, R104, R175) -/

/-- The reference as the lane sends it: under its own letter and its next number (R102). -/
def Lane.numberedRef (r : RefRecord) (L : Lane) : RefRecord :=
  { r with lane := L.id, seq := (L.fn r.func).nextSeq.getD (L.firstSeq r.func) }

/-- The lane has given a reference its number and put it into the links (R17, R102). -/
def Lane.refSent (r : RefRecord) (L : Lane) : Lane :=
  (L.onFn r.func fun x => { x with nextSeq := some (((L.numberedRef r).seq + 1) % 2 ^ 32) }).send (.reference (L.numberedRef r))

theorem Lane.sendRef_of_maySend {r : RefRecord} {L : Lane} (h : L.maySend r = true) :
    L.sendRef r = (L.refSent r).takeRef (L.numberedRef r) := if_pos h

/-- A lane that neither holds the active role nor has just lost it sends nothing (R88, R104). -/
theorem Lane.sendRef_of_not_active {r : RefRecord} {L : Lane} (hrole : L.role r.func ≠ 1) (hstop : (L.fn r.func).stopSend = none) :
    L.sendRef r = L :=
  if_neg (by rw [Lane.maySend, hstop]; simp [hrole])

theorem length_leBytes (n v : Nat) : (leBytes n v).length = n := by
  induction n generalizing v with
  | zero => rfl
  | succ n ih => exact congrArg (· + 1) (ih _)

theorem length_refBytes (r : RefRecord) : (refBytes r).length = 32 := by
  simp [refBytes, length_leBytes, List.length_flatMap]

/-- A reference goes into the links as a frame of the first class, 36 bytes at 8 ns each (R17). -/
theorem Lane.send_reference (r : RefRecord) (L : Lane) :
    L.send (.reference r) = { L with link := linkAdd ⟨some (.reference r), 0, 288, 288, false⟩ L.link } := by
  rw [Lane.send, linkClass, length_refBytes]

theorem Lane.refSent_judgesAs (r : RefRecord) (L : Lane) : L.JudgesAs r.func (L.refSent r) := by
  rw [Lane.refSent, Lane.send_reference]
  exact ⟨rfl, rfl, fun _ _ => rfl, Lane.fn_onFn_same RoleFn.hasSeq _ _ _, Lane.fn_onFn_same RoleFn.former _ _ _⟩

/-- The active lane accepts its own reference where its number is newer than the last accepted one and its release not too old (R103, R175). -/
theorem Lane.refOk_numberedRef {r : RefRecord} {L : Lane} (hactive : L.rd (Reg.ROLE_FUNC_ACT r.func.code) = L.id.code)
    (hnewer : (L.fn r.func).hasSeq = false ∨ newer32 (L.numberedRef r).seq (L.rd (Reg.ROLE_SEQ r.func.code)) = true)
    (hage : L.now ≤ L.fixStamp r.trel + 2 * L.periodNs r.func) : L.refOk (L.numberedRef r) = true := by
  have hsender : L.senderOk r.func L.id = true := by rw [Lane.senderOk, hactive]; simp
  have hnumber : (!(L.fn r.func).hasSeq || newer32 (L.numberedRef r).seq (L.rd (Reg.ROLE_SEQ r.func.code))) = true := by
    rcases hnewer with h | h <;> simp [h]
  show (L.senderOk r.func L.id && (!(L.fn r.func).hasSeq || newer32 (L.numberedRef r).seq (L.rd (Reg.ROLE_SEQ r.func.code))) &&
    decide (L.now ≤ L.fixStamp r.trel + 2 * L.periodNs r.func)) = true
  rw [hsender, hnumber, decide_eq_true hage]
  rfl

/-- The active lane numbers a reference, puts it into the links and accepts it itself (R102, R175). -/
theorem Lane.sendRef_active {r : RefRecord} {L : Lane} (hrole : L.role r.func = 1)
    (hactive : L.rd (Reg.ROLE_FUNC_ACT r.func.code) = L.id.code)
    (hnewer : (L.fn r.func).hasSeq = false ∨ newer32 (L.numberedRef r).seq (L.rd (Reg.ROLE_SEQ r.func.code)) = true)
    (hwinter : L.winterTorque r.func = false) (hage : L.now ≤ L.fixStamp r.trel + 2 * L.periodNs r.func) :
    (L.refSent r).Accepted (L.numberedRef r) (L.sendRef r) := by
  have hj : L.JudgesAs (L.numberedRef r).func (L.refSent r) := L.refSent_judgesAs r
  rw [Lane.sendRef_of_maySend (by rw [Lane.maySend, hrole]; rfl)]
  exact Lane.takeRef_accepted (hj.winterTorque.trans hwinter) (hj.refOk.trans (Lane.refOk_numberedRef hactive hnewer hage))

/-! ### A core writes a reference (R128, R131, R132) -/

theorem Lane.p0Only_of_firmware {L : Lane} (h : L.firmware = true) (p : Pair) (f : Lane → Lane) :
    L.p0Only p f = if p = 0 then f L else L.fire 20 := by
  rw [Lane.p0Only, h]
  rfl

/-- A core of a pair that is neither paired nor split by a debugger issues a reference at once, which only P_0 may (R128, R144). -/
theorem Lane.outWrite_ref_alone {L : Lane} {c : Core} (r : RefRecord) (hfirm : L.firmware = true) (hpair : L.paired (pairOf c) = false)
    (hdebug : L.debugged (pairOf c) = false) : L.outWrite c (.ref r) = if pairOf c = 0 then L.sendRef r else L.fire 20 := by
  rw [Lane.outWrite, hpair, hdebug]
  exact Lane.p0Only_of_firmware hfirm _ _

/-- A core that goes on has its buffers and counts as before. -/
theorem Lane.core_coreRuns (c : Core) (L : Lane) : vget (L.coreRuns c).core c =
    { vget L.core c with run := if (vget L.core c).run = .rom then .rom else .running, accessFault := false } :=
  vget_vupd_same _ _ _

/-- A core that executes lane firmware does so also when it has gone on. -/
theorem Lane.coreLive_coreRuns {L : Lane} {c : Core} (hlive : L.coreLive c = true) (hrom : (vget L.core c).run ≠ .rom) :
    (L.coreRuns c).coreLive c = true := by
  simp only [Lane.coreLive, decide_eq_false hrom, Bool.false_or, Bool.and_eq_true] at hlive
  obtain ⟨⟨hfirm, -⟩, hdomain⟩ := hlive
  have hfirm' : (L.coreRuns c).firmware = true := hfirm
  have hdomain' : (decide (pairOf c = 0) || decide ((L.coreRuns c).rd (Lane.pdFld 1) = 0)) = true := hdomain
  rw [Lane.coreLive, Lane.core_coreRuns, if_neg hrom, hfirm', hdomain']
  rfl

/-- A write that a buffer has room for waits in it: it counts in the interval and in the signature, and nothing has gone out (R132, R136). -/
theorem Lane.buffer_of_room {L : Lane} {c : Core} (w : OutWrite) (hpair : L.paired (pairOf c) = true) (hlive : L.coreLive c = true)
    (hroom : (vget L.core c).obuf.length < 128) (hocc : L.occupancy c < 128) :
    (vget (L.buffer c w).core c).obuf = (vget L.core c).obuf ++ [w] ∧
      (vget (L.buffer c w).core c).count = ((vget L.core c).count + 1) % 65536 ∧
      (L.buffer c w).link = L.link ∧ (L.buffer c w).engine = L.engine ∧ (L.buffer c w).roles = L.roles := by
  unfold Lane.buffer
  simp only [if_neg hroom.ne, hpair, hlive, decide_eq_false hocc.not_ge, Bool.not_true, Bool.or_self, Bool.false_eq_true, if_false,
    Lane.sigTake, Lane.onCore_fields, Lane.wr_fields, vget_vupd_same, and_self]

/-- A core that executes writes a reference as an output write of its own, once it has gone on (R131). -/
theorem llReferenceWrite_does {l : LaneId} {core : Core} {r : RefRecord} {pre : Lane → Prop} {post : Lane → Lane → Prop}
    (hlive : ∀ L, pre L → L.coreLive core = true) (hpost : ∀ L, pre L → post L ((L.coreRuns core).outWrite core (.ref r))) :
    Does (.llReferenceWrite l core r) pre post :=
  does_of (fun L => L.when (L.coreLive core) fun M => (M.coreRuns core).outWrite core (.ref r)) (fun _ => rfl) fun L h => by
    rw [Lane.when_of_true _ _ (hlive L h)]
    exact hpost L h

/-! ### The guard forces solenoid drivers (R94, R325) -/

/-- A driver is forced to SAFE, and its register says so. -/
def Lane.SvForced (n : Fin 4) (L : Lane) : Prop := L.is (Reg.GD_SV_FORCED n.val) = true ∧ (vget L.solenoid n).forced = true

/-- The PARK timer's watch leaves what neither a stop of a timer nor LG_PARK.RUN reaches (R331). -/
theorem Lane.parkWatch_keeps {β : Type} (p : Lane → β) (hstop : ∀ (t : Timer) (M : Lane), p (M.stop t) = p M)
    (hclr : ∀ M : Lane, p (M.clr Reg.LG_PARK_RUN) = p M) (L : Lane) : p L.parkWatch = p L := by
  unfold Lane.parkWatch
  exact (Lane.when_proj _ _ p (fun M => (hstop _ _).trans (hclr M)) _).trans (Lane.when_proj _ _ p (hstop _) L)

theorem Lane.svForce_rd_forced (m n : Fin 4) (L : Lane) :
    (L.svForce m).rd (Reg.GD_SV_FORCED n.val) = if m = n then 1 else L.rd (Reg.GD_SV_FORCED n.val) := by
  have hpark : Reg.LG_PARK_RUN.key ≠ (Reg.GD_SV_FORCED n.val).key := by fin_cases n <;> decide
  have hkey : (Reg.GD_SV_FORCED m.val).key = (Reg.GD_SV_FORCED n.val).key ↔ m = n := by
    simp only [Fld.key, Reg.GD_SV_FORCED, Fin.ext_iff]
    omega
  refine (Lane.parkWatch_keeps (fun M => M.rd _) (fun _ _ => rfl) (fun M => M.rd_wr_ne 0 hpark) _).trans ?_
  refine ((L.onSv m _).rd_wr (Reg.GD_SV_FORCED m.val) _ 1).trans ?_
  simp only [hkey]
  rfl

/-- A driver's setpoint says nothing of whether it is forced. -/
theorem Lane.svApply_solenoid_forced (m n : Fin 4) (L : Lane) : (vget (L.svApply m).solenoid n).forced = (vget L.solenoid n).forced :=
  (congrArg SolenoidSt.forced (vget_vupd L.solenoid m n _)).trans (by split <;> rfl)

theorem Lane.svForce_solenoid_forced (m n : Fin 4) (L : Lane) :
    (vget (L.svForce m).solenoid n).forced = if m = n then true else (vget L.solenoid n).forced := by
  refine (Lane.parkWatch_keeps (fun M => (vget M.solenoid n).forced) (fun _ _ => rfl) (fun _ => rfl) _).trans ?_
  rw [Lane.svApply_solenoid_forced]
  exact (congrArg SolenoidSt.forced (vget_vupd L.solenoid m n _)).trans (by split <;> rfl)

theorem Lane.svForce_forced_same (n : Fin 4) (L : Lane) : (L.svForce n).SvForced n :=
  ⟨by rw [Lane.is, Lane.svForce_rd_forced, if_pos rfl]; rfl, by rw [Lane.svForce_solenoid_forced, if_pos rfl]⟩

/-- No force of a driver releases another. -/
theorem Lane.svForce_forced (m n : Fin 4) (L : Lane) (h : L.SvForced n) : (L.svForce m).SvForced n := by
  by_cases e : m = n
  · exact e ▸ L.svForce_forced_same m
  · rw [Lane.SvForced, Lane.is, Lane.svForce_rd_forced, Lane.svForce_solenoid_forced, if_neg e, if_neg e]
    exact h

/-! ### What each reference command does -/

/-- A reference write of a lone core of P_0 in the active lane (R102, R175). -/
theorem llReferenceWrite_active (l : LaneId) (core : Core) (r : RefRecord) : Does (.llReferenceWrite l core r)
    (fun L => L.firmware = true ∧ L.coreLive core = true ∧ L.paired (pairOf core) = false ∧ L.debugged (pairOf core) = false ∧
      pairOf core = 0 ∧ L.role r.func = 1 ∧ L.rd (Reg.ROLE_FUNC_ACT r.func.code) = L.id.code ∧
      ((L.fn r.func).hasSeq = false ∨ newer32 (L.numberedRef r).seq (L.rd (Reg.ROLE_SEQ r.func.code)) = true) ∧
      L.winterTorque r.func = false ∧ L.now ≤ L.fixStamp r.trel + 2 * L.periodNs r.func)
    (fun L M => M.link = linkAdd ⟨some (.reference (L.numberedRef r)), 0, 288, 288, false⟩ L.link ∧
      M.rd (Reg.ROLE_SEQ r.func.code) = (L.numberedRef r).seq % 2 ^ 32 ∧
      (M.fn r.func).nextSeq = some (((L.numberedRef r).seq + 1) % 2 ^ 32) ∧
      ∀ n ∈ L.intakesOf r.func, M.intakeFront n r.func = some (L.numberedRef r, L.el)) := by
  refine llReferenceWrite_does (fun L h => h.2.1) fun L h => ?_
  obtain ⟨hfirm, -, hpair, hdebug, hp0, hrole, hactive, hnewer, hwinter, hage⟩ := h
  rw [Lane.outWrite_ref_alone (L := L.coreRuns core) r hfirm hpair hdebug, if_pos hp0]
  have ha := Lane.sendRef_active (L := L.coreRuns core) hrole hactive hnewer hwinter hage
  refine ⟨ha.link.trans ?_, ha.seq, ha.nextSeq.trans ?_, ?_⟩
  · rw [Lane.refSent, Lane.send_reference]
    rfl
  · rw [Lane.refSent, Lane.send_reference]
    exact Lane.fn_onFn_same RoleFn.nextSeq _ _ _
  · have hj := (L.coreRuns core).refSent_judgesAs r
    intro n hn
    exact hj.el ▸ ha.front n (hj.intakesOf ▸ hn)

/-- A reference write of a core of a pair that runs paired (R131, R132). -/
theorem llReferenceWrite_paired (l : LaneId) (core : Core) (r : RefRecord) : Does (.llReferenceWrite l core r)
    (fun L => L.coreLive core = true ∧ L.paired (pairOf core) = true ∧ (vget L.core core).obuf.length < 128 ∧ L.occupancy core < 128 ∧
      (vget L.core core).run ≠ .rom)
    (fun L M => (vget M.core core).obuf = (vget L.core core).obuf ++ [.ref r] ∧
      (vget M.core core).count = ((vget L.core core).count + 1) % 65536 ∧ M.link = L.link ∧ M.engine = L.engine ∧ M.roles = L.roles) := by
  refine llReferenceWrite_does (fun L h => h.1) fun L h => ?_
  obtain ⟨hlive, hpair, hroom, hocc, hrom⟩ := h
  have hcore := L.core_coreRuns core
  have hocc' : (L.coreRuns core).occupancy core < 128 := by rwa [Lane.occupancy, hcore]
  rw [Lane.outWrite, if_pos (show (L.coreRuns core).paired (pairOf core) = true from hpair)]
  have hb := Lane.buffer_of_room (L := L.coreRuns core) (.ref r) hpair (Lane.coreLive_coreRuns hlive hrom) (by rwa [hcore]) hocc'
  rwa [hcore] at hb

/-- A reference write of a lone core of P_1 (R128). -/
theorem llReferenceWrite_p1 (l : LaneId) (core : Core) (r : RefRecord) : Does (.llReferenceWrite l core r)
    (fun L => L.firmware = true ∧ L.coreLive core = true ∧ L.paired (pairOf core) = false ∧ L.debugged (pairOf core) = false ∧
      pairOf core = 1)
    (fun L M => M.sticky 20 = true ∧ M.roles = L.roles ∧ (L.coreRuns core).Reacts M) := by
  refine llReferenceWrite_does (fun L h => h.2.1) fun L h => ?_
  obtain ⟨hfirm, -, hpair, hdebug, hp1⟩ := h
  rw [Lane.outWrite_ref_alone (L := L.coreRuns core) r hfirm hpair hdebug, hp1, if_neg (by decide)]
  have hr := Lane.fire_reacts 20 (Lane.Reacts.refl (L.coreRuns core))
  exact ⟨Lane.fire_sticky _ 20 (by decide), hr.roles, hr⟩

/-- A reference write in a lane that neither holds the active role nor has just lost it (R88, R104). -/
theorem llReferenceWrite_not_active (l : LaneId) (core : Core) (r : RefRecord) : Does (.llReferenceWrite l core r)
    (fun L => L.firmware = true ∧ L.coreLive core = true ∧ L.paired (pairOf core) = false ∧ L.debugged (pairOf core) = false ∧
      pairOf core = 0 ∧ L.role r.func ≠ 1 ∧ (L.fn r.func).stopSend = none)
    (fun L M => M.link = L.link ∧ M.regs = L.regs ∧ M.engine = L.engine ∧ M.roles = L.roles) := by
  refine llReferenceWrite_does (fun L h => h.2.1) fun L h => ?_
  obtain ⟨hfirm, -, hpair, hdebug, hp0, hrole, hstop⟩ := h
  rw [Lane.outWrite_ref_alone (L := L.coreRuns core) r hfirm hpair hdebug, if_pos hp0,
    Lane.sendRef_of_not_active (L := L.coreRuns core) hrole hstop]
  exact ⟨rfl, rfl, rfl, rfl⟩

/-- A frame from a neighbour leaves what the tests of references read. -/
theorem Lane.linkHeard_judgesAs (sd : Side) (f : Func) (L : Lane) : L.JudgesAs f (L.linkHeard sd) :=
  ⟨rfl, rfl, fun _ _ => rfl, rfl, rfl⟩

/-- A reference frame is taken in a lane that runs, from the neighbour that it names (R103). -/
theorem referenceRx_does {l : LaneId} {sd : Side} {r : RefRecord} {pre : Lane → Prop} {post : Lane → Lane → Prop}
    (hfrom : ∀ L, pre L → L.firmware = true ∧ r.lane = L.id.nb sd) (hpost : ∀ L, pre L → post L ((L.linkHeard sd).takeRef r)) :
    Does (.referenceRx l sd r) pre post :=
  does_of (fun L => L.when (L.firmware && decide (r.lane = L.id.nb sd)) fun M => (M.linkHeard sd).takeRef r) (fun _ => rfl) fun L h => by
    obtain ⟨hfirm, hlane⟩ := hfrom L h
    rw [Lane.when_of_true _ _ (by rw [hfirm, decide_eq_true hlane]; rfl)]
    exact hpost L h

/-- A neighbour's reference that passes the tests (R103, R176). -/
theorem referenceRx_accepted (l : LaneId) (sd : Side) (r : RefRecord) : Does (.referenceRx l sd r)
    (fun L => L.firmware = true ∧ r.lane = L.id.nb sd ∧ L.winterTorque r.func = false ∧ L.refOk r = true)
    (fun L M => M.rd (Reg.ROLE_SEQ r.func.code) = r.seq % 2 ^ 32 ∧ (M.fn r.func).hasSeq = true ∧
      M.rd Reg.ROLE_OVL_DROPPED = L.rd Reg.ROLE_OVL_DROPPED ∧
      ∀ n ∈ L.intakesOf r.func, M.intakeFront n r.func = some (r, L.el)) := by
  refine referenceRx_does (fun L h => ⟨h.1, h.2.1⟩) fun L h => ?_
  obtain ⟨-, -, hwinter, hok⟩ := h
  have ha := Lane.takeRef_accepted (L := L.linkHeard sd) hwinter hok
  exact ⟨ha.seq, ha.hasSeq, ha.dropped, ha.front⟩

/-- A neighbour's reference that fails a test (R103). -/
theorem referenceRx_dropped (l : LaneId) (sd : Side) (r : RefRecord) : Does (.referenceRx l sd r)
    (fun L => L.firmware = true ∧ r.lane = L.id.nb sd ∧ L.winterTorque r.func = false ∧ L.refOk r = false)
    (fun L M => M.rd Reg.ROLE_OVL_DROPPED = satUp 65535 (L.rd Reg.ROLE_OVL_DROPPED) 1 ∧
      M.rd (Reg.ROLE_SEQ r.func.code) = L.rd (Reg.ROLE_SEQ r.func.code) ∧ M.engine = L.engine) := by
  refine referenceRx_does (fun L h => ⟨h.1, h.2.1⟩) fun L h => ?_
  obtain ⟨-, -, hwinter, hok⟩ := h
  exact Lane.takeRef_dropped (L := L.linkHeard sd) hwinter hok

/-! ### The watchdog and the hold limit (R98, R101) -/

/-- A hardware accusation stands among those of its function (R92). -/
theorem Lane.accuse_hardware (f : Func) (sd : Side) (L : Lane) :
    (vget (L.accuse f sd).vote.hardware f.ix).any (fun e => decide (e.1 = sd)) = true := by
  refine (congrArg (fun h : List (Side × Nat) => h.any fun e => decide (e.1 = sd)) (vget_vupd_same L.vote.hardware f.ix _)).trans ?_
  split
  · assumption
  · simp

/-- The watchdog's accusation stands, FIRED and the source's bit are set, and the rest is the source's reaction (R98, R359). -/
theorem Lane.watchdogAccuse_spec (f : Func) (sd : Side) (L : Lane) :
    (L.watchdogAccuse f sd).is (Reg.ROLE_REFWD_FIRED f.code) = true ∧ (L.watchdogAccuse f sd).sticky (325 + f.code) = true ∧
      (vget (L.watchdogAccuse f sd).vote.hardware f.ix).any (fun e => decide (e.1 = sd)) = true ∧
      ((L.accuse f sd).set1 (Reg.ROLE_REFWD_FIRED f.code)).Reacts (L.watchdogAccuse f sd) := by
  have hr : ((L.accuse f sd).set1 (Reg.ROLE_REFWD_FIRED f.code)).Reacts (L.watchdogAccuse f sd) :=
    Lane.fire_reacts _ (Lane.Reacts.refl _)
  have hfired : (L.watchdogAccuse f sd).rd (Reg.ROLE_REFWD_FIRED f.code) = 1 :=
    (hr.regs _ (by cases f <;> unfold ReactKey <;> decide) (by cases f <;> unfold ModeKey <;> decide)).trans
      ((L.accuse f sd).rd_wr_same _ 1)
  exact ⟨by rw [Lane.is, hfired]; rfl, Lane.fire_sticky _ _ (by cases f <;> decide), hr.hardware ▸ L.accuse_hardware f sd, hr⟩

/-- A watchdog that expires accuses the active lane, which is one of the neighbours (R98). -/
theorem referenceWatchdogExpiry_accuses (l : LaneId) (dt : Nat) (f : Func) (sd : Side) : Does (.referenceWatchdogExpiry l dt f)
    (fun L => L.serves f = true ∧ L.role f ≠ 1 ∧ (L.pass dt).due (.watchdog f) (L.watchdogNs f + 1) = true ∧
      L.sideOf (L.rd (Reg.ROLE_FUNC_ACT f.code)) = some sd)
    (fun L M => M.is (Reg.ROLE_REFWD_FIRED f.code) = true ∧ M.sticky (325 + f.code) = true ∧
      (vget M.vote.hardware f.ix).any (fun e => decide (e.1 = sd)) = true ∧
      ((((L.pass dt).accuse f sd).set1 (Reg.ROLE_REFWD_FIRED f.code))).Reacts M) := by
  refine does_of (fun L => (L.pass dt).when ((L.pass dt).serves f && decide ((L.pass dt).role f ≠ 1) &&
      (L.pass dt).due (.watchdog f) ((L.pass dt).watchdogNs f + 1))
    fun M => M.each (M.sideOf (M.rd (Reg.ROLE_FUNC_ACT f.code))).toList (Lane.watchdogAccuse f)) (fun _ => rfl) fun L h => ?_
  obtain ⟨hserves, hrole, hdue, hside⟩ := h
  rw [Lane.when_of_true _ _ (by
    rw [show (L.pass dt).serves f = true from hserves, show decide ((L.pass dt).role f ≠ 1) = true from decide_eq_true hrole]
    exact hdue)]
  rw [show (L.pass dt).sideOf ((L.pass dt).rd (Reg.ROLE_FUNC_ACT f.code)) = some sd from hside]
  exact (L.pass dt).watchdogAccuse_spec f sd

/-- Forcing drivers is among what a reaction may do (R325). -/
theorem Lane.each_svForce_reacts (ns : List (Fin 4)) (L : Lane) : L.Reacts (L.each ns Lane.svForce) :=
  Lane.each_reacts (fun n _ _ => Lane.svForce_reacts n) (Lane.Reacts.refl L)

/-- At the hold limit the lane withdraws, and the drivers of the function take their SAFE value (R101, R94). -/
theorem holdLimitExpiry_withdraws (l : LaneId) (dt : Nat) (f : Func) : Does (.holdLimitExpiry l dt f)
    (fun L => L.serves f = true ∧ ∃ n ∈ L.intakesOf f, (L.pass dt).due (.hold n f) (L.holdLimit f) = true)
    (fun L M => vget M.vote.withdraw f.ix = true ∧
      (∀ n ∈ L.svsOf f, M.is (Reg.GD_SV_FORCED n.val) = true ∧ (vget M.solenoid n).forced = true) ∧ M.roles = L.roles) := by
  refine does_of (fun L => (L.pass dt).when ((L.pass dt).serves f &&
      ((L.pass dt).intakesOf f).any fun n => (L.pass dt).due (.hold n f) ((L.pass dt).holdLimit f))
    fun M => (M.withdraw f).each (M.svsOf f) Lane.svForce) (fun _ => rfl) fun L h => ?_
  obtain ⟨hserves, n, hn, hdue⟩ := h
  have hany : (((L.pass dt).intakesOf f).any fun n => (L.pass dt).due (.hold n f) ((L.pass dt).holdLimit f)) = true :=
    List.any_eq_true.mpr ⟨n, hn, hdue⟩
  rw [Lane.when_of_true _ _ (by rw [show (L.pass dt).serves f = true from hserves, hany]; rfl)]
  have hr := ((L.pass dt).withdraw f).each_svForce_reacts ((L.pass dt).svsOf f)
  refine ⟨hr.withdraw _ (vget_vupd_same _ _ _), fun n hn => ?_, hr.roles⟩
  exact Lane.each_reaches (P := Lane.SvForced n) (Lane.svForce_forced_same n) (fun m M => M.svForce_forced m n) hn _

/-- Settles O11: a write is sent, held, refused or dropped by where it comes from, a reference that has come is accepted or counted,
and the two timers accuse and withdraw. -/
theorem references : Obligations.references :=
  ⟨llReferenceWrite_active, llReferenceWrite_paired, llReferenceWrite_p1, llReferenceWrite_not_active, referenceRx_accepted,
    referenceRx_dropped, referenceWatchdogExpiry_accuses, holdLimitExpiry_withdraws⟩

end Sys2Proof.Machine

namespace Sys2Proof

/-! ### Functions and lanes by their codes (R15, R117) -/

/-- Every function is listed. -/
theorem Func.mem_all (f : Func) : f ∈ Func.all := by cases f <;> decide

/-- The code of a function is below 5. -/
theorem Func.code_lt (f : Func) : f.code < 5 := f.ix.isLt

/-- The code of a lane fits two bits. -/
theorem LaneId.code_lt (l : LaneId) : l.code < 4 := by cases l <;> decide

end Sys2Proof

namespace Sys2Proof.Machine

/-! ### Timers and clocks after the operations that set them (R399) -/

theorem Lane.timerAt_stop (t u : Timer) (L : Lane) : (L.stop t).timerAt u = if t = u then none else L.timerAt u := by
  simp only [Lane.timerAt, Lane.stop, List.find?_filter]
  by_cases h : t = u
  · subst h
    have hno : L.timers.find? (fun a => decide (decide (a.1 ≠ t) = true ∧ decide (a.1 = t) = true)) = none := by
      simp [List.find?_eq_none]
    rw [if_pos rfl, hno]; rfl
  · rw [if_neg h]
    congr 2
    funext e
    by_cases he : e.1 = u
    · have : e.1 ≠ t := fun h' => h (h'.symm.trans he)
      simp [he, Ne.symm h]
    · simp [he]

theorem Lane.timerAt_restart (t u : Timer) (L : Lane) : (L.restart t).timerAt u = if t = u then some L.el else L.timerAt u := by
  by_cases h : t = u
  · subst h
    simp [Lane.timerAt, Lane.restart]
  · have hcons : (L.restart t).timerAt u = (L.stop t).timerAt u := by
      simp [Lane.timerAt, Lane.restart, h]
    rw [hcons, Lane.timerAt_stop]
    simp [h]

@[simp] theorem Lane.timerAt_wr (f : Fld) (v : Nat) (t : Timer) (L : Lane) : (L.wr f v).timerAt t = L.timerAt t := rfl

@[simp] theorem Lane.el_wr (f : Fld) (v : Nat) (L : Lane) : (L.wr f v).el = L.el := rfl
@[simp] theorem Lane.el_stop (t : Timer) (L : Lane) : (L.stop t).el = L.el := rfl
@[simp] theorem Lane.el_restart (t : Timer) (L : Lane) : (L.restart t).el = L.el := rfl

theorem Lane.rd_stop (t : Timer) (L : Lane) (g : Fld) : (L.stop t).rd g = L.rd g := rfl
theorem Lane.is_stop (t : Timer) (L : Lane) (g : Fld) : (L.stop t).is g = L.is g := rfl
theorem Lane.rd_restart (t : Timer) (L : Lane) (g : Fld) : (L.restart t).rd g = L.rd g := rfl

/-- A timer that has been stopped does not run. -/
theorem Lane.running_stop_same (t : Timer) (L : Lane) : (L.stop t).running t = false := by
  simp [Lane.running, Lane.timerAt_stop]

/-- A condition that fails leaves the lane as it was. -/
theorem Lane.when_of_false {b : Bool} (f : Lane → Lane) (L : Lane) (h : b = false) : L.when b f = L := by
  simp [Lane.when, h]

/-- A field of one bit that has been set. -/
theorem Lane.is_set1_same (L : Lane) (f : Fld) (hw : 0 < f.w) : (L.set1 f).is f = true := by
  have h2 : 1 % 2 ^ f.w = 1 := Nat.mod_eq_of_lt (Nat.one_lt_two_pow (by omega))
  rw [Lane.is, Lane.set1, Lane.rd_wr_same, h2]
  rfl

/-- A field that has been cleared reads 0. -/
theorem Lane.rd_clr_same (L : Lane) (f : Fld) : (L.clr f).rd f = 0 := by
  rw [Lane.clr, Lane.rd_wr_same, Nat.zero_mod]

/-! ### Operations that write registers only -/

/-- Between two states of a lane only the register file differs. -/
def Lane.RegsOnly (L M : Lane) : Prop := M = { L with regs := M.regs }

theorem Lane.RegsOnly.refl (L : Lane) : L.RegsOnly L := rfl

theorem Lane.RegsOnly.wr {L M : Lane} (h : L.RegsOnly M) (f : Fld) (v : Nat) : L.RegsOnly (M.wr f v) := by
  unfold Lane.RegsOnly at h ⊢
  conv => lhs; rw [h]
  rfl

theorem Lane.RegsOnly.when {L M : Lane} (h : L.RegsOnly M) (b : Bool) {g : Lane → Lane} (hg : L.RegsOnly (g M)) :
    L.RegsOnly (M.when b g) := by
  cases b
  · exact h
  · exact hg

end Sys2Proof.Machine

namespace Sys2Proof.Machine

/-! ### The state before any supply comes (R30, R12) -/

/-- Each lane of the reset state is without supply. -/
theorem State.reset_lane (l : LaneId) : State.reset.lane l = Lane.unpowered l := by
  cases l <;> rfl

/-- Three lanes without supply have the invariant of the device. -/
theorem State.reset_inv : State.reset.Inv :=
  ⟨Lane.unpowered_inv .a, Lane.unpowered_inv .b, Lane.unpowered_inv .c⟩

/-- A lane without supply runs no firmware, its guard and its mode are those of no supply, and its drivers are off (R30). -/
theorem Lane.unpowered_idle (l : LaneId) : (Lane.unpowered l).powered = false ∧ (Lane.unpowered l).firmware = false ∧
    (Lane.unpowered l).gstate = 0 ∧ (Lane.unpowered l).svc = 0 ∧ (Lane.unpowered l).parkOff = true := by
  cases l <;> decide +kernel

/-- A lane without supply serves no function and has no role (R12). -/
theorem Lane.unpowered_serves (l : LaneId) (f : Func) : (Lane.unpowered l).serves f = false ∧ (Lane.unpowered l).role f = 0 := by
  cases l <;> cases f <;> decide +kernel

/-- Settles O53: what holds of a lane without supply holds of each lane of the reset state. -/
theorem resetState : Obligations.reset_state := by
  refine ⟨State.reset_inv, rfl, fun l => ?_⟩
  rw [State.reset_lane]
  obtain ⟨hpowered, hfirmware, hguard, hsvc, hpark⟩ := Lane.unpowered_idle l
  exact ⟨rfl, hpowered, hfirmware, hguard, hsvc, Lane.unpowered_serves l, hpark⟩

end Sys2Proof.Machine

namespace Sys2Proof.Machine

/-! ### Refuting a statement about a command -/

/-- A command that leads lane a to a state that the statement does not allow refutes the statement. -/
theorem not_does_of {c : Instr} {pre : Lane → Prop} {post : Lane → Lane → Prop} (f : Lane → Lane) (L : Lane)
    (hc : laneOf c = .a) (he : ∀ s, exec c s = .next (s.onLane .a f)) (hpre : pre L) (hpost : ¬ post L (f L)) : ¬ Does c pre post := by
  intro hdoes
  rw [Does, hc] at hdoes
  obtain ⟨t, ht, -, -, hp⟩ := hdoes { State.reset with a := L } hpre
  cases (he _).symm.trans ht
  exact hpost hp

/-! ### A locked feature set moves the reply (R45, R433) -/

/-- An image with host port 0 and its reply queue 0 of depth 128, deeper than 64. -/
def deepQueueImage : Image :=
  { Init.image with sec := { Init.image.sec with
      hostPort := vupd Init.image.sec.hostPort 0 (fun p => { p with present := 1 }),
      queue := vupd Init.image.sec.queue 0 (fun _ => ⟨0, 1, 128⟩) } }

/-- A lane whose own set is locked and whose host port 0 has a session and no set of its own; the reply queue has reached index 64. -/
def deepQueueLane : Lane :=
  { (((Lane.unpowered .a).set1 Reg.SYS_FEAT_CTRL_LOCK).wr (Reg.HQ_PORT_SESSION 0) 2) with
      start := { (Lane.unpowered .a).start with phase := .running, image := deepQueueImage },
      queue := vupd (Lane.unpowered .a).queue 0 (fun x => { x with next := 64 }) }

/-- FEAT_ACCEPT of BASE and of the feature for queues deeper than 64 on host port 0. -/
def deepQueueAccept : HostCmd := ⟨0, 1⟩

/-- What FEAT_ACCEPT with a set does to its lane (R45). -/
def Lane.hostAccept (k : HostCmd) (set : Nat) (L : Lane) : Lane :=
  L.credential k (fun L => L.when (L.sessionOpen k.port) (Lane.featAccept k set))

/-- The lane of the counterexample offers what it is asked for. -/
theorem deepQueueLane_accepts : deepQueueLane.portLive 0 = true ∧ deepQueueLane.sessionOpen 0 = true ∧
    deepQueueLane.is Reg.SYS_FEAT_CTRL_LOCK = true ∧ deepQueueLane.hostLocked 0 = false ∧
    (0x81#128).getLsbD 0 = true ∧ Nat.land (0x81#128).toNat (deepQueueLane.offerTo 0) = (0x81#128).toNat := by
  decide +kernel

/-- Before the command the effective depth is 64 and index 64 lies in the first slot; the reply leaves that slot empty, since with
the set locked the effective depth is 128 and the reply lies in slot 64. -/
theorem deepQueueLane_reply_moves : deepQueueLane.replyQueue 0 = some 0 ∧ deepQueueLane.queueFree 0 = true ∧
    (deepQueueLane.hostAccept deepQueueAccept (0x81#128).toNat).sramBytes (deepQueueLane.slotAddr 0 (vget deepQueueLane.queue 0).next) 64 ≠
      descrBytes ⟨2, 1, 1, 64, 0, List.replicate 48 0⟩ := by
  decide +kernel

/-- The eighth part of O42 fails: the command that locks the set answers by the effective depth that the new set gives. -/
theorem not_hostFeatAccept_slot : ¬ Does (.hostFeatAccept .a deepQueueAccept 0x81#128)
    (fun L => L.portLive 0 = true ∧ L.sessionOpen 0 = true ∧ L.is Reg.SYS_FEAT_CTRL_LOCK = true ∧ L.hostLocked 0 = false ∧
      (0x81#128).getLsbD 0 = true ∧ Nat.land (0x81#128).toNat (L.offerTo 0) = (0x81#128).toNat)
    (fun L M => ∀ q : Fin 16, L.replyQueue 0 = some q → L.queueFree q = true →
      M.sramBytes (L.slotAddr q (vget L.queue q).next) 64 = descrBytes ⟨2, 1, 1, (vget L.queue q).next, 0, List.replicate 48 0⟩) := by
  refine not_does_of (Lane.hostAccept deepQueueAccept (0x81#128).toNat) deepQueueLane rfl (fun _ => rfl) deepQueueLane_accepts ?_
  intro hpost
  obtain ⟨hqueue, hfree, hmoves⟩ := deepQueueLane_reply_moves
  exact hmoves (hpost 0 hqueue hfree)

/-- Refutes O42: a FEAT_ACCEPT that locks a set with the feature for deeper queues answers in the slot of the new effective depth
(R433), not in that of the old one as the statement says. -/
theorem not_hostPortsAndQueues : ¬ Obligations.host_ports_and_queues := by
  intro h
  obtain ⟨-, -, -, -, -, -, -, haccept, -⟩ := h
  exact not_hostFeatAccept_slot ((haccept .a deepQueueAccept 0x81#128).mono (fun _ hL => hL) fun _ _ _ ⟨_, _, _, hreply⟩ => hreply)

end Sys2Proof.Machine

namespace Sys2Proof.Machine

/-! ### A failed commit whose fault starts the next one (R39, R40) -/

/-- A lane in READY whose reaction to severity 0, that of source 450, is Winter (R352), with a commit in flight. -/
def winterOnFailLane : Lane :=
  { (((((Lane.unpowered .a).wr Reg.SYS_STATE_STATE 2).set1 Reg.SYS_FEAT_CTRL_LOCK).wr (Reg.SYS_FEAT_ACCEPT 0) 0x20).set1
        Reg.FC_STATUS_MODE).wr (Reg.FC_REACT 0) 0x200 with
      start := { (Lane.unpowered .a).start with phase := .running },
      ret := { (Lane.unpowered .a).ret with inFlight := some (0, 1, Init.payload) } }

/-- Its failed commit ends with the automatic commit of the Winter mode busy. -/
theorem winterOnFailLane_commits : ((winterOnFailLane.pass 0).commitEnd false).is Reg.SYS_RET_STATUS_BUSY = true := by
  decide +kernel

/-- Refutes O4: where the reaction to source 450 is Winter, the failed commit leads to the mode whose automatic commit starts in the
same cycle (R40), so that the commit is busy again at its end. -/
theorem not_retainedCommits : ¬ Obligations.retained_commits := by
  intro h
  obtain ⟨-, -, -, hfail, -⟩ := h
  refine not_does_of (fun L => (L.pass 0).commitEnd false) winterOnFailLane rfl (fun _ => rfl)
    (by decide +kernel) ?_ (hfail .a 0 0 1 Init.payload)
  rintro ⟨hidle, -⟩
  exact absurd (hidle.symm.trans winterOnFailLane_commits) (by decide)

end Sys2Proof.Machine

namespace Sys2Proof.Machine

/-! ### RECOVERY entered while a slice runs (R30, R544) -/

/-- A lane in the boot ROM self-check with the RECOVERY ball held whose BT_SLICE_STAT shows a running slice of target 2, pair P_1. -/
def sliceInBootLane : Lane :=
  { ((Lane.unpowered .a).set1 Reg.BT_SLICE_STAT_RUNNING).wr Reg.BT_SLICE_STAT_CURRENT 2 with
      start := { (Lane.unpowered .a).start with phase := .romCheck, recoveryBall := true } }

/-- What the end of the self-check does to its lane where it passes (R30). -/
def Lane.romCheckPasses (L : Lane) : Lane :=
  L.when (decide (L.start.phase = .romCheck)) fun L =>
    if L.start.recoveryBall then L.enterRecovery 0 else L.onStart fun x => { x with phase := .signatures }

/-- On entering RECOVERY the aborted slice gives its pair back to lane firmware, after the cores were set to the boot ROM (R544). -/
theorem sliceInBootLane_runs : (vget sliceInBootLane.romCheckPasses.core 2).run = .running := by
  decide +kernel

/-- Refutes O2: where BT_SLICE_STAT shows a running slice of target 2 in BOOT, the entry of RECOVERY aborts it, and the abort leaves
the cores of P_1 running instead of in the boot ROM. -/
theorem not_startSequence : ¬ Obligations.start_sequence := by
  intro h
  obtain ⟨-, hrecovery, -⟩ := h
  refine not_does_of Lane.romCheckPasses sliceInBootLane rfl (fun _ => rfl) ⟨rfl, rfl⟩ ?_ (hrecovery .a)
  rintro ⟨-, -, -, hrom, -⟩
  exact absurd ((hrom 2).symm.trans sliceInBootLane_runs) (by decide)

end Sys2Proof.Machine

namespace Sys2Proof.Machine

/-! ### An image that fails while a slice runs (R30, R544) -/

/-- A lane in the phase of image verification, with nothing in its active bank, whose BT_SLICE_STAT shows a running slice of target 2, pair P_1. -/
def sliceInImageLane : Lane := { sliceInBootLane with start := { sliceInBootLane.start with phase := .image } }

/-- What the end of image verification does to its lane (R30, R66). -/
def Lane.imageVerified (L : Lane) : Lane :=
  L.when (decide (L.start.phase = .image)) fun L =>
    let v := L.imageFound
    let img := L.readImage
    let L := ((L.wr Reg.SYS_IMG_STATUS_CHECK v.1).wr Reg.SYS_IMG_STATUS_ENTRY v.2.1).wr Reg.SYS_IMG_STATUS_OFFSET v.2.2
    if v.1 = 0 then L.enterReady img else L.startFails (Lane.enterRecovery (if v.1 ≤ 3 then 4 else 5))

/-- An empty bank holds no image that passes (R66). -/
theorem sliceInImageLane_fails : sliceInImageLane.imageFound.1 ≠ 0 := by
  decide +kernel

/-- No set is in TRIAL. -/
theorem sliceInImageLane_notTrial : sliceInImageLane.rd Reg.UP_STATE_STATE ≠ 6 := by
  decide +kernel

/-- The entry of RECOVERY gives the pair of the aborted slice back to lane firmware (R544). -/
theorem sliceInImageLane_runs : (vget sliceInImageLane.imageVerified.core 2).run = .running := by
  decide +kernel

/-- Refutes O3: where the image fails while BT_SLICE_STAT shows a running slice of target 2, the entry of RECOVERY aborts that slice, and
the abort leaves the cores of P_1 running instead of in the boot ROM. -/
theorem not_imageVerificationEnds : ¬ Obligations.image_verification_ends := by
  intro h
  refine not_does_of Lane.imageVerified sliceInImageLane rfl (fun _ => rfl) (by exact rfl) ?_ (h .a)
  show ¬if _ then _ else _
  rw [if_neg sliceInImageLane_fails, if_neg sliceInImageLane_notTrial]
  rintro ⟨-, -, -, hrom, -⟩
  exact absurd ((hrom 2).symm.trans sliceInImageLane_runs) (by decide)

end Sys2Proof.Machine

namespace Sys2Proof.Machine

/-! ### What a descriptor on a host queue leaves as it was (R434, R436, R448) -/

/-- The fields of a queue that a descriptor at TAIL moves. -/
def PostKey (k : Nat) : Prop :=
  ∃ q : Fin 16, k = (Reg.HQ_PTR_TAIL q.val).key ∨ k = (Reg.HQ_PTR_HEAD q.val).key ∨ k = (Reg.HQ_STAT_USED q.val).key ∨
    k = (Reg.HQ_STAT_FULL q.val).key

/-- Those fields lie in the registers of the queues. -/
theorem not_postKey {k : Nat} (h : k < 0x200A0004 * 64 ∨ 0x200A0200 * 64 ≤ k) : ¬PostKey k := by
  rintro ⟨q, hq⟩
  simp only [Reg.HQ_PTR_TAIL, Reg.HQ_PTR_HEAD, Reg.HQ_STAT_USED, Reg.HQ_STAT_FULL, Fld.key] at hq
  omega

/-- Descriptors have been put on host queues: only queues, their memory and what leaves the lane may differ, and of the host ports only
the number of the last frame sent (R428). -/
structure Lane.Posts (L M : Lane) : Prop where
  frame : M = { L with regs := M.regs, sram := M.sram, queue := M.queue, out := M.out, host := M.host, isobus := M.isobus }
  rd : ∀ g : Fld, ¬PostKey g.key → M.rd g = L.rd g
  host : ∀ h, (vget M.host h).unsent = (vget L.host h).unsent

theorem Lane.Posts.refl (L : Lane) : L.Posts L := ⟨rfl, fun _ _ => rfl, fun _ => rfl⟩

theorem Lane.Posts.trans {L M N : Lane} (h : L.Posts M) (k : M.Posts N) : L.Posts N := by
  refine ⟨?_, fun g hg => (k.rd g hg).trans (h.rd g hg), fun p => (k.host p).trans (h.host p)⟩
  have hk := k.frame
  rw [h.frame] at hk
  exact hk

theorem Lane.Posts.of_commits {L M : Lane} {q : Fin 16} {d : Descr} (h : L.Commits M q d) : L.Posts M := by
  obtain ⟨-, -, -, -, -, -, hsent, hframe, hrd⟩ := h
  refine ⟨hframe, fun g hg => hrd g (fun e => hg ⟨q, .inl e⟩) (fun e => hg ⟨q, .inr (.inl e)⟩) (fun e => hg ⟨q, .inr (.inr (.inl e))⟩),
    fun p => ?_⟩
  split at hsent
  · rw [hsent.2.2.2.2.1]
  · split at hsent
    · rw [hsent.2.2.2.1]
    · obtain ⟨-, -, -, -, -, hhost⟩ := hsent
      rw [hhost, vget_vupd]
      split <;> rfl

theorem Lane.Posts.of_commitsNot {L M : Lane} {q : Fin 16} (h : L.CommitsNot M q) : L.Posts M := by
  obtain ⟨-, hframe, hrd⟩ := h
  refine ⟨by rw [hframe], fun g hg => hrd g fun e => hg ⟨q, .inr (.inr (.inr e))⟩, fun p => by rw [hframe]⟩

/-- An answer is a descriptor, or leaves the lane at once where the port has no queue (R436). -/
theorem Lane.Posts.of_answers {L M : Lane} {k : HostCmd} {op status : Nat} {args : List Byte} (h : L.Answers M k op status args) :
    L.Posts M := by
  unfold Lane.Answers at h
  split at h
  · split at h
    · exact .of_commits h
    · exact .of_commitsNot h
  · rw [h]
    exact ⟨rfl, fun _ _ => rfl, fun _ => rfl⟩

theorem Lane.respond_posts (k : HostCmd) (op status : Nat) (args : List Byte) (L : Lane) : L.Posts (L.respond k op status args) :=
  .of_answers (L.respond_answers k op status args)

theorem Lane.pushDescr_posts (q : Fin 16) (d : Descr) (L : Lane) : L.Posts (L.pushDescr q d) := by
  have h := L.pushDescr_commits q d
  split at h
  · exact .of_commits h
  · exact .of_commitsNot h

theorem Lane.Posts.when {L M : Lane} (h : L.Posts M) (b : Bool) {f : Lane → Lane} (hf : M.Posts (f M)) : L.Posts (M.when b f) := by
  cases b
  · exact h
  · exact h.trans hf

theorem Lane.notice_posts (h : Fin 4) (op : Nat) (args : List Byte) (L : Lane) : L.Posts (L.notice h op args) := by
  unfold Lane.notice
  split
  · exact (Lane.Posts.refl L).when _ (L.pushDescr_posts _ _)
  · exact .refl L

theorem Lane.Posts.each {α : Type} {f : α → Lane → Lane} (hf : ∀ x M, Lane.Posts M (f x M)) (xs : List α) (L : Lane) :
    L.Posts (L.each xs f) := by
  unfold Lane.each
  induction xs generalizing L with
  | nil => exact .refl L
  | cons x xs ih => exact (hf x L).trans (ih (f x L))

end Sys2Proof.Machine

namespace Sys2Proof.Machine

/-! ### The contactor commands (R291, R314, R320, R342) -/

/-- An operation that sets registers and timers only. -/
def Lane.SetsOnly (L M : Lane) : Prop := M = { L with regs := M.regs, timers := M.timers }

theorem Lane.SetsOnly.refl (L : Lane) : L.SetsOnly L := rfl

theorem Lane.SetsOnly.trans {L M N : Lane} (h : L.SetsOnly M) (k : M.SetsOnly N) : L.SetsOnly N := by
  rw [Lane.SetsOnly, h] at k
  exact k

/-- Registers and timers do not change elapsed time (R401). -/
theorem Lane.SetsOnly.el {L M : Lane} (h : L.SetsOnly M) : M.el = L.el := by rw [h]; rfl

theorem Lane.start1_setsOnly (t : Timer) (L : Lane) : L.SetsOnly (L.start1 t) := by
  unfold Lane.start1
  split <;> rfl

/-- The mismatch time of KM follows the contactor. -/
def Lane.watchKm (L : Lane) : Lane := if L.kmAgrees then L.stop .kmDisagree else L.start1 .kmDisagree
/-- The mismatch time of KP follows the contactor. -/
def Lane.watchKp (L : Lane) : Lane := if L.kpAgrees then L.stop .kpDisagree else L.start1 .kpDisagree

theorem Lane.watchContactors_eq (L : Lane) : L.watchContactors = L.watchKm.watchKp := rfl

theorem Lane.watchKm_setsOnly (L : Lane) : L.SetsOnly L.watchKm := by
  unfold Lane.watchKm
  split
  · rfl
  · exact L.start1_setsOnly _

theorem Lane.watchKp_setsOnly (L : Lane) : L.SetsOnly L.watchKp := by
  unfold Lane.watchKp
  split
  · rfl
  · exact L.start1_setsOnly _

theorem Lane.watchContactors_setsOnly (L : Lane) : L.SetsOnly L.watchContactors := L.watchKm_setsOnly.trans L.watchKm.watchKp_setsOnly

/-- The mismatch times are timers: no register changes. -/
theorem Lane.start1_regs (t : Timer) (L : Lane) : (L.start1 t).regs = L.regs := by
  unfold Lane.start1
  split <;> rfl

theorem Lane.watchContactors_regs (L : Lane) : L.watchContactors.regs = L.regs := by
  unfold Lane.watchContactors
  dsimp only
  split <;> split <;> simp [Lane.start1_regs]

theorem Lane.watchContactors_rd (L : Lane) (g : Fld) : L.watchContactors.rd g = L.rd g := by
  rw [Lane.rd, Lane.watchContactors_regs, Lane.rd]

theorem Lane.timerAt_start1_ne {t u : Timer} (h : t ≠ u) (L : Lane) : (L.start1 t).timerAt u = L.timerAt u := by
  unfold Lane.start1
  split
  · rfl
  · rw [Lane.timerAt_restart, if_neg h]

/-- Only the two mismatch times are started or stopped. -/
theorem Lane.timerAt_watchContactors {u : Timer} (hm : Timer.kmDisagree ≠ u) (hp : Timer.kpDisagree ≠ u) (L : Lane) :
    L.watchContactors.timerAt u = L.timerAt u := by
  unfold Lane.watchContactors
  dsimp only
  split <;> split <;> simp only [Lane.timerAt_stop, if_neg hm, if_neg hp, Lane.timerAt_start1_ne hm, Lane.timerAt_start1_ne hp]

/-- A contactor is driven to another command: the command, the count of closings, the mismatch time. -/
def Lane.contactorDriven (cmd kops : Fld) (t : Timer) (close : Bool) (L : Lane) : Lane :=
  (((L.wr cmd (b2n close)).when close (Lane.count kops 1)).stop t).watchContactors

theorem Lane.contactorDriven_setsOnly (cmd kops : Fld) (t : Timer) (close : Bool) (L : Lane) :
    L.SetsOnly (L.contactorDriven cmd kops t close) :=
  Lane.SetsOnly.trans (by cases close <;> rfl) (Lane.watchContactors_setsOnly _)

theorem Lane.contactorDriven_open_rd (cmd kops : Fld) (t : Timer) (L : Lane) (g : Fld) :
    (L.contactorDriven cmd kops t false).rd g = (L.wr cmd 0).rd g :=
  Lane.watchContactors_rd _ g

theorem Lane.contactorDriven_close_rd (cmd kops : Fld) (t : Timer) (L : Lane) (g : Fld) :
    (L.contactorDriven cmd kops t true).rd g = ((L.wr cmd 1).count kops 1).rd g :=
  Lane.watchContactors_rd _ g

/-- Driving a contactor leaves every field but its command and its count. -/
theorem Lane.contactorDriven_rd (cmd kops : Fld) (t : Timer) (close : Bool) (L : Lane) {g : Fld} (hc : cmd.key ≠ g.key)
    (hk : kops.key ≠ g.key) : (L.contactorDriven cmd kops t close).rd g = L.rd g := by
  cases close
  · exact (L.contactorDriven_open_rd cmd kops t g).trans (L.rd_wr_ne _ hc)
  · exact (L.contactorDriven_close_rd cmd kops t g).trans ((Lane.rd_wr_ne _ _ hk).trans (L.rd_wr_ne _ hc))

theorem Lane.timerAt_contactorDriven (cmd kops : Fld) (t : Timer) (close : Bool) (L : Lane) {u : Timer} (ht : t ≠ u)
    (hm : Timer.kmDisagree ≠ u) (hp : Timer.kpDisagree ≠ u) : (L.contactorDriven cmd kops t close).timerAt u = L.timerAt u := by
  rw [Lane.contactorDriven, Lane.timerAt_watchContactors hm hp, Lane.timerAt_stop, if_neg ht]
  cases close <;> rfl

/-- KM is left as it is where it has the command already or the guard cannot close it (R310). -/
theorem Lane.driveKm_cases (close : Bool) (L : Lane) :
    ((L.is Reg.LG_CONT_KMCMD = close ∨ (close = true ∧ L.guardSt.powered = false)) ∧ L.driveKm close = L) ∨
      L.driveKm close = L.contactorDriven Reg.LG_CONT_KMCMD Reg.LG_KOPS_KM .kmDisagree close := by
  unfold Lane.driveKm Lane.contactorDriven
  split
  · next h => exact .inl ⟨by simpa using h, rfl⟩
  · exact .inr rfl

/-- KP is left as it is in the same cases and while the guard short-circuits a port (R291, R310). -/
theorem Lane.driveKp_cases (close : Bool) (L : Lane) :
    ((L.is Reg.LG_CONT_KPCMD = close ∨ (close = true ∧ L.guardSt.powered = false) ∨ L.rd Reg.GD_STAT_ASC ≠ 0) ∧ L.driveKp close = L) ∨
      L.driveKp close = L.contactorDriven Reg.LG_CONT_KPCMD Reg.LG_KOPS_KP .kpDisagree close := by
  unfold Lane.driveKp Lane.contactorDriven
  split
  · next h => exact .inl ⟨by simpa [or_assoc] using h, rfl⟩
  · exact .inr rfl

theorem Lane.driveKm_setsOnly (close : Bool) (L : Lane) : L.SetsOnly (L.driveKm close) := by
  rcases L.driveKm_cases close with ⟨-, h⟩ | h <;> rw [h]
  · exact .refl L
  · exact L.contactorDriven_setsOnly _ _ _ close

theorem Lane.driveKp_setsOnly (close : Bool) (L : Lane) : L.SetsOnly (L.driveKp close) := by
  rcases L.driveKp_cases close with ⟨-, h⟩ | h <;> rw [h]
  · exact .refl L
  · exact L.contactorDriven_setsOnly _ _ _ close

/-- Driving KM leaves every field but its command and its count. -/
theorem Lane.driveKm_rd (close : Bool) (L : Lane) {g : Fld} (hc : Reg.LG_CONT_KMCMD.key ≠ g.key) (hk : Reg.LG_KOPS_KM.key ≠ g.key) :
    (L.driveKm close).rd g = L.rd g := by
  rcases L.driveKm_cases close with ⟨-, h⟩ | h <;> rw [h]
  exact L.contactorDriven_rd _ _ _ close hc hk

/-- Driving KP leaves every field but its command and its count. -/
theorem Lane.driveKp_rd (close : Bool) (L : Lane) {g : Fld} (hc : Reg.LG_CONT_KPCMD.key ≠ g.key) (hk : Reg.LG_KOPS_KP.key ≠ g.key) :
    (L.driveKp close).rd g = L.rd g := by
  rcases L.driveKp_cases close with ⟨-, h⟩ | h <;> rw [h]
  exact L.contactorDriven_rd _ _ _ close hc hk

/-- Driving KM leaves every timer but the two mismatch times. -/
theorem Lane.timerAt_driveKm (close : Bool) (L : Lane) {u : Timer} (hm : Timer.kmDisagree ≠ u) (hp : Timer.kpDisagree ≠ u) :
    (L.driveKm close).timerAt u = L.timerAt u := by
  rcases L.driveKm_cases close with ⟨-, h⟩ | h <;> rw [h]
  exact L.timerAt_contactorDriven _ _ _ close hm hm hp

/-- Driving KP leaves every timer but the two mismatch times. -/
theorem Lane.timerAt_driveKp (close : Bool) (L : Lane) {u : Timer} (hm : Timer.kmDisagree ≠ u) (hp : Timer.kpDisagree ≠ u) :
    (L.driveKp close).timerAt u = L.timerAt u := by
  rcases L.driveKp_cases close with ⟨-, h⟩ | h <;> rw [h]
  exact L.timerAt_contactorDriven _ _ _ close hp hm hp

/-- KM is driven open whatever its command was. -/
theorem Lane.driveKm_open (L : Lane) : (L.driveKm false).is Reg.LG_CONT_KMCMD = false := by
  rcases L.driveKm_cases false with ⟨hsame, h⟩ | h <;> rw [h]
  · simpa using hsame
  · rw [Lane.is, Lane.contactorDriven_open_rd, Lane.rd_wr_same]
    rfl

/-- KP is driven open but while the guard short-circuits a port (R291). -/
theorem Lane.driveKp_open (L : Lane) (hasc : L.rd Reg.GD_STAT_ASC = 0) : (L.driveKp false).is Reg.LG_CONT_KPCMD = false := by
  rcases L.driveKp_cases false with ⟨hsame, h⟩ | h <;> rw [h]
  · simpa [hasc] using hsame
  · rw [Lane.is, Lane.contactorDriven_open_rd, Lane.rd_wr_same]
    rfl

/-- A count that saturates at the width of its field (R342). -/
theorem Lane.rd_count_same (L : Lane) (f : Fld) (n : Nat) : (L.count f n).rd f = satUp (2 ^ f.w - 1) (L.rd f) n := by
  have hpos := Nat.two_pow_pos f.w
  rw [Lane.count, Lane.rd_wr_same, Nat.mod_eq_of_lt (by unfold satUp; omega)]

/-- A guard with supply drives KM closed and counts the closing (R320, R342). -/
theorem Lane.driveKm_close (L : Lane) (hpower : L.guardSt.powered = true) (hopen : L.is Reg.LG_CONT_KMCMD = false) :
    (L.driveKm true).is Reg.LG_CONT_KMCMD = true ∧ (L.driveKm true).rd Reg.LG_KOPS_KM = satUp 65535 (L.rd Reg.LG_KOPS_KM) 1 := by
  have h : L.driveKm true = L.contactorDriven Reg.LG_CONT_KMCMD Reg.LG_KOPS_KM .kmDisagree true := by
    rcases L.driveKm_cases true with ⟨hsame, -⟩ | h
    · simp [hopen, hpower] at hsame
    · exact h
  rw [h, Lane.is, Lane.contactorDriven_close_rd, Lane.contactorDriven_close_rd, Lane.rd_count_same, Lane.rd_wr_ne _ _ (by decide)]
  refine ⟨?_, rfl⟩
  rw [Lane.count, Lane.rd_wr_ne _ _ (by decide), Lane.rd_wr_same]
  rfl

/-! ### Arming begins and ends (R52, R53, R58) -/

/-- A lane that nothing bars from arming shows no bar. -/
theorem Lane.showBar_of_unbarred (L : Lane) (h : L.armBar = none) : L.showBar = L := by
  unfold Lane.showBar
  rw [h]
  exact ite_self L

/-- What a lane that may arm meets (R52). -/
theorem Lane.mayArm_iff (L : Lane) : L.mayArm = true ↔ L.svc = 2 ∧ L.is Reg.SYS_STATE_ELECTED = true ∧ L.rd Reg.SYS_ARM_STEP = 0 ∧
    L.armConditions = true ∧ L.armBar = none ∧ L.gstate = 0 ∧ L.guardSt.powered = true := by
  simp [Lane.mayArm, and_assoc]

/-- Arming has begun: STEP 1, CAUSE 0, the precharge time from now, modes and contactors as they were (R52, R53). -/
theorem Lane.armBegin_spec (L : Lane) : L.armBegin.rd Reg.SYS_ARM_STEP = 1 ∧ L.armBegin.rd Reg.SYS_STATE_CAUSE = 0 ∧
    L.armBegin.timerAt .precharge = some L.el ∧ L.armBegin.svc = L.svc ∧ L.armBegin.gstate = L.gstate ∧
    L.armBegin.rd Reg.LG_CONT_KMCMD = L.rd Reg.LG_CONT_KMCMD ∧ L.armBegin.rd Reg.LG_CONT_KPCMD = L.rd Reg.LG_CONT_KPCMD := by
  have hrd (g : Fld) : L.armBegin.rd g = ((L.clr Reg.SYS_STATE_CAUSE).wr Reg.SYS_ARM_STEP 1).rd g := rfl
  have hother (g : Fld) (hs : Reg.SYS_ARM_STEP.key ≠ g.key) (hc : Reg.SYS_STATE_CAUSE.key ≠ g.key) : L.armBegin.rd g = L.rd g :=
    (hrd g).trans ((Lane.rd_wr_ne _ _ hs).trans (L.rd_wr_ne _ hc))
  refine ⟨?_, ?_, ?_, hother _ (by decide) (by decide), hother _ (by decide) (by decide), hother _ (by decide) (by decide),
    hother _ (by decide) (by decide)⟩
  · rw [hrd, Lane.rd_wr_same]
    rfl
  · rw [hrd, Lane.rd_wr_ne _ _ (by decide), Lane.rd_clr_same]
  · rw [Lane.armBegin, Lane.timerAt_restart, if_pos rfl]
    rfl

/-- Arming has ended: both contactors driven open, the guard in HOLD, the cause shown, the time to the next attempt from now
(R53, R314). -/
theorem Lane.armEnd_spec (L : Lane) (cause : Nat) (hcause : cause < 16) : (L.armEnd cause).timerAt .armRetry = some L.el ∧
    (L.armEnd cause).running .gateEnable = false ∧ (L.armEnd cause).rd Reg.SYS_ARM_STEP = 0 ∧
    (L.armEnd cause).rd Reg.SYS_STATE_CAUSE = cause ∧ (L.armEnd cause).gstate = 0 ∧ (L.armEnd cause).is Reg.LG_CONT_KMCMD = false ∧
    (L.rd Reg.GD_STAT_ASC = 0 → (L.armEnd cause).is Reg.LG_CONT_KPCMD = false) := by
  let K : Lane := ((L.wr Reg.SYS_ARM_STEP 0).wr Reg.SYS_STATE_CAUSE cause).wr Reg.LG_STATUS_GSTATE 0
  have hrd (g : Fld) : (L.armEnd cause).rd g = ((K.driveKm false).driveKp false).rd g :=
    (Lane.rd_stop _ _ g).trans (Lane.rd_restart _ _ g)
  have helapsed : ((K.driveKm false).driveKp false).el = L.el :=
    ((Lane.driveKm_setsOnly false K).trans (Lane.driveKp_setsOnly false _)).el
  have hdriven (g : Fld) (h1 : Reg.LG_CONT_KMCMD.key ≠ g.key) (h2 : Reg.LG_KOPS_KM.key ≠ g.key) (h3 : Reg.LG_CONT_KPCMD.key ≠ g.key)
      (h4 : Reg.LG_KOPS_KP.key ≠ g.key) : (L.armEnd cause).rd g = K.rd g :=
    (hrd g).trans <| (Lane.driveKp_rd false _ h3 h4).trans (Lane.driveKm_rd false _ h1 h2)
  refine ⟨?_, ?_, ?_, ?_, ?_, ?_, fun hasc => ?_⟩
  · rw [Lane.armEnd, Lane.timerAt_stop, if_neg (by decide), Lane.timerAt_restart, if_pos rfl]
    exact congrArg some helapsed
  · rw [Lane.armEnd, Lane.running_stop_same]
  · rw [hdriven _ (by decide) (by decide) (by decide) (by decide)]
    exact (Lane.rd_wr_ne _ _ (by decide)).trans ((Lane.rd_wr_ne _ _ (by decide)).trans (L.rd_wr_same _ _))
  · rw [hdriven _ (by decide) (by decide) (by decide) (by decide)]
    exact (Lane.rd_wr_ne _ _ (by decide)).trans ((Lane.rd_wr_same _ _ _).trans (Nat.mod_eq_of_lt hcause))
  · rw [Lane.gstate, hdriven _ (by decide) (by decide) (by decide) (by decide)]
    exact Lane.rd_wr_same _ _ _
  · rw [Lane.is, hrd, Lane.driveKp_rd false _ (by decide) (by decide)]
    exact K.driveKm_open
  · rw [Lane.is, hrd]
    refine Lane.driveKp_open _ ((Lane.driveKm_rd false K (by decide) (by decide)).trans ?_)
    exact (Lane.rd_wr_ne _ _ (by decide)).trans ((Lane.rd_wr_ne _ _ (by decide)).trans ((L.rd_wr_ne _ (by decide)).trans hasc))

/-- While KM disagrees with its command, arming goes on from no step but STEP 3 and STEP 4 (R53). -/
theorem Lane.armAdvance_of_km_disagrees (L : Lane) (hstep : L.rd Reg.SYS_ARM_STEP = 2) (hkm : L.kmAgrees = false) : L.armAdvance = L := by
  simp [Lane.armAdvance, Lane.tryStep3, Lane.tryStep4, Lane.tryChain, hstep, hkm]

/-! ### The commands of arming -/

/-- In mode AUTO arming begins as soon as the conditions hold (R52). -/
theorem armAutoStart_begins (l : LaneId) : Does (.armAutoStart l)
    (fun L => L.firmware = true ∧ L.img.start.armMode = 0 ∧ L.running .armRetry = false ∧ L.mayArm = true)
    (fun L M => M = L.armBegin) := by
  refine does_of (fun L => L.showBar.when (L.showBar.firmware && decide (L.showBar.img.start.armMode = 0) &&
    (!L.running .armRetry || L.due .armRetry (L.img.start.prechargeMs * 1000000)) && L.showBar.mayArm) Lane.armBegin)
    (fun _ => rfl) fun L h => ?_
  obtain ⟨hfirmware, hmode, hretry, harm⟩ := h
  obtain ⟨-, -, -, -, hbar, -⟩ := L.mayArm_iff.mp harm
  rw [L.showBar_of_unbarred hbar, Lane.when_of_true _ _ (by simp [hfirmware, hmode, hretry, harm])]

/-- In mode HOST arming begins with the write (R52, R58). -/
theorem sysArmWrite_begins (l : LaneId) : Does (.sysArmWrite l)
    (fun L => L.firmware = true ∧ L.img.start.armMode = 1 ∧ L.mayArm = true) (fun L M => M = L.armBegin) := by
  refine does_of Lane.armTrigger (fun _ => rfl) fun L h => ?_
  obtain ⟨hfirmware, hmode, harm⟩ := h
  simp [Lane.armTrigger, hfirmware, hmode, harm]

/-- A lane that may not arm shows in CAUSE alone why not. -/
theorem Lane.showBar_spec (L : Lane) : L.showBar.timers = L.timers ∧ (∀ g : Fld, Reg.SYS_STATE_CAUSE.key ≠ g.key → L.showBar.rd g = L.rd g) ∧
    ∀ c, L.svc = 2 → L.rd Reg.SYS_ARM_STEP = 0 → L.armBar = some (c + 1) → L.showBar.rd Reg.SYS_STATE_CAUSE = (c + 1) % 16 := by
  unfold Lane.showBar
  split
  · split
    · next c hbar => exact ⟨rfl, fun g hg => L.rd_wr_ne _ hg, fun d _ _ hd => by
        rw [hbar] at hd
        cases hd
        exact L.rd_wr_same _ _⟩
    · next hbar => exact ⟨rfl, fun _ _ => rfl, fun c _ _ hc => absurd hc (hbar c)⟩
  · next hready => exact ⟨rfl, fun _ _ => rfl, fun c hsvc hstep _ => absurd ⟨hsvc, hstep⟩ hready⟩

/-- A write that may not arm is refused and shows why (R58; log entry 57). -/
theorem sysArmWrite_refused (l : LaneId) : Does (.sysArmWrite l)
    (fun L => L.firmware = true ∧ L.img.start.armMode = 1 ∧ L.mayArm = false)
    (fun L M => M.is Reg.SYS_ARM_REFUSED = true ∧ M.rd Reg.SYS_ARM_STEP = L.rd Reg.SYS_ARM_STEP ∧ M.timers = L.timers ∧ M.gstate = L.gstate ∧
      M.svc = L.svc ∧
      ∀ c, L.svc = 2 → L.rd Reg.SYS_ARM_STEP = 0 → L.armBar = some (c + 1) → M.rd Reg.SYS_STATE_CAUSE = (c + 1) % 16) := by
  refine does_of Lane.armTrigger (fun _ => rfl) fun L h => ?_
  obtain ⟨hfirmware, hmode, hbarred⟩ := h
  have hrefused : L.armTrigger = L.showBar.set1 Reg.SYS_ARM_REFUSED := by simp [Lane.armTrigger, hfirmware, hmode, hbarred]
  obtain ⟨htimers, hrd, hcause⟩ := L.showBar_spec
  have hkeep (g : Fld) (h1 : Reg.SYS_ARM_REFUSED.key ≠ g.key) (h2 : Reg.SYS_STATE_CAUSE.key ≠ g.key) :
      (L.showBar.set1 Reg.SYS_ARM_REFUSED).rd g = L.rd g := (Lane.rd_wr_ne _ _ h1).trans (hrd g h2)
  rw [hrefused]
  exact ⟨Lane.is_set1_same _ _ (by decide), hkeep _ (by decide) (by decide), htimers, hkeep _ (by decide) (by decide),
    hkeep _ (by decide) (by decide), fun c hsvc hstep hc => (Lane.rd_wr_ne _ _ (by decide)).trans (hcause c hsvc hstep hc)⟩

/-- At ARM_VDC STEP 2 begins: the guard goes to ARM and closes KM, whose mirror contact still reads open (R53, R314). -/
theorem dcLinkAtArmVdc_arms (l : LaneId) : Does (.dcLinkAtArmVdc l)
    (fun L => L.rd Reg.SYS_ARM_STEP = 1 ∧ L.svc = 2 ∧ L.guardSt.powered = true ∧ L.is Reg.LG_CONT_KMCMD = false ∧ L.is Reg.LG_CONT_KM_NO = false)
    (fun L M => M.rd Reg.SYS_ARM_STEP = 2 ∧ M.gstate = 1 ∧ M.is Reg.LG_CONT_KMCMD = true ∧ M.running .precharge = false ∧ M.svc = 2 ∧
      M.rd Reg.LG_KOPS_KM = satUp 65535 (L.rd Reg.LG_KOPS_KM) 1) := by
  refine does_of (fun L => L.when (decide (L.rd Reg.SYS_ARM_STEP = 1) && decide (L.svc = 2) && L.guardSt.powered) fun L =>
    ((((L.stop .precharge).wr Reg.SYS_ARM_STEP 2).wr Reg.LG_STATUS_GSTATE 1).driveKm true).armAdvance) (fun _ => rfl) fun L h => ?_
  obtain ⟨hstep, hsvc, hpower, hopen, hmirror⟩ := h
  rw [Lane.when_of_true _ _ (by simp [hstep, hsvc, hpower])]
  let K : Lane := ((L.stop .precharge).wr Reg.SYS_ARM_STEP 2).wr Reg.LG_STATUS_GSTATE 1
  have hkeep (g : Fld) (h1 : Reg.LG_STATUS_GSTATE.key ≠ g.key) (h2 : Reg.SYS_ARM_STEP.key ≠ g.key) : K.rd g = L.rd g :=
    (Lane.rd_wr_ne _ _ h1).trans ((L.stop .precharge).rd_wr_ne _ h2)
  have hother (g : Fld) (h1 : Reg.LG_CONT_KMCMD.key ≠ g.key) (h2 : Reg.LG_KOPS_KM.key ≠ g.key) : (K.driveKm true).rd g = K.rd g :=
    K.driveKm_rd true h1 h2
  have hopenK : K.is Reg.LG_CONT_KMCMD = false := by rw [Lane.is, hkeep _ (by decide) (by decide)]; exact hopen
  obtain ⟨hclosed, hcount⟩ := K.driveKm_close hpower hopenK
  have hstepK : (K.driveKm true).rd Reg.SYS_ARM_STEP = 2 :=
    (hother _ (by decide) (by decide)).trans ((Lane.rd_wr_ne _ _ (by decide)).trans (Lane.rd_wr_same _ _ _))
  have hmirrorK : (K.driveKm true).is Reg.LG_CONT_KM_NO = false := by
    rw [Lane.is, hother _ (by decide) (by decide), hkeep _ (by decide) (by decide)]
    exact hmirror
  rw [show ((L.stop .precharge).wr Reg.SYS_ARM_STEP 2).wr Reg.LG_STATUS_GSTATE 1 = K from rfl,
    Lane.armAdvance_of_km_disagrees _ hstepK (by simp [Lane.kmAgrees, hclosed, hmirrorK])]
  refine ⟨hstepK, (hother _ (by decide) (by decide)).trans (Lane.rd_wr_same _ _ _), hclosed, ?_, ?_, ?_⟩
  · rw [Lane.running, Lane.timerAt_driveKm true K (by decide) (by decide)]
    exact Lane.running_stop_same _ _
  · exact (hother _ (by decide) (by decide)).trans ((hkeep _ (by decide) (by decide)).trans hsvc)
  · rw [hcount, hkeep _ (by decide) (by decide)]

/-- A precharge that takes too long ends arming with CAUSE 10 (R53). -/
theorem prechargeTimeout_ends (l : LaneId) (dt : Nat) : Does (.prechargeTimeout l dt)
    (fun L => L.rd Reg.SYS_ARM_STEP = 1 ∧ (L.pass dt).due .precharge (L.img.start.prechargeMs * 1000000) = true)
    (fun L M => M = ((L.pass dt).armEnd 10).stop .precharge) := by
  refine does_of (fun L => (L.pass dt).when (decide ((L.pass dt).rd Reg.SYS_ARM_STEP = 1) &&
    (L.pass dt).due .precharge ((L.pass dt).img.start.prechargeMs * 1000000)) fun L => (L.armEnd 10).stop .precharge)
    (fun _ => rfl) fun L h => ?_
  obtain ⟨hstep, hdue⟩ := h
  exact Lane.when_of_true _ _ (Bool.and_eq_true_iff.mpr ⟨decide_eq_true hstep, hdue⟩)

/-- A gate-enable chain that does not come up in 10 ms ends arming with CAUSE 13 (R53). -/
theorem gateChainEnableTimeout_ends (l : LaneId) (dt : Nat) : Does (.gateChainEnableTimeout l dt)
    (fun L => L.rd Reg.SYS_ARM_STEP = 4 ∧ (L.pass dt).due .gateEnable 10000000 = true)
    (fun L M => M = (L.pass dt).armEnd 13) := by
  refine does_of (fun L => (L.pass dt).when (decide ((L.pass dt).rd Reg.SYS_ARM_STEP = 4) && (L.pass dt).due .gateEnable 10000000)
    (Lane.armEnd 13)) (fun _ => rfl) fun L h => ?_
  obtain ⟨hstep, hdue⟩ := h
  exact Lane.when_of_true _ _ (Bool.and_eq_true_iff.mpr ⟨decide_eq_true hstep, hdue⟩)

/-- Settles O8: how arming begins, how a write of SYS_ARM is refused, how STEP 1 ends, and how the two time-outs end arming. -/
theorem armingSequence : Obligations.arming_sequence := by
  refine ⟨fun l => (armAutoStart_begins l).mono (fun _ h => h) ?_, fun l => (sysArmWrite_begins l).mono (fun _ h => h) ?_,
    sysArmWrite_refused, dcLinkAtArmVdc_arms, fun l dt => (prechargeTimeout_ends l dt).mono (fun _ h => h) ?_,
    fun l dt => (gateChainEnableTimeout_ends l dt).mono (fun _ h => h) ?_⟩
  · rintro L _ - rfl
    exact L.armBegin_spec
  · rintro L _ - rfl
    exact L.armBegin_spec
  · rintro L _ - rfl
    obtain ⟨hretry, -, hstep, hcause, hguard, hkm, hkp⟩ := (L.pass dt).armEnd_spec 10 (by decide)
    refine ⟨Lane.running_stop_same _ _, ?_, (Lane.rd_stop _ _ _).trans hstep, (Lane.rd_stop _ _ _).trans hcause,
      (Lane.rd_stop _ _ _).trans hguard, (Lane.is_stop _ _ _).trans hkm, fun hasc => (Lane.is_stop _ _ _).trans (hkp hasc)⟩
    rw [Lane.timerAt_stop, if_neg (by decide)]
    exact hretry
  · rintro L _ - rfl
    obtain ⟨hretry, hstopped, hrest⟩ := (L.pass dt).armEnd_spec 13 (by decide)
    exact ⟨hstopped, hretry, hrest⟩

end Sys2Proof.Machine

namespace Sys2Proof.Machine

/-! ### The roles of a function as the election sets them (R48, R117) -/

/-- The fields of a function's ROLE_FUNC register that the election writes. -/
def roleFields (f : Func) : List Fld :=
  [Reg.ROLE_FUNC_ROLE f.code, Reg.ROLE_FUNC_ACT f.code, Reg.ROLE_FUNC_STB f.code, Reg.ROLE_FUNC_ARB f.code, Reg.ROLE_FUNC_ROT f.code]

/-- Two functions share no role field. -/
theorem roleFields_disjoint {f g : Func} (h : f ≠ g) : ∀ a ∈ roleFields f, ∀ b ∈ roleFields g, a.key ≠ b.key := by
  have hall : ∀ f ∈ Func.all, ∀ g ∈ Func.all, f ≠ g → ∀ a ∈ roleFields f, ∀ b ∈ roleFields g, a.key ≠ b.key := by decide +kernel
  exact hall f f.mem_all g g.mem_all h

/-- The five role fields of a function are five places. -/
theorem roleFields_distinct (f : Func) : (roleFields f).Pairwise fun a b => a.key ≠ b.key := by
  cases f <;> decide

/-- Three lane codes, or 3 for no lane, in the fields of ROLE_FUNC. -/
def RolesFit (r : Nat × Nat × Nat) : Prop := r.1 < 4 ∧ r.2.1 < 4 ∧ r.2.2 < 4

/-- A lane's role fields of a function hold the roles `r` with the rotation index of `h`, and its own role agrees with them. -/
structure Lane.HoldsRoles (f : Func) (r : Nat × Nat × Nat) (h : History) (M : Lane) : Prop where
  act : M.rd (Reg.ROLE_FUNC_ACT f.code) = r.1
  stb : M.rd (Reg.ROLE_FUNC_STB f.code) = r.2.1
  arb : M.rd (Reg.ROLE_FUNC_ARB f.code) = r.2.2
  rot : M.rd (Reg.ROLE_FUNC_ROT f.code) = h.index % 4
  own : M.role f = 1 ↔ r.1 = M.id.code

/-- Roles are taken and the own role follows (R48, R117). -/
def Lane.takeOwn (f : Func) (r : Nat × Nat × Nat) (h : History) (L : Lane) : Lane := (L.takeRoles f r h).setOwnRole f

/-- The own role among three role fields (R117). -/
def Lane.ownRole (f : Func) (L : Lane) : Nat :=
  if L.rd (Reg.ROLE_FUNC_ACT f.code) = L.id.code then 1
  else if L.rd (Reg.ROLE_FUNC_STB f.code) = L.id.code then 2
  else if L.rd (Reg.ROLE_FUNC_ARB f.code) = L.id.code then 3 else 0

theorem Lane.ownRole_eq_one (f : Func) (L : Lane) : L.ownRole f % 8 = 1 ↔ L.rd (Reg.ROLE_FUNC_ACT f.code) = L.id.code := by
  unfold Lane.ownRole
  split
  · next h => simp [h]
  · next h =>
    split
    · simp [h]
    · split <;> simp [h]

theorem Lane.setOwnRole_eq (f : Func) (L : Lane) : L.setOwnRole f = L.wr (Reg.ROLE_FUNC_ROLE f.code) (L.ownRole f) := rfl

theorem Lane.setOwnRole_rd (f : Func) (L : Lane) {g : Fld} (h : (Reg.ROLE_FUNC_ROLE f.code).key ≠ g.key) : (L.setOwnRole f).rd g = L.rd g :=
  L.rd_wr_ne _ h

theorem Lane.takeRoles_rd_eq (f : Func) (r : Nat × Nat × Nat) (h : History) (L : Lane) (g : Fld) : (L.takeRoles f r h).rd g =
    ((((L.wr (Reg.ROLE_FUNC_ACT f.code) r.1).wr (Reg.ROLE_FUNC_STB f.code) r.2.1).wr (Reg.ROLE_FUNC_ARB f.code) r.2.2).wr
      (Reg.ROLE_FUNC_ROT f.code) h.index).rd g := rfl

/-- Taking roles leaves every field but the role fields of its function. -/
theorem Lane.takeOwn_rd (f : Func) (r : Nat × Nat × Nat) (h : History) (L : Lane) {g : Fld} (hg : ∀ a ∈ roleFields f, a.key ≠ g.key) :
    (L.takeOwn f r h).rd g = L.rd g := by
  simp only [roleFields, List.forall_mem_cons] at hg
  obtain ⟨hrole, hact, hstb, harb, hrot, -⟩ := hg
  rw [Lane.takeOwn, Lane.setOwnRole_rd _ _ hrole, Lane.takeRoles_rd_eq, Lane.rd_wr_ne _ _ hrot, Lane.rd_wr_ne _ _ harb,
    Lane.rd_wr_ne _ _ hstb, Lane.rd_wr_ne _ _ hact]

/-- Taking roles sets them. -/
theorem Lane.takeOwn_holds (f : Func) {r : Nat × Nat × Nat} (hr : RolesFit r) (h : History) (L : Lane) :
    (L.takeOwn f r h).HoldsRoles f r h := by
  obtain ⟨hact, hstb, harb⟩ := hr
  have hkeys := roleFields_distinct f
  simp only [roleFields, List.pairwise_cons, List.forall_mem_cons] at hkeys
  obtain ⟨⟨kra, krs, krb, krr, -⟩, ⟨kas, kab, kar, -⟩, ⟨ksb, ksr, -⟩, ⟨kbr, -⟩, -⟩ := hkeys
  have hact' : (L.takeRoles f r h).rd (Reg.ROLE_FUNC_ACT f.code) = r.1 := by
    rw [Lane.takeRoles_rd_eq, Lane.rd_wr_ne _ _ kar.symm, Lane.rd_wr_ne _ _ kab.symm, Lane.rd_wr_ne _ _ kas.symm, Lane.rd_wr_same]
    exact Nat.mod_eq_of_lt hact
  constructor
  · rw [Lane.takeOwn, Lane.setOwnRole_rd _ _ kra, hact']
  · rw [Lane.takeOwn, Lane.setOwnRole_rd _ _ krs, Lane.takeRoles_rd_eq, Lane.rd_wr_ne _ _ ksr.symm, Lane.rd_wr_ne _ _ ksb.symm,
      Lane.rd_wr_same]
    exact Nat.mod_eq_of_lt hstb
  · rw [Lane.takeOwn, Lane.setOwnRole_rd _ _ krb, Lane.takeRoles_rd_eq, Lane.rd_wr_ne _ _ kbr.symm, Lane.rd_wr_same]
    exact Nat.mod_eq_of_lt harb
  · rw [Lane.takeOwn, Lane.setOwnRole_rd _ _ krr, Lane.takeRoles_rd_eq, Lane.rd_wr_same]
    rfl
  · rw [Lane.role, Lane.takeOwn, Lane.setOwnRole_eq, Lane.rd_wr_same, ← hact']
    exact Lane.ownRole_eq_one f _

/-- Taking the roles of another function keeps those of this one. -/
theorem Lane.HoldsRoles.takeOwn {f g : Func} (hfg : g ≠ f) {r : Nat × Nat × Nat} {h : History} {M : Lane} (hM : M.HoldsRoles f r h)
    (r' : Nat × Nat × Nat) (h' : History) : (M.takeOwn g r' h').HoldsRoles f r h := by
  have hkeep (b : Fld) (hb : b ∈ roleFields f) : (M.takeOwn g r' h').rd b = M.rd b :=
    M.takeOwn_rd g r' h' fun a ha => roleFields_disjoint hfg a ha b hb
  obtain ⟨hact, hstb, harb, hrot, hown⟩ := hM
  refine ⟨(hkeep _ ?_).trans hact, (hkeep _ ?_).trans hstb, (hkeep _ ?_).trans harb, (hkeep _ ?_).trans hrot, ?_⟩
  all_goals try simp [roleFields]
  rw [Lane.role, hkeep _ (by simp [roleFields])]
  exact hown

/-- Only registers and the history change when roles are taken. -/
theorem Lane.takeOwn_keeps (f : Func) (r : Nat × Nat × Nat) (h : History) (L : Lane) :
    (L.takeOwn f r h).id = L.id ∧ (L.takeOwn f r h).ret.newer = L.ret.newer ∧ (L.takeOwn f r h).sram = L.sram := ⟨rfl, rfl, rfl⟩

/-- Each listed function takes its roles. -/
def Lane.takeAll (fs : List Func) (r : Func → Nat × Nat × Nat) (h : Func → History) (L : Lane) : Lane :=
  L.each fs fun f M => M.takeOwn f (r f) (h f)

/-- After all functions have taken their roles each listed one holds its own. -/
theorem Lane.takeAll_holds {fs : List Func} {r : Func → Nat × Nat × Nat} (hr : ∀ f, RolesFit (r f)) (h : Func → History) {f : Func}
    (hf : f ∈ fs) (L : Lane) : (L.takeAll fs r h).HoldsRoles f (r f) (h f) := by
  refine Lane.each_reaches (P := Lane.HoldsRoles f (r f) (h f)) (x := f) (fun M => M.takeOwn_holds f (hr f) (h f)) (fun g M hM => ?_) hf L
  by_cases hfg : g = f
  · rw [hfg]
    exact M.takeOwn_holds f (hr f) (h f)
  · exact hM.takeOwn hfg (r g) (h g)

/-- Fields that are no role fields stay. -/
theorem Lane.takeAll_rd (fs : List Func) (r : Func → Nat × Nat × Nat) (h : Func → History) (L : Lane) {g : Fld}
    (hg : ∀ f ∈ Func.all, ∀ a ∈ roleFields f, a.key ≠ g.key) : (L.takeAll fs r h).rd g = L.rd g :=
  Lane.each_proj fs _ (fun M => M.rd g) (fun f _ M => M.takeOwn_rd f _ _ (hg f f.mem_all)) L

/-- Taking roles leaves what `takeOwn` leaves. -/
theorem Lane.takeAll_keeps (fs : List Func) (r : Func → Nat × Nat × Nat) (h : Func → History) (L : Lane) :
    (L.takeAll fs r h).id = L.id ∧ (L.takeAll fs r h).ret.newer = L.ret.newer ∧ (L.takeAll fs r h).sram = L.sram :=
  ⟨Lane.each_proj fs _ (fun M => M.id) (fun f _ M => (M.takeOwn_keeps f (r f) (h f)).1) L,
    Lane.each_proj fs _ (fun M => M.ret.newer) (fun f _ M => (M.takeOwn_keeps f (r f) (h f)).2.1) L,
    Lane.each_proj fs _ (fun M => M.sram) (fun f _ M => (M.takeOwn_keeps f (r f) (h f)).2.2) L⟩

/-! ### The election (R47 to R49) -/

/-- A rotated order gives lane codes, or 3 (R48). -/
theorem rolesOf_fit (order members : List LaneId) (barred : LaneId → Bool) : RolesFit (rolesOf order members barred) := by
  have hgetD (ls : List LaneId) (n : Nat) : (ls.map LaneId.code).getD n 3 < 4 := by
    rw [List.getD_eq_getElem?_getD, List.getElem?_map]
    cases ls[n]? with
    | none => decide
    | some l => exact l.code_lt
  unfold rolesOf
  dsimp only
  split
  · exact ⟨by decide, by decide, by decide⟩
  · next x _ => exact ⟨x.code_lt, hgetD _ 0, hgetD _ 1⟩

/-- The lane's proposals are lane codes, or 3 (R48). -/
theorem Lane.proposal_fit (L : Lane) (f : Func) : RolesFit (L.proposal f) := by
  unfold Lane.proposal
  dsimp only
  split
  · exact rolesOf_fit _ _ _
  · exact ⟨by decide, by decide, by decide⟩

/-- An election that gives no roles shows why (R49). -/
def Lane.electionFails (c : Nat) (L : Lane) : Lane :=
  ((L.wr Reg.SYS_STATE_CAUSE c).onStart (fun s => { s with electionDone := true })).stop .gather

/-- An election that gives roles: every present function takes what the lane proposes, and the election has completed (R47, R48). -/
def Lane.electionGives (L : Lane) : Lane :=
  ((L.takeAll L.functions L.proposal L.chosenRecord).onStart
    (fun s => { s with twoLane := decide (L.members.length = 2) })).electionEnds

/-- Alone the lane has no election (R49). -/
theorem Lane.elect_of_alone {L : Lane} (h : L.members.length ≤ 1) : L.elect = L.electionFails 9 := if_pos h

/-- A present function without a lane for its active role ends the election (R49). -/
theorem Lane.elect_of_unserved {L : Lane} (h : 2 ≤ L.members.length) {f : Func} (hf : L.present f = true) (hr : (L.proposal f).1 = 3) :
    L.elect = L.electionFails 12 := by
  have hany : ((Func.all.filter L.present).any fun f => decide ((L.proposal f).1 = 3)) = true :=
    List.any_eq_true.mpr ⟨f, List.mem_filter.mpr ⟨f.mem_all, hf⟩, decide_eq_true hr⟩
  exact (if_neg (by omega)).trans (if_pos hany)

/-- With a lane for the active role of each present function the election gives the roles (R47, R48). -/
theorem Lane.elect_of_served {L : Lane} (h : 2 ≤ L.members.length) (hr : ∀ f, L.present f = true → (L.proposal f).1 ≠ 3) :
    L.elect = L.electionGives := by
  have hany : ((Func.all.filter L.present).any fun f => decide ((L.proposal f).1 = 3)) = false :=
    List.any_eq_false.mpr fun f hf => by simpa using hr f (List.mem_filter.mp hf).2
  exact (if_neg (by omega)).trans (if_neg (by simp [hany]))

/-- The election gives roles or shows why it does not. -/
theorem Lane.elect_cases (L : Lane) : (∃ c, L.elect = L.electionFails c) ∨ L.elect = L.electionGives := by
  by_cases halone : L.members.length ≤ 1
  · exact .inl ⟨9, Lane.elect_of_alone halone⟩
  · by_cases hserved : ∀ f, L.present f = true → (L.proposal f).1 ≠ 3
    · exact .inr (Lane.elect_of_served (by omega) hserved)
    · push Not at hserved
      obtain ⟨f, hf, hr⟩ := hserved
      exact .inl ⟨12, Lane.elect_of_unserved (by omega) hf hr⟩

theorem Lane.electionFails_regs (c : Nat) (L : Lane) : (L.electionFails c).regs = (L.wr Reg.SYS_STATE_CAUSE c).regs := rfl

/-- What an election without roles leaves behind (R49). -/
theorem Lane.electionFails_spec (L : Lane) {c : Nat} (hc : c < 16) : (L.electionFails c).rd Reg.SYS_STATE_CAUSE = c ∧
    (L.electionFails c).start = { L.start with electionDone := true } ∧ (L.electionFails c).running .gather = false ∧
    (∀ k, k ≠ Reg.SYS_STATE_CAUSE.key → Tab.get 0 (L.electionFails c).regs k = Tab.get 0 L.regs k) ∧
    (L.electionFails c).roles = L.roles ∧ (L.electionFails c).ret = L.ret := by
  refine ⟨?_, rfl, Lane.running_stop_same _ _, fun k hk => Tab.get_put_ne _ _ hk.symm, rfl, rfl⟩
  rw [Lane.rd, Lane.electionFails_regs]
  exact (L.rd_wr_same _ _).trans (Nat.mod_eq_of_lt hc)

/-- What the end of an election changes: ELECTED and the record that it is done. -/
theorem Lane.electionEnds_keeps (two : Bool) (L : Lane) :
    let M := (L.onStart (fun s => { s with twoLane := two })).electionEnds
    M.regs = (L.set1 Reg.SYS_STATE_ELECTED).regs ∧ M.id = L.id ∧ M.ret.newer = L.ret.newer ∧ M.sram = L.sram := ⟨rfl, rfl, rfl, rfl⟩

theorem Lane.electionGives_rd (L : Lane) (g : Fld) :
    L.electionGives.rd g = ((L.takeAll L.functions L.proposal L.chosenRecord).set1 Reg.SYS_STATE_ELECTED).rd g :=
  congrArg (fun t => Tab.get 0 t g.key) (Lane.electionEnds_keeps _ (L.takeAll L.functions L.proposal L.chosenRecord)).1

/-- The election that gives roles leaves the lane's letter, the newer slot and SRAM. -/
theorem Lane.electionGives_keeps (L : Lane) :
    L.electionGives.id = L.id ∧ L.electionGives.ret.newer = L.ret.newer ∧ L.electionGives.sram = L.sram := by
  obtain ⟨-, hid, hnewer, hsram⟩ := Lane.electionEnds_keeps (decide (L.members.length = 2)) (L.takeAll L.functions L.proposal L.chosenRecord)
  obtain ⟨hid', hnewer', hsram'⟩ := L.takeAll_keeps L.functions L.proposal L.chosenRecord
  exact ⟨hid.trans hid', hnewer.trans hnewer', hsram.trans hsram'⟩

/-- What an election with roles leaves behind (R47, R48). -/
theorem Lane.electionGives_spec (L : Lane) : L.electionGives.is Reg.SYS_STATE_ELECTED = true ∧ L.electionGives.start.electionDone = true ∧
    L.electionGives.running .gather = false ∧
    ∀ f, L.present f = true → L.electionGives.HoldsRoles f (L.proposal f) (L.chosenRecord f) := by
  refine ⟨?_, rfl, Lane.running_stop_same _ _, fun f hf => ?_⟩
  · rw [Lane.is, Lane.electionGives_rd]
    exact Lane.is_set1_same _ _ (by decide)
  have hkeys : ∀ f ∈ Func.all, ∀ b ∈ roleFields f, Reg.SYS_STATE_ELECTED.key ≠ b.key := by decide
  have hkeep (b : Fld) (hb : b ∈ roleFields f) :
      L.electionGives.rd b = (L.takeAll L.functions L.proposal L.chosenRecord).rd b :=
    (L.electionGives_rd b).trans (Lane.rd_wr_ne _ _ (hkeys f f.mem_all b hb))
  obtain ⟨hact, hstb, harb, hrot, hown⟩ :=
    L.takeAll_holds L.proposal_fit L.chosenRecord (List.mem_filter.mpr ⟨f.mem_all, hf⟩ : f ∈ L.functions)
  refine ⟨(hkeep _ ?_).trans hact, (hkeep _ ?_).trans hstb, (hkeep _ ?_).trans harb, (hkeep _ ?_).trans hrot, ?_⟩
  all_goals try simp [roleFields]
  rw [Lane.role, hkeep _ (by simp [roleFields])]
  exact hown

/-- The election changes no field outside the role fields, CAUSE and ELECTED. -/
theorem Lane.elect_rd (L : Lane) {g : Fld} (hrole : ∀ f ∈ Func.all, ∀ a ∈ roleFields f, a.key ≠ g.key)
    (hcause : Reg.SYS_STATE_CAUSE.key ≠ g.key) (helected : Reg.SYS_STATE_ELECTED.key ≠ g.key) : L.elect.rd g = L.rd g := by
  rcases L.elect_cases with ⟨c, h⟩ | h <;> rw [h]
  · exact L.rd_wr_ne c hcause
  · rw [Lane.electionGives_rd, Lane.set1, Lane.rd_wr_ne _ _ helected, Lane.takeAll_rd _ _ _ _ hrole]

/-- The election changes neither the newer slot nor SRAM. -/
theorem Lane.elect_keeps (L : Lane) : L.elect.ret.newer = L.ret.newer ∧ L.elect.sram = L.sram := by
  rcases L.elect_cases with ⟨c, h⟩ | h <;> rw [h]
  · exact ⟨rfl, rfl⟩
  · exact L.electionGives_keeps.2

/-- The gather time of a participant has expired: the lanes that take part now elect (R47). -/
theorem electionGatherTimeout_elects (l : LaneId) (dt : Nat) : Does (.electionGatherTimeout l dt)
    (fun L => L.firmware = true ∧ (L.pass dt).electable = true ∧ L.start.electionDone = false ∧ (L.pass dt).gathered = true)
    (fun L M => M = (L.pass dt).elect) := by
  refine does_of (fun L => (L.pass dt).when ((L.pass dt).firmware && (L.pass dt).electable && !(L.pass dt).start.electionDone &&
    (L.pass dt).gathered) Lane.elect) (fun _ => rfl) fun L h => ?_
  obtain ⟨hfirmware, helectable, hdone, hgathered⟩ := h
  refine Lane.when_of_true _ _ ?_
  rw [show (L.pass dt).firmware = L.firmware from rfl, show (L.pass dt).start = L.start from rfl, hfirmware, helectable, hdone, hgathered]
  rfl

/-- Settles O7: the three outcomes of the election whose gather time has expired. -/
theorem election : Obligations.election := by
  refine ⟨fun l dt => (electionGatherTimeout_elects l dt).mono (fun L ⟨hf, he, hd, hg, _, _⟩ => ⟨hf, he, hd, hg⟩) ?_,
    fun l dt => (electionGatherTimeout_elects l dt).mono (fun L ⟨hf, he, hd, hg, _⟩ => ⟨hf, he, hd, hg⟩) ?_,
    fun l dt => (electionGatherTimeout_elects l dt).mono (fun L ⟨hf, he, hd, hg, _, _⟩ => ⟨hf, he, hd, hg⟩) ?_⟩
  · rintro L _ ⟨-, -, -, -, hmembers, hserved⟩ rfl
    rw [Lane.elect_of_served hmembers hserved]
    obtain ⟨helected, hdone, hgather, hroles⟩ := (L.pass dt).electionGives_spec
    have hid : (L.pass dt).electionGives.id = L.id := (L.pass dt).electionGives_keeps.1
    refine ⟨helected, hdone, hgather, fun f hf => ?_⟩
    obtain ⟨hact, hstb, harb, hrot, hown⟩ := hroles f hf
    exact ⟨hact, hstb, harb, hrot, hid ▸ hown⟩
  · rintro L _ ⟨-, -, -, -, hmembers⟩ rfl
    rw [Lane.elect_of_alone hmembers]
    exact (L.pass dt).electionFails_spec (by decide)
  · rintro L _ ⟨-, -, -, -, hmembers, f, hf, hr⟩ rfl
    rw [Lane.elect_of_unserved hmembers hf hr]
    exact (L.pass dt).electionFails_spec (by decide)

end Sys2Proof.Machine

namespace Sys2Proof.Machine

/-! ### Locking the lane feature set (R41 to R43) -/

/-- The accepted features that the part offers and that a lane feature stands for (R41, R43). -/
def Lane.lockable (L : Lane) : Nat := Nat.land (Nat.land (L.rd (Reg.SYS_FEAT_ACCEPT 0)) (L.rd (Reg.SYS_FEAT_OFFER 0))) 0x7F

/-- The set as it is locked: the lockable features, and no feature above them. -/
def Lane.setLocked (L : Lane) : Lane :=
  ((((L.wr (Reg.SYS_FEAT_ACCEPT 0) L.lockable).clr (Reg.SYS_FEAT_ACCEPT 1)).clr (Reg.SYS_FEAT_ACCEPT 2)).clr
    (Reg.SYS_FEAT_ACCEPT 3)).set1 Reg.SYS_FEAT_CTRL_LOCK

theorem Lane.lockable_lt (L : Lane) : L.lockable < 2 ^ 7 := Nat.and_lt_two_pow _ (by decide)

/-- The locked set is the lockable features. -/
theorem Lane.setLocked_spec (L : Lane) : L.setLocked.is Reg.SYS_FEAT_CTRL_LOCK = true ∧ L.setLocked.featSet = L.lockable := by
  refine ⟨Lane.is_set1_same _ _ (by decide), ?_⟩
  have hset := L.lockable_lt
  rw [Lane.featSet, Lane.setLocked, Lane.set1]
  simp (disch := decide) only [Lane.clr, Lane.rd_wr_ne, Lane.rd_wr_same]
  simp only [Reg.SYS_FEAT_ACCEPT]
  omega

/-- The lock with lane firmware running, the set not locked and BASE accepted: discipline begins where it is accepted and used
(R43, R414). -/
theorem Lane.featLock_of_base {L : Lane} (hf : L.firmware = true) (hl : L.is Reg.SYS_FEAT_CTRL_LOCK = false)
    (hb : nbit (L.rd (Reg.SYS_FEAT_ACCEPT 0)) 0 = true) :
    L.featLock = L.setLocked.when (nbit L.lockable 6 && decide (L.img.time.asEnable = 1)) (Lane.wr Reg.TS_STAT_DISC 1) := by
  simp only [Lane.featLock, hf, hl, hb, Bool.not_true, Bool.or_false, if_true]
  rfl

/-- Without BASE the lock is refused (R43). -/
theorem Lane.featLock_of_no_base {L : Lane} (hf : L.firmware = true) (hl : L.is Reg.SYS_FEAT_CTRL_LOCK = false)
    (hb : nbit (L.rd (Reg.SYS_FEAT_ACCEPT 0)) 0 = false) : L.featLock = L.set1 Reg.SYS_FEAT_CTRL_REFUSED := by
  simp [Lane.featLock, hf, hl, hb]

/-- Locking writes registers only. -/
theorem Lane.setLocked_regsOnly (L : Lane) : L.RegsOnly L.setLocked :=
  (((((Lane.RegsOnly.refl L).wr _ _).wr _ _).wr _ _).wr _ _).wr _ _

/-- The locked set with the discipline running where it is accepted and used. -/
theorem Lane.featLock_spec {L : Lane} (hf : L.firmware = true) (hl : L.is Reg.SYS_FEAT_CTRL_LOCK = false)
    (hb : nbit (L.rd (Reg.SYS_FEAT_ACCEPT 0)) 0 = true) : L.featLock.is Reg.SYS_FEAT_CTRL_LOCK = true ∧ L.featLock.featSet = L.lockable ∧
      (nbit L.lockable 6 = true → L.img.time.asEnable = 1 → L.featLock.rd Reg.TS_STAT_DISC = 1) ∧
      L.featLock.is Reg.SYS_STATE_ELECTED = L.is Reg.SYS_STATE_ELECTED ∧ L.featLock = { L with regs := L.featLock.regs } := by
  obtain ⟨hlock, hset⟩ := L.setLocked_spec
  have hkeep (g : Fld) (h : Reg.TS_STAT_DISC.key ≠ g.key) : L.featLock.rd g = L.setLocked.rd g := by
    rw [Lane.featLock_of_base hf hl hb, Lane.when]
    split
    · exact Lane.rd_wr_ne _ _ h
    · rfl
  refine ⟨?_, ?_, fun h6 hused => ?_, ?_, ?_⟩
  · rw [Lane.is, hkeep _ (by decide)]
    exact hlock
  · rw [Lane.featSet, hkeep _ (by decide), hkeep _ (by decide), hkeep _ (by decide), hkeep _ (by decide)]
    exact hset
  · rw [Lane.featLock_of_base hf hl hb, Lane.when_of_true _ _ (by simp [h6, hused]), Lane.rd_wr_same]
    rfl
  · rw [Lane.is, hkeep _ (by decide), Lane.setLocked, Lane.set1]
    simp (disch := decide) only [Lane.clr, Lane.rd_wr_ne, Lane.is]
  · rw [Lane.featLock_of_base hf hl hb]
    exact L.setLocked_regsOnly.when _ (L.setLocked_regsOnly.wr _ _)

/-- The election is tried: it takes place, or nothing changes (R47). -/
theorem Lane.tryElect_cases (L : Lane) : L.tryElect = L ∨ L.tryElect = L.elect := by
  unfold Lane.tryElect
  split
  · exact .inr rfl
  · exact .inl rfl

/-- A lane that hears no neighbour does not end the election before its time (R47). -/
theorem Lane.tryElect_of_no_peers {L : Lane} (h : L.peers = []) : L.tryElect = L := by
  simp [Lane.tryElect, Lane.unanimous, Lane.partners, h]

/-- A lane whose set is not locked does not elect (R47). -/
theorem Lane.tryElect_of_unlocked {L : Lane} (h : L.is Reg.SYS_FEAT_CTRL_LOCK = false) : L.tryElect = L := by
  simp [Lane.tryElect, Lane.electable, h]

/-- An election that is tried changes no field outside the role fields, CAUSE and ELECTED. -/
theorem Lane.tryElect_rd (L : Lane) {g : Fld} (hrole : ∀ f ∈ Func.all, ∀ a ∈ roleFields f, a.key ≠ g.key)
    (hcause : Reg.SYS_STATE_CAUSE.key ≠ g.key) (helected : Reg.SYS_STATE_ELECTED.key ≠ g.key) : L.tryElect.rd g = L.rd g := by
  rcases L.tryElect_cases with h | h <;> rw [h]
  exact L.elect_rd hrole hcause helected

theorem Lane.tryElect_keeps (L : Lane) : L.tryElect.ret.newer = L.ret.newer ∧ L.tryElect.sram = L.sram := by
  rcases L.tryElect_cases with h | h <;> rw [h]
  · exact ⟨rfl, rfl⟩
  · exact L.elect_keeps

/-- Who is heard depends on timers, time and the frames of the neighbours, not on registers. -/
theorem Lane.peers_regs (L : Lane) (t : Tab Nat) : ({ L with regs := t } : Lane).peers = L.peers := rfl

/-- The lock is followed by the election whose condition it may complete (R43, R47). -/
theorem sysFeatLock_elects (l : LaneId) : Does (.sysFeatLock l) (fun L => L.firmware = true) (fun L M => M = L.featLock.tryElect) :=
  does_of (fun L => L.featLock.when L.firmware Lane.tryElect) (fun _ => rfl) fun _ h => Lane.when_of_true _ _ h

/-- Settles O5: the lock with BASE and without it; the election that may follow keeps what the lock has set. -/
theorem featureLock : Obligations.feature_lock := by
  refine ⟨fun l => (sysFeatLock_elects l).mono (fun L ⟨hf, _, _⟩ => hf) ?_, fun l => (sysFeatLock_elects l).mono (fun L ⟨hf, _, _⟩ => hf) ?_⟩
  · rintro L _ ⟨hf, hl, hb⟩ rfl
    obtain ⟨hlock, hset, hdisc, helected, hregs⟩ := Lane.featLock_spec hf hl hb
    have hkeep {g : Fld} (hr : ∀ f ∈ Func.all, ∀ a ∈ roleFields f, a.key ≠ g.key) (hc : Reg.SYS_STATE_CAUSE.key ≠ g.key)
        (he : Reg.SYS_STATE_ELECTED.key ≠ g.key) : L.featLock.tryElect.rd g = L.featLock.rd g := Lane.tryElect_rd _ hr hc he
    have hset' : L.featLock.tryElect.featSet = L.lockable := by
      rw [Lane.featSet, hkeep (by decide) (by decide) (by decide), hkeep (by decide) (by decide) (by decide),
        hkeep (by decide) (by decide) (by decide), hkeep (by decide) (by decide) (by decide)]
      exact hset
    obtain ⟨hnewer, hsram⟩ := L.featLock.tryElect_keeps
    refine ⟨?_, hset', ?_, fun hpeers => ?_, hnewer.trans ?_, hsram.trans ?_⟩
    · rw [Lane.is, hkeep (by decide) (by decide) (by decide)]
      exact hlock
    · rw [hset', hkeep (by decide) (by decide) (by decide)]
      exact hdisc
    · rw [Lane.tryElect_of_no_peers (by rw [hregs]; exact hpeers)]
      exact ⟨by rw [hregs], helected⟩
    · rw [hregs]
    · rw [hregs]
  · rintro L _ ⟨hf, hl, hb⟩ rfl
    rw [Lane.featLock_of_no_base hf hl hb]
    refine Lane.tryElect_of_unlocked ?_
    rw [Lane.is, Lane.set1, Lane.rd_wr_ne _ _ (by decide)]
    exact hl

end Sys2Proof.Machine

namespace Sys2Proof.Machine

/-! ### What a start does to a lane, stage by stage (R10, R30) -/

/-- The lane as a start begins it, before registers that last are put back. -/
def Lane.startRecord (low : Bool) (L : Lane) : Lane :=
  { Lane.unpowered L.id with
    draws := L.draws, sram := L.sram, store := L.store, out := L.out,
    dbg := { L.dbg with haltreq := Vector.replicate 4 false, unavail := Vector.replicate 4 false, secHalted := false },
    ret := { (Lane.unpowered L.id).ret with digest := L.ret.digest },
    vote := if L.guardSt.powered then { (Lane.unpowered L.id).vote with count := L.vote.count, inp := L.vote.inp }
      else (Lane.unpowered L.id).vote,
    core := (Lane.unpowered L.id).core.map (fun (c : CoreSt) => { c with run := CoreRun.rom }),
    time := { (Lane.unpowered L.id).time with elapsed := L.time.elapsed },
    guardSt := { (Lane.unpowered L.id).guardSt with powered := L.guardSt.powered, lfsr := L.guardSt.lfsr, num := L.guardSt.num },
    sec := fuseSettle L.sec,
    update := { L.update with frags := [], waiting := [], coordinator := false, restartAt := none, asker := none },
    test := { (Lane.unpowered L.id).test with fuses := L.test.fuses, lines := L.test.lines },
    gate := { (Lane.unpowered L.id).gate with
      drive := L.gate.drive, chopHw := L.gate.chopHw && L.guardSt.powered, ascCounted := L.gate.ascCounted && L.guardSt.powered },
    timers := L.timers.filter (fun e => [Timer.kmDisagree, .kpDisagree, .voteIn .prev, .voteIn .next].contains e.1),
    v5out := true,
    start := { (Lane.unpowered L.id).start with phase := .romCheck, recoveryBall := low } }

/-- The guard of `L` stays FORCED, with its cause and its contactors (R314, R328). -/
def Lane.startForced (L z : Lane) : Lane :=
  z.when (L.guardSt.powered && decide (L.gstate = 3)) fun z =>
    ((z.wr Reg.LG_STATUS_GSTATE 3).wr Reg.LG_STATUS_FCAUSE (L.rd Reg.LG_STATUS_FCAUSE)).wr Reg.LG_CONT_KMCMD (L.rd Reg.LG_CONT_KMCMD)
      |>.wr Reg.LG_CONT_KPCMD (L.rd Reg.LG_CONT_KPCMD)

/-- The fields loaded from the part (R10, R29). -/
def Lane.startLoaded (L z : Lane) : Lane :=
  ((z.wr Reg.SYS_STATE_STATE 0).wr Reg.IB_PREF_PREF (0xE0 + L.id.code)).wr (Reg.SYS_FEAT_OFFER 0) (offered (z.rd Reg.SYS_ID_STEPPING))

/-- The debug access that the lifecycle gives (R489, R492). -/
def Lane.startOpen (z : Lane) : Lane :=
  z.when (decide (z.lifecycle = 0) || decide (z.lifecycle = 3)) fun z => (z.set1 Reg.SE_DBG_OPEN).wr Reg.SE_DBG_SCOPE 31

/-- What RETIRED has lost (R492). -/
def Lane.startCleared (z : Lane) : Lane :=
  z.when (decide (z.lifecycle = 3)) fun z => (z.set1 Reg.SE_STATUS_ZEROISED).securityClear

/-- The registers of a start in their order, up to the reading of the journal. -/
def Lane.startRegisters (low : Bool) (L : Lane) : Lane :=
  (((L.startLoaded (L.startForced (survivors.foldl (fun z f => z.wr f (L.rd f)) (L.startRecord low)))).startOpen).startCleared).set1
    Reg.TS_STAT_LEADER

theorem Lane.startLane_eq (low : Bool) (L : Lane) : L.startLane low =
    ((L.guardAtStart.startRegisters low).journalRead.when L.guardAtStart.guardSt.powered (Lane.restart .clkGood)).gateFollowAll := rfl

/-- What a start sets beside registers and gate outputs: the state `M` that starts from the state `L`. -/
structure Lane.Started (low : Bool) (L M : Lane) : Prop where
  phase : M.start.phase = .romCheck
  ball : M.start.recoveryBall = low
  dev : M.time.dev = 0
  elapsed : M.time.elapsed = L.time.elapsed
  digest : M.ret.digest = L.ret.digest
  fuses : M.test.fuses = L.test.fuses
  irqs : M.irqs = []
  store : M.store = L.store
  roles : M.roles = (Lane.unpowered .a).roles
  withdraw : M.vote.withdraw = Vector.replicate 5 false
  rom : ∀ c, (vget M.core c).run = .rom
  engine : M.engine = (Lane.unpowered .a).engine
  solenoid : M.solenoid = (Lane.unpowered .a).solenoid
  portOff : M.gate.portOff = Vector.replicate 3 false
  life : M.sec.lc = max L.sec.lc1 L.sec.lc2

/-- An element of a mapped vector. -/
theorem vget_map {α β : Type} {n : Nat} (f : α → β) (v : Vector α n) (i : Fin n) : vget (v.map f) i = f (vget v i) := by
  simp [vget]

theorem Lane.startRecord_started (low : Bool) (L : Lane) : L.Started low (L.startRecord low) where
  phase := rfl
  ball := rfl
  dev := rfl
  elapsed := rfl
  digest := rfl
  fuses := rfl
  irqs := rfl
  store := rfl
  roles := rfl
  withdraw := by
    unfold Lane.startRecord
    dsimp only
    split <;> rfl
  rom c := by
    rw [Lane.startRecord, vget_map]
  engine := rfl
  solenoid := rfl
  portOff := rfl
  life := rfl

section
variable {low : Bool} {L M : Lane}

theorem Lane.Started.wr (h : L.Started low M) (f : Fld) (v : Nat) : L.Started low (M.wr f v) := by
  obtain ⟨⟩ := h
  constructor <;> assumption

theorem Lane.Started.onUpd (h : L.Started low M) (g : UpdateSt → UpdateSt) : L.Started low (M.onUpd g) := by
  obtain ⟨⟩ := h
  constructor <;> assumption

theorem Lane.Started.restart (h : L.Started low M) (t : Timer) : L.Started low (M.restart t) := by
  obtain ⟨⟩ := h
  constructor <;> assumption

theorem Lane.Started.withDrive (h : L.Started low M) (d : Vector Drive 18) : L.Started low (M.withDrive d) := by
  obtain ⟨⟩ := h
  constructor <;> assumption

theorem Lane.Started.when (h : L.Started low M) (b : Bool) {g : Lane → Lane} (hg : b = true → L.Started low (g M)) :
    L.Started low (M.when b g) := by
  cases b
  · exact h
  · exact hg rfl

theorem Lane.Started.foldl_wr (h : L.Started low M) (fs : List Fld) (v : Fld → Nat) :
    L.Started low (fs.foldl (fun z f => z.wr f (v f)) M) := by
  induction fs generalizing M with
  | nil => exact h
  | cons f fs ih => exact ih (h.wr f (v f))

theorem Lane.Started.journalWrite (h : L.Started low M) : L.Started low M.journalWrite := by
  unfold Lane.journalWrite
  exact h.onUpd _

theorem Lane.Started.journalRead (h : L.Started low M) : L.Started low M.journalRead := by
  unfold Lane.journalRead
  split
  · exact ((h.wr _ _).onUpd _).when _ fun _ => ((h.wr _ _).onUpd _).journalWrite
  · exact ((h.wr _ _).onUpd _).journalWrite

/-- Outside RETIRED the registers of a start leave everything else, the STORE window among it (R492). -/
theorem Lane.startRegisters_started (low : Bool) (L : Lane) (hlife : max L.sec.lc1 L.sec.lc2 ≠ 3) : L.Started low (L.startRegisters low) := by
  have hsurvive := (L.startRecord_started low).foldl_wr survivors L.rd
  have hforced : L.Started low (L.startForced _) := hsurvive.when (L.guardSt.powered && decide (L.gstate = 3)) fun _ =>
    (((hsurvive.wr Reg.LG_STATUS_GSTATE 3).wr Reg.LG_STATUS_FCAUSE (L.rd Reg.LG_STATUS_FCAUSE)).wr Reg.LG_CONT_KMCMD
      (L.rd Reg.LG_CONT_KMCMD)).wr Reg.LG_CONT_KPCMD (L.rd Reg.LG_CONT_KPCMD)
  have hloaded : L.Started low (L.startLoaded (L.startForced _)) := ((hforced.wr _ _).wr _ _).wr _ _
  have hopen : L.Started low (Lane.startOpen _) := hloaded.when _ fun _ => (hloaded.wr Reg.SE_DBG_OPEN 1).wr Reg.SE_DBG_SCOPE 31
  have hcleared : L.Started low (Lane.startCleared _) :=
    hopen.when _ fun hretired => absurd (hopen.life.symm.trans (of_decide_eq_true hretired)) hlife
  exact hcleared.wr _ _

end

/-! ### The registers after a start (R10) -/

/-- The fields that a start does not leave at their At start value. -/
def startKept : List Fld :=
  survivors ++ [Reg.SYS_STATE_STATE, Reg.SYS_ID_LANE, Reg.IB_PREF_PREF, Reg.SYS_FEAT_OFFER 0, Reg.TS_STAT_LEADER, Reg.SE_DBG_OPEN,
    Reg.SE_DBG_SCOPE, Reg.SE_STATUS_ZEROISED, Reg.UP_STATE_STATE, Reg.LG_STATUS_GSTATE, Reg.LG_STATUS_FCAUSE, Reg.LG_CONT_KMCMD,
    Reg.LG_CONT_KPCMD]

/-- Every field outside a list reads its At start value. -/
def Lane.AtStartBut (fs : List Fld) (M : Lane) : Prop := ∀ k, k ∉ fs.map Fld.key → Tab.get 0 M.regs k = Tab.get 0 startRegs k

section
variable {fs : List Fld} {M : Lane}

theorem Lane.AtStartBut.wr (h : M.AtStartBut fs) {f : Fld} (hf : f.key ∈ fs.map Fld.key) (v : Nat) : (M.wr f v).AtStartBut fs :=
  fun k hk => (Tab.get_put_ne _ _ (ne_of_mem_of_not_mem hf hk)).trans (h k hk)

theorem Lane.AtStartBut.when (h : M.AtStartBut fs) (b : Bool) {g : Lane → Lane} (hg : (g M).AtStartBut fs) : (M.when b g).AtStartBut fs := by
  cases b
  · exact h
  · exact hg

theorem Lane.AtStartBut.restart (h : M.AtStartBut fs) (t : Timer) : (M.restart t).AtStartBut fs := h

theorem Lane.AtStartBut.withDrive (h : M.AtStartBut fs) (d : Vector Drive 18) : (M.withDrive d).AtStartBut fs := h

theorem Lane.AtStartBut.foldl_wr (h : M.AtStartBut fs) {gs : List Fld} (v : Fld → Nat) (hgs : ∀ g ∈ gs, g.key ∈ fs.map Fld.key) :
    (gs.foldl (fun z f => z.wr f (v f)) M).AtStartBut fs := by
  induction gs generalizing M with
  | nil => exact h
  | cons g gs ih => exact ih (h.wr (hgs g (.head _)) (v g)) fun x hx => hgs x (.tail _ hx)

end

theorem Lane.startRecord_regs (low : Bool) (L : Lane) :
    (L.startRecord low).regs = Tab.put 0 startRegs Reg.SYS_ID_LANE.key L.id.code := rfl

theorem Lane.startRecord_get (low : Bool) (L : Lane) {k : Nat} (h : Reg.SYS_ID_LANE.key ≠ k) :
    Tab.get 0 (L.startRecord low).regs k = Tab.get 0 startRegs k := by
  rw [Lane.startRecord_regs]
  exact Tab.get_put_ne _ _ h

theorem Lane.startRecord_atStart (low : Bool) (L : Lane) : (L.startRecord low).AtStartBut startKept := fun _ hk =>
  L.startRecord_get low (ne_of_mem_of_not_mem (by decide) hk)

theorem Lane.startRegisters_atStart (low : Bool) (L : Lane) : (L.startRegisters low).AtStartBut startKept := by
  have hsurvive := (L.startRecord_atStart low).foldl_wr (gs := survivors) L.rd (by decide)
  have hforced : (L.startForced _).AtStartBut startKept := hsurvive.when (L.guardSt.powered && decide (L.gstate = 3))
    ((((hsurvive.wr (by decide) 3).wr (by decide) (L.rd Reg.LG_STATUS_FCAUSE)).wr (by decide) (L.rd Reg.LG_CONT_KMCMD)).wr (by decide)
      (L.rd Reg.LG_CONT_KPCMD))
  have hloaded : (L.startLoaded (L.startForced _)).AtStartBut startKept := ((hforced.wr (by decide) _).wr (by decide) _).wr (by decide) _
  have hopen : (Lane.startOpen _).AtStartBut startKept := hloaded.when _ ((hloaded.wr (f := Reg.SE_DBG_OPEN) (by decide) 1).wr (by decide) 31)
  have hcleared : (Lane.startCleared _).AtStartBut startKept := hopen.when _ (hopen.wr (f := Reg.SE_STATUS_ZEROISED) (by decide) 1)
  exact hcleared.wr (by decide) 1

theorem Lane.rd_onUpd (u : UpdateSt → UpdateSt) (L : Lane) (g : Fld) : (L.onUpd u).rd g = L.rd g := rfl

/-- The journal's reading sets one field (R511). -/
theorem Lane.journalRead_rd (L : Lane) {g : Fld} (h : Reg.UP_STATE_STATE.key ≠ g.key) : L.journalRead.rd g = L.rd g := by
  have hwrite (M : Lane) : M.journalWrite.rd g = M.rd g := by
    unfold Lane.journalWrite
    rfl
  unfold Lane.journalRead
  split
  · rw [Lane.when_proj _ _ (fun M => M.rd g) hwrite]
    exact (Lane.rd_onUpd _ _ g).trans (L.rd_wr_ne _ h)
  · rw [hwrite]
    exact (Lane.rd_onUpd _ _ g).trans (L.rd_wr_ne _ h)

theorem Lane.AtStartBut.journalRead {M : Lane} (h : M.AtStartBut startKept) : M.journalRead.AtStartBut startKept := fun k hk => by
  have hkey : Reg.UP_STATE_STATE.key ≠ k := ne_of_mem_of_not_mem (by decide) hk
  have hrd := M.journalRead_rd (g := ⟨0, k, 1⟩) (by simpa [Fld.key] using hkey)
  simp only [Lane.rd, Fld.key, Nat.zero_mul, Nat.zero_add] at hrd
  exact hrd.trans (h k hk)

theorem Lane.startOpen_rd (z : Lane) {g : Fld} (h1 : Reg.SE_DBG_OPEN.key ≠ g.key) (h2 : Reg.SE_DBG_SCOPE.key ≠ g.key) :
    z.startOpen.rd g = z.rd g :=
  Lane.when_proj _ _ (fun M => M.rd g) (fun M => (Lane.rd_wr_ne _ _ h2).trans (M.rd_wr_ne 1 h1)) z

theorem Lane.startCleared_rd (z : Lane) {g : Fld} (h : Reg.SE_STATUS_ZEROISED.key ≠ g.key) : z.startCleared.rd g = z.rd g := by
  have hclear (M : Lane) : M.securityClear.rd g = M.rd g := rfl
  exact Lane.when_proj _ _ (fun M => M.rd g) (fun M => (hclear _).trans (M.rd_wr_ne 1 h)) z

/-- The survivors do not include the guard's state. -/
theorem Lane.survived_gstate (v : Fld → Nat) (z : Lane) :
    (survivors.foldl (fun z f => z.wr f (v f)) z).rd Reg.LG_STATUS_GSTATE = z.rd Reg.LG_STATUS_GSTATE := by
  simp (disch := decide) only [survivors, List.foldl_cons, List.foldl_nil, Lane.rd_wr_ne]

/-- The state of the lane and its time leadership after a start. -/
theorem Lane.startRegisters_rd (low : Bool) (L : Lane) : (L.startRegisters low).rd Reg.TS_STAT_LEADER = 1 ∧
    (L.startRegisters low).rd Reg.SYS_STATE_STATE = 0 ∧
    (L.startRegisters low).rd Reg.LG_STATUS_GSTATE = if L.guardSt.powered = true ∧ L.gstate = 3 then 3 else 0 := by
  let S := survivors.foldl (fun z f => z.wr f (L.rd f)) (L.startRecord low)
  have hlater (g : Fld) (h1 : Reg.TS_STAT_LEADER.key ≠ g.key) (h2 : Reg.SE_STATUS_ZEROISED.key ≠ g.key) (h3 : Reg.SE_DBG_OPEN.key ≠ g.key)
      (h4 : Reg.SE_DBG_SCOPE.key ≠ g.key) : (L.startRegisters low).rd g = (L.startLoaded (L.startForced S)).rd g := by
    rw [Lane.startRegisters, Lane.set1, Lane.rd_wr_ne _ _ h1, Lane.startCleared_rd _ h2, Lane.startOpen_rd _ h3 h4]
  refine ⟨Lane.rd_wr_same _ _ _, ?_, ?_⟩
  · rw [hlater _ (by decide) (by decide) (by decide) (by decide), Lane.startLoaded]
    simp (disch := decide) only [Lane.rd_wr_ne, Lane.rd_wr_same, Nat.zero_mod]
  · rw [hlater _ (by decide) (by decide) (by decide) (by decide), Lane.startLoaded]
    simp (disch := decide) only [Lane.rd_wr_ne]
    by_cases hforced : L.guardSt.powered = true ∧ L.gstate = 3
    · rw [if_pos hforced, Lane.startForced, Lane.when_of_true _ _ (by simp [hforced])]
      simp (disch := decide) only [Lane.rd_wr_ne, Lane.rd_wr_same]
      rfl
    · rw [if_neg hforced, Lane.startForced, Lane.when_of_false _ _ (by simpa using hforced)]
      exact (Lane.survived_gstate L.rd _).trans ((L.startRecord_get low (by decide)).trans (by decide +kernel))

/-! ### The gate outputs after a start (R172, R312) -/

/-- No port has its gate enable or the guard's short circuit. -/
def Lane.GatesHeld (L : Lane) : Prop := L.rd Reg.GD_STAT_ASC = 0 ∧ L.rd Reg.GD_STAT_EN = 0

/-- Nothing is asked of a switch without gate enable and short circuit (R172). -/
theorem Lane.askedNow_of_held {L : Lane} (h : L.GatesHeld) (b : Fin 18) : L.askedNow b = false := by
  obtain ⟨hasc, hen⟩ := h
  have hbit (f : Fld) (hf : L.rd f = 0) (i : Nat) : L.bitOf f i = false := by simp [Lane.bitOf, nbit, hf]
  simp [Lane.askedNow, Lane.asked, hbit _ hasc, hbit _ hen]

/-- The gate output of a switch is off. -/
def Lane.DriveOff (b : Fin 18) (L : Lane) : Prop := (vget L.gate.drive b).on = false

/-- A switch of which nothing is asked goes off, or was off; no other switch changes. -/
theorem Lane.gateFollow_of_held {L : Lane} (h : L.GatesHeld) (b : Fin 18) :
    (L.gateFollow b).DriveOff b ∧ ∀ c, L.DriveOff c → (L.gateFollow b).DriveOff c := by
  unfold Lane.gateFollow
  dsimp only
  rw [Lane.askedNow_of_held h b, if_neg (by decide)]
  split
  · have hdrive (c : Fin 18) (x : Drive) : vget (L.onGate fun g => { g with drive := vupd g.drive b fun _ => x }).gate.drive c =
        if b = c then x else vget L.gate.drive c := vget_vupd _ _ _ _
    refine ⟨?_, fun c hc => ?_⟩
    · rw [Lane.DriveOff, hdrive, if_pos rfl]
    · rw [Lane.DriveOff, hdrive]
      split
      · rfl
      · exact hc
  · next hoff => exact ⟨by simpa [Lane.DriveOff] using hoff, fun _ hc => hc⟩

/-- Following the gates changes no register. -/
theorem Lane.gateFollow_held_iff (L : Lane) (b : Fin 18) : (L.gateFollow b).GatesHeld ↔ L.GatesHeld := by
  obtain ⟨d, hd⟩ := L.gateFollow_drive b
  rw [hd]
  exact Iff.rfl

/-- With no port enabled every gate output is off. -/
theorem Lane.gateFollowAll_of_held {L : Lane} (h : L.GatesHeld) (b : Fin 18) : L.gateFollowAll.DriveOff b := by
  have hheld : L.gateFollowAll.GatesHeld := by
    obtain ⟨d, hd⟩ := L.gateFollowAll_drive
    rw [hd]
    exact h
  refine Lane.each_reaches (P := fun M => M.GatesHeld → M.DriveOff b) (f := Lane.gateFollow) (x := b)
    (fun M hM => ?_) (fun c M hM hheld => ?_) (List.mem_finRange b) L hheld
  · exact (Lane.gateFollow_of_held ((M.gateFollow_held_iff b).mp hM) b).1
  · have hheld' := (M.gateFollow_held_iff c).mp hheld
    exact (Lane.gateFollow_of_held hheld' c).2 b (hM hheld')

/-! ### The start of a lane -/

/-- At a start the guard's own part changes registers and timers only (R30). -/
theorem Lane.guardAtStart_setsOnly (L : Lane) : L.SetsOnly L.guardAtStart := by
  unfold Lane.guardAtStart
  split
  · exact .refl L
  · exact Lane.SetsOnly.trans (M := L.wr Reg.GD_STAT_ASC 0) rfl
      ((Lane.driveKm_setsOnly false _).trans (Lane.SetsOnly.trans (Lane.driveKp_setsOnly false _) rfl))

/-- A guard that is FORCED stays so, any other one goes to HOLD. -/
theorem Lane.guardAtStart_gstate (L : Lane) :
    L.guardAtStart.gstate = if L.guardSt.powered = true ∧ L.gstate = 3 then 3 else 0 := by
  unfold Lane.guardAtStart
  by_cases hforced : L.guardSt.powered = true ∧ L.gstate = 3
  · rw [if_pos hforced, if_pos (by simp [hforced]), hforced.2]
  · rw [if_neg hforced, if_neg (by simpa using hforced)]
    exact Lane.rd_wr_same _ _ _

/-- Before its gate outputs follow, the lane that a start leaves. -/
def Lane.startUndriven (low : Bool) (L : Lane) : Lane :=
  (L.startRegisters low).journalRead.when L.guardSt.powered (Lane.restart .clkGood)

theorem Lane.rd_when_restart (b : Bool) (t : Timer) (M : Lane) (g : Fld) : (M.when b (Lane.restart t)).rd g = M.rd g := by
  cases b <;> rfl

theorem Lane.startUndriven_rd (low : Bool) (L : Lane) (g : Fld) : (L.startUndriven low).rd g = (L.startRegisters low).journalRead.rd g :=
  Lane.rd_when_restart _ _ _ g

theorem Lane.startUndriven_started (low : Bool) (L : Lane) (hlife : max L.sec.lc1 L.sec.lc2 ≠ 3) : L.Started low (L.startUndriven low) :=
  (L.startRegisters_started low hlife).journalRead.when _ fun _ => (L.startRegisters_started low hlife).journalRead.restart _

theorem Lane.startUndriven_atStart (low : Bool) (L : Lane) : (L.startUndriven low).AtStartBut startKept :=
  (L.startRegisters_atStart low).journalRead.when _ ((L.startRegisters_atStart low).journalRead.restart _)

/-- No port is enabled at a start. -/
theorem Lane.startUndriven_held (low : Bool) (L : Lane) : (L.startUndriven low).GatesHeld :=
  ⟨(L.startUndriven_atStart low _ (by decide)).trans (by decide +kernel), (L.startUndriven_atStart low _ (by decide)).trans (by decide +kernel)⟩

/-- The lane that a start from the state `L` leaves, outside RETIRED. -/
def Lane.StartedAs (l : LaneId) (low : Bool) (L M : Lane) : Prop :=
  M.start.phase = .romCheck ∧ M.start.recoveryBall = low ∧ M.is Reg.TS_STAT_LEADER = true ∧ M.svc = 0 ∧
  M.gstate = (if L.guardSt.powered = true ∧ L.gstate = 3 then 3 else 0) ∧
  M.now = 0 ∧ M.el = L.el ∧ M.ret.digest = L.ret.digest ∧ M.test.fuses = L.test.fuses ∧ M.irqs = [] ∧ M.store = L.store ∧
  (∀ f, M.serves f = false) ∧ (∀ i, vget M.vote.withdraw i = false) ∧ (∀ c, (vget M.core c).run = .rom) ∧
  M.engine = (Lane.unpowered l).engine ∧ M.solenoid = (Lane.unpowered l).solenoid ∧ (∀ b, (vget M.gate.drive b).on = false) ∧
  (∀ p, vget M.gate.portOff p = false) ∧ M.AtStartBut startKept

/-- A start leads to the state of a started lane (R10, R30). -/
theorem Lane.startLane_startedAs (l : LaneId) (low : Bool) (L : Lane) (hlife : max L.sec.lc1 L.sec.lc2 ≠ 3) :
    L.StartedAs l low (L.startLane low) := by
  have hguard := L.guardAtStart_setsOnly
  generalize hG : L.guardAtStart = G at hguard
  have hlifeG : max G.sec.lc1 G.sec.lc2 ≠ 3 := by rw [hguard]; exact hlife
  have hgstate : G.gstate = if L.guardSt.powered = true ∧ L.gstate = 3 then 3 else 0 := hG ▸ L.guardAtStart_gstate
  have hpowered : G.guardSt.powered = L.guardSt.powered := by rw [hguard]
  have heq : L.startLane low = (G.startUndriven low).gateFollowAll := by rw [Lane.startLane_eq, hG, Lane.startUndriven]
  have hoff := Lane.gateFollowAll_of_held (G.startUndriven_held low)
  obtain ⟨d, hd⟩ := (G.startUndriven low).gateFollowAll_drive
  have hstarted := (G.startUndriven_started low hlifeG).withDrive d
  obtain ⟨hleader, hstate, hforced⟩ := G.startRegisters_rd low
  have hrd (g : Fld) (h : Reg.UP_STATE_STATE.key ≠ g.key) : ((G.startUndriven low).withDrive d).rd g = (G.startRegisters low).rd g :=
    (G.startUndriven_rd low g).trans (Lane.journalRead_rd _ h)
  rw [hd] at hoff
  rw [heq, hd]
  refine ⟨hstarted.phase, hstarted.ball, ?_, ?_, ?_, ?_, ?_, ?_, ?_, hstarted.irqs, ?_, fun f => ?_, fun i => ?_, hstarted.rom,
    hstarted.engine, hstarted.solenoid, hoff, fun p => ?_, (G.startUndriven_atStart low).withDrive d⟩
  · rw [Lane.is, hrd _ (by decide), hleader]
    rfl
  · rw [Lane.svc, hrd _ (by decide), hstate]
  · rw [Lane.gstate, hrd _ (by decide), hforced, hgstate, hpowered]
    by_cases h : L.guardSt.powered = true ∧ L.gstate = 3 <;> simp [h]
  · rw [Lane.now, hstarted.dev, Nat.zero_div]
  · rw [Lane.el, hstarted.elapsed, hguard, Lane.el]
  · rw [hstarted.digest, hguard]
  · rw [hstarted.fuses, hguard]
  · rw [hstarted.store, hguard]
  · rw [Lane.serves, Lane.fn, hstarted.roles]
    exact congrArg RoleFn.served (vget_replicate _ _)
  · rw [hstarted.withdraw, vget_replicate]
  · rw [hstarted.portOff, vget_replicate]

/-- Settles O1: both commands start the lane, and a started lane is what the statement says. -/
theorem startResetsTheLane : Obligations.start_resets_the_lane := by
  refine ⟨fun l low => does_of (Lane.startLane low) (fun _ => rfl) fun L h => L.startLane_startedAs l low h,
    fun l dt => does_of (fun L => (L.pass dt).when (decide ((L.pass dt).start.phase = .dieReset) && (L.pass dt).due .dieReset 100000)
      (Lane.startLane false)) (fun _ => rfl) fun L h => ?_⟩
  obtain ⟨hphase, hdue, hlife⟩ := h
  have hready : (decide ((L.pass dt).start.phase = .dieReset) && (L.pass dt).due .dieReset 100000) = true :=
    Bool.and_eq_true_iff.mpr ⟨decide_eq_true hphase, hdue⟩
  rw [Lane.when_of_true _ _ hready]
  exact (L.pass dt).startLane_startedAs l false hlife

end Sys2Proof.Machine

namespace Sys2Proof.Machine

/-! ### What the evaluation of authority leaves as it was (R439, R440) -/

/-- Registers below the host-queue block. -/
def BelowHq (k : Nat) : Prop := k < 0x200A0000 * 64

/-- The roles, the retained settings and every register below the host-queue block are as before. -/
structure Lane.RolesStand (L M : Lane) : Prop where
  roles : M.roles = L.roles
  ret : M.ret = L.ret
  rd : ∀ g : Fld, BelowHq g.key → M.rd g = L.rd g

theorem Lane.RolesStand.refl (L : Lane) : L.RolesStand L := ⟨rfl, rfl, fun _ _ => rfl⟩

theorem Lane.RolesStand.trans {L M N : Lane} (h : L.RolesStand M) (k : M.RolesStand N) : L.RolesStand N :=
  ⟨k.roles.trans h.roles, k.ret.trans h.ret, fun g hg => (k.rd g hg).trans (h.rd g hg)⟩

theorem Lane.wr_rolesStand (f : Fld) (v : Nat) (L : Lane) (hf : 0x200A0000 * 64 ≤ f.key) : L.RolesStand (L.wr f v) :=
  ⟨rfl, rfl, fun g hg => L.rd_wr_ne v (by unfold BelowHq at hg; omega)⟩

theorem Lane.RolesStand.when {L M : Lane} (h : L.RolesStand M) (b : Bool) {f : Lane → Lane} (hf : M.RolesStand (f M)) :
    L.RolesStand (M.when b f) := by
  cases b
  · exact h
  · exact h.trans hf

theorem Lane.RolesStand.ite {L M N : Lane} {c : Prop} [Decidable c] (hM : L.RolesStand M) (hN : L.RolesStand N) :
    L.RolesStand (if c then M else N) := by
  split
  · exact hM
  · exact hN

theorem Lane.each_rolesStand {α : Type} {f : α → Lane → Lane} (hf : ∀ x M, Lane.RolesStand M (f x M)) (xs : List α) (L : Lane) :
    L.RolesStand (L.each xs f) := by
  unfold Lane.each
  induction xs generalizing L with
  | nil => exact .refl L
  | cons x xs ih => exact (hf x L).trans (ih (f x L))

theorem Lane.Posts.rolesStand {L M : Lane} (h : L.Posts M) : L.RolesStand M := by
  refine ⟨by rw [h.frame], by rw [h.frame], fun g hg => h.rd g (not_postKey (.inl ?_))⟩
  unfold BelowHq at hg
  omega

/-- The authority registers lie in the host-queue block. -/
theorem Lane.wrAuth_rolesStand (f : Func) (v : Nat) (L : Lane) : L.RolesStand (L.wr (Reg.HQ_AUTH_SEL f.code) v) ∧
    L.RolesStand (L.wr (Reg.HQ_AUTH_OVR f.code) v) ∧ L.RolesStand (L.wr (Reg.HQ_AUTH_ADOPTED f.code) v) :=
  ⟨L.wr_rolesStand _ v (by simp only [Fld.key, Reg.HQ_AUTH_SEL]; omega), L.wr_rolesStand _ v (by simp only [Fld.key, Reg.HQ_AUTH_OVR]; omega),
    L.wr_rolesStand _ v (by simp only [Fld.key, Reg.HQ_AUTH_ADOPTED]; omega)⟩

/-- The engagements lie in the host-queue block. -/
theorem Lane.wrEngaged_rolesStand (h : Fin 4) (i : Nat) (b : Bool) (L : Lane) : L.RolesStand (L.wrBit (Reg.HQ_PORT_ENGAGED h.val) i b) :=
  L.wr_rolesStand _ _ (by simp only [Fld.key, Reg.HQ_PORT_ENGAGED]; omega)

theorem Lane.adopt_rolesStand (f : Func) (L : Lane) : L.RolesStand (L.adopt f) := by
  unfold Lane.adopt
  dsimp only
  generalize hK : ({ L with auth := _ } : Lane) = K
  have h : L.RolesStand K := hK ▸ ⟨rfl, rfl, fun _ _ => rfl⟩
  split
  · split
    · exact h.trans (((Lane.each_rolesStand (fun _ M => M.wrEngaged_rolesStand _ _ _) _ K).trans (Lane.wrAuth_rolesStand f _ _).2.1).trans
        (Lane.wrAuth_rolesStand f _ _).2.2)
    · exact h
  · exact h.trans (Lane.wrAuth_rolesStand f _ _).2.2
  · exact h

theorem Lane.override_rolesStand (a : AuthIn) (L : Lane) : L.RolesStand (L.override a) := by
  have hauth (v : Option Nat) : L.RolesStand { L with auth := vupd L.auth 0 fun x => { x with since := v } } := ⟨rfl, rfl, fun _ _ => rfl⟩
  unfold Lane.override
  dsimp only
  exact .ite (.ite (.ite ((hauth none).trans (Lane.wrAuth_rolesStand .steer _ _).2.1)
    (((hauth none).trans (Lane.wrAuth_rolesStand .steer _ _).2.1).when _
      (Lane.each_rolesStand (fun _ M => M.wrEngaged_rolesStand _ _ _) _ _))) (hauth _)) (hauth none)

theorem Lane.authorityNotices_rolesStand (f : Func) (was : List (Fin 4)) (L : Lane) : L.RolesStand (L.authorityNotices f was) :=
  Lane.each_rolesStand (fun _ M => (Lane.RolesStand.refl M).when _ (M.notice_posts _ _ _).rolesStand) _ L

/-- The evaluation of authority at a release (R439, R440). -/
theorem Lane.authority_rolesStand (f : Func) (a : AuthIn) (L : Lane) : L.RolesStand (L.authority f a) := by
  have hpark (ss : Lane → List (Nat × Word)) (M : Lane) : M.RolesStand (M.parkApply (ss M)) := ⟨rfl, rfl, fun _ _ => rfl⟩
  have h := ((L.adopt_rolesStand f).when (f == .steer) (Lane.override_rolesStand a _)).when (f == .park)
    (f := fun L => L.parkApply (L.sources .park a)) (hpark (fun L => L.sources .park a) _)
  unfold Lane.authority
  dsimp only
  split
  · exact h
  · exact h.trans ((Lane.wrAuth_rolesStand f _ _).1.trans (Lane.authorityNotices_rolesStand f _ _))

/-! ### The rotation of a committed swap (R48, R108) -/

/-- The three role fields rotate (R108). -/
def Lane.shiftRoles (f : Func) (L : Lane) : Lane :=
  ((L.wr (Reg.ROLE_FUNC_ACT f.code) (L.rd (Reg.ROLE_FUNC_STB f.code))).wr (Reg.ROLE_FUNC_STB f.code)
    (L.rd (Reg.ROLE_FUNC_ARB f.code))).wr (Reg.ROLE_FUNC_ARB f.code) (L.rd (Reg.ROLE_FUNC_ACT f.code))

/-- The swap is no longer committed nor due; the lane that was active is remembered (R103, R108). -/
def Lane.swapDone (f : Func) (act : Nat) (L : Lane) : Lane :=
  L.onFn f (fun x => { x with
    commit := none, eqxDue := false,
    former := ((LaneId.ofCode act).toList.map (fun l => (l, L.el))) ++ x.former.filter (fun e => decide (e.1.code ≠ act)) })

/-- The lane's own role follows, and a lane that becomes active begins (R102, R117). -/
def Lane.roleTaken (f : Func) (was : Nat) (L : Lane) : Lane :=
  (((L.stop (.eqxDue f)).stop (.watchdog f)).when (decide (1 ≤ was) && decide (was ≤ 3)) (Lane.setOwnRole f)).when
    (decide (was = 2)) (Lane.becomeActive f)

/-- A lane that was active sends nothing released from now on (R104). -/
def Lane.stopsSending (f : Func) (was : Nat) (L : Lane) : Lane :=
  L.when (decide (was = 1)) (Lane.onFn f (fun x => { x with stopSend := some (x.released - 1, L.el) }))

/-- What the lane that had the role `was` does at the rotation (R102, R104, R117). -/
def Lane.roleMoves (f : Func) (was : Nat) (L : Lane) : Lane := (L.roleTaken f was).stopsSending f was

/-- The rotation up to the commit of its history. -/
def Lane.rotated (f : Func) (L : Lane) : Lane :=
  ((L.shiftRoles f).swapDone f (L.rd (Reg.ROLE_FUNC_ACT f.code))).roleMoves f (L.role f)

/-- The history of the function, as the rotation raises it (R48). -/
def Lane.nextHistory (f : Func) (L : Lane) : History :=
  ⟨((vget L.ret.history f.ix).index + 1) % 3, ((vget L.ret.history f.ix).seq + 1) % 2 ^ 32⟩

theorem Lane.rotate_eq (f : Func) (L : Lane) : L.rotate f =
    let M := ((L.rotated f).rotateHistory f).wrBit Reg.ROLE_EQX_DONE f.code true
    { M with roles := { M.roles with lastSwap := some (M.releaseEl f) } } := rfl

/-- What the present release and the state of a swap are read from: the function in the ROLE block, the retained settings, the time. -/
def Lane.swapView (f : Func) (L : Lane) : (Option Nat × Bool × Nat) × Vector History 5 × TimeSt :=
  (((L.fn f).commit, (L.fn f).eqxDue, (L.fn f).released), L.ret.history, L.time)

theorem Lane.sliceAbort_swapView (f : Func) (L : Lane) : L.sliceAbort.swapView f = L.swapView f := by
  unfold Lane.sliceAbort
  dsimp only
  split
  · split <;> rfl
  · rfl

/-- A change of the numbers and stamps of a function leaves its swap as it is. -/
theorem Lane.onFn_swapView (f : Func) (g : RoleFn → RoleFn) (L : Lane)
    (hg : ∀ x, ((g x).commit, (g x).eqxDue, (g x).released) = (x.commit, x.eqxDue, x.released)) :
    (L.onFn f g).swapView f = L.swapView f := by
  have hfn : ((L.onFn f g).fn f) = g (L.fn f) := vget_vupd_same _ _ _
  unfold Lane.swapView
  rw [hfn, hg]
  rfl

theorem Lane.stopsSending_swapView (f : Func) (was : Nat) (L : Lane) : (L.stopsSending f was).swapView f = L.swapView f := by
  unfold Lane.stopsSending Lane.when
  split
  · exact L.onFn_swapView f _ fun _ => rfl
  · rfl

theorem Lane.roleMoves_swapView (f : Func) (was : Nat) (L : Lane) : (L.roleMoves f was).swapView f = L.swapView f := by
  refine (Lane.stopsSending_swapView f was _).trans ?_
  refine (Lane.when_proj _ (Lane.becomeActive f) (Lane.swapView f) (fun M => ?_) _).trans ?_
  · exact (Lane.sliceAbort_swapView f _).trans (M.onFn_swapView f _ fun _ => rfl)
  · exact Lane.when_proj _ (Lane.setOwnRole f) (Lane.swapView f) (fun _ => rfl) _

/-- A rotated function has no swap; its release, the histories and the time are as before. -/
theorem Lane.rotated_swapView (f : Func) (L : Lane) :
    (L.rotated f).swapView f = ((none, false, (L.fn f).released), L.ret.history, L.time) := by
  refine (Lane.roleMoves_swapView f _ _).trans ?_
  have hfn (act : Nat) (K : Lane) : ((K.swapDone f act).fn f) = _ := vget_vupd_same _ _ _
  unfold Lane.swapView
  rw [hfn]
  rfl

/-- Keys that the moves of a lane's own role write. -/
def RoleMoveKey (f : Func) (k : Nat) : Prop := k = (Reg.ROLE_FUNC_ROLE f.code).key ∨ SvcKey k

theorem Lane.roleMoves_rd (f : Func) (was : Nat) (L : Lane) {g : Fld} (hg : ¬RoleMoveKey f g.key) : (L.roleMoves f was).rd g = L.rd g := by
  have hrole : (Reg.ROLE_FUNC_ROLE f.code).key ≠ g.key := fun e => hg (.inl e.symm)
  refine (Lane.when_proj _ (Lane.onFn f _) (fun M => M.rd g) (fun _ => rfl) _).trans ?_
  refine (Lane.when_proj _ (Lane.becomeActive f) (fun M => M.rd g) (fun M => ?_) _).trans ?_
  · exact Lane.sliceAbort_rd _ g fun h => hg (.inr h)
  · exact Lane.when_proj _ (Lane.setOwnRole f) (fun M => M.rd g) (fun M => M.rd_wr_ne _ hrole) _

/-- Rotated role fields, when they hold lane codes (R108). -/
theorem Lane.shiftRoles_rd (f : Func) (L : Lane) (ha : L.rd (Reg.ROLE_FUNC_ACT f.code) < 4) (hs : L.rd (Reg.ROLE_FUNC_STB f.code) < 4)
    (hb : L.rd (Reg.ROLE_FUNC_ARB f.code) < 4) :
    (L.shiftRoles f).rd (Reg.ROLE_FUNC_ACT f.code) = L.rd (Reg.ROLE_FUNC_STB f.code) ∧
    (L.shiftRoles f).rd (Reg.ROLE_FUNC_STB f.code) = L.rd (Reg.ROLE_FUNC_ARB f.code) ∧
    (L.shiftRoles f).rd (Reg.ROLE_FUNC_ARB f.code) = L.rd (Reg.ROLE_FUNC_ACT f.code) := by
  have hkeys := roleFields_distinct f
  simp only [roleFields, List.pairwise_cons, List.forall_mem_cons] at hkeys
  obtain ⟨-, ⟨kas, kab, -⟩, ⟨ksb, -⟩, -⟩ := hkeys
  unfold Lane.shiftRoles
  refine ⟨?_, ?_, ?_⟩
  · rw [Lane.rd_wr_ne _ _ kab.symm, Lane.rd_wr_ne _ _ kas.symm, Lane.rd_wr_same]
    exact Nat.mod_eq_of_lt hs
  · rw [Lane.rd_wr_ne _ _ ksb.symm, Lane.rd_wr_same]
    exact Nat.mod_eq_of_lt hb
  · rw [Lane.rd_wr_same]
    exact Nat.mod_eq_of_lt ha

/-- The automatic commit leaves the histories (R39, R40). -/
theorem Lane.autoCommit_history (L : Lane) : L.autoCommit.ret.history = L.ret.history := by
  have hwake (M : Lane) : (M.pdWake 5 19).ret.history = M.ret.history := by
    unfold Lane.pdWake
    dsimp only
    split
    · rfl
    · split
      · exact Lane.when_proj _ (Lane.pdCount 5 19 _) (fun M => M.ret.history) (fun _ => rfl) _
      · rfl
  unfold Lane.autoCommit
  split
  · rfl
  · split
    · rfl
    · exact hwake _

/-- Fields that neither a reaction nor the entry of a mode writes. -/
def QuietKey (k : Nat) : Prop := ¬ReactKey k ∧ ¬ModeKey k

theorem Lane.autoCommit_rd (L : Lane) {g : Fld} (hg : QuietKey g.key) : L.autoCommit.rd g = L.rd g :=
  (Lane.autoCommit_reacts (.refl L)).regs _ hg.1 hg.2

/-- The history after a rotation, and what else the commit of it leaves (R48). -/
theorem Lane.rotateHistory_spec (f : Func) (L : Lane) : vget (L.rotateHistory f).ret.history f.ix = L.nextHistory f ∧
    (L.rotateHistory f).rd (Reg.ROLE_FUNC_ROT f.code) = (L.nextHistory f).index ∧ (L.rotateHistory f).roles = L.roles ∧
    (L.rotateHistory f).time = L.time ∧
    ∀ g : Fld, QuietKey g.key → (Reg.ROLE_FUNC_ROT f.code).key ≠ g.key → (L.rotateHistory f).rd g = L.rd g := by
  let K : Lane := (L.onRet fun r => { r with history := vupd r.history f.ix fun _ => L.nextHistory f }).wr (Reg.ROLE_FUNC_ROT f.code)
    (L.nextHistory f).index
  have heq : L.rotateHistory f = K.autoCommit := rfl
  have hreacts := Lane.autoCommit_reacts (.refl K)
  have hindex : (L.nextHistory f).index < 4 := by
    have : (L.nextHistory f).index < 3 := Nat.mod_lt _ (by decide)
    omega
  rw [heq]
  refine ⟨?_, ?_, hreacts.roles, hreacts.time, fun g hg hrot => (K.autoCommit_rd hg).trans (Lane.rd_wr_ne _ _ hrot)⟩
  · rw [K.autoCommit_history]
    exact vget_vupd_same _ _ _
  · rw [K.autoCommit_rd (by cases f <;> (unfold QuietKey ReactKey ModeKey; decide)), Lane.rd_wr_same]
    exact Nat.mod_eq_of_lt hindex

/-- The role fields that rotate are written by nothing else in a rotation. -/
theorem rotating_keys (f : Func) :
    ∀ g ∈ [Reg.ROLE_FUNC_ACT f.code, Reg.ROLE_FUNC_STB f.code, Reg.ROLE_FUNC_ARB f.code], QuietKey g.key ∧
      (Reg.ROLE_FUNC_ROT f.code).key ≠ g.key ∧ ¬RoleMoveKey f g.key ∧ Reg.ROLE_EQX_DONE.key ≠ g.key := by
  unfold QuietKey ReactKey ModeKey RoleMoveKey SvcKey
  cases f <;> decide

/-- What a rotation leaves: the roles rotated, the history raised, no swap committed or due, DONE set, the instant of the swap kept
(R48, R107, R108). -/
structure Lane.Rotated (f : Func) (L R : Lane) : Prop where
  act : R.rd (Reg.ROLE_FUNC_ACT f.code) = L.rd (Reg.ROLE_FUNC_STB f.code)
  stb : R.rd (Reg.ROLE_FUNC_STB f.code) = L.rd (Reg.ROLE_FUNC_ARB f.code)
  arb : R.rd (Reg.ROLE_FUNC_ARB f.code) = L.rd (Reg.ROLE_FUNC_ACT f.code)
  rot : R.rd (Reg.ROLE_FUNC_ROT f.code) = (L.nextHistory f).index
  history : vget R.ret.history f.ix = L.nextHistory f
  commit : (R.fn f).commit = none
  due : (R.fn f).eqxDue = false
  released : (R.fn f).released = (L.fn f).released
  done : R.bitOf Reg.ROLE_EQX_DONE f.code = true
  swap : R.roles.lastSwap = some (L.releaseEl f)

theorem Lane.rotate_rotated (f : Func) (L : Lane) (ha : L.rd (Reg.ROLE_FUNC_ACT f.code) < 3) (hs : L.rd (Reg.ROLE_FUNC_STB f.code) < 3)
    (hb : L.rd (Reg.ROLE_FUNC_ARB f.code) < 3) : L.Rotated f (L.rotate f) := by
  have hview := L.rotated_swapView f
  obtain ⟨hact, hstb, harb⟩ := L.shiftRoles_rd f (by omega) (by omega) (by omega)
  have hmoved (g : Fld) (hg : ¬RoleMoveKey f g.key) : (L.rotated f).rd g = (L.shiftRoles f).rd g := Lane.roleMoves_rd f _ _ hg
  rw [L.rotate_eq f]
  generalize L.rotated f = K at hview hmoved
  simp only [Lane.swapView, Prod.mk.injEq] at hview
  obtain ⟨⟨hcommit, hdue, hreleased⟩, hhist, htime⟩ := hview
  obtain ⟨hhistory, hrot, hroles, htime', hrd⟩ := K.rotateHistory_spec f
  have hnext : K.nextHistory f = L.nextHistory f := by rw [Lane.nextHistory, hhist]; rfl
  generalize hH : K.rotateHistory f = H at hhistory hrot hroles htime' hrd
  have hfn : H.fn f = K.fn f := congrArg (fun r : Roles => vget r.fn f.ix) hroles
  have hrole (g : Fld) (hg : g ∈ [Reg.ROLE_FUNC_ACT f.code, Reg.ROLE_FUNC_STB f.code, Reg.ROLE_FUNC_ARB f.code]) :
      (H.wrBit Reg.ROLE_EQX_DONE f.code true).rd g = (L.shiftRoles f).rd g := by
    obtain ⟨hquiet, hrotk, hmove, hdone⟩ := rotating_keys f g hg
    exact (Lane.rd_wr_ne _ _ hdone).trans ((hrd g hquiet hrotk).trans (hmoved g hmove))
  have hlast : (H.wrBit Reg.ROLE_EQX_DONE f.code true).releaseEl f = L.releaseEl f := by
    show H.time.elapsed / 2 ^ 48 - (H.time.dev / 2 ^ 48 - (H.fn f).released) = _
    rw [hfn, htime', htime, hreleased]
    rfl
  exact
    { act := (hrole _ (by simp)).trans hact
      stb := (hrole _ (by simp)).trans hstb
      arb := (hrole _ (by simp)).trans harb
      rot := (Lane.rd_wr_ne _ _ (by cases f <;> decide)).trans (hrot.trans (congrArg History.index hnext))
      history := hhistory.trans hnext
      commit := (congrArg RoleFn.commit hfn).trans hcommit
      due := (congrArg RoleFn.eqxDue hfn).trans hdue
      released := (congrArg RoleFn.released hfn).trans hreleased
      done := by
        refine (H.bitOf_wrBit Reg.ROLE_EQX_DONE f.code f.code true).trans ?_
        simp [f.code_lt, Reg.ROLE_EQX_DONE]
      swap := congrArg some hlast }

/-! ### The evaluation of a release (R89, R98, R107, R439) -/

/-- A release after its rotation: watchdog, proposal and authority. -/
def Lane.evaluates (f : Func) (sr br : Nat) (a : AuthIn) (L : Lane) : Lane :=
  ((L.startWatchdog f).when ((L.startWatchdog f).mayPropose f sr br) (Lane.wrBit Reg.ROLE_ACCUSE_ROTATE f.code true)).authority f a

/-- A release is stamped. -/
def Lane.stampRelease (f : Func) (L : Lane) : Lane := L.onFn f fun x => { x with released := L.releaseTime f }

theorem Lane.release'_eq (f : Func) (sr br : Nat) (a : AuthIn) (L : Lane) :
    L.release' f sr br a = ((L.stampRelease f).tryRotate f).evaluates f sr br a := rfl

/-- A committed swap that is 20 µs old rotates; its roles are lane codes (R108). -/
theorem Lane.tryRotate_of_committed {f : Func} {L : Lane} {e : Nat} (hc : (L.fn f).commit = some e) (he : e + 20000 ≤ L.releaseEl f)
    (ha : L.rd (Reg.ROLE_FUNC_ACT f.code) < 3) (hs : L.rd (Reg.ROLE_FUNC_STB f.code) < 3) (hb : L.rd (Reg.ROLE_FUNC_ARB f.code) < 3) :
    L.tryRotate f = L.rotate f := by
  unfold Lane.tryRotate
  rw [hc]
  exact (if_pos he).trans (if_pos ⟨by omega, by omega, by omega⟩)

/-- Without a committed swap nothing rotates. -/
theorem Lane.tryRotate_of_none {f : Func} {L : Lane} (hc : (L.fn f).commit = none) : L.tryRotate f = L := by
  unfold Lane.tryRotate
  rw [hc]

theorem Lane.timerAt_setTimer_ne {t u : Timer} (h : t ≠ u) (v : Nat) (L : Lane) : (L.setTimer t v).timerAt u = L.timerAt u := by
  have hcons : (L.setTimer t v).timerAt u = (L.stop t).timerAt u := by simp [Lane.timerAt, Lane.setTimer, Lane.stop, h]
  rw [hcons, Lane.timerAt_stop, if_neg h]

/-- The watchdog of a function has no part in its proposal (R98, R107). -/
theorem Lane.mayPropose_startWatchdog (f : Func) (sr br : Nat) (L : Lane) :
    (L.startWatchdog f).mayPropose f sr br = L.mayPropose f sr br := by
  have hset (v : Nat) : (L.setTimer (.watchdog f) v).mayPropose f sr br = L.mayPropose f sr br := by
    have hfresh (s : Side) : (L.setTimer (.watchdog f) v).fresh s = L.fresh s := by
      unfold Lane.fresh Lane.running Lane.due
      rw [Lane.timerAt_setTimer_ne (t := .watchdog f) (u := .status s) nofun]
      rfl
    have hpeers : (L.setTimer (.watchdog f) v).peers = L.peers := by
      unfold Lane.peers
      simp only [hfresh]
    unfold Lane.mayPropose Lane.barredFrom
    rw [hpeers]
    rfl
  unfold Lane.startWatchdog Lane.when
  dsimp only
  split
  · exact hset _
  · rfl

/-- The evaluation leaves roles, retained settings and the registers below the host queues but for ROTATE, which shows the
proposal. -/
theorem Lane.evaluates_spec (f : Func) (sr br : Nat) (a : AuthIn) (L : Lane) : (L.evaluates f sr br a).roles = L.roles ∧
    (L.evaluates f sr br a).ret = L.ret ∧
    (∀ g : Fld, BelowHq g.key → Reg.ROLE_ACCUSE_ROTATE.key ≠ g.key → (L.evaluates f sr br a).rd g = L.rd g) ∧
    (L.evaluates f sr br a).bitOf Reg.ROLE_ACCUSE_ROTATE f.code = (L.bitOf Reg.ROLE_ACCUSE_ROTATE f.code || L.mayPropose f sr br) := by
  have hw : (L.startWatchdog f).roles = L.roles ∧ (L.startWatchdog f).ret = L.ret ∧ (L.startWatchdog f).regs = L.regs := by
    unfold Lane.startWatchdog Lane.when
    dsimp only
    split <;> exact ⟨rfl, rfl, rfl⟩
  have hwrd (g : Fld) : (L.startWatchdog f).rd g = L.rd g := congrArg (fun t => Tab.get 0 t g.key) hw.2.2
  unfold Lane.evaluates
  rw [L.mayPropose_startWatchdog f sr br]
  generalize L.startWatchdog f = W at hw hwrd
  obtain ⟨hroles, hret, -⟩ := hw
  have hauth := (W.when (L.mayPropose f sr br) (Lane.wrBit Reg.ROLE_ACCUSE_ROTATE f.code true)).authority_rolesStand f a
  have hkeep {β : Type} (p : Lane → β) (hp : ∀ v, p (W.wr Reg.ROLE_ACCUSE_ROTATE v) = p W) :
      p (W.when (L.mayPropose f sr br) (Lane.wrBit Reg.ROLE_ACCUSE_ROTATE f.code true)) = p W := by
    unfold Lane.when
    split
    · exact hp _
    · rfl
  refine ⟨(hauth.roles.trans (hkeep Lane.roles fun _ => rfl)).trans hroles, (hauth.ret.trans (hkeep Lane.ret fun _ => rfl)).trans hret,
    fun g hg hr => ((hauth.rd g hg).trans (hkeep (fun M => M.rd g) fun v => W.rd_wr_ne v hr)).trans (hwrd g), ?_⟩
  rw [Lane.bitOf, hauth.rd _ (by unfold BelowHq; decide)]
  cases hmay : L.mayPropose f sr br
  · rw [Lane.when_of_false _ _ rfl, hwrd, Bool.or_false]
    rfl
  · rw [Lane.when_of_true _ _ rfl, Bool.or_true]
    refine (W.bitOf_wrBit Reg.ROLE_ACCUSE_ROTATE f.code f.code true).trans ?_
    simp [f.code_lt, Reg.ROLE_ACCUSE_ROTATE]

/-- A release of a function that lane firmware runs is stamped, rotates a committed swap and evaluates (R89). -/
theorem outerLoopRelease_releases (l : LaneId) (dt : Nat) (f : Func) (sr br : Nat) (a : AuthIn) : Does (.outerLoopRelease l dt f sr br a)
    (fun L => L.firmware = true ∧ L.present f = true ∧ (L.pass dt).releaseTime f ≠ (L.fn f).released)
    (fun L M => M = (((L.pass dt).stampRelease f).tryRotate f).evaluates f sr br a) := by
  refine does_of (fun L => (L.pass dt).when ((L.pass dt).firmware && (L.pass dt).present f &&
    decide ((L.pass dt).releaseTime f ≠ ((L.pass dt).fn f).released)) (Lane.release' f sr br a)) (fun _ => rfl) fun L h => ?_
  obtain ⟨hfirmware, hpresent, hnew⟩ := h
  have hready : ((L.pass dt).firmware && (L.pass dt).present f && decide ((L.pass dt).releaseTime f ≠ ((L.pass dt).fn f).released)) = true :=
    Bool.and_eq_true_iff.mpr ⟨Bool.and_eq_true_iff.mpr ⟨hfirmware, hpresent⟩, decide_eq_true hnew⟩
  exact (Lane.when_of_true _ _ hready).trans (Lane.release'_eq f sr br a _)

/-- A stamped release: the function's release is the new one, its swap and everything outside the function are as before. -/
theorem Lane.stampRelease_fn (f : Func) (L : Lane) : (L.stampRelease f).fn f = { L.fn f with released := L.releaseTime f } :=
  vget_vupd_same _ _ _

/-- A committed swap that is 20 µs old rotates at the release (R107, R108). -/
theorem outerLoopRelease_rotates (l : LaneId) (dt : Nat) (f : Func) (sr br : Nat) (a : AuthIn) (e : Nat) : Does (.outerLoopRelease l dt f sr br a)
    (fun L => L.firmware = true ∧ L.present f = true ∧ (L.pass dt).releaseTime f ≠ (L.fn f).released ∧ (L.fn f).commit = some e ∧
      e + 20000 ≤ ((L.pass dt).stampRelease f).releaseEl f ∧
      L.rd (Reg.ROLE_FUNC_ACT f.code) < 3 ∧ L.rd (Reg.ROLE_FUNC_STB f.code) < 3 ∧ L.rd (Reg.ROLE_FUNC_ARB f.code) < 3)
    (fun L M => M.rd (Reg.ROLE_FUNC_ACT f.code) = L.rd (Reg.ROLE_FUNC_STB f.code) ∧ M.rd (Reg.ROLE_FUNC_STB f.code) = L.rd (Reg.ROLE_FUNC_ARB f.code) ∧
      M.rd (Reg.ROLE_FUNC_ARB f.code) = L.rd (Reg.ROLE_FUNC_ACT f.code) ∧ (M.fn f).commit = none ∧ (M.fn f).eqxDue = false ∧
      vget M.ret.history f.ix = L.nextHistory f ∧ M.rd (Reg.ROLE_FUNC_ROT f.code) = (L.nextHistory f).index ∧
      M.bitOf Reg.ROLE_EQX_DONE f.code = true ∧ (M.fn f).released = (L.pass dt).releaseTime f ∧
      M.roles.lastSwap = some (((L.pass dt).stampRelease f).releaseEl f)) := by
  refine (outerLoopRelease_releases l dt f sr br a).mono (fun L ⟨hf, hp, hn, _⟩ => ⟨hf, hp, hn⟩) ?_
  rintro L _ ⟨-, -, -, hc, he, ha, hs, hb⟩ rfl
  have hfn := (L.pass dt).stampRelease_fn f
  have hc' : (((L.pass dt).stampRelease f).fn f).commit = some e := by rw [hfn]; exact hc
  rw [Lane.tryRotate_of_committed hc' he ha hs hb]
  have hrotated := ((L.pass dt).stampRelease f).rotate_rotated f ha hs hb
  obtain ⟨hroles, hret, hrd, -⟩ := (((L.pass dt).stampRelease f).rotate f).evaluates_spec f sr br a
  have hkeys : ∀ g ∈ [Reg.ROLE_FUNC_ACT f.code, Reg.ROLE_FUNC_STB f.code, Reg.ROLE_FUNC_ARB f.code, Reg.ROLE_FUNC_ROT f.code,
      Reg.ROLE_EQX_DONE], BelowHq g.key ∧ Reg.ROLE_ACCUSE_ROTATE.key ≠ g.key := by
    unfold BelowHq
    cases f <;> decide
  have hrd' (g : Fld) (hg : g ∈ [Reg.ROLE_FUNC_ACT f.code, Reg.ROLE_FUNC_STB f.code, Reg.ROLE_FUNC_ARB f.code, Reg.ROLE_FUNC_ROT f.code,
      Reg.ROLE_EQX_DONE]) := hrd g (hkeys g hg).1 (hkeys g hg).2
  have hfn' := congrArg (fun r : Roles => vget r.fn f.ix) hroles
  refine ⟨(hrd' _ (by simp)).trans hrotated.act, (hrd' _ (by simp)).trans hrotated.stb, (hrd' _ (by simp)).trans hrotated.arb,
    (congrArg RoleFn.commit hfn').trans hrotated.commit, (congrArg RoleFn.eqxDue hfn').trans hrotated.due,
    (congrArg (fun r : Retained => vget r.history f.ix) hret).trans hrotated.history, (hrd' _ (by simp)).trans hrotated.rot, ?_,
    (congrArg RoleFn.released hfn').trans (hrotated.released.trans (congrArg RoleFn.released hfn)), (congrArg Roles.lastSwap hroles).trans hrotated.swap⟩
  rw [Lane.bitOf, hrd' _ (by simp)]
  exact hrotated.done

/-- With no swap committed a release leaves the roles and shows the proposal (R89, R107). -/
theorem outerLoopRelease_evaluates (l : LaneId) (dt : Nat) (f : Func) (sr br : Nat) (a : AuthIn) : Does (.outerLoopRelease l dt f sr br a)
    (fun L => L.firmware = true ∧ L.present f = true ∧ (L.pass dt).releaseTime f ≠ (L.fn f).released ∧ (L.fn f).commit = none)
    (fun L M => (M.fn f).released = (L.pass dt).releaseTime f ∧ M.rd (Reg.ROLE_FUNC_ACT f.code) = L.rd (Reg.ROLE_FUNC_ACT f.code) ∧
      M.rd (Reg.ROLE_FUNC_STB f.code) = L.rd (Reg.ROLE_FUNC_STB f.code) ∧ M.rd (Reg.ROLE_FUNC_ARB f.code) = L.rd (Reg.ROLE_FUNC_ARB f.code) ∧
      vget M.ret.history f.ix = vget L.ret.history f.ix ∧ M.mode f = L.mode f ∧
      M.bitOf Reg.ROLE_ACCUSE_ROTATE f.code = (L.bitOf Reg.ROLE_ACCUSE_ROTATE f.code || ((L.pass dt).stampRelease f).mayPropose f sr br)) := by
  refine (outerLoopRelease_releases l dt f sr br a).mono (fun L ⟨hf, hp, hn, _⟩ => ⟨hf, hp, hn⟩) ?_
  rintro L _ ⟨-, -, -, hc⟩ rfl
  have hfn := (L.pass dt).stampRelease_fn f
  have hc' : (((L.pass dt).stampRelease f).fn f).commit = none := by rw [hfn]; exact hc
  rw [Lane.tryRotate_of_none hc']
  obtain ⟨hroles, hret, hrd, hrotate⟩ := ((L.pass dt).stampRelease f).evaluates_spec f sr br a
  have hkeys : ∀ g ∈ [Reg.ROLE_FUNC_ACT f.code, Reg.ROLE_FUNC_STB f.code, Reg.ROLE_FUNC_ARB f.code, Reg.ROLE_FUNC_MODE f.code],
      BelowHq g.key ∧ Reg.ROLE_ACCUSE_ROTATE.key ≠ g.key := by
    unfold BelowHq
    cases f <;> decide
  have hrd' (g : Fld) (hg : g ∈ [Reg.ROLE_FUNC_ACT f.code, Reg.ROLE_FUNC_STB f.code, Reg.ROLE_FUNC_ARB f.code, Reg.ROLE_FUNC_MODE f.code]) :=
    hrd g (hkeys g hg).1 (hkeys g hg).2
  have hfn' := congrArg (fun r : Roles => vget r.fn f.ix) hroles
  exact ⟨(congrArg RoleFn.released hfn').trans (congrArg RoleFn.released hfn), hrd' _ (by simp), hrd' _ (by simp), hrd' _ (by simp),
    congrArg (fun r : Retained => vget r.history f.ix) hret, hrd' _ (by simp), hrotate⟩

/-! ### Swaps that fall due and are given up (R107, R109) -/

/-- What a swap that is given up leaves (R109, R118). -/
theorem Lane.giveUp_spec (f : Func) (L : Lane) : ((L.giveUp f).fn f).eqxDue = false ∧
    (L.giveUp f).rd Reg.ROLE_EQX_DEFERRED = satUp 255 (L.rd Reg.ROLE_EQX_DEFERRED) 1 ∧
    (L.giveUp f).bitOf Reg.ROLE_ACCUSE_ROTATE f.code = false ∧ (L.giveUp f).running (.eqxDue f) = false ∧ (L.giveUp f).el = L.el := by
  let K : Lane := (L.onFn f (fun x => { x with eqxDue := false })).stop (.eqxDue f)
  have heq : L.giveUp f = (K.count Reg.ROLE_EQX_DEFERRED 1).wrBit Reg.ROLE_ACCUSE_ROTATE f.code false := rfl
  refine ⟨congrArg RoleFn.eqxDue (vget_vupd_same _ _ _), ?_, ?_, Lane.running_stop_same _ (L.onFn f _), rfl⟩
  · rw [heq]
    exact (Lane.rd_wr_ne _ _ (by decide)).trans (K.rd_count_same _ _)
  · rw [heq, Lane.bitOf_wrBit]
    simp

/-- A function's swap falls due; one that is still due from before is given up first (R107, R109). -/
def Lane.fallsDue (f : Func) (L : Lane) : Lane :=
  ((L.when (L.fn f).eqxDue (Lane.giveUp f)).onFn f (fun x => { x with eqxDue := true })).restart (.eqxDue f)

/-- A swap is due since an instant. -/
def Lane.DueSince (f : Func) (t : Nat) (M : Lane) : Prop := (M.fn f).eqxDue = true ∧ M.timerAt (.eqxDue f) = some t

theorem Lane.fallsDue_el (f : Func) (L : Lane) : (L.fallsDue f).el = L.el :=
  Lane.when_proj _ (Lane.giveUp f) Lane.el (fun M => (M.giveUp_spec f).2.2.2.2) L

theorem Lane.fallsDue_same (f : Func) (L : Lane) : (L.fallsDue f).DueSince f L.el := by
  refine ⟨congrArg RoleFn.eqxDue (vget_vupd_same _ _ _), ?_⟩
  rw [Lane.fallsDue, Lane.timerAt_restart, if_pos rfl]
  exact congrArg some (Lane.when_proj _ (Lane.giveUp f) Lane.el (fun M => (M.giveUp_spec f).2.2.2.2) L)

/-- The swap of another function that falls due changes nothing of this one's. -/
theorem Lane.fallsDue_ne {f g : Func} (h : g ≠ f) (L : Lane) :
    (L.fallsDue g).fn f = L.fn f ∧ (L.fallsDue g).timerAt (.eqxDue f) = L.timerAt (.eqxDue f) := by
  have hix : g.ix ≠ f.ix := fun e => h (by revert e; cases f <;> cases g <;> decide)
  have htimer : Timer.eqxDue g ≠ Timer.eqxDue f := fun e => h (Timer.eqxDue.inj e)
  have hgive (M : Lane) : (M.giveUp g).fn f = M.fn f := vget_vupd_ne _ _ hix
  have hgive' (M : Lane) : (M.giveUp g).timerAt (.eqxDue f) = M.timerAt (.eqxDue f) :=
    (Lane.timerAt_stop (.eqxDue g) (.eqxDue f) (M.onFn g fun x => { x with eqxDue := false })).trans (if_neg htimer)
  constructor
  · exact (vget_vupd_ne _ _ hix).trans (Lane.when_proj _ (Lane.giveUp g) (fun M => M.fn f) hgive L)
  · rw [Lane.fallsDue, Lane.timerAt_restart, if_neg htimer]
    exact Lane.when_proj _ (Lane.giveUp g) (fun M => M.timerAt (.eqxDue f)) hgive' L

/-- After every listed function has fallen due each of them is due from now. -/
theorem Lane.each_fallsDue {fs : List Func} {f : Func} (hf : f ∈ fs) (L : Lane) : (L.each fs Lane.fallsDue).DueSince f L.el := by
  have hel : (L.each fs Lane.fallsDue).el = L.el := Lane.each_proj fs _ Lane.el (fun g _ M => M.fallsDue_el g) L
  refine hel ▸ Lane.each_reaches (P := fun M => M.DueSince f M.el) (f := Lane.fallsDue) (fun M => ?_) (fun g M hM => ?_) hf L
  · rw [M.fallsDue_el f]
    exact M.fallsDue_same f
  · rw [M.fallsDue_el g]
    by_cases hg : g = f
    · rw [hg]
      exact M.fallsDue_same f
    · obtain ⟨hfn, htimer⟩ := M.fallsDue_ne hg
      exact ⟨(congrArg RoleFn.eqxDue hfn).trans hM.1, htimer.trans hM.2⟩

/-- A due moment has come (R107). -/
def Lane.equinox (k : Nat) (L : Lane) : Lane :=
  let L := { L with roles := { L.roles with eqxSeen := k } }
  L.each L.functions Lane.fallsDue

/-- A due moment is kept as seen. -/
theorem Lane.equinox_seen (k : Nat) (L : Lane) : (L.equinox k).roles.eqxSeen = k := by
  have hstep (f : Func) (M : Lane) : (M.fallsDue f).roles.eqxSeen = M.roles.eqxSeen :=
    Lane.when_proj _ (Lane.giveUp f) (fun M => M.roles.eqxSeen) (fun _ => rfl) M
  exact Lane.each_proj L.functions Lane.fallsDue (fun M => M.roles.eqxSeen) (fun f _ M => hstep f M) _

/-- Every present function is due from then on. -/
theorem Lane.equinox_due (k : Nat) (L : Lane) {f : Func} (hf : f ∈ L.functions) : (L.equinox k).DueSince f L.el :=
  Lane.each_fallsDue (L := { L with roles := { L.roles with eqxSeen := k } }) hf

/-- Device time has passed a multiple of EQX_S since the last due moment (R107). -/
def Lane.equinoxIfDue (L : Lane) : Lane :=
  let k := L.now / (max 1 L.img.eqxS * 1000000000)
  L.when (L.firmware && decide (L.roles.eqxSeen < k)) (Lane.equinox k)

theorem Lane.equinoxIfDue_of {L : Lane} {k : Nat} (hk : L.now / (max 1 L.img.eqxS * 1000000000) = k) (hf : L.firmware = true)
    (hs : L.roles.eqxSeen < k) : L.equinoxIfDue = L.equinox k := by
  unfold Lane.equinoxIfDue
  rw [hk]
  exact Lane.when_of_true _ _ (by simp [hf, hs])

/-- At a due moment the swap of every present function falls due (R107, R109). -/
theorem equinoxDue_falls (l : LaneId) (dt : Nat) : Does (.equinoxDue l dt)
    (fun L => L.firmware = true ∧ L.roles.eqxSeen < (L.pass dt).now / (max 1 L.img.eqxS * 1000000000))
    (fun L M => M.roles.eqxSeen = (L.pass dt).now / (max 1 L.img.eqxS * 1000000000) ∧
      ∀ f ∈ L.functions, (M.fn f).eqxDue = true ∧ M.timerAt (.eqxDue f) = some (L.pass dt).el) := by
  refine does_of (fun L => (L.pass dt).equinoxIfDue) (fun _ => rfl) fun L h => ?_
  obtain ⟨hfirmware, hseen⟩ := h
  have himg : (L.pass dt).img = L.img := rfl
  have hfunctions : (L.pass dt).functions = L.functions := rfl
  generalize hk : (L.pass dt).now / (max 1 L.img.eqxS * 1000000000) = k at hseen ⊢
  rw [Lane.equinoxIfDue_of (L := L.pass dt) (himg ▸ hk) hfirmware hseen]
  exact ⟨Lane.equinox_seen _ _, fun f hf => (L.pass dt).equinox_due k (hfunctions ▸ hf)⟩

/-- A swap that has been due for EQX_S is given up (R109). -/
theorem equinoxGiveUp_gives (l : LaneId) (dt : Nat) (f : Func) : Does (.equinoxGiveUp l dt f)
    (fun L => (L.fn f).eqxDue = true ∧ (L.pass dt).due (.eqxDue f) (L.img.eqxS * 1000000000) = true)
    (fun L M => M = (L.pass dt).giveUp f) := by
  refine does_of (fun L => (L.pass dt).when (((L.pass dt).fn f).eqxDue && (L.pass dt).due (.eqxDue f) ((L.pass dt).img.eqxS * 1000000000))
    (Lane.giveUp f)) (fun _ => rfl) fun L h => ?_
  obtain ⟨hdue, htime⟩ := h
  exact Lane.when_of_true _ _ (Bool.and_eq_true_iff.mpr ⟨hdue, htime⟩)

/-- Settles O12: a release with and without a committed swap, the due moment, and the swap that is given up. -/
theorem equinoxAndRelease : Obligations.equinox_and_release :=
  ⟨outerLoopRelease_rotates, outerLoopRelease_evaluates, equinoxDue_falls, fun l dt f => (equinoxGiveUp_gives l dt f).mono (fun _ h => h) (by
    rintro L _ - rfl
    obtain ⟨hdue, hcount, hbit, htimer, -⟩ := (L.pass dt).giveUp_spec f
    exact ⟨hdue, hcount, hbit, htimer⟩)⟩

end Sys2Proof.Machine


namespace Sys2Proof.Machine

/-! ### Where the answers to a host lie (R433, R436) -/

/-- The fields that say where the descriptors of a queue lie: its base, and the features of its port (R433). -/
def PlaceKey (k : Nat) : Prop :=
  (0x20000040 ≤ k / 64 ∧ k / 64 < 0x20000080) ∨ ∃ q : Fin 16, k = (Reg.HQ_BASE q.val).key

theorem placeKey_hostFeat (h : Fin 4) {n : Nat} (hn : n < 4) : PlaceKey (Reg.SYS_HOSTFEAT h.val n).key := by
  left
  simp only [Reg.SYS_HOSTFEAT, Fld.key]
  omega

theorem not_postKey_of_place {k : Nat} (h : PlaceKey k) : ¬PostKey k := by
  obtain h | ⟨q, rfl⟩ := h
  · exact not_postKey (.inl (by omega))
  · rintro ⟨p, hp⟩
    simp only [Reg.HQ_PTR_TAIL, Reg.HQ_PTR_HEAD, Reg.HQ_STAT_USED, Reg.HQ_STAT_FULL, Reg.HQ_BASE, Fld.key] at hp
    omega

/-- Between two states of a lane every queue has kept its ring. -/
structure Lane.SamePlaces (L K : Lane) : Prop where
  img : K.img = L.img
  rd : ∀ g : Fld, PlaceKey g.key → K.rd g = L.rd g

theorem Lane.SamePlaces.trans {L K M : Lane} (h : L.SamePlaces K) (k : K.SamePlaces M) : L.SamePlaces M :=
  ⟨k.img.trans h.img, fun g hg => (k.rd g hg).trans (h.rd g hg)⟩

theorem Lane.SamePlaces.hostSet {L K : Lane} (h : L.SamePlaces K) (p : Fin 4) : K.hostSet p = L.hostSet p := by
  unfold Lane.hostSet
  rw [h.rd _ (placeKey_hostFeat p (by decide)), h.rd _ (placeKey_hostFeat p (by decide)), h.rd _ (placeKey_hostFeat p (by decide)), h.rd _ (placeKey_hostFeat p (by decide))]

theorem Lane.SamePlaces.effDepth {L K : Lane} (h : L.SamePlaces K) (q : Fin 16) : K.effDepth q = L.effDepth q := by
  simp only [Lane.effDepth, h.img, h.hostSet]

theorem Lane.SamePlaces.slotAddr {L K : Lane} (h : L.SamePlaces K) (q : Fin 16) (i : Nat) : K.slotAddr q i = L.slotAddr q i := by
  rw [Lane.slotAddr, Lane.slotAddr, h.effDepth, h.rd _ (.inr ⟨q, rfl⟩)]

theorem Lane.SamePlaces.replyQueue {L K : Lane} (h : L.SamePlaces K) (p : Fin 4) : K.replyQueue p = L.replyQueue p := by
  rw [Lane.replyQueue, Lane.replyQueue, h.img]

/-- What is neither a register, nor memory, nor a queue, an output or a host port stands after descriptors have been put on queues. -/
theorem Lane.Posts.keeps {L M : Lane} (h : L.Posts M) {β : Type} (p : Lane → β)
    (hp : p { L with regs := M.regs, sram := M.sram, queue := M.queue, out := M.out, host := M.host, isobus := M.isobus } = p L) :
    p M = p L := by
  have hk := congrArg p h.frame
  exact hk.trans hp

theorem Lane.SamePlaces.of_posts {L K : Lane} (h : L.Posts K) : L.SamePlaces K :=
  ⟨h.keeps Lane.img rfl, fun g hg => h.rd g (not_postKey_of_place hg)⟩

/-- Between two states of a lane every queue has kept its ring and what stands in it. -/
structure Lane.SameRings (L K : Lane) : Prop where
  places : L.SamePlaces K
  queue : K.queue = L.queue
  used : ∀ q : Fin 16, K.rd (Reg.HQ_STAT_USED q.val) = L.rd (Reg.HQ_STAT_USED q.val)

theorem Lane.SameRings.refl (L : Lane) : L.SameRings L := ⟨⟨rfl, fun _ _ => rfl⟩, rfl, fun _ => rfl⟩

/-- A field outside the registers that tell of the rings. -/
def OffRings (k : Nat) : Prop := (k / 64 < 0x20000040 ∨ 0x20000080 ≤ k / 64) ∧ (k / 64 < 0x200A0004 ∨ 0x200A0200 ≤ k / 64)

/-- A write of another register keeps the rings. -/
theorem Lane.SameRings.wr {L K : Lane} (h : L.SameRings K) (f : Fld) (v : Nat) (hf : OffRings f.key) : L.SameRings (K.wr f v) := by
  unfold OffRings at hf
  refine ⟨⟨h.places.img, fun g hg => (Lane.rd_wr_ne _ _ ?_).trans (h.places.rd g hg)⟩, h.queue, fun q => (Lane.rd_wr_ne _ _ ?_).trans (h.used q)⟩
  · rintro e
    rw [← e] at hg
    obtain hg | ⟨q, hg⟩ := hg
    · omega
    · simp only [Reg.HQ_BASE, Fld.key] at hg hf
      omega
  · simp only [Reg.HQ_STAT_USED, Fld.key] at hf ⊢
    omega

theorem Lane.SameRings.queueFree {L K : Lane} (h : L.SameRings K) (q : Fin 16) : K.queueFree q = L.queueFree q := by
  rw [Lane.queueFree, Lane.queueFree, h.used, h.places.effDepth]

/-- The answer to a command with status and arguments lies in the slot that was the next one of its queue in an earlier state of the
lane. -/
def Lane.AnswerLies (L M : Lane) (k : HostCmd) (op status : Nat) (args : List Byte) : Prop :=
  ∀ q : Fin 16, L.replyQueue k.port = some q → L.queueFree q = true →
    M.sramBytes (L.slotAddr q (vget L.queue q).next) 64 = descrBytes ⟨op, 1, k.tag % 65536, (vget L.queue q).next, status, args⟩

/-- An answer that fits its descriptor lies in the next slot of the port's queue (R432, R436). -/
theorem Lane.SameRings.answerLies {L K : Lane} (h : L.SameRings K) (k : HostCmd) {op status : Nat} (args : List Byte) (hop : op < 256)
    (hstatus : status < 65536) : L.AnswerLies (K.respond k op status args) k op status ((args ++ List.replicate 48 0).take 48) := by
  intro q hq hfree
  have ha := K.respond_answers k op status args
  simp only [Lane.Answers, h.places.replyQueue, hq, h.queueFree, hfree, if_true] at ha
  obtain ⟨-, -, hslot, -⟩ := ha
  rw [h.queue, h.places.slotAddr, Nat.mod_eq_of_lt hop, Nat.mod_eq_of_lt hstatus] at hslot
  exact hslot

/-- An answer changes no host port but its own. -/
theorem Lane.respond_host_ne (L : Lane) (k : HostCmd) (op status : Nat) (args : List Byte) {h : Fin 4} (hh : h ≠ k.port) :
    vget (L.respond k op status args).host h = vget L.host h := by
  have ha := L.respond_answers k op status args
  generalize L.respond k op status args = M at ha
  unfold Lane.Answers at ha
  split at ha
  next q hq =>
    have hport : (vget L.img.queue q).port = k.port.val := by
      have := List.find?_some hq
      simp only [Bool.and_eq_true, decide_eq_true_eq] at this
      exact this.1
    split at ha
    · obtain ⟨-, -, -, -, -, -, hsent, -⟩ := ha
      split at hsent
      · rw [hsent.2.2.2.2.1]
      · split at hsent
        · rw [hsent.2.2.2.1]
        · obtain ⟨-, -, -, -, -, hhost⟩ := hsent
          have hne : ¬Fin.ofNat 4 (vget L.img.queue q).port = h := by
            rw [hport]
            exact fun e => hh (e.symm.trans (Fin.ext (Nat.mod_eq_of_lt k.port.isLt)))
          rw [hhost, vget_vupd, if_neg hne]
    · rw [ha.2.1]
  next => rw [ha]

theorem Lane.Posts.timerAt {L M : Lane} (h : L.Posts M) (t : Timer) : M.timerAt t = L.timerAt t :=
  h.keeps (fun K => K.timerAt t) rfl

/-! ### The gate of every command (R42, R45, R46, R426, R429) -/

/-- A command that is admitted acts. -/
theorem Lane.command_admitted {L : Lane} {k : HostCmd} {op : Nat} {feat perm : Option Nat} {f : Option Func} {act : Lane → Lane}
    (h : L.Admits k.port feat perm f) : L.command k op feat perm f act = act L := by
  obtain ⟨hlive, hopen, hlocked, hfeat, hperm, hsplit⟩ := h
  have hfeat' : feat.any (fun b => !nbit (L.hostSet k.port) b) = false := by cases feat <;> simp_all
  have hperm' : perm.any (fun b => !L.perm k.port b) = false := by cases perm <;> simp_all
  have hsplit' : f.any (L.hostSplit k.port) = false := by cases f <;> simp_all
  simp [Lane.command, hlive, hopen, hlocked, hfeat', hperm', hsplit']

/-- What an admitted command does is what it does behind the gate. -/
theorem does_of_admitted {c : Instr} {pre : Lane → Prop} {post : Lane → Lane → Prop} (k : HostCmd) (op : Nat) (feat perm : Option Nat)
    (f : Option Func) (act : Lane → Lane) (he : ∀ s, exec c s = .next (s.onLane (laneOf c) (Lane.command k op feat perm f act)))
    (ha : ∀ L, pre L → L.Admits k.port feat perm f) (hp : ∀ L, pre L → post L (act L)) : Does c pre post :=
  does_of _ he fun L h => by
    rw [Lane.command_admitted (ha L h)]
    exact hp L h

/-- STATUS_GET before the set is locked, or without its permission. -/
theorem hostStatusGet_stopped (l : LaneId) (k : HostCmd) : Does (.hostStatusGet l k)
    (fun L => L.portLive k.port = true ∧ L.sessionOpen k.port = true ∧ (L.hostLocked k.port = false ∨ L.perm k.port 5 = false))
    (fun L M => if L.hostLocked k.port = true then L.Answers M k 32 6 ([]) else L.Answers M k 32 3 ([])) := by
  refine does_of (fun L => L.command k 0x20 none (some 5) none (fun L => L.respond k 0x20 stOk L.statusArgs)) (fun _ => rfl) fun L h => ?_
  obtain ⟨hlive, hopen, hbar⟩ := h
  cases hlocked : L.hostLocked k.port
  · rw [if_neg (by simp), show L.command k 0x20 none (some 5) none (fun L => L.respond k 0x20 stOk L.statusArgs) = L.respond k 32 3 [] by
      simp [Lane.command, hlive, hopen, hlocked, Lane.answer, stNotNegotiated]]
    exact L.respond_answers k 32 3 []
  · have hperm : L.perm k.port 5 = false := by simpa [hlocked] using hbar
    rw [if_pos rfl, show L.command k 0x20 none (some 5) none (fun L => L.respond k 0x20 stOk L.statusArgs) = L.respond k 32 6 [] by
      simp [Lane.command, hlive, hopen, hlocked, hperm, Lane.answer, stDenied]]
    exact L.respond_answers k 32 6 []

/-- A command without a session is not heard. -/
theorem hostStatusGet_closed (l : LaneId) (k : HostCmd) : Does (.hostStatusGet l k) (fun L => L.sessionOpen k.port = false)
    (fun L M => M = L) := by
  refine does_of (fun L => L.command k 0x20 none (some 5) none (fun L => L.respond k 0x20 stOk L.statusArgs)) (fun _ => rfl) fun L h => ?_
  simp [Lane.command, h]

/-- ATTEST_REQ without its feature. -/
theorem hostAttestReq_unknown (l : LaneId) (k : HostCmd) (n : Nat) : Does (.hostAttestReq l k n)
    (fun L => L.portLive k.port = true ∧ L.sessionOpen k.port = true ∧ L.hostLocked k.port = true ∧ nbit (L.hostSet k.port) 10 = false)
    (fun L M => L.Answers M k 48 1 ([])) := by
  refine does_of (fun L => L.command k 0x30 (some 10) (some 6) none (Lane.attestReq k n)) (fun _ => rfl) fun L h => ?_
  obtain ⟨hlive, hopen, hlocked, hfeat⟩ := h
  rw [show L.command k 0x30 (some 10) (some 6) none (Lane.attestReq k n) = L.respond k 48 1 [] by
    simp [Lane.command, hlive, hopen, hlocked, hfeat, Lane.answer, stUnknown]]
  exact L.respond_answers k 48 1 []

/-! ### Engagement (R438) -/

theorem exec_hostEngage (l : LaneId) (k : HostCmd) (f : Func) (s : State) : exec (.hostEngage l k f.code) s =
    .next (s.onLane l (Lane.command k 0x10 none (some ((permOf f).getD 31)) (some f) (Lane.engage k f))) := by cases f <;> rfl

theorem exec_hostDisengage (l : LaneId) (k : HostCmd) (f : Func) (s : State) : exec (.hostDisengage l k f.code) s =
    .next (s.onLane l (Lane.command k 0x11 none (some ((permOf f).getD 31)) (some f) (Lane.disengage k f))) := by cases f <;> rfl

/-- ENGAGE where the active lane holds another set of the port. -/
theorem hostEngage_split (l : LaneId) (k : HostCmd) (f : Func) : Does (.hostEngage l k f.code)
    (fun L => L.portLive k.port = true ∧ L.sessionOpen k.port = true ∧ L.hostLocked k.port = true ∧ L.perm k.port ((permOf f).getD 31) = true ∧
      L.hostSplit k.port f = true)
    (fun L M => L.Answers M k 16 5 ([])) := by
  refine does_of _ (exec_hostEngage l k f) fun L h => ?_
  obtain ⟨hlive, hopen, hlocked, hperm, hsplit⟩ := h
  rw [show L.command k 0x10 none (some ((permOf f).getD 31)) (some f) (Lane.engage k f) = L.respond k 16 5 [] by
    simp [Lane.command, hlive, hopen, hlocked, hperm, hsplit, Lane.answer, stFeatureSplit]]
  exact L.respond_answers k 16 5 []

/-- ENGAGE in Autumn or Winter, or for a kind without a rank. -/
theorem hostEngage_refused (l : LaneId) (k : HostCmd) (f : Func) : Does (.hostEngage l k f.code)
    (fun L => L.Admits k.port none (some ((permOf f).getD 31)) (some f) ∧ (L.mode f ≠ 0 ∨ L.ranked k.port f = false))
    (fun L M => if L.mode f ≠ 0 then L.Answers M k 16 8 ([]) else L.Answers M k 16 7 ([])) := by
  refine does_of_admitted _ _ _ _ _ _ (exec_hostEngage l k f) (fun L h => h.1) fun L ⟨_, hbar⟩ => ?_
  unfold Lane.engage
  by_cases hmode : L.mode f ≠ 0
  · rw [if_pos hmode, if_pos hmode]
    exact L.respond_answers k 16 8 []
  · have hrank : L.ranked k.port f = false := hbar.resolve_left hmode
    rw [if_neg hmode, if_neg hmode, hrank, if_pos (by decide)]
    exact L.respond_answers k 16 7 []

/-- The engagements of a port after one of them has been set or cleared and the command has been answered. -/
theorem Lane.engagedFor_answer (L : Lane) (k : HostCmd) (f g : Func) (b : Bool) (op status : Nat) :
    ((L.wrBit (Reg.HQ_PORT_ENGAGED k.port.val) f.code b).answer k op status).engagedFor k.port g =
      if g = f then b else L.engagedFor k.port g := by
  have hoff : ¬PostKey (Reg.HQ_PORT_ENGAGED k.port.val).key := not_postKey (.inr (by simp only [Reg.HQ_PORT_ENGAGED, Fld.key]; omega))
  unfold Lane.engagedFor Lane.answer
  rw [Lane.bitOf, (Lane.respond_posts _ _ _ _ _).rd _ hoff, ← Lane.bitOf, Lane.bitOf_wrBit]
  have hw : g.code < (Reg.HQ_PORT_ENGAGED k.port.val).w := g.code_lt
  have hcode : f.code = g.code ↔ g = f := by cases f <;> cases g <;> decide
  simp [hw, hcode]

/-- ENGAGE of a kind with a rank. -/
theorem hostEngage_engages (l : LaneId) (k : HostCmd) (f : Func) : Does (.hostEngage l k f.code)
    (fun L => L.Admits k.port none (some ((permOf f).getD 31)) (some f) ∧ L.mode f = 0 ∧ L.ranked k.port f = true)
    (fun L M => M.engagedFor k.port f = true ∧ (∀ g : Func, g ≠ f → M.engagedFor k.port g = L.engagedFor k.port g) ∧
      (L.wrBit (Reg.HQ_PORT_ENGAGED k.port.val) f.code true).Answers M k 16 0 ([])) := by
  refine does_of_admitted _ _ _ _ _ _ (exec_hostEngage l k f) (fun L h => h.1) fun L ⟨_, hmode, hrank⟩ => ?_
  have hact : L.engage k f = (L.wrBit (Reg.HQ_PORT_ENGAGED k.port.val) f.code true).answer k 16 0 := by
    simp [Lane.engage, hmode, hrank, stOk]
  rw [hact]
  exact ⟨by simp [Lane.engagedFor_answer], fun g hg => by simp [Lane.engagedFor_answer, hg], Lane.respond_answers _ _ _ _ _⟩

/-- ENGAGE of no function. -/
theorem hostEngage_badArg (l : LaneId) (k : HostCmd) (n : Nat) : Does (.hostEngage l k n)
    (fun L => L.Admits k.port none none none ∧ 5 ≤ n) (fun L M => L.Answers M k 16 9 ([])) := by
  by_cases hn : 5 ≤ n
  · obtain ⟨m, rfl⟩ : ∃ m, n = m + 5 := ⟨n - 5, by omega⟩
    exact does_of_admitted k 0x10 none none none (fun L => L.answer k 0x10 stBadArg) (fun _ => rfl) (fun L h => h.1)
      fun L _ => L.respond_answers k 16 9 []
  · exact fun s h => absurd h.2 hn

/-- DISENGAGE. -/
theorem hostDisengage_ends (l : LaneId) (k : HostCmd) (f : Func) : Does (.hostDisengage l k f.code)
    (fun L => L.Admits k.port none (some ((permOf f).getD 31)) (some f))
    (fun L M => M.engagedFor k.port f = false ∧ (∀ g : Func, g ≠ f → M.engagedFor k.port g = L.engagedFor k.port g) ∧
      (L.wrBit (Reg.HQ_PORT_ENGAGED k.port.val) f.code false).Answers M k 17 0 ([])) := by
  refine does_of_admitted _ _ _ _ _ _ (exec_hostDisengage l k f) (fun L h => h) fun L _ => ?_
  unfold Lane.disengage
  exact ⟨by simp [Lane.engagedFor_answer], fun g hg => by simp [Lane.engagedFor_answer, hg], Lane.respond_answers _ _ _ _ _⟩

end Sys2Proof.Machine


namespace Sys2Proof.Machine

/-! ### Setpoints (R436, R437, R439, R440) -/

/-- A setpoint of a port for a function is the last one kept. -/
def Lane.lastSetpoint (L : Lane) (h : Fin 4) (f : Func) : Option Setpoint := (vget (vget L.host h).setpoints f.ix).head?

/-- A setpoint that is kept is the port's last one. -/
theorem Lane.keepSetpoint_last (L : Lane) (h : Fin 4) (f : Func) (v : Word) (n : Nat) :
    (L.keepSetpoint h f v n).lastSetpoint h f = some ⟨v, n, L.el⟩ := by
  simp [Lane.lastSetpoint, Lane.keepSetpoint, Lane.onHost, vget_vupd]

/-- A setpoint that is kept changes no other port. -/
theorem Lane.keepSetpoint_host_ne (L : Lane) (h : Fin 4) (f : Func) (v : Word) (n : Nat) {p : Fin 4} (hp : p ≠ h) :
    vget (L.keepSetpoint h f v n).host p = vget L.host p := by
  have hne : ¬h = p := fun e => hp e.symm
  simp [Lane.keepSetpoint, Lane.onHost, vget_vupd, hne]

theorem Lane.SameRings.keepSetpoint (L : Lane) (h : Fin 4) (f : Func) (v : Word) (n : Nat) : L.SameRings (L.keepSetpoint h f v n) :=
  ⟨⟨rfl, fun _ _ => rfl⟩, rfl, fun _ => rfl⟩

/-- An answer keeps the setpoints of every port. -/
theorem Lane.answer_last (L : Lane) (k : HostCmd) (op status : Nat) (h : Fin 4) (f : Func) :
    (L.answer k op status).lastSetpoint h f = L.lastSetpoint h f := by
  have hhost := congrArg HostSt.setpoints ((L.respond_posts k op status []).host h)
  exact congrArg (fun v => (vget v f.ix).head?) hhost

/-- What a lane shows after an accepted setpoint: it is kept, and answered unless the port had an answer in the last 100 ms. -/
def Lane.TakesSetpoint (L M : Lane) (k : HostCmd) (op : Nat) (f : Func) (v : Word) (n : Nat) : Prop :=
  M.lastSetpoint k.port f = some ⟨v, n, L.el⟩ ∧ (∀ h : Fin 4, h ≠ k.port → vget M.host h = vget L.host h) ∧
  if L.running (.answer k.port) = true ∧ L.due (.answer k.port) 100000000 = false then M = { L with host := M.host }
  else M.timerAt (.answer k.port) = some L.el ∧ L.AnswerLies M k op 0 (List.replicate 48 0)

/-- An accepted setpoint that no other source outranks. -/
theorem Lane.setpoint_taken (L : Lane) (k : HostCmd) {op : Nat} (f : Func) (v : Word) {n : Nat} (hop : op < 256) (h10 : 10 ≤ n) (h1000 : n ≤ 1000)
    (hrank : L.ranked k.port f = true) (hengaged : L.engagedFor k.port f = true)
    (hsel : ¬(f = .steer ∧ L.rd (Reg.HQ_AUTH_SEL f.code) ≠ 0 ∧ some (L.rd (Reg.HQ_AUTH_SEL f.code)) ≠ kindRank (L.portRec k.port).kind)) :
    L.TakesSetpoint (L.setpoint k op f v n) k op f v n := by
  have hact : L.setpoint k op f v n = (L.keepSetpoint k.port f v n).answerSet k op := by
    unfold Lane.setpoint
    rw [if_neg (by omega), hrank, hengaged, if_neg (by decide)]
    exact if_neg hsel
  let K := L.keepSetpoint k.port f v n
  have hlast : K.lastSetpoint k.port f = some ⟨v, n, L.el⟩ := L.keepSetpoint_last _ _ _ _
  have hothers (h : Fin 4) (hh : h ≠ k.port) : vget K.host h = vget L.host h := L.keepSetpoint_host_ne _ _ _ _ hh
  rw [hact]
  by_cases hquiet : L.running (.answer k.port) = true ∧ L.due (.answer k.port) 100000000 = false
  · have hsilent : K.answerSet k op = K := by
      have hcond : (K.running (.answer k.port) && !K.due (.answer k.port) 100000000) = true := by
        show (L.running (.answer k.port) && !L.due (.answer k.port) 100000000) = true
        rw [hquiet.1, hquiet.2]
        rfl
      exact if_pos hcond
    exact ⟨by rw [show L.keepSetpoint k.port f v n = K from rfl, hsilent]; exact hlast,
      by rw [show L.keepSetpoint k.port f v n = K from rfl, hsilent]; exact hothers,
      by rw [if_pos hquiet, show L.keepSetpoint k.port f v n = K from rfl, hsilent]; rfl⟩
  · have hanswered : K.answerSet k op = (K.restart (.answer k.port)).answer k op 0 := by
      have hcond : ¬(K.running (.answer k.port) && !K.due (.answer k.port) 100000000) = true := by
        show ¬(L.running (.answer k.port) && !L.due (.answer k.port) 100000000) = true
        simpa using hquiet
      exact if_neg hcond
    rw [show L.keepSetpoint k.port f v n = K from rfl, hanswered]
    refine ⟨(Lane.answer_last _ k op 0 _ _).trans hlast,
      fun h hh => ((K.restart (.answer k.port)).respond_host_ne k op 0 [] hh).trans (hothers h hh), ?_⟩
    rw [if_neg hquiet]
    refine ⟨((Lane.respond_posts k op 0 [] _).timerAt _).trans ?_, ?_⟩
    · rw [Lane.timerAt_restart, if_pos rfl]
      rfl
    · have hrings : L.SameRings (K.restart (.answer k.port)) := ⟨⟨rfl, fun _ _ => rfl⟩, rfl, fun _ => rfl⟩
      exact hrings.answerLies k [] hop (by decide)

/-- A setpoint whose VALID is out of range. -/
theorem Lane.setpoint_badArg (L : Lane) (k : HostCmd) (op : Nat) (f : Func) (v : Word) {n : Nat} (h : n < 10 ∨ 1000 < n) :
    L.setpoint k op f v n = L.respond k op 9 [] := if_pos h

/-- A setpoint of a port that holds no rank or is not engaged. -/
theorem Lane.setpoint_notAuthority (L : Lane) (k : HostCmd) (op : Nat) (f : Func) (v : Word) {n : Nat} (h10 : 10 ≤ n) (h1000 : n ≤ 1000)
    (h : L.ranked k.port f = false ∨ L.engagedFor k.port f = false) : L.setpoint k op f v n = L.respond k op 7 [] := by
  unfold Lane.setpoint
  rw [if_neg (by omega), if_pos (by cases h with | inl h => simp [h] | inr h => simp [h])]
  rfl

section
variable {c : Instr} (k : HostCmd) {op p : Nat} {f : Func} {v : Word} {n : Nat}
  (he : ∀ s, exec c s = .next (s.onLane (laneOf c) (Lane.command k op none (some p) (some f) (Lane.setpoint k op f v n))))
include he

/-- A command with a setpoint that no other source outranks. -/
theorem setpoint_taken_does (hop : op < 256) : Does c
    (fun L => L.Admits k.port none (some p) (some f) ∧ 10 ≤ n ∧ n ≤ 1000 ∧ L.ranked k.port f = true ∧ L.engagedFor k.port f = true ∧
      (f = .steer → L.rd (Reg.HQ_AUTH_SEL f.code) = 0))
    (fun L M => L.TakesSetpoint M k op f v n) :=
  does_of_admitted _ _ _ _ _ _ he (fun _ h => h.1)
    fun L ⟨_, h10, h1000, hrank, hengaged, hsel⟩ => L.setpoint_taken k f v hop h10 h1000 hrank hengaged (fun h => h.2.1 (hsel h.1))

/-- A command with a setpoint whose VALID is out of range. -/
theorem setpoint_badArg_does : Does c (fun L => L.Admits k.port none (some p) (some f) ∧ (n < 10 ∨ 1000 < n))
    (fun L M => L.Answers M k op 9 ([])) :=
  does_of_admitted _ _ _ _ _ _ he (fun _ h => h.1) fun L h => by
    rw [L.setpoint_badArg k _ _ _ h.2]
    exact L.respond_answers k op 9 []

/-- A command with a setpoint from a port that holds no rank or is not engaged. -/
theorem setpoint_notAuthority_does : Does c
    (fun L => L.Admits k.port none (some p) (some f) ∧ 10 ≤ n ∧ n ≤ 1000 ∧ (L.ranked k.port f = false ∨ L.engagedFor k.port f = false))
    (fun L M => L.Answers M k op 7 ([])) :=
  does_of_admitted _ _ _ _ _ _ he (fun _ h => h.1) fun L ⟨_, h10, h1000, hbar⟩ => by
    rw [L.setpoint_notAuthority k _ _ _ h10 h1000 hbar]
    exact L.respond_answers k op 7 []

end

/-- STEER_SET that another source outranks is kept and answered NOT_AUTHORITY (R437; log entry 41). -/
theorem hostSteerSet_outranked (l : LaneId) (k : HostCmd) (v : Word) (n : Nat) : Does (.hostSteerSet l k v n)
    (fun L => L.Admits k.port none (some 0) (some .steer) ∧ 10 ≤ n ∧ n ≤ 1000 ∧ L.ranked k.port .steer = true ∧
      L.engagedFor k.port .steer = true ∧ L.rd (Reg.HQ_AUTH_SEL 0) ≠ 0 ∧ kindRank (L.portRec k.port).kind ≠ some (L.rd (Reg.HQ_AUTH_SEL 0)))
    (fun L M => M.lastSetpoint k.port .steer = some ⟨v, n, L.el⟩ ∧ L.AnswerLies M k 18 7 (List.replicate 48 0)) := by
  refine does_of_admitted k 0x12 none (some 0) (some .steer) (Lane.setpoint k 0x12 .steer v n) (fun _ => rfl) (fun _ h => h.1) ?_
  rintro L ⟨-, h10, h1000, hrank, hengaged, hsel, hkind⟩
  have hact : L.setpoint k 0x12 .steer v n = (L.keepSetpoint k.port .steer v n).respond k 18 7 [] := by
    unfold Lane.setpoint
    rw [if_neg (by omega), hrank, hengaged, if_neg (by decide)]
    exact if_pos ⟨rfl, hsel, fun e => hkind e.symm⟩
  rw [hact]
  exact ⟨(Lane.answer_last _ k 18 7 _ _).trans (L.keepSetpoint_last _ _ _ _),
    (Lane.SameRings.keepSetpoint L k.port .steer v n).answerLies k [] (by decide) (by decide)⟩

/-- PARK_SET that is accepted. -/
theorem hostParkSet_taken (l : LaneId) (k : HostCmd) (v : Nat) : Does (.hostParkSet l k v)
    (fun L => L.Admits k.port none (some 3) (some .park) ∧ v ≤ 1 ∧ L.ranked k.port .park = true ∧ L.engagedFor k.port .park = true)
    (fun L M => M.lastSetpoint k.port .park = some ⟨BitVec.ofNat 32 v, 0, L.el⟩ ∧ M.timers = L.timers ∧
      L.AnswerLies M k 21 0 (List.replicate 48 0)) := by
  refine does_of_admitted k 0x15 none (some 3) (some .park) (Lane.parkSet k v) (fun _ => rfl) (fun _ h => h.1) ?_
  rintro L ⟨-, hv, hrank, hengaged⟩
  have hact : L.parkSet k v = (L.keepSetpoint k.port .park (BitVec.ofNat 32 v) 0).respond k 21 0 [] := by
    unfold Lane.parkSet
    rw [if_neg (by omega), hrank, hengaged]
    rfl
  rw [hact]
  exact ⟨(Lane.answer_last _ k 21 0 _ _).trans (L.keepSetpoint_last _ _ _ _), (Lane.respond_posts k 21 0 [] _).keeps Lane.timers rfl,
    (Lane.SameRings.keepSetpoint L k.port .park _ 0).answerLies k [] (by decide) (by decide)⟩

/-- PARK_SET out of range, or without rank or engagement. -/
theorem hostParkSet_refused (l : LaneId) (k : HostCmd) (v : Nat) : Does (.hostParkSet l k v)
    (fun L => L.Admits k.port none (some 3) (some .park) ∧ (2 ≤ v ∨ L.ranked k.port .park = false ∨ L.engagedFor k.port .park = false))
    (fun L M => if 2 ≤ v then L.Answers M k 21 9 ([]) else L.Answers M k 21 7 ([])) := by
  refine does_of_admitted k 0x15 none (some 3) (some .park) (Lane.parkSet k v) (fun _ => rfl) (fun _ h => h.1) ?_
  rintro L ⟨-, hbar⟩
  by_cases hv : 2 ≤ v
  · rw [if_pos hv, show L.parkSet k v = L.respond k 21 9 [] from if_pos hv]
    exact L.respond_answers k 21 9 []
  · have hact : L.parkSet k v = L.respond k 21 7 [] := by
      unfold Lane.parkSet
      rw [if_neg (by omega), if_pos (by cases hbar.resolve_left hv with | inl h => simp [h] | inr h => simp [h])]
      rfl
    rw [if_neg hv, hact]
    exact L.respond_answers k 21 7 []

/-! ### ARM, STATUS_GET, FAULT_GET (R52, R436) -/

/-- A field that the queues do not use stands after an answer. -/
theorem Lane.respond_rd (L : Lane) (k : HostCmd) (op status : Nat) (args : List Byte) {g : Fld}
    (hg : g.key < 0x200A0004 * 64 ∨ 0x200A0200 * 64 ≤ g.key) : (L.respond k op status args).rd g = L.rd g :=
  (L.respond_posts k op status args).rd g (not_postKey hg)

/-- ARM where the lane may arm. -/
theorem hostArm_arms (l : LaneId) (k : HostCmd) : Does (.hostArm l k)
    (fun L => L.Admits k.port none (some 4) none ∧ L.img.start.armMode = 1 ∧ L.mayArm = true)
    (fun L M => M.rd Reg.SYS_ARM_STEP = 1 ∧ M.rd Reg.SYS_STATE_CAUSE = 0 ∧ M.timerAt .precharge = some L.el ∧ M.svc = 2 ∧
      (((L.wr Reg.SYS_STATE_CAUSE 0).wr Reg.SYS_ARM_STEP 1).restart .precharge).Answers M k 22 0 ([])) := by
  refine does_of_admitted k 0x16 none (some 4) none (Lane.hostArm k) (fun _ => rfl) (fun _ h => h.1) ?_
  rintro L ⟨⟨hlive, -⟩, hmode, harm⟩
  have hfirmware : L.firmware = true := (Bool.and_eq_true_iff.mp hlive).1
  have hact : L.hostArm k = L.armBegin.respond k 22 0 [] := by
    simp [Lane.hostArm, Lane.armTrigger, hfirmware, hmode, harm, Lane.answer, stOk]
  have hsvc : L.svc = 2 := by
    simp only [Lane.mayArm, Bool.and_eq_true, decide_eq_true_eq] at harm
    exact harm.1.1.1.1.1.1
  obtain ⟨hstep, hcause, htimer, hsvc', -⟩ := L.armBegin_spec
  rw [hact]
  exact ⟨(Lane.respond_rd _ _ _ _ _ (by decide)).trans hstep, (Lane.respond_rd _ _ _ _ _ (by decide)).trans hcause,
    ((L.armBegin.respond_posts k 22 0 []).timerAt _).trans htimer,
    (Lane.respond_rd _ _ _ _ _ (by decide)).trans (hsvc'.trans hsvc), L.armBegin.respond_answers k 22 0 []⟩

/-- ARM in another mode than HOST. -/
theorem hostArm_otherMode (l : LaneId) (k : HostCmd) : Does (.hostArm l k)
    (fun L => L.Admits k.port none (some 4) none ∧ L.img.start.armMode ≠ 1) (fun L M => L.Answers M k 22 8 ([])) := by
  refine does_of_admitted k 0x16 none (some 4) none (Lane.hostArm k) (fun _ => rfl) (fun _ h => h.1) ?_
  rintro L ⟨-, hmode⟩
  have hact : L.hostArm k = L.respond k 22 8 [] := by
    simp [Lane.hostArm, Lane.armTrigger, hmode, Lane.answer, stRefused]
  rw [hact]
  exact L.respond_answers k 22 8 []

/-- A lane that shows why it does not arm keeps its rings. -/
theorem Lane.SameRings.showBar (L : Lane) : L.SameRings L.showBar := by
  unfold Lane.showBar
  split
  · split
    · exact (Lane.SameRings.refl L).wr _ _ (by unfold OffRings; decide)
    · exact .refl L
  · exact .refl L

/-- ARM where the lane may not arm. -/
theorem hostArm_refused (l : LaneId) (k : HostCmd) : Does (.hostArm l k)
    (fun L => L.Admits k.port none (some 4) none ∧ L.img.start.armMode = 1 ∧ L.mayArm = false)
    (fun L M => M.is Reg.SYS_ARM_REFUSED = true ∧ M.rd Reg.SYS_ARM_STEP = L.rd Reg.SYS_ARM_STEP ∧ M.svc = L.svc ∧
      L.AnswerLies M k 22 8 (List.replicate 48 0)) := by
  refine does_of_admitted k 0x16 none (some 4) none (Lane.hostArm k) (fun _ => rfl) (fun _ h => h.1) ?_
  rintro L ⟨⟨hlive, -⟩, hmode, harm⟩
  have hfirmware : L.firmware = true := (Bool.and_eq_true_iff.mp hlive).1
  have hact : L.hostArm k = (L.showBar.set1 Reg.SYS_ARM_REFUSED).respond k 22 8 [] := by
    simp [Lane.hostArm, Lane.armTrigger, hfirmware, hmode, harm, Lane.answer, stRefused]
  obtain ⟨-, hrd, -⟩ := L.showBar_spec
  have hkeep (g : Fld) (h1 : Reg.SYS_ARM_REFUSED.key ≠ g.key) (h2 : Reg.SYS_STATE_CAUSE.key ≠ g.key) :
      (L.showBar.set1 Reg.SYS_ARM_REFUSED).rd g = L.rd g := (Lane.rd_wr_ne _ _ h1).trans (hrd g h2)
  rw [hact]
  refine ⟨?_, (Lane.respond_rd _ _ _ _ _ (by decide)).trans (hkeep _ (by decide) (by decide)),
    (Lane.respond_rd _ _ _ _ _ (by decide)).trans (hkeep _ (by decide) (by decide)),
    ((Lane.SameRings.showBar L).wr Reg.SYS_ARM_REFUSED 1 (by unfold OffRings; decide)).answerLies k [] (by decide) (by decide)⟩
  rw [Lane.is, Lane.respond_rd _ _ _ _ _ (by decide)]
  exact Lane.is_set1_same _ _ (by decide)

/-- STATUS_GET. -/
theorem hostStatusGet_answered (l : LaneId) (k : HostCmd) : Does (.hostStatusGet l k)
    (fun L => L.Admits k.port none (some 5) none)
    (fun L M => L.Answers M k 32 0 (L.regBytes Reg.SYS_STATE_STATE.reg ++ (List.range 5).flatMap (fun f => L.regBytes (Reg.ROLE_FUNC_ROLE f).reg) ++
      (List.range 5).flatMap (fun f => L.regBytes (Reg.HQ_AUTH_SEL f).reg))) :=
  does_of_admitted k 0x20 none (some 5) none (fun L => L.respond k 0x20 stOk L.statusArgs) (fun _ => rfl) (fun _ h => h)
    fun L _ => L.respond_answers k 32 0 L.statusArgs

/-- FAULT_GET. -/
theorem hostFaultGet_answered (l : LaneId) (k : HostCmd) : Does (.hostFaultGet l k)
    (fun L => L.Admits k.port none (some 5) none)
    (fun L M => L.Answers M k 33 0 (L.regBytes Reg.FC_STATUS_SUMMARY.reg ++ L.regBytes Reg.FC_PEND.reg)) :=
  does_of_admitted k 0x21 none (some 5) none
    (fun L => L.respond k 0x21 stOk (L.regBytes Reg.FC_STATUS_SUMMARY.reg ++ L.regBytes Reg.FC_PEND.reg)) (fun _ => rfl) (fun _ h => h)
    fun L _ => L.respond_answers k 33 0 _

end Sys2Proof.Machine


namespace Sys2Proof.Machine

/-! ### ATTEST_REQ (R487, R502) -/

/-- A descriptor holds its arguments filled up with zeros. -/
theorem descrBytes_padded (op flags tag index status : Nat) (args : List Byte) :
    descrBytes ⟨op, flags, tag, index, status, (args ++ List.replicate 48 0).take 48⟩ = descrBytes ⟨op, flags, tag, index, status, args⟩ := by
  have hlen : ((args ++ List.replicate 48 (0 : Byte)).take 48).length = 48 := by simp
  have htake : ((args ++ List.replicate 48 (0 : Byte)).take 48 ++ List.replicate 48 0).take 48 = (args ++ List.replicate 48 0).take 48 := by
    rw [List.take_append_of_le_length hlen.ge, List.take_of_length_le hlen.le]
  simp only [descrBytes, htake]

/-- Two of up to `effDepth` descriptors in a row lie apart. -/
theorem Lane.slotAddr_apart (L : Lane) (q : Fin 16) (x : Nat) {i j : Nat} (hij : i < j) (hj : j < x + L.effDepth q) (hi : x ≤ i) :
    L.slotAddr q i + 64 ≤ L.slotAddr q j ∨ L.slotAddr q j + 64 ≤ L.slotAddr q i := by
  unfold Lane.slotAddr
  generalize hd : max 1 (L.effDepth q) = d
  have hne : i % d ≠ j % d := by
    intro e
    obtain ⟨c, hc⟩ := (Nat.modEq_iff_dvd' hij.le).mp e
    have hle : d ≤ j - i := by
      rw [hc]
      exact Nat.le_mul_of_pos_right _ (Nat.pos_of_ne_zero (by rintro rfl; omega))
    omega
  omega

/-- Answers in a row to one command, as many as fit the port's queue: each lies in its slot, and no later one writes over it. -/
theorem Lane.each_respond {L : Lane} {k : HostCmd} {q : Fin 16} (op : Nat) (args : Nat → List Byte) (hq : L.replyQueue k.port = some q)
    (hdepth : L.effDepth q < 512) (ht : L.queueTransport q ≠ 2) (n : Nat) (hroom : L.rd (Reg.HQ_STAT_USED q.val) + n ≤ L.effDepth q)
    (hnext : (vget L.queue q).next + n < 2 ^ 32) :
    let M := L.each (List.range n) (fun p => Lane.respond k op 0 (args p))
    L.Posts M ∧ (vget M.queue q).next = (vget L.queue q).next + n ∧ M.rd (Reg.HQ_STAT_USED q.val) = L.rd (Reg.HQ_STAT_USED q.val) + n ∧
      ∀ i < n, M.sramBytes (L.slotAddr q ((vget L.queue q).next + i)) 64 =
        descrBytes ⟨op % 256, 1, k.tag % 65536, (vget L.queue q).next + i, 0, args i⟩ := by
  induction n with
  | zero => exact ⟨.refl L, rfl, rfl, fun i hi => absurd hi (by omega)⟩
  | succ n ih =>
    obtain ⟨hposts, hnextM, husedM, hslots⟩ := ih (by omega) (by omega)
    have hstep : L.each (List.range (n + 1)) (fun p => Lane.respond k op 0 (args p)) =
        (L.each (List.range n) (fun p => Lane.respond k op 0 (args p))).respond k op 0 (args n) := by
      simp [Lane.each, List.range_succ]
    dsimp only
    rw [hstep]
    generalize L.each (List.range n) (fun p => Lane.respond k op 0 (args p)) = M at hposts hnextM husedM hslots
    have hplaces := Lane.SamePlaces.of_posts hposts
    have htM : M.queueTransport q ≠ 2 := by
      rw [hposts.keeps (fun M => M.queueTransport q) rfl]
      exact ht
    have hfree : M.queueFree q = true := by
      rw [Lane.queueFree, husedM, hplaces.effDepth]
      exact decide_eq_true (by omega)
    have ha := M.respond_answers k op 0 (args n)
    have hpostsN := M.respond_posts k op 0 (args n)
    generalize M.respond k op 0 (args n) = N at ha hpostsN
    simp only [Lane.Answers, hplaces.replyQueue, hq, hfree, if_true] at ha
    obtain ⟨hnextN, -, hslot, hapart, -, -, hsent, -⟩ := ha
    rw [if_neg htM] at hsent
    have husedN : N.rd (Reg.HQ_STAT_USED q.val) = (M.rd (Reg.HQ_STAT_USED q.val) + 1) % 512 := by
      split at hsent
      · exact hsent.2.1
      · exact hsent.2.1
    simp only [hnextM, hplaces.slotAddr] at hnextN hslot hapart
    refine ⟨hposts.trans hpostsN, ?_, ?_, fun i hi => ?_⟩
    · rw [hnextN, Nat.mod_eq_of_lt (by omega)]
      omega
    · rw [husedN, husedM, Nat.mod_eq_of_lt (by omega)]
      omega
    · by_cases hin : i = n
      · rw [hin, hslot, descrBytes_padded]
      · rw [← hslots i (by omega)]
        have hfar := L.slotAddr_apart q (vget L.queue q).next (i := (vget L.queue q).next + i) (j := (vget L.queue q).next + n) (by omega)
          (by omega) (by omega)
        refine List.map_congr_left fun x hx => hapart _ ?_
        have := List.mem_range.mp hx
        omega

/-- ATTEST_REQ answers the evidence record in six descriptors. -/
theorem hostAttestReq_answered (l : LaneId) (k : HostCmd) (n : Nat) (q : Fin 16) : Does (.hostAttestReq l k n)
    (fun L => L.Admits k.port (some 10) (some 6) none ∧ L.replyQueue k.port = some q ∧ L.rd (Reg.HQ_STAT_USED q.val) + 6 ≤ L.effDepth q ∧
      L.effDepth q < 512 ∧ L.sec.idUsable = true ∧ (vget L.queue q).next < 2 ^ 32 - 6 ∧ L.queueTransport q ≠ 2)
    (fun L M => (vget M.queue q).next = (vget L.queue q).next + 6 ∧ M.rd (Reg.HQ_STAT_USED q.val) = L.rd (Reg.HQ_STAT_USED q.val) + 6 ∧
      ∀ p : Fin 6, M.sramBytes (L.slotAddr q ((vget L.queue q).next + p.val)) 64 =
        descrBytes ⟨48, 1, k.tag % 65536, (vget L.queue q).next + p.val, 0, (leBytes 1 p.val ++ leBytes 3 0 ++ ((L.evidence n).drop (44 * p.val)).take 44)⟩) := by
  refine does_of_admitted k 0x30 (some 10) (some 6) none (Lane.attestReq k n) (fun _ => rfl) (fun _ h => h.1) ?_
  rintro L ⟨-, hq, hroom, hdepth, hid, hnext, ht⟩
  have hact : L.attestReq k n = L.each (List.range 6)
      (fun p => Lane.respond k 0x30 0 (leBytes 1 p ++ leBytes 3 0 ++ (((L.evidence n).drop (44 * p)).take 44))) := by
    unfold Lane.attestReq
    simp only [hq, hroom, hid, decide_true, Bool.and_self, if_true]
    rfl
  obtain ⟨-, hnextM, husedM, hslots⟩ := Lane.each_respond 0x30
    (fun p => leBytes 1 p ++ leBytes 3 0 ++ (((L.evidence n).drop (44 * p)).take 44)) hq hdepth ht 6 hroom (by omega)
  rw [hact]
  exact ⟨hnextM, husedM, fun p => hslots p.val p.isLt⟩

/-- ATTEST_REQ where the identity key may not be used. -/
theorem hostAttestReq_refused (l : LaneId) (k : HostCmd) (n : Nat) : Does (.hostAttestReq l k n)
    (fun L => L.Admits k.port (some 10) (some 6) none ∧ L.sec.idUsable = false) (fun L M => L.Answers M k 48 8 ([])) := by
  refine does_of_admitted k 0x30 (some 10) (some 6) none (Lane.attestReq k n) (fun _ => rfl) (fun _ h => h.1) ?_
  rintro L ⟨-, hid⟩
  have hact : L.attestReq k n = L.respond k 48 8 [] := by simp [Lane.attestReq, hid, Lane.answer, stRefused]
  rw [hact]
  exact L.respond_answers k 48 8 []

/-! ### TIME_JUMP (R415, R421) -/

theorem Lane.requestFits_iff (L : Lane) (a : Nat) : L.requestFits a = true ↔
    (a = 3 ∧ L.rd Reg.TS_STAT_DISC = 6) ∨ (a ≠ 3 ∧ L.rd Reg.TS_STAT_DISC = 5) := by
  unfold Lane.requestFits
  by_cases h : a = 3 <;> simp [h]

/-- An announcement of a step keeps the registers and what the queues hold. -/
theorem Lane.announceStep_timeOnly (L : Lane) (d : Int) (acq : Bool) : L.announceStep d acq = { L with time := (L.announceStep d acq).time } := by
  unfold Lane.announceStep
  split <;> rfl

/-- An announcement of a step makes no request. -/
theorem Lane.announceStep_request (L : Lane) (d : Int) (acq : Bool) : (L.announceStep d acq).time.request = L.time.request := by
  unfold Lane.announceStep
  split <;> rfl

theorem Lane.SameRings.announceStep {L K : Lane} (h : L.SameRings K) (d : Int) (acq : Bool) : L.SameRings (K.announceStep d acq) := by
  rw [K.announceStep_timeOnly]
  exact ⟨⟨h.places.img, h.places.rd⟩, h.queue, h.used⟩

theorem Lane.SameRings.setDisc {L K : Lane} (h : L.SameRings K) (v : Nat) : L.SameRings (K.setDisc v) :=
  (h.wr _ _ (by unfold OffRings; decide)).wr _ _ (by unfold OffRings; decide)

theorem Lane.SameRings.onTime {L K : Lane} (h : L.SameRings K) (g : TimeSt → TimeSt) : L.SameRings (K.onTime g) :=
  ⟨⟨h.places.img, h.places.rd⟩, h.queue, h.used⟩

theorem Lane.setDisc_disc (L : Lane) {v : Nat} (hv : v < 8) : (L.setDisc v).rd Reg.TS_STAT_DISC = v := by
  rw [Lane.setDisc, Lane.rd_wr_ne _ _ (by decide), Lane.rd_wr_same]
  exact Nat.mod_eq_of_lt hv

/-- The discipline state that a request which fits leads to (R414). -/
def jumpDisc (a : Nat) : Nat := if a = 1 then 2 else if a = 2 then 6 else 1

/-- The leader acts on a request that fits: its discipline state follows, no request is made of another lane, a rejected grandmaster is
the one that was followed (R414, R415). -/
theorem Lane.actRequest_spec (L : Lane) {a : Nat} (h1 : 1 ≤ a) (h3 : a ≤ 3)
    (hfits : (a = 3 ∧ L.rd Reg.TS_STAT_DISC = 6) ∨ (a ≠ 3 ∧ L.rd Reg.TS_STAT_DISC = 5)) :
    (L.actRequest a).rd Reg.TS_STAT_DISC = jumpDisc a ∧ (L.actRequest a).time.request = L.time.request ∧
      (a = 2 → (L.actRequest a).time.rejected = L.time.followed) ∧ L.SameRings (L.actRequest a) := by
  have hclr (K : Lane) : (K.clr Reg.TS_JUMP_PEND).rd Reg.TS_STAT_DISC = K.rd Reg.TS_STAT_DISC := K.rd_wr_ne _ (by decide)
  have hoff : OffRings Reg.TS_JUMP_PEND.key := by unfold OffRings; decide
  obtain rfl | rfl | rfl : a = 1 ∨ a = 2 ∨ a = 3 := by omega
  · have hdisc : L.rd Reg.TS_STAT_DISC = 5 := by simpa using hfits
    let A := L.announceStep (sgn 64 (L.rd Reg.TS_JUMP_OFS)) false
    rw [show L.actRequest 1 = ((A.setDisc 2).clr Reg.TS_JUMP_PEND).onTime (fun t => { t with lockedRun := 0 }) from if_pos ⟨rfl, hdisc⟩]
    exact ⟨(hclr _).trans (A.setDisc_disc (by decide)), L.announceStep_request _ _, fun h => absurd h (by decide),
      (((Lane.SameRings.refl L).announceStep _ _).setDisc 2 |>.wr Reg.TS_JUMP_PEND 0 hoff).onTime _⟩
  · have hdisc : L.rd Reg.TS_STAT_DISC = 5 := by simpa using hfits
    rw [show L.actRequest 2 = ((L.setDisc 6).clr Reg.TS_JUMP_PEND).onTime (fun t => { t with rejected := t.followed, slew := 0 }) by
      simp [Lane.actRequest, hdisc]]
    exact ⟨(hclr _).trans (L.setDisc_disc (by decide)), rfl, fun _ => rfl,
      ((Lane.SameRings.refl L).setDisc 6 |>.wr Reg.TS_JUMP_PEND 0 hoff).onTime _⟩
  · have hdisc : L.rd Reg.TS_STAT_DISC = 6 := by simpa using hfits
    rw [show L.actRequest 3 = (L.setDisc 1).onTime (fun t => { t with rejected := none }) by simp [Lane.actRequest, hdisc]]
    exact ⟨L.setDisc_disc (v := 1) (by decide), rfl, fun h => absurd h (by decide), ((Lane.SameRings.refl L).setDisc 1).onTime _⟩

/-- TIME_JUMP that fits the discipline state: the leader acts, another lane passes the request on. -/
theorem hostTimeJump_acts (l : LaneId) (k : HostCmd) (a : Nat) : Does (.hostTimeJump l k a)
    (fun L => L.Admits k.port none (some 10) none ∧ 1 ≤ a ∧ a ≤ 3 ∧
      ((a = 3 ∧ L.rd Reg.TS_STAT_DISC = 6) ∨ (a ≠ 3 ∧ L.rd Reg.TS_STAT_DISC = 5)))
    (fun L M => M.rd Reg.TS_STAT_DISC = (if L.isLeader = true then jumpDisc a else L.rd Reg.TS_STAT_DISC) ∧
      M.time.request = (if L.isLeader = true then L.time.request else a) ∧
      (L.isLeader = true → a = 2 → M.time.rejected = L.time.followed) ∧ L.AnswerLies M k 64 0 (List.replicate 48 0)) := by
  refine does_of_admitted k 0x40 none (some 10) none (Lane.hostJump k a) (fun _ => rfl) (fun _ h => h.1) ?_
  rintro L ⟨⟨hlive, -⟩, h1, h3, hfits⟩
  have hfirmware : L.firmware = true := (Bool.and_eq_true_iff.mp hlive).1
  have hreq : L.requestFits a = true := (L.requestFits_iff a).mpr hfits
  have hact : L.hostJump k a = (if L.isLeader then L.actRequest a else L.onTime (fun t => { t with request := a })).respond k 64 0 [] := by
    unfold Lane.hostJump Lane.jumpRequest
    rw [if_pos (by omega), hfirmware, hreq]
    rfl
  rw [hact]
  cases hlead : L.isLeader
  · exact ⟨Lane.respond_rd _ _ _ _ _ (by decide), (Lane.respond_posts _ _ _ _ _).keeps (fun M => M.time.request) rfl,
      fun h => absurd h (by decide), ((Lane.SameRings.refl L).onTime _).answerLies k [] (by decide) (by decide)⟩
  · obtain ⟨hdisc, hrequest, hrejected, hrings⟩ := L.actRequest_spec h1 h3 hfits
    exact ⟨(Lane.respond_rd _ _ _ _ _ (by decide)).trans hdisc,
      ((Lane.respond_posts _ _ _ _ _).keeps (fun M => M.time.request) rfl).trans hrequest,
      fun _ ha => ((Lane.respond_posts _ _ _ _ _).keeps (fun M => M.time.rejected) rfl).trans (hrejected ha),
      hrings.answerLies k [] (by decide) (by decide)⟩

/-- TIME_JUMP that fits no discipline state, or asks for nothing known. -/
theorem hostTimeJump_refused (l : LaneId) (k : HostCmd) (a : Nat) : Does (.hostTimeJump l k a)
    (fun L => L.Admits k.port none (some 10) none ∧
      ¬(1 ≤ a ∧ a ≤ 3 ∧ ((a = 3 ∧ L.rd Reg.TS_STAT_DISC = 6) ∨ (a ≠ 3 ∧ L.rd Reg.TS_STAT_DISC = 5))))
    (fun L M => if 1 ≤ a ∧ a ≤ 3 then M.is Reg.TS_JUMP_NOPEND = true ∧ (L.set1 Reg.TS_JUMP_NOPEND).Answers M k 64 8 ([])
      else L.Answers M k 64 9 ([])) := by
  refine does_of_admitted k 0x40 none (some 10) none (Lane.hostJump k a) (fun _ => rfl) (fun _ h => h.1) ?_
  rintro L ⟨⟨hlive, -⟩, hbar⟩
  have hfirmware : L.firmware = true := (Bool.and_eq_true_iff.mp hlive).1
  by_cases ha : 1 ≤ a ∧ a ≤ 3
  · have hreq : L.requestFits a = false := by
      rw [← Bool.not_eq_true, L.requestFits_iff]
      exact fun h => hbar ⟨ha.1, ha.2, h⟩
    have hact : L.hostJump k a = (L.set1 Reg.TS_JUMP_NOPEND).respond k 64 8 [] := by
      unfold Lane.hostJump Lane.jumpRequest
      rw [if_pos (by omega), hfirmware, hreq]
      rfl
    rw [if_pos ha, hact]
    refine ⟨?_, Lane.respond_answers _ _ _ _ _⟩
    rw [Lane.is, Lane.respond_rd _ _ _ _ _ (by decide)]
    exact Lane.is_set1_same _ _ (by decide)
  · have hact : L.hostJump k a = L.respond k 64 9 [] := by
      unfold Lane.hostJump
      rw [if_neg (by omega)]
      rfl
    rw [if_neg ha, hact]
    exact L.respond_answers k 64 9 []

/-! ### AUTUMN_CLR and TEST (R30, R123) -/

/-- AUTUMN_CLR. -/
theorem hostAutumnClr_clears (l : LaneId) (k : HostCmd) (m : Nat) : Does (.hostAutumnClr l k m)
    (fun L => L.Admits k.port none (some 8) none)
    (fun L M => if 31 < m then L.Answers M k 65 9 ([]) else if L.svc ≠ 2 then L.Answers M k 65 8 ([])
      else (∀ f : Func, vget M.ret.autumn f.ix = if nbit m f.code then ⟨false, 0⟩ else vget L.ret.autumn f.ix) ∧
        ({ L with ret := { L.ret with autumn := M.ret.autumn } } : Lane).Answers M k 65 0 ([])) := by
  refine does_of_admitted k 0x41 none (some 8) none (Lane.hostAutumnClr k m) (fun _ => rfl) (fun _ h => h) fun L _ => ?_
  unfold Lane.hostAutumnClr
  by_cases hm : 31 < m
  · rw [if_pos hm, if_pos hm]
    exact L.respond_answers k 65 9 []
  rw [if_neg hm, if_neg hm]
  by_cases hsvc : L.svc ≠ 2
  · rw [if_pos hsvc, if_pos hsvc]
    exact L.respond_answers k 65 8 []
  rw [if_neg hsvc, if_neg hsvc, Lane.roleClr, Lane.when_of_true _ _ (decide_eq_true (not_not.mp hsvc))]
  let cleared : Vector AutumnRec 5 := Vector.ofFn (fun (i : Fin 5) => if nbit m i.val then ⟨false, 0⟩ else vget L.ret.autumn i)
  let K : Lane := { L with ret := { L.ret with autumn := cleared } }
  have hret : (K.respond k 65 0 []).ret.autumn = cleared := (K.respond_posts k 65 0 []).keeps (fun M => M.ret.autumn) rfl
  show (∀ f : Func, vget (K.respond k 65 0 []).ret.autumn f.ix = _) ∧
    Lane.Answers { L with ret := { L.ret with autumn := (K.respond k 65 0 []).ret.autumn } } (K.respond k 65 0 []) k 65 0 []
  rw [hret]
  refine ⟨fun f => ?_, K.respond_answers k 65 0 []⟩
  simp only [cleared, vget, Vector.getElem_ofFn]
  rfl

/-- TEST from READY with PARK applied everywhere. -/
theorem hostTest_enters (l : LaneId) (k : HostCmd) : Does (.hostTest l k)
    (fun L => L.Admits k.port none (some 8) none ∧ L.svc = 2 ∧ L.lifecycle ≤ 1 ∧ L.parkOff = true ∧ (L.peers.all (fun p => p.2.parkOff)) = true)
    (fun L M => M.svc = 8 ∧ M.gstate = (if L.rd Reg.SYS_ARM_STEP = 0 then L.gstate else 0) ∧ M.rd Reg.SYS_ARM_STEP = 0) := by
  refine does_of_admitted k 0x42 none (some 8) none (Lane.hostTest k) (fun _ => rfl) (fun _ h => h.1) ?_
  rintro L ⟨-, hsvc, hlc, hpark, hpeers⟩
  let K : Lane := L.when (decide (L.rd Reg.SYS_ARM_STEP ≠ 0)) (Lane.armEnd 0)
  have hact : L.hostTest k = (K.setSvc 8).respond k 66 0 [] := if_pos ⟨hsvc, hlc, hpark, hpeers⟩
  have hK : K.gstate = (if L.rd Reg.SYS_ARM_STEP = 0 then L.gstate else 0) ∧ K.rd Reg.SYS_ARM_STEP = 0 := by
    by_cases hstep : L.rd Reg.SYS_ARM_STEP = 0
    · rw [show K = L from Lane.when_of_false _ _ (by simp [hstep]), if_pos hstep]
      exact ⟨rfl, hstep⟩
    · rw [show K = L.armEnd 0 from Lane.when_of_true _ _ (by simp [hstep]), if_neg hstep]
      obtain ⟨-, -, hended, -, hhold, -⟩ := L.armEnd_spec 0 (by decide)
      exact ⟨hhold, hended⟩
  have hkeep {g : Fld} (h1 : ¬SvcKey g.key) (h2 : g.key ≠ Reg.SYS_STATE_STATE.key) (h3 : g.key < 0x200A0004 * 64 ∨ 0x200A0200 * 64 ≤ g.key) :
      ((K.setSvc 8).respond k 66 0 []).rd g = K.rd g := (Lane.respond_rd _ _ _ _ _ h3).trans (K.setSvc_rd 8 g h1 h2)
  rw [hact]
  exact ⟨(Lane.respond_rd _ _ _ _ _ (by decide)).trans (K.setSvc_svc 8 (by decide)),
    (hkeep (by unfold SvcKey; decide) (by decide) (by decide)).trans hK.1,
    (hkeep (by unfold SvcKey; decide) (by decide) (by decide)).trans hK.2⟩

/-- TEST where the lane may not enter it. -/
theorem hostTest_refused (l : LaneId) (k : HostCmd) : Does (.hostTest l k)
    (fun L => L.Admits k.port none (some 8) none ∧ (L.svc ≠ 2 ∨ 1 < L.lifecycle ∨ L.parkOff = false)) (fun L M => L.Answers M k 66 8 ([])) := by
  refine does_of_admitted k 0x42 none (some 8) none (Lane.hostTest k) (fun _ => rfl) (fun _ h => h.1) ?_
  rintro L ⟨-, hbar⟩
  have hact : L.hostTest k = L.respond k 66 8 [] := by
    refine if_neg ?_
    rintro ⟨hsvc, hlc, hpark, -⟩
    obtain h | h | h := hbar
    · exact h hsvc
    · omega
    · exact absurd hpark (by rw [h]; decide)
  rw [hact]
  exact L.respond_answers k 66 8 []

end Sys2Proof.Machine


namespace Sys2Proof.Machine

/-! ### PD_ENTER and PD_WAKE (R426, R457, R458, R463, R475) -/

/-- The registers of the power controller lie off the rings. -/
theorem offRings_of_pd {k : Nat} (h : 0x20040000 ≤ k / 64 ∧ k / 64 < 0x20040060) : OffRings k := by
  unfold OffRings
  omega

theorem Lane.pdFld_key (d : Fin 8) : (Lane.pdFld d).key = 0x20040000 * 64 + 4 * d.val := by
  simp only [Lane.pdFld, Fld.key]

/-- The fields of PD_REQ after a request has been stored. -/
theorem Lane.pdFields_spec (L : Lane) (d : Fin 8) {t o : Nat} (ht : t < 4) (ho : o < 8) :
    (L.pdFields d.val t o).rd Reg.PD_REQ_DOM = d.val ∧ (L.pdFields d.val t o).rd Reg.PD_REQ_TARGET = t ∧
      (L.pdFields d.val t o).rd Reg.PD_REQ_ORIGIN = o := by
  have hfields : L.pdFields d.val t o = ((L.wr Reg.PD_REQ_DOM d.val).wr Reg.PD_REQ_TARGET t).wr Reg.PD_REQ_ORIGIN o := rfl
  rw [hfields]
  refine ⟨?_, ?_, ?_⟩
  · rw [Lane.rd_wr_ne _ _ (by decide), Lane.rd_wr_ne _ _ (by decide), Lane.rd_wr_same]
    exact Nat.mod_eq_of_lt d.isLt
  · rw [Lane.rd_wr_ne _ _ (by decide), Lane.rd_wr_same]
    exact Nat.mod_eq_of_lt ht
  · rw [Lane.rd_wr_same]
    exact Nat.mod_eq_of_lt ho

/-- A stored request changes nothing outside its three fields. -/
theorem Lane.pdFields_rd (L : Lane) (d t o : Nat) {g : Fld} (h1 : Reg.PD_REQ_DOM.key ≠ g.key) (h2 : Reg.PD_REQ_TARGET.key ≠ g.key)
    (h3 : Reg.PD_REQ_ORIGIN.key ≠ g.key) : (L.pdFields d t o).rd g = L.rd g :=
  (Lane.rd_wr_ne _ _ h3).trans ((Lane.rd_wr_ne _ _ h2).trans (L.rd_wr_ne _ h1))

theorem Lane.SameRings.pdFields (L : Lane) (d t o : Nat) : L.SameRings (L.pdFields d t o) :=
  (((Lane.SameRings.refl L).wr Reg.PD_REQ_DOM d (by unfold OffRings; decide)).wr Reg.PD_REQ_TARGET t (by unfold OffRings; decide)).wr
    Reg.PD_REQ_ORIGIN o (by unfold OffRings; decide)

/-- A request is in progress, with the host that waits for it. -/
def Lane.awaits (r : Fin 8 × Nat) (ask : HostCmd × Nat) (L : Lane) : Lane :=
  { L with power := { L.power with asker := some ask, request := some r } }

theorem Lane.awaits_rd (L : Lane) (r : Fin 8 × Nat) (ask : HostCmd × Nat) (g : Fld) : (L.awaits r ask).rd g = L.rd g := rfl

theorem Lane.SameRings.awaits {L K : Lane} (h : L.SameRings K) (r : Fin 8 × Nat) (ask : HostCmd × Nat) : L.SameRings (K.awaits r ask) :=
  ⟨⟨h.places.img, h.places.rd⟩, h.queue, h.used⟩

/-- The state of a lane whose request has been stored with the host that waits for it. -/
def Lane.pdAsked (d : Fin 8) (target origin : Nat) (ask : HostCmd × Nat) (L : Lane) : Lane :=
  (L.pdFields d.val target origin).awaits (d, target) ask

theorem Lane.pdAsked_rd (L : Lane) (d : Fin 8) (t o : Nat) (ask : HostCmd × Nat) {g : Fld} (h1 : Reg.PD_REQ_DOM.key ≠ g.key)
    (h2 : Reg.PD_REQ_TARGET.key ≠ g.key) (h3 : Reg.PD_REQ_ORIGIN.key ≠ g.key) : (L.pdAsked d t o ask).rd g = L.rd g := by
  rw [Lane.pdAsked, Lane.awaits_rd, L.pdFields_rd d.val t o h1 h2 h3]

theorem Lane.SameRings.pdAsked (L : Lane) (d : Fin 8) (t o : Nat) (ask : HostCmd × Nat) : L.SameRings (L.pdAsked d t o ask) :=
  (Lane.SameRings.pdFields L d.val t o).awaits _ _

theorem Lane.pdAsked_state (L : Lane) (d : Fin 8) (t o : Nat) (ask : HostCmd × Nat) :
    (L.pdAsked d t o ask).rd (Lane.pdFld d) = L.rd (Lane.pdFld d) :=
  L.pdAsked_rd d t o ask (by rw [Lane.pdFld_key]; simp only [Reg.PD_REQ_DOM, Fld.key]; omega)
    (by rw [Lane.pdFld_key]; simp only [Reg.PD_REQ_TARGET, Fld.key]; omega)
    (by rw [Lane.pdFld_key]; simp only [Reg.PD_REQ_ORIGIN, Fld.key]; omega)

/-- What bars an entry does not depend on the fields of PD_REQ. -/
theorem Lane.pdAsked_refusal (L : Lane) (d : Fin 8) (t o : Nat) (ask : HostCmd × Nat) :
    (L.pdAsked d t o ask).pdRefusal d t o = L.pdRefusal d t o := by
  have hrd {g : Fld} (h : g.key < 0x20040004 * 64 ∨ 0x20040005 * 64 ≤ g.key) : (L.pdAsked d t o ask).rd g = L.rd g :=
    L.pdAsked_rd d t o ask (by simp only [Reg.PD_REQ_DOM, Fld.key] at h ⊢; omega) (by simp only [Reg.PD_REQ_TARGET, Fld.key] at h ⊢; omega)
      (by simp only [Reg.PD_REQ_ORIGIN, Fld.key] at h ⊢; omega)
  have hallow := hrd (g := Reg.PD_POLICY_ALLOW d.val) (.inr (by simp only [Reg.PD_POLICY_ALLOW, Fld.key]; omega))
  have hmask := hrd (g := Reg.PD_POLICY_HOST_MASK d.val) (.inr (by simp only [Reg.PD_POLICY_HOST_MASK, Fld.key]; omega))
  have hrun (n : Nat) := hrd (g := Reg.DE_CTRL_RUN n) (.inr (by simp only [Reg.DE_CTRL_RUN, Fld.key]; omega))
  have hsealed (n : Nat) := hrd (g := Reg.DE_STATUS_SEALED n) (.inr (by simp only [Reg.DE_STATUS_SEALED, Fld.key]; omega))
  simp only [Lane.pdRefusal, Lane.pdBar, Lane.svc, Lane.armedState, Lane.is, Lane.bitOf]
  simp only [hallow, hmask, hrun, hsealed, L.pdAsked_state, hrd (g := Reg.SYS_STATE_STATE) (by decide), hrd (g := Reg.CM_STATUS_DEBUG) (by decide),
    hrd (g := Reg.GD_STAT_EN) (by decide), hrd (g := Reg.SZ_STAT_STATE 0) (by decide), hrd (g := Reg.SZ_STAT_STATE 1) (by decide),
    hrd (g := Reg.SYS_RET_STATUS_BUSY) (by decide), hrd (g := Reg.BT_SLICE_STAT_RUNNING) (by decide)] <;> rfl

/-- A request of a host while none is in progress: a wake of a domain that is on ends at once, another one runs; an entry that is barred
ends at once, another one runs (R457, R458, R461). -/
theorem Lane.pdRequest_host (L : Lane) (d : Fin 8) (t o : Nat) (k : HostCmd) (op : Nat) (hidle : L.is Reg.PD_REQ_BUSY = false) :
    let K := L.pdAsked d t o (k, op)
    L.pdRequest d t o (some (k, op)) =
      if t = 0 then (if L.rd (Lane.pdFld d) = 0 then K.pdEnd 0 0 0 else (K.set1 Reg.PD_REQ_BUSY).pdWake d 18)
      else
        match L.pdRefusal d t o with
        | some w => (K.when (K.is (Reg.PD_ACCT_MODE d.val) && decide (w ≠ 3)) (Lane.pdCount d w 0)).pdEnd 1 w 0
        | none => ((((K.set1 Reg.PD_REQ_BUSY).wr (Lane.pdFld d) 1).onDom d (fun x => { x with step := 1, target := t, wakeBy := none })).restart
            (.wfi d)) := by
  dsimp only
  rw [← L.pdAsked_state d t o (k, op), ← L.pdAsked_refusal d t o (k, op)]
  unfold Lane.pdRequest
  rw [hidle]
  rfl

/-- A request of a host that meets one in progress. -/
theorem Lane.pdRequest_busy (L : Lane) (d : Fin 8) (t o : Nat) (k : HostCmd) (op : Nat) (hbusy : L.is Reg.PD_REQ_BUSY = true) :
    L.pdRequest d t o (some (k, op)) = L.respond k op 8 (leBytes 1 20 ++ leBytes 1 0) := by
  unfold Lane.pdRequest
  rw [hbusy]
  rfl

/-- The five fields of PD_REQ that show a request's end. -/
def Lane.pdShown (result who how : Nat) (L : Lane) : Lane :=
  ((((L.wr Reg.PD_REQ_BUSY 0).wr Reg.PD_REQ_DONE 1).wr Reg.PD_REQ_RESULT result).wr Reg.PD_REQ_WHO who).wr Reg.PD_REQ_HOW how

theorem Lane.pdShown_spec (L : Lane) {result who how : Nat} (hr : result < 4) (hw : who < 32) :
    (L.pdShown result who how).is Reg.PD_REQ_BUSY = false ∧ (L.pdShown result who how).is Reg.PD_REQ_DONE = true ∧
      (L.pdShown result who how).rd Reg.PD_REQ_RESULT = result ∧ (L.pdShown result who how).rd Reg.PD_REQ_WHO = who := by
  unfold Lane.pdShown
  refine ⟨?_, ?_, ?_, ?_⟩
  · simp (disch := decide) only [Lane.is, Lane.rd_wr_ne, Lane.rd_wr_same]
    rfl
  · simp (disch := decide) only [Lane.is, Lane.rd_wr_ne, Lane.rd_wr_same]
    rfl
  · simp (disch := decide) only [Lane.rd_wr_ne, Lane.rd_wr_same]
    exact Nat.mod_eq_of_lt hr
  · simp (disch := decide) only [Lane.rd_wr_ne, Lane.rd_wr_same]
    exact Nat.mod_eq_of_lt hw

theorem Lane.pdShown_rd (L : Lane) (result who how : Nat) {g : Fld} (hg : g.key < 0x20040004 * 64 ∨ 0x20040005 * 64 ≤ g.key) :
    (L.pdShown result who how).rd g = L.rd g := by
  have hne (f : Fld) (hf : f.reg = 0x20040004) (hlo : f.lo < 64) : f.key ≠ g.key := by
    intro e
    rw [← e] at hg
    simp only [Fld.key, hf] at hg
    omega
  unfold Lane.pdShown
  rw [Lane.rd_wr_ne _ _ (hne _ rfl (by decide)), Lane.rd_wr_ne _ _ (hne _ rfl (by decide)), Lane.rd_wr_ne _ _ (hne _ rfl (by decide)),
    Lane.rd_wr_ne _ _ (hne _ rfl (by decide)), Lane.rd_wr_ne _ _ (hne _ rfl (by decide))]

/-- A request has ended and nobody waits for it any longer. -/
def Lane.pdFree (L : Lane) : Lane :=
  let K := ({ L with power := { L.power with request := none } }).when (L.is Reg.PD_CTRL_IE) (Lane.irq .pd)
  { K with power := { K.power with asker := none } }

theorem Lane.pdFree_rd (L : Lane) (g : Fld) : L.pdFree.rd g = L.rd g := by
  unfold Lane.pdFree Lane.when
  split <;> simp [Lane.rd]

theorem Lane.SameRings.pdFree {L K : Lane} (h : L.SameRings K) : L.SameRings K.pdFree := by
  have hstart : K.pdFree.start = K.start ∧ K.pdFree.queue = K.queue := by
    unfold Lane.pdFree Lane.when
    split <;> simp
  refine ⟨⟨?_, fun g hg => (K.pdFree_rd g).trans (h.places.rd g hg)⟩, hstart.2.trans h.queue, fun q => (K.pdFree_rd _).trans (h.used q)⟩
  rw [Lane.img, hstart.1]
  exact h.places.img

/-- The status with which the end of a request is answered, and its arguments (R437, R457, R463). -/
def pdStatus (result who : Nat) : Nat := if result = 0 then 0 else if who = 3 then 6 else 8
def pdArgs (result who how : Nat) : List Byte := if result = 0 ∨ who = 3 then [] else leBytes 1 who ++ leBytes 1 how

/-- The end of a request for which a host waits. -/
theorem Lane.pdEnd_asked (L : Lane) (result who how : Nat) (k : HostCmd) (op : Nat) (hask : L.power.asker = some (k, op)) :
    L.pdEnd result who how = (L.pdShown result who how).pdFree.respond k op (pdStatus result who) (pdArgs result who how) := by
  have hshown : (L.pdShown result who how).power = L.power := rfl
  have hfields : L.loadFields [(Reg.PD_REQ_BUSY, 0), (Reg.PD_REQ_DONE, 1), (Reg.PD_REQ_RESULT, result), (Reg.PD_REQ_WHO, who),
    (Reg.PD_REQ_HOW, how)] = L.pdShown result who how := rfl
  unfold Lane.pdEnd
  rw [hfields]
  generalize L.pdShown result who how = K at hshown
  have hasker : (({ K with power := { K.power with request := none } } : Lane).when (K.is Reg.PD_CTRL_IE) (Lane.irq .pd)).power.asker =
      some (k, op) := by
    unfold Lane.when
    split <;> simp [hshown, hask]
  dsimp only
  rw [hasker]
  unfold pdStatus pdArgs
  by_cases hr : result = 0
  · simp only [hr, if_true, true_or]
    rfl
  · by_cases hw : who = 3
    · simp only [hr, hw, if_true, if_false, or_true]
      rfl
    · simp only [hr, hw, if_false, or_self]
      rfl

end Sys2Proof.Machine


namespace Sys2Proof.Machine

/-- Two states of a lane hold the same queues, outputs and power domains. -/
def Lane.SamePlant (M L : Lane) : Prop := M.queue = L.queue ∧ M.out = L.out ∧ M.power = L.power

theorem Lane.set1_plant (L : Lane) (f : Fld) : (L.set1 f).SamePlant L := ⟨rfl, rfl, rfl⟩

theorem Lane.pdFields_plant (L : Lane) (d t o : Nat) : (L.pdFields d t o).queue = L.queue ∧ (L.pdFields d t o).out = L.out ∧
    (L.pdFields d t o).power = L.power := ⟨rfl, rfl, rfl⟩

theorem Lane.awaits_keeps (K : Lane) (r : Fin 8 × Nat) (ask : HostCmd × Nat) : (K.awaits r ask).queue = K.queue ∧
    (K.awaits r ask).out = K.out ∧ (K.awaits r ask).power = { K.power with asker := some ask, request := some r } := ⟨rfl, rfl, rfl⟩

/-- A stored request changes neither queues, outputs nor power domains. -/
theorem Lane.pdAsked_keeps (L : Lane) (d : Fin 8) (t o : Nat) (ask : HostCmd × Nat) : (L.pdAsked d t o ask).queue = L.queue ∧
    (L.pdAsked d t o ask).out = L.out ∧ (L.pdAsked d t o ask).power = { L.power with asker := some ask, request := some (d, t) } := by
  obtain ⟨hqueue, hout, hpower⟩ := L.pdFields_plant d.val t o
  obtain ⟨aqueue, aout, apower⟩ := (L.pdFields d.val t o).awaits_keeps (d, t) ask
  rw [hpower] at apower
  unfold Lane.pdAsked
  exact ⟨aqueue.trans hqueue, aout.trans hout, apower⟩

/-- The fields of PD_REQ that a request in progress shows. -/
theorem Lane.pdAsked_fields (L : Lane) (d : Fin 8) {t o : Nat} (ask : HostCmd × Nat) (ht : t < 4) (ho : o < 8) :
    (L.pdAsked d t o ask).rd Reg.PD_REQ_DOM = d.val ∧ (L.pdAsked d t o ask).rd Reg.PD_REQ_TARGET = t ∧
      (L.pdAsked d t o ask).rd Reg.PD_REQ_ORIGIN = o := by
  rw [Lane.pdAsked, Lane.awaits_rd, Lane.awaits_rd, Lane.awaits_rd]
  exact L.pdFields_spec d ht ho

/-- A field of PD_REQ is not the state of a domain. -/
theorem pdFld_ne_pdReq (d : Fin 8) {g : Fld} (hg : 0x20040004 * 64 ≤ g.key) : (Lane.pdFld d).key ≠ g.key := by
  rw [Lane.pdFld_key]
  omega

/-- A counted event changes PD_ACCT_d alone. -/
theorem Lane.pdCount_rd_ne (L : Lane) (d : Fin 8) (who how : Nat) {g : Fld} (hg : g.key < 0x20040040 * 64) :
    (L.pdCount d who how).rd g = L.rd g := by
  have hcount : (Reg.PD_ACCT_COUNT d.val).key ≠ g.key := by simp only [Reg.PD_ACCT_COUNT, Fld.key] at hg ⊢; omega
  have hwho : (Reg.PD_ACCT_WHO d.val).key ≠ g.key := by simp only [Reg.PD_ACCT_WHO, Fld.key] at hg ⊢; omega
  have hhow : (Reg.PD_ACCT_HOW d.val).key ≠ g.key := by simp only [Reg.PD_ACCT_HOW, Fld.key] at hg ⊢; omega
  unfold Lane.pdCount Lane.count
  rw [Lane.rd_wr_ne _ _ hhow, Lane.rd_wr_ne _ _ hwho, Lane.rd_wr_ne _ _ hcount]

theorem Lane.SameRings.pdCount {L K : Lane} (h : L.SameRings K) (d : Fin 8) (who how : Nat) : L.SameRings (K.pdCount d who how) :=
  ((h.wr _ _ (offRings_of_pd (by simp only [Reg.PD_ACCT_COUNT, Fld.key]; omega))).wr _ _
    (offRings_of_pd (by simp only [Reg.PD_ACCT_WHO, Fld.key]; omega))).wr _ _ (offRings_of_pd (by simp only [Reg.PD_ACCT_HOW, Fld.key]; omega))

/-- The code of a refusal fits PD_REQ.WHO (R458, R475). -/
theorem Lane.pdRefusal_lt (L : Lane) (d : Fin 8) (t o : Nat) {w : Nat} (h : L.pdRefusal d t o = some w) : w < 32 := by
  have hbar {b : Nat} (hb : L.pdBar d = some b) : b < 32 := by
    unfold Lane.pdBar at hb
    repeat' split at hb
    all_goals cases hb <;> decide
  unfold Lane.pdRefusal at h
  repeat' split at h
  all_goals cases h
  all_goals first | decide | exact hbar ‹_›

/-- The end of a request for which a host waits: PD_REQ shows it, nobody waits any longer, the host is answered. -/
theorem Lane.pdEnd_spec {L K : Lane} (hrings : L.SameRings K) {result who : Nat} (hr : result < 4) (hw : who < 32) (k : HostCmd) {op : Nat}
    (hop : op < 256) (hask : K.power.asker = some (k, op)) :
    let M := K.pdEnd result who 0
    M.is Reg.PD_REQ_BUSY = false ∧ M.is Reg.PD_REQ_DONE = true ∧ M.rd Reg.PD_REQ_RESULT = result ∧ M.rd Reg.PD_REQ_WHO = who ∧
      (∀ d : Fin 8, M.rd (Lane.pdFld d) = K.rd (Lane.pdFld d)) ∧ M.power.asker = none ∧
      L.AnswerLies M k op (pdStatus result who) ((pdArgs result who 0 ++ List.replicate 48 0).take 48) := by
  dsimp only
  rw [K.pdEnd_asked result who 0 k op hask]
  have hstatus : pdStatus result who < 65536 := by
    unfold pdStatus
    split
    · decide
    · split <;> decide
  have hshown : L.SameRings (K.pdShown result who 0) :=
    ((((hrings.wr _ _ (by unfold OffRings; decide)).wr _ _ (by unfold OffRings; decide)).wr _ _ (by unfold OffRings; decide)).wr _ _
      (by unfold OffRings; decide)).wr _ _ (by unfold OffRings; decide)
  have hread {g : Fld} (hg : g.key < 0x200A0004 * 64) :
      ((K.pdShown result who 0).pdFree.respond k op (pdStatus result who) (pdArgs result who 0)).rd g = (K.pdShown result who 0).rd g :=
    (Lane.respond_rd _ _ _ _ _ (.inl hg)).trans (Lane.pdFree_rd _ _)
  obtain ⟨hbusy, hdone, hresult, hwho⟩ := K.pdShown_spec (how := 0) hr hw
  refine ⟨?_, ?_, (hread (by decide)).trans hresult, (hread (by decide)).trans hwho, fun d => ?_, ?_, hshown.pdFree.answerLies k _ hop hstatus⟩
  · rw [Lane.is, hread (by decide)]
    exact hbusy
  · rw [Lane.is, hread (by decide)]
    exact hdone
  · exact (hread (by rw [Lane.pdFld_key]; omega)).trans (K.pdShown_rd _ _ _ (.inl (by rw [Lane.pdFld_key]; omega)))
  · exact (Lane.respond_posts _ _ _ _ _).keeps (fun M => M.power.asker) rfl

/-- A domain begins an entry: it is entering at step 1, the request is in progress, queues and outputs stand. -/
theorem Lane.pdEntering_spec (K : Lane) (d : Fin 8) (t : Nat) :
    let M := (((K.set1 Reg.PD_REQ_BUSY).wr (Lane.pdFld d) 1).onDom d (fun x => { x with step := 1, target := t, wakeBy := none })).restart (.wfi d)
    M.is Reg.PD_REQ_BUSY = true ∧ M.rd (Lane.pdFld d) = 1 ∧ ((vget M.power.dom d).step = 1 ∧ (vget M.power.dom d).target = t) ∧
      (∀ {g : Fld}, 0x20040004 * 64 ≤ g.key → Reg.PD_REQ_BUSY.key ≠ g.key → M.rd g = K.rd g) ∧
      M.queue = K.queue ∧ M.out = K.out ∧ M.power.request = K.power.request ∧ M.power.asker = K.power.asker := by
  have hother {g : Fld} (hg : 0x20040004 * 64 ≤ g.key) (hb : Reg.PD_REQ_BUSY.key ≠ g.key) :
      ((K.set1 Reg.PD_REQ_BUSY).wr (Lane.pdFld d) 1).rd g = K.rd g :=
    (Lane.rd_wr_ne _ _ (pdFld_ne_pdReq d hg)).trans (K.rd_wr_ne _ hb)
  have hbusy : ((K.set1 Reg.PD_REQ_BUSY).wr (Lane.pdFld d) 1).is Reg.PD_REQ_BUSY = true := by
    rw [Lane.is, Lane.rd_wr_ne _ _ (pdFld_ne_pdReq d (by decide))]
    exact Lane.is_set1_same _ _ (by decide)
  have hstate : ((K.set1 Reg.PD_REQ_BUSY).wr (Lane.pdFld d) 1).rd (Lane.pdFld d) = 1 := Lane.rd_wr_same _ _ _
  have hplant : ((K.set1 Reg.PD_REQ_BUSY).wr (Lane.pdFld d) 1).SamePlant K := ⟨rfl, rfl, rfl⟩
  generalize (K.set1 Reg.PD_REQ_BUSY).wr (Lane.pdFld d) 1 = N at hother hbusy hstate hplant
  obtain ⟨hqueue, hout, hpower⟩ := hplant
  have hdom : vget (vupd N.power.dom d (fun x => { x with step := 1, target := t, wakeBy := none })) d =
      { vget N.power.dom d with step := 1, target := t, wakeBy := none } := by rw [vget_vupd, if_pos rfl]
  exact ⟨hbusy, hstate, ⟨(congrArg DomainSt.step hdom :), (congrArg DomainSt.target hdom :)⟩, hother, hqueue, hout,
    (congrArg PowerSt.request hpower :), (congrArg PowerSt.asker hpower :)⟩

section
variable (l : LaneId) (k : HostCmd)

/-- PD_ENTER of an unknown domain or target. -/
theorem hostPdEnter_badArg (d t : Nat) : Does (.hostPdEnter l k d t)
    (fun L => L.Admits k.port none (some 9) none ∧ (7 < d ∨ t = 0 ∨ 2 < t)) (fun L M => L.Answers M k 80 9 ([])) :=
  does_of_admitted k 0x50 none (some 9) none (Lane.hostPdEnter k d t) (fun _ => rfl) (fun _ h => h.1) fun L h => by
    rw [show L.hostPdEnter k d t = L.respond k 80 9 [] from if_pos h.2]
    exact L.respond_answers k 80 9 []

/-- PD_ENTER of a known domain and target is a request. -/
theorem Lane.hostPdEnter_request (L : Lane) (d : Fin 8) {t : Nat} (h1 : 1 ≤ t) (h2 : t ≤ 2) :
    L.hostPdEnter k d.val t = L.pdRequest d t k.port.val (some (k, 80)) := by
  have hd : (Fin.ofNat 8 d.val) = d := Fin.ext (Nat.mod_eq_of_lt d.isLt)
  unfold Lane.hostPdEnter
  rw [if_neg (by omega), hd]

/-- PD_ENTER while a request is in progress. -/
theorem hostPdEnter_busy (d : Fin 8) (t : Nat) : Does (.hostPdEnter l k d.val t)
    (fun L => L.Admits k.port none (some 9) none ∧ 1 ≤ t ∧ t ≤ 2 ∧ L.is Reg.PD_REQ_BUSY = true)
    (fun L M => L.Answers M k 80 8 (leBytes 1 20 ++ leBytes 1 0)) :=
  does_of_admitted k 0x50 none (some 9) none (Lane.hostPdEnter k d.val t) (fun _ => rfl) (fun _ h => h.1) fun L ⟨_, h1, h2, hbusy⟩ => by
    rw [L.hostPdEnter_request k d h1 h2, L.pdRequest_busy d t _ k 80 hbusy]
    exact L.respond_answers k 80 8 _

/-- PD_ENTER that nothing bars: the entry begins and the host waits. -/
theorem hostPdEnter_enters (d : Fin 8) (t : Nat) : Does (.hostPdEnter l k d.val t)
    (fun L => L.Admits k.port none (some 9) none ∧ 1 ≤ t ∧ t ≤ 2 ∧ L.is Reg.PD_REQ_BUSY = false ∧ L.pdRefusal d t k.port.val = none)
    (fun L M => M.is Reg.PD_REQ_BUSY = true ∧ M.rd (Lane.pdFld d) = 1 ∧ M.power.request = some (d, t) ∧ M.power.asker = some (k, 80) ∧
      (vget M.power.dom d).step = 1 ∧ (vget M.power.dom d).target = t ∧ M.rd Reg.PD_REQ_DOM = d.val ∧ M.rd Reg.PD_REQ_TARGET = t ∧
      M.rd Reg.PD_REQ_ORIGIN = k.port.val ∧ M.queue = L.queue ∧ M.out = L.out) := by
  refine does_of_admitted k 0x50 none (some 9) none (Lane.hostPdEnter k d.val t) (fun _ => rfl) (fun _ h => h.1) ?_
  rintro L ⟨-, h1, h2, hidle, hfree⟩
  have hreq := L.pdRequest_host d t k.port.val k 80 hidle
  dsimp only at hreq
  rw [if_neg (by omega), hfree] at hreq
  dsimp only at hreq
  rw [L.hostPdEnter_request k d h1 h2, hreq]
  obtain ⟨hqueue, hout, hpower⟩ := L.pdAsked_keeps d t k.port.val (k, 80)
  obtain ⟨hdom, htarget, horigin⟩ := L.pdAsked_fields d (o := k.port.val) (k, 80) (show t < 4 by omega) (by omega)
  generalize L.pdAsked d t k.port.val (k, 80) = K at hqueue hout hpower hdom htarget horigin
  obtain ⟨hbusy, hstate, hstep, hother, hplant⟩ := K.pdEntering_spec d t
  obtain ⟨hqueueM, houtM, hrequestM, haskerM⟩ := hplant
  exact ⟨hbusy, hstate, hrequestM.trans (by rw [hpower]), haskerM.trans (by rw [hpower]), hstep.1, hstep.2,
    (hother (by decide) (by decide)).trans hdom, (hother (by decide) (by decide)).trans htarget,
    (hother (by decide) (by decide)).trans horigin, hqueueM.trans hqueue, houtM.trans hout⟩

/-- PD_ENTER that is barred ends at once with what bars it. -/
theorem hostPdEnter_refused (d : Fin 8) (t w : Nat) : Does (.hostPdEnter l k d.val t)
    (fun L => L.Admits k.port none (some 9) none ∧ 1 ≤ t ∧ t ≤ 2 ∧ L.is Reg.PD_REQ_BUSY = false ∧ L.pdRefusal d t k.port.val = some w)
    (fun L M => M.is Reg.PD_REQ_BUSY = false ∧ M.is Reg.PD_REQ_DONE = true ∧ M.rd Reg.PD_REQ_RESULT = 1 ∧ M.rd Reg.PD_REQ_WHO = w ∧
      M.rd (Lane.pdFld d) = L.rd (Lane.pdFld d) ∧ M.power.asker = none ∧
      L.AnswerLies M k 80 (if w = 3 then 6 else 8)
        (if w = 3 then List.replicate 48 0 else leBytes 1 w ++ leBytes 1 0 ++ List.replicate 46 0)) := by
  refine does_of_admitted k 0x50 none (some 9) none (Lane.hostPdEnter k d.val t) (fun _ => rfl) (fun _ h => h.1) ?_
  rintro L ⟨-, h1, h2, hidle, hbar⟩
  have hreq := L.pdRequest_host d t k.port.val k 80 hidle
  dsimp only at hreq
  rw [if_neg (by omega), hbar] at hreq
  dsimp only at hreq
  rw [L.hostPdEnter_request k d h1 h2, hreq]
  obtain ⟨-, -, hpower⟩ := L.pdAsked_keeps d t k.port.val (k, 80)
  have hrings := Lane.SameRings.pdAsked L d t k.port.val (k, 80)
  have hstate := L.pdAsked_state d t k.port.val (k, 80)
  generalize L.pdAsked d t k.port.val (k, 80) = K at hpower hrings hstate
  generalize (K.is (Reg.PD_ACCT_MODE d.val) && decide (w ≠ 3)) = b
  have hcounted : L.SameRings (K.when b (Lane.pdCount d w 0)) ∧ (K.when b (Lane.pdCount d w 0)).power.asker = some (k, 80) ∧
      (K.when b (Lane.pdCount d w 0)).rd (Lane.pdFld d) = L.rd (Lane.pdFld d) := by
    have hasker : K.power.asker = some (k, 80) := by rw [hpower]
    cases b
    · exact ⟨hrings, hasker, hstate⟩
    · exact ⟨hrings.pdCount d w 0, hasker, (K.pdCount_rd_ne d w 0 (by rw [Lane.pdFld_key]; omega)).trans hstate⟩
  obtain ⟨hringsC, haskC, hstateC⟩ := hcounted
  obtain ⟨hbusy, hdone, hresult, hwho, hdomain, hnobody, hanswer⟩ :=
    Lane.pdEnd_spec hringsC (result := 1) (by decide) (L.pdRefusal_lt d t _ hbar) k (op := 80) (by decide) haskC
  refine ⟨hbusy, hdone, hresult, hwho, (hdomain d).trans hstateC, hnobody, ?_⟩
  by_cases hw : w = 3
  · subst hw
    exact hanswer
  · simp only [if_neg hw]
    simp only [pdStatus, pdArgs, hw, if_false, or_false] at hanswer
    exact hanswer

/-- PD_WAKE of an unknown domain. -/
theorem hostPdWake_badArg (d : Nat) : Does (.hostPdWake l k d)
    (fun L => L.Admits k.port none (some 9) none ∧ 7 < d) (fun L M => L.Answers M k 81 9 ([])) :=
  does_of_admitted k 0x51 none (some 9) none (Lane.hostPdWake k d) (fun _ => rfl) (fun _ h => h.1) fun L h => by
    rw [show L.hostPdWake k d = L.respond k 81 9 [] from if_pos h.2]
    exact L.respond_answers k 81 9 []

/-- PD_WAKE by a host that POWER.HOST_MASK names is a request. -/
theorem Lane.hostPdWake_request (L : Lane) (d : Fin 8) (hmask : L.bitOf (Reg.PD_POLICY_HOST_MASK d.val) k.port.val = true) :
    L.hostPdWake k d.val = L.pdRequest d 0 k.port.val (some (k, 81)) := by
  have hd : (Fin.ofNat 8 d.val) = d := Fin.ext (Nat.mod_eq_of_lt d.isLt)
  unfold Lane.hostPdWake
  rw [if_neg (by omega), hmask, if_neg (by decide), hd]

/-- PD_WAKE by a host that POWER.HOST_MASK does not name, or while a request is in progress. -/
theorem hostPdWake_refused (d : Fin 8) : Does (.hostPdWake l k d.val)
    (fun L => L.Admits k.port none (some 9) none ∧ (L.bitOf (Reg.PD_POLICY_HOST_MASK d.val) k.port.val = false ∨ L.is Reg.PD_REQ_BUSY = true))
    (fun L M => if L.bitOf (Reg.PD_POLICY_HOST_MASK d.val) k.port.val = false then L.Answers M k 81 6 ([])
      else L.Answers M k 81 8 (leBytes 1 20 ++ leBytes 1 0)) := by
  refine does_of_admitted k 0x51 none (some 9) none (Lane.hostPdWake k d.val) (fun _ => rfl) (fun _ h => h.1) ?_
  rintro L ⟨-, hbar⟩
  cases hmask : L.bitOf (Reg.PD_POLICY_HOST_MASK d.val) k.port.val
  · have hact : L.hostPdWake k d.val = L.respond k 81 6 [] := by
      unfold Lane.hostPdWake
      rw [if_neg (by omega), hmask]
      rfl
    rw [if_pos rfl, hact]
    exact L.respond_answers k 81 6 []
  · have hbusy : L.is Reg.PD_REQ_BUSY = true := hbar.resolve_left (by rw [hmask]; decide)
    rw [if_neg (by decide), L.hostPdWake_request k d hmask, L.pdRequest_busy d 0 _ k 81 hbusy]
    exact L.respond_answers k 81 8 _

/-- A wake event of a domain: one in retention or off begins to wake; PD_REQ, the request and the queues stand. -/
theorem Lane.pdWake_spec (K : Lane) (d : Fin 8) (who : Nat) :
    (K.pdWake d who).queue = K.queue ∧ (K.pdWake d who).power.request = K.power.request ∧ (K.pdWake d who).power.asker = K.power.asker ∧
      (∀ {g : Fld}, 0x20040004 * 64 ≤ g.key → g.key < 0x20040040 * 64 → (K.pdWake d who).rd g = K.rd g) ∧
      (K.rd (Lane.pdFld d) = 2 ∨ K.rd (Lane.pdFld d) = 3 → (K.pdWake d who).rd (Lane.pdFld d) = 4) := by
  unfold Lane.pdWake
  dsimp only
  by_cases h1 : K.rd (Lane.pdFld d) = 1
  · rw [if_pos h1]
    exact ⟨rfl, rfl, rfl, fun _ _ => rfl, fun h => by omega⟩
  rw [if_neg h1]
  by_cases h23 : K.rd (Lane.pdFld d) = 2 ∨ K.rd (Lane.pdFld d) = 3
  · rw [if_pos h23]
    generalize (if K.rd (Lane.pdFld d) = 2 then 5 else 6) = how
    generalize (!K.is (Reg.PD_ACCT_MODE d.val)) = b
    have hother {g : Fld} (hg : 0x20040004 * 64 ≤ g.key) : (K.wr (Lane.pdFld d) 4).rd g = K.rd g := K.rd_wr_ne _ (pdFld_ne_pdReq d hg)
    have hwaking : (K.wr (Lane.pdFld d) 4).rd (Lane.pdFld d) = 4 := Lane.rd_wr_same _ _ _
    have hqueue : (K.wr (Lane.pdFld d) 4).queue = K.queue := rfl
    have hpower : (K.wr (Lane.pdFld d) 4).power = K.power := rfl
    generalize K.wr (Lane.pdFld d) 4 = N at hother hwaking hqueue hpower
    have hrd (g : Fld) : (N.onDom d (fun x => { x with fromState := K.rd (Lane.pdFld d) })).rd g = N.rd g := rfl
    have hrequest : (N.onDom d (fun x => { x with fromState := K.rd (Lane.pdFld d) })).power.request = K.power.request := by
      rw [← hpower]
      rfl
    have hasker : (N.onDom d (fun x => { x with fromState := K.rd (Lane.pdFld d) })).power.asker = K.power.asker := by
      rw [← hpower]
      rfl
    cases b
    · exact ⟨hqueue, hrequest, hasker, fun hg _ => hother hg, fun _ => hwaking⟩
    · exact ⟨hqueue, hrequest, hasker, fun hg hg' => (Lane.pdCount_rd_ne _ d who how hg').trans (hother hg),
        fun _ => (Lane.pdCount_rd_ne _ d who how (by rw [Lane.pdFld_key]; omega)).trans hwaking⟩
  · rw [if_neg h23]
    exact ⟨rfl, rfl, rfl, fun _ _ => rfl, fun h => absurd h h23⟩

/-- PD_WAKE: of a domain that is on it ends at once; else the host waits. -/
theorem hostPdWake_wakes (d : Fin 8) : Does (.hostPdWake l k d.val)
    (fun L => L.Admits k.port none (some 9) none ∧ L.bitOf (Reg.PD_POLICY_HOST_MASK d.val) k.port.val = true ∧ L.is Reg.PD_REQ_BUSY = false)
    (fun L M => if L.rd (Lane.pdFld d) = 0 then M.is Reg.PD_REQ_BUSY = false ∧ M.is Reg.PD_REQ_DONE = true ∧ M.rd Reg.PD_REQ_RESULT = 0 ∧
        M.power.asker = none ∧ L.AnswerLies M k 81 0 (List.replicate 48 0)
      else M.is Reg.PD_REQ_BUSY = true ∧ M.power.request = some (d, 0) ∧ M.power.asker = some (k, 81) ∧ M.queue = L.queue ∧
        (L.rd (Lane.pdFld d) = 2 ∨ L.rd (Lane.pdFld d) = 3 → M.rd (Lane.pdFld d) = 4)) := by
  refine does_of_admitted k 0x51 none (some 9) none (Lane.hostPdWake k d.val) (fun _ => rfl) (fun _ h => h.1) ?_
  rintro L ⟨-, hmask, hidle⟩
  have hreq := L.pdRequest_host d 0 k.port.val k 81 hidle
  dsimp only at hreq
  rw [if_pos rfl] at hreq
  rw [L.hostPdWake_request k d hmask, hreq]
  obtain ⟨hqueue, -, hpower⟩ := L.pdAsked_keeps d 0 k.port.val (k, 81)
  have hrings := Lane.SameRings.pdAsked L d 0 k.port.val (k, 81)
  have hstate := L.pdAsked_state d 0 k.port.val (k, 81)
  generalize L.pdAsked d 0 k.port.val (k, 81) = K at hpower hrings hstate hqueue
  have hasker : K.power.asker = some (k, 81) := by rw [hpower]
  by_cases hon : L.rd (Lane.pdFld d) = 0
  · obtain ⟨hbusy, hdone, hresult, -, -, hnobody, hanswer⟩ :=
      Lane.pdEnd_spec hrings (result := 0) (who := 0) (by decide) (by decide) k (op := 81) (by decide) hasker
    rw [if_pos hon, if_pos hon]
    exact ⟨hbusy, hdone, hresult, hnobody, hanswer⟩
  · obtain ⟨wqueue, wrequest, wasker, wrd, wstate⟩ := (K.set1 Reg.PD_REQ_BUSY).pdWake_spec d 18
    have hstateB : (K.set1 Reg.PD_REQ_BUSY).rd (Lane.pdFld d) = L.rd (Lane.pdFld d) :=
      (K.rd_wr_ne _ (Ne.symm (pdFld_ne_pdReq d (by decide)))).trans hstate
    have hbusy : (K.set1 Reg.PD_REQ_BUSY).is Reg.PD_REQ_BUSY = true := Lane.is_set1_same _ _ (by decide)
    have hplant := K.set1_plant Reg.PD_REQ_BUSY
    rw [if_neg hon, if_neg hon]
    generalize K.set1 Reg.PD_REQ_BUSY = N at wqueue wrequest wasker wrd wstate hstateB hbusy hplant
    obtain ⟨hqueueN, -, hpowerN⟩ := hplant
    refine ⟨?_, wrequest.trans ?_, wasker.trans ?_, wqueue.trans (hqueueN.trans hqueue), fun h => wstate (by rw [hstateB]; exact h)⟩
    · rw [Lane.is, wrd (by decide) (by decide)]
      exact hbusy
    · rw [hpowerN, hpower]
    · rw [hpowerN, hasker]

/-- PD_STATUS. -/
theorem hostPdStatus_answered : Does (.hostPdStatus l k) (fun L => L.Admits k.port none (some 9) none)
    (fun L M => L.Answers M k 82 0 (L.regBytes Reg.PD_STATE_STATE_0.reg)) :=
  does_of_admitted k 0x52 none (some 9) none (fun L => L.respond k 0x52 stOk (L.regBytes (Lane.pdFld 0).reg)) (fun _ => rfl) (fun _ h => h)
    fun L _ => L.respond_answers k 82 0 _

/-- PD_ACCT_GET. -/
theorem hostPdAcctGet_answered : Does (.hostPdAcctGet l k) (fun L => L.Admits k.port none (some 9) none)
    (fun L M => L.Answers M k 83 0 ((List.range 8).flatMap (fun d => L.regBytes (Reg.PD_ACCT_COUNT d).reg))) :=
  does_of_admitted k 0x53 none (some 9) none
    (fun L => L.respond k 0x53 stOk ((List.range 8).flatMap (fun d => L.regBytes (Reg.PD_ACCT_COUNT d).reg))) (fun _ => rfl) (fun _ h => h)
    fun L _ => L.respond_answers k 83 0 _

end

/-- Settles O43: each command is stopped at the gate, refused with its status, or carried out and answered, as the lemmas above say. -/
theorem hostCommands : Obligations.host_commands :=
  ⟨hostStatusGet_stopped, hostStatusGet_closed, hostAttestReq_unknown, hostEngage_split, hostEngage_refused, hostEngage_engages,
    hostEngage_badArg, hostDisengage_ends,
    fun l k v n => (setpoint_taken_does (c := .hostSteerSet l k v n) k (p := 0) (fun _ => rfl) (by decide)).mono
      (fun _ ⟨h, h10, h1000, hrank, hengaged, hsel⟩ => ⟨h, h10, h1000, hrank, hengaged, fun _ => hsel⟩) (fun _ _ _ h => h),
    fun l k v n => setpoint_badArg_does (c := .hostSteerSet l k v n) k (p := 0) (fun _ => rfl),
    fun l k v n => setpoint_notAuthority_does (c := .hostSteerSet l k v n) k (p := 0) (fun _ => rfl),
    hostSteerSet_outranked,
    fun l k v n => (setpoint_taken_does (c := .hostBrakeSet l k v n) k (p := 1) (fun _ => rfl) (by decide)).mono
      (fun _ ⟨h, h10, h1000, hrank, hengaged⟩ => ⟨h, h10, h1000, hrank, hengaged, fun e => nomatch e⟩) (fun _ _ _ h => h),
    fun l k v n => setpoint_badArg_does (c := .hostBrakeSet l k v n) k (p := 1) (fun _ => rfl),
    fun l k v n => setpoint_notAuthority_does (c := .hostBrakeSet l k v n) k (p := 1) (fun _ => rfl),
    fun l k v n => (setpoint_taken_does (c := .hostTrailSet l k v n) k (p := 2) (fun _ => rfl) (by decide)).mono
      (fun _ ⟨h, h10, h1000, hrank, hengaged⟩ => ⟨h, h10, h1000, hrank, hengaged, fun e => nomatch e⟩) (fun _ _ _ h => h),
    fun l k v n => setpoint_badArg_does (c := .hostTrailSet l k v n) k (p := 2) (fun _ => rfl),
    fun l k v n => setpoint_notAuthority_does (c := .hostTrailSet l k v n) k (p := 2) (fun _ => rfl),
    hostParkSet_taken, hostParkSet_refused, hostArm_arms, hostArm_otherMode, hostArm_refused, hostStatusGet_answered, hostFaultGet_answered,
    hostAttestReq_answered, hostAttestReq_refused, hostTimeJump_acts, hostTimeJump_refused, hostAutumnClr_clears, hostTest_enters,
    hostTest_refused, hostPdEnter_badArg, hostPdEnter_busy, hostPdEnter_enters, hostPdEnter_refused, hostPdWake_badArg, hostPdWake_refused,
    hostPdWake_wakes, hostPdStatus_answered, hostPdAcctGet_answered⟩

end Sys2Proof.Machine


namespace Sys2Proof.Machine

/-! ### What fault reactions leave of the drive engines (R161, R544) -/

/-- A drive engine but for its memories and the WAIT it stands in: what its carrier, its intake and its loads are read from. -/
def EngineSt.carrier (e : EngineSt) : EngineSt := { e with im := [], dm := [], wait := none }

/-- The carriers of the four engines of a lane. -/
def Lane.carriers (L : Lane) : Vector EngineSt 4 := L.engine.map EngineSt.carrier

@[simp] theorem Lane.each_carriers {α : Type} {f : α → Lane → Lane} (hf : ∀ x M, (f x M).carriers = M.carriers) (xs : List α) (L : Lane) :
    (L.each xs f).carriers = L.carriers := Lane.each_proj xs f Lane.carriers (fun x _ M => hf x M) L

@[simp] theorem Lane.when_carriers {f : Lane → Lane} (hf : ∀ M, (f M).carriers = M.carriers) (b : Bool) (L : Lane) :
    (L.when b f).carriers = L.carriers := Lane.when_proj b f Lane.carriers hf L

@[simp] theorem Lane.wr_carriers (f : Fld) (v : Nat) (L : Lane) : (L.wr f v).carriers = L.carriers := by rfl
@[simp] theorem Lane.set1_carriers (f : Fld) (L : Lane) : (L.set1 f).carriers = L.carriers := by rfl
@[simp] theorem Lane.clr_carriers (f : Fld) (L : Lane) : (L.clr f).carriers = L.carriers := by rfl
@[simp] theorem Lane.count_carriers (f : Fld) (n : Nat) (L : Lane) : (L.count f n).carriers = L.carriers := by rfl
@[simp] theorem Lane.wrBit_carriers (f : Fld) (i : Nat) (b : Bool) (L : Lane) : (L.wrBit f i b).carriers = L.carriers := by rfl
@[simp] theorem Lane.restart_carriers (t : Timer) (L : Lane) : (L.restart t).carriers = L.carriers := by rfl
@[simp] theorem Lane.stop_carriers (t : Timer) (L : Lane) : (L.stop t).carriers = L.carriers := by rfl
@[simp] theorem Lane.onGate_carriers (g : GateSt → GateSt) (L : Lane) : (L.onGate g).carriers = L.carriers := by rfl
@[simp] theorem Lane.onSv_carriers (n : Fin 4) (g : SolenoidSt → SolenoidSt) (L : Lane) : (L.onSv n g).carriers = L.carriers := by rfl
@[simp] theorem Lane.onSlaz_carriers (c : Fin 2) (g : SlazSt → SlazSt) (L : Lane) : (L.onSlaz c g).carriers = L.carriers := by rfl
@[simp] theorem Lane.onRet_carriers (g : Retained → Retained) (L : Lane) : (L.onRet g).carriers = L.carriers := by rfl
@[simp] theorem Lane.onDom_carriers (d : Fin 8) (g : DomainSt → DomainSt) (L : Lane) : (L.onDom d g).carriers = L.carriers := by rfl
@[simp] theorem Lane.onCore_carriers (c : Core) (g : CoreSt → CoreSt) (L : Lane) : (L.onCore c g).carriers = L.carriers := by rfl
@[simp] theorem Lane.withdraw_carriers (f : Func) (L : Lane) : (L.withdraw f).carriers = L.carriers := by rfl
@[simp] theorem Lane.wearLines_carriers (a n : Nat) (L : Lane) : (L.wearLines a n).carriers = L.carriers := by rfl
@[simp] theorem Lane.setSticky_carriers (n : Nat) (L : Lane) : (L.setSticky n).carriers = L.carriers := by rfl

/-- Vectors with the same elements are the same. -/
theorem vget_ext {α : Type} {n : Nat} {v w : Vector α n} (h : ∀ i, vget v i = vget w i) : v = w :=
  Vector.ext fun i hi => h ⟨i, hi⟩

/-- The carrier of an engine. -/
theorem Lane.carrier_de (L : Lane) (n : Engine) : vget L.carriers n = (L.de n).carrier := vget_map _ _ _

/-- A change of an engine's memories or WAIT alone. -/
theorem Lane.onDe_carriers (n : Engine) (g : EngineSt → EngineSt) (hg : ∀ e, (g e).carrier = e.carrier) (L : Lane) :
    (L.onDe n g).carriers = L.carriers := by
  refine vget_ext fun m => ?_
  rw [Lane.carriers, Lane.carriers, vget_map, vget_map, Lane.onDe, vget_vupd]
  split
  · exact hg _
  · rfl

theorem Lane.Posts.carriers {L M : Lane} (h : L.Posts M) : M.carriers = L.carriers := h.keeps Lane.carriers rfl

@[simp] theorem Lane.irq_carriers (i : Irq) (L : Lane) : (L.irq i).carriers = L.carriers := by
  unfold Lane.irq
  split
  · rfl
  · split <;> rfl

@[simp] theorem Lane.gateFollow_carriers (b : Fin 18) (L : Lane) : (L.gateFollow b).carriers = L.carriers := by
  obtain ⟨d, hd⟩ := L.gateFollow_drive b
  rw [hd]
  rfl

@[simp] theorem Lane.gateFollowAll_carriers (L : Lane) : L.gateFollowAll.carriers = L.carriers := by simp [Lane.gateFollowAll]

/-! The guard's short circuit and turn-offs (R282 to R292) -/

@[simp] theorem Lane.ungrant_carriers (p : Port) (L : Lane) : (L.ungrant p).carriers = L.carriers := by simp [Lane.ungrant]

@[simp] theorem Lane.stage1_carriers (b : Fin 18) (L : Lane) : (L.stage1 b).carriers = L.carriers := by rfl
@[simp] theorem Lane.holdOff_carriers (b : Fin 18) (L : Lane) : (L.holdOff b).carriers = L.carriers := by rfl
@[simp] theorem Lane.switchFree_carriers (b : Fin 18) (L : Lane) : (L.switchFree b).carriers = L.carriers := by rfl

@[simp] theorem Lane.portOffSwitches_carriers (p : Port) (L : Lane) : (L.portOffSwitches p).carriers = L.carriers := by
  simp [Lane.portOffSwitches]

@[simp] theorem Lane.portTurnOff_carriers (p : Port) (L : Lane) : (L.portTurnOff p).carriers = L.carriers := by simp [Lane.portTurnOff]

theorem Lane.ascEnter_carriers {fireBlk : Nat → Lane → Lane} (hf : ∀ n M, (fireBlk n M).carriers = M.carriers) (p : Port) (L : Lane) :
    (L.ascEnter fireBlk p).carriers = L.carriers := by
  have hswitch (b : Fin 18) (M : Lane) : ((if lowSide b then Lane.holdOff b else Lane.stage1 b) M).carriers = M.carriers := by split <;> rfl
  unfold Lane.ascEnter
  split
  · simp [hf]
  · split
    · rfl
    · simp [hswitch]

/-! Solenoid drivers (R94, R295, R325, R331) -/

@[simp] theorem Lane.parkWatch_carriers (L : Lane) : L.parkWatch.carriers = L.carriers := by simp [Lane.parkWatch]
@[simp] theorem Lane.svApply_carriers (n : Fin 4) (L : Lane) : (L.svApply n).carriers = L.carriers := by rfl
@[simp] theorem Lane.svApplyAll_carriers (L : Lane) : L.svApplyAll.carriers = L.carriers := by simp [Lane.svApplyAll]
@[simp] theorem Lane.svForce_carriers (n : Fin 4) (L : Lane) : (L.svForce n).carriers = L.carriers := by simp [Lane.svForce]

/-! Service states and commits (R39, R40, R54, R462, R544) -/

@[simp] theorem Lane.sliceAbort_carriers (L : Lane) : L.sliceAbort.carriers = L.carriers := by
  unfold Lane.sliceAbort
  dsimp only
  split
  · split
    · simp
    · rw [Lane.onDe_carriers _ _ (fun e => (rfl : EngineSt.carrier { e with im := [], dm := [] } = e.carrier))]
      simp
    · simp
  · rfl

@[simp] theorem Lane.pdCount_carriers (d : Fin 8) (who how : Nat) (L : Lane) : (L.pdCount d who how).carriers = L.carriers := by rfl
@[simp] theorem Lane.pdClear_carriers (L : Lane) : L.pdClear.carriers = L.carriers := by simp [Lane.pdClear]
@[simp] theorem Lane.chopApply_carriers (L : Lane) : L.chopApply.carriers = L.carriers := by rfl

@[simp] theorem Lane.pdWake_carriers (d : Fin 8) (who : Nat) (L : Lane) : (L.pdWake d who).carriers = L.carriers := by
  unfold Lane.pdWake
  dsimp only
  split
  · rfl
  · split
    · simp
    · rfl

@[simp] theorem Lane.setSvc_carriers (v : Nat) (L : Lane) : (L.setSvc v).carriers = L.carriers := by simp [Lane.setSvc]

@[simp] theorem Lane.commitStart_carriers (auto : Bool) (L : Lane) : (L.commitStart auto).carriers = L.carriers := by simp [Lane.commitStart]

@[simp] theorem Lane.autoCommit_carriers (L : Lane) : L.autoCommit.carriers = L.carriers := by
  unfold Lane.autoCommit
  split
  · rfl
  · split
    · rfl
    · simp

@[simp] theorem Lane.withdrawAll_carriers (L : Lane) : L.withdrawAll.carriers = L.carriers := by simp [Lane.withdrawAll]

@[simp] theorem Lane.winterState_carriers (L : Lane) : L.winterState.carriers = L.carriers := by
  unfold Lane.winterState
  split
  · simp
  · rfl

/-! Forcing and the fault collector (R314, R325, R344 to R353) -/

@[simp] theorem Lane.szListen_carriers (c : Fin 2) (L : Lane) : (L.szListen c).carriers = L.carriers := by rfl

@[simp] theorem Lane.slazStop_carriers (L : Lane) : L.slazStop.carriers = L.carriers := by
  have hctrl (b : Bool) (c : Fin 2) (M : Lane) : (if b then M.szListen c else M.wr (Reg.SZ_STAT_STATE c.val) 0).carriers = M.carriers := by
    cases b <;> rfl
  exact Lane.each_carriers (fun c M => Lane.when_carriers (fun N => hctrl _ c N) _ M) _ L

theorem Lane.forceOutputs_carriers {fireBlk : Nat → Lane → Lane} (hf : ∀ n M, (fireBlk n M).carriers = M.carriers) (L : Lane) :
    (L.forceOutputs fireBlk).carriers = L.carriers := by
  have hport (p : Port) (M : Lane) : (if M.bitOf Reg.LG_PORT_WHOLD p.val || M.bitOf Reg.GD_STAT_ASC p.val then M.ascEnter fireBlk p
      else M.portOffSwitches p).carriers = M.carriers := by
    split
    · exact M.ascEnter_carriers hf p
    · simp
  unfold Lane.forceOutputs
  simp only [Lane.svApplyAll_carriers, Lane.each_carriers, Lane.svForce_carriers, Lane.restart_carriers, hport, implies_true]

theorem Lane.force_carriers {fireBlk : Nat → Lane → Lane} (hf : ∀ n M, (fireBlk n M).carriers = M.carriers) (cause : Nat) (L : Lane) :
    (L.force fireBlk cause).carriers = L.carriers := by
  unfold Lane.force
  split
  · simp [Lane.forceOutputs_carriers hf]
  · simp

@[simp] theorem Lane.withdrawServed_carriers (f : Func) (L : Lane) : (L.withdrawServed f).carriers = L.carriers := by simp [Lane.withdrawServed]

@[simp] theorem Lane.notice_carriers (h : Fin 4) (op : Nat) (args : List Byte) (L : Lane) : (L.notice h op args).carriers = L.carriers :=
  (L.notice_posts h op args).carriers

@[simp] theorem Lane.faultNotice_carriers (n : Nat) (L : Lane) : (L.faultNotice n).carriers = L.carriers := by simp [Lane.faultNotice]

@[simp] theorem Lane.reactLight_carriers (n : Nat) (L : Lane) : (L.reactLight n).carriers = L.carriers := by simp [Lane.reactLight]

@[simp] theorem Lane.fireLight_carriers (n : Nat) (L : Lane) : (L.fireLight n).carriers = L.carriers := by
  unfold Lane.fireLight
  split
  · rfl
  · simp

@[simp] theorem Lane.reactWinter_carriers (L : Lane) : L.reactWinter.carriers = L.carriers := by
  unfold Lane.reactWinter
  split
  · exact L.force_carriers Lane.fireLight_carriers 6
  · rfl

@[simp] theorem Lane.react_carriers (n : Nat) (L : Lane) : (L.react n).carriers = L.carriers := by simp [Lane.react]

/-- A source that fires leaves every carrier as it is. -/
@[simp] theorem Lane.fire_carriers (n : Nat) (L : Lane) : (L.fire n).carriers = L.carriers := by
  unfold Lane.fire
  split
  · rfl
  · split
    · rfl
    · simp

/-- The guard's grants leave every carrier as it is (R311). -/
@[simp] theorem Lane.grants_carriers (L : Lane) : L.grants.carriers = L.carriers := by
  refine Lane.each_carriers (fun p M => ?_) _ L
  split
  · simp
  · split
    · simp
    · rfl

/-- A halt of an engine leaves every carrier as it is (R161). -/
@[simp] theorem Lane.halt_carriers (n : Engine) (reason : Nat) (L : Lane) : (L.halt n reason).carriers = L.carriers := by
  have hstop (K : Lane) : (K.onDe n (fun e => { e with wait := none })).carriers = K.carriers :=
    K.onDe_carriers n _ (fun e => (rfl : EngineSt.carrier { e with wait := none } = e.carrier))
  unfold Lane.halt
  dsimp only
  split
  · simp [hstop]
  · simp [hstop]

end Sys2Proof.Machine


namespace Sys2Proof.Machine

/-! ### A halt (R161) -/

theorem Lane.switchFree_reacts {L₀ : Lane} (b : Fin 18) {L : Lane} (h : L₀.Reacts L) : L₀.Reacts (L.switchFree b) := Lane.onGate_reacts _ h

/-- The guard's grants are reactions: they move enables, gates and withdrawals (R311). -/
theorem Lane.grants_reacts {L₀ : Lane} {L : Lane} (h : L₀.Reacts L) : L₀.Reacts L.grants := by
  refine Lane.each_reacts (fun p M _ hM => ?_) h
  split
  · exact Lane.portTurnOff_reacts p hM
  · split
    · exact Lane.gateFollowAll_reacts (Lane.restart_reacts _ (Lane.each_reacts (fun b N _ hN => Lane.switchFree_reacts b hN)
        (Lane.onGate_reacts _ (Lane.wrBit_reacts _ _ _ (Lane.wrBit_reacts _ _ _ hM (by unfold ReactKey; decide)) (by unfold ReactKey; decide)))))
    · exact hM

/-- An engine that has stopped with a reason, before anything reacts to it. -/
def Lane.stopped (n : Engine) (reason : Nat) (L : Lane) : Lane :=
  ((L.clr (Reg.DE_CTRL_RUN n.val)).wr (Reg.DE_STATUS_HALT n.val) reason).onDe n (fun e => { e with wait := none })

/-- The source of a halt, and the gates and withdrawals that follow it, are reactions of the stopped lane. -/
theorem Lane.halt_reacts (n : Engine) (reason : Nat) (L : Lane) : (L.stopped n reason).Reacts (L.halt n reason) := by
  have hfire (K : Lane) : K.Reacts ((K.irq (.deHalt n)).when (decide (2 ≤ reason) && decide (reason ≤ 6)) (Lane.fire (68 + n.val))) :=
    Lane.when_reacts (fun _ h => Lane.fire_reacts _ h) (Lane.irq_reacts _ (.refl K))
  unfold Lane.halt
  dsimp only
  refine Lane.grants_reacts ?_
  split
  · exact Lane.when_reacts (fun _ h => Lane.portTurnOff_reacts _ h) (hfire _)
  · exact Lane.each_reacts (fun f _ _ h => Lane.withdraw_reacts f h) (Lane.each_reacts (fun k _ _ h => Lane.svForce_reacts k h) (hfire _))

/-- A halt that the program did not order has set its source (R161, R359). -/
theorem Lane.halt_sticky (n : Engine) {reason : Nat} (h2 : 2 ≤ reason) (h6 : reason ≤ 6) (L : Lane) :
    (L.halt n reason).sticky (68 + n.val) = true := by
  have hclass : fixedClass (68 + n.val) ≠ 0 := by
    revert n
    decide
  let K := (L.stopped n reason).irq (.deHalt n)
  have hfired : (K.fire (68 + n.val)).sticky (68 + n.val) = true := K.fire_sticky _ hclass
  have hrest : (K.fire (68 + n.val)).Reacts (L.halt n reason) := by
    have hwhen : K.when (decide (2 ≤ reason) && decide (reason ≤ 6)) (Lane.fire (68 + n.val)) = K.fire (68 + n.val) :=
      Lane.when_of_true _ _ (by simp [h2, h6])
    rw [← hwhen]
    unfold Lane.halt
    dsimp only
    refine Lane.grants_reacts ?_
    split
    · exact Lane.when_reacts (fun _ h => Lane.portTurnOff_reacts _ h) (.refl _)
    · exact Lane.each_reacts (fun f _ _ h => Lane.withdraw_reacts f h) (Lane.each_reacts (fun k _ _ h => Lane.svForce_reacts k h) (.refl _))
  exact hrest.sticky _ (by omega) hfired

/-! ### What stands around the carrier (R167 to R178) -/

/-- What the carrier of an engine is read from: its period, its events, its patterns and their counts. -/
structure Pwm where
  psTick : Int
  psTime : Nat
  period : Int
  events : BitVec 9
  active : Pattern
  committed : Pattern
  latePat : Pattern
  counted : Bool
  late : Bool
  falling : Bool
  ovrRun : Nat

def EngineSt.pwm (e : EngineSt) : Pwm :=
  ⟨e.psTick, e.psTime, e.period, e.events, e.active, e.committed, e.latePat, e.counted, e.late, e.falling, e.ovrRun⟩

def Lane.pwm (L : Lane) (n : Engine) : Pwm := (L.de n).pwm

section
variable (L : Lane) (n : Engine)

theorem Lane.pwm_psTick : (L.pwm n).psTick = (L.de n).psTick := rfl
theorem Lane.pwm_psTime : (L.pwm n).psTime = (L.de n).psTime := rfl
theorem Lane.pwm_period : (L.pwm n).period = (L.de n).period := rfl
theorem Lane.pwm_events : (L.pwm n).events = (L.de n).events := rfl
theorem Lane.pwm_active : (L.pwm n).active = (L.de n).active := rfl
theorem Lane.pwm_committed : (L.pwm n).committed = (L.de n).committed := rfl
theorem Lane.pwm_counted : (L.pwm n).counted = (L.de n).counted := rfl
theorem Lane.pwm_late : (L.pwm n).late = (L.de n).late := rfl
theorem Lane.pwm_falling : (L.pwm n).falling = (L.de n).falling := rfl
theorem Lane.pwm_ovrRun : (L.pwm n).ovrRun = (L.de n).ovrRun := rfl

end

theorem Lane.pwm_of_carriers {L M : Lane} (h : M.carriers = L.carriers) (n : Engine) : M.pwm n = L.pwm n := by
  have he : (M.de n).carrier = (L.de n).carrier := by rw [← Lane.carrier_de, h, Lane.carrier_de]
  exact (congrArg EngineSt.pwm he :)

/-- The fields that the stages of a period start and of a peak leave as they are, but for the locking of the carrier and the load point:
the drive engines' without EVMERGE and the supervisors' status, and the accepted features. -/
def StageKey (k : Nat) : Prop :=
  ((0x20100000 ≤ k / 64 ∧ k / 64 < 0x20110000) ∨ (0x20000010 ≤ k / 64 ∧ k / 64 < 0x20000040)) ∧
    ¬(k / 64 % 0x4000 = 4 ∧ k % 64 = 7) ∧ k / 64 % 0x4000 ≠ 0x64

theorem not_reactKey_of_stage {k : Nat} (h : StageKey k) : ¬ReactKey k := by
  unfold StageKey at h
  unfold ReactKey
  omega

theorem not_modeKey_of_stage {k : Nat} (h : StageKey k) : ¬ModeKey k := by
  unfold StageKey at h
  simp only [ModeKey, Reg.SYS_STATE_STATE, Reg.LG_STATUS_GSTATE, Fld.key]
  omega

/-- Between two states of a lane, fault sources may have fired and stages of the carrier passed: of the service states only WINTER may
have been entered, the settings of the engines stand but for the fields `X`, no sticky bit is gone, a reference that was taken has been
taken, and no sample point has been taken. -/
structure Lane.Around (X : Nat → Prop) (L M : Lane) : Prop where
  id : M.id = L.id
  start : M.start = L.start
  svc : M.svc = L.svc ∨ M.svc = 6
  rd : ∀ g : Fld, StageKey g.key → ¬X g.key → M.rd g = L.rd g
  sticky : ∀ n, n < 1024 → L.sticky n = true → M.sticky n = true
  shunt : ∀ p, (vget M.shunt p).taken = (vget L.shunt p).taken ∨ (vget M.shunt p).taken = Vector.replicate 4 false
  intake : ∀ n f, (L.intake n f).taken = true → (M.intake n f).taken = true

section
variable {X : Nat → Prop}

theorem Lane.Around.refl (L : Lane) : L.Around X L := ⟨rfl, rfl, .inl rfl, fun _ _ _ => rfl, fun _ _ h => h, fun _ => .inl rfl, fun _ _ h => h⟩

theorem Lane.Around.trans {L M N : Lane} (h : L.Around X M) (k : M.Around X N) : L.Around X N where
  id := k.id.trans h.id
  start := k.start.trans h.start
  svc := k.svc.elim (fun e => h.svc.imp e.trans e.trans) .inr
  rd g hg hx := (k.rd g hg hx).trans (h.rd g hg hx)
  sticky n hn hs := k.sticky n hn (h.sticky n hn hs)
  shunt p := (k.shunt p).elim (fun e => (h.shunt p).imp e.trans e.trans) .inr
  intake n f ht := k.intake n f (h.intake n f ht)

/-- A reaction that leaves the carriers. -/
theorem Lane.Around.of_reacts {L M : Lane} (h : L.Reacts M) (hc : M.carriers = L.carriers) : L.Around X M where
  id := h.id
  start := h.start
  svc := h.svc
  rd g hg _ := h.regs g.key (not_reactKey_of_stage hg) (not_modeKey_of_stage hg)
  sticky := h.sticky
  shunt p := .inl (by rw [h.shunt])
  intake n f ht := by
    have he : (M.de n).carrier = (L.de n).carrier := by rw [← Lane.carrier_de, hc, Lane.carrier_de]
    have hi : M.intake n f = L.intake n f := (congrArg (fun e : EngineSt => vget e.intake f.ix) he :)
    rw [hi]
    exact ht

theorem Lane.fire_around (n : Nat) (L : Lane) : L.Around X (L.fire n) := .of_reacts (Lane.fire_reacts n (.refl L)) (L.fire_carriers n)

theorem Lane.gateFollowAll_around (L : Lane) : L.Around X L.gateFollowAll :=
  .of_reacts (Lane.gateFollowAll_reacts (.refl L)) L.gateFollowAll_carriers

/-- More fields may differ. -/
theorem Lane.Around.mono {Y : Nat → Prop} (hXY : ∀ k, X k → Y k) {L M : Lane} (h : L.Around X M) : L.Around Y M :=
  { h with rd := fun g hg hy => h.rd g hg fun hx => hy (hXY _ hx) }

/-- A write of a field outside the engines' settings but for those that may differ, the service state and the sticky bits. -/
theorem Lane.wr_around_of_imp (f : Fld) (v : Nat) (L : Lane) (hf : StageKey f.key → X f.key) (hmode : 0x20030080 ≤ f.key / 64) :
    L.Around X (L.wr f v) where
  id := rfl
  start := rfl
  svc := .inl (L.rd_wr_ne v (by simp only [Reg.SYS_STATE_STATE, Fld.key] at hmode ⊢; omega))
  rd g hg hx := L.rd_wr_ne v (fun e => hx (by rw [← e]; exact hf (by rw [e]; exact hg)))
  sticky n hn hs := by
    have hne : f.key ≠ (Reg.FC_STICKY_S (n / 32)).key := by
      simp only [Reg.FC_STICKY_S, Fld.key] at hmode ⊢
      omega
    unfold Lane.sticky Lane.bitOf
    rw [L.rd_wr_ne v hne]
    exact hs
  shunt _ := .inl rfl
  intake _ _ h := h

/-- A write of a field outside the engines' settings, the service state and the sticky bits. -/
theorem Lane.wr_around (f : Fld) (v : Nat) (L : Lane) (hf : ¬StageKey f.key) (hmode : 0x20030080 ≤ f.key / 64) : L.Around X (L.wr f v) :=
  L.wr_around_of_imp f v (fun h => absurd h hf) hmode

/-- A change of an engine that takes back no reference. -/
theorem Lane.onDe_around (n : Engine) (g : EngineSt → EngineSt) (L : Lane)
    (hg : ∀ f : Func, (vget (L.de n).intake f.ix).taken = true → (vget (g (L.de n)).intake f.ix).taken = true) : L.Around X (L.onDe n g) where
  id := rfl
  start := rfl
  svc := .inl rfl
  rd _ _ _ := rfl
  sticky _ _ h := h
  shunt _ := .inl rfl
  intake m f h := by
    by_cases hm : n = m
    · subst hm
      rw [Lane.intake, Lane.onDe_de]
      exact hg f h
    · rw [Lane.intake, Lane.onDe_de_ne _ hm]
      exact h

theorem Lane.Around.when {L : Lane} {f : Lane → Lane} (hf : ∀ M : Lane, M.Around X (f M)) (b : Bool) : L.Around X (L.when b f) := by
  cases b
  · exact .refl L
  · exact hf L

theorem Lane.Around.each {α : Type} {f : α → Lane → Lane} (hf : ∀ x M, Lane.Around X M (f x M)) (xs : List α) (L : Lane) :
    L.Around X (L.each xs f) := by
  unfold Lane.each
  induction xs generalizing L with
  | nil => exact .refl L
  | cons x xs ih => exact (hf x L).trans (ih (f x L))

/-! A half without a later sample (R203) -/

theorem stageKey_not_cs {k : Nat} (h : 0x20140000 ≤ k / 64) : ¬StageKey k := by
  unfold StageKey
  omega

theorem Lane.judgeHalf_around (p : Port) (k : Fin 4) (L : Lane) : L.Around X (L.judgeHalf p k) := by
  have hlost (v : Nat) (M : Lane) : M.Around X (M.wr (Reg.CS_STAT_LOST p.val) v) := M.wr_around _ _
    (stageKey_not_cs (by simp only [Reg.CS_STAT_LOST, Fld.key]; omega)) (by simp only [Reg.CS_STAT_LOST, Fld.key]; omega)
  have hloss (M : Lane) : M.Around X (M.set1 (Reg.CS_STAT_LOSS p.val)) := M.wr_around _ _
    (stageKey_not_cs (by simp only [Reg.CS_STAT_LOSS, Fld.key]; omega)) (by simp only [Reg.CS_STAT_LOSS, Fld.key]; omega)
  have hrun (v : Nat) : L.Around X { L with shunt := vupd L.shunt p (fun y => { y with lostRun := v }) } := by
    refine { Lane.Around.refl L with shunt := fun q => ?_ }
    refine .inl ?_
    show (vget (vupd L.shunt p _) q).taken = _
    rw [vget_vupd]
    split <;> rfl
  unfold Lane.judgeHalf
  dsimp only
  split
  · exact .refl L
  · exact ((hrun _).trans (.when (fun M => hlost _ M) _)).trans (.when (fun M => (hloss M).trans (Lane.fire_around _ _)) _)

theorem Lane.judgeHalf_carriers (p : Port) (k : Fin 4) (L : Lane) : (L.judgeHalf p k).carriers = L.carriers := by
  unfold Lane.judgeHalf
  dsimp only
  split
  · rfl
  · simp
    rfl

theorem Lane.halfEnds_around (p : Port) (k : Fin 4) (L : Lane) : L.Around X (L.halfEnds p k) := .when (fun M => M.judgeHalf_around p k) _

theorem Lane.halfEnds_carriers (p : Port) (k : Fin 4) (L : Lane) : (L.halfEnds p k).carriers = L.carriers :=
  Lane.when_carriers (Lane.judgeHalf_carriers p k) _ L

/-! A period's end, events and triggers (R166, R171, R209) -/

theorem Lane.onMot_around (p : Port) (g : MotorSt → MotorSt) (L : Lane) : L.Around X (L.onMot p g) := { Lane.Around.refl L with }

theorem Lane.periodEnds_around (p : Port) (L : Lane) : L.Around X (L.periodEnds p) :=
  (L.onDe_around _ _ (fun _ h => h)).trans (Lane.onMot_around _ _ _)

/-- A change of an engine that its carrier does not show. -/
theorem Lane.onDe_pwm (n : Engine) (g : EngineSt → EngineSt) (hg : ∀ e, (g e).pwm = e.pwm) (L : Lane) (m : Engine) :
    (L.onDe n g).pwm m = L.pwm m := by
  by_cases h : n = m
  · subst h
    rw [Lane.pwm, Lane.onDe_de, hg, Lane.pwm]
  · rw [Lane.pwm, Lane.onDe_de_ne _ h, Lane.pwm]

theorem Lane.periodEnds_pwm (p : Port) (L : Lane) (n : Engine) : (L.periodEnds p).pwm n = L.pwm n := by
  unfold Lane.periodEnds
  refine Lane.onDe_pwm _ _ ?_ L n
  intro e
  rfl

theorem stageKey_not_evMerge (n : Engine) : ¬StageKey (Reg.DE_STATUS_EVMERGE n.val).key := by
  simp only [StageKey, Reg.DE_STATUS_EVMERGE, Fld.key]
  omega

theorem Lane.raise_around (n : Engine) (k : Fin 9) (L : Lane) : L.Around X (L.raise n k) := by
  unfold Lane.raise
  split
  · exact .refl L
  · exact (Lane.Around.when (fun M => M.wr_around _ _ (stageKey_not_evMerge n) (by simp only [Reg.DE_STATUS_EVMERGE, Fld.key]; omega)) _).trans
      (Lane.onDe_around _ _ _ (fun _ h => h))

/-- An event that the engine knows is pending from then on (R166). -/
theorem Lane.raise_pwm (n : Engine) (k : Fin 9) (L : Lane) (hk : ¬(2 ≤ k.val ∧ k.val ≤ 4)) :
    (L.raise n k).pwm n = { L.pwm n with events := (L.pwm n).events ||| eventBit k } := by
  have hde (b : Bool) : ((L.when b (Lane.set1 (Reg.DE_STATUS_EVMERGE n.val))).de n) = L.de n := by cases b <;> rfl
  unfold Lane.raise
  rw [if_neg (fun h => hk h.2)]
  dsimp only
  rw [Lane.pwm, Lane.onDe_de, hde]
  rfl

theorem Lane.adcTrigger_around (n : Engine) (edge : Nat) (t : Int) (L : Lane) : L.Around X (L.adcTrigger n edge t) := by
  unfold Lane.adcTrigger Lane.when
  dsimp only
  split
  · exact { Lane.Around.refl L with }
  · exact .refl L

theorem Lane.adcTrigger_de (n : Engine) (edge : Nat) (t : Int) (L : Lane) (m : Engine) : (L.adcTrigger n edge t).de m = L.de m := by
  unfold Lane.adcTrigger Lane.when
  dsimp only
  split <;> rfl

/-! The intake and the capture of readings (R176, R228, R233) -/

theorem Lane.latchFn_pwm (n : Engine) (f : Func) (L : Lane) (m : Engine) : (L.latchFn n f).pwm m = L.pwm m := by
  unfold Lane.latchFn
  split
  · rfl
  · dsimp only
    split
    · refine Lane.onDe_pwm n _ ?_ L m
      intro e
      rfl
    · refine Lane.onDe_pwm n _ ?_ L m
      intro e
      rfl

end

end Sys2Proof.Machine


namespace Sys2Proof.Machine

section
variable {X : Nat → Prop}

/-- An intake is replaced by one that has taken a reference where the old one had. -/
theorem Lane.setIntake_around (n : Engine) (f : Func) (j : Intake) (L : Lane) (hj : (L.intake n f).taken = true → j.taken = true) :
    L.Around X (L.onDe n (fun e => { e with intake := vupd e.intake f.ix (fun _ => j) })) :=
  L.onDe_around n _ fun g hg => by
    show (vget (vupd (L.de n).intake f.ix fun _ => j) g.ix).taken = true
    rw [vget_vupd]
    split
    · next h => exact hj (by rw [Lane.intake, h]; exact hg)
    · exact hg

theorem Lane.restart_around (t : Timer) (L : Lane) : L.Around X (L.restart t) := { Lane.Around.refl L with }

theorem Lane.latchFn_around (n : Engine) (f : Func) (L : Lane) : L.Around X (L.latchFn n f) := by
  unfold Lane.latchFn
  split
  · exact .refl L
  · dsimp only
    split
    · refine (L.setIntake_around n f _ fun h => Bool.or_eq_true_iff.mpr (.inl ?_)).trans (Lane.restart_around _ _)
      split
      · split <;> exact h
      · exact h
    · refine L.setIntake_around n f _ fun h => Bool.or_eq_true_iff.mpr (.inl ?_)
      split
      · split <;> exact h
      · exact h

theorem Lane.each_pwm {α : Type} {f : α → Lane → Lane} (n : Engine) (hf : ∀ x M, (f x M).pwm n = M.pwm n) (xs : List α) (L : Lane) :
    (L.each xs f).pwm n = L.pwm n := Lane.each_proj xs f (fun M => M.pwm n) (fun x _ M => hf x M) L

theorem Lane.latch_around (n : Engine) (L : Lane) : L.Around X (L.latch n) :=
  (Lane.Around.each (fun f M => M.latchFn_around n f) _ L).trans (Lane.raise_around _ _ _)

/-- After a latch REF is pending (R166). -/
theorem Lane.latch_pwm (n : Engine) (L : Lane) : (L.latch n).pwm n = { L.pwm n with events := (L.pwm n).events ||| eventBit 5 } := by
  rw [Lane.latch, Lane.raise_pwm _ _ _ (by decide), Lane.each_pwm n (fun f M => M.latchFn_pwm n f n)]

/-! The capture of readings and the supervisor's latch (R228, R233, R250, R257, R260) -/

theorem Lane.qeEval_around (n : Fin 2) (L : Lane) : L.Around X (L.qeEval n) :=
  (Lane.wr_around _ _ _ (stageKey_not_cs (by simp only [Reg.QE_SPD, Fld.key]; omega)) (by simp only [Reg.QE_SPD, Fld.key]; omega)).trans
    (Lane.wr_around _ _ _ (stageKey_not_cs (by simp only [Reg.QE_STAT_STILL, Fld.key]; omega)) (by simp only [Reg.QE_STAT_STILL, Fld.key]; omega))

theorem Lane.wr_pwm (f : Fld) (v : Nat) (L : Lane) (n : Engine) : (L.wr f v).pwm n = L.pwm n := rfl

theorem Lane.qeEval_pwm (m : Fin 2) (L : Lane) (n : Engine) : (L.qeEval m).pwm n = L.pwm n := (Lane.wr_pwm _ _ _ n).trans (Lane.wr_pwm _ _ _ n)

theorem Lane.send_around (o : Output) (L : Lane) : L.Around X (L.send o) := by
  unfold Lane.send
  split <;> exact { Lane.Around.refl L with }

theorem Lane.onVp_around (p : Port) (g : VotePos → VotePos) (L : Lane) : L.Around X (L.onVp p g) := { Lane.Around.refl L with }

theorem Lane.capture_around (p : Port) (L : Lane) : L.Around X (L.capture p) := by
  unfold Lane.capture
  dsimp only
  generalize hK : L.each ((List.finRange 2).filter (fun n => nbit (L.sense p).srcMask n.val)) Lane.qeEval = K
  have hevals : L.Around X K := hK ▸ .each (fun n M => M.qeEval_around n) _ L
  split
  · exact (hevals.trans (K.onVp_around p _)).trans (.when (fun M => M.send_around _) _)
  · exact hevals.trans (K.onVp_around p _)

theorem Lane.onVp_pwm (p : Port) (g : VotePos → VotePos) (L : Lane) (n : Engine) : (L.onVp p g).pwm n = L.pwm n := rfl

theorem Lane.send_de (o : Output) (L : Lane) : (L.send o).engine = L.engine := by
  unfold Lane.send
  split <;> rfl

theorem Lane.capture_pwm (p : Port) (L : Lane) (n : Engine) : (L.capture p).pwm n = L.pwm n := by
  unfold Lane.capture
  dsimp only
  generalize hK : L.each ((List.finRange 2).filter (fun n => nbit (L.sense p).srcMask n.val)) Lane.qeEval = K
  have hevals : K.pwm n = L.pwm n := hK ▸ Lane.each_pwm n (fun x M => M.qeEval_pwm x n) _ L
  have hsend (o : Output) (M : Lane) : (M.send o).pwm n = M.pwm n := by rw [Lane.pwm, Lane.de, Lane.send_de]; rfl
  split
  · exact (Lane.when_proj _ _ (fun M => M.pwm n) (fun M => hsend _ M) _).trans ((K.onVp_pwm p _ n).trans hevals)
  · exact (K.onVp_pwm p _ n).trans hevals

theorem stageKey_not_motStat {k : Nat} (h : k / 64 % 0x4000 = 0x64) : ¬StageKey k := by
  unfold StageKey
  omega

theorem Lane.wrMotStat_around (f : Fld) (v : Nat) (L : Lane) (h : f.key / 64 % 0x4000 = 0x64) (hmode : 0x20030080 ≤ f.key / 64) :
    L.Around X (L.wr f v) := L.wr_around f v (stageKey_not_motStat h) hmode

theorem ite_around {c : Prop} [Decidable c] {L A B : Lane} (hA : L.Around X A) (hB : L.Around X B) : L.Around X (if c then A else B) := by
  split
  · exact hA
  · exact hB

theorem ite_pwm {c : Prop} [Decidable c] {A B : Lane} {n : Engine} {x : Pwm} (hA : A.pwm n = x) (hB : B.pwm n = x) :
    (if c then A else B).pwm n = x := by
  split
  · exact hA
  · exact hB

theorem Lane.judgeReversal_around (p : Port) (L : Lane) : L.Around X (L.judgeReversal p) := by
  have hdir (v : Nat) : L.Around X (L.wr (Reg.DE_MOT_STAT_DIR p.val) v) := L.wrMotStat_around _ _
    (by simp only [Reg.DE_MOT_STAT_DIR, Fld.key]; omega) (by simp only [Reg.DE_MOT_STAT_DIR, Fld.key]; omega)
  have hrefused : L.Around X (L.set1 (Reg.DE_MOT_STAT_REVREF p.val)) := L.wrMotStat_around _ _
    (by simp only [Reg.DE_MOT_STAT_REVREF, Fld.key]; omega) (by simp only [Reg.DE_MOT_STAT_REVREF, Fld.key]; omega)
  have hcount (M : Lane) : M.Around X (M.count (Reg.DE_MOT_STAT_REVCNT p.val) 1) := M.wrMotStat_around _ _
    (by simp only [Reg.DE_MOT_STAT_REVCNT, Fld.key]; omega) (by simp only [Reg.DE_MOT_STAT_REVCNT, Fld.key]; omega)
  exact ite_around (ite_around ((hdir _).trans (Lane.onMot_around _ _ _)) ((hrefused.trans (hcount _)).trans (Lane.onMot_around _ _ _)))
    (L.onMot_around _ _)

theorem Lane.judgeReversal_pwm (p : Port) (L : Lane) (n : Engine) : (L.judgeReversal p).pwm n = L.pwm n := by
  have hmot (K : Lane) (g : MotorSt → MotorSt) (h : K.pwm n = L.pwm n) : (K.onMot p g).pwm n = L.pwm n := h
  exact ite_pwm (ite_pwm (hmot _ _ rfl) (hmot _ _ rfl)) (hmot _ _ rfl)

theorem Lane.portLatch_around (p : Port) (L : Lane) : L.Around X (L.portLatch p) :=
  ((L.judgeReversal_around p).trans (Lane.wrMotStat_around _ _ _ (by simp only [Reg.DE_MOT_STAT_HFIRUN, Fld.key]; omega)
    (by simp only [Reg.DE_MOT_STAT_HFIRUN, Fld.key]; omega))).trans (Lane.onDe_around _ _ _ (fun _ h => h))

/-- A change of an engine's data memory. -/
theorem Lane.setDm_pwm (n : Engine) (F : EngineSt → Tab Byte) (L : Lane) (m : Engine) :
    (L.onDe n (fun e => { e with dm := F e })).pwm m = L.pwm m :=
  Lane.onDe_pwm n _ (fun e => show EngineSt.pwm { e with dm := F e } = e.pwm from rfl) L m

theorem Lane.writeDown_pwm (p : Port) (L : Lane) (n : Engine) : (L.writeDown p).pwm n = L.pwm n := by
  unfold Lane.writeDown
  exact Lane.setDm_pwm _ _ _ _

theorem Lane.portLatch_pwm (p : Port) (L : Lane) (n : Engine) : (L.portLatch p).pwm n = L.pwm n := by
  rw [Lane.portLatch, Lane.writeDown_pwm, Lane.wr_pwm, Lane.judgeReversal_pwm]

theorem Lane.gateFollowAll_pwm (L : Lane) (n : Engine) : L.gateFollowAll.pwm n = L.pwm n := Lane.pwm_of_carriers L.gateFollowAll_carriers n

end

end Sys2Proof.Machine


namespace Sys2Proof.Machine

/-! ### The carrier against the grid (R167, R173) -/

/-- The fields in which a carrier shows its locking. -/
def LockKey (n : Engine) (k : Nat) : Prop := k = (Reg.DE_PWM_LOCK_STATE n.val).key ∨ k = (Reg.DE_PWM_LOCK_ERR n.val).key

/-- The fields that a load point writes. -/
def LoadKey (n : Engine) (k : Nat) : Prop :=
  k = (Reg.DE_OVR_OVERRUN n.val).key ∨ k = (Reg.DE_CTRL_RUN n.val).key ∨ k = (Reg.DE_STATUS_HALT n.val).key

/-- The grid follows from FREQ, PHASE and the lane. -/
theorem Lane.Around.grid {X : Nat → Prop} {L M : Lane} (h : L.Around X M) (n : Engine) (hf : ¬X (Reg.DE_PWM_INFO_FREQ n.val).key)
    (hp : ¬X (Reg.DE_PWM_PHASE_PHASE n.val).key) (k : Int) : M.gridTick n k = L.gridTick n k ∧ M.gridIndex n k = L.gridIndex n k := by
  unfold Lane.gridTick Lane.gridIndex
  rw [h.id, h.rd _ (by simp only [StageKey, Fld.key, Reg.DE_PWM_INFO_FREQ]; omega) hf,
    h.rd _ (by simp only [StageKey, Fld.key, Reg.DE_PWM_PHASE_PHASE]; omega) hp]
  exact ⟨rfl, rfl⟩

theorem not_lockKey_freq (n : Engine) : ¬LockKey n (Reg.DE_PWM_INFO_FREQ n.val).key := by
  simp only [LockKey, Fld.key, Reg.DE_PWM_LOCK_STATE, Reg.DE_PWM_LOCK_ERR, Reg.DE_PWM_INFO_FREQ]
  omega

theorem not_lockKey_phase (n : Engine) : ¬LockKey n (Reg.DE_PWM_PHASE_PHASE n.val).key := by
  simp only [LockKey, Fld.key, Reg.DE_PWM_LOCK_STATE, Reg.DE_PWM_LOCK_ERR, Reg.DE_PWM_PHASE_PHASE]
  omega

/-- What a period start at `t` differs from the grid by. -/
def Lane.gridErr (L : Lane) (n : Engine) (t : Int) : Int := t - L.gridTick n (L.gridIndex n t)

/-- The length of the period that starts at `t` (R167, R173). -/
def Lane.lockedPeriod (L : Lane) (n : Engine) (t : Int) : Int :=
  L.gridTick n (L.gridIndex n t + 1) - L.gridTick n (L.gridIndex n t) -
    clampI (-(L.rd (Reg.DE_PWM_LOCK_SLEW n.val) : Int)) (L.rd (Reg.DE_PWM_LOCK_SLEW n.val)) (L.gridErr n t)

theorem Lane.lockShown_around (n : Engine) (v w : Nat) (L : Lane) :
    L.Around (LockKey n) ((L.wr (Reg.DE_PWM_LOCK_STATE n.val) v).wr (Reg.DE_PWM_LOCK_ERR n.val) w) :=
  (L.wr_around_of_imp _ _ (fun _ => .inl rfl) (by simp only [Reg.DE_PWM_LOCK_STATE, Fld.key]; omega)).trans
    (Lane.wr_around_of_imp _ _ _ (fun _ => .inr rfl) (by simp only [Reg.DE_PWM_LOCK_ERR, Fld.key]; omega))

theorem Lane.lockCarrier_around (n : Engine) (t : Int) (L : Lane) : L.Around (LockKey n) (L.lockCarrier n t) :=
  (L.lockShown_around n _ _).trans (Lane.onDe_around _ _ _ (fun _ h => h))

theorem Lane.lockCarrier_pwm (n : Engine) (t : Int) (L : Lane) :
    (L.lockCarrier n t).pwm n = { L.pwm n with psTick := t, psTime := tickNs t, period := L.lockedPeriod n t } := by
  have hgrid (v w : Nat) (k : Int) := ((L.lockShown_around n v w).grid n (not_lockKey_freq n) (not_lockKey_phase n) k).1
  unfold Lane.lockCarrier
  dsimp only
  rw [Lane.pwm, Lane.onDe_de, hgrid, hgrid]
  rfl

theorem Lane.lockCarrier_err (n : Engine) (t : Int) (L : Lane) :
    (L.lockCarrier n t).rd (Reg.DE_PWM_LOCK_ERR n.val) = uns 16 (clampI (-32767) 32767 (L.gridErr n t)) := by
  have hlt : uns 16 (clampI (-32767) 32767 (L.gridErr n t)) < 2 ^ 16 := by
    unfold uns
    omega
  refine (Lane.rd_wr_same _ _ _).trans ?_
  exact Nat.mod_eq_of_lt hlt

theorem Lane.lockCarrier_state (n : Engine) (t : Int) (L : Lane) :
    (L.lockCarrier n t).rd (Reg.DE_PWM_LOCK_STATE n.val) = if (L.gridErr n t).natAbs ≤ 1 then 2 else 1 := by
  refine (Lane.rd_wr_ne _ _ (by simp only [Fld.key, Reg.DE_PWM_LOCK_ERR, Reg.DE_PWM_LOCK_STATE]; omega)).trans ((Lane.rd_wr_same _ _ _).trans ?_)
  show (if (L.gridErr n t).natAbs ≤ 1 then 2 else 1) % 2 ^ 2 = _
  split <;> rfl

/-! ### Load points (R169) -/

/-- The carrier of an engine after a load point. -/
def Pwm.load (peak : Bool) (x : Pwm) : Pwm :=
  { x with active := if x.counted then (if peak then atPeak x.active x.committed else x.committed) else x.active,
           ovrRun := if x.counted then 0 else x.ovrRun + 1, counted := x.late,
           committed := if x.late then x.latePat else x.committed, late := false }

theorem Pwm.load_of_counted {x : Pwm} (peak : Bool) (h : x.counted = true) :
    (x.load peak).active = (if peak then atPeak x.active x.committed else x.committed) ∧ (x.load peak).ovrRun = 0 := ⟨if_pos h, if_pos h⟩

theorem Pwm.load_of_not_counted {x : Pwm} (peak : Bool) (h : x.counted = false) :
    (x.load peak).active = x.active ∧ (x.load peak).ovrRun = x.ovrRun + 1 :=
  have hno : ¬x.counted = true := by rw [h]; decide
  ⟨if_neg hno, if_neg hno⟩

/-- A load point that finds no counted COMMIT counts an overrun, before a halt (R169). -/
def Lane.overrun (n : Engine) (L : Lane) : Lane :=
  (L.count (Reg.DE_OVR_OVERRUN n.val) 1).onDe n (fun e =>
    { e with ovrRun := (L.de n).ovrRun + 1, counted := e.late, committed := if e.late then e.latePat else e.committed, late := false })

/-- A load point takes the COMMIT that counted. -/
def Lane.loadCommit (n : Engine) (peak : Bool) (L : Lane) : Lane :=
  L.onDe n (fun e =>
    { e with active := if peak then atPeak e.active e.committed else e.committed, ovrRun := 0, counted := e.late,
             committed := if e.late then e.latePat else e.committed, late := false })

theorem Lane.loadPoint_of_counted (n : Engine) (peak : Bool) {L : Lane} (h : (L.de n).counted = true) : L.loadPoint n peak = L.loadCommit n peak :=
  if_pos h

theorem Lane.loadPoint_of_not_counted (n : Engine) (peak : Bool) {L : Lane} (h : (L.de n).counted = false) : L.loadPoint n peak =
    (L.overrun n).when ((L.overrun n).is (Reg.DE_CTRL_RUN n.val) && decide ((L.overrun n).rd (Reg.DE_OVR_OVR_MAX n.val) ≤ (L.de n).ovrRun + 1))
      (Lane.halt n 6) :=
  if_neg (by rw [h]; decide)

theorem Lane.stopped_around (n : Engine) (reason : Nat) (L : Lane) : L.Around (LoadKey n) (L.stopped n reason) :=
  ((L.wr_around_of_imp _ _ (fun _ => .inr (.inl rfl)) (by simp only [Reg.DE_CTRL_RUN, Fld.key]; omega)).trans
    (Lane.wr_around_of_imp _ _ _ (fun _ => .inr (.inr rfl)) (by simp only [Reg.DE_STATUS_HALT, Fld.key]; omega))).trans
    (Lane.onDe_around _ _ _ (fun _ h => h))

theorem Lane.stopped_carriers (n : Engine) (reason : Nat) (L : Lane) : (L.stopped n reason).carriers = L.carriers :=
  (Lane.onDe_carriers n _ (fun e => (rfl : EngineSt.carrier { e with wait := none } = e.carrier)) _).trans
    ((Lane.wr_carriers _ _ _).trans (Lane.clr_carriers _ _))

theorem Lane.halt_around (n : Engine) (reason : Nat) (L : Lane) : L.Around (LoadKey n) (L.halt n reason) :=
  (L.stopped_around n reason).trans
    (.of_reacts (L.halt_reacts n reason) ((L.halt_carriers n reason).trans (L.stopped_carriers n reason).symm))

theorem Lane.overrun_around (n : Engine) (L : Lane) : L.Around (LoadKey n) (L.overrun n) :=
  (L.wr_around_of_imp _ _ (fun _ => .inl rfl) (by simp only [Reg.DE_OVR_OVERRUN, Fld.key]; omega)).trans (Lane.onDe_around _ _ _ (fun _ h => h))

theorem Lane.loadPoint_around (n : Engine) (peak : Bool) (L : Lane) : L.Around (LoadKey n) (L.loadPoint n peak) := by
  cases h : (L.de n).counted
  · rw [Lane.loadPoint_of_not_counted n peak h]
    exact (L.overrun_around n).trans (.when (fun M => M.halt_around n 6) _)
  · rw [Lane.loadPoint_of_counted n peak h]
    exact Lane.onDe_around _ _ _ (fun _ h => h)

theorem Lane.overrun_pwm (n : Engine) {L : Lane} (peak : Bool) (h : (L.pwm n).counted = false) : (L.overrun n).pwm n = (L.pwm n).load peak := by
  rw [Lane.overrun, Lane.pwm, Lane.onDe_de]
  unfold Pwm.load
  rw [h]
  rfl

theorem Lane.loadCommit_pwm (n : Engine) {L : Lane} (peak : Bool) (h : (L.pwm n).counted = true) :
    (L.loadCommit n peak).pwm n = (L.pwm n).load peak := by
  rw [Lane.loadCommit, Lane.pwm, Lane.onDe_de]
  unfold Pwm.load
  rw [h]
  rfl

theorem Lane.loadPoint_pwm (n : Engine) (peak : Bool) (L : Lane) : (L.loadPoint n peak).pwm n = (L.pwm n).load peak := by
  cases h : (L.pwm n).counted
  · have hhalt (M : Lane) : (M.halt n 6).pwm n = M.pwm n := Lane.pwm_of_carriers (M.halt_carriers n 6) n
    rw [Lane.loadPoint_of_not_counted n peak h, Lane.when_proj _ _ (fun M => M.pwm n) hhalt, Lane.overrun_pwm n peak h]
  · rw [Lane.loadPoint_of_counted n peak h, Lane.loadCommit_pwm n peak h]

/-- A field of the engine that an overrun leaves. -/
theorem Lane.overrun_rd (n : Engine) (L : Lane) {g : Fld} (hg : (Reg.DE_OVR_OVERRUN n.val).key ≠ g.key) : (L.overrun n).rd g = L.rd g :=
  L.rd_wr_ne _ hg

/-- An overrun is counted, up to 255 (R188). -/
theorem Lane.overrun_count (n : Engine) (L : Lane) :
    (L.overrun n).rd (Reg.DE_OVR_OVERRUN n.val) = min 255 (L.rd (Reg.DE_OVR_OVERRUN n.val) + 1) := by
  have hlt : min 255 (L.rd (Reg.DE_OVR_OVERRUN n.val) + 1) < 2 ^ 8 := by omega
  exact (L.rd_wr_same _ _).trans (Nat.mod_eq_of_lt hlt)

theorem Lane.overrun_run (n : Engine) (L : Lane) : (L.overrun n).rd (Reg.DE_CTRL_RUN n.val) = L.rd (Reg.DE_CTRL_RUN n.val) :=
  L.overrun_rd n (by simp only [Fld.key, Reg.DE_OVR_OVERRUN, Reg.DE_CTRL_RUN]; omega)

theorem Lane.overrun_max (n : Engine) (L : Lane) : (L.overrun n).rd (Reg.DE_OVR_OVR_MAX n.val) = L.rd (Reg.DE_OVR_OVR_MAX n.val) :=
  L.overrun_rd n (by simp only [Fld.key, Reg.DE_OVR_OVERRUN, Reg.DE_OVR_OVR_MAX]; omega)

/-- An engine that does not run, or whose overruns in succession stay below OVR_MAX, is not halted (R169). -/
theorem Lane.loadPoint_overrun (n : Engine) (peak : Bool) {L : Lane} (h : (L.de n).counted = false)
    (hno : L.is (Reg.DE_CTRL_RUN n.val) = false ∨ (L.de n).ovrRun + 1 < L.rd (Reg.DE_OVR_OVR_MAX n.val)) : L.loadPoint n peak = L.overrun n := by
  rw [Lane.loadPoint_of_not_counted n peak h]
  refine Lane.when_of_false _ _ ?_
  rw [Lane.is, L.overrun_run, L.overrun_max]
  rcases hno with hno | hno
  · rw [Lane.is] at hno
    rw [hno, Bool.false_and]
  · rw [decide_eq_false (Nat.not_le_of_lt hno), Bool.and_false]

/-- A running engine whose overruns in succession reach OVR_MAX is halted with reason 6 (R161, R169). -/
theorem Lane.loadPoint_halts (n : Engine) (peak : Bool) {L : Lane} (h : (L.de n).counted = false) (hrun : L.is (Reg.DE_CTRL_RUN n.val) = true)
    (hmax : L.rd (Reg.DE_OVR_OVR_MAX n.val) ≤ (L.de n).ovrRun + 1) : L.loadPoint n peak = (L.overrun n).halt n 6 := by
  rw [Lane.loadPoint_of_not_counted n peak h]
  refine Lane.when_of_true _ _ ?_
  rw [Lane.is] at hrun ⊢
  rw [L.overrun_run, L.overrun_max, hrun, decide_eq_true hmax, Bool.and_self]

/-- A halted engine shows its reason and does not run. -/
theorem Lane.halt_shows (n : Engine) (L : Lane) :
    (L.halt n 6).rd (Reg.DE_CTRL_RUN n.val) = 0 ∧ (L.halt n 6).rd (Reg.DE_STATUS_HALT n.val) = 6 := by
  have hkeep (g : Fld) (hg : StageKey g.key) : (L.halt n 6).rd g = (L.stopped n 6).rd g :=
    (L.halt_reacts n 6).regs g.key (not_reactKey_of_stage hg) (not_modeKey_of_stage hg)
  constructor
  · rw [hkeep _ (by simp only [StageKey, Fld.key, Reg.DE_CTRL_RUN]; omega)]
    exact ((L.clr (Reg.DE_CTRL_RUN n.val)).rd_wr_ne 6 (f := Reg.DE_STATUS_HALT n.val)
      (by simp only [Fld.key, Reg.DE_CTRL_RUN, Reg.DE_STATUS_HALT]; omega)).trans (L.rd_clr_same _)
  · rw [hkeep _ (by simp only [StageKey, Fld.key, Reg.DE_STATUS_HALT]; omega)]
    exact (L.clr (Reg.DE_CTRL_RUN n.val)).rd_wr_same (Reg.DE_STATUS_HALT n.val) 6

end Sys2Proof.Machine


namespace Sys2Proof.Machine

/-! ### A period start, stage by stage (R166 to R178) -/

/-- The period that ends, of an engine with a bridge port. -/
def Lane.periodClosed (n : Engine) (L : Lane) : Lane :=
  L.each (portOfEngine n).toList (fun p L => (L.when (L.loops n) (Lane.halfEnds p 3)).periodEnds p)

/-- The carrier starts a period at `t`. -/
def Lane.periodOpened (n : Engine) (t : Int) (L : Lane) : Lane := ((L.lockCarrier n t).raise n 0).adcTrigger n 1 t

/-- The intake and the supervisor latch. -/
def Lane.periodLatched (n : Engine) (L : Lane) : Lane := ((L.latch n).each (portOfEngine n).toList Lane.portLatch).gateFollowAll

/-- A period start but for the entry of SERVICE. -/
def Lane.periodStarted (n : Engine) (L : Lane) : Lane :=
  (((L.periodClosed n).periodOpened n (L.comingTick n)).each (portOfEngine n).toList (Lane.portStart n)).periodLatched n

theorem Lane.periodStart_eq (n : Engine) (L : Lane) : L.periodStart n =
    if (L.periodStarted n).svc = 3 ∧ (L.periodStarted n).allTaken = true then (L.periodStarted n).enterService else L.periodStarted n := rfl

section
variable {X : Nat → Prop}

theorem Lane.periodClosed_around (n : Engine) (L : Lane) : L.Around X (L.periodClosed n) :=
  .each (fun p _ => (Lane.Around.when (fun N => N.halfEnds_around p 3) _).trans (Lane.periodEnds_around p _)) _ L

theorem Lane.halfEnds_pwm (p : Port) (k : Fin 4) (L : Lane) (n : Engine) : (L.halfEnds p k).pwm n = L.pwm n :=
  Lane.pwm_of_carriers (L.halfEnds_carriers p k) n

theorem Lane.periodClosed_pwm (n : Engine) (L : Lane) : (L.periodClosed n).pwm n = L.pwm n := by
  refine Lane.each_pwm n (fun p _ => ?_) _ L
  rw [Lane.periodEnds_pwm, Lane.when_proj _ _ (fun M => M.pwm n) (fun M => M.halfEnds_pwm p 3 n)]

theorem Lane.periodOpened_around (n : Engine) (t : Int) (L : Lane) : L.Around (LockKey n) (L.periodOpened n t) :=
  ((L.lockCarrier_around n t).trans (Lane.raise_around _ _ _)).trans (Lane.adcTrigger_around _ _ _ _)

/-- The carrier of an engine whose period has been opened. -/
def Pwm.opened (L : Lane) (n : Engine) (t : Int) (x : Pwm) : Pwm :=
  { x with psTick := t, psTime := Lane.tickNs t, period := L.lockedPeriod n t, events := x.events ||| eventBit 0 }

theorem Lane.periodOpened_pwm (n : Engine) (t : Int) (L : Lane) : (L.periodOpened n t).pwm n = (L.pwm n).opened L n t := by
  have hadc (M : Lane) : (M.adcTrigger n 1 t).pwm n = M.pwm n := congrArg EngineSt.pwm (M.adcTrigger_de n 1 t n)
  rw [Lane.periodOpened, hadc, Lane.raise_pwm _ _ _ (by decide), Lane.lockCarrier_pwm]
  rfl

theorem Lane.periodOpened_rd (n : Engine) (t : Int) (L : Lane) {g : Fld} (hg : StageKey g.key) :
    (L.periodOpened n t).rd g = (L.lockCarrier n t).rd g :=
  ((Lane.raise_around n 0 _).trans (Lane.adcTrigger_around n 1 t _) : Lane.Around (fun _ => False) _ _).rd g hg not_false

/-! The port of an engine at a period start -/

/-- No sample point of a port's shunt is taken yet in the period. -/
def Lane.untaken (p : Port) (L : Lane) : Lane :=
  { L with shunt := vupd L.shunt p (fun x => { x with taken := Vector.replicate 4 false }) }

theorem Lane.untaken_around (p : Port) (L : Lane) : L.Around X (L.untaken p) := by
  refine { Lane.Around.refl L with shunt := fun q => ?_ }
  show (vget (vupd L.shunt p _) q).taken = _ ∨ (vget (vupd L.shunt p _) q).taken = _
  rw [vget_vupd]
  split
  · exact .inr rfl
  · exact .inl rfl

/-- The stages of a period start at a port after the load point. -/
def Lane.portStarted (n : Engine) (p : Port) (L : Lane) : Lane :=
  ((L.onDe n (fun e => { e with falling := false })).onDe n
    (fun e => { e with rise := (L.onDe n (fun e => { e with falling := false })).bridgeNow p })).capture p

theorem Lane.portStart_eq (n : Engine) (p : Port) (L : Lane) : L.portStart n p = ((L.untaken p).loadPoint n false).portStarted n p := rfl

theorem Lane.portStarted_around (n : Engine) (p : Port) (L : Lane) : L.Around X (L.portStarted n p) :=
  ((L.onDe_around _ _ (fun _ h => h)).trans (Lane.onDe_around _ _ _ (fun _ h => h))).trans (Lane.capture_around _ _)

theorem Lane.portStarted_pwm (n : Engine) (p : Port) (L : Lane) : (L.portStarted n p).pwm n = { L.pwm n with falling := false } := by
  rw [Lane.portStarted, Lane.capture_pwm, Lane.pwm, Lane.onDe_de, Lane.onDe_de]
  rfl

theorem Lane.portStart_around (n : Engine) (p : Port) (L : Lane) : L.Around (LoadKey n) (L.portStart n p) :=
  ((L.untaken_around p).trans (Lane.loadPoint_around _ _ _)).trans (Lane.portStarted_around _ _ _)

theorem Lane.portStart_pwm (n : Engine) (p : Port) (L : Lane) : (L.portStart n p).pwm n = { (L.pwm n).load false with falling := false } := by
  rw [Lane.portStart_eq, Lane.portStarted_pwm, Lane.loadPoint_pwm]
  rfl

theorem Lane.periodLatched_around (n : Engine) (L : Lane) : L.Around X (L.periodLatched n) :=
  ((L.latch_around n).trans (.each (fun p M => M.portLatch_around p) _ _)).trans (Lane.gateFollowAll_around _)

theorem Lane.periodLatched_pwm (n : Engine) (L : Lane) :
    (L.periodLatched n).pwm n = { L.pwm n with events := (L.pwm n).events ||| eventBit 5 } := by
  rw [Lane.periodLatched, Lane.gateFollowAll_pwm, Lane.each_pwm n (fun p M => M.portLatch_pwm p n), Lane.latch_pwm]

end

/-! The whole of a period start -/

/-- The fields that the stages of a period start write. -/
def PeriodKey (n : Engine) (k : Nat) : Prop := LockKey n k ∨ LoadKey n k

theorem Lane.periodStarted_around (n : Engine) (L : Lane) : L.Around (PeriodKey n) (L.periodStarted n) :=
  (((L.periodClosed_around n).trans ((Lane.periodOpened_around n _ _).mono fun _ => .inl)).trans
    (.each (fun p M => (M.portStart_around n p).mono fun _ => .inr) _ _)).trans (Lane.periodLatched_around n _)

/-- A period start of a lane that is not in ARMED stops before the entry of SERVICE. -/
theorem Lane.periodStart_of_not_armed (n : Engine) {L : Lane} (h : L.svc ≠ 3) : L.periodStart n = L.periodStarted n := by
  rw [Lane.periodStart_eq]
  refine if_neg fun hready => ?_
  rcases (L.periodStarted_around n).svc with hsvc | hsvc
  · exact h (hsvc.symm.trans hready.1)
  · exact absurd (hsvc.symm.trans hready.1) (by decide)

/-- The engine of a port is the port's. -/
theorem portOfEngine_castSucc (p : Port) : Lane.portOfEngine p.castSucc = some p := dif_pos p.isLt

/-- A period start of a port's engine, stage by stage. -/
theorem Lane.periodStarted_port (p : Port) (L : Lane) : L.periodStarted p.castSucc =
    (((((L.periodClosed p.castSucc).periodOpened p.castSucc (L.comingTick p.castSucc)).untaken p).loadPoint p.castSucc false).portStarted
      p.castSucc p).periodLatched p.castSucc := by
  rw [Lane.periodStarted, portOfEngine_castSucc]
  rfl

/-- The state of a port's engine at the load point of its period start. -/
def Lane.atLoad (p : Port) (L : Lane) : Lane :=
  ((L.periodClosed p.castSucc).periodOpened p.castSucc (L.comingTick p.castSucc)).untaken p

theorem Lane.atLoad_around (p : Port) (L : Lane) : L.Around (LockKey p.castSucc) (L.atLoad p) :=
  ((L.periodClosed_around p.castSucc).trans (Lane.periodOpened_around _ _ _)).trans (Lane.untaken_around p _)

theorem Lane.atLoad_pwm (p : Port) (L : Lane) :
    (L.atLoad p).pwm p.castSucc = (L.pwm p.castSucc).opened (L.periodClosed p.castSucc) p.castSucc (L.comingTick p.castSucc) := by
  have h (M : Lane) : (M.untaken p).pwm p.castSucc = M.pwm p.castSucc := rfl
  rw [Lane.atLoad, h, Lane.periodOpened_pwm, Lane.periodClosed_pwm]

/-- What follows the load point leaves the settings and the pattern of the engine. -/
theorem Lane.afterLoad_around (p : Port) (L : Lane) :
    ((L.atLoad p).loadPoint p.castSucc false).Around (fun _ => False) (L.periodStarted p.castSucc) := by
  rw [Lane.periodStarted_port]
  exact (Lane.portStarted_around _ _ _).trans (Lane.periodLatched_around _ _)

theorem Lane.periodStarted_port_pwm (p : Port) (L : Lane) :
    (L.periodStarted p.castSucc).pwm p.castSucc =
      { ((L.atLoad p).pwm p.castSucc).load false with
        falling := false, events := (((L.atLoad p).pwm p.castSucc).load false).events ||| eventBit 5 } := by
  rw [Lane.periodStarted_port, Lane.periodLatched_pwm, Lane.portStarted_pwm, Lane.loadPoint_pwm]
  rfl

end Sys2Proof.Machine


namespace Sys2Proof.Machine

/-! ### The entry of SERVICE (R30, R110 to R115) -/

/-- The lane is in SERVICE, AUTUMN or WINTER. -/
def Lane.InService (L : Lane) : Prop := L.svc = 4 ∨ L.svc = 5 ∨ L.svc = 6

section
variable {L M : Lane}

theorem Lane.InService.of_svc (h : L.InService) (hs : M.svc = L.svc ∨ M.svc = 6) : M.InService := by
  rcases hs with hs | hs
  · unfold Lane.InService
    rw [hs]
    exact h
  · exact .inr (.inr hs)

theorem Lane.InService.wr (h : L.InService) (f : Fld) (v : Nat) (hf : f.key / 64 ≠ 0x20000004) : (L.wr f v).InService := by
  refine h.of_svc (.inl (L.rd_wr_ne v fun e => hf ?_))
  rw [e]
  decide

theorem Lane.InService.wrBit (h : L.InService) (f : Fld) (i : Nat) (b : Bool) (hf : f.key / 64 ≠ 0x20000004) : (L.wrBit f i b).InService :=
  h.wr f _ hf

theorem Lane.InService.when (h : L.InService) (b : Bool) {f : Lane → Lane} (hf : L.InService → (f L).InService) : (L.when b f).InService := by
  cases b
  · exact h
  · exact hf h

theorem Lane.InService.each {α : Type} {f : α → Lane → Lane} (h : L.InService) (hf : ∀ x M, Lane.InService M → (f x M).InService)
    (xs : List α) :
    (L.each xs f).InService := by
  unfold Lane.each
  induction xs generalizing L with
  | nil => exact h
  | cons x xs ih => exact ih (hf x L h)

theorem Lane.InService.start1 (h : L.InService) (t : Timer) : (L.start1 t).InService := by
  unfold Lane.start1
  split
  · exact h
  · exact h

theorem Lane.InService.settleSvc (h : L.InService) : L.settleSvc.InService := by
  unfold Lane.settleSvc
  dsimp only
  split
  · exact .inr (.inl (L.setSvc_svc 5 (by decide)))
  · split
    · exact .inl (L.setSvc_svc 4 (by decide))
    · exact h

theorem Lane.InService.autoCommit (h : L.InService) : L.autoCommit.InService := h.of_svc (Lane.autoCommit_reacts (.refl L)).svc

theorem Lane.InService.setMode (h : L.InService) (f : Func) (mode cause : Nat) :
    ((L.wr (Reg.ROLE_FUNC_MODE f.code) mode).wr (Reg.ROLE_FUNC_CAUSE f.code) cause).InService :=
  (h.wr _ _ (by simp only [Fld.key, Reg.ROLE_FUNC_MODE]; omega)).wr _ _ (by simp only [Fld.key, Reg.ROLE_FUNC_CAUSE]; omega)

theorem Lane.InService.setTimer (h : L.InService) (t : Timer) (v : Nat) : (L.setTimer t v).InService := h
theorem Lane.InService.restart (h : L.InService) (t : Timer) : (L.restart t).InService := h
theorem Lane.InService.stop (h : L.InService) (t : Timer) : (L.stop t).InService := h
theorem Lane.InService.onFn (h : L.InService) (f : Func) (g : RoleFn → RoleFn) : (L.onFn f g).InService := h
theorem Lane.InService.onRet (h : L.InService) (g : Retained → Retained) : (L.onRet g).InService := h

theorem Lane.InService.enterAutumn (h : L.InService) (f : Func) (cause ms : Nat) : (L.enterAutumn f cause ms).InService := by
  unfold Lane.enterAutumn
  split
  · exact (((((h.setMode f 1 cause).setTimer _ _).onFn f _).restart _).start1 _).autoCommit.settleSvc
  · split
    · exact h.onFn f _
    · exact h

theorem Lane.InService.disengageAll (h : L.InService) (f : Func) : (L.disengageAll f).InService :=
  h.each (fun p _ hN => hN.wrBit _ _ _ (by simp only [Fld.key, Reg.HQ_PORT_ENGAGED]; omega)) _

theorem Lane.InService.winterOne (h : L.InService) (f : Func) (cause : Nat) : (L.winterOne f cause).InService := by
  unfold Lane.winterOne
  split
  · exact h
  · have hmode (r : Retained → Retained) := (((h.setMode f 2 cause).stop (.autumn f)).onFn f (fun x => { x with causes := [cause] })).onRet r
    have hport (N : Lane) (hN : N.InService) : (N.each (N.portOf f).toList (fun p => Lane.wrBit Reg.LG_PORT_WHOLD p.val true)).InService :=
      hN.each (fun p K hK => hK.wrBit _ _ _ (by decide)) _
    have hpark (N : Lane) (hN : N.InService) : ((N.set1 Reg.LG_PARK_RUN).restart .park).InService := (hN.wr _ _ (by decide)).restart _
    dsimp only
    refine Lane.InService.when ?_ _ fun hN => hpark _ hN
    refine Lane.InService.when ?_ _ fun hN => hN.start1 _
    refine Lane.InService.when ?_ _ fun hN => hport _ hN
    exact (hmode _).disengageAll f

theorem Lane.InService.winter (h : L.InService) (f : Func) (cause : Nat) : (L.winter f cause).InService := by
  have hserved (g : Func) (N : Lane) (hN : N.InService) : (N.winterServed g 11).InService := hN.when _ fun hK => hK.winterOne g 11
  have htrail (N : Lane) (hN : N.InService) : ((N.winterServed .trail 11).winterServed .park 11).InService := hserved _ _ (hserved _ _ hN)
  have hspread (N : Lane) (hN : N.InService) : (N.winterSpread f).InService := ((hN.when _ (hserved _ _)).when _ (htrail _)).settleSvc
  unfold Lane.winter
  split
  · exact hspread _ (h.winterOne f cause)
  · exact h

theorem Lane.InService.restoredAutumn (h : L.InService) (f : Func) : (L.restoredAutumn f).InService := by
  unfold Lane.restoredAutumn
  dsimp only
  split
  · exact h
  · split
    · exact h.winter f 8
    · exact (h.enterAutumn f 7 _).when _ fun hN => hN.setTimer _ _

/-- A lane that enters SERVICE is in SERVICE, or in the AUTUMN or WINTER that its functions give it. -/
theorem Lane.enterService_inService (L : Lane) : L.enterService.InService := by
  have hsvc (N : Lane) : (N.setSvc 4).InService := .inl (N.setSvc_svc 4 (by decide))
  exact ((((hsvc _).each (fun f _ h => h.restoredAutumn f) _).each (fun f _ h => h.enterAutumn f 1 _) _).each
    (fun f _ h => h.enterAutumn f 3 _) _).settleSvc

end

/-- The lane's functions and their intakes follow from its image. -/
theorem Lane.intakesOf_congr {L M : Lane} (h : M.start = L.start) : M.functions = L.functions ∧ ∀ f, M.intakesOf f = L.intakesOf f := by
  have he : { L with start := M.start } = L := by rw [h]
  constructor
  · show ({ L with start := M.start } : Lane).functions = L.functions
    rw [he]
  · intro f
    show ({ L with start := M.start } : Lane).intakesOf f = L.intakesOf f
    rw [he]

/-- References that have been taken stay taken over the stages of a period start. -/
theorem Lane.Around.allTaken {X : Nat → Prop} {L M : Lane} (h : L.Around X M) (ht : L.allTaken = true) : M.allTaken = true := by
  obtain ⟨hfuncs, hintakes⟩ := Lane.intakesOf_congr h.start
  simp only [Lane.allTaken, List.all_eq_true, hfuncs, hintakes] at ht ⊢
  exact fun f hf n hn => h.intake n f (ht f hf n hn)

/-! ### The steps of the carrier (R167 to R174) -/

/-- The carrier and the events of an engine at the end of a period start. -/
theorem Lane.periodStarted_timing (n : Engine) (L : Lane) :
    let t := L.comingTick n
    let e := (L.periodStarted n).de n
    e.psTick = t ∧ e.psTime = Lane.tickNs t ∧ e.period = (L.periodClosed n).lockedPeriod n t ∧
      e.events = (L.de n).events ||| eventBit 0 ||| eventBit 5 := by
  intro t e
  have hopened : ((L.periodClosed n).periodOpened n t).pwm n = (L.pwm n).opened (L.periodClosed n) n t := by
    rw [Lane.periodOpened_pwm, Lane.periodClosed_pwm]
  have hport : ∀ o : Option Port, ∃ z : Pwm, (((L.periodClosed n).periodOpened n t).each o.toList (Lane.portStart n)).pwm n = z ∧
      z.psTick = t ∧ z.psTime = Lane.tickNs t ∧ z.period = (L.periodClosed n).lockedPeriod n t ∧
        z.events = (L.pwm n).events ||| eventBit 0 := by
    rintro (_ | p)
    · exact ⟨(L.pwm n).opened (L.periodClosed n) n t, hopened, rfl, rfl, rfl, rfl⟩
    · exact ⟨{ ((L.pwm n).opened (L.periodClosed n) n t).load false with falling := false },
        (Lane.portStart_pwm n p _).trans (by rw [hopened]), rfl, rfl, rfl, rfl⟩
  obtain ⟨z, hz, htick, htime, hperiod, hevents⟩ := hport (Lane.portOfEngine n)
  have hy : (L.periodStarted n).pwm n = { z with events := z.events ||| eventBit 5 } := by
    rw [Lane.periodStarted, Lane.periodLatched_pwm, hz]
  rw [← Lane.pwm_psTick, ← Lane.pwm_psTime, ← Lane.pwm_period, ← Lane.pwm_events, ← Lane.pwm_events, hy]
  exact ⟨htick, htime, hperiod, congrArg (· ||| eventBit 5) hevents⟩

end Sys2Proof.Machine


namespace Sys2Proof.Machine

/-! #### The locking of the carrier (R167, R173, R184) -/

theorem clampI_eq_max_min {lo hi : Int} (h : lo ≤ hi) (v : Int) : clampI lo hi v = max lo (min hi v) := by
  unfold clampI
  split
  · omega
  · split <;> omega

theorem Lane.periodClosed_grid (n : Engine) (L : Lane) (t : Int) :
    (L.periodClosed n).gridErr n t = L.gridErr n t ∧ (L.periodClosed n).lockedPeriod n t = L.lockedPeriod n t := by
  have haround : L.Around (fun _ => False) (L.periodClosed n) := L.periodClosed_around n
  have hgrid := haround.grid n not_false not_false
  have hslew := haround.rd (Reg.DE_PWM_LOCK_SLEW n.val) (by simp only [StageKey, Fld.key, Reg.DE_PWM_LOCK_SLEW]; omega) not_false
  have herr : (L.periodClosed n).gridErr n t = L.gridErr n t := by
    rw [Lane.gridErr, (hgrid t).2, (hgrid _).1]
    rfl
  refine ⟨herr, ?_⟩
  rw [Lane.lockedPeriod, herr, hslew, (hgrid t).2, (hgrid _).1, (hgrid _).1]
  rfl

/-- What follows the opening of the period leaves the settings of the engine but for those of its load point. -/
theorem Lane.afterOpen_around (n : Engine) (L : Lane) :
    ((L.periodClosed n).periodOpened n (L.comingTick n)).Around (LoadKey n) (L.periodStarted n) :=
  (Lane.Around.each (fun p M => M.portStart_around n p) _ _).trans (Lane.periodLatched_around n _)

theorem Lane.periodStarted_err (n : Engine) (L : Lane) : (L.periodStarted n).rd (Reg.DE_PWM_LOCK_ERR n.val) =
    (max (-32767) (min 32767 (L.gridErr n (L.comingTick n))) % 2 ^ 16).toNat := by
  have hstage : StageKey (Reg.DE_PWM_LOCK_ERR n.val).key := by simp only [StageKey, Fld.key, Reg.DE_PWM_LOCK_ERR]; omega
  have hload : ¬LoadKey n (Reg.DE_PWM_LOCK_ERR n.val).key := by
    simp only [LoadKey, Fld.key, Reg.DE_PWM_LOCK_ERR, Reg.DE_OVR_OVERRUN, Reg.DE_CTRL_RUN, Reg.DE_STATUS_HALT]
    omega
  rw [(L.afterOpen_around n).rd _ hstage hload, Lane.periodOpened_rd _ _ _ hstage, Lane.lockCarrier_err, (L.periodClosed_grid n _).1,
    clampI_eq_max_min (by decide), uns]
  norm_num

theorem Lane.periodStarted_state (n : Engine) (L : Lane) : (L.periodStarted n).rd (Reg.DE_PWM_LOCK_STATE n.val) =
    if (L.gridErr n (L.comingTick n)).natAbs ≤ 1 then 2 else 1 := by
  have hstage : StageKey (Reg.DE_PWM_LOCK_STATE n.val).key := by simp only [StageKey, Fld.key, Reg.DE_PWM_LOCK_STATE]; omega
  have hload : ¬LoadKey n (Reg.DE_PWM_LOCK_STATE n.val).key := by
    simp only [LoadKey, Fld.key, Reg.DE_PWM_LOCK_STATE, Reg.DE_OVR_OVERRUN, Reg.DE_CTRL_RUN, Reg.DE_STATUS_HALT]
    omega
  rw [(L.afterOpen_around n).rd _ hstage hload, Lane.periodOpened_rd _ _ _ hstage, Lane.lockCarrier_state, (L.periodClosed_grid n _).1]

theorem Lane.lockedPeriod_eq (L : Lane) (n : Engine) (t : Int) : L.lockedPeriod n t =
    L.gridTick n (L.gridIndex n t + 1) - L.gridTick n (L.gridIndex n t) -
      max (-(L.rd (Reg.DE_PWM_LOCK_SLEW n.val) : Int)) (min (L.rd (Reg.DE_PWM_LOCK_SLEW n.val)) (t - L.gridTick n (L.gridIndex n t))) := by
  rw [Lane.lockedPeriod, clampI_eq_max_min (by omega)]
  rfl

/-- The carrier of a lane that is not in ARMED after a period start. -/
theorem Lane.periodStart_carrier (n : Engine) {L : Lane} (h : L.svc ≠ 3) :
    let M := L.periodStart n
    let t := L.comingTick n
    (M.de n).psTick = t ∧ (M.de n).psTime = (t * 3 / 20).toNat ∧ (M.de n).events.getLsbD 0 = true ∧ (M.de n).events.getLsbD 5 = true ∧
      M.rd (Reg.DE_PWM_LOCK_ERR n.val) = (max (-32767) (min 32767 (L.gridErr n t)) % 2 ^ 16).toNat ∧
      (M.de n).period = L.lockedPeriod n t ∧
      M.rd (Reg.DE_PWM_LOCK_STATE n.val) = if (L.gridErr n t).natAbs ≤ 1 then 2 else 1 := by
  intro M t
  have hM : M = L.periodStarted n := L.periodStart_of_not_armed n h
  rw [hM]
  obtain ⟨htick, htime, hperiod, hbits⟩ := L.periodStarted_timing n
  refine ⟨htick, htime, ?_, ?_, L.periodStarted_err n, hperiod.trans (L.periodClosed_grid n t).2, L.periodStarted_state n⟩
  · rw [hbits, BitVec.getLsbD_or, BitVec.getLsbD_or, show (eventBit 0).getLsbD 0 = true by decide, Bool.or_true, Bool.true_or]
  · rw [hbits, BitVec.getLsbD_or, show (eventBit 5).getLsbD 5 = true by decide, Bool.or_true]

/-! #### The load at a period start (R168, R169, R195) -/

section
variable (p : Port) (L : Lane)

/-- A field of the engine up to its load point. -/
theorem Lane.atLoad_rd {g : Fld} (hg : StageKey g.key) (hx : ¬LockKey p.castSucc g.key) : (L.atLoad p).rd g = L.rd g :=
  (L.atLoad_around p).rd g hg hx

theorem Lane.atLoad_overrun : (L.atLoad p).rd (Reg.DE_OVR_OVERRUN p.val) = L.rd (Reg.DE_OVR_OVERRUN p.val) :=
  L.atLoad_rd p (by simp only [StageKey, Fld.key, Reg.DE_OVR_OVERRUN]; omega)
    (by simp only [LockKey, Fld.key, Reg.DE_OVR_OVERRUN, Reg.DE_PWM_LOCK_STATE, Reg.DE_PWM_LOCK_ERR, Fin.val_castSucc]; omega)

theorem Lane.atLoad_max : (L.atLoad p).rd (Reg.DE_OVR_OVR_MAX p.val) = L.rd (Reg.DE_OVR_OVR_MAX p.val) :=
  L.atLoad_rd p (by simp only [StageKey, Fld.key, Reg.DE_OVR_OVR_MAX]; omega)
    (by simp only [LockKey, Fld.key, Reg.DE_OVR_OVR_MAX, Reg.DE_PWM_LOCK_STATE, Reg.DE_PWM_LOCK_ERR, Fin.val_castSucc]; omega)

theorem Lane.atLoad_run : (L.atLoad p).rd (Reg.DE_CTRL_RUN p.val) = L.rd (Reg.DE_CTRL_RUN p.val) :=
  L.atLoad_rd p (by simp only [StageKey, Fld.key, Reg.DE_CTRL_RUN]; omega)
    (by simp only [LockKey, Fld.key, Reg.DE_CTRL_RUN, Reg.DE_PWM_LOCK_STATE, Reg.DE_PWM_LOCK_ERR, Fin.val_castSucc]; omega)

/-- The pattern and the counts of a port's engine at its load point are those before the period start. -/
theorem Lane.atLoad_pattern :
    ((L.atLoad p).de p.castSucc).counted = (L.de p.castSucc).counted ∧ ((L.atLoad p).de p.castSucc).ovrRun = (L.de p.castSucc).ovrRun := by
  have hopened (y : Pwm) (K : Lane) (n : Engine) (t : Int) : (y.opened K n t).counted = y.counted ∧
      (y.opened K n t).ovrRun = y.ovrRun := ⟨rfl, rfl⟩
  rw [← Lane.pwm_counted, ← Lane.pwm_counted, ← Lane.pwm_ovrRun, ← Lane.pwm_ovrRun, L.atLoad_pwm p]
  exact hopened _ _ _ _

/-- A port's engine after a period start has loaded the pattern that it held before. -/
theorem Lane.periodStarted_load :
    let e := (L.periodStarted p.castSucc).de p.castSucc
    let x := (L.pwm p.castSucc).load false
    e.active = x.active ∧ e.ovrRun = x.ovrRun ∧ e.counted = (L.de p.castSucc).late ∧ e.falling = false := by
  intro e x
  have hload (y : Pwm) (K : Lane) (n : Engine) (t : Int) :
      ((y.opened K n t).load false).active = (y.load false).active ∧ ((y.opened K n t).load false).ovrRun = (y.load false).ovrRun ∧
        ((y.opened K n t).load false).counted = y.late := ⟨rfl, rfl, rfl⟩
  obtain ⟨hactive, hrun, hcounted⟩ := hload (L.pwm p.castSucc) (L.periodClosed p.castSucc) p.castSucc (L.comingTick p.castSucc)
  rw [← Lane.pwm_active, ← Lane.pwm_ovrRun, ← Lane.pwm_counted, ← Lane.pwm_falling, ← Lane.pwm_late,
    L.periodStarted_port_pwm p, L.atLoad_pwm p]
  exact ⟨hactive, hrun, hcounted, rfl⟩

/-- The rising compares in force are those of the pattern in force, limited to the rising half: a load at the peak leaves them (R168). -/
theorem Lane.cycleOf_cmpA (x : Fin 3) : (L.cycleOf p).cmpA x =
    ((min (vget (L.de p.castSucc).active.cmp (Fin.ofNat 6 (2 * x.val))) (risingHalf (L.de p.castSucc).period) : Nat) : Int) := by
  have heven : (Fin.ofNat 6 (2 * x.val)).val % 2 = 0 := by
    revert x
    decide
  have hpeak (b : Bool) (a c : Pattern) :
      vget (if b then atPeak a c else a).cmp (Fin.ofNat 6 (2 * x.val)) = vget a.cmp (Fin.ofNat 6 (2 * x.val)) := by
    cases b
    · rfl
    · simp only [if_true, atPeak, vget, Vector.getElem_ofFn, if_pos heven]
  rw [Cycle.cmpA]
  congr 1
  have hlimit (t : Int) (y : Pattern) :
      vget (limitCmp t y).cmp (Fin.ofNat 6 (2 * x.val)) = min (vget y.cmp (Fin.ofNat 6 (2 * x.val))) (risingHalf t) := by
    simp only [limitCmp, vget, Vector.getElem_ofFn, if_pos heven]
  exact (hlimit _ _).trans (congrArg (min · _) (hpeak _ _ _))

variable {L}

/-- A flag follows from its field. -/
theorem Lane.is_congr {M N : Lane} {f : Fld} (h : M.rd f = N.rd f) : M.is f = N.is f := by rw [Lane.is, Lane.is, h]

/-- A COMMIT that counted is loaded. -/
theorem Lane.periodStart_loads (h : L.svc ≠ 3) (hc : (L.de p.castSucc).counted = true) :
    let M := L.periodStart p.castSucc
    (M.de p.castSucc).active = (L.de p.castSucc).committed ∧
      (∀ x : Fin 3, (M.cycleOf p).cmpA x =
        ((min (vget (L.de p.castSucc).committed.cmp (Fin.ofNat 6 (2 * x.val))) (risingHalf (M.de p.castSucc).period) : Nat) : Int)) ∧
      (M.de p.castSucc).ovrRun = 0 ∧ (M.de p.castSucc).counted = (L.de p.castSucc).late ∧ (M.de p.castSucc).falling = false ∧
      (vget M.shunt p).taken = Vector.replicate 4 false ∧ M.rd (Reg.DE_OVR_OVERRUN p.val) = L.rd (Reg.DE_OVR_OVERRUN p.val) := by
  intro M
  have hM : M = L.periodStarted p.castSucc := L.periodStart_of_not_armed _ h
  rw [hM]
  obtain ⟨hactive, hrun, hcounted, hfalling⟩ := L.periodStarted_load p
  have hload := Pwm.load_of_counted (x := L.pwm p.castSucc) false hc
  have hcommitted : ((L.periodStarted p.castSucc).de p.castSucc).active = (L.de p.castSucc).committed := hactive.trans hload.1
  have hpoint : (L.atLoad p).loadPoint p.castSucc false = (L.atLoad p).loadCommit p.castSucc false :=
    Lane.loadPoint_of_counted _ _ ((L.atLoad_pattern p).1.trans hc)
  have hafter := L.afterLoad_around p
  rw [hpoint] at hafter
  refine ⟨hcommitted, fun x => ?_, hrun.trans hload.2, hcounted, hfalling, ?_, ?_⟩
  · rw [Lane.cycleOf_cmpA, hcommitted]
  · refine (hafter.shunt p).elim (fun e => e.trans ?_) fun e => e
    exact congrArg ShuntSt.taken (vget_vupd_same _ _ _)
  · exact (hafter.rd _ (by simp only [StageKey, Fld.key, Reg.DE_OVR_OVERRUN]; omega) not_false).trans (L.atLoad_overrun p)

/-- A load point without a COMMIT counts an overrun. -/
theorem Lane.periodStart_overruns (h : L.svc ≠ 3) (hc : (L.de p.castSucc).counted = false)
    (hno : L.is (Reg.DE_CTRL_RUN p.val) = false ∨ (L.de p.castSucc).ovrRun + 1 < L.rd (Reg.DE_OVR_OVR_MAX p.val)) :
    let M := L.periodStart p.castSucc
    (M.de p.castSucc).active = (L.de p.castSucc).active ∧ (M.de p.castSucc).ovrRun = (L.de p.castSucc).ovrRun + 1 ∧
      M.rd (Reg.DE_OVR_OVERRUN p.val) = min 255 (L.rd (Reg.DE_OVR_OVERRUN p.val) + 1) ∧
      M.rd (Reg.DE_CTRL_RUN p.val) = L.rd (Reg.DE_CTRL_RUN p.val) := by
  intro M
  have hM : M = L.periodStarted p.castSucc := L.periodStart_of_not_armed _ h
  rw [hM]
  obtain ⟨hactive, hrun, -, -⟩ := L.periodStarted_load p
  have hload := Pwm.load_of_not_counted (x := L.pwm p.castSucc) false hc
  obtain ⟨hcounted, hovr⟩ := L.atLoad_pattern p
  have hpoint : (L.atLoad p).loadPoint p.castSucc false = (L.atLoad p).overrun p.castSucc := by
    refine Lane.loadPoint_overrun _ _ (hcounted.trans hc) ?_
    rw [hovr]
    exact hno.imp (Lane.is_congr (L.atLoad_run p)).trans fun hlt => hlt.trans_eq (L.atLoad_max p).symm
  have hafter := L.afterLoad_around p
  rw [hpoint] at hafter
  refine ⟨hactive.trans hload.1, hrun.trans hload.2, ?_, ?_⟩
  · refine (hafter.rd _ (by simp only [StageKey, Fld.key, Reg.DE_OVR_OVERRUN]; omega) not_false).trans ?_
    exact ((L.atLoad p).overrun_count p.castSucc).trans (by rw [Fin.val_castSucc, L.atLoad_overrun])
  · exact (hafter.rd _ (by simp only [StageKey, Fld.key, Reg.DE_CTRL_RUN]; omega) not_false).trans
      (((L.atLoad p).overrun_run p.castSucc).trans (L.atLoad_run p))

/-- The last of OVR_MAX overruns in succession halts the engine. -/
theorem Lane.periodStart_halts (h : L.svc ≠ 3) (hc : (L.de p.castSucc).counted = false) (hrun : L.is (Reg.DE_CTRL_RUN p.val) = true)
    (hmax : L.rd (Reg.DE_OVR_OVR_MAX p.val) ≤ (L.de p.castSucc).ovrRun + 1) :
    let M := L.periodStart p.castSucc
    M.is (Reg.DE_CTRL_RUN p.val) = false ∧ M.rd (Reg.DE_STATUS_HALT p.val) = 6 ∧ M.sticky (68 + p.val) = true := by
  intro M
  have hM : M = L.periodStarted p.castSucc := L.periodStart_of_not_armed _ h
  rw [hM]
  obtain ⟨hcounted, hovr⟩ := L.atLoad_pattern p
  have hpoint : (L.atLoad p).loadPoint p.castSucc false = ((L.atLoad p).overrun p.castSucc).halt p.castSucc 6 := by
    refine Lane.loadPoint_halts _ _ (hcounted.trans hc) ?_ ?_
    · exact (Lane.is_congr (L.atLoad_run p)).trans hrun
    · rw [hovr]
      exact (L.atLoad_max p).trans_le hmax
  have hafter := L.afterLoad_around p
  rw [hpoint] at hafter
  obtain ⟨hstopped, hreason⟩ := ((L.atLoad p).overrun p.castSucc).halt_shows p.castSucc
  refine ⟨?_, ?_, ?_⟩
  · rw [Lane.is, hafter.rd _ (by simp only [StageKey, Fld.key, Reg.DE_CTRL_RUN]; omega) not_false]
    exact decide_eq_false (not_not.mpr hstopped)
  · exact (hafter.rd _ (by simp only [StageKey, Fld.key, Reg.DE_STATUS_HALT]; omega) not_false).trans hreason
  · exact hafter.sticky _ (by omega) (Lane.halt_sticky p.castSucc (by decide) (by decide) _)

end

/-- A period start in ARMED, with every first reference taken, enters SERVICE (R30). -/
theorem Lane.periodStart_serves (n : Engine) {L : Lane} (h : L.svc = 3) (ht : L.allTaken = true) : (L.periodStart n).InService := by
  have haround := L.periodStarted_around n
  have htaken := haround.allTaken ht
  rw [Lane.periodStart_eq]
  rcases haround.svc with hsvc | hsvc
  · rw [if_pos ⟨hsvc.trans h, htaken⟩]
    exact Lane.enterService_inService _
  · rw [if_neg (fun hready => absurd (hsvc.symm.trans hready.1) (by decide))]
    exact .inr (.inr hsvc)

end Sys2Proof.Machine


namespace Sys2Proof.Machine

/-! #### The peak (R166, R169) -/

/-- The half that ends at a peak is judged and the conversions are triggered, before any load. -/
def Lane.peakRaised (n : Engine) (L : Lane) : Lane :=
  ((L.raise n 1).adcTrigger n 2 (L.peakTick n)).each (Lane.portOfEngine n).toList (fun p => Lane.halfEnds p 1)

theorem Lane.peak_eq (n : Engine) (L : Lane) : L.peak n =
    (((L.peakRaised n).when ((L.peakRaised n).loops n) (Lane.loadPoint n true)).onDe n (fun e => { e with falling := true })).gateFollowAll := rfl

theorem Lane.peakRaised_around (n : Engine) (L : Lane) : L.Around (fun _ => False) (L.peakRaised n) :=
  ((L.raise_around n 1).trans (Lane.adcTrigger_around _ _ _ _)).trans (.each (fun p M => M.halfEnds_around p 1) _ _)

theorem Lane.peakRaised_pwm (n : Engine) (L : Lane) : (L.peakRaised n).pwm n = { L.pwm n with events := (L.pwm n).events ||| eventBit 1 } := by
  have hadc (t : Int) (M : Lane) : (M.adcTrigger n 2 t).pwm n = M.pwm n := congrArg EngineSt.pwm (M.adcTrigger_de n 2 t n)
  rw [Lane.peakRaised, Lane.each_pwm n (fun p M => M.halfEnds_pwm p 1 n), hadc, Lane.raise_pwm _ _ _ (by decide)]

/-- Whether the generator loads at the peak too follows from LOOP and the locked set. -/
theorem Lane.Around.loops {L M : Lane} (h : L.Around (fun _ => False) M) (n : Engine) : M.loops n = L.loops n := by
  unfold Lane.loops Lane.feature Lane.is
  rw [h.rd _ (by simp only [StageKey, Fld.key, Reg.SYS_FEAT_CTRL_LOCK]; omega) not_false,
    h.rd _ (by simp only [StageKey, Fld.key, Reg.SYS_FEAT_ACCEPT]; omega) not_false,
    h.rd _ (by simp only [StageKey, Fld.key, Reg.DE_CTRL_LOOP]; omega) not_false]

/-- The carrier of an engine after its peak. -/
theorem Lane.peak_pwm (n : Engine) (L : Lane) : (L.peak n).pwm n =
    { (if L.loops n then ((L.peakRaised n).pwm n).load true else (L.peakRaised n).pwm n) with falling := true } := by
  have hfalling (M : Lane) : (M.onDe n (fun e => { e with falling := true })).pwm n = { M.pwm n with falling := true } := by
    rw [Lane.pwm, Lane.onDe_de]
    rfl
  rw [Lane.peak_eq, Lane.gateFollowAll_pwm, hfalling, (L.peakRaised_around n).loops n]
  cases L.loops n
  · rfl
  · rw [Lane.when_of_true _ _ rfl, Lane.loadPoint_pwm]
    rfl

/-- A peak without a load point raises PM. -/
theorem Lane.peak_raises (n : Engine) {L : Lane} (h : L.loops n = false) :
    let M := L.peak n
    (M.de n).events = (L.de n).events ||| 2#9 ∧ (M.de n).falling = true ∧ (M.de n).active = (L.de n).active ∧
      (M.de n).counted = (L.de n).counted := by
  intro M
  have hM : M.pwm n = { L.pwm n with events := (L.pwm n).events ||| eventBit 1, falling := true } := by
    rw [Lane.peak_pwm, h, Lane.peakRaised_pwm]
    rfl
  rw [← Lane.pwm_events, ← Lane.pwm_falling, ← Lane.pwm_active, ← Lane.pwm_counted, ← Lane.pwm_events, ← Lane.pwm_active, ← Lane.pwm_counted,
    hM]
  exact ⟨rfl, rfl, rfl, rfl⟩

/-- A peak with a load point takes the CMPB values, SP2, SP3 and BRIDGE of a counted COMMIT. -/
theorem Lane.peak_loads (n : Engine) {L : Lane} (h : L.loops n = true) (hc : (L.de n).counted = true) :
    let M := L.peak n
    (M.de n).falling = true ∧ (M.de n).ovrRun = 0 ∧ (M.de n).active = atPeak (L.de n).active (L.de n).committed := by
  intro M
  have hload := Pwm.load_of_counted (x := { L.pwm n with events := (L.pwm n).events ||| eventBit 1 }) true hc
  have hM : M.pwm n = { Pwm.load true { L.pwm n with events := (L.pwm n).events ||| eventBit 1 } with falling := true } := by
    rw [Lane.peak_pwm, h, Lane.peakRaised_pwm]
    rfl
  rw [← Lane.pwm_falling, ← Lane.pwm_ovrRun, ← Lane.pwm_active, ← Lane.pwm_active, ← Lane.pwm_committed, hM]
  exact ⟨rfl, hload.2, hload.1⟩

/-! #### The unlock time (R174) -/

/-- The lane after the unlock time has run out. -/
def Lane.unlocked (L : Lane) : Lane :=
  (L.each ((List.finRange 3).filter (fun p => (L.funcOfPort p).isSome)) (fun p => Lane.fireLevel (72 + p.val))).stop .unlock

/-- A source that begins to fire sets its sticky bit and clears none. -/
theorem Lane.fireLevel_sticky (n : Nat) (L : Lane) :
    (fixedClass n ≠ 0 → (L.fireLevel n).sticky n = true) ∧ ∀ m, m < 1024 → L.sticky m = true → (L.fireLevel n).sticky m = true :=
  ⟨Lane.fire_sticky _ n, fun m hm h => (Lane.fire_reacts n (.refl _)).sticky m hm h⟩

theorem fixedClass_unlock (p : Port) : fixedClass (72 + p.val) ≠ 0 := by
  revert p
  decide

/-- Every port with a function has its source set. -/
theorem Lane.unlocked_sticky {p : Port} {L : Lane} (h : (L.funcOfPort p).isSome = true) : L.unlocked.sticky (72 + p.val) = true := by
  have hreached (xs : List Port) (hmem : p ∈ xs) : (L.each xs (fun q => Lane.fireLevel (72 + q.val))).sticky (72 + p.val) = true :=
    Lane.each_reaches (f := fun q : Port => Lane.fireLevel (72 + q.val)) (P := fun M => M.sticky (72 + p.val) = true) (x := p)
      (fun M => (M.fireLevel_sticky _).1 (fixedClass_unlock p))
      (fun q M hM => (M.fireLevel_sticky (72 + q.val)).2 _ (by omega) hM) hmem L
  have hstop (M : Lane) : (M.stop .unlock).sticky (72 + p.val) = M.sticky (72 + p.val) := rfl
  rw [Lane.unlocked, hstop]
  exact hreached _ (List.mem_filter.mpr ⟨List.mem_finRange p, h⟩)

/-! #### The commands -/

theorem pwmPeriodStart_does (l : LaneId) (n : Engine) (dt : Nat) {pre : Lane → Prop} {post : Lane → Lane → Prop}
    (hdue : ∀ L, pre L → (L.pass dt).startDue n = true) (hp : ∀ L, pre L → post L ((L.pass dt).periodStart n)) :
    Does (.pwmPeriodStart l n dt) pre post :=
  does_of (fun L => (L.pass dt).when ((L.pass dt).startDue n) (Lane.periodStart n)) (fun _ => rfl) fun L h => by
    rw [Lane.when_of_true _ _ (hdue L h)]
    exact hp L h

theorem carrierPeak_does (l : LaneId) (n : Engine) (dt : Nat) {pre : Lane → Prop} {post : Lane → Lane → Prop}
    (hdue : ∀ L, pre L → (L.pass dt).peakDue n = true) (hp : ∀ L, pre L → post L ((L.pass dt).peak n)) :
    Does (.carrierPeak l n dt) pre post :=
  does_of (fun L => (L.pass dt).when ((L.pass dt).peakDue n) (Lane.peak n)) (fun _ => rfl) fun L h => by
    rw [Lane.when_of_true _ _ (hdue L h)]
    exact hp L h

/-- Settles O25: the stages of a period start and of a peak, each with what it leaves, give the state that each clause names. -/
theorem carrier : Obligations.carrier := by
  refine ⟨fun l n dt => pwmPeriodStart_does l n dt (fun L h => h.1) fun L h => ?lock,
    fun l p dt => pwmPeriodStart_does l _ dt (fun L h => h.1) fun L h => ?load,
    fun l p dt => pwmPeriodStart_does l _ dt (fun L h => h.1) fun L h => ?overrun,
    fun l p dt => pwmPeriodStart_does l _ dt (fun L h => h.1) fun L h => ?halt,
    fun l n dt => pwmPeriodStart_does l n dt (fun L h => h.1) fun L h => ?serve,
    fun l n dt => carrierPeak_does l n dt (fun L h => h.1) fun L h => ?peak,
    fun l p dt => carrierPeak_does l _ dt (fun L h => h.1) fun L h => ?dual, fun l dt => ?unlock⟩
  case lock =>
    obtain ⟨-, hsvc⟩ := h
    obtain ⟨htick, htime, hstart, hlatch, herr, hperiod, hstate⟩ := (L.pass dt).periodStart_carrier n hsvc
    exact ⟨htick, htime, hstart, hlatch, herr, hperiod.trans (Lane.lockedPeriod_eq _ _ _), fun _ => hstate⟩
  case load =>
    obtain ⟨-, hc, hsvc⟩ := h
    exact (L.pass dt).periodStart_loads p hsvc hc
  case overrun =>
    obtain ⟨-, hc, -, hno, hsvc⟩ := h
    exact (L.pass dt).periodStart_overruns p hsvc hc hno
  case halt =>
    obtain ⟨-, hc, -, hrun, hmax, hsvc⟩ := h
    exact (L.pass dt).periodStart_halts p hsvc hc hrun hmax
  case serve =>
    obtain ⟨-, hsvc, ht⟩ := h
    exact (L.pass dt).periodStart_serves n hsvc ht
  case peak =>
    obtain ⟨-, hloops⟩ := h
    exact (L.pass dt).peak_raises n hloops
  case dual =>
    obtain ⟨-, hloops, hc⟩ := h
    obtain ⟨hfalling, hrun, hactive⟩ := (L.pass dt).peak_loads p.castSucc hloops hc
    have hde : (L.pass dt).de p.castSucc = L.de p.castSucc := rfl
    rw [hde] at hactive
    refine ⟨hfalling, hrun, by rw [hactive]; rfl, fun k => ?_, fun k => ?_⟩
    · rw [hactive]
      simp only [atPeak, vget, Vector.getElem_ofFn]
    · rw [hactive]
      simp only [atPeak, vget, Vector.getElem_ofFn]
  case unlock =>
    refine does_of (fun L => (L.pass dt).when ((L.pass dt).due .unlock 10000000) Lane.unlocked) (fun _ => rfl) fun L h => ?_
    rw [Lane.when_of_true _ _ h]
    exact ⟨fun p hp => (L.pass dt).unlocked_sticky hp, Lane.running_stop_same _ _⟩

end Sys2Proof.Machine

namespace Sys2Proof.Machine

/-! ### The speed request of a vehicle host whose reply queue has reached index 65,535 (R111, R434) -/

/-- A lane with STEER in Autumn, whose speed request is due and whose vehicle host has a locked set; the next descriptor of the
reply queue has index 65,535. -/
def lastIndexLane : Lane :=
  { (((Lane.unpowered .a).wr (Reg.ROLE_FUNC_MODE Func.steer.code) 1).set1 (Reg.HQ_PORT_FLOCK 0)) with
      start := { (Lane.unpowered .a).start with phase := .running, image := deepQueueImage },
      roles := { (Lane.unpowered .a).roles with hostSeen := true },
      timers := [(.speedReq .steer, 0)],
      queue := vupd (Lane.unpowered .a).queue 0 (fun x => { x with next := 65535 }) }

/-- What SPEED_REQUEST_TIMER does to its lane (R111). -/
def Lane.speedTimer (f : Func) (dt : Nat) (L : Lane) : Lane :=
  if (L.pass dt).mode f = 1 then
    (L.pass dt).when ((L.pass dt).due (.speedReq f) 1000000000) (fun L => (L.speedRequest f).restart (.speedReq f))
  else (L.pass dt).stop (.speedReq f)

/-- The lane of the counterexample is one that the statement speaks of. -/
theorem lastIndexLane_requests : lastIndexLane.mode .steer = 1 ∧ (lastIndexLane.pass 1000000000).due (.speedReq .steer) 1000000000 = true ∧
    lastIndexLane.portOfKind 0 = some 0 ∧ lastIndexLane.roles.hostSeen = true ∧ lastIndexLane.roles.hostLost = false ∧
    lastIndexLane.replyQueue 0 = some 0 ∧ lastIndexLane.hostLocked 0 = true ∧ lastIndexLane.queueFree 0 = true := by
  decide +kernel

/-- TAIL has 16 bits, so that behind index 65,535 it is 0 (R448). -/
theorem lastIndexLane_tail : (lastIndexLane.speedTimer .steer 1000000000).rd (Reg.HQ_PTR_TAIL 0) = 0 := by
  decide +kernel

/-- Refutes O13: its sixth part gives HQ_PTR.TAIL the next index of 32 bits, of which the field holds 16 (R448): after the descriptor of
index 65,535 it reads 0, not 65,536. -/
theorem not_autumnAndWinter : ¬ Obligations.autumn_and_winter := by
  intro h
  obtain ⟨-, -, -, -, -, hhost, -⟩ := h
  refine not_does_of (Lane.speedTimer .steer 1000000000) lastIndexLane rfl (fun _ => rfl) lastIndexLane_requests ?_
    (hhost .a 1000000000 .steer 0 0)
  rintro ⟨-, -, -, htail⟩
  exact absurd (lastIndexLane_tail.symm.trans htail) (by decide +kernel)

end Sys2Proof.Machine

namespace Sys2Proof.Machine

/-! ### Winter of one function, and how it spreads (R110 to R114) -/

/-- Where Winter of a function spreads to in this lane (R114). -/
def spreadsTo : Func → List Func
  | .steer => [.brake, .trail, .park]
  | .brake => [.trail, .park]
  | _ => []

/-- A function is in Winter with a cause (R117). -/
def Lane.InWinter (f : Func) (c : Nat) (L : Lane) : Prop := L.mode f = 2 ∧ L.rd (Reg.ROLE_FUNC_CAUSE f.code) = c

/-- The fields of the registers ROLE_FUNC_f. -/
def FuncKey (k : Nat) : Prop := 0x20010000 ≤ k / 64 ∧ k / 64 < 0x20010020

theorem funcKey_mode (f : Func) : FuncKey (Reg.ROLE_FUNC_MODE f.code).key := by cases f <;> unfold FuncKey <;> decide
theorem funcKey_cause (f : Func) : FuncKey (Reg.ROLE_FUNC_CAUSE f.code).key := by cases f <;> unfold FuncKey <;> decide

/-- No write of a field outside those registers reaches them. -/
theorem Lane.rd_wr_funcKey (L : Lane) {g a : Fld} (v : Nat) (hg : FuncKey g.key) (ha : ¬FuncKey a.key) : (L.wr a v).rd g = L.rd g :=
  L.rd_wr_ne v fun e => ha (e ▸ hg)

/-- The end of every host engagement for a function leaves ROLE_FUNC (R438). -/
theorem Lane.disengageAll_rd (f : Func) (L : Lane) {g : Fld} (hg : FuncKey g.key) : (L.disengageAll f).rd g = L.rd g :=
  Lane.each_proj _ _ (fun M => M.rd g) (fun h _ M => M.rd_wr_funcKey _ hg
    (by simp only [FuncKey, Fld.key, Reg.HQ_PORT_ENGAGED]; omega)) L

theorem Lane.start1_rd (t : Timer) (L : Lane) (g : Fld) : (L.start1 t).rd g = L.rd g := congrArg (Tab.get 0 · g.key) (L.start1_regs t)

/-- The Autumn record that the entry of Winter fixes (R40). -/
def Lane.winterRecord (f : Func) (cause : Nat) (L : Lane) : AutumnRec :=
  if L.mode f = 1 then ⟨true, if cause = 8 then 0 else L.autumnLeft f - 10000⟩ else if cause = 8 then ⟨true, 0⟩ else ⟨false, 0⟩

/-- The function shows Winter, and its engagements have ended (R110, R438). -/
def Lane.winterShown (f : Func) (cause : Nat) (L : Lane) : Lane :=
  (((((L.wr (Reg.ROLE_FUNC_MODE f.code) 2).wr (Reg.ROLE_FUNC_CAUSE f.code) cause).stop (.autumn f)).onFn f
    (fun x => { x with causes := [cause] })).onRet (fun r => { r with winter := vupd r.winter f.ix (fun _ => some (L.winterRecord f cause)) })).disengageAll f

/-- Winter hold is set for the port of a served STEER or FEEL (R330). -/
def Lane.winterHolds (f : Func) (L : Lane) : Lane :=
  L.when ((f == .steer || f == .feel) && L.serves f) (fun L => L.each (L.portOf f).toList (fun p => wrBit Reg.LG_PORT_WHOLD p.val true))

/-- BRAKE, TRAIL and PARK wait for standstill (R113). -/
def Lane.winterWaits (f : Func) (L : Lane) : Lane := L.when (f == .brake || f == .trail || f == .park) (fun L => L.start1 .standstill)

/-- BRAKE starts the PARK timer (R331). -/
def Lane.winterParks (f : Func) (L : Lane) : Lane :=
  L.when (f == .brake && L.serves .park && !L.parkOff) (fun L => (L.set1 Reg.LG_PARK_RUN).restart .park)

theorem Lane.winterOne_eq {f : Func} {L : Lane} (h : L.mode f ≠ 2) (c : Nat) :
    L.winterOne f c = (((L.winterShown f c).winterHolds f).winterWaits f).winterParks f := if_neg h

theorem Lane.winterOne_of_winter {f : Func} {L : Lane} (h : L.mode f = 2) (c : Nat) : L.winterOne f c = L := if_pos h

/-- Of ROLE_FUNC, the entry of Winter writes the mode and the cause of its function. -/
theorem Lane.winterOne_rd {f : Func} {L : Lane} (h : L.mode f ≠ 2) (c : Nat) {g : Fld} (hg : FuncKey g.key) :
    (L.winterOne f c).rd g = ((L.wr (Reg.ROLE_FUNC_MODE f.code) 2).wr (Reg.ROLE_FUNC_CAUSE f.code) c).rd g := by
  have hpark (M : Lane) : (M.winterParks f).rd g = M.rd g := by
    unfold Lane.winterParks
    refine Lane.when_proj _ _ (fun M => M.rd g) (fun M => ?_) M
    exact M.rd_wr_funcKey (a := Reg.LG_PARK_RUN) 1 hg (by unfold FuncKey; decide)
  have hwait (M : Lane) : (M.winterWaits f).rd g = M.rd g := by
    unfold Lane.winterWaits
    exact Lane.when_proj _ _ (fun M => M.rd g) (fun M => M.start1_rd _ g) M
  have hhold (M : Lane) : (M.winterHolds f).rd g = M.rd g := by
    unfold Lane.winterHolds
    refine Lane.when_proj _ _ (fun M => M.rd g) (fun M => Lane.each_proj _ _ (fun M => M.rd g) (fun p _ M => ?_) M) M
    exact M.rd_wr_funcKey (a := Reg.LG_PORT_WHOLD) _ hg (by unfold FuncKey; decide)
  rw [Lane.winterOne_eq h, hpark, hwait, hhold]
  exact Lane.disengageAll_rd _ _ hg

/-- The entry of Winter leaves which functions the lane serves. -/
theorem Lane.winterOne_serves (f g : Func) (c : Nat) (L : Lane) : (L.winterOne f c).serves g = L.serves g := by
  by_cases h : L.mode f = 2
  · rw [Lane.winterOne_of_winter h]
  have hpark (M : Lane) : (M.winterParks f).serves g = M.serves g := by
    unfold Lane.winterParks
    refine Lane.when_proj _ _ (fun M => M.serves g) (fun M => ?_) M
    rfl
  have hwait (M : Lane) : (M.winterWaits f).serves g = M.serves g := by
    unfold Lane.winterWaits Lane.start1
    refine Lane.when_proj _ _ (fun M => M.serves g) (fun M => ?_) M
    split <;> rfl
  have hhold (M : Lane) : (M.winterHolds f).serves g = M.serves g := by
    unfold Lane.winterHolds
    refine Lane.when_proj _ _ (fun M => M.serves g) (fun M => Lane.each_proj _ _ (fun M => M.serves g) (fun p _ M => ?_) M) M
    rfl
  rw [Lane.winterOne_eq h, hpark, hwait, hhold]
  unfold Lane.winterShown Lane.disengageAll
  refine (Lane.each_proj _ _ (fun M => M.serves g) (fun h _ M => ?_) _).trans ?_
  · rfl
  refine (congrArg RoleFn.served (vget_vupd _ _ _ _)).trans ?_
  split <;> rfl

/-- The function is in Winter with the cause. -/
theorem Lane.winterOne_enters {f : Func} {L : Lane} (h : L.mode f ≠ 2) {c : Nat} (hc : c < 16) : (L.winterOne f c).InWinter f c := by
  refine ⟨?_, ?_⟩
  · rw [Lane.mode, Lane.winterOne_rd h c (funcKey_mode f), Lane.rd_wr_ne _ _ (by cases f <;> decide), Lane.rd_wr_same]
    rfl
  · rw [Lane.winterOne_rd h c (funcKey_cause f), Lane.rd_wr_same]
    exact Nat.mod_eq_of_lt hc

/-- The entry of Winter of one function leaves mode and cause of every other. -/
theorem Lane.winterOne_other {f g : Func} (h : f ≠ g) (c : Nat) (L : Lane) :
    (L.winterOne f c).mode g = L.mode g ∧ (L.winterOne f c).rd (Reg.ROLE_FUNC_CAUSE g.code) = L.rd (Reg.ROLE_FUNC_CAUSE g.code) := by
  by_cases hm : L.mode f = 2
  · rw [Lane.winterOne_of_winter hm]
    exact ⟨rfl, rfl⟩
  · refine ⟨?_, ?_⟩
    · rw [Lane.mode, Lane.winterOne_rd hm c (funcKey_mode g), Lane.rd_wr_ne _ _ (by revert h; cases f <;> cases g <;> decide),
        Lane.rd_wr_ne _ _ (by revert h; cases f <;> cases g <;> decide)]
      rfl
    · rw [Lane.winterOne_rd hm c (funcKey_cause g), Lane.rd_wr_ne _ _ (by revert h; cases f <;> cases g <;> decide),
        Lane.rd_wr_ne _ _ (by revert h; cases f <;> cases g <;> decide)]

theorem Lane.winterServed_serves (f g : Func) (c : Nat) (L : Lane) : (L.winterServed f c).serves g = L.serves g :=
  Lane.when_proj _ _ (fun M => M.serves g) (fun M => M.winterOne_serves f g c) L

theorem Lane.winterServed_other {f g : Func} (h : f ≠ g) (c : Nat) (L : Lane) : (L.winterServed f c).mode g = L.mode g ∧
    (L.winterServed f c).rd (Reg.ROLE_FUNC_CAUSE g.code) = L.rd (Reg.ROLE_FUNC_CAUSE g.code) :=
  ⟨Lane.when_proj _ _ (fun M => M.mode g) (fun M => (M.winterOne_other h c).1) L,
    Lane.when_proj _ _ (fun M => M.rd _) (fun M => (M.winterOne_other h c).2) L⟩

/-- A function that is in Winter keeps its cause, whichever function enters next. -/
theorem Lane.InWinter.winterServed {f : Func} {c : Nat} {L : Lane} (h : L.InWinter f c) (g : Func) (d : Nat) :
    (L.winterServed g d).InWinter f c := by
  by_cases e : g = f
  · subst e
    have hsame : L.winterServed g d = L := by
      unfold Lane.winterServed Lane.when
      rw [Lane.winterOne_of_winter h.1, ite_self]
    rwa [hsame]
  · obtain ⟨hmode, hcause⟩ := L.winterServed_other e d
    exact ⟨hmode.trans h.1, hcause.trans h.2⟩

theorem Lane.InWinter.each {f : Func} {c : Nat} (gs : List Func) {L : Lane} (h : L.InWinter f c) :
    (L.each gs fun g => Lane.winterServed g 11).InWinter f c := by
  induction gs generalizing L with
  | nil => exact h
  | cons g gs ih => exact ih (h.winterServed g 11)

/-- Of the functions that Winter spreads to, a served one that is not in Winter enters it. -/
theorem Lane.each_winterServed_enters {gs : List Func} {f : Func} (hf : f ∈ gs) {L : Lane} (hs : L.serves f = true) (hm : L.mode f ≠ 2) :
    (L.each gs fun g => Lane.winterServed g 11).InWinter f 11 := by
  induction gs generalizing L with
  | nil => cases hf
  | cons g gs ih =>
    by_cases e : g = f
    · subst e
      have henters : (L.winterServed g 11).InWinter g 11 := by
        unfold Lane.winterServed
        rw [Lane.when_of_true _ _ hs]
        exact Lane.winterOne_enters hm (by decide)
      exact henters.each gs
    · obtain ⟨hmode, -⟩ := L.winterServed_other e 11
      exact ih ((List.mem_cons.mp hf).resolve_left (Ne.symm e)) ((L.winterServed_serves g f 11).trans hs) (by rwa [hmode])

/-- Winter spreads from function to function in the order of `spreadsTo`. -/
theorem Lane.winterSpread_eq (f : Func) (L : Lane) : L.winterSpread f = (L.each (spreadsTo f) fun g => Lane.winterServed g 11).settleSvc := by
  cases f <;> rfl

/-- SERVICE and AUTUMN follow the modes and leave ROLE_FUNC (R315). -/
theorem Lane.settleSvc_rd (L : Lane) {g : Fld} (hg : FuncKey g.key) : L.settleSvc.rd g = L.rd g := by
  have hsvc : ¬SvcKey g.key := by
    obtain ⟨h1, h2⟩ := hg
    have : Reg.GD_STAT_CHOP.key / 64 = 0x20160004 := by decide
    rintro (h | h | h)
    · omega
    · omega
    · rw [h] at h1 h2
      omega
  have hstate : g.key ≠ Reg.SYS_STATE_STATE.key := fun e => by
    rw [e] at hg
    revert hg
    unfold FuncKey
    decide
  unfold Lane.settleSvc
  dsimp only
  split
  · exact L.setSvc_rd 5 g hsvc hstate
  · split
    · exact L.setSvc_rd 4 g hsvc hstate
    · rfl

theorem Lane.InWinter.settleSvc {f : Func} {c : Nat} {L : Lane} (h : L.InWinter f c) : L.settleSvc.InWinter f c :=
  ⟨(L.settleSvc_rd (funcKey_mode f)).trans h.1, (L.settleSvc_rd (funcKey_cause f)).trans h.2⟩

theorem Lane.winter_of_served {f : Func} {L : Lane} (hs : L.serves f = true) (hm : L.mode f ≠ 2) (c : Nat) :
    L.winter f c = (L.winterOne f c).winterSpread f := if_pos ⟨hs, hm⟩

/-- A served function that enters Winter is in Winter with its cause (R114). -/
theorem Lane.winter_enters {f : Func} {L : Lane} (hs : L.serves f = true) (hm : L.mode f ≠ 2) {c : Nat} (hc : c < 16) :
    (L.winter f c).InWinter f c := by
  rw [Lane.winter_of_served hs hm, Lane.winterSpread_eq]
  exact ((Lane.winterOne_enters hm hc).each _).settleSvc

/-- A served function that Winter spreads to is in Winter with cause 11 (R114). -/
theorem Lane.winter_spreads {f g : Func} (hg : g ∈ spreadsTo f) {L : Lane} (hs : L.serves f = true) (hm : L.mode f ≠ 2)
    (hsg : L.serves g = true) (hmg : L.mode g ≠ 2) (c : Nat) : (L.winter f c).InWinter g 11 := by
  have hfg : f ≠ g := by rintro rfl; revert hg; cases f <;> decide
  rw [Lane.winter_of_served hs hm, Lane.winterSpread_eq]
  refine (Lane.each_winterServed_enters hg ((L.winterOne_serves f g c).trans hsg) ?_).settleSvc
  rwa [(L.winterOne_other hfg c).1]

/-- Winter of a function leaves every other function that it does not spread to. -/
theorem Lane.winter_other {f g : Func} (hfg : f ≠ g) (hg : g ∉ spreadsTo f) {L : Lane} (hs : L.serves f = true) (hm : L.mode f ≠ 2) (c : Nat) :
    (L.winter f c).mode g = L.mode g ∧ (L.winter f c).rd (Reg.ROLE_FUNC_CAUSE g.code) = L.rd (Reg.ROLE_FUNC_CAUSE g.code) := by
  obtain ⟨hmode, hcause⟩ := L.winterOne_other hfg c
  have hne {h : Func} (hh : h ∈ spreadsTo f) : h ≠ g := fun e => hg (e ▸ hh)
  rw [Lane.winter_of_served hs hm, Lane.winterSpread_eq]
  refine ⟨((Lane.settleSvc_rd _ (funcKey_mode g)).trans ?_).trans hmode, ((Lane.settleSvc_rd _ (funcKey_cause g)).trans ?_).trans hcause⟩
  · exact Lane.each_proj _ _ (fun M => M.mode g) (fun h hh M => (M.winterServed_other (hne hh) 11).1) _
  · exact Lane.each_proj _ _ (fun M => M.rd _) (fun h hh M => (M.winterServed_other (hne hh) 11).2) _

/-- Two lanes that disagree for 20 ms put the function into Winter with cause 10 (R97). -/
theorem twoLaneDisagreementTimeout_does {l : LaneId} {dt : Nat} {g : Func} {pre : Lane → Prop} {post : Lane → Lane → Prop}
    (hdue : ∀ L, pre L → (L.pass dt).due (.disagree g) 20000000 = true)
    (hp : ∀ L, pre L → post L (((L.pass dt).winter g 10).stop (.disagree g))) : Does (.twoLaneDisagreementTimeout l dt g) pre post :=
  does_of (fun L => (L.pass dt).when ((L.pass dt).due (.disagree g) 20000000) fun L => (L.winter g 10).stop (.disagree g)) (fun _ => rfl)
    fun L h => by
      rw [Lane.when_of_true _ _ (hdue L h)]
      exact hp L h

/-- Settles O59: a function that enters Winter is in Winter with its cause, those that Winter spreads to with cause 11, and the others
are as before. -/
theorem winterSpreads : Obligations.winter_spreads := by
  refine ⟨fun L c hs hm hc => ?steer, fun L c hs hm hc => ?brake, fun L c hs hm hc => ?feel, fun l dt g f => ?disagree⟩
  case steer =>
    obtain ⟨hmode, hcause⟩ := Lane.winter_enters hs hm hc
    exact ⟨hmode, hcause, fun f hf hsf hmf => Lane.winter_spreads (by simpa [spreadsTo] using hf) hs hm hsf hmf c⟩
  case brake =>
    obtain ⟨hmode, hcause⟩ := Lane.winter_enters hs hm hc
    refine ⟨hmode, hcause, fun f hf hsf hmf => Lane.winter_spreads (by simpa [spreadsTo] using hf) hs hm hsf hmf c, fun f hf => ?_⟩
    exact Lane.winter_other (by rcases hf with rfl | rfl <;> decide) (by rcases hf with rfl | rfl <;> decide) hs hm c
  case feel =>
    obtain ⟨hmode, hcause⟩ := Lane.winter_enters hs hm hc
    exact ⟨hmode, hcause, fun f hf => Lane.winter_other hf.symm (by simp [spreadsTo]) hs hm c⟩
  case disagree =>
    refine twoLaneDisagreementTimeout_does (fun L h => h.1) fun L h => ?_
    obtain ⟨-, hsg, hmg, hsf, hmf, hgf⟩ := h
    have hspread : f ∈ spreadsTo g := by
      rcases hgf with ⟨rfl, hf⟩ | ⟨rfl, hf⟩
      · simpa [spreadsTo] using hf
      · simpa [spreadsTo] using hf
    obtain ⟨hmode, hcause⟩ := Lane.winter_enters (L := L.pass dt) hsg hmg (c := 10) (by decide)
    obtain ⟨hmodef, hcausef⟩ := Lane.winter_spreads (L := L.pass dt) hspread hsg hmg hsf hmf 10
    exact ⟨hmode, hcause, hmodef, hcausef⟩

end Sys2Proof.Machine

namespace Sys2Proof.Machine

/-! ### Accusations and proposals that software and timers make (R92, R95 to R97, R108, R128) -/

/-- A write of a live pair in a lane that runs: P_0 makes it, for P_1 source 20 fires (R128). -/
theorem Lane.byPair_of_live {p : Pair} {L : Lane} (hfirm : L.firmware = true) (hlive : L.pairLive p = true) (f : Lane → Lane) :
    L.byPair p f = if p = 0 then f L else L.fire 20 := by
  unfold Lane.byPair
  rw [Lane.when_of_true _ _ hlive, Lane.p0Only_of_firmware hfirm]

/-- Between two states of a lane only withdrawals differ, which are those of L and of the functions fs. -/
structure Lane.Withdraws (fs : List Func) (L M : Lane) : Prop where
  only : M = { L with vote := { L.vote with withdraw := M.vote.withdraw } }
  withdraw : ∀ f : Func, vget M.vote.withdraw f.ix = (vget L.vote.withdraw f.ix || decide (f ∈ fs))

/-- Two functions with one index are one. -/
theorem Func.ix_inj {f g : Func} (h : f.ix = g.ix) : f = g := by revert h; cases f <;> cases g <;> decide

/-- The lane withdraws from every function of a list, and nothing else changes (R92). -/
theorem Lane.each_withdraws (fs : List Func) (L : Lane) : L.Withdraws fs (L.each fs Lane.withdraw) := by
  induction fs generalizing L with
  | nil => exact ⟨rfl, fun f => (Bool.or_false _).symm⟩
  | cons g fs ih =>
    obtain ⟨honly, hwithdraw⟩ := ih (L.withdraw g)
    refine ⟨honly, fun f => (hwithdraw f).trans ?_⟩
    rw [show vget (L.withdraw g).vote.withdraw f.ix = (if g.ix = f.ix then true else vget L.vote.withdraw f.ix) from vget_vupd _ _ _ _]
    by_cases e : f = g
    · subst e
      simp
    · have hne : g.ix ≠ f.ix := fun h => e (Func.ix_inj h.symm)
      simp [hne, e]

/-- The functions for which ten bits hold the code 3. -/
def withdrawnBy (code : Nat) : List Func := Func.all.filter fun f => decide (nbits code (2 * f.code) 2 = 3)

theorem mem_withdrawnBy (code : Nat) (f : Func) : f ∈ withdrawnBy code ↔ nbits code (2 * f.code) 2 = 3 := by
  rw [withdrawnBy, List.mem_filter, decide_eq_true_iff, and_iff_right f.mem_all]

/-- P_0 writes the codes; a code 3 withdraws the lane for good (R92, R95, R118). -/
theorem roleAccuseCodeWrite_p0 (l : LaneId) (code : BitVec 10) : Does (.roleAccuseCodeWrite l 0 code)
    (fun L => L.firmware = true ∧ L.pairLive 0 = true)
    (fun L M => M.rd Reg.ROLE_ACCUSE_CODE = code.toNat ∧ (∀ f : Func, vget M.vote.withdraw f.ix =
        (vget L.vote.withdraw f.ix || decide (nbits code.toNat (2 * f.code) 2 = 3))) ∧
      M = { L.wr Reg.ROLE_ACCUSE_CODE code.toNat with vote := { L.vote with withdraw := M.vote.withdraw } }) := by
  refine does_of (fun L => L.byPair 0 fun L => (L.wr Reg.ROLE_ACCUSE_CODE code.toNat).each (withdrawnBy code.toNat) Lane.withdraw)
    (fun _ => rfl) fun L h => ?_
  obtain ⟨hfirm, hlive⟩ := h
  rw [Lane.byPair_of_live hfirm hlive, if_pos rfl]
  obtain ⟨honly, hwithdraw⟩ := (L.wr Reg.ROLE_ACCUSE_CODE code.toNat).each_withdraws (withdrawnBy code.toNat)
  refine ⟨?_, fun f => (hwithdraw f).trans (congrArg _ (decide_eq_decide.mpr (mem_withdrawnBy _ f))), honly⟩
  rw [honly]
  exact (L.rd_wr_same Reg.ROLE_ACCUSE_CODE code.toNat).trans (Nat.mod_eq_of_lt code.isLt)

/-- P_0 writes the proposals that the next vote frame carries (R108, R118). -/
theorem roleRotatePropose_p0 (l : LaneId) (r : BitVec 5) : Does (.roleRotatePropose l 0 r)
    (fun L => L.firmware = true ∧ L.pairLive 0 = true)
    (fun L M => M = L.wr Reg.ROLE_ACCUSE_ROTATE r.toNat ∧ M.rd Reg.ROLE_ACCUSE_ROTATE = r.toNat) := by
  refine does_of (fun L => L.byPair 0 (Lane.wr Reg.ROLE_ACCUSE_ROTATE r.toNat)) (fun _ => rfl) fun L h => ?_
  obtain ⟨hfirm, hlive⟩ := h
  rw [Lane.byPair_of_live hfirm hlive, if_pos rfl]
  exact ⟨rfl, (L.rd_wr_same Reg.ROLE_ACCUSE_ROTATE r.toNat).trans (Nat.mod_eq_of_lt r.isLt)⟩

/-- A write of P_1 that only P_0 may make fires source 20 (R128). -/
theorem byPair_p1_does {c : Instr} (f : Lane → Lane) (he : ∀ s, exec c s = .next (s.onLane (laneOf c) fun L => L.byPair 1 f)) : Does c
    (fun L => L.firmware = true ∧ L.pairLive 1 = true) (fun L M => L.Reacts M ∧ M.sticky 20 = true) := by
  refine does_of (fun L => L.byPair 1 f) he fun L h => ?_
  obtain ⟨hfirm, hlive⟩ := h
  rw [Lane.byPair_of_live hfirm hlive, if_neg (by decide)]
  exact ⟨Lane.fire_reacts 20 (.refl L), L.fire_sticky 20 (by decide)⟩

/-- An accusation that stands alone for 20 ms fires source 320 (R96). -/
theorem minorityAccusationTimeout_does {l : LaneId} {dt : Nat} {f : Func} {pre : Lane → Prop} {post : Lane → Lane → Prop}
    (hdue : ∀ L, pre L → (L.pass dt).due (.minority f) 20000000 = true)
    (hp : ∀ L, pre L → post L ((L.pass dt).fire 320)) : Does (.minorityAccusationTimeout l dt f) pre post :=
  does_of (fun L => (L.pass dt).when ((L.pass dt).due (.minority f) 20000000) (Lane.fire 320)) (fun _ => rfl) fun L h => by
    rw [Lane.when_of_true _ _ (hdue L h)]
    exact hp L h

/-- Settles O10: the writes are made by P_0 and refused to P_1, and the two timers fire source 320 and enter Winter. -/
theorem accusations : Obligations.accusations := by
  refine ⟨roleAccuseCodeWrite_p0, fun l code => byPair_p1_does _ fun _ => rfl, roleRotatePropose_p0,
    fun l r => byPair_p1_does _ fun _ => rfl,
    fun l dt f => minorityAccusationTimeout_does (fun _ h => h) fun L _ => ⟨Lane.fire_reacts 320 (.refl _), Lane.fire_sticky _ 320 (by decide)⟩,
    fun l dt f => twoLaneDisagreementTimeout_does (fun _ h => h.1) fun L h => ?_⟩
  obtain ⟨-, hserves, hmode⟩ := h
  obtain ⟨hwinter, hcause⟩ := Lane.winter_enters (L := L.pass dt) hserves hmode (c := 10) (by decide)
  exact ⟨Lane.running_stop_same _ _, hwinter, hcause⟩

end Sys2Proof.Machine

namespace Sys2Proof.Machine

/-! ### What a lane keeps while it acts on itself

Faults, removals, seasons and grants are built from few updates of a lane. `Lane.Stays S L M` says once what all of them keep; a
scope S says which fields an operation may write, to which ports it may grant the gate enable, and for which functions it may take
accusations back. -/

/-- What an operation may touch. -/
structure Scope where
  keys : Nat → Prop
  grants : Port → Prop
  drops : Func → Prop
  posts : Prop

/-- The timers that watch a neighbour's status frames and vote frames (R91, R98). -/
def Timer.hears : Timer → Bool
  | .status _ | .voteIn _ => true
  | _ => false

/-- The fields of FC_STICKY (R343). -/
abbrev StickyKey (k : Nat) : Prop := 0x20030000 ≤ k / 64 ∧ k / 64 < 0x20030080

/-- The fields of which `Stays` follows the bits: the gate enables, the grants and the sticky bits. -/
abbrev BitKey (k : Nat) : Prop := k = Reg.GD_STAT_EN.key ∨ k = Reg.LG_PORT_GRANT.key ∨ StickyKey k

/-- A port's gate enable is off, and its grant is. -/
def Lane.EnOff (p : Port) (L : Lane) : Prop := L.bitOf Reg.GD_STAT_EN p.val = false
def Lane.GrantOff (p : Port) (L : Lane) : Prop := L.bitOf Reg.LG_PORT_GRANT p.val = false

/-- M came from L by what the scope S allows: the image, the guard's inputs, neighbours, vote inputs, own counts and exclusions are as before, a withdrawal and a
sticky bit stand, no function is served anew, and no port but those of the scope is granted anew. -/
structure Lane.Stays (S : Scope) (L M : Lane) : Prop where
  id : M.id = L.id
  nb : M.nb = L.nb
  image : M.start.image = L.start.image
  guardSt : M.guardSt = L.guardSt
  counted : M.vote.count = L.vote.count
  ownCodes : M.vote.ownCodes = L.vote.ownCodes
  ownRotate : M.vote.ownRotate = L.vote.ownRotate
  inp : M.vote.inp = L.vote.inp
  excluded : M.gate.excluded = L.gate.excluded
  hardware : ∀ f, ¬S.drops f → vget M.vote.hardware f.ix = vget L.vote.hardware f.ix
  withdraw : ∀ i, vget L.vote.withdraw i = true → vget M.vote.withdraw i = true
  out : ¬S.posts → M.out = L.out
  timerAt : ∀ t, t.hears = true → M.timerAt t = L.timerAt t
  serves : ∀ f, L.serves f = false → M.serves f = false
  sticky : ∀ n < 1024, L.sticky n = true → M.sticky n = true
  enOff : ∀ p, ¬S.grants p → L.EnOff p → M.EnOff p
  grantOff : ∀ p, ¬S.grants p → L.GrantOff p → M.GrantOff p
  regs : ∀ k, ¬S.keys k → Tab.get 0 M.regs k = Tab.get 0 L.regs k

theorem Lane.Stays.refl (S : Scope) (L : Lane) : L.Stays S L where
  id := rfl
  nb := rfl
  image := rfl
  guardSt := rfl
  counted := rfl
  ownCodes := rfl
  ownRotate := rfl
  inp := rfl
  excluded := rfl
  hardware _ _ := rfl
  withdraw _ h := h
  out _ := rfl
  timerAt _ _ := rfl
  serves _ h := h
  sticky _ _ h := h
  enOff _ _ h := h
  grantOff _ _ h := h
  regs _ _ := rfl

theorem Lane.Stays.trans {S : Scope} {L M N : Lane} (h : L.Stays S M) (k : M.Stays S N) : L.Stays S N where
  id := k.id.trans h.id
  nb := k.nb.trans h.nb
  image := k.image.trans h.image
  guardSt := k.guardSt.trans h.guardSt
  counted := k.counted.trans h.counted
  ownCodes := k.ownCodes.trans h.ownCodes
  ownRotate := k.ownRotate.trans h.ownRotate
  inp := k.inp.trans h.inp
  excluded := k.excluded.trans h.excluded
  hardware f hf := (k.hardware f hf).trans (h.hardware f hf)
  withdraw i hi := k.withdraw i (h.withdraw i hi)
  out hp := (k.out hp).trans (h.out hp)
  timerAt t ht := (k.timerAt t ht).trans (h.timerAt t ht)
  serves f hf := k.serves f (h.serves f hf)
  sticky n hn hs := k.sticky n hn (h.sticky n hn hs)
  enOff p hp he := k.enOff p hp (h.enOff p hp he)
  grantOff p hp he := k.grantOff p hp (h.grantOff p hp he)
  regs j hj := (k.regs j hj).trans (h.regs j hj)

/-- A field outside the scope. -/
theorem Lane.Stays.rd {S : Scope} {L M : Lane} (h : L.Stays S M) {g : Fld} (hg : ¬S.keys g.key) : M.rd g = L.rd g := h.regs _ hg

section
variable {S : Scope} {L M : Lane}

/-! #### The updates that operations are built from -/

theorem Lane.Stays.wr (h : L.Stays S M) (f : Fld) (v : Nat) (hk : S.keys f.key) (hb : ¬BitKey f.key) : L.Stays S (M.wr f v) := by
  have hrd {g : Fld} (hg : BitKey g.key) : (M.wr f v).rd g = M.rd g := M.rd_wr_ne v fun e => hb (e ▸ hg)
  refine { h with
    sticky := fun n hn hs => ?_
    enOff := fun p hp he => ?_
    grantOff := fun p hp he => ?_
    regs := fun k hk' => (Tab.get_put_ne (z := 0) M.regs _ (show f.key ≠ k from fun e => hk' (e ▸ hk))).trans (h.regs k hk') }
  · have hkey : BitKey (Reg.FC_STICKY_S (n / 32)).key := by
      simp only [BitKey, StickyKey, Fld.key, Reg.FC_STICKY_S]; omega
    have hs' := h.sticky n hn hs
    rw [Lane.sticky, Lane.bitOf] at hs' ⊢
    rwa [hrd hkey]
  · have he' := h.enOff p hp he
    rw [Lane.EnOff, Lane.bitOf] at he' ⊢
    rwa [hrd (.inl rfl)]
  · have he' := h.grantOff p hp he
    rw [Lane.GrantOff, Lane.bitOf] at he' ⊢
    rwa [hrd (.inr (.inl rfl))]

theorem Lane.Stays.stop (h : L.Stays S M) (t : Timer) (ht : t.hears = false) : L.Stays S (M.stop t) :=
  { h with
    timerAt := fun u hu => by
      rw [Lane.timerAt_stop, if_neg fun e => by rw [e, hu] at ht; cases ht]
      exact h.timerAt u hu }

theorem Lane.Stays.restart (h : L.Stays S M) (t : Timer) (ht : t.hears = false) : L.Stays S (M.restart t) :=
  { h with
    timerAt := fun u hu => by
      rw [Lane.timerAt_restart, if_neg fun e => by rw [e, hu] at ht; cases ht]
      exact h.timerAt u hu }

theorem Lane.Stays.setTimer (h : L.Stays S M) (t : Timer) (v : Nat) (ht : t.hears = false) : L.Stays S (M.setTimer t v) :=
  { h with
    timerAt := fun u hu => by
      rw [Lane.timerAt_setTimer_ne fun e => by rw [e, hu] at ht; cases ht]
      exact h.timerAt u hu }

theorem Lane.Stays.start1 (h : L.Stays S M) (t : Timer) (ht : t.hears = false) : L.Stays S (M.start1 t) := by
  unfold Lane.start1
  split
  · exact h
  · exact h.restart t ht

theorem Lane.Stays.when (h : L.Stays S M) (b : Bool) {f : Lane → Lane} (hf : L.Stays S (f M)) : L.Stays S (M.when b f) := by
  cases b
  · exact h
  · exact hf

/-- As `when`, for an operation that keeps what any lane of the scope has. -/
theorem Lane.Stays.maybe (h : L.Stays S M) (b : Bool) {f : Lane → Lane} (hf : ∀ N : Lane, L.Stays S N → L.Stays S (f N)) : L.Stays S (M.when b f) :=
  h.when b (hf M h)

theorem Lane.Stays.ite {c : Prop} [Decidable c] {A B : Lane} (hA : L.Stays S A) (hB : L.Stays S B) : L.Stays S (if c then A else B) := by
  split
  · exact hA
  · exact hB

theorem Lane.Stays.each {α : Type} (h : L.Stays S M) (xs : List α) {f : α → Lane → Lane}
    (hf : ∀ x ∈ xs, ∀ N : Lane, L.Stays S N → L.Stays S (f x N)) : L.Stays S (M.each xs f) := by
  unfold Lane.each
  induction xs generalizing M with
  | nil => exact h
  | cons x xs ih => exact ih (hf x (.head _) M h) fun y hy => hf y (.tail _ hy)

theorem Lane.Stays.withdraw' (h : L.Stays S M) (f : Func) : L.Stays S (M.withdraw f) :=
  { h with withdraw := fun i hi => vget_vupd_true _ _ _ (h.withdraw i hi) }

/-- A change of one function of the ROLE block that does not let the lane serve it. -/
theorem Lane.Stays.onFn (h : L.Stays S M) (f : Func) {g : RoleFn → RoleFn} (hg : ∀ x, x.served = false → (g x).served = false) :
    L.Stays S (M.onFn f g) :=
  { h with
    serves := fun e he => by
      have he' := h.serves e he
      refine (congrArg RoleFn.served (vget_vupd M.roles.fn f.ix e.ix g)).trans ?_
      split
      · exact hg _ he'
      · exact he' }

/-- A change of the gate drive that excludes no port and readmits none. -/
theorem Lane.Stays.onGate (h : L.Stays S M) {g : GateSt → GateSt} (hg : ∀ x, (g x).excluded = x.excluded) : L.Stays S (M.onGate g) :=
  { h with excluded := (hg _).trans h.excluded }

theorem Lane.Stays.onDe (h : L.Stays S M) (n : Engine) (g : EngineSt → EngineSt) : L.Stays S (M.onDe n g) := { h with }
theorem Lane.Stays.onSv (h : L.Stays S M) (n : Fin 4) (g : SolenoidSt → SolenoidSt) : L.Stays S (M.onSv n g) := { h with }
theorem Lane.Stays.onRet (h : L.Stays S M) (g : Retained → Retained) : L.Stays S (M.onRet g) := { h with }
theorem Lane.Stays.onCore (h : L.Stays S M) (c : Core) (g : CoreSt → CoreSt) : L.Stays S (M.onCore c g) := { h with }
theorem Lane.Stays.onDom (h : L.Stays S M) (d : Fin 8) (g : DomainSt → DomainSt) : L.Stays S (M.onDom d g) := { h with }
theorem Lane.Stays.onSlaz (h : L.Stays S M) (c : Fin 2) (g : SlazSt → SlazSt) : L.Stays S (M.onSlaz c g) := { h with }
theorem Lane.Stays.onStart (h : L.Stays S M) {g : Start → Start} (hg : ∀ x, (g x).image = x.image) : L.Stays S (M.onStart g) :=
  { h with image := (hg _).trans h.image }
theorem Lane.Stays.wearLines (h : L.Stays S M) (a n : Nat) : L.Stays S (M.wearLines a n) := { h with }

theorem Lane.Stays.irq (h : L.Stays S M) (i : Irq) : L.Stays S (M.irq i) := by
  unfold Lane.irq
  refine .ite { h with } (.ite h { h with })

theorem Lane.Stays.withDrive (h : L.Stays S M) (d : Vector Drive 18) : L.Stays S (M.withDrive d) := { h with }

theorem Lane.Stays.gateFollowAll (h : L.Stays S M) : L.Stays S M.gateFollowAll := by
  obtain ⟨d, hd⟩ := M.gateFollowAll_drive
  exact hd ▸ h.withDrive d

/-- A bit of the gate enables or of the grants is cleared. -/
theorem Lane.Stays.bitOff (h : L.Stays S M) (f : Fld) (i : Nat) (hk : S.keys f.key) (hf : f = Reg.GD_STAT_EN ∨ f = Reg.LG_PORT_GRANT) :
    L.Stays S (M.wrBit f i false) := by
  have hoff {g : Fld} (hg : f = g ∨ f.key ≠ g.key) (j : Nat) (hj : M.bitOf g j = false) : (M.wrBit f i false).bitOf g j = false := by
    rcases hg with rfl | hne
    · rw [Lane.bitOf_wrBit, hj]
      simp
    · rw [Lane.bitOf, show (M.wrBit f i false).rd g = M.rd g from M.rd_wr_ne _ hne]
      exact hj
  refine { h with
    sticky := fun n hn hs => ?_
    enOff := fun p hp he => hoff ?_ _ (h.enOff p hp he)
    grantOff := fun p hp he => hoff ?_ _ (h.grantOff p hp he)
    regs := fun k hk' => (Tab.get_put_ne (z := 0) M.regs _ (show f.key ≠ k from fun e => hk' (e ▸ hk))).trans (h.regs k hk') }
  · have hne : f.key ≠ (Reg.FC_STICKY_S (n / 32)).key := by
      rcases hf with rfl | rfl <;> simp only [Fld.key, Reg.FC_STICKY_S, Reg.GD_STAT_EN, Reg.LG_PORT_GRANT] <;> omega
    have hs' := h.sticky n hn hs
    rw [Lane.sticky, Lane.bitOf] at hs' ⊢
    rwa [show (M.wrBit f i false).rd _ = M.rd _ from M.rd_wr_ne _ hne]
  · rcases hf with rfl | rfl
    · exact .inl rfl
    · exact .inr (by decide)
  · rcases hf with rfl | rfl
    · exact .inr (by decide)
    · exact .inl rfl

/-- A sticky bit is set. -/
theorem Lane.Stays.setSticky (h : L.Stays S M) (hS : ∀ k, StickyKey k → S.keys k) {n : Nat} (hn : n < 1024) : L.Stays S (M.setSticky n) := by
  have hkey : StickyKey (Reg.FC_STICKY_S (n / 32)).key := by simp only [StickyKey, Fld.key, Reg.FC_STICKY_S]; omega
  have hrd {g : Fld} (hg : ¬StickyKey g.key) : (M.setSticky n).rd g = M.rd g := M.rd_wr_ne _ fun e => hg (e ▸ hkey)
  refine { h with
    sticky := fun m hm hs => Lane.setSticky_mono n m (h.sticky m hm hs)
    enOff := fun p hp he => ?_
    grantOff := fun p hp he => ?_
    regs := fun k hk => (Tab.get_put_ne (z := 0) M.regs _ (show (Reg.FC_STICKY_S (n / 32)).key ≠ k from fun e => hk (hS k (e ▸ hkey)))).trans (h.regs k hk) }
  · have he' := h.enOff p hp he
    rw [Lane.EnOff, Lane.bitOf] at he' ⊢
    rwa [hrd (by decide)]
  · have he' := h.grantOff p hp he
    rw [Lane.GrantOff, Lane.bitOf] at he' ⊢
    rwa [hrd (by decide)]

/-- Descriptors are put on host queues (R434). -/
theorem Lane.Stays.posts (h : L.Stays S M) (hS : ∀ k, PostKey k → S.keys k) (hpost : S.posts) {N : Lane} (hp : M.Posts N) : L.Stays S N := by
  have hget {k : Nat} (hk : ¬PostKey k) : Tab.get 0 N.regs k = Tab.get 0 M.regs k := by
    have hr := hp.rd ⟨k / 64, k % 64, 0⟩
    simp only [Lane.rd, Fld.key, Nat.div_add_mod'] at hr
    exact hr hk
  have hrd {g : Fld} (hg : g.key < 0x200A0004 * 64 ∨ 0x200A0200 * 64 ≤ g.key) : N.rd g = M.rd g := hget (not_postKey hg)
  have keep {β : Type} (p : Lane → β)
      (hkeep : p { M with regs := N.regs, sram := N.sram, queue := N.queue, out := N.out, host := N.host, isobus := N.isobus } = p M) :
    p N = p M := hp.keeps p hkeep
  refine { id := (keep (·.id) rfl).trans h.id, nb := (keep (·.nb) rfl).trans h.nb, image := (keep (·.start.image) rfl).trans h.image,
           guardSt := (keep (·.guardSt) rfl).trans h.guardSt, counted := (keep (·.vote.count) rfl).trans h.counted,
           ownCodes := (keep (·.vote.ownCodes) rfl).trans h.ownCodes, ownRotate := (keep (·.vote.ownRotate) rfl).trans h.ownRotate,
           inp := (keep (·.vote.inp) rfl).trans h.inp, excluded := (keep (·.gate.excluded) rfl).trans h.excluded,
           hardware := fun f hf => (keep (fun K => vget K.vote.hardware f.ix) rfl).trans (h.hardware f hf)
           withdraw := fun i hi => (keep (fun K => vget K.vote.withdraw i) rfl).trans (h.withdraw i hi)
           out := fun hn => absurd hpost hn
           timerAt := fun t ht => (keep (Lane.timerAt · t) rfl).trans (h.timerAt t ht)
           serves := fun f hf => (keep (Lane.serves · f) rfl).trans (h.serves f hf)
           sticky := fun n hn hs => ?_
           enOff := fun p hp he => ?_
           grantOff := fun p hp he => ?_
           regs := fun k hk => (hget fun hk' => hk (hS k hk')).trans (h.regs k hk) }
  · have hs' := h.sticky n hn hs
    rw [Lane.sticky, Lane.bitOf] at hs' ⊢
    rwa [hrd (by simp only [Fld.key, Reg.FC_STICKY_S]; omega)]
  · have he' := h.enOff p hp he
    rw [Lane.EnOff, Lane.bitOf] at he' ⊢
    rwa [hrd (by decide)]
  · have he' := h.grantOff p hp he
    rw [Lane.GrantOff, Lane.bitOf] at he' ⊢
    rwa [hrd (by decide)]

end

end Sys2Proof.Machine

namespace Sys2Proof.Machine

/-! ### What faults, seasons and grants may write -/

/-- The fields that the guard's port turn-off writes (R311, R314). -/
abbrev TurnKey (k : Nat) : Prop := k = Reg.GD_STAT_EN.key ∨ k = Reg.LG_PORT_GRANT.key ∨ k = Reg.GD_STAT_BSTARM.key

/-- The fields that no fault, no season and no turn-off of the lane writes: the ROLE block but for the mode and its cause, the first trips,
the guard's supplies, what the lane says of its neighbours, and the update state. -/
abbrev KeptKey (k : Nat) : Prop :=
  (0x20010000 ≤ k / 64 ∧ k / 64 < 0x20010080 ∧ ¬(k / 64 < 0x20010020 ∧ (k % 64 = 4 ∨ k % 64 = 16))) ∨
    (0x200300C0 ≤ k / 64 ∧ k / 64 < 0x200300CC) ∨ k = Reg.SYS_STATE_PEERS.key ∨ k = Reg.SYS_STATE_ELECTED.key ∨ k = Reg.UP_STATE_STATE.key ∨
    k / 64 = 0x20160008 ∨ k = Reg.GD_STAT_PROT.key ∨ k = Reg.GD_STAT_VGDOK.key ∨ k = Reg.GD_STAT_BSTOK.key ∨ k = Reg.GD_TRIP_1_BSTUV.key

/-- The fields that they may write and of which `Stays` follows no bit. -/
abbrev OwnKey (k : Nat) : Prop := ¬KeptKey k ∧ ¬BitKey k

/-- A scope of operations that may turn ports off. -/
structure Scope.Turns (S : Scope) : Prop where
  turn : ∀ k, TurnKey k → S.keys k

/-- A scope of operations that may fire sources, end service and change the modes of functions. -/
structure Scope.Acts (S : Scope) : Prop extends S.Turns where
  own : ∀ k, OwnKey k → S.keys k

/-- A scope of operations that may fire sources. -/
structure Scope.Fires (S : Scope) : Prop extends S.Acts where
  stick : ∀ k, StickyKey k → S.keys k
  tells : S.posts

theorem ownKey_of_postKey {k : Nat} (h : PostKey k) : OwnKey k := by
  have hk : ¬(k < 0x200A0004 * 64 ∨ 0x200A0200 * 64 ≤ k) := fun e => not_postKey e h
  simp only [OwnKey, KeptKey, BitKey, StickyKey, Fld.key, Reg.SYS_STATE_PEERS, Reg.SYS_STATE_ELECTED, Reg.UP_STATE_STATE, Reg.GD_STAT_PROT,
    Reg.GD_STAT_VGDOK, Reg.GD_STAT_BSTOK, Reg.GD_TRIP_1_BSTUV, Reg.GD_STAT_EN, Reg.LG_PORT_GRANT]
  omega

section
variable {S : Scope} {L M : Lane}

namespace Lane.Stays

/-! #### Updates of fields that faults own -/

theorem own (h : L.Stays S M) (hS : S.Acts) (f : Fld) (v : Nat) (hf : OwnKey f.key) : L.Stays S (M.wr f v) := h.wr f v (hS.own _ hf) hf.2
theorem clr (h : L.Stays S M) (hS : S.Acts) (f : Fld) (hf : OwnKey f.key) : L.Stays S (M.clr f) := h.own hS f 0 hf
theorem set1 (h : L.Stays S M) (hS : S.Acts) (f : Fld) (hf : OwnKey f.key) : L.Stays S (M.set1 f) := h.own hS f 1 hf
theorem count (h : L.Stays S M) (hS : S.Acts) (f : Fld) (n : Nat) (hf : OwnKey f.key) : L.Stays S (M.count f n) := h.own hS f _ hf
theorem wrBit (h : L.Stays S M) (hS : S.Acts) (f : Fld) (i : Nat) (b : Bool) (hf : OwnKey f.key) : L.Stays S (M.wrBit f i b) := h.own hS f _ hf

/-! #### The gates and the grants -/

theorem stage1 (h : L.Stays S M) (b : Fin 18) : L.Stays S (M.stage1 b) := h.onGate fun _ => rfl
theorem holdOff (h : L.Stays S M) (b : Fin 18) : L.Stays S (M.holdOff b) := h.onGate fun _ => rfl
theorem switchFree (h : L.Stays S M) (b : Fin 18) : L.Stays S (M.switchFree b) := h.onGate fun _ => rfl

/-- What follows once a port's enable and grant are off (R311). -/
theorem ungrantEnds {p : Port} (h : L.Stays S ((M.wrBit Reg.GD_STAT_EN p.val false).wrBit Reg.LG_PORT_GRANT p.val false)) (hS : S.Turns) :
    L.Stays S (M.ungrant p) := by
  unfold Lane.ungrant
  refine .maybe (h.each _ fun b _ _ hN => hN.wr _ _ (hS.turn _ (.inr (.inr rfl))) (by decide)) _ fun N hN => .each ?_ _ fun f _ _ hK => hK.withdraw' f
  exact hN.onGate fun _ => rfl

theorem ungrant (h : L.Stays S M) (hS : S.Turns) (p : Port) : L.Stays S (M.ungrant p) :=
  ((h.bitOff _ _ (hS.turn _ (.inl rfl)) (.inl rfl)).bitOff _ _ (hS.turn _ (.inr (.inl rfl))) (.inr rfl)).ungrantEnds hS

theorem portOffSwitches (h : L.Stays S M) (hS : S.Turns) (p : Port) : L.Stays S (M.portOffSwitches p) := by
  unfold Lane.portOffSwitches
  have hs : L.Stays S (M.gateFollowAll.each (Lane.portSwitches p) Lane.stage1) :=
    h.gateFollowAll.each _ fun b _ N hN => hN.stage1 b
  refine .gateFollowAll (.onGate (.ungrant (h.gateFollowAll.when _ ?_) hS p) fun _ => rfl)
  exact hs.when _ (hs.restart _ rfl)

theorem portTurnOff (h : L.Stays S M) (hS : S.Turns) (p : Port) : L.Stays S (M.portTurnOff p) :=
  ((h.portOffSwitches hS p).restart _ rfl).each _ fun f _ _ hN => hN.withdraw' f

/-! #### Service states and commits -/

theorem sliceAbort (h : L.Stays S M) (hS : S.Acts) : L.Stays S M.sliceAbort := by
  have hc := (h.clr hS Reg.BT_SLICE_STAT_RUNNING (by decide)).count hS Reg.BT_SLICE_STAT_ABORTS 1 (by decide)
  unfold Lane.sliceAbort
  refine .ite ?_ h
  dsimp only
  split
  · exact (hc.onCore _ _).onCore _ _
  · exact hc.onDe _ _
  · exact hc

theorem pdCount (h : L.Stays S M) (hS : S.Acts) (d : Fin 8) (who how : Nat) : L.Stays S (M.pdCount d who how) := by
  fin_cases d <;> exact ((h.count hS _ _ (by decide)).own hS _ _ (by decide)).own hS _ _ (by decide)

theorem pdClear (h : L.Stays S M) (hS : S.Acts) : L.Stays S M.pdClear :=
  h.each _ fun d hd N hN => by
    have hd' := List.mem_range.1 hd
    exact ((hN.clr hS _ (by interval_cases d <;> decide)).clr hS _ (by interval_cases d <;> decide)).clr hS _ (by interval_cases d <;> decide)

theorem pdWake (h : L.Stays S M) (hS : S.Acts) (d : Fin 8) (who : Nat) : L.Stays S (M.pdWake d who) := by
  have hw : L.Stays S (M.wr (Lane.pdFld d) 4) := h.own hS _ _ (by fin_cases d <;> decide)
  unfold Lane.pdWake
  refine .ite (h.onDom _ _) (.ite (.when (hw.onDom _ _) _ ?_) h)
  exact (hw.onDom _ _).pdCount hS _ _ _

theorem chopApply (h : L.Stays S M) (hS : S.Acts) : L.Stays S M.chopApply := h.own hS _ _ (by decide)

theorem setSvc (h : L.Stays S M) (hS : S.Acts) (v : Nat) : L.Stays S (M.setSvc v) := by
  have hmode (N : Lane) (hN : L.Stays S N) (x : Nat) : L.Stays S (N.each (List.range 8) (fun d => Lane.wr (Reg.PD_ACCT_MODE d) x)) :=
    hN.each _ fun d hd N hN => hN.own hS _ _ (by have hd' := List.mem_range.1 hd; interval_cases d <;> decide)
  have hst (b : Bool) : L.Stays S ((M.when b Lane.sliceAbort).wr Reg.SYS_STATE_STATE v) :=
    (h.when _ (h.sliceAbort hS)).own hS _ _ (by decide)
  unfold Lane.setSvc
  refine .chopApply (.when ?_ _ (.each ?_ _ fun d _ N hN => hN.pdWake hS d 19)) hS
  · exact (hst _).when _ (hmode _ ((hst _).pdClear hS) _)
  · exact (hst _).when _ (hmode _ ((hst _).pdClear hS) _)

theorem commitStart (h : L.Stays S M) (hS : S.Acts) (auto : Bool) : L.Stays S (M.commitStart auto) := by
  unfold Lane.commitStart
  exact (((h.wearLines _ _).pdWake hS 5 19).set1 hS _ (by decide)).onRet _

theorem autoCommit (h : L.Stays S M) (hS : S.Acts) : L.Stays S M.autoCommit := .ite h (.ite (h.onRet _) (h.commitStart hS true))

theorem settleSvc (h : L.Stays S M) (hS : S.Acts) : L.Stays S M.settleSvc := .ite (h.setSvc hS 5) (.ite (h.setSvc hS 4) h)

/-! #### Withdrawals and solenoids -/

theorem withdrawServed (h : L.Stays S M) (f : Func) : L.Stays S (M.withdrawServed f) := h.when _ (h.withdraw' f)
theorem withdrawAll (h : L.Stays S M) : L.Stays S M.withdrawAll := h.each _ fun f _ _ hN => hN.withdraw' f
theorem withdrawPorts (h : L.Stays S M) : L.Stays S M.withdrawPorts := h.each _ fun f _ _ hN => hN.withdraw' f

theorem parkWatch (h : L.Stays S M) (hS : S.Acts) : L.Stays S M.parkWatch := by
  have hp := h.when (!M.parkOff) (h.stop .parkApplied rfl)
  unfold Lane.parkWatch
  exact hp.when _ ((hp.clr hS _ (by decide)).stop _ rfl)

theorem svApply (h : L.Stays S M) (n : Fin 4) : L.Stays S (M.svApply n) := h.onSv _ _

theorem svApplyAll (h : L.Stays S M) (hS : S.Acts) : L.Stays S M.svApplyAll := (h.each _ fun n _ _ hN => hN.svApply n).parkWatch hS

theorem svForce (h : L.Stays S M) (hS : S.Acts) (n : Fin 4) : L.Stays S (M.svForce n) :=
  ((((h.onSv _ _).set1 hS _ (by fin_cases n <;> decide)).svApply n)).parkWatch hS

/-! #### Faults -/

theorem notice (h : L.Stays S M) (hS : S.Fires) (p : Fin 4) (op : Nat) (args : List Byte) : L.Stays S (M.notice p op args) :=
  h.posts (fun k hk => hS.own k (ownKey_of_postKey hk)) hS.tells (M.notice_posts p op args)

theorem faultNotice (h : L.Stays S M) (hS : S.Fires) (n : Nat) : L.Stays S (M.faultNotice n) :=
  h.each _ fun _ _ _ hN => hN.when _ (hN.notice hS _ _ _)

theorem ascEnter (h : L.Stays S M) (hS : S.Acts) {fireBlk : Nat → Lane → Lane} (hf : ∀ n < 1024, ∀ N : Lane, L.Stays S N → L.Stays S (fireBlk n N)) (p : Port) :
    L.Stays S (M.ascEnter fireBlk p) := by
  unfold Lane.ascEnter
  refine .ite (h.when _ (hf _ (by omega) _ (h.wrBit hS _ _ _ (by decide)))) (.ite h ?_)
  have hsw : L.Stays S (M.gateFollowAll.each (Lane.portSwitches p) (fun b => if Lane.lowSide b then Lane.holdOff b else Lane.stage1 b)) :=
    h.gateFollowAll.each _ fun b _ N hN => by
      split
      · exact hN.holdOff b
      · exact hN.stage1 b
  refine .gateFollowAll (.onGate ?_ fun _ => rfl)
  exact ((((hsw.ungrant hS.toTurns p).wrBit hS _ _ _ (by decide)).set1 hS _ (by decide)).restart _ rfl).restart _ rfl

theorem winterState (h : L.Stays S M) (hS : S.Acts) : L.Stays S M.winterState :=
  .ite ((((h.setSvc hS 6).own hS _ _ (by decide)).withdrawAll).autoCommit hS) h

theorem forceOutputs (h : L.Stays S M) (hS : S.Acts) {fireBlk : Nat → Lane → Lane} (hf : ∀ n < 1024, ∀ N : Lane, L.Stays S N → L.Stays S (fireBlk n N)) :
    L.Stays S (M.forceOutputs fireBlk) := by
  unfold Lane.forceOutputs
  refine .svApplyAll (.each (.restart (h.each _ fun p _ N hN => ?_) _ rfl) _ fun n _ N hN => hN.svForce hS n) hS
  exact .ite (hN.ascEnter hS hf p) (hN.portOffSwitches hS.toTurns p)

theorem szListen (h : L.Stays S M) (hS : S.Acts) (c : Fin 2) : L.Stays S (M.szListen c) :=
  ((h.own hS _ _ (by fin_cases c <;> decide)).restart _ rfl).onSlaz _ _

theorem slazStop (h : L.Stays S M) (hS : S.Acts) : L.Stays S M.slazStop :=
  h.each _ fun c _ N hN => hN.when _ (.ite (hN.szListen hS c) (hN.own hS _ _ (by fin_cases c <;> decide)))

theorem force (h : L.Stays S M) (hS : S.Acts) {fireBlk : Nat → Lane → Lane} (hf : ∀ n < 1024, ∀ N : Lane, L.Stays S N → L.Stays S (fireBlk n N)) (cause : Nat) :
    L.Stays S (M.force fireBlk cause) := by
  unfold Lane.force
  refine .ite ?_ ((h.winterState hS).when _ ((h.winterState hS).slazStop hS))
  have hg := ((h.own hS Reg.LG_STATUS_GSTATE 3 (by decide)).own hS Reg.LG_STATUS_FCAUSE cause (by decide)).clr hS Reg.LG_CHAL_PEND (by decide)
  exact (((hg.forceOutputs hS hf).withdrawAll).winterState hS).slazStop hS

theorem reactLight (h : L.Stays S M) (hS : S.Fires) (n : Nat) : L.Stays S (M.reactLight n) := by
  have hn := (h.when (nbit (M.reaction n) 0) (h.irq .collector)).when (nbit (M.reaction n) 1)
    ((h.when (nbit (M.reaction n) 0) (h.irq .collector)).faultNotice hS n)
  have hr := hn.each Func.all (f := fun f L => L.when (nbit (M.reaction n) (2 + f.code)) (Lane.withdrawServed f))
    fun f _ N hN => hN.when _ (hN.withdrawServed f)
  have ho := hr.when (nbit (M.reaction n) 7) (f := fun L => L.each (L.ownFuncs n) Lane.withdrawServed)
    (hr.each _ fun f _ N hN => hN.withdrawServed f)
  exact ho.when _ (ho.each _ fun f _ N hN => hN.withdrawServed f)

theorem fireLight (h : L.Stays S M) (hS : S.Fires) {n : Nat} (hn : n < 1024) : L.Stays S (M.fireLight n) :=
  .ite h ((h.setSticky hS.stick hn).reactLight hS n)

theorem reactWinter (h : L.Stays S M) (hS : S.Fires) : L.Stays S M.reactWinter :=
  .ite (h.force hS.toActs (fun _ hn _ hN => hN.fireLight hS hn) 6) h

theorem react (h : L.Stays S M) (hS : S.Fires) (n : Nat) : L.Stays S (M.react n) := (h.reactLight hS n).when _ ((h.reactLight hS n).reactWinter hS)

theorem fire (h : L.Stays S M) (hS : S.Fires) (n : Nat) : L.Stays S (M.fire n) := by
  unfold Lane.fire
  split
  · exact h
  · next hc => exact .ite h ((h.setSticky hS.stick (by have := fixedClass_lt hc; omega)).react hS n)

theorem asc (h : L.Stays S M) (hS : S.Fires) (p : Port) : L.Stays S (M.asc p) := h.ascEnter hS.toActs (fun n _ _ hN => hN.fire hS n) p

theorem ovCaseC (h : L.Stays S M) (hS : S.Fires) : L.Stays S M.ovCaseC := h.when _ (h.each _ fun p _ _ hN => hN.asc hS p)

end Lane.Stays
end
end Sys2Proof.Machine

namespace Sys2Proof.Machine

section
variable {S : Scope} {L M : Lane}

namespace Lane.Stays

/-! #### Seasons (R110 to R115) -/

theorem winterOne (h : L.Stays S M) (hS : S.Acts) (f : Func) (c : Nat) : L.Stays S (M.winterOne f c) := by
  by_cases hm : M.mode f = 2
  · rwa [Lane.winterOne_of_winter hm]
  rw [Lane.winterOne_eq hm]
  have hshown : L.Stays S (M.winterShown f c) := by
    unfold Lane.winterShown
    refine .each (.onRet (.onFn (.stop ?_ _ (by rfl)) f fun _ hx => by exact hx) _) _ fun p _ N hN => hN.wrBit hS _ _ _ (by fin_cases p <;> decide)
    exact (h.own hS _ _ (by cases f <;> decide)).own hS _ _ (by cases f <;> decide)
  have hholds : L.Stays S ((M.winterShown f c).winterHolds f) :=
    hshown.when _ (hshown.each _ fun _ _ _ hN => hN.wrBit hS _ _ _ (by decide))
  have hwaits : L.Stays S (((M.winterShown f c).winterHolds f).winterWaits f) := hholds.when _ (hholds.start1 _ (by rfl))
  exact hwaits.when _ ((hwaits.set1 hS _ (by decide)).restart _ (by rfl))

theorem winterServed (h : L.Stays S M) (hS : S.Acts) (f : Func) (c : Nat) : L.Stays S (M.winterServed f c) := h.when _ (h.winterOne hS f c)

theorem winterSpread (h : L.Stays S M) (hS : S.Acts) (f : Func) : L.Stays S (M.winterSpread f) := by
  have hb := h.when (f == .steer) (h.winterServed hS .brake 11)
  exact (hb.when _ ((hb.winterServed hS .trail 11).winterServed hS .park 11)).settleSvc hS

theorem winter (h : L.Stays S M) (hS : S.Acts) (f : Func) (c : Nat) : L.Stays S (M.winter f c) := .ite ((h.winterOne hS f c).winterSpread hS f) h

theorem enterAutumn (h : L.Stays S M) (hS : S.Acts) (f : Func) (c ms : Nat) : L.Stays S (M.enterAutumn f c ms) := by
  unfold Lane.enterAutumn
  refine .ite ?_ (.ite (.onFn h f fun _ hx => by exact hx) h)
  have hm := ((h.own hS (Reg.ROLE_FUNC_MODE f.code) 1 (by cases f <;> decide)).own hS (Reg.ROLE_FUNC_CAUSE f.code) c (by cases f <;> decide)).setTimer
    (.autumn f) (M.el + ms * 1000000) rfl
  refine .settleSvc (.autoCommit (.start1 (.restart (.onFn hm f fun _ hx => by exact hx) _ (by rfl)) _ (by rfl)) hS) hS

theorem autumn (h : L.Stays S M) (hS : S.Acts) (f : Func) (c : Nat) : L.Stays S (M.autumn f c) := h.enterAutumn hS f c _

theorem clearCause (h : L.Stays S M) (hS : S.Acts) (f : Func) (c : Nat) : L.Stays S (M.clearCause f c) := by
  unfold Lane.clearCause
  refine .ite (.ite (.settleSvc (.stop ?_ (.autumn f) rfl) hS) (h.onFn f fun _ hx => by exact hx)) h
  exact ((h.onFn f fun _ hx => by exact hx).own hS _ _ (by cases f <;> decide)).own hS _ _ (by cases f <;> decide)

/-! #### Removal and the vote (R93 to R97, R108) -/

theorem reshare (h : L.Stays S M) (f : Func) (t : Nat) : L.Stays S (M.reshare f t) := h.each _ fun n _ _ hN => hN.onDe n _

theorem becomeActive (h : L.Stays S M) (hS : S.Acts) (f : Func) : L.Stays S (M.becomeActive f) := .sliceAbort (h.onFn f fun _ hx => by exact hx) hS

theorem loseActive (h : L.Stays S M) (f : Func) : L.Stays S (M.loseActive f) := h.onFn f fun _ hx => by exact hx

end Lane.Stays

/-- The fields of one function that a removal or a swap writes, and the requests to swap that a commit ends (R94, R97, R108). -/
abbrev RoleKey (f : Func) (k : Nat) : Prop := k / 64 = 0x20010000 + 4 * f.code ∨ k = Reg.ROLE_ACCUSE_ROTATE.key

/-- A scope of operations that may change the roles of one function. -/
structure Scope.Roles (S : Scope) (f : Func) : Prop extends S.Acts where
  role : ∀ k, RoleKey f k → S.keys k

/-- A scope of operations that may remove a lane from one function. -/
structure Scope.Votes (S : Scope) (f : Func) : Prop extends S.Roles f where
  drop : S.drops f

theorem not_bitKey_of_roleKey {f : Func} {k : Nat} (h : RoleKey f k) : ¬BitKey k := by
  simp only [RoleKey, BitKey, StickyKey, Fld.key, Reg.ROLE_ACCUSE_ROTATE, Reg.GD_STAT_EN, Reg.LG_PORT_GRANT] at *
  have := f.code_lt
  omega

namespace Lane.Stays

variable {f : Func}

theorem wrRole (h : L.Stays S M) (hS : S.Roles f) (g : Fld) (v : Nat) (hg : RoleKey f g.key) : L.Stays S (M.wr g v) :=
  h.wr g v (hS.role _ hg) (not_bitKey_of_roleKey hg)

/-- The accusations of one function are taken back. -/
theorem dropped (h : L.Stays S M) (hS : S.Votes f) (g : List (Side × Nat) → List (Side × Nat)) :
    L.Stays S (M.onVote (fun v => { v with hardware := vupd v.hardware f.ix g })) :=
  { h with
    hardware := fun e he => by
      refine (vget_vupd M.vote.hardware f.ix e.ix g).trans ?_
      rw [if_neg fun hix => he ((Func.ix_inj hix : f = e) ▸ hS.drop)]
      exact h.hardware e he }

theorem setOwnRole (h : L.Stays S M) (hS : S.Roles f) : L.Stays S (M.setOwnRole f) := h.wrRole hS _ _ (.inl (by cases f <;> rfl))

theorem rotateHistory (h : L.Stays S M) (hS : S.Roles f) : L.Stays S (M.rotateHistory f) := by
  unfold Lane.rotateHistory
  exact ((h.onRet _).wrRole hS _ _ (.inl (by cases f <;> rfl))).autoCommit hS.toActs

theorem reform (h : L.Stays S M) (hS : S.Roles f) (c : Nat) : L.Stays S (M.reform f c) := by
  have hk : RoleKey f (Reg.ROLE_FUNC_ACT f.code).key ∧ RoleKey f (Reg.ROLE_FUNC_STB f.code).key ∧ RoleKey f (Reg.ROLE_FUNC_ARB f.code).key := by
    cases f <;> decide
  obtain ⟨hact, hstb, harb⟩ := hk
  unfold Lane.reform
  refine .ite ?_ (.ite ?_ (.ite ?_ h))
  · exact ((h.wrRole hS _ _ hact).wrRole hS _ _ hstb).wrRole hS _ _ harb
  · exact (h.wrRole hS _ _ hstb).wrRole hS _ _ harb
  · exact h.wrRole hS _ _ harb

theorem leave (h : L.Stays S M) (hS : S.Votes f) (x : LaneId) : L.Stays S (M.leave f x) := by
  unfold Lane.leave
  have hr := (((h.wrRole hS.toRoles (Reg.ROLE_FUNC_SERVING f.code)
    (let v := M.rd (Reg.ROLE_FUNC_SERVING f.code); (if false then v ||| 2 ^ x.code else v - (if nbit v x.code then 2 ^ x.code else 0)))
    (by cases f <;> decide)).onFn f (g := fun r =>
    { r with joinSeen := vupd r.joinSeen (Fin.ofNat 3 x.code) (fun _ => false),
             gone := vupd r.gone (Fin.ofNat 3 x.code) (fun _ => decide (x ≠ M.id)) }) fun _ hx => by exact hx).dropped hS
      (fun h => h.filter (fun e => decide (M.id.nb e.1 ≠ x)))).reform hS.toRoles x.code
  exact .ite ((hr.onFn f fun _ hx => by exact hx).stop _ (by rfl)) hr

/-- What follows once the lane shows that it is out of a function (R94). -/
theorem outEnds (h : L.Stays S ((M.onFn f (fun x => { x with served := false })).wr (Reg.ROLE_FUNC_ROLE f.code) 4)) (hS : S.Acts) :
    L.Stays S (M.outOf f) := by
  unfold Lane.outOf
  refine .settleSvc (.each (.each (.each (h.when _ (h.loseActive f)) _ fun p _ N hN => hN.portTurnOff hS.toTurns p) _
    fun n _ N hN => hN.svForce hS n) _ fun n _ N hN => ?_) hS
  exact (hN.onDe n _).stop _ rfl

theorem outOf (h : L.Stays S M) (hS : S.Votes f) : L.Stays S (M.outOf f) :=
  .outEnds ((h.onFn f fun _ _ => rfl).wrRole hS.toRoles _ _ (.inl (by cases f <;> rfl))) hS.toActs

/-- The lanes of a list leave a function, in order (R94). -/
theorem leaves (h : L.Stays S M) (hS : S.Votes f) (xs : List LaneId) : L.Stays S (M.each xs (Lane.leave f)) :=
  h.each _ fun x _ _ hN => hN.leave hS x

theorem remove (h : L.Stays S M) (hS : S.Votes f) (xs : List LaneId) : L.Stays S (M.remove f xs) := by
  unfold Lane.remove
  split
  · exact h
  have hl := h.leaves hS (xs.filter (fun x => decide (x.code ≠ M.rd (Reg.ROLE_FUNC_ACT f.code))) ++
    xs.filter (fun x => decide (x.code = M.rd (Reg.ROLE_FUNC_ACT f.code))))
  dsimp only
  refine .ite (hl.outOf hS) (.ite hl ?_)
  have hrole (b : Bool) := hl.when b (hl.setOwnRole hS.toRoles)
  have hact (b c : Bool) := (hrole b).when c ((hrole b).becomeActive hS.toActs f)
  have hshare (b c d : Bool) := ((hact b c).when d ((hact b c).rotateHistory hS.toRoles)).reshare f 5000
  exact .ite ((hshare _ _ _).winter hS.toActs f _) ((hshare _ _ _).autumn hS.toActs f _)

theorem rotateCommit (h : L.Stays S M) (hk : S.keys Reg.ROLE_ACCUSE_ROTATE.key) (f : Func) : L.Stays S (M.rotateCommit f) := by
  unfold Lane.rotateCommit
  exact .ite ((h.onFn f fun _ hx => by exact hx).wr _ _ hk (by decide)) h

theorem watchMinority (h : L.Stays S M) (f : Func) : L.Stays S (M.watchMinority f) := by
  unfold Lane.watchMinority
  split
  · exact .ite (h.start1 _ rfl) ((h.onFn f fun _ hx => by exact hx).restart _ rfl)
  · exact (h.onFn f fun _ hx => by exact hx).stop _ rfl

/-- What follows in the vote for one function once its removals are made (R96, R97, R108). -/
theorem evalEnds (h : L.Stays S (M.remove f (M.decided f))) (hk : S.keys Reg.ROLE_ACCUSE_ROTATE.key) : L.Stays S (M.evalFn f) :=
  have hw := (h.rotateCommit hk f).watchMinority f
  .ite (hw.start1 _ rfl) (hw.stop _ rfl)

theorem evalFn (h : L.Stays S M) (hS : S.Votes f) : L.Stays S (M.evalFn f) :=
  (h.remove hS (M.decided f)).evalEnds (hS.role _ (.inr rfl))

theorem evaluate (h : L.Stays S M) (hS : ∀ f, S.Votes f) : L.Stays S M.evaluate := h.each _ fun f _ _ hN => hN.evalFn (hS f)

end Lane.Stays
end
end Sys2Proof.Machine

namespace Sys2Proof.Machine
theorem crc8Go_lt (v n c : Nat) (hc : c < 256) : crc8Go v n c < 256 := by
  induction n generalizing c with
  | zero => exact hc
  | succ n ih =>
    refine ih _ ?_
    split
    · exact Nat.xor_lt_two_pow (n := 8) (Nat.mod_lt _ (by decide)) (by decide)
    · exact Nat.mod_lt _ (by decide)

theorem accuseCode_lt (x : Side) : accuseCode x < 4 := by cases x <;> decide

theorem Lane.codeToSend_lt (L : Lane) (f : Func) : L.codeToSend f < 4 := by
  unfold Lane.codeToSend
  dsimp only
  split
  · decide
  · split
    · exact accuseCode_lt _
    · exact accuseCode_lt _
    · exact Nat.mod_lt _ (by decide)

/-- A field of each function, side by side above a base: what they make, written out. -/
theorem foldl_func (c : Func → Nat) (lo w : Nat) : Func.all.foldl (fun v g => v + c g * 2 ^ (lo + w * g.code)) 0 =
    c .steer * 2 ^ lo + c .feel * 2 ^ (lo + w) + c .brake * 2 ^ (lo + w * 2) + c .trail * 2 ^ (lo + w * 3) + c .park * 2 ^ (lo + w * 4) := by
  simp [Func.all, Func.code, Func.ix]

/-- Two bits for each function from bit 18 on, over a lower part: the bits of one function. -/
theorem nbits_codes {c : Func → Nat} (hc : ∀ g, c g < 4) {low : Nat} (hlow : low < 2 ^ 18) (f : Func) :
    nbits (0xB * 2 ^ 28 + Func.all.foldl (fun v g => v + c g * 2 ^ (18 + 2 * g.code)) 0 + low) (18 + 2 * f.code) 2 = c f := by
  have h0 := hc .steer
  have h1 := hc .feel
  have h2 := hc .brake
  have h3 := hc .trail
  have h4 := hc .park
  have hd (k : Nat) (e : 18 + 2 * f.code = k) (v : Nat) : nbits v (18 + 2 * f.code) 2 = v / 2 ^ k % 4 := by rw [e]; rfl
  have e := foldl_func c 18 2
  simp only [Nat.reduceMul, Nat.reduceAdd] at e
  rw [e]
  cases f
  · rw [hd 18 rfl]; omega
  · rw [hd 20 rfl]; omega
  · rw [hd 22 rfl]; omega
  · rw [hd 24 rfl]; omega
  · rw [hd 26 rfl]; omega

/-- The requests to swap fill five bits from bit 13 on (R90). -/
theorem rotates_lt {r : Func → Nat} (hr : ∀ g, r g ≤ 1) : Func.all.foldl (fun v g => v + r g * 2 ^ (13 + g.code)) 0 ≤ 31 * 2 ^ 13 := by
  have h0 := hr .steer
  have h1 := hr .feel
  have h2 := hr .brake
  have h3 := hr .trail
  have h4 := hr .park
  have e := foldl_func r 13 1
  simp only [Nat.one_mul, Nat.reduceAdd] at e
  rw [e]
  omega

/-- The code of a function stands in its two bits of the vote frame (R90). -/
theorem Lane.nbits_voteFrame (L : Lane) (f : Func) : nbits L.voteFrame (18 + 2 * f.code) 2 = L.codeToSend f := by
  have hrot := rotates_lt (r := fun g => b2n (L.bitOf Reg.ROLE_ACCUSE_ROTATE g.code)) fun g => by unfold b2n; split <;> decide
  have hid : L.id.code < 4 := by cases L.id <;> decide
  unfold Lane.voteFrame
  dsimp only at *
  generalize hv : voteCrc _ = crc
  have hcrc : crc < 256 := hv ▸ crc8Go_lt _ _ _ (by decide)
  rw [Nat.add_assoc, Nat.add_assoc, Nat.add_assoc]
  exact nbits_codes L.codeToSend_lt (by omega) f

end Sys2Proof.Machine

namespace Sys2Proof.Machine

/-! #### The accusation that the vote frame carries (R92, R96) -/

theorem Lane.sideCode_inj {L : Lane} {x y : Side} (h : L.sideCode x = L.sideCode y) : x = y := by
  revert h
  unfold Lane.sideCode
  cases L.id <;> cases x <;> cases y <;> decide

/-- No later accusation displaces one that was raised before it, or with it against the next lane (R92). -/
theorem firstRaised_eq {x : Side} {t : Nat} {xs : List (Side × Nat)} (h : ∀ y ∈ xs, t < y.2 ∨ (t = y.2 ∧ x = .next)) : firstRaised (x, t) xs = x := by
  suffices e : xs.foldl (fun b y => if y.2 < b.2 ∨ (y.2 = b.2 ∧ y.1 = .next) then y else b) (x, t) = (x, t) from congrArg Prod.fst e
  induction xs with
  | nil => rfl
  | cons y ys ih =>
    obtain ⟨hy, hys⟩ := List.forall_mem_cons.1 h
    rw [List.foldl_cons]
    split
    · next hlt =>
      have e : y = (x, t) := by
        obtain ⟨s, u⟩ := y
        simp only at hy hlt
        rcases hlt with hlt | ⟨rfl, rfl⟩
        · omega
        · rcases hy with hy | ⟨-, rfl⟩
          · omega
          · rfl
      rw [e]
      exact ih hys
    · exact ih hys

/-- Nothing makes the lane withdraw from a function: no withdrawal stands, software wrote none, and the guard is not FORCED (R95). -/
structure Lane.Remains (f : Func) (L : Lane) : Prop where
  withdraw : vget L.vote.withdraw f.ix = false
  soft : nbits (L.rd Reg.ROLE_ACCUSE_CODE) (2 * f.code) 2 ≠ 3
  gstate : L.gstate ≠ 3

section
variable {L : Lane} {f : Func}

/-- The condition under which the frame carries a withdrawal does not hold. -/
theorem Lane.Remains.not_withdrawn (h : L.Remains f) :
    ¬(vget L.vote.withdraw f.ix || decide (nbits (L.rd Reg.ROLE_ACCUSE_CODE) (2 * f.code) 2 = 3) || decide (L.gstate = 3)) = true := by
  simp [h.withdraw, h.soft, h.gstate]

/-- Without a hardware accusation the frame carries the code of ROLE_ACCUSE. -/
theorem Lane.Remains.code_soft (h : L.Remains f) (hw : vget L.vote.hardware f.ix = []) :
    L.codeToSend f = nbits (L.rd Reg.ROLE_ACCUSE_CODE) (2 * f.code) 2 := by
  unfold Lane.codeToSend
  dsimp only
  rw [if_neg h.not_withdrawn, hw]
  rfl

/-- An accusation against the active lane goes first. -/
theorem Lane.Remains.code_active (h : L.Remains f) {x : Side} {t : Nat} (hx : (x, t) ∈ vget L.vote.hardware f.ix)
    (hact : L.sideCode x = L.rd (Reg.ROLE_FUNC_ACT f.code)) : L.codeToSend f = accuseCode x := by
  unfold Lane.codeToSend
  dsimp only
  rw [if_neg h.not_withdrawn]
  cases hfind : (vget L.vote.hardware f.ix).find? (fun e => decide (L.sideCode e.1 = L.rd (Reg.ROLE_FUNC_ACT f.code))) with
  | none => exact absurd hact (by simpa using List.find?_eq_none.1 hfind _ hx)
  | some e =>
    have he : L.sideCode e.1 = L.rd (Reg.ROLE_FUNC_ACT f.code) := by simpa using List.find?_some hfind
    exact congrArg accuseCode (Lane.sideCode_inj (he.trans hact.symm))

/-- Of accusations none of which is against the active lane, the one raised first goes first. -/
theorem Lane.Remains.code_first (h : L.Remains f) {e : Side × Nat} {es : List (Side × Nat)} (hw : vget L.vote.hardware f.ix = e :: es)
    (hact : ∀ y ∈ e :: es, L.sideCode y.1 ≠ L.rd (Reg.ROLE_FUNC_ACT f.code)) : L.codeToSend f = accuseCode (firstRaised e es) := by
  unfold Lane.codeToSend
  dsimp only
  rw [if_neg h.not_withdrawn, hw, List.find?_eq_none.2 fun y hy => by simpa using hact y hy]

end

/-! #### The vote of one lane (R90 to R97) -/

/-- Faults, seasons and turn-offs, with the removals of the lanes of some functions; `fires` says whether sources fire. -/
def Scope.acts (fires : Prop) (R : Func → Prop) : Scope where
  keys k := OwnKey k ∨ TurnKey k ∨ (StickyKey k ∧ fires) ∨ k = Reg.ROLE_ACCUSE_ROTATE.key ∨ ∃ f, R f ∧ RoleKey f k
  grants _ := False
  drops := R
  posts := fires

theorem Scope.acts_acts (fires : Prop) (R : Func → Prop) : (Scope.acts fires R).Acts where
  turn _ h := .inr (.inl h)
  own _ h := .inl h

theorem Scope.acts_roles (fires : Prop) {R : Func → Prop} {f : Func} (h : R f) : (Scope.acts fires R).Roles f where
  toActs := Scope.acts_acts fires R
  role _ hk := .inr (.inr (.inr (.inr ⟨f, h, hk⟩)))

theorem Scope.acts_votes (fires : Prop) {R : Func → Prop} {f : Func} (h : R f) : (Scope.acts fires R).Votes f where
  toRoles := Scope.acts_roles fires h
  drop := h

theorem Scope.acts_fires (R : Func → Prop) : (Scope.acts True R).Fires where
  toActs := Scope.acts_acts True R
  stick _ h := .inr (.inr (.inl ⟨h, trivial⟩))
  tells := trivial

/-- The vote fires no source and takes accusations back. -/
abbrev Scope.vote : Scope := .acts False fun _ => True

theorem Lane.evaluate_stays (L : Lane) : L.Stays .vote L.evaluate := (Lane.Stays.refl _ L).evaluate fun _ => Scope.acts_votes _ trivial

/-- The lane after its guard has sent its vote frame, before the vote (R90, R93). -/
def Lane.voteSent (L : Lane) : Lane :=
  (L.send (.vote (BitVec.ofNat 32 L.voteFrame))).onVote (fun x =>
    { x with
      count := (x.count + 1) % 8
      ownCodes := Vector.ofFn (fun (i : Fin 5) => (vget x.ownCodes i).next (nbits L.voteFrame (18 + 2 * i.val) 2))
      ownRotate := Vector.ofFn (fun (i : Fin 5) => (vget x.ownRotate i).next (nbits L.voteFrame (13 + i.val) 1)) })

theorem Lane.voteSent_out (L : Lane) : L.voteSent.out = L.out ++ [.vote (BitVec.ofNat 32 L.voteFrame)] := rfl

/-- With its RC reference running the guard sends and votes (R90, R93). -/
theorem voteFrameTx_does {l : LaneId} {pre : Lane → Prop} {post : Lane → Lane → Prop}
    (hrun : ∀ L, pre L → L.guardSt.powered = true ∧ L.guardSt.rcLost = false)
    (hp : ∀ L, pre L → post L L.voteSent.evaluate) : Does (.voteFrameTx l) pre post :=
  does_of (fun L => L.when (L.guardSt.powered && !L.guardSt.rcLost) Lane.voteSend) (fun _ => rfl) fun L h => by
    obtain ⟨hpow, hrc⟩ := hrun L h
    rw [Lane.when_of_true _ _ (by rw [hpow, hrc]; rfl)]
    exact hp L h

/-- The frame that the guard sends carries the code of a function, whatever the vote then decides. -/
theorem voteFrameTx_carries {l : LaneId} {f : Func} {pre : Lane → Prop} {code : Lane → Nat}
    (hrun : ∀ L, pre L → L.guardSt.powered = true ∧ L.guardSt.rcLost = false) (hc : ∀ L, pre L → L.codeToSend f = code L) : Does (.voteFrameTx l) pre
    (fun L M => .vote (BitVec.ofNat 32 L.voteFrame) ∈ M.out ∧ nbits L.voteFrame (18 + 2 * f.code) 2 = code L) :=
  voteFrameTx_does hrun fun L h => ⟨by rw [L.voteSent.evaluate_stays.out id, Lane.voteSent_out]; simp, (L.nbits_voteFrame f).trans (hc L h)⟩

/-- What a firing source leaves of the code that the guard sends: it changes where the reaction withdraws the lane (R96). -/
theorem Lane.Reacts.codeToSend {L M : Lane} (h : L.Reacts M) (f : Func) : M.codeToSend f = L.codeToSend f ∨ M.codeToSend f = 3 := by
  have hrd {g : Fld} (hg : ¬ReactKey g.key) (hm : ¬ModeKey g.key) : M.rd g = L.rd g := h.regs _ hg hm
  have hsoft : M.rd Reg.ROLE_ACCUSE_CODE = L.rd Reg.ROLE_ACCUSE_CODE := hrd (by unfold ReactKey; decide) (by unfold ModeKey; decide)
  have hact : M.rd (Reg.ROLE_FUNC_ACT f.code) = L.rd (Reg.ROLE_FUNC_ACT f.code) := by
    cases f <;> exact hrd (by unfold ReactKey; decide) (by unfold ModeKey; decide)
  have hside : M.sideCode = L.sideCode := by funext x; rw [Lane.sideCode, Lane.sideCode, h.id]
  by_cases hw : vget M.vote.withdraw f.ix = true
  · exact .inr (by unfold Lane.codeToSend; rw [hw]; rfl)
  by_cases hg : M.gstate = 3
  · exact .inr (by unfold Lane.codeToSend; simp [hg])
  have hwithdraw : vget M.vote.withdraw f.ix = vget L.vote.withdraw f.ix := by
    rw [Bool.eq_false_iff.2 hw, Bool.eq_false_iff.2 fun e => hw (h.withdraw _ e)]
  have hgstate : M.gstate = L.gstate := h.gstate.resolve_right hg
  left
  unfold Lane.codeToSend
  rw [hsoft, hact, hside, hwithdraw, hgstate, h.hardware]

end Sys2Proof.Machine

namespace Sys2Proof.Machine

/-- Settles O60: source 320 fires and its reaction leaves the roles; the frame carries what R92 says. -/
theorem minorityAccusation : Obligations.minority_accusation := by
  refine ⟨fun l dt f g => minorityAccusationTimeout_does (fun _ h => h) fun L _ => ?_,
    fun l f => voteFrameTx_carries (fun _ h => ⟨h.1, h.2.1⟩) fun L h => ?_,
    fun l f x t xs => voteFrameTx_carries (fun _ h => ⟨h.1, h.2.1⟩) fun L h => ?_,
    fun l f x t xs => voteFrameTx_carries (fun _ h => ⟨h.1, h.2.1⟩) fun L h => ?_,
    fun l f x t xs => voteFrameTx_carries (fun _ h => ⟨h.1, h.2.1⟩) fun L h => ?_⟩
  · have hr : (L.pass dt).Reacts ((L.pass dt).fire 320) := Lane.fire_reacts 320 (.refl _)
    have hmode {k : Nat} (hk : 0x20010000 ≤ k / 64 ∧ k / 64 < 0x20010080) : ¬ModeKey k := by
      simp only [ModeKey, Fld.key, Reg.SYS_STATE_STATE, Reg.LG_STATUS_GSTATE]
      omega
    have hrd {g : Fld} (hk : 0x20010000 ≤ g.key / 64 ∧ g.key / 64 < 0x20010080) : ((L.pass dt).fire 320).rd g = L.rd g :=
      hr.regs _ (by unfold ReactKey; omega) (hmode hk)
    exact ⟨Lane.fire_sticky _ 320 (by decide), hrd (by cases g <;> decide), hrd (by cases g <;> decide), hrd (by cases g <;> decide),
      hrd (by cases g <;> decide), by rw [Lane.servingSet, Lane.servingSet, hrd (by cases g <;> decide)], hrd (by decide), hr.hardware, hr.codeToSend g⟩
  · obtain ⟨-, -, hwithdraw, hforced, hnone, hsoft⟩ := h
    exact Lane.Remains.code_soft ⟨hwithdraw, hsoft, hforced⟩ hnone
  · obtain ⟨-, -, hwithdraw, hforced, hsoft, hhw, hlater⟩ := h
    have hr : L.Remains f := ⟨hwithdraw, hsoft, hforced⟩
    have hcode : L.codeToSend f = accuseCode x := by
      by_cases hact : L.sideCode x = L.rd (Reg.ROLE_FUNC_ACT f.code)
      · exact hr.code_active (by rw [hhw]; exact .head _) hact
      · rw [hr.code_first hhw (List.forall_mem_cons.2 ⟨hact, fun y hy => (hlater y hy).2⟩), firstRaised_eq fun y hy => (hlater y hy).1]
    exact hcode.trans (by cases x <;> rfl)
  · obtain ⟨-, -, hwithdraw, hforced, hsoft, hhw, rfl, rfl, hact⟩ := h
    have hr : L.Remains f := ⟨hwithdraw, hsoft, hforced⟩
    by_cases hnext : L.sideCode .next = L.rd (Reg.ROLE_FUNC_ACT f.code)
    · exact hr.code_active (by rw [hhw]; exact .tail _ (.head _)) hnext
    · rw [hr.code_first hhw (by simp [hact, hnext])]
      simp [firstRaised, accuseCode]
  · obtain ⟨-, -, hwithdraw, hforced, hsoft, hmem, hact⟩ := h
    exact (Lane.Remains.code_active ⟨hwithdraw, hsoft, hforced⟩ hmem hact).trans (by cases x <;> rfl)

end Sys2Proof.Machine

namespace Sys2Proof.Machine

/-! ### A lane that the vote removes from a function (R93, R94) -/

/-- The lane is out of a function: it does not serve it, and says so (R94, R117). -/
structure Lane.Out (f : Func) (L : Lane) : Prop where
  serves : L.serves f = false
  role : L.role f = 4

section
variable {L M : Lane} {f : Func}

theorem Lane.Stays.outOfFn {S : Scope} (h : L.Stays S M) (hk : ¬S.keys (Reg.ROLE_FUNC_ROLE f.code).key) (ho : L.Out f) : M.Out f :=
  ⟨h.serves f ho.serves, (h.rd hk).trans ho.role⟩

/-- What the vote for other functions writes of ROLE_FUNC_f is its mode and its cause. -/
theorem not_acts_func {R : Func → Prop} (hR : ¬R f) {k : Nat} (hk : k / 64 = 0x20010000 + 4 * f.code) (hlo : k % 64 ≠ 4 ∧ k % 64 ≠ 16) :
    ¬(Scope.acts False R).keys k := by
  have hf := f.code_lt
  rintro (⟨hown, -⟩ | hturn | ⟨-, hfalse⟩ | hrotate | ⟨g, hg, hrole⟩)
  · exact hown (.inl (by omega))
  · simp only [TurnKey, Fld.key, Reg.GD_STAT_EN, Reg.LG_PORT_GRANT, Reg.GD_STAT_BSTARM] at hturn
    omega
  · exact hfalse
  · simp only [Fld.key, Reg.ROLE_ACCUSE_ROTATE] at hrotate
    omega
  · have hne : f.code ≠ g.code := fun e => hR ((Func.ix_inj (Fin.ext e) : f = g) ▸ hg)
    simp only [RoleKey, Fld.key, Reg.ROLE_ACCUSE_ROTATE] at hrole
    omega

theorem not_acts_role {R : Func → Prop} (hR : ¬R f) : ¬(Scope.acts False R).keys (Reg.ROLE_FUNC_ROLE f.code).key :=
  not_acts_func hR (by cases f <;> rfl) (by cases f <;> decide)

theorem not_acts_serving {R : Func → Prop} (hR : ¬R f) : ¬(Scope.acts False R).keys (Reg.ROLE_FUNC_SERVING f.code).key :=
  not_acts_func hR (by cases f <;> rfl) (by cases f <;> decide)

theorem Lane.outOf_out (L : Lane) (f : Func) : (L.outOf f).Out f := by
  have h := (Lane.Stays.refl (.acts False fun _ => False) ((L.onFn f (fun x => { x with served := false })).wr (Reg.ROLE_FUNC_ROLE f.code) 4)).outEnds
    (Scope.acts_acts _ _)
  refine h.outOfFn (not_acts_role not_false) ⟨?_, Lane.rd_wr_same _ _ _⟩
  exact (congrArg RoleFn.served (vget_vupd L.roles.fn f.ix f.ix _)).trans (by rw [if_pos rfl])

theorem Lane.remove_out {xs : List LaneId} (h : L.id ∈ xs) : (L.remove f xs).Out f := by
  have hid (ys : List LaneId) : (L.each ys (Lane.leave f)).id = L.id :=
    ((Lane.Stays.refl .vote L).leaves (Scope.acts_votes _ trivial) ys).id
  unfold Lane.remove
  rw [if_neg (List.ne_nil_of_mem h)]
  dsimp only
  rw [hid, if_pos (List.contains_iff_mem.2 h)]
  exact Lane.outOf_out _ f

/-- Where the vote decides on the lane itself, it is out of the function. -/
theorem Lane.evalFn_out (h : L.id ∈ L.decided f) : (L.evalFn f).Out f :=
  ((Lane.Stays.refl (.acts False fun _ => False) _).evalEnds (.inr (.inr (.inr (.inl rfl))))).outOfFn (not_acts_role not_false) (Lane.remove_out h)

/-- The vote for other functions leaves what is decided on this one. -/
theorem Lane.Stays.decided {S : Scope} (h : L.Stays S M) (hk : ¬S.keys (Reg.ROLE_FUNC_SERVING f.code).key) : M.decided f = L.decided f := by
  have hset : M.servingSet f = L.servingSet f := by rw [Lane.servingSet, Lane.servingSet, h.rd hk]
  have hcode (l : LaneId) : M.codeIn l f = L.codeIn l f := by rw [Lane.codeIn, Lane.codeIn, h.id, h.ownCodes, h.inp]
  have hlost (l : LaneId) : M.inputLost l = L.inputLost l := by rw [Lane.inputLost, Lane.inputLost, h.id, h.inp]
  simp only [Lane.decided, hset, hcode, hlost, h.id]

theorem Lane.each_evalFn_stays (L : Lane) {fs : List Func} (hf : f ∉ fs) : L.Stays (.acts False (· ≠ f)) (L.each fs Lane.evalFn) :=
  (Lane.Stays.refl _ L).each fs fun _ hg _ hN => hN.evalFn (Scope.acts_votes _ fun e => hf (e ▸ hg))

/-- Operations on a list of different elements, seen from one of them. -/
theorem Lane.each_split {α : Type} {xs : List α} {x : α} (hx : x ∈ xs) (hn : xs.Nodup) (f : α → Lane → Lane) (L : Lane) :
    ∃ before after, x ∉ before ∧ x ∉ after ∧ L.each xs f = (f x (L.each before f)).each after f := by
  obtain ⟨before, after, rfl⟩ := List.append_of_mem hx
  exact ⟨before, after, fun hm => (List.disjoint_of_nodup_append hn) hm (.head _), (List.nodup_cons.1 hn.of_append_right).1, List.foldl_append ..⟩

/-- A lane that the vote decides on is out of the function when every function has been voted on. -/
theorem Lane.evaluate_out (hf : f ∈ L.functions) (h : L.id ∈ L.decided f) : L.evaluate.Out f := by
  obtain ⟨before, after, hbefore, hafter, hsplit⟩ := L.each_split hf ((show Func.all.Nodup by decide).filter _) Lane.evalFn
  have hstays := L.each_evalFn_stays hbefore
  have hvoted : ((L.each before Lane.evalFn).evalFn f).Out f := Lane.evalFn_out (by rwa [hstays.decided (not_acts_serving (by simp)), hstays.id])
  rw [Lane.evaluate, hsplit]
  exact (Lane.each_evalFn_stays _ hafter).outOfFn (not_acts_role (by simp)) hvoted

end
end Sys2Proof.Machine

namespace Sys2Proof.Machine

/-! ### The vote lines (R90, R91, R93) -/

theorem vget_ofFn {α : Type} {n : Nat} (g : Fin n → α) (i : Fin n) : vget (Vector.ofFn g) i = g i := by simp [vget]

section
variable {L : Lane} {f : Func} {sd : Side}

/-- A lane that counts its own code 3 is decided on (R93). -/
theorem Lane.decided_own (hs : (L.servingSet f).contains L.id = true) (hc : (vget L.vote.ownCodes f.ix).value = 3) : L.id ∈ L.decided f := by
  have hcode : L.codeIn L.id f = 3 := by rw [Lane.codeIn, if_pos rfl, hc]
  exact List.mem_filter.2 ⟨List.contains_iff_mem.1 hs, by simp [hcode]⟩

/-- A lane that both others accuse is decided on (R93). -/
theorem Lane.decided_accused (hs : L.servingSet f = [.a, .b, .c]) (ha : ∀ y, y ≠ L.id → accused y (L.codeIn y f) = some L.id) : L.id ∈ L.decided f := by
  refine List.mem_filter.2 ⟨by rw [hs]; cases L.id <;> decide, ?_⟩
  have htwo : ((L.servingSet f).filter (fun y => decide (y ≠ L.id))).length = 2 := by rw [hs]; cases L.id <;> rfl
  have hall : ((L.servingSet f).filter (fun y => decide (y ≠ L.id))).all (fun y => decide (accused y (L.codeIn y f) = some L.id)) = true := by
    simp only [List.all_filter, List.all_eq_true]
    intro y _
    by_cases hy : y = L.id
    · simp [hy]
    · simp [ha y hy]
  simp only [htwo, hall]
  simp

/-- A field of ROLE_VOTE_IN is not written by faults, seasons or the vote (R119). -/
theorem not_acts_voteIn {fires : Prop} {R : Func → Prop} {k : Nat} (hk : 0x20010050 ≤ k / 64 ∧ k / 64 < 0x20010060) : ¬(Scope.acts fires R).keys k := by
  rintro (⟨hown, -⟩ | hturn | ⟨hstick, -⟩ | hrotate | ⟨g, -, hrole⟩)
  · exact hown (.inl (by omega))
  · simp only [TurnKey, Fld.key, Reg.GD_STAT_EN, Reg.LG_PORT_GRANT, Reg.GD_STAT_BSTARM] at hturn
    omega
  · simp only [StickyKey] at hstick
    omega
  · simp only [Fld.key, Reg.ROLE_ACCUSE_ROTATE] at hrotate
    omega
  · have hg := g.code_lt
    simp only [RoleKey, Fld.key, Reg.ROLE_ACCUSE_ROTATE] at hrole
    omega

/-- The field that a frame which is not valid sets (R119). -/
def Lane.voteFld (sd : Side) (split : Bool) (L : Lane) : Fld :=
  if split then Reg.ROLE_VOTE_IN_SPLIT (L.sideCode sd) else Reg.ROLE_VOTE_IN_CRC (L.sideCode sd)

theorem Lane.voteFld_key (sd : Side) (split : Bool) (L : Lane) : 0x20010050 ≤ (L.voteFld sd split).key / 64 ∧ (L.voteFld sd split).key / 64 < 0x20010060 := by
  have hc : L.sideCode sd < 4 := LaneId.code_lt _
  unfold Lane.voteFld
  split
  · simp only [Fld.key, Reg.ROLE_VOTE_IN_SPLIT]; omega
  · simp only [Fld.key, Reg.ROLE_VOTE_IN_CRC]; omega

theorem Lane.voteFld_width (sd : Side) (split : Bool) (L : Lane) : 0 < (L.voteFld sd split).w := by
  cases split <;> exact Nat.one_pos

/-- A vote input whose frame is not valid: its field and its source show it, and its runs have ended (R91, R119). -/
structure Lane.VoteFailed (sd : Side) (split : Bool) (L M : Lane) : Prop where
  sticky : M.sticky (321 + sd.ix.val) = true
  shown : M.is (L.voteFld sd split) = true
  timerAt : M.timerAt (.voteIn sd) = L.timerAt (.voteIn sd)
  inp : vget M.vote.inp sd.ix =
    { vget L.vote.inp sd.ix with codes := (vget L.vote.inp sd.ix).codes.map Counted.broken, rotate := (vget L.vote.inp sd.ix).rotate.map Counted.broken }

theorem Lane.voteBroken_evaluate (sd : Side) (split : Bool) (L : Lane) :
    L.VoteFailed sd split (((L.voteFlag sd split).voteBroken sd (vget (L.voteFlag sd split).vote.inp sd.ix).last).evaluate) := by
  have hflag : (L.set1 (L.voteFld sd split)).Stays (.acts True fun _ => False) (L.voteFlag sd split) := (Lane.Stays.refl _ _).fire (Scope.acts_fires _) _
  have heval := ((L.voteFlag sd split).voteBroken sd (vget (L.voteFlag sd split).vote.inp sd.ix).last).evaluate_stays
  have hsource : 321 + sd.ix.val < 1024 ∧ fixedClass (321 + sd.ix.val) ≠ 0 := by cases sd <;> decide
  have hkey := L.voteFld_key sd split
  refine ⟨heval.sticky _ hsource.1 (Lane.fire_sticky _ _ hsource.2), ?_, (heval.timerAt _ rfl).trans (hflag.timerAt _ rfl), ?_⟩
  · rw [Lane.is, heval.rd (not_acts_voteIn hkey)]
    exact (congrArg (decide <| · ≠ 0) (hflag.rd (not_acts_voteIn hkey))).trans (L.is_set1_same _ (L.voteFld_width sd split))
  · rw [heval.inp]
    refine (vget_vupd _ _ _ _).trans ?_
    rw [if_pos rfl, hflag.inp]
    rfl

/-- What the guard does with a frame whose lines differ or whose CRC is wrong, but not both (R91, R119). -/
theorem Lane.voteReceive_failed {line0 line1 : Word} {split : Bool} (hs : decide (line1 ≠ ~~~line0) = split)
    (hc : decide (voteCrc (line0.toNat / 256) ≠ line0.toNat % 256) = !split) :
    L.voteReceive sd line0 line1 = (L.voteFlag sd split).voteBroken sd (vget (L.voteFlag sd split).vote.inp sd.ix).last := by
  unfold Lane.voteReceive
  dsimp only
  rw [hs, hc]
  cases split <;> rfl

/-- The lane after a valid frame (R91, R93). -/
theorem Lane.voteReceive_valid {line0 line1 : Word} {c : Nat} (hs : line1 = ~~~line0) (hc : voteCrc (line0.toNat / 256) = line0.toNat % 256)
    (hsync : nbits line0.toNat 28 4 = 0xB) (hlane : nbits line0.toNat 8 2 = L.sideCode sd) (hlast : (vget L.vote.inp sd.ix).last = some c)
    (hcount : nbits line0.toNat 10 3 = (c + 1) % 8) : L.voteReceive sd line0 line1 = L.voteValid sd line0.toNat := by
  unfold Lane.voteReceive
  simp [hs, hc, hsync, hlane, hlast, hcount, Lane.when]

/-- With its RC reference running the guard takes a frame and votes (R91, R93). -/
theorem voteFrameRx_does {l : LaneId} {line0 line1 : Word} {pre : Lane → Prop} {post : Lane → Lane → Prop}
    (hrun : ∀ L, pre L → L.guardSt.powered = true ∧ L.guardSt.rcLost = false)
    (hp : ∀ L, pre L → post L (L.voteReceive sd line0 line1).evaluate) : Does (.voteFrameRx l sd line0 line1) pre post :=
  does_of (fun L => L.when (L.guardSt.powered && !L.guardSt.rcLost) (fun L => (L.voteReceive sd line0 line1).evaluate)) (fun _ => rfl) fun L h => by
    obtain ⟨hpow, hrc⟩ := hrun L h
    rw [Lane.when_of_true _ _ (by rw [hpow, hrc]; rfl)]
    exact hp L h

/-- A valid frame counts, restarts its input, and the lane is out of a function in which both others accuse it. -/
theorem Lane.voteValid_evaluate (sd : Side) (w : Nat) (L : Lane) :
    vget (L.voteValid sd w).evaluate.vote.inp sd.ix = ⟨false, some (nbits w 10 3),
      Vector.ofFn (fun (i : Fin 5) => (vget (vget L.vote.inp sd.ix).codes i).next (nbits w (18 + 2 * i.val) 2)),
      Vector.ofFn (fun (i : Fin 5) => (vget (vget L.vote.inp sd.ix).rotate i).next (nbits w (13 + i.val) 1))⟩ ∧
    (L.voteValid sd w).evaluate.timerAt (.voteIn sd) = some L.el ∧
    (∀ f ∈ L.functions, L.servingSet f = [.a, .b, .c] → (∀ y : LaneId, y ≠ L.id → accused y ((L.voteValid sd w).evaluate.codeIn y f) = some L.id) →
      (L.voteValid sd w).evaluate.serves f = false ∧ (L.voteValid sd w).evaluate.role f = 4) := by
  have heval := (L.voteValid sd w).evaluate_stays
  refine ⟨?_, ?_, fun f hf hs ha => ?_⟩
  · rw [heval.inp]
    refine (vget_vupd _ _ _ _).trans ?_
    rw [if_pos rfl]
  · rw [heval.timerAt _ rfl]
    refine (Lane.timerAt_restart _ _ _).trans ?_
    rw [if_pos rfl]
    rfl
  · have hcode (y : LaneId) : (L.voteValid sd w).evaluate.codeIn y f = (L.voteValid sd w).codeIn y f := by
      rw [Lane.codeIn, Lane.codeIn, heval.id, heval.ownCodes, heval.inp]
    obtain ⟨hserves, hrole⟩ := Lane.evaluate_out (L := L.voteValid sd w) hf (Lane.decided_accused hs fun y hy => hcode y ▸ ha y hy)
    exact ⟨hserves, hrole⟩

/-- What the loss of a vote input does before the vote (R91, R93, R359). -/
def Lane.voteGone (sd : Side) (L : Lane) : Lane := ((L.onInp sd (fun _ => Init.voteIn)).stop (.voteIn sd)).fire (323 + sd.ix.val)

/-- With both inputs lost the lane withdraws (R95). -/
def Lane.voteAlone (L : Lane) : Lane :=
  L.when ((vget L.vote.inp 0).lost && (vget L.vote.inp 1).lost) (fun L => (L.withdrawAll).each (L.functions.filter L.serves) (fun f => autumn f 1))

theorem Lane.voteLose_eq (sd : Side) (L : Lane) : L.voteLose sd = (L.voteGone sd).voteAlone.evaluate := rfl

theorem Lane.Stays.voteAlone {S : Scope} {L M : Lane} (h : L.Stays S M) (hS : S.Acts) : L.Stays S M.voteAlone :=
  h.when _ (h.withdrawAll.each _ fun f _ _ hN => hN.autumn hS f 1)

/-- After `withdrawAll` every withdrawal stands. -/
theorem Lane.withdrawAll_all (L : Lane) (i : Fin 5) : vget L.withdrawAll.vote.withdraw i = true := by
  obtain ⟨f, rfl⟩ : ∃ f : Func, f.ix = i := by
    fin_cases i
    exacts [⟨.steer, rfl⟩, ⟨.feel, rfl⟩, ⟨.brake, rfl⟩, ⟨.trail, rfl⟩, ⟨.park, rfl⟩]
  refine ((L.each_withdraws Func.all).2 f).trans ?_
  simp [Func.mem_all f]

theorem Lane.voteAlone_withdraw {L : Lane} (h0 : (vget L.vote.inp 0).lost = true) (h1 : (vget L.vote.inp 1).lost = true) (i : Fin 5) :
    vget L.voteAlone.vote.withdraw i = true := by
  rw [Lane.voteAlone, Lane.when_of_true _ _ (by rw [h0, h1]; rfl)]
  exact ((Lane.Stays.refl (.acts False fun _ => False) L.withdrawAll).each _ fun f _ _ hN => hN.autumn (Scope.acts_acts _ _) f 1).withdraw i
    (L.withdrawAll_all i)

/-- A vote input that is lost (R91, R95, R119). -/
theorem Lane.voteLose_does (sd : Side) (L : Lane) :
    vget (L.voteLose sd).vote.inp sd.ix = Init.voteIn ∧ (L.voteLose sd).sticky (323 + sd.ix.val) = true ∧ (L.voteLose sd).running (.voteIn sd) = false ∧
      ((∀ i, i ≠ sd.ix → (vget L.vote.inp i).lost = true) → ∀ i, vget (L.voteLose sd).vote.withdraw i = true) := by
  have hgone : ((L.onInp sd (fun _ => Init.voteIn)).stop (.voteIn sd)).Stays (.acts True fun _ => True) (L.voteGone sd) :=
    (Lane.Stays.refl _ _).fire (Scope.acts_fires _) _
  have hafter : (L.voteGone sd).Stays (.acts True fun _ => True) (L.voteLose sd) := by
    rw [Lane.voteLose_eq]
    exact ((Lane.Stays.refl _ _).voteAlone (Scope.acts_acts _ _)).evaluate fun _ => Scope.acts_votes _ trivial
  have hinp (i : Fin 2) : vget (L.voteGone sd).vote.inp i = if sd.ix = i then Init.voteIn else vget L.vote.inp i := by
    rw [hgone.inp]
    exact vget_vupd _ _ _ _
  have hsource : 323 + sd.ix.val < 1024 ∧ fixedClass (323 + sd.ix.val) ≠ 0 := by cases sd <;> decide
  refine ⟨by rw [hafter.inp, hinp, if_pos rfl], hafter.sticky _ hsource.1 (Lane.fire_sticky _ _ hsource.2), ?_, fun hlost i => ?_⟩
  · rw [Lane.running, hafter.timerAt _ rfl, hgone.timerAt _ rfl]
    exact Lane.running_stop_same _ _
  · have hall (j : Fin 2) : (vget (L.voteGone sd).vote.inp j).lost = true := by
      rw [hinp]
      split
      · rfl
      · next hne => exact hlost j (Ne.symm hne)
    exact ((L.voteGone sd).voteAlone.evaluate_stays).withdraw i (Lane.voteAlone_withdraw (hall 0) (hall 1) i)

theorem voteInputLost_does (l : LaneId) (dt : Nat) (sd : Side) : Does (.voteInputLost l dt sd)
    (fun L => L.guardSt.powered = true ∧ (vget L.vote.inp sd.ix).lost = false ∧ (L.pass dt).due (.voteIn sd) 50000 = true)
    (fun L M => M = (L.pass dt).voteLose sd) :=
  does_of (fun L => (L.pass dt).when ((L.pass dt).guardSt.powered && !(vget (L.pass dt).vote.inp sd.ix).lost && (L.pass dt).due (.voteIn sd) 50000)
    (Lane.voteLose sd)) (fun _ => rfl) fun L h => by
    obtain ⟨hpow, hlost, hdue⟩ := h
    have hpow' : (L.pass dt).guardSt.powered = true := hpow
    have hlost' : (vget (L.pass dt).vote.inp sd.ix).lost = false := hlost
    exact Lane.when_of_true _ _ (by rw [hpow', hlost', hdue]; rfl)

/-- Settles O9: the vote keeps what the vote lines brought, and removes a lane that is decided on from its function. -/
theorem voteFrames : Obligations.vote_frames := by
  refine ⟨fun l => voteFrameTx_does (fun _ h => h) fun L _ => ?_, fun l sd line0 line1 c => voteFrameRx_does (fun _ h => ⟨h.1, h.2.1⟩) fun L h => ?_,
    fun l sd line0 line1 => voteFrameRx_does (fun _ h => ⟨h.1, h.2.1⟩) fun L h => ?_,
    fun l sd line0 line1 => voteFrameRx_does (fun _ h => ⟨h.1, h.2.1⟩) fun L h => ?_,
    fun l dt sd => (voteInputLost_does l dt sd).mono (fun _ h => h) fun L M _ hM => hM ▸ (L.pass dt).voteLose_does sd⟩
  · have heval := L.voteSent.evaluate_stays
    refine ⟨?_, heval.counted, fun i => ⟨?_, ?_⟩, heval.inp, fun f hf hs hc => ?_⟩
    · rw [heval.out id, Lane.voteSent_out]
      simp
    · rw [heval.ownCodes]
      exact vget_ofFn _ i
    · rw [heval.ownRotate]
      exact vget_ofFn _ i
    · rw [heval.ownCodes] at hc
      obtain ⟨hserves, hrole⟩ := Lane.evaluate_out (L := L.voteSent) hf (Lane.decided_own hs hc)
      exact ⟨hserves, hrole⟩
  · obtain ⟨-, -, hsplit, hcrc, hsync, hlane, hlast, hcount⟩ := h
    rw [Lane.voteReceive_valid hsplit hcrc hsync hlane hlast hcount]
    exact L.voteValid_evaluate sd _
  · obtain ⟨-, -, hsplit, hcrc⟩ := h
    rw [Lane.voteReceive_failed (split := true) (by simpa using hsplit) (by simpa using hcrc)]
    obtain ⟨hsticky, hshown, htimer, hinp⟩ := L.voteBroken_evaluate sd true
    exact ⟨hsticky, hshown, htimer, hinp⟩
  · obtain ⟨-, -, hsplit, hcrc⟩ := h
    rw [Lane.voteReceive_failed (split := false) (by simpa using hsplit) (by simpa using hcrc)]
    obtain ⟨hsticky, hshown, htimer, hinp⟩ := L.voteBroken_evaluate sd false
    exact ⟨hsticky, hshown, htimer, hinp⟩

end
end Sys2Proof.Machine

namespace Sys2Proof.Machine

/-! ### The grants of the guard (R311, R313) -/

/-- What the guard does at one port: a grant whose line stops ends, and what is requested is granted where nothing withholds it. -/
def Lane.grantPort (p : Port) (L : Lane) : Lane :=
  if L.bitOf Reg.GD_STAT_EN p.val && !L.lineRuns p then L.portTurnOff p
  else if L.lineRuns p && decide (L.gstate = 2) && !L.is Reg.LG_STATUS_KFAULT && !L.is Reg.LG_STATUS_SLOSS &&
      !vget L.gate.barred p && !L.bitOf Reg.GD_STAT_EN p.val then
    ((((L.wrBit Reg.GD_STAT_EN p.val true).wrBit Reg.LG_PORT_GRANT p.val true).onGate
      (fun g => { g with portOff := vupd g.portOff p (fun _ => false) })).each (Lane.portSwitches p) Lane.switchFree).restart (.switched p)
      |>.gateFollowAll
  else L

theorem Lane.grants_eq (L : Lane) : L.grants = L.each (List.finRange 3) Lane.grantPort := rfl

section
variable {S : Scope} {L M : Lane}

namespace Lane.Stays

/-- A bit of the gate enables or of the grants is set, for a port of the scope. -/
theorem bitOn (h : L.Stays S M) (f : Fld) (p : Port) (hp : S.grants p) (hk : S.keys f.key) (hf : f = Reg.GD_STAT_EN ∨ f = Reg.LG_PORT_GRANT) :
    L.Stays S (M.wrBit f p.val true) := by
  have hoff {g : Fld} (hg : f = g ∨ f.key ≠ g.key) (q : Port) (hq : ¬S.grants q) (hj : M.bitOf g q.val = false) :
      (M.wrBit f p.val true).bitOf g q.val = false := by
    rcases hg with rfl | hne
    · rw [Lane.bitOf_wrBit, if_neg fun e => hq ((Fin.ext e : p = q) ▸ hp), hj]
      simp
    · rw [Lane.bitOf, show (M.wrBit f p.val true).rd g = M.rd g from M.rd_wr_ne _ hne]
      exact hj
  refine { h with
    sticky := fun n hn hs => ?_
    enOff := fun q hq he => hoff ?_ _ hq (h.enOff q hq he)
    grantOff := fun q hq he => hoff ?_ _ hq (h.grantOff q hq he)
    regs := fun k hk' => (Tab.get_put_ne (z := 0) M.regs _ (show f.key ≠ k from fun e => hk' (e ▸ hk))).trans (h.regs k hk') }
  · have hne : f.key ≠ (Reg.FC_STICKY_S (n / 32)).key := by
      rcases hf with rfl | rfl <;> simp only [Fld.key, Reg.FC_STICKY_S, Reg.GD_STAT_EN, Reg.LG_PORT_GRANT] <;> omega
    have hs' := h.sticky n hn hs
    rw [Lane.sticky, Lane.bitOf] at hs' ⊢
    rwa [show (M.wrBit f p.val true).rd _ = M.rd _ from M.rd_wr_ne _ hne]
  · rcases hf with rfl | rfl
    · exact .inl rfl
    · exact .inr (by decide)
  · rcases hf with rfl | rfl
    · exact .inr (by decide)
    · exact .inl rfl

theorem grantPort (h : L.Stays S M) (hS : S.Turns) {p : Port} (hp : S.grants p) : L.Stays S (M.grantPort p) := by
  unfold Lane.grantPort
  refine .ite (h.portTurnOff hS p) (.ite (.gateFollowAll (.restart (.each (.onGate ?_ fun _ => by rfl) _ fun b _ _ hN => hN.switchFree b) _ (by rfl))) h)
  exact (h.bitOn _ p hp (hS.turn _ (.inl rfl)) (.inl rfl)).bitOn _ p hp (hS.turn _ (.inr (.inl rfl))) (.inr rfl)

theorem grants (h : L.Stays S M) (hS : S.Turns) (hp : ∀ p, S.grants p) : L.Stays S M.grants := h.each _ fun p _ _ hN => hN.grantPort hS (hp p)

end Lane.Stays
end
end Sys2Proof.Machine

namespace Sys2Proof.Machine

/-! ### Status frames (R89, R98) -/

/-! #### The frame that is sent -/

theorem Lane.watchPark_timers (L : Lane) : L.watchPark = { L with timers := L.watchPark.timers } := by
  unfold Lane.watchPark Lane.start1
  split
  · split <;> rfl
  · rfl

/-- A frame that becomes ready is on the link. -/
theorem mem_linkAdd (x : Tx) (xs : List Tx) : x ∈ linkAdd x xs := by
  induction xs with
  | nil => exact .head _
  | cons e xs ih =>
    unfold linkAdd
    dsimp only
    split
    · exact .tail _ ih
    · split
      · exact .head _
      · split
        · exact .tail _ ih
        · split
          · exact .head _
          · split
            · exact .tail _ ih
            · exact .tail _ (.head _)

/-! #### What the reception of a frame leaves -/

/-- The fields that say what the lane knows of a neighbour, and the update state. -/
abbrev HeardKey (k : Nat) : Prop :=
  (0x200300C0 ≤ k / 64 ∧ k / 64 < 0x200300CC) ∨ k = Reg.SYS_STATE_PEERS.key ∨ k = Reg.UP_STATE_STATE.key

/-- Everything but those fields may be written. -/
def Scope.hears : Scope where
  keys k := ¬HeardKey k
  grants _ := True
  drops _ := True
  posts := True

theorem Scope.hears_votes (f : Func) : Scope.hears.Votes f where
  turn k hk := by
    simp only [Scope.hears, HeardKey, TurnKey, Fld.key, Reg.GD_STAT_EN, Reg.LG_PORT_GRANT, Reg.GD_STAT_BSTARM, Reg.SYS_STATE_PEERS, Reg.UP_STATE_STATE] at *
    omega
  own k hk := fun hh => hk.1 (by
    rcases hh with hh | hh | hh
    · exact .inr (.inl hh)
    · exact .inr (.inr (.inl hh))
    · exact .inr (.inr (.inr (.inr (.inl hh)))))
  role k hk := by
    have := f.code_lt
    simp only [Scope.hears, HeardKey, RoleKey, Fld.key, Reg.ROLE_ACCUSE_ROTATE, Reg.SYS_STATE_PEERS, Reg.UP_STATE_STATE] at *
    omega
  drop := trivial

theorem Scope.hears_acts : Scope.hears.Acts := (Scope.hears_votes .steer).toActs

theorem Scope.hears_fires : Scope.hears.Fires where
  toActs := Scope.hears_acts
  stick k hk := by
    simp only [Scope.hears, HeardKey, StickyKey, Fld.key, Reg.SYS_STATE_PEERS, Reg.UP_STATE_STATE] at *
    omega
  tells := trivial

section
variable {S : Scope} {L M : Lane}

namespace Lane.Stays

theorem fireLevel (h : L.Stays S M) (hS : S.Fires) (n : Nat) : L.Stays S (M.fireLevel n) :=
  fire (M := { M with fault := { M.fault with level := if M.fault.level.contains n then M.fault.level else M.fault.level ++ [n] } }) { h with } hS n

theorem endLevel (h : L.Stays S M) (n : Nat) : L.Stays S (M.endLevel n) := { h with }

theorem judgeZ (h : L.Stays S M) (hS : S.Fires) (c : Fin 2) : L.Stays S (M.judgeZ c) := by
  unfold Lane.judgeZ
  have hloss : OwnKey (Reg.SZ_STAT_ZLOSS c.val).key := by fin_cases c <;> decide
  have hfire := (h.set1 hS.toActs _ hloss).fireLevel hS (388 + c.val)
  exact .ite (hfire.when _ (hfire.autumn hS.toActs _ 2)) ((h.clr hS.toActs _ hloss).endLevel _)

theorem watchPhase (h : L.Stays S M) (hS : S.Acts) (hp : ∀ p, S.grants p) : L.Stays S M.watchPhase :=
  (h.each _ fun p _ _ hN => hN.own hS _ _ (by fin_cases p <;> decide)).grants hS.toTurns hp

theorem watchPark (h : L.Stays S M) : L.Stays S M.watchPark := .ite (h.start1 _ rfl) (h.stop _ rfl)

theorem hears {f : Fld} (h : L.Stays .hears M) (v : Nat) (hf : ¬HeardKey f.key ∧ ¬BitKey f.key) : L.Stays .hears (M.wr f v) := h.wr f v hf.1 hf.2

/-! #### Elections (R47 to R50) -/

theorem takeRoles (h : L.Stays .hears M) (f : Func) (r : Nat × Nat × Nat) (x : History) : L.Stays .hears (M.takeRoles f r x) := by
  unfold Lane.takeRoles
  exact ((((h.hears _ (by cases f <;> decide)).hears _ (by cases f <;> decide)).hears _ (by cases f <;> decide)).hears _ (by cases f <;> decide)).onRet _

theorem electionEnds (h : L.Stays .hears M) : L.Stays .hears M.electionEnds := ((h.hears (f := Reg.SYS_STATE_ELECTED) 1 (by decide)).onStart fun _ => by rfl).stop _ rfl

theorem elect (h : L.Stays .hears M) : L.Stays .hears M.elect := by
  have hfail (c : Nat) : L.Stays .hears (((M.wr Reg.SYS_STATE_CAUSE c).onStart (fun s => { s with electionDone := true })).stop .gather) :=
    ((h.hears _ (by decide)).onStart fun _ => by rfl).stop _ rfl
  unfold Lane.elect
  refine .ite (hfail 9) (.ite (hfail 12) (.electionEnds (.onStart (h.each _ fun f _ _ hN => ?_) fun _ => by rfl)))
  exact (hN.takeRoles f _ _).setOwnRole (Scope.hears_votes f).toRoles

theorem tryElect (h : L.Stays .hears M) : L.Stays .hears M.tryElect := .ite h.elect h

theorem adoptElection (h : L.Stays .hears M) (f : StatusFrame) : L.Stays .hears (M.adoptElection f) := by
  unfold Lane.adoptElection
  refine .electionEnds (.onStart (h.each _ fun g _ _ hN => ?_) fun _ => by rfl)
  exact (hN.takeRoles g _ _).setOwnRole (Scope.hears_votes g).toRoles

theorem learn (h : L.Stays .hears M) (f : StatusFrame) : L.Stays .hears (M.learn f) := by
  unfold Lane.learn
  exact ((h.onStart fun _ => by rfl).each _ fun g _ _ hN => hN.takeRoles g _ _).electionEnds

theorem restartElection (h : L.Stays .hears M) (f : StatusFrame) : L.Stays .hears (M.restartElection f) := by
  unfold Lane.restartElection
  exact .ite (((h.onStart fun _ => by rfl).maybe _ fun _ hN => hN.hears _ (by decide)).restart _ rfl) h

theorem followElection (h : L.Stays .hears M) (f : StatusFrame) (b : Bool) : L.Stays .hears (M.followElection f b) := by
  unfold Lane.followElection
  exact .ite (.ite (h.adoptElection f) (.ite h (h.learn f))) (.ite (h.learn f) ((h.when b (h.restartElection f)).tryElect))

theorem showBar (h : L.Stays .hears M) : L.Stays .hears M.showBar := by
  unfold Lane.showBar
  split
  · split
    · exact h.hears _ (by decide)
    · exact h
  · exact h

/-! #### Serving sets and seasons of the neighbours (R50, R88, R110, R114) -/

theorem beginsToServe (h : L.Stays .hears M) (g : Func) (x : LaneId) : L.Stays .hears (M.beginsToServe g x) := by
  unfold Lane.beginsToServe
  refine .maybe (.maybe (.wr (f := Reg.ROLE_FUNC_SERVING g.code) (.ite h (.ite ?_ (.ite ?_ ?_))) _ (show ¬HeardKey _ by cases g <;> decide) (by cases g <;> decide)) _
    fun _ hN => hN.reshare g 5000) _ fun _ hN => hN.clearCause Scope.hears_acts g 1
  · exact h.hears _ (by cases g <;> decide)
  · exact h.hears _ (by cases g <;> decide)
  · exact h.hears _ (by cases g <;> decide)

theorem followServing (h : L.Stays .hears M) (x : LaneId) (state : Nat) (g : Func) (r : FuncReport) : L.Stays .hears (M.followServing x state g r) := by
  unfold Lane.followServing
  have hgone := h.when (decide (state = 2)) (f := fun N => N.onFn g (fun y => { y with gone := vupd y.gone (Fin.ofNat 3 x.code) (fun _ => false) }))
    (h.onFn g fun _ hx => by exact hx)
  refine .maybe (.ite (.maybe (hgone.onFn g fun _ hx => by exact hx) _ fun _ hN => hN.reshare g 5000) hgone) _ fun _ hN => hN.beginsToServe g x

theorem correctCause (h : L.Stays S M) (hS : S.Acts) (g : Func) (c : Nat) : L.Stays S (M.correctCause g c) := by
  unfold Lane.correctCause
  refine h.maybe _ fun N hN => .onFn (hN.maybe _ fun _ hK => hK.own hS _ _ (by cases g <;> decide)) g fun _ hx => by exact hx

theorem followModes (h : L.Stays S M) (hS : S.Acts) (x : LaneId) (state : Nat) (lost : Bool) (g : Func) (r : FuncReport) :
    L.Stays S (M.followModes x state lost g r) := by
  unfold Lane.followModes
  have hlane := h.maybe (decide (state = 6) || lost) fun _ hN => hN.autumn hS g 1
  refine .maybe (.maybe (.maybe (.ite (.ite (hlane.autumn hS g _) (hlane.correctCause hS g _)) hlane) _ fun _ hN => hN.autumn hS g 3) _
    fun _ hN => hN.enterAutumn hS g 7 _) _ fun _ hN => hN.setTimer _ _ rfl

theorem followWinter (h : L.Stays S M) (hS : S.Acts) (g : Func) (r : FuncReport) : L.Stays S (M.followWinter g r) := h.when _ (h.winterSpread hS g)

end Lane.Stays

/-! #### The reception of a frame (R89) -/

/-- The lane whose watchdogs have heard of the neighbour (R98, R325). -/
def Lane.statusTimed (sd : Side) (f : StatusFrame) (L : Lane) : Lane := (L.linkHeard sd).when (L.countsAsHeard sd f) (Lane.restart (.status sd))

theorem Lane.statusTimed_regs (sd : Side) (f : StatusFrame) (L : Lane) : (L.statusTimed sd f).regs = L.regs :=
  Lane.when_proj _ (Lane.restart (.status sd)) Lane.regs (fun _ => rfl) (L.linkHeard sd)

theorem Lane.statusTimed_start (sd : Side) (f : StatusFrame) (L : Lane) : (L.statusTimed sd f).start = L.start :=
  Lane.when_proj _ (Lane.restart (.status sd)) Lane.start (fun _ => rfl) (L.linkHeard sd)

theorem Lane.statusTimed_timerAt (sd : Side) {f : StatusFrame} (L : Lane) (hf : f.state ≠ 6) : (L.statusTimed sd f).timerAt (.status sd) = some L.el := by
  rw [Lane.statusTimed, Lane.when_of_true _ _ (by simp [Lane.countsAsHeard, hf])]
  exact (Lane.timerAt_restart _ _ _).trans (if_pos rfl)

/-- The lane once it has kept a frame and what the frame says of the neighbour (R89, R325, R354). -/
def Lane.statusHeard (sd : Side) (f : StatusFrame) (L : Lane) : Lane :=
  (({ L.statusTimed sd f with nb := vupd (L.statusTimed sd f).nb sd.ix (fun _ => some f) } : Lane).wr
    (Reg.FC_NB_SUMMARY (L.id.nb sd).code) f.faults).set1 (Reg.FC_NB_VALID (L.id.nb sd).code)

/-- The neighbour is ready and takes part with the same set (R89). -/
def Lane.takesPart (f : StatusFrame) (L : Lane) : Bool := decide (2 ≤ f.state) && decide (f.state ≤ 5) && L.sameSet f

/-- The lane once it shows whether the neighbour counts as a peer. -/
def Lane.statusKept (sd : Side) (f : StatusFrame) (L : Lane) : Lane :=
  (L.statusHeard sd f).wrBit Reg.SYS_STATE_PEERS (L.id.nb sd).code ((L.statusHeard sd f).takesPart f)

/-- What the lane then does of the frame, before what concerns the update (R47, R50, R110, R114). -/
def Lane.statusFollowed (x : LaneId) (f : StatusFrame) (newPeer : Bool) (L : Lane) : Lane :=
  let L := (L.followElection f newPeer).showBar
  let L := L.each L.functions (fun g => followServing x f.state g (rep f g))
  let L := L.each (L.functions.filter L.serves) (fun g => followModes x f.state f.voteLost g (rep f g))
  let L := L.each [Func.steer, .brake] (fun g => followWinter g (rep f g))
  let L := ((L.judgeZ 0).judgeZ 1).watchPhase
  (L.when L.guardSt.powered evaluateNow).watchPark

/-- With no activation pending a frame asks nothing of the update (R524, R525). -/
theorem Lane.update_idle {N : Lane} (h : N.rd Reg.UP_STATE_STATE = 0) (f : StatusFrame) : ((N.followActivation f).coordinate).trialFollow f = N := by
  have h' : N.updState = 0 := h
  have hact : N.followActivation f = N := by
    unfold Lane.followActivation
    rw [Lane.when_of_false _ _ (by simp [h'])]
    split
    · exact Lane.when_of_false _ _ (by simp [h'])
    · rfl
  have hcoord : N.coordinate = N := by
    unfold Lane.coordinate
    rw [if_neg (by simp [h'])]
  rw [hact, hcoord, Lane.trialFollow, if_neg (by simp [h']), Lane.trialConfirm, if_neg (by simp [h'])]

theorem Lane.statusFollowed_stays (x : LaneId) (f : StatusFrame) (b : Bool) (L : Lane) : L.Stays .hears (L.statusFollowed x f b) := by
  unfold Lane.statusFollowed
  refine .watchPark (.maybe (.watchPhase (.judgeZ (.judgeZ (.each (.each (.each ((Lane.Stays.refl _ L).followElection f b).showBar _
    fun g _ _ hN => hN.followServing _ _ g _) _ fun g _ _ hN => hN.followModes Scope.hears_acts _ _ _ g _) _
    fun g _ _ hN => hN.followWinter Scope.hears_acts g _) Scope.hears_fires 0) Scope.hears_fires 1) Scope.hears_acts fun _ => trivial) _ fun _ hN => ?_)
  exact hN.evaluate Scope.hears_votes

theorem Lane.statusRx_eq (sd : Side) (f : StatusFrame) (L : Lane) : L.statusRx sd f = ((((L.statusKept sd f).statusFollowed (L.id.nb sd) f
    ((L.statusHeard sd f).takesPart f && !(L.statusHeard sd f).bitOf Reg.SYS_STATE_PEERS (L.id.nb sd).code)).followActivation f).coordinate).trialFollow f := by
  rfl

theorem Lane.statusRx_stays (sd : Side) (f : StatusFrame) {L : Lane} (h : (L.statusKept sd f).rd Reg.UP_STATE_STATE = 0) :
    (L.statusKept sd f).Stays .hears (L.statusRx sd f) := by
  have hs := Lane.statusFollowed_stays (L.id.nb sd) f
    ((L.statusHeard sd f).takesPart f && !(L.statusHeard sd f).bitOf Reg.SYS_STATE_PEERS (L.id.nb sd).code) (L.statusKept sd f)
  rw [Lane.statusRx_eq, Lane.update_idle ((hs.rd (not_not_intro (.inr (.inr rfl)))).trans h)]
  exact hs

/-- A field outside FC_NB is as it was. -/
theorem Lane.statusHeard_rd (sd : Side) (f : StatusFrame) (L : Lane) {g : Fld} (hg : ¬(0x200300C0 ≤ g.key / 64 ∧ g.key / 64 < 0x200300CC)) :
    (L.statusHeard sd f).rd g = L.rd g := by
  have hc : (L.id.nb sd).code < 3 := by cases L.id <;> cases sd <;> decide
  refine (Lane.rd_wr_ne _ _ fun e => hg (e ▸ ?_)).trans ((Lane.rd_wr_ne _ _ fun e => hg (e ▸ ?_)).trans ?_)
  · simp only [Fld.key, Reg.FC_NB_VALID]
    omega
  · simp only [Fld.key, Reg.FC_NB_SUMMARY]
    omega
  · exact congrArg (Tab.get 0 · g.key) (L.statusTimed_regs sd f)

/-- The frame is compared with the lane's own set, which hearing it leaves (R89). -/
theorem Lane.statusHeard_takesPart (sd : Side) (f : StatusFrame) (L : Lane) : (L.statusHeard sd f).takesPart f = L.takesPart f := by
  have hfeat : (L.statusHeard sd f).featSet = L.featSet := by
    simp only [Lane.featSet, L.statusHeard_rd sd f (show ¬(0x200300C0 ≤ (Reg.SYS_FEAT_ACCEPT 0).key / 64 ∧ _) by decide),
      L.statusHeard_rd sd f (show ¬(0x200300C0 ≤ (Reg.SYS_FEAT_ACCEPT 1).key / 64 ∧ _) by decide),
      L.statusHeard_rd sd f (show ¬(0x200300C0 ≤ (Reg.SYS_FEAT_ACCEPT 2).key / 64 ∧ _) by decide),
      L.statusHeard_rd sd f (show ¬(0x200300C0 ≤ (Reg.SYS_FEAT_ACCEPT 3).key / 64 ∧ _) by decide)]
  have hstart : (L.statusHeard sd f).start = L.start := L.statusTimed_start sd f
  simp only [Lane.takesPart, Lane.sameSet, hfeat, hstart]

/-- What the lane keeps and shows of a frame (R89, R325, R354). -/
structure Lane.Hears (sd : Side) (f : StatusFrame) (L M : Lane) : Prop where
  nb : vget M.nb sd.ix = some f
  summary : M.rd (Reg.FC_NB_SUMMARY (L.id.nb sd).code) = f.faults % 2 ^ 16
  valid : M.is (Reg.FC_NB_VALID (L.id.nb sd).code) = true
  peer : M.bitOf Reg.SYS_STATE_PEERS (L.id.nb sd).code = L.takesPart f
  watchdog : f.state ≠ 6 → M.timerAt (.status sd) = some L.el

theorem Lane.statusKept_hears (sd : Side) (f : StatusFrame) (L : Lane) : L.Hears sd f (L.statusKept sd f) := by
  have hc : (L.id.nb sd).code < 3 := by cases L.id <;> cases sd <;> decide
  have hnb {k : Nat} (hk : k / 64 = 0x200300C0 + 4 * (L.id.nb sd).code) : Reg.SYS_STATE_PEERS.key ≠ k := by
    simp only [Fld.key, Reg.SYS_STATE_PEERS]
    omega
  refine ⟨?_, ?_, ?_, ?_, fun hstate => ?_⟩
  · exact (vget_vupd _ _ _ _).trans (if_pos rfl)
  · refine (Lane.rd_wr_ne _ _ (hnb ?_)).trans ((Lane.rd_wr_ne _ _ ?_).trans (Lane.rd_wr_same _ _ _))
    · simp only [Fld.key, Reg.FC_NB_SUMMARY]
      omega
    · simp only [Fld.key, Reg.FC_NB_SUMMARY, Reg.FC_NB_VALID]
      omega
  · refine (congrArg (decide <| · ≠ 0) (Lane.rd_wr_ne _ _ (hnb ?_))).trans (Lane.is_set1_same _ _ Nat.one_pos)
    simp only [Fld.key, Reg.FC_NB_VALID]
    omega
  · rw [Lane.statusKept, Lane.bitOf_wrBit, if_pos rfl, decide_eq_true (show (L.id.nb sd).code < Reg.SYS_STATE_PEERS.w from hc), Bool.true_and]
    exact L.statusHeard_takesPart sd f
  · exact L.statusTimed_timerAt sd hstate

/-- Whatever else the lane does of the frame leaves that. -/
theorem Lane.Stays.heard {sd : Side} {f : StatusFrame} {L M N : Lane} (h : M.Stays .hears N) (hM : L.Hears sd f M) : L.Hears sd f N := by
  have hc : (L.id.nb sd).code < 3 := by cases L.id <;> cases sd <;> decide
  have hnb {k : Nat} (hk : k / 64 = 0x200300C0 + 4 * (L.id.nb sd).code) : ¬Scope.hears.keys k := not_not_intro (.inl (by omega))
  refine ⟨h.nb ▸ hM.nb, (h.rd (hnb ?_)).trans hM.summary, (congrArg (decide <| · ≠ 0) (h.rd (hnb ?_))).trans hM.valid,
    (congrArg (nbit · _) (h.rd (not_not_intro (.inr (.inl rfl))))).trans hM.peer, fun hs => (h.timerAt _ rfl).trans (hM.watchdog hs)⟩
  · simp only [Fld.key, Reg.FC_NB_SUMMARY]
    omega
  · simp only [Fld.key, Reg.FC_NB_VALID]
    omega

theorem Lane.statusRx_hears (sd : Side) (f : StatusFrame) {L : Lane} (h : L.rd Reg.UP_STATE_STATE = 0) : L.Hears sd f (L.statusRx sd f) := by
  have hup : (L.statusKept sd f).rd Reg.UP_STATE_STATE = 0 := by
    refine (Lane.rd_wr_ne _ _ (by decide)).trans ((L.statusHeard_rd sd f (by decide)).trans h)
  exact (Lane.statusRx_stays sd f hup).heard (L.statusKept_hears sd f)

/-! #### The loss of a neighbour (R98) -/

/-- The lane that no longer hears a neighbour: its summary is not valid and it is no peer. -/
def Lane.statusSilent (sd : Side) (L : Lane) : Lane :=
  ((L.stop (.status sd)).clr (Reg.FC_NB_VALID (L.id.nb sd).code)).wrBit Reg.SYS_STATE_PEERS (L.id.nb sd).code false

/-- What the lane does about a neighbour that it no longer hears in a function that it serves. -/
def Lane.accuseSilent (x : LaneId) (sd : Side) (f : Func) (L : Lane) : Lane :=
  if nbit (L.rd (Reg.ROLE_FUNC_SERVING f.code)) x.code then L.watchdogAccuse f sd
  else (L.set1 (Reg.ROLE_REFWD_FIRED f.code)).fire (325 + f.code)

/-- What the lane takes back of a join notice of a neighbour that it no longer hears (R596). -/
def Lane.unjoin (x : LaneId) (f : Func) (L : Lane) : Lane :=
  if vget (L.fn f).joinSeen (Fin.ofNat 3 x.code) ∧ ¬L.holdsRole f x then
    (L.onFn f (fun y => { y with joinSeen := vupd y.joinSeen (Fin.ofNat 3 x.code) (fun _ => false) })).when (L.serves f) (Lane.reshare f 5000)
  else L

/-- What follows the accusations. -/
def Lane.statusDropped (x : LaneId) (L : Lane) : Lane :=
  let L := L.each (if L.is Reg.SYS_STATE_ELECTED then L.functions else []) (Lane.dropLost x)
  let L := L.each L.functions (Lane.unjoin x)
  (((L.judgeZ 0).judgeZ 1).watchPhase).watchPark

theorem Lane.statusLost_eq (sd : Side) (L : Lane) : L.statusLost sd = ((L.statusSilent sd).each
    ((L.statusSilent sd).functions.filter (L.statusSilent sd).serves) (Lane.accuseSilent (L.id.nb sd) sd)).statusDropped (L.id.nb sd) := rfl

theorem Lane.Stays.dropLost (h : L.Stays S M) (hS : ∀ f, S.Roles f) (x : LaneId) (f : Func) : L.Stays S (M.dropLost x f) := by
  unfold Lane.dropLost
  refine .ite (.maybe (.maybe (.maybe (.maybe (h.reform (hS f) _) _ fun _ hN => hN.setOwnRole (hS f)) _
    fun _ hN => hN.becomeActive (hS f).toActs f) _ fun _ hN => hN.rotateHistory (hS f)) _ fun _ hN => ?_) h
  exact (hN.reshare f 5000).autumn (hS f).toActs f 1

theorem Lane.Stays.unjoin (h : L.Stays S M) (x : LaneId) (f : Func) : L.Stays S (M.unjoin x f) :=
  .ite (.maybe (h.onFn f fun _ hx => by exact hx) _ fun _ hN => hN.reshare f 5000) h

theorem Lane.Stays.statusDropped (h : L.Stays S M) (hS : ∀ f, S.Roles f) (hF : S.Fires) (hp : ∀ p, S.grants p) (x : LaneId) : L.Stays S (M.statusDropped x) := by
  unfold Lane.statusDropped
  exact ((((((h.each _ fun f _ _ hN => hN.dropLost hS x f).each _ fun f _ _ hN => hN.unjoin x f).judgeZ hF 0).judgeZ hF 1).watchPhase hF.toActs hp)).watchPark

/-- An accusation changes only what the lane accuses. -/
theorem Lane.Stays.accuse (h : L.Stays S M) {f : Func} (hS : S.drops f) (sd : Side) : L.Stays S (M.accuse f sd) :=
  { h with
    hardware := fun e he => by
      refine (vget_vupd M.vote.hardware f.ix e.ix _).trans ?_
      rw [if_neg fun hix => he ((Func.ix_inj hix : f = e) ▸ hS)]
      exact h.hardware e he }

theorem Lane.Stays.accuseSilent (h : L.Stays .hears M) (x : LaneId) (sd : Side) (f : Func) : L.Stays .hears (M.accuseSilent x sd f) := by
  have hfired (N : Lane) (hN : L.Stays .hears N) : L.Stays .hears ((N.set1 (Reg.ROLE_REFWD_FIRED f.code)).fire (325 + f.code)) :=
    (hN.hears _ (by cases f <;> decide)).fire Scope.hears_fires _
  exact .ite (hfired _ (h.accuse trivial sd)) (hfired _ h)

/-- The neighbour is accused of a function, with FIRED and source 325 + f (R98, R359). -/
structure Lane.Accuses (f : Func) (sd : Side) (L : Lane) : Prop where
  fired : L.is (Reg.ROLE_REFWD_FIRED f.code) = true
  sticky : L.sticky (325 + f.code) = true
  hardware : (vget L.vote.hardware f.ix).any (fun e => decide (e.1 = sd)) = true

/-- Everything but FIRED may be written, and no accusation is taken back. -/
def Scope.accused : Scope where
  keys k := ¬(0x20010060 ≤ k / 64 ∧ k / 64 < 0x20010080)
  grants _ := True
  drops _ := False
  posts := True

theorem Scope.accused_roles (f : Func) : Scope.accused.Roles f where
  turn k hk := by
    simp only [Scope.accused, TurnKey, Fld.key, Reg.GD_STAT_EN, Reg.LG_PORT_GRANT, Reg.GD_STAT_BSTARM] at *
    omega
  own k hk := fun hh => hk.1 (.inl (by omega))
  role k hk := by
    have := f.code_lt
    simp only [Scope.accused, RoleKey, Fld.key, Reg.ROLE_ACCUSE_ROTATE] at *
    omega

theorem Scope.accused_fires : Scope.accused.Fires where
  toActs := (Scope.accused_roles .steer).toActs
  stick k hk := by
    simp only [Scope.accused, StickyKey] at *
    omega
  tells := trivial

theorem Lane.Stays.accuses (h : L.Stays .accused M) {f : Func} {sd : Side} (hL : L.Accuses f sd) : M.Accuses f sd where
  fired := (congrArg (decide <| · ≠ 0) (h.rd (not_not_intro (by cases f <;> decide)))).trans hL.fired
  sticky := h.sticky _ (by have := f.code_lt; omega) hL.sticky
  hardware := (h.hardware f not_false) ▸ hL.hardware

theorem Lane.Accuses.set1 {f : Func} {sd : Side} (h : L.Accuses f sd) (g : Func) : (L.set1 (Reg.ROLE_REFWD_FIRED g.code)).Accuses f sd where
  fired := by
    by_cases e : g = f
    · exact e ▸ L.is_set1_same _ Nat.one_pos
    · have hne : (Reg.ROLE_REFWD_FIRED g.code).key ≠ (Reg.ROLE_REFWD_FIRED f.code).key := fun hk => e (Func.ix_inj (Fin.ext (by
        simp only [Fld.key, Reg.ROLE_REFWD_FIRED] at hk
        exact (by omega : g.code = f.code))))
      exact (congrArg (decide <| · ≠ 0) (L.rd_wr_ne 1 hne)).trans h.fired
  sticky := by
    have hf := f.code_lt
    have hg := g.code_lt
    refine (congrArg (nbit · _) (L.rd_wr_ne 1 ?_)).trans h.sticky
    simp only [Fld.key, Reg.ROLE_REFWD_FIRED, Reg.FC_STICKY_S]
    omega
  hardware := h.hardware

theorem Lane.Accuses.accuse {f : Func} {sd : Side} (h : L.Accuses f sd) (g : Func) : (L.accuse g sd).Accuses f sd where
  fired := h.fired
  sticky := h.sticky
  hardware := by
    by_cases e : g = f
    · exact e ▸ L.accuse_hardware g sd
    · refine (congrArg (List.any · _) (vget_vupd L.vote.hardware g.ix f.ix _)).trans ?_
      rw [if_neg fun hix => e (Func.ix_inj hix)]
      exact h.hardware

theorem Lane.Accuses.silent {f : Func} {sd : Side} (h : L.Accuses f sd) (x : LaneId) (g : Func) : (L.accuseSilent x sd g).Accuses f sd := by
  have hfire (N : Lane) (hN : N.Accuses f sd) : ((N.set1 (Reg.ROLE_REFWD_FIRED g.code)).fire (325 + g.code)).Accuses f sd :=
    ((Lane.Stays.refl .accused _).fire Scope.accused_fires _).accuses (hN.set1 g)
  unfold Lane.accuseSilent
  split
  · exact hfire _ (h.accuse g)
  · exact hfire _ h

/-- The accusations leave who serves a function. -/
theorem Lane.accuseSilent_serving (x : LaneId) (sd : Side) (f g : Func) (L : Lane) :
    (L.accuseSilent x sd g).rd (Reg.ROLE_FUNC_SERVING f.code) = L.rd (Reg.ROLE_FUNC_SERVING f.code) := by
  have hfire (N : Lane) : ((N.set1 (Reg.ROLE_REFWD_FIRED g.code)).fire (325 + g.code)).rd (Reg.ROLE_FUNC_SERVING f.code) = N.rd (Reg.ROLE_FUNC_SERVING f.code) := by
    refine ((Lane.fire_reacts _ (Lane.Reacts.refl _)).regs _ (by cases f <;> unfold ReactKey <;> decide)
      (by cases f <;> unfold ModeKey <;> decide)).trans (N.rd_wr_ne _ ?_)
    have hf := f.code_lt
    simp only [Fld.key, Reg.ROLE_REFWD_FIRED, Reg.ROLE_FUNC_SERVING]
    omega
  unfold Lane.accuseSilent
  split
  · exact hfire (L.accuse g sd)
  · exact hfire L

/-- In every function of a list that the neighbour serves it is accused. -/
theorem Lane.each_accuseSilent {fs : List Func} {f : Func} (hf : f ∈ fs) (x : LaneId) (sd : Side)
    (hs : nbit (L.rd (Reg.ROLE_FUNC_SERVING f.code)) x.code = true) : (L.each fs (Lane.accuseSilent x sd)).Accuses f sd := by
  have hall : nbit ((L.each fs (Lane.accuseSilent x sd)).rd (Reg.ROLE_FUNC_SERVING f.code)) x.code = true →
      (L.each fs (Lane.accuseSilent x sd)).Accuses f sd := by
    refine Lane.each_reaches (P := fun N => nbit (N.rd (Reg.ROLE_FUNC_SERVING f.code)) x.code = true → N.Accuses f sd) (fun M hM => ?_) (fun g M hM hg => ?_) hf L
    · rw [M.accuseSilent_serving x sd f f] at hM
      obtain ⟨hfired, hsticky, hhardware, -⟩ := M.watchdogAccuse_spec f sd
      rw [Lane.accuseSilent, if_pos hM]
      exact ⟨hfired, hsticky, hhardware⟩
    · exact (hM (by rwa [M.accuseSilent_serving x sd f g] at hg)).silent x g
  refine hall ?_
  rw [Lane.each_proj fs _ (fun N => N.rd (Reg.ROLE_FUNC_SERVING f.code)) fun g _ M => M.accuseSilent_serving x sd f g]
  exact hs

/-- A neighbour that is silent for 3 ms (R98). -/
theorem Lane.statusLost_does (sd : Side) (L : Lane) : (L.statusLost sd).is (Reg.FC_NB_VALID (L.id.nb sd).code) = false ∧
    (L.statusLost sd).bitOf Reg.SYS_STATE_PEERS (L.id.nb sd).code = false ∧ (L.statusLost sd).running (.status sd) = false ∧
    ∀ f ∈ L.functions, L.serves f = true → nbit (L.rd (Reg.ROLE_FUNC_SERVING f.code)) (L.id.nb sd).code = true → (L.statusLost sd).Accuses f sd := by
  have hc : (L.id.nb sd).code < 3 := by cases L.id <;> cases sd <;> decide
  have hstays : (L.statusSilent sd).Stays .hears (L.statusLost sd) := by
    rw [Lane.statusLost_eq]
    exact ((Lane.Stays.refl _ _).each _ fun f _ _ hN => hN.accuseSilent _ sd f).statusDropped (fun f => (Scope.hears_votes f).toRoles) Scope.hears_fires
      (fun _ => trivial) _
  have hvalid : Reg.SYS_STATE_PEERS.key ≠ (Reg.FC_NB_VALID (L.id.nb sd).code).key := by
    simp only [Fld.key, Reg.SYS_STATE_PEERS, Reg.FC_NB_VALID]
    omega
  refine ⟨?_, ?_, ?_, fun f hf hserves hserving => ?_⟩
  · rw [Lane.is, hstays.rd (not_not_intro (.inl (by simp only [Fld.key, Reg.FC_NB_VALID]; omega)))]
    exact (congrArg (decide <| · ≠ 0) ((Lane.rd_wr_ne _ _ hvalid).trans (Lane.rd_wr_same _ _ _))).trans rfl
  · rw [Lane.bitOf, hstays.rd (not_not_intro (.inr (.inl rfl)))]
    exact (Lane.bitOf_wrBit _ _ _ _ _).trans (by simp)
  · rw [Lane.running, hstays.timerAt _ rfl]
    exact Lane.running_stop_same _ _
  · rw [Lane.statusLost_eq]
    refine ((Lane.Stays.refl .accused _).statusDropped Scope.accused_roles Scope.accused_fires (fun _ => trivial) _).accuses
      (Lane.each_accuseSilent (List.mem_filter.2 ⟨hf, hserves⟩) _ sd ?_)
    have hkey : Reg.SYS_STATE_PEERS.key ≠ (Reg.ROLE_FUNC_SERVING f.code).key ∧ (Reg.FC_NB_VALID (L.id.nb sd).code).key ≠ (Reg.ROLE_FUNC_SERVING f.code).key := by
      have hf' := f.code_lt
      simp only [Fld.key, Reg.SYS_STATE_PEERS, Reg.FC_NB_VALID, Reg.ROLE_FUNC_SERVING]
      omega
    rw [show (L.statusSilent sd).rd (Reg.ROLE_FUNC_SERVING f.code) = L.rd (Reg.ROLE_FUNC_SERVING f.code) from
      (Lane.rd_wr_ne _ _ hkey.1).trans (Lane.rd_wr_ne _ _ hkey.2)]
    exact hserving

end

/-- Settles O6: the frame is what R89 says; what the lane keeps of one, and an accusation by silence, stand through all that follows. -/
theorem statusFrames : Obligations.status_frames := by
  refine ⟨fun l => does_of (fun L => L.when L.sendsStatus fun L => L.watchPark.send (.status L.statusFrame)) (fun _ => rfl) fun L h => ?_,
    fun l sd f => does_of (fun L => L.when L.firmware (Lane.statusRx sd f)) (fun _ => rfl) fun L h => ?_,
    fun l dt sd => does_of (fun L => (L.pass dt).when ((L.pass dt).firmware && (L.pass dt).due (.status sd) 3000000) (Lane.statusLost sd)) (fun _ => rfl)
      fun L h => ?_⟩
  · rw [Lane.when_of_true _ _ h, L.watchPark_timers]
    refine ⟨rfl, ⟨_, mem_linkAdd _ _, rfl⟩, rfl, rfl, rfl, rfl, rfl, rfl, fun g => ?_⟩
    have hreport : vget L.statusFrame.funcs g.ix = L.report g := (vget_ofFn _ _).trans (by cases g <;> rfl)
    rw [hreport]
    exact ⟨rfl, rfl, rfl⟩
  · obtain ⟨hfirm, hup⟩ := h
    rw [Lane.when_of_true _ _ hfirm]
    obtain ⟨hnb, hsummary, hvalid, hpeer, hwatchdog⟩ := Lane.statusRx_hears sd f hup
    exact ⟨hnb, hsummary, hvalid, hpeer, hwatchdog⟩
  · obtain ⟨hfirm, hdue⟩ := h
    rw [Lane.when_of_true _ _ (show ((L.pass dt).firmware && (L.pass dt).due (.status sd) 3000000) = true by rw [hdue, Bool.and_true]; exact hfirm)]
    obtain ⟨hvalid, hpeer, hrun, haccuses⟩ := (L.pass dt).statusLost_does sd
    refine ⟨hvalid, hpeer, hrun, fun f hf hserves hserving => ?_⟩
    obtain ⟨hfired, hsticky, hhardware⟩ := haccuses f hf hserves hserving
    exact ⟨hfired, hsticky, hhardware⟩

end Sys2Proof.Machine

namespace Sys2Proof.Machine

/-! ### Turn-offs of a port and of the lane (R283, R311) -/

section
variable {S : Scope} {L M N : Lane}

theorem Lane.Stays.funcOfPort (h : L.Stays S M) (p : Port) : M.funcOfPort p = L.funcOfPort p := by
  simp only [Lane.funcOfPort, Lane.portOf, Lane.present, Lane.frec, Lane.img, h.image]
  rfl

theorem Lane.Stays.portOf (h : L.Stays S M) (f : Func) : M.portOf f = L.portOf f := by
  simp only [Lane.portOf, Lane.present, Lane.frec, Lane.img, h.image]
  rfl

/-- Faults and turn-offs that remove no lane from any function. -/
abbrev Scope.faults : Scope := .acts True fun _ => False

theorem Scope.faults_fires : Scope.faults.Fires := Scope.acts_fires _
theorem Scope.faults_acts : Scope.faults.Acts := Scope.acts_acts _ _

/-- Such operations write none of the fields that faults leave, the swap requests aside. -/
theorem not_faults_kept {k : Nat} (hk : KeptKey k) (hrole : ¬(0x20010000 ≤ k / 64 ∧ k / 64 < 0x20010080)) : ¬Scope.faults.keys k := by
  rintro (⟨hown, -⟩ | hturn | ⟨hstick, -⟩ | hrotate | ⟨-, hfalse, -⟩)
  · exact hown hk
  · rcases hturn with rfl | rfl | rfl
    · exact absurd hk (by decide)
    · exact absurd hk (by decide)
    · exact absurd hk (by decide)
  · simp only [KeptKey, StickyKey, Fld.key, Reg.SYS_STATE_PEERS, Reg.SYS_STATE_ELECTED, Reg.UP_STATE_STATE, Reg.GD_STAT_PROT, Reg.GD_STAT_VGDOK,
      Reg.GD_STAT_BSTOK, Reg.GD_TRIP_1_BSTUV] at hk hstick
    omega
  · exact hrole (hrotate ▸ by decide)
  · exact hfalse

/-- A port whose enable and grant are taken away has neither (R311). -/
theorem Lane.ungrant_off (p : Port) (L : Lane) : (L.ungrant p).EnOff p ∧ (L.ungrant p).GrantOff p := by
  have h := (Lane.Stays.refl .faults ((L.wrBit Reg.GD_STAT_EN p.val false).wrBit Reg.LG_PORT_GRANT p.val false)).ungrantEnds Scope.faults_acts.toTurns
  have hen : ((L.wrBit Reg.GD_STAT_EN p.val false).wrBit Reg.LG_PORT_GRANT p.val false).EnOff p := by
    have hrd : ((L.wrBit Reg.GD_STAT_EN p.val false).wrBit Reg.LG_PORT_GRANT p.val false).rd Reg.GD_STAT_EN = (L.wrBit Reg.GD_STAT_EN p.val false).rd Reg.GD_STAT_EN :=
      Lane.rd_wr_ne _ _ (by decide)
    rw [Lane.EnOff, Lane.bitOf, hrd]
    exact (L.bitOf_wrBit _ _ _ _).trans (by simp)
  exact ⟨h.enOff p not_false hen, h.grantOff p not_false ((Lane.bitOf_wrBit _ _ _ _ _).trans (by simp))⟩

/-- The turn-off of a port's switches ends with the loss of its grant. -/
theorem Lane.portOffSwitches_ungrants (p : Port) (L : Lane) : ∃ N : Lane, (N.ungrant p).Stays .faults (L.portOffSwitches p) := by
  unfold Lane.portOffSwitches
  exact ⟨_, .gateFollowAll (.onGate (.refl _ _) fun _ => by rfl)⟩

theorem Lane.portOffSwitches_off (p : Port) (L : Lane) : (L.portOffSwitches p).EnOff p ∧ (L.portOffSwitches p).GrantOff p := by
  obtain ⟨N, hN⟩ := L.portOffSwitches_ungrants p
  exact ⟨hN.enOff p not_false (N.ungrant_off p).1, hN.grantOff p not_false (N.ungrant_off p).2⟩

/-- The lane is turned off: PROT is set, no port has its gate enable, and the lane withdraws from the functions with a port (R283). -/
structure Lane.TurnedOff (L M : Lane) : Prop where
  prot : M.is Reg.GD_STAT_PROT = true
  enOff : ∀ p : Port, M.EnOff p
  withdraw : ∀ f, (L.portOf f).isSome = true → vget M.vote.withdraw f.ix = true

theorem Lane.TurnedOff.stays {S : Scope} (h : L.TurnedOff M) (k : M.Stays S N) (hprot : ¬S.keys Reg.GD_STAT_PROT.key) (hgrants : ∀ p, ¬S.grants p) :
    L.TurnedOff N where
  prot := (congrArg (decide <| · ≠ 0) (k.rd hprot)).trans h.prot
  enOff p := k.enOff p (hgrants p) (h.enOff p)
  withdraw f hf := k.withdraw _ (h.withdraw f hf)

/-- A turn-off that began is shown (R283). -/
def Lane.protSet (L : Lane) : Lane := L.when (!L.is Reg.GD_STAT_PROT) fun L => (L.set1 Reg.GD_STAT_PROT).restart .gatesOff

theorem Lane.protSet_prot (L : Lane) : L.protSet.is Reg.GD_STAT_PROT = true := by
  unfold Lane.protSet
  by_cases h : L.is Reg.GD_STAT_PROT = true
  · rwa [Lane.when_of_false _ _ (by rw [h]; rfl)]
  · rw [Lane.when_of_true _ _ (by simpa using h)]
    exact L.is_set1_same Reg.GD_STAT_PROT Nat.one_pos

theorem Lane.protSet_start (L : Lane) : L.protSet.start = L.start := by
  unfold Lane.protSet
  refine Lane.when_proj _ _ (fun N => N.start) (fun N => ?_) L
  rfl

/-- A lane that withdraws for its ports withdraws from each function that has one (R95). -/
theorem Lane.withdrawPorts_withdraw {f : Func} (h : (L.portOf f).isSome = true) : vget L.withdrawPorts.vote.withdraw f.ix = true := by
  have hf : f ∈ L.portFunctions := List.mem_filter.2 ⟨Func.mem_all f, h⟩
  rw [Lane.withdrawPorts, (L.each_withdraws L.portFunctions).withdraw f, decide_eq_true hf, Bool.or_true]

theorem Lane.laneTurnOff_eq (L : Lane) : L.laneTurnOff = (L.protSet.each (List.finRange 3) Lane.portOffSwitches).withdrawPorts := rfl

/-- Every port's gate enable and grant are taken away, PROT set and the functions with a port left (R283). -/
theorem Lane.laneTurnOff_turnedOff (L : Lane) : L.TurnedOff L.laneTurnOff := by
  have hports : L.protSet.Stays .faults (L.protSet.each (List.finRange 3) Lane.portOffSwitches) :=
    (Lane.Stays.refl _ _).each _ fun p _ _ hN => hN.portOffSwitches Scope.faults_acts.toTurns p
  have hend := (Lane.Stays.refl .faults (L.protSet.each (List.finRange 3) Lane.portOffSwitches)).withdrawPorts
  rw [Lane.laneTurnOff_eq]
  refine ⟨?_, fun p => hend.enOff p not_false ?_, fun f hf => ?_⟩
  · exact (congrArg (decide <| · ≠ 0) ((hports.trans hend).rd (not_faults_kept (by decide) (by decide)))).trans L.protSet_prot
  · exact Lane.each_reaches (P := Lane.EnOff p) (fun M => (M.portOffSwitches_off p).1)
      (fun q M hM => ((Lane.Stays.refl .faults M).portOffSwitches Scope.faults_acts.toTurns q).enOff p not_false hM) (List.mem_finRange p) _
  · refine Lane.withdrawPorts_withdraw ?_
    rw [hports.portOf f, show L.protSet.portOf f = L.portOf f by simp only [Lane.portOf, Lane.present, Lane.frec, Lane.img, L.protSet_start]; rfl]
    exact hf

/-- What comes after a lane turn-off leaves it. -/
theorem Lane.turnOffLane_turnedOff (L : Lane) : L.TurnedOff L.turnOffLane :=
  L.laneTurnOff_turnedOff.stays ((Lane.Stays.refl .faults _).ovCaseC Scope.faults_fires) (not_faults_kept (by decide) (by decide)) fun _ => not_false

/-! ### Trips (R279, R280, R283, R285, R292) -/

/-- The fields that show a trip or the fall of a supply. -/
abbrev TripKey (k : Nat) : Prop :=
  k / 64 = 0x20160008 ∨ k = Reg.GD_STAT_VGDOK.key ∨ k = Reg.GD_STAT_BSTOK.key ∨ k = Reg.GD_TRIP_1_BSTUV.key

/-- Everything but those fields may be written; no port is granted and no accusation taken back. -/
def Scope.trips : Scope where
  keys k := ¬TripKey k
  grants _ := False
  drops _ := False
  posts := True

theorem Scope.trips_fires : Scope.trips.Fires where
  turn k hk := by
    simp only [Scope.trips, TripKey, TurnKey, Fld.key, Reg.GD_STAT_EN, Reg.LG_PORT_GRANT, Reg.GD_STAT_BSTARM, Reg.GD_STAT_VGDOK, Reg.GD_STAT_BSTOK,
      Reg.GD_TRIP_1_BSTUV] at *
    omega
  own k hk := fun ht => hk.1 (.inr (.inr (.inr (.inr (.inr (by
    rcases ht with ht | ht | ht | ht
    · exact .inl ht
    · exact .inr (.inr (.inl ht))
    · exact .inr (.inr (.inr (.inl ht)))
    · exact .inr (.inr (.inr (.inr ht)))))))))
  stick k hk := by
    simp only [Scope.trips, TripKey, StickyKey, Fld.key, Reg.GD_STAT_VGDOK, Reg.GD_STAT_BSTOK, Reg.GD_TRIP_1_BSTUV] at *
    omega
  tells := trivial

theorem Scope.trips_acts : Scope.trips.Acts := Scope.trips_fires.toActs

theorem Lane.Stays.rd_trips (h : L.Stays .trips M) {g : Fld} (hg : TripKey g.key) : M.rd g = L.rd g := h.rd (not_not_intro hg)

theorem Lane.Stays.turnOffLane (h : L.Stays .trips M) : L.Stays .trips M.turnOffLane := by
  have hprot : L.Stays .trips M.protSet := h.maybe _ fun _ hN => (hN.wr _ _ (show ¬TripKey _ by decide) (by decide)).restart _ rfl
  have hoff : L.Stays .trips M.laneTurnOff := (hprot.each _ fun p _ _ hN => hN.portOffSwitches Scope.trips_acts.toTurns p).withdrawPorts
  exact hoff.ovCaseC Scope.trips_fires

theorem Lane.Stays.leaveAsc (h : L.Stays S M) (hS : S.Fires) (p : Port) : L.Stays S (M.leaveAsc p) := by
  unfold Lane.leaveAsc
  refine .fire (.wrBit (.gateFollowAll (.restart (.stop (.each (.onGate ?_ fun _ => by rfl) _ fun b _ _ hN => hN.stage1 b) _ (by rfl)) _ (by rfl))) hS.toActs _ _ _
    (by decide)) hS _
  exact h.gateFollowAll.wrBit hS.toActs _ _ _ (by decide)

/-- A trip that excludes its port turns the lane off, and leaves what shows it (R283, R285, R292). -/
theorem Lane.tripPort_does (p : Port) (leaves : Bool) (n : Nat) (L : Lane) :
    L.TurnedOff ((L.tripPort p leaves).fire n) ∧ (L.exclude p).Stays .trips ((L.tripPort p leaves).fire n) := by
  have hleave : (L.exclude p).Stays .trips ((L.exclude p).when (leaves && (L.exclude p).bitOf Reg.GD_STAT_ASC p.val) (Lane.leaveAsc p)) :=
    (Lane.Stays.refl _ _).maybe _ fun _ hN => hN.leaveAsc Scope.trips_fires p
  refine ⟨?_, hleave.turnOffLane.fire Scope.trips_fires n⟩
  obtain ⟨hprot, hen, hwithdraw⟩ := (Lane.turnOffLane_turnedOff _).stays ((Lane.Stays.refl .faults (L.tripPort p leaves)).fire Scope.faults_fires n)
    (not_faults_kept (by decide) (by decide)) fun _ => not_false
  exact ⟨hprot, hen, fun f hf => hwithdraw f (by rw [hleave.portOf f]; exact hf)⟩

/-- What a trip of a port shows: its exclusion, and a bit of a field that shows trips. -/
theorem Lane.tripPort_shows {p : Port} {leaves : Bool} {n i : Nat} {f : Fld} (hf : TripKey f.key) (hi : i < f.w) (L : Lane) :
    vget (((L.wrBit f i true).tripPort p leaves).fire n).gate.excluded p = true ∧ (((L.wrBit f i true).tripPort p leaves).fire n).bitOf f i = true := by
  obtain ⟨-, hstays⟩ := (L.wrBit f i true).tripPort_does p leaves n
  constructor
  · rw [hstays.excluded]
    exact (vget_vupd _ _ _ _).trans (if_pos rfl)
  · rw [Lane.bitOf, hstays.rd_trips hf]
    exact (L.bitOf_wrBit _ _ _ _).trans (by simp [hi])

/-! ### Supplies and grants (R276, R277, R311) -/

/-- The grants of the guard, which write a port's enable, grant and bootstrap arming. -/
def Scope.granting (p : Port → Prop) : Scope where
  keys := TurnKey
  grants := p
  drops _ := False
  posts := False

theorem Scope.granting_turns (p : Port → Prop) : (Scope.granting p).Turns := ⟨fun _ h => h⟩

theorem Lane.Stays.rd_granting {p : Port → Prop} (h : L.Stays (.granting p) M) {g : Fld} (hg : ¬TurnKey g.key) : M.rd g = L.rd g := h.rd hg

theorem Lane.grants_stays (L : Lane) : L.Stays (.granting fun _ => True) L.grants := (Lane.Stays.refl _ L).grants (Scope.granting_turns _) fun _ => trivial

theorem not_turnKey_sticky {n : Nat} (hn : n < 1024) : ¬TurnKey (Reg.FC_STICKY_S (n / 32)).key := by
  simp only [TurnKey, Fld.key, Reg.FC_STICKY_S, Reg.GD_STAT_EN, Reg.LG_PORT_GRANT, Reg.GD_STAT_BSTARM]
  omega

/-- A VGD supply that falls in a port whose gates may be on trips it (R276, R292). -/
theorem Lane.vgdFall_armed {p : Port} (h : L.bitOf Reg.GD_STAT_EN p.val = true) : (L.vgdFall p).bitOf Reg.GD_STAT_VGDOK p.val = false ∧
    (L.vgdFall p).bitOf Reg.GD_TRIP_0_VGDUV p.val = true ∧ (L.vgdFall p).sticky (213 + p.val) = true ∧ (L.vgdFall p).is Reg.GD_STAT_PROT = true ∧
    vget (L.vgdFall p).gate.excluded p = true ∧ ∀ f, (L.portOf f).isSome = true → vget (L.vgdFall p).vote.withdraw f.ix = true := by
  have hfall : L.vgdFall p = ((((L.wrBit Reg.GD_STAT_VGDOK p.val false).wrBit Reg.GD_TRIP_0_VGDUV p.val true).tripPort p true).fire (213 + p.val)).grants := by
    unfold Lane.vgdFall
    dsimp only
    rw [Lane.when_of_true _ _ (by rw [h]; rfl)]
  rw [hfall]
  obtain ⟨⟨hprot, -, hwithdraw⟩, htrip⟩ := ((L.wrBit Reg.GD_STAT_VGDOK p.val false).wrBit Reg.GD_TRIP_0_VGDUV p.val true).tripPort_does p true (213 + p.val)
  obtain ⟨hexcluded, hshown⟩ := (L.wrBit Reg.GD_STAT_VGDOK p.val false).tripPort_shows (p := p) (leaves := true) (n := 213 + p.val) (i := p.val)
    (f := Reg.GD_TRIP_0_VGDUV) (.inl rfl) p.isLt
  have hgrants := ((((L.wrBit Reg.GD_STAT_VGDOK p.val false).wrBit Reg.GD_TRIP_0_VGDUV p.val true).tripPort p true).fire (213 + p.val)).grants_stays
  have hsource : 213 + p.val < 1024 ∧ fixedClass (213 + p.val) ≠ 0 := by fin_cases p <;> decide
  refine ⟨?_, ?_, hgrants.sticky _ hsource.1 (Lane.fire_sticky _ _ hsource.2), ?_, by rw [hgrants.excluded]; exact hexcluded,
    fun f hf => hgrants.withdraw _ (hwithdraw f hf)⟩
  · rw [Lane.bitOf, hgrants.rd_granting (by decide), htrip.rd_trips (by decide)]
    refine (congrArg (nbit · _) (Lane.rd_wr_ne _ _ (by decide))).trans ?_
    exact (L.bitOf_wrBit _ _ _ _).trans (by simp)
  · rw [Lane.bitOf, hgrants.rd_granting (by decide)]
    exact hshown
  · exact (congrArg (decide <| · ≠ 0) (hgrants.rd_granting (by decide))).trans hprot

/-- A VGD supply that falls in a port whose gates are off only shows it. -/
theorem Lane.vgdFall_idle {p : Port} (hen : L.bitOf Reg.GD_STAT_EN p.val = false) (hasc : L.bitOf Reg.GD_STAT_ASC p.val = false) :
    L.vgdFall p = (L.wrBit Reg.GD_STAT_VGDOK p.val false).grants := by
  unfold Lane.vgdFall
  dsimp only
  rw [Lane.when_of_false _ _ (by rw [hen, hasc]; rfl)]

theorem Lane.vgdFall_idle_does {p : Port} (hen : L.bitOf Reg.GD_STAT_EN p.val = false) (hasc : L.bitOf Reg.GD_STAT_ASC p.val = false) :
    (L.vgdFall p).bitOf Reg.GD_STAT_VGDOK p.val = false ∧ (L.vgdFall p).sticky (213 + p.val) = L.sticky (213 + p.val) ∧
      (L.vgdFall p).is Reg.GD_STAT_PROT = L.is Reg.GD_STAT_PROT ∧ (L.vgdFall p).bitOf Reg.GD_TRIP_0_VGDUV p.val = L.bitOf Reg.GD_TRIP_0_VGDUV p.val ∧
      (L.vgdFall p).gate.excluded = L.gate.excluded := by
  have hgrants := (L.wrBit Reg.GD_STAT_VGDOK p.val false).grants_stays
  have hrd {g : Fld} (hg : ¬TurnKey g.key) (hne : Reg.GD_STAT_VGDOK.key ≠ g.key) : (L.wrBit Reg.GD_STAT_VGDOK p.val false).grants.rd g = L.rd g :=
    (hgrants.rd_granting hg).trans (Lane.rd_wr_ne _ _ hne)
  rw [Lane.vgdFall_idle hen hasc]
  refine ⟨?_, congrArg (nbit · _) (hrd (not_turnKey_sticky (by omega)) ?_), congrArg (decide <| · ≠ 0) (hrd (by decide) (by decide)),
    congrArg (nbit · _) (hrd (by decide) (by decide)), hgrants.excluded⟩
  · rw [Lane.bitOf, hgrants.rd_granting (by decide)]
    exact (L.bitOf_wrBit _ _ _ _).trans (by simp)
  · simp only [Fld.key, Reg.FC_STICKY_S, Reg.GD_STAT_VGDOK]
    omega

/-- A bootstrap that falls while it is armed turns the lane off (R277). -/
theorem Lane.bstFall_armed {b : Fin 9} (h : L.bitOf Reg.GD_STAT_BSTARM b.val = true) : (L.bstFall b).bitOf Reg.GD_STAT_BSTOK b.val = false ∧
    (L.bstFall b).bitOf Reg.GD_TRIP_1_BSTUV b.val = true ∧ (L.bstFall b).sticky (216 + b.val) = true ∧ (L.bstFall b).is Reg.GD_STAT_PROT = true ∧
    ∀ f, (L.portOf f).isSome = true → vget (L.bstFall b).vote.withdraw f.ix = true := by
  have hfall : L.bstFall b = (((L.wrBit Reg.GD_STAT_BSTOK b.val false).wrBit Reg.GD_TRIP_1_BSTUV b.val true).turnOffLane).fire (216 + b.val) := by
    unfold Lane.bstFall
    dsimp only
    rw [Lane.when_of_true _ _ h]
  rw [hfall]
  have htrip := ((Lane.Stays.refl .trips ((L.wrBit Reg.GD_STAT_BSTOK b.val false).wrBit Reg.GD_TRIP_1_BSTUV b.val true)).turnOffLane).fire Scope.trips_fires (216 + b.val)
  obtain ⟨hprot, -, hwithdraw⟩ := (Lane.turnOffLane_turnedOff ((L.wrBit Reg.GD_STAT_BSTOK b.val false).wrBit Reg.GD_TRIP_1_BSTUV b.val true)).stays
    ((Lane.Stays.refl .faults _).fire Scope.faults_fires (216 + b.val)) (not_faults_kept (by decide) (by decide)) fun _ => not_false
  refine ⟨?_, ?_, Lane.fire_sticky _ _ (by fin_cases b <;> decide), hprot, hwithdraw⟩
  · rw [Lane.bitOf, htrip.rd_trips (by decide)]
    refine (congrArg (nbit · _) (Lane.rd_wr_ne _ _ (by decide))).trans ?_
    exact (L.bitOf_wrBit _ _ _ _).trans (by simp)
  · rw [Lane.bitOf, htrip.rd_trips (by decide)]
    exact (Lane.bitOf_wrBit _ _ _ _ _).trans (by simp [show b.val < Reg.GD_TRIP_1_BSTUV.w from b.isLt])

/-- A VGD supply or a bootstrap rises (R276, R277). -/
theorem Lane.vgdRise_does (p : Port) (L : Lane) : (L.wrBit Reg.GD_STAT_VGDOK p.val true).grants.bitOf Reg.GD_STAT_VGDOK p.val = true := by
  rw [Lane.bitOf, (L.wrBit Reg.GD_STAT_VGDOK p.val true).grants_stays.rd_granting (by decide)]
  exact (L.bitOf_wrBit _ _ _ _).trans (by simp [show p.val < Reg.GD_STAT_VGDOK.w from p.isLt])

theorem Lane.bstRise_does (b : Fin 9) (L : Lane) : (L.bstRise b).bitOf Reg.GD_STAT_BSTOK b.val = true ∧
    (L.bitOf Reg.GD_STAT_EN (b.val / 3) = true → (L.bstRise b).bitOf Reg.GD_STAT_BSTARM b.val = true) := by
  have hok : (L.bstRise b).rd Reg.GD_STAT_BSTOK = (L.wrBit Reg.GD_STAT_BSTOK b.val true).rd Reg.GD_STAT_BSTOK :=
    Lane.when_proj _ (Lane.wrBit Reg.GD_STAT_BSTARM b.val true) (fun N => N.rd Reg.GD_STAT_BSTOK) (fun _ => Lane.rd_wr_ne _ _ (by decide))
      (L.wrBit Reg.GD_STAT_BSTOK b.val true)
  constructor
  · rw [Lane.bitOf, hok]
    exact (L.bitOf_wrBit _ _ _ _).trans (by simp [show b.val < Reg.GD_STAT_BSTOK.w from b.isLt])
  · intro hen
    have hen' : (L.wrBit Reg.GD_STAT_BSTOK b.val true).bitOf Reg.GD_STAT_EN (b.val / 3) = true :=
      (congrArg (nbit · _) (L.rd_wr_ne _ (by decide))).trans hen
    unfold Lane.bstRise
    dsimp only
    rw [Lane.when_of_true _ _ hen']
    exact (Lane.bitOf_wrBit _ _ _ _ _).trans (by simp [show b.val < Reg.GD_STAT_BSTARM.w from b.isLt])

/-! ### A request line that is lost (R311) -/

theorem Lane.gateFollowAll_regs (L : Lane) : L.gateFollowAll.regs = L.regs := by
  obtain ⟨d, hd⟩ := L.gateFollowAll_drive
  rw [hd]
  rfl

/-- The bit of another port is not touched. -/
theorem Lane.bitOf_wrBit_other {f g : Fld} {p q : Port} {b : Bool} (h : q ≠ p) (hf : f = g ∨ f.key ≠ g.key) (hw : g.w = 3) (L : Lane) :
    (L.wrBit f q.val b).bitOf g p.val = L.bitOf g p.val := by
  rcases hf with rfl | hne
  · rw [Lane.bitOf_wrBit, if_neg fun e => h (Fin.ext e), decide_eq_true (show p.val < f.w by rw [hw]; exact p.isLt), Bool.true_and]
  · exact congrArg (nbit · _) (L.rd_wr_ne _ hne)

theorem Lane.ungrant_other {p q : Port} (h : q ≠ p) (L : Lane) : (L.ungrant q).bitOf Reg.GD_STAT_EN p.val = L.bitOf Reg.GD_STAT_EN p.val := by
  unfold Lane.ungrant
  refine (Lane.when_proj _ _ (fun N => N.bitOf Reg.GD_STAT_EN p.val) (fun N => ?_) _).trans
    ((Lane.each_proj _ _ (fun N => N.bitOf Reg.GD_STAT_EN p.val) (fun b _ N => ?_) _).trans ?_)
  · exact Lane.each_proj _ Lane.withdraw (fun N => N.bitOf Reg.GD_STAT_EN p.val) (fun _ _ _ => rfl) _
  · exact congrArg (nbit · _) (N.rd_wr_ne _ (by decide))
  · exact (Lane.bitOf_wrBit_other h (.inr (by decide)) rfl _).trans (Lane.bitOf_wrBit_other h (.inl rfl) rfl _)

theorem Lane.bitOf_of_regs {M N : Lane} (h : N.regs = M.regs) (f : Fld) (i : Nat) : N.bitOf f i = M.bitOf f i := by
  rw [Lane.bitOf, Lane.bitOf, Lane.rd, Lane.rd, h]

/-- Of the registers, the turn-off of a port's switches writes what the loss of its grant writes. -/
theorem Lane.portOffSwitches_regs (p : Port) (L : Lane) : ∃ N : Lane, N.regs = L.regs ∧ (L.portOffSwitches p).regs = (N.ungrant p).regs := by
  have hgate (g : GateSt → GateSt) (N : Lane) : (N.onGate g).regs = N.regs := rfl
  have hstage (N : Lane) : (N.each (Lane.portSwitches p) Lane.stage1).regs = N.regs := Lane.each_proj _ Lane.stage1 Lane.regs (fun _ _ _ => rfl) N
  unfold Lane.portOffSwitches
  refine ⟨_, ?_, (Lane.gateFollowAll_regs _).trans (hgate _ _)⟩
  refine (Lane.when_proj _ _ Lane.regs (fun N => ?_) _).trans L.gateFollowAll_regs
  refine (Lane.when_proj _ _ Lane.regs (fun K => ?_) _).trans (hstage N)
  rfl

theorem Lane.portTurnOff_other {p q : Port} (h : q ≠ p) (L : Lane) : (L.portTurnOff q).bitOf Reg.GD_STAT_EN p.val = L.bitOf Reg.GD_STAT_EN p.val := by
  obtain ⟨N, hN, hoff⟩ := L.portOffSwitches_regs q
  have hrestart (K : Lane) : (K.restart .gatesOff).regs = K.regs := rfl
  have hwithdraw (fs : List Func) (K : Lane) : (K.each fs Lane.withdraw).regs = K.regs := Lane.each_proj fs Lane.withdraw Lane.regs (fun _ _ _ => rfl) K
  have hregs : (L.portTurnOff q).regs = (L.portOffSwitches q).regs := (hwithdraw _ _).trans (hrestart _)
  rw [Lane.bitOf_of_regs (hregs.trans hoff), Lane.ungrant_other h, Lane.bitOf_of_regs hN]

theorem Lane.grantPort_other {p q : Port} (h : q ≠ p) (L : Lane) : (L.grantPort q).bitOf Reg.GD_STAT_EN p.val = L.bitOf Reg.GD_STAT_EN p.val := by
  unfold Lane.grantPort
  split
  · exact L.portTurnOff_other h
  · split
    · refine (Lane.bitOf_of_regs (Lane.gateFollowAll_regs _) _ _).trans ?_
      refine (Lane.each_proj (Lane.portSwitches q) Lane.switchFree (fun N => N.bitOf Reg.GD_STAT_EN p.val) (fun _ _ _ => rfl) _).trans ?_
      exact (Lane.bitOf_wrBit_other h (.inr (by decide)) rfl _).trans (Lane.bitOf_wrBit_other h (.inl rfl) rfl _)
    · rfl

/-- A turned-off port has neither its enable nor its grant, and the lane withdraws from its function (R95, R311). -/
theorem Lane.portTurnOff_does (p : Port) (L : Lane) : (L.portTurnOff p).EnOff p ∧ (L.portTurnOff p).GrantOff p ∧
    ∀ f, L.funcOfPort p = some f → vget (L.portTurnOff p).vote.withdraw f.ix = true := by
  have hend : (L.portOffSwitches p).Stays .faults (L.portTurnOff p) := ((Lane.Stays.refl _ _).restart _ rfl).each _ fun f _ _ hN => hN.withdraw' f
  obtain ⟨hen, hgrant⟩ := L.portOffSwitches_off p
  refine ⟨hend.enOff p not_false hen, hend.grantOff p not_false hgrant, fun f hf => ?_⟩
  have hfunc : ((L.portOffSwitches p).restart .gatesOff).funcOfPort p = some f :=
    (((Lane.Stays.refl .faults L).portOffSwitches Scope.faults_acts.toTurns p).restart .gatesOff rfl |>.funcOfPort p).trans hf
  unfold Lane.portTurnOff
  dsimp only
  rw [hfunc, ((Lane.restart .gatesOff (L.portOffSwitches p)).each_withdraws _).withdraw f]
  simp

/-- A granted port whose line does not run is turned off. -/
theorem Lane.grantPort_ends {p : Port} (hen : L.bitOf Reg.GD_STAT_EN p.val = true) (hline : L.lineRuns p = false) : L.grantPort p = L.portTurnOff p := by
  unfold Lane.grantPort
  rw [if_pos (by rw [hen, hline]; rfl)]

/-- A port whose line does not run is not granted. -/
theorem Lane.grantPort_withheld {p : Port} (hen : L.bitOf Reg.GD_STAT_EN p.val = false) (hline : L.lineRuns p = false) : L.grantPort p = L := by
  unfold Lane.grantPort
  rw [if_neg (by simp [hen]), if_neg (by simp [hline])]

/-- What the grants leave at a port whose request line is lost (R311). -/
theorem Lane.grants_lost {p : Port} (h : vget L.guardSt.lineLost p = true) :
    vget L.grants.guardSt.lineLost p = true ∧ L.grants.lineRuns p = false ∧ L.grants.EnOff p ∧
      (L.bitOf Reg.GD_STAT_EN p.val = true → L.grants.GrantOff p ∧ ∀ f, L.funcOfPort p = some f → vget L.grants.vote.withdraw f.ix = true) := by
  have hguard : vget L.grants.guardSt.lineLost p = true := by rw [L.grants_stays.guardSt]; exact h
  refine ⟨hguard, by rw [Lane.lineRuns, hguard]; simp, ?_⟩
  obtain ⟨before, after, hbefore, hafter, hsplit⟩ := L.each_split (List.mem_finRange p) (List.nodup_finRange 3) Lane.grantPort
  rw [Lane.grants_eq, hsplit]
  have hstays : L.Stays (.granting fun _ => True) (L.each before Lane.grantPort) :=
    (Lane.Stays.refl _ L).each _ fun q _ _ hN => hN.grantPort (Scope.granting_turns _) trivial
  have hen : (L.each before Lane.grantPort).bitOf Reg.GD_STAT_EN p.val = L.bitOf Reg.GD_STAT_EN p.val :=
    Lane.each_proj _ _ (fun N => N.bitOf Reg.GD_STAT_EN p.val) (fun q hq N => N.grantPort_other fun e => hbefore ((e : q = p) ▸ hq)) L
  have hline : (L.each before Lane.grantPort).lineRuns p = false := by rw [Lane.lineRuns, hstays.guardSt, h]; simp
  have hlater : ((L.each before Lane.grantPort).grantPort p).Stays (.granting (· ≠ p)) (((L.each before Lane.grantPort).grantPort p).each after Lane.grantPort) :=
    (Lane.Stays.refl _ _).each _ fun q hq _ hN => hN.grantPort (Scope.granting_turns _) fun e => hafter ((e : q = p) ▸ hq)
  have hkeep : ¬(Scope.granting (· ≠ p)).grants p := fun e => e rfl
  by_cases hon : L.bitOf Reg.GD_STAT_EN p.val = true
  · rw [Lane.grantPort_ends (hen.trans hon) hline] at hlater ⊢
    obtain ⟨henOff, hgrantOff, hwithdraw⟩ := (L.each before Lane.grantPort).portTurnOff_does p
    exact ⟨hlater.enOff p hkeep henOff, fun _ => ⟨hlater.grantOff p hkeep hgrantOff,
      fun f hf => hlater.withdraw _ (hwithdraw f ((hstays.funcOfPort p).trans hf))⟩⟩
  · have hoff : (L.each before Lane.grantPort).EnOff p := hen.trans (by simpa using hon)
    rw [Lane.grantPort_withheld hoff hline] at hlater ⊢
    exact ⟨hlater.enOff p hkeep hoff, fun e => absurd e hon⟩

end

/-! ### The comparators (R279, R280, R282, R303) -/

section
variable {L : Lane}

theorem Lane.gateFollowAll_portOf (f : Func) (L : Lane) : L.gateFollowAll.portOf f = L.portOf f :=
  ((Lane.Stays.refl .faults L).gateFollowAll).portOf f

/-- What a trip that excludes its port shows: its bit, its source, PROT, the exclusion, no gate enable, and the withdrawals. -/
structure Lane.Tripped (p : Port) (f : Fld) (i n : Nat) (L M : Lane) : Prop where
  shown : M.bitOf f i = true
  sticky : M.sticky n = true
  prot : M.is Reg.GD_STAT_PROT = true
  excluded : vget M.gate.excluded p = true
  enOff : ∀ q : Port, M.EnOff q
  withdraw : ∀ g, (L.portOf g).isSome = true → vget M.vote.withdraw g.ix = true

theorem Lane.tripPort_tripped {p : Port} {leaves : Bool} {f : Fld} {i n : Nat} (hf : TripKey f.key) (hi : i < f.w) (hn : fixedClass n ≠ 0) (L : Lane) :
    L.Tripped p f i n (((L.wrBit f i true).tripPort p leaves).fire n) := by
  obtain ⟨⟨hprot, hen, hwithdraw⟩, -⟩ := (L.wrBit f i true).tripPort_does p leaves n
  obtain ⟨hexcluded, hshown⟩ := L.tripPort_shows (p := p) (leaves := leaves) (n := n) hf hi
  exact ⟨hshown, Lane.fire_sticky _ _ hn, hprot, hexcluded, hen, hwithdraw⟩

theorem Lane.desat_on {b : Fin 18} (h : (vget L.gateFollowAll.gate.drive b).on = true) :
    L.Tripped (Lane.switchPort b) Reg.GD_TRIP_0_DSAT b.val (192 + b.val) (L.desat b) := by
  have hdesat : L.desat b =
      ((L.gateFollowAll.wrBit Reg.GD_TRIP_0_DSAT b.val true).tripPort (Lane.switchPort b) (Lane.lowSide b)).fire (192 + b.val) := by
    unfold Lane.desat
    exact Lane.when_of_true _ _ h
  obtain ⟨hshown, hsticky, hprot, hexcluded, hen, hwithdraw⟩ := Lane.tripPort_tripped (f := Reg.GD_TRIP_0_DSAT) (i := b.val) (n := 192 + b.val)
    (p := Lane.switchPort b) (leaves := Lane.lowSide b) (.inl rfl) b.isLt (by fin_cases b <;> decide) L.gateFollowAll
  rw [hdesat]
  exact ⟨hshown, hsticky, hprot, hexcluded, hen, fun g hg => hwithdraw g (by rwa [Lane.gateFollowAll_portOf])⟩

theorem Lane.desat_off {b : Fin 18} (h : (vget L.gateFollowAll.gate.drive b).on = false) : L.desat b = L.gateFollowAll := by
  unfold Lane.desat
  exact Lane.when_of_false _ _ h

theorem Lane.foc_tripped (p : Port) (L : Lane) : L.Tripped p Reg.GD_TRIP_0_FOC p.val (210 + p.val) (L.foc p) := by
  have hn : fixedClass (210 + p.val) ≠ 0 := by fin_cases p <;> decide
  unfold Lane.foc
  exact L.tripPort_tripped (f := Reg.GD_TRIP_0_FOC) (.inl rfl) p.isLt hn

/-- A command that the guard carries out while it has supply, and its port is not under test. -/
theorem comparator_does {c : Instr} {p : Port} {f : Lane → Lane} {pre : Lane → Prop} {post : Lane → Lane → Prop}
    (he : ∀ s, exec c s = .next (s.onLane (laneOf c) fun L => L.when (L.guardSt.powered && !L.underTest p) f))
    (hpre : ∀ L, pre L → L.guardSt.powered = true ∧ L.underTest p = false) (hp : ∀ L, pre L → post L (f L)) : Does c pre post :=
  does_of _ he fun L h => by
    obtain ⟨hpow, htest⟩ := hpre L h
    rw [Lane.when_of_true _ _ (by rw [hpow, htest]; rfl)]
    exact hp L h

/-- A command that the guard carries out while it has supply. -/
theorem guard_does {c : Instr} {f : Lane → Lane} {pre : Lane → Prop} {post : Lane → Lane → Prop}
    (he : ∀ s, exec c s = .next (s.onLane (laneOf c) fun L => L.when L.guardSt.powered f)) (hpre : ∀ L, pre L → L.guardSt.powered = true)
    (hp : ∀ L, pre L → post L (f L)) : Does c pre post :=
  does_of _ he fun L h => by
    rw [Lane.when_of_true _ _ (hpre L h)]
    exact hp L h

/-- What the fall of a lock-out does (R276, R277). -/
def Lane.supplyFalls (k : Fin 12) (L : Lane) : Lane :=
  if h : k.val < 3 then L.when (!L.underTest ⟨k.val, h⟩) (Lane.vgdFall ⟨k.val, h⟩)
  else L.when (!L.underTest (Fin.ofNat 3 ((k.val - 3) / 3))) (Lane.bstFall (Fin.ofNat 9 (k.val - 3)))

theorem Lane.supplyFalls_vgd {p : Port} (h : L.underTest p = false) : L.supplyFalls (Fin.castLE (by decide) p) = L.vgdFall p :=
  (dif_pos p.isLt).trans (Lane.when_of_true _ _ (by rw [Bool.not_eq_true']; exact h))

theorem Lane.supplyFalls_bst {b : Fin 9} (h : L.underTest (Fin.ofNat 3 (b.val / 3)) = false) : L.supplyFalls (b.natAdd 3) = L.bstFall b := by
  have hk : (b.natAdd 3 : Fin 12).val - 3 = b.val := by simp
  have hb : Fin.ofNat 9 b.val = b := by ext; exact Nat.mod_eq_of_lt b.isLt
  rw [Lane.supplyFalls, dif_neg (by simp), hk, hb, Lane.when_of_true _ _ (by rw [h]; rfl)]

/-- A timer that is started where a condition holds. -/
theorem Lane.when_restart (c : Bool) (t : Timer) (L : Lane) : L.when c (Lane.restart t) = { L with timers := (L.when c (Lane.restart t)).timers } := by
  cases c <;> rfl

/-- The end of stage 1 of a switch changes its stage and timers. -/
theorem Lane.stageEnd_eq (b : Fin 18) (L : Lane) :
    L.stageEnd b = { L.onGate (fun g => { g with stage := vupd g.stage b (fun _ => .stage2) }) with timers := (L.stageEnd b).timers } := by
  unfold Lane.stageEnd
  dsimp only
  rw [Lane.when_restart, Lane.when_restart]

/-- The end of stage 1 of a switch (R282). -/
theorem Lane.stageEnd_does (b : Fin 18) (L : Lane) : (∀ c, vget (L.stageEnd b).gate.stage c = if c = b then .stage2 else vget L.gate.stage c) ∧
    L.stageEnd b = { L with gate := { L.gate with stage := (L.stageEnd b).gate.stage }, timers := (L.stageEnd b).timers } ∧
    ((∀ c, vget (L.stageEnd b).gate.stage c ≠ .stage1) → (L.stageEnd b).timerAt .gatesOff = some L.el) := by
  have hstage : (L.stageEnd b).gate.stage = vupd L.gate.stage b (fun _ => .stage2) := by
    rw [L.stageEnd_eq b]
    rfl
  refine ⟨fun c => ?_, ?_, fun hall => ?_⟩
  · rw [hstage, vget_vupd]
    simp only [eq_comm]
  · rw [hstage]
    exact L.stageEnd_eq b
  · rw [hstage] at hall
    unfold Lane.stageEnd
    dsimp only
    rw [Lane.when_of_true _ _ (decide_eq_true fun c _ => by rw [Lane.when_restart]; exact hall c), Lane.timerAt_restart, if_pos rfl, Lane.when_restart]
    rfl

end

/-- Settles O30: a trip keeps what shows it while the lane turns off, and the grants leave a lost line alone. -/
theorem trips : Obligations.trips := by
  refine ⟨fun l b => comparator_does (fun _ => rfl) (fun _ h => ⟨h.1, h.2.1⟩) fun L h => ?_,
    fun l b => comparator_does (fun _ => rfl) (fun _ h => ⟨h.1, h.2.1⟩) fun L h => ?_,
    fun l p => comparator_does (fun _ => rfl) (fun _ h => h) fun L _ => ?_,
    fun l p => guard_does (f := Lane.supplyFalls (Fin.castLE (by decide) p)) (fun _ => rfl) (fun _ h => h.1) fun L h => ?_,
    fun l p => guard_does (f := Lane.supplyFalls (Fin.castLE (by decide) p)) (fun _ => rfl) (fun _ h => h.1) fun L h => ?_,
    fun l b => guard_does (f := Lane.supplyFalls (b.natAdd 3)) (fun _ => rfl) (fun _ h => h.1) fun L h => ?_,
    fun l k => guard_does (fun _ => rfl) (fun _ h => h) fun L _ => ?_,
    fun l b => does_of (fun L => L.when (decide (vget L.gate.stage b = .stage1)) (Lane.stageEnd b)) (fun _ => rfl) fun L h => ?_,
    fun l p => guard_does (fun _ => rfl) (fun _ h => h.1) fun L h => ?_,
    fun l p => guard_does (fun _ => rfl) (fun _ h => h.1) fun L h => ?_⟩
  · obtain ⟨-, -, hon⟩ := h
    obtain ⟨hshown, hsticky, hprot, hexcluded, hen, hwithdraw⟩ := Lane.desat_on hon
    exact ⟨hshown, hsticky, hprot, hexcluded, fun q _ => hen q, hwithdraw⟩
  · obtain ⟨-, -, hoff⟩ := h
    obtain ⟨d, hd⟩ := L.gateFollowAll_drive
    rw [Lane.desat_off hoff, hd]
    rfl
  · obtain ⟨hshown, hsticky, hprot, hexcluded, hen, hwithdraw⟩ := L.foc_tripped p
    exact ⟨hshown, hsticky, hprot, hexcluded, fun q _ => hen q, hwithdraw⟩
  · obtain ⟨-, htest, hen⟩ := h
    rw [Lane.supplyFalls_vgd htest]
    exact Lane.vgdFall_armed hen
  · obtain ⟨-, htest, hen, hasc⟩ := h
    rw [Lane.supplyFalls_vgd htest]
    exact Lane.vgdFall_idle_does hen hasc
  · obtain ⟨-, htest, harm⟩ := h
    rw [Lane.supplyFalls_bst htest]
    exact Lane.bstFall_armed harm
  · split
    · next hk => exact L.vgdRise_does ⟨k.val, hk⟩
    · next hk =>
      have hb : (Fin.ofNat 9 (k.val - 3)).val = k.val - 3 := Nat.mod_eq_of_lt (by omega)
      have hrise := L.bstRise_does (Fin.ofNat 9 (k.val - 3))
      rw [hb] at hrise
      exact hrise
  · rw [Lane.when_of_true _ _ (decide_eq_true h)]
    exact L.stageEnd_does b
  · obtain ⟨-, hen⟩ := h
    have hlost : vget (L.onGuard (fun g => { g with lineLost := vupd g.lineLost p (fun _ => true) })).guardSt.lineLost p = true :=
      (vget_vupd _ _ _ _).trans (if_pos rfl)
    obtain ⟨hguard, hline, hoff, hgranted⟩ := Lane.grants_lost hlost
    exact ⟨hguard, hline, hoff, (hgranted hen).1, (hgranted hen).2⟩
  · have hlost : vget (L.onGuard (fun g => { g with lineLost := vupd g.lineLost p (fun _ => true) })).guardSt.lineLost p = true :=
      (vget_vupd _ _ _ _).trans (if_pos rfl)
    obtain ⟨hguard, hline, hoff, -⟩ := Lane.grants_lost hlost
    exact ⟨hguard, hline, hoff⟩

end Sys2Proof.Machine

namespace Sys2Proof.Machine

/-! ### What faults leave of the cores and of the guard (R314, R315, R325, R349)

A fault may force the guard, end service, abort a slice and turn ports off. It starts no challenge and no clock timer, and a guard that is
FORCED keeps its cause. `Lane.Weathers L M` says what stands of L in M through all of that. -/

/-- The timers by which the guard judges its clocks, its challenges and the self-tests of a pair. -/
def Timer.judges : Timer → Bool
  | .clkGood | .challenge | .selfTest _ => true
  | _ => false

/-- M came from L by faults: cores at most run again, pairs and the guard's timers are as before, no challenge is pending anew, and a
guard that was FORCED still is, with its cause. -/
structure Lane.Weathers (L M : Lane) : Prop where
  core : ∀ c, vget M.core c = vget L.core c ∨ vget M.core c = { vget L.core c with run := .running }
  pair : M.pair = L.pair
  timerAt : ∀ t, t.judges = true → M.timerAt t = L.timerAt t
  susp : M.rd Reg.LG_CHAL_SUSP = L.rd Reg.LG_CHAL_SUSP
  pend : L.rd Reg.LG_CHAL_PEND = 0 → M.rd Reg.LG_CHAL_PEND = 0
  cause : L.gstate = 3 → M.gstate = 3 ∧ M.rd Reg.LG_STATUS_FCAUSE = L.rd Reg.LG_STATUS_FCAUSE

/-- The fields of LG_STATUS and LG_CHAL. -/
abbrev JudgeKey (k : Nat) : Prop := k / 64 = 0x20170000 ∨ k / 64 = 0x20170010

theorem Lane.Weathers.refl (L : Lane) : L.Weathers L where
  core _ := .inl rfl
  pair := rfl
  timerAt _ _ := rfl
  susp := rfl
  pend h := h
  cause h := ⟨h, rfl⟩

theorem Lane.Weathers.trans {L M N : Lane} (h : L.Weathers M) (k : M.Weathers N) : L.Weathers N where
  core c := by
    rcases h.core c with hc | hc <;> rcases k.core c with kc | kc <;> rw [kc, hc]
    · exact .inl rfl
    · exact .inr rfl
    · exact .inr rfl
    · exact .inr rfl
  pair := k.pair.trans h.pair
  timerAt t ht := (k.timerAt t ht).trans (h.timerAt t ht)
  susp := k.susp.trans h.susp
  pend hp := k.pend (h.pend hp)
  cause hg := ⟨(k.cause (h.cause hg).1).1, (k.cause (h.cause hg).1).2.trans (h.cause hg).2⟩

section
variable {L M : Lane}

namespace Lane.Weathers

/-! #### The updates that faults are built from -/

/-- A change of the register file outside the guard's state and its challenge. -/
theorem regs (h : L.Weathers M) (t : Tab Nat) (ht : ∀ k, JudgeKey k → Tab.get 0 t k = Tab.get 0 M.regs k) : L.Weathers { M with regs := t } := by
  have hrd {g : Fld} (hg : JudgeKey g.key) : ({ M with regs := t } : Lane).rd g = M.rd g := ht _ hg
  refine { h with
    susp := (hrd (by decide)).trans h.susp
    pend := fun hp => (hrd (by decide)).trans (h.pend hp)
    cause := fun hg => ⟨(hrd (by decide)).trans (h.cause hg).1, (hrd (by decide)).trans (h.cause hg).2⟩ }

theorem wr (h : L.Weathers M) (f : Fld) (v : Nat) (hf : ¬JudgeKey f.key) : L.Weathers (M.wr f v) :=
  h.regs _ fun _ hk => Tab.get_put_ne (z := 0) M.regs _ fun e => hf (e ▸ hk)

theorem clr (h : L.Weathers M) (f : Fld) (hf : ¬JudgeKey f.key) : L.Weathers (M.clr f) := h.wr f 0 hf
theorem set1 (h : L.Weathers M) (f : Fld) (hf : ¬JudgeKey f.key) : L.Weathers (M.set1 f) := h.wr f 1 hf
theorem count (h : L.Weathers M) (f : Fld) (n : Nat) (hf : ¬JudgeKey f.key) : L.Weathers (M.count f n) := h.wr f _ hf
theorem wrBit (h : L.Weathers M) (f : Fld) (i : Nat) (b : Bool) (hf : ¬JudgeKey f.key) : L.Weathers (M.wrBit f i b) := h.wr f _ hf

theorem stop (h : L.Weathers M) (t : Timer) (ht : t.judges = false) : L.Weathers (M.stop t) :=
  { h with
    timerAt := fun u hu => by
      rw [Lane.timerAt_stop, if_neg fun e => by rw [e, hu] at ht; cases ht]
      exact h.timerAt u hu }

theorem restart (h : L.Weathers M) (t : Timer) (ht : t.judges = false) : L.Weathers (M.restart t) :=
  { h with
    timerAt := fun u hu => by
      rw [Lane.timerAt_restart, if_neg fun e => by rw [e, hu] at ht; cases ht]
      exact h.timerAt u hu }

/-- A core goes on after its slice. -/
theorem runs (h : L.Weathers M) (c : Core) : L.Weathers (M.onCore c fun x => { x with run := .running }) :=
  { h with
    core := fun d => by
      rw [show vget (M.onCore c _).core d = _ from vget_vupd M.core c d _]
      split
      · rcases h.core d with hd | hd <;> rw [hd] <;> exact .inr rfl
      · exact h.core d }

theorem when (h : L.Weathers M) (b : Bool) {f : Lane → Lane} (hf : L.Weathers (f M)) : L.Weathers (M.when b f) := by
  cases b
  · exact h
  · exact hf

theorem ite {c : Prop} [Decidable c] {A B : Lane} (hA : L.Weathers A) (hB : L.Weathers B) : L.Weathers (if c then A else B) := by
  split
  · exact hA
  · exact hB

theorem each {α : Type} (h : L.Weathers M) (xs : List α) {f : α → Lane → Lane} (hf : ∀ x ∈ xs, ∀ N : Lane, L.Weathers N → L.Weathers (f x N)) :
    L.Weathers (M.each xs f) := by
  unfold Lane.each
  induction xs generalizing M with
  | nil => exact h
  | cons x xs ih => exact ih (hf x List.mem_cons_self M h) fun y hy => hf y (List.mem_cons_of_mem x hy)

theorem withdraw' (h : L.Weathers M) (f : Func) : L.Weathers (M.withdraw f) := { h with }
theorem onGate (h : L.Weathers M) (g : GateSt → GateSt) : L.Weathers (M.onGate g) := { h with }
theorem onDe (h : L.Weathers M) (n : Engine) (g : EngineSt → EngineSt) : L.Weathers (M.onDe n g) := { h with }
theorem onSv (h : L.Weathers M) (n : Fin 4) (g : SolenoidSt → SolenoidSt) : L.Weathers (M.onSv n g) := { h with }
theorem onRet (h : L.Weathers M) (g : Retained → Retained) : L.Weathers (M.onRet g) := { h with }
theorem onDom (h : L.Weathers M) (d : Fin 8) (g : DomainSt → DomainSt) : L.Weathers (M.onDom d g) := { h with }
theorem onSlaz (h : L.Weathers M) (c : Fin 2) (g : SlazSt → SlazSt) : L.Weathers (M.onSlaz c g) := { h with }
theorem wearLines (h : L.Weathers M) (a n : Nat) : L.Weathers (M.wearLines a n) := { h with }

theorem irq (h : L.Weathers M) (i : Irq) : L.Weathers (M.irq i) := by
  unfold Lane.irq
  exact .ite { h with } (.ite h { h with })

theorem gateFollowAll (h : L.Weathers M) : L.Weathers M.gateFollowAll := by
  obtain ⟨d, hd⟩ := M.gateFollowAll_drive
  rw [hd]
  exact { h with }

/-- Descriptors are put on host queues (R434). -/
theorem posts (h : L.Weathers M) {N : Lane} (hp : M.Posts N) : L.Weathers N := by
  have hregs := h.regs N.regs fun k hk => by
    have hr := hp.rd ⟨k / 64, k % 64, 0⟩
    simp only [Lane.rd, Fld.key, Nat.div_add_mod'] at hr
    exact hr (not_postKey (by omega))
  rw [hp.frame]
  exact { hregs with }

/-! #### Gates, service states, commits -/

theorem ungrant (h : L.Weathers M) (p : Port) : L.Weathers (M.ungrant p) := by
  have hoff := (h.wrBit Reg.GD_STAT_EN p.val false (by decide)).wrBit Reg.LG_PORT_GRANT p.val false (by decide)
  have harm := hoff.each [3 * p.val, 3 * p.val + 1, 3 * p.val + 2] (f := fun b => Lane.wrBit Reg.GD_STAT_BSTARM b false)
    fun _ _ _ hN => hN.wrBit _ _ _ (by decide)
  unfold Lane.ungrant
  exact harm.when _ ((harm.onGate _).each _ fun f _ _ hN => hN.withdraw' f)

theorem portOffSwitches (h : L.Weathers M) (p : Port) : L.Weathers (M.portOffSwitches p) := by
  have hstage := h.gateFollowAll.each (Lane.portSwitches p) (f := Lane.stage1) fun _ _ _ hN => hN.onGate _
  unfold Lane.portOffSwitches
  refine .gateFollowAll (.onGate (.ungrant (h.gateFollowAll.when _ ?_) p) _)
  exact hstage.when _ (hstage.restart _ rfl)

theorem sliceAbort (h : L.Weathers M) : L.Weathers M.sliceAbort := by
  have hc := (h.clr Reg.BT_SLICE_STAT_RUNNING (by decide)).count Reg.BT_SLICE_STAT_ABORTS 1 (by decide)
  unfold Lane.sliceAbort
  refine .ite ?_ h
  dsimp only
  split
  · exact (hc.runs 2).runs 3
  · exact hc.onDe _ _
  · exact hc

theorem pdCount (h : L.Weathers M) (d : Fin 8) (who how : Nat) : L.Weathers (M.pdCount d who how) := by
  fin_cases d <;> exact ((h.count _ _ (by decide)).wr _ _ (by decide)).wr _ _ (by decide)

theorem pdClear (h : L.Weathers M) : L.Weathers M.pdClear :=
  h.each _ fun d hd N hN => by
    have hd' := List.mem_range.1 hd
    exact ((hN.clr _ (by interval_cases d <;> decide)).clr _ (by interval_cases d <;> decide)).clr _ (by interval_cases d <;> decide)

theorem pdWake (h : L.Weathers M) (d : Fin 8) (who : Nat) : L.Weathers (M.pdWake d who) := by
  have hw : L.Weathers (M.wr (Lane.pdFld d) 4) := h.wr _ _ (by fin_cases d <;> decide)
  unfold Lane.pdWake
  refine .ite (h.onDom _ _) (.ite (.when (hw.onDom _ _) _ ?_) h)
  exact (hw.onDom _ _).pdCount _ _ _

theorem chopApply (h : L.Weathers M) : L.Weathers M.chopApply := h.wr _ _ (by decide)

theorem setSvc (h : L.Weathers M) (v : Nat) : L.Weathers (M.setSvc v) := by
  have hmode (N : Lane) (hN : L.Weathers N) (x : Nat) : L.Weathers (N.each (List.range 8) (fun d => Lane.wr (Reg.PD_ACCT_MODE d) x)) :=
    hN.each _ fun d hd N hN => hN.wr _ _ (by have hd' := List.mem_range.1 hd; interval_cases d <;> decide)
  have hst (b : Bool) : L.Weathers ((M.when b Lane.sliceAbort).wr Reg.SYS_STATE_STATE v) :=
    (h.when _ h.sliceAbort).wr _ _ (by decide)
  unfold Lane.setSvc
  refine .chopApply (.when ?_ _ (.each ?_ _ fun d _ N hN => hN.pdWake d 19))
  · exact (hst _).when _ (hmode _ (hst _).pdClear _)
  · exact (hst _).when _ (hmode _ (hst _).pdClear _)

theorem commitStart (h : L.Weathers M) (auto : Bool) : L.Weathers (M.commitStart auto) := by
  unfold Lane.commitStart
  exact (((h.wearLines _ _).pdWake 5 19).set1 _ (by decide)).onRet _

theorem autoCommit (h : L.Weathers M) : L.Weathers M.autoCommit := .ite h (.ite (h.onRet _) (h.commitStart true))

/-! #### Withdrawals and solenoids -/

theorem withdrawServed (h : L.Weathers M) (f : Func) : L.Weathers (M.withdrawServed f) := h.when _ (h.withdraw' f)
theorem withdrawAll (h : L.Weathers M) : L.Weathers M.withdrawAll := h.each _ fun f _ _ hN => hN.withdraw' f

theorem parkWatch (h : L.Weathers M) : L.Weathers M.parkWatch := by
  have hp := h.when (!M.parkOff) (h.stop .parkApplied rfl)
  unfold Lane.parkWatch
  exact hp.when _ ((hp.clr _ (by decide)).stop _ rfl)

theorem svApplyAll (h : L.Weathers M) : L.Weathers M.svApplyAll := (h.each _ fun _ _ _ hN => hN.onSv _ _).parkWatch

theorem svForce (h : L.Weathers M) (n : Fin 4) : L.Weathers (M.svForce n) :=
  (((h.onSv _ _).set1 _ (by fin_cases n <;> decide)).onSv _ _).parkWatch

/-! #### Faults -/

theorem setSticky (h : L.Weathers M) {n : Nat} (hn : n < 1024) : L.Weathers (M.setSticky n) :=
  h.wrBit _ _ _ (by simp only [Fld.key, Reg.FC_STICKY_S]; omega)

theorem faultNotice (h : L.Weathers M) (n : Nat) : L.Weathers (M.faultNotice n) :=
  h.each _ fun _ _ N hN => hN.when _ (hN.posts (N.notice_posts _ _ _))

theorem ascEnter (h : L.Weathers M) {fireBlk : Nat → Lane → Lane} (hf : ∀ n < 1024, ∀ N : Lane, L.Weathers N → L.Weathers (fireBlk n N)) (p : Port) :
    L.Weathers (M.ascEnter fireBlk p) := by
  unfold Lane.ascEnter
  refine .ite (h.when _ (hf _ (by omega) _ (h.wrBit _ _ _ (by decide)))) (.ite h ?_)
  have hsw : L.Weathers (M.gateFollowAll.each (Lane.portSwitches p) (fun b => if Lane.lowSide b then Lane.holdOff b else Lane.stage1 b)) :=
    h.gateFollowAll.each _ fun b _ N hN => by
      split
      · exact hN.onGate _
      · exact hN.onGate _
  refine .gateFollowAll (.onGate ?_ _)
  exact ((((hsw.ungrant p).wrBit _ _ _ (by decide)).set1 _ (by decide)).restart _ rfl).restart _ rfl

theorem winterState (h : L.Weathers M) : L.Weathers M.winterState :=
  .ite ((((h.setSvc 6).wr _ _ (by decide)).withdrawAll).autoCommit) h

theorem forceOutputs (h : L.Weathers M) {fireBlk : Nat → Lane → Lane} (hf : ∀ n < 1024, ∀ N : Lane, L.Weathers N → L.Weathers (fireBlk n N)) :
    L.Weathers (M.forceOutputs fireBlk) := by
  unfold Lane.forceOutputs
  refine .svApplyAll (.each (.restart (h.each _ fun p _ N hN => ?_) _ rfl) _ fun n _ N hN => hN.svForce n)
  exact .ite (hN.ascEnter hf p) (hN.portOffSwitches p)

theorem slazStop (h : L.Weathers M) : L.Weathers M.slazStop :=
  h.each _ fun c _ N hN => by
    have hlisten : L.Weathers (N.szListen c) := ((hN.wr _ _ (by fin_cases c <;> decide)).restart _ rfl).onSlaz _ _
    exact hN.when _ (.ite hlisten (hN.wr _ _ (by fin_cases c <;> decide)))

/-- What follows in forcing once the guard's state, its cause and the challenge are written (R314, R325). -/
theorem forceEnds (h : L.Weathers M) {fireBlk : Nat → Lane → Lane} (hf : ∀ n < 1024, ∀ N : Lane, L.Weathers N → L.Weathers (fireBlk n N)) :
    L.Weathers (((M.forceOutputs fireBlk).withdrawAll).winterState).slazStop :=
  (h.forceOutputs hf).withdrawAll.winterState.slazStop

/-- The guard's state, its cause and the challenge are written, where the guard was not FORCED (R314). -/
theorem forceState (h : L.Weathers M) (cause : Nat) (hg : M.gstate ≠ 3) :
    L.Weathers (((M.wr Reg.LG_STATUS_GSTATE 3).wr Reg.LG_STATUS_FCAUSE cause).clr Reg.LG_CHAL_PEND) :=
  { h with
    susp := by
      rw [Lane.clr, Lane.rd_wr_ne _ _ (by decide), Lane.rd_wr_ne _ _ (by decide), Lane.rd_wr_ne _ _ (by decide)]
      exact h.susp
    pend := fun _ => Lane.rd_wr_same _ Reg.LG_CHAL_PEND 0
    cause := fun hL => absurd (h.cause hL).1 hg }

theorem force (h : L.Weathers M) {fireBlk : Nat → Lane → Lane} (hf : ∀ n < 1024, ∀ N : Lane, L.Weathers N → L.Weathers (fireBlk n N)) (cause : Nat) :
    L.Weathers (M.force fireBlk cause) := by
  unfold Lane.force
  split
  · next hc =>
    have hg : M.gstate ≠ 3 := of_decide_eq_true (Bool.and_eq_true_iff.1 hc).2
    exact (h.forceState cause hg).forceEnds hf
  · exact h.winterState.when _ h.winterState.slazStop

theorem reactLight (h : L.Weathers M) (n : Nat) : L.Weathers (M.reactLight n) := by
  have hn := (h.when (nbit (M.reaction n) 0) (h.irq .collector)).when (nbit (M.reaction n) 1)
    ((h.when (nbit (M.reaction n) 0) (h.irq .collector)).faultNotice n)
  have hr := hn.each Func.all (f := fun f L => L.when (nbit (M.reaction n) (2 + f.code)) (Lane.withdrawServed f))
    fun f _ N hN => hN.when _ (hN.withdrawServed f)
  have ho := hr.when (nbit (M.reaction n) 7) (f := fun L => L.each (L.ownFuncs n) Lane.withdrawServed)
    (hr.each _ fun f _ N hN => hN.withdrawServed f)
  exact ho.when _ (ho.each _ fun f _ N hN => hN.withdrawServed f)

theorem fireLight (h : L.Weathers M) {n : Nat} (hn : n < 1024) : L.Weathers (M.fireLight n) := .ite h ((h.setSticky hn).reactLight n)

theorem react (h : L.Weathers M) (n : Nat) : L.Weathers (M.react n) :=
  (h.reactLight n).when _ (.ite ((h.reactLight n).force (fun _ hn _ hN => hN.fireLight hn) 6) (h.reactLight n))

theorem fire (h : L.Weathers M) (n : Nat) : L.Weathers (M.fire n) := by
  unfold Lane.fire
  split
  · exact h
  · next hc => exact .ite h ((h.setSticky (by have := fixedClass_lt hc; omega)).react n)

theorem forced (h : L.Weathers M) (cause : Nat) : L.Weathers (M.forced cause) := h.force (fun n _ _ hN => hN.fire n) cause

end Lane.Weathers

/-- A forcing cause on a guard with supply that is not FORCED: it is FORCED with that cause, and no challenge is pending (R314). -/
theorem Lane.forced_guard {c : Nat} (hc : c < 8) (hp : L.guardSt.powered = true) (hg : L.gstate ≠ 3) :
    (L.forced c).gstate = 3 ∧ (L.forced c).rd Reg.LG_STATUS_FCAUSE = c ∧ (L.forced c).is Reg.LG_CHAL_PEND = false := by
  have hends := (Weathers.refl (((L.wr Reg.LG_STATUS_GSTATE 3).wr Reg.LG_STATUS_FCAUSE c).clr Reg.LG_CHAL_PEND)).forceEnds
    (fireBlk := Lane.fire) fun n _ _ hN => hN.fire n
  have hw : (((L.wr Reg.LG_STATUS_GSTATE 3).wr Reg.LG_STATUS_FCAUSE c).clr Reg.LG_CHAL_PEND).Weathers (L.forced c) := by
    rw [Lane.forced, Lane.force, hp, Bool.true_and, if_pos (decide_eq_true hg)]
    exact hends
  have hstate : (((L.wr Reg.LG_STATUS_GSTATE 3).wr Reg.LG_STATUS_FCAUSE c).clr Reg.LG_CHAL_PEND).gstate = 3 := by
    rw [Lane.gstate, Lane.clr, Lane.rd_wr_ne _ _ (by decide), Lane.rd_wr_ne _ _ (by decide), Lane.rd_wr_same]
    rfl
  have hcause : (((L.wr Reg.LG_STATUS_GSTATE 3).wr Reg.LG_STATUS_FCAUSE c).clr Reg.LG_CHAL_PEND).rd Reg.LG_STATUS_FCAUSE = c := by
    rw [Lane.clr, Lane.rd_wr_ne _ _ (by decide), Lane.rd_wr_same]
    exact Nat.mod_eq_of_lt hc
  exact ⟨(hw.cause hstate).1, (hw.cause hstate).2.trans hcause, by rw [Lane.is, hw.pend (Lane.rd_clr_same _ _)]; rfl⟩

/-- A field that no reaction writes. -/
theorem Lane.Reacts.rd {L M : Lane} (h : L.Reacts M) (g : Fld) (hg : ¬(ReactKey g.key ∨ ModeKey g.key)) : M.rd g = L.rd g :=
  h.regs _ (fun hk => hg (.inl hk)) fun hk => hg (.inr hk)

/-- A field of one bit that no reaction writes. -/
theorem Lane.Reacts.is {L M : Lane} (h : L.Reacts M) (g : Fld) (hg : ¬(ReactKey g.key ∨ ModeKey g.key)) : M.is g = L.is g :=
  Lane.is_congr (h.rd g hg)

/-! #### A field after a change of another -/

theorem Lane.rd_clr_ne (L : Lane) {f g : Fld} (h : f.key ≠ g.key) : (L.clr f).rd g = L.rd g := L.rd_wr_ne 0 h
theorem Lane.rd_set1_ne (L : Lane) {f g : Fld} (h : f.key ≠ g.key) : (L.set1 f).rd g = L.rd g := L.rd_wr_ne 1 h
theorem Lane.rd_count_ne (L : Lane) {f g : Fld} (n : Nat) (h : f.key ≠ g.key) : (L.count f n).rd g = L.rd g := L.rd_wr_ne _ h
theorem Lane.is_set1_ne (L : Lane) {f g : Fld} (h : f.key ≠ g.key) : (L.set1 f).is g = L.is g := Lane.is_congr (L.rd_set1_ne h)
theorem Lane.is_clr_same (L : Lane) (f : Fld) : (L.clr f).is f = false := by rw [Lane.is, Lane.rd_clr_same]; rfl

end
end Sys2Proof.Machine

namespace Sys2Proof.Machine

/-! ### Challenges (R316 to R319) -/

/-- M is L after a miss: it is counted, its source has fired and no challenge is pending (R318). -/
structure Lane.Misses (L M : Lane) : Prop where
  pend : M.is Reg.LG_CHAL_PEND = false
  susp : M.is Reg.LG_CHAL_SUSP = L.is Reg.LG_CHAL_SUSP
  consec : M.rd Reg.LG_WD_STAT_CONSEC = 0
  count : M.rd Reg.LG_WD_STAT_MISSCNT = min 65535 (L.rd Reg.LG_WD_STAT_MISSCNT + 1)
  sticky : M.sticky 256 = true
  early : M.is Reg.LG_WD_STAT_EARLY = L.is Reg.LG_WD_STAT_EARLY
  wrong : M.is Reg.LG_WD_STAT_WRONG = L.is Reg.LG_WD_STAT_WRONG

/-- The fields of LG_WD_STAT are not written by reactions. -/
theorem not_reacts_of_wdStat {k : Nat} (h : k / 64 = 0x2017001C) : ¬(ReactKey k ∨ ModeKey k) := by
  simp only [ReactKey, ModeKey, Fld.key, Reg.SYS_STATE_STATE, Reg.LG_STATUS_GSTATE]
  omega

/-- A miss is counted. -/
theorem Lane.misses_counted (L : Lane) {M : Lane} (hr : (((L.clr Reg.LG_CHAL_PEND).clr Reg.LG_WD_STAT_CONSEC).count Reg.LG_WD_STAT_MISSCNT 1).Reacts M)
    (hw : (((L.clr Reg.LG_CHAL_PEND).clr Reg.LG_WD_STAT_CONSEC).count Reg.LG_WD_STAT_MISSCNT 1).Weathers M) (hs : M.sticky 256 = true) :
    L.Misses M where
  pend := by
    rw [Lane.is, hw.pend]
    · rfl
    · rw [Lane.rd_count_ne _ _ (by decide), Lane.rd_clr_ne _ (by decide), Lane.rd_clr_same]
  susp := Lane.is_congr (by
    rw [hw.susp, Lane.rd_count_ne _ _ (by decide), Lane.rd_clr_ne _ (by decide), Lane.rd_clr_ne _ (by decide)])
  consec := by rw [hr.rd _ (not_reacts_of_wdStat rfl), Lane.rd_count_ne _ _ (by decide), Lane.rd_clr_same]
  count := by
    rw [hr.rd _ (not_reacts_of_wdStat rfl), Lane.rd_count_same, Lane.rd_clr_ne _ (by decide), Lane.rd_clr_ne _ (by decide)]
    rfl
  sticky := hs
  early := Lane.is_congr (by
    rw [hr.rd _ (not_reacts_of_wdStat rfl), Lane.rd_count_ne _ _ (by decide), Lane.rd_clr_ne _ (by decide), Lane.rd_clr_ne _ (by decide)])
  wrong := Lane.is_congr (by
    rw [hr.rd _ (not_reacts_of_wdStat rfl), Lane.rd_count_ne _ _ (by decide), Lane.rd_clr_ne _ (by decide), Lane.rd_clr_ne _ (by decide)])

/-- The first-miss mark is none of them. -/
theorem Lane.Misses.miss1 {L M : Lane} (h : L.Misses M) : L.Misses (M.set1 Reg.LG_WD_STAT_MISS1) where
  pend := (M.is_set1_ne (by decide)).trans h.pend
  susp := (M.is_set1_ne (by decide)).trans h.susp
  consec := (M.rd_set1_ne (by decide)).trans h.consec
  count := (M.rd_set1_ne (by decide)).trans h.count
  sticky := by
    rw [Lane.sticky, Lane.bitOf, M.rd_set1_ne (by decide)]
    exact h.sticky
  early := (M.is_set1_ne (by decide)).trans h.early
  wrong := (M.is_set1_ne (by decide)).trans h.wrong

theorem Lane.missed_misses (L : Lane) : L.Misses L.missed := by
  have hr := Lane.fire_reacts 256 (.refl (((L.clr Reg.LG_CHAL_PEND).clr Reg.LG_WD_STAT_CONSEC).count Reg.LG_WD_STAT_MISSCNT 1))
  have hw := (Lane.Weathers.refl (((L.clr Reg.LG_CHAL_PEND).clr Reg.LG_WD_STAT_CONSEC).count Reg.LG_WD_STAT_MISSCNT 1)).fire 256
  have hs := Lane.fire_sticky (((L.clr Reg.LG_CHAL_PEND).clr Reg.LG_WD_STAT_CONSEC).count Reg.LG_WD_STAT_MISSCNT 1) 256 (by decide)
  have hmiss := L.misses_counted hr hw hs
  unfold Lane.missed
  dsimp only
  split
  · exact hmiss
  split
  · exact L.misses_counted (Lane.forced_reacts 4 hr) (hw.forced 4) ((Lane.forced_reacts 4 (.refl _)).sticky 256 (by decide) hs)
  · exact hmiss.miss1

/-! #### The issue of a challenge -/

theorem challengeIssue_does {l : LaneId} {pre : Lane → Prop} {post : Lane → Lane → Prop}
    (hpre : ∀ L, pre L → L.guardSt.powered = true ∧ L.guardSt.running = true ∧ L.guardSt.rcLost = false ∧ L.gstate ≠ 3 ∧
      L.is Reg.LG_CHAL_SUSP = false ∧ L.is Reg.LG_CHAL_PEND = false)
    (hpost : ∀ L, pre L → post L L.issue) : Does (.challengeIssue l) pre post := by
  refine does_of _ (fun _ => rfl) fun L h => ?_
  obtain ⟨hp, hrun, hrc, hg, hsusp, hpend⟩ := hpre L h
  rw [Lane.when_of_true _ _ (by simp [Lane.challenges, hp, hrun, hrc, hg, hsusp])]
  simp only [hpend, Lane.when_of_false, Lane.when_of_true _ _ (decide_eq_true hg)]
  exact hpost L h

/-- Every challenge after the first carries the next value and number (R316). -/
theorem Lane.issue_next {L : Lane} {c : BitVec 16} (hc : L.guardSt.lfsr = some c) :
    L.issue = ((L.onGuard fun g => { g with
      lfsr := some (lfsrNext c), num := (L.guardSt.num + 1) % 256, judge := (L.rd Reg.LG_WD_OPEN, L.rd Reg.LG_WD_CLOSE, L.rd Reg.LG_WD_KEY) }).set1
        Reg.LG_CHAL_PEND).restart .challenge := by
  simp only [Lane.issue, Lane.nextChallenge, hc, Option.isNone_some, Bool.false_eq_true, if_false]

/-- The first challenge after a power-on carries a seed that is not 0 and the number 0 (R316). -/
theorem Lane.issue_first {L : Lane} (hc : L.guardSt.lfsr = none) :
    L.issue.guardSt.lfsr = some (BitVec.ofNat 16 (L.free .challengeSeed % 65535 + 1)) ∧ L.issue.guardSt.num = 0 ∧
      L.issue.is Reg.LG_CHAL_PEND = true := by
  simp only [Lane.issue, Lane.nextChallenge, hc, Option.isNone_none, if_true]
  exact ⟨rfl, rfl, Lane.is_set1_same (Lane.onGuard _ L.drawn) Reg.LG_CHAL_PEND (by decide)⟩

/-- A seed is never 0 (R316). -/
theorem challengeSeed_ne_zero (x : Nat) : BitVec.ofNat 16 (x % 65535 + 1) ≠ 0 := by
  intro h
  have := congrArg BitVec.toNat h
  simp at this
  omega

/-! #### The verdicts on an answer -/

theorem lgAnswerWrite_does {l : LaneId} {n : Byte} {a : BitVec 16} {dt : Nat} {pre : Lane → Prop} {post : Lane → Lane → Prop}
    (hpre : ∀ L, pre L → L.firmware = true ∧ L.pairLive 0 = true) (hpost : ∀ L, pre L → post L ((L.pass dt).judgeAnswer n.toNat a)) :
    Does (.lgAnswerWrite l 0 n a dt) pre post := by
  refine does_of (fun L => (L.pass dt).byPair 0 (Lane.judgeAnswer n.toNat a)) (fun _ => rfl) fun L h => ?_
  obtain ⟨hfirm, hlive⟩ := hpre L h
  rw [Lane.byPair_of_live (L := L.pass dt) hfirm hlive, if_pos rfl]
  exact hpost L h

/-- An answer to another challenge or after CLOSE is late (R317). -/
theorem Lane.judgeAnswer_late {n : Nat} {a : BitVec 16} {L : Lane} (hsusp : L.is Reg.LG_CHAL_SUSP = false)
    (hlate : n ≠ L.guardSt.num ∨ L.guardSt.judge.2.1 * 10000 < L.el - (L.timerAt .challenge).getD 0) :
    L.judgeAnswer n a = L.set1 Reg.LG_WD_STAT_LATE := by
  simp only [Lane.judgeAnswer, hsusp, Bool.false_eq_true, if_false]
  rw [if_pos]
  simp only [Bool.or_eq_true, decide_eq_true_eq]
  tauto

section
variable {n : Nat} {a c : BitVec 16} {L : Lane} (hsusp : L.is Reg.LG_CHAL_SUSP = false) (hc : L.guardSt.lfsr = some c) (hn : n = L.guardSt.num)
  (hclose : L.el - (L.timerAt .challenge).getD 0 ≤ L.guardSt.judge.2.1 * 10000)
include hsusp hc hn hclose

/-- The verdict on an answer to the challenge that stands, before CLOSE (R317). -/
theorem Lane.judgeAnswer_inTime : L.judgeAnswer n a =
    if !L.is Reg.LG_CHAL_PEND then L.set1 Reg.LG_WD_STAT_EXTRA
    else if L.el - (L.timerAt .challenge).getD 0 < L.guardSt.judge.1 * 10000 then (L.set1 Reg.LG_WD_STAT_EARLY).missed
    else if a = answerOf (BitVec.ofNat 16 L.guardSt.judge.2.2) c n then L.correct else (L.set1 Reg.LG_WD_STAT_WRONG).missed := by
  simp only [Lane.judgeAnswer, hsusp, Bool.false_eq_true, if_false, hc, Option.getD_some, Option.isNone_some, decide_eq_false (not_not.2 hn),
    decide_eq_false (not_lt.2 hclose), Bool.or_self]

theorem Lane.judgeAnswer_extra (hpend : L.is Reg.LG_CHAL_PEND = false) : L.judgeAnswer n a = L.set1 Reg.LG_WD_STAT_EXTRA := by
  rw [Lane.judgeAnswer_inTime hsusp hc hn hclose, hpend]
  rfl

section
variable (hpend : L.is Reg.LG_CHAL_PEND = true)
include hpend

theorem Lane.judgeAnswer_early (hopen : L.el - (L.timerAt .challenge).getD 0 < L.guardSt.judge.1 * 10000) :
    L.judgeAnswer n a = (L.set1 Reg.LG_WD_STAT_EARLY).missed := by
  rw [Lane.judgeAnswer_inTime hsusp hc hn hclose, hpend, if_pos hopen]
  rfl

variable (hopen : L.guardSt.judge.1 * 10000 ≤ L.el - (L.timerAt .challenge).getD 0)
include hopen

theorem Lane.judgeAnswer_correct (ha : a = answerOf (BitVec.ofNat 16 L.guardSt.judge.2.2) c n) : L.judgeAnswer n a = L.correct := by
  rw [Lane.judgeAnswer_inTime hsusp hc hn hclose, hpend, if_neg (not_lt.2 hopen), if_pos ha]
  rfl

theorem Lane.judgeAnswer_wrong (ha : a ≠ answerOf (BitVec.ofNat 16 L.guardSt.judge.2.2) c n) :
    L.judgeAnswer n a = (L.set1 Reg.LG_WD_STAT_WRONG).missed := by
  rw [Lane.judgeAnswer_inTime hsusp hc hn hclose, hpend, if_neg (not_lt.2 hopen), if_neg ha]
  rfl

end
end

/-- Without an arming nothing advances (R53). -/
theorem Lane.armAdvance_of_step_zero {L : Lane} (h : L.rd Reg.SYS_ARM_STEP = 0) : L.armAdvance = L := by
  simp [Lane.armAdvance, Lane.tryStep3, Lane.tryStep4, Lane.tryChain, h]

/-- A right answer without an arming (R317). -/
theorem Lane.correct_of_step_zero {L : Lane} (h : L.rd Reg.SYS_ARM_STEP = 0) :
    L.correct = (((L.clr Reg.LG_CHAL_PEND).count Reg.LG_WD_STAT_CONSEC 1).clr Reg.LG_WD_STAT_MISS1).onGuard fun g => { g with answered := true } := by
  refine Lane.armAdvance_of_step_zero ?_
  have hset : (((L.clr Reg.LG_CHAL_PEND).count Reg.LG_WD_STAT_CONSEC 1).clr Reg.LG_WD_STAT_MISS1).rd Reg.SYS_ARM_STEP = 0 := by
    rw [Lane.rd_clr_ne _ (by decide), Lane.rd_count_ne _ _ (by decide), Lane.rd_clr_ne _ (by decide), h]
  exact hset

/-- A right answer is counted and clears the first miss (R317). -/
theorem Lane.correct_counts {L : Lane} (h : L.rd Reg.SYS_ARM_STEP = 0) :
    L.correct.is Reg.LG_CHAL_PEND = false ∧ L.correct.is Reg.LG_WD_STAT_MISS1 = false ∧ L.correct.guardSt.answered = true ∧
      L.correct.rd Reg.LG_WD_STAT_CONSEC = min (2 ^ Fld.w Reg.LG_WD_STAT_CONSEC - 1) (L.rd Reg.LG_WD_STAT_CONSEC + 1) ∧
      L.correct.rd Reg.LG_WD_STAT_MISSCNT = L.rd Reg.LG_WD_STAT_MISSCNT := by
  have hpend : (((L.clr Reg.LG_CHAL_PEND).count Reg.LG_WD_STAT_CONSEC 1).clr Reg.LG_WD_STAT_MISS1).rd Reg.LG_CHAL_PEND = 0 := by
    rw [Lane.rd_clr_ne _ (by decide), Lane.rd_count_ne _ _ (by decide), Lane.rd_clr_same]
  have hconsec : (((L.clr Reg.LG_CHAL_PEND).count Reg.LG_WD_STAT_CONSEC 1).clr Reg.LG_WD_STAT_MISS1).rd Reg.LG_WD_STAT_CONSEC =
      satUp (2 ^ Fld.w Reg.LG_WD_STAT_CONSEC - 1) (L.rd Reg.LG_WD_STAT_CONSEC) 1 := by
    rw [Lane.rd_clr_ne _ (by decide), Lane.rd_count_same, Lane.rd_clr_ne _ (by decide)]
  have hcount : (((L.clr Reg.LG_CHAL_PEND).count Reg.LG_WD_STAT_CONSEC 1).clr Reg.LG_WD_STAT_MISS1).rd Reg.LG_WD_STAT_MISSCNT =
      L.rd Reg.LG_WD_STAT_MISSCNT := by
    rw [Lane.rd_clr_ne _ (by decide), Lane.rd_count_ne _ _ (by decide), Lane.rd_clr_ne _ (by decide)]
  rw [Lane.correct_of_step_zero h]
  refine ⟨?_, Lane.is_clr_same ((L.clr Reg.LG_CHAL_PEND).count Reg.LG_WD_STAT_CONSEC 1) _, rfl, hconsec, hcount⟩
  exact (congrArg (fun x => decide (x ≠ 0)) hpend).trans rfl

/-! #### The windows -/

theorem challengeWindowClose_misses (l : LaneId) : Does (.challengeWindowClose l)
    (fun L => L.guardSt.powered = true ∧ L.guardSt.running = true ∧ L.guardSt.rcLost = false ∧ L.gstate ≠ 3 ∧ L.is Reg.LG_CHAL_PEND = true)
    Lane.Misses := by
  refine does_of _ (fun _ => rfl) fun L h => ?_
  obtain ⟨hp, hrun, hrc, hg, hpend⟩ := h
  rw [Lane.when_of_true _ _ (by simp [Lane.challenges, hp, hrun, hrc, hg, hpend])]
  exact L.missed_misses

theorem selfTestAllowanceTimeout_misses (l : LaneId) (dt : Nat) : Does (.selfTestAllowanceTimeout l dt)
    (fun L => L.guardSt.powered = true ∧ L.guardSt.running = true ∧ L.guardSt.rcLost = false ∧ L.gstate ≠ 3 ∧ L.is Reg.LG_CHAL_SUSP = true ∧
      (L.pass dt).due (.selfTest 0) 3500000 = true)
    (fun L M => ((L.pass dt).clr Reg.LG_CHAL_SUSP).Misses M) := by
  refine does_of _ (fun _ => rfl) fun L h => ?_
  obtain ⟨hp, hrun, hrc, hg, hsusp, hdue⟩ := h
  have hgrid : (L.pass dt).challenges = true := by
    rw [show (L.pass dt).challenges = L.challenges from rfl]
    simp [Lane.challenges, hp, hrun, hrc, hg]
  rw [Lane.when_of_true _ _ (by rw [hgrid, hdue, show (L.pass dt).is Reg.LG_CHAL_SUSP = true from hsusp]; rfl)]
  exact Lane.missed_misses _

/-- Settles O33: a challenge carries the next value and number, an answer gets the verdict of its window, and a window that closes
without one is a miss. -/
theorem challengeGrid : Obligations.challenge_grid := by
  refine ⟨fun l c => challengeIssue_does (fun L h => ?_) fun L h => ?_, fun l => challengeIssue_does (fun L h => ?_) fun L h => ?_,
    fun l n a c dt => lgAnswerWrite_does (fun L h => ⟨h.1, h.2.1⟩) fun L h => ?_,
    fun l n a c dt => lgAnswerWrite_does (fun L h => ⟨h.1, h.2.1⟩) fun L h => ?_,
    fun l n a c dt => lgAnswerWrite_does (fun L h => ⟨h.1, h.2.1⟩) fun L h => ?_,
    fun l n a dt => lgAnswerWrite_does (fun L h => ⟨h.1, h.2.1⟩) fun L h => ?_,
    fun l n a c dt => lgAnswerWrite_does (fun L h => ⟨h.1, h.2.1⟩) fun L h => ?_, fun l n a dt => ?_,
    fun l => (challengeWindowClose_misses l).mono (fun _ h => h) fun L M _ hM => ⟨hM.pend, hM.consec, hM.count, hM.sticky⟩,
    fun l dt => (selfTestAllowanceTimeout_misses l dt).mono (fun _ h => h) fun L M _ hM => ⟨?_, hM.consec, ?_, hM.sticky⟩⟩
  · obtain ⟨hp, hrun, hrc, hg, hsusp, hpend, -⟩ := h
    exact ⟨hp, hrun, hrc, hg, hsusp, hpend⟩
  · obtain ⟨-, -, -, -, -, -, hc⟩ := h
    rw [Lane.issue_next hc]
    refine ⟨rfl, rfl, rfl, Lane.is_set1_same (Lane.onGuard _ L) Reg.LG_CHAL_PEND (by decide), ?_, rfl⟩
    rw [Lane.timerAt_restart, if_pos rfl]
    rfl
  · obtain ⟨hp, hrun, hrc, hg, hsusp, hpend, -⟩ := h
    exact ⟨hp, hrun, hrc, hg, hsusp, hpend⟩
  · obtain ⟨-, -, -, -, -, -, hc⟩ := h
    obtain ⟨hseed, hnum, hpend⟩ := Lane.issue_first hc
    exact ⟨⟨_, hseed, challengeSeed_ne_zero _⟩, hnum, hpend⟩
  · obtain ⟨-, -, hsusp, hc, hn, hclose, hpend, hopen, ha, hstep⟩ := h
    rw [Lane.judgeAnswer_correct (L := L.pass dt) hsusp hc hn hclose hpend hopen ha]
    exact Lane.correct_counts (L := L.pass dt) hstep
  · obtain ⟨-, -, hsusp, hc, hn, hclose, hpend, hopen⟩ := h
    rw [Lane.judgeAnswer_early (L := L.pass dt) hsusp hc hn hclose hpend hopen]
    have hM := ((L.pass dt).set1 Reg.LG_WD_STAT_EARLY).missed_misses
    refine ⟨hM.early.trans (Lane.is_set1_same _ _ (by decide)), hM.pend, hM.consec, ?_, hM.sticky⟩
    rw [hM.count, Lane.rd_set1_ne _ (by decide)]
    rfl
  · obtain ⟨-, -, hsusp, hc, hn, hclose, hpend, hopen, ha⟩ := h
    rw [Lane.judgeAnswer_wrong (L := L.pass dt) hsusp hc hn hclose hpend hopen ha]
    have hM := ((L.pass dt).set1 Reg.LG_WD_STAT_WRONG).missed_misses
    refine ⟨hM.wrong.trans (Lane.is_set1_same _ _ (by decide)), hM.pend, hM.consec, ?_, hM.sticky⟩
    rw [hM.count, Lane.rd_set1_ne _ (by decide)]
    rfl
  · obtain ⟨-, -, hsusp, hlate⟩ := h
    rw [Lane.judgeAnswer_late (L := L.pass dt) hsusp hlate]
    exact ⟨Lane.is_set1_same _ _ (by decide), rfl, fun g hg => (L.pass dt).rd_set1_ne (Ne.symm hg)⟩
  · obtain ⟨-, -, hsusp, hc, hn, hclose, hpend⟩ := h
    rw [Lane.judgeAnswer_extra (L := L.pass dt) hsusp hc hn hclose hpend]
    exact ⟨Lane.is_set1_same _ _ (by decide), rfl, fun g hg => (L.pass dt).rd_set1_ne (Ne.symm hg)⟩
  · refine does_of (fun L => (L.pass dt).byPair 1 (Lane.judgeAnswer n.toNat a)) (fun _ => rfl) fun L h => ?_
    rw [Lane.byPair_of_live (L := L.pass dt) h.1 h.2, if_neg (by decide)]
    exact ⟨Lane.fire_reacts 20 (.refl _), Lane.fire_sticky _ 20 (by decide)⟩
  · rw [hM.susp, Lane.is_clr_same]
  · rw [hM.count, Lane.rd_clr_ne _ (by decide)]
    rfl

end Sys2Proof.Machine

namespace Sys2Proof.Machine

/-! ### Sources that do not name WINTER (R345 to R349) -/

/-- A withdrawal writes no field. -/
theorem Lane.withdrawServed_rd (f : Func) (L : Lane) (g : Fld) : (L.withdrawServed f).rd g = L.rd g :=
  Lane.when_proj _ (Lane.withdraw f) (Lane.rd · g) (fun _ => rfl) L

theorem Lane.irq_rd (i : Irq) (L : Lane) (g : Fld) : (L.irq i).rd g = L.rd g := by
  rw [Lane.rd, (L.irq_fields i).2.2.1, Lane.rd]

/-- A reaction but for WINTER writes fields of host queues only. -/
theorem Lane.reactLight_rd (n : Nat) (L : Lane) {g : Fld} (hg : ¬PostKey g.key) : (L.reactLight n).rd g = L.rd g := by
  have hnotice (M : Lane) : (M.faultNotice n).rd g = M.rd g :=
    Lane.each_proj _ _ (Lane.rd · g) (fun h _ M => Lane.when_proj _ _ (Lane.rd · g) (fun M => (M.notice_posts h _ _).rd g hg) M) M
  have hall (fs : List Func) (M : Lane) : (M.each fs Lane.withdrawServed).rd g = M.rd g :=
    Lane.each_proj _ _ (Lane.rd · g) (fun f _ M => M.withdrawServed_rd f g) M
  unfold Lane.reactLight
  dsimp only
  rw [Lane.when_proj _ _ (Lane.rd · g) fun M => hall _ M, Lane.when_proj _ _ (Lane.rd · g) fun M => hall _ M,
    Lane.each_proj _ _ (Lane.rd · g) fun f _ M => Lane.when_proj _ _ (Lane.rd · g) (fun M => M.withdrawServed_rd f g) M,
    Lane.when_proj _ _ (Lane.rd · g) hnotice, Lane.when_proj _ _ (Lane.rd · g) fun M => M.irq_rd _ g]

theorem Lane.setSticky_rd {n : Nat} (hn : n < 1024) (L : Lane) {g : Fld} (hg : ¬StickyKey g.key) : (L.setSticky n).rd g = L.rd g :=
  L.rd_wr_ne _ fun e => hg (by rw [← e]; simp only [StickyKey, Fld.key, Reg.FC_STICKY_S]; omega)

/-- The severity of a source names one of eight reactions (R74). -/
theorem Lane.severity_lt (L : Lane) (n : Nat) : L.severity n < 8 := by
  unfold Lane.severity
  split <;> omega

/-- The fields by which a source finds its reaction: the accepted features, the collector's mode and its reactions (R42, R347, R351 to R353). -/
abbrev RuleKey (k : Nat) : Prop :=
  k = Reg.SYS_FEAT_CTRL_LOCK.key ∨ k = (Reg.SYS_FEAT_ACCEPT 0).key ∨ k = Reg.FC_STATUS_MODE.key ∨ (0x200300A0 ≤ k / 64 ∧ k / 64 < 0x200300C0)

theorem Lane.reaction_wr {f : Fld} (hf : ¬RuleKey f.key) (v n : Nat) (L : Lane) : (L.wr f v).reaction n = L.reaction n := by
  have hrd {g : Fld} (hg : RuleKey g.key) : (L.wr f v).rd g = L.rd g := L.rd_wr_ne v fun e => hf (e ▸ hg)
  have hreact : (L.wr f v).rd (Reg.FC_REACT (L.severity n)) = L.rd (Reg.FC_REACT (L.severity n)) :=
    hrd (by have := L.severity_lt n; simp only [Fld.key, Reg.FC_REACT]; omega)
  have hmode : (L.wr f v).severityMode = L.severityMode := by
    simp only [Lane.severityMode, Lane.feature, Lane.is]
    rw [hrd (g := Reg.FC_STATUS_MODE) (by decide), hrd (g := Reg.SYS_FEAT_CTRL_LOCK) (by decide), hrd (g := Reg.SYS_FEAT_ACCEPT (5 / 32)) (by decide)]
  rw [Lane.reaction, hmode, show (L.wr f v).severity n = L.severity n from rfl, hreact]
  rfl

/-- A source whose reaction does not name WINTER writes its bit and host queues only. -/
theorem Lane.fire_light_rd {n : Nat} {L : Lane} (hw : nbit (L.reaction n) 9 = false) {g : Fld} (hp : ¬PostKey g.key) (hs : ¬StickyKey g.key) :
    (L.fire n).rd g = L.rd g := by
  unfold Lane.fire
  split
  · rfl
  next hc =>
  have hn : n < 1024 := by have := fixedClass_lt hc; omega
  split
  · rfl
  have hreact : (L.setSticky n).reaction n = L.reaction n :=
    L.reaction_wr (by simp only [RuleKey, Fld.key, Reg.FC_STICKY_S, Reg.SYS_FEAT_CTRL_LOCK, Reg.SYS_FEAT_ACCEPT, Reg.FC_STATUS_MODE]; omega) _ n
  rw [Lane.react, hreact, hw]
  exact ((L.setSticky n).reactLight_rd n hp).trans (L.setSticky_rd hn hs)

/-! ### The guard's clocks (R322 to R326) -/

/-- A clock of the guard, as LG_STATUS shows it (R334). -/
abbrev ClockFld (flag : Fld) : Prop := flag = Reg.LG_STATUS_LDCLK ∨ flag = Reg.LG_STATUS_RCCLK

/-- A lost clock forces the guard and ends the wait for CLKGOOD (R324, R326). -/
theorem Lane.clockLost_forces {flag : Fld} {c : Nat} {L : Lane} (hflag : ClockFld flag) (hc : c < 8) (hp : L.guardSt.powered = true) (hg : L.gstate ≠ 3) :
    (L.clockLost flag c).is flag = false ∧ (L.clockLost flag c).is Reg.LG_STATUS_CLKGOOD = false ∧ (L.clockLost flag c).gstate = 3 ∧
      (L.clockLost flag c).rd Reg.LG_STATUS_FCAUSE = c ∧ (L.clockLost flag c).running .clkGood = false ∧
      (((L.clr flag).clr Reg.LG_STATUS_CLKGOOD).stop .clkGood).Reacts (L.clockLost flag c) := by
  have hr := Lane.forced_reacts c (.refl (((L.clr flag).clr Reg.LG_STATUS_CLKGOOD).stop .clkGood))
  have hw := (Lane.Weathers.refl (((L.clr flag).clr Reg.LG_STATUS_CLKGOOD).stop .clkGood)).forced c
  have hstate : (((L.clr flag).clr Reg.LG_STATUS_CLKGOOD).stop .clkGood).gstate = L.gstate := by
    rw [Lane.gstate, Lane.rd_stop, Lane.rd_clr_ne _ (by decide), Lane.rd_clr_ne _ (by rcases hflag with rfl | rfl <;> decide), Lane.gstate]
  obtain ⟨hforced, hcause, -⟩ := Lane.forced_guard (L := ((L.clr flag).clr Reg.LG_STATUS_CLKGOOD).stop .clkGood) hc hp (by rwa [hstate])
  refine ⟨?_, ?_, hforced, hcause, ?_, hr⟩
  · rw [Lane.clockLost, hr.is _ (by rcases hflag with rfl | rfl <;> (unfold ReactKey ModeKey; decide)), Lane.is, Lane.rd_stop,
      Lane.rd_clr_ne _ (by rcases hflag with rfl | rfl <;> decide), Lane.rd_clr_same]
    rfl
  · rw [Lane.clockLost, hr.is _ (by unfold ReactKey ModeKey; decide), Lane.is_stop, Lane.is_clr_same]
  · rw [Lane.running, Lane.clockLost, hw.timerAt .clkGood rfl]
    exact Lane.running_stop_same _ _

theorem ckwMissingEdge_forces (l : LaneId) : Does (.ckwMissingEdge l)
    (fun L => L.guardSt.powered = true ∧ L.gstate ≠ 3)
    (fun _ M => M.is Reg.LG_STATUS_LDCLK = false ∧ M.is Reg.LG_STATUS_CLKGOOD = false ∧ M.gstate = 3 ∧ M.rd Reg.LG_STATUS_FCAUSE = 1 ∧
      M.running .clkGood = false) := by
  refine does_of _ (fun _ => rfl) fun L h => ?_
  obtain ⟨hp, hg⟩ := h
  obtain ⟨hflag, hgood, hstate, hcause, htimer, -⟩ := Lane.clockLost_forces (.inl rfl) (c := 1) (by decide) hp hg
  rw [Lane.when_of_true _ _ hp]
  exact ⟨hflag, hgood, hstate, hcause, htimer⟩

theorem rcMissingEdge_forces (l : LaneId) : Does (.rcMissingEdge l)
    (fun L => L.guardSt.powered = true ∧ L.gstate ≠ 3)
    (fun _ M => M.is Reg.LG_STATUS_RCCLK = false ∧ M.is Reg.LG_STATUS_CLKGOOD = false ∧ M.gstate = 3 ∧ M.rd Reg.LG_STATUS_FCAUSE = 3 ∧
      M.guardSt.rcLost = true) := by
  refine does_of _ (fun _ => rfl) fun L h => ?_
  obtain ⟨hp, hg⟩ := h
  obtain ⟨hflag, hgood, hstate, hcause, -, hr⟩ :=
    Lane.clockLost_forces (L := L.onGuard fun g => { g with rcLost := true }) (.inr rfl) (c := 3) (by decide) hp hg
  rw [Lane.when_of_true _ _ hp]
  exact ⟨hflag, hgood, hstate, hcause, by rw [hr.guardSt]; rfl⟩

/-- A window has closed: the lane shows its count and has had `k` bad windows in succession (R322, R324). -/
def Lane.windowCounted (n k : Nat) (L : Lane) : Lane := (L.wr Reg.LG_CKW_COUNT n).onGuard fun g => { g with badWindows := k }

/-- A second bad window is a lost clock (R324). -/
theorem Lane.ckwWindow_bad {n : Nat} {L : Lane} (hbad : L.guardSt.badWindows = 1)
    (hn : n + 10 * L.rd Reg.LG_CKW_CKTOL < 1000 ∨ 1000 + 10 * L.rd Reg.LG_CKW_CKTOL < n) :
    L.ckwWindow n = ((L.windowCounted n 2).fire 261).clockLost Reg.LG_STATUS_LDCLK 2 := by
  have hsecond : (L.wr Reg.LG_CKW_COUNT n).guardSt.badWindows + 1 = 2 := congrArg (· + 1) hbad
  simp only [Lane.ckwWindow, hn, if_true, hsecond]
  rfl

/-- A good window is a clock that is back (R324, R326). -/
theorem Lane.ckwWindow_good {n : Nat} {L : Lane} (hlow : 1000 ≤ n + 10 * L.rd Reg.LG_CKW_CKTOL) (hhigh : n ≤ 1000 + 10 * L.rd Reg.LG_CKW_CKTOL) :
    L.ckwWindow n = (L.windowCounted n 0).clockBack Reg.LG_STATUS_LDCLK := by
  have hin : ¬(n + 10 * L.rd Reg.LG_CKW_CKTOL < 1000 ∨ 1000 + 10 * L.rd Reg.LG_CKW_CKTOL < n) := by omega
  simp only [Lane.ckwWindow, hin, if_false]
  rfl

/-- A window counted without WINTER in its source's reaction leaves the guard's state. -/
theorem Lane.windowCounted_fire_gstate {n : Nat} {L : Lane} (hreact : nbit (L.reaction 261) 9 = false) :
    ((L.windowCounted n 2).fire 261).gstate = L.gstate := by
  have hrule : (L.windowCounted n 2).reaction 261 = L.reaction 261 := L.reaction_wr (by decide) _ 261
  rw [Lane.gstate, Lane.fire_light_rd (by rw [hrule, hreact]) (not_postKey (by decide)) (by decide)]
  exact L.rd_wr_ne _ (by decide)

theorem ckwWindowClose_bad (l : LaneId) (count : BitVec 11) : Does (.ckwWindowClose l count)
    (fun L => L.guardSt.powered = true ∧ L.guardSt.rcLost = false ∧ L.gstate ≠ 3 ∧ L.guardSt.badWindows = 1 ∧ nbit (L.reaction 261) 9 = false ∧
      (count.toNat + 10 * L.rd Reg.LG_CKW_CKTOL < 1000 ∨ 1000 + 10 * L.rd Reg.LG_CKW_CKTOL < count.toNat))
    (fun _ M => M.rd Reg.LG_CKW_COUNT = count.toNat ∧ M.sticky 261 = true ∧ M.is Reg.LG_STATUS_LDCLK = false ∧ M.gstate = 3 ∧
      M.rd Reg.LG_STATUS_FCAUSE = 2) := by
  refine does_of _ (fun _ => rfl) fun L h => ?_
  obtain ⟨hp, hrc, hg, hbad, hreact, hrange⟩ := h
  have hfire := Lane.fire_reacts 261 (.refl (L.windowCounted count.toNat 2))
  have hsticky := (L.windowCounted count.toNat 2).fire_sticky 261 (by decide)
  obtain ⟨hflag, -, hstate, hcause, -, hr⟩ := Lane.clockLost_forces (L := (L.windowCounted count.toNat 2).fire 261) (.inl rfl) (c := 2) (by decide)
    (hfire.guardSt ▸ hp) (Lane.windowCounted_fire_gstate hreact ▸ hg)
  rw [Lane.when_of_true _ _ (by rw [hp, hrc]; rfl), Lane.ckwWindow_bad hbad hrange]
  refine ⟨?_, ?_, hflag, hstate, hcause⟩
  · rw [hr.rd _ (by unfold ReactKey ModeKey; decide), Lane.rd_stop, Lane.rd_clr_ne _ (by decide), Lane.rd_clr_ne _ (by decide),
      hfire.rd _ (by unfold ReactKey ModeKey; decide)]
    exact (L.rd_wr_same _ _).trans (Nat.mod_eq_of_lt count.isLt)
  · refine hr.sticky 261 (by decide) ?_
    rw [Lane.sticky, Lane.bitOf, Lane.rd_stop, Lane.rd_clr_ne _ (by decide), Lane.rd_clr_ne _ (by decide)]
    exact hsticky

/-! #### Clocks that come back -/

theorem Lane.start1_running (t : Timer) (L : Lane) : (L.start1 t).running t = true := by
  unfold Lane.start1
  split
  · assumption
  · simp [Lane.running, Lane.timerAt_restart]

theorem Lane.clockBack_rd (flag : Fld) (L : Lane) (g : Fld) : (L.clockBack flag).rd g = (L.set1 flag).rd g :=
  Lane.when_proj _ _ (Lane.rd · g) (fun M => M.start1_rd _ g) (L.set1 flag)

theorem Lane.clockBack_guardSt (flag : Fld) (L : Lane) : (L.clockBack flag).guardSt = L.guardSt :=
  Lane.when_proj _ _ Lane.guardSt (fun M => by rw [M.start1_setsOnly]) (L.set1 flag)

/-- With both clocks the 10 ms towards CLKGOOD run (R326). -/
theorem Lane.clockBack_running (flag : Fld) (L : Lane) (hck : (L.clockBack flag).is Reg.LG_STATUS_LDCLK = true)
    (hrc : (L.clockBack flag).is Reg.LG_STATUS_RCCLK = true) : (L.clockBack flag).running .clkGood = true := by
  rw [Lane.is_congr (L.clockBack_rd flag _)] at hck hrc
  unfold Lane.clockBack
  rw [Lane.when_of_true _ _ (by rw [hck, hrc]; rfl)]
  exact (L.set1 flag).start1_running _

theorem ckwWindowClose_good (l : LaneId) (count : BitVec 11) : Does (.ckwWindowClose l count)
    (fun L => L.guardSt.powered = true ∧ L.guardSt.rcLost = false ∧ 1000 ≤ count.toNat + 10 * L.rd Reg.LG_CKW_CKTOL ∧
      count.toNat ≤ 1000 + 10 * L.rd Reg.LG_CKW_CKTOL)
    (fun L M => M.rd Reg.LG_CKW_COUNT = count.toNat ∧ M.is Reg.LG_STATUS_LDCLK = true ∧ M.guardSt.badWindows = 0 ∧ M.gstate = L.gstate) := by
  refine does_of _ (fun _ => rfl) fun L h => ?_
  obtain ⟨hp, hrc, hlow, hhigh⟩ := h
  rw [Lane.when_of_true _ _ (by rw [hp, hrc]; rfl), Lane.ckwWindow_good hlow hhigh]
  refine ⟨?_, ?_, by rw [Lane.clockBack_guardSt]; rfl, ?_⟩
  · rw [Lane.clockBack_rd, Lane.rd_set1_ne _ (by decide)]
    exact (L.rd_wr_same _ _).trans (Nat.mod_eq_of_lt count.isLt)
  · rw [Lane.is_congr (Lane.clockBack_rd _ _ _), Lane.is_set1_same _ _ (by decide)]
  · rw [Lane.gstate, Lane.clockBack_rd, Lane.rd_set1_ne _ (by decide)]
    exact L.rd_wr_ne _ (by decide)

theorem clkgoodTimer_sets (l : LaneId) (dt : Nat) : Does (.clkgoodTimer l dt)
    (fun L => L.guardSt.powered = true ∧ L.is Reg.LG_STATUS_LDCLK = true ∧ L.is Reg.LG_STATUS_RCCLK = true ∧ (L.pass dt).due .clkGood 10000000 = true)
    (fun L M => M.is Reg.LG_STATUS_CLKGOOD = true ∧ M = { L.pass dt with regs := M.regs } ∧
      ∀ g : Fld, g.key ≠ Reg.LG_STATUS_CLKGOOD.key → M.rd g = L.rd g) := by
  refine does_of _ (fun _ => rfl) fun L h => ?_
  obtain ⟨hp, hck, hrc, hdue⟩ := h
  rw [Lane.when_of_true _ (L.pass dt) (by
    rw [hdue, show (L.pass dt).guardSt.powered = true from hp, show (L.pass dt).is Reg.LG_STATUS_LDCLK = true from hck,
      show (L.pass dt).is Reg.LG_STATUS_RCCLK = true from hrc]
    rfl)]
  exact ⟨Lane.is_set1_same _ _ (by decide), rfl, fun g hg => (L.pass dt).rd_set1_ne (Ne.symm hg)⟩

theorem clockEdgesResume_sets (l : LaneId) (rc : Bool) : Does (.clockEdgesResume l rc)
    (fun L => L.guardSt.powered = true)
    (fun _ M => M.is (if rc then Reg.LG_STATUS_RCCLK else Reg.LG_STATUS_LDCLK) = true ∧ (rc = true → M.guardSt.rcLost = false) ∧
      (M.is Reg.LG_STATUS_LDCLK = true → M.is Reg.LG_STATUS_RCCLK = true → M.running .clkGood = true)) := by
  refine does_of _ (fun _ => rfl) fun L hp => ?_
  rw [Lane.when_of_true _ _ hp]
  cases rc with
  | true =>
    refine ⟨?_, fun _ => ?_, Lane.clockBack_running _ _⟩
    · exact (Lane.is_congr (Lane.clockBack_rd _ _ _)).trans (Lane.is_set1_same _ _ (by decide))
    · exact (congrArg GuardSt.rcLost (Lane.clockBack_guardSt _ _)).trans rfl
  | false =>
    refine ⟨?_, fun h => (by cases h), Lane.clockBack_running _ _⟩
    exact (Lane.is_congr (Lane.clockBack_rd _ _ _)).trans (Lane.is_set1_same _ _ (by decide))

/-! ### Writes to the guard (R128, R328, R336, R338) -/

/-- A write that P_0 makes. -/
theorem byPair_p0_does {c : Instr} {pre : Lane → Prop} {post : Lane → Lane → Prop} (f : Lane → Lane)
    (he : ∀ s, exec c s = .next (s.onLane (laneOf c) fun L => L.byPair 0 f)) (hpre : ∀ L, pre L → L.firmware = true ∧ L.pairLive 0 = true)
    (hpost : ∀ L, pre L → post L (f L)) : Does c pre post :=
  does_of (fun L => L.byPair 0 f) he fun L h => by
    obtain ⟨hfirm, hlive⟩ := hpre L h
    rw [Lane.byPair_of_live hfirm hlive, if_pos rfl]
    exact hpost L h

/-- Holding the lane die in reset changes the fields that opening the two contactors changes. -/
theorem Lane.holdDie_rd (L : Lane) (g : Fld) : L.holdDie.rd g = ((L.driveKm false).driveKp false).rd g := by
  unfold Lane.holdDie
  generalize (L.driveKm false).driveKp false = M
  rfl

/-- Every field of LG_STATUS stands. -/
theorem Lane.holdDie_status (L : Lane) {g : Fld} (hg : g.key / 64 = 0x20170000) : L.holdDie.rd g = L.rd g := by
  have hne {f : Fld} (hf : f.key / 64 ≠ 0x20170000) : f.key ≠ g.key := fun e => hf (e ▸ hg)
  rw [Lane.holdDie_rd, Lane.driveKp_rd _ _ (hne (by decide)) (hne (by decide)), Lane.driveKm_rd _ _ (hne (by decide)) (hne (by decide))]

/-- Holding the lane die in reset opens KM, and KP where no short circuit holds it; it stops the challenges (R291, R314, R524). -/
theorem Lane.holdDie_holds (L : Lane) :
    L.holdDie.is Reg.LG_CONT_KMCMD = false ∧ (L.rd Reg.GD_STAT_ASC = 0 → L.holdDie.is Reg.LG_CONT_KPCMD = false) ∧ L.holdDie.start.phase = .dieReset ∧
      L.holdDie.guardSt.running = false ∧ L.holdDie.timerAt .dieReset = some L.el := by
  have hel := ((L.driveKm_setsOnly false).trans ((L.driveKm false).driveKp_setsOnly false)).el
  refine ⟨?_, fun hasc => ?_, ?_, ?_, ?_⟩
  · rw [Lane.is_congr (L.holdDie_rd _), Lane.is_congr (Lane.driveKp_rd _ _ (by decide) (by decide)), Lane.driveKm_open]
  · rw [Lane.is_congr (L.holdDie_rd _), Lane.driveKp_open _ (by rw [Lane.driveKm_rd _ _ (by decide) (by decide), hasc])]
  all_goals
    unfold Lane.holdDie
    revert hel
    generalize (L.driveKm false).driveKp false = M
    intro hel
  · rfl
  · rfl
  · rw [Lane.timerAt_restart, if_pos rfl]
    exact congrArg some hel

theorem lgRearmWrite_accepted (l : LaneId) (v : Word) : Does (.lgRearmWrite l 0 v)
    (fun L => L.firmware = true ∧ L.pairLive 0 = true ∧ v = 0xC3A5 ∧ L.gstate = 3 ∧ L.is Reg.LG_STATUS_CLKGOOD = true ∧ L.rd Reg.LG_STATUS_REARMS < 3)
    (fun L M => M.gstate = 0 ∧ M.rd Reg.LG_STATUS_REARMS = L.rd Reg.LG_STATUS_REARMS + 1 ∧ M.is Reg.LG_CONT_KMCMD = false ∧
      (L.rd Reg.GD_STAT_ASC = 0 → M.is Reg.LG_CONT_KPCMD = false) ∧ M.start.phase = .dieReset ∧ M.guardSt.running = false ∧
      M.timerAt .dieReset = some L.el) := by
  refine byPair_p0_does _ (fun _ => rfl) (fun L h => ⟨h.1, h.2.1⟩) fun L h => ?_
  obtain ⟨-, -, rfl, hg, hgood, hrearms⟩ := h
  have hrearm : L.rearm (0xC3A5 : Word).toNat = ((L.wr Reg.LG_STATUS_REARMS (L.rd Reg.LG_STATUS_REARMS + 1)).wr Reg.LG_STATUS_GSTATE 0).holdDie :=
    if_pos ⟨rfl, hg, hgood, hrearms⟩
  rw [hrearm]
  obtain ⟨hkm, hkp, hphase, hrun, htimer⟩ :=
    Lane.holdDie_holds ((L.wr Reg.LG_STATUS_REARMS (L.rd Reg.LG_STATUS_REARMS + 1)).wr Reg.LG_STATUS_GSTATE 0)
  refine ⟨?_, ?_, hkm, fun hasc => hkp ?_, hphase, hrun, htimer⟩
  · rw [Lane.gstate, Lane.holdDie_status _ (by decide), Lane.rd_wr_same]
    rfl
  · rw [Lane.holdDie_status _ (by decide), Lane.rd_wr_ne _ _ (by decide), Lane.rd_wr_same]
    exact Nat.mod_eq_of_lt (by rw [show Reg.LG_STATUS_REARMS.w = 2 from rfl]; omega)
  · rw [Lane.rd_wr_ne _ _ (by decide), Lane.rd_wr_ne _ _ (by decide), hasc]

theorem lgRearmWrite_refused (l : LaneId) (v : Word) : Does (.lgRearmWrite l 0 v)
    (fun L => L.firmware = true ∧ L.pairLive 0 = true ∧ (v ≠ 0xC3A5 ∨ L.gstate ≠ 3 ∨ L.is Reg.LG_STATUS_CLKGOOD = false ∨ 3 ≤ L.rd Reg.LG_STATUS_REARMS))
    (fun L M => M.is Reg.LG_STATUS_REFUSED = true ∧ M = { L with regs := M.regs } ∧
      ∀ g : Fld, g.key ≠ Reg.LG_STATUS_REFUSED.key → M.rd g = L.rd g) := by
  refine byPair_p0_does _ (fun _ => rfl) (fun L h => ⟨h.1, h.2.1⟩) fun L h => ?_
  obtain ⟨-, -, hbar⟩ := h
  have hno : ¬(v.toNat = 0xC3A5 ∧ L.gstate = 3 ∧ L.is Reg.LG_STATUS_CLKGOOD = true ∧ L.rd Reg.LG_STATUS_REARMS < 3) := by
    rintro ⟨hv, hg, hgood, hrearms⟩
    rcases hbar with hb | hb | hb | hb
    · exact hb (BitVec.eq_of_toNat_eq hv)
    · exact hb hg
    · rw [hb] at hgood
      cases hgood
    · omega
  rw [show L.rearm _ = _ from if_neg hno]
  exact ⟨Lane.is_set1_same _ _ (by decide), rfl, fun g hg => L.rd_set1_ne (Ne.symm hg)⟩

theorem lgWdWrite_accepted (l : LaneId) (v : Word) : Does (.lgWdWrite l 0 v)
    (fun L => L.firmware = true ∧ L.pairLive 0 = true ∧ L.is Reg.LG_CTRL_LOCK = false ∧ nbits v.toNat 0 7 ≤ 90 ∧ 10 ≤ nbits v.toNat 8 7 ∧
      nbits v.toNat 8 7 ≤ 95 ∧ nbits v.toNat 0 7 < nbits v.toNat 8 7 ∧ nbits v.toNat 16 16 ≠ 0)
    (fun L M => M.rd Reg.LG_WD_OPEN = nbits v.toNat 0 7 ∧ M.rd Reg.LG_WD_CLOSE = nbits v.toNat 8 7 ∧ M.rd Reg.LG_WD_KEY = nbits v.toNat 16 16 ∧
      M = { L with regs := M.regs }) := by
  refine byPair_p0_does _ (fun _ => rfl) (fun L h => ⟨h.1, h.2.1⟩) fun L h => ?_
  obtain ⟨-, -, hlock, hopen, hlow, hhigh, hlt, hkey⟩ := h
  have hwd : L.writeWd v.toNat =
      ((L.wr Reg.LG_WD_OPEN (nbits v.toNat 0 7)).wr Reg.LG_WD_CLOSE (nbits v.toNat 8 7)).wr Reg.LG_WD_KEY (nbits v.toNat 16 16) := by
    simp [Lane.writeWd, hlock, hkey, hopen, hlow, hhigh, hlt]
  rw [hwd]
  refine ⟨?_, ?_, ?_, rfl⟩
  · rw [Lane.rd_wr_ne _ _ (by decide), Lane.rd_wr_ne _ _ (by decide), Lane.rd_wr_same]
    exact Nat.mod_mod _ _
  · rw [Lane.rd_wr_ne _ _ (by decide), Lane.rd_wr_same]
    exact Nat.mod_mod _ _
  · rw [Lane.rd_wr_same]
    exact Nat.mod_mod _ _

theorem lgWdWrite_ignored (l : LaneId) (v : Word) : Does (.lgWdWrite l 0 v)
    (fun L => L.firmware = true ∧ L.pairLive 0 = true ∧ (L.is Reg.LG_CTRL_LOCK = true ∨ nbits v.toNat 16 16 = 0 ∨
      (nbits v.toNat 0 7 ≤ 90 ∧ 10 ≤ nbits v.toNat 8 7 ∧ nbits v.toNat 8 7 ≤ 95 ∧ nbits v.toNat 8 7 ≤ nbits v.toNat 0 7)))
    (fun L M => M = L) := by
  refine byPair_p0_does _ (fun _ => rfl) (fun L h => ⟨h.1, h.2.1⟩) fun L h => ?_
  obtain ⟨-, -, hlock | hkey | ⟨hopen, hlow, hhigh, hle⟩⟩ := h
  · simp [Lane.writeWd, hlock]
  · simp [Lane.writeWd, hkey]
  · simp [Lane.writeWd, hopen, hlow, hhigh, hle]

theorem lgKmoff_opens (l : LaneId) : Does (.lgKmoff l 0)
    (fun L => L.firmware = true ∧ L.pairLive 0 = true ∧ L.gstate = 3)
    (fun L M => M.is Reg.LG_CONT_KMCMD = false ∧ M.rd Reg.LG_CONT_KPCMD = L.rd Reg.LG_CONT_KPCMD ∧ M.rd Reg.LG_KOPS_KM = L.rd Reg.LG_KOPS_KM ∧
      M = { L with regs := M.regs, timers := M.timers }) := by
  refine byPair_p0_does _ (fun _ => rfl) (fun L h => ⟨h.1, h.2.1⟩) fun L h => ?_
  rw [Lane.when_of_true _ _ (decide_eq_true h.2.2)]
  refine ⟨L.driveKm_open, L.driveKm_rd _ (by decide) (by decide), ?_, L.driveKm_setsOnly _⟩
  rcases L.driveKm_cases false with ⟨-, hk⟩ | hk
  · rw [hk]
  · rw [hk, Lane.contactorDriven_open_rd]
    exact L.rd_wr_ne _ (by decide)

theorem lgKmoff_ignored (l : LaneId) : Does (.lgKmoff l 0)
    (fun L => L.firmware = true ∧ L.pairLive 0 = true ∧ L.gstate ≠ 3) (fun L M => M = L) :=
  byPair_p0_does _ (fun _ => rfl) (fun _ h => ⟨h.1, h.2.1⟩) fun _ h => Lane.when_of_false _ _ (decide_eq_false h.2.2)

/-- Settles O36: clocks that are lost, counted and back, and what the two pairs may write to the guard. -/
theorem guardClocksAndRearm : Obligations.guard_clocks_and_rearm :=
  ⟨ckwMissingEdge_forces, rcMissingEdge_forces, ckwWindowClose_bad, ckwWindowClose_good, clkgoodTimer_sets, clockEdgesResume_sets,
    lgRearmWrite_accepted, lgRearmWrite_refused, fun _ _ => byPair_p1_does _ fun _ => rfl, lgWdWrite_accepted, lgWdWrite_ignored,
    fun _ _ => byPair_p1_does _ fun _ => rfl, lgKmoff_opens, lgKmoff_ignored, fun _ => byPair_p1_does _ fun _ => rfl⟩

end Sys2Proof.Machine

namespace Sys2Proof.Machine

/-! ### Cores and their pairs (R126) -/

theorem pairOf_evenCore (p : Pair) : pairOf (evenCore p) = p := by revert p; decide
theorem pairOf_oddCore (p : Pair) : pairOf (oddCore p) = p := by revert p; decide
theorem evenCore_ne_oddCore (p : Pair) : evenCore p ≠ oddCore p := by revert p; decide
theorem pairOf_partner (c : Core) : pairOf (partner c) = pairOf c := by revert c; decide
theorem partner_ne (c : Core) : partner c ≠ c := by revert c; decide

/-- A core is the even or the odd one of its pair, and its partner is the other. -/
theorem even_or_odd (c : Core) :
    (c = evenCore (pairOf c) ∧ partner c = oddCore (pairOf c)) ∨ (c = oddCore (pairOf c) ∧ partner c = evenCore (pairOf c)) := by
  revert c; decide

theorem mem_pair_iff (p : Pair) (c : Core) : c ∈ [evenCore p, oddCore p] ↔ pairOf c = p := by revert p c; decide

/-- Both cores of a pair change alike. -/
theorem vget_pairCores {α : Type} (v : Vector α 4) (g : α → α) (p : Pair) (c : Core) :
    vget (vupd (vupd v (evenCore p) g) (oddCore p) g) c = if pairOf c = p then g (vget v c) else vget v c := by
  rw [vget_vupd, vget_vupd]
  by_cases hp : pairOf c = p
  · subst hp
    rw [if_pos rfl]
    rcases even_or_odd c with ⟨hc, -⟩ | ⟨hc, -⟩
    · rw [if_neg fun e => evenCore_ne_oddCore _ (hc.symm.trans e.symm), if_pos hc.symm]
    · rw [if_pos hc.symm, if_neg fun e => evenCore_ne_oddCore _ (e.trans hc)]
  · have heven : evenCore p ≠ c := fun e => hp (e ▸ pairOf_evenCore p)
    have hodd : oddCore p ≠ c := fun e => hp (e ▸ pairOf_oddCore p)
    rw [if_neg hodd, if_neg heven, if_neg hp]

/-! ### Operations on a pair that change registers (R145) -/

theorem Lane.RegsOnly.each {α : Type} {L M : Lane} (h : L.RegsOnly M) (xs : List α) {f : α → Lane → Lane}
    (hf : ∀ x, ∀ N : Lane, L.RegsOnly N → L.RegsOnly (f x N)) : L.RegsOnly (M.each xs f) := by
  unfold Lane.each
  induction xs generalizing M with
  | nil => exact h
  | cons x xs ih => exact ih (hf x M h)

/-- Every function reads BARRED (R145). -/
theorem Lane.barAll_barred (L : Lane) (f : Func) : L.barAll.is (Reg.ROLE_FUNC_BARRED f.code) = true := by
  refine Lane.each_reaches (P := fun M => M.is (Reg.ROLE_FUNC_BARRED f.code) = true) (x := f) (fun M => M.is_set1_same _ Nat.one_pos) (fun g M hM => ?_)
    f.mem_all L
  by_cases e : (Reg.ROLE_FUNC_BARRED g.code).key = (Reg.ROLE_FUNC_BARRED f.code).key
  · rw [Lane.is, Lane.set1, Lane.rd_wr, if_pos e]
    rfl
  · rw [M.is_set1_ne e, hM]

theorem Lane.barAll_rd (L : Lane) {g : Fld} (hg : g.key / 64 < 0x20010000 ∨ 0x20020000 ≤ g.key / 64) : L.barAll.rd g = L.rd g :=
  Lane.each_proj _ _ (Lane.rd · g) (fun f _ M => M.rd_set1_ne fun e => by
    rw [← e] at hg
    revert hg
    cases f <;> decide) L

theorem Lane.unpair_regsOnly (p : Pair) (L : Lane) : L.RegsOnly (L.unpair p) :=
  (((Lane.RegsOnly.refl L).wr _ _).wr _ _).each _ fun _ _ hN => hN.wr _ _

theorem Lane.unpair_rd (p : Pair) (L : Lane) {g : Fld} (hg : g.key / 64 < 0x20010000 ∨ 0x20020000 ≤ g.key / 64) (hp : Reg.CM_STATUS_PAIRED.key ≠ g.key)
    (hb : Reg.CM_STATUS_BARRED.key ≠ g.key) : (L.unpair p).rd g = L.rd g :=
  (Lane.barAll_rd _ hg).trans ((Lane.rd_set1_ne _ hb).trans (L.rd_wr_ne _ hp))

theorem Lane.unpair_barred (p : Pair) (L : Lane) : (L.unpair p).is Reg.CM_STATUS_BARRED = true :=
  (Lane.is_congr (Lane.barAll_rd _ (by decide))).trans (Lane.is_set1_same _ _ (by decide))

theorem Lane.unpair_paired (p : Pair) (L : Lane) : (L.unpair p).paired p = false := by
  rw [Lane.paired, Lane.bitOf, show (L.unpair p).rd Reg.CM_STATUS_PAIRED = (L.wrBit Reg.CM_STATUS_PAIRED p.val false).rd Reg.CM_STATUS_PAIRED from
    (Lane.barAll_rd _ (by decide)).trans (Lane.rd_set1_ne _ (by decide))]
  refine (L.bitOf_wrBit Reg.CM_STATUS_PAIRED p.val p.val false).trans ?_
  rw [if_pos rfl, Bool.and_false]

/-! ### What is discarded (R139) -/

/-- A core whose uncompared writes and signature are discarded (R139). -/
def CoreSt.discarded (x : CoreSt) : CoreSt := { x with obuf := [], count := 0, marks := [], marked := false, poison := false, loads := 0 }

/-- A lane with both cores and the replicated inputs of a pair discarded, before their signatures begin anew. -/
def Lane.discardCores (p : Pair) (L : Lane) : Lane :=
  (((L.dropReserved p).onCore (evenCore p) CoreSt.discarded).onCore (oddCore p) CoreSt.discarded).onPair p fun x =>
    { x with repl := [], replBase := 0, takeAt := [] }

/-- The cores and inputs of a pair are discarded, and its signatures begin anew. -/
theorem Lane.discard_eq (p : Pair) (L : Lane) :
    L.discard p = ((L.discardCores p).wr (Reg.CM_SIG (evenCore p).val) sigInit).wr (Reg.CM_SIG (oddCore p).val) sigInit := by
  unfold Lane.discard
  generalize sigInit = v
  rfl

theorem Lane.discard_core (p : Pair) (L : Lane) (c : Core) :
    vget (L.discard p).core c = if pairOf c = p then (vget L.core c).discarded else vget L.core c := by
  rw [show (L.discard p).core = vupd (vupd L.core (evenCore p) CoreSt.discarded) (oddCore p) CoreSt.discarded by rw [Lane.discard_eq]; rfl]
  exact vget_pairCores _ _ _ _

theorem Lane.discard_pair (p : Pair) (L : Lane) : vget (L.discard p).pair p = { vget L.pair p with repl := [], replBase := 0, takeAt := [] } := by
  rw [Lane.discard_eq]
  exact vget_vupd_same L.pair p _

theorem Lane.discard_rd (p : Pair) (L : Lane) {g : Fld} (hg : g.key / 64 < 0x20020040 ∨ 0x20020060 ≤ g.key / 64) : (L.discard p).rd g = L.rd g := by
  have hne (c : Core) : (Reg.CM_SIG c.val).key ≠ g.key := fun e => by
    have hlt := c.isLt
    have hkey : (Reg.CM_SIG c.val).key = (0x20020040 + 0x8 * c.val) * 64 + 0 := rfl
    omega
  rw [Lane.discard_eq, Lane.rd_wr_ne _ _ (hne _), Lane.rd_wr_ne _ _ (hne _)]
  rfl

/-! ### A pair that a debugger splits (R147, R148) -/

/-- Reactions write no register of CM. -/
theorem not_reacts_of_cm {k : Nat} (h : 0x20020000 ≤ k / 64 ∧ k / 64 < 0x20030000) : ¬(ReactKey k ∨ ModeKey k) := by
  simp only [ReactKey, ModeKey, Fld.key, Reg.SYS_STATE_STATE, Reg.LG_STATUS_GSTATE]
  omega

/-- A pair that a debugger has split, before its source fires. -/
def Lane.splitOff (p : Pair) (L : Lane) : Lane := ((L.discard p).unpair p).wrBit Reg.CM_STATUS_DEBUG p.val true

theorem Lane.split_of_paired {p : Pair} {L : Lane} (h : L.paired p = true) : L.split p = (L.splitOff p).fire (21 + p.val) := if_pos h

theorem Lane.split_of_unpaired {p : Pair} {L : Lane} (h : L.paired p = false) : L.split p = L := by
  rw [Lane.split, h]
  rfl

theorem Lane.splitOff_core (p : Pair) (L : Lane) {c : Core} (hc : pairOf c = p) : vget (L.splitOff p).core c = (vget L.core c).discarded := by
  rw [show (L.splitOff p).core = ((L.discard p).unpair p).core from rfl, (L.discard p).unpair_regsOnly p]
  exact (L.discard_core p c).trans (if_pos hc)

theorem Lane.splitOff_dbg (p : Pair) (L : Lane) : (L.splitOff p).dbg = L.dbg := by
  rw [show (L.splitOff p).dbg = ((L.discard p).unpair p).dbg from rfl, (L.discard p).unpair_regsOnly p, Lane.discard_eq]
  rfl

theorem Lane.splitOff_status (p : Pair) (L : Lane) : (L.splitOff p).debugged p = true ∧ (L.splitOff p).paired p = false ∧
    (L.splitOff p).is Reg.CM_STATUS_BARRED = true := by
  refine ⟨?_, ?_, ?_⟩
  · rw [Lane.debugged, Lane.splitOff, Lane.bitOf_wrBit, if_pos rfl, Bool.and_true]
    exact decide_eq_true p.isLt
  · rw [Lane.paired, Lane.bitOf, Lane.splitOff, Lane.wrBit, Lane.rd_wr_ne _ _ (by decide)]
    exact Lane.unpair_paired _ _
  · exact (Lane.is_congr (((L.discard p).unpair p).rd_wr_ne _ (by decide))).trans (Lane.unpair_barred _ _)

/-- A core that a debugger has asked to halt is in debug mode (R148). -/
def Lane.haltCore (c : Core) (L : Lane) : Lane :=
  L.when (vget L.dbg.haltreq c && (decide ((vget L.core c).run = .running) || decide ((vget L.core c).run = .wfi))) fun L =>
    (L.coreFree c).onCore c fun x => { x with run := .debugHalted }

theorem Lane.haltAsked_eq (p : Pair) (L : Lane) : L.haltAsked p = (L.haltCore (evenCore p)).haltCore (oddCore p) := rfl

/-- Between two states of a lane only cores and the count of free values differ. -/
def Lane.CoresOnly (L M : Lane) : Prop := M = { L with core := M.core, draws := M.draws }

theorem Lane.CoresOnly.trans {L M N : Lane} (h : L.CoresOnly M) (k : M.CoresOnly N) : L.CoresOnly N := by
  rw [Lane.CoresOnly, h] at k
  exact k

theorem Lane.haltCore_coresOnly (c : Core) (L : Lane) : L.CoresOnly (L.haltCore c) := by
  unfold Lane.haltCore Lane.when
  split <;> rfl

theorem Lane.haltAsked_coresOnly (p : Pair) (L : Lane) : L.CoresOnly (L.haltAsked p) :=
  (L.haltCore_coresOnly (evenCore p)).trans ((L.haltCore (evenCore p)).haltCore_coresOnly (oddCore p))

theorem Lane.haltCore_other {c d : Core} (h : c ≠ d) (L : Lane) : vget (L.haltCore c).core d = vget L.core d := by
  unfold Lane.haltCore Lane.when
  split
  · exact (vget_vupd_ne (L.coreFree c).core _ h).trans (vget_vupd_ne L.core _ h)
  · rfl

/-- A core that runs halts, where a debugger has asked it to; its buffer stands. -/
theorem Lane.haltCore_halts {c : Core} {L : Lane} (hreq : vget L.dbg.haltreq c = true) (hrun : (vget L.core c).run = .running) :
    (vget (L.haltCore c).core c).run = .debugHalted ∧ (vget (L.haltCore c).core c).obuf = (vget L.core c).obuf := by
  unfold Lane.haltCore
  rw [Lane.when_of_true _ _ (by rw [hreq, hrun]; rfl)]
  have hhalt := vget_vupd_same (L.coreFree c).core c fun x => { x with run := CoreRun.debugHalted }
  have hfree : (vget (L.coreFree c).core c).obuf = (vget L.core c).obuf := by
    simp only [Lane.coreFree, Lane.onCore, vget_vupd_same]
  exact ⟨congrArg CoreSt.run hhalt, (congrArg CoreSt.obuf hhalt).trans hfree⟩

theorem Lane.haltCore_of_no_request {c : Core} {L : Lane} (h : vget L.dbg.haltreq c = false ∨ (vget L.core c).run = .debugHalted) :
    L.haltCore c = L := by
  unfold Lane.haltCore
  refine Lane.when_of_false _ _ ?_
  rcases h with h | h <;> rw [h] <;> simp

/-- The halt of a core of a pair, whatever happens to the other. -/
theorem Lane.haltAsked_halts {c : Core} {L : Lane} (hreq : vget L.dbg.haltreq c = true) (hrun : (vget L.core c).run = .running) :
    (vget (L.haltAsked (pairOf c)).core c).run = .debugHalted ∧ (vget (L.haltAsked (pairOf c)).core c).obuf = (vget L.core c).obuf := by
  have hne := evenCore_ne_oddCore (pairOf c)
  rw [Lane.haltAsked_eq]
  rcases even_or_odd c with ⟨hc, -⟩ | ⟨hc, -⟩
  · rw [Lane.haltCore_other fun e => hne (hc.symm.trans e.symm), ← hc]
    exact Lane.haltCore_halts hreq hrun
  · have hcore := L.haltCore_other (c := evenCore (pairOf c)) (d := c) fun e => hne (e.trans hc)
    have hdbg : (L.haltCore (evenCore (pairOf c))).dbg = L.dbg := by rw [L.haltCore_coresOnly]
    rw [← hc, ← hcore]
    exact Lane.haltCore_halts (by rw [hdbg, hreq]) (by rw [hcore, hrun])

/-- A pair of which no core is asked to halt but one that is halted already stays as it is. -/
theorem Lane.haltAsked_of_halted {c : Core} {L : Lane} (hc : (vget L.core c).run = .debugHalted) (hp : vget L.dbg.haltreq (partner c) = false) :
    L.haltAsked (pairOf c) = L := by
  rw [Lane.haltAsked_eq]
  rcases even_or_odd c with ⟨hcore, hother⟩ | ⟨hcore, hother⟩ <;> rw [← hcore, ← hother]
  · rw [Lane.haltCore_of_no_request (.inr hc), Lane.haltCore_of_no_request (.inl hp)]
  · rw [Lane.haltCore_of_no_request (.inl hp), Lane.haltCore_of_no_request (.inr hc)]

end Sys2Proof.Machine

namespace Sys2Proof.Machine

/-! ### What a debugger does (R147, R148, R493 to R501) -/

theorem debugHaltRequest_does {l : LaneId} {c : Core} {pre : Lane → Prop} {post : Lane → Lane → Prop} (hpre : ∀ L, pre L → L.powered = true)
    (hpost : ∀ L, pre L → post L (L.haltRequest c)) : Does (.debugHaltRequest l c) pre post :=
  does_of (fun L => L.when L.powered (Lane.haltRequest c)) (fun _ => rfl) fun L h => by
    rw [Lane.when_of_true _ _ (hpre L h)]
    exact hpost L h

theorem debugAbstractCommand_does {l : LaneId} {c : Core} {cmd : Word} {pre : Lane → Prop} {post : Lane → Lane → Prop}
    (hpre : ∀ L, pre L → L.powered = true) (hpost : ∀ L, pre L → post L (L.abstractCommand c cmd)) : Does (.debugAbstractCommand l c cmd) pre post :=
  does_of (fun L => L.when L.powered (Lane.abstractCommand c cmd)) (fun _ => rfl) fun L h => by
    rw [Lane.when_of_true _ _ (hpre L h)]
    exact hpost L h

theorem debugSysbusAccess_does {l : LaneId} {a n : Nat} {d : Option Nat} {pre : Lane → Prop} {post : Lane → Lane → Prop}
    (hpre : ∀ L, pre L → L.powered = true) (hpost : ∀ L, pre L → post L (L.sysbus a n d)) : Does (.debugSysbusAccess l a n d) pre post :=
  does_of (fun L => L.when L.powered (Lane.sysbus a n d)) (fun _ => rfl) fun L h => by
    rw [Lane.when_of_true _ _ (hpre L h)]
    exact hpost L h

/-! #### Halts -/

/-- The debug module notes a halt request to a hart. -/
def DebugSt.asked (c : Core) (d : DebugSt) : DebugSt :=
  { d with haltreq := vupd d.haltreq c (fun _ => true), unavail := vupd d.unavail c (fun _ => false), resumeack := vupd d.resumeack c (fun _ => false) }

theorem Lane.haltRequest_on {c : Core} {L : Lane} (hscope : L.scope 0 = true) (hthere : L.hartThere c = true) (hon : L.hartOn c = true) :
    L.haltRequest c = (L.onDbg (DebugSt.asked c)).seizePair (pairOf c) := by
  simp only [Lane.haltRequest, hscope, hthere, hon, Bool.not_true, Bool.or_self, Bool.false_eq_true, if_false, if_true]
  rfl

/-- A pair that no slice holds and that is not under self-test is split at once (R147, R148). -/
theorem Lane.seizePair_split {p : Pair} {L : Lane} (hslice : L.is Reg.BT_SLICE_STAT_RUNNING = false) (htest : L.selfTesting p = false) :
    L.seizePair p = (L.split p).haltAsked p := by
  simp only [Lane.seizePair, hslice, Bool.false_and, Lane.when, Bool.false_eq_true, if_false, htest]

/-- Sources 21 and 22 are no reserved positions (R359). -/
theorem debuggerSource_fires (p : Pair) : fixedClass (21 + p.val) ≠ 0 := by revert p; decide

/-- A split pair whose source has fired (R147). -/
theorem Lane.split_splits {p : Pair} {L : Lane} (hpaired : L.paired p = true) :
    (L.split p).debugged p = true ∧ (L.split p).paired p = false ∧ (L.split p).is Reg.CM_STATUS_BARRED = true ∧ (L.split p).sticky (21 + p.val) = true ∧
      (L.split p).dbg = L.dbg ∧ ∀ c, pairOf c = p → (vget L.core c).run = .running →
        (vget (L.split p).core c).run = .running ∧ (vget (L.split p).core c).obuf = [] := by
  have hr := Lane.fire_reacts (21 + p.val) (.refl (L.splitOff p))
  have hrd (g : Fld) (hg : 0x20020000 ≤ g.key / 64 ∧ g.key / 64 < 0x20030000) := hr.rd g (not_reacts_of_cm hg)
  obtain ⟨hdebug, hunpaired, hbarred⟩ := L.splitOff_status p
  rw [Lane.split_of_paired hpaired]
  refine ⟨?_, ?_, ?_, Lane.fire_sticky _ _ (debuggerSource_fires p), hr.dbg.trans (L.splitOff_dbg p), fun c hc hrun => ?_⟩
  · rw [Lane.debugged, Lane.bitOf, hrd _ (by decide)]
    exact hdebug
  · rw [Lane.paired, Lane.bitOf, hrd _ (by decide)]
    exact hunpaired
  · rw [Lane.is_congr (hrd _ (by decide)), hbarred]
  · have hcore := L.splitOff_core p hc
    rcases ((Lane.Weathers.refl (L.splitOff p)).fire (21 + p.val)).core c with h | h <;> rw [h, hcore]
    · exact ⟨hrun, rfl⟩
    · exact ⟨rfl, rfl⟩

/-- A halt of a running core of a paired pair splits the pair (R147, R148). -/
theorem Lane.seizePair_halts {c : Core} {L : Lane} (hslice : L.is Reg.BT_SLICE_STAT_RUNNING = false) (htest : L.selfTesting (pairOf c) = false)
    (hpaired : L.paired (pairOf c) = true) (hreq : vget L.dbg.haltreq c = true) (hrun : (vget L.core c).run = .running) :
    let M := L.seizePair (pairOf c)
    M.debugged (pairOf c) = true ∧ M.paired (pairOf c) = false ∧ M.is Reg.CM_STATUS_BARRED = true ∧ M.sticky (21 + (pairOf c).val) = true ∧
      (vget M.core c).run = .debugHalted ∧ (vget M.core c).obuf = [] ∧ vget M.dbg.haltreq c = true := by
  obtain ⟨hdebug, hunpaired, hbarred, hsticky, hdbg, hcores⟩ := Lane.split_splits hpaired
  obtain ⟨hgoes, hbuf⟩ := hcores c rfl hrun
  obtain ⟨hhalted, hkept⟩ := Lane.haltAsked_halts (L := L.split (pairOf c)) (hdbg ▸ hreq) hgoes
  have honly := (L.split (pairOf c)).haltAsked_coresOnly (pairOf c)
  rw [Lane.seizePair_split hslice htest]
  refine ⟨?_, ?_, ?_, ?_, hhalted, hkept.trans hbuf, ?_⟩
  · rw [honly]
    exact hdebug
  · rw [honly]
    exact hunpaired
  · rw [honly]
    exact hbarred
  · rw [honly]
    exact hsticky
  · rw [honly]
    exact hdbg ▸ hreq

theorem debugHaltRequest_halts (l : LaneId) (c : Core) : Does (.debugHaltRequest l c)
    (fun L => L.powered = true ∧ L.scope 0 = true ∧ L.hartThere c = true ∧ L.hartOn c = true ∧ L.selfTesting (pairOf c) = false ∧
      L.paired (pairOf c) = true ∧ L.is Reg.BT_SLICE_STAT_RUNNING = false ∧ (vget L.core c).run = .running)
    (fun _ M => M.debugged (pairOf c) = true ∧ M.paired (pairOf c) = false ∧ M.is Reg.CM_STATUS_BARRED = true ∧ M.sticky (21 + (pairOf c).val) = true ∧
      (vget M.core c).run = .debugHalted ∧ (vget M.core c).obuf = [] ∧ vget M.dbg.haltreq c = true) := by
  refine debugHaltRequest_does (fun _ h => h.1) fun L h => ?_
  obtain ⟨-, hscope, hthere, hon, htest, hpaired, hslice, hrun⟩ := h
  rw [Lane.haltRequest_on hscope hthere hon]
  exact Lane.seizePair_halts (L := L.onDbg (DebugSt.asked c)) hslice htest hpaired (vget_vupd_same _ _ _) hrun

theorem debugHaltRequest_unavailable (l : LaneId) (c : Core) : Does (.debugHaltRequest l c)
    (fun L => L.powered = true ∧ L.scope 0 = false)
    (fun L M => vget M.dbg.unavail c = true ∧ M = { L with dbg := { L.dbg with unavail := M.dbg.unavail } }) := by
  refine debugHaltRequest_does (fun _ h => h.1) fun L h => ?_
  rw [show L.haltRequest c = L.hartUnavail c by simp only [Lane.haltRequest, h.2, Bool.not_false, Bool.true_or, if_true]]
  exact ⟨vget_vupd_same _ _ _, rfl⟩

/-! #### Abstract commands -/

theorem debugAbstractCommand_unavailable (l : LaneId) (c : Core) (cmd : Word) : Does (.debugAbstractCommand l c cmd)
    (fun L => L.powered = true ∧ L.scope 0 = false)
    (fun L M => M.dbg.cmderr = (if L.dbg.cmderr = 0 then 4 else L.dbg.cmderr) ∧ vget M.dbg.unavail c = true ∧ M = { L with dbg := M.dbg }) := by
  refine debugAbstractCommand_does (fun _ h => h.1) fun L h => ?_
  rw [show L.abstractCommand c cmd = (L.hartUnavail c).cmdFail 4 by
    simp only [Lane.abstractCommand, h.2, Bool.not_false, Bool.true_or, if_true]]
  exact ⟨rfl, vget_vupd_same _ _ _, rfl⟩

/-- A command on a halted core of a split pair is carried out. -/
theorem Lane.abstractCommand_halted {c : Core} {cmd : Word} {L : Lane} (hscope : L.scope 0 = true) (hthere : L.hartThere c = true)
    (hon : L.hartOn c = true) (htest : L.selfTesting (pairOf c) = false) (hpaired : L.paired (pairOf c) = false)
    (hslice : L.is Reg.BT_SLICE_STAT_RUNNING = false) (hother : vget L.dbg.haltreq (partner c) = false) (hrun : (vget L.core c).run = .debugHalted) :
    L.abstractCommand c cmd = L.absRun c cmd := by
  have hseize : L.seizePair (pairOf c) = L := by
    rw [Lane.seizePair_split hslice htest, Lane.split_of_unpaired hpaired, Lane.haltAsked_of_halted hrun hother]
  simp only [Lane.abstractCommand, hscope, hthere, hon, hseize, hrun, Bool.not_true, Bool.false_and, Bool.or_self, Bool.false_eq_true, if_false, if_true]

/-- An access-register command of 64 bits with a transfer from, or to, an integer register and without the program buffer (log entry 52). -/
structure AccessesReg (cmd : Nat) (writes : Bool) (i : Fin 32) : Prop where
  reg : nbits cmd 0 16 = 0x1000 + i.val
  size : nbits cmd 20 3 = 3
  type : nbits cmd 24 8 = 0
  write : nbit cmd 16 = writes
  transfer : nbit cmd 17 = true
  exec : nbit cmd 18 = false

theorem accessesReg_read (i : Fin 32) : AccessesReg (BitVec.ofNat 32 (0x321000 + i.val)).toNat false i := by
  constructor <;> revert i <;> decide

theorem accessesReg_write (i : Fin 32) : AccessesReg (BitVec.ofNat 32 (0x331000 + i.val)).toNat true i := by
  constructor <;> revert i <;> decide

theorem Fin.ofNat_regNumber (i : Fin 32) : Fin.ofNat 32 (0x1000 + i.val) = i := by
  revert i
  decide

/-- A command reads an integer register into the two data words. -/
theorem Lane.absRun_reads {cmd : Word} {i : Fin 32} (h : AccessesReg cmd.toNat false i) (c : Core) (L : Lane) :
    L.absRun c cmd = L.absPut true (vget (vget L.core c).x i).toNat := by
  have hin : 0x1000 ≤ 0x1000 + i.val ∧ 0x1000 + i.val < 0x1020 := by omega
  have hlow : ¬0x1040 ≤ 0x1000 + i.val := by omega
  have hvalue : L.coreReg c (0x1000 + i.val) = some (vget (vget L.core c).x i).toNat := by
    rw [Lane.coreReg, if_pos hin, Fin.ofNat_regNumber]
  unfold Lane.absRun
  simp only [h.reg, h.size, h.type, h.write, h.transfer, h.exec, hlow, hvalue]
  rfl

/-- A command writes the two data words to an integer register. -/
theorem Lane.absRun_writes {cmd : Word} {i : Fin 32} (h : AccessesReg cmd.toNat true i) (hi : i ≠ 0) (c : Core) (L : Lane) :
    L.absRun c cmd =
      L.onCore c fun x => { x with x := vupd x.x i fun _ => BitVec.ofNat 64 ((vget L.dbg.data 0).toNat + 2 ^ 32 * (vget L.dbg.data 1).toNat) } := by
  have hpos : 0 < i.val := Nat.pos_of_ne_zero fun e => hi (Fin.ext e)
  have hin : 0x1000 < 0x1000 + i.val ∧ 0x1000 + i.val < 0x1020 := by omega
  have hlow : ¬0x1040 ≤ 0x1000 + i.val := by omega
  have hset (v : Nat) : L.coreRegSet c (0x1000 + i.val) v = L.onCore c fun x => { x with x := vupd x.x i fun _ => BitVec.ofNat 64 v } := by
    rw [Lane.coreRegSet, if_pos hin, Fin.ofNat_regNumber]
  unfold Lane.absRun
  simp only [h.reg, h.size, h.type, h.write, h.transfer, h.exec, hlow, hset]
  rfl

theorem debugAbstractCommand_reads (l : LaneId) (c : Core) (i : Fin 32) : Does (.debugAbstractCommand l c (BitVec.ofNat 32 (0x321000 + i.val)))
    (fun L => L.powered = true ∧ L.scope 0 = true ∧ L.hartThere c = true ∧ L.hartOn c = true ∧ L.selfTesting (pairOf c) = false ∧
      L.paired (pairOf c) = false ∧ L.is Reg.BT_SLICE_STAT_RUNNING = false ∧ vget L.dbg.haltreq (partner c) = false ∧ (vget L.core c).run = .debugHalted)
    (fun L M => vget M.dbg.data 0 = BitVec.ofNat 32 (vget (vget L.core c).x i).toNat ∧
      vget M.dbg.data 1 = BitVec.ofNat 32 ((vget (vget L.core c).x i).toNat / 2 ^ 32) ∧ M = { L with dbg := { L.dbg with data := M.dbg.data } }) := by
  refine debugAbstractCommand_does (fun _ h => h.1) fun L h => ?_
  obtain ⟨-, hscope, hthere, hon, htest, hpaired, hslice, hother, hrun⟩ := h
  rw [Lane.abstractCommand_halted hscope hthere hon htest hpaired hslice hother hrun, Lane.absRun_reads (accessesReg_read i)]
  refine ⟨?_, ?_, rfl⟩ <;> simp [Lane.absPut, Lane.onDbg, vget]

theorem debugAbstractCommand_writes (l : LaneId) (c : Core) (i : Fin 32) : Does (.debugAbstractCommand l c (BitVec.ofNat 32 (0x331000 + i.val)))
    (fun L => L.powered = true ∧ L.scope 0 = true ∧ L.hartThere c = true ∧ L.hartOn c = true ∧ L.selfTesting (pairOf c) = false ∧
      L.paired (pairOf c) = false ∧ L.is Reg.BT_SLICE_STAT_RUNNING = false ∧ vget L.dbg.haltreq (partner c) = false ∧
      (vget L.core c).run = .debugHalted ∧ i ≠ 0)
    (fun L M => vget (vget M.core c).x i = BitVec.ofNat 64 ((vget L.dbg.data 0).toNat + 2 ^ 32 * (vget L.dbg.data 1).toNat) ∧
      (∀ j, j ≠ i → vget (vget M.core c).x j = vget (vget L.core c).x j) ∧ M = { L with core := M.core }) := by
  refine debugAbstractCommand_does (fun _ h => h.1) fun L h => ?_
  obtain ⟨-, hscope, hthere, hon, htest, hpaired, hslice, hother, hrun, hi⟩ := h
  rw [Lane.abstractCommand_halted hscope hthere hon htest hpaired hslice hother hrun, Lane.absRun_writes (accessesReg_write i) hi]
  refine ⟨?_, fun j hj => ?_, rfl⟩
  · simp only [Lane.onCore, vget_vupd_same]
  · simp only [Lane.onCore, vget_vupd_same]
    exact vget_vupd_ne _ _ (Ne.symm hj)

/-! #### The system bus -/

theorem debugSysbusAccess_closed (l : LaneId) (a n : Nat) (d : Option Nat) : Does (.debugSysbusAccess l a n d)
    (fun L => L.powered = true ∧ L.scope 1 = false) (fun L M => M = { L with dbg := { L.dbg with sberror := 7 } }) := by
  refine debugSysbusAccess_does (fun _ h => h.1) fun L h => ?_
  rw [Lane.sysbus, h.2]
  rfl

theorem debugSysbusAccess_protected (l : LaneId) (a n v : Nat) : Does (.debugSysbusAccess l a n (some v))
    (fun L => L.powered = true ∧ L.scope 1 = true ∧ L.inManufacture = false ∧ Lane.busProtected a = true)
    (fun L M => M = { L with dbg := { L.dbg with sberror := 7 } }) := by
  refine debugSysbusAccess_does (fun _ h => h.1) fun L h => ?_
  obtain ⟨-, hscope, hmade, hprotected⟩ := h
  rw [Lane.sysbus, hscope, hmade, hprotected]
  rfl

/-- SRAM lies in its window (R24). -/
theorem range_of_sram {a : Nat} (h : placeOf a = .sram) : 0x10000000 ≤ a ∧ a < 0x10800000 := by
  unfold placeOf at h
  by_contra hno
  rw [if_neg hno] at h
  dsimp only at h
  repeat' split at h
  all_goals cases h

/-- SRAM is none of the blocks that R501 protects. -/
theorem busProtected_of_sram {a : Nat} (h : placeOf a = .sram) : Lane.busProtected a = false := by
  obtain ⟨hlow, hhigh⟩ := range_of_sram h
  simp [Lane.busProtected, h]
  omega

/-- A store that nothing holds back is performed at once (R26, R39, R464, R542). -/
theorem Lane.busStore_now {who : Option Core} {w : BufWrite} {L : Lane} (hstalled : L.ret.stalled = []) (hwaits : L.waitsAt who = none)
    (hasleep : L.asleep w.addr = none) (hgroup : L.groupHolds w.addr w.size = false) (hcommit : L.commitHolds w.addr w.size = false) :
    L.busStore who w = L.storeNow who w := by
  rw [Lane.busStore, Lane.unhold_of_stalled_nil hstalled]
  simp [Lane.perform, Lane.waitsCommit, hstalled, hwaits, hasleep, hgroup, hcommit]

/-- A store of the debugger that the map allows is performed (R497, R501). -/
theorem Lane.sysbus_stores {a n v : Nat} {L : Lane} (hscope : L.scope 1 = true) (hn : n = 4 ∨ n = 8) (hok : accessOk none a n true = true)
    (hprotected : Lane.busProtected a = false) (hslice : L.sliceHolds a = false) (hasleep : L.asleep a = none) :
    L.sysbus a n (some v) = L.busStore none ⟨a, n, v % 2 ^ (8 * n)⟩ := by
  have halign : a % n = 0 := by
    simp only [accessOk, Bool.and_eq_true, decide_eq_true_eq] at hok
    exact hok.1.2
  have hsize : ¬(n ≠ 4 ∧ n ≠ 8) := by omega
  simp [Lane.sysbus, hscope, hsize, hok, hprotected, hslice, hasleep, halign, Lane.when]

theorem getElem_leBytes (n v i : Nat) (h : i < (leBytes n v).length) : (leBytes n v)[i] = BitVec.ofNat 8 (v / 256 ^ i) := by
  induction i generalizing n v with
  | zero => cases n with
    | zero => simp [leBytes] at h
    | succ n => simp [leBytes]
  | succ i ih => cases n with
    | zero => simp [leBytes] at h
    | succ n =>
      have hi := ih n (v / 256) (by simpa [leBytes] using h)
      simp only [leBytes, List.getElem_cons_succ, hi, Nat.div_div_eq_div_mul, Nat.pow_succ, Nat.mul_comm]

/-- The bytes of a number cut to n bytes are those of the number. -/
theorem byte_of_cut {n v i : Nat} (hi : i < n) : BitVec.ofNat 8 (v % 2 ^ (8 * n) / 256 ^ i) = BitVec.ofNat 8 (v / 256 ^ i) := by
  obtain ⟨k, rfl⟩ : ∃ k, n = i + (k + 1) := ⟨n - i - 1, by omega⟩
  rw [Nat.pow_mul, Nat.pow_add, show (2 : Nat) ^ 8 = 256 from rfl, Nat.mod_mul_right_div_self, Nat.pow_succ]
  apply BitVec.eq_of_toNat_eq
  rw [BitVec.toNat_ofNat, BitVec.toNat_ofNat, Nat.mod_mul_left_mod]

theorem debugSysbusAccess_stores (l : LaneId) (a n v : Nat) : Does (.debugSysbusAccess l a n (some v))
    (fun L => L.powered = true ∧ L.scope 1 = true ∧ (n = 4 ∨ n = 8) ∧ accessOk none a n true = true ∧ placeOf a = .sram ∧ L.sliceHolds a = false ∧
      L.commitHolds a n = false ∧ L.ret.stalled = [] ∧ L.waitsAt none = none ∧ L.asleep a = none ∧ L.groupHolds a n = false)
    (fun L M => M = { L with sram := M.sram } ∧
      ∀ b, Tab.get 0 M.sram b = if a ≤ b ∧ b < a + n then BitVec.ofNat 8 (v / 256 ^ (b - a)) else Tab.get 0 L.sram b) := by
  refine debugSysbusAccess_does (fun _ h => h.1) fun L h => ?_
  obtain ⟨-, hscope, hn, hok, hplace, hslice, hcommit, hstalled, hwaits, hasleep, hgroup⟩ := h
  have hnow : L.sysbus a n (some v) = L.sramWrite a (leBytes n (v % 2 ^ (8 * n))) := by
    rw [Lane.sysbus_stores hscope hn hok (busProtected_of_sram hplace) hslice hasleep, Lane.busStore_now hstalled hwaits hasleep hgroup hcommit,
      Lane.storeNow]
    dsimp only
    rw [hplace]
    rfl
  rw [hnow]
  refine ⟨rfl, fun b => ?_⟩
  split
  · next hb =>
    obtain ⟨i, rfl⟩ : ∃ i, b = a + i := ⟨b - a, by omega⟩
    have hi : i < n := by omega
    rw [Nat.add_sub_cancel_left, ← byte_of_cut hi]
    exact (Tab.get_putList_in _ _ _ i (by rw [length_leBytes]; exact hi)).trans (getElem_leBytes _ _ _ _)
  · next hb => exact L.sramByte_write_out a _ b (by rw [length_leBytes]; omega)

/-! #### Harts that go on and harts that wait -/

theorem debugResumeRequest_resumes (l : LaneId) (c : Core) : Does (.debugResumeRequest l c)
    (fun L => L.powered = true ∧ L.scope 0 = true ∧ L.hartThere c = true ∧ (vget L.core c).run = .debugHalted)
    (fun L M => (vget M.core c).run = .running ∧ vget M.dbg.haltreq c = false ∧ vget M.dbg.resumeack c = true ∧
      M = { L with core := M.core, dbg := M.dbg }) := by
  refine does_of (fun L => L.when L.powered (Lane.resumeRequest c)) (fun _ => rfl) fun L h => ?_
  obtain ⟨hp, hscope, hthere, hrun⟩ := h
  rw [Lane.when_of_true _ _ hp, Lane.resumeRequest, hscope, hthere]
  refine ⟨?_, vget_vupd_same _ _ _, vget_vupd_same _ _ _, rfl⟩
  exact (congrArg CoreSt.run (vget_vupd_same L.core c _)).trans (if_pos hrun)

theorem wfi_core_waits (l : LaneId) (c : Core) : Does (.wfi l (some c))
    (fun L => L.firmware = true ∧ (vget L.core c).run = .running)
    (fun L M => (vget M.core c).run = .wfi ∧ (∀ d, d ≠ c → vget M.core d = vget L.core d) ∧ M = { L with core := M.core }) := by
  refine does_of (fun L => L.when L.firmware (Lane.waits (some c))) (fun _ => rfl) fun L h => ?_
  rw [Lane.when_of_true _ _ h.1]
  refine ⟨?_, fun d hd => vget_vupd_ne L.core _ (Ne.symm hd), rfl⟩
  exact (congrArg CoreSt.run (vget_vupd_same L.core c _)).trans (if_pos h.2)

theorem wfi_network_waits (l : LaneId) : Does (.wfi l none)
    (fun L => L.firmware = true) (fun L M => M.power.netWfi = true ∧ M = { L with power := M.power }) := by
  refine does_of (fun L => L.when L.firmware (Lane.waits none)) (fun _ => rfl) fun L h => ?_
  rw [Lane.when_of_true _ _ h]
  exact ⟨rfl, rfl⟩

/-- Settles O16: what a debugger does in its scopes, and what it is refused without them. -/
theorem debugger : Obligations.debugger :=
  ⟨debugHaltRequest_halts, debugHaltRequest_unavailable, debugAbstractCommand_unavailable, debugAbstractCommand_reads, debugAbstractCommand_writes,
    debugSysbusAccess_closed, debugSysbusAccess_stores, debugSysbusAccess_protected, debugResumeRequest_resumes, wfi_core_waits, wfi_network_waits⟩

end Sys2Proof.Machine

namespace Sys2Proof.Machine

/-! ### What interrupts of the harts leave (R135, R462) -/

/-- A core but for whether it runs and how many interrupts it has taken. -/
def CoreSt.uninterrupted (x : CoreSt) : CoreSt := { x with run := .stopped, taken := 0 }

/-- Between two states of a lane only registers, cores, pairs, the PLIC and the power domains differ. -/
def Lane.PairsOnly (L M : Lane) : Prop := M = { L with regs := M.regs, core := M.core, pair := M.pair, plic := M.plic, power := M.power }

theorem Lane.PairsOnly.trans {L M N : Lane} (h : L.PairsOnly M) (k : M.PairsOnly N) : L.PairsOnly N := by
  rw [Lane.PairsOnly, h] at k
  exact k

theorem Lane.PairsOnly.el {L M : Lane} (h : L.PairsOnly M) : M.el = L.el := by rw [h]; rfl

/-- M is L after interrupts of its harts: cores at most run and have taken them, pairs have latched them, domains wake. -/
structure Lane.Interrupts (L M : Lane) : Prop where
  frame : L.PairsOnly M
  rd : ∀ g : Fld, g.key / 64 < 0x20040000 ∨ 0x20040060 ≤ g.key / 64 → M.rd g = L.rd g
  core : ∀ c, (vget M.core c).uninterrupted = (vget L.core c).uninterrupted

section
variable {L M N : Lane}

theorem Lane.Interrupts.refl (L : Lane) : L.Interrupts L := ⟨rfl, fun _ _ => rfl, fun _ => rfl⟩

theorem Lane.Interrupts.trans (h : L.Interrupts M) (k : M.Interrupts N) : L.Interrupts N :=
  ⟨h.frame.trans k.frame, fun g hg => (k.rd g hg).trans (h.rd g hg), fun c => (k.core c).trans (h.core c)⟩

theorem Lane.Interrupts.when (h : L.Interrupts M) (b : Bool) {f : Lane → Lane} (hf : M.Interrupts (f M)) : L.Interrupts (M.when b f) := by
  cases b
  · exact h
  · exact h.trans hf

theorem Lane.onPair_interrupts (p : Pair) (g : PairSt → PairSt) (L : Lane) : L.Interrupts (L.onPair p g) := ⟨rfl, fun _ _ => rfl, fun _ => rfl⟩

theorem Lane.onCore_interrupts (c : Core) (g : CoreSt → CoreSt) (L : Lane) (hg : ∀ x, (g x).uninterrupted = x.uninterrupted) :
    L.Interrupts (L.onCore c g) := by
  refine ⟨rfl, fun _ _ => rfl, fun d => ?_⟩
  rw [show vget (L.onCore c g).core d = _ from vget_vupd L.core c d g]
  split
  · exact hg _
  · rfl

theorem Lane.pdWake_interrupts (d : Fin 8) (who : Nat) (L : Lane) : L.Interrupts (L.pdWake d who) := by
  have hwr {N : Lane} (f : Fld) (v : Nat) (hf : 0x20040000 ≤ f.key / 64 ∧ f.key / 64 < 0x20040060) : N.Interrupts (N.wr f v) :=
    ⟨rfl, fun g hg => N.rd_wr_ne v fun e => by rw [e] at hf; omega, fun _ => rfl⟩
  have hcount (N : Lane) (how : Nat) : N.Interrupts (N.pdCount d who how) :=
    ((hwr _ _ (by simp only [Fld.key, Reg.PD_ACCT_COUNT]; omega)).trans (hwr _ _ (by simp only [Fld.key, Reg.PD_ACCT_WHO]; omega))).trans
      (hwr _ _ (by simp only [Fld.key, Reg.PD_ACCT_HOW]; omega))
  unfold Lane.pdWake
  dsimp only
  split
  · exact ⟨rfl, fun _ _ => rfl, fun _ => rfl⟩
  split
  · have hwake : L.Interrupts (L.wr (Lane.pdFld d) 4) := hwr _ _ (by simp only [Fld.key, Lane.pdFld]; omega)
    exact (hwake.trans (N := (L.wr (Lane.pdFld d) 4).onDom d _) ⟨rfl, fun _ _ => rfl, fun _ => rfl⟩).when _ (hcount _ _)
  · exact .refl L

theorem Lane.interrupt_interrupts (c : Core) (L : Lane) : L.Interrupts (L.interrupt c) := by
  have hrun := L.onCore_interrupts c
    (fun x => { x with run := if x.run = .wfi && (decide (pairOf c = 0) || decide (L.rd (Lane.pdFld 1) = 0)) then .running else x.run }) fun _ => rfl
  unfold Lane.interrupt
  dsimp only
  split
  · exact hrun.trans (Lane.onPair_interrupts _ _ _)
  · exact hrun.trans (Lane.onCore_interrupts _ _ _ fun _ => rfl)

/-- The external interrupts of the harts are interrupts of the harts. -/
theorem Lane.plicCheckAll_interrupts (L : Lane) : L.Interrupts L.plicCheckAll := by
  have hcheck (c : Core) (N : Lane) : N.Interrupts (N.plicCheck c) := by
    have heip (e : Vector Bool 4) : N.Interrupts { N with plic := { N.plic with eip := e } } := ⟨rfl, fun _ _ => rfl, fun _ => rfl⟩
    have hcore (K : Lane) : K.Interrupts (K.coreInterrupt c) := (K.interrupt_interrupts c).when _ (Lane.pdWake_interrupts 1 17 _)
    exact (heip _).when _ (hcore _)
  have hfold (cs : List Core) (N : Lane) : N.Interrupts (N.each cs Lane.plicCheck) := by
    unfold Lane.each
    induction cs generalizing N with
    | nil => exact .refl N
    | cons c cs ih => exact (hcheck c N).trans (ih (N.plicCheck c))
  exact hfold _ L

/-- An interrupt that a pair has latched is taken (R135). -/
theorem Lane.takeIrq_interrupts (c : Core) (leads : Bool) (num : Nat) (L : Lane) : L.Interrupts (L.takeIrq c leads num) := by
  have htake := L.onCore_interrupts c (fun x => { x with taken := x.taken + 1 }) fun _ => rfl
  unfold Lane.takeIrq
  dsimp only
  split
  · exact (Lane.Interrupts.refl L).when _ (htake.trans (Lane.onPair_interrupts _ _ _))
  · exact (Lane.Interrupts.refl L).when _ (htake.trans (Lane.onPair_interrupts _ _ _))

end

/-! ### Checkpoints (R135 to R137) -/

/-- The signature that a checkpoint of a core records (R136, R137). -/
def Lane.sigNow (L : Lane) (c : Core) : Nat := if (vget L.core c).marked then sigInit else L.rd (Reg.CM_SIG c.val)

/-- The number of the next checkpoint of a core (R137). -/
def Lane.nextNum (L : Lane) (c : Core) : Nat := ((vget L.core c).ckpt + 1) % 2 ^ 32

/-- The checkpoint that a core marks now (R137). -/
def Lane.markNow (L : Lane) (c : Core) (tag : Word) : Mark :=
  ⟨L.el, L.nextNum c, BitVec.ofNat 64 (L.sigNow c), (vget L.core c).count, tag, (vget L.core c).poison, (vget L.core c).obuf⟩

/-- A core that has marked a checkpoint (R137). -/
def CoreSt.withMark (num : Nat) (m : Mark) (x : CoreSt) : CoreSt :=
  { x with ckpt := num, marks := x.marks ++ [m], obuf := [], count := 0, marked := true, poison := false }

/-- A core marks its checkpoint, before a latched interrupt is taken (R137). -/
def Lane.markedNow (c : Core) (tag : Word) (L : Lane) : Lane :=
  (L.wr (Reg.CM_SIG c.val) (L.sigNow c)).onCore c (CoreSt.withMark (L.nextNum c) (L.markNow c tag))

/-- A mark is followed by the interrupts of the pair and by the comparison (R135, R137). -/
theorem Lane.mark_eq (c : Core) (tag : Word) (L : Lane) : L.mark c tag =
    ((L.plicCheckAll.markedNow c tag).takeIrq c (decide ((vget L.plicCheckAll.core (partner c)).ckpt ≠ L.plicCheckAll.nextNum c))
      (L.plicCheckAll.nextNum c)).compare (pairOf c) := rfl

/-- M is L after a core has marked a checkpoint and its pair's interrupts. -/
structure Lane.Marks (c : Core) (tag : Word) (L M : Lane) : Prop where
  frame : L.PairsOnly M
  sig : M.rd (Reg.CM_SIG c.val) = L.sigNow c % 2 ^ 64
  core : (vget M.core c).uninterrupted = ((vget L.core c).withMark (L.nextNum c) (L.markNow c tag)).uninterrupted
  other : ∀ d, d ≠ c → (vget M.core d).uninterrupted = (vget L.core d).uninterrupted

/-- What a core of the pair has marked. -/
theorem Lane.Interrupts.markNow {L M : Lane} (h : L.Interrupts M) (c : Core) (tag : Word) :
    M.sigNow c = L.sigNow c ∧ M.nextNum c = L.nextNum c ∧ M.markNow c tag = L.markNow c tag := by
  have hx := h.core c
  have hlt := c.isLt
  have hmarked : (vget M.core c).marked = (vget L.core c).marked := (congrArg CoreSt.marked hx :)
  have hckpt : (vget M.core c).ckpt = (vget L.core c).ckpt := (congrArg CoreSt.ckpt hx :)
  have hcount : (vget M.core c).count = (vget L.core c).count := (congrArg CoreSt.count hx :)
  have hpoison : (vget M.core c).poison = (vget L.core c).poison := (congrArg CoreSt.poison hx :)
  have hobuf : (vget M.core c).obuf = (vget L.core c).obuf := (congrArg CoreSt.obuf hx :)
  have hsig : M.sigNow c = L.sigNow c := by
    rw [Lane.sigNow, Lane.sigNow, hmarked, h.rd _ (.inl (by simp only [Fld.key, Reg.CM_SIG]; omega))]
  have hnum : M.nextNum c = L.nextNum c := by rw [Lane.nextNum, Lane.nextNum, hckpt]
  exact ⟨hsig, hnum, by rw [Lane.markNow, Lane.markNow, hsig, hnum, hcount, hpoison, hobuf, h.frame.el]⟩

theorem Lane.markedNow_marks (c : Core) (tag : Word) (L : Lane) : L.Marks c tag (L.markedNow c tag) := by
  refine ⟨rfl, L.rd_wr_same _ _, ?_, fun d hd => ?_⟩
  · exact congrArg CoreSt.uninterrupted (vget_vupd_same L.core c _)
  · exact congrArg CoreSt.uninterrupted (vget_vupd_ne L.core _ (Ne.symm hd))

/-- Interrupts before a mark do not show in it. -/
theorem Lane.Interrupts.marks {c : Core} {tag : Word} {L M N : Lane} (h : L.Interrupts M) (k : M.Marks c tag N) : L.Marks c tag N := by
  obtain ⟨hsig, hnum, hmark⟩ := h.markNow c tag
  have hx : ((vget M.core c).withMark (L.nextNum c) (L.markNow c tag)).uninterrupted =
      ((vget L.core c).withMark (L.nextNum c) (L.markNow c tag)).uninterrupted := by
    have hc := h.core c
    generalize vget M.core c = x at hc
    generalize vget L.core c = y at hc
    cases x
    cases y
    simp only [CoreSt.uninterrupted, CoreSt.mk.injEq] at hc
    simp only [CoreSt.withMark, CoreSt.uninterrupted, CoreSt.mk.injEq]
    simp only [hc, and_self]
  exact ⟨h.frame.trans k.frame, hsig ▸ k.sig, by rw [k.core, hnum, hmark, hx], fun d hd => (k.other d hd).trans (h.core d)⟩

/-- Interrupts after a mark leave it. -/
theorem Lane.Marks.interrupted {c : Core} {tag : Word} {L M N : Lane} (h : L.Marks c tag M) (k : M.Interrupts N) : L.Marks c tag N := by
  have hlt := c.isLt
  have hrd := k.rd (Reg.CM_SIG c.val) (.inl (by simp only [Fld.key, Reg.CM_SIG]; omega))
  exact ⟨h.frame.trans k.frame, hrd.trans h.sig, (k.core c).trans h.core, fun d hd => (k.core d).trans (h.other d hd)⟩

/-- The state that a mark gives to the comparator. -/
theorem Lane.mark_marks (c : Core) (tag : Word) (L : Lane) : ∃ M, L.mark c tag = M.compare (pairOf c) ∧ L.Marks c tag M :=
  ⟨_, L.mark_eq c tag, L.plicCheckAll_interrupts.marks ((L.plicCheckAll.markedNow_marks c tag).interrupted (Lane.takeIrq_interrupts _ _ _ _))⟩

/-! ### The comparison (R137 to R139) -/

/-- The comparator has nothing to take while one core has marked nothing. -/
theorem Lane.compare_waits {p : Pair} {L : Lane} (h : (vget L.core (evenCore p)).marks = [] ∨ (vget L.core (oddCore p)).marks = []) :
    L.compare p = L := by
  unfold Lane.compare
  split
  · next ha hb => simp [ha, hb] at h
  · rfl

/-- Two checkpoints agree (R138). -/
def Mark.agrees (a b : Mark) : Prop := a.poisoned = false ∧ b.poisoned = false ∧ a.sig = b.sig ∧ a.count = b.count ∧ a.tag = b.tag

/-- The oldest checkpoint of a core is taken. -/
def CoreSt.popped (x : CoreSt) : CoreSt := { x with marks := x.marks.tail }

theorem Lane.compare_agrees {p : Pair} {L : Lane} {a b : Mark} (ha : (vget L.core (evenCore p)).marks = [a]) (hb : (vget L.core (oddCore p)).marks = [b])
    (hab : a.agrees b) (hw : a.writes = []) : L.compare p =
      ((((L.onCore (evenCore p) CoreSt.popped).onCore (oddCore p) CoreSt.popped).sigReset (evenCore p)).sigReset (oddCore p)).wr (Reg.CM_NUM p.val) a.num := by
  obtain ⟨hpa, hpb, hsig, hcount, htag⟩ := hab
  unfold Lane.compare
  rw [ha, hb]
  simp only [hpa, hpb, hsig, hcount, htag, hw, ne_eq, not_true_eq_false, decide_false, Bool.or_self, Bool.false_eq_true, if_false]
  rfl

/-- Checkpoints whose signatures differ are a mismatch (R138). -/
theorem Lane.compare_differs {p : Pair} {L : Lane} {a b : Mark} (ha : (vget L.core (evenCore p)).marks = [a]) (hb : (vget L.core (oddCore p)).marks = [b])
    (hab : a.sig ≠ b.sig) : L.compare p = L.mismatched p 0 a.num := by
  unfold Lane.compare
  rw [ha, hb]
  simp [hab]

/-! #### The match -/

theorem Lane.sigReset_marks (d e : Core) (L : Lane) : (vget (L.sigReset d).core e).marks = (vget L.core e).marks := by
  unfold Lane.sigReset Lane.when
  split
  · rw [show vget (((L.wr (Reg.CM_SIG d.val) sigInit).onCore d fun x => { x with marked := false }).core) e = _ from vget_vupd L.core d e _]
    split <;> rfl
  · rfl

theorem Lane.sigReset_pairsOnly (d : Core) (L : Lane) : L.PairsOnly (L.sigReset d) := by
  unfold Lane.sigReset Lane.when
  split <;> rfl

theorem sigInit_lt (c : Nat) : sigInit < 2 ^ (Reg.CM_SIG c).w := by
  rw [show (Reg.CM_SIG c).w = 64 from rfl]
  decide

/-- A core that has gone no further begins a new signature (R137). -/
theorem Lane.sigReset_resets {d : Core} {L : Lane} (hmarked : (vget L.core d).marked = true) (hmarks : (vget L.core d).marks = []) :
    (L.sigReset d).rd (Reg.CM_SIG d.val) = sigInit ∧ (vget (L.sigReset d).core d).marked = false := by
  rw [Lane.sigReset, Lane.when_of_true _ _ (by rw [hmarked, hmarks]; rfl)]
  refine ⟨(L.rd_wr_same (Reg.CM_SIG d.val) sigInit).trans (Nat.mod_eq_of_lt (sigInit_lt d.val)), ?_⟩
  exact congrArg CoreSt.marked (vget_vupd_same L.core d fun x => { x with marked := false })

theorem Lane.sigReset_other {d e : Core} (h : d ≠ e) (L : Lane) :
    (L.sigReset d).rd (Reg.CM_SIG e.val) = L.rd (Reg.CM_SIG e.val) ∧ vget (L.sigReset d).core e = vget L.core e := by
  have hkey : (Reg.CM_SIG d.val).key ≠ (Reg.CM_SIG e.val).key := by revert d e; decide
  unfold Lane.sigReset Lane.when
  split
  · exact ⟨L.rd_wr_ne sigInit hkey, vget_vupd_ne L.core _ h⟩
  · exact ⟨rfl, rfl⟩

/-- The two signatures of a pair are reset. -/
theorem Lane.sigResets {p : Pair} {L : Lane} {c : Core} (hc : pairOf c = p) (hmarked : (vget L.core c).marked = true) (hmarks : (vget L.core c).marks = []) :
    ((L.sigReset (evenCore p)).sigReset (oddCore p)).rd (Reg.CM_SIG c.val) = sigInit ∧
      (vget ((L.sigReset (evenCore p)).sigReset (oddCore p)).core c).marked = false := by
  have hne := evenCore_ne_oddCore (pairOf c)
  subst hc
  rcases even_or_odd c with ⟨h, -⟩ | ⟨h, -⟩
  · obtain ⟨hsig, hcore⟩ := (L.sigReset (evenCore (pairOf c))).sigReset_other (d := oddCore (pairOf c)) (e := c) fun e => hne (h.symm.trans e.symm)
    rw [hsig, hcore, ← h]
    exact Lane.sigReset_resets hmarked hmarks
  · obtain ⟨-, hcore⟩ := L.sigReset_other (d := evenCore (pairOf c)) (e := c) fun e => hne (e.trans h)
    rw [← h]
    exact Lane.sigReset_resets (by rw [hcore, hmarked]) (by rw [hcore, hmarks])

theorem num_ne_sig (p : Pair) (c : Core) : (Reg.CM_NUM p.val).key ≠ (Reg.CM_SIG c.val).key := by revert p c; decide

/-- A match lets the interval go, writes CM_NUM and resets the signatures (R137). -/
theorem Lane.compare_matches {p : Pair} {L : Lane} {a b : Mark} (ha : (vget L.core (evenCore p)).marks = [a])
    (hb : (vget L.core (oddCore p)).marks = [b]) (hab : a.agrees b) (hw : a.writes = []) :
    L.PairsOnly (L.compare p) ∧ (L.compare p).rd (Reg.CM_NUM p.val) = a.num % 2 ^ 32 ∧
      ∀ c, pairOf c = p → (vget (L.compare p).core c).marks = [] ∧ ((vget L.core c).marked = true →
        (L.compare p).rd (Reg.CM_SIG c.val) = sigInit ∧ (vget (L.compare p).core c).marked = false) := by
  have hpop (c : Core) (hc : pairOf c = p) : vget ((L.onCore (evenCore p) CoreSt.popped).onCore (oddCore p) CoreSt.popped).core c =
      (vget L.core c).popped := (vget_pairCores L.core CoreSt.popped p c).trans (if_pos hc)
  have hnil (c : Core) (hc : pairOf c = p) : (vget ((L.onCore (evenCore p) CoreSt.popped).onCore (oddCore p) CoreSt.popped).core c).marks = [] := by
    subst hc
    rw [hpop c rfl, CoreSt.popped]
    rcases even_or_odd c with ⟨h, -⟩ | ⟨h, -⟩ <;> rw [h]
    · exact congrArg List.tail ha
    · exact congrArg List.tail hb
  rw [Lane.compare_agrees ha hb hab hw]
  refine ⟨?_, Lane.rd_wr_same _ _ _, fun c hc => ⟨?_, fun hmarked => ?_⟩⟩
  · have hfirst : L.PairsOnly ((L.onCore (evenCore p) CoreSt.popped).onCore (oddCore p) CoreSt.popped) := rfl
    exact ((hfirst.trans (Lane.sigReset_pairsOnly _ _)).trans (Lane.sigReset_pairsOnly _ _)).trans rfl
  · exact (Lane.sigReset_marks _ _ _).trans ((Lane.sigReset_marks _ _ _).trans (hnil c hc))
  · obtain ⟨hsig, hreset⟩ := Lane.sigResets hc (by rw [hpop c hc]; exact hmarked) (hnil c hc)
    refine ⟨?_, hreset⟩
    rw [Lane.rd_wr_ne _ _ (num_ne_sig p c), hsig]

end Sys2Proof.Machine

namespace Sys2Proof.Machine

/-! ### A mismatch (R138, R139) -/

/-- The mismatch of a pair as CM_MISMATCH shows it, before the lane withdraws and the source fires (R139). -/
def Lane.mismatchShown (p : Pair) (kind num : Nat) (L : Lane) : Lane :=
  (((L.discard p).loadFields
    [(Reg.CM_MISMATCH_PAIR, p.val), (Reg.CM_MISMATCH_KIND, kind), (Reg.CM_MISMATCH_EVEN_FAIL, 0), (Reg.CM_MISMATCH_ODD_FAIL, 0),
     (Reg.CM_MISMATCH_OUTCOME, 0), (Reg.CM_MISMATCH_NEW, 1), (Reg.CM_MISMATCH_NUM, num)]).count Reg.CM_MISMATCH_COUNT 1).onPair p
      fun x => { x with num := num }

/-- The lane withdraws from what it holds or follows, where the pair is P_0 (R146). -/
def Lane.mismatchWithdrawn (p : Pair) (L : Lane) : Lane :=
  L.when (decide (p = 0)) fun L => L.each (Func.all.filter fun f => decide (L.role f = 1) || decide (L.role f = 2)) Lane.withdraw

/-- The pair stops for its self-test; the guard suspends its challenges for P_0 (R139, R319). -/
def Lane.selfTestBegun (p : Pair) (L : Lane) : Lane :=
  (((L.coresDo p .selfTest).wrBit Reg.CM_STATUS_SELFTEST p.val true).restart (.selfTest p)).when (decide (p = 0)) Lane.suspend

theorem Lane.mismatched_eq (p : Pair) (kind num : Nat) (L : Lane) :
    L.mismatched p kind num = (((L.mismatchShown p kind num).mismatchWithdrawn p).fire (16 + p.val)).selfTestBegun p := by
  unfold Lane.mismatched Lane.mismatchShown
  generalize L.discard p = M
  rfl

/-- What CM_MISMATCH shows (R139). -/
theorem Lane.mismatchShown_rd (p : Pair) (kind num : Nat) (L : Lane) :
    (L.mismatchShown p kind num).rd Reg.CM_MISMATCH_KIND = kind % 4 ∧ (L.mismatchShown p kind num).rd Reg.CM_MISMATCH_NEW = 1 ∧
      (L.mismatchShown p kind num).rd Reg.CM_MISMATCH_PAIR = p.val ∧ (L.mismatchShown p kind num).rd Reg.CM_MISMATCH_NUM = num % 2 ^ 32 := by
  have hp : p.val % 2 ^ 1 = p.val := Nat.mod_eq_of_lt p.isLt
  have honPair (M : Lane) (h : PairSt → PairSt) (g : Fld) : (M.onPair p h).rd g = M.rd g := rfl
  unfold Lane.mismatchShown Lane.loadFields
  generalize L.discard p = M
  simp only [honPair, List.foldl_cons, List.foldl_nil]
  refine ⟨?_, ?_, ?_, ?_⟩ <;> rw [Lane.rd_count_ne _ _ (by decide)]
  · rw [Lane.rd_wr_ne _ _ (by decide), Lane.rd_wr_ne _ _ (by decide), Lane.rd_wr_ne _ _ (by decide), Lane.rd_wr_ne _ _ (by decide),
      Lane.rd_wr_ne _ _ (by decide), Lane.rd_wr_same]
    rfl
  · rw [Lane.rd_wr_ne _ _ (by decide), Lane.rd_wr_same]
    rfl
  · rw [Lane.rd_wr_ne _ _ (by decide), Lane.rd_wr_ne _ _ (by decide), Lane.rd_wr_ne _ _ (by decide), Lane.rd_wr_ne _ _ (by decide),
      Lane.rd_wr_ne _ _ (by decide), Lane.rd_wr_ne _ _ (by decide), Lane.rd_wr_same]
    exact hp
  · rw [Lane.rd_wr_same]
    rfl

theorem Lane.mismatchShown_core (p : Pair) (kind num : Nat) (L : Lane) {c : Core} (hc : pairOf c = p) :
    vget (L.mismatchShown p kind num).core c = (vget L.core c).discarded := by
  rw [show (L.mismatchShown p kind num).core = (L.discard p).core by unfold Lane.mismatchShown; generalize L.discard p = M; rfl,
    Lane.discard_core, if_pos hc]

theorem Lane.mismatchShown_pair (p : Pair) (kind num : Nat) (L : Lane) : (vget (L.mismatchShown p kind num).pair p).repl = [] := by
  rw [show (L.mismatchShown p kind num).pair = vupd (L.discard p).pair p (fun x => { x with num := num }) by
    unfold Lane.mismatchShown; generalize L.discard p = M; rfl, vget_vupd_same, Lane.discard_pair]

/-- Withdrawals change the votes alone. -/
theorem Lane.mismatchWithdrawn_vote (p : Pair) (L : Lane) : L.mismatchWithdrawn p = { L with vote := (L.mismatchWithdrawn p).vote } := by
  unfold Lane.mismatchWithdrawn Lane.when
  split
  · have h := (L.each_withdraws (Func.all.filter fun f => decide (L.role f = 1) || decide (L.role f = 2))).only
    dsimp only
    rw [h]
  · rfl

/-- Both cores of the pair are under self-test, and the other fields of CM stand. -/
theorem Lane.selfTestBegun_spec (p : Pair) (L : Lane) :
    (∀ c, pairOf c = p → vget (L.selfTestBegun p).core c = { vget L.core c with run := .selfTest }) ∧ (L.selfTestBegun p).pair = L.pair ∧
      (L.selfTestBegun p).bitOf Reg.CM_STATUS_SELFTEST p.val = true ∧
      ∀ g : Fld, Reg.CM_STATUS_SELFTEST.key ≠ g.key → g.key / 64 ≠ 0x20170010 → (L.selfTestBegun p).rd g = L.rd g := by
  have hsuspend (N : Lane) (g : Fld) (hg : g.key / 64 ≠ 0x20170010) : (N.when (decide (p = 0)) Lane.suspend).rd g = N.rd g :=
    have hne {f : Fld} (hf : f.key / 64 = 0x20170010) : f.key ≠ g.key := fun e => hg (e ▸ hf)
    Lane.when_proj _ Lane.suspend (Lane.rd · g) (fun K => (Lane.rd_clr_ne _ (hne rfl)).trans (K.rd_set1_ne (hne rfl))) N
  refine ⟨fun c hc => ?_, Lane.when_proj _ Lane.suspend Lane.pair (fun _ => rfl) _, ?_, fun g hg hs => ?_⟩
  · have hcore : (L.selfTestBegun p).core = (L.coresDo p .selfTest).core := Lane.when_proj _ Lane.suspend Lane.core (fun _ => rfl) _
    rw [hcore]
    exact (vget_pairCores L.core (fun x => { x with run := CoreRun.selfTest }) p c).trans (if_pos hc)
  · rw [Lane.bitOf, Lane.selfTestBegun, hsuspend _ _ (by decide)]
    refine ((L.coresDo p .selfTest).bitOf_wrBit Reg.CM_STATUS_SELFTEST p.val p.val true).trans ?_
    rw [if_pos rfl, Bool.and_true]
    exact decide_eq_true p.isLt
  · rw [Lane.selfTestBegun, hsuspend _ _ hs]
    exact (L.coresDo p .selfTest).rd_wr_ne _ hg

/-- Sources 16 and 17 are no reserved positions (R359). -/
theorem mismatchSource_fires (p : Pair) : fixedClass (16 + p.val) ≠ 0 := by revert p; decide

/-- What follows once a mismatch is shown (R139). -/
theorem Lane.mismatch_follows (p : Pair) (L : Lane) :
    (((L.mismatchWithdrawn p).fire (16 + p.val)).selfTestBegun p).sticky (16 + p.val) = true ∧
      (((L.mismatchWithdrawn p).fire (16 + p.val)).selfTestBegun p).bitOf Reg.CM_STATUS_SELFTEST p.val = true ∧
      (((L.mismatchWithdrawn p).fire (16 + p.val)).selfTestBegun p).pair = L.pair ∧
      (∀ g : Fld, g.key / 64 = 0x20020080 ∨ g.key / 64 = 0x20020084 → (((L.mismatchWithdrawn p).fire (16 + p.val)).selfTestBegun p).rd g = L.rd g) ∧
      ∀ c, pairOf c = p → vget (((L.mismatchWithdrawn p).fire (16 + p.val)).selfTestBegun p).core c = { vget L.core c with run := .selfTest } := by
  have hvote := L.mismatchWithdrawn_vote p
  have hr := Lane.fire_reacts (16 + p.val) (.refl (L.mismatchWithdrawn p))
  have hw := (Lane.Weathers.refl (L.mismatchWithdrawn p)).fire (16 + p.val)
  have hs := (L.mismatchWithdrawn p).fire_sticky (16 + p.val) (mismatchSource_fires p)
  obtain ⟨hcores, hpairs, htest, hkeep⟩ := ((L.mismatchWithdrawn p).fire (16 + p.val)).selfTestBegun_spec p
  refine ⟨?_, htest, hpairs.trans (hw.pair.trans (by rw [hvote])), fun g hg => ?_, fun c hc => ?_⟩
  · have hlt := p.isLt
    rw [Lane.sticky, Lane.bitOf, hkeep _ (by rw [show (16 + p.val) / 32 = 0 by omega]; decide) (by rw [show (16 + p.val) / 32 = 0 by omega]; decide)]
    exact hs
  · have hne : Reg.CM_STATUS_SELFTEST.key ≠ g.key := fun e => by
      rw [← e] at hg
      revert hg
      decide
    rw [hkeep g hne (by omega), hr.rd g (not_reacts_of_cm (by omega)), hvote]
    rfl
  · rw [hcores c hc]
    rcases hw.core c with h | h <;> rw [h, hvote]

/-- A mismatch of a pair is shown, raises its source and begins the self-test of both cores with their output discarded (R138, R139). -/
theorem Lane.mismatched_begins (p : Pair) (kind num : Nat) (L : Lane) :
    (L.mismatched p kind num).sticky (16 + p.val) = true ∧ (L.mismatched p kind num).rd Reg.CM_MISMATCH_KIND = kind % 4 ∧
      (L.mismatched p kind num).is Reg.CM_MISMATCH_NEW = true ∧ (L.mismatched p kind num).rd Reg.CM_MISMATCH_PAIR = p.val ∧
      (L.mismatched p kind num).rd Reg.CM_MISMATCH_NUM = num % 2 ^ 32 ∧ (L.mismatched p kind num).bitOf Reg.CM_STATUS_SELFTEST p.val = true ∧
      (vget (L.mismatched p kind num).pair p).repl = [] ∧
      ∀ c, pairOf c = p → (vget (L.mismatched p kind num).core c).run = .selfTest ∧ (vget (L.mismatched p kind num).core c).obuf = [] ∧
        (vget (L.mismatched p kind num).core c).marks = [] := by
  obtain ⟨hkind, hnew, hpair, hnum⟩ := L.mismatchShown_rd p kind num
  obtain ⟨hsticky, htest, hpairs, hrd, hcores⟩ := (L.mismatchShown p kind num).mismatch_follows p
  rw [Lane.mismatched_eq]
  refine ⟨hsticky, (hrd _ (by decide)).trans hkind, ?_, (hrd _ (by decide)).trans hpair, (hrd _ (by decide)).trans hnum, htest, ?_, fun c hc => ?_⟩
  · rw [Lane.is, hrd _ (by decide), hnew]
    rfl
  · rw [hpairs, Lane.mismatchShown_pair]
  · rw [hcores c hc, Lane.mismatchShown_core p kind num L hc]
    exact ⟨rfl, rfl, rfl⟩

end Sys2Proof.Machine

namespace Sys2Proof.Machine

/-! ### Writes of CM_CKPT and the lag (R137, R138, R144) -/

theorem cmCkptWrite_does {l : LaneId} {c : Core} {tag : Word} {pre : Lane → Prop} {post : Lane → Lane → Prop}
    (hpre : ∀ L, pre L → L.coreLive c = true)
    (hpost : ∀ L, pre L → post L ((L.coreRuns c).checkpoint c tag)) : Does (.cmCkptWrite l c tag) pre post :=
  does_of (fun L => L.when (L.coreLive c) fun L => (L.coreRuns c).checkpoint c tag) (fun _ => rfl) fun L h => by
    rw [Lane.when_of_true _ _ (hpre L h)]
    exact hpost L h

/-- A core that is not PAIRED only counts (R144). -/
theorem cmCkptWrite_unpaired (l : LaneId) (c : Core) (tag : Word) : Does (.cmCkptWrite l c tag)
    (fun L => L.coreLive c = true ∧ L.paired (pairOf c) = false)
    (fun L M => (vget M.core c).ckpt = ((vget L.core c).ckpt + 1) % 2 ^ 32 ∧ M = { L with core := M.core } ∧
      vget M.core (partner c) = vget L.core (partner c)) := by
  refine cmCkptWrite_does (fun _ h => h.1) fun L h => ?_
  have hcount : (L.coreRuns c).checkpoint c tag = (L.coreRuns c).onCore c fun x => { x with ckpt := (x.ckpt + 1) % 2 ^ 32 } := by
    rw [Lane.checkpoint, show (L.coreRuns c).paired (pairOf c) = false from h.2]
    rfl
  rw [hcount]
  refine ⟨?_, rfl, ?_⟩
  · refine (congrArg CoreSt.ckpt (vget_vupd_same (L.coreRuns c).core c _)).trans ?_
    rw [L.core_coreRuns]
  · exact (vget_vupd_ne (L.coreRuns c).core _ (Ne.symm (partner_ne c))).trans (vget_vupd_ne L.core _ (Ne.symm (partner_ne c)))

/-- M is L after a core of a paired pair has marked a checkpoint, before the comparison. -/
structure Lane.Checkpointed (c : Core) (tag : Word) (L M : Lane) : Prop where
  frame : L.PairsOnly M
  sig : M.rd (Reg.CM_SIG c.val) = L.sigNow c % 2 ^ 64
  marks : (vget M.core c).marks = (vget L.core c).marks ++ [L.markNow c tag]
  ckpt : (vget M.core c).ckpt = L.nextNum c
  obuf : (vget M.core c).obuf = []
  count : (vget M.core c).count = 0
  marked : (vget M.core c).marked = true
  other : (vget M.core (partner c)).marks = (vget L.core (partner c)).marks

/-- That a core is awake does not show in what it marks. -/
theorem Lane.Marks.checkpointed {c : Core} {tag : Word} {L M : Lane} (h : (L.coreRuns c).Marks c tag M) : L.Checkpointed c tag M := by
  have hx := L.core_coreRuns c
  have hsig : (L.coreRuns c).sigNow c = L.sigNow c := by rw [Lane.sigNow, hx]; rfl
  have hnum : (L.coreRuns c).nextNum c = L.nextNum c := by rw [Lane.nextNum, hx]; rfl
  have hmark : (L.coreRuns c).markNow c tag = L.markNow c tag := by rw [Lane.markNow, hsig, hnum, hx]; rfl
  have hother : vget (L.coreRuns c).core (partner c) = vget L.core (partner c) := vget_vupd_ne L.core _ (Ne.symm (partner_ne c))
  have hcore := h.core
  rw [hnum, hmark, hx] at hcore
  exact
    { frame := Lane.PairsOnly.trans (show L.PairsOnly (L.coreRuns c) from rfl) h.frame
      sig := hsig ▸ h.sig
      marks := (congrArg CoreSt.marks hcore :)
      ckpt := (congrArg CoreSt.ckpt hcore :)
      obuf := (congrArg CoreSt.obuf hcore :)
      count := (congrArg CoreSt.count hcore :)
      marked := (congrArg CoreSt.marked hcore :)
      other := (congrArg CoreSt.marks (hother ▸ h.other _ (partner_ne c)) :) }

/-- A paired core marks a checkpoint, which the comparator then sees (R137). -/
theorem cmCkptWrite_marks {l : LaneId} {c : Core} {tag : Word} {pre : Lane → Prop} {post : Lane → Lane → Prop}
    (hpre : ∀ L, pre L → L.coreLive c = true ∧ L.paired (pairOf c) = true ∧ tag ≠ 0xFFFFFFFF)
    (hpost : ∀ L M, pre L → L.Checkpointed c tag M → post L (M.compare (pairOf c))) : Does (.cmCkptWrite l c tag) pre post := by
  refine cmCkptWrite_does (fun L h => (hpre L h).1) fun L h => ?_
  obtain ⟨-, hpaired, htag⟩ := hpre L h
  obtain ⟨M, hmark, hM⟩ := (L.coreRuns c).mark_marks c tag
  have hcheck : (L.coreRuns c).checkpoint c tag = M.compare (pairOf c) := by
    rw [← hmark, Lane.checkpoint, show (L.coreRuns c).paired (pairOf c) = true from hpaired, if_neg htag, if_pos rfl]
  rw [hcheck]
  exact hpost L M h hM.checkpointed

/-- A leading core waits for the other (R137). -/
theorem cmCkptWrite_leads (l : LaneId) (c : Core) (tag : Word) : Does (.cmCkptWrite l c tag)
    (fun L => L.coreLive c = true ∧ L.paired (pairOf c) = true ∧ tag ≠ 0xFFFFFFFF ∧ (vget L.core (partner c)).marks = [])
    (Lane.Checkpointed c tag) := by
  refine cmCkptWrite_marks (fun _ h => ⟨h.1, h.2.1, h.2.2.1⟩) fun L M h hM => ?_
  obtain ⟨-, -, -, hnil⟩ := h
  have hwaits : M.compare (pairOf c) = M := Lane.compare_waits (by
    rcases even_or_odd c with ⟨-, hp⟩ | ⟨-, hp⟩ <;> rw [← hp, hM.other, hnil]
    · exact .inr rfl
    · exact .inl rfl)
  rwa [hwaits]

/-- The oldest checkpoints of the two cores, in the order of the pair. -/
theorem Lane.marks_in_order {c : Core} {L : Lane} {m b : Mark} (hm : (vget L.core c).marks = [m]) (hb : (vget L.core (partner c)).marks = [b]) :
    ((vget L.core (evenCore (pairOf c))).marks = [m] ∧ (vget L.core (oddCore (pairOf c))).marks = [b]) ∨
      ((vget L.core (evenCore (pairOf c))).marks = [b] ∧ (vget L.core (oddCore (pairOf c))).marks = [m]) := by
  rcases even_or_odd c with ⟨hc, hp⟩ | ⟨hc, hp⟩ <;> rw [← hc, ← hp]
  · exact .inl ⟨hm, hb⟩
  · exact .inr ⟨hb, hm⟩

theorem Mark.agrees.symm {a b : Mark} (h : a.agrees b) : b.agrees a := ⟨h.2.1, h.1, h.2.2.1.symm, h.2.2.2.1.symm, h.2.2.2.2.symm⟩

/-- Equal checkpoints without output writes let the interval go (R137). -/
theorem cmCkptWrite_matches (l : LaneId) (c : Core) (tag : Word) (b : Mark) : Does (.cmCkptWrite l c tag)
    (fun L => (L.coreLive c = true ∧ L.paired (pairOf c) = true ∧ tag ≠ 0xFFFFFFFF) ∧ (vget L.core c).marks = [] ∧
      (vget L.core (partner c)).marks = [b] ∧ b.num = L.nextNum c ∧ (L.markNow c tag).agrees b ∧ b.writes = [] ∧ (vget L.core c).obuf = [])
    (fun L M => M.rd (Reg.CM_NUM (pairOf c).val) = b.num % 2 ^ 32 ∧ (vget M.core c).marks = [] ∧ (vget M.core (partner c)).marks = [] ∧
      M.rd (Reg.CM_SIG c.val) = sigInit ∧ (vget M.core c).marked = false ∧ L.PairsOnly M) := by
  refine cmCkptWrite_marks (fun _ h => h.1) fun L M h hM => ?_
  obtain ⟨-, hnil, hb, hnum, hagrees, hwb, hwc⟩ := h
  have hnumber : b.num = (L.markNow c tag).num := hnum
  have hspec : M.PairsOnly (M.compare (pairOf c)) ∧ (M.compare (pairOf c)).rd (Reg.CM_NUM (pairOf c).val) = b.num % 2 ^ 32 ∧
      ∀ d, pairOf d = pairOf c → (vget (M.compare (pairOf c)).core d).marks = [] ∧ ((vget M.core d).marked = true →
        (M.compare (pairOf c)).rd (Reg.CM_SIG d.val) = sigInit ∧ (vget (M.compare (pairOf c)).core d).marked = false) := by
    rcases Lane.marks_in_order (hM.marks.trans (congrArg (· ++ [L.markNow c tag]) hnil)) (hM.other.trans hb) with ⟨heven, hodd⟩ | ⟨heven, hodd⟩
    · rw [hnumber]
      exact Lane.compare_matches heven hodd hagrees hwc
    · exact Lane.compare_matches heven hodd hagrees.symm hwb
  obtain ⟨hframe, hwritten, hcores⟩ := hspec
  obtain ⟨hmarks, hreset⟩ := hcores c rfl
  obtain ⟨hsigInit, hmarked⟩ := hreset hM.marked
  exact ⟨hwritten, hmarks, (hcores _ (pairOf_partner c)).1, hsigInit, hmarked, hM.frame.trans hframe⟩

/-- Unequal signatures are a mismatch (R138, R139). -/
theorem cmCkptWrite_differs (l : LaneId) (c : Core) (tag : Word) (b : Mark) : Does (.cmCkptWrite l c tag)
    (fun L => (L.coreLive c = true ∧ L.paired (pairOf c) = true ∧ tag ≠ 0xFFFFFFFF) ∧ (vget L.core c).marks = [] ∧
      (vget L.core (partner c)).marks = [b] ∧ b.num = L.nextNum c ∧ b.sig ≠ (L.markNow c tag).sig)
    (fun _ M => M.sticky (16 + (pairOf c).val) = true ∧ M.rd Reg.CM_MISMATCH_KIND = 0 ∧ M.is Reg.CM_MISMATCH_NEW = true ∧
      M.rd Reg.CM_MISMATCH_PAIR = (pairOf c).val ∧ M.rd Reg.CM_MISMATCH_NUM = b.num % 2 ^ 32 ∧ M.bitOf Reg.CM_STATUS_SELFTEST (pairOf c).val = true ∧
      (vget M.core c).run = .selfTest ∧ (vget M.core (partner c)).run = .selfTest ∧ (vget M.core c).obuf = [] ∧
      (vget M.pair (pairOf c)).repl = []) := by
  refine cmCkptWrite_marks (fun _ h => h.1) fun L M h hM => ?_
  obtain ⟨-, hnil, hb, hnum, hsigs⟩ := h
  have hmark : b.num = (L.markNow c tag).num := hnum
  have hdiffers : M.compare (pairOf c) = M.mismatched (pairOf c) 0 b.num := by
    rcases Lane.marks_in_order (hM.marks.trans (congrArg (· ++ [L.markNow c tag]) hnil)) (hM.other.trans hb) with ⟨heven, hodd⟩ | ⟨heven, hodd⟩
    · rw [hmark]
      exact Lane.compare_differs heven hodd (Ne.symm hsigs)
    · exact Lane.compare_differs heven hodd hsigs
  obtain ⟨hsticky, hkind, hnew, hpair, hnumber, htest, hrepl, hcores⟩ := M.mismatched_begins (pairOf c) 0 b.num
  rw [hdiffers]
  exact ⟨hsticky, hkind, hnew, hpair, hnumber, htest, (hcores c rfl).1, (hcores _ (pairOf_partner c)).1, (hcores c rfl).2.1, hrepl⟩

/-- A checkpoint that the other core has not marked within LAG is a mismatch of KIND 3 (R138). -/
theorem checkpointLagTimeout_mismatches (l : LaneId) (dt : Nat) (p : Pair) (m : Mark) (ms : List Mark) : Does (.checkpointLagTimeout l dt p)
    (fun L => L.firmware = true ∧ L.paired p = true ∧ (vget L.core (evenCore p)).marks = m :: ms ∧ (vget L.core (oddCore p)).marks = [] ∧
      m.time + L.rd Reg.CM_CTRL_LAG * 1000 ≤ (L.pass dt).el)
    (fun _ M => M.sticky (16 + p.val) = true ∧ M.rd Reg.CM_MISMATCH_KIND = 3 ∧ M.is Reg.CM_MISMATCH_NEW = true ∧ M.rd Reg.CM_MISMATCH_PAIR = p.val ∧
      M.rd Reg.CM_MISMATCH_NUM = m.num % 2 ^ 32 ∧ M.bitOf Reg.CM_STATUS_SELFTEST p.val = true ∧
      ∀ c ∈ [evenCore p, oddCore p], (vget M.core c).run = .selfTest ∧ (vget M.core c).obuf = [] ∧ (vget M.core c).marks = []) := by
  refine does_of _ (fun _ => rfl) fun L h => ?_
  obtain ⟨hfirm, hpaired, heven, hodd, hlag⟩ := h
  have hfirm' : (L.pass dt).firmware = true := hfirm
  have hpaired' : (L.pass dt).paired p = true := hpaired
  have heven' : (vget (L.pass dt).core (evenCore p)).marks = m :: ms := heven
  have hodd' : (vget (L.pass dt).core (oddCore p)).marks = [] := hodd
  have hlag' : decide (m.time + (L.pass dt).rd Reg.CM_CTRL_LAG * 1000 ≤ (L.pass dt).el) = true := decide_eq_true hlag
  simp only [hfirm', hpaired', heven', hodd', hlag', Bool.not_true, Bool.or_self, Bool.false_eq_true, if_false, Lane.when, if_true]
  obtain ⟨hsticky, hkind, hnew, hpair, hnumber, htest, -, hcores⟩ := (L.pass dt).mismatched_begins p 3 m.num
  exact ⟨hsticky, hkind, hnew, hpair, hnumber, htest, fun c hc => hcores c ((mem_pair_iff p c).1 hc)⟩

end Sys2Proof.Machine

namespace Sys2Proof.Machine

/-! ### Cache errors (R127, R138) -/

theorem cacheSource_fires (c : Core) : fixedClass (5 + c.val) ≠ 0 := by revert c; decide

theorem Lane.poison_rd (c : Core) (L : Lane) (g : Fld) : (L.poison c).rd g = L.rd g :=
  Lane.when_proj _ (Lane.onCore c fun x => { x with poison := true }) (Lane.rd · g) (fun _ => rfl) L

theorem uncorrectableCacheError_poisons (l : LaneId) (c : Core) : Does (.uncorrectableCacheError l c)
    (fun L => L.firmware = true)
    (fun L M => M.sticky (5 + c.val) = true ∧ (L.paired (pairOf c) = true → (vget M.core c).poison = true)) := by
  refine does_of (fun L => L.when L.firmware fun L => (L.fire (5 + c.val)).poison c) (fun _ => rfl) fun L h => ?_
  rw [Lane.when_of_true _ _ h]
  refine ⟨?_, fun hpaired => ?_⟩
  · exact (congrArg (nbit · ((5 + c.val) % 32)) ((L.fire (5 + c.val)).poison_rd c _)).trans (L.fire_sticky _ (cacheSource_fires c))
  · have hstill : (L.fire (5 + c.val)).paired (pairOf c) = true := by
      rw [Lane.paired, Lane.bitOf, (Lane.fire_reacts (5 + c.val) (.refl L)).rd _ (not_reacts_of_cm (by decide))]
      exact hpaired
    rw [Lane.poison, Lane.when_of_true _ _ hstill]
    exact congrArg CoreSt.poison (vget_vupd_same (L.fire (5 + c.val)).core c _)

/-! ### The outcome of a self-test (R139, R141 to R148) -/

/-- The outcome of a self-test as CM_STATUS and CM_MISMATCH show it (R139, R152). -/
def Lane.outcomeShown (p : Pair) (even odd : Bool) (o : Nat) (L : Lane) : Lane :=
  (L.wrBit Reg.CM_STATUS_SELFTEST p.val false).when (decide (L.rd Reg.CM_MISMATCH_PAIR = p.val)) fun L => L.loadFields
    [(Reg.CM_MISMATCH_EVEN_FAIL, b2n (!even)), (Reg.CM_MISMATCH_ODD_FAIL, b2n (!odd)), (Reg.CM_MISMATCH_OUTCOME, o)]

/-- The suspension of the challenges ends, and a debug request that waited is carried out (R148, R319). -/
def Lane.testEnded (p : Pair) (L : Lane) : Lane := (if p = 0 then L.endSuspend else L.stop (.selfTest 1)).debugPending p

/-- A self-test that both cores passed below RETRY_MAX: both run again (R141, R142). -/
theorem Lane.outcome_transient {p : Pair} {L : Lane} (h : L.rd (retryFld p) < L.rd Reg.CM_CTRL_RETRY_MAX) :
    L.outcome p true true = (((L.outcomeShown p true true 2).count (retryFld p) 1).release p [evenCore p, oddCore p]).testEnded p := by
  have ho : L.outcomeOf p true true = 2 := if_pos h
  simp only [Lane.outcome, ho]
  rfl

/-- A self-test that one core failed: the other goes on alone (R141, R144). -/
theorem Lane.outcome_single (p : Pair) (odd : Bool) (L : Lane) : L.outcome p (!odd) odd =
    ((((L.outcomeShown p (!odd) odd 1).single p odd).onCore (if odd then evenCore p else oddCore p) fun c => { c with run := .stopped }).release p
      [if odd then oddCore p else evenCore p]).testEnded p := by
  have hpartner : partner (evenCore p) = oddCore p ∧ partner (oddCore p) = evenCore p := by revert p; decide
  cases odd
  · simp only [Lane.outcome, Bool.not_false, if_true, hpartner.1]
    rfl
  · simp only [Lane.outcome, Bool.not_true, Bool.false_eq_true, if_false, hpartner.2]
    rfl

/-- A self-test that both cores failed halts the pair (R141, R142). -/
theorem Lane.outcome_fatal (p : Pair) (L : Lane) : L.outcome p false false = ((L.outcomeShown p false false 3).haltPair p).testEnded p := rfl

/-- What the outcome shows. -/
theorem Lane.outcomeShown_spec (p : Pair) (even odd : Bool) {o : Nat} (ho : o < 4) (L : Lane) :
    L.RegsOnly (L.outcomeShown p even odd o) ∧ (L.outcomeShown p even odd o).bitOf Reg.CM_STATUS_SELFTEST p.val = false ∧
      (L.rd Reg.CM_MISMATCH_PAIR = p.val → (L.outcomeShown p even odd o).rd Reg.CM_MISMATCH_OUTCOME = o) ∧
      ∀ g : Fld, Reg.CM_STATUS_SELFTEST.key ≠ g.key → g.key / 64 ≠ 0x20020080 → (L.outcomeShown p even odd o).rd g = L.rd g := by
  have hclear : (L.wrBit Reg.CM_STATUS_SELFTEST p.val false).bitOf Reg.CM_STATUS_SELFTEST p.val = false := by
    rw [Lane.bitOf_wrBit, if_pos rfl, Bool.and_false]
  have hload (N : Lane) (g : Fld) (hg : g.key / 64 ≠ 0x20020080) : (N.loadFields
      [(Reg.CM_MISMATCH_EVEN_FAIL, b2n (!even)), (Reg.CM_MISMATCH_ODD_FAIL, b2n (!odd)), (Reg.CM_MISMATCH_OUTCOME, o)]).rd g = N.rd g := by
    have hne {f : Fld} (hf : f.key / 64 = 0x20020080) : f.key ≠ g.key := fun e => hg (e ▸ hf)
    simp only [Lane.loadFields, List.foldl_cons, List.foldl_nil]
    rw [Lane.rd_wr_ne _ _ (hne rfl), Lane.rd_wr_ne _ _ (hne rfl), Lane.rd_wr_ne _ _ (hne rfl)]
  have hwhen (g : Fld) (hg : g.key / 64 ≠ 0x20020080) : (L.outcomeShown p even odd o).rd g = (L.wrBit Reg.CM_STATUS_SELFTEST p.val false).rd g :=
    Lane.when_proj _ _ (Lane.rd · g) (fun N => hload N g hg) _
  refine ⟨?_, ?_, fun hpair => ?_, fun g hs hg => ?_⟩
  · unfold Lane.outcomeShown Lane.when
    split <;> rfl
  · rw [Lane.bitOf, hwhen _ (by decide)]
    exact hclear
  · rw [Lane.outcomeShown, Lane.when_of_true _ _ (decide_eq_true hpair)]
    simp only [Lane.loadFields, List.foldl_cons, List.foldl_nil]
    rw [Lane.rd_wr_same]
    exact Nat.mod_eq_of_lt ho
  · rw [hwhen g hg]
    exact L.rd_wr_ne _ hs

/-! #### The release (R143) -/

/-- A core that starts at an entry (R143). -/
def CoreSt.startedAt (e n : Nat) (x : CoreSt) : CoreSt := { Init.core with run := .running, pc := BitVec.ofNat 64 e, ckpt := n, taken := x.taken }

/-- The cores of a lane once some of a pair have started at its entry (R143). -/
def Lane.coresStarted (p : Pair) (cs : List Core) (L : Lane) : Vector CoreSt 4 :=
  cs.foldl (fun v c => vupd v c (CoreSt.startedAt (L.rd (Reg.CM_ENTRY p.val)) (vget L.pair p).num)) L.core

theorem Lane.each_startCore (p : Pair) (cs : List Core) (L : Lane) : L.each cs (Lane.startCore p) = { L with core := L.coresStarted p cs } := by
  unfold Lane.each Lane.coresStarted
  induction cs generalizing L with
  | nil => rfl
  | cons c cs ih => exact ih (L.startCore p c)

/-- A release starts the cores it names, and clears their window (R143). -/
theorem Lane.release_starts {p : Pair} {L : Lane} (h : L.entryOk p = true) (cs : List Core) :
    L.release p cs = { L with sram := (L.clearWindow p).sram, core := L.coresStarted p cs } := by
  rw [Lane.release, if_pos h, Lane.each_startCore]
  rfl

/-! #### The end of the test (R148, R319) -/

/-- The suspension ends without a miss. -/
theorem Lane.endSuspend_plain {L : Lane} (h : L.is Reg.LG_CHAL_SUSP = true → L.due (.selfTest 0) 3500001 = false ∨ L.challenges = false) :
    L.endSuspend = (L.clr Reg.LG_CHAL_SUSP).stop (.selfTest 0) := by
  have hgrid : ((L.clr Reg.LG_CHAL_SUSP).stop (.selfTest 0)).challenges = L.challenges := by
    simp only [Lane.challenges, Lane.gstate, Lane.rd_stop, L.rd_clr_ne (f := Reg.LG_CHAL_SUSP) (g := Reg.LG_STATUS_GSTATE) (by decide)]
    rfl
  refine Lane.when_of_false _ _ ?_
  rw [hgrid]
  by_cases hs : L.is Reg.LG_CHAL_SUSP = true
  · rcases h hs with h | h <;> rw [h] <;> simp
  · simp [hs]

/-- A pair that is not PAIRED is not split once more: a waiting request halts cores at most. -/
theorem Lane.debugPending_rd {p : Pair} {L : Lane} (h : L.paired p = false) (g : Fld) : (L.debugPending p).rd g = L.rd g := by
  unfold Lane.debugPending
  split
  · rw [Lane.split_of_unpaired (L := L.onPair p _) h, (Lane.haltAsked_coresOnly p (L.onPair p _))]
    rfl
  · rfl

theorem Lane.debugPending_idle {p : Pair} {L : Lane} (h : (vget L.pair p).debugWaits = false) : L.debugPending p = L := by
  rw [Lane.debugPending, h]
  rfl

/-- The end of a test where no debug request waits and no challenge is missed. -/
theorem Lane.testEnded_plain {p : Pair} {L : Lane} (hwaits : (vget L.pair p).debugWaits = false)
    (h : p = 0 → L.is Reg.LG_CHAL_SUSP = true → L.due (.selfTest 0) 3500001 = false) :
    (L.testEnded p).core = L.core ∧ (p = 0 → (L.testEnded p).is Reg.LG_CHAL_SUSP = false) ∧
      ∀ g : Fld, Reg.LG_CHAL_SUSP.key ≠ g.key → (L.testEnded p).rd g = L.rd g := by
  unfold Lane.testEnded
  by_cases hp : p = 0
  · subst hp
    rw [if_pos rfl, Lane.endSuspend_plain fun hs => .inl (h rfl hs), Lane.debugPending_idle (L := (L.clr Reg.LG_CHAL_SUSP).stop (.selfTest 0)) hwaits]
    exact ⟨rfl, fun _ => L.is_clr_same _, fun g hg => L.rd_clr_ne hg⟩
  · rw [if_neg hp, Lane.debugPending_idle (L := L.stop (.selfTest 1)) hwaits]
    exact ⟨rfl, fun h0 => absurd h0 hp, fun _ _ => rfl⟩

end Sys2Proof.Machine

namespace Sys2Proof.Machine

/-! ### The entry of WINTER (R315) -/

section
variable {L M : Lane}

/-- The lane can enter WINTER, or is in WINTER (R54). -/
def Lane.Winters (L : Lane) : Prop := L.upState = true ∨ L.svc = 6

theorem Lane.upState_congr (h : M.svc = L.svc) : M.upState = L.upState := by rw [Lane.upState, Lane.upState, h]

/-- No reaction takes that away. -/
theorem Lane.Winters.of_reacts (h : L.Winters) (hr : L.Reacts M) : M.Winters := by
  rcases hr.svc with hs | hs
  · exact h.imp (fun hu => (Lane.upState_congr hs).trans hu) fun h6 => hs.trans h6
  · exact .inr hs

theorem Lane.Reacts.svc_winter (hr : L.Reacts M) (h : L.svc = 6) : M.svc = 6 := hr.svc.elim (fun hs => hs.trans h) fun hs => hs

theorem Lane.Winters.winterState (h : L.Winters) : L.winterState.svc = 6 := by
  unfold Lane.winterState
  split
  · have hsvc : ((L.setSvc 6).wr Reg.SYS_ARM_STEP 0).svc = 6 := ((L.setSvc 6).rd_wr_ne 0 (by decide)).trans (L.setSvc_svc 6 (by decide))
    exact (Lane.autoCommit_reacts (Lane.withdrawAll_reacts (.refl _))).svc_winter hsvc
  · next hu => exact h.resolve_left hu

/-- A forcing cause brings the lane to WINTER (R314, R315). -/
theorem Lane.Winters.forced (h : L.Winters) (cause : Nat) : (L.forced cause).svc = 6 := by
  unfold Lane.forced Lane.force
  split
  · have hg : L.Reacts (((L.wr Reg.LG_STATUS_GSTATE 3).wr Reg.LG_STATUS_FCAUSE cause).clr Reg.LG_CHAL_PEND) :=
      Lane.clr_reacts _ (Lane.wr_reacts _ _ (Lane.wrGstate_reacts (.refl L)) (by unfold ReactKey; decide)) (by unfold ReactKey; decide)
    have hout := Lane.withdrawAll_reacts (Lane.forceOutputs_reacts Lane.fire (fun n _ _ _ hN => Lane.fire_reacts n hN) hg)
    exact (Lane.slazStop_reacts (.refl _)).svc_winter (h.of_reacts hout).winterState
  · exact (Lane.when_reacts (fun _ hN => Lane.slazStop_reacts hN) (.refl L.winterState)).svc_winter h.winterState

/-- After a forcing cause the guard issues no challenge (R316, R326). -/
theorem Lane.forced_challenges {c : Nat} (hc : c < 8) (L : Lane) : (L.forced c).challenges = false := by
  have hguard := (Lane.forced_reacts c (.refl L)).guardSt
  by_cases hp : L.guardSt.powered = true
  · have hstate : (L.forced c).gstate = 3 := by
      by_cases hg : L.gstate = 3
      · exact (((Lane.Weathers.refl L).forced c).cause hg).1
      · exact (Lane.forced_guard hc hp hg).1
    simp [Lane.challenges, hstate]
  · simp [Lane.challenges, hguard, hp]

end

/-! ### Pairs that are single or halted (R141, R142, R144) -/

/-- A pair of which one core goes on is SINGLE, and the lane is barred (R141, R144, R145). -/
theorem Lane.single_spec (p : Pair) (odd : Bool) (L : Lane) :
    L.RegsOnly (L.single p odd) ∧ (L.single p odd).paired p = false ∧ (L.single p odd).bitOf Reg.CM_STATUS_SINGLE p.val = true ∧
      (L.single p odd).bitOf Reg.CM_STATUS_SURVIVOR p.val = odd ∧ (L.single p odd).is Reg.CM_STATUS_BARRED = true ∧
      (∀ f : Func, (L.single p odd).is (Reg.ROLE_FUNC_BARRED f.code) = true) ∧
      ∀ g : Fld, 0x20020000 ≤ g.key / 64 → Reg.CM_STATUS_PAIRED.key ≠ g.key → Reg.CM_STATUS_BARRED.key ≠ g.key →
        Reg.CM_STATUS_SINGLE.key ≠ g.key → Reg.CM_STATUS_SURVIVOR.key ≠ g.key → (L.single p odd).rd g = L.rd g := by
  have hrd (g : Fld) (h1 : Reg.CM_STATUS_SINGLE.key ≠ g.key) (h2 : Reg.CM_STATUS_SURVIVOR.key ≠ g.key) : (L.single p odd).rd g = (L.unpair p).rd g :=
    (Lane.rd_wr_ne _ _ h2).trans (Lane.rd_wr_ne _ _ h1)
  refine ⟨((L.unpair_regsOnly p).wr _ _).wr _ _, ?_, ?_, ?_, ?_, fun f => ?_, fun g h0 h1 h2 h3 h4 => ?_⟩
  · rw [Lane.paired, Lane.bitOf, hrd _ (by decide) (by decide)]
    exact L.unpair_paired p
  · have hset := (L.unpair p).bitOf_wrBit Reg.CM_STATUS_SINGLE p.val p.val true
    rw [if_pos rfl, Bool.and_true, decide_eq_true (show p.val < Reg.CM_STATUS_SINGLE.w from p.isLt)] at hset
    rw [← hset, Lane.bitOf, Lane.bitOf]
    exact congrArg (nbit · p.val) (Lane.rd_wr_ne _ _ (by decide))
  · have hset := ((L.unpair p).wrBit Reg.CM_STATUS_SINGLE p.val true).bitOf_wrBit Reg.CM_STATUS_SURVIVOR p.val p.val odd
    rw [if_pos rfl, decide_eq_true (show p.val < Reg.CM_STATUS_SURVIVOR.w from p.isLt), Bool.true_and] at hset
    exact hset
  · exact (Lane.is_congr (hrd _ (by decide) (by decide))).trans (L.unpair_barred p)
  · refine (Lane.is_congr (hrd _ ?_ ?_)).trans (Lane.barAll_barred _ f) <;> cases f <;> decide
  · exact (hrd g h3 h4).trans (L.unpair_rd p (.inr h0) h1 h2)

/-- The cores of a pair stop for good (R141, R142). -/
def Lane.pairStopped (p : Pair) (L : Lane) : Lane := ((L.unpair p).wrBit Reg.CM_STATUS_HALTED p.val true).coresDo p .stopped

theorem Lane.pairStopped_spec (p : Pair) (L : Lane) :
    (L.pairStopped p).paired p = false ∧ (L.pairStopped p).bitOf Reg.CM_STATUS_HALTED p.val = true ∧ (L.pairStopped p).is Reg.CM_STATUS_BARRED = true ∧
      ∀ g : Fld, Reg.CM_STATUS_HALTED.key ≠ g.key → (L.pairStopped p).rd g = (L.unpair p).rd g := by
  have hrd (g : Fld) (h : Reg.CM_STATUS_HALTED.key ≠ g.key) : (L.pairStopped p).rd g = (L.unpair p).rd g := (L.unpair p).rd_wr_ne _ h
  refine ⟨?_, ?_, (Lane.is_congr (hrd _ (by decide))).trans (L.unpair_barred p), hrd⟩
  · rw [Lane.paired, Lane.bitOf, hrd _ (by decide)]
    exact L.unpair_paired p
  · have hset := (L.unpair p).bitOf_wrBit Reg.CM_STATUS_HALTED p.val p.val true
    rw [if_pos rfl, Bool.and_true, decide_eq_true (show p.val < Reg.CM_STATUS_HALTED.w from p.isLt)] at hset
    exact hset

/-- A pair that is halted raises its source; with P_0 the lane enters WINTER (R141, R142). -/
theorem Lane.haltPair_halts (p : Pair) (L : Lane) :
    (L.pairStopped p).Reacts (L.haltPair p) ∧ (L.haltPair p).sticky (18 + p.val) = true ∧ (p = 0 → (L.haltPair p).challenges = false) ∧
      (p = 0 → (L.pairStopped p).Winters → (L.haltPair p).svc = 6) := by
  by_cases hp : p = 0
  · subst hp
    rw [show L.haltPair 0 = ((L.pairStopped 0).fire 18).forced 6 from rfl]
    have hfire := Lane.fire_reacts 18 (.refl (L.pairStopped 0))
    exact ⟨Lane.forced_reacts 6 hfire, (Lane.forced_reacts 6 (.refl _)).sticky 18 (by decide) (Lane.fire_sticky _ 18 (by decide)),
      fun _ => Lane.forced_challenges (by decide) _, fun _ h => (h.of_reacts hfire).forced 6⟩
  · have h1 : p = 1 := by revert p; decide
    subst h1
    rw [show L.haltPair 1 = (L.pairStopped 1).fire 19 from rfl]
    exact ⟨Lane.fire_reacts 19 (.refl _), Lane.fire_sticky _ 19 (by decide), fun h => absurd h hp, fun h => absurd h hp⟩

end Sys2Proof.Machine

namespace Sys2Proof.Machine

/-! ### The end of a core self-test (R139 to R148) -/

theorem coreSelfTestDone_does {l : LaneId} {dt : Nat} {p : Pair} {even odd : Bool} {pre : Lane → Prop} {post : Lane → Lane → Prop}
    (hpre : ∀ L, pre L → L.firmware = true ∧ L.selfTesting p = true) (hpost : ∀ L, pre L → post L ((L.pass dt).outcome p even odd)) :
    Does (.coreSelfTestDone l dt p even odd) pre post :=
  does_of (fun L => (L.pass dt).when ((L.pass dt).firmware && (L.pass dt).selfTesting p) (Lane.outcome p even odd)) (fun _ => rfl) fun L h => by
    obtain ⟨hfirm, htest⟩ := hpre L h
    rw [Lane.when_of_true _ _ (show ((L.pass dt).firmware && (L.pass dt).selfTesting p) = true from by
      rw [show (L.pass dt).firmware = true from hfirm, show (L.pass dt).selfTesting p = true from htest]; rfl)]
    exact hpost L h

/-- The retries of a pair have a field of their own. -/
theorem retryFld_key (p : Pair) : (retryFld p).key / 64 = 0x20020000 ∧ ∀ g ∈ [Reg.CM_STATUS_SELFTEST, Reg.CM_STATUS_PAIRED],
    (retryFld p).key ≠ g.key ∧ g.key ≠ (retryFld p).key := by
  revert p; decide

theorem entry_key (p : Pair) : (Reg.CM_ENTRY p.val).key / 64 = 0x200200A0 + 8 * p.val := by revert p; decide

/-- The entry of a pair stands where its field does (R143). -/
theorem Lane.entryOk_congr {p : Pair} {L M : Lane} (h : M.rd (Reg.CM_ENTRY p.val) = L.rd (Reg.CM_ENTRY p.val)) : M.entryOk p = L.entryOk p := by
  simp only [Lane.entryOk, h]

section
variable {p : Pair} {L : Lane}

/-- What comes before the release of both cores. -/
theorem Lane.retried_spec (p : Pair) (L : Lane) :
    L.RegsOnly ((L.outcomeShown p true true 2).count (retryFld p) 1) ∧
      ((L.outcomeShown p true true 2).count (retryFld p) 1).bitOf Reg.CM_STATUS_SELFTEST p.val = false ∧
      ((L.outcomeShown p true true 2).count (retryFld p) 1).rd (retryFld p) = satUp (2 ^ (retryFld p).w - 1) (L.rd (retryFld p)) 1 ∧
      (L.rd Reg.CM_MISMATCH_PAIR = p.val → ((L.outcomeShown p true true 2).count (retryFld p) 1).rd Reg.CM_MISMATCH_OUTCOME = 2) ∧
      ((L.outcomeShown p true true 2).count (retryFld p) 1).paired p = L.paired p ∧
      ∀ g : Fld, g.key / 64 ≠ 0x20020000 → g.key / 64 ≠ 0x20020080 → ((L.outcomeShown p true true 2).count (retryFld p) 1).rd g = L.rd g := by
  obtain ⟨honly, htest, hout, hrd⟩ := L.outcomeShown_spec p true true (o := 2) (by decide)
  obtain ⟨hkey, hne⟩ := retryFld_key p
  obtain ⟨hself, hself'⟩ := hne _ List.mem_cons_self
  obtain ⟨hpaired, -⟩ := hne _ (List.mem_cons_of_mem _ List.mem_cons_self)
  refine ⟨honly.wr _ _, ?_, ?_, fun h => ?_, ?_, fun g h0 h8 => ?_⟩
  · rw [Lane.bitOf, Lane.rd_count_ne _ _ hself]
    exact htest
  · rw [Lane.rd_count_same, hrd _ hself' (by omega)]
  · rw [Lane.rd_count_ne _ _ fun e => by rw [e] at hkey; revert hkey; decide]
    exact hout h
  · rw [Lane.paired, Lane.bitOf, Lane.rd_count_ne _ _ hpaired, hrd _ (by decide) (by decide)]
    rfl
  · rw [Lane.rd_count_ne _ _ fun e => h0 (e ▸ hkey), hrd g (fun e => h0 (by rw [← e]; rfl)) h8]

/-- Both cores passed below RETRY_MAX: the retry is counted and both run from the entry (R141 to R143). -/
theorem Lane.outcome_retries (hretry : L.rd (retryFld p) < L.rd Reg.CM_CTRL_RETRY_MAX) (hentry : L.entryOk p = true)
    (hwaits : (vget L.pair p).debugWaits = false) (hlate : p = 0 → L.is Reg.LG_CHAL_SUSP = true → L.due (.selfTest 0) 3500001 = false) :
    let M := L.outcome p true true
    M.bitOf Reg.CM_STATUS_SELFTEST p.val = false ∧ M.rd (retryFld p) = satUp (2 ^ (retryFld p).w - 1) (L.rd (retryFld p)) 1 ∧
      (L.rd Reg.CM_MISMATCH_PAIR = p.val → M.rd Reg.CM_MISMATCH_OUTCOME = 2) ∧ M.paired p = L.paired p ∧ (p = 0 → M.is Reg.LG_CHAL_SUSP = false) ∧
      ∀ c ∈ [evenCore p, oddCore p], vget M.core c = (vget L.core c).startedAt (L.rd (Reg.CM_ENTRY p.val)) (vget L.pair p).num := by
  obtain ⟨honly, htest, hcount, hout, hpaired, hrd⟩ := L.retried_spec p
  have hkey := entry_key p
  have hlt := p.isLt
  rw [Lane.outcome_transient hretry]
  generalize (L.outcomeShown p true true 2).count (retryFld p) 1 = N at honly htest hcount hout hpaired hrd
  have hat : N.rd (Reg.CM_ENTRY p.val) = L.rd (Reg.CM_ENTRY p.val) := hrd _ (by omega) (by omega)
  have hpair : N.pair = L.pair := by rw [honly]
  have hcore : N.core = L.core := by rw [honly]
  have hsusp : N.is Reg.LG_CHAL_SUSP = L.is Reg.LG_CHAL_SUSP := Lane.is_congr (hrd _ (by decide) (by decide))
  have hdue : N.due (.selfTest 0) 3500001 = L.due (.selfTest 0) 3500001 := by rw [honly]; rfl
  have hrelease := Lane.release_starts ((Lane.entryOk_congr hat).trans hentry) [evenCore p, oddCore p]
  have hregs (g : Fld) : (N.release p [evenCore p, oddCore p]).rd g = N.rd g := by rw [hrelease]; rfl
  obtain ⟨hcores, hends, hkeep⟩ := Lane.testEnded_plain (p := p) (L := N.release p [evenCore p, oddCore p])
    (by rw [hrelease]; exact hpair ▸ hwaits)
    fun h0 hs => by rw [hrelease] at hs ⊢; exact hdue.trans (hlate h0 (hsusp ▸ hs))
  have hfin (g : Fld) (hg : Reg.LG_CHAL_SUSP.key ≠ g.key) := (hkeep g hg).trans (hregs g)
  refine ⟨?_, ?_, fun h => ?_, ?_, hends, fun c hc => ?_⟩
  · rw [Lane.bitOf, hfin _ (by decide)]
    exact htest
  · rw [hfin _ fun e => by have hr := (retryFld_key p).1; rw [← e] at hr; revert hr; decide]
    exact hcount
  · rw [hfin _ (by decide)]
    exact hout h
  · rw [Lane.paired, Lane.bitOf, hfin _ (by decide)]
    exact hpaired
  · have hstarted : vget (N.coresStarted p [evenCore p, oddCore p]) c =
        if pairOf c = p then (vget N.core c).startedAt (N.rd (Reg.CM_ENTRY p.val)) (vget N.pair p).num else vget N.core c :=
      vget_pairCores N.core (CoreSt.startedAt (N.rd (Reg.CM_ENTRY p.val)) (vget N.pair p).num) p c
    rw [hcores, hrelease]
    dsimp only
    rw [hstarted, if_pos ((mem_pair_iff p c).1 hc), hat, hpair, hcore]

/-- What comes before the release of the core that passed. -/
theorem Lane.singled_spec (p : Pair) (odd : Bool) (L : Lane) :
    L.RegsOnly ((L.outcomeShown p (!odd) odd 1).single p odd) ∧
      ((L.outcomeShown p (!odd) odd 1).single p odd).bitOf Reg.CM_STATUS_SELFTEST p.val = false ∧
      (L.rd Reg.CM_MISMATCH_PAIR = p.val → ((L.outcomeShown p (!odd) odd 1).single p odd).rd Reg.CM_MISMATCH_OUTCOME = 1) ∧
      ((L.outcomeShown p (!odd) odd 1).single p odd).rd (Reg.CM_ENTRY p.val) = L.rd (Reg.CM_ENTRY p.val) ∧
      ((L.outcomeShown p (!odd) odd 1).single p odd).is Reg.LG_CHAL_SUSP = L.is Reg.LG_CHAL_SUSP := by
  obtain ⟨honly, htest, hout, hrd⟩ := L.outcomeShown_spec p (!odd) odd (o := 1) (by decide)
  obtain ⟨hsingle, -, -, -, -, -, hkeep⟩ := (L.outcomeShown p (!odd) odd 1).single_spec p odd
  have hkey := entry_key p
  have hlt := p.isLt
  have hne {f : Fld} (hf : f.key / 64 = 0x20020000 ∨ f.key / 64 = 0x20020080) : f.key ≠ (Reg.CM_ENTRY p.val).key := fun e => by rw [e] at hf; omega
  refine ⟨?_, ?_, fun h => ?_, ?_, ?_⟩
  · rw [Lane.RegsOnly, honly] at hsingle
    exact honly ▸ hsingle
  · rw [Lane.bitOf, hkeep _ (by decide) (by decide) (by decide) (by decide) (by decide)]
    exact htest
  · rw [hkeep _ (by decide) (by decide) (by decide) (by decide) (by decide)]
    exact hout h
  · rw [hkeep _ (by omega) (hne (by decide)) (hne (by decide)) (hne (by decide)) (hne (by decide)), hrd _ (hne (by decide)) (by omega)]
  · rw [Lane.is_congr (hkeep Reg.LG_CHAL_SUSP (by decide) (by decide) (by decide) (by decide) (by decide)),
      Lane.is_congr (hrd Reg.LG_CHAL_SUSP (by decide) (by decide))]

/-- One core failed: the other goes on as a single one, and the lane is barred (R141, R144, R145). -/
theorem Lane.outcome_singles (odd : Bool) (hentry : L.entryOk p = true)
    (hwaits : (vget L.pair p).debugWaits = false) (hlate : p = 0 → L.is Reg.LG_CHAL_SUSP = true → L.due (.selfTest 0) 3500001 = false) :
    let M := L.outcome p (!odd) odd
    M.bitOf Reg.CM_STATUS_SELFTEST p.val = false ∧ (L.rd Reg.CM_MISMATCH_PAIR = p.val → M.rd Reg.CM_MISMATCH_OUTCOME = 1) ∧ M.paired p = false ∧
      M.bitOf Reg.CM_STATUS_SINGLE p.val = true ∧ M.bitOf Reg.CM_STATUS_SURVIVOR p.val = odd ∧ M.is Reg.CM_STATUS_BARRED = true ∧
      (∀ f : Func, M.is (Reg.ROLE_FUNC_BARRED f.code) = true) ∧
      (vget M.core (if odd then oddCore p else evenCore p)).run = .running ∧
      (vget M.core (if odd then evenCore p else oddCore p)).run = .stopped := by
  obtain ⟨honly, htest, hout, hat, hsusp⟩ := L.singled_spec p odd
  obtain ⟨-, hpaired, hsingle, hsurvivor, hbarred, hfuncs, -⟩ := (L.outcomeShown p (!odd) odd 1).single_spec p odd
  have hne : (if odd then evenCore p else oddCore p) ≠ (if odd then oddCore p else evenCore p) := by
    cases odd
    · exact Ne.symm (evenCore_ne_oddCore p)
    · exact evenCore_ne_oddCore p
  rw [Lane.outcome_single]
  generalize (L.outcomeShown p (!odd) odd 1).single p odd = N at honly htest hout hat hsusp hpaired hsingle hsurvivor hbarred hfuncs
  generalize (if odd then evenCore p else oddCore p) = failed at hne
  generalize (if odd then oddCore p else evenCore p) = passed at hne
  have hdue : N.due (.selfTest 0) 3500001 = L.due (.selfTest 0) 3500001 := by rw [honly]; rfl
  have hrelease := Lane.release_starts (L := N.onCore failed fun c => { c with run := .stopped }) ((Lane.entryOk_congr hat).trans hentry) [passed]
  generalize (N.onCore failed fun c => { c with run := CoreRun.stopped }).release p [passed] = R at hrelease
  have hregs (g : Fld) : R.rd g = N.rd g := by rw [hrelease]; rfl
  obtain ⟨hcores, -, hkeep⟩ := Lane.testEnded_plain (p := p) (L := R)
    (by rw [hrelease]; exact (show (vget N.pair p).debugWaits = false by rw [honly]; exact hwaits))
    fun h0 hs => by rw [hrelease] at hs ⊢; exact hdue.trans (hlate h0 (hsusp ▸ hs))
  have hfin (g : Fld) (hg : Reg.LG_CHAL_SUSP.key ≠ g.key) := (hkeep g hg).trans (hregs g)
  have hstarted : R.core = vupd (vupd N.core failed fun c => { c with run := CoreRun.stopped }) passed
      (CoreSt.startedAt (N.rd (Reg.CM_ENTRY p.val)) (vget N.pair p).num) := by rw [hrelease]; rfl
  refine ⟨?_, fun h => ?_, ?_, ?_, ?_, ?_, fun f => ?_, ?_, ?_⟩
  · rw [Lane.bitOf, hfin _ (by decide)]
    exact htest
  · rw [hfin _ (by decide)]
    exact hout h
  · rw [Lane.paired, Lane.bitOf, hfin _ (by decide)]
    exact hpaired
  · rw [Lane.bitOf, hfin _ (by decide)]
    exact hsingle
  · rw [Lane.bitOf, hfin _ (by decide)]
    exact hsurvivor
  · rw [Lane.is_congr (hfin _ (by decide)), hbarred]
  · rw [Lane.is_congr (hfin _ (by cases f <;> decide)), hfuncs]
  · rw [hcores, hstarted, vget_vupd_same]
    rfl
  · rw [hcores, hstarted, vget_vupd_ne _ _ (Ne.symm hne), vget_vupd_same]

/-- The end of a test of a pair that is not PAIRED and whose guard issues no challenge changes the suspension alone. -/
theorem Lane.testEnded_unpaired (hp : L.paired p = false) (hgrid : p = 0 → L.challenges = false) (g : Fld) (hg : Reg.LG_CHAL_SUSP.key ≠ g.key) :
    (L.testEnded p).rd g = L.rd g := by
  unfold Lane.testEnded
  by_cases h0 : p = 0
  · have hstill : ((L.clr Reg.LG_CHAL_SUSP).stop (.selfTest 0)).paired p = false := by
      rw [Lane.paired, Lane.bitOf, Lane.rd_stop, Lane.rd_clr_ne _ (by decide)]
      exact hp
    rw [if_pos h0, Lane.endSuspend_plain fun _ => .inr (hgrid h0), Lane.debugPending_rd hstill, Lane.rd_stop, Lane.rd_clr_ne _ hg]
  · rw [if_neg h0, Lane.debugPending_rd (L := L.stop (.selfTest 1)) hp, Lane.rd_stop]

/-- Both cores failed: the pair is halted, and with P_0 the lane enters WINTER (R141, R142). -/
theorem Lane.outcome_halts (p : Pair) (L : Lane) :
    let M := L.outcome p false false
    M.bitOf Reg.CM_STATUS_HALTED p.val = true ∧ M.paired p = false ∧ M.is Reg.CM_STATUS_BARRED = true ∧ M.sticky (18 + p.val) = true ∧
      (L.rd Reg.CM_MISMATCH_PAIR = p.val → M.rd Reg.CM_MISMATCH_OUTCOME = 3) ∧ (p = 0 → L.upState = true → M.svc = 6) := by
  obtain ⟨-, -, hout, hshown⟩ := L.outcomeShown_spec p false false (o := 3) (by decide)
  rw [Lane.outcome_fatal]
  generalize L.outcomeShown p false false 3 = S at hout hshown
  obtain ⟨hpaired, hhalted, hbarred, hstopped⟩ := S.pairStopped_spec p
  obtain ⟨hr, hsticky, hgrid, hwinter⟩ := S.haltPair_halts p
  have hcm (g : Fld) (hg : 0x20020000 ≤ g.key / 64 ∧ g.key / 64 < 0x20030000) := hr.rd g (not_reacts_of_cm hg)
  have hunpaired : (S.haltPair p).paired p = false := by
    rw [Lane.paired, Lane.bitOf, hcm _ (by decide)]
    exact hpaired
  have hfin := Lane.testEnded_unpaired hunpaired hgrid
  refine ⟨?_, ?_, ?_, ?_, fun h => ?_, fun h0 hu => ?_⟩
  · rw [Lane.bitOf, hfin _ (by decide), hcm _ (by decide)]
    exact hhalted
  · rw [Lane.paired, Lane.bitOf, hfin _ (by decide)]
    exact hunpaired
  · rw [Lane.is_congr (hfin _ (by decide)), Lane.is_congr (hcm _ (by decide)), hbarred]
  · rw [Lane.sticky, Lane.bitOf, hfin _ (fun e => by have hlt := p.isLt; simp only [Fld.key, Reg.LG_CHAL_SUSP, Reg.FC_STICKY_S] at e; omega)]
    exact hsticky
  · rw [hfin _ (by decide), hcm _ (by decide), hstopped _ (by decide), S.unpair_rd p (by decide) (by decide) (by decide)]
    exact hout h
  · have hsvc : (S.pairStopped p).svc = L.svc := by
      rw [Lane.svc, hstopped _ (by decide), S.unpair_rd p (by decide) (by decide) (by decide), hshown _ (by decide) (by decide), Lane.svc]
    rw [Lane.svc, hfin _ (by decide)]
    exact hwinter h0 (.inl ((Lane.upState_congr hsvc).trans hu))

end

/-- Settles O15: what a checkpoint marks, when it matches, and what a mismatch, a lag time-out, a self-test and a cache error bring. -/
theorem checkpointsAndMismatches : Obligations.checkpoints_and_mismatches := by
  refine ⟨cmCkptWrite_unpaired,
    fun l c tag => (cmCkptWrite_leads l c tag).mono (fun _ h => h) fun L M _ hM => ⟨hM.marks, hM.ckpt, hM.obuf, hM.count, hM.marked, hM.sig, hM.frame⟩,
    fun l c tag b => (cmCkptWrite_matches l c tag b).mono (fun L h => ?_) fun _ _ _ h => h,
    fun l c tag b => (cmCkptWrite_differs l c tag b).mono (fun L h => ?_) fun _ _ _ h => h, checkpointLagTimeout_mismatches,
    fun l dt p => coreSelfTestDone_does (fun _ h => ⟨h.1, h.2.1⟩) fun L h => ?_,
    fun l dt p odd => coreSelfTestDone_does (fun _ h => ⟨h.1, h.2.1⟩) fun L h => ?_,
    fun l dt p => coreSelfTestDone_does (fun _ h => h) fun L _ => (L.pass dt).outcome_halts p, uncorrectableCacheError_poisons⟩
  · obtain ⟨hlive, hpaired, htag, hnil, hb, hnum, hpb, hpc, hsig, hcount, hbtag, hwb, hwc⟩ := h
    exact ⟨⟨hlive, hpaired, htag⟩, hnil, hb, hnum, ⟨hpc, hpb, hsig.symm, hcount.symm, hbtag.symm⟩, hwb, hwc⟩
  · obtain ⟨hlive, hpaired, htag, hnil, hb, hnum, hsig⟩ := h
    exact ⟨⟨hlive, hpaired, htag⟩, hnil, hb, hnum, hsig⟩
  · obtain ⟨-, -, hretry, hentry, hwaits, hlate⟩ := h
    exact Lane.outcome_retries (L := L.pass dt) hretry hentry hwaits hlate
  · obtain ⟨-, -, hentry, hwaits, hlate⟩ := h
    exact Lane.outcome_singles (L := L.pass dt) odd hentry hwaits hlate

end Sys2Proof.Machine
